-- ==== Sys2Proof/Word.lean ====
section
/-! DEFINITION. The word types of the Citum's control space and the two worlds (R10, R495). -/

namespace Sys2Proof

/-- A byte. -/
abbrev Byte := BitVec 8

/-- A register word (spec/00: registers are 32 bits wide). -/
abbrev Word := BitVec 32

/-- A world (R495), with whom an access comes from (R496): PF0 and a non-secure target are `nonSecure`, PF1, the Cabinet and a secure
target `secure`; the Workbench cores are an initiator of the non-secure world, which SMC_XW_LOG tells from PF0 (R497). No target
is `workbench`. -/
inductive World where
  | nonSecure | secure | workbench
  deriving DecidableEq, Repr

/-- The number of a world in the world map and in SMC_REG_REFUSED[w] (R495, R538). -/
def World.toNat : World → Nat
  | .nonSecure => 0
  | .secure => 1
  | .workbench => 0

/-- The world a world map bit names (R495). -/
def World.ofBit (b : Nat) : World := if b = 0 then .nonSecure else .secure

end Sys2Proof
end

