-- ==== Sys2Proof/Syntax.lean ====
section
/-! DEFINITION. The commands of the Citum with their operands. A host access carries the world of its function
(R496); the other rows carry what the outside shows the device (packets, edges, readings, instants). -/

namespace Sys2Proof

/-- What the check of a delivered queue word finds (R215, R216). -/
inductive Ecc where
  | clean | corrected | uncorrectable
  deriving DecidableEq, Repr

/-- What a local store access of a firing meets (R246, R248). -/
inductive LsErr where
  | none | corrected | uncorrectable | overflow
  deriving DecidableEq, Repr

/-- What a read of the HBM meets (R209): the 64-byte units that an uncorrectable error affects. -/
inductive HbmErr where
  | none | corrected | uncorrectable (units : List Nat)
  deriving DecidableEq, Repr

/-- What reading a structure image shows the SCU: whether the source read completed, and the bytes read (R314). -/
structure ImageObs where
  readOk : Bool
  bytes : List Nat
  deriving DecidableEq, Repr

/-- A Ricel packet as a lane of the Citum receives it (R65, R66): SEQ, DBLK and CRC of its END block, the header of its
START block, its data blocks, the number of the block it ends at, whether another block stood inside it, and the instant it arrives (LTU
units). -/
structure Packet where
  seq : BitVec 8
  dblk : BitVec 8
  crc : BitVec 32
  hdr : BitVec 56
  words : List (BitVec 64)
  blk : Nat
  broken : Bool
  time : Int := 0
  deriving DecidableEq, Repr

/-- The round trip of an ECHO in timing units, and the instant its reply arrives (R85). -/
structure EchoTrip where
  trip : Nat
  time : Int := 0
  deriving DecidableEq, Repr

/-- A Kelim frame as a lane receives it (R65, R346, R349): SEQ, DBLK and CRC of its END block, the body of its START block,
its data blocks, whether another block stood inside it, and the control blocks that came on the lane since the frame before (byte 0
and body). -/
structure KFrame where
  seq : BitVec 8
  dblk : BitVec 11
  crc : BitVec 32
  hdr : BitVec 56
  words : List (BitVec 64)
  broken : Bool
  ctl : List (BitVec 8 × BitVec 56) := []
  deriving DecidableEq, Repr

/-- What the training of a Kelim lane with block lock shows (R85, R348): the PRBS31 errors counted here and at the other end, and the
round trip of ECHO and its TURN in timing units. -/
structure KTrain where
  up : BitVec 32 := 0
  down : BitVec 32 := 0
  trip : Nat := 0
  turn : BitVec 20 := 0
  deriving DecidableEq, Repr

/-- A lane that acquires block lock, and on a lane in 8b/10b the characters received (R61, R90). -/
structure LockSeen where
  lane : Fin 192
  chars : List (BitVec 9) := []
  deriving DecidableEq, Repr

/-- An SD_REFCLK input that has stopped, or that runs again (R565). -/
structure RefClk where
  clock : Fin 6
  runs : Bool := false
  deriving DecidableEq, Repr

/-- The level of a pin when it is sampled, and the instant (R104). -/
structure PinSample where
  level : Bool
  time : Int
  deriving DecidableEq, Repr

/-- The instant a line comes to the store, and what a seam check that it ends meets in the slots it reads (R208, R209). -/
structure StoreSeen where
  time : Int
  seam : List (Nat × HbmErr) := []
  deriving DecidableEq, Repr

/-- A station, at an instant. -/
structure StationAt where
  station : Fin 8
  time : Int
  deriving DecidableEq, Repr

/-- A mailbox ring, at an instant. -/
structure RingAt where
  ring : Fin 2
  time : Int
  deriving DecidableEq, Repr

/-- An access of IEA_ENG_LS_DATA (R249): the value written, none for a read, and what a read meets (R246). -/
structure LsAccess where
  value : Option (BitVec 32)
  err : LsErr := .none
  deriving DecidableEq, Repr

/-- A write of SCU_IMG_CTRL, and whether the image at its source is a partial one (R314). -/
structure ImageGo where
  value : BitVec 32
  part : Bool
  deriving DecidableEq, Repr

/-- A Kelim lane, and the control blocks that came on it first (R346). -/
structure LaneCtl where
  lane : Fin 32
  ctl : List (BitVec 8 × BitVec 56) := []
  deriving DecidableEq, Repr

/-- A BAR2 read of so many bytes (R373), and what reading the HBM meets (R209). -/
structure BarRead where
  bytes : Nat
  err : HbmErr := .none
  deriving DecidableEq, Repr

/-- What NEGOTIATE_ALGORITHMS offers (DSP0274): masks of measurement specifications, opaque data formats, signature and hash algorithms. -/
structure AlgOffer where
  spec : Byte
  other : Byte
  asym : Word
  hash : Word
  deriving DecidableEq, Repr

/-- The SPDM requests of R508, and every other one. -/
inductive SpdmReq where
  | getVersion
  | getCapabilities
  | negotiateAlgorithms (offer : AlgOffer)
  | getDigests
  | getCertificate (slot : BitVec 4) (offset length : BitVec 16)
  | challenge (slot : BitVec 4) (summary : BitVec 8) (nonce : List Byte)
  | getMeasurements (index : BitVec 8) (nonce : List Byte)
  | other (code : BitVec 8)
  deriving DecidableEq, Repr

/-- The transports of R508. -/
inductive Transport where
  | doe0 | doe1 | mctp | east | west
  deriving DecidableEq, Repr

/-- The SPDM message an AUTH frame carries: a request with its version, or the answer to the request outstanding, with the
verdict on it (chain, signature), the owner key digest measured, and the serial of the certificate (R352). -/
inductive SpdmMsg where
  | request (version : BitVec 8) (r : SpdmReq) (busy : Bool)
  | response (ok : Bool) (digest : List Byte) (serial : BitVec 64)
  deriving DecidableEq, Repr
/-- A firmware object as the read of the flash gives it (R500): its bytes from 0 to the end of the signature, and its body. -/
structure FwObs where
  bytes : List Nat
  body : List Nat
  deriving DecidableEq, Repr

/-- The first 16 bytes of a DMA descriptor as the host's memory holds them (R379). -/
structure HostDesc where
  addr : BitVec 64
  len : BitVec 32
  ctrl : BitVec 32
  deriving DecidableEq, Repr

/-- Where a PTP message is addressed, which gives its transport too (R388, R391): a MAC address over IEEE 802.3, or an IPv4 address and a
UDP port. -/
inductive PtpDest where
  | ieee (mac : BitVec 48)
  | udp (ip : BitVec 32) (port : BitVec 16)
  deriving DecidableEq, Repr

/-- What an Announce says of its grandmaster, and the announce interval in LTU units (R391; the fields are those of IEEE 1588-2019,
PRESUMED, log 149). -/
structure PtpDataset where
  prio1 : BitVec 8
  cls : BitVec 8
  accuracy : BitVec 8
  variance : BitVec 16
  prio2 : BitVec 8
  gm : BitVec 64
  steps : BitVec 16
  interval : Nat
  deriving DecidableEq, Repr

/-- A PTP message as the port receives it (R391). `src` is the sender's port identity; times of the master are ns, corrections ns,
instants of this device LTU units. A delay response carries the instant at which the request it answers was sent. -/
inductive PtpMsg where
  | announce (src : BitVec 80) (d : PtpDataset) (t : Int)
  | sync (src : BitVec 80) (seq : BitVec 16) (twoStep : Bool) (origin corr t : Int)
  | followUp (src : BitVec 80) (seq : BitVec 16) (origin corr : Int)
  | delayResp (src : BitVec 80) (seq : BitVec 16) (rx corr sent : Int)
  | other
  deriving DecidableEq, Repr

/-- A write of an entry of an MSI-X table that clears its mask, at instant `time` (R371, R395): the message address and data. -/
structure MsixEntry where
  time : Int
  addr : BitVec 64
  data : BitVec 32
  deriving DecidableEq, Repr

/-- The conversions of the reference in a background calibration (R438): the sum of the 1,024 codes, and the code that a slice with no gain
error gives for the reference, a number of the part that the manual does not state (log 49). -/
structure CalRef where
  sum : Int
  nominal : Nat
  deriving DecidableEq, Repr

/-- The commands of the Citum: one constructor per row of the table of steps. -/
inductive Instr where
  /-- REGISTER_WRITE (R11). A control-space write to a register or field that has no row of its own sets, clears or discards the field by its access type, world and stated range. -/
  | registerWrite (w : World) (a : Fin 16777216) (v : BitVec 32)
  /-- HOLDING_REGISTER_LO_READ (R39). A read of a _LO register returns its half and copies the matching _HI half into the holding register. -/
  | holdingRegisterLoRead (w : World) (a : Fin 16777216) (t : Int)
  /-- SNAPSHOT_BAND_LO_READ (R336). A read of SCU_SEAL_ST_SNAP_BAND_LO latches the snapshot band and all 15 counters of the station into holding registers. -/
  | snapshotBandLoRead (w : World) (n : Fin 8)
  /-- PACE_WINDOW_END (R40). At the end of each pace window the Citum writes SCU_PACE_RATE for every domain and evaluates deficits, the deficit cap, web shedding and voltage fitting. -/
  | paceWindowEnd (t : Int)
  /-- VFIT_HOLD_END (R54). The hold period of 2^HOLD pace windows after a margin raise expires and lowering steps are allowed again. -/
  | vfitHoldEnd
  /-- VMAX_READBACK_TIMEOUT (R55). The read-back does not reach VMAX within 2 ms, so the request is refused with TIMEOUT, FAIL is set and fitting is disabled. -/
  | vmaxReadbackTimeout
  /-- VFIT_CTRL_WRITE (R57). A write to SMC_VFIT_CTRL is applied, or discarded with LIMIT_ERR set when MARGIN, STEP or GUARD is out of range. -/
  | vfitCtrlWrite (w : World) (v : BitVec 32)
  /-- VFIT_LIMITS_WRITE (R57). A write to SMC_VFIT_LIMITS is applied, or discarded with LIMIT_ERR set when the limits are out of range or VMIN exceeds VMAX. -/
  | vfitLimitsWrite (w : World) (v : BitVec 32)
  /-- PIXEL_PACKET_RX (R68). A PIXEL packet arriving on a Ricel lane is checked for SEQ and CRC, acknowledged or NAKed, assembled into its line or discarded. -/
  | pixelPacketRx (l : Fin 192) (k : Packet)
  /-- LINE_TIMEOUT_FILL (R71). A head line still incomplete LINE_TIMEOUT lines after its trigger is filled, marked filled and handed on, and the head line-fill event is raised. -/
  | lineTimeoutFill (p : Fin 96)
  /-- CAP_PACKET_RX (R92). A CAP packet during discovery selects the version and candidate mode, or puts the port in REFUSED, and MODE is sent. -/
  | capPacketRx (l : Fin 192) (k : Packet)
  /-- CFG_RESP_RX (R86). A CFG_RESP with the outstanding TAG completes the head configuration request, and a stale one is discarded. -/
  | cfgRespRx (l : Fin 192) (k : Packet)
  /-- HEAD_EVENT_RX (R89). A HEAD_EVENT packet raises the port's head event and keeps its code and value. -/
  | headEventRx (l : Fin 192) (k : Packet)
  /-- CRED_STATUS_RX (R76). A CRED_STATUS block arriving outside resync is evaluated against the credit invariant, and INIT_ACK completes a credit initialisation. -/
  | credStatusRx (l : Fin 192) (held rxReturned spent : BitVec 16) (initAck : Bool)
  /-- TRAIN_BLOCK_RX (R90). A TRAIN block from the head advances the port through SWITCH and PRBS phases or reports PRBS results. -/
  | trainBlockRx (l : Fin 192) (phase : BitVec 4) (errors : BitVec 32) (t : Int)
  /-- ECHO_RX (R85). An ECHO reply gives the lane's one-way delay D, updates the lead time and, in DELAY, sends the credit initialisation. -/
  | echoRx (l : Fin 192) (tag : BitVec 16) (turn : BitVec 20) (e : EchoTrip)
  /-- LINK_CTRL_RETRAIN_RX (R96). A LINK_CTRL RETRAIN from the head starts a retrain of that lane with the resync window opened. -/
  | linkCtrlRetrainRx (l : Fin 192)
  /-- UNKNOWN_CTRL_BLOCK_RX (R64). A control block of an undefined type is discarded and counted in HLF_LANE_DROP. -/
  | unknownCtrlBlockRx (l : Fin 192) (kind : BitVec 8)
  /-- LANE_SYNC_HEADER_ERRORS (R96). Sixteen invalid sync headers in 64 blocks, or loss of block lock, retrains the lane or takes the port to RETRAIN. -/
  | laneSyncHeaderErrors (l : Fin 192) (lockLost : Bool)
  /-- LANE_BLOCK_LOCK (R90). Lane 2p acquires block lock with both enables set and the port moves from DOWN to DISCOVER. -/
  | laneBlockLock (l : LockSeen)
  /-- DISCOVER_TIMEOUT (R90). No CAP within 10 ms returns the port to DOWN. -/
  | discoverTimeout (p : Fin 96)
  /-- DISCOVER_RETRY (R90). 100 ms after a discovery timeout the port retries discovery. -/
  | discoverRetry (p : Fin 96)
  /-- SWITCH_TIMEOUT (R90). Without phase 4h from both ends within 100 µs the next candidate mode is tried, or the port enters FAILED. -/
  | switchTimeout (p : Fin 96)
  /-- PRBS_TEST_DONE (R94). The PRBS31 test of 2^LEN bits ends and each lane passes or the next candidate is tried. -/
  | prbsTestDone (l : Fin 192) (errors : BitVec 32)
  /-- RETRAIN_TIMEOUT (R98). A lane retrain that does not reach INIT_ACK within 8 ms falls back to full renegotiation. -/
  | retrainTimeout (l : Fin 192)
  /-- CREDIT_BLOCK_REFRESH (R74). With RETURNED unchanged for 1,024 blocks, the Citum sends a CREDIT block. -/
  | creditBlockRefresh (l : Fin 192)
  /-- DELAY_MEASURE_TIMER (R85). Once a second during ACTIVE the Citum sends ECHO with a fresh TAG to remeasure D. -/
  | delayMeasureTimer (p : Fin 96)
  /-- HLF_CTRL_WRITE (R90). A write of HLF_CTRL.EN enables discovery, or returns ports in DISCOVER to DOWN. -/
  | hlfCtrlWrite (w : World) (v : BitVec 32)
  /-- PORT_ENABLE_WRITE (R90). A write of HLF_PORT_CTRL.EN places the port in DISABLED or lets it leave DISABLED. -/
  | portEnableWrite (w : World) (p : Fin 96) (v : BitVec 32)
  /-- PORT_RETRAIN (R98). A write of 1 to HLF_PORT_CTRL.RETRAIN starts full renegotiation, or is discarded with STATE outside station IDLE. -/
  | portRetrain (w : World) (p : Fin 96) (v : BitVec 32)
  /-- HEAD_CFG_REQUEST (R86). A write of 1 to HLF_CFG_CMD.GO sends a CFG_REQ to the head, or is discarded while BUSY. -/
  | headCfgRequest (w : World) (v : BitVec 32)
  /-- HEAD_CFG_TIMEOUT (R87). No CFG_RESP within 1 ms ends the head configuration request with TIMEOUT. -/
  | headCfgTimeout
  /-- REFCLK_LOSS (R100). Loss of LTU_REFCLK puts the LTU in holdover at its last frequency and raises the reference-holdover event. -/
  | refclkLoss
  /-- HOLDOVER_EXIT (R100). 1 ms after LTU_REFCLK returns the LTU leaves holdover. -/
  | holdoverExit
  /-- TCOMP_TICK (R101). Every 100 µs the LTU takes the sensor temperature and steers the oscillator toward the interpolated correction. -/
  | tcompTick
  /-- TCOMP_ENABLE_WRITE (R102). A write of LTU_TCOMP_CTRL.EN = 1 enables correction, or is discarded with RANGE when the points are not ascending. -/
  | tcompEnableWrite (w : World) (v : BitVec 32)
  /-- ENCODER_EDGE (R106). An accepted encoder edge updates the position count, or counts an illegal transition, and recomputes predicted line instants. -/
  | encoderEdge (e : Fin 4) (a b : Bool) (t : Int)
  /-- ENCODER_INDEX_EDGE (R109). A rising edge of ENCe_Z with Z_EN set latches the interpolated position. -/
  | encoderIndexEdge (e : Fin 4) (p : PinSample)
  /-- LINE_COMMIT (R113). When a predicted line instant comes within the lead time, the LTU applies the commit checks, fixes the instants, writes the descriptor and sends the TIMING blocks. -/
  | lineCommit (n : Fin 8) (now : Int)
  /-- LINE_TRIGGER (R116). At a committed instant the line is triggered, the WPI takes its value, and the line sync and exposure gate go to the Illumination Controller. -/
  | lineTrigger (n : Fin 8)
  /-- HOST_TRIGGER_WRITE (R112). A write of COUNT to LTU_ST_HOSTTRIG adds host lines to the pending count, or is discarded with LENGTH or STATE. -/
  | hostTriggerWrite (w : World) (n : Fin 8) (v : BitVec 32)
  /-- MATCH_ARM (R126). A write of 1 to LTU_ST_MATCH_CFG.ARM arms a position match for line M, or is refused. -/
  | matchArm (w : World) (n : Fin 8) (v : BitVec 32) (t : Int)
  /-- LINE_CONDITION (R132). A delivered head line is shaded, defect-replaced, aligned, stitched and blended into the station line and handed to the store and products. -/
  | lineCondition (p : Fin 96) (busy : Nat)
  /-- CAPTURE_START (R142). A write of 1 to PCP_CAP_CTRL.GO accepts a reference capture to begin at the next band, or refuses it. -/
  | captureStart (w : World) (v : BitVec 32)
  /-- CAPTURE_DONE (R143). After 2^N counted lines the capture writes its slot, sets done and raises the capture-done event. -/
  | captureDone
  /-- SHADING_SWAP_REQUEST (R153). A write of 1 to PCP_SHD_SWAP.GO makes a leaf swap pending, replacing any older request, or refuses it. -/
  | shadingSwapRequest (w : World) (p : Fin 96) (v : BitVec 32)
  /-- LEAF_FADE_END (R155). When the last fade line has left shading, and for sheet class the restart mark has passed it, the fading leaf is released. -/
  | leafFadeEnd (p : Fin 96)
  /-- LEAF_WINDOW_WRITE (R140). A write to a shading store page is carried out, or discarded with BUSY when the page belongs to a leaf in use. -/
  | leafWindowWrite (w : World) (a : Fin 4194304) (v : BitVec 32)
  /-- LEAF_SLOT_WRITE (R140). A write to PCP_LEAF_BASE, GEOM or DEFECTS is carried out, or refused when the slot is in use. -/
  | leafSlotWrite (w : World) (l : Fin 256) (k : Fin 3) (v : BitVec 32)
  /-- SHD_TRK_CTRL_WRITE (R151). A write to PCP_SHD_TRK_CTRL setting EN with a foreign source head is checked and discarded with RANGE if the source is unsuitable. -/
  | shdTrkCtrlWrite (w : World) (p : Fin 96) (v : BitVec 32)
  /-- ALN_MEAS_START (R167). A write of 1 to PCP_ALN_MEAS_CTRL.GO starts an edge measurement at the next band, or refuses it. -/
  | alnMeasStart (w : World) (v : BitVec 32)
  /-- ALN_MEAS_DONE (R167). After 2^N lines the alignment measurement ends, with FOUND 0 for planes without a crossing. -/
  | alnMeasDone
  /-- DVT_MEAS_START (R174). A write of 1 to PCP_DVT_MEAS_CTRL.GO starts a dovetail shift search at the next band, or refuses it. -/
  | dvtMeasStart (w : World) (v : BitVec 32)
  /-- DVT_MEAS_DONE (R174). After 2^N lines the dovetail measurement reports BEST and SAD. -/
  | dvtMeasDone
  /-- DVT_TIMEOUT (R176). Dovetail columns missing DVT_TIMEOUT lines after the left line is placed make the line dovetail-degraded. -/
  | dvtTimeout (n : Fin 8)
  /-- DEC_SWAP_REQUEST (R182). A write of 1 to PCP_DEC_SWAP.GO stages new FIR leaves for a product at hinge line H, or refuses it. -/
  | decSwapRequest (w : World) (q : Fin 32) (v : BitVec 32)
  /-- FIR_SLOT_WRITE (R181). A write to a FIR slot is carried out, or discarded with the leaf-write-refused event when the slot is in use. -/
  | firSlotWrite (w : World) (a : Fin 16384) (v : BitVec 32)
  /-- PRODUCT_LINE_READ (R180). An image product reader takes its next stored line, filters it and, at the end of a group, writes a product frame to its queue. -/
  | productLineRead (q : Fin 32) (e : HbmErr)
  /-- LINE_STORE (R188). A conditioned station line is written to its slot with its tag, moving WP and the backlog and driving pacing, stops, shedding and overrun. -/
  | lineStore (n : Fin 8) (x : StoreSeen)
  /-- STORE_READ_QUEUE_ADVANCE (R189). A store reader's queue accepts the next line and the reader's pointer and the release line advance. -/
  | storeReadQueueAdvance (q : Fin 262144) (e : HbmErr)
  /-- REWIND_BACKUP_START (R196). With line R − 1 stored and the axis at standstill, the station enters REWINDING and the back-up move is commanded. -/
  | rewindBackupStart (n : Fin 8) (t : Int)
  /-- REWIND_FORWARD_RUN (R196). Once the backlog is at or below RESUME and the cap allows, the forward run at scale 1 is commanded. -/
  | rewindForwardRun (x : StationAt)
  /-- REWIND_SCAN_ENTRY (R196). When the axis reports scan velocity or the position reaches P_M − 2D, the station enters SCANNING. -/
  | rewindScanEntry (n : Fin 8) (t : Int)
  /-- REWIND_TIMEOUT (R197). Restart step 3 or 4 not completing within 10 s fails the restart with TIMEOUT and raises rewind-failed. -/
  | rewindTimeout (n : Fin 8)
  /-- ENCODER_QUIET_TIMEOUT (R577). For an unpaced sheet station, 1 ms without an encoder edge after line R − 1 is stored advances the restart to step 3. -/
  | encoderQuietTimeout (n : Fin 8) (t : Int)
  /-- HOST_READER_ENABLE (R189). A write of SST_ST_HOST_CTRL.EN makes the host read pointer a reader, clamped to the retained range. -/
  | hostReaderEnable (w : World) (n : Fin 8) (v : BitVec 32)
  /-- HOST_REWIND_READ (R206). A write of 1 to SST_ST_HOST_CTRL.REWIND moves the host pointer back to a mark, or to U with a gap record and seam result. -/
  | hostRewindRead (w : World) (n : Fin 8) (v : BitVec 32)
  /-- HOST_RP_WRITE (R189). A write to the host read pointer moves it forward, or is discarded with RANGE while the reader is enabled. -/
  | hostRpWrite (w : World) (n : Fin 8) (hi : Bool) (v : BitVec 32)
  /-- HOST_MARK_SET (R190). A write of 1 to SST_ST_MARK_HI.SET places a host mark, or is refused with RANGE. -/
  | hostMarkSet (w : World) (n : Fin 8) (m : Fin 4) (v : BitVec 32)
  /-- HOST_MARK_CLEAR (R190). A write of 1 to SST_ST_MARK_HI.CLEAR removes the host mark. -/
  | hostMarkClear (w : World) (n : Fin 8) (m : Fin 4) (v : BitVec 32)
  /-- SST_STORE_SPLIT_WRITE (R183). A write of SST_CFG.STORE sets the scan store split, or is discarded outside device IDLE or above 32. -/
  | sstStoreSplitWrite (w : World) (v : BitVec 32)
  /-- QUEUE_WRITE (R219). A writer presents a word, which is appended to its drawer, taking a slab or closing the drawer as needed, or the writer waits. -/
  | queueWrite (q : Fin 262144) (d : BitVec 64) (fin : Bool)
  /-- QUEUE_READ (R224). A reader takes the next word of its drawer, releasing and swapping drawers as they empty, or waits. -/
  | queueRead (q : Fin 262144) (second : Bool) (ecc : Ecc)
  /-- QUEUE_IDLE_TIMEOUT (R223). A writer's drawer untouched for 2^(IDLE − 1) µs while the reader waits is closed and handed over. -/
  | queueIdleTimeout (q : Fin 262144)
  /-- QUEUE_STALL_TIMEOUT (R226). A reader or writer waiting 2^STALL µs sets its stall bit and raises the queue stall event. -/
  | queueStallTimeout (q : Fin 262144) (wr : Bool)
  /-- SLAB_TRANSIT_ARRIVE (R229). Slabs in transit reach the free pool and are granted to waiting RECORD, then STREAM and LOCAL writers; a flush ends. -/
  | slabTransitArrive
  /-- SLAB_AGE_FAIL (R241). A slab still in transit after 1 µs sets AGE_FAIL. -/
  | slabAgeFail
  /-- QUEUE_ENABLE (R231). A write of QMX_Q_CFG.EN = 1 enables the queue, or refuses it. -/
  | queueEnable (w : World) (q : Fin 262144) (v : BitVec 32)
  /-- QUEUE_DISABLE (R232). A write of QMX_Q_CFG.EN = 0 disables the queue, or is refused with BUSY. -/
  | queueDisable (w : World) (q : Fin 262144) (v : BitVec 32)
  /-- QUEUE_FLUSH (R236). A write of 1 to QMX_Q_CMD.FLUSH discards both drawers, sends a TRUNC terminator and enters writer resync as needed, or is refused. -/
  | queueFlush (w : World) (q : Fin 262144)
  /-- QUEUE_AUTO_DISABLE (R210). A station queue of a station back in IDLE is disabled by the Citum once it holds no word. -/
  | queueAutoDisable (q : Fin 262144)
  /-- CELL_FIRE (R252). A cell with all bound operands ready and room at its output fires, consuming operands and writing its result. -/
  | cellFire (e : Fin 512) (c : Fin 48) (err : LsErr) (busy : Nat)
  /-- HANDSHAKE_TIMEOUT_FAULT (R270). A ready cell not completing a firing within HS_TIMEOUT µs faults its engine with kind HANDSHAKE. -/
  | handshakeTimeoutFault (e : Fin 512) (c : Fin 48)
  /-- SEQ_CONTINUE (R268). A write of 1 to IEA_ENG_CMD.CONT releases a WAITH, or is discarded with STATE. -/
  | seqContinue (w : World) (e : Fin 512)
  /-- LOCAL_STORE_ACCESS (R249). An access of IEA_ENG_LS_DATA moves a local store word and advances ADDR, with writes discarded while the engine runs. -/
  | localStoreAccess (w : World) (e : Fin 512) (x : LsAccess)
  /-- IMAGE_LOAD (R314). A write of 1 to SCU_IMG_CTRL.GO starts reading a structure image, or refuses it before anything is read. -/
  | imageLoad (w : World) (x : ImageGo)
  /-- IMAGE_CHECKS_DONE (R315). The image read completes and the load stages are checked in order, refusing the image or passing it. -/
  | imageChecksDone (o : ImageObs) (t2 : Option (Fin 16))
  /-- RELOAD_COPY_DONE (R321). The new structure is written, the store pointers move to H and the group engines enter RUNNING. -/
  | reloadCopyDone
  /-- RELOAD_CANCEL (R322). A write of 1 to SCU_RLD_CTRL.CANCEL drops a staged reload, or is discarded with STATE. -/
  | reloadCancel (w : World) (v : BitVec 32)
  /-- SEAL_ATTEMPT (R325). When a band of a station meets the local seal conditions, the audits are made and the band is sealed or held. -/
  | sealAttempt (ns : BitVec 8) (t : Int)
  /-- SEAL_THAW (R342). A write of 1 to SCU_SEAL_ST_CTRL.THAW ends a freeze and seals the completed bands with the audit mark, or is refused. -/
  | sealThaw (w : World) (n : Fin 8) (v : BitVec 32) (t : Int)
  /-- FREEZE_TIMEOUT (R343). A station frozen for FREEZE_MS ms puts the device in FAULT. -/
  | freezeTimeout (n : Fin 8)
  /-- KRU_PORT_TRAIN_DONE (R348). A Kelim port finishes lock, PRBS and delay measurement and reaches AUTH, or enters FAILED. -/
  | kruPortTrainDone (pt : Fin 2) (lock : BitVec 16) (ver : BitVec 8) (tr : List KTrain)
  /-- KRU_PORT_RETRY (R348). 100 ms after a failed Kelim port training the port retries. -/
  | kruPortRetry (pt : Fin 2)
  /-- AUTH_FRAME_RX (R352). An AUTH frame carries an SPDM message of mutual link authentication, which passes or refuses the port. -/
  | authFrameRx (l : Fin 32) (k : KFrame) (m : SpdmMsg)
  /-- DISCOVER_FRAME_RX (R354). A DISCOVER frame assigns the member its ID and is forwarded, or completes the member count at the timing member. -/
  | discoverFrameRx (l : Fin 32) (k : KFrame) (foreign : Bool)
  /-- ROSTER_FRAME_RX (R354). The timing member records a ROSTER frame toward forming the ring. -/
  | rosterFrameRx (l : Fin 32) (k : KFrame)
  /-- FORMED_FRAME_RX (R356). A FORMED frame records the roster and takes the ring to RING or CHAIN. -/
  | formedFrameRx (l : Fin 32) (k : KFrame)
  /-- TIME_SEND_TIMER (R357). Every 1.024 ms the timing member sends a TIME frame, and every 1,024th repeats alignment. -/
  | timeSendTimer (t : Int)
  /-- TIME_FRAME_RX (R357). A TIME frame sets ring time and is forwarded with its correction extended. -/
  | timeFrameRx (l : Fin 32) (k : KFrame) (t : Int) (resid : BitVec 32)
  /-- ALIGN_REQ_RX (R359). An ALIGN_REQ is answered with ALIGN_ACK after checking the station's arm, k, D and W_0. -/
  | alignReqRx (l : Fin 32) (k : KFrame)
  /-- ALIGN_ACK_RX (R359). The timing member collects an ALIGN_ACK toward sending ALIGN_SET. -/
  | alignAckRx (l : Fin 32) (k : KFrame) (t : Int)
  /-- ALIGN_LATCH (R359). At ring time T_a every member latches its interpolated encoder position. -/
  | alignLatch (n : Fin 8)
  /-- ALIGN_SET_RX (R359). An ALIGN_SET sets the member's offset and P_base, or reports align-late. -/
  | alignSetRx (l : Fin 32) (k : KFrame) (t : Int)
  /-- ALIGN_ACK_TIMEOUT (R359). An ALIGN_ACK missing or not OK within 100 ms fails the ring arm. -/
  | alignAckTimeout (n : Fin 8)
  /-- ALIGN_SET_TIMEOUT (R359). No ALIGN_SET within 200 ms of ALIGN_REQ returns the station to IDLE. -/
  | alignSetTimeout (n : Fin 8)
  /-- TOKEN_FRAME_RX (R362). A ring seal token is audited, held until local seal, counted and forwarded, sealing or retiring the band. -/
  | tokenFrameRx (l : Fin 32) (k : KFrame) (t : Int)
  /-- TOKEN_TIMEOUT (R365). The lowest token not returning within TOKEN_TIMEOUT ms fails the ring audit with LOST. -/
  | tokenTimeout (n : Fin 8)
  /-- HINGE_FRAME_RX (R363). A HINGE frame for an unstaged H records it and raises the hinge-unmatched event. -/
  | hingeFrameRx (l : Fin 32) (k : KFrame)
  /-- DOVETAIL_FRAME_RX (R366). A DOVETAIL frame supplies the right head's dovetail columns for blending, or is discarded when late. -/
  | dovetailFrameRx (l : Fin 32) (k : KFrame)
  /-- KELIM_CRED_STATUS_RX (R347). A Kelim CRED_STATUS is evaluated against the lane credit invariant, retraining the lane on failure. -/
  | kelimCredStatusRx (l : LaneCtl) (held rxReturned spent : BitVec 16) (initAck : Bool)
  /-- KRU_PORT_DEAD (R367). A Kelim port without control-lane lock or enough lanes for 1 ms is dead and FOLD is broadcast. -/
  | kruPortDead (pt : Fin 2)
  /-- FOLD_FRAME_RX (R368). A FOLD frame enters REFORM and drops held tokens. -/
  | foldFrameRx (l : Fin 32) (k : KFrame)
  /-- FOLD_FORMED_TIMER (R368). 1 ms after a fold the timing member broadcasts FORMED and reissues tokens above the horizon. -/
  | foldFormedTimer (t : Int)
  /-- RING_REFORM_TIMEOUT (R356). No FORMED within REFORM_MS takes the ring to FAILED. -/
  | ringReformTimeout
  /-- KRU_CFG_WRITE (R356). A write of KRU_CFG.EN or TIMING starts or stops the ring, or is discarded with STATE while a ring station runs. -/
  | kruCfgWrite (w : World) (v : BitVec 32)
  /-- STREAM_ENABLE (R383). A write of HIF_ST_CTRL.EN = 1 starts a delivery stream, or is refused. -/
  | streamEnable (w : World) (c : Fin 64) (v : BitVec 32)
  /-- STREAM_DISABLE (R383). A write of HIF_ST_CTRL.EN = 0 stops the stream at the next chunk boundary and completes its descriptor. -/
  | streamDisable (w : World) (c : Fin 64) (v : BitVec 32)
  /-- HQ_ENTRY_ENABLE (R376). A write setting HIF_HQ.EN binds a queue to a stream, or is refused. -/
  | hqEntryEnable (w : World) (j : Fin 1024) (v : BitVec 32)
  /-- DMA_TAIL_WRITE (R379). A write of HIF_ST_TAIL hands descriptors to the Citum, or is discarded with RANGE. -/
  | dmaTailWrite (w : World) (c : Fin 64) (v : BitVec 32)
  /-- RELEASE_CHUNK (R378). A released item's words are framed as a chunk and written to the stream's buffer or datagram. -/
  | releaseChunk (c : Fin 64) (d : HostDesc)
  /-- DESCRIPTOR_READ_ERROR (R382). A descriptor read ending in error or timeout faults the stream. -/
  | descriptorReadError (c : Fin 64) (timeout : Bool)
  /-- DATAGRAM_SEND (R386). An Ethernet stream sends a datagram of whole chunks within its rate cap. -/
  | datagramSend (c : Fin 64) (t : Int)
  /-- PAUSE_FRAME_RX (R384). A received PAUSE frame holds transmission on the port. -/
  | pauseFrameRx (pn : Fin 4) (quanta : BitVec 16)
  /-- ETH_FRAME_DISCARD (R388). A received frame that is neither PTP nor PAUSE is discarded and counted. -/
  | ethFrameDiscard (pn : Fin 4)
  /-- ETH_LINK_CHANGE (R387). A change of Ethernet link state sets CHANGED and raises the link change event. -/
  | ethLinkChange (pn : Fin 4) (up fecLock : Bool) (corr uncorr : Nat)
  /-- ETH_PORT_CONFIG_WRITE (R389). A write to an Ethernet port's configuration is applied, or discarded with STATE while a stream uses the port. -/
  | ethPortConfigWrite (w : World) (pn : Fin 4) (k : Fin 4) (v : BitVec 32)
  /-- PTP_MESSAGE_RX (R391). A PTP message is timestamped and processed, updating offset, lock and the time handed to the LTU. -/
  | ptpMessageRx (pn : Fin 4) (dest : PtpDest) (domain : Byte) (m : PtpMsg)
  /-- PTP_SYNC_TIMEOUT (R391). 2 s without a Sync unlocks the PTP clock. -/
  | ptpSyncTimeout
  /-- PF0_FLR (R374). An FLR of PF0 stops every DMA stream, resets the PF0 MSI-X table and clears stream enables. -/
  | pf0Flr
  /-- PF0_D3HOT_ENTRY (R374). PF0 entering D3hot stops every DMA stream and resets the PF0 MSI-X table. -/
  | pf0D3hotEntry
  /-- PCIE_LINK_LOSS (R374). Loss of the PCI Express link stops DMA streams and resets both MSI-X tables. -/
  | pcieLinkLoss
  /-- BAR0_BAD_ACCESS (R372). A non-DWORD BAR0 request completes as Unsupported Request and is counted. -/
  | bar0BadAccess (w : World) (a : Nat)
  /-- BAR2_READ (R373). A BAR2 read returns HBM pages, or zeros for shelves of another world. -/
  | bar2Read (a : Nat) (x : BarRead)
  /-- BAR2_WRITE (R373). A BAR2 write completes as Unsupported Request and is counted. -/
  | bar2Write (a : Nat)
  /-- MSIX_MESSAGE (R395). A vector with a newly pending enabled source sends its MSI-X message once its moderation interval has passed. -/
  | msixMessage (f : Fin 2) (v : Fin 256) (t : Int)
  /-- MSIX_UNMASK (R395). Clearing a vector's mask sends the message recorded in its PBA bit. -/
  | msixUnmask (f : Fin 2) (v : Fin 256) (x : MsixEntry)
  /-- SPDM_REQUEST (R508). An SPDM request on DOE, MCTP or Kelim is answered from the supported subset, or with ERROR. -/
  | spdmRequest (tr : Transport) (v : BitVec 8) (r : SpdmReq) (busy : Bool)
  /-- STRING_OBSERVATION (R430). At the falling gate edge of a lit interval of at least 1 µs the string is observed as open, short or good. -/
  | stringObservation (c : Fin 96) (cur : BitVec 12) (mv : BitVec 16)
  /-- STRING_OVERCURRENT (R414). Sixteen consecutive switching cycles above 1.25 × the set point make an overcurrent fault. -/
  | stringOvercurrent (c : Fin 96)
  /-- DIAG_PULSE (R431). A due diagnostic pulse fires in the blanking window after a line, or is deferred. -/
  | diagPulse (g : Fin 8)
  /-- PATTERN_WINDOW_WRITE (R422). A write to a pattern bank is carried out, or discarded with BUSY when the bank is active or held. -/
  | patternWindowWrite (w : World) (j : Fin 16) (o : Fin 12288) (v : BitVec 32)
  /-- PATTERN_SWAP_REQUEST (R423). A write of 1 to ILC_GRP_BANK.GO stages the inactive bank at hinge line H, or refuses it. -/
  | patternSwapRequest (w : World) (g : Fin 8) (v : BitVec 32)
  /-- FORCE_OFF_WRITE (R426). A write of ILC_GRP_CTRL.FORCE_OFF takes effect at the first line of the next band. -/
  | forceOffWrite (w : World) (g : Fin 8) (v : BitVec 32)
  /-- ILC_TCOMP_ENABLE (R427). A write of ILC_GRP_TCOMP.EN = 1 enables compensation with HOLD until the first result, or is discarded with RANGE. -/
  | ilcTcompEnable (w : World) (g : Fin 8) (v : BitVec 32)
  /-- STRING_FAULT_CLEAR (R433). A write of 1 to ILC_STR_STATUS.FAULT clears the fault and its counts so the channel lights again. -/
  | stringFaultClear (w : World) (c : Fin 96) (v : BitVec 32)
  /-- MFE_REF_ENABLE (R437). A write of MFE_CTRL.REF_EN starts the reference buffer, or stops it and the sequencer. -/
  | mfeRefEnable (w : World) (v : BitVec 32)
  /-- MFE_REF_READY (R437). 10 ms after REF_EN the reference is ready and REF_RDY reads 1. -/
  | mfeRefReady
  /-- MFE_SEQ_ENABLE (R441). A write of MFE_CTRL.SEQ_EN starts the sequencer with a synchronising reset, or refuses it, or stops it. -/
  | mfeSeqEnable (w : World) (v : BitVec 32)
  /-- MFE_FRAME_START (R440). A sequencer frame begins and runs its enabled entries and queued urgent conversions. -/
  | mfeFrameStart
  /-- MFE_ENTRY_SAMPLE (R443). An entry's dwell completes, its value is formed and fed to accumulators, chain, result register, records and outputs. -/
  | mfeEntrySample (ab bc : List (Fin 5 × BitVec 16))
  /-- MFE_URGENT_REQUEST (R442). A write of 1 to MFE_URGENT.GO queues an urgent conversion, or refuses it with BUSY. -/
  | mfeUrgentRequest (w : World) (v : BitVec 32)
  /-- MFE_BACKGROUND_CAL (R438). Every INT ms the spare slice calibrates, then replaces the next active slice, retiring it if out of limits. -/
  | mfeBackgroundCal (ground : Int) (ref : CalRef)
  /-- MFE_CHAIN_SYNC (R451). A write to MFE_SYNC restarts the named chains at the next frame and suppresses their results until settled. -/
  | mfeChainSync (w : World) (v : BitVec 32)
  /-- MFE_OPEN_CLEAR (R444). A write of 1 to MFE_ENT_STATUS.OPEN clears the latch and causes an excitation change. -/
  | mfeOpenClear (w : World) (e : Fin 64) (v : BitVec 32)
  /-- MFE_EXC_WRITE (R445). A write to MFE_ENT_EXC that changes excitation restarts the chain from the entry's next dwell. -/
  | mfeExcWrite (w : World) (e : Fin 64) (v : BitVec 32)
  /-- MFE_ACC_SUM_LO_READ (R446). A read of MFE_ACC_SUM_LO latches the accumulator set and clears it when ACC_CLR is 1. -/
  | mfeAccSumLoRead (w : World) (e : Fin 64)
  /-- MFE_RES_READ (R450). A read of MFE_RES latches MFE_RES_FLAGS so value and flags belong together. -/
  | mfeResRead (w : World) (e : Fin 64)
  /-- MFE_LEAF_SWAP_REQUEST (R455). A write of 1 to MFE_CH_SWAP.GO makes a filter leaf swap pending, or refuses it. -/
  | mfeLeafSwapRequest (w : World) (c : Fin 32) (v : BitVec 32)
  /-- MFE_LEAF_WINDOW_WRITE (R454). A write to a filter leaf is carried out, or discarded with BUSY while the leaf is in use. -/
  | mfeLeafWindowWrite (w : World) (a : Fin 65536) (v : BitVec 32)
  /-- MFE_OUT_ENABLE (R459). A write of MFE_OUT_CFG with EN = 1 starts the output, or is refused with RANGE. -/
  | mfeOutEnable (w : World) (o : Fin 8) (v : BitVec 32)
  /-- MFE_OUT_PERIOD_END (R458). At the end of an output period a new PWM or frequency setting takes effect. -/
  | mfeOutPeriodEnd (o : Fin 8)
  /-- MOTION_CYCLE (R462). Every 20 µs the profile advances and one frame is sent to each enabled axis driver. -/
  | motionCycle
  /-- DRIVER_STATUS_RX (R462). A good STATUS frame updates load and flags, adapts current and may fault the axis or complete the table load. -/
  | driverStatusRx (a : Fin 4) (f : BitVec 80)
  /-- MOTION_LINK_LOSS (R463). Four cycles without a good STATUS frame fault the axis with kind LINK. -/
  | motionLinkLoss (a : Fin 4)
  /-- AXIS_ENABLE (R463). A write of TTC_AX_CTRL.EN = 1 starts the link and loads the microstep table; EN = 0 disables the axis. -/
  | axisEnable (w : World) (a : Fin 4) (v : BitVec 32)
  /-- AXIS_STOP (R467). The STOP command sets velocity target 0, or is refused. -/
  | axisStop (w : World) (a : Fin 4)
  /-- AXIS_MOVE (R467). The MOVE command plans a jerk-limited move to TTC_AX_TARGET, or is refused. -/
  | axisMove (w : World) (a : Fin 4)
  /-- AXIS_VEL (R467). The VEL command sets a signed velocity target, or is refused. -/
  | axisVel (w : World) (a : Fin 4)
  /-- AXIS_ESTOP (R467). The ESTOP command brings velocity to 0 at full acceleration with no jerk limit. -/
  | axisEstop (w : World) (a : Fin 4)
  /-- LINEAR_MOVE (R468). A write of 1 to TTC_LIN.GO moves the masked axes in a straight line to their targets. -/
  | linearMove (w : World) (v : BitVec 32)
  /-- AXIS_SETTLE_DONE (R471). SETTLE ms after a back-up move the position is checked, setting INPOS, a corrective move or a POSITION fault. -/
  | axisSettleDone (a : Fin 4) (t : Int)
  /-- AXIS_HOLD_TIMEOUT (R473). After HOLD_MS at zero velocity the coils take HOLD_MODE. -/
  | axisHoldTimeout (a : Fin 4)
  /-- AXIS_FAULT_CLEAR (R474). A write of 1 to TTC_AX_STATUS.FAULT returns the axis to STILL when the link is good. -/
  | axisFaultClear (w : World) (a : Fin 4) (v : BitVec 32)
  /-- MICROSTEP_TABLE_WRITE (R464). A write to the microstep table is carried out, or discarded with BUSY while any axis is enabled. -/
  | microstepTableWrite (w : World) (k : Fin 1024) (v : BitVec 32)
  /-- THM_SWEEP (R476). Every 100 µs all sensors are converted, failures judged, the maximum reported and warning, throttle and shutdown counted. -/
  | thmSweep (r : List (Option (BitVec 16)))
  /-- THM_LEVEL_STEP (R481). Each STEP_MS the throttle level rises, holds or decays and each change raises the level-change event. -/
  | thmLevelStep
  /-- THM_REF_TRIM (R486). Every 1 ms the MFE reference trim is updated from sensor 22, or held when it has failed. -/
  | thmRefTrim
  /-- THM_THRESHOLD_WRITE (R480). A secure write to a warning or throttle threshold is applied, or discarded with RANGE. -/
  | thmThresholdWrite (w : World) (k : Fin 2) (v : BitVec 32)
  /-- RO_WINDOW_END (R487). At the end of each ring-oscillator window the count is written and NEW set. -/
  | roWindowEnd (k : Fin 8) (count : Nat)
  /-- PMBUS_READBACK_POLL (R513). Every 100 µs during a VCORE wait the Citum reads READ_VOUT from the regulator. -/
  | pmbusReadbackPoll (mv : BitVec 12)
  /-- PMBUS_TRANSACTION_FAIL (R515). A third failed PMBus attempt sets ERR, raises the PMBus error event and disables fitting or ends a wait. -/
  | pmbusTransactionFail
  /-- PMBUS_ALERT (R515). PMB_ALERT_N low sets ALERT, reads STATUS_WORD and raises the PMBus alert event. -/
  | pmbusAlert (word : BitVec 16)
  /-- HEAD_MEASUREMENT_READ (R510). On a port entering ACTIVE the head firmware digest is read into its measurement, or left zero on failure. -/
  | headMeasurementRead (p : Fin 96) (ended : Bool)
  /-- MAILBOX_TAIL_WRITE (R519). A write of SMC_MB_CMD_TAIL hands commands over, or is discarded with RANGE when it would withdraw entries. -/
  | mailboxTailWrite (w : World) (r : Fin 2) (v : BitVec 32)
  /-- MAILBOX_RSP_HEAD_WRITE (R521). A write of SMC_MB_RSP_HEAD frees response entries so waiting commands may start. -/
  | mailboxRspHeadWrite (w : World) (r : Fin 2) (v : BitVec 32)
  /-- MAILBOX_COMMAND_MALFORMED (R520). A command with a short extent, wrong EXT or unknown opcode is refused with LENGTH or RANGE. -/
  | mailboxCommandMalformed (r : Fin 2)
  /-- DEV_INFO (R524). The DEV_INFO command returns device state, fault cause, firmware and image versions and station states. -/
  | devInfo (r : Fin 2)
  /-- FAULT_CLEAR (R533). The FAULT_CLEAR command leaves FAULT for the rest state, or is refused with STATE. -/
  | faultClear (r : Fin 2) (answers : Bool)
  /-- DEV_RESET (R533). The DEV_RESET command is answered and schedules entry to RESET, or is refused in THERMAL_LATCH. -/
  | devReset (r : Fin 2)
  /-- DEV_RESET_ENTRY (R533). 1 ms after an accepted DEV_RESET the device enters RESET. -/
  | devResetEntry
  /-- ST_DEFINE (R527). The ST_DEFINE command sets a station's class, band exponent and head set. -/
  | stDefine (r : Fin 2)
  /-- ST_ARM (R528). The ST_ARM command runs every arm check in order and, on success, loads the WPI, enables queues and enters ARMED. -/
  | stArm (r : Fin 2) (t : Int) (t2 : Option (Fin 16)) (west : Bool)
  /-- ST_START (R525). The ST_START command moves an ARMED station to SCANNING. -/
  | stStart (x : RingAt)
  /-- ST_PAUSE (R529). The ST_PAUSE command stops a sheet-class station with a host hold. -/
  | stPause (r : Fin 2) (t : Int)
  /-- ST_RESUME (R529). The ST_RESUME command clears the host hold so the restart may proceed. -/
  | stResume (r : Fin 2)
  /-- ST_DRAIN (R531). The ST_DRAIN command enters DRAINING at once or after FINAL, or stops an open restart with F = R − 1. -/
  | stDrain (x : RingAt)
  /-- ST_ABORT (R530). The ST_ABORT command stops the station, discards its output, flushes its queues and takes it to IDLE. -/
  | stAbort (r : Fin 2)
  /-- ST_STAGE (R532). The ST_STAGE command stages or cancels an LTU change at a hinge line after its checks and admission. -/
  | stStage (r : Fin 2) (t2 : Option (Fin 16))
  /-- ST_QUERY (R525). The ST_QUERY command returns a station's state, configuration, WPI, horizon and staged H. -/
  | stQuery (r : Fin 2)
  /-- WORLD_SET (R534). The WORLD_SET command changes the world of a range of targets, or is refused. -/
  | worldSet (r : Fin 2)
  /-- OWNER_ENROLL (R492). The OWNER_ENROLL command checks and unwraps the owner KEK and starts blowing the owner fuses, or is refused. -/
  | ownerEnroll (r : Fin 2) (key : Nat)
  /-- OWNER_ENROLL_DONE (R493). Fuse blowing ends and read-back sets OWNER to enrolled or damaged. -/
  | ownerEnrollDone (dig : List Byte) (kekOk : Bool)
  /-- SVN_COMMIT (R535). The SVN_COMMIT command raises an SVN counter to the running SVN, or is refused. -/
  | svnCommit (r : Fin 2)
  /-- FLASH_WRITE (R536). The FLASH_WRITE command starts reading, erasing and programming the boot flash, or is refused. -/
  | flashWrite (r : Fin 2)
  /-- FLASH_WRITE_DONE (R536). The flash write and read-back finish, ending with OK, INTEGRITY or ABSENT. -/
  | flashWriteDone (data : Option (List Byte)) (same : Bool)
  /-- WORKBENCH_TIMEOUT (R541). The Workbench not answering the Cabinet for 100 ms enters FAULT with cause 3h. -/
  | workbenchTimeout
  /-- POR_ASSERT (R547). POR_N low holds the device in RESET and resets the POR, DEVICE and LINK domains. -/
  | porAssert
  /-- RESET_EXIT (R547). 2 ms after POR_N rises the device leaves RESET, thermal sweeps start and the boot ROM runs. -/
  | resetExit
  /-- PERST_ASSERT (R548). PERST_N low resets the PCI Express link and configuration space. -/
  | perstAssert
  /-- CABINET_VERIFY_DONE (R501). The boot ROM finishes verifying the Cabinet copies and runs one, or stays in CABINET_BOOT. -/
  | cabinetVerifyDone (a b : FwObs) (policy : Option FwObs) (mode : Byte) (flash : Nat) (ms : Nat)
  /-- BOOT_VCORE_TIMEOUT (R551). No VCORE read-back within 2 ms at boot sets VCORE_FAIL and a safe VSET, and boot continues. -/
  | bootVcoreTimeout
  /-- HBM_TRAINING_DONE (R552). HBM training and test finish, passing toward IDLE or stopping boot in BARE. -/
  | hbmTrainingDone (ok : BitVec 4) (ms : Nat)
  /-- WORKBENCH_CHECK_DONE (R504). The Workbench read and checks finish, starting it, starting it by policy, or leaving the device in BARE. -/
  | workbenchCheckDone (o : FwObs) (ms : Nat)
  /-- VCORE_REMOVED (R484). Removal of VCORE ends THERMAL_LATCH and takes the device to OFF. -/
  | vcoreRemoved
  /-- SERDES_REFCLK_LOSS (R565). A stopped SD_REFCLK makes its lanes lose lock so they retrain and their lines are filled. -/
  | serdesRefclkLoss (x : RefClk)
  /-- PAD_SLEW_WRITE (R562). A write to SMC_PAD_SLEW is applied, or discarded while the affected outputs are in use. -/
  | padSlewWrite (w : World) (v : BitVec 32)
  /-- SEAL_LATENCY_EXCEEDED (R334). When a band's unsealed time, not counting PAUSED or REWINDING, passes MAXLAT, the Citum sets LATE and raises the seal-late event once for that band. -/
  | sealLatencyExceeded (n : Fin 8) (t : Int)
  /-- MANAGEMENT_SRAM_UNCORRECTABLE (R541). An uncorrectable error in management SRAM or in the staging area puts the device in FAULT with cause 4h. -/
  | managementSramUncorrectable
  /-- TIMEBASE_LOCK (R555). Within 2 ms of LTU_CTRL.EN the timebase locks to LTU_REFCLK, LTU_REF_STATUS.LOCK reads 1 and ST_ARM is no longer refused for it. -/
  | timebaseLock
  /-- PERST_RELEASE (R554). The rise of PERST_N ends the link reset, and 20 ms after the later of it and RESET exit the endpoint is ready to train. -/
  | perstRelease
  /-- PCIE_LINK_UP (R554). The PCI Express link completes training, HIF_STATUS.SPEED and WIDTH are set and configuration requests are answered. -/
  | pcieLinkUp (speed width : Fin 5)
  /-- PAUSE_TIME_EXPIRY (R384). The pause time of a received PAUSE frame runs out, PAUSED clears and held streams resume sending. -/
  | pauseTimeExpiry (pn : Fin 4)
  deriving DecidableEq, Repr

end Sys2Proof
end

