-- ==== Sys2Proof/Decode.lean ====
section
/-! DEFINITION. The words of the table of steps. The table gives no row any bits: the commands of the Citum are accesses, packets, edges
and instants, and none is spelled by a word. -/

namespace Sys2Proof

/-- The command that a word of `nbits` bits spells by the table's bits: no row gives any. -/
def decodeTableWord (_nbits _w : Nat) : Option Instr := none

end Sys2Proof
end

