-- ==== Sys2Proof/Machine/Flags.lean ====
section
/-! DEFINITION. The status codes of R517, the device and station state codes of R524 and R525, and the event source
numbers of R393 and of the chapters that assign their own. -/

namespace Sys2Proof.Machine

/-- The status codes (R517). -/
inductive Status where
  | ok | state | length | range | world | version | busy | nofit | integrity | absent | timeout
  deriving DecidableEq, Repr

/-- The code of a status (R517). -/
def Status.code : Status → Nat
  | .ok => 0 | .state => 1 | .length => 2 | .range => 3 | .world => 4 | .version => 5
  | .busy => 6 | .nofit => 7 | .integrity => 8 | .absent => 9 | .timeout => 10

/-- The first status of a list of checks, each `none` when it passes. -/
def firstOf : List (Option Status) → Option Status
  | [] => none
  | none :: cs => firstOf cs
  | some c :: _ => some c

/-- A check: `st` when the condition for refusal holds. -/
def refuseIf (c : Bool) (st : Status) : Option Status := if c then some st else none

/-- The rank of R540: LENGTH, WORLD, STATE, BUSY, RANGE, then a request's own checks. -/
def Status.rank : Status → Nat
  | .length => 0 | .world => 1 | .state => 2 | .busy => 3 | .range => 4 | _ => 5

/-- Of several refusals that apply to one request, the first in the order of R540; own checks keep their order. -/
def pickStatus (cs : List (Option Status)) : Option Status :=
  cs.foldl (fun best c =>
    match best, c with
    | none, c => c
    | b, none => b
    | some b, some c => if c.rank < b.rank then some c else some b) none

/-! Device states (R524). -/
namespace Dev
def off : Nat := 0
def reset : Nat := 1
def cabinetBoot : Nat := 2
def bare : Nat := 3
def idle : Nat := 4
def loaded : Nat := 5
def armed : Nat := 6
def running : Nat := 7
def draining : Nat := 8
def fault : Nat := 9
def thermalLatch : Nat := 10
end Dev

/-! Station states (R525). -/
namespace St
def idle : Nat := 0
def armed : Nat := 1
def scanning : Nat := 2
def paused : Nat := 3
def rewinding : Nat := 4
def draining : Nat := 5
end St

/-! Event sources (R393, R434, R459, R475, R488, R516, R543). -/
namespace Ev
def engine (e : Nat) : Nat := e
def engineFault (e : Nat) : Nat := 512 + e
def head (p : Nat) : Nat := 1024 + p
def lineFill (p : Nat) : Nat := 1120 + p
def horizonAdvance (s : Nat) : Nat := 1216 + 4 * s
def sealLate (s : Nat) : Nat := 1216 + 4 * s + 1
def seamFailed (s : Nat) : Nat := 1216 + 4 * s + 2
def rewindFailed (s : Nat) : Nat := 1216 + 4 * s + 3
def overspeed (s : Nat) : Nat := 1248 + 4 * s
def matchVelocity (s : Nat) : Nat := 1248 + 4 * s + 1
def markOvertaken (s : Nat) : Nat := 1248 + 4 * s + 2
def storeOverrun (s : Nat) : Nat := 1248 + 4 * s + 3
def paceDeficit (d : Nat) : Nat := 1280 + d
def auditCredit : Nat := 1297
def auditSlab : Nat := 1298
def auditPage : Nat := 1299
def auditToken : Nat := 1300
def auditRing : Nat := 1301
def queueStall : Nat := 1302
def queueEcc : Nat := 1303
def queueOverflow : Nat := 1304
def poolLow : Nat := 1305
def storeEcc : Nat := 1306
def leafRefused : Nat := 1307
def captureDone : Nat := 1308
def driftAlarm : Nat := 1309
def dovetailLate : Nat := 1310
def crossWorld : Nat := 1311
def encoderError (e : Nat) : Nat := 1312 + e
def refHoldover : Nat := 1316
def linkRefused : Nat := 1317
def alignLate : Nat := 1318
def alignDrift : Nat := 1319
def hingeUnmatched : Nat := 1320
def memberLost : Nat := 1321
def ptpLock : Nat := 1322
def ethLink : Nat := 1323
def streamFault : Nat := 1324
def pcieBad : Nat := 1325
def ownerEnrolled : Nat := 1440
def firmwareRefused : Nat := 1441
def comboRose : Nat := 1442
def mapRefused : Nat := 1443
def pmbusError : Nat := 1444
def pmbusAlert : Nat := 1445
def headUnmeasured : Nat := 1446
def mbResponse (r : Nat) : Nat := 1448 + r
def mbLength (r : Nat) : Nat := 1450 + r
def devState : Nat := 1452
def faultEntered : Nat := 1453
def stationState (s : Nat) : Nat := 1454 + s
def mbRefused (r : Nat) : Nat := 1462 + r
def streamCompletion (c : Nat) : Nat := 1472 + c
end Ev

end Sys2Proof.Machine
end

