-- ==== Sys2Proof/Config.lean ====
section
/-! DEFINITION. What is fixed for one Citum but not by the manual: the contents of the fuses and the boot ROM of the modelled part (log 2),
and the free values of the manual (log 3). -/

namespace Sys2Proof.Config

/-- DESIGN CHOICE (log 2). The device serial the fuses hold (R491); the manual gives no value. -/
def fuseSerial : Nat := 0
/-- DESIGN CHOICE (log 2). The silicon revision the fuses hold (R491). -/
def fuseRev : Nat := 0
/-- DESIGN CHOICE (log 2). The pace grade the fuses hold: 01b P1, 10b P2 (R1, R491). -/
def fuseGrade : Nat := 1
/-- DESIGN CHOICE (log 2). The owner fuse of a part as delivered: 00b, not enrolled (R493). -/
def fuseOwner : Nat := 0
/-- DESIGN CHOICE (log 2). The base MAC address (R491). -/
def fuseMac : Nat := 0
/-- The SHA-384 of the public key of private key 1 in SEC1 uncompressed form, first byte in the top bits. -/
def keyOneDigest : Nat :=
  0x8c4f262412b7f9ed867606705a130de5212fd048fbaf8c38 * 2 ^ 192 +
  0x42f4a240f4b45ba0c90f82194ccdda3ed89c96b0afe1d51d
/-- DESIGN CHOICE (log 2). Word `i` of the SHA-384 of the device public key (R491), the private key being 1, the smallest legal one: bytes 4i
to 4i + 3, the first in the low bits. -/
def fuseKeyDigest (i : Nat) : Nat :=
  (List.range 4).foldl (fun a j => a + keyOneDigest / 2 ^ (8 * (47 - (4 * i + j))) % 256 * 2 ^ (8 * j)) 0
/-- DESIGN CHOICE (log 2). The SHA-384 of the Nelpanas firmware key that the boot ROM holds (R500): that of private key 1. -/
def romKeyDigest : Nat := keyOneDigest
/-- DESIGN CHOICE (log 2). The Cabinet SVN counter of a part as delivered (R503). -/
def fuseCabSvn : Nat := 0
/-- DESIGN CHOICE (log 2). The Workbench SVN counter of a part as delivered (R503). -/
def fuseWbSvn : Nat := 0

/-- A free value (log 3): what a MIN, MAX or ARGMAX reduce writes for a position that no item of the band has reached
(R288, R289 state none), for the `n`-th free value taken. -/
opaque freeLane : Nat → Nat

/-- A free value (log 3): what a read of a local store word answers when its error could not be corrected (R246, R249), for the
`n`-th free value taken. -/
opaque freeStore : Nat → Nat

/-- A free value (log 3): the 32-bit word that stands at a word offset of a cell's region (R275, R290), from what the cell holds
there and the word written last from outside; the manual gives the region no layout. -/
opaque regionWord : List Nat → Nat → Nat → Nat

/-- A free value (log 3): a sample of a line that an image product never read, for the `n`-th free value taken. -/
opaque freePixel : Nat → Nat

/-- A free value (log 3): a number the Measurement Front End chapter leaves open (a sum outside 48 bits, R446; a temperature that
lies within the tolerance of the curve's solution of two readings or outside the curve, R443; the index of an event that names
neither entry nor slice, R460), for the `n`-th free value taken. -/
opaque freeMeas : Nat → Nat

/-- A free value (log 3): KIND of an axis that shutdown puts into FAULT (R483 names none), for the `n`-th free value taken. -/
opaque freeKind : Nat → Nat

/-- A free value (log 150): byte `i` of a BAR2 read while the HBM is in self-refresh (R483 states none), for the `n`-th free value
taken. -/
opaque freeByte (n i : Nat) : Nat

/-- The coefficients fused at test of the second-order curve that trims the reference (R486), in order of their power of the reading; the
manual gives none (log 151). -/
opaque trimCoeff (power : Nat) : Int

/-- The bits of the fraction that the sum of the curve carries (log 151). -/
opaque trimShift : Nat

/-- A free value (log 3): the SHA-384 of the boot ROM, measurement 1 (R509), as 48 bytes. -/
opaque bootRomDigest : List Nat

/-- A free value (log 152): a part of the certificate chain of slot 0 whose bytes R490 leaves open, by the number of the part
(`certPart`). -/
opaque certPart (part : Nat) : List Nat

/-- The ECDSA P-384 signature of the device key over a byte string (R490, R508): a free value (log 3), since the standard takes a
random number for each. -/
opaque sign : List Nat → List Nat

/-- A free value (log 3): CTExponent of the SPDM responder (DSP0274), which R508 does not give. -/
opaque ctExponent : Nat

/-- A free value (log 3): the nonce of an SPDM request or response (R508), for the `n`-th free value taken. -/
opaque nonce : Nat → List Nat

/-- A free value (log 117): the turnaround of this end of a Kelim lane in timing units (R85), for the `n`-th free value taken. -/
opaque kelimTurn : Nat → Nat

/-- A free value (log 122): the part of the steering that makes LTU time follow PTP time, in ppb, from the offset measured in ns and
the part in force before (R103 states no control law). -/
opaque ptpSteer : Int → Int → Int

end Sys2Proof.Config
end

