-- ==== Sys2Proof/Machine/Maps.lean ====
section
/-! DEFINITION. Sparse data as a list of key and value pairs in one canonical form: keys strictly rising, no entry
equal to what an unlisted key reads as. The register store, the memories and the per-instance records of the model all
use it. -/

namespace Sys2Proof.Machine

/-- A sparse map with `Nat` keys. -/
abbrev SMap (α : Type) := List (Nat × α)

/-- The entry of a key, if listed. -/
def SMap.find? {α : Type} : SMap α → Nat → Option α
  | [], _ => none
  | (k, v) :: m, q => if q = k then some v else SMap.find? m q

/-- The value of a key; `d` for an unlisted one. -/
def SMap.get {α : Type} (m : SMap α) (d : α) (q : Nat) : α := (SMap.find? m q).getD d

/-- The map without a key. -/
def SMap.erase {α : Type} : SMap α → Nat → SMap α
  | [], _ => []
  | (k, v) :: m, q => if q = k then SMap.erase m q else (k, v) :: SMap.erase m q

/-- The map with a key listed at its place. -/
def SMap.insert {α : Type} : SMap α → Nat → α → SMap α
  | [], q, x => [(q, x)]
  | (k, v) :: m, q, x =>
    if q < k then (q, x) :: (k, v) :: m
    else if q = k then (q, x) :: m
    else (k, v) :: SMap.insert m q x

/-- Write a key: the default is never listed. -/
def SMap.put {α : Type} [DecidableEq α] (m : SMap α) (d : α) (q : Nat) (x : α) : SMap α :=
  if x = d then SMap.erase m q else SMap.insert m q x

/-- Every key of the map is above `k`. -/
def SMap.above {α : Type} (k : Nat) : SMap α → Bool
  | [] => true
  | (q, _) :: m => decide (k < q) && SMap.above k m

/-- Keys strictly rising. -/
def SMap.sorted {α : Type} : SMap α → Bool
  | [] => true
  | (k, _) :: m => SMap.above k m && SMap.sorted m

/-- No entry equals what its unlisted key reads as, `d` giving that value for each key. -/
def SMap.noDefault {α : Type} [DecidableEq α] (d : Nat → α) : SMap α → Bool
  | [] => true
  | (k, v) :: m => decide (v ≠ d k) && SMap.noDefault d m

/-- The canonical form. -/
def SMap.wf {α : Type} [DecidableEq α] (d : Nat → α) (m : SMap α) : Bool :=
  SMap.sorted m && SMap.noDefault d m

/-- Write `n` successive bytes or words from `a` on. -/
def SMap.putList {α : Type} [DecidableEq α] (m : SMap α) (d : α) : Nat → List α → SMap α
  | _, [] => m
  | a, x :: xs => SMap.putList (SMap.put m d a x) d (a + 1) xs

/-- Read `n` successive entries from `a` on. -/
def SMap.getList {α : Type} (m : SMap α) (d : α) (a : Nat) : Nat → List α
  | 0 => []
  | n + 1 => SMap.get m d a :: SMap.getList m d (a + 1) n

/-! ### Memories -/

/-- An addressed memory of the device: bytes by address (HBM, the leaf and table window, the mailbox entries). -/
abbrev Memory := List Host.Cell

/-- What a byte that nothing has written reads as (R574; for the HBM log 14). -/
def Memory.blank : Byte := 0

/-- The canonical form: addresses strictly rising, and no entry equal to what an unlisted address reads as. -/
def Memory.wf (m : Memory) : Bool := SMap.wf (fun _ => Memory.blank) m

/-- Read one byte, as a number. -/
def Memory.byte (m : Memory) (a : Nat) : Nat := (SMap.get (α := Byte) m Memory.blank a).toNat

/-- Read `n` bytes from `a` on. -/
def Memory.bytes (m : Memory) (a : Nat) : Nat → List Nat
  | 0 => []
  | n + 1 => Memory.byte m a :: Memory.bytes m (a + 1) n

/-- Write bytes from `a` on. -/
def Memory.write (m : Memory) (a : Nat) (bs : List Nat) : Memory := SMap.putList (α := Byte) m Memory.blank a (bs.map (BitVec.ofNat 8))

/-- Drop every key of `lo` to `hi - 1`, so that it reads as the default again. -/
def SMap.clearRange {α : Type} (m : SMap α) (lo hi : Nat) : SMap α :=
  m.filter fun e => decide (e.1 < lo) || decide (hi ≤ e.1)

end Sys2Proof.Machine
end

