-- ==== Sys2Proof/Machine/Field.lean ====
section
/-! DEFINITION. What the register tables say of one field: where it stands, how wide it is, how it is accessed (R11)
and what it holds when its block leaves RESET (R14). -/

namespace Sys2Proof.Machine

/-- The access types of R11. -/
inductive Access where
  | ro | rw | w1c | wo | rws
  deriving DecidableEq, Repr

/-- The reset value of a field (R14). Besides a plain value, the tables give: the register's own index
(HLF_PORT_STATE.PRIMARY, PCP_SHD_TRK_CTRL.SRC); 01b for the fifth slice (MFE_SLICE.ROLE); all ones in the words of the
staging area (SMC_WMAP_HBM); and contents of the fuses. -/
inductive ResetRule where
  | val (n : Nat)
  | ownIndex
  | spareSlice
  | hbmMap
  | portMac
  | keyDigest
  | ownerDigest
  deriving DecidableEq, Repr

/-- The reset value of the instance with first index `i`. -/
def ResetRule.value : ResetRule → Nat → Nat
  | .val n, _ => n
  | .ownIndex, i => i
  | .spareSlice, i => if i = 4 then 1 else 0
  | .hbmMap, i => if 1016 ≤ i then 0xFFFFFFFF else 0
  | .portMac, i => Config.fuseMac + i
  | .keyDigest, i => Config.fuseKeyDigest i
  | .ownerDigest, _ => 0

/-- One field of a register family: byte address of its first instance, strides of the two indices, bit place, width,
access and reset value. -/
structure Fld where
  base : Nat
  s1 : Nat
  s2 : Nat
  lo : Nat
  width : Nat
  acc : Access
  reset : ResetRule
  deriving DecidableEq, Repr

/-- The bit address of a field in the control space: the key of the register store. -/
def Fld.key (f : Fld) (i j : Nat) : Nat := (f.base + f.s1 * i + f.s2 * j) * 32 + f.lo

/-- The reset value of an instance. -/
def Fld.resetAt (f : Fld) (i : Nat) : Nat := f.reset.value i

end Sys2Proof.Machine
end

