-- ==== Sys2Proof/Machine/Operands.lean ====
section
/-! DEFINITION. The operand forms of the commands: bit fields of words, signed and fixed-point readings (R3), the
rounding of R4, little-endian byte strings (R10), saturation, and band arithmetic (R17). -/

namespace Sys2Proof.Machine

/-- Bits `lo + w - 1 : lo` of a number (R9). -/
def bits (v lo w : Nat) : Nat := (v >>> lo) % 2 ^ w

/-- Bit `n` of a number. -/
def bit (v n : Nat) : Bool := v.testBit n

/-- 1 for true, 0 for false. -/
def b2n (b : Bool) : Nat := if b then 1 else 0

/-- The two's complement reading of a `w`-bit value (R3). -/
def toSigned (w v : Nat) : Int := if 2 * (v % 2 ^ w) < 2 ^ w then (v % 2 ^ w : Nat) else (v % 2 ^ w : Nat) - (2 ^ w : Nat)

/-- The `w`-bit two's complement code of an integer (R3). -/
def ofSigned (w : Nat) (x : Int) : Nat := (x % (2 ^ w : Nat)).toNat

/-- Unsigned saturation to `w` bits. -/
def satU (w v : Nat) : Nat := min v (2 ^ w - 1)

/-- Signed saturation to `w` bits. -/
def satS (w : Nat) (x : Int) : Int := max (-(2 ^ (w - 1) : Nat)) (min x ((2 ^ (w - 1) : Nat) - 1))

/-- Clamp to a range. -/
def clampI (lo hi x : Int) : Int := max lo (min x hi)

/-- Division rounded to nearest, ties to even (R4), of naturals; 0 for a zero divisor. -/
def roundDiv (a b : Nat) : Nat :=
  let q := a / b
  let r := a % b
  if b = 0 then 0
  else if 2 * r < b then q
  else if b < 2 * r then q + 1
  else q + q % 2

/-- Division rounded to nearest, ties to even (R4), of integers by a positive divisor. -/
def roundDivI (a : Int) (b : Nat) : Int :=
  if b = 0 then 0
  else
    let q := a / (b : Int)
    let r := (a % (b : Int)).toNat
    if 2 * r < b then q
    else if b < 2 * r then q + 1
    else q + q % 2

/-- Division rounded up; 0 for a zero divisor. -/
def ceilDiv (a b : Nat) : Nat := if b = 0 then 0 else (a + b - 1) / b

/-- The bytes of a value, least significant first (R10). -/
def leBytes : Nat → Nat → List Nat
  | 0, _ => []
  | n + 1, v => v % 256 :: leBytes n (v / 256)

/-- The value of bytes, least significant first (R10). -/
def ofLe : List Nat → Nat
  | [] => 0
  | b :: bs => b % 256 + 256 * ofLe bs

/-- The value of bytes, most significant first (the standards' order). -/
def ofBe (bs : List Nat) : Nat := bs.foldl (fun a b => a * 256 + b % 256) 0

/-- Bytes `a` to `a + n - 1` of a byte string as a little-endian value. -/
def field (bs : List Nat) (a n : Nat) : Nat := ofLe ((bs.drop a).take n)

/-- 48-bit arithmetic of lines and positions (spec/00, R17). -/
def wrap48 (n : Nat) : Nat := n % 2 ^ 48

/-- The band of a line: the line number shifted right by `k` (R17). -/
def bandOf (n k : Nat) : Nat := n >>> k

/-- The first line of a band (R17). -/
def bandStart (b k : Nat) : Nat := b <<< k

/-- A hinge line is the first line of a band (R17). -/
def isBandStart (n k : Nat) : Bool := n % 2 ^ k = 0

/-- The first band start at or after a line. -/
def nextBandStart (n k : Nat) : Nat := bandStart (bandOf (n + 2 ^ k - 1) k) k

/-- The number of 1 bits among the low `w` bits. -/
def popCount : Nat → Nat → Nat
  | 0, _ => 0
  | w + 1, v => b2n (v.testBit w) + popCount w v

end Sys2Proof.Machine
end

