-- ==== Sys2Proof/Machine/Registers.lean ====
section
/-! DEFINITION. Every field of every register of the Citum, from the register tables of spec/02 to spec/23: address, stride, place, width, access and reset value.
A `_LO`, `_HI` pair that holds one value is one field, kept under the `_LO` register. -/

namespace Sys2Proof.Machine.R


/-! ### Fields of spec/02_clockless_core.md -/

/-- SCU_PACE_CTRL, 4 bits. -/
def SCU_PACE_CTRL_WINDOW : Fld := ⟨0x201000, 0x0, 0x0, 0, 4, .rw, (.val 0xa)⟩
/-- SCU_PACE_HS_LO[d], 48 bits. -/
def SCU_PACE_HS : Fld := ⟨0x201100, 0x20, 0x0, 0, 48, .ro, (.val 0)⟩
/-- SCU_PACE_BUSY_LO[d], 48 bits. -/
def SCU_PACE_BUSY : Fld := ⟨0x201108, 0x20, 0x0, 0, 48, .ro, (.val 0)⟩
/-- SCU_PACE_RATE[d], 16 bits. -/
def SCU_PACE_RATE_RATE : Fld := ⟨0x201110, 0x20, 0x0, 0, 16, .ro, (.val 0)⟩
/-- SCU_PACE_RATE[d], 1 bit. -/
def SCU_PACE_RATE_VALID : Fld := ⟨0x201110, 0x20, 0x0, 31, 1, .ro, (.val 0)⟩
/-- SCU_ADM_STATUS, 8 bits. -/
def SCU_ADM_STATUS_RESULT : Fld := ⟨0x201400, 0x0, 0x0, 0, 8, .ro, (.val 0)⟩
/-- SCU_ADM_STATUS, 5 bits. -/
def SCU_ADM_STATUS_FAIL_DOMAIN : Fld := ⟨0x201400, 0x0, 0x0, 8, 5, .ro, (.val 0x1f)⟩
/-- SCU_ADM_STATUS, 4 bits. -/
def SCU_ADM_STATUS_THROTTLE : Fld := ⟨0x201400, 0x0, 0x0, 16, 4, .ro, (.val 0)⟩
/-- SCU_ADM_STATUS, 9 bits. -/
def SCU_ADM_STATUS_FAIL_ENGINE : Fld := ⟨0x201400, 0x0, 0x0, 20, 9, .ro, (.val 0x1ff)⟩
/-- SCU_ADM_CAP, 16 bits. -/
def SCU_ADM_CAP_CAP : Fld := ⟨0x201404, 0x0, 0x0, 0, 16, .ro, (.val 0)⟩
/-- SCU_ADM_CAP, 12 bits. -/
def SCU_ADM_CAP_VADM : Fld := ⟨0x201404, 0x0, 0x0, 16, 12, .ro, (.val 0)⟩
/-- SCU_ADM_LOAD, 16 bits. -/
def SCU_ADM_LOAD_LOAD : Fld := ⟨0x201408, 0x0, 0x0, 0, 16, .ro, (.val 0)⟩
/-- SCU_ADM_COUNT, 32 bits. -/
def SCU_ADM_COUNT_NOFIT : Fld := ⟨0x20140c, 0x0, 0x0, 0, 32, .ro, (.val 0)⟩
/-- SMC_VFIT_CTRL, 1 bit. -/
def SMC_VFIT_CTRL_EN : Fld := ⟨0x4000, 0x0, 0x0, 0, 1, .rws, (.val 0)⟩
/-- SMC_VFIT_CTRL, 7 bits. -/
def SMC_VFIT_CTRL_MARGIN : Fld := ⟨0x4000, 0x0, 0x0, 8, 7, .rws, (.val 0xf)⟩
/-- SMC_VFIT_CTRL, 4 bits. -/
def SMC_VFIT_CTRL_STEP : Fld := ⟨0x4000, 0x0, 0x0, 16, 4, .rws, (.val 2)⟩
/-- SMC_VFIT_CTRL, 4 bits. -/
def SMC_VFIT_CTRL_HOLD : Fld := ⟨0x4000, 0x0, 0x0, 20, 4, .rws, (.val 0xa)⟩
/-- SMC_VFIT_CTRL, 6 bits. -/
def SMC_VFIT_CTRL_GUARD : Fld := ⟨0x4000, 0x0, 0x0, 24, 6, .rws, (.val 0xf)⟩
/-- SMC_VFIT_LIMITS, 12 bits. -/
def SMC_VFIT_LIMITS_VMIN : Fld := ⟨0x4004, 0x0, 0x0, 0, 12, .rws, (.val 0x2bc)⟩
/-- SMC_VFIT_LIMITS, 12 bits. -/
def SMC_VFIT_LIMITS_VMAX : Fld := ⟨0x4004, 0x0, 0x0, 16, 12, .rws, (.val 0x352)⟩
/-- SMC_VFIT_STATUS, 12 bits. -/
def SMC_VFIT_STATUS_VSET : Fld := ⟨0x4008, 0x0, 0x0, 0, 12, .ro, (.val 0x352)⟩
/-- SMC_VFIT_STATUS, 3 bits. -/
def SMC_VFIT_STATUS_STATE : Fld := ⟨0x4008, 0x0, 0x0, 12, 3, .ro, (.val 0)⟩
/-- SMC_VFIT_STATUS, 1 bit. -/
def SMC_VFIT_STATUS_FAIL : Fld := ⟨0x4008, 0x0, 0x0, 16, 1, .w1c, (.val 0)⟩
/-- SMC_VFIT_STATUS, 1 bit. -/
def SMC_VFIT_STATUS_LIMIT_ERR : Fld := ⟨0x4008, 0x0, 0x0, 17, 1, .w1c, (.val 0)⟩

/-! ### Fields of spec/03_ricel_head_links.md -/

/-- HLF_CTRL, 1 bit. -/
def HLF_CTRL_EN : Fld := ⟨0x400000, 0x0, 0x0, 0, 1, .rw, (.val 0)⟩
/-- HLF_CTRL, 1 bit. -/
def HLF_CTRL_LEGACY_EN : Fld := ⟨0x400000, 0x0, 0x0, 8, 1, .rw, (.val 1)⟩
/-- HLF_PRBS_CFG, 6 bits. -/
def HLF_PRBS_CFG_LEN : Fld := ⟨0x400004, 0x0, 0x0, 0, 6, .rw, (.val 0x22)⟩
/-- HLF_PRBS_CFG, 8 bits. -/
def HLF_PRBS_CFG_MAX_ERR : Fld := ⟨0x400004, 0x0, 0x0, 8, 8, .rw, (.val 0)⟩
/-- HLF_PRBS_CFG, 6 bits. -/
def HLF_PRBS_CFG_RETRAIN_LEN : Fld := ⟨0x400004, 0x0, 0x0, 16, 6, .rw, (.val 0x18)⟩
/-- HLF_TIMER_CFG, 8 bits. -/
def HLF_TIMER_CFG_REPLAY_US : Fld := ⟨0x400008, 0x0, 0x0, 0, 8, .rw, (.val 0x10)⟩
/-- HLF_TIMER_CFG, 8 bits. -/
def HLF_TIMER_CFG_LINE_TIMEOUT : Fld := ⟨0x400008, 0x0, 0x0, 8, 8, .rw, (.val 0x40)⟩
/-- HLF_TIMER_CFG, 8 bits. -/
def HLF_TIMER_CFG_CRC_LIMIT : Fld := ⟨0x400008, 0x0, 0x0, 16, 8, .rw, (.val 8)⟩
/-- HLF_CFG_ADDR, 7 bits. -/
def HLF_CFG_ADDR_PORT : Fld := ⟨0x400010, 0x0, 0x0, 0, 7, .rw, (.val 0)⟩
/-- HLF_CFG_ADDR, 24 bits. -/
def HLF_CFG_ADDR_ADDR : Fld := ⟨0x400010, 0x0, 0x0, 8, 24, .rw, (.val 0)⟩
/-- HLF_CFG_DATA, 32 bits. -/
def HLF_CFG_DATA_DATA : Fld := ⟨0x400014, 0x0, 0x0, 0, 32, .rw, (.val 0)⟩
/-- HLF_CFG_CMD, 1 bit. -/
def HLF_CFG_CMD_GO : Fld := ⟨0x400018, 0x0, 0x0, 0, 1, .wo, (.val 0)⟩
/-- HLF_CFG_CMD, 1 bit. -/
def HLF_CFG_CMD_WRITE : Fld := ⟨0x400018, 0x0, 0x0, 1, 1, .rw, (.val 0)⟩
/-- HLF_CFG_CMD, 1 bit. -/
def HLF_CFG_CMD_BUSY : Fld := ⟨0x400018, 0x0, 0x0, 8, 1, .ro, (.val 0)⟩
/-- HLF_CFG_CMD, 8 bits. -/
def HLF_CFG_CMD_STATUS : Fld := ⟨0x400018, 0x0, 0x0, 16, 8, .ro, (.val 0)⟩
/-- HLF_PORT_CTRL[p], 1 bit. -/
def HLF_PORT_CTRL_EN : Fld := ⟨0x401000, 0x40, 0x0, 0, 1, .rw, (.val 1)⟩
/-- HLF_PORT_CTRL[p], 4 bits. -/
def HLF_PORT_CTRL_LANE_LIMIT : Fld := ⟨0x401000, 0x40, 0x0, 1, 4, .rw, (.val 0xf)⟩
/-- HLF_PORT_CTRL[p], 4 bits. -/
def HLF_PORT_CTRL_RATE_LIMIT : Fld := ⟨0x401000, 0x40, 0x0, 5, 4, .rw, (.val 0xf)⟩
/-- HLF_PORT_CTRL[p], 8 bits. -/
def HLF_PORT_CTRL_VER_MAX : Fld := ⟨0x401000, 0x40, 0x0, 16, 8, .rw, (.val 0x21)⟩
/-- HLF_PORT_CTRL[p], 1 bit. -/
def HLF_PORT_CTRL_RETRAIN : Fld := ⟨0x401000, 0x40, 0x0, 24, 1, .wo, (.val 0)⟩
/-- HLF_PORT_STATE[p], 4 bits. -/
def HLF_PORT_STATE_STATE : Fld := ⟨0x401004, 0x40, 0x0, 0, 4, .ro, (.val 0)⟩
/-- HLF_PORT_STATE[p], 7 bits. -/
def HLF_PORT_STATE_PRIMARY : Fld := ⟨0x401004, 0x40, 0x0, 4, 7, .ro, .ownIndex⟩
/-- HLF_PORT_STATE[p], 8 bits. -/
def HLF_PORT_STATE_LAST_STATUS : Fld := ⟨0x401004, 0x40, 0x0, 16, 8, .ro, (.val 0)⟩
/-- HLF_PORT_STATE[p], 1 bit. -/
def HLF_PORT_STATE_CHANGED : Fld := ⟨0x401004, 0x40, 0x0, 24, 1, .w1c, (.val 0)⟩
/-- HLF_PORT_MODE[p], 8 bits. -/
def HLF_PORT_MODE_VERSION : Fld := ⟨0x401008, 0x40, 0x0, 0, 8, .ro, (.val 0)⟩
/-- HLF_PORT_MODE[p], 4 bits. -/
def HLF_PORT_MODE_LANES : Fld := ⟨0x401008, 0x40, 0x0, 8, 4, .ro, (.val 0)⟩
/-- HLF_PORT_MODE[p], 2 bits. -/
def HLF_PORT_MODE_RATE : Fld := ⟨0x401008, 0x40, 0x0, 12, 2, .ro, (.val 0)⟩
/-- HLF_PORT_MODE[p], 2 bits. -/
def HLF_PORT_MODE_DEPTH : Fld := ⟨0x401008, 0x40, 0x0, 14, 2, .ro, (.val 0)⟩
/-- HLF_PORT_GEOM[p], 19 bits. -/
def HLF_PORT_GEOM_COLUMNS : Fld := ⟨0x40100c, 0x40, 0x0, 0, 19, .ro, (.val 0)⟩
/-- HLF_PORT_GEOM[p], 4 bits. -/
def HLF_PORT_GEOM_PLANES : Fld := ⟨0x40100c, 0x40, 0x0, 24, 4, .ro, (.val 0)⟩
/-- HLF_PORT_ID_LO[p], 64 bits. -/
def HLF_PORT_ID_SERIAL : Fld := ⟨0x401010, 0x40, 0x0, 0, 64, .ro, (.val 0)⟩
/-- HLF_PORT_FW[p], 32 bits. -/
def HLF_PORT_FW_FW : Fld := ⟨0x401018, 0x40, 0x0, 0, 32, .ro, (.val 0)⟩
/-- HLF_PORT_VENDOR[p], 16 bits. -/
def HLF_PORT_VENDOR_VENDOR : Fld := ⟨0x40101c, 0x40, 0x0, 0, 16, .ro, (.val 0)⟩
/-- HLF_PORT_VENDOR[p], 16 bits. -/
def HLF_PORT_VENDOR_MODEL : Fld := ⟨0x40101c, 0x40, 0x0, 16, 16, .ro, (.val 0)⟩
/-- HLF_LANE_STATUS[l], 1 bit. -/
def HLF_LANE_STATUS_LOCK : Fld := ⟨0x404000, 0x20, 0x0, 0, 1, .ro, (.val 0)⟩
/-- HLF_LANE_STATUS[l], 1 bit. -/
def HLF_LANE_STATUS_ACTIVE : Fld := ⟨0x404000, 0x20, 0x0, 1, 1, .ro, (.val 0)⟩
/-- HLF_LANE_STATUS[l], 1 bit. -/
def HLF_LANE_STATUS_RETRAINING : Fld := ⟨0x404000, 0x20, 0x0, 2, 1, .ro, (.val 0)⟩
/-- HLF_LANE_STATUS[l], 16 bits. -/
def HLF_LANE_STATUS_DELAY : Fld := ⟨0x404000, 0x20, 0x0, 16, 16, .ro, (.val 0)⟩
/-- HLF_LANE_CRC[l], 32 bits. -/
def HLF_LANE_CRC_COUNT : Fld := ⟨0x404004, 0x20, 0x0, 0, 32, .ro, (.val 0)⟩
/-- HLF_LANE_REPLAY[l], 32 bits. -/
def HLF_LANE_REPLAY_COUNT : Fld := ⟨0x404008, 0x20, 0x0, 0, 32, .ro, (.val 0)⟩
/-- HLF_LANE_PRBS[l], 32 bits. -/
def HLF_LANE_PRBS_COUNT : Fld := ⟨0x40400c, 0x20, 0x0, 0, 32, .ro, (.val 0)⟩
/-- HLF_LANE_DROP[l], 32 bits. -/
def HLF_LANE_DROP_COUNT : Fld := ⟨0x404018, 0x20, 0x0, 0, 32, .ro, (.val 0)⟩
/-- HLF_LANE_CREDIT[l], 16 bits. -/
def HLF_LANE_CREDIT_RETURNED : Fld := ⟨0x404010, 0x20, 0x0, 0, 16, .ro, (.val 0)⟩
/-- HLF_LANE_CREDIT[l], 16 bits. -/
def HLF_LANE_CREDIT_OCCUPIED : Fld := ⟨0x404010, 0x20, 0x0, 16, 16, .ro, (.val 0)⟩
/-- HLF_LANE_AUDIT[l], 16 bits. -/
def HLF_LANE_AUDIT_HELD : Fld := ⟨0x404014, 0x20, 0x0, 0, 16, .ro, (.val 0)⟩
/-- HLF_LANE_AUDIT[l], 1 bit. -/
def HLF_LANE_AUDIT_RESYNC : Fld := ⟨0x404014, 0x20, 0x0, 16, 1, .ro, (.val 0)⟩
/-- HLF_LANE_AUDIT[l], 1 bit. -/
def HLF_LANE_AUDIT_FAIL : Fld := ⟨0x404014, 0x20, 0x0, 17, 1, .w1c, (.val 0)⟩
/-- HLF_LANE_AUDIT[l], 12 bits. -/
def HLF_LANE_AUDIT_DIFF : Fld := ⟨0x404014, 0x20, 0x0, 20, 12, .ro, (.val 0)⟩

/-! ### Fields of spec/04_line_timing_exposure.md -/

/-- LTU_CTRL, 1 bit. -/
def LTU_CTRL_EN : Fld := ⟨0x600000, 0x0, 0x0, 0, 1, .rw, (.val 0)⟩
/-- LTU_CTRL, 1 bit. -/
def LTU_CTRL_PTP_DISC : Fld := ⟨0x600000, 0x0, 0x0, 4, 1, .rw, (.val 0)⟩
/-- LTU_REF_STATUS, 1 bit. -/
def LTU_REF_STATUS_LOCK : Fld := ⟨0x600004, 0x0, 0x0, 0, 1, .ro, (.val 0)⟩
/-- LTU_REF_STATUS, 1 bit. -/
def LTU_REF_STATUS_HOLDOVER : Fld := ⟨0x600004, 0x0, 0x0, 1, 1, .w1c, (.val 0)⟩
/-- LTU_REF_STATUS, 1 bit. -/
def LTU_REF_STATUS_TCOMP_HOLD : Fld := ⟨0x600004, 0x0, 0x0, 2, 1, .ro, (.val 0)⟩
/-- LTU_REF_STATUS, 1 bit. -/
def LTU_REF_STATUS_PTP_LOCK : Fld := ⟨0x600004, 0x0, 0x0, 3, 1, .ro, (.val 0)⟩
/-- LTU_REF_STATUS, 8 bits. -/
def LTU_REF_STATUS_LAST_STATUS : Fld := ⟨0x600004, 0x0, 0x0, 8, 8, .ro, (.val 0)⟩
/-- LTU_REF_STATUS, 16 bits. -/
def LTU_REF_STATUS_CORR : Fld := ⟨0x600004, 0x0, 0x0, 16, 16, .ro, (.val 0)⟩
/-- LTU_TCOMP_CTRL, 5 bits. -/
def LTU_TCOMP_CTRL_SENSOR : Fld := ⟨0x600008, 0x0, 0x0, 0, 5, .rw, (.val 0)⟩
/-- LTU_TCOMP_CTRL, 1 bit. -/
def LTU_TCOMP_CTRL_EN : Fld := ⟨0x600008, 0x0, 0x0, 8, 1, .rw, (.val 0)⟩
/-- LTU_TCOMP_PT[i], 16 bits. -/
def LTU_TCOMP_PT_CORR : Fld := ⟨0x600010, 0x4, 0x0, 0, 16, .rw, (.val 0)⟩
/-- LTU_TCOMP_PT[i], 12 bits. -/
def LTU_TCOMP_PT_TEMP : Fld := ⟨0x600010, 0x4, 0x0, 16, 12, .rw, (.val 0)⟩
/-- LTU_ENC_CFG[e], 10 bits. -/
def LTU_ENC_CFG_GLITCH : Fld := ⟨0x600100, 0x20, 0x0, 0, 10, .rw, (.val 0)⟩
/-- LTU_ENC_CFG[e], 2 bits. -/
def LTU_ENC_CFG_MAJ : Fld := ⟨0x600100, 0x20, 0x0, 12, 2, .rw, (.val 0)⟩
/-- LTU_ENC_CFG[e], 1 bit. -/
def LTU_ENC_CFG_INVERT : Fld := ⟨0x600100, 0x20, 0x0, 16, 1, .rw, (.val 0)⟩
/-- LTU_ENC_CFG[e], 1 bit. -/
def LTU_ENC_CFG_Z_EN : Fld := ⟨0x600100, 0x20, 0x0, 17, 1, .rw, (.val 0)⟩
/-- LTU_ENC_CFG[e], 2 bits. -/
def LTU_ENC_CFG_AVG : Fld := ⟨0x600100, 0x20, 0x0, 20, 2, .rw, (.val 2)⟩
/-- LTU_ENC_POS_LO[e], 48 bits. -/
def LTU_ENC_POS_COUNT : Fld := ⟨0x600104, 0x20, 0x0, 0, 48, .ro, (.val 0)⟩
/-- LTU_ENC_POS_HI[e], 16 bits. -/
def LTU_ENC_POS_PHASE : Fld := ⟨0x600108, 0x20, 0x0, 16, 16, .ro, (.val 0)⟩
/-- LTU_ENC_PERIOD[e], 32 bits. -/
def LTU_ENC_PERIOD_PERIOD : Fld := ⟨0x60010c, 0x20, 0x0, 0, 32, .ro, (.val 0xffffffff)⟩
/-- LTU_ENC_ERR[e], 32 bits. -/
def LTU_ENC_ERR_COUNT : Fld := ⟨0x600110, 0x20, 0x0, 0, 32, .ro, (.val 0)⟩
/-- LTU_ENC_ZLATCH_LO[e], 48 bits. -/
def LTU_ENC_ZLATCH_COUNT : Fld := ⟨0x600114, 0x20, 0x0, 0, 48, .ro, (.val 0)⟩
/-- LTU_ENC_ZLATCH_HI[e], 16 bits. -/
def LTU_ENC_ZLATCH_PHASE : Fld := ⟨0x600118, 0x20, 0x0, 16, 16, .ro, (.val 0)⟩
/-- LTU_ST_CTRL[s], 2 bits. -/
def LTU_ST_CTRL_SRC : Fld := ⟨0x601000, 0x80, 0x0, 0, 2, .rw, (.val 0)⟩
/-- LTU_ST_CTRL[s], 2 bits. -/
def LTU_ST_CTRL_ENC : Fld := ⟨0x601000, 0x80, 0x0, 2, 2, .rw, (.val 0)⟩
/-- LTU_ST_CTRL[s], 2 bits. -/
def LTU_ST_CTRL_OVERRUN : Fld := ⟨0x601000, 0x80, 0x0, 4, 2, .rw, (.val 0)⟩
/-- LTU_ST_CTRL[s], 1 bit. -/
def LTU_ST_CTRL_DIR : Fld := ⟨0x601000, 0x80, 0x0, 8, 1, .rw, (.val 0)⟩
/-- LTU_ST_RATIO[s], 32 bits. -/
def LTU_ST_RATIO_D : Fld := ⟨0x601004, 0x80, 0x0, 0, 32, .rw, (.val 0x10000)⟩
/-- LTU_ST_TIMER[s], 28 bits. -/
def LTU_ST_TIMER_PERIOD : Fld := ⟨0x601008, 0x80, 0x0, 0, 28, .rw, (.val 0x7d00)⟩
/-- LTU_ST_MAXRATE[s], 19 bits. -/
def LTU_ST_MAXRATE_RATE : Fld := ⟨0x60100c, 0x80, 0x0, 0, 19, .rw, (.val 0)⟩
/-- LTU_ST_EXP_DELAY[s], 24 bits. -/
def LTU_ST_EXP_DELAY_TICKS : Fld := ⟨0x601010, 0x80, 0x0, 0, 24, .rw, (.val 0)⟩
/-- LTU_ST_EXP_LEN[s], 24 bits. -/
def LTU_ST_EXP_LEN_TICKS : Fld := ⟨0x601014, 0x80, 0x0, 0, 24, .rw, (.val 0x320)⟩
/-- LTU_ST_EXP_MIN[s], 24 bits. -/
def LTU_ST_EXP_MIN_TICKS : Fld := ⟨0x601018, 0x80, 0x0, 0, 24, .rw, (.val 0x50)⟩
/-- LTU_ST_GUARD[s], 16 bits. -/
def LTU_ST_GUARD_NS : Fld := ⟨0x60101c, 0x80, 0x0, 0, 16, .rw, (.val 0x4b0)⟩
/-- LTU_ST_READ_DELAY[s], 24 bits. -/
def LTU_ST_READ_DELAY_TICKS : Fld := ⟨0x601020, 0x80, 0x0, 0, 24, .rw, (.val 0)⟩
/-- LTU_ST_WPI_START_LO[s], 48 bits. -/
def LTU_ST_WPI_START_W0 : Fld := ⟨0x601024, 0x80, 0x0, 0, 48, .rw, (.val 0)⟩
/-- LTU_ST_START[s], 2 bits. -/
def LTU_ST_START_MODE : Fld := ⟨0x601034, 0x80, 0x0, 0, 2, .rw, (.val 0)⟩
/-- LTU_ST_STARTPOS_LO[s], 48 bits. -/
def LTU_ST_STARTPOS_COUNT : Fld := ⟨0x601038, 0x80, 0x0, 0, 48, .rw, (.val 0)⟩
/-- LTU_ST_STARTPOS_HI[s], 16 bits. -/
def LTU_ST_STARTPOS_PHASE : Fld := ⟨0x60103c, 0x80, 0x0, 16, 16, .rw, (.val 0)⟩
/-- LTU_ST_WPI_LO[s], 48 bits. -/
def LTU_ST_WPI : Fld := ⟨0x60102c, 0x80, 0x0, 0, 48, .ro, (.val 0)⟩
/-- LTU_ST_HOSTTRIG[s], 16 bits. -/
def LTU_ST_HOSTTRIG_COUNT : Fld := ⟨0x601040, 0x80, 0x0, 0, 16, .wo, (.val 0)⟩
/-- LTU_ST_HOSTTRIG[s], 16 bits. -/
def LTU_ST_HOSTTRIG_PENDING : Fld := ⟨0x601040, 0x80, 0x0, 16, 16, .ro, (.val 0)⟩
/-- LTU_ST_MATCH_LO[s], 48 bits. -/
def LTU_ST_MATCH_M : Fld := ⟨0x601044, 0x80, 0x0, 0, 48, .rw, (.val 0)⟩
/-- LTU_ST_MATCH_CFG[s], 24 bits. -/
def LTU_ST_MATCH_CFG_VREF : Fld := ⟨0x60104c, 0x80, 0x0, 0, 24, .rw, (.val 0)⟩
/-- LTU_ST_MATCH_CFG[s], 5 bits. -/
def LTU_ST_MATCH_CFG_TOL : Fld := ⟨0x60104c, 0x80, 0x0, 24, 5, .rw, (.val 5)⟩
/-- LTU_ST_MATCH_CFG[s], 1 bit. -/
def LTU_ST_MATCH_CFG_ARM : Fld := ⟨0x60104c, 0x80, 0x0, 31, 1, .wo, (.val 0)⟩
/-- LTU_ST_STATUS[s], 1 bit. -/
def LTU_ST_STATUS_TRIGGERING : Fld := ⟨0x601050, 0x80, 0x0, 0, 1, .ro, (.val 0)⟩
/-- LTU_ST_STATUS[s], 1 bit. -/
def LTU_ST_STATUS_MATCH_ARMED : Fld := ⟨0x601050, 0x80, 0x0, 1, 1, .ro, (.val 0)⟩
/-- LTU_ST_STATUS[s], 1 bit. -/
def LTU_ST_STATUS_VEL_ERR : Fld := ⟨0x601050, 0x80, 0x0, 2, 1, .w1c, (.val 0)⟩
/-- LTU_ST_STATUS[s], 8 bits. -/
def LTU_ST_STATUS_LAST_STATUS : Fld := ⟨0x601050, 0x80, 0x0, 8, 8, .ro, (.val 0)⟩
/-- LTU_ST_STATUS[s], 16 bits. -/
def LTU_ST_STATUS_LEAD : Fld := ⟨0x601050, 0x80, 0x0, 16, 16, .ro, (.val 0)⟩
/-- LTU_ST_SKIP[s], 32 bits. -/
def LTU_ST_SKIP_COUNT : Fld := ⟨0x601054, 0x80, 0x0, 0, 32, .ro, (.val 0)⟩
/-- LTU_ST_CLIP[s], 32 bits. -/
def LTU_ST_CLIP_COUNT : Fld := ⟨0x601058, 0x80, 0x0, 0, 32, .ro, (.val 0)⟩
/-- LTU_ST_BASE_LO[s], 48 bits. -/
def LTU_ST_BASE_COUNT : Fld := ⟨0x60105c, 0x80, 0x0, 0, 48, .ro, (.val 0)⟩
/-- LTU_ST_BASE_HI[s], 16 bits. -/
def LTU_ST_BASE_PHASE : Fld := ⟨0x601060, 0x80, 0x0, 16, 16, .ro, (.val 0)⟩

/-! ### Fields of spec/05_shading.md -/

/-- PCP_SHD_STATUS, 8 bits. -/
def PCP_SHD_STATUS_LAST_STATUS : Fld := ⟨0x800000, 0x0, 0x0, 0, 8, .ro, (.val 0)⟩
/-- PCP_SHD_REFUSED, 32 bits. -/
def PCP_SHD_REFUSED_COUNT : Fld := ⟨0x800004, 0x0, 0x0, 0, 32, .ro, (.val 0)⟩
/-- PCP_SHD_REPLACED, 32 bits. -/
def PCP_SHD_REPLACED_COUNT : Fld := ⟨0x800008, 0x0, 0x0, 0, 32, .ro, (.val 0)⟩
/-- PCP_CAP_CTRL, 1 bit. -/
def PCP_CAP_CTRL_KIND : Fld := ⟨0x800010, 0x0, 0x0, 0, 1, .rw, (.val 0)⟩
/-- PCP_CAP_CTRL, 4 bits. -/
def PCP_CAP_CTRL_N : Fld := ⟨0x800010, 0x0, 0x0, 4, 4, .rw, (.val 6)⟩
/-- PCP_CAP_CTRL, 1 bit. -/
def PCP_CAP_CTRL_REJ : Fld := ⟨0x800010, 0x0, 0x0, 8, 1, .rw, (.val 1)⟩
/-- PCP_CAP_CTRL, 1 bit. -/
def PCP_CAP_CTRL_AUTO_DEFECT : Fld := ⟨0x800010, 0x0, 0x0, 9, 1, .rw, (.val 0)⟩
/-- PCP_CAP_CTRL, 1 bit. -/
def PCP_CAP_CTRL_GO : Fld := ⟨0x800010, 0x0, 0x0, 31, 1, .wo, (.val 0)⟩
/-- PCP_CAP_TARGET, 7 bits. -/
def PCP_CAP_TARGET_HEAD : Fld := ⟨0x800014, 0x0, 0x0, 0, 7, .rw, (.val 0)⟩
/-- PCP_CAP_TARGET, 9 bits. -/
def PCP_CAP_TARGET_LEAF : Fld := ⟨0x800014, 0x0, 0x0, 16, 9, .rw, (.val 0)⟩
/-- PCP_CAP_LEVEL, 16 bits. -/
def PCP_CAP_LEVEL_TARGET_W : Fld := ⟨0x800018, 0x0, 0x0, 0, 16, .rw, (.val 0xdac0)⟩
/-- PCP_CAP_LEVEL, 16 bits. -/
def PCP_CAP_LEVEL_HOT : Fld := ⟨0x800018, 0x0, 0x0, 16, 16, .rw, (.val 0x1000)⟩
/-- PCP_CAP_STATUS, 2 bits. -/
def PCP_CAP_STATUS_STATE : Fld := ⟨0x80001c, 0x0, 0x0, 0, 2, .ro, (.val 0)⟩
/-- PCP_CAP_STATUS, 1 bit. -/
def PCP_CAP_STATUS_DEF_OVF : Fld := ⟨0x80001c, 0x0, 0x0, 2, 1, .w1c, (.val 0)⟩
/-- PCP_CAP_STATUS, 8 bits. -/
def PCP_CAP_STATUS_LAST_STATUS : Fld := ⟨0x80001c, 0x0, 0x0, 8, 8, .ro, (.val 0)⟩
/-- PCP_CAP_STATUS, 13 bits. -/
def PCP_CAP_STATUS_NEWDEF : Fld := ⟨0x80001c, 0x0, 0x0, 16, 13, .ro, (.val 0)⟩
/-- PCP_CAP_WPI_LO, 48 bits. -/
def PCP_CAP_WPI : Fld := ⟨0x800020, 0x0, 0x0, 0, 48, .ro, (.val 0)⟩
/-- PCP_SHD_HEAD_CTRL[h], 1 bit. -/
def PCP_SHD_HEAD_CTRL_EN : Fld := ⟨0x801000, 0x40, 0x0, 0, 1, .rw, (.val 0)⟩
/-- PCP_SHD_HEAD_CTRL[h], 16 bits. -/
def PCP_SHD_HEAD_CTRL_PED : Fld := ⟨0x801000, 0x40, 0x0, 16, 16, .rw, (.val 0x400)⟩
/-- PCP_SHD_HEAD_LEAF[h], 9 bits. -/
def PCP_SHD_HEAD_LEAF_ACTIVE : Fld := ⟨0x801004, 0x40, 0x0, 0, 9, .ro, (.val 0x1ff)⟩
/-- PCP_SHD_HEAD_LEAF[h], 9 bits. -/
def PCP_SHD_HEAD_LEAF_FROM : Fld := ⟨0x801004, 0x40, 0x0, 9, 9, .ro, (.val 0x1ff)⟩
/-- PCP_SHD_HEAD_LEAF[h], 9 bits. -/
def PCP_SHD_HEAD_LEAF_PENDING : Fld := ⟨0x801004, 0x40, 0x0, 18, 9, .ro, (.val 0x1ff)⟩
/-- PCP_SHD_HEAD_LEAF[h], 1 bit. -/
def PCP_SHD_HEAD_LEAF_FADING : Fld := ⟨0x801004, 0x40, 0x0, 27, 1, .ro, (.val 0)⟩
/-- PCP_SHD_HEAD_LEAF[h], 1 bit. -/
def PCP_SHD_HEAD_LEAF_REPLACED : Fld := ⟨0x801004, 0x40, 0x0, 28, 1, .w1c, (.val 0)⟩
/-- PCP_SHD_SWAP[h], 9 bits. -/
def PCP_SHD_SWAP_LEAF : Fld := ⟨0x801008, 0x40, 0x0, 0, 9, .rw, (.val 0)⟩
/-- PCP_SHD_SWAP[h], 4 bits. -/
def PCP_SHD_SWAP_FADE : Fld := ⟨0x801008, 0x40, 0x0, 9, 4, .rw, (.val 6)⟩
/-- PCP_SHD_SWAP[h], 1 bit. -/
def PCP_SHD_SWAP_GO : Fld := ⟨0x801008, 0x40, 0x0, 31, 1, .wo, (.val 0)⟩
/-- PCP_SHD_SWAP_H_LO[h], 48 bits. -/
def PCP_SHD_SWAP_H : Fld := ⟨0x80100c, 0x40, 0x0, 0, 48, .rw, (.val 0)⟩
/-- PCP_SHD_TRK_DARK[h], 18 bits. -/
def PCP_SHD_TRK_DARK_FIRST : Fld := ⟨0x801014, 0x40, 0x0, 0, 18, .rw, (.val 0)⟩
/-- PCP_SHD_TRK_DARK[h], 6 bits. -/
def PCP_SHD_TRK_DARK_COUNT : Fld := ⟨0x801014, 0x40, 0x0, 24, 6, .rw, (.val 0)⟩
/-- PCP_SHD_TRK_WHITE[h], 18 bits. -/
def PCP_SHD_TRK_WHITE_FIRST : Fld := ⟨0x801018, 0x40, 0x0, 0, 18, .rw, (.val 0)⟩
/-- PCP_SHD_TRK_WHITE[h], 7 bits. -/
def PCP_SHD_TRK_WHITE_COUNT : Fld := ⟨0x801018, 0x40, 0x0, 24, 7, .rw, (.val 0)⟩
/-- PCP_SHD_TRK_CTRL[h], 1 bit. -/
def PCP_SHD_TRK_CTRL_EN : Fld := ⟨0x80101c, 0x40, 0x0, 0, 1, .rw, (.val 0)⟩
/-- PCP_SHD_TRK_CTRL[h], 4 bits. -/
def PCP_SHD_TRK_CTRL_A : Fld := ⟨0x80101c, 0x40, 0x0, 1, 4, .rw, (.val 8)⟩
/-- PCP_SHD_TRK_CTRL[h], 7 bits. -/
def PCP_SHD_TRK_CTRL_SRC : Fld := ⟨0x80101c, 0x40, 0x0, 8, 7, .rw, .ownIndex⟩
/-- PCP_SHD_TRK_CTRL[h], 5 bits. -/
def PCP_SHD_TRK_CTRL_LIM : Fld := ⟨0x80101c, 0x40, 0x0, 16, 5, .rw, (.val 0xa)⟩
/-- PCP_SHD_TRK_CTRL[h], 1 bit. -/
def PCP_SHD_TRK_CTRL_ALARM : Fld := ⟨0x80101c, 0x40, 0x0, 24, 1, .w1c, (.val 0)⟩
/-- PCP_SHD_DRIFT[h][p], 16 bits. -/
def PCP_SHD_DRIFT_GAIN : Fld := ⟨0x801020, 0x40, 0x4, 0, 16, .ro, (.val 0x4000)⟩
/-- PCP_SHD_DRIFT[h][p], 16 bits. -/
def PCP_SHD_DRIFT_DELTA : Fld := ⟨0x801020, 0x40, 0x4, 16, 16, .ro, (.val 0)⟩
/-- PCP_LEAF_BASE[l], 12 bits. -/
def PCP_LEAF_BASE_PAGE : Fld := ⟨0x803000, 0x10, 0x0, 0, 12, .rw, (.val 0)⟩
/-- PCP_LEAF_BASE[l], 13 bits. -/
def PCP_LEAF_BASE_PAGES : Fld := ⟨0x803000, 0x10, 0x0, 16, 13, .rw, (.val 0)⟩
/-- PCP_LEAF_GEOM[l], 19 bits. -/
def PCP_LEAF_GEOM_COLUMNS : Fld := ⟨0x803004, 0x10, 0x0, 0, 19, .rw, (.val 0)⟩
/-- PCP_LEAF_GEOM[l], 4 bits. -/
def PCP_LEAF_GEOM_PLANES : Fld := ⟨0x803004, 0x10, 0x0, 20, 4, .rw, (.val 0)⟩
/-- PCP_LEAF_DEFECTS[l], 13 bits. -/
def PCP_LEAF_DEFECTS_COUNT : Fld := ⟨0x803008, 0x10, 0x0, 0, 13, .rw, (.val 0)⟩
/-- PCP_LEAF_STATUS[l], 1 bit. -/
def PCP_LEAF_STATUS_ACTIVE : Fld := ⟨0x80300c, 0x10, 0x0, 0, 1, .ro, (.val 0)⟩
/-- PCP_LEAF_STATUS[l], 1 bit. -/
def PCP_LEAF_STATUS_FADING : Fld := ⟨0x80300c, 0x10, 0x0, 1, 1, .ro, (.val 0)⟩
/-- PCP_LEAF_STATUS[l], 1 bit. -/
def PCP_LEAF_STATUS_PENDING : Fld := ⟨0x80300c, 0x10, 0x0, 2, 1, .ro, (.val 0)⟩
/-- PCP_LEAF_STATUS[l], 1 bit. -/
def PCP_LEAF_STATUS_CAPTURING : Fld := ⟨0x80300c, 0x10, 0x0, 3, 1, .ro, (.val 0)⟩

/-! ### Fields of spec/06_alignment_stitching.md -/

/-- PCP_ALN_STATUS, 8 bits. -/
def PCP_ALN_STATUS_LAST_STATUS : Fld := ⟨0x804000, 0x0, 0x0, 0, 8, .ro, (.val 0)⟩
/-- PCP_ALN_STORE, 19 bits. -/
def PCP_ALN_STORE_USED : Fld := ⟨0x804004, 0x0, 0x0, 0, 19, .ro, (.val 0)⟩
/-- PCP_ALN_MEAS_CTRL, 7 bits. -/
def PCP_ALN_MEAS_CTRL_HEAD : Fld := ⟨0x804010, 0x0, 0x0, 0, 7, .rw, (.val 0)⟩
/-- PCP_ALN_MEAS_CTRL, 4 bits. -/
def PCP_ALN_MEAS_CTRL_N : Fld := ⟨0x804010, 0x0, 0x0, 8, 4, .rw, (.val 8)⟩
/-- PCP_ALN_MEAS_CTRL, 1 bit. -/
def PCP_ALN_MEAS_CTRL_POL : Fld := ⟨0x804010, 0x0, 0x0, 12, 1, .rw, (.val 0)⟩
/-- PCP_ALN_MEAS_CTRL, 1 bit. -/
def PCP_ALN_MEAS_CTRL_BUSY : Fld := ⟨0x804010, 0x0, 0x0, 13, 1, .ro, (.val 0)⟩
/-- PCP_ALN_MEAS_CTRL, 1 bit. -/
def PCP_ALN_MEAS_CTRL_GO : Fld := ⟨0x804010, 0x0, 0x0, 14, 1, .wo, (.val 0)⟩
/-- PCP_ALN_MEAS_CTRL, 16 bits. -/
def PCP_ALN_MEAS_CTRL_T : Fld := ⟨0x804010, 0x0, 0x0, 16, 16, .rw, (.val 0x8000)⟩
/-- PCP_ALN_MEAS_WIN, 18 bits. -/
def PCP_ALN_MEAS_WIN_FIRST : Fld := ⟨0x804014, 0x0, 0x0, 0, 18, .rw, (.val 0)⟩
/-- PCP_ALN_MEAS_WIN, 14 bits. -/
def PCP_ALN_MEAS_WIN_COUNT : Fld := ⟨0x804014, 0x0, 0x0, 18, 14, .rw, (.val 0)⟩
/-- PCP_ALN_MEAS_RES[p], 4 bits. -/
def PCP_ALN_MEAS_RES_SIXTEENTHS : Fld := ⟨0x804020, 0x4, 0x0, 0, 4, .ro, (.val 0)⟩
/-- PCP_ALN_MEAS_RES[p], 24 bits. -/
def PCP_ALN_MEAS_RES_LINE : Fld := ⟨0x804020, 0x4, 0x0, 4, 24, .ro, (.val 0)⟩
/-- PCP_ALN_MEAS_RES[p], 1 bit. -/
def PCP_ALN_MEAS_RES_FOUND : Fld := ⟨0x804020, 0x4, 0x0, 31, 1, .ro, (.val 0)⟩
/-- PCP_DVT_MEAS_CTRL, 3 bits. -/
def PCP_DVT_MEAS_CTRL_STATION : Fld := ⟨0x804040, 0x0, 0x0, 0, 3, .rw, (.val 0)⟩
/-- PCP_DVT_MEAS_CTRL, 7 bits. -/
def PCP_DVT_MEAS_CTRL_POS : Fld := ⟨0x804040, 0x0, 0x0, 3, 7, .rw, (.val 0)⟩
/-- PCP_DVT_MEAS_CTRL, 4 bits. -/
def PCP_DVT_MEAS_CTRL_N : Fld := ⟨0x804040, 0x0, 0x0, 12, 4, .rw, (.val 6)⟩
/-- PCP_DVT_MEAS_CTRL, 1 bit. -/
def PCP_DVT_MEAS_CTRL_BUSY : Fld := ⟨0x804040, 0x0, 0x0, 16, 1, .ro, (.val 0)⟩
/-- PCP_DVT_MEAS_CTRL, 1 bit. -/
def PCP_DVT_MEAS_CTRL_GO : Fld := ⟨0x804040, 0x0, 0x0, 31, 1, .wo, (.val 0)⟩
/-- PCP_DVT_MEAS_RES, 8 bits. -/
def PCP_DVT_MEAS_RES_BEST : Fld := ⟨0x804044, 0x0, 0x0, 0, 8, .ro, (.val 0)⟩
/-- PCP_DVT_MEAS_RES, 24 bits. -/
def PCP_DVT_MEAS_RES_SAD : Fld := ⟨0x804044, 0x0, 0x0, 8, 24, .ro, (.val 0)⟩
/-- PCP_DVT_LATE, 32 bits. -/
def PCP_DVT_LATE_COUNT : Fld := ⟨0x804048, 0x0, 0x0, 0, 32, .ro, (.val 0)⟩
/-- PCP_DEC_REFUSED, 32 bits. -/
def PCP_DEC_REFUSED_COUNT : Fld := ⟨0x804050, 0x0, 0x0, 0, 32, .ro, (.val 0)⟩
/-- PCP_DEC_REPLACED, 32 bits. -/
def PCP_DEC_REPLACED_COUNT : Fld := ⟨0x804054, 0x0, 0x0, 0, 32, .ro, (.val 0)⟩
/-- PCP_ALN_DELAY[h][p], 4 bits. -/
def PCP_ALN_DELAY_SIXTEENTHS : Fld := ⟨0x805000, 0x40, 0x4, 0, 4, .rw, (.val 0)⟩
/-- PCP_ALN_DELAY[h][p], 6 bits. -/
def PCP_ALN_DELAY_LINES : Fld := ⟨0x805000, 0x40, 0x4, 8, 6, .rw, (.val 0)⟩
/-- PCP_STC_RANGE[h], 18 bits. -/
def PCP_STC_RANGE_FIRST : Fld := ⟨0x805020, 0x40, 0x0, 0, 18, .rw, (.val 0)⟩
/-- PCP_STC_RANGE[h], 7 bits. -/
def PCP_STC_RANGE_POS : Fld := ⟨0x805020, 0x40, 0x0, 18, 7, .rw, (.val 0)⟩
/-- PCP_STC_XOFF[h], 8 bits. -/
def PCP_STC_XOFF_X : Fld := ⟨0x805024, 0x40, 0x0, 0, 8, .rw, (.val 0)⟩
/-- PCP_STC_XOFF[h], 19 bits. -/
def PCP_STC_XOFF_WIDTH : Fld := ⟨0x805024, 0x40, 0x0, 8, 19, .rw, (.val 0)⟩
/-- PCP_STC_ST_CTRL[s], 9 bits. -/
def PCP_STC_ST_CTRL_V : Fld := ⟨0x807000, 0x40, 0x0, 0, 9, .rw, (.val 0x40)⟩
/-- PCP_STC_ST_CTRL[s], 2 bits. -/
def PCP_STC_ST_CTRL_BLEND : Fld := ⟨0x807000, 0x40, 0x0, 9, 2, .rw, (.val 0)⟩
/-- PCP_STC_ST_CTRL[s], 1 bit. -/
def PCP_STC_ST_CTRL_SEND_LEFT : Fld := ⟨0x807000, 0x40, 0x0, 11, 1, .rw, (.val 0)⟩
/-- PCP_STC_ST_CTRL[s], 1 bit. -/
def PCP_STC_ST_CTRL_RECV_RIGHT : Fld := ⟨0x807000, 0x40, 0x0, 12, 1, .rw, (.val 0)⟩
/-- PCP_STC_ST_CTRL[s], 8 bits. -/
def PCP_STC_ST_CTRL_DVT_TIMEOUT : Fld := ⟨0x807000, 0x40, 0x0, 16, 8, .rw, (.val 0x40)⟩
/-- PCP_STC_ST_ORIGIN[s], 21 bits. -/
def PCP_STC_ST_ORIGIN_COLUMN : Fld := ⟨0x807004, 0x40, 0x0, 0, 21, .rw, (.val 0)⟩
/-- PCP_STC_ST_WIDTH[s], 21 bits. -/
def PCP_STC_ST_WIDTH_W : Fld := ⟨0x807008, 0x40, 0x0, 0, 21, .ro, (.val 0)⟩
/-- PCP_ALN_ST_SPAN[s], 7 bits. -/
def PCP_ALN_ST_SPAN_SPAN : Fld := ⟨0x80700c, 0x40, 0x0, 0, 7, .ro, (.val 0)⟩
/-- PCP_DEC_CTRL[q], 1 bit. -/
def PCP_DEC_CTRL_EN : Fld := ⟨0x808000, 0x20, 0x0, 0, 1, .rw, (.val 0)⟩
/-- PCP_DEC_CTRL[q], 3 bits. -/
def PCP_DEC_CTRL_STATION : Fld := ⟨0x808000, 0x20, 0x0, 1, 3, .rw, (.val 0)⟩
/-- PCP_DEC_CTRL[q], 1 bit. -/
def PCP_DEC_CTRL_DEPTH8 : Fld := ⟨0x808000, 0x20, 0x0, 4, 1, .rw, (.val 0)⟩
/-- PCP_DEC_CTRL[q], 8 bits. -/
def PCP_DEC_CTRL_PLANES : Fld := ⟨0x808000, 0x20, 0x0, 8, 8, .rw, (.val 1)⟩
/-- PCP_DEC_CTRL[q], 5 bits. -/
def PCP_DEC_CTRL_DX : Fld := ⟨0x808000, 0x20, 0x0, 16, 5, .rw, (.val 1)⟩
/-- PCP_DEC_CTRL[q], 3 bits. -/
def PCP_DEC_CTRL_DY_LOG : Fld := ⟨0x808000, 0x20, 0x0, 21, 3, .rw, (.val 0)⟩
/-- PCP_DEC_WIN[q], 21 bits. -/
def PCP_DEC_WIN_FIRST : Fld := ⟨0x808004, 0x20, 0x0, 0, 21, .rw, (.val 0)⟩
/-- PCP_DEC_LEN[q], 21 bits. -/
def PCP_DEC_LEN_LEN : Fld := ⟨0x808008, 0x20, 0x0, 0, 21, .rw, (.val 0)⟩
/-- PCP_DEC_LEAF[q], 9 bits. -/
def PCP_DEC_LEAF_LEAF_X : Fld := ⟨0x80800c, 0x20, 0x0, 0, 9, .rw, (.val 0)⟩
/-- PCP_DEC_LEAF[q], 9 bits. -/
def PCP_DEC_LEAF_LEAF_Y : Fld := ⟨0x80800c, 0x20, 0x0, 16, 9, .rw, (.val 0)⟩
/-- PCP_DEC_SWAP[q], 9 bits. -/
def PCP_DEC_SWAP_LEAF_X : Fld := ⟨0x808010, 0x20, 0x0, 0, 9, .rw, (.val 0)⟩
/-- PCP_DEC_SWAP[q], 9 bits. -/
def PCP_DEC_SWAP_LEAF_Y : Fld := ⟨0x808010, 0x20, 0x0, 16, 9, .rw, (.val 0)⟩
/-- PCP_DEC_SWAP[q], 1 bit. -/
def PCP_DEC_SWAP_PENDING : Fld := ⟨0x808010, 0x20, 0x0, 30, 1, .ro, (.val 0)⟩
/-- PCP_DEC_SWAP[q], 1 bit. -/
def PCP_DEC_SWAP_GO : Fld := ⟨0x808010, 0x20, 0x0, 31, 1, .wo, (.val 0)⟩
/-- PCP_DEC_SWAP_H_LO[q], 48 bits. -/
def PCP_DEC_SWAP_H : Fld := ⟨0x808014, 0x20, 0x0, 0, 48, .rw, (.val 0)⟩
/-- PCP_DEC_QUEUE[q], 18 bits. -/
def PCP_DEC_QUEUE_QUEUE : Fld := ⟨0x80801c, 0x20, 0x0, 0, 18, .rw, (.val 0)⟩

/-! ### Fields of spec/07_scan_store_restart.md -/

/-- SST_CFG, 6 bits. -/
def SST_CFG_STORE : Fld := ⟨0xa00000, 0x0, 0x0, 0, 6, .rw, (.val 0x18)⟩
/-- SST_STATUS, 8 bits. -/
def SST_STATUS_LAST_STATUS : Fld := ⟨0xa00004, 0x0, 0x0, 0, 8, .ro, (.val 0)⟩
/-- SST_AUD_FREE, 21 bits. -/
def SST_AUD_FREE_FREE : Fld := ⟨0xa00010, 0x0, 0x0, 0, 21, .ro, (.val 0xc0000)⟩
/-- SST_AUD_HELD, 21 bits. -/
def SST_AUD_HELD_HELD : Fld := ⟨0xa00014, 0x0, 0x0, 0, 21, .ro, (.val 0)⟩
/-- SST_AUD_TOTAL, 21 bits. -/
def SST_AUD_TOTAL_TOTAL : Fld := ⟨0xa00018, 0x0, 0x0, 0, 21, .ro, (.val 0xc0000)⟩
/-- SST_AUD_STATUS, 1 bit. -/
def SST_AUD_STATUS_WINDOW : Fld := ⟨0xa0001c, 0x0, 0x0, 0, 1, .ro, (.val 0)⟩
/-- SST_AUD_STATUS, 1 bit. -/
def SST_AUD_STATUS_FAIL : Fld := ⟨0xa0001c, 0x0, 0x0, 1, 1, .w1c, (.val 0)⟩
/-- SST_AUD_STATUS, 16 bits. -/
def SST_AUD_STATUS_DIFF : Fld := ⟨0xa0001c, 0x0, 0x0, 16, 16, .ro, (.val 0)⟩
/-- SST_ECC, 16 bits. -/
def SST_ECC_CORR : Fld := ⟨0xa00020, 0x0, 0x0, 0, 16, .ro, (.val 0)⟩
/-- SST_ECC, 16 bits. -/
def SST_ECC_UNCORR : Fld := ⟨0xa00020, 0x0, 0x0, 16, 16, .ro, (.val 0)⟩
/-- SST_ST_REGION_BASE[s], 20 bits. -/
def SST_ST_REGION_BASE_PAGE : Fld := ⟨0xa01000, 0x100, 0x0, 0, 20, .rw, (.val 0)⟩
/-- SST_ST_REGION_SIZE[s], 16 bits. -/
def SST_ST_REGION_SIZE_SHELVES : Fld := ⟨0xa01004, 0x100, 0x0, 0, 16, .rw, (.val 0)⟩
/-- SST_ST_PACE[s], 2 bits. -/
def SST_ST_PACE_AXIS : Fld := ⟨0xa01024, 0x100, 0x0, 0, 2, .rw, (.val 0)⟩
/-- SST_ST_PACE[s], 1 bit. -/
def SST_ST_PACE_EN : Fld := ⟨0xa01024, 0x100, 0x0, 4, 1, .rw, (.val 0)⟩
/-- SST_ST_PACE[s], 10 bits. -/
def SST_ST_PACE_SMIN : Fld := ⟨0xa01024, 0x100, 0x0, 16, 10, .rw, (.val 0x40)⟩
/-- SST_ST_THR_LO[s], 32 bits. -/
def SST_ST_THR_LO_LINES : Fld := ⟨0xa01028, 0x100, 0x0, 0, 32, .rw, (.val 0x4000)⟩
/-- SST_ST_THR_STOP[s], 32 bits. -/
def SST_ST_THR_STOP_LINES : Fld := ⟨0xa0102c, 0x100, 0x0, 0, 32, .rw, (.val 0xc000)⟩
/-- SST_ST_THR_RESUME[s], 32 bits. -/
def SST_ST_THR_RESUME_LINES : Fld := ⟨0xa01030, 0x100, 0x0, 0, 32, .rw, (.val 0x2000)⟩
/-- SST_ST_RUNUP[s], 16 bits. -/
def SST_ST_RUNUP_LINES : Fld := ⟨0xa01038, 0x100, 0x0, 0, 16, .rw, (.val 0x400)⟩
/-- SST_ST_SEAM[s], 16 bits. -/
def SST_ST_SEAM_THR : Fld := ⟨0xa01054, 0x100, 0x0, 0, 16, .rw, (.val 0x799a)⟩
/-- SST_ST_SEAM[s], 3 bits. -/
def SST_ST_SEAM_PLANE : Fld := ⟨0xa01054, 0x100, 0x0, 16, 3, .rw, (.val 0)⟩
/-- SST_ST_SHED[s], 8 bits. -/
def SST_ST_SHED_LAG : Fld := ⟨0xa0105c, 0x100, 0x0, 0, 8, .rw, (.val 8)⟩
/-- SST_ST_GEOM[s], 16 bits. -/
def SST_ST_GEOM_SLOT : Fld := ⟨0xa01008, 0x100, 0x0, 0, 16, .ro, (.val 0)⟩
/-- SST_ST_CAP[s], 32 bits. -/
def SST_ST_CAP_K : Fld := ⟨0xa0100c, 0x100, 0x0, 0, 32, .ro, (.val 0)⟩
/-- SST_ST_WP_LO[s], 48 bits. -/
def SST_ST_WP : Fld := ⟨0xa01010, 0x100, 0x0, 0, 48, .ro, (.val 0)⟩
/-- SST_ST_U_LO[s], 48 bits. -/
def SST_ST_U : Fld := ⟨0xa01018, 0x100, 0x0, 0, 48, .ro, (.val 0)⟩
/-- SST_ST_BACKLOG[s], 32 bits. -/
def SST_ST_BACKLOG_B : Fld := ⟨0xa01020, 0x100, 0x0, 0, 32, .ro, (.val 0)⟩
/-- SST_ST_SCALE[s], 11 bits. -/
def SST_ST_SCALE_SCALE : Fld := ⟨0xa01034, 0x100, 0x0, 0, 11, .ro, (.val 0x400)⟩
/-- SST_ST_SCALE[s], 5 bits. -/
def SST_ST_SCALE_CAP : Fld := ⟨0xa01034, 0x100, 0x0, 16, 5, .ro, (.val 0x10)⟩
/-- SST_ST_REW_STATUS[s], 4 bits. -/
def SST_ST_REW_STATUS_PHASE : Fld := ⟨0xa0103c, 0x100, 0x0, 0, 4, .ro, (.val 0)⟩
/-- SST_ST_REW_STATUS[s], 8 bits. -/
def SST_ST_REW_STATUS_LAST_STATUS : Fld := ⟨0xa0103c, 0x100, 0x0, 8, 8, .ro, (.val 0)⟩
/-- SST_ST_REW_STATUS[s], 1 bit. -/
def SST_ST_REW_STATUS_FAIL : Fld := ⟨0xa0103c, 0x100, 0x0, 16, 1, .w1c, (.val 0)⟩
/-- SST_ST_REW_R_LO[s], 48 bits. -/
def SST_ST_REW_R : Fld := ⟨0xa01040, 0x100, 0x0, 0, 48, .ro, (.val 0)⟩
/-- SST_ST_REW_M_LO[s], 48 bits. -/
def SST_ST_REW_M : Fld := ⟨0xa01048, 0x100, 0x0, 0, 48, .ro, (.val 0)⟩
/-- SST_ST_RESTARTS[s], 32 bits. -/
def SST_ST_RESTARTS_COUNT : Fld := ⟨0xa01050, 0x100, 0x0, 0, 32, .ro, (.val 0)⟩
/-- SST_ST_SEAM_RES[s], 16 bits. -/
def SST_ST_SEAM_RES_RHO : Fld := ⟨0xa01058, 0x100, 0x0, 0, 16, .ro, (.val 0)⟩
/-- SST_ST_SEAM_RES[s], 2 bits. -/
def SST_ST_SEAM_RES_RESULT : Fld := ⟨0xa01058, 0x100, 0x0, 16, 2, .ro, (.val 0)⟩
/-- SST_ST_SEAM_RES[s], 5 bits. -/
def SST_ST_SEAM_RES_LINES : Fld := ⟨0xa01058, 0x100, 0x0, 18, 5, .ro, (.val 0)⟩
/-- SST_ST_HOST_RP_LO[s], 48 bits. -/
def SST_ST_HOST_RP : Fld := ⟨0xa01060, 0x100, 0x0, 0, 48, .rw, (.val 0)⟩
/-- SST_ST_HOST_CTRL[s], 1 bit. -/
def SST_ST_HOST_CTRL_EN : Fld := ⟨0xa01068, 0x100, 0x0, 0, 1, .rw, (.val 0)⟩
/-- SST_ST_HOST_CTRL[s], 2 bits. -/
def SST_ST_HOST_CTRL_MARK : Fld := ⟨0xa01068, 0x100, 0x0, 1, 2, .rw, (.val 0)⟩
/-- SST_ST_HOST_CTRL[s], 1 bit. -/
def SST_ST_HOST_CTRL_REWIND : Fld := ⟨0xa01068, 0x100, 0x0, 3, 1, .wo, (.val 0)⟩
/-- SST_ST_HOST_CTRL[s], 8 bits. -/
def SST_ST_HOST_CTRL_LAST_STATUS : Fld := ⟨0xa01068, 0x100, 0x0, 8, 8, .ro, (.val 0)⟩
/-- SST_ST_MARK_LO[s][m], 48 bits. -/
def SST_ST_MARK_LINE : Fld := ⟨0xa01070, 0x100, 0x8, 0, 48, .rw, (.val 0)⟩
/-- SST_ST_MARK_HI[s][m], 1 bit. -/
def SST_ST_MARK_SET : Fld := ⟨0xa01074, 0x100, 0x8, 29, 1, .wo, (.val 0)⟩
/-- SST_ST_MARK_HI[s][m], 1 bit. -/
def SST_ST_MARK_CLEAR : Fld := ⟨0xa01074, 0x100, 0x8, 30, 1, .wo, (.val 0)⟩
/-- SST_ST_MARK_HI[s][m], 1 bit. -/
def SST_ST_MARK_VALID : Fld := ⟨0xa01074, 0x100, 0x8, 31, 1, .ro, (.val 0)⟩
/-- SST_ST_GAPS[s], 32 bits. -/
def SST_ST_GAPS_COUNT : Fld := ⟨0xa01090, 0x100, 0x0, 0, 32, .ro, (.val 0)⟩
/-- SST_ST_OVERRUN[s], 32 bits. -/
def SST_ST_OVERRUN_COUNT : Fld := ⟨0xa01094, 0x100, 0x0, 0, 32, .ro, (.val 0)⟩

/-! ### Fields of spec/08_queues.md -/

/-- QMX_Q_CFG[q], 1 bit. -/
def QMX_Q_CFG_EN : Fld := ⟨0xc00000, 0x20, 0x0, 0, 1, .rw, (.val 0)⟩
/-- QMX_Q_CFG[q], 2 bits. -/
def QMX_Q_CFG_CLASS : Fld := ⟨0xc00000, 0x20, 0x0, 1, 2, .rw, (.val 0)⟩
/-- QMX_Q_CFG[q], 8 bits. -/
def QMX_Q_CFG_MAX : Fld := ⟨0xc00000, 0x20, 0x0, 3, 8, .rw, (.val 8)⟩
/-- QMX_Q_CFG[q], 1 bit. -/
def QMX_Q_CFG_CLOSE_END : Fld := ⟨0xc00000, 0x20, 0x0, 11, 1, .rw, (.val 1)⟩
/-- QMX_Q_CFG[q], 4 bits. -/
def QMX_Q_CFG_IDLE : Fld := ⟨0xc00000, 0x20, 0x0, 12, 4, .rw, (.val 4)⟩
/-- QMX_Q_CFG[q], 4 bits. -/
def QMX_Q_CFG_STALL : Fld := ⟨0xc00000, 0x20, 0x0, 16, 4, .rw, (.val 0xa)⟩
/-- QMX_Q_CFG[q], 4 bits. -/
def QMX_Q_CFG_STATION : Fld := ⟨0xc00000, 0x20, 0x0, 20, 4, .rw, (.val 0xf)⟩
/-- QMX_Q_RES[q], 9 bits. -/
def QMX_Q_RES_RES : Fld := ⟨0xc00004, 0x20, 0x0, 0, 9, .rw, (.val 0)⟩
/-- QMX_Q_RES[q], 9 bits. -/
def QMX_Q_RES_ALLOC : Fld := ⟨0xc00004, 0x20, 0x0, 16, 9, .ro, (.val 0)⟩
/-- QMX_Q_STATUS[q], 2 bits. -/
def QMX_Q_STATUS_STATE : Fld := ⟨0xc00008, 0x20, 0x0, 0, 2, .ro, (.val 0)⟩
/-- QMX_Q_STATUS[q], 1 bit. -/
def QMX_Q_STATUS_WR_RESYNC : Fld := ⟨0xc00008, 0x20, 0x0, 2, 1, .ro, (.val 0)⟩
/-- QMX_Q_STATUS[q], 1 bit. -/
def QMX_Q_STATUS_RD_RESYNC : Fld := ⟨0xc00008, 0x20, 0x0, 3, 1, .ro, (.val 0)⟩
/-- QMX_Q_STATUS[q], 1 bit. -/
def QMX_Q_STATUS_WR_DRAWER : Fld := ⟨0xc00008, 0x20, 0x0, 4, 1, .ro, (.val 0)⟩
/-- QMX_Q_STATUS[q], 1 bit. -/
def QMX_Q_STATUS_FULL : Fld := ⟨0xc00008, 0x20, 0x0, 5, 1, .ro, (.val 0)⟩
/-- QMX_Q_STATUS[q], 1 bit. -/
def QMX_Q_STATUS_ALLOC_WAIT : Fld := ⟨0xc00008, 0x20, 0x0, 6, 1, .ro, (.val 0)⟩
/-- QMX_Q_STATUS[q], 1 bit. -/
def QMX_Q_STATUS_READ_WAIT : Fld := ⟨0xc00008, 0x20, 0x0, 7, 1, .ro, (.val 0)⟩
/-- QMX_Q_STATUS[q], 1 bit. -/
def QMX_Q_STATUS_RD_STALL : Fld := ⟨0xc00008, 0x20, 0x0, 8, 1, .w1c, (.val 0)⟩
/-- QMX_Q_STATUS[q], 1 bit. -/
def QMX_Q_STATUS_WR_STALL : Fld := ⟨0xc00008, 0x20, 0x0, 9, 1, .w1c, (.val 0)⟩
/-- QMX_Q_STATUS[q], 1 bit. -/
def QMX_Q_STATUS_WR_OPEN : Fld := ⟨0xc00008, 0x20, 0x0, 10, 1, .ro, (.val 0)⟩
/-- QMX_Q_STATUS[q], 1 bit. -/
def QMX_Q_STATUS_RD_OPEN : Fld := ⟨0xc00008, 0x20, 0x0, 11, 1, .ro, (.val 0)⟩
/-- QMX_Q_STATUS[q], 1 bit. -/
def QMX_Q_STATUS_OVERFLOW : Fld := ⟨0xc00008, 0x20, 0x0, 12, 1, .w1c, (.val 0)⟩
/-- QMX_Q_STATUS[q], 15 bits. -/
def QMX_Q_STATUS_WORDS : Fld := ⟨0xc00008, 0x20, 0x0, 16, 15, .ro, (.val 0)⟩
/-- QMX_Q_WR_PKTS[q], 32 bits. -/
def QMX_Q_WR_PKTS_COUNT : Fld := ⟨0xc0000c, 0x20, 0x0, 0, 32, .ro, (.val 0)⟩
/-- QMX_Q_RD_PKTS[q], 32 bits. -/
def QMX_Q_RD_PKTS_COUNT : Fld := ⟨0xc00010, 0x20, 0x0, 0, 32, .ro, (.val 0)⟩
/-- QMX_Q_DISC[q], 32 bits. -/
def QMX_Q_DISC_COUNT : Fld := ⟨0xc00014, 0x20, 0x0, 0, 32, .ro, (.val 0)⟩
/-- QMX_Q_ECC[q], 8 bits. -/
def QMX_Q_ECC_CORR : Fld := ⟨0xc00018, 0x20, 0x0, 0, 8, .ro, (.val 0)⟩
/-- QMX_Q_ECC[q], 8 bits. -/
def QMX_Q_ECC_UNCORR : Fld := ⟨0xc00018, 0x20, 0x0, 8, 8, .ro, (.val 0)⟩
/-- QMX_Q_ECC[q], 16 bits. -/
def QMX_Q_ECC_TRUNC : Fld := ⟨0xc00018, 0x20, 0x0, 16, 16, .ro, (.val 0)⟩
/-- QMX_Q_CMD[q], 1 bit. -/
def QMX_Q_CMD_FLUSH : Fld := ⟨0xc0001c, 0x20, 0x0, 0, 1, .wo, (.val 0)⟩
/-- QMX_Q_CMD[q], 8 bits. -/
def QMX_Q_CMD_LAST_STATUS : Fld := ⟨0xc0001c, 0x20, 0x0, 8, 8, .ro, (.val 0)⟩
/-- QMX_Q_CMD[q], 16 bits. -/
def QMX_Q_CMD_DROP_WORDS : Fld := ⟨0xc0001c, 0x20, 0x0, 16, 16, .ro, (.val 0)⟩
/-- QMX_POOL_CFG, 16 bits. -/
def QMX_POOL_CFG_LOW_WM : Fld := ⟨0x208000, 0x0, 0x0, 0, 16, .rws, (.val 0x800)⟩
/-- QMX_POOL_CFG, 16 bits. -/
def QMX_POOL_CFG_RES_LIMIT : Fld := ⟨0x208000, 0x0, 0x0, 16, 16, .rws, (.val 0x4000)⟩
/-- QMX_POOL_FREE, 17 bits. -/
def QMX_POOL_FREE_FREE : Fld := ⟨0x208004, 0x0, 0x0, 0, 17, .ro, (.val 0x10000)⟩
/-- QMX_POOL_RES, 16 bits. -/
def QMX_POOL_RES_TOTAL : Fld := ⟨0x208008, 0x0, 0x0, 0, 16, .ro, (.val 0)⟩
/-- QMX_POOL_RES, 16 bits. -/
def QMX_POOL_RES_UNUSED : Fld := ⟨0x208008, 0x0, 0x0, 16, 16, .ro, (.val 0)⟩
/-- QMX_AUD_ALLOC, 17 bits. -/
def QMX_AUD_ALLOC_ALLOC : Fld := ⟨0x20800c, 0x0, 0x0, 0, 17, .ro, (.val 0)⟩
/-- QMX_AUD_TRANSIT, 17 bits. -/
def QMX_AUD_TRANSIT_TRANSIT : Fld := ⟨0x208010, 0x0, 0x0, 0, 17, .ro, (.val 0)⟩
/-- QMX_AUD_STATUS, 1 bit. -/
def QMX_AUD_STATUS_FAIL : Fld := ⟨0x208014, 0x0, 0x0, 1, 1, .w1c, (.val 0)⟩
/-- QMX_AUD_STATUS, 1 bit. -/
def QMX_AUD_STATUS_AGE_FAIL : Fld := ⟨0x208014, 0x0, 0x0, 2, 1, .w1c, (.val 0)⟩
/-- QMX_AUD_STATUS, 16 bits. -/
def QMX_AUD_STATUS_DIFF : Fld := ⟨0x208014, 0x0, 0x0, 16, 16, .ro, (.val 0)⟩
/-- QMX_ECC, 16 bits. -/
def QMX_ECC_CORR : Fld := ⟨0x208018, 0x0, 0x0, 0, 16, .ro, (.val 0)⟩
/-- QMX_ECC, 16 bits. -/
def QMX_ECC_UNCORR : Fld := ⟨0x208018, 0x0, 0x0, 16, 16, .ro, (.val 0)⟩
/-- QMX_STATUS, 8 bits. -/
def QMX_STATUS_LAST_STATUS : Fld := ⟨0x20801c, 0x0, 0x0, 0, 8, .ro, (.val 0)⟩
/-- QMX_STATUS, 1 bit. -/
def QMX_STATUS_LOW : Fld := ⟨0x20801c, 0x0, 0x0, 8, 1, .ro, (.val 0)⟩
/-- QMX_STATUS, 19 bits. -/
def QMX_STATUS_ENABLED : Fld := ⟨0x20801c, 0x0, 0x0, 13, 19, .ro, (.val 0)⟩
/-- QMX_EVT_LAST, 18 bits. -/
def QMX_EVT_LAST_QUEUE : Fld := ⟨0x208020, 0x0, 0x0, 0, 18, .ro, (.val 0)⟩
/-- QMX_EVT_LAST, 4 bits. -/
def QMX_EVT_LAST_KIND : Fld := ⟨0x208020, 0x0, 0x0, 20, 4, .ro, (.val 0)⟩

/-! ### Fields of spec/09_engine_array.md -/

/-- IEA_ENG_CTRL[e], 3 bits. -/
def IEA_ENG_CTRL_STATION : Fld := ⟨0x1400000, 0x4000, 0x0, 0, 3, .ro, (.val 0)⟩
/-- IEA_ENG_CTRL[e], 1 bit. -/
def IEA_ENG_CTRL_BOUND : Fld := ⟨0x1400000, 0x4000, 0x0, 3, 1, .ro, (.val 0)⟩
/-- IEA_ENG_CTRL[e], 1 bit. -/
def IEA_ENG_CTRL_SECURE : Fld := ⟨0x1400000, 0x4000, 0x0, 4, 1, .ro, (.val 0)⟩
/-- IEA_ENG_CTRL[e], 2 bits. -/
def IEA_ENG_CTRL_LEAD : Fld := ⟨0x1400000, 0x4000, 0x0, 5, 2, .ro, (.val 0)⟩
/-- IEA_ENG_CTRL[e], 24 bits. -/
def IEA_ENG_CTRL_SIGMA : Fld := ⟨0x1400000, 0x4000, 0x0, 8, 24, .ro, (.val 0)⟩
/-- IEA_ENG_STATUS[e], 3 bits. -/
def IEA_ENG_STATUS_STATE : Fld := ⟨0x1400004, 0x4000, 0x0, 0, 3, .ro, (.val 0)⟩
/-- IEA_ENG_STATUS[e], 2 bits. -/
def IEA_ENG_STATUS_PHASE : Fld := ⟨0x1400004, 0x4000, 0x0, 3, 2, .ro, (.val 0)⟩
/-- IEA_ENG_STATUS[e], 4 bits. -/
def IEA_ENG_STATUS_PC : Fld := ⟨0x1400004, 0x4000, 0x0, 5, 4, .ro, (.val 0)⟩
/-- IEA_ENG_STATUS[e], 3 bits. -/
def IEA_ENG_STATUS_SEQ : Fld := ⟨0x1400004, 0x4000, 0x0, 9, 3, .ro, (.val 0)⟩
/-- IEA_ENG_STATUS[e], 20 bits. -/
def IEA_ENG_STATUS_LOOP : Fld := ⟨0x1400004, 0x4000, 0x0, 12, 20, .ro, (.val 0)⟩
/-- IEA_ENG_CMD[e], 1 bit. -/
def IEA_ENG_CMD_CONT : Fld := ⟨0x1400008, 0x4000, 0x0, 0, 1, .wo, (.val 0)⟩
/-- IEA_ENG_CMD[e], 8 bits. -/
def IEA_ENG_CMD_LAST_STATUS : Fld := ⟨0x1400008, 0x4000, 0x0, 8, 8, .ro, (.val 0)⟩
/-- IEA_ENG_PORT[e][i], 18 bits. -/
def IEA_ENG_PORT_QUEUE : Fld := ⟨0x1400010, 0x4000, 0x4, 0, 18, .ro, (.val 0)⟩
/-- IEA_ENG_PORT[e][i], 1 bit. -/
def IEA_ENG_PORT_DIR : Fld := ⟨0x1400010, 0x4000, 0x4, 20, 1, .ro, (.val 0)⟩
/-- IEA_ENG_PORT[e][i], 1 bit. -/
def IEA_ENG_PORT_USED : Fld := ⟨0x1400010, 0x4000, 0x4, 21, 1, .ro, (.val 0)⟩
/-- IEA_ENG_TOK_ISSUED[e], 32 bits. -/
def IEA_ENG_TOK_ISSUED_COUNT : Fld := ⟨0x1400020, 0x4000, 0x0, 0, 32, .ro, (.val 0)⟩
/-- IEA_ENG_TOK_RETIRED[e], 32 bits. -/
def IEA_ENG_TOK_RETIRED_COUNT : Fld := ⟨0x1400024, 0x4000, 0x0, 0, 32, .ro, (.val 0)⟩
/-- IEA_ENG_TOK_OPEN[e], 3 bits. -/
def IEA_ENG_TOK_OPEN_OPEN : Fld := ⟨0x1400028, 0x4000, 0x0, 0, 3, .ro, (.val 0)⟩
/-- IEA_ENG_TOK_OPEN[e], 16 bits. -/
def IEA_ENG_TOK_OPEN_VOIDED : Fld := ⟨0x1400028, 0x4000, 0x0, 16, 16, .ro, (.val 0)⟩
/-- IEA_ENG_BAND_LO[e], 42 bits. -/
def IEA_ENG_BAND_BAND : Fld := ⟨0x140002c, 0x4000, 0x0, 0, 42, .ro, (.val 0)⟩
/-- IEA_ENG_BAND_HI[e], 1 bit. -/
def IEA_ENG_BAND_VALID : Fld := ⟨0x1400030, 0x4000, 0x0, 31, 1, .ro, (.val 0)⟩
/-- IEA_ENG_SLOTS_LO[e], 48 bits. -/
def IEA_ENG_SLOTS : Fld := ⟨0x1400034, 0x4000, 0x0, 0, 48, .ro, (.val 0)⟩
/-- IEA_ENG_EVT[e], 8 bits. -/
def IEA_ENG_EVT_CODE : Fld := ⟨0x140003c, 0x4000, 0x0, 0, 8, .ro, (.val 0)⟩
/-- IEA_ENG_EVT[e], 1 bit. -/
def IEA_ENG_EVT_PENDING : Fld := ⟨0x140003c, 0x4000, 0x0, 8, 1, .w1c, (.val 0)⟩
/-- IEA_ENG_EVT[e], 16 bits. -/
def IEA_ENG_EVT_COUNT : Fld := ⟨0x140003c, 0x4000, 0x0, 16, 16, .ro, (.val 0)⟩
/-- IEA_ENG_EVT_WPI_LO[e], 48 bits. -/
def IEA_ENG_EVT_WPI : Fld := ⟨0x1400040, 0x4000, 0x0, 0, 48, .ro, (.val 0)⟩
/-- IEA_ENG_FAULT[e], 4 bits. -/
def IEA_ENG_FAULT_KIND : Fld := ⟨0x1400048, 0x4000, 0x0, 0, 4, .ro, (.val 0)⟩
/-- IEA_ENG_FAULT[e], 6 bits. -/
def IEA_ENG_FAULT_CELL : Fld := ⟨0x1400048, 0x4000, 0x0, 4, 6, .ro, (.val 0)⟩
/-- IEA_ENG_FAULT[e], 1 bit. -/
def IEA_ENG_FAULT_NEW : Fld := ⟨0x1400048, 0x4000, 0x0, 16, 1, .w1c, (.val 0)⟩
/-- IEA_ENG_FAULT_WPI_LO[e], 48 bits. -/
def IEA_ENG_FAULT_WPI : Fld := ⟨0x140004c, 0x4000, 0x0, 0, 48, .ro, (.val 0)⟩
/-- IEA_ENG_LS_ECC[e], 16 bits. -/
def IEA_ENG_LS_ECC_CORR : Fld := ⟨0x1400054, 0x4000, 0x0, 0, 16, .ro, (.val 0)⟩
/-- IEA_ENG_LS_ECC[e], 16 bits. -/
def IEA_ENG_LS_ECC_UNCORR : Fld := ⟨0x1400054, 0x4000, 0x0, 16, 16, .ro, (.val 0)⟩
/-- IEA_ENG_LS_ADDR[e], 16 bits. -/
def IEA_ENG_LS_ADDR_ADDR : Fld := ⟨0x1400058, 0x4000, 0x0, 2, 16, .rw, (.val 0)⟩
/-- IEA_ENG_LS_DATA[e], 32 bits. -/
def IEA_ENG_LS_DATA_DATA : Fld := ⟨0x140005c, 0x4000, 0x0, 0, 32, .rw, (.val 0)⟩
/-- IEA_ENG_LS_USED[e], 13 bits. -/
def IEA_ENG_LS_USED_UNITS : Fld := ⟨0x1400060, 0x4000, 0x0, 0, 13, .ro, (.val 0)⟩
/-- IEA_ENG_OVF[e], 20 bits. -/
def IEA_ENG_OVF_PAGE : Fld := ⟨0x1400064, 0x4000, 0x0, 0, 20, .ro, (.val 0)⟩
/-- IEA_ENG_OVF[e], 12 bits. -/
def IEA_ENG_OVF_PAGES : Fld := ⟨0x1400064, 0x4000, 0x0, 20, 12, .ro, (.val 0)⟩
/-- IEA_ENG_SEQ[e][i], 32 bits. -/
def IEA_ENG_SEQ_INSTR : Fld := ⟨0x1400100, 0x4000, 0x4, 0, 32, .ro, (.val 7)⟩
/-- IEA_STATUS, 8 bits. -/
def IEA_STATUS_LAST_STATUS : Fld := ⟨0x209000, 0x0, 0x0, 0, 8, .ro, (.val 0)⟩
/-- IEA_STATUS, 10 bits. -/
def IEA_STATUS_FAULTED : Fld := ⟨0x209000, 0x0, 0x0, 16, 10, .ro, (.val 0)⟩
/-- IEA_CFG, 8 bits. -/
def IEA_CFG_HS_TIMEOUT : Fld := ⟨0x209004, 0x0, 0x0, 0, 8, .rw, (.val 0x64)⟩
/-- IEA_AUD_STATUS, 1 bit. -/
def IEA_AUD_STATUS_WINDOW : Fld := ⟨0x209008, 0x0, 0x0, 0, 1, .ro, (.val 0)⟩
/-- IEA_AUD_STATUS, 1 bit. -/
def IEA_AUD_STATUS_FAIL : Fld := ⟨0x209008, 0x0, 0x0, 1, 1, .w1c, (.val 0)⟩
/-- IEA_AUD_STATUS, 9 bits. -/
def IEA_AUD_STATUS_ENGINE : Fld := ⟨0x209008, 0x0, 0x0, 16, 9, .ro, (.val 0x1ff)⟩
/-- IEA_OVF_USED, 20 bits. -/
def IEA_OVF_USED_PAGES : Fld := ⟨0x20900c, 0x0, 0x0, 0, 20, .ro, (.val 0)⟩
/-- IEA_CL_FAULT[c], 32 bits. -/
def IEA_CL_FAULT_MASK : Fld := ⟨0x209100, 0x4, 0x0, 0, 32, .ro, (.val 0)⟩
/-- IEA_CL_BOUND[c], 32 bits. -/
def IEA_CL_BOUND_MASK : Fld := ⟨0x209140, 0x4, 0x0, 0, 32, .ro, (.val 0)⟩

/-! ### Fields of spec/11_structure_image.md -/

/-- SCU_IMG_CTRL, 1 bit. -/
def SCU_IMG_CTRL_SRC : Fld := ⟨0x200000, 0x0, 0x0, 4, 1, .rw, (.val 0)⟩
/-- SCU_IMG_CTRL, 1 bit. -/
def SCU_IMG_CTRL_GO : Fld := ⟨0x200000, 0x0, 0x0, 31, 1, .wo, (.val 0)⟩
/-- SCU_IMG_SRC_LO, 64 bits. -/
def SCU_IMG_SRC_ADDR : Fld := ⟨0x200004, 0x0, 0x0, 0, 64, .rw, (.val 0)⟩
/-- SCU_IMG_LEN, 29 bits. -/
def SCU_IMG_LEN_LENGTH : Fld := ⟨0x20000c, 0x0, 0x0, 0, 29, .rw, (.val 0)⟩
/-- SCU_IMG_STATUS, 8 bits. -/
def SCU_IMG_STATUS_STATUS : Fld := ⟨0x200010, 0x0, 0x0, 0, 8, .ro, (.val 0)⟩
/-- SCU_IMG_STATUS, 4 bits. -/
def SCU_IMG_STATUS_STAGE : Fld := ⟨0x200010, 0x0, 0x0, 8, 4, .ro, (.val 0)⟩
/-- SCU_IMG_STATUS, 1 bit. -/
def SCU_IMG_STATUS_BUSY : Fld := ⟨0x200010, 0x0, 0x0, 12, 1, .ro, (.val 0)⟩
/-- SCU_IMG_STATUS, 1 bit. -/
def SCU_IMG_STATUS_UNVERIFIED : Fld := ⟨0x200010, 0x0, 0x0, 13, 1, .ro, (.val 0)⟩
/-- SCU_IMG_STATUS, 1 bit. -/
def SCU_IMG_STATUS_IN_FORCE : Fld := ⟨0x200010, 0x0, 0x0, 14, 1, .ro, (.val 0)⟩
/-- SCU_IMG_STATUS, 16 bits. -/
def SCU_IMG_STATUS_SECTION : Fld := ⟨0x200010, 0x0, 0x0, 16, 16, .ro, (.val 0xffff)⟩
/-- SCU_IMG_FAIL_OFF, 32 bits. -/
def SCU_IMG_FAIL_OFF_OFFSET : Fld := ⟨0x200014, 0x0, 0x0, 0, 32, .ro, (.val 0)⟩
/-- SCU_IMG_REFUSED, 32 bits. -/
def SCU_IMG_REFUSED_COUNT : Fld := ⟨0x200018, 0x0, 0x0, 0, 32, .ro, (.val 0)⟩
/-- SCU_IMG_ID_LO, 64 bits. -/
def SCU_IMG_ID : Fld := ⟨0x20001c, 0x0, 0x0, 0, 64, .ro, (.val 0)⟩
/-- SCU_IMG_VER, 32 bits. -/
def SCU_IMG_VER_VER : Fld := ⟨0x200024, 0x0, 0x0, 0, 32, .ro, (.val 0)⟩
/-- SCU_IMG_DIGEST[i], 32 bits. -/
def SCU_IMG_DIGEST_DIGEST : Fld := ⟨0x200040, 0x4, 0x0, 0, 32, .ro, (.val 0)⟩
/-- SCU_RLD_CTRL, 1 bit. -/
def SCU_RLD_CTRL_CANCEL : Fld := ⟨0x200100, 0x0, 0x0, 0, 1, .wo, (.val 0)⟩
/-- SCU_RLD_H_LO, 48 bits. -/
def SCU_RLD_H : Fld := ⟨0x200104, 0x0, 0x0, 0, 48, .rw, (.val 0)⟩
/-- SCU_RLD_STATUS, 3 bits. -/
def SCU_RLD_STATUS_PHASE : Fld := ⟨0x20010c, 0x0, 0x0, 0, 3, .ro, (.val 0)⟩
/-- SCU_RLD_STATUS, 3 bits. -/
def SCU_RLD_STATUS_STATION : Fld := ⟨0x20010c, 0x0, 0x0, 4, 3, .ro, (.val 0)⟩
/-- SCU_RLD_STATUS, 8 bits. -/
def SCU_RLD_STATUS_LAST_STATUS : Fld := ⟨0x20010c, 0x0, 0x0, 8, 8, .ro, (.val 0)⟩
/-- SCU_RLD_STATUS, 1 bit. -/
def SCU_RLD_STATUS_DONE : Fld := ⟨0x20010c, 0x0, 0x0, 16, 1, .w1c, (.val 0)⟩
/-- SCU_RLD_MASK_LO, 64 bits. -/
def SCU_RLD_MASK_GROUPS : Fld := ⟨0x200110, 0x0, 0x0, 0, 64, .ro, (.val 0)⟩
/-- SCU_RLD_COUNT, 32 bits. -/
def SCU_RLD_COUNT_COUNT : Fld := ⟨0x200118, 0x0, 0x0, 0, 32, .ro, (.val 0)⟩

/-! ### Fields of spec/12_sealed_state.md -/

/-- SCU_SEAL_CFG, 16 bits. -/
def SCU_SEAL_CFG_FREEZE_MS : Fld := ⟨0x20a000, 0x0, 0x0, 0, 16, .rws, (.val 0x3e8)⟩
/-- SCU_SEAL_AUD, 5 bits. -/
def SCU_SEAL_AUD_LATCHED : Fld := ⟨0x20a004, 0x0, 0x0, 0, 5, .w1c, (.val 0)⟩
/-- SCU_SEAL_AUD, 5 bits. -/
def SCU_SEAL_AUD_FAILING : Fld := ⟨0x20a004, 0x0, 0x0, 8, 5, .ro, (.val 0)⟩
/-- SCU_SEAL_ST_CTRL[s], 10 bits. -/
def SCU_SEAL_ST_CTRL_MAXLAT : Fld := ⟨0x20a100, 0x100, 0x0, 0, 10, .rw, (.val 0x64)⟩
/-- SCU_SEAL_ST_CTRL[s], 4 bits. -/
def SCU_SEAL_ST_CTRL_SNAP_LOG : Fld := ⟨0x20a100, 0x100, 0x0, 16, 4, .rw, (.val 0)⟩
/-- SCU_SEAL_ST_CTRL[s], 1 bit. -/
def SCU_SEAL_ST_CTRL_THAW : Fld := ⟨0x20a100, 0x100, 0x0, 31, 1, .wo, (.val 0)⟩
/-- SCU_SEAL_ST_STATUS[s], 1 bit. -/
def SCU_SEAL_ST_STATUS_VALID : Fld := ⟨0x20a104, 0x100, 0x0, 0, 1, .ro, (.val 0)⟩
/-- SCU_SEAL_ST_STATUS[s], 1 bit. -/
def SCU_SEAL_ST_STATUS_FROZEN : Fld := ⟨0x20a104, 0x100, 0x0, 1, 1, .ro, (.val 0)⟩
/-- SCU_SEAL_ST_STATUS[s], 1 bit. -/
def SCU_SEAL_ST_STATUS_LATE : Fld := ⟨0x20a104, 0x100, 0x0, 2, 1, .w1c, (.val 0)⟩
/-- SCU_SEAL_ST_STATUS[s], 3 bits. -/
def SCU_SEAL_ST_STATUS_HELD_BY : Fld := ⟨0x20a104, 0x100, 0x0, 4, 3, .ro, (.val 0)⟩
/-- SCU_SEAL_ST_STATUS[s], 8 bits. -/
def SCU_SEAL_ST_STATUS_LAST_STATUS : Fld := ⟨0x20a104, 0x100, 0x0, 8, 8, .ro, (.val 0)⟩
/-- SCU_SEAL_ST_HZN_LO[s], 42 bits. -/
def SCU_SEAL_ST_HZN_BAND : Fld := ⟨0x20a108, 0x100, 0x0, 0, 42, .ro, (.val 0)⟩
/-- SCU_SEAL_ST_LOCAL_LO[s], 42 bits. -/
def SCU_SEAL_ST_LOCAL_BAND : Fld := ⟨0x20a110, 0x100, 0x0, 0, 42, .ro, (.val 0)⟩
/-- SCU_SEAL_ST_LAT[s], 32 bits. -/
def SCU_SEAL_ST_LAT_NS : Fld := ⟨0x20a118, 0x100, 0x0, 0, 32, .ro, (.val 0)⟩
/-- SCU_SEAL_ST_COUNT[s], 32 bits. -/
def SCU_SEAL_ST_COUNT_COUNT : Fld := ⟨0x20a11c, 0x100, 0x0, 0, 32, .ro, (.val 0)⟩
/-- SCU_SEAL_ST_SNAP_BAND_LO[s], 42 bits. -/
def SCU_SEAL_ST_SNAP_BAND_BAND : Fld := ⟨0x20a120, 0x100, 0x0, 0, 42, .ro, (.val 0)⟩
/-- SCU_SEAL_ST_SNAP[s][i], 32 bits. -/
def SCU_SEAL_ST_SNAP_COUNT : Fld := ⟨0x20a140, 0x100, 0x4, 0, 32, .ro, (.val 0)⟩

/-! ### Fields of spec/13_kelim_ring.md -/

/-- KRU_CFG, 1 bit. -/
def KRU_CFG_EN : Fld := ⟨0x1c00000, 0x0, 0x0, 0, 1, .rw, (.val 0)⟩
/-- KRU_CFG, 1 bit. -/
def KRU_CFG_TIMING : Fld := ⟨0x1c00000, 0x0, 0x0, 1, 1, .rw, (.val 0)⟩
/-- KRU_CFG, 5 bits. -/
def KRU_CFG_MIN_LANES : Fld := ⟨0x1c00000, 0x0, 0x0, 4, 5, .rw, (.val 4)⟩
/-- KRU_CFG, 8 bits. -/
def KRU_CFG_TOKEN_TIMEOUT : Fld := ⟨0x1c00000, 0x0, 0x0, 16, 8, .rw, (.val 0xa)⟩
/-- KRU_CFG, 8 bits. -/
def KRU_CFG_REFORM_MS : Fld := ⟨0x1c00000, 0x0, 0x0, 24, 8, .rw, (.val 0x64)⟩
/-- KRU_STATUS, 3 bits. -/
def KRU_STATUS_STATE : Fld := ⟨0x1c00004, 0x0, 0x0, 0, 3, .ro, (.val 0)⟩
/-- KRU_STATUS, 2 bits. -/
def KRU_STATUS_ROLE : Fld := ⟨0x1c00004, 0x0, 0x0, 4, 2, .ro, (.val 0)⟩
/-- KRU_STATUS, 8 bits. -/
def KRU_STATUS_LAST_STATUS : Fld := ⟨0x1c00004, 0x0, 0x0, 8, 8, .ro, (.val 0)⟩
/-- KRU_STATUS, 16 bits. -/
def KRU_STATUS_ID : Fld := ⟨0x1c00004, 0x0, 0x0, 16, 16, .ro, (.val 0)⟩
/-- KRU_TIME_LO, 64 bits. -/
def KRU_TIME : Fld := ⟨0x1c00008, 0x0, 0x0, 0, 64, .ro, (.val 0)⟩
/-- KRU_AUD, 1 bit. -/
def KRU_AUD_WINDOW : Fld := ⟨0x1c00010, 0x0, 0x0, 0, 1, .ro, (.val 0)⟩
/-- KRU_AUD, 1 bit. -/
def KRU_AUD_DUP : Fld := ⟨0x1c00010, 0x0, 0x0, 1, 1, .w1c, (.val 0)⟩
/-- KRU_AUD, 1 bit. -/
def KRU_AUD_COUNT_ERR : Fld := ⟨0x1c00010, 0x0, 0x0, 2, 1, .w1c, (.val 0)⟩
/-- KRU_AUD, 1 bit. -/
def KRU_AUD_LOST : Fld := ⟨0x1c00010, 0x0, 0x0, 3, 1, .w1c, (.val 0)⟩
/-- KRU_AUD, 1 bit. -/
def KRU_AUD_MISMATCH : Fld := ⟨0x1c00010, 0x0, 0x0, 4, 1, .w1c, (.val 0)⟩
/-- KRU_AUD, 16 bits. -/
def KRU_AUD_IN_FLIGHT : Fld := ⟨0x1c00010, 0x0, 0x0, 16, 16, .ro, (.val 0)⟩
/-- KRU_TOK_ISSUED, 32 bits. -/
def KRU_TOK_ISSUED_COUNT : Fld := ⟨0x1c00014, 0x0, 0x0, 0, 32, .ro, (.val 0)⟩
/-- KRU_TOK_RETIRED, 32 bits. -/
def KRU_TOK_RETIRED_COUNT : Fld := ⟨0x1c00018, 0x0, 0x0, 0, 32, .ro, (.val 0)⟩
/-- KRU_MEMBER_SEL, 16 bits. -/
def KRU_MEMBER_SEL_ID : Fld := ⟨0x1c00020, 0x0, 0x0, 0, 16, .rw, (.val 1)⟩
/-- KRU_MEMBER_INFO, 2 bits. -/
def KRU_MEMBER_INFO_ROLE : Fld := ⟨0x1c00024, 0x0, 0x0, 0, 2, .ro, (.val 3)⟩
/-- KRU_MEMBER_INFO, 8 bits. -/
def KRU_MEMBER_INFO_STATIONS : Fld := ⟨0x1c00024, 0x0, 0x0, 8, 8, .ro, (.val 0)⟩
/-- KRU_MEMBER_INFO, 16 bits. -/
def KRU_MEMBER_INFO_ID : Fld := ⟨0x1c00024, 0x0, 0x0, 16, 16, .ro, (.val 0)⟩
/-- KRU_PORT_STATUS[pt], 3 bits. -/
def KRU_PORT_STATUS_STATE : Fld := ⟨0x1c00100, 0x20, 0x0, 0, 3, .ro, (.val 0)⟩
/-- KRU_PORT_STATUS[pt], 8 bits. -/
def KRU_PORT_STATUS_LAST_STATUS : Fld := ⟨0x1c00100, 0x20, 0x0, 8, 8, .ro, (.val 0)⟩
/-- KRU_PORT_STATUS[pt], 16 bits. -/
def KRU_PORT_STATUS_NEIGHBOUR : Fld := ⟨0x1c00100, 0x20, 0x0, 16, 16, .ro, (.val 0)⟩
/-- KRU_PORT_LANES[pt], 16 bits. -/
def KRU_PORT_LANES_ACTIVE : Fld := ⟨0x1c00104, 0x20, 0x0, 0, 16, .ro, (.val 0)⟩
/-- KRU_PORT_LANES[pt], 16 bits. -/
def KRU_PORT_LANES_DELAY : Fld := ⟨0x1c00104, 0x20, 0x0, 16, 16, .ro, (.val 0)⟩
/-- KRU_PORT_ERR[pt], 32 bits. -/
def KRU_PORT_ERR_COUNT : Fld := ⟨0x1c00108, 0x20, 0x0, 0, 32, .ro, (.val 0)⟩
/-- KRU_ST_CTRL[s], 1 bit. -/
def KRU_ST_CTRL_RING : Fld := ⟨0x1c01000, 0x40, 0x0, 0, 1, .rw, (.val 0)⟩
/-- KRU_ST_CTRL[s], 15 bits. -/
def KRU_ST_CTRL_LEAD : Fld := ⟨0x1c01000, 0x40, 0x0, 1, 15, .rw, (.val 0x400)⟩
/-- KRU_ST_CTRL[s], 16 bits. -/
def KRU_ST_CTRL_TLOCAL : Fld := ⟨0x1c01000, 0x40, 0x0, 16, 16, .rw, (.val 0xa)⟩
/-- KRU_ST_STATUS[s], 3 bits. -/
def KRU_ST_STATUS_ALIGN : Fld := ⟨0x1c01004, 0x40, 0x0, 0, 3, .ro, (.val 0)⟩
/-- KRU_ST_STATUS[s], 1 bit. -/
def KRU_ST_STATUS_ALIGN_ERR : Fld := ⟨0x1c01004, 0x40, 0x0, 3, 1, .w1c, (.val 0)⟩
/-- KRU_ST_STATUS[s], 1 bit. -/
def KRU_ST_STATUS_HINGE_UNM : Fld := ⟨0x1c01004, 0x40, 0x0, 4, 1, .w1c, (.val 0)⟩
/-- KRU_ST_STATUS[s], 8 bits. -/
def KRU_ST_STATUS_LAST_STATUS : Fld := ⟨0x1c01004, 0x40, 0x0, 8, 8, .ro, (.val 0)⟩
/-- KRU_ST_STATUS[s], 16 bits. -/
def KRU_ST_STATUS_NMAX : Fld := ⟨0x1c01004, 0x40, 0x0, 16, 16, .ro, (.val 0)⟩
/-- KRU_ST_OFS_LO[s], 48 bits. -/
def KRU_ST_OFS_COUNT : Fld := ⟨0x1c01008, 0x40, 0x0, 0, 48, .ro, (.val 0)⟩
/-- KRU_ST_OFS_HI[s], 16 bits. -/
def KRU_ST_OFS_PHASE : Fld := ⟨0x1c0100c, 0x40, 0x0, 16, 16, .ro, (.val 0)⟩
/-- KRU_ST_HINGE_LO[s], 48 bits. -/
def KRU_ST_HINGE_H : Fld := ⟨0x1c01010, 0x40, 0x0, 0, 48, .ro, (.val 0)⟩

/-! ### Fields of spec/14_host_interface.md -/

/-- HIF_CTRL, 1 bit. -/
def HIF_CTRL_EN : Fld := ⟨0x1d00000, 0x0, 0x0, 0, 1, .rw, (.val 0)⟩
/-- HIF_CTRL, 1 bit. -/
def HIF_CTRL_ECRC : Fld := ⟨0x1d00000, 0x0, 0x0, 8, 1, .rw, (.val 0)⟩
/-- HIF_STATUS, 8 bits. -/
def HIF_STATUS_LAST_STATUS : Fld := ⟨0x1d00004, 0x0, 0x0, 0, 8, .ro, (.val 0)⟩
/-- HIF_STATUS, 4 bits. -/
def HIF_STATUS_SPEED : Fld := ⟨0x1d00004, 0x0, 0x0, 8, 4, .ro, (.val 0)⟩
/-- HIF_STATUS, 6 bits. -/
def HIF_STATUS_WIDTH : Fld := ⟨0x1d00004, 0x0, 0x0, 12, 6, .ro, (.val 0)⟩
/-- HIF_PCIE_ERR, 16 bits. -/
def HIF_PCIE_ERR_BAD : Fld := ⟨0x1d00008, 0x0, 0x0, 0, 16, .ro, (.val 0)⟩
/-- HIF_PCIE_ERR, 16 bits. -/
def HIF_PCIE_ERR_CPL_ERR : Fld := ⟨0x1d00008, 0x0, 0x0, 16, 16, .ro, (.val 0)⟩
/-- HIF_EVT_PEND[g], 32 bits. -/
def HIF_EVT_PEND_PEND : Fld := ⟨0x1d00100, 0x4, 0x0, 0, 32, .w1c, (.val 0)⟩
/-- HIF_EVT_EN[g], 32 bits. -/
def HIF_EVT_EN_EN : Fld := ⟨0x1d00200, 0x4, 0x0, 0, 32, .rw, (.val 0)⟩
/-- HIF_EVT_SUM_LO, 32 bits. -/
def HIF_EVT_SUM_LO_GROUPS : Fld := ⟨0x1d00300, 0x0, 0x0, 0, 32, .ro, (.val 0)⟩
/-- HIF_EVT_SUM_HI, 16 bits. -/
def HIF_EVT_SUM_HI_GROUPS : Fld := ⟨0x1d00304, 0x0, 0x0, 0, 16, .ro, (.val 0)⟩
/-- HIF_EVT_MAP[n], 8 bits. -/
def HIF_EVT_MAP_VECTOR : Fld := ⟨0x1d01000, 0x4, 0x0, 0, 8, .rws, (.val 0)⟩
/-- HIF_EVT_MAP[n], 1 bit. -/
def HIF_EVT_MAP_FN : Fld := ⟨0x1d01000, 0x4, 0x0, 8, 1, .rws, (.val 1)⟩
/-- HIF_VEC_MOD[f][v], 16 bits. -/
def HIF_VEC_MOD_INTERVAL : Fld := ⟨0x1d03000, 0x400, 0x4, 0, 16, .rw, (.val 0)⟩
/-- HIF_HQ[j], 18 bits. -/
def HIF_HQ_QUEUE : Fld := ⟨0x1d04000, 0x4, 0x0, 0, 18, .rw, (.val 0)⟩
/-- HIF_HQ[j], 6 bits. -/
def HIF_HQ_STREAM : Fld := ⟨0x1d04000, 0x4, 0x0, 18, 6, .rw, (.val 0)⟩
/-- HIF_HQ[j], 1 bit. -/
def HIF_HQ_EN : Fld := ⟨0x1d04000, 0x4, 0x0, 31, 1, .rw, (.val 0)⟩
/-- HIF_ST_CTRL[c], 1 bit. -/
def HIF_ST_CTRL_EN : Fld := ⟨0x1d06000, 0x40, 0x0, 0, 1, .rw, (.val 0)⟩
/-- HIF_ST_CTRL[c], 1 bit. -/
def HIF_ST_CTRL_KIND : Fld := ⟨0x1d06000, 0x40, 0x0, 1, 1, .rw, (.val 0)⟩
/-- HIF_ST_CTRL[c], 3 bits. -/
def HIF_ST_CTRL_STATION : Fld := ⟨0x1d06000, 0x40, 0x0, 2, 3, .rw, (.val 0)⟩
/-- HIF_ST_CTRL[c], 1 bit. -/
def HIF_ST_CTRL_GAPS : Fld := ⟨0x1d06000, 0x40, 0x0, 5, 1, .rw, (.val 0)⟩
/-- HIF_ST_CTRL[c], 1 bit. -/
def HIF_ST_CTRL_SNAP : Fld := ⟨0x1d06000, 0x40, 0x0, 6, 1, .rw, (.val 0)⟩
/-- HIF_ST_CTRL[c], 2 bits. -/
def HIF_ST_CTRL_PORT : Fld := ⟨0x1d06000, 0x40, 0x0, 8, 2, .rw, (.val 0)⟩
/-- HIF_ST_CTRL[c], 10 bits. -/
def HIF_ST_CTRL_CHUNK : Fld := ⟨0x1d06000, 0x40, 0x0, 10, 10, .rw, (.val 0x200)⟩
/-- HIF_ST_CTRL[c], 5 bits. -/
def HIF_ST_CTRL_RING_LOG : Fld := ⟨0x1d06000, 0x40, 0x0, 20, 5, .rw, (.val 8)⟩
/-- HIF_ST_RING_LO[c], 26 bits. -/
def HIF_ST_RING_LO_ADDR_LO : Fld := ⟨0x1d06004, 0x40, 0x0, 6, 26, .rw, (.val 0)⟩
/-- HIF_ST_RING_HI[c], 32 bits. -/
def HIF_ST_RING_HI_ADDR_HI : Fld := ⟨0x1d06008, 0x40, 0x0, 0, 32, .rw, (.val 0)⟩
/-- HIF_ST_HEAD[c], 16 bits. -/
def HIF_ST_HEAD_HEAD : Fld := ⟨0x1d0600c, 0x40, 0x0, 0, 16, .ro, (.val 0)⟩
/-- HIF_ST_TAIL[c], 16 bits. -/
def HIF_ST_TAIL_TAIL : Fld := ⟨0x1d06010, 0x40, 0x0, 0, 16, .rw, (.val 0)⟩
/-- HIF_ST_STATUS[c], 2 bits. -/
def HIF_ST_STATUS_STATE : Fld := ⟨0x1d06014, 0x40, 0x0, 0, 2, .ro, (.val 0)⟩
/-- HIF_ST_STATUS[c], 8 bits. -/
def HIF_ST_STATUS_LAST_STATUS : Fld := ⟨0x1d06014, 0x40, 0x0, 8, 8, .ro, (.val 0)⟩
/-- HIF_ST_STATUS[c], 1 bit. -/
def HIF_ST_STATUS_FAULT : Fld := ⟨0x1d06014, 0x40, 0x0, 16, 1, .w1c, (.val 0)⟩
/-- HIF_ST_SEQ[c], 32 bits. -/
def HIF_ST_SEQ_SEQ : Fld := ⟨0x1d06018, 0x40, 0x0, 0, 32, .ro, (.val 0)⟩
/-- HIF_ST_BAND_LO[c], 42 bits. -/
def HIF_ST_BAND : Fld := ⟨0x1d0601c, 0x40, 0x0, 0, 42, .ro, (.val 0)⟩
/-- HIF_ST_DST_MAC_LO[c], 48 bits. -/
def HIF_ST_DST_MAC_MAC : Fld := ⟨0x1d06024, 0x40, 0x0, 0, 48, .rw, (.val 0)⟩
/-- HIF_ST_DST_MAC_HI[c], 12 bits. -/
def HIF_ST_DST_MAC_VID : Fld := ⟨0x1d06028, 0x40, 0x0, 16, 12, .rw, (.val 0)⟩
/-- HIF_ST_DST_MAC_HI[c], 1 bit. -/
def HIF_ST_DST_MAC_VLAN_EN : Fld := ⟨0x1d06028, 0x40, 0x0, 31, 1, .rw, (.val 0)⟩
/-- HIF_ST_DST_IP[c], 32 bits. -/
def HIF_ST_DST_IP_IP : Fld := ⟨0x1d0602c, 0x40, 0x0, 0, 32, .rw, (.val 0)⟩
/-- HIF_ST_UDP[c], 16 bits. -/
def HIF_ST_UDP_DST_PORT : Fld := ⟨0x1d06030, 0x40, 0x0, 0, 16, .rw, (.val 0)⟩
/-- HIF_ST_UDP[c], 16 bits. -/
def HIF_ST_UDP_SRC_PORT : Fld := ⟨0x1d06030, 0x40, 0x0, 16, 16, .rw, (.val 0)⟩
/-- HIF_ST_RATE[c], 17 bits. -/
def HIF_ST_RATE_MBPS : Fld := ⟨0x1d06034, 0x40, 0x0, 0, 17, .rw, (.val 0)⟩
/-- HIF_ST_RATE[c], 6 bits. -/
def HIF_ST_RATE_DSCP : Fld := ⟨0x1d06034, 0x40, 0x0, 24, 6, .rw, (.val 0)⟩
/-- HIF_ETH_CTRL[pn], 1 bit. -/
def HIF_ETH_CTRL_EN : Fld := ⟨0x1d08000, 0x40, 0x0, 0, 1, .rw, (.val 0)⟩
/-- HIF_ETH_CTRL[pn], 1 bit. -/
def HIF_ETH_CTRL_MEDIA : Fld := ⟨0x1d08000, 0x40, 0x0, 1, 1, .rw, (.val 0)⟩
/-- HIF_ETH_CTRL[pn], 1 bit. -/
def HIF_ETH_CTRL_AN_EN : Fld := ⟨0x1d08000, 0x40, 0x0, 2, 1, .rw, (.val 1)⟩
/-- HIF_ETH_CTRL[pn], 14 bits. -/
def HIF_ETH_CTRL_MTU : Fld := ⟨0x1d08000, 0x40, 0x0, 16, 14, .rw, (.val 0x5dc)⟩
/-- HIF_ETH_STATUS[pn], 1 bit. -/
def HIF_ETH_STATUS_LINK : Fld := ⟨0x1d08004, 0x40, 0x0, 0, 1, .ro, (.val 0)⟩
/-- HIF_ETH_STATUS[pn], 1 bit. -/
def HIF_ETH_STATUS_FEC_LOCK : Fld := ⟨0x1d08004, 0x40, 0x0, 1, 1, .ro, (.val 0)⟩
/-- HIF_ETH_STATUS[pn], 1 bit. -/
def HIF_ETH_STATUS_CHANGED : Fld := ⟨0x1d08004, 0x40, 0x0, 2, 1, .w1c, (.val 0)⟩
/-- HIF_ETH_STATUS[pn], 1 bit. -/
def HIF_ETH_STATUS_PAUSED : Fld := ⟨0x1d08004, 0x40, 0x0, 3, 1, .ro, (.val 0)⟩
/-- HIF_ETH_MAC_LO[pn], 48 bits. -/
def HIF_ETH_MAC : Fld := ⟨0x1d08008, 0x40, 0x0, 0, 48, .rw, .portMac⟩
/-- HIF_ETH_IP[pn], 32 bits. -/
def HIF_ETH_IP_IP : Fld := ⟨0x1d08010, 0x40, 0x0, 0, 32, .rw, (.val 0)⟩
/-- HIF_ETH_RX_DROP[pn], 32 bits. -/
def HIF_ETH_RX_DROP_COUNT : Fld := ⟨0x1d08014, 0x40, 0x0, 0, 32, .ro, (.val 0)⟩
/-- HIF_ETH_FEC[pn], 16 bits. -/
def HIF_ETH_FEC_CORR : Fld := ⟨0x1d08018, 0x40, 0x0, 0, 16, .ro, (.val 0)⟩
/-- HIF_ETH_FEC[pn], 16 bits. -/
def HIF_ETH_FEC_UNCORR : Fld := ⟨0x1d08018, 0x40, 0x0, 16, 16, .ro, (.val 0)⟩
/-- HIF_PTP_CTRL, 1 bit. -/
def HIF_PTP_CTRL_EN : Fld := ⟨0x1d09000, 0x0, 0x0, 0, 1, .rw, (.val 0)⟩
/-- HIF_PTP_CTRL, 2 bits. -/
def HIF_PTP_CTRL_PORT : Fld := ⟨0x1d09000, 0x0, 0x0, 1, 2, .rw, (.val 0)⟩
/-- HIF_PTP_CTRL, 1 bit. -/
def HIF_PTP_CTRL_TRANSPORT : Fld := ⟨0x1d09000, 0x0, 0x0, 3, 1, .rw, (.val 0)⟩
/-- HIF_PTP_CTRL, 8 bits. -/
def HIF_PTP_CTRL_DOMAIN : Fld := ⟨0x1d09000, 0x0, 0x0, 8, 8, .rw, (.val 0)⟩
/-- HIF_PTP_CTRL, 16 bits. -/
def HIF_PTP_CTRL_LOCK_NS : Fld := ⟨0x1d09000, 0x0, 0x0, 16, 16, .rw, (.val 0x64)⟩
/-- HIF_PTP_STATUS, 1 bit. -/
def HIF_PTP_STATUS_LOCK : Fld := ⟨0x1d09004, 0x0, 0x0, 0, 1, .ro, (.val 0)⟩
/-- HIF_PTP_STATUS, 1 bit. -/
def HIF_PTP_STATUS_CHANGED : Fld := ⟨0x1d09004, 0x0, 0x0, 1, 1, .w1c, (.val 0)⟩
/-- HIF_PTP_STATUS, 1 bit. -/
def HIF_PTP_STATUS_MASTER_SEEN : Fld := ⟨0x1d09004, 0x0, 0x0, 2, 1, .ro, (.val 0)⟩
/-- HIF_PTP_OFFSET, 32 bits. -/
def HIF_PTP_OFFSET_NS : Fld := ⟨0x1d09008, 0x0, 0x0, 0, 32, .ro, (.val 0)⟩
/-- HIF_PTP_DELAY, 32 bits. -/
def HIF_PTP_DELAY_NS : Fld := ⟨0x1d0900c, 0x0, 0x0, 0, 32, .ro, (.val 0)⟩
/-- HIF_PTP_SEC_LO, 48 bits. -/
def HIF_PTP_SEC_SEC : Fld := ⟨0x1d09010, 0x0, 0x0, 0, 48, .ro, (.val 0)⟩
/-- HIF_PTP_NS, 30 bits. -/
def HIF_PTP_NS_NS : Fld := ⟨0x1d09018, 0x0, 0x0, 0, 30, .ro, (.val 0)⟩

/-! ### Fields of spec/16_illumination.md -/

/-- ILC_CTRL, 1 bit. -/
def ILC_CTRL_EN : Fld := ⟨0x1e00000, 0x0, 0x0, 0, 1, .rw, (.val 0)⟩
/-- ILC_STATUS, 8 bits. -/
def ILC_STATUS_LAST_STATUS : Fld := ⟨0x1e00004, 0x0, 0x0, 0, 8, .ro, (.val 0)⟩
/-- ILC_STATUS, 7 bits. -/
def ILC_STATUS_FAULTED : Fld := ⟨0x1e00004, 0x0, 0x0, 16, 7, .ro, (.val 0)⟩
/-- ILC_REFUSED, 32 bits. -/
def ILC_REFUSED_COUNT : Fld := ⟨0x1e00008, 0x0, 0x0, 0, 32, .ro, (.val 0)⟩
/-- ILC_REPLACED, 32 bits. -/
def ILC_REPLACED_COUNT : Fld := ⟨0x1e0000c, 0x0, 0x0, 0, 32, .ro, (.val 0)⟩
/-- ILC_GRP_CTRL[g], 1 bit. -/
def ILC_GRP_CTRL_EN : Fld := ⟨0x1e00100, 0x40, 0x0, 0, 1, .rw, (.val 0)⟩
/-- ILC_GRP_CTRL[g], 3 bits. -/
def ILC_GRP_CTRL_STATION : Fld := ⟨0x1e00100, 0x40, 0x0, 1, 3, .rw, (.val 0)⟩
/-- ILC_GRP_CTRL[g], 1 bit. -/
def ILC_GRP_CTRL_MODE : Fld := ⟨0x1e00100, 0x40, 0x0, 4, 1, .rw, (.val 0)⟩
/-- ILC_GRP_CTRL[g], 4 bits. -/
def ILC_GRP_CTRL_LEN_LOG : Fld := ⟨0x1e00100, 0x40, 0x0, 5, 4, .rw, (.val 0)⟩
/-- ILC_GRP_CTRL[g], 4 bits. -/
def ILC_GRP_CTRL_STEP : Fld := ⟨0x1e00100, 0x40, 0x0, 9, 4, .rw, (.val 0)⟩
/-- ILC_GRP_CTRL[g], 1 bit. -/
def ILC_GRP_CTRL_FORCE_OFF : Fld := ⟨0x1e00100, 0x40, 0x0, 16, 1, .rw, (.val 0)⟩
/-- ILC_GRP_CTRL[g], 1 bit. -/
def ILC_GRP_CTRL_OFF_NOW : Fld := ⟨0x1e00100, 0x40, 0x0, 17, 1, .ro, (.val 0)⟩
/-- ILC_GRP_SW[g], 11 bits. -/
def ILC_GRP_SW_FSW : Fld := ⟨0x1e00104, 0x40, 0x0, 0, 11, .rw, (.val 0x1f4)⟩
/-- ILC_GRP_SW[g], 4 bits. -/
def ILC_GRP_SW_DITH : Fld := ⟨0x1e00104, 0x40, 0x0, 16, 4, .rw, (.val 4)⟩
/-- ILC_GRP_SW[g], 6 bits. -/
def ILC_GRP_SW_DRATE : Fld := ⟨0x1e00104, 0x40, 0x0, 24, 6, .rw, (.val 0xa)⟩
/-- ILC_GRP_TIMING[g], 12 bits. -/
def ILC_GRP_TIMING_ONDLY : Fld := ⟨0x1e00108, 0x40, 0x0, 0, 12, .rw, (.val 0x12c)⟩
/-- ILC_GRP_TIMING[g], 12 bits. -/
def ILC_GRP_TIMING_OFFDLY : Fld := ⟨0x1e00108, 0x40, 0x0, 16, 12, .rw, (.val 0xc8)⟩
/-- ILC_GRP_DIAG[g], 13 bits. -/
def ILC_GRP_DIAG_DIAG_W : Fld := ⟨0x1e0010c, 0x40, 0x0, 0, 13, .rw, (.val 0x3e8)⟩
/-- ILC_GRP_DIAG[g], 7 bits. -/
def ILC_GRP_DIAG_INT : Fld := ⟨0x1e0010c, 0x40, 0x0, 16, 7, .rw, (.val 0x10)⟩
/-- ILC_GRP_DIAG[g], 1 bit. -/
def ILC_GRP_DIAG_EN : Fld := ⟨0x1e0010c, 0x40, 0x0, 24, 1, .rw, (.val 1)⟩
/-- ILC_GRP_DIAG[g], 1 bit. -/
def ILC_GRP_DIAG_STARVED : Fld := ⟨0x1e0010c, 0x40, 0x0, 25, 1, .w1c, (.val 0)⟩
/-- ILC_GRP_DIAG[g], 6 bits. -/
def ILC_GRP_DIAG_MINON : Fld := ⟨0x1e0010c, 0x40, 0x0, 26, 6, .rw, (.val 8)⟩
/-- ILC_GRP_RAMP[g], 16 bits. -/
def ILC_GRP_RAMP_R0 : Fld := ⟨0x1e00110, 0x40, 0x0, 0, 16, .rw, (.val 0)⟩
/-- ILC_GRP_RAMP[g], 16 bits. -/
def ILC_GRP_RAMP_R1 : Fld := ⟨0x1e00110, 0x40, 0x0, 16, 16, .rw, (.val 0x8000)⟩
/-- ILC_GRP_BANK[g], 1 bit. -/
def ILC_GRP_BANK_ACTIVE : Fld := ⟨0x1e00114, 0x40, 0x0, 0, 1, .ro, (.val 0)⟩
/-- ILC_GRP_BANK[g], 1 bit. -/
def ILC_GRP_BANK_PENDING : Fld := ⟨0x1e00114, 0x40, 0x0, 1, 1, .ro, (.val 0)⟩
/-- ILC_GRP_BANK[g], 1 bit. -/
def ILC_GRP_BANK_HELD : Fld := ⟨0x1e00114, 0x40, 0x0, 2, 1, .ro, (.val 0)⟩
/-- ILC_GRP_BANK[g], 1 bit. -/
def ILC_GRP_BANK_REPLACED : Fld := ⟨0x1e00114, 0x40, 0x0, 3, 1, .w1c, (.val 0)⟩
/-- ILC_GRP_BANK[g], 1 bit. -/
def ILC_GRP_BANK_RAMP_EN : Fld := ⟨0x1e00114, 0x40, 0x0, 8, 1, .rw, (.val 0)⟩
/-- ILC_GRP_BANK[g], 5 bits. -/
def ILC_GRP_BANK_RLEN : Fld := ⟨0x1e00114, 0x40, 0x0, 9, 5, .rw, (.val 0)⟩
/-- ILC_GRP_BANK[g], 1 bit. -/
def ILC_GRP_BANK_GO : Fld := ⟨0x1e00114, 0x40, 0x0, 31, 1, .wo, (.val 0)⟩
/-- ILC_GRP_SWAP_H_LO[g], 48 bits. -/
def ILC_GRP_SWAP_H : Fld := ⟨0x1e00118, 0x40, 0x0, 0, 48, .rw, (.val 0)⟩
/-- ILC_GRP_TCOMP[g], 1 bit. -/
def ILC_GRP_TCOMP_EN : Fld := ⟨0x1e00120, 0x40, 0x0, 0, 1, .rw, (.val 0)⟩
/-- ILC_GRP_TCOMP[g], 6 bits. -/
def ILC_GRP_TCOMP_ENTRY : Fld := ⟨0x1e00120, 0x40, 0x0, 1, 6, .rw, (.val 0)⟩
/-- ILC_GRP_TCOMP[g], 1 bit. -/
def ILC_GRP_TCOMP_HOLD : Fld := ⟨0x1e00120, 0x40, 0x0, 7, 1, .ro, (.val 0)⟩
/-- ILC_GRP_TCOMP[g], 16 bits. -/
def ILC_GRP_TCOMP_TEMP : Fld := ⟨0x1e00120, 0x40, 0x0, 16, 16, .ro, (.val 0)⟩
/-- ILC_GRP_FAULT[g], 7 bits. -/
def ILC_GRP_FAULT_STRING : Fld := ⟨0x1e00124, 0x40, 0x0, 0, 7, .ro, (.val 0x7f)⟩
/-- ILC_GRP_FAULT[g], 2 bits. -/
def ILC_GRP_FAULT_KIND : Fld := ⟨0x1e00124, 0x40, 0x0, 8, 2, .ro, (.val 0)⟩
/-- ILC_GRP_FAULT[g], 1 bit. -/
def ILC_GRP_FAULT_NEW : Fld := ⟨0x1e00124, 0x40, 0x0, 16, 1, .w1c, (.val 0)⟩
/-- ILC_GRP_FAULT_WPI_LO[g], 48 bits. -/
def ILC_GRP_FAULT_WPI : Fld := ⟨0x1e00128, 0x40, 0x0, 0, 48, .ro, (.val 0)⟩
/-- ILC_COL_PT[c][i], 16 bits. -/
def ILC_COL_PT_GAIN : Fld := ⟨0x1e00400, 0x20, 0x4, 0, 16, .rw, (.val 0x8000)⟩
/-- ILC_COL_PT[c][i], 12 bits. -/
def ILC_COL_PT_TEMP : Fld := ⟨0x1e00400, 0x20, 0x4, 16, 12, .rw, (.val 0)⟩
/-- ILC_STR_CFG[n], 1 bit. -/
def ILC_STR_CFG_EN : Fld := ⟨0x1e01000, 0x10, 0x0, 0, 1, .rw, (.val 0)⟩
/-- ILC_STR_CFG[n], 3 bits. -/
def ILC_STR_CFG_GROUP : Fld := ⟨0x1e01000, 0x10, 0x0, 1, 3, .rw, (.val 0)⟩
/-- ILC_STR_CFG[n], 4 bits. -/
def ILC_STR_CFG_COLOUR : Fld := ⟨0x1e01000, 0x10, 0x0, 4, 4, .rw, (.val 0)⟩
/-- ILC_STR_CFG[n], 16 bits. -/
def ILC_STR_CFG_SHORT_MV : Fld := ⟨0x1e01000, 0x10, 0x0, 16, 16, .rw, (.val 0)⟩
/-- ILC_STR_STATUS[n], 2 bits. -/
def ILC_STR_STATUS_MODE : Fld := ⟨0x1e01004, 0x10, 0x0, 0, 2, .ro, (.val 0)⟩
/-- ILC_STR_STATUS[n], 1 bit. -/
def ILC_STR_STATUS_FAULT : Fld := ⟨0x1e01004, 0x10, 0x0, 2, 1, .w1c, (.val 0)⟩
/-- ILC_STR_STATUS[n], 2 bits. -/
def ILC_STR_STATUS_KIND : Fld := ⟨0x1e01004, 0x10, 0x0, 3, 2, .ro, (.val 0)⟩
/-- ILC_STR_STATUS[n], 3 bits. -/
def ILC_STR_STATUS_FAILS : Fld := ⟨0x1e01004, 0x10, 0x0, 5, 3, .ro, (.val 0)⟩
/-- ILC_STR_STATUS[n], 7 bits. -/
def ILC_STR_STATUS_SINCE : Fld := ⟨0x1e01004, 0x10, 0x0, 8, 7, .ro, (.val 0)⟩
/-- ILC_STR_STATUS[n], 16 bits. -/
def ILC_STR_STATUS_DIAGS : Fld := ⟨0x1e01004, 0x10, 0x0, 16, 16, .ro, (.val 0)⟩
/-- ILC_STR_MEAS[n], 12 bits. -/
def ILC_STR_MEAS_I : Fld := ⟨0x1e01008, 0x10, 0x0, 0, 12, .ro, (.val 0)⟩
/-- ILC_STR_MEAS[n], 16 bits. -/
def ILC_STR_MEAS_V : Fld := ⟨0x1e01008, 0x10, 0x0, 16, 16, .ro, (.val 0)⟩
/-- ILC_STR_APPLIED[n], 16 bits. -/
def ILC_STR_APPLIED_B : Fld := ⟨0x1e0100c, 0x10, 0x0, 0, 16, .ro, (.val 0)⟩
/-- ILC_STR_APPLIED[n], 16 bits. -/
def ILC_STR_APPLIED_COMP : Fld := ⟨0x1e0100c, 0x10, 0x0, 16, 16, .ro, (.val 0x8000)⟩

/-! ### Fields of spec/17_measurement_front_end.md -/

/-- MFE_CTRL, 1 bit. -/
def MFE_CTRL_REF_EN : Fld := ⟨0x1f00000, 0x0, 0x0, 0, 1, .rw, (.val 0)⟩
/-- MFE_CTRL, 1 bit. -/
def MFE_CTRL_SEQ_EN : Fld := ⟨0x1f00000, 0x0, 0x0, 1, 1, .rw, (.val 0)⟩
/-- MFE_CTRL, 16 bits. -/
def MFE_CTRL_RAIL : Fld := ⟨0x1f00000, 0x0, 0x0, 16, 16, .rw, (.val 0x7f00)⟩
/-- MFE_STATUS, 1 bit. -/
def MFE_STATUS_REF_RDY : Fld := ⟨0x1f00004, 0x0, 0x0, 0, 1, .ro, (.val 0)⟩
/-- MFE_STATUS, 2 bits. -/
def MFE_STATUS_STATE : Fld := ⟨0x1f00004, 0x0, 0x0, 1, 2, .ro, (.val 0)⟩
/-- MFE_STATUS, 1 bit. -/
def MFE_STATUS_NO_SPARE : Fld := ⟨0x1f00004, 0x0, 0x0, 3, 1, .ro, (.val 0)⟩
/-- MFE_STATUS, 8 bits. -/
def MFE_STATUS_LAST_STATUS : Fld := ⟨0x1f00004, 0x0, 0x0, 8, 8, .ro, (.val 0)⟩
/-- MFE_STATUS, 5 bits. -/
def MFE_STATUS_GOOD : Fld := ⟨0x1f00004, 0x0, 0x0, 16, 5, .ro, (.val 0x1f)⟩
/-- MFE_STATUS, 3 bits. -/
def MFE_STATUS_SPARE : Fld := ⟨0x1f00004, 0x0, 0x0, 24, 3, .ro, (.val 4)⟩
/-- MFE_SEQ_CTRL, 7 bits. -/
def MFE_SEQ_CTRL_COUNT : Fld := ⟨0x1f00008, 0x0, 0x0, 0, 7, .rw, (.val 0)⟩
/-- MFE_SEQ_CTRL, 8 bits. -/
def MFE_SEQ_CTRL_URG_SLACK : Fld := ⟨0x1f00008, 0x0, 0x0, 8, 8, .rw, (.val 0x10)⟩
/-- MFE_SEQ_PERIOD, 21 bits. -/
def MFE_SEQ_PERIOD_PERIOD : Fld := ⟨0x1f0000c, 0x0, 0x0, 0, 21, .rw, (.val 0x9c40)⟩
/-- MFE_CAL, 16 bits. -/
def MFE_CAL_INT : Fld := ⟨0x1f00010, 0x0, 0x0, 0, 16, .rw, (.val 0x64)⟩
/-- MFE_URGENT, 6 bits. -/
def MFE_URGENT_ENTRY : Fld := ⟨0x1f00014, 0x0, 0x0, 0, 6, .rw, (.val 0)⟩
/-- MFE_URGENT, 3 bits. -/
def MFE_URGENT_QUEUED : Fld := ⟨0x1f00014, 0x0, 0x0, 8, 3, .ro, (.val 0)⟩
/-- MFE_URGENT, 1 bit. -/
def MFE_URGENT_GO : Fld := ⟨0x1f00014, 0x0, 0x0, 31, 1, .wo, (.val 0)⟩
/-- MFE_URG_RES, 32 bits. -/
def MFE_URG_RES_VALUE : Fld := ⟨0x1f00018, 0x0, 0x0, 0, 32, .ro, (.val 0)⟩
/-- MFE_URG_FLAGS, 6 bits. -/
def MFE_URG_FLAGS_ENTRY : Fld := ⟨0x1f0001c, 0x0, 0x0, 0, 6, .ro, (.val 0)⟩
/-- MFE_URG_FLAGS, 1 bit. -/
def MFE_URG_FLAGS_OPEN_WIRE : Fld := ⟨0x1f0001c, 0x0, 0x0, 8, 1, .ro, (.val 0)⟩
/-- MFE_URG_FLAGS, 1 bit. -/
def MFE_URG_FLAGS_OVER : Fld := ⟨0x1f0001c, 0x0, 0x0, 9, 1, .ro, (.val 0)⟩
/-- MFE_URG_FLAGS, 1 bit. -/
def MFE_URG_FLAGS_NEW : Fld := ⟨0x1f0001c, 0x0, 0x0, 10, 1, .w1c, (.val 0)⟩
/-- MFE_LEAF_REFUSED, 32 bits. -/
def MFE_LEAF_REFUSED_COUNT : Fld := ⟨0x1f00020, 0x0, 0x0, 0, 32, .ro, (.val 0)⟩
/-- MFE_REPLACED, 32 bits. -/
def MFE_REPLACED_COUNT : Fld := ⟨0x1f00024, 0x0, 0x0, 0, 32, .ro, (.val 0)⟩
/-- MFE_REC_DROP, 32 bits. -/
def MFE_REC_DROP_COUNT : Fld := ⟨0x1f00028, 0x0, 0x0, 0, 32, .ro, (.val 0)⟩
/-- MFE_EVT_LAST, 6 bits. -/
def MFE_EVT_LAST_INDEX : Fld := ⟨0x1f0002c, 0x0, 0x0, 0, 6, .ro, (.val 0)⟩
/-- MFE_EVT_LAST, 4 bits. -/
def MFE_EVT_LAST_KIND : Fld := ⟨0x1f0002c, 0x0, 0x0, 8, 4, .ro, (.val 0)⟩
/-- MFE_SYNC, 32 bits. -/
def MFE_SYNC_CHAINS : Fld := ⟨0x1f00030, 0x0, 0x0, 0, 32, .wo, (.val 0)⟩
/-- MFE_SLICE[i], 12 bits. -/
def MFE_SLICE_OFFSET : Fld := ⟨0x1f00040, 0x4, 0x0, 0, 12, .ro, (.val 0)⟩
/-- MFE_SLICE[i], 16 bits. -/
def MFE_SLICE_GAIN : Fld := ⟨0x1f00040, 0x4, 0x0, 12, 16, .ro, (.val 0)⟩
/-- MFE_SLICE[i], 2 bits. -/
def MFE_SLICE_ROLE : Fld := ⟨0x1f00040, 0x4, 0x0, 28, 2, .ro, .spareSlice⟩
/-- MFE_ENT_CFG[e], 1 bit. -/
def MFE_ENT_CFG_EN : Fld := ⟨0x1f01000, 0x40, 0x0, 0, 1, .rw, (.val 0)⟩
/-- MFE_ENT_CFG[e], 5 bits. -/
def MFE_ENT_CFG_INPUT : Fld := ⟨0x1f01000, 0x40, 0x0, 1, 5, .rw, (.val 0)⟩
/-- MFE_ENT_CFG[e], 3 bits. -/
def MFE_ENT_CFG_OSR : Fld := ⟨0x1f01000, 0x40, 0x0, 6, 3, .rw, (.val 2)⟩
/-- MFE_ENT_CFG[e], 8 bits. -/
def MFE_ENT_CFG_SETTLE : Fld := ⟨0x1f01000, 0x40, 0x0, 9, 8, .rw, (.val 0xa)⟩
/-- MFE_ENT_CFG[e], 5 bits. -/
def MFE_ENT_CFG_CHAIN : Fld := ⟨0x1f01000, 0x40, 0x0, 17, 5, .rw, (.val 0)⟩
/-- MFE_ENT_CFG[e], 1 bit. -/
def MFE_ENT_CFG_CH_EN : Fld := ⟨0x1f01000, 0x40, 0x0, 22, 1, .rw, (.val 0)⟩
/-- MFE_ENT_CFG[e], 1 bit. -/
def MFE_ENT_CFG_ACC_CLR : Fld := ⟨0x1f01000, 0x40, 0x0, 23, 1, .rw, (.val 0)⟩
/-- MFE_ENT_EXC[e], 2 bits. -/
def MFE_ENT_EXC_RANGE : Fld := ⟨0x1f01004, 0x40, 0x0, 0, 2, .rw, (.val 0)⟩
/-- MFE_ENT_EXC[e], 1 bit. -/
def MFE_ENT_EXC_AUTO : Fld := ⟨0x1f01004, 0x40, 0x0, 2, 1, .rw, (.val 0)⟩
/-- MFE_ENT_EXC[e], 2 bits. -/
def MFE_ENT_EXC_IEXC : Fld := ⟨0x1f01004, 0x40, 0x0, 3, 2, .rw, (.val 0)⟩
/-- MFE_ENT_EXC[e], 1 bit. -/
def MFE_ENT_EXC_WIRE : Fld := ⟨0x1f01004, 0x40, 0x0, 5, 1, .rw, (.val 1)⟩
/-- MFE_ENT_EXC[e], 1 bit. -/
def MFE_ENT_EXC_BO_EN : Fld := ⟨0x1f01004, 0x40, 0x0, 6, 1, .rw, (.val 1)⟩
/-- MFE_ENT_EXC[e], 1 bit. -/
def MFE_ENT_EXC_OUT_T : Fld := ⟨0x1f01004, 0x40, 0x0, 7, 1, .rw, (.val 0)⟩
/-- MFE_ENT_EXC[e], 1 bit. -/
def MFE_ENT_EXC_PT1000 : Fld := ⟨0x1f01004, 0x40, 0x0, 8, 1, .rw, (.val 0)⟩
/-- MFE_ENT_EXC[e], 1 bit. -/
def MFE_ENT_EXC_ATTEN : Fld := ⟨0x1f01004, 0x40, 0x0, 9, 1, .rw, (.val 0)⟩
/-- MFE_ENT_EXC[e], 16 bits. -/
def MFE_ENT_EXC_LEAD_MOHM : Fld := ⟨0x1f01004, 0x40, 0x0, 16, 16, .rw, (.val 0)⟩
/-- MFE_ENT_REC[e], 1 bit. -/
def MFE_ENT_REC_EN : Fld := ⟨0x1f01008, 0x40, 0x0, 0, 1, .rw, (.val 0)⟩
/-- MFE_ENT_REC[e], 3 bits. -/
def MFE_ENT_REC_STATION : Fld := ⟨0x1f01008, 0x40, 0x0, 1, 3, .rw, (.val 0)⟩
/-- MFE_ENT_REC[e], 18 bits. -/
def MFE_ENT_REC_QUEUE : Fld := ⟨0x1f01008, 0x40, 0x0, 4, 18, .rw, (.val 0)⟩
/-- MFE_ENT_REC[e], 4 bits. -/
def MFE_ENT_REC_DEC_LOG : Fld := ⟨0x1f01008, 0x40, 0x0, 24, 4, .rw, (.val 0)⟩
/-- MFE_ENT_STATUS[e], 1 bit. -/
def MFE_ENT_STATUS_OPEN : Fld := ⟨0x1f0100c, 0x40, 0x0, 0, 1, .w1c, (.val 0)⟩
/-- MFE_ENT_STATUS[e], 1 bit. -/
def MFE_ENT_STATUS_SETTLED : Fld := ⟨0x1f0100c, 0x40, 0x0, 1, 1, .ro, (.val 0)⟩
/-- MFE_ENT_STATUS[e], 1 bit. -/
def MFE_ENT_STATUS_SUPPRESSED : Fld := ⟨0x1f0100c, 0x40, 0x0, 2, 1, .ro, (.val 0)⟩
/-- MFE_ENT_STATUS[e], 16 bits. -/
def MFE_ENT_STATUS_RESTARTS : Fld := ⟨0x1f0100c, 0x40, 0x0, 16, 16, .ro, (.val 0)⟩
/-- MFE_RES[e], 32 bits. -/
def MFE_RES_VALUE : Fld := ⟨0x1f01010, 0x40, 0x0, 0, 32, .ro, (.val 0)⟩
/-- MFE_RES_FLAGS[e], 4 bits. -/
def MFE_RES_FLAGS_FLAGS : Fld := ⟨0x1f01014, 0x40, 0x0, 0, 4, .ro, (.val 0)⟩
/-- MFE_RES_FLAGS[e], 2 bits. -/
def MFE_RES_FLAGS_RANGE : Fld := ⟨0x1f01014, 0x40, 0x0, 4, 2, .ro, (.val 0)⟩
/-- MFE_RES_FLAGS[e], 1 bit. -/
def MFE_RES_FLAGS_NEW : Fld := ⟨0x1f01014, 0x40, 0x0, 8, 1, .w1c, (.val 0)⟩
/-- MFE_RES_FLAGS[e], 16 bits. -/
def MFE_RES_FLAGS_SEQ : Fld := ⟨0x1f01014, 0x40, 0x0, 16, 16, .ro, (.val 0)⟩
/-- MFE_LEAD[e], 32 bits. -/
def MFE_LEAD_MOHM : Fld := ⟨0x1f01018, 0x40, 0x0, 0, 32, .ro, (.val 0)⟩
/-- MFE_ACC_SUM_LO[e], 48 bits. -/
def MFE_ACC_SUM : Fld := ⟨0x1f0101c, 0x40, 0x0, 0, 48, .ro, (.val 0)⟩
/-- MFE_ACC_CNT[e], 32 bits. -/
def MFE_ACC_CNT_COUNT : Fld := ⟨0x1f01024, 0x40, 0x0, 0, 32, .ro, (.val 0)⟩
/-- MFE_ACC_MIN[e], 32 bits. -/
def MFE_ACC_MIN_MIN : Fld := ⟨0x1f01028, 0x40, 0x0, 0, 32, .ro, (.val 0x7fffffff)⟩
/-- MFE_ACC_MAX[e], 32 bits. -/
def MFE_ACC_MAX_MAX : Fld := ⟨0x1f0102c, 0x40, 0x0, 0, 32, .ro, (.val 0x80000000)⟩
/-- MFE_CH_CFG[c], 1 bit. -/
def MFE_CH_CFG_NOTCH50 : Fld := ⟨0x1f02000, 0x20, 0x0, 0, 1, .rw, (.val 1)⟩
/-- MFE_CH_CFG[c], 1 bit. -/
def MFE_CH_CFG_NOTCH60 : Fld := ⟨0x1f02000, 0x20, 0x0, 1, 1, .rw, (.val 1)⟩
/-- MFE_CH_CFG[c], 1 bit. -/
def MFE_CH_CFG_SCS : Fld := ⟨0x1f02000, 0x20, 0x0, 2, 1, .rw, (.val 0)⟩
/-- MFE_CH_CFG[c], 3 bits. -/
def MFE_CH_CFG_CLOG : Fld := ⟨0x1f02000, 0x20, 0x0, 3, 3, .rw, (.val 3)⟩
/-- MFE_CH_CFG[c], 6 bits. -/
def MFE_CH_CFG_LEAF : Fld := ⟨0x1f02000, 0x20, 0x0, 8, 6, .rw, (.val 0)⟩
/-- MFE_CH_SWAP[c], 6 bits. -/
def MFE_CH_SWAP_LEAF : Fld := ⟨0x1f02004, 0x20, 0x0, 0, 6, .rw, (.val 0)⟩
/-- MFE_CH_SWAP[c], 4 bits. -/
def MFE_CH_SWAP_FADE : Fld := ⟨0x1f02004, 0x20, 0x0, 8, 4, .rw, (.val 4)⟩
/-- MFE_CH_SWAP[c], 1 bit. -/
def MFE_CH_SWAP_REPLACED : Fld := ⟨0x1f02004, 0x20, 0x0, 28, 1, .w1c, (.val 0)⟩
/-- MFE_CH_SWAP[c], 1 bit. -/
def MFE_CH_SWAP_PENDING : Fld := ⟨0x1f02004, 0x20, 0x0, 29, 1, .ro, (.val 0)⟩
/-- MFE_CH_SWAP[c], 1 bit. -/
def MFE_CH_SWAP_FADING : Fld := ⟨0x1f02004, 0x20, 0x0, 30, 1, .ro, (.val 0)⟩
/-- MFE_CH_SWAP[c], 1 bit. -/
def MFE_CH_SWAP_GO : Fld := ⟨0x1f02004, 0x20, 0x0, 31, 1, .wo, (.val 0)⟩
/-- MFE_CH_STATUS[c], 16 bits. -/
def MFE_CH_STATUS_COUNT : Fld := ⟨0x1f02008, 0x20, 0x0, 0, 16, .ro, (.val 0)⟩
/-- MFE_CH_STATUS[c], 16 bits. -/
def MFE_CH_STATUS_S : Fld := ⟨0x1f02008, 0x20, 0x0, 16, 16, .ro, (.val 0)⟩
/-- MFE_CH_COARSE[c], 32 bits. -/
def MFE_CH_COARSE_VALUE : Fld := ⟨0x1f0200c, 0x20, 0x0, 0, 32, .ro, (.val 0)⟩
/-- MFE_OUT_CFG[o], 1 bit. -/
def MFE_OUT_CFG_EN : Fld := ⟨0x1f02800, 0x20, 0x0, 0, 1, .rw, (.val 0)⟩
/-- MFE_OUT_CFG[o], 1 bit. -/
def MFE_OUT_CFG_MODE : Fld := ⟨0x1f02800, 0x20, 0x0, 1, 1, .rw, (.val 0)⟩
/-- MFE_OUT_CFG[o], 6 bits. -/
def MFE_OUT_CFG_ENTRY : Fld := ⟨0x1f02800, 0x20, 0x0, 2, 6, .rw, (.val 0)⟩
/-- MFE_OUT_CFG[o], 2 bits. -/
def MFE_OUT_CFG_FAIL : Fld := ⟨0x1f02800, 0x20, 0x0, 8, 2, .rw, (.val 0)⟩
/-- MFE_OUT_LO[o], 32 bits. -/
def MFE_OUT_LO_LO : Fld := ⟨0x1f02804, 0x20, 0x0, 0, 32, .rw, (.val 0)⟩
/-- MFE_OUT_HI[o], 32 bits. -/
def MFE_OUT_HI_HI : Fld := ⟨0x1f02808, 0x20, 0x0, 0, 32, .rw, (.val 0)⟩
/-- MFE_OUT_F[o], 16 bits. -/
def MFE_OUT_F_F_A : Fld := ⟨0x1f0280c, 0x20, 0x0, 0, 16, .rw, (.val 0)⟩
/-- MFE_OUT_F[o], 16 bits. -/
def MFE_OUT_F_FMAX : Fld := ⟨0x1f0280c, 0x20, 0x0, 16, 16, .rw, (.val 0)⟩

/-! ### Fields of spec/18_motion.md -/

/-- TTC_CTRL, 1 bit. -/
def TTC_CTRL_SSC : Fld := ⟨0x2000000, 0x0, 0x0, 1, 1, .rw, (.val 1)⟩
/-- TTC_STATUS, 8 bits. -/
def TTC_STATUS_LAST_STATUS : Fld := ⟨0x2000004, 0x0, 0x0, 0, 8, .ro, (.val 0)⟩
/-- TTC_LIN, 4 bits. -/
def TTC_LIN_MASK : Fld := ⟨0x2000008, 0x0, 0x0, 0, 4, .rw, (.val 0)⟩
/-- TTC_LIN, 1 bit. -/
def TTC_LIN_GO : Fld := ⟨0x2000008, 0x0, 0x0, 31, 1, .wo, (.val 0)⟩
/-- TTC_AX_CTRL[a], 1 bit. -/
def TTC_AX_CTRL_EN : Fld := ⟨0x2000100, 0x40, 0x0, 0, 1, .rw, (.val 0)⟩
/-- TTC_AX_CTRL[a], 2 bits. -/
def TTC_AX_CTRL_HOLD_MODE : Fld := ⟨0x2000100, 0x40, 0x0, 1, 2, .rw, (.val 0)⟩
/-- TTC_AX_CTRL[a], 2 bits. -/
def TTC_AX_CTRL_FAULT_MODE : Fld := ⟨0x2000100, 0x40, 0x0, 3, 2, .rw, (.val 3)⟩
/-- TTC_AX_CTRL[a], 1 bit. -/
def TTC_AX_CTRL_ADAPT : Fld := ⟨0x2000100, 0x40, 0x0, 5, 1, .rw, (.val 1)⟩
/-- TTC_AX_CTRL[a], 2 bits. -/
def TTC_AX_CTRL_ENC : Fld := ⟨0x2000100, 0x40, 0x0, 6, 2, .rw, (.val 0)⟩
/-- TTC_AX_CTRL[a], 1 bit. -/
def TTC_AX_CTRL_ENC_EN : Fld := ⟨0x2000100, 0x40, 0x0, 8, 1, .rw, (.val 0)⟩
/-- TTC_AX_CTRL[a], 8 bits. -/
def TTC_AX_CTRL_SETTLE : Fld := ⟨0x2000100, 0x40, 0x0, 16, 8, .rw, (.val 0x20)⟩
/-- TTC_AX_CTRL[a], 8 bits. -/
def TTC_AX_CTRL_TOL : Fld := ⟨0x2000100, 0x40, 0x0, 24, 8, .rw, (.val 2)⟩
/-- TTC_AX_RATIO[a], 32 bits. -/
def TTC_AX_RATIO_RATIO : Fld := ⟨0x2000104, 0x40, 0x0, 0, 32, .rw, (.val 0x100000)⟩
/-- TTC_AX_VMAX[a], 24 bits. -/
def TTC_AX_VMAX_VMAX : Fld := ⟨0x2000108, 0x40, 0x0, 0, 24, .rw, (.val 0x100000)⟩
/-- TTC_AX_AMAX[a], 32 bits. -/
def TTC_AX_AMAX_AMAX : Fld := ⟨0x200010c, 0x40, 0x0, 0, 32, .rw, (.val 0)⟩
/-- TTC_AX_JMAX[a], 32 bits. -/
def TTC_AX_JMAX_JMAX : Fld := ⟨0x2000110, 0x40, 0x0, 0, 32, .rw, (.val 0)⟩
/-- TTC_AX_VSCAN[a], 24 bits. -/
def TTC_AX_VSCAN_VSCAN : Fld := ⟨0x2000114, 0x40, 0x0, 0, 24, .rw, (.val 0)⟩
/-- TTC_AX_CUR[a], 8 bits. -/
def TTC_AX_CUR_IRUN_MIN : Fld := ⟨0x2000118, 0x40, 0x0, 0, 8, .rw, (.val 0x40)⟩
/-- TTC_AX_CUR[a], 8 bits. -/
def TTC_AX_CUR_IRUN_MAX : Fld := ⟨0x2000118, 0x40, 0x0, 8, 8, .rw, (.val 0xc0)⟩
/-- TTC_AX_CUR[a], 8 bits. -/
def TTC_AX_CUR_IHOLD : Fld := ⟨0x2000118, 0x40, 0x0, 16, 8, .rw, (.val 0x20)⟩
/-- TTC_AX_CUR[a], 8 bits. -/
def TTC_AX_CUR_HOLD_MS : Fld := ⟨0x2000118, 0x40, 0x0, 24, 8, .rw, (.val 0x64)⟩
/-- TTC_AX_LOAD[a], 10 bits. -/
def TTC_AX_LOAD_LOAD_LO : Fld := ⟨0x200011c, 0x40, 0x0, 0, 10, .rw, (.val 0x100)⟩
/-- TTC_AX_LOAD[a], 10 bits. -/
def TTC_AX_LOAD_LOAD_HI : Fld := ⟨0x200011c, 0x40, 0x0, 16, 10, .rw, (.val 0x300)⟩
/-- TTC_AX_TARGET_LO[a], 48 bits. -/
def TTC_AX_TARGET_TARGET : Fld := ⟨0x2000120, 0x40, 0x0, 0, 48, .rw, (.val 0)⟩
/-- TTC_AX_VEL[a], 25 bits. -/
def TTC_AX_VEL_VEL : Fld := ⟨0x2000128, 0x40, 0x0, 0, 25, .rw, (.val 0)⟩
/-- TTC_AX_CMD[a], 2 bits. -/
def TTC_AX_CMD_OP : Fld := ⟨0x200012c, 0x40, 0x0, 0, 2, .rw, (.val 0)⟩
/-- TTC_AX_CMD[a], 1 bit. -/
def TTC_AX_CMD_GO : Fld := ⟨0x200012c, 0x40, 0x0, 31, 1, .wo, (.val 0)⟩
/-- TTC_AX_STATUS[a], 3 bits. -/
def TTC_AX_STATUS_STATE : Fld := ⟨0x2000130, 0x40, 0x0, 0, 3, .ro, (.val 0)⟩
/-- TTC_AX_STATUS[a], 1 bit. -/
def TTC_AX_STATUS_PACED : Fld := ⟨0x2000130, 0x40, 0x0, 3, 1, .ro, (.val 0)⟩
/-- TTC_AX_STATUS[a], 1 bit. -/
def TTC_AX_STATUS_INPOS : Fld := ⟨0x2000130, 0x40, 0x0, 4, 1, .w1c, (.val 0)⟩
/-- TTC_AX_STATUS[a], 1 bit. -/
def TTC_AX_STATUS_FAULT : Fld := ⟨0x2000130, 0x40, 0x0, 5, 1, .w1c, (.val 0)⟩
/-- TTC_AX_STATUS[a], 3 bits. -/
def TTC_AX_STATUS_KIND : Fld := ⟨0x2000130, 0x40, 0x0, 6, 3, .ro, (.val 0)⟩
/-- TTC_AX_STATUS[a], 8 bits. -/
def TTC_AX_STATUS_LAST_STATUS : Fld := ⟨0x2000130, 0x40, 0x0, 16, 8, .ro, (.val 0)⟩
/-- TTC_AX_STATUS[a], 8 bits. -/
def TTC_AX_STATUS_CURRENT : Fld := ⟨0x2000130, 0x40, 0x0, 24, 8, .ro, (.val 0)⟩
/-- TTC_AX_POS_LO[a], 48 bits. -/
def TTC_AX_POS : Fld := ⟨0x2000134, 0x40, 0x0, 0, 48, .ro, (.val 0)⟩
/-- TTC_AX_DRV[a], 10 bits. -/
def TTC_AX_DRV_LOAD : Fld := ⟨0x200013c, 0x40, 0x0, 0, 10, .ro, (.val 0)⟩
/-- TTC_AX_DRV[a], 6 bits. -/
def TTC_AX_DRV_FLAGS : Fld := ⟨0x200013c, 0x40, 0x0, 10, 6, .ro, (.val 0)⟩
/-- TTC_AX_DRV[a], 8 bits. -/
def TTC_AX_DRV_TEMP : Fld := ⟨0x200013c, 0x40, 0x0, 16, 8, .ro, (.val 0)⟩
/-- TTC_AX_DRV[a], 8 bits. -/
def TTC_AX_DRV_BADFR : Fld := ⟨0x200013c, 0x40, 0x0, 24, 8, .ro, (.val 0)⟩

/-! ### Fields of spec/19_thermal.md -/

/-- THM_CTRL, 4 bits. -/
def THM_CTRL_TMIN : Fld := ⟨0x100000, 0x0, 0x0, 0, 4, .rws, (.val 4)⟩
/-- THM_CTRL, 4 bits. -/
def THM_CTRL_TMAX : Fld := ⟨0x100000, 0x0, 0x0, 4, 4, .rws, (.val 0xf)⟩
/-- THM_CTRL, 8 bits. -/
def THM_CTRL_STEP_MS : Fld := ⟨0x100000, 0x0, 0x0, 8, 8, .rws, (.val 0xa)⟩
/-- THM_CTRL, 8 bits. -/
def THM_CTRL_HYST : Fld := ⟨0x100000, 0x0, 0x0, 16, 8, .rws, (.val 0x10)⟩
/-- THM_THR_WARN, 16 bits. -/
def THM_THR_WARN_LEVEL : Fld := ⟨0x100004, 0x0, 0x0, 0, 16, .rws, (.val 0x320)⟩
/-- THM_THR_THROT, 16 bits. -/
def THM_THR_THROT_LEVEL : Fld := ⟨0x100008, 0x0, 0x0, 0, 16, .rws, (.val 0x348)⟩
/-- THM_THR_SHUT, 16 bits. -/
def THM_THR_SHUT_LEVEL : Fld := ⟨0x10000c, 0x0, 0x0, 0, 16, .ro, (.val 0x398)⟩
/-- THM_STATUS, 16 bits. -/
def THM_STATUS_MAX : Fld := ⟨0x100010, 0x0, 0x0, 0, 16, .ro, (.val 0)⟩
/-- THM_STATUS, 5 bits. -/
def THM_STATUS_MAX_SNS : Fld := ⟨0x100010, 0x0, 0x0, 16, 5, .ro, (.val 0)⟩
/-- THM_STATUS, 1 bit. -/
def THM_STATUS_WARN : Fld := ⟨0x100010, 0x0, 0x0, 21, 1, .ro, (.val 0)⟩
/-- THM_STATUS, 1 bit. -/
def THM_STATUS_THROT : Fld := ⟨0x100010, 0x0, 0x0, 22, 1, .ro, (.val 0)⟩
/-- THM_STATUS, 1 bit. -/
def THM_STATUS_TRIP : Fld := ⟨0x100010, 0x0, 0x0, 23, 1, .ro, (.val 0)⟩
/-- THM_STATUS, 4 bits. -/
def THM_STATUS_LEVEL : Fld := ⟨0x100010, 0x0, 0x0, 24, 4, .ro, (.val 0)⟩
/-- THM_STATUS, 4 bits. -/
def THM_STATUS_LAST_STATUS : Fld := ⟨0x100010, 0x0, 0x0, 28, 4, .ro, (.val 0)⟩
/-- THM_FAIL, 24 bits. -/
def THM_FAIL_MASK : Fld := ⟨0x100014, 0x0, 0x0, 0, 24, .w1c, (.val 0)⟩
/-- THM_FAIL, 5 bits. -/
def THM_FAIL_COUNT : Fld := ⟨0x100014, 0x0, 0x0, 24, 5, .ro, (.val 0)⟩
/-- THM_TRIM, 16 bits. -/
def THM_TRIM_CODE : Fld := ⟨0x100018, 0x0, 0x0, 0, 16, .ro, (.val 0)⟩
/-- THM_TRIM, 1 bit. -/
def THM_TRIM_HOLD : Fld := ⟨0x100018, 0x0, 0x0, 16, 1, .ro, (.val 0)⟩
/-- THM_SNS[i], 16 bits. -/
def THM_SNS_TEMP : Fld := ⟨0x100100, 0x4, 0x0, 0, 16, .ro, (.val 0)⟩
/-- THM_SNS[i], 1 bit. -/
def THM_SNS_VALID : Fld := ⟨0x100100, 0x4, 0x0, 16, 1, .ro, (.val 0)⟩
/-- THM_SNS[i], 1 bit. -/
def THM_SNS_FAILED : Fld := ⟨0x100100, 0x4, 0x0, 17, 1, .ro, (.val 0)⟩
/-- THM_RO_CTRL, 1 bit. -/
def THM_RO_CTRL_EN : Fld := ⟨0x100200, 0x0, 0x0, 0, 1, .rw, (.val 1)⟩
/-- THM_RO_CTRL, 2 bits. -/
def THM_RO_CTRL_WIN : Fld := ⟨0x100200, 0x0, 0x0, 8, 2, .rw, (.val 0)⟩
/-- THM_RO_COUNT[i], 16 bits. -/
def THM_RO_COUNT_COUNT : Fld := ⟨0x100204, 0x4, 0x0, 0, 16, .ro, (.val 0)⟩
/-- THM_RO_COUNT[i], 1 bit. -/
def THM_RO_COUNT_NEW : Fld := ⟨0x100204, 0x4, 0x0, 31, 1, .w1c, (.val 0)⟩

/-! ### Fields of spec/20_security.md -/

/-- SMC_ID_SERIAL_LO, 64 bits. -/
def SMC_ID_SERIAL : Fld := ⟨0x0, 0x0, 0x0, 0, 64, .ro, (.val Config.fuseSerial)⟩
/-- SMC_ID_REV, 32 bits. -/
def SMC_ID_REV_REV : Fld := ⟨0x8, 0x0, 0x0, 0, 32, .ro, (.val Config.fuseRev)⟩
/-- SMC_ID_CFG, 2 bits. -/
def SMC_ID_CFG_GRADE : Fld := ⟨0xc, 0x0, 0x0, 0, 2, .ro, (.val Config.fuseGrade)⟩
/-- SMC_ID_CFG, 2 bits. -/
def SMC_ID_CFG_OWNER : Fld := ⟨0xc, 0x0, 0x0, 4, 2, .ro, (.val Config.fuseOwner)⟩
/-- SMC_ID_MAC_LO, 48 bits. -/
def SMC_ID_MAC_MAC : Fld := ⟨0x10, 0x0, 0x0, 0, 48, .ro, (.val Config.fuseMac)⟩
/-- SMC_ID_KEYDIG[i], 32 bits. -/
def SMC_ID_KEYDIG_DIGEST : Fld := ⟨0x20, 0x4, 0x0, 0, 32, .ro, .keyDigest⟩
/-- SMC_OWNER_DIG[i], 32 bits. -/
def SMC_OWNER_DIG_DIGEST : Fld := ⟨0x60, 0x4, 0x0, 0, 32, .ro, .ownerDigest⟩
/-- SMC_POLICY, 1 bit. -/
def SMC_POLICY_ALLOW_UNTESTED : Fld := ⟨0x100, 0x0, 0x0, 0, 1, .rws, (.val 0)⟩
/-- SMC_POLICY, 1 bit. -/
def SMC_POLICY_POLICY_SRC : Fld := ⟨0x100, 0x0, 0x0, 1, 1, .ro, (.val 0)⟩
/-- SMC_POLICY, 1 bit. -/
def SMC_POLICY_UNV_CAB : Fld := ⟨0x100, 0x0, 0x0, 8, 1, .ro, (.val 0)⟩
/-- SMC_POLICY, 1 bit. -/
def SMC_POLICY_UNV_WB : Fld := ⟨0x100, 0x0, 0x0, 9, 1, .ro, (.val 0)⟩
/-- SMC_POLICY, 1 bit. -/
def SMC_POLICY_UNV_IMG : Fld := ⟨0x100, 0x0, 0x0, 10, 1, .ro, (.val 0)⟩
/-- SMC_POLICY, 1 bit. -/
def SMC_POLICY_UNVERIFIED_COMBO : Fld := ⟨0x100, 0x0, 0x0, 11, 1, .ro, (.val 0)⟩
/-- SMC_FW_STATUS, 1 bit. -/
def SMC_FW_STATUS_CAB_COPY : Fld := ⟨0x104, 0x0, 0x0, 0, 1, .ro, (.val 0)⟩
/-- SMC_FW_STATUS, 3 bits. -/
def SMC_FW_STATUS_WB_STATE : Fld := ⟨0x104, 0x0, 0x0, 4, 3, .ro, (.val 0)⟩
/-- SMC_FW_STATUS, 8 bits. -/
def SMC_FW_STATUS_LAST_STATUS : Fld := ⟨0x104, 0x0, 0x0, 8, 8, .ro, (.val 0)⟩
/-- SMC_FW_CAB_VER, 32 bits. -/
def SMC_FW_CAB_VER_VER : Fld := ⟨0x108, 0x0, 0x0, 0, 32, .ro, (.val 0)⟩
/-- SMC_FW_WB_VER, 32 bits. -/
def SMC_FW_WB_VER_VER : Fld := ⟨0x10c, 0x0, 0x0, 0, 32, .ro, (.val 0)⟩
/-- SMC_FW_SVN, 6 bits. -/
def SMC_FW_SVN_CAB : Fld := ⟨0x110, 0x0, 0x0, 0, 6, .ro, (.val Config.fuseCabSvn)⟩
/-- SMC_FW_SVN, 6 bits. -/
def SMC_FW_SVN_WB : Fld := ⟨0x110, 0x0, 0x0, 8, 6, .ro, (.val Config.fuseWbSvn)⟩
/-- SMC_WMAP_STATUS, 8 bits. -/
def SMC_WMAP_STATUS_LAST_STATUS : Fld := ⟨0x2000, 0x0, 0x0, 0, 8, .ro, (.val 0)⟩
/-- SMC_WMAP_STATUS, 16 bits. -/
def SMC_WMAP_STATUS_REFUSED : Fld := ⟨0x2000, 0x0, 0x0, 16, 16, .ro, (.val 0)⟩
/-- SMC_WMAP_BLK, 11 bits. -/
def SMC_WMAP_BLK_BLOCKS : Fld := ⟨0x2004, 0x0, 0x0, 0, 11, .rws, (.val 0)⟩
/-- SMC_WMAP_ETH, 4 bits. -/
def SMC_WMAP_ETH_PORTS : Fld := ⟨0x2008, 0x0, 0x0, 0, 4, .rws, (.val 0)⟩
/-- SMC_WMAP_PORT[i], 32 bits. -/
def SMC_WMAP_PORT_MAP : Fld := ⟨0x2010, 0x4, 0x0, 0, 32, .rws, (.val 0)⟩
/-- SMC_WMAP_QR[i], 32 bits. -/
def SMC_WMAP_QR_MAP : Fld := ⟨0x2020, 0x4, 0x0, 0, 32, .rws, (.val 0)⟩
/-- SMC_WMAP_ENG[i], 32 bits. -/
def SMC_WMAP_ENG_MAP : Fld := ⟨0x2040, 0x4, 0x0, 0, 32, .rws, (.val 0)⟩
/-- SMC_WMAP_OC[i], 32 bits. -/
def SMC_WMAP_OC_MAP : Fld := ⟨0x2200, 0x4, 0x0, 0, 32, .rws, (.val 0)⟩
/-- SMC_WMAP_HBM[i], 32 bits. -/
def SMC_WMAP_HBM_MAP : Fld := ⟨0x6000, 0x4, 0x0, 0, 32, .rws, .hbmMap⟩
/-- SMC_XW_LOG, 2 bits. -/
def SMC_XW_LOG_SOURCE : Fld := ⟨0x2100, 0x0, 0x0, 0, 2, .ro, (.val 0)⟩
/-- SMC_XW_LOG, 1 bit. -/
def SMC_XW_LOG_WRITE : Fld := ⟨0x2100, 0x0, 0x0, 2, 1, .ro, (.val 0)⟩
/-- SMC_XW_COUNT, 32 bits. -/
def SMC_XW_COUNT_COUNT : Fld := ⟨0x2104, 0x0, 0x0, 0, 32, .ro, (.val 0)⟩
/-- SMC_XW_ADDR, 32 bits. -/
def SMC_XW_ADDR_ADDR : Fld := ⟨0x2108, 0x0, 0x0, 0, 32, .ro, (.val 0)⟩
/-- SMC_MEAS_SEL, 8 bits. -/
def SMC_MEAS_SEL_INDEX : Fld := ⟨0x3000, 0x0, 0x0, 0, 8, .rw, (.val 1)⟩
/-- SMC_MEAS_DATA[i], 32 bits. -/
def SMC_MEAS_DATA_DIGEST : Fld := ⟨0x3004, 0x4, 0x0, 0, 32, .ro, (.val 0)⟩
/-- SMC_PMB_CFG, 7 bits. -/
def SMC_PMB_CFG_ADDR : Fld := ⟨0x4100, 0x0, 0x0, 0, 7, .rws, (.val 0x40)⟩
/-- SMC_PMB_CFG, 8 bits. -/
def SMC_PMB_CFG_PAGE : Fld := ⟨0x4100, 0x0, 0x0, 8, 8, .rws, (.val 0)⟩
/-- SMC_PMB_CFG, 1 bit. -/
def SMC_PMB_CFG_PAGE_EN : Fld := ⟨0x4100, 0x0, 0x0, 16, 1, .rws, (.val 0)⟩
/-- SMC_PMB_CFG, 1 bit. -/
def SMC_PMB_CFG_PEC : Fld := ⟨0x4100, 0x0, 0x0, 17, 1, .rws, (.val 1)⟩
/-- SMC_PMB_STATUS, 16 bits. -/
def SMC_PMB_STATUS_WORD : Fld := ⟨0x4104, 0x0, 0x0, 0, 16, .ro, (.val 0)⟩
/-- SMC_PMB_STATUS, 1 bit. -/
def SMC_PMB_STATUS_ERR : Fld := ⟨0x4104, 0x0, 0x0, 16, 1, .w1c, (.val 0)⟩
/-- SMC_PMB_STATUS, 1 bit. -/
def SMC_PMB_STATUS_MODE_ERR : Fld := ⟨0x4104, 0x0, 0x0, 17, 1, .ro, (.val 0)⟩
/-- SMC_PMB_STATUS, 1 bit. -/
def SMC_PMB_STATUS_ALERT : Fld := ⟨0x4104, 0x0, 0x0, 18, 1, .w1c, (.val 0)⟩
/-- SMC_PMB_STATUS, 12 bits. -/
def SMC_PMB_STATUS_VREAD : Fld := ⟨0x4104, 0x0, 0x0, 20, 12, .ro, (.val 0)⟩
/-- SMC_MCTP_CFG, 7 bits. -/
def SMC_MCTP_CFG_ADDR : Fld := ⟨0x4200, 0x0, 0x0, 0, 7, .rws, (.val 0x1d)⟩

/-! ### Fields of spec/21_control_and_states.md -/

/-- SMC_DEV_STATE, 4 bits. -/
def SMC_DEV_STATE_STATE : Fld := ⟨0x5000, 0x0, 0x0, 0, 4, .ro, (.val 2)⟩
/-- SMC_FAULT, 4 bits. -/
def SMC_FAULT_CAUSE : Fld := ⟨0x5004, 0x0, 0x0, 0, 4, .ro, (.val 0)⟩
/-- SMC_FAULT, 3 bits. -/
def SMC_FAULT_STATION : Fld := ⟨0x5004, 0x0, 0x0, 4, 3, .ro, (.val 7)⟩
/-- SMC_FAULT, 1 bit. -/
def SMC_FAULT_NEW : Fld := ⟨0x5004, 0x0, 0x0, 8, 1, .w1c, (.val 0)⟩
/-- SMC_FAULT_WPI_LO, 48 bits. -/
def SMC_FAULT_WPI : Fld := ⟨0x5008, 0x0, 0x0, 0, 48, .ro, (.val 0)⟩
/-- SMC_ST_STATE[s], 3 bits. -/
def SMC_ST_STATE_STATE : Fld := ⟨0x5040, 0x4, 0x0, 0, 3, .ro, (.val 0)⟩
/-- SMC_ST_STATE[s], 1 bit. -/
def SMC_ST_STATE_CLASS : Fld := ⟨0x5040, 0x4, 0x0, 4, 1, .ro, (.val 0)⟩
/-- SMC_ST_STATE[s], 4 bits. -/
def SMC_ST_STATE_K : Fld := ⟨0x5040, 0x4, 0x0, 8, 4, .ro, (.val 6)⟩
/-- SMC_ST_STATE[s], 1 bit. -/
def SMC_ST_STATE_HOLD : Fld := ⟨0x5040, 0x4, 0x0, 12, 1, .ro, (.val 0)⟩
/-- SMC_ST_STATE[s], 1 bit. -/
def SMC_ST_STATE_STAGED : Fld := ⟨0x5040, 0x4, 0x0, 13, 1, .ro, (.val 0)⟩
/-- SMC_MB_CMD_HEAD[r], 7 bits. -/
def SMC_MB_CMD_HEAD_HEAD : Fld := ⟨0x5100, 0x20, 0x0, 0, 7, .ro, (.val 0)⟩
/-- SMC_MB_CMD_TAIL[r], 7 bits. -/
def SMC_MB_CMD_TAIL_TAIL : Fld := ⟨0x5104, 0x20, 0x0, 0, 7, .rw, (.val 0)⟩
/-- SMC_MB_RSP_HEAD[r], 7 bits. -/
def SMC_MB_RSP_HEAD_HEAD : Fld := ⟨0x5108, 0x20, 0x0, 0, 7, .rw, (.val 0)⟩
/-- SMC_MB_RSP_TAIL[r], 7 bits. -/
def SMC_MB_RSP_TAIL_TAIL : Fld := ⟨0x510c, 0x20, 0x0, 0, 7, .ro, (.val 0)⟩
/-- SMC_MB_STATUS[r], 1 bit. -/
def SMC_MB_STATUS_BUSY : Fld := ⟨0x5110, 0x20, 0x0, 0, 1, .ro, (.val 0)⟩
/-- SMC_MB_STATUS[r], 1 bit. -/
def SMC_MB_STATUS_WAIT_RSP : Fld := ⟨0x5110, 0x20, 0x0, 1, 1, .ro, (.val 0)⟩
/-- SMC_MB_STATUS[r], 8 bits. -/
def SMC_MB_STATUS_LAST_STATUS : Fld := ⟨0x5110, 0x20, 0x0, 8, 8, .ro, (.val 0)⟩
/-- SMC_MB_STATUS[r], 16 bits. -/
def SMC_MB_STATUS_LAST_OP : Fld := ⟨0x5110, 0x20, 0x0, 16, 16, .ro, (.val 0)⟩
/-- SMC_MB_REFUSED[r][c], 32 bits. -/
def SMC_MB_REFUSED_COUNT : Fld := ⟨0x5200, 0x40, 0x4, 0, 32, .ro, (.val 0)⟩
/-- SMC_REG_REFUSED[w][c], 32 bits. -/
def SMC_REG_REFUSED_COUNT : Fld := ⟨0x5300, 0x40, 0x4, 0, 32, .ro, (.val 0)⟩

/-! ### Fields of spec/22_startup.md -/

/-- SMC_BOOT_STATUS, 4 bits. -/
def SMC_BOOT_STATUS_STEP : Fld := ⟨0x5400, 0x0, 0x0, 0, 4, .ro, (.val 0)⟩
/-- SMC_BOOT_STATUS, 4 bits. -/
def SMC_BOOT_STATUS_HBM_OK : Fld := ⟨0x5400, 0x0, 0x0, 4, 4, .ro, (.val 0)⟩
/-- SMC_BOOT_STATUS, 1 bit. -/
def SMC_BOOT_STATUS_HBM_FAIL : Fld := ⟨0x5400, 0x0, 0x0, 8, 1, .ro, (.val 0)⟩
/-- SMC_BOOT_STATUS, 1 bit. -/
def SMC_BOOT_STATUS_VCORE_FAIL : Fld := ⟨0x5400, 0x0, 0x0, 9, 1, .ro, (.val 0)⟩
/-- SMC_BOOT_STATUS, 16 bits. -/
def SMC_BOOT_STATUS_BASE_TEMP : Fld := ⟨0x5400, 0x0, 0x0, 16, 16, .ro, (.val 0)⟩
/-- SMC_BOOT_TIME, 16 bits. -/
def SMC_BOOT_TIME_MS : Fld := ⟨0x5404, 0x0, 0x0, 0, 16, .ro, (.val 0)⟩

/-! ### Fields of spec/23_electrical_package.md -/

/-- SMC_PAD_SLEW, 2 bits. -/
def SMC_PAD_SLEW_ILC : Fld := ⟨0x7000, 0x0, 0x0, 0, 2, .rws, (.val 2)⟩
/-- SMC_PAD_SLEW, 2 bits. -/
def SMC_PAD_SLEW_MOT : Fld := ⟨0x7000, 0x0, 0x0, 2, 2, .rws, (.val 1)⟩
/-- SMC_PAD_SLEW, 2 bits. -/
def SMC_PAD_SLEW_FOUT : Fld := ⟨0x7000, 0x0, 0x0, 4, 2, .rws, (.val 0)⟩
/-- SMC_PAD_SLEW, 2 bits. -/
def SMC_PAD_SLEW_XSPI : Fld := ⟨0x7000, 0x0, 0x0, 6, 2, .rws, (.val 3)⟩
/-- SMC_PAD_SLEW, 2 bits. -/
def SMC_PAD_SLEW_CONSOLE : Fld := ⟨0x7000, 0x0, 0x0, 8, 2, .rws, (.val 1)⟩
/-- SMC_PAD_GLITCH, 10 bits. -/
def SMC_PAD_GLITCH_ALERT : Fld := ⟨0x7004, 0x0, 0x0, 0, 10, .rws, (.val 0x64)⟩
/-- SMC_PAD_GLITCH, 10 bits. -/
def SMC_PAD_GLITCH_RXD : Fld := ⟨0x7004, 0x0, 0x0, 16, 10, .rws, (.val 0x14)⟩
/-- SMC_PAD_STATUS, 8 bits. -/
def SMC_PAD_STATUS_LAST_STATUS : Fld := ⟨0x7008, 0x0, 0x0, 0, 8, .ro, (.val 0)⟩

end Sys2Proof.Machine.R
end

