-- ==== Sys2Proof/Machine/RegTable.lean ====
section
/-! DEFINITION. The registers of the control space, by absolute offset (R575), and the fields each 32-bit word shows. -/

namespace Sys2Proof.Machine

/-- The registers of R575, under the names of the manual. -/
inductive RegId where
  | SCU_PACE_CTRL | SCU_PACE_HS_LO | SCU_PACE_HS_HI | SCU_PACE_BUSY_LO | SCU_PACE_BUSY_HI | SCU_PACE_RATE 
  | SCU_ADM_STATUS | SCU_ADM_CAP | SCU_ADM_LOAD | SCU_ADM_COUNT | SMC_VFIT_CTRL | SMC_VFIT_LIMITS 
  | SMC_VFIT_STATUS | HLF_CTRL | HLF_PRBS_CFG | HLF_TIMER_CFG | HLF_CFG_ADDR | HLF_CFG_DATA | HLF_CFG_CMD 
  | HLF_PORT_CTRL | HLF_PORT_STATE | HLF_PORT_MODE | HLF_PORT_GEOM | HLF_PORT_ID_LO | HLF_PORT_ID_HI 
  | HLF_PORT_FW | HLF_PORT_VENDOR | HLF_LANE_STATUS | HLF_LANE_CRC | HLF_LANE_REPLAY | HLF_LANE_PRBS 
  | HLF_LANE_CREDIT | HLF_LANE_AUDIT | HLF_LANE_DROP | LTU_CTRL | LTU_REF_STATUS | LTU_TCOMP_CTRL | LTU_TCOMP_PT 
  | LTU_ENC_CFG | LTU_ENC_POS_LO | LTU_ENC_POS_HI | LTU_ENC_PERIOD | LTU_ENC_ERR | LTU_ENC_ZLATCH_LO 
  | LTU_ENC_ZLATCH_HI | LTU_ST_CTRL | LTU_ST_RATIO | LTU_ST_TIMER | LTU_ST_MAXRATE | LTU_ST_EXP_DELAY 
  | LTU_ST_EXP_LEN | LTU_ST_EXP_MIN | LTU_ST_GUARD | LTU_ST_READ_DELAY | LTU_ST_WPI_START_LO 
  | LTU_ST_WPI_START_HI | LTU_ST_WPI_LO | LTU_ST_WPI_HI | LTU_ST_START | LTU_ST_STARTPOS_LO | LTU_ST_STARTPOS_HI 
  | LTU_ST_HOSTTRIG | LTU_ST_MATCH_LO | LTU_ST_MATCH_HI | LTU_ST_MATCH_CFG | LTU_ST_STATUS | LTU_ST_SKIP 
  | LTU_ST_CLIP | LTU_ST_BASE_LO | LTU_ST_BASE_HI | PCP_SHD_STATUS | PCP_SHD_REFUSED | PCP_SHD_REPLACED 
  | PCP_CAP_CTRL | PCP_CAP_TARGET | PCP_CAP_LEVEL | PCP_CAP_STATUS | PCP_CAP_WPI_LO | PCP_CAP_WPI_HI 
  | PCP_SHD_HEAD_CTRL | PCP_SHD_HEAD_LEAF | PCP_SHD_SWAP | PCP_SHD_SWAP_H_LO | PCP_SHD_SWAP_H_HI 
  | PCP_SHD_TRK_DARK | PCP_SHD_TRK_WHITE | PCP_SHD_TRK_CTRL | PCP_SHD_DRIFT | PCP_LEAF_BASE | PCP_LEAF_GEOM 
  | PCP_LEAF_DEFECTS | PCP_LEAF_STATUS | PCP_ALN_STATUS | PCP_ALN_STORE | PCP_ALN_MEAS_CTRL | PCP_ALN_MEAS_WIN 
  | PCP_ALN_MEAS_RES | PCP_DVT_MEAS_CTRL | PCP_DVT_MEAS_RES | PCP_DVT_LATE | PCP_DEC_REFUSED | PCP_DEC_REPLACED 
  | PCP_ALN_DELAY | PCP_STC_RANGE | PCP_STC_XOFF | PCP_STC_ST_CTRL | PCP_STC_ST_ORIGIN | PCP_STC_ST_WIDTH 
  | PCP_ALN_ST_SPAN | PCP_DEC_CTRL | PCP_DEC_WIN | PCP_DEC_LEN | PCP_DEC_LEAF | PCP_DEC_SWAP | PCP_DEC_SWAP_H_LO 
  | PCP_DEC_SWAP_H_HI | PCP_DEC_QUEUE | SST_CFG | SST_STATUS | SST_AUD_FREE | SST_AUD_HELD | SST_AUD_TOTAL 
  | SST_AUD_STATUS | SST_ECC | SST_ST_REGION_BASE | SST_ST_REGION_SIZE | SST_ST_GEOM | SST_ST_CAP | SST_ST_WP_LO 
  | SST_ST_WP_HI | SST_ST_U_LO | SST_ST_U_HI | SST_ST_BACKLOG | SST_ST_PACE | SST_ST_THR_LO | SST_ST_THR_STOP 
  | SST_ST_THR_RESUME | SST_ST_SCALE | SST_ST_RUNUP | SST_ST_REW_STATUS | SST_ST_REW_R_LO | SST_ST_REW_R_HI 
  | SST_ST_REW_M_LO | SST_ST_REW_M_HI | SST_ST_RESTARTS | SST_ST_SEAM | SST_ST_SEAM_RES | SST_ST_SHED 
  | SST_ST_HOST_RP_LO | SST_ST_HOST_RP_HI | SST_ST_HOST_CTRL | SST_ST_MARK_LO | SST_ST_MARK_HI | SST_ST_GAPS 
  | SST_ST_OVERRUN | QMX_Q_CFG | QMX_Q_RES | QMX_Q_STATUS | QMX_Q_WR_PKTS | QMX_Q_RD_PKTS | QMX_Q_DISC 
  | QMX_Q_ECC | QMX_Q_CMD | QMX_POOL_CFG | QMX_POOL_FREE | QMX_POOL_RES | QMX_AUD_ALLOC | QMX_AUD_TRANSIT 
  | QMX_AUD_STATUS | QMX_ECC | QMX_STATUS | QMX_EVT_LAST | IEA_ENG_CTRL | IEA_ENG_STATUS | IEA_ENG_CMD 
  | IEA_ENG_PORT | IEA_ENG_TOK_ISSUED | IEA_ENG_TOK_RETIRED | IEA_ENG_TOK_OPEN | IEA_ENG_BAND_LO 
  | IEA_ENG_BAND_HI | IEA_ENG_SLOTS_LO | IEA_ENG_SLOTS_HI | IEA_ENG_EVT | IEA_ENG_EVT_WPI_LO 
  | IEA_ENG_EVT_WPI_HI | IEA_ENG_FAULT | IEA_ENG_FAULT_WPI_LO | IEA_ENG_FAULT_WPI_HI | IEA_ENG_LS_ECC 
  | IEA_ENG_LS_ADDR | IEA_ENG_LS_DATA | IEA_ENG_LS_USED | IEA_ENG_OVF | IEA_ENG_SEQ | IEA_STATUS | IEA_CFG 
  | IEA_AUD_STATUS | IEA_OVF_USED | IEA_CL_FAULT | IEA_CL_BOUND | SCU_IMG_CTRL | SCU_IMG_SRC_LO | SCU_IMG_SRC_HI 
  | SCU_IMG_LEN | SCU_IMG_STATUS | SCU_IMG_FAIL_OFF | SCU_IMG_REFUSED | SCU_IMG_ID_LO | SCU_IMG_ID_HI 
  | SCU_IMG_VER | SCU_IMG_DIGEST | SCU_RLD_CTRL | SCU_RLD_H_LO | SCU_RLD_H_HI | SCU_RLD_STATUS | SCU_RLD_MASK_LO 
  | SCU_RLD_MASK_HI | SCU_RLD_COUNT | SCU_SEAL_CFG | SCU_SEAL_AUD | SCU_SEAL_ST_CTRL | SCU_SEAL_ST_STATUS 
  | SCU_SEAL_ST_HZN_LO | SCU_SEAL_ST_HZN_HI | SCU_SEAL_ST_LOCAL_LO | SCU_SEAL_ST_LOCAL_HI | SCU_SEAL_ST_LAT 
  | SCU_SEAL_ST_COUNT | SCU_SEAL_ST_SNAP_BAND_LO | SCU_SEAL_ST_SNAP_BAND_HI | SCU_SEAL_ST_SNAP | KRU_CFG 
  | KRU_STATUS | KRU_TIME_LO | KRU_TIME_HI | KRU_AUD | KRU_TOK_ISSUED | KRU_TOK_RETIRED | KRU_MEMBER_SEL 
  | KRU_MEMBER_INFO | KRU_PORT_STATUS | KRU_PORT_LANES | KRU_PORT_ERR | KRU_ST_CTRL | KRU_ST_STATUS 
  | KRU_ST_OFS_LO | KRU_ST_OFS_HI | KRU_ST_HINGE_LO | KRU_ST_HINGE_HI | HIF_CTRL | HIF_STATUS | HIF_PCIE_ERR 
  | HIF_EVT_PEND | HIF_EVT_EN | HIF_EVT_SUM_LO | HIF_EVT_SUM_HI | HIF_EVT_MAP | HIF_VEC_MOD | HIF_HQ 
  | HIF_ST_CTRL | HIF_ST_RING_LO | HIF_ST_RING_HI | HIF_ST_HEAD | HIF_ST_TAIL | HIF_ST_STATUS | HIF_ST_SEQ 
  | HIF_ST_BAND_LO | HIF_ST_BAND_HI | HIF_ST_DST_MAC_LO | HIF_ST_DST_MAC_HI | HIF_ST_DST_IP | HIF_ST_UDP 
  | HIF_ST_RATE | HIF_ETH_CTRL | HIF_ETH_STATUS | HIF_ETH_MAC_LO | HIF_ETH_MAC_HI | HIF_ETH_IP | HIF_ETH_RX_DROP 
  | HIF_ETH_FEC | HIF_PTP_CTRL | HIF_PTP_STATUS | HIF_PTP_OFFSET | HIF_PTP_DELAY | HIF_PTP_SEC_LO 
  | HIF_PTP_SEC_HI | HIF_PTP_NS | ILC_CTRL | ILC_STATUS | ILC_REFUSED | ILC_REPLACED | ILC_GRP_CTRL | ILC_GRP_SW 
  | ILC_GRP_TIMING | ILC_GRP_DIAG | ILC_GRP_RAMP | ILC_GRP_BANK | ILC_GRP_SWAP_H_LO | ILC_GRP_SWAP_H_HI 
  | ILC_GRP_TCOMP | ILC_GRP_FAULT | ILC_GRP_FAULT_WPI_LO | ILC_GRP_FAULT_WPI_HI | ILC_COL_PT | ILC_STR_CFG 
  | ILC_STR_STATUS | ILC_STR_MEAS | ILC_STR_APPLIED | MFE_CTRL | MFE_STATUS | MFE_SEQ_CTRL | MFE_SEQ_PERIOD 
  | MFE_CAL | MFE_URGENT | MFE_URG_RES | MFE_URG_FLAGS | MFE_LEAF_REFUSED | MFE_REPLACED | MFE_REC_DROP 
  | MFE_EVT_LAST | MFE_SYNC | MFE_SLICE | MFE_ENT_CFG | MFE_ENT_EXC | MFE_ENT_REC | MFE_ENT_STATUS | MFE_RES 
  | MFE_RES_FLAGS | MFE_LEAD | MFE_ACC_SUM_LO | MFE_ACC_SUM_HI | MFE_ACC_CNT | MFE_ACC_MIN | MFE_ACC_MAX 
  | MFE_CH_CFG | MFE_CH_SWAP | MFE_CH_STATUS | MFE_CH_COARSE | MFE_OUT_CFG | MFE_OUT_LO | MFE_OUT_HI | MFE_OUT_F 
  | TTC_CTRL | TTC_STATUS | TTC_LIN | TTC_AX_CTRL | TTC_AX_RATIO | TTC_AX_VMAX | TTC_AX_AMAX | TTC_AX_JMAX 
  | TTC_AX_VSCAN | TTC_AX_CUR | TTC_AX_LOAD | TTC_AX_TARGET_LO | TTC_AX_TARGET_HI | TTC_AX_VEL | TTC_AX_CMD 
  | TTC_AX_STATUS | TTC_AX_POS_LO | TTC_AX_POS_HI | TTC_AX_DRV | THM_CTRL | THM_THR_WARN | THM_THR_THROT 
  | THM_THR_SHUT | THM_STATUS | THM_FAIL | THM_TRIM | THM_SNS | THM_RO_CTRL | THM_RO_COUNT | SMC_ID_SERIAL_LO 
  | SMC_ID_SERIAL_HI | SMC_ID_REV | SMC_ID_CFG | SMC_ID_MAC_LO | SMC_ID_MAC_HI | SMC_ID_KEYDIG | SMC_OWNER_DIG 
  | SMC_POLICY | SMC_FW_STATUS | SMC_FW_CAB_VER | SMC_FW_WB_VER | SMC_FW_SVN | SMC_WMAP_STATUS | SMC_WMAP_BLK 
  | SMC_WMAP_ETH | SMC_WMAP_PORT | SMC_WMAP_QR | SMC_WMAP_ENG | SMC_XW_LOG | SMC_XW_COUNT | SMC_XW_ADDR 
  | SMC_WMAP_OC | SMC_MEAS_SEL | SMC_MEAS_DATA | SMC_PMB_CFG | SMC_PMB_STATUS | SMC_MCTP_CFG | SMC_WMAP_HBM 
  | SMC_DEV_STATE | SMC_FAULT | SMC_FAULT_WPI_LO | SMC_FAULT_WPI_HI | SMC_ST_STATE | SMC_MB_CMD_HEAD 
  | SMC_MB_CMD_TAIL | SMC_MB_RSP_HEAD | SMC_MB_RSP_TAIL | SMC_MB_STATUS | SMC_MB_REFUSED | SMC_REG_REFUSED 
  | SMC_BOOT_STATUS | SMC_BOOT_TIME | SMC_PAD_SLEW | SMC_PAD_GLITCH | SMC_PAD_STATUS 
  deriving DecidableEq, Repr

/-- One piece of a register word: the bits `flo + width - 1 : flo` of `fld` stand at `wlo` of the word.
`own` says that a row of the command table acts on the field, so that a plain register write leaves it alone. -/
structure Part where
  fld : Fld
  flo : Nat
  wlo : Nat
  width : Nat
  own : Bool
  deriving DecidableEq, Repr

/-- One register: where its instances lie and which parts its word shows. `n1`, `n2` count the indices. -/
structure Reg where
  id : RegId
  base : Nat
  s1 : Nat
  n1 : Nat
  s2 : Nat
  n2 : Nat
  parts : List Part
  deriving DecidableEq, Repr

/-- Registers of spec/02_clockless_core.md. -/
def regs02 : List Reg := [
  ⟨.SCU_PACE_CTRL, 0x201000, 0x0, 1, 0x0, 1, [⟨R.SCU_PACE_CTRL_WINDOW, 0, 0, 4, false⟩]⟩,
  ⟨.SCU_PACE_HS_LO, 0x201100, 0x20, 17, 0x0, 1, [⟨R.SCU_PACE_HS, 0, 0, 32, false⟩]⟩,
  ⟨.SCU_PACE_HS_HI, 0x201104, 0x20, 17, 0x0, 1, [⟨R.SCU_PACE_HS, 32, 0, 16, false⟩]⟩,
  ⟨.SCU_PACE_BUSY_LO, 0x201108, 0x20, 17, 0x0, 1, [⟨R.SCU_PACE_BUSY, 0, 0, 32, false⟩]⟩,
  ⟨.SCU_PACE_BUSY_HI, 0x20110c, 0x20, 17, 0x0, 1, [⟨R.SCU_PACE_BUSY, 32, 0, 16, false⟩]⟩,
  ⟨.SCU_PACE_RATE, 0x201110, 0x20, 17, 0x0, 1, [⟨R.SCU_PACE_RATE_RATE, 0, 0, 16, false⟩, ⟨R.SCU_PACE_RATE_VALID, 0, 31, 1, false⟩]⟩,
  ⟨.SCU_ADM_STATUS, 0x201400, 0x0, 1, 0x0, 1, [⟨R.SCU_ADM_STATUS_RESULT, 0, 0, 8, false⟩, ⟨R.SCU_ADM_STATUS_FAIL_DOMAIN, 0, 8, 5, false⟩, ⟨R.SCU_ADM_STATUS_THROTTLE, 0, 16, 4, false⟩, ⟨R.SCU_ADM_STATUS_FAIL_ENGINE, 0, 20, 9, false⟩]⟩,
  ⟨.SCU_ADM_CAP, 0x201404, 0x0, 1, 0x0, 1, [⟨R.SCU_ADM_CAP_CAP, 0, 0, 16, false⟩, ⟨R.SCU_ADM_CAP_VADM, 0, 16, 12, false⟩]⟩,
  ⟨.SCU_ADM_LOAD, 0x201408, 0x0, 1, 0x0, 1, [⟨R.SCU_ADM_LOAD_LOAD, 0, 0, 16, false⟩]⟩,
  ⟨.SCU_ADM_COUNT, 0x20140c, 0x0, 1, 0x0, 1, [⟨R.SCU_ADM_COUNT_NOFIT, 0, 0, 32, false⟩]⟩,
  ⟨.SMC_VFIT_CTRL, 0x4000, 0x0, 1, 0x0, 1, [⟨R.SMC_VFIT_CTRL_EN, 0, 0, 1, true⟩, ⟨R.SMC_VFIT_CTRL_MARGIN, 0, 8, 7, true⟩, ⟨R.SMC_VFIT_CTRL_STEP, 0, 16, 4, true⟩, ⟨R.SMC_VFIT_CTRL_HOLD, 0, 20, 4, true⟩, ⟨R.SMC_VFIT_CTRL_GUARD, 0, 24, 6, true⟩]⟩,
  ⟨.SMC_VFIT_LIMITS, 0x4004, 0x0, 1, 0x0, 1, [⟨R.SMC_VFIT_LIMITS_VMIN, 0, 0, 12, true⟩, ⟨R.SMC_VFIT_LIMITS_VMAX, 0, 16, 12, true⟩]⟩,
  ⟨.SMC_VFIT_STATUS, 0x4008, 0x0, 1, 0x0, 1, [⟨R.SMC_VFIT_STATUS_VSET, 0, 0, 12, false⟩, ⟨R.SMC_VFIT_STATUS_STATE, 0, 12, 3, false⟩, ⟨R.SMC_VFIT_STATUS_FAIL, 0, 16, 1, false⟩, ⟨R.SMC_VFIT_STATUS_LIMIT_ERR, 0, 17, 1, false⟩]⟩]

/-- Registers of spec/03_ricel_head_links.md. -/
def regs03 : List Reg := [
  ⟨.HLF_CTRL, 0x400000, 0x0, 1, 0x0, 1, [⟨R.HLF_CTRL_EN, 0, 0, 1, true⟩, ⟨R.HLF_CTRL_LEGACY_EN, 0, 8, 1, false⟩]⟩,
  ⟨.HLF_PRBS_CFG, 0x400004, 0x0, 1, 0x0, 1, [⟨R.HLF_PRBS_CFG_LEN, 0, 0, 6, false⟩, ⟨R.HLF_PRBS_CFG_MAX_ERR, 0, 8, 8, false⟩, ⟨R.HLF_PRBS_CFG_RETRAIN_LEN, 0, 16, 6, false⟩]⟩,
  ⟨.HLF_TIMER_CFG, 0x400008, 0x0, 1, 0x0, 1, [⟨R.HLF_TIMER_CFG_REPLAY_US, 0, 0, 8, false⟩, ⟨R.HLF_TIMER_CFG_LINE_TIMEOUT, 0, 8, 8, false⟩, ⟨R.HLF_TIMER_CFG_CRC_LIMIT, 0, 16, 8, false⟩]⟩,
  ⟨.HLF_CFG_ADDR, 0x400010, 0x0, 1, 0x0, 1, [⟨R.HLF_CFG_ADDR_PORT, 0, 0, 7, false⟩, ⟨R.HLF_CFG_ADDR_ADDR, 0, 8, 24, false⟩]⟩,
  ⟨.HLF_CFG_DATA, 0x400014, 0x0, 1, 0x0, 1, [⟨R.HLF_CFG_DATA_DATA, 0, 0, 32, false⟩]⟩,
  ⟨.HLF_CFG_CMD, 0x400018, 0x0, 1, 0x0, 1, [⟨R.HLF_CFG_CMD_GO, 0, 0, 1, true⟩, ⟨R.HLF_CFG_CMD_WRITE, 0, 1, 1, false⟩, ⟨R.HLF_CFG_CMD_BUSY, 0, 8, 1, false⟩, ⟨R.HLF_CFG_CMD_STATUS, 0, 16, 8, false⟩]⟩,
  ⟨.HLF_PORT_CTRL, 0x401000, 0x40, 96, 0x0, 1, [⟨R.HLF_PORT_CTRL_EN, 0, 0, 1, true⟩, ⟨R.HLF_PORT_CTRL_LANE_LIMIT, 0, 1, 4, false⟩, ⟨R.HLF_PORT_CTRL_RATE_LIMIT, 0, 5, 4, false⟩, ⟨R.HLF_PORT_CTRL_VER_MAX, 0, 16, 8, false⟩, ⟨R.HLF_PORT_CTRL_RETRAIN, 0, 24, 1, true⟩]⟩,
  ⟨.HLF_PORT_STATE, 0x401004, 0x40, 96, 0x0, 1, [⟨R.HLF_PORT_STATE_STATE, 0, 0, 4, false⟩, ⟨R.HLF_PORT_STATE_PRIMARY, 0, 4, 7, false⟩, ⟨R.HLF_PORT_STATE_LAST_STATUS, 0, 16, 8, false⟩, ⟨R.HLF_PORT_STATE_CHANGED, 0, 24, 1, false⟩]⟩,
  ⟨.HLF_PORT_MODE, 0x401008, 0x40, 96, 0x0, 1, [⟨R.HLF_PORT_MODE_VERSION, 0, 0, 8, false⟩, ⟨R.HLF_PORT_MODE_LANES, 0, 8, 4, false⟩, ⟨R.HLF_PORT_MODE_RATE, 0, 12, 2, false⟩, ⟨R.HLF_PORT_MODE_DEPTH, 0, 14, 2, false⟩]⟩,
  ⟨.HLF_PORT_GEOM, 0x40100c, 0x40, 96, 0x0, 1, [⟨R.HLF_PORT_GEOM_COLUMNS, 0, 0, 19, false⟩, ⟨R.HLF_PORT_GEOM_PLANES, 0, 24, 4, false⟩]⟩,
  ⟨.HLF_PORT_ID_LO, 0x401010, 0x40, 96, 0x0, 1, [⟨R.HLF_PORT_ID_SERIAL, 0, 0, 32, false⟩]⟩,
  ⟨.HLF_PORT_ID_HI, 0x401014, 0x40, 96, 0x0, 1, [⟨R.HLF_PORT_ID_SERIAL, 32, 0, 32, false⟩]⟩,
  ⟨.HLF_PORT_FW, 0x401018, 0x40, 96, 0x0, 1, [⟨R.HLF_PORT_FW_FW, 0, 0, 32, false⟩]⟩,
  ⟨.HLF_PORT_VENDOR, 0x40101c, 0x40, 96, 0x0, 1, [⟨R.HLF_PORT_VENDOR_VENDOR, 0, 0, 16, false⟩, ⟨R.HLF_PORT_VENDOR_MODEL, 0, 16, 16, false⟩]⟩,
  ⟨.HLF_LANE_STATUS, 0x404000, 0x20, 192, 0x0, 1, [⟨R.HLF_LANE_STATUS_LOCK, 0, 0, 1, false⟩, ⟨R.HLF_LANE_STATUS_ACTIVE, 0, 1, 1, false⟩, ⟨R.HLF_LANE_STATUS_RETRAINING, 0, 2, 1, false⟩, ⟨R.HLF_LANE_STATUS_DELAY, 0, 16, 16, false⟩]⟩,
  ⟨.HLF_LANE_CRC, 0x404004, 0x20, 192, 0x0, 1, [⟨R.HLF_LANE_CRC_COUNT, 0, 0, 32, false⟩]⟩,
  ⟨.HLF_LANE_REPLAY, 0x404008, 0x20, 192, 0x0, 1, [⟨R.HLF_LANE_REPLAY_COUNT, 0, 0, 32, false⟩]⟩,
  ⟨.HLF_LANE_PRBS, 0x40400c, 0x20, 192, 0x0, 1, [⟨R.HLF_LANE_PRBS_COUNT, 0, 0, 32, false⟩]⟩,
  ⟨.HLF_LANE_CREDIT, 0x404010, 0x20, 192, 0x0, 1, [⟨R.HLF_LANE_CREDIT_RETURNED, 0, 0, 16, false⟩, ⟨R.HLF_LANE_CREDIT_OCCUPIED, 0, 16, 16, false⟩]⟩,
  ⟨.HLF_LANE_AUDIT, 0x404014, 0x20, 192, 0x0, 1, [⟨R.HLF_LANE_AUDIT_HELD, 0, 0, 16, false⟩, ⟨R.HLF_LANE_AUDIT_RESYNC, 0, 16, 1, false⟩, ⟨R.HLF_LANE_AUDIT_FAIL, 0, 17, 1, false⟩, ⟨R.HLF_LANE_AUDIT_DIFF, 0, 20, 12, false⟩]⟩,
  ⟨.HLF_LANE_DROP, 0x404018, 0x20, 192, 0x0, 1, [⟨R.HLF_LANE_DROP_COUNT, 0, 0, 32, false⟩]⟩]

/-- Registers of spec/04_line_timing_exposure.md. -/
def regs04 : List Reg := [
  ⟨.LTU_CTRL, 0x600000, 0x0, 1, 0x0, 1, [⟨R.LTU_CTRL_EN, 0, 0, 1, false⟩, ⟨R.LTU_CTRL_PTP_DISC, 0, 4, 1, false⟩]⟩,
  ⟨.LTU_REF_STATUS, 0x600004, 0x0, 1, 0x0, 1, [⟨R.LTU_REF_STATUS_LOCK, 0, 0, 1, false⟩, ⟨R.LTU_REF_STATUS_HOLDOVER, 0, 1, 1, false⟩, ⟨R.LTU_REF_STATUS_TCOMP_HOLD, 0, 2, 1, false⟩, ⟨R.LTU_REF_STATUS_PTP_LOCK, 0, 3, 1, false⟩, ⟨R.LTU_REF_STATUS_LAST_STATUS, 0, 8, 8, false⟩, ⟨R.LTU_REF_STATUS_CORR, 0, 16, 16, false⟩]⟩,
  ⟨.LTU_TCOMP_CTRL, 0x600008, 0x0, 1, 0x0, 1, [⟨R.LTU_TCOMP_CTRL_SENSOR, 0, 0, 5, false⟩, ⟨R.LTU_TCOMP_CTRL_EN, 0, 8, 1, true⟩]⟩,
  ⟨.LTU_TCOMP_PT, 0x600010, 0x4, 8, 0x0, 1, [⟨R.LTU_TCOMP_PT_CORR, 0, 0, 16, false⟩, ⟨R.LTU_TCOMP_PT_TEMP, 0, 16, 12, false⟩]⟩,
  ⟨.LTU_ENC_CFG, 0x600100, 0x20, 4, 0x0, 1, [⟨R.LTU_ENC_CFG_GLITCH, 0, 0, 10, false⟩, ⟨R.LTU_ENC_CFG_MAJ, 0, 12, 2, false⟩, ⟨R.LTU_ENC_CFG_INVERT, 0, 16, 1, false⟩, ⟨R.LTU_ENC_CFG_Z_EN, 0, 17, 1, false⟩, ⟨R.LTU_ENC_CFG_AVG, 0, 20, 2, false⟩]⟩,
  ⟨.LTU_ENC_POS_LO, 0x600104, 0x20, 4, 0x0, 1, [⟨R.LTU_ENC_POS_COUNT, 0, 0, 32, false⟩]⟩,
  ⟨.LTU_ENC_POS_HI, 0x600108, 0x20, 4, 0x0, 1, [⟨R.LTU_ENC_POS_COUNT, 32, 0, 16, false⟩, ⟨R.LTU_ENC_POS_PHASE, 0, 16, 16, false⟩]⟩,
  ⟨.LTU_ENC_PERIOD, 0x60010c, 0x20, 4, 0x0, 1, [⟨R.LTU_ENC_PERIOD_PERIOD, 0, 0, 32, false⟩]⟩,
  ⟨.LTU_ENC_ERR, 0x600110, 0x20, 4, 0x0, 1, [⟨R.LTU_ENC_ERR_COUNT, 0, 0, 32, false⟩]⟩,
  ⟨.LTU_ENC_ZLATCH_LO, 0x600114, 0x20, 4, 0x0, 1, [⟨R.LTU_ENC_ZLATCH_COUNT, 0, 0, 32, false⟩]⟩,
  ⟨.LTU_ENC_ZLATCH_HI, 0x600118, 0x20, 4, 0x0, 1, [⟨R.LTU_ENC_ZLATCH_COUNT, 32, 0, 16, false⟩, ⟨R.LTU_ENC_ZLATCH_PHASE, 0, 16, 16, false⟩]⟩,
  ⟨.LTU_ST_CTRL, 0x601000, 0x80, 8, 0x0, 1, [⟨R.LTU_ST_CTRL_SRC, 0, 0, 2, false⟩, ⟨R.LTU_ST_CTRL_ENC, 0, 2, 2, false⟩, ⟨R.LTU_ST_CTRL_OVERRUN, 0, 4, 2, false⟩, ⟨R.LTU_ST_CTRL_DIR, 0, 8, 1, false⟩]⟩,
  ⟨.LTU_ST_RATIO, 0x601004, 0x80, 8, 0x0, 1, [⟨R.LTU_ST_RATIO_D, 0, 0, 32, false⟩]⟩,
  ⟨.LTU_ST_TIMER, 0x601008, 0x80, 8, 0x0, 1, [⟨R.LTU_ST_TIMER_PERIOD, 0, 0, 28, false⟩]⟩,
  ⟨.LTU_ST_MAXRATE, 0x60100c, 0x80, 8, 0x0, 1, [⟨R.LTU_ST_MAXRATE_RATE, 0, 0, 19, false⟩]⟩,
  ⟨.LTU_ST_EXP_DELAY, 0x601010, 0x80, 8, 0x0, 1, [⟨R.LTU_ST_EXP_DELAY_TICKS, 0, 0, 24, false⟩]⟩,
  ⟨.LTU_ST_EXP_LEN, 0x601014, 0x80, 8, 0x0, 1, [⟨R.LTU_ST_EXP_LEN_TICKS, 0, 0, 24, false⟩]⟩,
  ⟨.LTU_ST_EXP_MIN, 0x601018, 0x80, 8, 0x0, 1, [⟨R.LTU_ST_EXP_MIN_TICKS, 0, 0, 24, false⟩]⟩,
  ⟨.LTU_ST_GUARD, 0x60101c, 0x80, 8, 0x0, 1, [⟨R.LTU_ST_GUARD_NS, 0, 0, 16, false⟩]⟩,
  ⟨.LTU_ST_READ_DELAY, 0x601020, 0x80, 8, 0x0, 1, [⟨R.LTU_ST_READ_DELAY_TICKS, 0, 0, 24, false⟩]⟩,
  ⟨.LTU_ST_WPI_START_LO, 0x601024, 0x80, 8, 0x0, 1, [⟨R.LTU_ST_WPI_START_W0, 0, 0, 32, false⟩]⟩,
  ⟨.LTU_ST_WPI_START_HI, 0x601028, 0x80, 8, 0x0, 1, [⟨R.LTU_ST_WPI_START_W0, 32, 0, 16, false⟩]⟩,
  ⟨.LTU_ST_WPI_LO, 0x60102c, 0x80, 8, 0x0, 1, [⟨R.LTU_ST_WPI, 0, 0, 32, false⟩]⟩,
  ⟨.LTU_ST_WPI_HI, 0x601030, 0x80, 8, 0x0, 1, [⟨R.LTU_ST_WPI, 32, 0, 16, false⟩]⟩]

/-- Registers of spec/04_line_timing_exposure.md. -/
def regs04b : List Reg := [
  ⟨.LTU_ST_START, 0x601034, 0x80, 8, 0x0, 1, [⟨R.LTU_ST_START_MODE, 0, 0, 2, false⟩]⟩,
  ⟨.LTU_ST_STARTPOS_LO, 0x601038, 0x80, 8, 0x0, 1, [⟨R.LTU_ST_STARTPOS_COUNT, 0, 0, 32, false⟩]⟩,
  ⟨.LTU_ST_STARTPOS_HI, 0x60103c, 0x80, 8, 0x0, 1, [⟨R.LTU_ST_STARTPOS_COUNT, 32, 0, 16, false⟩, ⟨R.LTU_ST_STARTPOS_PHASE, 0, 16, 16, false⟩]⟩,
  ⟨.LTU_ST_HOSTTRIG, 0x601040, 0x80, 8, 0x0, 1, [⟨R.LTU_ST_HOSTTRIG_COUNT, 0, 0, 16, true⟩, ⟨R.LTU_ST_HOSTTRIG_PENDING, 0, 16, 16, false⟩]⟩,
  ⟨.LTU_ST_MATCH_LO, 0x601044, 0x80, 8, 0x0, 1, [⟨R.LTU_ST_MATCH_M, 0, 0, 32, false⟩]⟩,
  ⟨.LTU_ST_MATCH_HI, 0x601048, 0x80, 8, 0x0, 1, [⟨R.LTU_ST_MATCH_M, 32, 0, 16, false⟩]⟩,
  ⟨.LTU_ST_MATCH_CFG, 0x60104c, 0x80, 8, 0x0, 1, [⟨R.LTU_ST_MATCH_CFG_VREF, 0, 0, 24, false⟩, ⟨R.LTU_ST_MATCH_CFG_TOL, 0, 24, 5, false⟩, ⟨R.LTU_ST_MATCH_CFG_ARM, 0, 31, 1, true⟩]⟩,
  ⟨.LTU_ST_STATUS, 0x601050, 0x80, 8, 0x0, 1, [⟨R.LTU_ST_STATUS_TRIGGERING, 0, 0, 1, false⟩, ⟨R.LTU_ST_STATUS_MATCH_ARMED, 0, 1, 1, false⟩, ⟨R.LTU_ST_STATUS_VEL_ERR, 0, 2, 1, false⟩, ⟨R.LTU_ST_STATUS_LAST_STATUS, 0, 8, 8, false⟩, ⟨R.LTU_ST_STATUS_LEAD, 0, 16, 16, false⟩]⟩,
  ⟨.LTU_ST_SKIP, 0x601054, 0x80, 8, 0x0, 1, [⟨R.LTU_ST_SKIP_COUNT, 0, 0, 32, false⟩]⟩,
  ⟨.LTU_ST_CLIP, 0x601058, 0x80, 8, 0x0, 1, [⟨R.LTU_ST_CLIP_COUNT, 0, 0, 32, false⟩]⟩,
  ⟨.LTU_ST_BASE_LO, 0x60105c, 0x80, 8, 0x0, 1, [⟨R.LTU_ST_BASE_COUNT, 0, 0, 32, false⟩]⟩,
  ⟨.LTU_ST_BASE_HI, 0x601060, 0x80, 8, 0x0, 1, [⟨R.LTU_ST_BASE_COUNT, 32, 0, 16, false⟩, ⟨R.LTU_ST_BASE_PHASE, 0, 16, 16, false⟩]⟩]

/-- Registers of spec/05_shading.md. -/
def regs05 : List Reg := [
  ⟨.PCP_SHD_STATUS, 0x800000, 0x0, 1, 0x0, 1, [⟨R.PCP_SHD_STATUS_LAST_STATUS, 0, 0, 8, false⟩]⟩,
  ⟨.PCP_SHD_REFUSED, 0x800004, 0x0, 1, 0x0, 1, [⟨R.PCP_SHD_REFUSED_COUNT, 0, 0, 32, false⟩]⟩,
  ⟨.PCP_SHD_REPLACED, 0x800008, 0x0, 1, 0x0, 1, [⟨R.PCP_SHD_REPLACED_COUNT, 0, 0, 32, false⟩]⟩,
  ⟨.PCP_CAP_CTRL, 0x800010, 0x0, 1, 0x0, 1, [⟨R.PCP_CAP_CTRL_KIND, 0, 0, 1, false⟩, ⟨R.PCP_CAP_CTRL_N, 0, 4, 4, false⟩, ⟨R.PCP_CAP_CTRL_REJ, 0, 8, 1, false⟩, ⟨R.PCP_CAP_CTRL_AUTO_DEFECT, 0, 9, 1, false⟩, ⟨R.PCP_CAP_CTRL_GO, 0, 31, 1, true⟩]⟩,
  ⟨.PCP_CAP_TARGET, 0x800014, 0x0, 1, 0x0, 1, [⟨R.PCP_CAP_TARGET_HEAD, 0, 0, 7, false⟩, ⟨R.PCP_CAP_TARGET_LEAF, 0, 16, 9, false⟩]⟩,
  ⟨.PCP_CAP_LEVEL, 0x800018, 0x0, 1, 0x0, 1, [⟨R.PCP_CAP_LEVEL_TARGET_W, 0, 0, 16, false⟩, ⟨R.PCP_CAP_LEVEL_HOT, 0, 16, 16, false⟩]⟩,
  ⟨.PCP_CAP_STATUS, 0x80001c, 0x0, 1, 0x0, 1, [⟨R.PCP_CAP_STATUS_STATE, 0, 0, 2, false⟩, ⟨R.PCP_CAP_STATUS_DEF_OVF, 0, 2, 1, false⟩, ⟨R.PCP_CAP_STATUS_LAST_STATUS, 0, 8, 8, false⟩, ⟨R.PCP_CAP_STATUS_NEWDEF, 0, 16, 13, false⟩]⟩,
  ⟨.PCP_CAP_WPI_LO, 0x800020, 0x0, 1, 0x0, 1, [⟨R.PCP_CAP_WPI, 0, 0, 32, false⟩]⟩,
  ⟨.PCP_CAP_WPI_HI, 0x800024, 0x0, 1, 0x0, 1, [⟨R.PCP_CAP_WPI, 32, 0, 16, false⟩]⟩,
  ⟨.PCP_SHD_HEAD_CTRL, 0x801000, 0x40, 96, 0x0, 1, [⟨R.PCP_SHD_HEAD_CTRL_EN, 0, 0, 1, false⟩, ⟨R.PCP_SHD_HEAD_CTRL_PED, 0, 16, 16, false⟩]⟩,
  ⟨.PCP_SHD_HEAD_LEAF, 0x801004, 0x40, 96, 0x0, 1, [⟨R.PCP_SHD_HEAD_LEAF_ACTIVE, 0, 0, 9, false⟩, ⟨R.PCP_SHD_HEAD_LEAF_FROM, 0, 9, 9, false⟩, ⟨R.PCP_SHD_HEAD_LEAF_PENDING, 0, 18, 9, false⟩, ⟨R.PCP_SHD_HEAD_LEAF_FADING, 0, 27, 1, false⟩, ⟨R.PCP_SHD_HEAD_LEAF_REPLACED, 0, 28, 1, false⟩]⟩,
  ⟨.PCP_SHD_SWAP, 0x801008, 0x40, 96, 0x0, 1, [⟨R.PCP_SHD_SWAP_LEAF, 0, 0, 9, false⟩, ⟨R.PCP_SHD_SWAP_FADE, 0, 9, 4, false⟩, ⟨R.PCP_SHD_SWAP_GO, 0, 31, 1, true⟩]⟩,
  ⟨.PCP_SHD_SWAP_H_LO, 0x80100c, 0x40, 96, 0x0, 1, [⟨R.PCP_SHD_SWAP_H, 0, 0, 32, false⟩]⟩,
  ⟨.PCP_SHD_SWAP_H_HI, 0x801010, 0x40, 96, 0x0, 1, [⟨R.PCP_SHD_SWAP_H, 32, 0, 16, false⟩]⟩,
  ⟨.PCP_SHD_TRK_DARK, 0x801014, 0x40, 96, 0x0, 1, [⟨R.PCP_SHD_TRK_DARK_FIRST, 0, 0, 18, false⟩, ⟨R.PCP_SHD_TRK_DARK_COUNT, 0, 24, 6, false⟩]⟩,
  ⟨.PCP_SHD_TRK_WHITE, 0x801018, 0x40, 96, 0x0, 1, [⟨R.PCP_SHD_TRK_WHITE_FIRST, 0, 0, 18, false⟩, ⟨R.PCP_SHD_TRK_WHITE_COUNT, 0, 24, 7, false⟩]⟩,
  ⟨.PCP_SHD_TRK_CTRL, 0x80101c, 0x40, 96, 0x0, 1, [⟨R.PCP_SHD_TRK_CTRL_EN, 0, 0, 1, true⟩, ⟨R.PCP_SHD_TRK_CTRL_A, 0, 1, 4, true⟩, ⟨R.PCP_SHD_TRK_CTRL_SRC, 0, 8, 7, true⟩, ⟨R.PCP_SHD_TRK_CTRL_LIM, 0, 16, 5, true⟩, ⟨R.PCP_SHD_TRK_CTRL_ALARM, 0, 24, 1, true⟩]⟩,
  ⟨.PCP_SHD_DRIFT, 0x801020, 0x40, 96, 0x4, 8, [⟨R.PCP_SHD_DRIFT_GAIN, 0, 0, 16, false⟩, ⟨R.PCP_SHD_DRIFT_DELTA, 0, 16, 16, false⟩]⟩,
  ⟨.PCP_LEAF_BASE, 0x803000, 0x10, 256, 0x0, 1, [⟨R.PCP_LEAF_BASE_PAGE, 0, 0, 12, true⟩, ⟨R.PCP_LEAF_BASE_PAGES, 0, 16, 13, true⟩]⟩,
  ⟨.PCP_LEAF_GEOM, 0x803004, 0x10, 256, 0x0, 1, [⟨R.PCP_LEAF_GEOM_COLUMNS, 0, 0, 19, true⟩, ⟨R.PCP_LEAF_GEOM_PLANES, 0, 20, 4, true⟩]⟩,
  ⟨.PCP_LEAF_DEFECTS, 0x803008, 0x10, 256, 0x0, 1, [⟨R.PCP_LEAF_DEFECTS_COUNT, 0, 0, 13, true⟩]⟩,
  ⟨.PCP_LEAF_STATUS, 0x80300c, 0x10, 256, 0x0, 1, [⟨R.PCP_LEAF_STATUS_ACTIVE, 0, 0, 1, false⟩, ⟨R.PCP_LEAF_STATUS_FADING, 0, 1, 1, false⟩, ⟨R.PCP_LEAF_STATUS_PENDING, 0, 2, 1, false⟩, ⟨R.PCP_LEAF_STATUS_CAPTURING, 0, 3, 1, false⟩]⟩]

/-- Registers of spec/06_alignment_stitching.md. -/
def regs06 : List Reg := [
  ⟨.PCP_ALN_STATUS, 0x804000, 0x0, 1, 0x0, 1, [⟨R.PCP_ALN_STATUS_LAST_STATUS, 0, 0, 8, false⟩]⟩,
  ⟨.PCP_ALN_STORE, 0x804004, 0x0, 1, 0x0, 1, [⟨R.PCP_ALN_STORE_USED, 0, 0, 19, false⟩]⟩,
  ⟨.PCP_ALN_MEAS_CTRL, 0x804010, 0x0, 1, 0x0, 1, [⟨R.PCP_ALN_MEAS_CTRL_HEAD, 0, 0, 7, false⟩, ⟨R.PCP_ALN_MEAS_CTRL_N, 0, 8, 4, false⟩, ⟨R.PCP_ALN_MEAS_CTRL_POL, 0, 12, 1, false⟩, ⟨R.PCP_ALN_MEAS_CTRL_BUSY, 0, 13, 1, false⟩, ⟨R.PCP_ALN_MEAS_CTRL_GO, 0, 14, 1, true⟩, ⟨R.PCP_ALN_MEAS_CTRL_T, 0, 16, 16, false⟩]⟩,
  ⟨.PCP_ALN_MEAS_WIN, 0x804014, 0x0, 1, 0x0, 1, [⟨R.PCP_ALN_MEAS_WIN_FIRST, 0, 0, 18, false⟩, ⟨R.PCP_ALN_MEAS_WIN_COUNT, 0, 18, 14, false⟩]⟩,
  ⟨.PCP_ALN_MEAS_RES, 0x804020, 0x4, 8, 0x0, 1, [⟨R.PCP_ALN_MEAS_RES_SIXTEENTHS, 0, 0, 4, false⟩, ⟨R.PCP_ALN_MEAS_RES_LINE, 0, 4, 24, false⟩, ⟨R.PCP_ALN_MEAS_RES_FOUND, 0, 31, 1, false⟩]⟩,
  ⟨.PCP_DVT_MEAS_CTRL, 0x804040, 0x0, 1, 0x0, 1, [⟨R.PCP_DVT_MEAS_CTRL_STATION, 0, 0, 3, false⟩, ⟨R.PCP_DVT_MEAS_CTRL_POS, 0, 3, 7, false⟩, ⟨R.PCP_DVT_MEAS_CTRL_N, 0, 12, 4, false⟩, ⟨R.PCP_DVT_MEAS_CTRL_BUSY, 0, 16, 1, false⟩, ⟨R.PCP_DVT_MEAS_CTRL_GO, 0, 31, 1, true⟩]⟩,
  ⟨.PCP_DVT_MEAS_RES, 0x804044, 0x0, 1, 0x0, 1, [⟨R.PCP_DVT_MEAS_RES_BEST, 0, 0, 8, false⟩, ⟨R.PCP_DVT_MEAS_RES_SAD, 0, 8, 24, false⟩]⟩,
  ⟨.PCP_DVT_LATE, 0x804048, 0x0, 1, 0x0, 1, [⟨R.PCP_DVT_LATE_COUNT, 0, 0, 32, false⟩]⟩,
  ⟨.PCP_DEC_REFUSED, 0x804050, 0x0, 1, 0x0, 1, [⟨R.PCP_DEC_REFUSED_COUNT, 0, 0, 32, false⟩]⟩,
  ⟨.PCP_DEC_REPLACED, 0x804054, 0x0, 1, 0x0, 1, [⟨R.PCP_DEC_REPLACED_COUNT, 0, 0, 32, false⟩]⟩,
  ⟨.PCP_ALN_DELAY, 0x805000, 0x40, 96, 0x4, 8, [⟨R.PCP_ALN_DELAY_SIXTEENTHS, 0, 0, 4, false⟩, ⟨R.PCP_ALN_DELAY_LINES, 0, 8, 6, false⟩]⟩,
  ⟨.PCP_STC_RANGE, 0x805020, 0x40, 96, 0x0, 1, [⟨R.PCP_STC_RANGE_FIRST, 0, 0, 18, false⟩, ⟨R.PCP_STC_RANGE_POS, 0, 18, 7, false⟩]⟩,
  ⟨.PCP_STC_XOFF, 0x805024, 0x40, 96, 0x0, 1, [⟨R.PCP_STC_XOFF_X, 0, 0, 8, false⟩, ⟨R.PCP_STC_XOFF_WIDTH, 0, 8, 19, false⟩]⟩,
  ⟨.PCP_STC_ST_CTRL, 0x807000, 0x40, 8, 0x0, 1, [⟨R.PCP_STC_ST_CTRL_V, 0, 0, 9, false⟩, ⟨R.PCP_STC_ST_CTRL_BLEND, 0, 9, 2, false⟩, ⟨R.PCP_STC_ST_CTRL_SEND_LEFT, 0, 11, 1, false⟩, ⟨R.PCP_STC_ST_CTRL_RECV_RIGHT, 0, 12, 1, false⟩, ⟨R.PCP_STC_ST_CTRL_DVT_TIMEOUT, 0, 16, 8, false⟩]⟩,
  ⟨.PCP_STC_ST_ORIGIN, 0x807004, 0x40, 8, 0x0, 1, [⟨R.PCP_STC_ST_ORIGIN_COLUMN, 0, 0, 21, false⟩]⟩,
  ⟨.PCP_STC_ST_WIDTH, 0x807008, 0x40, 8, 0x0, 1, [⟨R.PCP_STC_ST_WIDTH_W, 0, 0, 21, false⟩]⟩,
  ⟨.PCP_ALN_ST_SPAN, 0x80700c, 0x40, 8, 0x0, 1, [⟨R.PCP_ALN_ST_SPAN_SPAN, 0, 0, 7, false⟩]⟩,
  ⟨.PCP_DEC_CTRL, 0x808000, 0x20, 32, 0x0, 1, [⟨R.PCP_DEC_CTRL_EN, 0, 0, 1, false⟩, ⟨R.PCP_DEC_CTRL_STATION, 0, 1, 3, false⟩, ⟨R.PCP_DEC_CTRL_DEPTH8, 0, 4, 1, false⟩, ⟨R.PCP_DEC_CTRL_PLANES, 0, 8, 8, false⟩, ⟨R.PCP_DEC_CTRL_DX, 0, 16, 5, false⟩, ⟨R.PCP_DEC_CTRL_DY_LOG, 0, 21, 3, false⟩]⟩,
  ⟨.PCP_DEC_WIN, 0x808004, 0x20, 32, 0x0, 1, [⟨R.PCP_DEC_WIN_FIRST, 0, 0, 21, false⟩]⟩,
  ⟨.PCP_DEC_LEN, 0x808008, 0x20, 32, 0x0, 1, [⟨R.PCP_DEC_LEN_LEN, 0, 0, 21, false⟩]⟩,
  ⟨.PCP_DEC_LEAF, 0x80800c, 0x20, 32, 0x0, 1, [⟨R.PCP_DEC_LEAF_LEAF_X, 0, 0, 9, false⟩, ⟨R.PCP_DEC_LEAF_LEAF_Y, 0, 16, 9, false⟩]⟩,
  ⟨.PCP_DEC_SWAP, 0x808010, 0x20, 32, 0x0, 1, [⟨R.PCP_DEC_SWAP_LEAF_X, 0, 0, 9, false⟩, ⟨R.PCP_DEC_SWAP_LEAF_Y, 0, 16, 9, false⟩, ⟨R.PCP_DEC_SWAP_PENDING, 0, 30, 1, false⟩, ⟨R.PCP_DEC_SWAP_GO, 0, 31, 1, true⟩]⟩,
  ⟨.PCP_DEC_SWAP_H_LO, 0x808014, 0x20, 32, 0x0, 1, [⟨R.PCP_DEC_SWAP_H, 0, 0, 32, false⟩]⟩,
  ⟨.PCP_DEC_SWAP_H_HI, 0x808018, 0x20, 32, 0x0, 1, [⟨R.PCP_DEC_SWAP_H, 32, 0, 16, false⟩]⟩]

/-- Registers of spec/06_alignment_stitching.md. -/
def regs06b : List Reg := [
  ⟨.PCP_DEC_QUEUE, 0x80801c, 0x20, 32, 0x0, 1, [⟨R.PCP_DEC_QUEUE_QUEUE, 0, 0, 18, false⟩]⟩]

/-- Registers of spec/07_scan_store_restart.md. -/
def regs07 : List Reg := [
  ⟨.SST_CFG, 0xa00000, 0x0, 1, 0x0, 1, [⟨R.SST_CFG_STORE, 0, 0, 6, true⟩]⟩,
  ⟨.SST_STATUS, 0xa00004, 0x0, 1, 0x0, 1, [⟨R.SST_STATUS_LAST_STATUS, 0, 0, 8, false⟩]⟩,
  ⟨.SST_AUD_FREE, 0xa00010, 0x0, 1, 0x0, 1, [⟨R.SST_AUD_FREE_FREE, 0, 0, 21, false⟩]⟩,
  ⟨.SST_AUD_HELD, 0xa00014, 0x0, 1, 0x0, 1, [⟨R.SST_AUD_HELD_HELD, 0, 0, 21, false⟩]⟩,
  ⟨.SST_AUD_TOTAL, 0xa00018, 0x0, 1, 0x0, 1, [⟨R.SST_AUD_TOTAL_TOTAL, 0, 0, 21, false⟩]⟩,
  ⟨.SST_AUD_STATUS, 0xa0001c, 0x0, 1, 0x0, 1, [⟨R.SST_AUD_STATUS_WINDOW, 0, 0, 1, false⟩, ⟨R.SST_AUD_STATUS_FAIL, 0, 1, 1, false⟩, ⟨R.SST_AUD_STATUS_DIFF, 0, 16, 16, false⟩]⟩,
  ⟨.SST_ECC, 0xa00020, 0x0, 1, 0x0, 1, [⟨R.SST_ECC_CORR, 0, 0, 16, false⟩, ⟨R.SST_ECC_UNCORR, 0, 16, 16, false⟩]⟩,
  ⟨.SST_ST_REGION_BASE, 0xa01000, 0x100, 8, 0x0, 1, [⟨R.SST_ST_REGION_BASE_PAGE, 0, 0, 20, false⟩]⟩,
  ⟨.SST_ST_REGION_SIZE, 0xa01004, 0x100, 8, 0x0, 1, [⟨R.SST_ST_REGION_SIZE_SHELVES, 0, 0, 16, false⟩]⟩,
  ⟨.SST_ST_GEOM, 0xa01008, 0x100, 8, 0x0, 1, [⟨R.SST_ST_GEOM_SLOT, 0, 0, 16, false⟩]⟩,
  ⟨.SST_ST_CAP, 0xa0100c, 0x100, 8, 0x0, 1, [⟨R.SST_ST_CAP_K, 0, 0, 32, false⟩]⟩,
  ⟨.SST_ST_WP_LO, 0xa01010, 0x100, 8, 0x0, 1, [⟨R.SST_ST_WP, 0, 0, 32, false⟩]⟩,
  ⟨.SST_ST_WP_HI, 0xa01014, 0x100, 8, 0x0, 1, [⟨R.SST_ST_WP, 32, 0, 16, false⟩]⟩,
  ⟨.SST_ST_U_LO, 0xa01018, 0x100, 8, 0x0, 1, [⟨R.SST_ST_U, 0, 0, 32, false⟩]⟩,
  ⟨.SST_ST_U_HI, 0xa0101c, 0x100, 8, 0x0, 1, [⟨R.SST_ST_U, 32, 0, 16, false⟩]⟩,
  ⟨.SST_ST_BACKLOG, 0xa01020, 0x100, 8, 0x0, 1, [⟨R.SST_ST_BACKLOG_B, 0, 0, 32, false⟩]⟩,
  ⟨.SST_ST_PACE, 0xa01024, 0x100, 8, 0x0, 1, [⟨R.SST_ST_PACE_AXIS, 0, 0, 2, false⟩, ⟨R.SST_ST_PACE_EN, 0, 4, 1, false⟩, ⟨R.SST_ST_PACE_SMIN, 0, 16, 10, false⟩]⟩,
  ⟨.SST_ST_THR_LO, 0xa01028, 0x100, 8, 0x0, 1, [⟨R.SST_ST_THR_LO_LINES, 0, 0, 32, false⟩]⟩,
  ⟨.SST_ST_THR_STOP, 0xa0102c, 0x100, 8, 0x0, 1, [⟨R.SST_ST_THR_STOP_LINES, 0, 0, 32, false⟩]⟩,
  ⟨.SST_ST_THR_RESUME, 0xa01030, 0x100, 8, 0x0, 1, [⟨R.SST_ST_THR_RESUME_LINES, 0, 0, 32, false⟩]⟩,
  ⟨.SST_ST_SCALE, 0xa01034, 0x100, 8, 0x0, 1, [⟨R.SST_ST_SCALE_SCALE, 0, 0, 11, false⟩, ⟨R.SST_ST_SCALE_CAP, 0, 16, 5, false⟩]⟩,
  ⟨.SST_ST_RUNUP, 0xa01038, 0x100, 8, 0x0, 1, [⟨R.SST_ST_RUNUP_LINES, 0, 0, 16, false⟩]⟩,
  ⟨.SST_ST_REW_STATUS, 0xa0103c, 0x100, 8, 0x0, 1, [⟨R.SST_ST_REW_STATUS_PHASE, 0, 0, 4, false⟩, ⟨R.SST_ST_REW_STATUS_LAST_STATUS, 0, 8, 8, false⟩, ⟨R.SST_ST_REW_STATUS_FAIL, 0, 16, 1, false⟩]⟩,
  ⟨.SST_ST_REW_R_LO, 0xa01040, 0x100, 8, 0x0, 1, [⟨R.SST_ST_REW_R, 0, 0, 32, false⟩]⟩]

/-- Registers of spec/07_scan_store_restart.md. -/
def regs07b : List Reg := [
  ⟨.SST_ST_REW_R_HI, 0xa01044, 0x100, 8, 0x0, 1, [⟨R.SST_ST_REW_R, 32, 0, 16, false⟩]⟩,
  ⟨.SST_ST_REW_M_LO, 0xa01048, 0x100, 8, 0x0, 1, [⟨R.SST_ST_REW_M, 0, 0, 32, false⟩]⟩,
  ⟨.SST_ST_REW_M_HI, 0xa0104c, 0x100, 8, 0x0, 1, [⟨R.SST_ST_REW_M, 32, 0, 16, false⟩]⟩,
  ⟨.SST_ST_RESTARTS, 0xa01050, 0x100, 8, 0x0, 1, [⟨R.SST_ST_RESTARTS_COUNT, 0, 0, 32, false⟩]⟩,
  ⟨.SST_ST_SEAM, 0xa01054, 0x100, 8, 0x0, 1, [⟨R.SST_ST_SEAM_THR, 0, 0, 16, false⟩, ⟨R.SST_ST_SEAM_PLANE, 0, 16, 3, false⟩]⟩,
  ⟨.SST_ST_SEAM_RES, 0xa01058, 0x100, 8, 0x0, 1, [⟨R.SST_ST_SEAM_RES_RHO, 0, 0, 16, false⟩, ⟨R.SST_ST_SEAM_RES_RESULT, 0, 16, 2, false⟩, ⟨R.SST_ST_SEAM_RES_LINES, 0, 18, 5, false⟩]⟩,
  ⟨.SST_ST_SHED, 0xa0105c, 0x100, 8, 0x0, 1, [⟨R.SST_ST_SHED_LAG, 0, 0, 8, false⟩]⟩,
  ⟨.SST_ST_HOST_RP_LO, 0xa01060, 0x100, 8, 0x0, 1, [⟨R.SST_ST_HOST_RP, 0, 0, 32, true⟩]⟩,
  ⟨.SST_ST_HOST_RP_HI, 0xa01064, 0x100, 8, 0x0, 1, [⟨R.SST_ST_HOST_RP, 32, 0, 16, true⟩]⟩,
  ⟨.SST_ST_HOST_CTRL, 0xa01068, 0x100, 8, 0x0, 1, [⟨R.SST_ST_HOST_CTRL_EN, 0, 0, 1, true⟩, ⟨R.SST_ST_HOST_CTRL_MARK, 0, 1, 2, false⟩, ⟨R.SST_ST_HOST_CTRL_REWIND, 0, 3, 1, true⟩, ⟨R.SST_ST_HOST_CTRL_LAST_STATUS, 0, 8, 8, false⟩]⟩,
  ⟨.SST_ST_MARK_LO, 0xa01070, 0x100, 8, 0x8, 4, [⟨R.SST_ST_MARK_LINE, 0, 0, 32, false⟩]⟩,
  ⟨.SST_ST_MARK_HI, 0xa01074, 0x100, 8, 0x8, 4, [⟨R.SST_ST_MARK_LINE, 32, 0, 16, false⟩, ⟨R.SST_ST_MARK_SET, 0, 29, 1, true⟩, ⟨R.SST_ST_MARK_CLEAR, 0, 30, 1, true⟩, ⟨R.SST_ST_MARK_VALID, 0, 31, 1, false⟩]⟩,
  ⟨.SST_ST_GAPS, 0xa01090, 0x100, 8, 0x0, 1, [⟨R.SST_ST_GAPS_COUNT, 0, 0, 32, false⟩]⟩,
  ⟨.SST_ST_OVERRUN, 0xa01094, 0x100, 8, 0x0, 1, [⟨R.SST_ST_OVERRUN_COUNT, 0, 0, 32, false⟩]⟩]

/-- Registers of spec/08_queues.md. -/
def regs08 : List Reg := [
  ⟨.QMX_Q_CFG, 0xc00000, 0x20, 262144, 0x0, 1, [⟨R.QMX_Q_CFG_EN, 0, 0, 1, true⟩, ⟨R.QMX_Q_CFG_CLASS, 0, 1, 2, false⟩, ⟨R.QMX_Q_CFG_MAX, 0, 3, 8, false⟩, ⟨R.QMX_Q_CFG_CLOSE_END, 0, 11, 1, false⟩, ⟨R.QMX_Q_CFG_IDLE, 0, 12, 4, false⟩, ⟨R.QMX_Q_CFG_STALL, 0, 16, 4, false⟩, ⟨R.QMX_Q_CFG_STATION, 0, 20, 4, false⟩]⟩,
  ⟨.QMX_Q_RES, 0xc00004, 0x20, 262144, 0x0, 1, [⟨R.QMX_Q_RES_RES, 0, 0, 9, false⟩, ⟨R.QMX_Q_RES_ALLOC, 0, 16, 9, false⟩]⟩,
  ⟨.QMX_Q_STATUS, 0xc00008, 0x20, 262144, 0x0, 1, [⟨R.QMX_Q_STATUS_STATE, 0, 0, 2, false⟩, ⟨R.QMX_Q_STATUS_WR_RESYNC, 0, 2, 1, false⟩, ⟨R.QMX_Q_STATUS_RD_RESYNC, 0, 3, 1, false⟩, ⟨R.QMX_Q_STATUS_WR_DRAWER, 0, 4, 1, false⟩, ⟨R.QMX_Q_STATUS_FULL, 0, 5, 1, false⟩, ⟨R.QMX_Q_STATUS_ALLOC_WAIT, 0, 6, 1, false⟩, ⟨R.QMX_Q_STATUS_READ_WAIT, 0, 7, 1, false⟩, ⟨R.QMX_Q_STATUS_RD_STALL, 0, 8, 1, false⟩, ⟨R.QMX_Q_STATUS_WR_STALL, 0, 9, 1, false⟩, ⟨R.QMX_Q_STATUS_WR_OPEN, 0, 10, 1, false⟩, ⟨R.QMX_Q_STATUS_RD_OPEN, 0, 11, 1, false⟩, ⟨R.QMX_Q_STATUS_OVERFLOW, 0, 12, 1, false⟩, ⟨R.QMX_Q_STATUS_WORDS, 0, 16, 15, false⟩]⟩,
  ⟨.QMX_Q_WR_PKTS, 0xc0000c, 0x20, 262144, 0x0, 1, [⟨R.QMX_Q_WR_PKTS_COUNT, 0, 0, 32, false⟩]⟩,
  ⟨.QMX_Q_RD_PKTS, 0xc00010, 0x20, 262144, 0x0, 1, [⟨R.QMX_Q_RD_PKTS_COUNT, 0, 0, 32, false⟩]⟩,
  ⟨.QMX_Q_DISC, 0xc00014, 0x20, 262144, 0x0, 1, [⟨R.QMX_Q_DISC_COUNT, 0, 0, 32, false⟩]⟩,
  ⟨.QMX_Q_ECC, 0xc00018, 0x20, 262144, 0x0, 1, [⟨R.QMX_Q_ECC_CORR, 0, 0, 8, false⟩, ⟨R.QMX_Q_ECC_UNCORR, 0, 8, 8, false⟩, ⟨R.QMX_Q_ECC_TRUNC, 0, 16, 16, false⟩]⟩,
  ⟨.QMX_Q_CMD, 0xc0001c, 0x20, 262144, 0x0, 1, [⟨R.QMX_Q_CMD_FLUSH, 0, 0, 1, true⟩, ⟨R.QMX_Q_CMD_LAST_STATUS, 0, 8, 8, false⟩, ⟨R.QMX_Q_CMD_DROP_WORDS, 0, 16, 16, false⟩]⟩,
  ⟨.QMX_POOL_CFG, 0x208000, 0x0, 1, 0x0, 1, [⟨R.QMX_POOL_CFG_LOW_WM, 0, 0, 16, false⟩, ⟨R.QMX_POOL_CFG_RES_LIMIT, 0, 16, 16, false⟩]⟩,
  ⟨.QMX_POOL_FREE, 0x208004, 0x0, 1, 0x0, 1, [⟨R.QMX_POOL_FREE_FREE, 0, 0, 17, false⟩]⟩,
  ⟨.QMX_POOL_RES, 0x208008, 0x0, 1, 0x0, 1, [⟨R.QMX_POOL_RES_TOTAL, 0, 0, 16, false⟩, ⟨R.QMX_POOL_RES_UNUSED, 0, 16, 16, false⟩]⟩,
  ⟨.QMX_AUD_ALLOC, 0x20800c, 0x0, 1, 0x0, 1, [⟨R.QMX_AUD_ALLOC_ALLOC, 0, 0, 17, false⟩]⟩,
  ⟨.QMX_AUD_TRANSIT, 0x208010, 0x0, 1, 0x0, 1, [⟨R.QMX_AUD_TRANSIT_TRANSIT, 0, 0, 17, false⟩]⟩,
  ⟨.QMX_AUD_STATUS, 0x208014, 0x0, 1, 0x0, 1, [⟨R.QMX_AUD_STATUS_FAIL, 0, 1, 1, false⟩, ⟨R.QMX_AUD_STATUS_AGE_FAIL, 0, 2, 1, false⟩, ⟨R.QMX_AUD_STATUS_DIFF, 0, 16, 16, false⟩]⟩,
  ⟨.QMX_ECC, 0x208018, 0x0, 1, 0x0, 1, [⟨R.QMX_ECC_CORR, 0, 0, 16, false⟩, ⟨R.QMX_ECC_UNCORR, 0, 16, 16, false⟩]⟩,
  ⟨.QMX_STATUS, 0x20801c, 0x0, 1, 0x0, 1, [⟨R.QMX_STATUS_LAST_STATUS, 0, 0, 8, false⟩, ⟨R.QMX_STATUS_LOW, 0, 8, 1, false⟩, ⟨R.QMX_STATUS_ENABLED, 0, 13, 19, false⟩]⟩,
  ⟨.QMX_EVT_LAST, 0x208020, 0x0, 1, 0x0, 1, [⟨R.QMX_EVT_LAST_QUEUE, 0, 0, 18, false⟩, ⟨R.QMX_EVT_LAST_KIND, 0, 20, 4, false⟩]⟩]

/-- Registers of spec/09_engine_array.md. -/
def regs09 : List Reg := [
  ⟨.IEA_ENG_CTRL, 0x1400000, 0x4000, 512, 0x0, 1, [⟨R.IEA_ENG_CTRL_STATION, 0, 0, 3, false⟩, ⟨R.IEA_ENG_CTRL_BOUND, 0, 3, 1, false⟩, ⟨R.IEA_ENG_CTRL_SECURE, 0, 4, 1, false⟩, ⟨R.IEA_ENG_CTRL_LEAD, 0, 5, 2, false⟩, ⟨R.IEA_ENG_CTRL_SIGMA, 0, 8, 24, false⟩]⟩,
  ⟨.IEA_ENG_STATUS, 0x1400004, 0x4000, 512, 0x0, 1, [⟨R.IEA_ENG_STATUS_STATE, 0, 0, 3, false⟩, ⟨R.IEA_ENG_STATUS_PHASE, 0, 3, 2, false⟩, ⟨R.IEA_ENG_STATUS_PC, 0, 5, 4, false⟩, ⟨R.IEA_ENG_STATUS_SEQ, 0, 9, 3, false⟩, ⟨R.IEA_ENG_STATUS_LOOP, 0, 12, 20, false⟩]⟩,
  ⟨.IEA_ENG_CMD, 0x1400008, 0x4000, 512, 0x0, 1, [⟨R.IEA_ENG_CMD_CONT, 0, 0, 1, true⟩, ⟨R.IEA_ENG_CMD_LAST_STATUS, 0, 8, 8, false⟩]⟩,
  ⟨.IEA_ENG_PORT, 0x1400010, 0x4000, 512, 0x4, 4, [⟨R.IEA_ENG_PORT_QUEUE, 0, 0, 18, false⟩, ⟨R.IEA_ENG_PORT_DIR, 0, 20, 1, false⟩, ⟨R.IEA_ENG_PORT_USED, 0, 21, 1, false⟩]⟩,
  ⟨.IEA_ENG_TOK_ISSUED, 0x1400020, 0x4000, 512, 0x0, 1, [⟨R.IEA_ENG_TOK_ISSUED_COUNT, 0, 0, 32, false⟩]⟩,
  ⟨.IEA_ENG_TOK_RETIRED, 0x1400024, 0x4000, 512, 0x0, 1, [⟨R.IEA_ENG_TOK_RETIRED_COUNT, 0, 0, 32, false⟩]⟩,
  ⟨.IEA_ENG_TOK_OPEN, 0x1400028, 0x4000, 512, 0x0, 1, [⟨R.IEA_ENG_TOK_OPEN_OPEN, 0, 0, 3, false⟩, ⟨R.IEA_ENG_TOK_OPEN_VOIDED, 0, 16, 16, false⟩]⟩,
  ⟨.IEA_ENG_BAND_LO, 0x140002c, 0x4000, 512, 0x0, 1, [⟨R.IEA_ENG_BAND_BAND, 0, 0, 32, false⟩]⟩,
  ⟨.IEA_ENG_BAND_HI, 0x1400030, 0x4000, 512, 0x0, 1, [⟨R.IEA_ENG_BAND_BAND, 32, 0, 10, false⟩, ⟨R.IEA_ENG_BAND_VALID, 0, 31, 1, false⟩]⟩,
  ⟨.IEA_ENG_SLOTS_LO, 0x1400034, 0x4000, 512, 0x0, 1, [⟨R.IEA_ENG_SLOTS, 0, 0, 32, false⟩]⟩,
  ⟨.IEA_ENG_SLOTS_HI, 0x1400038, 0x4000, 512, 0x0, 1, [⟨R.IEA_ENG_SLOTS, 32, 0, 16, false⟩]⟩,
  ⟨.IEA_ENG_EVT, 0x140003c, 0x4000, 512, 0x0, 1, [⟨R.IEA_ENG_EVT_CODE, 0, 0, 8, false⟩, ⟨R.IEA_ENG_EVT_PENDING, 0, 8, 1, false⟩, ⟨R.IEA_ENG_EVT_COUNT, 0, 16, 16, false⟩]⟩,
  ⟨.IEA_ENG_EVT_WPI_LO, 0x1400040, 0x4000, 512, 0x0, 1, [⟨R.IEA_ENG_EVT_WPI, 0, 0, 32, false⟩]⟩,
  ⟨.IEA_ENG_EVT_WPI_HI, 0x1400044, 0x4000, 512, 0x0, 1, [⟨R.IEA_ENG_EVT_WPI, 32, 0, 16, false⟩]⟩,
  ⟨.IEA_ENG_FAULT, 0x1400048, 0x4000, 512, 0x0, 1, [⟨R.IEA_ENG_FAULT_KIND, 0, 0, 4, false⟩, ⟨R.IEA_ENG_FAULT_CELL, 0, 4, 6, false⟩, ⟨R.IEA_ENG_FAULT_NEW, 0, 16, 1, false⟩]⟩,
  ⟨.IEA_ENG_FAULT_WPI_LO, 0x140004c, 0x4000, 512, 0x0, 1, [⟨R.IEA_ENG_FAULT_WPI, 0, 0, 32, false⟩]⟩,
  ⟨.IEA_ENG_FAULT_WPI_HI, 0x1400050, 0x4000, 512, 0x0, 1, [⟨R.IEA_ENG_FAULT_WPI, 32, 0, 16, false⟩]⟩,
  ⟨.IEA_ENG_LS_ECC, 0x1400054, 0x4000, 512, 0x0, 1, [⟨R.IEA_ENG_LS_ECC_CORR, 0, 0, 16, false⟩, ⟨R.IEA_ENG_LS_ECC_UNCORR, 0, 16, 16, false⟩]⟩,
  ⟨.IEA_ENG_LS_ADDR, 0x1400058, 0x4000, 512, 0x0, 1, [⟨R.IEA_ENG_LS_ADDR_ADDR, 0, 2, 16, false⟩]⟩,
  ⟨.IEA_ENG_LS_DATA, 0x140005c, 0x4000, 512, 0x0, 1, [⟨R.IEA_ENG_LS_DATA_DATA, 0, 0, 32, true⟩]⟩,
  ⟨.IEA_ENG_LS_USED, 0x1400060, 0x4000, 512, 0x0, 1, [⟨R.IEA_ENG_LS_USED_UNITS, 0, 0, 13, false⟩]⟩,
  ⟨.IEA_ENG_OVF, 0x1400064, 0x4000, 512, 0x0, 1, [⟨R.IEA_ENG_OVF_PAGE, 0, 0, 20, false⟩, ⟨R.IEA_ENG_OVF_PAGES, 0, 20, 12, false⟩]⟩,
  ⟨.IEA_ENG_SEQ, 0x1400100, 0x4000, 512, 0x4, 16, [⟨R.IEA_ENG_SEQ_INSTR, 0, 0, 32, false⟩]⟩,
  ⟨.IEA_STATUS, 0x209000, 0x0, 1, 0x0, 1, [⟨R.IEA_STATUS_LAST_STATUS, 0, 0, 8, false⟩, ⟨R.IEA_STATUS_FAULTED, 0, 16, 10, false⟩]⟩]

/-- Registers of spec/09_engine_array.md. -/
def regs09b : List Reg := [
  ⟨.IEA_CFG, 0x209004, 0x0, 1, 0x0, 1, [⟨R.IEA_CFG_HS_TIMEOUT, 0, 0, 8, false⟩]⟩,
  ⟨.IEA_AUD_STATUS, 0x209008, 0x0, 1, 0x0, 1, [⟨R.IEA_AUD_STATUS_WINDOW, 0, 0, 1, false⟩, ⟨R.IEA_AUD_STATUS_FAIL, 0, 1, 1, false⟩, ⟨R.IEA_AUD_STATUS_ENGINE, 0, 16, 9, false⟩]⟩,
  ⟨.IEA_OVF_USED, 0x20900c, 0x0, 1, 0x0, 1, [⟨R.IEA_OVF_USED_PAGES, 0, 0, 20, false⟩]⟩,
  ⟨.IEA_CL_FAULT, 0x209100, 0x4, 16, 0x0, 1, [⟨R.IEA_CL_FAULT_MASK, 0, 0, 32, false⟩]⟩,
  ⟨.IEA_CL_BOUND, 0x209140, 0x4, 16, 0x0, 1, [⟨R.IEA_CL_BOUND_MASK, 0, 0, 32, false⟩]⟩]

/-- Registers of spec/11_structure_image.md. -/
def regs11 : List Reg := [
  ⟨.SCU_IMG_CTRL, 0x200000, 0x0, 1, 0x0, 1, [⟨R.SCU_IMG_CTRL_SRC, 0, 4, 1, false⟩, ⟨R.SCU_IMG_CTRL_GO, 0, 31, 1, true⟩]⟩,
  ⟨.SCU_IMG_SRC_LO, 0x200004, 0x0, 1, 0x0, 1, [⟨R.SCU_IMG_SRC_ADDR, 0, 0, 32, false⟩]⟩,
  ⟨.SCU_IMG_SRC_HI, 0x200008, 0x0, 1, 0x0, 1, [⟨R.SCU_IMG_SRC_ADDR, 32, 0, 32, false⟩]⟩,
  ⟨.SCU_IMG_LEN, 0x20000c, 0x0, 1, 0x0, 1, [⟨R.SCU_IMG_LEN_LENGTH, 0, 0, 29, false⟩]⟩,
  ⟨.SCU_IMG_STATUS, 0x200010, 0x0, 1, 0x0, 1, [⟨R.SCU_IMG_STATUS_STATUS, 0, 0, 8, false⟩, ⟨R.SCU_IMG_STATUS_STAGE, 0, 8, 4, false⟩, ⟨R.SCU_IMG_STATUS_BUSY, 0, 12, 1, false⟩, ⟨R.SCU_IMG_STATUS_UNVERIFIED, 0, 13, 1, false⟩, ⟨R.SCU_IMG_STATUS_IN_FORCE, 0, 14, 1, false⟩, ⟨R.SCU_IMG_STATUS_SECTION, 0, 16, 16, false⟩]⟩,
  ⟨.SCU_IMG_FAIL_OFF, 0x200014, 0x0, 1, 0x0, 1, [⟨R.SCU_IMG_FAIL_OFF_OFFSET, 0, 0, 32, false⟩]⟩,
  ⟨.SCU_IMG_REFUSED, 0x200018, 0x0, 1, 0x0, 1, [⟨R.SCU_IMG_REFUSED_COUNT, 0, 0, 32, false⟩]⟩,
  ⟨.SCU_IMG_ID_LO, 0x20001c, 0x0, 1, 0x0, 1, [⟨R.SCU_IMG_ID, 0, 0, 32, false⟩]⟩,
  ⟨.SCU_IMG_ID_HI, 0x200020, 0x0, 1, 0x0, 1, [⟨R.SCU_IMG_ID, 32, 0, 32, false⟩]⟩,
  ⟨.SCU_IMG_VER, 0x200024, 0x0, 1, 0x0, 1, [⟨R.SCU_IMG_VER_VER, 0, 0, 32, false⟩]⟩,
  ⟨.SCU_IMG_DIGEST, 0x200040, 0x4, 12, 0x0, 1, [⟨R.SCU_IMG_DIGEST_DIGEST, 0, 0, 32, false⟩]⟩,
  ⟨.SCU_RLD_CTRL, 0x200100, 0x0, 1, 0x0, 1, [⟨R.SCU_RLD_CTRL_CANCEL, 0, 0, 1, true⟩]⟩,
  ⟨.SCU_RLD_H_LO, 0x200104, 0x0, 1, 0x0, 1, [⟨R.SCU_RLD_H, 0, 0, 32, false⟩]⟩,
  ⟨.SCU_RLD_H_HI, 0x200108, 0x0, 1, 0x0, 1, [⟨R.SCU_RLD_H, 32, 0, 16, false⟩]⟩,
  ⟨.SCU_RLD_STATUS, 0x20010c, 0x0, 1, 0x0, 1, [⟨R.SCU_RLD_STATUS_PHASE, 0, 0, 3, false⟩, ⟨R.SCU_RLD_STATUS_STATION, 0, 4, 3, false⟩, ⟨R.SCU_RLD_STATUS_LAST_STATUS, 0, 8, 8, false⟩, ⟨R.SCU_RLD_STATUS_DONE, 0, 16, 1, false⟩]⟩,
  ⟨.SCU_RLD_MASK_LO, 0x200110, 0x0, 1, 0x0, 1, [⟨R.SCU_RLD_MASK_GROUPS, 0, 0, 32, false⟩]⟩,
  ⟨.SCU_RLD_MASK_HI, 0x200114, 0x0, 1, 0x0, 1, [⟨R.SCU_RLD_MASK_GROUPS, 32, 0, 32, false⟩]⟩,
  ⟨.SCU_RLD_COUNT, 0x200118, 0x0, 1, 0x0, 1, [⟨R.SCU_RLD_COUNT_COUNT, 0, 0, 32, false⟩]⟩]

/-- Registers of spec/12_sealed_state.md. -/
def regs12 : List Reg := [
  ⟨.SCU_SEAL_CFG, 0x20a000, 0x0, 1, 0x0, 1, [⟨R.SCU_SEAL_CFG_FREEZE_MS, 0, 0, 16, false⟩]⟩,
  ⟨.SCU_SEAL_AUD, 0x20a004, 0x0, 1, 0x0, 1, [⟨R.SCU_SEAL_AUD_LATCHED, 0, 0, 5, false⟩, ⟨R.SCU_SEAL_AUD_FAILING, 0, 8, 5, false⟩]⟩,
  ⟨.SCU_SEAL_ST_CTRL, 0x20a100, 0x100, 8, 0x0, 1, [⟨R.SCU_SEAL_ST_CTRL_MAXLAT, 0, 0, 10, false⟩, ⟨R.SCU_SEAL_ST_CTRL_SNAP_LOG, 0, 16, 4, false⟩, ⟨R.SCU_SEAL_ST_CTRL_THAW, 0, 31, 1, true⟩]⟩,
  ⟨.SCU_SEAL_ST_STATUS, 0x20a104, 0x100, 8, 0x0, 1, [⟨R.SCU_SEAL_ST_STATUS_VALID, 0, 0, 1, false⟩, ⟨R.SCU_SEAL_ST_STATUS_FROZEN, 0, 1, 1, false⟩, ⟨R.SCU_SEAL_ST_STATUS_LATE, 0, 2, 1, false⟩, ⟨R.SCU_SEAL_ST_STATUS_HELD_BY, 0, 4, 3, false⟩, ⟨R.SCU_SEAL_ST_STATUS_LAST_STATUS, 0, 8, 8, false⟩]⟩,
  ⟨.SCU_SEAL_ST_HZN_LO, 0x20a108, 0x100, 8, 0x0, 1, [⟨R.SCU_SEAL_ST_HZN_BAND, 0, 0, 32, false⟩]⟩,
  ⟨.SCU_SEAL_ST_HZN_HI, 0x20a10c, 0x100, 8, 0x0, 1, [⟨R.SCU_SEAL_ST_HZN_BAND, 32, 0, 10, false⟩]⟩,
  ⟨.SCU_SEAL_ST_LOCAL_LO, 0x20a110, 0x100, 8, 0x0, 1, [⟨R.SCU_SEAL_ST_LOCAL_BAND, 0, 0, 32, false⟩]⟩,
  ⟨.SCU_SEAL_ST_LOCAL_HI, 0x20a114, 0x100, 8, 0x0, 1, [⟨R.SCU_SEAL_ST_LOCAL_BAND, 32, 0, 10, false⟩]⟩,
  ⟨.SCU_SEAL_ST_LAT, 0x20a118, 0x100, 8, 0x0, 1, [⟨R.SCU_SEAL_ST_LAT_NS, 0, 0, 32, false⟩]⟩,
  ⟨.SCU_SEAL_ST_COUNT, 0x20a11c, 0x100, 8, 0x0, 1, [⟨R.SCU_SEAL_ST_COUNT_COUNT, 0, 0, 32, false⟩]⟩,
  ⟨.SCU_SEAL_ST_SNAP_BAND_LO, 0x20a120, 0x100, 8, 0x0, 1, [⟨R.SCU_SEAL_ST_SNAP_BAND_BAND, 0, 0, 32, false⟩]⟩,
  ⟨.SCU_SEAL_ST_SNAP_BAND_HI, 0x20a124, 0x100, 8, 0x0, 1, [⟨R.SCU_SEAL_ST_SNAP_BAND_BAND, 32, 0, 10, false⟩]⟩,
  ⟨.SCU_SEAL_ST_SNAP, 0x20a140, 0x100, 8, 0x4, 15, [⟨R.SCU_SEAL_ST_SNAP_COUNT, 0, 0, 32, false⟩]⟩]

/-- Registers of spec/13_kelim_ring.md. -/
def regs13 : List Reg := [
  ⟨.KRU_CFG, 0x1c00000, 0x0, 1, 0x0, 1, [⟨R.KRU_CFG_EN, 0, 0, 1, true⟩, ⟨R.KRU_CFG_TIMING, 0, 1, 1, true⟩, ⟨R.KRU_CFG_MIN_LANES, 0, 4, 5, false⟩, ⟨R.KRU_CFG_TOKEN_TIMEOUT, 0, 16, 8, false⟩, ⟨R.KRU_CFG_REFORM_MS, 0, 24, 8, false⟩]⟩,
  ⟨.KRU_STATUS, 0x1c00004, 0x0, 1, 0x0, 1, [⟨R.KRU_STATUS_STATE, 0, 0, 3, false⟩, ⟨R.KRU_STATUS_ROLE, 0, 4, 2, false⟩, ⟨R.KRU_STATUS_LAST_STATUS, 0, 8, 8, false⟩, ⟨R.KRU_STATUS_ID, 0, 16, 16, false⟩]⟩,
  ⟨.KRU_TIME_LO, 0x1c00008, 0x0, 1, 0x0, 1, [⟨R.KRU_TIME, 0, 0, 32, false⟩]⟩,
  ⟨.KRU_TIME_HI, 0x1c0000c, 0x0, 1, 0x0, 1, [⟨R.KRU_TIME, 32, 0, 32, false⟩]⟩,
  ⟨.KRU_AUD, 0x1c00010, 0x0, 1, 0x0, 1, [⟨R.KRU_AUD_WINDOW, 0, 0, 1, false⟩, ⟨R.KRU_AUD_DUP, 0, 1, 1, false⟩, ⟨R.KRU_AUD_COUNT_ERR, 0, 2, 1, false⟩, ⟨R.KRU_AUD_LOST, 0, 3, 1, false⟩, ⟨R.KRU_AUD_MISMATCH, 0, 4, 1, false⟩, ⟨R.KRU_AUD_IN_FLIGHT, 0, 16, 16, false⟩]⟩,
  ⟨.KRU_TOK_ISSUED, 0x1c00014, 0x0, 1, 0x0, 1, [⟨R.KRU_TOK_ISSUED_COUNT, 0, 0, 32, false⟩]⟩,
  ⟨.KRU_TOK_RETIRED, 0x1c00018, 0x0, 1, 0x0, 1, [⟨R.KRU_TOK_RETIRED_COUNT, 0, 0, 32, false⟩]⟩,
  ⟨.KRU_MEMBER_SEL, 0x1c00020, 0x0, 1, 0x0, 1, [⟨R.KRU_MEMBER_SEL_ID, 0, 0, 16, false⟩]⟩,
  ⟨.KRU_MEMBER_INFO, 0x1c00024, 0x0, 1, 0x0, 1, [⟨R.KRU_MEMBER_INFO_ROLE, 0, 0, 2, false⟩, ⟨R.KRU_MEMBER_INFO_STATIONS, 0, 8, 8, false⟩, ⟨R.KRU_MEMBER_INFO_ID, 0, 16, 16, false⟩]⟩,
  ⟨.KRU_PORT_STATUS, 0x1c00100, 0x20, 2, 0x0, 1, [⟨R.KRU_PORT_STATUS_STATE, 0, 0, 3, false⟩, ⟨R.KRU_PORT_STATUS_LAST_STATUS, 0, 8, 8, false⟩, ⟨R.KRU_PORT_STATUS_NEIGHBOUR, 0, 16, 16, false⟩]⟩,
  ⟨.KRU_PORT_LANES, 0x1c00104, 0x20, 2, 0x0, 1, [⟨R.KRU_PORT_LANES_ACTIVE, 0, 0, 16, false⟩, ⟨R.KRU_PORT_LANES_DELAY, 0, 16, 16, false⟩]⟩,
  ⟨.KRU_PORT_ERR, 0x1c00108, 0x20, 2, 0x0, 1, [⟨R.KRU_PORT_ERR_COUNT, 0, 0, 32, false⟩]⟩,
  ⟨.KRU_ST_CTRL, 0x1c01000, 0x40, 8, 0x0, 1, [⟨R.KRU_ST_CTRL_RING, 0, 0, 1, false⟩, ⟨R.KRU_ST_CTRL_LEAD, 0, 1, 15, false⟩, ⟨R.KRU_ST_CTRL_TLOCAL, 0, 16, 16, false⟩]⟩,
  ⟨.KRU_ST_STATUS, 0x1c01004, 0x40, 8, 0x0, 1, [⟨R.KRU_ST_STATUS_ALIGN, 0, 0, 3, false⟩, ⟨R.KRU_ST_STATUS_ALIGN_ERR, 0, 3, 1, false⟩, ⟨R.KRU_ST_STATUS_HINGE_UNM, 0, 4, 1, false⟩, ⟨R.KRU_ST_STATUS_LAST_STATUS, 0, 8, 8, false⟩, ⟨R.KRU_ST_STATUS_NMAX, 0, 16, 16, false⟩]⟩,
  ⟨.KRU_ST_OFS_LO, 0x1c01008, 0x40, 8, 0x0, 1, [⟨R.KRU_ST_OFS_COUNT, 0, 0, 32, false⟩]⟩,
  ⟨.KRU_ST_OFS_HI, 0x1c0100c, 0x40, 8, 0x0, 1, [⟨R.KRU_ST_OFS_COUNT, 32, 0, 16, false⟩, ⟨R.KRU_ST_OFS_PHASE, 0, 16, 16, false⟩]⟩,
  ⟨.KRU_ST_HINGE_LO, 0x1c01010, 0x40, 8, 0x0, 1, [⟨R.KRU_ST_HINGE_H, 0, 0, 32, false⟩]⟩,
  ⟨.KRU_ST_HINGE_HI, 0x1c01014, 0x40, 8, 0x0, 1, [⟨R.KRU_ST_HINGE_H, 32, 0, 16, false⟩]⟩]

/-- Registers of spec/14_host_interface.md. -/
def regs14 : List Reg := [
  ⟨.HIF_CTRL, 0x1d00000, 0x0, 1, 0x0, 1, [⟨R.HIF_CTRL_EN, 0, 0, 1, false⟩, ⟨R.HIF_CTRL_ECRC, 0, 8, 1, false⟩]⟩,
  ⟨.HIF_STATUS, 0x1d00004, 0x0, 1, 0x0, 1, [⟨R.HIF_STATUS_LAST_STATUS, 0, 0, 8, false⟩, ⟨R.HIF_STATUS_SPEED, 0, 8, 4, false⟩, ⟨R.HIF_STATUS_WIDTH, 0, 12, 6, false⟩]⟩,
  ⟨.HIF_PCIE_ERR, 0x1d00008, 0x0, 1, 0x0, 1, [⟨R.HIF_PCIE_ERR_BAD, 0, 0, 16, false⟩, ⟨R.HIF_PCIE_ERR_CPL_ERR, 0, 16, 16, false⟩]⟩,
  ⟨.HIF_EVT_PEND, 0x1d00100, 0x4, 48, 0x0, 1, [⟨R.HIF_EVT_PEND_PEND, 0, 0, 32, false⟩]⟩,
  ⟨.HIF_EVT_EN, 0x1d00200, 0x4, 48, 0x0, 1, [⟨R.HIF_EVT_EN_EN, 0, 0, 32, false⟩]⟩,
  ⟨.HIF_EVT_SUM_LO, 0x1d00300, 0x0, 1, 0x0, 1, [⟨R.HIF_EVT_SUM_LO_GROUPS, 0, 0, 32, false⟩]⟩,
  ⟨.HIF_EVT_SUM_HI, 0x1d00304, 0x0, 1, 0x0, 1, [⟨R.HIF_EVT_SUM_HI_GROUPS, 0, 0, 16, false⟩]⟩,
  ⟨.HIF_EVT_MAP, 0x1d01000, 0x4, 1536, 0x0, 1, [⟨R.HIF_EVT_MAP_VECTOR, 0, 0, 8, false⟩, ⟨R.HIF_EVT_MAP_FN, 0, 8, 1, false⟩]⟩,
  ⟨.HIF_VEC_MOD, 0x1d03000, 0x400, 2, 0x4, 256, [⟨R.HIF_VEC_MOD_INTERVAL, 0, 0, 16, false⟩]⟩,
  ⟨.HIF_HQ, 0x1d04000, 0x4, 1024, 0x0, 1, [⟨R.HIF_HQ_QUEUE, 0, 0, 18, false⟩, ⟨R.HIF_HQ_STREAM, 0, 18, 6, false⟩, ⟨R.HIF_HQ_EN, 0, 31, 1, true⟩]⟩,
  ⟨.HIF_ST_CTRL, 0x1d06000, 0x40, 64, 0x0, 1, [⟨R.HIF_ST_CTRL_EN, 0, 0, 1, true⟩, ⟨R.HIF_ST_CTRL_KIND, 0, 1, 1, false⟩, ⟨R.HIF_ST_CTRL_STATION, 0, 2, 3, false⟩, ⟨R.HIF_ST_CTRL_GAPS, 0, 5, 1, false⟩, ⟨R.HIF_ST_CTRL_SNAP, 0, 6, 1, false⟩, ⟨R.HIF_ST_CTRL_PORT, 0, 8, 2, false⟩, ⟨R.HIF_ST_CTRL_CHUNK, 0, 10, 10, false⟩, ⟨R.HIF_ST_CTRL_RING_LOG, 0, 20, 5, false⟩]⟩,
  ⟨.HIF_ST_RING_LO, 0x1d06004, 0x40, 64, 0x0, 1, [⟨R.HIF_ST_RING_LO_ADDR_LO, 0, 6, 26, false⟩]⟩,
  ⟨.HIF_ST_RING_HI, 0x1d06008, 0x40, 64, 0x0, 1, [⟨R.HIF_ST_RING_HI_ADDR_HI, 0, 0, 32, false⟩]⟩,
  ⟨.HIF_ST_HEAD, 0x1d0600c, 0x40, 64, 0x0, 1, [⟨R.HIF_ST_HEAD_HEAD, 0, 0, 16, false⟩]⟩,
  ⟨.HIF_ST_TAIL, 0x1d06010, 0x40, 64, 0x0, 1, [⟨R.HIF_ST_TAIL_TAIL, 0, 0, 16, true⟩]⟩,
  ⟨.HIF_ST_STATUS, 0x1d06014, 0x40, 64, 0x0, 1, [⟨R.HIF_ST_STATUS_STATE, 0, 0, 2, false⟩, ⟨R.HIF_ST_STATUS_LAST_STATUS, 0, 8, 8, false⟩, ⟨R.HIF_ST_STATUS_FAULT, 0, 16, 1, false⟩]⟩,
  ⟨.HIF_ST_SEQ, 0x1d06018, 0x40, 64, 0x0, 1, [⟨R.HIF_ST_SEQ_SEQ, 0, 0, 32, false⟩]⟩,
  ⟨.HIF_ST_BAND_LO, 0x1d0601c, 0x40, 64, 0x0, 1, [⟨R.HIF_ST_BAND, 0, 0, 32, false⟩]⟩,
  ⟨.HIF_ST_BAND_HI, 0x1d06020, 0x40, 64, 0x0, 1, [⟨R.HIF_ST_BAND, 32, 0, 10, false⟩]⟩,
  ⟨.HIF_ST_DST_MAC_LO, 0x1d06024, 0x40, 64, 0x0, 1, [⟨R.HIF_ST_DST_MAC_MAC, 0, 0, 32, false⟩]⟩,
  ⟨.HIF_ST_DST_MAC_HI, 0x1d06028, 0x40, 64, 0x0, 1, [⟨R.HIF_ST_DST_MAC_MAC, 32, 0, 16, false⟩, ⟨R.HIF_ST_DST_MAC_VID, 0, 16, 12, false⟩, ⟨R.HIF_ST_DST_MAC_VLAN_EN, 0, 31, 1, false⟩]⟩,
  ⟨.HIF_ST_DST_IP, 0x1d0602c, 0x40, 64, 0x0, 1, [⟨R.HIF_ST_DST_IP_IP, 0, 0, 32, false⟩]⟩,
  ⟨.HIF_ST_UDP, 0x1d06030, 0x40, 64, 0x0, 1, [⟨R.HIF_ST_UDP_DST_PORT, 0, 0, 16, false⟩, ⟨R.HIF_ST_UDP_SRC_PORT, 0, 16, 16, false⟩]⟩,
  ⟨.HIF_ST_RATE, 0x1d06034, 0x40, 64, 0x0, 1, [⟨R.HIF_ST_RATE_MBPS, 0, 0, 17, false⟩, ⟨R.HIF_ST_RATE_DSCP, 0, 24, 6, false⟩]⟩]

/-- Registers of spec/14_host_interface.md. -/
def regs14b : List Reg := [
  ⟨.HIF_ETH_CTRL, 0x1d08000, 0x40, 4, 0x0, 1, [⟨R.HIF_ETH_CTRL_EN, 0, 0, 1, true⟩, ⟨R.HIF_ETH_CTRL_MEDIA, 0, 1, 1, true⟩, ⟨R.HIF_ETH_CTRL_AN_EN, 0, 2, 1, true⟩, ⟨R.HIF_ETH_CTRL_MTU, 0, 16, 14, true⟩]⟩,
  ⟨.HIF_ETH_STATUS, 0x1d08004, 0x40, 4, 0x0, 1, [⟨R.HIF_ETH_STATUS_LINK, 0, 0, 1, false⟩, ⟨R.HIF_ETH_STATUS_FEC_LOCK, 0, 1, 1, false⟩, ⟨R.HIF_ETH_STATUS_CHANGED, 0, 2, 1, false⟩, ⟨R.HIF_ETH_STATUS_PAUSED, 0, 3, 1, false⟩]⟩,
  ⟨.HIF_ETH_MAC_LO, 0x1d08008, 0x40, 4, 0x0, 1, [⟨R.HIF_ETH_MAC, 0, 0, 32, true⟩]⟩,
  ⟨.HIF_ETH_MAC_HI, 0x1d0800c, 0x40, 4, 0x0, 1, [⟨R.HIF_ETH_MAC, 32, 0, 16, true⟩]⟩,
  ⟨.HIF_ETH_IP, 0x1d08010, 0x40, 4, 0x0, 1, [⟨R.HIF_ETH_IP_IP, 0, 0, 32, true⟩]⟩,
  ⟨.HIF_ETH_RX_DROP, 0x1d08014, 0x40, 4, 0x0, 1, [⟨R.HIF_ETH_RX_DROP_COUNT, 0, 0, 32, false⟩]⟩,
  ⟨.HIF_ETH_FEC, 0x1d08018, 0x40, 4, 0x0, 1, [⟨R.HIF_ETH_FEC_CORR, 0, 0, 16, false⟩, ⟨R.HIF_ETH_FEC_UNCORR, 0, 16, 16, false⟩]⟩,
  ⟨.HIF_PTP_CTRL, 0x1d09000, 0x0, 1, 0x0, 1, [⟨R.HIF_PTP_CTRL_EN, 0, 0, 1, false⟩, ⟨R.HIF_PTP_CTRL_PORT, 0, 1, 2, false⟩, ⟨R.HIF_PTP_CTRL_TRANSPORT, 0, 3, 1, false⟩, ⟨R.HIF_PTP_CTRL_DOMAIN, 0, 8, 8, false⟩, ⟨R.HIF_PTP_CTRL_LOCK_NS, 0, 16, 16, false⟩]⟩,
  ⟨.HIF_PTP_STATUS, 0x1d09004, 0x0, 1, 0x0, 1, [⟨R.HIF_PTP_STATUS_LOCK, 0, 0, 1, false⟩, ⟨R.HIF_PTP_STATUS_CHANGED, 0, 1, 1, false⟩, ⟨R.HIF_PTP_STATUS_MASTER_SEEN, 0, 2, 1, false⟩]⟩,
  ⟨.HIF_PTP_OFFSET, 0x1d09008, 0x0, 1, 0x0, 1, [⟨R.HIF_PTP_OFFSET_NS, 0, 0, 32, false⟩]⟩,
  ⟨.HIF_PTP_DELAY, 0x1d0900c, 0x0, 1, 0x0, 1, [⟨R.HIF_PTP_DELAY_NS, 0, 0, 32, false⟩]⟩,
  ⟨.HIF_PTP_SEC_LO, 0x1d09010, 0x0, 1, 0x0, 1, [⟨R.HIF_PTP_SEC_SEC, 0, 0, 32, false⟩]⟩,
  ⟨.HIF_PTP_SEC_HI, 0x1d09014, 0x0, 1, 0x0, 1, [⟨R.HIF_PTP_SEC_SEC, 32, 0, 16, false⟩]⟩,
  ⟨.HIF_PTP_NS, 0x1d09018, 0x0, 1, 0x0, 1, [⟨R.HIF_PTP_NS_NS, 0, 0, 30, false⟩]⟩]

/-- Registers of spec/16_illumination.md. -/
def regs16 : List Reg := [
  ⟨.ILC_CTRL, 0x1e00000, 0x0, 1, 0x0, 1, [⟨R.ILC_CTRL_EN, 0, 0, 1, false⟩]⟩,
  ⟨.ILC_STATUS, 0x1e00004, 0x0, 1, 0x0, 1, [⟨R.ILC_STATUS_LAST_STATUS, 0, 0, 8, false⟩, ⟨R.ILC_STATUS_FAULTED, 0, 16, 7, false⟩]⟩,
  ⟨.ILC_REFUSED, 0x1e00008, 0x0, 1, 0x0, 1, [⟨R.ILC_REFUSED_COUNT, 0, 0, 32, false⟩]⟩,
  ⟨.ILC_REPLACED, 0x1e0000c, 0x0, 1, 0x0, 1, [⟨R.ILC_REPLACED_COUNT, 0, 0, 32, false⟩]⟩,
  ⟨.ILC_GRP_CTRL, 0x1e00100, 0x40, 8, 0x0, 1, [⟨R.ILC_GRP_CTRL_EN, 0, 0, 1, false⟩, ⟨R.ILC_GRP_CTRL_STATION, 0, 1, 3, false⟩, ⟨R.ILC_GRP_CTRL_MODE, 0, 4, 1, false⟩, ⟨R.ILC_GRP_CTRL_LEN_LOG, 0, 5, 4, false⟩, ⟨R.ILC_GRP_CTRL_STEP, 0, 9, 4, false⟩, ⟨R.ILC_GRP_CTRL_FORCE_OFF, 0, 16, 1, true⟩, ⟨R.ILC_GRP_CTRL_OFF_NOW, 0, 17, 1, false⟩]⟩,
  ⟨.ILC_GRP_SW, 0x1e00104, 0x40, 8, 0x0, 1, [⟨R.ILC_GRP_SW_FSW, 0, 0, 11, false⟩, ⟨R.ILC_GRP_SW_DITH, 0, 16, 4, false⟩, ⟨R.ILC_GRP_SW_DRATE, 0, 24, 6, false⟩]⟩,
  ⟨.ILC_GRP_TIMING, 0x1e00108, 0x40, 8, 0x0, 1, [⟨R.ILC_GRP_TIMING_ONDLY, 0, 0, 12, false⟩, ⟨R.ILC_GRP_TIMING_OFFDLY, 0, 16, 12, false⟩]⟩,
  ⟨.ILC_GRP_DIAG, 0x1e0010c, 0x40, 8, 0x0, 1, [⟨R.ILC_GRP_DIAG_DIAG_W, 0, 0, 13, false⟩, ⟨R.ILC_GRP_DIAG_INT, 0, 16, 7, false⟩, ⟨R.ILC_GRP_DIAG_EN, 0, 24, 1, false⟩, ⟨R.ILC_GRP_DIAG_STARVED, 0, 25, 1, false⟩, ⟨R.ILC_GRP_DIAG_MINON, 0, 26, 6, false⟩]⟩,
  ⟨.ILC_GRP_RAMP, 0x1e00110, 0x40, 8, 0x0, 1, [⟨R.ILC_GRP_RAMP_R0, 0, 0, 16, false⟩, ⟨R.ILC_GRP_RAMP_R1, 0, 16, 16, false⟩]⟩,
  ⟨.ILC_GRP_BANK, 0x1e00114, 0x40, 8, 0x0, 1, [⟨R.ILC_GRP_BANK_ACTIVE, 0, 0, 1, false⟩, ⟨R.ILC_GRP_BANK_PENDING, 0, 1, 1, false⟩, ⟨R.ILC_GRP_BANK_HELD, 0, 2, 1, false⟩, ⟨R.ILC_GRP_BANK_REPLACED, 0, 3, 1, false⟩, ⟨R.ILC_GRP_BANK_RAMP_EN, 0, 8, 1, false⟩, ⟨R.ILC_GRP_BANK_RLEN, 0, 9, 5, false⟩, ⟨R.ILC_GRP_BANK_GO, 0, 31, 1, true⟩]⟩,
  ⟨.ILC_GRP_SWAP_H_LO, 0x1e00118, 0x40, 8, 0x0, 1, [⟨R.ILC_GRP_SWAP_H, 0, 0, 32, false⟩]⟩,
  ⟨.ILC_GRP_SWAP_H_HI, 0x1e0011c, 0x40, 8, 0x0, 1, [⟨R.ILC_GRP_SWAP_H, 32, 0, 16, false⟩]⟩,
  ⟨.ILC_GRP_TCOMP, 0x1e00120, 0x40, 8, 0x0, 1, [⟨R.ILC_GRP_TCOMP_EN, 0, 0, 1, true⟩, ⟨R.ILC_GRP_TCOMP_ENTRY, 0, 1, 6, false⟩, ⟨R.ILC_GRP_TCOMP_HOLD, 0, 7, 1, false⟩, ⟨R.ILC_GRP_TCOMP_TEMP, 0, 16, 16, false⟩]⟩,
  ⟨.ILC_GRP_FAULT, 0x1e00124, 0x40, 8, 0x0, 1, [⟨R.ILC_GRP_FAULT_STRING, 0, 0, 7, false⟩, ⟨R.ILC_GRP_FAULT_KIND, 0, 8, 2, false⟩, ⟨R.ILC_GRP_FAULT_NEW, 0, 16, 1, false⟩]⟩,
  ⟨.ILC_GRP_FAULT_WPI_LO, 0x1e00128, 0x40, 8, 0x0, 1, [⟨R.ILC_GRP_FAULT_WPI, 0, 0, 32, false⟩]⟩,
  ⟨.ILC_GRP_FAULT_WPI_HI, 0x1e0012c, 0x40, 8, 0x0, 1, [⟨R.ILC_GRP_FAULT_WPI, 32, 0, 16, false⟩]⟩,
  ⟨.ILC_COL_PT, 0x1e00400, 0x20, 16, 0x4, 8, [⟨R.ILC_COL_PT_GAIN, 0, 0, 16, false⟩, ⟨R.ILC_COL_PT_TEMP, 0, 16, 12, false⟩]⟩,
  ⟨.ILC_STR_CFG, 0x1e01000, 0x10, 96, 0x0, 1, [⟨R.ILC_STR_CFG_EN, 0, 0, 1, false⟩, ⟨R.ILC_STR_CFG_GROUP, 0, 1, 3, false⟩, ⟨R.ILC_STR_CFG_COLOUR, 0, 4, 4, false⟩, ⟨R.ILC_STR_CFG_SHORT_MV, 0, 16, 16, false⟩]⟩,
  ⟨.ILC_STR_STATUS, 0x1e01004, 0x10, 96, 0x0, 1, [⟨R.ILC_STR_STATUS_MODE, 0, 0, 2, false⟩, ⟨R.ILC_STR_STATUS_FAULT, 0, 2, 1, true⟩, ⟨R.ILC_STR_STATUS_KIND, 0, 3, 2, false⟩, ⟨R.ILC_STR_STATUS_FAILS, 0, 5, 3, false⟩, ⟨R.ILC_STR_STATUS_SINCE, 0, 8, 7, false⟩, ⟨R.ILC_STR_STATUS_DIAGS, 0, 16, 16, false⟩]⟩,
  ⟨.ILC_STR_MEAS, 0x1e01008, 0x10, 96, 0x0, 1, [⟨R.ILC_STR_MEAS_I, 0, 0, 12, false⟩, ⟨R.ILC_STR_MEAS_V, 0, 16, 16, false⟩]⟩,
  ⟨.ILC_STR_APPLIED, 0x1e0100c, 0x10, 96, 0x0, 1, [⟨R.ILC_STR_APPLIED_B, 0, 0, 16, false⟩, ⟨R.ILC_STR_APPLIED_COMP, 0, 16, 16, false⟩]⟩]

/-- Registers of spec/17_measurement_front_end.md. -/
def regs17 : List Reg := [
  ⟨.MFE_CTRL, 0x1f00000, 0x0, 1, 0x0, 1, [⟨R.MFE_CTRL_REF_EN, 0, 0, 1, true⟩, ⟨R.MFE_CTRL_SEQ_EN, 0, 1, 1, true⟩, ⟨R.MFE_CTRL_RAIL, 0, 16, 16, false⟩]⟩,
  ⟨.MFE_STATUS, 0x1f00004, 0x0, 1, 0x0, 1, [⟨R.MFE_STATUS_REF_RDY, 0, 0, 1, false⟩, ⟨R.MFE_STATUS_STATE, 0, 1, 2, false⟩, ⟨R.MFE_STATUS_NO_SPARE, 0, 3, 1, false⟩, ⟨R.MFE_STATUS_LAST_STATUS, 0, 8, 8, false⟩, ⟨R.MFE_STATUS_GOOD, 0, 16, 5, false⟩, ⟨R.MFE_STATUS_SPARE, 0, 24, 3, false⟩]⟩,
  ⟨.MFE_SEQ_CTRL, 0x1f00008, 0x0, 1, 0x0, 1, [⟨R.MFE_SEQ_CTRL_COUNT, 0, 0, 7, false⟩, ⟨R.MFE_SEQ_CTRL_URG_SLACK, 0, 8, 8, false⟩]⟩,
  ⟨.MFE_SEQ_PERIOD, 0x1f0000c, 0x0, 1, 0x0, 1, [⟨R.MFE_SEQ_PERIOD_PERIOD, 0, 0, 21, false⟩]⟩,
  ⟨.MFE_CAL, 0x1f00010, 0x0, 1, 0x0, 1, [⟨R.MFE_CAL_INT, 0, 0, 16, false⟩]⟩,
  ⟨.MFE_URGENT, 0x1f00014, 0x0, 1, 0x0, 1, [⟨R.MFE_URGENT_ENTRY, 0, 0, 6, false⟩, ⟨R.MFE_URGENT_QUEUED, 0, 8, 3, false⟩, ⟨R.MFE_URGENT_GO, 0, 31, 1, true⟩]⟩,
  ⟨.MFE_URG_RES, 0x1f00018, 0x0, 1, 0x0, 1, [⟨R.MFE_URG_RES_VALUE, 0, 0, 32, false⟩]⟩,
  ⟨.MFE_URG_FLAGS, 0x1f0001c, 0x0, 1, 0x0, 1, [⟨R.MFE_URG_FLAGS_ENTRY, 0, 0, 6, false⟩, ⟨R.MFE_URG_FLAGS_OPEN_WIRE, 0, 8, 1, false⟩, ⟨R.MFE_URG_FLAGS_OVER, 0, 9, 1, false⟩, ⟨R.MFE_URG_FLAGS_NEW, 0, 10, 1, false⟩]⟩,
  ⟨.MFE_LEAF_REFUSED, 0x1f00020, 0x0, 1, 0x0, 1, [⟨R.MFE_LEAF_REFUSED_COUNT, 0, 0, 32, false⟩]⟩,
  ⟨.MFE_REPLACED, 0x1f00024, 0x0, 1, 0x0, 1, [⟨R.MFE_REPLACED_COUNT, 0, 0, 32, false⟩]⟩,
  ⟨.MFE_REC_DROP, 0x1f00028, 0x0, 1, 0x0, 1, [⟨R.MFE_REC_DROP_COUNT, 0, 0, 32, false⟩]⟩,
  ⟨.MFE_EVT_LAST, 0x1f0002c, 0x0, 1, 0x0, 1, [⟨R.MFE_EVT_LAST_INDEX, 0, 0, 6, false⟩, ⟨R.MFE_EVT_LAST_KIND, 0, 8, 4, false⟩]⟩,
  ⟨.MFE_SYNC, 0x1f00030, 0x0, 1, 0x0, 1, [⟨R.MFE_SYNC_CHAINS, 0, 0, 32, true⟩]⟩,
  ⟨.MFE_SLICE, 0x1f00040, 0x4, 5, 0x0, 1, [⟨R.MFE_SLICE_OFFSET, 0, 0, 12, false⟩, ⟨R.MFE_SLICE_GAIN, 0, 12, 16, false⟩, ⟨R.MFE_SLICE_ROLE, 0, 28, 2, false⟩]⟩,
  ⟨.MFE_ENT_CFG, 0x1f01000, 0x40, 64, 0x0, 1, [⟨R.MFE_ENT_CFG_EN, 0, 0, 1, false⟩, ⟨R.MFE_ENT_CFG_INPUT, 0, 1, 5, false⟩, ⟨R.MFE_ENT_CFG_OSR, 0, 6, 3, false⟩, ⟨R.MFE_ENT_CFG_SETTLE, 0, 9, 8, false⟩, ⟨R.MFE_ENT_CFG_CHAIN, 0, 17, 5, false⟩, ⟨R.MFE_ENT_CFG_CH_EN, 0, 22, 1, false⟩, ⟨R.MFE_ENT_CFG_ACC_CLR, 0, 23, 1, false⟩]⟩,
  ⟨.MFE_ENT_EXC, 0x1f01004, 0x40, 64, 0x0, 1, [⟨R.MFE_ENT_EXC_RANGE, 0, 0, 2, true⟩, ⟨R.MFE_ENT_EXC_AUTO, 0, 2, 1, true⟩, ⟨R.MFE_ENT_EXC_IEXC, 0, 3, 2, true⟩, ⟨R.MFE_ENT_EXC_WIRE, 0, 5, 1, true⟩, ⟨R.MFE_ENT_EXC_BO_EN, 0, 6, 1, true⟩, ⟨R.MFE_ENT_EXC_OUT_T, 0, 7, 1, true⟩, ⟨R.MFE_ENT_EXC_PT1000, 0, 8, 1, true⟩, ⟨R.MFE_ENT_EXC_ATTEN, 0, 9, 1, true⟩, ⟨R.MFE_ENT_EXC_LEAD_MOHM, 0, 16, 16, true⟩]⟩,
  ⟨.MFE_ENT_REC, 0x1f01008, 0x40, 64, 0x0, 1, [⟨R.MFE_ENT_REC_EN, 0, 0, 1, false⟩, ⟨R.MFE_ENT_REC_STATION, 0, 1, 3, false⟩, ⟨R.MFE_ENT_REC_QUEUE, 0, 4, 18, false⟩, ⟨R.MFE_ENT_REC_DEC_LOG, 0, 24, 4, false⟩]⟩,
  ⟨.MFE_ENT_STATUS, 0x1f0100c, 0x40, 64, 0x0, 1, [⟨R.MFE_ENT_STATUS_OPEN, 0, 0, 1, true⟩, ⟨R.MFE_ENT_STATUS_SETTLED, 0, 1, 1, false⟩, ⟨R.MFE_ENT_STATUS_SUPPRESSED, 0, 2, 1, false⟩, ⟨R.MFE_ENT_STATUS_RESTARTS, 0, 16, 16, false⟩]⟩,
  ⟨.MFE_RES, 0x1f01010, 0x40, 64, 0x0, 1, [⟨R.MFE_RES_VALUE, 0, 0, 32, false⟩]⟩,
  ⟨.MFE_RES_FLAGS, 0x1f01014, 0x40, 64, 0x0, 1, [⟨R.MFE_RES_FLAGS_FLAGS, 0, 0, 4, false⟩, ⟨R.MFE_RES_FLAGS_RANGE, 0, 4, 2, false⟩, ⟨R.MFE_RES_FLAGS_NEW, 0, 8, 1, false⟩, ⟨R.MFE_RES_FLAGS_SEQ, 0, 16, 16, false⟩]⟩,
  ⟨.MFE_LEAD, 0x1f01018, 0x40, 64, 0x0, 1, [⟨R.MFE_LEAD_MOHM, 0, 0, 32, false⟩]⟩,
  ⟨.MFE_ACC_SUM_LO, 0x1f0101c, 0x40, 64, 0x0, 1, [⟨R.MFE_ACC_SUM, 0, 0, 32, false⟩]⟩,
  ⟨.MFE_ACC_SUM_HI, 0x1f01020, 0x40, 64, 0x0, 1, [⟨R.MFE_ACC_SUM, 32, 0, 16, false⟩]⟩,
  ⟨.MFE_ACC_CNT, 0x1f01024, 0x40, 64, 0x0, 1, [⟨R.MFE_ACC_CNT_COUNT, 0, 0, 32, false⟩]⟩]

/-- Registers of spec/17_measurement_front_end.md. -/
def regs17b : List Reg := [
  ⟨.MFE_ACC_MIN, 0x1f01028, 0x40, 64, 0x0, 1, [⟨R.MFE_ACC_MIN_MIN, 0, 0, 32, false⟩]⟩,
  ⟨.MFE_ACC_MAX, 0x1f0102c, 0x40, 64, 0x0, 1, [⟨R.MFE_ACC_MAX_MAX, 0, 0, 32, false⟩]⟩,
  ⟨.MFE_CH_CFG, 0x1f02000, 0x20, 32, 0x0, 1, [⟨R.MFE_CH_CFG_NOTCH50, 0, 0, 1, false⟩, ⟨R.MFE_CH_CFG_NOTCH60, 0, 1, 1, false⟩, ⟨R.MFE_CH_CFG_SCS, 0, 2, 1, false⟩, ⟨R.MFE_CH_CFG_CLOG, 0, 3, 3, false⟩, ⟨R.MFE_CH_CFG_LEAF, 0, 8, 6, false⟩]⟩,
  ⟨.MFE_CH_SWAP, 0x1f02004, 0x20, 32, 0x0, 1, [⟨R.MFE_CH_SWAP_LEAF, 0, 0, 6, false⟩, ⟨R.MFE_CH_SWAP_FADE, 0, 8, 4, false⟩, ⟨R.MFE_CH_SWAP_REPLACED, 0, 28, 1, false⟩, ⟨R.MFE_CH_SWAP_PENDING, 0, 29, 1, false⟩, ⟨R.MFE_CH_SWAP_FADING, 0, 30, 1, false⟩, ⟨R.MFE_CH_SWAP_GO, 0, 31, 1, true⟩]⟩,
  ⟨.MFE_CH_STATUS, 0x1f02008, 0x20, 32, 0x0, 1, [⟨R.MFE_CH_STATUS_COUNT, 0, 0, 16, false⟩, ⟨R.MFE_CH_STATUS_S, 0, 16, 16, false⟩]⟩,
  ⟨.MFE_CH_COARSE, 0x1f0200c, 0x20, 32, 0x0, 1, [⟨R.MFE_CH_COARSE_VALUE, 0, 0, 32, false⟩]⟩,
  ⟨.MFE_OUT_CFG, 0x1f02800, 0x20, 8, 0x0, 1, [⟨R.MFE_OUT_CFG_EN, 0, 0, 1, true⟩, ⟨R.MFE_OUT_CFG_MODE, 0, 1, 1, false⟩, ⟨R.MFE_OUT_CFG_ENTRY, 0, 2, 6, false⟩, ⟨R.MFE_OUT_CFG_FAIL, 0, 8, 2, false⟩]⟩,
  ⟨.MFE_OUT_LO, 0x1f02804, 0x20, 8, 0x0, 1, [⟨R.MFE_OUT_LO_LO, 0, 0, 32, false⟩]⟩,
  ⟨.MFE_OUT_HI, 0x1f02808, 0x20, 8, 0x0, 1, [⟨R.MFE_OUT_HI_HI, 0, 0, 32, false⟩]⟩,
  ⟨.MFE_OUT_F, 0x1f0280c, 0x20, 8, 0x0, 1, [⟨R.MFE_OUT_F_F_A, 0, 0, 16, false⟩, ⟨R.MFE_OUT_F_FMAX, 0, 16, 16, false⟩]⟩]

/-- Registers of spec/18_motion.md. -/
def regs18 : List Reg := [
  ⟨.TTC_CTRL, 0x2000000, 0x0, 1, 0x0, 1, [⟨R.TTC_CTRL_SSC, 0, 1, 1, false⟩]⟩,
  ⟨.TTC_STATUS, 0x2000004, 0x0, 1, 0x0, 1, [⟨R.TTC_STATUS_LAST_STATUS, 0, 0, 8, false⟩]⟩,
  ⟨.TTC_LIN, 0x2000008, 0x0, 1, 0x0, 1, [⟨R.TTC_LIN_MASK, 0, 0, 4, false⟩, ⟨R.TTC_LIN_GO, 0, 31, 1, true⟩]⟩,
  ⟨.TTC_AX_CTRL, 0x2000100, 0x40, 4, 0x0, 1, [⟨R.TTC_AX_CTRL_EN, 0, 0, 1, true⟩, ⟨R.TTC_AX_CTRL_HOLD_MODE, 0, 1, 2, false⟩, ⟨R.TTC_AX_CTRL_FAULT_MODE, 0, 3, 2, false⟩, ⟨R.TTC_AX_CTRL_ADAPT, 0, 5, 1, false⟩, ⟨R.TTC_AX_CTRL_ENC, 0, 6, 2, false⟩, ⟨R.TTC_AX_CTRL_ENC_EN, 0, 8, 1, false⟩, ⟨R.TTC_AX_CTRL_SETTLE, 0, 16, 8, false⟩, ⟨R.TTC_AX_CTRL_TOL, 0, 24, 8, false⟩]⟩,
  ⟨.TTC_AX_RATIO, 0x2000104, 0x40, 4, 0x0, 1, [⟨R.TTC_AX_RATIO_RATIO, 0, 0, 32, false⟩]⟩,
  ⟨.TTC_AX_VMAX, 0x2000108, 0x40, 4, 0x0, 1, [⟨R.TTC_AX_VMAX_VMAX, 0, 0, 24, false⟩]⟩,
  ⟨.TTC_AX_AMAX, 0x200010c, 0x40, 4, 0x0, 1, [⟨R.TTC_AX_AMAX_AMAX, 0, 0, 32, false⟩]⟩,
  ⟨.TTC_AX_JMAX, 0x2000110, 0x40, 4, 0x0, 1, [⟨R.TTC_AX_JMAX_JMAX, 0, 0, 32, false⟩]⟩,
  ⟨.TTC_AX_VSCAN, 0x2000114, 0x40, 4, 0x0, 1, [⟨R.TTC_AX_VSCAN_VSCAN, 0, 0, 24, false⟩]⟩,
  ⟨.TTC_AX_CUR, 0x2000118, 0x40, 4, 0x0, 1, [⟨R.TTC_AX_CUR_IRUN_MIN, 0, 0, 8, false⟩, ⟨R.TTC_AX_CUR_IRUN_MAX, 0, 8, 8, false⟩, ⟨R.TTC_AX_CUR_IHOLD, 0, 16, 8, false⟩, ⟨R.TTC_AX_CUR_HOLD_MS, 0, 24, 8, false⟩]⟩,
  ⟨.TTC_AX_LOAD, 0x200011c, 0x40, 4, 0x0, 1, [⟨R.TTC_AX_LOAD_LOAD_LO, 0, 0, 10, false⟩, ⟨R.TTC_AX_LOAD_LOAD_HI, 0, 16, 10, false⟩]⟩,
  ⟨.TTC_AX_TARGET_LO, 0x2000120, 0x40, 4, 0x0, 1, [⟨R.TTC_AX_TARGET_TARGET, 0, 0, 32, false⟩]⟩,
  ⟨.TTC_AX_TARGET_HI, 0x2000124, 0x40, 4, 0x0, 1, [⟨R.TTC_AX_TARGET_TARGET, 32, 0, 16, false⟩]⟩,
  ⟨.TTC_AX_VEL, 0x2000128, 0x40, 4, 0x0, 1, [⟨R.TTC_AX_VEL_VEL, 0, 0, 25, false⟩]⟩,
  ⟨.TTC_AX_CMD, 0x200012c, 0x40, 4, 0x0, 1, [⟨R.TTC_AX_CMD_OP, 0, 0, 2, false⟩, ⟨R.TTC_AX_CMD_GO, 0, 31, 1, true⟩]⟩,
  ⟨.TTC_AX_STATUS, 0x2000130, 0x40, 4, 0x0, 1, [⟨R.TTC_AX_STATUS_STATE, 0, 0, 3, false⟩, ⟨R.TTC_AX_STATUS_PACED, 0, 3, 1, false⟩, ⟨R.TTC_AX_STATUS_INPOS, 0, 4, 1, false⟩, ⟨R.TTC_AX_STATUS_FAULT, 0, 5, 1, true⟩, ⟨R.TTC_AX_STATUS_KIND, 0, 6, 3, false⟩, ⟨R.TTC_AX_STATUS_LAST_STATUS, 0, 16, 8, false⟩, ⟨R.TTC_AX_STATUS_CURRENT, 0, 24, 8, false⟩]⟩,
  ⟨.TTC_AX_POS_LO, 0x2000134, 0x40, 4, 0x0, 1, [⟨R.TTC_AX_POS, 0, 0, 32, false⟩]⟩,
  ⟨.TTC_AX_POS_HI, 0x2000138, 0x40, 4, 0x0, 1, [⟨R.TTC_AX_POS, 32, 0, 16, false⟩]⟩,
  ⟨.TTC_AX_DRV, 0x200013c, 0x40, 4, 0x0, 1, [⟨R.TTC_AX_DRV_LOAD, 0, 0, 10, false⟩, ⟨R.TTC_AX_DRV_FLAGS, 0, 10, 6, false⟩, ⟨R.TTC_AX_DRV_TEMP, 0, 16, 8, false⟩, ⟨R.TTC_AX_DRV_BADFR, 0, 24, 8, false⟩]⟩]

/-- Registers of spec/19_thermal.md. -/
def regs19 : List Reg := [
  ⟨.THM_CTRL, 0x100000, 0x0, 1, 0x0, 1, [⟨R.THM_CTRL_TMIN, 0, 0, 4, false⟩, ⟨R.THM_CTRL_TMAX, 0, 4, 4, false⟩, ⟨R.THM_CTRL_STEP_MS, 0, 8, 8, false⟩, ⟨R.THM_CTRL_HYST, 0, 16, 8, false⟩]⟩,
  ⟨.THM_THR_WARN, 0x100004, 0x0, 1, 0x0, 1, [⟨R.THM_THR_WARN_LEVEL, 0, 0, 16, true⟩]⟩,
  ⟨.THM_THR_THROT, 0x100008, 0x0, 1, 0x0, 1, [⟨R.THM_THR_THROT_LEVEL, 0, 0, 16, true⟩]⟩,
  ⟨.THM_THR_SHUT, 0x10000c, 0x0, 1, 0x0, 1, [⟨R.THM_THR_SHUT_LEVEL, 0, 0, 16, false⟩]⟩,
  ⟨.THM_STATUS, 0x100010, 0x0, 1, 0x0, 1, [⟨R.THM_STATUS_MAX, 0, 0, 16, false⟩, ⟨R.THM_STATUS_MAX_SNS, 0, 16, 5, false⟩, ⟨R.THM_STATUS_WARN, 0, 21, 1, false⟩, ⟨R.THM_STATUS_THROT, 0, 22, 1, false⟩, ⟨R.THM_STATUS_TRIP, 0, 23, 1, false⟩, ⟨R.THM_STATUS_LEVEL, 0, 24, 4, false⟩, ⟨R.THM_STATUS_LAST_STATUS, 0, 28, 4, false⟩]⟩,
  ⟨.THM_FAIL, 0x100014, 0x0, 1, 0x0, 1, [⟨R.THM_FAIL_MASK, 0, 0, 24, false⟩, ⟨R.THM_FAIL_COUNT, 0, 24, 5, false⟩]⟩,
  ⟨.THM_TRIM, 0x100018, 0x0, 1, 0x0, 1, [⟨R.THM_TRIM_CODE, 0, 0, 16, false⟩, ⟨R.THM_TRIM_HOLD, 0, 16, 1, false⟩]⟩,
  ⟨.THM_SNS, 0x100100, 0x4, 24, 0x0, 1, [⟨R.THM_SNS_TEMP, 0, 0, 16, false⟩, ⟨R.THM_SNS_VALID, 0, 16, 1, false⟩, ⟨R.THM_SNS_FAILED, 0, 17, 1, false⟩]⟩,
  ⟨.THM_RO_CTRL, 0x100200, 0x0, 1, 0x0, 1, [⟨R.THM_RO_CTRL_EN, 0, 0, 1, false⟩, ⟨R.THM_RO_CTRL_WIN, 0, 8, 2, false⟩]⟩,
  ⟨.THM_RO_COUNT, 0x100204, 0x4, 8, 0x0, 1, [⟨R.THM_RO_COUNT_COUNT, 0, 0, 16, false⟩, ⟨R.THM_RO_COUNT_NEW, 0, 31, 1, false⟩]⟩]

/-- Registers of spec/20_security.md. -/
def regs20 : List Reg := [
  ⟨.SMC_ID_SERIAL_LO, 0x0, 0x0, 1, 0x0, 1, [⟨R.SMC_ID_SERIAL, 0, 0, 32, false⟩]⟩,
  ⟨.SMC_ID_SERIAL_HI, 0x4, 0x0, 1, 0x0, 1, [⟨R.SMC_ID_SERIAL, 32, 0, 32, false⟩]⟩,
  ⟨.SMC_ID_REV, 0x8, 0x0, 1, 0x0, 1, [⟨R.SMC_ID_REV_REV, 0, 0, 32, false⟩]⟩,
  ⟨.SMC_ID_CFG, 0xc, 0x0, 1, 0x0, 1, [⟨R.SMC_ID_CFG_GRADE, 0, 0, 2, false⟩, ⟨R.SMC_ID_CFG_OWNER, 0, 4, 2, false⟩]⟩,
  ⟨.SMC_ID_MAC_LO, 0x10, 0x0, 1, 0x0, 1, [⟨R.SMC_ID_MAC_MAC, 0, 0, 32, false⟩]⟩,
  ⟨.SMC_ID_MAC_HI, 0x14, 0x0, 1, 0x0, 1, [⟨R.SMC_ID_MAC_MAC, 32, 0, 16, false⟩]⟩,
  ⟨.SMC_ID_KEYDIG, 0x20, 0x4, 12, 0x0, 1, [⟨R.SMC_ID_KEYDIG_DIGEST, 0, 0, 32, false⟩]⟩,
  ⟨.SMC_OWNER_DIG, 0x60, 0x4, 12, 0x0, 1, [⟨R.SMC_OWNER_DIG_DIGEST, 0, 0, 32, false⟩]⟩,
  ⟨.SMC_POLICY, 0x100, 0x0, 1, 0x0, 1, [⟨R.SMC_POLICY_ALLOW_UNTESTED, 0, 0, 1, false⟩, ⟨R.SMC_POLICY_POLICY_SRC, 0, 1, 1, false⟩, ⟨R.SMC_POLICY_UNV_CAB, 0, 8, 1, false⟩, ⟨R.SMC_POLICY_UNV_WB, 0, 9, 1, false⟩, ⟨R.SMC_POLICY_UNV_IMG, 0, 10, 1, false⟩, ⟨R.SMC_POLICY_UNVERIFIED_COMBO, 0, 11, 1, false⟩]⟩,
  ⟨.SMC_FW_STATUS, 0x104, 0x0, 1, 0x0, 1, [⟨R.SMC_FW_STATUS_CAB_COPY, 0, 0, 1, false⟩, ⟨R.SMC_FW_STATUS_WB_STATE, 0, 4, 3, false⟩, ⟨R.SMC_FW_STATUS_LAST_STATUS, 0, 8, 8, false⟩]⟩,
  ⟨.SMC_FW_CAB_VER, 0x108, 0x0, 1, 0x0, 1, [⟨R.SMC_FW_CAB_VER_VER, 0, 0, 32, false⟩]⟩,
  ⟨.SMC_FW_WB_VER, 0x10c, 0x0, 1, 0x0, 1, [⟨R.SMC_FW_WB_VER_VER, 0, 0, 32, false⟩]⟩,
  ⟨.SMC_FW_SVN, 0x110, 0x0, 1, 0x0, 1, [⟨R.SMC_FW_SVN_CAB, 0, 0, 6, false⟩, ⟨R.SMC_FW_SVN_WB, 0, 8, 6, false⟩]⟩,
  ⟨.SMC_WMAP_STATUS, 0x2000, 0x0, 1, 0x0, 1, [⟨R.SMC_WMAP_STATUS_LAST_STATUS, 0, 0, 8, false⟩, ⟨R.SMC_WMAP_STATUS_REFUSED, 0, 16, 16, false⟩]⟩,
  ⟨.SMC_WMAP_BLK, 0x2004, 0x0, 1, 0x0, 1, [⟨R.SMC_WMAP_BLK_BLOCKS, 0, 0, 11, false⟩]⟩,
  ⟨.SMC_WMAP_ETH, 0x2008, 0x0, 1, 0x0, 1, [⟨R.SMC_WMAP_ETH_PORTS, 0, 0, 4, false⟩]⟩,
  ⟨.SMC_WMAP_PORT, 0x2010, 0x4, 3, 0x0, 1, [⟨R.SMC_WMAP_PORT_MAP, 0, 0, 32, false⟩]⟩,
  ⟨.SMC_WMAP_QR, 0x2020, 0x4, 8, 0x0, 1, [⟨R.SMC_WMAP_QR_MAP, 0, 0, 32, false⟩]⟩,
  ⟨.SMC_WMAP_ENG, 0x2040, 0x4, 16, 0x0, 1, [⟨R.SMC_WMAP_ENG_MAP, 0, 0, 32, false⟩]⟩,
  ⟨.SMC_XW_LOG, 0x2100, 0x0, 1, 0x0, 1, [⟨R.SMC_XW_LOG_SOURCE, 0, 0, 2, false⟩, ⟨R.SMC_XW_LOG_WRITE, 0, 2, 1, false⟩]⟩,
  ⟨.SMC_XW_COUNT, 0x2104, 0x0, 1, 0x0, 1, [⟨R.SMC_XW_COUNT_COUNT, 0, 0, 32, false⟩]⟩,
  ⟨.SMC_XW_ADDR, 0x2108, 0x0, 1, 0x0, 1, [⟨R.SMC_XW_ADDR_ADDR, 0, 0, 32, false⟩]⟩,
  ⟨.SMC_WMAP_OC, 0x2200, 0x4, 137, 0x0, 1, [⟨R.SMC_WMAP_OC_MAP, 0, 0, 32, false⟩]⟩,
  ⟨.SMC_MEAS_SEL, 0x3000, 0x0, 1, 0x0, 1, [⟨R.SMC_MEAS_SEL_INDEX, 0, 0, 8, false⟩]⟩]

/-- Registers of spec/20_security.md. -/
def regs20b : List Reg := [
  ⟨.SMC_MEAS_DATA, 0x3004, 0x4, 12, 0x0, 1, [⟨R.SMC_MEAS_DATA_DIGEST, 0, 0, 32, false⟩]⟩,
  ⟨.SMC_PMB_CFG, 0x4100, 0x0, 1, 0x0, 1, [⟨R.SMC_PMB_CFG_ADDR, 0, 0, 7, false⟩, ⟨R.SMC_PMB_CFG_PAGE, 0, 8, 8, false⟩, ⟨R.SMC_PMB_CFG_PAGE_EN, 0, 16, 1, false⟩, ⟨R.SMC_PMB_CFG_PEC, 0, 17, 1, false⟩]⟩,
  ⟨.SMC_PMB_STATUS, 0x4104, 0x0, 1, 0x0, 1, [⟨R.SMC_PMB_STATUS_WORD, 0, 0, 16, false⟩, ⟨R.SMC_PMB_STATUS_ERR, 0, 16, 1, false⟩, ⟨R.SMC_PMB_STATUS_MODE_ERR, 0, 17, 1, false⟩, ⟨R.SMC_PMB_STATUS_ALERT, 0, 18, 1, false⟩, ⟨R.SMC_PMB_STATUS_VREAD, 0, 20, 12, false⟩]⟩,
  ⟨.SMC_MCTP_CFG, 0x4200, 0x0, 1, 0x0, 1, [⟨R.SMC_MCTP_CFG_ADDR, 0, 0, 7, false⟩]⟩,
  ⟨.SMC_WMAP_HBM, 0x6000, 0x4, 1024, 0x0, 1, [⟨R.SMC_WMAP_HBM_MAP, 0, 0, 32, false⟩]⟩]

/-- Registers of spec/21_control_and_states.md. -/
def regs21 : List Reg := [
  ⟨.SMC_DEV_STATE, 0x5000, 0x0, 1, 0x0, 1, [⟨R.SMC_DEV_STATE_STATE, 0, 0, 4, false⟩]⟩,
  ⟨.SMC_FAULT, 0x5004, 0x0, 1, 0x0, 1, [⟨R.SMC_FAULT_CAUSE, 0, 0, 4, false⟩, ⟨R.SMC_FAULT_STATION, 0, 4, 3, false⟩, ⟨R.SMC_FAULT_NEW, 0, 8, 1, false⟩]⟩,
  ⟨.SMC_FAULT_WPI_LO, 0x5008, 0x0, 1, 0x0, 1, [⟨R.SMC_FAULT_WPI, 0, 0, 32, false⟩]⟩,
  ⟨.SMC_FAULT_WPI_HI, 0x500c, 0x0, 1, 0x0, 1, [⟨R.SMC_FAULT_WPI, 32, 0, 16, false⟩]⟩,
  ⟨.SMC_ST_STATE, 0x5040, 0x4, 8, 0x0, 1, [⟨R.SMC_ST_STATE_STATE, 0, 0, 3, false⟩, ⟨R.SMC_ST_STATE_CLASS, 0, 4, 1, false⟩, ⟨R.SMC_ST_STATE_K, 0, 8, 4, false⟩, ⟨R.SMC_ST_STATE_HOLD, 0, 12, 1, false⟩, ⟨R.SMC_ST_STATE_STAGED, 0, 13, 1, false⟩]⟩,
  ⟨.SMC_MB_CMD_HEAD, 0x5100, 0x20, 2, 0x0, 1, [⟨R.SMC_MB_CMD_HEAD_HEAD, 0, 0, 7, false⟩]⟩,
  ⟨.SMC_MB_CMD_TAIL, 0x5104, 0x20, 2, 0x0, 1, [⟨R.SMC_MB_CMD_TAIL_TAIL, 0, 0, 7, true⟩]⟩,
  ⟨.SMC_MB_RSP_HEAD, 0x5108, 0x20, 2, 0x0, 1, [⟨R.SMC_MB_RSP_HEAD_HEAD, 0, 0, 7, true⟩]⟩,
  ⟨.SMC_MB_RSP_TAIL, 0x510c, 0x20, 2, 0x0, 1, [⟨R.SMC_MB_RSP_TAIL_TAIL, 0, 0, 7, false⟩]⟩,
  ⟨.SMC_MB_STATUS, 0x5110, 0x20, 2, 0x0, 1, [⟨R.SMC_MB_STATUS_BUSY, 0, 0, 1, false⟩, ⟨R.SMC_MB_STATUS_WAIT_RSP, 0, 1, 1, false⟩, ⟨R.SMC_MB_STATUS_LAST_STATUS, 0, 8, 8, false⟩, ⟨R.SMC_MB_STATUS_LAST_OP, 0, 16, 16, false⟩]⟩,
  ⟨.SMC_MB_REFUSED, 0x5200, 0x40, 2, 0x4, 11, [⟨R.SMC_MB_REFUSED_COUNT, 0, 0, 32, false⟩]⟩,
  ⟨.SMC_REG_REFUSED, 0x5300, 0x40, 2, 0x4, 11, [⟨R.SMC_REG_REFUSED_COUNT, 0, 0, 32, false⟩]⟩]

/-- Registers of spec/22_startup.md. -/
def regs22 : List Reg := [
  ⟨.SMC_BOOT_STATUS, 0x5400, 0x0, 1, 0x0, 1, [⟨R.SMC_BOOT_STATUS_STEP, 0, 0, 4, false⟩, ⟨R.SMC_BOOT_STATUS_HBM_OK, 0, 4, 4, false⟩, ⟨R.SMC_BOOT_STATUS_HBM_FAIL, 0, 8, 1, false⟩, ⟨R.SMC_BOOT_STATUS_VCORE_FAIL, 0, 9, 1, false⟩, ⟨R.SMC_BOOT_STATUS_BASE_TEMP, 0, 16, 16, false⟩]⟩,
  ⟨.SMC_BOOT_TIME, 0x5404, 0x0, 1, 0x0, 1, [⟨R.SMC_BOOT_TIME_MS, 0, 0, 16, false⟩]⟩]

/-- Registers of spec/23_electrical_package.md. -/
def regs23 : List Reg := [
  ⟨.SMC_PAD_SLEW, 0x7000, 0x0, 1, 0x0, 1, [⟨R.SMC_PAD_SLEW_ILC, 0, 0, 2, true⟩, ⟨R.SMC_PAD_SLEW_MOT, 0, 2, 2, true⟩, ⟨R.SMC_PAD_SLEW_FOUT, 0, 4, 2, true⟩, ⟨R.SMC_PAD_SLEW_XSPI, 0, 6, 2, true⟩, ⟨R.SMC_PAD_SLEW_CONSOLE, 0, 8, 2, true⟩]⟩,
  ⟨.SMC_PAD_GLITCH, 0x7004, 0x0, 1, 0x0, 1, [⟨R.SMC_PAD_GLITCH_ALERT, 0, 0, 10, false⟩, ⟨R.SMC_PAD_GLITCH_RXD, 0, 16, 10, false⟩]⟩,
  ⟨.SMC_PAD_STATUS, 0x7008, 0x0, 1, 0x0, 1, [⟨R.SMC_PAD_STATUS_LAST_STATUS, 0, 0, 8, false⟩]⟩]

/-- All registers (R575). -/
def regTable : List Reg :=
  regs02 ++ regs03 ++ regs04 ++ regs04b ++ regs05 ++ regs06 ++ regs06b ++ regs07 ++ regs07b ++ regs08 ++ regs09 ++ regs09b ++ regs11 ++ regs12 ++ regs13 ++ regs14 ++ regs14b ++ regs16 ++ regs17 ++ regs17b ++ regs18 ++ regs19 ++ regs20 ++ regs20b ++ regs21 ++ regs22 ++ regs23

end Sys2Proof.Machine
end

