-- ==== Sys2Proof/Machine/State.lean ====
section
/-! DEFINITION. The state of the Citum: its registers as one store of fields (spec/24), its memories, and every queue,
buffer, counter and sequence the chapters give it beyond the registers. -/

namespace Sys2Proof.Machine

/-! ### What the device sends -/

/-- What leaves the device, in the order sent. Addresses, words and fields are those of the chapter that owns the link. -/
inductive Output where
  /-- The data a host read returns (R11, R372, R373). -/
  | readData (w : World) (addr : Nat) (value : List Nat)
  /-- An access completed with Unsupported Request (R372, R373). -/
  | unsupported (w : World) (addr : Nat)
  /-- A Ricel control block on a lane (R64): type, body, and its line code (R60, R61). -/
  | ricel (lane : Nat) (kind : Nat) (body : Nat) (wire : List Nat)
  /-- A TIMING block (R84) that goes out on a lane at downstream block `at_`: its body and its line code. -/
  | timing (lane : Nat) (at_ : Nat) (body : Nat) (wire : List Nat)
  /-- TRAIN blocks sent on a lane over and over from here, or no more (R91). -/
  | training (lane : Nat) (body : Nat) (on : Bool)
  /-- A Ricel packet on a lane (R65, R66): the header in START, the data blocks, the body of END, and their line code. -/
  | packet (lane : Nat) (hdr : Nat) (data : List Nat) (fin : Nat) (wire : List Nat)
  /-- A Kelim frame on a lane (R346, R349): the body of START, the data blocks, the body of END, and their line code. -/
  | kelim (lane : Nat) (hdr : Nat) (data : List Nat) (fin : Nat) (wire : List Nat)
  /-- A Kelim control block on a lane (R346): type, body, and its line code. -/
  | kblock (lane : Nat) (kind : Nat) (body : Nat) (wire : List Nat)
  /-- A motion frame to an axis driver (spec/18). -/
  | motion (axis : Nat) (bytes : List Nat)
  /-- A velocity scale or a sequence command sent to a motion axis (R193, R196). -/
  | scale (axis : Nat) (value : Nat)
  /-- An MSI-X message of a vector (R395): the data of its table entry written to the entry's address. -/
  | msix (fn : Nat) (vector : Nat) (addr data : Nat)
  /-- Bytes written to host memory by a DMA stream (spec/14), `relaxed` when they carry Relaxed Ordering (R381). -/
  | dmaWrite (stream : Nat) (relaxed : Bool) (addr : Nat) (bytes : List Nat)
  /-- Bytes of the HBM a BAR2 read returns, from a byte offset in the window on (R373). -/
  | bar2Data (addr : Nat) (bytes : List Nat)
  /-- A datagram of an Ethernet stream (R384, R385): destination MAC, source MAC, the 802.1Q VLAN ID plus 4,096 or 0 for no tag, source
  and destination IPv4 address, source and destination UDP port, DSCP, UDP checksum and the IPv4 flags and fragment offset; and the UDP
  payload. -/
  | datagram (port : Nat) (stream : Nat) (hdr : List Nat) (bytes : List Nat)
  /-- A PTP message sent on a port (R391). -/
  | ptp (port : Nat) (kind : Nat) (seq : Nat)
  /-- A PMBus transaction: command code and data (R513). -/
  | pmbus (addr : Nat) (code : Nat) (data : Nat) (pec : Bool)
  /-- An SPDM response on a transport: response code and bytes (R508). -/
  | spdm (transport : Nat) (bytes : List Nat)
  /-- A gate, pad or sync output: what it is, which one, its level or instant. -/
  | pin (name : String) (index : Nat) (value : Nat)
  /-- A gate of string channel `ch`, high from `rise` to `fall` in ticks of 2.5 ns, at a current in 12-bit units (R417); `loop` is the
  switching frequency in kHz, the dither in percent at its rate in kHz, and the phase of the period in twelfths (R414). -/
  | gate (ch : Nat) (rise fall : Int) (level : Nat) (loop : List Nat)
  /-- The gate of string channel `ch` is low from here on, whatever edges have been sent for it (R413, R433, R483). -/
  | gateLow (ch : Nat)
  /-- Bytes programmed into the boot flash (R536). -/
  | flash (offset : Nat) (bytes : List Nat)
  /-- 4 KiB sectors of the boot flash erased, from a byte offset on (R536). -/
  | flashErase (offset sectors : Nat)
  /-- A bus-master read of host memory by a function: the address and the number of bytes (R536). -/
  | dmaRead (fn addr bytes : Nat)
  /-- Every output pin goes inactive: high impedance, or low for ILC_GATEn and MOTa_CK (R547). -/
  | inactive
  deriving DecidableEq, Repr

/-! ### Hardware queues (spec/08) -/

/-- A queue word (R214): DATA and END. CHECK is generated and checked by the Citum; an error is an operand of the
read that finds it. -/
structure QWord where
  data : Nat := 0
  fin : Bool := false
  deriving DecidableEq, Repr

/-- A word as its reader receives it, with the delivery flags of R217. -/
structure DWord where
  data : Nat := 0
  fin : Bool := false
  poison : Bool := false
  trunc : Bool := false
  deriving DecidableEq, Repr

/-- One of the two readers of a DESCRIPTOR ring (R222): its read position, whether it discards words after a damaged one (R216), whether
it stands inside an item (R235), whether it waits (R224), whether a flush owes it a terminator (R238), and the words delivered to it
that its block has not consumed. -/
structure RingSide where
  pos : Nat := 0
  skip : Bool := false
  opened : Bool := false
  waits : Bool := false
  owed : Bool := false
  intake : List DWord := []
  deriving DecidableEq, Repr

/-- One hardware queue beyond its registers (R218 to R239). Drawers hold their unread words, oldest first; `w0`, `w1`
count the words written to each since it was opened. `ring` is the ring of a DESCRIPTOR queue, with its two readers (R222). `present`
holds the words a waiting writer presents, `intake` the words delivered to the reader that its block has not consumed. -/
structure Queue where
  d0 : List QWord := []
  d1 : List QWord := []
  w0 : Nat := 0
  w1 : Nat := 0
  closed : Bool := false
  ring : List QWord := []
  first : RingSide := {}
  second : RingSide := {}
  present : List QWord := []
  intake : List DWord := []
  truncOwed : Bool := false
  rdStalled : Bool := false
  wrStalled : Bool := false
  deriving DecidableEq, Repr

/-- Slabs released together that have not yet reached the free pool (R221); `flush` says that a flush released them. -/
structure Transit where
  queue : Nat
  slabs : Nat
  flush : Bool
  deriving DecidableEq, Repr

/-- The queue manager beyond its registers: the queues in use, the slabs in transit (oldest first), and the last queue
served in each group of R229. -/
structure Qmx where
  q : SMap Queue := []
  transit : List Transit := []
  lastRecord : Nat := 0
  lastStream : Nat := 0
  deriving DecidableEq, Repr

/-! ### Scan store (spec/07) -/

/-- One station's store state beyond its registers. `queues` are the store read queues with their pointers, `products`
the product pointers (R189); `offered` are the queues whose present item is not yet wholly accepted, `begun` those that
have begun the band of their pointer (R257), `prodBegun` the products that have begun theirs, with in `shedAhead` the bands shed beyond that one (R203); `marks` are the
marks placed and not removed, with their lines (R190, R206); `sinceScale` counts stored lines since the last scale (R193);
`stopped` says that a stop stands, `restart` that line R is unstored (R196), `mTriggered` that line M has been triggered
since; `seam` are the overlap lines written, `seamOpen` the window of R208, `seamEnded` that the seam check has ended (R201); `lastGood` holds the samples of the last line stored without
FILLED (R199), `lastProduct` the product that shed last (R204), `recBand` the band of the last record written to queue
112 + s (R402), `planes` the plane count of the arm, `reloadMark` the mark of R319; `entryBelow` says that in step 5 of an unpaced
restart the position has lain below P_M − 2 × D (R577), `lostDesc` that the next line descriptor is lost with the END of the one
before it (R216, R217). -/
structure Store where
  queues : SMap Nat := []
  products : SMap Nat := []
  offered : List Nat := []
  begun : List Nat := []
  prodBegun : List Nat := []
  shedAhead : SMap Nat := []
  marks : SMap Nat := []
  sinceScale : Nat := 0
  stopped : Bool := false
  restart : Bool := false
  mTriggered : Bool := false
  seam : List Nat := []
  seamOpen : Bool := false
  seamEnded : Bool := false
  lastGood : List Nat := []
  lastProduct : Nat := 31
  recBand : Nat := 0
  planes : Nat := 0
  reloadMark : Option Nat := none
  entryBelow : Bool := false
  lostDesc : Bool := false
  deriving DecidableEq, Repr

/-! ### Inspection engines (spec/09, spec/10) -/

/-- A word on a fabric link (R251). `marker` says it is marker-only (R253), `void` that it is the header of a VOID item (R257). -/
structure FWord where
  data : Nat := 0
  fin : Bool := false
  mark : Bool := false
  phase : Nat := 0
  marker : Bool := false
  void : Bool := false
  deriving DecidableEq, Repr

/-- The configuration of a cell: the common word and the type word of its record (R274). -/
structure CellCfg where
  cw : Nat := 0
  tw : Nat := 0
  deriving DecidableEq, Repr

/-- A row of a window cell (R285): its header word, band mark, phase and data words. -/
structure Row where
  hdr : Nat := 0
  mark : Bool := false
  phase : Nat := 0
  words : List Nat := []
  deriving DecidableEq, Repr

/-- The state of one cell (spec/10): the word in its output place and the inputs that have taken it, the words it still
owes, whether it holds its input words until it has written them (R290), its place in the item on its lead input (`hdr` its header, `pos` data words seen), MAC accumulators and words in
the run or group, the inputs it discards under R279, a window's rows, newest first, with the number not yet written,
header-only items that wait behind them (rows before each), and the row being read, a reduce's values with their indices, the data items of the band, the flags ORed over the band and
whether an item of it has come, band marks passed, and for ports the band of the item before, whether it has ended, a
DEGRADED bit owed to the next band, and the words of the record being gathered. -/
structure Cell where
  out : Option FWord := none
  taken : List Nat := []
  pend : List FWord := []
  hold : Bool := false
  inItem : Bool := false
  hdr : Nat := 0
  pos : Nat := 0
  acc : List Int := []
  run : Nat := 0
  skip : List Nat := []
  skipping : Bool := false
  rows : List Row := []
  owed : Nat := 0
  closers : List (Nat × FWord) := []
  cur : Option Row := none
  vals : List (List (Option (Int × Nat))) := []
  items : Nat := 0
  flags : Nat := 0
  inBand : Bool := false
  marks : Nat := 0
  band : Option Nat := none
  bandClosed : Bool := false
  degradeNext : Bool := false
  item : List Nat := []
  deriving DecidableEq, Repr

/-- An entry of the band table (R259): band, phase, the DEGRADED bit of R279, the output ports that have passed the
band's mark, and whether the lead port has accepted the band's BAND_LAST item (R271). -/
structure BandEntry where
  band : Nat := 0
  phase : Nat := 0
  degraded : Bool := false
  passed : List Nat := []
  closed : Bool := false
  deriving DecidableEq, Repr

/-- What a sequencer waits for (R265). -/
inductive SeqWait where
  | none | lines (n : Nat) | bands (n : Nat) | host
  deriving DecidableEq, Repr

/-- One engine beyond its registers: its reload group, cell configurations and states, the band table (oldest first)
and how many of its entries have retired, the phase in force and the wait of the sequencer, the newest band issued, the
line last accepted at the lead port, the cells that have fired in the present slot (R34), local store words by word
address (R249), whether its cells have run over their regions since those were loaded, and the words software has written
since it last ran (R275, R290). -/
structure Engine where
  group : Nat := 0
  cfg : SMap CellCfg := []
  cells : SMap Cell := []
  table : List BandEntry := []
  retired : Nat := 0
  phase : Nat := 0
  wait : SeqWait := .none
  newest : Option Nat := none
  lastWpi : Nat := 0
  fired : List Nat := []
  ls : SMap Nat := []
  ran : Bool := false
  soft : List Nat := []
  deriving DecidableEq, Repr

/-! ### Structure images (spec/11) -/

/-- An endpoint of a mapped queue (R310). -/
inductive Endpoint where
  | none
  | engine (e port : Nat)
  | store (s : Nat)
  | host
  deriving DecidableEq, Repr

/-- A QUEUE_MAP record (R310). -/
structure QMap where
  queue : Nat
  cls : Nat
  max : Nat
  closeEnd : Bool
  idle : Nat
  stall : Nat
  res : Nat
  writer : Endpoint
  reader : Endpoint
  first : Nat
  width : Nat
  planes : Nat
  deriving DecidableEq, Repr

/-- A TOPOLOGY record (R306). -/
structure Topo where
  engine : Nat
  station : Nat
  group : Nat
  ovfPage : Nat
  ovfPages : Nat
  seq : List Nat
  deriving DecidableEq, Repr

/-- A CELLS record (R307): the 48 cell records of one engine. -/
structure CellsRec where
  engine : Nat
  cells : List CellCfg
  deriving DecidableEq, Repr

/-- A CONSTANTS record (R308). -/
structure ConstRec where
  engine : Nat
  consts : List Nat
  deriving DecidableEq, Repr

/-- A LEAVES record (R309): its kind, the head bytes 8 to 23 and the data bytes. -/
structure LeafRec where
  kind : Nat
  head : List Nat
  data : List Nat
  deriving DecidableEq, Repr

/-- A WORLD_REQ record (R312). -/
structure WorldReq where
  kind : Nat
  world : Nat
  first : Nat
  count : Nat
  deriving DecidableEq, Repr

/-- A structure image read from its bytes (R298 to R313). -/
structure Image where
  id : Nat := 0
  ver : Nat := 0
  isPartial : Bool := false
  baseId : Nat := 0
  groupMask : Nat := 0
  manifest : List Nat := []
  topo : List Topo := []
  cells : List CellsRec := []
  qmap : List QMap := []
  worlds : List WorldReq := []
  consts : List ConstRec := []
  leaves : List LeafRec := []
  sigma : List (Nat × Nat) := []
  deriving DecidableEq, Repr

/-- The configuration unit beyond its registers: the structure in force, a staged reload and its hinge line, a partial
image that waits for its VCORE read-back (R55, R316, R319), the engines whose latest token audit failed (R263, R341), and of a load that runs the LENGTH taken at GO and whether its
refusals as a full load are still to be judged (R314). -/
structure Scu where
  image : Option Image := none
  staged : Option Image := none
  waiting : Option Image := none
  unverified : Bool := false
  hinge : Nat := 0
  tokBad : List Nat := []
  loadLen : Nat := 0
  loadPart : Bool := false
  deriving DecidableEq, Repr

/-! ### Seals (spec/12) -/

/-- One station's seal state beyond its registers: whether a band has met R325 since arm, the bands that met it while
frozen, the trigger instant of the last line triggered in each band less the time stopped before it, the instant of a standing
stop and the time stopped so far, and the snapshot counts of
bands not yet sealed (R325, R334, R335). -/
structure Seal where
  localValid : Bool := false
  frozenBands : List Nat := []
  trig : SMap (Nat × Int) := []
  stopAt : Option Int := none
  stopTime : Int := 0
  counts : SMap (List Nat) := []
  audited : List Nat := []
  lateBand : Option Nat := none
  sinceSnap : Nat := 0
  snapsDue : List (Nat × Nat × List Nat) := []
  deriving DecidableEq, Repr

/-! ### Pace, admission and voltage fitting (spec/02) -/

/-- What waits for a VCORE read-back (R55, R551): the boot, the ST_STAGE that runs on a ring, or a partial image load. -/
inductive VWait where
  | boot
  | stage (ring : Nat)
  | image
  deriving DecidableEq, Repr

/-- The pace unit beyond its registers: the counters at the start of the running window, the domains with a deficit
standing (R31), pace windows left of a hold period, whether the window is discarded until a read-back (R56), what waits
for VMAX (R55), the hinge lines that fitting waits for, by station (R55), and the exponent N of VOUT_MODE (R514). -/
structure Pace where
  hs0 : SMap Nat := []
  busy0 : SMap Nat := []
  deficit : List Nat := []
  holdLeft : Nat := 0
  discard : Bool := false
  waits : List VWait := []
  hinges : SMap Nat := []
  vexp : Nat := 0
  deriving DecidableEq, Repr

/-! ### Ricel head links (spec/03) -/

/-- A PIXEL packet's header (spec/03, R66). -/
structure PixHdr where
  plane : Nat
  last : Bool
  wpi16 : Nat
  col : Nat
  count : Nat
  lost : Bool
  deriving DecidableEq, Repr

/-- A packet that holds blocks of the lane buffer: its cost in blocks, its header and its samples (R73, R74), and the instant it
arrived (R68). -/
structure BufPkt where
  cost : Nat
  hdr : PixHdr
  samples : List Nat
  time : Int := 0
  deriving DecidableEq, Repr

/-- A TIMING block committed and not yet sent on a lane: its KIND, its line, its instant and the instant of the commit (R84, R85). -/
structure HeldTiming where
  kind : Nat
  n : Nat
  inst : Int
  since : Int
  deriving DecidableEq, Repr

/-- One lane beyond its registers: the SEQ expected, whether a NAK stands, how often each SEQ has been refused since it was
last accepted (R79, R80), the TIMING blocks that wait for their place (R84, R85), the packets in the lane buffer, the block numbers of recent CRC errors (R96), the ECHO under way
(tag and send instant, R85), the next tag, whether D is measured, what TRAIN and PRBS have reported, whether CREDIT INIT has
been sent and is acknowledged, whether its latest credit audit failed (R341), the instant at which the block count of its
present mode started (R82), whether it is coded in 8b/10b, with the place of its block boundary among the characters received
(R61), the scrambler (R60), and whether a retrain has started its PRBS test (R96). -/
structure Lane where
  exp : Nat := 0
  nak : Bool := false
  refused : SMap Nat := []
  later : List HeldTiming := []
  buf : List BufPkt := []
  crcAt : List Nat := []
  echo : Option (Nat × Nat) := none
  nextTag : Nat := 0
  measured : Bool := false
  phase4 : Bool := false
  prbsUp : Option Nat := none
  prbsDown : Option Nat := none
  initSent : Bool := false
  inited : Bool := false
  auditBad : Bool := false
  epoch : Int := 0
  k8 : Bool := true
  boundary : Nat := 0
  scr : Nat := 0
  prbs : Bool := false
  deriving DecidableEq, Repr

/-- A head line under assembly (R70): the samples received by plane × 2^18 + column, the planes whose LAST packet has
come, whether it has been completed or filled at its present trigger (R68), what is handed on once every line before
it has been: filled, skipped and the samples; and of a line triggered again the LINE timing instant at which it opens afresh (R68). -/
structure HeadLine where
  got : SMap Nat := []
  lastSeen : List Nat := []
  closed : Bool := false
  ready : Option (Bool × Bool × List Nat) := none
  opens : Option Int := none
  deriving DecidableEq, Repr

/-- One head port beyond its registers: the CAP blocks, the candidate modes left and the one under trial (lanes, rate
code), candidates tried, the version and depth chosen, whether MODE has been acknowledged, a discovery retry owed, whether a
renegotiation must offer `oldMode` alone while the station is outside IDLE (R98), the last head event (R89), lines under
assembly by WPI, the last good line (R71), the highest line delivered (R72), the next line to hand on, whether full
renegotiation is under way; and the reading of its configuration space at bring-up (R88): the addresses left, the read
outstanding (tag, address) and the words read. -/
structure Head where
  cap : List Nat := []
  cands : List (Nat × Nat) := []
  cand : Option (Nat × Nat) := none
  tried : Nat := 0
  version : Nat := 0
  modeOk : Bool := false
  retry : Bool := false
  keepMode : Bool := false
  oldMode : Option (Nat × Nat) := none
  depth : Nat := 0
  evCode : Nat := 0
  evValue : Nat := 0
  lines : SMap HeadLine := []
  good : List Nat := []
  delivered : Option Nat := none
  next : Nat := 0
  renew : Bool := false
  reads : List Nat := []
  ask : Option (Nat × Nat) := none
  space : SMap Nat := []
  deriving DecidableEq, Repr

/-- The request of HLF_CFG_CMD that is outstanding (R86): its tag, port, address, write bit and data, and whether it has been
sent, which waits for the head's one outstanding request to end. -/
structure CfgReq where
  tag : Nat := 0
  port : Nat := 0
  addr : Nat := 0
  write : Bool := false
  data : Nat := 0
  sent : Bool := true
  deriving DecidableEq, Repr

/-- The head link fabric beyond its registers: lanes, heads, the request outstanding and the next tag (R86). -/
structure Hlf where
  lane : SMap Lane := []
  head : SMap Head := []
  cfgReq : Option CfgReq := none
  nextTag : Nat := 0
  deriving DecidableEq, Repr

/-! ### Line timing (spec/04) -/

/-- One pin of an encoder input (R104): the last five samples, newest first, the output of the majority filter and the instant since
which it stands, the time it must be stable for, taken at the edge (R563), and the level that the glitch filter has accepted. -/
structure Pin where
  hist : List Bool := [false, false, false, false, false]
  out : Bool := false
  since : Int := 0
  hold : Int := 0
  level : Bool := false
  deriving DecidableEq, Repr

/-- One encoder beyond its registers: its pins and the tick each was last sampled at (R104), the levels of A and B that the decoder
has taken, the count, the instant and direction of the last edge, and the instants of recent edges, newest first (R106 to R108). -/
structure Enc where
  pinA : Pin := {}
  pinB : Pin := {}
  pinZ : Pin := {}
  abAt : Int := 0
  zAt : Int := 0
  a : Bool := false
  b : Bool := false
  count : Int := 0
  te : Int := 0
  up : Bool := true
  moved : Bool := false
  edges : List Int := []
  deriving DecidableEq, Repr

/-- A committed line (R113 to R124): WPI, the instants T, S, E and Q, the commit instant (R431), and whether it was
clipped or is the match line. -/
structure CLine where
  n : Nat := 0
  t : Int := 0
  ss : Int := 0
  ee : Int := 0
  qq : Int := 0
  at_ : Int := 0
  clipped : Bool := false
  isMatch : Bool := false
  deriving DecidableEq, Repr

/-- One station's timing beyond its registers: the next line to commit, the instants T_start and base, lines committed
and not yet triggered, the last line triggered (R123), whether velocity errors are being marked (R128), whether the first line has
been placed (R117) and whether its position at its instant is still to be taken, whether a line has been committed or triggered since
arm, whether the position lies below the target of the first line or of line M, or has lain there since SCANNING was entered (R117,
R127), the next line as it stood before a match was armed (R127), and the LTU values in force below each hinge line applied, newest
first (R131). -/
structure LSt where
  next : Nat := 0
  tStart : Int := 0
  tPrev : Option Int := none
  based : Bool := false
  basePending : Bool := false
  committed : List CLine := []
  last : Option CLine := none
  velRun : Bool := false
  everCommitted : Bool := false
  everTriggered : Bool := false
  below : Bool := false
  back : Option Nat := none
  old : List (Nat × List Nat) := []
  ringOffset : Int := 0
  deriving DecidableEq, Repr

/-- The timing unit beyond its registers: encoders, stations, the reference state, the offset to PTP time in LTU units (R130), and
the steering in ppb: the part that follows PTP, and the whole (R103). -/
structure Ltu where
  enc : SMap Enc := []
  st : SMap LSt := []
  refLost : Bool := false
  ptpOffset : Int := 0
  ptpPart : Int := 0
  steer : Int := 0
  deriving DecidableEq, Repr

/-! ### Pixel conditioning (spec/05, spec/06) -/

/-- The drift state of one plane: the filter states K_f and W_f as U16.16 (R148), and whether the clamp of δ* and that of g* act
(R149). -/
structure Drift where
  kf : Nat := 0
  wf : Nat := 0
  clampD : Bool := false
  clampG : Bool := false
  deriving DecidableEq, Repr

/-- A head line after defect replacement: WPI, its samples plane after plane, FILLED and SKIPPED. -/
structure PLine where
  n : Nat := 0
  filled : Bool := false
  skipped : Bool := false
  y : List Nat := []
  deriving DecidableEq, Repr

/-- A cross-fade that has begun (R155, R156): the old slot, the first line, log2 of F, and by plane the δ and g that
were applied at line H − 1. It is held until it is released. -/
structure Fade where
  slot : Nat
  h : Nat
  log : Nat
  delta : List Nat
  gain : List Nat
  deriving DecidableEq, Repr

/-- One head in the pipeline beyond its registers: recent lines, newest first (R161, R164), the first line since arm,
drift states (R148), fades not yet released, newest first (R155), the pending request's hinge and fade (R154), the
highest line shaded (R155), the highest line whose filters were not held (R152), the values applied to recent lines, newest first (R151), the last raw line that needed no
fill (R217), and a pending head line that a reader has refused. -/
structure PHead where
  lines : List PLine := []
  first : Option Nat := none
  drift : List Drift := []
  fades : List Fade := []
  pendH : Nat := 0
  pendLog : Nat := 0
  reached : Option Nat := none
  used : Option Nat := none
  applied : List (Nat × List Nat × List Nat) := []
  rawGood : List Nat := []
  deriving DecidableEq, Repr

/-- The running capture (R142 to R147): head, slot and settings as they stood at the start, lines counted, the sum, least
and greatest of each column and plane, and the reference columns (first, count). -/
structure Capture where
  head : Nat := 0
  slot : Nat := 0
  startLine : Nat := 0
  white : Bool := false
  nLog : Nat := 0
  rej : Bool := false
  auto : Bool := false
  counted : Nat := 0
  sums : List Nat := []
  mins : List Nat := []
  maxs : List Nat := []
  dark : Nat × Nat := (0, 0)
  strip : Nat × Nat := (0, 0)
  deriving DecidableEq, Repr

/-- The alignment measurement (R167): head, and N, POL, T, FIRST and COUNT as they stood at GO; first line, lines taken, and the window
sum of each plane of the line last taken, with its number. -/
structure AlnMeas where
  head : Nat := 0
  nLog : Nat := 0
  falling : Bool := false
  level : Nat := 0
  first : Nat := 0
  count : Nat := 0
  startLine : Nat := 0
  taken : Nat := 0
  prev : List (Option Nat) := []
  prevAt : Nat := 0
  deriving DecidableEq, Repr

/-- The dovetail measurement (R174): station, position and N as they stood at GO, first line, lines taken, and the 65 sums. -/
structure DvtMeas where
  station : Nat := 0
  pos : Nat := 0
  nLog : Nat := 0
  startLine : Nat := 0
  taken : Nat := 0
  sums : List Nat := []
  deriving DecidableEq, Repr

/-- A placed station line that is not yet conditioned: WPI, flags, planes of samples, the right dovetail's columns by
plane when they have come, and whether they are late (R175, R176). -/
structure OpenLine where
  n : Nat
  flags : Nat
  planes : List (List Nat)
  right : Option (List (List Nat)) := none
  late : Bool := false
  deriving DecidableEq, Repr

/-- One station in the pipeline: descriptor flags taken and not yet used by line, whether the next descriptor is lost with the END of
the one before it (R216, R217), the newest line conditioned, the newest
placed, lines that wait for dovetail columns, oldest first, columns received early, and the line refill ends at
(R166). -/
structure PSt where
  desc : List (Nat × Nat) := []
  lostDesc : Bool := false
  last : Option Nat := none
  placed : Option Nat := none
  waiting : List OpenLine := []
  early : List (Nat × List (List Nat)) := []
  refill : Option (Nat × Nat) := none
  deriving DecidableEq, Repr

/-- One image product: the u lines of recent input lines by plane, newest first, the first line the product read, the
overlap lines handed as history by restart line R (R200), the flags gathered in the open group and its number, whether
the line of its pointer waits for the queue to accept its frame (R189), and the output leaves pending with their hinge
(R182). -/
structure Prod where
  hist : List (Nat × List (List Nat)) := []
  first : Option Nat := none
  overlaps : List (Nat × List (Nat × List Nat)) := []
  flags : Nat := 0
  grp : Option Nat := none
  wait : Bool := false
  pendX : Nat := 0
  pendY : Nat := 0
  pendH : Nat := 0
  deriving DecidableEq, Repr

/-- The pipeline beyond its registers. -/
structure Pcp where
  head : SMap PHead := []
  st : SMap PSt := []
  prod : SMap Prod := []
  cap : Capture := {}
  aln : AlnMeas := {}
  dvt : DvtMeas := {}
  deriving DecidableEq, Repr


/-! ### Illumination (spec/16) -/

/-- A pattern bank in force from hinge line `h`, with its ramp (R421, R425). -/
structure BankUse where
  bank : Nat := 0
  h : Nat := 0
  ramp : Bool := false
  rlen : Nat := 0
  r0 : Nat := 0
  r1 : Nat := 0
  deriving DecidableEq, Repr

/-- One lamp-sync group beyond its registers: banks in force, newest first (R423, R424), the pending swap, force-off
values by their first line, newest first (R426), the last line lit (number, S and E), and whether a temperature has been taken since compensation was enabled (R427). -/
structure Grp where
  uses : List BankUse := []
  pend : Option BankUse := none
  offs : List (Nat × Bool) := []
  line : Option (Nat × Int × Int) := none
  taken : Bool := false
  deriving DecidableEq, Repr

/-- A gate of a channel that has not fallen yet (R417, R431): its falling edge in ticks, set point and line, and whether it is high for at
least 1 µs and so is observed as it falls (R430). -/
structure LitGate where
  fall : Int
  level : Nat
  line : Nat
  long : Bool
  deriving DecidableEq, Repr

/-- One string channel beyond its registers: its gates, oldest first, the compensation formed for its next line (R429), the lines in a
row by which its due pulse has been deferred (R432), and the open and short observations in a row (R430, R432). -/
structure Chan where
  gates : List LitGate := []
  formed : Option Nat := none
  deferred : Nat := 0
  opens : Nat := 0
  shorts : Nat := 0
  deriving DecidableEq, Repr

/-- The illumination controller beyond its registers. -/
structure Ilc where
  grp : SMap Grp := []
  chan : SMap Chan := []
  deriving DecidableEq, Repr


/-! ### Host interface (spec/14) -/

/-- An item that a stream has begun (R378): its queue (3FFFFh for a snapshot record), its band, and the words of a snapshot
record still to be framed. -/
structure HItem where
  queue : Nat
  band : Nat
  left : List Nat := []
  deriving DecidableEq, Repr

/-- A datagram closed and not yet sent (R386): SEQ, chunks, BAND_END, and the bytes of its chunks. -/
structure Dgram where
  seq : Nat
  chunks : Nat
  bandEnd : Bool
  bytes : List Nat
  deriving DecidableEq, Repr

/-- A delivery stream beyond its registers: the descriptor in use (address, length, IRQ), the bytes written to its buffer and the
highest band among them (R379, R380); the item begun (R378); the item owed a closing TRUNC chunk (R374), then the queue whose
item is discarded to its end; the next band to release, whether an item of it has been released, and the queues of the band left so far (R406); the datagram being
filled, those waiting to be sent, and the instant before which none may be sent (R386, R387). -/
structure Stream where
  desc : Option (Nat × Nat × Bool) := none
  used : Nat := 0
  top : Option Nat := none
  item : Option HItem := none
  cut : Option (Nat × Nat) := none
  skip : Option Nat := none
  next : Option Nat := none
  begun : Bool := false
  pos : Nat := 0
  dg : List Nat := []
  dgChunks : Nat := 0
  ready : List Dgram := []
  sendAt : Int := 0
  deriving DecidableEq, Repr

/-- A sender of Announce messages (R391): its port identity, what it announces, and the instants of the last Announce and of the one
before it. -/
structure PtpForeign where
  src : Nat
  data : PtpDataset
  last : Int
  before : Option Int := none
  deriving DecidableEq, Repr

/-- The PTP slave beyond its registers (R391): the senders of Announce messages, the selected master, the last Sync received (SEQ and
instant in LTU units) and whether its Follow_Up is awaited with the correction of the Sync, the origin time of the last complete Sync in
ns and its instant, the SEQ of the last delay request, and the consecutive Sync messages within and above LOCK_NS. -/
structure Ptp where
  foreign : List PtpForeign := []
  master : Option Nat := none
  syncSeq : Nat := 0
  syncAt : Int := 0
  awaits : Option Int := none
  t1 : Option Int := none
  t2 : Int := 0
  reqSeq : Nat := 0
  good : Nat := 0
  bad : Nat := 0
  deriving DecidableEq, Repr

/-- The host interface beyond its registers: the streams, the vectors whose MSI-X mask is clear and those whose PBA bit is set,
by 256 × function + vector, the message address and data of each entry (R371), the instant of each vector's last message (R395), the
functions whose Device Control does not enable Relaxed Ordering (R381), the address of the first unsupported request in the AER log of
each function (R372), and the PTP slave. -/
structure Hif where
  st : SMap Stream := []
  unmasked : SMap Bool := []
  msix : SMap (Nat × Nat) := []
  strict : List Nat := []
  aer : SMap (Option Nat) := []
  pba : SMap Bool := []
  last : SMap (Option Int) := []
  ptp : Ptp := {}
  deriving DecidableEq, Repr


/-! ### Measurement front end (spec/17) -/

/-- One entry beyond its registers: an excitation change that its next dwell to complete takes, and one that arrived during that dwell
(R445); the excitation that dwell keeps; a RANGE that auto-range writes at the next frame; the results since the last record, and the
WPI of the last record (R456, R457). -/
structure MfeEnt where
  exc : Bool := false
  late : Bool := false
  held : Option (List Nat) := none
  auto : Option Nat := none
  dec : Nat := 0
  prevWpi : Option Nat := none
  deriving DecidableEq, Repr

/-- One filter chain beyond its registers: the samples since the last restart; the inputs of the three stages, newest first, those of
stages 2 and 3 in 1/65,536 (R447); the values of the coarse path (R449); the sum and count of the block in progress and whether
results are flagged until it ends (R452); suppression after a synchronising reset (R451); whether the chain restarts at the next
unflagged sample (R450); the leaf that fades in with F and the outputs of the fade so far, and the pending swap (R455). -/
structure Chain where
  j : Nat := 0
  h1 : List Int := []
  h2 : List Int := []
  h3 : List Int := []
  coarse : List Int := []
  sum : Int := 0
  blk : Nat := 0
  flagBlk : Bool := false
  sup : Bool := false
  restart : Bool := false
  fade : Option (Nat × Nat × Nat) := none
  pend : Option (Nat × Nat) := none
  deriving DecidableEq, Repr

/-- One output beyond its registers: the setting in force and the one that waits for the end of the period, each a period and a high
time in clocks (R458). -/
structure MfeOut where
  now : Option (Nat × Nat) := none
  next : Option (Nat × Nat) := none
  deriving DecidableEq, Repr

/-- The measurement front end beyond its registers: entries, chains and outputs; the regular entries still to run in the frame and the
slots of slack left for urgent conversions (R440, R442); the entries of the urgent requests queued; the chains that restart at the next
frame start (R451); the slice that the next calibration swap replaces first (R438); whether the sequencer stops when the dwell
in progress ends (MFE_CTRL.SEQ_EN); and whether a calibrated spare replaces an active slice then (R438). -/
structure Mfe where
  ent : SMap MfeEnt := []
  ch : SMap Chain := []
  out : SMap MfeOut := []
  todo : List Nat := []
  slack : Nat := 0
  urg : List Nat := []
  sync : Nat := 0
  rr : Nat := 0
  stopping : Bool := false
  swapDue : Bool := false
  deriving DecidableEq, Repr


/-! ### Motion (spec/18) -/

/-- Where a profile goes (R466, R467): nowhere, a velocity, a position, or to rest without a jerk limit. Velocities are
microsteps/s, positions microsteps. -/
inductive Goal where
  | rest
  | vel (v : Int)
  | pos (p : Int)
  | estop
  deriving DecidableEq, Repr

/-- A profile: position × 50,000³ microsteps, velocity × 50,000² microsteps/s and acceleration × 50,000 microsteps/s²
(one cycle is 1/50,000 s), and its goal. -/
structure Profile where
  p : Int := 0
  v : Int := 0
  a : Int := 0
  goal : Goal := .rest
  deriving DecidableEq, Repr

/-- One axis beyond its registers: its profile, the next TABLE entry to send (R463), good STATUS frames with TABLE_OK
in a row, cycles without a good frame, the CYC number, cycles with low load (R472), cycles of stall (R474), the coil
mode when it does not drive, whether the hold mode is in force and the last run current (R473), whether a move ended in the present
cycle and the velocity at its start (R467, R474), and the back-up move: its target in 1/65,536
counts, moves made, and whether the SETTLE wait runs (R471). -/
structure Axis where
  prof : Profile := {}
  table : Nat := 0
  goodRun : Nat := 0
  missed : Nat := 0
  cyc : Nat := 0
  lowLoad : Nat := 0
  stallRun : Nat := 0
  coil : Nat := 0
  holding : Bool := false
  run : Nat := 0
  ended : Bool := false
  startV : Int := 0
  back : Option Int := none
  tries : Nat := 0
  settling : Bool := false
  scaleOne : Bool := false
  inLin : Bool := false
  deriving DecidableEq, Repr

/-- A linear move (R468): the path profile, start positions and distances by axis, the leading distance, and the limits
of the path (velocity, acceleration, jerk), in the units of a profile. -/
structure Lin where
  path : Profile := {}
  starts : SMap Int := []
  deltas : SMap Int := []
  lead : Nat := 0
  vmax : Nat := 0
  amax : Nat := 0
  jmax : Nat := 0
  deriving DecidableEq, Repr

/-- The motion controller beyond its registers: the axes, the linear move, and the axes and targets of one whose axes still come to rest
(R468). -/
structure Ttc where
  ax : SMap Axis := []
  lin : Option Lin := none
  due : List (Nat × Int) := []
  deriving DecidableEq, Repr

/-! ### Thermal management (spec/19) -/

/-- The thermal manager beyond its registers: consecutive samples toward entry and exit of warning and throttle, sweeps with a valid
reading at the shutdown level (R479, R483), whether a valid reading of the last sweep was at or above T_THR (R481), and the ring
oscillators whose window runs, one bit each (R487). -/
structure Thm where
  warnUp : Nat := 0
  warnDown : Nat := 0
  thrUp : Nat := 0
  thrDown : Nat := 0
  shut : Nat := 0
  hot : Bool := false
  ro : Nat := 255
  deriving DecidableEq, Repr



/-! ### Kelim ring (spec/13) -/

/-- A frame sent on a Kelim lane, or waiting to be: the body of START and the data blocks (R347). -/
structure KSent where
  hdr : Nat := 0
  data : List Nat := []
  deriving DecidableEq, Repr

/-- One Kelim lane. As a receiver: the SEQ expected, whether a NAK stands, how often each SEQ has been refused since it was last accepted (R79, R80), RETURNED
(R74), the delay D in LTU units (R348), and whether the resync window of R97 is open. As a sender (R347): the next SEQ, the credits
held, spent and last returned, the frames not acknowledged, to send again, and that wait, oldest first, the instant since which no ACK
has come for the oldest, the next ECHO tag, and the scrambler. `training` says that a retrain has yet to lock, to pass PRBS31 and to
measure D (R96). -/
structure KLane where
  exp : Nat := 0
  nak : Bool := false
  refused : SMap Nat := []
  returned : Nat := 0
  d : Nat := 0
  resync : Bool := false
  training : Bool := false
  tx : Nat := 0
  credits : Nat := 0
  spent : Nat := 0
  rxReturned : Nat := 0
  unacked : List KSent := []
  since : Option Int := none
  resend : List KSent := []
  wait : List KSent := []
  tag : Nat := 0
  scr : Nat := 0
  deriving DecidableEq, Repr

/-- A member of the roster (R354). -/
structure KMember where
  role : Nat := 0
  stations : Nat := 0
  serial : Nat := 0
  deriving DecidableEq, Repr

/-- A ring seal token (R349): band, lap, MISMATCH, COUNT and TDIG. -/
structure KTok where
  band : Nat := 0
  lap : Bool := false
  bad : Bool := false
  count : Nat := 0
  tdig : Nat := 0
  deriving DecidableEq, Repr

/-- One ring station: T_a of the alignment under way, P(T_a) once latched, the members that have acknowledged (R359), an
alignment owed until the ring has formed, O in force, bands whose tokens circulate and the highest band issued (timing member, R361),
LAP 0 tokens held (R362), the highest band passed in each lap (R365), bands whose LAP 1 passed in a freeze, and the HINGE frames owed
until the ring has formed (H and TDIG, R363). -/
structure KSt where
  ta : Option Int := none
  latched : Option Int := none
  acks : List Nat := []
  owed : Bool := false
  off : Int := 0
  flying : List Nat := []
  issued : Option Nat := none
  held : List KTok := []
  last0 : Option Nat := none
  last1 : Option Nat := none
  sealedLate : List Nat := []
  hinges : List (Nat × Nat) := []
  deriving DecidableEq, Repr

/-- The ring unit beyond its registers: ring time less LTU time (R357), TIME frames sent, lanes, MEMBERS and CHAIN, N_c, the
roster of the timing member, whether its DISCOVER has gone out and whether it is back, the folds reported as (member, port), the step of each port's
authentication, the serial of each neighbour and of the roster's, the next data lane for dovetails, and stations. -/
structure Kru where
  timeOff : Int := 0
  timeCount : Nat := 0
  lane : SMap KLane := []
  members : Nat := 0
  nc : List Nat := []
  roster : SMap KMember := []
  sent : Bool := false
  back : Bool := false
  folds : List (Nat × Nat) := []
  auth : SMap Nat := []
  serial : SMap Nat := []
  known : List Nat := []
  turn : SMap Nat := []
  st : SMap KSt := []
  deriving DecidableEq, Repr

/-! ### Commands and states (spec/20 to spec/22) -/

/-- A staged LTU change (R532): hinge line, MASK and the seven values in MASK bit order. -/
structure Staged where
  h : Nat
  mask : Nat
  vals : List Nat
  deriving DecidableEq, Repr

/-- One station beyond its registers: its band exponent (the K field of SMC_ST_STATE is one bit short for 16), the first ports of its heads, a drain's FINAL line (R531), the final line F once
fixed (R331), the staged change (R532), and whether a paced axis faulted in SCANNING or PAUSED, after which only an abort ends
that state (R474). -/
structure Station where
  k : Nat := 6
  heads : List Nat := []
  final : Option Nat := none
  fLine : Option Nat := none
  fromScan : Bool := false
  staged : Option Staged := none
  axisDown : Bool := false
  deriving DecidableEq, Repr

/-- A mailbox command that runs beyond the step that took it (R493, R523, R530, R536): OPCODE, TAG, the station it names
(8 for none) and the numbers its end needs. -/
structure Running where
  op : Nat
  tag : Nat
  station : Nat := 8
  data : List Nat := []
  deriving DecidableEq, Repr

/-- One mailbox ring beyond its registers: commands taken (R521) and the command that runs on. -/
structure Ring where
  seq : Nat := 0
  run : Option Running := none
  deriving DecidableEq, Repr

/-- The management complex beyond its registers: the mailbox rings, the entries handed over in the order of their TAIL
writes as 128 × ring + entry (R522), the measurements it holds as 48 bytes each (R509), a DEV_RESET accepted and not yet
carried out (R533), the running SVNs of Cabinet and Workbench (R503, R535), the range of Workbench versions the running
Cabinet was tested against (R504), the flash size read at boot (R536), the owner KEK (R493), which of the two conditions of
boot stage 4h have passed and which still run (R550), whether PERST_N is high (R554), whether a Cabinet runs (R501), whether the HBM is in
self-refresh (R483), and the SD_REFCLK inputs that stand still (R565). -/
structure Smc where
  ring : SMap Ring := []
  order : List Nat := []
  meas : SMap (List Nat) := []
  resetDue : Bool := false
  cabSvn : Nat := 0
  wbSvn : Nat := 0
  kek : List Nat := []
  cabWb : Nat × Nat := (0, 0)
  flashSize : Nat := 0
  hbmOk : Bool := false
  wbOk : Bool := false
  hbmRun : Bool := false
  wbRun : Bool := false
  perst : Bool := false
  cabRuns : Bool := false
  hbmRefresh : Bool := false
  refGone : List Nat := []
  deriving DecidableEq, Repr

/-! ### The whole -/

/-- The state of the device. -/
structure State where
  /-- Commands that wait, first in, first out. -/
  pending : List Instr := []
  /-- The register store: fields by bit address, a field not listed holding its reset value (R14). -/
  regs : SMap Nat := []
  /-- Holding registers, by the byte address of the register that reads them (R39, R336). -/
  hold : SMap Nat := []
  /-- What the device has sent, oldest first. -/
  out : List Output := []
  /-- The model's own counter of free values taken (log 3). -/
  fresh : Nat := 0
  /-- Vectors with a message due: 256 × function + vector (R395). -/
  due : List Nat := []
  /-- HBM bytes by BAR2 offset (R184). -/
  hbm : Memory := []
  /-- The memories of the leaf and table window, by absolute byte offset (R574). -/
  leaf : Memory := []
  /-- Mailbox entry bytes, by absolute byte offset (R518). -/
  mbox : Memory := []
  qmx : Qmx := {}
  store : SMap Store := []
  eng : SMap Engine := []
  pace : Pace := {}
  hlf : Hlf := {}
  ltu : Ltu := {}
  pcp : Pcp := {}
  ttc : Ttc := {}
  ilc : Ilc := {}
  scu : Scu := {}
  seals : SMap Seal := []
  stations : SMap Station := []
  smc : Smc := {}
  kru : Kru := {}
  hif : Hif := {}
  mfe : Mfe := {}
  thm : Thm := {}
  deriving DecidableEq, Repr

/-- The device right after reset: every field at the value its table gives, every memory and queue empty (R574). -/
def State.reset : State := {}


/-- Why the machine stops. No command of the Citum ends in a fault: every wait, refusal and error the manual describes
is a next state. The one reason is kept for a step on a machine that does not exist; nothing raises it, which is safe. -/
inductive Fault where
  /-- Raised by no meaning. Safe. -/
  | absentMachine
  deriving DecidableEq, Repr

/-- Why a command has no meaning. -/
inductive Refusal where
  /-- An arm of the dispatcher that has no meaning yet, by mnemonic. Safe: the machine stops. -/
  | notModelled (mnemonic : String)
  deriving DecidableEq, Repr


end Sys2Proof.Machine
end

