-- ==== Sys2Proof/Machine/Ops.lean ====
section
/-! DEFINITION. The named operations every meaning uses: reading and writing fields, counters, outputs, events, free
values, refusals, worlds, and the register space as the host sees it. -/

namespace Sys2Proof.Machine

/-- The outcome of a step of the Citum. -/
abbrev Out := Host.Outcome State Fault Refusal

/-! ### Fields -/

/-- The value of a field of instance `i`, `j`. -/
def State.get (s : State) (f : Fld) (i : Nat := 0) (j : Nat := 0) : Nat :=
  SMap.get s.regs (f.resetAt i) (f.key i j)

/-- Set a field of instance `i`, `j`; the value wraps to the field's width. -/
def State.set (s : State) (f : Fld) (v : Nat) (i : Nat := 0) (j : Nat := 0) : State :=
  { s with regs := SMap.put s.regs (f.resetAt i) (f.key i j) (v % 2 ^ f.width) }

/-- Whether a flag field is set. -/
def State.on (s : State) (f : Fld) (i : Nat := 0) (j : Nat := 0) : Bool := decide (s.get f i j ≠ 0)

/-- A field read as a signed value (R3). -/
def State.getS (s : State) (f : Fld) (i : Nat := 0) (j : Nat := 0) : Int := toSigned f.width (s.get f i j)

/-- Set a signed field, saturating. -/
def State.setS (s : State) (f : Fld) (x : Int) (i : Nat := 0) (j : Nat := 0) : State :=
  s.set f (ofSigned f.width (satS f.width x)) i j

/-- Set a field, saturating at its largest value. -/
def State.setSat (s : State) (f : Fld) (v : Nat) (i : Nat := 0) (j : Nat := 0) : State :=
  s.set f (satU f.width v) i j

/-- Add to a counter that wraps at its width. -/
def State.add (s : State) (f : Fld) (n : Nat) (i : Nat := 0) (j : Nat := 0) : State :=
  s.set f (s.get f i j + n) i j

/-- Add to a counter that saturates. -/
def State.addSat (s : State) (f : Fld) (n : Nat) (i : Nat := 0) (j : Nat := 0) : State :=
  s.setSat f (s.get f i j + n) i j

/-- Take from a counter, not below 0. -/
def State.sub (s : State) (f : Fld) (n : Nat) (i : Nat := 0) (j : Nat := 0) : State :=
  s.set f (s.get f i j - n) i j

/-- Apply a change when a condition holds. -/
def State.when (s : State) (c : Bool) (g : State → State) : State := if c then g s else s

/-- Apply a change for each element of a list, in order. -/
def State.each {α : Type} (s : State) (xs : List α) (g : State → α → State) : State := xs.foldl g s

/-- What the shutdown of R483 holds back: every SerDes transmitter is quiet and every illumination gate low. The PCI Express function
still answers, since the THM registers remain readable. -/
def Output.held : Output → Bool
  | .ricel _ _ _ _ | .timing _ _ _ _ | .training _ _ _ | .packet _ _ _ _ _ | .kelim _ _ _ _ _ | .kblock _ _ _ _ | .datagram _ _ _ _ | .ptp _ _ _ | .gate _ _ _ _ _ => true
  | _ => false

/-- An output is not sent: in OFF and RESET every output pin is inactive (R547), and after shutdown R483 holds some back. -/
def State.silent (s : State) (o : Output) : Bool :=
  let d := s.get R.SMC_DEV_STATE_STATE
  decide (d ≤ Dev.reset) || (o.held && decide (d = Dev.thermalLatch))

/-- Append to what the device has sent, where it is sent. -/
def State.emit (s : State) (o : Output) : State := if s.silent o then s else { s with out := s.out ++ [o] }

/-- SD_REFCLK`q` runs (R565). -/
def State.refRuns (s : State) (q : Nat) : Bool := !s.smc.refGone.contains q

/-! ### Instance records -/

def State.queue (s : State) (q : Nat) : Queue := SMap.get s.qmx.q {} q
def State.setQueue (s : State) (q : Nat) (x : Queue) : State :=
  { s with qmx := { s.qmx with q := SMap.put s.qmx.q {} q x } }
def State.engine (s : State) (e : Nat) : Engine := SMap.get s.eng {} e
def State.setEngine (s : State) (e : Nat) (x : Engine) : State := { s with eng := SMap.put s.eng {} e x }
def State.sto (s : State) (n : Nat) : Store := SMap.get s.store {} n
def State.setSto (s : State) (n : Nat) (x : Store) : State := { s with store := SMap.put s.store {} n x }
def State.sealOf (s : State) (n : Nat) : Seal := SMap.get s.seals {} n
def State.setSeal (s : State) (n : Nat) (x : Seal) : State := { s with seals := SMap.put s.seals {} n x }
def State.station (s : State) (n : Nat) : Station := SMap.get s.stations {} n
def State.setStation (s : State) (n : Nat) (x : Station) : State :=
  { s with stations := SMap.put s.stations {} n x }

def State.stream (s : State) (c : Nat) : Stream := SMap.get s.hif.st {} c
def State.setStream (s : State) (c : Nat) (x : Stream) : State := { s with hif := { s.hif with st := SMap.put s.hif.st {} c x } }
def State.ment (s : State) (e : Nat) : MfeEnt := SMap.get s.mfe.ent {} e
def State.setMent (s : State) (e : Nat) (x : MfeEnt) : State := { s with mfe := { s.mfe with ent := SMap.put s.mfe.ent {} e x } }
/-- The state of a station (R525). -/
def State.stState (s : State) (n : Nat) : Nat := s.get R.SMC_ST_STATE_STATE n
/-- The band exponent of a station (R27). -/
def State.bandExp (s : State) (n : Nat) : Nat := (s.station n).k
/-- A sheet-class station (R27). -/
def State.isSheet (s : State) (n : Nat) : Bool := s.on R.SMC_ST_STATE_CLASS n
/-- Whether a station is outside station state IDLE. -/
def State.stBusy (s : State) (n : Nat) : Bool := decide (s.stState n ≠ St.idle)
/-- The eight stations. -/
def stations8 : List Nat := List.range 8
/-- The station a head's first port belongs to (R28). -/
def State.stationOfHead (s : State) (p : Nat) : Option Nat :=
  stations8.find? fun n => (s.station n).heads.contains p

/-! ### Free values -/

/-- Take a fresh free value index (log 3). -/
def State.takeFresh (s : State) : Nat × State := (s.fresh, { s with fresh := s.fresh + 1 })

/-! ### Events (R392 to R395) -/

/-- The group summary shows the groups that hold a pending, enabled source (spec/14). -/
def State.syncSum (s : State) (g : Nat) : State :=
  let on := decide (s.get R.HIF_EVT_PEND_PEND g &&& s.get R.HIF_EVT_EN_EN g ≠ 0)
  let f := if g < 32 then R.HIF_EVT_SUM_LO_GROUPS else R.HIF_EVT_SUM_HI_GROUPS
  let b := g % 32
  let v := s.get f
  s.set f (if on then v ||| 2 ^ b else v - (v &&& 2 ^ b))

/-- The vector a source is routed to (R394), as 256 × function + vector. -/
def State.vectorOf (s : State) (n : Nat) : Nat :=
  256 * s.get R.HIF_EVT_MAP_FN n + s.get R.HIF_EVT_MAP_VECTOR n

/-- A source has become pending while enabled, or enabled while pending: its vector owes a message (R395). -/
def State.owe (s : State) (n : Nat) : State :=
  let v := s.vectorOf n
  if s.due.contains v then s else { s with due := s.due ++ [v] }

/-- Raise an event source (R392): its pending bit is set and stays until software clears it. -/
def State.raise (s : State) (n : Nat) : State :=
  let g := n / 32
  let b := 2 ^ (n % 32)
  let s1 := s.set R.HIF_EVT_PEND_PEND (s.get R.HIF_EVT_PEND_PEND g ||| b) g
  let s2 := s1.syncSum g
  if s.get R.HIF_EVT_EN_EN g &&& b ≠ 0 then s2.owe n else s2

/-! ### Refusals (R537, R538) -/

/-- Count a refused register write of a world under its status (R538). -/
def State.countRefused (s : State) (w : World) (c : Status) : State :=
  s.add R.SMC_REG_REFUSED_COUNT 1 w.toNat c.code

/-- A refused register write: its counter, and the LAST_STATUS field the rule names (R537, R538). -/
def State.refuse (s : State) (w : World) (c : Status) (last : Option Fld) (i : Nat := 0) : State :=
  let s1 := s.countRefused w c
  match last with
  | none => s1
  | some f => s1.set f c.code i

/-! ### Device state -/

/-- Whether an image is in force. -/
def State.inForce (s : State) : Bool := s.on R.SCU_IMG_STATUS_IN_FORCE

/-- The device state that follows from the stations and the image (R524). -/
def State.restState (s : State) : Nat :=
  let any (l : List Nat) : Bool := stations8.any fun n => l.contains (s.stState n)
  if any [St.scanning, St.paused, St.rewinding] then Dev.running
  else if any [St.draining] then Dev.draining
  else if any [St.armed] then Dev.armed
  else if s.inForce then Dev.loaded
  else Dev.idle

/-- Enter a device state; a change raises the device state event (R524, R543). -/
def State.setDev (s : State) (d : Nat) : State :=
  if s.get R.SMC_DEV_STATE_STATE = d then s else (s.set R.SMC_DEV_STATE_STATE d).raise Ev.devState

/-- The device state as a number (R524). -/
def State.dev (s : State) : Nat := s.get R.SMC_DEV_STATE_STATE

/-- Derive the device state again: the states IDLE to DRAINING follow from the stations and the image (R524). -/
def State.syncDev (s : State) : State :=
  if Dev.idle ≤ s.dev ∧ s.dev ≤ Dev.draining then s.setDev s.restState else s

/-! ### Worlds (R495 to R499) -/

/-- Bit `n` of a world map that holds 32 targets a word. -/
def State.mapBit (s : State) (f : Fld) (n : Nat) : Nat := bits (s.get f (n / 32)) (n % 32) 1

def State.blockWorld (s : State) (b : Nat) : World := World.ofBit (bits (s.get R.SMC_WMAP_BLK_BLOCKS) b 1)
def State.portWorld (s : State) (p : Nat) : World := World.ofBit (s.mapBit R.SMC_WMAP_PORT_MAP p)
def State.engineWorld (s : State) (e : Nat) : World := World.ofBit (s.mapBit R.SMC_WMAP_ENG_MAP e)
def State.queueWorld (s : State) (q : Nat) : World := World.ofBit (s.mapBit R.SMC_WMAP_QR_MAP (q / 1024))
def State.ethWorld (s : State) (p : Nat) : World := World.ofBit (bits (s.get R.SMC_WMAP_ETH_PORTS) p 1)
def State.shelfWorld (s : State) (n : Nat) : World := World.ofBit (s.mapBit R.SMC_WMAP_HBM_MAP n)
def State.ocWorld (s : State) (n : Nat) : World := World.ofBit (s.mapBit R.SMC_WMAP_OC_MAP n)

/-- A station's world is that of its head ports; one with no heads is non-secure (R498). -/
def State.stationWorld (s : State) (n : Nat) : World :=
  match (s.station n).heads with
  | [] => .nonSecure
  | p :: _ => s.portWorld p

/-- The on-chip shelf of an offset of the leaf and table window (R495, spec/24). -/
def ocShelf (a : Nat) : Option Nat :=
  if 0x2800000 ≤ a ∧ a < 0x3800000 then some ((a - 0x2800000) / 4096)
  else if 0x3800000 ≤ a ∧ a < 0x3810000 then some (4096 + (a - 0x3800000) / 4096)
  else if 0x3900000 ≤ a ∧ a < 0x39C0000 then some (4112 + (a - 0x3900000) / 4096)
  else if 0x3A00000 ≤ a ∧ a < 0x3A40000 then some (4304 + (a - 0x3A00000) / 4096)
  else if 0x3B00000 ≤ a ∧ a < 0x3B01000 then some 4368
  else none

/-- The world of a control-space address (R498, R518, R573). -/
def State.addrWorld (s : State) (a : Nat) : World :=
  if 0x12000 ≤ a ∧ a < 0x14000 then .secure                              -- command entries of ring 1
  else if 0x16000 ≤ a ∧ a < 0x18000 then .secure                         -- response entries of ring 1
  else if 0x5120 ≤ a ∧ a < 0x5140 then .secure                           -- mailbox registers of ring 1
  else if 0x5240 ≤ a ∧ a < 0x5280 then .secure                           -- SMC_MB_REFUSED[1]
  else if 0x5340 ≤ a ∧ a < 0x5380 then .secure                           -- SMC_REG_REFUSED[1]
  else if 0x5040 ≤ a ∧ a < 0x5060 then s.stationWorld ((a - 0x5040) / 4)
  else if a < 0x100000 then .nonSecure
  else if a < 0x200000 then s.blockWorld 0
  else if 0x20A100 ≤ a ∧ a < 0x20A900 then s.stationWorld ((a - 0x20A100) / 0x100)
  else if a < 0x400000 then s.blockWorld 1
  else if 0x401000 ≤ a ∧ a < 0x402800 then s.portWorld ((a - 0x401000) / 0x40)
  else if 0x404000 ≤ a ∧ a < 0x405800 then s.portWorld ((a - 0x404000) / 0x40)
  else if a < 0x600000 then s.blockWorld 2
  else if 0x601000 ≤ a ∧ a < 0x601400 then s.stationWorld ((a - 0x601000) / 0x80)
  else if a < 0x800000 then s.blockWorld 3
  else if 0x801000 ≤ a ∧ a < 0x802800 then s.portWorld ((a - 0x801000) / 0x40)
  else if 0x805000 ≤ a ∧ a < 0x806800 then s.portWorld ((a - 0x805000) / 0x40)
  else if 0x807000 ≤ a ∧ a < 0x807200 then s.stationWorld ((a - 0x807000) / 0x40)
  else if a < 0xA00000 then s.blockWorld 4
  else if 0xA01000 ≤ a ∧ a < 0xA01800 then s.stationWorld ((a - 0xA01000) / 0x100)
  else if a < 0xC00000 then s.blockWorld 5
  else if a < 0x1400000 then s.queueWorld ((a - 0xC00000) / 0x20)
  else if a < 0x1C00000 then s.engineWorld ((a - 0x1400000) / 0x4000)
  else if 0x1C01000 ≤ a ∧ a < 0x1C01200 then s.stationWorld ((a - 0x1C01000) / 0x40)
  else if a < 0x1D00000 then s.blockWorld 6
  else if a < 0x1E00000 then s.blockWorld 7
  else if a < 0x1F00000 then s.blockWorld 8
  else if a < 0x2000000 then s.blockWorld 9
  else if a < 0x2800000 then s.blockWorld 10
  else
    match ocShelf a with
    | some n => s.ocWorld n
    | none => .nonSecure

/-- Who made a cross-world access (SMC_XW_LOG.SOURCE). -/
inductive XwSource where
  | bar0 | bar2 | workbench
  deriving DecidableEq, Repr

def XwSource.code : XwSource → Nat
  | .bar0 => 0 | .bar2 => 1 | .workbench => 2

/-- SOURCE of a cross-world access to a register by an initiator. -/
def xwSource (w : World) : XwSource := if w = .workbench then .workbench else .bar0

/-- A cross-world access: counted, logged, and the event raised (R497). -/
def State.crossWorld (s : State) (src : XwSource) (write : Bool) (byteAddr : Nat) : State :=
  ((((s.add R.SMC_XW_COUNT_COUNT 1).set R.SMC_XW_LOG_SOURCE src.code).set R.SMC_XW_LOG_WRITE (b2n write)).set
    R.SMC_XW_ADDR_ADDR (byteAddr / 16)).raise Ev.crossWorld

/-! ### The register space -/

/-- The instance of a register family an address names. -/
def Reg.index? (r : Reg) (a : Nat) : Option (Nat × Nat) :=
  if a < r.base then none
  else
    let d := a - r.base
    let i := if r.s1 = 0 then 0 else d / r.s1
    let d1 := if r.s1 = 0 then d else d % r.s1
    let j := if r.s2 = 0 then 0 else d1 / r.s2
    let d2 := if r.s2 = 0 then d1 else d1 % r.s2
    if i < r.n1 ∧ j < r.n2 ∧ d2 = 0 then some (i, j) else none

/-- The register and instance at an address, if a chapter assigns one (R572). -/
def findReg (a : Nat) : Option (Reg × Nat × Nat) :=
  regTable.findSome? fun r => (r.index? a).map fun p => (r, p.1, p.2)

/-- The description of a register. -/
def RegId.desc? (id : RegId) : Option Reg := regTable.find? fun r => r.id = id

/-- The address of an instance of a register. -/
def Reg.addr (r : Reg) (i j : Nat) : Nat := r.base + r.s1 * i + r.s2 * j

/-- The absolute address of an instance of a register. -/
def RegId.addr (id : RegId) (i : Nat := 0) (j : Nat := 0) : Nat :=
  match id.desc? with
  | some r => r.addr i j
  | none => 0xFFFFFFFF

/-- The word a register shows to a reader of a world: WO parts read zero, RWS parts read zero to the non-secure
world (R11, R576), reserved bits read zero (R13). -/
def State.regWord (s : State) (w : World) (r : Reg) (i j : Nat) : Nat :=
  r.parts.foldl (fun acc p =>
    let v : Nat :=
      match p.fld.acc with
      | .wo => 0
      | .rws => if w = .secure then s.get p.fld i j else 0
      | _ => s.get p.fld i j
    acc + (bits v p.flo p.width) * 2 ^ p.wlo) 0

/-- Replace bits of a field that spans two registers. -/
def spliceBits (old flo width v : Nat) : Nat :=
  old - (bits old flo width) * 2 ^ flo + (v % 2 ^ width) * 2 ^ flo

/-- Write one part of a register as its access type states (R11, R576); RO and WO parts do nothing here. -/
def State.writePart (s : State) (w : World) (p : Part) (i j v : Nat) : State :=
  let x := bits v p.wlo p.width
  match p.fld.acc with
  | .ro => s
  | .wo => s
  | .rw => s.set p.fld (spliceBits (s.get p.fld i j) p.flo p.width x) i j
  | .w1c =>
    let old := s.get p.fld i j
    s.set p.fld (old - (old &&& x)) i j
  | .rws => if w = .secure then s.set p.fld (spliceBits (s.get p.fld i j) p.flo p.width x) i j else s

/-- Write the parts of a register that no command row of their own acts on. -/
def State.writeParts (s : State) (w : World) (r : Reg) (i j v : Nat) : State :=
  (r.parts.filter fun p => !p.own).foldl (fun s p => s.writePart w p i j v) s

/-- Write every part of a register. -/
def State.writeAll (s : State) (w : World) (r : Reg) (i j v : Nat) : State :=
  r.parts.foldl (fun s p => s.writePart w p i j v) s

/-- A register with RWS parts (R576). -/
def Reg.hasRws (r : Reg) : Bool := r.parts.any fun p => p.fld.acc = .rws

/-- The device has entered device state IDLE since RESET (R550). -/
def State.booted (s : State) : Bool := decide (s.get R.SMC_BOOT_STATUS_STEP = 5)

/-- The device is OFF or in RESET: no block acts on an access (R524, R547). -/
def State.held (s : State) : Bool := decide (s.dev ≤ Dev.reset)

/-- From RESET exit until device state IDLE a BAR0 write outside the SMC block is discarded (R549). -/
def State.bootHeld (s : State) (a : Nat) : Bool := decide (0x100000 ≤ a) && !s.booted

/-- A host write to a register: discarded from the wrong world (R497) or during boot (R549), in the order of R540; refused with the
status the check gives and nothing else changed (R537); otherwise carried out, and counted once as cross-world when a
non-secure write meets RWS parts (R576). During boot such a write is discarded and counts as cross-world too (R11). Nothing happens
in RESET (log 13). -/
def State.hostWrite (s : State) (w : World) (id : RegId) (i j : Nat)
    (check : Option Status) (last : Option Fld) (li : Nat) (act : Reg → State → State) : State :=
  match id.desc? with
  | none => s
  | some r =>
    let a := r.addr i j
    if s.held then s
    else if w ≠ .secure ∧ (s.addrWorld a = .secure ∨ (s.bootHeld a ∧ r.hasRws)) then
      (s.crossWorld (xwSource w) true a).countRefused w .world
    else if s.bootHeld a then s.countRefused w .state
    else
      match check with
      | some c => s.refuse w c last li
      | none =>
        let s1 := act r s
        if w ≠ .secure ∧ r.hasRws then (s1.crossWorld (xwSource w) true a).countRefused w .world else s1

/-- A host write of `v` that its row checks: every writable part of the register takes its bits, then the row acts. -/
def State.rowWrite (s : State) (w : World) (id : RegId) (i j v : Nat) (check : Option Status) (last : Option Fld) (li : Nat)
    (act : State → State) : State :=
  s.hostWrite w id i j check last li fun r s => act (s.writeAll w r i j v)

/-- A host write to a window: discarded during boot (R549) or from the wrong world (R497), refused as its rule states, or
carried out. -/
def State.windowWrite (s : State) (w : World) (a : Nat) (check : Option Status) (refused act : State → State) : State :=
  if s.held then s
  else if w ≠ .secure ∧ s.addrWorld a = .secure then
    (s.crossWorld (xwSource w) true a).countRefused w .world
  else if s.bootHeld a then s.countRefused w .state
  else match check with
    | some _ => refused s
    | none => act s

/-- A host read of `n` bytes at `a`, whose value is `v`: zeros from the wrong world (R497). Nothing happens in RESET (log 13). -/
def State.hostRead (s : State) (w : World) (a n v : Nat) (act : State → State) : State :=
  if s.held then s
  else if w ≠ .secure ∧ s.addrWorld a = .secure then
    (s.crossWorld (xwSource w) false a).emit (.readData w a (List.replicate n 0))
  else act (s.emit (.readData w a (leBytes n v)))

/-- Bits of a written word that stand for a field of the register at `f.base` (its first instance). -/
def Fld.of (f : Fld) (v : Nat) : Nat := bits v f.lo f.width

/-- A written word would change one of the fields, which stand in one register (a field that may change only in some state
keeps its register writable when it is written with the value it has, log 9). -/
def State.changes (s : State) (fs : List Fld) (i j v : Nat) : Bool := fs.any fun f => decide (f.of v ≠ s.get f i j)

end Sys2Proof.Machine
end

