-- ==== Sys2Proof/Machine/LineCode.lean ====
section
/-! DEFINITION. The line coding of Ricel and Kelim lanes: blocks, the 64b/66b sync header and scrambler (R60), 8b/10b characters
(R61), the bodies of control blocks (R64, R346) and the CRC of packets (R66). -/

namespace Sys2Proof.Machine

/-! ### CRC-32 (R66) -/

/-- `n` shifts of the reflected polynomial 04C1_1DB7h. -/
def crcShift : Nat → Nat → Nat
  | 0, c => c
  | n + 1, c => crcShift n (if c % 2 = 1 then (c / 2) ^^^ 0xEDB88320 else c / 2)

/-- IEEE 802.3 CRC-32 of bytes. -/
def crc32 (bs : List Nat) : Nat := (bs.foldl (fun c b => crcShift 8 (c ^^^ (b % 256))) 0xFFFFFFFF) ^^^ 0xFFFFFFFF

/-- What the CRC of a packet covers: bytes 1 to 7 of START, then the data blocks (R66). -/
def packetCrc (hdr : Nat) (words : List Nat) : Nat := crc32 (leBytes 7 hdr ++ words.flatMap (leBytes 8))

/-! ### Control blocks (R64) -/

/-! Control block types, by byte 0 in 64b/66b. -/
namespace Blk
def idle : Nat := 0x1E
def start : Nat := 0x2D
def fin : Nat := 0x4B
def credit : Nat := 0x55
def credStatus : Nat := 0x66
def ack : Nat := 0x78
def timing : Nat := 0x99
def train : Nat := 0xAA
def echo : Nat := 0xB4
def linkCtrl : Nat := 0xE1

/-- The types and the K characters that name them in 8b/10b. -/
def table : List (Nat × Nat) :=
  [(idle, 0xBC), (start, 0xFB), (fin, 0xFD), (credit, 0x1C), (credStatus, 0x9C), (ack, 0xDC), (timing, 0x7C), (train, 0x3C),
   (echo, 0xF7), (linkCtrl, 0xFE)]

/-- The K character of a type. -/
def kChar (t : Nat) : Nat := ((table.find? fun e => e.1 = t).map (·.2)).getD 0

/-- Whether byte 0 of a control block, or the K character in its place, names a type of the table. -/
def known (k8 : Bool) (t : Nat) : Bool := table.any fun e => if k8 then decide (e.2 = t) else decide (e.1 = t)
end Blk

/-! Codes of LINK_CTRL. -/
namespace LinkCode
def retrain : Nat := 1
def switch : Nat := 2
def quiet : Nat := 3
end LinkCode

/-! Bodies, bits [55:0] of bytes 1 to 7. -/
def creditBody (count : Nat) (init : Bool) (expect : Nat) : Nat := count % 65536 + b2n init * 2 ^ 16 + expect % 256 * 2 ^ 24
def credStatusBody (held rxReturned spent : Nat) (initAck : Bool) : Nat :=
  held % 65536 + rxReturned % 65536 * 2 ^ 16 + spent % 65536 * 2 ^ 32 + b2n initAck * 2 ^ 48
def ackBody (seq : Nat) (nak : Bool) : Nat := seq % 256 + b2n nak * 256
def timingBody (kind wpi16 target sub : Nat) : Nat :=
  kind % 4 + wpi16 % 65536 * 2 ^ 6 + target % 2 ^ 20 * 2 ^ 22 + sub % 64 * 2 ^ 42
def trainBody (phase ver errors : Nat) : Nat := phase % 16 + ver % 256 * 16 + errors % 2 ^ 32 * 2 ^ 24
def echoBody (tag turn : Nat) : Nat := tag % 65536 + turn % 2 ^ 20 * 2 ^ 16
def linkCtrlBody (code : Nat) : Nat := code % 16
/-- END: SEQ, DBLK (8 bits on Ricel, 11 on Kelim) and CRC (R64, R346). -/
def endBody (seq dblk crc : Nat) : Nat := seq % 256 + dblk % 2048 * 256 + crc % 2 ^ 32 * 2 ^ 24

/-! ### Blocks on the wire (R60, R61) -/

/-- A block: a control block of a type with its body, or a data block. -/
inductive LinkBlock where
  | ctl (kind body : Nat)
  | data (w : Nat)
  deriving DecidableEq, Repr

/-- The 64 payload bits: byte 0 lowest. -/
def LinkBlock.payload : LinkBlock → Nat
  | .ctl k b => k % 256 + b % 2 ^ 56 * 256
  | .data w => w % 2 ^ 64

/-- The sync header: 01b for a data block, 10b for a control block. -/
def LinkBlock.sync : LinkBlock → Nat
  | .ctl _ _ => 2
  | .data _ => 1

/-- The self-synchronous scrambler x^58 + x^39 + 1 over `n` bits of `v`, least significant first. `st` holds the last 58 bits sent, the
latest in bit 0. -/
def scramble : Nat → Nat → Nat → Nat × Nat
  | 0, st, _ => (0, st)
  | n + 1, st, v =>
    let b := (v + st / 2 ^ 38 + st / 2 ^ 57) % 2
    let r := scramble n ((2 * st + b) % 2 ^ 58) (v / 2)
    (b + 2 * r.1, r.2)

/-- The descrambler of a receiver: `st` holds the last 58 bits received. -/
def descramble : Nat → Nat → Nat → Nat × Nat
  | 0, st, _ => (0, st)
  | n + 1, st, c =>
    let b := (c + st / 2 ^ 38 + st / 2 ^ 57) % 2
    let r := descramble n ((2 * st + c % 2) % 2 ^ 58) (c / 2)
    (b + 2 * r.1, r.2)

/-- A block in 64b/66b (R60): the 66 bits in the order sent, the sync header first and not scrambled, bit 0 the first sent. -/
def LinkBlock.code66 (b : LinkBlock) (st : Nat) : Nat × Nat :=
  let r := scramble 64 st b.payload
  (b.sync + 4 * r.1, r.2)

/-- A block in 8b/10b (R61): eight characters, byte 0 first; 256 added marks a K character. -/
def LinkBlock.chars : LinkBlock → List Nat
  | .ctl k b => (256 + Blk.kChar k) :: leBytes 7 b
  | .data w => leBytes 8 w

/-- Blocks one after another on a lane: in 8b/10b their characters, in 64b/66b their 66 bits each; and the scrambler after them. -/
def codeBlocks (k8 : Bool) : Nat → List LinkBlock → List Nat × Nat
  | st, [] => ([], st)
  | st, b :: bs =>
    if k8 then
      let r := codeBlocks k8 st bs
      (b.chars ++ r.1, r.2)
    else
      let c := b.code66 st
      let r := codeBlocks k8 c.2 bs
      (c.1 :: r.1, r.2)

/-- The block boundary in a run of 8b/10b characters (R61): the K28.5 of an IDLE block. -/
def boundary (cs : List Nat) : Option Nat := cs.findIdx? (· = 256 + 0xBC)

/-- A packet or frame as blocks: START, data, END (R65). -/
def packetBlocks (hdr : Nat) (words : List Nat) (fin : Nat) : List LinkBlock :=
  .ctl Blk.start hdr :: (words.map .data ++ [.ctl Blk.fin fin])

end Sys2Proof.Machine
end

