-- ==== Sys2Proof/Machine/LineOps.lean ====
section
/-! DEFINITION. Positions and line targets: the interpolated encoder position (R107, R108), target positions (R110) and
the per-station values of the timing unit that other blocks read. Positions are in 1/65,536 counts. -/

namespace Sys2Proof.Machine

def State.enc (s : State) (e : Nat) : Enc := SMap.get s.ltu.enc {} e
def State.setEnc (s : State) (e : Nat) (x : Enc) : State :=
  { s with ltu := { s.ltu with enc := SMap.put s.ltu.enc {} e x } }
def State.lst (s : State) (n : Nat) : LSt := SMap.get s.ltu.st {} n
def State.setLst (s : State) (n : Nat) (x : LSt) : State :=
  { s with ltu := { s.ltu with st := SMap.put s.ltu.st {} n x } }

/-- The mean interval of the last 2^`avg` edges (R107), in LTU units rounded; none with fewer than two edges, and with fewer than
2^`avg` + 1 that of the intervals there are (DESIGN CHOICE, log 142). -/
def Enc.mean (x : Enc) (avg : Nat) : Option Nat :=
  let l := x.edges.take (2 ^ avg + 1)
  match l, l.getLast? with
  | t :: _ :: _, some o => some (roundDiv (t - o).toNat (l.length - 1))
  | _, _ => none

/-- The count period T_c at instant `t` (R107): the mean, or the time since the last edge when that is longer. -/
def Enc.tc (x : Enc) (avg : Nat) (t : Int) : Nat := max ((x.mean avg).getD 0xFFFFFFFF) (t - x.te).toNat

/-- The interpolated position P(t) (R108). -/
def Enc.posAt (x : Enc) (avg : Nat) (t : Int) : Int :=
  let k : Nat := min 65535 (roundDiv (65536 * (t - x.te).toNat) (max 1 (x.tc avg t)))
  if x.up then 65536 * x.count + k else 65536 * x.count - k

/-- The count period of an encoder at instant `t`, as LTU_ENC_CFG.AVG averages it. -/
def State.encTc (s : State) (e : Nat) (t : Int) : Nat := (s.enc e).tc (s.get R.LTU_ENC_CFG_AVG e) t

/-- The interpolated position of an encoder at instant `t`. -/
def State.encPos (s : State) (e : Nat) (t : Int) : Int := (s.enc e).posAt (s.get R.LTU_ENC_CFG_AVG e) t

/-- The encoder a station reads (R27). -/
def State.encOf (s : State) (n : Nat) : Nat := s.get R.LTU_ST_CTRL_ENC n

/-- A station's interpolated position at an instant. -/
def State.posOf (s : State) (n : Nat) (t : Int) : Int := s.encPos (s.encOf n) t

/-- A station triggers from an encoder. -/
def State.encSource (s : State) (n : Nat) : Bool := decide (s.get R.LTU_ST_CTRL_SRC n = 0)

/-- The sign of the direction in which lines advance: 1 for DIR = 0, −1 for DIR = 1. -/
def State.fwd (s : State) (n : Nat) : Int := if s.on R.LTU_ST_CTRL_DIR n then -1 else 1

/-- A count field and a phase field as one position. -/
def State.pos16 (s : State) (c p : Fld) (i : Nat) : Int := 65536 * toSigned 48 (s.get c i) + s.get p i

/-- Store a position in a count field and a phase field: 99.75 counts are count 99, phase C000h (R108). -/
def State.setPos16 (s : State) (c p : Fld) (i : Nat) (x : Int) : State :=
  (s.set c (ofSigned 48 (x / 65536)) i).set p (x % 65536).toNat i

/-- P_base of a station. -/
def State.base16 (s : State) (n : Nat) : Int := s.pos16 R.LTU_ST_BASE_COUNT R.LTU_ST_BASE_PHASE n

/-- W_0 of a station. -/
def State.w0 (s : State) (n : Nat) : Nat := s.get R.LTU_ST_WPI_START_W0 n

/-- The target position of line `l` (R110): exact, the phase being all of D's fraction. -/
def State.lineTarget (s : State) (n l : Nat) : Int :=
  s.base16 n + s.fwd n * ((l : Int) - s.w0 n) * s.get R.LTU_ST_RATIO_D n

/-- The alignment span A_s in force (R163). -/
def State.span (s : State) (n : Nat) : Nat := s.get R.PCP_ALN_ST_SPAN_SPAN n

/-- The back-up target of a stop with match line `m` (R196). -/
def State.backTarget (s : State) (n m : Nat) : Int :=
  s.lineTarget n m - s.fwd n * (s.get R.SST_ST_RUNUP_LINES n * s.get R.LTU_ST_RATIO_D n : Nat)

/-- Position `p` lies at or beyond `q` in the direction in which lines advance. -/
def State.atOrPast (s : State) (n : Nat) (p q : Int) : Bool := decide (0 ≤ s.fwd n * (p - q))

/-- A head's plane count and columns (spec/03). -/
def State.headPlanes (s : State) (p : Nat) : Nat := s.get R.HLF_PORT_GEOM_PLANES p
def State.headCols (s : State) (p : Nat) : Nat := s.get R.HLF_PORT_GEOM_COLUMNS p

/-- The planes of a station's lines: those of its first head. -/
def State.stPlanes (s : State) (n : Nat) : Nat :=
  match (s.station n).heads with
  | [] => 0
  | p :: _ => s.headPlanes p

/-- Whether a head port is ACTIVE (R90). -/
def State.portActive (s : State) (p : Nat) : Bool := decide (s.get R.HLF_PORT_STATE_STATE p = 6)

/-! ### Steering (R103) -/

/-- The steering with `p` ppb toward PTP (R101, R103): −CORR ppb, and the part toward PTP only with PTP_DISC 1 and the PTP clock locked,
together at most 100 ppm. It goes on in holdover (DESIGN CHOICE, log 142). -/
def State.steer (s : State) (p : Int) : State :=
  let q := if s.on R.LTU_CTRL_PTP_DISC ∧ s.on R.LTU_REF_STATUS_PTP_LOCK then p else 0
  { s with ltu := { s.ltu with ptpPart := q, steer := clampI (-100000) 100000 (q - s.getS R.LTU_REF_STATUS_CORR) } }

/-- The steering after a change of the correction, of PTP_DISC or of the lock. -/
def State.syncSteer (s : State) : State := s.steer s.ltu.ptpPart

end Sys2Proof.Machine
end

