-- ==== Sys2Proof/Machine/PaceOps.lean ====
section
/-! DEFINITION. Guaranteed pace and the admission check (R36, R37, R45 to R50), and the VCORE set point (R52 to R56). -/

namespace Sys2Proof.Machine

/-- The entries of the table of R36: voltage in mV and φ × 100. -/
def phiTable : List (Nat × Nat) :=
  [(650, 70), (700, 85), (750, 100), (800, 110), (850, 118), (900, 125), (950, 130)]

/-- φ × 5,000 at `mv` between successive table entries (linear interpolation, R36). -/
def phiBetween (mv : Nat) : List (Nat × Nat) → Nat
  | (v0, f0) :: (v1, f1) :: t =>
    if mv ≤ v1 then f0 * (v1 - v0) + (mv - v0) * (f1 - f0)
    else phiBetween mv ((v1, f1) :: t)
  | _ => 6500

/-- φ × 5,000 (R36): 0 below 650 mV and 1.30 above 950 mV. -/
def phi5000 (mv : Nat) : Nat := if mv < 650 then 0 else phiBetween mv phiTable

/-- The pipeline base B_P of the grade in samples/s (spec/02). -/
def baseP : Nat := if Config.fuseGrade = 2 then 96000000000 else 120000000000

/-- The engine base B_E of the grade in slots/s (spec/02). -/
def baseE : Nat := if Config.fuseGrade = 2 then 1408000000 else 1760000000

/-- A base × φ(V) × (16 − t) / 16, times 80,000. -/
def capacity80k (base mv t : Nat) : Nat := base * phi5000 mv * (16 - t)

/-- The throttle level in force. -/
def State.throttle (s : State) : Nat := s.get R.THM_STATUS_LEVEL

/-- The voltage term of R48, in mV. -/
def State.vAdm (s : State) : Nat :=
  (if s.on R.SMC_VFIT_CTRL_EN then s.get R.SMC_VFIT_LIMITS_VMAX else s.get R.SMC_VFIT_STATUS_VSET)
    - s.get R.SMC_VFIT_CTRL_GUARD

/-- A station's highest configured line rate f_L (R122), a staged rise counting from its admission (log 6). -/
def State.lineRate (s : State) (n : Nat) : Nat :=
  let now := s.get R.LTU_ST_MAXRATE_RATE n
  match (s.station n).staged with
  | some g => if bit g.mask 6 then max now (bits (g.vals.getD 6 0) 0 19) else now
  | none => now

/-- The load of a station at a line rate, in samples/s (R46). -/
def State.stationLoad (s : State) (n rate : Nat) : Nat :=
  (s.station n).heads.foldl (fun acc p => acc + s.headCols p * s.headPlanes p * rate) 0

/-- The core load S over the stations a request counts, each at its rate (R46). -/
def State.coreLoad (s : State) (active : Nat → Bool) (rate : Nat → Nat) : Nat :=
  stations8.foldl (fun acc n => if active n then acc + s.stationLoad n (rate n) else acc) 0

/-- The engines of a structure with their stations and loads σ (R47, R313). -/
def Image.engineLoads (m : Image) : List (Nat × Nat × Nat) :=
  m.topo.map fun t => (t.engine, t.station, ((m.sigma.find? fun p => p.1 = t.engine).map (·.2)).getD 0)

/-- The structure in force, empty when there is none. -/
def State.image (s : State) : Image := s.scu.image.getD {}

/-- The engine loads that every check takes in: those in force, or of a staged reload where they are higher (R45, R322). -/
def State.engLoads (s : State) : List (Nat × Nat × Nat) :=
  s.image.engineLoads.map fun e =>
    match s.scu.staged with
    | some m => (e.1, e.2.1, max e.2.2 (((m.sigma.find? fun p => p.1 = e.1).map (·.2)).getD 0))
    | none => e

/-- What an admission check finds: whether it passes, the first failing domain and engine (R49). -/
structure Admission where
  ok : Bool
  domain : Nat
  engine : Nat
  load : Nat
  deriving DecidableEq, Repr

/-- The admission check of R46 and R47 at a voltage and throttle level. -/
def State.judgeLoad (s : State) (active : Nat → Bool) (rate : Nat → Nat) (eng : List (Nat × Nat × Nat)) (mv t : Nat) :
    Admission :=
  let load := s.coreLoad active rate
  if capacity80k baseP mv t < load * 80000 then ⟨false, 16, 0x1FF, load⟩
  else
    let bad := eng.filter fun e => active e.2.1 && decide (capacity80k baseE mv t < e.2.2 * rate e.2.1 * 80000)
    match bad with
    | [] => ⟨true, 0x1F, 0x1FF, load⟩
    | e :: es =>
      let first := es.foldl (fun m x => min m x.1) e.1
      ⟨false, first / 32, first, load⟩

/-- The stations whose loads every check takes in (R45). -/
def State.counted (s : State) (n : Nat) : Bool := s.stBusy n

/-- Run an admission check and report it (R49, R50): the check, repeated once when the throttle level has become
`t2`. LOAD is written at a passed check only (R51, log 128). -/
def State.admission (s : State) (active : Nat → Bool) (rate : Nat → Nat) (eng : List (Nat × Nat × Nat))
    (t2 : Option Nat) : Bool × State :=
  let t := t2.getD s.throttle
  let r := s.judgeLoad active rate eng s.vAdm t
  let s1 := (s.setSat R.SCU_ADM_CAP_CAP (roundDiv (capacity80k baseP s.vAdm t) (80000 * 10000000))).set
    R.SCU_ADM_CAP_VADM s.vAdm
  if r.ok then
    (true, (((s1.set R.SCU_ADM_STATUS_RESULT 0).set R.SCU_ADM_STATUS_FAIL_DOMAIN 0x1F).set
      R.SCU_ADM_STATUS_FAIL_ENGINE 0x1FF).setSat R.SCU_ADM_LOAD_LOAD (roundDiv r.load 10000000))
  else
    (false, (((s1.set R.SCU_ADM_STATUS_RESULT Status.nofit.code).set R.SCU_ADM_STATUS_FAIL_DOMAIN r.domain).set
      R.SCU_ADM_STATUS_FAIL_ENGINE r.engine).add R.SCU_ADM_COUNT_NOFIT 1)

/-- The admitted load of a domain, in the units of its base (R53): S, or the largest σ × f_L of the cluster. -/
def State.admitted (s : State) (d : Nat) : Nat :=
  if d = 16 then s.coreLoad s.counted s.lineRate
  else
    s.engLoads.foldl (fun m e =>
      if e.1 / 32 = d ∧ s.counted e.2.1 = true then max m (e.2.2 * s.lineRate e.2.1) else m) 0

/-- A PMBus transaction (R513): PAGE first when PAGE_EN is 1. -/
def State.pmbus (s : State) (code data : Nat) : State :=
  let a := s.get R.SMC_PMB_CFG_ADDR
  let pec := s.on R.SMC_PMB_CFG_PEC
  let s1 := if s.on R.SMC_PMB_CFG_PAGE_EN then s.emit (.pmbus a 0x00 (s.get R.SMC_PMB_CFG_PAGE) pec) else s
  s1.emit (.pmbus a code data pec)

/-- The word of VOUT_COMMAND (R513): round(V × 2^−N), N the exponent of VOUT_MODE. -/
def State.voutWord (s : State) (mv : Nat) : Nat :=
  let n := toSigned 5 s.pace.vexp
  if n < 0 then roundDiv (mv * 2 ^ n.natAbs) 1000 else roundDiv mv (1000 * 2 ^ n.natAbs)

/-- Write a set point to the regulator (R513): the new VSET, and the PMBus command. A regulator whose mode is not linear is
never written (R514). -/
def State.writeVset (s : State) (mv : Nat) : State :=
  if s.on R.SMC_PMB_STATUS_MODE_ERR then s
  else (s.set R.SMC_VFIT_STATUS_VSET mv).pmbus 0x21 (s.voutWord mv)

/-- The payload rate code's bit rate in units of 10^8 bit/s (spec/01). -/
def payloadRate (rate : Nat) : Nat :=
  if rate = 0 then 25 else if rate = 1 then 50 else if rate = 2 then 100 else 125

/-- The link fit of a head at a line rate (R26): 16 × S_h ≤ 0.97 × L_h × r_h. -/
def State.linkFits (s : State) (p rate : Nat) : Bool :=
  decide (16 * (s.headCols p * s.headPlanes p * rate)
    ≤ 97 * s.get R.HLF_PORT_MODE_LANES p * payloadRate (s.get R.HLF_PORT_MODE_RATE p) * 1000000)

end Sys2Proof.Machine
end

