-- ==== Sys2Proof/Machine/KelimOps.lean ====
section
/-! DEFINITION. Sending and forwarding on the Kelim ring (R349 to R351, R367). Port 0 is East, port 1 West. -/

namespace Sys2Proof.Machine

/-! ### Records -/

def State.klane (s : State) (l : Nat) : KLane := SMap.get s.kru.lane {} l
def State.setKlane (s : State) (l : Nat) (x : KLane) : State :=
  { s with kru := { s.kru with lane := SMap.put s.kru.lane {} l x } }
def State.kst (s : State) (n : Nat) : KSt := SMap.get s.kru.st {} n
def State.setKst (s : State) (n : Nat) (x : KSt) : State :=
  { s with kru := { s.kru with st := SMap.put s.kru.st {} n x } }

/-! Ring states. -/
namespace Ring
def down : Nat := 0
def forming : Nat := 1
def ring : Nat := 2
def chain : Nat := 3
def reform : Nat := 4
def solo : Nat := 5
def failed : Nat := 6
end Ring

/-! Port states. -/
namespace KPort
def down : Nat := 0
def train : Nat := 1
def auth : Nat := 2
def up : Nat := 3
def refused : Nat := 4
def failed : Nat := 5
def dead : Nat := 6
end KPort

/-! Frame types (R349). -/
namespace FType
def discover : Nat := 0
def roster : Nat := 1
def formed : Nat := 2
def auth : Nat := 3
def time : Nat := 4
def alignReq : Nat := 5
def alignAck : Nat := 6
def alignSet : Nat := 7
def token : Nat := 8
def hinge : Nat := 9
def dovetail : Nat := 10
def fold : Nat := 11
end FType

def State.kport (s : State) (pt : Nat) : Nat := s.get R.KRU_PORT_STATUS_STATE pt
def State.kUp (s : State) (pt : Nat) : Bool := decide (s.kport pt = KPort.up)
def State.ringState (s : State) : Nat := s.get R.KRU_STATUS_STATE
def State.kId (s : State) : Nat := s.get R.KRU_STATUS_ID
def State.timing (s : State) : Bool := s.on R.KRU_CFG_TIMING
def State.repeater (s : State) : Bool := decide (s.get R.KRU_STATUS_ROLE = 2)
/-- The ring is formed: RING or CHAIN. -/
def State.formed (s : State) : Bool := decide (s.ringState = Ring.ring) || decide (s.ringState = Ring.chain)
/-- The ring unit runs: EN, or a device that stays in BARE and is a repeater (R355, R507). -/
def State.kruOn (s : State) : Bool := s.on R.KRU_CFG_EN || s.repeater

/-- Broadcast (R349). -/
def broadcast : Nat := 0xFFFF

/-! ### Lanes (R350) -/

/-- The active lanes of a port, lowest first. -/
def State.portLanes (s : State) (pt : Nat) : List Nat :=
  let m := s.get R.KRU_PORT_LANES_ACTIVE pt
  ((List.range 16).filter fun i => bit m i).map fun i => 16 * pt + i

/-- The lane of a frame type and the step of the round robin: DOVETAIL frames are spread over the other lanes (R350). -/
def State.laneFor (s : State) (pt kind : Nat) : Nat × State :=
  match s.portLanes pt with
  | [] => (16 * pt, s)
  | [c] => (c, s)
  | c :: rest =>
    if kind = FType.dovetail then
      let k := SMap.get s.kru.turn 0 pt
      (rest.getD (k % rest.length) c, { s with kru := { s.kru with turn := SMap.put s.kru.turn 0 pt ((k + 1) % rest.length) } })
    else (c, s)

/-! ### Sending (R349, R351, R367) -/

/-- A START body less its FTYPE: RET, STATION, DST, SRC and AUX. -/
structure KHdr where
  ret : Bool := false
  station : Nat := 0
  dst : Nat := broadcast
  src : Nat := 0
  aux : Nat := 0
  deriving DecidableEq, Repr

/-- The body of START with its FTYPE (R349). -/
def KHdr.body (h : KHdr) (kind : Nat) : Nat :=
  kind % 16 + b2n h.ret * 16 + h.station % 8 * 32 + h.dst % 65536 * 256 + h.src % 65536 * 2 ^ 24 + h.aux % 65536 * 2 ^ 40

/-! ### Lanes as senders (R347): line code, credits, acknowledge and replay -/

/-- The line code of blocks on a lane (R346), and the state after them. -/
def State.kcoded (s : State) (l : Nat) (bs : List LinkBlock) : List Nat × State :=
  let x := s.klane l
  let r := codeBlocks false x.scr bs
  (r.1, s.setKlane l { x with scr := r.2 })

/-- Send a control block on a lane. -/
def State.sendKblock (s : State) (l kind body : Nat) : State :=
  let r := s.kcoded l [.ctl kind body]
  r.2.emit (.kblock l kind body r.1)

/-- The frame a lane sends next: one to send again goes before those that wait. -/
def KLane.nextOut (x : KLane) : Option (KSent × KLane) :=
  match x.resend, x.wait with
  | k :: ks, _ => some (k, { x with resend := ks })
  | [], k :: ks => some (k, { x with wait := ks })
  | [], [] => none

/-- Send what a lane holds credits for, at most 128 frames not acknowledged, each with the next SEQ (R73, R78). -/
def State.pumpLane (s : State) (l : Nat) : Nat → State
  | 0 => s
  | f + 1 =>
    match (s.klane l).nextOut with
    | none => s
    | some (k, x) =>
      let n := k.data.length + 2
      if n ≤ x.credits ∧ x.unacked.length < 128 then
        let fin := endBody x.tx k.data.length (packetCrc k.hdr k.data)
        let r := (s.setKlane l { x with unacked := x.unacked ++ [k], tx := (x.tx + 1) % 256, credits := x.credits - n,
                                        spent := (x.spent + n) % 65536 }).kcoded l (packetBlocks k.hdr k.data fin)
        State.pumpLane (r.2.emit (.kelim l k.hdr k.data fin r.1)) l f
      else s

/-- Every frame a lane could send. -/
def State.pump (s : State) (l : Nat) : State :=
  s.pumpLane l ((s.klane l).resend.length + (s.klane l).wait.length)

/-- A frame joins those that wait on a lane: a control frame goes before the DOVETAIL frames (R350). -/
def putFrame (k : KSent) (w : List KSent) : List KSent :=
  let dove (x : KSent) : Bool := decide (bits x.hdr 0 4 = FType.dovetail)
  if dove k then w ++ [k] else w.takeWhile (fun x => !dove x) ++ k :: w.dropWhile fun x => !dove x

/-- The frames acknowledged by `seq`: those up to it leave (R78, R79). -/
def KLane.acked (x : KLane) (seq : Nat) : KLane :=
  let first := (x.tx + 256 - x.unacked.length % 256) % 256
  let n := (seq + 257 - first) % 256
  if n ≤ x.unacked.length then { x with unacked := x.unacked.drop n, since := none } else x

/-- Every frame not acknowledged is sent again, from the oldest onward and with SEQ from `seq` on (R80, R97). -/
def KLane.replayFrom (x : KLane) (seq : Nat) : KLane :=
  { x with resend := x.unacked ++ x.resend, unacked := [], since := none, tx := seq % 256 }

/-- CREDIT (R74, R97): with INIT the sender takes GRANT, discards what it has started, answers INIT_ACK and sends again from EXPECT. -/
def State.kelimCredit (s : State) (l body : Nat) : State :=
  let x := s.klane l
  let n := bits body 0 16
  if bit body 16 then
    let y := (x.acked (bits body 24 8 + 255)).replayFrom (bits body 24 8)
    ((s.setKlane l { y with credits := n, spent := 0, rxReturned := 0 }).sendKblock l Blk.credStatus (credStatusBody n 0 0 true)).pump l
  else (s.setKlane l { x with credits := x.credits + (n + 65536 - x.rxReturned) % 65536, rxReturned := n }).pump l

/-- ACK (R79, R80): frames up to SEQ are acknowledged; a NAK has the rest sent again. -/
def State.kelimAck (s : State) (l body : Nat) : State :=
  let x := (s.klane l).acked (bits body 0 8)
  (s.setKlane l (if bit body 8 then x.replayFrom (bits body 0 8 + 1) else x)).pump l

/-- The SEQ of the oldest frame not acknowledged. -/
def KLane.oldest (x : KLane) : Nat := (x.tx + 256 - x.unacked.length % 256) % 256

/-- HLF_TIMER_CFG.REPLAY_US has passed by instant `t` without an ACK of the oldest frame: it is sent again, with every later one (R80,
R347). The wait counts from the first instant that a command shows (log 117). -/
def State.replayDue (s : State) (l : Nat) (t : Int) : State :=
  let x := s.klane l
  if x.unacked = [] ∨ x.training = true then s
  else match x.since with
    | none => s.setKlane l { x with since := some t }
    | some u =>
      if u + 12800 * s.get R.HLF_TIMER_CFG_REPLAY_US ≤ t then (s.setKlane l (x.replayFrom x.oldest)).pump l else s

/-- The replay timers of every Kelim lane at instant `t`. -/
def State.replayAll (s : State) (t : Int) : State :=
  s.each (s.portLanes 0 ++ s.portLanes 1) fun s l => s.replayDue l t

/-- ECHO of the other end goes back with this end's turnaround, a value the spec leaves to the sender (R85, log 117). -/
def State.kelimEcho (s : State) (l body : Nat) : State :=
  let f := s.takeFresh
  f.2.sendKblock l Blk.echo (echoBody (bits body 0 16) (Config.kelimTurn f.1))

/-- CRED_STATUS of this end (R75, R347). -/
def State.sendCredStatus (s : State) (l : Nat) : State :=
  let x := s.klane l
  s.sendKblock l Blk.credStatus (credStatusBody x.credits x.rxReturned x.spent false)

/-- Send a frame out of a port. -/
def State.kelimOut (s : State) (pt kind : Nat) (h : KHdr) (data : List Nat) : State :=
  let r := s.laneFor pt kind
  let x := r.2.klane r.1
  (r.2.setKlane r.1 { x with wait := putFrame { hdr := h.body kind, data := data } x.wait }).pump r.1

/-- Send a frame East; with the East port not carrying traffic it is turned back West with RET = 1 (R367). -/
def State.ringOut (s : State) (kind : Nat) (h : KHdr) (data : List Nat) : State :=
  if s.kUp 0 then s.kelimOut 0 kind { h with ret := false } data
  else if s.kUp 1 then s.kelimOut 1 kind { h with ret := true } data
  else s

/-- A frame of this member, broadcast or addressed. -/
def State.ringSend (s : State) (kind n dst : Nat) (data : List Nat) : State :=
  s.ringOut kind { station := n, dst := dst, src := s.kId } data

/-- A DOVETAIL frame to the West neighbour (R366): directly, or round by the East when the link is dead. -/
def State.dovetailOut (s : State) (n : Nat) (data : List Nat) : State :=
  let h : KHdr := { station := n, dst := s.get R.KRU_PORT_STATUS_NEIGHBOUR 1, src := s.kId }
  if s.kUp 1 then s.kelimOut 1 FType.dovetail h data
  else if s.kUp 0 then s.kelimOut 0 FType.dovetail h data
  else s

/-! ### Ring time (R357) -/

/-- Ring time at an LTU instant. -/
def State.ringTime (s : State) (t : Int) : Int := t + s.kru.timeOff

/-- Set the state of a port; one that carries no traffic names no neighbour. -/
def State.setKport (s : State) (pt st : Nat) : State := s.set R.KRU_PORT_STATUS_STATE st pt

/-- An audit freeze applies to the member: a station of it is frozen (R329). -/
def State.memberFrozen (s : State) : Bool := stations8.any fun n => s.on R.SCU_SEAL_ST_STATUS_FROZEN n

/-! ### Tokens in circulation -/

/-- IN_FLIGHT is the number of tokens in circulation (KRU_AUD). -/
def State.syncFlight (s : State) : State :=
  s.set R.KRU_AUD_IN_FLIGHT ((List.range 8).foldl (fun a n => a + (s.kst n).flying.length) 0)

/-- Drop every token (R368). The tokens issued again start above the horizon. -/
def State.dropTokens (s : State) : State :=
  (s.each (List.range 8) fun s n =>
    s.setKst n { s.kst n with flying := [], issued := none, held := [], last0 := none, last1 := none }).syncFlight

/-- Enter REFORM (R365, R368). -/
def State.reform (s : State) : State :=
  (s.dropTokens.set R.KRU_STATUS_STATE Ring.reform).set R.KRU_AUD_WINDOW 1

end Sys2Proof.Machine
end

