-- ==== Sys2Proof/Machine/QueueOps.lean ====
section
/-! DEFINITION. The hardware queues (spec/08): slabs and reserves, drawers, writing, reading, flushing, the descriptor
rings and the slab books. Every writer and reader of the device goes through these operations. -/

namespace Sys2Proof.Machine

/-! ### Slabs (R227 to R230, R240) -/

/-- The class of a queue (R212): 0 STREAM, 1 RECORD, 2 DESCRIPTOR, 3 LOCAL. -/
def State.qClass (s : State) (q : Nat) : Nat := s.get R.QMX_Q_CFG_CLASS q

/-- Whether a queue is a DESCRIPTOR ring (R222). -/
def State.isRing (s : State) (q : Nat) : Bool := decide (s.qClass q = 2)

/-- The unused reserve U_q of an enabled RECORD queue (R227). -/
def State.unusedOf (s : State) (q : Nat) : Nat :=
  if s.on R.QMX_Q_CFG_EN q ∧ s.qClass q = 1 then s.get R.QMX_Q_RES_RES q - s.get R.QMX_Q_RES_ALLOC q else 0

/-- The shared headroom H (R227). It is negative while slabs of RECORD queues that have left their reserve are still in transit. -/
def State.headroom (s : State) : Int := (s.get R.QMX_POOL_FREE_FREE : Int) - s.get R.QMX_POOL_RES_UNUSED

/-- LOW and the pool-low event follow H (R230). -/
def State.syncLow (s : State) : State :=
  let low := decide (s.headroom < s.get R.QMX_POOL_CFG_LOW_WM)
  if low ∧ ¬ s.on R.QMX_STATUS_LOW then (s.set R.QMX_STATUS_LOW 1).raise Ev.poolLow
  else if low then s
  else s.set R.QMX_STATUS_LOW 0

/-- Change the slabs a queue holds by a known step, keeping U and its sum in step (R227). -/
def State.setAlloc (s : State) (q n : Nat) : State :=
  let u := s.unusedOf q
  let a := s.get R.QMX_Q_RES_ALLOC q
  let s1 := s.set R.QMX_Q_RES_ALLOC n q
  let s2 := s1.set R.QMX_POOL_RES_UNUSED (s1.get R.QMX_POOL_RES_UNUSED - u + s1.unusedOf q)
  s2.set R.QMX_AUD_ALLOC_ALLOC (s2.get R.QMX_AUD_ALLOC_ALLOC - a + n)

/-- A RECORD queue holds less than its reserve (R228). -/
def State.inReserve (s : State) (q : Nat) : Bool :=
  decide (s.qClass q = 1) && decide (s.get R.QMX_Q_RES_ALLOC q < s.get R.QMX_Q_RES_RES q)

/-- Whether a writer of a queue may take a slab now (R228): one inside its reserve while any slab is free or on its way to the pool. -/
def State.maySlab (s : State) (q : Nat) : Bool :=
  if s.inReserve q then decide (1 ≤ s.get R.QMX_POOL_FREE_FREE) || s.qmx.transit.any fun t => decide (t.slabs ≠ 0)
  else decide (1 ≤ s.headroom)

/-- The oldest slabs in transit reach the free pool (R221); a flush that waited for them ends (R237). -/
def State.arrive (s : State) : State :=
  match s.qmx.transit with
  | [] => s
  | t :: ts =>
    let s1 : State := { s with qmx := { s.qmx with transit := ts } }
    let s2 := (s1.add R.QMX_POOL_FREE_FREE t.slabs).sub R.QMX_AUD_TRANSIT_TRANSIT t.slabs
    let still := ts.any fun u => u.flush && decide (u.queue = t.queue)
    (if t.flush ∧ ¬ still ∧ s2.get R.QMX_Q_STATUS_STATE t.queue = 2 then s2.set R.QMX_Q_STATUS_STATE 1 t.queue else s2).syncLow

/-- One slab, the oldest in transit, reaches the free pool; the entry it belongs to ends with its own arrival. -/
def arriveOne : List Transit → List Transit
  | [] => []
  | t :: ts => if t.slabs = 0 then t :: arriveOne ts else { t with slabs := t.slabs - 1 } :: ts

/-- Take `n` slabs from the pool for a queue; a RECORD queue inside its reserve that finds the pool empty has the oldest slab in transit
first (R228, log 125). -/
def State.takeSlabs (s : State) (q n : Nat) : State :=
  let s0 : State := if s.get R.QMX_POOL_FREE_FREE = 0 then
      (({ s with qmx := { s.qmx with transit := arriveOne s.qmx.transit } } : State).add R.QMX_POOL_FREE_FREE 1).sub
        R.QMX_AUD_TRANSIT_TRANSIT 1
    else s
  ((s0.sub R.QMX_POOL_FREE_FREE n).setAlloc q (s0.get R.QMX_Q_RES_ALLOC q + n)).syncLow

/-- Put `n` slabs of a queue into transit (R221, R237). -/
def State.releaseSlabs (s : State) (q n : Nat) (flush : Bool) : State :=
  if n = 0 then s
  else
    let s1 := s.setAlloc q (s.get R.QMX_Q_RES_ALLOC q - n)
    let s2 := s1.add R.QMX_AUD_TRANSIT_TRANSIT n
    ({ s2 with qmx := { s2.qmx with transit := s2.qmx.transit ++ [Transit.mk q n flush] } } : State).syncLow

/-! ### Status of a queue -/

/-- The words in a queue's drawers or ring. -/
def Queue.words (x : Queue) : Nat := x.d0.length + x.d1.length + x.ring.length

/-- Slabs that `w` written words take (R219). -/
def slabsFor (w : Nat) : Nat := (w + 63) / 64

/-- The unread words of drawer `d`. -/
def Queue.drawer (x : Queue) (d : Nat) : List QWord := if d = 0 then x.d0 else x.d1

/-- Words written to drawer `d` since it was opened. -/
def Queue.written (x : Queue) (d : Nat) : Nat := if d = 0 then x.w0 else x.w1

/-- Put a drawer. -/
def Queue.setDrawer (x : Queue) (d : Nat) (ws : List QWord) (n : Nat) : Queue :=
  if d = 0 then { x with d0 := ws, w0 := n } else { x with d1 := ws, w1 := n }

/-- Put a queue record and the WORDS field it shows (spec/08). -/
def State.putQueue (s : State) (q : Nat) (x : Queue) : State :=
  (s.setQueue q x).set R.QMX_Q_STATUS_WORDS x.words q

/-- The writer's wait ends (R225, R226). -/
def State.endWrWait (s : State) (q : Nat) : State :=
  let s1 := (s.set R.QMX_Q_STATUS_FULL 0 q).set R.QMX_Q_STATUS_ALLOC_WAIT 0 q
  s1.setQueue q { s1.queue q with wrStalled := false }

/-- A queue's readers stop waiting (R210, R224, R226). -/
def State.endRdWait (s : State) (q : Nat) : State :=
  let s1 := s.set R.QMX_Q_STATUS_READ_WAIT 0 q
  let x := s1.queue q
  s1.setQueue q { x with rdStalled := false, first := { x.first with waits := false }, second := { x.second with waits := false } }

/-- Hand a closed writer's drawer over when the reader's is empty and released; the drawers swap (R220). Otherwise the
writer waits with FULL = 1. -/
def State.handOver (s : State) (q : Nat) : State :=
  let x := s.queue q
  let wd := s.get R.QMX_Q_STATUS_WR_DRAWER q
  let rd := 1 - wd
  if ¬ x.closed then s
  else if (x.drawer rd).isEmpty ∧ x.written rd = 0 then
    ((s.setQueue q { x with closed := false }).set R.QMX_Q_STATUS_WR_DRAWER rd q).endWrWait q
  else s.set R.QMX_Q_STATUS_FULL 1 q

/-- Close the writer's drawer (R219). -/
def State.closeDrawer (s : State) (q : Nat) : State :=
  (s.setQueue q { s.queue q with closed := true }).handOver q

/-! ### Writing -/

/-- Whether a queue accepts and discards the writer's words (R239). -/
def State.wrResync (s : State) (q : Nat) : Bool := s.on R.QMX_Q_STATUS_WR_RESYNC q

/-- The state of a queue: 0 disabled, 1 active, 2 flushing. -/
def State.qState (s : State) (q : Nat) : Nat := s.get R.QMX_Q_STATUS_STATE q

/-- Discard a word of the writer in resync (R239). -/
def State.resyncWord (s : State) (q : Nat) (w : QWord) : State :=
  let s1 := s.addSat R.QMX_Q_CMD_DROP_WORDS 1 q
  if w.fin then
    (((s1.add R.QMX_Q_WR_PKTS_COUNT 1 q).add R.QMX_Q_DISC_COUNT 1 q).set R.QMX_Q_STATUS_WR_RESYNC 0 q).set
      R.QMX_Q_STATUS_WR_OPEN 0 q
  else s1

/-- Append a word to the writer's drawer, closing it when it must (R219). -/
def State.appendWord (s : State) (q : Nat) (w : QWord) : State :=
  let x := s.queue q
  let wd := s.get R.QMX_Q_STATUS_WR_DRAWER q
  let n := x.written wd + 1
  let s1 := s.putQueue q (x.setDrawer wd (x.drawer wd ++ [w]) n)
  let s2 := if w.fin then s1.add R.QMX_Q_WR_PKTS_COUNT 1 q else s1
  let s3 := (s2.set R.QMX_Q_STATUS_WR_OPEN (b2n (!w.fin)) q).endWrWait q
  if n = s.get R.QMX_Q_CFG_MAX q * 64 ∨ (w.fin = true ∧ s.on R.QMX_Q_CFG_CLOSE_END q = true) then s3.closeDrawer q
  else s3

/-- Append to a DESCRIPTOR ring (R222). -/
def State.appendRing (s : State) (q : Nat) (w : QWord) : State :=
  let x := s.queue q
  let s1 := s.putQueue q { x with ring := x.ring ++ [w] }
  let s2 := if w.fin then s1.add R.QMX_Q_WR_PKTS_COUNT 1 q else s1
  s2.set R.QMX_Q_STATUS_WR_OPEN (b2n (!w.fin)) q

/-- A word for which a DESCRIPTOR ring has no room is not written: its writer, the LTU, never waits (R225), and the loss shows as
OVERFLOW (R233). -/
def State.dropDescriptor (s : State) (q : Nat) : State :=
  ((s.set R.QMX_Q_STATUS_OVERFLOW 1 q).set R.QMX_EVT_LAST_QUEUE q).set R.QMX_EVT_LAST_KIND 4 |>.raise Ev.queueOverflow

/-- The next word of a queue's writer is the first of a group of 64 (R219). -/
def State.needsSlab (s : State) (q : Nat) : Bool :=
  !s.wrResync q && decide (s.qState q = 1) && !s.isRing q && !(s.queue q).closed &&
    decide ((s.queue q).written (s.get R.QMX_Q_STATUS_WR_DRAWER q) % 64 = 0)

/-- What becomes of one word the writer presents: accepted (with the new state) or the writer waits (R219, R220, R225,
R228, R237, R239). -/
def State.offerWord (s : State) (q : Nat) (w : QWord) : Bool × State :=
  if s.wrResync q then (true, s.resyncWord q w)
  else if s.qState q ≠ 1 then (false, s)
  else if s.isRing q then
    (true, if (s.queue q).ring.length < 16384 then s.appendRing q w else s.dropDescriptor q)
  else if (s.queue q).closed then (false, s.set R.QMX_Q_STATUS_FULL 1 q)
  else if s.needsSlab q then
    if s.maySlab q then (true, (s.takeSlabs q 1).appendWord q w)
    else (false, s.set R.QMX_Q_STATUS_ALLOC_WAIT 1 q)
  else (true, s.appendWord q w)

/-- A waiting writer goes on with the words it presents until one must wait. -/
def State.drainList (s : State) (q : Nat) : List QWord → State
  | [] => s.setQueue q { s.queue q with present := [] }
  | w :: ws =>
    match s.offerWord q w with
    | (true, s1) => State.drainList s1 q ws
    | (false, s1) => s1.setQueue q { s1.queue q with present := w :: ws }

/-- Let a queue's writer go on. -/
def State.drain (s : State) (q : Nat) : State := s.drainList q (s.queue q).present

/-- A writer that is granted one slab goes on with the words it presents until it needs another, `used` saying that it has had it
(R229). -/
def State.drainSlab (s : State) (q : Nat) (used : Bool) : List QWord → State
  | [] => s.setQueue q { s.queue q with present := [] }
  | w :: ws =>
    if used ∧ s.needsSlab q then
      (s.setQueue q { s.queue q with present := w :: ws }).set R.QMX_Q_STATUS_ALLOC_WAIT 1 q
    else
      match s.offerWord q w with
      | (true, s1) => State.drainSlab s1 q (used || s.needsSlab q) ws
      | (false, s1) => s1.setQueue q { s1.queue q with present := w :: ws }

/-- The writer of a queue presents words after those it already waits with (R219, R225). -/
def State.presentWords (s : State) (q : Nat) (ws : List QWord) : State :=
  s.drainList q ((s.queue q).present ++ ws)

/-- The words of an item: END on the last (R214). -/
def itemWords : List Nat → List QWord
  | [] => []
  | [d] => [⟨d % 2 ^ 64, true⟩]
  | d :: ds => ⟨d % 2 ^ 64, false⟩ :: itemWords ds

/-- The writer of a queue presents one whole item. -/
def State.presentItem (s : State) (q : Nat) (ds : List Nat) : State := s.presentWords q (itemWords ds)

/-! ### Reading -/

/-- The reader's drawer is empty: release it and let a closed writer's drawer swap in (R220, R221). -/
def State.releaseDrawer (s : State) (q : Nat) : State :=
  let x := s.queue q
  let rd := 1 - s.get R.QMX_Q_STATUS_WR_DRAWER q
  if (x.drawer rd).isEmpty then
    let n := x.written rd
    let s1 := s.putQueue q (x.setDrawer rd [] 0)
    let s2 := s1.releaseSlabs q (slabsFor n) false
    (s2.handOver q).drain q
  else s

/-- Take the first word out of the reader's drawer, if it holds one. -/
def State.popWord (s : State) (q : Nat) : Option (QWord × State) :=
  let x := s.queue q
  let rd := 1 - s.get R.QMX_Q_STATUS_WR_DRAWER q
  match x.drawer rd with
  | [] => none
  | w :: ws => some (w, (s.putQueue q (x.setDrawer rd ws (x.written rd))).releaseDrawer q)

/-- Words discarded in reader resync, up to and including the next END (R216). `n` bounds the words looked at. -/
def State.skipResync (s : State) (q : Nat) : Nat → State
  | 0 => s
  | n + 1 =>
    if s.on R.QMX_Q_STATUS_RD_RESYNC q then
      match s.popWord q with
      | none => s
      | some (w, s1) =>
        let s2 := s1.addSat R.QMX_Q_CMD_DROP_WORDS 1 q
        let s3 := if w.fin then (s2.add R.QMX_Q_DISC_COUNT 1 q).set R.QMX_Q_STATUS_RD_RESYNC 0 q else s2
        State.skipResync s3 q n
    else s

/-- Capture a queue event (QMX_EVT_LAST) and raise it. -/
def State.queueEvent (s : State) (q kind ev : Nat) : State :=
  ((s.set R.QMX_EVT_LAST_QUEUE q).set R.QMX_EVT_LAST_KIND kind).raise ev

/-- Deliver a word to the reader's intake. -/
def State.deliver (s : State) (q : Nat) (w : DWord) : State :=
  let s1 := s.endRdWait q
  let s2 := s1.setQueue q { s1.queue q with intake := (s1.queue q).intake ++ [w] }
  s2.set R.QMX_Q_STATUS_RD_OPEN (b2n (!w.fin)) q

/-- The reader asks for its next word (R216, R224, R238). -/
def State.readWord (s : State) (q : Nat) (ecc : Ecc) : State :=
  if (s.queue q).truncOwed then
    let s1 := s.setQueue q { s.queue q with truncOwed := false }
    (s1.addSat R.QMX_Q_ECC_TRUNC 1 q).deliver q { fin := true, trunc := true }
  else
    let s0 := s.skipResync q ((s.queue q).words + 1)
    match (if s0.on R.QMX_Q_STATUS_RD_RESYNC q then none else s0.popWord q) with
    | none => s0.set R.QMX_Q_STATUS_READ_WAIT 1 q
    | some (w, s1) =>
      match ecc with
      | .uncorrectable =>
        let s2 := (s1.addSat R.QMX_Q_ECC_UNCORR 1 q).addSat R.QMX_ECC_UNCORR 1
        let s3 := (s2.queueEvent q 3 Ev.queueEcc).set R.QMX_Q_STATUS_RD_RESYNC 1 q
        s3.deliver q { fin := true, poison := true }
      | e =>
        let s2 := if e = .corrected then (s1.addSat R.QMX_Q_ECC_CORR 1 q).addSat R.QMX_ECC_CORR 1 else s1
        let s3 := if w.fin then s2.add R.QMX_Q_RD_PKTS_COUNT 1 q else s2
        s3.deliver q { data := w.data, fin := w.fin }

/-- One of the two readers of a DESCRIPTOR ring. -/
def Queue.side (x : Queue) (second : Bool) : RingSide := if second then x.second else x.first

/-- Put one of the readers of a ring, and what the queue shows of both: RD_OPEN, READ_WAIT and RD_RESYNC (R216, R224, R235). -/
def State.putSide (s : State) (q : Nat) (second : Bool) (y : RingSide) : State :=
  let x0 := s.queue q
  let x1 : Queue := if second then { x0 with second := y } else { x0 with first := y }
  let waits := x1.first.waits || x1.second.waits
  let s1 := s.setQueue q { x1 with rdStalled := x1.rdStalled && waits }
  ((s1.set R.QMX_Q_STATUS_RD_OPEN (b2n (x1.first.opened || x1.second.opened)) q).set R.QMX_Q_STATUS_READ_WAIT (b2n waits) q).set
    R.QMX_Q_STATUS_RD_RESYNC (b2n (x1.first.skip || x1.second.skip)) q

/-- The words both readers of a ring have taken are free (R222). -/
def State.trimRing (s : State) (q : Nat) : State :=
  let x := s.queue q
  let n := min x.first.pos x.second.pos
  s.putQueue q { x with ring := x.ring.drop n, first := { x.first with pos := x.first.pos - n },
                        second := { x.second with pos := x.second.pos - n } }

/-- The reader of a ring discards a word in resync (R216). -/
def State.dropRing (s : State) (q : Nat) (second : Bool) (w : QWord) : State :=
  let y := (s.queue q).side second
  let s1 := (s.putSide q second { y with pos := y.pos + 1, skip := !w.fin }).addSat R.QMX_Q_CMD_DROP_WORDS 1 q
  if w.fin then s1.add R.QMX_Q_DISC_COUNT 1 q else s1

/-- The reader of a ring gets a word (R215, R216, R234). -/
def State.deliverRing (s : State) (q : Nat) (second : Bool) (ecc : Ecc) (w : QWord) : State :=
  let y := (s.queue q).side second
  let y1 : RingSide := { y with pos := y.pos + 1, waits := false }
  match ecc with
  | .uncorrectable =>
    let s1 := s.putSide q second { y1 with skip := true, opened := false, intake := y.intake ++ [{ fin := true, poison := true }] }
    ((s1.addSat R.QMX_Q_ECC_UNCORR 1 q).addSat R.QMX_ECC_UNCORR 1).queueEvent q 3 Ev.queueEcc
  | e =>
    let s1 := s.putSide q second { y1 with opened := !w.fin, intake := y.intake ++ [{ data := w.data, fin := w.fin }] }
    let s2 := if e = .corrected then (s1.addSat R.QMX_Q_ECC_CORR 1 q).addSat R.QMX_ECC_CORR 1 else s1
    if w.fin ∧ ¬ second then s2.add R.QMX_Q_RD_PKTS_COUNT 1 q else s2

/-- The words of a ring that one of its readers may take: up to the END of the last whole descriptor it has not read. -/
def State.ringRest (s : State) (q : Nat) (second : Bool) : List QWord :=
  let x := s.queue q
  let rest := x.ring.drop (x.side second).pos
  if rest.any (·.fin) then rest else []

/-- The reader of a ring in resync discards words up to and including the next END (R216), `n` at most. -/
def State.skipRing (s : State) (q : Nat) (second : Bool) : Nat → State
  | 0 => s
  | n + 1 =>
    if ((s.queue q).side second).skip then
      match s.ringRest q second with
      | [] => s
      | w :: _ => State.skipRing (((s.dropRing q second w).trimRing q).drain q) q second n
    else s

/-- One of the two readers of a DESCRIPTOR ring asks for its next word, the first the PCP, the second the SST (R222, R234, R238), and
whether the ring had one for it. A reader takes a descriptor only once its END is written. -/
def State.ringStep (s : State) (q : Nat) (second : Bool) (ecc : Ecc) : Bool × State :=
  let x := s.queue q
  let y := x.side second
  if y.owed then
    (true, (s.addSat R.QMX_Q_ECC_TRUNC 1 q).putSide q second
      { y with owed := false, opened := false, waits := false, intake := y.intake ++ [{ fin := true, trunc := true }] })
  else
    let s0 := s.skipRing q second (x.ring.length + 1)
    match (if ((s0.queue q).side second).skip then [] else s0.ringRest q second) with
    | [] => (false, s0.putSide q second { (s0.queue q).side second with waits := true })
    | w :: _ => (true, ((s0.deliverRing q second ecc w).trimRing q).drain q)

/-- One of the two readers of a ring asks for its next word. -/
def State.readRing (s : State) (q : Nat) (second : Bool) (ecc : Ecc) : State := (s.ringStep q second ecc).2

/-- The first whole item in a list of delivered words, and the rest. -/
def splitItem : List DWord → Option (List DWord × List DWord)
  | [] => none
  | w :: ws =>
    if w.fin then some ([w], ws)
    else (splitItem ws).map fun p => (w :: p.1, p.2)

/-- The reader's block asks for words until its intake holds a whole item, `n` words at most. -/
def State.pull (s : State) (q : Nat) : Nat → State
  | 0 => s
  | n + 1 =>
    if (splitItem (s.queue q).intake).isSome then s
    else
      let s1 := s.readWord q .clean
      if s1.on R.QMX_Q_STATUS_READ_WAIT q then s1 else State.pull s1 q n

/-- A block takes the next whole item of its queue, if the queue holds one. -/
def State.takeItem (s : State) (q : Nat) : Option (List DWord) × State :=
  let s1 := s.pull q ((s.queue q).words + 2)
  match splitItem (s1.queue q).intake with
  | none => (none, s1)
  | some (it, rest) => (some it, s1.setQueue q { s1.queue q with intake := rest })

/-- One of a ring's readers asks for words until it holds a whole descriptor. -/
def State.pullRing (s : State) (q : Nat) (second : Bool) : Nat → State
  | 0 => s
  | n + 1 =>
    if (splitItem ((s.queue q).side second).intake).isSome then s
    else
      let r := s.ringStep q second .clean
      if r.1 then State.pullRing r.2 q second n else r.2

/-- A descriptor whose END word was damaged: the resync that follows discards the next descriptor whole (R216). -/
def lostNext (it : List DWord) : Bool := decide (it.length = 3) && it.any (·.poison)

/-- A reader of a ring takes its next descriptor, if it is there. -/
def State.takeDescriptor (s : State) (q : Nat) (second : Bool) : Option (List DWord) × State :=
  let s1 := s.pullRing q second ((s.queue q).ring.length + 2)
  let y := (s1.queue q).side second
  match splitItem y.intake with
  | none => (none, s1)
  | some (it, rest) => (some it, s1.putSide q second { y with intake := rest })

/-! ### Enable, disable, flush (R231 to R239) -/

/-- The refusal of an enable (R231), on the fields in force. -/
def State.enableCheck (s : State) (q : Nat) : Option Status :=
  let mx := s.get R.QMX_Q_CFG_MAX q
  let cls := s.qClass q
  let res := s.get R.QMX_Q_RES_RES q
  if mx = 0 ∨ 128 < mx then some .range
  else if res ≠ 0 ∧ cls ≠ 1 then some .range
  else if cls = 2 ∧ (q < 96 ∨ 103 < q) then some .range
  else if s.get R.QMX_POOL_CFG_RES_LIMIT < s.get R.QMX_POOL_RES_TOTAL + res then some .range
  else if cls = 1 ∧ s.headroom < res then some .range
  else if cls = 2 ∧ s.headroom < 256 then some .range
  else none

/-- Enable a queue that passes R231: its reserve counts, and a DESCRIPTOR queue takes its 256 slabs (R212). -/
def State.enableQueue (s : State) (q : Nat) : State :=
  if s.on R.QMX_Q_CFG_EN q then s
  else
    let s1 := (s.set R.QMX_Q_CFG_EN 1 q).set R.QMX_Q_STATUS_STATE 1 q
    let s2 := s1.add R.QMX_STATUS_ENABLED 1
    let s3 := if s.qClass q = 1 then
        (s2.add R.QMX_POOL_RES_TOTAL (s.get R.QMX_Q_RES_RES q)).add R.QMX_POOL_RES_UNUSED (s2.unusedOf q)
      else s2
    let s4 := if s.qClass q = 2 then s3.takeSlabs q 256 else s3
    (s4.syncLow).drain q

/-- A waiting writer of the group that R229 serves next, starting after queue `last`. -/
def State.nextWaiting (s : State) (record : Bool) (last : Nat) : Option Nat :=
  let ws := (s.qmx.q.map (·.1)).filter fun q =>
    s.on R.QMX_Q_STATUS_ALLOC_WAIT q && (decide (s.qClass q = 1) == record) && s.maySlab q
  match ws.find? fun q => last < q with
  | some q => some q
  | none => ws.head?

/-- Grant one slab at a time to the waiting writers of a group, in round robin (R229); `n` bounds the turns. -/
def State.grantGroup (s : State) (record : Bool) : Nat → State
  | 0 => s
  | n + 1 =>
    match s.nextWaiting record (if record then s.qmx.lastRecord else s.qmx.lastStream) with
    | none => s
    | some q =>
      let s1 : State := if record then { s with qmx := { s.qmx with lastRecord := q } } else { s with qmx := { s.qmx with lastStream := q } }
      State.grantGroup (s1.drainSlab q false (s1.queue q).present) record n

/-- The turns that the waiting writers can take. -/
def State.turns (s : State) : Nat := s.qmx.q.foldl (fun a p => a + p.2.present.length + 1) 0

/-- Grant free slabs to waiting writers: RECORD first, then STREAM and LOCAL (R229). -/
def State.grant (s : State) : State :=
  let s1 := s.grantGroup true s.turns
  s1.grantGroup false s1.turns

/-- Disable a queue: its reserve no longer counts, a DESCRIPTOR queue gives its slabs up, a waiting reader stops
waiting, and the headroom it leaves goes to waiting writers (R210, R221, R228, R232). -/
def State.disableQueue (s : State) (q : Nat) : State :=
  if s.on R.QMX_Q_CFG_EN q then
    let s1 := if s.qClass q = 1 then
        (s.sub R.QMX_POOL_RES_TOTAL (s.get R.QMX_Q_RES_RES q)).sub R.QMX_POOL_RES_UNUSED (s.unusedOf q)
      else s
    let s2 := (s1.set R.QMX_Q_CFG_EN 0 q).set R.QMX_Q_STATUS_STATE 0 q
    let s3 := s2.sub R.QMX_STATUS_ENABLED 1
    let s4 := if s.qClass q = 2 then s3.releaseSlabs q (s3.get R.QMX_Q_RES_ALLOC q) false else s3
    ((s4.endRdWait q).syncLow).grant
  else s

/-- The END words among words. -/
def endCount (ws : List QWord) : Nat := (ws.filter (·.fin)).length

/-- Flush a queue (R237 to R239): every word is discarded, its slabs go into transit, an open item of the reader ends
with a TRUNC terminator, and an open item of the writer is discarded to its end. -/
def State.flushQueue (s : State) (q : Nat) : State :=
  let x := s.queue q
  let ws := x.d0 ++ x.d1 ++ x.ring
  let slabs := if s.isRing q then 0 else slabsFor x.w0 + slabsFor x.w1
  let rdOpen := s.on R.QMX_Q_STATUS_RD_OPEN q
  let wrOpen := s.on R.QMX_Q_STATUS_WR_OPEN q
  let fl (y : RingSide) : RingSide := { y with pos := 0, skip := false, owed := y.opened }
  let x1 : Queue := { x with d0 := [], d1 := [], w0 := 0, w1 := 0, closed := false, ring := [], first := fl x.first, second := fl x.second,
                             truncOwed := rdOpen && !s.isRing q }
  let s1 := s.putQueue q x1
  let s2 := (s1.add R.QMX_Q_DISC_COUNT (endCount ws) q).addSat R.QMX_Q_CMD_DROP_WORDS ws.length q
  let s3 := (s2.set R.QMX_Q_STATUS_RD_RESYNC 0 q).endWrWait q
  let s4 := if wrOpen then s3.set R.QMX_Q_STATUS_WR_RESYNC 1 q else s3
  let s5 := if slabs = 0 then s4 else (s4.set R.QMX_Q_STATUS_STATE 2 q).releaseSlabs q slabs true
  s5.drain q

/-- The rest of an item of which words have been taken. -/
def openTail : List QWord → List QWord
  | [] => []
  | w :: ws => if w.fin then [w] else w :: openTail ws

/-- Flush a queue whose writer gives up what it presents, but for the rest of an item already begun, which the resync discards (R239). -/
def State.flushOpen (s : State) (q : Nat) : State :=
  let x := s.queue q
  (s.setQueue q { x with present := if s.on R.QMX_Q_STATUS_WR_OPEN q then openTail x.present else [] }).flushQueue q

/-- The block that writes a queue starts afresh: its next word begins an item (DEDUCED, log 148). -/
def State.freshWriter (s : State) (q : Nat) : State := (s.set R.QMX_Q_STATUS_WR_RESYNC 0 q).set R.QMX_Q_STATUS_WR_OPEN 0 q

/-- The oldest slabs in transit reach the free pool (R221): waiting writers are served (R229), and then the writer of a queue whose
flush this ends goes on (R237). -/
def State.transitArrive (s : State) : State :=
  match s.qmx.transit with
  | [] => s
  | t :: _ =>
    let s1 := s.arrive.grant
    if s.qState t.queue = 2 ∧ s1.qState t.queue = 1 then s1.drain t.queue else s1

/-- Whether a queue holds words (R210, R232). -/
def State.holdsWords (s : State) (q : Nat) : Bool := decide ((s.queue q).words ≠ 0)

/-- Configure a fixed queue as R210 gives it. -/
def State.configQueue (s : State) (q cls mx closeEnd idle stall res station : Nat) : State :=
  (((((((s.set R.QMX_Q_CFG_CLASS cls q).set R.QMX_Q_CFG_MAX mx q).set R.QMX_Q_CFG_CLOSE_END closeEnd q).set
    R.QMX_Q_CFG_IDLE idle q).set R.QMX_Q_CFG_STALL stall q).set R.QMX_Q_RES_RES res q).set R.QMX_Q_CFG_STATION station q)

/-- Configure the fixed queue `q` for a station (R210). -/
def State.configFixed (s : State) (q station : Nat) : State :=
  if q < 96 then s.configQueue q 0 128 0 4 10 0 station
  else if q < 104 then s.configQueue q 2 128 1 0 0 0 station
  else if q < 112 then s.configQueue q 0 128 0 4 10 0 station
  else s.configQueue q 1 8 1 0 0 16 station

/-- The slab audit (R240, R241): whether the books balance, with FAIL, DIFF and the event when they do not. -/
def State.auditSlabs (s : State) : Bool × State :=
  let sum : Int := (s.get R.QMX_POOL_FREE_FREE + s.get R.QMX_AUD_ALLOC_ALLOC + s.get R.QMX_AUD_TRANSIT_TRANSIT : Nat)
  let d : Int := 65536 - sum
  if d = 0 ∧ ¬ s.on R.QMX_AUD_STATUS_AGE_FAIL then (true, s.set R.QMX_AUD_STATUS_DIFF 0)
  else (false, ((s.set R.QMX_AUD_STATUS_FAIL 1).setS R.QMX_AUD_STATUS_DIFF d).raise Ev.auditSlab)

end Sys2Proof.Machine
end

