-- ==== Sys2Proof/Machine/RecordOps.lean ====
section
/-! DEFINITION. Record headers and the records the Citum itself writes (R396, R397, R401 to R404). -/

namespace Sys2Proof.Machine

/-- The condition that marks records UNVERIFIED: an unverified combination is in force (R397, R506). -/
def State.unverified (s : State) : Bool := s.on R.SMC_POLICY_UNVERIFIED_COMBO

/-- Word 0 of a record header (R396); `flags` are the nine flags of bits [56:48]. -/
def State.recWord0 (s : State) (wpi flags : Nat) (degraded : Bool) : Nat :=
  wrap48 wpi + flags % 512 * 2 ^ 48 + b2n degraded * 2 ^ 57 + b2n s.unverified * 2 ^ 59

/-- Word 1 of a record header (R396). -/
def recWord1 (rtype engine station len x0 : Nat) : Nat :=
  rtype % 256 + engine % 1024 * 2 ^ 8 + station % 8 * 2 ^ 18 + min len 1048575 * 2 ^ 21 + x0 % 2 ^ 21 * 2 ^ 41

/-- Fields of a header read back. -/
def hdrWpi (w : Nat) : Nat := bits w 0 48
def hdrFlags (w : Nat) : Nat := bits w 48 9

/-- The body of a GAP record (R401). -/
def gapBody (kind product engine queue first last : Nat) : List Nat :=
  [kind % 16 + product % 64 * 2 ^ 4 + engine % 1024 * 2 ^ 10 + queue % 2 ^ 18 * 2 ^ 20, wrap48 first, wrap48 last]

/-- The band a record on queue 112 + s is released with: the lowest band not yet sealed (R333). -/
def State.releaseBand (s : State) (n : Nat) : Nat :=
  if s.on R.SCU_SEAL_ST_STATUS_VALID n then s.get R.SCU_SEAL_ST_HZN_BAND n + 1 else bandOf (s.w0 n) (s.bandExp n)

/-- The last line of band `b` of a station: not after F (R324, R331). -/
def State.bandLast (s : State) (n b : Nat) : Nat :=
  let e := bandStart (b + 1) (s.bandExp n) - 1
  match (s.station n).fLine with
  | some f => min e f
  | none => e

/-- The first line of a band of a station: not before W_0 (R324). -/
def State.bandFirst (s : State) (n b : Nat) : Nat := max (bandStart b (s.bandExp n)) (s.w0 n)

/-- Add to a snapshot counter of a band (R335). -/
def State.count (s : State) (n band i by_ : Nat) : State :=
  let x := s.sealOf n
  let row := SMap.get x.counts (List.replicate 15 0) band
  s.setSeal n { x with counts := SMap.put x.counts (List.replicate 15 0) band (row.set i ((row.getD i 0 + by_) % 2 ^ 32)) }

/-- The SST writes a record to queue 112 + s (R402): its header WPI never falls below the band of the record before. -/
def State.sstRecord (s : State) (n rtype wpi : Nat) (body : List Nat) : State :=
  let b := bandOf wpi (s.bandExp n)
  let x := s.sto n
  let w := if b < x.recBand then s.bandFirst n x.recBand else wpi
  let s1 := s.setSto n { x with recBand := max b x.recBand }
  s1.presentItem (112 + n)
    (s1.recWord0 w 0 false :: recWord1 rtype 0x3FF n body.length 0 :: body)

/-- The SST writes a GAP record (R401, R402). -/
def State.sstGap (s : State) (n kind product queue first last : Nat) : State :=
  s.sstRecord n 8 (s.bandFirst n (s.releaseBand n)) (gapBody kind product 0x3FF queue first last)

/-- The SST writes a SEAM record (R403). -/
def State.sstSeam (s : State) (n wpi r m result lines rho restarts : Nat) : State :=
  s.sstRecord n 9 wpi
    [wrap48 r + result % 4 * 2 ^ 48 + lines % 32 * 2 ^ 50, wrap48 m + rho % 2 ^ 16 * 2 ^ 48,
     restarts % 2 ^ 32 + restarts % 2 ^ 16 * 2 ^ 32]

/-- Whole items among words, oldest first. -/
def splitItems : List QWord → List Nat → List (List Nat)
  | [], _ => []
  | w :: ws, acc => if w.fin then (acc ++ [w.data]) :: splitItems ws [] else splitItems ws (acc ++ [w.data])

/-- The items a queue holds, the reader's drawer first, then the writer's, then words still presented. -/
def State.itemsOf (s : State) (q : Nat) : List (List Nat) :=
  let x := s.queue q
  let wd := s.get R.QMX_Q_STATUS_WR_DRAWER q
  splitItems ((x.intake.map fun w => ⟨w.data, w.fin⟩) ++ x.drawer (1 - wd) ++ x.drawer wd ++ x.present) []

/-- The RECORD queues of a station (R212). -/
def State.recordQueues (s : State) (n : Nat) : List Nat :=
  (s.qmx.q.map (·.1)).filter fun q => s.qClass q = 1 ∧ s.get R.QMX_Q_CFG_STATION q = n

/-- At the seal of a band, the records of the band are counted (R335): records, gap records, seam results. -/
def State.countRecords (s : State) (n band : Nat) : State :=
  s.each (s.recordQueues n) fun s q =>
    s.each (s.itemsOf q) fun s it =>
      let w0 := it.getD 0 0
      let ty := bits (it.getD 1 0) 0 8
      if bandOf (hdrWpi w0) (s.bandExp n) = band then
        let s1 := s.count n band 14 1
        if ty = 8 then s1.count n band 10 1
        else if ty = 9 then
          let s2 := s1.count n band 8 1
          if 2 ≤ bits (it.getD 2 0) 48 2 then s2.count n band 9 1 else s2
        else s1
      else s

end Sys2Proof.Machine
end

