-- ==== Sys2Proof/Machine/EngineOps.lean ====
section
/-! DEFINITION. Inspection engines (spec/09): binding, states, tokens, the sequencer, faults and void retirement. -/

namespace Sys2Proof.Machine

/-! Engine states (R242). -/
namespace Eng
def unbound : Nat := 0
def loaded : Nat := 1
def running : Nat := 2
def faulted : Nat := 3
def reloading : Nat := 4
end Eng

def State.engState (s : State) (e : Nat) : Nat := s.get R.IEA_ENG_STATUS_STATE e
def State.engStation (s : State) (e : Nat) : Nat := s.get R.IEA_ENG_CTRL_STATION e

/-- The engines the structure in force binds (R242). -/
def State.boundEngines (s : State) : List Nat := s.image.topo.map (·.engine)

/-- The engines bound to a station (R30). -/
def State.enginesOf (s : State) (n : Nat) : List Nat := s.boundEngines.filter fun e => s.engStation e = n

/-- WINDOW and FAULTED follow the engine states (R263, IEA_STATUS). -/
def State.syncEngines (s : State) : State :=
  let es := s.boundEngines
  (s.set R.IEA_AUD_STATUS_WINDOW (b2n (es.any fun e => s.engState e = Eng.reloading))).set R.IEA_STATUS_FAULTED
    (es.filter fun e => s.engState e = Eng.faulted).length

/-- Put an engine in a state, with its bit of IEA_CL_FAULT. -/
def State.setEngState (s : State) (e st : Nat) : State :=
  let b := 2 ^ (e % 32)
  let m := s.get R.IEA_CL_FAULT_MASK (e / 32)
  let m1 := if st = Eng.faulted then m ||| b else m - (m &&& b)
  ((s.set R.IEA_ENG_STATUS_STATE st e).set R.IEA_CL_FAULT_MASK m1 (e / 32)).syncEngines

/-! ### Ports -/

/-- The port cells of an engine in use, as i of cell 44 + i, with direction (R254). -/
def State.ports (s : State) (e : Nat) (out : Bool) : List Nat :=
  (List.range 4).filter fun i => s.on R.IEA_ENG_PORT_USED e i && (s.on R.IEA_ENG_PORT_DIR e i == out)

/-- The queue a port cell binds. -/
def State.portQueue (s : State) (e i : Nat) : Nat := s.get R.IEA_ENG_PORT_QUEUE e i

/-- The lead port: the input port cell with the lowest number (R254). -/
def State.leadPort (s : State) (e : Nat) : Option Nat := (s.ports e false).head?

/-! ### Tokens (R259 to R263) -/

/-- OPEN and the band reported to the seal follow the band table (R262, R263). -/
def State.syncTokens (s : State) (e : Nat) : State :=
  let x := s.engine e
  let s1 := s.set R.IEA_ENG_TOK_OPEN_OPEN x.table.length e
  if s1.get R.IEA_ENG_TOK_RETIRED_COUNT e = 0 then s1
  else
    match x.table, x.newest with
    | t :: _, _ =>
      if t.band = 0 then s1 else (s1.set R.IEA_ENG_BAND_BAND (t.band - 1) e).set R.IEA_ENG_BAND_VALID 1 e
    | [], some b => (s1.set R.IEA_ENG_BAND_BAND b e).set R.IEA_ENG_BAND_VALID 1 e
    | [], none => s1

/-- Issue and retire at once the tokens of bands shed before the engine saw them (R261). -/
def State.skipBands (s : State) (e n : Nat) : State :=
  if n = 0 then s
  else (s.add R.IEA_ENG_TOK_ISSUED_COUNT n e).add R.IEA_ENG_TOK_RETIRED_COUNT n e

/-- The bands between the newest issued and band `b` (R261). -/
def Engine.bandGap (x : Engine) (b : Nat) : Nat :=
  match x.newest with
  | some n => b - n - 1
  | none => 0

/-- Issue the token of band `b` (R259). -/
def State.issueToken (s : State) (e b : Nat) (degraded : Bool) : State :=
  let x := s.engine e
  let s2 := (s.add R.IEA_ENG_TOK_ISSUED_COUNT 1 e).set R.IEA_ENG_STATUS_PHASE x.phase e
  (s2.setEngine e { x with table := x.table ++ [{ band := b, phase := x.phase, degraded := degraded }],
                           newest := some b }).syncTokens e

/-- Set the DEGRADED bit of a band's entry (R279). -/
def Engine.degrade (x : Engine) (b : Nat) : Engine :=
  { x with table := x.table.map fun t => if t.band = b then { t with degraded := true } else t }

/-- Set the DEGRADED bit of the entry at which a cell stands that has passed `m` marks. -/
def Engine.degradeAt (x : Engine) (m : Nat) : Engine :=
  match x.table[m - x.retired]? with
  | some t => x.degrade t.band
  | none => x

/-- Retire the oldest entries whose mark every output port has passed (R260). -/
def State.retire (s : State) (e : Nat) : Nat → State
  | 0 => s
  | f + 1 =>
    let x := s.engine e
    match x.table with
    | [] => s
    | t :: ts =>
      if (s.ports e true).all fun i => t.passed.contains i then
        let s1 := (s.add R.IEA_ENG_TOK_RETIRED_COUNT 1 e).setEngine e { x with table := ts, retired := x.retired + 1 }
        State.retire (s1.syncTokens e) e f
      else s

/-- An output port passes the mark of the band at which it stands (R260). -/
def State.passMark (s : State) (e i : Nat) : State :=
  let x := s.engine e
  let c := SMap.get x.cells {} (44 + i)
  let k := c.marks - x.retired
  let table := (x.table.mapIdx fun j t => if j = k then { t with passed := i :: t.passed } else t)
  (s.setEngine e { x with table := table, cells := SMap.put x.cells {} (44 + i) { c with marks := c.marks + 1 } }).retire
    e 4

/-! ### Reset and entry (R265, R273) -/

/-- The local store of an engine from its structure: constants (R308) and LOCAL leaves (R309). -/
def Image.localStore (m : Image) (e : Nat) : SMap Nat :=
  let consts := ((m.consts.find? fun c => c.engine = e).map (·.consts)).getD []
  let ls0 : SMap Nat := SMap.putList [] 0 65408 (consts.flatMap fun w => [bits w 0 32, bits w 32 32])
  m.leaves.foldl (fun ls r =>
    if r.kind = 1 ∧ field r.head 0 2 = e then
      let words := (List.range ((r.data.length + 3) / 4)).map fun i => field r.data (4 * i) 4
      SMap.putList ls 0 (field r.head 4 4 / 4) words
    else ls) ls0

/-- Reset cells, band table and sequencer (R273). -/
def State.resetEngine (s : State) (e : Nat) : State :=
  let x := s.engine e
  let s1 := s.setEngine e { group := x.group, cfg := x.cfg, ls := x.ls, ran := x.ran, soft := x.soft }
  let s2 := (s1.set R.IEA_ENG_TOK_ISSUED_COUNT 0 e).set R.IEA_ENG_TOK_RETIRED_COUNT 0 e
  ((((s2.set R.IEA_ENG_TOK_OPEN_OPEN 0 e).set R.IEA_ENG_STATUS_PC 0 e).set R.IEA_ENG_STATUS_SEQ 0 e).set
    R.IEA_ENG_STATUS_LOOP 0 e).set R.IEA_ENG_STATUS_PHASE 0 e

/-- Reload the local store regions from the structure in force (R273). -/
def State.reloadStore (s : State) (e : Nat) : State :=
  s.setEngine e { s.engine e with ls := s.image.localStore e, ran := false, soft := [] }

/-- An engine enters LOADED (R242, R273). -/
def State.loadEngine (s : State) (e : Nat) : State :=
  let s1 := s.resetEngine e
  let s2 := if s.engState e = Eng.faulted then s1.reloadStore e else s1
  s2.setEngState e Eng.loaded

/-- What a sequencer step follows (R265). -/
inductive SeqCause where
  | entry | line | token | cont
  deriving DecidableEq, Repr

/-! ### Faults (R270, R271) -/

/-- From staging until the flush a group engine's output ports discard what they write for band H >> k and later
(R320). -/
def State.muted (s : State) (e b : Nat) : Bool :=
  let ph := s.get R.SCU_RLD_STATUS_PHASE
  decide (ph = 1 ∨ ph = 2) && bit (s.get R.SCU_RLD_MASK_GROUPS) (s.engine e).group &&
    decide (s.engStation e = s.get R.SCU_RLD_STATUS_STATION) &&
    decide (bandOf s.scu.hinge (s.bandExp (s.engStation e)) ≤ b)

/-- X0 of a record an engine writes: the station's ORIGIN, and FIRST of the window of the STORE queue its lead port reads (R397). -/
def State.recX0 (s : State) (e : Nat) : Nat :=
  let lead := (s.leadPort e).map (s.portQueue e)
  let first := match s.image.qmap.find? fun m => some m.queue = lead with
    | some m => match m.writer with
      | .store _ => m.first
      | _ => 0
    | none => 0
  s.get R.PCP_STC_ST_ORIGIN_COLUMN (s.engStation e) + first

/-- Retire the oldest open band void, with what its output ports write, unless a reload has them discard it (R271,
R320). -/
def State.retireVoid (s : State) (e : Nat) : State :=
  let x := s.engine e
  match x.table with
  | [] => s
  | t :: ts =>
    let n := s.engStation e
    let lastLine := s.bandLast n t.band
    let s1 := (s.add R.IEA_ENG_TOK_RETIRED_COUNT 1 e).addSat R.IEA_ENG_TOK_OPEN_VOIDED 1 e
    let s2 := (s1.setEngine e { x with table := ts, retired := x.retired + 1 }).syncTokens e
    let s3 := s2.count n t.band 11 1
    if s.muted e t.band then s3
    else s3.each (s.ports e true) fun s i =>
      let q := s.portQueue e i
      (s.presentItem q (if s.qClass q = 1 then s.recWord0 lastLine 0 true :: recWord1 8 e n 3 (s.recX0 e) ::
          gapBody 3 0x3F e q (s.bandFirst n t.band) lastLine
        else [wrap48 lastLine + 2 ^ 57 + 2 ^ 58 + 2 ^ 59])).count n t.band 12 1

/-- Retire void every open band whose BAND_LAST item the lead port has accepted (R271). -/
def State.retireVoids (s : State) (e : Nat) : Nat → State
  | 0 => s
  | f + 1 =>
    match (s.engine e).table with
    | t :: _ => if t.closed then State.retireVoids (s.retireVoid e) e f else s
    | [] => s

/-- Flush every output queue of an engine (R270), the words its ports present going with the fabric; its ports start afresh with the
items they write for bands retired void (log 148). -/
def State.flushOutputs (s : State) (e : Nat) : State :=
  s.each (s.ports e true) fun s i =>
    let q := s.portQueue e i
    (s.flushOpen q).freshWriter q

/-- An engine faults (R270), in whatever state it is bound (R246): only the first fault is recorded until the engine leaves FAULTED. Its sequencer stops, at 100b after a
runaway (R265, R268). -/
def State.faultEngine (s : State) (e kind cell : Nat) : State :=
  if s.engState e ≠ Eng.unbound ∧ s.engState e ≠ Eng.faulted then
    let x := s.engine e
    let s1 := s.setEngine e { x with cells := (s.ports e false).foldl (fun m i =>
        let c := SMap.get x.cells {} (44 + i)
        SMap.put m {} (44 + i) { inItem := c.inItem, hdr := c.hdr, band := c.band, bandClosed := c.bandClosed }) [],
                                     fired := [] }
    let s2 := (s1.set R.IEA_ENG_STATUS_SEQ (if kind = 5 then 4 else 0) e).setEngState e Eng.faulted
    let s3 := (((s2.set R.IEA_ENG_FAULT_KIND kind e).set R.IEA_ENG_FAULT_CELL cell e).set R.IEA_ENG_FAULT_WPI
      x.lastWpi e).set R.IEA_ENG_FAULT_NEW 1 e
    ((s3.raise (Ev.engineFault e)).flushOutputs e).retireVoids e 4
  else s

/-! ### The sequencer (R264 to R268) -/

/-- Sequencer status codes (IEA_ENG_STATUS.SEQ). -/
def State.setSeq (s : State) (e st : Nat) : State := s.set R.IEA_ENG_STATUS_SEQ st e

def State.setPc (s : State) (e pc : Nat) : State := s.set R.IEA_ENG_STATUS_PC (pc % 16) e

def State.setWait (s : State) (e : Nat) (w : SeqWait) : State := (s.setEngine e { s.engine e with wait := w }).setSeq e 2

/-- EVENT (R267). -/
def State.seqEvent (s : State) (e code : Nat) : State :=
  ((((s.set R.IEA_ENG_EVT_CODE code e).set R.IEA_ENG_EVT_WPI (s.engine e).lastWpi e).add R.IEA_ENG_EVT_COUNT 1 e).set
    R.IEA_ENG_EVT_PENDING 1 e).raise (Ev.engine e)

/-- Execute instructions until a wait that is not met or a HALT; a 17th is a runaway (R265). -/
def State.seqRun (s : State) (e : Nat) : Nat → State
  | 0 => s.faultEngine e 5 0x3F
  | f + 1 =>
    let pc := s.get R.IEA_ENG_STATUS_PC e
    let w := s.get R.IEA_ENG_SEQ_INSTR e pc
    let s1 := (s.setPc e (pc + 1)).setSeq e 1
    match w % 16 with
    | 0 => State.seqRun s1 e f
    | 1 => State.seqRun (s1.setEngine e { s1.engine e with phase := bits w 4 2 }) e f
    | 2 => if bits w 4 24 = 0 then State.seqRun s1 e f else s1.setWait e (.lines (bits w 4 24))
    | 3 => if bits w 4 24 = 0 then State.seqRun s1 e f else s1.setWait e (.bands (bits w 4 24))
    | 4 => State.seqRun (s1.seqEvent e (bits w 4 8)) e f
    | 5 =>
      let l0 := s1.get R.IEA_ENG_STATUS_LOOP e
      let l := (if l0 = 0 then bits w 8 20 else l0) - 1
      let s2 := s1.set R.IEA_ENG_STATUS_LOOP l e
      State.seqRun (if l ≠ 0 then s2.setPc e (bits w 4 4) else s2) e f
    | 6 => State.seqRun (s1.setPc e (bits w 4 4)) e f
    | 8 => s1.setWait e .host
    | _ => s1.setSeq e 3

/-- Go on after a wait. -/
def State.seqGo (s : State) (e : Nat) : State := (s.setEngine e { s.engine e with wait := .none }).seqRun e 16

/-- A sequencer step (R265). -/
def State.seqStep (s : State) (e : Nat) (c : SeqCause) : State :=
  match c with
  | .entry => s.seqGo e
  | .cont => if (s.engine e).wait = .host then s.seqGo e else s
  | .line =>
    match (s.engine e).wait with
    | .lines 1 => s.seqGo e
    | .lines n => s.setEngine e { s.engine e with wait := .lines (n - 1) }
    | _ => s
  | .token =>
    match (s.engine e).wait with
    | .bands 1 => s.seqGo e
    | .bands n => s.setEngine e { s.engine e with wait := .bands (n - 1) }
    | _ => s

/-- An engine enters RUNNING (R242, R265, R273). -/
def State.runEngine (s : State) (e : Nat) : State :=
  let s1 := (s.resetEngine e).set R.IEA_ENG_BAND_VALID 0 e
  let s2 := if s.engState e = Eng.faulted then s1.reloadStore e else s1
  let s3 := s2.setEngine e { s2.engine e with ran := true, soft := [] }
  (s3.setEngState e Eng.running).seqStep e .entry

/-- An engine at the arm of its station (R242, R530); one that a host read faulted in IDLE stays FAULTED (R246, R273). -/
def State.armEngine (s : State) (e : Nat) : State :=
  if s.engState e = Eng.faulted then (s.resetEngine e).set R.IEA_ENG_BAND_VALID 0 e else s.runEngine e

/-- The engines whose token audit fails (R263). -/
def State.tokenBad (s : State) : List Nat :=
  s.boundEngines.filter fun e =>
    s.engState e ≠ Eng.reloading ∧
    (s.get R.IEA_ENG_TOK_ISSUED_COUNT e + 2 ^ 32 - s.get R.IEA_ENG_TOK_RETIRED_COUNT e) % 2 ^ 32
      ≠ (s.engine e).table.length

/-- The token audit (R263): whether it passes, with FAIL, ENGINE and the event when it does not. -/
def State.auditTokens (s : State) : Bool × State :=
  match s.tokenBad with
  | [] => (true, s.set R.IEA_AUD_STATUS_ENGINE 0x1FF)
  | e :: es =>
    (false, ((s.set R.IEA_AUD_STATUS_FAIL 1).set R.IEA_AUD_STATUS_ENGINE (es.foldl min e)).raise Ev.auditToken)

/-- The lowest band up to which every engine of a station has retired its tokens (R262); none when one has retired
none. -/
def State.engineReport (s : State) (n : Nat) : Option Nat :=
  (s.enginesOf n).foldl (fun acc e =>
    match acc with
    | none => none
    | some b => if s.on R.IEA_ENG_BAND_VALID e then some (min b (s.get R.IEA_ENG_BAND_BAND e)) else none)
    (some (2 ^ 42))

end Sys2Proof.Machine
end

