-- ==== Sys2Proof/Machine/MotionOps.lean ====
section
/-! DEFINITION. Axes and their profiles (spec/18): the shared operations that stations, the scan store and the motion
commands use. -/

namespace Sys2Proof.Machine

def State.axis (s : State) (a : Nat) : Axis := SMap.get s.ttc.ax {} a
def State.setAxis (s : State) (a : Nat) (x : Axis) : State :=
  { s with ttc := { s.ttc with ax := SMap.put s.ttc.ax {} a x } }

/-! Axis states (TTC_AX_STATUS.STATE). -/
namespace Ax
def disabled : Nat := 0
def link : Nat := 1
def still : Nat := 2
def moving : Nat := 3
def atVelocity : Nat := 4
def fault : Nat := 5
end Ax

/-- Motion event sources (R475). -/
def evAxisFault (a : Nat) : Nat := 1424 + a
def evMoveDone (a : Nat) : Nat := 1428 + a

/-- Cycles in a second (R462). -/
def cyc : Nat := 50000

def State.axState (s : State) (a : Nat) : Nat := s.get R.TTC_AX_STATUS_STATE a

/-- The four axes. -/
def axes4 : List Nat := List.range 4

/-- The station that paces an axis (R470). -/
def State.pacer (s : State) (a : Nat) : Option Nat :=
  stations8.find? fun n =>
    s.stBusy n && s.on R.SST_ST_PACE_EN n && decide (s.get R.SST_ST_PACE_AXIS n = a)

/-- PACED follows the stations (R470). -/
def State.syncPaced (s : State) : State :=
  s.each axes4 fun s a => s.set R.TTC_AX_STATUS_PACED (b2n (s.pacer a).isSome) a

/-- The position of a profile in whole microsteps (R465). -/
def Profile.at (p : Profile) : Int := roundDivI p.p (cyc * cyc * cyc)

/-- An axis may take a command: it has a link and no fault. -/
def State.axReady (s : State) (a : Nat) : Bool :=
  decide (s.axState a = Ax.still ∨ s.axState a = Ax.moving ∨ s.axState a = Ax.atVelocity)

/-- The run current at the start of a command (R472). -/
def State.startCurrent (s : State) (a : Nat) : Nat :=
  if s.on R.TTC_AX_CTRL_ADAPT a then s.get R.TTC_AX_CUR_IRUN_MIN a else s.get R.TTC_AX_CUR_IRUN_MAX a

/-- Give an axis a new goal: it replans from the present position, velocity and acceleration (R466). -/
def State.aim (s : State) (a : Nat) (g : Goal) : State :=
  if s.axReady a then
    let x := s.axis a
    let s1 := s.setAxis a { x with prof := { x.prof with goal := g }, holding := false, lowLoad := 0, run := s.startCurrent a,
                                   settling := false, back := none, scaleOne := false }
    (s1.set R.TTC_AX_STATUS_CURRENT (s.startCurrent a) a).set R.TTC_AX_STATUS_STATE Ax.moving a
  else s

/-- STOP: velocity target 0 (R467). -/
def State.axisStop (s : State) (a : Nat) : State := s.aim a (.vel 0)

/-- The sign in which an axis position moves as a station's lines advance (R469, R470). -/
def State.axisSign (s : State) (n a : Nat) : Int :=
  s.fwd n * (if 0 ≤ toSigned 32 (s.get R.TTC_AX_RATIO_RATIO a) then 1 else -1)

/-- A scale received by a paced axis sets its velocity target (R470). It is no command: the current of an axis that moves stands
(R472). -/
def State.axisScale (s : State) (n a sc : Nat) : State :=
  let v : Nat := roundDiv (sc * s.get R.TTC_AX_VSCAN_VSCAN a) 1024
  let s1 := (s.emit (.scale a sc)).aim a (.vel (s.axisSign n a * v))
  let s2 := if s.axState a = Ax.moving ∨ s.axState a = Ax.atVelocity then
      (s1.set R.TTC_AX_STATUS_CURRENT (s.get R.TTC_AX_STATUS_CURRENT a) a).setAxis a { s1.axis a with lowLoad := (s.axis a).lowLoad, run := (s.axis a).run }
    else s1
  s2.setAxis a { s2.axis a with scaleOne := decide (sc = 1024) }

/-- The axis has reached the scan velocity: a target of scale 1 with zero acceleration (R470). -/
def State.atScan (s : State) (a : Nat) : Bool := (s.axis a).scaleOne && decide (s.axState a = Ax.atVelocity)

/-- The back-up move to position `ct` from the encoder position `p` (R471). -/
def State.backUp (s : State) (a : Nat) (ct p : Int) (tries : Nat) : State :=
  let d := roundDivI ((ct - p) * toSigned 32 (s.get R.TTC_AX_RATIO_RATIO a)) (65536 * 65536)
  let s1 := s.aim a (.pos ((s.axis a).prof.at + d))
  s1.setAxis a { s1.axis a with back := some ct, tries := tries }

/-- The coils take a standstill mode (R473): 00b drive at IHOLD, 01b drive at the last run current, 10b off, 11b short; a paced
axis keeps its position. -/
def State.holdCoil (s : State) (a mode : Nat) : State :=
  let m := if s.on R.TTC_AX_STATUS_PACED a ∧ 2 ≤ mode then 0 else mode
  let x := s.axis a
  let s1 := s.setAxis a { x with coil := m, holding := true }
  if m = 0 then s1.set R.TTC_AX_STATUS_CURRENT (s.get R.TTC_AX_CUR_IHOLD a) a
  else if m = 1 then s1.set R.TTC_AX_STATUS_CURRENT x.run a
  else s1

/-- The linear move that axis `a` is part of stops under STOP, or is given up while its axes still come to rest (R468). -/
def State.stopLin (s : State) (a : Nat) : State :=
  let s0 : State := if s.ttc.due.any fun e => e.1 = a then { s with ttc := { s.ttc with due := [] } } else s
  match s0.ttc.lin with
  | some l =>
    if (s0.axis a).inLin then
      let s1 : State := { s0 with ttc := { s0.ttc with lin := none } }
      s1.each (l.starts.map (·.1)) fun s a => (s.setAxis a { s.axis a with inLin := false }).axisStop a
    else s0
  | none => s0

/-- An axis fault (R474): the profile stops at once, the coils take FAULT_MODE, a linear move it is part of stops, and a move that ended
in this cycle raises no event. -/
def State.axisFault (s : State) (a kind : Nat) : State :=
  let s0 := s.stopLin a
  let x := s0.axis a
  let s1 := s0.setAxis a { x with prof := { x.prof with v := 0, a := 0, goal := .rest }, back := none, settling := false,
                                  scaleOne := false, stallRun := 0, ended := false }
  let s2 := s1.holdCoil a (s.get R.TTC_AX_CTRL_FAULT_MODE a)
  (((s2.set R.TTC_AX_STATUS_STATE Ax.fault a).set R.TTC_AX_STATUS_FAULT 1 a).set R.TTC_AX_STATUS_KIND kind a).raise
    (evAxisFault a)

/-- An axis at standstill. -/
def State.axStandstill (s : State) (a : Nat) : Bool :=
  decide ((s.axis a).prof.v = 0 ∧ (s.axis a).prof.a = 0)

/-! ### The planner (R466) -/

/-- Integer square root by bisection on `f` bits. -/
def isqrtAux (n : Nat) : Nat → Nat → Nat
  | 0, r => r
  | f + 1, r =>
    let c := r + 2 ^ f
    if c * c ≤ n then isqrtAux n f c else isqrtAux n f r

/-- The whole part of the square root. -/
def isqrt (n : Nat) : Nat := isqrtAux n (n.log2 / 2 + 1) 0

/-- The distance of a ramp from velocity `v` at rest acceleration to 0, in position units, with acceleration limit `A`
and jerk `J` in cycle units (R466): v × T / 2. -/
def rampDist (v A J : Nat) : Nat :=
  if J = 0 then 0
  else if A * A ≤ v * J then v * v / (2 * max 1 A) + v * A / (2 * J)
  else v * isqrt (v * 4 / J) / 2

/-- The displacement after which a profile of velocity `v` and acceleration `a` comes to rest when it heads for rest from now on with the
limits of R466. -/
def stopDist (v a : Int) (A J : Nat) : Int :=
  let n := a.natAbs
  let bend : Int := (n * n / (2 * J) : Nat)
  let ahead (v : Int) (rising : Bool) : Int :=
    if rising then v * n / J + (n * n * n / (3 * J * J) : Nat) + (rampDist (v + bend).toNat A J : Nat)
    else
      let t := n / J
      (rampDist (v + bend).toNat A J : Nat) - (v + bend) * t + (J * t * t * t / 6 : Nat)
  if 0 ≤ v + (if 0 ≤ a then bend else -bend) then ahead v (decide (0 ≤ a)) else -(ahead (-v) (decide (a ≤ 0)))

/-- The velocity at which a profile settles when its acceleration goes to 0 from the next cycle on. -/
def settleVel (v a : Int) (J : Nat) : Int :=
  let n := a.natAbs
  let k := ceilDiv n J - 1
  let d : Int := (k * n - J * (k * (k + 1) / 2) : Nat)
  if 0 ≤ a then v + d else v - d

/-- The acceleration of the next cycle that takes a profile up toward velocity `vt`, or holds it there: the jerk +J as long as the velocity
can still settle at `vt` or below it, then 0, then −J (R466). A step that would pass A or 0 is cut there (DEDUCED, log 55). -/
def accelUp (v a vt : Int) (A J : Nat) : Int :=
  let up := min (A : Int) (a + J)
  if settleVel (v + up) up J ≤ vt then up
  else if 0 ≤ a ∧ settleVel (v + a) a J ≤ vt then a
  else if 0 < a then (if a ≤ J then 0 else a - J) else up

/-- The acceleration of the next cycle toward velocity `vt` (R466). -/
def accelTo (v a vt : Int) (A J : Nat) : Int :=
  let u := settleVel v a J
  if vt < u ∨ (u = vt ∧ a < 0) then -accelUp (-v) (-a) (-vt) A J else accelUp v a vt A J

/-- One cycle of a profile with acceleration `a`. -/
def Profile.advance (x : Profile) (a : Int) : Profile := { x with a := a, v := x.v + a, p := x.p + x.v + a }

/-- One cycle toward a velocity target, reached with zero acceleration. -/
def Profile.toVel (x : Profile) (vt : Int) (A J : Nat) : Profile :=
  if (vt - x.v).natAbs ≤ J ∧ x.a.natAbs ≤ J then { x with v := vt, a := 0, p := x.p + vt }
  else x.advance (accelTo x.v x.a vt A J)

/-- One cycle toward a position target, reached exactly with zero velocity and acceleration: the profile speeds up toward VMAX, or else
holds its acceleration, as long as it can still come to rest short of the target, and brakes otherwise. The last cycle takes what is
left, less than 1/1,000 microstep (DEDUCED, log 55). -/
def Profile.toPos (x : Profile) (pt : Int) (V A J : Nat) : Profile :=
  let d := pt - x.p
  if d.natAbs ≤ 16 * J ∧ x.v.natAbs ≤ 4 * J ∧ x.a.natAbs ≤ 2 * J then { x with p := pt, v := 0, a := 0 }
  else
    let dir : Int := if stopDist x.v x.a A J ≤ d then 1 else -1
    let v := dir * x.v
    let a := dir * x.a
    let free (c : Int) : Bool :=
      decide (v + c + stopDist (v + c) c A J ≤ dir * d) && decide ((settleVel (v + c) c J).natAbs ≤ V)
    match [accelTo v a V A J, a].find? free with
    | some c => x.advance (dir * c)
    | none => x.toVel 0 A J

/-- One cycle of a profile (R466), with its limits in the units of the profile and of one cycle. -/
def Profile.cycle (x : Profile) (V A J : Nat) : Profile :=
  match x.goal with
  | .rest => { x with v := 0, a := 0 }
  | .vel vt => x.toVel (vt * (cyc * cyc : Nat)) A J
  | .pos pt => x.toPos (pt * (cyc * cyc * cyc : Nat)) V A J
  | .estop =>
    if x.v.natAbs ≤ A then { x with v := 0, a := 0 }
    else x.advance (if 0 < x.v then -(A : Int) else A)

/-- A profile has met its goal. -/
def Profile.done (x : Profile) : Bool :=
  match x.goal with
  | .rest => true
  | .vel vt => decide (x.v = vt * (cyc * cyc : Nat) ∧ x.a = 0)
  | .pos pt => decide (x.p = pt * (cyc * cyc * cyc : Nat) ∧ x.v = 0 ∧ x.a = 0)
  | .estop => decide (x.v = 0 ∧ x.a = 0)

end Sys2Proof.Machine
end

