-- ==== Sys2Proof/Machine/SlotOps.lean ====
section
/-! DEFINITION. The pipeline's records by head, station and product, the leaf slots' status bits, and the early end of a
capture (R139, R147). -/

namespace Sys2Proof.Machine

def State.phead (s : State) (p : Nat) : PHead := SMap.get s.pcp.head {} p
def State.setPhead (s : State) (p : Nat) (x : PHead) : State :=
  { s with pcp := { s.pcp with head := SMap.put s.pcp.head {} p x } }
def State.pst (s : State) (n : Nat) : PSt := SMap.get s.pcp.st {} n
def State.setPst (s : State) (n : Nat) (x : PSt) : State :=
  { s with pcp := { s.pcp with st := SMap.put s.pcp.st {} n x } }
def State.prod (s : State) (q : Nat) : Prod := SMap.get s.pcp.prod {} q
def State.setProd (s : State) (q : Nat) (x : Prod) : State :=
  { s with pcp := { s.pcp with prod := SMap.put s.pcp.prod {} q x } }

/-- No slot. -/
def noSlot : Nat := 0x1FF

/-- The heads of the device, by first port. -/
def ports96 : List Nat := List.range 96

/-- A capture is waiting or running. -/
def State.capRuns (s : State) : Bool :=
  decide (s.get R.PCP_CAP_STATUS_STATE = 1 ∨ s.get R.PCP_CAP_STATUS_STATE = 2)

/-- The status bits of every slot follow the heads and the capture (PCP_LEAF_STATUS). -/
def State.syncSlot (s : State) (l : Nat) : State :=
  let act := ports96.any fun p => s.get R.PCP_SHD_HEAD_LEAF_ACTIVE p = l
  let pend := ports96.any fun p => s.get R.PCP_SHD_HEAD_LEAF_PENDING p = l
  let fade := ports96.any fun p => (s.phead p).fades.any fun f => f.slot = l
  (((s.set R.PCP_LEAF_STATUS_ACTIVE (b2n act) l).set R.PCP_LEAF_STATUS_PENDING (b2n pend) l).set
    R.PCP_LEAF_STATUS_FADING (b2n fade) l).set R.PCP_LEAF_STATUS_CAPTURING (b2n (s.capRuns && decide (s.pcp.cap.slot = l))) l

/-- Bring the status bits of some slots up to date. -/
def State.syncSlots (s : State) (ls : List Nat) : State := s.each (ls.filter (· < 256)) State.syncSlot

/-- A capture ends early (R147); STATE then reads 00b (DESIGN CHOICE, log 145). -/
def State.endCapture (s : State) (c : Status) : State :=
  let l := s.pcp.cap.slot
  ((s.set R.PCP_CAP_STATUS_STATE 0).set R.PCP_CAP_STATUS_LAST_STATUS c.code).syncSlots [l]

/-- A capture on one of the station's heads ends as the station leaves SCANNING (R147). -/
def State.endCaptureOf (s : State) (n : Nat) : State :=
  if s.capRuns ∧ s.stationOfHead s.pcp.cap.head = some n then s.endCapture .state else s

end Sys2Proof.Machine
end

