-- ==== Sys2Proof/Machine/StoreOps.lean ====
section
/-! DEFINITION. The scan store (spec/07): slots and tags, readers and the release line, pacing, stops, shedding, overrun,
and the page books. -/

namespace Sys2Proof.Machine

/-! ### Slots (R184 to R186) -/

/-- Bytes of a slot of `w` columns and `p` planes (R185). -/
def slotBytes (w p : Nat) : Nat := 64 * ceilDiv (2 * w * p + 16) 64

/-- Lines that `shelves` shelves hold (R185). -/
def slotCount (shelves z : Nat) : Nat := if z = 0 then 0 else 65536 * 32 * shelves / z

def State.capK (s : State) (n : Nat) : Nat := s.get R.SST_ST_CAP_K n
def State.slotZ (s : State) (n : Nat) : Nat := 64 * s.get R.SST_ST_GEOM_SLOT n
def State.lineWidth (s : State) (n : Nat) : Nat := s.get R.PCP_STC_ST_WIDTH_W n

/-- BAR2 byte offset of the slot of line `l` (R186). -/
def State.slotAddr (s : State) (n l : Nat) : Nat :=
  65536 * s.get R.SST_ST_REGION_BASE_PAGE n + s.slotZ n * ((l - s.w0 n) % max 1 (s.capK n))

/-- The two tag words (R186). -/
def tagBytes (wpi flags gen : Nat) : List Nat := leBytes 8 (wrap48 wpi + flags % 512 * 2 ^ 48) ++ leBytes 8 (gen % 65536)

/-- Write a line to the slot of line `home`: samples, zeros, then the tag (R186). -/
def State.writeSlot (s : State) (n home wpi flags : Nat) (samples : List Nat) : State :=
  let z := s.slotZ n
  let body := samples.flatMap (leBytes 2)
  let pad := List.replicate (z - 16 - body.length) 0
  let bytes := body.take (z - 16) ++ pad ++ tagBytes wpi flags (s.get R.SST_ST_RESTARTS_COUNT n)
  { s with hbm := s.hbm.write (s.slotAddr n home) bytes }

/-- Sample `j` of plane `p` in the slot of line `l` (R186). -/
def State.slotSample (s : State) (n l p j : Nat) : Nat :=
  let a := s.slotAddr n l + 2 * (p * s.lineWidth n + j)
  s.hbm.byte a + 256 * s.hbm.byte (a + 1)

/-- The samples of a line, plane after plane. -/
def State.slotSamples (s : State) (n l : Nat) : List Nat :=
  (List.range ((s.sto n).planes * s.lineWidth n)).map fun i => s.slotSample n l 0 i

/-- The tag flags (bits [56:48] of word 0) in the slot of line `l`. -/
def State.slotFlags (s : State) (n l : Nat) : Nat :=
  bits (ofLe (s.hbm.bytes (s.slotAddr n l + s.slotZ n - 16) 8)) 48 9

/-! Tag flags, as places in bits [56:48] (R186). -/
namespace Tag
def filled : Nat := 1
def skipped : Nat := 2
def clipped : Nat := 4
def alignInc : Nat := 8
def dvtDeg : Nat := 16
def velErr : Nat := 32
def seam : Nat := 64
def seamFail : Nat := 128
def eccLost : Nat := 256
end Tag

/-! ### Readers and the release line (R189 to R192) -/

def State.wp (s : State) (n : Nat) : Nat := s.get R.SST_ST_WP n
def State.relLine (s : State) (n : Nat) : Nat := s.get R.SST_ST_U n

/-- The lines of the valid host marks (R190). -/
def State.markLines (s : State) (n : Nat) : List Nat :=
  ((s.sto n).marks.filter fun e => s.on R.SST_ST_MARK_VALID n e.1).map (·.2)

/-- The lowest line whose first commit is still to come: a restart commits again only lines below R. -/
def State.firstFree (s : State) (n : Nat) : Nat :=
  if (s.sto n).restart then max (s.lst n).next (s.get R.SST_ST_REW_R n) else (s.lst n).next

/-- Restart mark + A_s (R191, R192). -/
def State.restartHold (s : State) (n : Nat) : Option Nat :=
  if ¬ s.isSheet n then none
  else if (s.sto n).restart then some (s.get R.SST_ST_REW_M n + s.span n)
  else if s.stState n = St.scanning then some ((s.lst n).next - 16)
  else none

/-- Everything that holds lines (R192, R319). -/
def State.holders (s : State) (n : Nat) : List Nat :=
  let x := s.sto n
  x.queues.map (·.2) ++ x.products.map (·.2) ++
    (if s.on R.SST_ST_HOST_CTRL_EN n then [s.get R.SST_ST_HOST_RP n] else []) ++
    s.markLines n ++ (s.restartHold n).toList ++ x.reloadMark.toList

/-- The release line (R192). -/
def State.release (s : State) (n : Nat) : Nat := max (s.w0 n) ((s.holders n).foldl min (s.wp n))

/-! ### The page books (R207, R208) -/

/-- Pages touched by slots `a` to `a + c - 1` of a station, cyclic, as closed intervals of region pages. -/
def State.slotPages (s : State) (n a c : Nat) : List (Nat × Nat) :=
  let z := s.slotZ n
  let k := s.capK n
  let base := s.get R.SST_ST_REGION_BASE_PAGE n
  if c = 0 ∨ z = 0 ∨ k = 0 then []
  else if a + c ≤ k then [(base + z * a / 65536, base + (z * (a + c) - 1) / 65536)]
  else [(base + z * a / 65536, base + (z * k - 1) / 65536), (base, base + (z * (a + c - k) - 1) / 65536)]

/-- Insert an interval by its start. -/
def insertIv (x : Nat × Nat) : List (Nat × Nat) → List (Nat × Nat)
  | [] => [x]
  | y :: t => if x.1 ≤ y.1 then x :: y :: t else y :: insertIv x t

/-- Pages in a list of intervals sorted by start, `seen` being the first page not yet counted. -/
def countIv (seen : Nat) : List (Nat × Nat) → Nat
  | [] => 0
  | (a, b) :: t =>
    let lo := max a seen
    if b < lo then countIv seen t else (b + 1 - lo) + countIv (b + 1) t

def pageCount (ivs : List (Nat × Nat)) : Nat := countIv 0 (ivs.foldl (fun acc x => insertIv x acc) [])

/-- Pages of a station that hold a retained slot. -/
def State.heldPages (s : State) (n : Nat) : List (Nat × Nat) :=
  if s.stBusy n then s.slotPages n ((s.relLine n - s.w0 n) % max 1 (s.capK n)) (s.wp n - s.relLine n) else []

/-- Pages of a station that hold a seam slot. -/
def State.seamPages (s : State) (n : Nat) : List (Nat × Nat) :=
  (s.sto n).seam.flatMap fun l => s.slotPages n ((l + 16 - s.w0 n) % max 1 (s.capK n)) 1

/-- FREE, HELD and TOTAL follow the slots (R207); WINDOW is 1 while a seam is open (R208). -/
def State.syncPages (s : State) : State :=
  let held := stations8.flatMap s.heldPages
  let seam := stations8.flatMap s.seamPages
  let total := 32768 * s.get R.SST_CFG_STORE
  (((s.set R.SST_AUD_HELD_HELD (pageCount held)).set R.SST_AUD_FREE_FREE (total - pageCount (held ++ seam))).set
    R.SST_AUD_TOTAL_TOTAL total).set R.SST_AUD_STATUS_WINDOW (b2n (stations8.any fun n => (s.sto n).seamOpen))

/-- The page audit (R207, R208): whether it passes or is not made, with FAIL, DIFF and the event when it fails. -/
def State.auditPages (s : State) : Bool × State :=
  if s.on R.SST_AUD_STATUS_WINDOW then (true, s)
  else
    let d : Int := (s.get R.SST_AUD_TOTAL_TOTAL : Int) - (s.get R.SST_AUD_FREE_FREE + s.get R.SST_AUD_HELD_HELD : Nat)
    if d = 0 then (true, s.setS R.SST_AUD_STATUS_DIFF 0)
    else (false, ((s.setS R.SST_AUD_STATUS_DIFF d).set R.SST_AUD_STATUS_FAIL 1).raise Ev.auditPage)

/-! ### Pacing (R193, R194) -/

/-- The scale of a backlog, in 1/1,024 (R193). -/
def paceScale (b lo stop smin : Nat) : Nat :=
  if b ≤ lo then 1024 else if stop ≤ b then 0 else max smin (1024 * (stop - b) / (stop - lo))

/-- The applied scale min(s, c) (R193, R194); 1 with pacing off. -/
def State.scaleOf (s : State) (n : Nat) : Nat :=
  if s.isSheet n ∧ s.on R.SST_ST_PACE_EN n then
    min (paceScale (s.get R.SST_ST_BACKLOG_B n) (s.get R.SST_ST_THR_LO_LINES n) (s.get R.SST_ST_THR_STOP_LINES n)
      (s.get R.SST_ST_PACE_SMIN n)) (64 * s.get R.SST_ST_SCALE_CAP n)
  else 1024

/-! ### Lamp-sync groups (R413, R424) -/

def State.grp (s : State) (g : Nat) : Grp := SMap.get s.ilc.grp {} g
def State.setGrp (s : State) (g : Nat) (x : Grp) : State :=
  { s with ilc := { s.ilc with grp := SMap.put s.ilc.grp {} g x } }
def State.chan (s : State) (c : Nat) : Chan := SMap.get s.ilc.chan {} c
def State.setChan (s : State) (c : Nat) (x : Chan) : State :=
  { s with ilc := { s.ilc with chan := SMap.put s.ilc.chan {} c x } }

/-- The lamp-sync groups. -/
def groups8 : List Nat := List.range 8
def channels96 : List Nat := List.range 96

def State.grpStation (s : State) (g : Nat) : Nat := s.get R.ILC_GRP_CTRL_STATION g
/-- The enabled groups of a station (R413). -/
def State.groupsOf (s : State) (n : Nat) : List Nat :=
  groups8.filter fun g => s.on R.ILC_GRP_CTRL_EN g && decide (s.grpStation g = n)
/-- The channels of a group. -/
def State.channelsOf (s : State) (g : Nat) : List Nat := channels96.filter fun c => s.get R.ILC_STR_CFG_GROUP c = g

/-- HELD: the inactive bank is held for a sheet-class station until its restart mark has passed H (R424). -/
def State.bankHeld (s : State) (g : Nat) : Bool :=
  match (s.grp g).uses with
  | u :: _ :: _ =>
    let n := s.grpStation g
    s.isSheet n && match s.restartHold n with
      | some m => decide (m ≤ u.h + s.span n)
      | none => false
  | _ => false

/-- HELD follows (R424). -/
def State.syncBank (s : State) (g : Nat) : State := s.set R.ILC_GRP_BANK_HELD (b2n (s.bankHeld g)) g

/-- HELD of the groups of a station follows its restart mark (R424). -/
def State.syncBanks (s : State) (n : Nat) : State := s.each (groups8.filter fun g => s.grpStation g = n) State.syncBank

/-- U, the backlog, the applied scale, the page books and the banks held follow the pointers. -/
def State.syncStore (s : State) (n : Nat) : State :=
  let u := s.release n
  let s1 := (s.set R.SST_ST_U u n).setSat R.SST_ST_BACKLOG_B (s.wp n - u) n
  ((s1.set R.SST_ST_SCALE_SCALE (s1.scaleOf n) n).syncPages).syncBanks n

/-- The station paces an axis. -/
def State.paced (s : State) (n : Nat) : Bool := s.isSheet n && s.on R.SST_ST_PACE_EN n

def State.paceAxis (s : State) (n : Nat) : Nat := s.get R.SST_ST_PACE_AXIS n

/-- Scales go to the axis in this state (R193). -/
def State.scaleSends (s : State) (n : Nat) : Bool :=
  s.paced n &&
    (decide (s.stState n = St.armed) || decide (s.stState n = St.scanning) ||
      (decide (s.stState n = St.draining) && (s.station n).fromScan)) &&
    !(s.sto n).stopped

/-- Send the applied scale to the axis (R193). -/
def State.sendScale (s : State) (n : Nat) : State :=
  if s.scaleSends n then
    let s1 := s.axisScale n (s.paceAxis n) (s.get R.SST_ST_SCALE_SCALE n)
    s1.setSto n { s1.sto n with sinceScale := 0 }
  else s

/-! ### Station states -/

/-- Enter a station state (R525): a change raises the event, the device state follows, and a paced axis gets the
applied scale (R193). Leaving SCANNING ends a capture (R147). -/
def State.enterSt (s : State) (n st : Nat) : State :=
  if s.stState n = st then s
  else
    let s0 := if s.stState n = St.scanning then s.endCaptureOf n else s
    ((((((s0.set R.SMC_ST_STATE_STATE st n).set R.LTU_ST_STATUS_TRIGGERING (b2n (st = St.scanning)) n).raise (Ev.stationState n)).syncDev).syncStore n).syncPaced).sendScale n

/-! ### Stops (R195, R196) -/

/-- The station is stopped from instant `t`: seal latency does not count the time (R334). -/
def State.noteStop (s : State) (n : Nat) (t : Int) : State :=
  let x := s.sealOf n
  if x.stopAt.isSome then s else s.setSeal n { x with stopAt := some t }

/-- The stop ends at instant `t`. -/
def State.endStop (s : State) (n : Nat) (t : Int) : State :=
  let x := s.sealOf n
  match x.stopAt with
  | some a => s.setSeal n { x with stopAt := none, stopTime := x.stopTime + (t - a) }
  | none => s

/-- An instant less the time the station has been stopped until then (R334). -/
def State.runTime (s : State) (n : Nat) (t : Int) : Int :=
  let x := s.sealOf n
  t - x.stopTime - (match x.stopAt with
    | some a => t - a
    | none => 0)

/-- Fix R and M and show the stop (R196, steps 1 and 2): the station enters PAUSED from SCANNING, and the axis gets
scale 0. An open restart whose line R is unstored keeps R and M; an open seam check is abandoned (R198). -/
def State.stopStation (s : State) (n : Nat) (t : Int) : State :=
  let x := s.sto n
  if s.stState n = St.scanning then
    let r := if x.restart then s.get R.SST_ST_REW_R n else (s.lst n).next
    let m := if x.restart then s.get R.SST_ST_REW_M n else max (s.w0 n) (r - s.span n - 16)
    let s1 := ((s.set R.SST_ST_REW_R r n).set R.SST_ST_REW_M m n).set R.SST_ST_REW_STATUS_PHASE 1 n
    let s2 := s1.setSto n { x with stopped := true, restart := true, mTriggered := false, seam := [], seamOpen := false, seamEnded := false }
    let s3 := (s2.enterSt n St.paused).noteStop n t
    if s3.paced n then s3.axisScale n (s3.paceAxis n) 0 else s3
  else if s.stState n = St.rewinding ∧ s.get R.SST_ST_REW_STATUS_PHASE n = 4 then
    let s1 := s.setSto n { x with stopped := true }
    if s1.paced n then s1.axisStop (s1.paceAxis n) else s1
  else s

/-- A sheet-class station stops when its backlog reaches STOP or its deficit cap reaches 0 (R195, R198), but not after a fault of
its paced axis (R474). -/
def State.checkStop (s : State) (n : Nat) (t : Int) : State :=
  let hit := decide (s.get R.SST_ST_THR_STOP_LINES n ≤ s.get R.SST_ST_BACKLOG_B n) || decide (s.get R.SST_ST_SCALE_CAP n = 0)
  if s.isSheet n ∧ hit ∧ ¬ (s.sto n).stopped ∧ (s.station n).axisDown = false then s.stopStation n t else s

/-- A restart fails (R197). A station that an axis fault met in PAUSED stays there (R474). -/
def State.rewindFail (s : State) (n : Nat) (c : Status) : State :=
  let s1 := (((s.set R.SST_ST_REW_STATUS_PHASE 7 n).set R.SST_ST_REW_STATUS_FAIL 1 n).set
    R.SST_ST_REW_STATUS_LAST_STATUS c.code n).raise (Ev.rewindFailed n)
  let s2 := if s1.stState n = St.paused ∧ (s1.station n).axisDown = false then s1.enterSt n St.rewinding else s1
  if s2.paced n ∧ s2.axReady (s2.paceAxis n) = true then s2.axisStop (s2.paceAxis n) else s2

/-! ### Shedding and overrun (R203 to R205) -/

/-- The first line of the band after that of line `l`. -/
def State.nextBand (s : State) (n l : Nat) : Nat := bandStart (bandOf l (s.bandExp n) + 1) (s.bandExp n)

/-- The queue a product writes to. -/
def State.prodQueue (s : State) (q : Nat) : Nat := s.get R.PCP_DEC_QUEUE_QUEUE q

/-- Drop the item a writer presents, when the queue has taken none of its words. -/
def State.dropUntouched (s : State) (q : Nat) : State :=
  if s.on R.QMX_Q_STATUS_WR_OPEN q then s else s.setQueue q { s.queue q with present := [] }

/-- Put a product's pointer; it has not begun the band there. A frame of which its queue has taken nothing is dropped (R205). -/
def State.moveProduct (s : State) (n q l : Nat) : State :=
  let s0 := if (s.prod q).wait then (s.dropUntouched (s.prodQueue q)).setProd q { s.prod q with wait := false } else s
  let x := s0.sto n
  s0.setSto n { x with products := SMap.insert x.products q l, prodBegun := x.prodBegun.filter (· ≠ q),
                       shedAhead := SMap.put x.shedAhead 0 q 0 }

/-- A product has begun the band of its pointer: it has read a line of it (R203). -/
def State.prodStarted (s : State) (n q : Nat) : Bool := (s.sto n).prodBegun.contains q || (s.prod q).wait

/-- The line at which a product stands once the bands shed beyond the band it has begun are passed over (R203). -/
def State.prodFrom (s : State) (n q : Nat) : Nat :=
  let x := s.sto n
  let p := SMap.get x.products (s.wp n) q
  let a := SMap.get x.shedAhead 0 q
  if a = 0 then p else bandStart (bandOf p (s.bandExp n) + 1 + a) (s.bandExp n)

/-- The first line of the oldest band a product has not begun, once the band has begun to be stored (R203). -/
def State.shedBand (s : State) (n q : Nat) : Option Nat :=
  let x := s.sto n
  match SMap.find? x.products q with
  | none => none
  | some p =>
    let l := if s.prodStarted n q ∧ SMap.get x.shedAhead 0 q = 0 then s.nextBand n p else s.prodFrom n q
    if l < s.wp n then some l else none

/-- Shed one whole band of a product (R203, R204): the pointer moves to the next band, at once or, where the product has
begun an older band, when that band is completed. -/
def State.shed (s : State) (n q : Nat) : State :=
  match s.shedBand n q with
  | none => s
  | some p =>
    let t := s.nextBand n p
    let x := s.sto n
    let s1 := if s.prodStarted n q then
        s.setSto n { x with shedAhead := SMap.put x.shedAhead 0 q (SMap.get x.shedAhead 0 q + 1) }
      else s.moveProduct n q t
    (s1.sstGap n 1 q (s.prodQueue q) p (s.bandLast n (bandOf p (s.bandExp n)))).add R.SST_ST_GAPS_COUNT 1 n

/-- Shed band by band while the lag stays at or above the limit (R203). -/
def State.shedLag (s : State) (n q : Nat) : Nat → State
  | 0 => s
  | f + 1 =>
    let lag := s.wp n - s.prodFrom n q
    if s.get R.SST_ST_SHED_LAG n * 2 ^ s.bandExp n ≤ lag ∧ (s.shedBand n q).isSome then State.shedLag (s.shed n q) n q f
    else s

/-- Shed for every product of a web-class station (R203). -/
def State.shedAll (s : State) (n : Nat) : State :=
  s.each ((s.sto n).products.map (·.1)) fun s q => s.shedLag n q 512

/-- The next product in turn that has a band left to shed (R204). -/
def State.nextShed (s : State) (n : Nat) : Option Nat :=
  let last := (s.sto n).lastProduct
  ((List.range 32).map fun i => (last + 1 + i) % 32).find? fun q => (s.shedBand n q).isSome

/-- One band of one product per pace window (R204). -/
def State.shedTurn (s : State) (n : Nat) : State :=
  match s.nextShed n with
  | none => s
  | some q =>
    let s1 := s.shed n q
    (s1.setSto n { s1.sto n with lastProduct := q }).syncStore n

/-- A store read queue's pointer moves under R205 step 4; a band it had begun and not ended is closed with a VOID item (R257). An
item of which the queue has taken nothing is dropped. -/
def State.passQueue (s : State) (n q p : Nat) : State :=
  let x := s.sto n
  let t := s.nextBand n p
  let last := s.bandLast n (bandOf p (s.bandExp n))
  let l := SMap.get x.queues 0 q
  let offered := x.offered.contains q
  let untouched := offered && !(s.queue q).present.isEmpty && !s.on R.QMX_Q_STATUS_WR_OPEN q
  let taken := offered && !untouched
  let s0 := if untouched then s.dropUntouched q else s
  let s1 := if (x.begun.contains q || taken) && !(taken && decide (l + 1 = s.nextBand n l)) then
      s0.presentItem q [wrap48 (s.bandLast n (bandOf l (s.bandExp n))) + 2 ^ 57 + 2 ^ 58]
    else s0
  let y := s1.sto n
  let s2 := s1.setSto n { y with queues := SMap.insert y.queues q t, begun := y.begun.filter (· ≠ q),
                                 offered := y.offered.filter (· ≠ q) }
  ((s2.sstGap n 3 0x3F q l last).add R.SST_ST_OVERRUN_COUNT (last + 1 - l) n).raise (Ev.storeOverrun n)

/-- The reload mark moves under R205 step 4, as a store read queue pointer does (R319). -/
def State.passReload (s : State) (n l h : Nat) : State :=
  let last := s.bandLast n (bandOf l (s.bandExp n))
  let s1 := s.setSto n { s.sto n with reloadMark := some (s.nextBand n l) }
  ((s1.sstGap n 3 0x3F 0x3FFFF h last).add R.SST_ST_OVERRUN_COUNT (last + 1 - h) n).raise (Ev.storeOverrun n)

/-- The writer needs the slot of retained line `l` (R205). -/
def State.overrun (s : State) (n l : Nat) : State :=
  let s1 := s.each (s.sto n).marks fun s e =>
    if s.on R.SST_ST_MARK_VALID n e.1 ∧ e.2 ≤ l then (s.set R.SST_ST_MARK_VALID 0 n e.1).raise (Ev.markOvertaken n)
    else s
  let last := s.bandLast n (bandOf l (s.bandExp n))
  let rp := s1.get R.SST_ST_HOST_RP n
  let s2 := if s1.on R.SST_ST_HOST_CTRL_EN n ∧ rp ≤ l then
      (s1.set R.SST_ST_HOST_RP (s1.nextBand n l) n).sstGap n 2 0x3F 0x3FFFF rp last
    else s1
  let s3 := s2.each (s2.sto n).products fun s q =>
    if q.2 ≤ l then
      ((s.moveProduct n q.1 (max (s.nextBand n l) (s.prodFrom n q.1))).sstGap n 1 q.1 (s.prodQueue q.1) q.2 last).add
        R.SST_ST_GAPS_COUNT 1 n
    else s
  let s4 := s3.each (s3.sto n).queues fun s q => if q.2 ≤ l then s.passQueue n q.1 l else s
  let s5 := match (s4.sto n).reloadMark with
    | some h => if h ≤ l then s4.passReload n l h else s4
    | none => s4
  s5.syncStore n

end Sys2Proof.Machine
end

