-- ==== Sys2Proof/Machine/SealOps.lean ====
section
/-! DEFINITION. The seal (spec/12): local seal conditions, audits and freezes, latency and snapshots. -/

namespace Sys2Proof.Machine

/-! ### Local seal (R324, R325) -/

/-- The next band to be locally sealed. -/
def State.nextLocal (s : State) (n : Nat) : Nat :=
  if (s.sealOf n).localValid then s.get R.SCU_SEAL_ST_LOCAL_BAND n + 1 else bandOf (s.w0 n) (s.bandExp n)

/-- Whether a band of the station exists: it begins at or below F once F is fixed (R324, R331). -/
def State.bandExists (s : State) (n b : Nat) : Bool :=
  match (s.station n).fLine with
  | some f => decide (bandOf f (s.bandExp n) ≥ b) && decide (s.w0 n ≤ f)
  | none => true

/-- Delivered (R325): every head of the station has delivered the last line of the band. -/
def State.delivered (s : State) (n b : Nat) : Bool :=
  (s.station n).heads.all fun p =>
    match (SMap.get s.hlf.head {} p).delivered with
    | some d => decide (s.bandLast n b ≤ d)
    | none => false

/-- Conditioned (R325). -/
def State.conditioned (s : State) (n b : Nat) : Bool :=
  (s.station n).heads.isEmpty ||
    match (SMap.get s.pcp.st {} n).last with
    | some d => decide (s.bandLast n b ≤ d)
    | none => false

/-- Stored (R325): stored with its tag, and no restart open whose line R lies in the band or below. -/
def State.storedBand (s : State) (n b : Nat) : Bool :=
  (s.station n).heads.isEmpty ||
    (decide (s.bandLast n b < s.wp n) &&
      !((s.sto n).restart && decide (bandOf (s.get R.SST_ST_REW_R n) (s.bandExp n) ≤ b)))

/-- Consumed (R325). -/
def State.consumed (s : State) (n b : Nat) : Bool :=
  (s.enginesOf n).isEmpty ||
    match s.engineReport n with
    | some r => decide (b ≤ r)
    | none => false

/-- Band `b` meets R325. -/
def State.meetsLocal (s : State) (n b : Nat) : Bool :=
  s.stBusy n && s.bandExists n b && s.delivered n b && s.conditioned n b && s.storedBand n b && s.consumed n b

/-- A station that spans the ring (spec/13). -/
def State.ringStation (s : State) (n : Nat) : Bool := s.on R.KRU_ST_CTRL_RING n

/-- What holds the next band (SCU_SEAL_ST_STATUS.HELD_BY), once its last line has been triggered. -/
def State.heldBy (s : State) (n : Nat) : Nat :=
  let b := if s.on R.SCU_SEAL_ST_STATUS_VALID n then s.get R.SCU_SEAL_ST_HZN_BAND n + 1
    else bandOf (s.w0 n) (s.bandExp n)
  let passed : Bool := match (s.lst n).last with
    | some l => decide (s.bandLast n b ≤ l.n)
    | none => false
  if ¬ s.stBusy n ∨ ¬ s.bandExists n b ∨ ¬ passed then 0
  else if ¬ s.delivered n b then 1
  else if ¬ s.conditioned n b then 2
  else if ¬ s.storedBand n b then 3
  else if ¬ s.consumed n b then 4
  else if s.ringStation n && !((s.kst n).sealedLate.contains b) then 5
  else if s.on R.SCU_SEAL_ST_STATUS_FROZEN n then 6
  else 0

def State.syncHeld (s : State) (n : Nat) : State := s.set R.SCU_SEAL_ST_STATUS_HELD_BY (s.heldBy n) n

/-! ### Audits (R339 to R341) -/

/-- The conserved quantities, by their bit in SCU_SEAL_AUD. -/
inductive Quantity where
  | credits | slabs | pages | tokens | ring
  deriving DecidableEq, Repr

def Quantity.bit : Quantity → Nat
  | .credits => 0 | .slabs => 1 | .pages => 2 | .tokens => 3 | .ring => 4

/-- Freeze the horizon of a station (R340). -/
def State.freeze (s : State) (n : Nat) : State := (s.set R.SCU_SEAL_ST_STATUS_FROZEN 1 n).syncHeld n

/-- An audit fails (R340): LATCHED and FAILING, and the stations in its scope freeze. The quantity's chapter has raised
its event. -/
def State.auditFail (s : State) (q : Quantity) (scope : List Nat) : State :=
  let b := 2 ^ q.bit
  ((s.set R.SCU_SEAL_AUD_LATCHED (s.get R.SCU_SEAL_AUD_LATCHED ||| b)).set R.SCU_SEAL_AUD_FAILING
    (s.get R.SCU_SEAL_AUD_FAILING ||| b)).each scope State.freeze

/-- An audit passes: its FAILING bit clears (R341). -/
def State.auditPass (s : State) (q : Quantity) : State :=
  let v := s.get R.SCU_SEAL_AUD_FAILING
  s.set R.SCU_SEAL_AUD_FAILING (v - (v &&& 2 ^ q.bit))

/-- An audit's outcome. -/
def State.auditResult (s : State) (q : Quantity) (ok : Bool) (scope : List Nat) : State :=
  if ok then s.auditPass q else s.auditFail q scope

/-- Whether a quantity's latest evaluation failed. -/
def State.failing (s : State) (q : Quantity) : Bool := bit (s.get R.SCU_SEAL_AUD_FAILING) q.bit

/-- The lanes of a head port with `l` lanes. -/
def lanesOfPort (p l : Nat) : List Nat := (List.range l).map fun i => 2 * p + i

/-- A credit audit failed on a lane of the station's heads at its latest evaluation. -/
def State.creditFails (s : State) (n : Nat) : Bool :=
  (s.station n).heads.any fun p =>
    (lanesOfPort p 8).any fun l => decide (l / 2 = p ∨ l < 2 * p + s.get R.HLF_PORT_MODE_LANES p) &&
      (SMap.get s.hlf.lane {} l).auditBad

/-- The stations that span the ring. -/
def State.ringStations (s : State) : List Nat := stations8.filter s.ringStation

/-- A FAILING bit in a station's scope is 1 (R339, R342). -/
def State.scopeFails (s : State) (n : Nat) : Bool :=
  (s.failing .credits && s.creditFails n) || s.failing .slabs || s.failing .pages ||
    (s.failing .tokens && s.scu.tokBad.any fun e => s.engStation e = n) ||
    (s.failing .ring && s.ringStation n)

/-- The page audit at a seal attempt: inside its window it is not made, and its bit stays (R208, R339, R341). -/
def State.sealPages (s : State) : State :=
  if s.on R.SST_AUD_STATUS_WINDOW then s
  else
    let b := s.auditPages
    b.2.auditResult .pages b.1 stations8

/-- The token audit at a seal attempt: every engine that fails freezes its station, and the bit clears once no engine's latest audit
failed; a RELOADING engine is not audited (R263, R340, R341). -/
def State.sealTokens (s : State) : State :=
  let bad := s.tokenBad
  let kept := s.scu.tokBad.filter fun e => s.boundEngines.contains e && decide (s.engState e = Eng.reloading)
  let c := s.auditTokens.2
  let c1 : State := { c with scu := { c.scu with tokBad := bad ++ kept } }
  if bad ≠ [] then c1.auditFail .tokens ((bad.map c1.engStation).eraseDups) else if kept = [] then c1.auditPass .tokens else c1

/-- The audits of a seal attempt (R339): slabs, pages and engine tokens. -/
def State.sealAudits (s : State) : State :=
  let a := s.auditSlabs
  (a.2.auditResult .slabs a.1 stations8).sealPages.sealTokens

/-! ### Snapshots and latency (R334 to R337) -/

/-- Write the snapshot of band `b` (R335). -/
def State.snapshot (s : State) (n b : Nat) : State :=
  let x := s.sealOf n
  let row := SMap.get x.counts (List.replicate 15 0) b
  let s1 := s.each (List.range 15) fun s i => s.add R.SCU_SEAL_ST_SNAP_COUNT (row.getD i 0) n i
  (s1.set R.SCU_SEAL_ST_SNAP_BAND_BAND b n).setSeal n { s1.sealOf n with counts := SMap.erase x.counts b }

/-- The counters of the present snapshot. -/
def State.snapValues (s : State) (n : Nat) : List Nat := (List.range 15).map fun i => s.get R.SCU_SEAL_ST_SNAP_COUNT n i

/-- Nanoseconds from LTU units (78.125 ps), rounded. -/
def unitsToNs (u : Nat) : Nat := roundDiv (u * 625) 8000

/-- The unsealed time of band `b` at instant `t` (R334), in LTU units: since the trigger of its last line, without the
time stopped. -/
def State.sealAge (s : State) (n b : Nat) (t : Int) : Nat :=
  match SMap.find? (s.sealOf n).trig b with
  | some (_, t0) => (s.runTime n t - t0).toNat
  | none => 0

/-- The record of the snapshot of a band (R404). -/
def snapshotBody (b : Nat) (v : List Nat) : List Nat :=
  b % 2 ^ 42 :: (List.range 8).map fun j => v.getD (2 * j) 0 + (if 2 * j + 1 < 15 then v.getD (2 * j + 1) 0 else 0) * 2 ^ 32

end Sys2Proof.Machine
end

