-- ==== Sys2Proof/Machine/LeafOps.lean ====
section
/-! DEFINITION. Shading leaves, FIR leaves and the slots that hold them (R137 to R140, R181). -/

namespace Sys2Proof.Machine

/-- A little-endian value in the leaf and table window. -/
def State.leafLe (s : State) (a n : Nat) : Nat := ofLe (s.leaf.bytes a n)

/-- Write bytes to the leaf and table window. -/
def State.putLeaf (s : State) (a : Nat) (bs : List Nat) : State :=
  { s with leaf := s.leaf.write a bs }

/-! ### Shading leaves -/

/-- Byte address of page `g` of the shading store. -/
def pageAddr (g : Nat) : Nat := 0x2800000 + 4096 * g

def State.leafAddr (s : State) (l : Nat) : Nat := pageAddr (s.get R.PCP_LEAF_BASE_PAGE l)
def State.leafPages (s : State) (l : Nat) : Nat := s.get R.PCP_LEAF_BASE_PAGES l
def State.leafCols (s : State) (l : Nat) : Nat := s.get R.PCP_LEAF_GEOM_COLUMNS l
def State.leafPlanes (s : State) (l : Nat) : Nat := s.get R.PCP_LEAF_GEOM_PLANES l
def State.leafDefects (s : State) (l : Nat) : Nat := s.get R.PCP_LEAF_DEFECTS_COUNT l

/-- Size of a leaf in bytes (R137). -/
def leafSize (c p d : Nat) : Nat := 64 + 4 * c * p + 4 * d

def State.leafBytes (s : State) (l : Nat) : Nat := leafSize (s.leafCols l) (s.leafPlanes l) (s.leafDefects l)

/-- K_REF and W_REF of plane `p` (R137). -/
def State.leafK (s : State) (l p : Nat) : Nat := s.leafLe (s.leafAddr l + 8 * p) 2
def State.leafW (s : State) (l p : Nat) : Nat := s.leafLe (s.leafAddr l + 8 * p + 2) 2
/-- Address of the coefficients of column `c`, plane `p` (R137). -/
def State.coefAddr (s : State) (l p c : Nat) : Nat := s.leafAddr l + 64 + 4 * (p * s.leafCols l + c)
def State.leafB (s : State) (l p c : Nat) : Nat := s.leafLe (s.coefAddr l p c) 2
def State.leafG (s : State) (l p c : Nat) : Nat := s.leafLe (s.coefAddr l p c + 2) 2

/-- The defect entries of a slot, as words (R137). -/
def State.defects (s : State) (l : Nat) : List Nat :=
  (List.range (s.leafDefects l)).map fun i => s.leafLe (s.leafAddr l + 64 + 4 * s.leafCols l * s.leafPlanes l + 4 * i) 4

def defCol (e : Nat) : Nat := bits e 0 18
def defPlane (e : Nat) : Nat := bits e 18 3
def defMethod (e : Nat) : Nat := bits e 21 2
/-- The order of R138. -/
def defKey (e : Nat) : Nat := defPlane e * 2 ^ 18 + defCol e

/-- Strictly ascending numbers. -/
def ascending : List Nat → Bool
  | a :: b :: t => decide (a < b) && ascending (b :: t)
  | _ => true

/-- A leaf slot is in use (R139). -/
def State.slotInUse (s : State) (l : Nat) : Bool :=
  (ports96.any fun p =>
    decide (s.get R.PCP_SHD_HEAD_LEAF_ACTIVE p = l) || decide (s.get R.PCP_SHD_HEAD_LEAF_PENDING p = l) ||
      ((s.phead p).fades.any fun f => f.slot = l)) ||
    (s.capRuns && decide (s.pcp.cap.slot = l))

/-- Two runs of pages meet. -/
def runsMeet (a n b m : Nat) : Bool := decide (n ≠ 0 ∧ m ≠ 0 ∧ a < b + m ∧ b < a + n)

/-- The slots in use. -/
def State.slotsInUse (s : State) : List Nat := (List.range 256).filter s.slotInUse

/-- A page of the shading store belongs to a leaf in use (R140). -/
def State.pageInUse (s : State) (g : Nat) : Bool :=
  s.slotsInUse.any fun l => runsMeet (s.get R.PCP_LEAF_BASE_PAGE l) (s.leafPages l) g 1

/-- A refused write to a leaf (R140): counted, with the leaf-write-refused event. -/
def State.leafRefused (s : State) (w : World) : State :=
  (((s.refuse w .busy (some R.PCP_SHD_STATUS_LAST_STATUS)).add R.PCP_SHD_REFUSED_COUNT 1)).raise Ev.leafRefused

/-- Every page of a slot is in a world (R141). -/
def State.pagesIn (s : State) (l : Nat) (w : World) : Bool :=
  (List.range (s.leafPages l)).all fun i => s.ocWorld (s.get R.PCP_LEAF_BASE_PAGE l + i) = w

/-- A slot's pages lie in the store. -/
def State.pagesFit (s : State) (l : Nat) : Bool := decide (s.get R.PCP_LEAF_BASE_PAGE l + s.leafPages l ≤ 4096)

/-! ### FIR leaves -/

def firAddr (v : Nat) : Nat := 0x3800000 + 128 * v
def State.firTaps (s : State) (v : Nat) : Nat := s.leafLe (firAddr v) 1
def State.firO (s : State) (v : Nat) : Nat := s.leafLe (firAddr v + 1) 1
def State.firTap (s : State) (v k : Nat) : Int := toSigned 16 (s.leafLe (firAddr v + 4 + 2 * k) 2)

/-- A FIR leaf keeps R181. -/
def firGood (taps o : Nat) : Bool := decide (1 ≤ taps ∧ taps ≤ 32 ∧ o < taps)
def State.firOk (s : State) (v : Nat) : Bool := decide (v < 512) && firGood (s.firTaps v) (s.firO v)

/-- A FIR slot is in use (R181). -/
def State.firInUse (s : State) (v : Nat) : Bool :=
  (List.range 32).any fun q =>
    s.on R.PCP_DEC_CTRL_EN q && s.stBusy (s.get R.PCP_DEC_CTRL_STATION q) &&
      (decide (s.get R.PCP_DEC_LEAF_LEAF_X q = v) || decide (s.get R.PCP_DEC_LEAF_LEAF_Y q = v) ||
        (s.on R.PCP_DEC_SWAP_PENDING q && (decide ((s.prod q).pendX = v) || decide ((s.prod q).pendY = v))))

end Sys2Proof.Machine
end

