-- ==== Sys2Proof/Machine/ShadeOps.lean ====
section
/-! DEFINITION. Shading, tracked drift and defective pixels of one head line (R133 to R136, R148 to R160), and the running
capture (R142 to R147). -/

namespace Sys2Proof.Machine

/-! ### The correction (R134) -/

/-- One shaded sample (R134). -/
def shadeSample (x b g delta gain ped : Nat) : Nat :=
  let d : Int := 16 * ((x : Int) - b) - toSigned 16 delta
  (clampI 0 65535 (roundDivI (d * g * gain) (2 ^ 32) + ped)).toNat

/-- How a line is shaded (R155): with one leaf and drift, or mixed of two at position `i` of `f`. -/
inductive ShadeSel where
  | plain (slot : Nat) (delta gain : List Nat)
  | mix (oldSlot : Nat) (oldDelta oldGain : List Nat) (slot : Nat) (delta gain : List Nat) (i f : Nat)
  deriving DecidableEq, Repr

/-- The leaf and drift of line `n`: the fades not yet released are looked at newest first, so that lines triggered again
after a restart are shaded as before (R155, R338). A leaf that follows none takes effect at H with no fade (log 147). -/
def pickShade (n : Nat) : List Fade → Nat → List Nat → List Nat → ShadeSel
  | [], slot, d, g => .plain slot d g
  | x :: xs, slot, d, g =>
    let f := 2 ^ x.log
    if n < x.h then pickShade n xs x.slot x.delta x.gain
    else if x.slot ≠ noSlot ∧ n ≤ x.h + f - 1 then .mix x.slot x.delta x.gain slot d g (n - x.h + 1) f
    else .plain slot d g

/-- The slot whose defect list applies (R159). -/
def ShadeSel.slot : ShadeSel → Nat
  | .plain l _ _ => l
  | .mix _ _ _ l _ _ _ _ => l

/-- Shade one sample of column `c`, plane `p`. -/
def State.shadeAt (s : State) (l p c ped : Nat) (delta gain : List Nat) (x : Nat) : Nat :=
  shadeSample x (s.leafB l p c) (s.leafG l p c) (delta.getD p 0) (gain.getD p 0x4000) ped

def State.shadeWith (s : State) (sel : ShadeSel) (p c ped x : Nat) : Nat :=
  match sel with
  | .plain l d g => s.shadeAt l p c ped d g x
  | .mix l0 d0 g0 l1 d1 g1 i f =>
    roundDiv (s.shadeAt l0 p c ped d0 g0 x * (f - i) + s.shadeAt l1 p c ped d1 g1 x * i) f

/-! ### Defective pixels (R159) -/

/-- The nearest non-defective column within 8 in direction `left`. -/
def nearGood (bad : Nat → Bool) (cols c : Nat) (left : Bool) : Option Nat :=
  ((List.range 8).map (· + 1)).findSome? fun d =>
    if left then (if d ≤ c ∧ bad (c - d) = false then some (c - d) else none)
    else (if c + d < cols ∧ bad (c + d) = false then some (c + d) else none)

/-- The replacement of one defective sample (R159). -/
def replaceDefect (row : Nat → Nat) (bad : Nat → Bool) (cols c method prev : Nat) : Nat :=
  let l := nearGood bad cols c true
  let r := nearGood bad cols c false
  match method with
  | 0 =>
    match l, r with
    | some a, some b => roundDiv (row a * (b - c) + row b * (c - a)) (b - a)
    | some a, none => row a
    | none, some b => row b
    | none, none => prev
  | 1 => (l.map row).getD prev
  | 2 => (r.map row).getD prev
  | _ => prev

/-- Replace the defects of a line `y` of `cols` columns; `prev` is the line before, or none for the first (R159). -/
def replaceLine (defs y : List Nat) (cols ped : Nat) (prev : Option (List Nat)) : List Nat :=
  defs.foldl (fun out e =>
    let p := defPlane e
    let c := defCol e
    let bad (k : Nat) : Bool := defs.any fun d => defPlane d = p ∧ defCol d = k
    let row (k : Nat) : Nat := y.getD (p * cols + k) 0
    let pv := match prev with
      | some q => q.getD (p * cols + c) 0
      | none => ped
    out.set (p * cols + c) (replaceDefect row bad cols c (defMethod e) pv)) y

/-! ### Tracked drift (R148 to R152) -/

/-- The mean of the non-defective columns of a window, as U16.16; none when no column qualifies. -/
def refMean (defs raw : List Nat) (cols p first count : Nat) : Option Nat :=
  let cs := ((List.range count).map (· + first)).filter fun c =>
    decide (c < cols) && !(defs.any fun d => defPlane d = p ∧ defCol d = c)
  if cs.isEmpty then none
  else some (roundDiv (65536 * (cs.foldl (fun a c => a + raw.getD (p * cols + c) 0) 0)) cs.length)

/-- One filter step (R148). -/
def filterStep (f k a : Nat) : Nat := (f + roundDivI ((k : Int) - f) (2 ^ a)).toNat

/-- A value moved toward a target by at most 1 (R150). -/
def stepTo (x t : Int) : Int := if x < t then x + 1 else if t < x then x - 1 else x

/-- δ* and g*, with whether the clamp of each acts (R149); `lim` in percent. W_f − K_f ≤ 0, where g* takes the upper limit, counts as the
clamp of g* acting (DEDUCED, log 146). -/
def driftTargets (kf wf kref wref lim : Nat) : Int × Nat × Bool × Bool :=
  let d0 := roundDivI (16 * ((kf : Int) - 65536 * kref)) 65536
  let d := clampI (-32768) 32767 d0
  let lo := roundDiv (16384 * (100 - lim)) 100
  let hi := roundDiv (16384 * (100 + lim)) 100
  if wf ≤ kf then (d, hi, decide (d ≠ d0), true)
  else
    let g0 := roundDivI (16384 * 65536 * ((wref : Int) - kref)) (wf - kf)
    let g := (clampI lo hi g0).toNat
    (d, g, decide (d ≠ d0), decide ((g : Int) ≠ g0))

/-- δ and g of every plane as PCP_SHD_DRIFT shows them. -/
def State.driftOf (s : State) (p : Nat) : List Nat × List Nat :=
  ((List.range 8).map fun i => s.get R.PCP_SHD_DRIFT_DELTA p i, (List.range 8).map fun i => s.get R.PCP_SHD_DRIFT_GAIN p i)

/-- Set δ and g of plane `i`. -/
def State.setDrift (s : State) (p i d g : Nat) : State := (s.set R.PCP_SHD_DRIFT_DELTA d p i).set R.PCP_SHD_DRIFT_GAIN g p i

/-- Start a leaf's drift state from its own references (R156). -/
def State.restDrift (s : State) (p l : Nat) : State :=
  let x := s.phead p
  let ds := (List.range 8).map fun i => { kf := 65536 * s.leafK l i, wf := 65536 * s.leafW l i : Drift }
  (s.setPhead p { x with drift := ds }).each (List.range 8) fun s i => s.setDrift p i 0 0x4000

/-- The clamps of a plane acted before (`d`) and act now (`e`): ALARM, and the event once for each that begins to act (R149). -/
def State.noteClamps (s : State) (p : Nat) (d e : Drift) : State :=
  let s1 := if e.clampD || e.clampG then s.set R.PCP_SHD_TRK_CTRL_ALARM 1 p else s
  let s2 := if e.clampD && !d.clampD then s1.raise Ev.driftAlarm else s1
  if e.clampG && !d.clampG then s2.raise Ev.driftAlarm else s2

/-- The drift of plane `i` of head `p` after a line with raw samples `raw`, with the leaf in slot `l`; the filters stand still when
`still` (R148 to R150). -/
def State.trackPlane (s : State) (p l i : Nat) (still : Bool) (raw : List Nat) : State :=
  let y := s.phead p
  let d := y.drift.getD i {}
  let cols := s.headCols p
  let defs := s.defects l
  let a := s.get R.PCP_SHD_TRK_CTRL_A p
  let k := refMean defs raw cols i (s.get R.PCP_SHD_TRK_DARK_FIRST p) (s.get R.PCP_SHD_TRK_DARK_COUNT p)
  let w := refMean defs raw cols i (s.get R.PCP_SHD_TRK_WHITE_FIRST p) (s.get R.PCP_SHD_TRK_WHITE_COUNT p)
  let kf := if still then d.kf else match k with
    | some v => filterStep d.kf v a
    | none => 65536 * s.leafK l i
  let wf := if still then d.wf else match w with
    | some v => filterStep d.wf v a
    | none => 65536 * s.leafW l i
  let t := driftTargets kf wf (s.leafK l i) (s.leafW l i) (s.get R.PCP_SHD_TRK_CTRL_LIM p)
  let dn := stepTo (toSigned 16 (s.get R.PCP_SHD_DRIFT_DELTA p i)) t.1
  let gn := stepTo (s.get R.PCP_SHD_DRIFT_GAIN p i) t.2.1
  let e : Drift := { kf := kf, wf := wf, clampD := t.2.2.1, clampG := t.2.2.2 }
  ((s.setDrift p i (ofSigned 16 dn) gn.toNat).setPhead p
    { y with drift := (y.drift ++ List.replicate (8 - y.drift.length) ({} : Drift)).set i e }).noteClamps p d e

/-- The filters and the applied values of a sheet-class station are held: PAUSED or REWINDING (R152). -/
def State.driftHeld (s : State) (p : Nat) : Bool :=
  match s.stationOfHead p with
  | some n => s.isSheet n && decide (s.stState n = St.paused ∨ s.stState n = St.rewinding)
  | none => false

/-- The drift state after line `n` of head `p`, whose raw samples are `raw` (R148 to R152). The filters are not updated from a filled
or skipped line (`bad`), nor from a line triggered again that is not above the highest they have used. With EN 0 they stand as they are,
and go on from there (DESIGN CHOICE, log 146). -/
def State.trackDrift (s : State) (n p : Nat) (bad : Bool) (raw : List Nat) : State :=
  let src := s.get R.PCP_SHD_TRK_CTRL_SRC p
  let l := s.get R.PCP_SHD_HEAD_LEAF_ACTIVE p
  let x := s.phead p
  let seen := match x.used with
    | some r => decide (n ≤ r)
    | none => false
  if ¬ s.on R.PCP_SHD_TRK_CTRL_EN p then s.each (List.range 8) fun s i => s.setDrift p i 0 0x4000
  else if l = noSlot ∨ s.driftHeld p then s
  else
    let s1 := if bad then s else s.setPhead p { x with used := some (max n (x.used.getD n)) }
    if src ≠ p then
      s1.each (List.range 8) fun s i =>
        s.setDrift p i (s.get R.PCP_SHD_DRIFT_DELTA src i) (s.get R.PCP_SHD_DRIFT_GAIN src i)
    else s1.each (List.range (s.headPlanes p)) fun s i => s.trackPlane p l i (bad || seen) raw

/-! ### Swaps (R153 to R158) -/

/-- The values applied at the newest line below `h` (R156); those in force when no line was shaded yet. -/
def State.appliedBelow (s : State) (p h : Nat) : List Nat × List Nat :=
  (((s.phead p).applied.find? fun e => e.1 < h).map (·.2)).getD (s.driftOf p)

/-- At the hinge line the pending leaf becomes active and its fade begins (R154 to R156). With no active leaf there is no fade (DESIGN
CHOICE, log 147), and lines below H that are triggered again stay unshaded (R338). -/
def State.beginFade (s : State) (n p : Nat) : State :=
  let pend := s.get R.PCP_SHD_HEAD_LEAF_PENDING p
  let x := s.phead p
  if pend = noSlot ∨ n < x.pendH then s
  else
    let old := s.get R.PCP_SHD_HEAD_LEAF_ACTIVE p
    let h := if x.pendH = 0 then n else x.pendH
    let d := s.appliedBelow p h
    let f : Fade := { slot := old, h := h, log := if old = noSlot then 0 else x.pendLog, delta := d.1, gain := d.2 }
    let s1 := s.setPhead p { x with fades := f :: x.fades }
    let s2 := ((s1.set R.PCP_SHD_HEAD_LEAF_ACTIVE pend p).set R.PCP_SHD_HEAD_LEAF_PENDING noSlot p).set
      R.PCP_SHD_HEAD_LEAF_FROM old p
    ((s2.set R.PCP_SHD_HEAD_LEAF_FADING (b2n (old ≠ noSlot)) p).restDrift p pend).syncSlots [old, pend]

/-- The last line of a fade. -/
def Fade.last (f : Fade) : Nat := f.h + 2 ^ f.log - 1

/-- FADING ends with the last fade line; the fades whose last line has left shading, and in a sheet-class station has
been passed by the restart mark, are released (R155). -/
def State.endFades (s : State) (p : Nat) : State :=
  let x := s.phead p
  let r := x.reached.getD 0
  let passed (f : Fade) : Bool := x.reached.isSome && decide (f.last ≤ r)
  let marked (f : Fade) : Bool :=
    match s.stationOfHead p with
    | some n => !s.isSheet n || (match s.restartHold n with
      | some m => decide (f.last + s.span n < m)
      | none => true)
    | none => true
  let keep := x.fades.filter fun f => !(passed f && marked f)
  let gone := (x.fades.filter fun f => passed f && marked f).map (·.slot)
  let fading := keep.any fun f => !passed f && decide (f.slot ≠ noSlot)
  let s1 := (s.setPhead p { x with fades := keep }).set R.PCP_SHD_HEAD_LEAF_FADING (b2n fading) p
  let s2 := if keep.isEmpty then s1.set R.PCP_SHD_HEAD_LEAF_FROM noSlot p else s1
  s2.syncSlots gone

/-- At station IDLE a fade completes at once and a pending request is dropped (R158). -/
def State.dropSwaps (s : State) (p : Nat) : State :=
  let pend := s.get R.PCP_SHD_HEAD_LEAF_PENDING p
  let gone := (s.phead p).fades.map (·.slot)
  let s1 := s.setPhead p { s.phead p with fades := [], pendH := 0, pendLog := 0 }
  (((s1.set R.PCP_SHD_HEAD_LEAF_FADING 0 p).set R.PCP_SHD_HEAD_LEAF_FROM noSlot p).set
    R.PCP_SHD_HEAD_LEAF_PENDING noSlot p).syncSlots (pend :: gone)

/-! ### One head line -/

/-- The drift that applies to line `n` of a head: its own, or that of its source head for the same line (R150,
R151), which a leaf that becomes active at that line starts afresh (R156). -/
def State.driftFor (s : State) (n p : Nat) : List Nat × List Nat :=
  let src := s.get R.PCP_SHD_TRK_CTRL_SRC p
  if s.on R.PCP_SHD_TRK_CTRL_EN p ∧ src ≠ p then
    match (s.phead src).applied.find? fun e => e.1 = n with
    | some e => e.2
    | none =>
      if s.get R.PCP_SHD_HEAD_LEAF_PENDING src ≠ noSlot ∧ (s.phead src).pendH ≤ n then (List.replicate 8 0, List.replicate 8 0x4000)
      else s.driftOf src
  else s.driftOf p

/-- Conditioned lines that a head keeps: the alignment span, and with it the way from a stop to its match line (R161, R196). -/
def linesKept : Nat := 96

/-- Of a head's lines, newest first, those that are kept: the newest, and line M − 1 of an open restart, which line M follows (R159). -/
def State.keepLines (s : State) (p : Nat) (ls : List PLine) : List PLine :=
  let pinned (q : PLine) : Bool := match s.stationOfHead p with
    | some n => (s.sto n).restart && decide (q.n + 1 = s.get R.SST_ST_REW_M n)
    | none => false
  ls.take linesKept ++ (ls.drop linesKept).filter pinned

/-- Shade and replace one raw head line (steps 1 and 2 of R132). -/
def State.conditionHead (s : State) (p n : Nat) (filled skipped : Bool) (raw : List Nat) : State :=
  let s1 := s.beginFade n p
  let x := s1.phead p
  let l := s1.get R.PCP_SHD_HEAD_LEAF_ACTIVE p
  let ped := s1.get R.PCP_SHD_HEAD_CTRL_PED p
  let cols := s1.headCols p
  let d := s1.driftFor n p
  let older := x.lines.filter fun q => q.n < n
  let y :=
    let sel := pickShade n x.fades l d.1 d.2
    if ¬ s1.on R.PCP_SHD_HEAD_CTRL_EN p ∨ sel.slot = noSlot then raw
    else
      let shaded := raw.mapIdx fun i v => s1.shadeWith sel (i / max 1 cols) (i % max 1 cols) ped v
      replaceLine (s1.defects sel.slot) shaded cols ped (older.head?.map (·.y))
  let s2 := s1.trackDrift n p (filled || skipped) raw
  let z := s2.phead p
  s2.setPhead p { z with lines := s2.keepLines p ({ n := n, filled := filled, skipped := skipped, y := y } :: older),
                         first := some (z.first.getD n), reached := some (max n (z.reached.getD n)),
                         applied := ((n, d) :: z.applied.filter fun e => e.1 < n).take 8,
                         rawGood := if filled then z.rawGood else raw }

/-! ### Captures (R142 to R147) -/

/-- A line of the captured head is counted (R143, R144). -/
def State.captureLine (s : State) (p n : Nat) (bad : Bool) (raw : List Nat) : State :=
  let x := s.pcp.cap
  if ¬ s.capRuns ∨ x.head ≠ p ∨ n < x.startLine then s
  else
    let s1 := s.set R.PCP_CAP_STATUS_STATE 2
    if bad ∨ 2 ^ x.nLog ≤ x.counted then s1
    else
      let y : Capture :=
        if x.counted = 0 then { x with counted := 1, sums := raw, mins := raw, maxs := raw }
        else { x with counted := x.counted + 1, sums := x.sums.zipWith (· + ·) raw, mins := x.mins.zipWith min raw,
                      maxs := x.maxs.zipWith max raw }
      let s2 : State := { s1 with pcp := { s1.pcp with cap := y } }
      if x.counted = 0 then s2.set R.PCP_CAP_WPI n else s2

/-- The column mean as a fraction (R144). -/
def Capture.mean (x : Capture) (i : Nat) : Nat × Nat :=
  if x.rej then (x.sums.getD i 0 - x.mins.getD i 0 - x.maxs.getD i 0, 2 ^ x.nLog - 2)
  else (x.sums.getD i 0, 2 ^ x.nLog)

/-- The mean over the qualifying columns of a window of a plane, rounded; 0 when none qualifies (R145). The mean is over
the counted lines. -/
def Capture.refOf (x : Capture) (defs : List Nat) (cols p : Nat) (w : Nat × Nat) : Option Nat :=
  let cs := ((List.range w.2).map (· + w.1)).filter fun c =>
    decide (c < cols) && !(defs.any fun d => defPlane d = p ∧ defCol d = c)
  if cs.isEmpty then none
  else some (roundDiv (cs.foldl (fun a c => a + x.sums.getD (p * cols + c) 0) 0) (cs.length * 2 ^ x.nLog))

/-- Insert a defect entry in the order of R138. -/
def insertDef (e : Nat) : List Nat → List Nat
  | [] => [e]
  | d :: t => if defKey e < defKey d then e :: d :: t else d :: insertDef e t

/-- The captured leaf is written (R144 to R146). TARGET_W and HOT are read here, when the capture ends, and the columns that this capture
finds defective still count in K_REF and W_REF (DESIGN CHOICE, log 145). -/
def State.writeCapture (s : State) : State :=
  let x := s.pcp.cap
  let l := x.slot
  let cols := s.leafCols l
  let planes := s.leafPlanes l
  let defs := s.defects l
  let tw := s.get R.PCP_CAP_LEVEL_TARGET_W
  let hot := s.get R.PCP_CAP_LEVEL_HOT
  let bOf (i : Nat) : Nat := if x.white then s.leafB l (i / max 1 cols) (i % max 1 cols) else roundDiv (x.mean i).1 (x.mean i).2
  let gOf (i : Nat) : Nat :=
    let m := x.mean i
    let num := bOf i * m.2
    if m.1 ≤ num then 0xFFFF else min 0xFFFF (roundDiv (16384 * tw * m.2) (m.1 - num))
  let s1 := s.each (List.range (cols * planes)) fun t i =>
    let a := s.coefAddr l (i / max 1 cols) (i % max 1 cols)
    if x.white then t.putLeaf (a + 2) (leBytes 2 (gOf i)) else t.putLeaf a (leBytes 2 (bOf i))
  let s2 := s1.each (List.range planes) fun t p =>
    let w := x.refOf defs cols p x.strip
    if x.white then t.putLeaf (s.leafAddr l + 8 * p + 2) (leBytes 2 (w.getD 0))
    else
      let k := if x.dark.2 = 0 then w else x.refOf defs cols p x.dark
      t.putLeaf (s.leafAddr l + 8 * p) (leBytes 2 (k.getD 0))
  let isBad (i : Nat) : Bool :=
    if x.white then decide ((x.mean i).1 * 4 ≤ (4 * bOf i + tw) * (x.mean i).2) else decide (hot < bOf i)
  let cand := if x.auto then (List.range (cols * planes)).filter fun i =>
      isBad i && !(defs.any fun d => defPlane d = i / max 1 cols ∧ defCol d = i % max 1 cols)
    else []
  let room := min (4096 - defs.length) ((4096 * s.leafPages l - leafSize cols planes defs.length) / 4)
  let added := (cand.take room).map fun i => i % max 1 cols + (i / max 1 cols) * 2 ^ 18
  let all := added.foldl (fun acc e => insertDef e acc) defs
  let s3 := s2.putLeaf (s.leafAddr l + 64 + 4 * cols * planes) (all.flatMap (leBytes 4))
  let s4 := (s3.set R.PCP_LEAF_DEFECTS_COUNT all.length l).set R.PCP_CAP_STATUS_NEWDEF added.length
  if room < cand.length then s4.set R.PCP_CAP_STATUS_DEF_OVF 1 else s4

end Sys2Proof.Machine
end

