-- ==== Sys2Proof/Machine/HlfOps.lean ====
section
/-! DEFINITION. Head links (spec/03): lanes, credits, acknowledge and replay, line assembly, training and retrain. -/

open Sys2Proof

namespace Sys2Proof.Machine

def State.lane (s : State) (l : Nat) : Lane := SMap.get s.hlf.lane {} l
def State.setLane (s : State) (l : Nat) (x : Lane) : State :=
  { s with hlf := { s.hlf with lane := SMap.put s.hlf.lane {} l x } }
def State.head (s : State) (p : Nat) : Head := SMap.get s.hlf.head {} p
def State.setHead (s : State) (p : Nat) (x : Head) : State :=
  { s with hlf := { s.hlf with head := SMap.put s.hlf.head {} p x } }

/-! Port states (R90). -/
namespace Port
def down : Nat := 0
def discover : Nat := 1
def switch : Nat := 2
def prbs : Nat := 3
def delay : Nat := 4
def credit : Nat := 5
def active : Nat := 6
def retrain : Nat := 7
def refused : Nat := 8
def failed : Nat := 9
def bonded : Nat := 10
def disabled : Nat := 11
end Port

/-- The head whose lane this is: the primary of the lane's port (R90). -/
def State.headOfLane (s : State) (l : Nat) : Nat := s.get R.HLF_PORT_STATE_PRIMARY (l / 2)

def State.portState (s : State) (p : Nat) : Nat := s.get R.HLF_PORT_STATE_STATE p

/-- The lanes of a head in its negotiated mode. -/
def State.headLanes (s : State) (p : Nat) : List Nat := lanesOfPort p (s.get R.HLF_PORT_MODE_LANES p)

/-- A lane has acknowledge and replay unless it runs version 1.0 or discovery, which are coded in 8b/10b (R62, R78, R81). -/
def State.replays (s : State) (l : Nat) : Bool := !(s.lane l).k8

/-- The lanes a head holds: those of its negotiated mode, or of the candidate under trial. -/
def State.heldLanes (s : State) (p : Nat) : List Nat :=
  match (s.head p).cand with
  | some c => lanesOfPort p c.1
  | none => s.headLanes p

/-! ### Sending (R60, R61, R64 to R66) -/

/-- The line code of blocks on a lane, and the state after them. -/
def State.coded (s : State) (l : Nat) (bs : List LinkBlock) : List Nat × State :=
  let x := s.lane l
  let r := codeBlocks x.k8 x.scr bs
  (r.1, s.setLane l { x with scr := r.2 })

/-- Send a control block on a lane. -/
def State.sendBlock (s : State) (l kind body : Nat) : State :=
  let r := s.coded l [.ctl kind body]
  r.2.emit (.ricel l kind body r.1)

/-- Send a packet on a lane: START, data blocks and END with DBLK and CRC. Downstream packets have no SEQ (R66). -/
def State.sendPacket (s : State) (l hdr : Nat) (data : List Nat) : State :=
  let fin := endBody 0 data.length (packetCrc hdr data)
  let r := s.coded l (packetBlocks hdr data fin)
  r.2.emit (.packet l hdr data fin r.1)

/-- Head at port `p` has samples of its own: it is the first port. -/
def State.isFirstPort (s : State) (p : Nat) : Bool := decide (s.get R.HLF_PORT_STATE_PRIMARY p = p)

/-! ### Block periods -/

/-- Block period of a rate code, in fs (spec/03). -/
def blockFs (rate : Nat) : Nat :=
  if rate = 0 then 25600000 else if rate = 1 then 12800000 else if rate = 2 then 6400000 else 5120000

/-- The block period of a lane's head. -/
def State.laneBlock (s : State) (l : Nat) : Nat := blockFs (s.get R.HLF_PORT_MODE_RATE (s.headOfLane l))

/-- The lead time L in units of 10 ns (R113): from the largest 256 × t_blk + D over the station's lanes, plus 1 µs. -/
def State.leadOf (s : State) (n : Nat) : Nat :=
  let ls := (s.station n).heads.flatMap s.headLanes
  let fs := ls.foldl (fun m l => max m (256 * s.laneBlock l + s.get R.HLF_LANE_STATUS_DELAY l * (s.laneBlock l / 64))) 0
  ceilDiv (fs + 1000000000) 10000000

/-- LEAD follows the delays (R113). -/
def State.syncLead (s : State) (n : Nat) : State := s.set R.LTU_ST_STATUS_LEAD (s.leadOf n) n

/-- The place of an instant in the downstream blocks of a lane, in 1/64 block, less the lane's delay (R82 to R84). -/
def State.placeOf (s : State) (l : Nat) (inst : Int) : Int :=
  let u := s.laneBlock l / 64
  roundDivI ((inst - (s.lane l).epoch) * 78125 - (s.get R.HLF_LANE_STATUS_DELAY l * u : Nat)) u

/-- TARGET and SUB of a place (R82, R83). -/
def targetSub (q : Int) : Nat × Nat := ((q / 64 % 1048576).toNat, (q % 64).toNat)

/-- The downstream block at which a TIMING block goes out (R84): at once, at `now`, or 2^19 blocks ahead of the block of its TARGET,
whichever is later. -/
def State.sendAt (s : State) (l : Nat) (now q : Int) : Nat :=
  (max ((now - (s.lane l).epoch) * 78125 / (s.laneBlock l : Int)) (q / 64 - 524288)).toNat

/-- The place of a waiting TIMING block and the downstream block it goes out at, with the delay D in force (R84, R85). -/
def State.heldAt (s : State) (l : Nat) (x : HeldTiming) : Int × Nat :=
  let q := s.placeOf l x.inst
  (q, s.sendAt l x.since q)

/-- The waiting TIMING blocks of a lane whose downstream block has come by `now` are sent, with the D in force (R84, R85); on a lane that
retrains they are not (R98). -/
def State.sendDue (s : State) (l : Nat) (now : Int) : State :=
  let x := s.lane l
  let due (h : HeldTiming) : Bool := decide (((s.heldAt l h).2 : Int) ≤ max 0 ((now - x.epoch) * 78125 / (s.laneBlock l : Int)))
  let s1 := s.setLane l { x with later := x.later.filter fun h => !due h }
  s1.each (if s.on R.HLF_LANE_STATUS_RETRAINING l then [] else x.later.filter due) fun s h =>
    let p := s.heldAt l h
    let t := targetSub p.1
    let body := timingBody h.kind h.n t.1 t.2
    let r := s.coded l [.ctl Blk.timing body]
    r.2.emit (.timing l p.2 body r.1)

/-- The TIMING blocks of an event at `inst` on every lane of a head that is not retraining, known at `now` (R84, R98): each is sent at
its downstream block, which may lie later. -/
def State.sendTiming (s : State) (p kind n : Nat) (inst now : Int) : State :=
  s.each ((s.headLanes p).filter fun l => !s.on R.HLF_LANE_STATUS_RETRAINING l) fun s l =>
    (s.setLane l { s.lane l with later := (s.lane l).later ++ [{ kind := kind, n := n, inst := inst, since := now }] }).sendDue l now

/-- The TIMING blocks of a head's lanes that are due by `now` are sent. -/
def State.sendHead (s : State) (p : Nat) (now : Int) : State := s.each (s.headLanes p) fun s l => s.sendDue l now

/-! ### Credits (R73 to R77) -/

/-- Add to RETURNED and send a CREDIT block (R74). -/
def State.returnCredits (s : State) (l n : Nat) : State :=
  let s1 := s.add R.HLF_LANE_CREDIT_RETURNED n l
  s1.sendBlock l Blk.credit (creditBody (s1.get R.HLF_LANE_CREDIT_RETURNED l) false 0)

/-- Count a discard on a lane (HLF_LANE_DROP). -/
def State.dropOn (s : State) (l : Nat) : State := s.add R.HLF_LANE_DROP_COUNT 1 l

/-- CREDIT INIT of a lane (R97): RETURNED starts at 0, GRANT is G less the blocks in the buffer. -/
def State.creditInit (s : State) (l : Nat) : State :=
  let s1 := s.set R.HLF_LANE_CREDIT_RETURNED 0 l
  let g := 4096 - s1.get R.HLF_LANE_CREDIT_OCCUPIED l
  let x := s1.lane l
  let exp := if s1.portState (s1.headOfLane l) = Port.credit then 0 else x.exp
  (s1.setLane l { x with exp := exp, nak := false, refused := [], initSent := true, inited := false }).sendBlock l Blk.credit
    (creditBody g true exp)

/-! ### Port states -/

/-- Change a port's state; a change sets CHANGED. A port in DISCOVER sends TRAIN phase 0h on lane 2p over and over (R91). -/
def State.setPort (s : State) (p st : Nat) : State :=
  if s.portState p = st then s
  else
    let s1 := (s.set R.HLF_PORT_STATE_STATE st p).set R.HLF_PORT_STATE_CHANGED 1 p
    if st = Port.discover then s1.emit (.training (2 * p) (trainBody 0 0x21 0) true)
    else if s.portState p = Port.discover then s1.emit (.training (2 * p) (trainBody 0 0x21 0) false)
    else s1

/-- The ports other than the first that a head of `l` lanes covers (R24). -/
def coveredPorts (p l : Nat) : List Nat := (List.range ((l + 1) / 2 - 1)).map fun i => p + 1 + i

/-- The ports a head holds beside its first. -/
def State.bondOf (s : State) (p : Nat) : List Nat := ports96.filter fun q => s.get R.HLF_PORT_STATE_PRIMARY q = p ∧ q ≠ p

/-- The ports a head covers with `l` lanes are BONDED, and name it (R90). -/
def State.bond (s : State) (p l : Nat) : State :=
  s.each (coveredPorts p l) fun s q => (s.setPort q Port.bonded).set R.HLF_PORT_STATE_PRIMARY p q

/-- A head that leaves ACTIVE leaves no port BONDED (R90); its other ports still name it. -/
def State.loosen (s : State) (p : Nat) : State :=
  s.each (s.bondOf p) fun s q => s.setPort q (if s.on R.HLF_PORT_CTRL_EN q then Port.down else Port.disabled)

/-- The other ports of a head are free again (R90). -/
def State.unbond (s : State) (p : Nat) : State :=
  (s.loosen p).each (s.bondOf p) fun s q => s.set R.HLF_PORT_STATE_PRIMARY q q

/-- The request of HLF_CFG_CMD ends with a status. -/
def State.endCfg (s : State) (code : Nat) : State :=
  (({ s with hlf := { s.hlf with cfgReq := none } } : State).set R.HLF_CFG_CMD_BUSY 0).set R.HLF_CFG_CMD_STATUS code

/-- A head leaves ACTIVE: an outstanding request ends with ABSENT (R87), the reading of its configuration space stops, a capture of
the head ends with ABSENT (R147), and its other ports leave BONDED (R90). -/
def State.leaveActive (s : State) (p : Nat) : State :=
  let s1 := match s.hlf.cfgReq with
    | some c => if c.port = p then s.endCfg Status.absent.code else s
    | none => s
  let s2 := (s1.setHead p { s1.head p with reads := [], ask := none }).loosen p
  if s2.capRuns ∧ s2.pcp.cap.head = p then s2.endCapture .absent else s2

/-- Lanes of a head carry no traffic. -/
def State.quietLanes (s : State) (ls : List Nat) : State :=
  s.each ls fun s l =>
    let x := s.lane l
    ((((s.setLane l { exp := x.exp, nextTag := x.nextTag, scr := x.scr }).set
      R.HLF_LANE_STATUS_ACTIVE 0 l).set R.HLF_LANE_STATUS_RETRAINING 0 l).set R.HLF_LANE_AUDIT_RESYNC 0 l).set
      R.HLF_LANE_STATUS_LOCK 0 l

/-- A head comes down to a state in which it is not negotiated. -/
def State.portLeaves (s : State) (p st : Nat) : State :=
  let s1 := if s.portState p = Port.active ∨ s.portState p = Port.retrain then s.leaveActive p else s
  let ls := s1.heldLanes p
  let s2 := s1.quietLanes ls
  let s3 := (s2.each ls fun s l => s.set R.HLF_LANE_CREDIT_OCCUPIED 0 l).unbond p
  let h := s3.head p
  ((((s3.setHead p { h with cand := none, cands := [], tried := 0, modeOk := false, renew := false }).set R.HLF_PORT_MODE_VERSION 0 p).set
    R.HLF_PORT_MODE_LANES 0 p).set R.HLF_PORT_MODE_RATE 0 p).setPort p st

/-- Start discovery (R91). -/
def State.startDiscover (s : State) (p : Nat) : State :=
  let h := s.head p
  (s.setHead p { h with retry := false, cands := [], cand := none, tried := 0, modeOk := false }).setPort p Port.discover

/-- A port that may discover does so once lane 2p holds lock (R90). -/
def State.mayDiscover (s : State) (p : Nat) : Bool :=
  s.on R.HLF_CTRL_EN && s.on R.HLF_PORT_CTRL_EN p && s.on R.HLF_LANE_STATUS_LOCK (2 * p) && s.isFirstPort p

/-- Full renegotiation (R98), of a negotiated head from its present mode. One that runs already starts again and keeps that mode. -/
def State.renegotiate (s : State) (p : Nat) : State :=
  let h := s.head p
  let was := decide (s.portState p = Port.active ∨ s.portState p = Port.retrain) && !h.renew
  let mode := if was then some (s.get R.HLF_PORT_MODE_LANES p, s.get R.HLF_PORT_MODE_RATE p) else h.oldMode
  let s1 := s.portLeaves p (if was || h.renew then Port.retrain else Port.down)
  let s2 := s1.setHead p { s1.head p with renew := was || h.renew, keepMode := was || h.keepMode, oldMode := mode }
  if s2.mayDiscover p then s2.startDiscover p else s2

/-! ### Versions and candidates (R62, R92, R93) -/

/-- The highest version of a CAP that the Citum, the port and LEGACY_EN allow (R92). -/
def pickVersion (vmin vmax limit : Nat) (legacy : Bool) : Option Nat :=
  [0x21, 0x20, 0x10].find? fun v => decide (vmin ≤ v ∧ v ≤ vmax ∧ v ≤ limit) && (v ≠ 0x10 || legacy)

/-- Lane counts of a version, by exponent (R62). -/
def versionLanes (v : Nat) : List Nat := if v = 0x10 then [0, 1] else if v = 0x20 then [0, 1, 2] else [0, 1, 2, 3]
/-- Rate codes of a version (R62). -/
def versionRates (v : Nat) : List Nat := if v = 0x10 then [0] else if v = 0x20 then [1, 2] else [1, 2, 3]

/-- R24: where a head of `l` lanes may stand. -/
def lanesFit (p l : Nat) : Bool := if l = 4 then p % 2 = 0 && p + 2 ≤ 96 else if l = 8 then p % 4 = 0 && p + 4 ≤ 96 else true

/-- Insert a candidate in the order of R93. -/
def insertCand (c : Nat × Nat) : List (Nat × Nat) → List (Nat × Nat)
  | [] => [c]
  | d :: t =>
    let a := c.1 * payloadRate c.2
    let b := d.1 * payloadRate d.2
    if b < a ∨ (a = b ∧ c.2 < d.2) then c :: d :: t else d :: insertCand c t

/-- Every candidate mode of a head (R93), in order. -/
def State.allModes (s : State) (p v lmask rmask : Nat) : List (Nat × Nat) :=
  let all := (versionLanes v).flatMap fun e => (versionRates v).map fun r => (e, r)
  let ok := all.filter fun c =>
    bit lmask c.1 && bit (s.get R.HLF_PORT_CTRL_LANE_LIMIT p) c.1 && bit rmask c.2 &&
      bit (s.get R.HLF_PORT_CTRL_RATE_LIMIT p) c.2 && lanesFit p (2 ^ c.1) &&
      (coveredPorts p (2 ^ c.1)).all fun q => decide (s.portState q = Port.down ∨ s.portState q = Port.disabled)
  ok.foldl (fun acc c => insertCand (2 ^ c.1, c.2) acc) []

/-- The candidate modes of a head (R93): the first 4. -/
def State.candidates (s : State) (p v lmask rmask : Nat) : List (Nat × Nat) := (s.allModes p v lmask rmask).take 4

/-- Fields of the CAP blocks (spec/03). -/
def capField (cap : List Nat) (b lo w : Nat) : Nat := bits (cap.getD b 0) lo w

/-- The deepest depth of a DEPTH mask, as its code (R93). -/
def depthOf (mask : Nat) : Nat := if bit mask 2 then 2 else if bit mask 1 then 1 else 0

/-- The header of MODE: PTYPE, then version, lane count, rate code and depth code. The spec gives MODE no header fields beyond PTYPE
(log 113). -/
def modeHdr (version lanes rate depth : Nat) : Nat :=
  9 + version % 256 * 16 + lanes % 16 * 2 ^ 12 + rate % 4 * 2 ^ 16 + depth % 4 * 2 ^ 18

/-- Try the next candidate, or fail (R93). MODE is sent on lane 2p, in 8b/10b at 3.125 Gbit/s, to which the lanes of a candidate that
failed return (DESIGN CHOICE, log 141). -/
def State.nextCandidate (s : State) (p : Nat) : State :=
  let h := s.head p
  let s0 := (s.unbond p).quietLanes ((h.cand.map fun c => lanesOfPort p c.1).getD [])
  match h.cands with
  | [] => ((s0.setHead p { h with cand := none, renew := false }).set R.HLF_PORT_STATE_LAST_STATUS Status.timeout.code p).setPort
      p Port.failed
  | c :: t =>
    let s1 := s0.setHead p { h with cand := some c, cands := t, tried := h.tried + 1, modeOk := false }
    (s1.setPort p Port.switch).sendPacket (2 * p) (modeHdr h.version c.1 c.2 h.depth) []

/-- A valid CAP in DISCOVER (R92); while the head's station is outside IDLE a renegotiation offers the present mode only (R98). -/
def State.takeCap (s : State) (p : Nat) (cap : List Nat) : State :=
  match pickVersion (capField cap 1 0 8) (capField cap 1 8 8) (s.get R.HLF_PORT_CTRL_VER_MAX p) (s.on R.HLF_CTRL_LEGACY_EN) with
  | none => ((s.setHead p { s.head p with cap := cap, renew := false }).set R.HLF_PORT_STATE_LAST_STATUS Status.version.code p).setPort p
      Port.refused
  | some v =>
    let h := s.head p
    let cs := s.candidates p v (capField cap 1 16 4) (capField cap 1 20 4)
    let cs1 := if h.keepMode ∧ (s.stationOfHead p).any s.stBusy then
        h.oldMode.toList.filter fun c => (s.allModes p v (capField cap 1 16 4) (capField cap 1 20 4)).contains c
      else cs
    (s.setHead p { h with cap := cap, version := v, depth := depthOf (capField cap 1 27 3), cands := cs1, cand := none, tried := 0 }).nextCandidate p

/-- The lanes of the candidate under trial. -/
def State.trialLanes (s : State) (p : Nat) : List Nat := ((s.head p).cand.map fun c => lanesOfPort p c.1).getD []

/-- The head has taken MODE: LINK_CTRL SWITCH, and the other ports it covers are BONDED (R90). `t` is the instant at which
the block counts of the new mode start (R82). -/
def State.switchMode (s : State) (p : Nat) (t : Int) : State :=
  match (s.head p).cand with
  | none => s
  | some c =>
    let s1 := s.setHead p { s.head p with modeOk := true }
    (s1.bond p c.1).each (lanesOfPort p c.1) fun s l =>
      let s1 := (s.set R.HLF_LANE_STATUS_LOCK 0 l).sendBlock l Blk.linkCtrl (linkCtrlBody LinkCode.switch)
      let x := s1.lane l
      s1.setLane l { epoch := t, nextTag := x.nextTag, scr := x.scr, k8 := decide ((s.head p).version = 0x10) }

/-- Send ECHO with a fresh tag (R85). -/
def State.sendEcho (s : State) (l : Nat) : State :=
  let x := s.lane l
  (s.setLane l { x with echo := some (x.nextTag, 0), nextTag := (x.nextTag + 1) % 65536, measured := false }).sendBlock l Blk.echo
    (echoBody x.nextTag 0)

/-- Start the PRBS31 test of a lane (R94): TRAIN phase 2h; the lane is unframed until it relocks. -/
def State.startPrbs (s : State) (l : Nat) : State :=
  ((s.setLane l { s.lane l with prbsUp := none, prbsDown := none, prbs := true }).sendBlock l Blk.train (trainBody 2 0x21 0)).set
    R.HLF_LANE_STATUS_LOCK 0 l

/-- Both ends hold lock at the new mode on every lane: PRBS (R90). -/
def State.checkSwitch (s : State) (p : Nat) : State :=
  let ls := s.trialLanes p
  if s.portState p = Port.switch ∧ ls ≠ [] ∧ ls.all (fun l => (s.lane l).phase4 && s.on R.HLF_LANE_STATUS_LOCK l) then
    (s.setPort p Port.prbs).each ls State.startPrbs
  else s

/-- A lane has relocked after its PRBS31 test, and both directions have reported (R94). -/
def State.prbsOver (s : State) (l : Nat) : Bool :=
  s.on R.HLF_LANE_STATUS_LOCK l && (s.lane l).prbsUp.isSome && (s.lane l).prbsDown.isSome

/-- Every lane has relocked and has its PRBS results: DELAY, or the next candidate (R94). -/
def State.checkPrbs (s : State) (p : Nat) : State :=
  let ls := s.trialLanes p
  let lim := s.get R.HLF_PRBS_CFG_MAX_ERR
  if s.portState p = Port.prbs ∧ ls.all s.prbsOver then
    if ls.all (fun l => decide (((s.lane l).prbsUp.getD 0) ≤ lim ∧ ((s.lane l).prbsDown.getD 0) ≤ lim)) then
      (s.setPort p Port.delay).each ls State.sendEcho
    else s.nextCandidate p
  else s

/-- A retraining lane has passed its PRBS test in both directions and has relocked: ECHO (R96). -/
def State.checkLanePrbs (s : State) (l : Nat) : State :=
  let lim := s.get R.HLF_PRBS_CFG_MAX_ERR
  match (s.lane l).prbsUp, (s.lane l).prbsDown with
  | some a, some b =>
    if s.on R.HLF_LANE_STATUS_RETRAINING l ∧ s.on R.HLF_LANE_STATUS_LOCK l ∧ (s.lane l).prbs ∧ a ≤ lim ∧ b ≤ lim then s.sendEcho l
    else s
  | _, _ => s

/-- D measured on every lane: CREDIT (R90). -/
def State.checkDelay (s : State) (p : Nat) : State :=
  let ls := s.trialLanes p
  if s.portState p = Port.delay ∧ ls.all (fun l => (s.lane l).measured) then
    (s.setPort p Port.credit).each ls State.creditInit
  else s

/-! ### Requests to a head (R86 to R88) -/

/-- The header of CFG_REQ: PTYPE, WRITE, ADDR and TAG. -/
def cfgHdr (write : Bool) (addr tag : Nat) : Nat :=
  8 + b2n write * 16 + (addr - addr % 4) % 2 ^ 24 * 256 + tag % 256 * 2 ^ 32

/-- What the Citum reads of a head's configuration space during bring-up (R88): the CAP blocks, the head temperature and the firmware
digest. -/
def bringUpReads : List Nat :=
  (List.range 8).map (4 * ·) ++ 0x200 :: (List.range 12).map (0x100 + 4 * ·)

/-- A request of either kind to a head is outstanding. -/
def State.headAsked (s : State) (p : Nat) : Bool :=
  (s.head p).ask.isSome || s.hlf.cfgReq.any fun c => decide (c.port = p) && c.sent

/-- Send the next request to a head that has none outstanding (R86): that of HLF_CFG_CMD first, then the reads of bring-up. -/
def State.nextRequest (s : State) (p : Nat) : State :=
  if s.headAsked p then s
  else
    match s.hlf.cfgReq.filter (fun c => c.port = p) with
    | some c =>
      ({ s with hlf := { s.hlf with cfgReq := some { c with sent := true } } } : State).sendPacket (2 * p) (cfgHdr c.write c.addr c.tag)
        [c.data]
    | none =>
      match (s.head p).reads with
      | [] => s
      | a :: r =>
        let tag := s.hlf.nextTag
        let s1 : State := { s with hlf := { s.hlf with nextTag := (tag + 1) % 256 } }
        (s1.setHead p { s1.head p with reads := r, ask := some (tag, a) }).sendPacket (2 * p) (cfgHdr false a tag) [0]

/-- CFG_RESP of a head (R86 to R88): it ends the request of HLF_CFG_CMD or a read of bring-up by its TAG; a stale one ends neither. -/
def State.cfgResponse (s : State) (p tag code data : Nat) : State :=
  match s.hlf.cfgReq.filter (fun c => c.port = p ∧ c.sent ∧ c.tag = tag) with
  | some c => ((if c.write then s else s.set R.HLF_CFG_DATA_DATA data).endCfg code).nextRequest p
  | none =>
    let h := s.head p
    match h.ask.filter (fun a => a.1 = tag) with
    | some a =>
      (s.setHead p { h with ask := none, space := if code = 0 then SMap.insert h.space a.2 data else h.space }).nextRequest p
    | none => s

/-- The firmware digest of a head as its bring-up reads gave it (R88). -/
def State.headDigest (s : State) (p : Nat) : Option (List Nat) :=
  let ws := (List.range 12).map fun i => SMap.find? (s.head p).space (0x100 + 4 * i)
  if ws.all (·.isSome) then some (ws.flatMap fun w => leBytes 4 (w.getD 0)) else none

/-- The port enters ACTIVE (R90): MODE, GEOM and the identity registers are filled. -/
def State.enterActive (s : State) (p : Nat) : State :=
  let h := s.head p
  match h.cand with
  | none => s
  | some c =>
    let s1 := (((s.set R.HLF_PORT_MODE_VERSION h.version p).set R.HLF_PORT_MODE_LANES c.1 p).set R.HLF_PORT_MODE_RATE c.2 p).set
      R.HLF_PORT_MODE_DEPTH h.depth p
    let s2 := (s1.set R.HLF_PORT_GEOM_COLUMNS (capField h.cap 1 32 19) p).set R.HLF_PORT_GEOM_PLANES
      (capField h.cap 1 24 3 + 1) p
    let s3 := (((s2.set R.HLF_PORT_ID_SERIAL (capField h.cap 0 0 64) p).set R.HLF_PORT_FW_FW (capField h.cap 2 32 32) p).set
      R.HLF_PORT_VENDOR_VENDOR (capField h.cap 2 0 16) p).set R.HLF_PORT_VENDOR_MODEL (capField h.cap 2 16 16) p
    let s4 := s3.setHead p { h with renew := false, keepMode := false, oldMode := none, reads := bringUpReads, ask := none, space := [] }
    let s5 := ((s4.set R.HLF_PORT_STATE_LAST_STATUS 0 p).setPort p Port.active).nextRequest p
    match s5.stationOfHead p with
    | some n => s5.syncLead n
    | none => s5

/-- INIT_ACK arrives on a lane that the head holds (R90, R97); any other lane stays idle (R24). -/
def State.initAck (s : State) (l : Nat) : State :=
  let p := s.headOfLane l
  if (s.heldLanes p).contains l then
    let s1 := (((s.setLane l { s.lane l with inited := true, initSent := false, prbs := false }).set R.HLF_LANE_AUDIT_RESYNC 0 l).set
      R.HLF_LANE_STATUS_RETRAINING 0 l).set R.HLF_LANE_STATUS_ACTIVE 1 l
    if s1.portState p = Port.credit ∧ (s1.trialLanes p).all (fun k => (s1.lane k).inited) then s1.enterActive p
    else if s1.portState p = Port.retrain ∧ ¬ (s1.head p).renew then
      (s1.setPort p Port.active).bond p (s1.get R.HLF_PORT_MODE_LANES p)
    else s1
  else s

/-! ### Lane retrain (R96, R97) -/

/-- Whether a lane of a head may retrain (R96): one of its lanes that carries traffic or retrains, in ACTIVE, in RETRAIN
before a renegotiation, or in CREDIT once it has been initialised. -/
def State.mayRetrain (s : State) (p l : Nat) : Bool :=
  (s.heldLanes p).contains l &&
    (decide (s.portState p = Port.active) || decide (s.portState p = Port.retrain) && !(s.head p).renew ||
      decide (s.portState p = Port.credit) && (s.on R.HLF_LANE_STATUS_ACTIVE l || s.on R.HLF_LANE_STATUS_RETRAINING l))

/-- A lane retrains (R96, R97): it has to relock, and the resync window opens; when every lane of the head is retraining the port is
in RETRAIN. `tell` says that this end starts it. -/
def State.retrainLane (s : State) (l : Nat) (tell : Bool) : State :=
  let p := s.headOfLane l
  if s.mayRetrain p l then
    let s0 := if tell then s.sendBlock l Blk.linkCtrl (linkCtrlBody LinkCode.retrain) else s
    let x := s0.lane l
    let s1 := s0.setLane l { x with initSent := false, inited := false, prbsUp := none, prbsDown := none, prbs := false, measured := false,
                                    echo := none, nak := false, refused := [], crcAt := [] }
    let s2 := (((s1.set R.HLF_LANE_STATUS_RETRAINING 1 l).set R.HLF_LANE_STATUS_ACTIVE 0 l).set R.HLF_LANE_AUDIT_RESYNC 1 l).set
      R.HLF_LANE_STATUS_LOCK 0 l
    if (s2.heldLanes p).all (fun k => s2.on R.HLF_LANE_STATUS_RETRAINING k) ∧ s2.portState p = Port.active then
      (s2.leaveActive p).setPort p Port.retrain
    else s2
  else s

/-- A failed credit audit (R76, R340): FAIL, the event, the freeze of the head's station, and a retrain. -/
def State.creditFail (s : State) (l : Nat) : State :=
  let p := s.headOfLane l
  let s1 := ((s.set R.HLF_LANE_AUDIT_FAIL 1 l).raise Ev.auditCredit).setLane l { s.lane l with auditBad := true }
  (s1.auditFail .credits (s1.stationOfHead p).toList).retrainLane l true

/-- Whether any lane's latest credit audit failed (R341). -/
def State.anyCreditBad (s : State) : Bool := s.hlf.lane.any fun e => e.2.auditBad

/-- The credit audit at a CRED_STATUS (R76). -/
def State.creditAudit (s : State) (l held rxRet : Nat) : State :=
  let fl := (s.get R.HLF_LANE_CREDIT_RETURNED l + 65536 - rxRet % 65536) % 65536
  let d : Int := 4096 - (held + fl + s.get R.HLF_LANE_CREDIT_OCCUPIED l : Nat)
  let s1 := (s.set R.HLF_LANE_AUDIT_HELD held l).setS R.HLF_LANE_AUDIT_DIFF d l
  if d = 0 then
    let s2 := s1.setLane l { s1.lane l with auditBad := false }
    if s2.anyCreditBad then s2 else s2.auditPass .credits
  else s1.creditFail l

/-! ### Receiving packets (R65, R66, R79, R81) -/

end Sys2Proof.Machine

namespace Sys2Proof

/-- The data blocks of a packet. -/
def Packet.data (k : Packet) : List Nat := k.words.map (·.toNat)

/-- The cost of a packet in blocks (R73). -/
def Packet.cost (k : Packet) : Nat := k.words.length + 2

def Packet.crcOk (k : Packet) : Bool := decide (Machine.packetCrc k.hdr.toNat k.data = k.crc.toNat)

/-- The data blocks a packet type has (R66): 0 to 128 for PIXEL, 4 for CAP, 1 for CFG_RESP and HEAD_EVENT. -/
def Packet.blocksOk (k : Packet) (type : Nat) : Bool :=
  if type = 0 then decide (k.words.length ≤ 128) else decide (k.words.length = if type = 1 then 4 else 1)

/-- A packet of a type is whole (R65, R66): no block stood inside it, DBLK is right, and the header names the type, with as many data
blocks as the type has. -/
def Packet.formOk (k : Packet) (type : Nat) : Bool :=
  !k.broken && decide (k.dblk.toNat = k.words.length) && decide (Machine.bits k.hdr.toNat 0 4 = type) && k.blocksOk type

end Sys2Proof

namespace Sys2Proof.Machine

/-- A NAK with the last SEQ accepted (R79). -/
def State.sendNak (s : State) (l : Nat) : State :=
  let x := s.lane l
  ((s.setLane l { x with nak := true }).add R.HLF_LANE_REPLAY_COUNT 1 l).sendBlock l Blk.ack (ackBody (x.exp + 255) true)

/-- A packet whose form or CRC fails is counted; more than CRC_LIMIT CRC errors in 2^20 blocks retrain the lane (R96). -/
def State.countBad (s : State) (l type : Nat) (k : Packet) : State :=
  if ¬ k.formOk type then s.dropOn l
  else
    let x := s.lane l
    let at_ := k.blk :: x.crcAt.filter fun b => k.blk < b + 1048576
    let s1 := (s.add R.HLF_LANE_CRC_COUNT 1 l).setLane l { x with crcAt := at_ }
    if s.get R.HLF_TIMER_CFG_CRC_LIMIT < at_.length then s1.retrainLane l true else s1

/-- A SEQ of a lane is refused; four refusals in a row retrain it (R80). -/
def State.refuseSeq (s : State) (l seq : Nat) : State :=
  let x := s.lane l
  let k := (SMap.find? x.refused seq).getD 0 + 1
  let s1 := s.setLane l { x with refused := SMap.insert x.refused seq k }
  if 4 ≤ k then s1.retrainLane l true else s1

/-- Whether a packet of a type is accepted, with acknowledge and replay (R79 to R81); a discarded packet's credits are returned
(R74). -/
def State.receive (s : State) (l type : Nat) (k : Packet) : Bool × State :=
  let ok := k.formOk type && k.crcOk
  let s1 := if ok then s else s.countBad l type k
  if ¬ s.replays l then
    if ok then (true, s1) else (false, s1.returnCredits l k.cost)
  else
    let x := s1.lane l
    if k.seq.toNat = x.exp then
      if ok then
        (true, (s1.setLane l { x with exp := (x.exp + 1) % 256, nak := false, refused := SMap.erase x.refused x.exp }).sendBlock l Blk.ack
          (ackBody x.exp false))
      else
        (false, (((s1.setLane l { x with nak := false }).sendNak l).returnCredits l k.cost).refuseSeq l x.exp)
    else
      let s2 := if x.nak then s1 else s1.sendNak l
      (false, (s2.returnCredits l k.cost).refuseSeq l k.seq.toNat)

/-- A packet of a type arrives on a lane. One on a lane that does not carry traffic is discarded with its credits returned, unless
CREDIT INIT has been sent: that block has the head give up what it started (R74, R97). One that a full buffer cannot hold is discarded
and fails the audit (R77). -/
def State.packetIn (s : State) (l type : Nat) (k : Packet) : Bool × State :=
  if ¬ s.on R.HLF_LANE_STATUS_ACTIVE l then
    (false, if s.on R.HLF_LANE_STATUS_LOCK l ∧ (s.lane l).initSent = false then s.returnCredits l k.cost else s)
  else if 4096 < s.get R.HLF_LANE_CREDIT_OCCUPIED l + k.cost then (false, ((s.dropOn l).returnCredits l k.cost).creditFail l)
  else s.receive l type k

/-! ### Line assembly (R67 to R72) -/

/-- The line a WPI16 names (R69). -/
def State.extendWpi (s : State) (n w : Nat) : Option Nat :=
  match (s.lst n).last with
  | none => none
  | some l =>
    let d := (l.n + 65536 - w % 65536) % 65536
    if d ≤ l.n then some (l.n - d) else none

/-- Samples of data blocks, four a block (R67). -/
def blockSamples (words : List Nat) (count : Nat) : List Nat :=
  (List.range count).map fun i => bits (words.getD (i / 4) 0) (16 * (i % 4)) 16

/-- Clear the low bits of samples of a depth code (R67). -/
def clearDepth (code x : Nat) : Nat := let d := if code = 0 then 16 else if code = 1 then 4 else 1; if code = 2 then x else x - x % d

/-- Key of a sample under assembly. -/
def pixKey (pl c : Nat) : Nat := pl * 262144 + c

/-- The head's line under assembly. -/
def State.headLine (s : State) (p n : Nat) : HeadLine := SMap.get (s.head p).lines {} n
def State.setHeadLine (s : State) (p n : Nat) (x : HeadLine) : State :=
  let h := s.head p
  s.setHead p { h with lines := SMap.put h.lines {} n x }

/-- The item of a line in the head ingress queue: WPI with FILLED at bit 48 and SKIPPED at bit 49, then the samples, four
a word, plane after plane. -/
def ingressItem (n : Nat) (filled skipped : Bool) (samples : List Nat) : List Nat :=
  (wrap48 n + b2n filled * 2 ^ 48 + b2n skipped * 2 ^ 49) ::
    (List.range ((samples.length + 3) / 4)).map fun j =>
      (List.range 4).foldl (fun acc i => acc + samples.getD (4 * j + i) 0 * 2 ^ (16 * i)) 0

/-- Hand on the lines that are ready, in line order (R70, R72), `f` at most. -/
def State.handOn (s : State) (p : Nat) : Nat → State
  | 0 => s
  | f + 1 =>
    let h := s.head p
    match (s.headLine p h.next).ready with
    | none => s
    | some (filled, skipped, ys) =>
      let s1 := s.setHead p { h with next := h.next + 1, delivered := some (max h.next (h.delivered.getD 0)),
                                     lines := SMap.put h.lines {} h.next {} }
      State.handOn (s1.presentItem p (ingressItem h.next filled skipped ys)) p f

/-- A line of a head is complete, and is then the last that needed no fill (R71), or filled; it goes to the ingress queue in its turn. A station in IDLE discards it
(R530). -/
def State.lineReady (s : State) (p n : Nat) (filled skipped : Bool) (ys : List Nat) : State :=
  let busy : Bool := match s.stationOfHead p with
    | some st => s.stBusy st
    | none => false
  let s1 := if filled then s else s.setHead p { s.head p with good := ys }
  if busy then
    (s1.setHeadLine p n { closed := true, ready := some (filled, skipped, ys) }).handOn p ((s1.head p).lines.length + 2)
  else s1.setHeadLine p n { closed := true }

/-- The samples received so far of a line, the missing ones with the fill value (R71). -/
def State.filledSamples (s : State) (p n : Nat) : List Nat :=
  let x := s.headLine p n
  let cols := s.headCols p
  (List.range (cols * s.headPlanes p)).map fun i =>
    match SMap.find? x.got (pixKey (i / max 1 cols) (i % max 1 cols)) with
    | some v => v
    | none => (s.head p).good.getD i 0

/-- Fill a line of a head and hand it on (R71, R124). -/
def State.fillLine (s : State) (p n : Nat) (skipped : Bool) : State :=
  let s1 := s.lineReady p n true skipped (s.filledSamples p n)
  if skipped then s1 else s1.raise (Ev.lineFill p)

/-- Every plane of a line is complete (R70). -/
def State.assembled (s : State) (p n : Nat) : Bool :=
  let x := s.headLine p n
  (List.range (s.headPlanes p)).all fun pl => x.lastSeen.contains pl &&
    (List.range (s.headCols p)).all fun c => (SMap.find? x.got (pixKey pl c)).isSome

/-- The head's line as a packet that arrives at `t` finds it: a line triggered again is fresh from its LINE timing instant on (R68). -/
def State.lineAt (s : State) (p n : Nat) (t : Int) : HeadLine :=
  let x := s.headLine p n
  match x.opens with
  | some q => if q ≤ t then {} else x
  | none => x

/-- Take one accepted PIXEL packet, which arrived at `t`, into its line (R68 to R71). -/
def State.assemble (s : State) (l p : Nat) (h : PixHdr) (ys : List Nat) (t : Int) : State :=
  match s.stationOfHead p with
  | none => s
  | some st =>
    match s.extendWpi st h.wpi16 with
    | none => s.dropOn l
    | some n =>
      let x := s.lineAt p n t
      let bad := decide (s.headPlanes p ≤ h.plane) || decide (512 < h.count) || decide (s.headCols p < h.col + h.count) ||
        (h.lost && decide (h.count ≠ 0)) || x.closed || decide (n < (s.head p).next) ||
        ((List.range h.count).any fun i => (SMap.find? x.got (pixKey h.plane (h.col + i))).isSome)
      if bad then s.dropOn l
      else if h.lost then s.fillLine p n false
      else
        let d := s.get R.HLF_PORT_MODE_DEPTH p
        let got := (List.range h.count).foldl (fun m i =>
          SMap.insert m (pixKey h.plane (h.col + i)) (clearDepth d (ys.getD i 0))) x.got
        let s1 := s.setHeadLine p n { x with got := got, lastSeen := if h.last then h.plane :: x.lastSeen else x.lastSeen }
        if s1.assembled p n then s1.lineReady p n false false (s1.filledSamples p n) else s1

/-- Packets leave a lane's buffer while the head's ingress queue takes words; their credits are returned (R74). -/
def State.drainLane (s : State) (l : Nat) : Nat → State
  | 0 => s
  | f + 1 =>
    let p := s.headOfLane l
    match (s.lane l).buf with
    | [] => s
    | b :: bs =>
      if (s.queue p).present.isEmpty then
        let s1 := (s.setLane l { s.lane l with buf := bs }).sub R.HLF_LANE_CREDIT_OCCUPIED b.cost l
        State.drainLane ((s1.returnCredits l b.cost).assemble l p b.hdr b.samples b.time) l f
      else s

/-- Let the buffers of a head's lanes drain. -/
def State.drainHead (s : State) (p : Nat) : State :=
  s.each (s.headLanes p) fun s l => s.drainLane l ((s.lane l).buf.length)

/-- The PIXEL header (spec/03). -/
def pixHdr (h : Nat) : PixHdr :=
  { plane := bits h 4 3, last := bit h 7, wpi16 := bits h 8 16, col := bits h 24 18, count := bits h 42 10, lost := bit h 52 }

/-- A station's heads start a run at line `n` (R69 to R72): after an arm nothing is under assembly. After a restart lines are handed on
from M once more, and what came for them under their earlier triggers counts no longer; each opens at its new trigger (R68). -/
def State.restartHeads (s : State) (st n : Nat) (fresh : Bool) : State :=
  s.each (s.station st).heads fun s p =>
    let h := s.head p
    if fresh then s.setHead p { h with next := n, lines := [], delivered := none, good := [] }
    else
      let old := match (s.lst st).last with
        | some l => l.n + 1
        | none => n
      let s1 := s.setHead p { h with next := min h.next n }
      s1.each ((List.range (old - n)).map (· + n)) fun s i => s.setHeadLine p i { closed := true }

/-- A line is triggered: every head of the station starts an assembly of it. That of a line triggered again opens at its LINE timing
instant `q` (R68, R83). -/
def State.openLine (s : State) (st n : Nat) (q : Int) : State :=
  s.each (s.station st).heads fun s p =>
    s.setHeadLine p n (if (s.headLine p n).closed then { closed := true, opens := some q } else {})

/-- A head's line is complete or filled at its present trigger. -/
def HeadLine.done (x : HeadLine) : Bool := x.closed && x.opens.isNone

end Sys2Proof.Machine
end

