-- ==== Sys2Proof/Machine/IlcOps.lean ====
section
/-! DEFINITION. Illumination (spec/16): banks, ramps, force-off, temperature compensation, the light of a line and string
faults. -/

namespace Sys2Proof.Machine

/-! Illumination event sources (R434). -/
def evStringFault (g : Nat) : Nat := 1344 + g
def evCompHold (g : Nat) : Nat := 1352 + g
def evDiagStarved (g : Nat) : Nat := 1360 + g
def evPatternSwap (g : Nat) : Nat := 1368 + g
def evPatternRefused (g : Nat) : Nat := 1376 + g

/-! ### Banks and ramps (R420 to R425) -/

/-- The bank and hinge that apply to line `n`: the newest whose hinge lies at or below it (R421, R424). -/
def useFor (n : Nat) : List BankUse → BankUse
  | [] => {}
  | [u] => u
  | u :: v :: t => if u.h ≤ n then u else useFor n (v :: t)

/-- Byte address of bank `j` of a group (R420). -/
def bankAddr (g j : Nat) : Nat := 0x3900000 + 0xC000 * (2 * g + j)

/-- The entry of line `n` (R421). -/
def State.patternEntry (s : State) (g : Nat) (u : BankUse) (n : Nat) : Nat :=
  let l := 2 ^ s.get R.ILC_GRP_CTRL_LEN_LOG g
  if s.on R.ILC_GRP_CTRL_MODE g then (n - u.h) / 2 ^ s.get R.ILC_GRP_CTRL_STEP g % l else n % l

/-- The pattern brightness P of channel `c` (R420), above 8000h read as 8000h. -/
def State.patternOf (s : State) (g c : Nat) (u : BankUse) (n : Nat) : Nat :=
  let a := bankAddr g u.bank + 192 * s.patternEntry g u n + 2 * c
  min 0x8000 (ofLe (s.leaf.bytes a 2))

/-- The ramp factor of line `n` (R425). -/
def BankUse.factor (u : BankUse) (n : Nat) : Nat :=
  if u.ramp then
    let len := 2 ^ u.rlen
    ((u.r0 : Int) + roundDivI (((u.r1 : Int) - u.r0) * (min len (n + 1 - u.h) : Nat)) len).toNat
  else 0x8000

/-- At hinge line H the staged bank becomes active (R423). -/
def State.swapBank (s : State) (g n : Nat) : State :=
  let x := s.grp g
  match x.pend with
  | some u =>
    if u.h ≤ n then
      let s1 := s.setGrp g { x with uses := (u :: x.uses).take 3, pend := none }
      ((((s1.set R.ILC_GRP_BANK_ACTIVE u.bank g).set R.ILC_GRP_BANK_PENDING 0 g).raise (evPatternSwap g)).syncBank g)
    else s.syncBank g
  | none => s.syncBank g

/-- At arm bank A is active and H is W_0 (R421), and FORCE_OFF as it stands is in effect (R426). -/
def State.armBanks (s : State) (n w : Nat) : State :=
  s.each (groups8.filter fun g => s.grpStation g = n) fun s g =>
    let off := s.on R.ILC_GRP_CTRL_FORCE_OFF g
    let x : Grp := { s.grp g with uses := [{ bank := 0, h := w }], line := none, offs := [(0, off)] }
    let s1 := (((s.setGrp g x).set R.ILC_GRP_BANK_ACTIVE 0 g).set R.ILC_GRP_CTRL_OFF_NOW (b2n off) g).syncBank g
    s1.each (s1.channelsOf g) fun s c => s.setChan c { s.chan c with deferred := 0 }

/-! ### Force-off (R426) -/

/-- The force-off value of line `n`. -/
def offFor (n : Nat) : List (Nat × Bool) → Bool
  | [] => false
  | (h, b) :: t => if h ≤ n then b else offFor n t

/-! ### Temperature compensation (R427 to R429) -/

/-- c* between successive points. -/
def interpGain (t : Int) : List (Int × Nat) → Nat
  | (t0, g0) :: (t1, g1) :: r =>
    if t < t1 then
      (if t1 ≤ t0 then g0 else ((g0 : Int) + roundDivI (((g1 : Int) - g0) * (t - t0)) (t1 - t0).toNat).toNat)
    else interpGain t ((t1, g1) :: r)
  | [(_, g)] => g
  | [] => 0x8000

/-- The points of a colour. -/
def State.colourPoints (s : State) (c : Nat) : List (Int × Nat) :=
  (List.range 8).map fun i => (s.getS R.ILC_COL_PT_TEMP c i, s.get R.ILC_COL_PT_GAIN c i)

/-- The target c* of a colour in a group (R427). -/
def State.compTarget (s : State) (g c : Nat) : Nat :=
  if s.on R.ILC_GRP_TCOMP_EN g ∧ (s.grp g).taken = true then
    let ps := s.colourPoints c
    let t := s.getS R.ILC_GRP_TCOMP_TEMP g
    match ps with
    | (t0, g0) :: _ => if t < t0 then g0 else interpGain t ps
    | [] => 0x8000
  else 0x8000

/-- TEMP decreases somewhere in a colour that the group's strings use (R427). -/
def State.pointsBad (s : State) (g : Nat) : Bool :=
  (s.channelsOf g).any fun c =>
    let ps := (s.colourPoints (s.get R.ILC_STR_CFG_COLOUR c)).map (·.1)
    (List.range 7).any fun i => decide (ps.getD (i + 1) 0 < ps.getD i 0)

/-- A new filtered result of the group's entry (R428): TEMP in 0.1 °C, or HOLD when it carries a flag. -/
def State.ilcTemp (s : State) (g : Nat) (temp : Int) (flagged : Bool) : State :=
  if ¬ s.on R.ILC_GRP_TCOMP_EN g then s
  else if flagged then
    if s.on R.ILC_GRP_TCOMP_HOLD g then s else (s.set R.ILC_GRP_TCOMP_HOLD 1 g).raise (evCompHold g)
  else
    let s1 := (s.setS R.ILC_GRP_TCOMP_TEMP temp g).set R.ILC_GRP_TCOMP_HOLD 0 g
    s1.setGrp g { s1.grp g with taken := true }

/-! ### The light of a line (R415 to R419) -/

/-- LTU units to the nearest tick of 2.5 ns, for a time in fifths of a unit. -/
def tickOf (fifths : Int) : Int := roundDivI fifths 160

/-- The gate edges, in ticks, of light from `ta` to `tb` in LTU units (R417). -/
def State.gateEdges (s : State) (g : Nat) (ta tb : Int) : Int × Int :=
  (tickOf (5 * ta - 64 * (s.get R.ILC_GRP_TIMING_ONDLY g : Nat)), tickOf (5 * tb - 64 * (s.get R.ILC_GRP_TIMING_OFFDLY g : Nat)))

/-- A gate goes high on a channel, its loop switching at FSW with the dither DITH at DRATE and the phase (n mod 12) / 12 (R414); at least
1 µs of it is observed at its falling edge (R430). In THERMAL_LATCH it stays low (R483). -/
def State.gateOn (s : State) (c : Nat) (e : Int × Int) (level n : Nat) : State :=
  let g := s.get R.ILC_STR_CFG_GROUP c
  let s1 := s.emit (.gate c e.1 e.2 level [s.get R.ILC_GRP_SW_FSW g, s.get R.ILC_GRP_SW_DITH g, s.get R.ILC_GRP_SW_DRATE g, c % 12])
  let x := s1.chan c
  if s.dev = Dev.thermalLatch then s1
  else s1.setChan c { x with gates := x.gates ++ [{ fall := e.2, level := level, line := n, long := decide (400 ≤ e.2 - e.1) }] }

/-- The gates of these channels are low from here on (R413, R433, R483). -/
def State.gatesLow (s : State) (cs : List Nat) : State :=
  s.each cs fun s c => if (s.chan c).gates.isEmpty then s else (s.setChan c { s.chan c with gates := [] }).emit (.gateLow c)

/-- Pending swaps of a station's groups are dropped (R530), and their gates are low (R413). -/
def State.dropBanks (s : State) (n : Nat) : State :=
  s.each (groups8.filter fun g => s.grpStation g = n) fun s g =>
    (((s.setGrp g { s.grp g with pend := none }).set R.ILC_GRP_BANK_PENDING 0 g).set R.ILC_GRP_BANK_HELD 0 g).gatesLow (s.channelsOf g)

/-- The gate observed next, and the gates after it (R430). -/
def Chan.observed (x : Chan) : Option (LitGate × List LitGate) :=
  match x.gates.dropWhile fun y => !y.long with
  | [] => none
  | y :: ys => some (y, ys)

/-- One string for line `n`, triggered at `t`, with gate `ss` to `ee` (R415 to R417). The c applied to it is the one formed after the line
before, and COMP shows it (R429). Gates that have fallen by `t` are past. -/
def State.lightString (s : State) (g c n : Nat) (t ss ee : Int) : State :=
  let x := s.grp g
  let u := useFor n x.uses
  let y := s.chan c
  let comp := y.formed.getD (s.get R.ILC_STR_APPLIED_COMP c)
  let fault := s.on R.ILC_STR_STATUS_FAULT c
  let dark := !s.on R.ILC_STR_CFG_EN c || fault || offFor n x.offs
  let b := if dark then 0 else min 0x8000 (roundDiv (s.patternOf g c u n * u.factor n * comp) (2 ^ 30))
  let len := (ee - ss).toNat
  let ton := roundDiv (8 * b * len) (32768 * 32)
  let ta := ss + 32 * roundDivI ((len : Int) - 32 * ton) 64
  let analogue := decide (0x1000 ≤ b ∧ 0 < len)
  let pulsed := decide (0 < b ∧ b < 0x1000 ∧ s.get R.ILC_GRP_DIAG_MINON g ≤ ton ∧ 0 < ton)
  let mode : Nat := if fault then 3 else if analogue then 1 else if pulsed then 2 else 0
  let target := s.compTarget g (s.get R.ILC_STR_CFG_COLOUR c)
  let s1 := (s.set R.ILC_STR_APPLIED_B b c).set R.ILC_STR_APPLIED_COMP comp c
  let s2 := (s1.set R.ILC_STR_STATUS_MODE mode c).setSat R.ILC_STR_STATUS_SINCE (s.get R.ILC_STR_STATUS_SINCE c + 1) c
  let s3 := s2.setChan c { y with
    gates := y.gates.filter fun x => decide (tickOf (5 * t) < x.fall),
    formed := some (if comp < target then comp + 1 else if target < comp then comp - 1 else comp) }
  if analogue then s3.gateOn c (s3.gateEdges g ss ee) (roundDiv (b * 4095) 32768) n
  else if pulsed then s3.gateOn c (s3.gateEdges g ta (ta + 32 * ton)) 512 n
  else s3

/-- A channel for which a diagnostic pulse is due (R431); none while an observation of the group's last line is still to come. -/
def State.diagDue (s : State) (g c : Nat) : Bool :=
  s.on R.ILC_GRP_DIAG_EN g && s.on R.ILC_STR_CFG_EN c && !s.on R.ILC_STR_STATUS_FAULT c &&
    decide (s.get R.ILC_GRP_DIAG_INT g ≤ s.get R.ILC_STR_STATUS_SINCE c) &&
    !((s.chan c).gates.any fun y => y.long && decide ((s.grp g).line.map (·.1) = some y.line))

/-- The channels of a group that are due. -/
def State.dueChannels (s : State) (g : Nat) : List Nat := (s.channelsOf g).filter (s.diagDue g)

/-- The station states in which diagnostic pulses fire: none does in PAUSED or REWINDING, where the deferral stands too (R431, R432). -/
def State.diagRuns (s : State) (g : Nat) : Bool :=
  [St.scanning, St.draining].contains (s.stState (s.grpStation g))

/-- The lines by which the channels' pulses have been deferred: a pulse still due when the next line is triggered has been; at 64 lines of
one pulse STARVED is set (R432). -/
def State.countDeferred (s : State) (g : Nat) : State :=
  if (s.grp g).line.isNone ∨ s.diagRuns g = false then s
  else
    let s1 := s.each (s.channelsOf g) fun s c =>
      s.setChan c { s.chan c with deferred := if s.diagDue g c then (s.chan c).deferred + 1 else 0 }
    if (s1.channelsOf g).any fun c => (s1.chan c).deferred = 64 then (s1.set R.ILC_GRP_DIAG_STARVED 1 g).raise (evDiagStarved g) else s1

/-- A group lights lines in these station states (R413). -/
def State.groupLights (s : State) (g : Nat) : Bool :=
  s.on R.ILC_CTRL_EN && s.on R.ILC_GRP_CTRL_EN g &&
    [St.scanning, St.paused, St.rewinding, St.draining].contains (s.stState (s.grpStation g))

/-- Light line `n` of a station, triggered at `t`, its exposure gate open from `ss` to `ee` (R413 to R419). -/
def State.illuminate (s : State) (st n : Nat) (t ss ee : Int) : State :=
  s.each (s.groupsOf st) fun s g =>
    let s0 := s.set R.ILC_GRP_CTRL_OFF_NOW (b2n (offFor n (s.grp g).offs)) g
    if s0.groupLights g then
      let s1 := s0.countDeferred g
      let s2 := s1.each (s1.channelsOf g) fun s c => s.lightString g c n t ss ee
      s2.setGrp g { s2.grp g with line := some (n, ss, ee) }
    else s0

/-! ### Faults (R432, R433) -/

/-- FAULTED counts the channels held off. -/
def State.syncFaulted (s : State) : State :=
  s.set R.ILC_STATUS_FAULTED (channels96.filter fun c => s.on R.ILC_STR_STATUS_FAULT c).length

/-- A string fault (R433): the gate is low from here on; `kind` 1 OPEN, 2 SHORT, 3 OVERCURRENT; `n` is the line of the deciding observation. -/
def State.stringFault (s : State) (c kind n : Nat) : State :=
  let g := s.get R.ILC_STR_CFG_GROUP c
  let s1 := (s.set R.ILC_STR_STATUS_FAULT 1 c).set R.ILC_STR_STATUS_KIND kind c
  let s2 := (((s1.set R.ILC_GRP_FAULT_STRING c g).set R.ILC_GRP_FAULT_KIND kind g).set R.ILC_GRP_FAULT_WPI n g).set
    R.ILC_GRP_FAULT_NEW 1 g
  ((s2.gatesLow [c]).raise (evStringFault g)).syncFaulted

end Sys2Proof.Machine
end

