-- ==== Sys2Proof/Machine/LtuOps.lean ====
section
/-! DEFINITION. Line timing (spec/04): the values in force for a line, spacing, prediction, the match, and descriptors.
Instants are LTU units of 78.125 ps (R99). -/

namespace Sys2Proof.Machine

/-- LTU units in a tick (R99). -/
def tick : Nat := 16

/-! ### Values by line (R131, R338) -/

/-- The seven values of R131 in force: EXP_DELAY, EXP_LEN, EXP_MIN, GUARD, READ_DELAY, OVERRUN, MAXRATE. -/
def State.ltuVals (s : State) (n : Nat) : List Nat :=
  [s.get R.LTU_ST_EXP_DELAY_TICKS n, s.get R.LTU_ST_EXP_LEN_TICKS n, s.get R.LTU_ST_EXP_MIN_TICKS n, s.get R.LTU_ST_GUARD_NS n,
   s.get R.LTU_ST_READ_DELAY_TICKS n, s.get R.LTU_ST_CTRL_OVERRUN n, s.get R.LTU_ST_MAXRATE_RATE n]

/-- Of the changes applied, newest first, the values of line `l`; `cur` are those above the newest. -/
def oldFor (l : Nat) : List (Nat × List Nat) → List Nat → List Nat
  | [], cur => cur
  | (h, o) :: t, cur => if l < h then oldFor l t o else cur

/-- The values of line `l`: a line below a hinge uses the old ones, a line triggered again included (R338). -/
def State.valsFor (s : State) (n l : Nat) : List Nat := oldFor l (s.lst n).old (s.ltuVals n)

/-- A staged value as its register holds it (R532). -/
def stagedField (i v : Nat) : Nat :=
  match i with
  | 0 | 1 | 2 | 4 => bits v 0 24
  | 3 => bits v 0 16
  | 5 => bits v 4 2
  | _ => bits v 0 19

/-- The seven values with a staged change applied. -/
def Staged.apply (g : Staged) (cur : List Nat) : List Nat :=
  cur.mapIdx fun i v => if bit g.mask i then stagedField i (g.vals.getD i 0) else v

/-- Write the seven values. -/
def State.setLtuVals (s : State) (n : Nat) (v : List Nat) : State :=
  ((((((s.set R.LTU_ST_EXP_DELAY_TICKS (v.getD 0 0) n).set R.LTU_ST_EXP_LEN_TICKS (v.getD 1 0) n).set R.LTU_ST_EXP_MIN_TICKS
    (v.getD 2 0) n).set R.LTU_ST_GUARD_NS (v.getD 3 0) n).set R.LTU_ST_READ_DELAY_TICKS (v.getD 4 0) n).set
    R.LTU_ST_CTRL_OVERRUN (v.getD 5 0) n).set R.LTU_ST_MAXRATE_RATE (v.getD 6 0) n

/-- A staged change applies from the commit of its hinge line (R131). -/
def State.applyStaged (s : State) (n l : Nat) : State :=
  let x := s.station n
  match x.staged with
  | some g =>
    if g.h ≤ l then
      let cur := s.ltuVals n
      let s1 := (s.setLtuVals n (g.apply cur)).set R.SMC_ST_STATE_STAGED 0 n
      let y := s1.lst n
      (s1.setLst n { y with old := ((g.h, cur) :: y.old).take 4 }).setStation n { x with staged := none }
    else s
  | none => s

/-! ### Spacing (R122, R125) -/

/-- Each head's shortest sustained line period, in LTU units (CAP block 3). -/
def State.headPeriods (s : State) (n : Nat) : List Nat :=
  (s.station n).heads.map fun p => 128 * capField (s.head p).cap 3 0 16

/-- A spacing of `fifths` / 5 LTU units lies below P_min at line rate `rate` (R122). -/
def State.belowPmin (s : State) (n rate : Nat) (fifths : Int) : Bool :=
  decide (fifths < 5 * 32000) || decide (fifths * rate < 5 * 12800000000) ||
    (s.headPeriods n).any fun t => decide (fifths < 5 * t)

/-- A spacing of `fifths` / 5 LTU units lies above P_min. -/
def State.abovePmin (s : State) (n rate : Nat) (fifths : Nat) : Bool :=
  decide (5 * 32000 < fifths) && decide (5 * 12800000000 < fifths * rate) &&
    (s.headPeriods n).all fun t => decide (5 * t < fifths)

/-- E_d + E_l + G exceeds P_min under REFUSE (R125), for given values. -/
def State.exposureBad (s : State) (n : Nat) (v : List Nat) : Bool :=
  decide (v.getD 5 0 = 0) && s.abovePmin n (v.getD 6 0) (5 * tick * (v.getD 0 0 + v.getD 1 0) + 64 * v.getD 3 0)

/-- An enabled group of the station has ONDLY greater than G (R418). -/
def State.onDelayBad (s : State) (n guard : Nat) : Bool :=
  (s.groupsOf n).any fun g => decide (guard < s.get R.ILC_GRP_TIMING_ONDLY g)

/-- A timer source with a period below P_min (R125). -/
def State.timerBad (s : State) (n rate : Nat) : Bool :=
  decide (s.get R.LTU_ST_CTRL_SRC n = 1) && s.belowPmin n rate (5 * (s.get R.LTU_ST_TIMER_PERIOD n : Nat))

/-! ### Encoder inputs (R104, R105) -/

/-- GLITCH in LTU units (R99, R104). -/
def State.glitch (s : State) (e : Nat) : Int := roundDivI (64 * s.get R.LTU_ENC_CFG_GLITCH e) 5

/-- The filter delay of an edge that waited for a glitch time of `hold`, in LTU units (R99, R105): that time, and 1 or 2 ticks for the
majority filter. -/
def State.filterDelay (s : State) (e : Nat) (hold : Int) : Int := hold + tick * s.get R.LTU_ENC_CFG_MAJ e

/-- The majority filter (R104): off, two of three samples, or three of five. -/
def vote (maj : Nat) (h : List Bool) : Bool :=
  match maj with
  | 1 => decide (2 ≤ (h.take 3).count true)
  | 2 => decide (3 ≤ (h.take 5).count true)
  | _ => h.headD false

/-- The glitch filter (R104): a new level that has been stable for its time by instant `t` is accepted, at the instant at which it had: the instant
and the time. -/
def Pin.accept (x : Pin) (t : Int) : Option (Int × Int) × Pin :=
  if x.out ≠ x.level ∧ x.since + x.hold ≤ t then (some (x.since + x.hold, x.hold), { x with level := x.out }) else (none, x)

/-- A pin is sampled as `raw` at tick `t` (R104): the instant at which a level is accepted, if one is, with the time it waited for. An
edge takes the filter's present time `g` (R563). -/
def Pin.sample (x : Pin) (maj : Nat) (g : Int) (raw : Bool) (t : Int) : Option (Int × Int) × Pin :=
  let r := x.accept t
  let h := (raw :: r.2.hist).take 5
  let o := vote maj h
  let y : Pin := if o = r.2.out then { r.2 with hist := h } else { r.2 with hist := h, out := o, since := t, hold := g }
  let q := y.accept t
  (r.1.orElse fun _ => q.1, q.2)

/-- The tick that samples a level at instant `t`: each tick samples once, the last at `at_`. -/
def sampleTick (at_ t : Int) : Int := max (t / tick * tick) (at_ + tick)

/-- The ticks before `t` since the last sample at `at_` that a majority filter can still tell apart: after five it has settled. -/
def gapTicks (at_ t : Int) : List Int :=
  (List.range (min 5 (((t - at_) / tick).toNat - 1))).map fun (k : Nat) => at_ + tick * ((k : Int) + 1)

/-! ### Prediction (R110 to R113, R117, R127) -/

/-- The lead time L in LTU units (R113). -/
def State.lead (s : State) (n : Nat) : Nat := 128 * s.get R.LTU_ST_STATUS_LEAD n

/-- Whether the last accepted edge moved the count in the direction in which lines advance (R111). -/
def State.movesForward (s : State) (n : Nat) : Bool :=
  let e := s.enc (s.encOf n)
  e.moved && (e.up == !s.on R.LTU_ST_CTRL_DIR n)

/-- The predicted instant of a target position (R111), when the encoder moves forward. -/
def State.predict (s : State) (n : Nat) (target now : Int) : Option Int :=
  let e := s.enc (s.encOf n)
  if s.movesForward n then
    some (roundDivI (e.te * 65536 + s.fwd n * (target - 65536 * e.count) * s.encTc (s.encOf n) now) 65536)
  else none

/-- The start position (R117). -/
def State.startPos (s : State) (n : Nat) : Int := s.pos16 R.LTU_ST_STARTPOS_COUNT R.LTU_ST_STARTPOS_PHASE n

/-- T of the next line to commit as known at `now`, if a line is predicted: later than now + L it is not yet due. -/
def State.nextInstant (s : State) (n : Nat) (now : Int) : Option Int :=
  let x := s.lst n
  let early := now + s.lead n
  let armed := s.on R.LTU_ST_STATUS_MATCH_ARMED n
  match s.get R.LTU_ST_CTRL_SRC n with
  | 0 =>
    if x.based then (if armed ∧ ¬ x.below then none else s.predict n (s.lineTarget n x.next) now)
    else if s.get R.LTU_ST_START_MODE n = 0 then some early
    else if x.below then s.predict n (s.startPos n) now
    else none
  | 1 => if x.everCommitted then some (x.tStart + ((x.next - s.w0 n) * s.get R.LTU_ST_TIMER_PERIOD n : Nat)) else some early
  | 2 =>
    if s.get R.LTU_ST_HOSTTRIG_PENDING n = 0 then none
    else match x.tPrev with
      | some p => some (max early (p + s.get R.LTU_ST_TIMER_PERIOD n))
      | none => some early
  | _ => none

/-- The position whose forward crossing commits the next line of an encoder source (R117, R127). -/
def State.crossing (s : State) (n : Nat) : Int :=
  if (s.lst n).based then s.lineTarget n (s.lst n).next else s.startPos n

/-- The position is `p`: whether it lies below the start position or below line M. In SCANNING it is enough to have been there (R117,
R127). -/
def State.watchTarget (s : State) (n : Nat) (p : Int) : State :=
  let x := s.lst n
  let b := decide (s.fwd n * (p - s.crossing n) < 0)
  s.setLst n { x with below := b || (x.below && decide (s.stState n = St.scanning)) }

/-- The station is about to enter SCANNING at instant `t`: only crossings after this count (R117, R127). -/
def State.watchFrom (s : State) (n : Nat) (t : Int) : State :=
  if s.encSource n then
    s.setLst n { s.lst n with below := decide (s.fwd n * (s.posOf n t - s.crossing n) < 0) }
  else s

/-! ### The match (R126) -/

/-- The next line to be committed apart from an armed match. -/
def LSt.resume (x : LSt) : Nat := x.back.getD x.next

/-- The refusal of a match for line `m` at instant `t` (R126). -/
def State.matchCheck (s : State) (n m : Nat) (t : Int) : Option Status :=
  let d : Int := s.get R.LTU_ST_RATIO_D n
  pickStatus [refuseIf (!s.encSource n) .range, refuseIf (decide ((s.lst n).resume ≤ m)) .range,
    refuseIf (decide (s.stState n ≠ St.rewinding)) .state,
    refuseIf (decide (s.fwd n * (s.lineTarget n m - s.posOf n t) < d)) .state]

/-- Arm the match for line `m`: the next line is M (R127), and the position lies below P_M (R126). -/
def State.armMatch (s : State) (n m : Nat) : State :=
  let s1 := (s.set R.LTU_ST_MATCH_M m n).set R.LTU_ST_STATUS_MATCH_ARMED 1 n
  s1.setLst n { s1.lst n with next := m, back := some (s1.lst n).resume, below := true }

/-- Withdraw an armed match (R126): the next line is again the one that it was. -/
def State.withdrawMatch (s : State) (n : Nat) : State :=
  let x := s.lst n
  (s.setLst n { x with next := x.resume, back := none }).set R.LTU_ST_STATUS_MATCH_ARMED 0 n

/-- The line of an armed match is being committed: the lines that follow run on from it (R127). -/
def State.useMatch (s : State) (n : Nat) : State :=
  (s.setLst n { s.lst n with back := none }).set R.LTU_ST_STATUS_MATCH_ARMED 0 n

/-- Step 4 of a restart (R196, R197, R577): the match for line M is armed, or the restart fails with its status. -/
def State.rewindArm (s : State) (n : Nat) (t : Int) : State :=
  let m := s.get R.SST_ST_REW_M n
  match s.matchCheck n m t with
  | some c => s.rewindFail n c
  | none => (s.armMatch n m).set R.SST_ST_REW_STATUS_PHASE 3 n

/-- Step 4 of an unpaced restart at instant `t` (R577): the match is armed once the interpolated position lies at or beyond the back-up
target. -/
def State.stepFour (s : State) (n : Nat) (t : Int) : State :=
  if s.isSheet n ∧ ¬ s.paced n ∧ s.stState n = St.rewinding ∧ s.get R.SST_ST_REW_STATUS_PHASE n = 2 ∧
      s.fwd n * (s.posOf n t - s.backTarget n (s.get R.SST_ST_REW_M n)) ≤ 0 then s.rewindArm n t
  else s

/-- The position from which step 6 follows: P_M − 2 × D (R196, R577). -/
def State.scanEntryPos (s : State) (n : Nat) : Int :=
  s.lineTarget n (s.get R.SST_ST_REW_M n) - s.fwd n * (2 * s.get R.LTU_ST_RATIO_D n : Nat)

/-- In step 5 of an unpaced restart the position is `p`: step 6 needs it to have lain below P_M − 2 × D (R577). -/
def State.watchEntry (s : State) (n : Nat) (p : Int) : State :=
  if s.stState n = St.rewinding ∧ s.get R.SST_ST_REW_STATUS_PHASE n = 4 ∧ s.atOrPast n p (s.scanEntryPos n) = false then
    s.setSto n { s.sto n with entryBelow := true }
  else s

/-- T_c lies outside VREF × (1 ± TOL / 100) (R128). -/
def State.velocityBad (s : State) (n : Nat) (now : Int) : Bool :=
  let tc := s.encTc (s.encOf n) now
  let v := s.get R.LTU_ST_MATCH_CFG_VREF n
  let tol := s.get R.LTU_ST_MATCH_CFG_TOL n
  decide (100 * tc < v * (100 - tol) ∨ v * (100 + tol) < 100 * tc)

/-! ### Descriptors (R129, R130) -/

/-- The PTP stamp of an instant: seconds, nanoseconds and 1/65,536 ns (R130). -/
def State.ptpStamp (s : State) (t : Int) : Nat × Nat × Nat :=
  let u : Nat := (t + s.ltu.ptpOffset).toNat * 5120
  (u / 65536 / 1000000000, u / 65536 % 1000000000, u % 65536)

/-- The three words of a line descriptor (R129). PTP_UNLOCKED and REF_HOLD are as they stand when it is written, before T_n (DEDUCED,
log 143). -/
def State.descriptor (s : State) (n l : Nat) (t : Int) (skipped clipped isMatch velErr : Bool) (expo : Nat) : List Nat :=
  let p := s.ptpStamp t
  let hold := s.ltu.refLost || s.on R.LTU_REF_STATUS_TCOMP_HOLD
  [wrap48 l + b2n skipped * 2 ^ 48 + b2n clipped * 2 ^ 49 + b2n isMatch * 2 ^ 50 + b2n velErr * 2 ^ 51 +
     b2n (!s.on R.LTU_REF_STATUS_PTP_LOCK) * 2 ^ 52 + b2n hold * 2 ^ 53 + n % 8 * 2 ^ 56 +
     s.get R.LTU_ST_CTRL_SRC n % 4 * 2 ^ 59,
   p.2.1 + p.1 % 2 ^ 32 * 2 ^ 32,
   p.1 / 2 ^ 32 % 2 ^ 16 + p.2.2 * 2 ^ 16 + expo % 2 ^ 24 * 2 ^ 32]

/-- The station's line descriptor queue lacks room for a whole descriptor (R233). -/
def State.descriptorFull (s : State) (n : Nat) : Bool :=
  decide (16384 < (s.queue (96 + n)).ring.length + (s.queue (96 + n)).present.length + 3)

/-- The instant that the last line of a band was first triggered or skipped, for the seal latency (R334): that of the highest line of
the band so far. -/
def State.noteTrigger (s : State) (n l : Nat) (t : Int) : State :=
  let x := s.sealOf n
  let b := bandOf l (s.bandExp n)
  match SMap.find? x.trig b with
  | some (l0, _) => if l ≤ l0 then s else s.setSeal n { x with trig := SMap.insert x.trig b (l, s.runTime n t) }
  | none => s.setSeal n { x with trig := SMap.insert x.trig b (l, s.runTime n t) }

/-! ### Encoders (R106 to R108) -/

/-! ### Commit (R113, R120 to R128, R233) -/

/-- G in LTU units, rounded (R99). -/
def guardUnits (ns : Nat) : Int := roundDiv (64 * ns) 5

/-- The line that checks 1 and 2 compare with (R123): the last line triggered or committed to be. -/
def LSt.ref (x : LSt) : Option CLine := if x.committed.isEmpty then x.last else x.committed.getLast?

/-- Check 2 of R123 for a line: none when the line is skipped. `keep` says that the line is never skipped (REFUSE, and
line M of a restart). -/
def clipLine (v : List Nat) (keep : Bool) (r : Option CLine) (l : CLine) : Option CLine :=
  match r with
  | none => some l
  | some p =>
    let s1 := p.ee + guardUnits (v.getD 3 0)
    let least : Int := tick * v.getD 2 0
    if s1 ≤ l.ss then some l
    else if least ≤ l.ee - s1 ∧ (keep = true ∨ v.getD 5 0 = 1) then some { l with ss := s1, clipped := true }
    else if keep then
      some { l with ss := s1, ee := s1 + least, qq := s1 + least + tick * v.getD 4 0, clipped := true }
    else none

/-- VEL_ERR at line M, and the marks until T_c first lies within tolerance (R128). -/
def State.checkVelocity (s : State) (n : Nat) (isMatch : Bool) (now : Int) : State :=
  let bad := s.velocityBad n now
  let s1 := s.setLst n { s.lst n with velRun := bad && (isMatch || (s.lst n).velRun) }
  if isMatch && bad then (s1.set R.LTU_ST_STATUS_VEL_ERR 1 n).raise (Ev.matchVelocity n) else s1

/-- The descriptor is presented to the station's queue, or the queue overflows (R129, R233): whether it does. -/
def State.writeDescriptor (s : State) (n : Nat) (ws : List Nat) : Bool × State :=
  if s.descriptorFull n then
    (true, (s.set R.QMX_Q_STATUS_OVERFLOW 1 (96 + n)).queueEvent (96 + n) 4 Ev.queueOverflow)
  else (false, s.presentItem (96 + n) ws)

/-- A line is skipped (R124): its WPI is taken, it is counted, the overspeed event is raised, and every head's line is
filled at once. -/
def State.skipLine (s : State) (n l : Nat) (t : Int) : State :=
  let s1 := (s.add R.LTU_ST_SKIP_COUNT 1 n).raise (Ev.overspeed n)
  (s1.each (s1.station n).heads fun s p => s.fillLine p l true).noteTrigger n l t

/-- A line is committed (R113, R120): its instants are fixed and the TIMING blocks sent. -/
def State.fixLine (s : State) (n : Nat) (l : CLine) : State :=
  let x := s.lst n
  let s1 := s.setLst n { x with committed := x.committed ++ [l] }
  let s2 := if l.clipped then s1.add R.LTU_ST_CLIP_COUNT 1 n else s1
  s2.each (s2.station n).heads fun s p =>
    ((s.sendTiming p 1 l.n l.ss l.at_).sendTiming p 2 l.n l.ee l.at_).sendTiming p 0 l.n l.qq l.at_

/-- The position expected at instant `t`, as known at `now`: the last edge's motion carried on. -/
def State.posAhead (s : State) (n : Nat) (t now : Int) : Int :=
  let e := s.enc (s.encOf n)
  let k := roundDivI (65536 * (t - e.te)) (max 1 (s.encTc (s.encOf n) now))
  if e.up then 65536 * e.count + k else 65536 * e.count - k

/-- The first line of a run is placed at `t`, known at `now` (R112, R117): T_start, and P_base of an encoder source. An immediate
start takes P_base again at the line's instant (log 123). -/
def State.placeFirst (s : State) (n : Nat) (t now : Int) : State :=
  let x := s.lst n
  let s1 := if x.everCommitted then s else s.setLst n { x with tStart := t, everCommitted := true }
  let y := s1.lst n
  if s1.encSource n ∧ ¬ y.based then
    let imm := decide (s1.get R.LTU_ST_START_MODE n = 0)
    let p := if imm then s1.posAhead n t now else s1.startPos n
    (s1.setPos16 R.LTU_ST_BASE_COUNT R.LTU_ST_BASE_PHASE n p).setLst n { y with based := true, basePending := imm }
  else s1

/-- P_base of an immediate start is the interpolated position at the first line's instant (R117). -/
def State.takeBase (s : State) (n : Nat) (t : Int) : State :=
  if (s.lst n).basePending then
    (s.setPos16 R.LTU_ST_BASE_COUNT R.LTU_ST_BASE_PHASE n (s.posOf n t)).setLst n { s.lst n with basePending := false }
  else s

/-- Commit or skip the next line with instant `t`, at `now` (R113, R122 to R131): whether its descriptor overflowed. EXPOSURE is cut to
whole ticks (DESIGN CHOICE, log 143). -/
def State.commitLine (s : State) (n : Nat) (t now : Int) : Bool × State :=
  let s1 := s.placeFirst n t now
  let l := (s1.lst n).next
  let s2 := s1.applyStaged n l
  let v := s2.valsFor n l
  let isMatch := s2.on R.LTU_ST_STATUS_MATCH_ARMED n
  let s3 := (s2.checkVelocity n isMatch now).useMatch n
  let x := s3.lst n
  let vel := x.velRun
  let ref := x.ref
  let ss : Int := t + tick * v.getD 0 0
  let ee : Int := ss + tick * v.getD 1 0
  let raw : CLine := { n := l, t := t, ss := ss, ee := ee, qq := ee + tick * v.getD 4 0, at_ := now, isMatch := isMatch }
  let close : Bool := match ref with
    | some r => !isMatch && s3.belowPmin n (v.getD 6 0) (5 * (t - r.t))
    | none => false
  let fit := if close then none else clipLine v (isMatch || decide (v.getD 5 0 = 0)) ref raw
  let s4 := s3.setLst n { s3.lst n with next := l + 1, tPrev := some t }
  let s5 := if s4.get R.LTU_ST_CTRL_SRC n = 2 then s4.sub R.LTU_ST_HOSTTRIG_PENDING 1 n else s4
  match fit with
  | none => (s5.skipLine n l t).writeDescriptor n (s5.descriptor n l t true false false vel 0)
  | some c => (s5.fixLine n c).writeDescriptor n (s5.descriptor n l t false c.clipped isMatch vel ((c.ee - c.ss) / tick).toNat)

/-- The count change of a quadrature step from (a, b) to (a', b'): A leading B counts up with INVERT 0 (R106). -/
def quadStep (a b a' b' : Bool) : Int :=
  if a' != a then (if a' != b then 1 else -1) else (if b' == a then 1 else -1)

/-- The edges held: enough for the longest average, 2^3 intervals (R107). -/
def edgesHeld : Nat := 9

/-- PERIOD follows the edges (R107). -/
def State.syncPeriod (s : State) (e : Nat) (t : Int) : State := s.setSat R.LTU_ENC_PERIOD_PERIOD (s.encTc e t) e

/-- The interpolated correction of the eight points at temperature `t` (R101), to the nearest ppb (DESIGN CHOICE, log 142). -/
def interpCorr (t : Int) : List (Int × Int) → Int
  | (t0, c0) :: (t1, c1) :: r =>
    if t < t0 then c0
    else if t < t1 then roundDivI (c0 * (t1 - t0) + (c1 - c0) * (t - t0)) (t1 - t0).toNat
    else interpCorr t ((t1, c1) :: r)
  | [(_, c)] => c
  | [] => 0

/-- The correction points. -/
def State.tcompPoints (s : State) : List (Int × Int) :=
  (List.range 8).map fun i => (s.getS R.LTU_TCOMP_PT_TEMP i, s.getS R.LTU_TCOMP_PT_CORR i)

/-- The points stand in ascending order of TEMP (R102). -/
def State.tcompAscending (s : State) : Bool :=
  let ts := s.tcompPoints.map (·.1)
  (List.range 7).all fun i => decide (ts.getD i 0 < ts.getD (i + 1) 0)

end Sys2Proof.Machine
end

