-- ==== Sys2Proof/Machine/Crypto.lean ====
section
/-! DEFINITION. The cryptography the manual names: SHA-384, ECDSA P-384 verification, AES-256, AES key wrap and AES-GCM
(R303, R304, R489). PRESUMED: the manual names these standards and does not restate them; the text here follows FIPS 180-4,
FIPS 186-5 with SP 800-186, FIPS 197, RFC 3394 and SP 800-38D (log 126). Byte strings are in the order of the standards. -/

namespace Sys2Proof.Machine

/-- Apply a function to a number that has been worked out first. -/
def forced {α : Type} (n : Nat) (f : Nat → α) : α :=
  match n with
  | 0 => f 0
  | k + 1 => f (k + 1)

theorem forced_eq {α : Type} (n : Nat) (f : Nat → α) : forced n f = f n := by cases n <;> rfl

/-- A left fold over numbers whose value is worked out at each step. -/
def foldNum {α : Type} (f : Nat → α → Nat) : List α → Nat → Nat
  | [], a => a
  | x :: t, a => forced (f a x) fun b => foldNum f t b

/-- Apply a function to bytes that have been worked out first. -/
def forcedAll {α : Type} : List Nat → (List Nat → α) → α
  | [], f => f []
  | x :: t, f => forced x fun y => forcedAll t fun ys => f (y :: ys)

theorem forcedAll_eq {α : Type} (xs : List Nat) (f : List Nat → α) : forcedAll xs f = f xs := by
  induction xs generalizing f with
  | nil => rfl
  | cons x t ih => simp [forcedAll, forced_eq, ih]

/-! ### SHA-384 -/

/-- The round constants. -/
def shaK : List Nat :=
  [0x428a2f98d728ae22, 0x7137449123ef65cd, 0xb5c0fbcfec4d3b2f, 0xe9b5dba58189dbbc, 0x3956c25bf348b538] ++
  [0x59f111f1b605d019, 0x923f82a4af194f9b, 0xab1c5ed5da6d8118, 0xd807aa98a3030242, 0x12835b0145706fbe] ++
  [0x243185be4ee4b28c, 0x550c7dc3d5ffb4e2, 0x72be5d74f27b896f, 0x80deb1fe3b1696b1, 0x9bdc06a725c71235] ++
  [0xc19bf174cf692694, 0xe49b69c19ef14ad2, 0xefbe4786384f25e3, 0xfc19dc68b8cd5b5, 0x240ca1cc77ac9c65] ++
  [0x2de92c6f592b0275, 0x4a7484aa6ea6e483, 0x5cb0a9dcbd41fbd4, 0x76f988da831153b5, 0x983e5152ee66dfab] ++
  [0xa831c66d2db43210, 0xb00327c898fb213f, 0xbf597fc7beef0ee4, 0xc6e00bf33da88fc2, 0xd5a79147930aa725] ++
  [0x6ca6351e003826f, 0x142929670a0e6e70, 0x27b70a8546d22ffc, 0x2e1b21385c26c926, 0x4d2c6dfc5ac42aed] ++
  [0x53380d139d95b3df, 0x650a73548baf63de, 0x766a0abb3c77b2a8, 0x81c2c92e47edaee6, 0x92722c851482353b] ++
  [0xa2bfe8a14cf10364, 0xa81a664bbc423001, 0xc24b8b70d0f89791, 0xc76c51a30654be30, 0xd192e819d6ef5218] ++
  [0xd69906245565a910, 0xf40e35855771202a, 0x106aa07032bbd1b8, 0x19a4c116b8d2d0c8, 0x1e376c085141ab53] ++
  [0x2748774cdf8eeb99, 0x34b0bcb5e19b48a8, 0x391c0cb3c5c95a63, 0x4ed8aa4ae3418acb, 0x5b9cca4f7763e373] ++
  [0x682e6ff3d6b2b8a3, 0x748f82ee5defb2fc, 0x78a5636f43172f60, 0x84c87814a1f0ab72, 0x8cc702081a6439ec] ++
  [0x90befffa23631e28, 0xa4506cebde82bde9, 0xbef9a3f7b2c67915, 0xc67178f2e372532b, 0xca273eceea26619c] ++
  [0xd186b8c721c0c207, 0xeada7dd6cde0eb1e, 0xf57d4f7fee6ed178, 0x6f067aa72176fba, 0xa637dc5a2c898a6] ++
  [0x113f9804bef90dae, 0x1b710b35131c471b, 0x28db77f523047d84, 0x32caab7b40c72493, 0x3c9ebe0a15c9bebc] ++
  [0x431d67c49c100d4c, 0x4cc5d4becb3e42b6, 0x597f299cfc657e2a, 0x5fcb6fab3ad6faec, 0x6c44198c4a475817]

/-- The initial hash value of SHA-384, first word in the top bits. -/
def shaInit : Nat :=
  0xcbbb9d5dc1059ed8629a292a367cd5079159015a3070dd17152fecd8f70e5939 * 2 ^ 256 +
  0x67332667ffc00b318eb44a8768581511db0c2e0d64f98fa747b5481dbefa4fa4

def m64 (n : Nat) : Nat := n % 2 ^ 64
def ror64 (x n : Nat) : Nat := (x >>> n) ||| m64 (x <<< (64 - n))

def shaSum0 (x : Nat) : Nat := ror64 x 28 ^^^ ror64 x 34 ^^^ ror64 x 39
def shaSum1 (x : Nat) : Nat := ror64 x 14 ^^^ ror64 x 18 ^^^ ror64 x 41
def shaSig0 (x : Nat) : Nat := ror64 x 1 ^^^ ror64 x 8 ^^^ (x >>> 7)
def shaSig1 (x : Nat) : Nat := ror64 x 19 ^^^ ror64 x 61 ^^^ (x >>> 6)
def shaCh (x y z : Nat) : Nat := (x &&& y) ^^^ ((2 ^ 64 - 1 - x) &&& z)
def shaMaj (x y z : Nat) : Nat := (x &&& y) ^^^ (x &&& z) ^^^ (y &&& z)

/-- Word `i` of a state of eight words, the first in the top bits. -/
def shaWord (s i : Nat) : Nat := m64 (s >>> (64 * (7 - i)))

/-- The message schedule goes on by one word; `w` holds the last 16, the newest in the low bits. -/
def shaNext (w : Nat) : Nat :=
  m64 (shaSig1 (m64 (w >>> 64)) + m64 (w >>> 384) + shaSig0 (m64 (w >>> 896)) + m64 (w >>> 960))

/-- One round with the oldest word of the schedule window. -/
def shaRound (s k w : Nat) : Nat :=
  forced (shaWord s 4) fun e =>
  forced (m64 (s % 2 ^ 64 + shaSum1 e + shaCh e (shaWord s 5) (shaWord s 6) + k + w)) fun t1 =>
  forced (shaWord s 0) fun a =>
  forced (m64 (t1 + shaSum0 a + shaMaj a (shaWord s 1) (shaWord s 2))) fun v =>
  forced (m64 (shaWord s 3 + t1)) fun u =>
    v * 2 ^ 448 + ((s >>> 320) % 2 ^ 192) * 2 ^ 256 + u * 2 ^ 192 + ((s >>> 64) % 2 ^ 192)

/-- The 80 rounds: `w` is the window of 16 schedule words, the oldest in the top bits. -/
def shaRounds : List Nat → Nat → Nat → Nat
  | [], s, _ => s
  | k :: ks, s, w =>
    forced (shaRound s k (w >>> 960)) fun s1 =>
    forced ((w * 2 ^ 64 + shaNext w) % 2 ^ 1024) fun w1 => shaRounds ks s1 w1

/-- Add two states word by word. -/
def shaAdd (a b : Nat) : Nat :=
  (List.range 8).foldl (fun acc i => acc * 2 ^ 64 + m64 (shaWord a i + shaWord b i)) 0

/-- The hash value after `n` blocks of a padded message that is one number of `n` blocks. -/
def shaBlocks (msg : Nat) : Nat → Nat → Nat
  | 0, s => s
  | n + 1, s => forced (shaAdd s (shaRounds shaK s ((msg >>> (1024 * n)) % 2 ^ 1024))) fun s1 => shaBlocks msg n s1

/-- The value of bytes, most significant first, worked out byte by byte. -/
def beNum (bs : List Nat) : Nat := foldNum (fun a b => a * 256 + b % 256) bs 0

/-- The bytes of a value, most significant first. -/
def beBytes (n v : Nat) : List Nat := (List.range n).map fun i => (v >>> (8 * (n - 1 - i))) % 256

/-- SHA-384 of bytes, as a number of 384 bits. -/
def sha384Num (bs : List Nat) : Nat :=
  let len := bs.length
  let blocks := (len + 17 + 127) / 128
  let msg := (beNum bs * 256 + 128) * 2 ^ (8 * (128 * blocks - len - 1)) + 8 * len
  forced msg fun m => shaBlocks m blocks shaInit >>> 128

/-- SHA-384 of bytes. -/
def sha384 (bs : List Nat) : List Nat := forced (sha384Num bs) fun d => beBytes 48 d

/-! ### ECDSA P-384 (R303) -/

def p384 : Nat := 0xfffffffffffffffffffffffffffffffffffffffffffffffffffffffffffffffeffffffff0000000000000000ffffffff
def p384N : Nat := 0xffffffffffffffffffffffffffffffffffffffffffffffffc7634d81f4372ddf581a0db248b0a77aecec196accc52973
def p384B : Nat := 0xb3312fa7e23ee7e4988e056be3f82d19181d9c6efe8141120314088f5013875ac656398d8a2ed19d2a85c8edd3ec2aef
def p384Gx : Nat := 0xaa87ca22be8b05378eb1c71ef320ad746e1d3b628ba79b9859f741e082542a385502f25dbf55296c3a545e3872760ab7
def p384Gy : Nat := 0x3617de4a96262c6f5d9e98bf9292dc29f8f41dbd289a147ce9da3113b5f0b8c00a60b1ce1d7e819d7a431d7c90ea0e5f

/-- Raise to a power modulo `m`, by the bits of the exponent from the top; `n` counts them. -/
def powMod (m b e : Nat) : Nat → Nat → Nat
  | 0, a => a
  | n + 1, a => forced (a * a % m * (if e.testBit n then b else 1) % m) fun a1 => powMod m b e n a1

/-- The inverse modulo a prime of 384 bits. -/
def invMod (m a : Nat) : Nat := powMod m a (m - 2) 384 1

/-- A point in Jacobian coordinates; z = 0 is the point at infinity. -/
structure JPoint where
  x : Nat
  y : Nat
  z : Nat
  deriving DecidableEq, Repr

def subP (a b : Nat) : Nat := (a + p384 - b) % p384

def JPoint.double (p : JPoint) : JPoint :=
  forced (p.y * p.y % p384) fun yy =>
  forced (4 * p.x * yy % p384) fun s =>
  forced (p.z * p.z % p384) fun zz =>
  forced (3 * (p.x + p384 - zz) * (p.x + zz) % p384) fun m =>
  forced (subP (m * m) (2 * s % p384)) fun x =>
  forced (subP (m * subP s x) (8 * yy * yy % p384)) fun y =>
  forced (2 * p.y * p.z % p384) fun z => ⟨x, y, z⟩

def JPoint.add (p q : JPoint) : JPoint :=
  if p.z = 0 then q
  else if q.z = 0 then p
  else
    forced (p.z * p.z % p384) fun z1 =>
    forced (q.z * q.z % p384) fun z2 =>
    forced (p.x * z2 % p384) fun u1 =>
    forced (subP (q.x * z1) u1) fun h =>
    forced (p.y * z2 * q.z % p384) fun s1 =>
    forced (subP (q.y * z1 * p.z) s1) fun r =>
      if h = 0 then (if r = 0 then p.double else ⟨1, 1, 0⟩)
      else
        forced (h * h % p384) fun hh =>
        forced (h * hh % p384) fun hhh =>
        forced (u1 * hh % p384) fun v =>
        forced (subP (r * r) ((hhh + 2 * v) % p384)) fun x =>
        forced (subP (r * subP v x) (s1 * hhh % p384)) fun y =>
        forced (h * p.z * q.z % p384) fun z => ⟨x, y, z⟩

/-- u·G + v·Q by the bits of both from the top, `gq` being G + Q. -/
def twoMul (g q gq : JPoint) (u v : Nat) : Nat → JPoint → JPoint
  | 0, a => a
  | n + 1, a =>
    let d := a.double
    let e := match u.testBit n, v.testBit n with
      | true, true => d.add gq
      | true, false => d.add g
      | false, true => d.add q
      | false, false => d
    match e with
    | ⟨x, y, z⟩ => twoMul g q gq u v n ⟨x, y, z⟩

/-- A point lies on the curve. -/
def onP384 (x y : Nat) : Bool :=
  decide (x < p384) && decide (y < p384) && decide (y * y % p384 = (x * x * x + (p384 - 3) * x + p384B) % p384)

/-- ECDSA over P-384: whether (r, s) signs the message of digest `e` under the key (x, y). -/
def ecdsaGood (x y e r s : Nat) : Bool :=
  if ¬ onP384 x y ∨ r = 0 ∨ p384N ≤ r ∨ s = 0 ∨ p384N ≤ s then false
  else
    forced (invMod p384N s) fun w =>
    forced (e * w % p384N) fun u =>
    forced (r * w % p384N) fun v =>
      let g : JPoint := ⟨p384Gx, p384Gy, 1⟩
      let q : JPoint := ⟨x, y, 1⟩
      match g.add q with
      | ⟨gx, gy, gz⟩ =>
        match twoMul g q ⟨gx, gy, gz⟩ u v 384 ⟨1, 1, 0⟩ with
        | ⟨rx, _, rz⟩ => decide (rz ≠ 0) && decide (rx * powMod p384 (invMod p384 rz) 2 2 1 % p384 % p384N = r)

/-- A key in SEC1 uncompressed form (R303): 04h and both coordinates, the most significant byte first. -/
def sec1X (key : List Nat) : Nat := beNum ((key.drop 1).take 48)
def sec1Y (key : List Nat) : Nat := beNum ((key.drop 49).take 48)
def sec1Ok (key : List Nat) : Bool := decide (key.headD 0 = 4) && onP384 (sec1X key) (sec1Y key)

/-- The public key of private key `d` in SEC1 uncompressed form: d·G. -/
def publicKey (d : Nat) : List Nat :=
  let g : JPoint := ⟨p384Gx, p384Gy, 1⟩
  match twoMul g g g d 0 384 ⟨1, 1, 0⟩ with
  | ⟨x, y, z⟩ =>
    forced (invMod p384 z) fun i => 4 :: (beBytes 48 (x * (i * i % p384) % p384) ++ beBytes 48 (y * (i * i * i % p384) % p384))

/-- The ECDH shared secret of a private key and a point: the x coordinate of their product. -/
def ecdh (d : Nat) (key : List Nat) : List Nat :=
  let q : JPoint := ⟨sec1X key, sec1Y key, 1⟩
  match twoMul q q q d 0 384 ⟨1, 1, 0⟩ with
  | ⟨x, _, z⟩ => beBytes 48 (x * powMod p384 (invMod p384 z) 2 2 1 % p384)

/-- A signature block of 200 bytes (R303): key, seven zero bytes, r and s. It signs a message under the key of the digest given. -/
def keySigns (digest : Nat) (sg msg : List Nat) : Bool :=
  let part (a n : Nat) : Nat := beNum ((sg.drop a).take n)
  decide (sg.headD 0 = 4) && decide (part 97 7 = 0) && decide (sha384Num (sg.take 97) = digest) &&
    ecdsaGood (sec1X sg) (sec1Y sg) (sha384Num msg) (part 104 48) (part 152 48)

/-! ### HMAC and HKDF with SHA-384 (R492; RFC 2104, RFC 5869) -/

/-- HMAC-SHA-384 with a key of at most 128 bytes. -/
def hmac384 (key msg : List Nat) : List Nat :=
  let k := key ++ List.replicate (128 - key.length) 0
  sha384 (k.map (· ^^^ 0x5C) ++ sha384 (k.map (· ^^^ 0x36) ++ msg))

/-- HKDF-SHA-384 with an empty salt: `n` bytes, at most 48, for an info string. -/
def hkdf384 (secret info : List Nat) (n : Nat) : List Nat :=
  (hmac384 (hmac384 (List.replicate 48 0) secret) (info ++ [1])).take n

/-! ### AES-256 (R304) -/

/-- The S-box, entry `i` at byte `i`. -/
def aesSbox : Nat :=
  0xc072a49cafa2d4adf04759fa7dc982ca76abd7fe2b670130c56f6bf27b777c63 +
  0x75b227ebe28012079a059618c323c7041531d871f1e5a534ccf73f362693fdb7 * 2 ^ 256 +
  0xcf584c4a39becb6a5bb1fc20ed00d153842fe329b3d63b52a05a6e1b1a2c8309 * 2 ^ 512 +
  0xd2f3ff1021dab6bcf5389d928f40a351a89f3c507f02f94585334d43fbaaefd0 * 2 ^ 768 +
  0xdb0b5ede14b8ee4688902a22dc4f816073195d643d7ea7c41744975fec130ccd * 2 ^ 1024 +
  0x08ae7a65eaf4566ca94ed58d6d37c8e779e4959162acd3c25c2406490a3a32e0 * 2 ^ 1280 +
  0x9e1dc186b95735610ef6034866b53e708a8bbd4b1f74dde8c6b4a61c2e2578ba * 2 ^ 1536 +
  0x16bb54b00f2d99416842e6bf0d89a18cdf2855cee9871e9b948ed9691198f8e1 * 2 ^ 1792

/-- The inverse S-box. -/
def aesInvSbox : Nat :=
  0xcbe9dec444438e3487ff2f9b8239e37cfbd7f3819ea340bf38a53630d56a0952 +
  0x25d18b6d49a25b76b224d92866a12e084ec3fa420b954cee3d23c2a632947b54 * 2 ^ 256 +
  0x849d8da75746155edab9edfd5048706c92b6655dcc5ca4d41698688664f6f872 * 2 ^ 512 +
  0x6b8a130103bdafc1020f3fca8f1e2cd00645b3b80558e4f70ad3bc8c00abd890 * 2 ^ 768 +
  0x6edf751ce837f9e28535ade72274ac9673e6b4f0cecff297eadc674f4111913a * 2 ^ 1024 +
  0xf45acd78fec0db9a2079d2c64b3e56fc1bbe18aa0e62b76f89c5291d711af147 * 2 ^ 1280 +
  0xef9cc9939f7ae52d0d4ab519a97f51605fec8027591012b131c7078833a8dd1f * 2 ^ 1536 +
  0x7d0c2155631469e126d677ba7e042b17619953833cbbebc8b0f52aae4d3be0a0 * 2 ^ 1792

/-- Byte `i` of a block of 16 bytes that is one number, the first in the top bits. -/
def aesByte (st i : Nat) : Nat := (st >>> (8 * (15 - i))) % 256

/-- SubBytes and ShiftRows with a box: byte `i` comes from `k` places on for each row; 4 is ShiftRows and 12 its inverse. -/
def aesSubShift (box k st : Nat) : Nat :=
  foldNum (fun a i => a * 256 + (box >>> (8 * aesByte st ((i + k * (i % 4)) % 16))) % 256) (List.range 16) 0

/-- A number in each of 16 bytes. -/
def eachByte (b : Nat) : Nat := b * 0x01010101010101010101010101010101

/-- Doubling in the field of AES, in each byte. -/
def aesDouble (st : Nat) : Nat := ((st &&& eachByte 0x7F) <<< 1) ^^^ (((st >>> 7) &&& eachByte 1) * 0x1B)

/-- A product in the field of AES by a factor below 16, in each byte. -/
def aesTimes (k st : Nat) : Nat :=
  forced (aesDouble st) fun d =>
  forced (aesDouble d) fun q =>
  forced (aesDouble q) fun o =>
  (if k.testBit 0 then st else 0) ^^^ (if k.testBit 1 then d else 0) ^^^ (if k.testBit 2 then q else 0) ^^^
    (if k.testBit 3 then o else 0)

/-- A number in each of the four columns. -/
def eachColumn (w : Nat) : Nat := w * 0x00000001000000010000000100000001

/-- Each column turned up by `j` bytes. -/
def aesTurn (j st : Nat) : Nat :=
  ((st <<< (8 * j)) &&& eachColumn (2 ^ 32 - 2 ^ (8 * j))) ||| ((st >>> (32 - 8 * j)) &&& eachColumn (2 ^ (8 * j) - 1))

/-- MixColumns with the factors of its first row. -/
def aesMix (f : List Nat) (st : Nat) : Nat :=
  foldNum (fun a j => a ^^^ aesTimes (f.getD j 0) (aesTurn j st)) (List.range 4) 0

def xorBytes (a b : List Nat) : List Nat := a.zipWith (· ^^^ ·) b

/-- SubWord of the key expansion. -/
def aesSubWord (w : Nat) : Nat :=
  foldNum (fun a i => a * 256 + (aesSbox >>> (8 * ((w >>> (8 * (3 - i))) % 256))) % 256) (List.range 4) 0

/-- The words of the expanded key after the first eight, newest first; `n` more are made, the next has number `i`. -/
def aesExpand : Nat → Nat → List Nat → List Nat
  | 0, _, ws => ws
  | n + 1, i, ws =>
    let t := ws.headD 0
    let u := if i % 8 = 0 then aesSubWord (t % 2 ^ 24 * 256 + t / 2 ^ 24) ^^^ 2 ^ (i / 8 + 23) else if i % 8 = 4 then aesSubWord t else t
    forced (u ^^^ ws.getD 7 0) fun v => aesExpand n (i + 1) (v :: ws)

/-- The 15 round keys of a 256-bit key. -/
def aesKeys (key : List Nat) : List Nat :=
  forcedAll ((List.range 8).map fun i => beNum ((key.drop (4 * i)).take 4)) fun first =>
    let ws := (aesExpand 52 8 first.reverse).reverse
    (List.range 15).map fun r => ((ws.drop (4 * r)).take 4).foldl (fun a w => a * 2 ^ 32 + w) 0

/-- AES-256 of one block. -/
def aesEncrypt (key block : List Nat) : List Nat :=
  forcedAll (aesKeys key) fun ks =>
    let mid := foldNum (fun st k => forced (aesSubShift aesSbox 4 st) (aesMix [2, 3, 1, 1]) ^^^ k) ((ks.drop 1).take 13)
      (beNum block ^^^ ks.getD 0 0)
    forced mid fun m => beBytes 16 (aesSubShift aesSbox 4 m ^^^ ks.getD 14 0)

/-- The inverse of AES-256. -/
def aesDecrypt (key block : List Nat) : List Nat :=
  forcedAll (aesKeys key) fun ks =>
    let mid := foldNum (fun st k => forced (aesSubShift aesInvSbox 12 st ^^^ k) (aesMix [14, 11, 13, 9])) ((ks.drop 1).take 13).reverse
      (beNum block ^^^ ks.getD 14 0)
    forced mid fun m => beBytes 16 (aesSubShift aesInvSbox 12 m ^^^ ks.getD 0 0)

/-- One step of the unwrap of RFC 3394 with counter `t`: the first block is the check value. -/
def unwrapStep (key : List Nat) (rs : List (List Nat)) (t : Nat) : List (List Nat) :=
  let i := (t - 1) % 4 + 1
  let a := xorBytes (rs.getD 0 []) (beBytes 8 t)
  forcedAll (aesDecrypt key (a ++ rs.getD i [])) fun b => (rs.set 0 (b.take 8)).set i (b.drop 8)

/-- AES key unwrap (RFC 3394) of 40 bytes: the 256-bit key, when its check value holds. -/
def keyUnwrap (key wrapped : List Nat) : Option (List Nat) :=
  let rs := (List.range 5).map fun i => (wrapped.drop (8 * i)).take 8
  let out := (List.range 24).foldl (fun rs j => unwrapStep key rs (24 - j)) rs
  if out.getD 0 [] = List.replicate 8 0xA6 then some (out.drop 1).flatten else none

/-- A product in the field of GHASH; `n` bits of `x` are still to come, from the low end. -/
def ghashMul (x : Nat) : Nat → Nat → Nat → Nat
  | 0, _, z => z
  | n + 1, v, z =>
    forced (if x.testBit n then z ^^^ v else z) fun z1 =>
    forced (if v.testBit 0 then (v >>> 1) ^^^ (0xE1 * 2 ^ 120) else v >>> 1) fun v1 => ghashMul x n v1 z1

/-- GHASH of bytes padded with zeros to blocks, then of the two lengths, with no additional data. -/
def ghash (h : Nat) (bs : List Nat) : Nat :=
  let blocks := (List.range (ceilDiv bs.length 16)).map fun i =>
    let c := (bs.drop (16 * i)).take 16
    beNum (c ++ List.replicate (16 - c.length) 0)
  foldNum (fun y b => ghashMul (y ^^^ b) 128 h 0) (blocks ++ [8 * bs.length]) 0

/-- AES-256-GCM with a 96-bit nonce and no additional data: the plaintext, when the tag holds. -/
def gcmOpen (key iv text tag : List Nat) : Option (List Nat) :=
  let h := beNum (aesEncrypt key (List.replicate 16 0))
  let pad := aesEncrypt key (iv ++ [0, 0, 0, 1])
  if xorBytes (beBytes 16 (ghash h text)) pad = tag then
    some ((List.range (ceilDiv text.length 16)).flatMap fun i =>
      xorBytes ((text.drop (16 * i)).take 16) (aesEncrypt key (iv ++ beBytes 4 (i + 2))))
  else none

end Sys2Proof.Machine
end

