-- ==== Sys2Proof/Machine/MeasOps.lean ====
section
/-! DEFINITION. The measurements of the device (R509, R510), and what SMC_MEAS_DATA shows of them. -/

namespace Sys2Proof.Machine

/-- 48 zero bytes. -/
def zero48 : List Nat := List.replicate 48 0

/-- A value held in `n` words of a register family, as bytes. -/
def State.wordBytes (s : State) (f : Fld) (n : Nat) : List Nat := (List.range n).flatMap fun i => leBytes 4 (s.get f i)

/-- A signature block signs a message under the enrolled owner key (R303). -/
def State.ownerSig (s : State) (sg msg : List Nat) : Bool :=
  decide (s.get R.SMC_ID_CFG_OWNER = 1) && keySigns (beNum (s.wordBytes R.SMC_OWNER_DIG_DIGEST 12)) sg msg

/-- The digest of the structure in force (R510). -/
def State.digest (s : State) : List Nat := s.wordBytes R.SCU_IMG_DIGEST_DIGEST 12

/-- The bytes of the world map, in the order of measurement 6. -/
def State.worldMap (s : State) : List Nat :=
  s.wordBytes R.SMC_WMAP_BLK_BLOCKS 1 ++ s.wordBytes R.SMC_WMAP_ETH_PORTS 1 ++ s.wordBytes R.SMC_WMAP_PORT_MAP 3 ++
    s.wordBytes R.SMC_WMAP_QR_MAP 8 ++ s.wordBytes R.SMC_WMAP_ENG_MAP 16 ++ s.wordBytes R.SMC_WMAP_OC_MAP 137 ++
    s.wordBytes R.SMC_WMAP_HBM_MAP 1024

/-- A measurement by index (R509). -/
def State.measurement (s : State) (i : Nat) : List Nat :=
  if i = 1 then Config.bootRomDigest
  else if i = 4 then s.digest
  else if i = 5 then (if s.get R.SMC_ID_CFG_OWNER = 1 then s.wordBytes R.SMC_OWNER_DIG_DIGEST 12 else zero48)
  else if i = 6 then sha384 s.worldMap
  else SMap.get s.smc.meas zero48 i

/-- Whether a response to all measurements holds an index (R509). -/
def State.measured (s : State) (i : Nat) : Bool :=
  if i = 4 then s.inForce
  else if 16 ≤ i then s.portActive (i - 16) && decide (s.get R.HLF_PORT_STATE_PRIMARY (i - 16) = i - 16)
  else decide (1 ≤ i) && decide (i ≤ 6)

/-- SMC_MEAS_DATA shows the measurement SMC_MEAS_SEL names. -/
def State.syncMeas (s : State) : State :=
  let m := s.measurement (s.get R.SMC_MEAS_SEL_INDEX)
  s.each (List.range 12) fun s i => s.set R.SMC_MEAS_DATA_DIGEST (field m (4 * i) 4) i

/-- A measurement held by the management complex changes. -/
def State.setMeas (s : State) (i : Nat) (d : List Nat) : State :=
  ({ s with smc := { s.smc with meas := SMap.put s.smc.meas zero48 i d } } : State).syncMeas

end Sys2Proof.Machine
end

