-- ==== Sys2Proof/Machine/SpdmOps.lean ====
section
/-! DEFINITION. The SPDM responder (R508 to R512). Codes, layouts and field values are those of DSP0274 (PRESUMED, log 11). -/

open Sys2Proof

namespace Sys2Proof.Machine

/-! DSP0274 response codes. -/
namespace Spdm
def digests : Nat := 0x01
def certificate : Nat := 0x02
def challengeAuth : Nat := 0x03
def version : Nat := 0x04
def measurements : Nat := 0x60
def capabilities : Nat := 0x61
def algorithms : Nat := 0x63
def error : Nat := 0x7F
def errInvalid : Nat := 0x01
def errBusy : Nat := 0x03
def errUnsupported : Nat := 0x07
def errTooLarge : Nat := 0x0D
def errVersion : Nat := 0x41
end Spdm

/-! ### The certificate chain of slot 0 (R490) -/

/-- A DER element: tag, length and content. -/
def der (tag : Nat) (content : List Nat) : List Nat :=
  let n := content.length
  tag :: (if n < 128 then [n] else if n < 256 then [0x81, n] else [0x82, n / 256 % 256, n % 256]) ++ content

/-- The object identifiers ecdsa-with-SHA384, id-ecPublicKey, secp384r1 and the attribute serialNumber. -/
def oidEcdsaSha384 : List Nat := [0x2A, 0x86, 0x48, 0xCE, 0x3D, 0x04, 0x03, 0x03]
def oidEcPublicKey : List Nat := [0x2A, 0x86, 0x48, 0xCE, 0x3D, 0x02, 0x01]
def oidSecp384r1 : List Nat := [0x2B, 0x81, 0x04, 0x00, 0x22]
def oidSerialNumber : List Nat := [0x55, 0x04, 0x05]

/-- ASCII of the uppercase hexadecimal digits of a number, the top one first. -/
def hexDigits (n v : Nat) : List Nat :=
  (List.range n).map fun i =>
    let d := v / 16 ^ (n - 1 - i) % 16
    if d < 10 then 0x30 + d else 0x37 + d

/-- ASCII "99991231235959Z", the notAfter of R490. -/
def notAfter : List Nat :=
  [0x39, 0x39, 0x39, 0x39, 0x31, 0x32, 0x33, 0x31, 0x32, 0x33, 0x35, 0x39, 0x35, 0x39, 0x5A]

/-- What is signed of the device certificate, an X.509 v3 certificate (R490): its subject serialNumber is the device serial in 16 digits, its
key is `key` in SEC1 form and its validity ends at `notAfter`. Its number (part 2), the name of the Nelpanas intermediate CA (3),
notBefore (4) and the extensions (5) are left open. -/
def deviceTbs (serial : Nat) (key : List Nat) : List Nat :=
  der 0x30 (der 0xA0 (der 2 [2]) ++ der 2 (Config.certPart 2) ++ der 0x30 (der 6 oidEcdsaSha384) ++ Config.certPart 3 ++
    der 0x30 (Config.certPart 4 ++ der 0x18 notAfter) ++
    der 0x30 (der 0x31 (der 0x30 (der 6 oidSerialNumber ++ der 0x13 (hexDigits 16 serial)))) ++
    der 0x30 (der 0x30 (der 6 oidEcPublicKey ++ der 6 oidSecp384r1) ++ der 3 (0 :: key)) ++ Config.certPart 5)

/-- The device certificate (R490): the part above with the ECDSA P-384 signature with SHA-384 of the intermediate CA, whose value (6) is
left open. -/
def deviceCert (serial : Nat) (key : List Nat) : List Nat :=
  der 0x30 (deviceTbs serial key ++ der 0x30 (der 6 oidEcdsaSha384) ++ der 3 (0 :: Config.certPart 6))

/-- The chain of slot 0 (R490) in the form of DSP0274: its length, the digest of the root, then the root (0), the intermediate (1) and
the device certificate. The memory is written at test, from the fuses' serial and the device key (log 2). -/
def certChain : List Nat :=
  let root := Config.certPart 0
  let all := sha384 root ++ root ++ Config.certPart 1 ++ deviceCert Config.fuseSerial (publicKey 1)
  leBytes 2 (4 + all.length) ++ [0, 0] ++ all

/-- The number of a transport in an output. -/
def transportCode : Transport → Nat
  | .doe0 => 0 | .doe1 => 1 | .mctp => 2 | .east => 3 | .west => 4

/-- The value type of a measurement (R509). -/
def measType (i : Nat) : Nat := if i = 1 then 0 else if i = 4 then 3 else if i = 5 then 2 else if i = 6 then 3 else 1

/-- One measurement block in the DMTF format: index, specification, size, value type, value size and digest. -/
def State.measBlock (s : State) (i : Nat) : List Nat :=
  [i, 1] ++ leBytes 2 51 ++ [measType i] ++ leBytes 2 48 ++ s.measurement i

/-- The opaque data of a response in the general format (R511): one element, its registry PCI-SIG, vendor 1F47h and the four flag
bytes, padded to a multiple of 4. -/
def State.opaqueData (s : State) : List Nat :=
  [1, 0, 0, 0, 3, 2] ++ leBytes 2 0x1F47 ++ leBytes 2 4 ++ leBytes 4 (b2n (s.on R.SMC_POLICY_UNVERIFIED_COMBO) +
    b2n (decide (s.get R.SMC_ID_CFG_OWNER = 1)) * 2 + s.get R.SMC_POLICY_POLICY_SRC * 4) ++ [0, 0]

/-- Every index a response to all measurements holds (R509). -/
def State.allMeasured (s : State) : List Nat := (List.range 112).filter s.measured

/-- A message: version, code and both parameters, then its body. -/
def spdmMsg (code p1 p2 : Nat) (body : List Nat) : List Nat := [0x12, code, p1, p2] ++ body

def spdmError (c data : Nat) : List Nat := spdmMsg Spdm.error c data []

/-- The nonce of this end for the present moment, 32 bytes. -/
def State.spdmNonce (s : State) : List Nat := (Config.nonce s.fresh ++ List.replicate 32 0).take 32

/-- A message with the signature of the device key over the request's nonce and the message (PRESUMED, log 11). -/
def spdmSigned (nonce msg : List Nat) : List Nat := msg ++ Config.sign (nonce ++ msg)

/-- A MEASUREMENTS response over some indices, signed where the request carries a nonce (R508, R511, R512); `count` is the number of
indices, where that is what was asked for. -/
def State.measResponse (s : State) (count : Nat) (is : List Nat) (nonce : List Nat) : List Nat :=
  let rec_ := is.flatMap s.measBlock
  let msg := spdmMsg Spdm.measurements count 0 (is.length :: leBytes 3 rec_.length ++ rec_ ++ s.spdmNonce ++
    leBytes 2 s.opaqueData.length ++ s.opaqueData)
  if nonce = [] then msg else spdmSigned nonce msg

/-- A CHALLENGE_AUTH response with the measurement summary asked for: 0 none, else the hash of all blocks. -/
def State.challengeResponse (s : State) (summary : Nat) (nonce : List Nat) : List Nat :=
  let sum := if summary = 0 then [] else sha384 (s.allMeasured.flatMap s.measBlock)
  spdmSigned nonce (spdmMsg Spdm.challengeAuth 0 1 (sha384 certChain ++ s.spdmNonce ++ sum ++
    leBytes 2 s.opaqueData.length ++ s.opaqueData))

/-- Capabilities CERT, CHAL and signed MEAS, and the size of a transfer (R508). -/
def capsBody : List Nat := [0, Config.ctExponent % 256, 0, 0] ++ leBytes 4 0x16 ++ leBytes 4 4096 ++ leBytes 4 4096

/-- Algorithms as an offer or a choice: measurement specification, opaque data format, the measurement hash where the message carries one,
and the signature and hash algorithms. -/
def algsBody (spec other : Nat) (measHash : List Nat) (asym hash : Nat) : List Nat :=
  leBytes 2 (32 + measHash.length) ++ [spec, other] ++ measHash ++ leBytes 4 asym ++ leBytes 4 hash ++ List.replicate 12 0 ++ [0, 0, 0, 0]

/-- What R508 supports: the DMTF measurement specification, the general opaque format, ECDSA P-384 and SHA-384. -/
def algsOffer : List Nat := algsBody 1 2 [] 0x80 2

/-- The choice from an offer: of each kind what it has in common with R508 (log 11), and SHA-384 as the measurement hash with the DMTF
specification. -/
def algChoice (o : AlgOffer) : List Nat :=
  let spec := o.spec.toNat &&& 1
  algsBody spec (o.other.toNat &&& 2) (leBytes 4 (4 * spec)) (o.asym.toNat &&& 0x80) (o.hash.toNat &&& 2)

/-- A portion of the certificate chain; a message is at most 4,096 bytes (R508). -/
def certBody (offset len : Nat) : List Nat :=
  let part := (certChain.drop offset).take (min len 4088)
  leBytes 2 part.length ++ leBytes 2 (certChain.length - offset - part.length) ++ part

/-- The answer to a request of version `v` that is served (R508). -/
def State.spdmServe (s : State) : SpdmReq → List Nat
  | .getVersion => [0x10, Spdm.version, 0, 0, 0, 1] ++ leBytes 2 0x1200
  | .getCapabilities => spdmMsg Spdm.capabilities 0 0 capsBody
  | .negotiateAlgorithms o => spdmMsg Spdm.algorithms 0 0 (algChoice o)
  | .getDigests => spdmMsg Spdm.digests 0 1 (sha384 certChain)
  | .getCertificate slot o n =>
    if slot.toNat = 0 then spdmMsg Spdm.certificate 0 0 (certBody o.toNat n.toNat) else spdmError Spdm.errInvalid 0
  | .challenge slot summary nonce =>
    if slot.toNat = 0 then s.challengeResponse summary.toNat (nonce.map (·.toNat)) else spdmError Spdm.errInvalid 0
  | .getMeasurements i nonce =>
    let n := nonce.map (·.toNat)
    if i.toNat = 0 then s.measResponse s.allMeasured.length [] n
    else if i.toNat = 0xFF then s.measResponse 0 s.allMeasured n
    else if s.measured i.toNat then s.measResponse 0 [i.toNat] n
    else spdmError Spdm.errInvalid 0
  | .other code => spdmError Spdm.errUnsupported code.toNat

/-- The answer to a request of version `v` (R508); `busy` says that another request is being answered. GET_VERSION carries no negotiated
version, and an answer above 4,096 bytes is an error that gives its size. -/
def State.spdmAnswer (s : State) (v : Nat) (r : SpdmReq) (busy : Bool) : List Nat :=
  if busy then spdmError Spdm.errBusy 0
  else if r ≠ .getVersion ∧ v ≠ 0x12 then spdmError Spdm.errVersion 0
  else
    let a := s.spdmServe r
    if a.length ≤ 4096 then a else spdmError Spdm.errTooLarge 0 ++ leBytes 4 a.length

end Sys2Proof.Machine
end

