-- ==== Sys2Proof/Machine/StitchOps.lean ====
section
/-! DEFINITION. Colour-line alignment, stitching and the station line (R161 to R177), with the two measurements of
spec/06. -/

namespace Sys2Proof.Machine

/-! ### Alignment (R161 to R166) -/

/-- The delay of a plane: whole lines and sixteenths (R161). -/
def State.delayL (s : State) (p i : Nat) : Nat := s.get R.PCP_ALN_DELAY_LINES p i
def State.delayF (s : State) (p i : Nat) : Nat := s.get R.PCP_ALN_DELAY_SIXTEENTHS p i

/-- The alignment span of heads (R163). -/
def State.alignSpan (s : State) (heads : List Nat) : Nat :=
  heads.foldl (fun m p => (List.range (s.headPlanes p)).foldl (fun m i =>
    max m (s.delayL p i + b2n (s.delayF p i ≠ 0))) m) 0

/-- The line `n` of a head's recent lines, or the oldest existing one with `true` (R164). -/
def lineOrOldest (ls : List PLine) (n : Int) : PLine × Bool :=
  match ls.find? fun l => (l.n : Int) = n with
  | some l => (l, false)
  | none => (ls.getLast?.getD {}, true)

/-- The lines a plane of aligned line `n` reads, with the marks they carry (R162, R164): the later one, the earlier one
when f is not 0. -/
def State.alignReads (s : State) (p i n : Nat) : List (PLine × Bool) :=
  let ls := (s.phead p).lines
  let l := s.delayL p i
  if s.delayF p i = 0 then [lineOrOldest ls ((n : Int) - l)]
  else [lineOrOldest ls ((n : Int) - l), lineOrOldest ls ((n : Int) - l - 1)]

/-- The aligned sample of column `c`, plane `i` (R161). -/
def alignSample (f cols i c : Nat) (reads : List (PLine × Bool)) : Nat :=
  match reads with
  | [a, b] => roundDiv ((16 - f) * a.1.y.getD (i * cols + c) 0 + f * b.1.y.getD (i * cols + c) 0) 16
  | a :: _ => a.1.y.getD (i * cols + c) 0
  | [] => 0

/-! ### Alignment store (R165) -/

/-- Units of 64 bytes of the alignment store that a station's heads take. -/
def State.alignUnits (s : State) (n : Nat) : Nat :=
  (s.station n).heads.foldl (fun a p => (List.range (s.headPlanes p)).foldl (fun a i =>
    a + ceilDiv (s.headCols p * (s.delayL p i + 2) * 2) 64) a) 0

/-- Units taken by the stations outside IDLE. -/
def State.alignUsed (s : State) : Nat := stations8.foldl (fun a n => if s.stBusy n then a + s.alignUnits n else a) 0

/-- PCP_ALN_STORE follows the stations outside IDLE. -/
def State.syncAlignStore (s : State) : State := s.set R.PCP_ALN_STORE_USED s.alignUsed

/-! ### Placement (R169, R170) -/

def State.rangeFirst (s : State) (p : Nat) : Nat := s.get R.PCP_STC_RANGE_FIRST p
def State.rangeWidth (s : State) (p : Nat) : Nat := s.get R.PCP_STC_XOFF_WIDTH p
def State.xoff (s : State) (p : Nat) : Int := toSigned 8 (s.get R.PCP_STC_XOFF_X p)

/-- The placed row of one plane of a head at line `n` with offset `x` (R170). -/
def State.placeRow (s : State) (p i n : Nat) (x : Int) : List Nat :=
  let reads := s.alignReads p i n
  let f := s.delayF p i
  let cols := s.headCols p
  let first := s.rangeFirst p
  let w := s.rangeWidth p
  (List.range w).map fun (j : Nat) =>
    let q : Int := 16 * (j : Int) + x
    let r := (q % 16).toNat
    let at_ (k : Int) : Nat := alignSample f cols i (first + (clampI 0 ((w : Int) - 1) k).toNat) reads
    roundDiv ((16 - r) * at_ (q / 16) + r * at_ (q / 16 + 1)) 16

/-- The placed planes of a head. -/
def State.placeHead (s : State) (p n : Nat) (x : Int) : List (List Nat) :=
  (List.range (s.headPlanes p)).map fun i => s.placeRow p i n x

/-! ### Stitching (R171, R172) -/

/-- Insert a head by its position. -/
def State.insertPos (s : State) (p : Nat) : List Nat → List Nat
  | [] => [p]
  | q :: t => if s.get R.PCP_STC_RANGE_POS p < s.get R.PCP_STC_RANGE_POS q then p :: q :: t else q :: s.insertPos p t

/-- A station's heads in the order of their positions. -/
def State.orderedHeads (s : State) (n : Nat) : List Nat := (s.station n).heads.foldl (fun acc p => s.insertPos p acc) []

def State.dvtV (s : State) (n : Nat) : Nat := s.get R.PCP_STC_ST_CTRL_V n

/-- The weight of the right head at dovetail column `i` (R171). -/
def blendWeight (mode v i : Nat) : Nat :=
  match mode with
  | 0 => roundDiv (256 * (2 * i + 1)) (2 * v)
  | 1 => if i < v / 2 then 0 else 256
  | 2 => 0
  | _ => 256

/-- Blend the last `v` columns of `l` with the first `v` of `r` (R171). -/
def blendRows (mode v : Nat) (l r : List Nat) : List Nat :=
  let k := l.length - v
  l.take k ++ ((List.range v).map fun i =>
    let w := blendWeight mode v i
    roundDiv (l.getD (k + i) 0 * (256 - w) + r.getD i 0 * w) 256) ++ r.drop v

/-- Join placed heads from left to right. -/
def joinHeads (mode v : Nat) : List (List (List Nat)) → List (List Nat)
  | [] => []
  | h :: hs => hs.foldl (fun acc r => acc.zipWith (blendRows mode v) r) h

/-- The local width W (R172). -/
def State.localWidth (s : State) (n : Nat) (heads : List Nat) : Nat :=
  let v := s.dvtV n
  heads.foldl (fun a p => a + s.rangeWidth p) 0 - (heads.length - 1) * v -
    (if s.on R.PCP_STC_ST_CTRL_SEND_LEFT n then v else 0)

/-! ### The conditioned line -/

/-- Samples as queue words, four per word. -/
def samplesToWords : List Nat → List Nat
  | a :: b :: c :: d :: t => (a % 65536 + b % 65536 * 2 ^ 16 + c % 65536 * 2 ^ 32 + d % 65536 * 2 ^ 48) :: samplesToWords t
  | [a, b, c] => [a % 65536 + b % 65536 * 2 ^ 16 + c % 65536 * 2 ^ 32]
  | [a, b] => [a % 65536 + b % 65536 * 2 ^ 16]
  | [a] => [a % 65536]
  | [] => []

/-- The samples of queue words. -/
def wordsToSamples (ws : List Nat) : List Nat := ws.flatMap fun w => [bits w 0 16, bits w 16 16, bits w 32 16, bits w 48 16]

/-- Hand a conditioned line to the store: its header and samples on queue 104 + s. -/
def State.handLine (s : State) (n : Nat) (o : OpenLine) : State :=
  let x := s.pst n
  let s1 := s.setPst n { x with last := some (max o.n (x.last.getD o.n)) }
  s1.presentItem (104 + n) ((wrap48 o.n + o.flags * 2 ^ 48) :: samplesToWords o.planes.flatten)

/-- A waiting line with its right dovetail blended, or left as it is when late (R171, R176). -/
def State.resolveLine (s : State) (n : Nat) (o : OpenLine) : Option OpenLine :=
  let v := s.dvtV n
  match o.right with
  | some r => some { o with planes := o.planes.zipWith (fun l q =>
      (blendRows (s.get R.PCP_STC_ST_CTRL_BLEND n) v l (q.take v))) r }
  | none => if o.late then some { o with flags := o.flags ||| Tag.dvtDeg } else none

/-- Hand on the lines whose dovetail is settled, in order (R177). -/
def State.flushWaiting (s : State) (n : Nat) : List OpenLine → State
  | [] => s.setPst n { s.pst n with waiting := [] }
  | o :: os =>
    match s.resolveLine n o with
    | some r => State.flushWaiting (s.handLine n r) n os
    | none => s.setPst n { s.pst n with waiting := o :: os }

/-- A member's dovetail columns go to its West neighbour (R175, R366): the header block and the samples in plane order, four
per block. -/
def State.sendDovetail (s : State) (n w : Nat) (planes : List (List Nat)) : State :=
  let v := s.dvtV n
  s.dovetailOut n ((wrap48 w + v % 512 * 2 ^ 48 + (planes.length - 1) % 8 * 2 ^ 57) ::
    samplesToWords (planes.map (·.take v)).flatten)

/-! ### Measurements (R167, R174) -/

/-- A line of the measured head (R167): a crossing lies between the line before and this one. -/
def State.alignMeasure (s : State) (p n : Nat) : State :=
  let x := s.pcp.aln
  if ¬ s.on R.PCP_ALN_MEAS_CTRL_BUSY ∨ x.head ≠ p ∨ n < x.startLine ∨ 2 ^ x.nLog ≤ x.taken then s
  else
    let cols := s.headCols p
    let y := ((s.phead p).lines.head?.map (·.y)).getD []
    let first := x.first
    let cnt := x.count
    let t := x.level * cnt
    let sum (i : Nat) : Nat := (List.range cnt).foldl (fun a c => a + y.getD (i * cols + first + c) 0) 0
    let s1 := s.each (List.range (s.headPlanes p)) fun s i =>
      match if x.prevAt + 1 = n then x.prev.getD i none else none with
      | none => s
      | some m0 =>
        let m1 := sum i
        let cross := if x.falling then decide (t < m0 ∧ m1 ≤ t) else decide (m0 < t ∧ t ≤ m1)
        if s.on R.PCP_ALN_MEAS_RES_FOUND i ∨ cross = false then s
        else
          let num : Int := 16 * ((t : Int) - m0)
          let den : Int := (m1 : Int) - m0
          let f := if den < 0 then roundDivI (-num) (-den).toNat else roundDivI num den.toNat
          let e : Int := 16 * ((n : Int) - 1) + f
          ((s.set R.PCP_ALN_MEAS_RES_SIXTEENTHS (e % 16).toNat i).set R.PCP_ALN_MEAS_RES_LINE (e / 16).toNat i).set
            R.PCP_ALN_MEAS_RES_FOUND 1 i
    { s1 with pcp := { s1.pcp with aln := { x with taken := x.taken + 1,
                                                   prev := (List.range 8).map fun i => some (sum i), prevAt := n } } }

/-- A line of the measured dovetail (R174). -/
def State.dovetailMeasure (s : State) (n w : Nat) : State :=
  let x := s.pcp.dvt
  if ¬ s.on R.PCP_DVT_MEAS_CTRL_BUSY ∨ x.station ≠ n ∨ w < x.startLine ∨ 2 ^ x.nLog ≤ x.taken then s
  else
    let hs := s.orderedHeads n
    let pos := x.pos
    let v := s.dvtV n
    match hs[pos]?, hs[pos + 1]? with
    | some l, some r =>
      let left := s.placeHead l w (s.xoff l)
      let sadAt (k : Nat) : Nat :=
        let right := s.placeHead r w (s.xoff r + ((k : Int) - 32))
        (left.zip right).foldl (fun a pr => (List.range v).foldl (fun a i =>
          a + ((pr.1.getD (pr.1.length - v + i) 0 : Int) - (pr.2.getD i 0 : Int)).natAbs) a) 0
      let sums := (List.range 65).map fun k => x.sums.getD k 0 + sadAt k
      { s with pcp := { s.pcp with dvt := { x with taken := x.taken + 1, sums := sums } } }
    | _, _ => s

/-! ### Forming a station line -/

/-- The flags of descriptor bits [53:48] for line `w`, taking descriptors until it is met; a terminator in its place
loses the line (R217). None while no descriptor is there. -/
def State.takeDesc (s : State) (n w : Nat) : Nat → Option Nat × State
  | 0 => (none, s)
  | f + 1 =>
    match s.takeDescriptor (96 + n) false with
    | (none, s1) => (none, s1)
    | (some it, s1) =>
      if it.any fun d => d.poison || d.trunc then (some 64, s1.setPst n { s1.pst n with lostDesc := lostNext it })
      else
        let w0 := (it.head?.map (·.data)).getD 0
        if bits w0 0 48 = w then (some (bits w0 48 6), s1) else State.takeDesc s1 n w f

/-- The flags of a descriptor, kept until its line is formed; a lost one has none, and its line is lost (R217). -/
def State.descFlags (s : State) (n w : Nat) : Option Nat × State :=
  match (s.pst n).desc.find? fun d => d.1 = w with
  | some d => (some d.2, s)
  | none =>
    if (s.pst n).lostDesc then (some 64, s.setPst n { s.pst n with desc := [(w, 64)], lostDesc := false })
    else
    match s.takeDesc n w 16 with
    | (some v, s1) => (some v, s1.setPst n { s1.pst n with desc := [(w, v)] })
    | (none, s1) => (none, s1)

/-- Form line `w` of station `n` once every head has conditioned it (R162, R171 to R177). -/
def State.formLine (s : State) (n w : Nat) : State :=
  let hs := s.orderedHeads n
  if hs.isEmpty ∨ ¬ (hs.all fun p => (s.phead p).lines.any fun l => l.n = w) then s
  else
    match s.descFlags n w with
    | (none, s1) => s1
    | (some d, s1) =>
      let x := s1.pst n
      let refilling := match x.refill with
        | some r => decide (r.1 ≤ w ∧ w < r.2)
        | none => false
      if refilling then s1.setPst n { x with placed := some w }
      else
        let s2 := s1.dovetailMeasure n w
        let marks := hs.flatMap fun p => (List.range (s2.headPlanes p)).flatMap fun i => s2.alignReads p i w
        let filled := (marks.any fun m => m.1.filled) || bit d 6
        let skipped := (marks.any fun m => m.1.skipped) || bit d 0
        let flags := b2n filled * Tag.filled + b2n skipped * Tag.skipped + b2n (bit d 1) * Tag.clipped +
          b2n (marks.any fun m => m.2) * Tag.alignInc + b2n (bit d 3) * Tag.velErr
        let placed := hs.map fun p => s2.placeHead p w (s2.xoff p)
        let joined := joinHeads (s2.get R.PCP_STC_ST_CTRL_BLEND n) (s2.dvtV n) placed
        let send := s2.on R.PCP_STC_ST_CTRL_SEND_LEFT n
        let planes := if send then joined.map (·.drop (s2.dvtV n)) else joined
        let s3 := if send then s2.sendDovetail n w (placed.headD []) else s2
        let o : OpenLine := { n := w, flags := flags, planes := planes }
        let y := { x with placed := some w, refill := none }
        if s3.on R.PCP_STC_ST_CTRL_RECV_RIGHT n then
          let right := (y.early.find? fun e => e.1 = w).map (·.2)
          let s4 := s3.setPst n { y with early := y.early.filter fun e => w < e.1 }
          s4.flushWaiting n (y.waiting ++ [{ o with right := right }])
        else (s3.setPst n y).handLine n o

/-- Form the lines of a list in order until one must wait. -/
def State.formList (s : State) (n : Nat) : List Nat → State
  | [] => s
  | w :: ws =>
    let s1 := s.formLine n w
    if (s1.pst n).placed = some w then State.formList s1 n ws else s1

/-- Form every line that is due: those above the newest placed that the first head has conditioned, oldest first. -/
def State.formLines (s : State) (n : Nat) : State :=
  match (s.station n).heads with
  | [] => s
  | p :: _ =>
    let ls := ((s.phead p).lines.map (·.n)).reverse
    s.formList n (ls.filter fun w => match (s.pst n).placed with
      | some q => decide (q < w)
      | none => true)

/-- Dovetail columns received for line `w` (R175, R176): blended, kept until the line is placed, or discarded when the
line has gone. -/
def State.dovetailColumns (s : State) (n w : Nat) (planes : List (List Nat)) : State :=
  let x := s.pst n
  let gone := match x.placed with
    | some q => decide (w ≤ q) && !(x.waiting.any fun o => o.n = w ∧ ¬ o.late)
    | none => false
  if gone then s
  else if x.waiting.any fun o => o.n = w then
    s.flushWaiting n (x.waiting.map fun o => if o.n = w then { o with right := some planes } else o)
  else s.setPst n { x with early := x.early.filter (fun e => e.1 ≠ w) ++ [(w, planes)] }

end Sys2Proof.Machine
end

