-- ==== Sys2Proof/Machine/KruOps.lean ====
section
/-! DEFINITION. The Kelim ring (spec/13): receiving frames, links, authentication, forming, folding, ring time, the bound on
ring length, and the issue of seal tokens. Instants are LTU units (R99). -/

open Sys2Proof

namespace Sys2Proof.Machine

/-! ### Receiving a frame (R65, R78 to R80, R346, R347, R349) -/

/-- The port of a lane. -/
def portOf (l : Nat) : Nat := l / 16

def State.kelimErr (s : State) (l : Nat) : State := s.add R.KRU_PORT_ERR_COUNT 1 (portOf l)

/-- Credits of a frame of `n` data blocks go back (R74). -/
def State.kelimReturn (s : State) (l n : Nat) : State :=
  let x := s.klane l
  let r := (x.returned + n + 2) % 65536
  (s.setKlane l { x with returned := r }).sendKblock l Blk.credit (creditBody r false 0)

/-- CREDIT INIT of a lane, with G = 8,192 (R97, R347). -/
def State.kelimInit (s : State) (l : Nat) : State :=
  let x := s.klane l
  (s.setKlane l { x with returned := 0, nak := false, refused := [], resync := true, training := false }).sendKblock l Blk.credit
    (creditBody 8192 true x.exp)

/-- A lane retrains (R96, R97, R347): it leaves the active lanes until INIT_ACK, and has to relock, to pass PRBS31 and to measure D before
its CREDIT INIT. `tell` says that this end starts it. -/
def State.kelimRetrain (s : State) (l : Nat) (tell : Bool) : State :=
  let pt := portOf l
  let m := s.get R.KRU_PORT_LANES_ACTIVE pt
  let s1 := s.set R.KRU_PORT_LANES_ACTIVE (m - (m &&& 2 ^ (l % 16))) pt
  let s2 := if tell then s1.sendKblock l Blk.linkCtrl (linkCtrlBody LinkCode.retrain) else s1
  s2.setKlane l { s2.klane l with resync := true, training := true, nak := false, refused := [] }

/-- A SEQ of a lane is refused; four refusals in a row retrain it (R80, R347). -/
def State.kelimRefuse (s : State) (l seq : Nat) : State :=
  let x := s.klane l
  let k := (SMap.find? x.refused seq).getD 0 + 1
  let s1 := s.setKlane l { x with refused := SMap.insert x.refused seq k }
  if 4 ≤ k then s1.kelimRetrain l true else s1

def State.kelimNak (s : State) (l : Nat) : State :=
  let x := s.klane l
  (s.setKlane l { x with nak := true }).sendKblock l Blk.ack (ackBody (x.exp + 255) true)

/-- A control block that has arrived on a lane (R346, R347). TIMING is not used; CRED_STATUS has a command of its own. -/
def State.kelimCtl (s : State) (l kind body : Nat) : State :=
  if kind = Blk.credit then s.kelimCredit l body
  else if kind = Blk.ack then s.kelimAck l body
  else if kind = Blk.echo then s.kelimEcho l body
  else if kind = Blk.linkCtrl ∧ bits body 0 4 = LinkCode.retrain then s.kelimRetrain l false
  else s

end Sys2Proof.Machine

namespace Sys2Proof

def KFrame.data (k : KFrame) : List Nat := k.words.map (·.toNat)
def KFrame.good (k : KFrame) : Bool :=
  !k.broken && decide (k.dblk.toNat = k.words.length) && decide (Machine.packetCrc k.hdr.toNat k.data = k.crc.toNat)
def KFrame.ftype (k : KFrame) : Nat := Machine.bits k.hdr.toNat 0 4

/-- The header of a frame (R349). -/
def KFrame.head (k : KFrame) : Machine.KHdr :=
  let h := k.hdr.toNat
  { ret := Machine.bit h 4, station := Machine.bits h 5 3, dst := Machine.bits h 8 16, src := Machine.bits h 24 16,
    aux := Machine.bits h 40 16 }

end Sys2Proof

namespace Sys2Proof.Machine

/-- Whether a frame is accepted on a lane, with acknowledge and replay (R79, R80). -/
def State.kelimTake (s : State) (l : Nat) (k : KFrame) : Bool × State :=
  let x := s.klane l
  let n := k.words.length
  let s1 := if k.good then s else s.kelimErr l
  if k.seq.toNat = x.exp then
    if k.good then
      (true, ((s1.setKlane l { x with exp := (x.exp + 1) % 256, nak := false, refused := SMap.erase x.refused x.exp }).sendKblock l
        Blk.ack (ackBody x.exp false)).kelimReturn l n)
    else (false, (((s1.setKlane l { x with nak := false }).kelimNak l).kelimReturn l n).kelimRefuse l x.exp)
  else (false, ((if x.nak then s1 else s1.kelimNak l).kelimReturn l n).kelimRefuse l k.seq.toNat)

/-- The lane carries traffic of a port in one of two states. -/
def State.laneOpen (s : State) (l st : Nat) : Bool :=
  let pt := portOf l
  s.kruOn && bit (s.get R.KRU_PORT_LANES_ACTIVE pt) (l % 16) && (s.kUp pt || decide (s.kport pt = st))

/-- What stands before a frame on its lane: the control blocks that came first (R346). -/
def State.ahead (s : State) (l : Nat) (ctl : List (BitVec 8 × BitVec 56)) : State :=
  if s.kruOn ∧ (s.kport (portOf l) = KPort.auth ∨ s.kport (portOf l) = KPort.up) then
    s.each ctl fun s c => s.kelimCtl l c.1.toNat c.2.toNat
  else s

/-- A frame of type `kind` arrives on a lane. One of another known type is no frame of this kind; one of an unknown type or of
a wrong length is counted (R349). A frame with RET = 1 goes on West, its data changed by `fwd` (R351, R357); at a dead West port
RET is cleared and it is received here (R367). -/
def State.kelimRx (s0 : State) (l : Nat) (k : KFrame) (kind : Nat) (lenOk : List Nat → Bool) (fwd : List Nat → List Nat)
    (act : KHdr → List Nat → State → State) : State :=
  let s := s0.ahead l k.ctl
  if ¬ s.laneOpen l (if kind = FType.auth then KPort.auth else KPort.up) ∨ (k.ftype ≠ kind ∧ k.ftype ≤ 11) then s
  else
    let r := s.kelimTake l k
    let h := k.head
    if ¬ r.1 then r.2
    else if k.ftype ≠ kind ∨ lenOk k.data = false then r.2.kelimErr l
    else if h.ret ∧ r.2.kUp 1 then r.2.kelimOut 1 kind h (fwd k.data)
    else act { h with ret := false } k.data r.2

/-- Process and forward a frame by its DST (R351), with the data it goes on with. -/
def State.ringDeliver (s : State) (kind : Nat) (h : KHdr) (data : List Nat) (own : State → State) : State :=
  if h.dst = broadcast then (if h.src = s.kId ∧ s.kId ≠ 0 then s else own (s.ringOut kind h data))
  else if h.dst = s.kId ∧ s.kId ≠ 0 then own s
  else s.ringOut kind h data

/-! ### What a member contributes (R354, R355) -/

/-- The member contributes to a station: it has a head of it or an engine bound to it, and is no repeater. -/
def State.contributes (s : State) (n : Nat) : Bool :=
  !s.repeater && (!(s.station n).heads.isEmpty || !(s.enginesOf n).isEmpty)

/-- The STATIONS mask (R354). -/
def State.stationMask (s : State) : Nat := stations8.foldl (fun a n => a + b2n (s.contributes n) * 2 ^ n) 0

/-- N_c of a station. -/
def State.ncOf (s : State) (n : Nat) : Nat := s.kru.nc.getD n 0

/-- KRU_MEMBER_INFO shows the member KRU_MEMBER_SEL names. -/
def State.syncMember (s : State) : State :=
  let i := s.get R.KRU_MEMBER_SEL_ID
  let m : Option KMember :=
    if i = s.kId ∧ i ≠ 0 then some { role := s.get R.KRU_STATUS_ROLE, stations := s.stationMask }
    else SMap.find? s.kru.roster i
  match m with
  | some m => ((s.set R.KRU_MEMBER_INFO_ROLE m.role).set R.KRU_MEMBER_INFO_STATIONS m.stations).set R.KRU_MEMBER_INFO_ID i
  | none => ((s.set R.KRU_MEMBER_INFO_ROLE 3).set R.KRU_MEMBER_INFO_STATIONS 0).set R.KRU_MEMBER_INFO_ID 0

/-! ### The ring state -/

def State.setRingState (s : State) (st : Nat) : State := s.set R.KRU_STATUS_STATE st

/-- The ring fails with a status. -/
def State.ringFail (s : State) (c : Status) : State :=
  ((s.setRingState Ring.failed).set R.KRU_AUD_WINDOW 0).set R.KRU_STATUS_LAST_STATUS c.code

/-- The IDs of the two neighbours in a ring of `members`. -/
def State.setNeighbours (s : State) (members : Nat) : State :=
  if members = 0 then s
  else (s.set R.KRU_PORT_STATUS_NEIGHBOUR (s.kId % members + 1) 0).set R.KRU_PORT_STATUS_NEIGHBOUR
    ((s.kId + members - 2) % members + 1) 1

/-- The HINGE frames owed go out once the ring has formed (R363). -/
def State.owedHinges (s : State) : State :=
  s.each stations8 fun s n =>
    let hs := (s.kst n).hinges
    if hs = [] then s
    else (s.setKst n { s.kst n with hinges := [] }).each hs fun s h => s.ringSend FType.hinge n broadcast [wrap48 h.1, h.2]

/-- FORMED is received or sent (R354, R356): the roster is recorded, the neighbours of this moment are known members from then on, and the
ring is in RING or CHAIN. -/
def State.takeFormed (s : State) (members : Nat) (chain : Bool) (nc : List Nat) : State :=
  let now := ([0, 1].filter s.kUp).map fun pt => SMap.get s.kru.serial 0 pt
  let s1 : State := { s with kru := { s.kru with
    members := members, nc := nc, known := s.kru.known ++ now.filter fun x => !s.kru.known.contains x } }
  if s1.ringState = Ring.forming ∨ s1.ringState = Ring.reform then
    ((((s1.setRingState (if chain then Ring.chain else Ring.ring)).set R.KRU_AUD_WINDOW 0).setNeighbours members).syncMember).owedHinges
  else s1

/-! ### TDIG and the issue of tokens (R361, R363) -/

/-- TDIG of band `b` (R363). -/
def State.tdig (s : State) (n b : Nat) : Nat :=
  crc32 ((s.valsFor n (bandStart b (s.bandExp n))).flatMap (leBytes 4))

/-- The data blocks of a TOKEN frame (R349). -/
def KTok.blocks (t : KTok) : List Nat :=
  [t.band % 2 ^ 42 + b2n t.lap * 2 ^ 42 + b2n t.bad * 2 ^ 43, t.count % 65536 + t.tdig % 2 ^ 32 * 65536]

/-- Send a token on (R361). `src` is its issuer. -/
def State.sendToken (s : State) (n src : Nat) (t : KTok) : State :=
  s.ringOut FType.token { station := n, dst := broadcast, src := src } t.blocks

/-- The next band whose token the timing member issues. -/
def State.nextToken (s : State) (n : Nat) : Nat :=
  match (s.kst n).issued with
  | some b => b + 1
  | none => if s.on R.SCU_SEAL_ST_STATUS_VALID n then s.get R.SCU_SEAL_ST_HZN_BAND n + 1 else bandOf (s.w0 n) (s.bandExp n)

/-- Whether the timing member may issue the token of band `b` (R329, R361). -/
def State.mayIssue (s : State) (n b : Nat) : Bool :=
  s.timing && s.formed && s.ringStation n && s.stBusy n && decide (s.stState n ≠ St.armed) &&
    !s.memberFrozen && decide ((s.kst n).flying.length < 16) && s.bandExists n b &&
    (!s.contributes n || ((s.sealOf n).localValid && decide (b ≤ s.get R.SCU_SEAL_ST_LOCAL_BAND n)))

/-- Issue every token that is due, in band order (R361). -/
def State.issueTokens (s : State) (n : Nat) : Nat → State
  | 0 => s
  | fuel + 1 =>
    let b := s.nextToken n
    if s.mayIssue n b then
      let x := s.kst n
      let s1 := ((s.setKst n { x with flying := x.flying ++ [b], issued := some b }).add R.KRU_TOK_ISSUED_COUNT 1).syncFlight
      (s1.sendToken n s1.kId { band := b, count := b2n (s1.contributes n), tdig := s1.tdig n b }).issueTokens n fuel
    else s

/-! ### Forming (R354) -/

/-- A frame from block values. -/
def formedBlocks (members : Nat) (chain : Bool) (nc : List Nat) : List Nat :=
  let w (i : Nat) : Nat := (List.range 4).foldl (fun a j => a + nc.getD (4 * i + j) 0 % 65536 * 2 ^ (16 * j)) 0
  [members % 65536 + b2n chain * 65536, w 0, w 1]

/-- N_c of each station: the non-repeater members with its bit set (R354). -/
def State.countMembers (s : State) : List Nat :=
  stations8.map fun n => b2n (bit s.stationMask n) +
    (s.kru.roster.filter fun e => e.2.role ≠ 2 ∧ bit e.2.stations n).length

/-- The timing member broadcasts FORMED (R354, R368). -/
def State.sendFormed (s : State) (members : Nat) : State :=
  let chain := decide (s.kru.folds ≠ []) || !(s.kUp 0 && s.kUp 1)
  let nc := s.countMembers
  (s.takeFormed members chain nc).ringSend FType.formed 0 broadcast (formedBlocks members chain nc)

/-- The timing member takes ID 1 and sends DISCOVER (R353, R354), `next` being the first ID to give. -/
def State.sendDiscover (s : State) (next : Nat) : State :=
  let s1 : State := { (s.set R.KRU_STATUS_ID 1) with kru := { s.kru with sent := true, back := false } }
  s1.ringSend FType.discover 0 broadcast [next % 65536 + 0x10 * 65536]

/-- This member's ROSTER (R354). -/
def State.sendRoster (s : State) : State :=
  s.ringSend FType.roster 0 1
    [s.kId + s.get R.KRU_STATUS_ROLE * 65536 + s.stationMask * 2 ^ 24,
     s.get R.SMC_ID_SERIAL]

/-- The timing member has its DISCOVER back and every member's ROSTER: FORMED. -/
def State.checkFormed (s : State) : State :=
  if s.timing ∧ s.ringState = Ring.forming ∧ s.kru.back = true ∧ s.kru.roster.length + 1 = s.kru.members then
    s.sendFormed s.kru.members
  else s

/-! ### Links (R348, R352, R356, R367, R368) -/

/-- The FOLD frame of a port that is lost or has returned. -/
def State.sendFold (s : State) (pt : Nat) : State :=
  s.ringSend FType.fold 0 broadcast [s.kId % 65536 + pt % 2 * 65536]

/-- A fold is reported, or a link that was reported dead has returned (log 12). -/
def State.noteFold (s : State) (id pt : Nat) : State :=
  let f := s.kru.folds
  { s with kru := { s.kru with folds := if f.contains (id, pt) then f.filter (· ≠ (id, pt)) else f ++ [(id, pt)] } }

/-- A port that will carry no traffic before it has trained or authenticated again. -/
def State.kGone (s : State) (pt : Nat) : Bool :=
  let st := s.kport pt
  decide (st = KPort.refused) || decide (st = KPort.failed) || decide (st = KPort.dead)

/-- A port that is not UP while the other one is stands for a fold of the ring; a member with an ID reports it (R352, R367). -/
def State.foldOpen (s : State) : State :=
  s.each [0, 1] fun s pt =>
    if s.kId ≠ 0 ∧ s.kUp pt = false ∧ s.kUp (1 - pt) ∧ ¬ s.kru.folds.contains (s.kId, pt) then (s.noteFold s.kId pt).sendFold pt
    else s

/-- The timing member starts to form the ring once its DISCOVER can go East, or by the fold when East will not come up (R354, R367). -/
def State.tryDiscover (s : State) : State :=
  if s.timing ∧ s.ringState = Ring.forming ∧ s.kru.sent = false ∧ (s.kUp 0 ∨ (s.kUp 1 ∧ s.kGone 0)) then
    (({ s with kru := { s.kru with roster := [] } } : State).sendDiscover 2).foldOpen
  else s

/-- Every ring station is IDLE (R356). -/
def State.ringIdle (s : State) : Bool := s.ringStations.all fun n => !s.stBusy n

/-- The timing member of a formed ring sends DISCOVER again, from the first free ID on, when a link has come up while membership may
change (R354, R356, log 118). -/
def State.rediscover (s : State) : State :=
  if s.timing ∧ s.ringIdle then s.sendDiscover (s.kru.members + 1) else s

/-- A port is lost (R352, R367): FOLD goes out of the other port and a formed ring enters REFORM; with neither port left the member
is alone. -/
def State.portLost (s : State) (pt st : Nat) : State :=
  let was := s.kUp pt
  let s1 := s.setKport pt st
  if ¬ was then
    let s2 := s1.foldOpen
    (if s2.formed ∧ s2.kru.folds ≠ s1.kru.folds then s2.reform else s2).tryDiscover
  else
    let s2 := s1.noteFold s1.kId pt
    if ¬ s2.kUp 0 ∧ ¬ s2.kUp 1 then
      (if s2.ringState = Ring.failed then s2 else (s2.dropTokens.setRingState Ring.solo).set R.KRU_AUD_WINDOW 0)
    else
      let s3 := s2.sendFold pt
      if s3.formed then s3.reform else s3

/-- A port reaches UP (R356, R368): the ring starts to form, or a fold is undone, or a member joins a formed ring. -/
def State.portUp (s : State) (pt : Nat) : State :=
  let s1 := (s.setKport pt KPort.up).set R.KRU_PORT_STATUS_LAST_STATUS 0 pt
  let st := s1.ringState
  if st = Ring.down ∨ st = Ring.solo then
    ({ (s1.setRingState Ring.forming) with kru := { s1.kru with folds := [], sent := false } } : State).tryDiscover
  else if s1.kru.folds.contains (s1.kId, pt) then
    let s2 := (s1.noteFold s1.kId pt).sendFold pt
    if s2.formed then s2.reform.rediscover else s2
  else if s1.formed then s1.reform.rediscover
  else s1.tryDiscover

/-- A port whose authentication has passed reaches UP, unless its member is outside the roster while a ring station runs
(R356). -/
def State.admitPort (s : State) (pt : Nat) : State :=
  if s.kport pt = KPort.auth ∧ SMap.get s.kru.auth 0 pt = 8 ∧
      (s.ringIdle = true ∨ s.kru.known.contains (SMap.get s.kru.serial 0 pt) = true) then s.portUp pt
  else s

/-- Links that wait for the ring stations (R356). -/
def State.admitLinks (s : State) : State := (s.admitPort 0).admitPort 1

/-! ### Authentication (R352, R494, R508) -/

/-- The request of each step: code, parameters and payload (DSP0274, log 11). -/
def authRequest (nonce : List Nat) : Nat → List Nat
  | 1 => [0x10, 0x84, 0, 0]
  | 2 => spdmMsg 0xE1 0 0 capsBody
  | 3 => spdmMsg 0xE3 0 0 algsOffer
  | 4 => [0x12, 0x81, 0, 0]
  | 5 => [0x12, 0x82, 0, 0, 0, 0, 0xFF, 0xFF]
  | 6 => [0x12, 0x83, 0, 0] ++ nonce
  | _ => [0x12, 0xE0, 1, 5] ++ nonce ++ [0]

/-- Bytes as 64-bit blocks. -/
def byteBlocks : Nat → List Nat → List Nat
  | 0, _ => []
  | f + 1, bs => if bs = [] then [] else field bs 0 8 :: byteBlocks f (bs.drop 8)

/-- An AUTH frame on a link. -/
def State.sendAuth (s : State) (pt : Nat) (msg : List Nat) : State :=
  s.kelimOut pt FType.auth { dst := s.get R.KRU_PORT_STATUS_NEIGHBOUR pt, src := s.kId, aux := msg.length }
    (byteBlocks msg.length msg)

/-- Send the request of a step. -/
def State.authStep (s : State) (pt k : Nat) : State :=
  let f := s.takeFresh
  let s1 : State := { f.2 with kru := { f.2.kru with auth := SMap.put f.2.kru.auth 0 pt k } }
  s1.sendAuth pt (authRequest s.spdmNonce k)

/-- A link is refused (R352): INTEGRITY and the event; the ring folds around it. -/
def State.refuseLink (s : State) (pt : Nat) : State :=
  let s1 : State := { s with kru := { s.kru with auth := SMap.put s.kru.auth 0 pt 0 } }
  ((s1.portLost pt KPort.refused).set R.KRU_PORT_STATUS_LAST_STATUS Status.integrity.code pt).raise Ev.linkRefused

/-- The answer to the request outstanding on a link (R352): `ok` is the verdict on its chain or signature. -/
def State.authAnswer (s : State) (pt : Nat) (ok : Bool) (digest : List Nat) (serial : Nat) : State :=
  let k := SMap.get s.kru.auth 0 pt
  if s.kport pt ≠ KPort.auth ∨ k = 0 ∨ 8 ≤ k then s
  else if ok = false ∨ s.get R.SMC_ID_CFG_OWNER ≠ 1 ∨ (k = 7 ∧ digest ≠ s.wordBytes R.SMC_OWNER_DIG_DIGEST 12) then s.refuseLink pt
  else
    let s1 : State := if k = 5 then { s with kru := { s.kru with serial := SMap.put s.kru.serial 0 pt serial } } else s
    if k = 7 then
      ({ s1 with kru := { s1.kru with auth := SMap.put s1.kru.auth 0 pt 8 } } : State).admitPort pt
    else s1.authStep pt (k + 1)

/-- Start the training of a port (R348). -/
def State.startTrain (s : State) (pt : Nat) : State := s.setKport pt KPort.train

/-- What a lane sends while it trains (R346, R348): TRAIN with VER 10h, phase 0h for lock held, 2h before PRBS31, 3h with its error
count and 4h, then ECHO. -/
def State.trainLane (s : State) (l errors : Nat) : State :=
  let s1 := (((s.sendKblock l Blk.train (trainBody 0 0x10 0)).sendKblock l Blk.train (trainBody 2 0x10 0)).sendKblock l Blk.train
    (trainBody 3 0x10 errors)).sendKblock l Blk.train (trainBody 4 0x10 0)
  let x := s1.klane l
  (s1.setKlane l { x with tag := (x.tag + 1) % 65536 }).sendKblock l Blk.echo (echoBody x.tag 0)

/-- Start the ring unit (R354, R355, R507): its role, and the training of both ports. -/
def State.startKru (s : State) : State :=
  let role := if s.dev = Dev.bare then 2 else if s.timing then 1 else 0
  ({ (((s.set R.KRU_STATUS_ROLE role).startTrain 0).startTrain 1).syncMember with kru := { s.kru with timeOff := 0 } } : State)

/-- Stop the ring unit: both ports down, no ID, no roster, no token. -/
def State.stopKru (s : State) : State :=
  let s1 := [0, 1].foldl (fun (s : State) pt =>
    (((s.setKport pt KPort.down).set R.KRU_PORT_LANES_ACTIVE 0 pt).set R.KRU_PORT_LANES_DELAY 0 pt).set
      R.KRU_PORT_STATUS_NEIGHBOUR 0 pt) s
  let s2 := (((s1.set R.KRU_STATUS_STATE Ring.down).set R.KRU_STATUS_ROLE 0).set R.KRU_STATUS_ID 0).set R.KRU_AUD_WINDOW 0
  let s3 : State := { s2.dropTokens with kru := { s2.dropTokens.kru with
    timeOff := 0, members := 0, nc := [], roster := [], sent := false, back := false, folds := [], auth := [], serial := [], known := [], lane := [] } }
  s3.syncMember

/-! ### The bound on ring length (R369) -/

/-- The largest delay of this member's links, in LTU units. -/
def State.kelimDmax (s : State) : Nat := max (s.get R.KRU_PORT_LANES_DELAY 0) (s.get R.KRU_PORT_LANES_DELAY 1)

/-- The largest N that meets both bounds (R369). Times in 1/8 ps: an LTU unit is 625. -/
def State.ringMax (s : State) (n : Nat) : Nat :=
  let hop := 4 * (1520000 + 625 * s.kelimDmax)
  let sealT := 8000000000 * s.get R.SCU_SEAL_ST_CTRL_MAXLAT n - 800000000 * s.get R.KRU_ST_CTRL_TLOCAL n
  let f := s.get R.LTU_ST_MAXRATE_RATE n
  let dvt := 2 * (8000000000000 * s.get R.PCP_STC_ST_CTRL_DVT_TIMEOUT n - 80000000 * f)
  min 65534 (min (sealT / hop) (if f = 0 then 65534 else dvt / (hop * f)))

/-! ### Alignment (R359, R360) -/

/-- T_a lies 1 ms ahead, in LTU units. -/
def alignAhead : Int := 12800000

/-- Broadcast ALIGN_REQ of station `n` at local instant `t` (R359 step 2). -/
def State.sendAlignReq (s : State) (n : Nat) (t : Int) : State :=
  let ta := s.ringTime t + alignAhead
  let x := s.kst n
  let s1 := s.setKst n { x with ta := some ta, latched := none, acks := [], owed := false }
  s1.ringSend FType.alignReq n broadcast
    [ofSigned 64 ta, wrap48 (s1.w0 n) + s1.bandExp n % 32 * 2 ^ 48,
     s1.get R.LTU_ST_RATIO_D n % 2 ^ 32 + s1.get R.LTU_ST_START_MODE n % 4 * 2 ^ 32]

/-- Arming a ring station on the timing member starts alignment; during REFORM it waits until FORMED (R359, Meetings). -/
def State.startAlign (s : State) (n : Nat) (t : Int) : State :=
  let s1 := s.set R.KRU_ST_STATUS_ALIGN 1 n
  if s1.formed then s1.sendAlignReq n t else s1.setKst n { s1.kst n with owed := true }

/-- Alignments owed once the ring has formed. -/
def State.owedAligns (s : State) (t : Int) : State :=
  s.each s.ringStations fun s n => if (s.kst n).owed ∧ s.formed = true then s.sendAlignReq n t else s

/-- A position lies beyond P_base in the direction in which lines advance. -/
def State.past (s : State) (n : Nat) (p base : Int) : Bool := decide (0 < s.fwd n * (p - base))

/-- A member sets its own P_base with offset O (R359 step 6). -/
def State.setOffset (s : State) (n : Nat) (o base : Int) : State :=
  let s1 := (s.setPos16 R.KRU_ST_OFS_COUNT R.KRU_ST_OFS_PHASE n o).setPos16 R.LTU_ST_BASE_COUNT R.LTU_ST_BASE_PHASE n (base - o)
  (s1.setKst n { s1.kst n with off := o }).setLst n { s1.lst n with based := true }

/-- Step 6 on an ARMED member at instant `t`: the run begins, or the alignment comes too late (R359). -/
def State.alignArmed (s : State) (n : Nat) (o base t : Int) : State :=
  let s1 := s.setKst n { s.kst n with ta := none }
  if s1.past n (s1.posOf n t) (base - o) then
    ((s1.set R.KRU_ST_STATUS_ALIGN 4 n).set R.KRU_ST_STATUS_LAST_STATUS Status.timeout.code n).raise Ev.alignLate
  else (((s1.setOffset n o base).enterSt n St.scanning).syncStore n).syncHeld n

/-- Step 6 of a repeated alignment (R360). -/
def State.alignAgain (s : State) (n : Nat) (o base : Int) : State :=
  let x := s.kst n
  let s1 := s.setKst n { x with ta := none }
  if 16 < (o - x.off).natAbs then (s1.set R.KRU_ST_STATUS_ALIGN_ERR 1 n).raise Ev.alignDrift
  else s1.setOffset n o base

/-- ALIGN_SET on a member whose P(T_a) is latched. -/
def State.takeAlignSet (s : State) (n : Nat) (c base t : Int) : State :=
  match (s.kst n).latched with
  | none => s
  | some p =>
    if s.stState n = St.armed then s.alignArmed n (c - p) base t
    else if s.stBusy n then s.alignAgain n (c - p) base
    else s

/-- A position as a data block: count in [47:0], phase in [63:48] (R349). -/
def posBlock (p : Int) : Nat := ofSigned 64 p / 65536 + ofSigned 64 p % 65536 * 2 ^ 48

/-- The timing member has every acknowledge and its own P(T_a): ALIGN_SET (R359 step 5). -/
def State.checkAlign (s : State) (n : Nat) (t : Int) : State :=
  let x := s.kst n
  match x.ta, x.latched with
  | some _, some c =>
    if s.timing ∧ s.ncOf n ≤ x.acks.length + b2n (s.contributes n) then
      let base : Int :=
        if s.stState n ≠ St.armed then s.base16 n
        else if s.get R.LTU_ST_START_MODE n = 0 then c + s.fwd n * (65536 * s.get R.KRU_ST_CTRL_LEAD n : Nat)
        else s.startPos n
      (s.ringSend FType.alignSet n broadcast [posBlock c, posBlock base]).takeAlignSet n c base t
    else s
  | _, _ => s

/-! ### HINGE (R363) -/

/-- HINGE of a change staged at `h` with the values it will have (R363): at once, or once the ring has formed. -/
def State.sendHinge (s : State) (n h : Nat) (vals : List Nat) : State :=
  let d := crc32 (vals.flatMap (leBytes 4))
  if ¬ s.ringStation n then s
  else if s.formed then s.ringSend FType.hinge n broadcast [wrap48 h, d]
  else s.setKst n { s.kst n with hinges := (s.kst n).hinges ++ [(h, d)] }

end Sys2Proof.Machine
end

