-- ==== Sys2Proof/Machine/MailOps.lean ====
section
/-! DEFINITION. The mailbox (R517 to R523, R526): its entries, the taking of a command, its response, and the checks every
command shares. -/

namespace Sys2Proof.Machine

/-! ### Entries (R518, R519) -/

def State.ring (s : State) (r : Nat) : Ring := SMap.get s.smc.ring {} r
def State.setRing (s : State) (r : Nat) (x : Ring) : State :=
  { s with smc := { s.smc with ring := SMap.put s.smc.ring {} r x } }

def State.mbHead (s : State) (r : Nat) : Nat := s.get R.SMC_MB_CMD_HEAD_HEAD r

/-- Entries handed over and not yet taken. -/
def State.mbHeld (s : State) (r : Nat) : Nat := (s.get R.SMC_MB_CMD_TAIL_TAIL r + 128 - s.mbHead r) % 128

/-- Byte `k` of the command whose first entry is `i`: its further entries follow modulo 128 (R520). -/
def State.cmdByte (s : State) (r i k : Nat) : Nat :=
  s.mbox.byte (0x10000 + 0x2000 * r + 0x40 * ((i + k / 64) % 128) + k % 64)

/-- `n` bytes of the command at `i` from byte `k`. -/
def State.cmdBytes (s : State) (r i k n : Nat) : List Nat := (List.range n).map fun j => s.cmdByte r i (k + j)

/-- A parameter of the command at HEAD. -/
def State.param (s : State) (r k n : Nat) : Nat := ofLe (s.cmdBytes r (s.mbHead r) k n)

def State.opAt (s : State) (r i : Nat) : Nat := ofLe (s.cmdBytes r i 0 2)
def State.extAt (s : State) (r i : Nat) : Nat := s.cmdByte r i 2 % 16

/-! ### The command set -/

/-! The opcodes of the command set. -/
namespace Op
def devInfo : Nat := 0x01
def faultClear : Nat := 0x02
def devReset : Nat := 0x03
def stDefine : Nat := 0x10
def stArm : Nat := 0x11
def stStart : Nat := 0x12
def stPause : Nat := 0x13
def stResume : Nat := 0x14
def stDrain : Nat := 0x15
def stAbort : Nat := 0x16
def stStage : Nat := 0x17
def stQuery : Nat := 0x18
def worldSet : Nat := 0x20
def ownerEnroll : Nat := 0x21
def svnCommit : Nat := 0x22
def flashWrite : Nat := 0x23
end Op

/-- The extent an opcode states; none for an unknown opcode (R520). -/
def opExt (op : Nat) : Option Nat :=
  if op = Op.ownerEnroll then some 3
  else if (1 ≤ op ∧ op ≤ 3) ∨ (0x10 ≤ op ∧ op ≤ 0x18) ∨ op = 0x20 ∨ op = 0x22 ∨ op = 0x23 then some 0
  else none

/-- A station command. -/
def isStationOp (op : Nat) : Bool := decide (0x10 ≤ op) && decide (op ≤ 0x18)

/-- A command of ring 1 only. -/
def isSecureOp (op : Nat) : Bool := op = Op.devReset || (decide (0x20 ≤ op) && decide (op ≤ 0x23))

/-! ### Order of the two rings (R522) -/

/-- What the order of R522 asks of a command: its opcode and the station it names. -/
def State.subject (s : State) (r i : Nat) : Nat × Nat :=
  let op := s.opAt r i
  (op, if isStationOp op then s.cmdByte r i 16 else 8)

/-- Two commands that name the same station, or that change the device state (R522): FAULT_CLEAR and DEV_RESET, with each other and with
the station commands, from which the other device states follow (R524, log 153). -/
def serialised (a b : Nat × Nat) : Bool :=
  let dev (x : Nat) : Bool := x = Op.faultClear || x = Op.devReset
  let may (x : Nat) : Bool := dev x || isStationOp x
  (dev a.1 && may b.1) || (may a.1 && dev b.1) || (isStationOp a.1 && isStationOp b.1 && decide (a.2 = b.2))

/-- The first entries of the commands that wait in a ring, from `i` on with `left` entries left. -/
def State.waiting (s : State) (r : Nat) : Nat → Nat → Nat → List Nat
  | 0, _, _ => []
  | fuel + 1, i, left =>
    if left = 0 then []
    else i :: s.waiting r fuel ((i + 1 + s.extAt r i) % 128) (left - (1 + s.extAt r i))

/-- The place of an entry in the order of the TAIL writes. -/
def State.arrival (s : State) (r i : Nat) : Nat := s.smc.order.findIdx fun x => x = 128 * r + i

/-- The command at HEAD of a ring waits behind one of the other ring (R522). -/
def State.behind (s : State) (r : Nat) : Bool :=
  let o := 1 - r
  let me := s.subject r (s.mbHead r)
  let running : Bool := match (s.ring o).run with
    | some x => serialised me (x.op, x.station)
    | none => false
  running || (s.waiting o 128 (s.mbHead o) (s.mbHeld o)).any fun i =>
    serialised me (s.subject o i) && decide (s.arrival o i < s.arrival r (s.mbHead r))

/-! ### Taking a command (R519 to R521, R549) -/

/-- The mailbox serves ring 1 once the Cabinet runs and ring 0 from IDLE on (R549). -/
def State.mbServed (s : State) (r : Nat) : Bool := s.booted || (decide (r = 1) && s.smc.cabRuns)

/-- A command may be considered: the ring is served, a command waits in it and none runs, and none of the other ring comes
first. -/
def State.mbReady (s : State) (r : Nat) : Bool :=
  s.mbServed r && decide (s.mbHeld r ≠ 0) && (s.ring r).run.isNone && !s.behind r

/-- The response ring has room for one entry with one left empty (R521). -/
def State.mbRoom (s : State) (r : Nat) : Bool :=
  decide ((s.get R.SMC_MB_RSP_TAIL_TAIL r + 1) % 128 ≠ s.get R.SMC_MB_RSP_HEAD_HEAD r)

/-- The entry the command at HEAD takes (R520): all that is handed over when fewer than 1 + EXT are. -/
def State.mbTakes (s : State) (r : Nat) : Nat := min (s.mbHeld r) (1 + s.extAt r (s.mbHead r))

/-- Take the command at HEAD: HEAD moves over its entries, and it is counted (R521). -/
def State.takeCommand (s : State) (r : Nat) : State :=
  let n := s.mbTakes r
  let h := s.mbHead r
  let gone := (List.range n).map fun j => 128 * r + (h + j) % 128
  let s1 := ((s.set R.SMC_MB_CMD_HEAD_HEAD ((h + n) % 128) r).set R.SMC_MB_STATUS_WAIT_RSP 0 r).set R.SMC_MB_STATUS_BUSY 1 r
  let s2 := s1.setRing r { s1.ring r with seq := (s1.ring r).seq + 1 }
  { s2 with smc := { s2.smc with order := s2.smc.order.filter fun x => !gone.contains x } }

/-! ### Responses (R521, R538) -/

/-- Write a response: the header, then `body` from byte 16 (R521). -/
def State.respond (s : State) (r op tag : Nat) (c : Status) (body : List Nat) : State :=
  let t := s.get R.SMC_MB_RSP_TAIL_TAIL r
  let bytes := leBytes 2 op ++ [c.code, 0] ++ leBytes 4 tag ++ leBytes 4 (s.ring r).seq ++ leBytes 4 0 ++
    (body ++ List.replicate (48 - body.length) 0).take 48
  let s1 : State := { s with mbox := s.mbox.write (0x14000 + 0x2000 * r + 0x40 * t) bytes }
  ((s1.set R.SMC_MB_RSP_TAIL_TAIL ((t + 1) % 128) r).set R.SMC_MB_STATUS_BUSY 0 r).raise (Ev.mbResponse r)

/-- A refused command: its counter, LAST_STATUS, LAST_OP and event, and a response that names the register whose check
failed (R521, R538). -/
def State.respondRefused (s : State) (r op tag : Nat) (c : Status) (addr detail : Nat) : State :=
  let s1 := (((s.add R.SMC_MB_REFUSED_COUNT 1 r c.code).set R.SMC_MB_STATUS_LAST_STATUS c.code r).set
    R.SMC_MB_STATUS_LAST_OP op r).raise (Ev.mbRefused r)
  s1.respond r op tag c (leBytes 4 addr ++ leBytes 4 detail)

/-- No register names the failed check (R521). -/
def noAddr : Nat := 0xFFFFFFFF

/-- What a command does: it is refused with a status, an address and a detail; it is carried out with a result; or it runs
on. -/
inductive CmdEnd where
  | refused (c : Status) (addr detail : Nat)
  /-- Refused, with the reports that the owning rule adds to the refusal (R49, R499, R538). -/
  | reported (s : State) (c : Status) (addr detail : Nat)
  | ok (s : State) (result : List Nat)
  | later (s : State) (run : Running)

/-- Station `n`'s register of a block. -/
def atReg (id : RegId) (i : Nat := 0) : Nat := RegId.addr id i

/-- The result of checks that each name a register: the first in the order of R540. -/
def pickCheck (cs : List (Option (Status × Nat))) : Option (Status × Nat) :=
  cs.foldl (fun best c =>
    match best, c with
    | none, c => c
    | b, none => b
    | some b, some c => if c.1.rank < b.1.rank then some c else some b) none

/-- A check that names the register whose check failed. -/
def checkAt (bad : Bool) (c : Status) (addr : Nat) : Option (Status × Nat) := if bad then some (c, addr) else none

/-- The device states in which a command of any kind is refused (R483, R542), with the register that shows them. -/
def State.devCheck (s : State) (r op : Nat) : Option (Status × Nat) :=
  pickCheck [
    checkAt (decide (s.dev = Dev.thermalLatch) && op != Op.devInfo && op != Op.stQuery) .state (atReg .SMC_DEV_STATE),
    checkAt (decide (s.dev = Dev.fault) && decide (s.get R.SMC_FAULT_CAUSE = 3) && decide (r = 0) && op != Op.devInfo &&
      op != Op.faultClear) .state (atReg .SMC_FAULT)]

/-- The checks every command shares, in the order of R540, with the register whose check fails (R521): WORLD (R498, the ring column),
then STATE (R483, R526, R542), then the STATION byte. -/
def State.commonCheck (s : State) (r op : Nat) : Option (Status × Nat) :=
  let n := s.param r 16 1
  let st := isStationOp op
  pickCheck [
    checkAt (isSecureOp op && decide (r = 0)) .world noAddr,
    checkAt (st && decide (r = 0) && decide (n < 8) && decide (s.stationWorld n = .secure)) .world
      (RegId.addr .SMC_WMAP_PORT ((s.station n).heads.headD 0 / 32)),
    s.devCheck r op,
    checkAt (st && op != Op.stQuery && (decide (s.dev < Dev.idle) || decide (Dev.fault ≤ s.dev))) .state (atReg .SMC_DEV_STATE),
    checkAt (st && decide (8 ≤ n)) .range noAddr]

/-- A refusal that stands before a common check in the order of R540, else that check. -/
def CmdEnd.unless (e : CmdEnd) (c : Status × Nat) : CmdEnd :=
  match e with
  | .refused d a x => if d.rank < c.1.rank then .refused d a x else .refused c.1 c.2 0
  | .reported t d a x => if d.rank < c.1.rank then .reported t d a x else .refused c.1 c.2 0
  | .ok _ _ | .later _ _ => .refused c.1 c.2 0

/-- The end of a command after the checks that every command shares. -/
def State.judged (s : State) (r op : Nat) (e : CmdEnd) : CmdEnd :=
  match s.commonCheck r op with
  | some c => e.unless c
  | none => e

/-- A ring whose response ring is full waits (R521). -/
def State.waitRsp (s : State) (r : Nat) : State := s.set R.SMC_MB_STATUS_WAIT_RSP 1 r

/-- A command row: the command at HEAD of the ring has this opcode and is well formed (R519 to R523). The step is nothing
where it is not, or where it must wait. -/
def State.command (s : State) (r op : Nat) (act : State → CmdEnd) : State :=
  let h := s.mbHead r
  if s.mbReady r ∧ s.opAt r h = op ∧ opExt op = some (s.extAt r h) ∧ s.extAt r h < s.mbHeld r then
    if s.mbRoom r then
      let tag := ofLe (s.cmdBytes r h 4 4)
      let s1 := s.takeCommand r
      match s.judged r op (act s) with
      | .refused c a d => s1.respondRefused r op tag c a d
      | .reported t c a d => (t.takeCommand r).respondRefused r op tag c a d
      | .ok t res => (t.takeCommand r).respond r op tag .ok res
      | .later t x =>
        let u := t.takeCommand r
        u.setRing r { u.ring r with run := some { x with op := op, tag := tag } }
    else s.waitRsp r
  else s

/-- A malformed command at HEAD (R520): LENGTH for a short extent or one that disagrees with its opcode, RANGE for an
unknown opcode, before which STATE comes where the device state refuses every command (R540). -/
def State.malformed (s : State) (r : Nat) : Option (Status × Nat) :=
  let h := s.mbHead r
  if s.mbHeld r < 1 + s.extAt r h then some (.length, noAddr)
  else match opExt (s.opAt r h) with
    | none => (s.devCheck r (s.opAt r h)).or (some (.range, noAddr))
    | some e => if s.extAt r h = e then none else some (.length, noAddr)

/-- End the command that runs on a ring (R493, R530, R536, R542, R55). -/
def State.endRun (s : State) (r : Nat) (c : Status) (body : List Nat) : State :=
  match (s.ring r).run with
  | none => s
  | some x =>
    let s1 := s.setRing r { s.ring r with run := none }
    if c = .ok then s1.respond r x.op x.tag c body
    else s1.respondRefused r x.op x.tag c (ofLe (body.take 4)) (ofLe (body.drop 4))

/-- The register bytes of a refusal that names none. -/
def noDetail : List Nat := leBytes 4 noAddr ++ leBytes 4 0

/-- End a running command of the kinds given with STATE (R483, R542): the device state has changed. A stage that waits for VMAX no longer
does. -/
def State.endRunning (s : State) (r : Nat) (kind : Nat → Bool) : State :=
  match (s.ring r).run with
  | none => s
  | some x =>
    if kind x.op then
      let s1 : State := { s with pace := { s.pace with waits := s.pace.waits.filter (· ≠ .stage r) } }
      s1.endRun r .state (leBytes 4 (atReg .SMC_DEV_STATE) ++ leBytes 4 0)
    else s

/-- A running command of an opcode, on the ring that runs it. -/
def State.runningOp (s : State) (op : Nat) : Option (Nat × Running) :=
  [0, 1].findSome? fun r =>
    match (s.ring r).run with
    | some x => if x.op = op then some (r, x) else none
    | none => none

end Sys2Proof.Machine
end

