-- ==== Sys2Proof/Machine/CellOps.lean ====
section
/-! DEFINITION. The cell library (spec/10): what each cell computes from its operands, without the fabric. -/

namespace Sys2Proof.Machine

/-! ### Cell records (R274, R275) -/

def CellCfg.used (g : CellCfg) : Bool := bit g.cw 24
def CellCfg.src (g : CellCfg) (i : Nat) : Nat := bits g.cw (8 * i) 8
def CellCfg.enabled (g : CellCfg) (p : Nat) : Bool := bit g.cw (25 + p)
def CellCfg.cph (g : CellCfg) : Bool := bit g.cw 29
def CellCfg.isign (g : CellCfg) : Bool := bit g.cw 30
def CellCfg.osign (g : CellCfg) : Bool := bit g.cw 31
def CellCfg.base (g : CellCfg) : Nat := bits g.cw 32 22

/-- The five cell types (spec/09). -/
inductive CellKind where
  | arith | lookup | window | reduce | port
  deriving DecidableEq, Repr

def cellKind (c : Nat) : CellKind :=
  if c < 24 then .arith else if c < 32 then .lookup else if c < 40 then .window else if c < 44 then .reduce else .port

/-- How many inputs an arithmetic operation uses (R282). -/
def arithInputs (op : Nat) : Nat :=
  if op = 0 ∨ op = 15 then 1 else if op = 5 ∨ op = 7 ∨ op = 11 then 3 else 2

/-- How many inputs a cell uses (R275). -/
def CellCfg.inputCount (g : CellCfg) (c : Nat) : Nat :=
  match cellKind c with
  | .arith => arithInputs (bits g.tw 0 4)
  | .lookup => 1
  | .window => 1
  | .reduce => if bits g.tw 0 3 = 4 then 2 else 1
  | .port => if bit g.tw 0 then 1 else 0

/-- The inputs of a cell with their sources. -/
def CellCfg.inputs (g : CellCfg) (c : Nat) : List (Nat × Nat) :=
  (List.range (g.inputCount c)).map fun i => (i, g.src i)

/-- The inputs whose source names a cell (R276), the lead input first. -/
def CellCfg.cellInputs (g : CellCfg) (c : Nat) : List (Nat × Nat) := (g.inputs c).filter fun p => p.2 < 48

/-! ### Lanes and numbers (R251, R281) -/

def lane (w i : Nat) : Nat := bits w (16 * i) 16

def packLanes (ls : List Nat) : Nat :=
  lane (ls.getD 0 0) 0 + lane (ls.getD 1 0) 0 * 2 ^ 16 + lane (ls.getD 2 0) 0 * 2 ^ 32 + lane (ls.getD 3 0) 0 * 2 ^ 48

def lanes4 : List Nat := [0, 1, 2, 3]

/-- An operand lane under ISIGN. -/
def rdLane (isign : Bool) (v : Nat) : Int := if isign then toSigned 16 v else (v : Int)

/-- sat under OSIGN, as a lane. -/
def wrLane (osign : Bool) (r : Int) : Nat :=
  if osign then ofSigned 16 (satS 16 r) else (clampI 0 65535 r).toNat

/-- COND (R282). -/
def condHolds (k : Nat) (a b : Int) : Bool :=
  match k with
  | 0 => a == b
  | 1 => a != b
  | 2 => decide (a < b)
  | 3 => decide (a ≤ b)
  | 4 => decide (b < a)
  | 5 => decide (b ≤ a)
  | _ => false

/-- One lane of an arithmetic operation other than MAC and HSUM (R282). -/
def arithLane (g : CellCfg) (a b c : Nat) : Nat :=
  let sh := bits g.tw 4 5
  let x := rdLane g.isign a
  let y := rdLane g.isign b
  let z := rdLane g.isign c
  let out (r : Int) : Nat := wrLane g.osign (roundDivI r (2 ^ sh))
  match bits g.tw 0 4 with
  | 0 => out x
  | 1 => out (x + y)
  | 2 => out (x - y)
  | 3 => out ((x - y).natAbs : Int)
  | 4 => out (x * y)
  | 5 => out (x * y + z * (2 ^ sh : Nat))
  | 7 => out (min (max x y) z)
  | 8 => out (min x y)
  | 9 => out (max x y)
  | 10 => if condHolds (bits g.tw 9 3) x y then 0xFFFF else 0
  | 11 => if c ≠ 0 then a else b
  | 12 => a &&& b
  | 13 => a ||| b
  | 14 => a ^^^ b
  | _ => 0

/-- An arithmetic word other than a MAC (R282). -/
def arithWord (g : CellCfg) (a b c : Nat) : Nat :=
  if bits g.tw 0 4 = 15 then
    let sum := lanes4.foldl (fun acc i => acc + rdLane g.isign (lane a i)) (0 : Int)
    wrLane g.osign (roundDivI sum (2 ^ bits g.tw 4 5))
  else packLanes (lanes4.map fun i => arithLane g (lane a i) (lane b i) (lane c i))

/-- The MAC accumulators after one more word (R283). -/
def macStep (g : CellCfg) (acc : List Int) (a b : Nat) : List Int :=
  lanes4.map fun i => satS 40 (acc.getD i 0 + rdLane g.isign (lane a i) * rdLane g.isign (lane b i))

/-- The word a MAC run emits (R283). -/
def macWord (g : CellCfg) (acc : List Int) : Nat :=
  packLanes (lanes4.map fun i => wrLane g.osign (roundDivI (acc.getD i 0) (2 ^ bits g.tw 4 5)))

/-! ### Local store -/

/-- A 16-bit entry of local store at a unit base and an entry index (R284). -/
def Engine.ls16 (x : Engine) (base i : Nat) : Nat :=
  bits (SMap.get x.ls 0 (base * 16 + i / 2)) (16 * (i % 2)) 16

/-- Constant `j` of an engine (R275). -/
def Engine.const (x : Engine) (j : Nat) : Nat :=
  SMap.get x.ls 0 (65408 + 2 * j) + SMap.get x.ls 0 (65409 + 2 * j) * 2 ^ 32

/-- A constant as a cell reads it in phase `p` (R277). -/
def Engine.constIn (x : Engine) (g : CellCfg) (j p : Nat) : Nat :=
  x.const ((if g.cph then j + 16 * p else j) % 64)

/-- One lane of a lookup (R284). -/
def lookupLane (x : Engine) (g : CellCfg) (a : Nat) : Nat :=
  let ish := bits g.tw 0 4
  let u := if g.isign then (toSigned 16 a + 32768).toNat else a
  let i0 := u / 2 ^ ish
  let i := min i0 4095
  let f := if 4095 < i0 then 0 else u % 2 ^ ish
  let t (k : Nat) : Int := rdLane g.osign (x.ls16 g.base (min k 4095))
  if bit g.tw 4 then ofSigned 16 (roundDivI (t i * (2 ^ ish : Nat) + (t (i + 1) - t i) * f) (2 ^ ish))
  else x.ls16 g.base i

def lookupWord (x : Engine) (g : CellCfg) (a : Nat) : Nat := packLanes (lanes4.map fun i => lookupLane x g (lane a i))

/-! ### Windows (R285 to R287) -/

def winH (g : CellCfg) : Nat := bits g.tw 0 3
def winHalf (g : CellCfg) : Nat := (winH g - 1) / 2
def winFirst (g : CellCfg) : Nat := bits g.tw 27 19
def winWidth (g : CellCfg) : Nat := bits g.tw 46 16 + 1

/-- Sample `x` of a row of words, by the EDGE rule (R287). -/
def rowSample (g : CellCfg) (ws : List Nat) (x : Int) : Nat :=
  let n : Int := 4 * winWidth g
  if x < 0 then (if bit g.tw 8 then 0 else lane (ws.getD 0 0) 0)
  else if n ≤ x then (if bit g.tw 8 then 0 else lane (ws.getD (winWidth g - 1) 0) 3)
  else lane (ws.getD (x.toNat / 4) 0) (x.toNat % 4)

/-- The row at distance `dy` from the row at place `i` of the rows held, newest first: older rows read as the oldest
held, newer ones as the newest held (R287). -/
def rowAt (rows : List Row) (i : Nat) (dy : Int) : Row :=
  let k : Int := (i : Int) - dy
  rows.getD (clampI 0 ((rows.length : Int) - 1) k).toNat {}

/-- The window of the sample `x` of the row at place `i`: (row, column, sample) in the order of the coefficients. -/
def winSamples (g : CellCfg) (rows : List Row) (i : Nat) (x : Int) : List Nat :=
  let h := winHalf g
  let wd := bits g.tw 3 3
  let hw := (wd - 1) / 2
  (List.range (winH g)).flatMap fun (r : Nat) =>
    (List.range wd).map fun (c : Nat) => rowSample g (rowAt rows i ((r : Int) - h)).words (x + (c : Int) - hw)

/-- The signed value of a 3-bit offset. -/
def off3 (v : Nat) : Int := toSigned 3 v

/-- The result for one centre sample (R286). -/
def winResult (x : Engine) (g : CellCfg) (rows : List Row) (i p : Nat) (cx : Int) : Nat :=
  let isg := g.isign
  match bits g.tw 6 2 with
  | 0 => wrLane g.osign (rdLane isg (rowSample g (rowAt rows i (off3 (bits g.tw 10 3))).words (cx + off3 (bits g.tw 13 3))))
  | 1 =>
    let ss := winSamples g rows i cx
    let sum := (ss.foldl (fun (acc : Int × Nat) v =>
      let t := acc.2
      let c := toSigned 16 (lane (x.constIn g (bits g.tw 16 6 + t / 4) p) (t % 4))
      (acc.1 + c * rdLane isg v, t + 1)) (0, 0)).1
    wrLane g.osign (roundDivI sum (2 ^ (14 + bits g.tw 22 5)))
  | 2 =>
    match (winSamples g rows i cx).map (rdLane isg) with
    | [] => 0
    | v :: vs => wrLane g.osign (vs.foldl min v)
  | _ =>
    match (winSamples g rows i cx).map (rdLane isg) with
    | [] => 0
    | v :: vs => wrLane g.osign (vs.foldl max v)

/-- The item of the row at place `i` of the rows held (R287): header with the flags of every row in its window, then one
word per four centre samples, with the mark of the row on the last. -/
def winItem (x : Engine) (g : CellCfg) (rows : List Row) (i p : Nat) : List FWord :=
  let row := rows.getD i {}
  let h := winHalf g
  let flags := (List.range (winH g)).foldl (fun acc (r : Nat) => acc ||| hdrFlags (rowAt rows i ((r : Int) - h)).hdr) 0
  let hdr := row.hdr - hdrFlags row.hdr * 2 ^ 48 + flags * 2 ^ 48
  let n := winWidth g
  { data := hdr, phase := row.phase } ::
    (List.range n).map fun (w : Nat) =>
      let d := packLanes (lanes4.map fun (l : Nat) => winResult x g rows i p (4 * (w : Int) + l))
      { data := d, fin := w + 1 == n, mark := w + 1 == n && row.mark, phase := row.phase }

/-- The items of the rows still owed, oldest first (R287). -/
def winOwed (x : Engine) (g : CellCfg) (c : Cell) (p : Nat) : List FWord :=
  ((List.range c.owed).reverse).flatMap fun i => winItem x g c.rows i p

/-! ### Reduces (R288, R289) -/

def redOp (g : CellCfg) : Nat := bits g.tw 0 3
def redScope (g : CellCfg) : Nat := bits g.tw 3 2
def redComb (g : CellCfg) : Bool := bit g.tw 5
def redGroup (g : CellCfg) : Nat := bits g.tw 14 17
def redN (g : CellCfg) : Nat := bits g.tw 32 13 + 1

/-- One value joins a gathering set. -/
def redVal (g : CellCfg) (acc : Option (Int × Nat)) (a b : Nat) (idx : Nat) : Option (Int × Nat) :=
  let v := rdLane g.isign a
  match redOp g with
  | 0 => some (satS 40 ((acc.map (·.1)).getD 0 + v), 0)
  | 1 => match acc with
    | none => some (v, 0)
    | some (m, _) => some (min m v, 0)
  | 2 => match acc with
    | none => some (v, 0)
    | some (m, _) => some (max m v, 0)
  | 3 => match acc with
    | none => some (v, idx)
    | some (m, i) => if m < v then some (v, idx) else some (m, i)
  | _ =>
    let n := (acc.map (·.1)).getD 0
    some (if condHolds (bits g.tw 6 3) v (rdLane g.isign b) then min 65535 (n + 1) else n, 0)

/-- One word joins the sets of a position: four sets lane by lane, or one set for the four lanes. `idx` gives the index
of a lane. -/
def redWord (g : CellCfg) (sets : List (Option (Int × Nat))) (a b : Nat) (idx : Nat → Nat) : List (Option (Int × Nat)) :=
  if redComb g then
    [lanes4.foldl (fun acc l => redVal g acc (lane a l) (lane b l) (idx l)) (sets.getD 0 none)]
  else lanes4.map fun l => redVal g (sets.getD l none) (lane a l) (lane b l) (idx l)

/-- What one set outputs; a set with no value outputs 0 for a sum or a count, and a free lane where the manual states no
extreme of nothing (log 3). -/
def redOut (g : CellCfg) (free : Nat) (v : Option (Int × Nat)) : Nat :=
  match redOp g, v with
  | 0, none => 0
  | 0, some (n, _) => wrLane g.osign (roundDivI n (2 ^ bits g.tw 9 5))
  | 4, none => 0
  | 4, some (n, _) => n.toNat
  | _, none => Config.freeLane free % 65536
  | _, some (n, _) => wrLane g.osign n

/-- The output word of a position (R289). The index of a set is held as item × 2^32 + position × 4 + lane in BAND
scope. -/
def redOutWord (g : CellCfg) (free : Nat) (sets : List (Option (Int × Nat))) : Nat :=
  if redComb g then
    let v := sets.getD 0 none
    let i := (v.map (·.2)).getD (Config.freeLane free)
    if redOp g = 3 then
      if redScope g = 2 then packLanes [redOut g free v, bits (i / 2 ^ 32) 0 16, bits i 0 16, bits i 16 16]
      else packLanes [redOut g free v, bits i 0 16, bits i 16 16, 0]
    else packLanes [redOut g free v, 0, 0, 0]
  else if redOp g = 3 then
    packLanes (lanes4.map fun l => min 65535 (((sets.getD l none).map (·.2)).getD (Config.freeLane free)))
  else packLanes (lanes4.map fun l => redOut g free (sets.getD l none))

/-- The index ARGMAX gives a lane (R289). -/
def redIdx (g : CellCfg) (posInGroup item l : Nat) : Nat :=
  match redScope g with
  | 0 => if redComb g then posInGroup * 4 + l else posInGroup
  | 1 => item
  | _ => item * 2 ^ 32 + posInGroup * 4 + l

end Sys2Proof.Machine
end

