-- ==== Sys2Proof/Machine/FabricOps.lean ====
section
/-! DEFINITION. The cell fabric (R250 to R253, R276 to R295): links, firings, and the port cells. -/

namespace Sys2Proof.Machine

def Engine.cell (x : Engine) (c : Nat) : Cell := SMap.get x.cells {} c
def Engine.setCell (x : Engine) (c : Nat) (k : Cell) : Engine := { x with cells := SMap.put x.cells {} c k }
def Engine.cfgOf (x : Engine) (c : Nat) : CellCfg := SMap.get x.cfg {} c

/-- An input of a cell as a link's reader. -/
def linkKey (c i : Nat) : Nat := c * 4 + i

/-- The inputs that a cell's output feeds (R252). -/
def Engine.consumers (x : Engine) (src : Nat) : List Nat :=
  x.cfg.flatMap fun e =>
    if e.2.used then ((e.2.cellInputs e.1).filter fun p => p.2 = src).map fun p => linkKey e.1 p.1 else []

/-- The word an input of a cell holds (R252). -/
def Engine.peek (x : Engine) (c : Nat) (p : Nat × Nat) : Option FWord :=
  let k := x.cell p.2
  match k.out with
  | some w => if k.taken.contains (linkKey c p.1) then none else some w
  | none => none

/-- An input takes its word; the word leaves its place once every input it feeds has taken it (R252). -/
def Engine.take (x : Engine) (c : Nat) (p : Nat × Nat) : Engine :=
  let k := x.cell p.2
  let t := linkKey c p.1 :: k.taken
  if (x.consumers p.2).all fun q => t.contains q then x.setCell p.2 { k with out := none, taken := [] }
  else x.setCell p.2 { k with taken := t }

/-- A cell's result: the first word goes to its output place, the rest it owes. -/
def Cell.put (k : Cell) (ws : List FWord) : Cell :=
  match ws with
  | [] => k
  | w :: t => { k with out := some w, taken := [], pend := t }

/-- A marker-only word (R253). -/
def markerWord (p : Nat) : FWord := { fin := true, mark := true, phase := p, marker := true }

/-- The rows owed with the header-only items between them, in order (R287). -/
def winFlush (x : Engine) (g : CellCfg) (k : Cell) (p : Nat) : List FWord :=
  ((List.range k.owed).flatMap fun j =>
    winItem x g k.rows (k.owed - 1 - j) p ++ ((k.closers.filter fun c => c.1 = j + 1).map (·.2)))

/-- A window's state after its history is cleared. -/
def Cell.clearRows (k : Cell) : Cell := { k with rows := [], owed := 0, closers := [], cur := none }

/-- The DEGRADED bit of the bands of the rows owed (R287). -/
def Engine.degradeOwed (x : Engine) (k : Cell) (kx : Nat) : Engine :=
  (k.rows.take k.owed).foldl (fun x r => x.degrade (bandOf (hdrWpi r.hdr) kx)) x

/-- A reduce's state for a new band, a MAC's for a new run. -/
def Cell.clearState (k : Cell) : Cell :=
  { k with acc := [], run := 0, vals := [], items := 0, flags := 0, inBand := false }

/-- The cell ends its band with a marker-only word (R253, R279). -/
def Engine.endMarker (x : Engine) (c : Nat) (g : CellCfg) (kx p : Nat) : Engine :=
  let k := x.cell c
  let k1 : Cell := { (k.clearState).clearRows with inItem := false, skipping := false, skip := [], marks := k.marks + 1 }
  let x1 := x.degradeOwed k kx
  x1.setCell c (k1.put (winFlush x g k p ++ [markerWord p]))

/-- What became of a firing. -/
inductive Fire where
  | idle
  | done (x : Engine) (free : Nat)
  | fault (kind : Nat)
  deriving DecidableEq, Repr

/-- The result item of a band-scope reduce (R288); `last` is the header of the band's last item. -/
def redItem (g : CellCfg) (k : Cell) (free p : Nat) : List FWord :=
  let n := if redScope g = 1 then redN g else 1
  let hdr := k.hdr - hdrFlags k.hdr * 2 ^ 48 + k.flags * 2 ^ 48
  { data := hdr, phase := p } ::
    (List.range n).map fun (j : Nat) => { data := redOutWord g (free + j) (k.vals.getD j []), fin := j + 1 == n, mark := j + 1 == n, phase := p }

/-- A reduce closes its band at the band mark (R288). It holds the band-marked word while it writes its result item, one
word a firing (R290); a band with no data item yields a marker-only word, in one firing. -/
def Engine.redClose (x : Engine) (c : Nat) (g : CellCfg) (k : Cell) (free p : Nat) : Fire :=
  if k.items = 0 then .done (x.setCell c ({ k.clearState with marks := k.marks + 1 }.put [markerWord p])) 0
  else .done (x.setCell c { k.clearState with marks := k.marks + 1, hold := true, pend := redItem g k free p })
    (if redScope g = 1 then redN g else 1)

/-- A header firing (R276, R280, R287, R288). -/
def Engine.fireHeader (x : Engine) (c : Nat) (g : CellCfg) (kx free : Nat) (w : FWord) : Fire :=
  let k := x.cell c
  let k0 : Cell := { k with inItem := !w.fin, hdr := w.data, pos := 0, marks := k.marks + b2n w.mark }
  let void := bit w.data 58
  match cellKind c with
  | .window =>
    if void then .done ((x.degradeOwed k kx).setCell c (k0.clearRows.put (winFlush x g k w.phase ++ [w]))) 0
    else if w.fin then
      if k.owed = 0 then .done (x.setCell c (k0.put [w])) 0
      else .done (x.setCell c { k0 with closers := k.closers ++ [(k.owed, w)] }) 0
    else .done (x.setCell c { k0 with cur := some ⟨w.data, false, w.phase, []⟩ }) 0
  | .reduce =>
    if void then .done (x.setCell c (k0.clearState.put [w])) 0
    else if redScope g = 0 then .done (x.setCell c ({ k0.clearState with inBand := true }.put [w])) 0
    else
      let k1 : Cell := { k0 with flags := k.flags ||| hdrFlags w.data, inBand := true, run := 0 }
      if w.mark then x.redClose c g { k1 with marks := k.marks } free w.phase else .done (x.setCell c k1) 0
  | _ => .done (x.setCell c ({ k0 with acc := [], run := 0 }.put [w])) 0

/-- A data firing of a window (R285 to R287). -/
def Engine.fireWindow (x : Engine) (c : Nat) (g : CellCfg) (kx : Nat) (w : FWord) : Fire :=
  let k := x.cell c
  let row := k.cur.getD ⟨k.hdr, false, w.phase, []⟩
  let inside := decide (winFirst g ≤ k.pos ∧ k.pos < winFirst g + winWidth g)
  let row1 : Row := { row with words := if inside then row.words ++ [w.data] else row.words, mark := w.mark }
  let k1 : Cell := { k with pos := k.pos + 1, inItem := !w.fin, marks := k.marks + b2n w.mark, cur := some row1 }
  if w.fin then
    let short := winWidth g - row1.words.length
    let row2 : Row := { row1 with words := row1.words ++ List.replicate short 0 }
    let x1 := if short = 0 then x else x.degrade (bandOf (hdrWpi row.hdr) kx)
    let rows := (row2 :: k.rows).take (winH g)
    let owed := k.owed + 1
    if winHalf g < owed then
      let items := winItem x g rows (winHalf g) w.phase ++ ((k.closers.filter fun q => q.1 = 1).map (·.2))
      let rest := (k.closers.filter fun q => 1 < q.1).map fun q => (q.1 - 1, q.2)
      .done (x1.setCell c ({ k1 with rows := rows, owed := owed - 1, closers := rest, cur := none }.put items)) 0
    else .done (x1.setCell c { k1 with rows := rows, owed := owed, cur := none }) 0
  else .done (x.setCell c k1) 0

/-- A data firing of a reduce (R288, R289). -/
def Engine.fireReduce (x : Engine) (c : Nat) (g : CellCfg) (free : Nat) (w : FWord) (b : Nat) : Fire :=
  let k := x.cell c
  if redScope g = 0 then
    let sets := redWord g (k.vals.getD 0 []) w.data b (redIdx g k.run 0)
    let endGroup := w.fin || (redGroup g ≠ 0 && k.run + 1 == redGroup g)
    let k1 : Cell := { k with inItem := !w.fin, pos := k.pos + 1, marks := k.marks + b2n w.mark }
    if endGroup then
      .done (x.setCell c ({ k1 with vals := [], run := 0 }.put
        [{ w with data := redOutWord g free sets }])) 1
    else .done (x.setCell c { k1 with vals := [sets], run := k.run + 1 }) 0
  else
    let n := if redScope g = 1 then redN g else 1
    let vals := if k.vals.isEmpty then List.replicate n [] else k.vals
    let j := if redScope g = 1 then k.pos else 0
    let vals1 := if j < n then vals.set j (redWord g (vals.getD j []) w.data b (redIdx g k.pos k.items)) else vals
    let k1 : Cell := { k with inItem := !w.fin, pos := k.pos + 1, vals := vals1, items := k.items + b2n w.fin }
    if w.mark then x.redClose c g k1 free w.phase else .done (x.setCell c k1) 0

/-- A data firing of an arithmetic cell (R282, R283). -/
def Engine.fireArith (x : Engine) (c : Nat) (g : CellCfg) (w : FWord) (b d : Nat) : Fire :=
  let k := x.cell c
  let k1 : Cell := { k with inItem := !w.fin, pos := k.pos + 1, marks := k.marks + b2n w.mark }
  if bits g.tw 0 4 = 6 then
    let acc := macStep g k.acc w.data b
    if w.fin ∨ k.run = bits g.tw 16 16 then
      .done (x.setCell c ({ k1 with acc := [], run := 0 }.put [{ w with data := macWord g acc }])) 0
    else .done (x.setCell c { k1 with acc := acc, run := k.run + 1 }) 0
  else .done (x.setCell c (k1.put [{ w with data := arithWord g w.data b d }])) 0

/-- The operand of input `i` in a data firing: a word of the list, or a constant (R250, R277). -/
def Engine.operand (x : Engine) (g : CellCfg) (ws : List (Nat × FWord)) (i p : Nat) : Nat :=
  match ws.find? fun q => q.1 = i with
  | some q => q.2.data
  | none => if 64 ≤ g.src i then x.constIn g (g.src i - 64) p else 0

/-- Operands are taken and the cell computes: none holds a marker-only word and the marks agree. -/
def Engine.fireTaken (x : Engine) (c : Nat) (g : CellCfg) (kx free : Nat) (lead : FWord) (ws : List (Nat × FWord)) :
    Fire :=
  let k := x.cell c
  let leadIdx := ((g.cellInputs c).head?.map (·.1)).getD 0
  if ¬ g.enabled lead.phase then
    let x1 := if k.owed = 0 then x else
      (x.degradeOwed k kx).setCell c ({ k.clearRows with inItem := k.inItem }.put (winFlush x g k lead.phase))
    let k1 := x1.cell c
    if lead.mark then
      if k.owed = 0 then
        .done (x1.setCell c ({ k1.clearState with inItem := false, marks := k.marks + 1 }.put [markerWord lead.phase])) 0
      else
        .done (x1.setCell c { k1.clearState with inItem := false, marks := k.marks + 1,
                                                 pend := k1.pend ++ [markerWord lead.phase] }) 0
    else .done (x1.setCell c { k1 with inItem := !lead.fin }) 0
  else if k.inItem then
    let a := x.operand g ws 0 lead.phase
    let b := x.operand g ws 1 lead.phase
    let d := x.operand g ws 2 lead.phase
    let w : FWord := if leadIdx = 0 then lead else { lead with data := a }
    match cellKind c with
    | .arith => x.fireArith c g w b d
    | .lookup =>
      .done (x.setCell c ({ k with inItem := !w.fin, marks := k.marks + b2n w.mark }.put
        [{ w with data := lookupWord x g w.data }])) 0
    | .window => x.fireWindow c g kx w
    | .reduce => x.fireReduce c g free w b
    | .port => .idle
  else x.fireHeader c g kx free lead

/-- Every bound input of a cell takes its word. -/
def Engine.takeAll (x : Engine) (c : Nat) : Engine := ((x.cfgOf c).cellInputs c).foldl (fun y p => y.take c p) x

/-- A cell's operands are taken with the firing; a reduce that closes its band leaves them in place (R290). -/
def Engine.fireHeld (x : Engine) (c : Nat) (g : CellCfg) (kx free : Nat) (lead : FWord) (ws : List (Nat × FWord)) :
    Fire :=
  match x.fireTaken c g kx free lead ws with
  | .done y n => .done (if (y.cell c).hold then y else y.takeAll c) n
  | f => f

/-- A window that still writes an item reads its next word in the same firing, when that word asks it to write nothing
(R34, R252, R253: one word through each stage per slot): no marker, no END, no VOID header, no disabled phase. -/
def Engine.readsOn (x : Engine) (c : Nat) (g : CellCfg) : Option (Nat × FWord) :=
  if cellKind c ≠ .window then none
  else
    match g.cellInputs c with
    | p :: _ =>
      match x.peek c p with
      | some w => if w.marker ∨ w.fin ∨ w.mark ∨ ¬ g.enabled w.phase ∨ w.void then none else some (p.1, w)
      | none => none
    | [] => none

/-- A firing that writes the next word the cell owes. -/
def Engine.fireOwed (x : Engine) (c : Nat) (g : CellCfg) (kx free : Nat) (w : FWord) (ws : List FWord) : Fire :=
  let k := x.cell c
  let y := x.setCell c { k with out := some w, taken := [], pend := ws, hold := k.hold && !ws.isEmpty }
  if k.hold then .done (if ws.isEmpty then y.takeAll c else y) 0
  else
    match x.readsOn c g with
    | some (i, v) => y.fireHeld c g kx free v [(i, v)]
    | none => .done y 0

/-- A firing of a cell that is not a port (R252, R253, R279). A VOID item that ends its band on one operand while another goes on
is no data on that port: the cell does as with a marker-only word, and does not fault (R272, log 110). -/
def Engine.fire (x : Engine) (c kx free : Nat) : Fire :=
  let g := x.cfgOf c
  let k := x.cell c
  if ¬ g.used ∨ k.out.isSome then .idle
  else
    match k.pend with
    | w :: ws => x.fireOwed c g kx free w ws
    | [] =>
      let ins := g.cellInputs c
      if k.skipping then
        let avail := (ins.filter fun p => k.skip.contains p.1).filterMap fun p => (x.peek c p).map fun w => (p, w)
        if avail.isEmpty then .idle
        else
          let x1 := avail.foldl (fun x p => x.take c p.1) x
          let left := k.skip.filter fun i => !(avail.any fun p => p.1.1 == i && p.2.mark)
          let p := ((avail.head?.map fun p => p.2.phase).getD 0)
          if left.isEmpty then .done (x1.endMarker c g kx p) 0
          else .done (x1.setCell c { x1.cell c with skip := left }) 0
      else
        let ws := ins.filterMap fun p => (x.peek c p).map fun w => (p.1, w)
        if ws.length < ins.length then .idle
        else
          let x1 := x.takeAll c
          match ws with
          | [] => .idle
          | (_, lead) :: _ =>
            let void := (ws.any fun q => q.2.mark && q.2.void) && !(ws.all fun q => q.2.mark)
            if (ws.any fun q => q.2.marker) ∨ void = true then
              let left := (ws.filter fun q => !q.2.marker && !q.2.mark).map (·.1)
              let x2 := if ws.all fun q => q.2.marker then x1 else x1.degradeAt k.marks
              if left.isEmpty then .done (x2.endMarker c g kx lead.phase) 0
              else .done (x2.setCell c { x2.cell c with skipping := true, skip := left }) 0
            else if (ws.any fun q => q.2.mark) ∧ ¬ (ws.all fun q => q.2.mark) then .fault 3
            else x.fireHeld c g kx free lead ws

/-! ### Port cells -/

/-- The next word at a port cell's queue, asking the queue for it when none has been delivered (R224). -/
def State.portWord (s : State) (q : Nat) : Option DWord × State :=
  let s1 := if (s.queue q).intake.isEmpty then s.readWord q .clean else s
  match (s1.queue q).intake with
  | [] => (none, s1)
  | w :: _ => (some w, s1)

/-- A port cell takes its word. -/
def State.portTake (s : State) (q : Nat) : State :=
  s.setQueue q { s.queue q with intake := (s.queue q).intake.drop 1 }

/-- Change a cell of an engine. -/
def State.modCell (s : State) (e c : Nat) (f : Cell → Cell) : State :=
  s.setEngine e ((s.engine e).setCell c (f ((s.engine e).cell c)))

/-- Change an engine's band table. -/
def State.modEngine (s : State) (e : Nat) (f : Engine → Engine) : State := s.setEngine e (f (s.engine e))

/-- The lead port has accepted the BAND_LAST item of band `b`, or its like (R271, R293). -/
def Engine.closeBand (x : Engine) (b : Nat) : Engine :=
  { x with table := x.table.map fun t => if t.band ≤ b then { t with closed := true } else t }

/-- The lead port accepts a header: the line counts for the sequencer, a new band is issued, after one token and one step for each
band shed before it (R259, R261, R265). -/
def State.leadHeader (s : State) (e w : Nat) (degraded : Bool) : State :=
  let b := bandOf (hdrWpi w) (s.bandExp (s.engStation e))
  let s1 := s.modEngine e fun x => { x with lastWpi := hdrWpi w }
  let s2 := if (s.engine e).newest = some b then s1
    else ((s1.each (List.range ((s.engine e).bandGap b)) fun s _ => (s.skipBands e 1).seqStep e .token).issueToken e b
      degraded).seqStep e .token
  if bit w 58 then s2 else s2.seqStep e .line

/-- What an input port does with a header of band `b`: waits, first ends the older band (R293), faults (BAND_ORDER), or
accepts it. -/
inductive PortAct where
  | wait | endBand | order | accept
  deriving DecidableEq, Repr

def State.portAct (s : State) (e i b : Nat) : PortAct :=
  let x := s.engine e
  let k := x.cell (44 + i)
  if s.leadPort e = some i then
    match x.newest with
    | some n =>
      if b < n then .order
      else if b = n then .accept
      else if k.band.isSome ∧ ¬ k.bandClosed then .endBand
      else if 4 ≤ x.table.length then .wait else .accept
    | none => .accept
  else
    match k.band with
    | some o =>
      if b < o then .order
      else if b = o then .accept
      else if ¬ k.bandClosed then .endBand
      else match x.table[k.marks - x.retired]? with
        | some t => if t.band = b then .accept else .order
        | none => .wait
    | none =>
      match x.table[k.marks - x.retired]? with
      | some t => if t.band = b then .accept else .order
      | none => .wait

/-- The phase of the band at which a port stands. -/
def Engine.portPhase (x : Engine) (m : Nat) : Nat := ((x.table[m - x.retired]?).map (·.phase)).getD x.phase

/-- The lead port has accepted the item that ends band `b`, when `last` says so (R271). -/
def State.closeLead (s : State) (e i : Nat) (last : Bool) (b : Nat) : State :=
  if s.leadPort e = some i ∧ last then s.modEngine e fun x => x.closeBand b else s

/-- An input port of a RUNNING engine fires (R256, R259, R291 to R293). A step of the sequencer that faults leaves the port
discarding, with the header it has taken noted (R270, R271). -/
def State.fireInput (s : State) (e i : Nat) : State :=
  let c := 44 + i
  let q := s.portQueue e i
  let k := (s.engine e).cell c
  if k.out.isSome then s
  else
    match k.pend with
    | w :: ws => s.modCell e c fun k => { k with out := some w, taken := [], pend := ws }
    | [] =>
      match s.portWord q with
      | (none, s1) => s1
      | (some w, s1) =>
        let tw := ((s1.engine e).cfgOf c).tw
        if k.inItem then
          let p := (s1.engine e).portPhase k.marks
          let last := bit k.hdr 57
          if w.poison ∨ w.trunc then
            let n := if bit tw 1 ∧ k.pos < bits tw 2 19 then bits tw 2 19 - k.pos else 1
            let zs := (List.range n).map fun (j : Nat) => ({ fin := j + 1 == n, mark := j + 1 == n && last, phase := p } : FWord)
            let s2 := ((s1.portTake q).modEngine e fun x => x.degradeAt k.marks).closeLead e i last (k.band.getD 0)
            s2.modCell e c fun k =>
              { k with inItem := false, degradeNext := true, bandClosed := k.bandClosed || last,
                       marks := k.marks + b2n last }.put zs
          else
            let mk := w.fin && last
            ((s1.portTake q).closeLead e i mk (k.band.getD 0)).modCell e c fun k =>
              { k with inItem := !w.fin, pos := k.pos + 1, bandClosed := k.bandClosed || mk,
                       marks := k.marks + b2n mk }.put [{ data := w.data, fin := w.fin, mark := mk, phase := p }]
        else if w.poison ∨ w.trunc then
          ((s1.portTake q).modEngine e fun x => x.degradeAt k.marks).modCell e c fun k => { k with degradeNext := true }
        else
          let b := bandOf (hdrWpi w.data) (s1.bandExp (s1.engStation e))
          match s1.portAct e i b with
          | .wait => s1
          | .order => s1.faultEngine e 4 c
          | .endBand =>
            let p := (s1.engine e).portPhase k.marks
            let s2 := s1.modCell e c fun k => { k with bandClosed := true, marks := k.marks + 1 }.put [markerWord p]
            if s1.leadPort e = some i then s2.modEngine e fun x => x.closeBand (k.band.getD 0) else s2
          | .accept =>
            let newBand := decide (k.band ≠ some b)
            let deg := bit w.data 58 || bit w.data 59 || (k.degradeNext && newBand)
            let isLead := decide (s1.leadPort e = some i)
            let mk := w.fin && bit w.data 57
            let s2 := s1.portTake q
            let s3 := if isLead then s2.leadHeader e w.data deg else s2
            if s3.engState e = Eng.running then
              let s4 := if deg then s3.modEngine e fun x => x.degrade b else s3
              let p := (s4.engine e).portPhase k.marks
              (s4.closeLead e i mk b).modCell e c fun k =>
                { k with inItem := !w.fin, hdr := w.data, pos := 0, band := some b, bandClosed := mk,
                         degradeNext := false, marks := k.marks + b2n mk }.put
                  [{ data := w.data, fin := w.fin, mark := mk, phase := p, void := bit w.data 58 }]
            else
              let s4 := s3.modCell e c fun k =>
                { k with inItem := !w.fin, hdr := w.data, band := some b, bandClosed := mk }
              if isLead ∧ mk then (s4.modEngine e fun x => x.closeBand b).retireVoids e 4 else s4

/-- An input port of a FAULTED engine takes a word and discards it; the lead port still issues tokens and has bands
retired void (R270, R271). -/
def State.discardInput (s : State) (e i : Nat) : State :=
  let c := 44 + i
  let q := s.portQueue e i
  let k := (s.engine e).cell c
  match s.portWord q with
  | (none, s1) => s1
  | (some w, s1) =>
    let isLead := decide (s1.leadPort e = some i)
    if k.inItem then
      let s2 := (s1.portTake q).modCell e c fun k => { k with inItem := !w.fin }
      if isLead ∧ w.fin ∧ bit k.hdr 57 then
        ((s2.modEngine e fun x => x.closeBand (k.band.getD 0)).modCell e c fun k => { k with bandClosed := true }).retireVoids
          e 4
      else s2
    else if w.poison ∨ w.trunc then s1.portTake q
    else
      let b := bandOf (hdrWpi w.data) (s1.bandExp (s1.engStation e))
      let x := s1.engine e
      if isLead then
        let s2 := if k.band ≠ some b then
            (s1.modEngine e fun x => x.closeBand (k.band.getD 0)).retireVoids e 4
          else s1
        if 4 ≤ (s2.engine e).table.length ∧ x.newest ≠ some b then s2
        else
          let s3 := (s2.portTake q).modEngine e fun x => { x with lastWpi := hdrWpi w.data }
          let s4 := if (match x.newest with
            | some n => decide (n < b)
            | none => true) then (s3.skipBands e (x.bandGap b)).issueToken e b true else s3
          let s5 := s4.modCell e c fun k => { k with inItem := !w.fin, hdr := w.data, band := some b, bandClosed := false }
          if w.fin ∧ bit w.data 57 then
            ((s5.modEngine e fun x => x.closeBand b).modCell e c fun k => { k with bandClosed := true }).retireVoids e 4
          else s5
      else (s1.portTake q).modCell e c fun k => { k with inItem := !w.fin, hdr := w.data, band := some b }

/-- The band table entry at which a cell stands. -/
def Engine.entryAt (x : Engine) (m : Nat) : BandEntry := (x.table[m - x.retired]?).getD {}

/-- An output port passes a band mark: the closing item of R294 unless the marked item was VOID, and the token
(R260). -/
def State.outMark (s : State) (e i : Nat) (void : Bool) : State :=
  let c := 44 + i
  let q := s.portQueue e i
  let n := s.engStation e
  let x := s.engine e
  let k := x.cell c
  let t := x.entryAt k.marks
  let s1 :=
    if s.qClass q = 1 ∨ void ∨ s.muted e t.band = true then s
    else
      let w := wrap48 (s.bandLast n t.band) + k.flags * 2 ^ 48 + 2 ^ 57 + b2n t.degraded * 2 ^ 59
      let s2 := s.presentItem q [w]
      if t.degraded then s2.count n t.band 12 1 else s2
  (s1.modCell e c fun k => { k with flags := 0 }).passMark e i

/-- The record an output port writes for a gathered item (R295, R397). -/
def State.outRecord (s : State) (e i : Nat) (words : List Nat) : State :=
  let c := 44 + i
  let q := s.portQueue e i
  let n := s.engStation e
  let x := s.engine e
  let k := x.cell c
  let t := x.entryAt k.marks
  let long := decide (1048575 < words.length)
  let body := words.take 1048575
  let w0 := s.recWord0 (hdrWpi k.hdr) (hdrFlags k.hdr) (t.degraded || long)
  let w1 := recWord1 (bits (x.cfgOf c).tw 24 8) e n body.length (s.recX0 e)
  let mute := s.muted e t.band
  let s1 := if mute then s else s.presentItem q (w0 :: w1 :: body)
  if (t.degraded || long) && !mute then s1.count n (bandOf (hdrWpi k.hdr) (s.bandExp n)) 12 1 else s1

/-- An output port fires (R294, R295): it waits while its queue's writer waits (R225). -/
def State.fireOutput (s : State) (e i : Nat) : State :=
  let c := 44 + i
  let q := s.portQueue e i
  let x := s.engine e
  let g := x.cfgOf c
  if ¬ (s.queue q).present.isEmpty then s
  else
    match g.cellInputs c with
    | [] => s
    | p :: _ =>
      match x.peek c p with
      | none => s
      | some w =>
        let s0 := s.modEngine e fun x => x.take c p
        let k := x.cell c
        let rec_ := decide (s.qClass q = 1)
        let mute := s.muted e (x.entryAt k.marks).band
        if w.marker then (s0.modCell e c fun k => { k with inItem := false, item := [] }).outMark e i false
        else if k.inItem then
          let s1 := if rec_ then s0.modCell e c fun k => { k with inItem := !w.fin, item := k.item ++ [w.data] }
            else (if mute then s0 else s0.presentWords q [⟨w.data, w.fin⟩]).modCell e c fun k => { k with inItem := !w.fin }
          let s2 := if rec_ ∧ w.fin then (s1.outRecord e i (k.item ++ [w.data])).modCell e c fun k => { k with item := [] } else s1
          if w.mark then s2.outMark e i false else s2
        else
          let t := x.entryAt k.marks
          let void := bit w.data 58
          let s1 := s0.modCell e c fun k =>
            { k with inItem := !w.fin, hdr := w.data, item := [], flags := k.flags ||| hdrFlags w.data }
          let plain := w.data - bits w.data 57 1 * 2 ^ 57 - bits w.data 59 1 * 2 ^ 59
          let h := plain + b2n t.degraded * 2 ^ 59 + (if void ∧ w.mark then 2 ^ 57 else 0)
          let s2 := if rec_ ∨ mute = true then s1 else s1.presentWords q [⟨h, w.fin⟩]
          if w.mark then s2.outMark e i void else s2

/-- A firing counts toward the engine's slots and the cluster's handshakes (R34, R38): a slot starts when a cell fires
that has fired in the present one. -/
def State.countFiring (s : State) (e c : Nat) : State :=
  let x := s.engine e
  if x.fired.contains c ∨ x.fired.isEmpty then
    ((s.setEngine e { x with fired := [c] }).add R.IEA_ENG_SLOTS 1 e).add R.SCU_PACE_HS 1 (e / 32)
  else s.setEngine e { x with fired := c :: x.fired }

end Sys2Proof.Machine
end

