-- ==== Sys2Proof/Machine/ImageOps.lean ====
section
/-! DEFINITION. Structure images: the file layout (R298 to R313) and the load checks (R245, R247, R250, R252, R254, R264,
R278, R296, R301, R302, R305 to R313, R315, R318). -/

namespace Sys2Proof.Machine

/-! ### Failures -/

/-- A failed check: stage, status, manifest section index and image byte offset (R315). -/
structure ImgFail where
  stage : Nat
  status : Status
  sect : Nat := 0xFFFF
  off : Nat := 0
  deriving DecidableEq, Repr

/-- A check: the failure when the condition for refusal holds. -/
def failIf (c : Bool) (f : ImgFail) : Option ImgFail := if c then some f else none

/-- The byte of the first failing field of a record, from the checks with their bytes (R315). -/
def firstAt (cs : List (Nat × Bool)) : Option Nat := (cs.find? (·.2)).map (·.1)

/-- The first failure of a list. -/
def firstFail : List (Option ImgFail) → Option ImgFail
  | [] => none
  | none :: t => firstFail t
  | some f :: _ => some f

/-! ### Header and manifest (R298 to R303) -/

/-- A section entry with its plaintext (R302), and whether its tag, when it is encrypted, and its digest hold (R304, R315). -/
structure Sect where
  idx : Nat
  typ : Nat
  off : Nat
  len : Nat
  entry : Nat
  data : List Nat
  good : Bool
  deriving DecidableEq, Repr

/-- A structure image file: its bytes, read through the fields of R298 and R300. -/
abbrev ImgFile := List Nat

def ImgFile.total (b : ImgFile) : Nat := field b 8 4
def ImgFile.manOff (b : ImgFile) : Nat := field b 12 4
def ImgFile.manLen (b : ImgFile) : Nat := field b 16 4
def ImgFile.sigOff (b : ImgFile) : Nat := field b 20 4
def ImgFile.flags (b : ImgFile) : Nat := field b 6 2
def ImgFile.enc (b : ImgFile) : Bool := bit b.flags 0
def ImgFile.isPart (b : ImgFile) : Bool := bit b.flags 1
def ImgFile.man (b : ImgFile) (a n : Nat) : Nat := field b (b.manOff + a) n
def ImgFile.nS (b : ImgFile) : Nat := b.man 14 2
def ImgFile.nR (b : ImgFile) : Nat := b.man 16 2
/-- Offset of range entry `i`. -/
def ImgFile.rangeOff (b : ImgFile) (i : Nat) : Nat := b.manOff + 96 + 16 * i
/-- Offset of section entry `i`. -/
def ImgFile.entryOff (b : ImgFile) (i : Nat) : Nat := b.manOff + 96 + 16 * b.nR + 96 * i
/-- The manifest bytes. -/
def ImgFile.manifest (b : ImgFile) : List Nat := (b.drop b.manOff).take b.manLen

/-- The stored form of a section entry's data: plaintext, or ciphertext opened under the content key (R304). -/
def ImgFile.plain (b : ImgFile) (key : Option (List Nat)) (e off len : Nat) : Option (List Nat) :=
  let text := (b.drop off).take len
  if b.enc then key.bind fun k => gcmOpen k ((b.drop (e + 16)).take 12) text ((b.drop (off + len)).take 16) else some text

/-- The section entries of a file, opened under the content key when it is encrypted (R302, R304). -/
def ImgFile.sections (b : ImgFile) (key : Option (List Nat)) : List Sect :=
  (List.range b.nS).map fun i =>
    let e := b.entryOff i
    let off := field b (e + 4) 4
    let len := field b (e + 8) 4
    let plain := b.plain key e off len
    let data := plain.getD []
    { idx := i, typ := field b e 1, off := off, len := len, entry := e, data := data,
      good := plain.isSome && sha384Num data == beNum ((b.drop (e + 32)).take 48) }

/-- The wrapped content key (R300, R304). -/
def ImgFile.wrapped (b : ImgFile) : List Nat := (b.drop (b.manOff + 40)).take 40

/-- The sections of a file as the device opens it, with its key-encryption key (R304). -/
def State.imageSects (s : State) (b : ImgFile) : List Sect := b.sections (keyUnwrap s.smc.kek b.wrapped)

/-- Stage 3 (R303): the owner's signature over the manifest. -/
def State.ownerSigned (s : State) (b : ImgFile) : Bool := s.ownerSig ((b.drop b.sigOff).take 200) b.manifest

/-- Bytes a section takes in the file (R304). -/
def ImgFile.secLen (b : ImgFile) (x : Sect) : Nat := x.len + (if b.enc then 16 else 0)

/-- A part of R299: its offset and length, the offset of the field that places it, the first byte of the record that holds the field
(for the manifest and the signature, which the header places, the field itself), and its section index (FFFFh for none). -/
structure ImgPart where
  off : Nat
  len : Nat
  at_ : Nat
  rec_ : Nat
  sect : Nat
  deriving DecidableEq, Repr

/-- The parts of R299. -/
def ImgFile.parts (b : ImgFile) (secs : List Sect) : List ImgPart :=
  ⟨b.manOff, b.manLen, 12, 12, 0xFFFF⟩ :: ⟨b.sigOff, 200, 20, 20, 0xFFFF⟩ ::
    secs.map fun x => ⟨x.off, b.secLen x, x.entry + 4, x.entry, x.idx⟩

/-- The first overlap between parts, at the later one in the list (R299). -/
def overlapAt : List ImgPart → List ImgPart → Option ImgPart
  | _, [] => none
  | seen, p :: t =>
    if p.off < 64 ∨ (seen.any fun q => runsMeet q.off q.len p.off p.len) then some p else overlapAt (p :: seen) t

/-- Stage 2 on the header alone. `lenReg` is SCU_IMG_LEN. -/
def ImgFile.headerFail (b : ImgFile) (lenReg : Nat) : Option ImgFail :=
  firstFail
    [failIf (b.take 4 != [0x56, 0x43, 0x53, 0x49]) ⟨2, .range, 0xFFFF, 0⟩,
     failIf (field b 5 1 != 1) ⟨2, .version, 0xFFFF, 4⟩,
     failIf (4 ≤ b.flags) ⟨2, .range, 0xFFFF, 6⟩,
     failIf (b.total < 64 || 268435456 < b.total || lenReg < b.total) ⟨2, .length, 0xFFFF, 8⟩]

/-- The section types a list of entries must carry (R302): ascending, and 1, 2, 3, 4 and 7 present. -/
def ImgFile.typesFail (b : ImgFile) (secs : List Sect) : Option ImgFail :=
  let rec go (last : Nat) : List Sect → Option ImgFail
    | [] => none
    | x :: t =>
      if x.typ ≤ last ∨ 7 < x.typ then some ⟨2, .range, x.idx, x.entry⟩ else go x.typ t
  firstFail [go 0 secs,
    failIf ([1, 2, 3, 4, 7].any fun k => secs.all fun x => x.typ ≠ k) ⟨2, .range, 0xFFFF, b.manOff⟩]

/-- The form of the range entries (R301): a missing interface is refused with VERSION, then a repeated or unknown one with RANGE. -/
def ImgFile.rangesFail (b : ImgFile) : Option ImgFail :=
  let iface (i : Nat) : Nat := field b (b.rangeOff i) 1
  let bad := (List.range b.nR).find? fun i =>
    decide (iface i = 0) || decide (4 < iface i) || ((List.range i).any fun j => iface j = iface i)
  let missing := [1, 2, 3, 4].any fun k => (List.range b.nR).all fun i => iface i ≠ k
  firstFail [failIf missing ⟨2, .version, 0xFFFF, b.manOff⟩, bad.map fun i => ⟨2, .range, 0xFFFF, b.rangeOff i⟩]

/-- Stage 2 (R299, R300, R302). Fewer than four range entries leave an interface missing, which R301 refuses with VERSION. -/
def ImgFile.stage2 (b : ImgFile) (lenReg : Nat) (secs : List Sect) : Option ImgFail :=
  let parts := b.parts secs
  let long := parts.find? fun p => b.total < p.off + p.len
  let odd := parts.find? fun p => p.off % 8 ≠ 0
  firstFail
    [b.headerFail lenReg,
     failIf (b.total < b.manOff + b.manLen) ⟨2, .length, 0xFFFF, 12⟩,
     failIf (b.manLen != 96 + 16 * b.nR + 96 * b.nS) ⟨2, .length, 0xFFFF, 16⟩,
     failIf (b.nS = 0 || 7 < b.nS) ⟨2, .range, 0xFFFF, b.manOff + 14⟩,
     failIf (16 < b.nR) ⟨2, .range, 0xFFFF, b.manOff + 16⟩,
     long.map fun p => ⟨2, .length, p.sect, p.at_⟩,
     odd.map fun p => ⟨2, .range, p.sect, p.at_⟩,
     (overlapAt [] parts).map fun p => ⟨2, .range, p.sect, p.rec_⟩,
     failIf (b.man 0 8 != field b 24 8) ⟨2, .integrity, 0xFFFF, b.manOff⟩,
     failIf (b.man 8 4 != field b 32 4) ⟨2, .integrity, 0xFFFF, b.manOff + 8⟩,
     failIf (b.man 12 2 != b.flags) ⟨2, .integrity, 0xFFFF, b.manOff + 12⟩,
     b.rangesFail,
     b.typesFail secs]

/-- The running value of an interface (R301). -/
def State.ifaceValue (s : State) (k : Nat) : Nat :=
  match k with
  | 1 => s.get R.SMC_ID_REV_REV
  | 2 => s.get R.SMC_FW_CAB_VER_VER
  | 3 => s.get R.SMC_FW_WB_VER_VER
  | _ => 0x01000000

/-- Stage 4 (R301): a running value outside its tested range, with the offset of the MIN or MAX it misses. -/
def State.stage4 (s : State) (b : ImgFile) : Option ImgFail :=
  firstFail (((List.range b.nR).map b.rangeOff).map fun e =>
    let v := s.ifaceValue (field b e 1)
    (firstAt [(4, decide (v < field b (e + 4) 4)), (8, decide (field b (e + 8) 4 < v))]).map fun a => ⟨4, .version, 0xFFFF, e + a⟩)

/-! ### Sections and their records (R305 to R313) -/

def Sect.count (x : Sect) : Nat := field x.data 0 4

/-- The records of a section of fixed record size. -/
def Sect.records (x : Sect) (size : Nat) : List (List Nat) :=
  (List.range x.count).map fun i => (x.data.drop (8 + size * i)).take size

/-- File offset of byte `a` of record `i`. -/
def Sect.at (x : Sect) (size i a : Nat) : Nat := x.off + 8 + size * i + a

/-- The section of a type. -/
def sectOf (secs : List Sect) (t : Nat) : Option Sect := secs.find? fun x => x.typ = t

/-- The first record whose key does not rise. -/
def firstDescent : List Nat → Nat → Option Nat
  | a :: b :: t, i => if a < b then firstDescent (b :: t) (i + 1) else some (i + 1)
  | _, _ => none

/-- Length and order of a section of fixed record size (R305). -/
def Sect.formFail (x : Sect) (size : Nat) (key : List Nat → Nat) : Option ImgFail :=
  firstFail
    [failIf (x.len != 8 + x.count * size) ⟨6, .length, x.idx, x.entry⟩,
     (firstDescent ((x.records size).map key) 0).map fun i => ⟨6, .range, x.idx, x.at size i 0⟩]

def parseTopo (r : List Nat) : Topo :=
  { engine := bits (field r 0 2) 0 9, station := bits (field r 2 1) 0 3, group := bits (field r 3 1) 0 6,
    ovfPage := bits (field r 8 4) 0 20, ovfPages := bits (field r 12 2) 0 12,
    seq := (List.range 16).map fun i => field r (32 + 4 * i) 4 }

def parseCells (r : List Nat) : CellsRec :=
  { engine := field r 0 2,
    cells := (List.range 48).map fun c => { cw := field r (8 + 16 * c) 8, tw := field r (16 + 16 * c) 8 } }

def parseEndpoint (v : Nat) : Endpoint :=
  match bits v 0 4 with
  | 1 => .engine (bits v 4 9) (bits v 13 2)
  | 2 => .store (bits v 4 3)
  | 3 => .host
  | _ => .none

def parseQMap (r : List Nat) : QMap :=
  let a := field r 0 4
  let b := field r 4 4
  { queue := bits a 0 18, cls := bits a 18 2, max := bits a 20 8, closeEnd := bit a 28, idle := bits b 0 4,
    stall := bits b 4 4, res := bits b 8 9, writer := parseEndpoint (field r 8 4), reader := parseEndpoint (field r 12 4),
    first := bits (field r 16 4) 0 21, width := bits (field r 20 4) 0 21, planes := field r 24 1 }

def parseWorld (r : List Nat) : WorldReq :=
  { kind := field r 0 1, world := field r 1 1, first := field r 4 4, count := field r 8 4 }

def parseConst (r : List Nat) : ConstRec :=
  { engine := field r 0 2, consts := (List.range 64).map fun j => field r (8 + 8 * j) 8 }

/-- The leaf records of a section with their offsets; `n` bounds them (R309). -/
def parseLeaves (d : List Nat) (a : Nat) : Nat → List (Nat × LeafRec)
  | 0 => []
  | n + 1 =>
    let len := field d (a + 4) 4
    (a, { kind := field d a 1, head := (d.drop (a + 8)).take 16, data := (d.drop (a + 24)).take len }) ::
      parseLeaves d (a + 24 + 8 * ceilDiv len 8) n

/-- Bytes a leaves section must have (R305, R309). -/
def leavesLen (d : List Nat) (a : Nat) : Nat → Nat
  | 0 => a
  | n + 1 => leavesLen d (a + 24 + 8 * ceilDiv (field d (a + 4) 4) 8) n

/-- The image a file states. -/
def ImgFile.parse (b : ImgFile) (secs : List Sect) : Image :=
  let recs (t size : Nat) : List (List Nat) := ((sectOf secs t).map fun x => x.records size).getD []
  { id := b.man 0 8, ver := b.man 8 4, isPartial := b.isPart, baseId := b.man 24 8, groupMask := b.man 32 8,
    manifest := b.manifest,
    topo := (recs 1 96).map parseTopo,
    cells := (recs 2 776).map parseCells,
    qmap := (recs 3 32).map parseQMap,
    worlds := (recs 4 16).map parseWorld,
    consts := (recs 5 520).map parseConst,
    leaves := ((sectOf secs 6).map fun x => (parseLeaves x.data 8 x.count).map (·.2)).getD [],
    sigma := (recs 7 8).map fun r => (field r 0 2, bits (field r 4 4) 0 24) }

/-! ### Cells of one engine (R245, R250, R252, R254, R278, R296) -/

/-- The units of a cell's region (R275). -/
def CellCfg.units (g : CellCfg) (c : Nat) : Nat :=
  match cellKind c with
  | .lookup => 128
  | .window => ceilDiv ((winH g - 1) * winWidth g) 8
  | .reduce => if redScope g = 1 then ceilDiv (redN g) 2 else 0
  | _ => 0

/-- The region lies in the overflow run. -/
def CellCfg.inOvf (g : CellCfg) (c : Nat) : Bool := decide (cellKind c = .window) && bit g.tw 9

/-- A reserved bit of the type word is set (R282 to R292). -/
def CellCfg.typeReserved (g : CellCfg) (c : Nat) : Bool :=
  match cellKind c with
  | .arith => decide (bits g.tw 12 4 ≠ 0 ∨ bits g.tw 32 32 ≠ 0)
  | .lookup => decide (bits g.tw 5 59 ≠ 0)
  | .window => decide (bits g.tw 62 2 ≠ 0)
  | .reduce => bit g.tw 31 || decide (bits g.tw 45 19 ≠ 0)
  | .port => decide (bits g.tw 21 3 ≠ 0 ∨ bits g.tw 32 32 ≠ 0)

/-- A field outside its stated range (R296), the record type of an output port included (R398). -/
def CellCfg.fieldBad (g : CellCfg) (c : Nat) : Bool :=
  match cellKind c with
  | .arith => decide (6 ≤ bits g.tw 9 3)
  | .lookup => false
  | .window =>
    let h := winH g
    let wd := bits g.tw 3 3
    decide (h % 2 = 0 ∨ wd % 2 = 0 ∨ 393215 < winFirst g ∨ bits g.tw 10 3 = 4 ∨ bits g.tw 13 3 = 4) ||
      (decide (bits g.tw 6 2 = 0) &&
        decide ((h - 1) / 2 < (off3 (bits g.tw 10 3)).natAbs ∨ (wd - 1) / 2 < (off3 (bits g.tw 13 3)).natAbs))
  | .reduce =>
    decide (4 < redOp g ∨ redScope g = 3 ∨ 6 ≤ bits g.tw 6 3 ∨ 65536 < redGroup g) ||
      (decide (redOp g = 3 ∧ redScope g = 2) && !redComb g)
  | .port =>
    decide (393216 < bits g.tw 2 19) || (bit g.tw 0 && decide (bits g.tw 24 8 = 0 ∨ 5 < bits g.tw 24 8))

/-- SH is nonzero where it must be 0 (R281, R284, R286, R289). -/
def CellCfg.shiftBad (g : CellCfg) (c : Nat) : Bool :=
  match cellKind c with
  | .arith => decide (10 ≤ bits g.tw 0 4 ∧ bits g.tw 0 4 ≤ 14 ∧ bits g.tw 4 5 ≠ 0)
  | .window => decide (bits g.tw 6 2 ≠ 1 ∧ bits g.tw 22 5 ≠ 0)
  | .reduce => decide ((redOp g = 1 ∨ redOp g = 2) ∧ bits g.tw 9 5 ≠ 0)
  | _ => false

/-- CONV coefficients run past constant 63 (R286). -/
def CellCfg.convBad (g : CellCfg) (c : Nat) : Bool :=
  decide (cellKind c = .window ∧ bits g.tw 6 2 = 1 ∧ 64 < bits g.tw 16 6 + ceilDiv (winH g * bits g.tw 3 3) 4)

/-- An input port cell. -/
def CellCfg.isInPort (g : CellCfg) (c : Nat) : Bool := decide (cellKind c = .port) && !bit g.tw 0
/-- An output port cell. -/
def CellCfg.isOutPort (g : CellCfg) (c : Nat) : Bool := decide (cellKind c = .port) && bit g.tw 0

def nthCell (cs : List CellCfg) (c : Nat) : CellCfg := cs.getD c {}

/-- A source of a cell is refused (R250, R276, R296). -/
def sourceBad (cs : List CellCfg) (c : Nat) : Bool :=
  let g := nthCell cs c
  (g.inputs c).any (fun p =>
    (decide (48 ≤ p.2) && (decide (p.2 < 64) || decide (128 ≤ p.2))) ||
      (decide (p.2 < 48) && (!(nthCell cs p.2).used || (nthCell cs p.2).isOutPort p.2))) ||
    (!(g.isInPort c) && (g.cellInputs c).isEmpty)

/-- The phase rule of R278. -/
def phaseBad (cs : List CellCfg) (c : Nat) : Bool :=
  let g := nthCell cs c
  (decide (cellKind c = .port) && decide (bits g.cw 25 4 ≠ 15)) ||
    (!(g.isOutPort c) && (g.cellInputs c).any fun p =>
      decide (bits g.cw 25 4 &&& (15 - bits (nthCell cs p.2).cw 25 4) ≠ 0))

/-- One cell record is refused with RANGE (R296): the byte of the word at fault, the common word at 0 or the type word at 8. -/
def cellBad (cs : List CellCfg) (c : Nat) : Option Nat :=
  let g := nthCell cs c
  if ¬ g.used then firstAt [(0, decide (g.cw ≠ 0)), (8, decide (g.tw ≠ 0))]
  else
    firstAt [(0, decide (bits g.cw 54 10 ≠ 0) || (decide (g.units c = 0) && decide (g.base ≠ 0)) || sourceBad cs c || phaseBad cs c),
      (8, g.typeReserved c || g.fieldBad c || g.shiftBad c || g.convBad c)]

/-- The used cells. -/
def usedCells (cs : List CellCfg) : List Nat := (List.range 48).filter fun c => (nthCell cs c).used

/-- Inputs fed by a cell's output (R252). -/
def fanout (cs : List CellCfg) (src : Nat) : Nat :=
  (usedCells cs).foldl (fun n c => n + (((nthCell cs c).cellInputs c).filter fun p => p.2 = src).length) 0

/-- Cells left once cells fed only by removed cells are removed, `n` times: a rest is a cycle (R252). -/
def cycleRest (cs : List CellCfg) : Nat → List Nat → List Nat
  | 0, left => left
  | n + 1, left =>
    cycleRest cs n (left.filter fun c => ((nthCell cs c).cellInputs c).any fun p => left.contains p.2)

/-- Cells from which an output port is reached (R252). -/
def reachers (cs : List CellCfg) : Nat → List Nat → List Nat
  | 0, acc => acc
  | n + 1, acc =>
    reachers cs n ((usedCells cs).filter fun c => acc.contains c ||
      (acc.any fun d => ((nthCell cs d).cellInputs d).any fun p => p.2 = c))

/-- The links of an engine are refused (R252, R254). -/
def linksBad (cs : List CellCfg) : Bool :=
  let us := usedCells cs
  let outs := us.filter fun c => (nthCell cs c).isOutPort c
  let ins := us.filter fun c => (nthCell cs c).isInPort c
  (us.any fun c => decide (8 < fanout cs c)) || !(cycleRest cs 48 us).isEmpty ||
    !(us.all fun c => (reachers cs 48 outs).contains c) || outs.isEmpty || ins.isEmpty

/-- The regions of an engine with (first unit, units) in local store. -/
def regions (cs : List CellCfg) (ovf : Bool) : List (Nat × Nat) :=
  ((usedCells cs).filter fun c => (nthCell cs c).inOvf c = ovf ∧ 0 < (nthCell cs c).units c).map fun c =>
    ((nthCell cs c).base, (nthCell cs c).units c)

/-- Two of a list of runs meet. -/
def anyMeet : List (Nat × Nat) → Bool
  | [] => false
  | x :: t => (t.any fun y => runsMeet x.1 x.2 y.1 y.2) || anyMeet t

/-- Units of local store an engine uses: its regions and the constants (R245, R275). -/
def unitsUsed (cs : List CellCfg) : Nat := (regions cs false).foldl (fun a r => a + r.2) 8

/-- Regions overlap or exceed their store (R245, R296); an overflow run of `pages` holds 1,024 units a page. -/
def regionsBad (cs : List CellCfg) (pages : Nat) : Bool :=
  let ls := regions cs false
  let ov := regions cs true
  anyMeet ((4088, 8) :: ls) || (ls.any fun r => decide (4096 < r.1 + r.2)) || decide (4096 < unitsUsed cs) ||
    anyMeet ov || (ov.any fun r => decide (1024 * pages < r.1 + r.2))

/-! ### Section checks -/

/-- A sequencer slot is refused (R264). -/
def seqBad (w : Nat) : Bool :=
  match w % 16 with
  | 0 => decide (16 ≤ w)
  | 1 => decide (64 ≤ w)
  | 2 => decide (2 ^ 28 ≤ w)
  | 3 => decide (2 ^ 28 ≤ w)
  | 4 => decide (2 ^ 12 ≤ w)
  | 5 => decide (2 ^ 28 ≤ w) || decide (bits w 8 20 = 0)
  | 6 => decide (2 ^ 8 ≤ w)
  | 7 => decide (16 ≤ w)
  | 8 => decide (16 ≤ w)
  | _ => true

/-- The record of an engine in force. -/
def Image.topoOf (m : Image) (e : Nat) : Option Topo := m.topo.find? fun t => t.engine = e
def Image.cellsOf (m : Image) (e : Nat) : List CellCfg := ((m.cells.find? fun r => r.engine = e).map (·.cells)).getD []

/-- The first record in which a check finds a failing byte, as a failure at that byte (R315). -/
def recFailAt {α : Type} (x : Sect) (size : Nat) (st : Status) (rs : List α) (bad : Nat → α → Option Nat) : Option ImgFail :=
  firstFail (rs.mapIdx fun i r => (bad i r).map fun a => ⟨6, st, x.idx, x.at size i a⟩)

/-- Index of the first record that a condition picks, as a failure at its byte `a`. -/
def recFail {α : Type} (x : Sect) (size a : Nat) (st : Status) (rs : List α) (bad : Nat → α → Bool) : Option ImgFail :=
  recFailAt x size st rs fun i r => if bad i r then some a else none

/-- The first record whose engine TOPOLOGY does not bind; then, at the section's entry, an engine without its record (R307, R313). -/
def enginesFail (x : Sect) (size : Nat) (m : Image) (es : List Nat) : Option ImgFail :=
  firstFail [recFail x size 0 .range es fun _ e => !(m.topo.any fun t => t.engine = e),
    failIf (es != m.topo.map (·.engine)) ⟨6, .range, x.idx, x.entry⟩]

/-- The records in force that a partial image leaves alone (R318). -/
def State.keptTopo (s : State) (m : Image) : List Topo :=
  if m.isPartial then s.image.topo.filter fun t => (m.topoOf t.engine).isNone else []

/-- TOPOLOGY (R247, R264, R306); the runs of a partial image are held against those that stay in force. -/
def State.topoFail (s : State) (x : Sect) (m : Image) : Option ImgFail :=
  let lo := 32768 * s.get R.SST_CFG_STORE
  let ts := m.topo
  firstFail
    [failIf (x.count = 0 || 512 < x.count) ⟨6, .range, x.idx, x.off⟩,
     x.formFail 96 (fun r => bits (field r 0 2) 0 9),
     recFailAt x 96 .range ts fun _ t => (t.seq.findIdx? seqBad).map fun j => 32 + 4 * j,
     recFail x 96 0 .range ts fun i t => (ts.take i).any fun u => u.group = t.group ∧ u.station ≠ t.station,
     recFailAt x 96 .range ts fun i t =>
       firstAt [(8, decide (t.ovfPages ≠ 0) && (decide (t.ovfPage < lo) || decide (1040384 < t.ovfPage + t.ovfPages))),
         (0, (s.keptTopo m ++ ts.take i).any fun u => runsMeet u.ovfPage u.ovfPages t.ovfPage t.ovfPages)],
     recFail x 96 8 .world ts fun _ t =>
       (List.range t.ovfPages).any fun g => s.shelfWorld ((t.ovfPage + g) / 32) ≠ s.engineWorld t.engine]

/-- CELLS (R307, R245, R250, R252, R254, R278, R296). -/
def cellsFail (x : Sect) (m : Image) : Option ImgFail :=
  let pages (e : Nat) : Nat := ((m.topoOf e).map (·.ovfPages)).getD 0
  firstFail
    [x.formFail 776 (fun r => field r 0 2),
     enginesFail x 776 m (m.cells.map (·.engine)),
     recFailAt x 776 .range m.cells fun _ r =>
       (List.range 48).findSome? fun c => (cellBad r.cells c).map fun a => 8 + 16 * c + a,
     recFail x 776 8 .range m.cells fun _ r => linksBad r.cells,
     recFail x 776 8 .length m.cells fun _ r => regionsBad r.cells (pages r.engine)]

/-- The engine endpoints of a queue record. -/
def QMap.engines (q : QMap) : List (Nat × Nat × Bool) :=
  (match q.writer with | .engine e i => [(e, i, true)] | _ => []) ++
    (match q.reader with | .engine e i => [(e, i, false)] | _ => [])

/-- The station of an engine in an image. -/
def Image.stationOf (m : Image) (e : Nat) : Option Nat := (m.topoOf e).map (·.station)

/-- The station of a queue (R30, R310). -/
def Image.queueStation (m : Image) (q : QMap) : Option Nat := (q.engines.head?.map (·.1)).bind m.stationOf

/-- The failing byte of a queue record that breaks R211, R212, R254 or R311, the record's first for a check over several; `kept` are
the records that stay in force beside those of the image. -/
def Image.qmapBad (m : Image) (kept : List QMap) (i : Nat) (q : QMap) : Option Nat :=
  let before := kept ++ m.qmap.take i
  let isStore := match q.writer with | .store _ => true | _ => false
  let readerEngine := match q.reader with | .engine _ _ => true | _ => false
  let unbound (p : Endpoint) (out : Bool) : Bool :=
    match p with
    | .engine e k =>
      let g := nthCell (m.cellsOf e) (44 + k)
      (m.stationOf e).isNone || !g.used || (bit g.tw 0 != out)
    | _ => false
  firstAt
    [(0, decide (q.queue < 256) || decide (q.cls = 2) || (isStore && decide (q.cls ≠ 0)) ||
        (!isStore && readerEngine && decide (q.cls ≠ 3)) || (decide (q.cls = 3) && (!readerEngine || isStore))),
     (8, (match q.writer with | .none => true | .host => true | _ => false) || q.engines.isEmpty || unbound q.writer true ||
        (match q.writer with | .store n => decide (m.queueStation q ≠ some n) | _ => false)),
     (12, (match q.reader with | .none => true | .store _ => true | _ => false) || (isStore && !readerEngine) ||
        unbound q.reader false ||
        (match q.engines.map fun e => m.stationOf e.1 with | [a, b] => decide (a ≠ b) | _ => false)),
     (20, isStore && decide (q.width % 4 ≠ 0 ∨ q.width < 4)),
     (24, isStore && decide (q.planes = 0)),
     (0, q.engines.any fun e => before.any fun r => r.engines.any fun f => f.1 = e.1 ∧ f.2.1 = e.2.1),
     (0, isStore && decide (64 ≤ (before.filter fun r => r.writer = q.writer).length))]

/-- A port cell disagrees with the queue map (R311): in use and bound by no record, or bound by one that stays in force and unused
or of the other direction. -/
def Image.portUnbound (m : Image) (kept : List QMap) : Bool :=
  m.cells.any fun r => (List.range 4).any fun i =>
    let g := nthCell r.cells (44 + i)
    let at_ (q : QMap) : List (Nat × Nat × Bool) := q.engines.filter fun f => f.1 = r.engine ∧ f.2.1 = i
    (g.used && !((m.qmap ++ kept).any fun q => !(at_ q).isEmpty)) ||
      (kept.any fun q => (at_ q).any fun f => !g.used || (bit g.tw 0 != f.2.2))

/-- QUEUE_MAP (R310, R311). -/
def qmapFail (x : Sect) (m : Image) (kept : List QMap) : Option ImgFail :=
  firstFail
    [x.formFail 32 (fun r => bits (field r 0 4) 0 18),
     recFailAt x 32 .range m.qmap fun i q => m.qmapBad kept i q,
     failIf (m.portUnbound kept) ⟨6, .range, x.idx, x.entry⟩]

/-- WORLD_REQ (R312). -/
def worldsFail (x : Sect) (m : Image) : Option ImgFail :=
  firstFail
    [x.formFail 16 (fun r => field r 0 1 * 2 ^ 32 + field r 4 4),
     recFailAt x 16 .range m.worlds fun _ w => firstAt [(0, decide (w.kind = 0 ∨ 4 < w.kind)), (1, decide (1 < w.world))],
     recFail x 16 0 .range m.worlds fun i w =>
       (m.worlds.take i).any fun v => v.kind = w.kind ∧ runsMeet v.first v.count w.first w.count = true]

/-- CONSTANTS (R308). -/
def constsFail (x : Sect) (m : Image) : Option ImgFail :=
  firstFail
    [x.formFail 520 (fun r => field r 0 2),
     recFail x 520 0 .range m.consts fun _ c => (m.topoOf c.engine).isNone]

/-- A LOCAL leaf lies in the region of one cell of its engine (R309). -/
def Image.localInside (m : Image) (r : LeafRec) : Bool :=
  let a := field r.head 4 4
  let n := r.data.length
  (regions (m.cellsOf (field r.head 0 2)) false).any fun g => decide (64 * g.1 ≤ a ∧ a + n ≤ 64 * (g.1 + g.2))

/-- The order key of a leaf record (R309). -/
def leafKey (r : LeafRec) : Nat :=
  (r.kind * 2 ^ 16 + field r.head 0 2) * 2 ^ 32 + (if r.kind = 1 then field r.head 4 4 else 0)

/-- One leaf record is refused (R309), with the failing byte of the record as the offset. -/
def State.leafFail (s : State) (m : Image) (i : Nat) (r : LeafRec) : Option ImgFail :=
  let slot := field r.head 0 2
  let check (st : Status) (cs : List (Nat × Bool)) : Option ImgFail := (firstAt cs).map fun a => { stage := 6, status := st, off := a }
  match r.kind with
  | 1 =>
    check .range [(8, (m.topoOf slot).isNone), (12, field r.head 4 4 % 64 ≠ 0 || !m.localInside r),
      (0, (m.leaves.take i).any fun q => q.kind = 1 ∧ field q.head 0 2 = slot ∧
        runsMeet (field q.head 4 4) q.data.length (field r.head 4 4) r.data.length = true)]
  | 2 =>
    let pages := field r.head 4 2
    let planes := field r.head 6 1
    let cols := field r.head 8 4
    let d := field r.head 12 2
    let entry (k : Nat) : Nat := 64 + 4 * cols * planes + 4 * k
    let keys := (List.range d).map fun k => defKey (field r.data (entry k) 4)
    firstFail [check .length [(4, r.data.length ≠ leafSize cols planes d || 4096 * pages < r.data.length)],
      check .range [(8, 255 < slot), (10, 4096 < field r.head 2 2 + pages), (20, 4096 < d)],
      (firstDescent keys 0).map fun k => { stage := 6, status := .range, off := 24 + entry k },
      check .busy [(8, s.slotInUse slot)]]
  | 3 =>
    firstFail [check .length [(4, r.data.length ≠ 128)],
      check .range [(8, 511 < slot), (24, field r.data 0 1 = 0 ∨ 32 < field r.data 0 1),
        (25, !firGood (field r.data 0 1) (field r.data 1 1))],
      check .busy [(8, s.firInUse slot)]]
  | _ => some { stage := 6, status := .range }

/-- LEAVES (R302, R305, R309). -/
def State.leavesFail (s : State) (x : Sect) (m : Image) : Option ImgFail :=
  let rs := parseLeaves x.data 8 x.count
  firstFail
    [failIf (x.len != leavesLen x.data 8 x.count) ⟨6, .length, x.idx, x.entry⟩,
     (firstDescent (rs.map fun r => leafKey r.2) 0).map fun i => ⟨6, .range, x.idx, x.off + (rs.getD i (0, ⟨0, [], []⟩)).1⟩,
     firstFail (rs.mapIdx fun i r =>
       if m.isPartial ∧ r.2.kind ≠ 1 then some ⟨6, .range, x.idx, x.off + r.1⟩
       else (s.leafFail m i r.2).map fun f => { f with sect := x.idx, off := x.off + r.1 + f.off })]

/-- ADMISSION (R313). -/
def sigmaFail (x : Sect) (m : Image) : Option ImgFail :=
  firstFail
    [x.formFail 8 (fun r => field r 0 2),
     enginesFail x 8 m (m.sigma.map (·.1)),
     recFail x 8 4 .range m.sigma fun _ p => p.2 = 0]

/-! ### Partial images (R318) -/

/-- The engines a partial image replaces. -/
def State.groupEngines (s : State) (mask : Nat) : List Nat :=
  (s.image.topo.filter fun t => bit mask t.group).map (·.engine)

/-- The records in force of the queues that a reload leaves alone but its engines use (R318). -/
def State.keptQueues (s : State) (m : Image) : List QMap :=
  if m.isPartial then s.image.qmap.filter fun q => !(m.qmap.any fun r => r.queue = q.queue) else []

/-- A partial image breaks R318 (RANGE). -/
def State.partialBad (s : State) (m : Image) : Bool :=
  let es := s.groupEngines m.groupMask
  let sameTopo := (m.topo.map fun t => (t.engine, t.group, t.station)) ==
    ((s.image.topo.filter fun t => bit m.groupMask t.group).map fun t => (t.engine, t.group, t.station))
  let oneStation := match m.topo with
    | [] => true
    | t :: ts => ts.all fun u => u.station = t.station
  let inGroup (q : QMap) : Bool :=
    (q.engines.all fun e => es.contains e.1) && (match q.reader with | .engine _ _ => true | _ => false)
  let inputsGood := (m.qmap ++ s.keptQueues m).all fun q =>
    match q.reader with
    | .engine e _ => !es.contains e || (match q.writer with
      | .store _ => true
      | .engine w _ => es.contains w
      | _ => false)
    | _ => true
  let replaced := s.image.qmap.filter fun q => m.qmap.any fun r => r.queue = q.queue
  !sameTopo || !oneStation || !(m.qmap.all inGroup) || !(replaced.all inGroup) || !inputsGood

/-! ### Worlds (R312) -/

/-- Everything the image must request: kind and target. -/
def Image.needs (m : Image) : List (Nat × Nat) :=
  (m.topo.map fun t => (1, t.engine)) ++ (m.qmap.map fun q => (2, q.queue / 1024)) ++
    (m.topo.flatMap fun t => (List.range t.ovfPages).map fun g => (3, (t.ovfPage + g) / 32)) ++
    (m.leaves.flatMap fun r =>
      if r.kind = 2 then (List.range (ceilDiv r.data.length 4096)).map fun g => (4, field r.head 2 2 + g)
      else if r.kind = 3 then [(4, 4096 + field r.head 0 2 / 32)] else [])

/-- The world the Cabinet has assigned to a target of a WORLD_REQ kind. -/
def State.worldOfKind (s : State) (kind t : Nat) : World :=
  match kind with
  | 1 => s.engineWorld t
  | 2 => s.queueWorld (1024 * t)
  | 3 => s.shelfWorld t
  | _ => s.ocWorld t

/-- Stage 7 (R312). -/
def State.stage7 (s : State) (x : Sect) (m : Image) : Option ImgFail :=
  let differ := (m.worlds.mapIdx fun i w => (i, (List.range w.count).any fun k =>
    (s.worldOfKind w.kind (w.first + k)).toNat ≠ w.world)).find? (·.2)
  let missing := m.needs.any fun n => !(m.worlds.any fun w => w.kind = n.1 ∧ w.first ≤ n.2 ∧ n.2 < w.first + w.count)
  firstFail
    [differ.map fun p => ⟨7, .world, x.idx, x.at 16 p.1 1⟩, failIf missing ⟨7, .world, x.idx, x.entry⟩]

/-- Stage 6 (R305 to R313, R318). -/
def State.stage6 (s : State) (secs : List Sect) (m : Image) : Option ImgFail :=
  firstFail
    [(sectOf secs 1).bind fun x => s.topoFail x m,
     (sectOf secs 2).bind fun x => cellsFail x m,
     (sectOf secs 3).bind fun x => qmapFail x m (s.keptQueues m),
     (sectOf secs 4).bind fun x => worldsFail x m,
     (sectOf secs 5).bind fun x => constsFail x m,
     (sectOf secs 6).bind fun x => s.leavesFail x m,
     (sectOf secs 7).bind fun x => sigmaFail x m,
     if m.isPartial then (sectOf secs 1).bind fun x => failIf (s.partialBad m) ⟨6, .range, x.idx, x.entry⟩ else none]

/-- Stages 1 to 7 (R315) of a load of LENGTH bytes. -/
def State.imageFail (s : State) (o : ImageObs) : Option ImgFail :=
  let b : ImgFile := o.bytes
  let secs := s.imageSects b
  let m := b.parse secs
  firstFail
    [failIf (!o.readOk) ⟨1, .absent, 0xFFFF, 0⟩,
     failIf (b.isPart && s.get R.SCU_RLD_STATUS_PHASE != 0) ⟨2, .busy, 0xFFFF, 6⟩,
     b.stage2 s.scu.loadLen secs,
     failIf (b.isPart && (!s.inForce || m.baseId != s.get R.SCU_IMG_ID)) ⟨2, .version, 0xFFFF, b.manOff + 24⟩,
     failIf (!s.ownerSigned b) ⟨3, .integrity, 0xFFFF, b.sigOff⟩,
     if s.on R.SMC_POLICY_ALLOW_UNTESTED then none else s.stage4 b,
     (secs.find? fun x => !x.good).map fun x => ⟨5, .integrity, x.idx, x.entry⟩,
     s.stage6 secs m,
     (sectOf secs 4).bind fun x => s.stage7 x m]

end Sys2Proof.Machine
end

