-- ==== Sys2Proof/Machine/ReloadOps.lean ====
section
/-! DEFINITION. Putting a structure in force (R316) and the partial reload (R318 to R323). -/

namespace Sys2Proof.Machine

/-! ### Reports -/

/-- UNVERIFIED_COMBO holds while one of the three bits is 1; each rise raises its event (R506). -/
def State.syncCombo (s : State) : State :=
  let v := s.on R.SMC_POLICY_UNV_CAB || s.on R.SMC_POLICY_UNV_WB || s.on R.SMC_POLICY_UNV_IMG
  let s1 := s.set R.SMC_POLICY_UNVERIFIED_COMBO (b2n v)
  if v ∧ ¬ s.on R.SMC_POLICY_UNVERIFIED_COMBO then s1.raise Ev.comboRose else s1

/-- UNV_IMG mirrors SCU_IMG_STATUS.UNVERIFIED (R506). -/
def State.setUnverified (s : State) (v : Bool) : State :=
  ((s.set R.SCU_IMG_STATUS_UNVERIFIED (b2n v)).set R.SMC_POLICY_UNV_IMG (b2n v)).syncCombo

/-- A load ends refused (R315, R317). -/
def State.imageRefused (s : State) (f : ImgFail) : State :=
  (((((s.set R.SCU_IMG_STATUS_STATUS f.status.code).set R.SCU_IMG_STATUS_STAGE f.stage).set R.SCU_IMG_STATUS_SECTION
    f.sect).set R.SCU_IMG_FAIL_OFF_OFFSET f.off).set R.SCU_IMG_STATUS_BUSY 0).add R.SCU_IMG_REFUSED_COUNT 1

/-- A load ends with OK (R315). -/
def State.imageOk (s : State) : State :=
  ((((s.set R.SCU_IMG_STATUS_STATUS 0).set R.SCU_IMG_STATUS_STAGE 0).set R.SCU_IMG_STATUS_SECTION 0xFFFF).set
    R.SCU_IMG_FAIL_OFF_OFFSET 0).set R.SCU_IMG_STATUS_BUSY 0

/-- Measurement 4 (R316, R321, R510). -/
def State.setDigest (s : State) (d : List Nat) : State :=
  (s.each (List.range 12) fun s i => s.set R.SCU_IMG_DIGEST_DIGEST (field d (4 * i) 4) i).syncMeas

/-! ### Engines and queues of a structure -/

/-- σ of an engine (R313). -/
def Image.sigmaOf (m : Image) (e : Nat) : Nat := ((m.sigma.find? fun p => p.1 = e).map (·.2)).getD 0

/-- Make an engine UNBOUND (R243, R316 step 1). -/
def State.unbind (s : State) (e : Nat) : State :=
  let s1 := (s.resetEngine e).setEngState e Eng.unbound
  let s2 := s1.setEngine e {}
  let s3 := (((((s2.set R.IEA_ENG_CTRL_BOUND 0 e).set R.IEA_ENG_CTRL_SIGMA 0 e).set R.IEA_ENG_CTRL_STATION 0 e).set
    R.IEA_ENG_CTRL_LEAD 0 e).set R.IEA_ENG_LS_USED_UNITS 0 e).set R.IEA_ENG_OVF_PAGES 0 e
  let s4 := (s3.set R.IEA_ENG_OVF_PAGE 0 e).each (List.range 4) fun s i => s.set R.IEA_ENG_PORT_USED 0 e i
  let m := s4.get R.IEA_CL_BOUND_MASK (e / 32)
  s4.set R.IEA_CL_BOUND_MASK (m - (m &&& 2 ^ (e % 32))) (e / 32)

/-- The queue and direction of port `i` of an engine. -/
def Image.portOf (m : Image) (e i : Nat) : Option (Nat × Bool) :=
  m.qmap.findSome? fun q => (q.engines.find? fun x => x.1 = e ∧ x.2.1 = i).map fun x => (q.queue, x.2.2)

/-- Write the registers and cells of one engine from a structure (R242, R306, R307, R313). -/
def State.configEngine (s : State) (m : Image) (t : Topo) : State :=
  let e := t.engine
  let cells := m.cellsOf e
  let cfg : SMap CellCfg := (List.range 48).foldl (fun a c => SMap.put a {} c (nthCell cells c)) []
  let lead := ((List.range 4).find? fun i => (nthCell cells (44 + i)).used ∧ (nthCell cells (44 + i)).isInPort (44 + i) = true).getD 0
  let s1 := s.setEngine e { s.engine e with group := t.group, cfg := cfg }
  let s2 := ((((s1.set R.IEA_ENG_CTRL_STATION t.station e).set R.IEA_ENG_CTRL_BOUND 1 e).set R.IEA_ENG_CTRL_SECURE
    (s1.engineWorld e).toNat e).set R.IEA_ENG_CTRL_LEAD lead e).set R.IEA_ENG_CTRL_SIGMA (m.sigmaOf e) e
  let s3 := ((s2.set R.IEA_ENG_LS_USED_UNITS (unitsUsed cells) e).set R.IEA_ENG_OVF_PAGE t.ovfPage e).set
    R.IEA_ENG_OVF_PAGES t.ovfPages e
  let s4 := s3.each (List.range 16) fun s i => s.set R.IEA_ENG_SEQ_INSTR (t.seq.getD i 7) e i
  let s5 := s4.each (List.range 4) fun s i =>
    match m.portOf e i with
    | some q => ((s.set R.IEA_ENG_PORT_QUEUE q.1 e i).set R.IEA_ENG_PORT_DIR (b2n q.2) e i).set R.IEA_ENG_PORT_USED 1 e i
    | none => s.set R.IEA_ENG_PORT_USED 0 e i
  s5.set R.IEA_CL_BOUND_MASK (s5.get R.IEA_CL_BOUND_MASK (e / 32) ||| 2 ^ (e % 32)) (e / 32)

/-- IEA_OVF_USED reports the sum of the runs (R247). -/
def State.syncOvf (s : State) : State :=
  s.set R.IEA_OVF_USED_PAGES (s.image.topo.foldl (fun a t => a + t.ovfPages) 0)

/-- Configure a mapped queue with EN = 0 (R310). -/
def State.configMapped (s : State) (m : Image) (q : QMap) : State :=
  (s.disableQueue q.queue).configQueue q.queue q.cls q.max (b2n q.closeEnd) q.idle q.stall q.res ((m.queueStation q).getD 0)

/-- Write the shading and FIR leaves of a structure (R309, R316 step 3). -/
def State.writeLeaves (s : State) (m : Image) : State :=
  s.each m.leaves fun s r =>
    let l := field r.head 0 2
    if r.kind = 2 then
      let s1 := (s.set R.PCP_LEAF_BASE_PAGE (field r.head 2 2) l).set R.PCP_LEAF_BASE_PAGES (field r.head 4 2) l
      let s2 := (s1.set R.PCP_LEAF_GEOM_COLUMNS (field r.head 8 4) l).set R.PCP_LEAF_GEOM_PLANES (field r.head 6 1) l
      (s2.set R.PCP_LEAF_DEFECTS_COUNT (field r.head 12 2) l).putLeaf (pageAddr (field r.head 2 2)) r.data
    else if r.kind = 3 then s.putLeaf (firAddr l) r.data
    else s

/-- Commit a full image (R316). `policy` says that stage 4h passed only by the policy. -/
def State.commitImage (s : State) (m : Image) (policy : Bool) : State :=
  let old := s.image
  let s1 := s.each (old.topo.map (·.engine)) State.unbind
  let gone := (old.qmap.map (·.queue)).filter fun q => !(m.qmap.any fun r => r.queue = q)
  let s2 := s1.each gone State.disableQueue
  let s3 : State := { s2 with scu := { s2.scu with image := some m } }
  let s4 := s3.each m.topo fun s t => s.configEngine m t
  let s5 := (s4.each m.qmap fun s q => s.configMapped m q).writeLeaves m
  let s6 := s5.each m.topo fun s t => (s.reloadStore t.engine).loadEngine t.engine
  let s7 := (((s6.set R.SCU_IMG_ID m.id).set R.SCU_IMG_VER_VER m.ver).setDigest (sha384 m.manifest)).syncOvf
  (((s7.imageOk).set R.SCU_IMG_STATUS_IN_FORCE 1).setUnverified policy).syncDev

/-! ### Partial reload (R318 to R323) -/

/-- The structure in force with the groups of a partial image replaced. -/
def Image.merge (m p : Image) : Image :=
  let has (e : Nat) : Bool := p.topo.any fun t => t.engine = e
  let put {α : Type} (key : α → Nat) (a b : List α) : List α :=
    b.foldl (fun acc x => (acc.filter fun y => key y < key x) ++ x :: acc.filter fun y => key x < key y) a
  { m with
    topo := put (·.engine) m.topo p.topo,
    cells := put (·.engine) m.cells p.cells,
    consts := put (·.engine) (m.consts.filter fun c => !has c.engine) p.consts,
    sigma := put (·.1) m.sigma p.sigma,
    qmap := put (·.queue) m.qmap p.qmap,
    leaves := (m.leaves.filter fun r => !(decide (r.kind = 1) && has (field r.head 0 2))) ++ p.leaves }

/-- The engines of a staged reload. -/
def Image.engines (m : Image) : List Nat := m.topo.map (·.engine)

/-- The station of a partial image. -/
def Image.station (m : Image) : Nat := (m.topo.head?.map (·.station)).getD 0

/-- The STORE queues of a partial image's engines in a structure. -/
def Image.storeQueuesOf (m : Image) (es : List Nat) : List QMap :=
  m.qmap.filter fun q => (match q.writer with | .store _ => true | _ => false) &&
    (match q.reader with | .engine e _ => es.contains e | _ => false)

/-- The queues between engines of the groups. -/
def Image.innerQueues (m : Image) (es : List Nat) : List QMap :=
  m.qmap.filter fun q => (match q.writer with | .engine e _ => es.contains e | _ => false) &&
    (match q.reader with | .engine e _ => es.contains e | _ => false)

/-- The hinge line of a partial image: SCU_RLD_H, or the first band start (R319). -/
def State.reloadHinge (s : State) (n : Nat) : Nat :=
  let h := s.get R.SCU_RLD_H
  if h = 0 then nextBandStart (s.firstFree n) (s.bandExp n) else h

/-- H is a band start that no lead port of the groups has accepted (R319). -/
def State.hingeFree (s : State) (n : Nat) (es : List Nat) (h : Nat) : Bool :=
  isBandStart h (s.bandExp n) && es.all fun e =>
    match (s.engine e).newest with
    | some b => decide (b < bandOf h (s.bandExp n))
    | none => true

/-- Write the new structure of the groups (R321 step 4) and put it in force (step 5, R323). The STORE pointers move to H, or to the line
the reload mark has been moved to (R205, R323). -/
def State.takeReload (s : State) (m : Image) (running : Bool) : State :=
  let merged := s.image.merge m
  let n := m.station
  let h := max s.scu.hinge ((s.sto n).reloadMark.getD 0)
  let s1 : State := { s with scu := { s.scu with image := some merged, staged := none } }
  let s2 := (s1.each ((merged.innerQueues m.engines).map (·.queue)) State.freshWriter).each m.topo fun s t =>
    (s.configEngine merged t).reloadStore t.engine
  let s3 := s2.each m.qmap fun s q =>
    let t := s.configMapped merged q
    if running && (t.enableCheck q.queue).isNone then t.enableQueue q.queue else t
  let x := s3.sto n
  let qs := (merged.storeQueuesOf m.engines).map (·.queue)
  let fed := if running then qs.foldl (fun a q => SMap.insert a q h) x.queues else x.queues
  let s4 := s3.setSto n { x with
    reloadMark := none,
    queues := fed,
    begun := x.begun.filter fun q => !qs.contains q,
    offered := x.offered.filter fun q => !qs.contains q }
  let s5 := s4.each m.engines fun s e => if running then s.runEngine e else s.loadEngine e
  let s6 := s5.setDigest (sha384 (s5.digest ++ sha384 m.manifest))
  let s7 := ((((s6.add R.SCU_RLD_COUNT_COUNT 1).set R.SCU_RLD_STATUS_DONE 1).set R.SCU_RLD_STATUS_PHASE 0).set
    R.SCU_RLD_MASK_GROUPS 0).syncOvf
  if running then s7.syncStore n else s7

/-- Stage a partial image whose checks have passed, or refuse it when a lead port has accepted its hinge line meanwhile (R319,
R323). -/
def State.stageReload (s : State) (m : Image) : State :=
  let n := m.station
  let h := s.reloadHinge n
  let policy := s.scu.unverified || s.on R.SCU_IMG_STATUS_UNVERIFIED
  if s.stBusy n ∧ s.hingeFree n m.engines h = false then
    ({ s with scu := { s.scu with waiting := none } } : State).imageRefused { stage := 6, status := .range, off := 0 }
  else
    let s1 := ((s.imageOk).set R.SCU_RLD_H h).setUnverified policy
    if s.stBusy n then
      let s2 : State := { s1 with scu := { s1.scu with staged := some m, waiting := none, hinge := h } }
      let s3 := ((s2.set R.SCU_RLD_STATUS_PHASE 1).set R.SCU_RLD_STATUS_STATION n).set R.SCU_RLD_MASK_GROUPS m.groupMask
      (s3.setSto n { s3.sto n with reloadMark := some h }).syncStore n
    else ({ s1 with scu := { s1.scu with waiting := none, hinge := h } } : State).takeReload m false

/-- Every group engine has retired the last band below the hinge (R321 step 3). -/
def State.groupsDone (s : State) (m : Image) : Bool :=
  let n := m.station
  let hb := bandOf s.scu.hinge (s.bandExp n)
  decide (hb ≤ bandOf (s.w0 n) (s.bandExp n)) || m.engines.all fun e =>
    s.on R.IEA_ENG_BAND_VALID e && decide (hb ≤ s.get R.IEA_ENG_BAND_BAND e + 1)

/-- Steps 2 and 3 of R321: line H is stored; then the last group engine retires the last band below it, the groups'
queues are flushed and the engines enter RELOADING. A FAULTED engine stays FAULTED. -/
def State.checkReload (s : State) : State :=
  match s.scu.staged with
  | none => s
  | some m =>
    let n := m.station
    let s1 := if s.get R.SCU_RLD_STATUS_PHASE = 1 ∧ s.scu.hinge < s.wp n then s.set R.SCU_RLD_STATUS_PHASE 2 else s
    if s1.get R.SCU_RLD_STATUS_PHASE = 2 ∧ s1.groupsDone m = true then
      let es := m.engines
      let qs := ((s1.image.storeQueuesOf es) ++ (s1.image.innerQueues es)).map (·.queue)
      let s2 := s1.each qs State.flushOpen
      let x := s2.sto n
      let s3 := s2.setSto n { x with offered := x.offered.filter fun q => !qs.contains q }
      let s4 := s3.each es fun s e =>
        if s.engState e = Eng.running then (s.set R.IEA_ENG_STATUS_SEQ 0 e).setEngState e Eng.reloading else s
      s4.set R.SCU_RLD_STATUS_PHASE 3
    else s1

/-- The SST stops feeding a queue whose group is reloading (R321 step 3). -/
def State.feedStopped (s : State) (q : Nat) : Bool :=
  decide (s.get R.SCU_RLD_STATUS_PHASE = 3) &&
    match s.scu.staged with
    | some m => (s.image.storeQueuesOf m.engines).any fun r => r.queue = q
    | none => false

/-! ### What the regions show (R249, R371) -/

/-- What a cell's region holds of it (R275, R290): rows of a window, sets of a COLUMN reduce. -/
def Cell.held (k : Cell) : List Nat :=
  (k.rows.flatMap (·.words)) ++ ((k.cur.map (·.words)).getD []) ++
    k.vals.flatMap fun sets => sets.flatMap fun v =>
      match v with
      | some (n, i) => [1, ofSigned 41 n, i]
      | none => [0, 0, 0]

/-- The cell in whose region word `a` lies, with the region's first unit: a window whose line buffer is in local store, or a COLUMN
reduce; in the overflow run (`ovf`), a window with OVF = 1 (R275). -/
def Engine.regionOf (x : Engine) (ovf : Bool) (a : Nat) : Option (Nat × Nat) :=
  ((x.cfg.filter fun p => p.2.used ∧ cellKind p.1 ≠ .lookup ∧ p.2.inOvf p.1 = ovf ∧ p.2.base * 16 ≤ a ∧
    a < (p.2.base + p.2.units p.1) * 16).head?).map fun p => (p.1, p.2.base)

/-- The engine in whose overflow run an HBM byte lies, with the byte's place in the run (R247). -/
def State.overflowAt (s : State) (a : Nat) : Option (Nat × Nat) :=
  (s.boundEngines.find? fun e =>
    let p := s.get R.IEA_ENG_OVF_PAGE e
    decide (p * 65536 ≤ a ∧ a < (p + s.get R.IEA_ENG_OVF_PAGES e) * 65536)).map fun e => (e, a - s.get R.IEA_ENG_OVF_PAGE e * 65536)

/-- An HBM byte as BAR2 shows it (R371): in an overflow line buffer of an engine that has run, a free value of what the window cell
holds there (R275, log 135). -/
def State.hbmShown (s : State) (a : Nat) : Nat :=
  match s.overflowAt a with
  | none => s.hbm.byte a
  | some (e, o) =>
    let x := s.engine e
    match (if x.ran then x.regionOf true (o / 4) else none) with
    | none => s.hbm.byte a
    | some (c, base) =>
      bits (Config.regionWord (x.cell c).held (o / 4 - base * 16) (ofLe (s.hbm.bytes (a - a % 4) 4))) (8 * (a % 4)) 8

end Sys2Proof.Machine
end

