-- ==== Sys2Proof/Machine/StationOps.lean ====
section
/-! DEFINITION. The life of a station: entry to IDLE, abort, drain, the seal of a band, and device state FAULT (R158,
R325 to R337, R525, R530, R531, R541, R542). -/

namespace Sys2Proof.Machine

/-- The products of a station. -/
def State.productsOf (s : State) (n : Nat) : List Nat :=
  (List.range 32).filter fun q => s.on R.PCP_DEC_CTRL_EN q ∧ s.get R.PCP_DEC_CTRL_STATION q = n

/-- The fixed queues of a station (R210). -/
def State.fixedQueues (s : State) (n : Nat) : List Nat := (s.station n).heads ++ [96 + n, 104 + n, 112 + n]

/-- The mapped queues of a station (R310). -/
def State.mappedQueues (s : State) (n : Nat) : List Nat :=
  (s.image.qmap.map (·.queue)).filter fun q => s.get R.QMX_Q_CFG_STATION q = n

/-- The product queues of a station (R578). -/
def State.productQueues (s : State) (n : Nat) : List Nat :=
  (s.productsOf n).map s.prodQueue

/-- Every queue of a station. -/
def State.stationQueues (s : State) (n : Nat) : List Nat := s.fixedQueues n ++ s.productQueues n ++ s.mappedQueues n

/-- A queue of a station in IDLE is disabled once it holds no word (R210, R310, R578). -/
def State.autoDisable (s : State) (q : Nat) : State :=
  if s.on R.QMX_Q_CFG_EN q ∧ s.holdsWords q = false ∧ (s.queue q).present = [] then s.disableQueue q else s

/-- Drop the pending leaves of a station's products (R182). -/
def State.dropProducts (s : State) (n : Nat) : State :=
  s.each (s.productsOf n) fun s q =>
    (s.setProd q { s.prod q with pendX := 0, pendY := 0, pendH := 0 }).set R.PCP_DEC_SWAP_PENDING 0 q

/-- Drop the staged change of a station (R532). -/
def State.dropStaged (s : State) (n : Nat) : State :=
  (s.setStation n { s.station n with staged := none }).set R.SMC_ST_STATE_STAGED 0 n

/-- A ring station has entered IDLE: its alignment ends, and links that waited may come up (R356, R359). -/
def State.ringIdled (s : State) (n : Nat) : State :=
  (s.setKst n { s.kst n with ta := none, latched := none, acks := [], owed := false }).admitLinks

/-- The axis of a station that enters IDLE receives STOP; a back-up move completes as a MOVE (R470, spec/18 Meetings). -/
def State.freeAxis (s : State) (n : Nat) : State :=
  let a := s.paceAxis n
  let x := s.axis a
  if s.paced n ∧ s.stBusy n = true then
    if x.back.isSome ∧ s.axState a = Ax.moving then s.setAxis a { x with back := none } else s.axisStop a
  else s

/-- Entry to station state IDLE (R158, R182, R210, R242, R323, R470): fades complete, pending swaps and the staged change
are dropped, the axis receives STOP, the engines enter LOADED, a staged reload takes effect, and empty queues are
disabled. -/
def State.idleEntry (s : State) (n : Nat) : State :=
  let s2 := (s.freeAxis n).withdrawMatch n
  let s3 := s2.each (s2.station n).heads fun s p => s.dropSwaps p
  let s4 := ((s3.dropProducts n).dropStaged n).dropBanks n
  let x := s4.sto n
  let s5 := s4.setSto n { x with stopped := false, restart := false, mTriggered := false, seam := [], seamOpen := false, seamEnded := false, reloadMark := none }
  let y := s5.station n
  let s6 := (s5.setStation n { y with final := none, fLine := none, fromScan := false, axisDown := false }).set R.SMC_ST_STATE_HOLD 0 n
  let s7 := ((s6.each (s6.enginesOf n) State.loadEngine).enterSt n St.idle).syncAlignStore
  let s8 := match s7.scu.staged with
    | some m => if m.station = n then s7.takeReload m false else s7
    | none => s7
  ((s8.each (s8.stationQueues n) State.autoDisable).ringIdled n).syncHeld n

/-! ### Abort (R530) -/

/-- Flush a queue with whatever its writer presents. -/
def State.flushAll (s : State) (q : Nat) : State :=
  if s.on R.QMX_Q_CFG_EN q then s.flushOpen q else s.setQueue q { s.queue q with present := [] }

/-- The queues that engines of a station write. -/
def State.engineWritten (s : State) (n : Nat) : List Nat :=
  (s.image.qmap.filter fun m => (match m.writer with | .engine e _ => (s.enginesOf n).contains e | _ => false)).map (·.queue)

/-- Samples of lines committed before an abort are discarded (R530): nothing is under assembly. -/
def State.dropLines (s : State) (n : Nat) : State :=
  s.each (s.station n).heads fun s p => s.setHead p { s.head p with lines := [] }

/-- Abort a station (R530). -/
def State.abortStation (s : State) (n : Nat) : State :=
  let s1 := s.each (s.stationQueues n) State.flushAll
  let s2 := ((s1.each (s.engineWritten n) State.freshWriter).set R.SST_ST_REW_STATUS_PHASE 0 n).dropLines n
  s2.idleEntry n

/-- Some slabs that a flush of these queues released have not yet reached the pool (R237). -/
def State.flushing (s : State) (qs : List Nat) : Bool := s.qmx.transit.any fun t => t.flush && qs.contains t.queue

/-- The response of an ST_ABORT follows once its flushes have completed (R530). -/
def State.finishAborts (s : State) : State :=
  s.each [0, 1] fun s r =>
    match (s.ring r).run with
    | some x => if x.op = Op.stAbort ∧ s.flushing x.data = false then s.endRun r .ok [] else s
    | none => s

/-! ### FAULT (R541, R542) -/

/-- Entry to FAULT (R542): THERMAL_LATCH keeps precedence (R524), and a second cause changes nothing (log 7). A station
command that runs ends with STATE. `st` is the station concerned, 8 when none. -/
def State.enterFault (s : State) (cause st : Nat) : State :=
  if s.dev = Dev.thermalLatch ∨ s.dev = Dev.fault then s
  else
    let wpi := match (s.lst st).last with
      | some l => l.n
      | none => 0
    let s1 := (((s.set R.SMC_FAULT_CAUSE cause).set R.SMC_FAULT_STATION (min st 7)).set R.SMC_FAULT_WPI (if st < 8 then wpi else 0)).set
      R.SMC_FAULT_NEW 1
    let s2 := (s1.setDev Dev.fault).raise Ev.faultEntered
    let s3 := s2.each stations8 fun s n => if s.stBusy n then s.abortStation n else s
    s3.each [0, 1] fun s r => s.endRunning r isStationOp

/-! ### Drain (R331, R531) -/

/-- The drain is complete once the horizon has reached the band of F (R331). -/
def State.checkDrained (s : State) (n : Nat) : State :=
  if s.stState n = St.draining then
    match (s.station n).fLine with
    | some f =>
      if s.on R.SCU_SEAL_ST_STATUS_VALID n ∧ bandOf f (s.bandExp n) ≤ s.get R.SCU_SEAL_ST_HZN_BAND n then s.idleEntry n
      else s
    | none => s
  else s

/-- A station enters DRAINING with final line F (R331); one with no line enters IDLE at once. An open restart whose line R
is not committed again ends here, and F is then not below R − 1 (R531, log 10). A station whose horizon has reached the band of F already enters IDLE. -/
def State.enterDrain (s : State) (n : Nat) (f : Option Nat) : State :=
  match f with
  | none => s.idleEntry n
  | some l0 =>
    let x := s.sto n
    let scan := decide (s.stState n = St.scanning)
    let r := s.get R.SST_ST_REW_R n
    let l := if x.restart then max l0 (r - 1) else l0
    let open_ := x.restart && (!scan || decide ((s.lst n).next ≤ r))
    let s0 := if open_ then
        (s.setSto n { x with stopped := false, restart := false, mTriggered := false, seam := [], seamOpen := false, seamEnded := false }).set
          R.SST_ST_REW_STATUS_PHASE 0 n
      else s
    let s1 := s0.withdrawMatch n
    let s2 := s1.setStation n { s1.station n with fLine := some l, final := none, fromScan := scan }
    let s3 := (s2.set R.SMC_ST_STATE_HOLD 0 n).enterSt n St.draining
    ((s3.syncStore n).syncHeld n).checkDrained n

/-! ### The seal of a band (R330, R333 to R337) -/

/-- The latency of a band exceeds MAXLAT (R334): LATE and the event, once for the band. -/
def State.markLate (s : State) (n b : Nat) : State :=
  let x := s.sealOf n
  if x.lateBand = some b then s
  else ((s.setSeal n { x with lateBand := some b }).set R.SCU_SEAL_ST_STATUS_LATE 1 n).raise (Ev.sealLate n)

/-- An age in LTU units exceeds MAXLAT ms. -/
def State.tooLate (s : State) (n age : Nat) : Bool := decide (12800000 * s.get R.SCU_SEAL_ST_CTRL_MAXLAT n < age)

/-- The horizon advances to band `b` (R330): latency, snapshot, snapshot record and event (R334 to R337). -/
def State.sealBand (s : State) (n b : Nat) (t : Int) (audited : Bool) : State :=
  let age := s.sealAge n b t
  let s1 := if audited then
      let u := s.count n b 13 1
      u.setSeal n { u.sealOf n with audited := (u.sealOf n).audited ++ [b] }
    else s
  let s2 := (s1.countRecords n b).snapshot n b
  let s3 := (((s2.set R.SCU_SEAL_ST_HZN_BAND b n).set R.SCU_SEAL_ST_STATUS_VALID 1 n).add R.SCU_SEAL_ST_COUNT_COUNT 1 n).setSat
    R.SCU_SEAL_ST_LAT_NS (unitsToNs age) n
  let s4 := if s3.tooLate n age then s3.markLate n b else s3
  let x := s4.sealOf n
  let due := decide (x.sinceSnap + 1 = 2 ^ s4.get R.SCU_SEAL_ST_CTRL_SNAP_LOG n)
  let s5 := s4.setSeal n { x with
    sinceSnap := if due then 0 else x.sinceSnap + 1,
    snapsDue := if due then x.snapsDue ++ [(b, s.bandLast n b, s4.snapValues n)] else x.snapsDue,
    trig := SMap.erase x.trig b }
  let s6 := if due then s5.raise (Ev.horizonAdvance n) else s5
  (s6.syncHeld n).checkDrained n

end Sys2Proof.Machine
end

