-- ==== Sys2Proof/Machine/RestartOps.lean ====
section
/-! DEFINITION. Storing a conditioned line, the seam of a restart, and the hand-over of stored lines to their readers
(R188, R189, R196 to R202, R209, R255 to R257). -/

namespace Sys2Proof.Machine

/-! ### Errors of the HBM (R209) -/

/-- A lost unit of the slot at `a` reads as zeros; the tag at its end stays (R209). -/
def State.loseUnit (s : State) (a size u : Nat) : State :=
  { s with hbm := s.hbm.write (a + 64 * u) (List.replicate (min 64 (size - 16 - 64 * u)) 0) }

/-- The line in the slot of line `home` is marked ECC_LOST; a stored line so marked for the first time is counted with its band, or with
the next band to be sealed (R209, R335). -/
def State.markLost (s : State) (n home : Nat) : State :=
  let a := s.slotAddr n home
  let t := ofLe (s.hbm.bytes (a + s.slotZ n - 16) 8)
  let l := bits t 0 48
  let fl := bits t 48 9
  let s1 : State := { s with hbm := s.hbm.write (a + s.slotZ n - 16) (leBytes 8 (l + (fl ||| Tag.eccLost) * 2 ^ 48)) }
  if fl &&& Tag.eccLost = 0 ∧ s.relLine n ≤ l ∧ l < s.wp n ∧ s.slotAddr n l = a then
    s1.count n (max (bandOf l (s.bandExp n)) (s.releaseBand n)) 7 1
  else s1

/-- What reading the slot of line `home` meets (R209): an uncorrectable error zeroes its units and marks the tag ECC_LOST. -/
def State.slotError (s : State) (n home : Nat) (e : HbmErr) : State :=
  match e with
  | .none => s
  | .corrected => s.addSat R.SST_ECC_CORR 1
  | .uncorrectable us =>
    let z := s.slotZ n
    let hit := us.filter fun u => 64 * u < z
    if hit.isEmpty then s
    else (((s.each hit fun s u => s.loseUnit (s.slotAddr n home) z u).markLost n home).addSat R.SST_ECC_UNCORR 1).raise Ev.storeEcc

/-- The slots of a station, by the line of the run whose slot it is, that hold a byte of the 64-byte units `us` of the scan store, each
with its own units. -/
def State.slotsHit (s : State) (n : Nat) (us : List Nat) : List (Nat × List Nat) :=
  let base := 1024 * s.get R.SST_ST_REGION_BASE_PAGE n
  let k := s.get R.SST_ST_GEOM_SLOT n
  let own := us.filter fun u => base ≤ u ∧ u < base + k * s.capK n
  let slots := (own.map fun u => (u - base) / k).eraseDups
  slots.map fun i => (s.w0 n + i, (own.filter fun u => (u - base) / k = i).map fun u => (u - base) % k)

/-- The stations whose slots stand in the scan store: those outside IDLE, and those in IDLE whose region none of these has taken over
(R184, R187). -/
def State.slotStations (s : State) : List Nat :=
  let base (m : Nat) : Nat := s.get R.SST_ST_REGION_BASE_PAGE m
  let size (m : Nat) : Nat := 32 * s.get R.SST_ST_REGION_SIZE_SHELVES m
  stations8.filter fun n => s.stBusy n || !(stations8.any fun m => s.stBusy m && runsMeet (base n) (size n) (base m) (size m))

/-- What a read of the scan store by the host meets (R206, R209): errors in the slots of the stations, a drained one's included
(R187). -/
def State.windowError (s : State) (e : HbmErr) : State :=
  match e with
  | .none => s
  | .corrected => s.addSat R.SST_ECC_CORR 1
  | .uncorrectable us => s.each s.slotStations fun s n =>
      s.each (s.slotsHit n us) fun s x => s.slotError n x.1 (.uncorrectable x.2)

/-! ### The line the store takes (R188, R217) -/

/-- The first overlap line of an open restart: M + A_s (R196). -/
def State.overlapFrom (s : State) (n : Nat) : Nat := s.get R.SST_ST_REW_M n + s.span n

/-- An open restart still waits for overlap lines: M has been triggered and line R − 1 not yet written to its seam slot. -/
def State.overlapOpen (s : State) (n : Nat) : Bool :=
  let x := s.sto n
  x.restart && x.mTriggered && decide (s.overlapFrom n < s.get R.SST_ST_REW_R n) &&
    !(x.seamEnded)

/-- The line the store expects next: an overlap line, or WP. -/
def State.expectedLine (s : State) (n : Nat) : Nat :=
  if s.overlapOpen n then ((s.sto n).seam.getLast?.map (· + 1)).getD (s.overlapFrom n) else s.wp n

/-- The descriptor flags of line `w` as the SST reads them, [48] SKIPPED, [49] CLIPPED, [51] VEL_ERR; descriptors of lines
that never reach the store are passed over. None for a terminator (R217). -/
def State.sstDesc (s : State) (n w : Nat) : Nat → Option Nat × State
  | 0 => (some 0, s)
  | f + 1 =>
    match s.takeDescriptor (96 + n) true with
    | (none, s1) => (some 0, s1)
    | (some it, s1) =>
      if it.any fun d => d.poison || d.trunc then (none, s1.setSto n { s1.sto n with lostDesc := lostNext it })
      else
        let w0 := (it.head?.map (·.data)).getD 0
        if bits w0 0 48 = w then
          (some (b2n (bit w0 48) * Tag.skipped + b2n (bit w0 49) * Tag.clipped + b2n (bit w0 51) * Tag.velErr), s1)
        else State.sstDesc s1 n w f

/-- The descriptor flags of line `w`; none for a terminator, and for a descriptor lost with the END of the one before (R216, R217). -/
def State.lineDesc (s : State) (n w : Nat) : Option Nat × State :=
  if (s.sto n).lostDesc then (none, s.setSto n { s.sto n with lostDesc := false })
  else s.sstDesc n w ((s.queue (96 + n)).ring.length + 1)

/-- The samples of a filled line: the last line stored without FILLED, or zeros (R71, R199). -/
def State.fillSamples (s : State) (n : Nat) : List Nat :=
  match (s.sto n).lastGood with
  | [] => List.replicate ((s.sto n).planes * s.lineWidth n) 0
  | l => l

/-- Take the next conditioned line: WPI, tag flags and samples. -/
def State.takeLine (s : State) (n : Nat) : Option (Nat × Nat × List Nat) × State :=
  match s.takeItem (104 + n) with
  | (none, s1) => (none, s1)
  | (some it, s1) =>
    let bad := it.any fun d => d.poison || d.trunc
    let h : Option Nat := match it with
      | d :: _ => if d.poison || d.trunc then none else some d.data
      | [] => none
    let w := (h.map fun v => bits v 0 48).getD (s.expectedLine n)
    let fl := (h.map fun v => bits v 48 9).getD 0
    let size := (s.sto n).planes * s.lineWidth n
    match s1.lineDesc n w with
    | (some d, s2) =>
      if bad then (some (w, (fl ||| d) ||| Tag.filled, s2.fillSamples n), s2)
      else (some (w, fl ||| d, (wordsToSamples ((it.drop 1).map (·.data))).take size), s2)
    | (none, s2) =>
      (some (w, ((fl &&& (Tag.alignInc + Tag.dvtDeg)) ||| Tag.filled), s2.fillSamples n), s2)

/-! ### Writing a line (R186, R188, R193, R203, R205, R335) -/

/-- The counters of a stored line (R335). -/
def State.countLine (s : State) (n b flags : Nat) : State :=
  let c (s : State) (i : Nat) (v : Bool) : State := if v then s.count n b i 1 else s
  let has (m : Nat) : Bool := decide (flags &&& m ≠ 0)
  c (c (c (c (c (c (c s 0 true) 1 (has Tag.skipped)) 2 (has Tag.clipped)) 3 (has Tag.filled && !has Tag.skipped)) 4
    (has Tag.alignInc)) 5 (has Tag.dvtDeg)) 6 (has Tag.velErr)

/-- Store line WP with its tag (R186, R188). -/
def State.putLine (s : State) (n flags : Nat) (samples : List Nat) : State :=
  let l := s.wp n
  let k := s.capK n
  let s1 := if ¬ s.isSheet n ∧ k ≤ l - s.relLine n then s.overrun n (l - k) else s
  let s2 := (s1.writeSlot n l l flags samples).set R.SST_ST_WP (l + 1) n
  let x := s2.sto n
  let s3 := s2.setSto n { x with sinceScale := x.sinceScale + 1,
                                 lastGood := if flags &&& Tag.filled = 0 then samples else x.lastGood }
  let s4 := (s3.countLine n (bandOf l (s.bandExp n)) flags).syncStore n
  let s5 := if s.isSheet n then s4 else (s4.shedAll n).syncStore n
  if 16 ≤ (s5.sto n).sinceScale then (s5.setSto n { s5.sto n with sinceScale := 0 }).sendScale n else s5

/-! ### The seam (R199 to R202) -/

/-- The exact sums of R201 over pairs: count, Σa, Σb, Σa², Σb², Σab, and whether every a equals its b. -/
structure SeamSums where
  cnt : Nat := 0
  a : Nat := 0
  b : Nat := 0
  aa : Nat := 0
  bb : Nat := 0
  ab : Nat := 0
  same : Bool := true
  deriving DecidableEq, Repr

def SeamSums.take (z : SeamSums) (p : Nat × Nat) : SeamSums :=
  { cnt := z.cnt + 1, a := z.a + p.1, b := z.b + p.2, aa := z.aa + p.1 * p.1, bb := z.bb + p.2 * p.2,
    ab := z.ab + p.1 * p.2, same := z.same && decide (p.1 = p.2) }

/-- ρ as U1.15 (R201): rounded to nearest, ties to even, negative values 0. -/
def SeamSums.rho (z : SeamSums) : Nat :=
  let va := z.cnt * z.aa - z.a * z.a
  let vb := z.cnt * z.bb - z.b * z.b
  if va = 0 ∨ vb = 0 then (if z.same then 0x8000 else 0)
  else if z.cnt * z.ab ≤ z.a * z.b then 0
  else
    let c := z.cnt * z.ab - z.a * z.b
    let num := 2 ^ 32 * (c * c)
    let den := va * vb
    let t := isqrt (num / den)
    if t % 2 = 0 then t / 2
    else if t * t * den = num ∧ t / 2 % 2 = 0 then t / 2
    else t / 2 + 1

/-- The samples of plane `p` of the line in the slot of line `home`. -/
def State.slotPlane (s : State) (n home p : Nat) : List Nat :=
  (List.range (s.lineWidth n)).map fun j => s.slotSample n home p j

/-- The overlap lines that are compared: neither copy filled or skipped (R201). -/
def State.seamLines (s : State) (n : Nat) : List Nat :=
  (s.sto n).seam.filter fun l =>
    (s.slotFlags n (l + 16) ||| s.slotFlags n l) &&& (Tag.filled + Tag.skipped) = 0

/-- The outcome of a check (R202): RESULT, RHO and LINES. -/
def State.seamOutcome (s : State) (n : Nat) : Nat × Nat × Nat :=
  let used := s.seamLines n
  let p := s.get R.SST_ST_SEAM_PLANE n
  let z := used.foldl (fun (z : SeamSums) l =>
    ((s.slotPlane n (l + 16) p).zip (s.slotPlane n l p)).foldl SeamSums.take z) {}
  let rho := if used.isEmpty ∨ (s.sto n).seam.length < 8 then 0 else z.rho
  let res := if used.length < 8 then 3 else if s.get R.SST_ST_SEAM_THR n ≤ rho then 1 else 2
  (res, rho, used.length)

/-- Show the outcome of a check (R202); a failed one raises its event. -/
def State.showSeam (s : State) (n : Nat) (r : Nat × Nat × Nat) : State :=
  let s1 := ((s.set R.SST_ST_SEAM_RES_RESULT r.1 n).set R.SST_ST_SEAM_RES_RHO r.2.1 n).set R.SST_ST_SEAM_RES_LINES r.2.2 n
  if r.1 = 2 then s1.raise (Ev.seamFailed n) else s1

/-- The products of the station are handed overlap lines as history before line R (R200). -/
def State.handHistory (s : State) (n : Nat) : State :=
  let r := s.get R.SST_ST_REW_R n
  let lines := (s.sto n).seam.map fun l => (l, s.slotSamples n (l + 16))
  s.each ((s.sto n).products.map (·.1)) fun s q =>
    let x := s.prod q
    s.setProd q { x with overlaps := x.overlaps.filter (fun e => e.1 ≠ r) ++ [(r, lines)] }

/-- The end of the overlap: the check reads the slots, which meets `es` (slot and error), runs, history is handed on, and the seam slots are given up (R196 step 9, R208). -/
def State.seamCheck (s : State) (n : Nat) (es : List (Nat × HbmErr)) : State :=
  let s0 := s.each es fun s e => s.slotError n e.1 e.2
  let s1 := (s0.showSeam n (s0.seamOutcome n)).handHistory n
  (s1.setSto n { s1.sto n with seam := [], seamOpen := false, seamEnded := true }).syncPages

/-- An overlap line goes to its seam slot (R196 step 8, R201). -/
def State.overlapLine (s : State) (n w flags : Nat) (samples : List Nat) (es : List (Nat × HbmErr)) : State :=
  let x := s.sto n
  let s1 := (s.writeSlot n (w + 16) w flags samples).setSto n { x with seam := x.seam ++ [w], seamOpen := true }
  let s2 := (s1.set R.SST_ST_REW_STATUS_PHASE 6 n).syncPages
  if w + 1 = s.get R.SST_ST_REW_R n then s2.seamCheck n es else s2

/-- Line R of a restart is about to be stored (R196 step 10, R199, R202): RESTARTS, the seam record, and the flags of
line R. -/
def State.closeRestart (s : State) (n : Nat) : Nat × State :=
  let r := s.get R.SST_ST_REW_R n
  let m := s.get R.SST_ST_REW_M n
  let s1 := if (s.sto n).seamEnded then s else (s.showSeam n (3, 0, 0)).handHistory n
  let s2 := s1.add R.SST_ST_RESTARTS_COUNT 1 n
  let res := s2.get R.SST_ST_SEAM_RES_RESULT n
  let s3 := s2.sstSeam n r r m res (s2.get R.SST_ST_SEAM_RES_LINES n) (s2.get R.SST_ST_SEAM_RES_RHO n)
    (s2.get R.SST_ST_RESTARTS_COUNT n)
  let s4 := (s3.setSto n { s3.sto n with restart := false, mTriggered := false, seamEnded := false, seam := [], seamOpen := false }).set
    R.SST_ST_REW_STATUS_PHASE 0 n
  (if res = 1 then Tag.seam else Tag.seam + Tag.seamFail, s4)

/-- Fill lines WP to `w` − 1 of a restart that has no overlap (R199); the first carries `mark`. -/
def State.fillGap (s : State) (n mark : Nat) : Nat → State
  | 0 => s
  | k + 1 => (s.putLine n (Tag.filled + Tag.alignInc + mark) (s.fillSamples n)).fillGap n 0 k

/-- A conditioned line reaches the store (R188, R196 steps 8 to 10, R198). -/
def State.storeLine (s : State) (n w flags : Nat) (samples : List Nat) (es : List (Nat × HbmErr)) : State :=
  let x := s.sto n
  let r := s.get R.SST_ST_REW_R n
  let past : Bool := match (s.station n).fLine with
    | some f => decide (f < w)
    | none => false
  if past then s
  else if s.overlapOpen n then
    if w < r then (if s.expectedLine n = w then s.overlapLine n w flags samples es else s) else s
  else if w < s.wp n then s
  else if x.restart ∧ r ≤ w then
    if x.mTriggered then
      let c := s.closeRestart n
      let gap := w - c.2.wp n
      if gap = 0 then c.2.putLine n (flags ||| c.1) samples
      else (c.2.fillGap n c.1 gap).putLine n flags samples
    else s
  else if w = s.wp n then s.putLine n flags samples
  else s

/-! ### Store read queues (R189, R255 to R257) -/

/-- Line `l` may be handed on as the store knows whether it ends its band: its band ends there, F is fixed, or a later line
is committed. -/
def State.lineEndKnown (s : State) (n l : Nat) : Bool :=
  decide (l + 1 = s.nextBand n l) || (s.station n).fLine.isSome || decide (l + 1 < (s.lst n).next) ||
    ((s.sto n).restart && decide (l + 1 < s.get R.SST_ST_REW_R n))

/-- Line `l` is the last of its band (R257, R331). -/
def State.endsBand (s : State) (n l : Nat) : Bool := decide (l = s.bandLast n (bandOf l (s.bandExp n)))

/-- The samples of a store window: its planes in order, its columns (R255, R310). -/
def State.windowSamples (s : State) (n l : Nat) (m : QMap) : List Nat :=
  ((List.range 8).filter fun p => bit m.planes p).flatMap fun p =>
    (List.range m.width).map fun j => s.slotSample n l p (m.first + j)

/-- The item of line `l` for a store read queue (R255). -/
def State.storeItem (s : State) (n l : Nat) (m : QMap) : List Nat :=
  (wrap48 l + s.slotFlags n l * 2 ^ 48 + b2n (s.endsBand n l) * 2 ^ 57) :: samplesToWords (s.windowSamples n l m)

/-- The queue has accepted the line of its pointer: the pointer and the release line advance (R189, R192). -/
def State.advanceQueue (s : State) (n q l : Nat) : State :=
  let x := s.sto n
  let last := s.endsBand n l
  let begun := x.begun.filter (· ≠ q)
  (s.setSto n { x with queues := SMap.insert x.queues q (l + 1), offered := x.offered.filter (· ≠ q),
                       begun := if last then begun else q :: begun }).syncStore n

end Sys2Proof.Machine
end

