-- ==== Sys2Proof/Machine/ProductOps.lean ====
section
/-! DEFINITION. Image products: the two filters, groups and frames (R178 to R182, R200, R405). -/

namespace Sys2Proof.Machine

/-- The planes a product reads, ascending (R178). -/
def State.prodPlanes (s : State) (q : Nat) : List Nat := (List.range 8).filter fun p => bit (s.get R.PCP_DEC_CTRL_PLANES q) p

def State.prodDx (s : State) (q : Nat) : Nat := s.get R.PCP_DEC_CTRL_DX q
def State.prodLen (s : State) (q : Nat) : Nat := s.get R.PCP_DEC_LEN_LEN q
/-- Output columns of a plane (R178). -/
def State.prodCols (s : State) (q : Nat) : Nat := ceilDiv (s.prodLen q) (s.prodDx q)
/-- The group of a line (R180). -/
def State.prodGroup (s : State) (q l : Nat) : Nat := l >>> s.get R.PCP_DEC_CTRL_DY_LOG q

/-- The X filter over one plane of a station line (R179): the taps `ts` with offset `o`, U16.4 out. -/
def filterX (ts : List Int) (o dx cols len : Nat) (row : Nat → Nat) : List Nat :=
  (List.range cols).map fun (j : Nat) =>
    let sum := (ts.mapIdx fun k a =>
      a * (row (clampI 0 ((len : Int) - 1) ((dx : Int) * j + k - o)).toNat : Int)).foldl (· + ·) 0
    (clampI 0 (2 ^ 20 - 1) (roundDivI sum (2 ^ 10))).toNat

/-- The taps of a FIR leaf. -/
def State.firTapList (s : State) (v : Nat) : List Int := (List.range (s.firTaps v)).map fun k => s.firTap v k

/-- The u line of a station line whose sample `j` of plane `p` is `x p j`, by plane (R179). -/
def State.uLine (s : State) (q : Nat) (x : Nat → Nat → Nat) : List (List Nat) :=
  let v := s.get R.PCP_DEC_LEAF_LEAF_X q
  let first := s.get R.PCP_DEC_WIN_FIRST q
  (s.prodPlanes q).map fun p => filterX (s.firTapList v) (s.firO v) (s.prodDx q) (s.prodCols q) (s.prodLen q) fun i => x p (first + i)

/-- The u value of line `m` for plane number `i`, column `j`: lines before the product's first line read as its first
(R180); a line that the product never read is a free value (log 3), the `fresh`-th. -/
def Prod.u (x : Prod) (m : Int) (i j fresh : Nat) : Nat :=
  let first := x.first.getD 0
  let l : Int := max m first
  match x.hist.find? fun e => (e.1 : Int) = l with
  | some e => (e.2.getD i []).getD j 0
  | none => Config.freePixel fresh % 2 ^ 20

/-- Some line that the filter of the group reads was never read. -/
def Prod.lacks (x : Prod) (ng taps : Nat) : Bool :=
  (List.range taps).any fun k =>
    let l : Int := max ((ng : Int) - k) (x.first.getD 0)
    !(x.hist.any fun e => (e.1 : Int) = l)

/-- The product line of the group that ends at `ng`, plane after plane (R180). -/
def State.productLine (s : State) (q ng : Nat) : List Nat :=
  let x := s.prod q
  let bs := s.firTapList (s.get R.PCP_DEC_LEAF_LEAF_Y q)
  let cols := s.prodCols q
  let np := (s.prodPlanes q).length
  (List.range (np * cols)).map fun c =>
    let sum := (bs.mapIdx fun k b =>
      b * (x.u ((ng : Int) - k) (c / max 1 cols) (c % max 1 cols) (s.fresh + (k * np * cols + c)) : Int)).foldl (· + ·) 0
    (clampI 0 65535 (roundDivI sum (2 ^ 18))).toNat

/-- Bytes as words, eight a word. -/
def bytesToWords : List Nat → List Nat
  | a :: b :: c :: d :: e :: f :: g :: h :: t => ofLe [a, b, c, d, e, f, g, h] :: bytesToWords t
  | [] => []
  | l => [ofLe l]

/-- The frame of a product line (R405). -/
def State.frame (s : State) (n q ng flags : Nat) : List Nat :=
  let z := s.productLine q ng
  let d8 := s.on R.PCP_DEC_CTRL_DEPTH8 q
  let body := if d8 then bytesToWords (z.map fun v => min 255 (roundDiv v 256)) else samplesToWords z
  let fw := q + s.get R.PCP_DEC_CTRL_PLANES q * 2 ^ 5 + b2n d8 * 2 ^ 13 + s.prodDx q * 2 ^ 14 +
    s.get R.PCP_DEC_CTRL_DY_LOG q * 2 ^ 19 + s.prodCols q * 2 ^ 22
  s.recWord0 ng flags false ::
    recWord1 0x10 0x3FF n (1 + body.length) (s.get R.PCP_STC_ST_ORIGIN_COLUMN n + s.get R.PCP_DEC_WIN_FIRST q) :: fw :: body

/-- Staged leaves apply from their hinge line on (R182). -/
def State.applyLeaves (s : State) (q l : Nat) : State :=
  let x := s.prod q
  if s.on R.PCP_DEC_SWAP_PENDING q ∧ x.pendH ≤ l then
    ((s.set R.PCP_DEC_LEAF_LEAF_X x.pendX q).set R.PCP_DEC_LEAF_LEAF_Y x.pendY q).set R.PCP_DEC_SWAP_PENDING 0 q
  else s

/-- The history of a restart takes effect at its line R (R180, R200). -/
def State.takeHistory (s : State) (n q l : Nat) : State :=
  let x := s.prod q
  match x.overlaps.find? fun e => e.1 = l with
  | none => s
  | some e =>
    let w := s.lineWidth n
    let us := (e.2.map fun o => (o.1, s.uLine q fun p j => o.2.getD (p * w + j) 0)).reverse
    s.setProd q { x with overlaps := x.overlaps.filter fun e => e.1 ≠ l, hist := us.take 32, first := (us.getLast?.map (·.1)).orElse fun _ => some l }

/-- Take line `l` of the store into a product: its u line, and the flags of its group (R179, R405). The lines of a shed band that
the Y filter reads come from the store, as far as it still holds them (R58, R180). -/
def State.readProduct (s : State) (n q l : Nat) : State :=
  let s1 := (s.applyLeaves q l).takeHistory n q l
  let x := s1.prod q
  let g := s1.prodGroup q l
  let u (m : Nat) : Nat × List (List Nat) := (m, s1.uLine q fun p j => s1.slotSample n m p j)
  let start := x.first.getD (if s1.wp n ≤ s1.w0 n then l else min l (s1.w0 n))
  let next := max ((x.hist.head?.map (·.1 + 1)).getD start) (l - 31)
  let passed := ((List.range (l - next)).map (next + ·)).filter fun m => decide (m < s1.wp n ∧ s1.wp n ≤ m + s1.capK n)
  s1.setProd q { x with hist := ((u l :: (passed.reverse.map u)) ++ x.hist.filter fun e => e.1 ≠ l).take 32, first := some start,
                        flags := (if x.grp = some g then x.flags else 0) ||| s1.slotFlags n l, grp := some g }

/-- The product's queue has accepted what its line asks: the pointer and the release line advance (R189, R203). -/
def State.advanceProduct (s : State) (n q l : Nat) : State :=
  let x := s.sto n
  let last := s.endsBand n l
  let begun := x.prodBegun.filter (· ≠ q)
  let s1 := s.setSto n { x with
    products := SMap.insert x.products q (if last then max (l + 1) (s.prodFrom n q) else l + 1)
    prodBegun := if last then begun else q :: begun
    shedAhead := if last then SMap.put x.shedAhead 0 q 0 else x.shedAhead }
  (s1.setProd q { s1.prod q with wait := false }).syncStore n

/-- Line `l` is the last of its group (R180, R331). -/
def State.endsGroup (s : State) (n q l : Nat) : Bool :=
  decide (s.prodGroup q (l + 1) ≠ s.prodGroup q l) || decide ((s.station n).fLine = some l)

/-- The lines of the group of `l` from `l` down to the group's or the product's first were all read (R205: a group that
held a line passed over is not emitted). -/
def State.groupWhole (s : State) (n q l : Nat) : Bool :=
  let start := max (s.prodGroup q l <<< s.get R.PCP_DEC_CTRL_DY_LOG q) (s.w0 n)
  (List.range (l + 1 - start)).all fun i => (s.prod q).hist.any (fun e => e.1 = start + i) ||
    decide (start + i < (s.prod q).first.getD 0)

/-- A product takes its next stored line, with no queue between (R21, log 124), and, at the end of a group, writes its frame (R178 to R180,
R189, R209). -/
def State.productStep (s : State) (n q : Nat) (e : HbmErr) : State :=
  let l := SMap.get (s.sto n).products 0 q
  let k := s.prodQueue q
  if s.qState k ≠ 1 ∨ (s.queue k).present ≠ [] then s
  else if (s.prod q).wait then s.advanceProduct n q l
  else if s.wp n ≤ l ∨ (s.lineEndKnown n l = false ∧ s.endsGroup n q l = false) then s
  else
    let s1 := (s.slotError n l e).readProduct n q l
    if s1.endsGroup n q l ∧ s1.prodLen q ≠ 0 ∧ s1.groupWhole n q l then
      let x := s1.prod q
      let taps := s1.firTaps (s1.get R.PCP_DEC_LEAF_LEAF_Y q)
      let cost := if x.lacks l taps then taps * (s1.prodPlanes q).length * s1.prodCols q else 0
      let s2 := s1.presentItem k (s1.frame n q l x.flags)
      let s3 : State := { s2 with fresh := s2.fresh + cost }
      if (s3.queue k).present = [] then s3.advanceProduct n q l
      else s3.setProd q { s3.prod q with wait := true }
    else s1.advanceProduct n q l

end Sys2Proof.Machine
end

