-- ==== Sys2Proof/Machine/RingOps.lean ====
section
/-! DEFINITION. Ring seal tokens (R361 to R365) and the failure of an alignment (R359). -/

namespace Sys2Proof.Machine

/-- A ring audit fails (R365): the bit of KRU_AUD, the event, and every ring station freezes. -/
def State.ringAuditFail (s : State) (bit : Fld) : State :=
  ((s.set bit 1).raise Ev.auditRing).auditFail .ring s.ringStations

/-- Whether a band has been passed in a lap. -/
def passedBy (b : Nat) : Option Nat → Bool
  | some l => decide (b ≤ l)
  | none => false

/-- The ring audit fails in one of several cases at once (R365): each sets its bit. -/
def State.ringAuditFails (s : State) (bits : List Fld) : State :=
  ((s.each bits fun s f => s.set f 1).raise Ev.auditRing).auditFail .ring s.ringStations

/-- The audit of a token received (R365): whether it goes on. Every case that holds sets its bit; a token of a band already passed in
its lap, or with a wrong COUNT, goes no further. -/
def State.auditToken (s : State) (n : Nat) (k : KTok) (countBad : Bool) : Bool × State :=
  let x := s.kst n
  let dup := passedBy k.band (if k.lap then x.last1 else x.last0)
  let bad := (if dup then [R.KRU_AUD_DUP] else []) ++ (if countBad then [R.KRU_AUD_COUNT_ERR] else []) ++
    (if k.bad then [R.KRU_AUD_MISMATCH] else [])
  (!dup && !countBad, if bad = [] then s.auditPass .ring else s.ringAuditFails bad)

/-- Seal the next band of a ring station: with the audit mark when it met R325 in a freeze (R328, R342). -/
def State.sealNext (s : State) (n b : Nat) (t : Int) : State :=
  let x := s.sealOf n
  (s.setSeal n { x with frozenBands := x.frozenBands.filter (· ≠ b) }).sealBand n b t (x.frozenBands.contains b)

/-- Seal in band order the bands whose LAP 1 token has passed, as far as every lower band is sealed and no freeze applies (R330,
R342). -/
def State.sealLate (s : State) (n : Nat) (t : Int) : Nat → State
  | 0 => s
  | fuel + 1 =>
    let b := s.releaseBand n
    let k := s.kst n
    if ¬ s.stBusy n ∨ s.on R.SCU_SEAL_ST_STATUS_FROZEN n = true ∨ k.sealedLate.contains b = false then s
    else State.sealLate ((s.setKst n { k with sealedLate := k.sealedLate.filter (· ≠ b) }).sealNext n b t) n t fuel

/-- The token of a band lets a ring station seal it (R328, R364): in band order, and a frozen station at the THAW. A band sealed before,
or of a station at rest, is left as it is. -/
def State.sealRing (s : State) (n b : Nat) (t : Int) : State :=
  if b < s.releaseBand n ∨ ¬ s.stBusy n then s
  else
    let k := s.kst n
    let s1 := if k.sealedLate.contains b then s else s.setKst n { k with sealedLate := k.sealedLate ++ [b] }
    s1.sealLate n t (k.sealedLate.length + 1)

/-- Band `b` is locally sealed on this member. -/
def State.localSealed (s : State) (n b : Nat) : Bool :=
  (s.sealOf n).localValid && decide (b ≤ s.get R.SCU_SEAL_ST_LOCAL_BAND n)

/-- Pass on the LAP 0 tokens a member holds, in band order, as far as its local seal goes and no freeze applies (R329,
R362, R363). The timing member seals the bands of those it holds and sends them on with LAP = 1 (R364). -/
def State.passHeld (s : State) (n : Nat) (t : Int) : List KTok → State
  | [] => s.setKst n { s.kst n with held := [] }
  | k :: ks =>
    let mine := s.timing
    if s.memberFrozen ∨ (mine = false ∧ s.localSealed n k.band = false) then
      s.setKst n { s.kst n with held := k :: ks }
    else if mine then
      State.passHeld ((s.sealRing n k.band t).sendToken n 1 { k with lap := true }) n t ks
    else
      let s1 := s.setKst n { s.kst n with last0 := some k.band }
      State.passHeld (s1.sendToken n 1 { k with count := k.count + 1, bad := k.bad || k.tdig != s.tdig n k.band }) n t ks

/-- What a local seal or a thaw lets go: tokens held and tokens to issue. -/
def State.moveTokens (s : State) (n : Nat) (t : Int) : State := (s.passHeld n t (s.kst n).held).issueTokens n 16

/-- A token returns to the timing member (R364). -/
def State.tokenHome (s : State) (n : Nat) (k : KTok) (t : Int) : State :=
  let a := s.auditToken n k (!k.lap && decide (k.count ≠ s.ncOf n))
  if a.1 = false then a.2
  else
    let x := a.2.kst n
    if k.lap then
      let s1 := a.2.setKst n { x with last1 := some k.band, flying := x.flying.filter (· ≠ k.band) }
      ((s1.add R.KRU_TOK_RETIRED_COUNT 1).syncFlight).issueTokens n 16
    else if k.bad then a.2.setKst n { x with last0 := some k.band }
    else (a.2.setKst n { x with last0 := some k.band, held := x.held ++ [k] }).moveTokens n t

/-- A token passes a member that did not issue it (R362, R364). -/
def State.tokenPass (s : State) (n src : Nat) (k : KTok) (t : Int) : State :=
  let a := s.auditToken n k false
  if a.1 = false then a.2
  else
    let x := a.2.kst n
    if k.lap then
      (((a.2.setKst n { x with last1 := some k.band }).sealRing n k.band t).sendToken n src k)
    else if a.2.contributes n then (a.2.setKst n { x with held := x.held ++ [k] }).moveTokens n t
    else (a.2.setKst n { x with last0 := some k.band }).sendToken n src k

/-- Reissue after FORMED (R368). -/
def State.reissueTokens (s : State) : State := s.each s.ringStations fun s n => s.issueTokens n 16

/-- The arm of a ring station fails (R359): its status is reported and the station returns to IDLE. -/
def State.alignFail (s : State) (n : Nat) (c : Nat) : State :=
  if s.stState n = St.armed then
    ((s.set R.KRU_ST_STATUS_ALIGN 4 n).set R.KRU_ST_STATUS_LAST_STATUS c n).idleEntry n
  else s.setKst n { s.kst n with ta := none }

end Sys2Proof.Machine
end

