-- ==== Sys2Proof/Machine/VcoreOps.lean ====
section
/-! DEFINITION. The VCORE read-back and what waits for it (R52, R55, R56), the staging of an LTU change (R131, R532), and pace
windows (R40, R41). -/

namespace Sys2Proof.Machine

/-! ### Staging an LTU change (R532) -/

/-- A hinge line that may be named: a band start whose line is not committed (R532). -/
def State.hingeOk (s : State) (n h : Nat) : Bool := isBandStart h (s.bandExp n) && decide (s.firstFree n ≤ h)

/-- Stage a change at `h`, or at the first band start not yet committed for 0; HINGE goes out on a ring (R363). -/
def State.stageChange (s : State) (n h mask : Nat) (vals : List Nat) : State × Nat :=
  let hh := if h = 0 then nextBandStart (s.firstFree n) (s.bandExp n) else h
  let g : Staged := { h := hh, mask := mask, vals := vals }
  let s1 := (s.setStation n { s.station n with staged := some g }).set R.SMC_ST_STATE_STAGED 1 n
  (s1.sendHinge n hh (g.apply (s1.ltuVals n)), hh)

/-- The result of ST_STAGE: bytes 24 to 31. -/
def hingeResult (h : Nat) : List Nat := leBytes 8 0 ++ leBytes 8 h

/-- Fitting lowers the set point again only after line `h` of the station has passed (R55). -/
def State.addHinge (s : State) (n h : Nat) : State :=
  { s with pace := { s.pace with hinges := SMap.insert s.pace.hinges n h } }

/-- The ST_STAGE that waits on ring `r` completes (R55, R532). -/
def State.finishStage (s : State) (r : Nat) : State :=
  match (s.ring r).run with
  | some x =>
    match x.data with
    | n :: h :: mask :: vals =>
      if h ≠ 0 ∧ s.hingeOk n h = false then
        s.endRun r .range (leBytes 4 (RegId.addr .LTU_ST_MAXRATE n) ++ leBytes 4 0)
      else if ¬ s.stBusy n ∨ s.stState n = St.draining then s.endRun r .state (leBytes 4 (RegId.addr .SMC_ST_STATE n) ++ leBytes 4 0)
      else
        let a := s.stageChange n h mask vals
        (a.1.addHinge n a.2).endRun r .ok (hingeResult a.2)
    | _ => s
  | none => s

/-! ### Waits (R55, R551) -/

/-- A partial image that waits is staged (R319). -/
def State.finishImage (s : State) : State :=
  match s.scu.waiting with
  | some m =>
    let s1 := s.stageReload m
    if s.stBusy m.station ∧ s1.scu.staged = some m then s1.addHinge m.station s1.scu.hinge else s1
  | none => s

/-- Boot stage 4h: HBM training and the Workbench read begin (R550). -/
def State.bootStage4 (s : State) : State :=
  let s1 : State := { s with smc := { s.smc with hbmRun := true, wbRun := true } }
  s1.set R.SMC_BOOT_STATUS_STEP 4

/-- The read-back has reached VMAX: every wait completes. -/
def State.completeWaits (s : State) : State :=
  let ws := s.pace.waits
  let s1 : State := { s with pace := { s.pace with waits := [] } }
  s1.each ws fun s w =>
    match w with
    | .boot => s.bootStage4
    | .stage r => s.finishStage r
    | .image => s.finishImage

/-- The waits of R55 end with TIMEOUT: nothing is staged, FAIL is set and EN clears. -/
def State.failWaits (s : State) : State :=
  let ws := s.pace.waits.filter (· ≠ .boot)
  let s1 : State := { s with pace := { s.pace with waits := s.pace.waits.filter (· = .boot), discard := false, holdLeft := 0 } }
  let s2 := s1.each ws fun s w =>
    match w with
    | .boot => s
    | .stage r => s.endRun r .timeout noDetail
    | .image => ({ s with scu := { s.scu with waiting := none } } : State).imageRefused { stage := 9, status := .timeout, off := 0 }
  ((s2.set R.SMC_VFIT_STATUS_FAIL 1).set R.SMC_VFIT_CTRL_EN 0).set R.SMC_VFIT_STATUS_STATE 0

/-- The boot wait fails (R551): VCORE_FAIL, and VSET is the last READ_VOUT rounded down to 5 mV, or 650 mV. -/
def State.bootVcoreFail (s : State) : State :=
  let v := s.get R.SMC_PMB_STATUS_VREAD
  let s1 : State := { s with pace := { s.pace with waits := s.pace.waits.filter (· ≠ .boot) } }
  ((s1.set R.SMC_BOOT_STATUS_VCORE_FAIL 1).set R.SMC_VFIT_STATUS_VSET (if v = 0 then 650 else v / 5 * 5)).bootStage4

/-- Write VMAX and wait for the read-back (R55). -/
def State.raiseVmax (s : State) (w : VWait) : State :=
  let s1 := s.writeVset (s.get R.SMC_VFIT_LIMITS_VMAX)
  { s1 with pace := { s1.pace with waits := s1.pace.waits ++ [w] } }

/-! ### Pace windows (R38 to R41) -/

/-- A 48-bit counter's advance over the window. -/
def advance48 (now old : Nat) : Nat := (now + 2 ^ 48 - old) % 2 ^ 48

/-- The pace domains (R33). -/
def domains : List Nat := List.range 17

def State.winHs (s : State) (d : Nat) : Nat := advance48 (s.get R.SCU_PACE_HS d) (SMap.get s.pace.hs0 0 d)
def State.winBusy (s : State) (d : Nat) : Nat := advance48 (s.get R.SCU_PACE_BUSY d) (SMap.get s.pace.busy0 0 d)

/-- Start a pace window: the counters as they stand. -/
def State.startWindow (s : State) : State :=
  let snap (f : Fld) : SMap Nat := domains.foldl (fun m d => SMap.put m 0 d (s.get f d)) []
  { s with pace := { s.pace with hs0 := snap R.SCU_PACE_HS, busy0 := snap R.SCU_PACE_BUSY } }

/-- The available time of a domain in ticks of 4 ns (R40). -/
def State.available (s : State) (d : Nat) : Nat :=
  let running := (s.boundEngines.filter fun e => e / 32 = d ∧ s.engState e = Eng.running).length
  250 * 2 ^ s.get R.SCU_PACE_CTRL_WINDOW * (if d = 16 then 1 else max 1 running)

/-- RATE and VALID of a domain (R40). -/
def State.writeRate (s : State) (d : Nat) : State :=
  let b := s.winBusy d
  if b = 0 ∨ 100 * b < s.available d then s.set R.SCU_PACE_RATE_VALID 0 d
  else (s.setSat R.SCU_PACE_RATE_RATE (roundDiv ((if d = 16 then 25 else 250) * s.winHs d) b) d).set R.SCU_PACE_RATE_VALID 1 d

/-- The valid measured pace of a domain lies below `pct` percent of its admitted load. -/
def State.below (s : State) (d pct : Nat) : Bool :=
  s.on R.SCU_PACE_RATE_VALID d && decide (s.winHs d * 250000000 * 100 < pct * s.admitted d * s.winBusy d)

/-- The valid measured pace of a domain is at least `pct` percent of its admitted load. -/
def State.atLeast (s : State) (d pct : Nat) : Bool :=
  s.on R.SCU_PACE_RATE_VALID d && decide (pct * s.admitted d * s.winBusy d ≤ s.winHs d * 250000000 * 100)

/-- Deficits of the window and their events (R41). -/
def State.findDeficits (s : State) : State :=
  let ds := domains.filter fun d => s.below d 100
  let s1 : State := { s with pace := { s.pace with deficit := ds } }
  s1.each ds fun s d => s.raise (Ev.paceDeficit d)

/-- The deficit cap of every running sheet-class station (R194, R195). -/
def State.moveCaps (s : State) (t : Int) : State :=
  let low := decide (s.pace.deficit ≠ [])
  s.each (stations8.filter fun n => s.isSheet n && s.stBusy n) fun s n =>
    let c := s.get R.SST_ST_SCALE_CAP n
    ((s.set R.SST_ST_SCALE_CAP (if low then c - 1 else min 16 (c + 1)) n).syncStore n).checkStop n t

/-- A sheet-class station's transport still runs (R31, R204): in SCANNING or step 5 of a restart, and while a paced axis of a
station in ARMED, or in DRAINING entered from SCANNING, still moves (R193, log 114). -/
def State.sheetRuns (s : State) (n : Nat) : Bool :=
  let st := s.stState n
  let moves := s.paced n && !s.axStandstill (s.paceAxis n)
  s.isSheet n && (decide (st = St.scanning) ||
    (decide (st = St.rewinding) && decide (s.get R.SST_ST_REW_STATUS_PHASE n = 4)) ||
    ((decide (st = St.armed) || (decide (st = St.draining) && (s.station n).fromScan)) && moves)) && !(s.sto n).stopped

/-- Web-class stations shed while the deficit stands and every sheet transport has stopped (R31, R204). -/
def State.shedWeb (s : State) : State :=
  if s.pace.deficit ≠ [] ∧ (stations8.any s.sheetRuns) = false then
    s.each (stations8.filter fun n => !s.isSheet n && s.stBusy n) fun s n => s.shedTurn n
  else s

/-! ### Voltage fitting (R52 to R56) -/

/-- Hinge lines that have passed no longer hold fitting back (R55). -/
def State.passHinges (s : State) : State :=
  let hs := s.pace.hinges.filter fun e => s.stBusy e.1 ∧ (s.lst e.1).next ≤ e.2
  { s with pace := { s.pace with hinges := hs } }

/-- A lowering or margin step: the set point, and the window discarded until the read-back follows (R56). -/
def State.stepVset (s : State) (mv state : Nat) : State :=
  let s1 := (s.writeVset mv).set R.SMC_VFIT_STATUS_STATE state
  { s1 with pace := { s1.pace with discard := true } }

/-- The lowering conditions of R53, at set point `mv`. -/
def State.mayLower (s : State) (mv : Nat) : Bool :=
  decide (s.get R.SMC_VFIT_LIMITS_VMIN ≤ mv) && decide (s.pace.holdLeft = 0) && decide (s.throttle = 0) &&
    s.pace.hinges.isEmpty && s.pace.waits.isEmpty &&
    (domains.all fun d => decide (s.admitted d = 0) || s.atLeast d (103 + s.get R.SMC_VFIT_CTRL_MARGIN)) &&
    (s.judgeLoad s.counted s.lineRate s.engLoads (mv - s.get R.SMC_VFIT_CTRL_GUARD) 0).ok

/-- Voltage fitting at the end of a pace window (R53, R54). A raise ends at VMAX (R52, log 129). -/
def State.fitVoltage (s : State) : State :=
  if ¬ s.on R.SMC_VFIT_CTRL_EN then s
  else if s.throttle ≠ 0 then s.set R.SMC_VFIT_STATUS_STATE 4
  else
    let v := s.get R.SMC_VFIT_STATUS_VSET
    let step := 5 * s.get R.SMC_VFIT_CTRL_STEP
    let vmax := s.get R.SMC_VFIT_LIMITS_VMAX
    let low := domains.any fun d => decide (s.admitted d ≠ 0) && s.below d (100 + s.get R.SMC_VFIT_CTRL_MARGIN)
    if low ∧ v < vmax then
      let s1 := s.stepVset (min vmax (v + step)) 3
      { s1 with pace := { s1.pace with holdLeft := 2 ^ s1.get R.SMC_VFIT_CTRL_HOLD + 1 } }
    else if step ≤ v ∧ s.mayLower (v - step) = true then s.stepVset (v - step) 2
    else s.set R.SMC_VFIT_STATUS_STATE (if s.pace.holdLeft = 0 then 1 else 3)

/-- One window less of a hold period; its end is a command of its own. -/
def State.countHold (s : State) : State :=
  { s with pace := { s.pace with holdLeft := if s.pace.holdLeft ≤ 1 then s.pace.holdLeft else s.pace.holdLeft - 1 } }

end Sys2Proof.Machine
end

