-- ==== Sys2Proof/Machine/ArmOps.lean ====
section
/-! DEFINITION. The arm of a station (R528): its checks in the order of R540, each naming the register whose check failed,
and what an accepted arm does. -/

namespace Sys2Proof.Machine

/-! ### The queues of an arm (R210, R231, R310, R578) -/

/-- A queue serves a structure in force (R211). -/
def State.queueMapped (s : State) (q : Nat) : Bool := s.image.qmap.any fun m => m.queue = q

/-- Configure a queue for the station and enable it; with the first queue that R231 refuses. -/
def State.armQueue (a : Option Nat × State) (n q : Nat) (fixed : Bool) : Option Nat × State :=
  match a with
  | (some b, s) => (some b, s)
  | (none, s) =>
    if s.on R.QMX_Q_CFG_EN q then (none, s.set R.QMX_Q_CFG_STATION n q)
    else
      let s1 := if fixed then s.configFixed q n else s.set R.QMX_Q_CFG_STATION n q
      if (s1.enableCheck q).isSome then (some q, s) else (none, s1.enableQueue q)

/-- Enable every queue of a station: fixed, product, mapped. -/
def State.armQueues (s : State) (n : Nat) : Option Nat × State :=
  let a := (s.fixedQueues n).foldl (fun a q => State.armQueue a n q true) (none, s)
  ((s.productQueues n) ++ (s.mappedQueues n)).foldl (fun a q => State.armQueue a n q false) a

/-! ### Checks in the order of R540 -/

/-- LENGTH: a product window reaches past the station line (R178, R539). -/
def State.armLength (s : State) (n w : Nat) : List (Option (Status × Nat)) :=
  (s.productsOf n).map fun q =>
    checkAt (decide (s.get R.PCP_DEC_LEN_LEN q ≠ 0 ∧ w < s.get R.PCP_DEC_WIN_FIRST q + s.get R.PCP_DEC_LEN_LEN q)) .length (atReg .PCP_DEC_LEN q)

/-- The world an endpoint of a mapped queue acts in (R213, R244); delivery by the Host Interface takes either. -/
def State.endWorld (s : State) (q : Nat) : Endpoint → World
  | .engine e _ => s.engineWorld e
  | .store n => s.stationWorld n
  | _ => s.queueWorld q

/-- WORLD: R141, R184, R213, R498. -/
def State.armWorld (s : State) (n : Nat) : List (Option (Status × Nat)) :=
  let w := s.stationWorld n
  let base := s.get R.SST_ST_REGION_BASE_PAGE n / 32
  let shelves := (List.range (s.get R.SST_ST_REGION_SIZE_SHELVES n)).filter fun i => base + i < 32768
  ((s.station n).heads.map fun p => checkAt (decide (s.portWorld p ≠ w)) .world (atReg .SMC_WMAP_PORT (p / 32))) ++
  ((s.station n).heads.map fun p =>
    let bad (l : Nat) : Bool := decide (l ≠ noSlot) && !s.pagesIn l (s.portWorld p)
    checkAt (bad (s.get R.PCP_SHD_HEAD_LEAF_ACTIVE p) || bad (s.get R.PCP_SHD_HEAD_LEAF_PENDING p)) .world
      (atReg .PCP_SHD_HEAD_LEAF p)) ++
  [checkAt (shelves.any fun i => decide (s.shelfWorld (base + i) ≠ w)) .world (atReg .SST_ST_REGION_BASE n)] ++
  ((s.productsOf n).map fun q => checkAt (decide (s.queueWorld (s.prodQueue q) ≠ w)) .world (atReg .PCP_DEC_QUEUE q)) ++
  ((s.image.qmap.filter fun m => s.get R.QMX_Q_CFG_STATION m.queue = n).map fun m =>
    let qw := s.queueWorld m.queue
    checkAt (decide (s.endWorld m.queue m.writer ≠ qw) || decide (s.endWorld m.queue m.reader ≠ qw)) .world
      (atReg .QMX_Q_CFG m.queue))

/-- STATE: R358 and R555; the station is in IDLE (R526). -/
def State.armState (s : State) (n : Nat) : List (Option (Status × Nat)) :=
  [checkAt (s.stBusy n) .state (atReg .SMC_ST_STATE n),
   checkAt (!s.on R.LTU_REF_STATUS_LOCK) .state (atReg .LTU_REF_STATUS),
   checkAt (s.ringStation n && !s.formed && !(s.timing && decide (s.ringState = Ring.reform))) .state (atReg .KRU_STATUS)]

/-- An entry of the MFE writes records to a queue (R211, R456). -/
def State.mfeWrites (s : State) (q : Nat) : Bool :=
  (List.range 64).any fun e => s.on R.MFE_ENT_REC_EN e && decide (s.get R.MFE_ENT_REC_QUEUE e = q)

/-- An enabled product other than `r` writes to a queue (R211, R578). -/
def State.productWrites (s : State) (q r : Nat) : Bool :=
  (List.range 32).any fun p => decide (p ≠ r) && s.on R.PCP_DEC_CTRL_EN p && decide (s.prodQueue p = q)

/-- BUSY: R184, R210, R211, R578. -/
def State.armBusy (s : State) (n : Nat) : List (Option (Status × Nat)) :=
  let base (m : Nat) : Nat := s.get R.SST_ST_REGION_BASE_PAGE m
  let size (m : Nat) : Nat := 32 * s.get R.SST_ST_REGION_SIZE_SHELVES m
  [checkAt (stations8.any fun m => decide (m ≠ n) && s.stBusy m && runsMeet (base n) (size n) (base m) (size m)) .busy
    (atReg .SST_ST_REGION_BASE n)] ++
  ((s.stationQueues n).map fun q => checkAt (s.holdsWords q) .busy (atReg .QMX_Q_CFG q)) ++
  ((s.productsOf n).map fun q =>
    checkAt (s.queueMapped (s.prodQueue q) || s.mfeWrites (s.prodQueue q) || s.productWrites (s.prodQueue q) q) .busy
      (atReg .PCP_DEC_QUEUE q)) ++
  ((s.mappedQueues n).map fun q => checkAt (s.mfeWrites q || s.productWrites q 32) .busy (atReg .QMX_Q_CFG q))

/-- RANGE of the line timing (R117, R125, R418 and the ranges of LTU_ST_RATIO and LTU_ST_MAXRATE). -/
def State.armTiming (s : State) (n : Nat) : List (Option (Status × Nat)) :=
  let v := s.ltuVals n
  let rate := v.getD 6 0
  [checkAt (decide (s.get R.LTU_ST_RATIO_D n = 0)) .range (atReg .LTU_ST_RATIO n),
   checkAt (decide (rate = 0 ∨ 400000 < rate)) .range (atReg .LTU_ST_MAXRATE n),
   checkAt (decide (s.get R.LTU_ST_START_MODE n ≠ 0) && !s.encSource n) .range (atReg .LTU_ST_START n),
   checkAt (s.exposureBad n v) .range (atReg .LTU_ST_EXP_LEN n),
   checkAt (s.timerBad n rate) .range (atReg .LTU_ST_TIMER n),
   checkAt (s.onDelayBad n (v.getD 3 0)) .range (atReg .LTU_ST_GUARD n)]

/-- RANGE of one head (R169, R527): `V` columns of dovetail with a neighbour to the left and to the right. -/
def State.armHead (s : State) (p v planes : Nat) (left right : Bool) : List (Option (Status × Nat)) :=
  let first := s.rangeFirst p
  let w := s.rangeWidth p
  let dark := runsMeet first w (s.get R.PCP_SHD_TRK_DARK_FIRST p) (s.get R.PCP_SHD_TRK_DARK_COUNT p)
  let white := runsMeet first w (s.get R.PCP_SHD_TRK_WHITE_FIRST p) (s.get R.PCP_SHD_TRK_WHITE_COUNT p)
  [checkAt (decide (s.get R.HLF_PORT_STATE_PRIMARY p ≠ p)) .range (atReg .HLF_PORT_STATE p),
   checkAt (decide (s.headPlanes p ≠ planes)) .range (atReg .HLF_PORT_GEOM p),
   checkAt (decide (s.headCols p = 0 ∨ 262144 < s.headCols p)) .range (atReg .HLF_PORT_GEOM p),
   checkAt dark .range (atReg .PCP_SHD_TRK_DARK p),
   checkAt white .range (atReg .PCP_SHD_TRK_WHITE p),
   checkAt (decide (w = 0 ∨ w < v * (b2n left + b2n right))) .range (atReg .PCP_STC_XOFF p),
   checkAt (decide (s.headCols p < first + w)) .range (atReg .PCP_STC_RANGE p)]

/-- RANGE of the heads and the stitched line (R23, R165, R169, R172). -/
def State.armHeads (s : State) (n w : Nat) : List (Option (Status × Nat)) :=
  let hs := s.orderedHeads n
  let k := hs.length
  let planes := s.stPlanes n
  let samples := hs.foldl (fun a p => a + s.headCols p * s.headPlanes p) 0
  let ordered := hs.mapIdx fun i p => checkAt (decide (s.get R.PCP_STC_RANGE_POS p ≠ i)) .range (atReg .PCP_STC_RANGE p)
  let each := (hs.mapIdx fun i p => s.armHead p (s.dvtV n) planes
    (decide (i ≠ 0) || s.on R.PCP_STC_ST_CTRL_SEND_LEFT n) (decide (i + 1 ≠ k) || s.on R.PCP_STC_ST_CTRL_RECV_RIGHT n)).flatten
  ordered ++ each ++
  [checkAt (decide (1572864 < samples) || (decide (samples = 0) && !s.ringStation n)) .range (atReg .SMC_ST_STATE n),
   checkAt (decide (262144 < s.alignUsed + s.alignUnits n)) .range (atReg .PCP_ALN_STORE),
   checkAt (decide (1572864 < w * planes)) .range (atReg .PCP_STC_ST_CTRL n)]

/-- RANGE of the store region and, for sheet class, its thresholds (R184, R185, R195). -/
def State.armStore (s : State) (n k : Nat) : List (Option (Status × Nat)) :=
  let page := s.get R.SST_ST_REGION_BASE_PAGE n
  let shelves := s.get R.SST_ST_REGION_SIZE_SHELVES n
  let stop := s.get R.SST_ST_THR_STOP_LINES n
  [checkAt (decide (page % 32 ≠ 0)) .range (atReg .SST_ST_REGION_BASE n),
   checkAt (decide (shelves = 0 ∨ 32768 * s.get R.SST_CFG_STORE < page + 32 * shelves)) .range (atReg .SST_ST_REGION_SIZE n),
   checkAt (decide (k < 4 * 2 ^ s.bandExp n)) .range (atReg .SST_ST_REGION_SIZE n),
   checkAt (s.isSheet n && decide (stop ≤ s.get R.SST_ST_THR_LO_LINES n)) .range (atReg .SST_ST_THR_LO n),
   checkAt (s.isSheet n && decide (stop ≤ s.get R.SST_ST_THR_RESUME_LINES n)) .range (atReg .SST_ST_THR_RESUME n),
   checkAt (s.isSheet n && decide (k < stop + 256)) .range (atReg .SST_ST_THR_STOP n)]

/-- RANGE of the products (R178, R181, R578). -/
def State.armProducts (s : State) (n : Nat) : List (Option (Status × Nat)) :=
  (s.productsOf n).flatMap fun q =>
    let z := s.prodQueue q
    [checkAt (decide (s.bandExp n < s.get R.PCP_DEC_CTRL_DY_LOG q)) .range (atReg .PCP_DEC_CTRL q),
     checkAt (!s.firOk (s.get R.PCP_DEC_LEAF_LEAF_X q) || !s.firOk (s.get R.PCP_DEC_LEAF_LEAF_Y q)) .range (atReg .PCP_DEC_LEAF q),
     checkAt (decide (s.qClass z = 3)) .range (atReg .QMX_Q_CFG z),
     checkAt (decide (z < 256) || (s.on R.QMX_Q_CFG_EN z && decide (s.get R.QMX_Q_CFG_STATION z ≠ n))) .range
       (atReg .PCP_DEC_QUEUE q)]

/-- A clocked endpoint of a mapped queue: a reader or writer outside the clockless core (R212). -/
def Endpoint.clocked : Endpoint → Bool
  | .engine _ _ => false
  | _ => true

/-- RANGE of the mapped queues: a LOCAL queue has both endpoints in the clockless core (R212). -/
def State.armClasses (s : State) (n : Nat) : List (Option (Status × Nat)) :=
  (s.image.qmap.filter fun m => s.get R.QMX_Q_CFG_STATION m.queue = n).map fun m =>
    checkAt (decide (s.qClass m.queue = 3) && (m.writer.clocked || m.reader.clocked)) .range (atReg .QMX_Q_CFG m.queue)

/-- RANGE of the store windows of the queue map (R311). -/
def State.armWindows (s : State) (n w : Nat) : List (Option (Status × Nat)) :=
  (s.image.qmap.filter fun m => m.writer = .store n).map fun m =>
    checkAt (decide (w < m.first + m.width)) .range (atReg .PCP_STC_ST_WIDTH n)

/-- RANGE of pacing (R470). -/
def State.armPacing (s : State) (n : Nat) : List (Option (Status × Nat)) :=
  let a := s.paceAxis n
  let en := s.on R.SST_ST_PACE_EN n
  let vs := s.get R.TTC_AX_VSCAN_VSCAN a
  [checkAt (en && !s.isSheet n) .range (atReg .SST_ST_PACE n),
   checkAt (en && decide (s.get R.TTC_AX_AMAX_AMAX a = 0)) .range (atReg .TTC_AX_AMAX a),
   checkAt (en && decide (s.get R.TTC_AX_JMAX_JMAX a = 0)) .range (atReg .TTC_AX_JMAX a),
   checkAt (en && decide (s.axState a ≠ Ax.still)) .range (atReg .TTC_AX_STATUS a),
   checkAt (en && (!s.on R.TTC_AX_CTRL_ENC_EN a || decide (s.get R.TTC_AX_CTRL_ENC a ≠ s.encOf n))) .range (atReg .TTC_AX_CTRL a),
   checkAt (en && decide (vs = 0 ∨ s.get R.TTC_AX_VMAX_VMAX a < vs)) .range (atReg .TTC_AX_VSCAN a)]

/-- RANGE of a ring station (R358, R369): `west` says that the West neighbour has RECV_RIGHT = 1 for it. -/
def State.armRing (s : State) (n : Nat) (west : Bool) : List (Option (Status × Nat)) :=
  let on := s.ringStation n
  [checkAt (on && (s.isSheet n || !s.encSource n)) .range (atReg .KRU_ST_CTRL n),
   checkAt (on && decide (s.ringMax n < s.kru.members)) .range (atReg .KRU_ST_STATUS n),
   checkAt (on && s.on R.PCP_STC_ST_CTRL_SEND_LEFT n && !west) .range (atReg .PCP_STC_ST_CTRL n)]

/-- ABSENT: a head that is not ACTIVE (R95). -/
def State.armAbsent (s : State) (n : Nat) : List (Option (Status × Nat)) :=
  (s.station n).heads.map fun p => checkAt (!s.portActive p) .absent (atReg .HLF_PORT_STATE p)

/-- Every arm check but the link fit and admission (R528). -/
def State.armCheck (s : State) (n : Nat) (west : Bool) : Option (Status × Nat) :=
  let w := s.localWidth n (s.station n).heads
  let k := slotCount (s.get R.SST_ST_REGION_SIZE_SHELVES n) (slotBytes w (s.stPlanes n))
  let queues := checkAt (s.armQueues n).1.isSome .range (atReg .QMX_Q_CFG ((s.armQueues n).1.getD 0))
  pickCheck (s.armLength n w ++ s.armWorld n ++ s.armState n ++ s.armBusy n ++ s.armTiming n ++ s.armHeads n w ++ s.armStore n k ++
    s.armProducts n ++ s.armClasses n ++ s.armWindows n w ++ s.armPacing n ++ s.armRing n west ++ [queues] ++ s.armAbsent n)

/-- The first head whose negotiated mode fails the link fit (R26). -/
def State.armLink (s : State) (n : Nat) : Option Nat :=
  (s.station n).heads.find? fun p => !s.linkFits p (s.get R.LTU_ST_MAXRATE_RATE n)

/-! ### An accepted arm -/

/-- The line timing starts afresh at W_0 (R116, R117). -/
def State.armLtu (s : State) (n : Nat) : State :=
  let w := s.w0 n
  ((s.set R.LTU_ST_WPI w n).set R.LTU_ST_STATUS_MATCH_ARMED 0 n).setLst n { next := w, committed := (s.lst n).committed }

/-- The heads hand on lines from W_0 (R69 to R72), and the pipeline holds no line of an earlier run; drift states stay
(R156), and a leaf requested in IDLE keeps its hinge and fade (R153, R154). -/
def State.armHeadsRun (s : State) (n : Nat) : State :=
  let s1 := s.restartHeads n (s.w0 n) true
  s1.each (s1.station n).heads fun s p => s.setPhead p { drift := (s.phead p).drift, pendH := (s.phead p).pendH, pendLog := (s.phead p).pendLog }

/-- Width, span, slots and the alignment store (R163, R165, R172, R185). -/
def State.armGeometry (s : State) (n : Nat) : State :=
  let hs := (s.station n).heads
  let w := s.localWidth n hs
  let z := slotBytes w (s.stPlanes n)
  ((((s.set R.PCP_STC_ST_WIDTH_W w n).set R.PCP_ALN_ST_SPAN_SPAN (s.alignSpan hs) n).set R.SST_ST_GEOM_SLOT (z / 64) n).set
    R.SST_ST_CAP_K (slotCount (s.get R.SST_ST_REGION_SIZE_SHELVES n) z) n).set R.PCP_ALN_STORE_USED (s.alignUsed + s.alignUnits n)

/-- The store starts at W_0: pointers of the queue and product readers and of the host, the deficit cap 1 (R189, R194). -/
def State.armSst (s : State) (n : Nat) : State :=
  let w := s.w0 n
  let qs := (s.image.qmap.filter fun m => m.writer = .store n).map (·.queue)
  let x : Store := {
    queues := qs.foldl (fun m q => SMap.insert m q w) [],
    products := (s.productsOf n).foldl (fun m q => SMap.insert m q w) [],
    marks := (s.sto n).marks, planes := s.stPlanes n }
  let s1 := ((((s.setSto n x).set R.SST_ST_WP w n).set R.SST_ST_HOST_RP w n).set R.SST_ST_SCALE_CAP 16 n).set
    R.SST_ST_REW_STATUS_PHASE 0 n
  (s1.setPst n {}).each (s1.productsOf n) fun s q => s.setProd q {}

/-- Horizon, latency, counts and snapshot begin again (R330, R335, R530); a freeze stands until a THAW (R342). -/
def State.armSeal (s : State) (n : Nat) : State :=
  let fs := [R.SCU_SEAL_ST_STATUS_VALID, R.SCU_SEAL_ST_HZN_BAND, R.SCU_SEAL_ST_LOCAL_BAND, R.SCU_SEAL_ST_LAT_NS,
    R.SCU_SEAL_ST_COUNT_COUNT, R.SCU_SEAL_ST_SNAP_BAND_BAND]
  let s1 := (s.setSeal n {}).each fs fun s f => s.set f 0 n
  s1.each (List.range 15) fun s i => s.set R.SCU_SEAL_ST_SNAP_COUNT 0 n i

/-- The delivery streams of the station start at its first band again (R406). -/
def State.armStreams (s : State) (n : Nat) : State :=
  s.each (List.range 64) fun s c =>
    if s.get R.HIF_ST_CTRL_STATION c = n then s.setStream c { s.stream c with next := none, begun := false } else s

/-- A ring station starts its alignment on the timing member and waits for it on any other (R358, R359). -/
def State.armKru (s : State) (n : Nat) (t : Int) : State :=
  if s.ringStation n then
    let s1 := ((s.setKst n {}).set R.KRU_ST_STATUS_NMAX (s.ringMax n) n).set R.KRU_ST_STATUS_ALIGN 0 n
    if s1.timing then s1.startAlign n t else s1
  else s

/-- What an accepted arm does (R528): the queues are enabled, every block starts the run at W_0, the engines run and the
station enters ARMED. -/
def State.armed (s : State) (n : Nat) (t : Int) : State :=
  let s1 := (((((s.armQueues n).2.armGeometry n).armLtu n).armHeadsRun n).armSst n).armSeal n
  let y := s1.station n
  let s2 := (s1.setStation n { y with final := none, fLine := none, fromScan := false, staged := none, axisDown := false }).armBanks n (s1.w0 n)
  let s3 := (s2.syncLead n).enterSt n St.armed
  let s4 := s3.each (s3.enginesOf n) State.armEngine
  (((s4.armStreams n).syncStore n).armKru n t).syncHeld n

/-- DETAIL of a NOFIT (R521). -/
def State.nofitDetail (s : State) : Nat :=
  s.get R.SCU_ADM_STATUS_FAIL_DOMAIN + 65536 * s.get R.SCU_ADM_STATUS_FAIL_ENGINE

/-- A refused arm or alignment of a ring station shows in KRU_ST_STATUS. -/
def State.noteArm (s : State) (n : Nat) (c : Status) : State :=
  if s.ringStation n then s.set R.KRU_ST_STATUS_LAST_STATUS c.code n else s

/-- ST_ARM at instant `t` (R528), the throttle level having become `t2` in the admission check. A link that does not fit leaves
SCU_ADM_STATUS.RESULT (R49, log 128), and no VMAX is written here (R55, log 129). -/
def State.arm (s : State) (n : Nat) (t : Int) (t2 : Option Nat) (west : Bool) : CmdEnd :=
  match s.armCheck n west with
  | some (c, a) => .reported (s.noteArm n c) c a 0
  | none =>
    match s.armLink n with
    | some p => .reported ((s.add R.SCU_ADM_COUNT_NOFIT 1).noteArm n .nofit) .nofit (atReg .HLF_PORT_MODE p) s.nofitDetail
    | none =>
      let a := s.admission (fun m => s.counted m || decide (m = n)) s.lineRate s.engLoads t2
      if a.1 = false then .reported (a.2.noteArm n .nofit) .nofit noAddr a.2.nofitDetail
      else .ok (a.2.armed n t) (leBytes 8 0 ++ leBytes 8 (s.w0 n))

end Sys2Proof.Machine
end

