-- ==== Sys2Proof/Machine/HifOps.lean ====
section
/-! DEFINITION. The host interface (spec/14, spec/15): delivery streams, chunks and the order of release, DMA rings, Ethernet
ports and datagrams, the PTP slave, and message-signalled interrupts. -/

open Sys2Proof

namespace Sys2Proof.Machine

/-- The queue number of a snapshot record in a chunk word (R378). -/
def snapQueue : Nat := 0x3FFFF

/-! ### Streams (R375, R376, R383) -/

def State.stOn (s : State) (c : Nat) : Bool := s.on R.HIF_ST_CTRL_EN c
def State.isDma (s : State) (c : Nat) : Bool := !s.on R.HIF_ST_CTRL_KIND c
def State.ringSize (s : State) (c : Nat) : Nat := 2 ^ s.get R.HIF_ST_CTRL_RING_LOG c

/-- A port may send (R387). -/
def State.txOk (s : State) (pn : Nat) : Bool :=
  s.on R.HIF_ETH_CTRL_EN pn && s.on R.HIF_ETH_STATUS_LINK pn && !s.on R.HIF_ETH_STATUS_PAUSED pn

/-- The stream has what it needs to write: a descriptor, or a port that may send. -/
def State.streamReady (s : State) (c : Nat) : Bool :=
  if s.isDma c then (s.stream c).desc.isSome || decide (s.get R.HIF_ST_HEAD_HEAD c ≠ s.get R.HIF_ST_TAIL_TAIL c)
  else s.txOk (s.get R.HIF_ST_CTRL_PORT c)

/-- A faulted stream (R382). -/
def State.stFault (s : State) (c : Nat) : Bool := decide (s.get R.HIF_ST_STATUS_STATE c = 3)

/-- A stream that runs. -/
def State.stLive (s : State) (c : Nat) : Bool := s.on R.HIF_CTRL_EN && s.stOn c && !s.stFault c

/-- HIF_ST_STATUS.STATE follows the stream. -/
def State.syncStream (s : State) (c : Nat) : State :=
  if s.stFault c ∧ s.stOn c = true then s
  else s.set R.HIF_ST_STATUS_STATE (if s.stLive c = false ∧ s.stFault c = false ∨ s.stOn c = false then 0 else if s.streamReady c then 1 else 2) c

/-- A refused write of a register of stream `c` at address `a`, made in state `was`, also shows in the stream's own LAST_STATUS. -/
def State.streamRefused (s was : State) (w : World) (a c : Nat) (check : Option Status) : State :=
  match check with
  | none => s
  | some st =>
    if was.held ∨ was.bootHeld a ∨ (w ≠ .secure ∧ was.addrWorld a = .secure) then s else s.set R.HIF_ST_STATUS_LAST_STATUS st.code c

/-- A host write to a stream's register; a refusal shows in the stream's LAST_STATUS and in that of the block. -/
def State.streamWrite (s : State) (w : World) (id : RegId) (c v : Nat) (check : Option Status) (act : State → State) : State :=
  (s.rowWrite w id c 0 v check (some R.HIF_STATUS_LAST_STATUS) 0 act).streamRefused s w (id.addr c 0) c check

/-- The refusal of EN = 1 with the word `v` (R375, R383, R390). -/
def State.streamCheck (s : State) (c v : Nat) : Option Status :=
  let fs := [R.HIF_ST_CTRL_KIND, R.HIF_ST_CTRL_STATION, R.HIF_ST_CTRL_GAPS, R.HIF_ST_CTRL_SNAP, R.HIF_ST_CTRL_PORT,
    R.HIF_ST_CTRL_CHUNK, R.HIF_ST_CTRL_RING_LOG]
  if s.stOn c then refuseIf (s.changes fs c 0 v) .state
  else
    let st := R.HIF_ST_CTRL_STATION.of v
    let chunk := R.HIF_ST_CTRL_CHUNK.of v
    let log := R.HIF_ST_CTRL_RING_LOG.of v
    let twice := (List.range 64).any fun d => decide (d ≠ c) && s.stOn d && decide (s.get R.HIF_ST_CTRL_STATION d = st) &&
      ((s.on R.HIF_ST_CTRL_GAPS d && decide (R.HIF_ST_CTRL_GAPS.of v = 1)) ||
        (s.on R.HIF_ST_CTRL_SNAP d && decide (R.HIF_ST_CTRL_SNAP.of v = 1)))
    let mtu := decide (R.HIF_ST_CTRL_KIND.of v = 1) &&
      decide (s.get R.HIF_ETH_CTRL_MTU (R.HIF_ST_CTRL_PORT.of v) < 52 + 8 * chunk)
    pickStatus [refuseIf twice .busy,
      refuseIf (decide (log < 4 ∨ 16 < log) || decide (chunk < 1 ∨ 512 < chunk) || mtu) .range]

/-- The HIF_HQ entries a stream reads, as queues in entry order. -/
def State.hqQueues (s : State) (c : Nat) : List Nat :=
  ((List.range 1024).filter fun j => s.on R.HIF_HQ_EN j && decide (s.get R.HIF_HQ_STREAM j = c)).map fun j => s.get R.HIF_HQ_QUEUE j

/-- The world of a stream (R376). -/
def State.streamWorld (s : State) (c : Nat) : World :=
  if s.isDma c then .nonSecure else s.ethWorld (s.get R.HIF_ST_CTRL_PORT c)

/-- Whether entry `j` may change now: its stream, and the stream `v` names, have EN = 0 (R376). -/
def State.hqFree (s : State) (j v : Nat) : Bool :=
  !(s.stOn (R.HIF_HQ_STREAM.of v) || (s.on R.HIF_HQ_EN j && s.stOn (s.get R.HIF_HQ_STREAM j)))

/-- The refusal of HIF_HQ[j].EN = 1 with the word `v` (R376). -/
def State.hqCheck (s : State) (j v : Nat) : Option Status :=
  let q := R.HIF_HQ_QUEUE.of v
  let c := R.HIF_HQ_STREAM.of v
  let twice := (List.range 1024).any fun i => decide (i ≠ j) && s.on R.HIF_HQ_EN i && decide (s.get R.HIF_HQ_QUEUE i = q)
  pickStatus [refuseIf (decide (s.queueWorld q ≠ s.streamWorld c)) .world, refuseIf (!s.hqFree j v) .state, refuseIf twice .busy,
    refuseIf (decide (q < 256) || decide (s.get R.QMX_Q_CFG_STATION q ≠ s.get R.HIF_ST_CTRL_STATION c)) .range]

/-! ### Chunks (R378) -/

/-- A chunk. -/
structure Chunk where
  queue : Nat
  band : Nat
  words : List Nat
  opens : Bool
  closes : Bool
  trunc : Bool := false
  poison : Bool := false

/-- The chunk word (R378). -/
def Chunk.word (x : Chunk) (station : Nat) : Nat :=
  x.words.length + b2n x.opens * 2 ^ 10 + b2n x.closes * 2 ^ 11 + b2n x.trunc * 2 ^ 12 + b2n x.poison * 2 ^ 13 +
    x.queue % 2 ^ 18 * 2 ^ 16 + station % 8 * 2 ^ 34 + x.band % 2 ^ 24 * 2 ^ 40

/-- The bytes of a chunk. -/
def Chunk.bytes (x : Chunk) (station : Nat) : List Nat :=
  (x.word station :: x.words).foldr (fun w bs => leBytes 8 w ++ bs) []

/-- The next word of a queue, left in the intake. The reader is not asked where the queue holds no word. -/
def State.peek (s : State) (q : Nat) : Option DWord × State :=
  let x := s.queue q
  let s1 := if x.intake.isEmpty && (s.holdsWords q || x.truncOwed) then s.readWord q .clean else s
  ((s1.queue q).intake.head?, s1)

/-- Take the word peeked at. -/
def State.dropIntake (s : State) (q : Nat) : State := s.setQueue q { s.queue q with intake := (s.queue q).intake.tail }

/-- Take up to `n` data words of the item at the front of a queue, with the word that closes it when it is reached. A terminator
is a chunk of its own. -/
def State.gather (s : State) (q : Nat) : Nat → List Nat → List Nat × Option DWord × State
  | 0, acc => (acc, none, s)
  | n + 1, acc =>
    match s.peek q with
    | (none, s1) => (acc, none, s1)
    | (some w, s1) =>
      if w.trunc || w.poison then
        if acc.isEmpty then ([], some w, s1.dropIntake q) else (acc, none, s1)
      else if w.fin then (acc ++ [w.data], some w, s1.dropIntake q)
      else State.gather (s1.dropIntake q) q n (acc ++ [w.data])

/-- Discard the rest of an item up to its END or terminator; whether the end was reached. -/
def State.skipItem (s : State) (q : Nat) : Nat → Bool × State
  | 0 => (false, s)
  | n + 1 =>
    match s.peek q with
    | (none, s1) => (false, s1)
    | (some w, s1) => if w.fin then (true, s1.dropIntake q) else State.skipItem (s1.dropIntake q) q n

/-- The band an item header names. -/
def State.itemBand (s : State) (n : Nat) (w : DWord) (b : Nat) : Nat :=
  if w.trunc || w.poison then b else bandOf (hdrWpi w.data) (s.bandExp n)

/-- What a stream finds among the queues of a band, in order (R406): an item, a queue whose words have not reached the reader
(R407), or nothing. -/
inductive Pick where
  | item (q b : Nat)
  | wait
  | nothing

/-- Look at the queues of a list, the first of them in place `i` of the band's order: what is found, and the place. -/
def State.pick (s : State) (n b i : Nat) : List Nat → Pick × Nat × State
  | [] => (.nothing, i, s)
  | q :: qs =>
    match s.peek q with
    | (some w, s1) =>
      let b1 := s1.itemBand n w b
      if b1 ≤ b then (.item q b1, i, s1) else State.pick s1 n b (i + 1) qs
    | (none, s1) => if s1.holdsWords q then (.wait, i, s1) else State.pick s1 n b (i + 1) qs

/-- The lowest band that a queue of the list shows at its front, or a snapshot record due names. -/
def State.lowest (s : State) (n : Nat) (qs : List Nat) (snaps : List Nat) (top : Nat) : Nat :=
  let a := qs.foldl (fun m q => match (s.queue q).intake.head? with
    | some w => min m (s.itemBand n w m)
    | none => m) top
  snaps.foldl min a

/-- What a stream does next. -/
inductive Work where
  | chunk (x : Chunk) (s : State)
  | bandEnd (s : State)
  | rest (s : State)

/-- The next chunk of the item a stream has begun in queue `q`. -/
def State.frameChunk (s : State) (c q b : Nat) (opens : Bool) : Work :=
  let n := s.get R.HIF_ST_CTRL_STATION c
  match s.gather q (s.get R.HIF_ST_CTRL_CHUNK c) [] with
  | (ws, fin, s1) =>
    if ws.isEmpty && fin.isNone then .rest s1
    else
      let audit := opens && (s.sealOf n).audited.contains b
      let ws1 := match ws with
        | w :: r => (if audit then w ||| 2 ^ 58 else w) :: r
        | [] => []
      let x : Chunk := { queue := q, band := b, words := ws1, opens := opens, closes := fin.isSome,
                         trunc := (fin.map (·.trunc)).getD false, poison := (fin.map (·.poison)).getD false }
      .chunk x (s1.setStream c { s1.stream c with item := if fin.isSome then none else some ⟨q, b, []⟩ })

/-- The words of a snapshot record of a band whose last line is `last` (R404). -/
def State.snapWords (s : State) (n b last : Nat) (v : List Nat) : List Nat :=
  let w0 := s.recWord0 last 0 false
  (if (s.sealOf n).audited.contains b then w0 ||| 2 ^ 58 else w0) :: recWord1 0x0A 0x3FF n 9 0 :: snapshotBody b v

/-- The next chunk of a snapshot record. -/
def State.frameSnap (s : State) (c b : Nat) (ws : List Nat) (opens : Bool) : Work :=
  let k := s.get R.HIF_ST_CTRL_CHUNK c
  let rest := ws.drop k
  let x : Chunk := { queue := snapQueue, band := b, words := ws.take k, opens := opens, closes := rest.isEmpty }
  .chunk x (s.setStream c { s.stream c with item := if rest.isEmpty then none else some ⟨snapQueue, b, rest⟩ })

/-- The band a stream releases next. -/
def State.relBand (s : State) (c n : Nat) : Nat :=
  match (s.stream c).next with
  | some b => b
  | none => bandOf (s.w0 n) (s.bandExp n)

/-- The queues of a stream, in the order in which it releases a band (R375, R406): those of its own station alone, so that nothing leaves
by another station's horizon (R20, DESIGN CHOICE, log 144). -/
def State.streamQueues (s : State) (c n : Nat) : List Nat :=
  (if s.on R.HIF_ST_CTRL_GAPS c then [112 + n] else []) ++ (s.hqQueues c).filter fun q => s.get R.QMX_Q_CFG_STATION q = n

/-- No item of a band was left to release: the stream goes on with the lowest band it holds (R408). -/
def State.passBands (s : State) (c n hz : Nat) (snaps : List Nat) : Work :=
  if (s.stream c).begun then .bandEnd s
  else
    let m := s.lowest n (s.streamQueues c n) snaps (hz + 1)
    .rest ((s.set R.HIF_ST_BAND (m - 1) c).setStream c { s.stream c with next := some m, pos := 0 })

/-- Go on with the bands at or below the sealed horizon (R377, R406 to R408): within a band a queue once left is not looked at again. -/
def State.openBand (s : State) (c : Nat) : Work :=
  let n := s.get R.HIF_ST_CTRL_STATION c
  let b := s.relBand c n
  let hz := s.get R.SCU_SEAL_ST_HZN_BAND n
  if ¬ s.on R.SCU_SEAL_ST_STATUS_VALID n ∨ hz < b then .rest s
  else
    let p0 := (s.stream c).pos
    let snaps := if s.on R.HIF_ST_CTRL_SNAP c then (s.sealOf n).snapsDue else []
    match s.pick n b p0 ((s.streamQueues c n).drop p0) with
    | (r, p, s0) =>
      let s1 := s0.setStream c { s0.stream c with pos := p }
      match r with
      | .item q b1 => s1.frameChunk c q b1 true
      | .wait => .rest s1
      | .nothing =>
        match snaps with
        | (b1, last, v) :: due =>
          if b1 ≤ b then
            (s1.setSeal n { s1.sealOf n with snapsDue := due }).frameSnap c b1 (s1.snapWords n b1 last v) true
          else s1.passBands c n hz (snaps.map (·.1))
        | [] => s1.passBands c n hz []

/-- What a stream does next: the chunk that closes an item cut short by a stop (R374), the item begun, or the next item. -/
def State.findWork (s : State) (c : Nat) : Work :=
  match (s.stream c).cut with
  | some (q, b) =>
    .chunk { queue := q, band := b, words := [], opens := false, closes := true, trunc := true }
      (s.setStream c { s.stream c with cut := none, item := none, skip := if q = snapQueue then none else some q })
  | none =>
    let r : Bool × State := match (s.stream c).skip with
      | some q =>
        let k := s.skipItem q ((s.queue q).words + (s.queue q).intake.length + 2)
        if k.1 then (true, k.2.setStream c { k.2.stream c with skip := none }) else k
      | none => (true, s)
    if r.1 = false then .rest r.2
    else
      match (r.2.stream c).item with
      | some it => if it.queue = snapQueue then r.2.frameSnap c it.band it.left false else r.2.frameChunk c it.queue it.band false
      | none => r.2.openBand c

/-! ### DMA rings (R379 to R382) -/

/-- The host address of the stream's ring. -/
def State.ringBase (s : State) (c : Nat) : Nat := s.get R.HIF_ST_RING_LO_ADDR_LO c * 64 + s.get R.HIF_ST_RING_HI_ADDR_HI c * 2 ^ 32

/-- Complete a descriptor: bytes 16 to 31 are written, HEAD advances, and IRQ raises the completion event (R380, R381). -/
def State.completeDesc (s : State) (c : Nat) (st : Status) (bandEnd irq : Bool) : State :=
  let x := s.stream c
  let h := s.get R.HIF_ST_HEAD_HEAD c
  let band : Nat := match x.top with
    | some b => b % 2 ^ 42 + 2 ^ 63
    | none => 0
  let s1 := s.emit (.dmaWrite c false (s.ringBase c + 32 * h + 16)
    (leBytes 4 x.used ++ leBytes 4 (st.code + b2n bandEnd * 2 ^ 8) ++ leBytes 8 band))
  let s2 := ((s1.set R.HIF_ST_HEAD_HEAD ((h + 1) % s.ringSize c) c).add R.HIF_ST_SEQ_SEQ 1 c).setStream c
    { x with desc := none, used := 0, top := none }
  if irq then s2.raise (Ev.streamCompletion c) else s2

/-- Complete the descriptor in use, if there is one. -/
def State.closeDesc (s : State) (c : Nat) (bandEnd : Bool) : State :=
  match (s.stream c).desc with
  | some (_, _, irq) => s.completeDesc c .ok bandEnd irq
  | none => s

/-- The status of a descriptor that takes no data (R380): of several, LENGTH before RANGE (R540). -/
def State.descStatus (s : State) (c addr len : Nat) : Option Status :=
  if len = 0 ∧ addr % 8 = 0 then some .ok
  else pickStatus [refuseIf (decide (16777216 < len) || (decide (len ≠ 0) && decide (len < 8 * (s.get R.HIF_ST_CTRL_CHUNK c + 1)))) .length,
    refuseIf (decide (len % 8 ≠ 0) || decide (addr % 8 ≠ 0)) .range]

end Sys2Proof.Machine

namespace Sys2Proof

def HostDesc.irq (d : HostDesc) : Bool := d.ctrl.toNat % 2 = 1

end Sys2Proof

namespace Sys2Proof.Machine

/-- Fetch the descriptor at HEAD when the stream has none; whether one that takes no data was completed. -/
def State.fetchDesc (s : State) (c : Nat) (d : HostDesc) : Bool × State :=
  if (s.stream c).desc.isSome ∨ s.get R.HIF_ST_HEAD_HEAD c = s.get R.HIF_ST_TAIL_TAIL c then (false, s)
  else
    let len := d.len.toNat
    match s.descStatus c d.addr.toNat len with
    | some st => (true, s.completeDesc c st false d.irq)
    | none => (false, s.setStream c { s.stream c with desc := some (d.addr.toNat, len, d.irq), used := 0, top := none })

/-! ### Datagrams (R385 to R387) -/

/-- Close the datagram being filled: it takes the stream's next SEQ. -/
def State.closeDgram (s : State) (c : Nat) (bandEnd : Bool) : State :=
  let x := s.stream c
  if x.dgChunks = 0 then s
  else
    let g : Dgram := { seq := s.get R.HIF_ST_SEQ_SEQ c, chunks := x.dgChunks, bandEnd := bandEnd, bytes := x.dg }
    (s.add R.HIF_ST_SEQ_SEQ 1 c).setStream c { x with dg := [], dgChunks := 0, ready := x.ready ++ [g] }

/-- The datagram header (R385). -/
def State.dgHeader (s : State) (c : Nat) (g : Dgram) : List Nat :=
  leBytes 2 0x5644 ++ [1, c] ++ leBytes 4 g.seq ++ leBytes 2 s.kId ++ leBytes 2 g.chunks ++ [b2n g.bandEnd, 0, 0, 0]

/-- Ones' complement sum of 16-bit words in network order. -/
def sum16 : List Nat → Nat
  | [] => 0
  | [a] => a % 256 * 256
  | a :: b :: bs => a % 256 * 256 + b % 256 + sum16 bs

/-- Fold a sum to 16 bits. -/
def fold16 (x : Nat) : Nat :=
  let a := x % 65536 + x / 65536
  let b := a % 65536 + a / 65536
  b % 65536 + b / 65536

/-- The UDP checksum over the IPv4 pseudo header, the UDP header and the payload (R385). -/
def udpChecksum (src dst sp dp : Nat) (payload : List Nat) : Nat :=
  let len := 8 + payload.length
  let x := src / 65536 + src % 65536 + dst / 65536 + dst % 65536 + 17 + len + sp + dp + len + sum16 payload
  let y := 65535 - fold16 x
  if y = 0 then 65535 else y

/-- The header fields of the stream's datagrams (R384, R385): DF is set and the fragment offset is 0. -/
def State.frameFields (s : State) (c : Nat) (payload : List Nat) : List Nat :=
  let pn := s.get R.HIF_ST_CTRL_PORT c
  let src := s.get R.HIF_ETH_IP_IP pn
  let dst := s.get R.HIF_ST_DST_IP_IP c
  let sp := s.get R.HIF_ST_UDP_SRC_PORT c
  let dp := s.get R.HIF_ST_UDP_DST_PORT c
  [s.get R.HIF_ST_DST_MAC_MAC c, s.get R.HIF_ETH_MAC pn,
   if s.on R.HIF_ST_DST_MAC_VLAN_EN c then 4096 + s.get R.HIF_ST_DST_MAC_VID c else 0,
   src, dst, sp, dp, s.get R.HIF_ST_RATE_DSCP c, udpChecksum src dst sp dp payload, 0x4000]

/-- The wire bits of a datagram with a payload of `n` bytes (R387): headers, FCS, preamble and gap. -/
def State.wireBits (s : State) (c n : Nat) : Nat :=
  8 * (n + 28 + 18 + 20 + (if s.on R.HIF_ST_DST_MAC_VLAN_EN c then 4 else 0))

/-- LTU units (12.8 per ns) that `bits` take at the stream's rate cap, or at the port rate with MBPS 0. -/
def State.sendTime (s : State) (c bits : Nat) : Nat :=
  let r := s.get R.HIF_ST_RATE_MBPS c
  ceilDiv (bits * 12800) (if r = 0 then 100000 else r)

/-- Send the oldest datagram of a stream. -/
def State.sendDgram (s : State) (c : Nat) (t : Int) : State :=
  let x := s.stream c
  match x.ready with
  | [] => s
  | g :: gs =>
    let payload := s.dgHeader c g ++ g.bytes
    let s1 := s.emit (.datagram (s.get R.HIF_ST_CTRL_PORT c) c (s.frameFields c payload) payload)
    s1.setStream c { x with ready := gs, sendAt := t + (s.sendTime c (s.wireBits c payload.length) : Nat) }

/-! ### Release of a chunk (R378 to R380, R386) -/

/-- The band after the one just released (R406, R408). -/
def State.leaveBand (s : State) (c : Nat) : State :=
  let b := s.relBand c (s.get R.HIF_ST_CTRL_STATION c)
  (s.set R.HIF_ST_BAND b c).setStream c { s.stream c with begun := false, next := some (b + 1), pos := 0 }

/-- A stream has written a chunk of band `b`. -/
def Stream.wrote (x : Stream) (b : Nat) : Stream :=
  { x with begun := true, top := some (match x.top with
      | some t => max t b
      | none => b) }

/-- Data writes of a function carry Relaxed Ordering (R381): Device Control enables it unless the host has cleared it. -/
def State.relaxed (s : State) (f : Nat) : Bool := !s.hif.strict.contains f

/-- One step of a DMA stream that has what it needs. -/
def State.releaseDma (s : State) (c : Nat) : State :=
  let n := s.get R.HIF_ST_CTRL_STATION c
  match s.findWork c with
  | .rest s1 => s1
  | .bandEnd s1 => (s1.closeDesc c true).leaveBand c
  | .chunk x s1 =>
    match (s.stream c).desc with
    | none => s
    | some (addr, len, _) =>
      let bs := x.bytes n
      let used := (s.stream c).used
      if len < used + bs.length then s.closeDesc c false
      else
        let s2 := s1.emit (.dmaWrite c (s1.relaxed 0) (addr + used) bs)
        s2.setStream c ({ s2.stream c with used := used + bs.length }.wrote x.band)

/-- One step of an Ethernet stream. A datagram that waits to be sent holds the next chunk back. -/
def State.releaseEth (s : State) (c : Nat) : State :=
  let n := s.get R.HIF_ST_CTRL_STATION c
  let mtu := s.get R.HIF_ETH_CTRL_MTU (s.get R.HIF_ST_CTRL_PORT c)
  if (s.stream c).ready ≠ [] then s
  else
    match s.findWork c with
    | .rest s1 => s1
    | .bandEnd s1 => (s1.closeDgram c true).leaveBand c
    | .chunk x s1 =>
      let bs := x.bytes n
      let y := s.stream c
      if y.dgChunks ≠ 0 ∧ mtu < 28 + 16 + y.dg.length + bs.length then s.closeDgram c false
      else s1.setStream c ({ s1.stream c with dg := y.dg ++ bs, dgChunks := y.dgChunks + 1 }.wrote x.band)

/-! ### Stops (R374, R382, R383) -/

/-- The item a stream is inside of is owed a closing chunk at the next enable (R374). -/
def Stream.cutShort (x : Stream) : Stream :=
  match x.item, x.cut with
  | some it, none => { x with item := none, pos := 0, cut := some (it.queue, it.band) }
  | _, _ => { x with item := none, pos := 0 }

/-- EN = 0 at a chunk boundary (R383): the present descriptor is completed with the bytes written so far. -/
def State.stopStream (s : State) (c : Nat) : State :=
  let s1 := if s.isDma c then s.closeDesc c false else s.closeDgram c false
  ((s1.setStream c (s1.stream c).cutShort).set R.HIF_ST_CTRL_EN 0 c).set R.HIF_ST_STATUS_STATE 0 c

/-- A DMA stream stops with its descriptor left uncompleted, and EN is cleared (R374). -/
def State.breakDma (s : State) (c : Nat) : State :=
  if s.isDma c ∧ s.stOn c = true then
    let x := (s.stream c).cutShort
    ((s.setStream c { x with desc := none, used := 0, top := none }).set R.HIF_ST_CTRL_EN 0 c).set R.HIF_ST_STATUS_STATE 0 c
  else s

/-- Reset a function's MSI-X table (R374). -/
def State.resetMsix (s : State) (f : Nat) : State :=
  { s with hif := { s.hif with unmasked := SMap.clearRange s.hif.unmasked (256 * f) (256 * f + 256),
                               pba := SMap.clearRange s.hif.pba (256 * f) (256 * f + 256),
                               msix := SMap.clearRange s.hif.msix (256 * f) (256 * f + 256) } }

/-- The effects of R374 that an FLR, D3hot and loss of the link share. -/
def State.breakPf0 (s : State) : State := (s.each (List.range 64) State.breakDma).resetMsix 0

/-- Loss of the link (R374). -/
def State.loseLink (s : State) : State :=
  ((s.breakPf0.resetMsix 1).set R.HIF_STATUS_SPEED 0).set R.HIF_STATUS_WIDTH 0

/-! ### PTP (R391) -/

/-- LOCK changes: CHANGED, the mirror of the Line Timing Unit, and the event. -/
def State.setPtpLock (s : State) (on : Bool) : State :=
  if s.on R.HIF_PTP_STATUS_LOCK = on then s
  else ((((s.set R.HIF_PTP_STATUS_LOCK (b2n on)).set R.HIF_PTP_STATUS_CHANGED 1).set R.LTU_REF_STATUS_PTP_LOCK (b2n on)).raise Ev.ptpLock).syncSteer

def State.setPtp (s : State) (x : Ptp) : State := { s with hif := { s.hif with ptp := x } }

/-- The PTP time of an instant in ns, rounded. -/
def State.ptpNs (s : State) (t : Int) : Int := roundDivI ((t + s.ltu.ptpOffset) * 5) 64

/-- The first list comes before the second, compared place by place. -/
def listLess : List Nat → List Nat → Bool
  | a :: as, b :: bs => decide (a < b) || (decide (a = b) && listLess as bs)
  | _, _ => false

/-- The better of two senders (R391): by the grandmaster they announce; of one grandmaster, by the steps to it and then by the sender
(PRESUMED, IEEE 1588-2019, log 149). -/
def PtpForeign.better (x y : PtpForeign) : Bool :=
  if x.data.gm = y.data.gm then listLess [x.data.steps.toNat, x.src] [y.data.steps.toNat, y.src]
  else
    let key (d : PtpDataset) : List Nat :=
      [d.prio1.toNat, d.cls.toNat, d.accuracy.toNat, d.variance.toNat, d.prio2.toNat, d.gm.toNat]
    listLess (key x.data) (key y.data)

/-- A sender qualifies at instant `t`: two Announces in the last four announce intervals, fewer than 255 steps removed (PRESUMED, log 149). -/
def PtpForeign.good (x : PtpForeign) (t : Int) : Bool :=
  decide (x.data.steps.toNat < 255) && match x.before with
    | some a => decide (t - a ≤ 4 * (x.data.interval : Nat))
    | none => false

/-- The best of the senders that qualify (R391). -/
def bestMaster (fs : List PtpForeign) (t : Int) : Option PtpForeign :=
  (fs.filter fun f => f.good t).foldl (fun b f => match b with
    | some x => if f.better x then some f else b
    | none => some f) none

/-- An Announce of `src` at `t` (R391): the sender's entry follows, senders silent for four intervals are forgotten, and the best master
clock algorithm selects the master. -/
def State.ptpAnnounce (s : State) (src : Nat) (d : PtpDataset) (t : Int) : State :=
  let x := s.hif.ptp
  let old := x.foreign.find? fun f => f.src = src
  let rest := x.foreign.filter fun f => f.src ≠ src ∧ t - f.last ≤ 4 * (f.data.interval : Nat)
  let fs := { src := src, data := d, last := t, before := old.map (·.last) } :: rest
  let m := (bestMaster fs t).map (·.src)
  let y : Ptp := if x.master = m then { x with foreign := fs } else { x with foreign := fs, master := m, awaits := none, t1 := none }
  (s.setPtp y).set R.HIF_PTP_STATUS_MASTER_SEEN (b2n m.isSome)

/-- A port accepts a PTP message by its destination (R388). -/
def State.ptpAccepts (s : State) (pn : Nat) (d : PtpDest) : Bool :=
  match d with
  | .ieee mac => decide (mac.toNat = s.get R.HIF_ETH_MAC pn ∨ mac.toNat = 0x011B19000000)
  | .udp ip port => decide (ip.toNat = s.get R.HIF_ETH_IP_IP pn ∨ (ip.toNat = 0xE0000181 ∧ (port.toNat = 319 ∨ port.toNat = 320)))

/-- A Sync is complete with origin `t1` (R391): offset, lock, the time handed on, the steering (R103), and
the next delay request. -/
def State.ptpSync (s : State) (t1 : Int) : State :=
  let x := s.hif.ptp
  let off := s.ptpNs x.syncAt - t1 - (s.get R.HIF_PTP_DELAY_NS : Nat)
  let within := decide (off.natAbs ≤ s.get R.HIF_PTP_CTRL_LOCK_NS)
  let good := if within then min (x.good + 1) 16 else 0
  let bad := if within then 0 else min (x.bad + 1) 4
  let y : Ptp := { x with awaits := none, t1 := some t1, t2 := x.syncAt, good := good, bad := bad, reqSeq := (x.reqSeq + 1) % 65536 }
  let s1 := (s.setPtp y).setS R.HIF_PTP_OFFSET_NS off
  let s2 := if good = 16 then s1.setPtpLock true else if bad = 4 then s1.setPtpLock false else s1
  let s3 : State := { s2 with ltu := { s2.ltu with ptpOffset := s.ltu.ptpOffset - roundDivI (off * 64) 5 } }
  (s3.steer (Config.ptpSteer off s.ltu.ptpPart)).emit (.ptp (s.get R.HIF_PTP_CTRL_PORT) 1 y.reqSeq)

/-- A delay response (R391): the mean path delay, with the last complete Sync. The request was sent at `sent` and received by the master at `rx`. -/
def State.ptpDelay (s : State) (rx corr sent : Int) : State :=
  let x := s.hif.ptp
  match x.t1 with
  | some t1 => s.setSat R.HIF_PTP_DELAY_NS (roundDivI (roundDivI ((x.t2 - sent) * 5) 64 - t1 + rx - corr) 2).toNat
  | none => s

/-! ### Interrupts (R395) -/

def State.vecUnmasked (s : State) (k : Nat) : Bool := SMap.get s.hif.unmasked false k

/-- A vector sends its message, which covers every source that has become pending until then (R395). -/
def State.sendVector (s : State) (k : Nat) (t : Int) : State :=
  let m := SMap.get s.hif.msix (0, 0) k
  let s1 := s.emit (.msix (k / 256) (k % 256) m.1 m.2)
  { s1 with due := s1.due.filter (· ≠ k), hif := { s1.hif with last := SMap.put s1.hif.last none k (some t), pba := SMap.put s1.hif.pba false k false } }

/-- The moderation interval of a vector has passed. -/
def State.vecFree (s : State) (k : Nat) (t : Int) : Bool :=
  match SMap.get s.hif.last none k with
  | some l => decide (l + 12800 * (s.get R.HIF_VEC_MOD_INTERVAL (k / 256) (k % 256) : Nat) ≤ t)
  | none => true

/-- The message due of a vector goes out, or sets its PBA bit while the vector is masked (R395). -/
def State.serveVector (s : State) (k : Nat) (t : Int) : State :=
  if s.due.contains k ∧ s.vecFree k t = true then
    if s.vecUnmasked k then s.sendVector k t
    else { s with due := s.due.filter (· ≠ k), hif := { s.hif with pba := SMap.put s.hif.pba false k true } }
  else s

/-- Streams that use a port follow its state. -/
def State.syncPort (s : State) (pn : Nat) : State :=
  s.each (List.range 64) fun s c => if s.isDma c = false ∧ s.get R.HIF_ST_CTRL_PORT c = pn then s.syncStream c else s

/-- The link of an Ethernet port comes up or goes down (R384, R387). -/
def State.ethLinkTo (s : State) (p : Nat) (link : Bool) : State :=
  if s.on R.HIF_ETH_STATUS_LINK p = link then s
  else
    let s1 := (s.set R.HIF_ETH_STATUS_LINK (b2n link) p).set R.HIF_ETH_STATUS_CHANGED 1 p
    let s2 := if link then s1 else s1.set R.HIF_ETH_STATUS_PAUSED 0 p
    (s2.raise Ev.ethLink).syncPort p

end Sys2Proof.Machine
end

