-- ==== Sys2Proof/Machine/MfeOps.lean ====
section
/-! DEFINITION. The measurement front end (spec/17): values from codes, accumulators, filter chains, records and outputs. A value with 16
fraction bits is an integer in 1/65,536. -/

open Sys2Proof

namespace Sys2Proof.Machine

def State.chain (s : State) (c : Nat) : Chain := SMap.get s.mfe.ch {} c
def State.setChain (s : State) (c : Nat) (x : Chain) : State := { s with mfe := { s.mfe with ch := SMap.put s.mfe.ch {} c x } }
def State.mout (s : State) (o : Nat) : MfeOut := SMap.get s.mfe.out {} o
def State.setMout (s : State) (o : Nat) (x : MfeOut) : State := { s with mfe := { s.mfe with out := SMap.put s.mfe.out {} o x } }

abbrev mfeLast : Option Fld := some R.MFE_STATUS_LAST_STATUS

/-- What the holding copy of a register reads before the first read that fills it: the reset value of the register (R39, R446). -/
def holdReset (id : RegId) : Nat :=
  match id with
  | .MFE_ACC_MIN => 0x7FFFFFFF
  | .MFE_ACC_MAX => 0x80000000
  | _ => 0

/-! ### Events (R460) -/

/-- A free number of the front end (log 3). -/
def State.takeMeas (s : State) : Nat × State := (Config.freeMeas s.fresh, s.takeFresh.2)

/-- Source 1,408 + `kind`, of an entry or slice. -/
def State.mfeEvent (s : State) (kind idx : Nat) : State :=
  ((s.set R.MFE_EVT_LAST_INDEX idx).set R.MFE_EVT_LAST_KIND kind).raise (1408 + kind)

/-- A source that names neither entry nor slice: its index is open (log 3). -/
def State.mfeEvent0 (s : State) (kind : Nat) : State := s.takeMeas.2.mfeEvent kind s.takeMeas.1

/-! ### The sequencer (R440, R441) -/

def State.mfeRuns (s : State) : Bool := decide (s.get R.MFE_STATUS_STATE = 1)

/-- Kinds of input (R435). -/
def State.isPhoto (s : State) (e : Nat) : Bool := decide (s.get R.MFE_ENT_CFG_INPUT e < 16)
def State.isRtd (s : State) (e : Nat) : Bool :=
  decide (16 ≤ s.get R.MFE_ENT_CFG_INPUT e) && decide (s.get R.MFE_ENT_CFG_INPUT e < 24)
def State.threeWire (s : State) (e : Nat) : Bool := s.isRtd e && s.on R.MFE_ENT_EXC_WIRE e

/-- The dwell of an entry in slots (R440). -/
def State.dwell (s : State) (e : Nat) : Nat :=
  (if s.threeWire e then 2 else 1) * (s.get R.MFE_ENT_CFG_SETTLE e + ceilDiv (2 ^ s.get R.MFE_ENT_CFG_OSR e) 4)

/-- The entries of a frame, in order (R440). -/
def State.frameEntries (s : State) : List Nat :=
  (List.range (min (s.get R.MFE_SEQ_CTRL_COUNT) 64)).filter fun e => s.on R.MFE_ENT_CFG_EN e

/-- Slots of a frame that regular entries take. -/
def State.usedSlots (s : State) : Nat := (s.frameEntries.map s.dwell).foldl (· + ·) 0

def State.frameSlots (s : State) : Nat := s.get R.MFE_SEQ_PERIOD_PERIOD / 24

/-- The chains that the entries of the frame feed, in entry order. -/
def State.boundChains (s : State) : List Nat :=
  (s.frameEntries.filter fun e => s.on R.MFE_ENT_CFG_CH_EN e).map fun e => s.get R.MFE_ENT_CFG_CHAIN e

/-- The entry that feeds a chain. -/
def State.chainEntry (s : State) (c : Nat) : Option Nat :=
  s.frameEntries.find? fun e => s.on R.MFE_ENT_CFG_CH_EN e && decide (s.get R.MFE_ENT_CFG_CHAIN e = c)

/-- Two elements of a list are equal. -/
def twice : List Nat → Bool
  | [] => false
  | x :: xs => xs.contains x || twice xs

/-! ### Filter leaves (R453) -/

def mfeLeafAddr (v : Nat) : Nat := 0x3A00000 + 0x1000 * v
def State.mfeTaps (s : State) (v : Nat) : Nat := s.leafLe (mfeLeafAddr v) 2
def State.mfeTap (s : State) (v k : Nat) : Int := toSigned 32 (s.leafLe (mfeLeafAddr v + 8 + 4 * k) 4)

/-- A leaf keeps its layout. -/
def State.mfeLeafOk (s : State) (v : Nat) : Bool :=
  decide (1 ≤ s.mfeTaps v) && decide (s.mfeTaps v ≤ 256) && decide (s.leafLe (mfeLeafAddr v + 2) 6 = 0)

/-- The leaves a chain uses: active, fading and pending. -/
def State.chainLeaves (s : State) (c : Nat) : List Nat :=
  s.get R.MFE_CH_CFG_LEAF c :: ((s.chain c).fade.toList.map (·.1) ++ (s.chain c).pend.toList.map (·.1))

/-- A leaf is in use while the sequencer runs (R454). -/
def State.mfeLeafBusy (s : State) (v : Nat) : Bool := s.mfeRuns && s.boundChains.any fun c => (s.chainLeaves c).contains v

/-! ### Chains (R447 to R452) -/

def State.scs (s : State) (c : Nat) : Bool := s.on R.MFE_CH_CFG_SCS c
def State.n50 (s : State) (c : Nat) : Nat := if s.on R.MFE_CH_CFG_NOTCH50 c then 2400000 / s.get R.MFE_SEQ_PERIOD_PERIOD else 1
def State.n60 (s : State) (c : Nat) : Nat := if s.on R.MFE_CH_CFG_NOTCH60 c then 2000000 / s.get R.MFE_SEQ_PERIOD_PERIOD else 1
def State.nBlock (s : State) : Nat := 12000000 / s.get R.MFE_SEQ_PERIOD_PERIOD

/-- The settling count (R448); in single-cycle-settling mode a block (R452). -/
def State.settleCount (s : State) (c : Nat) : Nat :=
  let t := s.mfeTaps (s.get R.MFE_CH_CFG_LEAF c)
  let t2 : Nat := match (s.chain c).fade with
    | some f => max t (s.mfeTaps f.1)
    | none => t
  if s.scs c then s.nBlock else s.n50 c + s.n60 c + t2 - 2

/-- MFE_CH_STATUS and the swap bits show the chain. -/
def State.syncChain (s : State) (c : Nat) : State :=
  let x := s.chain c
  let s1 := ((s.setSat R.MFE_CH_STATUS_COUNT x.j c).set R.MFE_CH_STATUS_S (s.settleCount c) c).set R.MFE_CH_SWAP_PENDING
    (b2n x.pend.isSome) c
  let s2 := s1.set R.MFE_CH_SWAP_FADING (b2n x.fade.isSome) c
  match s2.chainEntry c with
  | some e => s2.set R.MFE_ENT_STATUS_SUPPRESSED (b2n x.sup) e
  | none => s2

/-- A swap has finished: the new leaf is the active one (R455). -/
def State.swapDone (s : State) (c v : Nat) : State :=
  let s1 := (s.set R.MFE_CH_CFG_LEAF v c).setChain c { s.chain c with fade := none }
  match s1.chainEntry c with
  | some e => s1.mfeEvent 5 e
  | none => s1.mfeEvent0 5

/-- Restart a chain: every stage is empty, COUNT is 0, and a fade completes at once (R448, R455). -/
def State.restartChain (s : State) (c : Nat) (sync : Bool) : State :=
  let s1 := match (s.chain c).fade with
    | some (v, _, _) => s.swapDone c v
    | none => s
  let x := s1.chain c
  (s1.setChain c { x with j := 0, h1 := [], h2 := [], h3 := [], coarse := [], sum := 0, blk := 0, flagBlk := !sync && !x.sup,
                          sup := sync || x.sup, restart := false }).syncChain c

/-- The mean of `n` values in 1/65,536 of a unit, an empty place holding 0. -/
def notch (n : Nat) (h : List Int) : Int := roundDivI ((h.take n).foldl (· + ·) 0) n

/-- The FIR sum of a leaf over stage-2 outputs, newest first, in 2^-46 of a unit (R447). -/
def State.fir (s : State) (v : Nat) (h : List Int) : Int :=
  ((List.range (s.mfeTaps v)).map fun k => s.mfeTap v k * h.getD k 0).foldl (· + ·) 0

/-- The fine output of the present sample: with one leaf, or output `i` of a fade of F (R447, R455). -/
def State.fineOut (s : State) (c : Nat) : Int :=
  let x := s.chain c
  let old := s.fir (s.get R.MFE_CH_CFG_LEAF c) x.h3
  match x.fade with
  | some (v, f, i) => satS 32 (roundDivI (old * ((f : Int) - i) + s.fir v x.h3 * i) (2 ^ 46 * f))
  | none => satS 32 (roundDivI old (2 ^ 46))

/-- The coarse output (R449). -/
def Chain.coarseOut (x : Chain) : Int := roundDivI (x.coarse.foldl (· + ·) 0) x.coarse.length

/-- A chain takes a sample; whether it is settled, and the output that goes with it: fine when settled, else coarse. -/
def State.takeSample (s : State) (c : Nat) (v : Int) : (Bool × Int) × State :=
  let x := s.chain c
  let co := (v :: x.coarse).take (2 ^ s.get R.MFE_CH_CFG_CLOG c)
  if s.scs c then
    let sum := x.sum + v
    let blk := x.blk + 1
    let full := decide (s.nBlock ≤ blk)
    let y : Chain := { x with j := x.j + 1, coarse := co, sum := if full then 0 else sum, blk := if full then 0 else blk }
    let s1 := (s.setChain c y).setS R.MFE_CH_COARSE_VALUE y.coarseOut c
    ((full, if full then satS 32 (roundDivI sum s.nBlock) else y.coarseOut), s1)
  else
    let h1 := (v * 65536 :: x.h1).take (s.n50 c)
    let h2 := (notch (s.n50 c) h1 :: x.h2).take (s.n60 c)
    let h3 := (notch (s.n60 c) h2 :: x.h3).take 256
    let fade : Option (Nat × Nat × Nat) := match x.fade, x.pend with
      | some (l, f, i), _ => some (l, f, i + 1)
      | none, some (l, f) => some (l, f, 1)
      | none, none => none
    let y : Chain := { x with j := x.j + 1, coarse := co, h1 := h1, h2 := h2, h3 := h3, fade := fade,
                              pend := if x.fade.isNone then none else x.pend }
    let s1 := (s.setChain c y).setS R.MFE_CH_COARSE_VALUE y.coarseOut c
    let settled := decide (s1.settleCount c ≤ y.j)
    let out := if settled then s1.fineOut c else y.coarseOut
    let s2 := match fade with
      | some (l, f, i) => if f ≤ i then s1.swapDone c l else s1
      | none => s1
    ((settled, out), s2)

/-! ### From codes to values (R443, R444) -/

/-- R_f of a range in ohms. -/
def feedback (r : Nat) : Nat := 10000 * 10 ^ r

/-- The excitation current in µA (R443). -/
def State.excitation (s : State) (e : Nat) : Nat :=
  ([100, 250, 500, 1000].getD (s.get R.MFE_ENT_EXC_IEXC e) 0) + s.get R.MFE_ENT_EXC_BO_EN e

/-- 10^27 times the resistance ratio of the platinum curve at `u` thousandths of a degree (R443). -/
def curve (u : Int) : Int :=
  1000000000000000000000000000 + 39083 * 100000000000000000 * u - 5775 * 100000000000 * u * u -
    (if u < 0 then 4183 * (u - 100000) * u * u * u else 0)

/-- The largest `t` in tenths of a degree, from -2000 to 8500, whose curve at 100 t + d thousandths is not above the resistance
`r` mΩ: a search of 14 halvings. -/
def curveSearch (nom : Nat) (r d : Int) : Nat → Int → Int → Int
  | 0, lo, _ => lo
  | n + 1, lo, hi =>
    let mid := (lo + hi + 1) / 2
    if curve (100 * mid + d) * (nom * 1000 : Nat) ≤ r * 1000000000000000000000000000 then curveSearch nom r d n mid hi
    else curveSearch nom r d n lo (mid - 1)

/-- The temperature of a resistance in 0.1 °C, solved to within 0.005 °C (R443): within that tolerance of a rounding boundary either
neighbour is a reading (log 3). Also whether it lies outside the curve. -/
def State.temperature (s : State) (nom : Nat) (r : Int) : (Int × Bool) × State :=
  let one : Int := 1000000000000000000000000000
  if r * one < curve (-200000) * (nom * 1000 : Nat) ∨ curve 850000 * (nom * 1000 : Nat) < r * one then
    ((toSigned 32 s.takeMeas.1, true), s.takeMeas.2)
  else
    let a := curveSearch nom r (-45) 14 (-2000) 8500
    let b := curveSearch nom r (-55) 14 (-2000) 8500
    if a = b then ((a, false), s)
    else ((if s.takeMeas.1 % 2 = 0 then a else b, false), s.takeMeas.2)

/-- What a dwell of an entry gives: E, OPEN_WIRE and OVER (R443, R444), with MFE_LEAD written by a 3-wire entry. -/
structure Sample where
  e : Int
  openWire : Bool
  isOver : Bool

/-- A code trimmed with the offset in codes and the gain error in ppm of its slice, rounded, and held to 16 bits (R438, log 43). -/
def State.trimmed (s : State) (c : Fin 5 × BitVec 16) : Int :=
  satS 16 (roundDivI ((c.2.toInt - s.getS R.MFE_SLICE_OFFSET c.1) * 1000000) (1000000 + s.getS R.MFE_SLICE_GAIN c.1).toNat)

/-- The sum of the 2^OSR codes of a dwell. -/
def State.codeSum (s : State) (e : Nat) (cs : List Int) : Int := (cs.take (2 ^ s.get R.MFE_ENT_CFG_OSR e)).foldl (· + ·) 0

/-- The sample of entry `e` from its trimmed codes. -/
def State.sample (s : State) (e : Nat) (ab bc : List Int) : Sample × State :=
  let d := 2 ^ s.get R.MFE_ENT_CFG_OSR e
  let nab := s.codeSum e ab
  let nbc := s.codeSum e bc
  let three := s.threeWire e
  let rail := (ab.take d ++ (if three then bc.take d else [])).any fun c => decide (s.get R.MFE_CTRL_RAIL ≤ c.natAbs)
  if s.isRtd e then
    let i := s.excitation e
    let s1 := if three then s.setS R.MFE_LEAD_MOHM (roundDivI (nbc * 62500) (i * d)) e else s
    let r := if three then roundDivI ((nab - nbc) * 62500) (i * d)
      else roundDivI (nab * 62500) (i * d) - (s.get R.MFE_ENT_EXC_LEAD_MOHM e : Nat)
    if s.on R.MFE_ENT_EXC_OUT_T e then
      let t := s1.temperature (if s.on R.MFE_ENT_EXC_PT1000 e then 1000 else 100) r
      ({ e := t.1.1, openWire := rail, isOver := t.1.2 }, t.2)
    else ({ e := r, openWire := rail, isOver := false }, s1)
  else if s.isPhoto e then
    ({ e := roundDivI (nab * 625000000) (feedback (s.get R.MFE_ENT_EXC_RANGE e) * d), openWire := false, isOver := rail }, s)
  else
    let k : Int := if s.on R.MFE_ENT_EXC_ATTEN e then 3125 else 625
    ({ e := roundDivI (nab * k) (10 * d), openWire := false, isOver := rail }, s)

/-- Auto-range judges a photocurrent sample (R445): the step is written at the next frame. A write of the excitation during the dwell
stands: auto-range judges again from the next sample. -/
def State.autoRange (s : State) (e : Nat) (ab : List Int) (isOver : Bool) : State :=
  let r := s.get R.MFE_ENT_EXC_RANGE e
  let d := 2 ^ s.get R.MFE_ENT_CFG_OSR e
  let n := (s.codeSum e ab).natAbs
  if ¬ s.isPhoto e ∨ ¬ s.on R.MFE_ENT_EXC_AUTO e ∨ (s.ment e).held.isSome then s
  else if (29491 * d ≤ n ∨ isOver = true) ∧ 0 < r then s.setMent e { s.ment e with auto := some (r - 1) }
  else if 29491 * d ≤ n ∨ isOver = true then s
  else if n < 2621 * d ∧ r < 3 then s.setMent e { s.ment e with auto := some (r + 1) }
  else s

/-- Add an unflagged sample to the accumulators (R446). -/
def State.accumulate (s : State) (e : Nat) (v : Int) : State :=
  let x := s.getS R.MFE_ACC_SUM e + v
  let r : Int × State := if satS 48 x = x then (x, s) else (toSigned 48 s.takeMeas.1, s.takeMeas.2)
  let s1 := (r.2.setS R.MFE_ACC_SUM r.1 e).addSat R.MFE_ACC_CNT_COUNT 1 e
  (s1.setS R.MFE_ACC_MIN_MIN (min v (s1.getS R.MFE_ACC_MIN_MIN e)) e).setS R.MFE_ACC_MAX_MAX (max v (s1.getS R.MFE_ACC_MAX_MAX e)) e

/-- Clear an entry's accumulators (R446). -/
def State.clearAcc (s : State) (e : Nat) : State :=
  (((s.set R.MFE_ACC_SUM 0 e).set R.MFE_ACC_CNT_COUNT 0 e).set R.MFE_ACC_MIN_MIN 0x7FFFFFFF e).set R.MFE_ACC_MAX_MAX 0x80000000 e

/-! ### Results, records and outputs (R450, R456 to R458) -/

/-- The flags of a result, as MFE_RES_FLAGS.FLAGS. -/
def Flag.unsettled : Nat := 1
def Flag.coarse : Nat := 2
def Flag.openWire : Nat := 4
def Flag.overRange : Nat := 8

/-- The words of a MEASUREMENT record of an entry (R457). -/
def State.measRecord (s : State) (e n wpi : Nat) : List Nat :=
  let ch := s.on R.MFE_ENT_CFG_CH_EN e
  let w0 := s.get R.MFE_RES_VALUE e + e * 2 ^ 32 + b2n ch * 2 ^ 38 + (if ch then s.get R.MFE_ENT_CFG_CHAIN e else 0) * 2 ^ 39 +
    s.get R.MFE_RES_FLAGS_FLAGS e * 2 ^ 44 + (if s.isPhoto e then s.get R.MFE_RES_FLAGS_RANGE e else 0) * 2 ^ 48
  [s.recWord0 wpi 0 false, recWord1 0x0B 0x3FF n 2 0, w0, s.get R.MFE_RES_FLAGS_SEQ e]

/-- Write the record of a result, when one is due (R456). -/
def State.measure (s : State) (e : Nat) : State :=
  let x := s.ment e
  if ¬ s.on R.MFE_ENT_REC_EN e then s
  else if x.dec + 1 < 2 ^ s.get R.MFE_ENT_REC_DEC_LOG e then s.setMent e { x with dec := x.dec + 1 }
  else
    let s0 := s.setMent e { x with dec := 0 }
    let n := s.get R.MFE_ENT_REC_STATION e
    let q := s.get R.MFE_ENT_REC_QUEUE e
    match s.stBusy n, (s.lst n).last with
    | true, some l =>
      let w1 := max l.n (x.prevWpi.getD 0)
      let wpi := if bandOf w1 (s.bandExp n) < s.releaseBand n then s.bandFirst n (s.releaseBand n) else w1
      let s1 := s0.presentItem q (s0.measRecord e n wpi)
      if s.qState q = 1 ∧ (s1.queue q).present = [] then s1.setMent e { s1.ment e with prevWpi := some wpi }
      else (s0.add R.MFE_REC_DROP_COUNT 1).mfeEvent 7 e
    | _, _ => s0

/-- The setting of an output at x = num / den (R458): period and high time in clocks of 120 MHz. -/
def State.outSetting (s : State) (o : Nat) (num den : Nat) : Nat × Nat :=
  let fa := s.get R.MFE_OUT_F_F_A o
  if s.on R.MFE_OUT_CFG_MODE o then
    let p := roundDiv (120000000 * den) (fa * den + num * (s.get R.MFE_OUT_F_FMAX o - fa))
    (p, p / 2)
  else
    let p := roundDiv 120000000 fa
    (p, roundDiv (num * p) den)

/-- An output shows a setting on its pin. -/
def State.showOut (s : State) (o : Nat) (x : Nat × Nat) : State :=
  (s.setMout o { now := some x, next := none }).emit (.pin "MFE_FOUT" o (x.1 + x.2 * 2 ^ 32))

/-- A new setting waits for the end of the period in progress; the first one has none to wait for. -/
def State.stageOut (s : State) (o : Nat) (x : Nat × Nat) : State :=
  if (s.mout o).now.isNone then s.showOut o x else s.setMout o { s.mout o with next := some x }

/-- An output takes a result of its entry (R458). -/
def State.driveOut (s : State) (o : Nat) (v : Int) (flags : Nat) : State :=
  if flags &&& 12 ≠ 0 then
    match s.get R.MFE_OUT_CFG_FAIL o with
    | 1 => s.stageOut o (s.outSetting o 0 1)
    | 2 => s.stageOut o (s.outSetting o 1 1)
    | _ => s
  else
    let lo := s.getS R.MFE_OUT_LO_LO o
    let w := (s.getS R.MFE_OUT_HI_HI o - lo).toNat
    s.stageOut o (s.outSetting o (min (v - lo).toNat w) w)

/-- Write a result: `v` none leaves VALUE unchanged (R450). The illumination controller, records and outputs take it. -/
def State.result (s : State) (e : Nat) (v : Option Int) (flags : Nat) (fine : Bool) : State :=
  let s1 := match v with
    | some x => s.setS R.MFE_RES_VALUE x e
    | none => s
  let s2 := (((s1.set R.MFE_RES_FLAGS_FLAGS flags e).set R.MFE_RES_FLAGS_RANGE (s.get R.MFE_ENT_EXC_RANGE e) e).set
    R.MFE_RES_FLAGS_NEW 1 e).add R.MFE_RES_FLAGS_SEQ 1 e
  let s3 := s2.set R.MFE_ENT_STATUS_SETTLED (b2n fine) e
  let val := s3.getS R.MFE_RES_VALUE e
  let s4 := s3.each (List.range 8) fun s g =>
    if s.get R.ILC_GRP_TCOMP_ENTRY g = e then s.ilcTemp g val (decide (flags ≠ 0)) else s
  let s5 := s4.measure e
  s5.each (List.range 8) fun s o =>
    if s.on R.MFE_OUT_CFG_EN o ∧ s.get R.MFE_OUT_CFG_ENTRY o = e then s.driveOut o val flags else s

/-- The chain of an entry takes an unflagged value, and the result is written by R450 to R452. -/
def State.chainResult (s : State) (e c : Nat) (v : Int) : State :=
  let s0 := if (s.chain c).restart then s.restartChain c false else s
  let x := s0.chain c
  match s0.takeSample c v with
  | ((settled, out), s1) =>
    let y := s1.chain c
    let s2 := if settled then s1.setChain c { y with sup := false, flagBlk := false } else s1
    let s3 := s2.syncChain c
    if settled then s3.result e (some out) 0 true
    else if x.sup ∨ (s.scs c = true ∧ x.flagBlk = false) then s3
    else s3.result e (some out) (Flag.unsettled + Flag.coarse) false

/-! ### Excitation (R445) -/

/-- The fields whose change is an excitation change. -/
def excFields : List Fld :=
  [R.MFE_ENT_EXC_RANGE, R.MFE_ENT_EXC_IEXC, R.MFE_ENT_EXC_WIRE, R.MFE_ENT_EXC_BO_EN, R.MFE_ENT_EXC_ATTEN]

/-- The excitation of an entry as it stands. -/
def State.excNow (s : State) (e : Nat) : List Nat := excFields.map fun f => s.get f e

/-- Give an entry an excitation. -/
def State.putExc (s : State) (e : Nat) (x : List Nat) : State := s.each (excFields.zip x) fun s p => s.set p.1 p.2 e

/-- The entry whose urgent conversion is in progress: the slack runs the oldest request that fits it (R442). -/
def State.urgentEntry (s : State) : Option Nat :=
  match s.mfeRuns && decide (s.mfe.todo = []), s.mfe.urg with
  | true, e :: _ => if s.dwell e ≤ s.mfe.slack then some e else none
  | _, _ => none

/-- A dwell is in progress: that of the next regular entry, or of an urgent conversion (R440, R442). -/
def State.inDwell (s : State) : Bool := (s.mfeRuns && decide (s.mfe.todo ≠ [])) || s.urgentEntry.isSome

/-- A regular dwell of the entry is in progress. -/
def State.dwelling (s : State) (e : Nat) : Bool := s.mfeRuns && decide (s.mfe.todo.head? = some e)

/-- An excitation change of an entry (R445): its next dwell takes it, so the one in progress does not. -/
def State.noteExc (s : State) (e : Nat) (ch : Bool) : State :=
  let x := s.ment e
  if s.dwelling e then s.setMent e { x with late := x.late || ch } else s.setMent e { x with exc := x.exc || ch }

/-- A regular dwell of entry `e` with the excitation in force completes (R443 to R452). -/
def State.regularDwell (s : State) (e : Nat) (ab bc : List Int) : State :=
  let bound := s.on R.MFE_ENT_CFG_CH_EN e
  let c := s.get R.MFE_ENT_CFG_CHAIN e
  let s1 := if (s.ment e).exc && bound then (s.restartChain c false).add R.MFE_ENT_STATUS_RESTARTS 1 e else s
  match s1.sample e ab bc with
  | (y, s2) =>
    let s3 := if y.openWire && !s2.on R.MFE_ENT_STATUS_OPEN e then (s2.set R.MFE_ENT_STATUS_OPEN 1 e).mfeEvent 0 e else s2
    let s4 := if y.isOver then s3.mfeEvent 1 e else s3
    let s5 := s4.autoRange e ab y.isOver
    let isOpen := s5.on R.MFE_ENT_STATUS_OPEN e
    if isOpen || y.isOver then
      let s6 := if bound then s5.setChain c { s5.chain c with restart := true } else s5
      s6.result e none ((if isOpen then Flag.openWire else 0) + (if y.isOver then Flag.overRange else 0)) false
    else
      let s6 := s5.accumulate e y.e
      if bound then s6.chainResult e c y.e else s6.result e (some y.e) 0 false

/-- QUEUED shows the requests queued. -/
def State.syncUrgent (s : State) : State := s.set R.MFE_URGENT_QUEUED s.mfe.urg.length

/-- Run `act` with the excitation that the entry's dwell began with, which a write during it does not change (R445). -/
def State.withExc (s : State) (e : Nat) (act : State → State) : State :=
  match (s.ment e).held with
  | some h => (act (s.putExc e h)).putExc e (s.excNow e)
  | none => act s

/-- A regular dwell of entry `e` completes, with the excitation it began with (R445). -/
def State.regular (s : State) (e : Nat) (ab bc : List Int) : State :=
  let x := s.ment e
  let s1 := s.withExc e fun s => s.regularDwell e ab bc
  s1.setMent e { s1.ment e with exc := x.late, late := false, held := none }

/-- An urgent conversion of entry `e` with the excitation in force completes (R442). -/
def State.urgentDwell (s : State) (e : Nat) (ab bc : List Int) : State :=
  match s.sample e ab bc with
  | (y, s1) =>
    let s2 := s1.set R.MFE_LEAD_MOHM (s.get R.MFE_LEAD_MOHM e) e
    let s3 := ((s2.setS R.MFE_URG_RES_VALUE y.e).set R.MFE_URG_FLAGS_ENTRY e).set R.MFE_URG_FLAGS_OPEN_WIRE
      (b2n (y.openWire || s.on R.MFE_ENT_STATUS_OPEN e))
    ((s3.set R.MFE_URG_FLAGS_OVER (b2n y.isOver)).set R.MFE_URG_FLAGS_NEW 1).mfeEvent 6 e

/-- An urgent conversion of entry `e` completes, with the excitation it began with (R442, R445). -/
def State.urgentDone (s : State) (e : Nat) (ab bc : List Int) : State :=
  let s1 := s.withExc e fun s => s.urgentDwell e ab bc
  s1.setMent e { s1.ment e with held := none }

/-! ### Start and stop (R437, R439, R441) -/

/-- Another writer than the MFE holds a queue (R211): an endpoint of the structure in force, or an enabled product. -/
def State.queueTaken (s : State) (q : Nat) : Bool :=
  s.queueMapped q || (List.range 32).any fun r => s.on R.PCP_DEC_CTRL_EN r && decide (s.prodQueue r = q)

/-- The refusal of a record queue (R211, R456). -/
def State.recQueueCheck (s : State) (e : Nat) : List (Option Status) :=
  let q := s.get R.MFE_ENT_REC_QUEUE e
  if s.on R.MFE_ENT_REC_EN e then
    [refuseIf (decide (s.queueWorld q ≠ s.blockWorld 9)) .world, refuseIf (s.queueTaken q) .busy,
     refuseIf (decide (q < 256) || decide (s.qClass q ≠ 1) || !s.on R.QMX_Q_CFG_CLOSE_END q ||
       decide (s.get R.QMX_Q_CFG_STATION q ≠ s.get R.MFE_ENT_REC_STATION e)) .range]
  else []

/-- The refusal of SEQ_EN = 1 (R441). -/
def State.seqCheck (s : State) : Option Status :=
  let p := s.get R.MFE_SEQ_PERIOD_PERIOD
  let cs := s.boundChains
  let chainBad := cs.any fun c =>
    ((s.on R.MFE_CH_CFG_NOTCH50 c || s.on R.MFE_CH_CFG_NOTCH60 c) && decide (400000 % p ≠ 0)) ||
      (s.scs c && decide (12000000 % p ≠ 0)) || !s.mfeLeafOk (s.get R.MFE_CH_CFG_LEAF c)
  if s.get R.MFE_SEQ_CTRL_COUNT = 0 then none
  else pickStatus ([refuseIf (!s.on R.MFE_STATUS_REF_RDY || decide (s.get R.MFE_STATUS_STATE = 2)) .state,
    refuseIf (decide (64 < s.get R.MFE_SEQ_CTRL_COUNT)) .length,
    refuseIf (decide (s.frameSlots < s.usedSlots + s.get R.MFE_SEQ_CTRL_URG_SLACK) || twice cs || chainBad) .range] ++
    s.frameEntries.flatMap s.recQueueCheck)

/-- The spare replaces the next active slice in round robin, which becomes the spare (R438). -/
def State.swapSlice (s : State) (i : Nat) : State :=
  match ((List.range 5).map fun d => (s.mfe.rr + d) % 5).find? fun k => decide (s.get R.MFE_SLICE_ROLE k = 0) with
  | some k =>
    let s1 := ((s.set R.MFE_SLICE_ROLE 0 i).set R.MFE_SLICE_ROLE 1 k).set R.MFE_STATUS_SPARE k
    { s1 with mfe := { s1.mfe with rr := (k + 1) % 5 } }
  | none => s

/-- An entry boundary: a calibrated spare replaces the next active slice (R438). -/
def State.boundary (s : State) : State :=
  if s.mfe.swapDue then ({ s with mfe := { s.mfe with swapDue := false } } : State).swapSlice (s.get R.MFE_STATUS_SPARE) else s

/-- The sequencer starts: a synchronising reset of every chain, and suppression of the entries that feed one (R441, R451). -/
def State.seqStart (s : State) : State :=
  if s.get R.MFE_SEQ_CTRL_COUNT = 0 then s.set R.MFE_CTRL_SEQ_EN 0
  else
    let s1 := (s.set R.MFE_STATUS_STATE 1).each (List.range 64) fun s e => s.set R.MFE_ENT_STATUS_SUPPRESSED 0 e
    let s2 := s1.each (List.range 32) fun s c => s.restartChain c true
    { s2 with mfe := { s2.mfe with todo := [], slack := 0, sync := 0, stopping := false } }

/-- The sequencer stops. -/
def State.seqStop (s : State) : State :=
  let s1 := if s.mfeRuns then s.set R.MFE_STATUS_STATE 0 else s
  let s2 := (s1.set R.MFE_CTRL_SEQ_EN 0).each (List.range 64) fun s e =>
    let x := s.ment e
    s.setMent e { x with exc := x.exc || x.late, late := false, held := none }
  ({ s2 with mfe := { s2.mfe with todo := [], slack := 0, stopping := false } } : State).boundary

/-- SEQ_EN = 0: the sequencer stops at the end of the present dwell. -/
def State.seqEnd (s : State) : State :=
  if s.inDwell then { s with mfe := { s.mfe with todo := s.mfe.todo.take 1, stopping := true } } else s.seqStop

/-- The dwell in progress has ended. -/
def State.dwellEnd (s : State) : State := if s.mfe.stopping then s.seqStop else s.boundary

/-- REF_EN = 0 (R437): the reference is lost, and the sequencer stops at once. -/
def State.refOff (s : State) : State :=
  let lost := s.on R.MFE_STATUS_REF_RDY && s.on R.MFE_CTRL_SEQ_EN
  let s1 := s.set R.MFE_STATUS_REF_RDY 0
  let s2 := if lost then s1.mfeEvent0 8 else s1
  s2.seqStop

/-- A write of MFE_CTRL (R437, R441, R444): REF_EN acts before SEQ_EN. -/
def State.mfeCtrl (s : State) (w : World) (v : Nat) : State :=
  let was := s.on R.MFE_CTRL_SEQ_EN
  let ref := s.on R.MFE_CTRL_REF_EN
  let rail := R.MFE_CTRL_RAIL.of v
  let en := decide (R.MFE_CTRL_SEQ_EN.of v = 1)
  let refOn := decide (R.MFE_CTRL_REF_EN.of v = 1)
  let starts := en && !was
  let check := pickStatus [refuseIf (decide (rail < 16384 ∨ 32767 < rail)) .range,
    if starts then (if refOn || decide (s.get R.MFE_SEQ_CTRL_COUNT = 0) then s.seqCheck else some .state) else none]
  s.rowWrite w .MFE_CTRL 0 0 v check mfeLast 0 fun s =>
    let s1 := if ref ∧ ¬ refOn then (s.set R.MFE_CTRL_SEQ_EN (b2n was)).refOff else s
    if starts then s1.seqStart else if was ∧ ¬ en then s1.seqEnd else s1

/-- The good slices (R439). -/
def State.goodSlices (s : State) : Nat := popCount 5 (s.get R.MFE_STATUS_GOOD)

/-- The spare slice retires (R439). -/
def State.retireSlice (s : State) (i : Nat) : State :=
  let g := s.get R.MFE_STATUS_GOOD
  let s1 := ((s.set R.MFE_STATUS_GOOD (g - (g &&& 2 ^ i))).set R.MFE_SLICE_ROLE 3 i).mfeEvent 2 i
  if s1.goodSlices = 4 then s1.set R.MFE_STATUS_NO_SPARE 1
  else if s1.goodSlices < 4 then ((s1.seqStop).set R.MFE_STATUS_STATE 2).mfeEvent 3 i
  else s1

end Sys2Proof.Machine
end

