-- ==== Sys2Proof/Machine/TtcOps.lean ====
section
/-! DEFINITION. The motion controller (spec/18): link frames, the cycle of an axis and of a linear move, commands and faults. -/

open Sys2Proof

namespace Sys2Proof.Machine

/-! ### The motion link (R461 to R463) -/

/-- One bit through the CRC-8 of polynomial 07h. -/
def crc8Bit (c : Nat) (b : Bool) : Nat :=
  let top := b2n (c.testBit 7) != b2n b
  let d := c * 2 % 256
  if top then d ^^^ 7 else d

/-- The CRC-8 of bits [71:8] of a frame, taken in the order sent (R462). -/
def crc8 (f : Nat) : Nat := (List.range 64).foldl (fun c i => crc8Bit c (f.testBit (8 + i))) 0

/-- Send a frame to a driver: SYNC below, CRC above. -/
def State.sendFrame (s : State) (a body : Nat) : State :=
  let f := body * 256 + 0xA5
  s.emit (.motion a (leBytes 10 (f + crc8 f * 2 ^ 72)))

/-- The COIL field of a standstill mode: drive, off or short. -/
def coilBits (mode : Nat) : Nat := if mode = 2 then 1 else if mode = 3 then 2 else 0

/-- The MOVE frame of an axis (R462, R465). -/
def State.moveFrame (s : State) (a : Nat) : State :=
  let x := s.axis a
  let addr := (x.prof.at % 1024).toNat
  let coil := if x.holding then coilBits x.coil else 0
  let s1 := s.sendFrame a (addr * 2 ^ 4 + s.get R.TTC_AX_STATUS_CURRENT a * 2 ^ 14 + coil * 2 ^ 22 + x.cyc * 2 ^ 24)
  s1.setAxis a { x with cyc := (x.cyc + 1) % 256 }

/-- The TABLE frame of the next entry (R462, R464). -/
def State.tableFrame (s : State) (a : Nat) : State :=
  let x := s.axis a
  let e := s.leafLe (0x3B00000 + 4 * x.table) 4
  (s.sendFrame a (1 + x.table * 2 ^ 4 + bits e 0 12 * 2 ^ 14 + bits e 16 12 * 2 ^ 26)).setAxis a { x with table := x.table + 1 }

/-- The frame of this cycle (R462, R463). -/
def State.linkFrame (s : State) (a : Nat) : State :=
  if s.axState a = Ax.link then (if (s.axis a).table < 1024 then s.tableFrame a else s.sendFrame a 3)
  else s.moveFrame a

/-! ### The cycle (R462, R465, R466, R468) -/

/-- The position register shows the profile. -/
def State.syncPos (s : State) (a : Nat) : State := s.setS R.TTC_AX_POS (s.axis a).prof.at a

/-- A move has ended: the event follows at the end of the cycle, and the SETTLE wait of a back-up move begins (R467, R471). -/
def State.moveEnd (s : State) (a : Nat) : State :=
  let x := s.axis a
  let s1 := s.setAxis a { x with prof := { x.prof with goal := .rest }, settling := x.back.isSome, inLin := false, ended := true }
  s1.set R.TTC_AX_STATUS_STATE Ax.still a

/-- A cycle begins for an axis: the move that ended in the last one raises its event, unless a fault met it (R467, spec/18 Meetings), and a
cycle without a good STATUS frame ends a run of stalls (R474). -/
def State.cycleStart (s : State) (a : Nat) : State :=
  let x := s.axis a
  let s1 := s.setAxis a { x with ended := false, startV := x.prof.v, stallRun := if x.missed = 0 then x.stallRun else 0 }
  if x.ended then s1.raise (evMoveDone a) else s1

/-- An axis whose profile has met its goal. -/
def State.goalMet (s : State) (a : Nat) : State :=
  let x := s.axis a
  if s.axState a ≠ Ax.moving ∨ x.inLin = true ∨ x.prof.done = false then s
  else
    match x.prof.goal with
    | .pos _ => s.moveEnd a
    | .vel v => s.set R.TTC_AX_STATUS_STATE (if v = 0 then Ax.still else Ax.atVelocity) a
    | _ => s.set R.TTC_AX_STATUS_STATE Ax.still a

/-! The limits VMAX, AMAX and JMAX of an axis in the units of a profile (R466). -/
def State.velLimit (s : State) (a : Nat) : Nat := s.get R.TTC_AX_VMAX_VMAX a * cyc * cyc
def State.accLimit (s : State) (a : Nat) : Nat := s.get R.TTC_AX_AMAX_AMAX a * cyc
def State.jerkLimit (s : State) (a : Nat) : Nat := 1000 * s.get R.TTC_AX_JMAX_JMAX a

/-- One cycle of the profile of an axis that moves on its own. -/
def State.cycleAxis (s : State) (a : Nat) : State :=
  let x := s.axis a
  if x.inLin ∨ s.axReady a = false then s
  else
    let p := x.prof.cycle (s.velLimit a) (s.accLimit a) (s.jerkLimit a)
    ((s.setAxis a { x with prof := p }).goalMet a).syncPos a

/-- The place of axis `a` on the path of a linear move (R468). -/
def Lin.place (l : Lin) (a : Nat) (x : Profile) : Profile :=
  let c : Nat := cyc * cyc * cyc
  let d := SMap.get l.deltas 0 a
  let pos := SMap.get l.starts 0 a + roundDivI (l.path.p * d) (c * l.lead)
  { x with p := pos * c, v := roundDivI (l.path.v * d) l.lead, a := roundDivI (l.path.a * d) l.lead, goal := .rest }

/-- One cycle of the linear move: every axis takes its place, and all arrive together (R468). -/
def State.cycleLin (s : State) : State :=
  match s.ttc.lin with
  | none => s
  | some l =>
    let l1 : Lin := { l with path := l.path.cycle l.vmax l.amax l.jmax }
    let ax := l.starts.map (·.1)
    let s1 := s.each ax fun s a => (s.setAxis a { s.axis a with prof := l1.place a (s.axis a).prof }).syncPos a
    if l1.path.done then
      ({ s1 with ttc := { s1.ttc with lin := none } } : State).each ax State.moveEnd
    else { s1 with ttc := { s1.ttc with lin := some l1 } }

/-! ### Commands (R467, R468) -/

/-- The last refused command or write of an axis. -/
abbrev axLast : Option Fld := some R.TTC_AX_STATUS_LAST_STATUS

/-- The refusals of R467 that every command shares. -/
def State.axisCheck (s : State) (a : Nat) : List (Option Status) :=
  [refuseIf (!s.axReady a || s.on R.TTC_AX_STATUS_PACED a) .state,
   refuseIf (decide (s.get R.TTC_AX_AMAX_AMAX a = 0) || decide (s.get R.TTC_AX_JMAX_JMAX a = 0)) .range]

/-- A command of an axis: a write of TTC_AX_CMD with GO = 1 and OP (R467). A linear move that the axis is part of stops first
(R468). -/
def State.axisCmd (s : State) (w : World) (a op : Nat) (own : List (Option Status)) (act : State → State) : State :=
  s.rowWrite w .TTC_AX_CMD a 0 (op + 2 ^ 31) (pickStatus (s.axisCheck a ++ own)) axLast a fun s =>
    act (s.stopLin a)

/-- The target of an axis. -/
def State.axTarget (s : State) (a : Nat) : Int := toSigned 48 (s.get R.TTC_AX_TARGET_TARGET a)

/-- The smallest over the axes of limit × |Δ_L| / |Δ|, an axis that does not move not counted. -/
def pathLimit (lead : Nat) (xs : List (Nat × Nat)) : Nat :=
  let ls := (xs.filter fun e => e.2 ≠ 0).map fun e => e.1 * lead / e.2
  match ls with
  | [] => 0
  | l :: r => r.foldl min l

/-- The linear move of axes at rest to their targets begins (R468). -/
def State.beginLin (s : State) (ts : List (Nat × Int)) : State :=
  let ds := ts.map fun e => (e.1, e.2 - (s.axis e.1).prof.at)
  let lead := ds.foldl (fun m d => max m d.2.natAbs) 0
  if lead = 0 then s
  else
    let lim (f : Nat → Nat) : Nat := pathLimit lead (ds.map fun d => (f d.1, d.2.natAbs))
    let l : Lin := {
      path := { goal := .pos lead }
      starts := ts.foldl (fun m e => SMap.insert m e.1 (s.axis e.1).prof.at) []
      deltas := ds.foldl (fun m d => SMap.insert m d.1 d.2) []
      lead := lead
      vmax := lim s.velLimit
      amax := lim s.accLimit
      jmax := lim s.jerkLimit }
    let s1 := s.each (ts.map (·.1)) fun s a => (s.aim a .rest).setAxis a { (s.aim a .rest).axis a with inLin := true }
    { s1 with ttc := { s1.ttc with lin := some l } }

/-- A linear move whose axes have come to rest begins; one with an axis that has become paced or lost its link is given up (R467, R468). -/
def State.dueLin (s : State) : State :=
  let ts := s.ttc.due
  if ts.any fun e => !s.axReady e.1 || s.on R.TTC_AX_STATUS_PACED e.1 then { s with ttc := { s.ttc with due := [] } }
  else if ts ≠ [] ∧ (ts.all fun e => s.axStandstill e.1) = true then
    ({ s with ttc := { s.ttc with due := [] } } : State).beginLin ts
  else s

/-- The linear move of the axes of a mask (R468). Axes that move come to rest first under R466, and the path starts where they stand
(DESIGN CHOICE, log 55). -/
def State.startLin (s : State) (mask : Nat) : State :=
  let ax := axes4.filter fun a => bit mask a
  let s0 := s.each ax State.stopLin
  let s1 := s0.each ax fun s a => if s.axStandstill a then s else s.axisStop a
  ({ s1 with ttc := { s1.ttc with due := ax.map fun a => (a, s.axTarget a) } } : State).dueLin

/-! ### Faults (R474) -/

/-- A fault of an axis; one of a paced axis before step 6 of a restart fails the restart with `c` (R197, R474). In SCANNING and PAUSED the
station keeps its state, which only an abort then ends. -/
def State.faultWith (s : State) (a kind : Nat) (c : Status) : State :=
  let s0 := s.axisFault a kind
  match s.pacer a with
  | some n =>
    let s1 := if s.stState n = St.scanning ∨ s.stState n = St.paused then s0.setStation n { s0.station n with axisDown := true } else s0
    let open_ := (s.sto n).restart && decide (s.stState n = St.paused ∨ s.stState n = St.rewinding) &&
      decide (s.get R.SST_ST_REW_STATUS_PHASE n ≠ 7)
    if open_ then s1.rewindFail n c else s1
  | none => s0

/-- A fault of R474 (R197): ABSENT for kind LINK. -/
def State.faultAxis (s : State) (a kind : Nat) : State := s.faultWith a kind (if kind = 3 then .absent else .state)

/-- The profile velocity is at least VMAX / 16, at the start or at the end of the cycle. -/
def State.fast (s : State) (a : Nat) : Bool :=
  let x := s.axis a
  decide (s.get R.TTC_AX_VMAX_VMAX a * cyc * cyc ≤ 16 * max x.prof.v.natAbs x.startV.natAbs)

/-- Load-adaptive current (R472). -/
def State.adapt (s : State) (a load : Nat) : State :=
  let x := s.axis a
  let c := s.get R.TTC_AX_STATUS_CURRENT a
  if ¬ s.on R.TTC_AX_CTRL_ADAPT a ∨ (s.axState a ≠ Ax.moving ∧ s.axState a ≠ Ax.atVelocity) then s
  else
    let low := if load < s.get R.TTC_AX_LOAD_LOAD_LO a then x.lowLoad + 1 else 0
    if s.get R.TTC_AX_LOAD_LOAD_HI a < load then
      let c1 := min (c + 8) (s.get R.TTC_AX_CUR_IRUN_MAX a)
      (s.setAxis a { x with lowLoad := low, run := c1 }).set R.TTC_AX_STATUS_CURRENT c1 a
    else if 256 ≤ low then
      let c1 := max (c - 1) (s.get R.TTC_AX_CUR_IRUN_MIN a)
      (s.setAxis a { x with lowLoad := 0, run := c1 }).set R.TTC_AX_STATUS_CURRENT c1 a
    else s.setAxis a { x with lowLoad := low }

/-- A good STATUS frame (R462, R463, R472, R474). -/
def State.goodStatus (s : State) (a f : Nat) : State :=
  let load := bits f 20 10
  let flags := bits f 30 6
  let x := s.axis a
  let ok := bit flags 5
  let run := if ok ∧ s.axState a = Ax.link ∧ x.table = 1024 then x.goodRun + 1 else 0
  let stall := (bit flags 0 || decide (load = 1023)) && s.fast a
  let s1 := s.setAxis a { x with missed := 0, goodRun := run, stallRun := if stall then x.stallRun + 1 else 0 }
  let s2 := ((s1.set R.TTC_AX_DRV_LOAD load a).set R.TTC_AX_DRV_FLAGS flags a).set R.TTC_AX_DRV_TEMP (bits f 40 8) a
  let s3 := s2.adapt a load
  if s.axState a = Ax.fault then s3
  else if stall ∧ 4 ≤ x.stallRun + 1 then s3.faultAxis a 1
  else if bits flags 1 4 ≠ 0 then s3.faultAxis a 2
  else if 16 ≤ run then s3.set R.TTC_AX_STATUS_STATE Ax.still a
  else s3

end Sys2Proof.Machine
end

