-- ==== Sys2Proof/Machine/ThmOps.lean ====
section
/-! DEFINITION. Thermal management (spec/19): sensors, samples, warning and throttle, the throttle level and shutdown. Temperatures are
in 1/8 °C. -/

open Sys2Proof

namespace Sys2Proof.Machine

def evWarn : Nat := 1432
def evThrottle : Nat := 1433
def evLevel : Nat := 1434
def evSensor : Nat := 1435
def evShutdown : Nat := 1436
def evTrimHold : Nat := 1437

def State.setThm (s : State) (x : Thm) : State := { s with thm := x }

/-- T_THR (R478). -/
def State.tThr (s : State) : Int := s.getS R.THM_THR_THROT_LEVEL

/-- The fields that follow THM_FAIL.MASK (spec/19): COUNT and the sensors' FAILED bits. -/
def State.syncFail (s : State) : State :=
  let m := s.get R.THM_FAIL_MASK
  (s.set R.THM_FAIL_COUNT (popCount 24 m)).each (List.range 24) fun s i => s.set R.THM_SNS_FAILED (b2n (bit m i)) i

/-- A reading that fails its sensor (R477): no reading, below −64 °C or above 160 °C. -/
def badReading : Option (BitVec 16) → Bool
  | none => true
  | some r => decide (r.toInt < -512 ∨ 1280 < r.toInt)

/-- Judge the sensors of a sweep (R476 to R478): failures latch; a failed sensor shows T_THR + 1. -/
def State.judgeSensors (s : State) (r : List (Option (BitVec 16))) : State :=
  let old := s.get R.THM_FAIL_MASK
  let bad := (List.range 24).foldl (fun m i => if badReading (r.getD i none) then m ||| 2 ^ i else m) 0
  let m := old ||| bad
  let s1 := (s.set R.THM_FAIL_MASK m).syncFail
  let s2 := if m ≠ old then s1.raise evSensor else s1
  s2.each (List.range 24) fun s i =>
    match bit m i, r.getD i none with
    | false, some x => (s.setS R.THM_SNS_TEMP x.toInt i).set R.THM_SNS_VALID 1 i
    | _, _ => (s.setS R.THM_SNS_TEMP (s.tThr + 1) i).set R.THM_SNS_VALID 0 i

/-- The sensor with the largest value, the lower number on a tie (R476). -/
def State.hottest (s : State) : Nat :=
  (List.range 24).foldl (fun m i => if s.getS R.THM_SNS_TEMP m < s.getS R.THM_SNS_TEMP i then i else m) 0

/-- A valid reading of the sweep is at or above a level. -/
def State.validAbove (s : State) (l : Int) : Bool :=
  (List.range 24).any fun i => s.on R.THM_SNS_VALID i && decide (l ≤ s.getS R.THM_SNS_TEMP i)

/-- Set the throttle level (R481): THROTTLE mirrors it, and a change raises the event. -/
def State.setLevel (s : State) (t : Nat) : State :=
  if s.throttle = t then s else ((s.set R.THM_STATUS_LEVEL t).set R.SCU_ADM_STATUS_THROTTLE t).raise evLevel

def State.enterWarn (s : State) : State :=
  if s.on R.THM_STATUS_WARN then s else (s.set R.THM_STATUS_WARN 1).raise evWarn

/-- Entry to throttle (R479, R481). -/
def State.enterThrottle (s : State) : State :=
  let s1 := (s.set R.THM_STATUS_THROT 1).raise evThrottle
  (s1.setLevel (max s1.throttle (s1.get R.THM_CTRL_TMIN))).enterWarn

/-- Throttle by the sample `m` (R479). -/
def State.judgeThrottle (s : State) (m : Int) : State :=
  let x := s.thm
  if s.on R.THM_STATUS_THROT then
    let d := if m < s.tThr - (s.get R.THM_CTRL_HYST : Nat) then x.thrDown + 1 else 0
    if 4 ≤ d then ((s.setThm { x with thrDown := 0, thrUp := 0 }).set R.THM_STATUS_THROT 0).raise evThrottle
    else s.setThm { x with thrDown := d, thrUp := 0 }
  else
    let u := if s.tThr ≤ m then x.thrUp + 1 else 0
    if 4 ≤ u then (s.setThm { x with thrUp := 0, thrDown := 0 }).enterThrottle else s.setThm { x with thrUp := u, thrDown := 0 }

/-- Warning by the sample `m` (R479): it does not end while throttle is in force. -/
def State.judgeWarn (s : State) (m : Int) : State :=
  let x := s.thm
  let w := s.getS R.THM_THR_WARN_LEVEL
  if s.on R.THM_STATUS_WARN then
    let d := if m < w - (s.get R.THM_CTRL_HYST : Nat) then min 4 (x.warnDown + 1) else 0
    if 4 ≤ d ∧ s.on R.THM_STATUS_THROT = false then
      ((s.setThm { x with warnDown := 0, warnUp := 0 }).set R.THM_STATUS_WARN 0).raise evWarn
    else s.setThm { x with warnDown := d, warnUp := 0 }
  else
    let u := if w ≤ m then x.warnUp + 1 else 0
    if 4 ≤ u then (s.setThm { x with warnUp := 0, warnDown := 0 }).enterWarn else s.setThm { x with warnUp := u, warnDown := 0 }

/-! ### Shutdown (R483) -/

/-- An axis at shutdown: FAULT with its coils in FAULT_MODE; R483 names no KIND (log 3). -/
def State.shutAxis (s : State) (a : Nat) : State :=
  let k := Config.freeKind s.fresh % 8
  s.takeFresh.2.faultWith a k .state

/-- Shutdown (R483, R484, R543, R553): the trip, THERMAL_LATCH, and every axis into FAULT; a boot in progress stops and a command that
runs ends with STATE. Gates are low from here on; the domain entries and the transmitters follow the device state. -/
def State.shutdown (s : State) : State :=
  let s1 := (s.emit (.pin "THERM_TRIP_N" 0 0)).set R.THM_STATUS_TRIP 1
  let s2 := (s1.setDev Dev.thermalLatch).raise evShutdown
  let s3 := ((s2.gatesLow channels96).each axes4 State.shutAxis).each [0, 1] fun s r => s.endRunning r fun _ => true
  { s3 with smc := { s3.smc with hbmRun := false, wbRun := false, hbmRefresh := true },
            pace := { s3.pace with waits := s3.pace.waits.filter (· ≠ .boot) } }

/-- The shutdown condition of a sweep: four in a row with a valid reading at 115 °C, or 12 failed sensors (R478). -/
def State.judgeShutdown (s : State) : State :=
  let n := if s.validAbove (s.getS R.THM_THR_SHUT_LEVEL) then min 4 (s.thm.shut + 1) else 0
  let s1 := s.setThm { s.thm with shut := n }
  if s1.on R.THM_STATUS_TRIP = false ∧ (4 ≤ n ∨ 12 ≤ s1.get R.THM_FAIL_COUNT) then s1.shutdown else s1

end Sys2Proof.Machine
end

