-- ==== Sys2Proof/Machine/BootOps.lean ====
section
/-! DEFINITION. Reset domains and boot (spec/20, spec/22, spec/24): what a reset keeps, the firmware manifests and their checks, the
boot stages, and the world map (R495, R499, R534). -/

open Sys2Proof

namespace Sys2Proof.Machine

/-! ### Reset domains (R548, R574) -/

/-- What is held in fuses and was blown since the part was delivered: OWNER, the owner digest and the SVN counters (R493, R503). -/
def fuseKeys : List Nat :=
  R.SMC_ID_CFG_OWNER.key 0 0 :: R.SMC_FW_SVN_CAB.key 0 0 :: R.SMC_FW_SVN_WB.key 0 0 ::
    (List.range 12).map fun i => R.SMC_OWNER_DIG_DIGEST.key i 0

/-- The fields of domain POR, and those of domain LINK that stand in the register space (R574). STEP reads 0h in RESET. -/
def keptKeys : List Nat :=
  (List.range 24).map (fun i => R.THM_SNS_FAILED.key i 0) ++
  [R.SMC_BOOT_STATUS_HBM_OK, R.SMC_BOOT_STATUS_HBM_FAIL, R.SMC_BOOT_STATUS_VCORE_FAIL, R.SMC_BOOT_STATUS_BASE_TEMP,
    R.SMC_BOOT_TIME_MS, R.SMC_VFIT_STATUS_VSET, R.THM_FAIL_MASK, R.THM_FAIL_COUNT, R.HIF_STATUS_SPEED,
    R.HIF_STATUS_WIDTH].map fun f => f.key 0 0

/-- Every register of the keys given keeps its value, every other register and every memory is at reset; the fused KEK the level
of PERST_N, the reference clocks and the HBM's self-refresh stay, and the queue of commands and what has been sent are no state of the device. -/
def State.clearedBut (s : State) (keys : List Nat) : State :=
  { State.reset with
    pending := s.pending, out := s.out, fresh := s.fresh, regs := s.regs.filter (fun e => keys.contains e.1),
    smc := { State.reset.smc with kek := s.smc.kek, perst := s.smc.perst, refGone := s.smc.refGone,
                                  hbmRefresh := s.smc.hbmRefresh } }

/-- A reset of domains DEVICE and LINK by DEV_RESET, the PCI Express link and configuration space apart (R548). -/
def State.resetDevice (s : State) : State :=
  let s1 := s.clearedBut (fuseKeys ++ keptKeys ++ [R.THM_STATUS_TRIP.key 0 0])
  ({ s1 with hif := { s1.hif with unmasked := s.hif.unmasked, pba := s.hif.pba, last := s.hif.last } } : State).set
    R.SMC_DEV_STATE_STATE Dev.reset

/-- A reset of domains POR, DEVICE and LINK (R548): fuses and TRIP stay, and THERMAL_LATCH stands until VCORE is removed (R524). -/
def State.resetAll (s : State) : State :=
  (s.clearedBut (fuseKeys ++ [R.THM_STATUS_TRIP.key 0 0])).set R.SMC_DEV_STATE_STATE
    (if s.dev = Dev.thermalLatch then Dev.thermalLatch else Dev.reset)

end Sys2Proof.Machine

namespace Sys2Proof

/-! ### Firmware manifests (R500) -/

def FwObs.kind (o : FwObs) : Nat := Machine.field o.bytes 4 1
def FwObs.svn (o : FwObs) : Nat := Machine.field o.bytes 5 1
def FwObs.nR (o : FwObs) : Nat := Machine.field o.bytes 6 2
def FwObs.ver (o : FwObs) : Nat := Machine.field o.bytes 8 4
def FwObs.bodyLen (o : FwObs) : Nat := Machine.field o.bytes 12 4

/-- The range entries (R301): interface, MIN, MAX. -/
def FwObs.ranges (o : FwObs) : List (Nat × Nat × Nat) :=
  (List.range o.nR).map fun i =>
    let a := 64 + 16 * i
    (Machine.field o.bytes a 1, Machine.field o.bytes (a + 4) 4, Machine.field o.bytes (a + 8) 4)

/-- The largest body of a kind. -/
def fwBodyMax (kind : Nat) : Nat := if kind = 1 then 98304 else if kind = 2 then 33553408 else 8

/-- The manifest has the form of R500 for its kind. -/
def FwObs.formed (o : FwObs) (kind : Nat) : Bool :=
  decide (o.bytes.take 4 = [0x56, 0x43, 0x46, 0x57]) && decide (o.kind = kind) && decide (o.svn ≤ 63) && decide (o.nR ≤ 16) &&
    decide (o.bodyLen ≤ fwBodyMax kind)

/-- The bytes a signature covers, its block, and whether the body has its digest (R500). -/
def FwObs.manifest (o : FwObs) : List Nat := o.bytes.take (64 + 16 * o.nR)
def FwObs.sigBlock (o : FwObs) : List Nat := (o.bytes.drop (64 + 16 * o.nR)).take 200
def FwObs.digOk (o : FwObs) : Bool :=
  decide (Machine.sha384Num (o.body.take o.bodyLen) = Machine.beNum ((o.bytes.drop 16).take 48))

/-- Form, body digest and the signature of the Nelpanas firmware key; a failure of any is reported as INTEGRITY (R500, R504). -/
def FwObs.sound (o : FwObs) (kind : Nat) : Bool :=
  o.formed kind && o.digOk && Machine.keySigns Config.romKeyDigest o.sigBlock o.manifest

/-- What a measurement covers: bytes 0 to the end of the signature (R509). -/
def FwObs.measured (o : FwObs) : List Nat := o.bytes.take (64 + 16 * o.nR + 200)

/-- The range of an interface. -/
def FwObs.rangeOf (o : FwObs) (iface : Nat) : Nat × Nat :=
  match o.ranges.find? fun r => r.1 = iface with
  | some r => r.2
  | none => (1, 0)

/-- A range holds a version. -/
def inRange (r : Nat × Nat) (v : Nat) : Bool := decide (r.1 ≤ v) && decide (v ≤ r.2)

/-- The interfaces a manifest carries (R504): a missing one is refused with VERSION, a repeated or unknown one with RANGE. -/
def FwObs.ifaceCheck (o : FwObs) (need : List Nat) : Option Machine.Status :=
  let fs := o.ranges.map (·.1)
  Machine.pickStatus [
    Machine.refuseIf (decide (fs.eraseDups.length ≠ fs.length) || (fs.any fun f => decide (f = 0) || decide (4 < f))) .range,
    Machine.refuseIf (need.any fun f => !fs.contains f) .version]

end Sys2Proof

namespace Sys2Proof.Machine

/-! ### Boot (R501 to R507, R550 to R552) -/

/-- A firmware object or the policy record is refused (R504, R516). -/
def State.fwRefused (s : State) (c : Status) : State := (s.set R.SMC_FW_STATUS_LAST_STATUS c.code).raise Ev.firmwareRefused

/-- The checks of the boot ROM and the Cabinet on an object that carries an SVN (R501, R502, R503). -/
def fwCheck (o : FwObs) (kind counter : Nat) : Option Status :=
  if o.sound kind = false then some .integrity else if o.svn < counter then some .version else none

/-- Boot stops at stage Fh, `ms` after the rise of POR_N (R550). -/
def State.bootStop (s : State) (ms : Nat) : State :=
  if s.get R.SMC_BOOT_STATUS_STEP = 15 then s
  else (s.set R.SMC_BOOT_STATUS_STEP 15).setSat R.SMC_BOOT_TIME_MS ms

/-- The device stays in BARE and serves its ring as a repeater (R507). -/
def State.stayBare (s : State) (ms : Nat) : State :=
  if s.get R.SMC_BOOT_STATUS_STEP = 15 then s else (s.bootStop ms).startKru

/-- Both conditions of stage 4h have passed: IDLE (R550). A device in FAULT stays there (R524). -/
def State.bootDone (s : State) (ms : Nat) : State :=
  if s.smc.hbmOk ∧ s.smc.wbOk ∧ s.get R.SMC_BOOT_STATUS_STEP = 4 then
    let s1 := (s.set R.SMC_BOOT_STATUS_STEP 5).setSat R.SMC_BOOT_TIME_MS ms
    if s1.dev = Dev.bare then s1.setDev Dev.idle else s1
  else s

/-- The policy record passes its form, its body digest and the owner's signature over bytes 0 to the end of its ranges (R500,
R505). -/
def State.policySound (s : State) (o : FwObs) : Bool :=
  o.formed 3 && o.digOk && s.ownerSig o.sigBlock o.manifest

/-- The Cabinet loads the policy record (R505), which is ignored while no owner is enrolled (R494). -/
def State.loadPolicy (s : State) (policy : Option FwObs) : State :=
  match policy with
  | none => s
  | some o =>
    if s.get R.SMC_ID_CFG_OWNER ≠ 1 then s
    else if s.policySound o then
      (s.set R.SMC_POLICY_ALLOW_UNTESTED (o.body.headD 0 % 2)).set R.SMC_POLICY_POLICY_SRC 1
    else s.fwRefused .integrity

/-- Stage 3h (R551, R514): VOUT_MODE reads `mode`; VMAX is written and its read-back awaited. -/
def State.bootVcore (s : State) (mode : Nat) : State :=
  let s1 := (s.set R.SMC_BOOT_STATUS_STEP 3).pmbus 0x20 0
  if mode / 32 = 0 then ({ s1 with pace := { s1.pace with vexp := mode % 32 } } : State).raiseVmax .boot
  else (s1.set R.SMC_PMB_STATUS_MODE_ERR 1).bootVcoreFail

/-- Cabinet copy `copy` runs (R504 to R507, R550, R553). A device in FAULT stays there (R524). -/
def State.runCabinet (s : State) (copy : Nat) (o : FwObs) (policy : Option FwObs) (mode flash ms : Nat) : State :=
  let s0 : State := { s with smc := { s.smc with cabRuns := true } }
  let s1 := ((if s.dev = Dev.fault then s0 else s0.setDev Dev.bare).set R.SMC_FW_STATUS_CAB_COPY copy).set R.SMC_BOOT_STATUS_STEP 2
  let s2 := (s1.set R.SMC_BOOT_STATUS_BASE_TEMP (s1.get R.THM_STATUS_MAX)).set R.SMC_FW_CAB_VER_VER o.ver
  let s3 : State := { s2 with smc := { s2.smc with cabSvn := o.svn, flashSize := flash, cabWb := o.rangeOf 3 } }
  let s4 := (s3.setMeas 2 (sha384 o.measured)).loadPolicy policy
  match o.ifaceCheck [1, 3] with
  | some c => (s4.fwRefused c).stayBare ms
  | none =>
    if inRange (o.rangeOf 1) (s4.get R.SMC_ID_REV_REV) then s4.bootVcore mode
    else if s4.on R.SMC_POLICY_ALLOW_UNTESTED then ((s4.set R.SMC_POLICY_UNV_CAB 1).syncCombo).bootVcore mode
    else (s4.fwRefused .version).stayBare ms

/-- The boot ROM has read both copies (R501). -/
def State.verifyCabinet (s : State) (a b : FwObs) (policy : Option FwObs) (mode flash ms : Nat) : State :=
  let n := s.get R.SMC_FW_SVN_CAB
  match fwCheck a 1 n with
  | none => s.runCabinet 0 a policy mode flash ms
  | some c =>
    let s1 := s.fwRefused c
    match fwCheck b 1 n with
    | none => s1.runCabinet 1 b policy mode flash ms
    | some d => (s1.fwRefused d).bootStop ms

/-- The Workbench starts (R502, R504, R506). -/
def State.startWorkbench (s : State) (o : FwObs) (policy : Bool) (ms : Nat) : State :=
  let s1 := ((s.set R.SMC_FW_STATUS_WB_STATE (if policy then 4 else 1)).set R.SMC_FW_WB_VER_VER o.ver).set R.SMC_POLICY_UNV_WB
    (b2n policy)
  let s2 : State := { s1.syncCombo with smc := { s1.syncCombo.smc with wbSvn := o.svn, wbOk := true } }
  (s2.setMeas 3 (sha384 o.measured)).bootDone ms

/-- The Workbench is refused (R504, R507). -/
def State.refuseWorkbench (s : State) (c : Status) (ms : Nat) : State :=
  let st := if c = .integrity then 2 else if c = .version then 3 else 0
  ((s.set R.SMC_FW_STATUS_WB_STATE st).fwRefused c).stayBare ms

/-- Every combination the Workbench names was tested (R504). -/
def State.wbTested (s : State) (o : FwObs) : Bool :=
  inRange s.smc.cabWb o.ver && inRange (o.rangeOf 1) (s.get R.SMC_ID_REV_REV) && inRange (o.rangeOf 2) (s.get R.SMC_FW_CAB_VER_VER)

/-- The Cabinet's checks of the Workbench (R502 to R504). -/
def State.checkWorkbench (s : State) (o : FwObs) (ms : Nat) : State :=
  match (fwCheck o 2 (s.get R.SMC_FW_SVN_WB)).or (o.ifaceCheck [1, 2]) with
  | some c => s.refuseWorkbench c ms
  | none =>
    if s.wbTested o then s.startWorkbench o false ms
    else if s.on R.SMC_POLICY_ALLOW_UNTESTED then s.startWorkbench o true ms
    else s.refuseWorkbench .version ms

/-! ### The world map (R495, R499, R534) -/

/-- Targets of a kind of the world map, in its row order; 0 for no kind. -/
def targetCount (kind : Nat) : Nat :=
  match kind with
  | 1 => 11 | 2 => 96 | 3 => 512 | 4 => 256 | 5 => 4 | 6 => 32768 | 7 => 4369 | _ => 0

/-- The map field of a kind. -/
def targetMap (kind : Nat) : Fld :=
  match kind with
  | 1 => R.SMC_WMAP_BLK_BLOCKS
  | 2 => R.SMC_WMAP_PORT_MAP
  | 3 => R.SMC_WMAP_ENG_MAP
  | 4 => R.SMC_WMAP_QR_MAP
  | 5 => R.SMC_WMAP_ETH_PORTS
  | 6 => R.SMC_WMAP_HBM_MAP
  | _ => R.SMC_WMAP_OC_MAP

/-- A shelf of the HBM lies in a region of a station outside IDLE or in an overflow run (R495). -/
def State.shelfInUse (s : State) (n : Nat) : Bool :=
  (stations8.any fun k => s.stBusy k && runsMeet (s.get R.SST_ST_REGION_BASE_PAGE k) (32 * s.get R.SST_ST_REGION_SIZE_SHELVES k)
    (32 * n) 32) ||
  (s.inForce && s.image.topo.any fun t => runsMeet t.ovfPage t.ovfPages (32 * n) 32)

/-- An on-chip shelf holds a page of a leaf, bank or table in use (R139, R181, R422, R454, R495). -/
def State.ocInUse (s : State) (n : Nat) : Bool :=
  if n < 4096 then s.pageInUse n
  else if n < 4112 then (List.range 32).any fun i => s.firInUse (32 * (n - 4096) + i)
  else if n < 4304 then
    let j := (n - 4112) / 12
    decide (s.get R.ILC_GRP_BANK_ACTIVE (j / 2) = j % 2) || s.on R.ILC_GRP_BANK_HELD (j / 2)
  else if n < 4368 then s.mfeLeafBusy (n - 4304)
  else axes4.any fun a => s.on R.TTC_AX_CTRL_EN a

/-- A target is in use (R495). -/
def State.targetInUse (s : State) (kind n : Nat) : Bool :=
  match kind with
  | 1 => stations8.any s.stBusy
  | 2 => let p := s.portState n
         !(decide (p = Port.down) || decide (p = Port.refused) || decide (p = Port.failed) || decide (p = Port.disabled))
  | 3 => decide (s.engState n ≠ Eng.unbound)
  | 4 => ((List.range 1024).any fun i => s.on R.QMX_Q_CFG_EN (1024 * n + i)) ||
         (s.inForce && s.image.qmap.any fun q => decide (q.queue / 1024 = n))
  | 5 => (List.range 64).any fun c => s.on R.HIF_ST_CTRL_EN c && !s.isDma c && decide (s.get R.HIF_ST_CTRL_PORT c = n)
  | 6 => s.shelfInUse n
  | _ => s.ocInUse n

/-- Put a target into a world. -/
def State.setTarget (s : State) (kind n world : Nat) : State :=
  let f := targetMap kind
  let i := n / 32
  let m := s.get f i
  let b := 2 ^ (n % 32)
  s.set f (m - (m &&& b) + world * b) i

/-- WORLD_SET (R499, R534), its checks in the order of R540; a KIND that names no map leaves nothing to check (log 30). -/
def State.worldSet (s : State) (kind world first count : Nat) : CmdEnd :=
  if kind = 0 ∨ 7 < kind ∨ (count = 0 ∧ 1 < world) then .refused .range noAddr 0
  else if count = 0 then .ok s []
  else
    let ts := (List.range count).map (first + ·)
    let addr := (targetMap kind).base + 4 * (first / 32)
    if targetCount kind < first + count then .refused .length addr 0
    else if ts.any (s.targetInUse kind) then
      .reported ((s.addSat R.SMC_WMAP_STATUS_REFUSED 1).raise Ev.mapRefused) .busy addr 0
    else if 1 < world then .refused .range noAddr 0
    else if kind = 6 ∧ 32512 < first + count then .refused .range addr 0
    else .ok (s.each ts fun s n => s.setTarget kind n world).syncMeas []

end Sys2Proof.Machine
end

