-- ==== Sys2Proof/Machine/RegOps.lean ====
section
/-! DEFINITION. Control-space accesses to registers that have no row of their own (R10, R11, R39, R576): the checks of a write, what
follows from it, and what a read returns and latches. -/

namespace Sys2Proof.Machine

/-! ### Event sources and worlds (R393, R394) -/

/-- Whether the block that raises a source is secure; the sources of mailbox ring 1 are secure at all times (R518). -/
def State.sourceSecure (s : State) (n : Nat) : Bool :=
  let b (k : Nat) : Bool := decide (s.blockWorld k = .secure)
  if n < 1024 then b 1
  else if n < 1216 then b 2
  else if n < 1248 then (if n % 4 < 2 then b 1 else b 5)
  else if n < 1280 then (if n % 4 < 2 then b 3 else b 5)
  else if n < 1297 then b 1
  else if n = 1297 then b 2
  else if n = 1298 ∨ n = 1300 then b 1
  else if n = 1299 then b 5
  else if n = 1301 then b 6
  else if n < 1306 then b 1
  else if n = 1306 then b 5
  else if n < 1311 then b 4
  else if n = 1311 then false
  else if n < 1317 then b 3
  else if n < 1322 then b 6
  else if n < 1344 then b 7
  else if n < 1408 then b 8
  else if n < 1424 then b 9
  else if n < 1432 then b 10
  else if n < 1440 then b 0
  else if n < 1472 then decide (n = 1449) || decide (n = 1451) || decide (n = 1463)
  else b 7

/-- The bits of a group that a world reads and writes (R394). -/
def State.groupMask (s : State) (w : World) (g : Nat) : Nat :=
  if w = .secure then 0xFFFFFFFF
  else ((List.range 32).filter fun i => !s.sourceSecure (32 * g + i)).foldl (fun m i => m + 2 ^ i) 0

/-! ### Checks of a register write (R537 to R540) -/

/-- A field of the written word lies outside a range. -/
def outside (f : Fld) (x lo hi : Nat) : Bool := decide (f.of x < lo) || decide (hi < f.of x)

/-- The write would change a register (log 9). -/
def State.alters (s : State) (w : World) (r : Reg) (i j x : Nat) : Bool := decide ((s.writeParts w r i j x).regs ≠ s.regs)

/-- The head's station is outside IDLE. -/
def State.headBusy (s : State) (p : Nat) : Bool :=
  match s.stationOfHead p with
  | some n => s.stBusy n
  | none => false

/-- An axis whose configuration may change (spec/18). -/
def State.axFree (s : State) (a : Nat) : Bool :=
  decide (s.axState a = Ax.disabled ∨ s.axState a = Ax.still) && !s.on R.TTC_AX_STATUS_PACED a

/-- What refuses a write to a register that is no station's, head's, queue's or axis's configuration. -/
def State.globalCheck (s : State) (w : World) (r : Reg) (i x : Nat) : Option Status :=
  match r.id with
  | .SCU_PACE_CTRL => refuseIf (decide (R.SCU_PACE_CTRL_WINDOW.of x < 6)) .range
  | .HLF_PRBS_CFG => refuseIf (outside R.HLF_PRBS_CFG_LEN x 20 40 || outside R.HLF_PRBS_CFG_RETRAIN_LEN x 20 30) .range
  | .HLF_TIMER_CFG => refuseIf (outside R.HLF_TIMER_CFG_REPLAY_US x 1 255 || outside R.HLF_TIMER_CFG_LINE_TIMEOUT x 8 255) .range
  | .LTU_TCOMP_CTRL => refuseIf (outside R.LTU_TCOMP_CTRL_SENSOR x 0 23) .range
  | .LTU_ENC_CFG => refuseIf (decide (R.LTU_ENC_CFG_MAJ.of x = 3)) .range
  | .IEA_CFG => refuseIf (decide (R.IEA_CFG_HS_TIMEOUT.of x = 0)) .range
  | .SCU_SEAL_CFG => refuseIf (decide (w = .secure) && decide (R.SCU_SEAL_CFG_FREEZE_MS.of x = 0)) .range
  | .KRU_CFG => refuseIf (outside R.KRU_CFG_MIN_LANES x 1 16 || outside R.KRU_CFG_TOKEN_TIMEOUT x 1 255 ||
      outside R.KRU_CFG_REFORM_MS x 1 255) .range
  | .HIF_EVT_MAP => refuseIf (decide (w = .secure) && decide (R.HIF_EVT_MAP_FN.of x = 0) && s.sourceSecure i) .world
  | .MFE_CTRL => refuseIf (outside R.MFE_CTRL_RAIL x 16384 32767) .range
  | .MFE_SEQ_PERIOD => refuseIf (outside R.MFE_SEQ_PERIOD_PERIOD x 2400 1200000) .range
  | .THM_CTRL => refuseIf (decide (w = .secure) && (decide (R.THM_CTRL_TMIN.of x = 0) ||
      decide (R.THM_CTRL_TMAX.of x < R.THM_CTRL_TMIN.of x) || decide (R.THM_CTRL_STEP_MS.of x = 0) || outside R.THM_CTRL_HYST x 4 64)) .range
  | .SMC_WMAP_BLK | .SMC_WMAP_ETH | .SMC_WMAP_PORT | .SMC_WMAP_QR | .SMC_WMAP_ENG | .SMC_WMAP_OC | .SMC_WMAP_HBM =>
      refuseIf (decide (w = .secure)) .world
  | _ => none

/-- What refuses a write to a register of a station (R136, R173, R184, R356, and the tables of spec/04, spec/06,
spec/07, spec/12). -/
def State.stationCheck (s : State) (r : Reg) (i x : Nat) : Option Status :=
  let idle := refuseIf (s.stBusy i) .state
  match r.id with
  | .LTU_ST_CTRL => pickStatus [idle, refuseIf (decide (R.LTU_ST_CTRL_SRC.of x = 3) || decide (R.LTU_ST_CTRL_OVERRUN.of x = 3)) .range]
  | .LTU_ST_RATIO | .LTU_ST_TIMER | .LTU_ST_MAXRATE | .LTU_ST_EXP_DELAY | .LTU_ST_EXP_LEN | .LTU_ST_EXP_MIN | .LTU_ST_GUARD
  | .LTU_ST_READ_DELAY | .LTU_ST_WPI_START_LO | .LTU_ST_WPI_START_HI | .LTU_ST_STARTPOS_LO | .LTU_ST_STARTPOS_HI
  | .SST_ST_REGION_BASE | .SST_ST_REGION_SIZE | .SST_ST_THR_LO | .SST_ST_THR_STOP | .SST_ST_THR_RESUME | .SST_ST_SEAM => idle
  | .LTU_ST_START => pickStatus [idle, refuseIf (outside R.LTU_ST_START_MODE x 0 1) .range]
  | .LTU_ST_MATCH_CFG => refuseIf (decide (R.LTU_ST_MATCH_CFG_TOL.of x = 0)) .range
  | .PCP_SHD_HEAD_CTRL => refuseIf (s.headBusy i && s.changes [R.PCP_SHD_HEAD_CTRL_EN] i 0 x) .state
  | .PCP_SHD_TRK_DARK => pickStatus [refuseIf (s.headBusy i) .state, refuseIf (outside R.PCP_SHD_TRK_DARK_COUNT x 0 32) .range]
  | .PCP_SHD_TRK_WHITE => pickStatus [refuseIf (s.headBusy i) .state, refuseIf (outside R.PCP_SHD_TRK_WHITE_COUNT x 0 64) .range]
  | .PCP_STC_RANGE | .PCP_STC_XOFF | .PCP_ALN_DELAY => refuseIf (s.headBusy i) .state
  | .PCP_STC_ST_CTRL => pickStatus [idle, refuseIf (outside R.PCP_STC_ST_CTRL_V x 0 256 || outside R.PCP_STC_ST_CTRL_DVT_TIMEOUT x 8 255) .range]
  | .PCP_STC_ST_ORIGIN => idle
  | .PCP_DEC_CTRL => pickStatus [
      refuseIf (s.stBusy (s.get R.PCP_DEC_CTRL_STATION i) || s.stBusy (R.PCP_DEC_CTRL_STATION.of x)) .state,
      refuseIf (outside R.PCP_DEC_CTRL_DX x 1 16 || outside R.PCP_DEC_CTRL_DY_LOG x 0 4) .range]
  | .PCP_DEC_WIN | .PCP_DEC_LEN | .PCP_DEC_QUEUE => refuseIf (s.stBusy (s.get R.PCP_DEC_CTRL_STATION i)) .state
  | .PCP_DEC_LEAF => refuseIf (s.on R.PCP_DEC_CTRL_EN i && s.stBusy (s.get R.PCP_DEC_CTRL_STATION i)) .state
  | .SST_ST_PACE => pickStatus [idle, refuseIf (decide (R.SST_ST_PACE_SMIN.of x = 0)) .range]
  | .SST_ST_RUNUP => pickStatus [idle, refuseIf (outside R.SST_ST_RUNUP_LINES x 16 65535) .range]
  | .SST_ST_SHED => pickStatus [idle, refuseIf (decide (R.SST_ST_SHED_LAG.of x = 0)) .range]
  | .SCU_SEAL_ST_CTRL =>
      pickStatus [refuseIf (s.stBusy i && s.changes [R.SCU_SEAL_ST_CTRL_MAXLAT, R.SCU_SEAL_ST_CTRL_SNAP_LOG] i 0 x) .state,
        refuseIf (outside R.SCU_SEAL_ST_CTRL_MAXLAT x 1 1000 || outside R.SCU_SEAL_ST_CTRL_SNAP_LOG x 0 8) .range]
  | .KRU_ST_CTRL => pickStatus [idle, refuseIf (outside R.KRU_ST_CTRL_LEAD x 16 32767 || outside R.KRU_ST_CTRL_TLOCAL x 1 10000) .range]
  | _ => none

/-- The group's station is outside IDLE. -/
def State.grpBusy (s : State) (g : Nat) : Bool := s.stBusy (s.grpStation g)

/-- What refuses a write to a register of a queue, a stream, a lamp group, a measurement entry or an axis (R232, R376, R441, R459, and
the tables of spec/14, spec/16, spec/17, spec/18). -/
def State.unitCheck (s : State) (w : World) (r : Reg) (i j x : Nat) : Option Status :=
  let ch := s.alters w r i j x
  match r.id with
  | .QMX_Q_CFG => pickStatus [refuseIf (s.on R.QMX_Q_CFG_EN i && ch) .state, refuseIf (decide (i < 256)) .range]
  | .QMX_Q_RES => pickStatus [refuseIf (s.on R.QMX_Q_CFG_EN i && ch) .state,
      refuseIf (decide (i < 256) || decide (256 < R.QMX_Q_RES_RES.of x)) .range]
  | .HIF_HQ => refuseIf (!s.hqFree i x) .state
  | .HIF_ST_CTRL => refuseIf (s.stOn i && ch) .state
  | .HIF_ST_RING_LO | .HIF_ST_RING_HI | .HIF_ST_DST_MAC_LO | .HIF_ST_DST_MAC_HI | .HIF_ST_DST_IP | .HIF_ST_UDP =>
      refuseIf (s.stOn i) .state
  | .HIF_ST_RATE => pickStatus [refuseIf (s.stOn i) .state, refuseIf (outside R.HIF_ST_RATE_MBPS x 0 100000) .range]
  | .ILC_GRP_CTRL => pickStatus [refuseIf ((s.grpBusy i || s.stBusy (R.ILC_GRP_CTRL_STATION.of x)) && ch) .state, refuseIf (outside R.ILC_GRP_CTRL_LEN_LOG x 0 8) .range]
  | .ILC_GRP_SW => pickStatus [refuseIf (s.grpBusy i) .state,
      refuseIf (outside R.ILC_GRP_SW_FSW x 200 2000 || outside R.ILC_GRP_SW_DITH x 0 8 || decide (R.ILC_GRP_SW_DITH.of x = 1) ||
        decide (R.ILC_GRP_SW_DRATE.of x = 0)) .range]
  | .ILC_GRP_TIMING => refuseIf (s.grpBusy i) .state
  | .ILC_GRP_DIAG => pickStatus [
      refuseIf (s.grpBusy i && s.changes [R.ILC_GRP_DIAG_DIAG_W, R.ILC_GRP_DIAG_INT, R.ILC_GRP_DIAG_EN, R.ILC_GRP_DIAG_MINON] i 0 x) .state,
      refuseIf (outside R.ILC_GRP_DIAG_DIAG_W x 1000 4000 || outside R.ILC_GRP_DIAG_INT x 1 64) .range]
  | .ILC_GRP_BANK => refuseIf (outside R.ILC_GRP_BANK_RLEN x 0 20) .range
  | .ILC_STR_CFG => refuseIf ((s.grpBusy (s.get R.ILC_STR_CFG_GROUP i) || s.grpBusy (R.ILC_STR_CFG_GROUP.of x))) .state
  | .MFE_ENT_CFG => pickStatus [refuseIf (s.on R.MFE_CTRL_SEQ_EN) .state, refuseIf (decide (R.MFE_ENT_CFG_SETTLE.of x = 0)) .range]
  | .MFE_ENT_REC => refuseIf (s.on R.MFE_CTRL_SEQ_EN) .state
  | .MFE_CH_CFG => pickStatus [refuseIf (s.on R.MFE_CTRL_SEQ_EN) .state, refuseIf (decide (R.MFE_CH_CFG_CLOG.of x = 7)) .range]
  | .MFE_OUT_CFG => pickStatus [refuseIf (s.on R.MFE_OUT_CFG_EN i && (ch || decide (R.MFE_OUT_CFG_EN.of x = 1))) .state, refuseIf (decide (R.MFE_OUT_CFG_FAIL.of x = 3)) .range]
  | .MFE_OUT_LO | .MFE_OUT_HI | .MFE_OUT_F => refuseIf (s.on R.MFE_OUT_CFG_EN i) .state
  | .TTC_AX_CTRL => pickStatus [refuseIf (ch && !s.axFree i) .state, refuseIf (decide (R.TTC_AX_CTRL_TOL.of x = 0)) .range]
  | .TTC_AX_VMAX => pickStatus [refuseIf (!s.axFree i) .state, refuseIf (outside R.TTC_AX_VMAX_VMAX x 1 12800000) .range]
  | .TTC_AX_RATIO | .TTC_AX_AMAX | .TTC_AX_JMAX | .TTC_AX_VSCAN | .TTC_AX_CUR | .TTC_AX_LOAD => refuseIf (!s.axFree i) .state
  | _ => none

/-- What refuses a register write. -/
def State.writeCheck (s : State) (w : World) (r : Reg) (i j x : Nat) : Option Status :=
  pickStatus [s.globalCheck w r i x, s.stationCheck r i x, s.unitCheck w r i j x]

/-- The LAST_STATUS that reports a refused write to an address, and its instance: that of the register's block, or of its unit where
the unit has one (the LAST_STATUS fields of the tables). -/
def lastStatusOf (r : Reg) (i : Nat) : Option Fld × Nat :=
  let a := r.base
  match r.id with
  | .HIF_EVT_MAP => (some R.HIF_STATUS_LAST_STATUS, 0)
  | .SMC_WMAP_BLK | .SMC_WMAP_ETH | .SMC_WMAP_PORT | .SMC_WMAP_QR | .SMC_WMAP_ENG | .SMC_WMAP_OC | .SMC_WMAP_HBM =>
      (some R.SMC_WMAP_STATUS_LAST_STATUS, 0)
  | .THM_CTRL => (some R.THM_STATUS_LAST_STATUS, 0)
  | .SCU_SEAL_ST_CTRL => (some R.SCU_SEAL_ST_STATUS_LAST_STATUS, i)
  | .IEA_CFG => (some R.IEA_STATUS_LAST_STATUS, 0)
  | .QMX_Q_CFG | .QMX_Q_RES => (some R.QMX_Q_CMD_LAST_STATUS, i)
  | _ =>
    if 0x600000 ≤ a ∧ a < 0x601000 then (some R.LTU_REF_STATUS_LAST_STATUS, 0)
    else if 0x601000 ≤ a ∧ a < 0x800000 then (some R.LTU_ST_STATUS_LAST_STATUS, i)
    else if 0x800000 ≤ a ∧ a < 0x804000 then (some R.PCP_SHD_STATUS_LAST_STATUS, 0)
    else if 0x804000 ≤ a ∧ a < 0xA00000 then (some R.PCP_ALN_STATUS_LAST_STATUS, 0)
    else if 0xA00000 ≤ a ∧ a < 0xC00000 then (some R.SST_STATUS_LAST_STATUS, 0)
    else if 0x1C00000 ≤ a ∧ a < 0x1D00000 then (some R.KRU_STATUS_LAST_STATUS, 0)
    else if 0x1D00000 ≤ a ∧ a < 0x1E00000 then (some R.HIF_STATUS_LAST_STATUS, 0)
    else if 0x1E00000 ≤ a ∧ a < 0x1F00000 then (some R.ILC_STATUS_LAST_STATUS, 0)
    else if 0x1F00000 ≤ a ∧ a < 0x2000000 then (some R.MFE_STATUS_LAST_STATUS, 0)
    else if 0x2000100 ≤ a ∧ a < 0x2800000 then (some R.TTC_AX_STATUS_LAST_STATUS, i)
    else (none, 0)

/-! ### What follows from a write -/

/-- Newly enabled sources that are pending owe a message (R395). -/
def State.oweEnabled (s : State) (g old : Nat) : State :=
  let m := s.get R.HIF_EVT_EN_EN g
  let p := s.get R.HIF_EVT_PEND_PEND g
  s.each ((List.range 32).filter fun i => bit m i && bit p i && !bit old i) fun s i => s.owe (32 * g + i)

/-- The effects of a register write beside its fields; `old` is the state before it. -/
def State.afterWrite (s old : State) (r : Reg) (i x : Nat) : State :=
  match r.id with
  | .ILC_CTRL => if s.on R.ILC_CTRL_EN then s else s.gatesLow channels96
  | .LTU_CTRL => (if s.on R.LTU_CTRL_EN then s else s.set R.LTU_REF_STATUS_LOCK 0).syncSteer
  | .QMX_POOL_CFG => s.syncLow
  | .KRU_MEMBER_SEL => s.syncMember
  | .SMC_MEAS_SEL => s.syncMeas
  | .HIF_CTRL => s.each (List.range 64) State.syncStream
  | .HIF_EVT_PEND => s.syncSum i
  | .HIF_EVT_EN => (s.syncSum i).oweEnabled i (old.get R.HIF_EVT_EN_EN i)
  | .THM_FAIL => s.syncFail
  | .THM_RO_CTRL => if R.THM_RO_CTRL_EN.of x = 1 then s.setThm { s.thm with ro := 255 } else s
  | _ => s

/-- The word that takes effect: a write from the non-secure world leaves the bits of secure sources alone (R394). -/
def State.effectiveWord (s : State) (w : World) (r : Reg) (i x : Nat) : Nat :=
  match r.id with
  | .HIF_EVT_PEND => x &&& s.groupMask w i
  | .HIF_EVT_EN =>
    let old := s.get R.HIF_EVT_EN_EN i
    let m := s.groupMask w i
    (x &&& m) ||| (old - (old &&& m))
  | _ => x

/-- A host write of a register (R11): the fields that no row of their own covers. -/
def State.regWrite (s : State) (w : World) (r : Reg) (i j x : Nat) : State :=
  let l := lastStatusOf r i
  let check := s.writeCheck w r i j x
  let s1 := s.hostWrite w r.id i j check l.1 l.2 fun r s =>
    (s.writeParts w r i j (s.effectiveWord w r i x)).afterWrite s r i x
  if 0x1D06000 ≤ r.base ∧ r.base < 0x1D07000 then s1.streamRefused s w (r.id.addr i 0) i check else s1

/-- A host write to a word of the control space: a register, or four bytes of a mailbox command entry (R518, R519); a response entry
keeps its bytes, and any other offset ignores the write (R572). -/
def State.controlWrite (s : State) (w : World) (a x : Nat) : State :=
  if 0x10000 ≤ a ∧ a < 0x18000 then
    s.windowWrite w a none id fun s => if a < 0x14000 then { s with mbox := s.mbox.write a (leBytes 4 x) } else s
  else
    match findReg a with
    | some (r, i, j) => s.regWrite w r i j x
    | none => s

/-! ### Reads (R11, R39) -/

/-- The _LO registers of a pair. -/
def pairLo : List RegId :=
  [.SCU_PACE_HS_LO, .SCU_PACE_BUSY_LO, .HLF_PORT_ID_LO, .LTU_ENC_POS_LO, .LTU_ENC_ZLATCH_LO, .LTU_ST_WPI_START_LO, .LTU_ST_WPI_LO,
   .LTU_ST_STARTPOS_LO, .LTU_ST_MATCH_LO, .LTU_ST_BASE_LO, .PCP_CAP_WPI_LO, .PCP_SHD_SWAP_H_LO, .PCP_DEC_SWAP_H_LO, .SST_ST_WP_LO,
   .SST_ST_U_LO, .SST_ST_REW_R_LO, .SST_ST_REW_M_LO, .SST_ST_HOST_RP_LO, .SST_ST_MARK_LO, .IEA_ENG_BAND_LO, .IEA_ENG_SLOTS_LO,
   .IEA_ENG_EVT_WPI_LO, .IEA_ENG_FAULT_WPI_LO, .SCU_IMG_SRC_LO, .SCU_IMG_ID_LO, .SCU_RLD_H_LO, .SCU_RLD_MASK_LO, .SCU_SEAL_ST_HZN_LO,
   .SCU_SEAL_ST_LOCAL_LO, .KRU_TIME_LO, .KRU_ST_OFS_LO, .KRU_ST_HINGE_LO, .HIF_EVT_SUM_LO, .HIF_ST_RING_LO, .HIF_ST_BAND_LO,
   .HIF_ST_DST_MAC_LO, .HIF_ETH_MAC_LO, .HIF_PTP_SEC_LO, .ILC_GRP_SWAP_H_LO, .ILC_GRP_FAULT_WPI_LO, .TTC_AX_TARGET_LO, .TTC_AX_POS_LO,
   .SMC_ID_SERIAL_LO, .SMC_ID_MAC_LO, .SMC_FAULT_WPI_LO]

/-- The registers that a read of another one latches (R39, R336, and the tables of spec/14 and spec/17): reads return the copy. -/
def latched : List RegId :=
  [.SCU_PACE_HS_HI, .SCU_PACE_BUSY_HI, .HLF_PORT_ID_HI, .LTU_ENC_POS_HI, .LTU_ENC_ZLATCH_HI, .LTU_ST_WPI_START_HI, .LTU_ST_WPI_HI,
   .LTU_ST_STARTPOS_HI, .LTU_ST_MATCH_HI, .LTU_ST_BASE_HI, .PCP_CAP_WPI_HI, .PCP_SHD_SWAP_H_HI, .PCP_DEC_SWAP_H_HI, .SST_ST_WP_HI,
   .SST_ST_U_HI, .SST_ST_REW_R_HI, .SST_ST_REW_M_HI, .SST_ST_HOST_RP_HI, .SST_ST_MARK_HI, .IEA_ENG_BAND_HI, .IEA_ENG_SLOTS_HI,
   .IEA_ENG_EVT_WPI_HI, .IEA_ENG_FAULT_WPI_HI, .SCU_IMG_SRC_HI, .SCU_IMG_ID_HI, .SCU_RLD_H_HI, .SCU_RLD_MASK_HI, .SCU_SEAL_ST_HZN_HI,
   .SCU_SEAL_ST_LOCAL_HI, .KRU_TIME_HI, .KRU_ST_OFS_HI, .KRU_ST_HINGE_HI, .HIF_EVT_SUM_HI, .HIF_ST_RING_HI, .HIF_ST_BAND_HI,
   .HIF_ST_DST_MAC_HI, .HIF_ETH_MAC_HI, .HIF_PTP_SEC_HI, .ILC_GRP_SWAP_H_HI, .ILC_GRP_FAULT_WPI_HI, .TTC_AX_TARGET_HI, .TTC_AX_POS_HI,
   .SMC_ID_SERIAL_HI, .SMC_ID_MAC_HI, .SMC_FAULT_WPI_HI, .HIF_PTP_NS, .SCU_SEAL_ST_SNAP_BAND_HI, .SCU_SEAL_ST_SNAP, .MFE_ACC_SUM_HI,
   .MFE_ACC_CNT, .MFE_ACC_MIN, .MFE_ACC_MAX, .MFE_RES_FLAGS]

/-- Registers whose read has a row of its own. -/
def readRows : List RegId := [.SCU_SEAL_ST_SNAP_BAND_LO, .MFE_ACC_SUM_LO, .MFE_RES, .IEA_ENG_LS_DATA]

/-- The live value of a register at instant `t`: the encoder position and period (R107, R108), ring time (R357) and PTP time (R391) run on. -/
def State.liveWord (s : State) (w : World) (r : Reg) (i j : Nat) (t : Int) : Nat :=
  let pos := s.encPos i t
  let cnt := ofSigned 48 (pos / 65536)
  match r.id with
  | .LTU_ENC_POS_LO => cnt % 2 ^ 32
  | .LTU_ENC_POS_HI => cnt / 2 ^ 32 + (pos % 65536).toNat * 65536
  | .LTU_ENC_PERIOD => min (s.encTc i t) 0xFFFFFFFF
  | .KRU_TIME_LO => ofSigned 64 (s.ringTime t) % 2 ^ 32
  | .KRU_TIME_HI => ofSigned 64 (s.ringTime t) / 2 ^ 32
  | .HIF_PTP_SEC_LO => (s.ptpStamp t).1 % 2 ^ 32
  | .HIF_PTP_SEC_HI => (s.ptpStamp t).1 / 2 ^ 32 % 2 ^ 16
  | .HIF_PTP_NS => (s.ptpStamp t).2.1
  | .HIF_EVT_PEND | .HIF_EVT_EN => s.regWord w r i j &&& s.groupMask w i
  | _ => s.regWord w r i j

/-- What a read of a register returns: the copy for a latched one (R39), else the live value. -/
def State.readRegister (s : State) (w : World) (r : Reg) (i j : Nat) (t : Int) : Nat :=
  if latched.contains r.id then SMap.get s.hold (holdReset r.id) (r.addr i j) else s.liveWord w r i j t

/-- The live value of the register at an address. -/
def State.liveAt (s : State) (w : World) (a : Nat) (t : Int) : Nat :=
  match findReg a with
  | some (r, i, j) => s.liveWord w r i j t
  | none => 0

/-- A read of a _LO register copies the _HI half (R39); that of HIF_PTP_SEC_LO copies the nanoseconds too (spec/14). -/
def State.latchPair (s : State) (w : World) (id : RegId) (a : Nat) (t : Int) : State :=
  if pairLo.contains id then
    let s1 : State := { s with hold := SMap.put s.hold 0 (a + 4) (s.liveAt w (a + 4) t) }
    if id = .HIF_PTP_SEC_LO then { s1 with hold := SMap.put s1.hold 0 (a + 8) (s.liveAt w (a + 8) t) } else s1
  else s

/-- What a word of the control space that is no register reads as: mailbox entries (R518), the memories of the leaf and table window
(R140), and zero at an offset that no chapter assigns (R572). -/
def State.windowWord (s : State) (a : Nat) : Nat :=
  if 0x10000 ≤ a ∧ a < 0x18000 then ofLe (s.mbox.bytes a 4)
  else if (ocShelf a).isSome then ofLe (s.leaf.bytes a 4)
  else 0

/-- A host read of a word of the control space (R11, R39, R140, R518). -/
def State.controlRead (s : State) (w : World) (a : Nat) (t : Int) : State :=
  match findReg a with
  | some (r, i, j) =>
    if readRows.contains r.id then s
    else s.hostRead w a 4 (s.readRegister w r i j t) fun s => s.latchPair w r.id a t
  | none => s.hostRead w a 4 (s.windowWord a) id

end Sys2Proof.Machine
end

