-- ==== Sys2Proof/Machine/Access.lean ====
section
/-! DEFINITION. The commands of the control space: a register write and a register read (R10, R11, R39). `a` counts 32-bit words of the
64 MiB control space (R372). -/

open Sys2Proof

namespace Sys2Proof.Machine

/-- REGISTER_WRITE (R11, R537, R576). -/
def execRegisterWrite (w : World) (a : Fin 16777216) (v : BitVec 32) (s : State) : Out := .next (s.controlWrite w (4 * a.val) v.toNat)

/-- HOLDING_REGISTER_LO_READ (R39) at instant `t`. -/
def execHoldingRegisterLoRead (w : World) (a : Fin 16777216) (t : Int) (s : State) : Out := .next (s.controlRead w (4 * a.val) t)

end Sys2Proof.Machine
end

