-- ==== Sys2Proof/Machine/Boot.lean ====
section
/-! DEFINITION. The commands of reset, boot, the world map and the pads (spec/20, spec/22, spec/23). `ms` is the time since POR_N
rose. -/

open Sys2Proof

namespace Sys2Proof.Machine

/-! ### Reset (R524, R533, R547, R548) -/

/-- DEV_RESET_ENTRY (R533, R548): an accepted DEV_RESET takes the device into RESET, but not out of THERMAL_LATCH (R524). -/
def execDevResetEntry (s : State) : Out :=
  if s.smc.resetDue then
    if s.dev = Dev.thermalLatch then .next { s with smc := { s.smc with resetDue := false } } else .next s.resetDevice
  else .next s

/-- POR_ASSERT (R547, R548): POR_N is low, and every output pin goes inactive. -/
def execPorAssert (s : State) : Out := .next (s.emit .inactive).resetAll

/-- RESET_EXIT (R547, R550, R574): the blocks leave RESET with the values of their tables, and the boot ROM runs. -/
def execResetExit (s : State) : Out :=
  if s.dev = Dev.reset ∨ (s.dev = Dev.cabinetBoot ∧ s.get R.SMC_BOOT_STATUS_STEP = 0) then
    .next ((s.set R.SMC_DEV_STATE_STATE Dev.cabinetBoot).set R.SMC_BOOT_STATUS_STEP 1)
  else .next s

/-- VCORE_REMOVED (R484, R524): the device is OFF, and a latched trip is released. -/
def execVcoreRemoved (s : State) : Out :=
  let s1 := if s.on R.THM_STATUS_TRIP then s.emit (.pin "THERM_TRIP_N" 0 1) else s
  let s2 := (s1.clearedBut fuseKeys).set R.SMC_DEV_STATE_STATE Dev.off
  .next { s2 with smc := { s2.smc with hbmRefresh := false } }

/-! ### Boot (R501 to R505, R550 to R553) -/

/-- CABINET_VERIFY_DONE (R501): what the boot ROM found in copies `a` and `b`, the policy record, VOUT_MODE, and the size of the
flash. An entry to FAULT does not stop the boot (log 7). -/
def execCabinetVerifyDone (a b : FwObs) (policy : Option FwObs) (mode : Byte) (flash ms : Nat) (s : State) : Out :=
  if (s.dev = Dev.cabinetBoot ∨ s.dev = Dev.fault) ∧ s.get R.SMC_BOOT_STATUS_STEP = 1 then .next (s.verifyCabinet a b policy mode.toNat flash ms) else .next s

/-- BOOT_VCORE_TIMEOUT (R551). -/
def execBootVcoreTimeout (s : State) : Out := .next (if s.pace.waits.contains .boot then s.bootVcoreFail else s)

/-- HBM_TRAINING_DONE (R552): the stacks that passed. -/
def execHbmTrainingDone (ok : BitVec 4) (ms : Nat) (s : State) : Out :=
  if s.smc.hbmRun then
    let s1 := ({ s with smc := { s.smc with hbmRun := false, hbmOk := decide (ok.toNat = 15) } } : State).set
      R.SMC_BOOT_STATUS_HBM_OK ok.toNat
    .next (if ok.toNat = 15 then s1.bootDone ms else (s1.set R.SMC_BOOT_STATUS_HBM_FAIL 1).stayBare ms)
  else .next s

/-- WORKBENCH_CHECK_DONE (R502, R504). -/
def execWorkbenchCheckDone (o : FwObs) (ms : Nat) (s : State) : Out :=
  if s.smc.wbRun then .next (({ s with smc := { s.smc with wbRun := false } } : State).checkWorkbench o ms) else .next s

/-! ### Worlds (R534) -/

/-- WORLD_SET (R499, R534). -/
def execWorldSet (r : Fin 2) (s : State) : Out :=
  .next (s.command r Op.worldSet fun s => s.worldSet (s.param r 16 1) (s.param r 17 1) (s.param r 20 4) (s.param r 24 4))

/-! ### Pads and reference clocks (R562, R565) -/

/-- A read of the boot flash or a FLASH_WRITE runs (R562). -/
def State.flashBusy (s : State) : Bool :=
  let st := s.get R.SMC_BOOT_STATUS_STEP
  (s.on R.SCU_IMG_STATUS_BUSY && s.on R.SCU_IMG_CTRL_SRC) || (s.runningOp Op.flashWrite).isSome || s.smc.wbRun ||
    (decide (st = 1) && decide (s.dev = Dev.cabinetBoot))

/-- The fields of SMC_PAD_SLEW with the status that discards a write to each now (R562). -/
def State.padChecks (s : State) : List (Fld × Option Status) :=
  [(R.SMC_PAD_SLEW_ILC, refuseIf (s.on R.ILC_CTRL_EN) .state),
   (R.SMC_PAD_SLEW_MOT, refuseIf (axes4.any fun a => s.on R.TTC_AX_CTRL_EN a) .state),
   (R.SMC_PAD_SLEW_FOUT, refuseIf ((List.range 8).any fun o => s.on R.MFE_OUT_CFG_EN o) .state),
   (R.SMC_PAD_SLEW_XSPI, refuseIf s.flashBusy .busy),
   (R.SMC_PAD_SLEW_CONSOLE, none)]

/-- PAD_SLEW_WRITE (R562): each field is written or discarded by itself, whatever value it is written with. -/
def execPadSlewWrite (w : World) (v : BitVec 32) (s : State) : Out :=
  .next (s.hostWrite w .SMC_PAD_SLEW 0 0 none none 0 fun _ s =>
    if w ≠ .secure then s
    else
      let ps := s.padChecks
      let s1 := s.each (ps.filter (·.2.isNone)) fun s p => s.set p.1 (p.1.of v.toNat)
      match pickStatus (ps.map (·.2)) with
      | some c => s1.refuse w c (some R.SMC_PAD_STATUS_LAST_STATUS)
      | none => s1)

/-- SERDES_REFCLK_LOSS (R565, R96): SD_REFCLK`q` has stopped, or runs again. Clocks 0 to 3 serve a band of Ricel lanes each, 4 both
Kelim ports, 5 the Ethernet lanes. -/
def execSerdesRefclkLoss (x : RefClk) (s0 : State) : Out :=
  let q := x.clock
  let gone := s0.smc.refGone.filter (· ≠ q.val)
  let s : State := { s0 with smc := { s0.smc with refGone := if x.runs then gone else gone ++ [q.val] } }
  if x.runs then .next s
  else if q.val < 4 then
    .next (s.each (List.range 48) fun s i =>
      let l := 48 * q.val + i
      (s.set R.HLF_LANE_STATUS_LOCK 0 l).retrainLane l true)
  else if q.val = 4 then
    .next (s.each (List.range 32) fun s l =>
      if bit (s.get R.KRU_PORT_LANES_ACTIVE (portOf l)) (l % 16) then s.kelimRetrain l true else s)
  else .next (s.each (List.range 4) fun s p => (s.set R.HIF_ETH_STATUS_FEC_LOCK 0 p).ethLinkTo p false)

end Sys2Proof.Machine
end

