-- ==== Sys2Proof/Machine/Hif.lean ====
section
/-! DEFINITION. The commands of the host interface (spec/14, spec/15): streams, rings, Ethernet ports, PTP, PCI Express and
interrupts. Instants `t` are LTU units (R99). -/

open Sys2Proof

namespace Sys2Proof.Machine

/-! ### Streams -/

/-- STREAM_ENABLE (R383): a write of HIF_ST_CTRL[c] with EN = 1. -/
def execStreamEnable (w : World) (c : Fin 64) (v : BitVec 32) (s : State) : Out :=
  let x := v.toNat ||| 1
  let was := s.stOn c.val
  .next (s.streamWrite w .HIF_ST_CTRL c.val x (s.streamCheck c.val x) fun s =>
    if was then s
    else (if s.isDma c.val then s else s.set R.HIF_ST_SEQ_SEQ 0 c.val).syncStream c.val)

/-- STREAM_DISABLE (R383): a write of HIF_ST_CTRL[c] with EN = 0. -/
def execStreamDisable (w : World) (c : Fin 64) (v : BitVec 32) (s : State) : Out :=
  let x := v.toNat - v.toNat % 2
  let fs := [R.HIF_ST_CTRL_KIND, R.HIF_ST_CTRL_STATION, R.HIF_ST_CTRL_GAPS, R.HIF_ST_CTRL_SNAP, R.HIF_ST_CTRL_PORT,
    R.HIF_ST_CTRL_CHUNK, R.HIF_ST_CTRL_RING_LOG]
  let was := s.stOn c.val
  .next (s.streamWrite w .HIF_ST_CTRL c.val x (if was then refuseIf (s.changes fs c.val 0 x) .state else none) fun s =>
    if was then s.stopStream c.val else s)

/-- HQ_ENTRY_ENABLE (R376): a write of HIF_HQ[j]; EN = 1 binds the queue, EN = 0 frees the entry. -/
def execHqEntryEnable (w : World) (j : Fin 1024) (v : BitVec 32) (s : State) : Out :=
  let x := v.toNat
  let check := if R.HIF_HQ_EN.of x = 1 then s.hqCheck j.val x else refuseIf (!s.hqFree j.val x) .state
  .next (s.rowWrite w .HIF_HQ j.val 0 x check (some R.HIF_STATUS_LAST_STATUS) 0 id)

/-- DMA_TAIL_WRITE (R379): a write of HIF_ST_TAIL[c]. -/
def execDmaTailWrite (w : World) (c : Fin 64) (v : BitVec 32) (s : State) : Out :=
  .next (s.streamWrite w .HIF_ST_TAIL c.val v.toNat (refuseIf (decide (s.ringSize c.val ≤ R.HIF_ST_TAIL_TAIL.of v.toNat)) .range) fun s =>
    s.syncStream c.val)

/-- RELEASE_CHUNK (R377 to R380, R386, R406): a stream takes its next step; `d` is what the host holds as the descriptor at HEAD,
read when the stream has none. -/
def execReleaseChunk (c : Fin 64) (d : HostDesc) (s : State) : Out :=
  if s.stLive c.val = false then .next s
  else if s.isDma c.val then
    let r := s.fetchDesc c.val d
    .next ((if r.1 then r.2 else r.2.releaseDma c.val).syncStream c.val)
  else if s.txOk (s.get R.HIF_ST_CTRL_PORT c.val) then .next ((s.releaseEth c.val).syncStream c.val)
  else .next (s.syncStream c.val)

/-- DESCRIPTOR_READ_ERROR (R382): the read of the descriptor at HEAD ends in an error completion, or a completion timeout. -/
def execDescriptorReadError (c : Fin 64) (timeout : Bool) (s : State) : Out :=
  let x := s.stream c.val
  if s.stLive c.val ∧ s.isDma c.val = true ∧ x.desc = none ∧ s.get R.HIF_ST_HEAD_HEAD c.val ≠ s.get R.HIF_ST_TAIL_TAIL c.val then
    let s1 := ((s.setStream c.val x.cutShort).set R.HIF_ST_STATUS_STATE 3 c.val).set R.HIF_ST_STATUS_FAULT 1 c.val
    let s2 := s1.set R.HIF_ST_STATUS_LAST_STATUS (if timeout then Status.timeout else .absent).code c.val
    .next ((s2.addSat R.HIF_PCIE_ERR_CPL_ERR 1).raise Ev.streamFault)
  else .next s

/-- DATAGRAM_SEND (R385 to R387) at instant `t`. -/
def execDatagramSend (c : Fin 64) (t : Int) (s : State) : Out :=
  if s.on R.HIF_CTRL_EN ∧ s.isDma c.val = false ∧ s.txOk (s.get R.HIF_ST_CTRL_PORT c.val) = true ∧ (s.stream c.val).sendAt ≤ t then
    .next (s.sendDgram c.val t)
  else .next s

/-! ### Ethernet ports -/

/-- PAUSE_FRAME_RX (R384, R387): pause time 0 ends a pause. -/
def execPauseFrameRx (pn : Fin 4) (quanta : BitVec 16) (s : State) : Out :=
  if s.on R.HIF_ETH_CTRL_EN pn.val ∧ s.on R.HIF_ETH_STATUS_LINK pn.val = true then
    .next ((s.set R.HIF_ETH_STATUS_PAUSED (b2n (quanta ≠ 0)) pn.val).syncPort pn.val)
  else .next s

/-- PAUSE_TIME_EXPIRY (R384, R387). -/
def execPauseTimeExpiry (pn : Fin 4) (s : State) : Out :=
  .next ((s.set R.HIF_ETH_STATUS_PAUSED 0 pn.val).syncPort pn.val)

/-- ETH_FRAME_DISCARD (R388). -/
def execEthFrameDiscard (pn : Fin 4) (s : State) : Out :=
  .next (if s.on R.HIF_ETH_CTRL_EN pn.val then s.add R.HIF_ETH_RX_DROP_COUNT 1 pn.val else s)

/-- ETH_LINK_CHANGE (R384, R387): the link and FEC as the port finds them, with the FEC codewords corrected and not corrected
since the last time. -/
def execEthLinkChange (pn : Fin 4) (up fecLock : Bool) (corr uncorr : Nat) (s : State) : Out :=
  let p := pn.val
  let link := up && s.on R.HIF_ETH_CTRL_EN p && s.refRuns 5
  let s1 := ((s.addSat R.HIF_ETH_FEC_CORR corr p).addSat R.HIF_ETH_FEC_UNCORR uncorr p).set R.HIF_ETH_STATUS_FEC_LOCK
    (b2n (fecLock && s.refRuns 5)) p
  .next (s1.ethLinkTo p link)

/-- The register that ETH_PORT_CONFIG_WRITE names. -/
def ethReg (k : Nat) : RegId :=
  if k = 0 then .HIF_ETH_CTRL else if k = 1 then .HIF_ETH_MAC_LO else if k = 2 then .HIF_ETH_MAC_HI else .HIF_ETH_IP

/-- ETH_PORT_CONFIG_WRITE (R389): a write of HIF_ETH_CTRL, _MAC_LO, _MAC_HI or _IP (`k` 0 to 3). -/
def execEthPortConfigWrite (w : World) (pn : Fin 4) (k : Fin 4) (v : BitVec 32) (s : State) : Out :=
  let used := (List.range 64).any fun c => s.stOn c && !s.isDma c && decide (s.get R.HIF_ST_CTRL_PORT c = pn.val)
  let m := R.HIF_ETH_CTRL_MTU.of v.toNat
  let chk := pickStatus [refuseIf used .state, refuseIf (decide (k.val = 0) && decide (m < 1500 ∨ 9170 < m)) .range]
  .next (s.rowWrite w (ethReg k.val) pn.val 0 v.toNat chk (some R.HIF_STATUS_LAST_STATUS) 0 id)

/-! ### PTP -/

/-- PTP_MESSAGE_RX (R388, R391): a message at a port, to a destination, of a domain. One addressed elsewhere is discarded and counted. -/
def execPtpMessageRx (pn : Fin 4) (dest : PtpDest) (domain : Byte) (m : PtpMsg) (s : State) : Out :=
  let x := s.hif.ptp
  let ieee := match dest with
    | .ieee _ => true
    | .udp _ _ => false
  if s.on R.HIF_ETH_CTRL_EN pn.val = false then .next s
  else if s.ptpAccepts pn.val dest = false then .next (s.add R.HIF_ETH_RX_DROP_COUNT 1 pn.val)
  else if ¬ s.on R.HIF_PTP_CTRL_EN ∨ s.get R.HIF_PTP_CTRL_PORT ≠ pn.val ∨ s.on R.HIF_PTP_CTRL_TRANSPORT ≠ ieee ∨
      s.get R.HIF_PTP_CTRL_DOMAIN ≠ domain.toNat then .next s
  else
    match m with
    | .announce src d t => .next (s.ptpAnnounce src.toNat d t)
    | .sync src seq two origin corr t =>
      if x.master ≠ some src.toNat then .next s
      else
        let s1 := s.setPtp { x with syncSeq := seq.toNat, syncAt := t, awaits := if two then some corr else none }
        .next (if two then s1 else s1.ptpSync (origin + corr))
    | .followUp src seq origin corr =>
      match x.awaits with
      | some c0 =>
        if x.master = some src.toNat ∧ x.syncSeq = seq.toNat then .next (s.ptpSync (origin + corr + c0)) else .next s
      | none => .next s
    | .delayResp src seq rx corr sent =>
      if x.master = some src.toNat ∧ x.reqSeq = seq.toNat then .next (s.ptpDelay rx corr sent) else .next s
    | .other => .next s

/-- PTP_SYNC_TIMEOUT (R391): 2 s without a Sync. -/
def execPtpSyncTimeout (s : State) : Out :=
  .next ((s.setPtp { s.hif.ptp with good := 0, bad := 0, awaits := none }).setPtpLock false)

/-! ### PCI Express -/

/-- PF0_FLR (R374). -/
def execPf0Flr (s : State) : Out := .next s.breakPf0

/-- PF0_D3HOT_ENTRY (R374). -/
def execPf0D3hotEntry (s : State) : Out := .next s.breakPf0

/-- PCIE_LINK_LOSS (R374). -/
def execPcieLinkLoss (s : State) : Out := .next s.loseLink

/-- PCIE_LINK_UP (R370, R554): the link has trained at 2.5, 5, 8, 16 or 32 GT/s (`speed` 0 to 4) and 2^`width` lanes. -/
def execPcieLinkUp (speed width : Fin 5) (s : State) : Out :=
  if s.smc.perst ∧ Dev.cabinetBoot ≤ s.dev then
    .next ((s.set R.HIF_STATUS_SPEED (speed.val + 1)).set R.HIF_STATUS_WIDTH (2 ^ width.val))
  else .next s

/-- PERST_ASSERT (R548): PERST_N low resets the link and the configuration space, with the effects of R374. -/
def execPerstAssert (s : State) : Out :=
  let s1 := s.loseLink
  .next { s1 with smc := { s1.smc with perst := false } }

/-- PERST_RELEASE (R554): PERST_N rises. -/
def execPerstRelease (s : State) : Out := .next { s with smc := { s.smc with perst := true } }

/-- BAR0_BAD_ACCESS (R372): a BAR0 request that is not one aligned DWORD with all byte enables set. The AER log of its function keeps the
first. -/
def execBar0BadAccess (w : World) (a : Nat) (s : State) : Out :=
  let f := if w = .secure then 1 else 0
  let s1 := ((s.addSat R.HIF_PCIE_ERR_BAD 1).raise Ev.pcieBad).emit (.unsupported w a)
  .next (if (SMap.get s1.hif.aer none f).isSome then s1 else { s1 with hif := { s1.hif with aer := SMap.put s1.hif.aer none f (some a) } })

/-- Whether a byte of the BAR2 window lies in a shelf of the secure world; the staging area is one (R297, R373). -/
def State.bar2Secure (s : State) (a : Nat) : Bool :=
  let n := a / 2097152
  decide (32512 ≤ n) || decide (s.shelfWorld n = .secure)

/-- BAR2_READ (R209, R373): up to the largest read request of 4,096 bytes, from byte offset `a` of the window. In self-refresh the HBM
is not read, and what is returned is free (R483, log 150). -/
def execBar2Read (a : Nat) (x : BarRead) (s0 : State) : Out :=
  let away := s0.smc.hbmRefresh
  let s := if away then s0.takeFresh.2 else s0.windowError x.err
  let m := min x.bytes 4096
  let bs := (List.range m).map fun i =>
    if s.bar2Secure (a + i) then 0 else if away then Config.freeByte s0.takeFresh.1 i % 256 else s.hbmShown (a + i)
  let s1 := s.emit (.bar2Data a bs)
  match (List.range m).find? fun i => s.bar2Secure (a + i) with
  | some i => .next (s1.crossWorld .bar2 false (a + i))
  | none => .next s1

/-- BAR2_WRITE (R373): Unsupported Request, counted. -/
def execBar2Write (a : Nat) (s : State) : Out :=
  .next ((s.addSat R.HIF_PCIE_ERR_BAD 1).emit (.unsupported .nonSecure a))

/-! ### Interrupts -/

/-- MSIX_MESSAGE (R395): vector `v` of function `f` at instant `t`. -/
def execMsixMessage (f : Fin 2) (v : Fin 256) (t : Int) (s : State) : Out :=
  .next (s.serveVector (256 * f.val + v.val) t)

/-- MSIX_UNMASK (R371, R395): the vector's entry is written and its mask cleared; the message its PBA bit records is sent. -/
def execMsixUnmask (f : Fin 2) (v : Fin 256) (x : MsixEntry) (s : State) : Out :=
  let k := 256 * f.val + v.val
  let s1 : State := { s with hif := { s.hif with
    unmasked := SMap.put s.hif.unmasked false k true, msix := SMap.put s.hif.msix (0, 0) k (x.addr.toNat, x.data.toNat) } }
  .next (if SMap.get s.hif.pba false k then s1.sendVector k x.time else s1)

end Sys2Proof.Machine
end

