-- ==== Sys2Proof/Machine/Hlf.lean ====
section
/-! DEFINITION. The commands of the head link fabric (spec/03). -/

open Sys2Proof

namespace Sys2Proof.Machine

/-- PIXEL_PACKET_RX (R68): checked, acknowledged or NAKed, and taken into its line as its blocks leave the lane buffer
(R70, R71, R74). A full buffer discards the packet and fails the audit (R77). -/
def execPixelPacketRx (l : Fin 192) (k : Packet) (s : State) : Out :=
  match s.packetIn l 0 k with
  | (false, s1) => .next s1
  | (true, s1) =>
    let h := pixHdr k.hdr.toNat
    let b : BufPkt := { cost := k.cost, hdr := h, samples := blockSamples k.data h.count, time := k.time }
    let s2 := (s1.setLane l { s1.lane l with buf := (s1.lane l).buf ++ [b] }).add R.HLF_LANE_CREDIT_OCCUPIED k.cost l
    .next (s2.drainHead (s.headOfLane l))

/-- The oldest line of a head that is neither complete nor filled LINE_TIMEOUT lines after its trigger (R71). -/
def State.overdueLine (s : State) (p : Nat) : Option Nat :=
  match s.stationOfHead p with
  | none => none
  | some n =>
    match (s.lst n).last with
    | none => none
    | some l =>
      let from_ := (s.head p).next
      let count := l.n + 1 - s.get R.HLF_TIMER_CFG_LINE_TIMEOUT - from_
      ((List.range count).map (· + from_)).find? fun i => !(s.headLine p i).done

/-- LINE_TIMEOUT_FILL (R71). -/
def execLineTimeoutFill (p : Fin 96) (s : State) : Out :=
  match s.overdueLine p with
  | none => .next s
  | some n => .next (s.fillLine p n false)

/-- CAP_PACKET_RX (R92): in DISCOVER, on lane 2p. -/
def execCapPacketRx (l : Fin 192) (k : Packet) (s : State) : Out :=
  let p := l.val / 2
  if s.portState p = Port.discover ∧ l.val = 2 * p then
    if k.formOk 1 ∧ k.crcOk then .next ((s.returnCredits l k.cost).takeCap p k.data)
    else .next ((s.countBad l 1 k).returnCredits l k.cost)
  else
    match s.packetIn l 1 k with
    | (false, s1) => .next s1
    | (true, s1) => .next (s1.returnCredits l k.cost)

/-- CFG_RESP_RX (R86 to R88): the outstanding TAG completes its request, a stale one is discarded. -/
def execCfgRespRx (l : Fin 192) (k : Packet) (s : State) : Out :=
  match s.packetIn l 2 k with
  | (false, s1) => .next s1
  | (true, s1) =>
    let h := k.hdr.toNat
    .next ((s1.returnCredits l k.cost).cfgResponse (s.headOfLane l) (bits h 32 8) (bits h 40 8) (bits (k.data.getD 0 0) 0 32))

/-- HEAD_EVENT_RX (R89). -/
def execHeadEventRx (l : Fin 192) (k : Packet) (s : State) : Out :=
  match s.packetIn l 3 k with
  | (false, s1) => .next s1
  | (true, s1) =>
    let p := s1.headOfLane l
    let s2 := (s1.returnCredits l k.cost).setHead p
      { s1.head p with evCode := bits k.hdr.toNat 8 8, evValue := bits (k.data.getD 0 0) 0 32 }
    .next (s2.raise (Ev.head p))

/-- CRED_STATUS_RX (R76, R97): INIT_ACK completes a credit initialisation; outside the resync window the invariant is
evaluated. SPENT enters no rule. -/
def execCredStatusRx (l : Fin 192) (held rxReturned _spent : BitVec 16) (initAck : Bool) (s : State) : Out :=
  let p := s.headOfLane l
  let waits := decide (s.portState p = Port.credit) || s.on R.HLF_LANE_AUDIT_RESYNC l
  if initAck ∧ waits then .next (s.initAck l)
  else if s.on R.HLF_LANE_AUDIT_RESYNC l ∨ ¬ s.on R.HLF_LANE_STATUS_ACTIVE l then .next s
  else .next (s.creditAudit l held.toNat rxReturned.toNat)

/-- TRAIN_BLOCK_RX (R90, R94): phase 1h takes the head to SWITCH, phase 4h says that its receiver holds lock, phase 3h
reports its PRBS errors. `t` is the instant from which the new mode's blocks count (R82). -/
def execTrainBlockRx (l : Fin 192) (phase : BitVec 4) (errors : BitVec 32) (t : Int) (s : State) : Out :=
  let p := s.headOfLane l
  match phase.toNat with
  | 1 => if s.portState p = Port.switch ∧ ¬ (s.head p).modeOk ∧ l.val = 2 * p then .next (s.switchMode p t) else .next s
  | 3 =>
    let s1 := s.setLane l { s.lane l with prbsDown := some errors.toNat }
    .next ((s1.checkPrbs p).checkLanePrbs l)
  | 4 => .next ((s.setLane l { s.lane l with phase4 := true }).checkSwitch p)
  | _ => .next s

/-- ECHO_RX (R85): D is (round trip − TURN) / 2 in timing units, for the TIMING blocks not sent by the reply's instant; the lead time
follows, and in DELAY or a retrain the credits are initialised. A D above 2 µs fails training with RANGE, and in a retrain leaves the lane to its timeout (log 132). -/
def execEchoRx (l : Fin 192) (tag : BitVec 16) (turn : BitVec 20) (e : EchoTrip) (s : State) : Out :=
  let p := s.headOfLane l
  match (s.lane l).echo with
  | none => .next s
  | some x =>
    if x.1 ≠ tag.toNat then .next s
    else
      let rate := match (s.head p).cand with
        | some c => c.2
        | none => s.get R.HLF_PORT_MODE_RATE p
      let d := roundDiv (e.trip - turn.toNat) 2
      let long := decide (2000000000 < d * (blockFs rate / 64))
      let training := decide (s.portState p = Port.delay)
      let s0 := s.sendDue l e.time
      let s1 := s0.setLane l { s0.lane l with echo := none }
      if training ∧ long then
        .next (((s1.portLeaves p Port.failed).set R.HLF_PORT_STATE_LAST_STATUS Status.range.code p))
      else if s.on R.HLF_LANE_STATUS_RETRAINING l ∧ long then .next s1
      else
        let s2 := (s1.set R.HLF_LANE_STATUS_DELAY d l).setLane l { s1.lane l with measured := true }
        let s3 := match s2.stationOfHead p with
          | some n => s2.syncLead n
          | none => s2
        if s.on R.HLF_LANE_STATUS_RETRAINING l then .next (s3.creditInit l) else .next (s3.checkDelay p)

/-- LINK_CTRL_RETRAIN_RX (R96). -/
def execLinkCtrlRetrainRx (l : Fin 192) (s : State) : Out := .next (s.retrainLane l false)

/-- UNKNOWN_CTRL_BLOCK_RX (R64): `kind` is byte 0, in 8b/10b the K character. -/
def execUnknownCtrlBlockRx (l : Fin 192) (kind : BitVec 8) (s : State) : Out :=
  if Blk.known (s.lane l).k8 kind.toNat then .next s else .next (s.dropOn l)

/-- LANE_SYNC_HEADER_ERRORS (R96): the lane retrains, or the port is in RETRAIN once every lane does. -/
def execLaneSyncHeaderErrors (l : Fin 192) (lockLost : Bool) (s : State) : Out :=
  .next ((s.when lockLost fun s => s.set R.HLF_LANE_STATUS_LOCK 0 l).retrainLane l true)

/-- A port that is down, or that negotiates again, starts discovery when it may (R90, R98). -/
def State.resumeDiscover (s : State) (p : Nat) : State :=
  if s.mayDiscover p ∧ (s.portState p = Port.down ∧ ¬ (s.head p).retry ∨ s.portState p = Port.retrain ∧ (s.head p).renew) then
    s.startDiscover p
  else s

/-- A lane holds block lock (R61, R90, R94, R96): lane 2p of a port that may discover starts discovery; a candidate's lanes report phase
4h once the head has taken MODE; the lanes of a PRBS test have relocked; a retraining lane starts its PRBS test, and after it goes on. -/
def State.laneLocked (s : State) (l : Nat) : State :=
  let q := l / 2
  let p := s.headOfLane l
  let s1 := s.set R.HLF_LANE_STATUS_LOCK 1 l
  if l = 2 * q ∧ s1.mayDiscover q ∧ (s1.portState q = Port.down ∧ ¬ (s1.head q).retry ∨
      s1.portState q = Port.retrain ∧ (s1.head q).renew) then s1.startDiscover q
  else if s1.portState p = Port.switch ∧ (s1.trialLanes p).contains l then
    (if (s1.head p).modeOk then (s1.sendBlock l Blk.train (trainBody 4 0x21 0)).checkSwitch p else s1)
  else if s1.portState p = Port.prbs then s1.checkPrbs p
  else if s1.on R.HLF_LANE_STATUS_RETRAINING l then (if (s1.lane l).prbs then s1.checkLanePrbs l else s1.startPrbs l)
  else s1

/-- LANE_BLOCK_LOCK (R61, R90, R94, R96). On a lane in 8b/10b the boundary is found at the K28.5 of an IDLE block among the characters
received, without which the lane has no lock, and kept by counting in eights. A lane whose reference is missing does not lock (R565). -/
def execLaneBlockLock (x : LockSeen) (s : State) : Out :=
  let l := x.lane.val
  if s.refRuns (l / 48) = false then .next s
  else if (s.lane l).k8 then
    match boundary (x.chars.map (·.toNat)) with
    | none => .next s
    | some i => .next ((s.setLane l { s.lane l with boundary := i % 8 }).laneLocked l)
  else .next (s.laneLocked l)

/-- DISCOVER_TIMEOUT (R90). -/
def execDiscoverTimeout (p : Fin 96) (s : State) : Out :=
  if s.portState p = Port.discover then .next ((s.setHead p { s.head p with retry := true, renew := false }).setPort p Port.down)
  else .next s

/-- DISCOVER_RETRY (R90). -/
def execDiscoverRetry (p : Fin 96) (s : State) : Out :=
  if s.portState p = Port.down ∧ (s.head p).retry then
    let s1 := s.setHead p { s.head p with retry := false }
    .next (if s1.mayDiscover p then s1.startDiscover p else s1)
  else .next s

/-- SWITCH_TIMEOUT (R90, R93). -/
def execSwitchTimeout (p : Fin 96) (s : State) : Out :=
  if s.portState p = Port.switch then .next (s.nextCandidate p) else .next s

/-- PRBS_TEST_DONE (R94, R96): a lane's upstream error count; once every lane has both counts the candidate passes or the
next is tried. -/
def execPrbsTestDone (l : Fin 192) (errors : BitVec 32) (s : State) : Out :=
  let p := s.headOfLane l
  let s1 := (s.setLane l { s.lane l with prbsUp := some errors.toNat }).set R.HLF_LANE_PRBS_COUNT errors.toNat l
  if s.portState p = Port.prbs ∨ s.on R.HLF_LANE_STATUS_RETRAINING l then .next ((s1.checkPrbs p).checkLanePrbs l) else .next s

/-- RETRAIN_TIMEOUT (R98). -/
def execRetrainTimeout (l : Fin 192) (s : State) : Out :=
  if s.on R.HLF_LANE_STATUS_RETRAINING l then .next (s.renegotiate (s.headOfLane l)) else .next s

/-- CREDIT_BLOCK_REFRESH (R74). -/
def execCreditBlockRefresh (l : Fin 192) (s : State) : Out :=
  if s.on R.HLF_LANE_STATUS_ACTIVE l then
    let s1 := s.drainLane l (s.lane l).buf.length
    .next (s1.sendBlock l Blk.credit (creditBody (s1.get R.HLF_LANE_CREDIT_RETURNED l) false 0))
  else .next s

/-- DELAY_MEASURE_TIMER (R85): on each lane of an ACTIVE head that is not retraining. -/
def execDelayMeasureTimer (p : Fin 96) (s : State) : Out :=
  if s.portActive p then
    .next (s.each ((s.headLanes p).filter fun l => s.on R.HLF_LANE_STATUS_ACTIVE l) State.sendEcho)
  else .next s

/-- HLF_CTRL_WRITE (R90): EN gates discovery only. -/
def execHlfCtrlWrite (w : World) (v : BitVec 32) (s : State) : Out :=
  .next (s.rowWrite w .HLF_CTRL 0 0 v.toNat none none 0 fun s =>
    s.each ports96 fun s p =>
      if s.on R.HLF_CTRL_EN then s.resumeDiscover p
      else
        let s1 := s.setHead p { s.head p with retry := false }
        if s1.portState p = Port.discover then s1.setPort p Port.down else s1)

/-- EN of a port takes effect (R90): 0 is DISABLED, and the head that holds the port with others negotiates again; 1 leaves DISABLED,
REFUSED and FAILED. -/
def State.portEnable (s : State) (p : Nat) : State :=
  if ¬ s.on R.HLF_PORT_CTRL_EN p then
    let q := s.get R.HLF_PORT_STATE_PRIMARY p
    if q ≠ p then (s.renegotiate q).setPort p Port.disabled
    else s.portLeaves p Port.disabled
  else if s.portState p = Port.disabled ∨ s.portState p = Port.refused ∨ s.portState p = Port.failed then
    let s1 := (s.setHead p { s.head p with keepMode := false, oldMode := none }).setPort p Port.down
    if s1.mayDiscover p then s1.startDiscover p else s1
  else s

/-- PORT_ENABLE_WRITE (R90). -/
def execPortEnableWrite (w : World) (p : Fin 96) (v : BitVec 32) (s : State) : Out :=
  .next (s.rowWrite w .HLF_PORT_CTRL p 0 v.toNat none none 0 fun s => s.portEnable p)

/-- PORT_RETRAIN (R98): full renegotiation, or STATE while the head's station is outside IDLE. A write without RETRAIN
only sets the other fields. -/
def execPortRetrain (w : World) (p : Fin 96) (v : BitVec 32) (s : State) : Out :=
  let go := bit v.toNat 24
  let q := s.get R.HLF_PORT_STATE_PRIMARY p
  let busy := match s.stationOfHead q with
    | some n => s.stBusy n
    | none => false
  .next (s.rowWrite w .HLF_PORT_CTRL p 0 v.toNat (refuseIf (go && busy) .state) (some R.HLF_PORT_STATE_LAST_STATUS) p fun s =>
    let s1 := s.portEnable p
    if go ∧ s1.on R.HLF_PORT_CTRL_EN p then s1.renegotiate q else s1)

/-- HEAD_CFG_REQUEST (R86): one request at a time; a head that is not ACTIVE ends it with ABSENT. A read of bring-up that is
outstanding at the head ends first (log 116). -/
def execHeadCfgRequest (w : World) (v : BitVec 32) (s : State) : Out :=
  let go := bit v.toNat 0
  .next (s.rowWrite w .HLF_CFG_CMD 0 0 v.toNat (refuseIf (go && s.on R.HLF_CFG_CMD_BUSY) .busy) (some R.HLF_CFG_CMD_STATUS) 0
    fun s =>
      let p := s.get R.HLF_CFG_ADDR_PORT
      if ¬ go then s
      else if s.portActive p ∧ p < 96 then
        let c : CfgReq := { tag := s.hlf.nextTag, port := p, addr := s.get R.HLF_CFG_ADDR_ADDR, write := s.on R.HLF_CFG_CMD_WRITE,
                            data := s.get R.HLF_CFG_DATA_DATA, sent := false }
        (({ s with hlf := { s.hlf with cfgReq := some c, nextTag := (c.tag + 1) % 256 } } : State).set R.HLF_CFG_CMD_BUSY 1
          ).nextRequest p
      else s.set R.HLF_CFG_CMD_STATUS Status.absent.code)

/-- HEAD_CFG_TIMEOUT (R87). -/
def execHeadCfgTimeout (s : State) : Out :=
  match s.hlf.cfgReq with
  | none => .next s
  | some c => .next ((s.endCfg Status.timeout.code).nextRequest c.port)

end Sys2Proof.Machine
end

