-- ==== Sys2Proof/Machine/Iea.lean ====
section
/-! DEFINITION. The commands of the inspection engines (spec/09, spec/10). -/

namespace Sys2Proof.Machine

/-- An input of a cell holds a marker-only word: taking it is no firing and costs no slot (R253). -/
def Engine.meetsMarker (x : Engine) (c : Nat) : Bool :=
  ((x.cfgOf c).cellInputs c).any fun p =>
    match x.peek c p with
    | some w => w.marker
    | none => false

/-- A port cell of an engine that runs fires; an output port that takes a marker-only word does not count (R253). -/
def State.firePort (s : State) (e c : Nat) : State :=
  let i := c - 44
  let before := (s.engine e).cell c
  let marker := (s.engine e).meetsMarker c
  if ¬ s.on R.IEA_ENG_PORT_USED e i then s
  else
    let s1 := if s.on R.IEA_ENG_PORT_DIR e i then s.fireOutput e i else s.fireInput e i
    if (s1.engine e).cell c = before ∨ marker = true then s1 else s1.countFiring e c

/-- A cell that is no port fires (R252). -/
def State.fireCell (s : State) (e c : Nat) : State :=
  let x := s.engine e
  match x.fire c (s.bandExp (s.engStation e)) s.fresh with
  | .idle => s
  | .fault kind => s.faultEngine e kind c
  | .done y n =>
    let s1 : State := { s.setEngine e y with fresh := s.fresh + n }
    if x.meetsMarker c && (x.cell c).pend.isEmpty then s1 else s1.countFiring e c

/-- A cell holds its operands and has room at its output (R252, R270). -/
def State.cellReady (s : State) (e c : Nat) : Bool :=
  let x := s.engine e
  if c < 44 then x.fire c (s.bandExp (s.engStation e)) s.fresh != .idle
  else
    let i := c - 44
    s.on R.IEA_ENG_PORT_USED e i &&
      (if s.on R.IEA_ENG_PORT_DIR e i then
        (s.queue (s.portQueue e i)).present.isEmpty && ((x.cfgOf c).cellInputs c).any fun p => (x.peek c p).isSome
      else (x.cell c).out.isNone && (!(x.cell c).pend.isEmpty || (s.portWord (s.portQueue e i)).1.isSome))

/-- What a local store or overflow access of the firing meets (R246, R248): whether it faults. -/
def State.storeError (s : State) (e c : Nat) : LsErr → Bool × State
  | .none => (false, s)
  | .corrected => (false, s.addSat R.IEA_ENG_LS_ECC_CORR 1 e)
  | .uncorrectable => (true, (s.addSat R.IEA_ENG_LS_ECC_UNCORR 1 e).faultEngine e 1 c)
  | .overflow => (true, s.faultEngine e 2 c)

/-- Books that follow a firing: a reload waits for the engines, and the seal for their tokens. -/
def State.afterFiring (s : State) (e : Nat) : State := s.checkReload.syncHeld (s.engStation e)

/-- CELL_FIRE (R252 to R262, R265, R269 to R272, R276 to R295): cell `c` of engine `e` fires, when it can, meeting `err` in
its store accesses; `busy` are the busy ticks its entry has waited since the last firing (R38). A FAULTED engine's input
ports discard their words. After shutdown the entry of the domain withholds every acknowledge (R483). -/
def execCellFire (e : Fin 512) (c : Fin 48) (err : LsErr) (busy : Nat) (s : State) : Out :=
  let i := e.val
  let s0 := s.add R.SCU_PACE_BUSY busy (i / 32)
  if s.dev = Dev.thermalLatch ∧ 44 ≤ c.val ∧ ¬ s.on R.IEA_ENG_PORT_DIR i (c.val - 44) then .next s
  else if s.engState i = Eng.running then
    if s.cellReady i c.val then
      let r := s0.storeError i c.val err
      if r.1 then .next (r.2.afterFiring i)
      else
        let s1 := if c.val < 44 then r.2.fireCell i c.val else r.2.firePort i c.val
        .next (s1.afterFiring i)
    else .next (if c.val < 44 then s else s.firePort i c.val)
  else if s.engState i = Eng.faulted ∧ 44 ≤ c.val ∧ s.on R.IEA_ENG_PORT_USED i (c.val - 44) ∧
      ¬ s.on R.IEA_ENG_PORT_DIR i (c.val - 44) then
    let s1 := s0.discardInput i (c.val - 44)
    .next ((if (s.portWord (s.portQueue i (c.val - 44))).1.isSome then s1.add R.SCU_PACE_HS 1 (i / 32) else s1).afterFiring i)
  else .next s

/-- HANDSHAKE_TIMEOUT_FAULT (R270): a ready cell has not completed a firing within IEA_CFG.HS_TIMEOUT µs. -/
def execHandshakeTimeoutFault (e : Fin 512) (c : Fin 48) (s : State) : Out :=
  let i := e.val
  .next (if s.engState i = Eng.running ∧ s.cellReady i c.val = true then (s.faultEngine i 6 c.val).afterFiring i else s)

/-- SEQ_CONTINUE (R265, R268): a write of 1 to IEA_ENG_CMD.CONT. -/
def execSeqContinue (w : World) (e : Fin 512) (s : State) : Out :=
  let i := e.val
  let waits := decide (s.engState i = Eng.running) && decide ((s.engine i).wait = .host)
  .next (s.hostWrite w .IEA_ENG_CMD i 0 (refuseIf (!waits) .state) (some R.IEA_ENG_CMD_LAST_STATUS) i fun _ s =>
    (s.seqStep i .cont).afterFiring i)

/-- A word of local store (R249): in the region of a cell that has run, what the cell left there (R275, R290). -/
def Engine.lsWord (x : Engine) (a : Nat) : Nat :=
  let kept := SMap.get x.ls 0 a
  if ¬ x.ran ∨ x.soft.contains a then kept
  else
    match x.regionOf false a with
    | some (c, base) => Config.regionWord (x.cell c).held (a - base * 16) kept % 2 ^ 32
    | none => kept

/-- A read of IEA_ENG_LS_DATA meets `err` and moves ADDR on to `a` (R246, R249); an overflow error is none of local store. -/
def State.lsRead (s : State) (i a : Nat) (err : LsErr) : State :=
  let s1 : State := if err = .uncorrectable then { s with fresh := s.fresh + 1 } else s
  let s2 := if err = .overflow then s1 else (s1.storeError i 0x3F err).2.afterFiring i
  s2.set R.IEA_ENG_LS_ADDR_ADDR a i

/-- LOCAL_STORE_ACCESS (R246, R249): an access of IEA_ENG_LS_DATA. -/
def execLocalStoreAccess (w : World) (e : Fin 512) (x : LsAccess) (s : State) : Out :=
  let i := e.val
  let a := s.get R.IEA_ENG_LS_ADDR_ADDR i
  match x.value with
  | none =>
    .next (s.hostRead w (RegId.addr .IEA_ENG_LS_DATA i) 4
      (if x.err = .uncorrectable then Config.freeStore s.fresh % 2 ^ 32 else (s.engine i).lsWord a) fun s => s.lsRead i (a + 1) x.err)
  | some v =>
    let busy := [Eng.running, Eng.reloading, Eng.faulted].contains (s.engState i)
    .next (s.hostWrite w .IEA_ENG_LS_DATA i 0 (refuseIf busy .busy) (some R.IEA_ENG_CMD_LAST_STATUS) i fun _ s =>
      (s.modEngine i fun y => { y with ls := SMap.put y.ls 0 a v.toNat, soft := a :: y.soft }).set R.IEA_ENG_LS_ADDR_ADDR (a + 1) i)

end Sys2Proof.Machine
end

