-- ==== Sys2Proof/Machine/Ilc.lean ====
section
/-! DEFINITION. The commands of the illumination controller (spec/16). -/

namespace Sys2Proof.Machine

/-- The last refused write or request of the ILC. -/
abbrev ilcLast : Option Fld := some R.ILC_STATUS_LAST_STATUS

/-- A fault, or none: four open or four short observations in a row (R432). -/
def State.judgeObservation (s : State) (c n : Nat) : State :=
  let x := s.chan c
  if 4 ≤ x.opens then s.stringFault c 1 n
  else if 4 ≤ x.shorts then s.stringFault c 2 n
  else s

/-- STRING_OBSERVATION (R430, R432, R433), of the oldest gate still to be observed: what channel `c` sensed at the falling edge of a gate of at least 1 µs: current in
1/4,096 of I_FS and string voltage in mV. -/
def execStringObservation (c : Fin 96) (cur : BitVec 12) (mv : BitVec 16) (s : State) : Out :=
  let i := c.val
  let x := s.chan i
  match x.observed with
  | none => .next s
  | some (y, rest) =>
    let short := s.get R.ILC_STR_CFG_SHORT_MV i
    let isOpen := decide (2 * cur.toNat < y.level)
    let isShort := !isOpen && decide (short ≠ 0 ∧ mv.toNat < short)
    let seen : Chan := { x with gates := rest, opens := if isOpen then x.opens + 1 else 0, shorts := if isShort then x.shorts + 1 else 0 }
    let s1 := (((s.setChan i seen).set R.ILC_STR_MEAS_I cur.toNat i).set R.ILC_STR_MEAS_V mv.toNat i).set R.ILC_STR_STATUS_SINCE 0 i
    .next ((s1.set R.ILC_STR_STATUS_FAILS (max seen.opens seen.shorts) i).judgeObservation i y.line)

/-- STRING_OVERCURRENT (R414, R433): sixteen cycles in a row of a channel that is lit, for the last line of its group. -/
def execStringOvercurrent (c : Fin 96) (s : State) : Out :=
  let i := c.val
  let lit := !(s.chan i).gates.isEmpty || decide (s.get R.ILC_STR_STATUS_MODE i = 1) || decide (s.get R.ILC_STR_STATUS_MODE i = 2)
  match (s.grp (s.get R.ILC_STR_CFG_GROUP i)).line with
  | some (n, _, _) => .next (if lit ∧ ¬ s.on R.ILC_STR_STATUS_FAULT i then s.stringFault i 3 n else s)
  | none => .next s

/-- DIAG_PULSE (R431): the due pulses of a group fire in the window after its last line, when it is wide enough. -/
def execDiagPulse (g : Fin 8) (s : State) : Out :=
  let i := g.val
  let x := s.grp i
  match x.line, (s.lst (s.grpStation i)).committed with
  | some (n, _, ee), l :: _ =>
    let w := s.get R.ILC_GRP_DIAG_DIAG_W i
    let stop : Int := 5 * l.ss - 64 * (s.get R.ILC_GRP_TIMING_ONDLY i + s.get R.ILC_GRP_TIMING_OFFDLY i : Nat)
    let start : Int := 5 * max ee l.at_
    let due := s.dueChannels i
    if s.groupLights i ∧ s.diagRuns i = true ∧ due ≠ [] ∧ start ≤ stop - (64 * w : Nat) then
      let e := (tickOf (stop - (64 * w : Nat)), tickOf stop)
      .next (s.each due fun s c =>
        ((s.setChan c { s.chan c with deferred := 0 }).gateOn c e 512 n).add R.ILC_STR_STATUS_DIAGS 1 c)
    else .next s
  | _, _ => .next s

/-- PATTERN_WINDOW_WRITE (R420, R422): word `o` of bank `j`. -/
def execPatternWindowWrite (w : World) (j : Fin 16) (o : Fin 12288) (v : BitVec 32) (s : State) : Out :=
  let a := 0x3900000 + 0xC000 * j.val + 4 * o.val
  let g := j.val / 2
  let active := decide (s.get R.ILC_GRP_BANK_ACTIVE g = j.val % 2)
  let busy := active || s.on R.ILC_GRP_BANK_HELD g
  .next (s.windowWrite w a (refuseIf busy .busy)
    (fun s => ((s.refuse w .busy ilcLast).add R.ILC_REFUSED_COUNT 1).raise (evPatternRefused g))
    (fun s => { s with leaf := s.leaf.write a (leBytes 4 v.toNat) }))

/-- Make the inactive bank of a group pending at line `h` (R423, R424). -/
def State.pendBank (s : State) (g h : Nat) : State :=
  let u : BankUse := { bank := 1 - s.get R.ILC_GRP_BANK_ACTIVE g, h := h, ramp := s.on R.ILC_GRP_BANK_RAMP_EN g,
                       rlen := s.get R.ILC_GRP_BANK_RLEN g, r0 := s.get R.ILC_GRP_RAMP_R0 g, r1 := s.get R.ILC_GRP_RAMP_R1 g }
  let s1 := if (s.grp g).pend.isSome then (s.set R.ILC_GRP_BANK_REPLACED 1 g).add R.ILC_REPLACED_COUNT 1 else s
  (s1.setGrp g { s1.grp g with pend := some u }).set R.ILC_GRP_BANK_PENDING 1 g

/-- PATTERN_SWAP_REQUEST (R423, R424): a write of ILC_GRP_BANK. In IDLE the next line to be committed is W_0 of the next run. -/
def execPatternSwapRequest (w : World) (g : Fin 8) (v : BitVec 32) (s : State) : Out :=
  let i := g.val
  let x := v.toNat
  let go := decide (R.ILC_GRP_BANK_GO.of x = 1)
  let n := s.grpStation i
  let k := s.bandExp n
  let h0 := s.get R.ILC_GRP_SWAP_H i
  let next := if s.stBusy n then s.firstFree n else s.w0 n
  let h := if h0 = 0 then nextBandStart next k else h0
  let check := pickStatus [refuseIf (decide (20 < R.ILC_GRP_BANK_RLEN.of x)) .range,
    refuseIf (go && (!isBandStart h k || (s.stBusy n && decide (h < next)))) .range,
    refuseIf (go && s.on R.ILC_GRP_BANK_HELD i) .busy]
  .next (s.rowWrite w .ILC_GRP_BANK i 0 x check ilcLast 0 fun s => if go then s.pendBank i h else s)

/-- FORCE_OFF takes the value `b` at the first line of the next band, at once when no line has been committed (R426). A later write for
the same band takes the earlier one's place; the bands that a restart can trigger again keep their values (R338). -/
def State.forceOff (s : State) (g : Nat) (b : Bool) : State :=
  let n := s.grpStation g
  let x := s.grp g
  if s.stBusy n ∧ (s.lst n).everCommitted = true then
    let h := nextBandStart (s.firstFree n) (s.bandExp n)
    s.setGrp g { x with offs := ((h, b) :: x.offs.filter fun p => p.1 < h).take 8 }
  else (s.setGrp g { x with offs := [(0, b)] }).set R.ILC_GRP_CTRL_OFF_NOW (b2n b) g

/-- FORCE_OFF_WRITE (R426): a write of ILC_GRP_CTRL; its other fields change only in station state IDLE. -/
def execForceOffWrite (w : World) (g : Fin 8) (v : BitVec 32) (s : State) : Out :=
  let i := g.val
  let x := v.toNat
  let moved := s.changes [R.ILC_GRP_CTRL_EN, R.ILC_GRP_CTRL_STATION, R.ILC_GRP_CTRL_MODE, R.ILC_GRP_CTRL_LEN_LOG, R.ILC_GRP_CTRL_STEP] i 0 x
  let busy := s.stBusy (s.grpStation i) || s.stBusy (R.ILC_GRP_CTRL_STATION.of x)
  let check := pickStatus [refuseIf (moved && busy) .state, refuseIf (decide (8 < R.ILC_GRP_CTRL_LEN_LOG.of x)) .range]
  let new := decide (R.ILC_GRP_CTRL_FORCE_OFF.of x = 1)
  let old := s.on R.ILC_GRP_CTRL_FORCE_OFF i
  .next (s.rowWrite w .ILC_GRP_CTRL i 0 x check ilcLast 0 fun s =>
    let s1 := if new = old then s else s.forceOff i new
    if s1.on R.ILC_GRP_CTRL_EN i then s1 else s1.gatesLow (s1.channelsOf i))

/-- ILC_TCOMP_ENABLE (R427, R556): a write of ILC_GRP_TCOMP. -/
def execIlcTcompEnable (w : World) (g : Fin 8) (v : BitVec 32) (s : State) : Out :=
  let i := g.val
  let x := v.toNat
  let en := decide (R.ILC_GRP_TCOMP_EN.of x = 1)
  .next (s.rowWrite w .ILC_GRP_TCOMP i 0 x (refuseIf (en && s.pointsBad i) .range) ilcLast 0 fun s =>
    let s1 := (s.setGrp i { s.grp i with taken := false }).set R.ILC_GRP_TCOMP_HOLD (b2n en) i
    if en then s1.raise (evCompHold i) else s1)

/-- STRING_FAULT_CLEAR (R433): a write of ILC_STR_STATUS. -/
def execStringFaultClear (w : World) (c : Fin 96) (v : BitVec 32) (s : State) : Out :=
  let i := c.val
  let x := v.toNat
  .next (s.rowWrite w .ILC_STR_STATUS i 0 x none ilcLast 0 fun s =>
    if R.ILC_STR_STATUS_FAULT.of x = 1 then
      ((s.setChan i { s.chan i with opens := 0, shorts := 0 }).set R.ILC_STR_STATUS_FAILS 0 i).syncFaulted
    else s)

end Sys2Proof.Machine
end

