-- ==== Sys2Proof/Machine/Kru.lean ====
section
/-! DEFINITION. The commands of the Kelim ring (spec/13). -/

open Sys2Proof

namespace Sys2Proof

/-- D of a Kelim lane in timing units of 40 ps (R85, R345). -/
def KTrain.d (x : KTrain) : Nat := Machine.roundDiv (x.trip - x.turn.toNat) 2

/-- D of a Kelim lane in LTU units. -/
def KTrain.units (x : KTrain) : Nat := Machine.roundDiv (40000 * x.d) 78125

/-- A lane that has block lock passes with no PRBS error in either direction, and a D of at most 2 µs (R85, R348). -/
def KTrain.pass (x : KTrain) : Bool := decide (x.up = 0) && decide (x.down = 0) && decide (x.d ≤ 50000)

end Sys2Proof

namespace Sys2Proof.Machine

/-! ### Ports -/

/-- The lanes of a port that retrain have relocked, with what their PRBS31 and ECHO showed (R96, R347): one that passes takes its new D and
is initialised; one that fails stays as it is. -/
def State.laneRetrained (s : State) (pt : Nat) (locked : List Nat) (at_ : Nat → KTrain) : State :=
  s.each (locked.filter fun j => (s.klane (16 * pt + j)).training) fun s j =>
    let l := 16 * pt + j
    let s1 := s.trainLane l (at_ j).up.toNat
    if (at_ j).pass then
      let s2 := s1.set R.KRU_PORT_LANES_DELAY
        ((s1.portLanes pt).foldl (fun a k => max a (s1.klane k).d) (at_ j).units) pt
      (s2.setKlane l { s2.klane l with d := (at_ j).units }).kelimInit l
    else s1

/-- KRU_PORT_TRAIN_DONE (R346, R348, R353): the lanes with block lock, what their training showed, and the VER of the
neighbour's TRAIN. With enough lanes the port reaches AUTH and authentication begins. On a port that has trained the row ends the
retrain of single lanes (R96, log 117). Without SD_REFCLK4 no lane locks, and a port in TRAIN stays there (R565). -/
def execKruPortTrainDone (pt : Fin 2) (lock : BitVec 16) (ver : BitVec 8) (tr : List KTrain) (s : State) : Out :=
  let i := pt.val
  let at_ (j : Nat) : KTrain := tr.getD j {}
  let locked := (List.range 16).filter fun j => lock.getLsbD j && s.refRuns 4
  let lanes := locked.filter fun j => (at_ j).pass
  if s.kruOn ∧ (s.kport i = KPort.auth ∨ s.kport i = KPort.up) then .next (s.laneRetrained i locked at_)
  else if ¬ s.kruOn ∨ s.refRuns 4 = false ∨ (s.kport i ≠ KPort.train ∧ s.kport i ≠ KPort.dead) then .next s
  else
    let s0 := s.each locked fun s j => s.trainLane (16 * i + j) (at_ j).up.toNat
    if lanes.length < s.get R.KRU_CFG_MIN_LANES then
      .next ((s0.portLost i KPort.failed).set R.KRU_PORT_STATUS_LAST_STATUS Status.range.code i)
    else if ver.toNat < 0x10 then
      .next ((s0.portLost i KPort.refused).set R.KRU_PORT_STATUS_LAST_STATUS Status.version.code i)
    else
      let s1 := (s0.set R.KRU_PORT_LANES_ACTIVE (lanes.foldl (fun a j => a + 2 ^ j) 0) i).set R.KRU_PORT_LANES_DELAY
        (lanes.foldl (fun a j => max a (at_ j).units) 0) i
      let s2 := s1.each lanes fun s j =>
        let x := s.klane (16 * i + j)
        (s.setKlane (16 * i + j) { d := (at_ j).units, tag := x.tag, scr := x.scr }).kelimInit (16 * i + j)
      .next ((s2.setKport i KPort.auth).authStep i 1)

/-- KRU_PORT_RETRY (R348): 100 ms after a failed training. -/
def execKruPortRetry (pt : Fin 2) (s : State) : Out :=
  .next (if s.kruOn ∧ s.kport pt.val = KPort.failed then s.startTrain pt.val else s)

/-- AUTH_FRAME_RX (R352, R356, R508): a request of the neighbour is answered, the answer to a request of this end is
judged. AUX is the length of the message. -/
def execAuthFrameRx (l : Fin 32) (k : KFrame) (m : SpdmMsg) (s : State) : Out :=
  let pt := portOf l.val
  .next (s.kelimRx l.val k FType.auth (fun ws => 1 ≤ ws.length && ws.length ≤ 1024) id fun _ _ s =>
    match m with
    | .request v r busy =>
      let a := s.spdmAnswer v.toNat r busy
      (s.takeFresh.2.emit (.spdm (3 + pt) a)).sendAuth pt a
    | .response ok dig serial => s.authAnswer pt ok (dig.map (·.toNat)) serial.toNat)

/-- KELIM_CRED_STATUS_RX (R73 to R77, R96, R97, R347), after the control blocks that came first: INIT_ACK ends the resync window of a
lane; outside it the credit invariant is evaluated, G = 8,192. A frame's blocks leave the lane buffer as it is received, so O is 0.
The member sends its own CRED_STATUS in answer (log 117). -/
def execKelimCredStatusRx (l : LaneCtl) (held rxReturned _spent : BitVec 16) (initAck : Bool) (s0 : State) : Out :=
  let i := l.lane.val
  let s := s0.ahead i l.ctl
  let x := s.klane i
  let m := s.get R.KRU_PORT_LANES_ACTIVE (portOf i)
  if x.resync then
    .next (if initAck ∧ x.training = false then
        ((s.setKlane i { x with resync := false }).set R.KRU_PORT_LANES_ACTIVE (m ||| 2 ^ (i % 16)) (portOf i)).sendCredStatus i
      else s)
  else if s.kruOn = true ∧ bit m (i % 16) = true then
    let sum := held.toNat + (x.returned + 65536 - rxReturned.toNat) % 65536
    .next (if sum = 8192 then s.sendCredStatus i else s.kelimRetrain i true)
  else .next s

/-- KRU_PORT_DEAD (R367): the port has had no lock on its control lane, or too few lanes, for 1 ms. -/
def execKruPortDead (pt : Fin 2) (s : State) : Out :=
  let st := s.kport pt.val
  .next (if s.kruOn = true ∧ (st = KPort.up ∨ st = KPort.auth) then s.portLost pt.val KPort.dead else s)

/-! ### Forming -/

/-- DISCOVER_FRAME_RX (R353, R354): `foreign` says that another timing member sent it. -/
def execDiscoverFrameRx (l : Fin 32) (k : KFrame) (foreign : Bool) (s : State) : Out :=
  .next (s.kelimRx l.val k FType.discover (fun ws => ws.length = 1) id fun h ws s =>
    let w := ws.getD 0 0
    let next := bits w 0 16
    let ver := bits w 16 8
    if ver < 0x10 then
      (s.portLost (portOf l.val) KPort.refused).set R.KRU_PORT_STATUS_LAST_STATUS Status.version.code (portOf l.val)
    else if h.dst ≠ broadcast ∧ h.dst ≠ s.kId then s.ringOut FType.discover h ws
    else if s.timing ∧ h.src = 1 then
      (if foreign then s.ringFail .busy
       else if s.ringState = Ring.forming ∨ s.ringState = Ring.reform then
         ({ s with kru := { s.kru with members := next - 1, back := true } } : State).checkFormed
       else s)
    else if s.kId = 0 then
      (if 65534 ≤ next then s.ringFail .range
       else (((s.set R.KRU_STATUS_ID next).ringOut FType.discover h [next + 1 + min ver 0x10 * 65536]).sendRoster).syncMember.foldOpen)
    else s.ringOut FType.discover h ws)

/-- ROSTER_FRAME_RX (R354, R355). -/
def execRosterFrameRx (l : Fin 32) (k : KFrame) (s : State) : Out :=
  .next (s.kelimRx l.val k FType.roster (fun ws => ws.length = 2) id fun h ws s =>
    s.ringDeliver FType.roster h ws fun s =>
      let w := ws.getD 0 0
      let role := bits w 16 2
      let m : KMember := { role := role, stations := if role = 2 then 0 else bits w 24 8, serial := ws.getD 1 0 }
      if s.timing then
        (({ s with kru := { s.kru with roster := SMap.insert s.kru.roster (bits w 0 16) m } } : State).checkFormed).syncMember
      else s)

/-- FORMED_FRAME_RX (R354, R356, R368). -/
def execFormedFrameRx (l : Fin 32) (k : KFrame) (s : State) : Out :=
  .next (s.kelimRx l.val k FType.formed (fun ws => ws.length = 3) id fun h ws s =>
    s.ringDeliver FType.formed h ws fun s =>
      let w := ws.getD 0 0
      s.takeFormed (bits w 0 16) (bit w 16) ((List.range 8).map fun n => bits (ws.getD (1 + n / 4) 0) (16 * (n % 4)) 16))

/-- FOLD_FRAME_RX (R367, R368). -/
def execFoldFrameRx (l : Fin 32) (k : KFrame) (s : State) : Out :=
  .next (s.kelimRx l.val k FType.fold (fun ws => ws.length = 1) id fun h ws s =>
    s.ringDeliver FType.fold h ws fun s =>
      let w := ws.getD 0 0
      let s1 := s.noteFold (bits w 0 16) (bits w 16 1)
      if s1.formed then s1.reform.rediscover else s1)

/-- The link of a fold: between the member of that number and its East neighbour. -/
def foldLink (members : Nat) (f : Nat × Nat) : Nat :=
  if f.2 = 0 then f.1 else if f.1 = 1 then members else f.1 - 1

/-- Two dead links cut off a member that contributes (R368). -/
def State.cutOff (s : State) : Bool :=
  let ls := s.kru.folds.map (foldLink s.kru.members)
  let a := ls.foldl min s.kru.members
  let b := ls.foldl max 0
  s.kru.roster.any fun e => decide (a < e.1) && decide (e.1 ≤ b) && decide (e.2.role ≠ 2) && decide (e.2.stations ≠ 0)

/-- FOLD_FORMED_TIMER (R368): 1 ms after a fold, or after the return of a link, the timing member forms the ring again. -/
def execFoldFormedTimer (t : Int) (s : State) : Out :=
  if s.timing ∧ s.ringState = Ring.reform then
    let s1 := if s.cutOff then s.raise Ev.memberLost else s
    .next (((s1.sendFormed s1.kru.members).owedAligns t).reissueTokens)
  else .next s

/-- RING_REFORM_TIMEOUT (R356): REFORM_MS without FORMED. -/
def execRingReformTimeout (s : State) : Out :=
  .next (if s.ringState = Ring.forming then s.ringFail .timeout
    else if s.ringState = Ring.reform then s.ringFail .absent else s)

/-- KRU_CFG_WRITE (R354, R356). -/
def execKruCfgWrite (w : World) (v : BitVec 32) (s : State) : Out :=
  let x := v.toNat
  let ml := R.KRU_CFG_MIN_LANES.of x
  let check := pickStatus [
    refuseIf (s.changes [R.KRU_CFG_EN, R.KRU_CFG_TIMING] 0 0 x && !s.ringIdle) .state,
    refuseIf (decide (ml = 0) || decide (16 < ml) || decide (R.KRU_CFG_TOKEN_TIMEOUT.of x = 0) ||
      decide (R.KRU_CFG_REFORM_MS.of x = 0)) .range]
  let was := s.on R.KRU_CFG_EN
  let wasT := s.timing
  .next (s.rowWrite w .KRU_CFG 0 0 x check (some R.KRU_STATUS_LAST_STATUS) 0 fun s =>
    let on := s.on R.KRU_CFG_EN
    if on ∧ ¬ was then s.startKru
    else if was ∧ ¬ on then s.stopKru
    else if on ∧ s.timing ≠ wasT then
      let s1 := (s.set R.KRU_STATUS_ROLE (b2n s.timing)).syncMember
      ({ s1 with kru := { s1.kru with timeOff := if s1.timing then 0 else s1.kru.timeOff } } : State).tryDiscover
    else s)

/-! ### Ring time (R357) -/

/-- TIME_SEND_TIMER (R357, R360): every 1.024 ms, at LTU instant `t`. -/
def execTimeSendTimer (t : Int) (s : State) : Out :=
  if s.kruOn ∧ s.timing ∧ s.kId = 1 then
    let c := s.kru.timeCount + 1
    let s1 : State := { s with kru := { s.kru with timeCount := c } }
    let s2 := (s1.replayAll t).ringSend FType.time 0 broadcast [ofSigned 64 t, 0]
    .next (if c % 1024 = 0 ∧ s2.formed = true then
      s2.each (s2.ringStations.filter fun n => s2.stBusy n ∧ s2.stState n ≠ St.armed) fun s n => s.sendAlignReq n t
    else s2)
  else .next s

/-- TIME_FRAME_RX (R357): a TIME frame whose START arrives at LTU instant `t` and leaves `resid` LTU units later. -/
def execTimeFrameRx (l : Fin 32) (k : KFrame) (t : Int) (resid : BitVec 32) (s : State) : Out :=
  let d := (s.klane l.val).d
  let fwd (ws : List Nat) : List Nat := [ws.getD 0 0, (bits (ws.getD 1 0) 0 32 + d + resid.toNat) % 2 ^ 32]
  .next (s.kelimRx l.val k FType.time (fun ws => ws.length = 2) fwd fun h ws s =>
    s.ringDeliver FType.time h (fwd ws) fun s =>
      let now : Int := toSigned 64 (ws.getD 0 0) + (bits (ws.getD 1 0) 0 32 + d : Nat)
      ({ s with kru := { s.kru with timeOff := now - t } } : State).replayAll t)

/-! ### Alignment (R359, R360) -/

/-- A station that may align: armed (R359), or running with its alignment done (R360, log 119). -/
def State.mayAlign (s : State) (n : Nat) : Bool :=
  decide (s.stState n = St.armed) || s.stBusy n && decide (s.get R.KRU_ST_STATUS_ALIGN n = 3)

/-- The status of an ALIGN_ACK (R359 step 3). -/
def State.alignStatus (s : State) (n w0 k d : Nat) : Status :=
  if ¬ s.ringStation n ∨ ¬ s.mayAlign n then .state
  else if w0 ≠ s.w0 n ∨ k ≠ s.bandExp n ∨ d ≠ s.get R.LTU_ST_RATIO_D n then .range
  else .ok

/-- ALIGN_REQ_RX (R359 step 3): a member that contributes to the station answers. An ARMED station waits for ALIGN_SET whatever the
answer, and returns to IDLE without it. -/
def execAlignReqRx (l : Fin 32) (k : KFrame) (s : State) : Out :=
  .next (s.kelimRx l.val k FType.alignReq (fun ws => ws.length = 3) id fun h ws s =>
    s.ringDeliver FType.alignReq h ws fun s =>
      let n := h.station
      if ¬ s.contributes n then s
      else
        let c := s.alignStatus n (bits (ws.getD 1 0) 0 48) (bits (ws.getD 1 0) 48 5) (bits (ws.getD 2 0) 0 32)
        let s1 := if c = .ok ∨ s.stState n = St.armed then
            let s2 := s.setKst n { s.kst n with ta := some (toSigned 64 (ws.getD 0 0)), latched := none }
            if s2.stState n = St.armed then s2.set R.KRU_ST_STATUS_ALIGN 1 n else s2
          else s
        s1.ringSend FType.alignAck n h.src [c.code])

/-- ALIGN_ACK_RX (R359). -/
def execAlignAckRx (l : Fin 32) (k : KFrame) (t : Int) (s : State) : Out :=
  .next (s.kelimRx l.val k FType.alignAck (fun ws => ws.length = 1) id fun h ws s =>
    s.ringDeliver FType.alignAck h ws fun s =>
      let n := h.station
      let x := s.kst n
      let c := bits (ws.getD 0 0) 0 8
      if s.timing = false ∨ x.ta = none then s
      else if c ≠ 0 then s.alignFail n c
      else (s.setKst n { x with acks := if x.acks.contains h.src then x.acks else h.src :: x.acks }).checkAlign n t)

/-- ALIGN_LATCH (R359 step 4): ring time reaches T_a. -/
def execAlignLatch (n : Fin 8) (s : State) : Out :=
  let i := n.val
  let x := s.kst i
  match x.ta, x.latched with
  | some ta, none =>
    let t := ta - s.kru.timeOff
    let s1 := s.setKst i { x with latched := some (s.posOf i t) }
    let s2 := if s1.stState i = St.armed then s1.set R.KRU_ST_STATUS_ALIGN 2 i else s1
    .next (s2.checkAlign i t)
  | _, _ => .next s

/-- ALIGN_SET_RX (R359 step 6, R360) at instant `t`. -/
def execAlignSetRx (l : Fin 32) (k : KFrame) (t : Int) (s : State) : Out :=
  .next (s.kelimRx l.val k FType.alignSet (fun ws => ws.length = 2) id fun h ws s =>
    s.ringDeliver FType.alignSet h ws fun s =>
      let p (i : Nat) : Int :=
        65536 * toSigned 48 (bits (ws.getD i 0) 0 48) + bits (ws.getD i 0) 48 16
      if (s.kst h.station).ta = none then s else s.takeAlignSet h.station (p 0) (p 1) t)

/-- ALIGN_ACK_TIMEOUT (R359): 100 ms after ALIGN_REQ an acknowledge is missing. -/
def execAlignAckTimeout (n : Fin 8) (s : State) : Out :=
  .next (if s.timing = true ∧ (s.kst n.val).ta.isSome then s.alignFail n.val Status.timeout.code else s)

/-- ALIGN_SET_TIMEOUT (R359): 200 ms after its ALIGN_REQ no ALIGN_SET has arrived. -/
def execAlignSetTimeout (n : Fin 8) (s : State) : Out :=
  .next (if s.timing = false ∧ (s.kst n.val).ta.isSome then s.alignFail n.val Status.timeout.code else s)

/-! ### Tokens, hinges and dovetails -/

/-- TOKEN_FRAME_RX (R329, R361 to R365) at instant `t`. In REFORM no token circulates. -/
def execTokenFrameRx (l : Fin 32) (k : KFrame) (t : Int) (s : State) : Out :=
  .next (s.kelimRx l.val k FType.token (fun ws => ws.length = 2) id fun h ws s =>
    let a := ws.getD 0 0
    let b := ws.getD 1 0
    let tok : KTok := { band := bits a 0 42, lap := bit a 42, bad := bit a 43, count := bits b 0 16, tdig := bits b 16 32 }
    if ¬ s.formed then s
    else if h.dst ≠ broadcast ∧ h.dst ≠ s.kId then s.ringOut FType.token h ws
    else if h.src = s.kId then s.tokenHome h.station tok t
    else s.tokenPass h.station h.src tok t)

/-- TOKEN_TIMEOUT (R365): the lowest token in circulation has not returned in TOKEN_TIMEOUT ms. -/
def execTokenTimeout (n : Fin 8) (s : State) : Out :=
  .next (if s.formed = true ∧ (s.kst n.val).flying ≠ [] then s.ringAuditFail R.KRU_AUD_LOST else s)

/-- HINGE_FRAME_RX (R363): a hinge at which this member has no such change staged. -/
def execHingeFrameRx (l : Fin 32) (k : KFrame) (s : State) : Out :=
  .next (s.kelimRx l.val k FType.hinge (fun ws => ws.length = 2) id fun h ws s =>
    s.ringDeliver FType.hinge h ws fun s =>
      let n := h.station
      let line := bits (ws.getD 0 0) 0 48
      let have_ : Bool := match (s.station n).staged with
        | some g => decide (g.h = line)
        | none => false
      if s.repeater ∨ have_ = true then s
      else ((s.set R.KRU_ST_HINGE_H line n).set R.KRU_ST_STATUS_HINGE_UNM 1 n).raise Ev.hingeUnmatched)

/-- Rows of `w` samples, as planes. -/
def rowsOf (w : Nat) : Nat → List Nat → List (List Nat)
  | 0, _ => []
  | n + 1, xs => xs.take w :: rowsOf w n (xs.drop w)

/-- DOVETAIL_FRAME_RX (R175, R176, R349, R366): the columns of the right head on the East neighbour, handed on with no queue (R21, log
124). -/
def execDovetailFrameRx (l : Fin 32) (k : KFrame) (s : State) : Out :=
  let lenOk (ws : List Nat) : Bool :=
    let w := ws.getD 0 0
    decide (ws.length = 1 + ceilDiv (bits w 48 9 * (bits w 57 3 + 1)) 4)
  .next (s.kelimRx l.val k FType.dovetail lenOk id fun h ws s =>
    s.ringDeliver FType.dovetail h ws fun s =>
      let w := ws.getD 0 0
      let n := h.station
      if s.on R.PCP_STC_ST_CTRL_RECV_RIGHT n ∧ s.stBusy n = true then
        s.dovetailColumns n (bits w 0 48) (rowsOf (bits w 48 9) (bits w 57 3 + 1) (wordsToSamples (ws.drop 1)))
      else s)

end Sys2Proof.Machine
end

