-- ==== Sys2Proof/Machine/Ltu.lean ====
section
/-! DEFINITION. The commands of the line timing unit (spec/04). Instants are LTU units (R99). -/

namespace Sys2Proof.Machine

/-- REFCLK_LOSS (R100): the running timebase holds its last frequency; with EN 0 nothing is kept of it (log 131). -/
def execRefclkLoss (s : State) : Out :=
  if s.on R.LTU_CTRL_EN ∧ ¬ s.ltu.refLost then
    .next ((({ s with ltu := { s.ltu with refLost := true } } : State).set R.LTU_REF_STATUS_HOLDOVER 1).raise Ev.refHoldover)
  else .next s

/-- HOLDOVER_EXIT (R100). -/
def execHoldoverExit (s : State) : Out := .next { s with ltu := { s.ltu with refLost := false } }

/-- TIMEBASE_LOCK (R555). -/
def execTimebaseLock (s : State) : Out :=
  .next (if s.on R.LTU_CTRL_EN ∧ ¬ s.ltu.refLost then s.set R.LTU_REF_STATUS_LOCK 1 else s)

/-- One step of CORR toward a target, at most 10 ppb (R101). -/
def stepCorr (cur target : Int) : Int := cur + clampI (-10) 10 (target - cur)

/-- TCOMP_TICK (R101 to R103): the correction of the sensor's temperature, in 1/40 °C; with EN 0 the target is 0 (log 8). -/
def execTcompTick (s : State) : Out :=
  let cur := s.getS R.LTU_REF_STATUS_CORR
  let k := s.get R.LTU_TCOMP_CTRL_SENSOR
  if ¬ s.on R.LTU_TCOMP_CTRL_EN then
    .next ((s.setS R.LTU_REF_STATUS_CORR (stepCorr cur 0)).set R.LTU_REF_STATUS_TCOMP_HOLD 0).syncSteer
  else if s.on R.THM_SNS_FAILED k then .next (s.set R.LTU_REF_STATUS_TCOMP_HOLD 1)
  else
    let target := interpCorr (5 * s.getS R.THM_SNS_TEMP k) (s.tcompPoints.map fun p => (4 * p.1, p.2))
    .next ((s.setS R.LTU_REF_STATUS_CORR (stepCorr cur target)).set R.LTU_REF_STATUS_TCOMP_HOLD 0).syncSteer

/-- TCOMP_ENABLE_WRITE (R102): a write of LTU_TCOMP_CTRL. -/
def execTcompEnableWrite (w : World) (v : BitVec 32) (s : State) : Out :=
  let x := v.toNat
  let bad := decide (23 < R.LTU_TCOMP_CTRL_SENSOR.of x) ||
    (decide (R.LTU_TCOMP_CTRL_EN.of x = 1) && !s.tcompAscending)
  .next (s.rowWrite w .LTU_TCOMP_CTRL 0 0 x (refuseIf bad .range) (some R.LTU_REF_STATUS_LAST_STATUS) 0 id)

/-- What an edge does for a station of its encoder: the targets are watched (R117, R127, R577), and an unpaced sheet station that has been moved
back to its back-up target arms its match (R577). -/
def State.edgeStation (s : State) (n : Nat) (t : Int) : State :=
  ((s.watchTarget n (65536 * (s.enc (s.encOf n)).count)).watchEntry n (65536 * (s.enc (s.encOf n)).count)).stepFour n t

/-- The decoder takes the levels `a` and `b`, stamped `u` (R106, R107). -/
def State.decodeEdge (s : State) (i : Nat) (a b : Bool) (u : Int) : State :=
  let x := s.enc i
  if x.a = a ∧ x.b = b then s
  else if x.a ≠ a ∧ x.b ≠ b then
    ((s.setEnc i { x with a := a, b := b }).add R.LTU_ENC_ERR_COUNT 1 i).raise (Ev.encoderError i)
  else
    let d := (if s.on R.LTU_ENC_CFG_INVERT i then -1 else 1) * quadStep x.a x.b a b
    let y : Enc := { x with a := a, b := b, count := toSigned 48 (ofSigned 48 (x.count + d)), te := u, up := decide (0 < d), moved := true,
                            edges := (u :: x.edges).take edgesHeld }
    let s1 := ((s.setEnc i y).setPos16 R.LTU_ENC_POS_COUNT R.LTU_ENC_POS_PHASE i (65536 * y.count)).syncPeriod i u
    s1.each (stations8.filter fun n => s1.encSource n && decide (s1.encOf n = i)) fun s n => s.edgeStation n u

/-- Pins A and B are sampled at tick `t` (R104): what the filters accept goes to the decoder in the order of its instants, stamped with
the filter delay taken off (R105). -/
def State.sampleAB (s : State) (i : Nat) (a b : Bool) (t : Int) : State :=
  let x := s.enc i
  let maj := s.get R.LTU_ENC_CFG_MAJ i
  let pa := x.pinA.sample maj (s.glitch i) a t
  let pb := x.pinB.sample maj (s.glitch i) b t
  let s1 := s.setEnc i { x with pinA := pa.2, pinB := pb.2, abAt := t }
  let stamp (u : Int × Int) : Int := u.1 - s.filterDelay i u.2
  match pa.1, pb.1 with
  | none, none => s1
  | some u, none => s1.decodeEdge i pa.2.level x.b (stamp u)
  | none, some v => s1.decodeEdge i x.a pb.2.level (stamp v)
  | some u, some v =>
    if u.1 = v.1 then s1.decodeEdge i pa.2.level pb.2.level (stamp u)
    else if u.1 < v.1 then (s1.decodeEdge i pa.2.level x.b (stamp u)).decodeEdge i pa.2.level pb.2.level (stamp v)
    else (s1.decodeEdge i x.a pb.2.level (stamp v)).decodeEdge i pa.2.level pb.2.level (stamp u)

/-- ENCODER_EDGE (R104 to R108): pins A and B stand at `a` and `b` when they are sampled at instant `t`; until then they stood as they
were last sampled (log 100). -/
def execEncoderEdge (e : Fin 4) (a b : Bool) (t : Int) (s : State) : Out :=
  let i := e.val
  let x := s.enc i
  let u := sampleTick x.abAt t
  .next ((s.each (gapTicks x.abAt u) fun s v => s.sampleAB i (x.pinA.hist.headD false) (x.pinB.hist.headD false) v).sampleAB i a b u)

/-- Pin Z is sampled as `lv` at tick `t` (R104, R109): an accepted rising edge latches the position at its stamp. -/
def State.sampleZ (s : State) (i : Nat) (lv : Bool) (t : Int) : State :=
  let x := s.enc i
  let p := x.pinZ.sample (s.get R.LTU_ENC_CFG_MAJ i) (s.glitch i) lv t
  let s1 := s.setEnc i { x with pinZ := p.2, zAt := t }
  match p.1 with
  | some u =>
    if p.2.level = true ∧ s.on R.LTU_ENC_CFG_Z_EN i = true then
      s1.setPos16 R.LTU_ENC_ZLATCH_COUNT R.LTU_ENC_ZLATCH_PHASE i (s1.encPos i (u.1 - s.filterDelay i u.2))
    else s1
  | none => s1

/-- ENCODER_INDEX_EDGE (R104, R105, R109): pin Z as it is sampled. -/
def execEncoderIndexEdge (e : Fin 4) (p : PinSample) (s : State) : Out :=
  let i := e.val
  let x := s.enc i
  let u := sampleTick x.zAt p.time
  .next ((s.each (gapTicks x.zAt u) fun s v => s.sampleZ i (x.pinZ.hist.headD false) v).sampleZ i p.level u)

/-- What follows the commit of line `l` (R321, R331, R423, R531): banks swap, the store and a reload follow, and the final
line of a drain ends the run. -/
def State.afterCommit (s : State) (n l : Nat) (now : Int) : State :=
  let s1 := s.each (s.groupsOf n) fun s g => s.swapBank g l
  let s2 := ((s1.syncStore n).checkStop n now).checkReload
  if (s2.station n).final = some l then s2.enterDrain n (some l) else s2.syncHeld n

/-- LINE_COMMIT (R113, R118, R122 to R131, R233): the station's next line at instant `now`, when it is due. -/
def execLineCommit (n : Fin 8) (now : Int) (s : State) : Out :=
  let i := n.val
  if s.stState i ≠ St.scanning then .next s
  else
    match s.nextInstant i now with
    | none => .next s
    | some t =>
      let early := now + s.lead i
      if early < t then .next s
      else
        let l := (s.lst i).next
        let r := s.commitLine i (max t early) now
        .next (if r.1 then r.2.enterFault 1 i else r.2.afterCommit i l now)

/-- Line M of a restart has been triggered (R196, step 7). -/
def State.matchTriggered (s : State) (n : Nat) (l : CLine) : State :=
  if (s.sto n).restart ∧ s.stState n = St.scanning ∧ l.isMatch then
    (s.setSto n { s.sto n with mTriggered := true }).set R.SST_ST_REW_STATUS_PHASE 5 n
  else s

/-- Line W_0 of an aligned ring station has been triggered: ALIGN reads 011b (R359 step 7). -/
def State.ringFirst (s : State) (n : Nat) : State :=
  if s.ringStation n ∧ s.get R.KRU_ST_STATUS_ALIGN n = 2 then s.set R.KRU_ST_STATUS_ALIGN 3 n else s

/-- LINE_TRIGGER (R114 to R116, R121, R413): the station's oldest committed line is triggered at its instant. -/
def execLineTrigger (n : Fin 8) (s : State) : Out :=
  let i := n.val
  let x := s.lst i
  match x.committed with
  | [] => .next s
  | l :: rest =>
    let s1 := (s.setLst i { x with committed := rest, last := some l, everTriggered := true }).set R.LTU_ST_WPI l.n i
    let s2 := (((((s1.each (s1.station i).heads fun s p => s.sendHead p l.t).takeBase i l.t).matchTriggered i l).ringFirst i).noteTrigger i l.n l.t).openLine i l.n l.qq
    .next ((s2.illuminate i l.n l.t l.ss l.ee).checkReload.syncHeld i)

/-- HOST_TRIGGER_WRITE (R112): a write of LTU_ST_HOSTTRIG; a COUNT of 0 is a no-op (R539). -/
def execHostTriggerWrite (w : World) (n : Fin 8) (v : BitVec 32) (s : State) : Out :=
  let i := n.val
  let c := R.LTU_ST_HOSTTRIG_COUNT.of v.toNat
  let p := s.get R.LTU_ST_HOSTTRIG_PENDING i
  let check := if c = 0 then none else pickStatus [refuseIf (decide (65535 < p + c)) .length,
    refuseIf (decide (s.get R.LTU_ST_CTRL_SRC i ≠ 2) || decide (s.stState i ≠ St.scanning)) .state]
  .next (s.hostWrite w .LTU_ST_HOSTTRIG i 0 check (some R.LTU_ST_STATUS_LAST_STATUS) i fun _ s =>
    s.set R.LTU_ST_HOSTTRIG_PENDING (p + c) i)

/-- MATCH_ARM (R126): a write of LTU_ST_MATCH_CFG at instant `t`. -/
def execMatchArm (w : World) (n : Fin 8) (v : BitVec 32) (t : Int) (s : State) : Out :=
  let i := n.val
  let x := v.toNat
  let arm := decide (R.LTU_ST_MATCH_CFG_ARM.of x = 1)
  let m := s.get R.LTU_ST_MATCH_M i
  let check := pickStatus [if arm then s.matchCheck i m t else none, refuseIf (decide (R.LTU_ST_MATCH_CFG_TOL.of x = 0)) .range]
  .next (s.rowWrite w .LTU_ST_MATCH_CFG i 0 x check (some R.LTU_ST_STATUS_LAST_STATUS) i fun s =>
    if arm then s.armMatch i m else s)

end Sys2Proof.Machine
end

