-- ==== Sys2Proof/Machine/Mailbox.lean ====
section
/-! DEFINITION. The mailbox rings and the commands of the device (spec/20, spec/21). `r` is the ring whose HEAD is taken. -/

open Sys2Proof

namespace Sys2Proof.Machine

/-! ### The rings (R519 to R521) -/

/-- MAILBOX_TAIL_WRITE (R519, R522): the entries from the old TAIL on are handed over, in the order of the TAIL writes. -/
def execMailboxTailWrite (w : World) (r : Fin 2) (v : BitVec 32) (s : State) : Out :=
  let i := r.val
  let old := s.mbHeld i
  let tail := R.SMC_MB_CMD_TAIL_TAIL.of v.toNat
  let new := (tail + 128 - s.mbHead i) % 128
  let first := s.get R.SMC_MB_CMD_TAIL_TAIL i
  .next (s.rowWrite w .SMC_MB_CMD_TAIL i 0 v.toNat (refuseIf (decide (new < old)) .range) (some R.SMC_MB_STATUS_LAST_STATUS) i
    fun s =>
      let more := (List.range (new - old)).map fun j => 128 * i + (first + j) % 128
      { s with smc := { s.smc with order := s.smc.order ++ more } })

/-- MAILBOX_RSP_HEAD_WRITE (R521): response entries are freed, and a waiting command may start. -/
def execMailboxRspHeadWrite (w : World) (r : Fin 2) (v : BitVec 32) (s : State) : Out :=
  .next (s.rowWrite w .SMC_MB_RSP_HEAD r.val 0 v.toNat none none 0 fun s =>
    if s.mbRoom r.val then s.set R.SMC_MB_STATUS_WAIT_RSP 0 r.val else s)

/-- MAILBOX_COMMAND_MALFORMED (R520, R543): the command at HEAD is refused and its entries are taken. -/
def execMailboxCommandMalformed (r : Fin 2) (s : State) : Out :=
  let i := r.val
  match s.malformed i with
  | some c =>
    if s.mbReady i = false then .next s
    else if s.mbRoom i = false then .next (s.waitRsp i)
    else
      let h := s.mbHead i
      let s1 := (s.takeCommand i).respondRefused i (s.opAt i h) (ofLe (s.cmdBytes i h 4 4)) c.1 c.2 0
      .next (if c.1 = .length then s1.raise (Ev.mbLength i) else s1)
  | none => .next s

/-! ### The device (R524, R533, R541, R542) -/

/-- The result of DEV_INFO. -/
def State.devInfoResult (s : State) : List Nat :=
  [s.dev, s.get R.SMC_FAULT_CAUSE, 0, 0] ++ leBytes 4 (s.get R.SMC_FW_CAB_VER_VER) ++ leBytes 4 (s.get R.SMC_FW_WB_VER_VER) ++
    leBytes 8 (if s.inForce then s.image.id else 0) ++ leBytes 4 (if s.inForce then s.image.ver else 0) ++ stations8.map s.stState

/-- DEV_INFO (R524). -/
def execDevInfo (r : Fin 2) (s : State) : Out :=
  .next (s.command r Op.devInfo fun s => .ok s s.devInfoResult)

/-- The cause of the fault persists (R541): `answers` says whether the Workbench answers the Cabinet. -/
def State.faultPersists (s : State) (answers : Bool) : Bool :=
  let c := s.get R.SMC_FAULT_CAUSE
  (decide (c = 2) && decide (s.get R.SCU_SEAL_AUD_FAILING ≠ 0)) || (decide (c = 3) && !answers)

/-- The state a device returns to from FAULT (R524, R542): the rest state, or BARE when it has not booted. Only a Cabinet that runs clears
a fault (R549). -/
def State.afterFault (s : State) : Nat := if s.booted then s.restState else Dev.bare

/-- FAULT_CLEAR (R533). -/
def State.faultClear (s : State) (answers : Bool) : CmdEnd :=
  if s.dev ≠ Dev.fault ∨ s.faultPersists answers = true then .refused .state (atReg .SMC_FAULT) 0
  else .ok (s.setDev s.afterFault) []

def execFaultClear (r : Fin 2) (answers : Bool) (s : State) : Out :=
  .next (s.command r Op.faultClear fun s => s.faultClear answers)

/-- DEV_RESET (R533): the response is written, and RESET follows 1 ms later. -/
def execDevReset (r : Fin 2) (s : State) : Out :=
  .next (s.command r Op.devReset fun s => .ok { s with smc := { s.smc with resetDue := true } } [])

/-- WORKBENCH_TIMEOUT (R541, cause 3h): a Workbench that runs has not answered for 100 ms. -/
def execWorkbenchTimeout (s : State) : Out :=
  let x := s.get R.SMC_FW_STATUS_WB_STATE
  .next (if x = 1 ∨ x = 4 then s.enterFault 3 8 else s)

/-- MANAGEMENT_SRAM_UNCORRECTABLE (R541, cause 4h), in every device state that the device holds outside RESET (R547). -/
def execManagementSramUncorrectable (s : State) : Out :=
  .next (if s.held then s else s.enterFault 4 8)

/-! ### Owner enrolment (R492, R493) -/

/-- The checks of OWNER_ENROLL (R492) with the register whose check fails (R521); a ring 0 command never comes here. -/
def State.enrollCheck (s : State) (kek : Option (List Nat)) : Option (Status × Nat) :=
  pickCheck [
    checkAt (decide (s.get R.SMC_ID_CFG_OWNER ≠ 0)) .state (atReg .SMC_ID_CFG),
    checkAt (decide (s.dev ≠ Dev.bare) && decide (s.dev ≠ Dev.idle)) .state (atReg .SMC_DEV_STATE),
    checkAt (s.on R.SCU_IMG_STATUS_BUSY) .busy (atReg .SCU_IMG_STATUS),
    checkAt kek.isNone .integrity noAddr]

/-- ASCII "VC9612 owner KEK", the info string of R492. -/
def kekInfo : List Nat :=
  [0x56, 0x43, 0x39, 0x36, 0x31, 0x32, 0x20, 0x6F, 0x77, 0x6E, 0x65, 0x72, 0x20, 0x4B, 0x45, 0x4B]

/-- The KEK of an enrolment (R492), unwrapped under the key that ECDH with the device key `key` gives; none when the ephemeral key is not on
the curve or the unwrap's integrity check fails. -/
def enrolledKek (key : Nat) (ephemeral wrapped : List Nat) : Option (List Nat) :=
  if sec1Ok ephemeral then keyUnwrap (hkdf384 (ecdh key ephemeral) kekInfo 32) wrapped else none

/-- A number is the device's private key (R489): the identity fuses hold the digest of its public key (R491). -/
def State.deviceKey (s : State) (key : Nat) : Bool :=
  decide (0 < key) && decide (key < p384N) && decide (sha384 (publicKey key) = s.wordBytes R.SMC_ID_KEYDIG_DIGEST 12)

/-- OWNER_ENROLL (R489, R492): the owner key is hashed, the KEK unwrapped, and the fuses are blown. `key` is what the key store holds, which
no register shows (log 67). -/
def execOwnerEnroll (r : Fin 2) (key : Nat) (s : State) : Out :=
  if s.deviceKey key = false then .next s
  else .next (s.command r Op.ownerEnroll fun s =>
    let part (k n : Nat) : List Nat := s.cmdBytes r (s.mbHead r) k n
    let kek := enrolledKek key (part 113 97) (part 210 40)
    match s.enrollCheck kek with
    | some c => .refused c.1 c.2 0
    | none =>
      let k := kek.getD []
      .later s { op := 0, tag := 0, data := k.length :: (k ++ sha384 (part 16 97)) })

/-- OWNER_ENROLL_DONE (R493): the read-back shows digest `dig`, and whether the KEK reads back as written. -/
def State.enrolled (s : State) (r : Nat) (x : Running) (dig : List Nat) (kekOk : Bool) : State :=
  let n := x.data.headD 0
  let rest := x.data.drop 1
  let good := kekOk && decide (dig = rest.drop n)
  let s1 := (s.each (List.range 12) fun s i => s.set R.SMC_OWNER_DIG_DIGEST (field dig (4 * i) 4) i).set R.SMC_ID_CFG_OWNER
    (if good then 1 else 3)
  let s2 : State := { s1 with smc := { s1.smc with kek := rest.take n } }
  let s3 := s2.syncMeas
  if good then (s3.raise Ev.ownerEnrolled).endRun r .ok [] else s3.endRun r .integrity noDetail

def execOwnerEnrollDone (dig : List Byte) (kekOk : Bool) (s : State) : Out :=
  match s.runningOp Op.ownerEnroll with
  | some (r, x) => .next (s.enrolled r x (dig.map (·.toNat)) kekOk)
  | none => .next s

/-! ### SVN_COMMIT (R503, R535) -/

/-- The named counter rises to the running SVN. -/
def State.svnCommit (s : State) (which : Nat) : CmdEnd :=
  let wb := s.get R.SMC_FW_STATUS_WB_STATE
  if which = 1 then
    if s.on R.SMC_POLICY_UNV_CAB then .refused .state (atReg .SMC_POLICY) 0
    else .ok (s.set R.SMC_FW_SVN_CAB s.smc.cabSvn) [s.smc.cabSvn]
  else if which = 2 then
    if s.on R.SMC_POLICY_UNV_WB then .refused .state (atReg .SMC_POLICY) 0
    else if wb ≠ 1 ∧ wb ≠ 4 then .refused .state (atReg .SMC_FW_STATUS) 0
    else .ok (s.set R.SMC_FW_SVN_WB s.smc.wbSvn) [s.smc.wbSvn]
  else .refused .range noAddr 0

def execSvnCommit (r : Fin 2) (s : State) : Out :=
  .next (s.command r Op.svnCommit fun s => s.svnCommit (s.param r 16 1))

/-! ### FLASH_WRITE (R536) -/

/-- The flash region of the Cabinet copy that runs (R501), at most 124 KiB. -/
def State.cabRegion (s : State) : Nat := 0x20000 * s.get R.SMC_FW_STATUS_CAB_COPY

/-- FLASH_WRITE's checks, with the register whose check fails (R521). -/
def State.flashCheck (s : State) (off len : Nat) : Option (Status × Nat) :=
  pickCheck [
    checkAt (decide (s.smc.flashSize < off + len)) .length noAddr,
    checkAt (s.on R.SCU_IMG_STATUS_BUSY && s.on R.SCU_IMG_CTRL_SRC) .busy (atReg .SCU_IMG_STATUS),
    checkAt (decide (off % 4096 ≠ 0)) .range noAddr,
    checkAt (decide (off < s.cabRegion + 0x1F000) && decide (s.cabRegion < off + len)) .range (atReg .SMC_FW_STATUS)]

/-- FLASH_WRITE starts: PF1 reads the data from host memory at `addr`. -/
def State.flashWrite (s : State) (off len addr : Nat) : CmdEnd :=
  if len = 0 then .ok s []
  else
    match s.flashCheck off len with
    | some c => .refused c.1 c.2 0
    | none => .later (s.emit (.dmaRead 1 addr len)) { op := 0, tag := 0, data := [off, len] }

def execFlashWrite (r : Fin 2) (s : State) : Out :=
  .next (s.command r Op.flashWrite fun s => s.flashWrite (s.param r 20 4) (s.param r 32 4) (s.param r 24 8))

/-- FLASH_WRITE_DONE (R536): `data` is what the DMA read from the host, none for a read error; with it the sectors from OFFSET on are
erased and the data is programmed; `same` is the read-back. -/
def execFlashWriteDone (data : Option (List Byte)) (same : Bool) (s : State) : Out :=
  match s.runningOp Op.flashWrite with
  | some (r, x) =>
    match data with
    | none => .next (s.endRun r .absent noDetail)
    | some bs =>
      let off := x.data.headD 0
      let len := x.data.getD 1 0
      let s1 := (s.emit (.flashErase off ((len + 4095) / 4096))).emit (.flash off ((bs.map (·.toNat)).take len))
      .next (if same then s1.endRun r .ok [] else s1.endRun r .integrity noDetail)
  | none => .next s

/-! ### Attestation (R508, R510) -/

/-- SPDM_REQUEST (R508): the request is answered on its transport; `busy` says that another one is being answered. Nothing happens in
RESET (R547). -/
def execSpdmRequest (tr : Transport) (v : BitVec 8) (r : SpdmReq) (busy : Bool) (s : State) : Out :=
  if s.held then .next s
  else .next (s.takeFresh.2.emit (.spdm (transportCode tr) (s.spdmAnswer v.toNat r busy)))

/-- HEAD_MEASUREMENT_READ (R510): on a port that has entered ACTIVE, head configuration bytes 000100h to 00012Fh as the reads of
bring-up gave them; `ended` says that a read without its data has ended with TIMEOUT or ABSENT (R87, R88), and while none has the
measurement waits. -/
def execHeadMeasurementRead (p : Fin 96) (ended : Bool) (s : State) : Out :=
  if s.portActive p.val = false then .next s
  else
    match s.headDigest p with
    | some d => .next (s.setMeas (16 + p.val) d)
    | none =>
      if ended = false then .next s
      else .next ((((s.setHead p { s.head p with reads := [], ask := none }).nextRequest p).setMeas (16 + p.val) zero48).raise Ev.headUnmeasured)

end Sys2Proof.Machine
end

