-- ==== Sys2Proof/Machine/Mfe.lean ====
section
/-! DEFINITION. The commands of the measurement front end (spec/17). -/

open Sys2Proof

namespace Sys2Proof.Machine

/-- MFE_REF_ENABLE (R437): a write of MFE_CTRL for its REF_EN bit; the other bits of the word act too. -/
def execMfeRefEnable (w : World) (v : BitVec 32) (s : State) : Out := .next (s.mfeCtrl w v.toNat)

/-- MFE_REF_READY (R437): 10 ms after REF_EN. -/
def execMfeRefReady (s : State) : Out :=
  .next (if s.on R.MFE_CTRL_REF_EN then s.set R.MFE_STATUS_REF_RDY 1 else s)

/-- MFE_SEQ_ENABLE (R441): a write of MFE_CTRL for its SEQ_EN bit; the other bits of the word act too. -/
def execMfeSeqEnable (w : World) (v : BitVec 32) (s : State) : Out := .next (s.mfeCtrl w v.toNat)

/-- MFE_FRAME_START (R440, R442, R445, R451): chains named in MFE_SYNC restart together, auto-range steps are written, and the
frame's entries and its slack are laid out. -/
def execMfeFrameStart (s : State) : Out :=
  if ¬ s.mfeRuns ∨ s.mfe.stopping = true then .next s
  else
    let s1 := s.each (List.range 32) fun s c => if bit s.mfe.sync c then s.restartChain c true else s
    let s2 := s1.each (List.range 64) fun s e =>
      let x := s.ment e
      match x.auto with
      | some r => (s.set R.MFE_ENT_EXC_RANGE r e).setMent e { x with auto := none, exc := true }
      | none => s
    .next { s2 with mfe := { s2.mfe with sync := 0, todo := s2.frameEntries, slack := s2.frameSlots - s2.usedSlots } }

/-- MFE_ENTRY_SAMPLE (R438, R442 to R452): the dwell in progress completes with its codes, each with the slice that converted it, over A to
B (or of the one input) and, for a 3-wire entry, over B to C. Regular entries run in order; then urgent conversions while they fit the
slack. -/
def execMfeEntrySample (ab bc : List (Fin 5 × BitVec 16)) (s : State) : Out :=
  let ca := ab.map s.trimmed
  let cb := bc.map s.trimmed
  if ¬ s.mfeRuns then .next s
  else
    match s.mfe.todo with
    | e :: es => .next (({ s with mfe := { s.mfe with todo := es } } : State).regular e ca cb).dwellEnd
    | [] =>
      match s.mfe.urg with
      | e :: es =>
        if s.dwell e ≤ s.mfe.slack then
          let s1 : State := { s with mfe := { s.mfe with urg := es, slack := s.mfe.slack - s.dwell e } }
          .next (s1.syncUrgent.urgentDone e ca cb).dwellEnd
        else .next s
      | [] => .next s

/-- MFE_URGENT_REQUEST (R442): a write of MFE_URGENT. -/
def execMfeUrgentRequest (w : World) (v : BitVec 32) (s : State) : Out :=
  let go := decide (R.MFE_URGENT_GO.of v.toNat = 1)
  .next (s.rowWrite w .MFE_URGENT 0 0 v.toNat (refuseIf (go && decide (4 ≤ s.mfe.urg.length)) .busy) mfeLast 0 fun s =>
    if go then ({ s with mfe := { s.mfe with urg := s.mfe.urg ++ [R.MFE_URGENT_ENTRY.of v.toNat] } } : State).syncUrgent else s)

/-- The gain error of a slice in ppm from the sums of 1,024 codes of ground and of the reference, to the nearest (R438, DEDUCED, log 49). -/
def calGain (ground : Int) (r : CalRef) : Int :=
  roundDivI ((r.sum - ground - 1024 * (r.nominal : Nat)) * 1000000) (1024 * r.nominal)

/-- MFE_BACKGROUND_CAL (R438, R439): the spare has converted ground, with the sum `ground` of the 1,024 codes, and the reference. Its trim is
the offset, to the nearest code, and the gain error; in its limits it replaces an active slice at the next entry boundary, and reads
calibrating until then. -/
def execMfeBackgroundCal (ground : Int) (ref : CalRef) (s : State) : Out :=
  let i := s.get R.MFE_STATUS_SPARE
  let offset := satS 12 (roundDivI ground 1024)
  let gain := satS 16 (calGain ground ref)
  if ¬ s.on R.MFE_STATUS_REF_RDY ∨ s.get R.MFE_CAL_INT = 0 ∨ s.on R.MFE_STATUS_NO_SPARE = true ∨ s.get R.MFE_STATUS_STATE = 2 ∨
      s.mfe.swapDue = true then .next s
  else
    let s1 := (s.setS R.MFE_SLICE_OFFSET offset i).setS R.MFE_SLICE_GAIN gain i
    let s2 : State := { s1.set R.MFE_SLICE_ROLE 2 i with mfe := { s1.mfe with swapDue := true } }
    .next (if 64 < offset.natAbs ∨ 5000 < gain.natAbs then s1.retireSlice i else if s2.inDwell then s2 else s2.boundary)

/-- MFE_CHAIN_SYNC (R451): a write of MFE_SYNC. -/
def execMfeChainSync (w : World) (v : BitVec 32) (s : State) : Out :=
  .next (s.rowWrite w .MFE_SYNC 0 0 v.toNat none mfeLast 0 fun s =>
    { s with mfe := { s.mfe with sync := s.mfe.sync ||| v.toNat } })

/-- MFE_OPEN_CLEAR (R444, R445): a write of MFE_ENT_STATUS. -/
def execMfeOpenClear (w : World) (e : Fin 64) (v : BitVec 32) (s : State) : Out :=
  let clears := s.on R.MFE_ENT_STATUS_OPEN e.val && decide (R.MFE_ENT_STATUS_OPEN.of v.toNat = 1)
  .next (s.rowWrite w .MFE_ENT_STATUS e.val 0 v.toNat none mfeLast 0 fun s => s.noteExc e.val clears)

/-- MFE_EXC_WRITE (R445): a write of MFE_ENT_EXC. A software write stands before an auto-range step of the same frame, and the dwell in
progress keeps its excitation. -/
def execMfeExcWrite (w : World) (e : Fin 64) (v : BitVec 32) (s : State) : Out :=
  let ch := s.changes excFields e.val 0 v.toNat
  let was := s.excNow e.val
  .next (s.rowWrite w .MFE_ENT_EXC e.val 0 v.toNat none mfeLast 0 fun s =>
    let s1 := if s.dwelling e.val ∨ s.urgentEntry = some e.val then s.setMent e.val { s.ment e.val with held := some ((s.ment e.val).held.getD was) } else s
    (s1.setMent e.val { s1.ment e.val with auto := none }).noteExc e.val ch)

/-- MFE_ACC_SUM_LO_READ (R446): the read latches the set, and clears it when ACC_CLR is 1. -/
def execMfeAccSumLoRead (w : World) (e : Fin 64) (s : State) : Out :=
  let i := e.val
  let a := RegId.addr .MFE_ACC_SUM_LO i
  let x := s.get R.MFE_ACC_SUM i
  .next (s.hostRead w a 4 (x % 2 ^ 32) fun s =>
    let m := SMap.put (SMap.put s.hold 0 (a + 4) (x / 2 ^ 32)) 0 (a + 8) (s.get R.MFE_ACC_CNT_COUNT i)
    let m1 := SMap.put m (holdReset .MFE_ACC_MIN) (a + 12) (s.get R.MFE_ACC_MIN_MIN i)
    let s1 : State := { s with hold := SMap.put m1 (holdReset .MFE_ACC_MAX) (a + 16) (s.get R.MFE_ACC_MAX_MAX i) }
    if s.on R.MFE_ENT_CFG_ACC_CLR i then s1.clearAcc i else s1)

/-- MFE_RES_READ: the read latches MFE_RES_FLAGS (spec/17). -/
def execMfeResRead (w : World) (e : Fin 64) (s : State) : Out :=
  let i := e.val
  let a := RegId.addr .MFE_RES i
  .next (s.hostRead w a 4 (s.get R.MFE_RES_VALUE i) fun s =>
    let f := s.get R.MFE_RES_FLAGS_FLAGS i + s.get R.MFE_RES_FLAGS_RANGE i * 2 ^ 4 + s.get R.MFE_RES_FLAGS_NEW i * 2 ^ 8 +
      s.get R.MFE_RES_FLAGS_SEQ i * 2 ^ 16
    { s with hold := SMap.put s.hold 0 (a + 4) f })

/-- MFE_LEAF_SWAP_REQUEST (R455): a write of MFE_CH_SWAP. -/
def execMfeLeafSwapRequest (w : World) (c : Fin 32) (v : BitVec 32) (s : State) : Out :=
  let i := c.val
  let x := v.toNat
  let go := decide (R.MFE_CH_SWAP_GO.of x = 1)
  let l := R.MFE_CH_SWAP_LEAF.of x
  let f := R.MFE_CH_SWAP_FADE.of x
  let y := s.chain i
  let using_ := decide (l = s.get R.MFE_CH_CFG_LEAF i) || (y.fade.map (·.1)) == some l
  let check := if go then pickStatus [refuseIf (s.scs i || !s.mfeRuns) .state, refuseIf using_ .busy,
      refuseIf (decide (10 < f) || !s.mfeLeafOk l) .range]
    else none
  .next (s.rowWrite w .MFE_CH_SWAP i 0 x check mfeLast 0 fun s =>
    if go then
      let s1 := if y.pend.isSome then (s.set R.MFE_CH_SWAP_REPLACED 1 i).add R.MFE_REPLACED_COUNT 1 else s
      (s1.setChain i { s1.chain i with pend := some (l, 2 ^ f) }).syncChain i
    else s)

/-- MFE_LEAF_WINDOW_WRITE (R453, R454): a write to word `a` of the filter leaves. -/
def execMfeLeafWindowWrite (w : World) (a : Fin 65536) (v : BitVec 32) (s : State) : Out :=
  let b := 0x3A00000 + 4 * a.val
  .next (s.windowWrite w b (refuseIf (s.mfeLeafBusy (a.val / 1024)) .busy)
    (fun s => ((s.refuse w .busy mfeLast).add R.MFE_LEAF_REFUSED_COUNT 1).mfeEvent0 4)
    (State.putLeaf · b (leBytes 4 v.toNat)))

/-- MFE_OUT_ENABLE (R458, R459): a write of MFE_OUT_CFG. While EN is 1 only a write that clears it and keeps the other fields acts. -/
def execMfeOutEnable (w : World) (o : Fin 8) (v : BitVec 32) (s : State) : Out :=
  let i := o.val
  let x := v.toNat
  let en := decide (R.MFE_OUT_CFG_EN.of x = 1)
  let was := s.on R.MFE_OUT_CFG_EN i
  let bad := decide (s.getS R.MFE_OUT_HI_HI i ≤ s.getS R.MFE_OUT_LO_LO i) || decide (s.get R.MFE_OUT_F_F_A i = 0) ||
    (decide (R.MFE_OUT_CFG_MODE.of x = 1) && decide (s.get R.MFE_OUT_F_FMAX i ≤ s.get R.MFE_OUT_F_F_A i))
  let check := pickStatus [refuseIf (was && (en || s.changes [R.MFE_OUT_CFG_MODE, R.MFE_OUT_CFG_ENTRY, R.MFE_OUT_CFG_FAIL] i 0 x)) .state,
    refuseIf ((en && bad) || decide (R.MFE_OUT_CFG_FAIL.of x = 3)) .range]
  .next (s.rowWrite w .MFE_OUT_CFG i 0 x check mfeLast 0 fun s =>
    (s.setMout i {}).emit (.pin "MFE_FOUT" i 0))

/-- MFE_OUT_PERIOD_END (R458): a setting that waits takes effect. -/
def execMfeOutPeriodEnd (o : Fin 8) (s : State) : Out :=
  match (s.mout o.val).next with
  | some x => .next (s.showOut o.val x)
  | none => .next s

end Sys2Proof.Machine
end

