-- ==== Sys2Proof/Machine/Pace.lean ====
section
/-! DEFINITION. The commands of pace, voltage fitting and the regulator (spec/02, R513 to R515). -/

open Sys2Proof

namespace Sys2Proof.Machine

/-- PACE_WINDOW_END (R40, R41, R53, R54, R194, R204) at LTU instant `t`. A window discarded under R56 writes nothing. Web stations shed
after the caps of this window have moved (R31, log 114). -/
def execPaceWindowEnd (t : Int) (s : State) : Out :=
  if s.pace.discard then .next s
  else
    let s1 := ((s.each domains State.writeRate).findDeficits).countHold
    .next (((((s1.moveCaps t).shedWeb).passHinges).fitVoltage).startWindow)

/-- VFIT_HOLD_END (R54): the hold period of a margin raise has lasted its 2^HOLD windows. -/
def execVfitHoldEnd (s : State) : Out :=
  if s.pace.holdLeft = 1 then
    let s1 : State := { s with pace := { s.pace with holdLeft := 0 } }
    .next (if s1.get R.SMC_VFIT_STATUS_STATE = 3 then s1.set R.SMC_VFIT_STATUS_STATE 1 else s1)
  else .next s

/-- VMAX_READBACK_TIMEOUT (R55): 2 ms without a read-back within 10 mV of VMAX. -/
def execVmaxReadbackTimeout (s : State) : Out :=
  .next (if s.pace.waits.any (· ≠ .boot) then s.failWaits else s)

/-- Two voltages in mV lie within `d` of each other. -/
def within (a b d : Nat) : Bool := decide (a ≤ b + d) && decide (b ≤ a + d)

/-- PMBUS_READBACK_POLL (R55, R56, R513): READ_VOUT answers `mv` during a wait. -/
def execPmbusReadbackPoll (mv : BitVec 12) (s : State) : Out :=
  let v := mv.toNat
  if s.pace.waits = [] ∧ s.pace.discard = false then .next s
  else
    let s1 := (s.pmbus 0x8B 0).set R.SMC_PMB_STATUS_VREAD v
    let s2 := if s1.pace.discard ∧ within v (s1.get R.SMC_VFIT_STATUS_VSET) 5 = true then
        ({ s1 with pace := { s1.pace with discard := false } } : State).startWindow
      else s1
    .next (if within v (s2.get R.SMC_VFIT_LIMITS_VMAX) 10 then s2.completeWaits else s2)

/-- The code and the data of the transaction begun last. -/
def lastPmbus (out : List Output) : Option (Nat × Nat) :=
  out.reverse.findSome? fun o =>
    match o with
    | .pmbus _ code data _ => some (code, data)
    | _ => none

/-- PMBUS_TRANSACTION_FAIL (R515, R551): the transaction begun last has failed, and so have the two more attempts made of it. The wait of
boot is none of R55, so that its failure takes fitting off too. -/
def execPmbusTransactionFail (s0 : State) : Out :=
  let s := match lastPmbus s0.out with
    | some x => (s0.pmbus x.1 x.2).pmbus x.1 x.2
    | none => s0
  let s1 := (s.set R.SMC_PMB_STATUS_ERR 1).raise Ev.pmbusError
  let s2 := if s1.pace.waits.contains .boot then s1.bootVcoreFail else s1
  if s0.held then .next s0
  else if s2.pace.waits ≠ [] then .next s2.failWaits
  else
    let s3 := if s2.on R.SMC_VFIT_CTRL_EN then
        (({ s2 with pace := { s2.pace with discard := false, holdLeft := 0 } } : State).set R.SMC_VFIT_CTRL_EN 0).writeVset
          (s2.get R.SMC_VFIT_LIMITS_VMAX)
      else s2
    .next (s3.set R.SMC_VFIT_STATUS_STATE 5)

/-- PMBUS_ALERT (R515): PMB_ALERT_N is low and STATUS_WORD reads `word`. Nothing happens in RESET (R547). -/
def execPmbusAlert (word : BitVec 16) (s : State) : Out :=
  if s.held then .next s else
  let s1 := (((s.set R.SMC_PMB_STATUS_ALERT 1).pmbus 0x79 0).set R.SMC_PMB_STATUS_WORD word.toNat).raise Ev.pmbusAlert
  .next (if word.toNat = 0 then s1 else s1.pmbus 0x03 0)

/-- A secure write of a fitting register that R57 discards: RANGE and LIMIT_ERR. -/
def State.limitErr (s : State) (w : World) : State := (s.countRefused w .range).set R.SMC_VFIT_STATUS_LIMIT_ERR 1

/-- VFIT_CTRL_WRITE (R52, R57, R514, R576). Fitting switched off lifts the discard of the running window (R56, log 129). -/
def execVfitCtrlWrite (w : World) (v : BitVec 32) (s : State) : Out :=
  let x := v.toNat
  let m := R.SMC_VFIT_CTRL_MARGIN.of x
  let st := R.SMC_VFIT_CTRL_STEP.of x
  let bad := decide (m < 15) || decide (50 < m) || decide (st = 0) || decide (4 < st) || decide (50 < R.SMC_VFIT_CTRL_GUARD.of x)
  let en := decide (R.SMC_VFIT_CTRL_EN.of x = 1)
  let was := s.on R.SMC_VFIT_CTRL_EN
  if w = .secure ∧ bad = true ∧ s.held = false then .next (s.limitErr w)
  else
    .next (s.rowWrite w .SMC_VFIT_CTRL 0 0 x
      (if w = .secure then refuseIf (en && s.on R.SMC_PMB_STATUS_MODE_ERR) .range else none) none 0 fun s =>
      if w ≠ .secure then s
      else if was ∧ ¬ en then
        let s1 : State := { s with pace := { s.pace with discard := false, holdLeft := 0 } }
        (s1.set R.SMC_VFIT_STATUS_STATE 0).writeVset (s1.get R.SMC_VFIT_LIMITS_VMAX)
      else if en ∧ ¬ was then s.set R.SMC_VFIT_STATUS_STATE 1
      else s)

/-- VFIT_LIMITS_WRITE (R52, R57, R576). VSET outside the new limits moves at the next step of fitting (log 129). -/
def execVfitLimitsWrite (w : World) (v : BitVec 32) (s : State) : Out :=
  let x := v.toNat
  let lo := R.SMC_VFIT_LIMITS_VMIN.of x
  let hi := R.SMC_VFIT_LIMITS_VMAX.of x
  let bad := decide (lo < 650) || decide (950 < lo) || decide (hi < 650) || decide (950 < hi) || decide (hi < lo)
  if w = .secure ∧ bad = true ∧ s.held = false then .next (s.limitErr w)
  else
    .next (s.rowWrite w .SMC_VFIT_LIMITS 0 0 x none none 0 fun s =>
      if w = .secure ∧ s.on R.SMC_VFIT_CTRL_EN = false then s.writeVset hi else s)

end Sys2Proof.Machine
end

