-- ==== Sys2Proof/Machine/Pcp.lean ====
section
/-! DEFINITION. The commands of the pixel conditioning pipeline (spec/05, spec/06). -/

namespace Sys2Proof.Machine

/-! ### Lines -/

/-- The fill values of a head's line (R71). -/
def State.fillRaw (s : State) (p : Nat) : List Nat :=
  (List.range (s.headCols p * s.headPlanes p)).map fun i => (s.phead p).rawGood.getD i 0

/-- Samples of an ingress item that the pipeline accepts at its entry (R38): those of its data words. -/
def State.accepted (s : State) (p : Nat) (it : List DWord) : Nat :=
  min (s.headCols p * s.headPlanes p) (4 * ((it.drop 1).filter fun d => !(d.poison || d.trunc)).length)

/-- The raw line in an ingress item: WPI, filled, skipped and samples. An item with a terminator loses its line, which is
filled (R71, R217). -/
def State.rawLine (s : State) (p : Nat) (it : List DWord) : Nat × Bool × Bool × List Nat :=
  let x := s.phead p
  let bad := it.any fun d => d.poison || d.trunc
  let size := s.headCols p * s.headPlanes p
  let fill := s.fillRaw p
  let next := (x.lines.head?.map fun l => l.n + 1).getD (s.w0 ((s.stationOfHead p).getD 0))
  match it with
  | d :: t =>
    if d.poison || d.trunc then (next, true, false, fill)
    else
      let n := bits d.data 0 48
      if bad then (n, true, bit d.data 49, fill)
      else (n, bit d.data 48, bit d.data 49, (wordsToSamples (t.map (·.data))).take size)
  | [] => (next, true, false, fill)

/-- The pipeline takes the next line of head `p`, whose words waited `busy` ticks at its entry (R34, R38, R132 to R177); a terminator in
place of its descriptor loses the line (R217). -/
def State.conditionNext (s : State) (n p busy : Nat) : State :=
  let s1 := s.formLines n
  let ahead : Bool := match (s1.phead p).lines.head?, (s1.pst n).placed with
    | some l, some w => decide (w < l.n)
    | some _, none => true
    | none, _ => false
  if ahead ∨ (s1.queue (104 + n)).present ≠ [] then s1
  else
    match s1.takeItem p with
    | (none, s2) => s2
    | (some it, s2) =>
      let r := s2.rawLine p it
      let s3 := ((s2.add R.SCU_PACE_HS (s2.accepted p it) 16).add R.SCU_PACE_BUSY busy 16).descFlags n r.1
      let lost := s3.1.any fun d => bit d 6
      let filled := r.2.1 || lost
      let raw := if lost then s3.2.fillRaw p else r.2.2.2
      let s4 := s3.2.captureLine p r.1 (filled || r.2.2.1) raw
      let s5 := (s4.conditionHead p r.1 filled r.2.2.1 raw).alignMeasure p r.1
      ((s5.formLines n).drainHead p).syncHeld n

/-- LINE_CONDITION (R132 to R177): the next delivered line of a head. -/
def execLineCondition (p : Fin 96) (busy : Nat) (s : State) : Out :=
  match s.stationOfHead p.val with
  | some n => .next (if s.stBusy n ∧ s.dev ≠ Dev.thermalLatch then s.conditionNext n p.val busy else s)
  | none => .next s

/-! ### Captures (R142 to R147) -/

/-- The first band start after a request for a station (R143, R154): of the lines not yet committed; line 0 stands for the
first line of the run to come when the station is in IDLE. -/
def State.nextHinge (s : State) (n : Nat) : Nat :=
  if s.stBusy n then nextBandStart (s.firstFree n) (s.bandExp n) else 0

/-- A head's station is in SCANNING. -/
def State.headScans (s : State) (p : Nat) : Bool :=
  match s.stationOfHead p with
  | some n => decide (s.stState n = St.scanning)
  | none => false

/-- A slot's shape is that of a head. -/
def State.slotShape (s : State) (l p : Nat) : Bool :=
  decide (s.leafCols l = s.headCols p ∧ s.leafPlanes l = s.headPlanes p)

/-- CAPTURE_START (R142): a write of PCP_CAP_CTRL with GO = 1. -/
def execCaptureStart (w : World) (v : BitVec 32) (s : State) : Out :=
  let x := v.toNat
  let p := s.get R.PCP_CAP_TARGET_HEAD
  let l := s.get R.PCP_CAP_TARGET_LEAF
  let n := R.PCP_CAP_CTRL_N.of x
  let rej := decide (R.PCP_CAP_CTRL_REJ.of x = 1)
  let check := pickStatus [refuseIf (decide (4096 * s.leafPages l < s.leafBytes l)) .length,
    refuseIf (decide (l < 256) && s.pagesFit l && !s.pagesIn l (s.portWorld p)) .world,
    refuseIf (!s.headScans p) .state,
    refuseIf (s.capRuns || s.slotInUse l) .busy,
    refuseIf (decide (256 ≤ l) || !s.slotShape l p || !s.pagesFit l || (rej && decide (n < 2)) || decide (10 < n)) .range]
  .next (s.rowWrite w .PCP_CAP_CTRL 0 0 x check (some R.PCP_CAP_STATUS_LAST_STATUS) 0 fun s =>
    let st := (s.stationOfHead p).getD 0
    let c : Capture := { head := p, slot := l, startLine := s.nextHinge st, white := decide (R.PCP_CAP_CTRL_KIND.of x = 1),
                         nLog := n, rej := rej, auto := decide (R.PCP_CAP_CTRL_AUTO_DEFECT.of x = 1),
                         dark := (s.get R.PCP_SHD_TRK_DARK_FIRST p, s.get R.PCP_SHD_TRK_DARK_COUNT p),
                         strip := (s.get R.PCP_SHD_TRK_WHITE_FIRST p, s.get R.PCP_SHD_TRK_WHITE_COUNT p) }
    (({ s with pcp := { s.pcp with cap := c } } : State).set R.PCP_CAP_STATUS_STATE 1).syncSlots [l])

/-- CAPTURE_DONE (R143 to R147): 2^N lines have been counted. -/
def execCaptureDone (s : State) : Out :=
  let x := s.pcp.cap
  .next (if s.capRuns ∧ x.counted = 2 ^ x.nLog then
    ((s.writeCapture.set R.PCP_CAP_STATUS_STATE 3).raise Ev.captureDone).syncSlots [x.slot] else s)

/-! ### Leaf swaps (R153 to R158) -/

/-- The defect list of a slot keeps R138 and stays inside the head's geometry. -/
def State.defectsOk (s : State) (l p : Nat) : Bool :=
  let ds := s.defects l
  decide (ds.length ≤ 4096) && ascending (ds.map defKey) &&
    ds.all fun e => decide (defCol e < s.headCols p) && decide (defPlane e < s.headPlanes p)

/-- A slot's pages overlap a leaf in use. -/
def State.overlapsUse (s : State) (l : Nat) : Bool :=
  s.slotsInUse.any fun k => runsMeet (s.get R.PCP_LEAF_BASE_PAGE k) (s.leafPages k) (s.get R.PCP_LEAF_BASE_PAGE l) (s.leafPages l)

/-- The hinge line of an accepted request (R154). -/
def State.swapHinge (s : State) (n p : Nat) : Nat :=
  let h := s.get R.PCP_SHD_SWAP_H p
  let x := s.phead p
  let k := s.bandExp n
  let first := if h = 0 then s.nextHinge n else h
  (x.fades.filter fun f => decide (f.slot ≠ noSlot) && match x.reached with
    | some r => decide (r < f.last)
    | none => true).foldl (fun m f => max m (nextBandStart (f.last + 1) k)) first

/-- SHADING_SWAP_REQUEST (R153, R154, R157): a write of PCP_SHD_SWAP with GO = 1. -/
def execShadingSwapRequest (w : World) (p : Fin 96) (v : BitVec 32) (s : State) : Out :=
  let i := p.val
  let x := v.toNat
  let l := R.PCP_SHD_SWAP_LEAF.of x
  let fade := R.PCP_SHD_SWAP_FADE.of x
  let n := (s.stationOfHead i).getD 8
  let h := s.get R.PCP_SHD_SWAP_H i
  let gone : Bool := match (s.phead i).reached with
    | some r => s.stBusy n && decide (h ≤ r)
    | none => false
  let check := pickStatus [refuseIf (decide (4096 * s.leafPages l < s.leafBytes l)) .length,
    refuseIf (decide (l < 256) && s.pagesFit l && !s.pagesIn l (s.portWorld i)) .world,
    refuseIf (s.slotInUse l || s.overlapsUse l) .busy,
    refuseIf (decide (256 ≤ l) || !s.slotShape l i || !s.pagesFit l || !s.defectsOk l i || decide (12 < fade) ||
      (decide (h ≠ 0) && (!isBandStart h (s.bandExp n) || gone))) .range]
  .next (s.rowWrite w .PCP_SHD_SWAP i 0 x check (some R.PCP_SHD_STATUS_LAST_STATUS) 0 fun s =>
    let old := s.get R.PCP_SHD_HEAD_LEAF_PENDING i
    let s1 := if old = noSlot then s
      else (s.add R.PCP_SHD_REPLACED_COUNT 1).set R.PCP_SHD_HEAD_LEAF_REPLACED 1 i
    let s2 := s1.setPhead i { s1.phead i with pendH := s1.swapHinge n i, pendLog := fade }
    (s2.set R.PCP_SHD_HEAD_LEAF_PENDING l i).syncSlots [old, l])

/-- LEAF_FADE_END (R155). -/
def execLeafFadeEnd (p : Fin 96) (s : State) : Out := .next (s.endFades p.val)

/-! ### Writes to leaves and slots (R140, R181) -/

/-- LEAF_WINDOW_WRITE (R140): a write to word `a` of the shading store. -/
def execLeafWindowWrite (w : World) (a : Fin 4194304) (v : BitVec 32) (s : State) : Out :=
  let b := 0x2800000 + 4 * a.val
  .next (s.windowWrite w b (refuseIf (s.pageInUse (a.val / 1024)) .busy) (State.leafRefused · w)
    (State.putLeaf · b (leBytes 4 v.toNat)))

/-- LEAF_SLOT_WRITE (R140): a write of PCP_LEAF_BASE (0), PCP_LEAF_GEOM (1) or PCP_LEAF_DEFECTS (2). -/
def execLeafSlotWrite (w : World) (l : Fin 256) (k : Fin 3) (v : BitVec 32) (s : State) : Out :=
  let id : RegId := if k = 0 then .PCP_LEAF_BASE else if k = 1 then .PCP_LEAF_GEOM else .PCP_LEAF_DEFECTS
  match id.desc? with
  | none => .next s
  | some r => .next (s.windowWrite w (r.addr l.val 0) (refuseIf (s.slotInUse l.val) .busy) (State.leafRefused · w)
      fun s => s.writeAll w r l.val 0 v.toNat)

/-- SHD_TRK_CTRL_WRITE (R151): a write of PCP_SHD_TRK_CTRL. -/
def execShdTrkCtrlWrite (w : World) (p : Fin 96) (v : BitVec 32) (s : State) : Out :=
  let i := p.val
  let x := v.toNat
  let src := R.PCP_SHD_TRK_CTRL_SRC.of x
  let suits := decide (src < 96) && decide (s.stationOfHead src = s.stationOfHead i) && (s.stationOfHead i).isSome &&
    decide (s.headPlanes src = s.headPlanes i) && s.on R.PCP_SHD_TRK_CTRL_EN src
  let bad := (decide (R.PCP_SHD_TRK_CTRL_EN.of x = 1) && decide (src ≠ i) && !suits) ||
    decide (12 < R.PCP_SHD_TRK_CTRL_A.of x) || decide (R.PCP_SHD_TRK_CTRL_LIM.of x = 0)
  .next (s.rowWrite w .PCP_SHD_TRK_CTRL i 0 x (refuseIf bad .range) (some R.PCP_SHD_STATUS_LAST_STATUS) 0 fun s =>
    if R.PCP_SHD_TRK_CTRL_EN.of x = 0 then s.each (List.range 8) fun s j => s.setDrift i j 0 0x4000 else s)

/-- FIR_SLOT_WRITE (R181): a write to word `a` of the FIR store. -/
def execFirSlotWrite (w : World) (a : Fin 16384) (v : BitVec 32) (s : State) : Out :=
  let b := 0x3800000 + 4 * a.val
  .next (s.windowWrite w b (refuseIf (s.firInUse (a.val / 32)) .busy)
    (fun s => ((s.refuse w .busy (some R.PCP_ALN_STATUS_LAST_STATUS)).add R.PCP_DEC_REFUSED_COUNT 1).raise Ev.leafRefused)
    (State.putLeaf · b (leBytes 4 v.toNat)))

/-! ### Measurements (R167, R168, R174) -/

/-- ALN_MEAS_START (R167, R168): a write of PCP_ALN_MEAS_CTRL with GO = 1. -/
def execAlnMeasStart (w : World) (v : BitVec 32) (s : State) : Out :=
  let x := v.toNat
  let p := R.PCP_ALN_MEAS_CTRL_HEAD.of x
  let cnt := s.get R.PCP_ALN_MEAS_WIN_COUNT
  let check := pickStatus [refuseIf (!s.headScans p) .state, refuseIf (s.on R.PCP_ALN_MEAS_CTRL_BUSY) .busy,
    refuseIf (decide (cnt = 0) || decide (s.headCols p < s.get R.PCP_ALN_MEAS_WIN_FIRST + cnt) ||
      decide (12 < R.PCP_ALN_MEAS_CTRL_N.of x)) .range]
  .next (s.rowWrite w .PCP_ALN_MEAS_CTRL 0 0 x check (some R.PCP_ALN_STATUS_LAST_STATUS) 0 fun s =>
    let m : AlnMeas := { head := p, startLine := s.nextHinge ((s.stationOfHead p).getD 0), nLog := R.PCP_ALN_MEAS_CTRL_N.of x,
                         falling := decide (R.PCP_ALN_MEAS_CTRL_POL.of x = 1), level := R.PCP_ALN_MEAS_CTRL_T.of x,
                         first := s.get R.PCP_ALN_MEAS_WIN_FIRST, count := cnt }
    (({ s with pcp := { s.pcp with aln := m } } : State).set R.PCP_ALN_MEAS_CTRL_BUSY 1).each (List.range 8) fun s i =>
      s.set R.PCP_ALN_MEAS_RES_FOUND 0 i)

/-- ALN_MEAS_DONE (R167): 2^N lines have been taken. -/
def execAlnMeasDone (s : State) : Out :=
  .next (if s.on R.PCP_ALN_MEAS_CTRL_BUSY ∧ 2 ^ s.pcp.aln.nLog ≤ s.pcp.aln.taken then
    s.set R.PCP_ALN_MEAS_CTRL_BUSY 0 else s)

/-- DVT_MEAS_START (R168, R174): a write of PCP_DVT_MEAS_CTRL with GO = 1. -/
def execDvtMeasStart (w : World) (v : BitVec 32) (s : State) : Out :=
  let x := v.toNat
  let n := R.PCP_DVT_MEAS_CTRL_STATION.of x
  let check := pickStatus [refuseIf (decide (s.stState n ≠ St.scanning)) .state, refuseIf (s.on R.PCP_DVT_MEAS_CTRL_BUSY) .busy,
    refuseIf (decide (s.dvtV n = 0) || decide ((s.station n).heads.length ≤ R.PCP_DVT_MEAS_CTRL_POS.of x + 1) ||
      decide (12 < R.PCP_DVT_MEAS_CTRL_N.of x)) .range]
  .next (s.rowWrite w .PCP_DVT_MEAS_CTRL 0 0 x check (some R.PCP_ALN_STATUS_LAST_STATUS) 0 fun s =>
    let m : DvtMeas := { station := n, pos := R.PCP_DVT_MEAS_CTRL_POS.of x, nLog := R.PCP_DVT_MEAS_CTRL_N.of x, startLine := s.nextHinge n }
    (({ s with pcp := { s.pcp with dvt := m } } : State).set R.PCP_DVT_MEAS_CTRL_BUSY 1))

/-- The place and value of the smallest of a list, the first on a tie. -/
def leastAt : List Nat → Nat → Nat × Nat
  | [], i => (i, 0)
  | [a], i => (i, a)
  | a :: t, i => let r := leastAt t (i + 1); if a ≤ r.2 then (i, a) else r

/-- DVT_MEAS_DONE (R174): BEST and SAD after 2^N lines. -/
def execDvtMeasDone (s : State) : Out :=
  let x := s.pcp.dvt
  let n := x.nLog
  if s.on R.PCP_DVT_MEAS_CTRL_BUSY ∧ 2 ^ n ≤ x.taken then
    let r := leastAt x.sums 0
    .next (((s.setS R.PCP_DVT_MEAS_RES_BEST ((r.1 : Int) - 32)).setSat R.PCP_DVT_MEAS_RES_SAD (roundDiv r.2 (2 ^ n))).set
      R.PCP_DVT_MEAS_CTRL_BUSY 0)
  else .next s

/-- DVT_TIMEOUT (R176): the oldest line that waits for its dovetail columns was placed DVT_TIMEOUT lines ago. -/
def execDvtTimeout (n : Fin 8) (s : State) : Out :=
  let i := n.val
  let x := s.pst i
  match x.waiting.find? fun o => o.right.isNone && !o.late with
  | none => .next s
  | some o =>
    if o.n + s.get R.PCP_STC_ST_CTRL_DVT_TIMEOUT i ≤ x.placed.getD 0 then
      let s1 := (s.add R.PCP_DVT_LATE_COUNT 1).raise Ev.dovetailLate
      .next ((s1.flushWaiting i (x.waiting.map fun y => if y.n = o.n then { y with late := true } else y)).syncHeld i)
    else .next s

/-! ### Products (R178 to R182) -/

/-- Line `h` has reached decimation: it lies below the product's pointer, or the line at the pointer has been filtered and waits on its
queue (R182, R189). -/
def State.lineDecimated (s : State) (n q h : Nat) : Bool :=
  let l := SMap.get (s.sto n).products 0 q
  decide (h < l) || ((s.prod q).wait && decide (h ≤ l))

/-- DEC_SWAP_REQUEST (R182): a write of PCP_DEC_SWAP with GO = 1. -/
def execDecSwapRequest (w : World) (q : Fin 32) (v : BitVec 32) (s : State) : Out :=
  let i := q.val
  let x := v.toNat
  let n := s.get R.PCP_DEC_CTRL_STATION i
  let named := s.get R.PCP_DEC_SWAP_H i
  let h := if named = 0 then s.nextHinge n else named
  let lx := R.PCP_DEC_SWAP_LEAF_X.of x
  let ly := R.PCP_DEC_SWAP_LEAF_Y.of x
  let check := pickStatus [refuseIf (!s.on R.PCP_DEC_CTRL_EN i || !s.stBusy n) .state,
    refuseIf (!isBandStart h (s.bandExp n) || s.lineDecimated n i h || !s.firOk lx || !s.firOk ly) .range]
  .next (s.rowWrite w .PCP_DEC_SWAP i 0 x check (some R.PCP_ALN_STATUS_LAST_STATUS) 0 fun s =>
    let s1 := if s.on R.PCP_DEC_SWAP_PENDING i then s.add R.PCP_DEC_REPLACED_COUNT 1 else s
    (s1.setProd i { s1.prod i with pendX := lx, pendY := ly, pendH := h }).set R.PCP_DEC_SWAP_PENDING 1 i)

/-- PRODUCT_LINE_READ (R178 to R180, R189, R405): the product's reader takes its next stored line; `e` is what reading the
slot meets. -/
def execProductLineRead (q : Fin 32) (e : HbmErr) (s : State) : Out :=
  let i := q.val
  let n := s.get R.PCP_DEC_CTRL_STATION i
  if s.on R.PCP_DEC_CTRL_EN i ∧ s.stBusy n ∧ ((s.sto n).products.any fun p => p.1 = i) = true then
    .next ((s.productStep n i e).syncHeld n)
  else .next s

end Sys2Proof.Machine
end

