-- ==== Sys2Proof/Machine/Qmx.lean ====
section
/-! DEFINITION. The commands of the queue manager (spec/08). -/

namespace Sys2Proof.Machine

/-- QUEUE_WRITE (R214, R219, R225): the writer of a queue presents a word. -/
def execQueueWrite (q : Fin 262144) (d : BitVec 64) (fin : Bool) (s : State) : Out :=
  .next (s.presentWords q.val [⟨d.toNat, fin⟩])

/-- QUEUE_READ (R215 to R217, R222, R224): a reader of a queue asks for its next word; `second` names the second reader of a
DESCRIPTOR queue, and `ecc` is what the check of the word finds. -/
def execQueueRead (q : Fin 262144) (second : Bool) (ecc : Ecc) (s : State) : Out :=
  .next (if s.isRing q.val then s.readRing q.val second ecc else s.readWord q.val ecc)

/-- QUEUE_IDLE_TIMEOUT (R223). -/
def execQueueIdleTimeout (q : Fin 262144) (s : State) : Out :=
  let i := q.val
  let x := s.queue i
  let wd := s.get R.QMX_Q_STATUS_WR_DRAWER i
  .next (if s.get R.QMX_Q_CFG_IDLE i ≠ 0 ∧ s.isRing i = false ∧ s.on R.QMX_Q_STATUS_READ_WAIT i ∧ (x.drawer (1 - wd)).isEmpty ∧
      x.drawer wd ≠ [] ∧ x.closed = false then (s.closeDrawer i).drain i else s)

/-- QUEUE_STALL_TIMEOUT (R226): a reader's wait, or with `wr` a writer's, has lasted 2^STALL µs. -/
def execQueueStallTimeout (q : Fin 262144) (wr : Bool) (s : State) : Out :=
  let i := q.val
  let x := s.queue i
  if s.get R.QMX_Q_CFG_STALL i = 0 then .next s
  else if wr then
    .next (if (s.on R.QMX_Q_STATUS_FULL i ∨ s.on R.QMX_Q_STATUS_ALLOC_WAIT i) ∧ x.wrStalled = false then
      ((s.setQueue i { x with wrStalled := true }).set R.QMX_Q_STATUS_WR_STALL 1 i).queueEvent i 2 Ev.queueStall else s)
  else
    .next (if s.on R.QMX_Q_STATUS_READ_WAIT i ∧ x.rdStalled = false then
      ((s.setQueue i { x with rdStalled := true }).set R.QMX_Q_STATUS_RD_STALL 1 i).queueEvent i 1 Ev.queueStall else s)

/-- SLAB_TRANSIT_ARRIVE (R221, R229, R237, R530). -/
def execSlabTransitArrive (s : State) : Out := .next s.transitArrive.finishAborts

/-- SLAB_AGE_FAIL (R241): the oldest slabs have been in transit for more than 1 µs. -/
def execSlabAgeFail (s : State) : Out :=
  .next (if s.qmx.transit = [] then s else s.set R.QMX_AUD_STATUS_AGE_FAIL 1)

/-- The fields of QMX_Q_CFG that change only while EN is 0 (R232). -/
def queueFields : List Fld :=
  [R.QMX_Q_CFG_CLASS, R.QMX_Q_CFG_MAX, R.QMX_Q_CFG_CLOSE_END, R.QMX_Q_CFG_IDLE, R.QMX_Q_CFG_STALL, R.QMX_Q_CFG_STATION]

/-- A queue with the other fields of a written QMX_Q_CFG, EN apart. -/
def State.putQueueFields (s : State) (q v : Nat) : State := s.each queueFields fun s f => s.set f (f.of v) q

/-- QUEUE_ENABLE (R211, R231, R232): a write of QMX_Q_CFG with EN = 1. -/
def execQueueEnable (w : World) (q : Fin 262144) (v : BitVec 32) (s : State) : Out :=
  let i := q.val
  let x := v.toNat
  let on := s.on R.QMX_Q_CFG_EN i
  let check := pickStatus [refuseIf (on && s.changes queueFields i 0 x) .state, refuseIf (decide (i < 256)) .range,
    if on then none else (s.putQueueFields i x).enableCheck i]
  .next (s.hostWrite w .QMX_Q_CFG i 0 check (some R.QMX_Q_CMD_LAST_STATUS) i fun _ s =>
    if on then s else (s.putQueueFields i x).enableQueue i)

/-- What keeps a queue enabled (R232). -/
def State.queueBusy (s : State) (q : Nat) : Bool :=
  s.holdsWords q || decide (s.qState q = 2) || s.on R.QMX_Q_STATUS_WR_OPEN q || s.on R.QMX_Q_STATUS_RD_OPEN q ||
    s.on R.QMX_Q_STATUS_FULL q || s.on R.QMX_Q_STATUS_ALLOC_WAIT q || s.on R.QMX_Q_STATUS_READ_WAIT q

/-- QUEUE_DISABLE (R211, R232): a write of QMX_Q_CFG with EN = 0. -/
def execQueueDisable (w : World) (q : Fin 262144) (v : BitVec 32) (s : State) : Out :=
  let i := q.val
  let x := v.toNat
  let on := s.on R.QMX_Q_CFG_EN i
  let check := pickStatus [refuseIf (on && s.changes queueFields i 0 x) .state, refuseIf (on && s.queueBusy i) .busy,
    refuseIf (decide (i < 256)) .range]
  .next (s.hostWrite w .QMX_Q_CFG i 0 check (some R.QMX_Q_CMD_LAST_STATUS) i fun _ s =>
    if on then s.disableQueue i else s.putQueueFields i x)

/-- QUEUE_FLUSH (R236 to R239): a write of 1 to QMX_Q_CMD.FLUSH. -/
def execQueueFlush (w : World) (q : Fin 262144) (s : State) : Out :=
  let i := q.val
  let n := s.get R.QMX_Q_CFG_STATION i
  let check := pickStatus [refuseIf (!s.on R.QMX_Q_CFG_EN i || (decide (n < 8) && s.stBusy n)) .state,
    refuseIf (decide (s.qState i = 2)) .busy]
  .next (s.hostWrite w .QMX_Q_CMD i 0 check (some R.QMX_Q_CMD_LAST_STATUS) i fun _ s => s.flushQueue i)

/-- QUEUE_AUTO_DISABLE (R210, R310, R578): a queue of a station back in IDLE that holds no word. -/
def execQueueAutoDisable (q : Fin 262144) (s : State) : Out :=
  let i := q.val
  let n := s.get R.QMX_Q_CFG_STATION i
  .next (if n < 8 ∧ s.stBusy n = false ∧ (i < 256 ∨ i ∈ s.stationQueues n) then s.autoDisable i else s)

end Sys2Proof.Machine
end

