-- ==== Sys2Proof/Machine/Scu.lean ====
section
/-! DEFINITION. The commands of the configuration unit: loading a structure image and the partial reload (spec/11). -/

open Sys2Proof

namespace Sys2Proof.Machine

/-- A mapped queue still holds words (R314). -/
def State.mappedHold (s : State) : Bool := s.image.qmap.any fun q => s.holdsWords q.queue

/-- The refusals of a full load that come before anything is read (R314). -/
def State.fullLoadFail (s : State) : Option ImgFail :=
  if (s.dev ≠ Dev.idle ∧ s.dev ≠ Dev.loaded) ∨ (stations8.any s.stBusy) = true then
    some { stage := 0, status := .state, off := 0 }
  else if s.mappedHold then some { stage := 0, status := .busy, off := 0 }
  else none

/-- What refuses a load of `len` bytes before anything is read (R297, R314), in the order of R540. -/
def State.loadFail (s : State) (len : Nat) (part : Bool) : Option ImgFail :=
  firstFail
    [failIf (len < 64 || 268435456 < len) { stage := 0, status := .length, off := 0 },
     if part then none else s.fullLoadFail,
     failIf (s.get R.SST_CFG_STORE = 32) { stage := 0, status := .range, off := 0 }]

/-- IMAGE_LOAD (R297, R314): a write of SCU_IMG_CTRL. Whether the image at the source is a partial one
decides what a full load is refused for before anything is read; LENGTH is taken now. -/
def execImageLoad (w : World) (x : ImageGo) (s : State) : Out :=
  .next (s.hostWrite w .SCU_IMG_CTRL 0 0 none none 0 fun r s =>
    let t := s.writeAll w r 0 0 x.value.toNat
    let len := s.get R.SCU_IMG_LEN_LENGTH
    if R.SCU_IMG_CTRL_GO.of x.value.toNat = 0 then t
    else if s.on R.SCU_IMG_STATUS_BUSY then (s.countRefused w .busy).set R.SCU_IMG_STATUS_STATUS Status.busy.code
    else if len = 0 then t.imageOk
    else
      match t.loadFail len x.part with
      | some f => (s.countRefused w f.status).imageRefused f
      | none => ({ t with scu := { t.scu with loadLen := len, loadPart := x.part } } : State).set R.SCU_IMG_STATUS_BUSY 1)

/-- The engine loads with those of a partial image where they are higher (R45, R322). -/
def State.loadsWith (s : State) (m : Image) : List (Nat × Nat × Nat) :=
  s.engLoads.map fun e => (e.1, e.2.1, if m.engines.contains e.1 then max e.2.2 (m.sigmaOf e.1) else e.2.2)

/-- Stages 8h and 9h of a partial image (R45, R55, R315, R319), the throttle level having become `t2` in the check. A station in IDLE
brings no load until its arm (log 130). -/
def State.partialLoad (s : State) (m : Image) (policy : Bool) (t2 : Option Nat) : State :=
  let n := m.station
  let h := s.reloadHinge n
  let okHinge := if s.stBusy n then s.hingeFree n m.engines h else isBandStart h (s.bandExp n)
  if okHinge = false then s.imageRefused { stage := 6, status := .range, off := 0 }
  else
    let a := s.admission s.counted s.lineRate (s.loadsWith m) t2
    if a.1 = false then a.2.imageRefused { stage := 8, status := .nofit, off := 0 }
    else
      let s1 : State := { a.2 with scu := { a.2.scu with unverified := policy } }
      let rises := s.counted n && decide (s.lineRate n ≠ 0) && s.engLoads.any fun e =>
        m.engines.contains e.1 && decide (e.2.2 < m.sigmaOf e.1)
      if rises then ({ s1 with scu := { s1.scu with waiting := some m } } : State).raiseVmax .image
      else s1.stageReload m

/-- What refuses a read image: as a full load when GO took it for a partial one (R314), then stages 1 to 7 (R315). -/
def State.checksFail (s : State) (o : ImageObs) : Option ImgFail :=
  firstFail [if s.scu.loadPart && o.readOk && !(ImgFile.isPart o.bytes) then s.fullLoadFail else none, s.imageFail o]

/-- IMAGE_CHECKS_DONE (R315 to R319): the image has been read; `o` is what the read showed. -/
def execImageChecksDone (o : ImageObs) (t2 : Option (Fin 16)) (s : State) : Out :=
  if ¬ s.on R.SCU_IMG_STATUS_BUSY ∨ s.scu.waiting.isSome then .next s
  else
    let b : ImgFile := o.bytes
    let m := b.parse (s.imageSects b)
    let policy := s.on R.SMC_POLICY_ALLOW_UNTESTED && (s.stage4 b).isSome
    match s.checksFail o with
    | some f => .next (s.imageRefused f)
    | none => .next (if b.isPart then s.partialLoad m policy (t2.map (·.val)) else s.commitImage m policy)

/-- RELOAD_COPY_DONE (R321 steps 4 and 5). -/
def execReloadCopyDone (s : State) : Out :=
  match s.scu.staged with
  | some m => .next (if s.get R.SCU_RLD_STATUS_PHASE = 3 then (s.takeReload m true).syncHeld m.station else s)
  | none => .next s

/-- Drop a staged reload, its load and its mark (R322). -/
def State.dropReload (s : State) : State :=
  match s.scu.staged with
  | some m =>
    let n := m.station
    let s1 : State := { s with scu := { s.scu with staged := none } }
    let s2 := s1.setSto n { s1.sto n with reloadMark := none }
    ((s2.set R.SCU_RLD_STATUS_PHASE 0).set R.SCU_RLD_MASK_GROUPS 0).syncStore n
  | none => s

/-- RELOAD_CANCEL (R322): a write of SCU_RLD_CTRL. -/
def execReloadCancel (w : World) (v : BitVec 32) (s : State) : Out :=
  let go := decide (R.SCU_RLD_CTRL_CANCEL.of v.toNat = 1)
  .next (s.rowWrite w .SCU_RLD_CTRL 0 0 v.toNat (refuseIf (go && s.get R.SCU_RLD_STATUS_PHASE != 1) .state)
    (some R.SCU_RLD_STATUS_LAST_STATUS) 0 fun s => if go then s.dropReload else s)

end Sys2Proof.Machine
end

