-- ==== Sys2Proof/Machine/Seal.lean ====
section
/-! DEFINITION. The commands of the seal (spec/12). Instants are LTU units (R99). -/

open Sys2Proof

namespace Sys2Proof.Machine

/-- One station's seal attempt (R325, R328, R330 to R341): its next band is locally sealed, at instant `t`, when it meets R325. The
audits are made; a frozen station keeps the band, a ring station answers with its tokens, and any other seals it. -/
def State.sealAttempt (s : State) (i : Nat) (t : Int) : State :=
  let b := s.nextLocal i
  if s.meetsLocal i b then
    let s1 := s.sealAudits
    let s2 := (s1.set R.SCU_SEAL_ST_LOCAL_BAND b i).setSeal i { s1.sealOf i with localValid := true }
    let x := s2.sealOf i
    if s2.on R.SCU_SEAL_ST_STATUS_FROZEN i then (s2.setSeal i { x with frozenBands := x.frozenBands ++ [b] }).syncHeld i
    else if s2.ringStation i then (s2.moveTokens i t).syncHeld i
    else s2.sealBand i b t false
  else s

/-- SEAL_ATTEMPT (R325, R344): the attempts of the stations of mask `ns` that fall in one handshake, in ascending station number. -/
def execSealAttempt (ns : BitVec 8) (t : Int) (s : State) : Out :=
  .next (s.each (stations8.filter fun i => bit ns.toNat i) fun s i => s.sealAttempt i t)

/-- Seal the bands that met R325 in a freeze, with the audit mark, in band order (R342). -/
def State.sealFrozen (s : State) (n : Nat) (t : Int) (bs : List Nat) : State :=
  s.each bs fun s b => s.sealBand n b t true

/-- What a freeze of the member held on the ring goes on: the tokens of every ring station (R329, R362). -/
def State.moveAll (s : State) (t : Int) : State := s.each s.ringStations fun s n => (s.moveTokens n t).syncHeld n

/-- End a freeze (R342): on a ring the bands whose LAP 1 token has passed are sealed, and the others follow with their
tokens. The tokens of the member's other ring stations go on with them (R329, R362). -/
def State.thaw (s : State) (n : Nat) (t : Int) : State :=
  let s1 := s.set R.SCU_SEAL_ST_STATUS_FROZEN 0 n
  let x := s1.sealOf n
  if s1.ringStation n then
    ((s1.sealLate n t (s1.kst n).sealedLate.length).syncHeld n).moveAll t
  else (((s1.setSeal n { x with frozenBands := [] }).sealFrozen n t x.frozenBands).syncHeld n).moveAll t

/-- SEAL_THAW (R342): a write of SCU_SEAL_ST_CTRL at instant `t`. -/
def execSealThaw (w : World) (n : Fin 8) (v : BitVec 32) (t : Int) (s : State) : Out :=
  let i := n.val
  let x := v.toNat
  let go := decide (R.SCU_SEAL_ST_CTRL_THAW.of x = 1)
  let lat := R.SCU_SEAL_ST_CTRL_MAXLAT.of x
  let check := pickStatus [
    refuseIf (go && (s.scopeFails i || !s.on R.SCU_SEAL_ST_STATUS_FROZEN i)) .state,
    refuseIf (s.stBusy i && s.changes [R.SCU_SEAL_ST_CTRL_MAXLAT, R.SCU_SEAL_ST_CTRL_SNAP_LOG] i 0 x) .state,
    refuseIf (decide (lat = 0) || decide (1000 < lat) || decide (8 < R.SCU_SEAL_ST_CTRL_SNAP_LOG.of x)) .range]
  .next (s.rowWrite w .SCU_SEAL_ST_CTRL i 0 x check (some R.SCU_SEAL_ST_STATUS_LAST_STATUS) i fun s =>
    if go then s.thaw i t else s)

/-- SEAL_LATENCY_EXCEEDED (R334): at instant `t` the last line of the next band was triggered more than MAXLAT ago. -/
def execSealLatencyExceeded (n : Fin 8) (t : Int) (s : State) : Out :=
  let i := n.val
  let b := if s.on R.SCU_SEAL_ST_STATUS_VALID i then s.get R.SCU_SEAL_ST_HZN_BAND i + 1 else bandOf (s.w0 i) (s.bandExp i)
  let passed : Bool := match (s.lst i).last with
    | some l => decide (s.bandLast i b ≤ l.n)
    | none => false
  .next (if s.stBusy i = true ∧ s.bandExists i b = true ∧ passed ∧ s.tooLate i (s.sealAge i b t) = true then s.markLate i b else s)

/-- FREEZE_TIMEOUT (R343): a station has been frozen for FREEZE_MS. -/
def execFreezeTimeout (n : Fin 8) (s : State) : Out :=
  .next (if s.on R.SCU_SEAL_ST_STATUS_FROZEN n.val then s.enterFault 2 n.val else s)

/-- SNAPSHOT_BAND_LO_READ (R336): the read latches the band's high half and the 15 counters. -/
def execSnapshotBandLoRead (w : World) (n : Fin 8) (s : State) : Out :=
  let i := n.val
  let a := RegId.addr .SCU_SEAL_ST_SNAP_BAND_LO i
  let b := s.get R.SCU_SEAL_ST_SNAP_BAND_BAND i
  .next (s.hostRead w a 4 (b % 2 ^ 32) fun s =>
    let s1 : State := { s with hold := SMap.put s.hold 0 (a + 4) (b / 2 ^ 32) }
    s1.each (List.range 15) fun s k =>
      { s with hold := SMap.put s.hold 0 (RegId.addr .SCU_SEAL_ST_SNAP i k) (s.get R.SCU_SEAL_ST_SNAP_COUNT i k) })

end Sys2Proof.Machine
end

