-- ==== Sys2Proof/Machine/Sst.lean ====
section
/-! DEFINITION. The commands of the scan store (spec/07). Instants are LTU units (R99). -/

namespace Sys2Proof.Machine

/-- LINE_STORE (R186, R188, R193 to R205): the next conditioned line of a station reaches the store. An HBM in self-refresh takes none
(R483). -/
def execLineStore (n : Fin 8) (x : StoreSeen) (s : State) : Out :=
  let i := n.val
  if s.stBusy i ∧ s.smc.hbmRefresh = false then
    match s.takeLine i with
    | (none, s1) => .next s1
    | (some l, s1) => .next ((((s1.storeLine i l.1 l.2.1 l.2.2 x.seam).checkStop i x.time).checkReload).syncHeld i)
  else .next s

/-- A line of a store read queue goes to its queue (R189, R209, R255, R257). -/
def State.offerLine (s : State) (n q : Nat) (m : QMap) (e : HbmErr) : State :=
  let x := s.sto n
  let l := SMap.get x.queues 0 q
  if x.offered.contains q then
    (if (s.queue q).present = [] then s.advanceQueue n q l else s)
  else if s.wp n ≤ l ∨ s.lineEndKnown n l = false ∨ s.feedStopped q = true then s
  else
    let s1 := s.slotError n l e
    let s2 := s1.setSto n { s1.sto n with offered := q :: x.offered }
    let s3 := s2.presentItem q (s2.storeItem n l m)
    if (s3.queue q).present = [] then s3.advanceQueue n q l else s3

/-- STORE_READ_QUEUE_ADVANCE (R189, R192, R209): a store read queue accepts the line of its pointer; `e` is what reading the
slot meets. A full queue makes its reader wait, and an HBM in self-refresh gives no line (R483). -/
def execStoreReadQueueAdvance (q : Fin 262144) (e : HbmErr) (s : State) : Out :=
  let i := q.val
  match s.image.qmap.find? fun m => m.queue = i with
  | some m =>
    match m.writer with
    | .store n =>
      if s.stBusy n ∧ s.smc.hbmRefresh = false ∧ ((s.sto n).queues.any fun p => p.1 = i) = true ∧ s.qState i = 1 then
        .next (((s.offerLine n i m e).checkReload).syncHeld n)
      else .next s
    | _ => .next s
  | none => .next s

/-- Line R − 1 is stored and the station stands in a stop, or a stop in step 5 is to return to step 3 (R196, R198). -/
def State.backUpDue (s : State) (n : Nat) : Bool :=
  let ph := s.get R.SST_ST_REW_STATUS_PHASE n
  s.isSheet n && (s.sto n).restart &&
    ((decide (s.stState n = St.paused) && decide (ph = 1) && decide (s.get R.SST_ST_REW_R n ≤ s.wp n)) ||
      (decide (s.stState n = St.rewinding) && decide (ph = 4) && (s.sto n).stopped))

/-- Step 3 of a restart (R196): REWINDING, PHASE 2, and the armed match withdrawn (R198). -/
def State.enterBackUp (s : State) (n : Nat) : State :=
  ((s.withdrawMatch n).enterSt n St.rewinding).set R.SST_ST_REW_STATUS_PHASE 2 n

/-- REWIND_BACKUP_START (R196 step 3, R198): the axis stands still at instant `t`. -/
def execRewindBackupStart (n : Fin 8) (t : Int) (s : State) : Out :=
  let i := n.val
  let a := s.paceAxis i
  if s.backUpDue i ∧ s.paced i ∧ s.axStandstill a then
    .next ((s.enterBackUp i).backUp a (s.backTarget i (s.get R.SST_ST_REW_M i)) (s.posOf i t) 0)
  else .next s

/-- REWIND_FORWARD_RUN (R196 steps 4 and 5, R529, R577): an unpaced station that has come back to its back-up target
arms its match; the run begins once the backlog and the cap allow it and no HOLD stands. -/
def execRewindForwardRun (x : StationAt) (s0 : State) : Out :=
  let i := x.station.val
  let s := s0.stepFour i x.time
  if s.isSheet i ∧ s.stState i = St.rewinding ∧ s.get R.SST_ST_REW_STATUS_PHASE i = 3 ∧
      s.get R.SST_ST_BACKLOG_B i ≤ s.get R.SST_ST_THR_RESUME_LINES i ∧
      s.get R.SST_ST_PACE_SMIN i ≤ 64 * s.get R.SST_ST_SCALE_CAP i ∧ s.on R.SMC_ST_STATE_HOLD i = false then
    let s1 := (s.set R.SST_ST_REW_STATUS_PHASE 4 i).setSto i { s.sto i with stopped := false, entryBelow := false }
    .next (if s1.paced i then s1.axisScale i (s1.paceAxis i) 1024 else s1.watchEntry i (s1.posOf i x.time))
  else .next s

/-- Step 6 of a restart (R127, R166, R196): the station enters SCANNING, and the LTU commits M next, the line of
the armed match. -/
def State.enterScan (s : State) (n : Nat) (t : Int) : State :=
  let m := (s.lst n).next
  let s1 := (s.setSto n { s.sto n with stopped := false, mTriggered := false }).watchFrom n t
  let s2 := s1.restartHeads n m false
  let s3 := s2.each (s2.station n).heads fun s p =>
    s.setPhead p { s.phead p with lines := (s.phead p).lines.filter fun l => decide (l.n < m) }
  let x := s3.pst n
  let s4 := s3.setPst n { x with desc := [], waiting := [], early := [], placed := if m = 0 then none else some (m - 1),
                                 refill := some (m, m + s3.span n) }
  (s4.endStop n t).enterSt n St.scanning

/-- REWIND_SCAN_ENTRY (R196 step 6, R577): at instant `t` the axis reports scan velocity or the position has reached
P_M − 2 × D; with no paced axis the position has crossed it in the direction in which lines advance. -/
def execRewindScanEntry (n : Fin 8) (t : Int) (s0 : State) : Out :=
  let i := n.val
  let s := s0.watchEntry i (s0.posOf i t)
  let there := s.atOrPast i (s.posOf i t) (s.scanEntryPos i)
  let due := if s.paced i then there || s.atScan (s.paceAxis i) else there && (s.sto i).entryBelow
  if s.isSheet i ∧ s.stState i = St.rewinding ∧ s.get R.SST_ST_REW_STATUS_PHASE i = 4 ∧ (s.sto i).stopped = false ∧ due then
    .next ((s.enterScan i t).syncHeld i)
  else .next s

/-- REWIND_TIMEOUT (R197): step 3 or step 4 has not completed within 10 s. -/
def execRewindTimeout (n : Fin 8) (s : State) : Out :=
  let i := n.val
  let ph := s.get R.SST_ST_REW_STATUS_PHASE i
  if (s.sto i).restart ∧ ((s.stState i = St.paused ∧ ph = 1) ∨
      (s.stState i = St.rewinding ∧ (ph = 2 ∨ (ph = 4 ∧ (s.sto i).stopped = true)))) then .next (s.rewindFail i .timeout)
  else .next s

/-- ENCODER_QUIET_TIMEOUT (R577): at instant `t` no edge of an unpaced sheet-class station's encoder has been accepted for 1 ms, and
step 3 follows. The match is armed at once when the position lies at or beyond the back-up target, then or at a later such instant. -/
def execEncoderQuietTimeout (n : Fin 8) (t : Int) (s : State) : Out :=
  let i := n.val
  let due := s.backUpDue i && !s.paced i && decide (12800000 ≤ t - (s.enc (s.encOf i)).te)
  .next ((if due then s.enterBackUp i else s).stepFour i t)

/-! ### The host reader and the host marks (R189, R190, R206) -/

/-- A rewind read to mark `m` (R206). -/
def State.rewindRead (s : State) (n m : Nat) : State :=
  let u := s.relLine n
  match SMap.find? (s.sto n).marks m with
  | none => s
  | some l =>
    if s.on R.SST_ST_MARK_VALID n m then (s.set R.SST_ST_HOST_RP l n).syncStore n
    else
      let s1 := (s.set R.SST_ST_HOST_RP u n).syncStore n
      let s2 := if l < u then s1.sstGap n 2 0x3F 0x3FFFF l (u - 1) else s1
      s2.sstSeam n u u u 3 0 0 (s2.get R.SST_ST_RESTARTS_COUNT n)

/-- EN as a write of SST_ST_HOST_CTRL sets it: the pointer becomes a reader within the retained lines (R189). -/
def State.setHostEn (s : State) (n v : Nat) (was : Bool) : State :=
  let s1 := if R.SST_ST_HOST_CTRL_EN.of v = 1 ∧ ¬ was then
      s.set R.SST_ST_HOST_RP (min (s.wp n) (max (s.relLine n) (s.get R.SST_ST_HOST_RP n))) n
    else s
  s1.syncStore n

/-- A write of SST_ST_HOST_CTRL (R189, R206): EN and MARK, then REWIND. -/
def State.hostCtrl (s : State) (w : World) (n v : Nat) : State :=
  let m := R.SST_ST_HOST_CTRL_MARK.of v
  let rew := decide (R.SST_ST_HOST_CTRL_REWIND.of v = 1)
  let was := s.on R.SST_ST_HOST_CTRL_EN n
  let check := pickStatus [refuseIf (rew && decide (R.SST_ST_HOST_CTRL_EN.of v = 0)) .state,
    refuseIf (rew && (SMap.find? (s.sto n).marks m).isNone) .range]
  s.rowWrite w .SST_ST_HOST_CTRL n 0 v check (some R.SST_ST_HOST_CTRL_LAST_STATUS) n fun s =>
    let s1 := s.setHostEn n v was
    if rew then s1.rewindRead n m else s1

/-- HOST_READER_ENABLE (R189): a write of SST_ST_HOST_CTRL. -/
def execHostReaderEnable (w : World) (n : Fin 8) (v : BitVec 32) (s : State) : Out :=
  .next (s.hostCtrl w n.val v.toNat)

/-- HOST_REWIND_READ (R206): a write of SST_ST_HOST_CTRL with REWIND = 1. -/
def execHostRewindRead (w : World) (n : Fin 8) (v : BitVec 32) (s : State) : Out :=
  .next (s.hostCtrl w n.val (v.toNat ||| 8))

/-- HOST_RP_WRITE (R189): a write of SST_ST_HOST_RP_LO, or with `hi` of _HI; while EN is 1 the pointer so formed may not lie
below its present value or above WP. -/
def execHostRpWrite (w : World) (n : Fin 8) (hi : Bool) (v : BitVec 32) (s : State) : Out :=
  let i := n.val
  let old := s.get R.SST_ST_HOST_RP i
  let new := if hi then spliceBits old 32 16 v.toNat else spliceBits old 0 32 v.toNat
  let check := refuseIf (s.on R.SST_ST_HOST_CTRL_EN i && (decide (s.wp i < new) || decide (new < old))) .range
  .next (s.hostWrite w (if hi then .SST_ST_HOST_RP_HI else .SST_ST_HOST_RP_LO) i 0 check
    (some R.SST_ST_HOST_CTRL_LAST_STATUS) i fun _ s => (s.set R.SST_ST_HOST_RP new i).syncStore i)

/-- A write of SST_ST_MARK_HI (R190): LINE_HI, then SET, then CLEAR. -/
def State.hostMark (s : State) (w : World) (n m v : Nat) : State :=
  let set := decide (R.SST_ST_MARK_SET.of v = 1)
  let clear := decide (R.SST_ST_MARK_CLEAR.of v = 1)
  let l := spliceBits (s.get R.SST_ST_MARK_LINE n m) 32 16 v
  let check := refuseIf (set && (decide (l < s.relLine n) || decide (s.wp n < l))) .range
  s.rowWrite w .SST_ST_MARK_HI n m v check (some R.SST_ST_HOST_CTRL_LAST_STATUS) n fun s =>
    let x := s.sto n
    let s1 := if set then
        (s.setSto n { x with marks := SMap.insert x.marks m l }).set R.SST_ST_MARK_VALID 1 n m
      else s
    let y := s1.sto n
    let s2 := if clear then
        (s1.setSto n { y with marks := SMap.erase y.marks m }).set R.SST_ST_MARK_VALID 0 n m
      else s1
    s2.syncStore n

/-- HOST_MARK_SET (R190): a write of SST_ST_MARK_HI with SET = 1. -/
def execHostMarkSet (w : World) (n : Fin 8) (m : Fin 4) (v : BitVec 32) (s : State) : Out :=
  .next (s.hostMark w n.val m.val (v.toNat ||| 2 ^ 29))

/-- HOST_MARK_CLEAR (R190): a write of SST_ST_MARK_HI with CLEAR = 1. -/
def execHostMarkClear (w : World) (n : Fin 8) (m : Fin 4) (v : BitVec 32) (s : State) : Out :=
  .next (s.hostMark w n.val m.val (v.toNat ||| 2 ^ 30))

/-- SST_STORE_SPLIT_WRITE (R183): a write of SST_CFG.STORE. -/
def execSstStoreSplitWrite (w : World) (v : BitVec 32) (s : State) : Out :=
  let x := v.toNat
  let check := pickStatus [refuseIf (decide (s.dev ≠ Dev.idle)) .state, refuseIf (decide (32 < R.SST_CFG_STORE.of x)) .range]
  .next (s.rowWrite w .SST_CFG 0 0 x check (some R.SST_STATUS_LAST_STATUS) 0 State.syncPages)

end Sys2Proof.Machine
end

