-- ==== Sys2Proof/Machine/Station.lean ====
section
/-! DEFINITION. The station commands of the mailbox (spec/21). `r` is the ring whose HEAD is taken. -/

open Sys2Proof

namespace Sys2Proof.Machine

/-- The STATION byte of the command at HEAD. -/
def State.stParam (s : State) (r : Nat) : Nat := s.param r 16 1

/-- A station command refused with STATE where R526 does not mark it. -/
def badState (n : Nat) : CmdEnd := .refused .state (atReg .SMC_ST_STATE n) 0

/-- The first ports of a HEADS field (spec/21). -/
def headsOf (v : Nat) : List Nat := (List.range 96).filter fun p => bit v p

/-- ST_DEFINE (R526, R527). -/
def State.define (s : State) (r n : Nat) : CmdEnd :=
  let cls := s.param r 17 1
  let k := s.param r 18 1
  let hs := headsOf (s.param r 20 12)
  let taken := hs.any fun p => (stations8.filter (· ≠ n)).any fun m => (s.station m).heads.contains p
  match pickStatus [refuseIf (s.stBusy n) .state, refuseIf taken .busy,
      refuseIf (decide (k < 6 ∨ 16 < k) || decide (1 < cls)) .range] with
  | some c => .refused c (atReg .SMC_ST_STATE n) 0
  | none =>
    .ok (((s.setStation n { s.station n with k := k, heads := hs }).set R.SMC_ST_STATE_CLASS cls n).set R.SMC_ST_STATE_K k n) []

def execStDefine (r : Fin 2) (s : State) : Out :=
  .next (s.command r Op.stDefine fun s => s.define r (s.stParam r))

/-- ST_ARM (R528), at instant `t`; the throttle level has become `t2` while it was checked (R50), and `west` is what the West
neighbour shows of RECV_RIGHT (R358). -/
def execStArm (r : Fin 2) (t : Int) (t2 : Option (Fin 16)) (west : Bool) (s : State) : Out :=
  .next (s.command r Op.stArm fun s => s.arm (s.stParam r) t (t2.map (·.val)) west)

/-- ST_START at instant `t` (R525, R526): lines are committed from now on. -/
def State.startRun (s : State) (n : Nat) (t : Int) : CmdEnd :=
  if s.stState n ≠ St.armed ∨ s.ringStation n = true then badState n
  else .ok ((((s.watchFrom n t).enterSt n St.scanning).syncStore n).syncHeld n) []

def execStStart (x : RingAt) (s : State) : Out :=
  .next (s.command x.ring Op.stStart fun s => s.startRun (s.stParam x.ring) x.time)

/-- ST_PAUSE at instant `t` (R195, R529). After a fault of its paced axis only an abort ends the state (R474). -/
def State.pause (s : State) (n : Nat) (t : Int) : CmdEnd :=
  if s.stState n ≠ St.scanning ∨ (s.station n).axisDown = true then badState n
  else if s.isSheet n = false then .refused .range (atReg .SMC_ST_STATE n) 0
  else
    let s1 := (s.stopStation n t).set R.SMC_ST_STATE_HOLD 1 n
    .ok s1 (leBytes 8 0 ++ leBytes 8 (s1.get R.SST_ST_REW_R n))

def execStPause (r : Fin 2) (t : Int) (s : State) : Out :=
  .next (s.command r Op.stPause fun s => s.pause (s.stParam r) t)

/-- ST_RESUME (R529): legal with a host hold only (R526). -/
def State.resume (s : State) (n : Nat) : CmdEnd :=
  if (s.stState n = St.paused ∨ s.stState n = St.rewinding) ∧ s.on R.SMC_ST_STATE_HOLD n = true then
    .ok (s.set R.SMC_ST_STATE_HOLD 0 n) []
  else badState n

def execStResume (r : Fin 2) (s : State) : Out :=
  .next (s.command r Op.stResume fun s => s.resume (s.stParam r))

/-- The result of ST_DRAIN: F in bytes 24 to 31. -/
def drainResult (f : Nat) : List Nat := leBytes 8 0 ++ leBytes 8 f

/-- The last line committed before now; none before the first. -/
def State.lastCommitted (s : State) (n : Nat) : Option Nat :=
  let x := s.lst n
  if x.everCommitted ∧ s.w0 n < x.next then some (x.next - 1) else none

/-- F once a drain enters DRAINING with last committed line `l`: not below R − 1 while a restart is open (log 10). -/
def State.drainLine (s : State) (n l : Nat) : Nat :=
  if (s.sto n).restart then max l (s.get R.SST_ST_REW_R n - 1) else l

/-- ST_DRAIN in PAUSED or REWINDING at instant `t` (R531): the restart stops, the axis comes to rest, and F is R − 1; a station that never
triggered a line enters IDLE (R331). -/
def State.drainStopped (s : State) (n : Nat) (t : Int) : CmdEnd :=
  let r := s.get R.SST_ST_REW_R n
  let s1 := if s.paced n then s.axisStop (s.paceAxis n) else s
  if r ≤ s.w0 n then .ok (s1.enterDrain n none) (drainResult 0)
  else .ok ((s1.endStop n t).enterDrain n (some (r - 1))) (drainResult (r - 1))

/-- ST_DRAIN in SCANNING (R531). -/
def State.drainRun (s : State) (n final : Nat) : CmdEnd :=
  if final ≠ 0 then .ok (s.setStation n { s.station n with final := some final }) (drainResult (s.drainLine n final))
  else
    match s.lastCommitted n with
    | some l => .ok (s.enterDrain n (some l)) (drainResult (s.drainLine n l))
    | none => .ok (s.enterDrain n none) (drainResult 0)

/-- ST_DRAIN (R526, R531). After a fault of its paced axis only an abort ends the state (R474). -/
def State.drainCmd (s : State) (n final : Nat) (t : Int) : CmdEnd :=
  let st := s.stState n
  let phase := s.get R.SST_ST_REW_STATUS_PHASE n
  let stopped := decide (st = St.paused ∨ st = St.rewinding)
  let legal := decide (st = St.armed) || (decide (st = St.scanning) && decide (phase ≠ 5 ∧ phase ≠ 6)) ||
    (stopped && decide (1 ≤ phase ∧ phase ≤ 4))
  if legal = false ∨ (s.station n).axisDown = true then badState n
  else if (s.ringStation n = true ∧ final = 0) ∨ (final ≠ 0 ∧ final < (s.lst n).next) then .refused .range noAddr 0
  else if st = St.armed then .ok (s.idleEntry n) (drainResult 0)
  else if stopped then s.drainStopped n t
  else s.drainRun n final

def execStDrain (x : RingAt) (s : State) : Out :=
  .next (s.command x.ring Op.stDrain fun s => s.drainCmd (s.stParam x.ring) (s.param x.ring 24 6) x.time)

/-- ST_ABORT (R526, R530): the response waits for the flushes. -/
def State.abortCmd (s : State) (n : Nat) : CmdEnd :=
  if s.stBusy n = false then badState n
  else
    let qs := s.stationQueues n
    let s1 := s.abortStation n
    if s1.flushing qs then .later s1 { op := 0, tag := 0, station := n, data := qs } else .ok s1 []

def execStAbort (r : Fin 2) (s : State) : Out :=
  .next (s.command r Op.stAbort fun s => s.abortCmd (s.stParam r))

/-! ### ST_STAGE (R131, R532) -/

/-- A value of a staged change lies outside its stated range. -/
def Staged.badValue (g : Staged) : Bool :=
  (bit g.mask 5 && decide (bits (g.vals.getD 5 0) 4 2 = 3)) ||
    (bit g.mask 6 && decide (bits (g.vals.getD 6 0) 0 19 = 0 ∨ 400000 < bits (g.vals.getD 6 0) 0 19))

/-- The checks of a staged change before admission (R125, R418, R532, R540). -/
def State.stageCheck (s : State) (n : Nat) (g : Staged) : Option (Status × Nat) :=
  let v := g.apply (s.ltuVals n)
  pickCheck [
    checkAt (s.station n).staged.isSome .busy (atReg .SMC_ST_STATE n),
    checkAt (decide (g.h ≠ 0) && !s.hingeOk n g.h) .range noAddr,
    checkAt g.badValue .range (atReg .LTU_ST_MAXRATE n),
    checkAt (s.exposureBad n v) .range (atReg .LTU_ST_EXP_LEN n),
    checkAt (s.timerBad n (v.getD 6 0)) .range (atReg .LTU_ST_TIMER n),
    checkAt (bit g.mask 3 && s.onDelayBad n (v.getD 3 0)) .range (atReg .LTU_ST_GUARD n)]

/-- Drop the staged change (R532). -/
def State.cancelStage (s : State) (n : Nat) : CmdEnd :=
  if (s.station n).staged.isSome then .ok (s.dropStaged n) (hingeResult 0) else badState n

/-- ST_STAGE: a change whose MAXRATE does not rise is staged at once; one whose MAXRATE rises passes admission and waits for
VMAX (R45, R55). -/
def State.stage (s : State) (r n : Nat) (cancel : Bool) (g : Staged) (t2 : Option Nat) : CmdEnd :=
  if s.stBusy n = false ∨ s.stState n = St.draining then badState n
  else if cancel then s.cancelStage n
  else if g.mask = 0 then .ok s (hingeResult 0)
  else
    match s.stageCheck n g with
    | some (c, a) => .refused c a 0
    | none =>
      let rate := (g.apply (s.ltuVals n)).getD 6 0
      if s.get R.LTU_ST_MAXRATE_RATE n < rate then
        let a := s.admission s.counted (fun m => if m = n then rate else s.lineRate m) s.engLoads t2
        if a.1 = false then .reported a.2 .nofit (atReg .LTU_ST_MAXRATE n) a.2.nofitDetail
        else .later (a.2.raiseVmax (.stage r)) { op := 0, tag := 0, station := n, data := n :: g.h :: g.mask :: g.vals }
      else
        let a := s.stageChange n g.h g.mask g.vals
        .ok a.1 (hingeResult a.2)

/-- The change that the ST_STAGE at HEAD names: bits 0 to 6 of MASK, H and the seven values. -/
def State.stageParam (s : State) (r : Nat) : Staged :=
  { h := s.param r 24 6, mask := s.param r 18 2 % 128, vals := (List.range 7).map fun i => s.param r (32 + 4 * i) 4 }

/-- ST_STAGE (R532), the throttle level having become `t2` while it was checked (R50). -/
def execStStage (r : Fin 2) (t2 : Option (Fin 16)) (s : State) : Out :=
  .next (s.command r Op.stStage fun s =>
    s.stage r (s.stParam r) (bit (s.param r 17 1) 0) (s.stageParam r) (t2.map (·.val)))

/-- The result of ST_QUERY. -/
def State.queryResult (s : State) (n : Nat) : List Nat :=
  let x := s.station n
  let heads := x.heads.foldl (fun v p => v + 2 ^ p) 0
  let flags := s.get R.SMC_ST_STATE_HOLD n + 2 * s.get R.SCU_SEAL_ST_STATUS_FROZEN n + 4 * b2n x.staged.isSome
  [s.stState n, s.get R.SMC_ST_STATE_CLASS n, x.k, flags] ++ leBytes 12 heads ++ leBytes 8 (s.w0 n) ++
    leBytes 8 (s.get R.LTU_ST_WPI n) ++ leBytes 8 (s.get R.SCU_SEAL_ST_HZN_BAND n) ++ leBytes 8 ((x.staged.map (·.h)).getD 0)

/-- ST_QUERY (R525). -/
def execStQuery (r : Fin 2) (s : State) : Out :=
  .next (s.command r Op.stQuery fun s => .ok s (s.queryResult (s.stParam r)))

end Sys2Proof.Machine
end

