-- ==== Sys2Proof/Machine/Thm.lean ====
section
/-! DEFINITION. The commands of thermal management (spec/19). -/

open Sys2Proof

namespace Sys2Proof.Machine

/-- THM_SWEEP (R476 to R483): the 24 readings of a sweep in order; none for a diode out of the converter window or a conversion that
did not complete. -/
def execThmSweep (r : List (Option (BitVec 16))) (s : State) : Out :=
  if s.dev = Dev.off ∨ s.dev = Dev.reset then .next s
  else
    let s1 := s.judgeSensors r
    let k := s1.hottest
    let m := s1.getS R.THM_SNS_TEMP k
    let s2 := (s1.setS R.THM_STATUS_MAX m).set R.THM_STATUS_MAX_SNS k
    let s3 := s2.setThm { s2.thm with hot := s2.validAbove s2.tThr }
    .next (((s3.judgeThrottle m).judgeWarn m).judgeShutdown)

/-- THM_LEVEL_STEP (R481): a STEP since the entry to throttle, or since the exit. -/
def execThmLevelStep (s : State) : Out :=
  let t := s.throttle
  if s.on R.THM_STATUS_THROT then .next (if s.thm.hot then s.setLevel (min (t + 1) (s.get R.THM_CTRL_TMAX)) else s)
  else .next (s.setLevel (t - 1))

/-- The second-order curve of R486 at a reading. -/
def refTrim (t : Int) : Int :=
  (Config.trimCoeff 0 + Config.trimCoeff 1 * t + Config.trimCoeff 2 * t * t) / 2 ^ Config.trimShift

/-- THM_REF_TRIM (R486): every 1 ms. The reading of sensor 22 trims once it is valid; what stands for a failed sensor is no reading (log
151). -/
def execThmRefTrim (s : State) : Out :=
  if s.on R.THM_SNS_FAILED 22 then
    .next (if s.on R.THM_TRIM_HOLD then s else (s.set R.THM_TRIM_HOLD 1).raise evTrimHold)
  else
    let s1 := s.set R.THM_TRIM_HOLD 0
    .next (if s.on R.MFE_STATUS_REF_RDY ∧ s.on R.THM_SNS_VALID 22 then
        s1.setS R.THM_TRIM_CODE (refTrim (s.getS R.THM_SNS_TEMP 22)) else s1)

/-- THM_THRESHOLD_WRITE (R480): a write of THM_THR_WARN (0) or THM_THR_THROT (1). -/
def execThmThresholdWrite (w : World) (k : Fin 2) (v : BitVec 32) (s : State) : Out :=
  let l := toSigned 16 (bits v.toNat 0 16)
  let warn := s.getS R.THM_THR_WARN_LEVEL
  let bad := if k = 0 then decide (l < 640 ∨ 800 < l) else decide (l < 720 ∨ 840 < l ∨ l < warn)
  let check := if w = .secure then refuseIf bad .range else none
  .next (s.rowWrite w (if k = 0 then .THM_THR_WARN else .THM_THR_THROT) 0 0 v.toNat check (some R.THM_STATUS_LAST_STATUS) 0 id)

/-- RO_WINDOW_END (R487): the window of oscillator `i` ends after `count` of its cycles. -/
def execRoWindowEnd (i : Fin 8) (count : Nat) (s : State) : Out :=
  if bit s.thm.ro i.val then
    let s1 := (s.setSat R.THM_RO_COUNT_COUNT count i.val).set R.THM_RO_COUNT_NEW 1 i.val
    .next (if s.on R.THM_RO_CTRL_EN then s1 else s1.setThm { s1.thm with ro := s1.thm.ro - 2 ^ i.val })
  else .next s

end Sys2Proof.Machine
end

