-- ==== Sys2Proof/Machine/Ttc.lean ====
section
/-! DEFINITION. The commands of the motion controller (spec/18). Instants `t` are LTU units (R99). -/

open Sys2Proof

namespace Sys2Proof.Machine

/-- MOTION_CYCLE (R462 to R468): every 20 µs a cycle ends and the next begins: each profile advances and each enabled axis gets one frame. -/
def execMotionCycle (s : State) : Out :=
  .next ((((s.each axes4 State.cycleStart).cycleLin).each axes4 fun s a =>
    if s.on R.TTC_AX_CTRL_EN a then
      let s1 := (s.cycleAxis a).linkFrame a
      s1.setAxis a { s1.axis a with missed := min 4 ((s1.axis a).missed + 1) }
    else s).dueLin)

/-- DRIVER_STATUS_RX (R462, R463, R472, R474): a frame on MOTa_RX. A frame that is not good ends a run of good ones. -/
def execDriverStatusRx (a : Fin 4) (f : BitVec 80) (s : State) : Out :=
  let v := f.toNat
  if ¬ s.on R.TTC_AX_CTRL_EN a.val then .next s
  else if bits v 0 8 = 0x5A ∧ bits v 72 8 = crc8 v then .next (s.goodStatus a.val v)
  else .next ((s.addSat R.TTC_AX_DRV_BADFR 1 a.val).setAxis a.val { s.axis a.val with goodRun := 0 })

/-- MOTION_LINK_LOSS (R463, R474): four cycles without a good STATUS frame. -/
def execMotionLinkLoss (a : Fin 4) (s : State) : Out :=
  if s.on R.TTC_AX_CTRL_EN a.val ∧ 4 ≤ (s.axis a.val).missed ∧ s.axState a.val ≠ Ax.fault then .next (s.faultAxis a.val 3)
  else .next s

/-- The axis starts its link (R463). -/
def State.startLink (s : State) (a : Nat) : State :=
  let x := s.axis a
  (s.setAxis a { x with table := 0, goodRun := 0, missed := 0, cyc := 0, holding := false }).set R.TTC_AX_STATUS_STATE Ax.link a

/-- The axis is disabled: its profile is at rest where it stands. -/
def State.disableAxis (s : State) (a : Nat) : State :=
  let s0 := s.stopLin a
  let x := s0.axis a
  (s0.setAxis a { x with prof := { x.prof with v := 0, a := 0, goal := .rest }, back := none, settling := false, scaleOne := false,
                         stallRun := 0 }).set R.TTC_AX_STATUS_STATE Ax.disabled a

/-- AXIS_ENABLE (R463): a write of TTC_AX_CTRL. -/
def execAxisEnable (w : World) (a : Fin 4) (v : BitVec 32) (s : State) : Out :=
  let i := a.val
  let x := v.toNat
  let was := s.on R.TTC_AX_CTRL_EN i
  let en := decide (R.TTC_AX_CTRL_EN.of x = 1)
  let free := decide (s.axState i = Ax.disabled ∨ s.axState i = Ax.still) && !s.on R.TTC_AX_STATUS_PACED i
  let fs := [R.TTC_AX_CTRL_HOLD_MODE, R.TTC_AX_CTRL_FAULT_MODE, R.TTC_AX_CTRL_ADAPT, R.TTC_AX_CTRL_ENC, R.TTC_AX_CTRL_ENC_EN,
    R.TTC_AX_CTRL_SETTLE, R.TTC_AX_CTRL_TOL]
  let check := pickStatus [refuseIf (!free && s.changes fs i 0 x) .state, refuseIf (decide (R.TTC_AX_CTRL_TOL.of x = 0)) .range]
  .next (s.rowWrite w .TTC_AX_CTRL i 0 x check axLast i fun s =>
    if en ∧ ¬ was then s.startLink i else if was ∧ ¬ en then s.disableAxis i else s)

/-- AXIS_STOP (R467). -/
def execAxisStop (w : World) (a : Fin 4) (s : State) : Out := .next (s.axisCmd w a.val 0 [] fun s => s.axisStop a.val)

/-- AXIS_MOVE (R467): a move of a still axis to where it stands is a no-op. -/
def execAxisMove (w : World) (a : Fin 4) (s : State) : Out :=
  let i := a.val
  .next (s.axisCmd w i 1 [] fun s =>
    if s.axState i = Ax.still ∧ s.axTarget i = (s.axis i).prof.at then s else s.aim i (.pos (s.axTarget i)))

/-- AXIS_VEL (R467). -/
def execAxisVel (w : World) (a : Fin 4) (s : State) : Out :=
  let i := a.val
  let vel := s.getS R.TTC_AX_VEL_VEL i
  .next (s.axisCmd w i 2 [refuseIf (decide (s.get R.TTC_AX_VMAX_VMAX i < vel.natAbs)) .range] fun s => s.aim i (.vel vel))

/-- AXIS_ESTOP (R467). -/
def execAxisEstop (w : World) (a : Fin 4) (s : State) : Out := .next (s.axisCmd w a.val 3 [] fun s => s.aim a.val .estop)

/-- LINEAR_MOVE (R468): a write of TTC_LIN. -/
def execLinearMove (w : World) (v : BitVec 32) (s : State) : Out :=
  let x := v.toNat
  let go := decide (R.TTC_LIN_GO.of x = 1)
  let mask := R.TTC_LIN_MASK.of x
  let check := if go then pickStatus ((axes4.filter fun a => bit mask a).flatMap s.axisCheck) else none
  .next (s.rowWrite w .TTC_LIN 0 0 x check (some R.TTC_STATUS_LAST_STATUS) 0 fun s => if go then s.startLin mask else s)

/-- AXIS_SETTLE_DONE (R471): SETTLE ms after a back-up move, at instant `t`, the encoder position is checked. -/
def execAxisSettleDone (a : Fin 4) (t : Int) (s : State) : Out :=
  let i := a.val
  let x := s.axis i
  match x.settling, x.back with
  | true, some ct =>
    match s.pacer i with
    | some n =>
      let p := s.posOf n t
      let s1 := s.setAxis i { x with settling := false, back := none }
      if (ct - p).natAbs ≤ 65536 * s.get R.TTC_AX_CTRL_TOL i then
        let s2 := s1.set R.TTC_AX_STATUS_INPOS 1 i
        .next (if s.stState n = St.rewinding ∧ s.get R.SST_ST_REW_STATUS_PHASE n = 2 then s2.rewindArm n t else s2)
      else if x.tries = 0 then .next (s1.backUp i ct p 1)
      else .next (s1.faultAxis i 4)
    | none => .next (s.setAxis i { x with settling := false, back := none })
  | _, _ => .next s

/-- AXIS_HOLD_TIMEOUT (R473): HOLD_MS with zero velocity. -/
def execAxisHoldTimeout (a : Fin 4) (s : State) : Out :=
  let i := a.val
  .next (if s.axReady i ∧ s.axStandstill i = true then s.holdCoil i (s.get R.TTC_AX_CTRL_HOLD_MODE i) else s)

/-- AXIS_FAULT_CLEAR (R474): a write of TTC_AX_STATUS. While the link is not good the fault stands. -/
def execAxisFaultClear (w : World) (a : Fin 4) (v : BitVec 32) (s : State) : Out :=
  let i := a.val
  let isFault := decide (s.axState i = Ax.fault)
  let good := decide ((s.axis i).missed < 4)
  .next (s.rowWrite w .TTC_AX_STATUS i 0 v.toNat none axLast i fun s =>
    if R.TTC_AX_STATUS_FAULT.of v.toNat = 1 ∧ isFault then
      if good then (s.setAxis i { s.axis i with holding := false }).set R.TTC_AX_STATUS_STATE Ax.still i
      else s.set R.TTC_AX_STATUS_FAULT 1 i
    else s)

/-- MICROSTEP_TABLE_WRITE (R464): a write to entry `i`. -/
def execMicrostepTableWrite (w : World) (i : Fin 1024) (v : BitVec 32) (s : State) : Out :=
  let b := 0x3B00000 + 4 * i.val
  .next (s.windowWrite w b (refuseIf (axes4.any fun a => s.on R.TTC_AX_CTRL_EN a) .busy)
    (fun s => s.refuse w .busy (some R.TTC_STATUS_LAST_STATUS))
    (State.putLeaf · b (leBytes 4 v.toNat)))

end Sys2Proof.Machine
end

