-- ==== Sys2Proof/Machine/Dispatch.lean ====
section
/-! DEFINITION. The meaning of each command: one direct call per row. -/

namespace Sys2Proof.Machine

open Sys2Proof

def exec (i : Instr) (s : State) : Host.Outcome State Fault Refusal :=
  match i with
  | .registerWrite w a v => Sys2Proof.Machine.execRegisterWrite w a v s
  | .holdingRegisterLoRead w a t => Sys2Proof.Machine.execHoldingRegisterLoRead w a t s
  | .snapshotBandLoRead w n => Sys2Proof.Machine.execSnapshotBandLoRead w n s
  | .paceWindowEnd t => Sys2Proof.Machine.execPaceWindowEnd t s
  | .vfitHoldEnd => Sys2Proof.Machine.execVfitHoldEnd s
  | .vmaxReadbackTimeout => Sys2Proof.Machine.execVmaxReadbackTimeout s
  | .vfitCtrlWrite w v => Sys2Proof.Machine.execVfitCtrlWrite w v s
  | .vfitLimitsWrite w v => Sys2Proof.Machine.execVfitLimitsWrite w v s
  | .pixelPacketRx l k => Sys2Proof.Machine.execPixelPacketRx l k s
  | .lineTimeoutFill p => Sys2Proof.Machine.execLineTimeoutFill p s
  | .capPacketRx l k => Sys2Proof.Machine.execCapPacketRx l k s
  | .cfgRespRx l k => Sys2Proof.Machine.execCfgRespRx l k s
  | .headEventRx l k => Sys2Proof.Machine.execHeadEventRx l k s
  | .credStatusRx l held rxReturned spent initAck => Sys2Proof.Machine.execCredStatusRx l held rxReturned spent initAck s
  | .trainBlockRx l phase errors t => Sys2Proof.Machine.execTrainBlockRx l phase errors t s
  | .echoRx l tag turn trip => Sys2Proof.Machine.execEchoRx l tag turn trip s
  | .linkCtrlRetrainRx l => Sys2Proof.Machine.execLinkCtrlRetrainRx l s
  | .unknownCtrlBlockRx l kind => Sys2Proof.Machine.execUnknownCtrlBlockRx l kind s
  | .laneSyncHeaderErrors l lockLost => Sys2Proof.Machine.execLaneSyncHeaderErrors l lockLost s
  | .laneBlockLock l => Sys2Proof.Machine.execLaneBlockLock l s
  | .discoverTimeout p => Sys2Proof.Machine.execDiscoverTimeout p s
  | .discoverRetry p => Sys2Proof.Machine.execDiscoverRetry p s
  | .switchTimeout p => Sys2Proof.Machine.execSwitchTimeout p s
  | .prbsTestDone l errors => Sys2Proof.Machine.execPrbsTestDone l errors s
  | .retrainTimeout l => Sys2Proof.Machine.execRetrainTimeout l s
  | .creditBlockRefresh l => Sys2Proof.Machine.execCreditBlockRefresh l s
  | .delayMeasureTimer p => Sys2Proof.Machine.execDelayMeasureTimer p s
  | .hlfCtrlWrite w v => Sys2Proof.Machine.execHlfCtrlWrite w v s
  | .portEnableWrite w p v => Sys2Proof.Machine.execPortEnableWrite w p v s
  | .portRetrain w p v => Sys2Proof.Machine.execPortRetrain w p v s
  | .headCfgRequest w v => Sys2Proof.Machine.execHeadCfgRequest w v s
  | .headCfgTimeout => Sys2Proof.Machine.execHeadCfgTimeout s
  | .refclkLoss => Sys2Proof.Machine.execRefclkLoss s
  | .holdoverExit => Sys2Proof.Machine.execHoldoverExit s
  | .tcompTick => Sys2Proof.Machine.execTcompTick s
  | .tcompEnableWrite w v => Sys2Proof.Machine.execTcompEnableWrite w v s
  | .encoderEdge e a b t => Sys2Proof.Machine.execEncoderEdge e a b t s
  | .encoderIndexEdge e p => Sys2Proof.Machine.execEncoderIndexEdge e p s
  | .lineCommit n now => Sys2Proof.Machine.execLineCommit n now s
  | .lineTrigger n => Sys2Proof.Machine.execLineTrigger n s
  | .hostTriggerWrite w n v => Sys2Proof.Machine.execHostTriggerWrite w n v s
  | .matchArm w n v t => Sys2Proof.Machine.execMatchArm w n v t s
  | .lineCondition p busy => Sys2Proof.Machine.execLineCondition p busy s
  | .captureStart w v => Sys2Proof.Machine.execCaptureStart w v s
  | .captureDone => Sys2Proof.Machine.execCaptureDone s
  | .shadingSwapRequest w p v => Sys2Proof.Machine.execShadingSwapRequest w p v s
  | .leafFadeEnd p => Sys2Proof.Machine.execLeafFadeEnd p s
  | .leafWindowWrite w a v => Sys2Proof.Machine.execLeafWindowWrite w a v s
  | .leafSlotWrite w l k v => Sys2Proof.Machine.execLeafSlotWrite w l k v s
  | .shdTrkCtrlWrite w p v => Sys2Proof.Machine.execShdTrkCtrlWrite w p v s
  | .alnMeasStart w v => Sys2Proof.Machine.execAlnMeasStart w v s
  | .alnMeasDone => Sys2Proof.Machine.execAlnMeasDone s
  | .dvtMeasStart w v => Sys2Proof.Machine.execDvtMeasStart w v s
  | .dvtMeasDone => Sys2Proof.Machine.execDvtMeasDone s
  | .dvtTimeout n => Sys2Proof.Machine.execDvtTimeout n s
  | .decSwapRequest w q v => Sys2Proof.Machine.execDecSwapRequest w q v s
  | .firSlotWrite w a v => Sys2Proof.Machine.execFirSlotWrite w a v s
  | .productLineRead q e => Sys2Proof.Machine.execProductLineRead q e s
  | .lineStore n x => Sys2Proof.Machine.execLineStore n x s
  | .storeReadQueueAdvance q e => Sys2Proof.Machine.execStoreReadQueueAdvance q e s
  | .rewindBackupStart n t => Sys2Proof.Machine.execRewindBackupStart n t s
  | .rewindForwardRun x => Sys2Proof.Machine.execRewindForwardRun x s
  | .rewindScanEntry n t => Sys2Proof.Machine.execRewindScanEntry n t s
  | .rewindTimeout n => Sys2Proof.Machine.execRewindTimeout n s
  | .encoderQuietTimeout n t => Sys2Proof.Machine.execEncoderQuietTimeout n t s
  | .hostReaderEnable w n v => Sys2Proof.Machine.execHostReaderEnable w n v s
  | .hostRewindRead w n v => Sys2Proof.Machine.execHostRewindRead w n v s
  | .hostRpWrite w n hi v => Sys2Proof.Machine.execHostRpWrite w n hi v s
  | .hostMarkSet w n m v => Sys2Proof.Machine.execHostMarkSet w n m v s
  | .hostMarkClear w n m v => Sys2Proof.Machine.execHostMarkClear w n m v s
  | .sstStoreSplitWrite w v => Sys2Proof.Machine.execSstStoreSplitWrite w v s
  | .queueWrite q d fin => Sys2Proof.Machine.execQueueWrite q d fin s
  | .queueRead q second ecc => Sys2Proof.Machine.execQueueRead q second ecc s
  | .queueIdleTimeout q => Sys2Proof.Machine.execQueueIdleTimeout q s
  | .queueStallTimeout q wr => Sys2Proof.Machine.execQueueStallTimeout q wr s
  | .slabTransitArrive => Sys2Proof.Machine.execSlabTransitArrive s
  | .slabAgeFail => Sys2Proof.Machine.execSlabAgeFail s
  | .queueEnable w q v => Sys2Proof.Machine.execQueueEnable w q v s
  | .queueDisable w q v => Sys2Proof.Machine.execQueueDisable w q v s
  | .queueFlush w q => Sys2Proof.Machine.execQueueFlush w q s
  | .queueAutoDisable q => Sys2Proof.Machine.execQueueAutoDisable q s
  | .cellFire e c err busy => Sys2Proof.Machine.execCellFire e c err busy s
  | .handshakeTimeoutFault e c => Sys2Proof.Machine.execHandshakeTimeoutFault e c s
  | .seqContinue w e => Sys2Proof.Machine.execSeqContinue w e s
  | .localStoreAccess w e x => Sys2Proof.Machine.execLocalStoreAccess w e x s
  | .imageLoad w x => Sys2Proof.Machine.execImageLoad w x s
  | .imageChecksDone o t2 => Sys2Proof.Machine.execImageChecksDone o t2 s
  | .reloadCopyDone => Sys2Proof.Machine.execReloadCopyDone s
  | .reloadCancel w v => Sys2Proof.Machine.execReloadCancel w v s
  | .sealAttempt n t => Sys2Proof.Machine.execSealAttempt n t s
  | .sealThaw w n v t => Sys2Proof.Machine.execSealThaw w n v t s
  | .freezeTimeout n => Sys2Proof.Machine.execFreezeTimeout n s
  | .kruPortTrainDone pt lock ver tr => Sys2Proof.Machine.execKruPortTrainDone pt lock ver tr s
  | .kruPortRetry pt => Sys2Proof.Machine.execKruPortRetry pt s
  | .authFrameRx l k m => Sys2Proof.Machine.execAuthFrameRx l k m s
  | .discoverFrameRx l k foreign => Sys2Proof.Machine.execDiscoverFrameRx l k foreign s
  | .rosterFrameRx l k => Sys2Proof.Machine.execRosterFrameRx l k s
  | .formedFrameRx l k => Sys2Proof.Machine.execFormedFrameRx l k s
  | .timeSendTimer t => Sys2Proof.Machine.execTimeSendTimer t s
  | .timeFrameRx l k t resid => Sys2Proof.Machine.execTimeFrameRx l k t resid s
  | .alignReqRx l k => Sys2Proof.Machine.execAlignReqRx l k s
  | .alignAckRx l k t => Sys2Proof.Machine.execAlignAckRx l k t s
  | .alignLatch n => Sys2Proof.Machine.execAlignLatch n s
  | .alignSetRx l k t => Sys2Proof.Machine.execAlignSetRx l k t s
  | .alignAckTimeout n => Sys2Proof.Machine.execAlignAckTimeout n s
  | .alignSetTimeout n => Sys2Proof.Machine.execAlignSetTimeout n s
  | .tokenFrameRx l k t => Sys2Proof.Machine.execTokenFrameRx l k t s
  | .tokenTimeout n => Sys2Proof.Machine.execTokenTimeout n s
  | .hingeFrameRx l k => Sys2Proof.Machine.execHingeFrameRx l k s
  | .dovetailFrameRx l k => Sys2Proof.Machine.execDovetailFrameRx l k s
  | .kelimCredStatusRx l held rxReturned spent initAck => Sys2Proof.Machine.execKelimCredStatusRx l held rxReturned spent initAck s
  | .kruPortDead pt => Sys2Proof.Machine.execKruPortDead pt s
  | .foldFrameRx l k => Sys2Proof.Machine.execFoldFrameRx l k s
  | .foldFormedTimer t => Sys2Proof.Machine.execFoldFormedTimer t s
  | .ringReformTimeout => Sys2Proof.Machine.execRingReformTimeout s
  | .kruCfgWrite w v => Sys2Proof.Machine.execKruCfgWrite w v s
  | .streamEnable w c v => Sys2Proof.Machine.execStreamEnable w c v s
  | .streamDisable w c v => Sys2Proof.Machine.execStreamDisable w c v s
  | .hqEntryEnable w j v => Sys2Proof.Machine.execHqEntryEnable w j v s
  | .dmaTailWrite w c v => Sys2Proof.Machine.execDmaTailWrite w c v s
  | .releaseChunk c d => Sys2Proof.Machine.execReleaseChunk c d s
  | .descriptorReadError c timeout => Sys2Proof.Machine.execDescriptorReadError c timeout s
  | .datagramSend c t => Sys2Proof.Machine.execDatagramSend c t s
  | .pauseFrameRx pn quanta => Sys2Proof.Machine.execPauseFrameRx pn quanta s
  | .ethFrameDiscard pn => Sys2Proof.Machine.execEthFrameDiscard pn s
  | .ethLinkChange pn up fecLock corr uncorr => Sys2Proof.Machine.execEthLinkChange pn up fecLock corr uncorr s
  | .ethPortConfigWrite w pn k v => Sys2Proof.Machine.execEthPortConfigWrite w pn k v s
  | .ptpMessageRx pn dest domain m => Sys2Proof.Machine.execPtpMessageRx pn dest domain m s
  | .ptpSyncTimeout => Sys2Proof.Machine.execPtpSyncTimeout s
  | .pf0Flr => Sys2Proof.Machine.execPf0Flr s
  | .pf0D3hotEntry => Sys2Proof.Machine.execPf0D3hotEntry s
  | .pcieLinkLoss => Sys2Proof.Machine.execPcieLinkLoss s
  | .bar0BadAccess w a => Sys2Proof.Machine.execBar0BadAccess w a s
  | .bar2Read a x => Sys2Proof.Machine.execBar2Read a x s
  | .bar2Write a => Sys2Proof.Machine.execBar2Write a s
  | .msixMessage f v t => Sys2Proof.Machine.execMsixMessage f v t s
  | .msixUnmask f v x => Sys2Proof.Machine.execMsixUnmask f v x s
  | .spdmRequest tr v r busy => Sys2Proof.Machine.execSpdmRequest tr v r busy s
  | .stringObservation c cur mv => Sys2Proof.Machine.execStringObservation c cur mv s
  | .stringOvercurrent c => Sys2Proof.Machine.execStringOvercurrent c s
  | .diagPulse g => Sys2Proof.Machine.execDiagPulse g s
  | .patternWindowWrite w j o v => Sys2Proof.Machine.execPatternWindowWrite w j o v s
  | .patternSwapRequest w g v => Sys2Proof.Machine.execPatternSwapRequest w g v s
  | .forceOffWrite w g v => Sys2Proof.Machine.execForceOffWrite w g v s
  | .ilcTcompEnable w g v => Sys2Proof.Machine.execIlcTcompEnable w g v s
  | .stringFaultClear w c v => Sys2Proof.Machine.execStringFaultClear w c v s
  | .mfeRefEnable w v => Sys2Proof.Machine.execMfeRefEnable w v s
  | .mfeRefReady => Sys2Proof.Machine.execMfeRefReady s
  | .mfeSeqEnable w v => Sys2Proof.Machine.execMfeSeqEnable w v s
  | .mfeFrameStart => Sys2Proof.Machine.execMfeFrameStart s
  | .mfeEntrySample ab bc => Sys2Proof.Machine.execMfeEntrySample ab bc s
  | .mfeUrgentRequest w v => Sys2Proof.Machine.execMfeUrgentRequest w v s
  | .mfeBackgroundCal ground ref => Sys2Proof.Machine.execMfeBackgroundCal ground ref s
  | .mfeChainSync w v => Sys2Proof.Machine.execMfeChainSync w v s
  | .mfeOpenClear w e v => Sys2Proof.Machine.execMfeOpenClear w e v s
  | .mfeExcWrite w e v => Sys2Proof.Machine.execMfeExcWrite w e v s
  | .mfeAccSumLoRead w e => Sys2Proof.Machine.execMfeAccSumLoRead w e s
  | .mfeResRead w e => Sys2Proof.Machine.execMfeResRead w e s
  | .mfeLeafSwapRequest w c v => Sys2Proof.Machine.execMfeLeafSwapRequest w c v s
  | .mfeLeafWindowWrite w a v => Sys2Proof.Machine.execMfeLeafWindowWrite w a v s
  | .mfeOutEnable w o v => Sys2Proof.Machine.execMfeOutEnable w o v s
  | .mfeOutPeriodEnd o => Sys2Proof.Machine.execMfeOutPeriodEnd o s
  | .motionCycle => Sys2Proof.Machine.execMotionCycle s
  | .driverStatusRx a f => Sys2Proof.Machine.execDriverStatusRx a f s
  | .motionLinkLoss a => Sys2Proof.Machine.execMotionLinkLoss a s
  | .axisEnable w a v => Sys2Proof.Machine.execAxisEnable w a v s
  | .axisStop w a => Sys2Proof.Machine.execAxisStop w a s
  | .axisMove w a => Sys2Proof.Machine.execAxisMove w a s
  | .axisVel w a => Sys2Proof.Machine.execAxisVel w a s
  | .axisEstop w a => Sys2Proof.Machine.execAxisEstop w a s
  | .linearMove w v => Sys2Proof.Machine.execLinearMove w v s
  | .axisSettleDone a t => Sys2Proof.Machine.execAxisSettleDone a t s
  | .axisHoldTimeout a => Sys2Proof.Machine.execAxisHoldTimeout a s
  | .axisFaultClear w a v => Sys2Proof.Machine.execAxisFaultClear w a v s
  | .microstepTableWrite w k v => Sys2Proof.Machine.execMicrostepTableWrite w k v s
  | .thmSweep r => Sys2Proof.Machine.execThmSweep r s
  | .thmLevelStep => Sys2Proof.Machine.execThmLevelStep s
  | .thmRefTrim => Sys2Proof.Machine.execThmRefTrim s
  | .thmThresholdWrite w k v => Sys2Proof.Machine.execThmThresholdWrite w k v s
  | .roWindowEnd k count => Sys2Proof.Machine.execRoWindowEnd k count s
  | .pmbusReadbackPoll mv => Sys2Proof.Machine.execPmbusReadbackPoll mv s
  | .pmbusTransactionFail => Sys2Proof.Machine.execPmbusTransactionFail s
  | .pmbusAlert word => Sys2Proof.Machine.execPmbusAlert word s
  | .headMeasurementRead p ended => Sys2Proof.Machine.execHeadMeasurementRead p ended s
  | .mailboxTailWrite w r v => Sys2Proof.Machine.execMailboxTailWrite w r v s
  | .mailboxRspHeadWrite w r v => Sys2Proof.Machine.execMailboxRspHeadWrite w r v s
  | .mailboxCommandMalformed r => Sys2Proof.Machine.execMailboxCommandMalformed r s
  | .devInfo r => Sys2Proof.Machine.execDevInfo r s
  | .faultClear r answers => Sys2Proof.Machine.execFaultClear r answers s
  | .devReset r => Sys2Proof.Machine.execDevReset r s
  | .devResetEntry => Sys2Proof.Machine.execDevResetEntry s
  | .stDefine r => Sys2Proof.Machine.execStDefine r s
  | .stArm r t t2 west => Sys2Proof.Machine.execStArm r t t2 west s
  | .stStart x => Sys2Proof.Machine.execStStart x s
  | .stPause r t => Sys2Proof.Machine.execStPause r t s
  | .stResume r => Sys2Proof.Machine.execStResume r s
  | .stDrain x => Sys2Proof.Machine.execStDrain x s
  | .stAbort r => Sys2Proof.Machine.execStAbort r s
  | .stStage r t2 => Sys2Proof.Machine.execStStage r t2 s
  | .stQuery r => Sys2Proof.Machine.execStQuery r s
  | .worldSet r => Sys2Proof.Machine.execWorldSet r s
  | .ownerEnroll r key => Sys2Proof.Machine.execOwnerEnroll r key s
  | .ownerEnrollDone dig kekOk => Sys2Proof.Machine.execOwnerEnrollDone dig kekOk s
  | .svnCommit r => Sys2Proof.Machine.execSvnCommit r s
  | .flashWrite r => Sys2Proof.Machine.execFlashWrite r s
  | .flashWriteDone data same => Sys2Proof.Machine.execFlashWriteDone data same s
  | .workbenchTimeout => Sys2Proof.Machine.execWorkbenchTimeout s
  | .porAssert => Sys2Proof.Machine.execPorAssert s
  | .resetExit => Sys2Proof.Machine.execResetExit s
  | .perstAssert => Sys2Proof.Machine.execPerstAssert s
  | .cabinetVerifyDone a b policy mode flash ms => Sys2Proof.Machine.execCabinetVerifyDone a b policy mode flash ms s
  | .bootVcoreTimeout => Sys2Proof.Machine.execBootVcoreTimeout s
  | .hbmTrainingDone ok ms => Sys2Proof.Machine.execHbmTrainingDone ok ms s
  | .workbenchCheckDone o ms => Sys2Proof.Machine.execWorkbenchCheckDone o ms s
  | .vcoreRemoved => Sys2Proof.Machine.execVcoreRemoved s
  | .serdesRefclkLoss q => Sys2Proof.Machine.execSerdesRefclkLoss q s
  | .padSlewWrite w v => Sys2Proof.Machine.execPadSlewWrite w v s
  | .sealLatencyExceeded n t => Sys2Proof.Machine.execSealLatencyExceeded n t s
  | .managementSramUncorrectable => Sys2Proof.Machine.execManagementSramUncorrectable s
  | .timebaseLock => Sys2Proof.Machine.execTimebaseLock s
  | .perstRelease => Sys2Proof.Machine.execPerstRelease s
  | .pcieLinkUp speed width => Sys2Proof.Machine.execPcieLinkUp speed width s
  | .pauseTimeExpiry pn => Sys2Proof.Machine.execPauseTimeExpiry pn s

end Sys2Proof.Machine
end

