-- ==== Sys2Proof/Machine/Step.lean ====
section
/-! DEFINITION. One step of the Citum: the command at the front of the queue. -/

namespace Sys2Proof.Machine

/-- Take the command at the front of the queue; on an empty queue the device idles (log 1). -/
def step (s : State) : Host.Outcome State Fault Refusal :=
  match s.pending with
  | [] => .next s
  | c :: rest => exec c { s with pending := rest }

/-- The state with the command that a word spells at the front of its queue. -/
def State.withFetchWord (s : State) (nbits w : Nat) : State :=
  match Sys2Proof.decodeTableWord nbits w with
  | some c => { s with pending := c :: s.pending }
  | none => s

end Sys2Proof.Machine
end

