-- ==== Sys2Proof/Safety.lean ====
section
/-! DEFINITION. What claims about runs speak of: the canonical form of what the device stores, and a step that goes on. -/

namespace Sys2Proof.Machine

/-- The three addressed memories of the device have the canonical form (R184, R518, R574). -/
def State.memoryOk (s : State) : Prop := s.hbm.wf = true ∧ s.leaf.wf = true ∧ s.mbox.wf = true

/-- The register store lists every field at most once, in the order of its address. -/
def State.registersOk (s : State) : Prop := SMap.sorted s.regs = true

/-- A step goes on: it answers a next state. -/
def State.goesOn (s : State) : Prop := ∃ t, step s = .next t

end Sys2Proof.Machine
end

