-- ==== Sys2Proof/WellFormed.lean ====
section
/-! DEFINITION. Which commands the outside can send: what the type of an operand does not say by itself. The machine is total and
answers the others too; no rule speaks of them. -/

namespace Sys2Proof

/-- Every number of a byte string is a byte (R10). -/
def bytesOk (bs : List Nat) : Bool := bs.all fun b => decide (b < 256)

/-- A packet holds at most 128 data blocks (R65). -/
def Packet.wf (k : Packet) : Bool := decide (k.words.length ≤ 128)

/-- A Kelim frame holds at most 1,024 data blocks (R346). -/
def KFrame.wf (k : KFrame) : Bool := decide (k.words.length ≤ 1024)

/-- An image observation holds bytes, at most 256 MiB of them (R300, SCU_IMG_LEN). -/
def ImageObs.wf (o : ImageObs) : Bool :=
  bytesOk o.bytes && decide (o.bytes.length ≤ 268435456)

/-- A firmware observation holds bytes: a manifest of at most 64 + 256 + 200 bytes, and a body (R500). -/
def FwObs.wf (o : FwObs) : Bool :=
  bytesOk o.bytes && decide (o.bytes.length ≤ 520) && bytesOk o.body && decide (o.body.length ≤ 33553408)

/-- A nonce of an SPDM request is 32 bytes; a request for measurements without a signature carries none (R508). -/
def SpdmReq.wf : SpdmReq → Bool
  | .challenge _ _ n => decide (n.length = 32)
  | .getMeasurements _ n => decide (n.length = 32 ∨ n = [])
  | .getVersion | .getCapabilities | .negotiateAlgorithms _ | .getDigests | .getCertificate _ _ _ | .other _ => true

/-- A digest an answer carries is 48 bytes (R352). -/
def SpdmMsg.wf : SpdmMsg → Bool
  | .request _ r _ => r.wf
  | .response _ d _ => decide (d.length = 48)

/-- A damaged unit is a 64-byte unit of the scan store (R209). -/
def HbmErr.wf : HbmErr → Bool
  | .none | .corrected => true
  | .uncorrectable us => us.all fun u => decide (u < 2 ^ 30)

/-- The operands of a command are ones the outside can show. -/
def Instr.wf : Instr → Bool
  | .pixelPacketRx _ k | .capPacketRx _ k | .cfgRespRx _ k | .headEventRx _ k => k.wf
  | .authFrameRx _ k m => k.wf && m.wf
  | .discoverFrameRx _ k _ | .rosterFrameRx _ k | .formedFrameRx _ k | .timeFrameRx _ k _ _ | .alignReqRx _ k | .alignAckRx _ k _
  | .alignSetRx _ k _ | .tokenFrameRx _ k _ | .hingeFrameRx _ k | .dovetailFrameRx _ k | .foldFrameRx _ k => k.wf
  | .productLineRead _ e | .storeReadQueueAdvance _ e => e.wf
  | .lineStore _ x => x.seam.all fun e => e.2.wf
  | .imageChecksDone o _ => o.wf
  | .kruPortTrainDone _ _ _ tr => decide (tr.length = 16)
  | .spdmRequest _ _ r _ => r.wf
  | .bar0BadAccess w a => decide (w ≠ .workbench) && decide (a < 0x4000000)
  | .bar2Read a x => decide (a + x.bytes ≤ 2 ^ 36) && x.err.wf
  | .bar2Write a => decide (a < 2 ^ 36)
  | .mfeEntrySample ab bc => decide (ab.length ≤ 128) && decide (bc.length ≤ 128)
  | .thmSweep r => decide (r.length = 24)
  | .ownerEnrollDone d _ => decide (d.length = 48)
  | .cabinetVerifyDone a b p _ _ _ => a.wf && b.wf && (match p with
    | some x => x.wf
    | none => true)
  | .workbenchCheckDone o _ => o.wf
  | _ => true

end Sys2Proof
end

