-- ==== Sys2Proof/Certificates/Slice0/Obligations.lean ====
section
/-! DEFINITION. The statements about the Citum, for the provers: rules of the whole machine first, then what each command does, family
by family. A statement that names a next state by an equation says everything of it: what the equation does not change keeps its
value, every register field and every byte of memory included. -/

open Sys2Proof Sys2Proof.Machine

namespace Sys2Proof.Stated

/-! ### Terms of the statements -/

/-- A host write of world `w` to instance `i`, `j` of a register reaches the register: the device is out of OFF and RESET (log 13),
the boot does not hold the block (R549), the worlds agree (R497), and from the non-secure world the register holds no RWS field
(R576). -/
def Reaches (s : State) (w : World) (id : RegId) (i j : Nat) : Prop :=
  ∃ r, id.desc? = some r ∧ s.held = false ∧ s.bootHeld (r.addr i j) = false ∧
    (w = .secure ∨ (s.addrWorld (r.addr i j) = .nonSecure ∧ r.hasRws = false))

/-- A host write of world `w` to an address of a window reaches it (R497, R549). -/
def ReachesAt (s : State) (w : World) (a : Nat) : Prop :=
  s.held = false ∧ s.bootHeld a = false ∧ (w = .secure ∨ s.addrWorld a = .nonSecure)

/-- The writable fields of a register take the bits of a word, each by its access type (R11). -/
def wrote (s : State) (w : World) (id : RegId) (i j v : Nat) : State :=
  match id.desc? with
  | some r => s.writeAll w r i j v
  | none => s

/-- Every register field but those at the bit addresses listed reads as before. -/
def FieldsBut (ks : List Nat) (s t : State) : Prop := ∀ (f : Fld) (i j : Nat), f.key i j ∉ ks → t.get f i j = s.get f i j

/-- The bit addresses that raising event source `n` may change: the pending word of its group and the group summaries (R392). -/
def eventKeys (n : Nat) : List Nat :=
  [R.HIF_EVT_PEND_PEND.key (n / 32) 0, R.HIF_EVT_SUM_LO_GROUPS.key 0 0, R.HIF_EVT_SUM_HI_GROUPS.key 0 0]

/-- The three addressed memories are unchanged. -/
def SameMemory (s t : State) : Prop := t.hbm = s.hbm ∧ t.leaf = s.leaf ∧ t.mbox = s.mbox

/-- The command at HEAD of mailbox ring `r` has opcode `op`, is whole and well formed, may start now, has room for its response and
passes the checks every command shares (R519 to R523, R526, R540). -/
def AtHead (s : State) (r op : Nat) : Prop :=
  s.mbReady r = true ∧ s.opAt r (s.mbHead r) = op ∧ opExt op = some (s.extAt r (s.mbHead r)) ∧
    s.extAt r (s.mbHead r) < s.mbHeld r ∧ s.mbRoom r = true ∧ s.commonCheck r op = none

/-- The command at HEAD of ring `r`, carried out with end state `t`, is taken and answered OK with a result (R519, R521). -/
def answered (s t : State) (r op : Nat) (res : List Nat) : State :=
  (t.takeCommand r).respond r op (ofLe (s.cmdBytes r (s.mbHead r) 4 4)) .ok res

/-- The command at HEAD of ring `r` is taken and refused with a status, an address and a detail (R521, R537, R538). -/
def turnedAway (s : State) (r op : Nat) (c : Status) (addr detail : Nat) : State :=
  (s.takeCommand r).respondRefused r op (ofLe (s.cmdBytes r (s.mbHead r) 4 4)) c addr detail

/-- The command at HEAD of ring `r` is taken and runs on with what its end needs (R522). -/
def runsOn (s t : State) (r op : Nat) (x : Running) : State :=
  let u := t.takeCommand r
  u.setRing r { u.ring r with run := some { x with op := op, tag := ofLe (s.cmdBytes r (s.mbHead r) 4 4) } }

/-- A frame of type `kind` and a right length is accepted on lane `l`, after the control blocks that came first, and not passed on West;
`u` is the state after acknowledge and credits (R79, R346, R349, R351). -/
def FrameIn (s : State) (l : Nat) (k : KFrame) (kind : Nat) (lenOk : Bool) (u : State) : Prop :=
  let s' := s.ahead l k.ctl
  s'.laneOpen l (if kind = FType.auth then KPort.auth else KPort.up) = true ∧ k.ftype = kind ∧ (s'.kelimTake l k).1 = true ∧
    lenOk = true ∧ (k.head.ret = false ∨ (s'.kelimTake l k).2.kUp 1 = false) ∧ u = (s'.kelimTake l k).2

/-- The frame is one this member takes: a broadcast of another member, which also goes on East with its data `fwd`, or one addressed to
it (R351); `v` is the state in which it takes it. -/
def Delivered (u : State) (k : KFrame) (kind : Nat) (fwd : List Nat) (v : State) : Prop :=
  (k.head.dst = broadcast ∧ ¬ (k.head.src = u.kId ∧ u.kId ≠ 0) ∧ v = u.ringOut kind { k.head with ret := false } fwd) ∨
  (k.head.dst ≠ broadcast ∧ k.head.dst = u.kId ∧ u.kId ≠ 0 ∧ v = u)

/-- The three registers of a leaf slot. -/
def leafReg (k : Fin 3) : RegId := if k = 0 then .PCP_LEAF_BASE else if k = 1 then .PCP_LEAF_GEOM else .PCP_LEAF_DEFECTS

/-- The address a host write row writes to, and its world: the rows whose write is of one register or one word of a window. A register
write to an offset that no chapter assigns has no target. -/
def target : Instr → Option (World × Nat)
  | .vfitCtrlWrite w _ => some (w, RegId.addr .SMC_VFIT_CTRL)
  | .vfitLimitsWrite w _ => some (w, RegId.addr .SMC_VFIT_LIMITS)
  | .hlfCtrlWrite w _ => some (w, RegId.addr .HLF_CTRL)
  | .portEnableWrite w p _ => some (w, RegId.addr .HLF_PORT_CTRL p)
  | .portRetrain w p _ => some (w, RegId.addr .HLF_PORT_CTRL p)
  | .headCfgRequest w _ => some (w, RegId.addr .HLF_CFG_CMD)
  | .tcompEnableWrite w _ => some (w, RegId.addr .LTU_TCOMP_CTRL)
  | .hostTriggerWrite w n _ => some (w, RegId.addr .LTU_ST_HOSTTRIG n)
  | .matchArm w n _ _ => some (w, RegId.addr .LTU_ST_MATCH_CFG n)
  | .captureStart w _ => some (w, RegId.addr .PCP_CAP_CTRL)
  | .shadingSwapRequest w p _ => some (w, RegId.addr .PCP_SHD_SWAP p)
  | .leafWindowWrite w a _ => some (w, 0x2800000 + 4 * a)
  | .leafSlotWrite w l k _ => some (w, RegId.addr (leafReg k) l)
  | .shdTrkCtrlWrite w p _ => some (w, RegId.addr .PCP_SHD_TRK_CTRL p)
  | .alnMeasStart w _ => some (w, RegId.addr .PCP_ALN_MEAS_CTRL)
  | .dvtMeasStart w _ => some (w, RegId.addr .PCP_DVT_MEAS_CTRL)
  | .decSwapRequest w q _ => some (w, RegId.addr .PCP_DEC_SWAP q)
  | .firSlotWrite w a _ => some (w, 0x3800000 + 4 * a)
  | .hostReaderEnable w n _ => some (w, RegId.addr .SST_ST_HOST_CTRL n)
  | .hostRewindRead w n _ => some (w, RegId.addr .SST_ST_HOST_CTRL n)
  | .hostRpWrite w n hi _ => some (w, RegId.addr (if hi then .SST_ST_HOST_RP_HI else .SST_ST_HOST_RP_LO) n)
  | .hostMarkSet w n m _ => some (w, RegId.addr .SST_ST_MARK_HI n m)
  | .hostMarkClear w n m _ => some (w, RegId.addr .SST_ST_MARK_HI n m)
  | .sstStoreSplitWrite w _ => some (w, RegId.addr .SST_CFG)
  | .queueEnable w q _ => some (w, RegId.addr .QMX_Q_CFG q)
  | .queueDisable w q _ => some (w, RegId.addr .QMX_Q_CFG q)
  | .queueFlush w q => some (w, RegId.addr .QMX_Q_CMD q)
  | .seqContinue w e => some (w, RegId.addr .IEA_ENG_CMD e)
  | .localStoreAccess w e ⟨some _, _⟩ => some (w, RegId.addr .IEA_ENG_LS_DATA e)
  | .imageLoad w _ => some (w, RegId.addr .SCU_IMG_CTRL)
  | .reloadCancel w _ => some (w, RegId.addr .SCU_RLD_CTRL)
  | .sealThaw w n _ _ => some (w, RegId.addr .SCU_SEAL_ST_CTRL n)
  | .kruCfgWrite w _ => some (w, RegId.addr .KRU_CFG)
  | .hqEntryEnable w j _ => some (w, RegId.addr .HIF_HQ j)
  | .streamEnable w c _ => some (w, RegId.addr .HIF_ST_CTRL c)
  | .streamDisable w c _ => some (w, RegId.addr .HIF_ST_CTRL c)
  | .dmaTailWrite w c _ => some (w, RegId.addr .HIF_ST_TAIL c)
  | .ethPortConfigWrite w p k _ => some (w, RegId.addr (ethReg k) p)
  | .patternWindowWrite w j o _ => some (w, 0x3900000 + 0xC000 * j + 4 * o)
  | .patternSwapRequest w g _ => some (w, RegId.addr .ILC_GRP_BANK g)
  | .forceOffWrite w g _ => some (w, RegId.addr .ILC_GRP_CTRL g)
  | .ilcTcompEnable w g _ => some (w, RegId.addr .ILC_GRP_TCOMP g)
  | .stringFaultClear w c _ => some (w, RegId.addr .ILC_STR_STATUS c)
  | .mfeRefEnable w _ => some (w, RegId.addr .MFE_CTRL)
  | .mfeSeqEnable w _ => some (w, RegId.addr .MFE_CTRL)
  | .mfeUrgentRequest w _ => some (w, RegId.addr .MFE_URGENT)
  | .mfeChainSync w _ => some (w, RegId.addr .MFE_SYNC)
  | .mfeOpenClear w e _ => some (w, RegId.addr .MFE_ENT_STATUS e)
  | .mfeExcWrite w e _ => some (w, RegId.addr .MFE_ENT_EXC e)
  | .mfeLeafSwapRequest w c _ => some (w, RegId.addr .MFE_CH_SWAP c)
  | .mfeLeafWindowWrite w a _ => some (w, 0x3A00000 + 4 * a)
  | .mfeOutEnable w o _ => some (w, RegId.addr .MFE_OUT_CFG o)
  | .axisEnable w a _ => some (w, RegId.addr .TTC_AX_CTRL a)
  | .axisStop w a => some (w, RegId.addr .TTC_AX_CMD a)
  | .axisMove w a => some (w, RegId.addr .TTC_AX_CMD a)
  | .axisVel w a => some (w, RegId.addr .TTC_AX_CMD a)
  | .axisEstop w a => some (w, RegId.addr .TTC_AX_CMD a)
  | .linearMove w _ => some (w, RegId.addr .TTC_LIN)
  | .axisFaultClear w a _ => some (w, RegId.addr .TTC_AX_STATUS a)
  | .microstepTableWrite w k _ => some (w, 0x3B00000 + 4 * k)
  | .thmThresholdWrite w k _ => some (w, RegId.addr (if k = 0 then .THM_THR_WARN else .THM_THR_THROT))
  | .mailboxTailWrite w r _ => some (w, RegId.addr .SMC_MB_CMD_TAIL r)
  | .mailboxRspHeadWrite w r _ => some (w, RegId.addr .SMC_MB_RSP_HEAD r)
  | .padSlewWrite w _ => some (w, RegId.addr .SMC_PAD_SLEW)
  | .registerWrite w a _ =>
    if (0x10000 ≤ 4 * a.val ∧ 4 * a.val < 0x18000) ∨ (findReg (4 * a)).isSome = true then some (w, 4 * a) else none
  | _ => none

/-- The host write rows outside the SMC block whose register holds RWS fields (R576). -/
def hasSecureFields : Instr → Bool
  | .thmThresholdWrite _ _ _ => true
  | .registerWrite _ a _ => (findReg (4 * a)).any fun x => x.1.hasRws
  | _ => false

/-- The commands that may write bytes of the HBM: storing a line, and marking a damaged slot while reading it, which a BAR2 read
may do too (R186, R209); a reset
empties the model's record of it. -/
def writesStore : Instr → Bool
  | .lineStore _ _ | .storeReadQueueAdvance _ _ | .productLineRead _ _ | .bar2Read _ _ | .devResetEntry | .porAssert | .vcoreRemoved => true
  | _ => false

/-- The commands that may write bytes of the leaf and table window (R140, R144, R181, R309, R420, R453, R464, R574). -/
def writesLeaves : Instr → Bool
  | .captureDone | .leafWindowWrite _ _ _ | .firSlotWrite _ _ _ | .mfeLeafWindowWrite _ _ _ | .microstepTableWrite _ _ _
  | .patternWindowWrite _ _ _ _ | .imageChecksDone _ _ | .devResetEntry | .porAssert | .vcoreRemoved => true
  | _ => false

/-- The commands that may write mailbox entries: host writes of command entries, the commands of the mailbox, and what ends one that
runs on (R518, R521); a reset clears them. -/
def writesMailbox : Instr → Bool
  | .registerWrite _ _ _ | .devInfo _ | .devReset _ | .faultClear _ _ | .flashWrite _ | .flashWriteDone _ _ | .freezeTimeout _
  | .lineCommit _ _ | .mailboxCommandMalformed _ | .managementSramUncorrectable | .ownerEnroll _ _ | .ownerEnrollDone _ _
  | .pmbusReadbackPoll _ | .pmbusTransactionFail | .slabTransitArrive | .stAbort _ | .stArm _ _ _ _ | .stDefine _ | .stDrain _
  | .stPause _ _ | .stQuery _ | .stResume _ | .stStage _ _ | .stStart _ | .svnCommit _ | .thmSweep _ | .vmaxReadbackTimeout
  | .workbenchTimeout | .worldSet _ | .devResetEntry | .porAssert | .vcoreRemoved => true
  | _ => false

end Sys2Proof.Stated

open Sys2Proof.Stated

/-! ### The whole machine -/

/-- A step runs the command at the front of the queue on the state with the queue's rest; on an empty queue the block idles (the model's
choice, log 1). -/
def Obligations.StepRunsTheFrontCommand : Prop :=
  (∀ (s : State) (c : Instr) (rest : List Instr), s.pending = c :: rest → step s = exec c { s with pending := rest }) ∧
  (∀ s : State, s.pending = [] → step s = .next s)

/-- Right after reset every register field reads the reset value of its table (R14); those that fuses give it are the model's choice
(logs 2, 97). No command waits, nothing has been sent, and every byte of the leaf and table window and of the mailbox entries reads zero
(R574), as does every byte of the HBM, which is the model's choice (log 14). -/
def Obligations.ResetValues : Prop :=
  (∀ (f : Fld) (i j : Nat), State.reset.get f i j = f.resetAt i) ∧ State.reset.pending = [] ∧ State.reset.out = [] ∧
  (∀ a : Nat, State.reset.leaf.byte a = 0 ∧ State.reset.mbox.byte a = 0 ∧ State.reset.hbm.byte a = 0)

/-- Right after reset the memories have their canonical form and the register store is in order. -/
def Obligations.ResetIsCanonical : Prop := State.reset.memoryOk ∧ State.reset.registersOk

/-- Every command goes on: from every state a step answers a next state, takes exactly the command at the front, leaves what has been
sent standing, and never takes a free value back (R8, R537: a refusal too is a next state). -/
def Obligations.EveryStepGoesOn : Prop :=
  ∀ (s : State) (c : Instr) (rest : List Instr), s.pending = c :: rest →
    ∃ t, step s = .next t ∧ t.pending = rest ∧ (∃ l, t.out = s.out ++ l) ∧ s.fresh ≤ t.fresh

/-- Every step keeps the canonical form of the three memories and the order of the register store. -/
def Obligations.EveryStepKeepsTheStores : Prop :=
  ∀ s t : State, s.memoryOk → s.registersOk → step s = .next t → t.memoryOk ∧ t.registersOk

/-- No command but those that store or mark lines changes any byte of the scan store (R186, R209). -/
def Sys2Proof.Stated.OnlyStoringWritesTheScanStore : Prop :=
  ∀ (c : Instr) (s t : State), writesStore c = false → exec c s = .next t → t.hbm = s.hbm

/-- No command but a capture, an image, a window write or a reset changes any byte of the leaf and table window. -/
def Sys2Proof.Stated.OnlyTheseWriteTheLeafWindow : Prop :=
  ∀ (c : Instr) (s t : State), writesLeaves c = false → exec c s = .next t → t.leaf = s.leaf

/-- No command but those of the mailbox, what ends one that runs on, a write of a command entry or a reset changes any byte of a
mailbox entry. -/
def Sys2Proof.Stated.OnlyTheseWriteMailboxEntries : Prop :=
  ∀ (c : Instr) (s t : State), writesMailbox c = false → exec c s = .next t → t.mbox = s.mbox

/-- Only the named commands change a byte of the scan store, of the leaf and table window, or of a mailbox entry. -/
def Obligations.WhoWritesMemory : Prop := OnlyStoringWritesTheScanStore ∧ OnlyTheseWriteTheLeafWindow ∧ OnlyTheseWriteMailboxEntries

/-! ### Worlds, boot and refusals -/

/-- A write of the non-secure world or of the Workbench to a secure target is discarded: it is logged with its source, counted under
WORLD and raises the cross-world access event, and nothing else changes, during boot too (R497, R538, R549). For every row that is a
host write of one register or window word. -/
def Sys2Proof.Stated.WrongWorldWritesAreDiscarded : Prop :=
  ∀ (c : Instr) (w : World) (a : Nat) (s : State), target c = some (w, a) → w ≠ .secure → s.held = false → s.addrWorld a = .secure →
    exec c s = .next ((s.crossWorld (xwSource w) true a).countRefused w .world)

/-- From RESET exit until the device first enters IDLE a write outside the SMC block is discarded and counted under STATE (R538, R549),
for every row that is a host write of one register or window word, unless the world of the write already discards it: one that is
not of the secure world, to a secure target (R497) or to a register with RWS fields (R576), is the cross-world access. -/
def Sys2Proof.Stated.BootDiscardsWrites : Prop :=
  (∀ (c : Instr) (w : World) (a : Nat) (s : State), target c = some (w, a) → 0x100000 ≤ a → s.held = false → s.booted = false →
    (w = .secure ∨ (s.addrWorld a = .nonSecure ∧ hasSecureFields c = false)) → exec c s = .next (s.countRefused w .state)) ∧
  (∀ (c : Instr) (w : World) (a : Nat) (s : State), target c = some (w, a) → w ≠ .secure → 0x100000 ≤ a → s.held = false →
    s.booted = false → hasSecureFields c = true → exec c s = .next ((s.crossWorld (xwSource w) true a).countRefused w .world))

/-- Non-secure writes to secure targets, and writes outside the SMC block during boot, change nothing but their reports. -/
def Obligations.DiscardedWrites : Prop := WrongWorldWritesAreDiscarded ∧ BootDiscardsWrites

/-! ### Pace, voltage fitting and the regulator -/

/-- At the end of a pace window that no voltage step has discarded the rates are written, deficits found, and caps, web shedding and
fitting follow before the next window starts (R40, R41, R53, R56; the order of these steps is the model's choice, log 114, and the
corners of fitting are log 129). A domain with under 1 % busy time keeps RATE and clears VALID; any
other takes its measured pace, rounded as R4 says and held at the field's top, in 10^7 samples/s for domain 16 and 10^6 slots/s per
engine for the others. -/
def Obligations.PaceWindowEnd : Prop :=
  (∀ (t : Int) (s : State), s.pace.discard = false →
    exec (.paceWindowEnd t) s = .next ((((((((s.each domains State.writeRate).findDeficits).countHold).moveCaps t).shedWeb).passHinges
      ).fitVoltage).startWindow)) ∧
  (∀ (s : State) (d : Nat), d < 17 →
    let t := s.each domains State.writeRate
    ((s.winBusy d = 0 ∨ 100 * s.winBusy d < s.available d) →
      t.get R.SCU_PACE_RATE_VALID d = 0 ∧ t.get R.SCU_PACE_RATE_RATE d = s.get R.SCU_PACE_RATE_RATE d) ∧
    (¬ (s.winBusy d = 0 ∨ 100 * s.winBusy d < s.available d) →
      t.get R.SCU_PACE_RATE_VALID d = 1 ∧
      t.get R.SCU_PACE_RATE_RATE d = min 65535 (roundDiv ((if d = 16 then 25 else 250) * s.winHs d) (s.winBusy d))))

/-- The set point and its waits: a hold period ends after its last window (R54); a read-back that never comes near VMAX refuses what
waits with TIMEOUT, sets FAIL and clears EN (R55); a read-back within 10 mV of VMAX completes what waits; an alert raises its event
and CLEAR_FAULTS follows a nonzero STATUS_WORD; a third failed attempt raises the bus error event and, while fitting is on and nothing
waits, leaves it off, after two more attempts of the transaction begun last (R515); so does one in the wait of boot (R551). -/
def Sys2Proof.Stated.VoltageAndBusWaits : Prop :=
  (∀ s : State, s.pace.holdLeft = 1 → s.get R.SMC_VFIT_STATUS_STATE = 3 →
    exec .vfitHoldEnd s = .next (({ s with pace := { s.pace with holdLeft := 0 } } : State).set R.SMC_VFIT_STATUS_STATE 1)) ∧
  (∀ (s : State) (r : Nat), s.pace.waits = [.stage r] →
    exec .vmaxReadbackTimeout s = .next ((((
      ({ s with pace := { s.pace with waits := [], discard := false, holdLeft := 0 } } : State).endRun r .timeout noDetail).set
      R.SMC_VFIT_STATUS_FAIL 1).set R.SMC_VFIT_CTRL_EN 0).set R.SMC_VFIT_STATUS_STATE 0)) ∧
  (∀ (s : State) (mv : BitVec 12) (r : Nat), s.pace.waits = [.stage r] → s.pace.discard = false →
    within mv.toNat (s.get R.SMC_VFIT_LIMITS_VMAX) 10 = true →
    exec (.pmbusReadbackPoll mv) s = .next (({ ((s.pmbus 0x8B 0).set R.SMC_PMB_STATUS_VREAD mv.toNat) with
      pace := { s.pace with waits := [] } } : State).finishStage r)) ∧
  (∀ (s : State) (word : BitVec 16), word.toNat ≠ 0 → s.held = false →
    exec (.pmbusAlert word) s = .next (((((s.set R.SMC_PMB_STATUS_ALERT 1).pmbus 0x79 0).set R.SMC_PMB_STATUS_WORD word.toNat).raise
      Ev.pmbusAlert).pmbus 0x03 0)) ∧
  (∀ s : State, s.pace.waits = [] → s.held = false → s.on R.SMC_VFIT_CTRL_EN = false →
    exec .pmbusTransactionFail s = .next (
      let u := match lastPmbus s.out with
        | some x => (s.pmbus x.1 x.2).pmbus x.1 x.2
        | none => s
      ((u.set R.SMC_PMB_STATUS_ERR 1).raise Ev.pmbusError).set R.SMC_VFIT_STATUS_STATE 5)) ∧
  (∀ s : State, (s.pace.waits = [] ∨ s.pace.waits = [.boot]) → s.held = false → s.on R.SMC_VFIT_CTRL_EN = true →
    ∃ t, exec .pmbusTransactionFail s = .next t ∧ t.get R.SMC_PMB_STATUS_ERR = 1 ∧ t.get R.SMC_VFIT_CTRL_EN = 0 ∧
      t.get R.SMC_VFIT_STATUS_STATE = 5 ∧ t.pace.waits = [] ∧ t.pace.discard = false ∧ t.pace.holdLeft = 0)

/-- The admission check (R46 to R51). It passes where the load S lies within B_P × φ × (16 − t) / 16 and the σ × f_L of every engine of a
counted station within B_E × φ × (16 − t) / 16, with t the throttle level, or that of its repeat. It writes V_adm and the capacity; a
pass writes OK, no failing domain and S, and a failure NOFIT, the pipeline or the first failing engine and its domain, and counts it.
S adds C × P × f_L of every head of every counted station (R46). φ is 0 below 650 mV and 1.30 above 950 mV, and linear between the seven
entries of R36, in units of 1/5,000. -/
def Sys2Proof.Stated.AdmissionCheck : Prop :=
  (∀ (s : State) (active : Nat → Bool) (rate : Nat → Nat) (eng : List (Nat × Nat × Nat)) (t2 : Option Nat),
    let t := t2.getD (s.get R.THM_STATUS_LEVEL)
    let v := (if s.on R.SMC_VFIT_CTRL_EN then s.get R.SMC_VFIT_LIMITS_VMAX else s.get R.SMC_VFIT_STATUS_VSET) - s.get R.SMC_VFIT_CTRL_GUARD
    let load := s.coreLoad active rate
    let pipe : Prop := load * 80000 ≤ baseP * phi5000 v * (16 - t)
    let fits (e : Nat × Nat × Nat) : Prop := active e.2.1 = true → e.2.2 * rate e.2.1 * 80000 ≤ baseE * phi5000 v * (16 - t)
    let r := s.admission active rate eng t2
    (r.1 = true ↔ pipe ∧ ∀ e ∈ eng, fits e) ∧
    r.2.get R.SCU_ADM_CAP_VADM = v % 4096 ∧
    r.2.get R.SCU_ADM_CAP_CAP = min 65535 (roundDiv (baseP * phi5000 v * (16 - t)) 800000000000) ∧
    (r.1 = true → r.2.get R.SCU_ADM_STATUS_RESULT = 0 ∧ r.2.get R.SCU_ADM_STATUS_FAIL_DOMAIN = 31 ∧
      r.2.get R.SCU_ADM_STATUS_FAIL_ENGINE = 511 ∧ r.2.get R.SCU_ADM_LOAD_LOAD = min 65535 (roundDiv load 10000000) ∧
      r.2.get R.SCU_ADM_COUNT_NOFIT = s.get R.SCU_ADM_COUNT_NOFIT) ∧
    (r.1 = false → r.2.get R.SCU_ADM_STATUS_RESULT = Status.nofit.code ∧
      r.2.get R.SCU_ADM_LOAD_LOAD = s.get R.SCU_ADM_LOAD_LOAD ∧
      r.2.get R.SCU_ADM_COUNT_NOFIT = (s.get R.SCU_ADM_COUNT_NOFIT + 1) % 2 ^ 32) ∧
    (¬ pipe → r.2.get R.SCU_ADM_STATUS_FAIL_DOMAIN = 16 ∧ r.2.get R.SCU_ADM_STATUS_FAIL_ENGINE = 511) ∧
    (pipe → ∀ e ∈ eng, ¬ fits e → e.1 < 512 → (∀ x ∈ eng, ¬ fits x → e.1 ≤ x.1) →
      r.2.get R.SCU_ADM_STATUS_FAIL_DOMAIN = e.1 / 32 ∧ r.2.get R.SCU_ADM_STATUS_FAIL_ENGINE = e.1)) ∧
  (∀ (s : State) (active : Nat → Bool) (rate : Nat → Nat),
    s.coreLoad active rate = ((List.range 8).map fun n =>
      if active n then ((s.station n).heads.map fun p => s.headCols p * s.headPlanes p * rate n).sum else 0).sum) ∧
  (∀ mv : Nat, (mv < 650 → phi5000 mv = 0) ∧ (950 < mv → phi5000 mv = 6500)) ∧
  (∀ i d : Nat, i < 6 → d ≤ 50 →
    let f := [70, 85, 100, 110, 118, 125, 130]
    phi5000 (650 + 50 * i + d) = 50 * f.getD i 0 + d * (f.getD (i + 1) 0 - f.getD i 0))

/-- Hold periods, read-back waits, the alert and bus failures of the set point, and what admission checks. -/
def Obligations.VoltageWaits : Prop := VoltageAndBusWaits ∧ AdmissionCheck

/-- The legal values of SMC_VFIT_CTRL and SMC_VFIT_LIMITS (R57). -/
def Sys2Proof.Stated.ctrlLegal (x : Nat) : Prop :=
  15 ≤ bits x 8 7 ∧ bits x 8 7 ≤ 50 ∧ 1 ≤ bits x 16 4 ∧ bits x 16 4 ≤ 4 ∧ bits x 24 6 ≤ 50

def Sys2Proof.Stated.limitsLegal (x : Nat) : Prop :=
  650 ≤ bits x 0 12 ∧ bits x 16 12 ≤ 950 ∧ bits x 0 12 ≤ bits x 16 12

/-- Writes of the fitting registers. A secure write of SMC_VFIT_CTRL with a legal value is taken: EN set makes fitting steady, EN cleared
disables it, ends a hold period and a discarded window and writes VMAX to the regulator, and EN kept changes the fields alone; a legal
value that sets EN while the regulator is in the wrong VOUT_MODE is refused with RANGE (R514). A secure write of SMC_VFIT_LIMITS with a
legal value is taken, and while fitting is off the set point moves to the new VMAX (R52). An illegal value is discarded with RANGE and
LIMIT_ERR (R57). A write of another world takes no field and is the cross-world access (R576). A new set point is VSET and VOUT_COMMAND, and
a regulator in the wrong VOUT_MODE is not written (R513, R514); a PMBus command goes to ADDR, after PAGE where PAGE_EN is 1 (R513). -/
def Obligations.FittingRegisterWrites : Prop :=
  (∀ (v : BitVec 32) (s : State), Reaches s .secure .SMC_VFIT_CTRL 0 0 → ctrlLegal v.toNat →
    let t := wrote s .secure .SMC_VFIT_CTRL 0 0 v.toNat
    (s.on R.SMC_VFIT_CTRL_EN = false → bits v.toNat 0 1 = 1 → s.on R.SMC_PMB_STATUS_MODE_ERR = false →
      exec (.vfitCtrlWrite .secure v) s = .next (t.set R.SMC_VFIT_STATUS_STATE 1)) ∧
    (s.on R.SMC_VFIT_CTRL_EN = true → bits v.toNat 0 1 = 0 →
      exec (.vfitCtrlWrite .secure v) s = .next (((
        { t with pace := { t.pace with discard := false, holdLeft := 0 } } : State).set R.SMC_VFIT_STATUS_STATE 0).writeVset
          (s.get R.SMC_VFIT_LIMITS_VMAX))) ∧
    (s.on R.SMC_VFIT_CTRL_EN = false → bits v.toNat 0 1 = 0 → exec (.vfitCtrlWrite .secure v) s = .next t) ∧
    (s.on R.SMC_VFIT_CTRL_EN = true → bits v.toNat 0 1 = 1 → s.on R.SMC_PMB_STATUS_MODE_ERR = false →
      exec (.vfitCtrlWrite .secure v) s = .next t) ∧
    (bits v.toNat 0 1 = 1 → s.on R.SMC_PMB_STATUS_MODE_ERR = true →
      exec (.vfitCtrlWrite .secure v) s = .next (s.countRefused .secure .range))) ∧
  (∀ (v : BitVec 32) (s : State), Reaches s .secure .SMC_VFIT_LIMITS 0 0 → limitsLegal v.toNat →
    exec (.vfitLimitsWrite .secure v) s = .next (
      let t := wrote s .secure .SMC_VFIT_LIMITS 0 0 v.toNat
      if s.on R.SMC_VFIT_CTRL_EN then t else t.writeVset (bits v.toNat 16 12))) ∧
  (∀ (v : BitVec 32) (w : World) (s : State), s.held = false →
    (¬ ctrlLegal v.toNat →
      exec (.vfitCtrlWrite .secure v) s = .next ((s.countRefused .secure .range).set R.SMC_VFIT_STATUS_LIMIT_ERR 1)) ∧
    (¬ limitsLegal v.toNat →
      exec (.vfitLimitsWrite .secure v) s = .next ((s.countRefused .secure .range).set R.SMC_VFIT_STATUS_LIMIT_ERR 1)) ∧
    (w ≠ .secure →
      exec (.vfitCtrlWrite w v) s = .next ((s.crossWorld (xwSource w) true (RegId.addr .SMC_VFIT_CTRL)).countRefused w .world) ∧
      exec (.vfitLimitsWrite w v) s = .next ((s.crossWorld (xwSource w) true (RegId.addr .SMC_VFIT_LIMITS)).countRefused w .world))) ∧
  (∀ (mv : Nat) (s : State),
    (s.on R.SMC_PMB_STATUS_MODE_ERR = true → s.writeVset mv = s) ∧
    (s.on R.SMC_PMB_STATUS_MODE_ERR = false →
      s.writeVset mv = (s.set R.SMC_VFIT_STATUS_VSET mv).pmbus 0x21 (s.voutWord mv))) ∧
  (∀ (code data : Nat) (s : State),
    let a := s.get R.SMC_PMB_CFG_ADDR
    let pec := s.on R.SMC_PMB_CFG_PEC
    (s.on R.SMC_PMB_CFG_PAGE_EN = false → s.pmbus code data = s.emit (.pmbus a code data pec)) ∧
    (s.on R.SMC_PMB_CFG_PAGE_EN = true →
      s.pmbus code data = (s.emit (.pmbus a 0 (s.get R.SMC_PMB_CFG_PAGE) pec)).emit (.pmbus a code data pec)))

/-! ### Head links -/

/-- Lane `l` takes packet `k` of a type: it carries traffic, its buffer can hold the packet, form and CRC hold, and with acknowledge and
replay the packet has the next SEQ (R66, R77, R79, R81). -/
def Sys2Proof.Stated.Accepts (s : State) (l type : Nat) (k : Packet) : Prop :=
  s.on R.HLF_LANE_STATUS_ACTIVE l = true ∧ s.get R.HLF_LANE_CREDIT_OCCUPIED l + k.cost ≤ 4096 ∧ k.formOk type = true ∧
    k.crcOk = true ∧ (s.replays l = true → k.seq.toNat = (s.lane l).exp)

/-- The lane after taking a packet: with acknowledge and replay the next SEQ is one more, its refusals are forgotten, and ACK goes out
(R79, R80). -/
def Sys2Proof.Stated.taken (s : State) (l : Nat) : State :=
  if s.replays l then
    let x := s.lane l
    (s.setLane l { x with exp := (x.exp + 1) % 256, nak := false, refused := SMap.erase x.refused x.exp }).sendBlock l Blk.ack
      (ackBody x.exp false)
  else s

/-- What an accepted packet does: PIXEL enters the lane buffer and its head drains (R68, R74); HEAD_EVENT keeps its code and value and
raises the head's event (R89); CFG_RESP with the TAG of the request that is out ends it with its status, a read taking DATA, and the
next request to the head goes out (R86); CAP outside discovery only frees its blocks. Each but PIXEL returns its credits at once. -/
def Sys2Proof.Stated.HeadPacketsAccepted : Prop :=
  ∀ (l : Fin 192) (k : Packet) (s : State),
    (Accepts s l 0 k →
      exec (.pixelPacketRx l k) s = .next (
        let t := taken s l
        let h := pixHdr k.hdr.toNat
        ((t.setLane l { t.lane l with
            buf := (t.lane l).buf ++ [{ cost := k.cost, hdr := h, samples := blockSamples k.data h.count }] }).add
          R.HLF_LANE_CREDIT_OCCUPIED k.cost l).drainHead (s.headOfLane l))) ∧
    (Accepts s l 1 k → s.portState (l / 2) ≠ Port.discover →
      exec (.capPacketRx l k) s = .next ((taken s l).returnCredits l k.cost)) ∧
    (Accepts s l 3 k →
      exec (.headEventRx l k) s = .next (
        let t := (taken s l).returnCredits l k.cost
        let p := s.headOfLane l
        (t.setHead p { s.head p with evCode := bits k.hdr.toNat 8 8, evValue := bits (k.data.getD 0 0) 0 32 }).raise (Ev.head p))) ∧
    (Accepts s l 2 k → ∀ c, s.hlf.cfgReq = some c → c.port = s.headOfLane l → c.sent = true → c.tag = bits k.hdr.toNat 32 8 →
      exec (.cfgRespRx l k) s = .next (
        let t := (taken s l).returnCredits l k.cost
        let u := if c.write then t else t.set R.HLF_CFG_DATA_DATA (bits (k.data.getD 0 0) 0 32)
        ((({ u with hlf := { u.hlf with cfgReq := none } } : State).set R.HLF_CFG_CMD_BUSY 0).set R.HLF_CFG_CMD_STATUS
          (bits k.hdr.toNat 40 8)).nextRequest (s.headOfLane l)))

/-- A whole packet with the wrong SEQ on a lane with acknowledge and replay: the first after a good one is answered NAK with the last SEQ
taken and counted, its credits are returned, the refusal is counted under its SEQ, and it does nothing else, whatever its type (R74,
R79). At the fourth refusal of a SEQ in a row the lane retrains (R80). -/
def Sys2Proof.Stated.WrongSeqIsNaked : Prop :=
  ∀ (l : Fin 192) (k : Packet) (s : State), s.on R.HLF_LANE_STATUS_ACTIVE l = true → s.replays l = true → k.crcOk = true →
    k.seq.toNat ≠ (s.lane l).exp → (s.lane l).nak = false → s.portState (l / 2) ≠ Port.discover →
    s.get R.HLF_LANE_CREDIT_OCCUPIED l + k.cost ≤ 4096 →
    ∀ x ∈ [(Instr.pixelPacketRx l k, 0), (.capPacketRx l k, 1), (.cfgRespRx l k, 2), (.headEventRx l k, 3)], k.formOk x.2 = true →
      let u := (((s.setLane l { s.lane l with nak := true }).add R.HLF_LANE_REPLAY_COUNT 1 l).sendBlock l Blk.ack
        (ackBody ((s.lane l).exp + 255) true)).returnCredits l k.cost
      let n := (SMap.find? (u.lane l).refused k.seq.toNat).getD 0 + 1
      let v := u.setLane l { u.lane l with refused := SMap.insert (u.lane l).refused k.seq.toNat n }
      (n < 4 → exec x.1 s = .next v) ∧ (4 ≤ n → exec x.1 s = .next (v.retrainLane l true))

/-- Accepted head packets have their effect, and a packet out of sequence is answered NAK and does nothing else. -/
def Obligations.HeadPackets : Prop := HeadPacketsAccepted ∧ WrongSeqIsNaked

/-- A whole CAP in DISCOVER on lane 2p frees its blocks. With no common version it puts the port in REFUSED with VERSION (R92). With one,
the candidates are tried from the first, and MODE with the version, the lane exponent, the rate code and the deepest depth goes out
on lane 2p with its DBLK and CRC (R66, R93; where these four stand in its header is the model's choice, log 113). -/
def Sys2Proof.Stated.DiscoveryCap : Prop :=
  ∀ (p : Fin 96) (l : Fin 192) (k : Packet) (s : State), l.val = 2 * p.val → s.portState p = Port.discover → k.formOk 1 = true →
    k.crcOk = true →
    let t := s.returnCredits l k.cost
    let pick := pickVersion (capField k.data 1 0 8) (capField k.data 1 8 8) (s.get R.HLF_PORT_CTRL_VER_MAX p)
      (s.on R.HLF_CTRL_LEGACY_EN)
    (pick = none →
      exec (.capPacketRx l k) s = .next (((t.setHead p { s.head p with cap := k.data }).set R.HLF_PORT_STATE_LAST_STATUS 5 p).setPort p
        Port.refused)) ∧
    (∀ v c cs, pick = some v → (s.head p).keepMode = false →
      t.candidates p v (capField k.data 1 16 4) (capField k.data 1 20 4) = c :: cs →
      let h := modeHdr v c.1 c.2 (depthOf (capField k.data 1 27 3))
      ∃ u code, exec (.capPacketRx l k) s = .next u ∧ u.portState p = Port.switch ∧ (u.head p).version = v ∧ (u.head p).cand = some c ∧
        (u.head p).cands = cs ∧ u.out.getLast? = some (.packet (2 * p.val) h [] (endBody 0 0 (packetCrc h [])) code))

/-- Steps of training: TRAIN phase 1h on lane 2p switches the head to its candidate, phase 3h gives a lane's downstream PRBS count and
phase 4h says that the head holds lock there (R90, R94); a lane in 8b/10b locks where an IDLE block's K28.5 stands and not without one
(R61), no lane locks while its reference is missing (R565), and lane 2p that locks starts the discovery of its port (R90, R91); a lane's upstream PRBS count is kept (R94); a DISCOVER out of
time waits for its retry, the retry discovers again, a SWITCH out of time tries the next candidate (R90, R93), and every ACTIVE lane of
an ACTIVE head is measured again (R85). -/
def Sys2Proof.Stated.HeadTraining : Prop :=
  (∀ (l : Fin 192) (e : BitVec 32) (t : Int) (s : State), s.portState (s.headOfLane l) = Port.switch →
    (s.head (s.headOfLane l)).modeOk = false → l.val = 2 * s.headOfLane l →
    exec (.trainBlockRx l 1 e t) s = .next (s.switchMode (s.headOfLane l) t)) ∧
  (∀ (l : Fin 192) (e : BitVec 32) (t : Int) (s : State),
    exec (.trainBlockRx l 3 e t) s = .next (((s.setLane l { s.lane l with prbsDown := some e.toNat }).checkPrbs (s.headOfLane l)
      ).checkLanePrbs l)) ∧
  (∀ (l : Fin 192) (e : BitVec 32) (t : Int) (s : State),
    exec (.trainBlockRx l 4 e t) s = .next ((s.setLane l { s.lane l with phase4 := true }).checkSwitch (s.headOfLane l))) ∧
  (∀ (l : Fin 192) (chars : List (BitVec 9)) (s : State), s.refRuns (l / 48) = false → exec (.laneBlockLock ⟨l, chars⟩) s = .next s) ∧
  (∀ (p : Fin 96) (l : Fin 192) (chars : List (BitVec 9)) (s : State), s.refRuns (l / 48) = true → (s.lane l).k8 = true →
    (boundary (chars.map (·.toNat)) = none → exec (.laneBlockLock ⟨l, chars⟩) s = .next s) ∧
    (∀ i, boundary (chars.map (·.toNat)) = some i → l.val = 2 * p.val → s.portState p = Port.down → (s.head p).retry = false →
      s.on R.HLF_CTRL_EN = true → s.on R.HLF_PORT_CTRL_EN p = true → s.isFirstPort p = true →
      exec (.laneBlockLock ⟨l, chars⟩) s = .next
        (((s.setLane l { s.lane l with boundary := i % 8 }).set R.HLF_LANE_STATUS_LOCK 1 l).startDiscover p))) ∧
  (∀ (l : Fin 192) (e : BitVec 32) (s : State), s.portState (s.headOfLane l) = Port.prbs →
    exec (.prbsTestDone l e) s = .next ((((s.setLane l { s.lane l with prbsUp := some e.toNat }).set R.HLF_LANE_PRBS_COUNT e.toNat l
      ).checkPrbs (s.headOfLane l)).checkLanePrbs l)) ∧
  (∀ (p : Fin 96) (s : State), s.portState p = Port.discover →
    exec (.discoverTimeout p) s = .next ((s.setHead p { s.head p with retry := true, renew := false }).setPort p Port.down)) ∧
  (∀ (p : Fin 96) (s : State), s.portState p = Port.down → (s.head p).retry = true → s.mayDiscover p = true →
    exec (.discoverRetry p) s = .next ((s.setHead p { s.head p with retry := false }).startDiscover p)) ∧
  (∀ (p : Fin 96) (s : State), s.portState p = Port.switch → exec (.switchTimeout p) s = .next (s.nextCandidate p)) ∧
  (∀ (p : Fin 96) (s : State), s.portActive p = true →
    exec (.delayMeasureTimer p) s = .next (s.each ((s.headLanes p).filter fun l => s.on R.HLF_LANE_STATUS_ACTIVE l) State.sendEcho))

/-- Discovery, switching, block lock, PRBS and the timeouts of a head port. -/
def Obligations.HeadBringUp : Prop := DiscoveryCap ∧ HeadTraining

/-- ECHO with the outstanding tag (R85): D is half the round trip less TURN. In training a D above 2 µs fails the port with RANGE;
otherwise D stands in the lane's status, the station's lead time follows it, and in DELAY the credits are initialised once every lane
has its D. A retraining lane with a D of up to 2 µs has its credits initialised. The TIMING blocks due before the reply arrives go out with the D in force until then. -/
def Sys2Proof.Stated.EchoMeasuresDelay : Prop :=
  (∀ (l : Fin 192) (tag : BitVec 16) (turn : BitVec 20) (e : EchoTrip) (x rate : Nat) (c : Nat) (s : State),
    (s.lane l).echo = some (tag.toNat, x) → s.portState (s.headOfLane l) = Port.delay → (s.head (s.headOfLane l)).cand = some (c, rate) →
    s.on R.HLF_LANE_STATUS_RETRAINING l = false →
    let d := roundDiv (e.trip - turn.toNat) 2
    let s0 := s.sendDue l e.time
    let s1 := s0.setLane l { s0.lane l with echo := none }
    (2000000000 < d * (blockFs rate / 64) →
      exec (.echoRx l tag turn e) s = .next ((s1.portLeaves (s.headOfLane l) Port.failed).set R.HLF_PORT_STATE_LAST_STATUS 3
        (s.headOfLane l))) ∧
    (d * (blockFs rate / 64) ≤ 2000000000 →
      exec (.echoRx l tag turn e) s = .next (
        let s2 := (s1.set R.HLF_LANE_STATUS_DELAY d l).setLane l { s1.lane l with measured := true }
        let s3 := match s2.stationOfHead (s.headOfLane l) with
          | some n => s2.syncLead n
          | none => s2
        s3.checkDelay (s.headOfLane l)))) ∧
  (∀ (l : Fin 192) (tag : BitVec 16) (turn : BitVec 20) (e : EchoTrip) (x : Nat) (s : State),
    (s.lane l).echo = some (tag.toNat, x) → s.portState (s.headOfLane l) = Port.active → (s.head (s.headOfLane l)).cand = none →
    s.on R.HLF_LANE_STATUS_RETRAINING l = true →
    let d := roundDiv (e.trip - turn.toNat) 2
    let s0 := s.sendDue l e.time
    let s1 := s0.setLane l { s0.lane l with echo := none }
    d * (blockFs (s.get R.HLF_PORT_MODE_RATE (s.headOfLane l)) / 64) ≤ 2000000000 →
    exec (.echoRx l tag turn e) s = .next (
      let s2 := (s1.set R.HLF_LANE_STATUS_DELAY d l).setLane l { s1.lane l with measured := true }
      let s3 := match s2.stationOfHead (s.headOfLane l) with
        | some n => s2.syncLead n
        | none => s2
      s3.creditInit l))

/-- A lane that may retrain does (R96, R97): it carries no traffic and has no lock, the resync window opens, and when it is the last of
the lanes of an ACTIVE head to do so the port is in RETRAIN; a lane that may not stays as it is. Which lanes may: those of a head in
ACTIVE, or in RETRAIN before a renegotiation, and in CREDIT those initialised. INIT_ACK ends the resync window and the retrain, and the
lane carries traffic again; on a lane that no head holds it does nothing (R24, R97). -/
def Sys2Proof.Stated.LanesRetrain : Prop :=
  (∀ (l : Nat) (tell : Bool) (s : State), l < 192 → s.headOfLane l < 96 →
    let p := s.headOfLane l
    let t := s.retrainLane l tell
    let may : Prop := l ∈ s.heldLanes p ∧ (s.portState p = Port.active ∨ (s.portState p = Port.retrain ∧ (s.head p).renew = false) ∨
      (s.portState p = Port.credit ∧ (s.on R.HLF_LANE_STATUS_ACTIVE l = true ∨ s.on R.HLF_LANE_STATUS_RETRAINING l = true)))
    (¬ may → t = s) ∧
    (may → t.get R.HLF_LANE_STATUS_RETRAINING l = 1 ∧ t.get R.HLF_LANE_STATUS_ACTIVE l = 0 ∧ t.get R.HLF_LANE_STATUS_LOCK l = 0 ∧
      t.get R.HLF_LANE_AUDIT_RESYNC l = 1 ∧
      (s.portState p = Port.active → (∀ k ∈ s.heldLanes p, k ≠ l → k < 192 ∧ s.on R.HLF_LANE_STATUS_RETRAINING k = true) →
        t.portState p = Port.retrain) ∧
      (∀ k ∈ s.heldLanes p, k ≠ l → k < 192 → s.on R.HLF_LANE_STATUS_RETRAINING k = false → t.portState p = s.portState p))) ∧
  (∀ (l : Nat) (s : State), l < 192 →
    (l ∉ s.heldLanes (s.headOfLane l) → s.initAck l = s) ∧
    (l ∈ s.heldLanes (s.headOfLane l) → s.portState (s.headOfLane l) = Port.active →
      s.initAck l = ((((s.setLane l { s.lane l with inited := true, initSent := false, prbs := false }).set R.HLF_LANE_AUDIT_RESYNC 0 l).set
        R.HLF_LANE_STATUS_RETRAINING 0 l).set R.HLF_LANE_STATUS_ACTIVE 1 l)))

/-- Upkeep of lanes and lines: LINK_CTRL RETRAIN and bad sync headers retrain the lane, the second telling the head and, with block lock
lost, clearing LOCK (R96); a retrain out of time renegotiates the head (R98); INIT_ACK inside the resync window ends it (R97); an unknown
control block is counted (R64); RETURNED is repeated on a lane with nothing buffered (R74); an overdue line is handed on filled, with its
event (R71). -/
def Sys2Proof.Stated.HeadLaneUpkeep : Prop :=
  (∀ (l : Fin 192) (s : State), exec (.linkCtrlRetrainRx l) s = .next (s.retrainLane l false)) ∧
  (∀ (l : Fin 192) (s : State), exec (.laneSyncHeaderErrors l false) s = .next (s.retrainLane l true)) ∧
  (∀ (l : Fin 192) (s : State), exec (.laneSyncHeaderErrors l true) s = .next ((s.set R.HLF_LANE_STATUS_LOCK 0 l).retrainLane l true)) ∧
  (∀ (l : Fin 192) (s : State), s.on R.HLF_LANE_STATUS_RETRAINING l = true →
    exec (.retrainTimeout l) s = .next (s.renegotiate (s.headOfLane l))) ∧
  (∀ (l : Fin 192) (h r x : BitVec 16) (s : State), s.on R.HLF_LANE_AUDIT_RESYNC l = true →
    exec (.credStatusRx l h r x true) s = .next (s.initAck l)) ∧
  (∀ (l : Fin 192) (kind : BitVec 8) (s : State), Blk.known (s.lane l).k8 kind.toNat = false →
    exec (.unknownCtrlBlockRx l kind) s = .next (s.add R.HLF_LANE_DROP_COUNT 1 l)) ∧
  (∀ (l : Fin 192) (s : State), s.on R.HLF_LANE_STATUS_ACTIVE l = true → (s.lane l).buf = [] →
    exec (.creditBlockRefresh l) s = .next (s.sendBlock l Blk.credit (creditBody (s.get R.HLF_LANE_CREDIT_RETURNED l) false 0))) ∧
  (∀ (p : Fin 96) (n : Nat) (s : State), s.overdueLine p = some n →
    exec (.lineTimeoutFill p) s = .next ((s.lineReady p n true false (s.filledSamples p n)).raise (Ev.lineFill p)))

/-- The credit audit at a CRED_STATUS outside the resync window (R76): HELD and DIFF are written, DIFF being 4,096 less the blocks held
by the head, in flight back to it and in the lane buffer. At 0 the lane's audit is good; anything else sets FAIL and raises the credit
audit event, the head's station freezes, and the lane retrains, telling the head. A packet that a full buffer cannot hold fails the audit
too, whatever its type: it is dropped and its credits returned (R77). -/
def Sys2Proof.Stated.CreditAudit : Prop :=
  ∀ (l : Fin 192) (h r x : BitVec 16) (b : Bool) (s : State), s.on R.HLF_LANE_AUDIT_RESYNC l = false →
    s.on R.HLF_LANE_STATUS_ACTIVE l = true → (b = true → s.portState (s.headOfLane l) ≠ Port.credit) →
    let flight := (s.get R.HLF_LANE_CREDIT_RETURNED l + 65536 - r.toNat) % 65536
    let d : Int := 4096 - (h.toNat + flight + s.get R.HLF_LANE_CREDIT_OCCUPIED l : Nat)
    let s1 := (s.set R.HLF_LANE_AUDIT_HELD h.toNat l).setS R.HLF_LANE_AUDIT_DIFF d l
    let failed (u : State) : State :=
      ((((u.set R.HLF_LANE_AUDIT_FAIL 1 l).raise Ev.auditCredit).setLane l { u.lane l with auditBad := true }).auditFail .credits
        (u.stationOfHead (u.headOfLane l)).toList).retrainLane l true
    (d ≠ 0 → exec (.credStatusRx l h r x b) s = .next (failed s1)) ∧
    (∀ k : Packet, 4096 < s.get R.HLF_LANE_CREDIT_OCCUPIED l + k.cost → s.portState (l / 2) ≠ Port.discover →
      ∀ c ∈ [Instr.pixelPacketRx l k, .capPacketRx l k, .cfgRespRx l k, .headEventRx l k],
        exec c s = .next (failed ((s.dropOn l).returnCredits l k.cost))) ∧
    (d = 0 → (s1.setLane l { s.lane l with auditBad := false }).anyCreditBad = true →
      exec (.credStatusRx l h r x b) s = .next (s1.setLane l { s.lane l with auditBad := false })) ∧
    (d = 0 → (s1.setLane l { s.lane l with auditBad := false }).anyCreditBad = false →
      exec (.credStatusRx l h r x b) s = .next ((s1.setLane l { s.lane l with auditBad := false }).auditPass .credits))

/-- Lane delay, replay, retrain, resync, line timeouts and the credit audit. -/
def Obligations.HeadLanes : Prop := EchoMeasuresDelay ∧ HeadLaneUpkeep ∧ LanesRetrain ∧ CreditAudit

/-- The head link registers (R86, R87, R90, R98): EN of the fabric and of a port, a commanded renegotiation (STATE while the head's
station is outside IDLE), a request to a head (BUSY while one is out, ABSENT for a head
that is not ACTIVE, sent at once where no read of bring-up is outstanding, log 116) and its timeout. -/
def Obligations.HeadLinkRegisters : Prop :=
  (∀ (w : World) (v : BitVec 32) (s : State), Reaches s w .HLF_CTRL 0 0 →
    exec (.hlfCtrlWrite w v) s = .next ((wrote s w .HLF_CTRL 0 0 v.toNat).each ports96 fun s p =>
      if s.on R.HLF_CTRL_EN then
        (if s.mayDiscover p ∧ (s.portState p = Port.down ∧ ¬ (s.head p).retry ∨ s.portState p = Port.retrain ∧ (s.head p).renew) then
          s.startDiscover p
        else s)
      else
        let s1 := s.setHead p { s.head p with retry := false }
        if s1.portState p = Port.discover then s1.setPort p Port.down else s1)) ∧
  (∀ (w : World) (p : Fin 96) (v : BitVec 32) (s : State), Reaches s w .HLF_PORT_CTRL p 0 →
    exec (.portEnableWrite w p v) s = .next ((wrote s w .HLF_PORT_CTRL p 0 v.toNat).portEnable p)) ∧
  (∀ (w : World) (p : Fin 96) (v : BitVec 32) (n : Nat) (s : State), Reaches s w .HLF_PORT_CTRL p 0 → bit v.toNat 24 = true →
    s.stationOfHead (s.get R.HLF_PORT_STATE_PRIMARY p) = some n →
    (s.stBusy n = true → exec (.portRetrain w p v) s = .next ((s.countRefused w .state).set R.HLF_PORT_STATE_LAST_STATUS 1 p)) ∧
    (s.stBusy n = false →
      let t := (wrote s w .HLF_PORT_CTRL p 0 v.toNat).portEnable p
      t.on R.HLF_PORT_CTRL_EN p = true →
      exec (.portRetrain w p v) s = .next (t.renegotiate (s.get R.HLF_PORT_STATE_PRIMARY p)))) ∧
  (∀ (w : World) (v : BitVec 32) (s : State), Reaches s w .HLF_CFG_CMD 0 0 → bit v.toNat 0 = true →
    (s.on R.HLF_CFG_CMD_BUSY = true →
      exec (.headCfgRequest w v) s = .next ((s.countRefused w .busy).set R.HLF_CFG_CMD_STATUS 6)) ∧
    (s.on R.HLF_CFG_CMD_BUSY = false →
      let t := wrote s w .HLF_CFG_CMD 0 0 v.toNat
      let p := t.get R.HLF_CFG_ADDR_PORT
      (t.portActive p = true → p < 96 →
        (s.head p).ask = none →
        exec (.headCfgRequest w v) s = .next (
          (({ t with hlf := { t.hlf with
              cfgReq := some { tag := t.hlf.nextTag, port := p, addr := t.get R.HLF_CFG_ADDR_ADDR, write := t.on R.HLF_CFG_CMD_WRITE,
                               data := t.get R.HLF_CFG_DATA_DATA, sent := true },
              nextTag := (t.hlf.nextTag + 1) % 256 } } : State).set R.HLF_CFG_CMD_BUSY 1).sendPacket (2 * p)
            (cfgHdr (t.on R.HLF_CFG_CMD_WRITE) (t.get R.HLF_CFG_ADDR_ADDR) t.hlf.nextTag) [t.get R.HLF_CFG_DATA_DATA])) ∧
      (t.portActive p = false → exec (.headCfgRequest w v) s = .next (t.set R.HLF_CFG_CMD_STATUS 9)))) ∧
  (∀ (s : State) (c : CfgReq), s.hlf.cfgReq = some c →
    exec .headCfgTimeout s = .next (((({ s with hlf := { s.hlf with cfgReq := none } } : State).set R.HLF_CFG_CMD_BUSY 0).set
      R.HLF_CFG_CMD_STATUS 10).nextRequest c.port))

/-! ### Line timing -/

/-- The timebase: while the unit is enabled a loss of the reference sets HOLDOVER and raises its event, its return ends the holdover, and
lock of the enabled unit sets LOCK (R100, R555). Each tick moves CORR by at most 10 ppb toward the correction of the sensor's
temperature, or toward 0 with the correction off (the model's choice, log 8), or keeps it with TCOMP_HOLD set while the sensor is failed
(R101, R102); the oscillator is steered by −CORR and, with PTP_DISC set and the PTP clock locked, toward PTP, together at most 100 ppm
(R101, R103; in holdover too, which is the model's choice, log 142). A write of LTU_TCOMP_CTRL with a sensor above 23, or with EN over points that do
not ascend, is refused with RANGE (R102). -/
def Sys2Proof.Stated.Timebase : Prop :=
  (∀ s : State, s.on R.LTU_CTRL_EN = true → s.ltu.refLost = false →
    exec .refclkLoss s = .next ((({ s with ltu := { s.ltu with refLost := true } } : State).set R.LTU_REF_STATUS_HOLDOVER 1).raise
      Ev.refHoldover)) ∧
  (∀ s : State, exec .holdoverExit s = .next { s with ltu := { s.ltu with refLost := false } }) ∧
  (∀ s : State, s.on R.LTU_CTRL_EN = true → s.ltu.refLost = false →
    exec .timebaseLock s = .next (s.set R.LTU_REF_STATUS_LOCK 1)) ∧
  (∀ s : State,
    let cur := s.getS R.LTU_REF_STATUS_CORR
    let k := s.get R.LTU_TCOMP_CTRL_SENSOR
    let target := interpCorr (5 * s.getS R.THM_SNS_TEMP k) (s.tcompPoints.map fun p => (4 * p.1, p.2))
    (s.on R.LTU_TCOMP_CTRL_EN = false →
      exec .tcompTick s = .next
        ((s.setS R.LTU_REF_STATUS_CORR (cur + max (-10) (min 10 (0 - cur)))).set R.LTU_REF_STATUS_TCOMP_HOLD 0).syncSteer) ∧
    (s.on R.LTU_TCOMP_CTRL_EN = true → s.on R.THM_SNS_FAILED k = true →
      exec .tcompTick s = .next (s.set R.LTU_REF_STATUS_TCOMP_HOLD 1)) ∧
    (s.on R.LTU_TCOMP_CTRL_EN = true → s.on R.THM_SNS_FAILED k = false →
      exec .tcompTick s = .next ((s.setS R.LTU_REF_STATUS_CORR (cur + max (-10) (min 10 (target - cur)))).set
        R.LTU_REF_STATUS_TCOMP_HOLD 0).syncSteer)) ∧
  (∀ s : State, s.syncSteer.ltu.steer = max (-100000) (min 100000
      ((if s.on R.LTU_CTRL_PTP_DISC = true ∧ s.on R.LTU_REF_STATUS_PTP_LOCK = true then s.ltu.ptpPart else 0) -
        s.getS R.LTU_REF_STATUS_CORR)) ∧
    s.syncSteer.regs = s.regs) ∧
  (∀ (w : World) (v : BitVec 32) (s : State), Reaches s w .LTU_TCOMP_CTRL 0 0 →
    let bad := decide (23 < R.LTU_TCOMP_CTRL_SENSOR.of v.toNat) || (decide (R.LTU_TCOMP_CTRL_EN.of v.toNat = 1) && !s.tcompAscending)
    (bad = false → exec (.tcompEnableWrite w v) s = .next (wrote s w .LTU_TCOMP_CTRL 0 0 v.toNat)) ∧
    (bad = true →
      exec (.tcompEnableWrite w v) s = .next ((s.countRefused w .range).set R.LTU_REF_STATUS_LAST_STATUS 3)))

/-- Encoder inputs. The pins are sampled at the ticks; each accepted level goes to the decoder stamped with its instant less the filter
delay, the glitch time it waited and 1 or 2 ticks for the majority filter (R104, R105); a level that waits keeps the glitch time of its
edge, whatever GLITCH is then (R563); until a sample is commanded the pins stood as last sampled (log 100). With both filters off a level that differs is accepted at its tick. The decoder (R106, R107): one level that changes moves the
count by one, up when A leads B, down otherwise, the other way round under INVERT, wrapping at 48 signed bits; the count stands in
LTU_ENC_POS, the nine last stamps are kept, PERIOD follows, and the encoder's stations look at their targets. Both levels changing at
once is an error: counted, its event raised, the count kept. An accepted rising level of Z latches the position interpolated at its
stamp while Z_EN is 1 and latches nothing while it is 0 (R109). -/
def Sys2Proof.Stated.EncoderEdges : Prop :=
  (∀ (e : Fin 4) (a b : Bool) (t : Int) (s : State),
    let x := s.enc e
    let u := sampleTick x.abAt t
    exec (.encoderEdge e a b t) s = .next
      ((s.each (gapTicks x.abAt u) fun s v => s.sampleAB e (x.pinA.hist.headD false) (x.pinB.hist.headD false) v).sampleAB e a b u)) ∧
  (∀ (e : Fin 4) (a b : Bool) (t : Int) (s : State),
    let x := s.enc e
    let pa := x.pinA.sample (s.get R.LTU_ENC_CFG_MAJ e) (s.glitch e) a t
    let pb := x.pinB.sample (s.get R.LTU_ENC_CFG_MAJ e) (s.glitch e) b t
    let m : Int := 16 * s.get R.LTU_ENC_CFG_MAJ e
    let s1 := s.setEnc e { x with pinA := pa.2, pinB := pb.2, abAt := t }
    (pa.1 = none → pb.1 = none → s.sampleAB e a b t = s1) ∧
    (∀ u, pa.1 = some u → pb.1 = none → s.sampleAB e a b t = s1.decodeEdge e pa.2.level x.b (u.1 - (u.2 + m))) ∧
    (∀ v, pa.1 = none → pb.1 = some v → s.sampleAB e a b t = s1.decodeEdge e x.a pb.2.level (v.1 - (v.2 + m))) ∧
    (∀ u, pa.1 = some u → pb.1 = some u → s.sampleAB e a b t = s1.decodeEdge e pa.2.level pb.2.level (u.1 - (u.2 + m)))) ∧
  (∀ (x : Pin) (raw : Bool) (t : Int), x.out = x.level →
    (raw ≠ x.level → (x.sample 0 0 raw t).1 = some (t, 0) ∧ (x.sample 0 0 raw t).2.level = raw) ∧
    (raw = x.level → (x.sample 0 0 raw t).1 = none ∧ (x.sample 0 0 raw t).2.level = x.level)) ∧
  (∀ (x : Pin) (maj : Nat) (g : Int) (raw : Bool) (t : Int), x.out ≠ x.level → x.since + x.hold ≤ t →
    (x.sample maj g raw t).1 = some (x.since + x.hold, x.hold)) ∧
  (∀ (e : Fin 4) (a b : Bool) (u : Int) (s : State), (s.enc e).a ≠ a → (s.enc e).b ≠ b →
    s.decodeEdge e a b u = ((s.setEnc e { s.enc e with a := a, b := b }).add R.LTU_ENC_ERR_COUNT 1 e).raise (1312 + e.val)) ∧
  (∀ (e : Fin 4) (a b : Bool) (u : Int) (s : State), ¬ ((s.enc e).a = a ↔ (s.enc e).b = b) →
    let up : Bool := xor (if (s.enc e).a = a then decide (b = a) else decide (a ≠ b)) (s.on R.LTU_ENC_CFG_INVERT e)
    let c := toSigned 48 (ofSigned 48 ((s.enc e).count + if up then 1 else -1))
    let s1 := s.setEnc e { s.enc e with a := a, b := b, count := c, te := u, up := up, moved := true,
                                        edges := (u :: (s.enc e).edges).take 9 }
    let s2 := (s1.setPos16 R.LTU_ENC_POS_COUNT R.LTU_ENC_POS_PHASE e (65536 * c)).syncPeriod e u
    s.decodeEdge e a b u = s2.each (stations8.filter fun n => s2.encSource n && decide (s2.encOf n = e)) fun s n => s.edgeStation n u) ∧
  (∀ (e : Fin 4) (lv : Bool) (t : Int) (s : State),
    let x := s.enc e
    let u := sampleTick x.zAt t
    exec (.encoderIndexEdge e ⟨lv, t⟩) s = .next
      ((s.each (gapTicks x.zAt u) fun s v => s.sampleZ e (x.pinZ.hist.headD false) v).sampleZ e lv u)) ∧
  (∀ (e : Fin 4) (lv : Bool) (t : Int) (s : State),
    let p := (s.enc e).pinZ.sample (s.get R.LTU_ENC_CFG_MAJ e) (s.glitch e) lv t
    let m : Int := 16 * s.get R.LTU_ENC_CFG_MAJ e
    let s1 := s.setEnc e { s.enc e with pinZ := p.2, zAt := t }
    (∀ u, p.1 = some u → p.2.level = true → s.on R.LTU_ENC_CFG_Z_EN e = true →
      s.sampleZ e lv t = s1.setPos16 R.LTU_ENC_ZLATCH_COUNT R.LTU_ENC_ZLATCH_PHASE e (s1.encPos e (u.1 - (u.2 + m)))) ∧
    ((p.1 = none ∨ p.2.level = false ∨ s.on R.LTU_ENC_CFG_Z_EN e = false) → s.sampleZ e lv t = s1))

/-- The reference, temperature compensation, and encoder and index edges. -/
def Obligations.TimebaseAndEncoders : Prop := Timebase ∧ EncoderEdges

/-- A line that is due is committed, its descriptor written and what follows a commit done; a descriptor that overflows its queue takes
the device to FAULT (R113, R129, R233). Its WPI is the next, and its instant is the lead time away or the predicted one, whichever is
later. Its gate opens no earlier than that instant. A line that cannot keep its spacing is skipped: its WPI is taken all the same, and
the skip counted (R123, R124). -/
def Sys2Proof.Stated.LineCommit : Prop :=
  (∀ (n : Fin 8) (now t : Int) (s : State), s.stState n = St.scanning → s.nextInstant n now = some t → t ≤ now + s.lead n →
    let r := s.commitLine n (now + s.lead n) now
    (r.1 = false → exec (.lineCommit n now) s = .next (r.2.afterCommit n (s.lst n).next now)) ∧
    (r.1 = true → exec (.lineCommit n now) s = .next (r.2.enterFault 1 n))) ∧
  (∀ (n : Fin 8) (now t : Int) (s : State), s.stState n = St.scanning →
    (s.nextInstant n now = none ∨ (s.nextInstant n now = some t ∧ now + s.lead n < t)) → exec (.lineCommit n now) s = .next s) ∧
  (∀ (n : Fin 8) (now t : Int) (s : State),
    let u := (s.commitLine n t now).2
    (u.lst n).next = (s.lst n).next + 1 ∧
    ((u.lst n).committed = (s.lst n).committed ∧ u.get R.LTU_ST_SKIP_COUNT n = (s.get R.LTU_ST_SKIP_COUNT n + 1) % 2 ^ 32 ∨
      ∃ c : CLine, (u.lst n).committed = (s.lst n).committed ++ [c] ∧ c.n = (s.lst n).next ∧ c.t = t ∧ t ≤ c.ss ∧
        u.get R.LTU_ST_SKIP_COUNT n = s.get R.LTU_ST_SKIP_COUNT n))

/-- The oldest committed line of a station is triggered: it leaves the list and WPI takes its number (R116, R121); an immediate start takes
P_base at its instant (R117; the model's reading, log 123); TIMING blocks due by then go out (R84); line M of a restart and the first line of a ring are
marked (R196, R359), the seal's clock notes it (R334), its heads open it for assembly, one triggered again only at its LINE timing
instant (R68, R83), it lights (R413), and the reload follows. A station with no
committed line keeps everything. -/
def Sys2Proof.Stated.LineTrigger : Prop :=
  (∀ (n : Fin 8) (l : CLine) (rest : List CLine) (s : State), (s.lst n).committed = l :: rest →
    let s1 := (s.setLst n { s.lst n with committed := rest, last := some l, everTriggered := true }).set R.LTU_ST_WPI l.n n
    let s2 := (((((s1.each (s.station n).heads fun s p => s.sendHead p l.t).takeBase n l.t).matchTriggered n l).ringFirst n).noteTrigger n
      l.n l.t).openLine n l.n l.qq
    exec (.lineTrigger n) s = .next (((s2.illuminate n l.n l.t l.ss l.ee).checkReload).syncHeld n)) ∧
  (∀ (n : Fin 8) (w : Nat) (q : Int) (p : Nat) (s : State), (s.station n).heads = [p] →
    ((s.headLine p w).closed = false → (s.openLine n w q).headLine p w = {}) ∧
    ((s.headLine p w).closed = true → (s.openLine n w q).headLine p w = { closed := true, opens := some q })) ∧
  (∀ (n : Fin 8) (s : State), (s.lst n).committed = [] → exec (.lineTrigger n) s = .next s)

/-- Host lines and the match (R112, R126): COUNT adds to PENDING in station state SCANNING under the host source, STATE otherwise and
LENGTH above 65,535, which comes first; a match that may be armed is armed for line M, one outside REWINDING is refused with STATE, and
one of a station that no encoder drives with RANGE. -/
def Sys2Proof.Stated.HostTriggerAndMatch : Prop :=
  (∀ (w : World) (n : Fin 8) (v : BitVec 32) (s : State), Reaches s w .LTU_ST_HOSTTRIG n 0 →
    let c := R.LTU_ST_HOSTTRIG_COUNT.of v.toNat
    let p := s.get R.LTU_ST_HOSTTRIG_PENDING n
    c ≠ 0 →
    (p + c ≤ 65535 → s.get R.LTU_ST_CTRL_SRC n = 2 → s.stState n = St.scanning →
      exec (.hostTriggerWrite w n v) s = .next (s.set R.LTU_ST_HOSTTRIG_PENDING (p + c) n)) ∧
    (65535 < p + c →
      exec (.hostTriggerWrite w n v) s = .next ((s.countRefused w .length).set R.LTU_ST_STATUS_LAST_STATUS 2 n)) ∧
    (p + c ≤ 65535 → (s.get R.LTU_ST_CTRL_SRC n ≠ 2 ∨ s.stState n ≠ St.scanning) →
      exec (.hostTriggerWrite w n v) s = .next ((s.countRefused w .state).set R.LTU_ST_STATUS_LAST_STATUS 1 n))) ∧
  (∀ (w : World) (n : Fin 8) (v : BitVec 32) (t : Int) (s : State), Reaches s w .LTU_ST_MATCH_CFG n 0 →
    let m := s.get R.LTU_ST_MATCH_M n
    R.LTU_ST_MATCH_CFG_ARM.of v.toNat = 1 →
    (R.LTU_ST_MATCH_CFG_TOL.of v.toNat ≠ 0 → s.encSource n = true → m < (s.lst n).resume → s.stState n = St.rewinding →
      (s.get R.LTU_ST_RATIO_D n : Int) ≤ s.fwd n * (s.lineTarget n m - s.posOf n t) →
      exec (.matchArm w n v t) s = .next ((wrote s w .LTU_ST_MATCH_CFG n 0 v.toNat).armMatch n m)) ∧
    (s.stState n ≠ St.rewinding →
      exec (.matchArm w n v t) s = .next ((s.countRefused w .state).set R.LTU_ST_STATUS_LAST_STATUS 1 n)) ∧
    (s.stState n = St.rewinding → s.encSource n = false → (s.get R.LTU_ST_RATIO_D n : Int) ≤ s.fwd n * (s.lineTarget n m - s.posOf n t) →
      exec (.matchArm w n v t) s = .next ((s.countRefused w .range).set R.LTU_ST_STATUS_LAST_STATUS 3 n)))

/-- Lines are committed and triggered in order; host triggers and the match. -/
def Obligations.LineTiming : Prop := LineCommit ∧ LineTrigger ∧ HostTriggerAndMatch

/-! ### Conditioning, leaves and measurements -/

/-- A shaded sample lies between 0 and 65,535, and with a gain of 1 and no drift it is the sample less its dark value plus the
pedestal, held to that range (R134). -/
def Obligations.ShadedSample : Prop :=
  (∀ x b g d k ped : Nat, shadeSample x b g d k ped ≤ 65535) ∧
  (∀ x b ped : Nat, shadeSample x b 0x4000 0 0x4000 ped = ((max 0 (min 65535 ((x : Int) - b + ped))) : Int).toNat)

/-- A sample of plane `i / cols`, column `i % cols` shaded with slot `l` and the drift `d` of its head (R134). -/
def Sys2Proof.Stated.shadedBy (s : State) (p l : Nat) (d : List Nat × List Nat) (i x : Nat) : Nat :=
  let m := i / max 1 (s.headCols p)
  let c := i % max 1 (s.headCols p)
  shadeSample x (s.leafB l m c) (s.leafG l m c) (d.1.getD m 0) (d.2.getD m 0x4000) (s.get R.PCP_SHD_HEAD_CTRL_PED p)

/-- Head lines are conditioned while their station runs and the device is not shut down (R132, R483). A head's next whole line is taken
when all heads of the station have met; it is counted at the entry of the domain, taken by the capture, conditioned and measured, and
the stitched lines that are due are formed. The newest line of the head is then its number, its fill flags and its samples: as they
came with shading off or no active leaf, shaded by the leaf otherwise, and in a fade mixed of both leaves in proportion i to F (R134,
R155). A fade that has left shading is released (R155). -/
def Sys2Proof.Stated.LinesAreConditioned : Prop :=
  (∀ (p : Fin 96) (busy n : Nat) (s : State), s.stationOfHead p = some n → s.stBusy n = true → s.dev ≠ Dev.thermalLatch →
    exec (.lineCondition p busy) s = .next (s.conditionNext n p busy)) ∧
  (∀ (n p busy : Nat) (s : State), let s1 := s.formLines n
    (∀ l, (s1.phead p).lines.head? = some l → ∃ w, (s1.pst n).placed = some w ∧ l.n ≤ w) → (s1.queue (104 + n)).present = [] →
    ((s1.takeItem p).1 = none → s.conditionNext n p busy = (s1.takeItem p).2) ∧
    (∀ it, (s1.takeItem p).1 = some it →
      let s2 := (s1.takeItem p).2
      let r := s2.rawLine p it
      let s3 := ((s2.add R.SCU_PACE_HS (s2.accepted p it) 16).add R.SCU_PACE_BUSY busy 16).descFlags n r.1
      let lost := s3.1.any fun d => bit d 6
      let raw := if lost then s3.2.fillRaw p else r.2.2.2
      let s4 := s3.2.captureLine p r.1 (r.2.1 || lost || r.2.2.1) raw
      s.conditionNext n p busy =
        (((((s4.conditionHead p r.1 (r.2.1 || lost) r.2.2.1 raw).alignMeasure p r.1).formLines n).drainHead p).syncHeld n))) ∧
  (∀ (p n : Nat) (filled skipped : Bool) (raw : List Nat) (s : State), s.get R.PCP_SHD_HEAD_LEAF_PENDING p = noSlot →
    let l := s.get R.PCP_SHD_HEAD_LEAF_ACTIVE p
    let d := s.driftFor n p
    ∃ y, ((s.conditionHead p n filled skipped raw).phead p).lines.head? = some { n := n, filled := filled, skipped := skipped, y := y } ∧
      (s.on R.PCP_SHD_HEAD_CTRL_EN p = false → y = raw) ∧
      ((s.phead p).fades = [] → l = noSlot → y = raw) ∧
      (s.on R.PCP_SHD_HEAD_CTRL_EN p = true → (s.phead p).fades = [] → l ≠ noSlot → s.defects l = [] →
        y = raw.mapIdx fun i x => shadedBy s p l d i x) ∧
      (∀ f : Fade, s.on R.PCP_SHD_HEAD_CTRL_EN p = true → (s.phead p).fades = [f] → l ≠ noSlot → f.slot ≠ noSlot → s.defects l = [] →
        f.h ≤ n → n < f.h + 2 ^ f.log →
        y = raw.mapIdx fun i x => roundDiv (shadedBy s p f.slot (f.delta, f.gain) i x * (2 ^ f.log - (n - f.h + 1)) +
          shadedBy s p l d i x * (n - f.h + 1)) (2 ^ f.log))) ∧
  (∀ (p : Fin 96) (s : State), exec (.leafFadeEnd p) s = .next (s.endFades p)) ∧
  (∀ (p : Fin 96) (n : Nat) (f : Fade) (r : Nat) (s : State), (s.phead p).fades = [f] → (s.phead p).reached = some r → f.last ≤ r →
    s.stationOfHead p = some n → s.isSheet n = false →
    ((s.endFades p).phead p).fades = [] ∧ (s.endFades p).get R.PCP_SHD_HEAD_LEAF_FADING p = 0 ∧
      (s.endFades p).get R.PCP_SHD_HEAD_LEAF_FROM p = noSlot)

/-- What PCP_CAP_CTRL.GO asks (R142): a slot that holds the head's shape, whose size and pages fit its run, of the head's world and not
in use, a head whose station scans, no capture under way, and 2^N lines with two to spare under rejection. -/
def Sys2Proof.Stated.CaptureOk (s : State) (x : Nat) : Prop :=
  let p := s.get R.PCP_CAP_TARGET_HEAD
  let l := s.get R.PCP_CAP_TARGET_LEAF
  s.leafBytes l ≤ 4096 * s.leafPages l ∧ l < 256 ∧ s.pagesFit l = true ∧ s.pagesIn l (s.portWorld p) = true ∧ s.headScans p = true ∧
    s.capRuns = false ∧ s.slotInUse l = false ∧ s.slotShape l p = true ∧ R.PCP_CAP_CTRL_N.of x ≤ 10 ∧
    (R.PCP_CAP_CTRL_REJ.of x = 1 → 2 ≤ R.PCP_CAP_CTRL_N.of x)

/-- A capture that may start waits for the next band with its slot marked (R142, R143); one whose 2^N lines are counted writes its leaf,
reads done and raises its event (R143); one that may not start because its head's station does not scan is refused with STATE. -/
def Sys2Proof.Stated.Captures : Prop :=
  (∀ (w : World) (v : BitVec 32) (s : State), Reaches s w .PCP_CAP_CTRL 0 0 → CaptureOk s v.toNat →
    exec (.captureStart w v) s = .next (
      let t := wrote s w .PCP_CAP_CTRL 0 0 v.toNat
      let p := s.get R.PCP_CAP_TARGET_HEAD
      let l := s.get R.PCP_CAP_TARGET_LEAF
      let x := v.toNat
      let c : Capture :=
        { head := p, slot := l, startLine := t.nextHinge ((t.stationOfHead p).getD 0), white := decide (R.PCP_CAP_CTRL_KIND.of x = 1),
          nLog := R.PCP_CAP_CTRL_N.of x, rej := decide (R.PCP_CAP_CTRL_REJ.of x = 1),
          auto := decide (R.PCP_CAP_CTRL_AUTO_DEFECT.of x = 1),
          dark := (t.get R.PCP_SHD_TRK_DARK_FIRST p, t.get R.PCP_SHD_TRK_DARK_COUNT p),
          strip := (t.get R.PCP_SHD_TRK_WHITE_FIRST p, t.get R.PCP_SHD_TRK_WHITE_COUNT p) }
      (({ t with pcp := { t.pcp with cap := c } } : State).set R.PCP_CAP_STATUS_STATE 1).syncSlots [l])) ∧
  (∀ s : State, s.capRuns = true → s.pcp.cap.counted = 2 ^ s.pcp.cap.nLog →
    exec .captureDone s = .next (((s.writeCapture.set R.PCP_CAP_STATUS_STATE 3).raise Ev.captureDone).syncSlots [s.pcp.cap.slot])) ∧
  (∀ (w : World) (v : BitVec 32) (s : State), Reaches s w .PCP_CAP_CTRL 0 0 →
    let l := s.get R.PCP_CAP_TARGET_LEAF
    s.headScans (s.get R.PCP_CAP_TARGET_HEAD) = false → s.leafBytes l ≤ 4096 * s.leafPages l →
    s.pagesIn l (s.portWorld (s.get R.PCP_CAP_TARGET_HEAD)) = true →
    exec (.captureStart w v) s = .next ((s.countRefused w .state).set R.PCP_CAP_STATUS_LAST_STATUS 1))

/-- Lines are conditioned, fades end, and captures run and write their leaf. -/
def Obligations.LinePipeline : Prop := LinesAreConditioned ∧ Captures

/-- What PCP_SHD_SWAP.GO asks (R153, R154, R157): a slot of the head's shape and world that fits its run, is not in use and does not
overlap one that is, keeps its defect rules, a fade of at most 2^12 lines, and a hinge line that is a band start still to come. -/
def Sys2Proof.Stated.SwapOk (s : State) (p x : Nat) : Prop :=
  let l := R.PCP_SHD_SWAP_LEAF.of x
  let h := s.get R.PCP_SHD_SWAP_H p
  let n := (s.stationOfHead p).getD 8
  s.leafBytes l ≤ 4096 * s.leafPages l ∧ l < 256 ∧ s.pagesFit l = true ∧ s.pagesIn l (s.portWorld p) = true ∧ s.slotInUse l = false ∧
    s.overlapsUse l = false ∧ s.slotShape l p = true ∧ s.defectsOk l p = true ∧ R.PCP_SHD_SWAP_FADE.of x ≤ 12 ∧
    (h = 0 ∨ (isBandStart h (s.bandExp n) = true ∧
      ∀ r, (s.phead p).reached = some r → s.stBusy n = true → r < h))

/-- Swaps of leaves and of FIR leaves, and the writes of leaf slots and tracking (R140, R151, R153, R181, R182): a swap that may be made
becomes pending at its hinge line, an older one being replaced and counted; a slot not in use takes its write; tracking switched off
puts every plane at no drift and gain 1. -/
def Sys2Proof.Stated.LeafRegisters : Prop :=
  (∀ (w : World) (p : Fin 96) (v : BitVec 32) (s : State), Reaches s w .PCP_SHD_SWAP p 0 → SwapOk s p v.toNat →
    exec (.shadingSwapRequest w p v) s = .next (
      let t := wrote s w .PCP_SHD_SWAP p 0 v.toNat
      let l := R.PCP_SHD_SWAP_LEAF.of v.toNat
      let old := t.get R.PCP_SHD_HEAD_LEAF_PENDING p
      let u := if old = noSlot then t else (t.add R.PCP_SHD_REPLACED_COUNT 1).set R.PCP_SHD_HEAD_LEAF_REPLACED 1 p
      ((u.setPhead p { u.phead p with pendH := u.swapHinge ((s.stationOfHead p).getD 8) p, pendLog := R.PCP_SHD_SWAP_FADE.of v.toNat }).set
        R.PCP_SHD_HEAD_LEAF_PENDING l p).syncSlots [old, l])) ∧
  (∀ (w : World) (l : Fin 256) (k : Fin 3) (v : BitVec 32) (s : State),
    let id : RegId := leafReg k
    ReachesAt s w (id.addr l) →
    (s.slotInUse l = false → exec (.leafSlotWrite w l k v) s = .next (wrote s w id l 0 v.toNat)) ∧
    (s.slotInUse l = true → exec (.leafSlotWrite w l k v) s = .next ((((s.countRefused w .busy).set R.PCP_SHD_STATUS_LAST_STATUS 6).add
      R.PCP_SHD_REFUSED_COUNT 1).raise Ev.leafRefused))) ∧
  (∀ (w : World) (p : Fin 96) (v : BitVec 32) (s : State), Reaches s w .PCP_SHD_TRK_CTRL p 0 → R.PCP_SHD_TRK_CTRL_A.of v.toNat ≤ 12 →
    R.PCP_SHD_TRK_CTRL_LIM.of v.toNat ≠ 0 →
    (R.PCP_SHD_TRK_CTRL_EN.of v.toNat = 0 →
      exec (.shdTrkCtrlWrite w p v) s = .next ((wrote s w .PCP_SHD_TRK_CTRL p 0 v.toNat).each (List.range 8) fun s j =>
        (s.set R.PCP_SHD_DRIFT_DELTA 0 p j).set R.PCP_SHD_DRIFT_GAIN 0x4000 p j)) ∧
    (R.PCP_SHD_TRK_CTRL_EN.of v.toNat = 1 → R.PCP_SHD_TRK_CTRL_SRC.of v.toNat = p →
      exec (.shdTrkCtrlWrite w p v) s = .next (wrote s w .PCP_SHD_TRK_CTRL p 0 v.toNat))) ∧
  (∀ (w : World) (q : Fin 32) (v : BitVec 32) (s : State), Reaches s w .PCP_DEC_SWAP q 0 →
    let n := s.get R.PCP_DEC_CTRL_STATION q
    let h := if s.get R.PCP_DEC_SWAP_H q = 0 then s.nextHinge n else s.get R.PCP_DEC_SWAP_H q
    let lx := R.PCP_DEC_SWAP_LEAF_X.of v.toNat
    let ly := R.PCP_DEC_SWAP_LEAF_Y.of v.toNat
    s.on R.PCP_DEC_CTRL_EN q = true → s.stBusy n = true → isBandStart h (s.bandExp n) = true → s.lineDecimated n q h = false →
    s.firOk lx = true → s.firOk ly = true →
    exec (.decSwapRequest w q v) s = .next (
      let t := wrote s w .PCP_DEC_SWAP q 0 v.toNat
      let u := if t.on R.PCP_DEC_SWAP_PENDING q then t.add R.PCP_DEC_REPLACED_COUNT 1 else t
      (u.setProd q { u.prod q with pendX := lx, pendY := ly, pendH := h }).set R.PCP_DEC_SWAP_PENDING 1 q))

/-- A write of a word of the leaf and table window that nothing in use holds puts its four bytes there, low byte first, and leaves
every other byte of the window as it was; one into a page or slot in use changes no byte, is counted and raises the leaf-write-refused
event (R140, R181). -/
def Obligations.LeafWindowWrites : Prop :=
  (∀ (w : World) (a : Fin 4194304) (v : BitVec 32) (s : State), ReachesAt s w (0x2800000 + 4 * a) →
    (s.pageInUse (a.val / 1024) = false → ∃ t, exec (.leafWindowWrite w a v) s = .next t ∧
      (∀ k, k < 4 → t.leaf.byte (0x2800000 + 4 * a + k) = bits v.toNat (8 * k) 8) ∧
      (∀ b : Nat, (b < 0x2800000 + 4 * a ∨ 0x2800000 + 4 * a + 4 ≤ b) → t.leaf.byte b = s.leaf.byte b) ∧ t.regs = s.regs) ∧
    (s.pageInUse (a.val / 1024) = true →
      exec (.leafWindowWrite w a v) s = .next ((((s.countRefused w .busy).set R.PCP_SHD_STATUS_LAST_STATUS 6).add
        R.PCP_SHD_REFUSED_COUNT 1).raise Ev.leafRefused))) ∧
  (∀ (w : World) (a : Fin 16384) (v : BitVec 32) (s : State), ReachesAt s w (0x3800000 + 4 * a) →
    (s.firInUse (a.val / 32) = false → ∃ t, exec (.firSlotWrite w a v) s = .next t ∧
      (∀ k, k < 4 → t.leaf.byte (0x3800000 + 4 * a + k) = bits v.toNat (8 * k) 8) ∧
      (∀ b : Nat, (b < 0x3800000 + 4 * a ∨ 0x3800000 + 4 * a + 4 ≤ b) → t.leaf.byte b = s.leaf.byte b) ∧ t.regs = s.regs) ∧
    (s.firInUse (a.val / 32) = true →
      exec (.firSlotWrite w a v) s = .next ((((s.countRefused w .busy).set R.PCP_ALN_STATUS_LAST_STATUS 6).add
        R.PCP_DEC_REFUSED_COUNT 1).raise Ev.leafRefused)))

/-- Measurements and dovetails (R167, R168, R174, R176, R180): a measurement that may start keeps what its GO write names, waits for the next band and is busy, and
ends after its 2^N lines, a shift search with the place of the least sum, the first on a tie; a line whose dovetail columns are
overdue is late, counted and its event raised; a product takes its next stored line. -/
def Sys2Proof.Stated.Measurements : Prop :=
  (∀ (w : World) (v : BitVec 32) (s : State), Reaches s w .PCP_ALN_MEAS_CTRL 0 0 →
    let p := R.PCP_ALN_MEAS_CTRL_HEAD.of v.toNat
    let cnt := s.get R.PCP_ALN_MEAS_WIN_COUNT
    s.headScans p = true → s.on R.PCP_ALN_MEAS_CTRL_BUSY = false → cnt ≠ 0 → s.get R.PCP_ALN_MEAS_WIN_FIRST + cnt ≤ s.headCols p →
    R.PCP_ALN_MEAS_CTRL_N.of v.toNat ≤ 12 →
    exec (.alnMeasStart w v) s = .next (
      let t := wrote s w .PCP_ALN_MEAS_CTRL 0 0 v.toNat
      (({ t with pcp := { t.pcp with
          aln := { head := p, startLine := t.nextHinge ((t.stationOfHead p).getD 0), nLog := R.PCP_ALN_MEAS_CTRL_N.of v.toNat,
                   falling := decide (R.PCP_ALN_MEAS_CTRL_POL.of v.toNat = 1), level := R.PCP_ALN_MEAS_CTRL_T.of v.toNat,
                   first := s.get R.PCP_ALN_MEAS_WIN_FIRST, count := cnt } } } : State).set
        R.PCP_ALN_MEAS_CTRL_BUSY 1).each (List.range 8) fun s i => s.set R.PCP_ALN_MEAS_RES_FOUND 0 i)) ∧
  (∀ s : State, s.on R.PCP_ALN_MEAS_CTRL_BUSY = true → 2 ^ s.pcp.aln.nLog ≤ s.pcp.aln.taken →
    exec .alnMeasDone s = .next (s.set R.PCP_ALN_MEAS_CTRL_BUSY 0)) ∧
  (∀ (w : World) (v : BitVec 32) (s : State), Reaches s w .PCP_DVT_MEAS_CTRL 0 0 →
    let n := R.PCP_DVT_MEAS_CTRL_STATION.of v.toNat
    s.stState n = St.scanning → s.on R.PCP_DVT_MEAS_CTRL_BUSY = false → s.dvtV n ≠ 0 →
    R.PCP_DVT_MEAS_CTRL_POS.of v.toNat + 1 < (s.station n).heads.length → R.PCP_DVT_MEAS_CTRL_N.of v.toNat ≤ 12 →
    exec (.dvtMeasStart w v) s = .next (
      let t := wrote s w .PCP_DVT_MEAS_CTRL 0 0 v.toNat
      ({ t with pcp := { t.pcp with 
          dvt := { station := n, pos := R.PCP_DVT_MEAS_CTRL_POS.of v.toNat, nLog := R.PCP_DVT_MEAS_CTRL_N.of v.toNat,
                   startLine := t.nextHinge n } } } : State).set R.PCP_DVT_MEAS_CTRL_BUSY 1)) ∧
  (∀ s : State, s.on R.PCP_DVT_MEAS_CTRL_BUSY = true → 2 ^ s.pcp.dvt.nLog ≤ s.pcp.dvt.taken →
    let r := leastAt s.pcp.dvt.sums 0
    exec .dvtMeasDone s = .next (((s.setS R.PCP_DVT_MEAS_RES_BEST ((r.1 : Int) - 32)).setSat R.PCP_DVT_MEAS_RES_SAD
      (roundDiv r.2 (2 ^ s.pcp.dvt.nLog))).set R.PCP_DVT_MEAS_CTRL_BUSY 0)) ∧
  (∀ (l : List Nat) (i : Nat), i < l.length →
    (leastAt l 0).2 ≤ l.getD i 0 ∧ (l.getD (leastAt l 0).1 0 = (leastAt l 0).2) ∧ (i < (leastAt l 0).1 → (leastAt l 0).2 < l.getD i 0)) ∧
  (∀ (n : Fin 8) (s : State) (o : _), ((s.pst n).waiting.find? fun o => o.right.isNone && !o.late) = some o →
    o.n + s.get R.PCP_STC_ST_CTRL_DVT_TIMEOUT n ≤ (s.pst n).placed.getD 0 →
    exec (.dvtTimeout n) s = .next (((((s.add R.PCP_DVT_LATE_COUNT 1).raise Ev.dovetailLate).flushWaiting n
      ((s.pst n).waiting.map fun y => if y.n = o.n then { y with late := true } else y))).syncHeld n)) ∧
  (∀ (q : Fin 32) (e : HbmErr) (s : State), s.on R.PCP_DEC_CTRL_EN q = true → s.stBusy (s.get R.PCP_DEC_CTRL_STATION q) = true →
    ((s.sto (s.get R.PCP_DEC_CTRL_STATION q)).products.any fun p => p.1 = q.val) = true →
    exec (.productLineRead q e) s = .next ((s.productStep (s.get R.PCP_DEC_CTRL_STATION q) q e).syncHeld (s.get R.PCP_DEC_CTRL_STATION q)))

/-- Leaf slots, swaps, tracking, alignment and dovetail measurements and products. -/
def Obligations.PipelineRegisters : Prop := LeafRegisters ∧ Measurements

/-! ### The scan store and restarts -/

/-- A slot written with a line holds it (R185, R186): each sample reads back where its plane and column stand, the tag reads back the
flags, and no byte outside the slot changes. -/
def Obligations.SlotsHoldTheirLines : Prop :=
  ∀ (n home wpi flags : Nat) (samples : List Nat) (s : State), 2 * samples.length + 16 ≤ s.slotZ n →
    (∀ x ∈ samples, x < 65536) →
    let t := s.writeSlot n home wpi flags samples
    (∀ p j, p * s.lineWidth n + j < samples.length → t.slotSample n home p j = samples.getD (p * s.lineWidth n + j) 0) ∧
    t.slotFlags n home = flags % 512 ∧
    (∀ a : Nat, (a < s.slotAddr n home ∨ s.slotAddr n home + s.slotZ n ≤ a) → t.hbm.byte a = s.hbm.byte a) ∧ t.regs = s.regs

/-- The next conditioned line that the store's queue holds whole is stored, and stops, the reload and the seal follow (R186, R188, R193); a
store read queue of a running station is offered the line of its pointer (R189); an HBM in self-refresh does neither (R483). A line past F
or below WP is dropped; line WP is put; an overlap line goes to its seam slot (R201); line R closes the restart, gaps filled
(R199). The split of the HBM changes in IDLE alone, to at most 32 stacks' quarters (R183). -/
def Sys2Proof.Stated.StoreLines : Prop :=
  (∀ (n : Fin 8) (t : Int) (seam : List (Nat × HbmErr)) (s u : State), s.stBusy n = true →
    (s.smc.hbmRefresh = false → ∀ w flags samples, s.takeLine n = (some (w, flags, samples), u) →
      exec (.lineStore n ⟨t, seam⟩) s = .next ((((u.storeLine n w flags samples seam).checkStop n t).checkReload).syncHeld n)) ∧
    (s.smc.hbmRefresh = false → s.takeLine n = (none, u) → exec (.lineStore n ⟨t, seam⟩) s = .next u) ∧
    (s.smc.hbmRefresh = true → exec (.lineStore n ⟨t, seam⟩) s = .next s)) ∧
  (∀ (n w flags : Nat) (samples : List Nat) (es : List (Nat × HbmErr)) (s : State),
    let r := s.get R.SST_ST_REW_R n
    (∀ f, (s.station n).fLine = some f → f < w → s.storeLine n w flags samples es = s) ∧
    ((∀ f, (s.station n).fLine = some f → w ≤ f) →
      (s.overlapOpen n = true → w < r → s.expectedLine n = w → s.storeLine n w flags samples es = s.overlapLine n w flags samples es) ∧
      (s.overlapOpen n = false → w < s.wp n → s.storeLine n w flags samples es = s) ∧
      (s.overlapOpen n = false → (s.sto n).restart = false → w = s.wp n →
        s.storeLine n w flags samples es = s.putLine n flags samples) ∧
      (s.overlapOpen n = false → s.wp n ≤ w → (s.sto n).restart = true → r ≤ w → (s.sto n).mTriggered = true →
        let c := s.closeRestart n
        s.storeLine n w flags samples es = if w ≤ c.2.wp n then c.2.putLine n (flags ||| c.1) samples
          else (c.2.fillGap n c.1 (w - c.2.wp n)).putLine n flags samples))) ∧
  (∀ (q : Fin 262144) (e : HbmErr) (m : QMap) (n : Nat) (s : State), (s.image.qmap.find? fun m => m.queue = q.val) = some m →
    m.writer = .store n → s.stBusy n = true → s.smc.hbmRefresh = false → ((s.sto n).queues.any fun p => p.1 = q.val) = true → s.qState q = 1 →
    exec (.storeReadQueueAdvance q e) s = .next (((s.offerLine n q m e).checkReload).syncHeld n)) ∧
  (∀ (w : World) (v : BitVec 32) (s : State), Reaches s w .SST_CFG 0 0 →
    (s.dev = Dev.idle → R.SST_CFG_STORE.of v.toNat ≤ 32 →
      exec (.sstStoreSplitWrite w v) s = .next (wrote s w .SST_CFG 0 0 v.toNat).syncPages) ∧
    (s.dev ≠ Dev.idle →
      exec (.sstStoreSplitWrite w v) s = .next ((s.countRefused w .state).set R.SST_STATUS_LAST_STATUS 1)) ∧
    (s.dev = Dev.idle → 32 < R.SST_CFG_STORE.of v.toNat →
      exec (.sstStoreSplitWrite w v) s = .next ((s.countRefused w .range).set R.SST_STATUS_LAST_STATUS 3)))

/-- The steps of a restart (R196, R197, R577): from standstill a paced station withdraws its match, enters REWINDING with phase 2 and
backs its axis up to the back-up target; one without pacing does so after 1 ms without an edge, and in phase 2 it arms its match at an
instant at which its interpolated position stands at or beyond that target; the forward run starts in phase 4 at scale 1 when backlog,
cap and HOLD allow; the scan starts at scan velocity or at P_M − 2D, which a station without pacing must have crossed in the direction of
its lines (R577); a stop or a back-up out of time fails with TIMEOUT. -/
def Sys2Proof.Stated.RestartSteps : Prop :=
  (∀ (n : Fin 8) (t : Int) (s : State), s.backUpDue n = true → s.paced n = true → s.axStandstill (s.paceAxis n) = true →
    exec (.rewindBackupStart n t) s = .next (
      let u := ((s.withdrawMatch n).enterSt n St.rewinding).set R.SST_ST_REW_STATUS_PHASE 2 n
      u.backUp (s.paceAxis n) (s.backTarget n (s.get R.SST_ST_REW_M n)) (s.posOf n t) 0)) ∧
  (∀ (n : Fin 8) (t : Int) (s : State), s.backUpDue n = true → s.paced n = false → 12800000 ≤ t - (s.enc (s.encOf n)).te →
    exec (.encoderQuietTimeout n t) s = .next
      ((((s.withdrawMatch n).enterSt n St.rewinding).set R.SST_ST_REW_STATUS_PHASE 2 n).stepFour n t)) ∧
  (∀ (n : Fin 8) (t : Int) (s : State), s.isSheet n = true → s.paced n = false → s.stState n = St.rewinding →
    s.get R.SST_ST_REW_STATUS_PHASE n = 2 →
    let back := s.backTarget n (s.get R.SST_ST_REW_M n)
    (s.fwd n * (s.posOf n t - back) ≤ 0 → s.stepFour n t = s.rewindArm n t) ∧
    (0 < s.fwd n * (s.posOf n t - back) → s.stepFour n t = s)) ∧
  (∀ (n : Fin 8) (t : Int) (s : State), s.isSheet n = true → s.stState n = St.rewinding → s.get R.SST_ST_REW_STATUS_PHASE n = 3 →
    s.get R.SST_ST_BACKLOG_B n ≤ s.get R.SST_ST_THR_RESUME_LINES n →
    s.get R.SST_ST_PACE_SMIN n ≤ 64 * s.get R.SST_ST_SCALE_CAP n → s.on R.SMC_ST_STATE_HOLD n = false →
    exec (.rewindForwardRun ⟨n, t⟩) s = .next (
      let u := (s.set R.SST_ST_REW_STATUS_PHASE 4 n).setSto n { s.sto n with stopped := false, entryBelow := false }
      if u.paced n then u.axisScale n (u.paceAxis n) 1024 else u.watchEntry n (u.posOf n t))) ∧
  (∀ (n : Fin 8) (t : Int) (s : State), s.isSheet n = true → s.stState n = St.rewinding → s.get R.SST_ST_REW_STATUS_PHASE n = 4 →
    (s.sto n).stopped = false →
    let below := s.setSto n { s.sto n with entryBelow := true }
    (s.atOrPast n (s.posOf n t) (s.scanEntryPos n) = true →
      ((s.paced n = true ∨ (s.sto n).entryBelow = true) → exec (.rewindScanEntry n t) s = .next ((s.enterScan n t).syncHeld n)) ∧
      (s.paced n = false → (s.sto n).entryBelow = false → exec (.rewindScanEntry n t) s = .next s)) ∧
    (s.atOrPast n (s.posOf n t) (s.scanEntryPos n) = false →
      (s.paced n = true → s.atScan (s.paceAxis n) = true →
        exec (.rewindScanEntry n t) s = .next ((below.enterScan n t).syncHeld n)) ∧
      (s.paced n = false → exec (.rewindScanEntry n t) s = .next below))) ∧
  (∀ (n : Fin 8) (s : State), (s.sto n).restart = true →
    ((s.stState n = St.paused ∧ s.get R.SST_ST_REW_STATUS_PHASE n = 1) ∨ (s.stState n = St.rewinding ∧
      (s.get R.SST_ST_REW_STATUS_PHASE n = 2 ∨ (s.get R.SST_ST_REW_STATUS_PHASE n = 4 ∧ (s.sto n).stopped = true)))) →
    exec (.rewindTimeout n) s = .next (s.rewindFail n .timeout))

/-- What stands once every pointer at or below line `l` has left the band of `l` (R205): the marks cleared, then host, products and queues
moved past it, each with its GAP record. -/
def Sys2Proof.Stated.moved (s : State) (n l : Nat) : State :=
  let e := s.bandLast n (bandOf l (s.bandExp n))
  let s1 := s.each (s.sto n).marks fun u m =>
    if u.on R.SST_ST_MARK_VALID n m.1 = true ∧ m.2 ≤ l then (u.set R.SST_ST_MARK_VALID 0 n m.1).raise (Ev.markOvertaken n) else u
  let rp := s1.get R.SST_ST_HOST_RP n
  let s2 := if s1.on R.SST_ST_HOST_CTRL_EN n = true ∧ rp ≤ l then
    (s1.set R.SST_ST_HOST_RP (s1.nextBand n l) n).sstGap n 2 0x3F 0x3FFFF rp e else s1
  let s3 := s2.each (s2.sto n).products fun u p =>
    if p.2 ≤ l then ((u.moveProduct n p.1 (max (u.nextBand n l) (u.prodFrom n p.1))).sstGap n 1 p.1 (u.prodQueue p.1) p.2 e).add
      R.SST_ST_GAPS_COUNT 1 n else u
  s3.each (s3.sto n).queues fun u p => if p.2 ≤ l then u.passQueue n p.1 l else u

/-- Pacing and loss (R193 to R195, R203 to R205): the scale of a paced sheet station is the lesser of R193's and its deficit cap; STOP or
a cap of 0 stops it, at R the next line and M one span and 16 lines before it. A band shed writes its GAP record and moves the pointer.
One product a window sheds, in turn. The writer that needs a line's slot clears the marks, then moves host, products and queues past its
band, each with its GAP record. -/
def Sys2Proof.Stated.PacingAndShedding : Prop :=
  (∀ (n : Nat) (s : State), let b := s.get R.SST_ST_BACKLOG_B n
    let lo := s.get R.SST_ST_THR_LO_LINES n
    let stop := s.get R.SST_ST_THR_STOP_LINES n
    let cap := 64 * s.get R.SST_ST_SCALE_CAP n
    (s.isSheet n = true → s.on R.SST_ST_PACE_EN n = true →
      (b ≤ lo → s.scaleOf n = min 1024 cap) ∧
      (lo < b → b < stop → s.scaleOf n = min (max (s.get R.SST_ST_PACE_SMIN n) (1024 * (stop - b) / (stop - lo))) cap)) ∧
    ((s.isSheet n = false ∨ s.on R.SST_ST_PACE_EN n = false) → s.scaleOf n = 1024)) ∧
  (∀ (n : Nat) (t : Int) (s : State), s.isSheet n = true → (s.sto n).stopped = false → (s.station n).axisDown = false →
    let hit := s.get R.SST_ST_THR_STOP_LINES n ≤ s.get R.SST_ST_BACKLOG_B n ∨ s.get R.SST_ST_SCALE_CAP n = 0
    (hit → s.checkStop n t = s.stopStation n t) ∧ (¬ hit → s.checkStop n t = s)) ∧
  (∀ (n : Nat) (t : Int) (s : State), s.stState n = St.scanning → (s.sto n).restart = false →
    let r := (s.lst n).next
    let s1 := ((s.set R.SST_ST_REW_R r n).set R.SST_ST_REW_M (max (s.w0 n) (r - s.span n - 16)) n).set R.SST_ST_REW_STATUS_PHASE 1 n
    let s2 := s1.setSto n { s.sto n with stopped := true, restart := true, mTriggered := false, seam := [], seamOpen := false,
                                         seamEnded := false }
    let s3 := (s2.enterSt n St.paused).noteStop n t
    s.stopStation n t = if s3.paced n then s3.axisScale n (s3.paceAxis n) 0 else s3) ∧
  (∀ (n q p : Nat) (s : State), s.shedBand n q = some p →
    let e := s.bandLast n (bandOf p (s.bandExp n))
    let gap (u : State) : State := (u.sstGap n 1 q (s.prodQueue q) p e).add R.SST_ST_GAPS_COUNT 1 n
    (s.prodStarted n q = false → s.shed n q = gap (s.moveProduct n q (s.nextBand n p))) ∧
    (s.prodStarted n q = true → s.shed n q = gap (s.setSto n { s.sto n with
      shedAhead := SMap.put (s.sto n).shedAhead 0 q (SMap.get (s.sto n).shedAhead 0 q + 1) }))) ∧
  (∀ (n i : Nat) (s : State), i < 32 → let turn (k : Nat) : Nat := ((s.sto n).lastProduct + 1 + k) % 32
    (∀ k < i, s.shedBand n (turn k) = none) → (s.shedBand n (turn i)).isSome = true →
      s.shedTurn n = (((s.shed n (turn i)).setSto n { (s.shed n (turn i)).sto n with lastProduct := turn i }).syncStore n)) ∧
  (∀ (n l : Nat) (s : State), let u := moved s n l
    ((∀ h, (u.sto n).reloadMark = some h → l < h) → s.overrun n l = u.syncStore n) ∧
    (∀ h, (u.sto n).reloadMark = some h → h ≤ l → s.overrun n l = (u.passReload n l h).syncStore n))

/-- Storing lines, offering them to readers, the store split, restarts, pacing, shedding and overrun. -/
def Obligations.StoreAndRestart : Prop := StoreLines ∧ RestartSteps ∧ PacingAndShedding

/-- The host reader (R189, R190, R206): EN switched on brings the pointer into the retained lines; a rewind takes the line of a valid
mark, and STATE or RANGE refuses one without EN or to a mark never set; the pointer moves forward only, up to WP; a mark is set
inside the retained lines and cleared at any time. -/
def Obligations.HostReader : Prop :=
  (∀ (w : World) (n : Fin 8) (v : BitVec 32) (s : State), Reaches s w .SST_ST_HOST_CTRL n 0 →
    (R.SST_ST_HOST_CTRL_REWIND.of v.toNat = 0 → R.SST_ST_HOST_CTRL_EN.of v.toNat = 1 → s.on R.SST_ST_HOST_CTRL_EN n = false →
      exec (.hostReaderEnable w n v) s = .next (
        let t := wrote s w .SST_ST_HOST_CTRL n 0 v.toNat
        (t.set R.SST_ST_HOST_RP (min (t.wp n) (max (t.relLine n) (t.get R.SST_ST_HOST_RP n))) n).syncStore n)) ∧
    (R.SST_ST_HOST_CTRL_EN.of (v.toNat ||| 8) = 1 → s.on R.SST_ST_HOST_CTRL_EN n = true →
      ∀ l, SMap.find? (s.sto n).marks (R.SST_ST_HOST_CTRL_MARK.of (v.toNat ||| 8)) = some l →
      exec (.hostRewindRead w n v) s = .next (
        ((wrote s w .SST_ST_HOST_CTRL n 0 (v.toNat ||| 8)).syncStore n).rewindRead n (R.SST_ST_HOST_CTRL_MARK.of (v.toNat ||| 8)))) ∧
    (R.SST_ST_HOST_CTRL_EN.of (v.toNat ||| 8) = 0 →
      exec (.hostRewindRead w n v) s = .next ((s.countRefused w .state).set R.SST_ST_HOST_CTRL_LAST_STATUS 1 n)) ∧
    (R.SST_ST_HOST_CTRL_EN.of (v.toNat ||| 8) = 1 →
      SMap.find? (s.sto n).marks (R.SST_ST_HOST_CTRL_MARK.of (v.toNat ||| 8)) = none →
      exec (.hostRewindRead w n v) s = .next ((s.countRefused w .range).set R.SST_ST_HOST_CTRL_LAST_STATUS 3 n))) ∧
  (∀ (n m l : Nat) (s : State), SMap.find? (s.sto n).marks m = some l → s.on R.SST_ST_MARK_VALID n m = true →
    s.rewindRead n m = (s.set R.SST_ST_HOST_RP l n).syncStore n) ∧
  (∀ (w : World) (n : Fin 8) (hi : Bool) (v : BitVec 32) (s : State),
    Reaches s w (if hi then .SST_ST_HOST_RP_HI else .SST_ST_HOST_RP_LO) n 0 →
    let old := s.get R.SST_ST_HOST_RP n
    let new := if hi then spliceBits old 32 16 v.toNat else spliceBits old 0 32 v.toNat
    ((s.on R.SST_ST_HOST_CTRL_EN n = false ∨ (old ≤ new ∧ new ≤ s.wp n)) →
      exec (.hostRpWrite w n hi v) s = .next ((s.set R.SST_ST_HOST_RP new n).syncStore n)) ∧
    (s.on R.SST_ST_HOST_CTRL_EN n = true → (new < old ∨ s.wp n < new) →
      exec (.hostRpWrite w n hi v) s = .next ((s.countRefused w .range).set R.SST_ST_HOST_CTRL_LAST_STATUS 3 n))) ∧
  (∀ (w : World) (n : Fin 8) (m : Fin 4) (v : BitVec 32) (s : State), Reaches s w .SST_ST_MARK_HI n m →
    (let x := v.toNat ||| 2 ^ 29
     let l := spliceBits (s.get R.SST_ST_MARK_LINE n m) 32 16 x
     R.SST_ST_MARK_CLEAR.of x = 0 →
     (s.relLine n ≤ l → l ≤ s.wp n →
       exec (.hostMarkSet w n m v) s = .next (
         let t := wrote s w .SST_ST_MARK_HI n m x
         ((t.setSto n { t.sto n with marks := SMap.insert (t.sto n).marks m l }).set R.SST_ST_MARK_VALID 1 n m).syncStore n)) ∧
     ((l < s.relLine n ∨ s.wp n < l) →
       exec (.hostMarkSet w n m v) s = .next ((s.countRefused w .range).set R.SST_ST_HOST_CTRL_LAST_STATUS 3 n))) ∧
    (R.SST_ST_MARK_SET.of (v.toNat ||| 2 ^ 30) = 0 →
      exec (.hostMarkClear w n m v) s = .next (
        let t := wrote s w .SST_ST_MARK_HI n m (v.toNat ||| 2 ^ 30)
        ((t.setSto n { t.sto n with marks := SMap.erase (t.sto n).marks m }).set R.SST_ST_MARK_VALID 0 n m).syncStore n)))

/-! ### Queues -/

/-- A word that a writer presents to an active queue (R219, R220, R225, R228): with its drawer open it is appended, whole and in order,
the first word of a group of 64 taking a slab from the pool; the word that fills the drawer, or ends an item under CLOSE_END, closes it
and hands it over, the drawers swapping when the reader's is empty and released, and FULL reading 1 otherwise. Without a slab to take,
or behind a closed drawer, the writer waits with the word and ALLOC_WAIT or FULL reads 1. A DESCRIPTOR queue appends to its ring of
16,384 words (R222), and a word for which it has no room is lost, shown as OVERFLOW: its writer never waits (R225, R233). No drawer
loses a word. -/
def Sys2Proof.Stated.QueueWrite : Prop :=
  ∀ (q : Fin 262144) (d : BitVec 64) (fin : Bool) (s : State), (s.queue q).present = [] → s.wrResync q = false → s.qState q = 1 →
    let w : QWord := ⟨d.toNat, fin⟩
    (s.isRing q = true →
      ((s.queue q).ring.length < 16384 → ∃ t, exec (.queueWrite q d fin) s = .next t ∧ (t.queue q).ring = (s.queue q).ring ++ [w] ∧
        (t.queue q).present = []) ∧
      (16384 ≤ (s.queue q).ring.length →
        ∃ t, exec (.queueWrite q d fin) s = .next t ∧ (t.queue q).ring = (s.queue q).ring ∧ (t.queue q).present = [] ∧
          t.get R.QMX_Q_STATUS_OVERFLOW q = 1 ∧ t.get R.QMX_EVT_LAST_QUEUE = q ∧ t.get R.QMX_EVT_LAST_KIND = 4)) ∧
    (s.isRing q = false →
      let wd := s.get R.QMX_Q_STATUS_WR_DRAWER q
      let n := (s.queue q).written wd
      let closes : Prop := n + 1 = s.get R.QMX_Q_CFG_MAX q * 64 ∨ (fin = true ∧ s.on R.QMX_Q_CFG_CLOSE_END q = true)
      ((s.queue q).closed = false → (n % 64 ≠ 0 ∨ s.maySlab q = true) → ∃ t, exec (.queueWrite q d fin) s = .next t ∧
        (t.queue q).drawer wd = (s.queue q).drawer wd ++ [w] ∧ (t.queue q).drawer (1 - wd) = (s.queue q).drawer (1 - wd) ∧
        (t.queue q).present = [] ∧ t.get R.QMX_Q_STATUS_ALLOC_WAIT q = 0 ∧
        (n % 64 ≠ 0 → t.get R.QMX_POOL_FREE_FREE = s.get R.QMX_POOL_FREE_FREE) ∧
        (n % 64 = 0 → s.get R.QMX_POOL_FREE_FREE ≠ 0 →
          t.get R.QMX_POOL_FREE_FREE = (s.get R.QMX_POOL_FREE_FREE - 1) % 2 ^ 17) ∧
        (¬ closes → t.get R.QMX_Q_STATUS_WR_DRAWER q = wd ∧ t.get R.QMX_Q_STATUS_FULL q = 0 ∧ (t.queue q).closed = false) ∧
        (closes → wd ≤ 1 → (s.queue q).drawer (1 - wd) = [] → (s.queue q).written (1 - wd) = 0 →
          t.get R.QMX_Q_STATUS_WR_DRAWER q = 1 - wd ∧ t.get R.QMX_Q_STATUS_FULL q = 0 ∧ (t.queue q).closed = false) ∧
        (closes → (s.queue q).drawer (1 - wd) ≠ [] →
          t.get R.QMX_Q_STATUS_WR_DRAWER q = wd ∧ t.get R.QMX_Q_STATUS_FULL q = 1 ∧ (t.queue q).closed = true)) ∧
      ((s.queue q).closed = false → n % 64 = 0 → s.maySlab q = false →
        exec (.queueWrite q d fin) s = .next ((s.set R.QMX_Q_STATUS_ALLOC_WAIT 1 q).setQueue q { s.queue q with present := [w] })) ∧
      ((s.queue q).closed = true →
        exec (.queueWrite q d fin) s = .next ((s.set R.QMX_Q_STATUS_FULL 1 q).setQueue q { s.queue q with present := [w] })))

/-- A reader's next word (R215, R216, R222, R224, R238): the oldest of its drawer is delivered as it stands when its check is clean, and as
it stands and counted when a single bit was corrected; an uncorrectable one is delivered as a poison terminator, counted and reported,
and the rest of its item is to be discarded. The rest of the drawer stays. From an empty queue the reader waits with READ_WAIT 1 and
nothing else changes; a reader whose open item a flush cut short gets the TRUNC terminator first. Each reader of a DESCRIPTOR ring takes
the word at its own place once the END of its descriptor is written, and waits until then; one in resync discards the words up to an END
first, and counts them. -/
def Sys2Proof.Stated.QueueRead : Prop :=
  (∀ (q : Fin 262144) (second : Bool) (s : State), s.isRing q = false → (s.queue q).truncOwed = false →
    s.on R.QMX_Q_STATUS_RD_RESYNC q = false →
    let rd := 1 - s.get R.QMX_Q_STATUS_WR_DRAWER q
    (∀ w ws, (s.queue q).drawer rd = w :: ws →
      (∀ ecc, ecc ≠ Ecc.uncorrectable → ∃ t, exec (.queueRead q second ecc) s = .next t ∧ (ws ≠ [] → (t.queue q).drawer rd = ws) ∧
        (t.queue q).intake = (s.queue q).intake ++ [{ data := w.data, fin := w.fin }] ∧ t.get R.QMX_Q_STATUS_READ_WAIT q = 0 ∧
        t.get R.QMX_Q_STATUS_RD_RESYNC q = 0 ∧
        t.get R.QMX_Q_ECC_CORR q = (if ecc = .corrected then (s.addSat R.QMX_Q_ECC_CORR 1 q).get R.QMX_Q_ECC_CORR q else
          s.get R.QMX_Q_ECC_CORR q)) ∧
      (∃ t, exec (.queueRead q second .uncorrectable) s = .next t ∧ (ws ≠ [] → (t.queue q).drawer rd = ws) ∧
        (t.queue q).intake = (s.queue q).intake ++ [{ fin := true, poison := true }] ∧ t.get R.QMX_Q_STATUS_RD_RESYNC q = 1 ∧
        t.get R.QMX_EVT_LAST_QUEUE = q ∧ t.get R.QMX_EVT_LAST_KIND = 3)) ∧
    (∀ ecc, (s.queue q).drawer rd = [] →
      exec (.queueRead q second ecc) s = .next (s.set R.QMX_Q_STATUS_READ_WAIT 1 q))) ∧
  (∀ (q : Fin 262144) (second : Bool) (ecc : Ecc) (s : State), s.isRing q = false → (s.queue q).truncOwed = true →
    ∃ t, exec (.queueRead q second ecc) s = .next t ∧ (t.queue q).truncOwed = false ∧
      (t.queue q).intake = (s.queue q).intake ++ [{ fin := true, trunc := true }] ∧ (t.queue q).d0 = (s.queue q).d0 ∧
      (t.queue q).d1 = (s.queue q).d1) ∧
  (∀ (q : Fin 262144) (second : Bool) (s : State), s.isRing q = true → ((s.queue q).side second).owed = false →
    let y := (s.queue q).side second
    let rest := (s.queue q).ring.drop y.pos
    (rest.any (·.fin) = false → ∀ ecc, exec (.queueRead q second ecc) s = .next (s.putSide q second { y with waits := true })) ∧
    (∀ w ws, rest = w :: ws → rest.any (·.fin) = true → y.skip = false →
      ∃ t, exec (.queueRead q second .clean) s = .next t ∧
        ((t.queue q).side second).intake = y.intake ++ [{ data := w.data, fin := w.fin }] ∧ ((t.queue q).side second).waits = false) ∧
    (∀ ds d w ws, rest = ds ++ [⟨d, true⟩] ++ w :: ws → ds.all (fun x => !x.fin) = true → (w :: ws).any (·.fin) = true →
      y.skip = true → (s.queue q).present = [] →
      ∃ t, exec (.queueRead q second .clean) s = .next t ∧ ((t.queue q).side second).skip = false ∧
        ((t.queue q).side second).intake = y.intake ++ [{ data := w.data, fin := w.fin }] ∧
        t.get R.QMX_Q_DISC_COUNT q = (s.add R.QMX_Q_DISC_COUNT 1 q).get R.QMX_Q_DISC_COUNT q))

/-- What a queue does with a word written and a word read. -/
def Obligations.QueueWords : Prop := QueueWrite ∧ QueueRead

/-- What time does to queues: an idle drawer that holds words is closed and handed over to a waiting reader (R223); a wait that lasts sets
its stall bit, is captured in QMX_EVT_LAST and raises the queue stall event, once (R226); the oldest slabs in transit arrive in the free
pool (R221); one that is late sets AGE_FAIL (R241); a queue of a station back in IDLE that it was given is disabled when it may be
(R210). -/
def Sys2Proof.Stated.QueueTimers : Prop :=
  (∀ (q : Fin 262144) (s : State), s.get R.QMX_Q_CFG_IDLE q ≠ 0 → s.isRing q = false → s.on R.QMX_Q_STATUS_READ_WAIT q = true →
    let wd := s.get R.QMX_Q_STATUS_WR_DRAWER q
    (s.queue q).drawer (1 - wd) = [] → (s.queue q).drawer wd ≠ [] → (s.queue q).closed = false →
    exec (.queueIdleTimeout q) s = .next ((s.closeDrawer q).drain q)) ∧
  (∀ (q : Fin 262144) (s : State), s.get R.QMX_Q_CFG_STALL q ≠ 0 → s.on R.QMX_Q_STATUS_READ_WAIT q = true →
    (s.queue q).rdStalled = false →
    exec (.queueStallTimeout q false) s = .next (((((s.setQueue q { s.queue q with rdStalled := true }).set R.QMX_Q_STATUS_RD_STALL 1 q
      ).set R.QMX_EVT_LAST_QUEUE q).set R.QMX_EVT_LAST_KIND 1).raise Ev.queueStall)) ∧
  (∀ (q : Fin 262144) (s : State), s.get R.QMX_Q_CFG_STALL q ≠ 0 →
    (s.on R.QMX_Q_STATUS_FULL q = true ∨ s.on R.QMX_Q_STATUS_ALLOC_WAIT q = true) → (s.queue q).wrStalled = false →
    exec (.queueStallTimeout q true) s = .next (((((s.setQueue q { s.queue q with wrStalled := true }).set R.QMX_Q_STATUS_WR_STALL 1 q
      ).set R.QMX_EVT_LAST_QUEUE q).set R.QMX_EVT_LAST_KIND 2).raise Ev.queueStall)) ∧
  (∀ (q : Fin 262144) (s : State),
    ((s.queue q).rdStalled = true → exec (.queueStallTimeout q false) s = .next s) ∧
    ((s.queue q).wrStalled = true → exec (.queueStallTimeout q true) s = .next s)) ∧
  (∀ s : State, exec .slabTransitArrive s = .next s.transitArrive.finishAborts) ∧
  (∀ (s : State) (x : Transit) (xs : List Transit), s.qmx.transit = x :: xs → x.flush = false →
    (∀ e ∈ s.qmx.q, e.1 < 262144 ∧ s.on R.QMX_Q_STATUS_ALLOC_WAIT e.1 = false) →
    (s.transitArrive.qmx.transit = xs ∧
      s.transitArrive.get R.QMX_POOL_FREE_FREE = (s.get R.QMX_POOL_FREE_FREE + x.slabs) % 2 ^ 17)) ∧
  (∀ s : State, s.qmx.transit ≠ [] → exec .slabAgeFail s = .next (s.set R.QMX_AUD_STATUS_AGE_FAIL 1)) ∧
  (∀ (q : Fin 262144) (s : State), s.get R.QMX_Q_CFG_STATION q < 8 → s.stBusy (s.get R.QMX_Q_CFG_STATION q) = false →
    (q.val < 256 ∨ q.val ∈ s.stationQueues (s.get R.QMX_Q_CFG_STATION q)) →
    exec (.queueAutoDisable q) s = .next (s.autoDisable q))

/-- QMX_Q_CFG and QMX_Q_CMD of a queue from 256 on: one that is off and may be enabled takes its fields and is enabled, and one that may not
is refused with the status of R231; the fields of an enabled queue do not change (STATE, R232); one that holds nothing and waits for
nothing is disabled, and one that is busy stays, with BUSY. A flush of any queue that is on discards every word it holds and leaves its
readers' open items to be cut short (R237, R238), and is refused with STATE while the queue is off (R236). -/
def Sys2Proof.Stated.QueueCommands : Prop :=
  (∀ (w : World) (q : Fin 262144) (v : BitVec 32) (s : State), Reaches s w .QMX_Q_CFG q 0 → 256 ≤ q.val →
    (s.on R.QMX_Q_CFG_EN q = false → (s.putQueueFields q v.toNat).enableCheck q = none →
      exec (.queueEnable w q v) s = .next ((s.putQueueFields q v.toNat).enableQueue q)) ∧
    (s.on R.QMX_Q_CFG_EN q = false → ∀ c, (s.putQueueFields q v.toNat).enableCheck q = some c →
      exec (.queueEnable w q v) s = .next ((s.countRefused w c).set R.QMX_Q_CMD_LAST_STATUS c.code q)) ∧
    (s.on R.QMX_Q_CFG_EN q = true → s.changes queueFields q 0 v.toNat = true →
      exec (.queueEnable w q v) s = .next ((s.countRefused w .state).set R.QMX_Q_CMD_LAST_STATUS 1 q))) ∧
  (∀ (w : World) (q : Fin 262144) (v : BitVec 32) (s : State), Reaches s w .QMX_Q_CFG q 0 → 256 ≤ q.val →
    s.on R.QMX_Q_CFG_EN q = true → s.changes queueFields q 0 v.toNat = false →
    (s.queueBusy q = false → exec (.queueDisable w q v) s = .next (s.disableQueue q)) ∧
    (s.queueBusy q = true →
      exec (.queueDisable w q v) s = .next ((s.countRefused w .busy).set R.QMX_Q_CMD_LAST_STATUS 6 q))) ∧
  (∀ (w : World) (q : Fin 262144) (s : State), Reaches s w .QMX_Q_CMD q 0 →
    (s.on R.QMX_Q_CFG_EN q = true → ¬ (s.get R.QMX_Q_CFG_STATION q < 8 ∧ s.stBusy (s.get R.QMX_Q_CFG_STATION q) = true) →
      s.qState q ≠ 2 → (s.queue q).present = [] →
      ∃ t, exec (.queueFlush w q) s = .next t ∧ (t.queue q).words = 0 ∧ (t.queue q).closed = false ∧
        (t.queue q).truncOwed = (s.on R.QMX_Q_STATUS_RD_OPEN q && !s.isRing q) ∧
        ∀ second, ((t.queue q).side second).owed = ((s.queue q).side second).opened) ∧
    (s.on R.QMX_Q_CFG_EN q = false →
      exec (.queueFlush w q) s = .next ((s.countRefused w .state).set R.QMX_Q_CMD_LAST_STATUS 1 q)))

/-- Queue timeouts, slab transit, enable, disable and flush. -/
def Obligations.QueueUpkeep : Prop := QueueTimers ∧ QueueCommands

/-! ### Inspection engines -/

/-- A running engine's cell that holds its operands fires (R38, R252, R270): the busy ticks are counted for its cluster; below 44 it is a
cell, from 44 on a port; a corrected store error is counted, an uncorrectable one faults the engine with kind 1 instead, and one of the
overflow run with kind 2 (R246, R248). A ready cell out of time faults it with kind 6. -/
def Sys2Proof.Stated.CellsFire : Prop :=
  (∀ (e : Fin 512) (c : Fin 48) (busy : Nat) (s : State), s.engState e = Eng.running → (s.dev ≠ Dev.thermalLatch ∨ c.val < 44) →
    s.cellReady e c = true →
    let u := s.add R.SCU_PACE_BUSY busy (e.val / 32)
    (c.val < 44 → exec (.cellFire e c .none busy) s = .next ((u.fireCell e c).afterFiring e)) ∧
    (44 ≤ c.val → exec (.cellFire e c .none busy) s = .next ((u.firePort e c).afterFiring e)) ∧
    (c.val < 44 → exec (.cellFire e c .corrected busy) s = .next (((u.addSat R.IEA_ENG_LS_ECC_CORR 1 e).fireCell e c).afterFiring e)) ∧
    (exec (.cellFire e c .uncorrectable busy) s = .next (((u.addSat R.IEA_ENG_LS_ECC_UNCORR 1 e).faultEngine e 1 c).afterFiring e)) ∧
    (exec (.cellFire e c .overflow busy) s = .next ((u.faultEngine e 2 c).afterFiring e))) ∧
  (∀ (e : Fin 512) (c : Fin 48) (s : State), s.engState e = Eng.running → s.cellReady e c = true →
    exec (.handshakeTimeoutFault e c) s = .next ((s.faultEngine e 6 c).afterFiring e))

/-- The cell library (R281 to R289). A result is rounded to nearest and held to the lane's range; the operations are those of R282, lane by
lane, MAC in 40 bits; a lookup reads its table at u / 2^ISH, and past its end the last entry; a window's MIN and MAX are bounds its
samples reach, its TAP one sample, and its edges read by EDGE; a reduce sums, bounds, finds the first maximum or counts. -/
def Sys2Proof.Stated.CellLibrary : Prop :=
  (∀ (sh : Nat) (r : Int), let d : Int := ((2 ^ sh : Nat) : Int)
    let u : Int := wrLane false (roundDivI r (2 ^ sh))
    let v : Int := toSigned 16 (wrLane true (roundDivI r (2 ^ sh)))
    (r ≤ 0 → u = 0) ∧ (65535 * d ≤ r → u = 65535) ∧ (0 ≤ r → r ≤ 65535 * d → -d ≤ 2 * (u * d - r) ∧ 2 * (u * d - r) ≤ d) ∧
    (r ≤ -32768 * d → v = -32768) ∧ (32767 * d ≤ r → v = 32767) ∧
    (-32768 * d ≤ r → r ≤ 32767 * d → -d ≤ 2 * (v * d - r) ∧ 2 * (v * d - r) ≤ d)) ∧
  (∀ (g : CellCfg) (a b c : Nat), let x := rdLane g.isign a
    let y := rdLane g.isign b
    let z := rdLane g.isign c
    let sh := bits g.tw 4 5
    let out (r : Int) : Nat := wrLane g.osign (roundDivI r (2 ^ sh))
    let op (n v : Nat) : Prop := bits g.tw 0 4 = n → arithLane g a b c = v
    op 0 (out x) ∧ op 1 (out (x + y)) ∧ op 2 (out (x - y)) ∧ op 3 (out (if y ≤ x then x - y else y - x)) ∧ op 4 (out (x * y)) ∧
    op 5 (out (x * y + z * (2 ^ sh : Nat))) ∧ op 7 (out (min (max x y) z)) ∧ op 8 (out (min x y)) ∧ op 9 (out (max x y)) ∧
    op 10 (if condHolds (bits g.tw 9 3) x y then 0xFFFF else 0) ∧ op 11 (if c = 0 then b else a) ∧ op 12 (a &&& b) ∧
    op 13 (a ||| b) ∧ op 14 (a ^^^ b)) ∧
  (∀ (g : CellCfg) (a b c i : Nat), i < 4 →
    (bits g.tw 0 4 ≠ 15 →
      lane (arithWord g a b c) i = arithLane g (lane a i) (lane b i) (lane c i)) ∧
    (bits g.tw 0 4 = 15 → lane (arithWord g a b c) i = if i = 0 then wrLane g.osign (roundDivI (rdLane g.isign (lane a 0) +
      rdLane g.isign (lane a 1) + rdLane g.isign (lane a 2) + rdLane g.isign (lane a 3)) (2 ^ bits g.tw 4 5)) else 0) ∧
    ∀ acc, (macStep g acc a b).getD i 0 = satS 40 (acc.getD i 0 + rdLane g.isign (lane a i) * rdLane g.isign (lane b i))) ∧
  (∀ (x : Engine) (g : CellCfg) (a : Nat), let ish := bits g.tw 0 4
    let u := if g.isign then (toSigned 16 a + 32768).toNat else a
    (4095 < u / 2 ^ ish → bit g.tw 4 = false → lookupLane x g a = x.ls16 g.base 4095) ∧
    (u / 2 ^ ish ≤ 4095 → bit g.tw 4 = false → lookupLane x g a = x.ls16 g.base (u / 2 ^ ish)) ∧
    (u / 2 ^ ish < 4095 → bit g.tw 4 = true → u % 2 ^ ish = 0 →
      lookupLane x g a = x.ls16 g.base (u / 2 ^ ish))) ∧
  (∀ (x : Engine) (g : CellCfg) (rows : List Row) (i p : Nat) (cx : Int), winSamples g rows i cx ≠ [] →
    (bits g.tw 6 2 = 2 → (∃ v ∈ winSamples g rows i cx, winResult x g rows i p cx = wrLane g.osign (rdLane g.isign v) ∧
      ∀ u ∈ winSamples g rows i cx, rdLane g.isign v ≤ rdLane g.isign u)) ∧
    (bits g.tw 6 2 = 3 → (∃ v ∈ winSamples g rows i cx, winResult x g rows i p cx = wrLane g.osign (rdLane g.isign v) ∧
      ∀ u ∈ winSamples g rows i cx, rdLane g.isign u ≤ rdLane g.isign v)) ∧
    (bits g.tw 6 2 = 0 → winResult x g rows i p cx = wrLane g.osign (rdLane g.isign
      (rowSample g (rowAt rows i (toSigned 3 (bits g.tw 10 3))).words (cx + toSigned 3 (bits g.tw 13 3)))))) ∧
  (∀ (g : CellCfg) (ws : List Nat) (x : Int), (x < 0 ∨ 4 * (winWidth g : Int) ≤ x) →
    rowSample g ws x = if bit g.tw 8 then 0 else if x < 0 then lane (ws.getD 0 0) 0 else lane (ws.getD (winWidth g - 1) 0) 3) ∧
  (∀ (g : CellCfg) (n m : Int) (i a b k : Nat), let v := rdLane g.isign a
    (redOp g = 0 → redVal g (some (n, i)) a b k = some (satS 40 (n + v), 0) ∧ redVal g none a b k = some (satS 40 v, 0)) ∧
    (redOp g = 1 → redVal g (some (n, i)) a b k = some (min n v, 0)) ∧ (redOp g = 2 → redVal g (some (n, i)) a b k = some (max n v, 0)) ∧
    (redOp g = 3 → (n < v → redVal g (some (n, i)) a b k = some (v, k)) ∧ (v ≤ n → redVal g (some (n, i)) a b k = some (n, i))) ∧
    (redOp g = 4 → redVal g (some (m, i)) a b k = some (if condHolds (bits g.tw 6 3) v (rdLane g.isign b) then min 65535 (m + 1) else m, 0)))

/-- What a firing leaves (R252, R276, R282 to R284, R291). With its operand words held and its output place free, an arithmetic or lookup
cell of one input passes a header on, and within an item puts its result there; a MAC puts one word a run; one that meets a band mark on
some operands only faults its engine with kind 3. An input port passes its queue's next word on, and one that is not used does nothing. -/
def Sys2Proof.Stated.CellFirings : Prop :=
  (∀ (s : State) (e c : Nat), let x := s.engine e
    (∀ kind, x.fire c (s.bandExp (s.engStation e)) s.fresh = .fault kind → s.fireCell e c = s.faultEngine e kind c) ∧
    (∀ y n, x.fire c (s.bandExp (s.engStation e)) s.fresh = .done y n → x.meetsMarker c = false →
      s.fireCell e c = ({ s.setEngine e y with fresh := s.fresh + n } : State).countFiring e c)) ∧
  (∀ (x : Engine) (c src kx free : Nat) (w : FWord), c < 32 → (x.cfgOf c).used = true → (x.cell c).out = none → (x.cell c).pend = [] →
    (x.cell c).skipping = false → (x.cfgOf c).cellInputs c = [(0, src)] → x.peek c (0, src) = some w → w.marker = false →
    (x.cfgOf c).enabled w.phase = true → (x.cell c).hold = false →
    let g := x.cfgOf c
    ∃ y n, x.fire c kx free = .done y n ∧
      ((x.cell c).inItem = false → (y.cell c).out = some w ∧ (y.cell c).inItem = !w.fin) ∧
      ((x.cell c).inItem = true → c < 24 → bits g.tw 0 4 ≠ 6 →
        (y.cell c).out = some { w with data := arithWord g w.data (x.operand g [(0, w)] 1 w.phase) (x.operand g [(0, w)] 2 w.phase) }) ∧
      ((x.cell c).inItem = true → 24 ≤ c → (y.cell c).out = some { w with data := lookupWord x g w.data })) ∧
  (∀ (x : Engine) (c : Nat) (g : CellCfg) (w : FWord) (b d : Nat), bits g.tw 0 4 = 6 → (x.cell c).out = none →
    let acc := macStep g (x.cell c).acc w.data b
    ∃ y, x.fireArith c g w b d = .done y 0 ∧
      ((w.fin = true ∨ (x.cell c).run = bits g.tw 16 16) →
        (y.cell c).out = some { w with data := macWord g acc } ∧ (y.cell c).acc = [] ∧ (y.cell c).run = 0) ∧
      (¬ (w.fin = true ∨ (x.cell c).run = bits g.tw 16 16) →
        (y.cell c).out = none ∧ (y.cell c).acc = acc ∧ (y.cell c).run = (x.cell c).run + 1)) ∧
  (∀ (x : Engine) (c a b kx free : Nat) (v w : FWord), (x.cfgOf c).used = true → (x.cell c).out = none → (x.cell c).pend = [] →
    (x.cell c).skipping = false → (x.cfgOf c).cellInputs c = [(0, a), (1, b)] → x.peek c (0, a) = some v → x.peek c (1, b) = some w →
    v.marker = false → w.marker = false → v.void = false → w.void = false → v.mark ≠ w.mark → x.fire c kx free = .fault 3) ∧
  (∀ (s : State) (e i : Nat), (s.on R.IEA_ENG_PORT_USED e i = false → s.firePort e (44 + i) = s) ∧
    (∀ w ws, s.on R.IEA_ENG_PORT_USED e i = true → s.on R.IEA_ENG_PORT_DIR e i = false →
      ((s.engine e).cell (44 + i)).out = none → ((s.engine e).cell (44 + i)).pend = w :: ws →
      let t := s.firePort e (44 + i)
      ((t.engine e).cell (44 + i)).out = some w ∧ ((t.engine e).cell (44 + i)).pend = ws))

/-- The host and a running engine (R249, R265, R268): CONT lets a sequencer that waits for the host go on, and is refused with STATE
otherwise; a write of local store puts its word at ADDR, no other word changing, and advances ADDR, and meets BUSY while the engine
runs, reloads or is faulted; a read shows the word and advances ADDR, a corrected error is counted, and an uncorrectable one shows a free
value and faults the engine (R246). -/
def Sys2Proof.Stated.EngineHostAccess : Prop :=
  (∀ (w : World) (e : Fin 512) (s : State), Reaches s w .IEA_ENG_CMD e 0 →
    ((s.engState e = Eng.running ∧ (s.engine e).wait = .host) →
      exec (.seqContinue w e) s = .next ((s.seqStep e .cont).afterFiring e)) ∧
    (¬ (s.engState e = Eng.running ∧ (s.engine e).wait = .host) →
      exec (.seqContinue w e) s = .next ((s.countRefused w .state).set R.IEA_ENG_CMD_LAST_STATUS 1 e))) ∧
  (∀ (w : World) (e : Fin 512) (v : BitVec 32) (err : LsErr) (s : State), Reaches s w .IEA_ENG_LS_DATA e 0 →
    let a := s.get R.IEA_ENG_LS_ADDR_ADDR e
    (s.engState e ∉ [Eng.running, Eng.reloading, Eng.faulted] → ∃ t, exec (.localStoreAccess w e ⟨some v, err⟩) s = .next t ∧
      (t.engine e).lsWord a = v.toNat ∧ (∀ b, b ≠ a → (t.engine e).lsWord b = (s.engine e).lsWord b) ∧
      t.get R.IEA_ENG_LS_ADDR_ADDR e = (a + 1) % 65536) ∧
    (s.engState e ∈ [Eng.running, Eng.reloading, Eng.faulted] →
      exec (.localStoreAccess w e ⟨some v, err⟩) s = .next ((s.countRefused w .busy).set R.IEA_ENG_CMD_LAST_STATUS 6 e))) ∧
  (∀ (w : World) (e : Fin 512) (s : State), s.held = false → (w = .secure ∨ s.addrWorld (RegId.addr .IEA_ENG_LS_DATA e) = .nonSecure) →
    let a := s.get R.IEA_ENG_LS_ADDR_ADDR e
    let shown (v : Nat) : State := s.emit (.readData w (RegId.addr .IEA_ENG_LS_DATA e) (leBytes 4 v))
    let u := shown ((s.engine e).lsWord a)
    exec (.localStoreAccess w e ⟨none, .none⟩) s = .next ((u.afterFiring e).set R.IEA_ENG_LS_ADDR_ADDR (a + 1) e) ∧
    exec (.localStoreAccess w e ⟨none, .corrected⟩) s = .next (((u.addSat R.IEA_ENG_LS_ECC_CORR 1 e).afterFiring e).set
      R.IEA_ENG_LS_ADDR_ADDR (a + 1) e) ∧
    exec (.localStoreAccess w e ⟨none, .uncorrectable⟩) s = .next (
      let x := shown (Config.freeStore s.fresh % 2 ^ 32)
      ((((({ x with fresh := x.fresh + 1 } : State).addSat R.IEA_ENG_LS_ECC_UNCORR 1 e).faultEngine e 1 0x3F).afterFiring e).set
        R.IEA_ENG_LS_ADDR_ADDR (a + 1) e)))

/-- Cells and ports of running engines fire, what each cell computes, and host access to engines. -/
def Obligations.Engines : Prop := CellsFire ∧ CellLibrary ∧ CellFirings ∧ EngineHostAccess

/-! ### Structure images and reloads -/

/-- A structure load (R297, R314, R315): GO starts the read of LENGTH bytes as LENGTH stands then; LENGTH 0 takes the structure out of
force; BUSY while a load runs, LENGTH outside 64 to 2^28, what R314 names for a full load, and RANGE without an HBM window refuse it
before anything is read. What was read is refused with its first failure, committed whole, or as a partial image goes on to its hinge
and admission. -/
def Sys2Proof.Stated.ImageLoads : Prop :=
  (∀ (w : World) (v : BitVec 32) (part : Bool) (s : State), Reaches s w .SCU_IMG_CTRL 0 0 → R.SCU_IMG_CTRL_GO.of v.toNat = 1 →
    let t := wrote s w .SCU_IMG_CTRL 0 0 v.toNat
    let len := s.get R.SCU_IMG_LEN_LENGTH
    let refused (f : ImgFail) : Prop := exec (.imageLoad w ⟨v, part⟩) s = .next ((s.countRefused w f.status).imageRefused f)
    (s.on R.SCU_IMG_STATUS_BUSY = true →
      exec (.imageLoad w ⟨v, part⟩) s = .next ((s.countRefused w .busy).set R.SCU_IMG_STATUS_STATUS 6)) ∧
    (s.on R.SCU_IMG_STATUS_BUSY = false →
      (len = 0 → exec (.imageLoad w ⟨v, part⟩) s = .next t.imageOk) ∧
      (64 ≤ len → len ≤ 268435456 → (part = true ∨ t.fullLoadFail = none) → t.get R.SST_CFG_STORE ≠ 32 →
        exec (.imageLoad w ⟨v, part⟩) s = .next
          (({ t with scu := { t.scu with loadLen := len, loadPart := part } } : State).set R.SCU_IMG_STATUS_BUSY 1)) ∧
      (len ≠ 0 → (len < 64 ∨ 268435456 < len) → refused { stage := 0, status := .length, off := 0 }) ∧
      (64 ≤ len → len ≤ 268435456 → part = false → ∀ f, t.fullLoadFail = some f → refused f) ∧
      (64 ≤ len → len ≤ 268435456 → (part = true ∨ t.fullLoadFail = none) → t.get R.SST_CFG_STORE = 32 →
        refused { stage := 0, status := .range, off := 0 }))) ∧
  (∀ (o : ImageObs) (t2 : Option (Fin 16)) (s : State), s.on R.SCU_IMG_STATUS_BUSY = true → s.scu.waiting = none →
    let b : ImgFile := o.bytes
    let m := b.parse (s.imageSects b)
    let policy := s.on R.SMC_POLICY_ALLOW_UNTESTED && (s.stage4 b).isSome
    (s.scu.loadPart = true → o.readOk = true → b.isPart = false → ∀ f, s.fullLoadFail = some f →
      exec (.imageChecksDone o t2) s = .next (s.imageRefused f)) ∧
    ((s.scu.loadPart = false ∨ b.isPart = true ∨ s.fullLoadFail = none) → ∀ f, s.imageFail o = some f →
      exec (.imageChecksDone o t2) s = .next (s.imageRefused f)) ∧
    ((s.scu.loadPart = false ∨ s.fullLoadFail = none) → b.isPart = false → s.imageFail o = none →
      exec (.imageChecksDone o t2) s = .next (s.commitImage m policy)) ∧
    (b.isPart = true → s.imageFail o = none →
      exec (.imageChecksDone o t2) s = .next (s.partialLoad m policy (t2.map (·.val)))))

/-- The stages of an image load (R298 to R315): the first check that fails decides stage, status and offset. An unreadable image is ABSENT at
stage 1; a header field meets the status and offset of R299; a bad signature is INTEGRITY at stage 3, a value outside its tested range
VERSION at stage 4 unless the policy lets it pass, a bad digest INTEGRITY at stage 5, a bad section RANGE, LENGTH or WORLD at stage 6,
and a world that differs WORLD at stage 7. -/
def Sys2Proof.Stated.ImageChecks : Prop :=
  (∀ (o : ImageObs) (s : State), o.readOk = false → s.imageFail o = some ⟨1, .absent, 0xFFFF, 0⟩) ∧
  (∀ (o : ImageObs) (s : State), o.readOk = true → ImgFile.isPart o.bytes = true → s.get R.SCU_RLD_STATUS_PHASE ≠ 0 →
    s.imageFail o = some ⟨2, .busy, 0xFFFF, 6⟩) ∧
  (∀ (o : ImageObs) (s : State), let b : ImgFile := o.bytes
    let secs := s.imageSects b
    let m := b.parse secs
    o.readOk = true → b.isPart = false →
    let magic := b.take 4 = [0x56, 0x43, 0x53, 0x49]
    let sized := 64 ≤ b.total ∧ b.total ≤ 268435456 ∧ b.total ≤ s.scu.loadLen
    (¬ magic → s.imageFail o = some ⟨2, .range, 0xFFFF, 0⟩) ∧
    (magic → field b 5 1 ≠ 1 → s.imageFail o = some ⟨2, .version, 0xFFFF, 4⟩) ∧
    (magic → field b 5 1 = 1 → 4 ≤ b.flags → s.imageFail o = some ⟨2, .range, 0xFFFF, 6⟩) ∧
    (magic → field b 5 1 = 1 → b.flags < 4 → ¬ sized → s.imageFail o = some ⟨2, .length, 0xFFFF, 8⟩) ∧
    (magic → field b 5 1 = 1 → b.flags < 4 → sized → b.total < b.manOff + b.manLen → s.imageFail o = some ⟨2, .length, 0xFFFF, 12⟩) ∧
    (magic → field b 5 1 = 1 → b.flags < 4 → sized → b.manOff + b.manLen ≤ b.total → b.manLen ≠ 96 + 16 * b.nR + 96 * b.nS →
      s.imageFail o = some ⟨2, .length, 0xFFFF, 16⟩) ∧
    (b.stage2 s.scu.loadLen secs = none →
      (s.ownerSigned b = false → s.imageFail o = some ⟨3, .integrity, 0xFFFF, b.sigOff⟩) ∧
      (s.ownerSigned b = true →
        (s.on R.SMC_POLICY_ALLOW_UNTESTED = false → ∀ f, s.stage4 b = some f → s.imageFail o = some f) ∧
        ((s.on R.SMC_POLICY_ALLOW_UNTESTED = true ∨ s.stage4 b = none) →
          (∀ x, (secs.find? fun x => !x.good) = some x → s.imageFail o = some ⟨5, .integrity, x.idx, x.entry⟩) ∧
          ((secs.find? fun x => !x.good) = none → ∀ f, s.stage6 secs m = some f → s.imageFail o = some f) ∧
          ((secs.find? fun x => !x.good) = none → s.stage6 secs m = none → ∀ x, sectOf secs 4 = some x →
            s.imageFail o = s.stage7 x m))))) ∧
  (∀ (b : ImgFile) (s : State) (f : ImgFail), s.stage4 b = some f → f.stage = 4 ∧ f.status = .version ∧ ∃ k < b.nR,
    let e := b.rangeOff k
    let v := s.ifaceValue (field b e 1)
    (v < field b (e + 4) 4 ∧ f.off = e + 4) ∨ (field b (e + 8) 4 < v ∧ f.off = e + 8)) ∧
  (∀ (x : Sect) (m : Image) (s : State) (f : ImgFail), s.topoFail x m = some f → f.stage = 6 ∧ f.sect = x.idx ∧
    (f.status = .range ∨ f.status = .length ∨ f.status = .world)) ∧
  (∀ (x : Sect) (m : Image) (s : State), x.count = 0 ∨ 512 < x.count → s.topoFail x m = some ⟨6, .range, x.idx, x.off⟩) ∧
  (∀ (x : Sect) (m : Image) (s : State) (f : ImgFail), s.stage7 x m = some f → f.stage = 7 ∧ f.status = .world ∧ f.sect = x.idx) ∧
  (∀ (m : Image) (p : Bool) (s : State), let t := s.commitImage m p
    t.get R.SCU_IMG_ID = m.id % 2 ^ 64 ∧ t.get R.SCU_IMG_STATUS_STATUS = 0 ∧ t.get R.SCU_IMG_STATUS_STAGE = 0 ∧
    t.get R.SCU_IMG_STATUS_SECTION = 0xFFFF ∧ t.get R.SCU_IMG_STATUS_BUSY = 0 ∧ t.on R.SCU_IMG_STATUS_IN_FORCE = true)

/-- A partial reload (R321, R322): once its copy is done its engines run on the new structure; CANCEL drops one that is still staged,
with its phase, mask and mark, and is refused with STATE in any other phase. -/
def Sys2Proof.Stated.Reloads : Prop :=
  (∀ (s : State) (m : Image), s.scu.staged = some m → s.get R.SCU_RLD_STATUS_PHASE = 3 →
    exec .reloadCopyDone s = .next ((s.takeReload m true).syncHeld m.station)) ∧
  (∀ (w : World) (v : BitVec 32) (m : Image) (s : State), Reaches s w .SCU_RLD_CTRL 0 0 → R.SCU_RLD_CTRL_CANCEL.of v.toNat = 1 →
    s.scu.staged = some m →
    (s.get R.SCU_RLD_STATUS_PHASE = 1 →
      exec (.reloadCancel w v) s = .next (wrote s w .SCU_RLD_CTRL 0 0 v.toNat).dropReload) ∧
    (s.get R.SCU_RLD_STATUS_PHASE ≠ 1 →
      exec (.reloadCancel w v) s = .next ((s.countRefused w .state).set R.SCU_RLD_STATUS_LAST_STATUS 1))) ∧
  (∀ (s : State) (m : Image), s.scu.staged = some m → s.dropReload.scu.staged = none ∧ s.dropReload.get R.SCU_RLD_STATUS_PHASE = 0 ∧
    s.dropReload.get R.SCU_RLD_MASK_GROUPS = 0 ∧ (s.dropReload.sto m.station).reloadMark = none)

/-- Loading, checking and committing images, which check fails how, and reloads. -/
def Obligations.Images : Prop := ImageLoads ∧ ImageChecks ∧ Reloads

/-! ### The seal -/

/-- Seal attempts (R325, R328, R330, R342, R344): those of several stations in one handshake follow in ascending station number. A band
that meets the local conditions is audited and becomes the local band: a frozen station keeps it for its thaw, a station of a ring
answers with its tokens, and any other station seals it. Without such a band nothing changes. -/
def Sys2Proof.Stated.SealAttempts : Prop :=
  (∀ (ns : BitVec 8) (t : Int) (s : State),
    exec (.sealAttempt ns t) s = .next (([0, 1, 2, 3, 4, 5, 6, 7].filter fun i => bit ns.toNat i).foldl (fun s i => s.sealAttempt i t) s)) ∧
  (∀ (n : Nat) (t : Int) (s : State), s.meetsLocal n (s.nextLocal n) = false → s.sealAttempt n t = s) ∧
  (∀ (n : Nat) (t : Int) (s : State), s.meetsLocal n (s.nextLocal n) = true →
    let b := s.nextLocal n
    let s1 := s.sealAudits
    let s2 := (s1.set R.SCU_SEAL_ST_LOCAL_BAND b n).setSeal n { s1.sealOf n with localValid := true }
    (s2.on R.SCU_SEAL_ST_STATUS_FROZEN n = true →
      s.sealAttempt n t = (s2.setSeal n { s2.sealOf n with frozenBands := (s2.sealOf n).frozenBands ++ [b] }).syncHeld n) ∧
    (s2.on R.SCU_SEAL_ST_STATUS_FROZEN n = false → s2.ringStation n = true →
      s.sealAttempt n t = (s2.moveTokens n t).syncHeld n) ∧
    (s2.on R.SCU_SEAL_ST_STATUS_FROZEN n = false → s2.ringStation n = false →
      s.sealAttempt n t = s2.sealBand n b t false))

/-- What a seal writes (R330 to R341). The next band is the one after LOCAL_BAND. A sealed band becomes the horizon, counts, shows its
latency and adds its counters to the snapshot; the drain ends with the band of F. A slab audit passes only when the three sums make
65,536 and no slab is late; a failed audit sets its bits and freezes each station of its scope, and one that passes clears FAILING
alone. -/
def Sys2Proof.Stated.BandsSeal : Prop :=
  (∀ (n : Nat) (s : State), (s.sealOf n).localValid = true → s.nextLocal n = s.get R.SCU_SEAL_ST_LOCAL_BAND n + 1) ∧
  (∀ (n : Fin 8) (b : Nat) (t : Int) (s : State), b < 2 ^ 42 → ∃ u : State, s.sealBand n b t false = (u.syncHeld n).checkDrained n ∧
    u.get R.SCU_SEAL_ST_HZN_BAND n = b ∧ u.on R.SCU_SEAL_ST_STATUS_VALID n = true ∧
    u.get R.SCU_SEAL_ST_COUNT_COUNT n = (s.add R.SCU_SEAL_ST_COUNT_COUNT 1 n).get R.SCU_SEAL_ST_COUNT_COUNT n ∧
    u.get R.SCU_SEAL_ST_LAT_NS n = min (2 ^ R.SCU_SEAL_ST_LAT_NS.width - 1) (unitsToNs (s.sealAge n b t)) ∧
    u.get R.SCU_SEAL_ST_SNAP_BAND_BAND n = b ∧ SMap.find? (u.sealOf n).counts b = none ∧ SMap.find? (u.sealOf n).trig b = none) ∧
  (∀ (n : Fin 8) (b : Nat) (i : Fin 15) (s : State),
    (s.snapshot n b).get R.SCU_SEAL_ST_SNAP_COUNT n i =
      (s.get R.SCU_SEAL_ST_SNAP_COUNT n i + (SMap.get (s.sealOf n).counts (List.replicate 15 0) b).getD i 0) % 2 ^ 32) ∧
  (∀ (n f : Nat) (s : State), s.stState n = St.draining → (s.station n).fLine = some f → s.on R.SCU_SEAL_ST_STATUS_VALID n = true →
    (bandOf f (s.bandExp n) ≤ s.get R.SCU_SEAL_ST_HZN_BAND n → s.checkDrained n = s.idleEntry n) ∧
    (s.get R.SCU_SEAL_ST_HZN_BAND n < bandOf f (s.bandExp n) → s.checkDrained n = s)) ∧
  (∀ s : State, let sum := s.get R.QMX_POOL_FREE_FREE + s.get R.QMX_AUD_ALLOC_ALLOC + s.get R.QMX_AUD_TRANSIT_TRANSIT
    ((s.auditSlabs).1 = true ↔ sum = 65536 ∧ s.on R.QMX_AUD_STATUS_AGE_FAIL = false) ∧
    ((s.auditSlabs).1 = false → s.auditSlabs.2.on R.QMX_AUD_STATUS_FAIL = true)) ∧
  (∀ s : State, (s.tokenBad = [] → s.auditTokens.1 = true) ∧
    (∀ e es, s.tokenBad = e :: es → s.auditTokens.1 = false ∧ s.auditTokens.2.on R.IEA_AUD_STATUS_FAIL = true)) ∧
  (∀ (q : Quantity) (scope : List Nat) (s : State), (∀ n ∈ scope, n < 8) → let t := s.auditFail q scope
    (t.get R.SCU_SEAL_AUD_LATCHED = s.get R.SCU_SEAL_AUD_LATCHED ||| 2 ^ q.bit) ∧ t.failing q = true ∧
    ∀ n ∈ scope, t.on R.SCU_SEAL_ST_STATUS_FROZEN n = true) ∧
  (∀ (q p : Quantity) (s : State), (s.auditPass q).failing p = (s.failing p && decide (p ≠ q)))

/-- What the seal does with a band that meets the local conditions, its audits, horizon and snapshot. -/
def Obligations.SealAttempt : Prop := SealAttempts ∧ BandsSeal

/-- Freezes and lateness (R334, R342, R343): THAW ends a freeze that may end and is refused with STATE for a station that is not
frozen or whose audits still fail; a freeze that lasts FREEZE_MS takes the device to FAULT with cause 2; a band late for the first time sets LATE and raises its
event. -/
def Sys2Proof.Stated.FreezesEnd : Prop :=
  (∀ (w : World) (n : Fin 8) (v : BitVec 32) (t : Int) (s : State), Reaches s w .SCU_SEAL_ST_CTRL n 0 →
    R.SCU_SEAL_ST_CTRL_THAW.of v.toNat = 1 →
    (s.on R.SCU_SEAL_ST_STATUS_FROZEN n = true → s.scopeFails n = false →
      s.changes [R.SCU_SEAL_ST_CTRL_MAXLAT, R.SCU_SEAL_ST_CTRL_SNAP_LOG] n 0 v.toNat = false →
      1 ≤ R.SCU_SEAL_ST_CTRL_MAXLAT.of v.toNat → R.SCU_SEAL_ST_CTRL_MAXLAT.of v.toNat ≤ 1000 →
      R.SCU_SEAL_ST_CTRL_SNAP_LOG.of v.toNat ≤ 8 →
      exec (.sealThaw w n v t) s = .next ((wrote s w .SCU_SEAL_ST_CTRL n 0 v.toNat).thaw n t)) ∧
    (s.on R.SCU_SEAL_ST_STATUS_FROZEN n = false →
      exec (.sealThaw w n v t) s = .next ((s.countRefused w .state).set R.SCU_SEAL_ST_STATUS_LAST_STATUS 1 n)) ∧
    (s.scopeFails n = true →
      exec (.sealThaw w n v t) s = .next ((s.countRefused w .state).set R.SCU_SEAL_ST_STATUS_LAST_STATUS 1 n))) ∧
  (∀ (n : Fin 8) (s : State), s.on R.SCU_SEAL_ST_STATUS_FROZEN n = true →
    exec (.freezeTimeout n) s = .next (s.enterFault 2 n)) ∧
  (∀ (n : Fin 8) (t : Int) (l : CLine) (s : State),
    let b := if s.on R.SCU_SEAL_ST_STATUS_VALID n then s.get R.SCU_SEAL_ST_HZN_BAND n + 1 else bandOf (s.w0 n) (s.bandExp n)
    s.stBusy n = true → s.bandExists n b = true → (s.lst n).last = some l → s.bandLast n b ≤ l.n → s.tooLate n (s.sealAge n b t) = true →
    (s.sealOf n).lateBand ≠ some b →
    exec (.sealLatencyExceeded n t) s = .next (((s.setSeal n { s.sealOf n with lateBand := some b }).set R.SCU_SEAL_ST_STATUS_LATE 1 n
      ).raise (1216 + 4 * n.val + 1)))

/-- Entry to FAULT (R541, R542): the cause, the station and the WPI it was at are kept, NEW is set, the state is FAULT and both events are
raised; then each busy station is aborted, its queues flushed and it in IDLE with PHASE 0 (R530), and a station command that runs ends
with STATE. In FAULT and THERMAL_LATCH nothing changes (R524; log 7). -/
def Sys2Proof.Stated.FaultEntry : Prop :=
  (∀ (cause : Nat) (n : Fin 8) (s : State), s.dev ≠ Dev.thermalLatch → s.dev ≠ Dev.fault →
    let rec1 := ((s.set R.SMC_FAULT_CAUSE cause).set R.SMC_FAULT_STATION n).set R.SMC_FAULT_WPI (((s.lst n).last.map (·.n)).getD 0)
    let rec2 := (((rec1.set R.SMC_FAULT_NEW 1).set R.SMC_DEV_STATE_STATE 9).raise Ev.devState).raise Ev.faultEntered
    let stopped := [0, 1, 2, 3, 4, 5, 6, 7].foldl (fun u m => if u.stBusy m then u.abortStation m else u) rec2
    s.enterFault cause n = (stopped.endRunning 0 isStationOp).endRunning 1 isStationOp ∧
    ((∀ m < 8, s.stBusy m = false) → (s.ring 0).run = none → (s.ring 1).run = none → s.enterFault cause n = rec2)) ∧
  (∀ (n : Nat) (s : State), s.abortStation n =
    ((((s.stationQueues n).foldl State.flushAll s).each (s.engineWritten n) State.freshWriter
      ).set R.SST_ST_REW_STATUS_PHASE 0 n |>.dropLines n).idleEntry n) ∧
  (∀ (r : Nat) (s : State), (∀ x, (s.ring r).run = some x → (0x10 ≤ x.op ∧ x.op ≤ 0x18) →
      s.endRunning r isStationOp = ({ s with pace := { s.pace with waits := s.pace.waits.filter (· ≠ .stage r) } } : State).endRun r .state
        (leBytes 4 (atReg .SMC_DEV_STATE) ++ leBytes 4 0)) ∧
    (∀ x, (s.ring r).run = some x → ¬ (0x10 ≤ x.op ∧ x.op ≤ 0x18) → s.endRunning r isStationOp = s)) ∧
  (∀ (cause n : Nat) (s : State), s.dev = Dev.thermalLatch ∨ s.dev = Dev.fault → s.enterFault cause n = s)

/-- Thaw, freeze timeout, lateness, and what entry to FAULT records. -/
def Obligations.FreezesAndFaults : Prop := FreezesEnd ∧ FaultEntry

/-- Reading SCU_SEAL_ST_SNAP_BAND_LO shows the low half of the snapshot band, copies the high half and the 15 counters of the station into
holding registers, and changes no other; in every state reads of SNAP_BAND_HI and SNAP[s][i] show those copies (R336). -/
def Obligations.SnapshotLatch : Prop :=
  (∀ (w : World) (n : Fin 8) (s : State), s.held = false →
    (w = .secure ∨ s.addrWorld (RegId.addr .SCU_SEAL_ST_SNAP_BAND_LO n) = .nonSecure) →
    let a := RegId.addr .SCU_SEAL_ST_SNAP_BAND_LO n
    let b := s.get R.SCU_SEAL_ST_SNAP_BAND_BAND n
    ∃ t, exec (.snapshotBandLoRead w n) s = .next t ∧ t.out = s.out ++ [.readData w a (leBytes 4 (b % 2 ^ 32))] ∧ t.regs = s.regs ∧
      SameMemory s t ∧ SMap.get t.hold 0 (RegId.addr .SCU_SEAL_ST_SNAP_BAND_HI n) = b / 2 ^ 32 ∧
      (∀ i : Fin 15, SMap.get t.hold 0 (RegId.addr .SCU_SEAL_ST_SNAP n i) = s.get R.SCU_SEAL_ST_SNAP_COUNT n i) ∧
      (∀ x : Nat, x ≠ RegId.addr .SCU_SEAL_ST_SNAP_BAND_HI n → (∀ i : Fin 15, x ≠ RegId.addr .SCU_SEAL_ST_SNAP n i) →
        SMap.get t.hold 0 x = SMap.get s.hold 0 x)) ∧
  (∀ (w : World) (n : Fin 8) (k : Fin 16777216) (now : Int) (s : State), s.held = false →
    (w = .secure ∨ s.addrWorld (4 * k) = .nonSecure) →
    (4 * k.val = RegId.addr .SCU_SEAL_ST_SNAP_BAND_HI n ∨ ∃ i : Fin 15, 4 * k.val = RegId.addr .SCU_SEAL_ST_SNAP n i) →
    exec (.holdingRegisterLoRead w k now) s = .next { s with
      out := s.out ++ [.readData w (4 * k) (leBytes 4 (SMap.get s.hold 0 (4 * k)))] })

/-! ### The Kelim ring -/

/-- The frame a row stands for: its lane, the frame, and its type (R349). -/
def Sys2Proof.Stated.frameOf : Instr → Option (Nat × KFrame × Nat)
  | .discoverFrameRx l k _ => some (l, k, 0)
  | .rosterFrameRx l k => some (l, k, 1)
  | .formedFrameRx l k => some (l, k, 2)
  | .authFrameRx l k _ => some (l, k, 3)
  | .timeFrameRx l k _ _ => some (l, k, 4)
  | .alignReqRx l k => some (l, k, 5)
  | .alignAckRx l k _ => some (l, k, 6)
  | .alignSetRx l k _ => some (l, k, 7)
  | .tokenFrameRx l k _ => some (l, k, 8)
  | .hingeFrameRx l k => some (l, k, 9)
  | .dovetailFrameRx l k => some (l, k, 10)
  | .foldFrameRx l k => some (l, k, 11)
  | _ => none

/-- What a lane leaves once it has answered a frame with the wrong SEQ NAK and returned its credits (R74, R79). -/
def Sys2Proof.Stated.naked (s : State) (l : Nat) (k : KFrame) : State :=
  ((s.setKlane l { s.klane l with nak := true }).sendKblock l Blk.ack (ackBody ((s.klane l).exp + 255) true)).kelimReturn l k.words.length

/-- A good frame with the wrong SEQ, the first after a good one, is answered NAK with the last SEQ taken, its credits are returned, the
refusal is counted under its SEQ, and it does nothing else, whatever its type (R74, R79, R347). At the fourth refusal of a SEQ in a row
the lane retrains (R80); `s` is the state after the control blocks that came before it. -/
def Sys2Proof.Stated.WrongSeqFramesAreNaked : Prop :=
  ∀ (c : Instr) (l : Nat) (k : KFrame) (kind : Nat) (s0 : State), frameOf c = some (l, k, kind) → k.ftype = kind →
    let s := s0.ahead l k.ctl
    s.laneOpen l (if kind = 3 then KPort.auth else KPort.up) = true → k.good = true → k.seq.toNat ≠ (s.klane l).exp →
    (s.klane l).nak = false →
    let u := naked s l k
    let n := (SMap.find? (u.klane l).refused k.seq.toNat).getD 0 + 1
    let v := u.setKlane l { u.klane l with refused := SMap.insert (u.klane l).refused k.seq.toNat n }
    (n < 4 → exec c s0 = .next v) ∧ (4 ≤ n → exec c s0 = .next (v.kelimRetrain l true))

/-- A frame with no data block, which is the wrong length for every type, is acknowledged, counted in the port's errors and does nothing
else (R349); `s` is the state after the control blocks that came before it. -/
def Sys2Proof.Stated.EmptyFramesAreCounted : Prop :=
  ∀ (c : Instr) (l : Nat) (k : KFrame) (kind : Nat) (s0 : State), frameOf c = some (l, k, kind) → k.ftype = kind →
    let s := s0.ahead l k.ctl
    s.laneOpen l (if kind = 3 then KPort.auth else KPort.up) = true → (s.kelimTake l k).1 = true → k.words = [] →
    exec c s0 = .next ((s.kelimTake l k).2.add R.KRU_PORT_ERR_COUNT 1 (l / 16))

/-- Kelim frames out of sequence are answered NAK, and empty ones are counted. -/
def Obligations.RingFrameErrors : Prop := WrongSeqFramesAreNaked ∧ EmptyFramesAreCounted

/-- The ring unit's ports (R85, R346 to R348, R352, R353, R367). Training sends TRAIN and ECHO on every lane with lock; a lane passes
without PRBS errors and with a D of at most 2 µs. A port that trained with enough lanes of a known version takes them and their
delays, starts their credits and authenticates; with too few it fails with RANGE, with an older version it is refused with VERSION;
a failed one trains again; a dead one is lost. INIT_ACK ends the resync window of a lane; a CRED_STATUS outside it retrains a lane
whose invariant of 8,192 blocks does not hold. Without SD_REFCLK4 no port trains (R565). A lane that retrains leaves the active ones, with
TRAIN once it has relocked and CREDIT INIT once PRBS31 and ECHO have passed, and takes its new D (R96, R347). -/
def Obligations.KelimPorts : Prop :=
  (∀ (pt : Fin 2) (lock : BitVec 16) (ver : BitVec 8) (tr : List KTrain) (s : State), s.kruOn = true → s.refRuns 4 = true →
    (s.kport pt = KPort.train ∨ s.kport pt = KPort.dead) →
    let got (j : Nat) : KTrain := tr.getD j {}
    let locked := (List.range 16).filter fun j => lock.getLsbD j
    let lanes := locked.filter fun j => (got j).pass
    let s0 := s.each locked fun s j => s.trainLane (16 * pt + j) (got j).up.toNat
    let units (j : Nat) : Nat := roundDiv (40000 * (got j).d) 78125
    let s1 := (s0.set R.KRU_PORT_LANES_ACTIVE (lanes.foldl (fun a j => a + 2 ^ j) 0) pt).set R.KRU_PORT_LANES_DELAY
      (lanes.foldl (fun a j => max a (units j)) 0) pt
    let s2 := s1.each lanes fun s j =>
      (s.setKlane (16 * pt + j) { d := units j, tag := (s.klane (16 * pt + j)).tag, scr := (s.klane (16 * pt + j)).scr }).kelimInit
        (16 * pt + j)
    (s.get R.KRU_CFG_MIN_LANES ≤ lanes.length → 16 ≤ ver.toNat →
      exec (.kruPortTrainDone pt lock ver tr) s = .next ((s2.set R.KRU_PORT_STATUS_STATE 2 pt).authStep pt 1)) ∧
    (s.get R.KRU_CFG_MIN_LANES ≤ lanes.length → ver.toNat < 16 →
      exec (.kruPortTrainDone pt lock ver tr) s = .next ((s0.portLost pt KPort.refused).set R.KRU_PORT_STATUS_LAST_STATUS 5 pt)) ∧
    (lanes.length < s.get R.KRU_CFG_MIN_LANES →
      exec (.kruPortTrainDone pt lock ver tr) s = .next ((s0.portLost pt KPort.failed).set R.KRU_PORT_STATUS_LAST_STATUS 3 pt))) ∧
  (∀ (pt : Fin 2) (lock : BitVec 16) (ver : BitVec 8) (tr : List KTrain) (s : State), s.refRuns 4 = false →
    (s.kport pt = KPort.train ∨ s.kport pt = KPort.dead) → exec (.kruPortTrainDone pt lock ver tr) s = .next s) ∧
  (∀ (pt : Fin 2) (j : Fin 16) (ver : BitVec 8) (tr : List KTrain) (s : State), s.kruOn = true → s.refRuns 4 = true →
    (s.kport pt = KPort.auth ∨ s.kport pt = KPort.up) →
    let l := 16 * pt.val + j.val
    let x := tr.getD j {}
    let u := s.trainLane l x.up.toNat
    (s.klane l).training = true →
    (x.pass = true → ∃ v : State, exec (.kruPortTrainDone pt (1#16 <<< j.val) ver tr) s = .next (v.kelimInit l) ∧ (v.klane l).d = x.units) ∧
    (x.pass = false → exec (.kruPortTrainDone pt (1#16 <<< j.val) ver tr) s = .next u)) ∧
  (∀ (l : Fin 32) (s : State), let t := s.kelimRetrain l false
    (t.klane l).training = true ∧ (t.klane l).resync = true ∧ (t.klane l).refused = [] ∧
    bit (t.get R.KRU_PORT_LANES_ACTIVE (l.val / 16)) (l.val % 16) = false) ∧
  (∀ (pt : Fin 2) (s : State), s.kruOn = true → s.kport pt = KPort.failed →
    exec (.kruPortRetry pt) s = .next (s.set R.KRU_PORT_STATUS_STATE 1 pt)) ∧
  (∀ (pt : Fin 2) (s : State), s.kruOn = true → (s.kport pt = KPort.up ∨ s.kport pt = KPort.auth) →
    exec (.kruPortDead pt) s = .next (s.portLost pt KPort.dead)) ∧
  (∀ (l : Fin 32) (ctl : List (BitVec 8 × BitVec 56)) (h r x : BitVec 16) (b : Bool) (s0 : State),
    let s := s0.ahead l ctl
    let m := s.get R.KRU_PORT_LANES_ACTIVE (l.val / 16)
    let sum := h.toNat + ((s.klane l).returned + 65536 - r.toNat) % 65536
    ((s.klane l).resync = true → b = true → (s.klane l).training = false →
      exec (.kelimCredStatusRx ⟨l, ctl⟩ h r x b) s0 = .next (((s.setKlane l { s.klane l with resync := false }).set
        R.KRU_PORT_LANES_ACTIVE (m ||| 2 ^ (l.val % 16)) (l.val / 16)).sendCredStatus l)) ∧
    ((s.klane l).resync = true → (b = false ∨ (s.klane l).training = true) → exec (.kelimCredStatusRx ⟨l, ctl⟩ h r x b) s0 = .next s) ∧
    ((s.klane l).resync = false → s.kruOn = true → bit m (l.val % 16) = true →
      exec (.kelimCredStatusRx ⟨l, ctl⟩ h r x b) s0 = .next (if sum = 8192 then s.sendCredStatus l else s.kelimRetrain l true)))

/-- Authentication (R352, R508): a request is answered on its port with the answer of its transport; an answer is judged. -/
def Sys2Proof.Stated.AuthFrames : Prop :=
  ∀ (l : Fin 32) (k : KFrame) (s u : State), FrameIn s l k 3 (decide (1 ≤ k.data.length ∧ k.data.length ≤ 1024)) u →
    (∀ (v : BitVec 8) (r : SpdmReq) (busy : Bool),
      exec (.authFrameRx l k (.request v r busy)) s = .next (
        let a := u.spdmAnswer v.toNat r busy
        (u.takeFresh.2.emit (.spdm (3 + l.val / 16) a)).sendAuth (l.val / 16) a)) ∧
    (∀ (ok : Bool) (dig : List Byte) (serial : BitVec 64),
      exec (.authFrameRx l k (.response ok dig serial)) s = .next (u.authAnswer (l.val / 16) ok (dig.map (·.toNat)) serial.toNat))

/-- DISCOVER (R353, R354): an older VER refuses the link with VERSION; a frame to another member goes on; a member without an ID takes
NEXT_ID, sends the frame on with the next one and its ROSTER, and reports a fold next to it, and an ID past 65,533 fails the ring
with RANGE; another member passes the frame on; the timing member that has its own frame back knows the number of members, and
another timing member's frame fails the ring with BUSY. -/
def Sys2Proof.Stated.DiscoverFrames : Prop :=
  ∀ (l : Fin 32) (k : KFrame) (foreign : Bool) (s u : State), FrameIn s l k 0 (decide (k.data.length = 1)) u →
    let w := k.data.getD 0 0
    let h := { k.head with ret := false }
    let mine := k.head.dst = broadcast ∨ k.head.dst = u.kId
    (bits w 16 8 < 16 → exec (.discoverFrameRx l k foreign) s = .next
      ((u.portLost (l.val / 16) KPort.refused).set R.KRU_PORT_STATUS_LAST_STATUS 5 (l.val / 16))) ∧
    (16 ≤ bits w 16 8 → ¬ mine → exec (.discoverFrameRx l k foreign) s = .next (u.ringOut 0 h k.data)) ∧
    (16 ≤ bits w 16 8 → mine → ¬ (u.timing = true ∧ k.head.src = 1) → u.kId = 0 → bits w 0 16 < 65534 →
      exec (.discoverFrameRx l k foreign) s = .next ((((u.set R.KRU_STATUS_ID (bits w 0 16)).ringOut 0 h
        [bits w 0 16 + 1 + 16 * 65536]).sendRoster).syncMember.foldOpen)) ∧
    (16 ≤ bits w 16 8 → mine → ¬ (u.timing = true ∧ k.head.src = 1) → u.kId = 0 → 65534 ≤ bits w 0 16 →
      exec (.discoverFrameRx l k foreign) s = .next (((u.set R.KRU_STATUS_STATE 6).set R.KRU_AUD_WINDOW 0).set
        R.KRU_STATUS_LAST_STATUS 3)) ∧
    (16 ≤ bits w 16 8 → mine → ¬ (u.timing = true ∧ k.head.src = 1) → u.kId ≠ 0 →
      exec (.discoverFrameRx l k foreign) s = .next (u.ringOut 0 h k.data)) ∧
    (16 ≤ bits w 16 8 → mine → u.timing = true → k.head.src = 1 →
      ((u.ringState = Ring.forming ∨ u.ringState = Ring.reform) → exec (.discoverFrameRx l k false) s = .next
        (({ u with kru := { u.kru with members := bits w 0 16 - 1, back := true } } : State).checkFormed)) ∧
      exec (.discoverFrameRx l k true) s = .next (((u.set R.KRU_STATUS_STATE 6).set R.KRU_AUD_WINDOW 0).set
        R.KRU_STATUS_LAST_STATUS 6))

/-- Authentication and discovery on the ring. -/
def Obligations.RingDiscovery : Prop := AuthFrames ∧ DiscoverFrames

/-- The frames a member takes (R351, R354 to R368): ROSTER is kept by the timing member, FORMED gives the roster and the shape of the ring,
FOLD enters REFORM (and the timing member discovers again while no ring station runs), HINGE of a line not staged here raises its
event on every member but a repeater, and DOVETAIL columns reach the station that receives them. -/
def Obligations.RingFrames : Prop :=
  (∀ (l : Fin 32) (k : KFrame) (s u v : State), FrameIn s l k 1 (decide (k.data.length = 2)) u → Delivered u k 1 k.data v → v.timing = true →
    let w := k.data.getD 0 0
    let m : KMember := { role := bits w 16 2, stations := if bits w 16 2 = 2 then 0 else bits w 24 8, serial := k.data.getD 1 0 }
    exec (.rosterFrameRx l k) s = .next ((({ v with kru := { v.kru with roster := SMap.insert v.kru.roster (bits w 0 16) m } } : State
      ).checkFormed).syncMember)) ∧
  (∀ (l : Fin 32) (k : KFrame) (s u v : State), FrameIn s l k 2 (decide (k.data.length = 3)) u → Delivered u k 2 k.data v →
    exec (.formedFrameRx l k) s = .next (v.takeFormed (bits (k.data.getD 0 0) 0 16) (bit (k.data.getD 0 0) 16)
      ((List.range 8).map fun n => bits (k.data.getD (1 + n / 4) 0) (16 * (n % 4)) 16))) ∧
  (∀ (l : Fin 32) (k : KFrame) (s u v : State), FrameIn s l k 11 (decide (k.data.length = 1)) u → Delivered u k 11 k.data v →
    let x := v.noteFold (bits (k.data.getD 0 0) 0 16) (bits (k.data.getD 0 0) 16 1)
    exec (.foldFrameRx l k) s = .next (if x.formed then x.reform.rediscover else x)) ∧
  (∀ (l : Fin 32) (k : KFrame) (s u v : State), FrameIn s l k 9 (decide (k.data.length = 2)) u → Delivered u k 9 k.data v →
    v.repeater = false → (∀ g, (v.station k.head.station).staged = some g → g.h ≠ bits (k.data.getD 0 0) 0 48) →
    exec (.hingeFrameRx l k) s = .next (((v.set R.KRU_ST_HINGE_H (bits (k.data.getD 0 0) 0 48) k.head.station).set
      R.KRU_ST_STATUS_HINGE_UNM 1 k.head.station).raise Ev.hingeUnmatched)) ∧
  (∀ (l : Fin 32) (k : KFrame) (s u v : State),
    let w := k.data.getD 0 0
    FrameIn s l k 10 (decide (k.data.length = 1 + ceilDiv (bits w 48 9 * (bits w 57 3 + 1)) 4)) u → Delivered u k 10 k.data v →
    v.on R.PCP_STC_ST_CTRL_RECV_RIGHT k.head.station = true → v.stBusy k.head.station = true →
    exec (.dovetailFrameRx l k) s = .next (v.dovetailColumns k.head.station (bits w 0 48)
      (rowsOf (bits w 48 9) (bits w 57 3 + 1) (wordsToSamples (k.data.drop 1)))))

/-- Ring time and alignment (R357, R359, R360): TIME sets the offset of ring time from the frame, its correction and the lane's delay, and
goes on with both added up; ALIGN_REQ is answered OK, RANGE or STATE, and an ARMED station
waits for ALIGN_SET whatever its answer; acknowledges are collected or fail the arm; the position is
latched at T_a; ALIGN_SET is taken once: an ARMED station starts to scan at its offset, or is too late with TIMEOUT and its event; a
running one whose offset moves by more than 16 has ALIGN_ERR; and an answer that never comes fails with TIMEOUT. -/
def Sys2Proof.Stated.RingTimeAndAlignment : Prop :=
  (∀ (l : Fin 32) (k : KFrame) (t : Int) (resid : BitVec 32) (s u v : State), FrameIn s l k 4 (decide (k.data.length = 2)) u →
    let d := (s.klane l).d
    let corr := bits (k.data.getD 1 0) 0 32
    Delivered u k 4 [k.data.getD 0 0, (corr + d + resid.toNat) % 2 ^ 32] v →
    exec (.timeFrameRx l k t resid) s = .next { v with kru := { v.kru with
      timeOff := toSigned 64 (k.data.getD 0 0) + (corr + d : Nat) - t } }) ∧
  (∀ (t : Int) (s : State), s.kruOn = true → s.timing = true → s.kId = 1 → (s.kru.timeCount + 1) % 1024 ≠ 0 →
    exec (.timeSendTimer t) s = .next (({ s with kru := { s.kru with timeCount := s.kru.timeCount + 1 } } : State).ringSend 4 0 0xFFFF
      [ofSigned 64 t, 0])) ∧
  (∀ (l : Fin 32) (k : KFrame) (s u v : State), FrameIn s l k 5 (decide (k.data.length = 3)) u → Delivered u k 5 k.data v →
    v.contributes k.head.station = true →
    let n := k.head.station
    let c := v.alignStatus n (bits (k.data.getD 1 0) 0 48) (bits (k.data.getD 1 0) 48 5) (bits (k.data.getD 2 0) 0 32)
    let x := v.setKst n { v.kst n with ta := some (toSigned 64 (k.data.getD 0 0)), latched := none }
    (c ≠ .ok → v.stState n ≠ St.armed → exec (.alignReqRx l k) s = .next (v.ringSend 6 n k.head.src [c.code])) ∧
    (v.stState n = St.armed → exec (.alignReqRx l k) s = .next
      ((x.set R.KRU_ST_STATUS_ALIGN 1 n).ringSend 6 n k.head.src [c.code])) ∧
    (c = .ok → v.stState n ≠ St.armed → exec (.alignReqRx l k) s = .next (x.ringSend 6 n k.head.src [0]))) ∧
  (∀ (l : Fin 32) (k : KFrame) (t : Int) (s u v : State), FrameIn s l k 6 (decide (k.data.length = 1)) u → Delivered u k 6 k.data v →
    v.timing = true → (v.kst k.head.station).ta ≠ none →
    let n := k.head.station
    let c := bits (k.data.getD 0 0) 0 8
    (c ≠ 0 → exec (.alignAckRx l k t) s = .next (v.alignFail n c)) ∧
    (c = 0 → (v.kst n).acks.contains k.head.src = false → exec (.alignAckRx l k t) s = .next
      ((v.setKst n { v.kst n with acks := k.head.src :: (v.kst n).acks }).checkAlign n t))) ∧
  (∀ (n : Fin 8) (ta : Int) (s : State), (s.kst n).ta = some ta → (s.kst n).latched = none →
    let t := ta - s.kru.timeOff
    let x := s.setKst n { s.kst n with latched := some (s.posOf n t) }
    exec (.alignLatch n) s = .next ((if s.stState n = St.armed then x.set R.KRU_ST_STATUS_ALIGN 2 n else x).checkAlign n t)) ∧
  (∀ (l : Fin 32) (k : KFrame) (t : Int) (s u v : State), FrameIn s l k 7 (decide (k.data.length = 2)) u → Delivered u k 7 k.data v →
    (v.kst k.head.station).ta ≠ none →
    let p (i : Nat) : Int := 65536 * toSigned 48 (bits (k.data.getD i 0) 0 48) + bits (k.data.getD i 0) 48 16
    exec (.alignSetRx l k t) s = .next (v.takeAlignSet k.head.station (p 0) (p 1) t)) ∧
  (∀ (n : Nat) (c base p t : Int) (s : State), (s.kst n).latched = some p →
    let s1 := s.setKst n { s.kst n with ta := none }
    let o := c - p
    (s.stState n = St.armed →
      (s1.past n (s1.posOf n t) (base - o) = true → s.takeAlignSet n c base t =
        ((s1.set R.KRU_ST_STATUS_ALIGN 4 n).set R.KRU_ST_STATUS_LAST_STATUS 10 n).raise Ev.alignLate) ∧
      (s1.past n (s1.posOf n t) (base - o) = false → s.takeAlignSet n c base t =
        (((s1.setOffset n o base).enterSt n St.scanning).syncStore n).syncHeld n)) ∧
    (s.stState n ≠ St.armed → s.stBusy n = true →
      (16 < (o - (s.kst n).off).natAbs → s.takeAlignSet n c base t = (s1.set R.KRU_ST_STATUS_ALIGN_ERR 1 n).raise Ev.alignDrift) ∧
      ((o - (s.kst n).off).natAbs ≤ 16 → s.takeAlignSet n c base t = s1.setOffset n o base)) ∧
    (s.stBusy n = false → s.stState n ≠ St.armed → s.takeAlignSet n c base t = s)) ∧
  (∀ (n : Fin 8) (s : State), s.timing = true → (s.kst n).ta ≠ none → exec (.alignAckTimeout n) s = .next (s.alignFail n 10)) ∧
  (∀ (n : Fin 8) (s : State), s.timing = false → (s.kst n).ta ≠ none → exec (.alignSetTimeout n) s = .next (s.alignFail n 10))

/-- Tokens, folds and the unit's switch (R329, R356, R361 to R365, R368): a token goes home to its issuer or is passed. One of a band passed
before, or with a wrong COUNT, goes no further; a LAP 1 token home is retired and the next are issued, one passing seals its band and
goes on; a LAP 0 token is held until its band is sealed here and no station is frozen. One that does not return fails the ring audit with LOST; the timing member forms the ring again after a fold; no FORMED in time fails the ring; EN and
TIMING change only while every ring station is idle, switching EN starts or stops the unit, and switching TIMING in a running unit
changes its role. -/
def Sys2Proof.Stated.TokensAndForming : Prop :=
  (∀ (l : Fin 32) (k : KFrame) (t : Int) (s u : State), FrameIn s l k 8 (decide (k.data.length = 2)) u → u.formed = true →
    (k.head.dst = broadcast ∨ k.head.dst = u.kId) →
    let a := k.data.getD 0 0
    let b := k.data.getD 1 0
    let tok : KTok := { band := bits a 0 42, lap := bit a 42, bad := bit a 43, count := bits b 0 16, tdig := bits b 16 32 }
    (k.head.src = u.kId → exec (.tokenFrameRx l k t) s = .next (u.tokenHome k.head.station tok t)) ∧
    (k.head.src ≠ u.kId → exec (.tokenFrameRx l k t) s = .next (u.tokenPass k.head.station k.head.src tok t))) ∧
  (∀ (n : Nat) (k : KTok) (bad : Bool) (s : State),
    let dup := passedBy k.band (if k.lap then (s.kst n).last1 else (s.kst n).last0)
    (s.auditToken n k bad).1 = (!dup && !bad) ∧
    (dup = false → bad = false → k.bad = false → (s.auditToken n k bad).2 = s.auditPass .ring)) ∧
  (∀ (n : Nat) (k : KTok) (t : Int) (s u : State), s.auditToken n k (!k.lap && decide (k.count ≠ s.ncOf n)) = (true, u) →
    let x := u.kst n
    (k.lap = true → s.tokenHome n k t = (((u.setKst n { x with
      last1 := some k.band, flying := x.flying.filter (· ≠ k.band) }).add R.KRU_TOK_RETIRED_COUNT 1).syncFlight).issueTokens n 16) ∧
    (k.lap = false → k.bad = true → s.tokenHome n k t = u.setKst n { x with last0 := some k.band }) ∧
    (k.lap = false → k.bad = false → s.tokenHome n k t =
      (u.setKst n { x with last0 := some k.band, held := x.held ++ [k] }).moveTokens n t)) ∧
  (∀ (n src : Nat) (k : KTok) (t : Int) (s u : State), s.auditToken n k false = (true, u) → let x := u.kst n
    (k.lap = true → s.tokenPass n src k t =
      ((u.setKst n { x with last1 := some k.band }).sealRing n k.band t).sendToken n src k) ∧
    (k.lap = false → u.contributes n = true → s.tokenPass n src k t = (u.setKst n { x with held := x.held ++ [k] }).moveTokens n t) ∧
    (k.lap = false → u.contributes n = false → s.tokenPass n src k t =
      (u.setKst n { x with last0 := some k.band }).sendToken n src k)) ∧
  (∀ (n src : Nat) (k : KTok) (t : Int) (s u : State),
    (s.auditToken n k (!k.lap && decide (k.count ≠ s.ncOf n)) = (false, u) → s.tokenHome n k t = u) ∧
    (s.auditToken n k false = (false, u) → s.tokenPass n src k t = u)) ∧
  (∀ (n : Nat) (k : KTok) (ks : List KTok) (t : Int) (s : State),
    (s.memberFrozen = true ∨ (s.timing = false ∧ s.localSealed n k.band = false)) →
    s.passHeld n t (k :: ks) = s.setKst n { s.kst n with held := k :: ks }) ∧
  (∀ (n : Fin 8) (s : State), s.formed = true → (s.kst n).flying ≠ [] →
    exec (.tokenTimeout n) s = .next (((s.set R.KRU_AUD_LOST 1).raise Ev.auditRing).auditFail .ring s.ringStations)) ∧
  (∀ (t : Int) (s : State), s.timing = true → s.ringState = Ring.reform →
    exec (.foldFormedTimer t) s = .next (
      let v := if s.cutOff then s.raise Ev.memberLost else s
      ((v.sendFormed v.kru.members).owedAligns t).reissueTokens)) ∧
  (∀ s : State,
    let f := (s.set R.KRU_STATUS_STATE 6).set R.KRU_AUD_WINDOW 0
    (s.ringState = Ring.forming → exec .ringReformTimeout s = .next (f.set R.KRU_STATUS_LAST_STATUS 10)) ∧
    (s.ringState = Ring.reform → exec .ringReformTimeout s = .next (f.set R.KRU_STATUS_LAST_STATUS 9))) ∧
  (∀ (w : World) (v : BitVec 32) (s : State), Reaches s w .KRU_CFG 0 0 →
    let x := v.toNat
    let t := wrote s w .KRU_CFG 0 0 x
    1 ≤ R.KRU_CFG_MIN_LANES.of x → R.KRU_CFG_MIN_LANES.of x ≤ 16 → R.KRU_CFG_TOKEN_TIMEOUT.of x ≠ 0 → R.KRU_CFG_REFORM_MS.of x ≠ 0 →
    (s.ringIdle = true → s.on R.KRU_CFG_EN = false → t.on R.KRU_CFG_EN = true →
      exec (.kruCfgWrite w v) s = .next t.startKru) ∧
    (s.ringIdle = true → s.on R.KRU_CFG_EN = true → t.on R.KRU_CFG_EN = false →
      exec (.kruCfgWrite w v) s = .next t.stopKru) ∧
    (s.ringIdle = true → s.on R.KRU_CFG_EN = true → t.on R.KRU_CFG_EN = true → t.timing = s.timing →
      exec (.kruCfgWrite w v) s = .next t) ∧
    (s.ringIdle = true → s.on R.KRU_CFG_EN = true → t.on R.KRU_CFG_EN = true → t.timing ≠ s.timing →
      let u := (t.set R.KRU_STATUS_ROLE (b2n t.timing)).syncMember
      exec (.kruCfgWrite w v) s = .next
        ({ u with kru := { u.kru with timeOff := if u.timing then 0 else u.kru.timeOff } } : State).tryDiscover) ∧
    (s.ringIdle = false → R.KRU_CFG_EN.of x ≠ s.get R.KRU_CFG_EN →
      exec (.kruCfgWrite w v) s = .next ((s.countRefused w .state).set R.KRU_STATUS_LAST_STATUS 1)))

/-- Ring time, station alignment, tokens and forming. -/
def Obligations.RingTiming : Prop := RingTimeAndAlignment ∧ TokensAndForming

/-! ### The host interface -/

/-- The fields of HIF_ST_CTRL that hold while EN is 1 (R383). -/
def Sys2Proof.Stated.streamFields : List Fld :=
  [R.HIF_ST_CTRL_KIND, R.HIF_ST_CTRL_STATION, R.HIF_ST_CTRL_GAPS, R.HIF_ST_CTRL_SNAP, R.HIF_ST_CTRL_PORT, R.HIF_ST_CTRL_CHUNK,
   R.HIF_ST_CTRL_RING_LOG]

/-- Streams, their queues and their rings (R375, R376, R379, R383): a stream that may run is enabled and an Ethernet one counts from 0
again; EN = 0 stops it with its descriptor completed; an entry that may bind its queue takes it; TAIL inside the ring hands its
descriptors over, and one outside is refused with RANGE in both places. -/
def Obligations.StreamRegisters : Prop :=
  (∀ (w : World) (c : Fin 64) (v : BitVec 32) (s : State), Reaches s w .HIF_ST_CTRL c 0 →
    let t := wrote s w .HIF_ST_CTRL c 0 (v.toNat ||| 1)
    (s.stOn c = false → s.streamCheck c (v.toNat ||| 1) = none →
      exec (.streamEnable w c v) s = .next ((if t.isDma c then t else t.set R.HIF_ST_SEQ_SEQ 0 c).syncStream c)) ∧
    (s.stOn c = true → s.changes streamFields c 0 (v.toNat ||| 1) = true →
      exec (.streamEnable w c v) s = .next (((s.countRefused w .state).set R.HIF_STATUS_LAST_STATUS 1).set R.HIF_ST_STATUS_LAST_STATUS 1 c))) ∧
  (∀ (w : World) (c : Fin 64) (v : BitVec 32) (s : State), Reaches s w .HIF_ST_CTRL c 0 →
    let x := v.toNat - v.toNat % 2
    (s.stOn c = true → s.changes streamFields c 0 x = false →
      exec (.streamDisable w c v) s = .next ((wrote s w .HIF_ST_CTRL c 0 x).stopStream c)) ∧
    (s.stOn c = false → exec (.streamDisable w c v) s = .next (wrote s w .HIF_ST_CTRL c 0 x))) ∧
  (∀ (w : World) (j : Fin 1024) (v : BitVec 32) (s : State), Reaches s w .HIF_HQ j 0 →
    (R.HIF_HQ_EN.of v.toNat = 1 → s.hqCheck j v.toNat = none →
      exec (.hqEntryEnable w j v) s = .next (wrote s w .HIF_HQ j 0 v.toNat)) ∧
    (R.HIF_HQ_EN.of v.toNat = 0 → s.hqFree j v.toNat = true →
      exec (.hqEntryEnable w j v) s = .next (wrote s w .HIF_HQ j 0 v.toNat))) ∧
  (∀ (w : World) (c : Fin 64) (v : BitVec 32) (s : State), Reaches s w .HIF_ST_TAIL c 0 →
    (R.HIF_ST_TAIL_TAIL.of v.toNat < s.ringSize c →
      exec (.dmaTailWrite w c v) s = .next ((wrote s w .HIF_ST_TAIL c 0 v.toNat).syncStream c)) ∧
    (s.ringSize c ≤ R.HIF_ST_TAIL_TAIL.of v.toNat →
      exec (.dmaTailWrite w c v) s = .next (((s.countRefused w .range).set R.HIF_STATUS_LAST_STATUS 3).set R.HIF_ST_STATUS_LAST_STATUS 3 c)))

/-- A DMA stream that has no descriptor and finds one at HEAD that holds data takes it and releases its next chunk; a descriptor with no
data, or one refused by R380, is completed with its status and releases nothing; an Ethernet stream releases into its datagram while
its port may send (R378 to R380, R386, R387). A descriptor read that fails faults the stream and raises its event (R382). -/
def Sys2Proof.Stated.StreamsRelease : Prop :=
  (∀ (c : Fin 64) (d : HostDesc) (s : State), s.stLive c = true → s.isDma c = true → (s.stream c).desc = none →
    s.get R.HIF_ST_HEAD_HEAD c ≠ s.get R.HIF_ST_TAIL_TAIL c →
    (s.descStatus c d.addr.toNat d.len.toNat = none →
      exec (.releaseChunk c d) s = .next (((s.setStream c { s.stream c with desc := some (d.addr.toNat, d.len.toNat, d.irq), used := 0, top := none }
        ).releaseDma c).syncStream c)) ∧
    (∀ st, s.descStatus c d.addr.toNat d.len.toNat = some st →
      exec (.releaseChunk c d) s = .next ((s.completeDesc c st false d.irq).syncStream c))) ∧
  (∀ (c : Fin 64) (d : HostDesc) (s : State), s.stLive c = true → s.isDma c = false → s.txOk (s.get R.HIF_ST_CTRL_PORT c) = true →
    exec (.releaseChunk c d) s = .next ((s.releaseEth c).syncStream c)) ∧
  (∀ (c : Fin 64) (timeout : Bool) (s : State), s.stLive c = true → s.isDma c = true → (s.stream c).desc = none →
    s.get R.HIF_ST_HEAD_HEAD c ≠ s.get R.HIF_ST_TAIL_TAIL c →
    exec (.descriptorReadError c timeout) s = .next ((((((s.setStream c (s.stream c).cutShort).set R.HIF_ST_STATUS_STATE 3 c).set
      R.HIF_ST_STATUS_FAULT 1 c).set R.HIF_ST_STATUS_LAST_STATUS (if timeout then 10 else 9) c).addSat R.HIF_PCIE_ERR_CPL_ERR 1).raise
      Ev.streamFault)) ∧
  (∀ (c : Fin 64) (t : Int) (g : Dgram) (gs : List Dgram) (s : State), s.on R.HIF_CTRL_EN = true → s.isDma c = false →
    s.txOk (s.get R.HIF_ST_CTRL_PORT c) = true → (s.stream c).sendAt ≤ t → (s.stream c).ready = g :: gs →
    let payload := s.dgHeader c g ++ g.bytes
    exec (.datagramSend c t) s = .next ((s.emit (.datagram (s.get R.HIF_ST_CTRL_PORT c) c (s.frameFields c payload) payload)).setStream c
      { s.stream c with ready := gs, sendAt := t + (s.sendTime c (s.wireBits c payload.length) : Nat) }))

/-- A chunk of a DMA stream (R20, R325, R377 to R381): with no item begun, and no band of its station sealed that it has still to release,
nothing leaves the stream and its state stays as it is. A chunk goes to the buffer after the bytes used so far, by a data write with
Relaxed Ordering unless the host has cleared it, and counts its bytes and its band; one that does not fit closes the descriptor instead,
and the end of a band closes it with BAND_END and moves the stream to the next band. -/
def Sys2Proof.Stated.ChunkRelease : Prop :=
  (∀ (c : Nat) (s : State), (s.stream c).cut = none → (s.stream c).skip = none → (s.stream c).item = none →
    let n := s.get R.HIF_ST_CTRL_STATION c
    (s.on R.SCU_SEAL_ST_STATUS_VALID n = false ∨ s.get R.SCU_SEAL_ST_HZN_BAND n < s.relBand c n) → s.releaseDma c = s) ∧
  (∀ (c addr len : Nat) (irq : Bool) (x : Chunk) (s s1 : State), s.findWork c = .chunk x s1 → (s.stream c).desc = some (addr, len, irq) →
    let bs := x.bytes (s.get R.HIF_ST_CTRL_STATION c)
    let used := (s.stream c).used
    (used + bs.length ≤ len →
      s.releaseDma c =
        let s2 := s1.emit (.dmaWrite c (!s1.hif.strict.contains 0) (addr + used) bs)
        s2.setStream c { s2.stream c with
          used := used + bs.length, begun := true,
          top := some (match (s2.stream c).top with
            | some b => max b x.band
            | none => x.band) }) ∧
    (len < used + bs.length → s.releaseDma c = s.completeDesc c .ok false irq)) ∧
  (∀ (c addr len : Nat) (irq : Bool) (s s1 : State), s.findWork c = .bandEnd s1 → (s1.stream c).desc = some (addr, len, irq) →
    s.releaseDma c =
      let t := s1.completeDesc c .ok true irq
      let b := t.relBand c (t.get R.HIF_ST_CTRL_STATION c)
      (t.set R.HIF_ST_BAND b c).setStream c { t.stream c with begun := false, next := some (b + 1), pos := 0 })

/-- A completed descriptor (R380): bytes 16 to 31 hold the bytes used, the status with BAND_END, and the highest band with its valid
bit; HEAD moves on around the ring, SEQ counts, and IRQ raises the stream's completion event. -/
def Sys2Proof.Stated.DescriptorCompletion : Prop :=
  ∀ (c : Fin 64) (st : Status) (bandEnd irq : Bool) (s : State), s.held = false →
    let h := s.get R.HIF_ST_HEAD_HEAD c
    let t := s.completeDesc c st bandEnd irq
    t.out = s.out ++ [.dmaWrite c false (s.ringBase c + 32 * h + 16) (leBytes 4 (s.stream c).used ++
      leBytes 4 (st.code + if bandEnd then 256 else 0) ++
      leBytes 8 (match (s.stream c).top with
        | some b => b % 2 ^ 42 + 2 ^ 63
        | none => 0))] ∧
    t.get R.HIF_ST_HEAD_HEAD c = (h + 1) % s.ringSize c % 65536 ∧
    t.get R.HIF_ST_SEQ_SEQ c = (s.get R.HIF_ST_SEQ_SEQ c + 1) % 2 ^ 32 ∧ (t.stream c).desc = none ∧ (t.stream c).used = 0 ∧
    (irq = true → bit (t.get R.HIF_EVT_PEND_PEND ((1472 + c.val) / 32)) ((1472 + c.val) % 32) = true) ∧ SameMemory s t

/-- Streams release chunks, complete descriptors and send datagrams. -/
def Obligations.Streams : Prop := StreamsRelease ∧ ChunkRelease ∧ DescriptorCompletion

/-- A port takes a PTP message addressed to it or to the PTP group (R388). -/
def Sys2Proof.Stated.forPort (s : State) (p : Nat) : PtpDest → Prop
  | .ieee mac => mac.toNat = s.get R.HIF_ETH_MAC p ∨ mac.toNat = 0x011B19000000
  | .udp ip port => ip.toNat = s.get R.HIF_ETH_IP_IP p ∨ (ip.toNat = 0xE0000181 ∧ (port.toNat = 319 ∨ port.toNat = 320))

/-- The transport of a destination (R391). -/
def Sys2Proof.Stated.overIeee : PtpDest → Bool
  | .ieee _ => true
  | .udp _ _ => false

/-- Ethernet ports and PTP (R384, R387 to R391, R565): PAUSE holds transmission, and time 0 or its end releases it; other frames are counted;
a change of link sets CHANGED and raises its event, and without its reference a port has no link; the configuration is kept while a
stream uses the port; a PTP message addressed elsewhere is counted; a second Announce of one sender selects it, the better of two senders
is the master (the algorithm of IEEE 1588-2019, log 149), a Sync of it with the time is taken, a follow-up completes a two-step one, a delay response sets the path delay, and two seconds
without a Sync lose the lock. -/
def Obligations.EthernetAndPtp : Prop :=
  (∀ (p : Fin 4) (q : BitVec 16) (s : State), s.on R.HIF_ETH_CTRL_EN p = true → s.on R.HIF_ETH_STATUS_LINK p = true →
    exec (.pauseFrameRx p q) s = .next ((s.set R.HIF_ETH_STATUS_PAUSED (if q = 0 then 0 else 1) p).syncPort p)) ∧
  (∀ (p : Fin 4) (s : State), exec (.pauseTimeExpiry p) s = .next ((s.set R.HIF_ETH_STATUS_PAUSED 0 p).syncPort p)) ∧
  (∀ (p : Fin 4) (s : State), s.on R.HIF_ETH_CTRL_EN p = true →
    exec (.ethFrameDiscard p) s = .next (s.add R.HIF_ETH_RX_DROP_COUNT 1 p)) ∧
  (∀ (p : Fin 4) (up fec : Bool) (corr uncorr : Nat) (s : State), s.refRuns 5 = false →
    ∃ u, exec (.ethLinkChange p up fec corr uncorr) s = .next u ∧ u.get R.HIF_ETH_STATUS_LINK p = 0 ∧ u.get R.HIF_ETH_STATUS_FEC_LOCK p = 0) ∧
  (∀ (p : Fin 4) (fec : Bool) (corr uncorr : Nat) (s : State), s.on R.HIF_ETH_CTRL_EN p = true → s.on R.HIF_ETH_STATUS_LINK p = false →
    s.refRuns 5 = true →
    let t := ((s.addSat R.HIF_ETH_FEC_CORR corr p).addSat R.HIF_ETH_FEC_UNCORR uncorr p).set R.HIF_ETH_STATUS_FEC_LOCK (b2n fec) p
    exec (.ethLinkChange p true fec corr uncorr) s = .next ((((t.set R.HIF_ETH_STATUS_LINK 1 p).set R.HIF_ETH_STATUS_CHANGED 1 p).raise
      Ev.ethLink).syncPort p)) ∧
  (∀ (w : World) (p k : Fin 4) (v : BitVec 32) (s : State), Reaches s w (ethReg k) p 0 →
    let used := (List.range 64).any fun c => s.stOn c && !s.isDma c && decide (s.get R.HIF_ST_CTRL_PORT c = p.val)
    let m := R.HIF_ETH_CTRL_MTU.of v.toNat
    (used = false → (k.val = 0 → 1500 ≤ m ∧ m ≤ 9170) →
      exec (.ethPortConfigWrite w p k v) s = .next (wrote s w (ethReg k) p 0 v.toNat)) ∧
    (used = true →
      exec (.ethPortConfigWrite w p k v) s = .next ((s.countRefused w .state).set R.HIF_STATUS_LAST_STATUS 1))) ∧
  (∀ (p : Fin 4) (dest : PtpDest) (domain : Byte) (m : PtpMsg) (s : State), s.on R.HIF_ETH_CTRL_EN p = true → ¬ forPort s p dest →
    exec (.ptpMessageRx p dest domain m) s = .next (s.add R.HIF_ETH_RX_DROP_COUNT 1 p)) ∧
  (∀ (p : Fin 4) (dest : PtpDest) (domain : Byte) (s : State), s.on R.HIF_PTP_CTRL_EN = true → s.get R.HIF_PTP_CTRL_PORT = p.val →
    s.on R.HIF_ETH_CTRL_EN p = true → s.on R.HIF_PTP_CTRL_TRANSPORT = overIeee dest → s.get R.HIF_PTP_CTRL_DOMAIN = domain.toNat →
    forPort s p dest →
    let x := s.hif.ptp
    (∀ (src : BitVec 80) (d : PtpDataset) (t : Int), x.foreign = [] →
      exec (.ptpMessageRx p dest domain (.announce src d t)) s = .next
        ((s.setPtp (let y := { x with foreign := [{ src := src.toNat, data := d, last := t }] }
          if x.master = none then y else { y with master := none, awaits := none, t1 := none })).set R.HIF_PTP_STATUS_MASTER_SEEN 0)) ∧
    (∀ (src : BitVec 80) (d : PtpDataset) (t : Int) (f : PtpForeign), x.foreign = [f] → f.src = src.toNat →
      t - f.last ≤ 4 * (d.interval : Nat) → d.steps.toNat < 255 → ∃ u, exec (.ptpMessageRx p dest domain (.announce src d t)) s = .next u ∧
        u.hif.ptp.master = some src.toNat ∧ u.get R.HIF_PTP_STATUS_MASTER_SEEN = 1) ∧
    (∀ (src : BitVec 80) (d : PtpDataset) (t a : Int) (f g : PtpForeign), x.foreign = [f, g] → f.src = src.toNat → g.src ≠ src.toNat →
      t - f.last ≤ 4 * (d.interval : Nat) → d.steps.toNat < 255 → g.before = some a → t - a ≤ 4 * (g.data.interval : Nat) →
      t - g.last ≤ 4 * (g.data.interval : Nat) → g.data.steps.toNat < 255 → d.gm ≠ g.data.gm → d.prio1 ≠ g.data.prio1 →
      ∃ u, exec (.ptpMessageRx p dest domain (.announce src d t)) s = .next u ∧
        u.hif.ptp.master = some (if d.prio1.toNat < g.data.prio1.toNat then src.toNat else g.src)) ∧
    (∀ (src : BitVec 80) (seq : BitVec 16) (origin corr t : Int), x.master = some src.toNat →
      exec (.ptpMessageRx p dest domain (.sync src seq false origin corr t)) s = .next
        ((s.setPtp { x with syncSeq := seq.toNat, syncAt := t, awaits := none }).ptpSync (origin + corr)) ∧
      exec (.ptpMessageRx p dest domain (.sync src seq true origin corr t)) s = .next
        (s.setPtp { x with syncSeq := seq.toNat, syncAt := t, awaits := some corr })) ∧
    (∀ (src : BitVec 80) (seq : BitVec 16) (origin corr c0 : Int), x.master = some src.toNat → x.syncSeq = seq.toNat →
      x.awaits = some c0 →
      exec (.ptpMessageRx p dest domain (.followUp src seq origin corr)) s = .next (s.ptpSync (origin + corr + c0))) ∧
    (∀ (src : BitVec 80) (seq : BitVec 16) (rx corr sent : Int), x.master = some src.toNat → x.reqSeq = seq.toNat →
      exec (.ptpMessageRx p dest domain (.delayResp src seq rx corr sent)) s = .next (s.ptpDelay rx corr sent))) ∧
  (∀ s : State, s.on R.HIF_PTP_STATUS_LOCK = true → ∃ t, exec .ptpSyncTimeout s = .next t ∧ t.get R.HIF_PTP_STATUS_LOCK = 0 ∧
    t.get R.HIF_PTP_STATUS_CHANGED = 1 ∧ t.get R.LTU_REF_STATUS_PTP_LOCK = 0 ∧ t.hif.ptp.good = 0 ∧ t.hif.ptp.awaits = none)

/-- PCI Express (R372 to R374, R548, R554): a reset of PF0, D3hot, loss of the link and PERST_N stop every DMA stream with its descriptor
uncompleted and clear its EN, and mask its function's vectors, loss of the link and PERST_N those of both; the link comes back as it
trained. Requests the device does not serve are answered Unsupported Request and counted, and the first of a function is kept by its
AER; a BAR2 read gives the bytes of the HBM and
zeros for every byte of the secure world, the first of which is reported as a cross-world access (R209, R373). With the HBM in self-refresh what it gives is free (R483, log 150). -/
def Obligations.PciExpress : Prop :=
  (∀ s : State, exec .pf0Flr s = .next s.breakPf0 ∧ exec .pf0D3hotEntry s = .next s.breakPf0 ∧
    exec .pcieLinkLoss s = .next (((s.breakPf0.resetMsix 1).set R.HIF_STATUS_SPEED 0).set R.HIF_STATUS_WIDTH 0) ∧
    exec .perstAssert s = .next (
      let u := ((s.breakPf0.resetMsix 1).set R.HIF_STATUS_SPEED 0).set R.HIF_STATUS_WIDTH 0
      { u with smc := { u.smc with perst := false } })) ∧
  (∀ (c : Nat) (s : State), c < 64 → s.isDma c = true → s.stOn c = true →
    s.breakPf0.get R.HIF_ST_CTRL_EN c = 0 ∧ s.breakPf0.get R.HIF_ST_STATUS_STATE c = 0 ∧ (s.breakPf0.stream c).desc = none ∧
      s.breakPf0.out = s.out) ∧
  (∀ (v : Nat) (s : State), v < 256 → s.breakPf0.vecUnmasked v = false ∧ SMap.get s.breakPf0.hif.pba false v = false) ∧
  (∀ s : State, exec .perstRelease s = .next { s with smc := { s.smc with perst := true } }) ∧
  (∀ (speed width : Fin 5) (s : State), s.smc.perst = true → 2 ≤ s.dev →
    exec (.pcieLinkUp speed width) s = .next ((s.set R.HIF_STATUS_SPEED (speed.val + 1)).set R.HIF_STATUS_WIDTH (2 ^ width.val))) ∧
  (∀ (w : World) (a : Nat) (s : State),
    let f := if w = .secure then 1 else 0
    let u := ((s.addSat R.HIF_PCIE_ERR_BAD 1).raise Ev.pcieBad).emit (.unsupported w a)
    (SMap.get s.hif.aer none f = none →
      exec (.bar0BadAccess w a) s = .next { u with hif := { u.hif with aer := SMap.put u.hif.aer none f (some a) } }) ∧
    (SMap.get s.hif.aer none f ≠ none → exec (.bar0BadAccess w a) s = .next u)) ∧
  (∀ (a : Nat) (s : State), exec (.bar2Write a) s = .next ((s.addSat R.HIF_PCIE_ERR_BAD 1).emit (.unsupported .nonSecure a))) ∧
  (∀ (a n : Nat) (e : HbmErr) (s : State), n ≤ 4096 →
    let u := if s.smc.hbmRefresh then s.takeFresh.2 else s.windowError e
    let shown (i : Nat) : Nat := if s.smc.hbmRefresh then Config.freeByte s.takeFresh.1 i % 256 else u.hbmShown (a + i)
    let v := u.emit (.bar2Data a ((List.range n).map fun i => if u.bar2Secure (a + i) then 0 else shown i))
    ((∀ i < n, u.bar2Secure (a + i) = false) → exec (.bar2Read a ⟨n, e⟩) s = .next v) ∧
    (∀ i < n, u.bar2Secure (a + i) = true → (∀ j < i, u.bar2Secure (a + j) = false) →
      exec (.bar2Read a ⟨n, e⟩) s = .next (v.crossWorld .bar2 false (a + i)))) ∧
  (∀ (s : State) (a : Nat), s.windowError .none = s ∧ (s.overflowAt a = none → s.hbmShown a = s.hbm.byte a))

/-- Interrupt messages (R395): a vector that owes one sends it once its interval has passed, or records it in its PBA bit while
masked; unmasking it keeps the entry's address and data, sends what the PBA bit records and clears the bit. -/
def Sys2Proof.Stated.InterruptMessages : Prop :=
  (∀ (f : Fin 2) (v : Fin 256) (t : Int) (s : State),
    let k := 256 * f.val + v.val
    let m := SMap.get s.hif.msix (0, 0) k
    s.held = false → s.due.contains k = true → s.vecFree k t = true →
    (s.vecUnmasked k = true → ∃ u, exec (.msixMessage f v t) s = .next u ∧ u.out = s.out ++ [.msix f v m.1 m.2] ∧ u.due.contains k = false ∧
      SMap.get u.hif.pba false k = false ∧ u.regs = s.regs) ∧
    (s.vecUnmasked k = false → ∃ u, exec (.msixMessage f v t) s = .next u ∧ u.out = s.out ∧ u.due.contains k = false ∧
      SMap.get u.hif.pba false k = true ∧ u.regs = s.regs)) ∧
  (∀ (f : Fin 2) (v : Fin 256) (x : MsixEntry) (s : State), s.held = false →
    let k := 256 * f.val + v.val
    let sent : List Output := if SMap.get s.hif.pba false k then [.msix f v x.addr.toNat x.data.toNat] else []
    ∃ u, exec (.msixUnmask f v x) s = .next u ∧ u.out = s.out ++ sent ∧ u.vecUnmasked k = true ∧
      SMap.get u.hif.msix (0, 0) k = (x.addr.toNat, x.data.toNat) ∧ SMap.get u.hif.pba false k = false ∧ u.regs = s.regs)

/-- Raising an event source sets its pending bit and leaves every other pending bit; its group's summary bit reads 1 exactly when the
group holds a pending, enabled source (R392, R393), and its vector owes a message exactly when the source is enabled or it owed one
(R394, R395). -/
def Sys2Proof.Stated.EventsStayPending : Prop :=
  ∀ (n : Nat) (s : State), n < 1536 →
    let t := s.raise n
    bit (t.get R.HIF_EVT_PEND_PEND (n / 32)) (n % 32) = true ∧
    (∀ m, m < 1536 → m ≠ n → bit (s.get R.HIF_EVT_PEND_PEND (m / 32)) (m % 32) = true →
      bit (t.get R.HIF_EVT_PEND_PEND (m / 32)) (m % 32) = true) ∧
    (bit (t.get (if n / 32 < 32 then R.HIF_EVT_SUM_LO_GROUPS else R.HIF_EVT_SUM_HI_GROUPS)) (n / 32 % 32) =
      decide (t.get R.HIF_EVT_PEND_PEND (n / 32) &&& t.get R.HIF_EVT_EN_EN (n / 32) ≠ 0)) ∧
    (bit (s.get R.HIF_EVT_EN_EN (n / 32)) (n % 32) = true → t.due.contains (s.vectorOf n) = true) ∧
    (bit (s.get R.HIF_EVT_EN_EN (n / 32)) (n % 32) = false → t.due = s.due) ∧ FieldsBut (eventKeys n) s t ∧ SameMemory s t

/-- Raised events stay pending and owe their vector a message, and vectors send or record it. -/
def Obligations.EventsAndVectors : Prop := InterruptMessages ∧ EventsStayPending

/-- The security responder (R508 to R511): every request is answered on its transport. While another is being answered the answer is the
busy error; GET_VERSION names version 1.2; a request of another version than the negotiated one, one outside the subset, and a
measurement index that is not held meet their errors. Of the algorithms offered the answer names those in common with R508. Index 0 gives
the number of the measurements held. A single measurement asked for without a signature is one block, the digest of
the index, then the nonce and the opaque data, whose element of vendor 1F47h holds the flags UNVERIFIED_COMBO, owner keys and
POLICY_SRC. Codes and layouts are those of DSP0274 (the model's reading, log 11). -/
def Sys2Proof.Stated.SpdmAnswers : Prop :=
  (∀ (tr : Transport) (v : BitVec 8) (r : SpdmReq) (busy : Bool) (s : State), s.held = false →
    exec (.spdmRequest tr v r busy) s = .next (s.takeFresh.2.emit (.spdm (transportCode tr) (s.spdmAnswer v.toNat r busy)))) ∧
  (∀ (v : Nat) (r : SpdmReq) (s : State), s.spdmAnswer v r true = [0x12, 0x7F, 3, 0]) ∧
  (∀ (v : Nat) (s : State), s.spdmAnswer v .getVersion false = [0x10, 4, 0, 0, 0, 1, 0, 0x12]) ∧
  (∀ (v : Nat) (r : SpdmReq) (s : State), v ≠ 0x12 → r ≠ .getVersion → s.spdmAnswer v r false = [0x12, 0x7F, 0x41, 0]) ∧
  (∀ (code : BitVec 8) (s : State), s.spdmAnswer 0x12 (.other code) false = [0x12, 0x7F, 7, code.toNat]) ∧
  (∀ (i : BitVec 8) (nonce : List Byte) (s : State), i.toNat ≠ 0 → i.toNat ≠ 0xFF → s.measured i.toNat = false →
    s.spdmAnswer 0x12 (.getMeasurements i nonce) false = [0x12, 0x7F, 1, 0]) ∧
  (∀ (i : BitVec 8) (s : State), i.toNat ≠ 0 → i.toNat ≠ 0xFF → s.measured i.toNat = true → (s.measurement i.toNat).length = 48 →
    s.spdmAnswer 0x12 (.getMeasurements i []) false =
      [0x12, 0x60, 0, 0, 1, 55, 0, 0, i.toNat, 1, 51, 0, measType i.toNat, 48, 0] ++ s.measurement i.toNat ++ s.spdmNonce ++ [16, 0] ++
        s.opaqueData) ∧
  (∀ (o : AlgOffer) (s : State), s.spdmAnswer 0x12 (.negotiateAlgorithms o) false =
    [0x12, 0x63, 0, 0, 36, 0, o.spec.toNat &&& 1, o.other.toNat &&& 2, 4 * (o.spec.toNat &&& 1), 0, 0, 0, o.asym.toNat &&& 0x80, 0, 0, 0,
      o.hash.toNat &&& 2, 0, 0, 0] ++ List.replicate 16 0) ∧
  (∀ s : State, s.spdmAnswer 0x12 (.getMeasurements 0 []) false =
    [0x12, 0x60, s.allMeasured.length, 0, 0, 0, 0, 0] ++ s.spdmNonce ++ [16, 0] ++ s.opaqueData) ∧
  (∀ s : State, s.opaqueData = [1, 0, 0, 0, 3, 2, 0x47, 0x1F, 4, 0] ++ leBytes 4 (b2n (s.on R.SMC_POLICY_UNVERIFIED_COMBO) +
    2 * b2n (decide (s.get R.SMC_ID_CFG_OWNER = 1)) + 4 * s.get R.SMC_POLICY_POLICY_SRC) ++ [0, 0])

/-! ### Illumination -/

/-- Strings (R414, R417, R430 to R433): an observation, of the oldest gate of at least 1 µs still to be observed, is kept with that gate's
line; four open or four short ones in a row, or an overcurrent of
a string that lights, latch its fault, which takes its gate low and holds the string off, names it in the group's fault register and raises the group's
event; clearing FAULT starts afresh. A diagnostic pulse that fits the window before the next gate fires on every due channel, in SCANNING and DRAINING only, and its deferral
starts afresh. -/
def Sys2Proof.Stated.StringChannels : Prop :=
  (∀ (c : Fin 96) (cur : BitVec 12) (mv : BitVec 16) (s : State) (y : LitGate) (rest : List LitGate), (s.chan c).observed = some (y, rest) →
    let short := s.get R.ILC_STR_CFG_SHORT_MV c
    let isOpen := 2 * cur.toNat < y.level
    let isShort := ¬ isOpen ∧ short ≠ 0 ∧ mv.toNat < short
    let seen (o h : Nat) : State := (((((s.setChan c { s.chan c with gates := rest, opens := o, shorts := h }).set R.ILC_STR_MEAS_I cur.toNat c).set
      R.ILC_STR_MEAS_V mv.toNat c).set R.ILC_STR_STATUS_SINCE 0 c).set R.ILC_STR_STATUS_FAILS (max o h) c)
    (¬ isOpen → ¬ isShort → exec (.stringObservation c cur mv) s = .next (seen 0 0)) ∧
    (isOpen → (s.chan c).opens + 1 < 4 → exec (.stringObservation c cur mv) s = .next (seen ((s.chan c).opens + 1) 0)) ∧
    (isOpen → 4 ≤ (s.chan c).opens + 1 →
      exec (.stringObservation c cur mv) s = .next ((seen ((s.chan c).opens + 1) 0).stringFault c 1 y.line)) ∧
    (isShort → (s.chan c).shorts + 1 < 4 → exec (.stringObservation c cur mv) s = .next (seen 0 ((s.chan c).shorts + 1))) ∧
    (isShort → 4 ≤ (s.chan c).shorts + 1 →
      exec (.stringObservation c cur mv) s = .next ((seen 0 ((s.chan c).shorts + 1)).stringFault c 2 y.line))) ∧
  (∀ (c : Fin 96) (s : State) (n : Nat) (e : Int × Int), (s.grp (s.get R.ILC_STR_CFG_GROUP c)).line = some (n, e) →
    ((s.chan c).gates ≠ [] ∨ s.get R.ILC_STR_STATUS_MODE c = 1 ∨ s.get R.ILC_STR_STATUS_MODE c = 2) →
    s.on R.ILC_STR_STATUS_FAULT c = false →
    exec (.stringOvercurrent c) s = .next (s.stringFault c 3 n)) ∧
  (∀ (c : Fin 96) (g : Fin 8) (kind : Fin 4) (n : Nat) (s : State), s.get R.ILC_STR_CFG_GROUP c = g →
    let t := s.stringFault c kind n
    t.get R.ILC_STR_STATUS_FAULT c = 1 ∧ t.get R.ILC_STR_STATUS_KIND c = kind ∧ t.get R.ILC_GRP_FAULT_STRING g = c ∧
      t.get R.ILC_GRP_FAULT_KIND g = kind ∧ t.get R.ILC_GRP_FAULT_WPI g = n % 2 ^ 48 ∧ t.get R.ILC_GRP_FAULT_NEW g = 1 ∧
      (t.chan c).gates = [] ∧ bit (t.get R.HIF_EVT_PEND_PEND 42) g = true) ∧
  (∀ (w : World) (c : Fin 96) (v : BitVec 32) (s : State), Reaches s w .ILC_STR_STATUS c 0 → R.ILC_STR_STATUS_FAULT.of v.toNat = 1 →
    let t := wrote s w .ILC_STR_STATUS c 0 v.toNat
    exec (.stringFaultClear w c v) s = .next
      ((t.setChan c { t.chan c with opens := 0, shorts := 0 }).set R.ILC_STR_STATUS_FAILS 0 c).syncFaulted) ∧
  (∀ (g : Fin 8) (s : State) (n : Nat) (ss ee : Int) (l : CLine) (ls : List CLine), (s.grp g).line = some (n, ss, ee) →
    (s.lst (s.grpStation g)).committed = l :: ls → s.groupLights g = true →
    (s.stState (s.grpStation g) = St.scanning ∨ s.stState (s.grpStation g) = St.draining) → s.dueChannels g ≠ [] →
    let w : Nat := 64 * s.get R.ILC_GRP_DIAG_DIAG_W g
    let stop : Int := 5 * l.ss - 64 * (s.get R.ILC_GRP_TIMING_ONDLY g + s.get R.ILC_GRP_TIMING_OFFDLY g : Nat)
    5 * max ee l.at_ ≤ stop - w →
    exec (.diagPulse g) s = .next (s.each (s.dueChannels g) fun s c =>
      ((s.setChan c { s.chan c with deferred := 0 }).gateOn c (tickOf (stop - w), tickOf stop) 512 n).add R.ILC_STR_STATUS_DIAGS 1 c))

/-- Light of one channel for a line (R413 to R417, R420, R425, R426, R429). Its brightness is the pattern's times the ramp's times the
compensation formed after the line before, at most 1, and 0 for a channel that is off, at fault or forced off; from 1/8 it is driven by
its set point for the whole exposure, and below that at full drive for the time that gives the same light, centred in the exposure. The
gate goes out with its edges moved by ONDLY and OFFDLY. The compensation moves one step toward its target for the line after. -/
def Sys2Proof.Stated.Lighting : Prop :=
  ∀ (g : Fin 8) (c : Fin 96) (n : Nat) (t ss ee : Int) (s : State), s.get R.ILC_STR_CFG_GROUP c = g → s.held = false →
    s.dev ≠ Dev.thermalLatch →
    let comp := (s.chan c).formed.getD (s.get R.ILC_STR_APPLIED_COMP c)
    let k := useFor n (s.grp g).uses
    let off := s.on R.ILC_STR_CFG_EN c = false ∨ s.on R.ILC_STR_STATUS_FAULT c = true ∨ offFor n (s.grp g).offs = true
    let b := min 0x8000 (roundDiv (s.patternOf g c k n * k.factor n * comp) (2 ^ 30))
    let u := s.lightString g c n t ss ee
    let sw := [s.get R.ILC_GRP_SW_FSW g, s.get R.ILC_GRP_SW_DITH g, s.get R.ILC_GRP_SW_DRATE g, c.val % 12]
    let ton := roundDiv (8 * b * (ee - ss).toNat) (32768 * 32)
    let ta := ss + 32 * roundDivI (((ee - ss).toNat : Int) - 32 * ton) 64
    let edge (a d : Int) : Int := tickOf (5 * a - 64 * d)
    let on : Int := s.get R.ILC_GRP_TIMING_ONDLY g
    let off' : Int := s.get R.ILC_GRP_TIMING_OFFDLY g
    u.get R.ILC_STR_APPLIED_COMP c = comp % 65536 ∧
    (off → u.get R.ILC_STR_APPLIED_B c = 0 ∧ u.out = s.out) ∧
    (¬ off → u.get R.ILC_STR_APPLIED_B c = b) ∧
    (¬ off → 0x1000 ≤ b → ss < ee →
      u.get R.ILC_STR_STATUS_MODE c = 1 ∧
        u.out = s.out ++ [.gate c (edge ss on) (edge ee off') (roundDiv (b * 4095) 32768) sw]) ∧
    (¬ off → 0 < b → b < 0x1000 → s.get R.ILC_GRP_DIAG_MINON g ≤ ton → 0 < ton →
      u.get R.ILC_STR_STATUS_MODE c = 2 ∧ u.out = s.out ++ [.gate c (edge ta on) (edge (ta + 32 * ton) off') 512 sw]) ∧
    (∃ f, (u.chan c).formed = some f ∧
      (let target := s.compTarget g (s.get R.ILC_STR_CFG_COLOUR c)
       (comp < target → f = comp + 1) ∧ (target < comp → f = comp - 1) ∧ (comp = target → f = comp)))

/-- What a line lights, string observations, faults, their clearing and diagnostic pulses. -/
def Obligations.Strings : Prop := StringChannels ∧ Lighting

/-- Lamp groups (R420 to R427): a word of a bank that is neither active nor held takes its four bytes, every other byte of the window
kept, and one of a bank in use is refused and counted; GO makes the inactive bank pending at its hinge, by default the first band that
starts at or after the next line whose first commit is still to come, in IDLE the first line of the next run; FORCE_OFF acts at once before the first
committed line and from the next band on after it; enabling compensation starts without a temperature, on HOLD. -/
def Obligations.LampGroups : Prop :=
  (∀ (w : World) (j : Fin 16) (o : Fin 12288) (v : BitVec 32) (s : State),
    let a := 0x3900000 + 0xC000 * j.val + 4 * o.val
    let g := j.val / 2
    ReachesAt s w a →
    (s.get R.ILC_GRP_BANK_ACTIVE g ≠ j % 2 → s.on R.ILC_GRP_BANK_HELD g = false →
      ∃ t, exec (.patternWindowWrite w j o v) s = .next t ∧ (∀ k, k < 4 → t.leaf.byte (a + k) = bits v.toNat (8 * k) 8) ∧
        (∀ b : Nat, (b < a ∨ a + 4 ≤ b) → t.leaf.byte b = s.leaf.byte b) ∧ t.regs = s.regs) ∧
    (s.get R.ILC_GRP_BANK_ACTIVE g = j % 2 ∨ s.on R.ILC_GRP_BANK_HELD g = true →
      exec (.patternWindowWrite w j o v) s = .next ((((s.countRefused w .busy).set R.ILC_STATUS_LAST_STATUS 6).add
        R.ILC_REFUSED_COUNT 1).raise (1376 + g)))) ∧
  (∀ (w : World) (g : Fin 8) (v : BitVec 32) (s : State), Reaches s w .ILC_GRP_BANK g 0 →
    let n := s.grpStation g
    let free := if (s.sto n).restart then max (s.lst n).next (s.get R.SST_ST_REW_R n) else (s.lst n).next
    let next := if s.stBusy n then free else s.w0 n
    let h := if s.get R.ILC_GRP_SWAP_H g = 0 then nextBandStart next (s.bandExp n) else s.get R.ILC_GRP_SWAP_H g
    R.ILC_GRP_BANK_GO.of v.toNat = 1 → R.ILC_GRP_BANK_RLEN.of v.toNat ≤ 20 → isBandStart h (s.bandExp n) = true →
    (s.stBusy n = true → next ≤ h) → s.on R.ILC_GRP_BANK_HELD g = false →
    exec (.patternSwapRequest w g v) s = .next ((wrote s w .ILC_GRP_BANK g 0 v.toNat).pendBank g h)) ∧
  (∀ (w : World) (g : Fin 8) (v : BitVec 32) (s : State), Reaches s w .ILC_GRP_CTRL g 0 →
    s.changes [R.ILC_GRP_CTRL_EN, R.ILC_GRP_CTRL_STATION, R.ILC_GRP_CTRL_MODE, R.ILC_GRP_CTRL_LEN_LOG, R.ILC_GRP_CTRL_STEP] g 0
      v.toNat = false → R.ILC_GRP_CTRL_LEN_LOG.of v.toNat ≤ 8 →
    let b := decide (R.ILC_GRP_CTRL_FORCE_OFF.of v.toNat = 1)
    s.on R.ILC_GRP_CTRL_FORCE_OFF g ≠ b →
    let t := wrote s w .ILC_GRP_CTRL g 0 v.toNat
    let n := t.grpStation g
    let h := nextBandStart (if (t.sto n).restart then max (t.lst n).next (t.get R.SST_ST_REW_R n) else (t.lst n).next) (t.bandExp n)
    let dark (u : State) : State := if u.on R.ILC_GRP_CTRL_EN g then u else u.gatesLow (u.channelsOf g)
    (t.stBusy n = true → (t.lst n).everCommitted = true → exec (.forceOffWrite w g v) s = .next (dark (t.setGrp g { t.grp g with
      offs := ((h, b) :: (t.grp g).offs.filter fun p => p.1 < h).take 8 }))) ∧
    (t.stBusy n = false ∨ (t.lst n).everCommitted = false →
      exec (.forceOffWrite w g v) s = .next (dark ((t.setGrp g { t.grp g with offs := [(0, b)] }).set R.ILC_GRP_CTRL_OFF_NOW (b2n b) g)))) ∧
  (∀ (w : World) (g : Fin 8) (v : BitVec 32) (s : State), Reaches s w .ILC_GRP_TCOMP g 0 →
    let t := wrote s w .ILC_GRP_TCOMP g 0 v.toNat
    let u := t.setGrp g { t.grp g with taken := false }
    (R.ILC_GRP_TCOMP_EN.of v.toNat = 1 → s.pointsBad g = false →
      exec (.ilcTcompEnable w g v) s = .next ((u.set R.ILC_GRP_TCOMP_HOLD 1 g).raise (1352 + g.val))) ∧
    (R.ILC_GRP_TCOMP_EN.of v.toNat = 0 → exec (.ilcTcompEnable w g v) s = .next (u.set R.ILC_GRP_TCOMP_HOLD 0 g)))

/-! ### Measurement front end -/

/-- A frame of the sequencer (R438, R440 to R443, R451): its start lays out the enabled entries below COUNT and the slots left to urgent
conversions; each dwell takes the entry at the front with its codes, each trimmed with the offset and the gain error of its slice; with
none left an urgent conversion that fits runs and is reported; and the end of a dwell stops a sequencer that is to stop, or else brings
a spare that waits for its boundary into service. -/
def Sys2Proof.Stated.MeasurementFrames : Prop :=
  (∀ s : State, s.mfeRuns = true → s.mfe.stopping = false → s.mfe.sync = 0 → (∀ e, e < 64 → (s.ment e).auto = none) →
    exec .mfeFrameStart s = .next { s with mfe := { s.mfe with
      sync := 0, todo := s.frameEntries, slack := s.get R.MFE_SEQ_PERIOD_PERIOD / 24 - s.usedSlots } }) ∧
  (∀ (ab bc : List (Fin 5 × BitVec 16)) (s : State) (e : Nat) (es : List Nat), s.mfeRuns = true → s.mfe.todo = e :: es →
    exec (.mfeEntrySample ab bc) s = .next (({ s with mfe := { s.mfe with todo := es } } : State).regular e (ab.map s.trimmed)
      (bc.map s.trimmed)).dwellEnd) ∧
  (∀ (ab bc : List (Fin 5 × BitVec 16)) (s : State) (e : Nat) (es : List Nat), s.mfeRuns = true → s.mfe.todo = [] →
    s.mfe.urg = e :: es → s.dwell e ≤ s.mfe.slack →
    exec (.mfeEntrySample ab bc) s = .next ((({ s with mfe := { s.mfe with urg := es, slack := s.mfe.slack - s.dwell e } } : State).set
      R.MFE_URGENT_QUEUED es.length).urgentDone e (ab.map s.trimmed) (bc.map s.trimmed)).dwellEnd) ∧
  (∀ s : State, (s.mfe.stopping = false → s.mfe.swapDue = false → s.dwellEnd = s) ∧
    (s.mfe.stopping = false → s.mfe.swapDue = true →
      s.dwellEnd = ({ s with mfe := { s.mfe with swapDue := false } } : State).swapSlice (s.get R.MFE_STATUS_SPARE)) ∧ (s.mfe.stopping = true → s.dwellEnd = s.seqStop))

/-- A voltage entry with no chain, accumulators in range, no record and no group or output that takes it (R438, R443, R446, R450): its
dwell of trimmed codes below the rail gives the mean in the entry's scale, unflagged, counted in SEQ and the accumulator, with NEW set;
SETTLED, which is of a chain, reads 0. -/
def Obligations.VoltageDwells : Prop :=
  ∀ (e : Fin 64) (es : List Nat) (ab : List (Fin 5 × BitVec 16)) (s : State), s.mfeRuns = true → s.mfe.todo = e.val :: es →
    s.mfe.stopping = false → (s.ment e).held = none → ab.length = 2 ^ s.get R.MFE_ENT_CFG_OSR e →
    24 ≤ s.get R.MFE_ENT_CFG_INPUT e → s.on R.MFE_ENT_CFG_CH_EN e = false → s.on R.MFE_ENT_REC_EN e = false →
    s.on R.MFE_ENT_STATUS_OPEN e = false → (∀ c ∈ ab, (s.trimmed c).natAbs < s.get R.MFE_CTRL_RAIL) →
    (∀ g : Fin 8, s.get R.ILC_GRP_TCOMP_ENTRY g ≠ e) → (∀ o : Fin 8, s.on R.MFE_OUT_CFG_EN o = false) →
    let sum := (ab.map s.trimmed).foldl (· + ·) 0
    let v := roundDivI (sum * (if s.on R.MFE_ENT_EXC_ATTEN e then 3125 else 625)) (10 * 2 ^ s.get R.MFE_ENT_CFG_OSR e)
    (-2 ^ 31 ≤ v ∧ v < 2 ^ 31) → (-2 ^ 47 ≤ s.getS R.MFE_ACC_SUM e + v ∧ s.getS R.MFE_ACC_SUM e + v < 2 ^ 47) →
    ∃ t, exec (.mfeEntrySample ab []) s = .next t ∧ t.getS R.MFE_RES_VALUE e = v ∧ t.get R.MFE_RES_FLAGS_FLAGS e = 0 ∧
      t.get R.MFE_RES_FLAGS_NEW e = 1 ∧ t.get R.MFE_RES_FLAGS_SEQ e = (s.get R.MFE_RES_FLAGS_SEQ e + 1) % 65536 ∧
      t.getS R.MFE_ACC_SUM e = s.getS R.MFE_ACC_SUM e + v ∧ t.get R.MFE_ENT_STATUS_SETTLED e = 0 ∧ t.mfe.todo = es ∧ SameMemory s t

/-- The offset and gain error that a calibration gives the spare (R438; log 49), and the spare once both lie inside the limits. -/
def Sys2Proof.Stated.trim (ground : Int) (ref : CalRef) (s : State) : State :=
  (s.setS R.MFE_SLICE_OFFSET (max (-2048) (min 2047 (roundDivI ground 1024))) (s.get R.MFE_STATUS_SPARE)).setS R.MFE_SLICE_GAIN
    (max (-32768) (min 32767 (roundDivI ((ref.sum - ground - 1024 * (ref.nominal : Int)) * 1000000) (1024 * ref.nominal))))
    (s.get R.MFE_STATUS_SPARE)
def Sys2Proof.Stated.spareGood (ground : Int) (ref : CalRef) (s : State) : State :=
  let t := trim ground ref s
  { t.set R.MFE_SLICE_ROLE 2 (s.get R.MFE_STATUS_SPARE) with mfe := { t.mfe with swapDue := true } }

/-- Calibration and control (R437 to R439, R441, R442, R451): the reference becomes ready while enabled; a background calibration trims the
spare with the mean of its codes of ground and its gain error (log 49), inside the limits brings it into service at the next entry
boundary, and outside them retires it; a write of MFE_CTRL starts the sequencer or stops it, at the end of the present dwell (which one
that is: log 133); REF_EN cleared stops it at once, and with it REF_RDY; SEQ_EN is refused by R441's table; urgent requests queue four deep and a fifth is BUSY; chains named in MFE_SYNC restart at the next frame. -/
def Sys2Proof.Stated.FrontEndControl : Prop :=
  (∀ s : State, s.on R.MFE_CTRL_REF_EN = true → exec .mfeRefReady s = .next (s.set R.MFE_STATUS_REF_RDY 1)) ∧
  (∀ (ground : Int) (ref : CalRef) (s : State), s.on R.MFE_STATUS_REF_RDY = true → s.get R.MFE_CAL_INT ≠ 0 →
    s.on R.MFE_STATUS_NO_SPARE = false → s.get R.MFE_STATUS_STATE ≠ 2 → s.mfe.swapDue = false →
    let i := s.get R.MFE_STATUS_SPARE
    let off := max (-2048) (min 2047 (roundDivI ground 1024))
    let gain := max (-32768) (min 32767 (roundDivI ((ref.sum - ground - 1024 * (ref.nominal : Int)) * 1000000) (1024 * ref.nominal)))
    let t := trim ground ref s
    let u := spareGood ground ref s
    (off.natAbs ≤ 64 → gain.natAbs ≤ 5000 → u.inDwell = true → exec (.mfeBackgroundCal ground ref) s = .next u) ∧
    (off.natAbs ≤ 64 → gain.natAbs ≤ 5000 → u.inDwell = false →
      exec (.mfeBackgroundCal ground ref) s = .next
        (({ u with mfe := { u.mfe with swapDue := false } } : State).swapSlice (u.get R.MFE_STATUS_SPARE))) ∧
    (64 < off.natAbs ∨ 5000 < gain.natAbs → exec (.mfeBackgroundCal ground ref) s = .next (t.retireSlice i))) ∧
  (∀ (i k : Nat) (s : State), s.mfe.rr < 5 → i < 6 → k < 5 → (∀ d, d < k → s.get R.MFE_SLICE_ROLE ((s.mfe.rr + d) % 5) ≠ 0) →
    let j := (s.mfe.rr + k) % 5
    s.get R.MFE_SLICE_ROLE j = 0 → i ≠ j →
    let t := s.swapSlice i
    t.get R.MFE_SLICE_ROLE i = 0 ∧ t.get R.MFE_SLICE_ROLE j = 1 ∧ t.get R.MFE_STATUS_SPARE = j ∧ t.mfe.rr = (j + 1) % 5) ∧
  (∀ (w : World) (v : BitVec 32) (s : State), Reaches s w .MFE_CTRL 0 0 → 16384 ≤ R.MFE_CTRL_RAIL.of v.toNat →
    R.MFE_CTRL_RAIL.of v.toNat ≤ 32767 →
    let t := wrote s w .MFE_CTRL 0 0 v.toNat
    (s.on R.MFE_CTRL_REF_EN = false → R.MFE_CTRL_REF_EN.of v.toNat = 1 → s.on R.MFE_CTRL_SEQ_EN = false →
      R.MFE_CTRL_SEQ_EN.of v.toNat = 0 → exec (.mfeRefEnable w v) s = .next t ∧ exec (.mfeSeqEnable w v) s = .next t) ∧
    (R.MFE_CTRL_REF_EN.of v.toNat = 1 → s.on R.MFE_CTRL_SEQ_EN = false → R.MFE_CTRL_SEQ_EN.of v.toNat = 1 → s.seqCheck = none →
      exec (.mfeRefEnable w v) s = .next t.seqStart ∧ exec (.mfeSeqEnable w v) s = .next t.seqStart) ∧
    (R.MFE_CTRL_REF_EN.of v.toNat = 1 → s.on R.MFE_CTRL_SEQ_EN = true → R.MFE_CTRL_SEQ_EN.of v.toNat = 0 →
      exec (.mfeRefEnable w v) s = .next t.seqEnd ∧ exec (.mfeSeqEnable w v) s = .next t.seqEnd) ∧
    (s.on R.MFE_CTRL_REF_EN = true → R.MFE_CTRL_REF_EN.of v.toNat = 0 →
      (s.on R.MFE_CTRL_SEQ_EN = decide (R.MFE_CTRL_SEQ_EN.of v.toNat = 1)) →
      let u := (t.set R.MFE_CTRL_SEQ_EN (b2n (s.on R.MFE_CTRL_SEQ_EN))).refOff
      exec (.mfeRefEnable w v) s = .next u ∧ exec (.mfeSeqEnable w v) s = .next u) ∧
    (s.on R.MFE_CTRL_SEQ_EN = false → R.MFE_CTRL_SEQ_EN.of v.toNat = 1 → s.get R.MFE_SEQ_CTRL_COUNT ≠ 0 →
      R.MFE_CTRL_REF_EN.of v.toNat = 1 → (∀ e, e < 64 → s.on R.MFE_ENT_REC_EN e = false) →
      let refused (c : Status) : Prop :=
        exec (.mfeRefEnable w v) s = .next ((s.countRefused w c).set R.MFE_STATUS_LAST_STATUS c.code) ∧
        exec (.mfeSeqEnable w v) s = .next ((s.countRefused w c).set R.MFE_STATUS_LAST_STATUS c.code)
      (64 < s.get R.MFE_SEQ_CTRL_COUNT → refused .length) ∧
      (s.get R.MFE_SEQ_CTRL_COUNT ≤ 64 → (s.on R.MFE_STATUS_REF_RDY = false ∨ s.get R.MFE_STATUS_STATE = 2) → refused .state) ∧
      (s.get R.MFE_SEQ_CTRL_COUNT ≤ 64 → s.on R.MFE_STATUS_REF_RDY = true → s.get R.MFE_STATUS_STATE ≠ 2 →
        (s.get R.MFE_SEQ_PERIOD_PERIOD / 24 < s.usedSlots + s.get R.MFE_SEQ_CTRL_URG_SLACK ∨
          ∃ c ∈ s.boundChains, s.scs c = true ∧ 12000000 % s.get R.MFE_SEQ_PERIOD_PERIOD ≠ 0) → refused .range)) ∧
    (s.on R.MFE_CTRL_SEQ_EN = false → R.MFE_CTRL_SEQ_EN.of v.toNat = 1 → s.get R.MFE_SEQ_CTRL_COUNT ≠ 0 →
      R.MFE_CTRL_REF_EN.of v.toNat = 0 →
      exec (.mfeSeqEnable w v) s = .next ((s.countRefused w .state).set R.MFE_STATUS_LAST_STATUS 1))) ∧
  (∀ s : State, s.refOff.get R.MFE_STATUS_REF_RDY = 0 ∧ s.refOff.get R.MFE_CTRL_SEQ_EN = 0 ∧ s.refOff.get R.MFE_STATUS_STATE ≠ 1 ∧
    s.refOff.mfe.todo = []) ∧
  (∀ s : State, (s.inDwell = true → s.seqEnd = { s with mfe := { s.mfe with todo := s.mfe.todo.take 1, stopping := true } }) ∧
    (s.inDwell = false → s.seqEnd = s.seqStop)) ∧
  (∀ (w : World) (v : BitVec 32) (s : State), Reaches s w .MFE_URGENT 0 0 → R.MFE_URGENT_GO.of v.toNat = 1 →
    (s.mfe.urg.length < 4 →
      exec (.mfeUrgentRequest w v) s = .next (
        let t := wrote s w .MFE_URGENT 0 0 v.toNat
        ({ t with mfe := { t.mfe with urg := t.mfe.urg ++ [R.MFE_URGENT_ENTRY.of v.toNat] } } : State).set R.MFE_URGENT_QUEUED
          (t.mfe.urg.length + 1))) ∧
    (4 ≤ s.mfe.urg.length →
      exec (.mfeUrgentRequest w v) s = .next ((s.countRefused w .busy).set R.MFE_STATUS_LAST_STATUS 6))) ∧
  (∀ (w : World) (v : BitVec 32) (s : State), Reaches s w .MFE_SYNC 0 0 →
    exec (.mfeChainSync w v) s = .next (
      let t := wrote s w .MFE_SYNC 0 0 v.toNat
      { t with mfe := { t.mfe with sync := t.mfe.sync ||| v.toNat } }))

/-- Frames of the sequencer, urgent conversions, calibration and control of the front end. -/
def Obligations.FrontEndRuns : Prop := MeasurementFrames ∧ FrontEndControl

/-- Entries, chains and outputs (R445, R446, R453 to R455, R458, R459): clearing OPEN and changing the excitation restart the entry's chain
at its next dwell, the one in progress keeping the excitation it began with; reading the low half of a sum shows it, holds the other words of the set and clears it when ACC_CLR is 1, and reading a
result holds its flags; a swap to a sound leaf becomes pending; a filter leaf not in use takes a word; an output that runs takes only the
write that switches it off, and shows its settings at the end of a period. -/
def Obligations.FrontEndRegisters : Prop :=
  (∀ (w : World) (e : Fin 64) (v : BitVec 32) (s : State), Reaches s w .MFE_ENT_STATUS e 0 →
    let t := wrote s w .MFE_ENT_STATUS e 0 v.toNat
    (s.on R.MFE_ENT_STATUS_OPEN e = true → R.MFE_ENT_STATUS_OPEN.of v.toNat = 1 →
      exec (.mfeOpenClear w e v) s = .next (t.noteExc e true)) ∧
    (s.on R.MFE_ENT_STATUS_OPEN e = false → exec (.mfeOpenClear w e v) s = .next (t.noteExc e false))) ∧
  (∀ (e : Nat) (ch : Bool) (s : State),
    (s.dwelling e = false → s.noteExc e ch = s.setMent e { s.ment e with exc := (s.ment e).exc || ch }) ∧
    (s.dwelling e = true → s.noteExc e ch = s.setMent e { s.ment e with late := (s.ment e).late || ch })) ∧
  (∀ (w : World) (e : Fin 64) (v : BitVec 32) (s : State), Reaches s w .MFE_ENT_EXC e 0 →
    let ch := s.changes [R.MFE_ENT_EXC_RANGE, R.MFE_ENT_EXC_IEXC, R.MFE_ENT_EXC_WIRE, R.MFE_ENT_EXC_BO_EN, R.MFE_ENT_EXC_ATTEN] e 0 v.toNat
    let t := wrote s w .MFE_ENT_EXC e 0 v.toNat
    (s.dwelling e = false → s.urgentEntry ≠ some e.val →
      exec (.mfeExcWrite w e v) s = .next ((t.setMent e { t.ment e with auto := none }).noteExc e ch)) ∧
    (s.dwelling e = true ∨ s.urgentEntry = some e.val → ∃ u, exec (.mfeExcWrite w e v) s = .next u ∧ u.regs = t.regs ∧ u.leaf = s.leaf ∧
      (u.ment e).held = some ((s.ment e).held.getD (s.excNow e)) ∧ (u.ment e).auto = none ∧
      (s.dwelling e = true → (u.ment e).late = ((s.ment e).late || ch)))) ∧
  (∀ (w : World) (e : Fin 64) (s : State), s.held = false → (w = .secure ∨ s.addrWorld (RegId.addr .MFE_ACC_SUM_LO e) = .nonSecure) →
    let a := RegId.addr .MFE_ACC_SUM_LO e
    let x := s.get R.MFE_ACC_SUM e
    ∃ t, exec (.mfeAccSumLoRead w e) s = .next t ∧ t.out = s.out ++ [.readData w a (leBytes 4 (x % 2 ^ 32))] ∧
      SMap.get t.hold 0 (a + 4) = x / 2 ^ 32 ∧ SMap.get t.hold 0 (a + 8) = s.get R.MFE_ACC_CNT_COUNT e ∧
      SMap.get t.hold (holdReset .MFE_ACC_MIN) (a + 12) = s.get R.MFE_ACC_MIN_MIN e ∧ SMap.get t.hold (holdReset .MFE_ACC_MAX) (a + 16) = s.get R.MFE_ACC_MAX_MAX e ∧
      (s.on R.MFE_ENT_CFG_ACC_CLR e = true → t.get R.MFE_ACC_SUM e = 0 ∧ t.get R.MFE_ACC_CNT_COUNT e = 0 ∧
        t.get R.MFE_ACC_MIN_MIN e = 0x7FFFFFFF ∧ t.get R.MFE_ACC_MAX_MAX e = 0x80000000) ∧
      (s.on R.MFE_ENT_CFG_ACC_CLR e = false → t.regs = s.regs)) ∧
  (∀ (w : World) (e : Fin 64) (s : State), s.held = false → (w = .secure ∨ s.addrWorld (RegId.addr .MFE_RES e) = .nonSecure) →
    let a := RegId.addr .MFE_RES e
    ∃ t, exec (.mfeResRead w e) s = .next t ∧ t.out = s.out ++ [.readData w a (leBytes 4 (s.get R.MFE_RES_VALUE e))] ∧
      SMap.get t.hold 0 (a + 4) = s.get R.MFE_RES_FLAGS_FLAGS e + s.get R.MFE_RES_FLAGS_RANGE e * 2 ^ 4 +
        s.get R.MFE_RES_FLAGS_NEW e * 2 ^ 8 + s.get R.MFE_RES_FLAGS_SEQ e * 2 ^ 16 ∧ t.regs = s.regs) ∧
  (∀ (w : World) (c : Fin 32) (v : BitVec 32) (s : State), Reaches s w .MFE_CH_SWAP c 0 → R.MFE_CH_SWAP_GO.of v.toNat = 1 →
    s.scs c = false → s.mfeRuns = true →
    let l := R.MFE_CH_SWAP_LEAF.of v.toNat
    let f := R.MFE_CH_SWAP_FADE.of v.toNat
    l ≠ s.get R.MFE_CH_CFG_LEAF c → (s.chain c).fade = none → f ≤ 10 → s.mfeLeafOk l = true →
    exec (.mfeLeafSwapRequest w c v) s = .next (
      let t := wrote s w .MFE_CH_SWAP c 0 v.toNat
      let u := if (t.chain c).pend.isSome then (t.set R.MFE_CH_SWAP_REPLACED 1 c).add R.MFE_REPLACED_COUNT 1 else t
      (u.setChain c { u.chain c with pend := some (l, 2 ^ f) }).syncChain c)) ∧
  (∀ (w : World) (a : Fin 65536) (v : BitVec 32) (s : State),
    let b := 0x3A00000 + 4 * a.val
    ReachesAt s w b →
    (s.mfeLeafBusy (a.val / 1024) = false → ∃ t, exec (.mfeLeafWindowWrite w a v) s = .next t ∧
      (∀ k, k < 4 → t.leaf.byte (b + k) = bits v.toNat (8 * k) 8) ∧
      (∀ x : Nat, (x < b ∨ b + 4 ≤ x) → t.leaf.byte x = s.leaf.byte x) ∧ t.regs = s.regs) ∧
    (s.mfeLeafBusy (a.val / 1024) = true → exec (.mfeLeafWindowWrite w a v) s = .next (
      (((s.countRefused w .busy).set R.MFE_STATUS_LAST_STATUS 6).add R.MFE_LEAF_REFUSED_COUNT 1).mfeEvent0 4))) ∧
  (∀ (w : World) (o : Fin 8) (v : BitVec 32) (s : State), Reaches s w .MFE_OUT_CFG o 0 → s.on R.MFE_OUT_CFG_EN o = true →
    (R.MFE_OUT_CFG_EN.of v.toNat = 1 →
      exec (.mfeOutEnable w o v) s = .next ((s.countRefused w .state).set R.MFE_STATUS_LAST_STATUS 1)) ∧
    (R.MFE_OUT_CFG_EN.of v.toNat = 0 → R.MFE_OUT_CFG_FAIL.of v.toNat ≠ 3 →
      s.changes [R.MFE_OUT_CFG_MODE, R.MFE_OUT_CFG_ENTRY, R.MFE_OUT_CFG_FAIL] o 0 v.toNat = false →
      exec (.mfeOutEnable w o v) s = .next (((wrote s w .MFE_OUT_CFG o 0 v.toNat).setMout o {}).emit (.pin "MFE_FOUT" o 0)))) ∧
  (∀ (w : World) (o : Fin 8) (v : BitVec 32) (s : State), Reaches s w .MFE_OUT_CFG o 0 → R.MFE_OUT_CFG_FAIL.of v.toNat ≠ 3 →
    s.on R.MFE_OUT_CFG_EN o = false →
    (R.MFE_OUT_CFG_EN.of v.toNat = 1 → s.getS R.MFE_OUT_LO_LO o < s.getS R.MFE_OUT_HI_HI o ∧ s.get R.MFE_OUT_F_F_A o ≠ 0 ∧
      (R.MFE_OUT_CFG_MODE.of v.toNat = 1 → s.get R.MFE_OUT_F_F_A o < s.get R.MFE_OUT_F_FMAX o)) →
    exec (.mfeOutEnable w o v) s = .next (((wrote s w .MFE_OUT_CFG o 0 v.toNat).setMout o {}).emit (.pin "MFE_FOUT" o 0))) ∧
  (∀ (o : Fin 8) (s : State) (x : Nat × Nat), (s.mout o).next = some x →
    exec (.mfeOutPeriodEnd o) s = .next ((s.setMout o { now := some x, next := none }).emit (.pin "MFE_FOUT" o (x.1 + x.2 * 2 ^ 32))))

/-! ### Motion -/

/-- The axis is ready, not paced, and has limits (R467). -/
def Sys2Proof.Stated.AxisOk (s : State) (a : Nat) : Prop :=
  s.axReady a = true ∧ s.on R.TTC_AX_STATUS_PACED a = false ∧ s.get R.TTC_AX_AMAX_AMAX a ≠ 0 ∧ s.get R.TTC_AX_JMAX_JMAX a ≠ 0

/-- Axis commands (R463, R467, R468, R474): STOP, MOVE, VEL and ESTOP of an axis that is ready stop a linear move it is part of and aim its
profile anew, and any of them on
an axis that is not, or that a station paces, is refused with STATE; a linear move starts on the axes of its mask, those that move coming to rest first (the model's choice, log 55); EN starts the link
and 0 disables the axis; clearing a fault with a good link leaves the axis still. -/
def Obligations.AxisCommands : Prop :=
  (∀ (w : World) (a : Fin 4) (s : State), Reaches s w .TTC_AX_CMD a 0 → AxisOk s a →
    let t (op : Nat) := (wrote s w .TTC_AX_CMD a 0 (op + 2 ^ 31)).stopLin a
    exec (.axisStop w a) s = .next ((t 0).aim a (.vel 0)) ∧
    ((t 1).axState a = Ax.still → (t 1).axTarget a = ((t 1).axis a).prof.at → exec (.axisMove w a) s = .next (t 1)) ∧
    (¬ ((t 1).axState a = Ax.still ∧ (t 1).axTarget a = ((t 1).axis a).prof.at) →
      exec (.axisMove w a) s = .next ((t 1).aim a (.pos ((t 1).axTarget a)))) ∧
    ((s.getS R.TTC_AX_VEL_VEL a).natAbs ≤ s.get R.TTC_AX_VMAX_VMAX a →
      exec (.axisVel w a) s = .next ((t 2).aim a (.vel (s.getS R.TTC_AX_VEL_VEL a)))) ∧
    (s.get R.TTC_AX_VMAX_VMAX a < (s.getS R.TTC_AX_VEL_VEL a).natAbs →
      exec (.axisVel w a) s = .next ((s.countRefused w .range).set R.TTC_AX_STATUS_LAST_STATUS 3 a)) ∧
    exec (.axisEstop w a) s = .next ((t 3).aim a .estop)) ∧
  (∀ (w : World) (a : Fin 4) (s : State), Reaches s w .TTC_AX_CMD a 0 → (s.axReady a = false ∨ s.on R.TTC_AX_STATUS_PACED a = true) →
    ∀ c ∈ [Instr.axisStop w a, .axisMove w a, .axisVel w a, .axisEstop w a],
      exec c s = .next ((s.countRefused w .state).set R.TTC_AX_STATUS_LAST_STATUS 1 a)) ∧
  (∀ (a : Nat) (s : State), (s.axis a).inLin = false → (∀ e ∈ s.ttc.due, e.1 ≠ a) → s.stopLin a = s) ∧
  (∀ (a : Fin 4) (l : Lin) (x : Int) (s : State), s.ttc.lin = some l → l.starts = [(a.val, x)] → (s.axis a).inLin = true →
    s.axReady a = true →
    ((s.stopLin a).axis a).inLin = false ∧ ((s.stopLin a).axis a).prof.goal = .vel 0 ∧ (s.stopLin a).ttc.lin = none) ∧
  (∀ (a : Fin 4) (g : Goal) (s : State), s.axReady a = true →
    let t := s.aim a g
    t.axState a = Ax.moving ∧ (t.axis a).prof = { (s.axis a).prof with goal := g } ∧ (t.axis a).holding = false ∧
      (t.axis a).back = none ∧ t.out = s.out) ∧
  (∀ (w : World) (v : BitVec 32) (s : State), Reaches s w .TTC_LIN 0 0 → R.TTC_LIN_GO.of v.toNat = 1 →
    let mask := R.TTC_LIN_MASK.of v.toNat
    (∀ a : Fin 4, bit mask a = true → AxisOk s a) →
    exec (.linearMove w v) s = .next ((wrote s w .TTC_LIN 0 0 v.toNat).startLin mask)) ∧
  (∀ (a : Fin 4) (s : State), s.axReady a = true → (s.axis a).inLin = false → s.ttc.due = [] → s.axStandstill a = false →
    let t := s.startLin (2 ^ a.val)
    t.ttc.due = [(a.val, s.axTarget a)] ∧ t.ttc.lin = s.ttc.lin ∧ (t.axis a).prof = { (s.axis a).prof with goal := .vel 0 }) ∧
  (∀ (a : Fin 4) (s : State), s.axReady a = true → s.on R.TTC_AX_STATUS_PACED a = false → (s.axis a).inLin = false → s.ttc.due = [] →
    s.ttc.lin = none → s.axStandstill a = true → s.axTarget a ≠ (s.axis a).prof.at →
    let t := s.startLin (2 ^ a.val)
    let d := s.axTarget a - (s.axis a).prof.at
    t.ttc.due = [] ∧ (t.axis a).inLin = true ∧ ∃ l, t.ttc.lin = some l ∧ l.path = { goal := .pos d.natAbs } ∧ l.lead = d.natAbs ∧
      l.starts = [(a.val, (s.axis a).prof.at)] ∧ l.deltas = [(a.val, d)]) ∧
  (∀ (w : World) (a : Fin 4) (v : BitVec 32) (s : State), Reaches s w .TTC_AX_CTRL a 0 → R.TTC_AX_CTRL_TOL.of v.toNat ≠ 0 →
    (s.axState a = Ax.disabled ∨ s.axState a = Ax.still) → s.on R.TTC_AX_STATUS_PACED a = false →
    let t := wrote s w .TTC_AX_CTRL a 0 v.toNat
    (s.on R.TTC_AX_CTRL_EN a = false → R.TTC_AX_CTRL_EN.of v.toNat = 1 →
      exec (.axisEnable w a v) s = .next ((t.setAxis a { t.axis a with
        table := 0, goodRun := 0, missed := 0, cyc := 0, holding := false }).set R.TTC_AX_STATUS_STATE Ax.link a)) ∧
    (s.on R.TTC_AX_CTRL_EN a = true → R.TTC_AX_CTRL_EN.of v.toNat = 0 → exec (.axisEnable w a v) s = .next (t.disableAxis a))) ∧
  (∀ (w : World) (a : Fin 4) (v : BitVec 32) (s : State), Reaches s w .TTC_AX_STATUS a 0 → R.TTC_AX_STATUS_FAULT.of v.toNat = 1 →
    s.axState a = Ax.fault →
    let t := wrote s w .TTC_AX_STATUS a 0 v.toNat
    ((s.axis a).missed < 4 → exec (.axisFaultClear w a v) s = .next
      ((t.setAxis a { t.axis a with holding := false }).set R.TTC_AX_STATUS_STATE Ax.still a)) ∧
    (4 ≤ (s.axis a).missed → exec (.axisFaultClear w a v) s = .next (t.set R.TTC_AX_STATUS_FAULT 1 a)))

/-- Axes as time goes on (R462 to R466, R471 to R474): a cycle first raises the move-done event of the moves that the cycle before ended
(the model's choice, log 134) and ends a run of stalls where no good frame came, then advances the profile of each enabled axis and sends it one frame; a good frame of its driver is taken, and a bad one counted; four cycles without a good one are a LINK fault; after SETTLE a back-up move is in
position, repeated once, or a fault; at HOLD_MS the coils take the hold mode. A fault rests the profile and raises its event. -/
def Obligations.AxisTime : Prop :=
  (∀ s : State, exec .motionCycle s = .next ((((s.each axes4 State.cycleStart).cycleLin).each axes4 fun s a =>
    if s.on R.TTC_AX_CTRL_EN a then
      let t := (s.cycleAxis a).linkFrame a
      t.setAxis a { t.axis a with missed := min 4 ((t.axis a).missed + 1) }
    else s).dueLin)) ∧
  (∀ (a : Fin 4) (s : State), (s.axis a).inLin = false → s.axReady a = true →
    let t := s.cycleAxis a
    (t.axis a).prof.p = ((s.axis a).prof.cycle (s.velLimit a) (s.accLimit a) (s.jerkLimit a)).p ∧
    (t.axis a).prof.v = ((s.axis a).prof.cycle (s.velLimit a) (s.accLimit a) (s.jerkLimit a)).v) ∧
  (∀ (a : Fin 4) (s : State),
    let t := s.cycleStart a
    (t.axis a).ended = false ∧ (t.axis a).startV = (s.axis a).prof.v ∧
    (t.axis a).stallRun = (if (s.axis a).missed = 0 then (s.axis a).stallRun else 0) ∧
    ((s.axis a).ended = true → bit (t.get R.HIF_EVT_PEND_PEND 44) (20 + a) = true) ∧
    ((s.axis a).ended = false → t.regs = s.regs)) ∧
  (∀ (a : Fin 4) (f : BitVec 80) (s : State), s.on R.TTC_AX_CTRL_EN a = true →
    let good := bits f.toNat 0 8 = 0x5A ∧ bits f.toNat 72 8 = crc8 f.toNat
    (good → exec (.driverStatusRx a f) s = .next (s.goodStatus a f.toNat)) ∧
    (¬ good → exec (.driverStatusRx a f) s = .next
      ((s.addSat R.TTC_AX_DRV_BADFR 1 a).setAxis a { s.axis a with goodRun := 0 }))) ∧
  (∀ (a : Fin 4) (s : State), s.on R.TTC_AX_CTRL_EN a = true → 4 ≤ (s.axis a).missed → s.axState a ≠ Ax.fault →
    exec (.motionLinkLoss a) s = .next (s.faultAxis a 3)) ∧
  (∀ (a : Fin 4) (t : Int) (s : State) (ct : Int) (n : Nat), (s.axis a).settling = true → (s.axis a).back = some ct →
    s.pacer a = some n →
    let u := s.setAxis a { s.axis a with settling := false, back := none }
    let near := (ct - s.posOf n t).natAbs ≤ 65536 * s.get R.TTC_AX_CTRL_TOL a
    (near → ¬ (s.stState n = St.rewinding ∧ s.get R.SST_ST_REW_STATUS_PHASE n = 2) →
      exec (.axisSettleDone a t) s = .next (u.set R.TTC_AX_STATUS_INPOS 1 a)) ∧
    (near → s.stState n = St.rewinding → s.get R.SST_ST_REW_STATUS_PHASE n = 2 →
      exec (.axisSettleDone a t) s = .next ((u.set R.TTC_AX_STATUS_INPOS 1 a).rewindArm n t)) ∧
    (¬ near → (s.axis a).tries = 0 → exec (.axisSettleDone a t) s = .next (u.backUp a ct (s.posOf n t) 1)) ∧
    (¬ near → (s.axis a).tries ≠ 0 → exec (.axisSettleDone a t) s = .next (u.faultAxis a 4))) ∧
  (∀ (a : Fin 4) (s : State), s.axReady a = true → (s.axis a).prof.v = 0 → (s.axis a).prof.a = 0 →
    exec (.axisHoldTimeout a) s = .next (s.holdCoil a (s.get R.TTC_AX_CTRL_HOLD_MODE a))) ∧
  (∀ (a : Fin 4) (kind : Fin 5) (s : State), (s.axis a).inLin = false →
    let t := s.axisFault a kind
    t.axState a = Ax.fault ∧ t.get R.TTC_AX_STATUS_FAULT a = 1 ∧ t.get R.TTC_AX_STATUS_KIND a = kind ∧ (t.axis a).prof.v = 0 ∧
      (t.axis a).prof.a = 0 ∧ (t.axis a).prof.goal = .rest ∧ (t.axis a).holding = true ∧
      bit (t.get R.HIF_EVT_PEND_PEND 44) (16 + a) = true ∧ t.out = s.out) ∧
  (∀ (w : World) (k : Fin 1024) (v : BitVec 32) (s : State),
    let b := 0x3B00000 + 4 * k.val
    ReachesAt s w b →
    ((∀ a : Fin 4, s.on R.TTC_AX_CTRL_EN a = false) → ∃ t, exec (.microstepTableWrite w k v) s = .next t ∧
      (∀ i, i < 4 → t.leaf.byte (b + i) = bits v.toNat (8 * i) 8) ∧
      (∀ x : Nat, (x < b ∨ b + 4 ≤ x) → t.leaf.byte x = s.leaf.byte x) ∧ t.regs = s.regs) ∧
    ((∃ a : Fin 4, s.on R.TTC_AX_CTRL_EN a = true) → exec (.microstepTableWrite w k v) s = .next
      ((s.countRefused w .busy).set R.TTC_STATUS_LAST_STATUS 6)))

/-- The limits of a profile (R466, R467). One that heads for a velocity or a position with limits it lies within keeps them: its velocity,
and the velocity at which it settles when its acceleration goes to 0, stay within VMAX, its acceleration within AMAX, and the acceleration
changes by at most JMAX a cycle, twice that in the cycle in which it takes the position. An emergency stop never speeds it up, and stops
it once a cycle at AMAX can. One that has reached its position stays there at rest. -/
def Obligations.ProfilesKeepTheirLimit : Prop :=
  (∀ (x : Profile) (vmax amax jmax : Nat), 0 < jmax → x.v.natAbs ≤ vmax → (settleVel x.v x.a jmax).natAbs ≤ vmax → x.a.natAbs ≤ amax →
    ((∃ p, x.goal = .pos p) ∨ (∃ v : Int, x.goal = .vel v ∧ (v * (cyc * cyc : Nat)).natAbs ≤ vmax)) →
    let y := x.cycle vmax amax jmax
    y.v.natAbs ≤ vmax ∧ (settleVel y.v y.a jmax).natAbs ≤ vmax ∧ y.a.natAbs ≤ amax ∧ (y.a - x.a).natAbs ≤ 2 * jmax) ∧
  (∀ (x : Profile) (vmax amax jmax : Nat) (v : Int), x.goal = .vel v → x.a.natAbs ≤ amax →
    ((x.cycle vmax amax jmax).a - x.a).natAbs ≤ jmax) ∧
  (∀ (x : Profile) (vmax amax jmax : Nat), x.goal = .estop →
    (x.cycle vmax amax jmax).v.natAbs ≤ x.v.natAbs ∧ (x.v.natAbs ≤ amax → (x.cycle vmax amax jmax).v = 0)) ∧
  (∀ (x : Profile) (vmax amax jmax : Nat), x.done = true → (∀ v, x.goal ≠ .vel v) →
    (x.cycle vmax amax jmax).p = x.p ∧ (x.cycle vmax amax jmax).v = 0)

/-! ### Thermal management -/

/-- Temperatures (R476 to R483, R486, R487): a sweep gives each working sensor its reading and a failed one the throttle threshold and
1/8 °C more; its largest value judges throttle, warning and shutdown; STEP moves the level up while hot and down to 0 after; the trim
follows sensor 22 on its second-order curve, whose coefficients the manual does not give (log 151), or holds; thresholds inside their range are taken; a window of a ring oscillator gives its count. -/
def Obligations.Temperatures : Prop :=
  (∀ (r : List (Option (BitVec 16))) (s : State), s.dev ≠ Dev.off → s.dev ≠ Dev.reset →
    let s1 := s.judgeSensors r
    let k := s1.hottest
    let m := s1.getS R.THM_SNS_TEMP k
    let s2 := (s1.setS R.THM_STATUS_MAX m).set R.THM_STATUS_MAX_SNS k
    exec (.thmSweep r) s = .next ((((s2.setThm { s2.thm with hot := s2.validAbove (s2.getS R.THM_THR_THROT_LEVEL) }).judgeThrottle m
      ).judgeWarn m).judgeShutdown)) ∧
  (∀ (r : List (Option (BitVec 16))) (s : State) (i : Fin 24),
    let t := s.judgeSensors r
    (∀ x : BitVec 16, r.getD i none = some x → -512 ≤ x.toInt → x.toInt ≤ 1280 → bit (s.get R.THM_FAIL_MASK) i = false →
      t.getS R.THM_SNS_TEMP i = x.toInt ∧ t.get R.THM_SNS_VALID i = 1) ∧
    (r.getD i none = none ∨ bit (s.get R.THM_FAIL_MASK) i = true →
      t.getS R.THM_SNS_TEMP i = max (-32768) (min 32767 (s.getS R.THM_THR_THROT_LEVEL + 1)) ∧ t.get R.THM_SNS_VALID i = 0 ∧ bit (t.get R.THM_FAIL_MASK) i = true ∧ t.get R.THM_SNS_FAILED i = 1)) ∧
  (∀ s : State,
    (s.on R.THM_STATUS_THROT = true → s.thm.hot = true →
      exec .thmLevelStep s = .next (s.setLevel (min (s.throttle + 1) (s.get R.THM_CTRL_TMAX)))) ∧
    (s.on R.THM_STATUS_THROT = true → s.thm.hot = false → exec .thmLevelStep s = .next s) ∧
    (s.on R.THM_STATUS_THROT = false → exec .thmLevelStep s = .next (s.setLevel (s.throttle - 1)))) ∧
  (∀ s : State, s.on R.THM_SNS_FAILED 22 = false →
    let x := s.getS R.THM_SNS_TEMP 22
    (s.on R.MFE_STATUS_REF_RDY = true → s.on R.THM_SNS_VALID 22 = true →
      exec .thmRefTrim s = .next ((s.set R.THM_TRIM_HOLD 0).setS R.THM_TRIM_CODE
        ((Config.trimCoeff 0 + Config.trimCoeff 1 * x + Config.trimCoeff 2 * x * x) / 2 ^ Config.trimShift))) ∧
    (s.on R.MFE_STATUS_REF_RDY = false ∨ s.on R.THM_SNS_VALID 22 = false →
      exec .thmRefTrim s = .next (s.set R.THM_TRIM_HOLD 0))) ∧
  (∀ s : State, s.on R.THM_SNS_FAILED 22 = true → s.on R.THM_TRIM_HOLD = false →
    exec .thmRefTrim s = .next ((s.set R.THM_TRIM_HOLD 1).raise 1437)) ∧
  (∀ (v : BitVec 32) (s : State),
    let l := toSigned 16 (bits v.toNat 0 16)
    (Reaches s .secure .THM_THR_WARN 0 0 →
      (640 ≤ l ∧ l ≤ 800 → exec (.thmThresholdWrite .secure 0 v) s = .next (wrote s .secure .THM_THR_WARN 0 0 v.toNat)) ∧
      (l < 640 ∨ 800 < l →
        exec (.thmThresholdWrite .secure 0 v) s = .next ((s.countRefused .secure .range).set R.THM_STATUS_LAST_STATUS 3))) ∧
    (Reaches s .secure .THM_THR_THROT 0 0 → 720 ≤ l → l ≤ 840 → s.getS R.THM_THR_WARN_LEVEL ≤ l →
      exec (.thmThresholdWrite .secure 1 v) s = .next (wrote s .secure .THM_THR_THROT 0 0 v.toNat))) ∧
  (∀ (i : Fin 8) (count : Nat) (s : State), bit s.thm.ro i = true → s.on R.THM_RO_CTRL_EN = true →
    exec (.roWindowEnd i count) s = .next ((s.setSat R.THM_RO_COUNT_COUNT count i).set R.THM_RO_COUNT_NEW 1 i))

/-- Shutdown (R483, R484, R524): a fourth sweep in a row with a valid reading at the shutdown level, or twelve failed sensors, trip the pin
and latch the device, take every gate that is high low and, with no station busy and no command running, every axis to FAULT. Nothing but removal of VCORE
undoes it. -/
def Obligations.ThermalShutdown : Prop :=
  (∀ s : State, s.on R.THM_STATUS_TRIP = false →
    (s.validAbove (s.getS R.THM_THR_SHUT_LEVEL) = true ∧ 3 ≤ s.thm.shut) ∨ 12 ≤ s.get R.THM_FAIL_COUNT →
    (∀ n, n < 8 → s.stBusy n = false) → (s.ring 0).run = none → (s.ring 1).run = none → s.held = false →
    let t := s.judgeShutdown
    t.get R.THM_STATUS_TRIP = 1 ∧ t.dev = Dev.thermalLatch ∧ (∀ a : Fin 4, t.axState a = Ax.fault ∧ t.get R.TTC_AX_STATUS_FAULT a = 1) ∧
      t.smc.hbmRefresh = true ∧ SameMemory s t ∧
      t.out = s.out ++ [.pin "THERM_TRIP_N" 0 0] ++ ((List.range 96).filter fun c => !(s.chan c).gates.isEmpty).map Output.gateLow) ∧
  (∀ (c : Instr) (s : State), s.dev = Dev.thermalLatch → c ≠ .vcoreRemoved → ∃ t, exec c s = .next t ∧ t.dev = Dev.thermalLatch) ∧
  (∀ s : State, s.validAbove (s.getS R.THM_THR_SHUT_LEVEL) = false → s.get R.THM_FAIL_COUNT < 12 →
    s.judgeShutdown = s.setThm { s.thm with shut := 0 })

/-! ### Reset and boot -/

/-- The three resets (R548, R574, R484): each leaves every register field outside what its source keeps at its reset value, and those it
keeps as they stood, the memories blank (R574; the HBM too, log 14), and the queue of commands and what has been sent as they were.
Leaving RESET starts the boot ROM. -/
def Obligations.ResetsKeepOnly : Prop :=
  (∀ (s t : State) (keep : List Nat),
    (keep = fuseKeys ++ keptKeys ++ [R.THM_STATUS_TRIP.key 0 0] ∧ s.smc.resetDue = true ∧ s.dev ≠ Dev.thermalLatch ∧
      exec .devResetEntry s = .next t) ∨
    (keep = fuseKeys ++ [R.THM_STATUS_TRIP.key 0 0] ∧ exec .porAssert s = .next t) ∨
    (keep = fuseKeys ∧ exec .vcoreRemoved s = .next t) →
    (∀ (f : Fld) (i j : Nat), f.key i j ≠ R.SMC_DEV_STATE_STATE.key 0 0 →
      t.get f i j = if f.key i j ∈ keep then s.get f i j else f.resetAt i) ∧
    (∀ a : Nat, t.hbm.byte a = 0 ∧ t.leaf.byte a = 0 ∧ t.mbox.byte a = 0) ∧ t.pending = s.pending ∧ (∃ l, t.out = s.out ++ l)) ∧
  (∀ s : State, s.smc.resetDue = true → s.dev ≠ Dev.thermalLatch → ∃ t, exec .devResetEntry s = .next t ∧ t.dev = Dev.reset) ∧
  (∀ s : State, ∃ t, exec .porAssert s = .next t ∧
    t.dev = if s.dev = Dev.thermalLatch then Dev.thermalLatch else Dev.reset) ∧
  (∀ s : State, ∃ t, exec .vcoreRemoved s = .next t ∧ t.dev = Dev.off ∧
    (s.on R.THM_STATUS_TRIP = true → s.held = false → t.out = s.out ++ [.pin "THERM_TRIP_N" 0 1])) ∧
  (∀ s : State, s.dev = Dev.reset →
    exec .resetExit s = .next ((s.set R.SMC_DEV_STATE_STATE Dev.cabinetBoot).set R.SMC_BOOT_STATUS_STEP 1))

/-- Boot (R501, R502, R504, R550 to R552): the first Cabinet copy that passes runs, and with none the boot stops; a VCORE that does not
come sets VCORE_FAIL and goes on with the last reading rounded down to 5 mV, or 650 mV; the last of HBM training and Workbench checks to
pass ends in IDLE, and one that fails keeps BARE. A device that enters FAULT in boot boots on and stays in FAULT (log 7). -/
def Sys2Proof.Stated.BootStages : Prop :=
  (∀ (a b : FwObs) (policy : Option FwObs) (mode : Byte) (flash ms : Nat) (s : State),
    (s.dev = Dev.cabinetBoot ∨ s.dev = Dev.fault) → s.get R.SMC_BOOT_STATUS_STEP = 1 →
    let n := s.get R.SMC_FW_SVN_CAB
    (fwCheck a 1 n = none →
      exec (.cabinetVerifyDone a b policy mode flash ms) s = .next (s.runCabinet 0 a policy mode.toNat flash ms)) ∧
    (∀ c, fwCheck a 1 n = some c → fwCheck b 1 n = none →
      exec (.cabinetVerifyDone a b policy mode flash ms) s = .next ((s.fwRefused c).runCabinet 1 b policy mode.toNat flash ms)) ∧
    (∀ c d, fwCheck a 1 n = some c → fwCheck b 1 n = some d → ∃ t, exec (.cabinetVerifyDone a b policy mode flash ms) s = .next t ∧
      t.dev = s.dev ∧ t.get R.SMC_BOOT_STATUS_STEP = 15 ∧ t.get R.SMC_BOOT_TIME_MS = min ms 65535 ∧
      t.get R.SMC_FW_STATUS_LAST_STATUS = d.code)) ∧
  (∀ s : State, s.pace.waits.contains .boot = true → ∃ t, exec .bootVcoreTimeout s = .next t ∧
    t.get R.SMC_BOOT_STATUS_VCORE_FAIL = 1 ∧ t.get R.SMC_BOOT_STATUS_STEP = 4 ∧ t.smc.hbmRun = true ∧ t.smc.wbRun = true ∧
    t.get R.SMC_VFIT_STATUS_VSET = (if s.get R.SMC_PMB_STATUS_VREAD = 0 then 650 else s.get R.SMC_PMB_STATUS_VREAD / 5 * 5) % 4096 ∧
    t.pace.waits.contains .boot = false) ∧
  (∀ (ok : BitVec 4) (ms : Nat) (s : State), s.smc.hbmRun = true →
    (ok.toNat = 15 → s.smc.wbOk = true → s.get R.SMC_BOOT_STATUS_STEP = 4 → s.dev = Dev.bare →
      ∃ t, exec (.hbmTrainingDone ok ms) s = .next t ∧ t.dev = Dev.idle ∧ t.get R.SMC_BOOT_STATUS_STEP = 5 ∧
        t.get R.SMC_BOOT_STATUS_HBM_OK = 15 ∧ t.get R.SMC_BOOT_TIME_MS = min ms 65535) ∧
    (ok.toNat ≠ 15 → s.dev = Dev.bare → ∃ t, exec (.hbmTrainingDone ok ms) s = .next t ∧ t.get R.SMC_BOOT_STATUS_HBM_FAIL = 1 ∧
      t.get R.SMC_BOOT_STATUS_HBM_OK = ok.toNat ∧ t.get R.SMC_BOOT_STATUS_STEP = 15 ∧ t.smc.hbmRun = false)) ∧
  (∀ (o : FwObs) (ms : Nat) (s : State), s.smc.wbRun = true →
    let u : State := { s with smc := { s.smc with wbRun := false } }
    let check := (fwCheck o 2 (s.get R.SMC_FW_SVN_WB)).or (o.ifaceCheck [1, 2])
    (check = none → s.wbTested o = true → exec (.workbenchCheckDone o ms) s = .next (u.startWorkbench o false ms)) ∧
    (check = none → s.wbTested o = false → s.on R.SMC_POLICY_ALLOW_UNTESTED = true →
      exec (.workbenchCheckDone o ms) s = .next (u.startWorkbench o true ms)) ∧
    (∀ c, check = some c → exec (.workbenchCheckDone o ms) s = .next (u.refuseWorkbench c ms)))

/-- Pads and reference clocks (R562, R565): a secure write of SMC_PAD_SLEW writes each field whose condition allows it and keeps the
others, whatever their values, and LAST_STATUS shows the first status that discards one; a stopped clock stays noted as stopped,
unlocks its lanes, retrains its ring ports or drops its Ethernet links, and one that runs again is no longer noted. -/
def Sys2Proof.Stated.PadsAndClocks : Prop :=
  (∀ (v : BitVec 32) (s : State), Reaches s .secure .SMC_PAD_SLEW 0 0 → ∃ t, exec (.padSlewWrite .secure v) s = .next t ∧
    (∀ p ∈ s.padChecks, t.get p.1 = if p.2.isNone then p.1.of v.toNat else s.get p.1) ∧
    ((∃ p ∈ s.padChecks, p.2 = some .state) → t.get R.SMC_PAD_STATUS_LAST_STATUS = 1) ∧
    ((∀ p ∈ s.padChecks, p.2 ≠ some .state) → s.flashBusy = true → t.get R.SMC_PAD_STATUS_LAST_STATUS = 6) ∧
    ((∀ p ∈ s.padChecks, p.2 = none) → t.get R.SMC_PAD_STATUS_LAST_STATUS = s.get R.SMC_PAD_STATUS_LAST_STATUS)) ∧
  (∀ (q : Fin 6) (s0 : State),
    let gone := s0.smc.refGone.filter (· ≠ q.val)
    let s : State := { s0 with smc := { s0.smc with refGone := gone ++ [q.val] } }
    exec (.serdesRefclkLoss ⟨q, true⟩) s0 = .next { s0 with smc := { s0.smc with refGone := gone } } ∧
    (q.val < 4 → exec (.serdesRefclkLoss ⟨q, false⟩) s0 = .next (s.each (List.range 48) fun s i =>
      (s.set R.HLF_LANE_STATUS_LOCK 0 (48 * q + i)).retrainLane (48 * q + i) true)) ∧
    (q.val = 4 → exec (.serdesRefclkLoss ⟨q, false⟩) s0 = .next (s.each (List.range 32) fun s l =>
      if bit (s.get R.KRU_PORT_LANES_ACTIVE (portOf l)) (l % 16) then s.kelimRetrain l true else s)) ∧
    (q.val = 5 → exec (.serdesRefclkLoss ⟨q, false⟩) s0 = .next (s.each (List.range 4) fun s p =>
      (s.set R.HIF_ETH_STATUS_FEC_LOCK 0 p).ethLinkTo p false)))


/-- Boot stages, pad slew writes and stopped reference clocks. -/
def Obligations.BootAndClocks : Prop := BootStages ∧ PadsAndClocks

/-! ### The mailbox -/

/-- The rings (R519 to R522): TAIL hands over the entries up to it, and one that would withdraw an entry is discarded with RANGE; freeing a
response entry lets a waiting command start, and a command that finds no room waits. -/
def Obligations.MailboxRings : Prop :=
  (∀ (w : World) (r : Fin 2) (v : BitVec 32) (s : State), Reaches s w .SMC_MB_CMD_TAIL r 0 →
    let new := (R.SMC_MB_CMD_TAIL_TAIL.of v.toNat + 128 - s.mbHead r) % 128
    (s.mbHeld r ≤ new → exec (.mailboxTailWrite w r v) s = .next (
      let t := wrote s w .SMC_MB_CMD_TAIL r 0 v.toNat
      { t with smc := { t.smc with order := t.smc.order ++ (List.range (new - s.mbHeld r)).map fun j =>
          128 * r.val + (s.get R.SMC_MB_CMD_TAIL_TAIL r + j) % 128 } })) ∧
    (new < s.mbHeld r →
      exec (.mailboxTailWrite w r v) s = .next ((s.countRefused w .range).set R.SMC_MB_STATUS_LAST_STATUS 3 r))) ∧
  (∀ (w : World) (r : Fin 2) (v : BitVec 32) (s : State), Reaches s w .SMC_MB_RSP_HEAD r 0 →
    let t := wrote s w .SMC_MB_RSP_HEAD r 0 v.toNat
    (t.mbRoom r = true → exec (.mailboxRspHeadWrite w r v) s = .next (t.set R.SMC_MB_STATUS_WAIT_RSP 0 r)) ∧
    (t.mbRoom r = false → exec (.mailboxRspHeadWrite w r v) s = .next t)) ∧
  (∀ (r : Fin 2) (s : State), s.mbReady r = true → s.opAt r (s.mbHead r) = Op.devInfo → s.extAt r (s.mbHead r) = 0 →
    s.mbRoom r = false → exec (.devInfo r) s = .next (s.set R.SMC_MB_STATUS_WAIT_RSP 1 r))

/-- A command whose extent is not all handed over takes every entry and is refused with LENGTH, one whose EXT is not its opcode's is
refused with LENGTH and one of an unknown opcode with RANGE, each taking 1 + EXT entries (R520); a device state that refuses every
command answers an unknown opcode first, with STATE (R483, R540, R542). -/
def Obligations.MalformedCommands : Prop :=
  ∀ (r : Fin 2) (s : State), s.mbReady r = true → s.mbRoom r = true →
    let h := s.mbHead r
    let op := s.opAt r h
    let ext := s.extAt r h
    let held := s.mbHeld r
    (held < 1 + ext → ∃ t, exec (.mailboxCommandMalformed r) s = .next t ∧
      t = (turnedAway s r op .length noAddr 0).raise (Ev.mbLength r) ∧ t.get R.SMC_MB_CMD_HEAD_HEAD r = (h + held) % 128) ∧
    (1 + ext ≤ held → ∀ e, opExt op = some e → e ≠ ext → ∃ t, exec (.mailboxCommandMalformed r) s = .next t ∧
      t = (turnedAway s r op .length noAddr 0).raise (Ev.mbLength r) ∧ t.get R.SMC_MB_CMD_HEAD_HEAD r = (h + 1 + ext) % 128) ∧
    (1 + ext ≤ held → opExt op = none → s.dev ≠ Dev.thermalLatch → (s.dev = Dev.fault → s.get R.SMC_FAULT_CAUSE = 3 → r ≠ 0) →
      ∃ t, exec (.mailboxCommandMalformed r) s = .next t ∧
        t = turnedAway s r op .range noAddr 0 ∧ t.get R.SMC_MB_CMD_HEAD_HEAD r = (h + 1 + ext) % 128) ∧
    (1 + ext ≤ held → opExt op = none →
      (s.dev = Dev.thermalLatch ∨ (s.dev = Dev.fault ∧ s.get R.SMC_FAULT_CAUSE = 3 ∧ r = 0)) →
      ∃ a t, exec (.mailboxCommandMalformed r) s = .next t ∧
        t = turnedAway s r op .state a 0 ∧ t.get R.SMC_MB_CMD_HEAD_HEAD r = (h + 1 + ext) % 128)

/-- A response (R521): its 64 bytes stand at the response TAIL as the table of a response entry says, every other byte of the mailbox is
as before, TAIL moves on, and the ring's response event is raised. -/
def Obligations.Responses : Prop :=
  ∀ (r : Fin 2) (op tag : Nat) (c : Status) (body : List Nat) (s : State),
    let a := 0x14000 + 0x2000 * r.val + 0x40 * s.get R.SMC_MB_RSP_TAIL_TAIL r
    let t := s.respond r op tag c body
    t.mbox.bytes a 2 = leBytes 2 op ∧ t.mbox.byte (a + 2) = c.code ∧ t.mbox.byte (a + 3) = 0 ∧ t.mbox.bytes (a + 4) 4 = leBytes 4 tag ∧
    t.mbox.bytes (a + 8) 4 = leBytes 4 (s.ring r).seq ∧ (∀ k, k < 4 → t.mbox.byte (a + 12 + k) = 0) ∧
    (∀ k, k < 48 → t.mbox.byte (a + 16 + k) = body.getD k 0 % 256) ∧
    (∀ b : Nat, (b < a ∨ a + 64 ≤ b) → t.mbox.byte b = s.mbox.byte b) ∧
    t.get R.SMC_MB_RSP_TAIL_TAIL r = (s.get R.SMC_MB_RSP_TAIL_TAIL r + 1) % 128 ∧
    bit (t.get R.HIF_EVT_PEND_PEND 45) (8 + r) = true ∧ t.hbm = s.hbm ∧ t.leaf = s.leaf ∧ t.out = s.out

/-- The commands of the device (R524, R533, R535, R536): each is answered with its effect. FAULT_CLEAR outside FAULT or while the cause
persists, and SVN_COMMIT of an object that runs unverified, are refused with STATE. FLASH_WRITE reads the data from the host at ADDR, then
erases its sectors and programs it. -/
def Obligations.DeviceCommands : Prop :=
  (∀ (r : Fin 2) (s : State), AtHead s r Op.devInfo → exec (.devInfo r) s = .next (answered s s r Op.devInfo s.devInfoResult)) ∧
  (∀ (r : Fin 2) (answers : Bool) (s : State), AtHead s r Op.faultClear →
    (s.dev = Dev.fault ∧ s.faultPersists answers = false →
      exec (.faultClear r answers) s = .next (answered s (s.setDev s.afterFault) r Op.faultClear [])) ∧
    (¬ (s.dev = Dev.fault ∧ s.faultPersists answers = false) →
      exec (.faultClear r answers) s = .next (turnedAway s r Op.faultClear .state (RegId.addr .SMC_FAULT) 0))) ∧
  (∀ (r : Fin 2) (s : State), AtHead s r Op.devReset →
    exec (.devReset r) s = .next (answered s { s with smc := { s.smc with resetDue := true } } r Op.devReset [])) ∧
  (∀ (r : Fin 2) (s : State), AtHead s r Op.svnCommit →
    (s.param r 16 1 = 1 → s.on R.SMC_POLICY_UNV_CAB = false →
      exec (.svnCommit r) s = .next (answered s (s.set R.SMC_FW_SVN_CAB s.smc.cabSvn) r Op.svnCommit [s.smc.cabSvn])) ∧
    (s.param r 16 1 = 2 → s.on R.SMC_POLICY_UNV_WB = false →
      (s.get R.SMC_FW_STATUS_WB_STATE = 1 ∨ s.get R.SMC_FW_STATUS_WB_STATE = 4) →
      exec (.svnCommit r) s = .next (answered s (s.set R.SMC_FW_SVN_WB s.smc.wbSvn) r Op.svnCommit [s.smc.wbSvn])) ∧
    (s.param r 16 1 = 1 → s.on R.SMC_POLICY_UNV_CAB = true →
      exec (.svnCommit r) s = .next (turnedAway s r Op.svnCommit .state (RegId.addr .SMC_POLICY) 0))) ∧
  (∀ (r : Fin 2) (s : State), AtHead s r Op.flashWrite →
    let off := s.param r 20 4
    let len := s.param r 32 4
    (len = 0 → exec (.flashWrite r) s = .next (answered s s r Op.flashWrite [])) ∧
    (len ≠ 0 → s.flashCheck off len = none →
      exec (.flashWrite r) s = .next (runsOn s (s.emit (.dmaRead 1 (s.param r 24 8) len)) r Op.flashWrite
        { op := 0, tag := 0, data := [off, len] })) ∧
    (len ≠ 0 → s.smc.flashSize < off + len →
      exec (.flashWrite r) s = .next (turnedAway s r Op.flashWrite .length noAddr 0))) ∧
  (∀ (bs : List Byte) (r : Nat) (x : Running) (s : State), s.runningOp Op.flashWrite = some (r, x) →
    let t := (s.emit (.flashErase (x.data.headD 0) ((x.data.getD 1 0 + 4095) / 4096))).emit (.flash (x.data.headD 0) ((bs.map (·.toNat)).take (x.data.getD 1 0)))
    exec (.flashWriteDone (some bs) true) s = .next (t.endRun r .ok []) ∧
    exec (.flashWriteDone (some bs) false) s = .next (t.endRun r .integrity noDetail) ∧
    exec (.flashWriteDone none true) s = .next (s.endRun r .absent noDetail)) ∧
  (∀ s : State, (s.get R.SMC_FW_STATUS_WB_STATE = 1 ∨ s.get R.SMC_FW_STATUS_WB_STATE = 4) →
    exec .workbenchTimeout s = .next (s.enterFault 3 8)) ∧
  (∀ s : State, (s.held = false → exec .managementSramUncorrectable s = .next (s.enterFault 4 8)) ∧
    (s.held = true → exec .managementSramUncorrectable s = .next s))

/-- Enrolment, measurements and the world map (R492, R493, R495, R499, R510, R534): an enrolment that passes its checks runs with the device key, one whose KEK
does not unwrap is refused with INTEGRITY, and the read-back gives OWNER 1 with the event, or 3; a head's measurement is the digest
that was read from it, zeros with its event where a read of it failed, and waits while a read goes on; WORLD_SET moves its targets, and
putting one target into a world leaves the others of its word. -/
def Sys2Proof.Stated.EnrolmentAndWorlds : Prop :=
  (∀ (r : Fin 2) (key : Nat) (kek : List Nat) (s : State), AtHead s r Op.ownerEnroll → s.deviceKey key = true → s.get R.SMC_ID_CFG_OWNER = 0 →
    (s.dev = Dev.bare ∨ s.dev = Dev.idle) → s.on R.SCU_IMG_STATUS_BUSY = false →
    let part (k n : Nat) : List Nat := s.cmdBytes r (s.mbHead r) k n
    (enrolledKek key (part 113 97) (part 210 40) = some kek →
      exec (.ownerEnroll r key) s = .next (runsOn s s r Op.ownerEnroll
        { op := 0, tag := 0, data := kek.length :: (kek ++ sha384 (part 16 97)) })) ∧
    (enrolledKek key (part 113 97) (part 210 40) = none →
      exec (.ownerEnroll r key) s = .next (turnedAway s r Op.ownerEnroll .integrity noAddr 0))) ∧
  (∀ (dig : List Byte) (kekOk : Bool) (r : Nat) (x : Running) (s : State), s.runningOp Op.ownerEnroll = some (r, x) →
    let good := kekOk = true ∧ dig.map (·.toNat) = (x.data.drop 1).drop (x.data.headD 0)
    (good → ∃ t, exec (.ownerEnrollDone dig kekOk) s = .next t ∧ t.get R.SMC_ID_CFG_OWNER = 1 ∧ (t.ring r).run = none ∧
      bit (t.get R.HIF_EVT_PEND_PEND 45) 0 = true ∧ t.smc.kek = (x.data.drop 1).take (x.data.headD 0)) ∧
    (¬ good → ∃ t, exec (.ownerEnrollDone dig kekOk) s = .next t ∧ t.get R.SMC_ID_CFG_OWNER = 3 ∧ (t.ring r).run = none)) ∧
  (∀ (p : Fin 96) (s : State), s.portActive p = true →
    (∀ d ended, s.headDigest p = some d → exec (.headMeasurementRead p ended) s = .next (s.setMeas (16 + p) d)) ∧
    (s.headDigest p = none → exec (.headMeasurementRead p false) s = .next s) ∧
    (s.headDigest p = none → exec (.headMeasurementRead p true) s = .next
      ((((s.setHead p { s.head p with reads := [], ask := none }).nextRequest p).setMeas (16 + p) zero48).raise Ev.headUnmeasured))) ∧
  (∀ (r : Fin 2) (s : State), AtHead s r Op.worldSet →
    let kind := s.param r 16 1
    let world := s.param r 17 1
    let first := s.param r 20 4
    let count := s.param r 24 4
    1 ≤ kind → kind ≤ 7 → world ≤ 1 →
    (count = 0 → exec (.worldSet r) s = .next (answered s s r Op.worldSet [])) ∧
    (count ≠ 0 → first + count ≤ targetCount kind → (∀ i, i < count → s.targetInUse kind (first + i) = false) →
      ¬ (kind = 6 ∧ 32512 < first + count) →
      exec (.worldSet r) s = .next (answered s
        (s.each ((List.range count).map (first + ·)) fun s n => s.setTarget kind n world).syncMeas r Op.worldSet [])) ∧
    (count ≠ 0 → targetCount kind < first + count → ∃ t, exec (.worldSet r) s = .next t ∧
      t = turnedAway s r Op.worldSet .length ((targetMap kind).base + 4 * (first / 32)) 0)) ∧
  (∀ (kind n m world : Nat) (s : State), 1 ≤ kind → kind ≤ 7 → n < targetCount kind → m < targetCount kind → world ≤ 1 →
    let t := s.setTarget kind n world
    bits (t.get (targetMap kind) (n / 32)) (n % 32) 1 = world ∧
    (m ≠ n → bits (t.get (targetMap kind) (m / 32)) (m % 32) 1 = bits (s.get (targetMap kind) (m / 32)) (m % 32) 1) ∧
    FieldsBut [(targetMap kind).key (n / 32) 0] s t)

/-- Attestation, enrolment, head measurements and the world map. -/
def Obligations.TrustAndWorlds : Prop := SpdmAnswers ∧ EnrolmentAndWorlds

/-- The station commands, each where R526 allows it (R525, R527 to R532): what is answered, and with which effect. -/
def Sys2Proof.Stated.StationCommands : Prop :=
  (∀ (r : Fin 2) (s : State), AtHead s r Op.stDefine →
    let n := s.stParam r
    let k := s.param r 18 1
    let hs := headsOf (s.param r 20 12)
    s.stBusy n = false → (∀ p ∈ hs, ∀ m, m < 8 → m ≠ n → p ∉ (s.station m).heads) → 6 ≤ k → k ≤ 16 → s.param r 17 1 ≤ 1 →
    exec (.stDefine r) s = .next (answered s (((s.setStation n { s.station n with k := k, heads := hs }).set R.SMC_ST_STATE_CLASS
      (s.param r 17 1) n).set R.SMC_ST_STATE_K k n) r Op.stDefine [])) ∧
  (∀ (r : Fin 2) (t : Int) (t2 : Option (Fin 16)) (west : Bool) (s : State), AtHead s r Op.stArm →
    let n := s.stParam r
    let a := s.admission (fun m => s.counted m || decide (m = n)) s.lineRate s.engLoads (t2.map (·.val))
    s.armCheck n west = none → s.armLink n = none → a.1 = true →
    exec (.stArm r t t2 west) s = .next (answered s (a.2.armed n t) r Op.stArm (leBytes 8 0 ++ leBytes 8 (s.w0 n)))) ∧
  (∀ (r : Fin 2) (t : Int) (s : State), AtHead s r Op.stStart →
    let n := s.stParam r
    s.stState n = St.armed → s.ringStation n = false →
    exec (.stStart ⟨r, t⟩) s = .next (answered s ((((s.watchFrom n t).enterSt n St.scanning).syncStore n).syncHeld n) r Op.stStart [])) ∧
  (∀ (r : Fin 2) (t : Int) (s : State), AtHead s r Op.stPause →
    let n := s.stParam r
    s.stState n = St.scanning → s.isSheet n = true → (s.station n).axisDown = false →
    let u := (s.stopStation n t).set R.SMC_ST_STATE_HOLD 1 n
    exec (.stPause r t) s = .next (answered s u r Op.stPause (leBytes 8 0 ++ leBytes 8 (u.get R.SST_ST_REW_R n)))) ∧
  (∀ (r : Fin 2) (s : State), AtHead s r Op.stResume →
    let n := s.stParam r
    (s.stState n = St.paused ∨ s.stState n = St.rewinding) → s.on R.SMC_ST_STATE_HOLD n = true →
    exec (.stResume r) s = .next (answered s (s.set R.SMC_ST_STATE_HOLD 0 n) r Op.stResume [])) ∧
  (∀ (r : Fin 2) (t : Int) (s : State), AtHead s r Op.stDrain →
    let n := s.stParam r
    let final := s.param r 24 6
    let phase := s.get R.SST_ST_REW_STATUS_PHASE n
    (s.station n).axisDown = false →
    (s.stState n = St.armed → final = 0 → s.ringStation n = false →
      exec (.stDrain ⟨r, t⟩) s = .next (answered s (s.idleEntry n) r Op.stDrain (leBytes 8 0 ++ leBytes 8 0))) ∧
    (s.stState n = St.scanning → phase = 0 → final ≠ 0 → (s.lst n).next ≤ final →
      exec (.stDrain ⟨r, t⟩) s = .next (answered s (s.setStation n { s.station n with final := some final }) r Op.stDrain
        (leBytes 8 0 ++ leBytes 8 (s.drainLine n final)))) ∧
    (s.stState n = St.scanning → phase = 0 → final = 0 → s.ringStation n = false → ∀ l, s.lastCommitted n = some l →
      exec (.stDrain ⟨r, t⟩) s = .next (answered s (s.enterDrain n (some l)) r Op.stDrain (leBytes 8 0 ++ leBytes 8 (s.drainLine n l))))) ∧
  (∀ (r : Fin 2) (s : State), AtHead s r Op.stAbort →
    let n := s.stParam r
    let u := s.abortStation n
    s.stBusy n = true →
    (u.flushing (s.stationQueues n) = false → exec (.stAbort r) s = .next (answered s u r Op.stAbort [])) ∧
    (u.flushing (s.stationQueues n) = true → exec (.stAbort r) s = .next (runsOn s u r Op.stAbort
      { op := 0, tag := 0, station := n, data := s.stationQueues n }))) ∧
  (∀ (r : Fin 2) (t2 : Option (Fin 16)) (s : State), AtHead s r Op.stStage →
    let n := s.stParam r
    let g := s.stageParam r
    s.stBusy n = true → s.stState n ≠ St.draining →
    (bit (s.param r 17 1) 0 = true → (s.station n).staged.isSome = true →
      exec (.stStage r t2) s = .next (answered s (s.dropStaged n) r Op.stStage (hingeResult 0))) ∧
    (bit (s.param r 17 1) 0 = false → g.mask ≠ 0 → s.stageCheck n g = none →
      (g.apply (s.ltuVals n)).getD 6 0 ≤ s.get R.LTU_ST_MAXRATE_RATE n →
      let a := s.stageChange n g.h g.mask g.vals
      exec (.stStage r t2) s = .next (answered s a.1 r Op.stStage (hingeResult a.2)))) ∧
  (∀ (r : Fin 2) (s : State), AtHead s r Op.stQuery →
    exec (.stQuery r) s = .next (answered s s r Op.stQuery (s.queryResult (s.stParam r))))

/-- Where R526 does not mark a station command it is refused with STATE, the register named being the station's state, or the device's
in CABINET_BOOT, BARE, FAULT and THERMAL_LATCH, where none but ST_QUERY is marked; nothing of its effect happens. After a fault of its
paced axis a station takes ST_ABORT alone (R474). -/
def Sys2Proof.Stated.IllegalStationCommands : Prop :=
  (∀ (r : Fin 2) (t : Int) (t2 : Option (Fin 16)) (west : Bool) (s : State),
    let n := s.stParam r
    let st := s.stState n
    let phase := s.get R.SST_ST_REW_STATUS_PHASE n
    let refused (op : Nat) : State := turnedAway s r op .state (RegId.addr .SMC_ST_STATE n) 0
    (AtHead s r Op.stDefine → st ≠ St.idle → exec (.stDefine r) s = .next (refused Op.stDefine)) ∧
    (AtHead s r Op.stArm → st ≠ St.idle → (∀ c a, s.armCheck n west = some (c, a) → c ≠ .length ∧ c ≠ .world) →
      exec (.stArm r t t2 west) s = .next (turnedAway (s.noteArm n .state) r Op.stArm .state (RegId.addr .SMC_ST_STATE n) 0)) ∧
    (AtHead s r Op.stStart → (st ≠ St.armed ∨ s.ringStation n = true) → exec (.stStart ⟨r, t⟩) s = .next (refused Op.stStart)) ∧
    (AtHead s r Op.stPause → (st ≠ St.scanning ∨ (s.station n).axisDown = true) → exec (.stPause r t) s = .next (refused Op.stPause)) ∧
    (AtHead s r Op.stResume → ((st ≠ St.paused ∧ st ≠ St.rewinding) ∨ s.on R.SMC_ST_STATE_HOLD n = false) →
      exec (.stResume r) s = .next (refused Op.stResume)) ∧
    (AtHead s r Op.stStage → (st = St.idle ∨ st = St.draining) → exec (.stStage r t2) s = .next (refused Op.stStage)) ∧
    (AtHead s r Op.stDrain → (st = St.idle ∨ st = St.draining ∨ ((st = St.paused ∨ st = St.rewinding) ∧ (phase = 0 ∨ 5 ≤ phase)) ∨
      (s.station n).axisDown = true) → exec (.stDrain ⟨r, t⟩) s = .next (refused Op.stDrain)) ∧
    (AtHead s r Op.stAbort → st = St.idle → exec (.stAbort r) s = .next (refused Op.stAbort))) ∧
  (∀ (r : Fin 2) (t : Int) (t2 : Option (Fin 16)) (west : Bool) (s : State), (s.dev < Dev.idle ∨ Dev.fault ≤ s.dev) →
    (s.dev = Dev.fault → s.get R.SMC_FAULT_CAUSE = 3 → r = 1) →
    (r = 1 ∨ 8 ≤ s.param r 16 1 ∨ s.stationWorld (s.param r 16 1) ≠ .secure) →
    let whole (op : Nat) : Prop := s.mbReady r = true ∧ s.opAt r (s.mbHead r) = op ∧ opExt op = some (s.extAt r (s.mbHead r)) ∧
      s.extAt r (s.mbHead r) < s.mbHeld r ∧ s.mbRoom r = true
    let refused (op : Nat) : State := turnedAway s r op .state (RegId.addr .SMC_DEV_STATE) 0
    (whole Op.stDefine → exec (.stDefine r) s = .next (refused Op.stDefine)) ∧
    (whole Op.stArm → (∀ c a, s.armCheck (s.stParam r) west = some (c, a) → c ≠ .length ∧ c ≠ .world) →
      exec (.stArm r t t2 west) s = .next (refused Op.stArm)) ∧
    (whole Op.stStart → exec (.stStart ⟨r, t⟩) s = .next (refused Op.stStart)) ∧
    (whole Op.stPause → exec (.stPause r t) s = .next (refused Op.stPause)) ∧
    (whole Op.stResume → exec (.stResume r) s = .next (refused Op.stResume)) ∧
    (whole Op.stDrain → exec (.stDrain ⟨r, t⟩) s = .next (refused Op.stDrain)) ∧
    (whole Op.stStage → exec (.stStage r t2) s = .next (refused Op.stStage)) ∧
    (whole Op.stAbort → exec (.stAbort r) s = .next (refused Op.stAbort)))

/-- Station commands where R526 allows them, and their refusal with STATE elsewhere. -/
def Obligations.StationCommandRules : Prop := StationCommands ∧ IllegalStationCommands

/-! ### Registers -/

/-- What a write of a word does to the fields it holds, by access type (R11, R576): RW takes the bits written, and RWS from the secure
world; a 1 clears a W1C bit and a 0 leaves it; RO and WO, and RWS from any other world, keep their value. No field of another
register changes. -/
def Sys2Proof.Stated.AccessTypesOfWrites : Prop :=
  ∀ (g : Reg) (p : Part) (w : World) (i j x : Nat) (s : State), g ∈ regTable → p ∈ g.parts →
    let t := s.writeAll w g i j x
    let old := s.get p.fld i j
    let new := t.get p.fld i j
    (p.fld.acc = .rw ∨ (p.fld.acc = .rws ∧ w = .secure) → bits new p.flo p.width = bits x p.wlo p.width) ∧
    (p.fld.acc = .w1c → ∀ b, b < p.width → bit new b = (bit old b && !bit x (p.wlo + b))) ∧
    (p.fld.acc = .ro ∨ p.fld.acc = .wo ∨ (p.fld.acc = .rws ∧ w ≠ .secure) → new = old) ∧
    FieldsBut (g.parts.map fun q => q.fld.key i j) s t ∧ SameMemory s t

/-- Reserved bits of a register read zero in both worlds and what is written to them is ignored (R13); WO fields, and RWS fields from any
world but the secure one, read zero, and any other shows its value (R11). -/
def Sys2Proof.Stated.ReservedBitsReadZero : Prop :=
  ∀ (g : Reg) (w : World) (i j b : Nat) (s : State), g ∈ regTable → b < 32 →
    ((∀ p ∈ g.parts, b < p.wlo ∨ p.wlo + p.width ≤ b) → bit (s.regWord w g i j) b = false) ∧
    (∀ p ∈ g.parts, (p.fld.acc = .wo ∨ (p.fld.acc = .rws ∧ w ≠ .secure)) → p.wlo ≤ b → b < p.wlo + p.width →
      bit (s.regWord w g i j) b = false) ∧
    (∀ p ∈ g.parts, p.fld.acc ≠ .wo → (p.fld.acc = .rws → w = .secure) → p.wlo ≤ b → b < p.wlo + p.width →
      bit (s.regWord w g i j) b = bit (s.get p.fld i j) (p.flo + b - p.wlo)) ∧
    (∀ x y : Nat, (∀ p ∈ g.parts, bits x p.wlo p.width = bits y p.wlo p.width) → s.writeAll w g i j x = s.writeAll w g i j y)

/-- Fields take writes and show values by their access type; reserved bits read zero and ignore writes. -/
def Obligations.RegisterFields : Prop := AccessTypesOfWrites ∧ ReservedBitsReadZero

/-- Host accesses of the control space (R10, R11, R39, R140, R497, R518, R572): a write of a register that nothing refuses gives every
writable part that no row of its own acts on the bits written, leaves the parts of such rows, and has the register's further effect
where it has one; a refused one is counted and reported, a stream's in its own LAST_STATUS too; a write of a command entry puts its four
bytes there and one of a response entry nothing; an unassigned offset ignores writes and reads zero; reads of mailbox entries and of the
leaf and table window give their bytes, and a read of the wrong world zeros with its report; reading the low half of a pair shows it and
holds the high half, which later reads return; any other register shows its value and nothing else changes. -/
def Obligations.ControlSpace : Prop :=
  (∀ (w : World) (a : Fin 16777216) (v : BitVec 32) (s : State) (id : RegId) (g : Reg) (i j : Nat), Reaches s w id i j →
    id.desc? = some g → findReg (4 * a) = some (g, i, j) →
    (s.writeCheck w g i j v.toNat = none → exec (.registerWrite w a v) s = .next
      ((s.writeParts w g i j (s.effectiveWord w g i v.toNat)).afterWrite s g i v.toNat)) ∧
    (∀ c, s.writeCheck w g i j v.toNat = some c →
      let t := s.refuse w c (lastStatusOf g i).1 (lastStatusOf g i).2
      exec (.registerWrite w a v) s = .next
        (if 0x1D06000 ≤ g.base ∧ g.base < 0x1D07000 then t.set R.HIF_ST_STATUS_LAST_STATUS c.code i else t))) ∧
  (∀ (g : Reg) (p : Part) (w : World) (i j x : Nat) (s : State), g ∈ regTable → p ∈ g.parts →
    let new := (s.writeParts w g i j x).get p.fld i j
    (p.own = false → (p.fld.acc = .rw ∨ (p.fld.acc = .rws ∧ w = .secure)) → bits new p.flo p.width = bits x p.wlo p.width) ∧
    (p.own = true → new = s.get p.fld i j)) ∧
  (∀ (g : Reg) (w : World) (i x : Nat) (s t : State),
    (g.id ∉ [.LTU_CTRL, .QMX_POOL_CFG, .KRU_MEMBER_SEL, .SMC_MEAS_SEL, .HIF_CTRL, .HIF_EVT_PEND, .HIF_EVT_EN, .THM_FAIL,
      .THM_RO_CTRL] → t.afterWrite s g i x = t) ∧
    (g.id ≠ .HIF_EVT_PEND → g.id ≠ .HIF_EVT_EN → s.effectiveWord w g i x = x)) ∧
  (∀ (w : World) (a : Fin 16777216) (v : BitVec 32) (s : State), ReachesAt s w (4 * a) →
    (0x10000 ≤ 4 * a.val → 4 * a.val < 0x14000 → ∃ t, exec (.registerWrite w a v) s = .next t ∧
      (∀ k, k < 4 → t.mbox.byte (4 * a + k) = bits v.toNat (8 * k) 8) ∧
      (∀ b : Nat, (b < 4 * a ∨ 4 * a + 4 ≤ b) → t.mbox.byte b = s.mbox.byte b) ∧ t.regs = s.regs) ∧
    (0x14000 ≤ 4 * a.val → 4 * a.val < 0x18000 → exec (.registerWrite w a v) s = .next s)) ∧
  (∀ (w : World) (a : Fin 16777216) (v : BitVec 32) (t : Int) (s : State), findReg (4 * a) = none →
    ((4 * a.val < 0x10000 ∨ 0x18000 ≤ 4 * a.val) → ocShelf (4 * a) = none → exec (.registerWrite w a v) s = .next s) ∧
    (s.held = false → (w = .secure ∨ s.addrWorld (4 * a) = .nonSecure) →
      let answer (m : Memory) : List Nat := (List.range 4).map fun k => m.byte (4 * a + k)
      (0x10000 ≤ 4 * a.val → 4 * a.val < 0x18000 →
        exec (.holdingRegisterLoRead w a t) s = .next { s with out := s.out ++ [.readData w (4 * a) (answer s.mbox)] }) ∧
      ((ocShelf (4 * a)).isSome = true →
        exec (.holdingRegisterLoRead w a t) s = .next { s with out := s.out ++ [.readData w (4 * a) (answer s.leaf)] }) ∧
      ((4 * a.val < 0x10000 ∨ 0x18000 ≤ 4 * a.val) → ocShelf (4 * a) = none →
        exec (.holdingRegisterLoRead w a t) s = .next { s with out := s.out ++ [.readData w (4 * a) [0, 0, 0, 0]] }))) ∧
  (∀ (w : World) (a : Fin 16777216) (t : Int) (s : State) (g : Reg) (i j : Nat), findReg (4 * a) = some (g, i, j) → s.held = false →
    g.id ∉ readRows →
    ((w = .secure ∨ s.addrWorld (4 * a) = .nonSecure) →
      (g.id ∈ pairLo → ∃ u, exec (.holdingRegisterLoRead w a t) s = .next u ∧
        u.out = s.out ++ [.readData w (4 * a) (leBytes 4 (s.liveWord w g i j t))] ∧
        SMap.get u.hold 0 (4 * a + 4) = s.liveAt w (4 * a + 4) t ∧ u.regs = s.regs ∧ SameMemory s u) ∧
      (g.id ∈ latched → exec (.holdingRegisterLoRead w a t) s = .next { s with
        out := s.out ++ [.readData w (4 * a) (leBytes 4 (SMap.get s.hold 0 (g.addr i j)))] }) ∧
      (g.id ∉ pairLo → g.id ∉ latched → exec (.holdingRegisterLoRead w a t) s = .next { s with
        out := s.out ++ [.readData w (4 * a) (leBytes 4 (s.liveWord w g i j t))] })) ∧
    (w ≠ .secure → s.addrWorld (4 * a) = .secure → exec (.holdingRegisterLoRead w a t) s = .next
      ((s.crossWorld (xwSource w) false (4 * a)).emit (.readData w (4 * a) [0, 0, 0, 0]))))
end

