-- ==== Sys2Proof/Laws/Maps.lean ====
section
/-! SUPPORT. Laws of sparse maps and memories: a read after a write, and that every operation keeps the canonical form. -/

namespace Sys2Proof.Machine

/-! ### Looking up -/

theorem SMap.find_insert_self {α : Type} (m : SMap α) (q : Nat) (x : α) : SMap.find? (SMap.insert m q x) q = some x := by
  induction m with
  | nil => simp [SMap.insert, SMap.find?]
  | cons e m ih =>
    obtain ⟨k, v⟩ := e
    simp only [SMap.insert]
    split
    · simp [SMap.find?]
    · split
      · simp [SMap.find?]
      · simp [SMap.find?, *]

theorem SMap.find_insert_ne {α : Type} (m : SMap α) {q r : Nat} (x : α) (h : r ≠ q) :
    SMap.find? (SMap.insert m q x) r = SMap.find? m r := by
  induction m with
  | nil => simp [SMap.insert, SMap.find?, h]
  | cons e m ih =>
    obtain ⟨k, v⟩ := e
    simp only [SMap.insert]
    split
    · simp [SMap.find?, h]
    · split
      · next hk => subst hk; simp [SMap.find?, h]
      · simp [SMap.find?, ih]

theorem SMap.find_erase_self {α : Type} (m : SMap α) (q : Nat) : SMap.find? (SMap.erase m q) q = none := by
  induction m with
  | nil => rfl
  | cons e m ih =>
    obtain ⟨k, v⟩ := e
    simp only [SMap.erase]
    split
    · exact ih
    · simp [SMap.find?, *]

theorem SMap.find_erase_ne {α : Type} (m : SMap α) {q r : Nat} (h : r ≠ q) :
    SMap.find? (SMap.erase m q) r = SMap.find? m r := by
  induction m with
  | nil => rfl
  | cons e m ih =>
    obtain ⟨k, v⟩ := e
    simp only [SMap.erase]
    split
    · next hk => subst hk; simp [SMap.find?, h, ih]
    · simp [SMap.find?, ih]

/-- A read after a write of the same key gives what was written. -/
theorem SMap.get_put_self {α : Type} [DecidableEq α] (m : SMap α) (d : α) (q : Nat) (x : α) :
    SMap.get (SMap.put m d q x) d q = x := by
  unfold SMap.get SMap.put
  split
  · simp [SMap.find_erase_self, *]
  · simp [SMap.find_insert_self]

/-- A write leaves every other key alone. -/
theorem SMap.get_put_ne {α : Type} [DecidableEq α] (m : SMap α) (d c : α) {q r : Nat} (x : α) (h : r ≠ q) :
    SMap.get (SMap.put m d q x) c r = SMap.get m c r := by
  unfold SMap.get SMap.put
  split
  · rw [SMap.find_erase_ne m h]
  · rw [SMap.find_insert_ne m x h]

/-! ### The canonical form -/

theorem SMap.above_mono {α : Type} (m : SMap α) {a b : Nat} (h : a ≤ b) (hb : SMap.above b m = true) : SMap.above a m = true := by
  induction m with
  | nil => rfl
  | cons e m ih =>
    obtain ⟨k, v⟩ := e
    simp only [SMap.above, Bool.and_eq_true, decide_eq_true_eq] at hb ⊢
    exact ⟨by omega, ih hb.2⟩

theorem SMap.above_insert {α : Type} (m : SMap α) (a q : Nat) (x : α) (hq : a < q) (h : SMap.above a m = true) :
    SMap.above a (SMap.insert m q x) = true := by
  induction m with
  | nil => simp [SMap.insert, SMap.above, hq]
  | cons e m ih =>
    obtain ⟨k, v⟩ := e
    simp only [SMap.above, Bool.and_eq_true, decide_eq_true_eq] at h
    simp only [SMap.insert]
    split
    · simp [SMap.above, hq, h]
    · split
      · simp [SMap.above, hq, h]
      · simp [SMap.above, h.1, ih h.2]

theorem SMap.above_erase {α : Type} (m : SMap α) (a q : Nat) (h : SMap.above a m = true) : SMap.above a (SMap.erase m q) = true := by
  induction m with
  | nil => rfl
  | cons e m ih =>
    obtain ⟨k, v⟩ := e
    simp only [SMap.above, Bool.and_eq_true, decide_eq_true_eq] at h
    simp only [SMap.erase]
    split
    · exact ih h.2
    · simp [SMap.above, h.1, ih h.2]

theorem SMap.sorted_insert {α : Type} (m : SMap α) (q : Nat) (x : α) (h : SMap.sorted m = true) :
    SMap.sorted (SMap.insert m q x) = true := by
  induction m with
  | nil => rfl
  | cons e m ih =>
    obtain ⟨k, v⟩ := e
    simp only [SMap.sorted, Bool.and_eq_true] at h
    simp only [SMap.insert]
    split
    · next hq => simp [SMap.sorted, SMap.above, hq, h, SMap.above_mono m (Nat.le_of_lt hq) h.1]
    · split
      · next hq => subst hq; simp [SMap.sorted, h]
      · next h1 h2 => simp [SMap.sorted, ih h.2, SMap.above_insert m k q x (by omega) h.1]

theorem SMap.sorted_erase {α : Type} (m : SMap α) (q : Nat) (h : SMap.sorted m = true) : SMap.sorted (SMap.erase m q) = true := by
  induction m with
  | nil => rfl
  | cons e m ih =>
    obtain ⟨k, v⟩ := e
    simp only [SMap.sorted, Bool.and_eq_true] at h
    simp only [SMap.erase]
    split
    · exact ih h.2
    · simp [SMap.sorted, ih h.2, SMap.above_erase m k q h.1]

/-- A write keeps the keys rising. -/
theorem SMap.sorted_put {α : Type} [DecidableEq α] (m : SMap α) (d : α) (q : Nat) (x : α) (h : SMap.sorted m = true) :
    SMap.sorted (SMap.put m d q x) = true := by
  unfold SMap.put
  split
  · exact SMap.sorted_erase m q h
  · exact SMap.sorted_insert m q x h

theorem SMap.noDefault_insert {α : Type} [DecidableEq α] (d : Nat → α) (m : SMap α) (q : Nat) (x : α) (hx : x ≠ d q)
    (h : SMap.noDefault d m = true) : SMap.noDefault d (SMap.insert m q x) = true := by
  induction m with
  | nil => simp [SMap.insert, SMap.noDefault, hx]
  | cons e m ih =>
    obtain ⟨k, v⟩ := e
    simp only [SMap.noDefault, Bool.and_eq_true, decide_eq_true_eq] at h
    simp only [SMap.insert]
    split
    · simp [SMap.noDefault, hx, h]
    · split
      · simp [SMap.noDefault, hx, h]
      · simp [SMap.noDefault, h.1, ih h.2]

theorem SMap.noDefault_erase {α : Type} [DecidableEq α] (d : Nat → α) (m : SMap α) (q : Nat) (h : SMap.noDefault d m = true) :
    SMap.noDefault d (SMap.erase m q) = true := by
  induction m with
  | nil => rfl
  | cons e m ih =>
    obtain ⟨k, v⟩ := e
    simp only [SMap.noDefault, Bool.and_eq_true, decide_eq_true_eq] at h
    simp only [SMap.erase]
    split
    · exact ih h.2
    · simp [SMap.noDefault, h.1, ih h.2]

/-- A write with the default of its key keeps the canonical form. -/
theorem SMap.wf_put {α : Type} [DecidableEq α] (d : Nat → α) (m : SMap α) (q : Nat) (x : α) (h : SMap.wf d m = true) :
    SMap.wf d (SMap.put m (d q) q x) = true := by
  simp only [SMap.wf, Bool.and_eq_true] at h ⊢
  refine ⟨SMap.sorted_put m (d q) q x h.1, ?_⟩
  unfold SMap.put
  split
  · exact SMap.noDefault_erase d m q h.2
  · next hx => exact SMap.noDefault_insert d m q x hx h.2

theorem SMap.above_filter {α : Type} (p : Nat × α → Bool) (m : SMap α) (a : Nat) (h : SMap.above a m = true) :
    SMap.above a (m.filter p) = true := by
  induction m with
  | nil => rfl
  | cons e m ih =>
    obtain ⟨k, v⟩ := e
    simp only [SMap.above, Bool.and_eq_true, decide_eq_true_eq] at h
    simp only [List.filter]
    split
    · simp [SMap.above, h.1, ih h.2]
    · exact ih h.2

/-- Dropping entries keeps the keys rising. -/
theorem SMap.sorted_filter {α : Type} (p : Nat × α → Bool) (m : SMap α) (h : SMap.sorted m = true) :
    SMap.sorted (m.filter p) = true := by
  induction m with
  | nil => rfl
  | cons e m ih =>
    obtain ⟨k, v⟩ := e
    simp only [SMap.sorted, Bool.and_eq_true] at h
    simp only [List.filter]
    split
    · simp [SMap.sorted, ih h.2, SMap.above_filter p m k h.1]
    · exact ih h.2

theorem SMap.noDefault_filter {α : Type} [DecidableEq α] (d : Nat → α) (p : Nat × α → Bool) (m : SMap α)
    (h : SMap.noDefault d m = true) : SMap.noDefault d (m.filter p) = true := by
  induction m with
  | nil => rfl
  | cons e m ih =>
    obtain ⟨k, v⟩ := e
    simp only [SMap.noDefault, Bool.and_eq_true, decide_eq_true_eq] at h
    simp only [List.filter]
    split
    · simp [SMap.noDefault, h.1, ih h.2]
    · exact ih h.2

/-! ### Memories -/

/-- Writing one byte keeps the canonical form. -/
theorem Memory.wf_put (m : Memory) (a : Nat) (b : Byte) (h : m.wf = true) :
    Memory.wf (SMap.put (α := Byte) m Memory.blank a b) = true := SMap.wf_put (fun _ => Memory.blank) m a b h

theorem Memory.wf_putList (m : Memory) (a : Nat) (bs : List Byte) (h : m.wf = true) :
    Memory.wf (SMap.putList (α := Byte) m Memory.blank a bs) = true := by
  induction bs generalizing m a with
  | nil => exact h
  | cons b bs ih => exact ih _ _ (Memory.wf_put m a b h)

/-- Writing bytes keeps the canonical form. -/
theorem Memory.wf_write (m : Memory) (a : Nat) (bs : List Nat) (h : m.wf = true) : (m.write a bs).wf = true :=
  Memory.wf_putList m a _ h

/-- Dropping entries keeps the canonical form. -/
theorem Memory.wf_filter (m : Memory) (p : Nat × Byte → Bool) (h : m.wf = true) : Memory.wf (m.filter p) = true := by
  simp only [Memory.wf, SMap.wf, Bool.and_eq_true] at h ⊢
  exact ⟨SMap.sorted_filter p m h.1, SMap.noDefault_filter _ p m h.2⟩

theorem Memory.wf_clearRange (m : Memory) (lo hi : Nat) (h : m.wf = true) : Memory.wf (SMap.clearRange m lo hi) = true :=
  Memory.wf_filter m _ h

theorem Memory.wf_nil : Memory.wf [] = true := rfl

theorem Memory.byte_putList_below (m : Memory) (a x : Nat) (bs : List Byte) (h : x < a) :
    Memory.byte (SMap.putList (α := Byte) m Memory.blank a bs) x = m.byte x := by
  induction bs generalizing m a with
  | nil => rfl
  | cons b bs ih =>
    rw [SMap.putList, ih _ _ (by omega)]
    simp only [Memory.byte]
    rw [SMap.get_put_ne (α := Byte) m Memory.blank Memory.blank b (by omega : x ≠ a)]

theorem Memory.byte_putList (m : Memory) (a x : Nat) (bs : List Byte) :
    Memory.byte (SMap.putList (α := Byte) m Memory.blank a bs) x =
      if a ≤ x ∧ x < a + bs.length then (bs.getD (x - a) 0).toNat else m.byte x := by
  induction bs generalizing m a with
  | nil => simp [SMap.putList] <;> omega
  | cons b bs ih =>
    rw [SMap.putList]
    by_cases hx : x = a
    · subst hx
      rw [Memory.byte_putList_below _ _ _ _ (by omega)]
      simp [Memory.byte, SMap.get_put_self (α := Byte)]
    · rw [ih]
      have hp : Memory.byte (SMap.put (α := Byte) m Memory.blank a b) x = m.byte x := by
        simp only [Memory.byte]; rw [SMap.get_put_ne (α := Byte) m Memory.blank Memory.blank b hx]
      rw [hp]
      by_cases h1 : a + 1 ≤ x ∧ x < a + 1 + bs.length
      · have h2 : a ≤ x ∧ x < a + (b :: bs).length := by simp; omega
        rw [if_pos h1, if_pos h2]
        have h3 : x - a = (x - (a + 1)) + 1 := by omega
        rw [h3]; rfl
      · have h2 : ¬ (a ≤ x ∧ x < a + (b :: bs).length) := by simp; omega
        rw [if_neg h1, if_neg h2]

/-- What a byte reads as after a write: the byte written, or what it was. -/
theorem Memory.byte_write (m : Memory) (a x : Nat) (bs : List Nat) :
    (m.write a bs).byte x = if a ≤ x ∧ x < a + bs.length then (bs.getD (x - a) 0) % 256 else m.byte x := by
  unfold Memory.write
  rw [Memory.byte_putList]
  simp only [List.length_map]
  split
  · next h =>
    have hl : x - a < bs.length := by omega
    simp [List.getD_eq_getElem?_getD, List.getElem?_map, List.getElem?_eq_getElem hl]
  · rfl

end Sys2Proof.Machine
end

