-- ==== Sys2Proof/Laws/Keeps.lean ====
section
/-! SUPPORT. What every shared operation of queues, stores, engines, pace and leaves keeps, one lemma an operation. -/

set_option maxHeartbeats 400000

open Sys2Proof

namespace Sys2Proof.Machine

/-- What every operation of the machine keeps: the queue of commands is untouched, what has been sent stays sent, the counter of free
values never falls, the stores keep their canonical form; and where `ka`, `kb` or `kc` holds, the HBM, the leaf and table window or the
mailbox entries are unchanged byte for byte. -/
structure Keeps (ka kb kc : Bool) (s t : State) : Prop where
  pending : t.pending = s.pending
  out : ∃ l, t.out = s.out ++ l
  fresh : s.fresh ≤ t.fresh
  regs : SMap.sorted s.regs = true → SMap.sorted t.regs = true
  hbm : s.hbm.wf = true → t.hbm.wf = true
  leaf : s.leaf.wf = true → t.leaf.wf = true
  mbox : s.mbox.wf = true → t.mbox.wf = true
  hbmSame : ka = true → t.hbm = s.hbm
  leafSame : kb = true → t.leaf = s.leaf
  mboxSame : kc = true → t.mbox = s.mbox

theorem Keeps.refl (ka kb kc : Bool) (s : State) : Keeps ka kb kc s s :=
  ⟨rfl, ⟨[], by simp⟩, Nat.le_refl _, id, id, id, id, fun _ => rfl, fun _ => rfl, fun _ => rfl⟩

/-- A change of anything but the queue, the output, the free value counter, the registers and the memories. -/
theorem Keeps.mk_ {ka kb kc : Bool} {s0 z : State} (h : Keeps ka kb kc s0 z)
    (hold due qmx store eng pace hlf ltu pcp ttc ilc scu seals stations smc kru hif mfe thm) :
    Keeps ka kb kc s0 { pending := z.pending, regs := z.regs, hbm := z.hbm, leaf := z.leaf, mbox := z.mbox, out := z.out,
                        fresh := z.fresh, hold, due, qmx, store, eng, pace, hlf, ltu, pcp, ttc, ilc, scu, seals, stations, smc,
                        kru, hif, mfe, thm } :=
  ⟨h.pending, h.out, h.fresh, h.regs, h.hbm, h.leaf, h.mbox, h.hbmSame, h.leafSame, h.mboxSame⟩

/-- Bytes written to the HBM. -/
theorem Keeps.hbm_ {kb kc : Bool} {s0 z : State} (h : Keeps false kb kc s0 z) (x : Nat) (bs : List Nat) :
    Keeps false kb kc s0 { z with hbm := z.hbm.write x bs } :=
  ⟨h.pending, h.out, h.fresh, h.regs, fun k => Memory.wf_write _ _ _ (h.hbm k), h.leaf, h.mbox, nofun, h.leafSame, h.mboxSame⟩

/-- Bytes written to the leaf and table window. -/
theorem Keeps.leaf_ {ka kc : Bool} {s0 z : State} (h : Keeps ka false kc s0 z) (x : Nat) (bs : List Nat) :
    Keeps ka false kc s0 { z with leaf := z.leaf.write x bs } :=
  ⟨h.pending, h.out, h.fresh, h.regs, h.hbm, fun k => Memory.wf_write _ _ _ (h.leaf k), h.mbox, h.hbmSame, nofun, h.mboxSame⟩

/-- Bytes written to mailbox entries. -/
theorem Keeps.mbox_ {ka kb : Bool} {s0 z : State} (h : Keeps ka kb false s0 z) (x : Nat) (bs : List Nat) :
    Keeps ka kb false s0 { z with mbox := z.mbox.write x bs } :=
  ⟨h.pending, h.out, h.fresh, h.regs, h.hbm, h.leaf, fun k => Memory.wf_write _ _ _ (h.mbox k), h.hbmSame, h.leafSame, nofun⟩

/-- Free values taken. -/
theorem Keeps.fresh_ {ka kb kc : Bool} {s0 z : State} (h : Keeps ka kb kc s0 z) (n : Nat) :
    Keeps ka kb kc s0 { z with fresh := z.fresh + n } :=
  ⟨h.pending, h.out, Nat.le_trans h.fresh (Nat.le_add_right _ _), h.regs, h.hbm, h.leaf, h.mbox, h.hbmSame, h.leafSame, h.mboxSame⟩

/-- The outcome is a next state that keeps what `Keeps` says. -/
def Out.Keeps (ka kb kc : Bool) (s0 : State) : Out → Prop
  | .next t => Machine.Keeps ka kb kc s0 t
  | .fault _ => False
  | .refused _ => False

/-- Every state that the end of a mailbox command holds keeps what `Keeps` says. -/
def CmdEnd.Keeps (ka kb kc : Bool) (s0 : State) : CmdEnd → Prop
  | .refused _ _ _ => True
  | .reported t _ _ _ => Machine.Keeps ka kb kc s0 t
  | .ok t _ => Machine.Keeps ka kb kc s0 t
  | .later t _ => Machine.Keeps ka kb kc s0 t

/-! ### Ops -/

theorem State.set_keeps {ka kb kc : Bool} {s0 z : State} (f : Fld) (v : Nat) (i j : Nat) (h : Keeps ka kb kc s0 z) : Keeps ka kb kc s0 (State.set z f v i j) :=
  ⟨h.pending, h.out, h.fresh, fun x => SMap.sorted_put _ _ _ _ (h.regs x), h.hbm, h.leaf, h.mbox, h.hbmSame, h.leafSame, h.mboxSame⟩

theorem State.setS_keeps {ka kb kc : Bool} {s0 z : State} (f : Fld) (x : Int) (i : Nat) (j : Nat) (hk : Keeps ka kb kc s0 z) :
    Keeps ka kb kc s0 (State.setS z f x i j) := by
  unfold State.setS
  grind [Keeps.mk_, State.set_keeps]

theorem State.setSat_keeps {ka kb kc : Bool} {s0 z : State} (f : Fld) (v : Nat) (i : Nat) (j : Nat) (hk : Keeps ka kb kc s0 z) :
    Keeps ka kb kc s0 (State.setSat z f v i j) := by
  unfold State.setSat
  grind [Keeps.mk_, State.set_keeps]

theorem State.add_keeps {ka kb kc : Bool} {s0 z : State} (f : Fld) (n : Nat) (i : Nat) (j : Nat) (hk : Keeps ka kb kc s0 z) :
    Keeps ka kb kc s0 (State.add z f n i j) := by
  unfold State.add
  grind [Keeps.mk_, State.set_keeps]

theorem State.addSat_keeps {ka kb kc : Bool} {s0 z : State} (f : Fld) (n : Nat) (i : Nat) (j : Nat) (hk : Keeps ka kb kc s0 z) :
    Keeps ka kb kc s0 (State.addSat z f n i j) := by
  unfold State.addSat
  grind [Keeps.mk_, State.setSat_keeps]

theorem State.sub_keeps {ka kb kc : Bool} {s0 z : State} (f : Fld) (n : Nat) (i : Nat) (j : Nat) (hk : Keeps ka kb kc s0 z) :
    Keeps ka kb kc s0 (State.sub z f n i j) := by
  unfold State.sub
  grind [Keeps.mk_, State.set_keeps]

theorem State.when_keeps {ka kb kc : Bool} {s0 z : State} (c : Bool) (g : State → State) (hk : Keeps ka kb kc s0 z) (hg : ∀ (x0 : State), Keeps ka kb kc s0 x0 → Keeps ka kb kc s0 (g x0)) :
    Keeps ka kb kc s0 (State.when z c g) := by
  unfold State.when
  grind [Keeps.mk_]

theorem State.each_keeps {ka kb kc : Bool} {s0 z : State} {α : Type} (xs : List α) (g : State → α → State) (h : Keeps ka kb kc s0 z)
    (hg : ∀ (b : State) (x : α), Keeps ka kb kc s0 b → Keeps ka kb kc s0 (g b x)) : Keeps ka kb kc s0 (State.each z xs g) := by
  unfold State.each
  induction xs generalizing z with
  | nil => exact h
  | cons x xs ih => exact ih (hg _ _ h)

theorem State.emit_keeps {ka kb kc : Bool} {s0 z : State} (o : Output) (h : Keeps ka kb kc s0 z) : Keeps ka kb kc s0 (State.emit z o) := by
  unfold State.emit
  split
  · exact h
  · exact ⟨h.pending, by obtain ⟨l, hl⟩ := h.out; exact ⟨l ++ [o], by simp [hl]⟩, h.fresh, h.regs, h.hbm, h.leaf, h.mbox,
      h.hbmSame, h.leafSame, h.mboxSame⟩

theorem State.setQueue_keeps {ka kb kc : Bool} {s0 z : State} (q : Nat) (x : Queue) (hk : Keeps ka kb kc s0 z) :
    Keeps ka kb kc s0 (State.setQueue z q x) := by
  unfold State.setQueue
  grind [Keeps.mk_]

theorem State.setEngine_keeps {ka kb kc : Bool} {s0 z : State} (e : Nat) (x : Engine) (hk : Keeps ka kb kc s0 z) :
    Keeps ka kb kc s0 (State.setEngine z e x) := by
  unfold State.setEngine
  grind [Keeps.mk_]

theorem State.setSto_keeps {ka kb kc : Bool} {s0 z : State} (n : Nat) (x : Store) (hk : Keeps ka kb kc s0 z) :
    Keeps ka kb kc s0 (State.setSto z n x) := by
  unfold State.setSto
  grind [Keeps.mk_]

theorem State.setSeal_keeps {ka kb kc : Bool} {s0 z : State} (n : Nat) (x : Seal) (hk : Keeps ka kb kc s0 z) :
    Keeps ka kb kc s0 (State.setSeal z n x) := by
  unfold State.setSeal
  grind [Keeps.mk_]

theorem State.setStation_keeps {ka kb kc : Bool} {s0 z : State} (n : Nat) (x : Station) (hk : Keeps ka kb kc s0 z) :
    Keeps ka kb kc s0 (State.setStation z n x) := by
  unfold State.setStation
  grind [Keeps.mk_]

theorem State.setStream_keeps {ka kb kc : Bool} {s0 z : State} (c : Nat) (x : Stream) (hk : Keeps ka kb kc s0 z) :
    Keeps ka kb kc s0 (State.setStream z c x) := by
  unfold State.setStream
  grind [Keeps.mk_]

theorem State.setMent_keeps {ka kb kc : Bool} {s0 z : State} (e : Nat) (x : MfeEnt) (hk : Keeps ka kb kc s0 z) :
    Keeps ka kb kc s0 (State.setMent z e x) := by
  unfold State.setMent
  grind [Keeps.mk_]

theorem State.takeFresh_keeps {ka kb kc : Bool} {s0 z : State} (h : Keeps ka kb kc s0 z) : Keeps ka kb kc s0 (State.takeFresh z).2 := Keeps.fresh_ h 1

theorem State.syncSum_keeps {ka kb kc : Bool} {s0 z : State} (g : Nat) (hk : Keeps ka kb kc s0 z) :
    Keeps ka kb kc s0 (State.syncSum z g) := by
  unfold State.syncSum
  grind [Keeps.mk_, State.set_keeps]

theorem State.owe_keeps {ka kb kc : Bool} {s0 z : State} (n : Nat) (hk : Keeps ka kb kc s0 z) :
    Keeps ka kb kc s0 (State.owe z n) := by
  unfold State.owe
  grind [Keeps.mk_]

theorem State.raise_keeps {ka kb kc : Bool} {s0 z : State} (n : Nat) (hk : Keeps ka kb kc s0 z) :
    Keeps ka kb kc s0 (State.raise z n) := by
  unfold State.raise
  grind [Keeps.mk_, State.owe_keeps, State.set_keeps, State.syncSum_keeps]

theorem State.countRefused_keeps {ka kb kc : Bool} {s0 z : State} (w : World) (c : Status) (hk : Keeps ka kb kc s0 z) :
    Keeps ka kb kc s0 (State.countRefused z w c) := by
  unfold State.countRefused
  grind [Keeps.mk_, State.add_keeps]

theorem State.refuse_keeps {ka kb kc : Bool} {s0 z : State} (w : World) (c : Status) (last : Option Fld) (i : Nat) (hk : Keeps ka kb kc s0 z) :
    Keeps ka kb kc s0 (State.refuse z w c last i) := by
  unfold State.refuse
  grind [Keeps.mk_, State.countRefused_keeps, State.set_keeps]

theorem State.setDev_keeps {ka kb kc : Bool} {s0 z : State} (d : Nat) (hk : Keeps ka kb kc s0 z) :
    Keeps ka kb kc s0 (State.setDev z d) := by
  unfold State.setDev
  grind [Keeps.mk_, State.raise_keeps, State.set_keeps]

theorem State.syncDev_keeps {ka kb kc : Bool} {s0 z : State}  (hk : Keeps ka kb kc s0 z) :
    Keeps ka kb kc s0 (State.syncDev z) := by
  unfold State.syncDev
  grind [Keeps.mk_, State.setDev_keeps]

theorem State.crossWorld_keeps {ka kb kc : Bool} {s0 z : State} (src : XwSource) (write : Bool) (byteAddr : Nat) (hk : Keeps ka kb kc s0 z) :
    Keeps ka kb kc s0 (State.crossWorld z src write byteAddr) := by
  unfold State.crossWorld
  grind [Keeps.mk_, State.add_keeps, State.raise_keeps, State.set_keeps]

theorem State.writePart_keeps {ka kb kc : Bool} {s0 z : State} (w : World) (p : Part) (i j v : Nat) (hk : Keeps ka kb kc s0 z) :
    Keeps ka kb kc s0 (State.writePart z w p i j v) := by
  unfold State.writePart
  grind [Keeps.mk_, State.set_keeps]

theorem State.foldl_keeps {ka kb kc : Bool} {s0 z : State} {α : Type} (xs : List α) (g : State → α → State) (hk : Keeps ka kb kc s0 z)
    (hg : ∀ (b : State) (x : α), Keeps ka kb kc s0 b → Keeps ka kb kc s0 (g b x)) : Keeps ka kb kc s0 (xs.foldl g z) := State.each_keeps xs g hk hg

theorem State.writeParts_keeps {ka kb kc : Bool} {s0 z : State} (w : World) (r : Reg) (i j v : Nat) (hk : Keeps ka kb kc s0 z) :
    Keeps ka kb kc s0 (State.writeParts z w r i j v) :=
  State.foldl_keeps _ _ hk fun _ _ h => State.writePart_keeps w _ i j v h

theorem State.writeAll_keeps {ka kb kc : Bool} {s0 z : State} (w : World) (r : Reg) (i j v : Nat) (hk : Keeps ka kb kc s0 z) :
    Keeps ka kb kc s0 (State.writeAll z w r i j v) :=
  State.foldl_keeps _ _ hk fun _ _ h => State.writePart_keeps w _ i j v h

theorem State.hostWrite_keeps {ka kb kc : Bool} {s0 z : State} (w : World) (id : RegId) (i j : Nat) (check : Option Status) (last : Option Fld) (li : Nat) (act : Reg → State → State) (hk : Keeps ka kb kc s0 z) (hact : ∀ (x0 : Reg) (x1 : State), Keeps ka kb kc s0 x1 → Keeps ka kb kc s0 (act x0 x1)) :
    Keeps ka kb kc s0 (State.hostWrite z w id i j check last li act) := by
  unfold State.hostWrite
  grind [Keeps.mk_, State.countRefused_keeps, State.crossWorld_keeps, State.refuse_keeps]

theorem State.rowWrite_keeps {ka kb kc : Bool} {s0 z : State} (w : World) (id : RegId) (i j v : Nat) (check : Option Status) (last : Option Fld) (li : Nat) (act : State → State) (hk : Keeps ka kb kc s0 z) (hact : ∀ (x0 : State), Keeps ka kb kc s0 x0 → Keeps ka kb kc s0 (act x0)) :
    Keeps ka kb kc s0 (State.rowWrite z w id i j v check last li act) := by
  unfold State.rowWrite
  grind [Keeps.mk_, State.hostWrite_keeps, State.writeAll_keeps]

theorem State.windowWrite_keeps {ka kb kc : Bool} {s0 z : State} (w : World) (a : Nat) (check : Option Status) (refused act : State → State) (hk : Keeps ka kb kc s0 z) (hrefused : ∀ (x0 : State), Keeps ka kb kc s0 x0 → Keeps ka kb kc s0 (refused x0)) (hact : ∀ (x0 : State), Keeps ka kb kc s0 x0 → Keeps ka kb kc s0 (act x0)) :
    Keeps ka kb kc s0 (State.windowWrite z w a check refused act) := by
  unfold State.windowWrite
  grind (ematch := 40) (gen := 40) (splits := 40) (instances := 20000) [Keeps.mk_, State.countRefused_keeps, State.crossWorld_keeps]

theorem State.hostRead_keeps {ka kb kc : Bool} {s0 z : State} (w : World) (a n v : Nat) (act : State → State) (hk : Keeps ka kb kc s0 z) (hact : ∀ (x0 : State), Keeps ka kb kc s0 x0 → Keeps ka kb kc s0 (act x0)) :
    Keeps ka kb kc s0 (State.hostRead z w a n v act) := by
  unfold State.hostRead
  grind [Keeps.mk_, State.crossWorld_keeps, State.emit_keeps]

/-! ### QueueOps -/

theorem State.syncLow_keeps {ka kb kc : Bool} {s0 z : State}  (hk : Keeps ka kb kc s0 z) :
    Keeps ka kb kc s0 (State.syncLow z) := by
  unfold State.syncLow
  grind [Keeps.mk_, State.raise_keeps, State.set_keeps]

theorem State.setAlloc_keeps {ka kb kc : Bool} {s0 z : State} (q n : Nat) (hk : Keeps ka kb kc s0 z) :
    Keeps ka kb kc s0 (State.setAlloc z q n) := by
  unfold State.setAlloc
  grind [Keeps.mk_, State.set_keeps]

theorem State.arrive_keeps {ka kb kc : Bool} {s0 z : State}  (hk : Keeps ka kb kc s0 z) :
    Keeps ka kb kc s0 (State.arrive z) := by
  unfold State.arrive
  grind [Keeps.mk_, State.add_keeps, State.set_keeps, State.sub_keeps, State.syncLow_keeps]

theorem State.takeSlabs_keeps {ka kb kc : Bool} {s0 z : State} (q n : Nat) (hk : Keeps ka kb kc s0 z) :
    Keeps ka kb kc s0 (State.takeSlabs z q n) := by
  unfold State.takeSlabs
  grind [Keeps.mk_, State.add_keeps, State.setAlloc_keeps, State.sub_keeps, State.syncLow_keeps]

theorem State.releaseSlabs_keeps {ka kb kc : Bool} {s0 z : State} (q n : Nat) (flush : Bool) (hk : Keeps ka kb kc s0 z) :
    Keeps ka kb kc s0 (State.releaseSlabs z q n flush) := by
  unfold State.releaseSlabs
  grind [Keeps.mk_, State.add_keeps, State.setAlloc_keeps, State.syncLow_keeps]

theorem State.putQueue_keeps {ka kb kc : Bool} {s0 z : State} (q : Nat) (x : Queue) (hk : Keeps ka kb kc s0 z) :
    Keeps ka kb kc s0 (State.putQueue z q x) := by
  unfold State.putQueue
  grind [Keeps.mk_, State.setQueue_keeps, State.set_keeps]

theorem State.endWrWait_keeps {ka kb kc : Bool} {s0 z : State} (q : Nat) (hk : Keeps ka kb kc s0 z) :
    Keeps ka kb kc s0 (State.endWrWait z q) := by
  unfold State.endWrWait
  grind [Keeps.mk_, State.setQueue_keeps, State.set_keeps]

theorem State.endRdWait_keeps {ka kb kc : Bool} {s0 z : State} (q : Nat) (hk : Keeps ka kb kc s0 z) :
    Keeps ka kb kc s0 (State.endRdWait z q) := by
  unfold State.endRdWait
  grind [Keeps.mk_, State.setQueue_keeps, State.set_keeps]

theorem State.handOver_keeps {ka kb kc : Bool} {s0 z : State} (q : Nat) (hk : Keeps ka kb kc s0 z) :
    Keeps ka kb kc s0 (State.handOver z q) := by
  unfold State.handOver
  grind [Keeps.mk_, State.endWrWait_keeps, State.setQueue_keeps, State.set_keeps]

theorem State.closeDrawer_keeps {ka kb kc : Bool} {s0 z : State} (q : Nat) (hk : Keeps ka kb kc s0 z) :
    Keeps ka kb kc s0 (State.closeDrawer z q) := by
  unfold State.closeDrawer
  grind [Keeps.mk_, State.handOver_keeps, State.setQueue_keeps]

theorem State.resyncWord_keeps {ka kb kc : Bool} {s0 z : State} (q : Nat) (w : QWord) (hk : Keeps ka kb kc s0 z) :
    Keeps ka kb kc s0 (State.resyncWord z q w) := by
  unfold State.resyncWord
  grind [Keeps.mk_, State.addSat_keeps, State.add_keeps, State.set_keeps]

theorem State.appendWord_keeps {ka kb kc : Bool} {s0 z : State} (q : Nat) (w : QWord) (hk : Keeps ka kb kc s0 z) :
    Keeps ka kb kc s0 (State.appendWord z q w) := by
  unfold State.appendWord
  grind [Keeps.mk_, State.add_keeps, State.closeDrawer_keeps, State.endWrWait_keeps, State.putQueue_keeps, State.set_keeps]

theorem State.appendRing_keeps {ka kb kc : Bool} {s0 z : State} (q : Nat) (w : QWord) (hk : Keeps ka kb kc s0 z) :
    Keeps ka kb kc s0 (State.appendRing z q w) := by
  unfold State.appendRing
  grind [Keeps.mk_, State.add_keeps, State.putQueue_keeps, State.set_keeps]

theorem State.dropDescriptor_keeps {ka kb kc : Bool} {s0 z : State} (q : Nat) (hk : Keeps ka kb kc s0 z) :
    Keeps ka kb kc s0 (State.dropDescriptor z q) := by
  unfold State.dropDescriptor
  grind [Keeps.mk_, State.raise_keeps, State.set_keeps]

theorem State.offerWord_keeps {ka kb kc : Bool} {s0 z : State} (q : Nat) (w : QWord) (hk : Keeps ka kb kc s0 z) :
    Keeps ka kb kc s0 (State.offerWord z q w).2 := by
  unfold State.offerWord
  grind [Keeps.mk_, State.appendRing_keeps, State.appendWord_keeps, State.dropDescriptor_keeps, State.resyncWord_keeps, State.set_keeps, State.takeSlabs_keeps]

theorem State.drainList_keeps {ka kb kc : Bool} {s0 z : State} (q : Nat) (p0 : List QWord) (hk : Keeps ka kb kc s0 z) :
    Keeps ka kb kc s0 (State.drainList z q p0) := by
  induction p0 generalizing z <;> grind [State.drainList, Keeps.mk_, State.offerWord_keeps, State.setQueue_keeps]

theorem State.drain_keeps {ka kb kc : Bool} {s0 z : State} (q : Nat) (hk : Keeps ka kb kc s0 z) :
    Keeps ka kb kc s0 (State.drain z q) := by
  unfold State.drain
  grind [Keeps.mk_, State.drainList_keeps]

theorem State.drainSlab_keeps {ka kb kc : Bool} {s0 z : State} (q : Nat) (used : Bool) (p0 : List QWord) (hk : Keeps ka kb kc s0 z) :
    Keeps ka kb kc s0 (State.drainSlab z q used p0) := by
  induction p0 generalizing z used with
  | nil => exact State.setQueue_keeps _ _ hk
  | cons w ws ih =>
    unfold State.drainSlab
    have h1 := State.offerWord_keeps q w hk
    split
    · exact State.set_keeps _ _ _ _ (State.setQueue_keeps _ _ hk)
    · split <;> rename_i h <;> rw [h] at h1
      · exact ih _ h1
      · exact State.setQueue_keeps _ _ h1

theorem State.presentWords_keeps {ka kb kc : Bool} {s0 z : State} (q : Nat) (ws : List QWord) (hk : Keeps ka kb kc s0 z) :
    Keeps ka kb kc s0 (State.presentWords z q ws) := by
  unfold State.presentWords
  grind [Keeps.mk_, State.drainList_keeps]

theorem State.presentItem_keeps {ka kb kc : Bool} {s0 z : State} (q : Nat) (ds : List Nat) (hk : Keeps ka kb kc s0 z) :
    Keeps ka kb kc s0 (State.presentItem z q ds) := by
  unfold State.presentItem
  grind [Keeps.mk_, State.presentWords_keeps]

theorem State.releaseDrawer_keeps {ka kb kc : Bool} {s0 z : State} (q : Nat) (hk : Keeps ka kb kc s0 z) :
    Keeps ka kb kc s0 (State.releaseDrawer z q) := by
  unfold State.releaseDrawer
  grind [Keeps.mk_, State.drain_keeps, State.handOver_keeps, State.putQueue_keeps, State.releaseSlabs_keeps]

theorem State.popWord_keeps {ka kb kc : Bool} {s0 z t : State} {w : QWord} (q : Nat) (hk : Keeps ka kb kc s0 z) (hp : State.popWord z q = some (w, t)) :
    Keeps ka kb kc s0 t := by
  unfold State.popWord at hp
  grind [State.putQueue_keeps, State.releaseDrawer_keeps]

theorem State.skipResync_keeps {ka kb kc : Bool} {s0 z : State} (q : Nat) (p0 : Nat) (hk : Keeps ka kb kc s0 z) : Keeps ka kb kc s0 (State.skipResync z q p0) := by
  induction p0 generalizing z with
  | zero => exact hk
  | succ n ih =>
    unfold State.skipResync
    split
    · split
      · exact hk
      · next w s1 h =>
        have h1 := State.popWord_keeps q hk h
        apply ih
        have h2 := State.addSat_keeps R.QMX_Q_CMD_DROP_WORDS 1 q 0 h1
        split
        · exact State.set_keeps _ _ _ _ (State.add_keeps _ _ _ _ h2)
        · exact h2
    · exact hk

theorem State.queueEvent_keeps {ka kb kc : Bool} {s0 z : State} (q kind ev : Nat) (hk : Keeps ka kb kc s0 z) :
    Keeps ka kb kc s0 (State.queueEvent z q kind ev) := by
  unfold State.queueEvent
  grind [Keeps.mk_, State.raise_keeps, State.set_keeps]

theorem State.deliver_keeps {ka kb kc : Bool} {s0 z : State} (q : Nat) (w : DWord) (hk : Keeps ka kb kc s0 z) :
    Keeps ka kb kc s0 (State.deliver z q w) := by
  unfold State.deliver
  grind [Keeps.mk_, State.endRdWait_keeps, State.setQueue_keeps, State.set_keeps]

theorem State.readWord_keeps {ka kb kc : Bool} {s0 z : State} (q : Nat) (ecc : Ecc) (hk : Keeps ka kb kc s0 z) : Keeps ka kb kc s0 (State.readWord z q ecc) := by
  unfold State.readWord
  have h0 := State.skipResync_keeps q ((z.queue q).words + 1) hk
  dsimp only
  generalize State.skipResync z q ((z.queue q).words + 1) = y at h0 ⊢
  split
  · grind [State.addSat_keeps, State.deliver_keeps, State.setQueue_keeps]
  · split
    · exact State.set_keeps _ _ _ _ h0
    · next w s1 h =>
      have h1 : Keeps ka kb kc s0 s1 := by
        split at h
        · cases h
        · exact State.popWord_keeps q h0 h
      split <;> grind [State.addSat_keeps, State.add_keeps, State.deliver_keeps, State.set_keeps, State.queueEvent_keeps]

theorem State.putSide_keeps {ka kb kc : Bool} {s0 z : State} (q : Nat) (second : Bool) (y : RingSide) (hk : Keeps ka kb kc s0 z) :
    Keeps ka kb kc s0 (State.putSide z q second y) := by
  unfold State.putSide
  grind [Keeps.mk_, State.setQueue_keeps, State.set_keeps]

theorem State.trimRing_keeps {ka kb kc : Bool} {s0 z : State} (q : Nat) (hk : Keeps ka kb kc s0 z) :
    Keeps ka kb kc s0 (State.trimRing z q) := by
  unfold State.trimRing
  grind [Keeps.mk_, State.putQueue_keeps]

theorem State.dropRing_keeps {ka kb kc : Bool} {s0 z : State} (q : Nat) (second : Bool) (w : QWord) (hk : Keeps ka kb kc s0 z) :
    Keeps ka kb kc s0 (State.dropRing z q second w) := by
  unfold State.dropRing
  grind [Keeps.mk_, State.addSat_keeps, State.add_keeps, State.putSide_keeps]

theorem State.deliverRing_keeps {ka kb kc : Bool} {s0 z : State} (q : Nat) (second : Bool) (ecc : Ecc) (w : QWord) (hk : Keeps ka kb kc s0 z) :
    Keeps ka kb kc s0 (State.deliverRing z q second ecc w) := by
  unfold State.deliverRing
  grind [Keeps.mk_, State.addSat_keeps, State.add_keeps, State.putSide_keeps, State.queueEvent_keeps]

theorem State.skipRing_keeps {ka kb kc : Bool} {s0 z : State} (q : Nat) (second : Bool) (p0 : Nat) (hk : Keeps ka kb kc s0 z) :
    Keeps ka kb kc s0 (State.skipRing z q second p0) := by
  induction p0 generalizing z <;> grind [State.skipRing, Keeps.mk_, State.drain_keeps, State.dropRing_keeps, State.trimRing_keeps]

theorem State.ringStep_keeps {ka kb kc : Bool} {s0 z : State} (q : Nat) (second : Bool) (ecc : Ecc) (hk : Keeps ka kb kc s0 z) :
    Keeps ka kb kc s0 (State.ringStep z q second ecc).2 := by
  unfold State.ringStep
  grind [Keeps.mk_, State.addSat_keeps, State.deliverRing_keeps, State.drain_keeps, State.putSide_keeps, State.skipRing_keeps, State.trimRing_keeps]

theorem State.readRing_keeps {ka kb kc : Bool} {s0 z : State} (q : Nat) (second : Bool) (ecc : Ecc) (hk : Keeps ka kb kc s0 z) :
    Keeps ka kb kc s0 (State.readRing z q second ecc) := by
  unfold State.readRing
  grind (ematch := 40) (gen := 40) (splits := 40) (instances := 20000) [Keeps.mk_, State.ringStep_keeps]

theorem State.pull_keeps {ka kb kc : Bool} {s0 z : State} (q : Nat) (p0 : Nat) (hk : Keeps ka kb kc s0 z) :
    Keeps ka kb kc s0 (State.pull z q p0) := by
  induction p0 generalizing z <;> grind [State.pull, Keeps.mk_, State.readWord_keeps]

theorem State.takeItem_keeps {ka kb kc : Bool} {s0 z : State} (q : Nat) (hk : Keeps ka kb kc s0 z) :
    Keeps ka kb kc s0 (State.takeItem z q).2 := by
  unfold State.takeItem
  grind [Keeps.mk_, State.pull_keeps, State.setQueue_keeps]

theorem State.pullRing_keeps {ka kb kc : Bool} {s0 z : State} (q : Nat) (second : Bool) (p0 : Nat) (hk : Keeps ka kb kc s0 z) :
    Keeps ka kb kc s0 (State.pullRing z q second p0) := by
  induction p0 generalizing z <;> grind [State.pullRing, Keeps.mk_, State.ringStep_keeps]

theorem State.takeDescriptor_keeps {ka kb kc : Bool} {s0 z : State} (q : Nat) (second : Bool) (hk : Keeps ka kb kc s0 z) :
    Keeps ka kb kc s0 (State.takeDescriptor z q second).2 := by
  unfold State.takeDescriptor
  grind [Keeps.mk_, State.pullRing_keeps, State.putSide_keeps]

theorem State.enableQueue_keeps {ka kb kc : Bool} {s0 z : State} (q : Nat) (hk : Keeps ka kb kc s0 z) :
    Keeps ka kb kc s0 (State.enableQueue z q) := by
  unfold State.enableQueue
  grind [Keeps.mk_, State.add_keeps, State.drain_keeps, State.set_keeps, State.syncLow_keeps, State.takeSlabs_keeps]

theorem State.grantGroup_keeps {ka kb kc : Bool} {s0 z : State} (record : Bool) (p0 : Nat) (hk : Keeps ka kb kc s0 z) :
    Keeps ka kb kc s0 (State.grantGroup z record p0) := by
  induction p0 generalizing z <;> grind [State.grantGroup, Keeps.mk_, State.drainSlab_keeps]

theorem State.grant_keeps {ka kb kc : Bool} {s0 z : State}  (hk : Keeps ka kb kc s0 z) :
    Keeps ka kb kc s0 (State.grant z) := by
  unfold State.grant
  grind [Keeps.mk_, State.grantGroup_keeps]

theorem State.disableQueue_keeps {ka kb kc : Bool} {s0 z : State} (q : Nat) (hk : Keeps ka kb kc s0 z) :
    Keeps ka kb kc s0 (State.disableQueue z q) := by
  unfold State.disableQueue
  grind [Keeps.mk_, State.endRdWait_keeps, State.grant_keeps, State.releaseSlabs_keeps, State.set_keeps, State.sub_keeps, State.syncLow_keeps]

theorem State.flushQueue_keeps {ka kb kc : Bool} {s0 z : State} (q : Nat) (hk : Keeps ka kb kc s0 z) :
    Keeps ka kb kc s0 (State.flushQueue z q) := by
  unfold State.flushQueue
  grind (ematch := 40) (gen := 40) (splits := 40) (instances := 20000) [Keeps.mk_, State.addSat_keeps, State.add_keeps, State.drain_keeps, State.endWrWait_keeps, State.putQueue_keeps, State.releaseSlabs_keeps, State.set_keeps]

theorem State.flushOpen_keeps {ka kb kc : Bool} {s0 z : State} (q : Nat) (hk : Keeps ka kb kc s0 z) :
    Keeps ka kb kc s0 (State.flushOpen z q) := by
  unfold State.flushOpen
  grind [Keeps.mk_, State.flushQueue_keeps, State.setQueue_keeps]

theorem State.freshWriter_keeps {ka kb kc : Bool} {s0 z : State} (q : Nat) (hk : Keeps ka kb kc s0 z) :
    Keeps ka kb kc s0 (State.freshWriter z q) := by
  unfold State.freshWriter
  grind [Keeps.mk_, State.set_keeps]

theorem State.transitArrive_keeps {ka kb kc : Bool} {s0 z : State}  (hk : Keeps ka kb kc s0 z) :
    Keeps ka kb kc s0 (State.transitArrive z) := by
  unfold State.transitArrive
  grind (ematch := 40) (gen := 40) (splits := 40) (instances := 20000) [Keeps.mk_, State.arrive_keeps, State.drain_keeps, State.grant_keeps]

theorem State.configQueue_keeps {ka kb kc : Bool} {s0 z : State} (q cls mx closeEnd idle stall res station : Nat) (hk : Keeps ka kb kc s0 z) :
    Keeps ka kb kc s0 (State.configQueue z q cls mx closeEnd idle stall res station) := by
  unfold State.configQueue
  grind (ematch := 40) (gen := 40) (splits := 40) (instances := 20000) [Keeps.mk_, State.set_keeps]

theorem State.configFixed_keeps {ka kb kc : Bool} {s0 z : State} (q station : Nat) (hk : Keeps ka kb kc s0 z) :
    Keeps ka kb kc s0 (State.configFixed z q station) := by
  unfold State.configFixed
  grind [Keeps.mk_, State.configQueue_keeps]

theorem State.auditSlabs_keeps {ka kb kc : Bool} {s0 z : State}  (hk : Keeps ka kb kc s0 z) :
    Keeps ka kb kc s0 (State.auditSlabs z).2 := by
  unfold State.auditSlabs
  grind [Keeps.mk_, State.raise_keeps, State.setS_keeps, State.set_keeps]

/-! ### LineOps -/

theorem State.setEnc_keeps {ka kb kc : Bool} {s0 z : State} (e : Nat) (x : Enc) (hk : Keeps ka kb kc s0 z) :
    Keeps ka kb kc s0 (State.setEnc z e x) := by
  unfold State.setEnc
  grind [Keeps.mk_]

theorem State.setLst_keeps {ka kb kc : Bool} {s0 z : State} (n : Nat) (x : LSt) (hk : Keeps ka kb kc s0 z) :
    Keeps ka kb kc s0 (State.setLst z n x) := by
  unfold State.setLst
  grind [Keeps.mk_]

theorem State.setPos16_keeps {ka kb kc : Bool} {s0 z : State} (c p : Fld) (i : Nat) (x : Int) (hk : Keeps ka kb kc s0 z) :
    Keeps ka kb kc s0 (State.setPos16 z c p i x) := by
  unfold State.setPos16
  grind [Keeps.mk_, State.set_keeps]

theorem State.steer_keeps {ka kb kc : Bool} {s0 z : State} (p : Int) (hk : Keeps ka kb kc s0 z) :
    Keeps ka kb kc s0 (State.steer z p) := by
  unfold State.steer
  grind [Keeps.mk_]

theorem State.syncSteer_keeps {ka kb kc : Bool} {s0 z : State}  (hk : Keeps ka kb kc s0 z) :
    Keeps ka kb kc s0 (State.syncSteer z) := by
  unfold State.syncSteer
  grind [Keeps.mk_, State.steer_keeps]

/-! ### RecordOps -/

theorem State.count_keeps {ka kb kc : Bool} {s0 z : State} (n band i by_ : Nat) (hk : Keeps ka kb kc s0 z) :
    Keeps ka kb kc s0 (State.count z n band i by_) := by
  unfold State.count
  grind [Keeps.mk_, State.setSeal_keeps, State.set_keeps]

theorem State.sstRecord_keeps {ka kb kc : Bool} {s0 z : State} (n rtype wpi : Nat) (body : List Nat) (hk : Keeps ka kb kc s0 z) :
    Keeps ka kb kc s0 (State.sstRecord z n rtype wpi body) := by
  unfold State.sstRecord
  grind [Keeps.mk_, State.presentItem_keeps, State.setSto_keeps]

theorem State.sstGap_keeps {ka kb kc : Bool} {s0 z : State} (n kind product queue first last : Nat) (hk : Keeps ka kb kc s0 z) :
    Keeps ka kb kc s0 (State.sstGap z n kind product queue first last) := by
  unfold State.sstGap
  grind [Keeps.mk_, State.sstRecord_keeps]

theorem State.sstSeam_keeps {ka kb kc : Bool} {s0 z : State} (n wpi r m result lines rho restarts : Nat) (hk : Keeps ka kb kc s0 z) :
    Keeps ka kb kc s0 (State.sstSeam z n wpi r m result lines rho restarts) := by
  unfold State.sstSeam
  grind (ematch := 40) (gen := 40) (splits := 40) (instances := 20000) [Keeps.mk_, State.sstRecord_keeps]

theorem State.countRecords_keeps {ka kb kc : Bool} {s0 z : State} (n band : Nat) (hk : Keeps ka kb kc s0 z) :
    Keeps ka kb kc s0 (State.countRecords z n band) := by
  unfold State.countRecords
  grind [Keeps.mk_, State.count_keeps, State.each_keeps]

/-! ### PaceOps -/

theorem State.admission_keeps {ka kb kc : Bool} {s0 z : State} (active : Nat → Bool) (rate : Nat → Nat) (eng : List (Nat × Nat × Nat))
    (t2 : Option Nat) (hk : Keeps ka kb kc s0 z) : Keeps ka kb kc s0 (State.admission z active rate eng t2).2 := by
  unfold State.admission
  have h1 : ∀ v x, Keeps ka kb kc s0 ((z.setSat R.SCU_ADM_CAP_CAP v).set R.SCU_ADM_CAP_VADM x) := fun v x =>
    State.set_keeps _ _ _ _ (State.setSat_keeps _ _ _ _ hk)
  dsimp only
  split
  · exact State.setSat_keeps _ _ _ _ (State.set_keeps _ _ _ _ (State.set_keeps _ _ _ _ (State.set_keeps _ _ _ _ (h1 _ _))))
  · exact State.add_keeps _ _ _ _ (State.set_keeps _ _ _ _ (State.set_keeps _ _ _ _ (State.set_keeps _ _ _ _ (h1 _ _))))

theorem State.pmbus_keeps {ka kb kc : Bool} {s0 z : State} (code data : Nat) (hk : Keeps ka kb kc s0 z) :
    Keeps ka kb kc s0 (State.pmbus z code data) := by
  unfold State.pmbus
  grind [Keeps.mk_, State.emit_keeps]

theorem State.writeVset_keeps {ka kb kc : Bool} {s0 z : State} (mv : Nat) (hk : Keeps ka kb kc s0 z) :
    Keeps ka kb kc s0 (State.writeVset z mv) := by
  unfold State.writeVset
  grind [Keeps.mk_, State.pmbus_keeps, State.set_keeps]

/-! ### EngineOps -/

theorem State.syncEngines_keeps {ka kb kc : Bool} {s0 z : State}  (hk : Keeps ka kb kc s0 z) :
    Keeps ka kb kc s0 (State.syncEngines z) := by
  unfold State.syncEngines
  grind [Keeps.mk_, State.set_keeps]

theorem State.setEngState_keeps {ka kb kc : Bool} {s0 z : State} (e st : Nat) (hk : Keeps ka kb kc s0 z) :
    Keeps ka kb kc s0 (State.setEngState z e st) := by
  unfold State.setEngState
  grind [Keeps.mk_, State.set_keeps, State.syncEngines_keeps]

theorem State.syncTokens_keeps {ka kb kc : Bool} {s0 z : State} (e : Nat) (hk : Keeps ka kb kc s0 z) :
    Keeps ka kb kc s0 (State.syncTokens z e) := by
  unfold State.syncTokens
  grind [Keeps.mk_, State.set_keeps]

theorem State.skipBands_keeps {ka kb kc : Bool} {s0 z : State} (e n : Nat) (hk : Keeps ka kb kc s0 z) :
    Keeps ka kb kc s0 (State.skipBands z e n) := by
  unfold State.skipBands
  grind [Keeps.mk_, State.add_keeps]

theorem State.issueToken_keeps {ka kb kc : Bool} {s0 z : State} (e b : Nat) (degraded : Bool) (hk : Keeps ka kb kc s0 z) :
    Keeps ka kb kc s0 (State.issueToken z e b degraded) := by
  unfold State.issueToken
  grind [Keeps.mk_, State.add_keeps, State.setEngine_keeps, State.set_keeps, State.syncTokens_keeps]

theorem State.retire_keeps {ka kb kc : Bool} {s0 z : State} (e : Nat) (p0 : Nat) (hk : Keeps ka kb kc s0 z) :
    Keeps ka kb kc s0 (State.retire z e p0) := by
  induction p0 generalizing z <;> grind [State.retire, Keeps.mk_, State.add_keeps, State.setEngine_keeps, State.syncTokens_keeps]

theorem State.passMark_keeps {ka kb kc : Bool} {s0 z : State} (e i : Nat) (hk : Keeps ka kb kc s0 z) :
    Keeps ka kb kc s0 (State.passMark z e i) := by
  unfold State.passMark
  grind [Keeps.mk_, State.retire_keeps, State.setEngine_keeps]

theorem State.resetEngine_keeps {ka kb kc : Bool} {s0 z : State} (e : Nat) (hk : Keeps ka kb kc s0 z) :
    Keeps ka kb kc s0 (State.resetEngine z e) := by
  unfold State.resetEngine
  grind (ematch := 40) (gen := 40) (splits := 40) (instances := 20000) [Keeps.mk_, State.setEngine_keeps, State.set_keeps]

theorem State.reloadStore_keeps {ka kb kc : Bool} {s0 z : State} (e : Nat) (hk : Keeps ka kb kc s0 z) :
    Keeps ka kb kc s0 (State.reloadStore z e) := by
  unfold State.reloadStore
  grind [Keeps.mk_, State.setEngine_keeps]

theorem State.loadEngine_keeps {ka kb kc : Bool} {s0 z : State} (e : Nat) (hk : Keeps ka kb kc s0 z) :
    Keeps ka kb kc s0 (State.loadEngine z e) := by
  unfold State.loadEngine
  grind [Keeps.mk_, State.reloadStore_keeps, State.resetEngine_keeps, State.setEngState_keeps]

theorem State.retireVoid_keeps {ka kb kc : Bool} {s0 z : State} (e : Nat) (hk : Keeps ka kb kc s0 z) :
    Keeps ka kb kc s0 (State.retireVoid z e) := by
  unfold State.retireVoid
  grind (ematch := 40) (gen := 40) (splits := 40) (instances := 20000) [Keeps.mk_, State.addSat_keeps, State.add_keeps, State.count_keeps, State.each_keeps, State.presentItem_keeps, State.setEngine_keeps, State.syncTokens_keeps]

theorem State.retireVoids_keeps {ka kb kc : Bool} {s0 z : State} (e : Nat) (p0 : Nat) (hk : Keeps ka kb kc s0 z) :
    Keeps ka kb kc s0 (State.retireVoids z e p0) := by
  induction p0 generalizing z <;> grind [State.retireVoids, Keeps.mk_, State.retireVoid_keeps]

theorem State.flushOutputs_keeps {ka kb kc : Bool} {s0 z : State} (e : Nat) (hk : Keeps ka kb kc s0 z) :
    Keeps ka kb kc s0 (State.flushOutputs z e) := by
  unfold State.flushOutputs
  grind [Keeps.mk_, State.each_keeps, State.flushOpen_keeps, State.freshWriter_keeps]

theorem State.faultEngine_keeps {ka kb kc : Bool} {s0 z : State} (e kind cell : Nat) (hk : Keeps ka kb kc s0 z) :
    Keeps ka kb kc s0 (State.faultEngine z e kind cell) := by
  unfold State.faultEngine
  grind (ematch := 40) (gen := 40) (splits := 40) (instances := 20000) [Keeps.mk_, State.flushOutputs_keeps, State.raise_keeps, State.retireVoids_keeps, State.setEngState_keeps, State.setEngine_keeps, State.set_keeps]

theorem State.setSeq_keeps {ka kb kc : Bool} {s0 z : State} (e st : Nat) (hk : Keeps ka kb kc s0 z) :
    Keeps ka kb kc s0 (State.setSeq z e st) := by
  unfold State.setSeq
  grind [Keeps.mk_, State.set_keeps]

theorem State.setPc_keeps {ka kb kc : Bool} {s0 z : State} (e pc : Nat) (hk : Keeps ka kb kc s0 z) :
    Keeps ka kb kc s0 (State.setPc z e pc) := by
  unfold State.setPc
  grind [Keeps.mk_, State.set_keeps]

theorem State.setWait_keeps {ka kb kc : Bool} {s0 z : State} (e : Nat) (w : SeqWait) (hk : Keeps ka kb kc s0 z) :
    Keeps ka kb kc s0 (State.setWait z e w) := by
  unfold State.setWait
  grind [Keeps.mk_, State.setEngine_keeps, State.setSeq_keeps]

theorem State.seqEvent_keeps {ka kb kc : Bool} {s0 z : State} (e code : Nat) (hk : Keeps ka kb kc s0 z) :
    Keeps ka kb kc s0 (State.seqEvent z e code) := by
  unfold State.seqEvent
  grind [Keeps.mk_, State.add_keeps, State.raise_keeps, State.set_keeps]

theorem State.seqRun_keeps {ka kb kc : Bool} {s0 z : State} (e : Nat) (p0 : Nat) (hk : Keeps ka kb kc s0 z) :
    Keeps ka kb kc s0 (State.seqRun z e p0) := by
  induction p0 generalizing z <;> grind [State.seqRun, Keeps.mk_, State.faultEngine_keeps, State.seqEvent_keeps, State.setEngine_keeps, State.setPc_keeps, State.setSeq_keeps, State.setWait_keeps, State.set_keeps]

theorem State.seqGo_keeps {ka kb kc : Bool} {s0 z : State} (e : Nat) (hk : Keeps ka kb kc s0 z) :
    Keeps ka kb kc s0 (State.seqGo z e) := by
  unfold State.seqGo
  grind [Keeps.mk_, State.seqRun_keeps, State.setEngine_keeps]

theorem State.seqStep_keeps {ka kb kc : Bool} {s0 z : State} (e : Nat) (c : SeqCause) (hk : Keeps ka kb kc s0 z) :
    Keeps ka kb kc s0 (State.seqStep z e c) := by
  unfold State.seqStep
  grind [Keeps.mk_, State.seqGo_keeps, State.setEngine_keeps]

theorem State.runEngine_keeps {ka kb kc : Bool} {s0 z : State} (e : Nat) (hk : Keeps ka kb kc s0 z) :
    Keeps ka kb kc s0 (State.runEngine z e) := by
  unfold State.runEngine
  grind [Keeps.mk_, State.reloadStore_keeps, State.resetEngine_keeps, State.seqStep_keeps, State.setEngState_keeps, State.setEngine_keeps, State.set_keeps]

theorem State.armEngine_keeps {ka kb kc : Bool} {s0 z : State} (e : Nat) (hk : Keeps ka kb kc s0 z) :
    Keeps ka kb kc s0 (State.armEngine z e) := by
  unfold State.armEngine
  grind [Keeps.mk_, State.resetEngine_keeps, State.runEngine_keeps, State.set_keeps]

theorem State.auditTokens_keeps {ka kb kc : Bool} {s0 z : State}  (hk : Keeps ka kb kc s0 z) :
    Keeps ka kb kc s0 (State.auditTokens z).2 := by
  unfold State.auditTokens
  grind (ematch := 40) (gen := 40) (splits := 40) (instances := 20000) [Keeps.mk_, State.raise_keeps, State.set_keeps]

/-! ### MotionOps -/

theorem State.setAxis_keeps {ka kb kc : Bool} {s0 z : State} (a : Nat) (x : Axis) (hk : Keeps ka kb kc s0 z) :
    Keeps ka kb kc s0 (State.setAxis z a x) := by
  unfold State.setAxis
  grind [Keeps.mk_]

theorem State.syncPaced_keeps {ka kb kc : Bool} {s0 z : State}  (hk : Keeps ka kb kc s0 z) :
    Keeps ka kb kc s0 (State.syncPaced z) := by
  unfold State.syncPaced
  grind [Keeps.mk_, State.each_keeps, State.set_keeps]

theorem State.aim_keeps {ka kb kc : Bool} {s0 z : State} (a : Nat) (g : Goal) (hk : Keeps ka kb kc s0 z) :
    Keeps ka kb kc s0 (State.aim z a g) := by
  unfold State.aim
  grind [Keeps.mk_, State.setAxis_keeps, State.set_keeps]

theorem State.axisStop_keeps {ka kb kc : Bool} {s0 z : State} (a : Nat) (hk : Keeps ka kb kc s0 z) :
    Keeps ka kb kc s0 (State.axisStop z a) := by
  unfold State.axisStop
  grind [Keeps.mk_, State.aim_keeps]

theorem State.axisScale_keeps {ka kb kc : Bool} {s0 z : State} (n a sc : Nat) (hk : Keeps ka kb kc s0 z) :
    Keeps ka kb kc s0 (State.axisScale z n a sc) := by
  unfold State.axisScale
  grind [Keeps.mk_, State.aim_keeps, State.emit_keeps, State.setAxis_keeps, State.set_keeps]

theorem State.backUp_keeps {ka kb kc : Bool} {s0 z : State} (a : Nat) (ct p : Int) (tries : Nat) (hk : Keeps ka kb kc s0 z) :
    Keeps ka kb kc s0 (State.backUp z a ct p tries) := by
  unfold State.backUp
  grind [Keeps.mk_, State.aim_keeps, State.setAxis_keeps]

theorem State.holdCoil_keeps {ka kb kc : Bool} {s0 z : State} (a mode : Nat) (hk : Keeps ka kb kc s0 z) :
    Keeps ka kb kc s0 (State.holdCoil z a mode) := by
  unfold State.holdCoil
  grind [Keeps.mk_, State.setAxis_keeps, State.set_keeps]

theorem State.stopLin_keeps {ka kb kc : Bool} {s0 z : State} (a : Nat) (hk : Keeps ka kb kc s0 z) :
    Keeps ka kb kc s0 (State.stopLin z a) := by
  unfold State.stopLin
  grind [Keeps.mk_, State.axisStop_keeps, State.each_keeps, State.setAxis_keeps]

theorem State.axisFault_keeps {ka kb kc : Bool} {s0 z : State} (a kind : Nat) (hk : Keeps ka kb kc s0 z) :
    Keeps ka kb kc s0 (State.axisFault z a kind) := by
  unfold State.axisFault
  grind (ematch := 40) (gen := 40) (splits := 40) (instances := 20000) [Keeps.mk_, State.holdCoil_keeps, State.raise_keeps, State.setAxis_keeps, State.set_keeps, State.stopLin_keeps]

/-! ### SlotOps -/

theorem State.setPhead_keeps {ka kb kc : Bool} {s0 z : State} (p : Nat) (x : PHead) (hk : Keeps ka kb kc s0 z) :
    Keeps ka kb kc s0 (State.setPhead z p x) := by
  unfold State.setPhead
  grind [Keeps.mk_]

theorem State.setPst_keeps {ka kb kc : Bool} {s0 z : State} (n : Nat) (x : PSt) (hk : Keeps ka kb kc s0 z) :
    Keeps ka kb kc s0 (State.setPst z n x) := by
  unfold State.setPst
  grind [Keeps.mk_]

theorem State.setProd_keeps {ka kb kc : Bool} {s0 z : State} (q : Nat) (x : Prod) (hk : Keeps ka kb kc s0 z) :
    Keeps ka kb kc s0 (State.setProd z q x) := by
  unfold State.setProd
  grind [Keeps.mk_]

theorem State.syncSlot_keeps {ka kb kc : Bool} {s0 z : State} (l : Nat) (hk : Keeps ka kb kc s0 z) :
    Keeps ka kb kc s0 (State.syncSlot z l) := by
  unfold State.syncSlot
  grind [Keeps.mk_, State.set_keeps]

theorem State.syncSlots_keeps {ka kb kc : Bool} {s0 z : State} (ls : List Nat) (hk : Keeps ka kb kc s0 z) :
    Keeps ka kb kc s0 (State.syncSlots z ls) := by
  unfold State.syncSlots
  grind [Keeps.mk_, State.each_keeps, State.syncSlot_keeps]

theorem State.endCapture_keeps {ka kb kc : Bool} {s0 z : State} (c : Status) (hk : Keeps ka kb kc s0 z) :
    Keeps ka kb kc s0 (State.endCapture z c) := by
  unfold State.endCapture
  grind [Keeps.mk_, State.set_keeps, State.syncSlots_keeps]

theorem State.endCaptureOf_keeps {ka kb kc : Bool} {s0 z : State} (n : Nat) (hk : Keeps ka kb kc s0 z) :
    Keeps ka kb kc s0 (State.endCaptureOf z n) := by
  unfold State.endCaptureOf
  grind [Keeps.mk_, State.endCapture_keeps]

/-! ### StoreOps -/

theorem State.writeSlot_keeps {kb kc : Bool} {s0 z : State} (n home wpi flags : Nat) (samples : List Nat) (hk : Keeps false kb kc s0 z) :
    Keeps false kb kc s0 (State.writeSlot z n home wpi flags samples) := Keeps.hbm_ hk _ _

theorem State.syncPages_keeps {ka kb kc : Bool} {s0 z : State}  (hk : Keeps ka kb kc s0 z) :
    Keeps ka kb kc s0 (State.syncPages z) := by
  unfold State.syncPages
  grind [Keeps.mk_, State.set_keeps]

theorem State.auditPages_keeps {ka kb kc : Bool} {s0 z : State}  (hk : Keeps ka kb kc s0 z) :
    Keeps ka kb kc s0 (State.auditPages z).2 := by
  unfold State.auditPages
  grind [Keeps.mk_, State.raise_keeps, State.setS_keeps, State.set_keeps]

theorem State.setGrp_keeps {ka kb kc : Bool} {s0 z : State} (g : Nat) (x : Grp) (hk : Keeps ka kb kc s0 z) :
    Keeps ka kb kc s0 (State.setGrp z g x) := by
  unfold State.setGrp
  grind [Keeps.mk_]

theorem State.setChan_keeps {ka kb kc : Bool} {s0 z : State} (c : Nat) (x : Chan) (hk : Keeps ka kb kc s0 z) :
    Keeps ka kb kc s0 (State.setChan z c x) := by
  unfold State.setChan
  grind [Keeps.mk_]

theorem State.syncBank_keeps {ka kb kc : Bool} {s0 z : State} (g : Nat) (hk : Keeps ka kb kc s0 z) :
    Keeps ka kb kc s0 (State.syncBank z g) := by
  unfold State.syncBank
  grind [Keeps.mk_, State.set_keeps]

theorem State.syncBanks_keeps {ka kb kc : Bool} {s0 z : State} (n : Nat) (hk : Keeps ka kb kc s0 z) :
    Keeps ka kb kc s0 (State.syncBanks z n) := by
  unfold State.syncBanks
  grind [Keeps.mk_, State.each_keeps, State.syncBank_keeps]

theorem State.syncStore_keeps {ka kb kc : Bool} {s0 z : State} (n : Nat) (hk : Keeps ka kb kc s0 z) :
    Keeps ka kb kc s0 (State.syncStore z n) := by
  unfold State.syncStore
  grind [Keeps.mk_, State.setSat_keeps, State.set_keeps, State.syncBanks_keeps, State.syncPages_keeps]

theorem State.sendScale_keeps {ka kb kc : Bool} {s0 z : State} (n : Nat) (hk : Keeps ka kb kc s0 z) :
    Keeps ka kb kc s0 (State.sendScale z n) := by
  unfold State.sendScale
  grind [Keeps.mk_, State.axisScale_keeps, State.setSto_keeps]

theorem State.enterSt_keeps {ka kb kc : Bool} {s0 z : State} (n st : Nat) (hk : Keeps ka kb kc s0 z) :
    Keeps ka kb kc s0 (State.enterSt z n st) := by
  unfold State.enterSt
  grind [Keeps.mk_, State.endCaptureOf_keeps, State.raise_keeps, State.sendScale_keeps, State.set_keeps, State.syncDev_keeps, State.syncPaced_keeps, State.syncStore_keeps]

theorem State.noteStop_keeps {ka kb kc : Bool} {s0 z : State} (n : Nat) (t : Int) (hk : Keeps ka kb kc s0 z) :
    Keeps ka kb kc s0 (State.noteStop z n t) := by
  unfold State.noteStop
  grind [Keeps.mk_, State.setSeal_keeps]

theorem State.endStop_keeps {ka kb kc : Bool} {s0 z : State} (n : Nat) (t : Int) (hk : Keeps ka kb kc s0 z) :
    Keeps ka kb kc s0 (State.endStop z n t) := by
  unfold State.endStop
  grind [Keeps.mk_, State.setSeal_keeps]

theorem State.stopStation_keeps {ka kb kc : Bool} {s0 z : State} (n : Nat) (t : Int) (hk : Keeps ka kb kc s0 z) :
    Keeps ka kb kc s0 (State.stopStation z n t) := by
  unfold State.stopStation
  grind (ematch := 40) (gen := 40) (splits := 40) (instances := 20000) [Keeps.mk_, State.axisScale_keeps, State.axisStop_keeps, State.enterSt_keeps, State.noteStop_keeps, State.setSto_keeps, State.set_keeps]

theorem State.checkStop_keeps {ka kb kc : Bool} {s0 z : State} (n : Nat) (t : Int) (hk : Keeps ka kb kc s0 z) :
    Keeps ka kb kc s0 (State.checkStop z n t) := by
  unfold State.checkStop
  grind [Keeps.mk_, State.stopStation_keeps]

theorem State.rewindFail_keeps {ka kb kc : Bool} {s0 z : State} (n : Nat) (c : Status) (hk : Keeps ka kb kc s0 z) :
    Keeps ka kb kc s0 (State.rewindFail z n c) := by
  unfold State.rewindFail
  grind (ematch := 40) (gen := 40) (splits := 40) (instances := 20000) [Keeps.mk_, State.axisStop_keeps, State.enterSt_keeps, State.raise_keeps, State.set_keeps]

theorem State.dropUntouched_keeps {ka kb kc : Bool} {s0 z : State} (q : Nat) (hk : Keeps ka kb kc s0 z) :
    Keeps ka kb kc s0 (State.dropUntouched z q) := by
  unfold State.dropUntouched
  grind [State.setQueue_keeps]

theorem State.moveProduct_keeps {ka kb kc : Bool} {s0 z : State} (n q l : Nat) (hk : Keeps ka kb kc s0 z) :
    Keeps ka kb kc s0 (State.moveProduct z n q l) := by
  unfold State.moveProduct
  refine State.setSto_keeps _ _ ?_
  split
  · have h := State.dropUntouched_keeps (z.prodQueue q) hk
    exact ⟨h.pending, h.out, h.fresh, h.regs, h.hbm, h.leaf, h.mbox, h.hbmSame, h.leafSame, h.mboxSame⟩
  · exact hk

theorem State.shed_keeps {ka kb kc : Bool} {s0 z : State} (n q : Nat) (hk : Keeps ka kb kc s0 z) :
    Keeps ka kb kc s0 (State.shed z n q) := by
  unfold State.shed
  grind [Keeps.mk_, State.add_keeps, State.moveProduct_keeps, State.setSto_keeps, State.sstGap_keeps]

theorem State.shedLag_keeps {ka kb kc : Bool} {s0 z : State} (n q : Nat) (p0 : Nat) (hk : Keeps ka kb kc s0 z) :
    Keeps ka kb kc s0 (State.shedLag z n q p0) := by
  induction p0 generalizing z <;> grind [State.shedLag, Keeps.mk_, State.shed_keeps]

theorem State.shedAll_keeps {ka kb kc : Bool} {s0 z : State} (n : Nat) (hk : Keeps ka kb kc s0 z) :
    Keeps ka kb kc s0 (State.shedAll z n) := by
  unfold State.shedAll
  grind [Keeps.mk_, State.each_keeps, State.shedLag_keeps]

theorem State.shedTurn_keeps {ka kb kc : Bool} {s0 z : State} (n : Nat) (hk : Keeps ka kb kc s0 z) :
    Keeps ka kb kc s0 (State.shedTurn z n) := by
  unfold State.shedTurn
  grind [Keeps.mk_, State.setSto_keeps, State.shed_keeps, State.syncStore_keeps]

theorem State.passQueue_keeps {ka kb kc : Bool} {s0 z : State} (n q p : Nat) (hk : Keeps ka kb kc s0 z) :
    Keeps ka kb kc s0 (State.passQueue z n q p) := by
  unfold State.passQueue
  grind [Keeps.mk_, State.add_keeps, State.dropUntouched_keeps, State.presentItem_keeps, State.raise_keeps, State.setSto_keeps, State.sstGap_keeps]

theorem State.passReload_keeps {ka kb kc : Bool} {s0 z : State} (n l h : Nat) (hk : Keeps ka kb kc s0 z) :
    Keeps ka kb kc s0 (State.passReload z n l h) := by
  unfold State.passReload
  grind [Keeps.mk_, State.add_keeps, State.raise_keeps, State.setSto_keeps, State.sstGap_keeps]

theorem State.overrun_keeps {ka kb kc : Bool} {s0 z : State} (n l : Nat) (hk : Keeps ka kb kc s0 z) :
    Keeps ka kb kc s0 (State.overrun z n l) := by
  unfold State.overrun
  grind (ematch := 40) (gen := 40) (splits := 40) (instances := 20000) [Keeps.mk_, State.add_keeps, State.each_keeps, State.moveProduct_keeps, State.passQueue_keeps, State.passReload_keeps, State.raise_keeps, State.set_keeps, State.sstGap_keeps, State.syncStore_keeps]

/-! ### LeafOps -/

theorem State.putLeaf_keeps {ka kc : Bool} {s0 z : State} (a : Nat) (bs : List Nat) (hk : Keeps ka false kc s0 z) :
    Keeps ka false kc s0 (State.putLeaf z a bs) := Keeps.leaf_ hk _ _

theorem State.leafRefused_keeps {ka kb kc : Bool} {s0 z : State} (w : World) (hk : Keeps ka kb kc s0 z) :
    Keeps ka kb kc s0 (State.leafRefused z w) := by
  unfold State.leafRefused
  grind [Keeps.mk_, State.add_keeps, State.raise_keeps, State.refuse_keeps]

/-! ### ShadeOps -/

theorem State.setDrift_keeps {ka kb kc : Bool} {s0 z : State} (p i d g : Nat) (hk : Keeps ka kb kc s0 z) :
    Keeps ka kb kc s0 (State.setDrift z p i d g) := by
  unfold State.setDrift
  grind [Keeps.mk_, State.set_keeps]

theorem State.restDrift_keeps {ka kb kc : Bool} {s0 z : State} (p l : Nat) (hk : Keeps ka kb kc s0 z) :
    Keeps ka kb kc s0 (State.restDrift z p l) := by
  unfold State.restDrift
  grind [Keeps.mk_, State.each_keeps, State.setDrift_keeps, State.setPhead_keeps]

theorem State.noteClamps_keeps {ka kb kc : Bool} {s0 z : State} (p : Nat) (d e : Drift) (hk : Keeps ka kb kc s0 z) :
    Keeps ka kb kc s0 (State.noteClamps z p d e) := by
  unfold State.noteClamps
  grind [Keeps.mk_, State.raise_keeps, State.set_keeps]

theorem State.trackPlane_keeps {ka kb kc : Bool} {s0 z : State} (p l i : Nat) (still : Bool) (raw : List Nat) (hk : Keeps ka kb kc s0 z) :
    Keeps ka kb kc s0 (State.trackPlane z p l i still raw) := by
  unfold State.trackPlane
  grind [Keeps.mk_, State.noteClamps_keeps, State.setDrift_keeps, State.setPhead_keeps, State.set_keeps]

theorem State.trackDrift_keeps {ka kb kc : Bool} {s0 z : State} (n p : Nat) (bad : Bool) (raw : List Nat) (hk : Keeps ka kb kc s0 z) :
    Keeps ka kb kc s0 (State.trackDrift z n p bad raw) := by
  unfold State.trackDrift
  grind [Keeps.mk_, State.each_keeps, State.setDrift_keeps, State.setPhead_keeps, State.trackPlane_keeps]

theorem State.beginFade_keeps {ka kb kc : Bool} {s0 z : State} (n p : Nat) (hk : Keeps ka kb kc s0 z) :
    Keeps ka kb kc s0 (State.beginFade z n p) := by
  unfold State.beginFade
  grind [Keeps.mk_, State.restDrift_keeps, State.setPhead_keeps, State.set_keeps, State.syncSlots_keeps]

theorem State.endFades_keeps {ka kb kc : Bool} {s0 z : State} (p : Nat) (hk : Keeps ka kb kc s0 z) :
    Keeps ka kb kc s0 (State.endFades z p) := by
  unfold State.endFades
  grind [Keeps.mk_, State.setPhead_keeps, State.set_keeps, State.syncSlots_keeps]

theorem State.dropSwaps_keeps {ka kb kc : Bool} {s0 z : State} (p : Nat) (hk : Keeps ka kb kc s0 z) :
    Keeps ka kb kc s0 (State.dropSwaps z p) := by
  unfold State.dropSwaps
  grind [Keeps.mk_, State.setPhead_keeps, State.set_keeps, State.syncSlots_keeps]

theorem State.conditionHead_keeps {ka kb kc : Bool} {s0 z : State} (p n : Nat) (filled skipped : Bool) (raw : List Nat) (hk : Keeps ka kb kc s0 z) :
    Keeps ka kb kc s0 (State.conditionHead z p n filled skipped raw) := by
  unfold State.conditionHead
  grind [Keeps.mk_, State.beginFade_keeps, State.setPhead_keeps, State.trackDrift_keeps]

theorem State.captureLine_keeps {ka kb kc : Bool} {s0 z : State} (p n : Nat) (bad : Bool) (raw : List Nat) (hk : Keeps ka kb kc s0 z) :
    Keeps ka kb kc s0 (State.captureLine z p n bad raw) := by
  unfold State.captureLine
  grind [Keeps.mk_, State.set_keeps]

theorem State.writeCapture_keeps {ka kc : Bool} {s0 z : State} (hk : Keeps ka false kc s0 z) : Keeps ka false kc s0 (State.writeCapture z) := by
  unfold State.writeCapture
  dsimp only
  have step : ∀ (a b : Nat) (xs ys : List Nat) (c : Bool) (t : State), Keeps ka false kc s0 t →
      Keeps ka false kc s0 (if c = true then t.putLeaf a xs else t.putLeaf b ys) := by
    intro a b xs ys c t ht
    split
    · exact State.putLeaf_keeps _ _ ht
    · exact State.putLeaf_keeps _ _ ht
  have tail : ∀ (t : State) (c : Prop) [Decidable c] (a n d : Nat) (xs : List Nat) (l : Nat), Keeps ka false kc s0 t →
      Keeps ka false kc s0 (if c then (((t.putLeaf a xs).set R.PCP_LEAF_DEFECTS_COUNT n l).set R.PCP_CAP_STATUS_NEWDEF d).set
        R.PCP_CAP_STATUS_DEF_OVF 1 else ((t.putLeaf a xs).set R.PCP_LEAF_DEFECTS_COUNT n l).set R.PCP_CAP_STATUS_NEWDEF d) := by
    intro t c _ a n d xs l ht
    have h := State.set_keeps R.PCP_CAP_STATUS_NEWDEF d 0 0
      (State.set_keeps R.PCP_LEAF_DEFECTS_COUNT n l 0 (State.putLeaf_keeps a xs ht))
    split
    · exact State.set_keeps _ _ _ _ h
    · exact h
  apply tail
  apply State.each_keeps
  · apply State.each_keeps
    · exact hk
    · intro b x hb
      exact step _ _ _ _ _ _ hb
  · intro b x hb
    exact step _ _ _ _ _ _ hb

end Sys2Proof.Machine
end

