-- ==== Sys2Proof/Laws/KeepsLinks.lean ====
section
/-! SUPPORT. What every shared operation of the links, seals, timing, stitching and the mailbox keeps, one lemma an operation. -/

set_option maxHeartbeats 400000

open Sys2Proof

namespace Sys2Proof.Machine
/-! ### KelimOps -/

theorem State.setKlane_keeps {ka kb kc : Bool} {s0 z : State} (l : Nat) (x : KLane) (hk : Keeps ka kb kc s0 z) :
    Keeps ka kb kc s0 (State.setKlane z l x) := by
  unfold State.setKlane
  grind [Keeps.mk_]

theorem State.setKst_keeps {ka kb kc : Bool} {s0 z : State} (n : Nat) (x : KSt) (hk : Keeps ka kb kc s0 z) :
    Keeps ka kb kc s0 (State.setKst z n x) := by
  unfold State.setKst
  grind [Keeps.mk_]

theorem State.laneFor_keeps {ka kb kc : Bool} {s0 z : State} (pt kind : Nat) (hk : Keeps ka kb kc s0 z) :
    Keeps ka kb kc s0 (State.laneFor z pt kind).2 := by
  unfold State.laneFor
  grind [Keeps.mk_]

theorem State.kcoded_keeps {ka kb kc : Bool} {s0 z : State} (l : Nat) (bs : List LinkBlock) (hk : Keeps ka kb kc s0 z) :
    Keeps ka kb kc s0 (State.kcoded z l bs).2 := by
  unfold State.kcoded
  grind [Keeps.mk_, State.setKlane_keeps]

theorem State.sendKblock_keeps {ka kb kc : Bool} {s0 z : State} (l kind body : Nat) (hk : Keeps ka kb kc s0 z) :
    Keeps ka kb kc s0 (State.sendKblock z l kind body) := by
  unfold State.sendKblock
  grind [Keeps.mk_, State.emit_keeps, State.kcoded_keeps]

theorem State.pumpLane_keeps {ka kb kc : Bool} {s0 z : State} (l : Nat) (p0 : Nat) (hk : Keeps ka kb kc s0 z) :
    Keeps ka kb kc s0 (State.pumpLane z l p0) := by
  induction p0 generalizing z <;> grind [State.pumpLane, Keeps.mk_, State.emit_keeps, State.kcoded_keeps, State.setKlane_keeps]

theorem State.pump_keeps {ka kb kc : Bool} {s0 z : State} (l : Nat) (hk : Keeps ka kb kc s0 z) :
    Keeps ka kb kc s0 (State.pump z l) := by
  unfold State.pump
  grind [Keeps.mk_, State.pumpLane_keeps]

theorem State.kelimCredit_keeps {ka kb kc : Bool} {s0 z : State} (l body : Nat) (hk : Keeps ka kb kc s0 z) :
    Keeps ka kb kc s0 (State.kelimCredit z l body) := by
  unfold State.kelimCredit
  grind [Keeps.mk_, State.pump_keeps, State.sendKblock_keeps, State.setKlane_keeps]

theorem State.kelimAck_keeps {ka kb kc : Bool} {s0 z : State} (l body : Nat) (hk : Keeps ka kb kc s0 z) :
    Keeps ka kb kc s0 (State.kelimAck z l body) := by
  unfold State.kelimAck
  grind [Keeps.mk_, State.pump_keeps, State.setKlane_keeps]

theorem State.replayDue_keeps {ka kb kc : Bool} {s0 z : State} (l : Nat) (t : Int) (hk : Keeps ka kb kc s0 z) :
    Keeps ka kb kc s0 (State.replayDue z l t) := by
  unfold State.replayDue
  grind [Keeps.mk_, State.pump_keeps, State.setKlane_keeps]

theorem State.replayAll_keeps {ka kb kc : Bool} {s0 z : State} (t : Int) (hk : Keeps ka kb kc s0 z) :
    Keeps ka kb kc s0 (State.replayAll z t) := by
  unfold State.replayAll
  grind [Keeps.mk_, State.each_keeps, State.replayDue_keeps]

theorem State.kelimEcho_keeps {ka kb kc : Bool} {s0 z : State} (l body : Nat) (hk : Keeps ka kb kc s0 z) :
    Keeps ka kb kc s0 (State.kelimEcho z l body) := by
  unfold State.kelimEcho
  grind [Keeps.mk_, State.sendKblock_keeps, State.takeFresh_keeps]

theorem State.sendCredStatus_keeps {ka kb kc : Bool} {s0 z : State} (l : Nat) (hk : Keeps ka kb kc s0 z) :
    Keeps ka kb kc s0 (State.sendCredStatus z l) := by
  unfold State.sendCredStatus
  grind [Keeps.mk_, State.sendKblock_keeps]

theorem State.kelimOut_keeps {ka kb kc : Bool} {s0 z : State} (pt kind : Nat) (h : KHdr) (data : List Nat) (hk : Keeps ka kb kc s0 z) :
    Keeps ka kb kc s0 (State.kelimOut z pt kind h data) := by
  unfold State.kelimOut
  grind [Keeps.mk_, State.laneFor_keeps, State.pump_keeps, State.setKlane_keeps]

theorem State.ringOut_keeps {ka kb kc : Bool} {s0 z : State} (kind : Nat) (h : KHdr) (data : List Nat) (hk : Keeps ka kb kc s0 z) :
    Keeps ka kb kc s0 (State.ringOut z kind h data) := by
  unfold State.ringOut
  grind [Keeps.mk_, State.kelimOut_keeps]

theorem State.ringSend_keeps {ka kb kc : Bool} {s0 z : State} (kind n dst : Nat) (data : List Nat) (hk : Keeps ka kb kc s0 z) :
    Keeps ka kb kc s0 (State.ringSend z kind n dst data) := by
  unfold State.ringSend
  grind [Keeps.mk_, State.ringOut_keeps]

theorem State.dovetailOut_keeps {ka kb kc : Bool} {s0 z : State} (n : Nat) (data : List Nat) (hk : Keeps ka kb kc s0 z) :
    Keeps ka kb kc s0 (State.dovetailOut z n data) := by
  unfold State.dovetailOut
  grind [Keeps.mk_, State.kelimOut_keeps]

theorem State.setKport_keeps {ka kb kc : Bool} {s0 z : State} (pt st : Nat) (hk : Keeps ka kb kc s0 z) :
    Keeps ka kb kc s0 (State.setKport z pt st) := by
  unfold State.setKport
  grind [Keeps.mk_, State.set_keeps]

theorem State.syncFlight_keeps {ka kb kc : Bool} {s0 z : State}  (hk : Keeps ka kb kc s0 z) :
    Keeps ka kb kc s0 (State.syncFlight z) := by
  unfold State.syncFlight
  grind [Keeps.mk_, State.set_keeps]

theorem State.dropTokens_keeps {ka kb kc : Bool} {s0 z : State}  (hk : Keeps ka kb kc s0 z) :
    Keeps ka kb kc s0 (State.dropTokens z) := by
  unfold State.dropTokens
  grind [Keeps.mk_, State.each_keeps, State.setKst_keeps, State.syncFlight_keeps]

theorem State.reform_keeps {ka kb kc : Bool} {s0 z : State}  (hk : Keeps ka kb kc s0 z) :
    Keeps ka kb kc s0 (State.reform z) := by
  unfold State.reform
  grind [Keeps.mk_, State.dropTokens_keeps, State.set_keeps]

/-! ### SealOps -/

theorem State.syncHeld_keeps {ka kb kc : Bool} {s0 z : State} (n : Nat) (hk : Keeps ka kb kc s0 z) :
    Keeps ka kb kc s0 (State.syncHeld z n) := by
  unfold State.syncHeld
  grind [Keeps.mk_, State.set_keeps]

theorem State.freeze_keeps {ka kb kc : Bool} {s0 z : State} (n : Nat) (hk : Keeps ka kb kc s0 z) :
    Keeps ka kb kc s0 (State.freeze z n) := by
  unfold State.freeze
  grind [Keeps.mk_, State.set_keeps, State.syncHeld_keeps]

theorem State.auditFail_keeps {ka kb kc : Bool} {s0 z : State} (q : Quantity) (scope : List Nat) (hk : Keeps ka kb kc s0 z) :
    Keeps ka kb kc s0 (State.auditFail z q scope) := by
  unfold State.auditFail
  grind [Keeps.mk_, State.each_keeps, State.freeze_keeps, State.set_keeps]

theorem State.auditPass_keeps {ka kb kc : Bool} {s0 z : State} (q : Quantity) (hk : Keeps ka kb kc s0 z) :
    Keeps ka kb kc s0 (State.auditPass z q) := by
  unfold State.auditPass
  grind [Keeps.mk_, State.set_keeps]

theorem State.auditResult_keeps {ka kb kc : Bool} {s0 z : State} (q : Quantity) (ok : Bool) (scope : List Nat) (hk : Keeps ka kb kc s0 z) :
    Keeps ka kb kc s0 (State.auditResult z q ok scope) := by
  unfold State.auditResult
  grind [Keeps.mk_, State.auditFail_keeps, State.auditPass_keeps]

theorem State.sealPages_keeps {ka kb kc : Bool} {s0 z : State}  (hk : Keeps ka kb kc s0 z) :
    Keeps ka kb kc s0 (State.sealPages z) := by
  unfold State.sealPages
  grind [Keeps.mk_, State.auditPages_keeps, State.auditResult_keeps]

theorem State.sealTokens_keeps {ka kb kc : Bool} {s0 z : State}  (hk : Keeps ka kb kc s0 z) :
    Keeps ka kb kc s0 (State.sealTokens z) := by
  unfold State.sealTokens
  grind [Keeps.mk_, State.auditFail_keeps, State.auditPass_keeps, State.auditTokens_keeps]

theorem State.sealAudits_keeps {ka kb kc : Bool} {s0 z : State}  (hk : Keeps ka kb kc s0 z) :
    Keeps ka kb kc s0 (State.sealAudits z) := by
  unfold State.sealAudits
  grind (ematch := 40) (gen := 40) (splits := 40) (instances := 20000) [Keeps.mk_, State.auditResult_keeps, State.auditSlabs_keeps, State.sealPages_keeps, State.sealTokens_keeps]

theorem State.snapshot_keeps {ka kb kc : Bool} {s0 z : State} (n b : Nat) (hk : Keeps ka kb kc s0 z) :
    Keeps ka kb kc s0 (State.snapshot z n b) := by
  unfold State.snapshot
  grind [Keeps.mk_, State.add_keeps, State.each_keeps, State.setSeal_keeps, State.set_keeps]

/-! ### HlfOps -/

theorem State.setLane_keeps {ka kb kc : Bool} {s0 z : State} (l : Nat) (x : Lane) (hk : Keeps ka kb kc s0 z) :
    Keeps ka kb kc s0 (State.setLane z l x) := by
  unfold State.setLane
  grind [Keeps.mk_]

theorem State.setHead_keeps {ka kb kc : Bool} {s0 z : State} (p : Nat) (x : Head) (hk : Keeps ka kb kc s0 z) :
    Keeps ka kb kc s0 (State.setHead z p x) := by
  unfold State.setHead
  grind [Keeps.mk_]

theorem State.coded_keeps {ka kb kc : Bool} {s0 z : State} (l : Nat) (bs : List LinkBlock) (hk : Keeps ka kb kc s0 z) :
    Keeps ka kb kc s0 (State.coded z l bs).2 := by
  unfold State.coded
  grind [Keeps.mk_, State.setLane_keeps]

theorem State.sendBlock_keeps {ka kb kc : Bool} {s0 z : State} (l kind body : Nat) (hk : Keeps ka kb kc s0 z) :
    Keeps ka kb kc s0 (State.sendBlock z l kind body) := by
  unfold State.sendBlock
  grind [Keeps.mk_, State.coded_keeps, State.emit_keeps]

theorem State.sendPacket_keeps {ka kb kc : Bool} {s0 z : State} (l hdr : Nat) (data : List Nat) (hk : Keeps ka kb kc s0 z) :
    Keeps ka kb kc s0 (State.sendPacket z l hdr data) := by
  unfold State.sendPacket
  grind [Keeps.mk_, State.coded_keeps, State.emit_keeps]

theorem State.syncLead_keeps {ka kb kc : Bool} {s0 z : State} (n : Nat) (hk : Keeps ka kb kc s0 z) :
    Keeps ka kb kc s0 (State.syncLead z n) := by
  unfold State.syncLead
  grind [Keeps.mk_, State.set_keeps]

theorem State.sendDue_keeps {ka kb kc : Bool} {s0 z : State} (l : Nat) (now : Int) (hk : Keeps ka kb kc s0 z) :
    Keeps ka kb kc s0 (State.sendDue z l now) := by
  unfold State.sendDue
  grind [Keeps.mk_, State.coded_keeps, State.each_keeps, State.emit_keeps, State.setLane_keeps]

theorem State.sendTiming_keeps {ka kb kc : Bool} {s0 z : State} (p kind n : Nat) (inst now : Int) (hk : Keeps ka kb kc s0 z) :
    Keeps ka kb kc s0 (State.sendTiming z p kind n inst now) := by
  unfold State.sendTiming
  grind [Keeps.mk_, State.each_keeps, State.sendDue_keeps, State.setLane_keeps]

theorem State.sendHead_keeps {ka kb kc : Bool} {s0 z : State} (p : Nat) (now : Int) (hk : Keeps ka kb kc s0 z) :
    Keeps ka kb kc s0 (State.sendHead z p now) := by
  unfold State.sendHead
  grind [Keeps.mk_, State.each_keeps, State.sendDue_keeps]

theorem State.returnCredits_keeps {ka kb kc : Bool} {s0 z : State} (l n : Nat) (hk : Keeps ka kb kc s0 z) :
    Keeps ka kb kc s0 (State.returnCredits z l n) := by
  unfold State.returnCredits
  grind [Keeps.mk_, State.add_keeps, State.sendBlock_keeps]

theorem State.dropOn_keeps {ka kb kc : Bool} {s0 z : State} (l : Nat) (hk : Keeps ka kb kc s0 z) :
    Keeps ka kb kc s0 (State.dropOn z l) := by
  unfold State.dropOn
  grind [Keeps.mk_, State.add_keeps]

theorem State.creditInit_keeps {ka kb kc : Bool} {s0 z : State} (l : Nat) (hk : Keeps ka kb kc s0 z) :
    Keeps ka kb kc s0 (State.creditInit z l) := by
  unfold State.creditInit
  grind [Keeps.mk_, State.sendBlock_keeps, State.setLane_keeps, State.set_keeps]

theorem State.setPort_keeps {ka kb kc : Bool} {s0 z : State} (p st : Nat) (hk : Keeps ka kb kc s0 z) :
    Keeps ka kb kc s0 (State.setPort z p st) := by
  unfold State.setPort
  grind [Keeps.mk_, State.emit_keeps, State.set_keeps]

theorem State.bond_keeps {ka kb kc : Bool} {s0 z : State} (p l : Nat) (hk : Keeps ka kb kc s0 z) :
    Keeps ka kb kc s0 (State.bond z p l) := by
  unfold State.bond
  grind [Keeps.mk_, State.each_keeps, State.setPort_keeps, State.set_keeps]

theorem State.loosen_keeps {ka kb kc : Bool} {s0 z : State} (p : Nat) (hk : Keeps ka kb kc s0 z) :
    Keeps ka kb kc s0 (State.loosen z p) := by
  unfold State.loosen
  grind [Keeps.mk_, State.each_keeps, State.setPort_keeps]

theorem State.unbond_keeps {ka kb kc : Bool} {s0 z : State} (p : Nat) (hk : Keeps ka kb kc s0 z) :
    Keeps ka kb kc s0 (State.unbond z p) := by
  unfold State.unbond
  grind [Keeps.mk_, State.each_keeps, State.loosen_keeps, State.set_keeps]

theorem State.endCfg_keeps {ka kb kc : Bool} {s0 z : State} (code : Nat) (hk : Keeps ka kb kc s0 z) :
    Keeps ka kb kc s0 (State.endCfg z code) := by
  unfold State.endCfg
  grind [Keeps.mk_, State.set_keeps]

theorem State.leaveActive_keeps {ka kb kc : Bool} {s0 z : State} (p : Nat) (hk : Keeps ka kb kc s0 z) :
    Keeps ka kb kc s0 (State.leaveActive z p) := by
  unfold State.leaveActive
  grind [Keeps.mk_, State.endCapture_keeps, State.endCfg_keeps, State.loosen_keeps, State.setHead_keeps]

theorem State.quietLanes_keeps {ka kb kc : Bool} {s0 z : State} (ls : List Nat) (hk : Keeps ka kb kc s0 z) :
    Keeps ka kb kc s0 (State.quietLanes z ls) := by
  unfold State.quietLanes
  grind [Keeps.mk_, State.each_keeps, State.setLane_keeps, State.set_keeps]

theorem State.portLeaves_keeps {ka kb kc : Bool} {s0 z : State} (p st : Nat) (hk : Keeps ka kb kc s0 z) :
    Keeps ka kb kc s0 (State.portLeaves z p st) := by
  unfold State.portLeaves
  grind (ematch := 40) (gen := 40) (splits := 40) (instances := 20000) [Keeps.mk_, State.each_keeps, State.leaveActive_keeps, State.quietLanes_keeps, State.setHead_keeps, State.setPort_keeps, State.set_keeps, State.unbond_keeps]

theorem State.startDiscover_keeps {ka kb kc : Bool} {s0 z : State} (p : Nat) (hk : Keeps ka kb kc s0 z) :
    Keeps ka kb kc s0 (State.startDiscover z p) := by
  unfold State.startDiscover
  grind [Keeps.mk_, State.setHead_keeps, State.setPort_keeps]

theorem State.renegotiate_keeps {ka kb kc : Bool} {s0 z : State} (p : Nat) (hk : Keeps ka kb kc s0 z) :
    Keeps ka kb kc s0 (State.renegotiate z p) := by
  unfold State.renegotiate
  grind [Keeps.mk_, State.portLeaves_keeps, State.setHead_keeps, State.startDiscover_keeps]

theorem State.nextCandidate_keeps {ka kb kc : Bool} {s0 z : State} (p : Nat) (hk : Keeps ka kb kc s0 z) :
    Keeps ka kb kc s0 (State.nextCandidate z p) := by
  unfold State.nextCandidate
  grind (ematch := 40) (gen := 40) (splits := 40) (instances := 20000) [Keeps.mk_, State.quietLanes_keeps, State.sendPacket_keeps, State.setHead_keeps, State.setPort_keeps, State.set_keeps, State.unbond_keeps]

theorem State.takeCap_keeps {ka kb kc : Bool} {s0 z : State} (p : Nat) (cap : List Nat) (hk : Keeps ka kb kc s0 z) :
    Keeps ka kb kc s0 (State.takeCap z p cap) := by
  unfold State.takeCap
  grind [Keeps.mk_, State.nextCandidate_keeps, State.setHead_keeps, State.setPort_keeps, State.set_keeps]

theorem State.switchMode_keeps {ka kb kc : Bool} {s0 z : State} (p : Nat) (t : Int) (hk : Keeps ka kb kc s0 z) :
    Keeps ka kb kc s0 (State.switchMode z p t) := by
  unfold State.switchMode
  grind [Keeps.mk_, State.bond_keeps, State.each_keeps, State.sendBlock_keeps, State.setHead_keeps, State.setLane_keeps, State.set_keeps]

theorem State.sendEcho_keeps {ka kb kc : Bool} {s0 z : State} (l : Nat) (hk : Keeps ka kb kc s0 z) :
    Keeps ka kb kc s0 (State.sendEcho z l) := by
  unfold State.sendEcho
  grind [Keeps.mk_, State.sendBlock_keeps, State.setLane_keeps]

theorem State.startPrbs_keeps {ka kb kc : Bool} {s0 z : State} (l : Nat) (hk : Keeps ka kb kc s0 z) :
    Keeps ka kb kc s0 (State.startPrbs z l) := by
  unfold State.startPrbs
  grind [Keeps.mk_, State.sendBlock_keeps, State.setLane_keeps, State.set_keeps]

theorem State.checkSwitch_keeps {ka kb kc : Bool} {s0 z : State} (p : Nat) (hk : Keeps ka kb kc s0 z) :
    Keeps ka kb kc s0 (State.checkSwitch z p) := by
  unfold State.checkSwitch
  grind [Keeps.mk_, State.each_keeps, State.setPort_keeps, State.startPrbs_keeps]

theorem State.checkPrbs_keeps {ka kb kc : Bool} {s0 z : State} (p : Nat) (hk : Keeps ka kb kc s0 z) :
    Keeps ka kb kc s0 (State.checkPrbs z p) := by
  unfold State.checkPrbs
  grind [Keeps.mk_, State.each_keeps, State.nextCandidate_keeps, State.sendEcho_keeps, State.setPort_keeps]

theorem State.checkLanePrbs_keeps {ka kb kc : Bool} {s0 z : State} (l : Nat) (hk : Keeps ka kb kc s0 z) :
    Keeps ka kb kc s0 (State.checkLanePrbs z l) := by
  unfold State.checkLanePrbs
  grind [Keeps.mk_, State.sendEcho_keeps]

theorem State.checkDelay_keeps {ka kb kc : Bool} {s0 z : State} (p : Nat) (hk : Keeps ka kb kc s0 z) :
    Keeps ka kb kc s0 (State.checkDelay z p) := by
  unfold State.checkDelay
  grind [Keeps.mk_, State.creditInit_keeps, State.each_keeps, State.setPort_keeps]

theorem State.nextRequest_keeps {ka kb kc : Bool} {s0 z : State} (p : Nat) (hk : Keeps ka kb kc s0 z) :
    Keeps ka kb kc s0 (State.nextRequest z p) := by
  unfold State.nextRequest
  grind [Keeps.mk_, State.sendPacket_keeps, State.setHead_keeps]

theorem State.cfgResponse_keeps {ka kb kc : Bool} {s0 z : State} (p tag code data : Nat) (hk : Keeps ka kb kc s0 z) :
    Keeps ka kb kc s0 (State.cfgResponse z p tag code data) := by
  unfold State.cfgResponse
  grind [Keeps.mk_, State.endCfg_keeps, State.nextRequest_keeps, State.setHead_keeps, State.set_keeps]

theorem State.enterActive_keeps {ka kb kc : Bool} {s0 z : State} (p : Nat) (hk : Keeps ka kb kc s0 z) :
    Keeps ka kb kc s0 (State.enterActive z p) := by
  unfold State.enterActive
  grind (ematch := 40) (gen := 40) (splits := 40) (instances := 20000) [Keeps.mk_, State.nextRequest_keeps, State.setHead_keeps, State.setPort_keeps, State.set_keeps, State.syncLead_keeps]

theorem State.initAck_keeps {ka kb kc : Bool} {s0 z : State} (l : Nat) (hk : Keeps ka kb kc s0 z) :
    Keeps ka kb kc s0 (State.initAck z l) := by
  unfold State.initAck
  grind [Keeps.mk_, State.bond_keeps, State.enterActive_keeps, State.setLane_keeps, State.setPort_keeps, State.set_keeps]

theorem State.retrainLane_keeps {ka kb kc : Bool} {s0 z : State} (l : Nat) (tell : Bool) (hk : Keeps ka kb kc s0 z) :
    Keeps ka kb kc s0 (State.retrainLane z l tell) := by
  unfold State.retrainLane
  grind (ematch := 40) (gen := 40) (splits := 40) (instances := 20000) [Keeps.mk_, State.leaveActive_keeps, State.sendBlock_keeps, State.setLane_keeps, State.setPort_keeps, State.set_keeps]

theorem State.creditFail_keeps {ka kb kc : Bool} {s0 z : State} (l : Nat) (hk : Keeps ka kb kc s0 z) :
    Keeps ka kb kc s0 (State.creditFail z l) := by
  unfold State.creditFail
  grind [Keeps.mk_, State.auditFail_keeps, State.raise_keeps, State.retrainLane_keeps, State.setLane_keeps, State.set_keeps]

theorem State.creditAudit_keeps {ka kb kc : Bool} {s0 z : State} (l held rxRet : Nat) (hk : Keeps ka kb kc s0 z) :
    Keeps ka kb kc s0 (State.creditAudit z l held rxRet) := by
  unfold State.creditAudit
  grind [Keeps.mk_, State.auditPass_keeps, State.creditFail_keeps, State.setLane_keeps, State.setS_keeps, State.set_keeps]

theorem State.sendNak_keeps {ka kb kc : Bool} {s0 z : State} (l : Nat) (hk : Keeps ka kb kc s0 z) :
    Keeps ka kb kc s0 (State.sendNak z l) := by
  unfold State.sendNak
  grind [Keeps.mk_, State.add_keeps, State.sendBlock_keeps, State.setLane_keeps]

theorem State.countBad_keeps {ka kb kc : Bool} {s0 z : State} (l type : Nat) (k : Packet) (hk : Keeps ka kb kc s0 z) :
    Keeps ka kb kc s0 (State.countBad z l type k) := by
  unfold State.countBad
  grind [Keeps.mk_, State.add_keeps, State.dropOn_keeps, State.retrainLane_keeps, State.setLane_keeps]

theorem State.refuseSeq_keeps {ka kb kc : Bool} {s0 z : State} (l seq : Nat) (hk : Keeps ka kb kc s0 z) :
    Keeps ka kb kc s0 (State.refuseSeq z l seq) := by
  unfold State.refuseSeq
  grind [Keeps.mk_, State.retrainLane_keeps, State.setLane_keeps]

theorem State.receive_keeps {ka kb kc : Bool} {s0 z : State} (l type : Nat) (k : Packet) (hk : Keeps ka kb kc s0 z) :
    Keeps ka kb kc s0 (State.receive z l type k).2 := by
  unfold State.receive
  grind [Keeps.mk_, State.countBad_keeps, State.refuseSeq_keeps, State.returnCredits_keeps, State.sendBlock_keeps, State.sendNak_keeps, State.setLane_keeps]

theorem State.packetIn_keeps {ka kb kc : Bool} {s0 z : State} (l type : Nat) (k : Packet) (hk : Keeps ka kb kc s0 z) :
    Keeps ka kb kc s0 (State.packetIn z l type k).2 := by
  unfold State.packetIn
  grind [Keeps.mk_, State.creditFail_keeps, State.dropOn_keeps, State.receive_keeps, State.returnCredits_keeps]

theorem State.setHeadLine_keeps {ka kb kc : Bool} {s0 z : State} (p n : Nat) (x : HeadLine) (hk : Keeps ka kb kc s0 z) :
    Keeps ka kb kc s0 (State.setHeadLine z p n x) := by
  unfold State.setHeadLine
  grind [Keeps.mk_, State.setHead_keeps]

theorem State.handOn_keeps {ka kb kc : Bool} {s0 z : State} (p : Nat) (p0 : Nat) (hk : Keeps ka kb kc s0 z) :
    Keeps ka kb kc s0 (State.handOn z p p0) := by
  induction p0 generalizing z <;> grind [State.handOn, Keeps.mk_, State.presentItem_keeps, State.setHead_keeps]

theorem State.lineReady_keeps {ka kb kc : Bool} {s0 z : State} (p n : Nat) (filled skipped : Bool) (ys : List Nat) (hk : Keeps ka kb kc s0 z) :
    Keeps ka kb kc s0 (State.lineReady z p n filled skipped ys) := by
  unfold State.lineReady
  grind [Keeps.mk_, State.handOn_keeps, State.setHeadLine_keeps, State.setHead_keeps]

theorem State.fillLine_keeps {ka kb kc : Bool} {s0 z : State} (p n : Nat) (skipped : Bool) (hk : Keeps ka kb kc s0 z) :
    Keeps ka kb kc s0 (State.fillLine z p n skipped) := by
  unfold State.fillLine
  grind [Keeps.mk_, State.lineReady_keeps, State.raise_keeps]

theorem State.assemble_keeps {ka kb kc : Bool} {s0 z : State} (l p : Nat) (h : PixHdr) (ys : List Nat) (t : Int) (hk : Keeps ka kb kc s0 z) :
    Keeps ka kb kc s0 (State.assemble z l p h ys t) := by
  unfold State.assemble
  grind [Keeps.mk_, State.count_keeps, State.dropOn_keeps, State.fillLine_keeps, State.lineReady_keeps, State.setHeadLine_keeps]

theorem State.drainLane_keeps {ka kb kc : Bool} {s0 z : State} (l : Nat) (p0 : Nat) (hk : Keeps ka kb kc s0 z) :
    Keeps ka kb kc s0 (State.drainLane z l p0) := by
  induction p0 generalizing z <;> grind [State.drainLane, Keeps.mk_, State.assemble_keeps, State.returnCredits_keeps, State.setLane_keeps, State.sub_keeps]

theorem State.drainHead_keeps {ka kb kc : Bool} {s0 z : State} (p : Nat) (hk : Keeps ka kb kc s0 z) :
    Keeps ka kb kc s0 (State.drainHead z p) := by
  unfold State.drainHead
  grind [Keeps.mk_, State.drainLane_keeps, State.each_keeps]

theorem State.restartHeads_keeps {ka kb kc : Bool} {s0 z : State} (st n : Nat) (fresh : Bool) (hk : Keeps ka kb kc s0 z) :
    Keeps ka kb kc s0 (State.restartHeads z st n fresh) := by
  unfold State.restartHeads
  grind [Keeps.mk_, State.each_keeps, State.setHeadLine_keeps, State.setHead_keeps]

theorem State.openLine_keeps {ka kb kc : Bool} {s0 z : State} (st n : Nat) (q : Int) (hk : Keeps ka kb kc s0 z) :
    Keeps ka kb kc s0 (State.openLine z st n q) := by
  unfold State.openLine
  grind [Keeps.mk_, State.each_keeps, State.setHeadLine_keeps]

/-! ### IlcOps -/

theorem State.swapBank_keeps {ka kb kc : Bool} {s0 z : State} (g n : Nat) (hk : Keeps ka kb kc s0 z) :
    Keeps ka kb kc s0 (State.swapBank z g n) := by
  unfold State.swapBank
  grind [Keeps.mk_, State.raise_keeps, State.setGrp_keeps, State.set_keeps, State.syncBank_keeps]

theorem State.armBanks_keeps {ka kb kc : Bool} {s0 z : State} (n w : Nat) (hk : Keeps ka kb kc s0 z) :
    Keeps ka kb kc s0 (State.armBanks z n w) := by
  unfold State.armBanks
  grind [Keeps.mk_, State.each_keeps, State.setChan_keeps, State.setGrp_keeps, State.set_keeps, State.syncBank_keeps]

theorem State.ilcTemp_keeps {ka kb kc : Bool} {s0 z : State} (g : Nat) (temp : Int) (flagged : Bool) (hk : Keeps ka kb kc s0 z) :
    Keeps ka kb kc s0 (State.ilcTemp z g temp flagged) := by
  unfold State.ilcTemp
  grind [Keeps.mk_, State.raise_keeps, State.setGrp_keeps, State.setS_keeps, State.set_keeps]

theorem State.gateOn_keeps {ka kb kc : Bool} {s0 z : State} (c : Nat) (e : Int × Int) (level n : Nat) (hk : Keeps ka kb kc s0 z) :
    Keeps ka kb kc s0 (State.gateOn z c e level n) := by
  unfold State.gateOn
  grind [Keeps.mk_, State.emit_keeps, State.setChan_keeps]

theorem State.gatesLow_keeps {ka kb kc : Bool} {s0 z : State} (cs : List Nat) (hk : Keeps ka kb kc s0 z) :
    Keeps ka kb kc s0 (State.gatesLow z cs) := by
  unfold State.gatesLow
  grind [Keeps.mk_, State.each_keeps, State.emit_keeps, State.setChan_keeps]

theorem State.dropBanks_keeps {ka kb kc : Bool} {s0 z : State} (n : Nat) (hk : Keeps ka kb kc s0 z) :
    Keeps ka kb kc s0 (State.dropBanks z n) := by
  unfold State.dropBanks
  grind [Keeps.mk_, State.each_keeps, State.gatesLow_keeps, State.setGrp_keeps, State.set_keeps]

theorem State.lightString_keeps {ka kb kc : Bool} {s0 z : State} (g c n : Nat) (t ss ee : Int) (hk : Keeps ka kb kc s0 z) :
    Keeps ka kb kc s0 (State.lightString z g c n t ss ee) := by
  unfold State.lightString
  grind [Keeps.mk_, State.gateOn_keeps, State.setChan_keeps, State.setSat_keeps, State.set_keeps]

theorem State.countDeferred_keeps {ka kb kc : Bool} {s0 z : State} (g : Nat) (hk : Keeps ka kb kc s0 z) :
    Keeps ka kb kc s0 (State.countDeferred z g) := by
  unfold State.countDeferred
  grind [Keeps.mk_, State.each_keeps, State.raise_keeps, State.setChan_keeps, State.set_keeps]

theorem State.illuminate_keeps {ka kb kc : Bool} {s0 z : State} (st n : Nat) (t ss ee : Int) (hk : Keeps ka kb kc s0 z) :
    Keeps ka kb kc s0 (State.illuminate z st n t ss ee) := by
  unfold State.illuminate
  grind [Keeps.mk_, State.countDeferred_keeps, State.each_keeps, State.lightString_keeps, State.setGrp_keeps, State.set_keeps]

theorem State.syncFaulted_keeps {ka kb kc : Bool} {s0 z : State}  (hk : Keeps ka kb kc s0 z) :
    Keeps ka kb kc s0 (State.syncFaulted z) := by
  unfold State.syncFaulted
  grind [Keeps.mk_, State.set_keeps]

theorem State.stringFault_keeps {ka kb kc : Bool} {s0 z : State} (c kind n : Nat) (hk : Keeps ka kb kc s0 z) :
    Keeps ka kb kc s0 (State.stringFault z c kind n) := by
  unfold State.stringFault
  grind (ematch := 40) (gen := 40) (splits := 40) (instances := 20000) [Keeps.mk_, State.gatesLow_keeps, State.raise_keeps, State.set_keeps, State.syncFaulted_keeps]

/-! ### LtuOps -/

theorem State.setLtuVals_keeps {ka kb kc : Bool} {s0 z : State} (n : Nat) (v : List Nat) (hk : Keeps ka kb kc s0 z) :
    Keeps ka kb kc s0 (State.setLtuVals z n v) := by
  unfold State.setLtuVals
  grind [Keeps.mk_, State.set_keeps]

theorem State.applyStaged_keeps {ka kb kc : Bool} {s0 z : State} (n l : Nat) (hk : Keeps ka kb kc s0 z) :
    Keeps ka kb kc s0 (State.applyStaged z n l) := by
  unfold State.applyStaged
  grind [Keeps.mk_, State.setLst_keeps, State.setLtuVals_keeps, State.setStation_keeps, State.set_keeps]

theorem State.watchTarget_keeps {ka kb kc : Bool} {s0 z : State} (n : Nat) (p : Int) (hk : Keeps ka kb kc s0 z) :
    Keeps ka kb kc s0 (State.watchTarget z n p) := by
  unfold State.watchTarget
  grind [Keeps.mk_, State.setLst_keeps]

theorem State.watchFrom_keeps {ka kb kc : Bool} {s0 z : State} (n : Nat) (t : Int) (hk : Keeps ka kb kc s0 z) :
    Keeps ka kb kc s0 (State.watchFrom z n t) := by
  unfold State.watchFrom
  grind [Keeps.mk_, State.setLst_keeps]

theorem State.armMatch_keeps {ka kb kc : Bool} {s0 z : State} (n m : Nat) (hk : Keeps ka kb kc s0 z) :
    Keeps ka kb kc s0 (State.armMatch z n m) := by
  unfold State.armMatch
  grind [Keeps.mk_, State.setLst_keeps, State.set_keeps]

theorem State.withdrawMatch_keeps {ka kb kc : Bool} {s0 z : State} (n : Nat) (hk : Keeps ka kb kc s0 z) :
    Keeps ka kb kc s0 (State.withdrawMatch z n) := by
  unfold State.withdrawMatch
  grind [Keeps.mk_, State.setLst_keeps, State.set_keeps]

theorem State.useMatch_keeps {ka kb kc : Bool} {s0 z : State} (n : Nat) (hk : Keeps ka kb kc s0 z) :
    Keeps ka kb kc s0 (State.useMatch z n) := by
  unfold State.useMatch
  grind [Keeps.mk_, State.setLst_keeps, State.set_keeps]

theorem State.rewindArm_keeps {ka kb kc : Bool} {s0 z : State} (n : Nat) (t : Int) (hk : Keeps ka kb kc s0 z) :
    Keeps ka kb kc s0 (State.rewindArm z n t) := by
  unfold State.rewindArm
  grind [Keeps.mk_, State.armMatch_keeps, State.rewindFail_keeps, State.set_keeps]

theorem State.stepFour_keeps {ka kb kc : Bool} {s0 z : State} (n : Nat) (t : Int) (hk : Keeps ka kb kc s0 z) :
    Keeps ka kb kc s0 (State.stepFour z n t) := by
  unfold State.stepFour
  grind [Keeps.mk_, State.rewindArm_keeps]

theorem State.watchEntry_keeps {ka kb kc : Bool} {s0 z : State} (n : Nat) (p : Int) (hk : Keeps ka kb kc s0 z) :
    Keeps ka kb kc s0 (State.watchEntry z n p) := by
  unfold State.watchEntry
  grind [Keeps.mk_, State.setSto_keeps]

theorem State.noteTrigger_keeps {ka kb kc : Bool} {s0 z : State} (n l : Nat) (t : Int) (hk : Keeps ka kb kc s0 z) :
    Keeps ka kb kc s0 (State.noteTrigger z n l t) := by
  unfold State.noteTrigger
  grind [Keeps.mk_, State.setSeal_keeps]

theorem State.checkVelocity_keeps {ka kb kc : Bool} {s0 z : State} (n : Nat) (isMatch : Bool) (now : Int) (hk : Keeps ka kb kc s0 z) :
    Keeps ka kb kc s0 (State.checkVelocity z n isMatch now) := by
  unfold State.checkVelocity
  grind [Keeps.mk_, State.raise_keeps, State.setLst_keeps, State.set_keeps]

theorem State.writeDescriptor_keeps {ka kb kc : Bool} {s0 z : State} (n : Nat) (ws : List Nat) (hk : Keeps ka kb kc s0 z) :
    Keeps ka kb kc s0 (State.writeDescriptor z n ws).2 := by
  unfold State.writeDescriptor
  grind [Keeps.mk_, State.presentItem_keeps, State.queueEvent_keeps, State.set_keeps]

theorem State.skipLine_keeps {ka kb kc : Bool} {s0 z : State} (n l : Nat) (t : Int) (hk : Keeps ka kb kc s0 z) :
    Keeps ka kb kc s0 (State.skipLine z n l t) := by
  unfold State.skipLine
  grind [Keeps.mk_, State.add_keeps, State.each_keeps, State.fillLine_keeps, State.noteTrigger_keeps, State.raise_keeps]

theorem State.fixLine_keeps {ka kb kc : Bool} {s0 z : State} (n : Nat) (l : CLine) (hk : Keeps ka kb kc s0 z) :
    Keeps ka kb kc s0 (State.fixLine z n l) := by
  unfold State.fixLine
  grind [Keeps.mk_, State.add_keeps, State.each_keeps, State.sendTiming_keeps, State.setLst_keeps]

theorem State.placeFirst_keeps {ka kb kc : Bool} {s0 z : State} (n : Nat) (t now : Int) (hk : Keeps ka kb kc s0 z) :
    Keeps ka kb kc s0 (State.placeFirst z n t now) := by
  unfold State.placeFirst
  grind [Keeps.mk_, State.setLst_keeps, State.setPos16_keeps]

theorem State.takeBase_keeps {ka kb kc : Bool} {s0 z : State} (n : Nat) (t : Int) (hk : Keeps ka kb kc s0 z) :
    Keeps ka kb kc s0 (State.takeBase z n t) := by
  unfold State.takeBase
  grind [Keeps.mk_, State.setLst_keeps, State.setPos16_keeps]

theorem State.commitLine_keeps {ka kb kc : Bool} {s0 z : State} (n : Nat) (t now : Int) (hk : Keeps ka kb kc s0 z) :
    Keeps ka kb kc s0 (State.commitLine z n t now).2 := by
  unfold State.commitLine
  grind (ematch := 40) (gen := 40) (splits := 40) (instances := 20000) [Keeps.mk_, State.applyStaged_keeps, State.checkVelocity_keeps, State.fixLine_keeps, State.placeFirst_keeps, State.setLst_keeps, State.skipLine_keeps, State.sub_keeps, State.useMatch_keeps, State.writeDescriptor_keeps]

theorem State.syncPeriod_keeps {ka kb kc : Bool} {s0 z : State} (e : Nat) (t : Int) (hk : Keeps ka kb kc s0 z) :
    Keeps ka kb kc s0 (State.syncPeriod z e t) := by
  unfold State.syncPeriod
  grind [Keeps.mk_, State.setSat_keeps]

/-! ### MeasOps -/

theorem State.syncMeas_keeps {ka kb kc : Bool} {s0 z : State}  (hk : Keeps ka kb kc s0 z) :
    Keeps ka kb kc s0 (State.syncMeas z) := by
  unfold State.syncMeas
  grind [Keeps.mk_, State.each_keeps, State.set_keeps]

theorem State.setMeas_keeps {ka kb kc : Bool} {s0 z : State} (i : Nat) (d : List Nat) (hk : Keeps ka kb kc s0 z) :
    Keeps ka kb kc s0 (State.setMeas z i d) := by
  unfold State.setMeas
  grind [Keeps.mk_, State.syncMeas_keeps]

/-! ### StitchOps -/

theorem State.syncAlignStore_keeps {ka kb kc : Bool} {s0 z : State}  (hk : Keeps ka kb kc s0 z) :
    Keeps ka kb kc s0 (State.syncAlignStore z) := by
  unfold State.syncAlignStore
  grind [Keeps.mk_, State.set_keeps]

theorem State.handLine_keeps {ka kb kc : Bool} {s0 z : State} (n : Nat) (o : OpenLine) (hk : Keeps ka kb kc s0 z) :
    Keeps ka kb kc s0 (State.handLine z n o) := by
  unfold State.handLine
  grind [Keeps.mk_, State.presentItem_keeps, State.setPst_keeps]

theorem State.flushWaiting_keeps {ka kb kc : Bool} {s0 z : State} (n : Nat) (p0 : List OpenLine) (hk : Keeps ka kb kc s0 z) :
    Keeps ka kb kc s0 (State.flushWaiting z n p0) := by
  induction p0 generalizing z <;> grind [State.flushWaiting, Keeps.mk_, State.handLine_keeps, State.setPst_keeps]

theorem State.sendDovetail_keeps {ka kb kc : Bool} {s0 z : State} (n w : Nat) (planes : List (List Nat)) (hk : Keeps ka kb kc s0 z) :
    Keeps ka kb kc s0 (State.sendDovetail z n w planes) := by
  unfold State.sendDovetail
  grind [Keeps.mk_, State.dovetailOut_keeps]

theorem State.alignMeasure_keeps {ka kb kc : Bool} {s0 z : State} (p n : Nat) (hk : Keeps ka kb kc s0 z) :
    Keeps ka kb kc s0 (State.alignMeasure z p n) := by
  unfold State.alignMeasure
  grind [Keeps.mk_, State.count_keeps, State.each_keeps, State.set_keeps]

theorem State.dovetailMeasure_keeps {ka kb kc : Bool} {s0 z : State} (n w : Nat) (hk : Keeps ka kb kc s0 z) :
    Keeps ka kb kc s0 (State.dovetailMeasure z n w) := by
  unfold State.dovetailMeasure
  grind [Keeps.mk_]

theorem State.takeDesc_keeps {ka kb kc : Bool} {s0 z : State} (n w : Nat) (p0 : Nat) (hk : Keeps ka kb kc s0 z) :
    Keeps ka kb kc s0 (State.takeDesc z n w p0).2 := by
  induction p0 generalizing z <;> grind [State.takeDesc, Keeps.mk_, State.setPst_keeps, State.takeDescriptor_keeps]

theorem State.descFlags_keeps {ka kb kc : Bool} {s0 z : State} (n w : Nat) (hk : Keeps ka kb kc s0 z) :
    Keeps ka kb kc s0 (State.descFlags z n w).2 := by
  unfold State.descFlags
  grind [Keeps.mk_, State.setPst_keeps, State.takeDesc_keeps]

theorem State.formLine_keeps {ka kb kc : Bool} {s0 z : State} (n w : Nat) (hk : Keeps ka kb kc s0 z) :
    Keeps ka kb kc s0 (State.formLine z n w) := by
  unfold State.formLine
  grind [Keeps.mk_, State.descFlags_keeps, State.dovetailMeasure_keeps, State.flushWaiting_keeps, State.handLine_keeps, State.sendDovetail_keeps, State.setPst_keeps]

theorem State.formList_keeps {ka kb kc : Bool} {s0 z : State} (n : Nat) (p0 : List Nat) (hk : Keeps ka kb kc s0 z) :
    Keeps ka kb kc s0 (State.formList z n p0) := by
  induction p0 generalizing z <;> grind [State.formList, Keeps.mk_, State.formLine_keeps]

theorem State.formLines_keeps {ka kb kc : Bool} {s0 z : State} (n : Nat) (hk : Keeps ka kb kc s0 z) :
    Keeps ka kb kc s0 (State.formLines z n) := by
  unfold State.formLines
  grind [Keeps.mk_, State.formList_keeps]

theorem State.dovetailColumns_keeps {ka kb kc : Bool} {s0 z : State} (n w : Nat) (planes : List (List Nat)) (hk : Keeps ka kb kc s0 z) :
    Keeps ka kb kc s0 (State.dovetailColumns z n w planes) := by
  unfold State.dovetailColumns
  grind [Keeps.mk_, State.flushWaiting_keeps, State.setPst_keeps]

/-! ### KruOps -/

theorem State.kelimErr_keeps {ka kb kc : Bool} {s0 z : State} (l : Nat) (hk : Keeps ka kb kc s0 z) :
    Keeps ka kb kc s0 (State.kelimErr z l) := by
  unfold State.kelimErr
  grind [Keeps.mk_, State.add_keeps]

theorem State.kelimReturn_keeps {ka kb kc : Bool} {s0 z : State} (l n : Nat) (hk : Keeps ka kb kc s0 z) :
    Keeps ka kb kc s0 (State.kelimReturn z l n) := by
  unfold State.kelimReturn
  grind [Keeps.mk_, State.sendKblock_keeps, State.setKlane_keeps]

theorem State.kelimInit_keeps {ka kb kc : Bool} {s0 z : State} (l : Nat) (hk : Keeps ka kb kc s0 z) :
    Keeps ka kb kc s0 (State.kelimInit z l) := by
  unfold State.kelimInit
  grind [Keeps.mk_, State.sendKblock_keeps, State.setKlane_keeps]

theorem State.kelimRetrain_keeps {ka kb kc : Bool} {s0 z : State} (l : Nat) (tell : Bool) (hk : Keeps ka kb kc s0 z) :
    Keeps ka kb kc s0 (State.kelimRetrain z l tell) := by
  unfold State.kelimRetrain
  grind [Keeps.mk_, State.sendKblock_keeps, State.setKlane_keeps, State.set_keeps]

theorem State.kelimRefuse_keeps {ka kb kc : Bool} {s0 z : State} (l seq : Nat) (hk : Keeps ka kb kc s0 z) :
    Keeps ka kb kc s0 (State.kelimRefuse z l seq) := by
  unfold State.kelimRefuse
  grind [Keeps.mk_, State.kelimRetrain_keeps, State.setKlane_keeps]

theorem State.kelimNak_keeps {ka kb kc : Bool} {s0 z : State} (l : Nat) (hk : Keeps ka kb kc s0 z) :
    Keeps ka kb kc s0 (State.kelimNak z l) := by
  unfold State.kelimNak
  grind [Keeps.mk_, State.sendKblock_keeps, State.setKlane_keeps]

theorem State.kelimCtl_keeps {ka kb kc : Bool} {s0 z : State} (l kind body : Nat) (hk : Keeps ka kb kc s0 z) :
    Keeps ka kb kc s0 (State.kelimCtl z l kind body) := by
  unfold State.kelimCtl
  grind [Keeps.mk_, State.kelimAck_keeps, State.kelimCredit_keeps, State.kelimEcho_keeps, State.kelimRetrain_keeps]

theorem State.kelimTake_keeps {ka kb kc : Bool} {s0 z : State} (l : Nat) (k : KFrame) (hk : Keeps ka kb kc s0 z) :
    Keeps ka kb kc s0 (State.kelimTake z l k).2 := by
  unfold State.kelimTake
  grind [Keeps.mk_, State.kelimErr_keeps, State.kelimNak_keeps, State.kelimRefuse_keeps, State.kelimReturn_keeps, State.sendKblock_keeps, State.setKlane_keeps]

theorem State.ahead_keeps {ka kb kc : Bool} {s0 z : State} (l : Nat) (ctl : List (BitVec 8 × BitVec 56)) (hk : Keeps ka kb kc s0 z) :
    Keeps ka kb kc s0 (State.ahead z l ctl) := by
  unfold State.ahead
  grind [Keeps.mk_, State.each_keeps, State.kelimCtl_keeps]

theorem State.kelimRx_keeps {ka kb kc : Bool} {s0 z : State} (l : Nat) (k : KFrame) (kind : Nat) (lenOk : List Nat → Bool) (fwd : List Nat → List Nat) (act : KHdr → List Nat → State → State) (hk : Keeps ka kb kc s0 z) (hact : ∀ (x0 : KHdr) (x1 : List Nat) (x2 : State), Keeps ka kb kc s0 x2 → Keeps ka kb kc s0 (act x0 x1 x2)) :
    Keeps ka kb kc s0 (State.kelimRx z l k kind lenOk fwd act) := by
  unfold State.kelimRx
  grind [Keeps.mk_, State.ahead_keeps, State.kelimErr_keeps, State.kelimOut_keeps, State.kelimTake_keeps]

theorem State.ringDeliver_keeps {ka kb kc : Bool} {s0 z : State} (kind : Nat) (h : KHdr) (data : List Nat) (own : State → State) (hk : Keeps ka kb kc s0 z) (hown : ∀ (x0 : State), Keeps ka kb kc s0 x0 → Keeps ka kb kc s0 (own x0)) :
    Keeps ka kb kc s0 (State.ringDeliver z kind h data own) := by
  unfold State.ringDeliver
  grind [Keeps.mk_, State.ringOut_keeps]

theorem State.syncMember_keeps {ka kb kc : Bool} {s0 z : State}  (hk : Keeps ka kb kc s0 z) :
    Keeps ka kb kc s0 (State.syncMember z) := by
  unfold State.syncMember
  grind [Keeps.mk_, State.set_keeps]

theorem State.setRingState_keeps {ka kb kc : Bool} {s0 z : State} (st : Nat) (hk : Keeps ka kb kc s0 z) :
    Keeps ka kb kc s0 (State.setRingState z st) := by
  unfold State.setRingState
  grind [Keeps.mk_, State.set_keeps]

theorem State.ringFail_keeps {ka kb kc : Bool} {s0 z : State} (c : Status) (hk : Keeps ka kb kc s0 z) :
    Keeps ka kb kc s0 (State.ringFail z c) := by
  unfold State.ringFail
  grind [Keeps.mk_, State.setRingState_keeps, State.set_keeps]

theorem State.setNeighbours_keeps {ka kb kc : Bool} {s0 z : State} (members : Nat) (hk : Keeps ka kb kc s0 z) :
    Keeps ka kb kc s0 (State.setNeighbours z members) := by
  unfold State.setNeighbours
  grind [Keeps.mk_, State.set_keeps]

theorem State.owedHinges_keeps {ka kb kc : Bool} {s0 z : State}  (hk : Keeps ka kb kc s0 z) :
    Keeps ka kb kc s0 (State.owedHinges z) := by
  unfold State.owedHinges
  grind [Keeps.mk_, State.each_keeps, State.ringSend_keeps, State.setKst_keeps]

theorem State.takeFormed_keeps {ka kb kc : Bool} {s0 z : State} (members : Nat) (chain : Bool) (nc : List Nat) (hk : Keeps ka kb kc s0 z) :
    Keeps ka kb kc s0 (State.takeFormed z members chain nc) := by
  unfold State.takeFormed
  grind [Keeps.mk_, State.owedHinges_keeps, State.reform_keeps, State.setNeighbours_keeps, State.setRingState_keeps, State.set_keeps, State.syncMember_keeps]

theorem State.sendToken_keeps {ka kb kc : Bool} {s0 z : State} (n src : Nat) (t : KTok) (hk : Keeps ka kb kc s0 z) :
    Keeps ka kb kc s0 (State.sendToken z n src t) := by
  unfold State.sendToken
  grind [Keeps.mk_, State.ringOut_keeps]

theorem State.issueTokens_keeps {ka kb kc : Bool} {s0 z : State} (n : Nat) (p0 : Nat) (hk : Keeps ka kb kc s0 z) :
    Keeps ka kb kc s0 (State.issueTokens z n p0) := by
  induction p0 generalizing z <;> grind [State.issueTokens, Keeps.mk_, State.add_keeps, State.count_keeps, State.sendToken_keeps, State.setKst_keeps, State.syncFlight_keeps]

theorem State.sendFormed_keeps {ka kb kc : Bool} {s0 z : State} (members : Nat) (hk : Keeps ka kb kc s0 z) :
    Keeps ka kb kc s0 (State.sendFormed z members) := by
  unfold State.sendFormed
  grind [Keeps.mk_, State.ringSend_keeps, State.takeFormed_keeps]

theorem State.sendDiscover_keeps {ka kb kc : Bool} {s0 z : State} (next : Nat) (hk : Keeps ka kb kc s0 z) :
    Keeps ka kb kc s0 (State.sendDiscover z next) := by
  unfold State.sendDiscover
  grind [Keeps.mk_, State.ringSend_keeps, State.set_keeps]

theorem State.sendRoster_keeps {ka kb kc : Bool} {s0 z : State}  (hk : Keeps ka kb kc s0 z) :
    Keeps ka kb kc s0 (State.sendRoster z) := by
  unfold State.sendRoster
  grind [Keeps.mk_, State.ringSend_keeps]

theorem State.checkFormed_keeps {ka kb kc : Bool} {s0 z : State}  (hk : Keeps ka kb kc s0 z) :
    Keeps ka kb kc s0 (State.checkFormed z) := by
  unfold State.checkFormed
  grind [Keeps.mk_, State.sendFormed_keeps]

theorem State.sendFold_keeps {ka kb kc : Bool} {s0 z : State} (pt : Nat) (hk : Keeps ka kb kc s0 z) :
    Keeps ka kb kc s0 (State.sendFold z pt) := by
  unfold State.sendFold
  grind [Keeps.mk_, State.ringSend_keeps]

theorem State.noteFold_keeps {ka kb kc : Bool} {s0 z : State} (id pt : Nat) (hk : Keeps ka kb kc s0 z) :
    Keeps ka kb kc s0 (State.noteFold z id pt) := by
  unfold State.noteFold
  grind [Keeps.mk_]

theorem State.foldOpen_keeps {ka kb kc : Bool} {s0 z : State}  (hk : Keeps ka kb kc s0 z) :
    Keeps ka kb kc s0 (State.foldOpen z) := by
  unfold State.foldOpen
  grind [Keeps.mk_, State.each_keeps, State.noteFold_keeps, State.sendFold_keeps]

theorem State.tryDiscover_keeps {ka kb kc : Bool} {s0 z : State}  (hk : Keeps ka kb kc s0 z) :
    Keeps ka kb kc s0 (State.tryDiscover z) := by
  unfold State.tryDiscover
  grind [Keeps.mk_, State.foldOpen_keeps, State.sendDiscover_keeps]

theorem State.rediscover_keeps {ka kb kc : Bool} {s0 z : State}  (hk : Keeps ka kb kc s0 z) :
    Keeps ka kb kc s0 (State.rediscover z) := by
  unfold State.rediscover
  grind [Keeps.mk_, State.sendDiscover_keeps]

theorem State.portLost_keeps {ka kb kc : Bool} {s0 z : State} (pt st : Nat) (hk : Keeps ka kb kc s0 z) :
    Keeps ka kb kc s0 (State.portLost z pt st) := by
  unfold State.portLost
  grind [Keeps.mk_, State.dropTokens_keeps, State.foldOpen_keeps, State.noteFold_keeps, State.reform_keeps, State.sendFold_keeps, State.setKport_keeps, State.setRingState_keeps, State.set_keeps, State.tryDiscover_keeps]

theorem State.portUp_keeps {ka kb kc : Bool} {s0 z : State} (pt : Nat) (hk : Keeps ka kb kc s0 z) :
    Keeps ka kb kc s0 (State.portUp z pt) := by
  unfold State.portUp
  grind (ematch := 40) (gen := 40) (splits := 40) (instances := 20000) [Keeps.mk_, State.noteFold_keeps, State.rediscover_keeps, State.reform_keeps, State.sendFold_keeps, State.setKport_keeps, State.setRingState_keeps, State.set_keeps, State.tryDiscover_keeps]

theorem State.admitPort_keeps {ka kb kc : Bool} {s0 z : State} (pt : Nat) (hk : Keeps ka kb kc s0 z) :
    Keeps ka kb kc s0 (State.admitPort z pt) := by
  unfold State.admitPort
  grind [Keeps.mk_, State.portUp_keeps]

theorem State.admitLinks_keeps {ka kb kc : Bool} {s0 z : State}  (hk : Keeps ka kb kc s0 z) :
    Keeps ka kb kc s0 (State.admitLinks z) := by
  unfold State.admitLinks
  grind [Keeps.mk_, State.admitPort_keeps]

theorem State.sendAuth_keeps {ka kb kc : Bool} {s0 z : State} (pt : Nat) (msg : List Nat) (hk : Keeps ka kb kc s0 z) :
    Keeps ka kb kc s0 (State.sendAuth z pt msg) := by
  unfold State.sendAuth
  grind [Keeps.mk_, State.kelimOut_keeps]

theorem State.authStep_keeps {ka kb kc : Bool} {s0 z : State} (pt k : Nat) (hk : Keeps ka kb kc s0 z) :
    Keeps ka kb kc s0 (State.authStep z pt k) := by
  unfold State.authStep
  grind [Keeps.mk_, State.sendAuth_keeps, State.takeFresh_keeps]

theorem State.refuseLink_keeps {ka kb kc : Bool} {s0 z : State} (pt : Nat) (hk : Keeps ka kb kc s0 z) :
    Keeps ka kb kc s0 (State.refuseLink z pt) := by
  unfold State.refuseLink
  grind [Keeps.mk_, State.portLost_keeps, State.raise_keeps, State.set_keeps]

theorem State.authAnswer_keeps {ka kb kc : Bool} {s0 z : State} (pt : Nat) (ok : Bool) (digest : List Nat) (serial : Nat) (hk : Keeps ka kb kc s0 z) :
    Keeps ka kb kc s0 (State.authAnswer z pt ok digest serial) := by
  unfold State.authAnswer
  grind [Keeps.mk_, State.admitPort_keeps, State.authStep_keeps, State.refuseLink_keeps]

theorem State.startTrain_keeps {ka kb kc : Bool} {s0 z : State} (pt : Nat) (hk : Keeps ka kb kc s0 z) :
    Keeps ka kb kc s0 (State.startTrain z pt) := by
  unfold State.startTrain
  grind [Keeps.mk_, State.setKport_keeps]

theorem State.trainLane_keeps {ka kb kc : Bool} {s0 z : State} (l errors : Nat) (hk : Keeps ka kb kc s0 z) :
    Keeps ka kb kc s0 (State.trainLane z l errors) := by
  unfold State.trainLane
  grind (ematch := 40) (gen := 40) (splits := 40) (instances := 20000) [Keeps.mk_, State.sendKblock_keeps, State.setKlane_keeps]

theorem State.startKru_keeps {ka kb kc : Bool} {s0 z : State}  (hk : Keeps ka kb kc s0 z) :
    Keeps ka kb kc s0 (State.startKru z) := by
  unfold State.startKru
  grind [Keeps.mk_, State.set_keeps, State.startTrain_keeps, State.syncMember_keeps]

theorem State.stopKru_keeps {ka kb kc : Bool} {s0 z : State}  (hk : Keeps ka kb kc s0 z) :
    Keeps ka kb kc s0 (State.stopKru z) := by
  unfold State.stopKru
  grind (ematch := 40) (gen := 40) (splits := 40) (instances := 20000) [Keeps.mk_, State.dropTokens_keeps, State.setKport_keeps, State.set_keeps, State.syncMember_keeps]

theorem State.sendAlignReq_keeps {ka kb kc : Bool} {s0 z : State} (n : Nat) (t : Int) (hk : Keeps ka kb kc s0 z) :
    Keeps ka kb kc s0 (State.sendAlignReq z n t) := by
  unfold State.sendAlignReq
  grind [Keeps.mk_, State.ringSend_keeps, State.setKst_keeps]

theorem State.startAlign_keeps {ka kb kc : Bool} {s0 z : State} (n : Nat) (t : Int) (hk : Keeps ka kb kc s0 z) :
    Keeps ka kb kc s0 (State.startAlign z n t) := by
  unfold State.startAlign
  grind [Keeps.mk_, State.sendAlignReq_keeps, State.setKst_keeps, State.set_keeps]

theorem State.owedAligns_keeps {ka kb kc : Bool} {s0 z : State} (t : Int) (hk : Keeps ka kb kc s0 z) :
    Keeps ka kb kc s0 (State.owedAligns z t) := by
  unfold State.owedAligns
  grind [Keeps.mk_, State.each_keeps, State.sendAlignReq_keeps]

theorem State.setOffset_keeps {ka kb kc : Bool} {s0 z : State} (n : Nat) (o base : Int) (hk : Keeps ka kb kc s0 z) :
    Keeps ka kb kc s0 (State.setOffset z n o base) := by
  unfold State.setOffset
  grind [Keeps.mk_, State.setKst_keeps, State.setLst_keeps, State.setPos16_keeps]

theorem State.alignArmed_keeps {ka kb kc : Bool} {s0 z : State} (n : Nat) (o base t : Int) (hk : Keeps ka kb kc s0 z) :
    Keeps ka kb kc s0 (State.alignArmed z n o base t) := by
  unfold State.alignArmed
  grind [Keeps.mk_, State.enterSt_keeps, State.raise_keeps, State.setKst_keeps, State.setOffset_keeps, State.set_keeps, State.syncHeld_keeps, State.syncStore_keeps]

theorem State.alignAgain_keeps {ka kb kc : Bool} {s0 z : State} (n : Nat) (o base : Int) (hk : Keeps ka kb kc s0 z) :
    Keeps ka kb kc s0 (State.alignAgain z n o base) := by
  unfold State.alignAgain
  grind [Keeps.mk_, State.raise_keeps, State.setKst_keeps, State.setOffset_keeps, State.set_keeps]

theorem State.takeAlignSet_keeps {ka kb kc : Bool} {s0 z : State} (n : Nat) (c base t : Int) (hk : Keeps ka kb kc s0 z) :
    Keeps ka kb kc s0 (State.takeAlignSet z n c base t) := by
  unfold State.takeAlignSet
  grind (ematch := 40) (gen := 40) (splits := 40) (instances := 20000) [Keeps.mk_, State.alignAgain_keeps, State.alignArmed_keeps]

theorem State.checkAlign_keeps {ka kb kc : Bool} {s0 z : State} (n : Nat) (t : Int) (hk : Keeps ka kb kc s0 z) :
    Keeps ka kb kc s0 (State.checkAlign z n t) := by
  unfold State.checkAlign
  grind (ematch := 40) (gen := 40) (splits := 40) (instances := 20000) [Keeps.mk_, State.ringSend_keeps, State.takeAlignSet_keeps]

theorem State.sendHinge_keeps {ka kb kc : Bool} {s0 z : State} (n h : Nat) (vals : List Nat) (hk : Keeps ka kb kc s0 z) :
    Keeps ka kb kc s0 (State.sendHinge z n h vals) := by
  unfold State.sendHinge
  grind [Keeps.mk_, State.ringSend_keeps, State.setKst_keeps]

/-! ### MailOps -/

theorem State.setRing_keeps {ka kb kc : Bool} {s0 z : State} (r : Nat) (x : Ring) (hk : Keeps ka kb kc s0 z) :
    Keeps ka kb kc s0 (State.setRing z r x) := by
  unfold State.setRing
  grind [Keeps.mk_]

theorem State.takeCommand_keeps {ka kb kc : Bool} {s0 z : State} (r : Nat) (hk : Keeps ka kb kc s0 z) :
    Keeps ka kb kc s0 (State.takeCommand z r) := by
  unfold State.takeCommand
  grind [Keeps.mk_, State.setRing_keeps, State.set_keeps]

theorem State.respond_keeps {ka kb : Bool} {s0 z : State} (r op tag : Nat) (c : Status) (body : List Nat) (hk : Keeps ka kb false s0 z) :
    Keeps ka kb false s0 (State.respond z r op tag c body) := by
  unfold State.respond
  grind (ematch := 40) (gen := 40) (splits := 40) (instances := 20000) [Keeps.mk_, Keeps.mbox_, State.raise_keeps, State.set_keeps]

theorem State.respondRefused_keeps {ka kb : Bool} {s0 z : State} (r op tag : Nat) (c : Status) (addr detail : Nat) (hk : Keeps ka kb false s0 z) :
    Keeps ka kb false s0 (State.respondRefused z r op tag c addr detail) := by
  unfold State.respondRefused
  grind [Keeps.mk_, State.add_keeps, State.raise_keeps, State.respond_keeps, State.set_keeps]

theorem State.judged_keeps {ka kb kc : Bool} {s0 z : State} (r op : Nat) (e : CmdEnd) (hk : Keeps ka kb kc s0 z)
    (he : CmdEnd.Keeps ka kb kc s0 e) : CmdEnd.Keeps ka kb kc s0 (State.judged z r op e) := by
  unfold State.judged
  split
  · unfold CmdEnd.unless
    split
    · split <;> trivial
    · split
      · exact he
      · trivial
    · trivial
    · trivial
  · exact he

theorem State.waitRsp_keeps {ka kb kc : Bool} {s0 z : State} (r : Nat) (hk : Keeps ka kb kc s0 z) :
    Keeps ka kb kc s0 (State.waitRsp z r) := by
  unfold State.waitRsp
  grind [Keeps.mk_, State.set_keeps]

theorem State.command_keeps {ka kb : Bool} {s0 z : State} (r op : Nat) (act : State → CmdEnd) (hk : Keeps ka kb false s0 z)
    (hact : ∀ (x0 : State), Keeps ka kb false s0 x0 → CmdEnd.Keeps ka kb false s0 (act x0)) : Keeps ka kb false s0 (State.command z r op act) := by
  have he := State.judged_keeps r op (act z) hk (hact z hk)
  unfold State.command
  dsimp only
  split
  · split
    · split <;> rename_i h <;> rw [h] at he
      · exact State.respondRefused_keeps _ _ _ _ _ _ (State.takeCommand_keeps _ hk)
      · exact State.respondRefused_keeps _ _ _ _ _ _ (State.takeCommand_keeps _ he)
      · exact State.respond_keeps _ _ _ _ _ (State.takeCommand_keeps _ he)
      · exact State.setRing_keeps _ _ (State.takeCommand_keeps _ he)
    · exact State.waitRsp_keeps _ hk
  · exact hk

theorem State.endRun_keeps {ka kb : Bool} {s0 z : State} (r : Nat) (c : Status) (body : List Nat) (hk : Keeps ka kb false s0 z) :
    Keeps ka kb false s0 (State.endRun z r c body) := by
  unfold State.endRun
  grind [Keeps.mk_, State.respondRefused_keeps, State.respond_keeps, State.setRing_keeps]

theorem State.endRunning_keeps {ka kb : Bool} {s0 z : State} (r : Nat) (kind : Nat → Bool) (hk : Keeps ka kb false s0 z) :
    Keeps ka kb false s0 (State.endRunning z r kind) := by
  unfold State.endRunning
  grind (ematch := 40) (gen := 40) (splits := 40) (instances := 20000) [Keeps.mk_, State.endRun_keeps]

/-! ### FabricOps -/

theorem State.portWord_keeps {ka kb kc : Bool} {s0 z : State} (q : Nat) (hk : Keeps ka kb kc s0 z) :
    Keeps ka kb kc s0 (State.portWord z q).2 := by
  unfold State.portWord
  grind [Keeps.mk_, State.readWord_keeps]

theorem State.portTake_keeps {ka kb kc : Bool} {s0 z : State} (q : Nat) (hk : Keeps ka kb kc s0 z) :
    Keeps ka kb kc s0 (State.portTake z q) := by
  unfold State.portTake
  grind [Keeps.mk_, State.setQueue_keeps]

theorem State.modCell_keeps {ka kb kc : Bool} {s0 z : State} (e c : Nat) (f : Cell → Cell) (hk : Keeps ka kb kc s0 z) :
    Keeps ka kb kc s0 (State.modCell z e c f) := by
  unfold State.modCell
  grind [Keeps.mk_, State.setEngine_keeps]

theorem State.modEngine_keeps {ka kb kc : Bool} {s0 z : State} (e : Nat) (f : Engine → Engine) (hk : Keeps ka kb kc s0 z) :
    Keeps ka kb kc s0 (State.modEngine z e f) := by
  unfold State.modEngine
  grind [Keeps.mk_, State.setEngine_keeps]

theorem State.leadHeader_keeps {ka kb kc : Bool} {s0 z : State} (e w : Nat) (degraded : Bool) (hk : Keeps ka kb kc s0 z) :
    Keeps ka kb kc s0 (State.leadHeader z e w degraded) := by
  unfold State.leadHeader
  grind [Keeps.mk_, State.each_keeps, State.issueToken_keeps, State.modEngine_keeps, State.seqStep_keeps, State.skipBands_keeps]

theorem State.closeLead_keeps {ka kb kc : Bool} {s0 z : State} (e i : Nat) (last : Bool) (b : Nat) (hk : Keeps ka kb kc s0 z) :
    Keeps ka kb kc s0 (State.closeLead z e i last b) := by
  unfold State.closeLead
  grind [Keeps.mk_, State.modEngine_keeps]

theorem State.fireInput_keeps {ka kb kc : Bool} {s0 z : State} (e i : Nat) (hk : Keeps ka kb kc s0 z) :
    Keeps ka kb kc s0 (State.fireInput z e i) := by
  unfold State.fireInput
  grind (ematch := 40) (gen := 40) (splits := 40) (instances := 20000) [Keeps.mk_, State.closeLead_keeps, State.faultEngine_keeps, State.leadHeader_keeps, State.modCell_keeps, State.modEngine_keeps, State.portTake_keeps, State.portWord_keeps, State.retireVoids_keeps]

theorem State.discardInput_keeps {ka kb kc : Bool} {s0 z : State} (e i : Nat) (hk : Keeps ka kb kc s0 z) :
    Keeps ka kb kc s0 (State.discardInput z e i) := by
  unfold State.discardInput
  grind (ematch := 40) (gen := 40) (splits := 40) (instances := 20000) [Keeps.mk_, State.issueToken_keeps, State.modCell_keeps, State.modEngine_keeps, State.portTake_keeps, State.portWord_keeps, State.retireVoids_keeps, State.skipBands_keeps]

theorem State.outMark_keeps {ka kb kc : Bool} {s0 z : State} (e i : Nat) (void : Bool) (hk : Keeps ka kb kc s0 z) :
    Keeps ka kb kc s0 (State.outMark z e i void) := by
  unfold State.outMark
  grind [Keeps.mk_, State.count_keeps, State.modCell_keeps, State.passMark_keeps, State.presentItem_keeps]

theorem State.outRecord_keeps {ka kb kc : Bool} {s0 z : State} (e i : Nat) (words : List Nat) (hk : Keeps ka kb kc s0 z) :
    Keeps ka kb kc s0 (State.outRecord z e i words) := by
  unfold State.outRecord
  grind [Keeps.mk_, State.count_keeps, State.presentItem_keeps]

theorem State.fireOutput_keeps {ka kb kc : Bool} {s0 z : State} (e i : Nat) (hk : Keeps ka kb kc s0 z) :
    Keeps ka kb kc s0 (State.fireOutput z e i) := by
  unfold State.fireOutput
  grind (ematch := 40) (gen := 40) (splits := 40) (instances := 20000) [Keeps.mk_, State.modCell_keeps, State.modEngine_keeps, State.outMark_keeps, State.outRecord_keeps, State.presentWords_keeps]

theorem State.countFiring_keeps {ka kb kc : Bool} {s0 z : State} (e c : Nat) (hk : Keeps ka kb kc s0 z) :
    Keeps ka kb kc s0 (State.countFiring z e c) := by
  unfold State.countFiring
  grind [Keeps.mk_, State.add_keeps, State.setEngine_keeps]

/-! ### ReloadOps -/

theorem State.syncCombo_keeps {ka kb kc : Bool} {s0 z : State}  (hk : Keeps ka kb kc s0 z) :
    Keeps ka kb kc s0 (State.syncCombo z) := by
  unfold State.syncCombo
  grind [Keeps.mk_, State.raise_keeps, State.set_keeps]

theorem State.setUnverified_keeps {ka kb kc : Bool} {s0 z : State} (v : Bool) (hk : Keeps ka kb kc s0 z) :
    Keeps ka kb kc s0 (State.setUnverified z v) := by
  unfold State.setUnverified
  grind [Keeps.mk_, State.set_keeps, State.syncCombo_keeps]

theorem State.imageRefused_keeps {ka kb kc : Bool} {s0 z : State} (f : ImgFail) (hk : Keeps ka kb kc s0 z) :
    Keeps ka kb kc s0 (State.imageRefused z f) := by
  unfold State.imageRefused
  grind (ematch := 40) (gen := 40) (splits := 40) (instances := 20000) [Keeps.mk_, State.add_keeps, State.set_keeps]

theorem State.imageOk_keeps {ka kb kc : Bool} {s0 z : State}  (hk : Keeps ka kb kc s0 z) :
    Keeps ka kb kc s0 (State.imageOk z) := by
  unfold State.imageOk
  grind [Keeps.mk_, State.set_keeps]

theorem State.setDigest_keeps {ka kb kc : Bool} {s0 z : State} (d : List Nat) (hk : Keeps ka kb kc s0 z) :
    Keeps ka kb kc s0 (State.setDigest z d) := by
  unfold State.setDigest
  grind [Keeps.mk_, State.each_keeps, State.set_keeps, State.syncMeas_keeps]

theorem State.unbind_keeps {ka kb kc : Bool} {s0 z : State} (e : Nat) (hk : Keeps ka kb kc s0 z) :
    Keeps ka kb kc s0 (State.unbind z e) := by
  unfold State.unbind
  grind (ematch := 40) (gen := 40) (splits := 40) (instances := 20000) [Keeps.mk_, State.each_keeps, State.resetEngine_keeps, State.setEngState_keeps, State.setEngine_keeps, State.set_keeps]

theorem State.configEngine_keeps {ka kb kc : Bool} {s0 z : State} (m : Image) (t : Topo) (hk : Keeps ka kb kc s0 z) :
    Keeps ka kb kc s0 (State.configEngine z m t) := by
  unfold State.configEngine
  grind (ematch := 40) (gen := 40) (splits := 40) (instances := 20000) [Keeps.mk_, State.each_keeps, State.setEngine_keeps, State.set_keeps]

theorem State.syncOvf_keeps {ka kb kc : Bool} {s0 z : State}  (hk : Keeps ka kb kc s0 z) :
    Keeps ka kb kc s0 (State.syncOvf z) := by
  unfold State.syncOvf
  grind [Keeps.mk_, State.set_keeps]

theorem State.configMapped_keeps {ka kb kc : Bool} {s0 z : State} (m : Image) (q : QMap) (hk : Keeps ka kb kc s0 z) :
    Keeps ka kb kc s0 (State.configMapped z m q) := by
  unfold State.configMapped
  grind [Keeps.mk_, State.configQueue_keeps, State.disableQueue_keeps]

theorem State.writeLeaves_keeps {ka kc : Bool} {s0 z : State} (m : Image) (hk : Keeps ka false kc s0 z) :
    Keeps ka false kc s0 (State.writeLeaves z m) := by
  unfold State.writeLeaves
  grind (ematch := 40) (gen := 40) (splits := 40) (instances := 20000) [Keeps.mk_, State.each_keeps, State.putLeaf_keeps, State.set_keeps]

theorem State.commitImage_keeps {ka kc : Bool} {s0 z : State} (m : Image) (policy : Bool) (hk : Keeps ka false kc s0 z) :
    Keeps ka false kc s0 (State.commitImage z m policy) := by
  unfold State.commitImage
  grind (ematch := 40) (gen := 40) (splits := 40) (instances := 20000) [Keeps.mk_, State.configEngine_keeps, State.configMapped_keeps, State.disableQueue_keeps, State.each_keeps, State.imageOk_keeps, State.loadEngine_keeps, State.reloadStore_keeps, State.setDigest_keeps, State.setUnverified_keeps, State.set_keeps, State.syncDev_keeps, State.syncOvf_keeps, State.unbind_keeps, State.writeLeaves_keeps]

theorem State.takeReload_keeps {ka kb kc : Bool} {s0 z : State} (m : Image) (running : Bool) (hk : Keeps ka kb kc s0 z) :
    Keeps ka kb kc s0 (State.takeReload z m running) := by
  unfold State.takeReload
  grind (ematch := 40) (gen := 40) (splits := 40) (instances := 20000) [Keeps.mk_, State.add_keeps, State.configEngine_keeps, State.configMapped_keeps, State.each_keeps, State.enableQueue_keeps, State.freshWriter_keeps, State.loadEngine_keeps, State.reloadStore_keeps, State.runEngine_keeps, State.setDigest_keeps, State.setSto_keeps, State.set_keeps, State.syncOvf_keeps, State.syncStore_keeps]

theorem State.stageReload_keeps {ka kb kc : Bool} {s0 z : State} (m : Image) (hk : Keeps ka kb kc s0 z) :
    Keeps ka kb kc s0 (State.stageReload z m) := by
  unfold State.stageReload
  grind (ematch := 40) (gen := 40) (splits := 40) (instances := 20000) [Keeps.mk_, State.imageOk_keeps, State.imageRefused_keeps, State.setSto_keeps, State.setUnverified_keeps, State.set_keeps, State.syncStore_keeps, State.takeReload_keeps]

theorem State.checkReload_keeps {ka kb kc : Bool} {s0 z : State}  (hk : Keeps ka kb kc s0 z) :
    Keeps ka kb kc s0 (State.checkReload z) := by
  unfold State.checkReload
  grind [Keeps.mk_, State.each_keeps, State.flushOpen_keeps, State.setEngState_keeps, State.setSto_keeps, State.set_keeps]

end Sys2Proof.Machine
end

