-- ==== Sys2Proof/Laws/KeepsRuns.lean ====
section
/-! SUPPORT. What every shared operation of runs, restarts, boot and registers keeps, one lemma an operation. -/

set_option maxHeartbeats 400000

open Sys2Proof

namespace Sys2Proof.Machine
/-! ### StationOps -/

theorem State.autoDisable_keeps {ka kb kc : Bool} {s0 z : State} (q : Nat) (hk : Keeps ka kb kc s0 z) :
    Keeps ka kb kc s0 (State.autoDisable z q) := by
  unfold State.autoDisable
  grind [Keeps.mk_, State.disableQueue_keeps]

theorem State.dropProducts_keeps {ka kb kc : Bool} {s0 z : State} (n : Nat) (hk : Keeps ka kb kc s0 z) :
    Keeps ka kb kc s0 (State.dropProducts z n) := by
  unfold State.dropProducts
  grind [Keeps.mk_, State.each_keeps, State.setProd_keeps, State.set_keeps]

theorem State.dropStaged_keeps {ka kb kc : Bool} {s0 z : State} (n : Nat) (hk : Keeps ka kb kc s0 z) :
    Keeps ka kb kc s0 (State.dropStaged z n) := by
  unfold State.dropStaged
  grind [Keeps.mk_, State.setStation_keeps, State.set_keeps]

theorem State.ringIdled_keeps {ka kb kc : Bool} {s0 z : State} (n : Nat) (hk : Keeps ka kb kc s0 z) :
    Keeps ka kb kc s0 (State.ringIdled z n) := by
  unfold State.ringIdled
  grind [Keeps.mk_, State.admitLinks_keeps, State.setKst_keeps]

theorem State.freeAxis_keeps {ka kb kc : Bool} {s0 z : State} (n : Nat) (hk : Keeps ka kb kc s0 z) :
    Keeps ka kb kc s0 (State.freeAxis z n) := by
  unfold State.freeAxis
  grind [Keeps.mk_, State.axisStop_keeps, State.setAxis_keeps]

theorem State.idleEntry_keeps {ka kb kc : Bool} {s0 z : State} (n : Nat) (hk : Keeps ka kb kc s0 z) :
    Keeps ka kb kc s0 (State.idleEntry z n) := by
  unfold State.idleEntry
  grind (ematch := 40) (gen := 40) (splits := 40) (instances := 20000) [Keeps.mk_, State.autoDisable_keeps, State.dropBanks_keeps, State.dropProducts_keeps, State.dropStaged_keeps, State.dropSwaps_keeps, State.each_keeps, State.enterSt_keeps, State.freeAxis_keeps, State.loadEngine_keeps, State.ringIdled_keeps, State.setStation_keeps, State.setSto_keeps, State.set_keeps, State.syncAlignStore_keeps, State.syncHeld_keeps, State.takeReload_keeps, State.withdrawMatch_keeps]

theorem State.flushAll_keeps {ka kb kc : Bool} {s0 z : State} (q : Nat) (hk : Keeps ka kb kc s0 z) :
    Keeps ka kb kc s0 (State.flushAll z q) := by
  unfold State.flushAll
  grind [Keeps.mk_, State.flushOpen_keeps, State.setQueue_keeps]

theorem State.dropLines_keeps {ka kb kc : Bool} {s0 z : State} (n : Nat) (hk : Keeps ka kb kc s0 z) :
    Keeps ka kb kc s0 (State.dropLines z n) := by
  unfold State.dropLines
  grind [Keeps.mk_, State.each_keeps, State.setHead_keeps]

theorem State.abortStation_keeps {ka kb kc : Bool} {s0 z : State} (n : Nat) (hk : Keeps ka kb kc s0 z) :
    Keeps ka kb kc s0 (State.abortStation z n) := by
  unfold State.abortStation
  grind [Keeps.mk_, State.dropLines_keeps, State.each_keeps, State.flushAll_keeps, State.freshWriter_keeps, State.idleEntry_keeps, State.set_keeps]

theorem State.finishAborts_keeps {ka kb : Bool} {s0 z : State}  (hk : Keeps ka kb false s0 z) :
    Keeps ka kb false s0 (State.finishAborts z) := by
  unfold State.finishAborts
  grind [Keeps.mk_, State.each_keeps, State.endRun_keeps]

theorem State.enterFault_keeps {ka kb : Bool} {s0 z : State} (cause st : Nat) (hk : Keeps ka kb false s0 z) :
    Keeps ka kb false s0 (State.enterFault z cause st) := by
  unfold State.enterFault
  grind [Keeps.mk_, State.abortStation_keeps, State.each_keeps, State.endRunning_keeps, State.raise_keeps, State.setDev_keeps, State.set_keeps]

theorem State.checkDrained_keeps {ka kb kc : Bool} {s0 z : State} (n : Nat) (hk : Keeps ka kb kc s0 z) :
    Keeps ka kb kc s0 (State.checkDrained z n) := by
  unfold State.checkDrained
  grind [Keeps.mk_, State.idleEntry_keeps]

theorem State.enterDrain_keeps {ka kb kc : Bool} {s0 z : State} (n : Nat) (f : Option Nat) (hk : Keeps ka kb kc s0 z) :
    Keeps ka kb kc s0 (State.enterDrain z n f) := by
  unfold State.enterDrain
  grind (ematch := 40) (gen := 40) (splits := 40) (instances := 20000) [Keeps.mk_, State.checkDrained_keeps, State.enterSt_keeps, State.idleEntry_keeps, State.setStation_keeps, State.setSto_keeps, State.set_keeps, State.syncHeld_keeps, State.syncStore_keeps, State.withdrawMatch_keeps]

theorem State.markLate_keeps {ka kb kc : Bool} {s0 z : State} (n b : Nat) (hk : Keeps ka kb kc s0 z) :
    Keeps ka kb kc s0 (State.markLate z n b) := by
  unfold State.markLate
  grind [Keeps.mk_, State.raise_keeps, State.setSeal_keeps, State.set_keeps]

theorem State.sealBand_keeps {ka kb kc : Bool} {s0 z : State} (n b : Nat) (t : Int) (audited : Bool) (hk : Keeps ka kb kc s0 z) :
    Keeps ka kb kc s0 (State.sealBand z n b t audited) := by
  unfold State.sealBand
  grind (ematch := 40) (gen := 40) (splits := 40) (instances := 20000) [Keeps.mk_, State.add_keeps, State.checkDrained_keeps, State.countRecords_keeps, State.count_keeps, State.markLate_keeps, State.raise_keeps, State.setSat_keeps, State.setSeal_keeps, State.set_keeps, State.snapshot_keeps, State.syncHeld_keeps]

/-! ### RestartOps -/

theorem State.loseUnit_keeps {kb kc : Bool} {s0 z : State} (a size u : Nat) (hk : Keeps false kb kc s0 z) :
    Keeps false kb kc s0 (State.loseUnit z a size u) := by
  unfold State.loseUnit
  grind [Keeps.mk_, Keeps.hbm_]

theorem State.markLost_keeps {kb kc : Bool} {s0 z : State} (n home : Nat) (hk : Keeps false kb kc s0 z) :
    Keeps false kb kc s0 (State.markLost z n home) := by
  unfold State.markLost
  grind [Keeps.mk_, Keeps.hbm_, State.count_keeps]

theorem State.slotError_keeps {kb kc : Bool} {s0 z : State} (n home : Nat) (e : HbmErr) (hk : Keeps false kb kc s0 z) :
    Keeps false kb kc s0 (State.slotError z n home e) := by
  unfold State.slotError
  cases e with
  | none => exact hk
  | corrected => exact State.addSat_keeps _ _ _ _ hk
  | uncorrectable u =>
    dsimp only
    split
    · exact hk
    · exact State.raise_keeps _ (State.addSat_keeps _ _ _ _ (State.markLost_keeps _ _
        (State.each_keeps _ _ hk fun _ _ h => State.loseUnit_keeps _ _ _ h)))

theorem State.windowError_keeps {kb kc : Bool} {s0 z : State} (e : HbmErr) (hk : Keeps false kb kc s0 z) :
    Keeps false kb kc s0 (State.windowError z e) := by
  unfold State.windowError
  grind [Keeps.mk_, State.addSat_keeps, State.each_keeps, State.slotError_keeps]

theorem State.sstDesc_keeps {ka kb kc : Bool} {s0 z : State} (n w : Nat) (p0 : Nat) (hk : Keeps ka kb kc s0 z) :
    Keeps ka kb kc s0 (State.sstDesc z n w p0).2 := by
  induction p0 generalizing z <;> grind [State.sstDesc, Keeps.mk_, State.setSto_keeps, State.takeDescriptor_keeps]

theorem State.lineDesc_keeps {ka kb kc : Bool} {s0 z : State} (n w : Nat) (hk : Keeps ka kb kc s0 z) :
    Keeps ka kb kc s0 (State.lineDesc z n w).2 := by
  unfold State.lineDesc
  grind [Keeps.mk_, State.setSto_keeps, State.sstDesc_keeps]

theorem State.takeLine_keeps {ka kb kc : Bool} {s0 z : State} (n : Nat) (hk : Keeps ka kb kc s0 z) :
    Keeps ka kb kc s0 (State.takeLine z n).2 := by
  unfold State.takeLine
  grind [Keeps.mk_, State.lineDesc_keeps, State.takeItem_keeps]

theorem State.countLine_keeps {ka kb kc : Bool} {s0 z : State} (n b flags : Nat) (hk : Keeps ka kb kc s0 z) :
    Keeps ka kb kc s0 (State.countLine z n b flags) := by
  unfold State.countLine
  grind [Keeps.mk_, State.count_keeps]

theorem State.putLine_keeps {kb kc : Bool} {s0 z : State} (n flags : Nat) (samples : List Nat) (hk : Keeps false kb kc s0 z) :
    Keeps false kb kc s0 (State.putLine z n flags samples) := by
  unfold State.putLine
  grind (ematch := 40) (gen := 40) (splits := 40) (instances := 20000) [Keeps.mk_, State.countLine_keeps, State.overrun_keeps, State.sendScale_keeps, State.setSto_keeps, State.set_keeps, State.shedAll_keeps, State.syncStore_keeps, State.writeSlot_keeps]

theorem State.showSeam_keeps {ka kb kc : Bool} {s0 z : State} (n : Nat) (r : Nat × Nat × Nat) (hk : Keeps ka kb kc s0 z) :
    Keeps ka kb kc s0 (State.showSeam z n r) := by
  unfold State.showSeam
  grind [Keeps.mk_, State.raise_keeps, State.set_keeps]

theorem State.handHistory_keeps {ka kb kc : Bool} {s0 z : State} (n : Nat) (hk : Keeps ka kb kc s0 z) :
    Keeps ka kb kc s0 (State.handHistory z n) := by
  unfold State.handHistory
  grind [Keeps.mk_, State.each_keeps, State.setProd_keeps]

theorem State.seamCheck_keeps {kb kc : Bool} {s0 z : State} (n : Nat) (es : List (Nat × HbmErr)) (hk : Keeps false kb kc s0 z) :
    Keeps false kb kc s0 (State.seamCheck z n es) := by
  unfold State.seamCheck
  grind [Keeps.mk_, State.each_keeps, State.handHistory_keeps, State.setSto_keeps, State.showSeam_keeps, State.slotError_keeps, State.syncPages_keeps]

theorem State.overlapLine_keeps {kb kc : Bool} {s0 z : State} (n w flags : Nat) (samples : List Nat) (es : List (Nat × HbmErr)) (hk : Keeps false kb kc s0 z) :
    Keeps false kb kc s0 (State.overlapLine z n w flags samples es) := by
  unfold State.overlapLine
  grind [Keeps.mk_, State.seamCheck_keeps, State.setSto_keeps, State.set_keeps, State.syncPages_keeps, State.writeSlot_keeps]

theorem State.closeRestart_keeps {ka kb kc : Bool} {s0 z : State} (n : Nat) (hk : Keeps ka kb kc s0 z) :
    Keeps ka kb kc s0 (State.closeRestart z n).2 := by
  unfold State.closeRestart
  grind [Keeps.mk_, State.add_keeps, State.handHistory_keeps, State.setSto_keeps, State.set_keeps, State.showSeam_keeps, State.sstSeam_keeps]

theorem State.fillGap_keeps {kb kc : Bool} {s0 z : State} (n mark : Nat) (p0 : Nat) (hk : Keeps false kb kc s0 z) : Keeps false kb kc s0 (State.fillGap z n mark p0) := by
  induction p0 generalizing z mark with
  | zero => exact hk
  | succ k ih => exact ih _ (State.putLine_keeps _ _ _ hk)

theorem State.storeLine_keeps {kb kc : Bool} {s0 z : State} (n w flags : Nat) (samples : List Nat) (es : List (Nat × HbmErr)) (hk : Keeps false kb kc s0 z) :
    Keeps false kb kc s0 (State.storeLine z n w flags samples es) := by
  unfold State.storeLine
  grind [Keeps.mk_, State.closeRestart_keeps, State.fillGap_keeps, State.overlapLine_keeps, State.putLine_keeps]

theorem State.advanceQueue_keeps {ka kb kc : Bool} {s0 z : State} (n q l : Nat) (hk : Keeps ka kb kc s0 z) :
    Keeps ka kb kc s0 (State.advanceQueue z n q l) := by
  unfold State.advanceQueue
  grind [Keeps.mk_, State.setSto_keeps, State.syncStore_keeps]

/-! ### ProductOps -/

theorem State.applyLeaves_keeps {ka kb kc : Bool} {s0 z : State} (q l : Nat) (hk : Keeps ka kb kc s0 z) :
    Keeps ka kb kc s0 (State.applyLeaves z q l) := by
  unfold State.applyLeaves
  grind [Keeps.mk_, State.set_keeps]

theorem State.takeHistory_keeps {ka kb kc : Bool} {s0 z : State} (n q l : Nat) (hk : Keeps ka kb kc s0 z) :
    Keeps ka kb kc s0 (State.takeHistory z n q l) := by
  unfold State.takeHistory
  grind [Keeps.mk_, State.setProd_keeps]

theorem State.readProduct_keeps {ka kb kc : Bool} {s0 z : State} (n q l : Nat) (hk : Keeps ka kb kc s0 z) :
    Keeps ka kb kc s0 (State.readProduct z n q l) := by
  unfold State.readProduct
  grind [Keeps.mk_, State.applyLeaves_keeps, State.setProd_keeps, State.takeHistory_keeps]

theorem State.advanceProduct_keeps {ka kb kc : Bool} {s0 z : State} (n q l : Nat) (hk : Keeps ka kb kc s0 z) :
    Keeps ka kb kc s0 (State.advanceProduct z n q l) := by
  unfold State.advanceProduct
  grind [Keeps.mk_, State.setProd_keeps, State.setSto_keeps, State.syncStore_keeps]

theorem State.productStep_keeps {kb kc : Bool} {s0 z : State} (n q : Nat) (e : HbmErr) (hk : Keeps false kb kc s0 z) : Keeps false kb kc s0 (State.productStep z n q e) := by
  unfold State.productStep
  extract_lets l k s1 x taps cost s2 s3
  have h1 : Keeps false kb kc s0 s1 := State.readProduct_keeps _ _ _ (State.slotError_keeps _ _ _ hk)
  have h3 : Keeps false kb kc s0 s3 := Keeps.fresh_ (State.presentItem_keeps _ _ h1) _
  split
  · exact hk
  · split
    · exact State.advanceProduct_keeps _ _ _ hk
    · split
      · exact hk
      · split
        · split
          · exact State.advanceProduct_keeps _ _ _ h3
          · exact State.setProd_keeps _ _ h3
        · exact State.advanceProduct_keeps _ _ _ h1

/-! ### RingOps -/

theorem State.ringAuditFail_keeps {ka kb kc : Bool} {s0 z : State} (bit : Fld) (hk : Keeps ka kb kc s0 z) :
    Keeps ka kb kc s0 (State.ringAuditFail z bit) := by
  unfold State.ringAuditFail
  grind [Keeps.mk_, State.auditFail_keeps, State.raise_keeps, State.set_keeps]

theorem State.ringAuditFails_keeps {ka kb kc : Bool} {s0 z : State} (bits : List Fld) (hk : Keeps ka kb kc s0 z) :
    Keeps ka kb kc s0 (State.ringAuditFails z bits) := by
  unfold State.ringAuditFails
  grind [Keeps.mk_, State.auditFail_keeps, State.each_keeps, State.raise_keeps, State.set_keeps]

theorem State.auditToken_keeps {ka kb kc : Bool} {s0 z : State} (n : Nat) (k : KTok) (countBad : Bool) (hk : Keeps ka kb kc s0 z) :
    Keeps ka kb kc s0 (State.auditToken z n k countBad).2 := by
  unfold State.auditToken
  grind [Keeps.mk_, State.auditPass_keeps, State.countBad_keeps, State.ringAuditFails_keeps]

theorem State.sealNext_keeps {ka kb kc : Bool} {s0 z : State} (n b : Nat) (t : Int) (hk : Keeps ka kb kc s0 z) :
    Keeps ka kb kc s0 (State.sealNext z n b t) := by
  unfold State.sealNext
  grind [Keeps.mk_, State.sealBand_keeps, State.setSeal_keeps]

theorem State.sealLate_keeps {ka kb kc : Bool} {s0 z : State} (n : Nat) (t : Int) (p0 : Nat) (hk : Keeps ka kb kc s0 z) :
    Keeps ka kb kc s0 (State.sealLate z n t p0) := by
  induction p0 generalizing z <;> grind [State.sealLate, Keeps.mk_, State.sealNext_keeps, State.setKst_keeps]

theorem State.sealRing_keeps {ka kb kc : Bool} {s0 z : State} (n b : Nat) (t : Int) (hk : Keeps ka kb kc s0 z) :
    Keeps ka kb kc s0 (State.sealRing z n b t) := by
  unfold State.sealRing
  grind [Keeps.mk_, State.sealLate_keeps, State.setKst_keeps]

theorem State.passHeld_keeps {ka kb kc : Bool} {s0 z : State} (n : Nat) (t : Int) (p0 : List KTok) (hk : Keeps ka kb kc s0 z) :
    Keeps ka kb kc s0 (State.passHeld z n t p0) := by
  induction p0 generalizing z <;> grind [State.passHeld, Keeps.mk_, State.count_keeps, State.sealRing_keeps, State.sendToken_keeps, State.setKst_keeps]

theorem State.moveTokens_keeps {ka kb kc : Bool} {s0 z : State} (n : Nat) (t : Int) (hk : Keeps ka kb kc s0 z) :
    Keeps ka kb kc s0 (State.moveTokens z n t) := by
  unfold State.moveTokens
  grind [Keeps.mk_, State.issueTokens_keeps, State.passHeld_keeps]

theorem State.tokenHome_keeps {ka kb kc : Bool} {s0 z : State} (n : Nat) (k : KTok) (t : Int) (hk : Keeps ka kb kc s0 z) :
    Keeps ka kb kc s0 (State.tokenHome z n k t) := by
  unfold State.tokenHome
  grind [Keeps.mk_, State.add_keeps, State.auditToken_keeps, State.count_keeps, State.issueTokens_keeps, State.moveTokens_keeps, State.setKst_keeps, State.syncFlight_keeps]

theorem State.tokenPass_keeps {ka kb kc : Bool} {s0 z : State} (n src : Nat) (k : KTok) (t : Int) (hk : Keeps ka kb kc s0 z) :
    Keeps ka kb kc s0 (State.tokenPass z n src k t) := by
  unfold State.tokenPass
  grind [Keeps.mk_, State.auditToken_keeps, State.moveTokens_keeps, State.sealRing_keeps, State.sendToken_keeps, State.setKst_keeps]

theorem State.reissueTokens_keeps {ka kb kc : Bool} {s0 z : State}  (hk : Keeps ka kb kc s0 z) :
    Keeps ka kb kc s0 (State.reissueTokens z) := by
  unfold State.reissueTokens
  grind [Keeps.mk_, State.each_keeps, State.issueTokens_keeps]

theorem State.alignFail_keeps {ka kb kc : Bool} {s0 z : State} (n : Nat) (c : Nat) (hk : Keeps ka kb kc s0 z) :
    Keeps ka kb kc s0 (State.alignFail z n c) := by
  unfold State.alignFail
  grind (ematch := 40) (gen := 40) (splits := 40) (instances := 20000) [Keeps.mk_, State.idleEntry_keeps, State.setKst_keeps, State.set_keeps]

/-! ### VcoreOps -/

theorem State.stageChange_keeps {ka kb kc : Bool} {s0 z : State} (n h mask : Nat) (vals : List Nat) (hk : Keeps ka kb kc s0 z) :
    Keeps ka kb kc s0 (State.stageChange z n h mask vals).1 := by
  unfold State.stageChange
  grind [Keeps.mk_, State.sendHinge_keeps, State.setStation_keeps, State.set_keeps]

theorem State.addHinge_keeps {ka kb kc : Bool} {s0 z : State} (n h : Nat) (hk : Keeps ka kb kc s0 z) :
    Keeps ka kb kc s0 (State.addHinge z n h) := by
  unfold State.addHinge
  grind [Keeps.mk_]

theorem State.finishStage_keeps {ka kb : Bool} {s0 z : State} (r : Nat) (hk : Keeps ka kb false s0 z) :
    Keeps ka kb false s0 (State.finishStage z r) := by
  unfold State.finishStage
  grind [Keeps.mk_, State.addHinge_keeps, State.endRun_keeps, State.stageChange_keeps]

theorem State.finishImage_keeps {ka kb kc : Bool} {s0 z : State}  (hk : Keeps ka kb kc s0 z) :
    Keeps ka kb kc s0 (State.finishImage z) := by
  unfold State.finishImage
  grind [Keeps.mk_, State.addHinge_keeps, State.stageReload_keeps]

theorem State.bootStage4_keeps {ka kb kc : Bool} {s0 z : State}  (hk : Keeps ka kb kc s0 z) :
    Keeps ka kb kc s0 (State.bootStage4 z) := by
  unfold State.bootStage4
  grind [Keeps.mk_, State.set_keeps]

theorem State.completeWaits_keeps {ka kb : Bool} {s0 z : State}  (hk : Keeps ka kb false s0 z) :
    Keeps ka kb false s0 (State.completeWaits z) := by
  unfold State.completeWaits
  grind (ematch := 40) (gen := 40) (splits := 40) (instances := 20000) [Keeps.mk_, State.bootStage4_keeps, State.each_keeps, State.finishImage_keeps, State.finishStage_keeps]

theorem State.failWaits_keeps {ka kb : Bool} {s0 z : State}  (hk : Keeps ka kb false s0 z) :
    Keeps ka kb false s0 (State.failWaits z) := by
  unfold State.failWaits
  grind (ematch := 40) (gen := 40) (splits := 40) (instances := 20000) [Keeps.mk_, State.each_keeps, State.endRun_keeps, State.imageRefused_keeps, State.set_keeps]

theorem State.bootVcoreFail_keeps {ka kb kc : Bool} {s0 z : State}  (hk : Keeps ka kb kc s0 z) :
    Keeps ka kb kc s0 (State.bootVcoreFail z) := by
  unfold State.bootVcoreFail
  grind [Keeps.mk_, State.bootStage4_keeps, State.set_keeps]

theorem State.raiseVmax_keeps {ka kb kc : Bool} {s0 z : State} (w : VWait) (hk : Keeps ka kb kc s0 z) :
    Keeps ka kb kc s0 (State.raiseVmax z w) := by
  unfold State.raiseVmax
  grind [Keeps.mk_, State.writeVset_keeps]

theorem State.startWindow_keeps {ka kb kc : Bool} {s0 z : State}  (hk : Keeps ka kb kc s0 z) :
    Keeps ka kb kc s0 (State.startWindow z) := by
  unfold State.startWindow
  grind [Keeps.mk_]

theorem State.writeRate_keeps {ka kb kc : Bool} {s0 z : State} (d : Nat) (hk : Keeps ka kb kc s0 z) : Keeps ka kb kc s0 (State.writeRate z d) := by
  unfold State.writeRate
  dsimp only
  split
  · exact State.set_keeps _ _ _ _ hk
  · exact State.set_keeps _ _ _ _ (State.setSat_keeps _ _ _ _ hk)

theorem State.findDeficits_keeps {ka kb kc : Bool} {s0 z : State}  (hk : Keeps ka kb kc s0 z) :
    Keeps ka kb kc s0 (State.findDeficits z) := by
  unfold State.findDeficits
  grind [Keeps.mk_, State.each_keeps, State.raise_keeps]

theorem State.moveCaps_keeps {ka kb kc : Bool} {s0 z : State} (t : Int) (hk : Keeps ka kb kc s0 z) :
    Keeps ka kb kc s0 (State.moveCaps z t) := by
  unfold State.moveCaps
  grind [Keeps.mk_, State.checkStop_keeps, State.each_keeps, State.set_keeps, State.syncStore_keeps]

theorem State.shedWeb_keeps {ka kb kc : Bool} {s0 z : State}  (hk : Keeps ka kb kc s0 z) :
    Keeps ka kb kc s0 (State.shedWeb z) := by
  unfold State.shedWeb
  grind [Keeps.mk_, State.each_keeps, State.shedTurn_keeps]

theorem State.passHinges_keeps {ka kb kc : Bool} {s0 z : State}  (hk : Keeps ka kb kc s0 z) :
    Keeps ka kb kc s0 (State.passHinges z) := by
  unfold State.passHinges
  grind [Keeps.mk_]

theorem State.stepVset_keeps {ka kb kc : Bool} {s0 z : State} (mv state : Nat) (hk : Keeps ka kb kc s0 z) :
    Keeps ka kb kc s0 (State.stepVset z mv state) := by
  unfold State.stepVset
  grind [Keeps.mk_, State.set_keeps, State.writeVset_keeps]

theorem State.fitVoltage_keeps {ka kb kc : Bool} {s0 z : State}  (hk : Keeps ka kb kc s0 z) :
    Keeps ka kb kc s0 (State.fitVoltage z) := by
  unfold State.fitVoltage
  grind [Keeps.mk_, State.set_keeps, State.stepVset_keeps]

theorem State.countHold_keeps {ka kb kc : Bool} {s0 z : State}  (hk : Keeps ka kb kc s0 z) :
    Keeps ka kb kc s0 (State.countHold z) := by
  unfold State.countHold
  grind [Keeps.mk_]

/-! ### ArmOps -/

theorem State.armQueues_keeps {ka kb kc : Bool} {s0 z : State} (n : Nat) (hk : Keeps ka kb kc s0 z) : Keeps ka kb kc s0 (State.armQueues z n).2 := by
  have hf : ∀ (qs : List Nat) (b : Bool) (a : Option Nat × State), Keeps ka kb kc s0 a.2 →
      Keeps ka kb kc s0 (qs.foldl (fun a q => State.armQueue a n q b) a).2 := by
    intro qs b
    induction qs with
    | nil => intro a h; exact h
    | cons q qs ih =>
      intro a h
      apply ih
      unfold State.armQueue
      grind [Keeps.mk_, State.enableQueue_keeps, State.configFixed_keeps, State.set_keeps]
  exact hf _ _ _ (hf _ _ _ hk)

theorem State.armLtu_keeps {ka kb kc : Bool} {s0 z : State} (n : Nat) (hk : Keeps ka kb kc s0 z) :
    Keeps ka kb kc s0 (State.armLtu z n) := by
  unfold State.armLtu
  grind [Keeps.mk_, State.setLst_keeps, State.set_keeps]

theorem State.armHeadsRun_keeps {ka kb kc : Bool} {s0 z : State} (n : Nat) (hk : Keeps ka kb kc s0 z) :
    Keeps ka kb kc s0 (State.armHeadsRun z n) := by
  unfold State.armHeadsRun
  grind [Keeps.mk_, State.each_keeps, State.restartHeads_keeps, State.setPhead_keeps]

theorem State.armGeometry_keeps {ka kb kc : Bool} {s0 z : State} (n : Nat) (hk : Keeps ka kb kc s0 z) :
    Keeps ka kb kc s0 (State.armGeometry z n) := by
  unfold State.armGeometry
  grind [Keeps.mk_, State.set_keeps]

theorem State.armSst_keeps {ka kb kc : Bool} {s0 z : State} (n : Nat) (hk : Keeps ka kb kc s0 z) :
    Keeps ka kb kc s0 (State.armSst z n) := by
  unfold State.armSst
  grind (ematch := 40) (gen := 40) (splits := 40) (instances := 20000) [Keeps.mk_, State.each_keeps, State.setProd_keeps, State.setPst_keeps, State.setSto_keeps, State.set_keeps]

theorem State.armSeal_keeps {ka kb kc : Bool} {s0 z : State} (n : Nat) (hk : Keeps ka kb kc s0 z) :
    Keeps ka kb kc s0 (State.armSeal z n) := by
  unfold State.armSeal
  grind [Keeps.mk_, State.each_keeps, State.setSeal_keeps, State.set_keeps]

theorem State.armStreams_keeps {ka kb kc : Bool} {s0 z : State} (n : Nat) (hk : Keeps ka kb kc s0 z) :
    Keeps ka kb kc s0 (State.armStreams z n) := by
  unfold State.armStreams
  grind [Keeps.mk_, State.each_keeps, State.setStream_keeps]

theorem State.armKru_keeps {ka kb kc : Bool} {s0 z : State} (n : Nat) (t : Int) (hk : Keeps ka kb kc s0 z) :
    Keeps ka kb kc s0 (State.armKru z n t) := by
  unfold State.armKru
  grind [Keeps.mk_, State.setKst_keeps, State.set_keeps, State.startAlign_keeps]

theorem State.armed_keeps {ka kb kc : Bool} {s0 z : State} (n : Nat) (t : Int) (hk : Keeps ka kb kc s0 z) :
    Keeps ka kb kc s0 (State.armed z n t) := by
  unfold State.armed
  grind (ematch := 40) (gen := 40) (splits := 40) (instances := 20000) [Keeps.mk_, State.armBanks_keeps, State.armEngine_keeps, State.armGeometry_keeps, State.armHeadsRun_keeps, State.armKru_keeps, State.armLtu_keeps, State.armQueues_keeps, State.armSeal_keeps, State.armSst_keeps, State.armStreams_keeps, State.each_keeps, State.enterSt_keeps, State.setStation_keeps, State.syncHeld_keeps, State.syncLead_keeps, State.syncStore_keeps]

theorem State.noteArm_keeps {ka kb kc : Bool} {s0 z : State} (n : Nat) (c : Status) (hk : Keeps ka kb kc s0 z) :
    Keeps ka kb kc s0 (State.noteArm z n c) := by
  unfold State.noteArm
  grind [Keeps.mk_, State.set_keeps]

theorem State.arm_keeps {ka kb kc : Bool} {s0 z : State} (n : Nat) (t : Int) (t2 : Option Nat) (west : Bool) (hk : Keeps ka kb kc s0 z) :
    CmdEnd.Keeps ka kb kc s0 (State.arm z n t t2 west) := by
  unfold State.arm
  grind [Keeps.mk_, CmdEnd.Keeps, State.add_keeps, State.admission_keeps, State.armed_keeps, State.noteArm_keeps]

/-! ### HifOps -/

theorem State.syncStream_keeps {ka kb kc : Bool} {s0 z : State} (c : Nat) (hk : Keeps ka kb kc s0 z) :
    Keeps ka kb kc s0 (State.syncStream z c) := by
  unfold State.syncStream
  grind [Keeps.mk_, State.set_keeps]

theorem State.streamRefused_keeps {ka kb kc : Bool} {s0 z : State} (was : State) (w : World) (a c : Nat) (check : Option Status) (hk : Keeps ka kb kc s0 z) :
    Keeps ka kb kc s0 (State.streamRefused z was w a c check) := by
  unfold State.streamRefused
  grind [Keeps.mk_, State.set_keeps]

theorem State.streamWrite_keeps {ka kb kc : Bool} {s0 z : State} (w : World) (id : RegId) (c v : Nat) (check : Option Status) (act : State → State) (hk : Keeps ka kb kc s0 z) (hact : ∀ (x0 : State), Keeps ka kb kc s0 x0 → Keeps ka kb kc s0 (act x0)) :
    Keeps ka kb kc s0 (State.streamWrite z w id c v check act) := by
  unfold State.streamWrite
  grind [Keeps.mk_, State.rowWrite_keeps, State.streamRefused_keeps]

theorem State.peek_keeps {ka kb kc : Bool} {s0 z : State} (q : Nat) (hk : Keeps ka kb kc s0 z) :
    Keeps ka kb kc s0 (State.peek z q).2 := by
  unfold State.peek
  grind [Keeps.mk_, State.readWord_keeps]

theorem State.dropIntake_keeps {ka kb kc : Bool} {s0 z : State} (q : Nat) (hk : Keeps ka kb kc s0 z) :
    Keeps ka kb kc s0 (State.dropIntake z q) := by
  unfold State.dropIntake
  grind [Keeps.mk_, State.setQueue_keeps]

theorem State.gather_keeps {ka kb kc : Bool} {s0 z : State} (q : Nat) (p0 : Nat) (p1 : List Nat) (hk : Keeps ka kb kc s0 z) :
    Keeps ka kb kc s0 (State.gather z q p0 p1).2.2 := by
  induction p0 generalizing z p1 with
  | zero => exact hk
  | succ n ih =>
    unfold State.gather
    have h1 := State.peek_keeps q hk
    split
    · next h => rw [h] at h1; exact h1
    · next h =>
      rw [h] at h1
      split
      · split
        · exact State.dropIntake_keeps _ h1
        · exact h1
      · split
        · exact State.dropIntake_keeps _ h1
        · exact ih _ (State.dropIntake_keeps _ h1)

theorem State.skipItem_keeps {ka kb kc : Bool} {s0 z : State} (q : Nat) (p0 : Nat) (hk : Keeps ka kb kc s0 z) :
    Keeps ka kb kc s0 (State.skipItem z q p0).2 := by
  induction p0 generalizing z <;> grind [State.skipItem, Keeps.mk_, State.dropIntake_keeps, State.peek_keeps]

theorem State.pick_keeps {ka kb kc : Bool} {s0 z : State} (n b i : Nat) (p0 : List Nat) (hk : Keeps ka kb kc s0 z) :
    Keeps ka kb kc s0 (State.pick z n b i p0).2.2 := by
  induction p0 generalizing z i with
  | nil => exact hk
  | cons q qs ih =>
    unfold State.pick
    have h1 := State.peek_keeps q hk
    split <;> rename_i h <;> rw [h] at h1 <;> (try dsimp only) <;> split
    all_goals first | exact h1 | exact ih _ h1

theorem State.completeDesc_keeps {ka kb kc : Bool} {s0 z : State} (c : Nat) (st : Status) (bandEnd irq : Bool) (hk : Keeps ka kb kc s0 z) :
    Keeps ka kb kc s0 (State.completeDesc z c st bandEnd irq) := by
  unfold State.completeDesc
  grind [Keeps.mk_, State.add_keeps, State.emit_keeps, State.raise_keeps, State.setStream_keeps, State.set_keeps]

theorem State.closeDesc_keeps {ka kb kc : Bool} {s0 z : State} (c : Nat) (bandEnd : Bool) (hk : Keeps ka kb kc s0 z) :
    Keeps ka kb kc s0 (State.closeDesc z c bandEnd) := by
  unfold State.closeDesc
  grind [Keeps.mk_, State.completeDesc_keeps]

theorem State.fetchDesc_keeps {ka kb kc : Bool} {s0 z : State} (c : Nat) (d : HostDesc) (hk : Keeps ka kb kc s0 z) :
    Keeps ka kb kc s0 (State.fetchDesc z c d).2 := by
  unfold State.fetchDesc
  grind [Keeps.mk_, State.completeDesc_keeps, State.setStream_keeps]

theorem State.closeDgram_keeps {ka kb kc : Bool} {s0 z : State} (c : Nat) (bandEnd : Bool) (hk : Keeps ka kb kc s0 z) :
    Keeps ka kb kc s0 (State.closeDgram z c bandEnd) := by
  unfold State.closeDgram
  grind [Keeps.mk_, State.add_keeps, State.setStream_keeps]

theorem State.sendDgram_keeps {ka kb kc : Bool} {s0 z : State} (c : Nat) (t : Int) (hk : Keeps ka kb kc s0 z) :
    Keeps ka kb kc s0 (State.sendDgram z c t) := by
  unfold State.sendDgram
  grind [Keeps.mk_, State.emit_keeps, State.setStream_keeps]

theorem State.leaveBand_keeps {ka kb kc : Bool} {s0 z : State} (c : Nat) (hk : Keeps ka kb kc s0 z) :
    Keeps ka kb kc s0 (State.leaveBand z c) := by
  unfold State.leaveBand
  grind [Keeps.mk_, State.setStream_keeps, State.set_keeps]


/-- The state of a step of a stream keeps what `Keeps` says. -/
def Work.Keeps (ka kb kc : Bool) (s0 : State) : Work → Prop
  | .chunk _ t => Machine.Keeps ka kb kc s0 t
  | .bandEnd t => Machine.Keeps ka kb kc s0 t
  | .rest t => Machine.Keeps ka kb kc s0 t

theorem State.frameChunk_keeps {ka kb kc : Bool} {s0 z : State} (c q b : Nat) (opens : Bool) (hk : Keeps ka kb kc s0 z) :
    Work.Keeps ka kb kc s0 (State.frameChunk z c q b opens) := by
  unfold State.frameChunk
  have := State.gather_keeps q (z.get R.HIF_ST_CTRL_CHUNK c) [] hk
  grind [Keeps.mk_, Work.Keeps, State.setStream_keeps, State.set_keeps, State.add_keeps]

theorem State.frameSnap_keeps {ka kb kc : Bool} {s0 z : State} (c b : Nat) (left : List Nat) (opens : Bool) (hk : Keeps ka kb kc s0 z) :
    Work.Keeps ka kb kc s0 (State.frameSnap z c b left opens) := by
  unfold State.frameSnap
  grind [Keeps.mk_, Work.Keeps, State.setStream_keeps, State.setSeal_keeps, State.set_keeps, State.add_keeps]

theorem State.passBands_keeps {ka kb kc : Bool} {s0 z : State} (c n hz : Nat) (snaps : List Nat) (hk : Keeps ka kb kc s0 z) :
    Work.Keeps ka kb kc s0 (State.passBands z c n hz snaps) := by
  unfold State.passBands
  grind [Keeps.mk_, Work.Keeps, State.setStream_keeps, State.setSeal_keeps, State.set_keeps, State.add_keeps]

theorem State.openBand_keeps {ka kb kc : Bool} {s0 z : State} (c : Nat) (hk : Keeps ka kb kc s0 z) : Work.Keeps ka kb kc s0 (State.openBand z c) := by
  unfold State.openBand
  grind [Keeps.mk_, Work.Keeps, State.setStream_keeps, State.setSeal_keeps, State.set_keeps, State.add_keeps, State.pick_keeps,
    State.frameChunk_keeps, State.frameSnap_keeps, State.passBands_keeps]

theorem State.findWork_keeps {ka kb kc : Bool} {s0 z : State} (c : Nat) (hk : Keeps ka kb kc s0 z) : Work.Keeps ka kb kc s0 (State.findWork z c) := by
  unfold State.findWork
  have := fun q n => State.skipItem_keeps (z := z) q n hk
  grind [Keeps.mk_, Work.Keeps, State.setStream_keeps, State.openBand_keeps, State.frameChunk_keeps, State.frameSnap_keeps]

theorem State.releaseDma_keeps {ka kb kc : Bool} {s0 z : State} (c : Nat) (hk : Keeps ka kb kc s0 z) : Keeps ka kb kc s0 (State.releaseDma z c) := by
  unfold State.releaseDma
  have hw := State.findWork_keeps c hk
  dsimp only
  split
  · next h => rw [h] at hw; exact hw
  · next h => rw [h] at hw; exact State.leaveBand_keeps _ (State.closeDesc_keeps _ _ hw)
  · next h =>
    rw [h] at hw
    split
    · exact hk
    · split
      · exact State.closeDesc_keeps _ _ hk
      · exact State.setStream_keeps _ _ (State.emit_keeps _ hw)

theorem State.releaseEth_keeps {ka kb kc : Bool} {s0 z : State} (c : Nat) (hk : Keeps ka kb kc s0 z) : Keeps ka kb kc s0 (State.releaseEth z c) := by
  unfold State.releaseEth
  have hw := State.findWork_keeps c hk
  dsimp only
  split
  · exact hk
  · split
    · next h => rw [h] at hw; exact hw
    · next h => rw [h] at hw; exact State.leaveBand_keeps _ (State.closeDgram_keeps _ _ hw)
    · next h =>
      rw [h] at hw
      split
      · exact State.closeDgram_keeps _ _ hk
      · exact State.setStream_keeps _ _ hw

theorem State.stopStream_keeps {ka kb kc : Bool} {s0 z : State} (c : Nat) (hk : Keeps ka kb kc s0 z) :
    Keeps ka kb kc s0 (State.stopStream z c) := by
  unfold State.stopStream
  grind [Keeps.mk_, State.closeDesc_keeps, State.closeDgram_keeps, State.setStream_keeps, State.set_keeps]

theorem State.breakDma_keeps {ka kb kc : Bool} {s0 z : State} (c : Nat) (hk : Keeps ka kb kc s0 z) :
    Keeps ka kb kc s0 (State.breakDma z c) := by
  unfold State.breakDma
  grind [Keeps.mk_, State.setStream_keeps, State.set_keeps]

theorem State.resetMsix_keeps {ka kb kc : Bool} {s0 z : State} (f : Nat) (hk : Keeps ka kb kc s0 z) :
    Keeps ka kb kc s0 (State.resetMsix z f) := by
  unfold State.resetMsix
  grind [Keeps.mk_]

theorem State.breakPf0_keeps {ka kb kc : Bool} {s0 z : State}  (hk : Keeps ka kb kc s0 z) :
    Keeps ka kb kc s0 (State.breakPf0 z) := by
  unfold State.breakPf0
  grind [Keeps.mk_, State.breakDma_keeps, State.each_keeps, State.resetMsix_keeps]

theorem State.loseLink_keeps {ka kb kc : Bool} {s0 z : State}  (hk : Keeps ka kb kc s0 z) :
    Keeps ka kb kc s0 (State.loseLink z) := by
  unfold State.loseLink
  grind [Keeps.mk_, State.breakPf0_keeps, State.resetMsix_keeps, State.set_keeps]

theorem State.setPtpLock_keeps {ka kb kc : Bool} {s0 z : State} (on : Bool) (hk : Keeps ka kb kc s0 z) :
    Keeps ka kb kc s0 (State.setPtpLock z on) := by
  unfold State.setPtpLock
  grind [Keeps.mk_, State.raise_keeps, State.set_keeps, State.syncSteer_keeps]

theorem State.setPtp_keeps {ka kb kc : Bool} {s0 z : State} (x : Ptp) (hk : Keeps ka kb kc s0 z) :
    Keeps ka kb kc s0 (State.setPtp z x) := by
  unfold State.setPtp
  grind [Keeps.mk_]

theorem State.ptpAnnounce_keeps {ka kb kc : Bool} {s0 z : State} (src : Nat) (d : PtpDataset) (t : Int) (hk : Keeps ka kb kc s0 z) :
    Keeps ka kb kc s0 (State.ptpAnnounce z src d t) := by
  unfold State.ptpAnnounce
  grind [Keeps.mk_, State.setPtp_keeps, State.set_keeps]

theorem State.ptpSync_keeps {ka kb kc : Bool} {s0 z : State} (t1 : Int) (hk : Keeps ka kb kc s0 z) :
    Keeps ka kb kc s0 (State.ptpSync z t1) := by
  unfold State.ptpSync
  grind [Keeps.mk_, State.emit_keeps, State.setPtpLock_keeps, State.setPtp_keeps, State.setS_keeps, State.steer_keeps]

theorem State.ptpDelay_keeps {ka kb kc : Bool} {s0 z : State} (rx corr sent : Int) (hk : Keeps ka kb kc s0 z) :
    Keeps ka kb kc s0 (State.ptpDelay z rx corr sent) := by
  unfold State.ptpDelay
  grind [Keeps.mk_, State.setSat_keeps]

theorem State.sendVector_keeps {ka kb kc : Bool} {s0 z : State} (k : Nat) (t : Int) (hk : Keeps ka kb kc s0 z) :
    Keeps ka kb kc s0 (State.sendVector z k t) := by
  unfold State.sendVector
  grind [Keeps.mk_, State.emit_keeps]

theorem State.serveVector_keeps {ka kb kc : Bool} {s0 z : State} (k : Nat) (t : Int) (hk : Keeps ka kb kc s0 z) :
    Keeps ka kb kc s0 (State.serveVector z k t) := by
  unfold State.serveVector
  grind [Keeps.mk_, State.sendVector_keeps]

theorem State.syncPort_keeps {ka kb kc : Bool} {s0 z : State} (pn : Nat) (hk : Keeps ka kb kc s0 z) :
    Keeps ka kb kc s0 (State.syncPort z pn) := by
  unfold State.syncPort
  grind [Keeps.mk_, State.each_keeps, State.syncStream_keeps]

theorem State.ethLinkTo_keeps {ka kb kc : Bool} {s0 z : State} (p : Nat) (link : Bool) (hk : Keeps ka kb kc s0 z) :
    Keeps ka kb kc s0 (State.ethLinkTo z p link) := by
  unfold State.ethLinkTo
  grind [Keeps.mk_, State.raise_keeps, State.set_keeps, State.syncPort_keeps]

/-! ### MfeOps -/

theorem State.setChain_keeps {ka kb kc : Bool} {s0 z : State} (c : Nat) (x : Chain) (hk : Keeps ka kb kc s0 z) :
    Keeps ka kb kc s0 (State.setChain z c x) := by
  unfold State.setChain
  grind [Keeps.mk_]

theorem State.setMout_keeps {ka kb kc : Bool} {s0 z : State} (o : Nat) (x : MfeOut) (hk : Keeps ka kb kc s0 z) :
    Keeps ka kb kc s0 (State.setMout z o x) := by
  unfold State.setMout
  grind [Keeps.mk_]

theorem State.takeMeas_keeps {ka kb kc : Bool} {s0 z : State}  (hk : Keeps ka kb kc s0 z) :
    Keeps ka kb kc s0 (State.takeMeas z).2 := by
  unfold State.takeMeas
  grind [Keeps.mk_, State.takeFresh_keeps]

theorem State.mfeEvent_keeps {ka kb kc : Bool} {s0 z : State} (kind idx : Nat) (hk : Keeps ka kb kc s0 z) :
    Keeps ka kb kc s0 (State.mfeEvent z kind idx) := by
  unfold State.mfeEvent
  grind [Keeps.mk_, State.raise_keeps, State.set_keeps]

theorem State.mfeEvent0_keeps {ka kb kc : Bool} {s0 z : State} (kind : Nat) (hk : Keeps ka kb kc s0 z) :
    Keeps ka kb kc s0 (State.mfeEvent0 z kind) := by
  unfold State.mfeEvent0
  grind [Keeps.mk_, State.mfeEvent_keeps, State.takeMeas_keeps]

theorem State.syncChain_keeps {ka kb kc : Bool} {s0 z : State} (c : Nat) (hk : Keeps ka kb kc s0 z) :
    Keeps ka kb kc s0 (State.syncChain z c) := by
  unfold State.syncChain
  grind (ematch := 40) (gen := 40) (splits := 40) (instances := 20000) [Keeps.mk_, State.setSat_keeps, State.set_keeps]

theorem State.swapDone_keeps {ka kb kc : Bool} {s0 z : State} (c v : Nat) (hk : Keeps ka kb kc s0 z) :
    Keeps ka kb kc s0 (State.swapDone z c v) := by
  unfold State.swapDone
  grind [Keeps.mk_, State.mfeEvent0_keeps, State.mfeEvent_keeps, State.setChain_keeps, State.set_keeps]

theorem State.restartChain_keeps {ka kb kc : Bool} {s0 z : State} (c : Nat) (sync : Bool) (hk : Keeps ka kb kc s0 z) :
    Keeps ka kb kc s0 (State.restartChain z c sync) := by
  unfold State.restartChain
  grind [Keeps.mk_, State.setChain_keeps, State.swapDone_keeps, State.syncChain_keeps]

theorem State.takeSample_keeps {ka kb kc : Bool} {s0 z : State} (c : Nat) (v : Int) (hk : Keeps ka kb kc s0 z) :
    Keeps ka kb kc s0 (State.takeSample z c v).2 := by
  unfold State.takeSample
  grind [Keeps.mk_, State.setChain_keeps, State.setS_keeps, State.swapDone_keeps]

theorem State.temperature_keeps {ka kb kc : Bool} {s0 z : State} (nom : Nat) (r : Int) (hk : Keeps ka kb kc s0 z) :
    Keeps ka kb kc s0 (State.temperature z nom r).2 := by
  unfold State.temperature
  grind [Keeps.mk_, State.takeMeas_keeps]

theorem State.sample_keeps {ka kb kc : Bool} {s0 z : State} (e : Nat) (ab bc : List Int) (hk : Keeps ka kb kc s0 z) :
    Keeps ka kb kc s0 (State.sample z e ab bc).2 := by
  unfold State.sample
  grind [Keeps.mk_, State.setS_keeps, State.temperature_keeps]

theorem State.autoRange_keeps {ka kb kc : Bool} {s0 z : State} (e : Nat) (ab : List Int) (isOver : Bool) (hk : Keeps ka kb kc s0 z) :
    Keeps ka kb kc s0 (State.autoRange z e ab isOver) := by
  unfold State.autoRange
  grind [Keeps.mk_, State.setMent_keeps]

theorem State.accumulate_keeps {ka kb kc : Bool} {s0 z : State} (e : Nat) (v : Int) (hk : Keeps ka kb kc s0 z) :
    Keeps ka kb kc s0 (State.accumulate z e v) := by
  unfold State.accumulate
  grind [Keeps.mk_, State.addSat_keeps, State.setS_keeps, State.takeMeas_keeps]

theorem State.clearAcc_keeps {ka kb kc : Bool} {s0 z : State} (e : Nat) (hk : Keeps ka kb kc s0 z) :
    Keeps ka kb kc s0 (State.clearAcc z e) := by
  unfold State.clearAcc
  grind [Keeps.mk_, State.set_keeps]

theorem State.measure_keeps {ka kb kc : Bool} {s0 z : State} (e : Nat) (hk : Keeps ka kb kc s0 z) :
    Keeps ka kb kc s0 (State.measure z e) := by
  unfold State.measure
  grind [Keeps.mk_, State.add_keeps, State.mfeEvent_keeps, State.presentItem_keeps, State.setMent_keeps]

theorem State.showOut_keeps {ka kb kc : Bool} {s0 z : State} (o : Nat) (x : Nat × Nat) (hk : Keeps ka kb kc s0 z) :
    Keeps ka kb kc s0 (State.showOut z o x) := by
  unfold State.showOut
  grind [Keeps.mk_, State.emit_keeps, State.setMout_keeps]

theorem State.stageOut_keeps {ka kb kc : Bool} {s0 z : State} (o : Nat) (x : Nat × Nat) (hk : Keeps ka kb kc s0 z) :
    Keeps ka kb kc s0 (State.stageOut z o x) := by
  unfold State.stageOut
  grind [Keeps.mk_, State.setMout_keeps, State.showOut_keeps]

theorem State.driveOut_keeps {ka kb kc : Bool} {s0 z : State} (o : Nat) (v : Int) (flags : Nat) (hk : Keeps ka kb kc s0 z) :
    Keeps ka kb kc s0 (State.driveOut z o v flags) := by
  unfold State.driveOut
  grind [Keeps.mk_, State.stageOut_keeps]

theorem State.result_keeps {ka kb kc : Bool} {s0 z : State} (e : Nat) (v : Option Int) (flags : Nat) (fine : Bool) (hk : Keeps ka kb kc s0 z) :
    Keeps ka kb kc s0 (State.result z e v flags fine) := by
  unfold State.result
  grind (ematch := 40) (gen := 40) (splits := 40) (instances := 20000) [Keeps.mk_, State.add_keeps, State.driveOut_keeps, State.each_keeps, State.ilcTemp_keeps, State.measure_keeps, State.setS_keeps, State.set_keeps]

theorem State.chainResult_keeps {ka kb kc : Bool} {s0 z : State} (e c : Nat) (v : Int) (hk : Keeps ka kb kc s0 z) :
    Keeps ka kb kc s0 (State.chainResult z e c v) := by
  unfold State.chainResult
  grind [Keeps.mk_, State.restartChain_keeps, State.result_keeps, State.setChain_keeps, State.syncChain_keeps, State.takeSample_keeps]

theorem State.putExc_keeps {ka kb kc : Bool} {s0 z : State} (e : Nat) (x : List Nat) (hk : Keeps ka kb kc s0 z) :
    Keeps ka kb kc s0 (State.putExc z e x) := by
  unfold State.putExc
  grind [Keeps.mk_, State.each_keeps, State.set_keeps]

theorem State.noteExc_keeps {ka kb kc : Bool} {s0 z : State} (e : Nat) (ch : Bool) (hk : Keeps ka kb kc s0 z) :
    Keeps ka kb kc s0 (State.noteExc z e ch) := by
  unfold State.noteExc
  grind [Keeps.mk_, State.setMent_keeps]

theorem State.regularDwell_keeps {ka kb kc : Bool} {s0 z : State} (e : Nat) (ab bc : List Int) (hk : Keeps ka kb kc s0 z) :
    Keeps ka kb kc s0 (State.regularDwell z e ab bc) := by
  unfold State.regularDwell
  grind (ematch := 40) (gen := 40) (splits := 40) (instances := 20000) [Keeps.mk_, State.accumulate_keeps, State.add_keeps, State.autoRange_keeps, State.chainResult_keeps, State.mfeEvent_keeps, State.restartChain_keeps, State.result_keeps, State.sample_keeps, State.setChain_keeps, State.set_keeps]

theorem State.syncUrgent_keeps {ka kb kc : Bool} {s0 z : State}  (hk : Keeps ka kb kc s0 z) :
    Keeps ka kb kc s0 (State.syncUrgent z) := by
  unfold State.syncUrgent
  grind [Keeps.mk_, State.set_keeps]

theorem State.withExc_keeps {ka kb kc : Bool} {s0 z : State} (e : Nat) (act : State → State) (hk : Keeps ka kb kc s0 z) (hact : ∀ (x0 : State), Keeps ka kb kc s0 x0 → Keeps ka kb kc s0 (act x0)) :
    Keeps ka kb kc s0 (State.withExc z e act) := by
  unfold State.withExc
  grind [Keeps.mk_, State.putExc_keeps]

theorem State.regular_keeps {ka kb kc : Bool} {s0 z : State} (e : Nat) (ab bc : List Int) (hk : Keeps ka kb kc s0 z) :
    Keeps ka kb kc s0 (State.regular z e ab bc) := by
  unfold State.regular
  grind (ematch := 40) (gen := 40) (splits := 40) (instances := 20000) [Keeps.mk_, State.regularDwell_keeps, State.setMent_keeps, State.withExc_keeps]

theorem State.urgentDwell_keeps {ka kb kc : Bool} {s0 z : State} (e : Nat) (ab bc : List Int) (hk : Keeps ka kb kc s0 z) :
    Keeps ka kb kc s0 (State.urgentDwell z e ab bc) := by
  unfold State.urgentDwell
  grind (ematch := 40) (gen := 40) (splits := 40) (instances := 20000) [Keeps.mk_, State.mfeEvent_keeps, State.sample_keeps, State.setS_keeps, State.set_keeps]

theorem State.urgentDone_keeps {ka kb kc : Bool} {s0 z : State} (e : Nat) (ab bc : List Int) (hk : Keeps ka kb kc s0 z) :
    Keeps ka kb kc s0 (State.urgentDone z e ab bc) := by
  unfold State.urgentDone
  grind (ematch := 40) (gen := 40) (splits := 40) (instances := 20000) [Keeps.mk_, State.setMent_keeps, State.urgentDwell_keeps, State.withExc_keeps]

theorem State.swapSlice_keeps {ka kb kc : Bool} {s0 z : State} (i : Nat) (hk : Keeps ka kb kc s0 z) :
    Keeps ka kb kc s0 (State.swapSlice z i) := by
  unfold State.swapSlice
  grind [Keeps.mk_, State.set_keeps]

theorem State.boundary_keeps {ka kb kc : Bool} {s0 z : State}  (hk : Keeps ka kb kc s0 z) :
    Keeps ka kb kc s0 (State.boundary z) := by
  unfold State.boundary
  grind [Keeps.mk_, State.swapSlice_keeps]

theorem State.seqStart_keeps {ka kb kc : Bool} {s0 z : State}  (hk : Keeps ka kb kc s0 z) :
    Keeps ka kb kc s0 (State.seqStart z) := by
  unfold State.seqStart
  grind [Keeps.mk_, State.each_keeps, State.restartChain_keeps, State.set_keeps]

theorem State.seqStop_keeps {ka kb kc : Bool} {s0 z : State}  (hk : Keeps ka kb kc s0 z) :
    Keeps ka kb kc s0 (State.seqStop z) := by
  unfold State.seqStop
  grind [Keeps.mk_, State.boundary_keeps, State.each_keeps, State.setMent_keeps, State.set_keeps]

theorem State.seqEnd_keeps {ka kb kc : Bool} {s0 z : State}  (hk : Keeps ka kb kc s0 z) :
    Keeps ka kb kc s0 (State.seqEnd z) := by
  unfold State.seqEnd
  grind [Keeps.mk_, State.seqStop_keeps]

theorem State.dwellEnd_keeps {ka kb kc : Bool} {s0 z : State}  (hk : Keeps ka kb kc s0 z) :
    Keeps ka kb kc s0 (State.dwellEnd z) := by
  unfold State.dwellEnd
  grind [Keeps.mk_, State.boundary_keeps, State.seqStop_keeps]

theorem State.refOff_keeps {ka kb kc : Bool} {s0 z : State}  (hk : Keeps ka kb kc s0 z) :
    Keeps ka kb kc s0 (State.refOff z) := by
  unfold State.refOff
  grind [Keeps.mk_, State.mfeEvent0_keeps, State.seqStop_keeps, State.set_keeps]

theorem State.mfeCtrl_keeps {ka kb kc : Bool} {s0 z : State} (w : World) (v : Nat) (hk : Keeps ka kb kc s0 z) :
    Keeps ka kb kc s0 (State.mfeCtrl z w v) := by
  unfold State.mfeCtrl
  grind [Keeps.mk_, State.refOff_keeps, State.rowWrite_keeps, State.seqEnd_keeps, State.seqStart_keeps, State.set_keeps]

theorem State.retireSlice_keeps {ka kb kc : Bool} {s0 z : State} (i : Nat) (hk : Keeps ka kb kc s0 z) :
    Keeps ka kb kc s0 (State.retireSlice z i) := by
  unfold State.retireSlice
  grind [Keeps.mk_, State.mfeEvent_keeps, State.seqStop_keeps, State.set_keeps]

/-! ### TtcOps -/

theorem State.sendFrame_keeps {ka kb kc : Bool} {s0 z : State} (a body : Nat) (hk : Keeps ka kb kc s0 z) :
    Keeps ka kb kc s0 (State.sendFrame z a body) := by
  unfold State.sendFrame
  grind [Keeps.mk_, State.emit_keeps]

theorem State.moveFrame_keeps {ka kb kc : Bool} {s0 z : State} (a : Nat) (hk : Keeps ka kb kc s0 z) :
    Keeps ka kb kc s0 (State.moveFrame z a) := by
  unfold State.moveFrame
  grind [Keeps.mk_, State.sendFrame_keeps, State.setAxis_keeps]

theorem State.tableFrame_keeps {ka kb kc : Bool} {s0 z : State} (a : Nat) (hk : Keeps ka kb kc s0 z) :
    Keeps ka kb kc s0 (State.tableFrame z a) := by
  unfold State.tableFrame
  grind [Keeps.mk_, State.sendFrame_keeps, State.setAxis_keeps]

theorem State.linkFrame_keeps {ka kb kc : Bool} {s0 z : State} (a : Nat) (hk : Keeps ka kb kc s0 z) :
    Keeps ka kb kc s0 (State.linkFrame z a) := by
  unfold State.linkFrame
  grind [Keeps.mk_, State.moveFrame_keeps, State.sendFrame_keeps, State.tableFrame_keeps]

theorem State.syncPos_keeps {ka kb kc : Bool} {s0 z : State} (a : Nat) (hk : Keeps ka kb kc s0 z) :
    Keeps ka kb kc s0 (State.syncPos z a) := by
  unfold State.syncPos
  grind [Keeps.mk_, State.setS_keeps]

theorem State.moveEnd_keeps {ka kb kc : Bool} {s0 z : State} (a : Nat) (hk : Keeps ka kb kc s0 z) :
    Keeps ka kb kc s0 (State.moveEnd z a) := by
  unfold State.moveEnd
  grind [Keeps.mk_, State.setAxis_keeps, State.set_keeps]

theorem State.cycleStart_keeps {ka kb kc : Bool} {s0 z : State} (a : Nat) (hk : Keeps ka kb kc s0 z) :
    Keeps ka kb kc s0 (State.cycleStart z a) := by
  unfold State.cycleStart
  grind [Keeps.mk_, State.raise_keeps, State.setAxis_keeps]

theorem State.goalMet_keeps {ka kb kc : Bool} {s0 z : State} (a : Nat) (hk : Keeps ka kb kc s0 z) :
    Keeps ka kb kc s0 (State.goalMet z a) := by
  unfold State.goalMet
  grind [Keeps.mk_, State.moveEnd_keeps, State.set_keeps]

theorem State.cycleAxis_keeps {ka kb kc : Bool} {s0 z : State} (a : Nat) (hk : Keeps ka kb kc s0 z) :
    Keeps ka kb kc s0 (State.cycleAxis z a) := by
  unfold State.cycleAxis
  grind [Keeps.mk_, State.goalMet_keeps, State.setAxis_keeps, State.syncPos_keeps]

theorem State.cycleLin_keeps {ka kb kc : Bool} {s0 z : State}  (hk : Keeps ka kb kc s0 z) :
    Keeps ka kb kc s0 (State.cycleLin z) := by
  unfold State.cycleLin
  grind [Keeps.mk_, State.each_keeps, State.moveEnd_keeps, State.setAxis_keeps, State.syncPos_keeps]

theorem State.axisCmd_keeps {ka kb kc : Bool} {s0 z : State} (w : World) (a op : Nat) (own : List (Option Status)) (act : State → State) (hk : Keeps ka kb kc s0 z) (hact : ∀ (x0 : State), Keeps ka kb kc s0 x0 → Keeps ka kb kc s0 (act x0)) :
    Keeps ka kb kc s0 (State.axisCmd z w a op own act) := by
  unfold State.axisCmd
  grind [Keeps.mk_, State.rowWrite_keeps, State.stopLin_keeps]

theorem State.beginLin_keeps {ka kb kc : Bool} {s0 z : State} (ts : List (Nat × Int)) (hk : Keeps ka kb kc s0 z) :
    Keeps ka kb kc s0 (State.beginLin z ts) := by
  unfold State.beginLin
  grind [Keeps.mk_, State.aim_keeps, State.each_keeps, State.setAxis_keeps]

theorem State.dueLin_keeps {ka kb kc : Bool} {s0 z : State}  (hk : Keeps ka kb kc s0 z) :
    Keeps ka kb kc s0 (State.dueLin z) := by
  unfold State.dueLin
  grind [Keeps.mk_, State.beginLin_keeps]

theorem State.startLin_keeps {ka kb kc : Bool} {s0 z : State} (mask : Nat) (hk : Keeps ka kb kc s0 z) :
    Keeps ka kb kc s0 (State.startLin z mask) := by
  unfold State.startLin
  grind [Keeps.mk_, State.axisStop_keeps, State.dueLin_keeps, State.each_keeps, State.stopLin_keeps]

theorem State.faultWith_keeps {ka kb kc : Bool} {s0 z : State} (a kind : Nat) (c : Status) (hk : Keeps ka kb kc s0 z) :
    Keeps ka kb kc s0 (State.faultWith z a kind c) := by
  unfold State.faultWith
  grind [Keeps.mk_, State.axisFault_keeps, State.rewindFail_keeps, State.setStation_keeps]

theorem State.faultAxis_keeps {ka kb kc : Bool} {s0 z : State} (a kind : Nat) (hk : Keeps ka kb kc s0 z) :
    Keeps ka kb kc s0 (State.faultAxis z a kind) := by
  unfold State.faultAxis
  grind [Keeps.mk_, State.faultWith_keeps]

theorem State.adapt_keeps {ka kb kc : Bool} {s0 z : State} (a load : Nat) (hk : Keeps ka kb kc s0 z) :
    Keeps ka kb kc s0 (State.adapt z a load) := by
  unfold State.adapt
  grind [Keeps.mk_, State.setAxis_keeps, State.set_keeps]

theorem State.goodStatus_keeps {ka kb kc : Bool} {s0 z : State} (a f : Nat) (hk : Keeps ka kb kc s0 z) :
    Keeps ka kb kc s0 (State.goodStatus z a f) := by
  unfold State.goodStatus
  grind [Keeps.mk_, State.adapt_keeps, State.faultAxis_keeps, State.setAxis_keeps, State.set_keeps]

/-! ### ThmOps -/

theorem State.setThm_keeps {ka kb kc : Bool} {s0 z : State} (x : Thm) (hk : Keeps ka kb kc s0 z) :
    Keeps ka kb kc s0 (State.setThm z x) := by
  unfold State.setThm
  grind [Keeps.mk_]

theorem State.syncFail_keeps {ka kb kc : Bool} {s0 z : State}  (hk : Keeps ka kb kc s0 z) :
    Keeps ka kb kc s0 (State.syncFail z) := by
  unfold State.syncFail
  grind [Keeps.mk_, State.each_keeps, State.set_keeps]

theorem State.judgeSensors_keeps {ka kb kc : Bool} {s0 z : State} (r : List (Option (BitVec 16))) (hk : Keeps ka kb kc s0 z) :
    Keeps ka kb kc s0 (State.judgeSensors z r) := by
  unfold State.judgeSensors
  grind [Keeps.mk_, State.each_keeps, State.raise_keeps, State.setS_keeps, State.set_keeps, State.syncFail_keeps]

theorem State.setLevel_keeps {ka kb kc : Bool} {s0 z : State} (t : Nat) (hk : Keeps ka kb kc s0 z) :
    Keeps ka kb kc s0 (State.setLevel z t) := by
  unfold State.setLevel
  grind [Keeps.mk_, State.raise_keeps, State.set_keeps]

theorem State.enterWarn_keeps {ka kb kc : Bool} {s0 z : State}  (hk : Keeps ka kb kc s0 z) :
    Keeps ka kb kc s0 (State.enterWarn z) := by
  unfold State.enterWarn
  grind [Keeps.mk_, State.raise_keeps, State.set_keeps]

theorem State.enterThrottle_keeps {ka kb kc : Bool} {s0 z : State}  (hk : Keeps ka kb kc s0 z) :
    Keeps ka kb kc s0 (State.enterThrottle z) := by
  unfold State.enterThrottle
  grind [Keeps.mk_, State.enterWarn_keeps, State.raise_keeps, State.setLevel_keeps, State.set_keeps]

theorem State.judgeThrottle_keeps {ka kb kc : Bool} {s0 z : State} (m : Int) (hk : Keeps ka kb kc s0 z) :
    Keeps ka kb kc s0 (State.judgeThrottle z m) := by
  unfold State.judgeThrottle
  grind [Keeps.mk_, State.enterThrottle_keeps, State.raise_keeps, State.setThm_keeps, State.set_keeps]

theorem State.judgeWarn_keeps {ka kb kc : Bool} {s0 z : State} (m : Int) (hk : Keeps ka kb kc s0 z) :
    Keeps ka kb kc s0 (State.judgeWarn z m) := by
  unfold State.judgeWarn
  grind [Keeps.mk_, State.enterWarn_keeps, State.raise_keeps, State.setThm_keeps, State.set_keeps]

theorem State.shutAxis_keeps {ka kb kc : Bool} {s0 z : State} (a : Nat) (hk : Keeps ka kb kc s0 z) :
    Keeps ka kb kc s0 (State.shutAxis z a) := by
  unfold State.shutAxis
  grind [Keeps.mk_, State.faultWith_keeps, State.takeFresh_keeps]

theorem State.shutdown_keeps {ka kb : Bool} {s0 z : State}  (hk : Keeps ka kb false s0 z) :
    Keeps ka kb false s0 (State.shutdown z) := by
  unfold State.shutdown
  grind (ematch := 40) (gen := 40) (splits := 40) (instances := 20000) [Keeps.mk_, Keeps.fresh_, State.each_keeps, State.emit_keeps, State.endRunning_keeps, State.gatesLow_keeps, State.raise_keeps, State.setDev_keeps, State.set_keeps, State.shutAxis_keeps]

theorem State.judgeShutdown_keeps {ka kb : Bool} {s0 z : State}  (hk : Keeps ka kb false s0 z) :
    Keeps ka kb false s0 (State.judgeShutdown z) := by
  unfold State.judgeShutdown
  grind [Keeps.mk_, State.setThm_keeps, State.shutdown_keeps]

/-! ### BootOps -/

theorem State.clearedBut_keeps {s0 z : State} (keys : List Nat) (hk : Keeps false false false s0 z) : Keeps false false false s0 (State.clearedBut z keys) :=
  ⟨hk.pending, hk.out, hk.fresh, fun x => SMap.sorted_filter _ _ (hk.regs x), fun _ => rfl, fun _ => rfl, fun _ => rfl, nofun,
    nofun, nofun⟩

theorem State.resetDevice_keeps {s0 z : State}  (hk : Keeps false false false s0 z) :
    Keeps false false false s0 (State.resetDevice z) := by
  unfold State.resetDevice
  grind [Keeps.mk_, State.clearedBut_keeps, State.set_keeps]

theorem State.resetAll_keeps {s0 z : State}  (hk : Keeps false false false s0 z) :
    Keeps false false false s0 (State.resetAll z) := by
  unfold State.resetAll
  grind [Keeps.mk_, State.clearedBut_keeps, State.set_keeps]

theorem State.fwRefused_keeps {ka kb kc : Bool} {s0 z : State} (c : Status) (hk : Keeps ka kb kc s0 z) :
    Keeps ka kb kc s0 (State.fwRefused z c) := by
  unfold State.fwRefused
  grind [Keeps.mk_, State.raise_keeps, State.set_keeps]

theorem State.bootStop_keeps {ka kb kc : Bool} {s0 z : State} (ms : Nat) (hk : Keeps ka kb kc s0 z) :
    Keeps ka kb kc s0 (State.bootStop z ms) := by
  unfold State.bootStop
  grind [Keeps.mk_, State.setSat_keeps, State.set_keeps]

theorem State.stayBare_keeps {ka kb kc : Bool} {s0 z : State} (ms : Nat) (hk : Keeps ka kb kc s0 z) :
    Keeps ka kb kc s0 (State.stayBare z ms) := by
  unfold State.stayBare
  grind [Keeps.mk_, State.bootStop_keeps, State.startKru_keeps]

theorem State.bootDone_keeps {ka kb kc : Bool} {s0 z : State} (ms : Nat) (hk : Keeps ka kb kc s0 z) :
    Keeps ka kb kc s0 (State.bootDone z ms) := by
  unfold State.bootDone
  grind [Keeps.mk_, State.setDev_keeps, State.setSat_keeps, State.set_keeps]

theorem State.loadPolicy_keeps {ka kb kc : Bool} {s0 z : State} (policy : Option FwObs) (hk : Keeps ka kb kc s0 z) :
    Keeps ka kb kc s0 (State.loadPolicy z policy) := by
  unfold State.loadPolicy
  grind [Keeps.mk_, State.fwRefused_keeps, State.set_keeps]

theorem State.bootVcore_keeps {ka kb kc : Bool} {s0 z : State} (mode : Nat) (hk : Keeps ka kb kc s0 z) :
    Keeps ka kb kc s0 (State.bootVcore z mode) := by
  unfold State.bootVcore
  grind [Keeps.mk_, State.bootVcoreFail_keeps, State.pmbus_keeps, State.raiseVmax_keeps, State.set_keeps]

theorem State.runCabinet_keeps {ka kb kc : Bool} {s0 z : State} (copy : Nat) (o : FwObs) (policy : Option FwObs) (mode flash ms : Nat) (hk : Keeps ka kb kc s0 z) :
    Keeps ka kb kc s0 (State.runCabinet z copy o policy mode flash ms) := by
  unfold State.runCabinet
  grind (ematch := 40) (gen := 40) (splits := 40) (instances := 20000) [Keeps.mk_, State.bootVcore_keeps, State.fwRefused_keeps, State.loadPolicy_keeps, State.setDev_keeps, State.setMeas_keeps, State.set_keeps, State.stayBare_keeps, State.syncCombo_keeps]

theorem State.verifyCabinet_keeps {ka kb kc : Bool} {s0 z : State} (a b : FwObs) (policy : Option FwObs) (mode flash ms : Nat) (hk : Keeps ka kb kc s0 z) :
    Keeps ka kb kc s0 (State.verifyCabinet z a b policy mode flash ms) := by
  unfold State.verifyCabinet
  grind [Keeps.mk_, State.bootStop_keeps, State.fwRefused_keeps, State.runCabinet_keeps]

theorem State.startWorkbench_keeps {ka kb kc : Bool} {s0 z : State} (o : FwObs) (policy : Bool) (ms : Nat) (hk : Keeps ka kb kc s0 z) :
    Keeps ka kb kc s0 (State.startWorkbench z o policy ms) := by
  unfold State.startWorkbench
  grind [Keeps.mk_, State.bootDone_keeps, State.setMeas_keeps, State.set_keeps, State.syncCombo_keeps]

theorem State.refuseWorkbench_keeps {ka kb kc : Bool} {s0 z : State} (c : Status) (ms : Nat) (hk : Keeps ka kb kc s0 z) :
    Keeps ka kb kc s0 (State.refuseWorkbench z c ms) := by
  unfold State.refuseWorkbench
  grind [Keeps.mk_, State.fwRefused_keeps, State.set_keeps, State.stayBare_keeps]

theorem State.checkWorkbench_keeps {ka kb kc : Bool} {s0 z : State} (o : FwObs) (ms : Nat) (hk : Keeps ka kb kc s0 z) :
    Keeps ka kb kc s0 (State.checkWorkbench z o ms) := by
  unfold State.checkWorkbench
  grind [Keeps.mk_, State.refuseWorkbench_keeps, State.startWorkbench_keeps]

theorem State.setTarget_keeps {ka kb kc : Bool} {s0 z : State} (kind n world : Nat) (hk : Keeps ka kb kc s0 z) :
    Keeps ka kb kc s0 (State.setTarget z kind n world) := by
  unfold State.setTarget
  grind [Keeps.mk_, State.set_keeps]

theorem State.worldSet_keeps {ka kb kc : Bool} {s0 z : State} (kind world first count : Nat) (hk : Keeps ka kb kc s0 z) :
    CmdEnd.Keeps ka kb kc s0 (State.worldSet z kind world first count) := by
  unfold State.worldSet
  grind [Keeps.mk_, CmdEnd.Keeps, State.addSat_keeps, State.count_keeps, State.each_keeps, State.raise_keeps, State.setTarget_keeps, State.syncMeas_keeps]

/-! ### RegOps -/

theorem State.oweEnabled_keeps {ka kb kc : Bool} {s0 z : State} (g old : Nat) (hk : Keeps ka kb kc s0 z) :
    Keeps ka kb kc s0 (State.oweEnabled z g old) := by
  unfold State.oweEnabled
  grind [Keeps.mk_, State.each_keeps, State.owe_keeps]

theorem State.afterWrite_keeps {ka kb kc : Bool} {s0 z : State} (old : State) (r : Reg) (i x : Nat) (hk : Keeps ka kb kc s0 z) :
    Keeps ka kb kc s0 (State.afterWrite z old r i x) := by
  unfold State.afterWrite
  grind [Keeps.mk_, State.each_keeps, State.gatesLow_keeps, State.oweEnabled_keeps, State.setThm_keeps, State.set_keeps, State.syncFail_keeps, State.syncLow_keeps, State.syncMeas_keeps, State.syncMember_keeps, State.syncSteer_keeps, State.syncStream_keeps, State.syncSum_keeps]

theorem State.regWrite_keeps {ka kb kc : Bool} {s0 z : State} (w : World) (r : Reg) (i j x : Nat) (hk : Keeps ka kb kc s0 z) :
    Keeps ka kb kc s0 (State.regWrite z w r i j x) := by
  unfold State.regWrite
  grind [Keeps.mk_, State.afterWrite_keeps, State.hostWrite_keeps, State.streamRefused_keeps, State.writeParts_keeps]

theorem State.controlWrite_keeps {ka kb : Bool} {s0 z : State} (w : World) (a x : Nat) (hk : Keeps ka kb false s0 z) :
    Keeps ka kb false s0 (State.controlWrite z w a x) := by
  unfold State.controlWrite
  grind (ematch := 40) (gen := 40) (splits := 40) (instances := 20000) [Keeps.mk_, Keeps.mbox_, State.regWrite_keeps, State.windowWrite_keeps]

theorem State.latchPair_keeps {ka kb kc : Bool} {s0 z : State} (w : World) (id : RegId) (a : Nat) (t : Int) (hk : Keeps ka kb kc s0 z) :
    Keeps ka kb kc s0 (State.latchPair z w id a t) := by
  unfold State.latchPair
  grind [Keeps.mk_]

theorem State.controlRead_keeps {ka kb kc : Bool} {s0 z : State} (w : World) (a : Nat) (t : Int) (hk : Keeps ka kb kc s0 z) :
    Keeps ka kb kc s0 (State.controlRead z w a t) := by
  unfold State.controlRead
  grind [Keeps.mk_, State.hostRead_keeps, State.latchPair_keeps]

end Sys2Proof.Machine
end

