-- ==== Sys2Proof/Laws/KeepsCommands.lean ====
section
/-! SUPPORT. What the meaning of every command keeps, one lemma a meaning. -/

set_option maxHeartbeats 400000

open Sys2Proof

namespace Sys2Proof.Machine
/-! ### Access -/

theorem execRegisterWrite_keeps {ka kb : Bool} {s0 z : State} (w : World) (a : Fin 16777216) (v : BitVec 32) (hk : Keeps ka kb false s0 z) :
    Out.Keeps ka kb false s0 (execRegisterWrite w a v z) := by
  unfold execRegisterWrite
  grind [Keeps.mk_, Out.Keeps, CmdEnd.Keeps, State.controlWrite_keeps]

theorem execHoldingRegisterLoRead_keeps {ka kb kc : Bool} {s0 z : State} (w : World) (a : Fin 16777216) (t : Int) (hk : Keeps ka kb kc s0 z) :
    Out.Keeps ka kb kc s0 (execHoldingRegisterLoRead w a t z) := by
  unfold execHoldingRegisterLoRead
  grind [Keeps.mk_, Out.Keeps, CmdEnd.Keeps, State.controlRead_keeps]

/-! ### Boot -/

theorem execDevResetEntry_keeps {s0 z : State}  (hk : Keeps false false false s0 z) :
    Out.Keeps false false false s0 (execDevResetEntry z) := by
  unfold execDevResetEntry
  grind [Keeps.mk_, Out.Keeps, CmdEnd.Keeps, State.resetDevice_keeps]

theorem execPorAssert_keeps {s0 z : State}  (hk : Keeps false false false s0 z) :
    Out.Keeps false false false s0 (execPorAssert z) := by
  unfold execPorAssert
  grind [Keeps.mk_, Out.Keeps, CmdEnd.Keeps, State.emit_keeps, State.resetAll_keeps]

theorem execResetExit_keeps {ka kb kc : Bool} {s0 z : State}  (hk : Keeps ka kb kc s0 z) :
    Out.Keeps ka kb kc s0 (execResetExit z) := by
  unfold execResetExit
  grind [Keeps.mk_, Out.Keeps, CmdEnd.Keeps, State.set_keeps]

theorem execVcoreRemoved_keeps {s0 z : State}  (hk : Keeps false false false s0 z) :
    Out.Keeps false false false s0 (execVcoreRemoved z) := by
  unfold execVcoreRemoved
  grind [Keeps.mk_, Out.Keeps, CmdEnd.Keeps, Keeps.fresh_, State.clearedBut_keeps, State.emit_keeps, State.set_keeps]

theorem execCabinetVerifyDone_keeps {ka kb kc : Bool} {s0 z : State} (a b : FwObs) (policy : Option FwObs) (mode : Byte) (flash ms : Nat) (hk : Keeps ka kb kc s0 z) :
    Out.Keeps ka kb kc s0 (execCabinetVerifyDone a b policy mode flash ms z) := by
  unfold execCabinetVerifyDone
  grind [Keeps.mk_, Out.Keeps, CmdEnd.Keeps, State.verifyCabinet_keeps]

theorem execBootVcoreTimeout_keeps {ka kb kc : Bool} {s0 z : State}  (hk : Keeps ka kb kc s0 z) :
    Out.Keeps ka kb kc s0 (execBootVcoreTimeout z) := by
  unfold execBootVcoreTimeout
  grind [Keeps.mk_, Out.Keeps, CmdEnd.Keeps, State.bootVcoreFail_keeps]

theorem execHbmTrainingDone_keeps {ka kb kc : Bool} {s0 z : State} (ok : BitVec 4) (ms : Nat) (hk : Keeps ka kb kc s0 z) :
    Out.Keeps ka kb kc s0 (execHbmTrainingDone ok ms z) := by
  unfold execHbmTrainingDone
  grind [Keeps.mk_, Out.Keeps, CmdEnd.Keeps, State.bootDone_keeps, State.set_keeps, State.stayBare_keeps]

theorem execWorkbenchCheckDone_keeps {ka kb kc : Bool} {s0 z : State} (o : FwObs) (ms : Nat) (hk : Keeps ka kb kc s0 z) :
    Out.Keeps ka kb kc s0 (execWorkbenchCheckDone o ms z) := by
  unfold execWorkbenchCheckDone
  grind [Keeps.mk_, Out.Keeps, CmdEnd.Keeps, State.checkWorkbench_keeps]

theorem execWorldSet_keeps {ka kb : Bool} {s0 z : State} (r : Fin 2) (hk : Keeps ka kb false s0 z) :
    Out.Keeps ka kb false s0 (execWorldSet r z) := by
  unfold execWorldSet
  grind [Keeps.mk_, Out.Keeps, CmdEnd.Keeps, State.command_keeps, State.worldSet_keeps]

theorem execPadSlewWrite_keeps {ka kb kc : Bool} {s0 z : State} (w : World) (v : BitVec 32) (hk : Keeps ka kb kc s0 z) :
    Out.Keeps ka kb kc s0 (execPadSlewWrite w v z) := by
  unfold execPadSlewWrite
  grind [Keeps.mk_, Out.Keeps, CmdEnd.Keeps, State.each_keeps, State.hostWrite_keeps, State.refuse_keeps, State.set_keeps]

theorem execSerdesRefclkLoss_keeps {ka kb kc : Bool} {s0 z : State} (x : RefClk) (hk : Keeps ka kb kc s0 z) :
    Out.Keeps ka kb kc s0 (execSerdesRefclkLoss x z) := by
  unfold execSerdesRefclkLoss
  grind [Keeps.mk_, Out.Keeps, CmdEnd.Keeps, State.each_keeps, State.ethLinkTo_keeps, State.kelimRetrain_keeps, State.retrainLane_keeps, State.set_keeps]

/-! ### Hif -/

theorem execStreamEnable_keeps {ka kb kc : Bool} {s0 z : State} (w : World) (c : Fin 64) (v : BitVec 32) (hk : Keeps ka kb kc s0 z) :
    Out.Keeps ka kb kc s0 (execStreamEnable w c v z) := by
  unfold execStreamEnable
  grind [Keeps.mk_, Out.Keeps, CmdEnd.Keeps, State.set_keeps, State.streamWrite_keeps, State.syncStream_keeps]

theorem execStreamDisable_keeps {ka kb kc : Bool} {s0 z : State} (w : World) (c : Fin 64) (v : BitVec 32) (hk : Keeps ka kb kc s0 z) :
    Out.Keeps ka kb kc s0 (execStreamDisable w c v z) := by
  unfold execStreamDisable
  grind [Keeps.mk_, Out.Keeps, CmdEnd.Keeps, State.stopStream_keeps, State.streamWrite_keeps]

theorem execHqEntryEnable_keeps {ka kb kc : Bool} {s0 z : State} (w : World) (j : Fin 1024) (v : BitVec 32) (hk : Keeps ka kb kc s0 z) :
    Out.Keeps ka kb kc s0 (execHqEntryEnable w j v z) := by
  unfold execHqEntryEnable
  grind [Keeps.mk_, Out.Keeps, CmdEnd.Keeps, State.rowWrite_keeps]

theorem execDmaTailWrite_keeps {ka kb kc : Bool} {s0 z : State} (w : World) (c : Fin 64) (v : BitVec 32) (hk : Keeps ka kb kc s0 z) :
    Out.Keeps ka kb kc s0 (execDmaTailWrite w c v z) := by
  unfold execDmaTailWrite
  grind [Keeps.mk_, Out.Keeps, CmdEnd.Keeps, State.streamWrite_keeps, State.syncStream_keeps]

theorem execReleaseChunk_keeps {ka kb kc : Bool} {s0 z : State} (c : Fin 64) (d : HostDesc) (hk : Keeps ka kb kc s0 z) :
    Out.Keeps ka kb kc s0 (execReleaseChunk c d z) := by
  unfold execReleaseChunk
  grind [Keeps.mk_, Out.Keeps, CmdEnd.Keeps, State.fetchDesc_keeps, State.releaseDma_keeps, State.releaseEth_keeps, State.syncStream_keeps]

theorem execDescriptorReadError_keeps {ka kb kc : Bool} {s0 z : State} (c : Fin 64) (timeout : Bool) (hk : Keeps ka kb kc s0 z) :
    Out.Keeps ka kb kc s0 (execDescriptorReadError c timeout z) := by
  unfold execDescriptorReadError
  grind [Keeps.mk_, Out.Keeps, CmdEnd.Keeps, State.addSat_keeps, State.raise_keeps, State.setStream_keeps, State.set_keeps]

theorem execDatagramSend_keeps {ka kb kc : Bool} {s0 z : State} (c : Fin 64) (t : Int) (hk : Keeps ka kb kc s0 z) :
    Out.Keeps ka kb kc s0 (execDatagramSend c t z) := by
  unfold execDatagramSend
  grind [Keeps.mk_, Out.Keeps, CmdEnd.Keeps, State.sendDgram_keeps]

theorem execPauseFrameRx_keeps {ka kb kc : Bool} {s0 z : State} (pn : Fin 4) (quanta : BitVec 16) (hk : Keeps ka kb kc s0 z) :
    Out.Keeps ka kb kc s0 (execPauseFrameRx pn quanta z) := by
  unfold execPauseFrameRx
  grind [Keeps.mk_, Out.Keeps, CmdEnd.Keeps, State.set_keeps, State.syncPort_keeps]

theorem execPauseTimeExpiry_keeps {ka kb kc : Bool} {s0 z : State} (pn : Fin 4) (hk : Keeps ka kb kc s0 z) :
    Out.Keeps ka kb kc s0 (execPauseTimeExpiry pn z) := by
  unfold execPauseTimeExpiry
  grind [Keeps.mk_, Out.Keeps, CmdEnd.Keeps, State.set_keeps, State.syncPort_keeps]

theorem execEthFrameDiscard_keeps {ka kb kc : Bool} {s0 z : State} (pn : Fin 4) (hk : Keeps ka kb kc s0 z) :
    Out.Keeps ka kb kc s0 (execEthFrameDiscard pn z) := by
  unfold execEthFrameDiscard
  grind [Keeps.mk_, Out.Keeps, CmdEnd.Keeps, State.add_keeps]

theorem execEthLinkChange_keeps {ka kb kc : Bool} {s0 z : State} (pn : Fin 4) (up fecLock : Bool) (corr uncorr : Nat) (hk : Keeps ka kb kc s0 z) :
    Out.Keeps ka kb kc s0 (execEthLinkChange pn up fecLock corr uncorr z) := by
  unfold execEthLinkChange
  grind [Keeps.mk_, Out.Keeps, CmdEnd.Keeps, State.addSat_keeps, State.ethLinkTo_keeps, State.set_keeps]

theorem execEthPortConfigWrite_keeps {ka kb kc : Bool} {s0 z : State} (w : World) (pn : Fin 4) (k : Fin 4) (v : BitVec 32) (hk : Keeps ka kb kc s0 z) :
    Out.Keeps ka kb kc s0 (execEthPortConfigWrite w pn k v z) := by
  unfold execEthPortConfigWrite
  grind [Keeps.mk_, Out.Keeps, CmdEnd.Keeps, State.rowWrite_keeps]

theorem execPtpMessageRx_keeps {ka kb kc : Bool} {s0 z : State} (pn : Fin 4) (dest : PtpDest) (domain : Byte) (m : PtpMsg) (hk : Keeps ka kb kc s0 z) :
    Out.Keeps ka kb kc s0 (execPtpMessageRx pn dest domain m z) := by
  unfold execPtpMessageRx
  grind [Keeps.mk_, Out.Keeps, CmdEnd.Keeps, State.add_keeps, State.ptpAnnounce_keeps, State.ptpDelay_keeps, State.ptpSync_keeps, State.setPtp_keeps]

theorem execPtpSyncTimeout_keeps {ka kb kc : Bool} {s0 z : State}  (hk : Keeps ka kb kc s0 z) :
    Out.Keeps ka kb kc s0 (execPtpSyncTimeout z) := by
  unfold execPtpSyncTimeout
  grind [Keeps.mk_, Out.Keeps, CmdEnd.Keeps, State.setPtpLock_keeps, State.setPtp_keeps]

theorem execPf0Flr_keeps {ka kb kc : Bool} {s0 z : State}  (hk : Keeps ka kb kc s0 z) :
    Out.Keeps ka kb kc s0 (execPf0Flr z) := by
  unfold execPf0Flr
  grind [Keeps.mk_, Out.Keeps, CmdEnd.Keeps, State.breakPf0_keeps]

theorem execPf0D3hotEntry_keeps {ka kb kc : Bool} {s0 z : State}  (hk : Keeps ka kb kc s0 z) :
    Out.Keeps ka kb kc s0 (execPf0D3hotEntry z) := by
  unfold execPf0D3hotEntry
  grind [Keeps.mk_, Out.Keeps, CmdEnd.Keeps, State.breakPf0_keeps]

theorem execPcieLinkLoss_keeps {ka kb kc : Bool} {s0 z : State}  (hk : Keeps ka kb kc s0 z) :
    Out.Keeps ka kb kc s0 (execPcieLinkLoss z) := by
  unfold execPcieLinkLoss
  grind [Keeps.mk_, Out.Keeps, CmdEnd.Keeps, State.loseLink_keeps]

theorem execPcieLinkUp_keeps {ka kb kc : Bool} {s0 z : State} (speed width : Fin 5) (hk : Keeps ka kb kc s0 z) :
    Out.Keeps ka kb kc s0 (execPcieLinkUp speed width z) := by
  unfold execPcieLinkUp
  grind [Keeps.mk_, Out.Keeps, CmdEnd.Keeps, State.set_keeps]

theorem execPerstAssert_keeps {ka kb kc : Bool} {s0 z : State}  (hk : Keeps ka kb kc s0 z) :
    Out.Keeps ka kb kc s0 (execPerstAssert z) := by
  unfold execPerstAssert
  grind [Keeps.mk_, Out.Keeps, CmdEnd.Keeps, State.loseLink_keeps]

theorem execPerstRelease_keeps {ka kb kc : Bool} {s0 z : State}  (hk : Keeps ka kb kc s0 z) :
    Out.Keeps ka kb kc s0 (execPerstRelease z) := by
  unfold execPerstRelease
  grind [Keeps.mk_, Out.Keeps, CmdEnd.Keeps]

theorem execBar0BadAccess_keeps {ka kb kc : Bool} {s0 z : State} (w : World) (a : Nat) (hk : Keeps ka kb kc s0 z) :
    Out.Keeps ka kb kc s0 (execBar0BadAccess w a z) := by
  unfold execBar0BadAccess
  grind [Keeps.mk_, Out.Keeps, CmdEnd.Keeps, State.addSat_keeps, State.emit_keeps, State.raise_keeps]

theorem execBar2Read_keeps {kb kc : Bool} {s0 z : State} (a : Nat) (x : BarRead) (hk : Keeps false kb kc s0 z) :
    Out.Keeps false kb kc s0 (execBar2Read a x z) := by
  unfold execBar2Read
  grind [Keeps.mk_, Out.Keeps, CmdEnd.Keeps, State.crossWorld_keeps, State.emit_keeps, State.takeFresh_keeps, State.windowError_keeps]

theorem execBar2Write_keeps {ka kb kc : Bool} {s0 z : State} (a : Nat) (hk : Keeps ka kb kc s0 z) :
    Out.Keeps ka kb kc s0 (execBar2Write a z) := by
  unfold execBar2Write
  grind [Keeps.mk_, Out.Keeps, CmdEnd.Keeps, State.addSat_keeps, State.emit_keeps]

theorem execMsixMessage_keeps {ka kb kc : Bool} {s0 z : State} (f : Fin 2) (v : Fin 256) (t : Int) (hk : Keeps ka kb kc s0 z) :
    Out.Keeps ka kb kc s0 (execMsixMessage f v t z) := by
  unfold execMsixMessage
  grind [Keeps.mk_, Out.Keeps, CmdEnd.Keeps, State.serveVector_keeps]

theorem execMsixUnmask_keeps {ka kb kc : Bool} {s0 z : State} (f : Fin 2) (v : Fin 256) (x : MsixEntry) (hk : Keeps ka kb kc s0 z) :
    Out.Keeps ka kb kc s0 (execMsixUnmask f v x z) := by
  unfold execMsixUnmask
  grind [Keeps.mk_, Out.Keeps, CmdEnd.Keeps, State.sendVector_keeps]

/-! ### Hlf -/

theorem execPixelPacketRx_keeps {ka kb kc : Bool} {s0 z : State} (l : Fin 192) (k : Packet) (hk : Keeps ka kb kc s0 z) :
    Out.Keeps ka kb kc s0 (execPixelPacketRx l k z) := by
  unfold execPixelPacketRx
  grind (ematch := 40) (gen := 40) (splits := 40) (instances := 20000) [Keeps.mk_, Out.Keeps, CmdEnd.Keeps, State.add_keeps, State.count_keeps, State.drainHead_keeps, State.packetIn_keeps, State.setLane_keeps]

theorem execLineTimeoutFill_keeps {ka kb kc : Bool} {s0 z : State} (p : Fin 96) (hk : Keeps ka kb kc s0 z) :
    Out.Keeps ka kb kc s0 (execLineTimeoutFill p z) := by
  unfold execLineTimeoutFill
  grind [Keeps.mk_, Out.Keeps, CmdEnd.Keeps, State.fillLine_keeps]

theorem execCapPacketRx_keeps {ka kb kc : Bool} {s0 z : State} (l : Fin 192) (k : Packet) (hk : Keeps ka kb kc s0 z) :
    Out.Keeps ka kb kc s0 (execCapPacketRx l k z) := by
  unfold execCapPacketRx
  grind [Keeps.mk_, Out.Keeps, CmdEnd.Keeps, State.countBad_keeps, State.packetIn_keeps, State.returnCredits_keeps, State.takeCap_keeps]

theorem execCfgRespRx_keeps {ka kb kc : Bool} {s0 z : State} (l : Fin 192) (k : Packet) (hk : Keeps ka kb kc s0 z) :
    Out.Keeps ka kb kc s0 (execCfgRespRx l k z) := by
  unfold execCfgRespRx
  grind (ematch := 40) (gen := 40) (splits := 40) (instances := 20000) [Keeps.mk_, Out.Keeps, CmdEnd.Keeps, State.cfgResponse_keeps, State.packetIn_keeps, State.returnCredits_keeps]

theorem execHeadEventRx_keeps {ka kb kc : Bool} {s0 z : State} (l : Fin 192) (k : Packet) (hk : Keeps ka kb kc s0 z) :
    Out.Keeps ka kb kc s0 (execHeadEventRx l k z) := by
  unfold execHeadEventRx
  grind [Keeps.mk_, Out.Keeps, CmdEnd.Keeps, State.packetIn_keeps, State.raise_keeps, State.returnCredits_keeps, State.setHead_keeps]

theorem execCredStatusRx_keeps {ka kb kc : Bool} {s0 z : State} (l : Fin 192) (held rxReturned _spent : BitVec 16) (initAck : Bool) (hk : Keeps ka kb kc s0 z) :
    Out.Keeps ka kb kc s0 (execCredStatusRx l held rxReturned _spent initAck z) := by
  unfold execCredStatusRx
  grind [Keeps.mk_, Out.Keeps, CmdEnd.Keeps, State.creditAudit_keeps, State.initAck_keeps]

theorem execTrainBlockRx_keeps {ka kb kc : Bool} {s0 z : State} (l : Fin 192) (phase : BitVec 4) (errors : BitVec 32) (t : Int) (hk : Keeps ka kb kc s0 z) :
    Out.Keeps ka kb kc s0 (execTrainBlockRx l phase errors t z) := by
  unfold execTrainBlockRx
  grind [Keeps.mk_, Out.Keeps, CmdEnd.Keeps, State.checkLanePrbs_keeps, State.checkPrbs_keeps, State.checkSwitch_keeps, State.setLane_keeps, State.switchMode_keeps]

theorem execEchoRx_keeps {ka kb kc : Bool} {s0 z : State} (l : Fin 192) (tag : BitVec 16) (turn : BitVec 20) (e : EchoTrip) (hk : Keeps ka kb kc s0 z) :
    Out.Keeps ka kb kc s0 (execEchoRx l tag turn e z) := by
  unfold execEchoRx
  grind (ematch := 40) (gen := 40) (splits := 40) (instances := 20000) [Keeps.mk_, Out.Keeps, CmdEnd.Keeps, State.checkDelay_keeps, State.creditInit_keeps, State.portLeaves_keeps, State.sendDue_keeps, State.setLane_keeps, State.set_keeps, State.syncLead_keeps]

theorem execLinkCtrlRetrainRx_keeps {ka kb kc : Bool} {s0 z : State} (l : Fin 192) (hk : Keeps ka kb kc s0 z) :
    Out.Keeps ka kb kc s0 (execLinkCtrlRetrainRx l z) := by
  unfold execLinkCtrlRetrainRx
  grind [Keeps.mk_, Out.Keeps, CmdEnd.Keeps, State.retrainLane_keeps]

theorem execUnknownCtrlBlockRx_keeps {ka kb kc : Bool} {s0 z : State} (l : Fin 192) (kind : BitVec 8) (hk : Keeps ka kb kc s0 z) :
    Out.Keeps ka kb kc s0 (execUnknownCtrlBlockRx l kind z) := by
  unfold execUnknownCtrlBlockRx
  grind [Keeps.mk_, Out.Keeps, CmdEnd.Keeps, State.dropOn_keeps]

theorem execLaneSyncHeaderErrors_keeps {ka kb kc : Bool} {s0 z : State} (l : Fin 192) (lockLost : Bool) (hk : Keeps ka kb kc s0 z) :
    Out.Keeps ka kb kc s0 (execLaneSyncHeaderErrors l lockLost z) := by
  unfold execLaneSyncHeaderErrors
  grind [Keeps.mk_, Out.Keeps, CmdEnd.Keeps, State.retrainLane_keeps, State.set_keeps, State.when_keeps]

theorem State.resumeDiscover_keeps {ka kb kc : Bool} {s0 z : State} (p : Nat) (hk : Keeps ka kb kc s0 z) :
    Keeps ka kb kc s0 (State.resumeDiscover z p) := by
  unfold State.resumeDiscover
  grind [Keeps.mk_, State.startDiscover_keeps]

theorem State.laneLocked_keeps {ka kb kc : Bool} {s0 z : State} (l : Nat) (hk : Keeps ka kb kc s0 z) :
    Keeps ka kb kc s0 (State.laneLocked z l) := by
  unfold State.laneLocked
  grind [Keeps.mk_, State.checkLanePrbs_keeps, State.checkPrbs_keeps, State.checkSwitch_keeps, State.sendBlock_keeps, State.set_keeps, State.startDiscover_keeps, State.startPrbs_keeps]

theorem execLaneBlockLock_keeps {ka kb kc : Bool} {s0 z : State} (x : LockSeen) (hk : Keeps ka kb kc s0 z) :
    Out.Keeps ka kb kc s0 (execLaneBlockLock x z) := by
  unfold execLaneBlockLock
  grind [Keeps.mk_, Out.Keeps, CmdEnd.Keeps, State.laneLocked_keeps, State.setLane_keeps]

theorem execDiscoverTimeout_keeps {ka kb kc : Bool} {s0 z : State} (p : Fin 96) (hk : Keeps ka kb kc s0 z) :
    Out.Keeps ka kb kc s0 (execDiscoverTimeout p z) := by
  unfold execDiscoverTimeout
  grind [Keeps.mk_, Out.Keeps, CmdEnd.Keeps, State.setHead_keeps, State.setPort_keeps]

theorem execDiscoverRetry_keeps {ka kb kc : Bool} {s0 z : State} (p : Fin 96) (hk : Keeps ka kb kc s0 z) :
    Out.Keeps ka kb kc s0 (execDiscoverRetry p z) := by
  unfold execDiscoverRetry
  grind [Keeps.mk_, Out.Keeps, CmdEnd.Keeps, State.setHead_keeps, State.startDiscover_keeps]

theorem execSwitchTimeout_keeps {ka kb kc : Bool} {s0 z : State} (p : Fin 96) (hk : Keeps ka kb kc s0 z) :
    Out.Keeps ka kb kc s0 (execSwitchTimeout p z) := by
  unfold execSwitchTimeout
  grind [Keeps.mk_, Out.Keeps, CmdEnd.Keeps, State.nextCandidate_keeps]

theorem execPrbsTestDone_keeps {ka kb kc : Bool} {s0 z : State} (l : Fin 192) (errors : BitVec 32) (hk : Keeps ka kb kc s0 z) :
    Out.Keeps ka kb kc s0 (execPrbsTestDone l errors z) := by
  unfold execPrbsTestDone
  grind [Keeps.mk_, Out.Keeps, CmdEnd.Keeps, State.checkLanePrbs_keeps, State.checkPrbs_keeps, State.setLane_keeps, State.set_keeps]

theorem execRetrainTimeout_keeps {ka kb kc : Bool} {s0 z : State} (l : Fin 192) (hk : Keeps ka kb kc s0 z) :
    Out.Keeps ka kb kc s0 (execRetrainTimeout l z) := by
  unfold execRetrainTimeout
  grind [Keeps.mk_, Out.Keeps, CmdEnd.Keeps, State.renegotiate_keeps]

theorem execCreditBlockRefresh_keeps {ka kb kc : Bool} {s0 z : State} (l : Fin 192) (hk : Keeps ka kb kc s0 z) :
    Out.Keeps ka kb kc s0 (execCreditBlockRefresh l z) := by
  unfold execCreditBlockRefresh
  grind [Keeps.mk_, Out.Keeps, CmdEnd.Keeps, State.drainLane_keeps, State.sendBlock_keeps]

theorem execDelayMeasureTimer_keeps {ka kb kc : Bool} {s0 z : State} (p : Fin 96) (hk : Keeps ka kb kc s0 z) :
    Out.Keeps ka kb kc s0 (execDelayMeasureTimer p z) := by
  unfold execDelayMeasureTimer
  grind [Keeps.mk_, Out.Keeps, CmdEnd.Keeps, State.each_keeps, State.sendEcho_keeps]

theorem execHlfCtrlWrite_keeps {ka kb kc : Bool} {s0 z : State} (w : World) (v : BitVec 32) (hk : Keeps ka kb kc s0 z) :
    Out.Keeps ka kb kc s0 (execHlfCtrlWrite w v z) := by
  unfold execHlfCtrlWrite
  grind [Keeps.mk_, Out.Keeps, CmdEnd.Keeps, State.each_keeps, State.resumeDiscover_keeps, State.rowWrite_keeps, State.setHead_keeps, State.setPort_keeps]

theorem State.portEnable_keeps {ka kb kc : Bool} {s0 z : State} (p : Nat) (hk : Keeps ka kb kc s0 z) :
    Keeps ka kb kc s0 (State.portEnable z p) := by
  unfold State.portEnable
  grind [Keeps.mk_, State.portLeaves_keeps, State.renegotiate_keeps, State.setHead_keeps, State.setPort_keeps, State.startDiscover_keeps]

theorem execPortEnableWrite_keeps {ka kb kc : Bool} {s0 z : State} (w : World) (p : Fin 96) (v : BitVec 32) (hk : Keeps ka kb kc s0 z) :
    Out.Keeps ka kb kc s0 (execPortEnableWrite w p v z) := by
  unfold execPortEnableWrite
  grind [Keeps.mk_, Out.Keeps, CmdEnd.Keeps, State.portEnable_keeps, State.rowWrite_keeps]

theorem execPortRetrain_keeps {ka kb kc : Bool} {s0 z : State} (w : World) (p : Fin 96) (v : BitVec 32) (hk : Keeps ka kb kc s0 z) :
    Out.Keeps ka kb kc s0 (execPortRetrain w p v z) := by
  unfold execPortRetrain
  grind [Keeps.mk_, Out.Keeps, CmdEnd.Keeps, State.portEnable_keeps, State.renegotiate_keeps, State.rowWrite_keeps]

theorem execHeadCfgRequest_keeps {ka kb kc : Bool} {s0 z : State} (w : World) (v : BitVec 32) (hk : Keeps ka kb kc s0 z) :
    Out.Keeps ka kb kc s0 (execHeadCfgRequest w v z) := by
  unfold execHeadCfgRequest
  grind [Keeps.mk_, Out.Keeps, CmdEnd.Keeps, State.nextRequest_keeps, State.rowWrite_keeps, State.set_keeps]

theorem execHeadCfgTimeout_keeps {ka kb kc : Bool} {s0 z : State}  (hk : Keeps ka kb kc s0 z) :
    Out.Keeps ka kb kc s0 (execHeadCfgTimeout z) := by
  unfold execHeadCfgTimeout
  grind [Keeps.mk_, Out.Keeps, CmdEnd.Keeps, State.endCfg_keeps, State.nextRequest_keeps]

/-! ### Iea -/

theorem State.firePort_keeps {ka kb kc : Bool} {s0 z : State} (e c : Nat) (hk : Keeps ka kb kc s0 z) :
    Keeps ka kb kc s0 (State.firePort z e c) := by
  unfold State.firePort
  grind [Keeps.mk_, State.countFiring_keeps, State.fireInput_keeps, State.fireOutput_keeps]

theorem State.fireCell_keeps {ka kb kc : Bool} {s0 z : State} (e c : Nat) (hk : Keeps ka kb kc s0 z) : Keeps ka kb kc s0 (State.fireCell z e c) := by
  unfold State.fireCell
  dsimp only
  split
  · exact hk
  · exact State.faultEngine_keeps _ _ _ hk
  · next y n _ =>
    have h1 := Keeps.fresh_ (State.setEngine_keeps e y hk) n
    split
    · exact h1
    · exact State.countFiring_keeps _ _ h1

theorem State.storeError_keeps {ka kb kc : Bool} {s0 z : State} (e c : Nat) (p0 : LsErr) (hk : Keeps ka kb kc s0 z) :
    Keeps ka kb kc s0 (State.storeError z e c p0).2 := by
  induction p0 generalizing z <;> grind [State.storeError, Keeps.mk_, State.addSat_keeps, State.faultEngine_keeps]

theorem State.afterFiring_keeps {ka kb kc : Bool} {s0 z : State} (e : Nat) (hk : Keeps ka kb kc s0 z) :
    Keeps ka kb kc s0 (State.afterFiring z e) := by
  unfold State.afterFiring
  grind [Keeps.mk_, State.checkReload_keeps, State.syncHeld_keeps]

theorem execCellFire_keeps {ka kb kc : Bool} {s0 z : State} (e : Fin 512) (c : Fin 48) (err : LsErr) (busy : Nat) (hk : Keeps ka kb kc s0 z) :
    Out.Keeps ka kb kc s0 (execCellFire e c err busy z) := by
  unfold execCellFire
  grind [Keeps.mk_, Out.Keeps, CmdEnd.Keeps, State.add_keeps, State.afterFiring_keeps, State.discardInput_keeps, State.fireCell_keeps, State.firePort_keeps, State.portWord_keeps, State.storeError_keeps]

theorem execHandshakeTimeoutFault_keeps {ka kb kc : Bool} {s0 z : State} (e : Fin 512) (c : Fin 48) (hk : Keeps ka kb kc s0 z) :
    Out.Keeps ka kb kc s0 (execHandshakeTimeoutFault e c z) := by
  unfold execHandshakeTimeoutFault
  grind [Keeps.mk_, Out.Keeps, CmdEnd.Keeps, State.afterFiring_keeps, State.faultEngine_keeps]

theorem execSeqContinue_keeps {ka kb kc : Bool} {s0 z : State} (w : World) (e : Fin 512) (hk : Keeps ka kb kc s0 z) :
    Out.Keeps ka kb kc s0 (execSeqContinue w e z) := by
  unfold execSeqContinue
  grind [Keeps.mk_, Out.Keeps, CmdEnd.Keeps, State.afterFiring_keeps, State.hostWrite_keeps, State.seqStep_keeps]

theorem State.lsRead_keeps {ka kb kc : Bool} {s0 z : State} (i a : Nat) (err : LsErr) (hk : Keeps ka kb kc s0 z) :
    Keeps ka kb kc s0 (State.lsRead z i a err) := by
  unfold State.lsRead
  have h1 : Keeps ka kb kc s0 (if err = .uncorrectable then { z with fresh := z.fresh + 1 } else z) := by
    split
    · exact Keeps.fresh_ hk 1
    · exact hk
  dsimp only
  split
  · exact State.set_keeps _ _ _ _ h1
  · exact State.set_keeps _ _ _ _ (State.afterFiring_keeps _ (State.storeError_keeps _ _ _ h1))

theorem execLocalStoreAccess_keeps {ka kb kc : Bool} {s0 z : State} (w : World) (e : Fin 512) (x : LsAccess) (hk : Keeps ka kb kc s0 z) :
    Out.Keeps ka kb kc s0 (execLocalStoreAccess w e x z) := by
  unfold execLocalStoreAccess
  grind [Keeps.mk_, Out.Keeps, CmdEnd.Keeps, State.hostRead_keeps, State.hostWrite_keeps, State.lsRead_keeps, State.modEngine_keeps, State.set_keeps]

/-! ### Ilc -/

theorem State.judgeObservation_keeps {ka kb kc : Bool} {s0 z : State} (c n : Nat) (hk : Keeps ka kb kc s0 z) :
    Keeps ka kb kc s0 (State.judgeObservation z c n) := by
  unfold State.judgeObservation
  grind [Keeps.mk_, State.stringFault_keeps]

theorem execStringObservation_keeps {ka kb kc : Bool} {s0 z : State} (c : Fin 96) (cur : BitVec 12) (mv : BitVec 16) (hk : Keeps ka kb kc s0 z) :
    Out.Keeps ka kb kc s0 (execStringObservation c cur mv z) := by
  unfold execStringObservation
  grind (ematch := 40) (gen := 40) (splits := 40) (instances := 20000) [Keeps.mk_, Out.Keeps, CmdEnd.Keeps, State.judgeObservation_keeps, State.setChan_keeps, State.set_keeps]

theorem execStringOvercurrent_keeps {ka kb kc : Bool} {s0 z : State} (c : Fin 96) (hk : Keeps ka kb kc s0 z) :
    Out.Keeps ka kb kc s0 (execStringOvercurrent c z) := by
  unfold execStringOvercurrent
  grind [Keeps.mk_, Out.Keeps, CmdEnd.Keeps, State.stringFault_keeps]

theorem execDiagPulse_keeps {ka kb kc : Bool} {s0 z : State} (g : Fin 8) (hk : Keeps ka kb kc s0 z) :
    Out.Keeps ka kb kc s0 (execDiagPulse g z) := by
  unfold execDiagPulse
  grind [Keeps.mk_, Out.Keeps, CmdEnd.Keeps, State.add_keeps, State.each_keeps, State.gateOn_keeps, State.setChan_keeps]

theorem execPatternWindowWrite_keeps {ka kc : Bool} {s0 z : State} (w : World) (j : Fin 16) (o : Fin 12288) (v : BitVec 32) (hk : Keeps ka false kc s0 z) :
    Out.Keeps ka false kc s0 (execPatternWindowWrite w j o v z) := by
  unfold execPatternWindowWrite
  grind (ematch := 40) (gen := 40) (splits := 40) (instances := 20000) [Keeps.mk_, Out.Keeps, CmdEnd.Keeps, Keeps.leaf_, State.add_keeps, State.raise_keeps, State.refuse_keeps, State.windowWrite_keeps]

theorem State.pendBank_keeps {ka kb kc : Bool} {s0 z : State} (g h : Nat) (hk : Keeps ka kb kc s0 z) :
    Keeps ka kb kc s0 (State.pendBank z g h) := by
  unfold State.pendBank
  grind [Keeps.mk_, State.add_keeps, State.setGrp_keeps, State.set_keeps]

theorem execPatternSwapRequest_keeps {ka kb kc : Bool} {s0 z : State} (w : World) (g : Fin 8) (v : BitVec 32) (hk : Keeps ka kb kc s0 z) :
    Out.Keeps ka kb kc s0 (execPatternSwapRequest w g v z) := by
  unfold execPatternSwapRequest
  grind [Keeps.mk_, Out.Keeps, CmdEnd.Keeps, State.pendBank_keeps, State.rowWrite_keeps]

theorem State.forceOff_keeps {ka kb kc : Bool} {s0 z : State} (g : Nat) (b : Bool) (hk : Keeps ka kb kc s0 z) :
    Keeps ka kb kc s0 (State.forceOff z g b) := by
  unfold State.forceOff
  grind [Keeps.mk_, State.setGrp_keeps, State.set_keeps]

theorem execForceOffWrite_keeps {ka kb kc : Bool} {s0 z : State} (w : World) (g : Fin 8) (v : BitVec 32) (hk : Keeps ka kb kc s0 z) :
    Out.Keeps ka kb kc s0 (execForceOffWrite w g v z) := by
  unfold execForceOffWrite
  grind [Keeps.mk_, Out.Keeps, CmdEnd.Keeps, State.forceOff_keeps, State.gatesLow_keeps, State.rowWrite_keeps]

theorem execIlcTcompEnable_keeps {ka kb kc : Bool} {s0 z : State} (w : World) (g : Fin 8) (v : BitVec 32) (hk : Keeps ka kb kc s0 z) :
    Out.Keeps ka kb kc s0 (execIlcTcompEnable w g v z) := by
  unfold execIlcTcompEnable
  grind [Keeps.mk_, Out.Keeps, CmdEnd.Keeps, State.raise_keeps, State.rowWrite_keeps, State.setGrp_keeps, State.set_keeps]

theorem execStringFaultClear_keeps {ka kb kc : Bool} {s0 z : State} (w : World) (c : Fin 96) (v : BitVec 32) (hk : Keeps ka kb kc s0 z) :
    Out.Keeps ka kb kc s0 (execStringFaultClear w c v z) := by
  unfold execStringFaultClear
  grind [Keeps.mk_, Out.Keeps, CmdEnd.Keeps, State.rowWrite_keeps, State.setChan_keeps, State.set_keeps, State.syncFaulted_keeps]

/-! ### Kru -/

theorem State.laneRetrained_keeps {ka kb kc : Bool} {s0 z : State} (pt : Nat) (locked : List Nat) (at_ : Nat → KTrain) (hk : Keeps ka kb kc s0 z) :
    Keeps ka kb kc s0 (State.laneRetrained z pt locked at_) := by
  unfold State.laneRetrained
  grind [Keeps.mk_, State.each_keeps, State.kelimInit_keeps, State.setKlane_keeps, State.set_keeps, State.trainLane_keeps]

theorem execKruPortTrainDone_keeps {ka kb kc : Bool} {s0 z : State} (pt : Fin 2) (lock : BitVec 16) (ver : BitVec 8) (tr : List KTrain) (hk : Keeps ka kb kc s0 z) :
    Out.Keeps ka kb kc s0 (execKruPortTrainDone pt lock ver tr z) := by
  unfold execKruPortTrainDone
  grind (ematch := 40) (gen := 40) (splits := 40) (instances := 20000) [Keeps.mk_, Out.Keeps, CmdEnd.Keeps, State.authStep_keeps, State.each_keeps, State.kelimInit_keeps, State.laneRetrained_keeps, State.portLost_keeps, State.setKlane_keeps, State.setKport_keeps, State.set_keeps, State.trainLane_keeps]

theorem execKruPortRetry_keeps {ka kb kc : Bool} {s0 z : State} (pt : Fin 2) (hk : Keeps ka kb kc s0 z) :
    Out.Keeps ka kb kc s0 (execKruPortRetry pt z) := by
  unfold execKruPortRetry
  grind [Keeps.mk_, Out.Keeps, CmdEnd.Keeps, State.startTrain_keeps]

theorem execAuthFrameRx_keeps {ka kb kc : Bool} {s0 z : State} (l : Fin 32) (k : KFrame) (m : SpdmMsg) (hk : Keeps ka kb kc s0 z) :
    Out.Keeps ka kb kc s0 (execAuthFrameRx l k m z) := by
  unfold execAuthFrameRx
  grind [Keeps.mk_, Out.Keeps, CmdEnd.Keeps, State.authAnswer_keeps, State.emit_keeps, State.kelimRx_keeps, State.sendAuth_keeps, State.takeFresh_keeps]

theorem execKelimCredStatusRx_keeps {ka kb kc : Bool} {s0 z : State} (l : LaneCtl) (held rxReturned _spent : BitVec 16) (initAck : Bool) (hk : Keeps ka kb kc s0 z) :
    Out.Keeps ka kb kc s0 (execKelimCredStatusRx l held rxReturned _spent initAck z) := by
  unfold execKelimCredStatusRx
  grind [Keeps.mk_, Out.Keeps, CmdEnd.Keeps, State.ahead_keeps, State.initAck_keeps, State.kelimRetrain_keeps, State.sendCredStatus_keeps, State.setKlane_keeps, State.set_keeps]

theorem execKruPortDead_keeps {ka kb kc : Bool} {s0 z : State} (pt : Fin 2) (hk : Keeps ka kb kc s0 z) :
    Out.Keeps ka kb kc s0 (execKruPortDead pt z) := by
  unfold execKruPortDead
  grind [Keeps.mk_, Out.Keeps, CmdEnd.Keeps, State.portLost_keeps]

theorem execDiscoverFrameRx_keeps {ka kb kc : Bool} {s0 z : State} (l : Fin 32) (k : KFrame) (foreign : Bool) (hk : Keeps ka kb kc s0 z) :
    Out.Keeps ka kb kc s0 (execDiscoverFrameRx l k foreign z) := by
  unfold execDiscoverFrameRx
  grind [Keeps.mk_, Out.Keeps, CmdEnd.Keeps, State.checkFormed_keeps, State.foldOpen_keeps, State.kelimRx_keeps, State.portLost_keeps, State.reform_keeps, State.ringFail_keeps, State.ringOut_keeps, State.sendRoster_keeps, State.set_keeps, State.syncMember_keeps]

theorem execRosterFrameRx_keeps {ka kb kc : Bool} {s0 z : State} (l : Fin 32) (k : KFrame) (hk : Keeps ka kb kc s0 z) :
    Out.Keeps ka kb kc s0 (execRosterFrameRx l k z) := by
  unfold execRosterFrameRx
  grind [Keeps.mk_, Out.Keeps, CmdEnd.Keeps, State.checkFormed_keeps, State.kelimRx_keeps, State.ringDeliver_keeps, State.syncMember_keeps]

theorem execFormedFrameRx_keeps {ka kb kc : Bool} {s0 z : State} (l : Fin 32) (k : KFrame) (hk : Keeps ka kb kc s0 z) :
    Out.Keeps ka kb kc s0 (execFormedFrameRx l k z) := by
  unfold execFormedFrameRx
  grind [Keeps.mk_, Out.Keeps, CmdEnd.Keeps, State.kelimRx_keeps, State.ringDeliver_keeps, State.takeFormed_keeps]

theorem execFoldFrameRx_keeps {ka kb kc : Bool} {s0 z : State} (l : Fin 32) (k : KFrame) (hk : Keeps ka kb kc s0 z) :
    Out.Keeps ka kb kc s0 (execFoldFrameRx l k z) := by
  unfold execFoldFrameRx
  grind [Keeps.mk_, Out.Keeps, CmdEnd.Keeps, State.kelimRx_keeps, State.noteFold_keeps, State.rediscover_keeps, State.reform_keeps, State.ringDeliver_keeps]

theorem execFoldFormedTimer_keeps {ka kb kc : Bool} {s0 z : State} (t : Int) (hk : Keeps ka kb kc s0 z) :
    Out.Keeps ka kb kc s0 (execFoldFormedTimer t z) := by
  unfold execFoldFormedTimer
  grind [Keeps.mk_, Out.Keeps, CmdEnd.Keeps, State.owedAligns_keeps, State.raise_keeps, State.reform_keeps, State.reissueTokens_keeps, State.sendFormed_keeps]

theorem execRingReformTimeout_keeps {ka kb kc : Bool} {s0 z : State}  (hk : Keeps ka kb kc s0 z) :
    Out.Keeps ka kb kc s0 (execRingReformTimeout z) := by
  unfold execRingReformTimeout
  grind [Keeps.mk_, Out.Keeps, CmdEnd.Keeps, State.reform_keeps, State.ringFail_keeps]

theorem execKruCfgWrite_keeps {ka kb kc : Bool} {s0 z : State} (w : World) (v : BitVec 32) (hk : Keeps ka kb kc s0 z) :
    Out.Keeps ka kb kc s0 (execKruCfgWrite w v z) := by
  unfold execKruCfgWrite
  grind [Keeps.mk_, Out.Keeps, CmdEnd.Keeps, State.rowWrite_keeps, State.set_keeps, State.startKru_keeps, State.stopKru_keeps, State.syncMember_keeps, State.tryDiscover_keeps]

theorem execTimeSendTimer_keeps {ka kb kc : Bool} {s0 z : State} (t : Int) (hk : Keeps ka kb kc s0 z) :
    Out.Keeps ka kb kc s0 (execTimeSendTimer t z) := by
  unfold execTimeSendTimer
  grind [Keeps.mk_, Out.Keeps, CmdEnd.Keeps, State.each_keeps, State.replayAll_keeps, State.ringSend_keeps, State.sendAlignReq_keeps]

theorem execTimeFrameRx_keeps {ka kb kc : Bool} {s0 z : State} (l : Fin 32) (k : KFrame) (t : Int) (resid : BitVec 32) (hk : Keeps ka kb kc s0 z) :
    Out.Keeps ka kb kc s0 (execTimeFrameRx l k t resid z) := by
  unfold execTimeFrameRx
  grind [Keeps.mk_, Out.Keeps, CmdEnd.Keeps, State.kelimRx_keeps, State.replayAll_keeps, State.ringDeliver_keeps]

theorem execAlignReqRx_keeps {ka kb kc : Bool} {s0 z : State} (l : Fin 32) (k : KFrame) (hk : Keeps ka kb kc s0 z) :
    Out.Keeps ka kb kc s0 (execAlignReqRx l k z) := by
  unfold execAlignReqRx
  grind [Keeps.mk_, Out.Keeps, CmdEnd.Keeps, State.kelimRx_keeps, State.ringDeliver_keeps, State.ringSend_keeps, State.setKst_keeps, State.set_keeps]

theorem execAlignAckRx_keeps {ka kb kc : Bool} {s0 z : State} (l : Fin 32) (k : KFrame) (t : Int) (hk : Keeps ka kb kc s0 z) :
    Out.Keeps ka kb kc s0 (execAlignAckRx l k t z) := by
  unfold execAlignAckRx
  grind [Keeps.mk_, Out.Keeps, CmdEnd.Keeps, State.alignFail_keeps, State.checkAlign_keeps, State.kelimRx_keeps, State.ringDeliver_keeps, State.setKst_keeps]

theorem execAlignLatch_keeps {ka kb kc : Bool} {s0 z : State} (n : Fin 8) (hk : Keeps ka kb kc s0 z) :
    Out.Keeps ka kb kc s0 (execAlignLatch n z) := by
  unfold execAlignLatch
  grind [Keeps.mk_, Out.Keeps, CmdEnd.Keeps, State.checkAlign_keeps, State.setKst_keeps, State.set_keeps]

theorem execAlignSetRx_keeps {ka kb kc : Bool} {s0 z : State} (l : Fin 32) (k : KFrame) (t : Int) (hk : Keeps ka kb kc s0 z) :
    Out.Keeps ka kb kc s0 (execAlignSetRx l k t z) := by
  unfold execAlignSetRx
  grind [Keeps.mk_, Out.Keeps, CmdEnd.Keeps, State.kelimRx_keeps, State.ringDeliver_keeps, State.takeAlignSet_keeps]

theorem execAlignAckTimeout_keeps {ka kb kc : Bool} {s0 z : State} (n : Fin 8) (hk : Keeps ka kb kc s0 z) :
    Out.Keeps ka kb kc s0 (execAlignAckTimeout n z) := by
  unfold execAlignAckTimeout
  grind [Keeps.mk_, Out.Keeps, CmdEnd.Keeps, State.alignFail_keeps]

theorem execAlignSetTimeout_keeps {ka kb kc : Bool} {s0 z : State} (n : Fin 8) (hk : Keeps ka kb kc s0 z) :
    Out.Keeps ka kb kc s0 (execAlignSetTimeout n z) := by
  unfold execAlignSetTimeout
  grind [Keeps.mk_, Out.Keeps, CmdEnd.Keeps, State.alignFail_keeps]

theorem execTokenFrameRx_keeps {ka kb kc : Bool} {s0 z : State} (l : Fin 32) (k : KFrame) (t : Int) (hk : Keeps ka kb kc s0 z) :
    Out.Keeps ka kb kc s0 (execTokenFrameRx l k t z) := by
  unfold execTokenFrameRx
  grind [Keeps.mk_, Out.Keeps, CmdEnd.Keeps, State.count_keeps, State.kelimRx_keeps, State.ringOut_keeps, State.tokenHome_keeps, State.tokenPass_keeps]

theorem execTokenTimeout_keeps {ka kb kc : Bool} {s0 z : State} (n : Fin 8) (hk : Keeps ka kb kc s0 z) :
    Out.Keeps ka kb kc s0 (execTokenTimeout n z) := by
  unfold execTokenTimeout
  grind [Keeps.mk_, Out.Keeps, CmdEnd.Keeps, State.ringAuditFail_keeps]

theorem execHingeFrameRx_keeps {ka kb kc : Bool} {s0 z : State} (l : Fin 32) (k : KFrame) (hk : Keeps ka kb kc s0 z) :
    Out.Keeps ka kb kc s0 (execHingeFrameRx l k z) := by
  unfold execHingeFrameRx
  grind [Keeps.mk_, Out.Keeps, CmdEnd.Keeps, State.kelimRx_keeps, State.raise_keeps, State.ringDeliver_keeps, State.set_keeps]

theorem execDovetailFrameRx_keeps {ka kb kc : Bool} {s0 z : State} (l : Fin 32) (k : KFrame) (hk : Keeps ka kb kc s0 z) :
    Out.Keeps ka kb kc s0 (execDovetailFrameRx l k z) := by
  unfold execDovetailFrameRx
  grind [Keeps.mk_, Out.Keeps, CmdEnd.Keeps, State.dovetailColumns_keeps, State.kelimRx_keeps, State.ringDeliver_keeps]

/-! ### Ltu -/

theorem execRefclkLoss_keeps {ka kb kc : Bool} {s0 z : State}  (hk : Keeps ka kb kc s0 z) :
    Out.Keeps ka kb kc s0 (execRefclkLoss z) := by
  unfold execRefclkLoss
  grind [Keeps.mk_, Out.Keeps, CmdEnd.Keeps, State.raise_keeps, State.set_keeps]

theorem execHoldoverExit_keeps {ka kb kc : Bool} {s0 z : State}  (hk : Keeps ka kb kc s0 z) :
    Out.Keeps ka kb kc s0 (execHoldoverExit z) := by
  unfold execHoldoverExit
  grind [Keeps.mk_, Out.Keeps, CmdEnd.Keeps]

theorem execTimebaseLock_keeps {ka kb kc : Bool} {s0 z : State}  (hk : Keeps ka kb kc s0 z) :
    Out.Keeps ka kb kc s0 (execTimebaseLock z) := by
  unfold execTimebaseLock
  grind [Keeps.mk_, Out.Keeps, CmdEnd.Keeps, State.set_keeps]

theorem execTcompTick_keeps {ka kb kc : Bool} {s0 z : State}  (hk : Keeps ka kb kc s0 z) :
    Out.Keeps ka kb kc s0 (execTcompTick z) := by
  unfold execTcompTick
  grind [Keeps.mk_, Out.Keeps, CmdEnd.Keeps, State.setS_keeps, State.set_keeps, State.syncSteer_keeps]

theorem execTcompEnableWrite_keeps {ka kb kc : Bool} {s0 z : State} (w : World) (v : BitVec 32) (hk : Keeps ka kb kc s0 z) :
    Out.Keeps ka kb kc s0 (execTcompEnableWrite w v z) := by
  unfold execTcompEnableWrite
  grind [Keeps.mk_, Out.Keeps, CmdEnd.Keeps, State.rowWrite_keeps]

theorem State.edgeStation_keeps {ka kb kc : Bool} {s0 z : State} (n : Nat) (t : Int) (hk : Keeps ka kb kc s0 z) :
    Keeps ka kb kc s0 (State.edgeStation z n t) := by
  unfold State.edgeStation
  grind [Keeps.mk_, State.count_keeps, State.stepFour_keeps, State.watchEntry_keeps, State.watchTarget_keeps]

theorem State.decodeEdge_keeps {ka kb kc : Bool} {s0 z : State} (i : Nat) (a b : Bool) (u : Int) (hk : Keeps ka kb kc s0 z) :
    Keeps ka kb kc s0 (State.decodeEdge z i a b u) := by
  unfold State.decodeEdge
  grind [Keeps.mk_, State.add_keeps, State.count_keeps, State.each_keeps, State.edgeStation_keeps, State.raise_keeps, State.setEnc_keeps, State.setPos16_keeps, State.syncPeriod_keeps]

theorem State.sampleAB_keeps {ka kb kc : Bool} {s0 z : State} (i : Nat) (a b : Bool) (t : Int) (hk : Keeps ka kb kc s0 z) :
    Keeps ka kb kc s0 (State.sampleAB z i a b t) := by
  unfold State.sampleAB
  grind [Keeps.mk_, State.decodeEdge_keeps, State.setEnc_keeps]

theorem execEncoderEdge_keeps {ka kb kc : Bool} {s0 z : State} (e : Fin 4) (a b : Bool) (t : Int) (hk : Keeps ka kb kc s0 z) :
    Out.Keeps ka kb kc s0 (execEncoderEdge e a b t z) := by
  unfold execEncoderEdge
  grind [Keeps.mk_, Out.Keeps, CmdEnd.Keeps, State.each_keeps, State.sampleAB_keeps]

theorem State.sampleZ_keeps {ka kb kc : Bool} {s0 z : State} (i : Nat) (lv : Bool) (t : Int) (hk : Keeps ka kb kc s0 z) :
    Keeps ka kb kc s0 (State.sampleZ z i lv t) := by
  unfold State.sampleZ
  grind [Keeps.mk_, State.setEnc_keeps, State.setPos16_keeps]

theorem execEncoderIndexEdge_keeps {ka kb kc : Bool} {s0 z : State} (e : Fin 4) (p : PinSample) (hk : Keeps ka kb kc s0 z) :
    Out.Keeps ka kb kc s0 (execEncoderIndexEdge e p z) := by
  unfold execEncoderIndexEdge
  grind [Keeps.mk_, Out.Keeps, CmdEnd.Keeps, State.each_keeps, State.sampleZ_keeps]

theorem State.afterCommit_keeps {ka kb kc : Bool} {s0 z : State} (n l : Nat) (now : Int) (hk : Keeps ka kb kc s0 z) :
    Keeps ka kb kc s0 (State.afterCommit z n l now) := by
  unfold State.afterCommit
  grind [Keeps.mk_, State.checkReload_keeps, State.checkStop_keeps, State.each_keeps, State.enterDrain_keeps, State.swapBank_keeps, State.syncHeld_keeps, State.syncStore_keeps]

theorem execLineCommit_keeps {ka kb : Bool} {s0 z : State} (n : Fin 8) (now : Int) (hk : Keeps ka kb false s0 z) :
    Out.Keeps ka kb false s0 (execLineCommit n now z) := by
  unfold execLineCommit
  grind [Keeps.mk_, Out.Keeps, CmdEnd.Keeps, State.afterCommit_keeps, State.commitLine_keeps, State.enterFault_keeps]

theorem State.matchTriggered_keeps {ka kb kc : Bool} {s0 z : State} (n : Nat) (l : CLine) (hk : Keeps ka kb kc s0 z) :
    Keeps ka kb kc s0 (State.matchTriggered z n l) := by
  unfold State.matchTriggered
  grind [Keeps.mk_, State.setSto_keeps, State.set_keeps]

theorem State.ringFirst_keeps {ka kb kc : Bool} {s0 z : State} (n : Nat) (hk : Keeps ka kb kc s0 z) :
    Keeps ka kb kc s0 (State.ringFirst z n) := by
  unfold State.ringFirst
  grind [Keeps.mk_, State.set_keeps]

theorem execLineTrigger_keeps {ka kb kc : Bool} {s0 z : State} (n : Fin 8) (hk : Keeps ka kb kc s0 z) :
    Out.Keeps ka kb kc s0 (execLineTrigger n z) := by
  unfold execLineTrigger
  grind (ematch := 40) (gen := 40) (splits := 40) (instances := 20000) [Keeps.mk_, Out.Keeps, CmdEnd.Keeps, State.checkReload_keeps, State.each_keeps, State.illuminate_keeps, State.matchTriggered_keeps, State.noteTrigger_keeps, State.openLine_keeps, State.ringFirst_keeps, State.sendHead_keeps, State.setLst_keeps, State.set_keeps, State.syncHeld_keeps, State.takeBase_keeps]

theorem execHostTriggerWrite_keeps {ka kb kc : Bool} {s0 z : State} (w : World) (n : Fin 8) (v : BitVec 32) (hk : Keeps ka kb kc s0 z) :
    Out.Keeps ka kb kc s0 (execHostTriggerWrite w n v z) := by
  unfold execHostTriggerWrite
  grind [Keeps.mk_, Out.Keeps, CmdEnd.Keeps, State.hostWrite_keeps, State.set_keeps]

theorem execMatchArm_keeps {ka kb kc : Bool} {s0 z : State} (w : World) (n : Fin 8) (v : BitVec 32) (t : Int) (hk : Keeps ka kb kc s0 z) :
    Out.Keeps ka kb kc s0 (execMatchArm w n v t z) := by
  unfold execMatchArm
  grind [Keeps.mk_, Out.Keeps, CmdEnd.Keeps, State.armMatch_keeps, State.rowWrite_keeps]

/-! ### Mailbox -/

theorem execMailboxTailWrite_keeps {ka kb kc : Bool} {s0 z : State} (w : World) (r : Fin 2) (v : BitVec 32) (hk : Keeps ka kb kc s0 z) :
    Out.Keeps ka kb kc s0 (execMailboxTailWrite w r v z) := by
  unfold execMailboxTailWrite
  grind [Keeps.mk_, Out.Keeps, CmdEnd.Keeps, State.rowWrite_keeps]

theorem execMailboxRspHeadWrite_keeps {ka kb kc : Bool} {s0 z : State} (w : World) (r : Fin 2) (v : BitVec 32) (hk : Keeps ka kb kc s0 z) :
    Out.Keeps ka kb kc s0 (execMailboxRspHeadWrite w r v z) := by
  unfold execMailboxRspHeadWrite
  grind [Keeps.mk_, Out.Keeps, CmdEnd.Keeps, State.rowWrite_keeps, State.set_keeps]

theorem execMailboxCommandMalformed_keeps {ka kb : Bool} {s0 z : State} (r : Fin 2) (hk : Keeps ka kb false s0 z) :
    Out.Keeps ka kb false s0 (execMailboxCommandMalformed r z) := by
  unfold execMailboxCommandMalformed
  grind [Keeps.mk_, Out.Keeps, CmdEnd.Keeps, State.raise_keeps, State.respondRefused_keeps, State.takeCommand_keeps, State.waitRsp_keeps]

theorem execDevInfo_keeps {ka kb : Bool} {s0 z : State} (r : Fin 2) (hk : Keeps ka kb false s0 z) :
    Out.Keeps ka kb false s0 (execDevInfo r z) := by
  unfold execDevInfo
  grind [Keeps.mk_, Out.Keeps, CmdEnd.Keeps, State.command_keeps]

theorem State.faultClear_keeps {ka kb kc : Bool} {s0 z : State} (answers : Bool) (hk : Keeps ka kb kc s0 z) :
    CmdEnd.Keeps ka kb kc s0 (State.faultClear z answers) := by
  unfold State.faultClear
  grind [Keeps.mk_, CmdEnd.Keeps, State.setDev_keeps]

theorem execFaultClear_keeps {ka kb : Bool} {s0 z : State} (r : Fin 2) (answers : Bool) (hk : Keeps ka kb false s0 z) :
    Out.Keeps ka kb false s0 (execFaultClear r answers z) := by
  unfold execFaultClear
  grind [Keeps.mk_, Out.Keeps, CmdEnd.Keeps, State.command_keeps, State.faultClear_keeps]

theorem execDevReset_keeps {ka kb : Bool} {s0 z : State} (r : Fin 2) (hk : Keeps ka kb false s0 z) :
    Out.Keeps ka kb false s0 (execDevReset r z) := by
  unfold execDevReset
  grind [Keeps.mk_, Out.Keeps, CmdEnd.Keeps, State.command_keeps]

theorem execWorkbenchTimeout_keeps {ka kb : Bool} {s0 z : State}  (hk : Keeps ka kb false s0 z) :
    Out.Keeps ka kb false s0 (execWorkbenchTimeout z) := by
  unfold execWorkbenchTimeout
  grind [Keeps.mk_, Out.Keeps, CmdEnd.Keeps, State.enterFault_keeps]

theorem execManagementSramUncorrectable_keeps {ka kb : Bool} {s0 z : State}  (hk : Keeps ka kb false s0 z) :
    Out.Keeps ka kb false s0 (execManagementSramUncorrectable z) := by
  unfold execManagementSramUncorrectable
  grind [Keeps.mk_, Out.Keeps, CmdEnd.Keeps, State.enterFault_keeps]

theorem execOwnerEnroll_keeps {ka kb : Bool} {s0 z : State} (r : Fin 2) (key : Nat) (hk : Keeps ka kb false s0 z) :
    Out.Keeps ka kb false s0 (execOwnerEnroll r key z) := by
  unfold execOwnerEnroll
  grind [Keeps.mk_, Out.Keeps, CmdEnd.Keeps, State.command_keeps]

theorem State.enrolled_keeps {ka kb : Bool} {s0 z : State} (r : Nat) (x : Running) (dig : List Nat) (kekOk : Bool) (hk : Keeps ka kb false s0 z) :
    Keeps ka kb false s0 (State.enrolled z r x dig kekOk) := by
  unfold State.enrolled
  grind (ematch := 40) (gen := 40) (splits := 40) (instances := 20000) [Keeps.mk_, State.each_keeps, State.endRun_keeps, State.raise_keeps, State.set_keeps, State.syncMeas_keeps]

theorem execOwnerEnrollDone_keeps {ka kb : Bool} {s0 z : State} (dig : List Byte) (kekOk : Bool) (hk : Keeps ka kb false s0 z) :
    Out.Keeps ka kb false s0 (execOwnerEnrollDone dig kekOk z) := by
  unfold execOwnerEnrollDone
  grind [Keeps.mk_, Out.Keeps, CmdEnd.Keeps, State.enrolled_keeps]

theorem State.svnCommit_keeps {ka kb kc : Bool} {s0 z : State} (which : Nat) (hk : Keeps ka kb kc s0 z) :
    CmdEnd.Keeps ka kb kc s0 (State.svnCommit z which) := by
  unfold State.svnCommit
  grind [Keeps.mk_, CmdEnd.Keeps, State.set_keeps]

theorem execSvnCommit_keeps {ka kb : Bool} {s0 z : State} (r : Fin 2) (hk : Keeps ka kb false s0 z) :
    Out.Keeps ka kb false s0 (execSvnCommit r z) := by
  unfold execSvnCommit
  grind [Keeps.mk_, Out.Keeps, CmdEnd.Keeps, State.command_keeps, State.svnCommit_keeps]

theorem State.flashWrite_keeps {ka kb kc : Bool} {s0 z : State} (off len addr : Nat) (hk : Keeps ka kb kc s0 z) :
    CmdEnd.Keeps ka kb kc s0 (State.flashWrite z off len addr) := by
  unfold State.flashWrite
  grind [Keeps.mk_, CmdEnd.Keeps, State.emit_keeps]

theorem execFlashWrite_keeps {ka kb : Bool} {s0 z : State} (r : Fin 2) (hk : Keeps ka kb false s0 z) :
    Out.Keeps ka kb false s0 (execFlashWrite r z) := by
  unfold execFlashWrite
  grind [Keeps.mk_, Out.Keeps, CmdEnd.Keeps, State.command_keeps, State.flashWrite_keeps]

theorem execFlashWriteDone_keeps {ka kb : Bool} {s0 z : State} (data : Option (List Byte)) (same : Bool) (hk : Keeps ka kb false s0 z) :
    Out.Keeps ka kb false s0 (execFlashWriteDone data same z) := by
  unfold execFlashWriteDone
  grind [Keeps.mk_, Out.Keeps, CmdEnd.Keeps, State.emit_keeps, State.endRun_keeps, State.flashWrite_keeps]

theorem execSpdmRequest_keeps {ka kb kc : Bool} {s0 z : State} (tr : Transport) (v : BitVec 8) (r : SpdmReq) (busy : Bool) (hk : Keeps ka kb kc s0 z) :
    Out.Keeps ka kb kc s0 (execSpdmRequest tr v r busy z) := by
  unfold execSpdmRequest
  grind [Keeps.mk_, Out.Keeps, CmdEnd.Keeps, State.emit_keeps, State.takeFresh_keeps]

theorem execHeadMeasurementRead_keeps {ka kb kc : Bool} {s0 z : State} (p : Fin 96) (ended : Bool) (hk : Keeps ka kb kc s0 z) :
    Out.Keeps ka kb kc s0 (execHeadMeasurementRead p ended z) := by
  unfold execHeadMeasurementRead
  grind [Keeps.mk_, Out.Keeps, CmdEnd.Keeps, State.nextRequest_keeps, State.raise_keeps, State.setHead_keeps, State.setMeas_keeps]

/-! ### Mfe -/

theorem execMfeRefEnable_keeps {ka kb kc : Bool} {s0 z : State} (w : World) (v : BitVec 32) (hk : Keeps ka kb kc s0 z) :
    Out.Keeps ka kb kc s0 (execMfeRefEnable w v z) := by
  unfold execMfeRefEnable
  grind [Keeps.mk_, Out.Keeps, CmdEnd.Keeps, State.mfeCtrl_keeps]

theorem execMfeRefReady_keeps {ka kb kc : Bool} {s0 z : State}  (hk : Keeps ka kb kc s0 z) :
    Out.Keeps ka kb kc s0 (execMfeRefReady z) := by
  unfold execMfeRefReady
  grind [Keeps.mk_, Out.Keeps, CmdEnd.Keeps, State.set_keeps]

theorem execMfeSeqEnable_keeps {ka kb kc : Bool} {s0 z : State} (w : World) (v : BitVec 32) (hk : Keeps ka kb kc s0 z) :
    Out.Keeps ka kb kc s0 (execMfeSeqEnable w v z) := by
  unfold execMfeSeqEnable
  grind [Keeps.mk_, Out.Keeps, CmdEnd.Keeps, State.mfeCtrl_keeps]

theorem execMfeFrameStart_keeps {ka kb kc : Bool} {s0 z : State}  (hk : Keeps ka kb kc s0 z) :
    Out.Keeps ka kb kc s0 (execMfeFrameStart z) := by
  unfold execMfeFrameStart
  grind [Keeps.mk_, Out.Keeps, CmdEnd.Keeps, State.each_keeps, State.restartChain_keeps, State.setMent_keeps, State.set_keeps]

theorem execMfeEntrySample_keeps {ka kb kc : Bool} {s0 z : State} (ab bc : List (Fin 5 × BitVec 16)) (hk : Keeps ka kb kc s0 z) :
    Out.Keeps ka kb kc s0 (execMfeEntrySample ab bc z) := by
  unfold execMfeEntrySample
  grind [Keeps.mk_, Out.Keeps, CmdEnd.Keeps, State.dwellEnd_keeps, State.regular_keeps, State.syncUrgent_keeps, State.urgentDone_keeps]

theorem execMfeUrgentRequest_keeps {ka kb kc : Bool} {s0 z : State} (w : World) (v : BitVec 32) (hk : Keeps ka kb kc s0 z) :
    Out.Keeps ka kb kc s0 (execMfeUrgentRequest w v z) := by
  unfold execMfeUrgentRequest
  grind [Keeps.mk_, Out.Keeps, CmdEnd.Keeps, State.rowWrite_keeps, State.syncUrgent_keeps]

theorem execMfeBackgroundCal_keeps {ka kb kc : Bool} {s0 z : State} (ground : Int) (ref : CalRef) (hk : Keeps ka kb kc s0 z) :
    Out.Keeps ka kb kc s0 (execMfeBackgroundCal ground ref z) := by
  unfold execMfeBackgroundCal
  grind [Keeps.mk_, Out.Keeps, CmdEnd.Keeps, State.boundary_keeps, State.retireSlice_keeps, State.setS_keeps, State.set_keeps]

theorem execMfeChainSync_keeps {ka kb kc : Bool} {s0 z : State} (w : World) (v : BitVec 32) (hk : Keeps ka kb kc s0 z) :
    Out.Keeps ka kb kc s0 (execMfeChainSync w v z) := by
  unfold execMfeChainSync
  grind [Keeps.mk_, Out.Keeps, CmdEnd.Keeps, State.rowWrite_keeps]

theorem execMfeOpenClear_keeps {ka kb kc : Bool} {s0 z : State} (w : World) (e : Fin 64) (v : BitVec 32) (hk : Keeps ka kb kc s0 z) :
    Out.Keeps ka kb kc s0 (execMfeOpenClear w e v z) := by
  unfold execMfeOpenClear
  grind [Keeps.mk_, Out.Keeps, CmdEnd.Keeps, State.noteExc_keeps, State.rowWrite_keeps]

theorem execMfeExcWrite_keeps {ka kb kc : Bool} {s0 z : State} (w : World) (e : Fin 64) (v : BitVec 32) (hk : Keeps ka kb kc s0 z) :
    Out.Keeps ka kb kc s0 (execMfeExcWrite w e v z) := by
  unfold execMfeExcWrite
  grind [Keeps.mk_, Out.Keeps, CmdEnd.Keeps, State.noteExc_keeps, State.rowWrite_keeps, State.setMent_keeps]

theorem execMfeAccSumLoRead_keeps {ka kb kc : Bool} {s0 z : State} (w : World) (e : Fin 64) (hk : Keeps ka kb kc s0 z) :
    Out.Keeps ka kb kc s0 (execMfeAccSumLoRead w e z) := by
  unfold execMfeAccSumLoRead
  grind [Keeps.mk_, Out.Keeps, CmdEnd.Keeps, State.clearAcc_keeps, State.hostRead_keeps]

theorem execMfeResRead_keeps {ka kb kc : Bool} {s0 z : State} (w : World) (e : Fin 64) (hk : Keeps ka kb kc s0 z) :
    Out.Keeps ka kb kc s0 (execMfeResRead w e z) := by
  unfold execMfeResRead
  grind [Keeps.mk_, Out.Keeps, CmdEnd.Keeps, State.hostRead_keeps]

theorem execMfeLeafSwapRequest_keeps {ka kb kc : Bool} {s0 z : State} (w : World) (c : Fin 32) (v : BitVec 32) (hk : Keeps ka kb kc s0 z) :
    Out.Keeps ka kb kc s0 (execMfeLeafSwapRequest w c v z) := by
  unfold execMfeLeafSwapRequest
  grind [Keeps.mk_, Out.Keeps, CmdEnd.Keeps, State.add_keeps, State.rowWrite_keeps, State.setChain_keeps, State.set_keeps, State.syncChain_keeps]

theorem execMfeLeafWindowWrite_keeps {ka kc : Bool} {s0 z : State} (w : World) (a : Fin 65536) (v : BitVec 32) (hk : Keeps ka false kc s0 z) :
    Out.Keeps ka false kc s0 (execMfeLeafWindowWrite w a v z) := by
  unfold execMfeLeafWindowWrite
  grind [Keeps.mk_, Out.Keeps, CmdEnd.Keeps, State.add_keeps, State.mfeEvent0_keeps, State.putLeaf_keeps, State.refuse_keeps, State.windowWrite_keeps]

theorem execMfeOutEnable_keeps {ka kb kc : Bool} {s0 z : State} (w : World) (o : Fin 8) (v : BitVec 32) (hk : Keeps ka kb kc s0 z) :
    Out.Keeps ka kb kc s0 (execMfeOutEnable w o v z) := by
  unfold execMfeOutEnable
  grind [Keeps.mk_, Out.Keeps, CmdEnd.Keeps, State.emit_keeps, State.rowWrite_keeps, State.setMout_keeps]

theorem execMfeOutPeriodEnd_keeps {ka kb kc : Bool} {s0 z : State} (o : Fin 8) (hk : Keeps ka kb kc s0 z) :
    Out.Keeps ka kb kc s0 (execMfeOutPeriodEnd o z) := by
  unfold execMfeOutPeriodEnd
  grind [Keeps.mk_, Out.Keeps, CmdEnd.Keeps, State.showOut_keeps]

/-! ### Pace -/

theorem execPaceWindowEnd_keeps {ka kb kc : Bool} {s0 z : State} (t : Int) (hk : Keeps ka kb kc s0 z) :
    Out.Keeps ka kb kc s0 (execPaceWindowEnd t z) := by
  unfold execPaceWindowEnd
  grind (ematch := 40) (gen := 40) (splits := 40) (instances := 20000) [Keeps.mk_, Out.Keeps, CmdEnd.Keeps, State.countHold_keeps, State.each_keeps, State.findDeficits_keeps, State.fitVoltage_keeps, State.moveCaps_keeps, State.passHinges_keeps, State.shedWeb_keeps, State.startWindow_keeps, State.writeRate_keeps]

theorem execVfitHoldEnd_keeps {ka kb kc : Bool} {s0 z : State}  (hk : Keeps ka kb kc s0 z) :
    Out.Keeps ka kb kc s0 (execVfitHoldEnd z) := by
  unfold execVfitHoldEnd
  grind [Keeps.mk_, Out.Keeps, CmdEnd.Keeps, State.set_keeps]

theorem execVmaxReadbackTimeout_keeps {ka kb : Bool} {s0 z : State}  (hk : Keeps ka kb false s0 z) :
    Out.Keeps ka kb false s0 (execVmaxReadbackTimeout z) := by
  unfold execVmaxReadbackTimeout
  grind [Keeps.mk_, Out.Keeps, CmdEnd.Keeps, State.failWaits_keeps]

theorem execPmbusReadbackPoll_keeps {ka kb : Bool} {s0 z : State} (mv : BitVec 12) (hk : Keeps ka kb false s0 z) :
    Out.Keeps ka kb false s0 (execPmbusReadbackPoll mv z) := by
  unfold execPmbusReadbackPoll
  grind [Keeps.mk_, Out.Keeps, CmdEnd.Keeps, State.completeWaits_keeps, State.pmbus_keeps, State.set_keeps, State.startWindow_keeps]

theorem execPmbusTransactionFail_keeps {ka kb : Bool} {s0 z : State}  (hk : Keeps ka kb false s0 z) :
    Out.Keeps ka kb false s0 (execPmbusTransactionFail z) := by
  unfold execPmbusTransactionFail
  grind (ematch := 40) (gen := 40) (splits := 40) (instances := 20000) [Keeps.mk_, Out.Keeps, CmdEnd.Keeps, State.bootVcoreFail_keeps, State.failWaits_keeps, State.pmbus_keeps, State.raise_keeps, State.set_keeps, State.writeVset_keeps]

theorem execPmbusAlert_keeps {ka kb kc : Bool} {s0 z : State} (word : BitVec 16) (hk : Keeps ka kb kc s0 z) :
    Out.Keeps ka kb kc s0 (execPmbusAlert word z) := by
  unfold execPmbusAlert
  grind [Keeps.mk_, Out.Keeps, CmdEnd.Keeps, State.pmbus_keeps, State.raise_keeps, State.set_keeps]

theorem State.limitErr_keeps {ka kb kc : Bool} {s0 z : State} (w : World) (hk : Keeps ka kb kc s0 z) :
    Keeps ka kb kc s0 (State.limitErr z w) := by
  unfold State.limitErr
  grind [Keeps.mk_, State.countRefused_keeps, State.set_keeps]

theorem execVfitCtrlWrite_keeps {ka kb kc : Bool} {s0 z : State} (w : World) (v : BitVec 32) (hk : Keeps ka kb kc s0 z) :
    Out.Keeps ka kb kc s0 (execVfitCtrlWrite w v z) := by
  unfold execVfitCtrlWrite
  grind [Keeps.mk_, Out.Keeps, CmdEnd.Keeps, State.limitErr_keeps, State.rowWrite_keeps, State.set_keeps, State.writeVset_keeps]

theorem execVfitLimitsWrite_keeps {ka kb kc : Bool} {s0 z : State} (w : World) (v : BitVec 32) (hk : Keeps ka kb kc s0 z) :
    Out.Keeps ka kb kc s0 (execVfitLimitsWrite w v z) := by
  unfold execVfitLimitsWrite
  grind [Keeps.mk_, Out.Keeps, CmdEnd.Keeps, State.limitErr_keeps, State.rowWrite_keeps, State.writeVset_keeps]

/-! ### Pcp -/

theorem State.conditionNext_keeps {ka kb kc : Bool} {s0 z : State} (n p busy : Nat) (hk : Keeps ka kb kc s0 z) :
    Keeps ka kb kc s0 (State.conditionNext z n p busy) := by
  unfold State.conditionNext
  grind (ematch := 40) (gen := 40) (splits := 40) (instances := 20000) [Keeps.mk_, State.add_keeps, State.ahead_keeps, State.alignMeasure_keeps, State.captureLine_keeps, State.conditionHead_keeps, State.descFlags_keeps, State.drainHead_keeps, State.formLines_keeps, State.syncHeld_keeps, State.takeItem_keeps]

theorem execLineCondition_keeps {ka kb kc : Bool} {s0 z : State} (p : Fin 96) (busy : Nat) (hk : Keeps ka kb kc s0 z) :
    Out.Keeps ka kb kc s0 (execLineCondition p busy z) := by
  unfold execLineCondition
  grind [Keeps.mk_, Out.Keeps, CmdEnd.Keeps, State.conditionNext_keeps]

theorem execCaptureStart_keeps {ka kb kc : Bool} {s0 z : State} (w : World) (v : BitVec 32) (hk : Keeps ka kb kc s0 z) :
    Out.Keeps ka kb kc s0 (execCaptureStart w v z) := by
  unfold execCaptureStart
  grind [Keeps.mk_, Out.Keeps, CmdEnd.Keeps, State.rowWrite_keeps, State.set_keeps, State.syncSlots_keeps]

theorem execCaptureDone_keeps {ka kc : Bool} {s0 z : State}  (hk : Keeps ka false kc s0 z) :
    Out.Keeps ka false kc s0 (execCaptureDone z) := by
  unfold execCaptureDone
  grind [Keeps.mk_, Out.Keeps, CmdEnd.Keeps, State.raise_keeps, State.set_keeps, State.syncSlots_keeps, State.writeCapture_keeps]

theorem execShadingSwapRequest_keeps {ka kb kc : Bool} {s0 z : State} (w : World) (p : Fin 96) (v : BitVec 32) (hk : Keeps ka kb kc s0 z) :
    Out.Keeps ka kb kc s0 (execShadingSwapRequest w p v z) := by
  unfold execShadingSwapRequest
  grind [Keeps.mk_, Out.Keeps, CmdEnd.Keeps, State.add_keeps, State.rowWrite_keeps, State.setPhead_keeps, State.set_keeps, State.syncSlots_keeps]

theorem execLeafFadeEnd_keeps {ka kb kc : Bool} {s0 z : State} (p : Fin 96) (hk : Keeps ka kb kc s0 z) :
    Out.Keeps ka kb kc s0 (execLeafFadeEnd p z) := by
  unfold execLeafFadeEnd
  grind [Keeps.mk_, Out.Keeps, CmdEnd.Keeps, State.endFades_keeps]

theorem execLeafWindowWrite_keeps {ka kc : Bool} {s0 z : State} (w : World) (a : Fin 4194304) (v : BitVec 32) (hk : Keeps ka false kc s0 z) :
    Out.Keeps ka false kc s0 (execLeafWindowWrite w a v z) := by
  unfold execLeafWindowWrite
  grind [Keeps.mk_, Out.Keeps, CmdEnd.Keeps, State.leafRefused_keeps, State.putLeaf_keeps, State.windowWrite_keeps]

theorem execLeafSlotWrite_keeps {ka kb kc : Bool} {s0 z : State} (w : World) (l : Fin 256) (k : Fin 3) (v : BitVec 32) (hk : Keeps ka kb kc s0 z) :
    Out.Keeps ka kb kc s0 (execLeafSlotWrite w l k v z) := by
  unfold execLeafSlotWrite
  grind [Keeps.mk_, Out.Keeps, CmdEnd.Keeps, State.leafRefused_keeps, State.windowWrite_keeps, State.writeAll_keeps]

theorem execShdTrkCtrlWrite_keeps {ka kb kc : Bool} {s0 z : State} (w : World) (p : Fin 96) (v : BitVec 32) (hk : Keeps ka kb kc s0 z) :
    Out.Keeps ka kb kc s0 (execShdTrkCtrlWrite w p v z) := by
  unfold execShdTrkCtrlWrite
  grind [Keeps.mk_, Out.Keeps, CmdEnd.Keeps, State.each_keeps, State.rowWrite_keeps, State.setDrift_keeps]

theorem execFirSlotWrite_keeps {ka kc : Bool} {s0 z : State} (w : World) (a : Fin 16384) (v : BitVec 32) (hk : Keeps ka false kc s0 z) :
    Out.Keeps ka false kc s0 (execFirSlotWrite w a v z) := by
  unfold execFirSlotWrite
  grind [Keeps.mk_, Out.Keeps, CmdEnd.Keeps, State.add_keeps, State.leafRefused_keeps, State.putLeaf_keeps, State.raise_keeps, State.refuse_keeps, State.windowWrite_keeps]

theorem execAlnMeasStart_keeps {ka kb kc : Bool} {s0 z : State} (w : World) (v : BitVec 32) (hk : Keeps ka kb kc s0 z) :
    Out.Keeps ka kb kc s0 (execAlnMeasStart w v z) := by
  unfold execAlnMeasStart
  grind [Keeps.mk_, Out.Keeps, CmdEnd.Keeps, State.count_keeps, State.each_keeps, State.rowWrite_keeps, State.set_keeps]

theorem execAlnMeasDone_keeps {ka kb kc : Bool} {s0 z : State}  (hk : Keeps ka kb kc s0 z) :
    Out.Keeps ka kb kc s0 (execAlnMeasDone z) := by
  unfold execAlnMeasDone
  grind [Keeps.mk_, Out.Keeps, CmdEnd.Keeps, State.set_keeps]

theorem execDvtMeasStart_keeps {ka kb kc : Bool} {s0 z : State} (w : World) (v : BitVec 32) (hk : Keeps ka kb kc s0 z) :
    Out.Keeps ka kb kc s0 (execDvtMeasStart w v z) := by
  unfold execDvtMeasStart
  grind [Keeps.mk_, Out.Keeps, CmdEnd.Keeps, State.rowWrite_keeps, State.set_keeps]

theorem execDvtMeasDone_keeps {ka kb kc : Bool} {s0 z : State}  (hk : Keeps ka kb kc s0 z) :
    Out.Keeps ka kb kc s0 (execDvtMeasDone z) := by
  unfold execDvtMeasDone
  grind [Keeps.mk_, Out.Keeps, CmdEnd.Keeps, State.setS_keeps, State.setSat_keeps, State.set_keeps]

theorem execDvtTimeout_keeps {ka kb kc : Bool} {s0 z : State} (n : Fin 8) (hk : Keeps ka kb kc s0 z) :
    Out.Keeps ka kb kc s0 (execDvtTimeout n z) := by
  unfold execDvtTimeout
  grind [Keeps.mk_, Out.Keeps, CmdEnd.Keeps, State.add_keeps, State.flushWaiting_keeps, State.raise_keeps, State.syncHeld_keeps]

theorem execDecSwapRequest_keeps {ka kb kc : Bool} {s0 z : State} (w : World) (q : Fin 32) (v : BitVec 32) (hk : Keeps ka kb kc s0 z) :
    Out.Keeps ka kb kc s0 (execDecSwapRequest w q v z) := by
  unfold execDecSwapRequest
  grind [Keeps.mk_, Out.Keeps, CmdEnd.Keeps, State.add_keeps, State.rowWrite_keeps, State.setProd_keeps, State.set_keeps]

theorem execProductLineRead_keeps {kb kc : Bool} {s0 z : State} (q : Fin 32) (e : HbmErr) (hk : Keeps false kb kc s0 z) :
    Out.Keeps false kb kc s0 (execProductLineRead q e z) := by
  unfold execProductLineRead
  grind [Keeps.mk_, Out.Keeps, CmdEnd.Keeps, State.productStep_keeps, State.syncHeld_keeps]

/-! ### Qmx -/

theorem execQueueWrite_keeps {ka kb kc : Bool} {s0 z : State} (q : Fin 262144) (d : BitVec 64) (fin : Bool) (hk : Keeps ka kb kc s0 z) :
    Out.Keeps ka kb kc s0 (execQueueWrite q d fin z) := by
  unfold execQueueWrite
  grind [Keeps.mk_, Out.Keeps, CmdEnd.Keeps, State.presentWords_keeps]

theorem execQueueRead_keeps {ka kb kc : Bool} {s0 z : State} (q : Fin 262144) (second : Bool) (ecc : Ecc) (hk : Keeps ka kb kc s0 z) :
    Out.Keeps ka kb kc s0 (execQueueRead q second ecc z) := by
  unfold execQueueRead
  grind [Keeps.mk_, Out.Keeps, CmdEnd.Keeps, State.readRing_keeps, State.readWord_keeps]

theorem execQueueIdleTimeout_keeps {ka kb kc : Bool} {s0 z : State} (q : Fin 262144) (hk : Keeps ka kb kc s0 z) :
    Out.Keeps ka kb kc s0 (execQueueIdleTimeout q z) := by
  unfold execQueueIdleTimeout
  grind [Keeps.mk_, Out.Keeps, CmdEnd.Keeps, State.closeDrawer_keeps, State.drain_keeps]

theorem execQueueStallTimeout_keeps {ka kb kc : Bool} {s0 z : State} (q : Fin 262144) (wr : Bool) (hk : Keeps ka kb kc s0 z) :
    Out.Keeps ka kb kc s0 (execQueueStallTimeout q wr z) := by
  unfold execQueueStallTimeout
  grind [Keeps.mk_, Out.Keeps, CmdEnd.Keeps, State.queueEvent_keeps, State.setQueue_keeps, State.set_keeps]

theorem execSlabTransitArrive_keeps {ka kb : Bool} {s0 z : State}  (hk : Keeps ka kb false s0 z) :
    Out.Keeps ka kb false s0 (execSlabTransitArrive z) := by
  unfold execSlabTransitArrive
  grind [Keeps.mk_, Out.Keeps, CmdEnd.Keeps, State.finishAborts_keeps, State.transitArrive_keeps]

theorem execSlabAgeFail_keeps {ka kb kc : Bool} {s0 z : State}  (hk : Keeps ka kb kc s0 z) :
    Out.Keeps ka kb kc s0 (execSlabAgeFail z) := by
  unfold execSlabAgeFail
  grind [Keeps.mk_, Out.Keeps, CmdEnd.Keeps, State.set_keeps]

theorem State.putQueueFields_keeps {ka kb kc : Bool} {s0 z : State} (q v : Nat) (hk : Keeps ka kb kc s0 z) :
    Keeps ka kb kc s0 (State.putQueueFields z q v) := by
  unfold State.putQueueFields
  grind [Keeps.mk_, State.each_keeps, State.set_keeps]

theorem execQueueEnable_keeps {ka kb kc : Bool} {s0 z : State} (w : World) (q : Fin 262144) (v : BitVec 32) (hk : Keeps ka kb kc s0 z) :
    Out.Keeps ka kb kc s0 (execQueueEnable w q v z) := by
  unfold execQueueEnable
  grind [Keeps.mk_, Out.Keeps, CmdEnd.Keeps, State.enableQueue_keeps, State.hostWrite_keeps, State.putQueueFields_keeps]

theorem execQueueDisable_keeps {ka kb kc : Bool} {s0 z : State} (w : World) (q : Fin 262144) (v : BitVec 32) (hk : Keeps ka kb kc s0 z) :
    Out.Keeps ka kb kc s0 (execQueueDisable w q v z) := by
  unfold execQueueDisable
  grind [Keeps.mk_, Out.Keeps, CmdEnd.Keeps, State.disableQueue_keeps, State.hostWrite_keeps, State.putQueueFields_keeps]

theorem execQueueFlush_keeps {ka kb kc : Bool} {s0 z : State} (w : World) (q : Fin 262144) (hk : Keeps ka kb kc s0 z) :
    Out.Keeps ka kb kc s0 (execQueueFlush w q z) := by
  unfold execQueueFlush
  grind [Keeps.mk_, Out.Keeps, CmdEnd.Keeps, State.flushQueue_keeps, State.hostWrite_keeps]

theorem execQueueAutoDisable_keeps {ka kb kc : Bool} {s0 z : State} (q : Fin 262144) (hk : Keeps ka kb kc s0 z) :
    Out.Keeps ka kb kc s0 (execQueueAutoDisable q z) := by
  unfold execQueueAutoDisable
  grind [Keeps.mk_, Out.Keeps, CmdEnd.Keeps, State.autoDisable_keeps]

/-! ### Scu -/

theorem execImageLoad_keeps {ka kb kc : Bool} {s0 z : State} (w : World) (x : ImageGo) (hk : Keeps ka kb kc s0 z) :
    Out.Keeps ka kb kc s0 (execImageLoad w x z) := by
  unfold execImageLoad
  grind (ematch := 40) (gen := 40) (splits := 40) (instances := 20000) [Keeps.mk_, Out.Keeps, CmdEnd.Keeps, State.countRefused_keeps, State.hostWrite_keeps, State.imageOk_keeps, State.imageRefused_keeps, State.set_keeps, State.writeAll_keeps]

theorem State.partialLoad_keeps {ka kb kc : Bool} {s0 z : State} (m : Image) (policy : Bool) (t2 : Option Nat) (hk : Keeps ka kb kc s0 z) :
    Keeps ka kb kc s0 (State.partialLoad z m policy t2) := by
  unfold State.partialLoad
  grind (ematch := 40) (gen := 40) (splits := 40) (instances := 20000) [Keeps.mk_, State.admission_keeps, State.imageRefused_keeps, State.raiseVmax_keeps, State.stageReload_keeps]

theorem execImageChecksDone_keeps {ka kc : Bool} {s0 z : State} (o : ImageObs) (t2 : Option (Fin 16)) (hk : Keeps ka false kc s0 z) :
    Out.Keeps ka false kc s0 (execImageChecksDone o t2 z) := by
  unfold execImageChecksDone
  grind [Keeps.mk_, Out.Keeps, CmdEnd.Keeps, State.commitImage_keeps, State.imageRefused_keeps, State.partialLoad_keeps]

theorem execReloadCopyDone_keeps {ka kb kc : Bool} {s0 z : State}  (hk : Keeps ka kb kc s0 z) :
    Out.Keeps ka kb kc s0 (execReloadCopyDone z) := by
  unfold execReloadCopyDone
  grind [Keeps.mk_, Out.Keeps, CmdEnd.Keeps, State.syncHeld_keeps, State.takeReload_keeps]

theorem State.dropReload_keeps {ka kb kc : Bool} {s0 z : State}  (hk : Keeps ka kb kc s0 z) :
    Keeps ka kb kc s0 (State.dropReload z) := by
  unfold State.dropReload
  grind (ematch := 40) (gen := 40) (splits := 40) (instances := 20000) [Keeps.mk_, State.setSto_keeps, State.set_keeps, State.syncStore_keeps]

theorem execReloadCancel_keeps {ka kb kc : Bool} {s0 z : State} (w : World) (v : BitVec 32) (hk : Keeps ka kb kc s0 z) :
    Out.Keeps ka kb kc s0 (execReloadCancel w v z) := by
  unfold execReloadCancel
  grind [Keeps.mk_, Out.Keeps, CmdEnd.Keeps, State.dropReload_keeps, State.rowWrite_keeps]

/-! ### Seal -/

theorem State.sealAttempt_keeps {ka kb kc : Bool} {s0 z : State} (i : Nat) (t : Int) (hk : Keeps ka kb kc s0 z) :
    Keeps ka kb kc s0 (State.sealAttempt z i t) := by
  unfold State.sealAttempt
  grind [Keeps.mk_, State.moveTokens_keeps, State.sealAudits_keeps, State.sealBand_keeps, State.setSeal_keeps, State.set_keeps, State.syncHeld_keeps]

theorem execSealAttempt_keeps {ka kb kc : Bool} {s0 z : State} (ns : BitVec 8) (t : Int) (hk : Keeps ka kb kc s0 z) :
    Out.Keeps ka kb kc s0 (execSealAttempt ns t z) := by
  unfold execSealAttempt
  grind (ematch := 40) (gen := 40) (splits := 40) (instances := 20000) [Keeps.mk_, Out.Keeps, CmdEnd.Keeps, State.each_keeps, State.sealAttempt_keeps]

theorem State.sealFrozen_keeps {ka kb kc : Bool} {s0 z : State} (n : Nat) (t : Int) (bs : List Nat) (hk : Keeps ka kb kc s0 z) :
    Keeps ka kb kc s0 (State.sealFrozen z n t bs) := by
  unfold State.sealFrozen
  grind [Keeps.mk_, State.each_keeps, State.sealBand_keeps]

theorem State.moveAll_keeps {ka kb kc : Bool} {s0 z : State} (t : Int) (hk : Keeps ka kb kc s0 z) :
    Keeps ka kb kc s0 (State.moveAll z t) := by
  unfold State.moveAll
  grind [Keeps.mk_, State.each_keeps, State.moveTokens_keeps, State.syncHeld_keeps]

theorem State.thaw_keeps {ka kb kc : Bool} {s0 z : State} (n : Nat) (t : Int) (hk : Keeps ka kb kc s0 z) :
    Keeps ka kb kc s0 (State.thaw z n t) := by
  unfold State.thaw
  grind [Keeps.mk_, State.moveAll_keeps, State.sealFrozen_keeps, State.sealLate_keeps, State.setSeal_keeps, State.set_keeps, State.syncHeld_keeps]

theorem execSealThaw_keeps {ka kb kc : Bool} {s0 z : State} (w : World) (n : Fin 8) (v : BitVec 32) (t : Int) (hk : Keeps ka kb kc s0 z) :
    Out.Keeps ka kb kc s0 (execSealThaw w n v t z) := by
  unfold execSealThaw
  grind [Keeps.mk_, Out.Keeps, CmdEnd.Keeps, State.rowWrite_keeps, State.thaw_keeps]

theorem execSealLatencyExceeded_keeps {ka kb kc : Bool} {s0 z : State} (n : Fin 8) (t : Int) (hk : Keeps ka kb kc s0 z) :
    Out.Keeps ka kb kc s0 (execSealLatencyExceeded n t z) := by
  unfold execSealLatencyExceeded
  grind [Keeps.mk_, Out.Keeps, CmdEnd.Keeps, State.markLate_keeps]

theorem execFreezeTimeout_keeps {ka kb : Bool} {s0 z : State} (n : Fin 8) (hk : Keeps ka kb false s0 z) :
    Out.Keeps ka kb false s0 (execFreezeTimeout n z) := by
  unfold execFreezeTimeout
  grind [Keeps.mk_, Out.Keeps, CmdEnd.Keeps, State.enterFault_keeps]

theorem execSnapshotBandLoRead_keeps {ka kb kc : Bool} {s0 z : State} (w : World) (n : Fin 8) (hk : Keeps ka kb kc s0 z) :
    Out.Keeps ka kb kc s0 (execSnapshotBandLoRead w n z) := by
  unfold execSnapshotBandLoRead
  grind [Keeps.mk_, Out.Keeps, CmdEnd.Keeps, State.each_keeps, State.hostRead_keeps]

/-! ### Sst -/

theorem execLineStore_keeps {kb kc : Bool} {s0 z : State} (n : Fin 8) (x : StoreSeen) (hk : Keeps false kb kc s0 z) :
    Out.Keeps false kb kc s0 (execLineStore n x z) := by
  unfold execLineStore
  grind (ematch := 40) (gen := 40) (splits := 40) (instances := 20000) [Keeps.mk_, Out.Keeps, CmdEnd.Keeps, State.checkReload_keeps, State.checkStop_keeps, State.storeLine_keeps, State.syncHeld_keeps, State.takeLine_keeps]

theorem State.offerLine_keeps {kb kc : Bool} {s0 z : State} (n q : Nat) (m : QMap) (e : HbmErr) (hk : Keeps false kb kc s0 z) :
    Keeps false kb kc s0 (State.offerLine z n q m e) := by
  unfold State.offerLine
  grind [Keeps.mk_, State.advanceQueue_keeps, State.presentItem_keeps, State.setSto_keeps, State.slotError_keeps]

theorem execStoreReadQueueAdvance_keeps {kb kc : Bool} {s0 z : State} (q : Fin 262144) (e : HbmErr) (hk : Keeps false kb kc s0 z) :
    Out.Keeps false kb kc s0 (execStoreReadQueueAdvance q e z) := by
  unfold execStoreReadQueueAdvance
  grind [Keeps.mk_, Out.Keeps, CmdEnd.Keeps, State.checkReload_keeps, State.offerLine_keeps, State.syncHeld_keeps]

theorem State.enterBackUp_keeps {ka kb kc : Bool} {s0 z : State} (n : Nat) (hk : Keeps ka kb kc s0 z) :
    Keeps ka kb kc s0 (State.enterBackUp z n) := by
  unfold State.enterBackUp
  grind [Keeps.mk_, State.enterSt_keeps, State.set_keeps, State.withdrawMatch_keeps]

theorem execRewindBackupStart_keeps {ka kb kc : Bool} {s0 z : State} (n : Fin 8) (t : Int) (hk : Keeps ka kb kc s0 z) :
    Out.Keeps ka kb kc s0 (execRewindBackupStart n t z) := by
  unfold execRewindBackupStart
  grind [Keeps.mk_, Out.Keeps, CmdEnd.Keeps, State.backUp_keeps, State.enterBackUp_keeps]

theorem execRewindForwardRun_keeps {ka kb kc : Bool} {s0 z : State} (x : StationAt) (hk : Keeps ka kb kc s0 z) :
    Out.Keeps ka kb kc s0 (execRewindForwardRun x z) := by
  unfold execRewindForwardRun
  grind [Keeps.mk_, Out.Keeps, CmdEnd.Keeps, State.axisScale_keeps, State.setSto_keeps, State.set_keeps, State.stepFour_keeps, State.watchEntry_keeps]

theorem State.enterScan_keeps {ka kb kc : Bool} {s0 z : State} (n : Nat) (t : Int) (hk : Keeps ka kb kc s0 z) :
    Keeps ka kb kc s0 (State.enterScan z n t) := by
  unfold State.enterScan
  grind [Keeps.mk_, State.each_keeps, State.endStop_keeps, State.enterSt_keeps, State.restartHeads_keeps, State.setPhead_keeps, State.setPst_keeps, State.setSto_keeps, State.watchFrom_keeps]

theorem execRewindScanEntry_keeps {ka kb kc : Bool} {s0 z : State} (n : Fin 8) (t : Int) (hk : Keeps ka kb kc s0 z) :
    Out.Keeps ka kb kc s0 (execRewindScanEntry n t z) := by
  unfold execRewindScanEntry
  grind [Keeps.mk_, Out.Keeps, CmdEnd.Keeps, State.enterScan_keeps, State.syncHeld_keeps, State.watchEntry_keeps]

theorem execRewindTimeout_keeps {ka kb kc : Bool} {s0 z : State} (n : Fin 8) (hk : Keeps ka kb kc s0 z) :
    Out.Keeps ka kb kc s0 (execRewindTimeout n z) := by
  unfold execRewindTimeout
  grind [Keeps.mk_, Out.Keeps, CmdEnd.Keeps, State.rewindFail_keeps]

theorem execEncoderQuietTimeout_keeps {ka kb kc : Bool} {s0 z : State} (n : Fin 8) (t : Int) (hk : Keeps ka kb kc s0 z) :
    Out.Keeps ka kb kc s0 (execEncoderQuietTimeout n t z) := by
  unfold execEncoderQuietTimeout
  grind [Keeps.mk_, Out.Keeps, CmdEnd.Keeps, State.enterBackUp_keeps, State.stepFour_keeps]

theorem State.rewindRead_keeps {ka kb kc : Bool} {s0 z : State} (n m : Nat) (hk : Keeps ka kb kc s0 z) :
    Keeps ka kb kc s0 (State.rewindRead z n m) := by
  unfold State.rewindRead
  grind [Keeps.mk_, State.set_keeps, State.sstGap_keeps, State.sstSeam_keeps, State.syncStore_keeps]

theorem State.setHostEn_keeps {ka kb kc : Bool} {s0 z : State} (n v : Nat) (was : Bool) (hk : Keeps ka kb kc s0 z) :
    Keeps ka kb kc s0 (State.setHostEn z n v was) := by
  unfold State.setHostEn
  grind [Keeps.mk_, State.set_keeps, State.syncStore_keeps]

theorem State.hostCtrl_keeps {ka kb kc : Bool} {s0 z : State} (w : World) (n v : Nat) (hk : Keeps ka kb kc s0 z) :
    Keeps ka kb kc s0 (State.hostCtrl z w n v) := by
  unfold State.hostCtrl
  grind [Keeps.mk_, State.rewindRead_keeps, State.rowWrite_keeps, State.setHostEn_keeps]

theorem execHostReaderEnable_keeps {ka kb kc : Bool} {s0 z : State} (w : World) (n : Fin 8) (v : BitVec 32) (hk : Keeps ka kb kc s0 z) :
    Out.Keeps ka kb kc s0 (execHostReaderEnable w n v z) := by
  unfold execHostReaderEnable
  grind [Keeps.mk_, Out.Keeps, CmdEnd.Keeps, State.hostCtrl_keeps]

theorem execHostRewindRead_keeps {ka kb kc : Bool} {s0 z : State} (w : World) (n : Fin 8) (v : BitVec 32) (hk : Keeps ka kb kc s0 z) :
    Out.Keeps ka kb kc s0 (execHostRewindRead w n v z) := by
  unfold execHostRewindRead
  grind [Keeps.mk_, Out.Keeps, CmdEnd.Keeps, State.hostCtrl_keeps]

theorem execHostRpWrite_keeps {ka kb kc : Bool} {s0 z : State} (w : World) (n : Fin 8) (hi : Bool) (v : BitVec 32) (hk : Keeps ka kb kc s0 z) :
    Out.Keeps ka kb kc s0 (execHostRpWrite w n hi v z) := by
  unfold execHostRpWrite
  grind [Keeps.mk_, Out.Keeps, CmdEnd.Keeps, State.hostWrite_keeps, State.set_keeps, State.syncStore_keeps]

theorem State.hostMark_keeps {ka kb kc : Bool} {s0 z : State} (w : World) (n m v : Nat) (hk : Keeps ka kb kc s0 z) : Keeps ka kb kc s0 (State.hostMark z w n m v) := by
  unfold State.hostMark
  dsimp only
  apply State.rowWrite_keeps _ _ _ _ _ _ _ _ _ hk
  intro x hx
  apply State.syncStore_keeps
  have h1 : ∀ c : Prop, [Decidable c] → ∀ y, Keeps ka kb kc s0 (if c then (x.setSto n y).set R.SST_ST_MARK_VALID 1 n m else x) := by
    intro c _ y
    split
    · exact State.set_keeps _ _ _ _ (State.setSto_keeps _ _ hx)
    · exact hx
  split
  · exact State.set_keeps _ _ _ _ (State.setSto_keeps _ _ (h1 _ _))
  · exact h1 _ _

theorem execHostMarkSet_keeps {ka kb kc : Bool} {s0 z : State} (w : World) (n : Fin 8) (m : Fin 4) (v : BitVec 32) (hk : Keeps ka kb kc s0 z) :
    Out.Keeps ka kb kc s0 (execHostMarkSet w n m v z) := by
  unfold execHostMarkSet
  grind [Keeps.mk_, Out.Keeps, CmdEnd.Keeps, State.hostMark_keeps]

theorem execHostMarkClear_keeps {ka kb kc : Bool} {s0 z : State} (w : World) (n : Fin 8) (m : Fin 4) (v : BitVec 32) (hk : Keeps ka kb kc s0 z) :
    Out.Keeps ka kb kc s0 (execHostMarkClear w n m v z) := by
  unfold execHostMarkClear
  grind [Keeps.mk_, Out.Keeps, CmdEnd.Keeps, State.hostMark_keeps]

theorem execSstStoreSplitWrite_keeps {ka kb kc : Bool} {s0 z : State} (w : World) (v : BitVec 32) (hk : Keeps ka kb kc s0 z) :
    Out.Keeps ka kb kc s0 (execSstStoreSplitWrite w v z) := by
  unfold execSstStoreSplitWrite
  grind [Keeps.mk_, Out.Keeps, CmdEnd.Keeps, State.rowWrite_keeps, State.syncPages_keeps]

/-! ### Station -/

theorem State.define_keeps {ka kb kc : Bool} {s0 z : State} (r n : Nat) (hk : Keeps ka kb kc s0 z) :
    CmdEnd.Keeps ka kb kc s0 (State.define z r n) := by
  unfold State.define
  grind [Keeps.mk_, CmdEnd.Keeps, State.setStation_keeps, State.set_keeps]

theorem execStDefine_keeps {ka kb : Bool} {s0 z : State} (r : Fin 2) (hk : Keeps ka kb false s0 z) :
    Out.Keeps ka kb false s0 (execStDefine r z) := by
  unfold execStDefine
  grind [Keeps.mk_, Out.Keeps, CmdEnd.Keeps, State.command_keeps, State.define_keeps]

theorem execStArm_keeps {ka kb : Bool} {s0 z : State} (r : Fin 2) (t : Int) (t2 : Option (Fin 16)) (west : Bool) (hk : Keeps ka kb false s0 z) :
    Out.Keeps ka kb false s0 (execStArm r t t2 west z) := by
  unfold execStArm
  grind [Keeps.mk_, Out.Keeps, CmdEnd.Keeps, State.arm_keeps, State.command_keeps]

theorem State.startRun_keeps {ka kb kc : Bool} {s0 z : State} (n : Nat) (t : Int) (hk : Keeps ka kb kc s0 z) :
    CmdEnd.Keeps ka kb kc s0 (State.startRun z n t) := by
  unfold State.startRun
  grind (ematch := 40) (gen := 40) (splits := 40) (instances := 20000) [Keeps.mk_, CmdEnd.Keeps, badState, State.armed_keeps, State.enterSt_keeps, State.syncHeld_keeps, State.syncStore_keeps, State.watchFrom_keeps]

theorem execStStart_keeps {ka kb : Bool} {s0 z : State} (x : RingAt) (hk : Keeps ka kb false s0 z) :
    Out.Keeps ka kb false s0 (execStStart x z) := by
  unfold execStStart
  grind [Keeps.mk_, Out.Keeps, CmdEnd.Keeps, State.command_keeps, State.startRun_keeps]

theorem State.pause_keeps {ka kb kc : Bool} {s0 z : State} (n : Nat) (t : Int) (hk : Keeps ka kb kc s0 z) :
    CmdEnd.Keeps ka kb kc s0 (State.pause z n t) := by
  unfold State.pause
  grind (ematch := 40) (gen := 40) (splits := 40) (instances := 20000) [Keeps.mk_, CmdEnd.Keeps, badState, State.set_keeps, State.stopStation_keeps]

theorem execStPause_keeps {ka kb : Bool} {s0 z : State} (r : Fin 2) (t : Int) (hk : Keeps ka kb false s0 z) :
    Out.Keeps ka kb false s0 (execStPause r t z) := by
  unfold execStPause
  grind [Keeps.mk_, Out.Keeps, CmdEnd.Keeps, State.command_keeps, State.pause_keeps]

theorem State.resume_keeps {ka kb kc : Bool} {s0 z : State} (n : Nat) (hk : Keeps ka kb kc s0 z) :
    CmdEnd.Keeps ka kb kc s0 (State.resume z n) := by
  unfold State.resume
  grind (ematch := 40) (gen := 40) (splits := 40) (instances := 20000) [Keeps.mk_, CmdEnd.Keeps, badState, State.set_keeps]

theorem execStResume_keeps {ka kb : Bool} {s0 z : State} (r : Fin 2) (hk : Keeps ka kb false s0 z) :
    Out.Keeps ka kb false s0 (execStResume r z) := by
  unfold execStResume
  grind [Keeps.mk_, Out.Keeps, CmdEnd.Keeps, State.command_keeps, State.resume_keeps]

theorem State.drainStopped_keeps {ka kb kc : Bool} {s0 z : State} (n : Nat) (t : Int) (hk : Keeps ka kb kc s0 z) :
    CmdEnd.Keeps ka kb kc s0 (State.drainStopped z n t) := by
  unfold State.drainStopped
  grind [Keeps.mk_, CmdEnd.Keeps, State.axisStop_keeps, State.endStop_keeps, State.enterDrain_keeps]

theorem State.drainRun_keeps {ka kb kc : Bool} {s0 z : State} (n final : Nat) (hk : Keeps ka kb kc s0 z) :
    CmdEnd.Keeps ka kb kc s0 (State.drainRun z n final) := by
  unfold State.drainRun
  grind [Keeps.mk_, CmdEnd.Keeps, State.enterDrain_keeps, State.setStation_keeps]

theorem State.drainCmd_keeps {ka kb kc : Bool} {s0 z : State} (n final : Nat) (t : Int) (hk : Keeps ka kb kc s0 z) :
    CmdEnd.Keeps ka kb kc s0 (State.drainCmd z n final t) := by
  unfold State.drainCmd
  grind (ematch := 40) (gen := 40) (splits := 40) (instances := 20000) [Keeps.mk_, CmdEnd.Keeps, badState, State.armed_keeps, State.drainRun_keeps, State.drainStopped_keeps, State.idleEntry_keeps]

theorem execStDrain_keeps {ka kb : Bool} {s0 z : State} (x : RingAt) (hk : Keeps ka kb false s0 z) :
    Out.Keeps ka kb false s0 (execStDrain x z) := by
  unfold execStDrain
  grind [Keeps.mk_, Out.Keeps, CmdEnd.Keeps, State.command_keeps, State.drainCmd_keeps]

theorem State.abortCmd_keeps {ka kb kc : Bool} {s0 z : State} (n : Nat) (hk : Keeps ka kb kc s0 z) :
    CmdEnd.Keeps ka kb kc s0 (State.abortCmd z n) := by
  unfold State.abortCmd
  grind (ematch := 40) (gen := 40) (splits := 40) (instances := 20000) [Keeps.mk_, CmdEnd.Keeps, badState, State.abortStation_keeps]

theorem execStAbort_keeps {ka kb : Bool} {s0 z : State} (r : Fin 2) (hk : Keeps ka kb false s0 z) :
    Out.Keeps ka kb false s0 (execStAbort r z) := by
  unfold execStAbort
  grind [Keeps.mk_, Out.Keeps, CmdEnd.Keeps, State.abortCmd_keeps, State.command_keeps]

theorem State.cancelStage_keeps {ka kb kc : Bool} {s0 z : State} (n : Nat) (hk : Keeps ka kb kc s0 z) :
    CmdEnd.Keeps ka kb kc s0 (State.cancelStage z n) := by
  unfold State.cancelStage
  grind (ematch := 40) (gen := 40) (splits := 40) (instances := 20000) [Keeps.mk_, CmdEnd.Keeps, badState, State.dropStaged_keeps]

theorem State.stage_keeps {ka kb kc : Bool} {s0 z : State} (r n : Nat) (cancel : Bool) (g : Staged) (t2 : Option Nat) (hk : Keeps ka kb kc s0 z) :
    CmdEnd.Keeps ka kb kc s0 (State.stage z r n cancel g t2) := by
  unfold State.stage
  grind (ematch := 40) (gen := 40) (splits := 40) (instances := 20000) [Keeps.mk_, CmdEnd.Keeps, badState, State.admission_keeps, State.cancelStage_keeps, State.raiseVmax_keeps, State.stageChange_keeps]

theorem execStStage_keeps {ka kb : Bool} {s0 z : State} (r : Fin 2) (t2 : Option (Fin 16)) (hk : Keeps ka kb false s0 z) :
    Out.Keeps ka kb false s0 (execStStage r t2 z) := by
  unfold execStStage
  grind [Keeps.mk_, Out.Keeps, CmdEnd.Keeps, State.command_keeps, State.stage_keeps]

theorem execStQuery_keeps {ka kb : Bool} {s0 z : State} (r : Fin 2) (hk : Keeps ka kb false s0 z) :
    Out.Keeps ka kb false s0 (execStQuery r z) := by
  unfold execStQuery
  grind [Keeps.mk_, Out.Keeps, CmdEnd.Keeps, State.command_keeps]

/-! ### Thm -/

theorem execThmSweep_keeps {ka kb : Bool} {s0 z : State} (r : List (Option (BitVec 16))) (hk : Keeps ka kb false s0 z) :
    Out.Keeps ka kb false s0 (execThmSweep r z) := by
  unfold execThmSweep
  grind (ematch := 40) (gen := 40) (splits := 40) (instances := 20000) [Keeps.mk_, Out.Keeps, CmdEnd.Keeps, State.judgeSensors_keeps, State.judgeShutdown_keeps, State.judgeThrottle_keeps, State.judgeWarn_keeps, State.setS_keeps, State.setThm_keeps, State.set_keeps]

theorem execThmLevelStep_keeps {ka kb kc : Bool} {s0 z : State}  (hk : Keeps ka kb kc s0 z) :
    Out.Keeps ka kb kc s0 (execThmLevelStep z) := by
  unfold execThmLevelStep
  grind [Keeps.mk_, Out.Keeps, CmdEnd.Keeps, State.setLevel_keeps]

theorem execThmRefTrim_keeps {ka kb kc : Bool} {s0 z : State}  (hk : Keeps ka kb kc s0 z) :
    Out.Keeps ka kb kc s0 (execThmRefTrim z) := by
  unfold execThmRefTrim
  grind [Keeps.mk_, Out.Keeps, CmdEnd.Keeps, State.raise_keeps, State.setS_keeps, State.set_keeps]

theorem execThmThresholdWrite_keeps {ka kb kc : Bool} {s0 z : State} (w : World) (k : Fin 2) (v : BitVec 32) (hk : Keeps ka kb kc s0 z) :
    Out.Keeps ka kb kc s0 (execThmThresholdWrite w k v z) := by
  unfold execThmThresholdWrite
  grind [Keeps.mk_, Out.Keeps, CmdEnd.Keeps, State.rowWrite_keeps]

theorem execRoWindowEnd_keeps {ka kb kc : Bool} {s0 z : State} (i : Fin 8) (count : Nat) (hk : Keeps ka kb kc s0 z) :
    Out.Keeps ka kb kc s0 (execRoWindowEnd i count z) := by
  unfold execRoWindowEnd
  grind [Keeps.mk_, Out.Keeps, CmdEnd.Keeps, State.count_keeps, State.setSat_keeps, State.setThm_keeps, State.set_keeps]

/-! ### Ttc -/

theorem execMotionCycle_keeps {ka kb kc : Bool} {s0 z : State}  (hk : Keeps ka kb kc s0 z) :
    Out.Keeps ka kb kc s0 (execMotionCycle z) := by
  unfold execMotionCycle
  grind [Keeps.mk_, Out.Keeps, CmdEnd.Keeps, State.cycleAxis_keeps, State.cycleLin_keeps, State.cycleStart_keeps, State.dueLin_keeps, State.each_keeps, State.linkFrame_keeps, State.setAxis_keeps]

theorem execDriverStatusRx_keeps {ka kb kc : Bool} {s0 z : State} (a : Fin 4) (f : BitVec 80) (hk : Keeps ka kb kc s0 z) :
    Out.Keeps ka kb kc s0 (execDriverStatusRx a f z) := by
  unfold execDriverStatusRx
  grind [Keeps.mk_, Out.Keeps, CmdEnd.Keeps, State.addSat_keeps, State.goodStatus_keeps, State.setAxis_keeps]

theorem execMotionLinkLoss_keeps {ka kb kc : Bool} {s0 z : State} (a : Fin 4) (hk : Keeps ka kb kc s0 z) :
    Out.Keeps ka kb kc s0 (execMotionLinkLoss a z) := by
  unfold execMotionLinkLoss
  grind [Keeps.mk_, Out.Keeps, CmdEnd.Keeps, State.faultAxis_keeps]

theorem State.startLink_keeps {ka kb kc : Bool} {s0 z : State} (a : Nat) (hk : Keeps ka kb kc s0 z) :
    Keeps ka kb kc s0 (State.startLink z a) := by
  unfold State.startLink
  grind [Keeps.mk_, State.setAxis_keeps, State.set_keeps]

theorem State.disableAxis_keeps {ka kb kc : Bool} {s0 z : State} (a : Nat) (hk : Keeps ka kb kc s0 z) :
    Keeps ka kb kc s0 (State.disableAxis z a) := by
  unfold State.disableAxis
  grind [Keeps.mk_, State.setAxis_keeps, State.set_keeps, State.stopLin_keeps]

theorem execAxisEnable_keeps {ka kb kc : Bool} {s0 z : State} (w : World) (a : Fin 4) (v : BitVec 32) (hk : Keeps ka kb kc s0 z) :
    Out.Keeps ka kb kc s0 (execAxisEnable w a v z) := by
  unfold execAxisEnable
  grind [Keeps.mk_, Out.Keeps, CmdEnd.Keeps, State.disableAxis_keeps, State.rowWrite_keeps, State.startLink_keeps]

theorem execAxisStop_keeps {ka kb kc : Bool} {s0 z : State} (w : World) (a : Fin 4) (hk : Keeps ka kb kc s0 z) :
    Out.Keeps ka kb kc s0 (execAxisStop w a z) := by
  unfold execAxisStop
  grind [Keeps.mk_, Out.Keeps, CmdEnd.Keeps, State.axisCmd_keeps, State.axisStop_keeps]

theorem execAxisMove_keeps {ka kb kc : Bool} {s0 z : State} (w : World) (a : Fin 4) (hk : Keeps ka kb kc s0 z) :
    Out.Keeps ka kb kc s0 (execAxisMove w a z) := by
  unfold execAxisMove
  grind [Keeps.mk_, Out.Keeps, CmdEnd.Keeps, State.aim_keeps, State.axisCmd_keeps]

theorem execAxisVel_keeps {ka kb kc : Bool} {s0 z : State} (w : World) (a : Fin 4) (hk : Keeps ka kb kc s0 z) :
    Out.Keeps ka kb kc s0 (execAxisVel w a z) := by
  unfold execAxisVel
  grind [Keeps.mk_, Out.Keeps, CmdEnd.Keeps, State.aim_keeps, State.axisCmd_keeps]

theorem execAxisEstop_keeps {ka kb kc : Bool} {s0 z : State} (w : World) (a : Fin 4) (hk : Keeps ka kb kc s0 z) :
    Out.Keeps ka kb kc s0 (execAxisEstop w a z) := by
  unfold execAxisEstop
  grind [Keeps.mk_, Out.Keeps, CmdEnd.Keeps, State.aim_keeps, State.axisCmd_keeps]

theorem execLinearMove_keeps {ka kb kc : Bool} {s0 z : State} (w : World) (v : BitVec 32) (hk : Keeps ka kb kc s0 z) :
    Out.Keeps ka kb kc s0 (execLinearMove w v z) := by
  unfold execLinearMove
  grind [Keeps.mk_, Out.Keeps, CmdEnd.Keeps, State.rowWrite_keeps, State.startLin_keeps]

theorem execAxisSettleDone_keeps {ka kb kc : Bool} {s0 z : State} (a : Fin 4) (t : Int) (hk : Keeps ka kb kc s0 z) :
    Out.Keeps ka kb kc s0 (execAxisSettleDone a t z) := by
  unfold execAxisSettleDone
  grind [Keeps.mk_, Out.Keeps, CmdEnd.Keeps, State.backUp_keeps, State.faultAxis_keeps, State.rewindArm_keeps, State.setAxis_keeps, State.set_keeps]

theorem execAxisHoldTimeout_keeps {ka kb kc : Bool} {s0 z : State} (a : Fin 4) (hk : Keeps ka kb kc s0 z) :
    Out.Keeps ka kb kc s0 (execAxisHoldTimeout a z) := by
  unfold execAxisHoldTimeout
  grind [Keeps.mk_, Out.Keeps, CmdEnd.Keeps, State.holdCoil_keeps]

theorem execAxisFaultClear_keeps {ka kb kc : Bool} {s0 z : State} (w : World) (a : Fin 4) (v : BitVec 32) (hk : Keeps ka kb kc s0 z) :
    Out.Keeps ka kb kc s0 (execAxisFaultClear w a v z) := by
  unfold execAxisFaultClear
  grind [Keeps.mk_, Out.Keeps, CmdEnd.Keeps, State.rowWrite_keeps, State.setAxis_keeps, State.set_keeps]

theorem execMicrostepTableWrite_keeps {ka kc : Bool} {s0 z : State} (w : World) (i : Fin 1024) (v : BitVec 32) (hk : Keeps ka false kc s0 z) :
    Out.Keeps ka false kc s0 (execMicrostepTableWrite w i v z) := by
  unfold execMicrostepTableWrite
  grind [Keeps.mk_, Out.Keeps, CmdEnd.Keeps, State.putLeaf_keeps, State.refuse_keeps, State.windowWrite_keeps]

end Sys2Proof.Machine
end

