-- ==== Sys2Proof/Laws/LineCode.lean ====
section
/-! SUPPORT. What the line coding keeps: a receiver in step with the sender gets the payload back (R60). -/

namespace Sys2Proof.Machine

/-- A receiver whose register agrees with the sender's recovers the bits sent, and agrees after them too. -/
theorem descramble_scramble (n st v : Nat) : descramble n st (scramble n st v).1 = (v % 2 ^ n, (scramble n st v).2) := by
  induction n generalizing st v with
  | zero => simp [scramble, descramble, Nat.mod_one]
  | succ n ih =>
    let b := (v + st / 2 ^ 38 + st / 2 ^ 57) % 2
    let r := scramble n ((2 * st + b) % 2 ^ 58) (v / 2)
    have e : scramble (n + 1) st v = (b + 2 * r.1, r.2) := rfl
    have hb : b < 2 := Nat.mod_lt _ (by decide)
    have low : (b + 2 * r.1) % 2 = b := by omega
    have high : (b + 2 * r.1) / 2 = r.1 := by omega
    have bit : (b + 2 * r.1 + st / 2 ^ 38 + st / 2 ^ 57) % 2 = v % 2 := by omega
    have ih := ih ((2 * st + b) % 2 ^ 58) (v / 2)
    rw [e]
    simp only [descramble, low, high, bit]
    rw [show scramble n ((2 * st + b) % 2 ^ 58) (v / 2) = r from rfl] at ih
    rw [ih]
    rw [Nat.pow_succ, Nat.mul_comm (2 ^ n) 2, Nat.mod_mul]

end Sys2Proof.Machine
end

