-- ==== Sys2Proof/Laws/State.lean ====
section
/-! SUPPORT. Laws of the named updates of the state: what reads what, one lemma for each field and update. -/

open Sys2Proof

namespace Sys2Proof.Machine

/-! ### Register fields -/

/-- A field read after it is set: the value, at the field's width. -/
@[simp] theorem State.get_set_self (s : State) (f : Fld) (v i j : Nat) : (s.set f v i j).get f i j = v % 2 ^ f.width :=
  SMap.get_put_self _ _ _ _

/-- Setting a field leaves every field at another bit address alone. -/
theorem State.get_set_ne (s : State) (f g : Fld) (v i j k l : Nat) (h : g.key k l ≠ f.key i j) :
    (s.set f v i j).get g k l = s.get g k l := SMap.get_put_ne _ _ _ _ h

/-- What a field reads when every register entry is as in another state. -/
theorem State.get_congr {s t : State} (h : t.regs = s.regs) (f : Fld) (i j : Nat) : t.get f i j = s.get f i j := by
  simp only [State.get, h]

/-! ### `State.set` -/

@[simp] theorem State.set_pending (s : State) (f : Fld) (v i j : Nat) : (s.set f v i j).pending = s.pending := rfl
@[simp] theorem State.set_hold (s : State) (f : Fld) (v i j : Nat) : (s.set f v i j).hold = s.hold := rfl
@[simp] theorem State.set_out (s : State) (f : Fld) (v i j : Nat) : (s.set f v i j).out = s.out := rfl
@[simp] theorem State.set_fresh (s : State) (f : Fld) (v i j : Nat) : (s.set f v i j).fresh = s.fresh := rfl
@[simp] theorem State.set_due (s : State) (f : Fld) (v i j : Nat) : (s.set f v i j).due = s.due := rfl
@[simp] theorem State.set_hbm (s : State) (f : Fld) (v i j : Nat) : (s.set f v i j).hbm = s.hbm := rfl
@[simp] theorem State.set_leaf (s : State) (f : Fld) (v i j : Nat) : (s.set f v i j).leaf = s.leaf := rfl
@[simp] theorem State.set_mbox (s : State) (f : Fld) (v i j : Nat) : (s.set f v i j).mbox = s.mbox := rfl
@[simp] theorem State.set_qmx (s : State) (f : Fld) (v i j : Nat) : (s.set f v i j).qmx = s.qmx := rfl
@[simp] theorem State.set_store (s : State) (f : Fld) (v i j : Nat) : (s.set f v i j).store = s.store := rfl
@[simp] theorem State.set_eng (s : State) (f : Fld) (v i j : Nat) : (s.set f v i j).eng = s.eng := rfl
@[simp] theorem State.set_pace (s : State) (f : Fld) (v i j : Nat) : (s.set f v i j).pace = s.pace := rfl
@[simp] theorem State.set_hlf (s : State) (f : Fld) (v i j : Nat) : (s.set f v i j).hlf = s.hlf := rfl
@[simp] theorem State.set_ltu (s : State) (f : Fld) (v i j : Nat) : (s.set f v i j).ltu = s.ltu := rfl
@[simp] theorem State.set_pcp (s : State) (f : Fld) (v i j : Nat) : (s.set f v i j).pcp = s.pcp := rfl
@[simp] theorem State.set_ttc (s : State) (f : Fld) (v i j : Nat) : (s.set f v i j).ttc = s.ttc := rfl
@[simp] theorem State.set_ilc (s : State) (f : Fld) (v i j : Nat) : (s.set f v i j).ilc = s.ilc := rfl
@[simp] theorem State.set_scu (s : State) (f : Fld) (v i j : Nat) : (s.set f v i j).scu = s.scu := rfl
@[simp] theorem State.set_seals (s : State) (f : Fld) (v i j : Nat) : (s.set f v i j).seals = s.seals := rfl
@[simp] theorem State.set_stations (s : State) (f : Fld) (v i j : Nat) : (s.set f v i j).stations = s.stations := rfl
@[simp] theorem State.set_smc (s : State) (f : Fld) (v i j : Nat) : (s.set f v i j).smc = s.smc := rfl
@[simp] theorem State.set_kru (s : State) (f : Fld) (v i j : Nat) : (s.set f v i j).kru = s.kru := rfl
@[simp] theorem State.set_hif (s : State) (f : Fld) (v i j : Nat) : (s.set f v i j).hif = s.hif := rfl
@[simp] theorem State.set_mfe (s : State) (f : Fld) (v i j : Nat) : (s.set f v i j).mfe = s.mfe := rfl
@[simp] theorem State.set_thm (s : State) (f : Fld) (v i j : Nat) : (s.set f v i j).thm = s.thm := rfl

/-! ### `State.setQueue` -/

@[simp] theorem State.setQueue_pending (s : State) (n : Nat) (x : Queue) : (s.setQueue n x).pending = s.pending := rfl
@[simp] theorem State.setQueue_regs (s : State) (n : Nat) (x : Queue) : (s.setQueue n x).regs = s.regs := rfl
@[simp] theorem State.setQueue_hold (s : State) (n : Nat) (x : Queue) : (s.setQueue n x).hold = s.hold := rfl
@[simp] theorem State.setQueue_out (s : State) (n : Nat) (x : Queue) : (s.setQueue n x).out = s.out := rfl
@[simp] theorem State.setQueue_fresh (s : State) (n : Nat) (x : Queue) : (s.setQueue n x).fresh = s.fresh := rfl
@[simp] theorem State.setQueue_due (s : State) (n : Nat) (x : Queue) : (s.setQueue n x).due = s.due := rfl
@[simp] theorem State.setQueue_hbm (s : State) (n : Nat) (x : Queue) : (s.setQueue n x).hbm = s.hbm := rfl
@[simp] theorem State.setQueue_leaf (s : State) (n : Nat) (x : Queue) : (s.setQueue n x).leaf = s.leaf := rfl
@[simp] theorem State.setQueue_mbox (s : State) (n : Nat) (x : Queue) : (s.setQueue n x).mbox = s.mbox := rfl
@[simp] theorem State.setQueue_store (s : State) (n : Nat) (x : Queue) : (s.setQueue n x).store = s.store := rfl
@[simp] theorem State.setQueue_eng (s : State) (n : Nat) (x : Queue) : (s.setQueue n x).eng = s.eng := rfl
@[simp] theorem State.setQueue_pace (s : State) (n : Nat) (x : Queue) : (s.setQueue n x).pace = s.pace := rfl
@[simp] theorem State.setQueue_hlf (s : State) (n : Nat) (x : Queue) : (s.setQueue n x).hlf = s.hlf := rfl
@[simp] theorem State.setQueue_ltu (s : State) (n : Nat) (x : Queue) : (s.setQueue n x).ltu = s.ltu := rfl
@[simp] theorem State.setQueue_pcp (s : State) (n : Nat) (x : Queue) : (s.setQueue n x).pcp = s.pcp := rfl
@[simp] theorem State.setQueue_ttc (s : State) (n : Nat) (x : Queue) : (s.setQueue n x).ttc = s.ttc := rfl
@[simp] theorem State.setQueue_ilc (s : State) (n : Nat) (x : Queue) : (s.setQueue n x).ilc = s.ilc := rfl
@[simp] theorem State.setQueue_scu (s : State) (n : Nat) (x : Queue) : (s.setQueue n x).scu = s.scu := rfl
@[simp] theorem State.setQueue_seals (s : State) (n : Nat) (x : Queue) : (s.setQueue n x).seals = s.seals := rfl
@[simp] theorem State.setQueue_stations (s : State) (n : Nat) (x : Queue) : (s.setQueue n x).stations = s.stations := rfl
@[simp] theorem State.setQueue_smc (s : State) (n : Nat) (x : Queue) : (s.setQueue n x).smc = s.smc := rfl
@[simp] theorem State.setQueue_kru (s : State) (n : Nat) (x : Queue) : (s.setQueue n x).kru = s.kru := rfl
@[simp] theorem State.setQueue_hif (s : State) (n : Nat) (x : Queue) : (s.setQueue n x).hif = s.hif := rfl
@[simp] theorem State.setQueue_mfe (s : State) (n : Nat) (x : Queue) : (s.setQueue n x).mfe = s.mfe := rfl
@[simp] theorem State.setQueue_thm (s : State) (n : Nat) (x : Queue) : (s.setQueue n x).thm = s.thm := rfl
@[simp] theorem State.setQueue_get (s : State) (n : Nat) (x : Queue) (f : Fld) (k l : Nat) : (s.setQueue n x).get f k l = s.get f k l := rfl
@[simp] theorem State.setQueue_queue (s : State) (n : Nat) (x : Queue) : (s.setQueue n x).queue n = x := SMap.get_put_self _ _ _ _
theorem State.setQueue_queue_ne (s : State) (n : Nat) (x : Queue) (m : Nat) (h : m ≠ n) : (s.setQueue n x).queue m = s.queue m :=
  SMap.get_put_ne _ _ _ _ h
@[simp] theorem State.set_queue (s : State) (f : Fld) (v i j n : Nat) : (s.set f v i j).queue n = s.queue n := rfl

/-! ### `State.setEngine` -/

@[simp] theorem State.setEngine_pending (s : State) (n : Nat) (x : Engine) : (s.setEngine n x).pending = s.pending := rfl
@[simp] theorem State.setEngine_regs (s : State) (n : Nat) (x : Engine) : (s.setEngine n x).regs = s.regs := rfl
@[simp] theorem State.setEngine_hold (s : State) (n : Nat) (x : Engine) : (s.setEngine n x).hold = s.hold := rfl
@[simp] theorem State.setEngine_out (s : State) (n : Nat) (x : Engine) : (s.setEngine n x).out = s.out := rfl
@[simp] theorem State.setEngine_fresh (s : State) (n : Nat) (x : Engine) : (s.setEngine n x).fresh = s.fresh := rfl
@[simp] theorem State.setEngine_due (s : State) (n : Nat) (x : Engine) : (s.setEngine n x).due = s.due := rfl
@[simp] theorem State.setEngine_hbm (s : State) (n : Nat) (x : Engine) : (s.setEngine n x).hbm = s.hbm := rfl
@[simp] theorem State.setEngine_leaf (s : State) (n : Nat) (x : Engine) : (s.setEngine n x).leaf = s.leaf := rfl
@[simp] theorem State.setEngine_mbox (s : State) (n : Nat) (x : Engine) : (s.setEngine n x).mbox = s.mbox := rfl
@[simp] theorem State.setEngine_qmx (s : State) (n : Nat) (x : Engine) : (s.setEngine n x).qmx = s.qmx := rfl
@[simp] theorem State.setEngine_store (s : State) (n : Nat) (x : Engine) : (s.setEngine n x).store = s.store := rfl
@[simp] theorem State.setEngine_pace (s : State) (n : Nat) (x : Engine) : (s.setEngine n x).pace = s.pace := rfl
@[simp] theorem State.setEngine_hlf (s : State) (n : Nat) (x : Engine) : (s.setEngine n x).hlf = s.hlf := rfl
@[simp] theorem State.setEngine_ltu (s : State) (n : Nat) (x : Engine) : (s.setEngine n x).ltu = s.ltu := rfl
@[simp] theorem State.setEngine_pcp (s : State) (n : Nat) (x : Engine) : (s.setEngine n x).pcp = s.pcp := rfl
@[simp] theorem State.setEngine_ttc (s : State) (n : Nat) (x : Engine) : (s.setEngine n x).ttc = s.ttc := rfl
@[simp] theorem State.setEngine_ilc (s : State) (n : Nat) (x : Engine) : (s.setEngine n x).ilc = s.ilc := rfl
@[simp] theorem State.setEngine_scu (s : State) (n : Nat) (x : Engine) : (s.setEngine n x).scu = s.scu := rfl
@[simp] theorem State.setEngine_seals (s : State) (n : Nat) (x : Engine) : (s.setEngine n x).seals = s.seals := rfl
@[simp] theorem State.setEngine_stations (s : State) (n : Nat) (x : Engine) : (s.setEngine n x).stations = s.stations := rfl
@[simp] theorem State.setEngine_smc (s : State) (n : Nat) (x : Engine) : (s.setEngine n x).smc = s.smc := rfl
@[simp] theorem State.setEngine_kru (s : State) (n : Nat) (x : Engine) : (s.setEngine n x).kru = s.kru := rfl
@[simp] theorem State.setEngine_hif (s : State) (n : Nat) (x : Engine) : (s.setEngine n x).hif = s.hif := rfl
@[simp] theorem State.setEngine_mfe (s : State) (n : Nat) (x : Engine) : (s.setEngine n x).mfe = s.mfe := rfl
@[simp] theorem State.setEngine_thm (s : State) (n : Nat) (x : Engine) : (s.setEngine n x).thm = s.thm := rfl
@[simp] theorem State.setEngine_get (s : State) (n : Nat) (x : Engine) (f : Fld) (k l : Nat) : (s.setEngine n x).get f k l = s.get f k l := rfl
@[simp] theorem State.setEngine_engine (s : State) (n : Nat) (x : Engine) : (s.setEngine n x).engine n = x := SMap.get_put_self _ _ _ _
theorem State.setEngine_engine_ne (s : State) (n : Nat) (x : Engine) (m : Nat) (h : m ≠ n) : (s.setEngine n x).engine m = s.engine m :=
  SMap.get_put_ne _ _ _ _ h
@[simp] theorem State.set_engine (s : State) (f : Fld) (v i j n : Nat) : (s.set f v i j).engine n = s.engine n := rfl

/-! ### `State.setSto` -/

@[simp] theorem State.setSto_pending (s : State) (n : Nat) (x : Store) : (s.setSto n x).pending = s.pending := rfl
@[simp] theorem State.setSto_regs (s : State) (n : Nat) (x : Store) : (s.setSto n x).regs = s.regs := rfl
@[simp] theorem State.setSto_hold (s : State) (n : Nat) (x : Store) : (s.setSto n x).hold = s.hold := rfl
@[simp] theorem State.setSto_out (s : State) (n : Nat) (x : Store) : (s.setSto n x).out = s.out := rfl
@[simp] theorem State.setSto_fresh (s : State) (n : Nat) (x : Store) : (s.setSto n x).fresh = s.fresh := rfl
@[simp] theorem State.setSto_due (s : State) (n : Nat) (x : Store) : (s.setSto n x).due = s.due := rfl
@[simp] theorem State.setSto_hbm (s : State) (n : Nat) (x : Store) : (s.setSto n x).hbm = s.hbm := rfl
@[simp] theorem State.setSto_leaf (s : State) (n : Nat) (x : Store) : (s.setSto n x).leaf = s.leaf := rfl
@[simp] theorem State.setSto_mbox (s : State) (n : Nat) (x : Store) : (s.setSto n x).mbox = s.mbox := rfl
@[simp] theorem State.setSto_qmx (s : State) (n : Nat) (x : Store) : (s.setSto n x).qmx = s.qmx := rfl
@[simp] theorem State.setSto_eng (s : State) (n : Nat) (x : Store) : (s.setSto n x).eng = s.eng := rfl
@[simp] theorem State.setSto_pace (s : State) (n : Nat) (x : Store) : (s.setSto n x).pace = s.pace := rfl
@[simp] theorem State.setSto_hlf (s : State) (n : Nat) (x : Store) : (s.setSto n x).hlf = s.hlf := rfl
@[simp] theorem State.setSto_ltu (s : State) (n : Nat) (x : Store) : (s.setSto n x).ltu = s.ltu := rfl
@[simp] theorem State.setSto_pcp (s : State) (n : Nat) (x : Store) : (s.setSto n x).pcp = s.pcp := rfl
@[simp] theorem State.setSto_ttc (s : State) (n : Nat) (x : Store) : (s.setSto n x).ttc = s.ttc := rfl
@[simp] theorem State.setSto_ilc (s : State) (n : Nat) (x : Store) : (s.setSto n x).ilc = s.ilc := rfl
@[simp] theorem State.setSto_scu (s : State) (n : Nat) (x : Store) : (s.setSto n x).scu = s.scu := rfl
@[simp] theorem State.setSto_seals (s : State) (n : Nat) (x : Store) : (s.setSto n x).seals = s.seals := rfl
@[simp] theorem State.setSto_stations (s : State) (n : Nat) (x : Store) : (s.setSto n x).stations = s.stations := rfl
@[simp] theorem State.setSto_smc (s : State) (n : Nat) (x : Store) : (s.setSto n x).smc = s.smc := rfl
@[simp] theorem State.setSto_kru (s : State) (n : Nat) (x : Store) : (s.setSto n x).kru = s.kru := rfl
@[simp] theorem State.setSto_hif (s : State) (n : Nat) (x : Store) : (s.setSto n x).hif = s.hif := rfl
@[simp] theorem State.setSto_mfe (s : State) (n : Nat) (x : Store) : (s.setSto n x).mfe = s.mfe := rfl
@[simp] theorem State.setSto_thm (s : State) (n : Nat) (x : Store) : (s.setSto n x).thm = s.thm := rfl
@[simp] theorem State.setSto_get (s : State) (n : Nat) (x : Store) (f : Fld) (k l : Nat) : (s.setSto n x).get f k l = s.get f k l := rfl
@[simp] theorem State.setSto_sto (s : State) (n : Nat) (x : Store) : (s.setSto n x).sto n = x := SMap.get_put_self _ _ _ _
theorem State.setSto_sto_ne (s : State) (n : Nat) (x : Store) (m : Nat) (h : m ≠ n) : (s.setSto n x).sto m = s.sto m :=
  SMap.get_put_ne _ _ _ _ h
@[simp] theorem State.set_sto (s : State) (f : Fld) (v i j n : Nat) : (s.set f v i j).sto n = s.sto n := rfl

/-! ### `State.setSeal` -/

@[simp] theorem State.setSeal_pending (s : State) (n : Nat) (x : Seal) : (s.setSeal n x).pending = s.pending := rfl
@[simp] theorem State.setSeal_regs (s : State) (n : Nat) (x : Seal) : (s.setSeal n x).regs = s.regs := rfl
@[simp] theorem State.setSeal_hold (s : State) (n : Nat) (x : Seal) : (s.setSeal n x).hold = s.hold := rfl
@[simp] theorem State.setSeal_out (s : State) (n : Nat) (x : Seal) : (s.setSeal n x).out = s.out := rfl
@[simp] theorem State.setSeal_fresh (s : State) (n : Nat) (x : Seal) : (s.setSeal n x).fresh = s.fresh := rfl
@[simp] theorem State.setSeal_due (s : State) (n : Nat) (x : Seal) : (s.setSeal n x).due = s.due := rfl
@[simp] theorem State.setSeal_hbm (s : State) (n : Nat) (x : Seal) : (s.setSeal n x).hbm = s.hbm := rfl
@[simp] theorem State.setSeal_leaf (s : State) (n : Nat) (x : Seal) : (s.setSeal n x).leaf = s.leaf := rfl
@[simp] theorem State.setSeal_mbox (s : State) (n : Nat) (x : Seal) : (s.setSeal n x).mbox = s.mbox := rfl
@[simp] theorem State.setSeal_qmx (s : State) (n : Nat) (x : Seal) : (s.setSeal n x).qmx = s.qmx := rfl
@[simp] theorem State.setSeal_store (s : State) (n : Nat) (x : Seal) : (s.setSeal n x).store = s.store := rfl
@[simp] theorem State.setSeal_eng (s : State) (n : Nat) (x : Seal) : (s.setSeal n x).eng = s.eng := rfl
@[simp] theorem State.setSeal_pace (s : State) (n : Nat) (x : Seal) : (s.setSeal n x).pace = s.pace := rfl
@[simp] theorem State.setSeal_hlf (s : State) (n : Nat) (x : Seal) : (s.setSeal n x).hlf = s.hlf := rfl
@[simp] theorem State.setSeal_ltu (s : State) (n : Nat) (x : Seal) : (s.setSeal n x).ltu = s.ltu := rfl
@[simp] theorem State.setSeal_pcp (s : State) (n : Nat) (x : Seal) : (s.setSeal n x).pcp = s.pcp := rfl
@[simp] theorem State.setSeal_ttc (s : State) (n : Nat) (x : Seal) : (s.setSeal n x).ttc = s.ttc := rfl
@[simp] theorem State.setSeal_ilc (s : State) (n : Nat) (x : Seal) : (s.setSeal n x).ilc = s.ilc := rfl
@[simp] theorem State.setSeal_scu (s : State) (n : Nat) (x : Seal) : (s.setSeal n x).scu = s.scu := rfl
@[simp] theorem State.setSeal_stations (s : State) (n : Nat) (x : Seal) : (s.setSeal n x).stations = s.stations := rfl
@[simp] theorem State.setSeal_smc (s : State) (n : Nat) (x : Seal) : (s.setSeal n x).smc = s.smc := rfl
@[simp] theorem State.setSeal_kru (s : State) (n : Nat) (x : Seal) : (s.setSeal n x).kru = s.kru := rfl
@[simp] theorem State.setSeal_hif (s : State) (n : Nat) (x : Seal) : (s.setSeal n x).hif = s.hif := rfl
@[simp] theorem State.setSeal_mfe (s : State) (n : Nat) (x : Seal) : (s.setSeal n x).mfe = s.mfe := rfl
@[simp] theorem State.setSeal_thm (s : State) (n : Nat) (x : Seal) : (s.setSeal n x).thm = s.thm := rfl
@[simp] theorem State.setSeal_get (s : State) (n : Nat) (x : Seal) (f : Fld) (k l : Nat) : (s.setSeal n x).get f k l = s.get f k l := rfl
@[simp] theorem State.setSeal_sealOf (s : State) (n : Nat) (x : Seal) : (s.setSeal n x).sealOf n = x := SMap.get_put_self _ _ _ _
theorem State.setSeal_sealOf_ne (s : State) (n : Nat) (x : Seal) (m : Nat) (h : m ≠ n) : (s.setSeal n x).sealOf m = s.sealOf m :=
  SMap.get_put_ne _ _ _ _ h
@[simp] theorem State.set_sealOf (s : State) (f : Fld) (v i j n : Nat) : (s.set f v i j).sealOf n = s.sealOf n := rfl

/-! ### `State.setStation` -/

@[simp] theorem State.setStation_pending (s : State) (n : Nat) (x : Station) : (s.setStation n x).pending = s.pending := rfl
@[simp] theorem State.setStation_regs (s : State) (n : Nat) (x : Station) : (s.setStation n x).regs = s.regs := rfl
@[simp] theorem State.setStation_hold (s : State) (n : Nat) (x : Station) : (s.setStation n x).hold = s.hold := rfl
@[simp] theorem State.setStation_out (s : State) (n : Nat) (x : Station) : (s.setStation n x).out = s.out := rfl
@[simp] theorem State.setStation_fresh (s : State) (n : Nat) (x : Station) : (s.setStation n x).fresh = s.fresh := rfl
@[simp] theorem State.setStation_due (s : State) (n : Nat) (x : Station) : (s.setStation n x).due = s.due := rfl
@[simp] theorem State.setStation_hbm (s : State) (n : Nat) (x : Station) : (s.setStation n x).hbm = s.hbm := rfl
@[simp] theorem State.setStation_leaf (s : State) (n : Nat) (x : Station) : (s.setStation n x).leaf = s.leaf := rfl
@[simp] theorem State.setStation_mbox (s : State) (n : Nat) (x : Station) : (s.setStation n x).mbox = s.mbox := rfl
@[simp] theorem State.setStation_qmx (s : State) (n : Nat) (x : Station) : (s.setStation n x).qmx = s.qmx := rfl
@[simp] theorem State.setStation_store (s : State) (n : Nat) (x : Station) : (s.setStation n x).store = s.store := rfl
@[simp] theorem State.setStation_eng (s : State) (n : Nat) (x : Station) : (s.setStation n x).eng = s.eng := rfl
@[simp] theorem State.setStation_pace (s : State) (n : Nat) (x : Station) : (s.setStation n x).pace = s.pace := rfl
@[simp] theorem State.setStation_hlf (s : State) (n : Nat) (x : Station) : (s.setStation n x).hlf = s.hlf := rfl
@[simp] theorem State.setStation_ltu (s : State) (n : Nat) (x : Station) : (s.setStation n x).ltu = s.ltu := rfl
@[simp] theorem State.setStation_pcp (s : State) (n : Nat) (x : Station) : (s.setStation n x).pcp = s.pcp := rfl
@[simp] theorem State.setStation_ttc (s : State) (n : Nat) (x : Station) : (s.setStation n x).ttc = s.ttc := rfl
@[simp] theorem State.setStation_ilc (s : State) (n : Nat) (x : Station) : (s.setStation n x).ilc = s.ilc := rfl
@[simp] theorem State.setStation_scu (s : State) (n : Nat) (x : Station) : (s.setStation n x).scu = s.scu := rfl
@[simp] theorem State.setStation_seals (s : State) (n : Nat) (x : Station) : (s.setStation n x).seals = s.seals := rfl
@[simp] theorem State.setStation_smc (s : State) (n : Nat) (x : Station) : (s.setStation n x).smc = s.smc := rfl
@[simp] theorem State.setStation_kru (s : State) (n : Nat) (x : Station) : (s.setStation n x).kru = s.kru := rfl
@[simp] theorem State.setStation_hif (s : State) (n : Nat) (x : Station) : (s.setStation n x).hif = s.hif := rfl
@[simp] theorem State.setStation_mfe (s : State) (n : Nat) (x : Station) : (s.setStation n x).mfe = s.mfe := rfl
@[simp] theorem State.setStation_thm (s : State) (n : Nat) (x : Station) : (s.setStation n x).thm = s.thm := rfl
@[simp] theorem State.setStation_get (s : State) (n : Nat) (x : Station) (f : Fld) (k l : Nat) : (s.setStation n x).get f k l = s.get f k l := rfl
@[simp] theorem State.setStation_station (s : State) (n : Nat) (x : Station) : (s.setStation n x).station n = x := SMap.get_put_self _ _ _ _
theorem State.setStation_station_ne (s : State) (n : Nat) (x : Station) (m : Nat) (h : m ≠ n) : (s.setStation n x).station m = s.station m :=
  SMap.get_put_ne _ _ _ _ h
@[simp] theorem State.set_station (s : State) (f : Fld) (v i j n : Nat) : (s.set f v i j).station n = s.station n := rfl

/-! ### `State.setStream` -/

@[simp] theorem State.setStream_pending (s : State) (n : Nat) (x : Stream) : (s.setStream n x).pending = s.pending := rfl
@[simp] theorem State.setStream_regs (s : State) (n : Nat) (x : Stream) : (s.setStream n x).regs = s.regs := rfl
@[simp] theorem State.setStream_hold (s : State) (n : Nat) (x : Stream) : (s.setStream n x).hold = s.hold := rfl
@[simp] theorem State.setStream_out (s : State) (n : Nat) (x : Stream) : (s.setStream n x).out = s.out := rfl
@[simp] theorem State.setStream_fresh (s : State) (n : Nat) (x : Stream) : (s.setStream n x).fresh = s.fresh := rfl
@[simp] theorem State.setStream_due (s : State) (n : Nat) (x : Stream) : (s.setStream n x).due = s.due := rfl
@[simp] theorem State.setStream_hbm (s : State) (n : Nat) (x : Stream) : (s.setStream n x).hbm = s.hbm := rfl
@[simp] theorem State.setStream_leaf (s : State) (n : Nat) (x : Stream) : (s.setStream n x).leaf = s.leaf := rfl
@[simp] theorem State.setStream_mbox (s : State) (n : Nat) (x : Stream) : (s.setStream n x).mbox = s.mbox := rfl
@[simp] theorem State.setStream_qmx (s : State) (n : Nat) (x : Stream) : (s.setStream n x).qmx = s.qmx := rfl
@[simp] theorem State.setStream_store (s : State) (n : Nat) (x : Stream) : (s.setStream n x).store = s.store := rfl
@[simp] theorem State.setStream_eng (s : State) (n : Nat) (x : Stream) : (s.setStream n x).eng = s.eng := rfl
@[simp] theorem State.setStream_pace (s : State) (n : Nat) (x : Stream) : (s.setStream n x).pace = s.pace := rfl
@[simp] theorem State.setStream_hlf (s : State) (n : Nat) (x : Stream) : (s.setStream n x).hlf = s.hlf := rfl
@[simp] theorem State.setStream_ltu (s : State) (n : Nat) (x : Stream) : (s.setStream n x).ltu = s.ltu := rfl
@[simp] theorem State.setStream_pcp (s : State) (n : Nat) (x : Stream) : (s.setStream n x).pcp = s.pcp := rfl
@[simp] theorem State.setStream_ttc (s : State) (n : Nat) (x : Stream) : (s.setStream n x).ttc = s.ttc := rfl
@[simp] theorem State.setStream_ilc (s : State) (n : Nat) (x : Stream) : (s.setStream n x).ilc = s.ilc := rfl
@[simp] theorem State.setStream_scu (s : State) (n : Nat) (x : Stream) : (s.setStream n x).scu = s.scu := rfl
@[simp] theorem State.setStream_seals (s : State) (n : Nat) (x : Stream) : (s.setStream n x).seals = s.seals := rfl
@[simp] theorem State.setStream_stations (s : State) (n : Nat) (x : Stream) : (s.setStream n x).stations = s.stations := rfl
@[simp] theorem State.setStream_smc (s : State) (n : Nat) (x : Stream) : (s.setStream n x).smc = s.smc := rfl
@[simp] theorem State.setStream_kru (s : State) (n : Nat) (x : Stream) : (s.setStream n x).kru = s.kru := rfl
@[simp] theorem State.setStream_mfe (s : State) (n : Nat) (x : Stream) : (s.setStream n x).mfe = s.mfe := rfl
@[simp] theorem State.setStream_thm (s : State) (n : Nat) (x : Stream) : (s.setStream n x).thm = s.thm := rfl
@[simp] theorem State.setStream_get (s : State) (n : Nat) (x : Stream) (f : Fld) (k l : Nat) : (s.setStream n x).get f k l = s.get f k l := rfl
@[simp] theorem State.setStream_stream (s : State) (n : Nat) (x : Stream) : (s.setStream n x).stream n = x := SMap.get_put_self _ _ _ _
theorem State.setStream_stream_ne (s : State) (n : Nat) (x : Stream) (m : Nat) (h : m ≠ n) : (s.setStream n x).stream m = s.stream m :=
  SMap.get_put_ne _ _ _ _ h
@[simp] theorem State.set_stream (s : State) (f : Fld) (v i j n : Nat) : (s.set f v i j).stream n = s.stream n := rfl

/-! ### `State.setMent` -/

@[simp] theorem State.setMent_pending (s : State) (n : Nat) (x : MfeEnt) : (s.setMent n x).pending = s.pending := rfl
@[simp] theorem State.setMent_regs (s : State) (n : Nat) (x : MfeEnt) : (s.setMent n x).regs = s.regs := rfl
@[simp] theorem State.setMent_hold (s : State) (n : Nat) (x : MfeEnt) : (s.setMent n x).hold = s.hold := rfl
@[simp] theorem State.setMent_out (s : State) (n : Nat) (x : MfeEnt) : (s.setMent n x).out = s.out := rfl
@[simp] theorem State.setMent_fresh (s : State) (n : Nat) (x : MfeEnt) : (s.setMent n x).fresh = s.fresh := rfl
@[simp] theorem State.setMent_due (s : State) (n : Nat) (x : MfeEnt) : (s.setMent n x).due = s.due := rfl
@[simp] theorem State.setMent_hbm (s : State) (n : Nat) (x : MfeEnt) : (s.setMent n x).hbm = s.hbm := rfl
@[simp] theorem State.setMent_leaf (s : State) (n : Nat) (x : MfeEnt) : (s.setMent n x).leaf = s.leaf := rfl
@[simp] theorem State.setMent_mbox (s : State) (n : Nat) (x : MfeEnt) : (s.setMent n x).mbox = s.mbox := rfl
@[simp] theorem State.setMent_qmx (s : State) (n : Nat) (x : MfeEnt) : (s.setMent n x).qmx = s.qmx := rfl
@[simp] theorem State.setMent_store (s : State) (n : Nat) (x : MfeEnt) : (s.setMent n x).store = s.store := rfl
@[simp] theorem State.setMent_eng (s : State) (n : Nat) (x : MfeEnt) : (s.setMent n x).eng = s.eng := rfl
@[simp] theorem State.setMent_pace (s : State) (n : Nat) (x : MfeEnt) : (s.setMent n x).pace = s.pace := rfl
@[simp] theorem State.setMent_hlf (s : State) (n : Nat) (x : MfeEnt) : (s.setMent n x).hlf = s.hlf := rfl
@[simp] theorem State.setMent_ltu (s : State) (n : Nat) (x : MfeEnt) : (s.setMent n x).ltu = s.ltu := rfl
@[simp] theorem State.setMent_pcp (s : State) (n : Nat) (x : MfeEnt) : (s.setMent n x).pcp = s.pcp := rfl
@[simp] theorem State.setMent_ttc (s : State) (n : Nat) (x : MfeEnt) : (s.setMent n x).ttc = s.ttc := rfl
@[simp] theorem State.setMent_ilc (s : State) (n : Nat) (x : MfeEnt) : (s.setMent n x).ilc = s.ilc := rfl
@[simp] theorem State.setMent_scu (s : State) (n : Nat) (x : MfeEnt) : (s.setMent n x).scu = s.scu := rfl
@[simp] theorem State.setMent_seals (s : State) (n : Nat) (x : MfeEnt) : (s.setMent n x).seals = s.seals := rfl
@[simp] theorem State.setMent_stations (s : State) (n : Nat) (x : MfeEnt) : (s.setMent n x).stations = s.stations := rfl
@[simp] theorem State.setMent_smc (s : State) (n : Nat) (x : MfeEnt) : (s.setMent n x).smc = s.smc := rfl
@[simp] theorem State.setMent_kru (s : State) (n : Nat) (x : MfeEnt) : (s.setMent n x).kru = s.kru := rfl
@[simp] theorem State.setMent_hif (s : State) (n : Nat) (x : MfeEnt) : (s.setMent n x).hif = s.hif := rfl
@[simp] theorem State.setMent_thm (s : State) (n : Nat) (x : MfeEnt) : (s.setMent n x).thm = s.thm := rfl
@[simp] theorem State.setMent_get (s : State) (n : Nat) (x : MfeEnt) (f : Fld) (k l : Nat) : (s.setMent n x).get f k l = s.get f k l := rfl
@[simp] theorem State.setMent_ment (s : State) (n : Nat) (x : MfeEnt) : (s.setMent n x).ment n = x := SMap.get_put_self _ _ _ _
theorem State.setMent_ment_ne (s : State) (n : Nat) (x : MfeEnt) (m : Nat) (h : m ≠ n) : (s.setMent n x).ment m = s.ment m :=
  SMap.get_put_ne _ _ _ _ h
@[simp] theorem State.set_ment (s : State) (f : Fld) (v i j n : Nat) : (s.set f v i j).ment n = s.ment n := rfl

/-! ### `State.setLane` -/

@[simp] theorem State.setLane_pending (s : State) (n : Nat) (x : Lane) : (s.setLane n x).pending = s.pending := rfl
@[simp] theorem State.setLane_regs (s : State) (n : Nat) (x : Lane) : (s.setLane n x).regs = s.regs := rfl
@[simp] theorem State.setLane_hold (s : State) (n : Nat) (x : Lane) : (s.setLane n x).hold = s.hold := rfl
@[simp] theorem State.setLane_out (s : State) (n : Nat) (x : Lane) : (s.setLane n x).out = s.out := rfl
@[simp] theorem State.setLane_fresh (s : State) (n : Nat) (x : Lane) : (s.setLane n x).fresh = s.fresh := rfl
@[simp] theorem State.setLane_due (s : State) (n : Nat) (x : Lane) : (s.setLane n x).due = s.due := rfl
@[simp] theorem State.setLane_hbm (s : State) (n : Nat) (x : Lane) : (s.setLane n x).hbm = s.hbm := rfl
@[simp] theorem State.setLane_leaf (s : State) (n : Nat) (x : Lane) : (s.setLane n x).leaf = s.leaf := rfl
@[simp] theorem State.setLane_mbox (s : State) (n : Nat) (x : Lane) : (s.setLane n x).mbox = s.mbox := rfl
@[simp] theorem State.setLane_qmx (s : State) (n : Nat) (x : Lane) : (s.setLane n x).qmx = s.qmx := rfl
@[simp] theorem State.setLane_store (s : State) (n : Nat) (x : Lane) : (s.setLane n x).store = s.store := rfl
@[simp] theorem State.setLane_eng (s : State) (n : Nat) (x : Lane) : (s.setLane n x).eng = s.eng := rfl
@[simp] theorem State.setLane_pace (s : State) (n : Nat) (x : Lane) : (s.setLane n x).pace = s.pace := rfl
@[simp] theorem State.setLane_ltu (s : State) (n : Nat) (x : Lane) : (s.setLane n x).ltu = s.ltu := rfl
@[simp] theorem State.setLane_pcp (s : State) (n : Nat) (x : Lane) : (s.setLane n x).pcp = s.pcp := rfl
@[simp] theorem State.setLane_ttc (s : State) (n : Nat) (x : Lane) : (s.setLane n x).ttc = s.ttc := rfl
@[simp] theorem State.setLane_ilc (s : State) (n : Nat) (x : Lane) : (s.setLane n x).ilc = s.ilc := rfl
@[simp] theorem State.setLane_scu (s : State) (n : Nat) (x : Lane) : (s.setLane n x).scu = s.scu := rfl
@[simp] theorem State.setLane_seals (s : State) (n : Nat) (x : Lane) : (s.setLane n x).seals = s.seals := rfl
@[simp] theorem State.setLane_stations (s : State) (n : Nat) (x : Lane) : (s.setLane n x).stations = s.stations := rfl
@[simp] theorem State.setLane_smc (s : State) (n : Nat) (x : Lane) : (s.setLane n x).smc = s.smc := rfl
@[simp] theorem State.setLane_kru (s : State) (n : Nat) (x : Lane) : (s.setLane n x).kru = s.kru := rfl
@[simp] theorem State.setLane_hif (s : State) (n : Nat) (x : Lane) : (s.setLane n x).hif = s.hif := rfl
@[simp] theorem State.setLane_mfe (s : State) (n : Nat) (x : Lane) : (s.setLane n x).mfe = s.mfe := rfl
@[simp] theorem State.setLane_thm (s : State) (n : Nat) (x : Lane) : (s.setLane n x).thm = s.thm := rfl
@[simp] theorem State.setLane_get (s : State) (n : Nat) (x : Lane) (f : Fld) (k l : Nat) : (s.setLane n x).get f k l = s.get f k l := rfl
@[simp] theorem State.setLane_lane (s : State) (n : Nat) (x : Lane) : (s.setLane n x).lane n = x := SMap.get_put_self _ _ _ _
theorem State.setLane_lane_ne (s : State) (n : Nat) (x : Lane) (m : Nat) (h : m ≠ n) : (s.setLane n x).lane m = s.lane m :=
  SMap.get_put_ne _ _ _ _ h
@[simp] theorem State.set_lane (s : State) (f : Fld) (v i j n : Nat) : (s.set f v i j).lane n = s.lane n := rfl

/-! ### `State.setHead` -/

@[simp] theorem State.setHead_pending (s : State) (n : Nat) (x : Head) : (s.setHead n x).pending = s.pending := rfl
@[simp] theorem State.setHead_regs (s : State) (n : Nat) (x : Head) : (s.setHead n x).regs = s.regs := rfl
@[simp] theorem State.setHead_hold (s : State) (n : Nat) (x : Head) : (s.setHead n x).hold = s.hold := rfl
@[simp] theorem State.setHead_out (s : State) (n : Nat) (x : Head) : (s.setHead n x).out = s.out := rfl
@[simp] theorem State.setHead_fresh (s : State) (n : Nat) (x : Head) : (s.setHead n x).fresh = s.fresh := rfl
@[simp] theorem State.setHead_due (s : State) (n : Nat) (x : Head) : (s.setHead n x).due = s.due := rfl
@[simp] theorem State.setHead_hbm (s : State) (n : Nat) (x : Head) : (s.setHead n x).hbm = s.hbm := rfl
@[simp] theorem State.setHead_leaf (s : State) (n : Nat) (x : Head) : (s.setHead n x).leaf = s.leaf := rfl
@[simp] theorem State.setHead_mbox (s : State) (n : Nat) (x : Head) : (s.setHead n x).mbox = s.mbox := rfl
@[simp] theorem State.setHead_qmx (s : State) (n : Nat) (x : Head) : (s.setHead n x).qmx = s.qmx := rfl
@[simp] theorem State.setHead_store (s : State) (n : Nat) (x : Head) : (s.setHead n x).store = s.store := rfl
@[simp] theorem State.setHead_eng (s : State) (n : Nat) (x : Head) : (s.setHead n x).eng = s.eng := rfl
@[simp] theorem State.setHead_pace (s : State) (n : Nat) (x : Head) : (s.setHead n x).pace = s.pace := rfl
@[simp] theorem State.setHead_ltu (s : State) (n : Nat) (x : Head) : (s.setHead n x).ltu = s.ltu := rfl
@[simp] theorem State.setHead_pcp (s : State) (n : Nat) (x : Head) : (s.setHead n x).pcp = s.pcp := rfl
@[simp] theorem State.setHead_ttc (s : State) (n : Nat) (x : Head) : (s.setHead n x).ttc = s.ttc := rfl
@[simp] theorem State.setHead_ilc (s : State) (n : Nat) (x : Head) : (s.setHead n x).ilc = s.ilc := rfl
@[simp] theorem State.setHead_scu (s : State) (n : Nat) (x : Head) : (s.setHead n x).scu = s.scu := rfl
@[simp] theorem State.setHead_seals (s : State) (n : Nat) (x : Head) : (s.setHead n x).seals = s.seals := rfl
@[simp] theorem State.setHead_stations (s : State) (n : Nat) (x : Head) : (s.setHead n x).stations = s.stations := rfl
@[simp] theorem State.setHead_smc (s : State) (n : Nat) (x : Head) : (s.setHead n x).smc = s.smc := rfl
@[simp] theorem State.setHead_kru (s : State) (n : Nat) (x : Head) : (s.setHead n x).kru = s.kru := rfl
@[simp] theorem State.setHead_hif (s : State) (n : Nat) (x : Head) : (s.setHead n x).hif = s.hif := rfl
@[simp] theorem State.setHead_mfe (s : State) (n : Nat) (x : Head) : (s.setHead n x).mfe = s.mfe := rfl
@[simp] theorem State.setHead_thm (s : State) (n : Nat) (x : Head) : (s.setHead n x).thm = s.thm := rfl
@[simp] theorem State.setHead_get (s : State) (n : Nat) (x : Head) (f : Fld) (k l : Nat) : (s.setHead n x).get f k l = s.get f k l := rfl
@[simp] theorem State.setHead_head (s : State) (n : Nat) (x : Head) : (s.setHead n x).head n = x := SMap.get_put_self _ _ _ _
theorem State.setHead_head_ne (s : State) (n : Nat) (x : Head) (m : Nat) (h : m ≠ n) : (s.setHead n x).head m = s.head m :=
  SMap.get_put_ne _ _ _ _ h
@[simp] theorem State.set_head (s : State) (f : Fld) (v i j n : Nat) : (s.set f v i j).head n = s.head n := rfl

/-! ### `State.setEnc` -/

@[simp] theorem State.setEnc_pending (s : State) (n : Nat) (x : Enc) : (s.setEnc n x).pending = s.pending := rfl
@[simp] theorem State.setEnc_regs (s : State) (n : Nat) (x : Enc) : (s.setEnc n x).regs = s.regs := rfl
@[simp] theorem State.setEnc_hold (s : State) (n : Nat) (x : Enc) : (s.setEnc n x).hold = s.hold := rfl
@[simp] theorem State.setEnc_out (s : State) (n : Nat) (x : Enc) : (s.setEnc n x).out = s.out := rfl
@[simp] theorem State.setEnc_fresh (s : State) (n : Nat) (x : Enc) : (s.setEnc n x).fresh = s.fresh := rfl
@[simp] theorem State.setEnc_due (s : State) (n : Nat) (x : Enc) : (s.setEnc n x).due = s.due := rfl
@[simp] theorem State.setEnc_hbm (s : State) (n : Nat) (x : Enc) : (s.setEnc n x).hbm = s.hbm := rfl
@[simp] theorem State.setEnc_leaf (s : State) (n : Nat) (x : Enc) : (s.setEnc n x).leaf = s.leaf := rfl
@[simp] theorem State.setEnc_mbox (s : State) (n : Nat) (x : Enc) : (s.setEnc n x).mbox = s.mbox := rfl
@[simp] theorem State.setEnc_qmx (s : State) (n : Nat) (x : Enc) : (s.setEnc n x).qmx = s.qmx := rfl
@[simp] theorem State.setEnc_store (s : State) (n : Nat) (x : Enc) : (s.setEnc n x).store = s.store := rfl
@[simp] theorem State.setEnc_eng (s : State) (n : Nat) (x : Enc) : (s.setEnc n x).eng = s.eng := rfl
@[simp] theorem State.setEnc_pace (s : State) (n : Nat) (x : Enc) : (s.setEnc n x).pace = s.pace := rfl
@[simp] theorem State.setEnc_hlf (s : State) (n : Nat) (x : Enc) : (s.setEnc n x).hlf = s.hlf := rfl
@[simp] theorem State.setEnc_pcp (s : State) (n : Nat) (x : Enc) : (s.setEnc n x).pcp = s.pcp := rfl
@[simp] theorem State.setEnc_ttc (s : State) (n : Nat) (x : Enc) : (s.setEnc n x).ttc = s.ttc := rfl
@[simp] theorem State.setEnc_ilc (s : State) (n : Nat) (x : Enc) : (s.setEnc n x).ilc = s.ilc := rfl
@[simp] theorem State.setEnc_scu (s : State) (n : Nat) (x : Enc) : (s.setEnc n x).scu = s.scu := rfl
@[simp] theorem State.setEnc_seals (s : State) (n : Nat) (x : Enc) : (s.setEnc n x).seals = s.seals := rfl
@[simp] theorem State.setEnc_stations (s : State) (n : Nat) (x : Enc) : (s.setEnc n x).stations = s.stations := rfl
@[simp] theorem State.setEnc_smc (s : State) (n : Nat) (x : Enc) : (s.setEnc n x).smc = s.smc := rfl
@[simp] theorem State.setEnc_kru (s : State) (n : Nat) (x : Enc) : (s.setEnc n x).kru = s.kru := rfl
@[simp] theorem State.setEnc_hif (s : State) (n : Nat) (x : Enc) : (s.setEnc n x).hif = s.hif := rfl
@[simp] theorem State.setEnc_mfe (s : State) (n : Nat) (x : Enc) : (s.setEnc n x).mfe = s.mfe := rfl
@[simp] theorem State.setEnc_thm (s : State) (n : Nat) (x : Enc) : (s.setEnc n x).thm = s.thm := rfl
@[simp] theorem State.setEnc_get (s : State) (n : Nat) (x : Enc) (f : Fld) (k l : Nat) : (s.setEnc n x).get f k l = s.get f k l := rfl
@[simp] theorem State.setEnc_enc (s : State) (n : Nat) (x : Enc) : (s.setEnc n x).enc n = x := SMap.get_put_self _ _ _ _
theorem State.setEnc_enc_ne (s : State) (n : Nat) (x : Enc) (m : Nat) (h : m ≠ n) : (s.setEnc n x).enc m = s.enc m :=
  SMap.get_put_ne _ _ _ _ h
@[simp] theorem State.set_enc (s : State) (f : Fld) (v i j n : Nat) : (s.set f v i j).enc n = s.enc n := rfl

/-! ### `State.setLst` -/

@[simp] theorem State.setLst_pending (s : State) (n : Nat) (x : LSt) : (s.setLst n x).pending = s.pending := rfl
@[simp] theorem State.setLst_regs (s : State) (n : Nat) (x : LSt) : (s.setLst n x).regs = s.regs := rfl
@[simp] theorem State.setLst_hold (s : State) (n : Nat) (x : LSt) : (s.setLst n x).hold = s.hold := rfl
@[simp] theorem State.setLst_out (s : State) (n : Nat) (x : LSt) : (s.setLst n x).out = s.out := rfl
@[simp] theorem State.setLst_fresh (s : State) (n : Nat) (x : LSt) : (s.setLst n x).fresh = s.fresh := rfl
@[simp] theorem State.setLst_due (s : State) (n : Nat) (x : LSt) : (s.setLst n x).due = s.due := rfl
@[simp] theorem State.setLst_hbm (s : State) (n : Nat) (x : LSt) : (s.setLst n x).hbm = s.hbm := rfl
@[simp] theorem State.setLst_leaf (s : State) (n : Nat) (x : LSt) : (s.setLst n x).leaf = s.leaf := rfl
@[simp] theorem State.setLst_mbox (s : State) (n : Nat) (x : LSt) : (s.setLst n x).mbox = s.mbox := rfl
@[simp] theorem State.setLst_qmx (s : State) (n : Nat) (x : LSt) : (s.setLst n x).qmx = s.qmx := rfl
@[simp] theorem State.setLst_store (s : State) (n : Nat) (x : LSt) : (s.setLst n x).store = s.store := rfl
@[simp] theorem State.setLst_eng (s : State) (n : Nat) (x : LSt) : (s.setLst n x).eng = s.eng := rfl
@[simp] theorem State.setLst_pace (s : State) (n : Nat) (x : LSt) : (s.setLst n x).pace = s.pace := rfl
@[simp] theorem State.setLst_hlf (s : State) (n : Nat) (x : LSt) : (s.setLst n x).hlf = s.hlf := rfl
@[simp] theorem State.setLst_pcp (s : State) (n : Nat) (x : LSt) : (s.setLst n x).pcp = s.pcp := rfl
@[simp] theorem State.setLst_ttc (s : State) (n : Nat) (x : LSt) : (s.setLst n x).ttc = s.ttc := rfl
@[simp] theorem State.setLst_ilc (s : State) (n : Nat) (x : LSt) : (s.setLst n x).ilc = s.ilc := rfl
@[simp] theorem State.setLst_scu (s : State) (n : Nat) (x : LSt) : (s.setLst n x).scu = s.scu := rfl
@[simp] theorem State.setLst_seals (s : State) (n : Nat) (x : LSt) : (s.setLst n x).seals = s.seals := rfl
@[simp] theorem State.setLst_stations (s : State) (n : Nat) (x : LSt) : (s.setLst n x).stations = s.stations := rfl
@[simp] theorem State.setLst_smc (s : State) (n : Nat) (x : LSt) : (s.setLst n x).smc = s.smc := rfl
@[simp] theorem State.setLst_kru (s : State) (n : Nat) (x : LSt) : (s.setLst n x).kru = s.kru := rfl
@[simp] theorem State.setLst_hif (s : State) (n : Nat) (x : LSt) : (s.setLst n x).hif = s.hif := rfl
@[simp] theorem State.setLst_mfe (s : State) (n : Nat) (x : LSt) : (s.setLst n x).mfe = s.mfe := rfl
@[simp] theorem State.setLst_thm (s : State) (n : Nat) (x : LSt) : (s.setLst n x).thm = s.thm := rfl
@[simp] theorem State.setLst_get (s : State) (n : Nat) (x : LSt) (f : Fld) (k l : Nat) : (s.setLst n x).get f k l = s.get f k l := rfl
@[simp] theorem State.setLst_lst (s : State) (n : Nat) (x : LSt) : (s.setLst n x).lst n = x := SMap.get_put_self _ _ _ _
theorem State.setLst_lst_ne (s : State) (n : Nat) (x : LSt) (m : Nat) (h : m ≠ n) : (s.setLst n x).lst m = s.lst m :=
  SMap.get_put_ne _ _ _ _ h
@[simp] theorem State.set_lst (s : State) (f : Fld) (v i j n : Nat) : (s.set f v i j).lst n = s.lst n := rfl

/-! ### `State.setPhead` -/

@[simp] theorem State.setPhead_pending (s : State) (n : Nat) (x : PHead) : (s.setPhead n x).pending = s.pending := rfl
@[simp] theorem State.setPhead_regs (s : State) (n : Nat) (x : PHead) : (s.setPhead n x).regs = s.regs := rfl
@[simp] theorem State.setPhead_hold (s : State) (n : Nat) (x : PHead) : (s.setPhead n x).hold = s.hold := rfl
@[simp] theorem State.setPhead_out (s : State) (n : Nat) (x : PHead) : (s.setPhead n x).out = s.out := rfl
@[simp] theorem State.setPhead_fresh (s : State) (n : Nat) (x : PHead) : (s.setPhead n x).fresh = s.fresh := rfl
@[simp] theorem State.setPhead_due (s : State) (n : Nat) (x : PHead) : (s.setPhead n x).due = s.due := rfl
@[simp] theorem State.setPhead_hbm (s : State) (n : Nat) (x : PHead) : (s.setPhead n x).hbm = s.hbm := rfl
@[simp] theorem State.setPhead_leaf (s : State) (n : Nat) (x : PHead) : (s.setPhead n x).leaf = s.leaf := rfl
@[simp] theorem State.setPhead_mbox (s : State) (n : Nat) (x : PHead) : (s.setPhead n x).mbox = s.mbox := rfl
@[simp] theorem State.setPhead_qmx (s : State) (n : Nat) (x : PHead) : (s.setPhead n x).qmx = s.qmx := rfl
@[simp] theorem State.setPhead_store (s : State) (n : Nat) (x : PHead) : (s.setPhead n x).store = s.store := rfl
@[simp] theorem State.setPhead_eng (s : State) (n : Nat) (x : PHead) : (s.setPhead n x).eng = s.eng := rfl
@[simp] theorem State.setPhead_pace (s : State) (n : Nat) (x : PHead) : (s.setPhead n x).pace = s.pace := rfl
@[simp] theorem State.setPhead_hlf (s : State) (n : Nat) (x : PHead) : (s.setPhead n x).hlf = s.hlf := rfl
@[simp] theorem State.setPhead_ltu (s : State) (n : Nat) (x : PHead) : (s.setPhead n x).ltu = s.ltu := rfl
@[simp] theorem State.setPhead_ttc (s : State) (n : Nat) (x : PHead) : (s.setPhead n x).ttc = s.ttc := rfl
@[simp] theorem State.setPhead_ilc (s : State) (n : Nat) (x : PHead) : (s.setPhead n x).ilc = s.ilc := rfl
@[simp] theorem State.setPhead_scu (s : State) (n : Nat) (x : PHead) : (s.setPhead n x).scu = s.scu := rfl
@[simp] theorem State.setPhead_seals (s : State) (n : Nat) (x : PHead) : (s.setPhead n x).seals = s.seals := rfl
@[simp] theorem State.setPhead_stations (s : State) (n : Nat) (x : PHead) : (s.setPhead n x).stations = s.stations := rfl
@[simp] theorem State.setPhead_smc (s : State) (n : Nat) (x : PHead) : (s.setPhead n x).smc = s.smc := rfl
@[simp] theorem State.setPhead_kru (s : State) (n : Nat) (x : PHead) : (s.setPhead n x).kru = s.kru := rfl
@[simp] theorem State.setPhead_hif (s : State) (n : Nat) (x : PHead) : (s.setPhead n x).hif = s.hif := rfl
@[simp] theorem State.setPhead_mfe (s : State) (n : Nat) (x : PHead) : (s.setPhead n x).mfe = s.mfe := rfl
@[simp] theorem State.setPhead_thm (s : State) (n : Nat) (x : PHead) : (s.setPhead n x).thm = s.thm := rfl
@[simp] theorem State.setPhead_get (s : State) (n : Nat) (x : PHead) (f : Fld) (k l : Nat) : (s.setPhead n x).get f k l = s.get f k l := rfl
@[simp] theorem State.setPhead_phead (s : State) (n : Nat) (x : PHead) : (s.setPhead n x).phead n = x := SMap.get_put_self _ _ _ _
theorem State.setPhead_phead_ne (s : State) (n : Nat) (x : PHead) (m : Nat) (h : m ≠ n) : (s.setPhead n x).phead m = s.phead m :=
  SMap.get_put_ne _ _ _ _ h
@[simp] theorem State.set_phead (s : State) (f : Fld) (v i j n : Nat) : (s.set f v i j).phead n = s.phead n := rfl

/-! ### `State.setPst` -/

@[simp] theorem State.setPst_pending (s : State) (n : Nat) (x : PSt) : (s.setPst n x).pending = s.pending := rfl
@[simp] theorem State.setPst_regs (s : State) (n : Nat) (x : PSt) : (s.setPst n x).regs = s.regs := rfl
@[simp] theorem State.setPst_hold (s : State) (n : Nat) (x : PSt) : (s.setPst n x).hold = s.hold := rfl
@[simp] theorem State.setPst_out (s : State) (n : Nat) (x : PSt) : (s.setPst n x).out = s.out := rfl
@[simp] theorem State.setPst_fresh (s : State) (n : Nat) (x : PSt) : (s.setPst n x).fresh = s.fresh := rfl
@[simp] theorem State.setPst_due (s : State) (n : Nat) (x : PSt) : (s.setPst n x).due = s.due := rfl
@[simp] theorem State.setPst_hbm (s : State) (n : Nat) (x : PSt) : (s.setPst n x).hbm = s.hbm := rfl
@[simp] theorem State.setPst_leaf (s : State) (n : Nat) (x : PSt) : (s.setPst n x).leaf = s.leaf := rfl
@[simp] theorem State.setPst_mbox (s : State) (n : Nat) (x : PSt) : (s.setPst n x).mbox = s.mbox := rfl
@[simp] theorem State.setPst_qmx (s : State) (n : Nat) (x : PSt) : (s.setPst n x).qmx = s.qmx := rfl
@[simp] theorem State.setPst_store (s : State) (n : Nat) (x : PSt) : (s.setPst n x).store = s.store := rfl
@[simp] theorem State.setPst_eng (s : State) (n : Nat) (x : PSt) : (s.setPst n x).eng = s.eng := rfl
@[simp] theorem State.setPst_pace (s : State) (n : Nat) (x : PSt) : (s.setPst n x).pace = s.pace := rfl
@[simp] theorem State.setPst_hlf (s : State) (n : Nat) (x : PSt) : (s.setPst n x).hlf = s.hlf := rfl
@[simp] theorem State.setPst_ltu (s : State) (n : Nat) (x : PSt) : (s.setPst n x).ltu = s.ltu := rfl
@[simp] theorem State.setPst_ttc (s : State) (n : Nat) (x : PSt) : (s.setPst n x).ttc = s.ttc := rfl
@[simp] theorem State.setPst_ilc (s : State) (n : Nat) (x : PSt) : (s.setPst n x).ilc = s.ilc := rfl
@[simp] theorem State.setPst_scu (s : State) (n : Nat) (x : PSt) : (s.setPst n x).scu = s.scu := rfl
@[simp] theorem State.setPst_seals (s : State) (n : Nat) (x : PSt) : (s.setPst n x).seals = s.seals := rfl
@[simp] theorem State.setPst_stations (s : State) (n : Nat) (x : PSt) : (s.setPst n x).stations = s.stations := rfl
@[simp] theorem State.setPst_smc (s : State) (n : Nat) (x : PSt) : (s.setPst n x).smc = s.smc := rfl
@[simp] theorem State.setPst_kru (s : State) (n : Nat) (x : PSt) : (s.setPst n x).kru = s.kru := rfl
@[simp] theorem State.setPst_hif (s : State) (n : Nat) (x : PSt) : (s.setPst n x).hif = s.hif := rfl
@[simp] theorem State.setPst_mfe (s : State) (n : Nat) (x : PSt) : (s.setPst n x).mfe = s.mfe := rfl
@[simp] theorem State.setPst_thm (s : State) (n : Nat) (x : PSt) : (s.setPst n x).thm = s.thm := rfl
@[simp] theorem State.setPst_get (s : State) (n : Nat) (x : PSt) (f : Fld) (k l : Nat) : (s.setPst n x).get f k l = s.get f k l := rfl
@[simp] theorem State.setPst_pst (s : State) (n : Nat) (x : PSt) : (s.setPst n x).pst n = x := SMap.get_put_self _ _ _ _
theorem State.setPst_pst_ne (s : State) (n : Nat) (x : PSt) (m : Nat) (h : m ≠ n) : (s.setPst n x).pst m = s.pst m :=
  SMap.get_put_ne _ _ _ _ h
@[simp] theorem State.set_pst (s : State) (f : Fld) (v i j n : Nat) : (s.set f v i j).pst n = s.pst n := rfl

/-! ### `State.setProd` -/

@[simp] theorem State.setProd_pending (s : State) (n : Nat) (x : Prod) : (s.setProd n x).pending = s.pending := rfl
@[simp] theorem State.setProd_regs (s : State) (n : Nat) (x : Prod) : (s.setProd n x).regs = s.regs := rfl
@[simp] theorem State.setProd_hold (s : State) (n : Nat) (x : Prod) : (s.setProd n x).hold = s.hold := rfl
@[simp] theorem State.setProd_out (s : State) (n : Nat) (x : Prod) : (s.setProd n x).out = s.out := rfl
@[simp] theorem State.setProd_fresh (s : State) (n : Nat) (x : Prod) : (s.setProd n x).fresh = s.fresh := rfl
@[simp] theorem State.setProd_due (s : State) (n : Nat) (x : Prod) : (s.setProd n x).due = s.due := rfl
@[simp] theorem State.setProd_hbm (s : State) (n : Nat) (x : Prod) : (s.setProd n x).hbm = s.hbm := rfl
@[simp] theorem State.setProd_leaf (s : State) (n : Nat) (x : Prod) : (s.setProd n x).leaf = s.leaf := rfl
@[simp] theorem State.setProd_mbox (s : State) (n : Nat) (x : Prod) : (s.setProd n x).mbox = s.mbox := rfl
@[simp] theorem State.setProd_qmx (s : State) (n : Nat) (x : Prod) : (s.setProd n x).qmx = s.qmx := rfl
@[simp] theorem State.setProd_store (s : State) (n : Nat) (x : Prod) : (s.setProd n x).store = s.store := rfl
@[simp] theorem State.setProd_eng (s : State) (n : Nat) (x : Prod) : (s.setProd n x).eng = s.eng := rfl
@[simp] theorem State.setProd_pace (s : State) (n : Nat) (x : Prod) : (s.setProd n x).pace = s.pace := rfl
@[simp] theorem State.setProd_hlf (s : State) (n : Nat) (x : Prod) : (s.setProd n x).hlf = s.hlf := rfl
@[simp] theorem State.setProd_ltu (s : State) (n : Nat) (x : Prod) : (s.setProd n x).ltu = s.ltu := rfl
@[simp] theorem State.setProd_ttc (s : State) (n : Nat) (x : Prod) : (s.setProd n x).ttc = s.ttc := rfl
@[simp] theorem State.setProd_ilc (s : State) (n : Nat) (x : Prod) : (s.setProd n x).ilc = s.ilc := rfl
@[simp] theorem State.setProd_scu (s : State) (n : Nat) (x : Prod) : (s.setProd n x).scu = s.scu := rfl
@[simp] theorem State.setProd_seals (s : State) (n : Nat) (x : Prod) : (s.setProd n x).seals = s.seals := rfl
@[simp] theorem State.setProd_stations (s : State) (n : Nat) (x : Prod) : (s.setProd n x).stations = s.stations := rfl
@[simp] theorem State.setProd_smc (s : State) (n : Nat) (x : Prod) : (s.setProd n x).smc = s.smc := rfl
@[simp] theorem State.setProd_kru (s : State) (n : Nat) (x : Prod) : (s.setProd n x).kru = s.kru := rfl
@[simp] theorem State.setProd_hif (s : State) (n : Nat) (x : Prod) : (s.setProd n x).hif = s.hif := rfl
@[simp] theorem State.setProd_mfe (s : State) (n : Nat) (x : Prod) : (s.setProd n x).mfe = s.mfe := rfl
@[simp] theorem State.setProd_thm (s : State) (n : Nat) (x : Prod) : (s.setProd n x).thm = s.thm := rfl
@[simp] theorem State.setProd_get (s : State) (n : Nat) (x : Prod) (f : Fld) (k l : Nat) : (s.setProd n x).get f k l = s.get f k l := rfl
@[simp] theorem State.setProd_prod (s : State) (n : Nat) (x : Prod) : (s.setProd n x).prod n = x := SMap.get_put_self _ _ _ _
theorem State.setProd_prod_ne (s : State) (n : Nat) (x : Prod) (m : Nat) (h : m ≠ n) : (s.setProd n x).prod m = s.prod m :=
  SMap.get_put_ne _ _ _ _ h
@[simp] theorem State.set_prod (s : State) (f : Fld) (v i j n : Nat) : (s.set f v i j).prod n = s.prod n := rfl

/-! ### `State.setGrp` -/

@[simp] theorem State.setGrp_pending (s : State) (n : Nat) (x : Grp) : (s.setGrp n x).pending = s.pending := rfl
@[simp] theorem State.setGrp_regs (s : State) (n : Nat) (x : Grp) : (s.setGrp n x).regs = s.regs := rfl
@[simp] theorem State.setGrp_hold (s : State) (n : Nat) (x : Grp) : (s.setGrp n x).hold = s.hold := rfl
@[simp] theorem State.setGrp_out (s : State) (n : Nat) (x : Grp) : (s.setGrp n x).out = s.out := rfl
@[simp] theorem State.setGrp_fresh (s : State) (n : Nat) (x : Grp) : (s.setGrp n x).fresh = s.fresh := rfl
@[simp] theorem State.setGrp_due (s : State) (n : Nat) (x : Grp) : (s.setGrp n x).due = s.due := rfl
@[simp] theorem State.setGrp_hbm (s : State) (n : Nat) (x : Grp) : (s.setGrp n x).hbm = s.hbm := rfl
@[simp] theorem State.setGrp_leaf (s : State) (n : Nat) (x : Grp) : (s.setGrp n x).leaf = s.leaf := rfl
@[simp] theorem State.setGrp_mbox (s : State) (n : Nat) (x : Grp) : (s.setGrp n x).mbox = s.mbox := rfl
@[simp] theorem State.setGrp_qmx (s : State) (n : Nat) (x : Grp) : (s.setGrp n x).qmx = s.qmx := rfl
@[simp] theorem State.setGrp_store (s : State) (n : Nat) (x : Grp) : (s.setGrp n x).store = s.store := rfl
@[simp] theorem State.setGrp_eng (s : State) (n : Nat) (x : Grp) : (s.setGrp n x).eng = s.eng := rfl
@[simp] theorem State.setGrp_pace (s : State) (n : Nat) (x : Grp) : (s.setGrp n x).pace = s.pace := rfl
@[simp] theorem State.setGrp_hlf (s : State) (n : Nat) (x : Grp) : (s.setGrp n x).hlf = s.hlf := rfl
@[simp] theorem State.setGrp_ltu (s : State) (n : Nat) (x : Grp) : (s.setGrp n x).ltu = s.ltu := rfl
@[simp] theorem State.setGrp_pcp (s : State) (n : Nat) (x : Grp) : (s.setGrp n x).pcp = s.pcp := rfl
@[simp] theorem State.setGrp_ttc (s : State) (n : Nat) (x : Grp) : (s.setGrp n x).ttc = s.ttc := rfl
@[simp] theorem State.setGrp_scu (s : State) (n : Nat) (x : Grp) : (s.setGrp n x).scu = s.scu := rfl
@[simp] theorem State.setGrp_seals (s : State) (n : Nat) (x : Grp) : (s.setGrp n x).seals = s.seals := rfl
@[simp] theorem State.setGrp_stations (s : State) (n : Nat) (x : Grp) : (s.setGrp n x).stations = s.stations := rfl
@[simp] theorem State.setGrp_smc (s : State) (n : Nat) (x : Grp) : (s.setGrp n x).smc = s.smc := rfl
@[simp] theorem State.setGrp_kru (s : State) (n : Nat) (x : Grp) : (s.setGrp n x).kru = s.kru := rfl
@[simp] theorem State.setGrp_hif (s : State) (n : Nat) (x : Grp) : (s.setGrp n x).hif = s.hif := rfl
@[simp] theorem State.setGrp_mfe (s : State) (n : Nat) (x : Grp) : (s.setGrp n x).mfe = s.mfe := rfl
@[simp] theorem State.setGrp_thm (s : State) (n : Nat) (x : Grp) : (s.setGrp n x).thm = s.thm := rfl
@[simp] theorem State.setGrp_get (s : State) (n : Nat) (x : Grp) (f : Fld) (k l : Nat) : (s.setGrp n x).get f k l = s.get f k l := rfl
@[simp] theorem State.setGrp_grp (s : State) (n : Nat) (x : Grp) : (s.setGrp n x).grp n = x := SMap.get_put_self _ _ _ _
theorem State.setGrp_grp_ne (s : State) (n : Nat) (x : Grp) (m : Nat) (h : m ≠ n) : (s.setGrp n x).grp m = s.grp m :=
  SMap.get_put_ne _ _ _ _ h
@[simp] theorem State.set_grp (s : State) (f : Fld) (v i j n : Nat) : (s.set f v i j).grp n = s.grp n := rfl

/-! ### `State.setChan` -/

@[simp] theorem State.setChan_pending (s : State) (n : Nat) (x : Chan) : (s.setChan n x).pending = s.pending := rfl
@[simp] theorem State.setChan_regs (s : State) (n : Nat) (x : Chan) : (s.setChan n x).regs = s.regs := rfl
@[simp] theorem State.setChan_hold (s : State) (n : Nat) (x : Chan) : (s.setChan n x).hold = s.hold := rfl
@[simp] theorem State.setChan_out (s : State) (n : Nat) (x : Chan) : (s.setChan n x).out = s.out := rfl
@[simp] theorem State.setChan_fresh (s : State) (n : Nat) (x : Chan) : (s.setChan n x).fresh = s.fresh := rfl
@[simp] theorem State.setChan_due (s : State) (n : Nat) (x : Chan) : (s.setChan n x).due = s.due := rfl
@[simp] theorem State.setChan_hbm (s : State) (n : Nat) (x : Chan) : (s.setChan n x).hbm = s.hbm := rfl
@[simp] theorem State.setChan_leaf (s : State) (n : Nat) (x : Chan) : (s.setChan n x).leaf = s.leaf := rfl
@[simp] theorem State.setChan_mbox (s : State) (n : Nat) (x : Chan) : (s.setChan n x).mbox = s.mbox := rfl
@[simp] theorem State.setChan_qmx (s : State) (n : Nat) (x : Chan) : (s.setChan n x).qmx = s.qmx := rfl
@[simp] theorem State.setChan_store (s : State) (n : Nat) (x : Chan) : (s.setChan n x).store = s.store := rfl
@[simp] theorem State.setChan_eng (s : State) (n : Nat) (x : Chan) : (s.setChan n x).eng = s.eng := rfl
@[simp] theorem State.setChan_pace (s : State) (n : Nat) (x : Chan) : (s.setChan n x).pace = s.pace := rfl
@[simp] theorem State.setChan_hlf (s : State) (n : Nat) (x : Chan) : (s.setChan n x).hlf = s.hlf := rfl
@[simp] theorem State.setChan_ltu (s : State) (n : Nat) (x : Chan) : (s.setChan n x).ltu = s.ltu := rfl
@[simp] theorem State.setChan_pcp (s : State) (n : Nat) (x : Chan) : (s.setChan n x).pcp = s.pcp := rfl
@[simp] theorem State.setChan_ttc (s : State) (n : Nat) (x : Chan) : (s.setChan n x).ttc = s.ttc := rfl
@[simp] theorem State.setChan_scu (s : State) (n : Nat) (x : Chan) : (s.setChan n x).scu = s.scu := rfl
@[simp] theorem State.setChan_seals (s : State) (n : Nat) (x : Chan) : (s.setChan n x).seals = s.seals := rfl
@[simp] theorem State.setChan_stations (s : State) (n : Nat) (x : Chan) : (s.setChan n x).stations = s.stations := rfl
@[simp] theorem State.setChan_smc (s : State) (n : Nat) (x : Chan) : (s.setChan n x).smc = s.smc := rfl
@[simp] theorem State.setChan_kru (s : State) (n : Nat) (x : Chan) : (s.setChan n x).kru = s.kru := rfl
@[simp] theorem State.setChan_hif (s : State) (n : Nat) (x : Chan) : (s.setChan n x).hif = s.hif := rfl
@[simp] theorem State.setChan_mfe (s : State) (n : Nat) (x : Chan) : (s.setChan n x).mfe = s.mfe := rfl
@[simp] theorem State.setChan_thm (s : State) (n : Nat) (x : Chan) : (s.setChan n x).thm = s.thm := rfl
@[simp] theorem State.setChan_get (s : State) (n : Nat) (x : Chan) (f : Fld) (k l : Nat) : (s.setChan n x).get f k l = s.get f k l := rfl
@[simp] theorem State.setChan_chan (s : State) (n : Nat) (x : Chan) : (s.setChan n x).chan n = x := SMap.get_put_self _ _ _ _
theorem State.setChan_chan_ne (s : State) (n : Nat) (x : Chan) (m : Nat) (h : m ≠ n) : (s.setChan n x).chan m = s.chan m :=
  SMap.get_put_ne _ _ _ _ h
@[simp] theorem State.set_chan (s : State) (f : Fld) (v i j n : Nat) : (s.set f v i j).chan n = s.chan n := rfl

/-! ### `State.setKlane` -/

@[simp] theorem State.setKlane_pending (s : State) (n : Nat) (x : KLane) : (s.setKlane n x).pending = s.pending := rfl
@[simp] theorem State.setKlane_regs (s : State) (n : Nat) (x : KLane) : (s.setKlane n x).regs = s.regs := rfl
@[simp] theorem State.setKlane_hold (s : State) (n : Nat) (x : KLane) : (s.setKlane n x).hold = s.hold := rfl
@[simp] theorem State.setKlane_out (s : State) (n : Nat) (x : KLane) : (s.setKlane n x).out = s.out := rfl
@[simp] theorem State.setKlane_fresh (s : State) (n : Nat) (x : KLane) : (s.setKlane n x).fresh = s.fresh := rfl
@[simp] theorem State.setKlane_due (s : State) (n : Nat) (x : KLane) : (s.setKlane n x).due = s.due := rfl
@[simp] theorem State.setKlane_hbm (s : State) (n : Nat) (x : KLane) : (s.setKlane n x).hbm = s.hbm := rfl
@[simp] theorem State.setKlane_leaf (s : State) (n : Nat) (x : KLane) : (s.setKlane n x).leaf = s.leaf := rfl
@[simp] theorem State.setKlane_mbox (s : State) (n : Nat) (x : KLane) : (s.setKlane n x).mbox = s.mbox := rfl
@[simp] theorem State.setKlane_qmx (s : State) (n : Nat) (x : KLane) : (s.setKlane n x).qmx = s.qmx := rfl
@[simp] theorem State.setKlane_store (s : State) (n : Nat) (x : KLane) : (s.setKlane n x).store = s.store := rfl
@[simp] theorem State.setKlane_eng (s : State) (n : Nat) (x : KLane) : (s.setKlane n x).eng = s.eng := rfl
@[simp] theorem State.setKlane_pace (s : State) (n : Nat) (x : KLane) : (s.setKlane n x).pace = s.pace := rfl
@[simp] theorem State.setKlane_hlf (s : State) (n : Nat) (x : KLane) : (s.setKlane n x).hlf = s.hlf := rfl
@[simp] theorem State.setKlane_ltu (s : State) (n : Nat) (x : KLane) : (s.setKlane n x).ltu = s.ltu := rfl
@[simp] theorem State.setKlane_pcp (s : State) (n : Nat) (x : KLane) : (s.setKlane n x).pcp = s.pcp := rfl
@[simp] theorem State.setKlane_ttc (s : State) (n : Nat) (x : KLane) : (s.setKlane n x).ttc = s.ttc := rfl
@[simp] theorem State.setKlane_ilc (s : State) (n : Nat) (x : KLane) : (s.setKlane n x).ilc = s.ilc := rfl
@[simp] theorem State.setKlane_scu (s : State) (n : Nat) (x : KLane) : (s.setKlane n x).scu = s.scu := rfl
@[simp] theorem State.setKlane_seals (s : State) (n : Nat) (x : KLane) : (s.setKlane n x).seals = s.seals := rfl
@[simp] theorem State.setKlane_stations (s : State) (n : Nat) (x : KLane) : (s.setKlane n x).stations = s.stations := rfl
@[simp] theorem State.setKlane_smc (s : State) (n : Nat) (x : KLane) : (s.setKlane n x).smc = s.smc := rfl
@[simp] theorem State.setKlane_hif (s : State) (n : Nat) (x : KLane) : (s.setKlane n x).hif = s.hif := rfl
@[simp] theorem State.setKlane_mfe (s : State) (n : Nat) (x : KLane) : (s.setKlane n x).mfe = s.mfe := rfl
@[simp] theorem State.setKlane_thm (s : State) (n : Nat) (x : KLane) : (s.setKlane n x).thm = s.thm := rfl
@[simp] theorem State.setKlane_get (s : State) (n : Nat) (x : KLane) (f : Fld) (k l : Nat) : (s.setKlane n x).get f k l = s.get f k l := rfl
@[simp] theorem State.setKlane_klane (s : State) (n : Nat) (x : KLane) : (s.setKlane n x).klane n = x := SMap.get_put_self _ _ _ _
theorem State.setKlane_klane_ne (s : State) (n : Nat) (x : KLane) (m : Nat) (h : m ≠ n) : (s.setKlane n x).klane m = s.klane m :=
  SMap.get_put_ne _ _ _ _ h
@[simp] theorem State.set_klane (s : State) (f : Fld) (v i j n : Nat) : (s.set f v i j).klane n = s.klane n := rfl

/-! ### `State.setKst` -/

@[simp] theorem State.setKst_pending (s : State) (n : Nat) (x : KSt) : (s.setKst n x).pending = s.pending := rfl
@[simp] theorem State.setKst_regs (s : State) (n : Nat) (x : KSt) : (s.setKst n x).regs = s.regs := rfl
@[simp] theorem State.setKst_hold (s : State) (n : Nat) (x : KSt) : (s.setKst n x).hold = s.hold := rfl
@[simp] theorem State.setKst_out (s : State) (n : Nat) (x : KSt) : (s.setKst n x).out = s.out := rfl
@[simp] theorem State.setKst_fresh (s : State) (n : Nat) (x : KSt) : (s.setKst n x).fresh = s.fresh := rfl
@[simp] theorem State.setKst_due (s : State) (n : Nat) (x : KSt) : (s.setKst n x).due = s.due := rfl
@[simp] theorem State.setKst_hbm (s : State) (n : Nat) (x : KSt) : (s.setKst n x).hbm = s.hbm := rfl
@[simp] theorem State.setKst_leaf (s : State) (n : Nat) (x : KSt) : (s.setKst n x).leaf = s.leaf := rfl
@[simp] theorem State.setKst_mbox (s : State) (n : Nat) (x : KSt) : (s.setKst n x).mbox = s.mbox := rfl
@[simp] theorem State.setKst_qmx (s : State) (n : Nat) (x : KSt) : (s.setKst n x).qmx = s.qmx := rfl
@[simp] theorem State.setKst_store (s : State) (n : Nat) (x : KSt) : (s.setKst n x).store = s.store := rfl
@[simp] theorem State.setKst_eng (s : State) (n : Nat) (x : KSt) : (s.setKst n x).eng = s.eng := rfl
@[simp] theorem State.setKst_pace (s : State) (n : Nat) (x : KSt) : (s.setKst n x).pace = s.pace := rfl
@[simp] theorem State.setKst_hlf (s : State) (n : Nat) (x : KSt) : (s.setKst n x).hlf = s.hlf := rfl
@[simp] theorem State.setKst_ltu (s : State) (n : Nat) (x : KSt) : (s.setKst n x).ltu = s.ltu := rfl
@[simp] theorem State.setKst_pcp (s : State) (n : Nat) (x : KSt) : (s.setKst n x).pcp = s.pcp := rfl
@[simp] theorem State.setKst_ttc (s : State) (n : Nat) (x : KSt) : (s.setKst n x).ttc = s.ttc := rfl
@[simp] theorem State.setKst_ilc (s : State) (n : Nat) (x : KSt) : (s.setKst n x).ilc = s.ilc := rfl
@[simp] theorem State.setKst_scu (s : State) (n : Nat) (x : KSt) : (s.setKst n x).scu = s.scu := rfl
@[simp] theorem State.setKst_seals (s : State) (n : Nat) (x : KSt) : (s.setKst n x).seals = s.seals := rfl
@[simp] theorem State.setKst_stations (s : State) (n : Nat) (x : KSt) : (s.setKst n x).stations = s.stations := rfl
@[simp] theorem State.setKst_smc (s : State) (n : Nat) (x : KSt) : (s.setKst n x).smc = s.smc := rfl
@[simp] theorem State.setKst_hif (s : State) (n : Nat) (x : KSt) : (s.setKst n x).hif = s.hif := rfl
@[simp] theorem State.setKst_mfe (s : State) (n : Nat) (x : KSt) : (s.setKst n x).mfe = s.mfe := rfl
@[simp] theorem State.setKst_thm (s : State) (n : Nat) (x : KSt) : (s.setKst n x).thm = s.thm := rfl
@[simp] theorem State.setKst_get (s : State) (n : Nat) (x : KSt) (f : Fld) (k l : Nat) : (s.setKst n x).get f k l = s.get f k l := rfl
@[simp] theorem State.setKst_kst (s : State) (n : Nat) (x : KSt) : (s.setKst n x).kst n = x := SMap.get_put_self _ _ _ _
theorem State.setKst_kst_ne (s : State) (n : Nat) (x : KSt) (m : Nat) (h : m ≠ n) : (s.setKst n x).kst m = s.kst m :=
  SMap.get_put_ne _ _ _ _ h
@[simp] theorem State.set_kst (s : State) (f : Fld) (v i j n : Nat) : (s.set f v i j).kst n = s.kst n := rfl

/-! ### `State.setRing` -/

@[simp] theorem State.setRing_pending (s : State) (n : Nat) (x : Ring) : (s.setRing n x).pending = s.pending := rfl
@[simp] theorem State.setRing_regs (s : State) (n : Nat) (x : Ring) : (s.setRing n x).regs = s.regs := rfl
@[simp] theorem State.setRing_hold (s : State) (n : Nat) (x : Ring) : (s.setRing n x).hold = s.hold := rfl
@[simp] theorem State.setRing_out (s : State) (n : Nat) (x : Ring) : (s.setRing n x).out = s.out := rfl
@[simp] theorem State.setRing_fresh (s : State) (n : Nat) (x : Ring) : (s.setRing n x).fresh = s.fresh := rfl
@[simp] theorem State.setRing_due (s : State) (n : Nat) (x : Ring) : (s.setRing n x).due = s.due := rfl
@[simp] theorem State.setRing_hbm (s : State) (n : Nat) (x : Ring) : (s.setRing n x).hbm = s.hbm := rfl
@[simp] theorem State.setRing_leaf (s : State) (n : Nat) (x : Ring) : (s.setRing n x).leaf = s.leaf := rfl
@[simp] theorem State.setRing_mbox (s : State) (n : Nat) (x : Ring) : (s.setRing n x).mbox = s.mbox := rfl
@[simp] theorem State.setRing_qmx (s : State) (n : Nat) (x : Ring) : (s.setRing n x).qmx = s.qmx := rfl
@[simp] theorem State.setRing_store (s : State) (n : Nat) (x : Ring) : (s.setRing n x).store = s.store := rfl
@[simp] theorem State.setRing_eng (s : State) (n : Nat) (x : Ring) : (s.setRing n x).eng = s.eng := rfl
@[simp] theorem State.setRing_pace (s : State) (n : Nat) (x : Ring) : (s.setRing n x).pace = s.pace := rfl
@[simp] theorem State.setRing_hlf (s : State) (n : Nat) (x : Ring) : (s.setRing n x).hlf = s.hlf := rfl
@[simp] theorem State.setRing_ltu (s : State) (n : Nat) (x : Ring) : (s.setRing n x).ltu = s.ltu := rfl
@[simp] theorem State.setRing_pcp (s : State) (n : Nat) (x : Ring) : (s.setRing n x).pcp = s.pcp := rfl
@[simp] theorem State.setRing_ttc (s : State) (n : Nat) (x : Ring) : (s.setRing n x).ttc = s.ttc := rfl
@[simp] theorem State.setRing_ilc (s : State) (n : Nat) (x : Ring) : (s.setRing n x).ilc = s.ilc := rfl
@[simp] theorem State.setRing_scu (s : State) (n : Nat) (x : Ring) : (s.setRing n x).scu = s.scu := rfl
@[simp] theorem State.setRing_seals (s : State) (n : Nat) (x : Ring) : (s.setRing n x).seals = s.seals := rfl
@[simp] theorem State.setRing_stations (s : State) (n : Nat) (x : Ring) : (s.setRing n x).stations = s.stations := rfl
@[simp] theorem State.setRing_kru (s : State) (n : Nat) (x : Ring) : (s.setRing n x).kru = s.kru := rfl
@[simp] theorem State.setRing_hif (s : State) (n : Nat) (x : Ring) : (s.setRing n x).hif = s.hif := rfl
@[simp] theorem State.setRing_mfe (s : State) (n : Nat) (x : Ring) : (s.setRing n x).mfe = s.mfe := rfl
@[simp] theorem State.setRing_thm (s : State) (n : Nat) (x : Ring) : (s.setRing n x).thm = s.thm := rfl
@[simp] theorem State.setRing_get (s : State) (n : Nat) (x : Ring) (f : Fld) (k l : Nat) : (s.setRing n x).get f k l = s.get f k l := rfl
@[simp] theorem State.setRing_ring (s : State) (n : Nat) (x : Ring) : (s.setRing n x).ring n = x := SMap.get_put_self _ _ _ _
theorem State.setRing_ring_ne (s : State) (n : Nat) (x : Ring) (m : Nat) (h : m ≠ n) : (s.setRing n x).ring m = s.ring m :=
  SMap.get_put_ne _ _ _ _ h
@[simp] theorem State.set_ring (s : State) (f : Fld) (v i j n : Nat) : (s.set f v i j).ring n = s.ring n := rfl

/-! ### `State.setChain` -/

@[simp] theorem State.setChain_pending (s : State) (n : Nat) (x : Chain) : (s.setChain n x).pending = s.pending := rfl
@[simp] theorem State.setChain_regs (s : State) (n : Nat) (x : Chain) : (s.setChain n x).regs = s.regs := rfl
@[simp] theorem State.setChain_hold (s : State) (n : Nat) (x : Chain) : (s.setChain n x).hold = s.hold := rfl
@[simp] theorem State.setChain_out (s : State) (n : Nat) (x : Chain) : (s.setChain n x).out = s.out := rfl
@[simp] theorem State.setChain_fresh (s : State) (n : Nat) (x : Chain) : (s.setChain n x).fresh = s.fresh := rfl
@[simp] theorem State.setChain_due (s : State) (n : Nat) (x : Chain) : (s.setChain n x).due = s.due := rfl
@[simp] theorem State.setChain_hbm (s : State) (n : Nat) (x : Chain) : (s.setChain n x).hbm = s.hbm := rfl
@[simp] theorem State.setChain_leaf (s : State) (n : Nat) (x : Chain) : (s.setChain n x).leaf = s.leaf := rfl
@[simp] theorem State.setChain_mbox (s : State) (n : Nat) (x : Chain) : (s.setChain n x).mbox = s.mbox := rfl
@[simp] theorem State.setChain_qmx (s : State) (n : Nat) (x : Chain) : (s.setChain n x).qmx = s.qmx := rfl
@[simp] theorem State.setChain_store (s : State) (n : Nat) (x : Chain) : (s.setChain n x).store = s.store := rfl
@[simp] theorem State.setChain_eng (s : State) (n : Nat) (x : Chain) : (s.setChain n x).eng = s.eng := rfl
@[simp] theorem State.setChain_pace (s : State) (n : Nat) (x : Chain) : (s.setChain n x).pace = s.pace := rfl
@[simp] theorem State.setChain_hlf (s : State) (n : Nat) (x : Chain) : (s.setChain n x).hlf = s.hlf := rfl
@[simp] theorem State.setChain_ltu (s : State) (n : Nat) (x : Chain) : (s.setChain n x).ltu = s.ltu := rfl
@[simp] theorem State.setChain_pcp (s : State) (n : Nat) (x : Chain) : (s.setChain n x).pcp = s.pcp := rfl
@[simp] theorem State.setChain_ttc (s : State) (n : Nat) (x : Chain) : (s.setChain n x).ttc = s.ttc := rfl
@[simp] theorem State.setChain_ilc (s : State) (n : Nat) (x : Chain) : (s.setChain n x).ilc = s.ilc := rfl
@[simp] theorem State.setChain_scu (s : State) (n : Nat) (x : Chain) : (s.setChain n x).scu = s.scu := rfl
@[simp] theorem State.setChain_seals (s : State) (n : Nat) (x : Chain) : (s.setChain n x).seals = s.seals := rfl
@[simp] theorem State.setChain_stations (s : State) (n : Nat) (x : Chain) : (s.setChain n x).stations = s.stations := rfl
@[simp] theorem State.setChain_smc (s : State) (n : Nat) (x : Chain) : (s.setChain n x).smc = s.smc := rfl
@[simp] theorem State.setChain_kru (s : State) (n : Nat) (x : Chain) : (s.setChain n x).kru = s.kru := rfl
@[simp] theorem State.setChain_hif (s : State) (n : Nat) (x : Chain) : (s.setChain n x).hif = s.hif := rfl
@[simp] theorem State.setChain_thm (s : State) (n : Nat) (x : Chain) : (s.setChain n x).thm = s.thm := rfl
@[simp] theorem State.setChain_get (s : State) (n : Nat) (x : Chain) (f : Fld) (k l : Nat) : (s.setChain n x).get f k l = s.get f k l := rfl
@[simp] theorem State.setChain_chain (s : State) (n : Nat) (x : Chain) : (s.setChain n x).chain n = x := SMap.get_put_self _ _ _ _
theorem State.setChain_chain_ne (s : State) (n : Nat) (x : Chain) (m : Nat) (h : m ≠ n) : (s.setChain n x).chain m = s.chain m :=
  SMap.get_put_ne _ _ _ _ h
@[simp] theorem State.set_chain (s : State) (f : Fld) (v i j n : Nat) : (s.set f v i j).chain n = s.chain n := rfl

/-! ### `State.setMout` -/

@[simp] theorem State.setMout_pending (s : State) (n : Nat) (x : MfeOut) : (s.setMout n x).pending = s.pending := rfl
@[simp] theorem State.setMout_regs (s : State) (n : Nat) (x : MfeOut) : (s.setMout n x).regs = s.regs := rfl
@[simp] theorem State.setMout_hold (s : State) (n : Nat) (x : MfeOut) : (s.setMout n x).hold = s.hold := rfl
@[simp] theorem State.setMout_out (s : State) (n : Nat) (x : MfeOut) : (s.setMout n x).out = s.out := rfl
@[simp] theorem State.setMout_fresh (s : State) (n : Nat) (x : MfeOut) : (s.setMout n x).fresh = s.fresh := rfl
@[simp] theorem State.setMout_due (s : State) (n : Nat) (x : MfeOut) : (s.setMout n x).due = s.due := rfl
@[simp] theorem State.setMout_hbm (s : State) (n : Nat) (x : MfeOut) : (s.setMout n x).hbm = s.hbm := rfl
@[simp] theorem State.setMout_leaf (s : State) (n : Nat) (x : MfeOut) : (s.setMout n x).leaf = s.leaf := rfl
@[simp] theorem State.setMout_mbox (s : State) (n : Nat) (x : MfeOut) : (s.setMout n x).mbox = s.mbox := rfl
@[simp] theorem State.setMout_qmx (s : State) (n : Nat) (x : MfeOut) : (s.setMout n x).qmx = s.qmx := rfl
@[simp] theorem State.setMout_store (s : State) (n : Nat) (x : MfeOut) : (s.setMout n x).store = s.store := rfl
@[simp] theorem State.setMout_eng (s : State) (n : Nat) (x : MfeOut) : (s.setMout n x).eng = s.eng := rfl
@[simp] theorem State.setMout_pace (s : State) (n : Nat) (x : MfeOut) : (s.setMout n x).pace = s.pace := rfl
@[simp] theorem State.setMout_hlf (s : State) (n : Nat) (x : MfeOut) : (s.setMout n x).hlf = s.hlf := rfl
@[simp] theorem State.setMout_ltu (s : State) (n : Nat) (x : MfeOut) : (s.setMout n x).ltu = s.ltu := rfl
@[simp] theorem State.setMout_pcp (s : State) (n : Nat) (x : MfeOut) : (s.setMout n x).pcp = s.pcp := rfl
@[simp] theorem State.setMout_ttc (s : State) (n : Nat) (x : MfeOut) : (s.setMout n x).ttc = s.ttc := rfl
@[simp] theorem State.setMout_ilc (s : State) (n : Nat) (x : MfeOut) : (s.setMout n x).ilc = s.ilc := rfl
@[simp] theorem State.setMout_scu (s : State) (n : Nat) (x : MfeOut) : (s.setMout n x).scu = s.scu := rfl
@[simp] theorem State.setMout_seals (s : State) (n : Nat) (x : MfeOut) : (s.setMout n x).seals = s.seals := rfl
@[simp] theorem State.setMout_stations (s : State) (n : Nat) (x : MfeOut) : (s.setMout n x).stations = s.stations := rfl
@[simp] theorem State.setMout_smc (s : State) (n : Nat) (x : MfeOut) : (s.setMout n x).smc = s.smc := rfl
@[simp] theorem State.setMout_kru (s : State) (n : Nat) (x : MfeOut) : (s.setMout n x).kru = s.kru := rfl
@[simp] theorem State.setMout_hif (s : State) (n : Nat) (x : MfeOut) : (s.setMout n x).hif = s.hif := rfl
@[simp] theorem State.setMout_thm (s : State) (n : Nat) (x : MfeOut) : (s.setMout n x).thm = s.thm := rfl
@[simp] theorem State.setMout_get (s : State) (n : Nat) (x : MfeOut) (f : Fld) (k l : Nat) : (s.setMout n x).get f k l = s.get f k l := rfl
@[simp] theorem State.setMout_mout (s : State) (n : Nat) (x : MfeOut) : (s.setMout n x).mout n = x := SMap.get_put_self _ _ _ _
theorem State.setMout_mout_ne (s : State) (n : Nat) (x : MfeOut) (m : Nat) (h : m ≠ n) : (s.setMout n x).mout m = s.mout m :=
  SMap.get_put_ne _ _ _ _ h
@[simp] theorem State.set_mout (s : State) (f : Fld) (v i j n : Nat) : (s.set f v i j).mout n = s.mout n := rfl

/-! ### `State.setAxis` -/

@[simp] theorem State.setAxis_pending (s : State) (n : Nat) (x : Axis) : (s.setAxis n x).pending = s.pending := rfl
@[simp] theorem State.setAxis_regs (s : State) (n : Nat) (x : Axis) : (s.setAxis n x).regs = s.regs := rfl
@[simp] theorem State.setAxis_hold (s : State) (n : Nat) (x : Axis) : (s.setAxis n x).hold = s.hold := rfl
@[simp] theorem State.setAxis_out (s : State) (n : Nat) (x : Axis) : (s.setAxis n x).out = s.out := rfl
@[simp] theorem State.setAxis_fresh (s : State) (n : Nat) (x : Axis) : (s.setAxis n x).fresh = s.fresh := rfl
@[simp] theorem State.setAxis_due (s : State) (n : Nat) (x : Axis) : (s.setAxis n x).due = s.due := rfl
@[simp] theorem State.setAxis_hbm (s : State) (n : Nat) (x : Axis) : (s.setAxis n x).hbm = s.hbm := rfl
@[simp] theorem State.setAxis_leaf (s : State) (n : Nat) (x : Axis) : (s.setAxis n x).leaf = s.leaf := rfl
@[simp] theorem State.setAxis_mbox (s : State) (n : Nat) (x : Axis) : (s.setAxis n x).mbox = s.mbox := rfl
@[simp] theorem State.setAxis_qmx (s : State) (n : Nat) (x : Axis) : (s.setAxis n x).qmx = s.qmx := rfl
@[simp] theorem State.setAxis_store (s : State) (n : Nat) (x : Axis) : (s.setAxis n x).store = s.store := rfl
@[simp] theorem State.setAxis_eng (s : State) (n : Nat) (x : Axis) : (s.setAxis n x).eng = s.eng := rfl
@[simp] theorem State.setAxis_pace (s : State) (n : Nat) (x : Axis) : (s.setAxis n x).pace = s.pace := rfl
@[simp] theorem State.setAxis_hlf (s : State) (n : Nat) (x : Axis) : (s.setAxis n x).hlf = s.hlf := rfl
@[simp] theorem State.setAxis_ltu (s : State) (n : Nat) (x : Axis) : (s.setAxis n x).ltu = s.ltu := rfl
@[simp] theorem State.setAxis_pcp (s : State) (n : Nat) (x : Axis) : (s.setAxis n x).pcp = s.pcp := rfl
@[simp] theorem State.setAxis_ilc (s : State) (n : Nat) (x : Axis) : (s.setAxis n x).ilc = s.ilc := rfl
@[simp] theorem State.setAxis_scu (s : State) (n : Nat) (x : Axis) : (s.setAxis n x).scu = s.scu := rfl
@[simp] theorem State.setAxis_seals (s : State) (n : Nat) (x : Axis) : (s.setAxis n x).seals = s.seals := rfl
@[simp] theorem State.setAxis_stations (s : State) (n : Nat) (x : Axis) : (s.setAxis n x).stations = s.stations := rfl
@[simp] theorem State.setAxis_smc (s : State) (n : Nat) (x : Axis) : (s.setAxis n x).smc = s.smc := rfl
@[simp] theorem State.setAxis_kru (s : State) (n : Nat) (x : Axis) : (s.setAxis n x).kru = s.kru := rfl
@[simp] theorem State.setAxis_hif (s : State) (n : Nat) (x : Axis) : (s.setAxis n x).hif = s.hif := rfl
@[simp] theorem State.setAxis_mfe (s : State) (n : Nat) (x : Axis) : (s.setAxis n x).mfe = s.mfe := rfl
@[simp] theorem State.setAxis_thm (s : State) (n : Nat) (x : Axis) : (s.setAxis n x).thm = s.thm := rfl
@[simp] theorem State.setAxis_get (s : State) (n : Nat) (x : Axis) (f : Fld) (k l : Nat) : (s.setAxis n x).get f k l = s.get f k l := rfl
@[simp] theorem State.setAxis_axis (s : State) (n : Nat) (x : Axis) : (s.setAxis n x).axis n = x := SMap.get_put_self _ _ _ _
theorem State.setAxis_axis_ne (s : State) (n : Nat) (x : Axis) (m : Nat) (h : m ≠ n) : (s.setAxis n x).axis m = s.axis m :=
  SMap.get_put_ne _ _ _ _ h
@[simp] theorem State.set_axis (s : State) (f : Fld) (v i j n : Nat) : (s.set f v i j).axis n = s.axis n := rfl

/-! ### `State.setThm` -/

@[simp] theorem State.setThm_pending (s : State) (x : Thm) : (s.setThm x).pending = s.pending := rfl
@[simp] theorem State.setThm_regs (s : State) (x : Thm) : (s.setThm x).regs = s.regs := rfl
@[simp] theorem State.setThm_hold (s : State) (x : Thm) : (s.setThm x).hold = s.hold := rfl
@[simp] theorem State.setThm_out (s : State) (x : Thm) : (s.setThm x).out = s.out := rfl
@[simp] theorem State.setThm_fresh (s : State) (x : Thm) : (s.setThm x).fresh = s.fresh := rfl
@[simp] theorem State.setThm_due (s : State) (x : Thm) : (s.setThm x).due = s.due := rfl
@[simp] theorem State.setThm_hbm (s : State) (x : Thm) : (s.setThm x).hbm = s.hbm := rfl
@[simp] theorem State.setThm_leaf (s : State) (x : Thm) : (s.setThm x).leaf = s.leaf := rfl
@[simp] theorem State.setThm_mbox (s : State) (x : Thm) : (s.setThm x).mbox = s.mbox := rfl
@[simp] theorem State.setThm_qmx (s : State) (x : Thm) : (s.setThm x).qmx = s.qmx := rfl
@[simp] theorem State.setThm_store (s : State) (x : Thm) : (s.setThm x).store = s.store := rfl
@[simp] theorem State.setThm_eng (s : State) (x : Thm) : (s.setThm x).eng = s.eng := rfl
@[simp] theorem State.setThm_pace (s : State) (x : Thm) : (s.setThm x).pace = s.pace := rfl
@[simp] theorem State.setThm_hlf (s : State) (x : Thm) : (s.setThm x).hlf = s.hlf := rfl
@[simp] theorem State.setThm_ltu (s : State) (x : Thm) : (s.setThm x).ltu = s.ltu := rfl
@[simp] theorem State.setThm_pcp (s : State) (x : Thm) : (s.setThm x).pcp = s.pcp := rfl
@[simp] theorem State.setThm_ttc (s : State) (x : Thm) : (s.setThm x).ttc = s.ttc := rfl
@[simp] theorem State.setThm_ilc (s : State) (x : Thm) : (s.setThm x).ilc = s.ilc := rfl
@[simp] theorem State.setThm_scu (s : State) (x : Thm) : (s.setThm x).scu = s.scu := rfl
@[simp] theorem State.setThm_seals (s : State) (x : Thm) : (s.setThm x).seals = s.seals := rfl
@[simp] theorem State.setThm_stations (s : State) (x : Thm) : (s.setThm x).stations = s.stations := rfl
@[simp] theorem State.setThm_smc (s : State) (x : Thm) : (s.setThm x).smc = s.smc := rfl
@[simp] theorem State.setThm_kru (s : State) (x : Thm) : (s.setThm x).kru = s.kru := rfl
@[simp] theorem State.setThm_hif (s : State) (x : Thm) : (s.setThm x).hif = s.hif := rfl
@[simp] theorem State.setThm_mfe (s : State) (x : Thm) : (s.setThm x).mfe = s.mfe := rfl
@[simp] theorem State.setThm_get (s : State) (x : Thm) (f : Fld) (k l : Nat) : (s.setThm x).get f k l = s.get f k l := rfl

/-! ### `State.setPtp` -/

@[simp] theorem State.setPtp_pending (s : State) (x : Ptp) : (s.setPtp x).pending = s.pending := rfl
@[simp] theorem State.setPtp_regs (s : State) (x : Ptp) : (s.setPtp x).regs = s.regs := rfl
@[simp] theorem State.setPtp_hold (s : State) (x : Ptp) : (s.setPtp x).hold = s.hold := rfl
@[simp] theorem State.setPtp_out (s : State) (x : Ptp) : (s.setPtp x).out = s.out := rfl
@[simp] theorem State.setPtp_fresh (s : State) (x : Ptp) : (s.setPtp x).fresh = s.fresh := rfl
@[simp] theorem State.setPtp_due (s : State) (x : Ptp) : (s.setPtp x).due = s.due := rfl
@[simp] theorem State.setPtp_hbm (s : State) (x : Ptp) : (s.setPtp x).hbm = s.hbm := rfl
@[simp] theorem State.setPtp_leaf (s : State) (x : Ptp) : (s.setPtp x).leaf = s.leaf := rfl
@[simp] theorem State.setPtp_mbox (s : State) (x : Ptp) : (s.setPtp x).mbox = s.mbox := rfl
@[simp] theorem State.setPtp_qmx (s : State) (x : Ptp) : (s.setPtp x).qmx = s.qmx := rfl
@[simp] theorem State.setPtp_store (s : State) (x : Ptp) : (s.setPtp x).store = s.store := rfl
@[simp] theorem State.setPtp_eng (s : State) (x : Ptp) : (s.setPtp x).eng = s.eng := rfl
@[simp] theorem State.setPtp_pace (s : State) (x : Ptp) : (s.setPtp x).pace = s.pace := rfl
@[simp] theorem State.setPtp_hlf (s : State) (x : Ptp) : (s.setPtp x).hlf = s.hlf := rfl
@[simp] theorem State.setPtp_ltu (s : State) (x : Ptp) : (s.setPtp x).ltu = s.ltu := rfl
@[simp] theorem State.setPtp_pcp (s : State) (x : Ptp) : (s.setPtp x).pcp = s.pcp := rfl
@[simp] theorem State.setPtp_ttc (s : State) (x : Ptp) : (s.setPtp x).ttc = s.ttc := rfl
@[simp] theorem State.setPtp_ilc (s : State) (x : Ptp) : (s.setPtp x).ilc = s.ilc := rfl
@[simp] theorem State.setPtp_scu (s : State) (x : Ptp) : (s.setPtp x).scu = s.scu := rfl
@[simp] theorem State.setPtp_seals (s : State) (x : Ptp) : (s.setPtp x).seals = s.seals := rfl
@[simp] theorem State.setPtp_stations (s : State) (x : Ptp) : (s.setPtp x).stations = s.stations := rfl
@[simp] theorem State.setPtp_smc (s : State) (x : Ptp) : (s.setPtp x).smc = s.smc := rfl
@[simp] theorem State.setPtp_kru (s : State) (x : Ptp) : (s.setPtp x).kru = s.kru := rfl
@[simp] theorem State.setPtp_mfe (s : State) (x : Ptp) : (s.setPtp x).mfe = s.mfe := rfl
@[simp] theorem State.setPtp_thm (s : State) (x : Ptp) : (s.setPtp x).thm = s.thm := rfl
@[simp] theorem State.setPtp_get (s : State) (x : Ptp) (f : Fld) (k l : Nat) : (s.setPtp x).get f k l = s.get f k l := rfl

/-! ### Output -/

/-- What is sent stands behind what has been sent, unless the device is silent. -/
theorem State.emit_out (s : State) (o : Output) (h : s.silent o = false) :
    (s.emit o).out = s.out ++ [o] := by
  unfold State.emit; rw [if_neg (by simp [h])]

theorem State.emit_held (s : State) (o : Output) (h : s.silent o = true) :
    s.emit o = s := by
  unfold State.emit; rw [if_pos h]

@[simp] theorem State.emit_get (s : State) (o : Output) (f : Fld) (i j : Nat) : (s.emit o).get f i j = s.get f i j := by
  unfold State.emit; split <;> rfl

@[simp] theorem State.emit_pending (s : State) (o : Output) : (s.emit o).pending = s.pending := by unfold State.emit; split <;> rfl
@[simp] theorem State.emit_regs (s : State) (o : Output) : (s.emit o).regs = s.regs := by unfold State.emit; split <;> rfl
@[simp] theorem State.emit_hold (s : State) (o : Output) : (s.emit o).hold = s.hold := by unfold State.emit; split <;> rfl
@[simp] theorem State.emit_fresh (s : State) (o : Output) : (s.emit o).fresh = s.fresh := by unfold State.emit; split <;> rfl
@[simp] theorem State.emit_due (s : State) (o : Output) : (s.emit o).due = s.due := by unfold State.emit; split <;> rfl
@[simp] theorem State.emit_hbm (s : State) (o : Output) : (s.emit o).hbm = s.hbm := by unfold State.emit; split <;> rfl
@[simp] theorem State.emit_leaf (s : State) (o : Output) : (s.emit o).leaf = s.leaf := by unfold State.emit; split <;> rfl
@[simp] theorem State.emit_mbox (s : State) (o : Output) : (s.emit o).mbox = s.mbox := by unfold State.emit; split <;> rfl
@[simp] theorem State.emit_qmx (s : State) (o : Output) : (s.emit o).qmx = s.qmx := by unfold State.emit; split <;> rfl
@[simp] theorem State.emit_store (s : State) (o : Output) : (s.emit o).store = s.store := by unfold State.emit; split <;> rfl
@[simp] theorem State.emit_eng (s : State) (o : Output) : (s.emit o).eng = s.eng := by unfold State.emit; split <;> rfl
@[simp] theorem State.emit_pace (s : State) (o : Output) : (s.emit o).pace = s.pace := by unfold State.emit; split <;> rfl
@[simp] theorem State.emit_hlf (s : State) (o : Output) : (s.emit o).hlf = s.hlf := by unfold State.emit; split <;> rfl
@[simp] theorem State.emit_ltu (s : State) (o : Output) : (s.emit o).ltu = s.ltu := by unfold State.emit; split <;> rfl
@[simp] theorem State.emit_pcp (s : State) (o : Output) : (s.emit o).pcp = s.pcp := by unfold State.emit; split <;> rfl
@[simp] theorem State.emit_ttc (s : State) (o : Output) : (s.emit o).ttc = s.ttc := by unfold State.emit; split <;> rfl
@[simp] theorem State.emit_ilc (s : State) (o : Output) : (s.emit o).ilc = s.ilc := by unfold State.emit; split <;> rfl
@[simp] theorem State.emit_scu (s : State) (o : Output) : (s.emit o).scu = s.scu := by unfold State.emit; split <;> rfl
@[simp] theorem State.emit_seals (s : State) (o : Output) : (s.emit o).seals = s.seals := by unfold State.emit; split <;> rfl
@[simp] theorem State.emit_stations (s : State) (o : Output) : (s.emit o).stations = s.stations := by unfold State.emit; split <;> rfl
@[simp] theorem State.emit_smc (s : State) (o : Output) : (s.emit o).smc = s.smc := by unfold State.emit; split <;> rfl
@[simp] theorem State.emit_kru (s : State) (o : Output) : (s.emit o).kru = s.kru := by unfold State.emit; split <;> rfl
@[simp] theorem State.emit_hif (s : State) (o : Output) : (s.emit o).hif = s.hif := by unfold State.emit; split <;> rfl
@[simp] theorem State.emit_mfe (s : State) (o : Output) : (s.emit o).mfe = s.mfe := by unfold State.emit; split <;> rfl
@[simp] theorem State.emit_thm (s : State) (o : Output) : (s.emit o).thm = s.thm := by unfold State.emit; split <;> rfl

/-! ### Events -/

@[simp] theorem State.raise_pending (s : State) (n : Nat) : (s.raise n).pending = s.pending := by
  unfold State.raise State.owe; dsimp only; split <;> (try split) <;> rfl
@[simp] theorem State.raise_hold (s : State) (n : Nat) : (s.raise n).hold = s.hold := by
  unfold State.raise State.owe; dsimp only; split <;> (try split) <;> rfl
@[simp] theorem State.raise_out (s : State) (n : Nat) : (s.raise n).out = s.out := by
  unfold State.raise State.owe; dsimp only; split <;> (try split) <;> rfl
@[simp] theorem State.raise_fresh (s : State) (n : Nat) : (s.raise n).fresh = s.fresh := by
  unfold State.raise State.owe; dsimp only; split <;> (try split) <;> rfl
@[simp] theorem State.raise_hbm (s : State) (n : Nat) : (s.raise n).hbm = s.hbm := by
  unfold State.raise State.owe; dsimp only; split <;> (try split) <;> rfl
@[simp] theorem State.raise_leaf (s : State) (n : Nat) : (s.raise n).leaf = s.leaf := by
  unfold State.raise State.owe; dsimp only; split <;> (try split) <;> rfl
@[simp] theorem State.raise_mbox (s : State) (n : Nat) : (s.raise n).mbox = s.mbox := by
  unfold State.raise State.owe; dsimp only; split <;> (try split) <;> rfl
@[simp] theorem State.raise_qmx (s : State) (n : Nat) : (s.raise n).qmx = s.qmx := by
  unfold State.raise State.owe; dsimp only; split <;> (try split) <;> rfl
@[simp] theorem State.raise_store (s : State) (n : Nat) : (s.raise n).store = s.store := by
  unfold State.raise State.owe; dsimp only; split <;> (try split) <;> rfl
@[simp] theorem State.raise_eng (s : State) (n : Nat) : (s.raise n).eng = s.eng := by
  unfold State.raise State.owe; dsimp only; split <;> (try split) <;> rfl
@[simp] theorem State.raise_pace (s : State) (n : Nat) : (s.raise n).pace = s.pace := by
  unfold State.raise State.owe; dsimp only; split <;> (try split) <;> rfl
@[simp] theorem State.raise_hlf (s : State) (n : Nat) : (s.raise n).hlf = s.hlf := by
  unfold State.raise State.owe; dsimp only; split <;> (try split) <;> rfl
@[simp] theorem State.raise_ltu (s : State) (n : Nat) : (s.raise n).ltu = s.ltu := by
  unfold State.raise State.owe; dsimp only; split <;> (try split) <;> rfl
@[simp] theorem State.raise_pcp (s : State) (n : Nat) : (s.raise n).pcp = s.pcp := by
  unfold State.raise State.owe; dsimp only; split <;> (try split) <;> rfl
@[simp] theorem State.raise_ttc (s : State) (n : Nat) : (s.raise n).ttc = s.ttc := by
  unfold State.raise State.owe; dsimp only; split <;> (try split) <;> rfl
@[simp] theorem State.raise_ilc (s : State) (n : Nat) : (s.raise n).ilc = s.ilc := by
  unfold State.raise State.owe; dsimp only; split <;> (try split) <;> rfl
@[simp] theorem State.raise_scu (s : State) (n : Nat) : (s.raise n).scu = s.scu := by
  unfold State.raise State.owe; dsimp only; split <;> (try split) <;> rfl
@[simp] theorem State.raise_seals (s : State) (n : Nat) : (s.raise n).seals = s.seals := by
  unfold State.raise State.owe; dsimp only; split <;> (try split) <;> rfl
@[simp] theorem State.raise_stations (s : State) (n : Nat) : (s.raise n).stations = s.stations := by
  unfold State.raise State.owe; dsimp only; split <;> (try split) <;> rfl
@[simp] theorem State.raise_smc (s : State) (n : Nat) : (s.raise n).smc = s.smc := by
  unfold State.raise State.owe; dsimp only; split <;> (try split) <;> rfl
@[simp] theorem State.raise_kru (s : State) (n : Nat) : (s.raise n).kru = s.kru := by
  unfold State.raise State.owe; dsimp only; split <;> (try split) <;> rfl
@[simp] theorem State.raise_hif (s : State) (n : Nat) : (s.raise n).hif = s.hif := by
  unfold State.raise State.owe; dsimp only; split <;> (try split) <;> rfl
@[simp] theorem State.raise_mfe (s : State) (n : Nat) : (s.raise n).mfe = s.mfe := by
  unfold State.raise State.owe; dsimp only; split <;> (try split) <;> rfl
@[simp] theorem State.raise_thm (s : State) (n : Nat) : (s.raise n).thm = s.thm := by
  unfold State.raise State.owe; dsimp only; split <;> (try split) <;> rfl

/-- Raising an event leaves every register field alone but the pending word of its group and the group summaries. -/
theorem State.raise_get (s : State) (n : Nat) (f : Fld) (i j : Nat) (h1 : f.key i j ≠ R.HIF_EVT_PEND_PEND.key (n / 32) 0)
    (h2 : f.key i j ≠ R.HIF_EVT_SUM_LO_GROUPS.key 0 0) (h3 : f.key i j ≠ R.HIF_EVT_SUM_HI_GROUPS.key 0 0) :
    (s.raise n).get f i j = s.get f i j := by
  have hs : ∀ (t : State) (g : Nat), (t.syncSum g).get f i j = t.get f i j := by
    intro t g
    unfold State.syncSum; dsimp only
    by_cases hg : g < 32
    · simp only [hg, if_true]; exact State.get_set_ne _ _ _ _ _ _ _ _ h2
    · simp only [hg, if_false]; exact State.get_set_ne _ _ _ _ _ _ _ _ h3
  have ho : ∀ (t : State) (m : Nat), (t.owe m).get f i j = t.get f i j := by
    intro t m; unfold State.owe; dsimp only; split <;> rfl
  unfold State.raise; dsimp only
  split
  · rw [ho, hs, State.get_set_ne _ _ _ _ _ _ _ _ h1]
  · rw [hs, State.get_set_ne _ _ _ _ _ _ _ _ h1]

end Sys2Proof.Machine
end

