-- ==== Sys2Proof/Tests/Slice0.lean ====
section
/-! SUPPORT. The model's own tests: small states, for every statement a theorem that its hypotheses can be met, clause by clause, the
well-formedness checks, and single steps with results taken from the spec's rules. -/

open Sys2Proof Sys2Proof.Machine Sys2Proof.Stated

namespace Sys2Proof.Tests

-- One evaluation at a time keeps the memory of the compile small.
set_option Elab.async false

/-! ### States -/

/-- The device in IDLE with the boot done. -/
def idle : State := (State.reset.set R.SMC_BOOT_STATUS_STEP 5).set R.SMC_DEV_STATE_STATE Dev.idle

/-- A word with fields at their values. -/
def word (fs : List (Fld × Nat)) : BitVec 32 := BitVec.ofNat 32 (fs.foldl (fun a f => a + f.2 * 2 ^ f.1.lo) 0)

/-- SD_REFCLK`q` has stopped. -/
def noClock (s : State) (q : Nat) : State := { s with smc := { s.smc with refGone := [q] } }

/-- A command at the front of its queue. -/
def queued : State := { idle with pending := [.refclkLoss] }

/-- The Cabinet runs and the boot is not done. -/
def booting : State := (State.reset.set R.SMC_BOOT_STATUS_STEP 4).set R.SMC_DEV_STATE_STATE Dev.bare

/-- Every block and the first ranges of queues in the secure world. -/
def secured : State := (idle.set R.SMC_WMAP_BLK_BLOCKS 0x7FF).set R.SMC_WMAP_QR_MAP 0xFFFFFFFF 0

/-- A pace window in which domain 3 was busy half its time and domain 16 all of it. -/
def paced : State := (((idle.set R.SCU_PACE_CTRL_WINDOW 10).set R.SCU_PACE_BUSY 128000 3).set R.SCU_PACE_HS 1000 3).set R.SCU_PACE_BUSY
  256000 16

/-- A request waits for VMAX on ring 0 while fitting is on. -/
def fitting : State :=
  let s := (idle.set R.SMC_VFIT_CTRL_EN 1).set R.SMC_VFIT_STATUS_STATE 3
  { s with pace := { s.pace with waits := [.stage 0], holdLeft := 1 } }

/-- Fitting on, with nothing waiting. -/
def fitted : State := { fitting with pace := { fitting.pace with waits := [] } }

/-! Head links: head 0 on lane 0, station 0. -/

/-- Head 0 active at version 2.0 on lane 0. -/
def linked : State :=
  ((((((((idle.set R.HLF_CTRL_EN 1).set R.HLF_PORT_CTRL_EN 1 0).set R.HLF_PORT_STATE_STATE Port.active 0).set R.HLF_PORT_MODE_VERSION 0x20 0
    ).set R.HLF_PORT_MODE_LANES 1 0).set R.HLF_PORT_MODE_RATE 1 0).set R.HLF_LANE_STATUS_ACTIVE 1 0).set R.HLF_LANE_STATUS_LOCK 1 0).setHead 0
      { cand := some (1, 1), version := 0x20, modeOk := true } |>.setLane 0 { k8 := false }

/-- A request to head 0 with TAG 7 is out. -/
def asked : State := { linked.set R.HLF_CFG_CMD_BUSY 1 with hlf := { linked.hlf with cfgReq := some { tag := 7 }, nextTag := 8 } }

/-- A packet with a right CRC. -/
def packet (seq : BitVec 8) (hdr : Nat) (words : List (BitVec 64)) : Packet :=
  { seq := seq, dblk := BitVec.ofNat 8 words.length, crc := BitVec.ofNat 32 (packetCrc hdr (words.map (·.toNat))), hdr := BitVec.ofNat 56 hdr,
    words := words, blk := 0, broken := false }

/-- Port 0 in a state of training, lane 0 locked. -/
def port (st : Nat) : State :=
  (((idle.set R.HLF_CTRL_EN 1).set R.HLF_PORT_CTRL_EN 1 0).set R.HLF_LANE_STATUS_LOCK 1 0).set R.HLF_PORT_STATE_STATE st 0

/-- A CAP of versions `lo` to `hi`: one lane at every rate. -/
def cap (lo hi : Nat) : Packet := packet 0 1 [1#64, BitVec.ofNat 64 (lo + hi * 2 ^ 8 + 2 ^ 16 + 15 * 2 ^ 20), 0#64, 0#64]

/-- Port 0 in DELAY with an ECHO out on lane 0, and head 0 in station 2. -/
def echoing : State :=
  (((port Port.delay).setHead 0 { cand := some (1, 1), version := 0x20 }).setLane 0 { echo := some (5, 0), k8 := false }).setStation 2
    { k := 6, heads := [0] }

/-- Head 0 in an armed station 2. -/
def armedHead : State := (linked.setStation 2 { k := 6, heads := [0] }).set R.SMC_ST_STATE_STATE St.armed 2

/-- Station 2 with head 0 of 4,000 columns and 4 planes. -/
def armedHeavy : State := ((armedHead.set R.HLF_PORT_GEOM_COLUMNS 4000 0).set R.HLF_PORT_GEOM_PLANES 4 0)

/-- Lane 0 once its audit is good. -/
def judged (s : State) : State :=
  ((s.set R.HLF_LANE_AUDIT_HELD 4096 0).setS R.HLF_LANE_AUDIT_DIFF (4096 - (4096 + (s.get R.HLF_LANE_CREDIT_RETURNED 0 + 65536 - 0) % 65536 +
    s.get R.HLF_LANE_CREDIT_OCCUPIED 0 : Nat)) 0).setLane 0 { s.lane 0 with auditBad := false }

/-! Line timing and the pipeline: head 0 of 4 columns in station 2. -/

/-- Station 2 in a state, with head 0 of 4 columns and one plane. -/
def station2 (st : Nat) : State :=
  ((((linked.setStation 2 { k := 6, heads := [0] }).set R.SMC_ST_STATE_STATE st 2).set R.HLF_PORT_GEOM_COLUMNS 4 0).set
    R.HLF_PORT_GEOM_PLANES 1 0).set R.LTU_CTRL_EN 1

/-- Station 2 scanning on a timer. -/
def timed : State := ((station2 St.scanning).set R.LTU_ST_CTRL_SRC 1 2).set R.LTU_ST_TIMER_PERIOD 64000 2

/-- The same with no room in its descriptor queue. -/
def descFull : State := timed.setQueue 98 { present := List.replicate 16384 {} }

/-- Station 2 scanning on host lines, one pending. -/
def hosted : State := ((station2 St.scanning).set R.LTU_ST_CTRL_SRC 2 2).set R.LTU_ST_HOSTTRIG_PENDING 1 2

/-- Station 2 with line 9 committed. -/
def committed9 : State := timed.setLst 2 { next := 10, committed := [{ n := 9, t := 100, ss := 200, ee := 900, qq := 900 }] }

/-- Station 2 backs up, the line to commit 5 and its position 1,000 counts before line 0. -/
def backing : State :=
  (((station2 St.rewinding).set R.LTU_ST_RATIO_D 65536 2).setPos16 R.LTU_ST_BASE_COUNT R.LTU_ST_BASE_PHASE 2 65536000).setLst 2 { next := 5 }

/-- Correction points 1, 2, ... °C apart. -/
def points : State := (List.range 8).foldl (fun s i => s.set R.LTU_TCOMP_PT_TEMP (4 * i) i) (idle.set R.LTU_CTRL_EN 1)

/-- Leaf slot 7 of head 0's shape, in page 3. -/
def leafed (st : Nat) : State :=
  ((((station2 st).set R.PCP_LEAF_GEOM_COLUMNS 4 7).set R.PCP_LEAF_GEOM_PLANES 1 7).set R.PCP_LEAF_BASE_PAGE 3 7).set R.PCP_LEAF_BASE_PAGES 1 7

/-- Slot 7 is the active leaf of head 0. -/
def shaded : State := (leafed St.scanning).set R.PCP_SHD_HEAD_LEAF_ACTIVE 7 0

/-- The target of captures is head 0 and slot 7. -/
def aimed : State := ((leafed St.scanning).set R.PCP_CAP_TARGET_HEAD 0).set R.PCP_CAP_TARGET_LEAF 7

/-- A capture of one line has counted it. -/
def captured : State :=
  { aimed.set R.PCP_CAP_STATUS_STATE 2 with
    pcp := { aimed.pcp with cap := { head := 0, slot := 7, counted := 1, sums := [1, 2, 3, 4], mins := [1, 2, 3, 4], maxs := [1, 2, 3, 4] } } }

/-- Product 0 of station 2 with two FIR leaves of one tap. -/
def product0 : State :=
  ((((station2 St.scanning).set R.PCP_DEC_CTRL_EN 1 0).set R.PCP_DEC_CTRL_STATION 2 0).setSto 2 { products := [(0, 0)] }).putLeaf
    0x3800000 [1, 0, 0, 0, 0, 0x40]

/-- FIR leaf 3 is in use by product 0. -/
def firUsed : State := product0.set R.PCP_DEC_LEAF_LEAF_X 3 0

/-- The alignment measurement is under way and has taken its lines. -/
def alnRuns : State :=
  { (station2 St.scanning).set R.PCP_ALN_MEAS_CTRL_BUSY 1 with pcp := { aln := { taken := 65536 } } }

/-- The dovetail measurement is under way and has taken its lines; the least sum stands twice. -/
def dvtRuns : State :=
  { (station2 St.scanning).set R.PCP_DVT_MEAS_CTRL_BUSY 1 with pcp := { dvt := { taken := 65536, sums := [9, 4, 7, 4] } } }

/-- Station 2 of two heads with a dovetail of 4 columns, and line 3 waiting for its right columns. -/
def dovetail : State :=
  ((((station2 St.scanning).setStation 2 { k := 6, heads := [0, 1] }).set R.PCP_STC_ST_CTRL_V 4 2).set
    R.PCP_STC_ST_CTRL_DVT_TIMEOUT 2 2).setPst 2 { placed := some 5, waiting := [{ n := 3, flags := 0, planes := [[1, 2, 3, 4]] }] }

/-- A fade of slot 5 over one line has left the shading of head 0. -/
def faded : State :=
  (timed.setPhead 0 { fades := [{ slot := 5, h := 64, log := 0, delta := [0], gain := [0x4000] }], reached := some 64 }).set
    R.PCP_SHD_HEAD_LEAF_FADING 1 0

/-- Head 0 shades with slot 7, and mixes it with slot 5 from line 0 on over four lines. -/
def shading : State := shaded.set R.PCP_SHD_HEAD_CTRL_EN 1 0
def fading : State := shading.setPhead 0 { fades := [{ slot := 5, h := 0, log := 2, delta := [0], gain := [0x4000] }] }

/-! The store and restarts: station 2 of sheet class. -/

/-- Station 2 with line slots of 64 bytes from page 1 on and a width of 4. -/
def stored : State :=
  ((((timed.set R.SST_ST_GEOM_SLOT 1 2).set R.SST_ST_CAP_K 16 2).set R.PCP_STC_ST_WIDTH_W 4 2).set R.SST_ST_REGION_BASE_PAGE 1 2).setSto 2
    { planes := 1 }

/-- The same with line 0 conditioned and its descriptor written. -/
def handed : State :=
  (stored.setQueue 106 { intake := [{ data := 0 }, { data := 0x0004000300020001, fin := true }] }).setQueue 98
    { ring := [⟨0, false⟩, ⟨0, false⟩, ⟨0, true⟩] }

/-- Queue 300 reads the store of station 2. -/
def map300 : QMap :=
  { queue := 300, cls := 0, max := 8, closeEnd := false, idle := 0, stall := 0, res := 0, writer := .store 2, reader := .engine 0 0, first := 0,
    width := 4, planes := 1 }

/-- A structure in force that maps queue 300. -/
def reading : State :=
  let s := ((stored.setSto 2 { planes := 1, queues := [(300, 0)] }).set R.QMX_Q_STATUS_STATE 1 300).set R.SST_ST_WP 1 2
  { s with scu := { image := some { qmap := [map300] } } }

/-- Station 2 of sheet class in a state and a phase of a restart. -/
def restarting (st phase : Nat) : State :=
  (((station2 st).set R.SMC_ST_STATE_CLASS 1 2).set R.SST_ST_REW_STATUS_PHASE phase 2).setSto 2 { restart := true }

/-- A paced station 2 at a stop. -/
def pacedStop : State := ((restarting St.paused 1).set R.SST_ST_PACE_EN 1 2).set R.SST_ST_PACE_AXIS 1 2

/-- The host reader of station 2, 5 lines written, mark 1 at line 3. -/
def hostReads (en : Nat) : State :=
  (((timed.set R.SST_ST_WP 5 2).set R.SST_ST_HOST_CTRL_EN en 2).setSto 2 { marks := [(1, 3)] }).set R.SST_ST_MARK_VALID 1 2 1

/-- The HBM in self-refresh. -/
def refreshing (s : State) : State := { s with smc := { s.smc with hbmRefresh := true } }

/-- A restart at R = 5 with M = 3 triggered, its overlap open, and the same with the overlap ended. -/
def overlaps : State :=
  ((stored.set R.SST_ST_REW_R 5 2).set R.SST_ST_REW_M 3 2).setSto 2 { planes := 1, restart := true, mTriggered := true }
def seamDone : State := overlaps.setSto 2 { planes := 1, restart := true, mTriggered := true, seamEnded := true }

/-- Station 2 paces axis 1. -/
def pacing (s : State) : State := (s.set R.SST_ST_PACE_EN 1 2).set R.SST_ST_PACE_AXIS 1 2

/-- In step 5 its axis has reached the scan velocity short of the entry, and a station without pacing stands there. -/
def belowEntry (s : State) : State := (s.set R.LTU_ST_RATIO_D 65536 2).setPos16 R.LTU_ST_BASE_COUNT R.LTU_ST_BASE_PHASE 2 65536000
def atVelocity : State :=
  ((pacing (belowEntry (restarting St.rewinding 4))).set R.TTC_AX_STATUS_STATE Ax.atVelocity 1).setAxis 1 { scaleOne := true }

/-- Station 2 of sheet class scanning, its thresholds LO and STOP, and its backlog. -/
def thresholds (lo stop b : Nat) : State :=
  ((((timed.set R.SMC_ST_STATE_CLASS 1 2).set R.SST_ST_THR_LO_LINES lo 2).set R.SST_ST_THR_STOP_LINES stop 2).set R.SST_ST_BACKLOG_B b 2).set
    R.SST_ST_SCALE_CAP 16 2

/-- Station 2 has stored 200 lines, and product 3 stands at line 0 of them, its band not begun, or begun. -/
def sheds : State := (stored.set R.SST_ST_WP 200 2).setSto 2 { planes := 1, products := [(3, 0)] }
def shedsBegun : State := sheds.setSto 2 { planes := 1, products := [(3, 0)], prodBegun := [3] }

/-! Queues -/

/-- Reader 1 of queue 98 is in resync, two descriptors before it. -/
def skipping : State :=
  (timed.set R.QMX_Q_CFG_CLASS 2 98).setQueue 98
    { ring := [⟨5, false⟩, ⟨6, true⟩, ⟨7, false⟩, ⟨8, true⟩], second := { skip := true } }

/-- Queue 300 active, with slabs to take. -/
def queue300 : State :=
  ((((idle.set R.QMX_Q_STATUS_STATE 1 300).set R.QMX_Q_CFG_EN 1 300).set R.QMX_Q_CFG_MAX 8 300).set R.QMX_Q_CFG_CLASS 1 300).set
    R.QMX_POOL_FREE_FREE 1000

/-- No slab to take. -/
def poolEmpty : State := queue300.set R.QMX_POOL_FREE_FREE 0

/-- A closed writer's drawer behind a full reader's. -/
def queueFull : State := queue300.setQueue 300 { d0 := [⟨1, false⟩], w0 := 64, d1 := [⟨2, false⟩], w1 := 64, closed := true }

/-- Two words in the reader's drawer. -/
def queueHolds : State := queue300.setQueue 300 { d1 := [⟨7, false⟩, ⟨8, true⟩], w1 := 2 }

/-- A reader waits while the writer's drawer holds a word. -/
def readerWaits : State :=
  ((queue300.set R.QMX_Q_STATUS_READ_WAIT 1 300).set R.QMX_Q_CFG_IDLE 1 300).set R.QMX_Q_CFG_STALL 1 300 |>.setQueue 300
    { d0 := [⟨7, false⟩], w0 := 1 }

/-- A writer waits for a slab. -/
def writerWaits : State := (queue300.set R.QMX_Q_STATUS_ALLOC_WAIT 1 300).set R.QMX_Q_CFG_STALL 1 300

/-- Two slabs of queue 300 in transit. -/
def inTransit : State := { queue300 with qmx := { queue300.qmx with transit := [⟨300, 2, false⟩] } }

/-! Engines -/

/-- Engine 5 runs, with a word to hand on in cell 0 and a word at the queue of its input port 0. -/
def engine5 : State :=
  (((timed.set R.IEA_ENG_STATUS_STATE Eng.running 5).set R.IEA_ENG_PORT_USED 1 5 0).set R.IEA_ENG_PORT_QUEUE 300 5 0).setEngine 5
    { cfg := [(0, { cw := 2 ^ 24 }), (44, { cw := 2 ^ 24 })], cells := [(0, { pend := [{ data := 9 }] })], wait := .host } |>.setQueue 300
      { intake := [{ data := 3 }] }

/-- Engine 5 loaded, its local store address at the top. -/
def engineLoaded : State := (idle.set R.IEA_ENG_STATUS_STATE Eng.loaded 5).set R.IEA_ENG_LS_ADDR_ADDR 65535 5

/-- Cell 1 adds a constant to the words of cell 0, between items and within one, cell 24 looks them up, and cell 2 adds those of cell 0
and cell 1, only one of which is marked. -/
def arith : State :=
  timed.setEngine 5 { cfg := [(1, { cw := 15 * 2 ^ 25 + 2 ^ 24 })], cells := [(0, { out := some { data := 9 } })] }
def inItem : State :=
  timed.setEngine 5 { cfg := [(1, { cw := 15 * 2 ^ 25 + 2 ^ 24 })], cells := [(0, { out := some { data := 9 } }), (1, { inItem := true })] }
def looks : State :=
  timed.setEngine 5 { cfg := [(24, { cw := 15 * 2 ^ 25 + 2 ^ 24 })], cells := [(0, { out := some { data := 9 } }), (24, { inItem := true })] }
def marks : State :=
  timed.setEngine 5 { cfg := [(2, { cw := 15 * 2 ^ 25 + 2 ^ 24 + 2 ^ 8, tw := 1 })],
                      cells := [(0, { out := some { data := 9, mark := true } }), (1, { out := some { data := 9 } })] }

/-- What cell 1 leaves when it fires between items. -/
def fired : Engine := match (arith.engine 5).fire 1 (arith.bandExp (arith.engStation 5)) arith.fresh with
  | .done y _ => y
  | _ => {}

/-- A word waits at input port 0 of engine 5. -/
def portFed : State := engine5.setEngine 5 { (engine5.engine 5) with cells := [(44, { pend := [{ data := 3 }] })] }

/-- Three rows of one word. -/
def win3 : List Row := [⟨0, false, 0, [0x0004000300020001]⟩, ⟨0, false, 0, [0x0008000700060005]⟩, ⟨0, false, 0, [0x0003000900010002]⟩]

/-! Images and reloads -/

/-- A load of 4,096 bytes is under way, with an owner of key 1 enrolled. -/
def loading : State :=
  let s := (idle.set R.SCU_IMG_STATUS_BUSY 1).set R.SMC_ID_CFG_OWNER 1
  let t := (List.range 12).foldl (fun s i => s.set R.SMC_OWNER_DIG_DIGEST (Config.fuseKeyDigest i) i) s
  { t with scu := { t.scu with loadLen := 4096 } }

/-- A partial image of station 2 staged, in a phase. -/
def staged (phase : Nat) : State :=
  { timed.set R.SCU_RLD_STATUS_PHASE phase with
    scu := { image := some {}, staged := some { isPartial := true, topo := [⟨5, 2, 0, 0, 0, []⟩], groupMask := 1 } } }

/-! The seal -/

/-- Station 2 scans with no head, so that its bands meet every condition. -/
def bare2 : State := idle.set R.SMC_ST_STATE_STATE St.scanning 2

/-- The same, frozen. -/
def frozen2 : State := bare2.set R.SCU_SEAL_ST_STATUS_FROZEN 1 2

/-- Station 2 drains to line 64, its horizon at a band. -/
def drains (b : Nat) : State :=
  (((idle.set R.SMC_ST_STATE_STATE St.draining 2).setStation 2 { fLine := some 64 }).set R.SCU_SEAL_ST_STATUS_VALID 1 2).set
    R.SCU_SEAL_ST_HZN_BAND b 2

/-- Engine 5, bound to station 2, has lost a token. -/
def tokenLost : State :=
  let s := (bare2.set R.IEA_ENG_STATUS_STATE Eng.running 5).set R.IEA_ENG_TOK_ISSUED_COUNT 1 5
  { s with scu := { image := some { topo := [⟨5, 2, 0, 0, 0, []⟩] } } }

/-- An ST_ARM runs on ring 0. -/
def arming : State := idle.setRing 0 { run := some { op := Op.stArm, tag := 5, station := 2 } }

/-- The last line of band 0 of station 2 was triggered long ago. -/
def late2 : State := (bare2.setLst 2 { last := some { n := 63 } }).setSeal 2 { trig := [(0, (63, 0))] }

/-- The state in which a seal attempt of station `n` judges its local band. -/
def sealing (s : State) (n : Nat) : State :=
  (s.sealAudits.set R.SCU_SEAL_ST_LOCAL_BAND (s.nextLocal n) n).setSeal n { s.sealAudits.sealOf n with localValid := true }

/-- QMX_Q_CFG of queue 300 as it stands. -/
def queue300Cfg : BitVec 32 := word (queueFields.map fun f => (f, queue300.get f 300))

/-! The ring: member 3 of 4, East port up on its lane 0. -/

/-- The ring unit in a state, with both ports up on one lane. -/
def member (st : Nat) : State :=
  (((((((idle.set R.KRU_CFG_EN 1).set R.KRU_STATUS_STATE st).set R.KRU_STATUS_ID 3).set R.KRU_PORT_STATUS_STATE KPort.up 0).set
    R.KRU_PORT_STATUS_STATE KPort.up 1).set R.KRU_PORT_LANES_ACTIVE 1 0).set R.KRU_PORT_LANES_ACTIVE 1 1).setStation 2 { k := 6, heads := [0] }

/-- What training shows: the first `n` lanes lock and pass. -/
def trains (n : Nat) : List KTrain := List.replicate n { trip := 5, turn := 1 } ++ List.replicate (16 - n) ({} : KTrain)

/-- The timing member, with ID 1. -/
def timingMember (st : Nat) : State := ((member st).set R.KRU_CFG_TIMING 1).set R.KRU_STATUS_ID 1

/-- A frame of a type for station 2 from member `src` to member `dst`, with a right CRC. -/
def frame (kind dst src : Nat) (words : List (BitVec 64)) : KFrame :=
  let hdr := kind + 2 * 2 ^ 5 + dst * 2 ^ 8 + src * 2 ^ 24
  { seq := 0, dblk := BitVec.ofNat 11 words.length, crc := BitVec.ofNat 32 (packetCrc hdr (words.map (·.toNat))), hdr := BitVec.ofNat 56 hdr,
    words := words, broken := false }

/-- A broadcast frame of member 4. -/
def bcast (kind : Nat) (words : List (BitVec 64)) : KFrame := frame kind 0xFFFF 4 words

/-- What a member holds once it has taken a frame, and once it has passed the broadcast on. -/
def took (s : State) (k : KFrame) : State := (s.kelimTake 0 k).2
def passed (s : State) (k : KFrame) : State := (took s k).ringOut k.ftype { k.head with ret := false } k.data

/-- An alignment of station 2 is under way at the member, and its position is not latched. -/
def aligning (s : State) : State := s.setKst 2 { ta := some 1000 }

/-- The same with its position latched at 0. -/
def latched (s : State) : State := s.setKst 2 { ta := some 1000, latched := some 0 }

/-- A token of band 1, what its audit leaves at the member, and a member that has passed it. -/
def tok0 : KTok := { band := 1, lap := false, bad := false, count := 0, tdig := 0 }
def audited (k : KTok) : State := ((member Ring.ring).auditToken 2 k false).2
def seen : State := (member Ring.ring).setKst 2 { last0 := some 1 }

/-! The host interface -/

/-- Stream 0 runs on DMA with one descriptor at HEAD. -/
def streaming : State := ((idle.set R.HIF_CTRL_EN 1).set R.HIF_ST_CTRL_EN 1 0).set R.HIF_ST_TAIL_TAIL 1 0

/-- Stream 1 runs on Ethernet port 0, with a datagram to send. -/
def ethStream : State :=
  (((((idle.set R.HIF_CTRL_EN 1).set R.HIF_ST_CTRL_EN 1 1).set R.HIF_ST_CTRL_KIND 1 1).set R.HIF_ETH_CTRL_EN 1 0).set R.HIF_ETH_STATUS_LINK 1
    0).setStream 1 { ready := [{ seq := 0, chunks := 1, bandEnd := false, bytes := [1, 2, 3] }] }

/-- Stream 0 holds a descriptor of a length, and an item of queue 300 was cut short in band 5. -/
def cutStream (len : Nat) : State := streaming.setStream 0 { desc := some (0x1000, len, true), cut := some (300, 5) }
def cutChunk : Chunk := { queue := 300, band := 5, words := [], opens := false, closes := true, trunc := true }
def cutRest (len : Nat) : State := (cutStream len).setStream 0 { desc := some (0x1000, len, true), skip := some 300 }

/-- Stream 0 holds a descriptor, and band 0 of its station is sealed and holds nothing for it. -/
def bandOver : State :=
  ((streaming.set R.SCU_SEAL_ST_STATUS_VALID 1 0).set R.SCU_SEAL_ST_HZN_BAND 0 0).setStream 0 { begun := true, desc := some (0x1000, 0x10000, true) }
def bandEndOf (s : State) (c : Nat) : State := match s.findWork c with
  | .bandEnd u => u
  | _ => s
def bandLeft : State := bandEndOf bandOver 0

/-- What an Announce says, with a priority that also names the grandmaster. -/
def dataset (p : Nat) : PtpDataset := ⟨BitVec.ofNat 8 p, 0, 0, 0, 0, BitVec.ofNat 64 p, 0, 12800000000⟩

/-- The first Announce of sender 8, and sender 9, heard twice. -/
def first8 : PtpForeign := { src := 8, data := dataset 5, last := 4 }
def rival : PtpForeign := { src := 9, data := dataset 6, last := 4, before := some 3 }

/-- The PTP slave on port 0, its master 9 and a two-step Sync 5 received. -/
def slave : State :=
  { ethStream.set R.HIF_PTP_CTRL_EN 1 with hif := { ethStream.hif with ptp := { master := some 9, syncSeq := 5, awaits := some 3, reqSeq := 6 } } }

/-- It has heard sender 8 once, and sender 9 twice besides. -/
def heard : State := { slave with hif := { slave.hif with ptp := { slave.hif.ptp with foreign := [first8] } } }
def heardTwo : State := { slave with hif := { slave.hif with ptp := { slave.hif.ptp with foreign := [first8, rival] } } }

/-- Vector 4 of function 0 owes a message, unmasked or masked. -/
def owes (open_ : Bool) : State := { idle with due := [4], hif := { unmasked := if open_ then [(4, true)] else [] } }

/-- Vector 4 is masked with its PBA bit set. -/
def recorded : State := { idle with hif := { pba := [(4, true)] } }

/-! The mailbox -/

/-- A command of `bytes` handed over at the head of ring `r`. -/
def mail (s : State) (r : Nat) (bytes : List Nat) : State :=
  let t := s.set R.SMC_MB_CMD_TAIL_TAIL (1 + bytes.getD 2 0 % 16) r
  { t with mbox := t.mbox.write (0x10000 + 0x2000 * r) bytes, smc := { t.smc with order := [128 * r] } }

/-- The bytes of a command: opcode and extent, TAG, then the parameters from byte 16 on. -/
def cmd (op ext : Nat) (params : List Nat) : List Nat := leBytes 2 op ++ [ext, 0] ++ leBytes 4 77 ++ leBytes 8 0 ++ params

/-- A command of an opcode waits in ring `r`. -/
def waits (s : State) (r op : Nat) (params : List Nat) : State := mail s r (cmd op 0 params)

/-- The same with the response ring full. -/
def noRoom (s : State) : State := s.set R.SMC_MB_RSP_HEAD_HEAD 1 0

/-- A FLASH_WRITE of four bytes runs on ring 1. -/
def flashing : State := idle.setRing 1 { run := some { op := Op.flashWrite, tag := 5, data := [0x40000, 4] } }

/-- An enrolment runs on ring 1, with KEK 9 and a digest of 1. -/
def enrolling : State := idle.setRing 1 { run := some { op := Op.ownerEnroll, tag := 5, data := [1, 9, 1] } }

/-- An OWNER_ENROLL waits, its ephemeral key the base point, so that the shared secret is its first coordinate (R492 with the device key of log
2), and its KEK, the bytes 0 to 31, wrapped as RFC 3394 says. -/
def enrolls : State :=
  mail idle 1 (cmd Op.ownerEnroll 3 (List.replicate 97 0 ++ [4] ++ beBytes 48 p384Gx ++ beBytes 48 p384Gy ++
    [73, 25, 226, 110, 240, 12, 108, 27, 213, 145, 77, 62, 142, 251, 232, 119, 237, 134, 134, 95, 10, 142, 52, 214, 236, 2, 63, 203, 241, 143,
     243, 130, 205, 103, 100, 31, 89, 68, 132, 137]))

/-! Illumination: group 0 lights station 2 with string 0. -/

/-- String 0 lights line 9 at a level, with a number of open and short observations so far. -/
def lit (level opens shorts : Nat) : State :=
  ((((((timed.set R.ILC_CTRL_EN 1).set R.ILC_GRP_CTRL_EN 1 0).set R.ILC_GRP_CTRL_STATION 2 0).set R.ILC_STR_CFG_EN 1 0).set
    R.ILC_STR_CFG_SHORT_MV 500 0).setChan 0 { gates := [⟨900, level, 9, true⟩], opens := opens, shorts := shorts }).setGrp 0 { line := some (9, 200, 900) }

/-- String 0 is to light line 9 at a level of its pattern, without compensation. -/
def lights (b : Nat) : State :=
  ((lit 0 0 0).setChan 0 { formed := some 0x8000 }).putLeaf 0x3900000 [b % 256, b / 256]

/-- The line after line 9. -/
def dueLine : CLine := { n := 10, t := 90000, ss := 100000, ee := 101000, qq := 101000 }

/-- String 0 is due for a diagnostic pulse before the gate of a line committed after line 9. -/
def due : State :=
  (((((lit 0 0 0).setChan 0 {}).set R.ILC_GRP_DIAG_EN 1 0).set R.ILC_STR_STATUS_SINCE 16 0).set R.ILC_GRP_DIAG_DIAG_W 1 0).setLst 2
    { committed := [dueLine] }

/-! Measurement front end -/

/-- The sequencer runs with entry 0 enabled and a period of 960 clocks. -/
def measuring : State :=
  ((((((idle.set R.MFE_CTRL_REF_EN 1).set R.MFE_STATUS_REF_RDY 1).set R.MFE_CTRL_SEQ_EN 1).set R.MFE_STATUS_STATE 1).set R.MFE_SEQ_PERIOD_PERIOD
    960).set R.MFE_SEQ_CTRL_COUNT 1).set R.MFE_ENT_CFG_EN 1 0

/-- The dwell of entry 5, a voltage, is next. -/
def dwells : State :=
  { ((measuring.set R.MFE_ENT_CFG_INPUT 24 5).set R.MFE_CTRL_RAIL 32767) with mfe := { todo := [5] } }

/-- Two urgent conversions wait in a frame with slack. -/
def urgent : State := { measuring with mfe := { urg := [5, 6], slack := 40 } }

/-- The sequencer is off and may start. -/
def measureOff : State := (measuring.set R.MFE_CTRL_SEQ_EN 0).set R.MFE_STATUS_STATE 0

/-- A sound filter leaf of one tap in slot 3, and chain 0 fed by entry 0. -/
def chained : State :=
  ((measuring.set R.MFE_ENT_CFG_CH_EN 1 0).set R.MFE_CH_CFG_LEAF 2 0).putLeaf 0x3A03000 [1, 0]

/-! Motion: axis 1 enabled. -/

/-- Axis 1 in a state, with limits. -/
def axis1 (st : Nat) : State :=
  ((((idle.set R.TTC_AX_CTRL_EN 1 1).set R.TTC_AX_STATUS_STATE st 1).set R.TTC_AX_AMAX_AMAX 1000 1).set R.TTC_AX_JMAX_JMAX 5000
    1).set R.TTC_AX_VMAX_VMAX 400 1

/-- It is in a linear move of its own. -/
def inLine (s : State) : State :=
  let t := s.setAxis 1 { s.axis 1 with inLin := true }
  { t with ttc := { t.ttc with lin := some { path := { goal := .pos 9 }, lead := 9, starts := [(1, 0)], deltas := [(1, 9)] } } }

/-- The back-up move of axis 1 for station 2 has settled, its target `ct`, after some tries. -/
def settled (st phase tries : Nat) (ct : Int) : State :=
  (((((restarting st phase).set R.SST_ST_PACE_EN 1 2).set R.SST_ST_PACE_AXIS 1 2).set R.TTC_AX_STATUS_STATE Ax.still 1).set R.TTC_AX_CTRL_TOL 1
    1).setAxis 1 { settling := true, back := some ct, tries := tries }

/-! Temperatures -/

/-- A sweep counted three at the shutdown level, and a valid sensor stands there. -/
def overheated : State :=
  { ((idle.set R.THM_THR_SHUT_LEVEL 960).setS R.THM_SNS_TEMP 1000 4).set R.THM_SNS_VALID 1 4 with thm := { shut := 3 } }

/-- A throttle level, and whether the device throttles hot. -/
def throttled (on hot : Bool) : State :=
  { idle.set R.THM_STATUS_THROT (b2n on) with thm := { hot := hot } }

/-! Boot -/

/-- The signature block of private key 1, with 1 as its nonce (FIPS 186-5): r is the first coordinate of the base point and s the digest
plus r. -/
def signature (msg : List Nat) : List Nat :=
  [4] ++ beBytes 48 p384Gx ++ beBytes 48 p384Gy ++ List.replicate 7 0 ++ beBytes 48 (p384Gx % p384N) ++
    beBytes 48 ((sha384Num msg + p384Gx) % p384N)

/-- The manifest of a firmware object of a kind, SVN and version, with tested ranges of three interfaces and an empty body. -/
def fwManifest (kind svn ver : Nat) : List Nat :=
  [0x56, 0x43, 0x46, 0x57, kind, svn, 3, 0] ++ leBytes 4 ver ++ leBytes 4 0 ++ sha384 [] ++
    ([1, 2, 3].flatMap fun i => [i, 0, 0, 0] ++ leBytes 4 0 ++ leBytes 4 0xFFFF ++ leBytes 4 0)

/-- The object, signed. -/
def object (kind svn ver : Nat) : FwObs :=
  { body := [], bytes := fwManifest kind svn ver ++ signature (fwManifest kind svn ver) }

/-- One whose signature is of another manifest. -/
def forged : FwObs := { body := [], bytes := fwManifest 1 5 1 ++ signature (fwManifest 1 6 1) }

/-- The boot ROM checks the Cabinet copies. -/
def romStage : State := (idle.set R.SMC_DEV_STATE_STATE Dev.cabinetBoot).set R.SMC_BOOT_STATUS_STEP 1

/-- The boot waits for VCORE. -/
def vcoreStage : State :=
  { (idle.set R.SMC_DEV_STATE_STATE Dev.bare).set R.SMC_BOOT_STATUS_STEP 3 with pace := { idle.pace with waits := [.boot] } }

/-- HBM training runs, and the Workbench has passed. -/
def trainStage : State :=
  let s := (idle.set R.SMC_DEV_STATE_STATE Dev.bare).set R.SMC_BOOT_STATUS_STEP 4
  { s with smc := { s.smc with hbmRun := true, wbOk := true } }

/-- The Workbench is under check. -/
def wbStage : State :=
  let s := (idle.set R.SMC_DEV_STATE_STATE Dev.bare).set R.SMC_BOOT_STATUS_STEP 4
  { s with smc := { s.smc with wbRun := true, cabWb := (0, 0xFFFF) } }

/-- An accepted DEV_RESET waits for its entry. -/
def resetDue : State := { idle with smc := { idle.smc with resetDue := true } }

/-! A structure image file of one engine of station 0, engine 0: input port 0 from the store, output port 1 to the host. -/

/-- Words of a section: count, then its bytes. -/
def sect (n : Nat) (bytes : List Nat) : List Nat := leBytes 8 n ++ bytes

/-- The queue records: the store of station 0 feeds port 0, and port 1 delivers to the host. -/
def feedRec : List Nat := leBytes 4 256 ++ leBytes 4 0 ++ leBytes 4 2 ++ leBytes 4 1 ++ leBytes 4 0 ++ leBytes 4 4 ++ leBytes 8 1
def sendRec : List Nat := leBytes 4 (257 + 2 ^ 18) ++ leBytes 4 0 ++ leBytes 4 (1 + 2 ^ 13) ++ leBytes 4 3 ++ leBytes 16 0

/-- TOPOLOGY, CELLS, QUEUE_MAP, WORLD_REQ and ADMISSION. -/
def sections (queues : List (List Nat)) : List (Nat × List Nat) :=
  let port : Nat := 2 ^ 24 + 15 * 2 ^ 25
  [(1, sect 1 (leBytes 96 0)),
   (2, sect 1 (leBytes 8 0 ++ leBytes (16 * 44) 0 ++ leBytes 8 port ++ leBytes 8 0 ++ leBytes 8 (44 + port) ++ leBytes 8 (1 + 2 ^ 24) ++ leBytes 32 0)),
   (3, sect queues.length queues.flatten),
   (4, sect 2 ([1, 0, 0, 0] ++ leBytes 4 0 ++ leBytes 8 1 ++ [2, 0, 0, 0] ++ leBytes 4 0 ++ leBytes 8 1)),
   (7, sect 1 (leBytes 4 0 ++ leBytes 4 1))]

/-- Section entries one after another from an offset. -/
def entries : Nat → List (Nat × List Nat) → List Nat
  | _, [] => []
  | off, x :: xs => [x.1, 0, 0, 0] ++ leBytes 4 off ++ leBytes 4 x.2.length ++ leBytes 20 0 ++ sha384 x.2 ++ leBytes 16 0 ++
    entries (off + x.2.length) xs

/-- The manifest of the file, with the tested ranges from `lo` on. -/
def imgManifest (flags : Nat) (queues : List (List Nat)) (lo : Nat := 0) : List Nat :=
  leBytes 8 9 ++ leBytes 4 1 ++ leBytes 2 flags ++ leBytes 2 5 ++ leBytes 2 4 ++ leBytes 6 0 ++ leBytes 8 0 ++ leBytes 8 1 ++ leBytes 56 0 ++
    ([1, 2, 3, 4].flatMap fun k => [k, 0, 0, 0] ++ leBytes 4 lo ++ leBytes 8 0xFFFFFFFF) ++ entries 904 (sections queues)

/-- The file: header, manifest, signature and sections. -/
def file (flags : Nat) (queues : List (List Nat)) (lo : Nat := 0) : List Nat :=
  let body := ((sections queues).map (·.2)).flatten
  [0x56, 0x43, 0x53, 0x49, 0, 1] ++ leBytes 2 flags ++ leBytes 4 (904 + body.length) ++ leBytes 4 64 ++ leBytes 4 640 ++ leBytes 4 704 ++
    leBytes 8 9 ++ leBytes 4 1 ++ leBytes 28 0 ++ imgManifest flags queues lo ++ signature (imgManifest flags queues lo) ++ body

/-- What reading the file showed. -/
def read (flags : Nat) (queues : List (List Nat)) (lo : Nat := 0) : ImageObs := { readOk := true, bytes := file flags queues lo }

/-- A load of the whole image is under way. -/
def loadsFull : State := loading.set R.SMC_DEV_STATE_STATE Dev.idle

/-- A load taken for a partial one, met by the read of a full one while a station runs. -/
def loadsBusy : State :=
  let s := loading.set R.SMC_DEV_STATE_STATE Dev.armed
  { s with scu := { s.scu with loadPart := true } }

/-- The structure of the file in force, and a load of a partial image under way. -/
def loadsPart : State :=
  let b : ImgFile := file 0 [feedRec, sendRec]
  { (((loading.set R.SMC_DEV_STATE_STATE Dev.loaded).set R.SCU_IMG_STATUS_BUSY 1).set R.SCU_IMG_STATUS_IN_FORCE 1) with
    scu := { loading.scu with image := some (b.parse (b.sections none)) } }

/-- A partial image on it. -/
def partRead : ImageObs := read 2 [feedRec]

/-- A file of 64 bytes that begins so. -/
def header (bytes : List Nat) : ImageObs := { readOk := true, bytes := bytes ++ List.replicate (64 - bytes.length) 0 }

/-- A file whose manifest was changed after it was signed, and one whose last section was. -/
def forge (o : ImageObs) : ImageObs := { o with bytes := o.bytes.set 100 1 }
def spoil (o : ImageObs) : ImageObs := { o with bytes := o.bytes.set (o.bytes.length - 1) 1 }

/-- The section it spoils, and that of the worlds. -/
def spoiled : Sect := (((loadsFull.imageSects (spoil (read 0 [feedRec, sendRec])).bytes).find? fun x => !x.good).getD ⟨0, 0, 0, 0, 0, [], true⟩)
def worldsSect : Sect := (sectOf (loadsFull.imageSects (file 0 [feedRec, sendRec])) 4).getD ⟨0, 0, 0, 0, 0, [], true⟩

/-- A file tested from values on that the device does not have. -/
def untested : ImageObs := read 0 [feedRec, sendRec] 0xFFFFFFFF

/-- A station ready to be armed. -/
def armable : State :=
  (((((((linked.set R.LTU_REF_STATUS_LOCK 1).setStation 2 { k := 6, heads := [0] }).set R.HLF_PORT_GEOM_COLUMNS 4 0).set R.HLF_PORT_GEOM_PLANES 1
    0).set R.LTU_ST_RATIO_D 65536 2).set R.LTU_ST_MAXRATE_RATE 1000 2).set R.SST_ST_REGION_SIZE_SHELVES 1 2).set R.PCP_STC_XOFF_WIDTH 4 0

/-- Line 4 of head 0 is overdue: the last trigger was line 90. -/
def overdue : State := (timed.setLst 2 { last := some { n := 90 } }).setHead 0 { next := 4 }

/-- The description of a register, and its part at a bit of the word. -/
def reg (id : RegId) : Reg := id.desc?.getD ⟨id, 0, 0, 0, 0, 0, []⟩
def part (g : Reg) (b : Nat) : Part := (g.parts.find? fun p => p.wlo ≤ b && b < p.wlo + p.width).getD ⟨⟨0, 0, 0, 0, 0, .ro, .val 0⟩, 0, 0, 0, false⟩

/-! Commands and frames of one clause each. -/

/-- A FLASH_WRITE of the last 4 KiB of a flash of 256 KiB waits. -/
def flashLast : State := waits { idle with smc := { idle.smc with flashSize := 0x40000 } } 1 Op.flashWrite (leBytes 4 0 ++ leBytes 4 0x3F000 ++ leBytes 8 0 ++ leBytes 4 0x1000)

/-- The same, one byte too long. -/
def flashPast : State := waits { idle with smc := { idle.smc with flashSize := 0x40000 } } 1 Op.flashWrite (leBytes 4 0 ++ leBytes 4 0x3F000 ++ leBytes 8 0 ++ leBytes 4 0x1001)

/-- A WORLD_SET of the last 65 ports waits. -/
def portsSecure : State := waits idle 1 Op.worldSet ([2, 1, 0, 0] ++ leBytes 4 31 ++ leBytes 4 65)

/-- The same, one port too many. -/
def portsPast : State := waits idle 1 Op.worldSet ([2, 1, 0, 0] ++ leBytes 4 31 ++ leBytes 4 66)

/-- An ST_RESUME of a held station waits. -/
def resumes : State := waits ((restarting St.paused 0).set R.SMC_ST_STATE_HOLD 1 2) 0 Op.stResume [2]

/-- An ST_ABORT of station 2 waits, whose queue 0 holds a word. -/
def abortFlushes : State := waits ((timed.set R.QMX_Q_CFG_EN 1 0).set R.QMX_Q_STATUS_STATE 1 0 |>.setQueue 0 { d1 := [⟨7, false⟩], w1 := 1 }) 0 Op.stAbort [2]

/-- An ST_STAGE of EXP_DELAY 5 waits. -/
def stages : State := waits (timed.set R.LTU_ST_MAXRATE_RATE 200000 2) 0 Op.stStage ([2, 0] ++ leBytes 2 1 ++ leBytes 12 0 ++ leBytes 4 5)

/-- An ST_STAGE that drops the staged change waits. -/
def stageCancel : State := waits (timed.setStation 2 { k := 6, heads := [0], staged := some ⟨64, 1, [1]⟩ }) 0 Op.stStage [2, 1]

/-- An ST_DRAIN of a station whose last line is line 9 waits. -/
def drainNow : State := waits (timed.setLst 2 { next := 10, everCommitted := true }) 0 Op.stDrain [2]

/-- An ST_DRAIN with FINAL 10 waits. -/
def drainFinal : State := waits committed9 0 Op.stDrain ([2] ++ leBytes 7 0 ++ leBytes 6 10)

/-- An ST_ARM of station 2 waits. -/
def arms : State := waits armable 0 Op.stArm [2]

/-- An ST_DEFINE of station 2 with head 95 waits. -/
def defines : State := waits idle 0 Op.stDefine ([2, 1, 16, 0] ++ leBytes 12 (2 ^ 95))

/-- An ST_PAUSE of station 2 waits. -/
def pauses : State := waits (restarting St.scanning 0) 0 Op.stPause [2]

/-- A FAULT_CLEAR waits in FAULT of cause 2. -/
def clears : State := waits ((idle.set R.SMC_DEV_STATE_STATE Dev.fault).set R.SMC_FAULT_CAUSE 2) 0 Op.faultClear []

/-- An SVN_COMMIT of the Workbench waits. -/
def commitsWb : State := waits (idle.set R.SMC_FW_STATUS_WB_STATE 1) 1 Op.svnCommit [2]

/-- An SVN_COMMIT of a Cabinet that runs unverified waits. -/
def commitsUnverified : State := waits (idle.set R.SMC_POLICY_UNV_CAB 1) 1 Op.svnCommit [1]

/-- The member takes right columns for station 2. -/
def receives : State := ((member Ring.ring).set R.PCP_STC_ST_CTRL_RECV_RIGHT 1 2).set R.SMC_ST_STATE_STATE St.scanning 2

/-- Station 2 of the member is an armed ring station. -/
def ringArmed : State := ((member Ring.ring).set R.KRU_ST_CTRL_RING 1 2).set R.SMC_ST_STATE_STATE St.armed 2

/-- PERST_N is high. -/
def perstHigh : State := { idle with smc := { idle.smc with perst := true } }

/-- Four right columns of line 9. -/
def rightColumns : KFrame := frame 10 3 4 [BitVec.ofNat 64 (9 + 4 * 2 ^ 48), 0x0004000300020001]

/-- An ALIGN_REQ that agrees with station 2. -/
def alignReq : KFrame := frame 5 3 1 [1000, BitVec.ofNat 64 (6 * 2 ^ 48), BitVec.ofNat 64 ((member Ring.ring).get R.LTU_ST_RATIO_D 2)]

/-- Four urgent conversions wait. -/
def urgentFull : State := { urgent with mfe := { urg := [1, 2, 3, 4] } }

/-- Output 7 may be enabled. -/
def outReady : State := (idle.setS R.MFE_OUT_HI_HI 5 7).set R.MFE_OUT_F_F_A 1 7

/-! ### Hypotheses met

One theorem for each named part of the statements: the hypotheses of its clauses hold together at concrete operands and states. What
several clauses share stands once. -/

/-- A secure write reaches a register the boot does not hold. -/
theorem reaches_secure {s : State} {id : RegId} {i j : Nat}
    (h : (match id.desc? with | some r => !s.held && !s.bootHeld (r.addr i j) | none => false) = true) : Reaches s .secure id i j := by
  unfold Reaches
  split at h
  · rename_i r hr
    simp only [Bool.and_eq_true, Bool.not_eq_true'] at h
    exact ⟨r, hr, h.1, h.2, .inl rfl⟩
  · cases h

theorem frame_in {s u : State} {l kind : Nat} {k : KFrame} {b : Bool}
    (h : (s.ahead l k.ctl).laneOpen l (if kind = FType.auth then KPort.auth else KPort.up) = true ∧ k.ftype = kind ∧
      ((s.ahead l k.ctl).kelimTake l k).1 = true ∧ b = true ∧
      (k.head.ret = false ∨ ((s.ahead l k.ctl).kelimTake l k).2.kUp 1 = false))
    (hu : u = ((s.ahead l k.ctl).kelimTake l k).2) : FrameIn s l k kind b u :=
  ⟨h.1, h.2.1, h.2.2.1, h.2.2.2.1, h.2.2.2.2, hu⟩

theorem delivered_all {u v : State} {k : KFrame} {kind : Nat} {ws : List Nat} (h : k.head.dst = broadcast ∧ ¬ (k.head.src = u.kId ∧ u.kId ≠ 0))
    (hv : v = u.ringOut kind { k.head with ret := false } ws) : Delivered u k kind ws v := .inl ⟨h.1, h.2, hv⟩

theorem delivered_one {u v : State} {k : KFrame} {kind : Nat} {ws : List Nat} (h : k.head.dst ≠ broadcast ∧ k.head.dst = u.kId ∧ u.kId ≠ 0)
    (hv : v = u) : Delivered u k kind ws v := .inr ⟨h.1, h.2.1, h.2.2, hv⟩

theorem left_of {s : State} {c : Nat} (h : (match s.findWork c with | .bandEnd _ => true | _ => false) = true) :
    s.findWork c = .bandEnd (bandEndOf s c) := by
  unfold bandEndOf
  split at h
  · rename_i u hu
    rw [hu]
  · cases h

theorem two_of {α : Type} {x y : α} {p : α → Prop} (h : p x ∧ p y) : ∀ c, c ∈ [x, y] → p c := by
  intro c hc
  simp only [List.mem_cons, List.not_mem_nil, or_false] at hc
  rcases hc with rfl | rfl
  · exact h.1
  · exact h.2

theorem opt_of {α : Type} {o : Option α} {p : α → Prop} [DecidablePred p]
    (h : (match o with | some a => decide (p a) | none => true) = true) : ∀ x, o = some x → p x := by
  intro x hx
  subst hx
  exact of_decide_eq_true h

theorem pair_of {α β : Type} {o : Option (α × β)} {p : α → β → Prop} [∀ a b, Decidable (p a b)]
    (h : (match o with | some x => decide (p x.1 x.2) | none => true) = true) : ∀ a b, o = some (a, b) → p a b := by
  intro a b hx
  subst hx
  exact of_decide_eq_true h

theorem none_of {α : Type} {o : Option α} {p : α → Prop} (h : o = none) : ∀ g, o = some g → p g := by
  intro g hg
  rw [h] at hg
  cases hg

theorem witness_step_runs_the_front_command :
    (queued.pending = [Instr.refclkLoss]) ∧ (idle.pending = []) := by decide +kernel

theorem witness_every_step_goes_on :
    (queued.pending = [Instr.refclkLoss]) := by decide +kernel

theorem witness_every_step_keeps_the_stores :
    (idle.memoryOk) ∧ (idle.registersOk) ∧ (step idle = Host.Outcome.next idle) :=
  ⟨by unfold State.memoryOk; decide +kernel, by unfold State.registersOk; decide +kernel, rfl⟩

theorem witness_only_storing_writes_the_scan_store :
    (exec Instr.refclkLoss idle = Host.Outcome.next idle) ∧ (writesStore Instr.refclkLoss = false) :=
  ⟨rfl, by decide +kernel⟩

theorem witness_only_these_write_the_leaf_window :
    (exec Instr.refclkLoss idle = Host.Outcome.next idle) ∧ (writesLeaves Instr.refclkLoss = false) :=
  ⟨rfl, by decide +kernel⟩

theorem witness_only_these_write_mailbox_entries :
    (exec Instr.refclkLoss idle = Host.Outcome.next idle) ∧ (writesMailbox Instr.refclkLoss = false) :=
  ⟨rfl, by decide +kernel⟩

theorem witness_wrong_world_writes_are_discarded :
    (target (Instr.queueFlush World.nonSecure 288) = some (World.nonSecure, RegId.QMX_Q_CMD.addr 288)) ∧
    (World.nonSecure ≠ World.secure) ∧ (secured.held = false) ∧ (secured.addrWorld (RegId.QMX_Q_CMD.addr 288) = World.secure) ∧
    (target (Instr.kruCfgWrite World.nonSecure 0) = some (World.nonSecure, RegId.KRU_CFG.addr)) ∧
    (secured.addrWorld RegId.KRU_CFG.addr = World.secure) ∧
    (target (Instr.registerWrite World.workbench 1048576 0) = some (World.workbench, 4194304)) ∧ (World.workbench ≠ World.secure) ∧
    (secured.addrWorld 4194304 = World.secure) := by decide +kernel

theorem witness_boot_discards_writes :
    (target (Instr.registerWrite World.secure 262144 0) = some (World.secure, 1048576)) ∧ (1048576 ≤ 1048576) ∧ (booting.held = false) ∧
    (booting.booted = false) ∧
    (World.secure = World.secure ∨ booting.addrWorld 1048576 = World.nonSecure ∧ hasSecureFields (Instr.registerWrite World.secure 262144
      0) = false) ∧ (target (Instr.queueFlush World.secure 288) = some (World.secure, RegId.QMX_Q_CMD.addr 288)) ∧
    (1048576 ≤ RegId.QMX_Q_CMD.addr 288) ∧
    (World.secure = World.secure ∨ booting.addrWorld (RegId.QMX_Q_CMD.addr 288) = World.nonSecure ∧ hasSecureFields (Instr.queueFlush
      World.secure 288) = false) ∧ (target (Instr.hlfCtrlWrite World.nonSecure 1) = some (World.nonSecure, RegId.HLF_CTRL.addr)) ∧
    (1048576 ≤ RegId.HLF_CTRL.addr) ∧
    (World.nonSecure = World.secure ∨ booting.addrWorld RegId.HLF_CTRL.addr = World.nonSecure ∧ hasSecureFields (Instr.hlfCtrlWrite
      World.nonSecure 1) = false) ∧
    (target (Instr.thmThresholdWrite World.nonSecure 1 0) = some (World.nonSecure, RegId.THM_THR_THROT.addr)) ∧
    (World.nonSecure ≠ World.secure) ∧ (1048576 ≤ RegId.THM_THR_THROT.addr) ∧
    (hasSecureFields (Instr.thmThresholdWrite World.nonSecure 1 0) = true) := by decide +kernel

theorem witness_pace_window_end :
    (idle.pace.discard = false) ∧ (0 < 17) ∧ (paced.winBusy 0 = 0 ∨ 100 * paced.winBusy 0 < paced.available 0) ∧ (3 < 17) ∧
    (¬(paced.winBusy 3 = 0 ∨ 100 * paced.winBusy 3 < paced.available 3)) ∧ (16 < 17) ∧
    (¬(paced.winBusy 16 = 0 ∨ 100 * paced.winBusy 16 < paced.available 16)) := by decide +kernel

theorem witness_voltage_and_bus_waits :
    (fitting.pace.holdLeft = 1) ∧ (fitting.get R.SMC_VFIT_STATUS_STATE = 3) ∧ (fitting.pace.waits = [VWait.stage 0]) ∧
    (fitting.pace.discard = false) ∧ (within 860 (fitting.get R.SMC_VFIT_LIMITS_VMAX) 10 = true) ∧ (1 ≠ 0) ∧ (idle.held = false) ∧
    (idle.pace.waits = []) ∧ (idle.on R.SMC_VFIT_CTRL_EN = false) ∧ (fitted.pace.waits = [] ∨ fitted.pace.waits = [VWait.boot]) ∧
    (fitted.held = false) ∧ (fitted.on R.SMC_VFIT_CTRL_EN = true) ∧
    ((vcoreStage.set R.SMC_VFIT_CTRL_EN 1).pace.waits = [] ∨ (vcoreStage.set R.SMC_VFIT_CTRL_EN 1).pace.waits = [VWait.boot]) ∧
    ((vcoreStage.set R.SMC_VFIT_CTRL_EN 1).held = false) ∧ ((vcoreStage.set R.SMC_VFIT_CTRL_EN 1).on R.SMC_VFIT_CTRL_EN = true) := by decide +kernel

theorem witness_admission_check :
    ((idle.admission (fun n => n == 2) (fun _ => 1000) [(5, 2, 100)] none).fst = true) ∧
    ((idle.admission (fun n => n == 2) (fun _ => 1000000) [(5, 2, 1000000)] none).fst = false) ∧
    ((idle.coreLoad (fun n => n == 2) fun _ => 1000000) * 80000 ≤ baseP * phi5000 ((if idle.on R.SMC_VFIT_CTRL_EN = true then idle.get
      R.SMC_VFIT_LIMITS_VMAX else idle.get R.SMC_VFIT_STATUS_VSET) - idle.get R.SMC_VFIT_CTRL_GUARD) * (16 - (some 15).getD (idle.get
      R.THM_STATUS_LEVEL))) ∧ ((37, 2, 1000000) ∈ [(37, 2, 1000000)]) ∧
    (¬(((37, 2, 1000000).snd.fst == 2) = true → (37, 2, 1000000).snd.snd * 1000000 * 80000 ≤ baseE * phi5000 ((if idle.on
      R.SMC_VFIT_CTRL_EN = true then idle.get R.SMC_VFIT_LIMITS_VMAX else idle.get R.SMC_VFIT_STATUS_VSET) - idle.get
      R.SMC_VFIT_CTRL_GUARD) * (16 - (some 15).getD (idle.get R.THM_STATUS_LEVEL)))) ∧ ((37, 2, 1000000).fst < 512) ∧
    (∀ (x : Nat × Nat × Nat), x ∈ [(37, 2, 1000000)] → ¬((x.snd.fst == 2) = true → x.snd.snd * 1000000 * 80000 ≤ baseE * phi5000 ((if
      idle.on R.SMC_VFIT_CTRL_EN = true then idle.get R.SMC_VFIT_LIMITS_VMAX else idle.get R.SMC_VFIT_STATUS_VSET) - idle.get
      R.SMC_VFIT_CTRL_GUARD) * (16 - (some 15).getD (idle.get R.THM_STATUS_LEVEL))) → (37, 2, 1000000).fst ≤ x.fst) ∧
    (¬(armedHeavy.coreLoad (fun n => n == 2) fun _ => 1000000000) * 80000 ≤ baseP * phi5000 ((if armedHeavy.on R.SMC_VFIT_CTRL_EN = true
      then armedHeavy.get R.SMC_VFIT_LIMITS_VMAX else armedHeavy.get R.SMC_VFIT_STATUS_VSET) - armedHeavy.get R.SMC_VFIT_CTRL_GUARD) * (16
      - none.getD (armedHeavy.get R.THM_STATUS_LEVEL))) ∧ (649 < 650) ∧ (950 < 951) ∧ (5 < 6) ∧ (50 ≤ 50) ∧ (0 < 6) ∧ (0 ≤ 50) := by decide +kernel

theorem witness_fitting_register_writes :
    (Reaches idle World.secure RegId.SMC_VFIT_CTRL 0 0) ∧ (ctrlLegal 16849153) ∧ (Reaches fitted World.secure RegId.SMC_VFIT_CTRL 0 0) ∧
    (ctrlLegal 69376) ∧ (ctrlLegal 839129345) ∧ (Reaches (idle.set R.SMC_PMB_STATUS_MODE_ERR 1) World.secure RegId.SMC_VFIT_CTRL 0 0) ∧
    (Reaches idle World.secure RegId.SMC_VFIT_LIMITS 0 0) ∧ (limitsLegal 62259850) ∧ (¬ctrlLegal 16844545) ∧ (¬limitsLegal 62325386) ∧
    ((idle.on R.SMC_VFIT_CTRL_EN = false) ∧ (bits 16849153 0 1 = 1) ∧ (idle.on R.SMC_PMB_STATUS_MODE_ERR = false) ∧
    (fitted.on R.SMC_VFIT_CTRL_EN = true) ∧ (bits 69376 0 1 = 0) ∧ (bits 839129345 0 1 = 1) ∧
    (fitted.on R.SMC_PMB_STATUS_MODE_ERR = false) ∧ ((idle.set R.SMC_PMB_STATUS_MODE_ERR 1).on R.SMC_PMB_STATUS_MODE_ERR = true) ∧
    (idle.held = false) ∧ (World.workbench ≠ World.secure) ∧ (idle.on R.SMC_PMB_CFG_PAGE_EN = false) ∧
    ((idle.set R.SMC_PMB_CFG_PAGE_EN 1).on R.SMC_PMB_CFG_PAGE_EN = true)) :=
  ⟨reaches_secure (by decide +kernel), by unfold ctrlLegal; decide +kernel, reaches_secure (by decide +kernel),
  by unfold ctrlLegal; decide +kernel, by unfold ctrlLegal; decide +kernel, reaches_secure (by decide +kernel),
  reaches_secure (by decide +kernel), by unfold limitsLegal; decide +kernel, by unfold ctrlLegal; decide +kernel,
  by unfold limitsLegal; decide +kernel, by decide +kernel⟩

theorem witness_head_packets_accepted :
    (Accepts linked 0 0 (packet 0 (2 * 2 ^ 42) [5#64])) ∧ (Accepts linked 0 1 (cap 32 33)) ∧ (Accepts linked 0 3 (packet 0 771 [9#64])) ∧
    (Accepts asked 0 2 (packet 0 (2 + 7 * 2 ^ 32) [9#64])) ∧ ((linked.portState (0 / 2) ≠ Port.discover) ∧
    (asked.hlf.cfgReq = some { tag := 7 : CfgReq }) ∧ ({ tag := 7 : CfgReq }.port = asked.headOfLane 0) ∧
    ({ tag := 7 : CfgReq }.sent = true) ∧ ({ tag := 7 : CfgReq }.tag = bits 30064771074 32 8)) :=
  ⟨by unfold Accepts; decide +kernel, by unfold Accepts; decide +kernel, by unfold Accepts; decide +kernel,
  by unfold Accepts; decide +kernel, by decide +kernel⟩

theorem witness_wrong_seq_is_naked :
    (linked.on R.HLF_LANE_STATUS_ACTIVE = true) ∧ (linked.replays 0 = true) ∧ ((packet 1 1 [9#64, 0#64, 0#64, 0#64]).crcOk = true) ∧
    (1 ≠ (linked.lane 0).exp) ∧ ((linked.lane 0).nak = false) ∧ (linked.portState (0 / 2) ≠ Port.discover) ∧
    (linked.get R.HLF_LANE_CREDIT_OCCUPIED + (packet 1 1 [9#64, 0#64, 0#64, 0#64]).cost ≤ 4096) ∧
    ((Instr.capPacketRx 0 (packet 1 1 [9#64, 0#64, 0#64, 0#64]), 1) ∈ [(Instr.pixelPacketRx 0 (packet 1 1 [9#64, 0#64, 0#64, 0#64]), 0),
      (Instr.capPacketRx 0 (packet 1 1 [9#64, 0#64, 0#64, 0#64]), 1), (Instr.cfgRespRx 0 (packet 1 1 [9#64, 0#64, 0#64, 0#64]), 2),
      (Instr.headEventRx 0 (packet 1 1 [9#64, 0#64, 0#64, 0#64]), 3)]) ∧
    ((packet 1 1 [9#64, 0#64, 0#64, 0#64]).formOk (Instr.capPacketRx 0 (packet 1 1 [9#64, 0#64, 0#64, 0#64]), 1).snd = true) := by decide +kernel

theorem witness_discovery_cap :
    (0 = 2 * 0) ∧ ((port Port.discover).portState 0 = Port.discover) ∧ ((cap 48 64).formOk 1 = true) ∧ ((cap 48 64).crcOk = true) ∧
    (pickVersion (capField (cap 48 64).data 1 0 8) (capField (cap 48 64).data 1 8 8) ((port Port.discover).get R.HLF_PORT_CTRL_VER_MAX)
      ((port Port.discover).on R.HLF_CTRL_LEGACY_EN) = none) ∧ ((cap 32 33).formOk 1 = true) ∧ ((cap 32 33).crcOk = true) ∧
    (pickVersion (capField (cap 32 33).data 1 0 8) (capField (cap 32 33).data 1 8 8) ((port Port.discover).get R.HLF_PORT_CTRL_VER_MAX)
      ((port Port.discover).on R.HLF_CTRL_LEGACY_EN) = some 33) ∧ (((port Port.discover).head 0).keepMode = false) ∧
    (((port Port.discover).returnCredits 0 (cap 32 33).cost).candidates 0 33 (capField (cap 32 33).data 1 16 4) (capField (cap 32 33).data
      1 20 4) = [(1, 3), (1, 2), (1, 1)]) := by decide +kernel

theorem witness_head_training :
    ((port Port.switch).portState ((port Port.switch).headOfLane 0) = Port.switch) ∧
    (((port Port.switch).head ((port Port.switch).headOfLane 0)).modeOk = false) ∧ (0 = 2 * (port Port.switch).headOfLane 0) ∧
    ({ pending := (port Port.down).pending, regs := (port Port.down).regs, hold := (port Port.down).hold, out := (port Port.down).out, fresh := (port Port.down).fresh, due := (port Port.down).due, hbm := (port Port.down).hbm, leaf := (port Port.down).leaf, mbox := (port Port.down).mbox, qmx := (port Port.down).qmx, store := (port Port.down).store, eng := (port Port.down).eng, pace := (port Port.down).pace, hlf := (port Port.down).hlf, ltu := (port Port.down).ltu, pcp := (port Port.down).pcp, ttc := (port Port.down).ttc, ilc := (port Port.down).ilc, scu := (port Port.down).scu, seals := (port Port.down).seals, stations := (port Port.down).stations, smc := { ring := idle.smc.ring, order := idle.smc.order, meas := idle.smc.meas, resetDue := idle.smc.resetDue, cabSvn := idle.smc.cabSvn, wbSvn := idle.smc.wbSvn, kek := idle.smc.kek, cabWb := idle.smc.cabWb, flashSize := idle.smc.flashSize, hbmOk := idle.smc.hbmOk, wbOk := idle.smc.wbOk, hbmRun := idle.smc.hbmRun, wbRun := idle.smc.wbRun, perst := idle.smc.perst, cabRuns := idle.smc.cabRuns, hbmRefresh := idle.smc.hbmRefresh, refGone := [0] : Smc }, kru := (port Port.down).kru, hif := (port Port.down).hif, mfe := (port Port.down).mfe, thm := (port Port.down).thm : State }.refRuns
      (0 / 48) = false) ∧ ((port Port.down).refRuns (0 / 48) = true) ∧ (((port Port.down).lane 0).k8 = true) ∧
    (boundary (List.map (fun x => x.toNat) [444#9 - 1]) = none) ∧ (boundary (List.map (fun x => x.toNat) [5#9, 444#9]) = some 1) ∧
    (0 = 2 * 0) ∧ ((port Port.down).portState 0 = Port.down) ∧ (((port Port.down).head 0).retry = false) ∧
    ((port Port.down).on R.HLF_CTRL_EN = true) ∧ ((port Port.down).on R.HLF_PORT_CTRL_EN = true) ∧
    ((port Port.down).isFirstPort 0 = true) ∧ ((port Port.prbs).portState ((port Port.prbs).headOfLane 0) = Port.prbs) ∧
    ((port Port.discover).portState 0 = Port.discover) ∧ (((port Port.down).setHead 0 { retry := true : Head }).portState 0 = Port.down) ∧
    ((((port Port.down).setHead 0 { retry := true : Head }).head 0).retry = true) ∧
    (((port Port.down).setHead 0 { retry := true : Head }).mayDiscover 0 = true) ∧ ((port Port.switch).portState 0 = Port.switch) ∧
    (linked.portActive 0 = true) := by decide +kernel

theorem witness_echo_measures_delay :
    ((echoing.lane 0).echo = some (5, 0)) ∧ (echoing.portState (echoing.headOfLane 0) = Port.delay) ∧
    ((echoing.head (echoing.headOfLane 0)).cand = some (1, 1)) ∧ (echoing.on R.HLF_LANE_STATUS_RETRAINING = false) ∧
    (2000000000 < roundDiv ({ trip := 20002 : EchoTrip }.trip - 0) 2 * (blockFs 1 / 64)) ∧
    (roundDiv ({ trip := 20000 : EchoTrip }.trip - 0) 2 * (blockFs 1 / 64) ≤ 2000000000) ∧
    (((((linked.setHead 0 { version := 32 : Head }).setLane 0 { echo := some (5, 0), k8 := false : Lane }).set
      R.HLF_LANE_STATUS_RETRAINING 1).lane 0).echo = some (5, 0)) ∧
    ((((linked.setHead 0 { version := 32 : Head }).setLane 0 { echo := some (5, 0), k8 := false : Lane }).set R.HLF_LANE_STATUS_RETRAINING
      1).portState ((((linked.setHead 0 { version := 32 : Head }).setLane 0 { echo := some (5, 0), k8 := false : Lane }).set
      R.HLF_LANE_STATUS_RETRAINING 1).headOfLane 0) = Port.active) ∧
    (((((linked.setHead 0 { version := 32 : Head }).setLane 0 { echo := some (5, 0), k8 := false : Lane }).set
      R.HLF_LANE_STATUS_RETRAINING 1).head ((((linked.setHead 0 { version := 32 : Head }).setLane 0
      { echo := some (5, 0), k8 := false : Lane }).set R.HLF_LANE_STATUS_RETRAINING 1).headOfLane 0)).cand = none) ∧
    ((((linked.setHead 0 { version := 32 : Head }).setLane 0 { echo := some (5, 0), k8 := false : Lane }).set R.HLF_LANE_STATUS_RETRAINING
      1).on R.HLF_LANE_STATUS_RETRAINING = true) ∧
    (roundDiv ({ trip := 20000 : EchoTrip }.trip - 0) 2 * (blockFs ((((linked.setHead 0 { version := 32 : Head }).setLane 0
      { echo := some (5, 0), k8 := false : Lane }).set R.HLF_LANE_STATUS_RETRAINING 1).get R.HLF_PORT_MODE_RATE ((((linked.setHead 0
      { version := 32 : Head }).setLane 0 { echo := some (5, 0), k8 := false : Lane }).set R.HLF_LANE_STATUS_RETRAINING 1).headOfLane 0))
      / 64) ≤ 2000000000) := by decide +kernel

theorem witness_head_lane_upkeep :
    ((linked.set R.HLF_LANE_STATUS_RETRAINING 1).on R.HLF_LANE_STATUS_RETRAINING = true) ∧
    ((linked.set R.HLF_LANE_AUDIT_RESYNC 1).on R.HLF_LANE_AUDIT_RESYNC = true) ∧ (Blk.known (linked.lane 0).k8 18 = false) ∧
    (linked.on R.HLF_LANE_STATUS_ACTIVE = true) ∧ ((linked.lane 0).buf = []) ∧ (overdue.overdueLine 0 = some 4) := by decide +kernel

theorem witness_credit_audit :
    (linked.on R.HLF_LANE_AUDIT_RESYNC = false) ∧ (linked.on R.HLF_LANE_STATUS_ACTIVE = true) ∧
    (false = true → linked.portState (linked.headOfLane 0) ≠ Port.credit) ∧
    (4096 - ↑(4095 + (linked.get R.HLF_LANE_CREDIT_RETURNED + 65536 - 0) % 65536 + linked.get R.HLF_LANE_CREDIT_OCCUPIED) ≠ 0) ∧
    (4096 - ↑(4096 + (linked.get R.HLF_LANE_CREDIT_RETURNED + 65536 - 0) % 65536 + linked.get R.HLF_LANE_CREDIT_OCCUPIED) = 0) ∧
    ((judged linked).anyCreditBad = false) ∧ ((linked.set R.HLF_LANE_CREDIT_OCCUPIED 4096).on R.HLF_LANE_AUDIT_RESYNC = false) ∧
    ((linked.set R.HLF_LANE_CREDIT_OCCUPIED 4096).on R.HLF_LANE_STATUS_ACTIVE = true) ∧
    (false = true → (linked.set R.HLF_LANE_CREDIT_OCCUPIED 4096).portState ((linked.set R.HLF_LANE_CREDIT_OCCUPIED 4096).headOfLane 0) ≠
      Port.credit) ∧ (4096 < (linked.set R.HLF_LANE_CREDIT_OCCUPIED 4096).get R.HLF_LANE_CREDIT_OCCUPIED + (packet 0 771 [9#64]).cost) ∧
    ((linked.set R.HLF_LANE_CREDIT_OCCUPIED 4096).portState (0 / 2) ≠ Port.discover) ∧
    (Instr.headEventRx 0 (packet 0 771 [9#64]) ∈ [Instr.pixelPacketRx 0 (packet 0 771 [9#64]), Instr.capPacketRx 0 (packet 0 771 [9#64]),
      Instr.cfgRespRx 0 (packet 0 771 [9#64]), Instr.headEventRx 0 (packet 0 771 [9#64])]) ∧
    ((linked.setLane 1 { auditBad := true : Lane }).on R.HLF_LANE_AUDIT_RESYNC = false) ∧
    ((linked.setLane 1 { auditBad := true : Lane }).on R.HLF_LANE_STATUS_ACTIVE = true) ∧
    (false = true → (linked.setLane 1 { auditBad := true : Lane }).portState ((linked.setLane 1 { auditBad := true : Lane }).headOfLane 0)
      ≠ Port.credit) ∧
    (4096 - ↑(4096 + ((linked.setLane 1 { auditBad := true : Lane }).get R.HLF_LANE_CREDIT_RETURNED + 65536 - 0) % 65536 + (linked.setLane
      1 { auditBad := true : Lane }).get R.HLF_LANE_CREDIT_OCCUPIED) = 0) ∧
    ((judged (linked.setLane 1 { auditBad := true : Lane })).anyCreditBad = true) := by decide +kernel

theorem witness_lanes_retrain :
    (0 < 192) ∧ (linked.headOfLane 0 < 96) ∧
    (0 ∈ linked.heldLanes (linked.headOfLane 0) ∧ (linked.portState (linked.headOfLane 0) = Port.active ∨ linked.portState
      (linked.headOfLane 0) = Port.retrain ∧ (linked.head (linked.headOfLane 0)).renew = false ∨ linked.portState (linked.headOfLane 0) =
      Port.credit ∧ (linked.on R.HLF_LANE_STATUS_ACTIVE = true ∨ linked.on R.HLF_LANE_STATUS_RETRAINING = true))) ∧ (1 < 192) ∧
    (linked.headOfLane 1 < 96) ∧
    (¬(1 ∈ linked.heldLanes (linked.headOfLane 1) ∧ (linked.portState (linked.headOfLane 1) = Port.active ∨ linked.portState
      (linked.headOfLane 1) = Port.retrain ∧ (linked.head (linked.headOfLane 1)).renew = false ∨ linked.portState (linked.headOfLane 1) =
      Port.credit ∧ (linked.on R.HLF_LANE_STATUS_ACTIVE 1 = true ∨ linked.on R.HLF_LANE_STATUS_RETRAINING 1 = true)))) ∧
    (¬1 ∈ linked.heldLanes (linked.headOfLane 1)) ∧
    (0 ∈ (linked.set R.HLF_LANE_AUDIT_RESYNC 1).heldLanes ((linked.set R.HLF_LANE_AUDIT_RESYNC 1).headOfLane 0)) ∧
    ((linked.set R.HLF_LANE_AUDIT_RESYNC 1).portState ((linked.set R.HLF_LANE_AUDIT_RESYNC 1).headOfLane 0) = Port.active) := by decide +kernel

theorem witness_head_link_registers :
    (Reaches idle World.secure RegId.HLF_CTRL 0 0) ∧ (Reaches (port 1) World.secure RegId.HLF_CTRL 0 0) ∧
    (Reaches idle World.secure RegId.HLF_PORT_CTRL 95 0) ∧ (Reaches armedHead World.secure RegId.HLF_PORT_CTRL 0 0) ∧
    (Reaches echoing World.secure RegId.HLF_PORT_CTRL 0 0) ∧ (Reaches asked World.secure RegId.HLF_CFG_CMD 0 0) ∧
    (Reaches linked World.secure RegId.HLF_CFG_CMD 0 0) ∧ (Reaches idle World.secure RegId.HLF_CFG_CMD 0 0) ∧ ((bit 16777217 24 = true) ∧
    (armedHead.stationOfHead (armedHead.get R.HLF_PORT_STATE_PRIMARY) = some 2) ∧ (armedHead.stBusy 2 = true) ∧
    (echoing.stationOfHead (echoing.get R.HLF_PORT_STATE_PRIMARY) = some 2) ∧ (echoing.stBusy 2 = false) ∧
    (((wrote echoing World.secure RegId.HLF_PORT_CTRL 0 0 16777217).portEnable 0).on R.HLF_PORT_CTRL_EN = true) ∧ (bit 1 0 = true) ∧
    (asked.on R.HLF_CFG_CMD_BUSY = true) ∧ (linked.on R.HLF_CFG_CMD_BUSY = false) ∧
    ((wrote linked World.secure RegId.HLF_CFG_CMD 0 0 1).portActive ((wrote linked World.secure RegId.HLF_CFG_CMD 0 0 1).get
      R.HLF_CFG_ADDR_PORT) = true) ∧ ((wrote linked World.secure RegId.HLF_CFG_CMD 0 0 1).get R.HLF_CFG_ADDR_PORT < 96) ∧
    ((linked.head ((wrote linked World.secure RegId.HLF_CFG_CMD 0 0 1).get R.HLF_CFG_ADDR_PORT)).ask = none) ∧
    (idle.on R.HLF_CFG_CMD_BUSY = false) ∧
    ((wrote idle World.secure RegId.HLF_CFG_CMD 0 0 1).portActive ((wrote idle World.secure RegId.HLF_CFG_CMD 0 0 1).get
      R.HLF_CFG_ADDR_PORT) = false) ∧ (asked.hlf.cfgReq = some { tag := 7 : CfgReq })) :=
  ⟨reaches_secure (by decide +kernel), reaches_secure (by decide +kernel), reaches_secure (by decide +kernel),
  reaches_secure (by decide +kernel), reaches_secure (by decide +kernel), reaches_secure (by decide +kernel),
  reaches_secure (by decide +kernel), reaches_secure (by decide +kernel), by decide +kernel⟩

theorem witness_timebase :
    (Reaches points World.secure RegId.LTU_TCOMP_CTRL 0 0) ∧
    (Reaches (points.set R.LTU_TCOMP_PT_TEMP 0 7) World.secure RegId.LTU_TCOMP_CTRL 0 0) ∧ ((timed.on R.LTU_CTRL_EN = true) ∧
    (timed.ltu.refLost = false) ∧ (timed.on R.LTU_TCOMP_CTRL_EN = false) ∧
    (((points.set R.LTU_TCOMP_CTRL_EN 1).set R.THM_SNS_FAILED 1).on R.LTU_TCOMP_CTRL_EN = true) ∧
    (((points.set R.LTU_TCOMP_CTRL_EN 1).set R.THM_SNS_FAILED 1).on R.THM_SNS_FAILED (((points.set R.LTU_TCOMP_CTRL_EN 1).set
      R.THM_SNS_FAILED 1).get R.LTU_TCOMP_CTRL_SENSOR) = true) ∧ ((points.set R.LTU_TCOMP_CTRL_EN 1).on R.LTU_TCOMP_CTRL_EN = true) ∧
    ((points.set R.LTU_TCOMP_CTRL_EN 1).on R.THM_SNS_FAILED ((points.set R.LTU_TCOMP_CTRL_EN 1).get R.LTU_TCOMP_CTRL_SENSOR) = false) ∧
    ((decide (23 < R.LTU_TCOMP_CTRL_SENSOR.of 256) || decide (R.LTU_TCOMP_CTRL_EN.of 256 = 1) && !points.tcompAscending) = false) ∧
    ((decide (23 < R.LTU_TCOMP_CTRL_SENSOR.of 256) || decide (R.LTU_TCOMP_CTRL_EN.of 256 = 1) && !(points.set R.LTU_TCOMP_PT_TEMP 0
      7).tcompAscending) = true)) :=
  ⟨reaches_secure (by decide +kernel), reaches_secure (by decide +kernel), by decide +kernel⟩

theorem witness_encoder_edges :
    (((timed.enc 0).pinA.sample (timed.get R.LTU_ENC_CFG_MAJ) (timed.glitch 0) false 5).fst = none) ∧
    (((timed.enc 0).pinB.sample (timed.get R.LTU_ENC_CFG_MAJ) (timed.glitch 0) false 5).fst = none) ∧
    (((timed.enc 0).pinA.sample (timed.get R.LTU_ENC_CFG_MAJ) (timed.glitch 0) true 5).fst = some (5, 0)) ∧
    (((timed.enc 3).pinA.sample (timed.get R.LTU_ENC_CFG_MAJ 3) (timed.glitch 3) false 5).fst = none) ∧
    (((timed.enc 3).pinB.sample (timed.get R.LTU_ENC_CFG_MAJ 3) (timed.glitch 3) true 5).fst = some (5, 0)) ∧
    (((timed.enc 0).pinB.sample (timed.get R.LTU_ENC_CFG_MAJ) (timed.glitch 0) true 5).fst = some (5, 0)) ∧
    ({ : Pin }.out = { : Pin }.level) ∧ (true ≠ { : Pin }.level) ∧ (false = { : Pin }.level) ∧
    ({ out := true, since := 3, hold := 2 : Pin }.out ≠ { out := true, since := 3, hold := 2 : Pin }.level) ∧
    ({ out := true, since := 3, hold := 2 : Pin }.since + { out := true, since := 3, hold := 2 : Pin }.hold ≤ 5) ∧
    ((timed.enc 0).a ≠ true) ∧ ((timed.enc 0).b ≠ true) ∧ (¬((timed.enc 0).a = true ↔ (timed.enc 0).b = false)) ∧
    (¬(((timed.set R.LTU_ENC_CFG_INVERT 1).enc 3).a = false ↔ ((timed.set R.LTU_ENC_CFG_INVERT 1).enc 3).b = true)) ∧
    ((((timed.set R.LTU_ENC_CFG_Z_EN 1).enc 0).pinZ.sample ((timed.set R.LTU_ENC_CFG_Z_EN 1).get R.LTU_ENC_CFG_MAJ) ((timed.set
      R.LTU_ENC_CFG_Z_EN 1).glitch 0) true 5).fst = some (5, 0)) ∧
    ((((timed.set R.LTU_ENC_CFG_Z_EN 1).enc 0).pinZ.sample ((timed.set R.LTU_ENC_CFG_Z_EN 1).get R.LTU_ENC_CFG_MAJ) ((timed.set
      R.LTU_ENC_CFG_Z_EN 1).glitch 0) true 5).snd.level = true) ∧ ((timed.set R.LTU_ENC_CFG_Z_EN 1).on R.LTU_ENC_CFG_Z_EN = true) ∧
    (((timed.enc 0).pinZ.sample (timed.get R.LTU_ENC_CFG_MAJ) (timed.glitch 0) true 5).fst = none ∨ ((timed.enc 0).pinZ.sample (timed.get
      R.LTU_ENC_CFG_MAJ) (timed.glitch 0) true 5).snd.level = false ∨ timed.on R.LTU_ENC_CFG_Z_EN = false) := by decide +kernel

theorem witness_line_commit :
    (timed.stState 2 = St.scanning) ∧ (timed.nextInstant 2 0 = some ↑(timed.lead 2)) ∧ (↑(timed.lead 2) ≤ 0 + ↑(timed.lead 2)) ∧
    ((timed.commitLine 2 (0 + ↑(timed.lead 2)) 0).fst = false) ∧ ((hosted.set R.LTU_ST_HOSTTRIG_PENDING 0 2).stState 2 = St.scanning) ∧
    ((hosted.set R.LTU_ST_HOSTTRIG_PENDING 0 2).nextInstant 2 0 = none ∨ (hosted.set R.LTU_ST_HOSTTRIG_PENDING 0 2).nextInstant 2 0 = some
      0 ∧ 0 + ↑((hosted.set R.LTU_ST_HOSTTRIG_PENDING 0 2).lead 2) < 0) ∧ (descFull.stState 2 = St.scanning) ∧
    (descFull.nextInstant 2 0 = some ↑(descFull.lead 2)) ∧ (↑(descFull.lead 2) ≤ 0 + ↑(descFull.lead 2)) ∧
    ((descFull.commitLine 2 (0 + ↑(descFull.lead 2)) 0).fst = true) := by decide +kernel

theorem witness_line_trigger :
    ((committed9.lst 2).committed = [{ n := 9, t := 100, ss := 200, ee := 900, qq := 900 : CLine }]) ∧ ((timed.station 2).heads = [0]) ∧
    ((timed.headLine 0 9).closed = false) ∧ (((timed.setHeadLine 0 9 { closed := true : HeadLine }).station 2).heads = [0]) ∧
    (((timed.setHeadLine 0 9 { closed := true : HeadLine }).headLine 0 9).closed = true) ∧ ((timed.lst 2).committed = []) := by decide +kernel

theorem witness_host_trigger_and_match :
    (Reaches hosted World.secure RegId.LTU_ST_HOSTTRIG 2 0) ∧ (Reaches timed World.secure RegId.LTU_ST_HOSTTRIG 2 0) ∧
    (Reaches backing World.secure RegId.LTU_ST_MATCH_CFG 2 0) ∧ (Reaches timed World.secure RegId.LTU_ST_MATCH_CFG 2 0) ∧
    (Reaches (backing.set R.LTU_ST_CTRL_SRC 1 2) World.secure RegId.LTU_ST_MATCH_CFG 2 0) ∧ ((R.LTU_ST_HOSTTRIG_COUNT.of 65534 ≠ 0) ∧
    (hosted.get R.LTU_ST_HOSTTRIG_PENDING 2 + R.LTU_ST_HOSTTRIG_COUNT.of 65534 ≤ 65535) ∧ (hosted.get R.LTU_ST_CTRL_SRC 2 = 2) ∧
    (hosted.stState 2 = St.scanning) ∧ (R.LTU_ST_HOSTTRIG_COUNT.of 65535 ≠ 0) ∧
    (65535 < hosted.get R.LTU_ST_HOSTTRIG_PENDING 2 + R.LTU_ST_HOSTTRIG_COUNT.of 65535) ∧ (R.LTU_ST_HOSTTRIG_COUNT.of 1 ≠ 0) ∧
    (timed.get R.LTU_ST_HOSTTRIG_PENDING 2 + R.LTU_ST_HOSTTRIG_COUNT.of 1 ≤ 65535) ∧
    (timed.get R.LTU_ST_CTRL_SRC 2 ≠ 2 ∨ timed.stState 2 ≠ St.scanning) ∧ (R.LTU_ST_MATCH_CFG_ARM.of 2164260864 = 1) ∧
    (R.LTU_ST_MATCH_CFG_TOL.of 2164260864 ≠ 0) ∧ (backing.encSource 2 = true) ∧
    (backing.get R.LTU_ST_MATCH_M 2 < (backing.lst 2).resume) ∧ (backing.stState 2 = St.rewinding) ∧
    (↑(backing.get R.LTU_ST_RATIO_D 2) ≤ backing.fwd 2 * (backing.lineTarget 2 (backing.get R.LTU_ST_MATCH_M 2) - backing.posOf 2 0)) ∧
    (timed.stState 2 ≠ St.rewinding) ∧ ((backing.set R.LTU_ST_CTRL_SRC 1 2).stState 2 = St.rewinding) ∧
    ((backing.set R.LTU_ST_CTRL_SRC 1 2).encSource 2 = false) ∧
    (↑((backing.set R.LTU_ST_CTRL_SRC 1 2).get R.LTU_ST_RATIO_D 2) ≤ (backing.set R.LTU_ST_CTRL_SRC 1 2).fwd 2 * ((backing.set
      R.LTU_ST_CTRL_SRC 1 2).lineTarget 2 ((backing.set R.LTU_ST_CTRL_SRC 1 2).get R.LTU_ST_MATCH_M 2) - (backing.set R.LTU_ST_CTRL_SRC 1
      2).posOf 2 0))) :=
  ⟨reaches_secure (by decide +kernel), reaches_secure (by decide +kernel), reaches_secure (by decide +kernel),
  reaches_secure (by decide +kernel), reaches_secure (by decide +kernel), by decide +kernel⟩

theorem witness_lines_are_conditioned :
    (∀ (l : PLine), ((timed.formLines 2).phead 0).lines.head? = some l → ∃ w, ((timed.formLines 2).pst 2).placed = some w ∧ l.n ≤ w) ∧
    ((timed.stationOfHead 0 = some 2) ∧ (timed.stBusy 2 = true) ∧ (timed.dev ≠ Dev.thermalLatch) ∧
    (((timed.formLines 2).queue (104 + 2)).present = []) ∧ (((timed.formLines 2).takeItem 0).fst = none) ∧
    (timed.get R.PCP_SHD_HEAD_LEAF_PENDING = noSlot) ∧ (timed.on R.PCP_SHD_HEAD_CTRL_EN = false) ∧ ((timed.phead 0).fades = []) ∧
    (timed.get R.PCP_SHD_HEAD_LEAF_ACTIVE = noSlot) ∧ (shading.get R.PCP_SHD_HEAD_LEAF_PENDING = noSlot) ∧
    (shading.on R.PCP_SHD_HEAD_CTRL_EN = true) ∧ ((shading.phead 0).fades = []) ∧ (shading.get R.PCP_SHD_HEAD_LEAF_ACTIVE ≠ noSlot) ∧
    (shading.defects (shading.get R.PCP_SHD_HEAD_LEAF_ACTIVE) = []) ∧ (fading.get R.PCP_SHD_HEAD_LEAF_PENDING = noSlot) ∧
    (fading.on R.PCP_SHD_HEAD_CTRL_EN = true) ∧
    ((fading.phead 0).fades = [{ slot := 5, h := 0, log := 2, delta := [0], gain := [16384] : Fade }]) ∧
    (fading.get R.PCP_SHD_HEAD_LEAF_ACTIVE ≠ noSlot) ∧
    ({ slot := 5, h := 0, log := 2, delta := [0], gain := [16384] : Fade }.slot ≠ noSlot) ∧
    (fading.defects (fading.get R.PCP_SHD_HEAD_LEAF_ACTIVE) = []) ∧
    ({ slot := 5, h := 0, log := 2, delta := [0], gain := [16384] : Fade }.h ≤ 3) ∧
    (3 < { slot := 5, h := 0, log := 2, delta := [0], gain := [16384] : Fade }.h + 2 ^
      { slot := 5, h := 0, log := 2, delta := [0], gain := [16384] : Fade }.log) ∧
    ((faded.phead 0).fades = [{ slot := 5, h := 64, log := 0, delta := [0], gain := [16384] : Fade }]) ∧
    ((faded.phead 0).reached = some 64)) ∧ (({ slot := 5, h := 64, log := 0, delta := [0], gain := [16384] : Fade }.last ≤ 64) ∧
    (faded.stationOfHead 0 = some 2) ∧ (faded.isSheet 2 = false)) :=
  ⟨none_of (by decide +kernel), by decide +kernel, by decide +kernel⟩

theorem witness_captures :
    (Reaches aimed World.secure RegId.PCP_CAP_CTRL 0 0) ∧ (CaptureOk aimed 1) ∧
    (Reaches ((leafed St.armed).set R.PCP_CAP_TARGET_LEAF 7) World.secure RegId.PCP_CAP_CTRL 0 0) ∧ ((captured.capRuns = true) ∧
    (captured.pcp.cap.counted = 2 ^ captured.pcp.cap.nLog) ∧
    (((leafed St.armed).set R.PCP_CAP_TARGET_LEAF 7).headScans (((leafed St.armed).set R.PCP_CAP_TARGET_LEAF 7).get R.PCP_CAP_TARGET_HEAD)
      = false) ∧
    (((leafed St.armed).set R.PCP_CAP_TARGET_LEAF 7).leafBytes (((leafed St.armed).set R.PCP_CAP_TARGET_LEAF 7).get R.PCP_CAP_TARGET_LEAF)
      ≤ 4096 * ((leafed St.armed).set R.PCP_CAP_TARGET_LEAF 7).leafPages (((leafed St.armed).set R.PCP_CAP_TARGET_LEAF 7).get
      R.PCP_CAP_TARGET_LEAF)) ∧
    (((leafed St.armed).set R.PCP_CAP_TARGET_LEAF 7).pagesIn (((leafed St.armed).set R.PCP_CAP_TARGET_LEAF 7).get R.PCP_CAP_TARGET_LEAF)
      (((leafed St.armed).set R.PCP_CAP_TARGET_LEAF 7).portWorld (((leafed St.armed).set R.PCP_CAP_TARGET_LEAF 7).get
      R.PCP_CAP_TARGET_HEAD)) = true)) :=
  ⟨reaches_secure (by decide +kernel), by unfold CaptureOk; decide +kernel, reaches_secure (by decide +kernel), by decide +kernel⟩

theorem witness_leaf_registers :
    (Reaches (leafed St.scanning) World.secure RegId.PCP_SHD_SWAP 0 0) ∧ (SwapOk (leafed St.scanning) 0 2147489799) ∧
    (ReachesAt timed World.secure ((leafReg 0).addr 255)) ∧ (ReachesAt shaded World.secure ((leafReg 2).addr 7)) ∧
    (ReachesAt timed World.secure (leafReg 1).addr) ∧ (Reaches timed World.secure RegId.PCP_SHD_TRK_CTRL 0 0) ∧
    (Reaches product0 World.secure RegId.PCP_DEC_SWAP 0 0) ∧ ((timed.slotInUse 255 = false) ∧ (shaded.slotInUse 7 = true) ∧
    (timed.slotInUse 0 = false) ∧ (R.PCP_SHD_TRK_CTRL_A.of 65560 ≤ 12) ∧ (R.PCP_SHD_TRK_CTRL_LIM.of 65560 ≠ 0) ∧
    (R.PCP_SHD_TRK_CTRL_EN.of 65560 = 0) ∧ (R.PCP_SHD_TRK_CTRL_A.of 65537 ≤ 12) ∧ (R.PCP_SHD_TRK_CTRL_LIM.of 65537 ≠ 0) ∧
    (R.PCP_SHD_TRK_CTRL_EN.of 65537 = 1) ∧ (R.PCP_SHD_TRK_CTRL_SRC.of 65537 = 0) ∧ (product0.on R.PCP_DEC_CTRL_EN = true) ∧
    (product0.stBusy (product0.get R.PCP_DEC_CTRL_STATION) = true) ∧
    (isBandStart (if product0.get R.PCP_DEC_SWAP_H = 0 then product0.nextHinge (product0.get R.PCP_DEC_CTRL_STATION) else product0.get
      R.PCP_DEC_SWAP_H) (product0.bandExp (product0.get R.PCP_DEC_CTRL_STATION)) = true) ∧
    (product0.lineDecimated (product0.get R.PCP_DEC_CTRL_STATION) 0 (if product0.get R.PCP_DEC_SWAP_H = 0 then product0.nextHinge
      (product0.get R.PCP_DEC_CTRL_STATION) else product0.get R.PCP_DEC_SWAP_H) = false) ∧
    (product0.firOk (R.PCP_DEC_SWAP_LEAF_X.of 2147483648) = true) ∧ (product0.firOk (R.PCP_DEC_SWAP_LEAF_Y.of 2147483648) = true)) :=
  ⟨reaches_secure (by decide +kernel), by unfold SwapOk; decide +kernel, by unfold ReachesAt; decide +kernel,
  by unfold ReachesAt; decide +kernel, by unfold ReachesAt; decide +kernel, reaches_secure (by decide +kernel),
  reaches_secure (by decide +kernel), by decide +kernel⟩

theorem witness_leaf_window_writes :
    (ReachesAt timed World.secure (41943040 + 4 * 4194303)) ∧ (ReachesAt shaded World.secure (41943040 + 4 * 3072)) ∧
    (ReachesAt timed World.secure (58720256 + 4 * 96)) ∧ (ReachesAt firUsed World.secure (58720256 + 4 * 96)) ∧
    ((timed.pageInUse (4194303 / 1024) = false) ∧ (shaded.pageInUse (3072 / 1024) = true) ∧ (timed.firInUse (96 / 32) = false) ∧
    (firUsed.firInUse (96 / 32) = true)) :=
  ⟨by unfold ReachesAt; decide +kernel, by unfold ReachesAt; decide +kernel, by unfold ReachesAt; decide +kernel,
  by unfold ReachesAt; decide +kernel, by decide +kernel⟩

theorem witness_measurements :
    (Reaches ((station2 St.scanning).set R.PCP_ALN_MEAS_WIN_COUNT 4) World.secure RegId.PCP_ALN_MEAS_CTRL 0 0) ∧
    (Reaches dovetail World.secure RegId.PCP_DVT_MEAS_CTRL 0 0) ∧
    ((((station2 St.scanning).set R.PCP_ALN_MEAS_WIN_COUNT 4).headScans (R.PCP_ALN_MEAS_CTRL_HEAD.of 2147483648) = true) ∧
    (((station2 St.scanning).set R.PCP_ALN_MEAS_WIN_COUNT 4).on R.PCP_ALN_MEAS_CTRL_BUSY = false) ∧
    (((station2 St.scanning).set R.PCP_ALN_MEAS_WIN_COUNT 4).get R.PCP_ALN_MEAS_WIN_COUNT ≠ 0) ∧
    (((station2 St.scanning).set R.PCP_ALN_MEAS_WIN_COUNT 4).get R.PCP_ALN_MEAS_WIN_FIRST + ((station2 St.scanning).set
      R.PCP_ALN_MEAS_WIN_COUNT 4).get R.PCP_ALN_MEAS_WIN_COUNT ≤ ((station2 St.scanning).set R.PCP_ALN_MEAS_WIN_COUNT 4).headCols
      (R.PCP_ALN_MEAS_CTRL_HEAD.of 2147483648)) ∧ (R.PCP_ALN_MEAS_CTRL_N.of 2147483648 ≤ 12) ∧
    (alnRuns.on R.PCP_ALN_MEAS_CTRL_BUSY = true) ∧ (2 ^ alnRuns.pcp.aln.nLog ≤ alnRuns.pcp.aln.taken) ∧
    (dovetail.stState (R.PCP_DVT_MEAS_CTRL_STATION.of 2147483650) = St.scanning) ∧ (dovetail.on R.PCP_DVT_MEAS_CTRL_BUSY = false) ∧
    (dovetail.dvtV (R.PCP_DVT_MEAS_CTRL_STATION.of 2147483650) ≠ 0) ∧
    (R.PCP_DVT_MEAS_CTRL_POS.of 2147483650 + 1 < (dovetail.station (R.PCP_DVT_MEAS_CTRL_STATION.of 2147483650)).heads.length) ∧
    (R.PCP_DVT_MEAS_CTRL_N.of 2147483650 ≤ 12) ∧ (dvtRuns.on R.PCP_DVT_MEAS_CTRL_BUSY = true) ∧
    (2 ^ dvtRuns.pcp.dvt.nLog ≤ dvtRuns.pcp.dvt.taken) ∧ (3 < [9, 4, 7, 4].length) ∧
    (List.find? (fun o => o.right.isNone && !o.late) (dovetail.pst 2).waiting = some
      { n := 3, flags := 0, planes := [[1, 2, 3, 4]] : OpenLine }) ∧
    ({ n := 3, flags := 0, planes := [[1, 2, 3, 4]] : OpenLine }.n + dovetail.get R.PCP_STC_ST_CTRL_DVT_TIMEOUT 2 ≤ (dovetail.pst
      2).placed.getD 0) ∧ (product0.on R.PCP_DEC_CTRL_EN = true) ∧ (product0.stBusy (product0.get R.PCP_DEC_CTRL_STATION) = true) ∧
    ((List.any (product0.sto (product0.get R.PCP_DEC_CTRL_STATION)).products fun p => decide (p.fst = 0)) = true)) :=
  ⟨reaches_secure (by decide +kernel), reaches_secure (by decide +kernel), by decide +kernel⟩

theorem witness_slots_hold_their_lines :
    (2 * [1, 2, 3, 65535].length + 16 ≤ stored.slotZ 2) ∧ (∀ (x : Nat), x ∈ [1, 2, 3, 65535] → x < 65536) ∧
    (2 * (List.replicate 24 7).length + 16 ≤ stored.slotZ 2) ∧ (∀ (x : Nat), x ∈ List.replicate 24 7 → x < 65536) := by decide +kernel

theorem witness_store_lines :
    (∀ (f : Nat), (overlaps.station 2).fLine = some f → 3 ≤ f) ∧ (∀ (f : Nat), (reading.station 2).fLine = some f → 0 ≤ f) ∧
    (∀ (f : Nat), (reading.station 2).fLine = some f → 1 ≤ f) ∧ (∀ (f : Nat), (seamDone.station 2).fLine = some f → 5 ≤ f) ∧
    (Reaches idle World.secure RegId.SST_CFG 0 0) ∧ (Reaches (idle.set R.SMC_DEV_STATE_STATE Dev.loaded) World.secure RegId.SST_CFG 0 0) ∧
    ((handed.stBusy 2 = true) ∧ (handed.smc.hbmRefresh = false) ∧
    (handed.takeLine 2 = (some (0, 0, [1, 2, 3, 4]), (handed.takeLine 2).snd)) ∧ ((refreshing stored).stBusy 2 = true) ∧
    ((refreshing stored).smc.hbmRefresh = true) ∧
    (((stored.setStation 2 { heads := [0], fLine := some 4 : Station }).station 2).fLine = some 4) ∧ (4 < 5) ∧
    (overlaps.overlapOpen 2 = true) ∧ (3 < overlaps.get R.SST_ST_REW_R 2) ∧ (overlaps.expectedLine 2 = 3) ∧
    (reading.overlapOpen 2 = false) ∧ (0 < reading.wp 2) ∧ ((reading.sto 2).restart = false) ∧ (1 = reading.wp 2) ∧
    (seamDone.overlapOpen 2 = false) ∧ (seamDone.wp 2 ≤ 5) ∧ ((seamDone.sto 2).restart = true) ∧ (seamDone.get R.SST_ST_REW_R 2 ≤ 5) ∧
    ((seamDone.sto 2).mTriggered = true) ∧ (stored.stBusy 2 = true) ∧ (stored.smc.hbmRefresh = false) ∧
    (stored.takeLine 2 = (none, (stored.takeLine 2).snd)) ∧
    (List.find? (fun m => decide (m.queue = 300)) reading.image.qmap = some map300) ∧ (map300.writer = Endpoint.store 2)) ∧
    ((reading.stBusy 2 = true) ∧ (reading.smc.hbmRefresh = false) ∧
    ((List.any (reading.sto 2).queues fun p => decide (p.fst = 300)) = true) ∧ (reading.qState 300 = 1) ∧ (idle.dev = Dev.idle) ∧
    (R.SST_CFG_STORE.of 32 ≤ 32) ∧ ((idle.set R.SMC_DEV_STATE_STATE Dev.loaded).dev ≠ Dev.idle) ∧ (32 < R.SST_CFG_STORE.of 33)) :=
  ⟨opt_of (by decide +kernel), opt_of (by decide +kernel), opt_of (by decide +kernel), opt_of (by decide +kernel),
  reaches_secure (by decide +kernel), reaches_secure (by decide +kernel), by decide +kernel, by decide +kernel⟩

theorem witness_restart_steps :
    ((pacedStop.backUpDue 2 = true) ∧ (pacedStop.paced 2 = true) ∧ (pacedStop.axStandstill (pacedStop.paceAxis 2) = true) ∧
    ((restarting St.paused 1).backUpDue 2 = true) ∧ ((restarting St.paused 1).paced 2 = false) ∧
    (12800000 ≤ 12800000 - ((restarting St.paused 1).enc ((restarting St.paused 1).encOf 2)).te) ∧
    (((restarting St.rewinding 2).setPos16 R.LTU_ST_BASE_COUNT R.LTU_ST_BASE_PHASE 2 655360000).isSheet 2 = true) ∧
    (((restarting St.rewinding 2).setPos16 R.LTU_ST_BASE_COUNT R.LTU_ST_BASE_PHASE 2 655360000).paced 2 = false) ∧
    (((restarting St.rewinding 2).setPos16 R.LTU_ST_BASE_COUNT R.LTU_ST_BASE_PHASE 2 655360000).stState 2 = St.rewinding) ∧
    (((restarting St.rewinding 2).setPos16 R.LTU_ST_BASE_COUNT R.LTU_ST_BASE_PHASE 2 655360000).get R.SST_ST_REW_STATUS_PHASE 2 = 2) ∧
    (((restarting St.rewinding 2).setPos16 R.LTU_ST_BASE_COUNT R.LTU_ST_BASE_PHASE 2 655360000).fwd 2 * (((restarting St.rewinding
      2).setPos16 R.LTU_ST_BASE_COUNT R.LTU_ST_BASE_PHASE 2 655360000).posOf 2 0 - ((restarting St.rewinding 2).setPos16
      R.LTU_ST_BASE_COUNT R.LTU_ST_BASE_PHASE 2 655360000).backTarget 2 (((restarting St.rewinding 2).setPos16 R.LTU_ST_BASE_COUNT
      R.LTU_ST_BASE_PHASE 2 655360000).get R.SST_ST_REW_M 2)) ≤ 0) ∧ ((restarting St.rewinding 3).isSheet 2 = true) ∧
    ((restarting St.rewinding 3).stState 2 = St.rewinding) ∧ ((restarting St.rewinding 3).get R.SST_ST_REW_STATUS_PHASE 2 = 3) ∧
    ((restarting St.rewinding 3).get R.SST_ST_BACKLOG_B 2 ≤ (restarting St.rewinding 3).get R.SST_ST_THR_RESUME_LINES 2) ∧
    ((restarting St.rewinding 3).get R.SST_ST_PACE_SMIN 2 ≤ 64 * (restarting St.rewinding 3).get R.SST_ST_SCALE_CAP 2) ∧
    ((restarting St.rewinding 3).on R.SMC_ST_STATE_HOLD 2 = false) ∧ ((pacing (restarting St.rewinding 4)).isSheet 2 = true) ∧
    ((pacing (restarting St.rewinding 4)).stState 2 = St.rewinding) ∧
    ((pacing (restarting St.rewinding 4)).get R.SST_ST_REW_STATUS_PHASE 2 = 4) ∧
    (((pacing (restarting St.rewinding 4)).sto 2).stopped = false) ∧
    ((pacing (restarting St.rewinding 4)).atOrPast 2 ((pacing (restarting St.rewinding 4)).posOf 2 0) ((pacing (restarting St.rewinding
      4)).scanEntryPos 2) = true) ∧
    ((pacing (restarting St.rewinding 4)).paced 2 = true ∨ ((pacing (restarting St.rewinding 4)).sto 2).entryBelow = true) ∧
    ((restarting St.rewinding 4).isSheet 2 = true)) ∧ (((restarting St.rewinding 4).stState 2 = St.rewinding) ∧
    ((restarting St.rewinding 4).get R.SST_ST_REW_STATUS_PHASE 2 = 4) ∧ (((restarting St.rewinding 4).sto 2).stopped = false) ∧
    ((restarting St.rewinding 4).atOrPast 2 ((restarting St.rewinding 4).posOf 2 0) ((restarting St.rewinding 4).scanEntryPos 2) = true) ∧
    ((restarting St.rewinding 4).paced 2 = false) ∧ (((restarting St.rewinding 4).sto 2).entryBelow = false) ∧
    (atVelocity.isSheet 2 = true) ∧ (atVelocity.stState 2 = St.rewinding) ∧ (atVelocity.get R.SST_ST_REW_STATUS_PHASE 2 = 4) ∧
    ((atVelocity.sto 2).stopped = false) ∧ (atVelocity.atOrPast 2 (atVelocity.posOf 2 0) (atVelocity.scanEntryPos 2) = false) ∧
    (atVelocity.paced 2 = true) ∧ (atVelocity.atScan (atVelocity.paceAxis 2) = true) ∧
    ((belowEntry (restarting St.rewinding 4)).isSheet 2 = true) ∧ ((belowEntry (restarting St.rewinding 4)).stState 2 = St.rewinding) ∧
    ((belowEntry (restarting St.rewinding 4)).get R.SST_ST_REW_STATUS_PHASE 2 = 4) ∧
    (((belowEntry (restarting St.rewinding 4)).sto 2).stopped = false) ∧
    ((belowEntry (restarting St.rewinding 4)).atOrPast 2 ((belowEntry (restarting St.rewinding 4)).posOf 2 0) ((belowEntry (restarting
      St.rewinding 4)).scanEntryPos 2) = false) ∧ ((belowEntry (restarting St.rewinding 4)).paced 2 = false) ∧
    (((restarting St.paused 1).sto 2).restart = true) ∧
    ((restarting St.paused 1).stState 2 = St.paused ∧ (restarting St.paused 1).get R.SST_ST_REW_STATUS_PHASE 2 = 1 ∨ (restarting St.paused
      1).stState 2 = St.rewinding ∧ ((restarting St.paused 1).get R.SST_ST_REW_STATUS_PHASE 2 = 2 ∨ (restarting St.paused 1).get
      R.SST_ST_REW_STATUS_PHASE 2 = 4 ∧ ((restarting St.paused 1).sto 2).stopped = true)) ∧
    (((restarting St.rewinding 2).sto 2).restart = true) ∧
    ((restarting St.rewinding 2).stState 2 = St.paused ∧ (restarting St.rewinding 2).get R.SST_ST_REW_STATUS_PHASE 2 = 1 ∨ (restarting
      St.rewinding 2).stState 2 = St.rewinding ∧ ((restarting St.rewinding 2).get R.SST_ST_REW_STATUS_PHASE 2 = 2 ∨ (restarting
      St.rewinding 2).get R.SST_ST_REW_STATUS_PHASE 2 = 4 ∧ ((restarting St.rewinding 2).sto 2).stopped = true)) ∧
    ((restarting St.rewinding 2).isSheet 2 = true)) ∧ (((restarting St.rewinding 2).paced 2 = false) ∧
    ((restarting St.rewinding 2).stState 2 = St.rewinding) ∧ ((restarting St.rewinding 2).get R.SST_ST_REW_STATUS_PHASE 2 = 2) ∧
    (0 < (restarting St.rewinding 2).fwd 2 * ((restarting St.rewinding 2).posOf 2 0 - (restarting St.rewinding 2).backTarget 2
      ((restarting St.rewinding 2).get R.SST_ST_REW_M 2)))) :=
  ⟨by decide +kernel, by decide +kernel, by decide +kernel⟩

theorem witness_pacing_and_shedding :
    (∀ (h : Nat), ((moved sheds 2 5).sto 2).reloadMark = some h → 5 < h) ∧ (((pacing (thresholds 10 20 5)).isSheet 2 = true) ∧
    ((pacing (thresholds 10 20 5)).on R.SST_ST_PACE_EN 2 = true) ∧
    ((pacing (thresholds 10 20 5)).get R.SST_ST_BACKLOG_B 2 ≤ (pacing (thresholds 10 20 5)).get R.SST_ST_THR_LO_LINES 2) ∧
    ((pacing (thresholds 10 20 15)).isSheet 2 = true) ∧ ((pacing (thresholds 10 20 15)).on R.SST_ST_PACE_EN 2 = true) ∧
    ((pacing (thresholds 10 20 15)).get R.SST_ST_THR_LO_LINES 2 < (pacing (thresholds 10 20 15)).get R.SST_ST_BACKLOG_B 2) ∧
    ((pacing (thresholds 10 20 15)).get R.SST_ST_BACKLOG_B 2 < (pacing (thresholds 10 20 15)).get R.SST_ST_THR_STOP_LINES 2) ∧
    ((thresholds 10 20 15).isSheet 2 = false ∨ (thresholds 10 20 15).on R.SST_ST_PACE_EN 2 = false) ∧
    ((thresholds 10 20 20).isSheet 2 = true) ∧ (((thresholds 10 20 20).sto 2).stopped = false) ∧
    (((thresholds 10 20 20).station 2).axisDown = false) ∧
    ((thresholds 10 20 20).get R.SST_ST_THR_STOP_LINES 2 ≤ (thresholds 10 20 20).get R.SST_ST_BACKLOG_B 2 ∨ (thresholds 10 20 20).get
      R.SST_ST_SCALE_CAP 2 = 0) ∧ (((thresholds 10 20 19).set R.SST_ST_SCALE_CAP 0 2).isSheet 2 = true) ∧
    ((((thresholds 10 20 19).set R.SST_ST_SCALE_CAP 0 2).sto 2).stopped = false) ∧
    ((((thresholds 10 20 19).set R.SST_ST_SCALE_CAP 0 2).station 2).axisDown = false) ∧
    (((thresholds 10 20 19).set R.SST_ST_SCALE_CAP 0 2).get R.SST_ST_THR_STOP_LINES 2 ≤ ((thresholds 10 20 19).set R.SST_ST_SCALE_CAP 0
      2).get R.SST_ST_BACKLOG_B 2 ∨ ((thresholds 10 20 19).set R.SST_ST_SCALE_CAP 0 2).get R.SST_ST_SCALE_CAP 2 = 0) ∧
    ((thresholds 10 20 19).isSheet 2 = true) ∧ (((thresholds 10 20 19).sto 2).stopped = false) ∧
    (((thresholds 10 20 19).station 2).axisDown = false) ∧
    (¬((thresholds 10 20 19).get R.SST_ST_THR_STOP_LINES 2 ≤ (thresholds 10 20 19).get R.SST_ST_BACKLOG_B 2 ∨ (thresholds 10 20 19).get
      R.SST_ST_SCALE_CAP 2 = 0)) ∧ ((pacing ((thresholds 10 20 20).setSto 2 { : Store })).stState 2 = St.scanning) ∧
    (((pacing ((thresholds 10 20 20).setSto 2 { : Store })).sto 2).restart = false) ∧ (sheds.shedBand 2 3 = some 0) ∧
    (sheds.prodStarted 2 3 = false)) ∧ ((shedsBegun.shedBand 2 3 = some 64) ∧ (shedsBegun.prodStarted 2 3 = true) ∧ (3 < 32) ∧
    (∀ (k : Nat), k < 3 → sheds.shedBand 2 (((sheds.sto 2).lastProduct + 1 + k) % 32) = none) ∧
    ((sheds.shedBand 2 (((sheds.sto 2).lastProduct + 1 + 3) % 32)).isSome = true) ∧
    (((moved (sheds.setSto 2 { products := [(3, 0)], reloadMark := some 4 : Store }) 2 5).sto 2).reloadMark = some 4) ∧ (4 ≤ 5)) :=
  ⟨opt_of (by decide +kernel), by decide +kernel, by decide +kernel⟩

theorem witness_host_reader :
    (Reaches (hostReads 0) World.secure RegId.SST_ST_HOST_CTRL 2 0) ∧ (Reaches (hostReads 1) World.secure RegId.SST_ST_HOST_CTRL 2 0) ∧
    (Reaches (hostReads 1) World.secure (if false = true then RegId.SST_ST_HOST_RP_HI else RegId.SST_ST_HOST_RP_LO) 2 0) ∧
    (Reaches (hostReads 1) World.secure (if true = true then RegId.SST_ST_HOST_RP_HI else RegId.SST_ST_HOST_RP_LO) 2 0) ∧
    (Reaches (hostReads 1) World.secure RegId.SST_ST_MARK_HI 2 3) ∧ (Reaches (hostReads 1) World.secure RegId.SST_ST_MARK_HI 2 1) ∧
    ((R.SST_ST_HOST_CTRL_REWIND.of 1 = 0) ∧ (R.SST_ST_HOST_CTRL_EN.of 1 = 1) ∧ ((hostReads 0).on R.SST_ST_HOST_CTRL_EN 2 = false) ∧
    (R.SST_ST_HOST_CTRL_EN.of (3 ||| 8) = 1) ∧ ((hostReads 1).on R.SST_ST_HOST_CTRL_EN 2 = true) ∧
    (((hostReads 1).sto 2).marks.find? (R.SST_ST_HOST_CTRL_MARK.of (3 ||| 8)) = some 3) ∧ (R.SST_ST_HOST_CTRL_EN.of (0 ||| 8) = 0) ∧
    (R.SST_ST_HOST_CTRL_EN.of (1 ||| 8) = 1) ∧ (((hostReads 1).sto 2).marks.find? (R.SST_ST_HOST_CTRL_MARK.of (1 ||| 8)) = none) ∧
    (((hostReads 1).sto 2).marks.find? 1 = some 3) ∧ ((hostReads 1).on R.SST_ST_MARK_VALID 2 1 = true) ∧
    ((hostReads 1).on R.SST_ST_HOST_CTRL_EN 2 = false ∨ ((hostReads 1).get R.SST_ST_HOST_RP 2 ≤ if false = true then spliceBits
      ((hostReads 1).get R.SST_ST_HOST_RP 2) 32 16 5 else spliceBits ((hostReads 1).get R.SST_ST_HOST_RP 2) 0 32 5) ∧ (if false = true
      then spliceBits ((hostReads 1).get R.SST_ST_HOST_RP 2) 32 16 5 else spliceBits ((hostReads 1).get R.SST_ST_HOST_RP 2) 0 32 5) ≤
      (hostReads 1).wp 2) ∧
    ((if false = true then spliceBits ((hostReads 1).get R.SST_ST_HOST_RP 2) 32 16 6 else spliceBits ((hostReads 1).get R.SST_ST_HOST_RP
      2) 0 32 6) < (hostReads 1).get R.SST_ST_HOST_RP 2 ∨ (hostReads 1).wp 2 < if false = true then spliceBits ((hostReads 1).get
      R.SST_ST_HOST_RP 2) 32 16 6 else spliceBits ((hostReads 1).get R.SST_ST_HOST_RP 2) 0 32 6) ∧
    ((if true = true then spliceBits ((hostReads 1).get R.SST_ST_HOST_RP 2) 32 16 1 else spliceBits ((hostReads 1).get R.SST_ST_HOST_RP 2)
      0 32 1) < (hostReads 1).get R.SST_ST_HOST_RP 2 ∨ (hostReads 1).wp 2 < if true = true then spliceBits ((hostReads 1).get
      R.SST_ST_HOST_RP 2) 32 16 1 else spliceBits ((hostReads 1).get R.SST_ST_HOST_RP 2) 0 32 1) ∧
    (R.SST_ST_MARK_CLEAR.of (0 ||| 2 ^ 29) = 0) ∧
    ((hostReads 1).relLine 2 ≤ spliceBits ((hostReads 1).get R.SST_ST_MARK_LINE 2 3) 32 16 (0 ||| 2 ^ 29)) ∧
    (spliceBits ((hostReads 1).get R.SST_ST_MARK_LINE 2 3) 32 16 (0 ||| 2 ^ 29) ≤ (hostReads 1).wp 2) ∧
    (R.SST_ST_MARK_CLEAR.of (1 ||| 2 ^ 29) = 0) ∧
    (spliceBits ((hostReads 1).get R.SST_ST_MARK_LINE 2 3) 32 16 (1 ||| 2 ^ 29) < (hostReads 1).relLine 2 ∨ (hostReads 1).wp 2 <
      spliceBits ((hostReads 1).get R.SST_ST_MARK_LINE 2 3) 32 16 (1 ||| 2 ^ 29)) ∧ (R.SST_ST_MARK_SET.of (0 ||| 2 ^ 30) = 0)) :=
  ⟨reaches_secure (by decide +kernel), reaches_secure (by decide +kernel), reaches_secure (by decide +kernel),
  reaches_secure (by decide +kernel), reaches_secure (by decide +kernel), reaches_secure (by decide +kernel), by decide +kernel⟩

theorem witness_queue_write :
    (((queue300.queue 300).present = []) ∧ (queue300.wrResync 300 = false) ∧ (queue300.qState 300 = 1) ∧ (queue300.isRing 300 = false) ∧
    ((queue300.queue 300).closed = false) ∧
    ((queue300.queue 300).written (queue300.get R.QMX_Q_STATUS_WR_DRAWER 300) % 64 ≠ 0 ∨ queue300.maySlab 300 = true) ∧
    (((queue300.set R.QMX_Q_CFG_CLASS 2 300).queue 300).present = []) ∧ ((queue300.set R.QMX_Q_CFG_CLASS 2 300).wrResync 300 = false) ∧
    ((queue300.set R.QMX_Q_CFG_CLASS 2 300).qState 300 = 1) ∧ ((queue300.set R.QMX_Q_CFG_CLASS 2 300).isRing 300 = true) ∧
    (((queue300.set R.QMX_Q_CFG_CLASS 2 300).queue 300).ring.length < 16384) ∧
    ((((queue300.set R.QMX_Q_CFG_CLASS 2 300).setQueue 300
      { ring := List.replicate 16384 { data := 1, fin := true : QWord } : Queue }).queue 300).present = []) ∧
    (((queue300.set R.QMX_Q_CFG_CLASS 2 300).setQueue 300
      { ring := List.replicate 16384 { data := 1, fin := true : QWord } : Queue }).wrResync 300 = false) ∧
    (((queue300.set R.QMX_Q_CFG_CLASS 2 300).setQueue 300
      { ring := List.replicate 16384 { data := 1, fin := true : QWord } : Queue }).qState 300 = 1) ∧
    (((queue300.set R.QMX_Q_CFG_CLASS 2 300).setQueue 300
      { ring := List.replicate 16384 { data := 1, fin := true : QWord } : Queue }).isRing 300 = true) ∧
    (16384 ≤ (((queue300.set R.QMX_Q_CFG_CLASS 2 300).setQueue 300
      { ring := List.replicate 16384 { data := 1, fin := true : QWord } : Queue }).queue 300).ring.length) ∧
    ((poolEmpty.queue 300).present = []) ∧ (poolEmpty.wrResync 300 = false) ∧ (poolEmpty.qState 300 = 1) ∧
    (poolEmpty.isRing 300 = false) ∧ ((poolEmpty.queue 300).closed = false) ∧
    ((poolEmpty.queue 300).written (poolEmpty.get R.QMX_Q_STATUS_WR_DRAWER 300) % 64 = 0) ∧ (poolEmpty.maySlab 300 = false) ∧
    ((queueFull.queue 300).present = [])) ∧ ((queueFull.wrResync 300 = false) ∧ (queueFull.qState 300 = 1) ∧
    (queueFull.isRing 300 = false) ∧ ((queueFull.queue 300).closed = true) ∧
    (((queue300.setQueue 300 { d0 := [{ data := 7, fin := true : QWord }], w0 := 511 : Queue }).queue 300).present = []) ∧
    ((queue300.setQueue 300 { d0 := [{ data := 7, fin := true : QWord }], w0 := 511 : Queue }).wrResync 300 = false) ∧
    ((queue300.setQueue 300 { d0 := [{ data := 7, fin := true : QWord }], w0 := 511 : Queue }).qState 300 = 1) ∧
    ((queue300.setQueue 300 { d0 := [{ data := 7, fin := true : QWord }], w0 := 511 : Queue }).isRing 300 = false) ∧
    (((queue300.setQueue 300 { d0 := [{ data := 7, fin := true : QWord }], w0 := 511 : Queue }).queue 300).closed = false) ∧
    (((queue300.setQueue 300 { d0 := [{ data := 7, fin := true : QWord }], w0 := 511 : Queue }).queue 300).written ((queue300.setQueue 300
      { d0 := [{ data := 7, fin := true : QWord }], w0 := 511 : Queue }).get R.QMX_Q_STATUS_WR_DRAWER 300) % 64 ≠ 0 ∨ (queue300.setQueue
      300 { d0 := [{ data := 7, fin := true : QWord }], w0 := 511 : Queue }).maySlab 300 = true)) :=
  ⟨by decide +kernel, by decide +kernel⟩

theorem witness_queue_read :
    ((queueHolds.isRing 300 = false) ∧ ((queueHolds.queue 300).truncOwed = false) ∧ (queueHolds.on R.QMX_Q_STATUS_RD_RESYNC 300 = false) ∧
    ((queueHolds.queue 300).drawer (1 - queueHolds.get R.QMX_Q_STATUS_WR_DRAWER 300) = [{ data := 7 : QWord },
      { data := 8, fin := true : QWord }]) ∧ (Ecc.clean ≠ Ecc.uncorrectable) ∧ (Ecc.corrected ≠ Ecc.uncorrectable) ∧
    (queue300.isRing 300 = false) ∧ ((queue300.queue 300).truncOwed = false) ∧ (queue300.on R.QMX_Q_STATUS_RD_RESYNC 300 = false) ∧
    ((queue300.queue 300).drawer (1 - queue300.get R.QMX_Q_STATUS_WR_DRAWER 300) = []) ∧
    ((queue300.setQueue 300 { truncOwed := true : Queue }).isRing 300 = false) ∧
    (((queue300.setQueue 300 { truncOwed := true : Queue }).queue 300).truncOwed = true) ∧
    ((timed.set R.QMX_Q_CFG_CLASS 2 98).isRing 98 = true) ∧ ((((timed.set R.QMX_Q_CFG_CLASS 2 98).queue 98).side true).owed = false) ∧
    (((List.drop (((timed.set R.QMX_Q_CFG_CLASS 2 98).queue 98).side true).pos ((timed.set R.QMX_Q_CFG_CLASS 2 98).queue 98).ring).any fun
      x => x.fin) = false) ∧ ((handed.set R.QMX_Q_CFG_CLASS 2 98).isRing 98 = true) ∧
    ((((handed.set R.QMX_Q_CFG_CLASS 2 98).queue 98).side true).owed = false) ∧
    (List.drop (((handed.set R.QMX_Q_CFG_CLASS 2 98).queue 98).side true).pos ((handed.set R.QMX_Q_CFG_CLASS 2 98).queue 98).ring =
      [{ : QWord }, { : QWord }, { fin := true : QWord }]) ∧
    (((List.drop (((handed.set R.QMX_Q_CFG_CLASS 2 98).queue 98).side true).pos ((handed.set R.QMX_Q_CFG_CLASS 2 98).queue 98).ring).any
      fun x => x.fin) = true) ∧ ((((handed.set R.QMX_Q_CFG_CLASS 2 98).queue 98).side true).skip = false) ∧ (skipping.isRing 98 = true) ∧
    (((skipping.queue 98).side true).owed = false) ∧
    (List.drop ((skipping.queue 98).side true).pos (skipping.queue 98).ring = [{ data := 5 : QWord }] ++
      [{ data := 6, fin := true : QWord }] ++ [{ data := 7 : QWord }, { data := 8, fin := true : QWord }]) ∧
    (([{ data := 5 : QWord }].all fun x => !x.fin) = true)) ∧
    ((([{ data := 7 : QWord }, { data := 8, fin := true : QWord }].any fun x => x.fin) = true) ∧
    (((skipping.queue 98).side true).skip = true) ∧ ((skipping.queue 98).present = [])) :=
  ⟨by decide +kernel, by decide +kernel⟩

theorem witness_queue_timers :
    (readerWaits.get R.QMX_Q_CFG_IDLE 300 ≠ 0) ∧ (readerWaits.isRing 300 = false) ∧ (readerWaits.on R.QMX_Q_STATUS_READ_WAIT 300 = true) ∧
    ((readerWaits.queue 300).drawer (1 - readerWaits.get R.QMX_Q_STATUS_WR_DRAWER 300) = []) ∧
    ((readerWaits.queue 300).drawer (readerWaits.get R.QMX_Q_STATUS_WR_DRAWER 300) ≠ []) ∧ ((readerWaits.queue 300).closed = false) ∧
    (readerWaits.get R.QMX_Q_CFG_STALL 300 ≠ 0) ∧ ((readerWaits.queue 300).rdStalled = false) ∧
    (writerWaits.get R.QMX_Q_CFG_STALL 300 ≠ 0) ∧
    (writerWaits.on R.QMX_Q_STATUS_FULL 300 = true ∨ writerWaits.on R.QMX_Q_STATUS_ALLOC_WAIT 300 = true) ∧
    ((writerWaits.queue 300).wrStalled = false) ∧ (((queue300.setQueue 300 { rdStalled := true : Queue }).queue 300).rdStalled = true) ∧
    (((queue300.setQueue 300 { wrStalled := true : Queue }).queue 300).wrStalled = true) ∧
    (inTransit.qmx.transit = [{ queue := 300, slabs := 2, flush := false : Transit }]) ∧
    ({ queue := 300, slabs := 2, flush := false : Transit }.flush = false) ∧
    (∀ (e : Nat × Queue), e ∈ inTransit.qmx.q → e.fst < 262144 ∧ inTransit.on R.QMX_Q_STATUS_ALLOC_WAIT e.fst = false) ∧
    (inTransit.qmx.transit ≠ []) ∧ (((idle.set R.QMX_Q_CFG_EN 1 104).set R.QMX_Q_CFG_STATION 2 104).get R.QMX_Q_CFG_STATION 104 < 8) ∧
    (((idle.set R.QMX_Q_CFG_EN 1 104).set R.QMX_Q_CFG_STATION 2 104).stBusy (((idle.set R.QMX_Q_CFG_EN 1 104).set R.QMX_Q_CFG_STATION 2
      104).get R.QMX_Q_CFG_STATION 104) = false) ∧
    (104 < 256 ∨ 104 ∈ ((idle.set R.QMX_Q_CFG_EN 1 104).set R.QMX_Q_CFG_STATION 2 104).stationQueues (((idle.set R.QMX_Q_CFG_EN 1 104).set
      R.QMX_Q_CFG_STATION 2 104).get R.QMX_Q_CFG_STATION 104)) := by decide +kernel

theorem witness_queue_commands :
    (Reaches idle World.secure RegId.QMX_Q_CFG 256 0) ∧ (Reaches queue300 World.secure RegId.QMX_Q_CFG 300 0) ∧
    (Reaches queueHolds World.secure RegId.QMX_Q_CFG 300 0) ∧ (Reaches queueHolds World.secure RegId.QMX_Q_CMD 300 0) ∧
    (Reaches idle World.secure RegId.QMX_Q_CMD 300 0) ∧ ((256 ≤ 256) ∧ (idle.on R.QMX_Q_CFG_EN 256 = false) ∧
    ((idle.putQueueFields 256 9).enableCheck 256 = none) ∧ ((idle.putQueueFields 256 1).enableCheck 256 = some Status.range) ∧
    (256 ≤ 300) ∧ (queue300.on R.QMX_Q_CFG_EN 300 = true) ∧ (queue300.changes queueFields 300 0 1 = true) ∧
    (queue300.changes queueFields 300 0 16402498 = false) ∧ (queue300.queueBusy 300 = false) ∧ (queueHolds.on R.QMX_Q_CFG_EN 300 = true) ∧
    (queueHolds.changes queueFields 300 0 16402498 = false) ∧ (queueHolds.queueBusy 300 = true) ∧
    (¬(queueHolds.get R.QMX_Q_CFG_STATION 300 < 8 ∧ queueHolds.stBusy (queueHolds.get R.QMX_Q_CFG_STATION 300) = true)) ∧
    (queueHolds.qState 300 ≠ 2) ∧ ((queueHolds.queue 300).present = []) ∧ (idle.on R.QMX_Q_CFG_EN 300 = false)) :=
  ⟨reaches_secure (by decide +kernel), reaches_secure (by decide +kernel), reaches_secure (by decide +kernel),
  reaches_secure (by decide +kernel), reaches_secure (by decide +kernel), by decide +kernel⟩

theorem witness_cells_fire :
    (engine5.engState 5 = Eng.running) ∧ (engine5.dev ≠ Dev.thermalLatch ∨ 0 < 44) ∧ (engine5.cellReady 5 0 = true) ∧ (0 < 44) ∧
    (engine5.dev ≠ Dev.thermalLatch ∨ 44 < 44) ∧ (engine5.cellReady 5 44 = true) ∧ (44 ≤ 44) := by decide +kernel

theorem witness_cell_library :
    ((0 ≤ 0) ∧ (65535 * ↑(2 ^ 2) ≤ 262140) ∧ (0 ≤ 131071) ∧ (131071 ≤ 65535 * ↑(2 ^ 2)) ∧ (-131072 ≤ -32768 * ↑(2 ^ 2)) ∧
    (32767 * ↑(2 ^ 2) ≤ 131068) ∧ (-32768 * ↑(2 ^ 2) ≤ 131067) ∧ (131067 ≤ 32767 * ↑(2 ^ 2)) ∧ (bits { tw := 16 : CellCfg }.tw 0 4 = 0) ∧
    (bits { tw := 1 : CellCfg }.tw 0 4 = 1) ∧ (bits { tw := 2 : CellCfg }.tw 0 4 = 2) ∧ (bits { tw := 3 : CellCfg }.tw 0 4 = 3) ∧
    (bits { tw := 132 : CellCfg }.tw 0 4 = 4) ∧ (bits { tw := 69 : CellCfg }.tw 0 4 = 5) ∧ (bits { tw := 7 : CellCfg }.tw 0 4 = 7) ∧
    (bits { cw := 2 ^ 30, tw := 8 : CellCfg }.tw 0 4 = 8) ∧ (bits { cw := 2 ^ 30, tw := 9 : CellCfg }.tw 0 4 = 9) ∧
    (bits { tw := 10 : CellCfg }.tw 0 4 = 10) ∧ (bits { tw := 11 : CellCfg }.tw 0 4 = 11) ∧ (bits { tw := 12 : CellCfg }.tw 0 4 = 12) ∧
    (bits { tw := 13 : CellCfg }.tw 0 4 = 13) ∧ (bits { tw := 14 : CellCfg }.tw 0 4 = 14) ∧ (3 < 4) ∧
    (bits { tw := 1 : CellCfg }.tw 0 4 ≠ 15)) ∧ ((0 < 4) ∧ (bits { tw := 15 : CellCfg }.tw 0 4 = 15) ∧ (2 < 4) ∧
    (4095 < (if { : CellCfg }.isign = true then (toSigned 16 4096 + 32768).toNat else 4096) / 2 ^ bits { : CellCfg }.tw 0 4) ∧
    (bit { : CellCfg }.tw 4 = false) ∧
    ((if { : CellCfg }.isign = true then (toSigned 16 4095 + 32768).toNat else 4095) / 2 ^ bits { : CellCfg }.tw 0 4 ≤ 4095) ∧
    ((if { tw := 16 : CellCfg }.isign = true then (toSigned 16 4094 + 32768).toNat else 4094) / 2 ^ bits { tw := 16 : CellCfg }.tw 0 4 <
      4095) ∧ (bit { tw := 16 : CellCfg }.tw 4 = true) ∧
    ((if { tw := 16 : CellCfg }.isign = true then (toSigned 16 4094 + 32768).toNat else 4094) % 2 ^ bits { tw := 16 : CellCfg }.tw 0 4 =
      0) ∧ (winSamples { tw := 155 : CellCfg } win3 1 1 ≠ []) ∧ (bits { tw := 155 : CellCfg }.tw 6 2 = 2) ∧
    (winSamples { tw := 219 : CellCfg } win3 1 1 ≠ []) ∧ (bits { tw := 219 : CellCfg }.tw 6 2 = 3) ∧
    (winSamples { tw := 27 : CellCfg } win3 1 1 ≠ []) ∧ (bits { tw := 27 : CellCfg }.tw 6 2 = 0) ∧
    ((-1 : Int) < 0 ∨ (4 : Int) * ↑(winWidth { : CellCfg }) ≤ -1) ∧
    ((4 : Int) < 0 ∨ (4 : Int) * ↑(winWidth { tw := 256 : CellCfg }) ≤ 4) ∧ (redOp { : CellCfg } = 0) ∧
    (redOp { tw := 1 : CellCfg } = 1) ∧ (redOp { tw := 2 : CellCfg } = 2) ∧ (redOp { tw := 3 : CellCfg } = 3) ∧
    (5 < rdLane { tw := 3 : CellCfg }.isign 7) ∧ (rdLane { tw := 3 : CellCfg }.isign 7 ≤ 7) ∧ (redOp { tw := 4 : CellCfg } = 4)) :=
  ⟨by decide +kernel, by decide +kernel⟩

theorem witness_cell_firings :
    (((marks.engine 5).fire 2 (marks.bandExp (marks.engStation 5)) marks.fresh = Fire.fault 3) ∧
    ((arith.engine 5).fire 1 (arith.bandExp (arith.engStation 5)) arith.fresh = Fire.done fired 0) ∧
    ((arith.engine 5).meetsMarker 1 = false) ∧ (1 < 32) ∧ (((arith.engine 5).cfgOf 1).used = true) ∧
    (((arith.engine 5).cell 1).out = none) ∧ (((arith.engine 5).cell 1).pend = []) ∧ (((arith.engine 5).cell 1).skipping = false) ∧
    (((arith.engine 5).cfgOf 1).cellInputs 1 = [(0, 0)]) ∧ ((arith.engine 5).peek 1 (0, 0) = some { data := 9 : FWord }) ∧
    ({ data := 9 : FWord }.marker = false) ∧ (((arith.engine 5).cfgOf 1).enabled { data := 9 : FWord }.phase = true) ∧
    (((arith.engine 5).cell 1).hold = false) ∧ (((arith.engine 5).cell 1).inItem = false) ∧ (((inItem.engine 5).cfgOf 1).used = true) ∧
    (((inItem.engine 5).cell 1).out = none) ∧ (((inItem.engine 5).cell 1).pend = []) ∧ (((inItem.engine 5).cell 1).skipping = false) ∧
    (((inItem.engine 5).cfgOf 1).cellInputs 1 = [(0, 0)]) ∧ ((inItem.engine 5).peek 1 (0, 0) = some { data := 9 : FWord }) ∧
    (((inItem.engine 5).cfgOf 1).enabled { data := 9 : FWord }.phase = true) ∧ (((inItem.engine 5).cell 1).hold = false) ∧
    (((inItem.engine 5).cell 1).inItem = true) ∧ (1 < 24)) ∧ ((bits ((inItem.engine 5).cfgOf 1).tw 0 4 ≠ 6) ∧ (24 < 32) ∧
    (((looks.engine 5).cfgOf 24).used = true) ∧ (((looks.engine 5).cell 24).out = none) ∧ (((looks.engine 5).cell 24).pend = []) ∧
    (((looks.engine 5).cell 24).skipping = false) ∧ (((looks.engine 5).cfgOf 24).cellInputs 24 = [(0, 0)]) ∧
    ((looks.engine 5).peek 24 (0, 0) = some { data := 9 : FWord }) ∧
    (((looks.engine 5).cfgOf 24).enabled { data := 9 : FWord }.phase = true) ∧ (((looks.engine 5).cell 24).hold = false) ∧
    (((looks.engine 5).cell 24).inItem = true) ∧ (24 ≤ 24) ∧ (bits { tw := 6 : CellCfg }.tw 0 4 = 6) ∧
    (({ : Engine }.cell 1).out = none) ∧
    ({ data := 9, fin := true : FWord }.fin = true ∨ ({ : Engine }.cell 1).run = bits { tw := 6 : CellCfg }.tw 16 16) ∧
    (bits { tw := 6 + 3 * 2 ^ 16 : CellCfg }.tw 0 4 = 6) ∧
    (¬({ data := 9 : FWord }.fin = true ∨ ({ : Engine }.cell 1).run = bits { tw := 6 + 3 * 2 ^ 16 : CellCfg }.tw 16 16)) ∧
    (((marks.engine 5).cfgOf 2).used = true) ∧ (((marks.engine 5).cell 2).out = none) ∧ (((marks.engine 5).cell 2).pend = []) ∧
    (((marks.engine 5).cell 2).skipping = false) ∧ (((marks.engine 5).cfgOf 2).cellInputs 2 = [(0, 0), (1, 1)]) ∧
    ((marks.engine 5).peek 2 (0, 0) = some { data := 9, mark := true : FWord }) ∧
    ((marks.engine 5).peek 2 (1, 1) = some { data := 9 : FWord })) ∧ (({ data := 9, mark := true : FWord }.marker = false) ∧
    ({ data := 9, mark := true : FWord }.void = false) ∧ ({ data := 9 : FWord }.void = false) ∧
    ({ data := 9, mark := true : FWord }.mark ≠ { data := 9 : FWord }.mark) ∧ (idle.on R.IEA_ENG_PORT_USED 5 = false) ∧
    (portFed.on R.IEA_ENG_PORT_USED 5 = true) ∧ (portFed.on R.IEA_ENG_PORT_DIR 5 = false) ∧
    (((portFed.engine 5).cell (44 + 0)).out = none) ∧ (((portFed.engine 5).cell (44 + 0)).pend = [{ data := 3 : FWord }])) :=
  ⟨by decide +kernel, by decide +kernel, by decide +kernel⟩

theorem witness_engine_host_access :
    (Reaches engine5 World.secure RegId.IEA_ENG_CMD 5 0) ∧ (Reaches idle World.secure RegId.IEA_ENG_CMD 5 0) ∧
    (Reaches engineLoaded World.secure RegId.IEA_ENG_LS_DATA 5 0) ∧ (Reaches engine5 World.secure RegId.IEA_ENG_LS_DATA 5 0) ∧
    ((engine5.engState 5 = Eng.running ∧ (engine5.engine 5).wait = SeqWait.host) ∧
    (¬(idle.engState 5 = Eng.running ∧ (idle.engine 5).wait = SeqWait.host)) ∧
    (¬engineLoaded.engState 5 ∈ [Eng.running, Eng.reloading, Eng.faulted]) ∧
    (engine5.engState 5 ∈ [Eng.running, Eng.reloading, Eng.faulted]) ∧ (engineLoaded.held = false) ∧
    (World.secure = World.secure ∨ engineLoaded.addrWorld (RegId.IEA_ENG_LS_DATA.addr 5) = World.nonSecure)) :=
  ⟨reaches_secure (by decide +kernel), reaches_secure (by decide +kernel), reaches_secure (by decide +kernel),
  reaches_secure (by decide +kernel), by decide +kernel⟩

theorem witness_image_loads :
    (Reaches loading World.secure RegId.SCU_IMG_CTRL 0 0) ∧ (Reaches idle World.secure RegId.SCU_IMG_CTRL 0 0) ∧
    (Reaches (idle.set R.SCU_IMG_LEN_LENGTH 64) World.secure RegId.SCU_IMG_CTRL 0 0) ∧
    (Reaches (idle.set R.SCU_IMG_LEN_LENGTH 63) World.secure RegId.SCU_IMG_CTRL 0 0) ∧
    (Reaches ((idle.set R.SCU_IMG_LEN_LENGTH 64).set R.SST_CFG_STORE 32) World.secure RegId.SCU_IMG_CTRL 0 0) ∧
    (Reaches ((idle.set R.SCU_IMG_LEN_LENGTH 64).set R.SMC_DEV_STATE_STATE Dev.armed) World.secure RegId.SCU_IMG_CTRL 0 0) ∧
    ((R.SCU_IMG_CTRL_GO.of 2147483648 = 1) ∧ (loading.on R.SCU_IMG_STATUS_BUSY = true) ∧ (idle.on R.SCU_IMG_STATUS_BUSY = false) ∧
    (idle.get R.SCU_IMG_LEN_LENGTH = 0) ∧ ((idle.set R.SCU_IMG_LEN_LENGTH 64).on R.SCU_IMG_STATUS_BUSY = false) ∧
    (64 ≤ (idle.set R.SCU_IMG_LEN_LENGTH 64).get R.SCU_IMG_LEN_LENGTH) ∧
    ((idle.set R.SCU_IMG_LEN_LENGTH 64).get R.SCU_IMG_LEN_LENGTH ≤ 268435456) ∧
    (false = true ∨ (wrote (idle.set R.SCU_IMG_LEN_LENGTH 64) World.secure RegId.SCU_IMG_CTRL 0 0 2147483648).fullLoadFail = none) ∧
    ((wrote (idle.set R.SCU_IMG_LEN_LENGTH 64) World.secure RegId.SCU_IMG_CTRL 0 0 2147483648).get R.SST_CFG_STORE ≠ 32) ∧
    ((idle.set R.SCU_IMG_LEN_LENGTH 63).on R.SCU_IMG_STATUS_BUSY = false) ∧
    ((idle.set R.SCU_IMG_LEN_LENGTH 63).get R.SCU_IMG_LEN_LENGTH ≠ 0) ∧
    ((idle.set R.SCU_IMG_LEN_LENGTH 63).get R.SCU_IMG_LEN_LENGTH < 64 ∨ 268435456 < (idle.set R.SCU_IMG_LEN_LENGTH 63).get
      R.SCU_IMG_LEN_LENGTH) ∧ (((idle.set R.SCU_IMG_LEN_LENGTH 64).set R.SST_CFG_STORE 32).on R.SCU_IMG_STATUS_BUSY = false) ∧
    (64 ≤ ((idle.set R.SCU_IMG_LEN_LENGTH 64).set R.SST_CFG_STORE 32).get R.SCU_IMG_LEN_LENGTH) ∧
    (((idle.set R.SCU_IMG_LEN_LENGTH 64).set R.SST_CFG_STORE 32).get R.SCU_IMG_LEN_LENGTH ≤ 268435456) ∧
    (false = true ∨ (wrote ((idle.set R.SCU_IMG_LEN_LENGTH 64).set R.SST_CFG_STORE 32) World.secure RegId.SCU_IMG_CTRL 0 0
      2147483648).fullLoadFail = none) ∧
    ((wrote ((idle.set R.SCU_IMG_LEN_LENGTH 64).set R.SST_CFG_STORE 32) World.secure RegId.SCU_IMG_CTRL 0 0 2147483648).get
      R.SST_CFG_STORE = 32) ∧
    (((idle.set R.SCU_IMG_LEN_LENGTH 64).set R.SMC_DEV_STATE_STATE Dev.armed).on R.SCU_IMG_STATUS_BUSY = false) ∧
    (64 ≤ ((idle.set R.SCU_IMG_LEN_LENGTH 64).set R.SMC_DEV_STATE_STATE Dev.armed).get R.SCU_IMG_LEN_LENGTH) ∧
    (((idle.set R.SCU_IMG_LEN_LENGTH 64).set R.SMC_DEV_STATE_STATE Dev.armed).get R.SCU_IMG_LEN_LENGTH ≤ 268435456) ∧ (false = false) ∧
    ((wrote ((idle.set R.SCU_IMG_LEN_LENGTH 64).set R.SMC_DEV_STATE_STATE Dev.armed) World.secure RegId.SCU_IMG_CTRL 0 0
      2147483648).fullLoadFail = some { stage := 0, status := Status.state : ImgFail }) ∧ (loadsBusy.on R.SCU_IMG_STATUS_BUSY = true) ∧
    (loadsBusy.scu.waiting = none)) ∧ ((loadsBusy.scu.loadPart = true) ∧ ({ readOk := true, bytes := [] : ImageObs }.readOk = true) ∧
    (ImgFile.isPart { readOk := true, bytes := [] : ImageObs }.bytes = false) ∧
    (loadsBusy.fullLoadFail = some { stage := 0, status := Status.state : ImgFail }) ∧ (loading.scu.waiting = none) ∧
    (loading.scu.loadPart = false ∨ ImgFile.isPart { readOk := false, bytes := [] : ImageObs }.bytes = true ∨ loading.fullLoadFail = none)
      ∧ (loading.imageFail { readOk := false, bytes := [] : ImageObs } = some { stage := 1, status := Status.absent : ImgFail }) ∧
    (loadsFull.on R.SCU_IMG_STATUS_BUSY = true) ∧ (loadsFull.scu.waiting = none) ∧
    (loadsFull.scu.loadPart = false ∨ loadsFull.fullLoadFail = none) ∧ (ImgFile.isPart (Tests.read 0 [feedRec, sendRec]).bytes = false) ∧
    (loadsPart.on R.SCU_IMG_STATUS_BUSY = true) ∧ (loadsPart.scu.waiting = none) ∧ (ImgFile.isPart partRead.bytes = true) ∧
    (loadsPart.imageFail partRead = none) ∧ (ImgFile.isPart (Tests.read 2 [feedRec]).bytes = true)) ∧
    (loadsFull.imageFail (Tests.read 0 [feedRec, sendRec]) = none) ∧ (loadsPart.imageFail (Tests.read 2 [feedRec]) = none) :=
  ⟨reaches_secure (by decide +kernel), reaches_secure (by decide +kernel), reaches_secure (by decide +kernel),
  reaches_secure (by decide +kernel), reaches_secure (by decide +kernel), reaches_secure (by decide +kernel), by decide +kernel,
  by decide +kernel, by decide +kernel, by decide +kernel⟩

theorem witness_image_checks :
    (({ readOk := false, bytes := [] : ImageObs }.readOk = false) ∧ (partRead.readOk = true) ∧ (ImgFile.isPart partRead.bytes = true) ∧
    ((loading.set R.SCU_RLD_STATUS_PHASE 1).get R.SCU_RLD_STATUS_PHASE ≠ 0) ∧ ((header [86, 67, 83, 72, 0, 1, 0, 0]).readOk = true) ∧
    (ImgFile.isPart (header [86, 67, 83, 72, 0, 1, 0, 0]).bytes = false) ∧
    (¬List.take 4 (header [86, 67, 83, 72, 0, 1, 0, 0]).bytes = [86, 67, 83, 73]) ∧
    ((header [86, 67, 83, 73, 0, 2, 0, 0]).readOk = true) ∧ (ImgFile.isPart (header [86, 67, 83, 73, 0, 2, 0, 0]).bytes = false) ∧
    (List.take 4 (header [86, 67, 83, 73, 0, 2, 0, 0]).bytes = [86, 67, 83, 73]) ∧
    (field (header [86, 67, 83, 73, 0, 2, 0, 0]).bytes 5 1 ≠ 1) ∧ ((header [86, 67, 83, 73, 0, 1, 4, 0]).readOk = true) ∧
    (ImgFile.isPart (header [86, 67, 83, 73, 0, 1, 4, 0]).bytes = false) ∧
    (List.take 4 (header [86, 67, 83, 73, 0, 1, 4, 0]).bytes = [86, 67, 83, 73]) ∧
    (field (header [86, 67, 83, 73, 0, 1, 4, 0]).bytes 5 1 = 1) ∧ (4 ≤ ImgFile.flags (header [86, 67, 83, 73, 0, 1, 4, 0]).bytes) ∧
    ((header ([86, 67, 83, 73, 0, 1, 0, 0] ++ leBytes 4 63)).readOk = true) ∧
    (ImgFile.isPart (header ([86, 67, 83, 73, 0, 1, 0, 0] ++ leBytes 4 63)).bytes = false) ∧
    (List.take 4 (header ([86, 67, 83, 73, 0, 1, 0, 0] ++ leBytes 4 63)).bytes = [86, 67, 83, 73]) ∧
    (field (header ([86, 67, 83, 73, 0, 1, 0, 0] ++ leBytes 4 63)).bytes 5 1 = 1) ∧
    (ImgFile.flags (header ([86, 67, 83, 73, 0, 1, 0, 0] ++ leBytes 4 63)).bytes < 4) ∧
    (¬(64 ≤ ImgFile.total (header ([86, 67, 83, 73, 0, 1, 0, 0] ++ leBytes 4 63)).bytes ∧ ImgFile.total (header ([86, 67, 83, 73, 0, 1, 0,
      0] ++ leBytes 4 63)).bytes ≤ 268435456 ∧ ImgFile.total (header ([86, 67, 83, 73, 0, 1, 0, 0] ++ leBytes 4 63)).bytes ≤
      loading.scu.loadLen)) ∧ ((header ([86, 67, 83, 73, 0, 1, 0, 0] ++ leBytes 4 64 ++ leBytes 4 64 ++ leBytes 4 1)).readOk = true) ∧
    (ImgFile.isPart (header ([86, 67, 83, 73, 0, 1, 0, 0] ++ leBytes 4 64 ++ leBytes 4 64 ++ leBytes 4 1)).bytes = false)) ∧
    ((List.take 4 (header ([86, 67, 83, 73, 0, 1, 0, 0] ++ leBytes 4 64 ++ leBytes 4 64 ++ leBytes 4 1)).bytes = [86, 67, 83, 73]) ∧
    (field (header ([86, 67, 83, 73, 0, 1, 0, 0] ++ leBytes 4 64 ++ leBytes 4 64 ++ leBytes 4 1)).bytes 5 1 = 1) ∧
    (ImgFile.flags (header ([86, 67, 83, 73, 0, 1, 0, 0] ++ leBytes 4 64 ++ leBytes 4 64 ++ leBytes 4 1)).bytes < 4) ∧
    (64 ≤ ImgFile.total (header ([86, 67, 83, 73, 0, 1, 0, 0] ++ leBytes 4 64 ++ leBytes 4 64 ++ leBytes 4 1)).bytes ∧ ImgFile.total
      (header ([86, 67, 83, 73, 0, 1, 0, 0] ++ leBytes 4 64 ++ leBytes 4 64 ++ leBytes 4 1)).bytes ≤ 268435456 ∧ ImgFile.total (header
      ([86, 67, 83, 73, 0, 1, 0, 0] ++ leBytes 4 64 ++ leBytes 4 64 ++ leBytes 4 1)).bytes ≤ loading.scu.loadLen) ∧
    (ImgFile.total (header ([86, 67, 83, 73, 0, 1, 0, 0] ++ leBytes 4 64 ++ leBytes 4 64 ++ leBytes 4 1)).bytes < ImgFile.manOff (header
      ([86, 67, 83, 73, 0, 1, 0, 0] ++ leBytes 4 64 ++ leBytes 4 64 ++ leBytes 4 1)).bytes + ImgFile.manLen (header ([86, 67, 83, 73, 0,
      1, 0, 0] ++ leBytes 4 64 ++ leBytes 4 64 ++ leBytes 4 1)).bytes) ∧
    ((header ([86, 67, 83, 73, 0, 1, 0, 0] ++ leBytes 4 64 ++ leBytes 4 0 ++ leBytes 4 64)).readOk = true) ∧
    (ImgFile.isPart (header ([86, 67, 83, 73, 0, 1, 0, 0] ++ leBytes 4 64 ++ leBytes 4 0 ++ leBytes 4 64)).bytes = false) ∧
    (List.take 4 (header ([86, 67, 83, 73, 0, 1, 0, 0] ++ leBytes 4 64 ++ leBytes 4 0 ++ leBytes 4 64)).bytes = [86, 67, 83, 73]) ∧
    (field (header ([86, 67, 83, 73, 0, 1, 0, 0] ++ leBytes 4 64 ++ leBytes 4 0 ++ leBytes 4 64)).bytes 5 1 = 1) ∧
    (ImgFile.flags (header ([86, 67, 83, 73, 0, 1, 0, 0] ++ leBytes 4 64 ++ leBytes 4 0 ++ leBytes 4 64)).bytes < 4) ∧
    (64 ≤ ImgFile.total (header ([86, 67, 83, 73, 0, 1, 0, 0] ++ leBytes 4 64 ++ leBytes 4 0 ++ leBytes 4 64)).bytes ∧ ImgFile.total
      (header ([86, 67, 83, 73, 0, 1, 0, 0] ++ leBytes 4 64 ++ leBytes 4 0 ++ leBytes 4 64)).bytes ≤ 268435456 ∧ ImgFile.total (header
      ([86, 67, 83, 73, 0, 1, 0, 0] ++ leBytes 4 64 ++ leBytes 4 0 ++ leBytes 4 64)).bytes ≤ loading.scu.loadLen) ∧
    (ImgFile.manOff (header ([86, 67, 83, 73, 0, 1, 0, 0] ++ leBytes 4 64 ++ leBytes 4 0 ++ leBytes 4 64)).bytes + ImgFile.manLen (header
      ([86, 67, 83, 73, 0, 1, 0, 0] ++ leBytes 4 64 ++ leBytes 4 0 ++ leBytes 4 64)).bytes ≤ ImgFile.total (header ([86, 67, 83, 73, 0, 1,
      0, 0] ++ leBytes 4 64 ++ leBytes 4 0 ++ leBytes 4 64)).bytes) ∧
    (ImgFile.manLen (header ([86, 67, 83, 73, 0, 1, 0, 0] ++ leBytes 4 64 ++ leBytes 4 0 ++ leBytes 4 64)).bytes ≠ 96 + 16 * ImgFile.nR
      (header ([86, 67, 83, 73, 0, 1, 0, 0] ++ leBytes 4 64 ++ leBytes 4 0 ++ leBytes 4 64)).bytes + 96 * ImgFile.nS (header ([86, 67, 83,
      73, 0, 1, 0, 0] ++ leBytes 4 64 ++ leBytes 4 0 ++ leBytes 4 64)).bytes) ∧
    ((forge (Tests.read 0 [feedRec, sendRec])).readOk = true) ∧ (ImgFile.isPart (forge (Tests.read 0 [feedRec, sendRec])).bytes = false) ∧
    (ImgFile.stage2 (forge (Tests.read 0 [feedRec, sendRec])).bytes loadsFull.scu.loadLen (loadsFull.imageSects (forge (Tests.read 0
      [feedRec, sendRec])).bytes) = none) ∧ (loadsFull.ownerSigned (forge (Tests.read 0 [feedRec, sendRec])).bytes = false) ∧
    (untested.readOk = true) ∧ (ImgFile.isPart untested.bytes = false) ∧
    (ImgFile.stage2 untested.bytes loadsFull.scu.loadLen (loadsFull.imageSects untested.bytes) = none) ∧
    (loadsFull.ownerSigned untested.bytes = true) ∧ (loadsFull.on R.SMC_POLICY_ALLOW_UNTESTED = false) ∧
    (loadsFull.stage4 untested.bytes = some { stage := 4, status := Status.version, off := 164 : ImgFail }) ∧
    ((spoil (Tests.read 0 [feedRec, sendRec])).readOk = true)) ∧
    ((ImgFile.isPart (spoil (Tests.read 0 [feedRec, sendRec])).bytes = false) ∧
    (ImgFile.stage2 (spoil (Tests.read 0 [feedRec, sendRec])).bytes loadsFull.scu.loadLen (loadsFull.imageSects (spoil (Tests.read 0
      [feedRec, sendRec])).bytes) = none) ∧ (loadsFull.ownerSigned (spoil (Tests.read 0 [feedRec, sendRec])).bytes = true) ∧
    (loadsFull.on R.SMC_POLICY_ALLOW_UNTESTED = true ∨ loadsFull.stage4 (spoil (Tests.read 0 [feedRec, sendRec])).bytes = none) ∧
    (List.find? (fun x => !x.good) (loadsFull.imageSects (spoil (Tests.read 0 [feedRec, sendRec])).bytes) = some spoiled) ∧
    ((Tests.read 0 [feedRec, feedRec]).readOk = true) ∧ (ImgFile.isPart (Tests.read 0 [feedRec, feedRec]).bytes = false) ∧
    (ImgFile.stage2 (Tests.read 0 [feedRec, feedRec]).bytes loadsFull.scu.loadLen (loadsFull.imageSects (Tests.read 0 [feedRec,
      feedRec]).bytes) = none) ∧ (loadsFull.ownerSigned (Tests.read 0 [feedRec, feedRec]).bytes = true) ∧
    (loadsFull.on R.SMC_POLICY_ALLOW_UNTESTED = true ∨ loadsFull.stage4 (Tests.read 0 [feedRec, feedRec]).bytes = none) ∧
    (List.find? (fun x => !x.good) (loadsFull.imageSects (Tests.read 0 [feedRec, feedRec]).bytes) = none) ∧
    (loadsFull.stage6 (loadsFull.imageSects (Tests.read 0 [feedRec, feedRec]).bytes) (ImgFile.parse (Tests.read 0 [feedRec,
      feedRec]).bytes (loadsFull.imageSects (Tests.read 0 [feedRec, feedRec]).bytes)) = some
      { stage := 6, status := Status.range, sect := 2, off := 1832 : ImgFail }) ∧ ((Tests.read 0 [feedRec, sendRec]).readOk = true) ∧
    (ImgFile.isPart (Tests.read 0 [feedRec, sendRec]).bytes = false) ∧
    (ImgFile.stage2 (Tests.read 0 [feedRec, sendRec]).bytes loadsFull.scu.loadLen (loadsFull.imageSects (Tests.read 0 [feedRec,
      sendRec]).bytes) = none) ∧ (loadsFull.ownerSigned (Tests.read 0 [feedRec, sendRec]).bytes = true) ∧
    (loadsFull.on R.SMC_POLICY_ALLOW_UNTESTED = true ∨ loadsFull.stage4 (Tests.read 0 [feedRec, sendRec]).bytes = none) ∧
    (List.find? (fun x => !x.good) (loadsFull.imageSects (Tests.read 0 [feedRec, sendRec]).bytes) = none) ∧
    (loadsFull.stage6 (loadsFull.imageSects (Tests.read 0 [feedRec, sendRec]).bytes) (ImgFile.parse (Tests.read 0 [feedRec,
      sendRec]).bytes (loadsFull.imageSects (Tests.read 0 [feedRec, sendRec]).bytes)) = none) ∧
    (sectOf (loadsFull.imageSects (Tests.read 0 [feedRec, sendRec]).bytes) 4 = some worldsSect) ∧
    (loadsFull.stage4 (file 0 [feedRec, sendRec] 4294967295) = some { stage := 4, status := Status.version, off := 164 : ImgFail }) ∧
    (idle.topoFail { idx := 1, typ := 1, off := 0, len := 0, entry := 0, data := [], good := true : Sect } { : Image } = some
      { stage := 6, status := Status.range, sect := 1 : ImgFail }) ∧
    ({ idx := 1, typ := 1, off := 0, len := 0, entry := 0, data := [], good := true : Sect }.count = 0 ∨ 512 <
      { idx := 1, typ := 1, off := 0, len := 0, entry := 0, data := [], good := true : Sect }.count) ∧
    (idle.stage7 worldsSect { worlds := [{ kind := 1, world := 1, first := 1, count := 1 : WorldReq }] : Image } = some
      { stage := 7, status := Status.world, sect := 3, off := worldsSect.off + 9 : ImgFail })) :=
  ⟨by decide +kernel, by decide +kernel, by decide +kernel⟩

theorem witness_reloads :
    (Reaches (staged 1) World.secure RegId.SCU_RLD_CTRL 0 0) ∧ (Reaches (staged 2) World.secure RegId.SCU_RLD_CTRL 0 0) ∧
    (((staged 3).scu.staged = some
      { isPartial := true, groupMask := 1, topo := [{ engine := 5, station := 2, group := 0, ovfPage := 0, ovfPages := 0, seq := [] : Topo }] : Image })
      ∧ ((staged 3).get R.SCU_RLD_STATUS_PHASE = 3) ∧ (R.SCU_RLD_CTRL_CANCEL.of 1 = 1) ∧
    ((staged 1).scu.staged = some
      { isPartial := true, groupMask := 1, topo := [{ engine := 5, station := 2, group := 0, ovfPage := 0, ovfPages := 0, seq := [] : Topo }] : Image })
      ∧ ((staged 1).get R.SCU_RLD_STATUS_PHASE = 1) ∧
    ((staged 2).scu.staged = some
      { isPartial := true, groupMask := 1, topo := [{ engine := 5, station := 2, group := 0, ovfPage := 0, ovfPages := 0, seq := [] : Topo }] : Image })
      ∧ ((staged 2).get R.SCU_RLD_STATUS_PHASE ≠ 1)) :=
  ⟨reaches_secure (by decide +kernel), reaches_secure (by decide +kernel), by decide +kernel⟩

theorem witness_seal_attempts :
    (idle.meetsLocal 2 (idle.nextLocal 2) = false) ∧ (bare2.meetsLocal 2 (bare2.nextLocal 2) = true) ∧
    ((sealing bare2 2).on R.SCU_SEAL_ST_STATUS_FROZEN 2 = false) ∧ ((sealing bare2 2).ringStation 2 = false) ∧
    (frozen2.meetsLocal 2 (frozen2.nextLocal 2) = true) ∧ ((sealing frozen2 2).on R.SCU_SEAL_ST_STATUS_FROZEN 2 = true) ∧
    ((bare2.set R.KRU_ST_CTRL_RING 1 2).meetsLocal 2 ((bare2.set R.KRU_ST_CTRL_RING 1 2).nextLocal 2) = true) ∧
    ((sealing (bare2.set R.KRU_ST_CTRL_RING 1 2) 2).on R.SCU_SEAL_ST_STATUS_FROZEN 2 = false) ∧
    ((sealing (bare2.set R.KRU_ST_CTRL_RING 1 2) 2).ringStation 2 = true) := by decide +kernel

theorem witness_freezes_end :
    (Reaches frozen2 World.secure RegId.SCU_SEAL_ST_CTRL 2 0) ∧ (Reaches bare2 World.secure RegId.SCU_SEAL_ST_CTRL 2 0) ∧
    (Reaches (frozen2.set R.SCU_SEAL_AUD_FAILING 2) World.secure RegId.SCU_SEAL_ST_CTRL 2 0) ∧
    ((R.SCU_SEAL_ST_CTRL_THAW.of 2147483748 = 1) ∧ (frozen2.on R.SCU_SEAL_ST_STATUS_FROZEN 2 = true) ∧ (frozen2.scopeFails 2 = false) ∧
    (frozen2.changes [R.SCU_SEAL_ST_CTRL_MAXLAT, R.SCU_SEAL_ST_CTRL_SNAP_LOG] 2 0 2147483748 = false) ∧
    (1 ≤ R.SCU_SEAL_ST_CTRL_MAXLAT.of 2147483748) ∧ (R.SCU_SEAL_ST_CTRL_MAXLAT.of 2147483748 ≤ 1000) ∧
    (R.SCU_SEAL_ST_CTRL_SNAP_LOG.of 2147483748 ≤ 8) ∧ (R.SCU_SEAL_ST_CTRL_THAW.of 2147483648 = 1) ∧
    (bare2.on R.SCU_SEAL_ST_STATUS_FROZEN 2 = false) ∧ (late2.stBusy 2 = true) ∧
    (late2.bandExists 2 (if late2.on R.SCU_SEAL_ST_STATUS_VALID 2 = true then late2.get R.SCU_SEAL_ST_HZN_BAND 2 + 1 else bandOf (late2.w0
      2) (late2.bandExp 2)) = true) ∧ ((late2.lst 2).last = some { n := 63 : CLine }) ∧
    (late2.bandLast 2 (if late2.on R.SCU_SEAL_ST_STATUS_VALID 2 = true then late2.get R.SCU_SEAL_ST_HZN_BAND 2 + 1 else bandOf (late2.w0
      2) (late2.bandExp 2)) ≤ { n := 63 : CLine }.n) ∧
    (late2.tooLate 2 (late2.sealAge 2 (if late2.on R.SCU_SEAL_ST_STATUS_VALID 2 = true then late2.get R.SCU_SEAL_ST_HZN_BAND 2 + 1 else
      bandOf (late2.w0 2) (late2.bandExp 2)) (12800000 * 1000 + 1)) = true) ∧
    ((late2.sealOf 2).lateBand ≠ some (if late2.on R.SCU_SEAL_ST_STATUS_VALID 2 = true then late2.get R.SCU_SEAL_ST_HZN_BAND 2 + 1 else
      bandOf (late2.w0 2) (late2.bandExp 2))) ∧ ((frozen2.set R.SCU_SEAL_AUD_FAILING 2).scopeFails 2 = true)) :=
  ⟨reaches_secure (by decide +kernel), reaches_secure (by decide +kernel), reaches_secure (by decide +kernel), by decide +kernel⟩

theorem witness_fault_entry :
    (idle.dev ≠ Dev.thermalLatch) ∧ (idle.dev ≠ Dev.fault) ∧ (∀ (m : Nat), m < 8 → idle.stBusy m = false) ∧ ((idle.ring 0).run = none) ∧
    ((idle.ring 1).run = none) ∧ (timed.dev ≠ Dev.thermalLatch) ∧ (timed.dev ≠ Dev.fault) ∧
    ((arming.ring 0).run = some { op := Op.stArm, tag := 5, station := 2 : Running }) ∧
    (16 ≤ { op := Op.stArm, tag := 5, station := 2 : Running }.op ∧ { op := Op.stArm, tag := 5, station := 2 : Running }.op ≤ 24) ∧
    ((flashing.ring 1).run = some { op := Op.flashWrite, tag := 5, data := [262144, 4] : Running }) ∧
    (¬(16 ≤ { op := Op.flashWrite, tag := 5, data := [262144, 4] : Running }.op ∧
      { op := Op.flashWrite, tag := 5, data := [262144, 4] : Running }.op ≤ 24)) ∧
    ((idle.set R.SMC_DEV_STATE_STATE Dev.fault).dev = Dev.thermalLatch ∨ (idle.set R.SMC_DEV_STATE_STATE Dev.fault).dev = Dev.fault) := by decide +kernel

theorem witness_bands_seal :
    (((bare2.setSeal 2 { localValid := true : Seal }).sealOf 2).localValid = true) ∧ (0 < 2 ^ 42) ∧ ((drains 1).stState 2 = St.draining) ∧
    (((drains 1).station 2).fLine = some 64) ∧ ((drains 1).on R.SCU_SEAL_ST_STATUS_VALID 2 = true) ∧
    (bandOf 64 ((drains 1).bandExp 2) ≤ (drains 1).get R.SCU_SEAL_ST_HZN_BAND 2) ∧ ((drains 0).stState 2 = St.draining) ∧
    (((drains 0).station 2).fLine = some 64) ∧ ((drains 0).on R.SCU_SEAL_ST_STATUS_VALID 2 = true) ∧
    ((drains 0).get R.SCU_SEAL_ST_HZN_BAND 2 < bandOf 64 ((drains 0).bandExp 2)) ∧
    ((idle.set R.QMX_POOL_FREE_FREE 65535).auditSlabs.fst = false) ∧ (idle.tokenBad = []) ∧ (tokenLost.tokenBad = [5]) ∧
    (∀ (n : Nat), n ∈ [2, 7] → n < 8) := by decide +kernel

theorem witness_snapshot_latch :
    (idle.held = false) ∧ (World.secure = World.secure ∨ idle.addrWorld (RegId.SCU_SEAL_ST_SNAP_BAND_LO.addr 7) = World.nonSecure) ∧
    (World.secure = World.secure ∨ idle.addrWorld (4 * 535049) = World.nonSecure) ∧
    (4 * 535049 = RegId.SCU_SEAL_ST_SNAP_BAND_HI.addr 7 ∨ ∃ i : Fin 15, 4 * 535049 = RegId.SCU_SEAL_ST_SNAP.addr 7 ↑i) := by decide +kernel

theorem witness_wrong_seq_frames_are_naked :
    (frameOf (Instr.hingeFrameRx 0 (bcast 9 [1, 2])) = some (0, bcast 9 [1, 2], 9)) ∧ ((bcast 9 [1, 2]).ftype = 9) ∧
    ((((member Ring.ring).setKlane 0 { exp := 1 : KLane }).ahead 0 (bcast 9 [1, 2]).ctl).laneOpen 0 (if 9 = 3 then KPort.auth else
      KPort.up) = true) ∧ ((bcast 9 [1, 2]).good = true) ∧
    (0 ≠ ((((member Ring.ring).setKlane 0 { exp := 1 : KLane }).ahead 0 (bcast 9 [1, 2]).ctl).klane 0).exp) ∧
    (((((member Ring.ring).setKlane 0 { exp := 1 : KLane }).ahead 0 (bcast 9 [1, 2]).ctl).klane 0).nak = false) ∧
    ((((naked (((member Ring.ring).setKlane 0 { exp := 1 : KLane }).ahead 0 (bcast 9 [1, 2]).ctl) 0 (bcast 9 [1, 2])).klane
      0).refused.find? 0).getD 0 + 1 < 4) ∧
    (frameOf (Instr.authFrameRx 0 (frame 3 3 2 [1]) (SpdmMsg.request 18 SpdmReq.getDigests false)) = some (0, frame 3 3 2 [1], 3)) ∧
    ((frame 3 3 2 [1]).ftype = 3) ∧
    ((((member Ring.ring).setKlane 0 { exp := 1, refused := [(0, 3)] : KLane }).ahead 0 (frame 3 3 2 [1]).ctl).laneOpen 0 (if 3 = 3 then
      KPort.auth else KPort.up) = true) ∧ ((frame 3 3 2 [1]).good = true) ∧
    (0 ≠ ((((member Ring.ring).setKlane 0 { exp := 1, refused := [(0, 3)] : KLane }).ahead 0 (frame 3 3 2 [1]).ctl).klane 0).exp) ∧
    (((((member Ring.ring).setKlane 0 { exp := 1, refused := [(0, 3)] : KLane }).ahead 0 (frame 3 3 2 [1]).ctl).klane 0).nak = false) ∧
    (4 ≤ (((naked (((member Ring.ring).setKlane 0 { exp := 1, refused := [(0, 3)] : KLane }).ahead 0 (frame 3 3 2 [1]).ctl) 0 (frame 3 3 2
      [1])).klane 0).refused.find? 0).getD 0 + 1) := by decide +kernel

theorem witness_empty_frames_are_counted :
    (frameOf (Instr.foldFrameRx 0 (bcast 11 [])) = some (0, bcast 11 [], 11)) ∧ ((bcast 11 []).ftype = 11) ∧
    (((member Ring.ring).ahead 0 (bcast 11 []).ctl).laneOpen 0 (if 11 = 3 then KPort.auth else KPort.up) = true) ∧
    ((((member Ring.ring).ahead 0 (bcast 11 []).ctl).kelimTake 0 (bcast 11 [])).fst = true) ∧ ((bcast 11 []).words = []) := by decide +kernel

theorem witness_kelim_ports :
    (((((member Ring.forming).set R.KRU_PORT_STATUS_STATE KPort.train).set R.KRU_CFG_MIN_LANES 2).kruOn = true) ∧
    ((((member Ring.forming).set R.KRU_PORT_STATUS_STATE KPort.train).set R.KRU_CFG_MIN_LANES 2).refRuns 4 = true) ∧
    ((((member Ring.forming).set R.KRU_PORT_STATUS_STATE KPort.train).set R.KRU_CFG_MIN_LANES 2).kport 0 = KPort.train ∨ (((member
      Ring.forming).set R.KRU_PORT_STATUS_STATE KPort.train).set R.KRU_CFG_MIN_LANES 2).kport 0 = KPort.dead) ∧
    ((((member Ring.forming).set R.KRU_PORT_STATUS_STATE KPort.train).set R.KRU_CFG_MIN_LANES 2).get R.KRU_CFG_MIN_LANES ≤ (List.filter
      (fun j => ((trains 2).getD j { : KTrain }).pass) (List.filter (fun j => (3#16).getLsbD j) (List.range 16))).length) ∧ (16 ≤ 16) ∧
    (15 < 16) ∧ ((((member Ring.forming).set R.KRU_PORT_STATUS_STATE KPort.dead 1).set R.KRU_CFG_MIN_LANES 2).kruOn = true) ∧
    ((((member Ring.forming).set R.KRU_PORT_STATUS_STATE KPort.dead 1).set R.KRU_CFG_MIN_LANES 2).refRuns 4 = true) ∧
    ((((member Ring.forming).set R.KRU_PORT_STATUS_STATE KPort.dead 1).set R.KRU_CFG_MIN_LANES 2).kport 1 = KPort.train ∨ (((member
      Ring.forming).set R.KRU_PORT_STATUS_STATE KPort.dead 1).set R.KRU_CFG_MIN_LANES 2).kport 1 = KPort.dead) ∧
    ((List.filter (fun j => ((trains 1).getD j { : KTrain }).pass) (List.filter (fun j => (1#16).getLsbD j) (List.range 16))).length <
      (((member Ring.forming).set R.KRU_PORT_STATUS_STATE KPort.dead 1).set R.KRU_CFG_MIN_LANES 2).get R.KRU_CFG_MIN_LANES) ∧
    ((noClock ((member Ring.forming).set R.KRU_PORT_STATUS_STATE KPort.train) 4).refRuns 4 = false) ∧
    ((noClock ((member Ring.forming).set R.KRU_PORT_STATUS_STATE KPort.train) 4).kport 0 = KPort.train ∨ (noClock ((member
      Ring.forming).set R.KRU_PORT_STATUS_STATE KPort.train) 4).kport 0 = KPort.dead) ∧
    (((member Ring.ring).setKlane 19 { resync := true, training := true : KLane }).kruOn = true) ∧
    (((member Ring.ring).setKlane 19 { resync := true, training := true : KLane }).refRuns 4 = true) ∧
    (((member Ring.ring).setKlane 19 { resync := true, training := true : KLane }).kport 1 = KPort.auth ∨ ((member Ring.ring).setKlane 19
      { resync := true, training := true : KLane }).kport 1 = KPort.up) ∧
    ((((member Ring.ring).setKlane 19 { resync := true, training := true : KLane }).klane (16 * 1 + 3)).training = true) ∧
    (((trains 4).getD 3 { : KTrain }).pass = true) ∧
    (((member Ring.ring).setKlane 0 { resync := true, training := true : KLane }).kruOn = true) ∧
    (((member Ring.ring).setKlane 0 { resync := true, training := true : KLane }).refRuns 4 = true) ∧
    (((member Ring.ring).setKlane 0 { resync := true, training := true : KLane }).kport 0 = KPort.auth ∨ ((member Ring.ring).setKlane 0
      { resync := true, training := true : KLane }).kport 0 = KPort.up) ∧
    ((((member Ring.ring).setKlane 0 { resync := true, training := true : KLane }).klane (16 * 0 + 0)).training = true) ∧
    (([{ up := 1 : KTrain }].getD 0 { : KTrain }).pass = false) ∧
    (((member Ring.forming).set R.KRU_PORT_STATUS_STATE KPort.failed).kruOn = true) ∧
    (((member Ring.forming).set R.KRU_PORT_STATUS_STATE KPort.failed).kport 0 = KPort.failed)) ∧ (((member Ring.ring).kruOn = true) ∧
    ((member Ring.ring).kport 1 = KPort.up ∨ (member Ring.ring).kport 1 = KPort.auth) ∧
    (((((member Ring.ring).setKlane 0 { resync := true : KLane }).ahead 0 []).klane 0).resync = true) ∧ (true = true) ∧
    (((((member Ring.ring).setKlane 0 { resync := true : KLane }).ahead 0 []).klane 0).training = false) ∧
    (false = false ∨ ((((member Ring.ring).setKlane 0 { resync := true : KLane }).ahead 0 []).klane 0).training = true) ∧
    ((((member Ring.ring).ahead 0 []).klane 0).resync = false) ∧ (((member Ring.ring).ahead 0 []).kruOn = true) ∧
    (bit (((member Ring.ring).ahead 0 []).get R.KRU_PORT_LANES_ACTIVE (0 / 16)) (0 % 16) = true)) :=
  ⟨by decide +kernel, by decide +kernel⟩

theorem witness_auth_frames :
    (FrameIn (member Ring.ring) 0 (frame 3 3 2 [1]) 3 (decide (1 ≤ (frame 3 3 2 [1]).data.length ∧ (frame 3 3 2 [1]).data.length ≤ 1024))
      (took (member Ring.ring) (frame 3 3 2 [1]))) := frame_in (by decide +kernel) rfl

theorem witness_discover_frames :
    (FrameIn ((member Ring.forming).set R.KRU_STATUS_ID 0) 0 (frame 0 65535 1 [1048579]) 0 (decide ((frame 0 65535 1
      [1048579]).data.length = 1)) (took ((member Ring.forming).set R.KRU_STATUS_ID 0) (frame 0 65535 1 [1048579]))) ∧
    (FrameIn ((member Ring.forming).set R.KRU_STATUS_ID 0) 0 (frame 0 65535 1 [983043]) 0 (decide ((frame 0 65535 1 [983043]).data.length
      = 1)) (took ((member Ring.forming).set R.KRU_STATUS_ID 0) (frame 0 65535 1 [983043]))) ∧
    (FrameIn (member Ring.forming) 0 (frame 0 9 1 [1048579]) 0 (decide ((frame 0 9 1 [1048579]).data.length = 1)) (took (member
      Ring.forming) (frame 0 9 1 [1048579]))) ∧
    (FrameIn ((member Ring.forming).set R.KRU_STATUS_ID 0) 0 (frame 0 65535 1 [1114110]) 0 (decide ((frame 0 65535 1
      [1114110]).data.length = 1)) (took ((member Ring.forming).set R.KRU_STATUS_ID 0) (frame 0 65535 1 [1114110]))) ∧
    (FrameIn (member Ring.forming) 0 (frame 0 65535 1 [1114109]) 0 (decide ((frame 0 65535 1 [1114109]).data.length = 1)) (took (member
      Ring.forming) (frame 0 65535 1 [1114109]))) ∧
    (FrameIn (timingMember Ring.forming) 0 (frame 0 65535 1 [1048581]) 0 (decide ((frame 0 65535 1 [1048581]).data.length = 1)) (took
      (timingMember Ring.forming) (frame 0 65535 1 [1048581]))) ∧ ((16 ≤ bits ((frame 0 65535 1 [1048579]).data.getD 0 0) 16 8) ∧
    ((frame 0 65535 1 [1048579]).head.dst = broadcast ∨ (frame 0 65535 1 [1048579]).head.dst = (took ((member Ring.forming).set
      R.KRU_STATUS_ID 0) (frame 0 65535 1 [1048579])).kId) ∧
    (¬((took ((member Ring.forming).set R.KRU_STATUS_ID 0) (frame 0 65535 1 [1048579])).timing = true ∧ (frame 0 65535 1
      [1048579]).head.src = 1)) ∧ ((took ((member Ring.forming).set R.KRU_STATUS_ID 0) (frame 0 65535 1 [1048579])).kId = 0) ∧
    (bits ((frame 0 65535 1 [1048579]).data.getD 0 0) 0 16 < 65534) ∧ (bits ((frame 0 65535 1 [983043]).data.getD 0 0) 16 8 < 16) ∧
    (16 ≤ bits ((frame 0 9 1 [1048579]).data.getD 0 0) 16 8) ∧
    (¬((frame 0 9 1 [1048579]).head.dst = broadcast ∨ (frame 0 9 1 [1048579]).head.dst = (took (member Ring.forming) (frame 0 9 1
      [1048579])).kId)) ∧ (16 ≤ bits ((frame 0 65535 1 [1114110]).data.getD 0 0) 16 8) ∧
    ((frame 0 65535 1 [1114110]).head.dst = broadcast ∨ (frame 0 65535 1 [1114110]).head.dst = (took ((member Ring.forming).set
      R.KRU_STATUS_ID 0) (frame 0 65535 1 [1114110])).kId) ∧
    (¬((took ((member Ring.forming).set R.KRU_STATUS_ID 0) (frame 0 65535 1 [1114110])).timing = true ∧ (frame 0 65535 1
      [1114110]).head.src = 1)) ∧ ((took ((member Ring.forming).set R.KRU_STATUS_ID 0) (frame 0 65535 1 [1114110])).kId = 0) ∧
    (65534 ≤ bits ((frame 0 65535 1 [1114110]).data.getD 0 0) 0 16) ∧ (16 ≤ bits ((frame 0 65535 1 [1114109]).data.getD 0 0) 16 8) ∧
    ((frame 0 65535 1 [1114109]).head.dst = broadcast ∨ (frame 0 65535 1 [1114109]).head.dst = (took (member Ring.forming) (frame 0 65535
      1 [1114109])).kId) ∧
    (¬((took (member Ring.forming) (frame 0 65535 1 [1114109])).timing = true ∧ (frame 0 65535 1 [1114109]).head.src = 1)) ∧
    ((took (member Ring.forming) (frame 0 65535 1 [1114109])).kId ≠ 0) ∧ (16 ≤ bits ((frame 0 65535 1 [1048581]).data.getD 0 0) 16 8) ∧
    ((frame 0 65535 1 [1048581]).head.dst = broadcast ∨ (frame 0 65535 1 [1048581]).head.dst = (took (timingMember Ring.forming) (frame 0
      65535 1 [1048581])).kId) ∧ ((took (timingMember Ring.forming) (frame 0 65535 1 [1048581])).timing = true) ∧
    ((frame 0 65535 1 [1048581]).head.src = 1) ∧
    ((took (timingMember Ring.forming) (frame 0 65535 1 [1048581])).ringState = Ring.forming ∨ (took (timingMember Ring.forming) (frame 0
      65535 1 [1048581])).ringState = Ring.reform)) :=
  ⟨frame_in (by decide +kernel) rfl, frame_in (by decide +kernel) rfl, frame_in (by decide +kernel) rfl, frame_in (by decide +kernel) rfl,
  frame_in (by decide +kernel) rfl, frame_in (by decide +kernel) rfl, by decide +kernel⟩

theorem witness_ring_frames :
    (FrameIn (timingMember Ring.forming) 0 (frame 1 1 4 [67108868, 77]) 1 (decide ((frame 1 1 4 [67108868, 77]).data.length = 2)) (took
      (timingMember Ring.forming) (frame 1 1 4 [67108868, 77]))) ∧
    (Delivered (took (timingMember Ring.forming) (frame 1 1 4 [67108868, 77])) (frame 1 1 4 [67108868, 77]) 1 (frame 1 1 4 [67108868,
      77]).data (took (timingMember Ring.forming) (frame 1 1 4 [67108868, 77]))) ∧
    (FrameIn (member Ring.forming) 0 (bcast 2 [4, 65536, 0]) 2 (decide ((bcast 2 [4, 65536, 0]).data.length = 3)) (took (member
      Ring.forming) (bcast 2 [4, 65536, 0]))) ∧
    (Delivered (took (member Ring.forming) (bcast 2 [4, 65536, 0])) (bcast 2 [4, 65536, 0]) 2 (bcast 2 [4, 65536, 0]).data (passed (member
      Ring.forming) (bcast 2 [4, 65536, 0]))) ∧
    (FrameIn (member Ring.ring) 0 (bcast 11 [65538]) 11 (decide ((bcast 11 [65538]).data.length = 1)) (took (member Ring.ring) (bcast 11
      [65538]))) ∧
    (Delivered (took (member Ring.ring) (bcast 11 [65538])) (bcast 11 [65538]) 11 (bcast 11 [65538]).data (passed (member Ring.ring)
      (bcast 11 [65538]))) ∧
    (FrameIn (member Ring.ring) 0 (bcast 9 [64, 0]) 9 (decide ((bcast 9 [64, 0]).data.length = 2)) (took (member Ring.ring) (bcast 9 [64,
      0]))) ∧
    (Delivered (took (member Ring.ring) (bcast 9 [64, 0])) (bcast 9 [64, 0]) 9 (bcast 9 [64, 0]).data (passed (member Ring.ring) (bcast 9
      [64, 0]))) ∧
    (∀ (g : Staged), ((passed (member Ring.ring) (bcast 9 [64, 0])).station (bcast 9 [64, 0]).head.station).staged = some g → g.h ≠ bits
      ((bcast 9 [64, 0]).data.getD 0 0) 0 48) ∧
    (FrameIn receives 0 rightColumns 10 (decide (rightColumns.data.length = 1 + ceilDiv (bits (rightColumns.data.getD 0 0) 48 9 * (bits
      (rightColumns.data.getD 0 0) 57 3 + 1)) 4)) (took receives rightColumns)) ∧
    (Delivered (took receives rightColumns) rightColumns 10 rightColumns.data (took receives rightColumns)) ∧
    (((took (timingMember Ring.forming) (frame 1 1 4 [67108868, 77])).timing = true) ∧
    ((passed (member Ring.ring) (bcast 9 [64, 0])).repeater = false) ∧
    ((took receives rightColumns).on R.PCP_STC_ST_CTRL_RECV_RIGHT rightColumns.head.station = true) ∧
    ((took receives rightColumns).stBusy rightColumns.head.station = true)) :=
  ⟨frame_in (by decide +kernel) rfl, delivered_one (by decide +kernel) rfl, frame_in (by decide +kernel) rfl,
  delivered_all (by decide +kernel) rfl, frame_in (by decide +kernel) rfl, delivered_all (by decide +kernel) rfl,
  frame_in (by decide +kernel) rfl, delivered_all (by decide +kernel) rfl, none_of (by decide +kernel), frame_in (by decide +kernel) rfl,
  delivered_one (by decide +kernel) rfl, by decide +kernel⟩

theorem witness_ring_time_and_alignment :
    (FrameIn ((member Ring.ring).setKlane 0 { d := 6 : KLane }) 0 (frame 4 65535 1 [5000, 10]) 4 (decide ((frame 4 65535 1 [5000,
      10]).data.length = 2)) (took ((member Ring.ring).setKlane 0 { d := 6 : KLane }) (frame 4 65535 1 [5000, 10]))) ∧
    (Delivered (took ((member Ring.ring).setKlane 0 { d := 6 : KLane }) (frame 4 65535 1 [5000, 10])) (frame 4 65535 1 [5000, 10]) 4
      [(frame 4 65535 1 [5000, 10]).data.getD 0 0, (bits ((frame 4 65535 1 [5000, 10]).data.getD 1 0) 0 32 + (((member Ring.ring).setKlane
      0 { d := 6 : KLane }).klane 0).d + 3) % 2 ^ 32] ((took ((member Ring.ring).setKlane 0 { d := 6 : KLane }) (frame 4 65535 1 [5000,
      10])).ringOut 4
      { station := (frame 4 65535 1 [5000, 10]).head.station, dst := (frame 4 65535 1 [5000, 10]).head.dst, src := (frame 4 65535 1 [5000, 10]).head.src, aux := (frame 4 65535 1 [5000, 10]).head.aux : KHdr }
      [5000, 19])) ∧ (FrameIn ringArmed 0 alignReq 5 (decide (alignReq.data.length = 3)) (took ringArmed alignReq)) ∧
    (Delivered (took ringArmed alignReq) alignReq 5 alignReq.data (took ringArmed alignReq)) ∧
    (FrameIn ((ringArmed.set R.KRU_ST_STATUS_ALIGN 3 2).set R.SMC_ST_STATE_STATE St.paused 2) 0 alignReq 5 (decide (alignReq.data.length =
      3)) (took ((ringArmed.set R.KRU_ST_STATUS_ALIGN 3 2).set R.SMC_ST_STATE_STATE St.paused 2) alignReq)) ∧
    (Delivered (took ((ringArmed.set R.KRU_ST_STATUS_ALIGN 3 2).set R.SMC_ST_STATE_STATE St.paused 2) alignReq) alignReq 5 alignReq.data
      (took ((ringArmed.set R.KRU_ST_STATUS_ALIGN 3 2).set R.SMC_ST_STATE_STATE St.paused 2) alignReq)) ∧
    (FrameIn (ringArmed.set R.SMC_ST_STATE_STATE St.paused 2) 0 (frame 5 3 1 [1000, 0, 0]) 5 (decide ((frame 5 3 1 [1000, 0,
      0]).data.length = 3)) (took (ringArmed.set R.SMC_ST_STATE_STATE St.paused 2) (frame 5 3 1 [1000, 0, 0]))) ∧
    (Delivered (took (ringArmed.set R.SMC_ST_STATE_STATE St.paused 2) (frame 5 3 1 [1000, 0, 0])) (frame 5 3 1 [1000, 0, 0]) 5 (frame 5 3
      1 [1000, 0, 0]).data (took (ringArmed.set R.SMC_ST_STATE_STATE St.paused 2) (frame 5 3 1 [1000, 0, 0]))) ∧
    (FrameIn (aligning (timingMember Ring.ring)) 0 (frame 6 1 4 [0]) 6 (decide ((frame 6 1 4 [0]).data.length = 1)) (took (aligning
      (timingMember Ring.ring)) (frame 6 1 4 [0]))) ∧
    (Delivered (took (aligning (timingMember Ring.ring)) (frame 6 1 4 [0])) (frame 6 1 4 [0]) 6 (frame 6 1 4 [0]).data (took (aligning
      (timingMember Ring.ring)) (frame 6 1 4 [0]))) ∧
    (FrameIn (aligning (timingMember Ring.ring)) 0 (frame 6 1 4 [3]) 6 (decide ((frame 6 1 4 [3]).data.length = 1)) (took (aligning
      (timingMember Ring.ring)) (frame 6 1 4 [3]))) ∧
    (Delivered (took (aligning (timingMember Ring.ring)) (frame 6 1 4 [3])) (frame 6 1 4 [3]) 6 (frame 6 1 4 [3]).data (took (aligning
      (timingMember Ring.ring)) (frame 6 1 4 [3]))) ∧
    (FrameIn (aligning (member Ring.ring)) 0 (frame 7 65535 1 [5, 6]) 7 (decide ((frame 7 65535 1 [5, 6]).data.length = 2)) (took
      (aligning (member Ring.ring)) (frame 7 65535 1 [5, 6]))) ∧
    (Delivered (took (aligning (member Ring.ring)) (frame 7 65535 1 [5, 6])) (frame 7 65535 1 [5, 6]) 7 (frame 7 65535 1 [5, 6]).data
      (passed (aligning (member Ring.ring)) (frame 7 65535 1 [5, 6]))) ∧ (((timingMember Ring.ring).kruOn = true) ∧
    ((timingMember Ring.ring).timing = true) ∧ ((timingMember Ring.ring).kId = 1) ∧
    (((timingMember Ring.ring).kru.timeCount + 1) % 1024 ≠ 0) ∧ ((took ringArmed alignReq).contributes alignReq.head.station = true) ∧
    ((took ringArmed alignReq).stState alignReq.head.station = St.armed) ∧
    ((took ((ringArmed.set R.KRU_ST_STATUS_ALIGN 3 2).set R.SMC_ST_STATE_STATE St.paused 2) alignReq).contributes alignReq.head.station =
      true) ∧
    ((took ((ringArmed.set R.KRU_ST_STATUS_ALIGN 3 2).set R.SMC_ST_STATE_STATE St.paused 2) alignReq).alignStatus alignReq.head.station
      (bits (alignReq.data.getD 1 0) 0 48) (bits (alignReq.data.getD 1 0) 48 5) (bits (alignReq.data.getD 2 0) 0 32) = Status.ok) ∧
    ((took ((ringArmed.set R.KRU_ST_STATUS_ALIGN 3 2).set R.SMC_ST_STATE_STATE St.paused 2) alignReq).stState alignReq.head.station ≠
      St.armed) ∧
    ((took (ringArmed.set R.SMC_ST_STATE_STATE St.paused 2) (frame 5 3 1 [1000, 0, 0])).contributes (frame 5 3 1 [1000, 0,
      0]).head.station = true) ∧
    ((took (ringArmed.set R.SMC_ST_STATE_STATE St.paused 2) (frame 5 3 1 [1000, 0, 0])).alignStatus (frame 5 3 1 [1000, 0,
      0]).head.station (bits ((frame 5 3 1 [1000, 0, 0]).data.getD 1 0) 0 48) (bits ((frame 5 3 1 [1000, 0, 0]).data.getD 1 0) 48 5) (bits
      ((frame 5 3 1 [1000, 0, 0]).data.getD 2 0) 0 32) ≠ Status.ok) ∧
    ((took (ringArmed.set R.SMC_ST_STATE_STATE St.paused 2) (frame 5 3 1 [1000, 0, 0])).stState (frame 5 3 1 [1000, 0, 0]).head.station ≠
      St.armed) ∧ ((took (aligning (timingMember Ring.ring)) (frame 6 1 4 [0])).timing = true) ∧
    (((took (aligning (timingMember Ring.ring)) (frame 6 1 4 [0])).kst (frame 6 1 4 [0]).head.station).ta ≠ none) ∧
    (bits ((frame 6 1 4 [0]).data.getD 0 0) 0 8 = 0) ∧
    (((took (aligning (timingMember Ring.ring)) (frame 6 1 4 [0])).kst (frame 6 1 4 [0]).head.station).acks.contains (frame 6 1 4
      [0]).head.src = false) ∧ ((took (aligning (timingMember Ring.ring)) (frame 6 1 4 [3])).timing = true) ∧
    (((took (aligning (timingMember Ring.ring)) (frame 6 1 4 [3])).kst (frame 6 1 4 [3]).head.station).ta ≠ none) ∧
    (bits ((frame 6 1 4 [3]).data.getD 0 0) 0 8 ≠ 0) ∧ (((aligning (member Ring.ring)).kst 2).ta = some 1000) ∧
    (((aligning (member Ring.ring)).kst 2).latched = none) ∧
    (((passed (aligning (member Ring.ring)) (frame 7 65535 1 [5, 6])).kst (frame 7 65535 1 [5, 6]).head.station).ta ≠ none) ∧
    (((Tests.latched ringArmed).kst 2).latched = some 0) ∧ ((Tests.latched ringArmed).stState 2 = St.armed)) ∧
    ((((Tests.latched ringArmed).setKst 2
      { latched := ((Tests.latched ringArmed).kst 2).latched, acks := ((Tests.latched ringArmed).kst 2).acks, owed := ((Tests.latched ringArmed).kst 2).owed, off := ((Tests.latched ringArmed).kst 2).off, flying := ((Tests.latched ringArmed).kst 2).flying, issued := ((Tests.latched ringArmed).kst 2).issued, held := ((Tests.latched ringArmed).kst 2).held, last0 := ((Tests.latched ringArmed).kst 2).last0, last1 := ((Tests.latched ringArmed).kst 2).last1, sealedLate := ((Tests.latched ringArmed).kst 2).sealedLate, hinges := ((Tests.latched ringArmed).kst 2).hinges : KSt }).past
      2 (((Tests.latched ringArmed).setKst 2
      { latched := ((Tests.latched ringArmed).kst 2).latched, acks := ((Tests.latched ringArmed).kst 2).acks, owed := ((Tests.latched ringArmed).kst 2).owed, off := ((Tests.latched ringArmed).kst 2).off, flying := ((Tests.latched ringArmed).kst 2).flying, issued := ((Tests.latched ringArmed).kst 2).issued, held := ((Tests.latched ringArmed).kst 2).held, last0 := ((Tests.latched ringArmed).kst 2).last0, last1 := ((Tests.latched ringArmed).kst 2).last1, sealedLate := ((Tests.latched ringArmed).kst 2).sealedLate, hinges := ((Tests.latched ringArmed).kst 2).hinges : KSt }).posOf
      2 0) (-1000000 - (0 - 0)) = true) ∧
    (((Tests.latched ringArmed).setKst 2
      { latched := ((Tests.latched ringArmed).kst 2).latched, acks := ((Tests.latched ringArmed).kst 2).acks, owed := ((Tests.latched ringArmed).kst 2).owed, off := ((Tests.latched ringArmed).kst 2).off, flying := ((Tests.latched ringArmed).kst 2).flying, issued := ((Tests.latched ringArmed).kst 2).issued, held := ((Tests.latched ringArmed).kst 2).held, last0 := ((Tests.latched ringArmed).kst 2).last0, last1 := ((Tests.latched ringArmed).kst 2).last1, sealedLate := ((Tests.latched ringArmed).kst 2).sealedLate, hinges := ((Tests.latched ringArmed).kst 2).hinges : KSt }).past
      2 (((Tests.latched ringArmed).setKst 2
      { latched := ((Tests.latched ringArmed).kst 2).latched, acks := ((Tests.latched ringArmed).kst 2).acks, owed := ((Tests.latched ringArmed).kst 2).owed, off := ((Tests.latched ringArmed).kst 2).off, flying := ((Tests.latched ringArmed).kst 2).flying, issued := ((Tests.latched ringArmed).kst 2).issued, held := ((Tests.latched ringArmed).kst 2).held, last0 := ((Tests.latched ringArmed).kst 2).last0, last1 := ((Tests.latched ringArmed).kst 2).last1, sealedLate := ((Tests.latched ringArmed).kst 2).sealedLate, hinges := ((Tests.latched ringArmed).kst 2).hinges : KSt }).posOf
      2 0) (1000000000 - (0 - 0)) = false) ∧
    (((Tests.latched (ringArmed.set R.SMC_ST_STATE_STATE St.scanning 2)).kst 2).latched = some 0) ∧
    ((Tests.latched (ringArmed.set R.SMC_ST_STATE_STATE St.scanning 2)).stState 2 ≠ St.armed) ∧
    ((Tests.latched (ringArmed.set R.SMC_ST_STATE_STATE St.scanning 2)).stBusy 2 = true) ∧
    (16 < (17 - 0 - ((Tests.latched (ringArmed.set R.SMC_ST_STATE_STATE St.scanning 2)).kst 2).off).natAbs) ∧
    ((16 - 0 - ((Tests.latched (ringArmed.set R.SMC_ST_STATE_STATE St.scanning 2)).kst 2).off).natAbs ≤ 16) ∧
    (((Tests.latched (ringArmed.set R.SMC_ST_STATE_STATE St.idle 2)).kst 2).latched = some 0) ∧
    ((Tests.latched (ringArmed.set R.SMC_ST_STATE_STATE St.idle 2)).stBusy 2 = false) ∧
    ((Tests.latched (ringArmed.set R.SMC_ST_STATE_STATE St.idle 2)).stState 2 ≠ St.armed) ∧
    ((aligning (timingMember Ring.ring)).timing = true) ∧ (((aligning (timingMember Ring.ring)).kst 2).ta ≠ none) ∧
    ((aligning (member Ring.ring)).timing = false) ∧ (((aligning (member Ring.ring)).kst 2).ta ≠ none)) :=
  ⟨frame_in (by decide +kernel) rfl, delivered_all (by decide +kernel) rfl, frame_in (by decide +kernel) rfl,
  delivered_one (by decide +kernel) rfl, frame_in (by decide +kernel) rfl, delivered_one (by decide +kernel) rfl,
  frame_in (by decide +kernel) rfl, delivered_one (by decide +kernel) rfl, frame_in (by decide +kernel) rfl,
  delivered_one (by decide +kernel) rfl, frame_in (by decide +kernel) rfl, delivered_one (by decide +kernel) rfl,
  frame_in (by decide +kernel) rfl, delivered_all (by decide +kernel) rfl, by decide +kernel, by decide +kernel⟩

theorem witness_tokens_and_forming :
    (FrameIn (member Ring.ring) 0 (frame 8 65535 3 [0, 1]) 8 (decide ((frame 8 65535 3 [0, 1]).data.length = 2)) (took (member Ring.ring)
      (frame 8 65535 3 [0, 1]))) ∧
    (FrameIn (member Ring.ring) 0 (frame 8 65535 1 [0, 1]) 8 (decide ((frame 8 65535 1 [0, 1]).data.length = 2)) (took (member Ring.ring)
      (frame 8 65535 1 [0, 1]))) ∧ (Reaches idle World.secure RegId.KRU_CFG 0 0) ∧
    (Reaches (member Ring.ring) World.secure RegId.KRU_CFG 0 0) ∧ (Reaches ringArmed World.secure RegId.KRU_CFG 0 0) ∧
    (((took (member Ring.ring) (frame 8 65535 3 [0, 1])).formed = true) ∧
    ((frame 8 65535 3 [0, 1]).head.dst = broadcast ∨ (frame 8 65535 3 [0, 1]).head.dst = (took (member Ring.ring) (frame 8 65535 3 [0,
      1])).kId) ∧ ((frame 8 65535 3 [0, 1]).head.src = (took (member Ring.ring) (frame 8 65535 3 [0, 1])).kId) ∧
    ((took (member Ring.ring) (frame 8 65535 1 [0, 1])).formed = true) ∧
    ((frame 8 65535 1 [0, 1]).head.dst = broadcast ∨ (frame 8 65535 1 [0, 1]).head.dst = (took (member Ring.ring) (frame 8 65535 1 [0,
      1])).kId) ∧ ((frame 8 65535 1 [0, 1]).head.src ≠ (took (member Ring.ring) (frame 8 65535 1 [0, 1])).kId) ∧
    (passedBy tok0.band (if tok0.lap = true then ((member Ring.ring).kst 2).last1 else ((member Ring.ring).kst 2).last0) = false) ∧
    (false = false) ∧ (tok0.bad = false) ∧
    ((member Ring.ring).auditToken 2 { band := tok0.band, lap := true, bad := tok0.bad, count := tok0.count, tdig := tok0.tdig : KTok }
      (!{ band := tok0.band, lap := true, bad := tok0.bad, count := tok0.count, tdig := tok0.tdig : KTok }.lap && decide
      ({ band := tok0.band, lap := true, bad := tok0.bad, count := tok0.count, tdig := tok0.tdig : KTok }.count ≠ (member Ring.ring).ncOf
      2)) = (true, audited { band := tok0.band, lap := true, bad := tok0.bad, count := tok0.count, tdig := tok0.tdig : KTok })) ∧
    ({ band := tok0.band, lap := true, bad := tok0.bad, count := tok0.count, tdig := tok0.tdig : KTok }.lap = true) ∧
    ((member Ring.ring).auditToken 2 { band := tok0.band, lap := tok0.lap, bad := true, count := tok0.count, tdig := tok0.tdig : KTok }
      (!{ band := tok0.band, lap := tok0.lap, bad := true, count := tok0.count, tdig := tok0.tdig : KTok }.lap && decide
      ({ band := tok0.band, lap := tok0.lap, bad := true, count := tok0.count, tdig := tok0.tdig : KTok }.count ≠ (member Ring.ring).ncOf
      2)) = (true, audited { band := tok0.band, lap := tok0.lap, bad := true, count := tok0.count, tdig := tok0.tdig : KTok })) ∧
    ({ band := tok0.band, lap := tok0.lap, bad := true, count := tok0.count, tdig := tok0.tdig : KTok }.lap = false) ∧
    ({ band := tok0.band, lap := tok0.lap, bad := true, count := tok0.count, tdig := tok0.tdig : KTok }.bad = true) ∧
    ((member Ring.ring).auditToken 2 tok0 (!tok0.lap && decide (tok0.count ≠ (member Ring.ring).ncOf 2)) = (true, audited tok0)) ∧
    (tok0.lap = false) ∧
    ((member Ring.ring).auditToken 2 { band := tok0.band, lap := true, bad := tok0.bad, count := tok0.count, tdig := tok0.tdig : KTok }
      false = (true, audited { band := tok0.band, lap := true, bad := tok0.bad, count := tok0.count, tdig := tok0.tdig : KTok })) ∧
    (ringArmed.auditToken 2 tok0 false = (true, (ringArmed.auditToken 2 tok0 false).snd)) ∧
    ((ringArmed.auditToken 2 tok0 false).snd.contributes 2 = true) ∧
    ((member Ring.ring).auditToken 5 tok0 false = (true, ((member Ring.ring).auditToken 5 tok0 false).snd)) ∧
    (((member Ring.ring).auditToken 5 tok0 false).snd.contributes 5 = false) ∧
    (seen.auditToken 2 tok0 (!tok0.lap && decide (tok0.count ≠ seen.ncOf 2)) = (false, (seen.auditToken 2 tok0 (!tok0.lap && decide
      (tok0.count ≠ seen.ncOf 2))).snd)) ∧ (seen.auditToken 2 tok0 false = (false, (seen.auditToken 2 tok0 false).snd)) ∧
    ((member Ring.ring).memberFrozen = true ∨ (member Ring.ring).timing = false ∧ (member Ring.ring).localSealed 2 tok0.band = false)) ∧
    ((((timingMember Ring.chain).setKst 2 { flying := [0] : KSt }).formed = true) ∧
    ((((timingMember Ring.chain).setKst 2 { flying := [0] : KSt }).kst 2).flying ≠ []) ∧ ((timingMember Ring.reform).timing = true) ∧
    ((timingMember Ring.reform).ringState = Ring.reform) ∧ ((member Ring.forming).ringState = Ring.forming) ∧
    ((member Ring.reform).ringState = Ring.reform) ∧ (1 ≤ R.KRU_CFG_MIN_LANES.of 16843009) ∧ (R.KRU_CFG_MIN_LANES.of 16843009 ≤ 16) ∧
    (R.KRU_CFG_TOKEN_TIMEOUT.of 16843009 ≠ 0) ∧ (R.KRU_CFG_REFORM_MS.of 16843009 ≠ 0) ∧ (idle.ringIdle = true) ∧
    (idle.on R.KRU_CFG_EN = false) ∧ ((wrote idle World.secure RegId.KRU_CFG 0 0 16843009).on R.KRU_CFG_EN = true) ∧
    (1 ≤ R.KRU_CFG_MIN_LANES.of 16842768) ∧ (R.KRU_CFG_MIN_LANES.of 16842768 ≤ 16) ∧ (R.KRU_CFG_TOKEN_TIMEOUT.of 16842768 ≠ 0) ∧
    (R.KRU_CFG_REFORM_MS.of 16842768 ≠ 0) ∧ ((member Ring.ring).ringIdle = true) ∧ ((member Ring.ring).on R.KRU_CFG_EN = true) ∧
    ((wrote (member Ring.ring) World.secure RegId.KRU_CFG 0 0 16842768).on R.KRU_CFG_EN = false) ∧ (1 ≤ R.KRU_CFG_MIN_LANES.of 16842769) ∧
    (R.KRU_CFG_MIN_LANES.of 16842769 ≤ 16) ∧ (R.KRU_CFG_TOKEN_TIMEOUT.of 16842769 ≠ 0) ∧ (R.KRU_CFG_REFORM_MS.of 16842769 ≠ 0)) ∧
    (((wrote (member Ring.ring) World.secure RegId.KRU_CFG 0 0 16842769).on R.KRU_CFG_EN = true) ∧
    ((wrote (member Ring.ring) World.secure RegId.KRU_CFG 0 0 16842769).timing = (member Ring.ring).timing) ∧
    (1 ≤ R.KRU_CFG_MIN_LANES.of 16842771) ∧ (R.KRU_CFG_MIN_LANES.of 16842771 ≤ 16) ∧ (R.KRU_CFG_TOKEN_TIMEOUT.of 16842771 ≠ 0) ∧
    (R.KRU_CFG_REFORM_MS.of 16842771 ≠ 0) ∧ ((wrote (member Ring.ring) World.secure RegId.KRU_CFG 0 0 16842771).on R.KRU_CFG_EN = true) ∧
    ((wrote (member Ring.ring) World.secure RegId.KRU_CFG 0 0 16842771).timing ≠ (member Ring.ring).timing) ∧
    (ringArmed.ringIdle = false) ∧ (R.KRU_CFG_EN.of 16842768 ≠ ringArmed.get R.KRU_CFG_EN)) :=
  ⟨frame_in (by decide +kernel) rfl, frame_in (by decide +kernel) rfl, reaches_secure (by decide +kernel),
  reaches_secure (by decide +kernel), reaches_secure (by decide +kernel), by decide +kernel, by decide +kernel, by decide +kernel⟩

theorem witness_stream_registers :
    (Reaches idle World.secure RegId.HIF_ST_CTRL 63 0) ∧ (Reaches streaming World.secure RegId.HIF_ST_CTRL 0 0) ∧
    (Reaches idle World.secure RegId.HIF_ST_CTRL 0 0) ∧ (Reaches (idle.set R.QMX_Q_CFG_STATION 0 256) World.secure RegId.HIF_HQ 1023 0) ∧
    (Reaches idle World.secure RegId.HIF_HQ 0 0) ∧ (Reaches streaming World.secure RegId.HIF_ST_TAIL 0 0) ∧ ((idle.stOn 63 = false) ∧
    (idle.streamCheck 63 (4718592 ||| 1) = none) ∧ (streaming.stOn 0 = true) ∧
    (streaming.changes streamFields 0 0 (16777216 ||| 1) = true) ∧ (streaming.changes streamFields 0 0 (8912896 - 8912896 % 2) = false) ∧
    (idle.stOn 0 = false) ∧ (R.HIF_HQ_EN.of 2147483904 = 1) ∧ ((idle.set R.QMX_Q_CFG_STATION 0 256).hqCheck 1023 2147483904 = none) ∧
    (R.HIF_HQ_EN.of 0 = 0) ∧ (idle.hqFree 0 0 = true) ∧ (R.HIF_ST_TAIL_TAIL.of 255 < streaming.ringSize 0) ∧
    (streaming.ringSize 0 ≤ R.HIF_ST_TAIL_TAIL.of 256)) :=
  ⟨reaches_secure (by decide +kernel), reaches_secure (by decide +kernel), reaches_secure (by decide +kernel),
  reaches_secure (by decide +kernel), reaches_secure (by decide +kernel), reaches_secure (by decide +kernel), by decide +kernel⟩

theorem witness_streams_release :
    (streaming.stLive 0 = true) ∧ (streaming.isDma 0 = true) ∧ ((streaming.stream 0).desc = none) ∧
    (streaming.get R.HIF_ST_HEAD_HEAD ≠ streaming.get R.HIF_ST_TAIL_TAIL) ∧ (streaming.descStatus 0 4096 65536 = none) ∧
    (streaming.descStatus 0 4096 0 = some Status.ok) ∧ (streaming.descStatus 0 4100 65536 = some Status.range) ∧
    (ethStream.stLive 1 = true) ∧ (ethStream.isDma 1 = false) ∧ (ethStream.txOk (ethStream.get R.HIF_ST_CTRL_PORT 1) = true) ∧
    (ethStream.on R.HIF_CTRL_EN = true) ∧ ((ethStream.stream 1).sendAt ≤ 0) ∧
    ((ethStream.stream 1).ready = [{ seq := 0, chunks := 1, bandEnd := false, bytes := [1, 2, 3] : Dgram }]) := by decide +kernel

theorem witness_descriptor_completion :
    (streaming.held = false) := by decide +kernel

theorem witness_chunk_release :
    ((cutStream 65536).findWork 0 = Work.chunk cutChunk (cutRest 65536)) ∧ ((cutStream 7).findWork 0 = Work.chunk cutChunk (cutRest 7)) ∧
    (bandOver.findWork 0 = Work.bandEnd bandLeft) ∧ (((streaming.stream 0).cut = none) ∧ ((streaming.stream 0).skip = none) ∧
    ((streaming.stream 0).item = none) ∧
    (streaming.on R.SCU_SEAL_ST_STATUS_VALID (streaming.get R.HIF_ST_CTRL_STATION) = false ∨ streaming.get R.SCU_SEAL_ST_HZN_BAND
      (streaming.get R.HIF_ST_CTRL_STATION) < streaming.relBand 0 (streaming.get R.HIF_ST_CTRL_STATION)) ∧
    (((cutStream 65536).stream 0).desc = some (4096, 65536, true)) ∧
    (((cutStream 65536).stream 0).used + (cutChunk.bytes ((cutStream 65536).get R.HIF_ST_CTRL_STATION)).length ≤ 65536) ∧
    (((cutStream 7).stream 0).desc = some (4096, 7, true)) ∧
    (7 < ((cutStream 7).stream 0).used + (cutChunk.bytes ((cutStream 7).get R.HIF_ST_CTRL_STATION)).length) ∧
    ((bandLeft.stream 0).desc = some (4096, 65536, true))) :=
  ⟨rfl, rfl, left_of (by decide +kernel), by decide +kernel⟩

theorem witness_ethernet_and_ptp :
    (Reaches idle World.secure (ethReg 0) 0 0) ∧ (Reaches idle World.secure (ethReg 3) 0 0) ∧
    (Reaches ethStream World.secure (ethReg 0) 0 0) ∧ (¬forPort slave 0 (PtpDest.ieee 5#48)) ∧
    (forPort slave 0 (PtpDest.udp 3758096769#32 320#16)) ∧ (forPort heard 0 (PtpDest.udp 3758096769#32 320#16)) ∧
    (forPort heardTwo 0 (PtpDest.udp 3758096769#32 320#16)) ∧ ((ethStream.on R.HIF_ETH_CTRL_EN = true) ∧
    (ethStream.on R.HIF_ETH_STATUS_LINK = true) ∧ ((noClock (idle.set R.HIF_ETH_CTRL_EN 1 3) 5).refRuns 5 = false) ∧
    ((idle.set R.HIF_ETH_CTRL_EN 1 3).on R.HIF_ETH_CTRL_EN 3 = true) ∧
    ((idle.set R.HIF_ETH_CTRL_EN 1 3).on R.HIF_ETH_STATUS_LINK 3 = false) ∧ ((idle.set R.HIF_ETH_CTRL_EN 1 3).refRuns 5 = true) ∧
    (((List.range 64).any fun c => idle.stOn c && !idle.isDma c && decide (idle.get R.HIF_ST_CTRL_PORT c = 0)) = false) ∧
    (0 = 0 → 1500 ≤ R.HIF_ETH_CTRL_MTU.of 98304000 ∧ R.HIF_ETH_CTRL_MTU.of 98304000 ≤ 9170) ∧
    (0 = 0 → 1500 ≤ R.HIF_ETH_CTRL_MTU.of 600965120 ∧ R.HIF_ETH_CTRL_MTU.of 600965120 ≤ 9170) ∧
    (3 = 0 → 1500 ≤ R.HIF_ETH_CTRL_MTU.of 5 ∧ R.HIF_ETH_CTRL_MTU.of 5 ≤ 9170) ∧
    (((List.range 64).any fun c => ethStream.stOn c && !ethStream.isDma c && decide (ethStream.get R.HIF_ST_CTRL_PORT c = 0)) = true) ∧
    (slave.on R.HIF_ETH_CTRL_EN = true) ∧ (slave.on R.HIF_PTP_CTRL_EN = true) ∧ (slave.get R.HIF_PTP_CTRL_PORT = 0) ∧
    (slave.on R.HIF_PTP_CTRL_TRANSPORT = overIeee (PtpDest.udp 3758096769#32 320#16)) ∧ (slave.get R.HIF_PTP_CTRL_DOMAIN = 0) ∧
    (slave.hif.ptp.foreign = []) ∧ (heard.on R.HIF_PTP_CTRL_EN = true) ∧ (heard.get R.HIF_PTP_CTRL_PORT = 0) ∧
    (heard.on R.HIF_ETH_CTRL_EN = true) ∧ (heard.on R.HIF_PTP_CTRL_TRANSPORT = overIeee (PtpDest.udp 3758096769#32 320#16)) ∧
    (heard.get R.HIF_PTP_CTRL_DOMAIN = 0) ∧ (heard.hif.ptp.foreign = [first8]) ∧ (first8.src = 8)) ∧
    ((5 - first8.last ≤ 4 * ↑(dataset 5).interval) ∧ (0 < 255) ∧ (heardTwo.on R.HIF_PTP_CTRL_EN = true) ∧
    (heardTwo.get R.HIF_PTP_CTRL_PORT = 0) ∧ (heardTwo.on R.HIF_ETH_CTRL_EN = true) ∧
    (heardTwo.on R.HIF_PTP_CTRL_TRANSPORT = overIeee (PtpDest.udp 3758096769#32 320#16)) ∧ (heardTwo.get R.HIF_PTP_CTRL_DOMAIN = 0) ∧
    (heardTwo.hif.ptp.foreign = [first8, rival]) ∧ (rival.src ≠ 8) ∧ (rival.before = some 3) ∧ (5 - 3 ≤ 4 * ↑rival.data.interval) ∧
    (5 - rival.last ≤ 4 * ↑rival.data.interval) ∧ ((dataset 5).gm ≠ rival.data.gm) ∧ ((dataset 5).prio1 ≠ rival.data.prio1) ∧
    (slave.hif.ptp.master = some 9) ∧ (slave.hif.ptp.syncSeq = 5) ∧ (slave.hif.ptp.awaits = some 3) ∧ (slave.hif.ptp.reqSeq = 6) ∧
    ((slave.set R.HIF_PTP_STATUS_LOCK 1).on R.HIF_PTP_STATUS_LOCK = true)) :=
  ⟨reaches_secure (by decide +kernel), reaches_secure (by decide +kernel), reaches_secure (by decide +kernel),
  by unfold forPort; decide +kernel, by unfold forPort; decide +kernel, by unfold forPort; decide +kernel,
  by unfold forPort; decide +kernel, by decide +kernel, by decide +kernel⟩

theorem witness_pci_express :
    (0 < 64) ∧ (streaming.isDma 0 = true) ∧ (streaming.stOn 0 = true) ∧ (255 < 256) ∧ (perstHigh.smc.perst = true) ∧ (2 ≤ perstHigh.dev) ∧
    (8 ≤ 4096) ∧
    (∀ (i : Nat), i < 8 → (if idle.smc.hbmRefresh = true then idle.takeFresh.snd else idle.windowError HbmErr.none).bar2Secure (0 + i) =
      false) := by decide +kernel

theorem witness_interrupt_messages :
    ((owes true).held = false) ∧ ((owes true).due.contains (256 * 0 + 4) = true) ∧ ((owes true).vecFree (256 * 0 + 4) 0 = true) ∧
    ((owes true).vecUnmasked (256 * 0 + 4) = true) ∧ ((owes false).held = false) ∧ ((owes false).due.contains (256 * 0 + 4) = true) ∧
    ((owes false).vecFree (256 * 0 + 4) 0 = true) ∧ ((owes false).vecUnmasked (256 * 0 + 4) = false) ∧ (recorded.held = false) ∧
    (idle.held = false) := by decide +kernel

theorem witness_events_stay_pending :
    (1535 < 1536) ∧ (1024 < 1536) := by decide +kernel

theorem witness_spdm_answers :
    (idle.held = false) ∧ (17 ≠ 18) ∧ (SpdmReq.getDigests ≠ SpdmReq.getVersion) ∧ (200 ≠ 0) ∧ (200 ≠ 255) ∧ (idle.measured 200 = false) ∧
    (5 ≠ 0) ∧ (5 ≠ 255) ∧ (idle.measured 5 = true) ∧ ((idle.measurement 5).length = 48) := by decide +kernel

theorem witness_string_channels :
    (Reaches ((lit 150 0 3).stringFault 0 1 9) World.secure RegId.ILC_STR_STATUS 0 0) ∧
    ((((lit 150 2 0).chan 0).observed = some ({ fall := 900, level := 150, line := 9, long := true : LitGate }, [])) ∧
    (¬2 * 100 < { fall := 900, level := 150, line := 9, long := true : LitGate }.level) ∧
    (¬(¬2 * 100 < { fall := 900, level := 150, line := 9, long := true : LitGate }.level ∧ (lit 150 2 0).get R.ILC_STR_CFG_SHORT_MV ≠ 0 ∧
      900 < (lit 150 2 0).get R.ILC_STR_CFG_SHORT_MV)) ∧
    ((((lit 150 2 0).setChan 95 { gates := [{ fall := 900, level := 1, line := 2, long := true : LitGate }] : Chan }).chan 95).observed =
      some ({ fall := 900, level := 1, line := 2, long := true : LitGate }, [])) ∧
    (2 * 0 < { fall := 900, level := 1, line := 2, long := true : LitGate }.level) ∧
    ((((lit 150 2 0).setChan 95 { gates := [{ fall := 900, level := 1, line := 2, long := true : LitGate }] : Chan }).chan 95).opens + 1 <
      4) ∧ (((lit 150 3 0).chan 0).observed = some ({ fall := 900, level := 150, line := 9, long := true : LitGate }, [])) ∧
    (2 * 10 < { fall := 900, level := 150, line := 9, long := true : LitGate }.level) ∧ (4 ≤ ((lit 150 3 0).chan 0).opens + 1) ∧
    (¬2 * 100 < { fall := 900, level := 150, line := 9, long := true : LitGate }.level ∧ (lit 150 2 0).get R.ILC_STR_CFG_SHORT_MV ≠ 0 ∧ 90
      < (lit 150 2 0).get R.ILC_STR_CFG_SHORT_MV) ∧ (((lit 150 2 0).chan 0).shorts + 1 < 4) ∧
    (((lit 150 0 3).chan 0).observed = some ({ fall := 900, level := 150, line := 9, long := true : LitGate }, [])) ∧
    (¬2 * 100 < { fall := 900, level := 150, line := 9, long := true : LitGate }.level ∧ (lit 150 0 3).get R.ILC_STR_CFG_SHORT_MV ≠ 0 ∧
      499 < (lit 150 0 3).get R.ILC_STR_CFG_SHORT_MV) ∧ (4 ≤ ((lit 150 0 3).chan 0).shorts + 1) ∧
    (((lit 150 0 3).grp ((lit 150 0 3).get R.ILC_STR_CFG_GROUP)).line = some (9, 200, 900)) ∧
    (((lit 150 0 3).chan 0).gates ≠ [] ∨ (lit 150 0 3).get R.ILC_STR_STATUS_MODE = 1 ∨ (lit 150 0 3).get R.ILC_STR_STATUS_MODE = 2) ∧
    ((lit 150 0 3).on R.ILC_STR_STATUS_FAULT = false) ∧ ((idle.set R.ILC_STR_CFG_GROUP 7 95).get R.ILC_STR_CFG_GROUP 95 = 7) ∧
    (R.ILC_STR_STATUS_FAULT.of 4 = 1) ∧ ((due.grp 0).line = some (9, 200, 900)) ∧ ((due.lst (due.grpStation 0)).committed = [dueLine]) ∧
    (due.groupLights 0 = true) ∧ (due.stState (due.grpStation 0) = St.scanning ∨ due.stState (due.grpStation 0) = St.draining) ∧
    (due.dueChannels 0 ≠ [])) ∧
    (5 * max 900 dueLine.at_ ≤ 5 * dueLine.ss - 64 * ↑(due.get R.ILC_GRP_TIMING_ONDLY + due.get R.ILC_GRP_TIMING_OFFDLY) - ↑(64 * due.get
      R.ILC_GRP_DIAG_DIAG_W)) :=
  ⟨reaches_secure (by decide +kernel), by decide +kernel, by decide +kernel⟩

theorem witness_lighting :
    (((lights 32768).set R.ILC_STR_CFG_EN 0).get R.ILC_STR_CFG_GROUP = 0) ∧ (((lights 32768).set R.ILC_STR_CFG_EN 0).held = false) ∧
    (((lights 32768).set R.ILC_STR_CFG_EN 0).dev ≠ Dev.thermalLatch) ∧
    (((lights 32768).set R.ILC_STR_CFG_EN 0).on R.ILC_STR_CFG_EN = false ∨ ((lights 32768).set R.ILC_STR_CFG_EN 0).on
      R.ILC_STR_STATUS_FAULT = true ∨ offFor 9 (((lights 32768).set R.ILC_STR_CFG_EN 0).grp 0).offs = true) ∧
    ((lights 32768).get R.ILC_STR_CFG_GROUP = 0) ∧ ((lights 32768).held = false) ∧ ((lights 32768).dev ≠ Dev.thermalLatch) ∧
    (¬((lights 32768).on R.ILC_STR_CFG_EN = false ∨ (lights 32768).on R.ILC_STR_STATUS_FAULT = true ∨ offFor 9 ((lights 32768).grp 0).offs
      = true)) ∧
    (4096 ≤ min 32768 (roundDiv ((lights 32768).patternOf 0 0 (useFor 9 ((lights 32768).grp 0).uses) 9 * (useFor 9 ((lights 32768).grp
      0).uses).factor 9 * ((lights 32768).chan 0).formed.getD ((lights 32768).get R.ILC_STR_APPLIED_COMP)) (2 ^ 30))) ∧ (200 < 900) ∧
    ((lights 4096).get R.ILC_STR_CFG_GROUP = 0) ∧ ((lights 4096).held = false) ∧ ((lights 4096).dev ≠ Dev.thermalLatch) ∧
    (¬((lights 4096).on R.ILC_STR_CFG_EN = false ∨ (lights 4096).on R.ILC_STR_STATUS_FAULT = true ∨ offFor 9 ((lights 4096).grp 0).offs =
      true)) ∧
    (4096 ≤ min 32768 (roundDiv ((lights 4096).patternOf 0 0 (useFor 9 ((lights 4096).grp 0).uses) 9 * (useFor 9 ((lights 4096).grp
      0).uses).factor 9 * ((lights 4096).chan 0).formed.getD ((lights 4096).get R.ILC_STR_APPLIED_COMP)) (2 ^ 30))) ∧
    ((lights 4095).get R.ILC_STR_CFG_GROUP = 0) ∧ ((lights 4095).held = false) ∧ ((lights 4095).dev ≠ Dev.thermalLatch) ∧
    (¬((lights 4095).on R.ILC_STR_CFG_EN = false ∨ (lights 4095).on R.ILC_STR_STATUS_FAULT = true ∨ offFor 9 ((lights 4095).grp 0).offs =
      true)) ∧
    (0 < min 32768 (roundDiv ((lights 4095).patternOf 0 0 (useFor 9 ((lights 4095).grp 0).uses) 9 * (useFor 9 ((lights 4095).grp
      0).uses).factor 9 * ((lights 4095).chan 0).formed.getD ((lights 4095).get R.ILC_STR_APPLIED_COMP)) (2 ^ 30))) ∧
    (min 32768 (roundDiv ((lights 4095).patternOf 0 0 (useFor 9 ((lights 4095).grp 0).uses) 9 * (useFor 9 ((lights 4095).grp
      0).uses).factor 9 * ((lights 4095).chan 0).formed.getD ((lights 4095).get R.ILC_STR_APPLIED_COMP)) (2 ^ 30)) < 4096) ∧
    ((lights 4095).get R.ILC_GRP_DIAG_MINON ≤ roundDiv (8 * min 32768 (roundDiv ((lights 4095).patternOf 0 0 (useFor 9 ((lights 4095).grp
      0).uses) 9 * (useFor 9 ((lights 4095).grp 0).uses).factor 9 * ((lights 4095).chan 0).formed.getD ((lights 4095).get
      R.ILC_STR_APPLIED_COMP)) (2 ^ 30)) * ((64000200 : Int) - 200).toNat) (32768 * 32)) ∧
    (0 < roundDiv (8 * min 32768 (roundDiv ((lights 4095).patternOf 0 0 (useFor 9 ((lights 4095).grp 0).uses) 9 * (useFor 9 ((lights
      4095).grp 0).uses).factor 9 * ((lights 4095).chan 0).formed.getD ((lights 4095).get R.ILC_STR_APPLIED_COMP)) (2 ^ 30)) * ((64000200
      : Int) - 200).toNat) (32768 * 32)) := by decide +kernel

theorem witness_lamp_groups :
    (ReachesAt idle World.secure (59768832 + 49152 * 15 + 4 * 12287)) ∧ (ReachesAt idle World.secure (59768832 + 49152 * 0 + 4 * 0)) ∧
    (Reaches (lit 0 0 0) World.secure RegId.ILC_GRP_BANK 0 0) ∧
    (Reaches ((lit 0 0 0).setLst 2 { next := 9, everCommitted := true : LSt }) World.secure RegId.ILC_GRP_CTRL 0 0) ∧
    (Reaches idle World.secure RegId.ILC_GRP_CTRL 0 0) ∧ (Reaches idle World.secure RegId.ILC_GRP_TCOMP 7 0) ∧
    ((idle.get R.ILC_GRP_BANK_ACTIVE (15 / 2) ≠ 15 % 2) ∧ (idle.on R.ILC_GRP_BANK_HELD (15 / 2) = false) ∧
    (idle.get R.ILC_GRP_BANK_ACTIVE (0 / 2) = 0 % 2 ∨ idle.on R.ILC_GRP_BANK_HELD (0 / 2) = true) ∧
    (R.ILC_GRP_BANK_GO.of 2147493888 = 1) ∧ (R.ILC_GRP_BANK_RLEN.of 2147493888 ≤ 20) ∧
    (isBandStart (if (lit 0 0 0).get R.ILC_GRP_SWAP_H = 0 then nextBandStart (if (lit 0 0 0).stBusy ((lit 0 0 0).grpStation 0) = true then
      if ((lit 0 0 0).sto ((lit 0 0 0).grpStation 0)).restart = true then max ((lit 0 0 0).lst ((lit 0 0 0).grpStation 0)).next ((lit 0 0
      0).get R.SST_ST_REW_R ((lit 0 0 0).grpStation 0)) else ((lit 0 0 0).lst ((lit 0 0 0).grpStation 0)).next else (lit 0 0 0).w0 ((lit 0
      0 0).grpStation 0)) ((lit 0 0 0).bandExp ((lit 0 0 0).grpStation 0)) else (lit 0 0 0).get R.ILC_GRP_SWAP_H) ((lit 0 0 0).bandExp
      ((lit 0 0 0).grpStation 0)) = true) ∧
    ((lit 0 0 0).stBusy ((lit 0 0 0).grpStation 0) = true → (if (lit 0 0 0).stBusy ((lit 0 0 0).grpStation 0) = true then if ((lit 0 0
      0).sto ((lit 0 0 0).grpStation 0)).restart = true then max ((lit 0 0 0).lst ((lit 0 0 0).grpStation 0)).next ((lit 0 0 0).get
      R.SST_ST_REW_R ((lit 0 0 0).grpStation 0)) else ((lit 0 0 0).lst ((lit 0 0 0).grpStation 0)).next else (lit 0 0 0).w0 ((lit 0 0
      0).grpStation 0)) ≤ if (lit 0 0 0).get R.ILC_GRP_SWAP_H = 0 then nextBandStart (if (lit 0 0 0).stBusy ((lit 0 0 0).grpStation 0) =
      true then if ((lit 0 0 0).sto ((lit 0 0 0).grpStation 0)).restart = true then max ((lit 0 0 0).lst ((lit 0 0 0).grpStation 0)).next
      ((lit 0 0 0).get R.SST_ST_REW_R ((lit 0 0 0).grpStation 0)) else ((lit 0 0 0).lst ((lit 0 0 0).grpStation 0)).next else (lit 0 0
      0).w0 ((lit 0 0 0).grpStation 0)) ((lit 0 0 0).bandExp ((lit 0 0 0).grpStation 0)) else (lit 0 0 0).get R.ILC_GRP_SWAP_H) ∧
    ((lit 0 0 0).on R.ILC_GRP_BANK_HELD = false) ∧
    (((lit 0 0 0).setLst 2 { next := 9, everCommitted := true : LSt }).changes [R.ILC_GRP_CTRL_EN, R.ILC_GRP_CTRL_STATION,
      R.ILC_GRP_CTRL_MODE, R.ILC_GRP_CTRL_LEN_LOG, R.ILC_GRP_CTRL_STEP] 0 0 65541 = false) ∧ (R.ILC_GRP_CTRL_LEN_LOG.of 65541 ≤ 8) ∧
    (((lit 0 0 0).setLst 2 { next := 9, everCommitted := true : LSt }).on R.ILC_GRP_CTRL_FORCE_OFF ≠ decide (R.ILC_GRP_CTRL_FORCE_OFF.of
      65541 = 1)) ∧
    ((wrote ((lit 0 0 0).setLst 2 { next := 9, everCommitted := true : LSt }) World.secure RegId.ILC_GRP_CTRL 0 0 65541).stBusy ((wrote
      ((lit 0 0 0).setLst 2 { next := 9, everCommitted := true : LSt }) World.secure RegId.ILC_GRP_CTRL 0 0 65541).grpStation 0) = true) ∧
    (((wrote ((lit 0 0 0).setLst 2 { next := 9, everCommitted := true : LSt }) World.secure RegId.ILC_GRP_CTRL 0 0 65541).lst ((wrote
      ((lit 0 0 0).setLst 2 { next := 9, everCommitted := true : LSt }) World.secure RegId.ILC_GRP_CTRL 0 0 65541).grpStation
      0)).everCommitted = true) ∧
    (idle.changes [R.ILC_GRP_CTRL_EN, R.ILC_GRP_CTRL_STATION, R.ILC_GRP_CTRL_MODE, R.ILC_GRP_CTRL_LEN_LOG, R.ILC_GRP_CTRL_STEP] 0 0 65536
      = false) ∧ (R.ILC_GRP_CTRL_LEN_LOG.of 65536 ≤ 8) ∧
    (idle.on R.ILC_GRP_CTRL_FORCE_OFF ≠ decide (R.ILC_GRP_CTRL_FORCE_OFF.of 65536 = 1)) ∧
    ((wrote idle World.secure RegId.ILC_GRP_CTRL 0 0 65536).stBusy ((wrote idle World.secure RegId.ILC_GRP_CTRL 0 0 65536).grpStation 0) =
      false ∨ ((wrote idle World.secure RegId.ILC_GRP_CTRL 0 0 65536).lst ((wrote idle World.secure RegId.ILC_GRP_CTRL 0 0
      65536).grpStation 0)).everCommitted = false) ∧ (R.ILC_GRP_TCOMP_EN.of 1 = 1) ∧ (idle.pointsBad 7 = false) ∧
    (R.ILC_GRP_TCOMP_EN.of 0 = 0)) :=
  ⟨by unfold ReachesAt; decide +kernel, by unfold ReachesAt; decide +kernel, reaches_secure (by decide +kernel),
  reaches_secure (by decide +kernel), reaches_secure (by decide +kernel), reaches_secure (by decide +kernel), by decide +kernel⟩

theorem witness_measurement_frames :
    (measuring.mfeRuns = true) ∧ (measuring.mfe.stopping = false) ∧ (measuring.mfe.sync = 0) ∧
    (∀ (e : Nat), e < 64 → (measuring.ment e).auto = none) ∧ (dwells.mfeRuns = true) ∧ (dwells.mfe.todo = [5]) ∧ (urgent.mfeRuns = true) ∧
    (urgent.mfe.todo = []) ∧ (urgent.mfe.urg = [5, 6]) ∧ (urgent.dwell 5 ≤ urgent.mfe.slack) ∧ (dwells.mfe.stopping = false) ∧
    (dwells.mfe.swapDue = false) ∧
    ({ pending := dwells.pending, regs := dwells.regs, hold := dwells.hold, out := dwells.out, fresh := dwells.fresh, due := dwells.due, hbm := dwells.hbm, leaf := dwells.leaf, mbox := dwells.mbox, qmx := dwells.qmx, store := dwells.store, eng := dwells.eng, pace := dwells.pace, hlf := dwells.hlf, ltu := dwells.ltu, pcp := dwells.pcp, ttc := dwells.ttc, ilc := dwells.ilc, scu := dwells.scu, seals := dwells.seals, stations := dwells.stations, smc := dwells.smc, kru := dwells.kru, hif := dwells.hif, mfe := { swapDue := true : Mfe }, thm := dwells.thm : State }.mfe.stopping
      = false) ∧
    ({ pending := dwells.pending, regs := dwells.regs, hold := dwells.hold, out := dwells.out, fresh := dwells.fresh, due := dwells.due, hbm := dwells.hbm, leaf := dwells.leaf, mbox := dwells.mbox, qmx := dwells.qmx, store := dwells.store, eng := dwells.eng, pace := dwells.pace, hlf := dwells.hlf, ltu := dwells.ltu, pcp := dwells.pcp, ttc := dwells.ttc, ilc := dwells.ilc, scu := dwells.scu, seals := dwells.seals, stations := dwells.stations, smc := dwells.smc, kru := dwells.kru, hif := dwells.hif, mfe := { swapDue := true : Mfe }, thm := dwells.thm : State }.mfe.swapDue
      = true) ∧
    ({ pending := dwells.pending, regs := dwells.regs, hold := dwells.hold, out := dwells.out, fresh := dwells.fresh, due := dwells.due, hbm := dwells.hbm, leaf := dwells.leaf, mbox := dwells.mbox, qmx := dwells.qmx, store := dwells.store, eng := dwells.eng, pace := dwells.pace, hlf := dwells.hlf, ltu := dwells.ltu, pcp := dwells.pcp, ttc := dwells.ttc, ilc := dwells.ilc, scu := dwells.scu, seals := dwells.seals, stations := dwells.stations, smc := dwells.smc, kru := dwells.kru, hif := dwells.hif, mfe := { stopping := true : Mfe }, thm := dwells.thm : State }.mfe.stopping
      = true) := by decide +kernel

theorem witness_voltage_dwells :
    (∀ (c : Fin 5 × BitVec 16), c ∈ [(0, 100#16), (1, 200#16)] → ((dwells.set R.MFE_ENT_CFG_OSR 1 5).trimmed c).natAbs < (dwells.set
      R.MFE_ENT_CFG_OSR 1 5).get R.MFE_CTRL_RAIL) ∧ (((dwells.set R.MFE_ENT_CFG_OSR 1 5).mfeRuns = true) ∧
    ((dwells.set R.MFE_ENT_CFG_OSR 1 5).mfe.todo = [5]) ∧ ((dwells.set R.MFE_ENT_CFG_OSR 1 5).mfe.stopping = false) ∧
    (((dwells.set R.MFE_ENT_CFG_OSR 1 5).ment 5).held = none) ∧
    ([(0, 100#16), (1, 200#16)].length = 2 ^ (dwells.set R.MFE_ENT_CFG_OSR 1 5).get R.MFE_ENT_CFG_OSR 5) ∧
    (24 ≤ (dwells.set R.MFE_ENT_CFG_OSR 1 5).get R.MFE_ENT_CFG_INPUT 5) ∧
    ((dwells.set R.MFE_ENT_CFG_OSR 1 5).on R.MFE_ENT_CFG_CH_EN 5 = false) ∧
    ((dwells.set R.MFE_ENT_CFG_OSR 1 5).on R.MFE_ENT_REC_EN 5 = false) ∧
    ((dwells.set R.MFE_ENT_CFG_OSR 1 5).on R.MFE_ENT_STATUS_OPEN 5 = false) ∧
    (∀ (g : Fin 8), (dwells.set R.MFE_ENT_CFG_OSR 1 5).get R.ILC_GRP_TCOMP_ENTRY ↑g ≠ 5) ∧
    (∀ (o : Fin 8), (dwells.set R.MFE_ENT_CFG_OSR 1 5).on R.MFE_OUT_CFG_EN ↑o = false) ∧
    (-2 ^ 31 ≤ roundDivI (List.foldl (fun x1 x2 => x1 + x2) 0 (List.map (dwells.set R.MFE_ENT_CFG_OSR 1 5).trimmed [(0, 100#16), (1,
      200#16)]) * if (dwells.set R.MFE_ENT_CFG_OSR 1 5).on R.MFE_ENT_EXC_ATTEN 5 = true then 3125 else 625) (10 * 2 ^ (dwells.set
      R.MFE_ENT_CFG_OSR 1 5).get R.MFE_ENT_CFG_OSR 5) ∧ roundDivI (List.foldl (fun x1 x2 => x1 + x2) 0 (List.map (dwells.set
      R.MFE_ENT_CFG_OSR 1 5).trimmed [(0, 100#16), (1, 200#16)]) * if (dwells.set R.MFE_ENT_CFG_OSR 1 5).on R.MFE_ENT_EXC_ATTEN 5 = true
      then 3125 else 625) (10 * 2 ^ (dwells.set R.MFE_ENT_CFG_OSR 1 5).get R.MFE_ENT_CFG_OSR 5) < 2 ^ 31) ∧
    (-2 ^ 47 ≤ (dwells.set R.MFE_ENT_CFG_OSR 1 5).getS R.MFE_ACC_SUM 5 + roundDivI (List.foldl (fun x1 x2 => x1 + x2) 0 (List.map
      (dwells.set R.MFE_ENT_CFG_OSR 1 5).trimmed [(0, 100#16), (1, 200#16)]) * if (dwells.set R.MFE_ENT_CFG_OSR 1 5).on
      R.MFE_ENT_EXC_ATTEN 5 = true then 3125 else 625) (10 * 2 ^ (dwells.set R.MFE_ENT_CFG_OSR 1 5).get R.MFE_ENT_CFG_OSR 5) ∧ (dwells.set
      R.MFE_ENT_CFG_OSR 1 5).getS R.MFE_ACC_SUM 5 + roundDivI (List.foldl (fun x1 x2 => x1 + x2) 0 (List.map (dwells.set R.MFE_ENT_CFG_OSR
      1 5).trimmed [(0, 100#16), (1, 200#16)]) * if (dwells.set R.MFE_ENT_CFG_OSR 1 5).on R.MFE_ENT_EXC_ATTEN 5 = true then 3125 else 625)
      (10 * 2 ^ (dwells.set R.MFE_ENT_CFG_OSR 1 5).get R.MFE_ENT_CFG_OSR 5) < 2 ^ 47)) :=
  ⟨two_of (by decide +kernel), by decide +kernel⟩

theorem witness_front_end_control :
    (Reaches idle World.secure RegId.MFE_CTRL 0 0) ∧ (Reaches measureOff World.secure RegId.MFE_CTRL 0 0) ∧
    (Reaches measuring World.secure RegId.MFE_CTRL 0 0) ∧
    (Reaches (measureOff.set R.MFE_SEQ_CTRL_COUNT 65) World.secure RegId.MFE_CTRL 0 0) ∧
    (Reaches (measureOff.set R.MFE_STATUS_REF_RDY 0) World.secure RegId.MFE_CTRL 0 0) ∧
    (Reaches (measureOff.set R.MFE_SEQ_PERIOD_PERIOD 24) World.secure RegId.MFE_CTRL 0 0) ∧
    (Reaches urgent World.secure RegId.MFE_URGENT 0 0) ∧ (Reaches urgentFull World.secure RegId.MFE_URGENT 0 0) ∧
    (Reaches measuring World.secure RegId.MFE_SYNC 0 0) ∧ (((idle.set R.MFE_CTRL_REF_EN 1).on R.MFE_CTRL_REF_EN = true) ∧
    ((measuring.set R.MFE_CAL_INT 1).on R.MFE_STATUS_REF_RDY = true) ∧ ((measuring.set R.MFE_CAL_INT 1).get R.MFE_CAL_INT ≠ 0) ∧
    ((measuring.set R.MFE_CAL_INT 1).on R.MFE_STATUS_NO_SPARE = false) ∧ ((measuring.set R.MFE_CAL_INT 1).get R.MFE_STATUS_STATE ≠ 2) ∧
    ((measuring.set R.MFE_CAL_INT 1).mfe.swapDue = false) ∧ ((max (-2048) (min 2047 (roundDivI 65536 1024))).natAbs ≤ 64) ∧
    ((max (-32768) (min 32767 (roundDivI (({ sum := 10305536, nominal := 10000 : CalRef }.sum - 65536 - 1024 *
      ↑{ sum := 10305536, nominal := 10000 : CalRef }.nominal) * 1000000) (1024 *
      { sum := 10305536, nominal := 10000 : CalRef }.nominal)))).natAbs ≤ 5000) ∧
    ((spareGood 65536 { sum := 10305536, nominal := 10000 : CalRef } (measuring.set R.MFE_CAL_INT 1)).inDwell = false) ∧
    ((dwells.set R.MFE_CAL_INT 1).on R.MFE_STATUS_REF_RDY = true) ∧ ((dwells.set R.MFE_CAL_INT 1).get R.MFE_CAL_INT ≠ 0) ∧
    ((dwells.set R.MFE_CAL_INT 1).on R.MFE_STATUS_NO_SPARE = false) ∧ ((dwells.set R.MFE_CAL_INT 1).get R.MFE_STATUS_STATE ≠ 2) ∧
    ((dwells.set R.MFE_CAL_INT 1).mfe.swapDue = false) ∧ ((max (-2048) (min 2047 (roundDivI 0 1024))).natAbs ≤ 64) ∧
    ((max (-32768) (min 32767 (roundDivI (({ sum := 10240000, nominal := 10000 : CalRef }.sum - 0 - 1024 *
      ↑{ sum := 10240000, nominal := 10000 : CalRef }.nominal) * 1000000) (1024 *
      { sum := 10240000, nominal := 10000 : CalRef }.nominal)))).natAbs ≤ 5000) ∧
    ((spareGood 0 { sum := 10240000, nominal := 10000 : CalRef } (dwells.set R.MFE_CAL_INT 1)).inDwell = true) ∧
    (64 < (max (-2048) (min 2047 (roundDivI 66560 1024))).natAbs ∨ 5000 < (max (-32768) (min 32767 (roundDivI
      (({ sum := 10306560, nominal := 10000 : CalRef }.sum - 66560 - 1024 * ↑{ sum := 10306560, nominal := 10000 : CalRef }.nominal) *
      1000000) (1024 * { sum := 10306560, nominal := 10000 : CalRef }.nominal)))).natAbs) ∧
    ((measuring.set R.MFE_SLICE_ROLE 1).mfe.rr < 5) ∧ (5 < 6) ∧ (1 < 5) ∧
    (∀ (d : Nat), d < 1 → (measuring.set R.MFE_SLICE_ROLE 1).get R.MFE_SLICE_ROLE (((measuring.set R.MFE_SLICE_ROLE 1).mfe.rr + d) % 5) ≠
      0) ∧ ((measuring.set R.MFE_SLICE_ROLE 1).get R.MFE_SLICE_ROLE (((measuring.set R.MFE_SLICE_ROLE 1).mfe.rr + 1) % 5) = 0) ∧
    (5 ≠ ((measuring.set R.MFE_SLICE_ROLE 1).mfe.rr + 1) % 5)) ∧ ((16384 ≤ R.MFE_CTRL_RAIL.of 1073741825) ∧
    (R.MFE_CTRL_RAIL.of 1073741825 ≤ 32767) ∧ (idle.on R.MFE_CTRL_REF_EN = false) ∧ (R.MFE_CTRL_REF_EN.of 1073741825 = 1) ∧
    (idle.on R.MFE_CTRL_SEQ_EN = false) ∧ (R.MFE_CTRL_SEQ_EN.of 1073741825 = 0) ∧ (16384 ≤ R.MFE_CTRL_RAIL.of 2147418115) ∧
    (R.MFE_CTRL_RAIL.of 2147418115 ≤ 32767) ∧ (R.MFE_CTRL_REF_EN.of 2147418115 = 1) ∧ (measureOff.on R.MFE_CTRL_SEQ_EN = false) ∧
    (R.MFE_CTRL_SEQ_EN.of 2147418115 = 1) ∧ (measureOff.seqCheck = none) ∧ (16384 ≤ R.MFE_CTRL_RAIL.of 2147418113) ∧
    (R.MFE_CTRL_RAIL.of 2147418113 ≤ 32767) ∧ (R.MFE_CTRL_REF_EN.of 2147418113 = 1) ∧ (measuring.on R.MFE_CTRL_SEQ_EN = true) ∧
    (R.MFE_CTRL_SEQ_EN.of 2147418113 = 0) ∧ (16384 ≤ R.MFE_CTRL_RAIL.of 2147418114) ∧ (R.MFE_CTRL_RAIL.of 2147418114 ≤ 32767) ∧
    (measuring.on R.MFE_CTRL_REF_EN = true) ∧ (R.MFE_CTRL_REF_EN.of 2147418114 = 0) ∧
    (measuring.on R.MFE_CTRL_SEQ_EN = decide (R.MFE_CTRL_SEQ_EN.of 2147418114 = 1)) ∧
    ((measureOff.set R.MFE_SEQ_CTRL_COUNT 65).on R.MFE_CTRL_SEQ_EN = false) ∧
    ((measureOff.set R.MFE_SEQ_CTRL_COUNT 65).get R.MFE_SEQ_CTRL_COUNT ≠ 0)) ∧
    ((∀ (e : Nat), e < 64 → (measureOff.set R.MFE_SEQ_CTRL_COUNT 65).on R.MFE_ENT_REC_EN e = false) ∧
    (64 < (measureOff.set R.MFE_SEQ_CTRL_COUNT 65).get R.MFE_SEQ_CTRL_COUNT) ∧
    ((measureOff.set R.MFE_STATUS_REF_RDY 0).on R.MFE_CTRL_SEQ_EN = false) ∧
    ((measureOff.set R.MFE_STATUS_REF_RDY 0).get R.MFE_SEQ_CTRL_COUNT ≠ 0) ∧
    (∀ (e : Nat), e < 64 → (measureOff.set R.MFE_STATUS_REF_RDY 0).on R.MFE_ENT_REC_EN e = false) ∧
    ((measureOff.set R.MFE_STATUS_REF_RDY 0).get R.MFE_SEQ_CTRL_COUNT ≤ 64) ∧
    ((measureOff.set R.MFE_STATUS_REF_RDY 0).on R.MFE_STATUS_REF_RDY = false ∨ (measureOff.set R.MFE_STATUS_REF_RDY 0).get
      R.MFE_STATUS_STATE = 2) ∧ ((measureOff.set R.MFE_SEQ_PERIOD_PERIOD 24).on R.MFE_CTRL_SEQ_EN = false) ∧
    ((measureOff.set R.MFE_SEQ_PERIOD_PERIOD 24).get R.MFE_SEQ_CTRL_COUNT ≠ 0) ∧
    (∀ (e : Nat), e < 64 → (measureOff.set R.MFE_SEQ_PERIOD_PERIOD 24).on R.MFE_ENT_REC_EN e = false) ∧
    ((measureOff.set R.MFE_SEQ_PERIOD_PERIOD 24).get R.MFE_SEQ_CTRL_COUNT ≤ 64) ∧
    ((measureOff.set R.MFE_SEQ_PERIOD_PERIOD 24).on R.MFE_STATUS_REF_RDY = true) ∧
    ((measureOff.set R.MFE_SEQ_PERIOD_PERIOD 24).get R.MFE_STATUS_STATE ≠ 2) ∧
    ((measureOff.set R.MFE_SEQ_PERIOD_PERIOD 24).get R.MFE_SEQ_PERIOD_PERIOD / 24 < (measureOff.set R.MFE_SEQ_PERIOD_PERIOD 24).usedSlots
      + (measureOff.set R.MFE_SEQ_PERIOD_PERIOD 24).get R.MFE_SEQ_CTRL_URG_SLACK ∨ ∃ c, c ∈ (measureOff.set R.MFE_SEQ_PERIOD_PERIOD
      24).boundChains ∧ (measureOff.set R.MFE_SEQ_PERIOD_PERIOD 24).scs c = true ∧ 12000000 % (measureOff.set R.MFE_SEQ_PERIOD_PERIOD
      24).get R.MFE_SEQ_PERIOD_PERIOD ≠ 0) ∧ (R.MFE_CTRL_SEQ_EN.of 2147418114 = 1) ∧ (measureOff.get R.MFE_SEQ_CTRL_COUNT ≠ 0) ∧
    (measuring.inDwell = false) ∧ (dwells.inDwell = true) ∧ (R.MFE_URGENT_GO.of 2147483711 = 1) ∧ (urgent.mfe.urg.length < 4) ∧
    (R.MFE_URGENT_GO.of 2147483648 = 1) ∧ (4 ≤ urgentFull.mfe.urg.length)) :=
  ⟨reaches_secure (by decide +kernel), reaches_secure (by decide +kernel), reaches_secure (by decide +kernel),
  reaches_secure (by decide +kernel), reaches_secure (by decide +kernel), reaches_secure (by decide +kernel),
  reaches_secure (by decide +kernel), reaches_secure (by decide +kernel), reaches_secure (by decide +kernel), by decide +kernel,
  by decide +kernel, by decide +kernel⟩

theorem witness_front_end_registers :
    (Reaches (measuring.set R.MFE_ENT_STATUS_OPEN 1 63) World.secure RegId.MFE_ENT_STATUS 63 0) ∧
    (Reaches measuring World.secure RegId.MFE_ENT_STATUS 0 0) ∧ (Reaches measuring World.secure RegId.MFE_ENT_EXC 63 0) ∧
    (Reaches dwells World.secure RegId.MFE_ENT_EXC 5 0) ∧ (Reaches chained World.secure RegId.MFE_CH_SWAP 0 0) ∧
    (ReachesAt chained World.secure (60817408 + 4 * 65535)) ∧ (ReachesAt chained World.secure (60817408 + 4 * 2048)) ∧
    (Reaches (outReady.set R.MFE_OUT_CFG_EN 1 7) World.secure RegId.MFE_OUT_CFG 7 0) ∧
    (Reaches outReady World.secure RegId.MFE_OUT_CFG 7 0) ∧
    (((measuring.set R.MFE_ENT_STATUS_OPEN 1 63).on R.MFE_ENT_STATUS_OPEN 63 = true) ∧ (R.MFE_ENT_STATUS_OPEN.of 1 = 1) ∧
    (measuring.on R.MFE_ENT_STATUS_OPEN = false) ∧ (measuring.dwelling 63 = false) ∧ (dwells.dwelling 5 = true) ∧
    (measuring.urgentEntry ≠ some 63) ∧ (dwells.dwelling 5 = true ∨ dwells.urgentEntry = some 5) ∧
    ((measuring.set R.MFE_ENT_CFG_ACC_CLR 1 63).held = false) ∧
    (World.secure = World.secure ∨ (measuring.set R.MFE_ENT_CFG_ACC_CLR 1 63).addrWorld (RegId.MFE_ACC_SUM_LO.addr 63) = World.nonSecure)
      ∧ ((measuring.set R.MFE_RES_VALUE 77).held = false) ∧
    (World.secure = World.secure ∨ (measuring.set R.MFE_RES_VALUE 77).addrWorld RegId.MFE_RES.addr = World.nonSecure) ∧
    (R.MFE_CH_SWAP_GO.of 2147486211 = 1) ∧ (chained.scs 0 = false) ∧ (chained.mfeRuns = true) ∧
    (R.MFE_CH_SWAP_LEAF.of 2147486211 ≠ chained.get R.MFE_CH_CFG_LEAF) ∧ ((chained.chain 0).fade = none) ∧
    (R.MFE_CH_SWAP_FADE.of 2147486211 ≤ 10) ∧ (chained.mfeLeafOk (R.MFE_CH_SWAP_LEAF.of 2147486211) = true) ∧
    (chained.mfeLeafBusy (65535 / 1024) = false) ∧ (chained.mfeLeafBusy (2048 / 1024) = true) ∧
    ((outReady.set R.MFE_OUT_CFG_EN 1 7).on R.MFE_OUT_CFG_EN 7 = true) ∧ (R.MFE_OUT_CFG_EN.of 1 = 1) ∧ (R.MFE_OUT_CFG_EN.of 0 = 0) ∧
    (R.MFE_OUT_CFG_FAIL.of 0 ≠ 3)) ∧
    (((outReady.set R.MFE_OUT_CFG_EN 1 7).changes [R.MFE_OUT_CFG_MODE, R.MFE_OUT_CFG_ENTRY, R.MFE_OUT_CFG_FAIL] 7 0 0 = false) ∧
    (R.MFE_OUT_CFG_FAIL.of 1 ≠ 3) ∧ (outReady.on R.MFE_OUT_CFG_EN 7 = false) ∧
    (R.MFE_OUT_CFG_EN.of 1 = 1 → outReady.getS R.MFE_OUT_LO_LO 7 < outReady.getS R.MFE_OUT_HI_HI 7 ∧ outReady.get R.MFE_OUT_F_F_A 7 ≠ 0 ∧
      (R.MFE_OUT_CFG_MODE.of 1 = 1 → outReady.get R.MFE_OUT_F_F_A 7 < outReady.get R.MFE_OUT_F_FMAX 7)) ∧
    (((idle.setMout 0 { next := some (10, 5) : MfeOut }).mout 0).next = some (10, 5))) :=
  ⟨reaches_secure (by decide +kernel), reaches_secure (by decide +kernel), reaches_secure (by decide +kernel),
  reaches_secure (by decide +kernel), reaches_secure (by decide +kernel), by unfold ReachesAt; decide +kernel,
  by unfold ReachesAt; decide +kernel, reaches_secure (by decide +kernel), reaches_secure (by decide +kernel), by decide +kernel,
  by decide +kernel⟩

theorem witness_axis_commands :
    (Reaches (axis1 Ax.moving) World.secure RegId.TTC_AX_CMD 1 0) ∧ (AxisOk (axis1 Ax.moving) 1) ∧
    (Reaches (axis1 Ax.still) World.secure RegId.TTC_AX_CMD 1 0) ∧ (AxisOk (axis1 Ax.still) 1) ∧
    (Reaches ((axis1 Ax.still).setS R.TTC_AX_VEL_VEL (-400) 1) World.secure RegId.TTC_AX_CMD 1 0) ∧
    (AxisOk ((axis1 Ax.still).setS R.TTC_AX_VEL_VEL (-400) 1) 1) ∧
    (Reaches ((axis1 Ax.still).setS R.TTC_AX_VEL_VEL 401 1) World.secure RegId.TTC_AX_CMD 1 0) ∧
    (AxisOk ((axis1 Ax.still).setS R.TTC_AX_VEL_VEL 401 1) 1) ∧ (Reaches idle World.secure RegId.TTC_AX_CMD 0 0) ∧
    (Reaches (axis1 Ax.still) World.secure RegId.TTC_LIN 0 0) ∧
    (∀ (a : Fin 4), bit (R.TTC_LIN_MASK.of 2147483650) ↑a = true → AxisOk (axis1 Ax.still) ↑a) ∧
    (Reaches idle World.secure RegId.TTC_AX_CTRL 3 0) ∧ (Reaches (axis1 Ax.still) World.secure RegId.TTC_AX_CTRL 1 0) ∧
    (Reaches ((axis1 Ax.fault).set R.TTC_AX_STATUS_FAULT 1 1) World.secure RegId.TTC_AX_STATUS 1 0) ∧
    (Reaches (((axis1 Ax.fault).set R.TTC_AX_STATUS_FAULT 1 1).setAxis 1 { missed := 4 : Axis }) World.secure RegId.TTC_AX_STATUS 1 0) ∧
    ((((wrote (axis1 Ax.still) World.secure RegId.TTC_AX_CMD 1 0 (1 + 2 ^ 31)).stopLin 1).axState 1 = Ax.still) ∧
    (((wrote (axis1 Ax.still) World.secure RegId.TTC_AX_CMD 1 0 (1 + 2 ^ 31)).stopLin 1).axTarget 1 = (((wrote (axis1 Ax.still)
      World.secure RegId.TTC_AX_CMD 1 0 (1 + 2 ^ 31)).stopLin 1).axis 1).prof.at) ∧
    (¬(((wrote (axis1 Ax.moving) World.secure RegId.TTC_AX_CMD 1 0 (1 + 2 ^ 31)).stopLin 1).axState 1 = Ax.still ∧ ((wrote (axis1
      Ax.moving) World.secure RegId.TTC_AX_CMD 1 0 (1 + 2 ^ 31)).stopLin 1).axTarget 1 = (((wrote (axis1 Ax.moving) World.secure
      RegId.TTC_AX_CMD 1 0 (1 + 2 ^ 31)).stopLin 1).axis 1).prof.at)) ∧
    ((((axis1 Ax.still).setS R.TTC_AX_VEL_VEL (-400) 1).getS R.TTC_AX_VEL_VEL 1).natAbs ≤ ((axis1 Ax.still).setS R.TTC_AX_VEL_VEL (-400)
      1).get R.TTC_AX_VMAX_VMAX 1) ∧
    (((axis1 Ax.still).setS R.TTC_AX_VEL_VEL 401 1).get R.TTC_AX_VMAX_VMAX 1 < (((axis1 Ax.still).setS R.TTC_AX_VEL_VEL 401 1).getS
      R.TTC_AX_VEL_VEL 1).natAbs) ∧ (idle.axReady 0 = false ∨ idle.on R.TTC_AX_STATUS_PACED = true) ∧
    (Instr.axisVel World.secure 0 ∈ [Instr.axisStop World.secure 0, Instr.axisMove World.secure 0, Instr.axisVel World.secure 0,
      Instr.axisEstop World.secure 0]) ∧ (((axis1 Ax.still).axis 1).inLin = false) ∧
    (∀ (e : Nat × Int), e ∈ (axis1 Ax.still).ttc.due → e.fst ≠ 1) ∧
    ((inLine (axis1 Ax.moving)).ttc.lin = some
      { path := { goal := Goal.pos 9 : Profile }, starts := [(1, 0)], deltas := [(1, 9)], lead := 9 : Lin }) ∧
    ({ path := { goal := Goal.pos 9 : Profile }, starts := [(1, 0)], deltas := [(1, 9)], lead := 9 : Lin }.starts = [(1, 0)]) ∧
    (((inLine (axis1 Ax.moving)).axis 1).inLin = true) ∧ ((inLine (axis1 Ax.moving)).axReady 1 = true) ∧
    ((axis1 Ax.atVelocity).axReady 1 = true) ∧ (R.TTC_LIN_GO.of 2147483650 = 1) ∧
    (((axis1 Ax.moving).setAxis 1 { prof := { v := 5 : Profile } : Axis }).axReady 1 = true) ∧
    ((((axis1 Ax.moving).setAxis 1 { prof := { v := 5 : Profile } : Axis }).axis 1).inLin = false) ∧
    (((axis1 Ax.moving).setAxis 1 { prof := { v := 5 : Profile } : Axis }).ttc.due = []) ∧
    (((axis1 Ax.moving).setAxis 1 { prof := { v := 5 : Profile } : Axis }).axStandstill 1 = false) ∧
    (((axis1 Ax.still).set R.TTC_AX_TARGET_TARGET 5 1).axReady 1 = true) ∧
    (((axis1 Ax.still).set R.TTC_AX_TARGET_TARGET 5 1).on R.TTC_AX_STATUS_PACED 1 = false) ∧
    ((((axis1 Ax.still).set R.TTC_AX_TARGET_TARGET 5 1).axis 1).inLin = false) ∧
    (((axis1 Ax.still).set R.TTC_AX_TARGET_TARGET 5 1).ttc.due = []) ∧
    (((axis1 Ax.still).set R.TTC_AX_TARGET_TARGET 5 1).ttc.lin = none)) ∧
    ((((axis1 Ax.still).set R.TTC_AX_TARGET_TARGET 5 1).axStandstill 1 = true) ∧
    (((axis1 Ax.still).set R.TTC_AX_TARGET_TARGET 5 1).axTarget 1 ≠ (((axis1 Ax.still).set R.TTC_AX_TARGET_TARGET 5 1).axis 1).prof.at) ∧
    (R.TTC_AX_CTRL_TOL.of 16777217 ≠ 0) ∧ (idle.axState 3 = Ax.disabled ∨ idle.axState 3 = Ax.still) ∧
    (idle.on R.TTC_AX_STATUS_PACED 3 = false) ∧ (idle.on R.TTC_AX_CTRL_EN 3 = false) ∧ (R.TTC_AX_CTRL_EN.of 16777217 = 1) ∧
    (R.TTC_AX_CTRL_TOL.of 16777216 ≠ 0) ∧ ((axis1 Ax.still).axState 1 = Ax.disabled ∨ (axis1 Ax.still).axState 1 = Ax.still) ∧
    ((axis1 Ax.still).on R.TTC_AX_STATUS_PACED 1 = false) ∧ ((axis1 Ax.still).on R.TTC_AX_CTRL_EN 1 = true) ∧
    (R.TTC_AX_CTRL_EN.of 16777216 = 0) ∧ (R.TTC_AX_STATUS_FAULT.of 32 = 1) ∧
    (((axis1 Ax.fault).set R.TTC_AX_STATUS_FAULT 1 1).axState 1 = Ax.fault) ∧
    ((((axis1 Ax.fault).set R.TTC_AX_STATUS_FAULT 1 1).axis 1).missed < 4) ∧
    ((((axis1 Ax.fault).set R.TTC_AX_STATUS_FAULT 1 1).setAxis 1 { missed := 4 : Axis }).axState 1 = Ax.fault) ∧
    (4 ≤ ((((axis1 Ax.fault).set R.TTC_AX_STATUS_FAULT 1 1).setAxis 1 { missed := 4 : Axis }).axis 1).missed)) :=
  ⟨reaches_secure (by decide +kernel), by unfold AxisOk; decide +kernel, reaches_secure (by decide +kernel),
  by unfold AxisOk; decide +kernel, reaches_secure (by decide +kernel), by unfold AxisOk; decide +kernel,
  reaches_secure (by decide +kernel), by unfold AxisOk; decide +kernel, reaches_secure (by decide +kernel),
  reaches_secure (by decide +kernel), by unfold AxisOk; decide +kernel, reaches_secure (by decide +kernel),
  reaches_secure (by decide +kernel), reaches_secure (by decide +kernel), reaches_secure (by decide +kernel), by decide +kernel,
  by decide +kernel⟩

theorem witness_axis_time :
    (ReachesAt idle World.secure (61865984 + 4 * 1023)) ∧ (ReachesAt (axis1 Ax.still) World.secure (61865984 + 4 * 0)) ∧
    ((((axis1 Ax.moving).axis 1).inLin = false) ∧ ((axis1 Ax.moving).axReady 1 = true) ∧
    ((((axis1 Ax.moving).setAxis 1 { ended := true : Axis }).axis 1).ended = true) ∧ (((axis1 Ax.moving).axis 1).ended = false) ∧
    ((axis1 Ax.still).on R.TTC_AX_CTRL_EN 1 = true) ∧ (bits 90 0 8 = 90 ∧ bits 90 72 8 = crc8 90) ∧
    (¬(bits 91 0 8 = 90 ∧ bits 91 72 8 = crc8 91)) ∧ (((axis1 Ax.still).setAxis 1 { missed := 4 : Axis }).on R.TTC_AX_CTRL_EN 1 = true) ∧
    (4 ≤ (((axis1 Ax.still).setAxis 1 { missed := 4 : Axis }).axis 1).missed) ∧
    (((axis1 Ax.still).setAxis 1 { missed := 4 : Axis }).axState 1 ≠ Ax.fault) ∧ (((settled St.paused 1 0 0).axis 1).settling = true) ∧
    (((settled St.paused 1 0 0).axis 1).back = some 0) ∧ ((settled St.paused 1 0 0).pacer 1 = some 2) ∧
    ((0 - (settled St.paused 1 0 0).posOf 2 0).natAbs ≤ 65536 * (settled St.paused 1 0 0).get R.TTC_AX_CTRL_TOL 1) ∧
    (¬((settled St.paused 1 0 0).stState 2 = St.rewinding ∧ (settled St.paused 1 0 0).get R.SST_ST_REW_STATUS_PHASE 2 = 2)) ∧
    (((settled St.rewinding 2 0 65536).axis 1).settling = true) ∧ (((settled St.rewinding 2 0 65536).axis 1).back = some 65536) ∧
    ((settled St.rewinding 2 0 65536).pacer 1 = some 2) ∧
    ((65536 - (settled St.rewinding 2 0 65536).posOf 2 0).natAbs ≤ 65536 * (settled St.rewinding 2 0 65536).get R.TTC_AX_CTRL_TOL 1) ∧
    ((settled St.rewinding 2 0 65536).stState 2 = St.rewinding) ∧ ((settled St.rewinding 2 0 65536).get R.SST_ST_REW_STATUS_PHASE 2 = 2) ∧
    (((settled St.rewinding 2 0 65537).axis 1).settling = true) ∧ (((settled St.rewinding 2 0 65537).axis 1).back = some 65537) ∧
    ((settled St.rewinding 2 0 65537).pacer 1 = some 2)) ∧
    ((¬(65537 - (settled St.rewinding 2 0 65537).posOf 2 0).natAbs ≤ 65536 * (settled St.rewinding 2 0 65537).get R.TTC_AX_CTRL_TOL 1) ∧
    (((settled St.rewinding 2 0 65537).axis 1).tries = 0) ∧ (((settled St.rewinding 2 1 65537).axis 1).settling = true) ∧
    (((settled St.rewinding 2 1 65537).axis 1).back = some 65537) ∧ ((settled St.rewinding 2 1 65537).pacer 1 = some 2) ∧
    (¬(65537 - (settled St.rewinding 2 1 65537).posOf 2 0).natAbs ≤ 65536 * (settled St.rewinding 2 1 65537).get R.TTC_AX_CTRL_TOL 1) ∧
    (((settled St.rewinding 2 1 65537).axis 1).tries ≠ 0) ∧ ((axis1 Ax.still).axReady 1 = true) ∧ (((axis1 Ax.still).axis 1).prof.v = 0) ∧
    (((axis1 Ax.still).axis 1).prof.a = 0) ∧ (((axis1 Ax.still).axis 1).inLin = false) ∧
    (∀ (a : Fin 4), idle.on R.TTC_AX_CTRL_EN ↑a = false) ∧ (∃ a : Fin 4, (axis1 Ax.still).on R.TTC_AX_CTRL_EN ↑a = true)) :=
  ⟨by unfold ReachesAt; decide +kernel, by unfold ReachesAt; decide +kernel, by decide +kernel, by decide +kernel⟩

theorem witness_profiles_keep_their_limit :
    (∀ (v : Int), { goal := Goal.pos 0 : Profile }.goal ≠ Goal.vel v) ∧ ((0 < 5000) ∧
    ({ goal := Goal.pos 400 : Profile }.v.natAbs ≤ 400) ∧
    ((settleVel { goal := Goal.pos 400 : Profile }.v { goal := Goal.pos 400 : Profile }.a 5000).natAbs ≤ 400) ∧
    ({ goal := Goal.pos 400 : Profile }.a.natAbs ≤ 1000) ∧ ({ goal := Goal.pos 400 : Profile }.goal = Goal.pos 400) ∧
    ({ goal := Goal.vel 400 : Profile }.goal = Goal.vel 400) ∧ ({ goal := Goal.vel 400 : Profile }.a.natAbs ≤ 1000) ∧
    ({ v := 7, goal := Goal.estop : Profile }.goal = Goal.estop) ∧ ({ v := 1000, goal := Goal.estop : Profile }.goal = Goal.estop) ∧
    ({ v := 1000, goal := Goal.estop : Profile }.v.natAbs ≤ 1000) ∧ ({ goal := Goal.pos 0 : Profile }.done = true)) :=
  ⟨(fun _ h => nomatch h), by decide +kernel⟩

theorem witness_temperatures :
    (Reaches idle World.secure RegId.THM_THR_WARN 0 0) ∧ (Reaches idle World.secure RegId.THM_THR_THROT 0 0) ∧ ((idle.dev ≠ Dev.off) ∧
    (idle.dev ≠ Dev.reset) ∧ ((List.replicate 24 (some 65024#16)).getD 23 none = some 65024#16) ∧ (-512 ≤ -512) ∧ (-512 ≤ 1280) ∧
    (bit (idle.get R.THM_FAIL_MASK) 23 = false) ∧ ((List.replicate 24 (some 1280#16)).getD 0 none = some 1280#16) ∧ (1280 ≤ 1280) ∧
    (bit (idle.get R.THM_FAIL_MASK) 0 = false) ∧
    (([] : List (Option (BitVec 16))).getD 23 none = none ∨ bit (idle.get R.THM_FAIL_MASK) 23 = true) ∧
    ((throttled true true).on R.THM_STATUS_THROT = true) ∧ ((throttled true true).thm.hot = true) ∧
    ((throttled true false).on R.THM_STATUS_THROT = true) ∧ ((throttled true false).thm.hot = false) ∧
    ((throttled false false).on R.THM_STATUS_THROT = false) ∧ ((measuring.set R.THM_SNS_VALID 1 22).on R.THM_SNS_FAILED 22 = false) ∧
    ((measuring.set R.THM_SNS_VALID 1 22).on R.MFE_STATUS_REF_RDY = true) ∧
    ((measuring.set R.THM_SNS_VALID 1 22).on R.THM_SNS_VALID 22 = true) ∧ (measuring.on R.THM_SNS_FAILED 22 = false) ∧
    (measuring.on R.MFE_STATUS_REF_RDY = false ∨ measuring.on R.THM_SNS_VALID 22 = false) ∧
    ((measuring.set R.THM_SNS_FAILED 1 22).on R.THM_SNS_FAILED 22 = true) ∧
    ((measuring.set R.THM_SNS_FAILED 1 22).on R.THM_TRIM_HOLD = false) ∧
    (640 ≤ toSigned 16 (bits 800 0 16) ∧ toSigned 16 (bits 800 0 16) ≤ 800) ∧
    (640 ≤ toSigned 16 (bits 640 0 16) ∧ toSigned 16 (bits 640 0 16) ≤ 800)) ∧
    ((toSigned 16 (bits 801 0 16) < 640 ∨ 800 < toSigned 16 (bits 801 0 16)) ∧ (720 ≤ toSigned 16 (bits 840 0 16)) ∧
    (toSigned 16 (bits 840 0 16) ≤ 840) ∧ (idle.getS R.THM_THR_WARN_LEVEL ≤ toSigned 16 (bits 840 0 16)) ∧
    (bit (idle.set R.THM_RO_CTRL_EN 1).thm.ro 7 = true) ∧ ((idle.set R.THM_RO_CTRL_EN 1).on R.THM_RO_CTRL_EN = true)) :=
  ⟨reaches_secure (by decide +kernel), reaches_secure (by decide +kernel), by decide +kernel, by decide +kernel⟩

theorem witness_thermal_shutdown :
    (overheated.on R.THM_STATUS_TRIP = false) ∧
    (overheated.validAbove (overheated.getS R.THM_THR_SHUT_LEVEL) = true ∧ 3 ≤ overheated.thm.shut ∨ 12 ≤ overheated.get R.THM_FAIL_COUNT)
      ∧ (∀ (n : Nat), n < 8 → overheated.stBusy n = false) ∧ ((overheated.ring 0).run = none) ∧ ((overheated.ring 1).run = none) ∧
    (overheated.held = false) ∧ ((idle.set R.SMC_DEV_STATE_STATE Dev.thermalLatch).dev = Dev.thermalLatch) ∧
    (Instr.porAssert ≠ Instr.vcoreRemoved) ∧ ((idle.set R.THM_FAIL_COUNT 12).on R.THM_STATUS_TRIP = false) ∧
    ((idle.set R.THM_FAIL_COUNT 12).validAbove ((idle.set R.THM_FAIL_COUNT 12).getS R.THM_THR_SHUT_LEVEL) = true ∧ 3 ≤ (idle.set
      R.THM_FAIL_COUNT 12).thm.shut ∨ 12 ≤ (idle.set R.THM_FAIL_COUNT 12).get R.THM_FAIL_COUNT) ∧
    (∀ (n : Nat), n < 8 → (idle.set R.THM_FAIL_COUNT 12).stBusy n = false) ∧ (((idle.set R.THM_FAIL_COUNT 12).ring 0).run = none) ∧
    (((idle.set R.THM_FAIL_COUNT 12).ring 1).run = none) ∧ ((idle.set R.THM_FAIL_COUNT 12).held = false) ∧
    (idle.validAbove (idle.getS R.THM_THR_SHUT_LEVEL) = false) ∧ (idle.get R.THM_FAIL_COUNT < 12) := by decide +kernel

theorem witness_resets_keep_only :
    ((idle.set R.SMC_DEV_STATE_STATE Dev.reset).dev = Dev.reset) ∧ (resetDue.smc.resetDue = true) ∧ (resetDue.dev ≠ Dev.thermalLatch) := by decide +kernel

theorem witness_boot_stages :
    (romStage.dev = Dev.cabinetBoot ∨ romStage.dev = Dev.fault) ∧ (romStage.get R.SMC_BOOT_STATUS_STEP = 1) ∧
    (fwCheck (object 1 5 1) 1 (romStage.get R.SMC_FW_SVN_CAB) = none) ∧
    (fwCheck forged 1 (romStage.get R.SMC_FW_SVN_CAB) = some Status.integrity) ∧
    ((romStage.set R.SMC_FW_SVN_CAB 6).dev = Dev.cabinetBoot ∨ (romStage.set R.SMC_FW_SVN_CAB 6).dev = Dev.fault) ∧
    ((romStage.set R.SMC_FW_SVN_CAB 6).get R.SMC_BOOT_STATUS_STEP = 1) ∧
    (fwCheck forged 1 ((romStage.set R.SMC_FW_SVN_CAB 6).get R.SMC_FW_SVN_CAB) = some Status.integrity) ∧
    (fwCheck (object 1 5 1) 1 ((romStage.set R.SMC_FW_SVN_CAB 6).get R.SMC_FW_SVN_CAB) = some Status.version) ∧
    (vcoreStage.pace.waits.contains VWait.boot = true) ∧ (trainStage.smc.hbmRun = true) ∧ (15 = 15) ∧ (trainStage.smc.wbOk = true) ∧
    (trainStage.get R.SMC_BOOT_STATUS_STEP = 4) ∧ (trainStage.dev = Dev.bare) ∧ (14 ≠ 15) ∧ (wbStage.smc.wbRun = true) ∧
    ((fwCheck (object 2 5 1) 2 (wbStage.get R.SMC_FW_SVN_WB)).or ((object 2 5 1).ifaceCheck [1, 2]) = none) ∧
    (wbStage.wbTested (object 2 5 1) = true) ∧ ((wbStage.set R.SMC_POLICY_ALLOW_UNTESTED 1).smc.wbRun = true) ∧
    ((fwCheck (object 2 5 65536) 2 ((wbStage.set R.SMC_POLICY_ALLOW_UNTESTED 1).get R.SMC_FW_SVN_WB)).or ((object 2 5 65536).ifaceCheck
      [1, 2]) = none) ∧ ((wbStage.set R.SMC_POLICY_ALLOW_UNTESTED 1).wbTested (object 2 5 65536) = false) ∧
    ((wbStage.set R.SMC_POLICY_ALLOW_UNTESTED 1).on R.SMC_POLICY_ALLOW_UNTESTED = true) ∧
    ((fwCheck forged 2 (wbStage.get R.SMC_FW_SVN_WB)).or (forged.ifaceCheck [1, 2]) = some Status.integrity) := by decide +kernel

theorem witness_pads_and_clocks :
    (Reaches (axis1 Ax.still) World.secure RegId.SMC_PAD_SLEW 0 0) ∧ ((∃ p, p ∈ (axis1 Ax.still).padChecks ∧ p.snd = some Status.state) ∧
    (3 < 4) ∧ (4 = 4) ∧ (5 = 5)) :=
  ⟨reaches_secure (by decide +kernel), by decide +kernel⟩

theorem witness_mailbox_rings :
    (Reaches idle World.secure RegId.SMC_MB_CMD_TAIL 1 0) ∧ (Reaches (waits idle 0 1 []) World.secure RegId.SMC_MB_CMD_TAIL 0 0) ∧
    (Reaches (noRoom idle) World.secure RegId.SMC_MB_RSP_HEAD 0 0) ∧ (Reaches idle World.secure RegId.SMC_MB_RSP_HEAD 0 0) ∧
    ((idle.mbHeld 1 ≤ (R.SMC_MB_CMD_TAIL_TAIL.of 127 + 128 - idle.mbHead 1) % 128) ∧
    ((R.SMC_MB_CMD_TAIL_TAIL.of 0 + 128 - (waits idle 0 1 []).mbHead 0) % 128 < (waits idle 0 1 []).mbHeld 0) ∧
    ((wrote (noRoom idle) World.secure RegId.SMC_MB_RSP_HEAD 0 0 0).mbRoom 0 = true) ∧
    ((wrote idle World.secure RegId.SMC_MB_RSP_HEAD 0 0 1).mbRoom 0 = false) ∧ ((noRoom (waits idle 0 1 [])).mbReady 0 = true) ∧
    ((noRoom (waits idle 0 1 [])).opAt 0 ((noRoom (waits idle 0 1 [])).mbHead 0) = Op.devInfo) ∧
    ((noRoom (waits idle 0 1 [])).extAt 0 ((noRoom (waits idle 0 1 [])).mbHead 0) = 0) ∧
    ((noRoom (waits idle 0 1 [])).mbRoom 0 = false)) :=
  ⟨reaches_secure (by decide +kernel), reaches_secure (by decide +kernel), reaches_secure (by decide +kernel),
  reaches_secure (by decide +kernel), by decide +kernel⟩

theorem witness_malformed_commands :
    (((mail idle 1 (cmd 33 3 [])).set R.SMC_MB_CMD_TAIL_TAIL 1 1).mbReady 1 = true) ∧
    (((mail idle 1 (cmd 33 3 [])).set R.SMC_MB_CMD_TAIL_TAIL 1 1).mbRoom 1 = true) ∧
    (((mail idle 1 (cmd 33 3 [])).set R.SMC_MB_CMD_TAIL_TAIL 1 1).mbHeld 1 < 1 + ((mail idle 1 (cmd 33 3 [])).set R.SMC_MB_CMD_TAIL_TAIL 1
      1).extAt 1 (((mail idle 1 (cmd 33 3 [])).set R.SMC_MB_CMD_TAIL_TAIL 1 1).mbHead 1)) ∧
    ((mail idle 1 (cmd 33 2 [])).mbReady 1 = true) ∧ ((mail idle 1 (cmd 33 2 [])).mbRoom 1 = true) ∧
    (1 + (mail idle 1 (cmd 33 2 [])).extAt 1 ((mail idle 1 (cmd 33 2 [])).mbHead 1) ≤ (mail idle 1 (cmd 33 2 [])).mbHeld 1) ∧
    (opExt ((mail idle 1 (cmd 33 2 [])).opAt 1 ((mail idle 1 (cmd 33 2 [])).mbHead 1)) = some 3) ∧
    (3 ≠ (mail idle 1 (cmd 33 2 [])).extAt 1 ((mail idle 1 (cmd 33 2 [])).mbHead 1)) ∧ ((mail idle 0 (cmd 153 0 [])).mbReady 0 = true) ∧
    ((mail idle 0 (cmd 153 0 [])).mbRoom 0 = true) ∧
    (1 + (mail idle 0 (cmd 153 0 [])).extAt 0 ((mail idle 0 (cmd 153 0 [])).mbHead 0) ≤ (mail idle 0 (cmd 153 0 [])).mbHeld 0) ∧
    (opExt ((mail idle 0 (cmd 153 0 [])).opAt 0 ((mail idle 0 (cmd 153 0 [])).mbHead 0)) = none) ∧
    ((mail idle 0 (cmd 153 0 [])).dev ≠ Dev.thermalLatch) ∧
    ((mail idle 0 (cmd 153 0 [])).dev = Dev.fault → (mail idle 0 (cmd 153 0 [])).get R.SMC_FAULT_CAUSE = 3 → 0 ≠ 0) ∧
    ((mail (idle.set R.SMC_DEV_STATE_STATE Dev.thermalLatch) 1 (cmd 153 0 [])).mbReady 1 = true) ∧
    ((mail (idle.set R.SMC_DEV_STATE_STATE Dev.thermalLatch) 1 (cmd 153 0 [])).mbRoom 1 = true) ∧
    (1 + (mail (idle.set R.SMC_DEV_STATE_STATE Dev.thermalLatch) 1 (cmd 153 0 [])).extAt 1 ((mail (idle.set R.SMC_DEV_STATE_STATE
      Dev.thermalLatch) 1 (cmd 153 0 [])).mbHead 1) ≤ (mail (idle.set R.SMC_DEV_STATE_STATE Dev.thermalLatch) 1 (cmd 153 0 [])).mbHeld 1)
      ∧
    (opExt ((mail (idle.set R.SMC_DEV_STATE_STATE Dev.thermalLatch) 1 (cmd 153 0 [])).opAt 1 ((mail (idle.set R.SMC_DEV_STATE_STATE
      Dev.thermalLatch) 1 (cmd 153 0 [])).mbHead 1)) = none) ∧
    ((mail (idle.set R.SMC_DEV_STATE_STATE Dev.thermalLatch) 1 (cmd 153 0 [])).dev = Dev.thermalLatch ∨ (mail (idle.set
      R.SMC_DEV_STATE_STATE Dev.thermalLatch) 1 (cmd 153 0 [])).dev = Dev.fault ∧ (mail (idle.set R.SMC_DEV_STATE_STATE Dev.thermalLatch)
      1 (cmd 153 0 [])).get R.SMC_FAULT_CAUSE = 3 ∧ 1 = 0) ∧
    ((mail ((idle.set R.SMC_DEV_STATE_STATE Dev.fault).set R.SMC_FAULT_CAUSE 3) 0 (cmd 153 0 [])).mbReady 0 = true) ∧
    ((mail ((idle.set R.SMC_DEV_STATE_STATE Dev.fault).set R.SMC_FAULT_CAUSE 3) 0 (cmd 153 0 [])).mbRoom 0 = true) ∧
    (1 + (mail ((idle.set R.SMC_DEV_STATE_STATE Dev.fault).set R.SMC_FAULT_CAUSE 3) 0 (cmd 153 0 [])).extAt 0 ((mail ((idle.set
      R.SMC_DEV_STATE_STATE Dev.fault).set R.SMC_FAULT_CAUSE 3) 0 (cmd 153 0 [])).mbHead 0) ≤ (mail ((idle.set R.SMC_DEV_STATE_STATE
      Dev.fault).set R.SMC_FAULT_CAUSE 3) 0 (cmd 153 0 [])).mbHeld 0) ∧
    (opExt ((mail ((idle.set R.SMC_DEV_STATE_STATE Dev.fault).set R.SMC_FAULT_CAUSE 3) 0 (cmd 153 0 [])).opAt 0 ((mail ((idle.set
      R.SMC_DEV_STATE_STATE Dev.fault).set R.SMC_FAULT_CAUSE 3) 0 (cmd 153 0 [])).mbHead 0)) = none) ∧
    ((mail ((idle.set R.SMC_DEV_STATE_STATE Dev.fault).set R.SMC_FAULT_CAUSE 3) 0 (cmd 153 0 [])).dev = Dev.thermalLatch ∨ (mail
      ((idle.set R.SMC_DEV_STATE_STATE Dev.fault).set R.SMC_FAULT_CAUSE 3) 0 (cmd 153 0 [])).dev = Dev.fault ∧ (mail ((idle.set
      R.SMC_DEV_STATE_STATE Dev.fault).set R.SMC_FAULT_CAUSE 3) 0 (cmd 153 0 [])).get R.SMC_FAULT_CAUSE = 3 ∧ 0 = 0) := by decide +kernel

theorem witness_device_commands :
    (AtHead (waits idle 0 Op.devInfo []) 0 Op.devInfo) ∧ (AtHead clears 0 Op.faultClear) ∧
    (AtHead (waits idle 0 Op.faultClear []) 0 Op.faultClear) ∧ (AtHead (waits idle 1 Op.devReset []) 1 Op.devReset) ∧
    (AtHead (waits idle 1 Op.svnCommit [1]) 1 Op.svnCommit) ∧ (AtHead commitsWb 1 Op.svnCommit) ∧
    (AtHead commitsUnverified 1 Op.svnCommit) ∧ (AtHead (waits idle 1 Op.flashWrite []) 1 Op.flashWrite) ∧
    (AtHead flashLast 1 Op.flashWrite) ∧ (AtHead flashPast 1 Op.flashWrite) ∧
    ((clears.dev = Dev.fault ∧ clears.faultPersists true = false) ∧
    (¬((waits idle 0 Op.faultClear []).dev = Dev.fault ∧ (waits idle 0 Op.faultClear []).faultPersists true = false)) ∧
    ((waits idle 1 Op.svnCommit [1]).param 1 16 1 = 1) ∧ ((waits idle 1 Op.svnCommit [1]).on R.SMC_POLICY_UNV_CAB = false) ∧
    (commitsWb.param 1 16 1 = 2) ∧ (commitsWb.on R.SMC_POLICY_UNV_WB = false) ∧
    (commitsWb.get R.SMC_FW_STATUS_WB_STATE = 1 ∨ commitsWb.get R.SMC_FW_STATUS_WB_STATE = 4) ∧ (commitsUnverified.param 1 16 1 = 1) ∧
    (commitsUnverified.on R.SMC_POLICY_UNV_CAB = true) ∧ ((waits idle 1 Op.flashWrite []).param 1 32 4 = 0) ∧
    (flashLast.param 1 32 4 ≠ 0) ∧ (flashLast.flashCheck (flashLast.param 1 20 4) (flashLast.param 1 32 4) = none) ∧
    (flashPast.param 1 32 4 ≠ 0) ∧ (flashPast.smc.flashSize < flashPast.param 1 20 4 + flashPast.param 1 32 4) ∧
    (flashing.runningOp Op.flashWrite = some (1, { op := Op.flashWrite, tag := 5, data := [262144, 4] : Running })) ∧
    ((idle.set R.SMC_FW_STATUS_WB_STATE 4).get R.SMC_FW_STATUS_WB_STATE = 1 ∨ (idle.set R.SMC_FW_STATUS_WB_STATE 4).get
      R.SMC_FW_STATUS_WB_STATE = 4) ∧ (idle.held = false) ∧ ((idle.set R.SMC_DEV_STATE_STATE Dev.reset).held = true)) :=
  ⟨by unfold AtHead; decide +kernel, by unfold AtHead; decide +kernel, by unfold AtHead; decide +kernel, by unfold AtHead; decide +kernel,
  by unfold AtHead; decide +kernel, by unfold AtHead; decide +kernel, by unfold AtHead; decide +kernel, by unfold AtHead; decide +kernel,
  by unfold AtHead; decide +kernel, by unfold AtHead; decide +kernel, by decide +kernel⟩

theorem witness_enrolment_and_worlds :
    (AtHead enrolls 1 Op.ownerEnroll) ∧ (AtHead (mail idle 1 (cmd Op.ownerEnroll 3 [])) 1 Op.ownerEnroll) ∧
    (AtHead (waits idle 1 Op.worldSet [2, 1]) 1 Op.worldSet) ∧ (AtHead portsSecure 1 Op.worldSet) ∧ (AtHead portsPast 1 Op.worldSet) ∧
    ((enrolls.deviceKey 1 = true) ∧ (enrolls.get R.SMC_ID_CFG_OWNER = 0) ∧ (enrolls.dev = Dev.bare ∨ enrolls.dev = Dev.idle) ∧
    (enrolls.on R.SCU_IMG_STATUS_BUSY = false) ∧ ((mail idle 1 (cmd Op.ownerEnroll 3 [])).deviceKey 1 = true) ∧
    ((mail idle 1 (cmd Op.ownerEnroll 3 [])).get R.SMC_ID_CFG_OWNER = 0) ∧
    ((mail idle 1 (cmd Op.ownerEnroll 3 [])).dev = Dev.bare ∨ (mail idle 1 (cmd Op.ownerEnroll 3 [])).dev = Dev.idle) ∧
    ((mail idle 1 (cmd Op.ownerEnroll 3 [])).on R.SCU_IMG_STATUS_BUSY = false) ∧
    (enrolling.runningOp Op.ownerEnroll = some (1, { op := Op.ownerEnroll, tag := 5, data := [1, 9, 1] : Running })) ∧
    (true = true ∧ List.map (fun x => BitVec.toNat x) ([1] : List Byte) = List.drop
      ({ op := Op.ownerEnroll, tag := 5, data := [1, 9, 1] : Running }.data.headD 0) (List.drop 1
      { op := Op.ownerEnroll, tag := 5, data := [1, 9, 1] : Running }.data)) ∧
    (¬(true = true ∧ List.map (fun x => BitVec.toNat x) ([2] : List Byte) = List.drop
      ({ op := Op.ownerEnroll, tag := 5, data := [1, 9, 1] : Running }.data.headD 0) (List.drop 1
      { op := Op.ownerEnroll, tag := 5, data := [1, 9, 1] : Running }.data))) ∧
    ((linked.setHead 0
      { cap := (linked.head 0).cap, cands := (linked.head 0).cands, cand := (linked.head 0).cand, tried := (linked.head 0).tried, version := (linked.head 0).version, modeOk := (linked.head 0).modeOk, retry := (linked.head 0).retry, keepMode := (linked.head 0).keepMode, oldMode := (linked.head 0).oldMode, depth := (linked.head 0).depth, evCode := (linked.head 0).evCode, evValue := (linked.head 0).evValue, lines := (linked.head 0).lines, good := (linked.head 0).good, delivered := (linked.head 0).delivered, next := (linked.head 0).next, renew := (linked.head 0).renew, reads := (linked.head 0).reads, ask := (linked.head 0).ask, space := List.map (fun i => (256 + 4 * i, i)) (List.range 12) : Head }).portActive
      0 = true) ∧
    ((linked.setHead 0
      { cap := (linked.head 0).cap, cands := (linked.head 0).cands, cand := (linked.head 0).cand, tried := (linked.head 0).tried, version := (linked.head 0).version, modeOk := (linked.head 0).modeOk, retry := (linked.head 0).retry, keepMode := (linked.head 0).keepMode, oldMode := (linked.head 0).oldMode, depth := (linked.head 0).depth, evCode := (linked.head 0).evCode, evValue := (linked.head 0).evValue, lines := (linked.head 0).lines, good := (linked.head 0).good, delivered := (linked.head 0).delivered, next := (linked.head 0).next, renew := (linked.head 0).renew, reads := (linked.head 0).reads, ask := (linked.head 0).ask, space := List.map (fun i => (256 + 4 * i, i)) (List.range 12) : Head }).headDigest
      0 = some (List.flatMap (leBytes 4) (List.range 12))) ∧ (linked.portActive 0 = true) ∧ (linked.headDigest 0 = none) ∧
    (1 ≤ (waits idle 1 Op.worldSet [2, 1]).param 1 16 1) ∧ ((waits idle 1 Op.worldSet [2, 1]).param 1 16 1 ≤ 7) ∧
    ((waits idle 1 Op.worldSet [2, 1]).param 1 17 1 ≤ 1) ∧ ((waits idle 1 Op.worldSet [2, 1]).param 1 24 4 = 0) ∧
    (1 ≤ portsSecure.param 1 16 1) ∧ (portsSecure.param 1 16 1 ≤ 7) ∧ (portsSecure.param 1 17 1 ≤ 1) ∧ (portsSecure.param 1 24 4 ≠ 0) ∧
    (portsSecure.param 1 20 4 + portsSecure.param 1 24 4 ≤ targetCount (portsSecure.param 1 16 1))) ∧
    ((∀ (i : Nat), i < portsSecure.param 1 24 4 → portsSecure.targetInUse (portsSecure.param 1 16 1) (portsSecure.param 1 20 4 + i) =
      false) ∧ (¬(portsSecure.param 1 16 1 = 6 ∧ 32512 < portsSecure.param 1 20 4 + portsSecure.param 1 24 4)) ∧
    (1 ≤ portsPast.param 1 16 1) ∧ (portsPast.param 1 16 1 ≤ 7) ∧ (portsPast.param 1 17 1 ≤ 1) ∧ (portsPast.param 1 24 4 ≠ 0) ∧
    (targetCount (portsPast.param 1 16 1) < portsPast.param 1 20 4 + portsPast.param 1 24 4) ∧ (1 ≤ 7) ∧ (7 ≤ 7) ∧
    (4368 < targetCount 7) ∧ (0 < targetCount 7) ∧ (1 ≤ 1)) ∧
    (enrolledKek 1 (enrolls.cmdBytes 1 (enrolls.mbHead 1) 113 97) (enrolls.cmdBytes 1 (enrolls.mbHead 1) 210 40) = some (List.range 32)) ∧
    (enrolledKek 1 ((mail idle 1 (cmd Op.ownerEnroll 3 [])).cmdBytes 1 ((mail idle 1 (cmd Op.ownerEnroll 3 [])).mbHead 1) 113 97) ((mail
      idle 1 (cmd Op.ownerEnroll 3 [])).cmdBytes 1 ((mail idle 1 (cmd Op.ownerEnroll 3 [])).mbHead 1) 210 40) = none) :=
  ⟨by unfold AtHead; decide +kernel, by unfold AtHead; decide +kernel, by unfold AtHead; decide +kernel, by unfold AtHead; decide +kernel,
  by unfold AtHead; decide +kernel, by decide +kernel, by decide +kernel, by decide +kernel, by decide +kernel⟩

theorem witness_station_commands :
    (AtHead defines 0 Op.stDefine) ∧ (AtHead arms 0 Op.stArm) ∧ (AtHead (waits (station2 St.armed) 0 Op.stStart [2]) 0 Op.stStart) ∧
    (AtHead pauses 0 Op.stPause) ∧ (AtHead resumes 0 Op.stResume) ∧ (AtHead (waits (station2 St.armed) 0 Op.stDrain [2]) 0 Op.stDrain) ∧
    (AtHead drainFinal 0 Op.stDrain) ∧ (AtHead drainNow 0 Op.stDrain) ∧ (AtHead (waits bare2 0 Op.stAbort [2]) 0 Op.stAbort) ∧
    (AtHead abortFlushes 0 Op.stAbort) ∧ (AtHead stageCancel 0 Op.stStage) ∧ (AtHead stages 0 Op.stStage) ∧
    (AtHead (waits timed 0 Op.stQuery [2]) 0 Op.stQuery) ∧ ((defines.stBusy (defines.stParam 0) = false) ∧
    (∀ (p : Nat), p ∈ headsOf (defines.param 0 20 12) → ∀ (m : Nat), m < 8 → m ≠ defines.stParam 0 → ¬p ∈ (defines.station m).heads) ∧
    (6 ≤ defines.param 0 18 1) ∧ (defines.param 0 18 1 ≤ 16) ∧ (defines.param 0 17 1 ≤ 1) ∧
    (arms.armCheck (arms.stParam 0) false = none) ∧ (arms.armLink (arms.stParam 0) = none) ∧
    ((arms.admission (fun m => arms.counted m || decide (m = arms.stParam 0)) arms.lineRate arms.engLoads (Option.map (fun x => ↑x)
      none)).fst = true) ∧
    ((waits (station2 St.armed) 0 Op.stStart [2]).stState ((waits (station2 St.armed) 0 Op.stStart [2]).stParam 0) = St.armed) ∧
    ((waits (station2 St.armed) 0 Op.stStart [2]).ringStation ((waits (station2 St.armed) 0 Op.stStart [2]).stParam 0) = false) ∧
    (pauses.stState (pauses.stParam 0) = St.scanning) ∧ (pauses.isSheet (pauses.stParam 0) = true) ∧
    (resumes.stState (resumes.stParam 0) = St.paused ∨ resumes.stState (resumes.stParam 0) = St.rewinding) ∧
    (resumes.on R.SMC_ST_STATE_HOLD (resumes.stParam 0) = true) ∧
    (((waits (station2 St.armed) 0 Op.stDrain [2]).station ((waits (station2 St.armed) 0 Op.stDrain [2]).stParam 0)).axisDown = false) ∧
    ((waits (station2 St.armed) 0 Op.stDrain [2]).stState ((waits (station2 St.armed) 0 Op.stDrain [2]).stParam 0) = St.armed) ∧
    ((waits (station2 St.armed) 0 Op.stDrain [2]).param 0 24 6 = 0) ∧
    ((waits (station2 St.armed) 0 Op.stDrain [2]).ringStation ((waits (station2 St.armed) 0 Op.stDrain [2]).stParam 0) = false) ∧
    ((drainFinal.station (drainFinal.stParam 0)).axisDown = false) ∧ (drainFinal.stState (drainFinal.stParam 0) = St.scanning) ∧
    (drainFinal.get R.SST_ST_REW_STATUS_PHASE (drainFinal.stParam 0) = 0) ∧ (drainFinal.param 0 24 6 ≠ 0) ∧
    ((drainFinal.lst (drainFinal.stParam 0)).next ≤ drainFinal.param 0 24 6) ∧
    ((drainNow.station (drainNow.stParam 0)).axisDown = false)) ∧ ((drainNow.stState (drainNow.stParam 0) = St.scanning) ∧
    (drainNow.get R.SST_ST_REW_STATUS_PHASE (drainNow.stParam 0) = 0) ∧ (drainNow.param 0 24 6 = 0) ∧
    (drainNow.ringStation (drainNow.stParam 0) = false) ∧ (drainNow.lastCommitted (drainNow.stParam 0) = some 9) ∧
    ((waits bare2 0 Op.stAbort [2]).stBusy ((waits bare2 0 Op.stAbort [2]).stParam 0) = true) ∧
    (((waits bare2 0 Op.stAbort [2]).abortStation ((waits bare2 0 Op.stAbort [2]).stParam 0)).flushing ((waits bare2 0 Op.stAbort
      [2]).stationQueues ((waits bare2 0 Op.stAbort [2]).stParam 0)) = false) ∧ (abortFlushes.stBusy (abortFlushes.stParam 0) = true) ∧
    ((abortFlushes.abortStation (abortFlushes.stParam 0)).flushing (abortFlushes.stationQueues (abortFlushes.stParam 0)) = true) ∧
    (stageCancel.stBusy (stageCancel.stParam 0) = true) ∧ (stageCancel.stState (stageCancel.stParam 0) ≠ St.draining) ∧
    (bit (stageCancel.param 0 17 1) 0 = true) ∧ ((stageCancel.station (stageCancel.stParam 0)).staged.isSome = true) ∧
    (stages.stBusy (stages.stParam 0) = true) ∧ (stages.stState (stages.stParam 0) ≠ St.draining) ∧
    (bit (stages.param 0 17 1) 0 = false) ∧ ((stages.stageParam 0).mask ≠ 0) ∧
    (stages.stageCheck (stages.stParam 0) (stages.stageParam 0) = none) ∧
    (((stages.stageParam 0).apply (stages.ltuVals (stages.stParam 0))).getD 6 0 ≤ stages.get R.LTU_ST_MAXRATE_RATE (stages.stParam 0))) :=
  ⟨by unfold AtHead; decide +kernel, by unfold AtHead; decide +kernel, by unfold AtHead; decide +kernel, by unfold AtHead; decide +kernel,
  by unfold AtHead; decide +kernel, by unfold AtHead; decide +kernel, by unfold AtHead; decide +kernel, by unfold AtHead; decide +kernel,
  by unfold AtHead; decide +kernel, by unfold AtHead; decide +kernel, by unfold AtHead; decide +kernel, by unfold AtHead; decide +kernel,
  by unfold AtHead; decide +kernel, by decide +kernel, by decide +kernel⟩

theorem witness_illegal_station_commands :
    (AtHead (waits timed 0 Op.stDefine [2, 1, 6]) 0 Op.stDefine) ∧ (AtHead (waits timed 0 Op.stArm [2]) 0 Op.stArm) ∧
    (∀ (c : Status) (a : Nat), (waits timed 0 Op.stArm [2]).armCheck ((waits timed 0 Op.stArm [2]).stParam 0) false = some (c, a) → c ≠
      Status.length ∧ c ≠ Status.world) ∧ (AtHead (waits timed 0 Op.stStart [2]) 0 Op.stStart) ∧
    (AtHead (waits ringArmed 0 Op.stStart [2]) 0 Op.stStart) ∧ (AtHead (waits idle 0 Op.stPause [2]) 0 Op.stPause) ∧
    (AtHead (waits timed 0 Op.stResume [2]) 0 Op.stResume) ∧ (AtHead (waits idle 0 Op.stStage [7]) 0 Op.stStage) ∧
    (AtHead (waits idle 0 Op.stDrain [0]) 0 Op.stDrain) ∧ (AtHead (waits (restarting St.rewinding 5) 0 Op.stDrain [2]) 0 Op.stDrain) ∧
    (AtHead (waits idle 0 Op.stAbort [2]) 0 Op.stAbort) ∧
    (∀ (c : Status) (a : Nat), (waits (idle.set R.SMC_DEV_STATE_STATE Dev.bare) 1 Op.stArm [2]).armCheck ((waits (idle.set
      R.SMC_DEV_STATE_STATE Dev.bare) 1 Op.stArm [2]).stParam 1) false = some (c, a) → c ≠ Status.length ∧ c ≠ Status.world) ∧
    (((waits timed 0 Op.stDefine [2, 1, 6]).stState ((waits timed 0 Op.stDefine [2, 1, 6]).stParam 0) ≠ St.idle) ∧
    ((waits timed 0 Op.stArm [2]).stState ((waits timed 0 Op.stArm [2]).stParam 0) ≠ St.idle) ∧
    ((waits timed 0 Op.stStart [2]).stState ((waits timed 0 Op.stStart [2]).stParam 0) ≠ St.armed ∨ (waits timed 0 Op.stStart
      [2]).ringStation ((waits timed 0 Op.stStart [2]).stParam 0) = true) ∧
    ((waits ringArmed 0 Op.stStart [2]).stState ((waits ringArmed 0 Op.stStart [2]).stParam 0) ≠ St.armed ∨ (waits ringArmed 0 Op.stStart
      [2]).ringStation ((waits ringArmed 0 Op.stStart [2]).stParam 0) = true) ∧
    ((waits idle 0 Op.stPause [2]).stState ((waits idle 0 Op.stPause [2]).stParam 0) ≠ St.scanning ∨ ((waits idle 0 Op.stPause
      [2]).station ((waits idle 0 Op.stPause [2]).stParam 0)).axisDown = true) ∧
    ((waits timed 0 Op.stResume [2]).stState ((waits timed 0 Op.stResume [2]).stParam 0) ≠ St.paused ∧ (waits timed 0 Op.stResume
      [2]).stState ((waits timed 0 Op.stResume [2]).stParam 0) ≠ St.rewinding ∨ (waits timed 0 Op.stResume [2]).on R.SMC_ST_STATE_HOLD
      ((waits timed 0 Op.stResume [2]).stParam 0) = false) ∧
    ((waits idle 0 Op.stStage [7]).stState ((waits idle 0 Op.stStage [7]).stParam 0) = St.idle ∨ (waits idle 0 Op.stStage [7]).stState
      ((waits idle 0 Op.stStage [7]).stParam 0) = St.draining) ∧
    ((waits idle 0 Op.stDrain [0]).stState ((waits idle 0 Op.stDrain [0]).stParam 0) = St.idle ∨ (waits idle 0 Op.stDrain [0]).stState
      ((waits idle 0 Op.stDrain [0]).stParam 0) = St.draining ∨ ((waits idle 0 Op.stDrain [0]).stState ((waits idle 0 Op.stDrain
      [0]).stParam 0) = St.paused ∨ (waits idle 0 Op.stDrain [0]).stState ((waits idle 0 Op.stDrain [0]).stParam 0) = St.rewinding) ∧
      ((waits idle 0 Op.stDrain [0]).get R.SST_ST_REW_STATUS_PHASE ((waits idle 0 Op.stDrain [0]).stParam 0) = 0 ∨ 5 ≤ (waits idle 0
      Op.stDrain [0]).get R.SST_ST_REW_STATUS_PHASE ((waits idle 0 Op.stDrain [0]).stParam 0)) ∨ ((waits idle 0 Op.stDrain [0]).station
      ((waits idle 0 Op.stDrain [0]).stParam 0)).axisDown = true) ∧
    ((waits (restarting St.rewinding 5) 0 Op.stDrain [2]).stState ((waits (restarting St.rewinding 5) 0 Op.stDrain [2]).stParam 0) =
      St.idle ∨ (waits (restarting St.rewinding 5) 0 Op.stDrain [2]).stState ((waits (restarting St.rewinding 5) 0 Op.stDrain [2]).stParam
      0) = St.draining ∨ ((waits (restarting St.rewinding 5) 0 Op.stDrain [2]).stState ((waits (restarting St.rewinding 5) 0 Op.stDrain
      [2]).stParam 0) = St.paused ∨ (waits (restarting St.rewinding 5) 0 Op.stDrain [2]).stState ((waits (restarting St.rewinding 5) 0
      Op.stDrain [2]).stParam 0) = St.rewinding) ∧ ((waits (restarting St.rewinding 5) 0 Op.stDrain [2]).get R.SST_ST_REW_STATUS_PHASE
      ((waits (restarting St.rewinding 5) 0 Op.stDrain [2]).stParam 0) = 0 ∨ 5 ≤ (waits (restarting St.rewinding 5) 0 Op.stDrain [2]).get
      R.SST_ST_REW_STATUS_PHASE ((waits (restarting St.rewinding 5) 0 Op.stDrain [2]).stParam 0)) ∨ ((waits (restarting St.rewinding 5) 0
      Op.stDrain [2]).station ((waits (restarting St.rewinding 5) 0 Op.stDrain [2]).stParam 0)).axisDown = true) ∧
    ((waits idle 0 Op.stAbort [2]).stState ((waits idle 0 Op.stAbort [2]).stParam 0) = St.idle) ∧
    ((waits (idle.set R.SMC_DEV_STATE_STATE Dev.fault) 0 Op.stDefine [2, 1, 6]).dev < Dev.idle ∨ Dev.fault ≤ (waits (idle.set
      R.SMC_DEV_STATE_STATE Dev.fault) 0 Op.stDefine [2, 1, 6]).dev) ∧
    ((waits (idle.set R.SMC_DEV_STATE_STATE Dev.fault) 0 Op.stDefine [2, 1, 6]).dev = Dev.fault → (waits (idle.set R.SMC_DEV_STATE_STATE
      Dev.fault) 0 Op.stDefine [2, 1, 6]).get R.SMC_FAULT_CAUSE = 3 → 0 = 1) ∧
    (0 = 1 ∨ 8 ≤ (waits (idle.set R.SMC_DEV_STATE_STATE Dev.fault) 0 Op.stDefine [2, 1, 6]).param 0 16 1 ∨ (waits (idle.set
      R.SMC_DEV_STATE_STATE Dev.fault) 0 Op.stDefine [2, 1, 6]).stationWorld ((waits (idle.set R.SMC_DEV_STATE_STATE Dev.fault) 0
      Op.stDefine [2, 1, 6]).param 0 16 1) ≠ World.secure) ∧
    ((waits (idle.set R.SMC_DEV_STATE_STATE Dev.fault) 0 Op.stDefine [2, 1, 6]).mbReady 0 = true ∧ (waits (idle.set R.SMC_DEV_STATE_STATE
      Dev.fault) 0 Op.stDefine [2, 1, 6]).opAt 0 ((waits (idle.set R.SMC_DEV_STATE_STATE Dev.fault) 0 Op.stDefine [2, 1, 6]).mbHead 0) =
      Op.stDefine ∧ opExt Op.stDefine = some ((waits (idle.set R.SMC_DEV_STATE_STATE Dev.fault) 0 Op.stDefine [2, 1, 6]).extAt 0 ((waits
      (idle.set R.SMC_DEV_STATE_STATE Dev.fault) 0 Op.stDefine [2, 1, 6]).mbHead 0)) ∧ (waits (idle.set R.SMC_DEV_STATE_STATE Dev.fault) 0
      Op.stDefine [2, 1, 6]).extAt 0 ((waits (idle.set R.SMC_DEV_STATE_STATE Dev.fault) 0 Op.stDefine [2, 1, 6]).mbHead 0) < (waits
      (idle.set R.SMC_DEV_STATE_STATE Dev.fault) 0 Op.stDefine [2, 1, 6]).mbHeld 0 ∧ (waits (idle.set R.SMC_DEV_STATE_STATE Dev.fault) 0
      Op.stDefine [2, 1, 6]).mbRoom 0 = true)) ∧
    (((waits (idle.set R.SMC_DEV_STATE_STATE Dev.bare) 1 Op.stArm [2]).dev < Dev.idle ∨ Dev.fault ≤ (waits (idle.set R.SMC_DEV_STATE_STATE
      Dev.bare) 1 Op.stArm [2]).dev) ∧
    ((waits (idle.set R.SMC_DEV_STATE_STATE Dev.bare) 1 Op.stArm [2]).dev = Dev.fault → (waits (idle.set R.SMC_DEV_STATE_STATE Dev.bare) 1
      Op.stArm [2]).get R.SMC_FAULT_CAUSE = 3 → 1 = 1) ∧
    (1 = 1 ∨ 8 ≤ (waits (idle.set R.SMC_DEV_STATE_STATE Dev.bare) 1 Op.stArm [2]).param 1 16 1 ∨ (waits (idle.set R.SMC_DEV_STATE_STATE
      Dev.bare) 1 Op.stArm [2]).stationWorld ((waits (idle.set R.SMC_DEV_STATE_STATE Dev.bare) 1 Op.stArm [2]).param 1 16 1) ≠
      World.secure) ∧
    ((waits (idle.set R.SMC_DEV_STATE_STATE Dev.bare) 1 Op.stArm [2]).mbReady 1 = true ∧ (waits (idle.set R.SMC_DEV_STATE_STATE Dev.bare)
      1 Op.stArm [2]).opAt 1 ((waits (idle.set R.SMC_DEV_STATE_STATE Dev.bare) 1 Op.stArm [2]).mbHead 1) = Op.stArm ∧ opExt Op.stArm =
      some ((waits (idle.set R.SMC_DEV_STATE_STATE Dev.bare) 1 Op.stArm [2]).extAt 1 ((waits (idle.set R.SMC_DEV_STATE_STATE Dev.bare) 1
      Op.stArm [2]).mbHead 1)) ∧ (waits (idle.set R.SMC_DEV_STATE_STATE Dev.bare) 1 Op.stArm [2]).extAt 1 ((waits (idle.set
      R.SMC_DEV_STATE_STATE Dev.bare) 1 Op.stArm [2]).mbHead 1) < (waits (idle.set R.SMC_DEV_STATE_STATE Dev.bare) 1 Op.stArm [2]).mbHeld
      1 ∧ (waits (idle.set R.SMC_DEV_STATE_STATE Dev.bare) 1 Op.stArm [2]).mbRoom 1 = true) ∧
    ((waits (idle.set R.SMC_DEV_STATE_STATE Dev.thermalLatch) 0 Op.stStart [2]).dev < Dev.idle ∨ Dev.fault ≤ (waits (idle.set
      R.SMC_DEV_STATE_STATE Dev.thermalLatch) 0 Op.stStart [2]).dev) ∧
    ((waits (idle.set R.SMC_DEV_STATE_STATE Dev.thermalLatch) 0 Op.stStart [2]).dev = Dev.fault → (waits (idle.set R.SMC_DEV_STATE_STATE
      Dev.thermalLatch) 0 Op.stStart [2]).get R.SMC_FAULT_CAUSE = 3 → 0 = 1) ∧
    (0 = 1 ∨ 8 ≤ (waits (idle.set R.SMC_DEV_STATE_STATE Dev.thermalLatch) 0 Op.stStart [2]).param 0 16 1 ∨ (waits (idle.set
      R.SMC_DEV_STATE_STATE Dev.thermalLatch) 0 Op.stStart [2]).stationWorld ((waits (idle.set R.SMC_DEV_STATE_STATE Dev.thermalLatch) 0
      Op.stStart [2]).param 0 16 1) ≠ World.secure) ∧
    ((waits (idle.set R.SMC_DEV_STATE_STATE Dev.thermalLatch) 0 Op.stStart [2]).mbReady 0 = true ∧ (waits (idle.set R.SMC_DEV_STATE_STATE
      Dev.thermalLatch) 0 Op.stStart [2]).opAt 0 ((waits (idle.set R.SMC_DEV_STATE_STATE Dev.thermalLatch) 0 Op.stStart [2]).mbHead 0) =
      Op.stStart ∧ opExt Op.stStart = some ((waits (idle.set R.SMC_DEV_STATE_STATE Dev.thermalLatch) 0 Op.stStart [2]).extAt 0 ((waits
      (idle.set R.SMC_DEV_STATE_STATE Dev.thermalLatch) 0 Op.stStart [2]).mbHead 0)) ∧ (waits (idle.set R.SMC_DEV_STATE_STATE
      Dev.thermalLatch) 0 Op.stStart [2]).extAt 0 ((waits (idle.set R.SMC_DEV_STATE_STATE Dev.thermalLatch) 0 Op.stStart [2]).mbHead 0) <
      (waits (idle.set R.SMC_DEV_STATE_STATE Dev.thermalLatch) 0 Op.stStart [2]).mbHeld 0 ∧ (waits (idle.set R.SMC_DEV_STATE_STATE
      Dev.thermalLatch) 0 Op.stStart [2]).mbRoom 0 = true) ∧
    ((waits (idle.set R.SMC_DEV_STATE_STATE Dev.fault) 0 Op.stPause [2]).dev < Dev.idle ∨ Dev.fault ≤ (waits (idle.set
      R.SMC_DEV_STATE_STATE Dev.fault) 0 Op.stPause [2]).dev) ∧
    ((waits (idle.set R.SMC_DEV_STATE_STATE Dev.fault) 0 Op.stPause [2]).dev = Dev.fault → (waits (idle.set R.SMC_DEV_STATE_STATE
      Dev.fault) 0 Op.stPause [2]).get R.SMC_FAULT_CAUSE = 3 → 0 = 1) ∧
    (0 = 1 ∨ 8 ≤ (waits (idle.set R.SMC_DEV_STATE_STATE Dev.fault) 0 Op.stPause [2]).param 0 16 1 ∨ (waits (idle.set R.SMC_DEV_STATE_STATE
      Dev.fault) 0 Op.stPause [2]).stationWorld ((waits (idle.set R.SMC_DEV_STATE_STATE Dev.fault) 0 Op.stPause [2]).param 0 16 1) ≠
      World.secure) ∧
    ((waits (idle.set R.SMC_DEV_STATE_STATE Dev.fault) 0 Op.stPause [2]).mbReady 0 = true ∧ (waits (idle.set R.SMC_DEV_STATE_STATE
      Dev.fault) 0 Op.stPause [2]).opAt 0 ((waits (idle.set R.SMC_DEV_STATE_STATE Dev.fault) 0 Op.stPause [2]).mbHead 0) = Op.stPause ∧
      opExt Op.stPause = some ((waits (idle.set R.SMC_DEV_STATE_STATE Dev.fault) 0 Op.stPause [2]).extAt 0 ((waits (idle.set
      R.SMC_DEV_STATE_STATE Dev.fault) 0 Op.stPause [2]).mbHead 0)) ∧ (waits (idle.set R.SMC_DEV_STATE_STATE Dev.fault) 0 Op.stPause
      [2]).extAt 0 ((waits (idle.set R.SMC_DEV_STATE_STATE Dev.fault) 0 Op.stPause [2]).mbHead 0) < (waits (idle.set R.SMC_DEV_STATE_STATE
      Dev.fault) 0 Op.stPause [2]).mbHeld 0 ∧ (waits (idle.set R.SMC_DEV_STATE_STATE Dev.fault) 0 Op.stPause [2]).mbRoom 0 = true) ∧
    ((waits (idle.set R.SMC_DEV_STATE_STATE Dev.bare) 1 Op.stResume [2]).dev < Dev.idle ∨ Dev.fault ≤ (waits (idle.set
      R.SMC_DEV_STATE_STATE Dev.bare) 1 Op.stResume [2]).dev) ∧
    ((waits (idle.set R.SMC_DEV_STATE_STATE Dev.bare) 1 Op.stResume [2]).dev = Dev.fault → (waits (idle.set R.SMC_DEV_STATE_STATE
      Dev.bare) 1 Op.stResume [2]).get R.SMC_FAULT_CAUSE = 3 → 1 = 1)) ∧
    ((1 = 1 ∨ 8 ≤ (waits (idle.set R.SMC_DEV_STATE_STATE Dev.bare) 1 Op.stResume [2]).param 1 16 1 ∨ (waits (idle.set
      R.SMC_DEV_STATE_STATE Dev.bare) 1 Op.stResume [2]).stationWorld ((waits (idle.set R.SMC_DEV_STATE_STATE Dev.bare) 1 Op.stResume
      [2]).param 1 16 1) ≠ World.secure) ∧
    ((waits (idle.set R.SMC_DEV_STATE_STATE Dev.bare) 1 Op.stResume [2]).mbReady 1 = true ∧ (waits (idle.set R.SMC_DEV_STATE_STATE
      Dev.bare) 1 Op.stResume [2]).opAt 1 ((waits (idle.set R.SMC_DEV_STATE_STATE Dev.bare) 1 Op.stResume [2]).mbHead 1) = Op.stResume ∧
      opExt Op.stResume = some ((waits (idle.set R.SMC_DEV_STATE_STATE Dev.bare) 1 Op.stResume [2]).extAt 1 ((waits (idle.set
      R.SMC_DEV_STATE_STATE Dev.bare) 1 Op.stResume [2]).mbHead 1)) ∧ (waits (idle.set R.SMC_DEV_STATE_STATE Dev.bare) 1 Op.stResume
      [2]).extAt 1 ((waits (idle.set R.SMC_DEV_STATE_STATE Dev.bare) 1 Op.stResume [2]).mbHead 1) < (waits (idle.set R.SMC_DEV_STATE_STATE
      Dev.bare) 1 Op.stResume [2]).mbHeld 1 ∧ (waits (idle.set R.SMC_DEV_STATE_STATE Dev.bare) 1 Op.stResume [2]).mbRoom 1 = true) ∧
    ((waits (idle.set R.SMC_DEV_STATE_STATE Dev.thermalLatch) 0 Op.stDrain [2]).dev < Dev.idle ∨ Dev.fault ≤ (waits (idle.set
      R.SMC_DEV_STATE_STATE Dev.thermalLatch) 0 Op.stDrain [2]).dev) ∧
    ((waits (idle.set R.SMC_DEV_STATE_STATE Dev.thermalLatch) 0 Op.stDrain [2]).dev = Dev.fault → (waits (idle.set R.SMC_DEV_STATE_STATE
      Dev.thermalLatch) 0 Op.stDrain [2]).get R.SMC_FAULT_CAUSE = 3 → 0 = 1) ∧
    (0 = 1 ∨ 8 ≤ (waits (idle.set R.SMC_DEV_STATE_STATE Dev.thermalLatch) 0 Op.stDrain [2]).param 0 16 1 ∨ (waits (idle.set
      R.SMC_DEV_STATE_STATE Dev.thermalLatch) 0 Op.stDrain [2]).stationWorld ((waits (idle.set R.SMC_DEV_STATE_STATE Dev.thermalLatch) 0
      Op.stDrain [2]).param 0 16 1) ≠ World.secure) ∧
    ((waits (idle.set R.SMC_DEV_STATE_STATE Dev.thermalLatch) 0 Op.stDrain [2]).mbReady 0 = true ∧ (waits (idle.set R.SMC_DEV_STATE_STATE
      Dev.thermalLatch) 0 Op.stDrain [2]).opAt 0 ((waits (idle.set R.SMC_DEV_STATE_STATE Dev.thermalLatch) 0 Op.stDrain [2]).mbHead 0) =
      Op.stDrain ∧ opExt Op.stDrain = some ((waits (idle.set R.SMC_DEV_STATE_STATE Dev.thermalLatch) 0 Op.stDrain [2]).extAt 0 ((waits
      (idle.set R.SMC_DEV_STATE_STATE Dev.thermalLatch) 0 Op.stDrain [2]).mbHead 0)) ∧ (waits (idle.set R.SMC_DEV_STATE_STATE
      Dev.thermalLatch) 0 Op.stDrain [2]).extAt 0 ((waits (idle.set R.SMC_DEV_STATE_STATE Dev.thermalLatch) 0 Op.stDrain [2]).mbHead 0) <
      (waits (idle.set R.SMC_DEV_STATE_STATE Dev.thermalLatch) 0 Op.stDrain [2]).mbHeld 0 ∧ (waits (idle.set R.SMC_DEV_STATE_STATE
      Dev.thermalLatch) 0 Op.stDrain [2]).mbRoom 0 = true) ∧
    ((waits (idle.set R.SMC_DEV_STATE_STATE Dev.fault) 0 Op.stStage [2]).dev < Dev.idle ∨ Dev.fault ≤ (waits (idle.set
      R.SMC_DEV_STATE_STATE Dev.fault) 0 Op.stStage [2]).dev) ∧
    ((waits (idle.set R.SMC_DEV_STATE_STATE Dev.fault) 0 Op.stStage [2]).dev = Dev.fault → (waits (idle.set R.SMC_DEV_STATE_STATE
      Dev.fault) 0 Op.stStage [2]).get R.SMC_FAULT_CAUSE = 3 → 0 = 1) ∧
    (0 = 1 ∨ 8 ≤ (waits (idle.set R.SMC_DEV_STATE_STATE Dev.fault) 0 Op.stStage [2]).param 0 16 1 ∨ (waits (idle.set R.SMC_DEV_STATE_STATE
      Dev.fault) 0 Op.stStage [2]).stationWorld ((waits (idle.set R.SMC_DEV_STATE_STATE Dev.fault) 0 Op.stStage [2]).param 0 16 1) ≠
      World.secure) ∧
    ((waits (idle.set R.SMC_DEV_STATE_STATE Dev.fault) 0 Op.stStage [2]).mbReady 0 = true ∧ (waits (idle.set R.SMC_DEV_STATE_STATE
      Dev.fault) 0 Op.stStage [2]).opAt 0 ((waits (idle.set R.SMC_DEV_STATE_STATE Dev.fault) 0 Op.stStage [2]).mbHead 0) = Op.stStage ∧
      opExt Op.stStage = some ((waits (idle.set R.SMC_DEV_STATE_STATE Dev.fault) 0 Op.stStage [2]).extAt 0 ((waits (idle.set
      R.SMC_DEV_STATE_STATE Dev.fault) 0 Op.stStage [2]).mbHead 0)) ∧ (waits (idle.set R.SMC_DEV_STATE_STATE Dev.fault) 0 Op.stStage
      [2]).extAt 0 ((waits (idle.set R.SMC_DEV_STATE_STATE Dev.fault) 0 Op.stStage [2]).mbHead 0) < (waits (idle.set R.SMC_DEV_STATE_STATE
      Dev.fault) 0 Op.stStage [2]).mbHeld 0 ∧ (waits (idle.set R.SMC_DEV_STATE_STATE Dev.fault) 0 Op.stStage [2]).mbRoom 0 = true) ∧
    ((waits (idle.set R.SMC_DEV_STATE_STATE Dev.bare) 1 Op.stAbort [2]).dev < Dev.idle ∨ Dev.fault ≤ (waits (idle.set
      R.SMC_DEV_STATE_STATE Dev.bare) 1 Op.stAbort [2]).dev) ∧
    ((waits (idle.set R.SMC_DEV_STATE_STATE Dev.bare) 1 Op.stAbort [2]).dev = Dev.fault → (waits (idle.set R.SMC_DEV_STATE_STATE Dev.bare)
      1 Op.stAbort [2]).get R.SMC_FAULT_CAUSE = 3 → 1 = 1) ∧
    (1 = 1 ∨ 8 ≤ (waits (idle.set R.SMC_DEV_STATE_STATE Dev.bare) 1 Op.stAbort [2]).param 1 16 1 ∨ (waits (idle.set R.SMC_DEV_STATE_STATE
      Dev.bare) 1 Op.stAbort [2]).stationWorld ((waits (idle.set R.SMC_DEV_STATE_STATE Dev.bare) 1 Op.stAbort [2]).param 1 16 1) ≠
      World.secure) ∧
    ((waits (idle.set R.SMC_DEV_STATE_STATE Dev.bare) 1 Op.stAbort [2]).mbReady 1 = true ∧ (waits (idle.set R.SMC_DEV_STATE_STATE
      Dev.bare) 1 Op.stAbort [2]).opAt 1 ((waits (idle.set R.SMC_DEV_STATE_STATE Dev.bare) 1 Op.stAbort [2]).mbHead 1) = Op.stAbort ∧
      opExt Op.stAbort = some ((waits (idle.set R.SMC_DEV_STATE_STATE Dev.bare) 1 Op.stAbort [2]).extAt 1 ((waits (idle.set
      R.SMC_DEV_STATE_STATE Dev.bare) 1 Op.stAbort [2]).mbHead 1)) ∧ (waits (idle.set R.SMC_DEV_STATE_STATE Dev.bare) 1 Op.stAbort
      [2]).extAt 1 ((waits (idle.set R.SMC_DEV_STATE_STATE Dev.bare) 1 Op.stAbort [2]).mbHead 1) < (waits (idle.set R.SMC_DEV_STATE_STATE
      Dev.bare) 1 Op.stAbort [2]).mbHeld 1 ∧ (waits (idle.set R.SMC_DEV_STATE_STATE Dev.bare) 1 Op.stAbort [2]).mbRoom 1 = true)) :=
  ⟨by unfold AtHead; decide +kernel, by unfold AtHead; decide +kernel, pair_of (by decide +kernel), by unfold AtHead; decide +kernel,
  by unfold AtHead; decide +kernel, by unfold AtHead; decide +kernel, by unfold AtHead; decide +kernel, by unfold AtHead; decide +kernel,
  by unfold AtHead; decide +kernel, by unfold AtHead; decide +kernel, by unfold AtHead; decide +kernel, pair_of (by decide +kernel),
  by decide +kernel, by decide +kernel, by decide +kernel⟩

theorem witness_control_space :
    (Reaches idle World.secure RegId.SMC_BOOT_STATUS 0 0) ∧ (Reaches idle World.secure RegId.MFE_CTRL 0 0) ∧
    (ReachesAt idle World.secure (4 * 20479)) ∧ (ReachesAt idle World.secure (4 * 16384)) ∧ (ReachesAt idle World.secure (4 * 24575)) ∧
    ((RegId.SMC_BOOT_STATUS.desc? = some (reg RegId.SMC_BOOT_STATUS)) ∧ (findReg (4 * 5376) = some (reg RegId.SMC_BOOT_STATUS, 0, 0)) ∧
    (idle.writeCheck World.secure (reg RegId.SMC_BOOT_STATUS) 0 0 0 = none) ∧ (RegId.MFE_CTRL.desc? = some (reg RegId.MFE_CTRL)) ∧
    (findReg (4 * 8126464) = some (reg RegId.MFE_CTRL, 0, 0)) ∧
    (idle.writeCheck World.secure (reg RegId.MFE_CTRL) 0 0 0 = some Status.range) ∧ (reg RegId.SMC_PMB_CFG ∈ regTable) ∧
    (part (reg RegId.SMC_PMB_CFG) 0 ∈ (reg RegId.SMC_PMB_CFG).parts) ∧ ((part (reg RegId.SMC_PMB_CFG) 0).own = false) ∧
    ((part (reg RegId.SMC_PMB_CFG) 0).fld.acc = Access.rw ∨ (part (reg RegId.SMC_PMB_CFG) 0).fld.acc = Access.rws ∧ World.secure =
      World.secure) ∧ (reg RegId.SMC_VFIT_CTRL ∈ regTable) ∧ (part (reg RegId.SMC_VFIT_CTRL) 0 ∈ (reg RegId.SMC_VFIT_CTRL).parts) ∧
    ((part (reg RegId.SMC_VFIT_CTRL) 0).own = true) ∧
    (¬(reg RegId.SMC_PMB_CFG).id ∈ [RegId.LTU_CTRL, RegId.QMX_POOL_CFG, RegId.KRU_MEMBER_SEL, RegId.SMC_MEAS_SEL, RegId.HIF_CTRL,
      RegId.HIF_EVT_PEND, RegId.HIF_EVT_EN, RegId.THM_FAIL, RegId.THM_RO_CTRL]) ∧ ((reg RegId.SMC_PMB_CFG).id ≠ RegId.HIF_EVT_PEND) ∧
    ((reg RegId.SMC_PMB_CFG).id ≠ RegId.HIF_EVT_EN) ∧ (65536 ≤ 4 * 20479) ∧ (4 * 20479 < 81920) ∧ (65536 ≤ 4 * 16384) ∧
    (4 * 16384 < 81920) ∧ (81920 ≤ 4 * 24575) ∧ (4 * 24575 < 98304) ∧ (findReg (4 * 16777215) = none) ∧
    (4 * 16777215 < 65536 ∨ 98304 ≤ 4 * 16777215)) ∧ ((ocShelf (4 * 16777215) = none) ∧ (idle.held = false) ∧
    (World.secure = World.secure ∨ idle.addrWorld (4 * 16777215) = World.nonSecure) ∧ (findReg (4 * 24575) = none) ∧
    (World.secure = World.secure ∨ idle.addrWorld (4 * 24575) = World.nonSecure) ∧ (65536 ≤ 4 * 24575) ∧ (findReg (4 * 10485760) = none) ∧
    (World.secure = World.secure ∨ idle.addrWorld (4 * 10485760) = World.nonSecure) ∧ ((ocShelf (4 * 10485760)).isSome = true) ∧
    (findReg (4 * 2622916) = some (reg RegId.SST_ST_WP_LO, 7, 0)) ∧ (¬(reg RegId.SST_ST_WP_LO).id ∈ readRows) ∧
    (World.secure = World.secure ∨ idle.addrWorld (4 * 2622916) = World.nonSecure) ∧ ((reg RegId.SST_ST_WP_LO).id ∈ pairLo) ∧
    (findReg (4 * 2622917) = some (reg RegId.SST_ST_WP_HI, 7, 0)) ∧ (¬(reg RegId.SST_ST_WP_HI).id ∈ readRows) ∧
    (World.secure = World.secure ∨ idle.addrWorld (4 * 2622917) = World.nonSecure) ∧ ((reg RegId.SST_ST_WP_HI).id ∈ Machine.latched) ∧
    (¬(reg RegId.SMC_BOOT_STATUS).id ∈ readRows) ∧ (World.secure = World.secure ∨ idle.addrWorld (4 * 5376) = World.nonSecure) ∧
    (¬(reg RegId.SMC_BOOT_STATUS).id ∈ pairLo) ∧ (¬(reg RegId.SMC_BOOT_STATUS).id ∈ Machine.latched) ∧
    (findReg (4 * 7865345) = some (reg RegId.ILC_STR_STATUS, 0, 0)) ∧ (secured.held = false) ∧
    (¬(reg RegId.ILC_STR_STATUS).id ∈ readRows)) ∧ ((World.nonSecure ≠ World.secure) ∧
    (secured.addrWorld (4 * 7865345) = World.secure)) :=
  ⟨reaches_secure (by decide +kernel), reaches_secure (by decide +kernel), by unfold ReachesAt; decide +kernel,
  by unfold ReachesAt; decide +kernel, by unfold ReachesAt; decide +kernel, by decide +kernel, by decide +kernel, by decide +kernel⟩

theorem witness_access_types_of_writes :
    (reg RegId.SMC_PMB_CFG ∈ regTable) ∧ (part (reg RegId.SMC_PMB_CFG) 0 ∈ (reg RegId.SMC_PMB_CFG).parts) ∧
    ((part (reg RegId.SMC_PMB_CFG) 0).fld.acc = Access.rw ∨ (part (reg RegId.SMC_PMB_CFG) 0).fld.acc = Access.rws ∧ World.secure =
      World.secure) ∧ (reg RegId.ILC_STR_STATUS ∈ regTable) ∧ (part (reg RegId.ILC_STR_STATUS) 2 ∈ (reg RegId.ILC_STR_STATUS).parts) ∧
    ((part (reg RegId.ILC_STR_STATUS) 2).fld.acc = Access.w1c) ∧ (0 < (part (reg RegId.ILC_STR_STATUS) 2).width) ∧
    (reg RegId.SMC_BOOT_STATUS ∈ regTable) ∧ (part (reg RegId.SMC_BOOT_STATUS) 0 ∈ (reg RegId.SMC_BOOT_STATUS).parts) ∧
    ((part (reg RegId.SMC_BOOT_STATUS) 0).fld.acc = Access.ro ∨ (part (reg RegId.SMC_BOOT_STATUS) 0).fld.acc = Access.wo ∨ (part (reg
      RegId.SMC_BOOT_STATUS) 0).fld.acc = Access.rws ∧ World.secure ≠ World.secure) := by decide +kernel

theorem witness_reserved_bits_read_zero :
    (reg RegId.SMC_BOOT_STATUS ∈ regTable) ∧ (15 < 32) ∧
    (∀ (p : Part), p ∈ (reg RegId.SMC_BOOT_STATUS).parts → 15 < p.wlo ∨ p.wlo + p.width ≤ 15) ∧ (reg RegId.TTC_AX_CMD ∈ regTable) ∧
    (31 < 32) ∧ (part (reg RegId.TTC_AX_CMD) 31 ∈ (reg RegId.TTC_AX_CMD).parts) ∧
    ((part (reg RegId.TTC_AX_CMD) 31).fld.acc = Access.wo ∨ (part (reg RegId.TTC_AX_CMD) 31).fld.acc = Access.rws ∧ World.secure ≠
      World.secure) ∧ ((part (reg RegId.TTC_AX_CMD) 31).wlo ≤ 31) ∧
    (31 < (part (reg RegId.TTC_AX_CMD) 31).wlo + (part (reg RegId.TTC_AX_CMD) 31).width) ∧ (0 < 32) ∧
    (part (reg RegId.SMC_BOOT_STATUS) 0 ∈ (reg RegId.SMC_BOOT_STATUS).parts) ∧
    ((part (reg RegId.SMC_BOOT_STATUS) 0).fld.acc ≠ Access.wo) ∧
    ((part (reg RegId.SMC_BOOT_STATUS) 0).fld.acc = Access.rws → World.nonSecure = World.secure) ∧
    ((part (reg RegId.SMC_BOOT_STATUS) 0).wlo ≤ 0) ∧
    (0 < (part (reg RegId.SMC_BOOT_STATUS) 0).wlo + (part (reg RegId.SMC_BOOT_STATUS) 0).width) ∧ (reg RegId.SMC_PMB_CFG ∈ regTable) ∧
    (∀ (p : Part), p ∈ (reg RegId.SMC_PMB_CFG).parts → bits 0 p.wlo p.width = bits 2147483648 p.wlo p.width) := by decide +kernel

/-! ### Well-formedness: what each check refuses -/

theorem wf_packet : Instr.wf (.pixelPacketRx 0 { packet 0 0 [] with words := List.replicate 129 0 }) = false := by decide +kernel
theorem wf_cap : Instr.wf (.capPacketRx 0 { packet 0 0 [] with words := List.replicate 129 0 }) = false := by decide +kernel
theorem wf_auth : Instr.wf (.authFrameRx 0 (frame 3 3 2 [1]) (.response true [] 7)) = false := by decide +kernel
theorem wf_frame : Instr.wf (.hingeFrameRx 0 { frame 9 3 2 [] with words := List.replicate 1025 0 }) = false := by decide +kernel
theorem wf_read : Instr.wf (.productLineRead 0 (.uncorrectable [2 ^ 30])) = false := by decide +kernel
theorem wf_image : Instr.wf (.imageChecksDone { readOk := true, bytes := [256] } none) = false := by decide +kernel
theorem wf_train : Instr.wf (.kruPortTrainDone 0 1 1 (trains 17)) = false := by decide +kernel
theorem wf_nonce : Instr.wf (.spdmRequest .doe0 0x12 (.challenge 0 0 []) false) = false := by decide +kernel
theorem wf_bar0 : Instr.wf (.bar0BadAccess .secure 0x4000000) = false := by decide +kernel
theorem wf_bar2_read : Instr.wf (.bar2Read (2 ^ 36) ⟨1, .none⟩) = false := by decide +kernel
theorem wf_bar2_write : Instr.wf (.bar2Write (2 ^ 36)) = false := by decide +kernel
theorem wf_codes : Instr.wf (.mfeEntrySample (List.replicate 129 (0, 0)) []) = false := by decide +kernel
theorem wf_sweep : Instr.wf (.thmSweep []) = false := by decide +kernel
theorem wf_digest : Instr.wf (.ownerEnrollDone [] true) = false := by decide +kernel
theorem wf_cabinet : Instr.wf (.cabinetVerifyDone { forged with bytes := [256] } forged none 0 0 0) = false := by decide +kernel
theorem wf_policy : Instr.wf (.cabinetVerifyDone forged forged (some { forged with body := [256] }) 0 0 0) = false := by
  decide +kernel
theorem wf_workbench : Instr.wf (.workbenchCheckDone { forged with bytes := List.replicate 521 0 } 0) = false := by decide +kernel
theorem wf_good : Instr.wf (.pixelPacketRx 0 (packet 0 0 [1])) = true := by decide +kernel

/-! ### The published functions, on published examples -/

/-- FIPS 180-4: the digest of "abc". -/
theorem test_sha384_abc : sha384 [0x61, 0x62, 0x63] =
      [203, 0, 117, 63, 69, 163, 94, 139, 181, 160, 61, 105, 154, 198, 80, 7, 39, 44, 50, 171, 14, 222, 209, 99, 26, 139, 96,
      90, 67, 255, 91, 237, 128, 134, 7, 43, 161, 231, 204, 35, 88, 186, 236, 161, 52, 200, 37, 167] := by decide +kernel

/-- FIPS 180-4: a message whose padding takes a second block. -/
theorem test_sha384_two_blocks : sha384 (List.range 112) =
      [51, 186, 8, 14, 192, 204, 179, 120, 228, 233, 95, 237, 59, 38, 194, 58, 161, 162, 128, 71, 110, 0, 117, 25, 238, 71,
      246, 12, 217, 197, 200, 166, 93, 98, 114, 89, 169, 170, 47, 211, 60, 160, 109, 60, 20, 238, 85, 72] := by decide +kernel

/-- FIPS 197, appendix C.3. -/
theorem test_aes256 : aesEncrypt (List.range 32) ((List.range 16).map (17 * ·)) =
      [142, 162, 183, 202, 81, 103, 69, 191, 234, 252, 73, 144, 75, 73, 96, 137] := by decide +kernel

/-- RFC 3394, 4.6; with one bit changed the check fails. -/
theorem test_key_unwrap : keyUnwrap (List.range 32)
      [40, 201, 244, 4, 196, 184, 16, 244, 203, 204, 179, 92, 251, 135, 248, 38, 63, 87, 134, 226, 216, 14, 211, 38, 203, 199,
      240, 231, 26, 153, 244, 59, 251, 152, 139, 155, 122, 2, 221, 33] =
    some ((List.range 16).map (17 * ·) ++ List.range 16) ∧ keyUnwrap (List.range 32)
      [41, 201, 244, 4, 196, 184, 16, 244, 203, 204, 179, 92, 251, 135, 248, 38, 63, 87, 134, 226, 216, 14, 211, 38, 203, 199,
      240, 231, 26, 153, 244, 59, 251, 152, 139, 155, 122, 2, 221, 33] = none := by decide +kernel

/-- The AES-256-GCM specification, test case 14; with another tag the check fails. -/
theorem test_gcm : gcmOpen (List.replicate 32 0) (List.replicate 12 0)
      [206, 167, 64, 61, 77, 96, 107, 110, 7, 78, 197, 211, 186, 243, 157, 24]
      [208, 209, 200, 167, 153, 153, 107, 240, 38, 91, 152, 181, 212, 138, 185, 25] = some (List.replicate 16 0) ∧
    gcmOpen (List.replicate 32 0) (List.replicate 12 0)
      [206, 167, 64, 61, 77, 96, 107, 110, 7, 78, 197, 211, 186, 243, 157, 24] (List.replicate 16 0) = none := by decide +kernel

/-- RFC 4231, test case 1. -/
theorem test_hmac384 : hmac384 (List.replicate 20 0x0B) [0x48, 0x69, 0x20, 0x54, 0x68, 0x65, 0x72, 0x65] =
      [175, 208, 57, 68, 216, 72, 149, 98, 107, 8, 37, 244, 171, 70, 144, 127, 21, 249, 218, 219, 228, 16, 30, 198, 130, 170,
      3, 76, 124, 235, 197, 156, 250, 234, 158, 169, 7, 110, 222, 127, 74, 241, 82, 232, 178, 250, 156, 182] := by decide +kernel

/-- The secret of private keys 3 and 7 is the first coordinate of 21 times the base point of P-384. -/
theorem test_ecdh : ecdh 3 ([4] ++ beBytes 48 0x283c1d7365ce4788f29f8ebf234edffead6fe997fbea5ffa2d58cc9dfa7b1c508b05526f55b9ebb2040f05b48fb6d0e1 ++
      beBytes 48 0x9475c99061e41b88ba52efdb8c1690471a61d867ed799729d9c92cd01dbd225630d84ede32a78f9e64664cdac512ef8c) =
    beBytes 48 0x27935df4e25c6f47c7817121057d46e1606290985f8283f5f9936136bf42cdb746a37313df88fd64626b4c175eb77422 := by decide +kernel

/-- A signature of FIPS 186-5 over P-384 verifies, and not over another digest. -/
theorem test_ecdsa : ecdsaGood 0x919ba41e60edfacc98a9b7a4d7c0c8671830e681a66e505cd57ad2c71c7ff9240429e6b7d71987dd0906ce30f1af8cad
      0x2c832c2e5e12b9873938bad804875dc8fb016bedcdcea6e9a2fe7fc082d63272b8136826843e58315758ce86d8810b64
      0x59e1748777448c69de6b800d7a33bbfb9ff1b463e44354c3553bcdb9c666fa90125a3c79f90397bdf5f6a13de828684f
      0xff18421d65463ae8d5fb00aea2ed7ac7736bd8bd4618c7ba1a22c21e2b4ddbf3bfa06d7666dedc5ff6ff0ce619d320e7
      0x64db425cc5df21c16ffd51269b76ded4d1427ecb305b65dd94cf396f65ccf230da298927c6ef32125eb109464ee71df1 = true ∧
    ecdsaGood 0x919ba41e60edfacc98a9b7a4d7c0c8671830e681a66e505cd57ad2c71c7ff9240429e6b7d71987dd0906ce30f1af8cad
      0x2c832c2e5e12b9873938bad804875dc8fb016bedcdcea6e9a2fe7fc082d63272b8136826843e58315758ce86d8810b64
      0x59e1748777448c69de6b800d7a33bbfb9ff1b463e44354c3553bcdb9c666fa90125a3c79f90397bdf5f6a13de8286850
      0xff18421d65463ae8d5fb00aea2ed7ac7736bd8bd4618c7ba1a22c21e2b4ddbf3bfa06d7666dedc5ff6ff0ce619d320e7
      0x64db425cc5df21c16ffd51269b76ded4d1427ecb305b65dd94cf396f65ccf230da298927c6ef32125eb109464ee71df1 = false := by decide +kernel

/-- The check value of IEEE 802.3 CRC-32, of the digits 1 to 9 (R66). -/
theorem test_crc32 : crc32 ((List.range 9).map (0x31 + ·)) = 0xCBF43926 := by decide +kernel

/-! ### Single steps -/

/-- The state after a command. -/
def after (c : Instr) (s : State) : State :=
  match exec c s with
  | .next t => t
  | _ => s

/-- The table spells no command by a word. -/
theorem test_no_words (nbits w : Nat) : decodeTableWord nbits w = none := rfl

/-- THM_THR_WARN takes 40 °C in 1/16 °C at least (R479), and RANGE is 3. -/
theorem test_threshold : (after (.thmThresholdWrite .secure 0 640) idle).getS R.THM_THR_WARN_LEVEL = 640 ∧
    (after (.thmThresholdWrite .secure 0 639) idle).get R.THM_STATUS_LAST_STATUS = 3 := by decide +kernel

/-- The fourth open observation in a row is a fault of kind OPEN (R432, R433). -/
theorem test_string_open : (after (.stringObservation 0 10 900) (lit 150 3 0)).get R.ILC_STR_STATUS_FAULT 0 = 1 ∧
    (after (.stringObservation 0 10 900) (lit 150 3 0)).get R.ILC_STR_STATUS_KIND 0 = 1 := by decide +kernel

/-- A word of the window stands little-endian (R10, R420). -/
theorem test_pattern_bytes : (after (.patternWindowWrite .secure 1 0 0x04030201) idle).leaf.bytes 0x390C000 4 = [1, 2, 3, 4] := by
  decide +kernel

/-- An unknown opcode is answered with RANGE and its TAG (R520, R521). -/
theorem test_unknown_opcode : (after (.mailboxCommandMalformed 0) (mail idle 0 (cmd 0x99 0 []))).mbox.bytes 0x14000 8 =
    [0x99, 0, 3, 0, 77, 0, 0, 0] := by decide +kernel

/-- ST_DEFINE takes class, k and heads (R527). -/
theorem test_define : (after (.stDefine 0) (waits idle 0 Op.stDefine ([2, 1, 16, 0] ++ leBytes 12 5))).station 2 =
    { k := 16, heads := [0, 2] } := by decide +kernel

/-- A profile with a velocity target speeds up by at most its jerk in the first cycle and moves forward (R466). -/
theorem test_profile : 0 < ((({ goal := .vel 400 } : Profile).cycle 400 1000 5000).a) ∧
    (({ goal := .vel 400 } : Profile).cycle 400 1000 5000).a ≤ 5000 := by decide +kernel

/-- Leaving RESET starts the boot ROM, stage 1h of CABINET_BOOT (R550). -/
theorem test_reset_exit : (after .resetExit (idle.set R.SMC_DEV_STATE_STATE 1)).get R.SMC_DEV_STATE_STATE = 2 ∧
    (after .resetExit (idle.set R.SMC_DEV_STATE_STATE 1)).get R.SMC_BOOT_STATUS_STEP = 1 := by decide +kernel

/-- A DEVICE reset keeps the set point of VCORE, of domain POR, and not an enable (R548, R574). -/
theorem test_reset_keeps : (after .devResetEntry (resetDue.set R.SMC_VFIT_STATUS_VSET 777)).get R.SMC_VFIT_STATUS_VSET = 777 ∧
    (after .devResetEntry (resetDue.set R.ILC_CTRL_EN 1)).get R.ILC_CTRL_EN = 0 := by decide +kernel

end Sys2Proof.Tests
end

section
/-! PROOFS. What a register word does to the fields it holds, and what it shows of them (R11, R13, R576). -/

open Sys2Proof

namespace Sys2Proof.Machine

/-! ### Bits of numbers -/

theorem testBit_bits (v lo w b : Nat) : (bits v lo w).testBit b = (decide (b < w) && v.testBit (lo + b)) := by
  simp [bits, Nat.testBit_mod_two_pow]

theorem bits_lt (v lo w : Nat) : bits v lo w < 2 ^ w := Nat.mod_lt _ (Nat.two_pow_pos w)

@[simp] theorem bits_mod_self (v lo w : Nat) : bits v lo w % 2 ^ w = bits v lo w := Nat.mod_mod _ _

/-- Cutting a number off above a bit range leaves the range. -/
theorem bits_mod_two_pow (v : Nat) {lo w n : Nat} (h : lo + w ≤ n) : bits (v % 2 ^ n) lo w = bits v lo w := by
  refine Nat.eq_of_testBit_eq fun b => ?_
  simp only [testBit_bits, Nat.testBit_mod_two_pow]
  by_cases hb : b < w
  · simp [show lo + b < n by omega]
  · simp [hb]

/-- The replaced bits read as the new ones. -/
theorem bits_spliceBits (old lo w v : Nat) : bits (spliceBits old lo w v) lo w = v % 2 ^ w := by
  have hq : bits old lo w = old / 2 ^ lo % 2 ^ w := by rw [bits, Nat.shiftRight_eq_div_pow]
  have hsplit : spliceBits old lo w v = old % 2 ^ lo + 2 ^ lo * (2 ^ w * (old / 2 ^ lo / 2 ^ w) + v % 2 ^ w) := by
    have hlow := Nat.mod_add_div old (2 ^ lo)
    have hmid := Nat.mod_add_div (old / 2 ^ lo) (2 ^ w)
    rw [spliceBits, hq]
    generalize old / 2 ^ lo / 2 ^ w = top at *
    generalize old / 2 ^ lo % 2 ^ w = mid at *
    rw [← hmid, Nat.mul_add] at hlow
    rw [Nat.mul_add, Nat.mul_comm mid, Nat.mul_comm (v % 2 ^ w)]
    omega
  rw [hsplit, bits, Nat.shiftRight_eq_div_pow, Nat.add_mul_div_left _ _ (Nat.two_pow_pos lo),
    Nat.div_eq_of_lt (Nat.mod_lt _ (Nat.two_pow_pos lo)), Nat.zero_add, Nat.mul_add_mod, Nat.mod_mod]

/-- Taking the bits that two numbers share away from one of them clears exactly those. -/
theorem testBit_sub_and (m n b : Nat) : (m - (m &&& n)).testBit b = (m.testBit b && !n.testBit b) := by
  have hle : m &&& n ≤ m := Nat.and_le_left
  have hlow : (m &&& n) % 2 = 1 ↔ m % 2 = 1 ∧ n % 2 = 1 := Nat.and_mod_two_eq_one
  induction b generalizing m n with
  | zero =>
    have hodd : (m - (m &&& n)) % 2 = 1 ↔ m % 2 = 1 ∧ ¬ n % 2 = 1 := by omega
    simp only [Nat.testBit_zero, hodd, Bool.decide_and, decide_not]
  | succ b ih =>
    have hhalf : (m - (m &&& n)) / 2 = m / 2 - (m / 2 &&& n / 2) := by
      rw [← Nat.and_div_two]
      omega
    simp only [Nat.testBit_succ, hhalf, ih _ _ Nat.and_le_left Nat.and_mod_two_eq_one]

/-! ### The table of registers -/

/-- The parts of a register stand in its word from low to high and do not overlap. -/
theorem regTable_words_rise : ∀ g ∈ regTable, g.parts.Pairwise fun p q => p.wlo + p.width ≤ q.wlo := by decide +kernel

/-- The parts of a register are of different fields with the same strides. -/
theorem regTable_fields_apart : ∀ g ∈ regTable, g.parts.Pairwise fun p q =>
    p.fld.s1 = q.fld.s1 ∧ p.fld.s2 = q.fld.s2 ∧ p.fld.base * 32 + p.fld.lo ≠ q.fld.base * 32 + q.fld.lo := by decide +kernel

/-- A part lies within its field. -/
theorem regTable_parts_fit : ∀ g ∈ regTable, ∀ p ∈ g.parts, p.flo + p.width ≤ p.fld.width := by decide +kernel

/-- At any indices, a register has its fields at different bit addresses. -/
theorem regTable_keys_nodup {g : Reg} (hg : g ∈ regTable) (i j : Nat) : (g.parts.map fun p => p.fld.key i j).Nodup := by
  refine List.pairwise_map.2 ((regTable_fields_apart g hg).imp fun {p q} h => ?_)
  obtain ⟨h1, h2, hne⟩ := h
  simp only [Fld.key, h1, h2]
  omega

/-- Only one part of a register stands at a bit of its word. -/
theorem regTable_part_unique {g : Reg} (hg : g ∈ regTable) {p q : Part} (hp : p ∈ g.parts) (hq : q ∈ g.parts) {b : Nat}
    (hpl : p.wlo ≤ b) (hph : b < p.wlo + p.width) (hql : q.wlo ≤ b) (hqh : b < q.wlo + q.width) : q = p := by
  have hrise := List.pairwise_iff_getElem.1 (regTable_words_rise g hg)
  obtain ⟨m, hm, rfl⟩ := List.getElem_of_mem hp
  obtain ⟨n, hn, rfl⟩ := List.getElem_of_mem hq
  obtain hmn | rfl | hnm := Nat.lt_trichotomy m n
  · have := hrise m n hm hn hmn
    omega
  · rfl
  · have := hrise n m hn hm hnm
    omega

/-! ### Writes -/

/-- What the field of a part holds after a write of the word `v`, by its access type (R11, R576). -/
def Part.stored (p : Part) (w : World) (old v : Nat) : Nat :=
  match p.fld.acc with
  | .ro => old
  | .wo => old
  | .rw => spliceBits old p.flo p.width (bits v p.wlo p.width) % 2 ^ p.fld.width
  | .w1c => (old - (old &&& bits v p.wlo p.width)) % 2 ^ p.fld.width
  | .rws => if w = .secure then spliceBits old p.flo p.width (bits v p.wlo p.width) % 2 ^ p.fld.width else old

/-- A write of a part is a write of its field, or nothing. -/
theorem State.writePart_cases (s : State) (w : World) (p : Part) (i j v : Nat) :
    s.writePart w p i j v = s ∨ ∃ y, s.writePart w p i j v = s.set p.fld y i j := by
  unfold State.writePart
  cases p.fld.acc with
  | ro | wo => exact .inl rfl
  | rw | w1c => exact .inr ⟨_, rfl⟩
  | rws =>
    by_cases hw : w = .secure
    · exact .inr ⟨_, if_pos hw⟩
    · exact .inl (if_neg hw)

theorem State.get_writePart_self (s : State) (w : World) (p : Part) (i j v : Nat) :
    (s.writePart w p i j v).get p.fld i j = p.stored w (s.get p.fld i j) v := by
  unfold State.writePart Part.stored
  cases p.fld.acc with
  | ro | wo => rfl
  | rw | w1c => exact State.get_set_self ..
  | rws => by_cases hw : w = .secure <;> simp [hw]

theorem State.get_writePart_ne (s : State) (w : World) (p : Part) (i j v : Nat) (f : Fld) (k l : Nat)
    (h : f.key k l ≠ p.fld.key i j) : (s.writePart w p i j v).get f k l = s.get f k l := by
  obtain hs | ⟨y, hs⟩ := s.writePart_cases w p i j v
  · rw [hs]
  · rw [hs, State.get_set_ne _ _ _ _ _ _ _ _ h]

/-- Writing parts leaves every field that is not of one of them alone. -/
theorem State.get_foldl_writePart_ne (s : State) (w : World) (ps : List Part) (i j v : Nat) (f : Fld) (k l : Nat)
    (h : f.key k l ∉ ps.map fun p => p.fld.key i j) :
    (ps.foldl (fun t p => t.writePart w p i j v) s).get f k l = s.get f k l := by
  induction ps generalizing s with
  | nil => rfl
  | cons p ps ih =>
    rw [List.map_cons, List.mem_cons, not_or] at h
    obtain ⟨hp, hps⟩ := h
    rw [List.foldl_cons, ih _ hps, State.get_writePart_ne _ _ _ _ _ _ _ _ _ hp]

/-- Parts of different fields are written independently of each other. -/
theorem State.get_foldl_writePart_mem (s : State) (w : World) (ps : List Part) (i j v : Nat)
    (hk : (ps.map fun p => p.fld.key i j).Nodup) {p : Part} (hp : p ∈ ps) :
    (ps.foldl (fun t q => t.writePart w q i j v) s).get p.fld i j = p.stored w (s.get p.fld i j) v := by
  induction ps generalizing s with
  | nil => cases hp
  | cons q ps ih =>
    obtain ⟨hq, hps⟩ := List.nodup_cons.1 hk
    rw [List.foldl_cons]
    obtain rfl | hp := List.mem_cons.1 hp
    · rw [State.get_foldl_writePart_ne _ _ _ _ _ _ _ _ _ hq, State.get_writePart_self]
    · have hne : p.fld.key i j ≠ q.fld.key i j := fun he => hq (List.mem_map.2 ⟨p, hp, he⟩)
      rw [ih _ hps hp, State.get_writePart_ne _ _ _ _ _ _ _ _ _ hne]

/-- Writing parts depends on no bit of the word outside them. -/
theorem State.foldl_writePart_congr (s : State) (w : World) (ps : List Part) (i j x y : Nat)
    (h : ∀ p ∈ ps, bits x p.wlo p.width = bits y p.wlo p.width) :
    ps.foldl (fun t p => t.writePart w p i j x) s = ps.foldl (fun t p => t.writePart w p i j y) s := by
  induction ps generalizing s with
  | nil => rfl
  | cons p ps ih =>
    obtain ⟨hp, hps⟩ := List.forall_mem_cons.1 h
    have hhead : s.writePart w p i j x = s.writePart w p i j y := by simp only [State.writePart, hp]
    rw [List.foldl_cons, List.foldl_cons, hhead, ih _ hps]

theorem State.get_writeAll (s : State) (w : World) {g : Reg} (hg : g ∈ regTable) {p : Part} (hp : p ∈ g.parts) (i j v : Nat) :
    (s.writeAll w g i j v).get p.fld i j = p.stored w (s.get p.fld i j) v :=
  State.get_foldl_writePart_mem s w g.parts i j v (regTable_keys_nodup hg i j) hp

/-- A writable part takes the bits of the word that stand for it. -/
theorem Part.bits_stored (p : Part) (w : World) (old v : Nat) (hfit : p.flo + p.width ≤ p.fld.width)
    (h : p.fld.acc = .rw ∨ (p.fld.acc = .rws ∧ w = .secure)) :
    bits (p.stored w old v) p.flo p.width = bits v p.wlo p.width := by
  have hst : p.stored w old v = spliceBits old p.flo p.width (bits v p.wlo p.width) % 2 ^ p.fld.width := by
    obtain hacc | ⟨hacc, hw⟩ := h
    · simp [Part.stored, hacc]
    · simp [Part.stored, hacc, hw]
  rw [hst, bits_mod_two_pow _ hfit, bits_spliceBits, bits_mod_self]

/-- A 1 clears a W1C bit and a 0 leaves it. -/
theorem Part.bit_stored_w1c (p : Part) (w : World) (old v : Nat) (hfit : p.flo + p.width ≤ p.fld.width) (h : p.fld.acc = .w1c)
    {b : Nat} (hb : b < p.width) : bit (p.stored w old v) b = (bit old b && !bit v (p.wlo + b)) := by
  have hbw : b < p.fld.width := by omega
  simp [bit, Part.stored, h, Nat.testBit_mod_two_pow, testBit_sub_and, testBit_bits, hb, hbw]

theorem Part.stored_readOnly (p : Part) (w : World) (old v : Nat)
    (h : p.fld.acc = .ro ∨ p.fld.acc = .wo ∨ (p.fld.acc = .rws ∧ w ≠ .secure)) : p.stored w old v = old := by
  obtain hacc | hacc | ⟨hacc, hw⟩ := h
  · simp [Part.stored, hacc]
  · simp [Part.stored, hacc]
  · simp [Part.stored, hacc, hw]

/-! ### Reads -/

/-- What a part shows of its field to a world (R11, R576). -/
def Part.shown (p : Part) (s : State) (w : World) (i j : Nat) : Nat :=
  match p.fld.acc with
  | .wo => 0
  | .rws => if w = .secure then s.get p.fld i j else 0
  | _ => s.get p.fld i j

theorem Part.shown_hidden (p : Part) (s : State) (w : World) (i j : Nat)
    (h : p.fld.acc = .wo ∨ (p.fld.acc = .rws ∧ w ≠ .secure)) : p.shown s w i j = 0 := by
  obtain hacc | ⟨hacc, hw⟩ := h
  · simp [Part.shown, hacc]
  · simp [Part.shown, hacc, hw]

theorem Part.shown_open (p : Part) (s : State) (w : World) (i j : Nat) (hwo : p.fld.acc ≠ .wo)
    (hrws : p.fld.acc = .rws → w = .secure) : p.shown s w i j = s.get p.fld i j := by
  unfold Part.shown
  cases hacc : p.fld.acc with
  | wo => exact absurd hacc hwo
  | rws => exact if_pos (hrws hacc)
  | ro | rw | w1c => rfl

/-- The bit a part gives to bit `b` of the word, when it shows the value `x`. -/
def Part.bitAt (p : Part) (x b : Nat) : Bool :=
  decide (p.wlo ≤ b) && decide (b < p.wlo + p.width) && bit x (p.flo + b - p.wlo)

/-- A part's bits added above a number that ends below the part. -/
theorem Part.bit_add (p : Part) (x b : Nat) {acc : Nat} (hlow : acc < 2 ^ p.wlo) :
    bit (acc + bits x p.flo p.width * 2 ^ p.wlo) b = (bit acc b || p.bitAt x b) := by
  rw [Nat.add_comm, Nat.mul_comm, bit, Nat.testBit_two_pow_mul_add _ hlow]
  by_cases hb : b < p.wlo
  · simp [hb, bit, Part.bitAt, Nat.not_le.2 hb]
  · have hle : p.wlo ≤ b := Nat.not_lt.1 hb
    have hzero : acc.testBit b = false := Nat.testBit_lt_two_pow (Nat.lt_of_lt_of_le hlow (Nat.pow_le_pow_right (by decide) hle))
    have hwidth : b - p.wlo < p.width ↔ b < p.wlo + p.width := by omega
    simp [hb, bit, Part.bitAt, hle, hzero, testBit_bits, hwidth, Nat.add_sub_assoc hle]

/-- The sum ends where the part ends. -/
theorem Part.add_lt (p : Part) (x : Nat) {acc : Nat} (hlow : acc < 2 ^ p.wlo) :
    acc + bits x p.flo p.width * 2 ^ p.wlo < 2 ^ (p.wlo + p.width) := by
  have hpart := Nat.mul_le_mul_right (2 ^ p.wlo) (bits_lt x p.flo p.width)
  rw [Nat.succ_mul] at hpart
  rw [Nat.pow_add, Nat.mul_comm (2 ^ p.wlo)]
  omega

/-- Where the parts rise from low to high, adding them one by one places each part's bits in the word. -/
theorem bit_foldl_parts (val : Part → Nat) (ps : List Part) (acc b : Nat)
    (hrise : ps.Pairwise fun p q => p.wlo + p.width ≤ q.wlo) (hacc : ∀ p ∈ ps, acc < 2 ^ p.wlo) :
    bit (ps.foldl (fun a p => a + bits (val p) p.flo p.width * 2 ^ p.wlo) acc) b =
      (bit acc b || ps.any fun p => p.bitAt (val p) b) := by
  induction ps generalizing acc with
  | nil => simp
  | cons p ps ih =>
    obtain ⟨hp, hps⟩ := List.pairwise_cons.1 hrise
    have hlow : acc < 2 ^ p.wlo := hacc p List.mem_cons_self
    have hnext := fun q hq => Nat.lt_of_lt_of_le (p.add_lt (val p) hlow) (Nat.pow_le_pow_right (by decide) (hp q hq))
    rw [List.foldl_cons, ih _ hps hnext, p.bit_add _ _ hlow, List.any_cons, Bool.or_assoc]

theorem State.regWord_eq (s : State) (w : World) (g : Reg) (i j : Nat) :
    s.regWord w g i j = g.parts.foldl (fun a p => a + bits (p.shown s w i j) p.flo p.width * 2 ^ p.wlo) 0 := rfl

/-- A bit of a register's word is the bit of the part that stands there, if any. -/
theorem State.bit_regWord (s : State) (w : World) {g : Reg} (hg : g ∈ regTable) (i j b : Nat) :
    bit (s.regWord w g i j) b = g.parts.any fun p => p.bitAt (p.shown s w i j) b := by
  rw [State.regWord_eq, bit_foldl_parts _ _ _ _ (regTable_words_rise g hg) fun p _ => Nat.two_pow_pos p.wlo]
  simp [bit]

/-- Bits outside every part read zero (R13). -/
theorem State.bit_regWord_reserved (s : State) (w : World) {g : Reg} (hg : g ∈ regTable) (i j : Nat) {b : Nat}
    (h : ∀ p ∈ g.parts, b < p.wlo ∨ p.wlo + p.width ≤ b) : bit (s.regWord w g i j) b = false := by
  rw [State.bit_regWord s w hg, List.any_eq_false]
  intro p hp
  have hout := h p hp
  simp only [Part.bitAt, Bool.and_eq_true, decide_eq_true_eq]
  rintro ⟨⟨hl, hh⟩, -⟩
  omega

/-- A bit inside a part is that part's. -/
theorem State.bit_regWord_part (s : State) (w : World) {g : Reg} (hg : g ∈ regTable) (i j : Nat) {p : Part} (hp : p ∈ g.parts)
    {b : Nat} (hl : p.wlo ≤ b) (hh : b < p.wlo + p.width) :
    bit (s.regWord w g i j) b = bit (p.shown s w i j) (p.flo + b - p.wlo) := by
  have hat : p.bitAt (p.shown s w i j) b = bit (p.shown s w i j) (p.flo + b - p.wlo) := by simp [Part.bitAt, hl, hh]
  rw [State.bit_regWord s w hg, Bool.eq_iff_iff, List.any_eq_true]
  constructor
  · rintro ⟨q, hq, hqb⟩
    obtain ⟨hql, hqh⟩ : q.wlo ≤ b ∧ b < q.wlo + q.width := by simp_all [Part.bitAt]
    obtain rfl := regTable_part_unique hg hp hq hl hh hql hqh
    exact hat ▸ hqb
  · exact fun hb => ⟨p, hp, hat.trans hb⟩

/-! ### The statement -/

theorem accessTypesOfWrites : Stated.AccessTypesOfWrites := by
  intro g p w i j x s hg hp
  have hfit := regTable_parts_fit g hg p hp
  simp only [State.get_writeAll s w hg hp i j x]
  have hkeeps := State.writeAll_keeps w g i j x (Keeps.refl true true true s)
  refine ⟨p.bits_stored w _ x hfit, fun hacc b hb => p.bit_stored_w1c w _ x hfit hacc hb, p.stored_readOnly w _ x,
    fun f k l hf => s.get_foldl_writePart_ne w g.parts i j x f k l hf, hkeeps.hbmSame rfl, hkeeps.leafSame rfl, hkeeps.mboxSame rfl⟩

theorem reservedBitsReadZero : Stated.ReservedBitsReadZero := by
  intro g w i j b s hg _
  refine ⟨fun h => s.bit_regWord_reserved w hg i j h, fun p hp hacc hl hh => ?_, fun p hp hwo hrws hl hh => ?_,
    fun x y h => s.foldl_writePart_congr w g.parts i j x y h⟩
  · rw [s.bit_regWord_part w hg i j hp hl hh, p.shown_hidden s w i j hacc, bit, Nat.zero_testBit]
  · rw [s.bit_regWord_part w hg i j hp hl hh, p.shown_open s w i j hwo hrws]

/-- Settles O59: the table gives each register parts of different fields at rising places of its word, so each part is written
and shown apart from the others. -/
theorem registerFields : Obligations.RegisterFields := ⟨accessTypesOfWrites, reservedBitsReadZero⟩

end Sys2Proof.Machine
end

section
/-! PROOFS. What becomes of a malformed command at HEAD of a mailbox ring (R520, R540, R543). -/

open Sys2Proof Sys2Proof.Stated

namespace Sys2Proof.Machine

/-! ### HEAD of a ring -/

/-- Setting another field of the ring's registers leaves HEAD alone. -/
theorem State.mbHead_set_ringField (s : State) (f : Fld) (v r : Nat) (hstride : f.s1 = R.SMC_MB_CMD_HEAD_HEAD.s1)
    (hne : f.base * 32 + f.lo ≠ R.SMC_MB_CMD_HEAD_HEAD.base * 32 + R.SMC_MB_CMD_HEAD_HEAD.lo) :
    (s.set f v r).mbHead r = s.mbHead r := by
  refine State.get_set_ne _ _ _ _ _ _ _ _ ?_
  simp only [Fld.key, hstride]
  omega

theorem State.mbHead_set_refusedCount (s : State) (v : Nat) {r : Nat} (hr : r < 2) (j : Nat) :
    (s.set R.SMC_MB_REFUSED_COUNT v r j).mbHead r = s.mbHead r := by
  refine State.get_set_ne _ _ _ _ _ _ _ _ ?_
  simp only [Fld.key, R.SMC_MB_CMD_HEAD_HEAD, R.SMC_MB_REFUSED_COUNT]
  omega

theorem State.mbHead_raise (s : State) (n : Nat) {r : Nat} (hr : r < 2) : (s.raise n).mbHead r = s.mbHead r := by
  apply State.raise_get <;> simp only [Fld.key, R.SMC_MB_CMD_HEAD_HEAD, R.HIF_EVT_PEND_PEND, R.HIF_EVT_SUM_LO_GROUPS,
    R.HIF_EVT_SUM_HI_GROUPS] <;> omega

/-- Taking a command moves HEAD over its entries. -/
theorem State.mbHead_takeCommand (s : State) (r : Nat) : (s.takeCommand r).mbHead r = (s.mbHead r + s.mbTakes r) % 128 := by
  let moved := s.set R.SMC_MB_CMD_HEAD_HEAD ((s.mbHead r + s.mbTakes r) % 128) r
  calc (s.takeCommand r).mbHead r
      = ((moved.set R.SMC_MB_STATUS_WAIT_RSP 0 r).set R.SMC_MB_STATUS_BUSY 1 r).mbHead r := rfl
    _ = (moved.set R.SMC_MB_STATUS_WAIT_RSP 0 r).mbHead r := State.mbHead_set_ringField _ _ _ _ rfl (by decide)
    _ = moved.mbHead r := State.mbHead_set_ringField _ _ _ _ rfl (by decide)
    _ = (s.mbHead r + s.mbTakes r) % 128 := (State.get_set_self ..).trans (Nat.mod_mod _ 128)

theorem State.mbHead_respond (s : State) {r : Nat} (hr : r < 2) (op tag : Nat) (c : Status) (body : List Nat) :
    (s.respond r op tag c body).mbHead r = s.mbHead r := by
  unfold State.respond
  rw [State.mbHead_raise _ _ hr, State.mbHead_set_ringField _ R.SMC_MB_STATUS_BUSY _ _ rfl (by decide),
    State.mbHead_set_ringField _ R.SMC_MB_RSP_TAIL_TAIL _ _ rfl (by decide)]
  rfl

theorem State.mbHead_respondRefused (s : State) {r : Nat} (hr : r < 2) (op tag : Nat) (c : Status) (addr detail : Nat) :
    (s.respondRefused r op tag c addr detail).mbHead r = s.mbHead r := by
  unfold State.respondRefused State.add
  rw [State.mbHead_respond _ hr, State.mbHead_raise _ _ hr, State.mbHead_set_ringField _ R.SMC_MB_STATUS_LAST_OP _ _ rfl (by decide),
    State.mbHead_set_ringField _ R.SMC_MB_STATUS_LAST_STATUS _ _ rfl (by decide), State.mbHead_set_refusedCount _ _ hr]

/-- A refused command is taken: HEAD moves over its entries. -/
theorem mbHead_turnedAway (s : State) {r : Nat} (hr : r < 2) (op : Nat) (c : Status) (addr detail : Nat) :
    (turnedAway s r op c addr detail).mbHead r = (s.mbHead r + s.mbTakes r) % 128 := by
  rw [turnedAway, State.mbHead_respondRefused _ hr, State.mbHead_takeCommand]

theorem State.mbTakes_of_short {s : State} {r : Nat} (h : s.mbHeld r < 1 + s.extAt r (s.mbHead r)) :
    s.mbTakes r = s.mbHeld r := Nat.min_eq_left (Nat.le_of_lt h)

theorem State.mbTakes_of_whole {s : State} {r : Nat} (h : 1 + s.extAt r (s.mbHead r) ≤ s.mbHeld r) :
    s.mbTakes r = 1 + s.extAt r (s.mbHead r) := Nat.min_eq_right h

/-! ### Device states that refuse every command -/

/-- The commands that the checks of the device state let through are known. -/
theorem opExt_none_ne {op : Nat} (h : opExt op = none) : op ≠ Op.devInfo ∧ op ≠ Op.stQuery ∧ op ≠ Op.faultClear := by
  refine ⟨?_, ?_, ?_⟩ <;> rintro rfl <;> exact absurd h (by decide)

/-- Outside THERMAL_LATCH, and on ring 0 outside FAULT with cause 3, the device state refuses no command. -/
theorem State.devCheck_eq_none {s : State} {r : Nat} (op : Nat) (hlatch : s.dev ≠ Dev.thermalLatch)
    (hfault : s.dev = Dev.fault → s.get R.SMC_FAULT_CAUSE = 3 → r ≠ 0) : s.devCheck r op = none := by
  have hring : (decide (s.dev = Dev.fault) && decide (s.get R.SMC_FAULT_CAUSE = 3) && decide (r = 0)) = false := by
    simpa using hfault
  simp [State.devCheck, checkAt, pickCheck, hlatch, hring]

/-- In THERMAL_LATCH, and on ring 0 in FAULT with cause 3, an unknown command is refused with STATE. -/
theorem State.devCheck_unknown {s : State} {r op : Nat} (hop : opExt op = none)
    (h : s.dev = Dev.thermalLatch ∨ (s.dev = Dev.fault ∧ s.get R.SMC_FAULT_CAUSE = 3 ∧ r = 0)) :
    ∃ a, s.devCheck r op = some (.state, a) := by
  obtain ⟨hinfo, hquery, hclear⟩ := opExt_none_ne hop
  obtain hlatch | ⟨hfault, hcause, rfl⟩ := h
  · have hnot : Dev.thermalLatch ≠ Dev.fault := by decide
    exact ⟨atReg .SMC_DEV_STATE, by simp [State.devCheck, checkAt, pickCheck, hlatch, hnot, hinfo, hquery]⟩
  · have hnot : Dev.fault ≠ Dev.thermalLatch := by decide
    exact ⟨atReg .SMC_FAULT, by simp [State.devCheck, checkAt, pickCheck, hfault, hcause, hnot, hinfo, hclear]⟩

/-! ### What is malformed -/

theorem State.malformed_of_short {s : State} {r : Nat} (h : s.mbHeld r < 1 + s.extAt r (s.mbHead r)) :
    s.malformed r = some (.length, noAddr) := if_pos h

theorem State.malformed_of_extent {s : State} {r e : Nat} (h : 1 + s.extAt r (s.mbHead r) ≤ s.mbHeld r)
    (hop : opExt (s.opAt r (s.mbHead r)) = some e) (hne : e ≠ s.extAt r (s.mbHead r)) :
    s.malformed r = some (.length, noAddr) := by
  simp [State.malformed, Nat.not_lt.2 h, hop, Ne.symm hne]

theorem State.malformed_of_unknown {s : State} {r : Nat} (h : 1 + s.extAt r (s.mbHead r) ≤ s.mbHeld r)
    (hop : opExt (s.opAt r (s.mbHead r)) = none) :
    s.malformed r = (s.devCheck r (s.opAt r (s.mbHead r))).or (some (.range, noAddr)) := by
  simp [State.malformed, Nat.not_lt.2 h, hop]

/-! ### The refusal -/

/-- A malformed command that may be considered and has room for its response is taken and refused; a refusal with LENGTH is
reported. -/
theorem exec_mailboxCommandMalformed (r : Fin 2) {s : State} {c : Status} {a : Nat} (hready : s.mbReady r = true)
    (hroom : s.mbRoom r = true) (hmal : s.malformed r = some (c, a)) :
    exec (.mailboxCommandMalformed r) s = .next (
      let t := turnedAway s r (s.opAt r (s.mbHead r)) c a 0
      if c = .length then t.raise (Ev.mbLength r) else t) := by
  change execMailboxCommandMalformed r s = _
  simp [execMailboxCommandMalformed, turnedAway, hready, hroom, hmal]

/-- A refusal with LENGTH under R520: the event of the ring is raised and HEAD moves over the entries taken. -/
theorem exec_malformed_length {r : Fin 2} {s : State} (hready : s.mbReady r = true) (hroom : s.mbRoom r = true)
    (hmal : s.malformed r = some (.length, noAddr)) :
    ∃ t, exec (.mailboxCommandMalformed r) s = .next t ∧
      t = (turnedAway s r (s.opAt r (s.mbHead r)) .length noAddr 0).raise (Ev.mbLength r) ∧
      t.get R.SMC_MB_CMD_HEAD_HEAD r = (s.mbHead r + s.mbTakes r) % 128 :=
  ⟨_, exec_mailboxCommandMalformed r hready hroom hmal, rfl, (State.mbHead_raise _ _ r.isLt).trans (mbHead_turnedAway s r.isLt ..)⟩

/-- A refusal with another status raises no event of R520. -/
theorem exec_malformed_other {r : Fin 2} {s : State} {c : Status} {a : Nat} (hready : s.mbReady r = true)
    (hroom : s.mbRoom r = true) (hc : c ≠ .length) (hmal : s.malformed r = some (c, a)) :
    ∃ t, exec (.mailboxCommandMalformed r) s = .next t ∧ t = turnedAway s r (s.opAt r (s.mbHead r)) c a 0 ∧
      t.get R.SMC_MB_CMD_HEAD_HEAD r = (s.mbHead r + s.mbTakes r) % 128 :=
  ⟨_, exec_mailboxCommandMalformed r hready hroom hmal, if_neg hc, by
    rw [if_neg hc]; exact mbHead_turnedAway s r.isLt ..⟩

/-! ### The statement -/

/-- Settles O54: by the three ways a command is malformed, the last split by the device state; HEAD moves over the entries taken. -/
theorem malformedCommands : Obligations.MalformedCommands := by
  intro r s hready hroom
  dsimp only
  have hwhole (h : 1 + s.extAt r (s.mbHead r) ≤ s.mbHeld r) :
      s.mbHead r + s.mbTakes r = s.mbHead r + 1 + s.extAt r (s.mbHead r) := by rw [State.mbTakes_of_whole h, Nat.add_assoc]
  refine ⟨fun h => ?short, fun h e hop hne => ?extent, fun h hop hlatch hfault => ?unknown, fun h hop hdev => ?state⟩
  case short =>
    rw [← State.mbTakes_of_short h]
    exact exec_malformed_length hready hroom (State.malformed_of_short h)
  case extent =>
    rw [← hwhole h]
    exact exec_malformed_length hready hroom (State.malformed_of_extent h hop hne)
  case unknown =>
    have hcheck := State.devCheck_eq_none (r := r) (s.opAt r (s.mbHead r)) hlatch fun hd hc h0 => hfault hd hc (Fin.ext h0)
    rw [← hwhole h]
    exact exec_malformed_other hready hroom (by decide) (by rw [State.malformed_of_unknown h hop, hcheck]; rfl)
  case state =>
    obtain ⟨a, hcheck⟩ := State.devCheck_unknown (r := r) hop (hdev.imp_right fun ⟨hd, hc, h0⟩ => ⟨hd, hc, congrArg Fin.val h0⟩)
    rw [← hwhole h]
    exact ⟨a, exec_malformed_other hready hroom (by decide) (by rw [State.malformed_of_unknown h hop, hcheck]; rfl)⟩

end Sys2Proof.Machine
end

section
/-! PROOFS. Every command goes on and keeps the stores, and which commands write which memory (R8, R184, R186, R209, R518, R574). -/

open Sys2Proof Sys2Proof.Stated

namespace Sys2Proof.Machine

/-- Each command keeps what its meaning keeps: a memory it is not listed for stays the same byte for byte. -/
theorem exec_keeps (c : Instr) (s : State) :
    Out.Keeps (!writesStore c) (!writesLeaves c) (!writesMailbox c) s (exec c s) := by
  cases c with
  | registerWrite w a v => exact execRegisterWrite_keeps w a v (.refl ..)
  | holdingRegisterLoRead w a t => exact execHoldingRegisterLoRead_keeps w a t (.refl ..)
  | snapshotBandLoRead w n => exact execSnapshotBandLoRead_keeps w n (.refl ..)
  | paceWindowEnd t => exact execPaceWindowEnd_keeps t (.refl ..)
  | vfitHoldEnd => exact execVfitHoldEnd_keeps (.refl ..)
  | vmaxReadbackTimeout => exact execVmaxReadbackTimeout_keeps (.refl ..)
  | vfitCtrlWrite w v => exact execVfitCtrlWrite_keeps w v (.refl ..)
  | vfitLimitsWrite w v => exact execVfitLimitsWrite_keeps w v (.refl ..)
  | pixelPacketRx l k => exact execPixelPacketRx_keeps l k (.refl ..)
  | lineTimeoutFill p => exact execLineTimeoutFill_keeps p (.refl ..)
  | capPacketRx l k => exact execCapPacketRx_keeps l k (.refl ..)
  | cfgRespRx l k => exact execCfgRespRx_keeps l k (.refl ..)
  | headEventRx l k => exact execHeadEventRx_keeps l k (.refl ..)
  | credStatusRx l held rxReturned spent initAck => exact execCredStatusRx_keeps l held rxReturned spent initAck (.refl ..)
  | trainBlockRx l phase errors t => exact execTrainBlockRx_keeps l phase errors t (.refl ..)
  | echoRx l tag turn trip => exact execEchoRx_keeps l tag turn trip (.refl ..)
  | linkCtrlRetrainRx l => exact execLinkCtrlRetrainRx_keeps l (.refl ..)
  | unknownCtrlBlockRx l kind => exact execUnknownCtrlBlockRx_keeps l kind (.refl ..)
  | laneSyncHeaderErrors l lockLost => exact execLaneSyncHeaderErrors_keeps l lockLost (.refl ..)
  | laneBlockLock l => exact execLaneBlockLock_keeps l (.refl ..)
  | discoverTimeout p => exact execDiscoverTimeout_keeps p (.refl ..)
  | discoverRetry p => exact execDiscoverRetry_keeps p (.refl ..)
  | switchTimeout p => exact execSwitchTimeout_keeps p (.refl ..)
  | prbsTestDone l errors => exact execPrbsTestDone_keeps l errors (.refl ..)
  | retrainTimeout l => exact execRetrainTimeout_keeps l (.refl ..)
  | creditBlockRefresh l => exact execCreditBlockRefresh_keeps l (.refl ..)
  | delayMeasureTimer p => exact execDelayMeasureTimer_keeps p (.refl ..)
  | hlfCtrlWrite w v => exact execHlfCtrlWrite_keeps w v (.refl ..)
  | portEnableWrite w p v => exact execPortEnableWrite_keeps w p v (.refl ..)
  | portRetrain w p v => exact execPortRetrain_keeps w p v (.refl ..)
  | headCfgRequest w v => exact execHeadCfgRequest_keeps w v (.refl ..)
  | headCfgTimeout => exact execHeadCfgTimeout_keeps (.refl ..)
  | refclkLoss => exact execRefclkLoss_keeps (.refl ..)
  | holdoverExit => exact execHoldoverExit_keeps (.refl ..)
  | tcompTick => exact execTcompTick_keeps (.refl ..)
  | tcompEnableWrite w v => exact execTcompEnableWrite_keeps w v (.refl ..)
  | encoderEdge e a b t => exact execEncoderEdge_keeps e a b t (.refl ..)
  | encoderIndexEdge e p => exact execEncoderIndexEdge_keeps e p (.refl ..)
  | lineCommit n now => exact execLineCommit_keeps n now (.refl ..)
  | lineTrigger n => exact execLineTrigger_keeps n (.refl ..)
  | hostTriggerWrite w n v => exact execHostTriggerWrite_keeps w n v (.refl ..)
  | matchArm w n v t => exact execMatchArm_keeps w n v t (.refl ..)
  | lineCondition p busy => exact execLineCondition_keeps p busy (.refl ..)
  | captureStart w v => exact execCaptureStart_keeps w v (.refl ..)
  | captureDone => exact execCaptureDone_keeps (.refl ..)
  | shadingSwapRequest w p v => exact execShadingSwapRequest_keeps w p v (.refl ..)
  | leafFadeEnd p => exact execLeafFadeEnd_keeps p (.refl ..)
  | leafWindowWrite w a v => exact execLeafWindowWrite_keeps w a v (.refl ..)
  | leafSlotWrite w l k v => exact execLeafSlotWrite_keeps w l k v (.refl ..)
  | shdTrkCtrlWrite w p v => exact execShdTrkCtrlWrite_keeps w p v (.refl ..)
  | alnMeasStart w v => exact execAlnMeasStart_keeps w v (.refl ..)
  | alnMeasDone => exact execAlnMeasDone_keeps (.refl ..)
  | dvtMeasStart w v => exact execDvtMeasStart_keeps w v (.refl ..)
  | dvtMeasDone => exact execDvtMeasDone_keeps (.refl ..)
  | dvtTimeout n => exact execDvtTimeout_keeps n (.refl ..)
  | decSwapRequest w q v => exact execDecSwapRequest_keeps w q v (.refl ..)
  | firSlotWrite w a v => exact execFirSlotWrite_keeps w a v (.refl ..)
  | productLineRead q e => exact execProductLineRead_keeps q e (.refl ..)
  | lineStore n x => exact execLineStore_keeps n x (.refl ..)
  | storeReadQueueAdvance q e => exact execStoreReadQueueAdvance_keeps q e (.refl ..)
  | rewindBackupStart n t => exact execRewindBackupStart_keeps n t (.refl ..)
  | rewindForwardRun x => exact execRewindForwardRun_keeps x (.refl ..)
  | rewindScanEntry n t => exact execRewindScanEntry_keeps n t (.refl ..)
  | rewindTimeout n => exact execRewindTimeout_keeps n (.refl ..)
  | encoderQuietTimeout n t => exact execEncoderQuietTimeout_keeps n t (.refl ..)
  | hostReaderEnable w n v => exact execHostReaderEnable_keeps w n v (.refl ..)
  | hostRewindRead w n v => exact execHostRewindRead_keeps w n v (.refl ..)
  | hostRpWrite w n hi v => exact execHostRpWrite_keeps w n hi v (.refl ..)
  | hostMarkSet w n m v => exact execHostMarkSet_keeps w n m v (.refl ..)
  | hostMarkClear w n m v => exact execHostMarkClear_keeps w n m v (.refl ..)
  | sstStoreSplitWrite w v => exact execSstStoreSplitWrite_keeps w v (.refl ..)
  | queueWrite q d fin => exact execQueueWrite_keeps q d fin (.refl ..)
  | queueRead q second ecc => exact execQueueRead_keeps q second ecc (.refl ..)
  | queueIdleTimeout q => exact execQueueIdleTimeout_keeps q (.refl ..)
  | queueStallTimeout q wr => exact execQueueStallTimeout_keeps q wr (.refl ..)
  | slabTransitArrive => exact execSlabTransitArrive_keeps (.refl ..)
  | slabAgeFail => exact execSlabAgeFail_keeps (.refl ..)
  | queueEnable w q v => exact execQueueEnable_keeps w q v (.refl ..)
  | queueDisable w q v => exact execQueueDisable_keeps w q v (.refl ..)
  | queueFlush w q => exact execQueueFlush_keeps w q (.refl ..)
  | queueAutoDisable q => exact execQueueAutoDisable_keeps q (.refl ..)
  | cellFire e c err busy => exact execCellFire_keeps e c err busy (.refl ..)
  | handshakeTimeoutFault e c => exact execHandshakeTimeoutFault_keeps e c (.refl ..)
  | seqContinue w e => exact execSeqContinue_keeps w e (.refl ..)
  | localStoreAccess w e x => exact execLocalStoreAccess_keeps w e x (.refl ..)
  | imageLoad w x => exact execImageLoad_keeps w x (.refl ..)
  | imageChecksDone o t2 => exact execImageChecksDone_keeps o t2 (.refl ..)
  | reloadCopyDone => exact execReloadCopyDone_keeps (.refl ..)
  | reloadCancel w v => exact execReloadCancel_keeps w v (.refl ..)
  | sealAttempt n t => exact execSealAttempt_keeps n t (.refl ..)
  | sealThaw w n v t => exact execSealThaw_keeps w n v t (.refl ..)
  | freezeTimeout n => exact execFreezeTimeout_keeps n (.refl ..)
  | kruPortTrainDone pt lock ver tr => exact execKruPortTrainDone_keeps pt lock ver tr (.refl ..)
  | kruPortRetry pt => exact execKruPortRetry_keeps pt (.refl ..)
  | authFrameRx l k m => exact execAuthFrameRx_keeps l k m (.refl ..)
  | discoverFrameRx l k foreign => exact execDiscoverFrameRx_keeps l k foreign (.refl ..)
  | rosterFrameRx l k => exact execRosterFrameRx_keeps l k (.refl ..)
  | formedFrameRx l k => exact execFormedFrameRx_keeps l k (.refl ..)
  | timeSendTimer t => exact execTimeSendTimer_keeps t (.refl ..)
  | timeFrameRx l k t resid => exact execTimeFrameRx_keeps l k t resid (.refl ..)
  | alignReqRx l k => exact execAlignReqRx_keeps l k (.refl ..)
  | alignAckRx l k t => exact execAlignAckRx_keeps l k t (.refl ..)
  | alignLatch n => exact execAlignLatch_keeps n (.refl ..)
  | alignSetRx l k t => exact execAlignSetRx_keeps l k t (.refl ..)
  | alignAckTimeout n => exact execAlignAckTimeout_keeps n (.refl ..)
  | alignSetTimeout n => exact execAlignSetTimeout_keeps n (.refl ..)
  | tokenFrameRx l k t => exact execTokenFrameRx_keeps l k t (.refl ..)
  | tokenTimeout n => exact execTokenTimeout_keeps n (.refl ..)
  | hingeFrameRx l k => exact execHingeFrameRx_keeps l k (.refl ..)
  | dovetailFrameRx l k => exact execDovetailFrameRx_keeps l k (.refl ..)
  | kelimCredStatusRx l held rxReturned spent initAck => exact execKelimCredStatusRx_keeps l held rxReturned spent initAck (.refl ..)
  | kruPortDead pt => exact execKruPortDead_keeps pt (.refl ..)
  | foldFrameRx l k => exact execFoldFrameRx_keeps l k (.refl ..)
  | foldFormedTimer t => exact execFoldFormedTimer_keeps t (.refl ..)
  | ringReformTimeout => exact execRingReformTimeout_keeps (.refl ..)
  | kruCfgWrite w v => exact execKruCfgWrite_keeps w v (.refl ..)
  | streamEnable w c v => exact execStreamEnable_keeps w c v (.refl ..)
  | streamDisable w c v => exact execStreamDisable_keeps w c v (.refl ..)
  | hqEntryEnable w j v => exact execHqEntryEnable_keeps w j v (.refl ..)
  | dmaTailWrite w c v => exact execDmaTailWrite_keeps w c v (.refl ..)
  | releaseChunk c d => exact execReleaseChunk_keeps c d (.refl ..)
  | descriptorReadError c timeout => exact execDescriptorReadError_keeps c timeout (.refl ..)
  | datagramSend c t => exact execDatagramSend_keeps c t (.refl ..)
  | pauseFrameRx pn quanta => exact execPauseFrameRx_keeps pn quanta (.refl ..)
  | ethFrameDiscard pn => exact execEthFrameDiscard_keeps pn (.refl ..)
  | ethLinkChange pn up fecLock corr uncorr => exact execEthLinkChange_keeps pn up fecLock corr uncorr (.refl ..)
  | ethPortConfigWrite w pn k v => exact execEthPortConfigWrite_keeps w pn k v (.refl ..)
  | ptpMessageRx pn dest domain m => exact execPtpMessageRx_keeps pn dest domain m (.refl ..)
  | ptpSyncTimeout => exact execPtpSyncTimeout_keeps (.refl ..)
  | pf0Flr => exact execPf0Flr_keeps (.refl ..)
  | pf0D3hotEntry => exact execPf0D3hotEntry_keeps (.refl ..)
  | pcieLinkLoss => exact execPcieLinkLoss_keeps (.refl ..)
  | bar0BadAccess w a => exact execBar0BadAccess_keeps w a (.refl ..)
  | bar2Read a x => exact execBar2Read_keeps a x (.refl ..)
  | bar2Write a => exact execBar2Write_keeps a (.refl ..)
  | msixMessage f v t => exact execMsixMessage_keeps f v t (.refl ..)
  | msixUnmask f v x => exact execMsixUnmask_keeps f v x (.refl ..)
  | spdmRequest tr v r busy => exact execSpdmRequest_keeps tr v r busy (.refl ..)
  | stringObservation c cur mv => exact execStringObservation_keeps c cur mv (.refl ..)
  | stringOvercurrent c => exact execStringOvercurrent_keeps c (.refl ..)
  | diagPulse g => exact execDiagPulse_keeps g (.refl ..)
  | patternWindowWrite w j o v => exact execPatternWindowWrite_keeps w j o v (.refl ..)
  | patternSwapRequest w g v => exact execPatternSwapRequest_keeps w g v (.refl ..)
  | forceOffWrite w g v => exact execForceOffWrite_keeps w g v (.refl ..)
  | ilcTcompEnable w g v => exact execIlcTcompEnable_keeps w g v (.refl ..)
  | stringFaultClear w c v => exact execStringFaultClear_keeps w c v (.refl ..)
  | mfeRefEnable w v => exact execMfeRefEnable_keeps w v (.refl ..)
  | mfeRefReady => exact execMfeRefReady_keeps (.refl ..)
  | mfeSeqEnable w v => exact execMfeSeqEnable_keeps w v (.refl ..)
  | mfeFrameStart => exact execMfeFrameStart_keeps (.refl ..)
  | mfeEntrySample ab bc => exact execMfeEntrySample_keeps ab bc (.refl ..)
  | mfeUrgentRequest w v => exact execMfeUrgentRequest_keeps w v (.refl ..)
  | mfeBackgroundCal ground ref => exact execMfeBackgroundCal_keeps ground ref (.refl ..)
  | mfeChainSync w v => exact execMfeChainSync_keeps w v (.refl ..)
  | mfeOpenClear w e v => exact execMfeOpenClear_keeps w e v (.refl ..)
  | mfeExcWrite w e v => exact execMfeExcWrite_keeps w e v (.refl ..)
  | mfeAccSumLoRead w e => exact execMfeAccSumLoRead_keeps w e (.refl ..)
  | mfeResRead w e => exact execMfeResRead_keeps w e (.refl ..)
  | mfeLeafSwapRequest w c v => exact execMfeLeafSwapRequest_keeps w c v (.refl ..)
  | mfeLeafWindowWrite w a v => exact execMfeLeafWindowWrite_keeps w a v (.refl ..)
  | mfeOutEnable w o v => exact execMfeOutEnable_keeps w o v (.refl ..)
  | mfeOutPeriodEnd o => exact execMfeOutPeriodEnd_keeps o (.refl ..)
  | motionCycle => exact execMotionCycle_keeps (.refl ..)
  | driverStatusRx a f => exact execDriverStatusRx_keeps a f (.refl ..)
  | motionLinkLoss a => exact execMotionLinkLoss_keeps a (.refl ..)
  | axisEnable w a v => exact execAxisEnable_keeps w a v (.refl ..)
  | axisStop w a => exact execAxisStop_keeps w a (.refl ..)
  | axisMove w a => exact execAxisMove_keeps w a (.refl ..)
  | axisVel w a => exact execAxisVel_keeps w a (.refl ..)
  | axisEstop w a => exact execAxisEstop_keeps w a (.refl ..)
  | linearMove w v => exact execLinearMove_keeps w v (.refl ..)
  | axisSettleDone a t => exact execAxisSettleDone_keeps a t (.refl ..)
  | axisHoldTimeout a => exact execAxisHoldTimeout_keeps a (.refl ..)
  | axisFaultClear w a v => exact execAxisFaultClear_keeps w a v (.refl ..)
  | microstepTableWrite w k v => exact execMicrostepTableWrite_keeps w k v (.refl ..)
  | thmSweep r => exact execThmSweep_keeps r (.refl ..)
  | thmLevelStep => exact execThmLevelStep_keeps (.refl ..)
  | thmRefTrim => exact execThmRefTrim_keeps (.refl ..)
  | thmThresholdWrite w k v => exact execThmThresholdWrite_keeps w k v (.refl ..)
  | roWindowEnd k count => exact execRoWindowEnd_keeps k count (.refl ..)
  | pmbusReadbackPoll mv => exact execPmbusReadbackPoll_keeps mv (.refl ..)
  | pmbusTransactionFail => exact execPmbusTransactionFail_keeps (.refl ..)
  | pmbusAlert word => exact execPmbusAlert_keeps word (.refl ..)
  | headMeasurementRead p ended => exact execHeadMeasurementRead_keeps p ended (.refl ..)
  | mailboxTailWrite w r v => exact execMailboxTailWrite_keeps w r v (.refl ..)
  | mailboxRspHeadWrite w r v => exact execMailboxRspHeadWrite_keeps w r v (.refl ..)
  | mailboxCommandMalformed r => exact execMailboxCommandMalformed_keeps r (.refl ..)
  | devInfo r => exact execDevInfo_keeps r (.refl ..)
  | faultClear r answers => exact execFaultClear_keeps r answers (.refl ..)
  | devReset r => exact execDevReset_keeps r (.refl ..)
  | devResetEntry => exact execDevResetEntry_keeps (.refl ..)
  | stDefine r => exact execStDefine_keeps r (.refl ..)
  | stArm r t t2 west => exact execStArm_keeps r t t2 west (.refl ..)
  | stStart x => exact execStStart_keeps x (.refl ..)
  | stPause r t => exact execStPause_keeps r t (.refl ..)
  | stResume r => exact execStResume_keeps r (.refl ..)
  | stDrain x => exact execStDrain_keeps x (.refl ..)
  | stAbort r => exact execStAbort_keeps r (.refl ..)
  | stStage r t2 => exact execStStage_keeps r t2 (.refl ..)
  | stQuery r => exact execStQuery_keeps r (.refl ..)
  | worldSet r => exact execWorldSet_keeps r (.refl ..)
  | ownerEnroll r key => exact execOwnerEnroll_keeps r key (.refl ..)
  | ownerEnrollDone dig kekOk => exact execOwnerEnrollDone_keeps dig kekOk (.refl ..)
  | svnCommit r => exact execSvnCommit_keeps r (.refl ..)
  | flashWrite r => exact execFlashWrite_keeps r (.refl ..)
  | flashWriteDone data same => exact execFlashWriteDone_keeps data same (.refl ..)
  | workbenchTimeout => exact execWorkbenchTimeout_keeps (.refl ..)
  | porAssert => exact execPorAssert_keeps (.refl ..)
  | resetExit => exact execResetExit_keeps (.refl ..)
  | perstAssert => exact execPerstAssert_keeps (.refl ..)
  | cabinetVerifyDone a b policy mode flash ms => exact execCabinetVerifyDone_keeps a b policy mode flash ms (.refl ..)
  | bootVcoreTimeout => exact execBootVcoreTimeout_keeps (.refl ..)
  | hbmTrainingDone ok ms => exact execHbmTrainingDone_keeps ok ms (.refl ..)
  | workbenchCheckDone o ms => exact execWorkbenchCheckDone_keeps o ms (.refl ..)
  | vcoreRemoved => exact execVcoreRemoved_keeps (.refl ..)
  | serdesRefclkLoss q => exact execSerdesRefclkLoss_keeps q (.refl ..)
  | padSlewWrite w v => exact execPadSlewWrite_keeps w v (.refl ..)
  | sealLatencyExceeded n t => exact execSealLatencyExceeded_keeps n t (.refl ..)
  | managementSramUncorrectable => exact execManagementSramUncorrectable_keeps (.refl ..)
  | timebaseLock => exact execTimebaseLock_keeps (.refl ..)
  | perstRelease => exact execPerstRelease_keeps (.refl ..)
  | pcieLinkUp speed width => exact execPcieLinkUp_keeps speed width (.refl ..)
  | pauseTimeExpiry pn => exact execPauseTimeExpiry_keeps pn (.refl ..)

/-- A command answers a next state that keeps what its meaning keeps. -/
theorem exec_next_keeps (c : Instr) (s : State) :
    ∃ t, exec c s = .next t ∧ Keeps (!writesStore c) (!writesLeaves c) (!writesMailbox c) s t := by
  have h := exec_keeps c s
  cases he : exec c s with
  | next t => exact ⟨t, rfl, by rwa [he] at h⟩
  | fault r | refused r => rw [he] at h; exact h.elim

/-- The next state of a command keeps what its meaning keeps. -/
theorem keeps_of_exec {c : Instr} {s t : State} (h : exec c s = .next t) :
    Keeps (!writesStore c) (!writesLeaves c) (!writesMailbox c) s t := by
  have hk := exec_keeps c s
  rwa [h] at hk

/-- A step with a command waiting runs it. -/
theorem step_cons {s : State} {c : Instr} {rest : List Instr} (h : s.pending = c :: rest) :
    step s = exec c { s with pending := rest } := by
  unfold step
  rw [h]

/-- With no command waiting the device idles. -/
theorem step_nil {s : State} (h : s.pending = []) : step s = .next s := by
  unfold step
  rw [h]

/-- Settles O1: the two cases of a step. -/
theorem stepRunsTheFrontCommand : Obligations.StepRunsTheFrontCommand :=
  ⟨fun _ _ _ h => step_cons h, fun _ h => step_nil h⟩

/-- Settles O4: a step runs the command in front, and each command keeps the queue, what has been sent and the free values. -/
theorem everyStepGoesOn : Obligations.EveryStepGoesOn := by
  intro s c rest h
  obtain ⟨t, ht, hk⟩ := exec_next_keeps c { s with pending := rest }
  exact ⟨t, (step_cons h).trans ht, hk.pending, hk.out, hk.fresh⟩

/-- Settles O5: an idle step changes nothing, and every command keeps the canonical forms. -/
theorem everyStepKeepsTheStores : Obligations.EveryStepKeepsTheStores := by
  rintro s t ⟨hhbm, hleaf, hmbox⟩ hregs h
  cases hp : s.pending with
  | nil =>
    obtain rfl : s = t := by simpa [step_nil hp] using h
    exact ⟨⟨hhbm, hleaf, hmbox⟩, hregs⟩
  | cons c rest =>
    have hk := keeps_of_exec ((step_cons hp).symm.trans h)
    exact ⟨⟨hk.hbm hhbm, hk.leaf hleaf, hk.mbox hmbox⟩, hk.regs hregs⟩

/-- Settles O6: a command keeps each memory that it is not listed as writing. -/
theorem whoWritesMemory : Obligations.WhoWritesMemory :=
  ⟨fun _ _ _ hc h => (keeps_of_exec h).hbmSame (by simp [hc]), fun _ _ _ hc h => (keeps_of_exec h).leafSame (by simp [hc]),
    fun _ _ _ hc h => (keeps_of_exec h).mboxSame (by simp [hc])⟩

/-- A memory with nothing written reads blank. -/
theorem Memory.byte_nil (a : Nat) : Memory.byte [] a = 0 := rfl

/-- Settles O2: the register store and the memories of the reset state are empty, so each read gives the reset value. -/
theorem resetValues : Obligations.ResetValues :=
  ⟨fun _ _ _ => rfl, rfl, rfl, fun a => ⟨Memory.byte_nil a, Memory.byte_nil a, Memory.byte_nil a⟩⟩

/-- Settles O3: empty stores have the canonical form. -/
theorem resetIsCanonical : Obligations.ResetIsCanonical := ⟨⟨Memory.wf_nil, Memory.wf_nil, Memory.wf_nil⟩, rfl⟩

end Sys2Proof.Machine
end

section
/-! PROOFS. Host writes that are discarded: those of the wrong world, and those outside the SMC block during boot (R497, R538, R549,
R576). -/

open Sys2Proof Sys2Proof.Stated

namespace Sys2Proof.Machine

/-! ### The register table -/

/-- A register of the table is the one that its name describes. -/
theorem regTable_desc : ∀ r ∈ regTable, r.id.desc? = some r := by decide +kernel

theorem RegId.addr_of_desc {id : RegId} {r : Reg} (h : id.desc? = some r) (i j : Nat) : id.addr i j = r.addr i j := by
  simp [RegId.addr, h]

/-- The element that an address names stands at that address. -/
theorem Reg.addr_of_index {r : Reg} {a i j : Nat} (h : r.index? a = some (i, j)) : r.addr i j = a := by
  unfold Reg.index? at h
  split at h
  · cases h
  next hbase =>
    simp only [Option.ite_none_right_eq_some, Option.some.injEq] at h
    obtain ⟨⟨-, -, hzero⟩, he⟩ := h
    injection he with hi hj
    have hsplit := Nat.div_add_mod (a - r.base) r.s1
    have hsplit2 := Nat.div_add_mod (a - r.base) r.s2
    have hsplit3 := Nat.div_add_mod ((a - r.base) % r.s1) r.s2
    unfold Reg.addr
    by_cases h1 : r.s1 = 0 <;> by_cases h2 : r.s2 = 0 <;> simp only [h1, h2, if_true, if_false, Nat.zero_mul, Nat.add_zero] at hzero hi hj ⊢ <;>
      subst hi hj <;> omega

/-- A register found at an address is in the table, and the address is that of the element found. -/
theorem findReg_some {a i j : Nat} {r : Reg} (h : findReg a = some (r, i, j)) : r ∈ regTable ∧ r.addr i j = a := by
  obtain ⟨g, hg, hm⟩ := List.exists_of_findSome?_eq_some h
  obtain ⟨⟨k, l⟩, hx, he⟩ := Option.map_eq_some_iff.1 hm
  cases he
  exact ⟨hg, Reg.addr_of_index hx⟩

/-- The registers of the streams have one index. -/
theorem regTable_streams : ∀ r ∈ regTable, 0x1D06000 ≤ r.base → r.base < 0x1D07000 → r.s2 = 0 := by decide +kernel

/-! ### What is discarded -/

/-- What is left of a discarded write of world `w` to address `a`: the cross-world access, or the count under STATE. `rws` says that
the target is a register outside the SMC block with RWS fields. -/
structure DiscardsWrite (o : Out) (w : World) (a : Nat) (rws : Bool) (s : State) : Prop where
  wrongWorld : w ≠ .secure → s.held = false → s.addrWorld a = .secure →
    o = .next ((s.crossWorld (xwSource w) true a).countRefused w .world)
  boot : 0x100000 ≤ a → s.held = false → s.booted = false → (w = .secure ∨ (s.addrWorld a = .nonSecure ∧ rws = false)) →
    o = .next (s.countRefused w .state)
  bootRws : w ≠ .secure → 0x100000 ≤ a → s.held = false → s.booted = false → rws = true →
    o = .next ((s.crossWorld (xwSource w) true a).countRefused w .world)

theorem State.bootHeld_of_boot {s : State} {a : Nat} (ha : 0x100000 ≤ a) (hb : s.booted = false) : s.bootHeld a = true := by
  simp [State.bootHeld, ha, hb]

/-- A target in the SMC block is open during boot (R549). -/
theorem DiscardsWrite.of_smc {o : Out} {w : World} {a : Nat} {rws : Bool} {s : State} (ha : a < 0x100000)
    (h : w ≠ .secure → s.held = false → s.addrWorld a = .secure →
      o = .next ((s.crossWorld (xwSource w) true a).countRefused w .world)) : DiscardsWrite o w a rws s :=
  ⟨h, fun hle => absurd ha (Nat.not_lt.2 hle), fun _ hle => absurd ha (Nat.not_lt.2 hle)⟩

section
variable {s : State} {w : World} {id : RegId} {i j : Nat} {check : Option Status} {last : Option Fld} {li : Nat}
  {act : Reg → State → State}

theorem State.hostWrite_wrongWorld (hid : id.desc?.isSome = true) (hw : w ≠ .secure) (hheld : s.held = false)
    (ha : s.addrWorld (id.addr i j) = .secure) :
    s.hostWrite w id i j check last li act = (s.crossWorld (xwSource w) true (id.addr i j)).countRefused w .world := by
  obtain ⟨r, hr⟩ := Option.isSome_iff_exists.1 hid
  rw [RegId.addr_of_desc hr] at ha ⊢
  simp [State.hostWrite, hr, hheld, hw, ha]

/-- A register outside the SMC block is closed during boot; one with RWS fields counts as cross-world. -/
theorem State.hostWrite_discards {rws : Bool} (hid : id.desc?.map Reg.hasRws = some rws) :
    DiscardsWrite (.next (s.hostWrite w id i j check last li act)) w (id.addr i j) rws s := by
  obtain ⟨r, hr, hrws⟩ := Option.map_eq_some_iff.1 hid
  refine ⟨fun hw hheld ha => by rw [State.hostWrite_wrongWorld (by simp [hr]) hw hheld ha], ?_, ?_⟩ <;>
    rw [RegId.addr_of_desc hr]
  · rintro hle hheld hb (rfl | ⟨hns, hr0⟩)
    · simp [State.hostWrite, hr, hheld, State.bootHeld_of_boot hle hb]
    · simp [State.hostWrite, hr, hheld, State.bootHeld_of_boot hle hb, hns, hrws, hr0]
  · intro hw hle hheld hb hr1
    simp [State.hostWrite, hr, hheld, State.bootHeld_of_boot hle hb, hw, hrws, hr1]

theorem State.hostWrite_plain (hid : id.desc?.map Reg.hasRws = some false) :
    DiscardsWrite (.next (s.hostWrite w id i j check last li act)) w (id.addr i j) false s :=
  State.hostWrite_discards hid

theorem State.hostWrite_discards_smc {rws : Bool} (hid : id.desc?.isSome = true) (ha : id.addr i j < 0x100000) :
    DiscardsWrite (.next (s.hostWrite w id i j check last li act)) w (id.addr i j) rws s :=
  .of_smc ha fun hw hheld haw => congrArg _ (State.hostWrite_wrongWorld hid hw hheld haw)

end

/-- A word of a window holds no RWS fields. -/
theorem State.windowWrite_discards {s : State} {w : World} {a : Nat} {check : Option Status} {refused act : State → State} :
    DiscardsWrite (.next (s.windowWrite w a check refused act)) w a false s where
  wrongWorld hw hheld ha := by simp [State.windowWrite, hheld, hw, ha]
  boot hle hheld hb hor := by
    have hopen : ¬ (w ≠ .secure ∧ s.addrWorld a = .secure) := by
      rintro ⟨hw, ha⟩
      obtain rfl | ⟨hns, -⟩ := hor
      · exact hw rfl
      · cases hns.symm.trans ha
    simp [State.windowWrite, hheld, hopen, State.bootHeld_of_boot hle hb]
  bootRws _ _ _ _ h := nomatch h

/-- A discarded write of a stream's register is not reported in the stream. -/
theorem DiscardsWrite.streamRefused {t s : State} {w : World} {a : Nat} {rws : Bool} (h : DiscardsWrite (.next t) w a rws s)
    (c : Nat) (check : Option Status) : DiscardsWrite (.next (t.streamRefused s w a c check)) w a rws s := by
  have hkeep (hd : s.bootHeld a = true ∨ (w ≠ .secure ∧ s.addrWorld a = .secure)) : t.streamRefused s w a c check = t := by
    cases check with
    | none => rfl
    | some st => exact if_pos (.inr hd)
  exact ⟨fun hw hheld ha => by rw [hkeep (.inr ⟨hw, ha⟩), h.wrongWorld hw hheld ha],
    fun hle hheld hb hor => by rw [hkeep (.inl (State.bootHeld_of_boot hle hb)), h.boot hle hheld hb hor],
    fun hw hle hheld hb hr => by rw [hkeep (.inl (State.bootHeld_of_boot hle hb)), h.bootRws hw hle hheld hb hr]⟩

/-- A register that an address names, written at that address. -/
theorem State.regWrite_discards {s : State} {w : World} {r : Reg} {i j x : Nat} (hr : r ∈ regTable) :
    DiscardsWrite (.next (s.regWrite w r i j x)) w (r.addr i j) r.hasRws s := by
  have hd := regTable_desc r hr
  have hrow := State.hostWrite_discards (s := s) (w := w) (i := i) (j := j) (check := s.writeCheck w r i j x)
    (last := (lastStatusOf r i).1) (li := (lastStatusOf r i).2)
    (act := fun r s => (s.writeParts w r i j (s.effectiveWord w r i x)).afterWrite s r i x) (congrArg (Option.map Reg.hasRws) hd)
  rw [RegId.addr_of_desc hd] at hrow
  unfold State.regWrite
  by_cases hst : 0x1D06000 ≤ r.base ∧ r.base < 0x1D07000
  · have haddr : r.id.addr i 0 = r.addr i j := by
      rw [RegId.addr_of_desc hd, Reg.addr, Reg.addr, regTable_streams r hr hst.1 hst.2, Nat.zero_mul, Nat.zero_mul]
    simp only [hst, and_self, if_true, haddr]
    exact hrow.streamRefused ..
  · simp only [hst, if_false]
    exact hrow

/-- A register write of the control space; its target is a mailbox entry or the register found there. -/
theorem State.controlWrite_discards {s : State} {w : World} {a x : Nat}
    (h : (0x10000 ≤ a ∧ a < 0x18000) ∨ (findReg a).isSome = true) :
    DiscardsWrite (.next (s.controlWrite w a x)) w a ((findReg a).any fun g => g.1.hasRws) s := by
  unfold State.controlWrite
  by_cases hmb : 0x10000 ≤ a ∧ a < 0x18000
  · rw [if_pos hmb]
    exact .of_smc (by omega) fun hw hheld ha => State.windowWrite_discards.wrongWorld hw hheld ha
  · rw [if_neg hmb]
    obtain ⟨⟨r, i, j⟩, hf⟩ := Option.isSome_iff_exists.1 (h.resolve_left hmb)
    obtain ⟨hr, ha⟩ := findReg_some hf
    rw [hf, ← ha]
    exact State.regWrite_discards hr

/-! ### The rows -/

theorem State.hostCtrl_discards (s : State) (w : World) (n v : Nat) :
    DiscardsWrite (.next (s.hostCtrl w n v)) w (RegId.addr .SST_ST_HOST_CTRL n) false s := by
  unfold State.hostCtrl
  exact State.hostWrite_plain (by decide +kernel)

theorem State.hostMark_discards (s : State) (w : World) (n m v : Nat) :
    DiscardsWrite (.next (s.hostMark w n m v)) w (RegId.addr .SST_ST_MARK_HI n m) false s := by
  unfold State.hostMark
  exact State.hostWrite_plain (by decide +kernel)

theorem State.mfeCtrl_discards (s : State) (w : World) (v : Nat) :
    DiscardsWrite (.next (s.mfeCtrl w v)) w (RegId.addr .MFE_CTRL) false s := by
  unfold State.mfeCtrl
  exact State.hostWrite_plain (by decide +kernel)

theorem State.axisCmd_discards (s : State) (w : World) (a op : Nat) (own : List (Option Status)) (act : State → State) :
    DiscardsWrite (.next (s.axisCmd w a op own act)) w (RegId.addr .TTC_AX_CMD a) false s := by
  unfold State.axisCmd
  exact State.hostWrite_plain (by decide +kernel)

theorem execLeafSlotWrite_discards (w : World) (l : Fin 256) (k : Fin 3) (v : BitVec 32) (s : State) :
    DiscardsWrite (execLeafSlotWrite w l k v s) w ((leafReg k).addr l) false s := by
  obtain ⟨r, hr⟩ : ∃ r, (leafReg k).desc? = some r := Option.isSome_iff_exists.1 (by revert k; decide +kernel)
  rw [RegId.addr_of_desc hr]
  unfold leafReg at hr
  simp only [execLeafSlotWrite, hr]
  exact State.windowWrite_discards

/-- Every host write row of one register or window word discards what its world or the boot forbids. -/
theorem exec_discards {c : Instr} {w : World} {a : Nat} (h : target c = some (w, a)) (s : State) :
    DiscardsWrite (exec c s) w a (hasSecureFields c) s := by
  cases c with
  | hlfCtrlWrite | portEnableWrite | portRetrain | headCfgRequest | tcompEnableWrite | hostTriggerWrite | matchArm
  | captureStart | shadingSwapRequest | shdTrkCtrlWrite | alnMeasStart | dvtMeasStart | decSwapRequest | sstStoreSplitWrite
  | queueEnable | queueDisable | queueFlush | seqContinue | imageLoad | reloadCancel | sealThaw | kruCfgWrite | hqEntryEnable
  | patternSwapRequest | forceOffWrite | ilcTcompEnable | stringFaultClear | mfeUrgentRequest | mfeChainSync | mfeOpenClear
  | mfeExcWrite | mfeLeafSwapRequest | mfeOutEnable | axisEnable | linearMove | axisFaultClear =>
    cases h
    refine State.hostWrite_plain ?_
    decide +kernel
  | leafWindowWrite | firSlotWrite | patternWindowWrite | mfeLeafWindowWrite | microstepTableWrite =>
    cases h
    exact State.windowWrite_discards
  | mailboxTailWrite w r v =>
    cases h
    exact State.hostWrite_discards_smc (by decide +kernel) (by revert r; decide +kernel)
  | mailboxRspHeadWrite w r v =>
    cases h
    exact State.hostWrite_discards_smc (by decide +kernel) (by revert r; decide +kernel)
  | padSlewWrite w v =>
    cases h
    exact State.hostWrite_discards_smc (by decide +kernel) (by decide +kernel)
  | vfitCtrlWrite w v | vfitLimitsWrite w v =>
    cases h
    refine .of_smc (by decide +kernel) fun hw hheld ha => ?_
    refine (if_neg fun hbad => hw hbad.1).trans ?_
    exact congrArg _ (State.hostWrite_wrongWorld (by decide +kernel) hw hheld ha)
  | hostReaderEnable w n v | hostRewindRead w n v => cases h; exact State.hostCtrl_discards ..
  | hostMarkSet w n m v | hostMarkClear w n m v => cases h; exact State.hostMark_discards ..
  | mfeRefEnable w v | mfeSeqEnable w v => cases h; exact State.mfeCtrl_discards ..
  | axisStop w a | axisMove w a | axisVel w a | axisEstop w a => cases h; exact State.axisCmd_discards ..
  | leafSlotWrite w l k v =>
    cases h
    exact execLeafSlotWrite_discards ..
  | hostRpWrite w n hi v =>
    cases h
    cases hi <;> exact State.hostWrite_plain (by decide +kernel)
  | localStoreAccess w e x =>
    obtain ⟨value, err⟩ := x
    cases value with
    | none => cases h
    | some v =>
      cases h
      exact State.hostWrite_plain (by decide +kernel)
  | ethPortConfigWrite w p k v =>
    cases h
    exact State.hostWrite_plain (by revert k; decide +kernel)
  | thmThresholdWrite w k v =>
    cases h
    exact State.hostWrite_discards (rws := true) (by revert k; decide +kernel)
  | streamEnable w c v | streamDisable w c v | dmaTailWrite w c v =>
    cases h
    exact DiscardsWrite.streamRefused (State.hostWrite_plain (by decide +kernel)) ..
  | registerWrite w a v =>
    obtain ⟨ht, he⟩ := Option.ite_none_right_eq_some.1 h
    cases he
    exact State.controlWrite_discards ht
  | _ => cases h

/-- Settles O7: each row writes through a host write or a window write, which discard before they act. -/
theorem discardedWrites : Obligations.DiscardedWrites :=
  ⟨fun _ _ _ s ht hw hheld ha => (exec_discards ht s).wrongWorld hw hheld ha,
    fun _ _ _ s ht hle hheld hb hor => (exec_discards ht s).boot hle hheld hb hor,
    fun _ _ _ s ht hw hle hheld hb hr => (exec_discards ht s).bootRws hw hle hheld hb hr⟩

end Sys2Proof.Machine
end

section
/-! PROOFS. Register fields apart from each other, events and interrupt messages (R392 to R395). -/

open Sys2Proof Sys2Proof.Stated

namespace Sys2Proof.Machine

/-! ### Events -/

theorem State.owe_regs (s : State) (n : Nat) : (s.owe n).regs = s.regs := by
  unfold State.owe
  dsimp only
  split <;> rfl

@[simp] theorem State.owe_get (s : State) (n : Nat) (f : Fld) (i j : Nat) : (s.owe n).get f i j = s.get f i j :=
  State.get_congr (s.owe_regs n) f i j

theorem State.owe_due (s : State) (n : Nat) : (s.owe n).due.contains (s.vectorOf n) = true := by
  unfold State.owe
  dsimp only
  split
  · assumption
  · simp

/-- The word of the summary that shows group `g`. -/
def sumField (g : Nat) : Fld := if g < 32 then R.HIF_EVT_SUM_LO_GROUPS else R.HIF_EVT_SUM_HI_GROUPS

theorem State.syncSum_eq (s : State) (g : Nat) : s.syncSum g =
    s.set (sumField g) (if decide (s.get R.HIF_EVT_PEND_PEND g &&& s.get R.HIF_EVT_EN_EN g ≠ 0) then s.get (sumField g) ||| 2 ^ (g % 32)
      else s.get (sumField g) - (s.get (sumField g) &&& 2 ^ (g % 32))) := rfl

theorem sumField_key (g : Nat) : (sumField g).key 0 0 = R.HIF_EVT_SUM_LO_GROUPS.key 0 0 ∨ (sumField g).key 0 0 = R.HIF_EVT_SUM_HI_GROUPS.key 0 0 := by
  unfold sumField
  split
  · exact .inl rfl
  · exact .inr rfl

theorem State.get_syncSum_ne (s : State) (g : Nat) (f : Fld) (i j : Nat) (hlo : f.key i j ≠ R.HIF_EVT_SUM_LO_GROUPS.key 0 0)
    (hhi : f.key i j ≠ R.HIF_EVT_SUM_HI_GROUPS.key 0 0) : (s.syncSum g).get f i j = s.get f i j := by
  rw [State.syncSum_eq]
  refine State.get_set_ne _ _ _ _ _ _ _ _ fun h => ?_
  obtain hk | hk := sumField_key g
  · exact hlo (h.trans hk)
  · exact hhi (h.trans hk)

/-- Group words stand apart from the summary. -/
theorem pend_key_ne_sum {g : Nat} (hg : g < 48) : R.HIF_EVT_PEND_PEND.key g 0 ≠ R.HIF_EVT_SUM_LO_GROUPS.key 0 0 ∧
    R.HIF_EVT_PEND_PEND.key g 0 ≠ R.HIF_EVT_SUM_HI_GROUPS.key 0 0 := by
  simp only [Fld.key, R.HIF_EVT_PEND_PEND, R.HIF_EVT_SUM_LO_GROUPS, R.HIF_EVT_SUM_HI_GROUPS]
  omega

theorem en_key_ne_sum {g : Nat} (hg : g < 48) : R.HIF_EVT_EN_EN.key g 0 ≠ R.HIF_EVT_SUM_LO_GROUPS.key 0 0 ∧
    R.HIF_EVT_EN_EN.key g 0 ≠ R.HIF_EVT_SUM_HI_GROUPS.key 0 0 := by
  simp only [Fld.key, R.HIF_EVT_EN_EN, R.HIF_EVT_SUM_LO_GROUPS, R.HIF_EVT_SUM_HI_GROUPS]
  omega

theorem State.get_syncSum_pend (s : State) (g : Nat) {h : Nat} (hh : h < 48) :
    (s.syncSum g).get R.HIF_EVT_PEND_PEND h = s.get R.HIF_EVT_PEND_PEND h :=
  s.get_syncSum_ne g _ _ _ (pend_key_ne_sum hh).1 (pend_key_ne_sum hh).2

theorem State.get_syncSum_en (s : State) (g : Nat) {h : Nat} (hh : h < 48) :
    (s.syncSum g).get R.HIF_EVT_EN_EN h = s.get R.HIF_EVT_EN_EN h :=
  s.get_syncSum_ne g _ _ _ (en_key_ne_sum hh).1 (en_key_ne_sum hh).2

/-- A group's summary bit shows whether it holds a pending, enabled source (R393). -/
theorem State.bit_syncSum (s : State) {g : Nat} (hg : g < 48) :
    bit ((s.syncSum g).get (sumField g)) (g % 32) = decide (s.get R.HIF_EVT_PEND_PEND g &&& s.get R.HIF_EVT_EN_EN g ≠ 0) := by
  have hwidth : g % 32 < (sumField g).width := by
    unfold sumField
    split
    · exact Nat.mod_lt _ (by decide)
    · change g % 32 < 16
      omega
  rw [State.syncSum_eq, State.get_set_self, bit, Nat.testBit_mod_two_pow]
  cases decide (s.get R.HIF_EVT_PEND_PEND g &&& s.get R.HIF_EVT_EN_EN g ≠ 0) with
  | true => simp [hwidth]
  | false => simp [hwidth, testBit_sub_and]

/-- The state of the group words when a source has been raised, before its message is owed. -/
def State.pended (s : State) (n : Nat) : State :=
  (s.set R.HIF_EVT_PEND_PEND (s.get R.HIF_EVT_PEND_PEND (n / 32) ||| 2 ^ (n % 32)) (n / 32)).syncSum (n / 32)

/-- The bit `k` of a number by itself. -/
theorem and_bit_eq (m k : Nat) : m &&& 2 ^ k = (m.testBit k).toNat * 2 ^ k := by
  apply Nat.eq_of_testBit_eq
  intro j
  rw [Nat.testBit_and, Nat.testBit_two_pow]
  by_cases hj : k = j
  · subst hj
    cases h : m.testBit k <;> simp
  · cases h : m.testBit k <;> simp [hj, Nat.testBit_two_pow_of_ne]

/-- A raised source owes a message where it is enabled. -/
theorem State.raise_eq (s : State) (n : Nat) :
    s.raise n = if bit (s.get R.HIF_EVT_EN_EN (n / 32)) (n % 32) then (s.pended n).owe n else s.pended n := by
  have hbit : s.get R.HIF_EVT_EN_EN (n / 32) &&& 2 ^ (n % 32) ≠ 0 ↔ bit (s.get R.HIF_EVT_EN_EN (n / 32)) (n % 32) = true := by
    rw [and_bit_eq, bit]
    cases Nat.testBit _ _ <;> simp
  simp only [State.raise, State.pended, hbit]

theorem State.raise_regs (s : State) (n : Nat) : (s.raise n).regs = (s.pended n).regs := by
  rw [State.raise_eq]
  split
  · exact State.owe_regs ..
  · rfl

theorem State.raise_get_pended (s : State) (n : Nat) (f : Fld) (i j : Nat) : (s.raise n).get f i j = (s.pended n).get f i j :=
  State.get_congr (s.raise_regs n) f i j

/-- Raising an event sets its bit in the pending word of its group. -/
theorem State.get_raise_pend (s : State) {n : Nat} (hn : n < 1536) : (s.raise n).get R.HIF_EVT_PEND_PEND (n / 32) =
    (s.get R.HIF_EVT_PEND_PEND (n / 32) ||| 2 ^ (n % 32)) % 2 ^ 32 := by
  rw [State.raise_get_pended, State.pended, State.get_syncSum_pend _ _ (by omega), State.get_set_self]
  rfl

theorem State.get_raise_pend_ne (s : State) {n g : Nat} (hg : g < 48) (hne : g ≠ n / 32) :
    (s.raise n).get R.HIF_EVT_PEND_PEND g = s.get R.HIF_EVT_PEND_PEND g := by
  rw [State.raise_get_pended, State.pended, State.get_syncSum_pend _ _ hg]
  refine State.get_set_ne _ _ _ _ _ _ _ _ ?_
  simp only [Fld.key, R.HIF_EVT_PEND_PEND]
  omega

theorem State.bit_raise_self (s : State) {n : Nat} (hn : n < 1536) :
    bit ((s.raise n).get R.HIF_EVT_PEND_PEND (n / 32)) (n % 32) = true := by
  rw [State.get_raise_pend s hn, bit, Nat.testBit_mod_two_pow]
  simp [Nat.mod_lt]

/-- A bit that is set in a pending word stays set. -/
theorem State.bit_raise_of_bit (s : State) {n m : Nat} (hn : n < 1536) (hm : m < 1536)
    (h : bit (s.get R.HIF_EVT_PEND_PEND (m / 32)) (m % 32) = true) :
    bit ((s.raise n).get R.HIF_EVT_PEND_PEND (m / 32)) (m % 32) = true := by
  by_cases hg : m / 32 = n / 32
  · rw [hg, State.get_raise_pend s hn, bit, Nat.testBit_mod_two_pow]
    rw [hg, bit] at h
    simp [h, Nat.mod_lt]
  · rwa [State.get_raise_pend_ne s (by omega) hg]

theorem State.get_raise_en (s : State) {n : Nat} (hn : n < 1536) :
    (s.raise n).get R.HIF_EVT_EN_EN (n / 32) = s.get R.HIF_EVT_EN_EN (n / 32) := by
  rw [State.raise_get_pended, State.pended, State.get_syncSum_en _ _ (by omega)]
  refine State.get_set_ne _ _ _ _ _ _ _ _ ?_
  simp only [Fld.key, R.HIF_EVT_PEND_PEND, R.HIF_EVT_EN_EN]
  omega

/-- Routing of a source does not stand in the group words. -/
theorem State.vectorOf_pended (s : State) {n : Nat} (hn : n < 1536) : (s.pended n).vectorOf n = s.vectorOf n := by
  have hget (f : Fld) (hf : f = R.HIF_EVT_MAP_FN ∨ f = R.HIF_EVT_MAP_VECTOR) : (s.pended n).get f n = s.get f n := by
    rw [State.pended, State.get_syncSum_ne, State.get_set_ne] <;> obtain rfl | rfl := hf <;>
      simp only [Fld.key, R.HIF_EVT_MAP_FN, R.HIF_EVT_MAP_VECTOR, R.HIF_EVT_PEND_PEND, R.HIF_EVT_SUM_LO_GROUPS, R.HIF_EVT_SUM_HI_GROUPS] <;>
      omega
  simp only [State.vectorOf, hget _ (.inl rfl), hget _ (.inr rfl)]

theorem State.pended_due (s : State) (n : Nat) : (s.pended n).due = s.due := rfl

theorem eventsStayPending : Stated.EventsStayPending := by
  intro n s hn t
  refine ⟨s.bit_raise_self hn, fun m hm _ h => s.bit_raise_of_bit hn hm h, ?_, fun h => ?_, fun h => ?_, fun f i j hf => ?_,
    s.raise_hbm n, s.raise_leaf n, s.raise_mbox n⟩
  · rw [State.get_raise_en s hn, State.get_raise_pend s hn, State.raise_get_pended]
    refine (State.bit_syncSum _ (by omega)).trans ?_
    rw [State.get_set_self, State.get_set_ne]
    · rfl
    · simp only [Fld.key, R.HIF_EVT_PEND_PEND, R.HIF_EVT_EN_EN]
      omega
  · have ht : t = (s.pended n).owe n := by simp only [t, State.raise_eq, h, if_true]
    rw [ht, ← State.vectorOf_pended s hn]
    exact State.owe_due ..
  · have ht : t = s.pended n := by simp [t, State.raise_eq, h]
    rw [ht, State.pended_due]
  · simp only [eventKeys, List.mem_cons, List.not_mem_nil, or_false, not_or] at hf
    exact s.raise_get n f i j hf.1 hf.2.1 hf.2.2

/-! ### Interrupt messages -/

/-- A device out of OFF and RESET sends what the shutdown does not hold back. -/
theorem State.silent_eq_false {s : State} {o : Output} (hs : s.held = false) (ho : o.held = false) : s.silent o = false := by
  have hd : ¬ s.get R.SMC_DEV_STATE_STATE ≤ Dev.reset := of_decide_eq_false hs
  simp [State.silent, hd, ho]

/-- A vector that sends its message no longer owes it, and its PBA bit is clear. -/
theorem State.sendVector_spec {s : State} (hs : s.held = false) (k : Nat) (t : Int) :
    (s.sendVector k t).out = s.out ++ [.msix (k / 256) (k % 256) (SMap.get s.hif.msix (0, 0) k).1 (SMap.get s.hif.msix (0, 0) k).2] ∧
    (s.sendVector k t).due.contains k = false ∧ SMap.get (s.sendVector k t).hif.pba false k = false ∧
    (s.sendVector k t).hif.msix = s.hif.msix ∧ (s.sendVector k t).hif.unmasked = s.hif.unmasked ∧ (s.sendVector k t).regs = s.regs := by
  unfold State.sendVector
  dsimp only
  refine ⟨State.emit_out _ _ (State.silent_eq_false hs rfl), ?_, SMap.get_put_self .., ?_, ?_, State.emit_regs ..⟩
  · simp
  · simp
  · simp

theorem vector_div {f : Fin 2} {v : Fin 256} : (256 * f.val + v.val) / 256 = f.val ∧ (256 * f.val + v.val) % 256 = v.val := by omega

/-- A free vector that owes a message sends it, or records it in its PBA bit while it is masked. -/
theorem State.serveVector_of_due {s : State} {k : Nat} {t : Int} (hdue : s.due.contains k = true) (hfree : s.vecFree k t = true) :
    s.serveVector k t = if s.vecUnmasked k then s.sendVector k t
      else { s with due := s.due.filter (· ≠ k), hif := { s.hif with pba := SMap.put s.hif.pba false k true } } :=
  if_pos ⟨hdue, hfree⟩

theorem interruptMessages : Stated.InterruptMessages := by
  constructor
  · intro f v t s k m hs hdue hfree
    have hexec : exec (.msixMessage f v t) s = .next (s.serveVector k t) := rfl
    rw [hexec, State.serveVector_of_due hdue hfree]
    refine ⟨fun hun => ?_, fun hmask => ?_⟩
    · obtain ⟨hout, hdue', hpba, -, -, hregs⟩ := State.sendVector_spec hs k t
      refine ⟨s.sendVector k t, by rw [if_pos hun], ?_, hdue', hpba, hregs⟩
      rw [hout, vector_div.1, vector_div.2]
    · exact ⟨_, congrArg _ (if_neg (by simp [hmask])), rfl, by simp, SMap.get_put_self s.hif.pba false k true, rfl⟩
  · intro f v x s hs k sent
    let s1 : State := { s with hif := { s.hif with
      unmasked := SMap.put s.hif.unmasked false k true, msix := SMap.put s.hif.msix (0, 0) k (x.addr.toNat, x.data.toNat) } }
    have hexec : exec (.msixUnmask f v x) s = .next (if SMap.get s.hif.pba false k then s1.sendVector k x.time else s1) := rfl
    have hmsix : SMap.get s1.hif.msix (0, 0) k = (x.addr.toNat, x.data.toNat) := SMap.get_put_self ..
    have hun : SMap.get s1.hif.unmasked false k = true := SMap.get_put_self s.hif.unmasked false k true
    refine ⟨_, hexec, ?_⟩
    cases hp : SMap.get s.hif.pba false k with
    | true =>
      obtain ⟨hout, -, hpba, hsame, huns, hregs⟩ := State.sendVector_spec (s := s1) hs k x.time
      rw [hmsix, vector_div.1, vector_div.2] at hout
      exact ⟨by simpa [sent, hp] using hout, (congrArg (SMap.get · false k) huns).trans hun,
        (congrArg (SMap.get · (0, 0) k) hsame).trans hmsix, hpba, hregs⟩
    | false => exact ⟨by simp [sent, hp, s1], hun, hmsix, hp, rfl⟩

/-- Settles O40: what a vector does with the message it owes, and what raising a source does to the words of its group. -/
theorem eventsAndVectors : Obligations.EventsAndVectors := ⟨interruptMessages, eventsStayPending⟩

end Sys2Proof.Machine
end

section
/-! PROOFS. Bytes of the three memories: words of the leaf and table window, slots of the scan store and mailbox responses (R10, R140,
R181, R185, R186, R521). -/

open Sys2Proof Sys2Proof.Stated

namespace Sys2Proof.Machine

/-! ### Byte strings -/

@[simp] theorem leBytes_length (n v : Nat) : (leBytes n v).length = n := by
  induction n generalizing v with
  | zero => rfl
  | succ n ih => simp [leBytes, ih]

/-- A byte of a value stands at its place, low byte first. -/
theorem leBytes_getD (n v : Nat) {k : Nat} (hk : k < n) : (leBytes n v).getD k 0 = bits v (8 * k) 8 := by
  induction n generalizing v k with
  | zero => omega
  | succ n ih =>
    cases k with
    | zero => simp [leBytes, bits]
    | succ k =>
      have hshift : v / 256 = v >>> 8 := (Nat.shiftRight_eq_div_pow v 8).symm
      rw [leBytes, List.getD_cons_succ, ih _ (by omega), bits, bits, hshift, ← Nat.shiftRight_add, Nat.mul_succ, Nat.add_comm 8]

theorem bits_mod_byte (v lo : Nat) : bits v lo 8 % 256 = bits v lo 8 := bits_mod_self v lo 8

theorem ofLe_lt (bs : List Nat) : ofLe bs < 256 ^ bs.length := by
  induction bs with
  | nil => simp [ofLe]
  | cons b bs ih =>
    have := Nat.mod_lt b (by decide : 0 < 256)
    simp only [ofLe, List.length_cons, Nat.pow_succ]
    omega

/-- The bytes of a value give it back. -/
theorem ofLe_leBytes (n v : Nat) : ofLe (leBytes n v) = v % 256 ^ n := by
  induction n generalizing v with
  | zero => simp [leBytes, ofLe, Nat.mod_one]
  | succ n ih => rw [leBytes, ofLe, ih, Nat.mod_mod, Nat.pow_succ', Nat.mod_mul]

theorem Memory.bytes_length (m : Memory) (a n : Nat) : (m.bytes a n).length = n := by
  induction n generalizing a with
  | zero => rfl
  | succ n ih => simp [Memory.bytes, ih]

/-- Where a write covers a range with the bytes `bs`, the range reads them. -/
theorem Memory.bytes_eq_of_getD (m : Memory) (a : Nat) (bs : List Nat) (h : ∀ k, k < bs.length → m.byte (a + k) = bs.getD k 0) :
    m.bytes a bs.length = bs := by
  induction bs generalizing a with
  | nil => rfl
  | cons b bs ih =>
    have hhead : m.byte a = b := h 0 (by simp)
    have htail := ih (a + 1) fun k hk => by
      have hnext := h (k + 1) (by simpa using hk)
      rwa [List.getD_cons_succ, Nat.add_comm k 1, ← Nat.add_assoc] at hnext
    rw [List.length_cons, Memory.bytes, hhead, htail]

/-- A byte of a part of what was written. -/
theorem Memory.byte_write_append (m : Memory) (a : Nat) (pre mid post : List Nat) {k : Nat} (hk : k < mid.length) :
    (m.write a (pre ++ mid ++ post)).byte (a + pre.length + k) = mid.getD k 0 % 256 := by
  have hin : a ≤ a + pre.length + k ∧ a + pre.length + k < a + (pre ++ mid ++ post).length := by simp; omega
  have hidx : a + pre.length + k - a = pre.length + k := by omega
  rw [Memory.byte_write, if_pos hin, hidx]
  rw [List.getD_eq_getElem?_getD, List.append_assoc, List.getElem?_append_right (by omega), Nat.add_sub_cancel_left,
    List.getElem?_append_left hk, ← List.getD_eq_getElem?_getD]

/-- A value that was written reads back byte by byte. -/
theorem Memory.bytes_write_leBytes (m : Memory) (a : Nat) (pre post : List Nat) (n v : Nat) :
    (m.write a (pre ++ leBytes n v ++ post)).bytes (a + pre.length) n = leBytes n v := by
  have h := Memory.bytes_eq_of_getD (m.write a (pre ++ leBytes n v ++ post)) (a + pre.length) (leBytes n v) fun k hk => by
    rw [Memory.byte_write_append _ _ _ _ _ hk, leBytes_getD _ _ (by simpa using hk), bits_mod_byte]
  simpa using h

/-- A byte outside what is written stays. -/
theorem Memory.byte_write_outside (m : Memory) {a x : Nat} {bs : List Nat} (h : x < a ∨ a + bs.length ≤ x) :
    (m.write a bs).byte x = m.byte x := by
  rw [Memory.byte_write, if_neg (by omega)]

/-! ### Words of the leaf and table window -/

/-- A window write that reaches its word acts, or answers as its row refuses. -/
theorem State.windowWrite_of_reaches {s : State} {w : World} {a : Nat} (h : ReachesAt s w a) (check : Option Status)
    (refused act : State → State) : s.windowWrite w a check refused act = if check.isSome then refused s else act s := by
  obtain ⟨hheld, hboot, hworld⟩ := h
  have hopen : ¬ (w ≠ .secure ∧ s.addrWorld a = .secure) := by
    rintro ⟨hw, ha⟩
    obtain rfl | hns := hworld
    · exact hw rfl
    · cases hns.symm.trans ha
  cases check <;> simp [State.windowWrite, hheld, hboot, hopen]

/-- A word put into the window stands there low byte first, and nothing else changes. -/
theorem State.putLeaf_word (s : State) (a v : Nat) :
    (∀ k, k < 4 → (s.putLeaf a (leBytes 4 v)).leaf.byte (a + k) = bits v (8 * k) 8) ∧
    (∀ b : Nat, (b < a ∨ a + 4 ≤ b) → (s.putLeaf a (leBytes 4 v)).leaf.byte b = s.leaf.byte b) ∧
    (s.putLeaf a (leBytes 4 v)).regs = s.regs := by
  refine ⟨fun k hk => ?_, fun b hb => ?_, rfl⟩
  · have h := Memory.byte_write_append s.leaf a [] (leBytes 4 v) [] (k := k) (by simpa using hk)
    rw [leBytes_getD _ _ hk, bits_mod_byte] at h
    simpa [State.putLeaf] using h
  · exact Memory.byte_write_outside _ (by simpa using hb)

/-- Settles O20: both windows put their word through `putLeaf` where nothing in use holds it, and refuse it otherwise. -/
theorem leafWindowWrites : Obligations.LeafWindowWrites := by
  refine ⟨fun w a v s hr => ⟨fun hfree => ?_, fun hused => ?_⟩, fun w a v s hr => ⟨fun hfree => ?_, fun hused => ?_⟩⟩
  · refine ⟨_, ?_, s.putLeaf_word (0x2800000 + 4 * a) v.toNat⟩
    change execLeafWindowWrite w a v s = _
    rw [execLeafWindowWrite, State.windowWrite_of_reaches hr, hfree]
    rfl
  · change execLeafWindowWrite w a v s = _
    rw [execLeafWindowWrite, State.windowWrite_of_reaches hr, hused]
    rfl
  · refine ⟨_, ?_, s.putLeaf_word (0x3800000 + 4 * a) v.toNat⟩
    change execFirSlotWrite w a v s = _
    rw [execFirSlotWrite, State.windowWrite_of_reaches hr, hfree]
    rfl
  · change execFirSlotWrite w a v s = _
    rw [execFirSlotWrite, State.windowWrite_of_reaches hr, hused]
    rfl

/-! ### Slots of the scan store -/

/-- The bytes of a slot that holds a line: its samples, zeros and the tag (R186). -/
def lineBytes (z wpi flags gen : Nat) (samples : List Nat) : List Nat :=
  samples.flatMap (leBytes 2) ++ List.replicate (z - 16 - 2 * samples.length) 0 ++ tagBytes wpi flags gen

theorem flatMap_leBytes_length (n : Nat) (xs : List Nat) : (xs.flatMap (leBytes n)).length = n * xs.length := by
  simp only [List.length_flatMap, leBytes_length, List.map_const', List.sum_replicate_nat, Nat.mul_comm]

theorem lineBytes_length {z : Nat} {samples : List Nat} (wpi flags gen : Nat) (h : 2 * samples.length + 16 ≤ z) :
    (lineBytes z wpi flags gen samples).length = z := by
  simp only [lineBytes, tagBytes, List.length_append, List.length_replicate, flatMap_leBytes_length, leBytes_length]
  omega

/-- A line that fits its slot is written whole. -/
theorem State.writeSlot_eq {s : State} {n : Nat} {samples : List Nat} (home wpi flags : Nat)
    (h : 2 * samples.length + 16 ≤ s.slotZ n) :
    s.writeSlot n home wpi flags samples = { s with
      hbm := s.hbm.write (s.slotAddr n home) (lineBytes (s.slotZ n) wpi flags (s.get R.SST_ST_RESTARTS_COUNT n) samples) } := by
  have hlen : (samples.flatMap (leBytes 2)).length ≤ s.slotZ n - 16 := by rw [flatMap_leBytes_length]; omega
  simp only [State.writeSlot, lineBytes, List.take_of_length_le hlen, flatMap_leBytes_length]

/-- The two bytes of a sample give it back. -/
theorem sample_of_bytes {m : Memory} {a x : Nat} (h : m.bytes a 2 = leBytes 2 x) (hx : x < 65536) :
    m.byte a + 256 * m.byte (a + 1) = x := by
  simp only [Memory.bytes, leBytes, List.cons.injEq] at h
  obtain ⟨h0, h1, -⟩ := h
  omega

/-- The samples before sample `i`, sample `i`, and the rest of the slot. -/
theorem lineBytes_at (z wpi flags gen : Nat) {samples : List Nat} {i : Nat} (hi : i < samples.length) :
    ∃ post, lineBytes z wpi flags gen samples = (samples.take i).flatMap (leBytes 2) ++ leBytes 2 (samples.getD i 0) ++ post := by
  have hsplit : samples.flatMap (leBytes 2) = (samples.take i).flatMap (leBytes 2) ++
      (leBytes 2 (samples.getD i 0) ++ (samples.drop (i + 1)).flatMap (leBytes 2)) := by
    have hat : samples.getD i 0 = samples[i] := by rw [List.getD_eq_getElem?_getD, List.getElem?_eq_getElem hi, Option.getD_some]
    rw [hat, ← List.flatMap_cons, ← List.drop_eq_getElem_cons hi, ← List.flatMap_append, List.take_append_drop]
  rw [lineBytes, hsplit]
  exact ⟨_, by simp only [List.append_assoc]; rfl⟩

theorem lineBytes_sample (m : Memory) (a z wpi flags gen : Nat) {samples : List Nat} {i : Nat} (hi : i < samples.length) :
    (m.write a (lineBytes z wpi flags gen samples)).bytes (a + 2 * i) 2 = leBytes 2 (samples.getD i 0) := by
  obtain ⟨post, hpost⟩ := lineBytes_at z wpi flags gen hi
  have h := Memory.bytes_write_leBytes m a ((samples.take i).flatMap (leBytes 2)) post 2 (samples.getD i 0)
  rwa [← hpost, flatMap_leBytes_length, List.length_take_of_le (Nat.le_of_lt hi)] at h

theorem lineBytes_tag (m : Memory) (a wpi flags gen : Nat) {z : Nat} {samples : List Nat} (h : 2 * samples.length + 16 ≤ z) :
    bits (ofLe ((m.write a (lineBytes z wpi flags gen samples)).bytes (a + z - 16) 8)) 48 9 = flags % 512 := by
  have hread := Memory.bytes_write_leBytes m a
    (samples.flatMap (leBytes 2) ++ List.replicate (z - 16 - 2 * samples.length) 0) (leBytes 8 (gen % 65536)) 8
    (wrap48 wpi + flags % 512 * 2 ^ 48)
  have hbytes : lineBytes z wpi flags gen samples = samples.flatMap (leBytes 2) ++
      List.replicate (z - 16 - 2 * samples.length) 0 ++ leBytes 8 (wrap48 wpi + flags % 512 * 2 ^ 48) ++ leBytes 8 (gen % 65536) := by
    simp only [lineBytes, tagBytes, List.append_assoc]
  have hplace : a + (samples.flatMap (leBytes 2) ++ List.replicate (z - 16 - 2 * samples.length) 0).length = a + z - 16 := by
    simp only [List.length_append, List.length_replicate, flatMap_leBytes_length]
    omega
  rw [← hbytes, hplace] at hread
  rw [hread, ofLe_leBytes, bits, Nat.shiftRight_eq_div_pow, wrap48]
  omega

/-- Settles O21: sample by sample and for the tag, the written bytes read back from their own places. -/
theorem slotsHoldTheirLines : Obligations.SlotsHoldTheirLines := by
  intro n home wpi flags samples s hfit hsamples
  dsimp only
  rw [State.writeSlot_eq home wpi flags hfit]
  refine ⟨fun p j hi => ?_, lineBytes_tag _ _ _ _ _ hfit, fun b hb => ?_, rfl⟩
  · refine sample_of_bytes (lineBytes_sample _ _ _ _ _ _ hi) (hsamples _ ?_)
    rw [List.getD_eq_getElem?_getD, List.getElem?_eq_getElem hi]
    exact List.getElem_mem hi
  · exact Memory.byte_write_outside _ (by rwa [lineBytes_length _ _ _ hfit])

/-! ### Mailbox responses -/

/-- The 64 bytes of a response (R521). -/
def responseBytes (op tag seq : Nat) (c : Status) (body : List Nat) : List Nat :=
  leBytes 2 op ++ [c.code, 0] ++ leBytes 4 tag ++ leBytes 4 seq ++ leBytes 4 0 ++ (body ++ List.replicate (48 - body.length) 0).take 48

theorem responseBytes_length (op tag seq : Nat) (c : Status) (body : List Nat) : (responseBytes op tag seq c body).length = 64 := by
  simp [responseBytes]
  omega

/-- A response stands in its entry at TAIL. -/
theorem State.respond_mbox (s : State) (r op tag : Nat) (c : Status) (body : List Nat) : (s.respond r op tag c body).mbox =
    s.mbox.write (0x14000 + 0x2000 * r + 0x40 * s.get R.SMC_MB_RSP_TAIL_TAIL r) (responseBytes op tag (s.ring r).seq c body) := by
  simp [State.respond, responseBytes]

/-- Each part of a response reads back from its place in the entry. -/
theorem responseBytes_read (m : Memory) (a op tag seq : Nat) (c : Status) (body : List Nat) :
    let t := m.write a (responseBytes op tag seq c body)
    t.bytes a 2 = leBytes 2 op ∧ t.byte (a + 2) = c.code ∧ t.byte (a + 3) = 0 ∧ t.bytes (a + 4) 4 = leBytes 4 tag ∧
      t.bytes (a + 8) 4 = leBytes 4 seq ∧ (∀ k, k < 4 → t.byte (a + 12 + k) = 0) ∧
      (∀ k, k < 48 → t.byte (a + 16 + k) = body.getD k 0 % 256) := by
  let rest := (body ++ List.replicate (48 - body.length) 0).take 48
  have hcode : c.code % 256 = c.code := by cases c <;> rfl
  have hop := Memory.bytes_write_leBytes m a [] ([c.code, 0] ++ leBytes 4 tag ++ leBytes 4 seq ++ leBytes 4 0 ++ rest) 2 op
  have hstatus (k : Nat) (hk : k < 2) := Memory.byte_write_append m a (leBytes 2 op) [c.code, 0]
    (leBytes 4 tag ++ leBytes 4 seq ++ leBytes 4 0 ++ rest) (k := k) hk
  have htag := Memory.bytes_write_leBytes m a (leBytes 2 op ++ [c.code, 0]) (leBytes 4 seq ++ leBytes 4 0 ++ rest) 4 tag
  have hseq := Memory.bytes_write_leBytes m a (leBytes 2 op ++ [c.code, 0] ++ leBytes 4 tag) (leBytes 4 0 ++ rest) 4 seq
  have hzero (k : Nat) (hk : k < 4) := Memory.byte_write_append m a (leBytes 2 op ++ [c.code, 0] ++ leBytes 4 tag ++ leBytes 4 seq)
    (leBytes 4 0) rest (k := k) (by simpa using hk)
  have hbody (k : Nat) (hk : k < 48) := Memory.byte_write_append m a
    (leBytes 2 op ++ [c.code, 0] ++ leBytes 4 tag ++ leBytes 4 seq ++ leBytes 4 0) rest [] (k := k) (by simp [rest]; omega)
  simp only [List.append_assoc, List.nil_append, List.append_nil, List.length_append, leBytes_length, List.length_cons,
    List.length_nil, Nat.add_zero] at hop hstatus htag hseq hzero hbody
  refine ⟨?_, ?_, ?_, ?_, ?_, fun k hk => ?_, fun k hk => ?_⟩ <;> simp only [responseBytes, List.append_assoc]
  · exact hop
  · exact (hstatus 0 (by decide)).trans hcode
  · exact hstatus 1 (by decide)
  · exact htag
  · exact hseq
  · rw [hzero k hk, leBytes_getD _ _ hk]
    simp [bits]
  · rw [hbody k hk]
    by_cases hk' : k < body.length
    · simp [rest, List.getD_eq_getElem?_getD, List.getElem?_append, hk, hk']
    · have hpad : k - body.length < 48 - body.length := by omega
      simp [rest, List.getD_eq_getElem?_getD, List.getElem?_append, hk, hk', hpad]

theorem State.respond_tail (s : State) {r : Nat} (hr : r < 2) (op tag : Nat) (c : Status) (body : List Nat) :
    (s.respond r op tag c body).get R.SMC_MB_RSP_TAIL_TAIL r = (s.get R.SMC_MB_RSP_TAIL_TAIL r + 1) % 128 := by
  unfold State.respond
  dsimp only
  rw [State.raise_get, State.get_set_ne, State.get_set_self]
  · exact Nat.mod_mod ..
  all_goals
    simp only [Fld.key, R.SMC_MB_RSP_TAIL_TAIL, R.SMC_MB_STATUS_BUSY, R.HIF_EVT_PEND_PEND, R.HIF_EVT_SUM_LO_GROUPS, R.HIF_EVT_SUM_HI_GROUPS]
    omega

/-- Settles O55: the parts of the entry read back, and what follows the write changes no memory. -/
theorem responses : Obligations.Responses := by
  intro r op tag c body s a t
  have hmbox : t.mbox = s.mbox.write a (responseBytes op tag (s.ring r).seq c body) := s.respond_mbox r op tag c body
  obtain ⟨hop, hcode, hzero, htag, hseq, hpad, hbody⟩ := responseBytes_read s.mbox a op tag (s.ring r).seq c body
  rw [← hmbox] at hop hcode hzero htag hseq hpad hbody
  have hsource : Ev.mbResponse r.val / 32 = 45 ∧ Ev.mbResponse r.val % 32 = 8 + r.val ∧ Ev.mbResponse r.val < 1536 := by
    simp only [Ev.mbResponse]
    omega
  obtain ⟨hgroup, hbit, hlt⟩ := hsource
  have hevent : bit (t.get R.HIF_EVT_PEND_PEND 45) (8 + r) = true := by
    rw [← hgroup, ← hbit]
    exact State.bit_raise_self _ hlt
  refine ⟨hop, hcode, hzero, htag, hseq, hpad, hbody, fun b hb => ?_, s.respond_tail r.isLt op tag c body, hevent,
    State.raise_hbm .., State.raise_leaf .., State.raise_out ..⟩
  rw [hmbox, Memory.byte_write_outside _ (by rwa [responseBytes_length])]

end Sys2Proof.Machine
end

section
/-! PROOFS. The limits of a motion profile (R466, R467). -/

open Sys2Proof Sys2Proof.Stated

namespace Sys2Proof.Machine

/-! ### The velocity still to come while an acceleration goes to 0 -/

/-- The number of whole jerk steps that leave an acceleration `n` above 0. -/
def rampSteps (n J : Nat) : Nat := ceilDiv n J - 1

/-- The velocity added while an acceleration `n` goes to 0 by `J` a cycle: `(n − J) + (n − 2J) + …`. -/
def rampSum (n J : Nat) : Nat := rampSteps n J * n - J * (rampSteps n J * (rampSteps n J + 1) / 2)

/-- The same with a sign. -/
def signedRamp (a : Int) (J : Nat) : Int := if 0 ≤ a then rampSum a.natAbs J else -rampSum a.natAbs J

theorem settleVel_eq (v a : Int) (J : Nat) : settleVel v a J = v + signedRamp a J := by
  unfold settleVel signedRamp
  split
  · rfl
  · exact (Int.add_neg_eq_sub ..).symm

theorem rampSteps_zero {n J : Nat} (h : n ≤ J) : rampSteps n J = 0 := by
  unfold rampSteps ceilDiv
  split
  · rfl
  · have : (n + J - 1) / J < 2 := Nat.div_lt_of_lt_mul (by omega)
    omega

theorem rampSteps_succ {n J : Nat} (hJ : 0 < J) (h : J < n) : rampSteps n J = rampSteps (n - J) J + 1 := by
  have hadd : n + J - 1 = (n - J + J - 1) + J := by omega
  have hpos : 1 ≤ (n - J + J - 1) / J := (Nat.le_div_iff_mul_le hJ).2 (by omega)
  unfold rampSteps ceilDiv
  rw [if_neg (by omega), if_neg (by omega), hadd, Nat.add_div_right _ hJ]
  omega

theorem rampSteps_mul_lt {n J : Nat} (hJ : 0 < J) (hn : 0 < n) : J * rampSteps n J < n := by
  unfold rampSteps ceilDiv
  rw [if_neg (by omega), Nat.mul_sub_one]
  have := Nat.mul_div_le (n + J - 1) J
  have hpos : J * 1 ≤ J * ((n + J - 1) / J) := Nat.mul_le_mul_left J ((Nat.le_div_iff_mul_le hJ).2 (by omega))
  omega

theorem rampSum_zero {n J : Nat} (h : n ≤ J) : rampSum n J = 0 := by simp [rampSum, rampSteps_zero h]

/-- The next cycle adds `n − J`, and the rest follows from there. -/
theorem rampSum_step {n J : Nat} (hJ : 0 < J) (h : J < n) : rampSum n J = (n - J) + rampSum (n - J) J := by
  obtain ⟨m, rfl⟩ : ∃ m, n = m + J := ⟨n - J, by omega⟩
  have hm : 0 < m := by omega
  have hlt := rampSteps_mul_lt hJ hm
  simp only [rampSum, rampSteps_succ hJ h, Nat.add_sub_cancel]
  generalize rampSteps m J = k at *
  have htri : (k + 1) * (k + 1 + 1) / 2 = k * (k + 1) / 2 + (k + 1) := by
    rw [← Nat.add_mul_div_right _ _ (by decide : 0 < 2)]
    exact congrArg (· / 2) (by rw [Nat.mul_comm k, ← Nat.mul_add, Nat.mul_comm])
  have hle : J * (k * (k + 1) / 2) ≤ k * m := by
    calc J * (k * (k + 1) / 2) ≤ J * (k * k) := by
          refine Nat.mul_le_mul_left J ((Nat.div_le_iff_le_mul_add_pred (by decide)).2 ?_)
          have := Nat.le_mul_self k
          rw [Nat.mul_succ]
          omega
      _ = J * k * k := (Nat.mul_assoc ..).symm
      _ ≤ m * k := Nat.mul_le_mul_right k (Nat.le_of_lt hlt)
      _ = k * m := Nat.mul_comm ..
  have hprod : (k + 1) * (m + J) = k * m + m + J * (k + 1) := by
    rw [Nat.mul_add, Nat.succ_mul, Nat.mul_comm (k + 1) J]
  rw [htri, hprod, Nat.mul_add J (k * (k + 1) / 2)]
  omega

theorem rampSum_mono {J : Nat} (hJ : 0 < J) {m n : Nat} (h : m ≤ n) : rampSum m J ≤ rampSum n J := by
  induction n using Nat.strongRecOn generalizing m with
  | ind n ih =>
    by_cases hm : m ≤ J
    · simp [rampSum_zero hm]
    · rw [rampSum_step hJ (by omega : J < m), rampSum_step hJ (by omega : J < n)]
      have := ih (n - J) (by omega) (by omega : m - J ≤ n - J)
      omega

theorem signedRamp_neg (a : Int) (J : Nat) : signedRamp (-a) J = -signedRamp a J := by
  obtain h | rfl | h := Int.lt_trichotomy a 0
  · simp [signedRamp, Int.not_le.2 h, Int.le_of_lt h]
  · simp [signedRamp, rampSum_zero]
  · simp [signedRamp, Int.not_le.2 h, Int.le_of_lt h]

theorem signedRamp_mono {J : Nat} (hJ : 0 < J) {a b : Int} (h : a ≤ b) : signedRamp a J ≤ signedRamp b J := by
  unfold signedRamp
  by_cases ha : 0 ≤ a <;> by_cases hb : 0 ≤ b <;> simp only [ha, hb, if_true, if_false]
  · exact Int.ofNat_le.2 (rampSum_mono hJ (by omega))
  · omega
  · omega
  · have := rampSum_mono hJ (by omega : b.natAbs ≤ a.natAbs)
    omega

theorem signedRamp_zero {J : Nat} {a : Int} (h : a.natAbs ≤ J) : signedRamp a J = 0 := by
  simp [signedRamp, rampSum_zero h]

theorem signedRamp_step {J : Nat} (hJ : 0 < J) {a : Int} (h : J < a) : signedRamp a J = (a - J) + signedRamp (a - J) J := by
  have hnat : (a - J).natAbs = a.natAbs - J := by omega
  have hstep := rampSum_step hJ (by omega : J < a.natAbs)
  simp only [signedRamp, if_pos (by omega : (0 : Int) ≤ a), if_pos (by omega : (0 : Int) ≤ a - J), hnat]
  omega

theorem settleVel_neg (v a : Int) (J : Nat) : settleVel (-v) (-a) J = -settleVel v a J := by
  simp only [settleVel_eq, signedRamp_neg]
  omega

/-! ### The acceleration of the next cycle -/

/-- What the acceleration `c` of the next cycle keeps: it lies within `A`, moves by `J` at most, and the profile still settles within
the limit `V`. -/
structure KeepsLimits (v a c : Int) (V A J : Nat) : Prop where
  accel : c.natAbs ≤ A
  jerk : (c - a).natAbs ≤ J
  settle : (settleVel (v + c) c J).natAbs ≤ V

theorem accelUp_accel {v a vt : Int} {A J : Nat} (ha : a.natAbs ≤ A) :
    (accelUp v a vt A J).natAbs ≤ A ∧ (accelUp v a vt A J - a).natAbs ≤ J := by
  unfold accelUp
  dsimp only
  split
  · omega
  · split
    · omega
    · split
      · split <;> omega
      · omega

theorem accelTo_accel {v a vt : Int} {A J : Nat} (ha : a.natAbs ≤ A) :
    (accelTo v a vt A J).natAbs ≤ A ∧ (accelTo v a vt A J - a).natAbs ≤ J := by
  unfold accelTo
  dsimp only
  split
  · have h := accelUp_accel (v := -v) (a := -a) (vt := -vt) (J := J) (by omega : (-a).natAbs ≤ A)
    omega
  · exact accelUp_accel ha

/-- Lowering a positive acceleration by one jerk step leaves the settling velocity as it is. -/
theorem settleVel_easeOff {v a : Int} {J : Nat} (hJ : 0 < J) (ha : 0 < a) :
    settleVel (v + if a ≤ J then 0 else a - J) (if a ≤ J then 0 else a - J) J = settleVel v a J := by
  split
  next h =>
    rw [settleVel_eq, settleVel_eq, signedRamp_zero (by omega : a.natAbs ≤ J), signedRamp_zero (by simp)]
    omega
  next h =>
    rw [settleVel_eq, settleVel_eq, signedRamp_step hJ (by omega : (J : Int) < a)]
    omega

/-- Raising a negative acceleration by one jerk step leaves the settling velocity as it is. -/
theorem settleVel_easeOff_neg {v a : Int} {J : Nat} (hJ : 0 < J) (ha : a < 0) :
    settleVel (v + min 0 (a + J)) (min 0 (a + J)) J = settleVel v a J := by
  have hease := settleVel_easeOff (v := -v) (a := -a) hJ (by omega)
  generalize he : (if -a ≤ J then 0 else -a - J : Int) = e at hease
  have hmin : min 0 (a + J) = -e := by rw [← he]; split <;> omega
  have hflip : v + -e = -(-v + e) := by omega
  rw [hmin, hflip, settleVel_neg, hease, settleVel_neg, Int.neg_neg]

/-- A higher acceleration settles no lower. -/
theorem settleVel_mono {v b c : Int} {J : Nat} (hJ : 0 < J) (h : b ≤ c) : settleVel (v + b) b J ≤ settleVel (v + c) c J := by
  have := signedRamp_mono hJ h
  rw [settleVel_eq, settleVel_eq]
  omega

/-- An acceleration at or above the one that eases off settles no lower than the present one. -/
theorem settleVel_le_of_ease {v a c : Int} {J : Nat} (hJ : 0 < J) (h : (0 < a ∧ a - J ≤ c ∧ 0 ≤ c) ∨ (a ≤ 0 ∧ min 0 (a + J) ≤ c)) :
    settleVel v a J ≤ settleVel (v + c) c J := by
  obtain ⟨ha, hc, hc0⟩ | ⟨ha, hc⟩ := h
  · rw [← settleVel_easeOff hJ ha]
    exact settleVel_mono hJ (by split <;> omega)
  · obtain rfl | hneg := Int.le_iff_eq_or_lt.1 ha
    · have hmono := settleVel_mono (v := v) hJ (by omega : 0 ≤ c)
      rwa [Int.add_zero] at hmono
    · rw [← settleVel_easeOff_neg hJ hneg]
      exact settleVel_mono hJ hc

/-- Heading up for a velocity within the limit, the profile keeps its limits, unless it can take that velocity at once. -/
theorem accelUp_keepsLimits {v a vt : Int} {V A J : Nat} (hJ : 0 < J) (ha : a.natAbs ≤ A) (hs : (settleVel v a J).natAbs ≤ V)
    (hvt : vt.natAbs ≤ V) (hle : settleVel v a J < vt ∨ (settleVel v a J = vt ∧ 0 ≤ a))
    (hfar : ¬ ((vt - v).natAbs ≤ J ∧ a.natAbs ≤ J)) : KeepsLimits v a (accelUp v a vt A J) V A J := by
  obtain ⟨haccel, hjerk⟩ := accelUp_accel (v := v) (vt := vt) (J := J) ha
  refine ⟨haccel, hjerk, ?_⟩
  unfold accelUp
  dsimp only
  split
  next hup =>
    have := settleVel_le_of_ease (v := v) (a := a) (c := min (A : Int) (a + J)) hJ (by omega)
    omega
  next hup =>
    split
    next hhold =>
      have := settleVel_le_of_ease (v := v) (a := a) (c := a) hJ (by omega)
      omega
    next hhold =>
      split
      next hpos => rwa [settleVel_easeOff hJ hpos]
      next hpos =>
        exfalso
        have hneg : a < 0 := by
          obtain h0 | hneg := Int.le_iff_eq_or_lt.1 (Int.not_lt.1 hpos)
          · exact absurd ⟨Int.le_of_eq h0.symm, by rw [h0, Int.add_zero, ← h0]; omega⟩ hhold
          · exact hneg
        by_cases hstep : a + J ≤ 0
        · have hmin : min (A : Int) (a + J) = min 0 (a + J) := by omega
          rw [hmin, settleVel_easeOff_neg hJ hneg] at hup
          omega
        · rw [settleVel_eq, signedRamp_zero (by omega)] at hup
          rw [settleVel_eq, signedRamp_zero (by omega : a.natAbs ≤ J)] at hle
          omega

theorem accelTo_keepsLimits {v a vt : Int} {V A J : Nat} (hJ : 0 < J) (ha : a.natAbs ≤ A) (hs : (settleVel v a J).natAbs ≤ V)
    (hvt : vt.natAbs ≤ V) (hfar : ¬ ((vt - v).natAbs ≤ J ∧ a.natAbs ≤ J)) : KeepsLimits v a (accelTo v a vt A J) V A J := by
  unfold accelTo
  dsimp only
  split
  next hdown =>
    obtain ⟨haccel, hjerk, hsettle⟩ := accelUp_keepsLimits (v := -v) (a := -a) (vt := -vt) (A := A) hJ (by omega)
      (by rw [settleVel_neg]; omega) (by omega : (-vt).natAbs ≤ V) (by rw [settleVel_neg]; omega) (by omega)
    refine ⟨by omega, by omega, ?_⟩
    have hneg := settleVel_neg (-v + accelUp (-v) (-a) (-vt) A J) (accelUp (-v) (-a) (-vt) A J) J
    rw [Int.neg_add, Int.neg_neg] at hneg
    rw [hneg]
    omega
  next hdown => exact accelUp_keepsLimits hJ ha hs hvt (by omega) hfar

/-- Limits do not depend on the direction. -/
theorem KeepsLimits.of_dir {v a c dir : Int} {V A J : Nat} (hdir : dir = 1 ∨ dir = -1)
    (h : KeepsLimits (dir * v) (dir * a) c V A J) : KeepsLimits v a (dir * c) V A J := by
  obtain ⟨haccel, hjerk, hsettle⟩ := h
  obtain rfl | rfl := hdir
  · simp only [Int.one_mul] at *
    exact ⟨haccel, hjerk, hsettle⟩
  · refine ⟨by omega, by omega, ?_⟩
    have hflip : v + -1 * c = -(-1 * v + c) := by omega
    rw [hflip, Int.neg_one_mul c, settleVel_neg]
    omega

/-- A profile that settles within the limit is within it in the cycle before. -/
theorem KeepsLimits.velocity {v a c : Int} {V A J : Nat} (h : KeepsLimits v a c V A J) (hv : v.natAbs ≤ V) : (v + c).natAbs ≤ V := by
  have hs := h.settle
  rw [settleVel_eq] at hs
  unfold signedRamp at hs
  split at hs <;> omega

/-! ### One cycle -/

/-- What a cycle of a profile keeps (R466). -/
structure WithinLimits (x y : Profile) (V A J : Nat) : Prop where
  velocity : y.v.natAbs ≤ V
  settle : (settleVel y.v y.a J).natAbs ≤ V
  accel : y.a.natAbs ≤ A
  jerk : (y.a - x.a).natAbs ≤ 2 * J

/-- A profile at a velocity with no acceleration settles there. -/
theorem settleVel_zero (v : Int) (J : Nat) : settleVel v 0 J = v := by
  rw [settleVel_eq, signedRamp_zero (by simp), Int.add_zero]

theorem WithinLimits.of_advance {x : Profile} {c : Int} {V A J : Nat} (h : KeepsLimits x.v x.a c V A J) (hv : x.v.natAbs ≤ V) :
    WithinLimits x (x.advance c) V A J :=
  ⟨h.velocity hv, h.settle, h.accel, by have := h.jerk; simp only [Profile.advance]; omega⟩

theorem WithinLimits.toVel {x : Profile} {vt : Int} {V A J : Nat} (hJ : 0 < J) (hv : x.v.natAbs ≤ V)
    (hs : (settleVel x.v x.a J).natAbs ≤ V) (ha : x.a.natAbs ≤ A) (hvt : vt.natAbs ≤ V) : WithinLimits x (x.toVel vt A J) V A J := by
  unfold Profile.toVel
  split
  next hnear => exact ⟨hvt, by rwa [settleVel_zero], by simp, by simp only; omega⟩
  next hfar => exact .of_advance (accelTo_keepsLimits hJ ha hs hvt hfar) hv

theorem WithinLimits.toPos {x : Profile} {pt : Int} {V A J : Nat} (hJ : 0 < J) (hv : x.v.natAbs ≤ V)
    (hs : (settleVel x.v x.a J).natAbs ≤ V) (ha : x.a.natAbs ≤ A) : WithinLimits x (x.toPos pt V A J) V A J := by
  unfold Profile.toPos
  dsimp only
  split
  next hnear => exact ⟨by simp, by simp [settleVel_zero], by simp, by simp only; omega⟩
  next hfar =>
    split
    next c hfind =>
      generalize hdir : (if stopDist x.v x.a A J ≤ pt - x.p then 1 else -1 : Int) = dir at hfind ⊢
      have hsign : dir = 1 ∨ dir = -1 := by rw [← hdir]; split <;> simp
      have hfree := List.find?_some hfind
      simp only [Bool.and_eq_true, decide_eq_true_eq] at hfree
      have hmem := List.mem_of_find?_eq_some hfind
      have haccel : c.natAbs ≤ A ∧ (c - dir * x.a).natAbs ≤ J := by
        simp only [List.mem_cons, List.not_mem_nil, or_false] at hmem
        obtain rfl | rfl := hmem
        · exact accelTo_accel (by obtain rfl | rfl := hsign <;> omega)
        · obtain rfl | rfl := hsign <;> omega
      exact .of_advance (KeepsLimits.of_dir hsign ⟨haccel.1, haccel.2, hfree.2⟩) hv
    next hnone => exact .toVel hJ hv hs ha (by simp)

/-- Settles O48: a cycle chooses an acceleration that keeps the limits, or takes what is left; `settleVel` neither rises nor falls
while the acceleration eases off. -/
theorem profilesKeepTheirLimit : Obligations.ProfilesKeepTheirLimit := by
  refine ⟨fun x V A J hJ hv hs ha hgoal => ?_, fun x V A J v hgoal ha => ?_, fun x V A J hgoal => ?_, fun x V A J hdone hvel => ?_⟩
  · have hy : WithinLimits x (x.cycle V A J) V A J := by
      obtain ⟨p, hp⟩ | ⟨v, hp, hlim⟩ := hgoal <;> rw [Profile.cycle, hp]
      · exact .toPos hJ hv hs ha
      · exact .toVel hJ hv hs ha hlim
    exact ⟨hy.velocity, hy.settle, hy.accel, hy.jerk⟩
  · rw [Profile.cycle, hgoal]
    simp only [Profile.toVel]
    split
    · simp only
      omega
    · exact (accelTo_accel ha).2
  · rw [Profile.cycle, hgoal]
    simp only
    split
    · simp
    · simp only [Profile.advance]
      split <;> omega
  · rw [Profile.cycle]
    unfold Profile.done at hdone
    cases hg : x.goal with
    | rest => simp
    | vel v => exact absurd hg (hvel v)
    | pos p =>
      simp only [hg, decide_eq_true_eq] at hdone
      obtain ⟨hp, hv, ha⟩ := hdone
      simp [Profile.toPos, hp, hv, ha]
    | estop =>
      simp only [hg, decide_eq_true_eq] at hdone
      obtain ⟨hv, ha⟩ := hdone
      simp [hv]

end Sys2Proof.Machine
end

section
/-! PROOFS. The shaded sample (R134) and the end of a pace window (R40, R41). -/

open Sys2Proof Sys2Proof.Stated

namespace Sys2Proof.Machine

/-! ### Shading -/

/-- A value within the range stays, and any other is held to its ends. -/
theorem clampI_toNat_le (x : Int) : (clampI 0 65535 x).toNat ≤ 65535 := by
  unfold clampI
  omega

/-- A multiple of the divisor needs no rounding. -/
theorem roundDivI_mul_self (x : Int) {b : Nat} (hb : 0 < b) : roundDivI (x * b) b = x := by
  have hb' : (b : Int) ≠ 0 := by omega
  simp [roundDivI, Int.mul_ediv_cancel _ hb', Nat.pos_iff_ne_zero.1 hb, hb]

/-- Settles O17: the result is clamped, and with gain 1 the two gain factors make up the divisor. -/
theorem shadedSample : Obligations.ShadedSample := by
  refine ⟨fun x b g d k ped => clampI_toNat_le _, fun x b ped => ?_⟩
  have hgain : (16 * ((x : Int) - b) - toSigned 16 0) * (0x4000 : Nat) * (0x4000 : Nat) = ((x : Int) - b) * (2 ^ 32 : Nat) := by
    have hzero : toSigned 16 0 = 0 := by decide
    rw [hzero]
    omega
  rw [shadeSample]
  rw [hgain, roundDivI_mul_self _ (by decide), clampI, Int.min_comm]

/-! ### Pace windows -/

/-- Two states give domain `d` the same rate to write. -/
structure SameRate (d : Nat) (s t : State) : Prop where
  busy : t.winBusy d = s.winBusy d
  hs : t.winHs d = s.winHs d
  avail : t.available d = s.available d
  rate : t.get R.SCU_PACE_RATE_RATE d = s.get R.SCU_PACE_RATE_RATE d
  valid : t.get R.SCU_PACE_RATE_VALID d = s.get R.SCU_PACE_RATE_VALID d

theorem SameRate.refl (d : Nat) (s : State) : SameRate d s s := ⟨rfl, rfl, rfl, rfl, rfl⟩

theorem SameRate.trans {d : Nat} {s t u : State} (h : SameRate d s t) (k : SameRate d t u) : SameRate d s u :=
  ⟨k.busy.trans h.busy, k.hs.trans h.hs, k.avail.trans h.avail, k.rate.trans h.rate, k.valid.trans h.valid⟩

/-- A rate field of one domain stands apart from what another domain's rate follows from. -/
theorem SameRate.set {d e : Nat} (he : e < 17) (hne : d ≠ e) (s : State) {f : Fld}
    (hf : f = R.SCU_PACE_RATE_RATE ∨ f = R.SCU_PACE_RATE_VALID) (v : Nat) : SameRate d s (s.set f v e) := by
  have hkeep (g : Fld) (i : Nat) (hg : g.key i 0 ≠ f.key e 0) : (s.set f v e).get g i = s.get g i := State.get_set_ne _ _ _ _ _ _ _ _ hg
  have hstate (i : Nat) : (s.set f v e).engState i = s.engState i := hkeep _ _ (by
    obtain rfl | rfl := hf <;> simp only [Fld.key, R.IEA_ENG_STATUS_STATE, R.SCU_PACE_RATE_RATE, R.SCU_PACE_RATE_VALID] <;> omega)
  have hrest (g : Fld) (hg : g ∈ [R.SCU_PACE_BUSY, R.SCU_PACE_HS, R.SCU_PACE_RATE_RATE, R.SCU_PACE_RATE_VALID]) :
      (s.set f v e).get g d = s.get g d := hkeep _ _ (by
    simp only [List.mem_cons, List.not_mem_nil, or_false] at hg
    obtain rfl | rfl := hf <;> obtain rfl | rfl | rfl | rfl := hg <;>
      simp only [Fld.key, R.SCU_PACE_BUSY, R.SCU_PACE_HS, R.SCU_PACE_RATE_RATE, R.SCU_PACE_RATE_VALID] <;> omega)
  have hwindow : (s.set f v e).get R.SCU_PACE_CTRL_WINDOW = s.get R.SCU_PACE_CTRL_WINDOW := hkeep _ _ (by
    obtain rfl | rfl := hf <;> simp only [Fld.key, R.SCU_PACE_CTRL_WINDOW, R.SCU_PACE_RATE_RATE, R.SCU_PACE_RATE_VALID] <;> omega)
  refine ⟨?_, ?_, ?_, hrest _ (by simp), hrest _ (by simp)⟩
  · simp only [State.winBusy, hrest R.SCU_PACE_BUSY (by simp), State.set_pace]
  · simp only [State.winHs, hrest R.SCU_PACE_HS (by simp), State.set_pace]
  · simp only [State.available, hstate, hwindow]
    rfl

theorem SameRate.writeRate {d e : Nat} (he : e < 17) (hne : d ≠ e) (s : State) : SameRate d s (s.writeRate e) := by
  unfold State.writeRate
  dsimp only
  split
  · exact .set he hne s (.inr rfl) _
  · exact (SameRate.set he hne s (.inl rfl) _).trans (.set he hne _ (.inr rfl) _)

theorem SameRate.each {d : Nat} {xs : List Nat} (hxs : ∀ e ∈ xs, e < 17 ∧ d ≠ e) (s : State) :
    SameRate d s (s.each xs State.writeRate) := by
  induction xs generalizing s with
  | nil => exact .refl d s
  | cons e xs ih =>
    obtain ⟨⟨he, hne⟩, hrest⟩ := List.forall_mem_cons.1 hxs
    exact (SameRate.writeRate he hne s).trans (ih hrest _)

/-- What the pace window writes for a domain. -/
theorem State.writeRate_get (s : State) (d : Nat) :
    ((s.winBusy d = 0 ∨ 100 * s.winBusy d < s.available d) →
      (s.writeRate d).get R.SCU_PACE_RATE_VALID d = 0 ∧ (s.writeRate d).get R.SCU_PACE_RATE_RATE d = s.get R.SCU_PACE_RATE_RATE d) ∧
    (¬ (s.winBusy d = 0 ∨ 100 * s.winBusy d < s.available d) →
      (s.writeRate d).get R.SCU_PACE_RATE_VALID d = 1 ∧ (s.writeRate d).get R.SCU_PACE_RATE_RATE d =
        min 65535 (roundDiv ((if d = 16 then 25 else 250) * s.winHs d) (s.winBusy d))) := by
  have hapart : R.SCU_PACE_RATE_RATE.key d 0 ≠ R.SCU_PACE_RATE_VALID.key d 0 := by
    simp only [Fld.key, R.SCU_PACE_RATE_RATE, R.SCU_PACE_RATE_VALID]
    omega
  unfold State.writeRate
  dsimp only
  refine ⟨fun h => ?_, fun h => ?_⟩
  · rw [if_pos h]
    exact ⟨State.get_set_self .., State.get_set_ne _ _ _ _ _ _ _ _ hapart⟩
  · rw [if_neg h, State.get_set_ne _ _ _ _ _ _ _ _ hapart]
    refine ⟨State.get_set_self .., (State.get_set_self ..).trans ?_⟩
    rw [satU, Nat.mod_eq_of_lt]
    · exact Nat.min_comm ..
    · exact Nat.lt_of_le_of_lt (Nat.min_le_right ..) (by decide)

/-- Settles O8: the rate of a domain is written from its own counts, which the other domains' writes leave alone. -/
theorem paceWindowEnd : Obligations.PaceWindowEnd := by
  refine ⟨fun t s h => ?_, fun s d hd => ?_⟩
  · change execPaceWindowEnd t s = _
    rw [execPaceWindowEnd, if_neg (by simp [h])]
  · obtain ⟨pre, post, hsplit⟩ := List.append_of_mem (List.mem_range.2 hd)
    have hnodup : (pre ++ d :: post).Nodup := hsplit ▸ List.nodup_range
    have hrange : ∀ e ∈ pre ++ d :: post, e < 17 := fun e he => List.mem_range.1 (hsplit ▸ he)
    obtain ⟨-, hnd, hdisj⟩ := List.nodup_append.1 hnodup
    have hpre : ∀ e ∈ pre, e < 17 ∧ d ≠ e := fun e he =>
      ⟨hrange e (List.mem_append_left _ he), fun hde => hdisj e he d List.mem_cons_self hde.symm⟩
    have hpost : ∀ e ∈ post, e < 17 ∧ d ≠ e := fun e he =>
      ⟨hrange e (List.mem_append_right _ (List.mem_cons_of_mem _ he)), fun hde => (List.nodup_cons.1 hnd).1 (hde ▸ he)⟩
    have heach : s.each domains State.writeRate = ((s.each pre State.writeRate).writeRate d).each post State.writeRate := by
      rw [domains, hsplit, State.each, List.foldl_append, List.foldl_cons]
      rfl
    have hbefore := SameRate.each hpre s
    have hafter := SameRate.each hpost ((s.each pre State.writeRate).writeRate d)
    have hwrite := (s.each pre State.writeRate).writeRate_get d
    rw [hbefore.busy, hbefore.hs, hbefore.avail, hbefore.rate] at hwrite
    dsimp only
    rwa [heach, hafter.valid, hafter.rate]

end Sys2Proof.Machine
end

section
/-! PROOFS. What each reset keeps (R484, R524, R547, R548, R574). -/

open Sys2Proof Sys2Proof.Stated

namespace Sys2Proof.Machine

theorem SMap.find_filter {α : Type} (m : SMap α) (p : Nat → Bool) (q : Nat) :
    SMap.find? (m.filter fun e => p e.1) q = if p q then SMap.find? m q else none := by
  induction m with
  | nil => simp [SMap.find?]
  | cons e m ih =>
    obtain ⟨k, v⟩ := e
    by_cases hk : q = k
    · subst hk
      cases hp : p q <;> simp [SMap.find?, hp, ih]
    · cases hp : p k <;> simp [SMap.find?, hp, hk, ih]

/-- A register keeps its value where its bit address is among those kept, and is at its reset value elsewhere. -/
theorem State.get_clearedBut (s : State) (keys : List Nat) (f : Fld) (i j : Nat) :
    (s.clearedBut keys).get f i j = if f.key i j ∈ keys then s.get f i j else f.resetAt i := by
  have h : SMap.get (s.clearedBut keys).regs (f.resetAt i) (f.key i j) =
      (if keys.contains (f.key i j) then SMap.find? s.regs (f.key i j) else none).getD (f.resetAt i) :=
    congrArg (fun o => o.getD (f.resetAt i)) (SMap.find_filter s.regs keys.contains (f.key i j))
  rw [State.get, h]
  by_cases hk : f.key i j ∈ keys
  · simp [hk, State.get, SMap.get]
  · simp [hk]

/-- What the reset of a device leaves: the kept registers, blank memories, the queue of commands and what has been sent. -/
structure ResetTo (keep : List Nat) (s t : State) : Prop where
  fields : ∀ (f : Fld) (i j : Nat), f.key i j ≠ R.SMC_DEV_STATE_STATE.key 0 0 →
    t.get f i j = if f.key i j ∈ keep then s.get f i j else f.resetAt i
  blank : ∀ a : Nat, t.hbm.byte a = 0 ∧ t.leaf.byte a = 0 ∧ t.mbox.byte a = 0
  queue : t.pending = s.pending
  sent : ∃ l, t.out = s.out ++ l

/-- A reset clears all but the fields it keeps and sets the device state. -/
theorem ResetTo.clearedBut {s u : State} (hget : ∀ f i j, u.get f i j = s.get f i j) (hqueue : u.pending = s.pending)
    (hsent : ∃ l, u.out = s.out ++ l) (keep : List Nat) (d : Nat) :
    ResetTo keep s ((u.clearedBut keep).set R.SMC_DEV_STATE_STATE d) where
  fields f i j hf := by rw [State.get_set_ne _ _ _ _ _ _ _ _ hf, State.get_clearedBut, hget]
  blank a := ⟨Memory.byte_nil a, Memory.byte_nil a, Memory.byte_nil a⟩
  queue := hqueue
  sent := hsent

/-- Fields beside the registers, memories, queue and output do not matter. -/
theorem ResetTo.congr {keep : List Nat} {s t u : State} (h : ResetTo keep s t) (hregs : u.regs = t.regs) (hhbm : u.hbm = t.hbm)
    (hleaf : u.leaf = t.leaf) (hmbox : u.mbox = t.mbox) (hqueue : u.pending = t.pending) (hout : u.out = t.out) : ResetTo keep s u where
  fields f i j hf := (State.get_congr hregs f i j).trans (h.fields f i j hf)
  blank := by rw [hhbm, hleaf, hmbox]; exact h.blank
  queue := hqueue.trans h.queue
  sent := by rw [hout]; exact h.sent

theorem State.emit_sent (s : State) (o : Output) : ∃ l, (s.emit o).out = s.out ++ l := by
  unfold State.emit
  split
  · exact ⟨[], by simp⟩
  · exact ⟨[o], rfl⟩

theorem State.set_dev (s : State) (d : Nat) : (s.set R.SMC_DEV_STATE_STATE d).dev = d % 16 := State.get_set_self ..

/-! ### The three resets -/

theorem exec_devResetEntry {s : State} (hdue : s.smc.resetDue = true) (hlatch : s.dev ≠ Dev.thermalLatch) :
    exec .devResetEntry s = .next s.resetDevice := by
  change execDevResetEntry s = _
  rw [execDevResetEntry, if_pos hdue, if_neg hlatch]

theorem State.resetDevice_resets (s : State) : ResetTo (fuseKeys ++ keptKeys ++ [R.THM_STATUS_TRIP.key 0 0]) s s.resetDevice :=
  (ResetTo.clearedBut (fun _ _ _ => rfl) rfl ⟨[], (List.append_nil _).symm⟩ _ Dev.reset).congr rfl rfl rfl rfl rfl rfl

theorem porAssert_resets (s : State) : ResetTo (fuseKeys ++ [R.THM_STATUS_TRIP.key 0 0]) s (s.emit .inactive).resetAll :=
  .clearedBut (s.emit_get .inactive) (s.emit_pending .inactive) (s.emit_sent .inactive) _ _

/-- The state in which VCORE is gone: a latched trip has been released. -/
def State.released (s : State) : State := if s.on R.THM_STATUS_TRIP then s.emit (.pin "THERM_TRIP_N" 0 1) else s

/-- The state after VCORE_REMOVED. -/
def State.unpowered (s : State) : State :=
  let t := (s.released.clearedBut fuseKeys).set R.SMC_DEV_STATE_STATE Dev.off
  { t with smc := { t.smc with hbmRefresh := false } }

theorem exec_vcoreRemoved (s : State) : exec .vcoreRemoved s = .next s.unpowered := rfl

theorem State.unpowered_resets (s : State) : ResetTo fuseKeys s s.unpowered := by
  have hreleased : (∀ f i j, s.released.get f i j = s.get f i j) ∧ s.released.pending = s.pending ∧ ∃ l, s.released.out = s.out ++ l := by
    unfold State.released
    split
    · exact ⟨s.emit_get _, s.emit_pending _, s.emit_sent _⟩
    · exact ⟨fun _ _ _ => rfl, rfl, [], (List.append_nil _).symm⟩
  obtain ⟨hget, hqueue, hsent⟩ := hreleased
  exact (ResetTo.clearedBut hget hqueue hsent fuseKeys Dev.off).congr rfl rfl rfl rfl rfl rfl

/-- A trip is released on its pin unless the device is silent. -/
theorem State.unpowered_out {s : State} (htrip : s.on R.THM_STATUS_TRIP = true) (hs : s.held = false) :
    s.unpowered.out = s.out ++ [.pin "THERM_TRIP_N" 0 1] := by
  change s.released.out = _
  rw [State.released, if_pos htrip, State.emit_out _ _ (State.silent_eq_false hs rfl)]

/-- Settles O51: each reset clears the register store down to the fields it keeps. -/
theorem resetsKeepOnly : Obligations.ResetsKeepOnly := by
  refine ⟨fun s t keep h => ?_, fun s hdue hlatch => ⟨_, exec_devResetEntry hdue hlatch, State.set_dev _ Dev.reset⟩, fun s => ?_,
    fun s => ⟨_, exec_vcoreRemoved s, State.set_dev _ Dev.off, State.unpowered_out⟩, fun s h => ?_⟩
  · have hreset : ResetTo keep s t := by
      obtain ⟨rfl, hdue, hlatch, he⟩ | ⟨rfl, he⟩ | ⟨rfl, he⟩ := h
      · rw [exec_devResetEntry hdue hlatch] at he
        cases he
        exact s.resetDevice_resets
      · cases he
        exact porAssert_resets s
      · cases he
        exact s.unpowered_resets
    exact ⟨hreset.fields, hreset.blank, hreset.queue, hreset.sent⟩
  · refine ⟨_, rfl, (State.set_dev _ _).trans ?_⟩
    have hdev : (s.emit .inactive).dev = s.dev := s.emit_get ..
    rw [hdev]
    split <;> rfl
  · exact if_pos (.inl h)

end Sys2Proof.Machine
end

section
/-! PROOFS. Host writes that reach their register, and with them the host reader, the mailbox pointers, the fitting registers and the
snapshot latch (R10, R11, R52, R57, R189, R190, R206, R336, R513, R514, R519 to R522). -/

open Sys2Proof Sys2Proof.Stated

namespace Sys2Proof.Machine

/-! ### Checks -/

@[simp] theorem refuseIf_true (c : Status) : refuseIf true c = some c := rfl

@[simp] theorem refuseIf_false (c : Status) : refuseIf false c = none := rfl

@[simp] theorem checkAt_true (c : Status) (a : Nat) : checkAt true c a = some (c, a) := rfl

@[simp] theorem checkAt_false (c : Status) (a : Nat) : checkAt false c a = none := rfl

/-- A written one-bit field with its bit set. -/
theorem bits_or_two_pow (v k : Nat) : bits (v ||| 2 ^ k) k 1 = 1 := by
  rw [bits, Nat.shiftRight_or_distrib, ← Nat.one_shiftLeft, Nat.shiftLeft_shiftRight]
  simp [Nat.or_mod_two_eq_one]

/-! ### Host writes that reach their register -/

section
variable {s : State} {w : World} {id : RegId} {i j : Nat} {last : Option Fld} {li : Nat}

theorem State.hostWrite_act (h : Reaches s w id i j) (act : Reg → State → State) :
    ∃ r, id.desc? = some r ∧ s.hostWrite w id i j none last li act = act r s := by
  obtain ⟨r, hr, hheld, hboot, rfl | ⟨hns, hrws⟩⟩ := h
  · exact ⟨r, hr, by simp [State.hostWrite, hr, hheld, hboot]⟩
  · exact ⟨r, hr, by simp [State.hostWrite, hr, hheld, hboot, hns, hrws]⟩

theorem State.hostWrite_taken (h : Reaches s w id i j) (g : State → State) :
    s.hostWrite w id i j none last li (fun _ => g) = g s := by
  obtain ⟨-, -, he⟩ := State.hostWrite_act (last := last) (li := li) h fun _ => g
  exact he

theorem State.rowWrite_taken (h : Reaches s w id i j) (v : Nat) (g : State → State) :
    s.rowWrite w id i j v none last li g = g (wrote s w id i j v) := by
  obtain ⟨r, hr, he⟩ := State.hostWrite_act (last := last) (li := li) h fun r s => g (s.writeAll w r i j v)
  rw [State.rowWrite, he, wrote, hr]

theorem State.hostWrite_refused (h : Reaches s w id i j) (c : Status) (act : Reg → State → State) :
    s.hostWrite w id i j (some c) last li act = s.refuse w c last li := by
  obtain ⟨r, hr, hheld, hboot, rfl | ⟨hns, hrws⟩⟩ := h
  · simp [State.hostWrite, hr, hheld, hboot]
  · simp [State.hostWrite, hr, hheld, hboot, hns, hrws]

theorem State.rowWrite_refused (h : Reaches s w id i j) (v : Nat) (c : Status) (g : State → State) :
    s.rowWrite w id i j v (some c) last li g = s.refuse w c last li := State.hostWrite_refused h ..

end

/-- A host read that its world may make. -/
theorem State.hostRead_shown {s : State} {w : World} {a : Nat} (hheld : s.held = false) (hw : w = .secure ∨ s.addrWorld a = .nonSecure)
    (n v : Nat) (act : State → State) : s.hostRead w a n v act = act (s.emit (.readData w a (leBytes n v))) := by
  obtain rfl | hns := hw
  · simp [State.hostRead, hheld]
  · simp [State.hostRead, hheld, hns]

/-! ### The host reader of the store -/

/-- A refusal in either of two places is the first, where the first ranks at least as high. -/
theorem pickStatus_first {c d : Status} {b : Bool} (h : c.rank ≤ d.rank) : pickStatus [some c, refuseIf b d] = some c := by
  cases b with
  | true => simp [pickStatus, Nat.not_lt.2 h]
  | false => rfl

/-- A write of a mark's line that sets the mark, with the line among the retained ones. -/
theorem State.hostMark_set {s : State} {w : World} {n m x : Nat} (hr : Reaches s w .SST_ST_MARK_HI n m)
    (hset : R.SST_ST_MARK_SET.of x = 1) (hclear : R.SST_ST_MARK_CLEAR.of x = 0)
    (hu : s.relLine n ≤ spliceBits (s.get R.SST_ST_MARK_LINE n m) 32 16 x) (hwp : spliceBits (s.get R.SST_ST_MARK_LINE n m) 32 16 x ≤ s.wp n) :
    s.hostMark w n m x =
      let t := wrote s w .SST_ST_MARK_HI n m x
      ((t.setSto n { t.sto n with marks := SMap.insert (t.sto n).marks m (spliceBits (s.get R.SST_ST_MARK_LINE n m) 32 16 x) }).set
        R.SST_ST_MARK_VALID 1 n m).syncStore n := by
  simp [State.hostMark, hset, hclear, State.rowWrite_taken hr, Nat.not_lt.2 hu, Nat.not_lt.2 hwp]

theorem State.hostMark_refused {s : State} {w : World} {n m x : Nat} (hr : Reaches s w .SST_ST_MARK_HI n m)
    (hset : R.SST_ST_MARK_SET.of x = 1) (hor : spliceBits (s.get R.SST_ST_MARK_LINE n m) 32 16 x < s.relLine n ∨
      s.wp n < spliceBits (s.get R.SST_ST_MARK_LINE n m) 32 16 x) :
    s.hostMark w n m x = (s.countRefused w .range).set R.SST_ST_HOST_CTRL_LAST_STATUS 3 n := by
  have hcheck : (decide (spliceBits (s.get R.SST_ST_MARK_LINE n m) 32 16 x < s.relLine n) ||
      decide (s.wp n < spliceBits (s.get R.SST_ST_MARK_LINE n m) 32 16 x)) = true := by simpa using hor
  simp only [State.hostMark, hset, hcheck, decide_true, Bool.and_self, refuseIf_true]
  exact State.rowWrite_refused hr ..

theorem State.hostMark_clear {s : State} {w : World} {n m x : Nat} (hr : Reaches s w .SST_ST_MARK_HI n m)
    (hset : R.SST_ST_MARK_SET.of x = 0) (hclear : R.SST_ST_MARK_CLEAR.of x = 1) :
    s.hostMark w n m x =
      let t := wrote s w .SST_ST_MARK_HI n m x
      ((t.setSto n { t.sto n with marks := SMap.erase (t.sto n).marks m }).set R.SST_ST_MARK_VALID 0 n m).syncStore n := by
  simp [State.hostMark, hset, hclear, State.rowWrite_taken hr]

/-- Settles O23: each write that reaches its register is judged by the check of its row, and a word with a command bit set has it. -/
theorem hostReader : Obligations.HostReader := by
  have hrewBit (v : Nat) : R.SST_ST_HOST_CTRL_REWIND.of (v ||| 8) = 1 := bits_or_two_pow v 3
  have hsetBit (v : Nat) : R.SST_ST_MARK_SET.of (v ||| 2 ^ 29) = 1 := bits_or_two_pow v 29
  have hclearBit (v : Nat) : R.SST_ST_MARK_CLEAR.of (v ||| 2 ^ 30) = 1 := bits_or_two_pow v 30
  refine ⟨fun w n v s hr => ⟨fun hrew hen hoff => ?_, fun hen hon l hl => ?_, fun hen => ?_, fun hen hnone => ?_⟩,
    fun n m l s hl hv => by simp [State.rewindRead, hl, hv], ?_, fun w n m v s hr => ⟨?_, fun hset => congrArg Host.Outcome.next (?_ : s.hostMark w n m (v.toNat ||| 2 ^ 30) = _)⟩⟩
  · refine congrArg Host.Outcome.next (?_ : s.hostCtrl w n v.toNat = _)
    simp [State.hostCtrl, pickStatus, State.rowWrite_taken hr, State.setHostEn, hrew, hen, hoff]
  · refine congrArg Host.Outcome.next (?_ : s.hostCtrl w n (v.toNat ||| 8) = _)
    simp [State.hostCtrl, pickStatus, State.rowWrite_taken hr, State.setHostEn, hrewBit, hen, hon, hl]
  · refine congrArg Host.Outcome.next (?_ : s.hostCtrl w n (v.toNat ||| 8) = _)
    simp only [State.hostCtrl, hrewBit, hen, decide_true, Bool.and_self, Bool.true_and, refuseIf_true]
    rw [pickStatus_first (by decide), State.rowWrite_refused hr]
    rfl
  · refine congrArg Host.Outcome.next (?_ : s.hostCtrl w n (v.toNat ||| 8) = _)
    simp only [State.hostCtrl, hrewBit, hen, hnone, decide_true, Option.isNone_none, Bool.and_self, refuseIf_true]
    exact State.rowWrite_refused hr ..
  · intro w n hi v s hr old new
    refine ⟨fun hor => congrArg Host.Outcome.next ?_, fun hon hor => congrArg Host.Outcome.next ?_⟩
    · refine Eq.trans (congrArg (s.hostWrite w _ n 0 · _ _ _) ?_) (State.hostWrite_taken hr _)
      obtain hoff | ⟨hle, hwp⟩ := hor
      · simp [hoff]
      · have hout : (decide (s.wp n < new) || decide (new < old)) = false := by simp [hle, hwp]
        exact if_neg (by rw [hout, Bool.and_false]; exact Bool.false_ne_true)
    · refine Eq.trans (congrArg (s.hostWrite w _ n 0 · _ _ _) ?_) (State.hostWrite_refused hr .range _)
      rw [hon, Bool.true_and, Bool.or_comm]
      exact if_pos (by simpa using hor)
  · intro x l hclear
    exact ⟨fun hu hwp => congrArg Host.Outcome.next (State.hostMark_set hr (hsetBit _) hclear hu hwp),
      fun hor => congrArg Host.Outcome.next (State.hostMark_refused hr (hsetBit _) hor)⟩
  · exact State.hostMark_clear hr hset (hclearBit _)

/-- The field at bit address `k` is one of the fields of an element of a register. -/
def RegId.hasKey (id : RegId) (i j k : Nat) : Bool := id.desc?.any fun r => (r.parts.map fun p => p.fld.key i j).contains k

/-- A written word changes no field but those of its register. -/
theorem State.get_wrote_ne (s : State) (w : World) (id : RegId) (i j v : Nat) (f : Fld) (k l : Nat)
    (h : id.hasKey i j (f.key k l) = false) : (wrote s w id i j v).get f k l = s.get f k l := by
  unfold wrote
  cases hr : id.desc? with
  | none => rfl
  | some r =>
    rw [RegId.hasKey, hr] at h
    exact State.get_foldl_writePart_ne s w r.parts i j v f k l (by simpa using h)

/-! ### The mailbox pointers -/

/-- Settles O53: the check of TAIL is the one of the entries it would withdraw, and a command without room sets WAIT_RSP alone. -/
theorem mailboxRings : Obligations.MailboxRings := by
  refine ⟨fun w r v s hr => ?_, fun w r v s hr => ?_, fun r s hready hop hext hroom => ?_⟩
  · intro new
    refine ⟨fun hle => congrArg Host.Outcome.next ?_, fun hlt => congrArg Host.Outcome.next ?_⟩
    · refine Eq.trans (congrArg (s.rowWrite w _ r 0 _ · _ _ _) ?_) (State.rowWrite_taken hr _ _)
      exact if_neg (by simpa using hle)
    · refine Eq.trans (congrArg (s.rowWrite w _ r 0 _ · _ _ _) ?_) (State.rowWrite_refused hr _ .range _)
      exact if_pos (by simpa using hlt)
  · intro t
    have he : exec (.mailboxRspHeadWrite w r v) s = .next (if t.mbRoom r then t.set R.SMC_MB_STATUS_WAIT_RSP 0 r else t) :=
      congrArg Host.Outcome.next (State.rowWrite_taken hr _ _)
    exact ⟨fun hroom => by rw [he, if_pos hroom], fun hroom => by rw [he, if_neg (by simp [hroom])]⟩
  · have hheld : 0 < s.mbHeld r := by
      simp only [State.mbReady, Bool.and_eq_true, decide_eq_true_eq] at hready
      omega
    refine congrArg Host.Outcome.next (?_ : s.command r Op.devInfo _ = _)
    simp [State.command, hready, hop, hext, hheld, hroom, State.waitRsp, show opExt Op.devInfo = some 0 from rfl]

/-! ### The fitting registers -/

/-- The terms in which the row judges SMC_VFIT_CTRL and SMC_VFIT_LIMITS are the legal values (R57). -/
theorem ctrlLegal_iff (x : Nat) : ctrlLegal x ↔ (decide (R.SMC_VFIT_CTRL_MARGIN.of x < 15) || decide (50 < R.SMC_VFIT_CTRL_MARGIN.of x) ||
    decide (R.SMC_VFIT_CTRL_STEP.of x = 0) || decide (4 < R.SMC_VFIT_CTRL_STEP.of x) || decide (50 < R.SMC_VFIT_CTRL_GUARD.of x)) = false := by
  simp only [Bool.or_eq_false_iff, decide_eq_false_iff_not]
  simp only [ctrlLegal, Fld.of, R.SMC_VFIT_CTRL_MARGIN, R.SMC_VFIT_CTRL_STEP, R.SMC_VFIT_CTRL_GUARD]
  omega

theorem limitsLegal_iff (x : Nat) : limitsLegal x ↔ (decide (R.SMC_VFIT_LIMITS_VMIN.of x < 650) ||
    decide (950 < R.SMC_VFIT_LIMITS_VMIN.of x) || decide (R.SMC_VFIT_LIMITS_VMAX.of x < 650) ||
    decide (950 < R.SMC_VFIT_LIMITS_VMAX.of x) || decide (R.SMC_VFIT_LIMITS_VMAX.of x < R.SMC_VFIT_LIMITS_VMIN.of x)) = false := by
  simp only [Bool.or_eq_false_iff, decide_eq_false_iff_not]
  simp only [limitsLegal, Fld.of, R.SMC_VFIT_LIMITS_VMIN, R.SMC_VFIT_LIMITS_VMAX]
  omega

/-- A write to a secure register of the SMC block from another world takes no field and is the cross-world access (R576). -/
theorem State.rowWrite_rws {s : State} {w : World} {id : RegId} {v : Nat} {last : Option Fld} {li : Nat} {act : State → State}
    (hw : w ≠ .secure) (hid : (id.desc?.any fun r => r.hasRws && r.parts.all fun p => p.fld.acc = .rws) = true)
    (haddr : id.addr 0 0 < 0x100000) (hns : s.addrWorld (id.addr 0 0) = .nonSecure) (hheld : s.held = false) (hact : act s = s) :
    s.rowWrite w id 0 0 v none last li act = (s.crossWorld (xwSource w) true (id.addr 0 0)).countRefused w .world := by
  obtain ⟨r, hr, hparts⟩ := (Option.any_eq_true _ _).1 hid
  obtain ⟨hsome, hrws⟩ := Bool.and_eq_true_iff.1 hparts
  rw [RegId.addr_of_desc hr] at haddr hns
  have hkeep (ps : List Part) (h : ∀ p ∈ ps, p.fld.acc = .rws) : ps.foldl (fun t p => t.writePart w p 0 0 v) s = s := by
    induction ps with
    | nil => rfl
    | cons p ps ih =>
      obtain ⟨hp, hps⟩ := List.forall_mem_cons.1 h
      have hp1 : s.writePart w p 0 0 v = s := by simp [State.writePart, hp, hw]
      rw [List.foldl_cons, hp1, ih hps]
  have hall : s.writeAll w r 0 0 v = s := hkeep r.parts (by simpa using hrws)
  have hboot : s.bootHeld (r.addr 0 0) = false := by simp [State.bootHeld, Nat.not_le.2 haddr]
  simp [State.rowWrite, State.hostWrite, hr, hheld, hns, hboot, hw, hsome, hall, hact, RegId.addr_of_desc hr]

/-- A legal secure write of SMC_VFIT_CTRL is judged by the regulator's VOUT_MODE alone. -/
theorem exec_vfitCtrlWrite_legal {v : BitVec 32} (s : State) (hlegal : ctrlLegal v.toNat) :
    exec (.vfitCtrlWrite .secure v) s = .next (s.rowWrite .secure .SMC_VFIT_CTRL 0 0 v.toNat
      (refuseIf (decide (bits v.toNat 0 1 = 1) && s.on R.SMC_PMB_STATUS_MODE_ERR) .range) none 0 fun t =>
      if s.on R.SMC_VFIT_CTRL_EN = true ∧ ¬ bits v.toNat 0 1 = 1 then
        (({ t with pace := { t.pace with discard := false, holdLeft := 0 } } : State).set R.SMC_VFIT_STATUS_STATE 0).writeVset
          (t.get R.SMC_VFIT_LIMITS_VMAX)
      else if bits v.toNat 0 1 = 1 ∧ ¬ s.on R.SMC_VFIT_CTRL_EN = true then t.set R.SMC_VFIT_STATUS_STATE 1 else t) := by
  change execVfitCtrlWrite .secure v s = _
  have hen : R.SMC_VFIT_CTRL_EN.of v.toNat = bits v.toNat 0 1 := rfl
  simp [execVfitCtrlWrite, (ctrlLegal_iff _).1 hlegal, hen]
  rfl

/-- Settles O10: a legal value is one that the row does not refuse, and what it writes leaves the limits and the switch as they stood. -/
theorem fittingRegisterWrites : Obligations.FittingRegisterWrites := by
  refine ⟨?_, ?_, fun v w s hheld => ⟨fun hbad => ?_, fun hbad => ?_, fun hw => ⟨?_, ?_⟩⟩,
    fun mv s => ⟨fun he => by simp [State.writeVset, he], fun he => by simp [State.writeVset, he]⟩, ?_⟩
  · intro v s hr hlegal t
    have hvmax : t.get R.SMC_VFIT_LIMITS_VMAX = s.get R.SMC_VFIT_LIMITS_VMAX := State.get_wrote_ne _ _ _ _ _ _ _ _ _ (by decide +kernel)
    simp only [exec_vfitCtrlWrite_legal s hlegal]
    refine ⟨fun hoff hen hmode => ?_, fun hon hen => ?_, fun hoff hen => ?_, fun hon hen hmode => ?_, fun hen hmode => ?_⟩
    · simp [hoff, hen, hmode, State.rowWrite_taken hr, t]
    · simp [hon, hen, State.rowWrite_taken hr, ← hvmax, t]
    · simp [hoff, hen, State.rowWrite_taken hr, t]
    · simp [hon, hen, hmode, State.rowWrite_taken hr, t]
    · simp [hen, hmode, State.rowWrite_refused hr, State.refuse]
  · intro v s hr hlegal
    change execVfitLimitsWrite .secure v s = _
    have hon : (wrote s .secure .SMC_VFIT_LIMITS 0 0 v.toNat).on R.SMC_VFIT_CTRL_EN = s.on R.SMC_VFIT_CTRL_EN :=
      congrArg (fun x => decide (x ≠ 0)) (State.get_wrote_ne _ _ _ _ _ _ _ _ _ (by decide +kernel))
    have hhi : R.SMC_VFIT_LIMITS_VMAX.of v.toNat = bits v.toNat 16 12 := rfl
    rw [execVfitLimitsWrite, if_neg (by rw [(limitsLegal_iff _).1 hlegal]; simp), State.rowWrite_taken hr]
    cases hs : s.on R.SMC_VFIT_CTRL_EN <;> simp [hon, hs, hhi]
  · change execVfitCtrlWrite .secure v s = _
    have hb := Bool.of_not_eq_false fun h => hbad ((ctrlLegal_iff _).2 h)
    simp [execVfitCtrlWrite, hb, hheld, State.limitErr]
  · change execVfitLimitsWrite .secure v s = _
    have hb := Bool.of_not_eq_false fun h => hbad ((limitsLegal_iff _).2 h)
    simp [execVfitLimitsWrite, hb, hheld, State.limitErr]
  · change execVfitCtrlWrite w v s = _
    rw [execVfitCtrlWrite, if_neg fun h => hw h.1, if_neg hw]
    exact congrArg _ (State.rowWrite_rws hw (by decide +kernel) (by decide +kernel) rfl hheld (if_pos hw))
  · change execVfitLimitsWrite w v s = _
    rw [execVfitLimitsWrite, if_neg fun h => hw h.1]
    exact congrArg _ (State.rowWrite_rws hw (by decide +kernel) (by decide +kernel) rfl hheld (if_neg fun h => hw h.1))
  · intro code data s a pec
    exact ⟨fun hpage => by simp [State.pmbus, hpage, a, pec], fun hpage => by simp [State.pmbus, hpage, a, pec]⟩

/-! ### The snapshot latch -/

/-- Holding registers filled one after another with what a state shows. -/
def holdAll (h : SMap Nat) (at_ val : Nat → Nat) (ks : List Nat) : SMap Nat := ks.foldl (fun h k => SMap.put h 0 (at_ k) (val k)) h

theorem get_holdAll_ne (h : SMap Nat) (at_ val : Nat → Nat) (ks : List Nat) (x : Nat) (hx : ∀ k ∈ ks, x ≠ at_ k) :
    SMap.get (holdAll h at_ val ks) 0 x = SMap.get h 0 x := by
  induction ks generalizing h with
  | nil => rfl
  | cons k ks ih =>
    obtain ⟨hk, hks⟩ := List.forall_mem_cons.1 hx
    rw [holdAll, List.foldl_cons]
    exact (ih _ hks).trans (SMap.get_put_ne _ _ _ _ hk)

theorem get_holdAll_mem (h : SMap Nat) (at_ val : Nat → Nat) (ks : List Nat) (hinj : ∀ k l, at_ k = at_ l → k = l) (hnd : ks.Nodup)
    {k : Nat} (hk : k ∈ ks) : SMap.get (holdAll h at_ val ks) 0 (at_ k) = val k := by
  induction ks generalizing h with
  | nil => cases hk
  | cons l ks ih =>
    obtain ⟨hl, hnd⟩ := List.nodup_cons.1 hnd
    rw [holdAll, List.foldl_cons]
    obtain rfl | hk := List.mem_cons.1 hk
    · exact (get_holdAll_ne _ _ _ _ _ fun m hm he => hl (by rwa [hinj _ _ he])).trans (SMap.get_put_self ..)
    · exact ih _ hnd hk

theorem State.each_hold (s : State) (at_ : Nat → Nat) (f : Fld) (i : Nat) (ks : List Nat) :
    s.each ks (fun s k => { s with hold := SMap.put s.hold 0 (at_ k) (s.get f i k) }) =
      { s with hold := holdAll s.hold at_ (fun k => s.get f i k) ks } := by
  unfold State.each
  induction ks generalizing s with
  | nil => rfl
  | cons k ks ih => rw [List.foldl_cons, ih]; rfl

theorem snap_addr (n k : Nat) : RegId.addr .SCU_SEAL_ST_SNAP n k = 0x20A140 + 0x100 * n + 4 * k := by
  rw [RegId.addr_of_desc (r := ⟨.SCU_SEAL_ST_SNAP, 0x20A140, 0x100, 8, 0x4, 15, [⟨R.SCU_SEAL_ST_SNAP_COUNT, 0, 0, 32, false⟩]⟩)
    (by decide +kernel)]
  rfl

theorem snapBand_addr (n : Nat) : RegId.addr .SCU_SEAL_ST_SNAP_BAND_LO n = 0x20A120 + 0x100 * n ∧
    RegId.addr .SCU_SEAL_ST_SNAP_BAND_HI n = 0x20A124 + 0x100 * n := by
  rw [RegId.addr_of_desc (r := ⟨.SCU_SEAL_ST_SNAP_BAND_LO, 0x20A120, 0x100, 8, 0, 1, [⟨R.SCU_SEAL_ST_SNAP_BAND_BAND, 0, 0, 32, false⟩]⟩)
    (by decide +kernel), RegId.addr_of_desc (r := ⟨.SCU_SEAL_ST_SNAP_BAND_HI, 0x20A124, 0x100, 8, 0, 1,
    [⟨R.SCU_SEAL_ST_SNAP_BAND_BAND, 32, 0, 10, false⟩]⟩) (by decide +kernel)]
  simp [Reg.addr]

/-- The registers that show the copies are found at their addresses. -/
theorem findReg_snap : (∀ n : Fin 8, (findReg (RegId.addr .SCU_SEAL_ST_SNAP_BAND_HI n)).map (fun x => (x.1.id, x.2)) =
      some (.SCU_SEAL_ST_SNAP_BAND_HI, n.val, 0)) ∧
    ∀ (n : Fin 8) (i : Fin 15), (findReg (RegId.addr .SCU_SEAL_ST_SNAP n i)).map (fun x => (x.1.id, x.2)) =
      some (.SCU_SEAL_ST_SNAP, n.val, i.val) := by decide +kernel

/-- A read of a register that shows a copy gives the copy and changes nothing. -/
theorem State.controlRead_latched {s : State} {w : World} {a i j : Nat} {id : RegId} {t : Int} (hheld : s.held = false)
    (hw : w = .secure ∨ s.addrWorld a = .nonSecure) (hfind : (findReg a).map (fun x => (x.1.id, x.2)) = some (id, i, j))
    (hlatched : latched.contains id = true) (hrow : readRows.contains id = false) (hpair : pairLo.contains id = false) :
    s.controlRead w a t = s.emit (.readData w a (leBytes 4 (SMap.get s.hold (holdReset id) a))) := by
  obtain ⟨⟨r, k, l⟩, hf, he⟩ := Option.map_eq_some_iff.1 hfind
  obtain ⟨-, haddr⟩ := findReg_some hf
  cases he
  simp only [State.controlRead, hf, hrow, Bool.false_eq_true, if_false, State.hostRead_shown hheld hw, State.latchPair, hpair,
    State.readRegister, hlatched, if_true, haddr]

/-- Settles O30: the read fills 16 holding registers in turn, and a read of one of these shows it. -/
theorem snapshotLatch : Obligations.SnapshotLatch := by
  refine ⟨fun w n s hheld hw => ?_, fun w n k now s hheld hw hk => ?_⟩
  · intro a b
    have hout := State.emit_out s (.readData w a (leBytes 4 (b % 2 ^ 32))) (State.silent_eq_false hheld rfl)
    have hhi : RegId.addr .SCU_SEAL_ST_SNAP_BAND_HI n = a + 4 := by
      simp only [a, snapBand_addr]
      omega
    have hinj (k l : Nat) (h : RegId.addr .SCU_SEAL_ST_SNAP n k = RegId.addr .SCU_SEAL_ST_SNAP n l) : k = l := by
      simp only [snap_addr] at h
      omega
    have hne (k : Nat) : RegId.addr .SCU_SEAL_ST_SNAP_BAND_HI n ≠ RegId.addr .SCU_SEAL_ST_SNAP n k := by
      simp only [snap_addr, snapBand_addr]
      omega
    have hrun : exec (.snapshotBandLoRead w n) s = .next { s.emit (.readData w a (leBytes 4 (b % 2 ^ 32))) with
        hold := holdAll (SMap.put s.hold 0 (a + 4) (b / 2 ^ 32)) (fun k => RegId.addr .SCU_SEAL_ST_SNAP n k)
          (fun k => s.get R.SCU_SEAL_ST_SNAP_COUNT n k) (List.range 15) } := by
      refine congrArg Host.Outcome.next ((State.hostRead_shown hheld hw _ _ _).trans ?_)
      rw [State.each_hold]
      simp only [State.get, State.emit_hold, State.emit_regs]
      rfl
    refine ⟨_, hrun, hout, State.emit_regs .., ⟨State.emit_hbm .., State.emit_leaf .., State.emit_mbox ..⟩, ?_, fun i => ?_,
      fun x hx hxs => ?_⟩
    · rw [get_holdAll_ne _ _ _ _ _ fun k _ => hne k, hhi]
      exact SMap.get_put_self ..
    · exact get_holdAll_mem _ _ _ _ hinj List.nodup_range (List.mem_range.2 i.isLt)
    · rw [get_holdAll_ne _ _ _ _ _ fun k hk => hxs ⟨k, List.mem_range.1 hk⟩]
      exact SMap.get_put_ne _ _ _ _ (hhi ▸ hx)
  · have hemit (o : Output) (ho : o.held = false) : s.emit o = { s with out := s.out ++ [o] } :=
      if_neg (by simp [State.silent_eq_false hheld ho])
    refine congrArg Host.Outcome.next (?_ : s.controlRead w (4 * k.val) now = _)
    rw [← hemit _ rfl]
    obtain hhi | ⟨i, hi⟩ := hk
    · exact State.controlRead_latched hheld hw (hhi ▸ findReg_snap.1 n) (by decide) (by decide) (by decide)
    · exact State.controlRead_latched hheld hw (hi ▸ findReg_snap.2 n i) (by decide) (by decide) (by decide)

end Sys2Proof.Machine
end

section
/-! PROOFS. The set point, its waits, and admission (R46 to R55, R515, R551). -/

open Sys2Proof Sys2Proof.Stated

namespace Sys2Proof.Machine

/-! ### The waits -/

/-- PMBus commands change nothing but what is sent. -/
@[simp] theorem State.pmbus_get (s : State) (code data : Nat) (f : Fld) (i j : Nat) : (s.pmbus code data).get f i j = s.get f i j := by
  unfold State.pmbus
  dsimp only
  split <;> simp

@[simp] theorem State.pmbus_pace (s : State) (code data : Nat) : (s.pmbus code data).pace = s.pace := by
  unfold State.pmbus
  dsimp only
  split <;> simp

@[simp] theorem State.writeVset_pace (s : State) (mv : Nat) : (s.writeVset mv).pace = s.pace := by
  unfold State.writeVset
  split <;> simp

/-- Fields apart from VSET stand through a new set point. -/
theorem State.writeVset_get (s : State) (mv : Nat) (f : Fld) (i j : Nat) (h : f.key i j ≠ R.SMC_VFIT_STATUS_VSET.key 0 0) :
    (s.writeVset mv).get f i j = s.get f i j := by
  unfold State.writeVset
  split
  · rfl
  · rw [State.pmbus_get, State.get_set_ne _ _ _ _ _ _ _ _ h]

@[simp] theorem State.get_with_pace (s : State) (p : Pace) (f : Fld) (i j : Nat) :
    ({ s with pace := p } : State).get f i j = s.get f i j := rfl

@[simp] theorem State.on_with_pace (s : State) (p : Pace) (f : Fld) (i j : Nat) :
    ({ s with pace := p } : State).on f i j = s.on f i j := rfl

/-- A read-back completes the waits of a stage alone. -/
theorem State.completeWaits_stage {s : State} {r : Nat} (h : s.pace.waits = [.stage r]) :
    s.completeWaits = ({ s with pace := { s.pace with waits := [] } } : State).finishStage r := by
  simp [State.completeWaits, h, State.each]

/-- A field reads back a value that fits it. -/
theorem State.get_set_lt (s : State) (f : Fld) (v i j : Nat) (h : v < 2 ^ f.width) : (s.set f v i j).get f i j = v :=
  (State.get_set_self ..).trans (Nat.mod_eq_of_lt h)

theorem State.bootVcoreFail_get (s : State) (f : Fld) (i j : Nat) (h1 : f.key i j ≠ R.SMC_BOOT_STATUS_VCORE_FAIL.key 0 0)
    (h2 : f.key i j ≠ R.SMC_VFIT_STATUS_VSET.key 0 0) (h3 : f.key i j ≠ R.SMC_BOOT_STATUS_STEP.key 0 0) :
    s.bootVcoreFail.get f i j = s.get f i j := by
  simp only [State.bootVcoreFail, State.bootStage4]
  rw [State.get_set_ne _ _ _ _ _ _ _ _ h3]
  refine (State.get_set_ne _ _ _ _ _ _ _ _ h2).trans ?_
  exact State.get_set_ne _ _ _ _ _ _ _ _ h1

theorem State.bootVcoreFail_waits (s : State) : s.bootVcoreFail.pace.waits = s.pace.waits.filter (· ≠ .boot) := rfl

/-- Fitting switched off by a lost set point (R515): no window to discard and no hold period. -/
def State.fittingDown (s : State) : State :=
  (({ s with pace := { s.pace with discard := false, holdLeft := 0 } } : State).set R.SMC_VFIT_CTRL_EN 0).writeVset
    (s.get R.SMC_VFIT_LIMITS_VMAX)

theorem State.fittingDown_pace (s : State) : s.fittingDown.pace = { s.pace with discard := false, holdLeft := 0 } := by
  simp [State.fittingDown]

theorem State.fittingDown_en (s : State) : s.fittingDown.get R.SMC_VFIT_CTRL_EN = 0 :=
  (State.writeVset_get _ _ _ _ _ (by decide)).trans (State.get_set_self ..)

theorem State.fittingDown_err (s : State) : s.fittingDown.get R.SMC_PMB_STATUS_ERR = s.get R.SMC_PMB_STATUS_ERR := by
  rw [State.fittingDown, State.writeVset_get _ _ _ _ _ (by decide), State.get_set_ne _ _ _ _ _ _ _ _ (by decide)]
  rfl

/-- The two more attempts of the transaction begun last (R515). -/
def State.retried (s : State) : State :=
  match lastPmbus s.out with
  | some x => (s.pmbus x.1 x.2).pmbus x.1 x.2
  | none => s

@[simp] theorem State.retried_pace (s : State) : s.retried.pace = s.pace := by
  unfold State.retried
  split <;> simp

@[simp] theorem State.retried_get (s : State) (f : Fld) (i j : Nat) : s.retried.get f i j = s.get f i j := by
  unfold State.retried
  split <;> simp

/-- The report of a bus failure. -/
def State.busFailed (s : State) : State := (s.retried.set R.SMC_PMB_STATUS_ERR 1).raise Ev.pmbusError

@[simp] theorem State.busFailed_pace (s : State) : s.busFailed.pace = s.pace := by simp [State.busFailed]

theorem State.busFailed_get_err (s : State) : s.busFailed.get R.SMC_PMB_STATUS_ERR = 1 := by
  rw [State.busFailed, State.raise_get _ _ _ _ _ (by decide) (by decide) (by decide)]
  exact State.get_set_self ..

theorem State.busFailed_get_en (s : State) : s.busFailed.get R.SMC_VFIT_CTRL_EN = s.get R.SMC_VFIT_CTRL_EN := by
  rw [State.busFailed, State.raise_get _ _ _ _ _ (by decide) (by decide) (by decide), State.get_set_ne _ _ _ _ _ _ _ _ (by decide),
    State.retried_get]

@[simp] theorem State.busFailed_on_en (s : State) : s.busFailed.on R.SMC_VFIT_CTRL_EN = s.on R.SMC_VFIT_CTRL_EN := by
  simp only [State.on, s.busFailed_get_en]

/-- A bus failure with no wait left ends in STATE 5, with fitting off. -/
theorem exec_pmbusTransactionFail {s u : State} (hheld : s.held = false)
    (hu : u = if s.pace.waits.contains .boot then s.busFailed.bootVcoreFail else s.busFailed) (hw : u.pace.waits = []) :
    exec .pmbusTransactionFail s = .next ((if u.on R.SMC_VFIT_CTRL_EN then u.fittingDown else u).set R.SMC_VFIT_STATUS_STATE 5) := by
  have hrun : exec .pmbusTransactionFail s = (
      let v := if s.busFailed.pace.waits.contains .boot then s.busFailed.bootVcoreFail else s.busFailed
      if s.held then .next s
      else if v.pace.waits ≠ [] then .next v.failWaits
      else .next ((if v.on R.SMC_VFIT_CTRL_EN then v.fittingDown else v).set R.SMC_VFIT_STATUS_STATE 5)) := rfl
  rw [hrun, State.busFailed_pace, ← hu]
  simp [hheld, hw]

theorem voltageAndBusWaits : Stated.VoltageAndBusWaits := by
  refine ⟨fun s hleft hst => ?_, fun s r hw => ?_, fun s mv r hw hd hin => ?_, fun s word hword hheld => ?_, fun s hw hheld hoff => ?_,
    fun s hw hheld hon => ?_⟩
  · change execVfitHoldEnd s = _
    have hst' : ({ s with pace := { s.pace with holdLeft := 0 } } : State).get R.SMC_VFIT_STATUS_STATE = 3 := hst
    simp [execVfitHoldEnd, hleft, hst']
  · change execVmaxReadbackTimeout s = _
    simp [execVmaxReadbackTimeout, State.failWaits, State.each, hw]
  · change execPmbusReadbackPoll mv s = _
    have hvmax : ((s.pmbus 0x8B 0).set R.SMC_PMB_STATUS_VREAD mv.toNat).get R.SMC_VFIT_LIMITS_VMAX = s.get R.SMC_VFIT_LIMITS_VMAX := by
      rw [State.get_set_ne _ _ _ _ _ _ _ _ (by decide), State.pmbus_get]
    simp [execPmbusReadbackPoll, hw, hd, hvmax, hin, State.completeWaits_stage]
  · change execPmbusAlert word s = _
    simp [execPmbusAlert, hheld, hword]
  · rw [exec_pmbusTransactionFail hheld (u := s.busFailed) (by simp [hw]) (by simp [hw]), State.busFailed_on_en, hoff]
    rfl
  · suffices h : ∃ u : State, u.pace.waits = [] ∧ u.on R.SMC_VFIT_CTRL_EN = true ∧ u.get R.SMC_PMB_STATUS_ERR = 1 ∧
        u = if s.pace.waits.contains .boot then s.busFailed.bootVcoreFail else s.busFailed by
      obtain ⟨u, hnone, hen, herr, hu⟩ := h
      refine ⟨_, exec_pmbusTransactionFail hheld hu hnone, ?_⟩
      simp (disch := decide) only [hen, if_true, State.fittingDown_pace, State.get_set_ne, State.get_set_lt, State.fittingDown_en,
        State.fittingDown_err, herr, hnone, State.set_pace, and_self]
    obtain hw | hw := hw
    · exact ⟨_, by simp [hw], by simp [hon], s.busFailed_get_err, by simp [hw]⟩
    · refine ⟨s.busFailed.bootVcoreFail, by simp [State.bootVcoreFail_waits, hw], ?_, ?_, by simp [hw]⟩
      · rw [State.on, State.bootVcoreFail_get _ _ _ _ (by decide) (by decide) (by decide), s.busFailed_get_en]
        exact hon
      · rw [State.bootVcoreFail_get _ _ _ _ (by decide) (by decide) (by decide), s.busFailed_get_err]

theorem phi5000_table : ∀ i < 6, ∀ d ≤ 50,
    phi5000 (650 + 50 * i + d) = 50 * [70, 85, 100, 110, 118, 125, 130].getD i 0 +
      d * ([70, 85, 100, 110, 118, 125, 130].getD (i + 1) 0 - [70, 85, 100, 110, 118, 125, 130].getD i 0) := by decide

theorem phi5000_above {mv : Nat} (h : 950 < mv) : phi5000 mv = 6500 := by
  have hnot (v : Nat) (hv : v ≤ 950) : ¬ mv ≤ v := by omega
  have hlow : ¬ mv < 650 := by omega
  simp [phi5000, phiTable, phiBetween, hlow, hnot]

theorem foldl_add_eq_sum {α : Type} (xs : List α) (f : α → Nat) (b : Nat) : xs.foldl (fun a x => a + f x) b = b + (xs.map f).sum := by
  induction xs generalizing b with
  | nil => simp
  | cons x xs ih => rw [List.foldl_cons, ih, List.map_cons, List.sum_cons, Nat.add_assoc]

/-- The core load as a sum over the stations (R46). -/
theorem State.coreLoad_eq (s : State) (active : Nat → Bool) (rate : Nat → Nat) :
    s.coreLoad active rate = ((List.range 8).map fun n =>
      if active n then ((s.station n).heads.map fun p => s.headCols p * s.headPlanes p * rate n).sum else 0).sum := by
  have hacc (acc n : Nat) : (if active n then acc + s.stationLoad n (rate n) else acc) = acc + if active n then
      ((s.station n).heads.map fun p => s.headCols p * s.headPlanes p * rate n).sum else 0 := by
    cases active n <;> simp [State.stationLoad, foldl_add_eq_sum]
  simp only [State.coreLoad, hacc, foldl_add_eq_sum, stations8, Nat.zero_add]

/-- An engine's load lies within its share of the capacity (R48). -/
def fitsEngine (active : Nat → Bool) (rate : Nat → Nat) (mv t : Nat) (e : Nat × Nat × Nat) : Prop :=
  active e.2.1 = true → e.2.2 * rate e.2.1 * 80000 ≤ baseE * phi5000 mv * (16 - t)

/-- The test of the row is the one of R48. -/
theorem over_iff (active : Nat → Bool) (rate : Nat → Nat) (mv t : Nat) (e : Nat × Nat × Nat) :
    (active e.2.1 && decide (capacity80k baseE mv t < e.2.2 * rate e.2.1 * 80000)) = true ↔ ¬ fitsEngine active rate mv t e := by
  rw [Bool.and_eq_true, decide_eq_true_iff]
  simp [fitsEngine, capacity80k]

theorem State.judgeLoad_pipe {s : State} {active : Nat → Bool} {rate : Nat → Nat} {mv t : Nat} (eng : List (Nat × Nat × Nat))
    (h : ¬ s.coreLoad active rate * 80000 ≤ baseP * phi5000 mv * (16 - t)) :
    s.judgeLoad active rate eng mv t = ⟨false, 16, 0x1FF, s.coreLoad active rate⟩ := if_pos (Nat.lt_of_not_le h)

theorem State.judgeLoad_fits {s : State} {active : Nat → Bool} {rate : Nat → Nat} {mv t : Nat} {eng : List (Nat × Nat × Nat)}
    (h : s.coreLoad active rate * 80000 ≤ baseP * phi5000 mv * (16 - t)) (hall : ∀ e ∈ eng, fitsEngine active rate mv t e) :
    s.judgeLoad active rate eng mv t = ⟨true, 0x1F, 0x1FF, s.coreLoad active rate⟩ := by
  have hnone : (eng.filter fun e => active e.2.1 && decide (capacity80k baseE mv t < e.2.2 * rate e.2.1 * 80000)) = [] :=
    List.filter_eq_nil_iff.2 fun e he hover => (over_iff ..).1 hover (hall e he)
  exact (if_neg (Nat.not_lt.2 h)).trans (by rw [hnone])

/-- The least number of a list of engines is that of one of them. -/
theorem foldl_min_eq {es : List (Nat × Nat × Nat)} {m n : Nat} (hmem : n = m ∨ ∃ x ∈ es, x.1 = n) (hm : n ≤ m)
    (hes : ∀ x ∈ es, n ≤ x.1) : es.foldl (fun m x => min m x.1) m = n := by
  induction es generalizing m with
  | nil =>
    obtain rfl | ⟨x, hx, -⟩ := hmem
    · rfl
    · cases hx
  | cons x es ih =>
    obtain ⟨hx, hrest⟩ := List.forall_mem_cons.1 hes
    refine ih ?_ (Nat.le_min.2 ⟨hm, hx⟩) hrest
    obtain rfl | ⟨y, hy, rfl⟩ := hmem
    · exact .inl (Nat.min_eq_left hx).symm
    · obtain rfl | hy := List.mem_cons.1 hy
      · exact .inl (Nat.min_eq_right hm).symm
      · exact .inr ⟨y, hy, rfl⟩

/-- The first engine that does not fit is the one named. -/
theorem State.judgeLoad_engine {s : State} {active : Nat → Bool} {rate : Nat → Nat} {mv t : Nat} {eng : List (Nat × Nat × Nat)}
    (h : s.coreLoad active rate * 80000 ≤ baseP * phi5000 mv * (16 - t)) {e : Nat × Nat × Nat} (he : e ∈ eng)
    (hover : ¬ fitsEngine active rate mv t e) (hfirst : ∀ x ∈ eng, ¬ fitsEngine active rate mv t x → e.1 ≤ x.1) :
    s.judgeLoad active rate eng mv t = ⟨false, e.1 / 32, e.1, s.coreLoad active rate⟩ := by
  have hmem : e ∈ eng.filter fun e => active e.2.1 && decide (capacity80k baseE mv t < e.2.2 * rate e.2.1 * 80000) :=
    List.mem_filter.2 ⟨he, (over_iff ..).2 hover⟩
  have hle : ∀ x ∈ eng.filter fun e => active e.2.1 && decide (capacity80k baseE mv t < e.2.2 * rate e.2.1 * 80000), e.1 ≤ x.1 :=
    fun x hx => hfirst x (List.mem_filter.1 hx).1 ((over_iff ..).1 (List.mem_filter.1 hx).2)
  refine (if_neg (Nat.not_lt.2 h)).trans ?_
  generalize (eng.filter fun e => active e.2.1 && decide (capacity80k baseE mv t < e.2.2 * rate e.2.1 * 80000)) = bad at hmem hle
  cases bad with
  | nil => cases hmem
  | cons b bs =>
    obtain ⟨hb, hbs⟩ := List.forall_mem_cons.1 hle
    have hmin : bs.foldl (fun m x => min m x.1) b.1 = e.1 := by
      refine foldl_min_eq ?_ hb hbs
      obtain rfl | hm := List.mem_cons.1 hmem
      · exact .inl rfl
      · exact .inr ⟨e, hm, rfl⟩
    simp [hmin]

/-- A field written with saturation reads back the value held to its top. -/
theorem State.get_setSat_self (s : State) (f : Fld) (v i j : Nat) : (s.setSat f v i j).get f i j = min v (2 ^ f.width - 1) :=
  State.get_set_lt _ _ _ _ _ (by have := Nat.two_pow_pos f.width; unfold satU; omega)

theorem State.get_setSat_ne (s : State) (f g : Fld) (v i j k l : Nat) (h : g.key k l ≠ f.key i j) :
    (s.setSat f v i j).get g k l = s.get g k l := State.get_set_ne _ _ _ _ _ _ _ _ h

/-- What a judgement leaves in the registers of admission. -/
theorem State.admission_of_judged {s : State} {active : Nat → Bool} {rate : Nat → Nat} {eng : List (Nat × Nat × Nat)} {t2 : Option Nat}
    {j : Admission} (hj : s.judgeLoad active rate eng s.vAdm (t2.getD s.throttle) = j) :
    let r := s.admission active rate eng t2
    r.1 = j.ok ∧ r.2.get R.SCU_ADM_CAP_VADM = s.vAdm % 4096 ∧
    r.2.get R.SCU_ADM_CAP_CAP = min 65535 (roundDiv (baseP * phi5000 s.vAdm * (16 - t2.getD s.throttle)) 800000000000) ∧
    (j.ok = true → r.2.get R.SCU_ADM_STATUS_RESULT = 0 ∧ r.2.get R.SCU_ADM_STATUS_FAIL_DOMAIN = 31 ∧
      r.2.get R.SCU_ADM_STATUS_FAIL_ENGINE = 511 ∧ r.2.get R.SCU_ADM_LOAD_LOAD = min 65535 (roundDiv j.load 10000000) ∧
      r.2.get R.SCU_ADM_COUNT_NOFIT = s.get R.SCU_ADM_COUNT_NOFIT) ∧
    (j.ok = false → r.2.get R.SCU_ADM_STATUS_RESULT = Status.nofit.code ∧ r.2.get R.SCU_ADM_LOAD_LOAD = s.get R.SCU_ADM_LOAD_LOAD ∧
      r.2.get R.SCU_ADM_COUNT_NOFIT = (s.get R.SCU_ADM_COUNT_NOFIT + 1) % 2 ^ 32 ∧
      r.2.get R.SCU_ADM_STATUS_FAIL_DOMAIN = j.domain % 2 ^ 5 ∧ r.2.get R.SCU_ADM_STATUS_FAIL_ENGINE = j.engine % 2 ^ 9) := by
  intro r
  have hcap : r.2.get R.SCU_ADM_CAP_CAP = min (roundDiv (capacity80k baseP s.vAdm (t2.getD s.throttle)) (80000 * 10000000)) (2 ^ 16 - 1) ∧
      r.2.get R.SCU_ADM_CAP_VADM = s.vAdm % 4096 := by
    simp only [r, State.admission, hj]
    cases j.ok <;> simp (disch := decide) only [if_true, if_false, Bool.false_eq_true, State.add, State.get_set_ne, State.get_setSat_ne,
      State.get_setSat_self, State.get_set_self] <;> exact ⟨rfl, rfl⟩
  refine ⟨?_, hcap.2, ?_, fun hok => ?_, fun hok => ?_⟩
  · simp only [r, State.admission, hj]
    cases hok : j.ok <;> rfl
  · rw [hcap.1, Nat.min_comm]
    rfl
  · simp only [r, State.admission, hj, hok, if_true]
    simp (disch := decide) only [State.get_set_ne, State.get_setSat_ne, State.get_setSat_self, State.get_set_lt]
    exact ⟨trivial, trivial, trivial, Nat.min_comm .., trivial⟩
  · simp only [r, State.admission, hj, hok, Bool.false_eq_true, if_false, State.add]
    simp (disch := decide) only [State.get_set_ne, State.get_setSat_ne, State.get_set_self]
    exact ⟨rfl, trivial, rfl, rfl, rfl⟩

/-- Of the engines with a property one has the least number. -/
theorem exists_first_engine {eng : List (Nat × Nat × Nat)} {p : Nat × Nat × Nat → Prop} (h : ∃ e ∈ eng, p e) :
    ∃ e ∈ eng, p e ∧ ∀ x ∈ eng, p x → e.1 ≤ x.1 := by
  obtain ⟨e, he, hp⟩ := h
  generalize hn : e.1 = n
  induction n using Nat.strongRecOn generalizing e with
  | ind n ih =>
    by_cases hless : ∃ x ∈ eng, p x ∧ x.1 < n
    · obtain ⟨x, hx, hpx, hlt⟩ := hless
      exact ih x.1 hlt x hx hpx rfl
    · exact ⟨e, he, hp, fun x hx hpx => Nat.le_of_not_lt fun hlt => hless ⟨x, hx, hpx, hn ▸ hlt⟩⟩

theorem admissionCheck : Stated.AdmissionCheck := by
  refine ⟨fun s active rate eng t2 => ?_, State.coreLoad_eq, fun mv => ⟨fun h => if_pos h, phi5000_above⟩, fun i d hi hd => phi5000_table i hi d hd⟩
  intro t v load pipe fits r
  have hpipe : pipe ↔ s.coreLoad active rate * 80000 ≤ baseP * phi5000 s.vAdm * (16 - t2.getD s.throttle) := Iff.rfl
  have hfits (e : Nat × Nat × Nat) : fits e ↔ fitsEngine active rate s.vAdm (t2.getD s.throttle) e := Iff.rfl
  by_cases hp : pipe
  · by_cases hall : ∀ e ∈ eng, fits e
    · have hj := State.judgeLoad_fits (hpipe.1 hp) fun e he => (hfits e).1 (hall e he)
      obtain ⟨hok, hvadm, hcap, hpass, -⟩ := State.admission_of_judged hj
      exact ⟨iff_of_true hok ⟨hp, hall⟩, hvadm, hcap, fun _ => hpass rfl, fun hno => absurd (hok.symm.trans hno) Bool.noConfusion,
        fun hn => absurd hp hn, fun _ e he hover => absurd (hall e he) hover⟩
    · have hfail (e : Nat × Nat × Nat) (he : e ∈ eng) (hover : ¬ fits e) (hfirst : ∀ x ∈ eng, ¬ fits x → e.1 ≤ x.1) :=
        State.admission_of_judged (t2 := t2) (State.judgeLoad_engine (hpipe.1 hp) he hover hfirst)
      obtain ⟨e, he, hover, hfirst⟩ := exists_first_engine (p := fun e => ¬ fits e) (by simpa using hall)
      obtain ⟨hok, hvadm, hcap, -, hregs⟩ := hfail e he hover hfirst
      obtain ⟨hres, hload, hcount, -⟩ := hregs rfl
      refine ⟨iff_of_false (fun hyes => absurd (hok.symm.trans hyes) Bool.noConfusion) fun h => hall h.2, hvadm, hcap,
        fun hyes => absurd (hok.symm.trans hyes) Bool.noConfusion, fun _ => ⟨hres, hload, hcount⟩, fun hn => absurd hp hn,
        fun _ x hx hxover hlt hxfirst => ?_⟩
      obtain ⟨-, -, -, -, hregs⟩ := hfail x hx hxover hxfirst
      obtain ⟨-, -, -, hdom, heng⟩ := hregs rfl
      exact ⟨hdom.trans (Nat.mod_eq_of_lt (by simp only; omega)), heng.trans (Nat.mod_eq_of_lt hlt)⟩
  · have hj := State.judgeLoad_pipe eng (mt hpipe.2 hp)
    obtain ⟨hok, hvadm, hcap, -, hfail⟩ := State.admission_of_judged hj
    obtain ⟨hres, hload, hcount, hdom, heng⟩ := hfail rfl
    exact ⟨iff_of_false (fun hyes => absurd (hok.symm.trans hyes) Bool.noConfusion) fun h => hp h.1, hvadm, hcap, fun hyes => absurd (hok.symm.trans hyes) Bool.noConfusion,
      fun _ => ⟨hres, hload, hcount⟩, fun _ => ⟨hdom, heng⟩, fun h => absurd h hp⟩

/-- Settles O9: the waits of the set point, and the judgement of a load by its three cases: over for the pipeline, over for an engine, fits. -/
theorem voltageWaits : Obligations.VoltageWaits := ⟨voltageAndBusWaits, admissionCheck⟩

end Sys2Proof.Machine
end

section
/-! PROOFS. Registers of the head links, of the host streams and of the axes (R86, R87, R90, R98, R375, R376, R379, R383, R463, R467, R468,
R474). -/

open Sys2Proof Sys2Proof.Stated

namespace Sys2Proof.Machine

/-! ### What a written register leaves alone -/

/-- Writing parts of registers changes register fields only. -/
theorem State.foldl_writePart_regs (s : State) (w : World) (ps : List Part) (i j v : Nat) :
    ∃ m, ps.foldl (fun t p => t.writePart w p i j v) s = { s with regs := m } := by
  induction ps generalizing s with
  | nil => exact ⟨s.regs, rfl⟩
  | cons p ps ih =>
    rw [List.foldl_cons]
    obtain hs | ⟨y, hs⟩ := s.writePart_cases w p i j v
    · rw [hs]
      exact ih s
    · rw [hs]
      obtain ⟨m, hm⟩ := ih (s.set p.fld y i j)
      exact ⟨m, hm⟩

theorem wrote_regs (s : State) (w : World) (id : RegId) (i j v : Nat) : ∃ m, wrote s w id i j v = { s with regs := m } := by
  unfold wrote
  cases id.desc? with
  | none => exact ⟨s.regs, rfl⟩
  | some r => exact State.foldl_writePart_regs s w r.parts i j v

section
variable (s : State) (w : World) (id : RegId) (i j v : Nat)

@[simp] theorem wrote_hlf : (wrote s w id i j v).hlf = s.hlf := by obtain ⟨m, h⟩ := wrote_regs s w id i j v; rw [h]
@[simp] theorem wrote_ttc : (wrote s w id i j v).ttc = s.ttc := by obtain ⟨m, h⟩ := wrote_regs s w id i j v; rw [h]
@[simp] theorem wrote_head (n : Nat) : (wrote s w id i j v).head n = s.head n := by simp [State.head]
@[simp] theorem wrote_axis (n : Nat) : (wrote s w id i j v).axis n = s.axis n := by simp [State.axis]

end

/-! ### The head link registers -/

/-- The next request to a head is the host's, where no read of bring-up is out. -/
theorem State.nextRequest_host {s : State} {p : Nat} {c : CfgReq} (hask : s.headAsked p = false) (hc : s.hlf.cfgReq = some c) (hp : c.port = p) :
    s.nextRequest p = ({ s with hlf := { s.hlf with cfgReq := some { c with sent := true } } } : State).sendPacket (2 * p)
      (cfgHdr c.write c.addr c.tag) [c.data] := by
  have hf : (s.hlf.cfgReq.filter fun d => d.port = p) = some c := by rw [hc, Option.filter_some, if_pos (by simpa using hp)]
  simp only [State.nextRequest, hask, hf, Bool.false_eq_true, if_false]

/-- A request of the host goes to its head at once, where no read of bring-up is out. -/
theorem State.sendRequest {t : State} {p : Nat} {c : CfgReq} (hask : (t.head p).ask = none) (hp : c.port = p) (n : Nat) :
    (({ t with hlf := { t.hlf with cfgReq := some { c with sent := false }, nextTag := n } } : State).set R.HLF_CFG_CMD_BUSY 1).nextRequest p =
      (({ t with hlf := { t.hlf with cfgReq := some { c with sent := true }, nextTag := n } } : State).set R.HLF_CFG_CMD_BUSY 1).sendPacket (2 * p)
        (cfgHdr c.write c.addr c.tag) [c.data] := by
  have hidle : (({ t with hlf := { t.hlf with cfgReq := some { c with sent := false }, nextTag := n } } : State).set
      R.HLF_CFG_CMD_BUSY 1).headAsked p = false := by
    simp only [State.headAsked, State.set_head, State.set_hlf, Option.any_some, Bool.and_false, Bool.or_false]
    exact congrArg Option.isSome hask
  rw [State.nextRequest_host hidle rfl hp]
  rfl

/-- A request of the host to a head: what it names is in the registers written. -/
theorem exec_headCfgRequest {w : World} {v : BitVec 32} {s : State} (hr : Reaches s w .HLF_CFG_CMD 0 0) (hgo : bit v.toNat 0 = true)
    (hbusy : s.on R.HLF_CFG_CMD_BUSY = false) :
    let t := wrote s w .HLF_CFG_CMD 0 0 v.toNat
    let p := t.get R.HLF_CFG_ADDR_PORT
    let c : CfgReq := ⟨t.hlf.nextTag, p, t.get R.HLF_CFG_ADDR_ADDR, t.on R.HLF_CFG_CMD_WRITE, t.get R.HLF_CFG_DATA_DATA, true⟩
    exec (.headCfgRequest w v) s = .next (
      if t.portActive p ∧ p < 96 then
        (({ t with hlf := { t.hlf with cfgReq := some { c with sent := false }, nextTag := (t.hlf.nextTag + 1) % 256 } } : State).set
          R.HLF_CFG_CMD_BUSY 1).nextRequest p
      else t.set R.HLF_CFG_CMD_STATUS 9) := by
  change execHeadCfgRequest w v s = _
  simp only [execHeadCfgRequest, hgo, hbusy, Bool.and_false, refuseIf_false, State.rowWrite_taken hr]
  rfl

theorem exec_headCfgRequest_busy {w : World} {v : BitVec 32} {s : State} (hr : Reaches s w .HLF_CFG_CMD 0 0)
    (hgo : bit v.toNat 0 = true) (hbusy : s.on R.HLF_CFG_CMD_BUSY = true) :
    exec (.headCfgRequest w v) s = .next ((s.countRefused w .busy).set R.HLF_CFG_CMD_STATUS 6) := by
  change execHeadCfgRequest w v s = _
  simp only [execHeadCfgRequest, hgo, hbusy, Bool.and_self, refuseIf_true, State.rowWrite_refused hr]
  rfl

/-- A commanded renegotiation of a head of a station. -/
theorem exec_portRetrain {w : World} {p : Fin 96} {v : BitVec 32} {n : Nat} {s : State} (hr : Reaches s w .HLF_PORT_CTRL p 0)
    (hgo : bit v.toNat 24 = true) (hn : s.stationOfHead (s.get R.HLF_PORT_STATE_PRIMARY p) = some n) (hidle : s.stBusy n = false)
    (hon : ((wrote s w .HLF_PORT_CTRL p 0 v.toNat).portEnable p).on R.HLF_PORT_CTRL_EN p = true) :
    exec (.portRetrain w p v) s =
      .next (((wrote s w .HLF_PORT_CTRL p 0 v.toNat).portEnable p).renegotiate (s.get R.HLF_PORT_STATE_PRIMARY p)) := by
  change execPortRetrain w p v s = _
  simp only [execPortRetrain, hgo, hn, hidle, Bool.and_false, refuseIf_false, State.rowWrite_taken hr, hon, and_self, if_true]

theorem exec_portRetrain_busy {w : World} {p : Fin 96} {v : BitVec 32} {n : Nat} {s : State} (hr : Reaches s w .HLF_PORT_CTRL p 0)
    (hgo : bit v.toNat 24 = true) (hn : s.stationOfHead (s.get R.HLF_PORT_STATE_PRIMARY p) = some n) (hbusy : s.stBusy n = true) :
    exec (.portRetrain w p v) s = .next ((s.countRefused w .state).set R.HLF_PORT_STATE_LAST_STATUS 1 p) := by
  change execPortRetrain w p v s = _
  simp only [execPortRetrain, hgo, hn, hbusy, Bool.and_self, refuseIf_true, State.rowWrite_refused hr]
  rfl

/-- Settles O14: each write acts on the register it wrote, unless its check refuses it. -/
theorem headLinkRegisters : Obligations.HeadLinkRegisters := by
  refine ⟨fun w v s hr => congrArg Host.Outcome.next (State.rowWrite_taken hr _ _),
    fun w p v s hr => congrArg Host.Outcome.next (State.rowWrite_taken hr _ _), fun w p v n s hr hgo hn => ?_,
    fun w v s hr hgo => ?_, fun s c hc => ?_⟩
  · exact ⟨exec_portRetrain_busy hr hgo hn, exec_portRetrain hr hgo hn⟩
  · refine ⟨exec_headCfgRequest_busy hr hgo, fun hb => ?_⟩
    intro t p
    have hrun := exec_headCfgRequest hr hgo hb
    refine ⟨fun hact hp hask => hrun.trans (congrArg Host.Outcome.next ((if_pos ⟨hact, hp⟩).trans ?_)),
      fun hact => hrun.trans (congrArg Host.Outcome.next (if_neg fun h => absurd (hact.symm.trans h.1) Bool.noConfusion))⟩
    exact State.sendRequest ((congrArg Head.ask (wrote_head ..)).trans hask) rfl _
  · change execHeadCfgTimeout s = _
    simp only [execHeadCfgTimeout, hc]
    rfl

/-! ### The host streams -/

section
variable {s : State} {w : World} {id : RegId} {c : Nat}

theorem State.streamWrite_taken (h : Reaches s w id c 0) (v : Nat) (g : State → State) :
    s.streamWrite w id c v none g = g (wrote s w id c 0 v) :=
  State.rowWrite_taken (last := some R.HIF_STATUS_LAST_STATUS) (li := 0) h v g

/-- A refused stream write is reported in the unit's register and in the stream's own. -/
theorem State.streamWrite_refused (h : Reaches s w id c 0) (v : Nat) (st : Status) (g : State → State) :
    s.streamWrite w id c v (some st) g =
      ((s.countRefused w st).set R.HIF_STATUS_LAST_STATUS st.code).set R.HIF_ST_STATUS_LAST_STATUS st.code c := by
  rw [State.streamWrite, State.rowWrite_refused h]
  obtain ⟨r, hr, hheld, hboot, hworld⟩ := h
  refine if_neg ?_
  rw [RegId.addr_of_desc hr]
  rintro (hh | hh | ⟨hw, hh⟩)
  · exact Bool.noConfusion (hheld.symm.trans hh)
  · exact Bool.noConfusion (hboot.symm.trans hh)
  · obtain rfl | ⟨hns, -⟩ := hworld
    · exact hw rfl
    · cases hns.symm.trans hh

end

/-- Settles O36: the row's check is the one the statement assumes to pass or to fail. -/
theorem streamRegisters : Obligations.StreamRegisters := by
  refine ⟨fun w c v s hr => ⟨fun hoff hcheck => ?_, fun hon hch => ?_⟩, fun w c v s hr => ⟨fun hon hch => ?_, fun hoff => ?_⟩,
    fun w j v s hr => ⟨fun hen hcheck => ?_, fun hen hfree => ?_⟩, fun w c v s hr => ⟨fun hin => ?_, fun hout => ?_⟩⟩
  · change execStreamEnable w c v s = _
    simp only [execStreamEnable, hoff, hcheck, State.streamWrite_taken hr, Bool.false_eq_true, if_false]
  · change execStreamEnable w c v s = _
    have hcheck : s.streamCheck c (v.toNat ||| 1) = some .state := by
      simp only [State.streamCheck, hon, if_true]
      exact if_pos hch
    simp only [execStreamEnable, hcheck, State.streamWrite_refused hr]
    rfl
  · change execStreamDisable w c v s = _
    simp only [streamFields] at hch
    simp only [execStreamDisable, hon, hch, if_true, refuseIf_false, State.streamWrite_taken hr]
  · change execStreamDisable w c v s = _
    simp only [execStreamDisable, hoff, Bool.false_eq_true, if_false, State.streamWrite_taken hr]
  · change execHqEntryEnable w j v s = _
    simp only [execHqEntryEnable, hen, hcheck, if_true, State.rowWrite_taken hr, id]
  · change execHqEntryEnable w j v s = _
    simp only [execHqEntryEnable, hen, hfree, Nat.zero_ne_one, if_false, Bool.not_true, refuseIf_false, State.rowWrite_taken hr, id]
  · change execDmaTailWrite w c v s = _
    simp only [execDmaTailWrite, Nat.not_le.2 hin, decide_false, refuseIf_false, State.streamWrite_taken hr]
  · change execDmaTailWrite w c v s = _
    simp only [execDmaTailWrite, hout, decide_true, refuseIf_true, State.streamWrite_refused hr]
    rfl

/-! ### Axis commands -/

/-- A paced axis in motion, with its link good. -/
def pacedMoving : State :=
  ((State.reset.set R.TTC_AX_STATUS_STATE Ax.moving 0).set R.TTC_AX_STATUS_PACED 1 0).setAxis 0 { prof := { v := 1 } }

/-- Refutes O46: the seventh clause, that an axis that still moves is noted as due to start a linear move, lacks the hypothesis that no
station paces the axis; the linear move of a paced axis is given up at once. -/
theorem not_axisCommands : ¬ Obligations.AxisCommands := by
  rintro ⟨-, -, -, -, -, -, hstart, -⟩
  have hdue := (hstart 0 pacedMoving (by decide +kernel) (by decide +kernel) (by decide +kernel) (by decide +kernel)).1
  exact absurd hdue (by decide +kernel)

end Sys2Proof.Machine
end

section
/-! PROOFS. The registers of the measurement front end (R445). -/

open Sys2Proof Sys2Proof.Stated

namespace Sys2Proof.Machine

/-- An urgent conversion of a three-wire sensor waits for a slot: its two conversions take 22 periods, and 11 are left. -/
def waitingThreeWire : State :=
  { (((State.reset.set R.SMC_BOOT_STATUS_STEP 5).set R.SMC_DEV_STATE_STATE Dev.idle).set R.MFE_STATUS_STATE 1).set R.MFE_ENT_CFG_INPUT 16 with
    mfe := { urg := [0], slack := 11 } }

/-- The excitation that entry 0 holds after an outcome. -/
def heldAfter : Out → Option (List Nat)
  | .next t => (t.ment 0).held
  | _ => none

/-- Refutes O45: a write of the excitation that makes a waiting three-wire sensor a two-wire one lets its urgent conversion fit the slots
left, so the row, which asks the state after the write for the conversion in progress, holds the old excitation for it. The third
clause has no conversion in progress there. -/
theorem not_frontEndRegisters : ¬ Obligations.FrontEndRegisters := by
  rintro ⟨-, -, hexc, -⟩
  have hreach : Reaches waitingThreeWire .secure .MFE_ENT_EXC 0 0 :=
    ⟨⟨.MFE_ENT_EXC, 0x1F01004, 0x40, 64, 0, 1, ((RegId.MFE_ENT_EXC.desc?.map Reg.parts).getD [])⟩, by decide +kernel, by decide +kernel,
      by decide +kernel, .inl rfl⟩
  have hrun := (hexc .secure 0 0 waitingThreeWire hreach).1 (by decide +kernel) (by decide +kernel)
  exact absurd (congrArg heldAfter hrun) (by decide +kernel)

end Sys2Proof.Machine
end

section
/-! PROOFS. The sequencer of the measurement front end and its dwells (R437 to R451). -/

open Sys2Proof Sys2Proof.Stated

namespace Sys2Proof.Machine

/-! ### Frames -/

/-- A pass over a list that changes nothing at each element changes nothing. -/
theorem State.each_id {α : Type} (s : State) (xs : List α) (g : State → α → State) (h : ∀ x ∈ xs, g s x = s) : s.each xs g = s := by
  unfold State.each
  induction xs with
  | nil => rfl
  | cons x xs ih =>
    obtain ⟨hx, hxs⟩ := List.forall_mem_cons.1 h
    rw [List.foldl_cons, hx, ih hxs]

theorem measurementFrames : Stated.MeasurementFrames := by
  refine ⟨fun s hruns hstop hsync hauto => ?_, fun ab bc s e es hruns htodo => ?_, fun ab bc s e es hruns htodo hurg hfit => ?_,
    fun s => ⟨fun hstop hdue => ?_, fun hstop hdue => ?_, fun hstop => ?_⟩⟩
  · have hchains : s.each (List.range 32) (fun s c => if bit s.mfe.sync c then s.restartChain c true else s) = s :=
      s.each_id _ _ fun c _ => if_neg (by simp [hsync, bit])
    change execMfeFrameStart s = _
    rw [execMfeFrameStart, if_neg (by simp [hruns, hstop])]
    simp only [hchains]
    rw [s.each_id (List.range 64)]
    · rfl
    · intro e he
      simp only [hauto e (List.mem_range.1 he)]
  · change execMfeEntrySample ab bc s = _
    simp [execMfeEntrySample, hruns, htodo]
  · change execMfeEntrySample ab bc s = _
    simp [execMfeEntrySample, hruns, htodo, hurg, hfit, State.syncUrgent]
  · simp [State.dwellEnd, State.boundary, hstop, hdue]
  · simp [State.dwellEnd, State.boundary, hstop, hdue]
  · simp [State.dwellEnd, hstop]

/-! ### Calibration and control -/

theorem satS_12 (x : Int) : satS 12 x = max (-2048) (min 2047 x) := by
  unfold satS
  omega

theorem satS_16 (x : Int) : satS 16 x = max (-32768) (min 32767 x) := by
  unfold satS
  omega

/-- A spare replaces the first active slice from the round robin's place on (R438). -/
theorem State.swapSlice_of {s : State} {k : Nat} (hk : k < 5) (hbusy : ∀ d, d < k → s.get R.MFE_SLICE_ROLE ((s.mfe.rr + d) % 5) ≠ 0)
    (hfree : s.get R.MFE_SLICE_ROLE ((s.mfe.rr + k) % 5) = 0) (i : Nat) :
    s.swapSlice i =
      let j := (s.mfe.rr + k) % 5
      let t := ((s.set R.MFE_SLICE_ROLE 0 i).set R.MFE_SLICE_ROLE 1 j).set R.MFE_STATUS_SPARE j
      { t with mfe := { t.mfe with rr := (j + 1) % 5 } } := by
  have hfind : ((List.range 5).map fun d => (s.mfe.rr + d) % 5).find? (fun k => decide (s.get R.MFE_SLICE_ROLE k = 0)) =
      some ((s.mfe.rr + k) % 5) := by
    rw [List.find?_map, Option.map_eq_some_iff]
    refine ⟨k, ?_, rfl⟩
    rw [List.find?_range_eq_some]
    exact ⟨by simpa using hfree, List.mem_range.2 hk, fun d hd => by simpa using hbusy d hd⟩
  simp only [State.swapSlice, hfind]

/-- The registers that a swap of slices leaves alone. -/
theorem State.swapSlice_get (s : State) (i : Nat) (f : Fld) (m n : Nat) (hspare : f.key m n ≠ R.MFE_STATUS_SPARE.key 0 0)
    (hrole : f.lo ≠ 28) (hlo : f.lo < 32) : (s.swapSlice i).get f m n = s.get f m n := by
  have hne (k : Nat) : f.key m n ≠ R.MFE_SLICE_ROLE.key k 0 := by
    simp only [Fld.key, R.MFE_SLICE_ROLE]
    omega
  unfold State.swapSlice
  split
  · refine (State.get_set_ne _ _ _ _ _ _ _ _ hspare).trans ?_
    rw [State.get_set_ne _ _ _ _ _ _ _ _ (hne _), State.get_set_ne _ _ _ _ _ _ _ _ (hne _)]
  · rfl

theorem State.swapSlice_todo (s : State) (i : Nat) : (s.swapSlice i).mfe.todo = s.mfe.todo := by
  unfold State.swapSlice
  split <;> rfl

theorem State.boundary_get (s : State) (f : Fld) (m n : Nat) (hspare : f.key m n ≠ R.MFE_STATUS_SPARE.key 0 0)
    (hrole : f.lo ≠ 28) (hlo : f.lo < 32) : s.boundary.get f m n = s.get f m n := by
  unfold State.boundary
  split
  · exact State.swapSlice_get _ _ _ _ _ hspare hrole hlo
  · rfl

theorem State.boundary_todo (s : State) : s.boundary.mfe.todo = s.mfe.todo := by
  unfold State.boundary
  split
  · exact State.swapSlice_todo ..
  · rfl

/-- The refusal of a write of MFE_CTRL with RAIL in its range: that of a start. -/
def State.ctrlCheck (s : State) (v : Nat) : Option Status :=
  if decide (R.MFE_CTRL_SEQ_EN.of v = 1) && !s.on R.MFE_CTRL_SEQ_EN then
    if decide (R.MFE_CTRL_REF_EN.of v = 1) || decide (s.get R.MFE_SEQ_CTRL_COUNT = 0) then s.seqCheck else some .state
  else none

section
variable {s : State} {w : World} {v : Nat}

theorem State.mfeCtrl_taken (hr : Reaches s w .MFE_CTRL 0 0) (hlo : 16384 ≤ R.MFE_CTRL_RAIL.of v) (hhi : R.MFE_CTRL_RAIL.of v ≤ 32767)
    (hcheck : s.ctrlCheck v = none) : s.mfeCtrl w v =
      let t := wrote s w .MFE_CTRL 0 0 v
      let u := if s.on R.MFE_CTRL_REF_EN = true ∧ ¬ R.MFE_CTRL_REF_EN.of v = 1 then
        (t.set R.MFE_CTRL_SEQ_EN (b2n (s.on R.MFE_CTRL_SEQ_EN))).refOff else t
      if R.MFE_CTRL_SEQ_EN.of v = 1 ∧ s.on R.MFE_CTRL_SEQ_EN = false then u.seqStart
      else if s.on R.MFE_CTRL_SEQ_EN = true ∧ ¬ R.MFE_CTRL_SEQ_EN.of v = 1 then u.seqEnd else u := by
  unfold State.ctrlCheck at hcheck
  have hrail : ¬ (R.MFE_CTRL_RAIL.of v < 16384 ∨ 32767 < R.MFE_CTRL_RAIL.of v) := by omega
  simp only [State.mfeCtrl, hrail, decide_false, refuseIf_false, hcheck]
  exact (State.rowWrite_taken hr _ _).trans (by simp)

theorem State.mfeCtrl_refused (hr : Reaches s w .MFE_CTRL 0 0) (hlo : 16384 ≤ R.MFE_CTRL_RAIL.of v) (hhi : R.MFE_CTRL_RAIL.of v ≤ 32767)
    {c : Status} (hcheck : s.ctrlCheck v = some c) : s.mfeCtrl w v = (s.countRefused w c).set R.MFE_STATUS_LAST_STATUS c.code := by
  unfold State.ctrlCheck at hcheck
  have hrail : ¬ (R.MFE_CTRL_RAIL.of v < 16384 ∨ 32767 < R.MFE_CTRL_RAIL.of v) := by omega
  simp only [State.mfeCtrl, hrail, decide_false, refuseIf_false, hcheck]
  exact State.rowWrite_refused hr ..

/-- What refuses a start with no entry that records (R441), in the order of R540. -/
theorem State.seqCheck_eq (hcount : s.get R.MFE_SEQ_CTRL_COUNT ≠ 0) (hrec : ∀ e, e < 64 → s.on R.MFE_ENT_REC_EN e = false) :
    ∃ bad : Bool, s.seqCheck = pickStatus [
        refuseIf (!s.on R.MFE_STATUS_REF_RDY || decide (s.get R.MFE_STATUS_STATE = 2)) .state,
        refuseIf (decide (64 < s.get R.MFE_SEQ_CTRL_COUNT)) .length, refuseIf bad .range] ∧
      ((s.get R.MFE_SEQ_PERIOD_PERIOD / 24 < s.usedSlots + s.get R.MFE_SEQ_CTRL_URG_SLACK ∨
        ∃ c ∈ s.boundChains, s.scs c = true ∧ 12000000 % s.get R.MFE_SEQ_PERIOD_PERIOD ≠ 0) → bad = true) := by
  have hnone : s.frameEntries.flatMap s.recQueueCheck = [] := by
    refine List.flatMap_eq_nil_iff.2 fun e he => ?_
    have hlt : e < 64 := by
      have := List.mem_range.1 (List.mem_filter.1 he).1
      omega
    simp [State.recQueueCheck, hrec e hlt]
  refine ⟨_, by rw [State.seqCheck, if_neg hcount, hnone, List.append_nil], ?_⟩
  rintro (hslots | ⟨c, hc, hscs, hmod⟩)
  · simp [State.frameSlots, hslots]
  · have hany : (s.boundChains.any fun c => ((s.on R.MFE_CH_CFG_NOTCH50 c || s.on R.MFE_CH_CFG_NOTCH60 c) &&
        decide (400000 % s.get R.MFE_SEQ_PERIOD_PERIOD ≠ 0)) || (s.scs c && decide (12000000 % s.get R.MFE_SEQ_PERIOD_PERIOD ≠ 0)) ||
        !s.mfeLeafOk (s.get R.MFE_CH_CFG_LEAF c)) = true := List.any_eq_true.2 ⟨c, hc, by simp [hscs, hmod]⟩
    rw [hany, Bool.or_true]

end

/-- A pass that changes no register field at any element changes none. -/
theorem State.each_regs (s : State) (es : List Nat) (g : State → Nat → State) (h : ∀ t e, (g t e).regs = t.regs) :
    (s.each es g).regs = s.regs := by
  unfold State.each
  induction es generalizing s with
  | nil => rfl
  | cons e es ih => rw [List.foldl_cons, ih, h]

/-- STATE of a sequencer that stops: one that runs is idle. -/
def State.rested (s : State) : State := if s.mfeRuns then s.set R.MFE_STATUS_STATE 0 else s

theorem State.rested_state (s : State) : s.rested.get R.MFE_STATUS_STATE ≠ 1 := by
  unfold State.rested
  split
  · rw [State.get_set_lt _ _ _ _ _ (by decide)]
    decide
  next hr => simpa [State.mfeRuns] using hr

theorem State.rested_ready (s : State) : s.rested.get R.MFE_STATUS_REF_RDY = s.get R.MFE_STATUS_REF_RDY := by
  unfold State.rested
  split
  · exact State.get_set_ne _ _ _ _ _ _ _ _ (by decide)
  · rfl

/-- The state after a pass over the entries, with no dwell left and nothing to stop. -/
def State.passStopped (s : State) (es : List Nat) (g : State → Nat → State) : State :=
  { s.each es g with mfe := { (s.each es g).mfe with todo := [], slack := 0, stopping := false } }

theorem State.passStopped_regs (s : State) (es : List Nat) (g : State → Nat → State) (h : ∀ t e, (g t e).regs = t.regs) :
    (s.passStopped es g).regs = s.regs := State.each_regs s es g h

theorem State.seqStop_eq (s : State) : ∃ u : State, s.seqStop = u.boundary ∧ u.regs = (s.rested.set R.MFE_CTRL_SEQ_EN 0).regs ∧
    u.mfe.todo = [] :=
  ⟨(s.rested.set R.MFE_CTRL_SEQ_EN 0).passStopped (List.range 64) fun s e =>
      s.setMent e { s.ment e with exc := (s.ment e).exc || (s.ment e).late, late := false, held := none },
    rfl, State.passStopped_regs _ _ _ fun _ _ => rfl, rfl⟩

/-- A sequencer that has stopped runs no more, and no dwell is left. -/
theorem State.seqStop_stops (s : State) : s.seqStop.get R.MFE_CTRL_SEQ_EN = 0 ∧ s.seqStop.get R.MFE_STATUS_STATE ≠ 1 ∧
    s.seqStop.get R.MFE_STATUS_REF_RDY = s.get R.MFE_STATUS_REF_RDY ∧ s.seqStop.mfe.todo = [] := by
  obtain ⟨u, hu, hregs, htodo⟩ := s.seqStop_eq
  have hget (f : Fld) (h1 : f.key 0 0 ≠ R.MFE_STATUS_SPARE.key 0 0) (h2 : f.lo ≠ 28) (h3 : f.lo < 32) :
      s.seqStop.get f = (s.rested.set R.MFE_CTRL_SEQ_EN 0).get f := by
    rw [hu, State.boundary_get _ _ _ _ h1 h2 h3, State.get_congr hregs]
  refine ⟨?_, ?_, ?_, by rw [hu, State.boundary_todo, htodo]⟩
  · rw [hget _ (by decide) (by decide) (by decide), State.get_set_lt _ _ _ _ _ (by decide)]
  · rw [hget _ (by decide) (by decide) (by decide), State.get_set_ne _ _ _ _ _ _ _ _ (by decide)]
    exact s.rested_state
  · rw [hget _ (by decide) (by decide) (by decide), State.get_set_ne _ _ _ _ _ _ _ _ (by decide), s.rested_ready]

/-- The reference switched off stops the sequencer at once (R437). -/
theorem State.refOff_stops (s : State) : s.refOff.get R.MFE_STATUS_REF_RDY = 0 ∧ s.refOff.get R.MFE_CTRL_SEQ_EN = 0 ∧
    s.refOff.get R.MFE_STATUS_STATE ≠ 1 ∧ s.refOff.mfe.todo = [] := by
  have hrdy : (s.set R.MFE_STATUS_REF_RDY 0).get R.MFE_STATUS_REF_RDY = 0 := State.get_set_lt _ _ _ _ _ (by decide)
  let t := if s.on R.MFE_STATUS_REF_RDY && s.on R.MFE_CTRL_SEQ_EN then (s.set R.MFE_STATUS_REF_RDY 0).mfeEvent0 8
    else s.set R.MFE_STATUS_REF_RDY 0
  have ht : t.get R.MFE_STATUS_REF_RDY = 0 := by
    simp only [t]
    split
    · rw [State.mfeEvent0, State.mfeEvent, State.raise_get _ _ _ _ _ (by decide) (by decide) (by decide),
        State.get_set_ne _ _ _ _ _ _ _ _ (by decide), State.get_set_ne _ _ _ _ _ _ _ _ (by decide)]
      exact hrdy
    · exact hrdy
  obtain ⟨hen, hst, hkeep, htodo⟩ := t.seqStop_stops
  exact ⟨hkeep.trans ht, hen, hst, htodo⟩

theorem frontEndControl : Stated.FrontEndControl := by
  refine ⟨fun s hon => ?_, fun ground ref s hready hint hspare hst hdue => ?_, fun i k s hrr hi hk hbusy => ?_, fun w v s hr hlo hhi => ?_,
    State.refOff_stops, fun s => ⟨fun h => if_pos h, fun h => if_neg (by simp [h])⟩, fun w v s hr hgo => ⟨fun hroom => ?_, fun hfull => ?_⟩,
    fun w v s hr => congrArg Host.Outcome.next (State.rowWrite_taken hr _ _)⟩
  · exact congrArg Host.Outcome.next (if_pos hon)
  · intro i off gain t u
    have hrun : exec (.mfeBackgroundCal ground ref) s = .next (if 64 < off.natAbs ∨ 5000 < gain.natAbs then t.retireSlice i
        else if u.inDwell then u else u.boundary) := by
      change execMfeBackgroundCal ground ref s = _
      rw [execMfeBackgroundCal, if_neg (by simp [hready, hint, hspare, hst, hdue]), satS_12, satS_16]
      rfl
    rw [hrun]
    refine ⟨fun hoff hgain hin => ?_, fun hoff hgain hin => ?_, fun hor => by rw [if_pos hor]⟩
    · rw [if_neg (by omega), if_pos hin]
    · rw [if_neg (by omega), if_neg (by simp [hin])]
      exact congrArg Host.Outcome.next (if_pos rfl)
  · intro j hfree hne
    have hi' : R.MFE_SLICE_ROLE.key i 0 ≠ R.MFE_SLICE_ROLE.key j 0 := by
      simp only [Fld.key, R.MFE_SLICE_ROLE]
      omega
    have hspare (n : Nat) : R.MFE_SLICE_ROLE.key n 0 ≠ R.MFE_STATUS_SPARE.key 0 0 := by
      simp only [Fld.key, R.MFE_SLICE_ROLE, R.MFE_STATUS_SPARE]
      omega
    simp only [State.swapSlice_of hk hbusy hfree i]
    refine ⟨?_, ?_, ?_, rfl⟩
    · refine (State.get_set_ne _ _ _ _ _ _ _ _ (hspare i)).trans ?_
      rw [State.get_set_ne _ _ _ _ _ _ _ _ hi', State.get_set_lt _ _ _ _ _ (by decide)]
    · refine (State.get_set_ne _ _ _ _ _ _ _ _ (hspare j)).trans ?_
      rw [State.get_set_lt _ _ _ _ _ (by decide)]
    · exact State.get_set_lt _ _ _ _ _ (by change (s.mfe.rr + k) % 5 < 8; omega)
  · intro t
    have hrun : ∀ c ∈ [Instr.mfeRefEnable w v, .mfeSeqEnable w v], exec c s = .next (s.mfeCtrl w v.toNat) := by
      simp only [List.forall_mem_cons]
      exact ⟨rfl, rfl, List.forall_mem_nil _⟩
    have hboth {u : State} (h : s.mfeCtrl w v.toNat = u) : exec (.mfeRefEnable w v) s = .next u ∧ exec (.mfeSeqEnable w v) s = .next u :=
      ⟨congrArg Host.Outcome.next h, congrArg Host.Outcome.next h⟩
    refine ⟨fun href hrefOn hoff hseq => hboth ?_, fun hrefOn hoff hseq hok => hboth ?_, fun hrefOn hon hseq => hboth ?_,
      fun href hrefOff hsame => hboth ?_, fun hoff hseq hcount hrefOn hrec => ?_, fun hoff hseq hcount hrefOff => (hboth ?_).2⟩
    · rw [State.mfeCtrl_taken hr hlo hhi (by simp [State.ctrlCheck, hseq])]
      simp [href, hseq, hoff, t]
    · rw [State.mfeCtrl_taken hr hlo hhi (by simp [State.ctrlCheck, hrefOn, hok])]
      simp [hrefOn, hseq, hoff, t]
    · rw [State.mfeCtrl_taken hr hlo hhi (by simp [State.ctrlCheck, hseq])]
      simp [hrefOn, hseq, hon, t]
    · rw [State.mfeCtrl_taken hr hlo hhi (by simp [State.ctrlCheck, hsame])]
      have hneq : ¬ (R.MFE_CTRL_SEQ_EN.of v.toNat = 1 ∧ s.on R.MFE_CTRL_SEQ_EN = false) := by simp [hsame]
      have hneq' : ¬ (s.on R.MFE_CTRL_SEQ_EN = true ∧ ¬ R.MFE_CTRL_SEQ_EN.of v.toNat = 1) := by simp [hsame]
      simp only [href, hrefOff, hneq, hneq', Nat.zero_ne_one, not_false_eq_true, and_self, if_true, if_false]
      rfl
    · obtain ⟨bad, hseqCheck, hbad⟩ := State.seqCheck_eq hcount hrec
      have hcheck : s.ctrlCheck v.toNat = s.seqCheck := by simp [State.ctrlCheck, hseq, hoff, hrefOn]
      rw [hseqCheck] at hcheck
      intro refused
      refine ⟨fun hlen => hboth (State.mfeCtrl_refused hr hlo hhi ?_), fun hlen hst => hboth (State.mfeCtrl_refused hr hlo hhi ?_),
        fun hlen hready hst hor => hboth (State.mfeCtrl_refused hr hlo hhi ?_)⟩
      · rw [hcheck, decide_eq_true hlen]
        cases (!s.on R.MFE_STATUS_REF_RDY || decide (s.get R.MFE_STATUS_STATE = 2)) <;> cases bad <;> rfl
      · have hstop : (!s.on R.MFE_STATUS_REF_RDY || decide (s.get R.MFE_STATUS_STATE = 2)) = true := by
          obtain h | h := hst <;> simp [h]
        rw [hcheck, hstop, decide_eq_false (Nat.not_lt.2 hlen)]
        cases bad <;> rfl
      · have hgo : (!s.on R.MFE_STATUS_REF_RDY || decide (s.get R.MFE_STATUS_STATE = 2)) = false := by simp [hready, hst]
        rw [hcheck, hgo, hbad hor, decide_eq_false (Nat.not_lt.2 hlen)]
        rfl
    · exact State.mfeCtrl_refused hr hlo hhi (by simp [State.ctrlCheck, hseq, hoff, hcount, hrefOff])
  · change execMfeUrgentRequest w v s = _
    have hnot : ¬ 4 ≤ s.mfe.urg.length := Nat.not_le.2 hroom
    simp [execMfeUrgentRequest, hgo, hnot, State.rowWrite_taken hr, State.syncUrgent]
  · change execMfeUrgentRequest w v s = _
    simp only [execMfeUrgentRequest, hgo, hfull, decide_true, Bool.and_self, refuseIf_true, State.rowWrite_refused hr]
    rfl

/-- Settles O43: the frames, and the control of the sequencer, whose refusals follow the order of R540. -/
theorem frontEndRuns : Obligations.FrontEndRuns := ⟨measurementFrames, frontEndControl⟩

end Sys2Proof.Machine
end

section
/-! PROOFS. A dwell of a voltage entry (R438, R443, R446, R450). -/

open Sys2Proof Sys2Proof.Stated

namespace Sys2Proof.Machine

/-! ### Signed fields -/

theorem toSigned_ofSigned {w : Nat} (hw : 0 < w) {x : Int} (hlo : -(2 ^ (w - 1) : Nat) ≤ x) (hhi : x < (2 ^ (w - 1) : Nat)) :
    toSigned w (ofSigned w x) = x := by
  have hdouble : 2 ^ w = 2 * 2 ^ (w - 1) := by
    obtain ⟨k, rfl⟩ := Nat.exists_eq_add_of_lt hw
    simp [Nat.pow_succ, Nat.mul_comm]
  unfold toSigned ofSigned
  rw [hdouble]
  generalize 2 ^ (w - 1) = h at *
  have hmod : x % ((2 * h : Nat) : Int) = if 0 ≤ x then x else x + (2 * h : Nat) := by
    split
    · exact Int.emod_eq_of_lt (by omega) (by omega)
    · rw [← Int.add_emod_right]
      exact Int.emod_eq_of_lt (by omega) (by omega)
  rw [hmod, Nat.mod_eq_of_lt (by split <;> omega)]
  split <;> split <;> omega

theorem satS_eq_self {w : Nat} {x : Int} (hlo : -(2 ^ (w - 1) : Nat) ≤ x) (hhi : x < (2 ^ (w - 1) : Nat)) : satS w x = x := by
  unfold satS
  omega

/-- A signed field reads back a value in its range. -/
theorem State.getS_setS (s : State) (f : Fld) {x : Int} (i j : Nat) {w : Nat} (hw : f.width = w + 1) (hlo : -2 ^ w ≤ x) (hhi : x < 2 ^ w) :
    (s.setS f x i j).getS f i j = x := by
  have hcast : ((2 ^ (f.width - 1) : Nat) : Int) = 2 ^ w := by
    rw [hw]
    exact_mod_cast rfl
  have hfit : ofSigned f.width x < 2 ^ f.width := by
    have hpos := Nat.two_pow_pos f.width
    have hlt := Int.emod_lt_of_pos x (b := (2 ^ f.width : Nat)) (by exact_mod_cast hpos)
    unfold ofSigned
    omega
  rw [State.getS, State.setS, satS_eq_self (by rwa [hcast]) (by rwa [hcast]), State.get_set_lt _ _ _ _ _ hfit,
    toSigned_ofSigned (by omega) (by rwa [hcast]) (by rwa [hcast])]

theorem State.get_setS_ne (s : State) (f g : Fld) (x : Int) (i j k l : Nat) (h : g.key k l ≠ f.key i j) :
    (s.setS f x i j).get g k l = s.get g k l := State.get_set_ne _ _ _ _ _ _ _ _ h

/-! ### The sample -/

/-- The value of a voltage entry in its scale (R443). -/
def State.voltage (s : State) (e : Nat) (cs : List Int) : Int :=
  roundDivI (cs.foldl (· + ·) 0 * (if s.on R.MFE_ENT_EXC_ATTEN e then 3125 else 625)) (10 * 2 ^ s.get R.MFE_ENT_CFG_OSR e)

/-- Codes below the rail of a voltage entry give its value, neither open nor over. -/
theorem State.sample_voltage {s : State} {e : Nat} {cs : List Int} (hin : 24 ≤ s.get R.MFE_ENT_CFG_INPUT e)
    (hlen : cs.length = 2 ^ s.get R.MFE_ENT_CFG_OSR e) (hrail : ∀ c ∈ cs, c.natAbs < s.get R.MFE_CTRL_RAIL) :
    s.sample e cs [] = ({ e := s.voltage e cs, openWire := false, isOver := false }, s) := by
  have hrtd : s.isRtd e = false := by simp [State.isRtd, Nat.not_lt.2 hin]
  have hphoto : s.isPhoto e = false := by simp [State.isPhoto]; omega
  have htake : cs.take (2 ^ s.get R.MFE_ENT_CFG_OSR e) = cs := List.take_of_length_le (by omega)
  have hlow : (cs.any fun c => decide (s.get R.MFE_CTRL_RAIL ≤ c.natAbs)) = false :=
    List.any_eq_false.2 fun c hc => by simpa using hrail c hc
  simp [State.sample, State.threeWire, hrtd, hphoto, htake, hlow, State.codeSum, State.voltage]

/-- A voltage entry that feeds no chain and is not open accumulates its value and writes it as its result. -/
theorem State.regularDwell_voltage {s : State} {e : Nat} {cs : List Int} (hin : 24 ≤ s.get R.MFE_ENT_CFG_INPUT e)
    (hlen : cs.length = 2 ^ s.get R.MFE_ENT_CFG_OSR e) (hrail : ∀ c ∈ cs, c.natAbs < s.get R.MFE_CTRL_RAIL)
    (hchain : s.on R.MFE_ENT_CFG_CH_EN e = false) (hopen : s.on R.MFE_ENT_STATUS_OPEN e = false) :
    s.regularDwell e cs [] = (s.accumulate e (s.voltage e cs)).result e (some (s.voltage e cs)) 0 false := by
  have hphoto : s.isPhoto e = false := by simp [State.isPhoto]; omega
  have hauto : s.autoRange e cs false = s := if_pos (.inl (by simp [hphoto]))
  simp [State.regularDwell, hchain, State.sample_voltage hin hlen hrail, hauto, hopen]

/-! ### The result -/

/-- The register fields of a result (R450). -/
def State.resultFields (s : State) (e : Nat) (v : Int) : State :=
  ((((((s.setS R.MFE_RES_VALUE v e).set R.MFE_RES_FLAGS_FLAGS 0 e).set R.MFE_RES_FLAGS_RANGE (s.get R.MFE_ENT_EXC_RANGE e) e).set
    R.MFE_RES_FLAGS_NEW 1 e).add R.MFE_RES_FLAGS_SEQ 1 e).set R.MFE_ENT_STATUS_SETTLED 0 e)

/-- A result that no group, record or output takes is in its register fields alone. -/
theorem State.result_untaken {s : State} {e : Nat} {v : Int} (hgrp : ∀ g, g < 8 → (s.resultFields e v).get R.ILC_GRP_TCOMP_ENTRY g ≠ e)
    (hrec : (s.resultFields e v).on R.MFE_ENT_REC_EN e = false) (hout : ∀ o, o < 8 → (s.resultFields e v).on R.MFE_OUT_CFG_EN o = false) :
    s.result e (some v) 0 false = s.resultFields e v := by
  have hmeas : (s.resultFields e v).measure e = s.resultFields e v := if_pos (by simp [hrec])
  have hgroups : (s.resultFields e v).each (List.range 8) (fun t g =>
      if t.get R.ILC_GRP_TCOMP_ENTRY g = e then t.ilcTemp g ((s.resultFields e v).getS R.MFE_RES_VALUE e) (decide ((0 : Nat) ≠ 0)) else t) =
      s.resultFields e v := State.each_id _ _ _ fun g hg => if_neg (hgrp g (List.mem_range.1 hg))
  have houts : (s.resultFields e v).each (List.range 8) (fun t o =>
      if t.on R.MFE_OUT_CFG_EN o ∧ t.get R.MFE_OUT_CFG_ENTRY o = e then t.driveOut o ((s.resultFields e v).getS R.MFE_RES_VALUE e) 0 else t) =
      s.resultFields e v := State.each_id _ _ _ fun o ho => if_neg (by simp [hout o (List.mem_range.1 ho)])
  have hrun : s.result e (some v) 0 false = (((s.resultFields e v).each (List.range 8) (fun t g =>
      if t.get R.ILC_GRP_TCOMP_ENTRY g = e then t.ilcTemp g ((s.resultFields e v).getS R.MFE_RES_VALUE e) (decide ((0 : Nat) ≠ 0)) else t)).measure
      e).each (List.range 8) (fun t o =>
      if t.on R.MFE_OUT_CFG_EN o ∧ t.get R.MFE_OUT_CFG_ENTRY o = e then t.driveOut o ((s.resultFields e v).getS R.MFE_RES_VALUE e) 0 else t) := rfl
  rw [hrun, hgroups, hmeas, houts]

/-- The register fields of a sample that keeps the sum in its range (R446). -/
def State.sumFields (s : State) (e : Nat) (v : Int) : State :=
  let t := (s.setS R.MFE_ACC_SUM (s.getS R.MFE_ACC_SUM e + v) e).addSat R.MFE_ACC_CNT_COUNT 1 e
  (t.setS R.MFE_ACC_MIN_MIN (min v (t.getS R.MFE_ACC_MIN_MIN e)) e).setS R.MFE_ACC_MAX_MAX (max v (t.getS R.MFE_ACC_MAX_MAX e)) e

theorem State.accumulate_inRange {s : State} {e : Nat} {v : Int} (hlo : -2 ^ 47 ≤ s.getS R.MFE_ACC_SUM e + v)
    (hhi : s.getS R.MFE_ACC_SUM e + v < 2 ^ 47) : s.accumulate e v = s.sumFields e v := by
  have hsat : satS 48 (s.getS R.MFE_ACC_SUM e + v) = s.getS R.MFE_ACC_SUM e + v := satS_eq_self (by simpa using hlo) (by simpa using hhi)
  simp only [State.accumulate, hsat, if_true]
  rfl

/-- Two fields of one family of registers stand apart in every element where they do in the first. -/
theorem State.get_set_ne_same (s : State) (f g : Fld) (v e : Nat) (hstride : g.s1 = f.s1) (h : g.key 0 0 ≠ f.key 0 0) :
    (s.set f v e).get g e = s.get g e :=
  State.get_set_ne _ _ _ _ _ _ _ _ (by simp only [Fld.key] at h ⊢; rw [hstride]; omega)

theorem State.get_setS_ne_same (s : State) (f g : Fld) (x : Int) (e : Nat) (hstride : g.s1 = f.s1) (h : g.key 0 0 ≠ f.key 0 0) :
    (s.setS f x e).get g e = s.get g e := State.get_set_ne_same _ _ _ _ _ hstride h

/-- The fields that a sample and its result write. -/
def sampleFields : List Fld := [R.MFE_RES_VALUE, R.MFE_RES_FLAGS_FLAGS, R.MFE_RES_FLAGS_RANGE, R.MFE_RES_FLAGS_NEW, R.MFE_RES_FLAGS_SEQ,
  R.MFE_ENT_STATUS_SETTLED, R.MFE_ACC_SUM, R.MFE_ACC_CNT_COUNT, R.MFE_ACC_MIN_MIN, R.MFE_ACC_MAX_MAX]

/-- A counted sample and its result: what they write, and that they write nothing else. -/
structure SampleTaken (e : Nat) (v : Int) (s t : State) : Prop where
  value : t.getS R.MFE_RES_VALUE e = v
  flags : t.get R.MFE_RES_FLAGS_FLAGS e = 0
  new : t.get R.MFE_RES_FLAGS_NEW e = 1
  seq : t.get R.MFE_RES_FLAGS_SEQ e = (s.get R.MFE_RES_FLAGS_SEQ e + 1) % 65536
  sum : t.getS R.MFE_ACC_SUM e = s.getS R.MFE_ACC_SUM e + v
  settled : t.get R.MFE_ENT_STATUS_SETTLED e = 0
  other : ∀ (f : Fld) (i j : Nat), (∀ g ∈ sampleFields, f.key i j ≠ g.key e 0) → t.get f i j = s.get f i j
  mfe : t.mfe = s.mfe
  memory : SameMemory s t

/-- What a sample that keeps the sum in its range writes besides the sum. -/
theorem State.sumFields_get (s : State) (e : Nat) (v : Int) (f : Fld) (i j : Nat)
    (h : ∀ g ∈ [R.MFE_ACC_SUM, R.MFE_ACC_CNT_COUNT, R.MFE_ACC_MIN_MIN, R.MFE_ACC_MAX_MAX], f.key i j ≠ g.key e 0) :
    (s.sumFields e v).get f i j = s.get f i j := by
  simp only [List.forall_mem_cons] at h
  obtain ⟨hsum, hcnt, hmin, hmax, -⟩ := h
  simp only [State.sumFields, State.addSat, State.setSat]
  rw [State.get_setS_ne _ _ _ _ _ _ _ _ hmax, State.get_setS_ne _ _ _ _ _ _ _ _ hmin, State.get_set_ne _ _ _ _ _ _ _ _ hcnt,
    State.get_setS_ne _ _ _ _ _ _ _ _ hsum]

theorem State.resultFields_get (s : State) (e : Nat) (v : Int) (f : Fld) (i j : Nat)
    (h : ∀ g ∈ [R.MFE_RES_VALUE, R.MFE_RES_FLAGS_FLAGS, R.MFE_RES_FLAGS_RANGE, R.MFE_RES_FLAGS_NEW, R.MFE_RES_FLAGS_SEQ,
      R.MFE_ENT_STATUS_SETTLED], f.key i j ≠ g.key e 0) : (s.resultFields e v).get f i j = s.get f i j := by
  simp only [List.forall_mem_cons] at h
  obtain ⟨hval, hflags, hrange, hnew, hseq, hsettled, -⟩ := h
  simp only [State.resultFields, State.add]
  rw [State.get_set_ne _ _ _ _ _ _ _ _ hsettled, State.get_set_ne _ _ _ _ _ _ _ _ hseq, State.get_set_ne _ _ _ _ _ _ _ _ hnew,
    State.get_set_ne _ _ _ _ _ _ _ _ hrange, State.get_set_ne _ _ _ _ _ _ _ _ hflags, State.get_setS_ne _ _ _ _ _ _ _ _ hval]

/-- Two fields of the entries stand apart. -/
theorem entry_key_ne (e : Nat) {f : Fld} (hf : f.s1 = 0x40) (gs : List Fld) (h : (gs.all fun g => g.s1 = 0x40 ∧ f.key 0 0 ≠ g.key 0 0) = true) :
    ∀ g ∈ gs, f.key e 0 ≠ g.key e 0 := by
  intro g hg
  have hgs := List.all_eq_true.1 h g hg
  obtain ⟨hstride, hne⟩ := of_decide_eq_true hgs
  simp only [Fld.key] at hne ⊢
  rw [hf, hstride]
  omega

theorem State.sampleTaken {s : State} {e : Nat} {v : Int} (hv : -2 ^ 31 ≤ v ∧ v < 2 ^ 31) (hlo : -2 ^ 47 ≤ s.getS R.MFE_ACC_SUM e + v)
    (hhi : s.getS R.MFE_ACC_SUM e + v < 2 ^ 47) : SampleTaken e v s ((s.accumulate e v).resultFields e v) := by
  rw [State.accumulate_inRange hlo hhi]
  refine ⟨?_, ?_, ?_, ?_, ?_, ?_, fun f i j h => ?_, ?_, ?_⟩
  · have hval := State.getS_setS (s.sumFields e v) R.MFE_RES_VALUE e 0 (w := 31) rfl hv.1 hv.2
    refine Eq.trans ?_ hval
    simp (disch := decide) only [State.getS, State.resultFields, State.add, State.get_set_ne_same]
  · simp (disch := decide) only [State.resultFields, State.add, State.get_set_ne_same, State.get_set_lt]
  · simp (disch := decide) only [State.resultFields, State.add, State.get_set_ne_same, State.get_set_lt]
  · have hseq := s.sumFields_get e v R.MFE_RES_FLAGS_SEQ e 0 (entry_key_ne e rfl _ (by decide))
    simp (disch := decide) only [State.resultFields, State.add, State.get_set_ne_same, State.get_setS_ne_same, State.get_set_self, hseq]
    rfl
  · have hsum := State.getS_setS s R.MFE_ACC_SUM e 0 (w := 47) rfl hlo hhi
    refine Eq.trans ?_ hsum
    rw [State.getS, State.getS, State.resultFields_get _ _ _ _ _ _ (entry_key_ne e rfl _ (by decide))]
    simp (disch := decide) only [State.sumFields, State.addSat, State.setSat, State.get_set_ne_same, State.get_setS_ne_same]
  · simp (disch := decide) only [State.resultFields, State.get_set_lt]
  · have hres := h
    simp only [sampleFields, List.forall_mem_cons] at h
    obtain ⟨hval, hflags, hrange, hnew, hseq, hsettled, hsum⟩ := h
    rw [State.resultFields_get, State.sumFields_get]
    · simpa using hsum
    · simpa using ⟨hval, hflags, hrange, hnew, hseq, hsettled⟩
  · simp only [State.resultFields, State.sumFields, State.add, State.addSat, State.setSat, State.setS, State.set_mfe]
  · simp only [SameMemory, State.resultFields, State.sumFields, State.add, State.addSat, State.setSat, State.setS, State.set_hbm, State.set_leaf,
      State.set_mbox, and_self]

/-- The fields of a sample lie in the registers of their entry, not in that of its record. -/
theorem sampleFields_range {f : Fld} (hf : f ∈ sampleFields) (e : Fin 64) :
    0x1F01000 * 32 ≤ f.key e 0 ∧ f.key e 0 < 0x1F02000 * 32 ∧ f.key e 0 / 32 % 0x40 ≠ 8 := by
  have hall : ∀ f ∈ sampleFields, ∀ e : Fin 64,
    0x1F01000 * 32 ≤ f.key e 0 ∧ f.key e 0 < 0x1F02000 * 32 ∧ f.key e 0 / 32 % 0x40 ≠ 8 := by decide
  exact hall f hf e

theorem State.dwellEnd_running {s : State} (h : s.mfe.stopping = false) : s.dwellEnd = s.boundary := by
  simp [State.dwellEnd, h]

/-- The end of a dwell changes no field of an entry, and no memory. -/
theorem State.boundary_memory (s : State) : SameMemory s s.boundary := by
  unfold State.boundary
  split
  · unfold State.swapSlice
    split <;> exact ⟨rfl, rfl, rfl⟩
  · exact ⟨rfl, rfl, rfl⟩

/-- A dwell of the entry at the front of a running sequencer ends at a boundary. -/
theorem exec_mfeEntrySample_boundary {s u : State} {e : Nat} {es : List Nat} {ab : List (Fin 5 × BitVec 16)} (hruns : s.mfeRuns = true)
    (htodo : s.mfe.todo = e :: es) (hreg : ({ s with mfe := { s.mfe with todo := es } } : State).regular e (ab.map s.trimmed) [] = u)
    (hstop : u.mfe.stopping = false) : exec (.mfeEntrySample ab []) s = .next u.boundary := by
  rw [measurementFrames.2.1 ab [] s e es hruns htodo, List.map_nil, hreg, State.dwellEnd_running hstop]

/-- What a sample has written stands after the boundary. -/
theorem SampleTaken.at_boundary {e : Fin 64} {v : Int} {s t : State} (h : SampleTaken e v s t) (x : MfeEnt) :
    let w := (t.setMent e x).boundary
    w.getS R.MFE_RES_VALUE e = v ∧ w.get R.MFE_RES_FLAGS_FLAGS e = 0 ∧ w.get R.MFE_RES_FLAGS_NEW e = 1 ∧
      w.get R.MFE_RES_FLAGS_SEQ e = (s.get R.MFE_RES_FLAGS_SEQ e + 1) % 65536 ∧
      w.getS R.MFE_ACC_SUM e = s.getS R.MFE_ACC_SUM e + v ∧ w.get R.MFE_ENT_STATUS_SETTLED e = 0 ∧ w.mfe.todo = s.mfe.todo ∧
      SameMemory s w := by
  intro w
  have hget (f : Fld) (hf : f ∈ sampleFields) (hlo : f.lo ≠ 28) (hlt : f.lo < 32) : w.get f e = t.get f e := by
    refine State.boundary_get _ _ _ _ ?_ hlo hlt
    have hrange := sampleFields_range hf e
    simp only [Fld.key, R.MFE_STATUS_SPARE] at hrange ⊢
    omega
  have hgetS (f : Fld) (hf : f ∈ sampleFields) (hlo : f.lo ≠ 28) (hlt : f.lo < 32) : w.getS f e = t.getS f e :=
    congrArg (toSigned f.width) (hget f hf hlo hlt)
  obtain ⟨hhbm, hleaf, hmbox⟩ := h.memory
  obtain ⟨khbm, kleaf, kmbox⟩ := (t.setMent e x).boundary_memory
  refine ⟨?_, ?_, ?_, ?_, ?_, ?_, ?_, khbm.trans hhbm, kleaf.trans hleaf, kmbox.trans hmbox⟩
  · exact (hgetS _ (by decide) (by decide) (by decide)).trans h.value
  · exact (hget _ (by decide) (by decide) (by decide)).trans h.flags
  · exact (hget _ (by decide) (by decide) (by decide)).trans h.new
  · exact (hget _ (by decide) (by decide) (by decide)).trans h.seq
  · exact (hgetS _ (by decide) (by decide) (by decide)).trans h.sum
  · exact (hget _ (by decide) (by decide) (by decide)).trans h.settled
  · exact (State.boundary_todo _).trans (congrArg (·.todo) h.mfe : t.mfe.todo = s.mfe.todo)

/-- Settles O44: the dwell is a sample, its result, and a boundary that may bring the spare into service. -/
theorem voltageDwells : Obligations.VoltageDwells := by
  intro e es ab s hruns htodo hstop hheld hlen hin hchain hrec hopen hrail hgrp hout sum v hv hacc
  let s0 : State := { s with mfe := { s.mfe with todo := es } }
  have hvolt : s0.voltage e (ab.map s.trimmed) = v := rfl
  have hdwell : s0.regularDwell e (ab.map s.trimmed) [] = (s0.accumulate e v).result e (some v) 0 false := by
    refine (State.regularDwell_voltage (s := s0) hin ((List.length_map _).trans hlen) ?_ hchain hopen).trans (by rw [hvolt])
    exact List.forall_mem_map.2 hrail
  have htaken : SampleTaken e v s0 ((s0.accumulate e v).resultFields e v) := State.sampleTaken hv hacc.1 hacc.2
  have hresult : (s0.accumulate e v).result e (some v) 0 false = (s0.accumulate e v).resultFields e v := by
    refine State.result_untaken (fun g hg => ?_) ?_ fun o ho => ?_
    · rw [htaken.other _ _ _ fun f hf => ?_]
      · exact hgrp ⟨g, hg⟩
      · have hrange := sampleFields_range hf e
        simp only [Fld.key, R.ILC_GRP_TCOMP_ENTRY] at hrange ⊢
        omega
    · rw [State.on, htaken.other _ _ _ fun f hf => ?_]
      · exact hrec
      · have hrange := sampleFields_range hf e
        simp only [Fld.key, R.MFE_ENT_REC_EN] at hrange ⊢
        omega
    · rw [State.on, htaken.other _ _ _ fun f hf => ?_]
      · exact hout ⟨o, ho⟩
      · have hrange := sampleFields_range hf e
        simp only [Fld.key, R.MFE_OUT_CFG_EN] at hrange ⊢
        omega
  rw [hresult] at hdwell
  generalize hu : (s0.accumulate e v).resultFields e v = u at hdwell htaken
  have hregular : s0.regular e (ab.map s.trimmed) [] =
      u.setMent e { u.ment e with exc := (s.ment e).late, late := false, held := none } := by
    have hwith : s0.withExc e (fun t => t.regularDwell e (ab.map s.trimmed) []) = u := by
      have hheld0 : (s0.ment e).held = none := hheld
      simp only [State.withExc, hheld0, hdwell]
    simp only [State.regular, hwith]
    rfl
  exact ⟨_, exec_mfeEntrySample_boundary hruns htodo hregular ((congrArg Mfe.stopping htaken.mfe).trans hstop), htaken.at_boundary _⟩

end Sys2Proof.Machine
end

section
/-! PROOFS. Sweeps, the throttle level, trim and thresholds (R476 to R487). -/

open Sys2Proof Sys2Proof.Stated

namespace Sys2Proof.Machine

/-! ### Loops over the state -/

/-- What one step of a loop establishes and the others keep holds at its end. -/
theorem State.each_reaches {α : Type} {P Q : State → Prop} {g : State → α → State} {xs : List α} {x : α} (hx : x ∈ xs)
    (hkeep : ∀ t, ∀ y ∈ xs, P t → P (g t y)) (hat : ∀ t, P t → Q (g t x)) (hstay : ∀ t, ∀ y ∈ xs, y ≠ x → Q t → Q (g t y)) {s : State} (hs : P s) :
    Q (s.each xs g) := by
  have hdone : ∀ (ys : List α) (t : State), (∀ y ∈ ys, y ∈ xs) → P t → Q t → Q (t.each ys g) := by
    intro ys
    induction ys with
    | nil => exact fun t _ _ hq => hq
    | cons y ys ih =>
      intro t hys hp hq
      obtain ⟨hy, hys⟩ := List.forall_mem_cons.1 hys
      refine ih _ hys (hkeep _ _ hy hp) ?_
      by_cases he : y = x
      · exact he ▸ hat _ hp
      · exact hstay _ _ hy he hq
  have hrun : ∀ (ys : List α) (t : State), (∀ y ∈ ys, y ∈ xs) → x ∈ ys → P t → Q (t.each ys g) := by
    intro ys
    induction ys with
    | nil => exact fun _ _ h => nomatch h
    | cons y ys ih =>
      intro t hys hmem hp
      obtain ⟨hy, hys⟩ := List.forall_mem_cons.1 hys
      by_cases he : y = x
      · exact hdone ys _ hys (hkeep _ _ hy hp) (he ▸ hat _ hp)
      · exact ih _ hys ((List.mem_cons.1 hmem).resolve_left (Ne.symm he)) (hkeep _ _ hy hp)
  exact hrun xs s (fun _ h => h) hx hs

/-- A field that no step of a loop writes. -/
theorem State.each_get {α : Type} {g : State → α → State} {xs : List α} {f : Fld} {i j : Nat}
    (h : ∀ t, ∀ x ∈ xs, (g t x).get f i j = t.get f i j) (s : State) : (s.each xs g).get f i j = s.get f i j := by
  unfold State.each
  induction xs generalizing s with
  | nil => rfl
  | cons x xs ih =>
    obtain ⟨hx, hxs⟩ : (∀ t, (g t x).get f i j = t.get f i j) ∧ ∀ t, ∀ y ∈ xs, (g t y).get f i j = t.get f i j :=
      ⟨fun t => h t x List.mem_cons_self, fun t y hy => h t y (List.mem_cons_of_mem _ hy)⟩
    rw [List.foldl_cons, ih hxs, hx]

/-! ### The sensors of a sweep -/

/-- The sensors that a sweep fails. -/
def failedBy (r : List (Option (BitVec 16))) : Nat :=
  (List.range 24).foldl (fun m i => if badReading (r.getD i none) then m ||| 2 ^ i else m) 0

theorem bit_foldl_or (p : Nat → Bool) (xs : List Nat) (m i : Nat) :
    bit (xs.foldl (fun m i => if p i then m ||| 2 ^ i else m) m) i = (bit m i || (decide (i ∈ xs) && p i)) := by
  induction xs generalizing m with
  | nil => simp
  | cons x xs ih =>
    rw [List.foldl_cons, ih]
    by_cases hx : i = x
    · subst hx
      cases hp : p i <;> simp [bit, Nat.testBit_or, Nat.testBit_two_pow_self]
    · cases hp : p x <;> simp [bit, Nat.testBit_or, hx, Ne.symm hx]

theorem bit_failedBy (r : List (Option (BitVec 16))) (i : Fin 24) : bit (failedBy r) i = badReading (r.getD i none) := by
  rw [failedBy, bit_foldl_or]
  simp [bit]

/-- What a sweep shows for a sensor, with the failed sensors in a mask. -/
def State.showSensor (m : Nat) (r : List (Option (BitVec 16))) (s : State) (i : Nat) : State :=
  match bit m i, r.getD i none with
  | false, some x => (s.setS R.THM_SNS_TEMP x.toInt i).set R.THM_SNS_VALID 1 i
  | _, _ => (s.setS R.THM_SNS_TEMP (s.tThr + 1) i).set R.THM_SNS_VALID 0 i

theorem State.showSensor_working {m i : Nat} {r : List (Option (BitVec 16))} {x : BitVec 16} (s : State) (hm : bit m i = false)
    (hx : r.getD i none = some x) : s.showSensor m r i = (s.setS R.THM_SNS_TEMP x.toInt i).set R.THM_SNS_VALID 1 i := by
  simp only [State.showSensor, hm, hx]

theorem State.showSensor_failed {m i : Nat} (r : List (Option (BitVec 16))) (s : State) (hm : bit m i = true) :
    s.showSensor m r i = (s.setS R.THM_SNS_TEMP (s.tThr + 1) i).set R.THM_SNS_VALID 0 i := by
  simp only [State.showSensor, hm]

/-- A sensor that is shown changes nothing else. -/
theorem State.showSensor_get {m k : Nat} {r : List (Option (BitVec 16))} (s : State) {f : Fld} {i j : Nat}
    (htemp : f.key i j ≠ R.THM_SNS_TEMP.key k 0) (hvalid : f.key i j ≠ R.THM_SNS_VALID.key k 0) :
    (s.showSensor m r k).get f i j = s.get f i j := by
  unfold State.showSensor
  split <;> rw [State.get_set_ne _ _ _ _ _ _ _ _ hvalid, State.get_setS_ne _ _ _ _ _ _ _ _ htemp]

/-- The failures of a sweep, latched, with their event. -/
def State.latchFailures (s : State) (m : Nat) : State :=
  let t := (s.set R.THM_FAIL_MASK m).syncFail
  if m ≠ s.get R.THM_FAIL_MASK then t.raise 1435 else t

theorem State.judgeSensors_eq (s : State) (r : List (Option (BitVec 16))) : s.judgeSensors r =
    (s.latchFailures (s.get R.THM_FAIL_MASK ||| failedBy r)).each (List.range 24)
      (State.showSensor (s.get R.THM_FAIL_MASK ||| failedBy r) r) := rfl

theorem State.syncFail_get (s : State) {f : Fld} {i j : Nat} (hcount : f.key i j ≠ R.THM_FAIL_COUNT.key 0 0)
    (hfailed : ∀ k, k < 24 → f.key i j ≠ R.THM_SNS_FAILED.key k 0) : s.syncFail.get f i j = s.get f i j :=
  (State.each_get (fun _ k hk => State.get_set_ne _ _ _ _ _ _ _ _ (hfailed k (List.mem_range.1 hk))) _).trans
    (State.get_set_ne _ _ _ _ _ _ _ _ hcount)

/-- Raising an event leaves the registers below the host interface alone. -/
theorem State.raise_get_below (s : State) (n : Nat) {f : Fld} {i j : Nat} (h : f.key i j < 0x1D00000 * 32) : (s.raise n).get f i j = s.get f i j := by
  refine State.raise_get _ _ _ _ _ ?_ ?_ ?_ <;> simp only [Fld.key, R.HIF_EVT_PEND_PEND, R.HIF_EVT_SUM_LO_GROUPS, R.HIF_EVT_SUM_HI_GROUPS] at h ⊢ <;> omega

theorem State.latchFailures_get (s : State) (m : Nat) {f : Fld} {i : Nat} (h : f.key i 0 < 0x1D00000 * 32) :
    (s.latchFailures m).get f i = (s.set R.THM_FAIL_MASK m).syncFail.get f i := by
  unfold State.latchFailures
  split
  · exact State.raise_get_below _ _ h
  · rfl

theorem State.latchFailures_mask (s : State) (m : Nat) : (s.latchFailures m).get R.THM_FAIL_MASK = m % 2 ^ 24 := by
  rw [State.latchFailures_get _ _ (by decide), State.syncFail_get _ (by decide) (by decide), State.get_set_self]
  rfl

theorem State.latchFailures_tThr (s : State) (m : Nat) : (s.latchFailures m).tThr = s.tThr := by
  rw [State.tThr, State.getS, State.latchFailures_get _ _ (by decide), State.syncFail_get _ (by decide) (by decide),
    State.get_set_ne _ _ _ _ _ _ _ _ (by decide)]
  rfl

theorem State.latchFailures_failed (s : State) (m : Nat) {i : Nat} (hi : i < 24) :
    (s.latchFailures m).get R.THM_SNS_FAILED i = b2n (bit m i) := by
  have hbit : bit (m % 2 ^ 24) i = bit m i := by rw [bit, Nat.testBit_mod_two_pow, decide_eq_true hi, Bool.true_and, bit]
  rw [State.latchFailures_get _ _ (by simp only [Fld.key, R.THM_SNS_FAILED]; omega), State.syncFail, ← hbit]
  refine State.each_reaches (P := fun _ => True) (Q := fun t => t.get R.THM_SNS_FAILED i = b2n (bit (m % 2 ^ 24) i)) (List.mem_range.2 hi)
    (fun _ _ _ _ => trivial) (fun t _ => ?_) (fun t k _ hne hq => ?_) trivial
  · rw [State.get_set_self, State.get_set_self]
    change b2n (bit (m % 2 ^ 24) i) % 2 = _
    cases bit (m % 2 ^ 24) i <;> rfl
  · rw [State.get_set_ne, hq]
    simp only [Fld.key, R.THM_SNS_FAILED]
    omega

/-- What a sweep shows for a sensor of its failure mask. -/
theorem State.judgeSensors_shows (s : State) (r : List (Option (BitVec 16))) (i : Fin 24) {x : Int} {v : Nat} (hv : v < 2)
    (hshow : ∀ t : State, t.tThr = s.tThr → t.showSensor (s.get R.THM_FAIL_MASK ||| failedBy r) r i =
      (t.setS R.THM_SNS_TEMP x i).set R.THM_SNS_VALID v i) (hlo : -2 ^ 15 ≤ x) (hhi : x < 2 ^ 15) :
    (s.judgeSensors r).getS R.THM_SNS_TEMP i = x ∧ (s.judgeSensors r).get R.THM_SNS_VALID i = v ∧
    (s.judgeSensors r).get R.THM_FAIL_MASK = (s.get R.THM_FAIL_MASK ||| failedBy r) % 2 ^ 24 ∧
    (s.judgeSensors r).get R.THM_SNS_FAILED i = b2n (bit (s.get R.THM_FAIL_MASK ||| failedBy r) i) := by
  rw [State.judgeSensors_eq]
  generalize s.get R.THM_FAIL_MASK ||| failedBy r = m at *
  have hkeep {f : Fld} (hf : f.key 0 0 < R.THM_SNS_TEMP.key 0 0) (t : State) (k : Nat) : (t.showSensor m r k).get f = t.get f :=
    State.showSensor_get t (by simp only [Fld.key, R.THM_SNS_TEMP] at hf ⊢; omega) (by simp only [Fld.key, R.THM_SNS_TEMP, R.THM_SNS_VALID] at hf ⊢; omega)
  have hother {f : Fld} (hf : f ∈ [R.THM_SNS_TEMP, R.THM_SNS_VALID]) (t : State) (k : Nat) (hk : k ≠ i) : (t.showSensor m r k).get f i = t.get f i := by
    simp only [List.mem_cons, List.not_mem_nil, or_false] at hf
    obtain rfl | rfl := hf <;> refine State.showSensor_get t ?_ ?_ <;> simp only [Fld.key, R.THM_SNS_TEMP, R.THM_SNS_VALID] <;> omega
  have hshown : ((s.latchFailures m).each (List.range 24) (State.showSensor m r)).getS R.THM_SNS_TEMP i = x ∧
      ((s.latchFailures m).each (List.range 24) (State.showSensor m r)).get R.THM_SNS_VALID i = v := by
    refine State.each_reaches (P := fun t => t.tThr = s.tThr) (Q := fun t => t.getS R.THM_SNS_TEMP i = x ∧ t.get R.THM_SNS_VALID i = v)
      (List.mem_range.2 i.isLt) (fun t k _ ht => ?_) (fun t ht => ?_) (fun t k _ hne hq => ?_) (State.latchFailures_tThr s m)
    · rw [State.tThr, State.getS, hkeep (by decide)]
      exact ht
    · rw [hshow t ht]
      refine ⟨?_, State.get_set_lt _ _ _ _ _ hv⟩
      rw [State.getS, State.get_set_ne_same _ R.THM_SNS_VALID R.THM_SNS_TEMP _ _ rfl (by decide)]
      exact State.getS_setS _ _ _ _ (w := 15) rfl hlo hhi
    · rw [State.getS, hother (by simp) t k hne, hother (by simp) t k hne]
      exact hq
  refine ⟨hshown.1, hshown.2, ?_, ?_⟩
  · rw [State.each_get fun t k _ => hkeep (by decide) t k, State.latchFailures_mask]
  · rw [State.each_get fun t k _ => State.showSensor_get t ?_ ?_, State.latchFailures_failed _ _ i.isLt] <;>
      simp only [Fld.key, R.THM_SNS_FAILED, R.THM_SNS_TEMP, R.THM_SNS_VALID] <;> omega

theorem toInt_16 (x : BitVec 16) : -2 ^ 15 ≤ x.toInt ∧ x.toInt < 2 ^ 15 := by
  have := x.isLt
  rw [BitVec.toInt_eq_toNat_cond]
  split <;> omega

/-- A signed field of 16 bits is written saturated. -/
theorem State.setS_16 (s : State) {f : Fld} (hf : f.width = 16) (x : Int) (i j : Nat) :
    s.setS f x i j = s.setS f (max (-32768) (min 32767 x)) i j := by
  rw [State.setS, State.setS, hf, satS_16, satS_16]
  congr 2
  omega

/-- A check that does not refuse. -/
theorem refuseIf_not {p : Prop} [Decidable p] (h : ¬ p) (c : Status) : refuseIf (decide p) c = none := by rw [decide_eq_false h, refuseIf_false]

theorem refuseIf_of {p : Prop} [Decidable p] (h : p) (c : Status) : refuseIf (decide p) c = some c := by rw [decide_eq_true h, refuseIf_true]

/-- Settles O49: the sensors by the failure mask that a sweep leaves, the other parts by the branch that their conditions name. -/
theorem temperatures : Obligations.Temperatures := by
  refine ⟨fun r s hoff hreset => ?_, fun r s i => ⟨fun x hx hlo hhi hm => ?_, fun hfail => ?_⟩, fun s => ⟨fun hthrot hhot => ?_,
    fun hthrot hhot => ?_, fun hthrot => ?_⟩, fun s hworks => ⟨fun hrdy hvalid => ?_, fun hno => ?_⟩, fun s hfailed hhold => ?_, fun v s => ⟨fun hr =>
    ⟨fun hin => ?_, fun hout => ?_⟩, fun hr hlo hhi hwarn => ?_⟩, fun i count s hro hen => ?_⟩
  · change execThmSweep r s = _
    rw [execThmSweep, if_neg (by simp [hoff, hreset])]
    rfl
  · have hbit : bit (s.get R.THM_FAIL_MASK ||| failedBy r) i = false := by
      have hgood : badReading (some x) = false := by simp [badReading, hlo, hhi]
      rw [bit, Nat.testBit_or, ← bit, ← bit, hm, bit_failedBy, hx, hgood]
      rfl
    have h := s.judgeSensors_shows r i (v := 1) (by decide) (fun t _ => t.showSensor_working hbit hx) (toInt_16 x).1 (toInt_16 x).2
    exact ⟨h.1, h.2.1⟩
  · have hbit : bit (s.get R.THM_FAIL_MASK ||| failedBy r) i = true := by
      rw [bit, Nat.testBit_or, ← bit, ← bit, bit_failedBy]
      obtain h | h := hfail
      · rw [h, badReading, Bool.or_true]
      · rw [h, Bool.true_or]
    have h := s.judgeSensors_shows r i (x := max (-32768) (min 32767 (s.tThr + 1))) (v := 0) (by decide)
      (fun t ht => by rw [t.showSensor_failed r hbit, State.setS_16 _ rfl, ht]) (by omega) (by omega)
    obtain ⟨htemp, hvalid, hmask, hfailed⟩ := h
    refine ⟨htemp, hvalid, ?_, by rw [hfailed, hbit]; rfl⟩
    rw [hmask, bit, Nat.testBit_mod_two_pow, decide_eq_true i.isLt, Bool.true_and]
    exact hbit
  · change execThmLevelStep s = _
    rw [execThmLevelStep, if_pos hthrot, hhot]
    rfl
  · change execThmLevelStep s = _
    rw [execThmLevelStep, if_pos hthrot, hhot]
    rfl
  · change execThmLevelStep s = _
    simp [execThmLevelStep, hthrot]
  · change execThmRefTrim s = _
    simp [execThmRefTrim, hworks, hrdy, hvalid, refTrim]
  · change execThmRefTrim s = _
    rw [execThmRefTrim, hworks]
    obtain h | h := hno <;> simp [h]
  · change execThmRefTrim s = _
    simp [execThmRefTrim, hfailed, hhold, evTrimHold]
  · refine congrArg Host.Outcome.next (Eq.trans (congrArg (s.rowWrite .secure .THM_THR_WARN 0 0 v.toNat · _ 0 id) ?_)
      (State.rowWrite_taken hr _ _))
    exact refuseIf_not (by omega) _
  · refine congrArg Host.Outcome.next (Eq.trans (congrArg (s.rowWrite .secure .THM_THR_WARN 0 0 v.toNat · _ 0 id) ?_)
      (State.rowWrite_refused hr _ .range _))
    exact refuseIf_of hout _
  · refine congrArg Host.Outcome.next (Eq.trans (congrArg (s.rowWrite .secure .THM_THR_THROT 0 0 v.toNat · _ 0 id) ?_)
      (State.rowWrite_taken hr _ _))
    exact refuseIf_not (by omega) _
  · change execRoWindowEnd i count s = _
    simp [execRoWindowEnd, hro, hen]

end Sys2Proof.Machine
end

section
/-! PROOFS. Writes of the registers of the control space (R11, R413). -/

open Sys2Proof Sys2Proof.Stated

namespace Sys2Proof.Machine

/-- The register whose EN bit switches the illumination controller. -/
def lampControl : Reg := ⟨.ILC_CTRL, 0x1E00000, 0, 1, 0, 1, [⟨R.ILC_CTRL_EN, 0, 0, 1, false⟩]⟩

/-- The controller is off while channel 0 still has a gate to come. -/
def gatesToCome : State := State.reset.setChan 0 { gates := [⟨0, 0, 0, false⟩] }

/-- Refutes O60: the third clause gives ILC_CTRL no effect beside its fields, and the model takes every gate low where the write leaves EN 0. -/
theorem not_controlSpace : ¬ Obligations.ControlSpace := by
  rintro ⟨-, -, heffect, -⟩
  have hsame : gatesToCome.afterWrite gatesToCome lampControl 0 0 = gatesToCome :=
    (heffect lampControl .secure 0 0 gatesToCome gatesToCome).1 (by decide +kernel)
  exact absurd (congrArg (fun t : State => (t.chan 0).gates.isEmpty) hsame) (by decide +kernel)

end Sys2Proof.Machine
end

section
/-! PROOFS. Boot stages, pad slew and reference clocks (R501 to R504, R550 to R552, R562, R565). -/

open Sys2Proof Sys2Proof.Stated

namespace Sys2Proof.Machine

/-! ### The end of boot -/

theorem State.fwRefused_get (s : State) (c : Status) {f : Fld} {i j : Nat} (hf : f.key i j < 0x1D00000 * 32)
    (hne : f.key i j ≠ R.SMC_FW_STATUS_LAST_STATUS.key 0 0) : (s.fwRefused c).get f i j = s.get f i j :=
  (State.raise_get_below _ _ hf).trans (State.get_set_ne _ _ _ _ _ _ _ _ hne)

theorem State.fwRefused_status (s : State) (c : Status) : (s.fwRefused c).get R.SMC_FW_STATUS_LAST_STATUS = c.code :=
  (State.raise_get_below _ _ (by decide)).trans (State.get_set_lt _ _ _ _ _ (by cases c <;> decide))

/-- Boot that has not stopped stops at stage Fh. -/
theorem State.bootStop_stops {s : State} (h : s.get R.SMC_BOOT_STATUS_STEP ≠ 15) (ms : Nat) :
    s.bootStop ms = (s.set R.SMC_BOOT_STATUS_STEP 15).setSat R.SMC_BOOT_TIME_MS ms := if_neg h

theorem State.bootStop_step (s : State) (ms : Nat) : (s.bootStop ms).get R.SMC_BOOT_STATUS_STEP = 15 := by
  unfold State.bootStop
  split
  · assumption
  · rw [State.get_setSat_ne _ _ _ _ _ _ _ _ (by decide), State.get_set_lt _ _ _ _ _ (by decide)]

theorem State.bootStop_get (s : State) (ms : Nat) {f : Fld} {i j : Nat} (hstep : f.key i j ≠ R.SMC_BOOT_STATUS_STEP.key 0 0)
    (htime : f.key i j ≠ R.SMC_BOOT_TIME_MS.key 0 0) : (s.bootStop ms).get f i j = s.get f i j := by
  unfold State.bootStop
  split
  · rfl
  · rw [State.get_setSat_ne _ _ _ _ _ _ _ _ htime, State.get_set_ne _ _ _ _ _ _ _ _ hstep]

/-- The ring unit that starts writes no field of the management complex. -/
theorem State.startKru_get (s : State) {f : Fld} {i j : Nat} (hf : f.key i j < 0x1C00000 * 32) : s.startKru.get f i j = s.get f i j := by
  have hne : ∀ (g : Fld) (k : Nat), 0x1C00000 ≤ g.base → ∀ (t : State) (v : Nat), (t.set g v k).get f i j = t.get f i j := fun g k hg t v =>
    State.get_set_ne _ _ _ _ _ _ _ _ (by simp only [Fld.key] at hf ⊢; omega)
  have hmember (t : State) : t.syncMember.get f i j = t.get f i j := by
    unfold State.syncMember
    dsimp only
    split <;> simp only [hne _ 0 (show 0x1C00000 ≤ R.KRU_MEMBER_INFO_ROLE.base by decide),
      hne _ 0 (show 0x1C00000 ≤ R.KRU_MEMBER_INFO_STATIONS.base by decide), hne _ 0 (show 0x1C00000 ≤ R.KRU_MEMBER_INFO_ID.base by decide)]
  refine (hmember _).trans ?_
  simp only [State.startTrain, State.setKport]
  rw [hne _ _ (by decide), hne _ _ (by decide), hne _ _ (by decide)]

theorem State.startKru_smc (s : State) : s.startKru.smc = s.smc := by
  unfold State.startKru State.startTrain State.setKport State.syncMember
  dsimp only
  split <;> simp

theorem State.bootStop_smc (s : State) (ms : Nat) : (s.bootStop ms).smc = s.smc := by
  unfold State.bootStop State.setSat
  split <;> simp

theorem State.stayBare_step (s : State) (ms : Nat) : (s.stayBare ms).get R.SMC_BOOT_STATUS_STEP = 15 := by
  unfold State.stayBare
  split
  · assumption
  · rw [State.startKru_get _ (by decide), State.bootStop_step]

theorem State.stayBare_get (s : State) (ms : Nat) {f : Fld} {i j : Nat} (hf : f.key i j < 0x1C00000 * 32)
    (hstep : f.key i j ≠ R.SMC_BOOT_STATUS_STEP.key 0 0) (htime : f.key i j ≠ R.SMC_BOOT_TIME_MS.key 0 0) :
    (s.stayBare ms).get f i j = s.get f i j := by
  unfold State.stayBare
  split
  · rfl
  · rw [State.startKru_get _ hf, State.bootStop_get _ _ hstep htime]

theorem State.stayBare_smc (s : State) (ms : Nat) : (s.stayBare ms).smc = s.smc := by
  unfold State.stayBare
  split
  · rfl
  · rw [State.startKru_smc, State.bootStop_smc]

/-- Boot at stage 4h with both conditions passed, in BARE, ends in IDLE. -/
theorem State.bootDone_idle {s : State} (hhbm : s.smc.hbmOk = true) (hwb : s.smc.wbOk = true) (hstep : s.get R.SMC_BOOT_STATUS_STEP = 4)
    (hdev : s.dev = Dev.bare) (ms : Nat) : s.bootDone ms =
      ((((s.set R.SMC_BOOT_STATUS_STEP 5).setSat R.SMC_BOOT_TIME_MS ms).set R.SMC_DEV_STATE_STATE Dev.idle).raise Ev.devState) := by
  have hbare : ((s.set R.SMC_BOOT_STATUS_STEP 5).setSat R.SMC_BOOT_TIME_MS ms).dev = Dev.bare := by
    rw [State.dev, State.get_setSat_ne _ _ _ _ _ _ _ _ (by decide), State.get_set_ne _ _ _ _ _ _ _ _ (by decide)]
    exact hdev
  have hne : ((s.set R.SMC_BOOT_STATUS_STEP 5).setSat R.SMC_BOOT_TIME_MS ms).get R.SMC_DEV_STATE_STATE ≠ Dev.idle := by
    rw [← State.dev, hbare]
    decide
  simp only [State.bootDone, hhbm, hwb, hstep, and_self, if_true, hbare, State.setDev, if_neg hne]

/-- What HBM training has found, in the registers. -/
def State.trained (s : State) (ok : BitVec 4) : State :=
  ({ s with smc := { s.smc with hbmRun := false, hbmOk := decide (ok.toNat = 15) } } : State).set R.SMC_BOOT_STATUS_HBM_OK ok.toNat

theorem State.trained_get (s : State) (ok : BitVec 4) {f : Fld} (hf : f.key 0 0 ≠ R.SMC_BOOT_STATUS_HBM_OK.key 0 0) :
    (s.trained ok).get f = s.get f := State.get_set_ne _ _ _ _ _ _ _ _ hf

theorem State.trained_ok (s : State) (ok : BitVec 4) : (s.trained ok).get R.SMC_BOOT_STATUS_HBM_OK = ok.toNat :=
  State.get_set_lt _ _ _ _ _ ok.isLt

theorem exec_hbmTrainingDone {s : State} (hrun : s.smc.hbmRun = true) (ok : BitVec 4) (ms : Nat) :
    exec (.hbmTrainingDone ok ms) s = .next (if ok.toNat = 15 then (s.trained ok).bootDone ms
      else ((s.trained ok).set R.SMC_BOOT_STATUS_HBM_FAIL 1).stayBare ms) := if_pos hrun

theorem bootStages : Stated.BootStages := by
  refine ⟨fun a b policy mode flash ms s hdev hstep => ?_, fun s hwait => ⟨_, congrArg Host.Outcome.next (if_pos hwait), ?_⟩, fun ok ms s hrun =>
    ⟨fun hok hwb hstep hdev => ?_, fun hok hdev => ?_⟩, fun o ms s hrun => ?_⟩
  · intro n
    have hexec : exec (.cabinetVerifyDone a b policy mode flash ms) s = .next (s.verifyCabinet a b policy mode.toNat flash ms) :=
      if_pos ⟨hdev, hstep⟩
    refine ⟨fun ha => ?_, fun c ha hb => ?_, fun c d ha hb => ⟨((s.fwRefused c).fwRefused d).bootStop ms, ?_, ?_⟩⟩
    · rw [hexec, State.verifyCabinet, ha]
    · rw [hexec, State.verifyCabinet, ha]
      dsimp only
      rw [hb]
    · rw [hexec, State.verifyCabinet, ha]
      dsimp only
      rw [hb]
    · have hkept {f : Fld} (hf : f.key 0 0 < 0x1D00000 * 32) (hne : f.key 0 0 ≠ R.SMC_FW_STATUS_LAST_STATUS.key 0 0) :
          ((s.fwRefused c).fwRefused d).get f = s.get f := (State.fwRefused_get _ _ hf hne).trans (State.fwRefused_get _ _ hf hne)
      refine ⟨?_, State.bootStop_step _ _, ?_, ?_⟩
      · exact (State.bootStop_get _ _ (by decide) (by decide)).trans (hkept (by decide) (by decide))
      · rw [State.bootStop_stops (by rw [hkept (by decide) (by decide), hstep]; decide), State.get_setSat_self]
        rfl
      · rw [State.bootStop_get _ _ (by decide) (by decide), State.fwRefused_status]
  · have hvset : (s.bootVcoreFail).get R.SMC_VFIT_STATUS_VSET =
        (if s.get R.SMC_PMB_STATUS_VREAD = 0 then 650 else s.get R.SMC_PMB_STATUS_VREAD / 5 * 5) % 4096 :=
      (State.get_set_ne _ _ _ _ _ _ _ _ (by decide)).trans (State.get_set_self ..)
    refine ⟨?_, State.get_set_lt _ _ _ _ _ (by decide), rfl, rfl, hvset, ?_⟩
    · simp only [State.bootVcoreFail, State.bootStage4]
      rw [State.get_set_ne _ _ _ _ _ _ _ _ (by decide)]
      exact (State.get_set_ne _ _ _ _ _ _ _ _ (by decide)).trans (State.get_set_lt _ _ _ _ _ (by decide))
    · rw [State.bootVcoreFail_waits]
      simp
  · have hready := State.bootDone_idle (s := s.trained ok) (by simp [State.trained, hok]) (by simp [State.trained, hwb])
      (by rw [State.trained_get _ _ (by decide), hstep]) (by rw [State.dev, State.trained_get _ _ (by decide), ← hdev]; rfl) ms
    refine ⟨_, (exec_hbmTrainingDone hrun ok ms).trans (congrArg _ (if_pos hok)), ?_⟩
    rw [hready, State.dev]
    refine ⟨?_, ?_, ?_, ?_⟩ <;> rw [State.raise_get_below _ _ (by decide)]
    · exact State.get_set_lt _ _ _ _ _ (by decide)
    · rw [State.get_set_ne _ _ _ _ _ _ _ _ (by decide), State.get_setSat_ne _ _ _ _ _ _ _ _ (by decide), State.get_set_lt _ _ _ _ _ (by decide)]
    · rw [State.get_set_ne _ _ _ _ _ _ _ _ (by decide), State.get_setSat_ne _ _ _ _ _ _ _ _ (by decide),
        State.get_set_ne _ _ _ _ _ _ _ _ (by decide), State.trained_ok, hok]
    · rw [State.get_set_ne _ _ _ _ _ _ _ _ (by decide), State.get_setSat_self]
      rfl
  · refine ⟨_, (exec_hbmTrainingDone hrun ok ms).trans (congrArg _ (if_neg hok)), ?_, ?_, State.stayBare_step _ _, ?_⟩
    · rw [State.stayBare_get _ _ (by decide) (by decide) (by decide), State.get_set_lt _ _ _ _ _ (by decide)]
    · rw [State.stayBare_get _ _ (by decide) (by decide) (by decide), State.get_set_ne _ _ _ _ _ _ _ _ (by decide), State.trained_ok]
    · rw [State.stayBare_smc]
      rfl
  · intro u check
    have hexec : exec (.workbenchCheckDone o ms) s = .next (u.checkWorkbench o ms) := if_pos hrun
    have hwb : u.wbTested o = s.wbTested o := rfl
    have hallow : u.on R.SMC_POLICY_ALLOW_UNTESTED = s.on R.SMC_POLICY_ALLOW_UNTESTED := rfl
    have hcheck : (fwCheck o 2 (u.get R.SMC_FW_SVN_WB)).or (o.ifaceCheck [1, 2]) = check := rfl
    rw [hexec, State.checkWorkbench, hcheck, hwb, hallow]
    refine ⟨fun hc ht => ?_, fun hc ht hp => ?_, fun c hc => ?_⟩
    · rw [hc]
      dsimp only
      rw [if_pos ht]
    · rw [hc]
      dsimp only
      rw [if_neg (by simp [ht]), if_pos hp]
    · rw [hc]

/-! ### Pad slew -/

/-- The first status that discards a field of SMC_PAD_SLEW. -/
theorem pickStatus_pads (a b c d : Bool) :
    pickStatus [refuseIf a .state, refuseIf b .state, refuseIf c .state, refuseIf d .busy, none] =
      if a || b || c then some .state else if d then some .busy else none := by
  revert a b c d
  decide

/-- The fields of SMC_PAD_SLEW that a write changes. -/
def State.padsTaken (s : State) (v : Nat) : State :=
  s.each (s.padChecks.filter (·.2.isNone)) fun s p => s.set p.1 (p.1.of v)

theorem padFields (s : State) : s.padChecks.map (·.1) =
    [R.SMC_PAD_SLEW_ILC, R.SMC_PAD_SLEW_MOT, R.SMC_PAD_SLEW_FOUT, R.SMC_PAD_SLEW_XSPI, R.SMC_PAD_SLEW_CONSOLE] := rfl

/-- Two members of a list with the same image are one where the images are all different. -/
theorem eq_of_nodup_map {α β : Type} {f : α → β} {xs : List α} (h : (xs.map f).Nodup) {p q : α} (hp : p ∈ xs) (hq : q ∈ xs)
    (he : f p = f q) : p = q := by
  induction xs with
  | nil => cases hp
  | cons x xs ih =>
    obtain ⟨hx, hrest⟩ := List.nodup_cons.1 h
    obtain hpx | hp := List.mem_cons.1 hp <;> obtain hqx | hq := List.mem_cons.1 hq
    · exact hpx.trans hqx.symm
    · exact absurd (hpx ▸ he ▸ List.mem_map_of_mem hq) hx
    · exact absurd (hqx ▸ he ▸ List.mem_map_of_mem hp) hx
    · exact ih hrest hp hq

/-- The fields of SMC_PAD_SLEW stand apart. -/
theorem padChecks_key {s : State} {p q : Fld × Option Status} (hp : p ∈ s.padChecks) (hq : q ∈ s.padChecks) (hne : p ≠ q) :
    p.1.key 0 0 ≠ q.1.key 0 0 := by
  have hkeys : (s.padChecks.map fun p => p.1.key 0 0).Nodup := by
    change ((s.padChecks.map (·.1)).map fun f : Fld => f.key 0 0).Nodup
    rw [padFields]
    decide
  exact fun he => hne (eq_of_nodup_map hkeys hp hq he)

theorem State.padsTaken_get {s : State} (v : Nat) {p : Fld × Option Status} (hp : p ∈ s.padChecks) :
    (s.padsTaken v).get p.1 = if p.2.isNone then p.1.of v else s.get p.1 := by
  split
  next h =>
    refine State.each_reaches (P := fun _ => True) (Q := fun t => t.get p.1 = p.1.of v) (List.mem_filter.2 ⟨hp, h⟩) (fun _ _ _ _ => trivial)
      (fun t _ => State.get_set_lt _ _ _ _ _ (Nat.mod_lt _ (Nat.two_pow_pos _))) (fun t q hq hne ht => ?_) trivial
    rw [State.get_set_ne _ _ _ _ _ _ _ _ (padChecks_key hp (List.mem_filter.1 hq).1 (Ne.symm hne)), ht]
  next h =>
    refine State.each_get (fun t q hq => State.get_set_ne _ _ _ _ _ _ _ _ (padChecks_key hp (List.mem_filter.1 hq).1 ?_)) _
    rintro rfl
    exact h (List.mem_filter.1 hq).2

theorem State.padsTaken_get_ne {s : State} (v : Nat) {f : Fld} (h : f.key 0 0 < R.SMC_PAD_SLEW_ILC.key 0 0 ∨ R.SMC_PAD_SLEW_CONSOLE.key 0 0 < f.key 0 0) :
    (s.padsTaken v).get f = s.get f := by
  refine State.each_get (fun t q hq => State.get_set_ne _ _ _ _ _ _ _ _ ?_) _
  have hmem := List.mem_map_of_mem (f := (·.1)) (List.mem_filter.1 hq).1
  rw [padFields] at hmem
  simp only [List.mem_cons, List.not_mem_nil, or_false] at hmem
  obtain he | he | he | he | he := hmem <;> rw [he] <;> simp only [Fld.key, R.SMC_PAD_SLEW_ILC, R.SMC_PAD_SLEW_MOT, R.SMC_PAD_SLEW_FOUT, R.SMC_PAD_SLEW_XSPI, R.SMC_PAD_SLEW_CONSOLE] at h ⊢ <;> omega

theorem State.refuse_get (s : State) (w : World) (c : Status) {f : Fld} (hcount : f.key 0 0 ≠ R.SMC_REG_REFUSED_COUNT.key w.toNat c.code)
    (hlast : f.key 0 0 ≠ R.SMC_PAD_STATUS_LAST_STATUS.key 0 0) : (s.refuse w c (some R.SMC_PAD_STATUS_LAST_STATUS)).get f = s.get f :=
  (State.get_set_ne _ _ _ _ _ _ _ _ hlast).trans (State.get_set_ne _ _ _ _ _ _ _ _ hcount)

/-- What a secure write of SMC_PAD_SLEW leaves, by the first status that discards a field. -/
def State.padsWritten (s : State) (v : Nat) (c : Option Status) : State :=
  match c with
  | some c => (s.padsTaken v).refuse .secure c (some R.SMC_PAD_STATUS_LAST_STATUS)
  | none => s.padsTaken v

theorem State.padsWritten_get {s : State} (v : Nat) (c : Option Status) {p : Fld × Option Status} (hp : p ∈ s.padChecks) :
    (s.padsWritten v c).get p.1 = if p.2.isNone then p.1.of v else s.get p.1 := by
  have hf := List.mem_map_of_mem (f := (·.1)) hp
  rw [padFields] at hf
  unfold State.padsWritten
  split
  next c =>
    have hkeys : ∀ f ∈ [R.SMC_PAD_SLEW_ILC, R.SMC_PAD_SLEW_MOT, R.SMC_PAD_SLEW_FOUT, R.SMC_PAD_SLEW_XSPI, R.SMC_PAD_SLEW_CONSOLE],
        f.key 0 0 ≠ R.SMC_REG_REFUSED_COUNT.key World.secure.toNat c.code ∧ f.key 0 0 ≠ R.SMC_PAD_STATUS_LAST_STATUS.key 0 0 := by
      cases c <;> decide
    obtain ⟨hcount, hlast⟩ := hkeys _ hf
    rw [State.refuse_get _ _ _ hcount hlast, State.padsTaken_get _ hp]
  · exact State.padsTaken_get _ hp

/-- LAST_STATUS after a secure write of SMC_PAD_SLEW. -/
theorem State.padsWritten_status (s : State) (v : Nat) (c : Option Status) : (s.padsWritten v c).get R.SMC_PAD_STATUS_LAST_STATUS =
    match c with
    | some c => c.code
    | none => s.get R.SMC_PAD_STATUS_LAST_STATUS := by
  cases c with
  | some c => exact State.get_set_lt _ _ _ _ _ (by cases c <;> decide)
  | none => exact State.padsTaken_get_ne _ (by decide)

theorem exec_padSlewWrite {v : BitVec 32} {s : State} (hr : Reaches s .secure .SMC_PAD_SLEW 0 0) :
    exec (.padSlewWrite .secure v) s = .next (s.padsWritten v.toNat (pickStatus (s.padChecks.map (·.2)))) :=
  congrArg Host.Outcome.next (State.hostWrite_taken hr _)

theorem refuseIf_eq_some {b : Bool} {c d : Status} : refuseIf b c = some d ↔ b = true ∧ c = d := by cases b <;> simp

/-- The parts of SMC_PAD_SLEW that STATE discards, and the status that is shown. -/
theorem State.padChecks_status (s : State) :
    ((∃ p ∈ s.padChecks, p.2 = some .state) → pickStatus (s.padChecks.map (·.2)) = some .state) ∧
    ((∀ p ∈ s.padChecks, p.2 ≠ some .state) → s.flashBusy = true → pickStatus (s.padChecks.map (·.2)) = some .busy) ∧
    ((∀ p ∈ s.padChecks, p.2 = none) → pickStatus (s.padChecks.map (·.2)) = none) := by
  rw [State.padChecks]
  generalize s.on R.ILC_CTRL_EN = a, (axes4.any fun x => s.on R.TTC_AX_CTRL_EN x) = b, ((List.range 8).any fun o => s.on R.MFE_OUT_CFG_EN o) = c,
    s.flashBusy = d
  simp only [List.map_cons, List.map_nil, pickStatus_pads, List.mem_cons, List.not_mem_nil, or_false, exists_eq_or_imp, exists_eq_left, forall_eq_or_imp, forall_eq]
  revert a b c d
  simp [Bool.forall_bool]

theorem padsAndClocks : Stated.PadsAndClocks := by
  refine ⟨fun v s hr => ⟨_, exec_padSlewWrite hr, fun p hp => State.padsWritten_get _ _ hp, ?_, ?_, ?_⟩, fun q s0 => ?_⟩
  · intro h
    rw [State.padsWritten_status, s.padChecks_status.1 h]
    rfl
  · intro h hbusy
    rw [State.padsWritten_status, s.padChecks_status.2.1 h hbusy]
    rfl
  · intro h
    rw [State.padsWritten_status, s.padChecks_status.2.2 h]
  · intro gone s
    refine ⟨rfl, fun hq => if_pos hq, fun hq => ?_, fun hq => ?_⟩
    · obtain rfl : q = 4 := Fin.ext hq
      rfl
    · obtain rfl : q = 5 := Fin.ext hq
      rfl

/-- Settles O52: boot by its stages, pads by the fields that nothing discards, clocks by the band of lanes they serve. -/
theorem bootAndClocks : Obligations.BootAndClocks := ⟨bootStages, padsAndClocks⟩

end Sys2Proof.Machine
end

section
/-! PROOFS. Station commands (R525 to R532, R540). -/

open Sys2Proof Sys2Proof.Stated

namespace Sys2Proof.Machine

/-! ### A command at HEAD -/

/-- What the end of a command leaves once it is taken (R519, R521, R522). -/
def State.ended (s : State) (r op : Nat) (e : CmdEnd) : State :=
  match e with
  | .refused c a d => turnedAway s r op c a d
  | .reported t c a d => (t.takeCommand r).respondRefused r op (ofLe (s.cmdBytes r (s.mbHead r) 4 4)) c a d
  | .ok t res => answered s t r op res
  | .later t x => runsOn s t r op x

section
variable {s : State} {r op : Nat}

/-- A command that is whole and waits for no room ends as the shared checks leave it. -/
theorem State.command_eq (hready : s.mbReady r = true) (hop : s.opAt r (s.mbHead r) = op) (hext : opExt op = some (s.extAt r (s.mbHead r)))
    (hheld : s.extAt r (s.mbHead r) < s.mbHeld r) (hroom : s.mbRoom r = true) (act : State → CmdEnd) :
    s.command r op act = s.ended r op (s.judged r op (act s)) := by
  rw [State.command, if_pos ⟨hready, hop, hext, hheld⟩, if_pos hroom]
  rfl

variable (h : AtHead s r op) {act : State → CmdEnd}
include h

theorem State.command_atHead : s.command r op act = s.ended r op (act s) := by
  obtain ⟨hready, hop, hext, hheld, hroom, hcommon⟩ := h
  rw [State.command_eq hready hop hext hheld hroom, State.judged, hcommon]

theorem State.command_ok {t : State} {res : List Nat} (he : act s = .ok t res) : s.command r op act = answered s t r op res := by
  rw [State.command_atHead h, he, State.ended]

theorem State.command_later {t : State} {x : Running} (he : act s = .later t x) : s.command r op act = runsOn s t r op x := by
  rw [State.command_atHead h, he, State.ended]

theorem State.command_refused {c : Status} {a d : Nat} (he : act s = .refused c a d) : s.command r op act = turnedAway s r op c a d := by
  rw [State.command_atHead h, he, State.ended]

theorem State.command_reported {t : State} {c : Status} {a d : Nat} (he : act s = .reported t c a d) :
    s.command r op act = (t.takeCommand r).respondRefused r op (ofLe (s.cmdBytes r (s.mbHead r) 4 4)) c a d := by
  rw [State.command_atHead h, he, State.ended]

end

/-! ### What the station commands check -/

theorem State.stBusy_iff {s : State} {n : Nat} : s.stBusy n = true ↔ s.stState n ≠ St.idle := decide_eq_true_iff

/-- Heads that no other station holds. -/
theorem State.headsFree {s : State} {n : Nat} {hs : List Nat} (h : ∀ p ∈ hs, ∀ m, m < 8 → m ≠ n → p ∉ (s.station m).heads) :
    (hs.any fun p => (stations8.filter (· ≠ n)).any fun m => (s.station m).heads.contains p) = false := by
  simp only [List.any_eq_false, List.mem_filter, stations8, List.mem_range, decide_eq_true_eq, List.any_eq_true, not_exists, not_and]
  intro p hp m ⟨hm, hne⟩ hc
  exact h p hp m hm hne (List.contains_iff_mem.1 hc)

theorem State.arm_fits {s : State} {n : Nat} {t : Int} {t2 : Option Nat} {west : Bool} (hcheck : s.armCheck n west = none) (hlink : s.armLink n = none)
    (hfits : (s.admission (fun m => s.counted m || decide (m = n)) s.lineRate s.engLoads t2).1 = true) :
    s.arm n t t2 west = .ok ((s.admission (fun m => s.counted m || decide (m = n)) s.lineRate s.engLoads t2).2.armed n t)
      (leBytes 8 0 ++ leBytes 8 (s.w0 n)) := by
  rw [State.arm, hcheck]
  dsimp only
  rw [hlink]
  dsimp only
  generalize s.admission (fun m => s.counted m || decide (m = n)) s.lineRate s.engLoads t2 = a at *
  rw [if_neg (by simp [hfits])]

theorem State.define_taken {s : State} {r n : Nat} (hidle : s.stBusy n = false)
    (hfree : ∀ p ∈ headsOf (s.param r 20 12), ∀ m, m < 8 → m ≠ n → p ∉ (s.station m).heads) (hlo : 6 ≤ s.param r 18 1) (hhi : s.param r 18 1 ≤ 16)
    (hcls : s.param r 17 1 ≤ 1) : s.define r n = .ok (((s.setStation n { s.station n with k := s.param r 18 1, heads := headsOf (s.param r 20 12) }).set
      R.SMC_ST_STATE_CLASS (s.param r 17 1) n).set R.SMC_ST_STATE_K (s.param r 18 1) n) [] := by
  have hrange : (decide (s.param r 18 1 < 6 ∨ 16 < s.param r 18 1) || decide (1 < s.param r 17 1)) = false := by
    rw [decide_eq_false (by omega), decide_eq_false (by omega), Bool.or_false]
  rw [State.define, hidle, State.headsFree hfree, hrange]
  rfl

/-- A drain that R526 allows and whose F can still come. -/
theorem State.drainCmd_legal {s : State} {n final : Nat} (t : Int) (haxis : (s.station n).axisDown = false) (hring : final = 0 → s.ringStation n = false)
    (hnext : final ≠ 0 → (s.lst n).next ≤ final) :
    (s.stState n = St.armed → s.drainCmd n final t = .ok (s.idleEntry n) (drainResult 0)) ∧
    (s.stState n = St.scanning → s.get R.SST_ST_REW_STATUS_PHASE n = 0 → s.drainCmd n final t = s.drainRun n final) := by
  have hfinal : ¬ ((s.ringStation n = true ∧ final = 0) ∨ (final ≠ 0 ∧ final < (s.lst n).next)) := by
    rintro (⟨hr, h0⟩ | ⟨h0, hlt⟩)
    · rw [hring h0] at hr
      cases hr
    · exact absurd (hnext h0) (Nat.not_le.2 hlt)
  refine ⟨fun harmed => ?_, fun hscan hphase => ?_⟩
  · rw [State.drainCmd, harmed, haxis]
    rw [if_neg (by simp), if_neg hfinal]
    rfl
  · rw [State.drainCmd, hscan, haxis, hphase]
    rw [if_neg (by simp), if_neg hfinal]
    rfl

theorem stationCommands : Stated.StationCommands := by
  refine ⟨fun r s h => ?_, fun r t t2 west s h => ?_, fun r t s h => ?_, fun r t s h => ?_, fun r s h => ?_, fun r t s h => ?_, fun r s h => ?_,
    fun r t2 s h => ?_, fun r s h => congrArg Host.Outcome.next (State.command_ok h rfl)⟩
  · intro n k hs hidle hfree hlo hhi hcls
    exact congrArg Host.Outcome.next (State.command_ok h (State.define_taken hidle hfree hlo hhi hcls))
  · intro n a hcheck hlink hfits
    exact congrArg Host.Outcome.next (State.command_ok h (State.arm_fits hcheck hlink hfits))
  · intro n harmed hring
    exact congrArg Host.Outcome.next (State.command_ok h (if_neg (by simp [harmed, hring, n])))
  · intro n hscan hsheet haxis u
    exact congrArg Host.Outcome.next (State.command_ok h ((if_neg (by simp [hscan, haxis, n])).trans (if_neg (by simp [hsheet, n]))))
  · intro n hst hhold
    exact congrArg Host.Outcome.next (State.command_ok h (if_pos ⟨hst, hhold⟩))
  · intro n final phase haxis
    have hlegal (hring : final = 0 → s.ringStation n = false) (hnext : final ≠ 0 → (s.lst n).next ≤ final) := State.drainCmd_legal t haxis hring hnext
    refine ⟨fun hst hf hring => ?_, fun hst hph hf hnext => ?_, fun hst hph hf hring l hl => ?_⟩
    · exact congrArg Host.Outcome.next (State.command_ok h ((hlegal (fun _ => hring) fun h0 => absurd hf h0).1 hst))
    · exact congrArg Host.Outcome.next (State.command_ok h (((hlegal (fun h0 => absurd h0 hf) fun _ => hnext).2 hst hph).trans (if_pos hf)))
    · refine congrArg Host.Outcome.next (State.command_ok h (((hlegal (fun _ => hring) fun h0 => absurd hf h0).2 hst hph).trans ((if_neg (not_not_intro hf)).trans ?_)))
      rw [hl]
      rfl
  · intro n u hbusy
    have hstarts : s.abortCmd n = if u.flushing (s.stationQueues n) then .later u { op := 0, tag := 0, station := n, data := s.stationQueues n } else .ok u [] :=
      if_neg (by simp [hbusy, n])
    refine ⟨fun hno => ?_, fun hyes => ?_⟩
    · exact congrArg Host.Outcome.next (State.command_ok h (hstarts.trans (if_neg (by simp [hno]))))
    · exact congrArg Host.Outcome.next (State.command_later h (hstarts.trans (if_pos hyes)))
  · intro n g hbusy hdrain
    have hlegal : ¬ (s.stBusy n = false ∨ s.stState n = St.draining) := by simp [hbusy, hdrain]
    refine ⟨fun hcancel hstaged => ?_, fun hcancel hmask hcheck hrate => ?_⟩
    · exact congrArg Host.Outcome.next (State.command_ok h ((if_neg hlegal).trans ((if_pos hcancel).trans (if_pos hstaged))))
    · refine congrArg Host.Outcome.next (State.command_ok h ((if_neg hlegal).trans ((if_neg (by simp [hcancel])).trans ((if_neg hmask).trans ?_))))
      rw [hcheck]
      exact if_neg (Nat.not_lt.2 hrate)

/-! ### The first of several checks (R540) -/

/-- The check that stands after one more. -/
def nextCheck (best c : Option (Status × Nat)) : Option (Status × Nat) :=
  match best, c with
  | none, c => c
  | b, none => b
  | some b, some c => if c.1.rank < b.1.rank then some c else some b

theorem pickCheck_eq (cs : List (Option (Status × Nat))) : pickCheck cs = cs.foldl nextCheck none := rfl

/-- What stands after further checks is what stood before or one of an earlier rank. -/
theorem foldl_nextCheck_some (b : Status × Nat) (cs : List (Option (Status × Nat))) :
    ∃ y, cs.foldl nextCheck (some b) = some y ∧ y.1.rank ≤ b.1.rank ∧ (y.1.rank = b.1.rank → y = b) ∧ (y = b ∨ some y ∈ cs) := by
  induction cs generalizing b with
  | nil => exact ⟨b, rfl, Nat.le_refl _, fun _ => rfl, .inl rfl⟩
  | cons c cs ih =>
    have hsame (he : nextCheck (some b) c = some b) : ∃ y, (c :: cs).foldl nextCheck (some b) = some y ∧ y.1.rank ≤ b.1.rank ∧
        (y.1.rank = b.1.rank → y = b) ∧ (y = b ∨ some y ∈ c :: cs) := by
      obtain ⟨y, hy, hle, heq, hmem⟩ := ih b
      exact ⟨y, by rw [List.foldl_cons, he, hy], hle, heq, hmem.imp_right (List.mem_cons_of_mem _)⟩
    cases c with
    | none => exact hsame rfl
    | some c =>
      by_cases hlt : c.1.rank < b.1.rank
      · obtain ⟨y, hy, hle, heq, hmem⟩ := ih c
        refine ⟨y, by rw [List.foldl_cons, nextCheck, if_pos hlt, hy], by omega, fun h => by omega, .inr ?_⟩
        obtain rfl | hmem := hmem
        · exact List.mem_cons_self
        · exact List.mem_cons_of_mem _ hmem
      · exact hsame (if_neg hlt)

theorem pickCheck_none {cs : List (Option (Status × Nat))} (h : ∀ y, some y ∉ cs) : pickCheck cs = none := by
  rw [pickCheck_eq]
  induction cs with
  | nil => rfl
  | cons c cs ih =>
    cases c with
    | none => exact ih fun y hy => h y (List.mem_cons_of_mem _ hy)
    | some c => exact absurd List.mem_cons_self (h c)

/-- The check that stands is one of those made. -/
theorem pickCheck_mem {cs : List (Option (Status × Nat))} {y : Status × Nat} (h : pickCheck cs = some y) : some y ∈ cs := by
  rw [pickCheck_eq] at h
  induction cs with
  | nil => cases h
  | cons c cs ih =>
    cases c with
    | none => exact List.mem_cons_of_mem _ (ih h)
    | some c =>
      obtain ⟨z, hz, -, -, hmem⟩ := foldl_nextCheck_some c cs
      obtain rfl : z = y := Option.some.inj (hz.symm.trans h)
      obtain rfl | hmem := hmem
      · exact List.mem_cons_self
      · exact List.mem_cons_of_mem _ hmem

/-- Where a check is made, one of no later rank is picked. -/
theorem pickCheck_of_mem {cs : List (Option (Status × Nat))} {z : Status × Nat} (hz : some z ∈ cs) :
    ∃ y, pickCheck cs = some y ∧ y.1.rank ≤ z.1.rank := by
  obtain ⟨as, bs, rfl⟩ := List.append_of_mem hz
  rw [pickCheck_eq, List.foldl_append, List.foldl_cons]
  have hstep : ∃ b, nextCheck (as.foldl nextCheck none) (some z) = some b ∧ b.1.rank ≤ z.1.rank := by
    cases as.foldl nextCheck none with
    | none => exact ⟨z, rfl, Nat.le_refl _⟩
    | some b =>
      by_cases hlt : z.1.rank < b.1.rank
      · exact ⟨z, if_pos hlt, Nat.le_refl _⟩
      · exact ⟨b, if_neg hlt, Nat.not_lt.1 hlt⟩
  obtain ⟨b, hb, hle⟩ := hstep
  obtain ⟨w, hw, hwb, -, -⟩ := foldl_nextCheck_some b bs
  rw [hb]
  exact ⟨w, hw, Nat.le_trans hwb hle⟩

/-- The statuses that stand before STATE. -/
theorem rank_lt_state {c : Status} : c.rank < Status.state.rank ↔ c = .length ∨ c = .world := by cases c <;> decide

/-- A STATE check behind checks of LENGTH and WORLD alone is the one picked unless one of these is. -/
theorem pickCheck_state {low rest : List (Option (Status × Nat))} {x : Nat} (hlow : ∀ y, some y ∈ low → y.1 = .length ∨ y.1 = .world)
    (h : ∀ c a, pickCheck (low ++ some (.state, x) :: rest) = some (c, a) → c ≠ .length ∧ c ≠ .world) :
    pickCheck (low ++ some (.state, x) :: rest) = some (.state, x) := by
  have hnone : ∀ y, some y ∉ low := by
    intro y hy
    obtain ⟨z, hz, hle⟩ := pickCheck_of_mem (List.mem_append_left (some (.state, x) :: rest) hy)
    obtain ⟨hl, hw⟩ := h z.1 z.2 hz
    exact (rank_lt_state.1 (Nat.lt_of_le_of_lt hle (rank_lt_state.2 (hlow y hy)))).elim hl hw
  have hfold : pickCheck (low ++ some (.state, x) :: rest) = rest.foldl nextCheck (some (.state, x)) := by
    rw [pickCheck_eq, List.foldl_append, ← pickCheck_eq, pickCheck_none hnone]
    rfl
  obtain ⟨y, hy, hle, heq, -⟩ := foldl_nextCheck_some (.state, x) rest
  rw [hfold] at h ⊢
  obtain ⟨hl, hw⟩ := h y.1 y.2 hy
  have hge : ¬ y.1.rank < Status.state.rank := fun hlt => (rank_lt_state.1 hlt).elim hl hw
  rw [hy, heq (Nat.le_antisymm hle (Nat.not_lt.1 hge))]

/-! ### Station commands that R526 does not allow -/

theorem checkAt_eq_some {b : Bool} {c : Status} {a : Nat} {z : Status × Nat} (h : checkAt b c a = some z) : z.1 = c := by
  cases b with
  | false => cases h
  | true => exact congrArg Prod.fst (Option.some.inj h).symm

/-- The checks of an arm outside IDLE: STATE, unless LENGTH or WORLD stands before it. -/
theorem State.armCheck_busy {s : State} {n : Nat} {west : Bool} (hbusy : s.stState n ≠ St.idle)
    (h : ∀ c a, s.armCheck n west = some (c, a) → c ≠ .length ∧ c ≠ .world) : s.armCheck n west = some (.state, RegId.addr .SMC_ST_STATE n) := by
  have hlow : ∀ y, some y ∈ s.armLength n (s.localWidth n (s.station n).heads) ++ s.armWorld n → y.1 = .length ∨ y.1 = .world := by
    intro y hy
    simp only [State.armLength, State.armWorld, List.mem_append, List.mem_map, List.mem_singleton] at hy
    obtain ⟨_, _, he⟩ | ((((⟨_, _, he⟩ | ⟨_, _, he⟩) | he) | ⟨_, _, he⟩) | ⟨_, _, he⟩) := hy
    · exact .inl (checkAt_eq_some he)
    · exact .inr (checkAt_eq_some he)
    · exact .inr (checkAt_eq_some he)
    · exact .inr (checkAt_eq_some he.symm)
    · exact .inr (checkAt_eq_some he)
    · exact .inr (checkAt_eq_some he)
  have hstate : ∃ rest, s.armState n = some (.state, RegId.addr .SMC_ST_STATE n) :: rest := by
    rw [State.armState, State.stBusy_iff.2 hbusy]
    exact ⟨_, rfl⟩
  obtain ⟨rest, hrest⟩ := hstate
  revert h
  simp only [State.armCheck, hrest, List.append_assoc, List.cons_append]
  rw [← List.append_assoc]
  exact pickCheck_state hlow

/-- The note of a refused arm leaves the command at HEAD. -/
theorem State.noteArm_cmdBytes (s : State) (n : Nat) (c : Status) (r : Fin 2) (k m : Nat) :
    (s.noteArm n c).cmdBytes r ((s.noteArm n c).mbHead r) k m = s.cmdBytes r (s.mbHead r) k m := by
  unfold State.noteArm
  split
  · have hhead : (s.set R.KRU_ST_STATUS_LAST_STATUS c.code n).mbHead r = s.mbHead r :=
      State.get_set_ne _ _ _ _ _ _ _ _ (by simp only [Fld.key, R.KRU_ST_STATUS_LAST_STATUS, R.SMC_MB_CMD_HEAD_HEAD]; omega)
    rw [hhead]
    rfl
  · rfl

/-- The state checks of R526 on the station commands. -/
theorem pickStatus_state (b c : Bool) : pickStatus [some .state, refuseIf b .busy, refuseIf c .range] = some .state := by
  revert b c
  decide

theorem State.define_busy {s : State} {n : Nat} (r : Nat) (h : s.stState n ≠ St.idle) : s.define r n = badState n := by
  rw [State.define, State.stBusy_iff.2 h]
  dsimp only
  rw [refuseIf_true, pickStatus_state]
  rfl

theorem State.drainCmd_illegal {s : State} {n : Nat} (final : Nat) (t : Int)
    (h : s.stState n = St.idle ∨ s.stState n = St.draining ∨ ((s.stState n = St.paused ∨ s.stState n = St.rewinding) ∧
      (s.get R.SST_ST_REW_STATUS_PHASE n = 0 ∨ 5 ≤ s.get R.SST_ST_REW_STATUS_PHASE n)) ∨ (s.station n).axisDown = true) :
    s.drainCmd n final t = badState n := by
  refine if_pos ?_
  obtain hst | hst | ⟨hst | hst, hphase⟩ | haxis := h
  · rw [hst]
    exact .inl rfl
  · rw [hst]
    exact .inl rfl
  · rw [hst]
    exact .inl (by simp [St.paused, St.armed, St.scanning]; omega)
  · rw [hst]
    exact .inl (by simp [St.rewinding, St.paused, St.armed, St.scanning]; omega)
  · exact .inr haxis

section
variable (r : Fin 2) (t : Int) (t2 : Option (Fin 16)) (west : Bool) (s : State)

theorem exec_stDefine : exec (.stDefine r) s = .next (s.command r Op.stDefine fun s => s.define r (s.stParam r)) := rfl

theorem exec_stArm : exec (.stArm r t t2 west) s = .next (s.command r Op.stArm fun s => s.arm (s.stParam r) t (t2.map (·.val)) west) := rfl

theorem exec_stStart : exec (.stStart ⟨r, t⟩) s = .next (s.command r Op.stStart fun s => s.startRun (s.stParam r) t) := rfl

theorem exec_stPause : exec (.stPause r t) s = .next (s.command r Op.stPause fun s => s.pause (s.stParam r) t) := rfl

theorem exec_stResume : exec (.stResume r) s = .next (s.command r Op.stResume fun s => s.resume (s.stParam r)) := rfl

theorem exec_stDrain : exec (.stDrain ⟨r, t⟩) s = .next (s.command r Op.stDrain fun s => s.drainCmd (s.stParam r) (s.param r 24 6) t) := rfl

theorem exec_stStage : exec (.stStage r t2) s = .next (s.command r Op.stStage fun s =>
    s.stage r (s.stParam r) (bit (s.param r 17 1) 0) (s.stageParam r) (t2.map (·.val))) := rfl

theorem exec_stAbort : exec (.stAbort r) s = .next (s.command r Op.stAbort fun s => s.abortCmd (s.stParam r)) := rfl

end

theorem State.abortCmd_idle {s : State} {n : Nat} (h : s.stState n = St.idle) : s.abortCmd n = badState n :=
  if_pos (decide_eq_false (not_not_intro h))

theorem State.stage_illegal {s : State} {n : Nat} (r : Nat) (cancel : Bool) (g : Staged) (t2 : Option Nat)
    (h : s.stState n = St.idle ∨ s.stState n = St.draining) : s.stage r n cancel g t2 = badState n :=
  if_pos (h.imp_left fun hidle => decide_eq_false (not_not_intro hidle))

theorem State.resume_illegal {s : State} {n : Nat}
    (h : (s.stState n ≠ St.paused ∧ s.stState n ≠ St.rewinding) ∨ s.on R.SMC_ST_STATE_HOLD n = false) : s.resume n = badState n := by
  refine if_neg ?_
  rintro ⟨hrun, hhold⟩
  obtain ⟨hp, hr⟩ | hoff := h
  · exact hrun.elim hp hr
  · rw [hoff] at hhold
    cases hhold

theorem State.startRun_illegal {s : State} {n : Nat} (t : Int) (h : s.stState n ≠ St.armed ∨ s.ringStation n = true) : s.startRun n t = badState n := if_pos h

theorem State.pause_illegal {s : State} {n : Nat} (t : Int) (h : s.stState n ≠ St.scanning ∨ (s.station n).axisDown = true) : s.pause n t = badState n :=
  if_pos h

theorem State.arm_busy {s : State} {n : Nat} (t : Int) (t2 : Option Nat) {west : Bool} (hbusy : s.stState n ≠ St.idle)
    (h : ∀ c a, s.armCheck n west = some (c, a) → c ≠ .length ∧ c ≠ .world) :
    s.arm n t t2 west = .reported (s.noteArm n .state) .state (RegId.addr .SMC_ST_STATE n) 0 := by
  rw [State.arm, State.armCheck_busy hbusy h]

theorem illegalWhereNotMarked (r : Fin 2) (t : Int) (t2 : Option (Fin 16)) (west : Bool) (s : State) :
    let n := s.stParam r
    let st := s.stState n
    let phase := s.get R.SST_ST_REW_STATUS_PHASE n
    let refused (op : Nat) : State := turnedAway s r op .state (RegId.addr .SMC_ST_STATE n) 0
    (AtHead s r Op.stDefine → st ≠ St.idle → exec (.stDefine r) s = .next (refused Op.stDefine)) ∧
    (AtHead s r Op.stArm → st ≠ St.idle → (∀ c a, s.armCheck n west = some (c, a) → c ≠ .length ∧ c ≠ .world) →
      exec (.stArm r t t2 west) s = .next (turnedAway (s.noteArm n .state) r Op.stArm .state (RegId.addr .SMC_ST_STATE n) 0)) ∧
    (AtHead s r Op.stStart → (st ≠ St.armed ∨ s.ringStation n = true) → exec (.stStart ⟨r, t⟩) s = .next (refused Op.stStart)) ∧
    (AtHead s r Op.stPause → (st ≠ St.scanning ∨ (s.station n).axisDown = true) → exec (.stPause r t) s = .next (refused Op.stPause)) ∧
    (AtHead s r Op.stResume → ((st ≠ St.paused ∧ st ≠ St.rewinding) ∨ s.on R.SMC_ST_STATE_HOLD n = false) →
      exec (.stResume r) s = .next (refused Op.stResume)) ∧
    (AtHead s r Op.stStage → (st = St.idle ∨ st = St.draining) → exec (.stStage r t2) s = .next (refused Op.stStage)) ∧
    (AtHead s r Op.stDrain → (st = St.idle ∨ st = St.draining ∨ ((st = St.paused ∨ st = St.rewinding) ∧ (phase = 0 ∨ 5 ≤ phase)) ∨
      (s.station n).axisDown = true) → exec (.stDrain ⟨r, t⟩) s = .next (refused Op.stDrain)) ∧
    (AtHead s r Op.stAbort → st = St.idle → exec (.stAbort r) s = .next (refused Op.stAbort)) := by
  intro n st phase refused
  have hrefused {op : Nat} {act : State → CmdEnd} (h : AtHead s r op) (he : act s = badState n) :
      (.next (s.command r op act) : Out) = .next (refused op) :=
    congrArg Host.Outcome.next (State.command_refused h he)
  refine ⟨fun h hst => (exec_stDefine r s).trans (hrefused h (State.define_busy r hst)), fun h hst hcheck => (exec_stArm r t t2 west s).trans ?_,
    fun h hst => (exec_stStart r t s).trans (hrefused h (State.startRun_illegal t hst)),
    fun h hst => (exec_stPause r t s).trans (hrefused h (State.pause_illegal t hst)),
    fun h hst => (exec_stResume r s).trans (hrefused h (State.resume_illegal hst)),
    fun h hst => (exec_stStage r t2 s).trans (hrefused h (State.stage_illegal r _ _ _ hst)),
    fun h hst => (exec_stDrain r t s).trans (hrefused h (State.drainCmd_illegal _ t hst)),
    fun h hst => (exec_stAbort r s).trans (hrefused h (State.abortCmd_idle hst))⟩
  rw [State.command_atHead h, State.arm_busy t _ hst hcheck, State.ended, turnedAway, State.noteArm_cmdBytes]

/-! ### Station commands in a device that takes none -/

/-- An end that a check before STATE makes. -/
def CmdEnd.early : CmdEnd → Bool
  | .refused c _ _ | .reported _ c _ _ => decide (c.rank < Status.state.rank)
  | .ok _ _ | .later _ _ => false

theorem CmdEnd.unless_state {e : CmdEnd} (he : e.early = false) (a : Nat) : e.unless (.state, a) = .refused .state a 0 := by
  cases e with
  | refused c b d => exact if_neg (of_decide_eq_false he)
  | reported t c b d => exact if_neg (of_decide_eq_false he)
  | ok t res => rfl
  | later t x => rfl

/-- The check of the device state comes first where a station command is in its own world (R498, R526, R540, R542). -/
theorem State.commonCheck_device {s : State} {r : Fin 2} {op : Nat} (hop : op ∈ [Op.stDefine, Op.stArm, Op.stStart, Op.stPause, Op.stResume, Op.stDrain, Op.stStage, Op.stAbort])
    (hdev : s.dev < Dev.idle ∨ Dev.fault ≤ s.dev) (hfault : s.dev = Dev.fault → s.get R.SMC_FAULT_CAUSE = 3 → r = 1)
    (hworld : r = 1 ∨ 8 ≤ s.param r 16 1 ∨ s.stationWorld (s.param r 16 1) ≠ .secure) :
    s.commonCheck r op = some (.state, RegId.addr .SMC_DEV_STATE) := by
  have hkind : isSecureOp op = false ∧ isStationOp op = true ∧ (op != Op.stQuery) = true := by
    revert op
    decide
  obtain ⟨hsec, hst, hquery⟩ := hkind
  have hforeign : (decide (r.val = 0) && decide (s.param r 16 1 < 8) && decide (s.stationWorld (s.param r 16 1) = .secure)) = false := by
    obtain rfl | h8 | hns := hworld
    · rfl
    · rw [decide_eq_false (Nat.not_lt.2 h8), Bool.and_false, Bool.false_and]
    · rw [decide_eq_false hns, Bool.and_false]
  have hcause : (decide (s.dev = Dev.fault) && decide (s.get R.SMC_FAULT_CAUSE = 3) && decide (r.val = 0)) = false := by
    simp only [Bool.and_eq_false_iff, decide_eq_false_iff_not]
    by_cases hd : s.dev = Dev.fault
    · by_cases hc : s.get R.SMC_FAULT_CAUSE = 3
      · exact .inr (by rw [hfault hd hc]; decide)
      · exact .inl (.inr hc)
    · exact .inl (.inl hd)
  have hcheck : s.devCheck r op = none ∨ s.devCheck r op = some (.state, RegId.addr .SMC_DEV_STATE) := by
    rw [State.devCheck, hcause]
    cases (decide (s.dev = Dev.thermalLatch) && op != Op.devInfo && op != Op.stQuery)
    · exact .inl rfl
    · exact .inr rfl
  have hdev' : (decide (s.dev < Dev.idle) || decide (Dev.fault ≤ s.dev)) = true := by simpa using hdev
  rw [State.commonCheck]
  rw [hsec, hst, hquery, hdev', Bool.true_and, hforeign]
  obtain h | h := hcheck <;> rw [h] <;> cases decide (8 ≤ s.param r 16 1) <;> rfl

theorem pickStatus_notEarly (a b c : Bool) : ∀ d, pickStatus [refuseIf a .state, refuseIf b .busy, refuseIf c .range] = some d →
    decide (d.rank < Status.state.rank) = false := by
  revert a b c
  decide

theorem State.define_notEarly (s : State) (r n : Nat) : (s.define r n).early = false := by
  unfold State.define
  dsimp only
  split
  next c h => exact pickStatus_notEarly _ _ _ _ h
  · rfl

theorem State.arm_notEarly {s : State} {n : Nat} {t : Int} {t2 : Option Nat} {west : Bool}
    (h : ∀ c a, s.armCheck n west = some (c, a) → c ≠ .length ∧ c ≠ .world) : (s.arm n t t2 west).early = false := by
  unfold State.arm
  split
  next c a hc =>
    obtain ⟨hl, hw⟩ := h c a hc
    exact decide_eq_false fun hlt => (rank_lt_state.1 hlt).elim hl hw
  · split
    · rfl
    · dsimp only
      split
      · rfl
      · rfl

theorem badState_notEarly (n : Nat) : (badState n).early = false := rfl

theorem State.startRun_notEarly (s : State) (n : Nat) (t : Int) : (s.startRun n t).early = false := by
  unfold State.startRun
  split
  · exact badState_notEarly n
  · rfl

theorem State.pause_notEarly (s : State) (n : Nat) (t : Int) : (s.pause n t).early = false := by
  unfold State.pause
  split
  · exact badState_notEarly n
  · split
    · rfl
    · rfl

theorem State.resume_notEarly (s : State) (n : Nat) : (s.resume n).early = false := by
  unfold State.resume
  split
  · rfl
  · exact badState_notEarly n

theorem State.drainCmd_notEarly (s : State) (n final : Nat) (t : Int) : (s.drainCmd n final t).early = false := by
  unfold State.drainCmd State.drainStopped State.drainRun
  dsimp only
  split
  · exact badState_notEarly n
  split
  · rfl
  split
  · rfl
  split
  · split <;> rfl
  split
  · rfl
  split <;> rfl

theorem State.stageCheck_rank {s : State} {n : Nat} {g : Staged} {x : Status × Nat} (h : s.stageCheck n g = some x) :
    decide (x.1.rank < Status.state.rank) = false := by
  have hmem := pickCheck_mem h
  simp only [List.mem_cons, List.not_mem_nil, or_false] at hmem
  obtain he | he | he | he | he | he := hmem <;> rw [checkAt_eq_some he.symm] <;> decide

theorem State.stage_notEarly (s : State) (r n : Nat) (cancel : Bool) (g : Staged) (t2 : Option Nat) : (s.stage r n cancel g t2).early = false := by
  unfold State.stage State.cancelStage
  split
  · exact badState_notEarly n
  split
  · split
    · rfl
    · exact badState_notEarly n
  split
  · rfl
  split
  next h => exact State.stageCheck_rank h
  · dsimp only
    split
    · split
      · rfl
      · rfl
    · rfl

theorem State.abortCmd_notEarly (s : State) (n : Nat) : (s.abortCmd n).early = false := by
  rw [State.abortCmd]
  split
  · exact badState_notEarly n
  · generalize s.abortStation n = u
    dsimp only
    split <;> rfl

theorem illegalStationCommands : Stated.IllegalStationCommands := by
  refine ⟨illegalWhereNotMarked, fun r t t2 west s hdev hfault hworld => ?_⟩
  intro whole refused
  have hrefused {op : Nat} (hop : op ∈ [Op.stDefine, Op.stArm, Op.stStart, Op.stPause, Op.stResume, Op.stDrain, Op.stStage, Op.stAbort])
      {act : State → CmdEnd} (h : whole op) (hend : (act s).early = false) : (.next (s.command r op act) : Out) = .next (refused op) := by
    obtain ⟨hready, hat, hext, hheld, hroom⟩ := h
    rw [State.command_eq hready hat hext hheld hroom, State.judged, State.commonCheck_device hop hdev hfault hworld]
    dsimp only
    rw [CmdEnd.unless_state hend]
    rfl
  refine ⟨fun h => (exec_stDefine r s).trans (hrefused (by decide) h (s.define_notEarly r _)),
    ?_,
    fun h => (exec_stStart r t s).trans (hrefused (by decide) h (s.startRun_notEarly _ t)),
    fun h => (exec_stPause r t s).trans (hrefused (by decide) h (s.pause_notEarly _ t)),
    fun h => (exec_stResume r s).trans (hrefused (by decide) h (s.resume_notEarly _)),
    fun h => (exec_stDrain r t s).trans (hrefused (by decide) h (s.drainCmd_notEarly _ _ t)),
    fun h => (exec_stStage r t2 s).trans (hrefused (by decide) h (s.stage_notEarly r _ _ _ _)),
    fun h => (exec_stAbort r s).trans (hrefused (by decide) h (s.abortCmd_notEarly _))⟩
  intro h hcheck
  rw [exec_stArm]
  refine hrefused (by decide) h ?_
  exact State.arm_notEarly hcheck

/-- Settles O58: a command at HEAD ends as its own rule says where R526 allows it, and by the first check that fails elsewhere. -/
theorem stationCommandRules : Obligations.StationCommandRules := ⟨stationCommands, illegalStationCommands⟩

end Sys2Proof.Machine
end

section
/-! PROOFS. The commands of the device (R524, R533, R535, R536, R541). -/

open Sys2Proof Sys2Proof.Stated

namespace Sys2Proof.Machine

/-- Nothing stands before a check of LENGTH that is made first. -/
theorem pickCheck_length (a : Nat) (cs : List (Option (Status × Nat))) : pickCheck (some (.length, a) :: cs) = some (.length, a) := by
  obtain ⟨y, hy, hle, heq, -⟩ := foldl_nextCheck_some (.length, a) cs
  rw [pickCheck_eq, List.foldl_cons]
  exact hy.trans (congrArg some (heq (Nat.le_antisymm hle (Nat.zero_le _))))

theorem State.flashCheck_past {s : State} {off len : Nat} (h : s.smc.flashSize < off + len) : s.flashCheck off len = some (.length, noAddr) := by
  rw [State.flashCheck, decide_eq_true h]
  exact pickCheck_length _ _

theorem State.faultClear_refused {s : State} {answers : Bool} (h : ¬ (s.dev = Dev.fault ∧ s.faultPersists answers = false)) :
    s.faultClear answers = .refused .state (RegId.addr .SMC_FAULT) 0 := by
  refine if_pos ?_
  by_cases hdev : s.dev = Dev.fault
  · exact .inr (Bool.of_not_eq_false fun hp => h ⟨hdev, hp⟩)
  · exact .inl hdev

theorem exec_flashWriteDone {s : State} {r : Nat} {x : Running} (h : s.runningOp Op.flashWrite = some (r, x)) (bs : List Byte) :
    let t := (s.emit (.flashErase (x.data.headD 0) ((x.data.getD 1 0 + 4095) / 4096))).emit
      (.flash (x.data.headD 0) ((bs.map (·.toNat)).take (x.data.getD 1 0)))
    exec (.flashWriteDone (some bs) true) s = .next (t.endRun r .ok []) ∧
    exec (.flashWriteDone (some bs) false) s = .next (t.endRun r .integrity noDetail) ∧
    exec (.flashWriteDone none true) s = .next (s.endRun r .absent noDetail) := by
  intro t
  refine ⟨?_, ?_, ?_⟩
  · change execFlashWriteDone (some bs) true s = _
    rw [execFlashWriteDone, h]
    rfl
  · change execFlashWriteDone (some bs) false s = _
    rw [execFlashWriteDone, h]
    rfl
  · change execFlashWriteDone none true s = _
    rw [execFlashWriteDone, h]

/-- Settles O56: each command by the branch of its rule that its conditions name. -/
theorem deviceCommands : Obligations.DeviceCommands := by
  refine ⟨fun r s h => congrArg Host.Outcome.next (State.command_ok h rfl), fun r answers s h => ⟨fun hclear => ?_, fun hstay => ?_⟩,
    fun r s h => congrArg Host.Outcome.next (State.command_ok h rfl), fun r s h => ⟨fun hw hpol => ?_, fun hw hpol hst => ?_, fun hw hpol => ?_⟩,
    fun r s h => ?_, fun bs r x s h => exec_flashWriteDone h bs, fun s hst => congrArg Host.Outcome.next (if_pos hst),
    fun s => ⟨fun hs => congrArg Host.Outcome.next (if_neg (by simp [hs])), fun hs => congrArg Host.Outcome.next (if_pos hs)⟩⟩
  · obtain ⟨hdev, hgone⟩ := hclear
    exact congrArg Host.Outcome.next (State.command_ok h (if_neg (by simp [hdev, hgone])))
  · exact congrArg Host.Outcome.next (State.command_refused h (State.faultClear_refused hstay))
  · refine congrArg Host.Outcome.next (State.command_ok h ?_)
    simp [State.svnCommit, hw, hpol]
  · refine congrArg Host.Outcome.next (State.command_ok h ?_)
    obtain hst | hst := hst <;> simp [State.svnCommit, hw, hpol, hst]
  · refine congrArg Host.Outcome.next (State.command_refused h ?_)
    simp [State.svnCommit, hw, hpol, atReg]
  · intro off len
    refine ⟨fun hlen => ?_, fun hlen hcheck => ?_, fun hlen hpast => ?_⟩
    · exact congrArg Host.Outcome.next (State.command_ok h (if_pos hlen))
    · refine congrArg Host.Outcome.next (State.command_later h ((if_neg hlen).trans ?_))
      rw [hcheck]
    · refine congrArg Host.Outcome.next (State.command_refused h ((if_neg hlen).trans ?_))
      rw [State.flashCheck_past hpast]

end Sys2Proof.Machine
end

section
/-! PROOFS. The security responder, enrolment, head measurements and the world map (R492 to R499, R508 to R511, R534). -/

open Sys2Proof Sys2Proof.Stated

namespace Sys2Proof.Machine

/-! ### One bit of a map -/

/-- A word with bit `k` replaced. -/
def putBit (m k x : Nat) : Nat := m - (m &&& 2 ^ k) + x * 2 ^ k

theorem putBit_eq (m k x : Nat) : putBit m k x = 2 ^ k * (2 * (m / 2 ^ (k + 1)) + x) + m % 2 ^ k := by
  have hbit : (m.testBit k).toNat = m / 2 ^ k % 2 := by
    rw [Nat.testBit_eq_decide_div_mod_eq]
    obtain h | h := Nat.mod_two_eq_zero_or_one (m / 2 ^ k) <;> simp [h]
  have hsplit : m = 2 ^ k * (2 * (m / 2 ^ (k + 1)) + m / 2 ^ k % 2) + m % 2 ^ k := by
    have hq : m / 2 ^ (k + 1) = m / 2 ^ k / 2 := by rw [Nat.pow_succ, Nat.div_div_eq_div_mul]
    rw [hq, Nat.div_add_mod, Nat.div_add_mod]
  rw [putBit, and_bit_eq, hbit]
  generalize m / 2 ^ (k + 1) = q, m / 2 ^ k % 2 = c, m % 2 ^ k = l at hsplit
  subst hsplit
  rw [Nat.mul_add, Nat.mul_add, Nat.mul_comm c, Nat.mul_comm x]
  omega

theorem testBit_putBit (m k x j : Nat) (hx : x ≤ 1) : (putBit m k x).testBit j = if j = k then decide (x = 1) else m.testBit j := by
  have hm : putBit m k (m / 2 ^ k % 2) = m := by
    have hq : m / 2 ^ (k + 1) = m / 2 ^ k / 2 := by rw [Nat.pow_succ, Nat.div_div_eq_div_mul]
    rw [putBit_eq, hq, Nat.div_add_mod, Nat.div_add_mod]
  have hl : m % 2 ^ k < 2 ^ k := Nat.mod_lt _ (Nat.two_pow_pos k)
  have hbits (y : Nat) (hy : y ≤ 1) : (putBit m k y).testBit j =
      if j < k then (m % 2 ^ k).testBit j else if j = k then decide (y = 1) else (m / 2 ^ (k + 1)).testBit (j - k - 1) := by
    rw [putBit_eq, Nat.testBit_two_pow_mul_add _ hl]
    obtain hlt | rfl | hgt := Nat.lt_trichotomy j k
    · rw [if_pos hlt, if_pos hlt]
    · rw [if_neg (Nat.lt_irrefl j), if_neg (Nat.lt_irrefl j), if_pos rfl, Nat.sub_self, Nat.testBit_zero]
      exact decide_eq_decide.2 (by omega)
    · obtain ⟨d, rfl⟩ := Nat.exists_eq_add_of_lt hgt
      rw [if_neg (by omega), if_neg (by omega), if_neg (by omega), show k + d + 1 - k = d + 1 by omega, Nat.testBit_succ,
        show (2 * (m / 2 ^ (k + 1)) + y) / 2 = m / 2 ^ (k + 1) by omega]
      rfl
  by_cases hj : j = k
  · rw [hbits x hx, if_neg (by omega), if_pos hj, if_pos hj]
  · rw [if_neg hj, ← congrArg (·.testBit j) hm, hbits x hx, hbits _ (by omega), if_neg hj, if_neg hj]

theorem bits_one (v k : Nat) : bits v k 1 = (v.testBit k).toNat := by
  rw [bits, Nat.shiftRight_eq_div_pow, Nat.testBit_eq_decide_div_mod_eq, Nat.pow_one]
  obtain h | h := Nat.mod_two_eq_zero_or_one (v / 2 ^ k) <;> simp [h]

/-- The bit of a target in its map. -/
theorem State.setTarget_bits (s : State) {kind n m world : Nat} (hlo : 1 ≤ kind) (hhi : kind ≤ 7) (hn : n < targetCount kind) (hm : m < targetCount kind)
    (hw : world ≤ 1) : bits ((s.setTarget kind n world).get (targetMap kind) (m / 32)) (m % 32) 1 =
      if m = n then world else bits (s.get (targetMap kind) (m / 32)) (m % 32) 1 := by
  have hmap : (targetMap kind).s1 = 4 ∧ (targetMap kind).width = 32 ∨ targetCount kind ≤ (targetMap kind).width ∧ (targetMap kind).width ≤ 32 := by
    have hkinds : ∀ k : Fin 8, 1 ≤ k.val → (targetMap k).s1 = 4 ∧ (targetMap k).width = 32 ∨
        targetCount k ≤ (targetMap k).width ∧ (targetMap k).width ≤ 32 := by decide
    exact hkinds ⟨kind, by omega⟩ hlo
  have hfit : m % 32 < (targetMap kind).width := by omega
  by_cases hword : m / 32 = n / 32
  · have hget : (s.setTarget kind n world).get (targetMap kind) (m / 32) =
        putBit (s.get (targetMap kind) (n / 32)) (n % 32) world % 2 ^ (targetMap kind).width := by
      rw [hword]
      exact State.get_set_self ..
    rw [hget, hword, bits_one, bits_one, Nat.testBit_mod_two_pow, decide_eq_true hfit, Bool.true_and, testBit_putBit _ _ _ _ hw]
    by_cases he : m = n
    · rw [if_pos (by rw [he]), if_pos he]
      obtain rfl | rfl : world = 0 ∨ world = 1 := by omega
      all_goals rfl
    · rw [if_neg (by omega), if_neg he]
  · have hkey : (targetMap kind).key (m / 32) 0 ≠ (targetMap kind).key (n / 32) 0 := by
      obtain ⟨hs, -⟩ | ⟨hc, hw32⟩ := hmap
      · simp only [Fld.key, hs]
        omega
      · omega
    have hget : (s.setTarget kind n world).get (targetMap kind) (m / 32) = s.get (targetMap kind) (m / 32) := State.get_set_ne _ _ _ _ _ _ _ _ hkey
    rw [hget, if_neg (by rintro rfl; exact hword rfl)]

/-! ### SPDM -/

theorem State.spdmAnswer_served {s : State} {r : SpdmReq} (h : (s.spdmServe r).length ≤ 4096) : s.spdmAnswer 0x12 r false = s.spdmServe r := by
  rw [State.spdmAnswer, if_neg (by simp), if_neg (by simp)]
  exact if_pos h

theorem State.opaqueData_length (s : State) : s.opaqueData.length = 16 := by simp [State.opaqueData]

theorem State.spdmNonce_length (s : State) : s.spdmNonce.length ≤ 32 := by simp [State.spdmNonce]

/-- A response to no nonce over measurements. -/
theorem State.measResponse_plain (s : State) (count : Nat) (is : List Nat) : s.measResponse count is [] =
    [0x12, 0x60, count, 0] ++ (is.length :: leBytes 3 (is.flatMap s.measBlock).length ++ is.flatMap s.measBlock ++ s.spdmNonce ++ [16, 0] ++ s.opaqueData) := by
  rw [State.measResponse, State.opaqueData_length]
  rfl

/-- A value below 256 takes one byte of its field. -/
theorem leBytes_4_small {v : Nat} (h : v < 256) : leBytes 4 v = [v, 0, 0, 0] := by
  simp only [leBytes, Nat.mod_eq_of_lt h, Nat.div_eq_of_lt h]

theorem spdmAnswers : Stated.SpdmAnswers := by
  refine ⟨fun tr v r busy s hs => if_neg (by simp [hs]), fun v r s => rfl, fun v s => ?_, fun v r s hv hr => ?_, fun code s => ?_,
    fun i nonce s h0 hall hno => ?_, fun i s h0 hall hyes hlen => ?_, fun o s => ?_, fun s => ?_, fun s => ?_⟩
  · rw [State.spdmAnswer, if_neg (by simp), if_neg (by simp)]
    rfl
  · rw [State.spdmAnswer, if_neg (by simp), if_pos ⟨hr, hv⟩]
    rfl
  · exact State.spdmAnswer_served (by simp [State.spdmServe, spdmError, spdmMsg])
  · have hserve : s.spdmServe (.getMeasurements i nonce) = [0x12, 0x7F, 1, 0] := by
      simp only [State.spdmServe, if_neg h0, if_neg hall, hno]
      rfl
    rw [State.spdmAnswer_served (by rw [hserve]; decide), hserve]
  · have hserve : s.spdmServe (.getMeasurements i []) = [0x12, 0x60, 0, 0, 1, 55, 0, 0, i.toNat, 1, 51, 0, measType i.toNat, 48, 0] ++
        s.measurement i.toNat ++ s.spdmNonce ++ [16, 0] ++ s.opaqueData := by
      have hblock : (s.measBlock i.toNat).length = 55 := by simp [State.measBlock, hlen]
      simp only [State.spdmServe, if_neg h0, if_neg hall, if_pos hyes, List.map_nil, State.measResponse_plain, List.flatMap_cons, List.flatMap_nil,
        List.append_nil, hblock]
      simp [State.measBlock, leBytes]
    have hnonce := s.spdmNonce_length
    rw [State.spdmAnswer_served ?_, hserve]
    rw [hserve]
    simp only [List.length_append, hlen, s.opaqueData_length, List.length_cons, List.length_nil]
    omega
  · have hspec : o.spec.toNat &&& 1 ≤ 1 := Nat.and_le_right
    have hasym : o.asym.toNat &&& 0x80 ≤ 0x80 := Nat.and_le_right
    have hhash : o.hash.toNat &&& 2 ≤ 2 := Nat.and_le_right
    have hserve : s.spdmServe (.negotiateAlgorithms o) =
        [0x12, 0x63, 0, 0, 36, 0, o.spec.toNat &&& 1, o.other.toNat &&& 2, 4 * (o.spec.toNat &&& 1), 0, 0, 0, o.asym.toNat &&& 0x80, 0, 0, 0,
          o.hash.toNat &&& 2, 0, 0, 0] ++ List.replicate 16 0 := by
      simp only [State.spdmServe, algChoice, algsBody, leBytes_4_small (v := 4 * (o.spec.toNat &&& 1)) (by omega),
        leBytes_4_small (v := o.asym.toNat &&& 0x80) (by omega), leBytes_4_small (v := o.hash.toNat &&& 2) (by omega)]
      simp [spdmMsg, leBytes, List.replicate, Spdm.algorithms]
    rw [State.spdmAnswer_served (by rw [hserve]; simp), hserve]
  · have hserve : s.spdmServe (.getMeasurements 0 []) = [0x12, 0x60, s.allMeasured.length, 0, 0, 0, 0, 0] ++ s.spdmNonce ++ [16, 0] ++ s.opaqueData := by
      have hzero : (0 : BitVec 8).toNat = 0 := rfl
      simp only [State.spdmServe, hzero, if_true, List.map_nil, State.measResponse_plain]
      simp [leBytes]
    have hnonce := s.spdmNonce_length
    rw [State.spdmAnswer_served ?_, hserve]
    rw [hserve]
    simp only [List.length_append, s.opaqueData_length, List.length_cons, List.length_nil]
    omega
  · rw [State.opaqueData, Nat.mul_comm (b2n (decide _)), Nat.mul_comm (s.get _)]
    rfl

/-! ### The end of a command that ran on -/

theorem State.respond_smc (s : State) (r op tag : Nat) (c : Status) (body : List Nat) : (s.respond r op tag c body).smc = s.smc := by
  simp [State.respond]

theorem State.respondRefused_smc (s : State) (r op tag : Nat) (c : Status) (a d : Nat) : (s.respondRefused r op tag c a d).smc = s.smc := by
  simp [State.respondRefused, State.respond_smc, State.add]

/-- A response writes no register below the mailbox. -/
theorem State.respond_get_below (s : State) (r op tag : Nat) (c : Status) (body : List Nat) {f : Fld} {i j : Nat} (hf : f.key i j < 0x5100 * 32) :
    (s.respond r op tag c body).get f i j = s.get f i j := by
  have htail : f.key i j ≠ R.SMC_MB_RSP_TAIL_TAIL.key r 0 := by simp only [Fld.key, R.SMC_MB_RSP_TAIL_TAIL] at hf ⊢; omega
  have hbusy : f.key i j ≠ R.SMC_MB_STATUS_BUSY.key r 0 := by simp only [Fld.key, R.SMC_MB_STATUS_BUSY] at hf ⊢; omega
  simp only [State.respond]
  rw [State.raise_get_below _ _ (by omega), State.get_set_ne _ _ _ _ _ _ _ _ hbusy, State.get_set_ne _ _ _ _ _ _ _ _ htail]
  rfl

theorem State.respondRefused_get_below (s : State) (r op tag : Nat) (c : Status) (a d : Nat) {f : Fld} {i j : Nat} (hf : f.key i j < 0x5100 * 32) :
    (s.respondRefused r op tag c a d).get f i j = s.get f i j := by
  have hcount : f.key i j ≠ R.SMC_MB_REFUSED_COUNT.key r c.code := by simp only [Fld.key, R.SMC_MB_REFUSED_COUNT] at hf ⊢; omega
  have hlast : f.key i j ≠ R.SMC_MB_STATUS_LAST_STATUS.key r 0 := by simp only [Fld.key, R.SMC_MB_STATUS_LAST_STATUS] at hf ⊢; omega
  have hop : f.key i j ≠ R.SMC_MB_STATUS_LAST_OP.key r 0 := by simp only [Fld.key, R.SMC_MB_STATUS_LAST_OP] at hf ⊢; omega
  simp only [State.respondRefused, State.add]
  rw [State.respond_get_below _ _ _ _ _ _ hf, State.raise_get_below _ _ (by omega), State.get_set_ne _ _ _ _ _ _ _ _ hop,
    State.get_set_ne _ _ _ _ _ _ _ _ hlast, State.get_set_ne _ _ _ _ _ _ _ _ hcount]

theorem State.endRun_get_below (s : State) (r : Nat) (c : Status) (body : List Nat) {f : Fld} {i j : Nat} (hf : f.key i j < 0x5100 * 32) :
    (s.endRun r c body).get f i j = s.get f i j := by
  unfold State.endRun
  split
  · rfl
  · dsimp only
    split
    · exact State.respond_get_below _ _ _ _ _ _ hf
    · exact State.respondRefused_get_below _ _ _ _ _ _ _ hf

/-- The command on a ring has ended; nothing else of the management complex changes. -/
theorem State.endRun_smc (s : State) (r : Nat) (c : Status) (body : List Nat) :
    (s.endRun r c body).smc = { s.smc with ring := (s.endRun r c body).smc.ring } ∧ ((s.endRun r c body).ring r).run = none := by
  unfold State.endRun
  split
  next h => exact ⟨rfl, h⟩
  · dsimp only
    have hrun : ((s.setRing r { s.ring r with run := none }).ring r).run = none := by rw [State.setRing_ring]
    split
    · simp only [State.ring, State.respond_smc]
      exact ⟨rfl, hrun⟩
    · simp only [State.ring, State.respondRefused_smc]
      exact ⟨rfl, hrun⟩

/-- An event that is pending stays so when a command ends with OK. -/
theorem State.endRun_bit {s : State} {r n : Nat} (hr : r < 2) (hn : n < 1536) (body : List Nat)
    (h : bit (s.get R.HIF_EVT_PEND_PEND (n / 32)) (n % 32) = true) :
    bit ((s.endRun r .ok body).get R.HIF_EVT_PEND_PEND (n / 32)) (n % 32) = true := by
  unfold State.endRun
  split
  · exact h
  · dsimp only
    rw [if_pos rfl]
    unfold State.respond
    refine State.bit_raise_of_bit _ (by simp only [Ev.mbResponse]; omega) hn ?_
    rw [State.get_set_ne, State.get_set_ne]
    · exact h
    all_goals
      simp only [Fld.key, R.HIF_EVT_PEND_PEND, R.SMC_MB_RSP_TAIL_TAIL, R.SMC_MB_STATUS_BUSY]
      omega

/-! ### Enrolment -/

theorem State.runningOp_ring {s : State} {op r : Nat} {x : Running} (h : s.runningOp op = some (r, x)) : r < 2 := by
  obtain ⟨k, hk, he⟩ := List.exists_of_findSome?_eq_some h
  have hkr : k = r := by
    split at he
    · split at he
      · exact congrArg Prod.fst (Option.some.inj he)
      · cases he
    · cases he
  subst hkr
  simp only [List.mem_cons, List.not_mem_nil, or_false] at hk
  omega

/-- The fuses of an enrolment as they read back, before the command ends. -/
def State.fusesBlown (s : State) (x : Running) (dig : List Nat) (owner : Nat) : State :=
  let s1 := (s.each (List.range 12) fun s i => s.set R.SMC_OWNER_DIG_DIGEST (field dig (4 * i) 4) i).set R.SMC_ID_CFG_OWNER owner
  ({ s1 with smc := { s1.smc with kek := (x.data.drop 1).take (x.data.headD 0) } } : State).syncMeas

theorem State.fusesBlown_owner (s : State) (x : Running) (dig : List Nat) {owner : Nat} (h : owner < 4) :
    (s.fusesBlown x dig owner).get R.SMC_ID_CFG_OWNER = owner := by
  unfold State.fusesBlown State.syncMeas
  rw [State.each_get fun t i _ => State.get_set_ne _ _ _ _ _ _ _ _ (by simp only [Fld.key, R.SMC_ID_CFG_OWNER, R.SMC_MEAS_DATA_DIGEST]; omega)]
  exact State.get_set_lt _ _ _ _ _ h

theorem State.each_smc {α : Type} (s : State) (xs : List α) (g : State → α → State) (h : ∀ t x, (g t x).smc = t.smc) : (s.each xs g).smc = s.smc := by
  unfold State.each
  induction xs generalizing s with
  | nil => rfl
  | cons x xs ih => rw [List.foldl_cons, ih, h]

theorem State.fusesBlown_kek (s : State) (x : Running) (dig : List Nat) (owner : Nat) :
    (s.fusesBlown x dig owner).smc.kek = (x.data.drop 1).take (x.data.headD 0) := by
  unfold State.fusesBlown State.syncMeas
  rw [State.each_smc _ _ _ fun _ _ => State.set_smc ..]

theorem State.enrolled_eq (s : State) (r : Nat) (x : Running) (dig : List Nat) (kekOk : Bool) : s.enrolled r x dig kekOk =
    if kekOk = true ∧ dig = (x.data.drop 1).drop (x.data.headD 0) then ((s.fusesBlown x dig 1).raise Ev.ownerEnrolled).endRun r .ok []
    else (s.fusesBlown x dig 3).endRun r .integrity noDetail := by
  unfold State.enrolled State.fusesBlown
  dsimp only
  by_cases h : kekOk = true ∧ dig = (x.data.drop 1).drop (x.data.headD 0)
  · have hg : (kekOk && decide (dig = (x.data.drop 1).drop (x.data.headD 0))) = true := by simpa using h
    rw [if_pos h, hg]
    rfl
  · have hg : (kekOk && decide (dig = (x.data.drop 1).drop (x.data.headD 0))) = false := by simpa using h
    rw [if_neg h, hg]
    rfl

/-- What an enrolment leaves whose fuses read back as written. -/
theorem State.enrolled_good {s : State} {r : Nat} (hr : r < 2) {x : Running} {dig : List Nat} {kekOk : Bool}
    (h : kekOk = true ∧ dig = (x.data.drop 1).drop (x.data.headD 0)) :
    (s.enrolled r x dig kekOk).get R.SMC_ID_CFG_OWNER = 1 ∧ ((s.enrolled r x dig kekOk).ring r).run = none ∧
    bit ((s.enrolled r x dig kekOk).get R.HIF_EVT_PEND_PEND 45) 0 = true ∧
    (s.enrolled r x dig kekOk).smc.kek = (x.data.drop 1).take (x.data.headD 0) := by
  rw [State.enrolled_eq, if_pos h]
  have howner : ((s.fusesBlown x dig 1).raise Ev.ownerEnrolled).get R.SMC_ID_CFG_OWNER = 1 := by
    rw [State.raise_get_below _ _ (by decide), State.fusesBlown_owner _ _ _ (by decide)]
  have hkek : ((s.fusesBlown x dig 1).raise Ev.ownerEnrolled).smc.kek = (x.data.drop 1).take (x.data.headD 0) := by
    rw [State.raise_smc, State.fusesBlown_kek]
  have hbit := State.bit_raise_self (s.fusesBlown x dig 1) (n := 1440) (by decide)
  rw [← Ev.ownerEnrolled] at hbit
  generalize (s.fusesBlown x dig 1).raise Ev.ownerEnrolled = u at *
  obtain ⟨hsmc, hend⟩ := u.endRun_smc r .ok []
  refine ⟨?_, hend, State.endRun_bit hr (n := 1440) (by decide) _ hbit, ?_⟩
  · rw [State.endRun_get_below _ _ _ _ (by decide), howner]
  · rw [hsmc, ← hkek]

theorem State.enrolled_bad {s : State} {r : Nat} {x : Running} {dig : List Nat} {kekOk : Bool}
    (h : ¬ (kekOk = true ∧ dig = (x.data.drop 1).drop (x.data.headD 0))) :
    (s.enrolled r x dig kekOk).get R.SMC_ID_CFG_OWNER = 3 ∧ ((s.enrolled r x dig kekOk).ring r).run = none := by
  rw [State.enrolled_eq, if_neg h]
  have howner := s.fusesBlown_owner x dig (owner := 3) (by decide)
  generalize s.fusesBlown x dig 3 = u at *
  refine ⟨?_, (u.endRun_smc ..).2⟩
  rw [State.endRun_get_below _ _ _ _ (by decide), howner]

theorem exec_ownerEnrollDone {s : State} {r : Nat} {x : Running} (h : s.runningOp Op.ownerEnroll = some (r, x)) (dig : List Byte) (kekOk : Bool) :
    exec (.ownerEnrollDone dig kekOk) s = .next (s.enrolled r x (dig.map (·.toNat)) kekOk) := by
  change execOwnerEnrollDone dig kekOk s = _
  rw [execOwnerEnrollDone, h]

theorem State.enrollCheck_kek {s : State} (howner : s.get R.SMC_ID_CFG_OWNER = 0) (hdev : s.dev = Dev.bare ∨ s.dev = Dev.idle)
    (hbusy : s.on R.SCU_IMG_STATUS_BUSY = false) (kek : Option (List Nat)) :
    s.enrollCheck kek = if kek.isNone then some (.integrity, noAddr) else none := by
  have hstate : (decide (s.dev ≠ Dev.bare) && decide (s.dev ≠ Dev.idle)) = false := by
    obtain h | h := hdev <;> simp [h]
  rw [State.enrollCheck, decide_eq_false (not_not_intro howner), hstate, hbusy]
  cases kek <;> rfl

theorem State.ownerEnroll_ends {s : State} {r : Fin 2} {key : Nat} (h : AtHead s r Op.ownerEnroll) (hkey : s.deviceKey key = true)
    (howner : s.get R.SMC_ID_CFG_OWNER = 0) (hdev : s.dev = Dev.bare ∨ s.dev = Dev.idle) (hbusy : s.on R.SCU_IMG_STATUS_BUSY = false) :
    let part (k n : Nat) : List Nat := s.cmdBytes r (s.mbHead r) k n
    exec (.ownerEnroll r key) s = .next (match enrolledKek key (part 113 97) (part 210 40) with
      | some kek => runsOn s s r Op.ownerEnroll { op := 0, tag := 0, data := kek.length :: (kek ++ sha384 (part 16 97)) }
      | none => turnedAway s r Op.ownerEnroll .integrity noAddr 0) := by
  intro part
  change execOwnerEnroll r key s = _
  rw [execOwnerEnroll, if_neg (by simp [hkey]), State.command_atHead h]
  dsimp only
  rw [State.enrollCheck_kek howner hdev hbusy]
  change Host.Outcome.next (s.ended r Op.ownerEnroll (match (if (enrolledKek key (part 113 97) (part 210 40)).isNone then some (Status.integrity, noAddr) else none) with
    | some c => .refused c.1 c.2 0
    | none => .later s { op := 0, tag := 0, data := ((enrolledKek key (part 113 97) (part 210 40)).getD []).length ::
        ((enrolledKek key (part 113 97) (part 210 40)).getD [] ++ sha384 (part 16 97)) })) = _
  cases enrolledKek key (part 113 97) (part 210 40) <;> rfl

theorem State.worldSet_moves {s : State} {kind world first count : Nat} (hlo : 1 ≤ kind) (hhi : kind ≤ 7) (hw : world ≤ 1) :
    (count = 0 → s.worldSet kind world first count = .ok s []) ∧
    (count ≠ 0 → first + count ≤ targetCount kind → (∀ i, i < count → s.targetInUse kind (first + i) = false) →
      ¬ (kind = 6 ∧ 32512 < first + count) → s.worldSet kind world first count =
        .ok (s.each ((List.range count).map (first + ·)) fun s n => s.setTarget kind n world).syncMeas []) ∧
    (count ≠ 0 → targetCount kind < first + count →
      s.worldSet kind world first count = .refused .length ((targetMap kind).base + 4 * (first / 32)) 0) := by
  have hkind : ¬ (kind = 0 ∨ 7 < kind ∨ (count = 0 ∧ 1 < world)) := by omega
  refine ⟨fun hc => (if_neg hkind).trans (if_pos hc), fun hc hfit hfree hhbm => ?_, fun hc hpast => (if_neg hkind).trans ((if_neg hc).trans (if_pos hpast))⟩
  have hidle : ¬ ((List.range count).map (first + ·)).any (s.targetInUse kind) = true := by
    simp only [List.any_map, List.any_eq_true, List.mem_range, Function.comp, not_exists, not_and]
    exact fun i hi => by simp [hfree i hi]
  exact (if_neg hkind).trans ((if_neg hc).trans ((if_neg (by omega)).trans ((if_neg hidle).trans ((if_neg (by omega)).trans (if_neg hhbm)))))

theorem enrolmentAndWorlds : Stated.EnrolmentAndWorlds := by
  refine ⟨fun r key kek s h hkey howner hdev hbusy => ?_, fun dig kekOk r x s hrun => ?_, fun p s hact => ?_, fun r s h => ?_,
    fun kind n m world s hlo hhi hn hm hw => ?_⟩
  · intro part
    have hends := State.ownerEnroll_ends h hkey howner hdev hbusy
    refine ⟨fun hk => hends.trans ?_, fun hk => hends.trans ?_⟩
    · rw [hk]
    · rw [hk]
  · intro good
    exact ⟨fun hg => ⟨_, exec_ownerEnrollDone hrun dig kekOk, State.enrolled_good (State.runningOp_ring hrun) hg⟩,
      fun hg => ⟨_, exec_ownerEnrollDone hrun dig kekOk, State.enrolled_bad hg⟩⟩
  · have hexec (ended : Bool) : exec (.headMeasurementRead p ended) s = execHeadMeasurementRead p ended s := rfl
    refine ⟨fun d ended hd => ?_, fun hd => ?_, fun hd => ?_⟩
    · rw [hexec, execHeadMeasurementRead, if_neg (by simp [hact]), hd]
    · rw [hexec, execHeadMeasurementRead, if_neg (by simp [hact]), hd]
      rfl
    · rw [hexec, execHeadMeasurementRead, if_neg (by simp [hact]), hd]
      rfl
  · intro kind world first count hlo hhi hw
    obtain ⟨hnone, hmoves, hpast⟩ := State.worldSet_moves (s := s) (first := first) (count := count) hlo hhi hw
    refine ⟨fun hc => ?_, fun hc hfit hfree hhbm => ?_, fun hc hp => ⟨_, ?_, rfl⟩⟩
    · exact congrArg Host.Outcome.next (State.command_ok h (hnone hc))
    · exact congrArg Host.Outcome.next (State.command_ok h (hmoves hc hfit hfree hhbm))
    · exact congrArg Host.Outcome.next (State.command_refused h (hpast hc hp))
  · intro t
    refine ⟨?_, fun hne => ?_, fun f i j hf => ?_⟩
    · rw [State.setTarget_bits s hlo hhi hn hn hw, if_pos rfl]
    · rw [State.setTarget_bits s hlo hhi hn hm hw, if_neg hne]
    · exact State.get_set_ne _ _ _ _ _ _ _ _ fun he => hf (he ▸ List.mem_singleton_self _)

/-- Settles O57: the responder by the request it serves, enrolment by its fuses, the world map by the bit of a target. -/
theorem trustAndWorlds : Obligations.TrustAndWorlds := ⟨spdmAnswers, enrolmentAndWorlds⟩

end Sys2Proof.Machine
end

section
/-! PROOFS. The seal's audits, freezes, lateness and entry to FAULT (R334, R340, R342, R343, R541, R542). -/

open Sys2Proof Sys2Proof.Stated

namespace Sys2Proof.Machine

/-! ### What an audit latches -/

/-- A register store whose entry for LATCHED holds a value above the field's five bits. -/
def wideLatch : State := { State.reset with regs := [(R.SCU_SEAL_AUD_LATCHED.key 0 0, 64)] }

/-- Refutes O28: the clause on failed audits gives LATCHED the old value with the audit's bit set, and the model holds what it writes to the
width of the field; over states that no step reaches, where the store holds more than the field's bits, the two differ. -/
theorem not_sealAttempt : ¬ Obligations.SealAttempt := by
  rintro ⟨-, -, -, -, -, -, -, hfail, -⟩
  obtain ⟨hlatched, -, -⟩ := hfail .credits [] wideLatch (by simp)
  exact absurd hlatched (by decide +kernel)

/-! ### Freezes -/

theorem pickStatus_thaw (b c : Bool) : pickStatus [some .state, refuseIf b .state, refuseIf c .range] = some .state := by
  revert b c
  decide

/-- A THAW that the station's state does not allow. -/
theorem State.sealThaw_refused {w : World} {n : Fin 8} {v : BitVec 32} {s : State} (t : Int) (hr : Reaches s w .SCU_SEAL_ST_CTRL n 0)
    (hthaw : R.SCU_SEAL_ST_CTRL_THAW.of v.toNat = 1) (h : (s.scopeFails n || !s.on R.SCU_SEAL_ST_STATUS_FROZEN n) = true) :
    exec (.sealThaw w n v t) s = .next ((s.countRefused w .state).set R.SCU_SEAL_ST_STATUS_LAST_STATUS 1 n) := by
  change execSealThaw w n v t s = _
  simp only [execSealThaw, decide_eq_true hthaw, h, Bool.and_true, refuseIf_true, pickStatus_thaw]
  exact congrArg Host.Outcome.next (State.rowWrite_refused hr _ _ _)

theorem freezesEnd : Stated.FreezesEnd := by
  refine ⟨fun w n v t s hr hthaw => ⟨fun hfrozen hscope hsame hlo hhi hsnap => ?_, fun hthawed => State.sealThaw_refused t hr hthaw (by simp [hthawed]),
    fun hscope => State.sealThaw_refused t hr hthaw (by simp [hscope])⟩, fun n s hfrozen => congrArg Host.Outcome.next (if_pos hfrozen), fun n t l s => ?_⟩
  · change execSealThaw w n v t s = _
    have hrange : (decide (R.SCU_SEAL_ST_CTRL_MAXLAT.of v.toNat = 0) || decide (1000 < R.SCU_SEAL_ST_CTRL_MAXLAT.of v.toNat) ||
        decide (8 < R.SCU_SEAL_ST_CTRL_SNAP_LOG.of v.toNat)) = false := by
      rw [decide_eq_false (by omega), decide_eq_false (by omega), decide_eq_false (by omega)]
      rfl
    simp only [execSealThaw, hrange, decide_eq_true hthaw, hscope, hfrozen, hsame, Bool.and_false]
    exact congrArg Host.Outcome.next (State.rowWrite_taken hr _ _)
  · intro b hbusy hband hlast hpassed hlate hnew
    change execSealLatencyExceeded n t s = _
    rw [execSealLatencyExceeded, hlast]
    exact congrArg Host.Outcome.next ((if_pos ⟨hbusy, hband, decide_eq_true hpassed, hlate⟩).trans (if_neg hnew))

/-! ### Entry to FAULT -/

/-- What entry to FAULT records. -/
def State.faultRecorded (s : State) (cause st : Nat) : State :=
  (((((s.set R.SMC_FAULT_CAUSE cause).set R.SMC_FAULT_STATION st).set R.SMC_FAULT_WPI (((s.lst st).last.map (·.n)).getD 0)).set R.SMC_FAULT_NEW 1).set
    R.SMC_DEV_STATE_STATE 9 |>.raise Ev.devState).raise Ev.faultEntered

/-- What entry to FAULT then stops: the stations that are busy, and a station command that runs. -/
def State.faultStops (u : State) : State :=
  ([0, 1, 2, 3, 4, 5, 6, 7].foldl (fun u m => if u.stBusy m then u.abortStation m else u) u |>.endRunning 0 isStationOp).endRunning 1 isStationOp

theorem State.faultStops_eq (u : State) : u.faultStops = (u.each stations8 fun s n => if s.stBusy n then s.abortStation n else s).each [0, 1]
    fun s r => s.endRunning r isStationOp := by
  have hstations : stations8 = [0, 1, 2, 3, 4, 5, 6, 7] := by decide
  rw [hstations]
  simp only [State.faultStops, State.each, List.foldl_cons, List.foldl_nil]

theorem State.enterFault_eq {s : State} (hlatch : s.dev ≠ Dev.thermalLatch) (hfault : s.dev ≠ Dev.fault) (cause : Nat) (n : Fin 8) :
    s.enterFault cause n = (s.faultRecorded cause n).faultStops := by
  have hdev (m k w : Nat) : ((((s.set R.SMC_FAULT_CAUSE m).set R.SMC_FAULT_STATION k).set R.SMC_FAULT_WPI w).set R.SMC_FAULT_NEW 1).get
      R.SMC_DEV_STATE_STATE ≠ Dev.fault := by
    rw [State.get_set_ne _ _ _ _ _ _ _ _ (by decide), State.get_set_ne _ _ _ _ _ _ _ _ (by decide),
      State.get_set_ne _ _ _ _ _ _ _ _ (by decide), State.get_set_ne _ _ _ _ _ _ _ _ (by decide)]
    exact hfault
  have hmin : min n.val 7 = n := by omega
  rw [State.enterFault, if_neg (by simp [hlatch, hfault])]
  dsimp only
  rw [hmin, if_pos n.isLt, State.setDev, if_neg (hdev _ _ _), State.faultStops_eq]
  congr 2
  rw [State.faultRecorded]
  cases (s.lst n).last <;> rfl

theorem State.faultRecorded_get (s : State) (cause n : Nat) {f : Fld} {i j : Nat} (hf : f.key i j < 0x1D00000 * 32)
    (hne : ∀ g ∈ [R.SMC_FAULT_CAUSE, R.SMC_FAULT_STATION, R.SMC_FAULT_WPI, R.SMC_FAULT_NEW, R.SMC_DEV_STATE_STATE], f.key i j ≠ g.key 0 0) :
    (s.faultRecorded cause n).get f i j = s.get f i j := by
  simp only [List.forall_mem_cons] at hne
  obtain ⟨hcause, hst, hwpi, hnew, hdev, -⟩ := hne
  rw [State.faultRecorded, State.raise_get_below _ _ hf, State.raise_get_below _ _ hf, State.get_set_ne _ _ _ _ _ _ _ _ hdev,
    State.get_set_ne _ _ _ _ _ _ _ _ hnew, State.get_set_ne _ _ _ _ _ _ _ _ hwpi, State.get_set_ne _ _ _ _ _ _ _ _ hst,
    State.get_set_ne _ _ _ _ _ _ _ _ hcause]

theorem State.faultRecorded_stBusy (s : State) (cause n : Nat) {m : Nat} (hm : m < 8) : (s.faultRecorded cause n).stBusy m = s.stBusy m := by
  have hget : (s.faultRecorded cause n).get R.SMC_ST_STATE_STATE m = s.get R.SMC_ST_STATE_STATE m := by
    refine s.faultRecorded_get cause n ?_ ?_
    · simp only [Fld.key, R.SMC_ST_STATE_STATE]
      omega
    · simp only [List.forall_mem_cons, Fld.key, R.SMC_ST_STATE_STATE, R.SMC_FAULT_CAUSE, R.SMC_FAULT_STATION, R.SMC_FAULT_WPI, R.SMC_FAULT_NEW,
        R.SMC_DEV_STATE_STATE]
      exact ⟨by omega, by omega, by omega, by omega, by omega, by simp⟩
  rw [State.stBusy, State.stState, hget]
  rfl

theorem State.faultRecorded_ring (s : State) (cause n r : Nat) : (s.faultRecorded cause n).ring r = s.ring r := by
  simp [State.faultRecorded, State.ring]

theorem State.endRunning_none {s : State} {r : Nat} (h : (s.ring r).run = none) (kind : Nat → Bool) : s.endRunning r kind = s := by
  rw [State.endRunning, h]

theorem isStationOp_iff (op : Nat) : isStationOp op = true ↔ 0x10 ≤ op ∧ op ≤ 0x18 := by simp [isStationOp]

theorem faultEntry : Stated.FaultEntry := by
  refine ⟨fun cause n s hlatch hfault => ⟨State.enterFault_eq hlatch hfault cause n, fun hidle hrun0 hrun1 => ?_⟩, fun n s => rfl,
    fun r s => ⟨fun x hx hop => ?_, fun x hx hop => ?_⟩, fun cause n s h => if_pos h⟩
  · have hrec := s.faultRecorded_ring cause n
    have hbusy (m : Nat) (hm : m < 8) := (s.faultRecorded_stBusy cause n hm).trans (hidle m hm)
    refine (State.enterFault_eq hlatch hfault cause n).trans (?_ : _ = s.faultRecorded cause n)
    generalize s.faultRecorded cause n = u at hrec hbusy
    rw [State.faultStops_eq, State.each_id u stations8 _ fun m hm => if_neg (by rw [hbusy m (List.mem_range.1 hm)]; decide)]
    refine State.each_id u _ _ fun r hr => State.endRunning_none ?_ _
    rw [hrec]
    obtain rfl | rfl : r = 0 ∨ r = 1 := by simpa using hr
    · exact hrun0
    · exact hrun1
  · rw [State.endRunning, hx]
    exact if_pos ((isStationOp_iff _).2 hop)
  · rw [State.endRunning, hx]
    exact if_neg fun h => hop ((isStationOp_iff _).1 h)

/-- Settles O29: a thaw by its checks, entry to FAULT by the record it makes and the stations and commands it then ends. -/
theorem freezesAndFaults : Obligations.FreezesAndFaults := ⟨freezesEnd, faultEntry⟩

end Sys2Proof.Machine
end

section
/-! PROOFS. Strings: observations, faults, diagnostic pulses and the light of a line (R413 to R417, R425 to R433). -/

open Sys2Proof Sys2Proof.Stated

namespace Sys2Proof.Machine

/-! ### Observations and faults -/

theorem stringObservation_ends {c : Fin 96} {cur : BitVec 12} {mv : BitVec 16} {s : State} {y : LitGate} {rest : List LitGate}
    (h : (s.chan c).observed = some (y, rest)) {o d : Nat} (ho : o = if 2 * cur.toNat < y.level then (s.chan c).opens + 1 else 0)
    (hd : d = if ¬ 2 * cur.toNat < y.level ∧ s.get R.ILC_STR_CFG_SHORT_MV c ≠ 0 ∧ mv.toNat < s.get R.ILC_STR_CFG_SHORT_MV c then
      (s.chan c).shorts + 1 else 0) :
    let seen : State := (((((s.setChan c { s.chan c with gates := rest, opens := o, shorts := d }).set R.ILC_STR_MEAS_I cur.toNat c).set
      R.ILC_STR_MEAS_V mv.toNat c).set R.ILC_STR_STATUS_SINCE 0 c).set R.ILC_STR_STATUS_FAILS (max o d) c)
    exec (.stringObservation c cur mv) s = .next (if 4 ≤ o then seen.stringFault c 1 y.line else if 4 ≤ d then seen.stringFault c 2 y.line else seen) := by
  intro seen
  have hopen : (if decide (2 * cur.toNat < y.level) = true then (s.chan c).opens + 1 else 0) = o := by simp [ho]
  have hshort : (if (!decide (2 * cur.toNat < y.level) && decide (s.get R.ILC_STR_CFG_SHORT_MV c ≠ 0 ∧ mv.toNat < s.get R.ILC_STR_CFG_SHORT_MV c)) = true
      then (s.chan c).shorts + 1 else 0) = d := by simp [hd]
  have hchan : seen.chan c = { s.chan c with gates := rest, opens := o, shorts := d } := State.setChan_chan ..
  change execStringObservation c cur mv s = _
  rw [execStringObservation, h]
  dsimp only
  rw [hopen, hshort]
  change Host.Outcome.next (seen.judgeObservation c y.line) = _
  rw [State.judgeObservation, hchan]

/-- The fields of the illumination block stand apart from those of the events. -/
theorem State.raise_get_above (s : State) (n : Nat) {f : Fld} {i j : Nat} (hn : n < 1536) (h : 0x1E00000 * 32 ≤ f.key i j) :
    (s.raise n).get f i j = s.get f i j := by
  refine State.raise_get _ _ _ _ _ ?_ ?_ ?_ <;> simp only [Fld.key, R.HIF_EVT_PEND_PEND, R.HIF_EVT_SUM_LO_GROUPS, R.HIF_EVT_SUM_HI_GROUPS] at h ⊢ <;> omega

/-- The registers of a group that name a string fault. -/
def State.groupShows (s : State) (c g kind n : Nat) : State :=
  (((s.set R.ILC_GRP_FAULT_STRING c g).set R.ILC_GRP_FAULT_KIND kind g).set R.ILC_GRP_FAULT_WPI n g).set R.ILC_GRP_FAULT_NEW 1 g

theorem State.groupShows_get (s : State) (c kind n : Nat) {g : Nat} (hg : g < 8) {f : Fld} {i j : Nat} (h : 0x1E01000 * 32 ≤ f.key i j) :
    (s.groupShows c g kind n).get f i j = s.get f i j := by
  unfold State.groupShows
  rw [State.get_set_ne, State.get_set_ne, State.get_set_ne, State.get_set_ne] <;>
    simp only [Fld.key, R.ILC_GRP_FAULT_STRING, R.ILC_GRP_FAULT_KIND, R.ILC_GRP_FAULT_WPI, R.ILC_GRP_FAULT_NEW] at h ⊢ <;> omega

theorem State.groupShows_fault (s : State) (c kind n g : Nat) : let t := s.groupShows c g kind n
    t.get R.ILC_GRP_FAULT_STRING g = c % 2 ^ 7 ∧ t.get R.ILC_GRP_FAULT_KIND g = kind % 2 ^ 2 ∧ t.get R.ILC_GRP_FAULT_WPI g = n % 2 ^ 48 ∧
      t.get R.ILC_GRP_FAULT_NEW g = 1 := by
  intro t
  have hlater {f : Fld} {u : State} {k : Nat} (hs : f.s1 = 0x40) (h1 : f.key 0 0 ≠ R.ILC_GRP_FAULT_WPI.key 0 0)
      (h2 : f.key 0 0 ≠ R.ILC_GRP_FAULT_NEW.key 0 0) : ((u.set R.ILC_GRP_FAULT_WPI n g).set R.ILC_GRP_FAULT_NEW k g).get f g = u.get f g :=
    (State.get_set_ne_same _ R.ILC_GRP_FAULT_NEW f _ _ hs h2).trans (State.get_set_ne_same _ R.ILC_GRP_FAULT_WPI f _ _ hs h1)
  refine ⟨?_, (hlater rfl (by decide) (by decide)).trans (State.get_set_self ..), ?_, State.get_set_self ..⟩
  · exact (hlater rfl (by decide) (by decide)).trans ((State.get_set_ne_same _ R.ILC_GRP_FAULT_KIND R.ILC_GRP_FAULT_STRING _ _ rfl
      (by decide)).trans (State.get_set_self ..))
  · exact (State.get_set_ne_same _ R.ILC_GRP_FAULT_NEW R.ILC_GRP_FAULT_WPI _ _ rfl (by decide)).trans (State.get_set_self ..)

/-- The registers of a string fault. -/
def State.faultShown (s : State) (c g kind n : Nat) : State :=
  ((s.set R.ILC_STR_STATUS_FAULT 1 c).set R.ILC_STR_STATUS_KIND kind c).groupShows c g kind n

theorem State.stringFault_eq (s : State) (c kind n : Nat) : s.stringFault c kind n =
    (((s.faultShown c (s.get R.ILC_STR_CFG_GROUP c) kind n).gatesLow [c]).raise (1344 + s.get R.ILC_STR_CFG_GROUP c)).syncFaulted := rfl

theorem State.gatesLow_one (s : State) (c : Nat) : (s.gatesLow [c]).regs = s.regs ∧ ((s.gatesLow [c]).chan c).gates = [] := by
  unfold State.gatesLow
  simp only [State.each, List.foldl_cons, List.foldl_nil]
  split
  next h => exact ⟨rfl, List.isEmpty_iff.1 h⟩
  · rw [State.emit_regs]
    refine ⟨rfl, ?_⟩
    rw [State.chan, State.emit_ilc]
    exact congrArg Chan.gates (SMap.get_put_self _ _ _ _)

/-- What the registers show after a string fault, but for the count of the strings held off. -/
theorem State.stringFault_get {s : State} {c g : Nat} (hg : s.get R.ILC_STR_CFG_GROUP c = g) (hg8 : g < 8) (kind n : Nat) {f : Fld} {i j : Nat}
    (hilc : 0x1E00000 * 32 ≤ f.key i j) (hne : f.key i j ≠ R.ILC_STATUS_FAULTED.key 0 0) :
    (s.stringFault c kind n).get f i j = (s.faultShown c g kind n).get f i j := by
  rw [State.stringFault_eq, State.syncFaulted, State.get_set_ne _ _ _ _ _ _ _ _ hne, hg, State.raise_get_above _ _ (by omega) hilc]
  exact State.get_congr (State.gatesLow_one _ _).1 f i j

theorem State.stringFault_shows {s : State} {c : Fin 96} {g : Fin 8} (hg : s.get R.ILC_STR_CFG_GROUP c = g) (kind : Fin 4) (n : Nat) :
    let t := s.stringFault c kind n
    t.get R.ILC_STR_STATUS_FAULT c = 1 ∧ t.get R.ILC_STR_STATUS_KIND c = kind ∧ t.get R.ILC_GRP_FAULT_STRING g = c ∧
      t.get R.ILC_GRP_FAULT_KIND g = kind ∧ t.get R.ILC_GRP_FAULT_WPI g = n % 2 ^ 48 ∧ t.get R.ILC_GRP_FAULT_NEW g = 1 ∧
      (t.chan c).gates = [] ∧ bit (t.get R.HIF_EVT_PEND_PEND 42) g = true := by
  intro t
  have hkept {f : Fld} {i : Nat} (hf : f ∈ [R.ILC_STR_STATUS_FAULT, R.ILC_STR_STATUS_KIND, R.ILC_GRP_FAULT_STRING, R.ILC_GRP_FAULT_KIND,
      R.ILC_GRP_FAULT_WPI, R.ILC_GRP_FAULT_NEW]) : t.get f i = (s.faultShown c g kind n).get f i := by
    refine State.stringFault_get hg g.isLt _ _ ?_ ?_ <;>
    · simp only [List.mem_cons, List.not_mem_nil, or_false] at hf
      obtain rfl | rfl | rfl | rfl | rfl | rfl := hf <;> simp only [Fld.key, R.ILC_STR_STATUS_FAULT, R.ILC_STR_STATUS_KIND, R.ILC_GRP_FAULT_STRING,
        R.ILC_GRP_FAULT_KIND, R.ILC_GRP_FAULT_WPI, R.ILC_GRP_FAULT_NEW, R.ILC_STATUS_FAULTED] <;> omega
  have hgates : (t.chan c).gates = [] := by
    have hchan : t.chan c = ((s.faultShown c (s.get R.ILC_STR_CFG_GROUP c) kind n).gatesLow [c.val]).chan c := by
      simp [t, State.stringFault_eq, State.syncFaulted, State.chan]
    rw [hchan]
    exact (State.gatesLow_one _ _).2
  have hevent : bit (t.get R.HIF_EVT_PEND_PEND 42) g = true := by
    have hraised := State.bit_raise_self ((s.faultShown c (s.get R.ILC_STR_CFG_GROUP c) kind n).gatesLow [c.val]) (n := 1344 + g) (by omega)
    rw [show (1344 + g.val) / 32 = 42 by omega, show (1344 + g.val) % 32 = g by omega] at hraised
    rw [show t = _ from State.stringFault_eq s c kind n, State.syncFaulted, State.get_set_ne _ _ _ _ _ _ _ _ (by decide), hg]
    rwa [hg] at hraised
  obtain ⟨hstring, hkind, hwpi, hnew⟩ := ((s.set R.ILC_STR_STATUS_FAULT 1 c).set R.ILC_STR_STATUS_KIND kind c).groupShows_fault c kind n g
  refine ⟨?_, ?_, ?_, ?_, ?_, ?_, hgates, hevent⟩ <;> rw [hkept (by simp), State.faultShown]
  · rw [State.groupShows_get _ _ _ _ g.isLt (by simp only [Fld.key, R.ILC_STR_STATUS_FAULT]; omega),
      State.get_set_ne_same _ R.ILC_STR_STATUS_KIND R.ILC_STR_STATUS_FAULT _ _ rfl (by decide), State.get_set_lt _ _ _ _ _ (by decide)]
  · rw [State.groupShows_get _ _ _ _ g.isLt (by simp only [Fld.key, R.ILC_STR_STATUS_KIND]; omega)]
    exact State.get_set_lt _ _ _ _ _ kind.isLt
  · exact hstring.trans (Nat.mod_eq_of_lt (by omega))
  · exact hkind.trans (Nat.mod_eq_of_lt kind.isLt)
  · exact hwpi
  · exact hnew

theorem stringChannels : Stated.StringChannels := by
  refine ⟨fun c cur mv s y rest h => ?_, fun c s n e hline hlit hgood => ?_, fun c g kind n s hg => State.stringFault_shows hg kind n,
    fun w c v s hr hfault => ?_, fun g s n ss ee l ls hline hcom hlights hst hdue => ?_⟩
  · intro short isOpen isShort seen
    have hrun (o d : Nat) (ho : o = if isOpen then (s.chan c).opens + 1 else 0) (hd : d = if isShort then (s.chan c).shorts + 1 else 0) :
        exec (.stringObservation c cur mv) s = .next (if 4 ≤ o then (seen o d).stringFault c 1 y.line else
          if 4 ≤ d then (seen o d).stringFault c 2 y.line else seen o d) := stringObservation_ends h ho hd
    refine ⟨fun ho hs => ?_, fun ho hlt => ?_, fun ho hge => ?_, fun hs hlt => ?_, fun hs hge => ?_⟩
    · exact hrun 0 0 (if_neg ho).symm (if_neg hs).symm
    · have hns : ¬ isShort := fun hs => hs.1 ho
      rw [hrun _ 0 (if_pos ho).symm (if_neg hns).symm, if_neg (by omega)]
      rfl
    · have hns : ¬ isShort := fun hs => hs.1 ho
      rw [hrun _ 0 (if_pos ho).symm (if_neg hns).symm, if_pos hge]
    · rw [hrun 0 _ (if_neg hs.1).symm (if_pos hs).symm, if_neg (by omega), if_neg (by omega)]
    · rw [hrun 0 _ (if_neg hs.1).symm (if_pos hs).symm, if_neg (by omega), if_pos hge]
  · change execStringOvercurrent c s = _
    rw [execStringOvercurrent, hline]
    refine congrArg Host.Outcome.next (if_pos ⟨?_, by simp [hgood]⟩)
    obtain h | h | h := hlit <;> simp [h]
  · intro t
    refine congrArg Host.Outcome.next ((State.rowWrite_taken hr _ _).trans (if_pos hfault))
  · intro w stop hfits
    change execDiagPulse g s = _
    rw [execDiagPulse, hline, hcom]
    have hruns : s.diagRuns g = true := by
      obtain h | h := hst <;> simp [State.diagRuns, h]
    exact if_pos ⟨hlights, hruns, hdue, hfits⟩

/-! ### The light of a line -/

/-- A string's registers and its channel for a line. -/
def State.lit (s : State) (c b comp mode since : Nat) (y : Chan) : State :=
  ((((s.set R.ILC_STR_APPLIED_B b c).set R.ILC_STR_APPLIED_COMP comp c).set R.ILC_STR_STATUS_MODE mode c).setSat R.ILC_STR_STATUS_SINCE since c).setChan c y

theorem State.lit_shows (s : State) (c b comp mode since : Nat) (y : Chan) : let t := s.lit c b comp mode since y
    t.get R.ILC_STR_APPLIED_B c = b % 65536 ∧ t.get R.ILC_STR_APPLIED_COMP c = comp % 65536 ∧ t.get R.ILC_STR_STATUS_MODE c = mode % 4 ∧
      t.chan c = y ∧ t.out = s.out := by
  intro t
  have hlater {f : Fld} {u : State} {v : Nat} (hs : f.s1 = 0x10) (h : f.key 0 0 ≠ R.ILC_STR_STATUS_SINCE.key 0 0) :
      ((u.setSat R.ILC_STR_STATUS_SINCE v c).setChan c y).get f c = u.get f c := State.get_set_ne_same _ R.ILC_STR_STATUS_SINCE f _ _ hs h
  refine ⟨?_, ?_, ?_, State.setChan_chan .., rfl⟩
  · exact (hlater rfl (by decide)).trans ((State.get_set_ne_same _ R.ILC_STR_STATUS_MODE R.ILC_STR_APPLIED_B _ _ rfl (by decide)).trans
      ((State.get_set_ne_same _ R.ILC_STR_APPLIED_COMP R.ILC_STR_APPLIED_B _ _ rfl (by decide)).trans (State.get_set_self ..)))
  · exact (hlater rfl (by decide)).trans ((State.get_set_ne_same _ R.ILC_STR_STATUS_MODE R.ILC_STR_APPLIED_COMP _ _ rfl (by decide)).trans
      (State.get_set_self ..))
  · exact (hlater rfl (by decide)).trans (State.get_set_self ..)

/-- Light leaves the registers below those of the strings' states, and the strings' settings. -/
theorem State.lit_get (s : State) (c b comp mode since : Nat) (y : Chan) {f : Fld} {i j : Nat}
    (h : f.key i j < 0x1E01000 * 32 ∨ f.base = 0x1E01000 ∧ f.s1 = 0x10 ∧ f.lo < 32 ∧ i = c ∧ j = 0) :
    (s.lit c b comp mode since y).get f i j = s.get f i j := by
  have hne : ∀ g ∈ [R.ILC_STR_APPLIED_B, R.ILC_STR_APPLIED_COMP, R.ILC_STR_STATUS_MODE, R.ILC_STR_STATUS_SINCE], f.key i j ≠ g.key c 0 := by
    obtain h | ⟨hb, hs, hlo, rfl, rfl⟩ := h
    · simp only [List.forall_mem_cons, Fld.key, R.ILC_STR_APPLIED_B, R.ILC_STR_APPLIED_COMP, R.ILC_STR_STATUS_MODE, R.ILC_STR_STATUS_SINCE] at h ⊢
      exact ⟨by omega, by omega, by omega, by omega, by simp⟩
    · simp only [List.forall_mem_cons, Fld.key, R.ILC_STR_APPLIED_B, R.ILC_STR_APPLIED_COMP, R.ILC_STR_STATUS_MODE, R.ILC_STR_STATUS_SINCE, hb, hs]
      exact ⟨by omega, by omega, by omega, by omega, by simp⟩
  simp only [List.forall_mem_cons] at hne
  obtain ⟨hb, hcomp, hmode, hsince, -⟩ := hne
  rw [State.lit, State.setChan_get, State.get_setSat_ne _ _ _ _ _ _ _ _ hsince, State.get_set_ne _ _ _ _ _ _ _ _ hmode,
    State.get_set_ne _ _ _ _ _ _ _ _ hcomp, State.get_set_ne _ _ _ _ _ _ _ _ hb]

/-- A gate that goes high: what is sent, with the registers and the compensation kept. -/
theorem State.gateOn_emits {s : State} (hheld : s.held = false) (hlatch : s.dev ≠ Dev.thermalLatch) (c : Nat) (e : Int × Int) (level n : Nat) :
    let g := s.get R.ILC_STR_CFG_GROUP c
    (s.gateOn c e level n).regs = s.regs ∧ ((s.gateOn c e level n).chan c).formed = (s.chan c).formed ∧
    (s.gateOn c e level n).out = s.out ++ [.gate c e.1 e.2 level [s.get R.ILC_GRP_SW_FSW g, s.get R.ILC_GRP_SW_DITH g, s.get R.ILC_GRP_SW_DRATE g, c % 12]] := by
  intro g
  have hloud : s.silent (.gate c e.1 e.2 level [s.get R.ILC_GRP_SW_FSW g, s.get R.ILC_GRP_SW_DITH g, s.get R.ILC_GRP_SW_DRATE g, c % 12]) = false := by
    have hdev : ¬ s.get R.SMC_DEV_STATE_STATE ≤ Dev.reset := of_decide_eq_false hheld
    have hnot : s.get R.SMC_DEV_STATE_STATE ≠ Dev.thermalLatch := hlatch
    simp [State.silent, hdev, hnot]
  unfold State.gateOn
  dsimp only
  rw [if_neg hlatch]
  refine ⟨by simp, ?_, ?_⟩
  · rw [State.setChan_chan, State.chan, State.emit_ilc]
    rfl
  · rw [State.setChan_out, State.emit, if_neg (by rw [hloud]; decide)]

/-- The compensation in force for a string. -/
def State.stringComp (s : State) (c : Nat) : Nat := (s.chan c).formed.getD (s.get R.ILC_STR_APPLIED_COMP c)

/-- A string is dark for line `n`: off, at fault or forced off. -/
def State.stringDark (s : State) (g c n : Nat) : Bool :=
  !s.on R.ILC_STR_CFG_EN c || s.on R.ILC_STR_STATUS_FAULT c || offFor n (s.grp g).offs

/-- The brightness of a string for line `n`. -/
def State.brightness (s : State) (g c n : Nat) : Nat :=
  if s.stringDark g c n then 0
  else min 0x8000 (roundDiv (s.patternOf g c (useFor n (s.grp g).uses) n * (useFor n (s.grp g).uses).factor n * s.stringComp c) (2 ^ 30))

/-- The time of full drive that gives brightness `b`, in multiples of 32 units. -/
def pulseTime (b : Nat) (ss ee : Int) : Nat := roundDiv (8 * b * (ee - ss).toNat) (32768 * 32)

/-- Where that time begins. -/
def pulseStart (b : Nat) (ss ee : Int) : Int := ss + 32 * roundDivI (((ee - ss).toNat : Int) - 32 * pulseTime b ss ee) 64

/-- A string is driven by its set point. -/
def analogueFor (b : Nat) (ss ee : Int) : Bool := decide (0x1000 ≤ b ∧ 0 < (ee - ss).toNat)

/-- A string is driven in full for a time. -/
def State.pulsedFor (s : State) (g b : Nat) (ss ee : Int) : Bool :=
  decide (0 < b ∧ b < 0x1000 ∧ s.get R.ILC_GRP_DIAG_MINON g ≤ pulseTime b ss ee ∧ 0 < pulseTime b ss ee)

/-- MODE of a string for a line. -/
def State.modeFor (s : State) (g c b : Nat) (ss ee : Int) : Nat :=
  if s.on R.ILC_STR_STATUS_FAULT c then 3 else if analogueFor b ss ee then 1 else if s.pulsedFor g b ss ee then 2 else 0

/-- The compensation formed for the next line. -/
def State.nextComp (s : State) (g c : Nat) : Nat :=
  let comp := s.stringComp c
  let target := s.compTarget g (s.get R.ILC_STR_CFG_COLOUR c)
  if comp < target then comp + 1 else if target < comp then comp - 1 else comp

/-- A string's registers and channel for a line, before its gate. -/
def State.litFor (s : State) (g c n : Nat) (t ss ee : Int) : State :=
  s.lit c (s.brightness g c n) (s.stringComp c) (s.modeFor g c (s.brightness g c n) ss ee) (s.get R.ILC_STR_STATUS_SINCE c + 1)
    { s.chan c with gates := (s.chan c).gates.filter fun x => decide (tickOf (5 * t) < x.fall), formed := some (s.nextComp g c) }

theorem State.lightString_eq (s : State) (g c n : Nat) (t ss ee : Int) : s.lightString g c n t ss ee =
    let u := s.litFor g c n t ss ee
    let b := s.brightness g c n
    if analogueFor b ss ee then u.gateOn c (u.gateEdges g ss ee) (roundDiv (b * 4095) 32768) n
    else if s.pulsedFor g b ss ee then u.gateOn c (u.gateEdges g (pulseStart b ss ee) (pulseStart b ss ee + 32 * pulseTime b ss ee)) 512 n
    else u := rfl

section
variable {s : State} {g : Fin 8} {c : Fin 96} (n : Nat) (t ss ee : Int)

theorem State.litFor_dev : (s.litFor g c n t ss ee).dev = s.dev :=
  s.lit_get _ _ _ _ _ _ (.inl (by decide))

theorem State.litFor_held : (s.litFor g c n t ss ee).held = s.held := by rw [State.held, State.litFor_dev, State.held]

/-- The settings of a group and of a string are as they were. -/
theorem State.litFor_settings : let u := s.litFor g c n t ss ee
    u.get R.ILC_STR_CFG_GROUP c = s.get R.ILC_STR_CFG_GROUP c ∧ ∀ f : Fld, f.s1 = 0x40 → f.base ≤ 0x1E00110 → f.lo < 32 → u.get f g = s.get f g := by
  intro u
  refine ⟨s.lit_get _ _ _ _ _ _ (.inr ⟨rfl, rfl, by decide, rfl, rfl⟩), fun f hs hb hlo => s.lit_get _ _ _ _ _ _ (.inl ?_)⟩
  simp only [Fld.key, hs]
  omega

/-- The edges and the switching of the gates of a lit string. -/
theorem State.litFor_gate (hg : s.get R.ILC_STR_CFG_GROUP c = g) (hheld : s.held = false) (hlatch : s.dev ≠ Dev.thermalLatch) (ta tb : Int) (level : Nat) :
    let u := s.litFor g c n t ss ee
    let v := u.gateOn c (u.gateEdges g ta tb) level n
    v.regs = u.regs ∧ (v.chan c).formed = (u.chan c).formed ∧ v.out = s.out ++ [.gate c (tickOf (5 * ta - 64 * (s.get R.ILC_GRP_TIMING_ONDLY g : Int)))
      (tickOf (5 * tb - 64 * (s.get R.ILC_GRP_TIMING_OFFDLY g : Int))) level
      [s.get R.ILC_GRP_SW_FSW g, s.get R.ILC_GRP_SW_DITH g, s.get R.ILC_GRP_SW_DRATE g, c.val % 12]] := by
  intro u v
  obtain ⟨hgroup, hset⟩ := State.litFor_settings (s := s) (g := g) (c := c) n t ss ee
  obtain ⟨hregs, hformed, hout⟩ := State.gateOn_emits (s := u) (by rw [State.litFor_held, hheld]) (by rw [State.litFor_dev]; exact hlatch) c
    (u.gateEdges g ta tb) level n
  refine ⟨hregs, hformed, ?_⟩
  rw [hgroup, hg, hset _ rfl (by decide) (by decide), hset _ rfl (by decide) (by decide), hset _ rfl (by decide) (by decide)] at hout
  rw [hout, State.gateEdges, hset _ rfl (by decide) (by decide), hset _ rfl (by decide) (by decide)]
  rfl

/-- What the registers show for a line, and the compensation formed. -/
theorem State.lightString_shows (hheld : s.held = false) (hlatch : s.dev ≠ Dev.thermalLatch) : let u := s.lightString g c n t ss ee
    let b := s.brightness g c n
    u.get R.ILC_STR_APPLIED_B c = b % 65536 ∧ u.get R.ILC_STR_APPLIED_COMP c = s.stringComp c % 65536 ∧
      u.get R.ILC_STR_STATUS_MODE c = s.modeFor g c b ss ee % 4 ∧ (u.chan c).formed = some (s.nextComp g c) := by
  intro u b
  have hfrom : u.regs = (s.litFor g c n t ss ee).regs ∧ (u.chan c).formed = ((s.litFor g c n t ss ee).chan c).formed := by
    have hgate (e : Int × Int) (level : Nat) := State.gateOn_emits (s := s.litFor g c n t ss ee) (by rw [State.litFor_held, hheld])
      (by rw [State.litFor_dev]; exact hlatch) c e level n
    rw [show u = _ from s.lightString_eq g c n t ss ee]
    dsimp only
    split
    · exact ⟨(hgate _ _).1, (hgate _ _).2.1⟩
    · split
      · exact ⟨(hgate _ _).1, (hgate _ _).2.1⟩
      · exact ⟨rfl, rfl⟩
  obtain ⟨hregs, hformed⟩ := hfrom
  obtain ⟨hb, hcomp, hmode, hchan, -⟩ := s.lit_shows c b (s.stringComp c) (s.modeFor g c b ss ee) (s.get R.ILC_STR_STATUS_SINCE c + 1)
    { s.chan c with gates := (s.chan c).gates.filter fun x => decide (tickOf (5 * t) < x.fall), formed := some (s.nextComp g c) }
  exact ⟨(State.get_congr hregs _ _ _).trans hb, (State.get_congr hregs _ _ _).trans hcomp, (State.get_congr hregs _ _ _).trans hmode,
    hformed.trans (congrArg Chan.formed hchan)⟩

end

theorem lighting : Stated.Lighting := by
  intro g c n t ss ee s hg hheld hlatch comp k off b u sw ton ta edge on off'
  obtain ⟨hb, hcomp, hmode, hformed⟩ := State.lightString_shows (g := g) (c := c) n t ss ee hheld hlatch
  have hdark : s.stringDark g c n = true ↔ off := by
    simp only [State.stringDark, Bool.or_eq_true, Bool.not_eq_true', off]
    grind
  have hlit (hoff : ¬ off) : s.brightness g c n = b := if_neg fun h => hoff (hdark.1 h)
  have hgood (hoff : ¬ off) : s.on R.ILC_STR_STATUS_FAULT c = false := 
    Bool.of_not_eq_true fun h => hoff (.inr (.inl h))
  have hb8 : b ≤ 0x8000 := Nat.min_le_left _ _
  have hgates := State.litFor_gate (s := s) (g := g) (c := c) n t ss ee hg hheld hlatch
  refine ⟨hcomp, fun hoff => ?_, fun hoff => ?_, fun hoff hhigh hopen => ?_, fun hoff hpos hlow hmin hton => ?_, ⟨_, hformed, ?_⟩⟩
  · have hzero : s.brightness g c n = 0 := if_pos (hdark.2 hoff)
    refine ⟨by rw [hb, hzero], ?_⟩
    have hdone : u = s.litFor g c n t ss ee := by
      rw [show u = _ from s.lightString_eq g c n t ss ee]
      dsimp only
      rw [hzero, if_neg (by simp [analogueFor]), if_neg (by simp [State.pulsedFor])]
    rw [hdone]
    rfl
  · rw [hb, hlit hoff, Nat.mod_eq_of_lt (by omega)]
  · have hana : analogueFor b ss ee = true := decide_eq_true ⟨hhigh, by omega⟩
    refine ⟨?_, ?_⟩
    · rw [hmode, hlit hoff, State.modeFor, hgood hoff, hana]
      rfl
    · have hdone := s.lightString_eq g c n t ss ee
      dsimp only at hdone
      rw [hlit hoff, if_pos hana] at hdone
      rw [show u = _ from hdone]
      exact (hgates ss ee _).2.2
  · have hana : analogueFor b ss ee = false := decide_eq_false fun h => absurd h.1 (by omega)
    have hpulse : s.pulsedFor g b ss ee = true := decide_eq_true ⟨hpos, hlow, hmin, hton⟩
    refine ⟨?_, ?_⟩
    · rw [hmode, hlit hoff, State.modeFor, hgood hoff, hana, hpulse]
      rfl
    · have hdone := s.lightString_eq g c n t ss ee
      dsimp only at hdone
      rw [hlit hoff, if_neg (by rw [hana]; decide), if_pos hpulse] at hdone
      rw [show u = _ from hdone]
      exact (hgates ta (ta + 32 * ton) 512).2.2
  · intro target
    have hnext : s.nextComp g c = if comp < target then comp + 1 else if target < comp then comp - 1 else comp := rfl
    rw [hnext]
    exact ⟨fun h => if_pos h, fun h => by rw [if_neg (by omega), if_pos h], fun h => by rw [if_neg (by omega), if_neg (by omega)]⟩

/-- Settles O41: observations and faults by the counts they leave, light by the brightness and its drive. -/
theorem strings : Obligations.Strings := ⟨stringChannels, lighting⟩

end Sys2Proof.Machine
end

section
/-! PROOFS. Lamp groups: pattern banks, swaps, force-off and compensation (R420 to R427). -/

open Sys2Proof Sys2Proof.Stated

namespace Sys2Proof.Machine

theorem patternWindowWrite_taken {w : World} {j : Fin 16} {o : Fin 12288} {v : BitVec 32} {s : State}
    (hr : ReachesAt s w (0x3900000 + 0xC000 * j.val + 4 * o.val)) (hactive : s.get R.ILC_GRP_BANK_ACTIVE (j.val / 2) ≠ j % 2)
    (hheld : s.on R.ILC_GRP_BANK_HELD (j.val / 2) = false) :
    exec (.patternWindowWrite w j o v) s =
      .next (s.putLeaf (0x3900000 + 0xC000 * j.val + 4 * o.val) (leBytes 4 v.toNat)) := by
  change execPatternWindowWrite w j o v s = _
  rw [execPatternWindowWrite, State.windowWrite_of_reaches hr]
  simp [hactive, hheld, State.putLeaf]

theorem patternWindowWrite_inUse {w : World} {j : Fin 16} {o : Fin 12288} {v : BitVec 32} {s : State}
    (hr : ReachesAt s w (0x3900000 + 0xC000 * j.val + 4 * o.val))
    (huse : s.get R.ILC_GRP_BANK_ACTIVE (j.val / 2) = j % 2 ∨ s.on R.ILC_GRP_BANK_HELD (j.val / 2) = true) :
    exec (.patternWindowWrite w j o v) s = .next ((((s.countRefused w .busy).set R.ILC_STATUS_LAST_STATUS 6).add
      R.ILC_REFUSED_COUNT 1).raise (1376 + j.val / 2)) := by
  change execPatternWindowWrite w j o v s = _
  have hbusy : (decide (s.get R.ILC_GRP_BANK_ACTIVE (j.val / 2) = j.val % 2) || s.on R.ILC_GRP_BANK_HELD (j.val / 2)) = true := by
    simpa using huse
  rw [execPatternWindowWrite, State.windowWrite_of_reaches hr]
  simp only [hbusy]
  rfl

theorem patternSwapRequest_go {w : World} {g : Fin 8} {v : BitVec 32} {s : State} (hr : Reaches s w .ILC_GRP_BANK g 0) {next h : Nat}
    (hnext : next = if s.stBusy (s.grpStation g) then s.firstFree (s.grpStation g) else s.w0 (s.grpStation g))
    (hh : h = if s.get R.ILC_GRP_SWAP_H g = 0 then nextBandStart next (s.bandExp (s.grpStation g)) else s.get R.ILC_GRP_SWAP_H g)
    (hgo : R.ILC_GRP_BANK_GO.of v.toNat = 1) (hlen : R.ILC_GRP_BANK_RLEN.of v.toNat ≤ 20)
    (hstart : isBandStart h (s.bandExp (s.grpStation g)) = true) (hpast : s.stBusy (s.grpStation g) = true → next ≤ h)
    (hheld : s.on R.ILC_GRP_BANK_HELD g = false) :
    exec (.patternSwapRequest w g v) s = .next ((wrote s w .ILC_GRP_BANK g 0 v.toNat).pendBank g h) := by
  change execPatternSwapRequest w g v s = _
  have hlate : (s.stBusy (s.grpStation g) && decide (h < next)) = false := by
    cases hb : s.stBusy (s.grpStation g)
    · rfl
    · simpa using hpast hb
  simp only [execPatternSwapRequest, ← hnext, ← hh, hstart, hlate, hheld, hgo, Nat.not_lt.mpr hlen, decide_true, decide_false, Bool.not_true,
    Bool.or_self, Bool.and_false, refuseIf_false]
  exact congrArg Host.Outcome.next (State.rowWrite_taken hr _ _)

theorem forceOffWrite_taken {w : World} {g : Fin 8} {v : BitVec 32} {s : State} (hr : Reaches s w .ILC_GRP_CTRL g 0)
    (hkept : s.changes [R.ILC_GRP_CTRL_EN, R.ILC_GRP_CTRL_STATION, R.ILC_GRP_CTRL_MODE, R.ILC_GRP_CTRL_LEN_LOG, R.ILC_GRP_CTRL_STEP] g 0
      v.toNat = false) (hlen : R.ILC_GRP_CTRL_LEN_LOG.of v.toNat ≤ 8)
    (hnew : s.on R.ILC_GRP_CTRL_FORCE_OFF g ≠ decide (R.ILC_GRP_CTRL_FORCE_OFF.of v.toNat = 1)) {u : State}
    (hu : (wrote s w .ILC_GRP_CTRL g 0 v.toNat).forceOff g (decide (R.ILC_GRP_CTRL_FORCE_OFF.of v.toNat = 1)) = u) :
    exec (.forceOffWrite w g v) s = .next (if u.on R.ILC_GRP_CTRL_EN g then u else u.gatesLow (u.channelsOf g)) := by
  change execForceOffWrite w g v s = _
  subst hu
  simp only [execForceOffWrite, hkept, Nat.not_lt.mpr hlen, decide_false, Bool.false_and, refuseIf_false, if_neg hnew.symm]
  exact congrArg Host.Outcome.next (State.rowWrite_taken hr _ _)

theorem State.forceOff_later {s : State} {g : Nat} (b : Bool) (hbusy : s.stBusy (s.grpStation g) = true)
    (hever : (s.lst (s.grpStation g)).everCommitted = true) :
    s.forceOff g b = s.setGrp g { s.grp g with
      offs := ((nextBandStart (s.firstFree (s.grpStation g)) (s.bandExp (s.grpStation g)), b) ::
        (s.grp g).offs.filter fun p => p.1 < nextBandStart (s.firstFree (s.grpStation g)) (s.bandExp (s.grpStation g))).take 8 } := by
  simp only [State.forceOff, hbusy, hever, and_self, if_true]

theorem State.forceOff_atOnce {s : State} {g : Nat} (b : Bool)
    (h : s.stBusy (s.grpStation g) = false ∨ (s.lst (s.grpStation g)).everCommitted = false) :
    s.forceOff g b = (s.setGrp g { s.grp g with offs := [(0, b)] }).set R.ILC_GRP_CTRL_OFF_NOW (b2n b) g := by
  rw [State.forceOff, if_neg (by rcases h with h | h <;> simp [h])]

theorem ilcTcompEnable_on {w : World} {g : Fin 8} {v : BitVec 32} {s : State} (hr : Reaches s w .ILC_GRP_TCOMP g 0) {t : State}
    (ht : wrote s w .ILC_GRP_TCOMP g 0 v.toNat = t) (hen : R.ILC_GRP_TCOMP_EN.of v.toNat = 1) (hpoints : s.pointsBad g = false) :
    exec (.ilcTcompEnable w g v) s =
      .next (((t.setGrp g { t.grp g with taken := false }).set R.ILC_GRP_TCOMP_HOLD 1 g).raise (1352 + g.val)) := by
  change execIlcTcompEnable w g v s = _
  subst ht
  simp only [execIlcTcompEnable, hen, hpoints, Bool.and_false, refuseIf_false]
  exact congrArg Host.Outcome.next (State.rowWrite_taken hr _ _)

theorem ilcTcompEnable_off {w : World} {g : Fin 8} {v : BitVec 32} {s : State} (hr : Reaches s w .ILC_GRP_TCOMP g 0) {t : State}
    (ht : wrote s w .ILC_GRP_TCOMP g 0 v.toNat = t) (hen : R.ILC_GRP_TCOMP_EN.of v.toNat = 0) :
    exec (.ilcTcompEnable w g v) s = .next ((t.setGrp g { t.grp g with taken := false }).set R.ILC_GRP_TCOMP_HOLD 0 g) := by
  change execIlcTcompEnable w g v s = _
  subst ht
  simp only [execIlcTcompEnable, hen, Nat.zero_ne_one, decide_false, Bool.false_and, refuseIf_false]
  exact congrArg Host.Outcome.next (State.rowWrite_taken hr _ _)

/-- Settles O42: each write of a lamp group by the checks it passes and the effect it then has. -/
theorem lampGroups : Obligations.LampGroups := by
  refine ⟨fun w j o v s => ?_, fun w g v s hr => ?_, fun w g v s hr hkept hlen => ?_, fun w g v s hr => ?_⟩
  · intro a g hr
    refine ⟨fun hactive hheld => ?_, patternWindowWrite_inUse hr⟩
    exact ⟨_, patternWindowWrite_taken hr hactive hheld, State.putLeaf_word s a v.toNat⟩
  · intro n free next h hgo hlen hstart hpast hheld
    exact patternSwapRequest_go hr rfl rfl hgo hlen hstart hpast hheld
  · intro b hnew t n h dark
    exact ⟨fun hbusy hever => forceOffWrite_taken hr hkept hlen hnew (State.forceOff_later b hbusy hever),
      fun hdark => forceOffWrite_taken hr hkept hlen hnew (State.forceOff_atOnce b hdark)⟩
  · exact ⟨ilcTcompEnable_on hr rfl, ilcTcompEnable_off hr rfl⟩

end Sys2Proof.Machine
end

section
/-! PROOFS. Axes as time goes on (R462 to R466, R471 to R474). -/

open Sys2Proof Sys2Proof.Stated

namespace Sys2Proof.Machine

/-! ### Profiles in a cycle -/

@[simp] theorem State.raise_axis (s : State) (n a : Nat) : (s.raise n).axis a = s.axis a := by simp [State.axis]

/-- Where a move ends the profile only takes a new goal. -/
theorem State.goalMet_prof (s : State) (a : Nat) :
    ((s.goalMet a).axis a).prof.p = (s.axis a).prof.p ∧ ((s.goalMet a).axis a).prof.v = (s.axis a).prof.v := by
  rw [State.goalMet]
  split
  · exact ⟨rfl, rfl⟩
  · split <;> simp [State.moveEnd]

theorem State.cycleAxis_prof {s : State} {a : Nat} (hlin : (s.axis a).inLin = false) (hready : s.axReady a = true) :
    let p := (s.axis a).prof.cycle (s.velLimit a) (s.accLimit a) (s.jerkLimit a)
    ((s.cycleAxis a).axis a).prof.p = p.p ∧ ((s.cycleAxis a).axis a).prof.v = p.v := by
  intro p
  have h := State.goalMet_prof (s.setAxis a { s.axis a with prof := p }) a
  rw [State.cycleAxis, if_neg (by simp [hlin, hready]), State.syncPos]
  rw [State.setAxis_axis] at h
  exact h

theorem State.cycleStart_axis (s : State) (a : Nat) :
    (s.cycleStart a).axis a = { s.axis a with ended := false, startV := (s.axis a).prof.v,
                                              stallRun := if (s.axis a).missed = 0 then (s.axis a).stallRun else 0 } := by
  simp only [State.cycleStart]
  split <;> simp

theorem State.cycleStart_raises {s : State} {a : Nat} (ha : a < 4) (h : (s.axis a).ended = true) :
    bit ((s.cycleStart a).get R.HIF_EVT_PEND_PEND 44) (20 + a) = true := by
  rw [State.cycleStart, if_pos h]
  have := State.bit_raise_self (s.setAxis a { s.axis a with ended := false, startV := (s.axis a).prof.v, stallRun := if (s.axis a).missed = 0 then (s.axis a).stallRun else 0 }) (n := evMoveDone a) (by rw [evMoveDone]; omega)
  rwa [show evMoveDone a / 32 = 44 by rw [evMoveDone]; omega, show evMoveDone a % 32 = 20 + a by rw [evMoveDone]; omega] at this

theorem State.cycleStart_regs {s : State} {a : Nat} (h : (s.axis a).ended = false) : (s.cycleStart a).regs = s.regs := by
  rw [State.cycleStart, if_neg (by simp [h])]
  rfl

/-! ### Driver frames -/

theorem driverStatusRx_eq {a : Fin 4} {f : BitVec 80} {s : State} (hen : s.on R.TTC_AX_CTRL_EN a = true) :
    exec (.driverStatusRx a f) s = if bits f.toNat 0 8 = 0x5A ∧ bits f.toNat 72 8 = crc8 f.toNat then .next (s.goodStatus a f.toNat)
      else .next ((s.addSat R.TTC_AX_DRV_BADFR 1 a).setAxis a { s.axis a with goodRun := 0 }) := by
  change execDriverStatusRx a f s = _
  rw [execDriverStatusRx]
  exact if_neg (by simp [hen])

/-! ### Settle -/

theorem axisSettleDone_eq {a : Fin 4} {t : Int} {s : State} {ct : Int} {n : Nat} (hsettle : (s.axis a).settling = true)
    (hback : (s.axis a).back = some ct) (hpacer : s.pacer a = some n) :
    let u := s.setAxis a { s.axis a with settling := false, back := none }
    let v := u.set R.TTC_AX_STATUS_INPOS 1 a
    exec (.axisSettleDone a t) s = if (ct - s.posOf n t).natAbs ≤ 65536 * s.get R.TTC_AX_CTRL_TOL a then
      .next (if s.stState n = St.rewinding ∧ s.get R.SST_ST_REW_STATUS_PHASE n = 2 then v.rewindArm n t else v)
    else if (s.axis a).tries = 0 then .next (u.backUp a ct (s.posOf n t) 1) else .next (u.faultAxis a 4) := by
  change execAxisSettleDone a t s = _
  simp only [execAxisSettleDone, hsettle, hback, hpacer]

theorem axisHoldTimeout_still {a : Fin 4} {s : State} (hready : s.axReady a = true) (hv : (s.axis a).prof.v = 0)
    (ha : (s.axis a).prof.a = 0) : exec (.axisHoldTimeout a) s = .next (s.holdCoil a (s.get R.TTC_AX_CTRL_HOLD_MODE a)) := by
  change execAxisHoldTimeout a s = _
  rw [execAxisHoldTimeout]
  exact congrArg Host.Outcome.next (if_pos ⟨hready, by simp [State.axStandstill, hv, ha]⟩)

/-! ### Faults of an axis -/

theorem State.holdCoil_axis (s : State) (a mode : Nat) :
    ((s.holdCoil a mode).axis a).prof = (s.axis a).prof ∧ ((s.holdCoil a mode).axis a).holding = true := by
  simp only [State.holdCoil]
  generalize (if s.on R.TTC_AX_STATUS_PACED a = true ∧ 2 ≤ mode then 0 else mode) = m
  split
  · simp
  · split <;> simp

theorem State.holdCoil_out (s : State) (a mode : Nat) : (s.holdCoil a mode).out = s.out := by
  simp only [State.holdCoil]
  generalize (if s.on R.TTC_AX_STATUS_PACED a = true ∧ 2 ≤ mode then 0 else mode) = m
  split
  · simp
  · split <;> simp

/-- An axis in no linear move only gives up the moves that are due. -/
theorem State.stopLin_single {s : State} {a : Nat} (h : (s.axis a).inLin = false) :
    s.stopLin a = if s.ttc.due.any fun e => e.1 = a then { s with ttc := { s.ttc with due := [] } } else s := by
  simp only [State.stopLin]
  generalize hu : (if (s.ttc.due.any fun e => e.1 = a) = true then ({ s with ttc := { s.ttc with due := [] } } : State) else s) = u
  have hin : (u.axis a).inLin = false := by rw [← hu]; split <;> exact h
  simp only [hin]
  split <;> rfl

theorem State.stopLin_single_out {s : State} {a : Nat} (h : (s.axis a).inLin = false) : (s.stopLin a).out = s.out := by
  rw [State.stopLin_single h]
  split <;> rfl

/-- Fields of an axis that stand apart in their word keep what the others do not write. -/
theorem axisStatus_apart (a : Nat) :
    R.TTC_AX_STATUS_STATE.key a 0 ≠ R.TTC_AX_STATUS_FAULT.key a 0 ∧ R.TTC_AX_STATUS_STATE.key a 0 ≠ R.TTC_AX_STATUS_KIND.key a 0 ∧
      R.TTC_AX_STATUS_FAULT.key a 0 ≠ R.TTC_AX_STATUS_KIND.key a 0 := by
  simp only [Fld.key, R.TTC_AX_STATUS_STATE, R.TTC_AX_STATUS_FAULT, R.TTC_AX_STATUS_KIND]
  omega

/-- The status word of an axis in FAULT. -/
def State.faultWord (z : State) (a kind : Nat) : State :=
  ((z.set R.TTC_AX_STATUS_STATE Ax.fault a).set R.TTC_AX_STATUS_FAULT 1 a).set R.TTC_AX_STATUS_KIND kind a

theorem State.faultWord_get (z : State) (a kind : Nat) :
    (z.faultWord a kind).get R.TTC_AX_STATUS_STATE a = Ax.fault ∧ (z.faultWord a kind).get R.TTC_AX_STATUS_FAULT a = 1 ∧
      (z.faultWord a kind).get R.TTC_AX_STATUS_KIND a = kind % 8 := by
  obtain ⟨hsf, hsk, hfk⟩ := axisStatus_apart a
  refine ⟨?_, ?_, State.get_set_self ..⟩ <;> rw [State.faultWord, State.get_set_ne _ _ _ _ _ _ _ _ (by assumption)]
  · rw [State.get_set_ne _ _ _ _ _ _ _ _ hsf]
    exact State.get_set_self ..
  · exact State.get_set_self ..

/-- The axis as a fault leaves it, its status word and event apart. -/
def State.faultRest (s : State) (a : Nat) : State :=
  ((s.stopLin a).setAxis a { (s.stopLin a).axis a with
    prof := { ((s.stopLin a).axis a).prof with v := 0, a := 0, goal := .rest }, back := none, settling := false, scaleOne := false,
    stallRun := 0, ended := false }).holdCoil a (s.get R.TTC_AX_CTRL_FAULT_MODE a)

theorem State.axisFault_eq (s : State) (a kind : Nat) :
    s.axisFault a kind = ((s.faultRest a).faultWord a kind).raise (evAxisFault a) := rfl

/-- A fault shows in the status word, rests the profile, holds the coils and raises its event. -/
theorem State.axisFault_status (s : State) {a : Nat} (ha : a < 4) (kind : Nat) :
    (s.axisFault a kind).axState a = Ax.fault ∧ (s.axisFault a kind).get R.TTC_AX_STATUS_FAULT a = 1 ∧
      (s.axisFault a kind).get R.TTC_AX_STATUS_KIND a = kind % 8 := by
  have hget (f : Fld) (h : 0x1E00000 * 32 ≤ f.key a 0) : (s.axisFault a kind).get f a = ((s.faultRest a).faultWord a kind).get f a := by
    rw [State.axisFault_eq]
    exact State.raise_get_above _ (evAxisFault a) (by rw [evAxisFault]; omega) h
  rw [State.axState, hget _ (by simp only [Fld.key, R.TTC_AX_STATUS_STATE]; omega), hget _ (by simp only [Fld.key, R.TTC_AX_STATUS_FAULT]; omega),
    hget _ (by simp only [Fld.key, R.TTC_AX_STATUS_KIND]; omega)]
  exact State.faultWord_get ..

theorem State.axisFault_axis (s : State) (a kind : Nat) :
    ((s.axisFault a kind).axis a).prof.v = 0 ∧ ((s.axisFault a kind).axis a).prof.a = 0 ∧
      ((s.axisFault a kind).axis a).prof.goal = .rest ∧ ((s.axisFault a kind).axis a).holding = true := by
  have haxis : (s.axisFault a kind).axis a = (s.faultRest a).axis a := by
    simp [State.axisFault_eq, State.axis, State.faultWord]
  obtain ⟨hprof, hhold⟩ := State.holdCoil_axis ((s.stopLin a).setAxis a { (s.stopLin a).axis a with
    prof := { ((s.stopLin a).axis a).prof with v := 0, a := 0, goal := .rest }, back := none, settling := false, scaleOne := false,
    stallRun := 0, ended := false }) a (s.get R.TTC_AX_CTRL_FAULT_MODE a)
  rw [haxis, State.faultRest, hprof, hhold, State.setAxis_axis]
  exact ⟨rfl, rfl, rfl, rfl⟩

theorem State.axisFault_raises (s : State) {a : Nat} (ha : a < 4) (kind : Nat) :
    bit ((s.axisFault a kind).get R.HIF_EVT_PEND_PEND 44) (16 + a) = true := by
  have h := State.bit_raise_self ((s.faultRest a).faultWord a kind) (n := evAxisFault a) (by rw [evAxisFault]; omega)
  rwa [show evAxisFault a / 32 = 44 by rw [evAxisFault]; omega, show evAxisFault a % 32 = 16 + a by rw [evAxisFault]; omega] at h

theorem State.axisFault_out {s : State} {a : Nat} (h : (s.axis a).inLin = false) (kind : Nat) : (s.axisFault a kind).out = s.out := by
  rw [State.axisFault_eq, State.raise_out]
  exact (State.holdCoil_out ..).trans (State.stopLin_single_out h)

/-! ### The microstep table -/

theorem microstepTableWrite_eq {w : World} {k : Fin 1024} {v : BitVec 32} {s : State} (hr : ReachesAt s w (0x3B00000 + 4 * k.val)) :
    exec (.microstepTableWrite w k v) s = .next (if axes4.any fun a => s.on R.TTC_AX_CTRL_EN a then
      (s.countRefused w .busy).set R.TTC_STATUS_LAST_STATUS 6 else s.putLeaf (0x3B00000 + 4 * k.val) (leBytes 4 v.toNat)) := by
  change execMicrostepTableWrite w k v s = _
  rw [execMicrostepTableWrite, State.windowWrite_of_reaches hr]
  cases axes4.any fun a => s.on R.TTC_AX_CTRL_EN a <;> rfl

theorem axes4_any (p : Nat → Bool) : axes4.any p = true ↔ ∃ a : Fin 4, p a = true := by
  simp [axes4, Fin.exists_iff]

/-- Settles O47: cycles, frames, settling and faults, each by its own rule; the table by whether an axis is enabled. -/
theorem axisTime : Obligations.AxisTime := by
  refine ⟨fun s => rfl, fun a s => State.cycleAxis_prof, fun a s => ?_, fun a f s hen => ?_, fun a s hen hmissed hstate => ?_,
    fun a t s ct n hsettle hback hpacer => ?_, fun a s => axisHoldTimeout_still, fun a kind s hlin => ?_, fun w k v s => ?_⟩
  · intro t
    rw [State.cycleStart_axis]
    exact ⟨rfl, rfl, rfl, State.cycleStart_raises a.isLt, State.cycleStart_regs⟩
  · intro good
    exact ⟨fun h => (driverStatusRx_eq hen).trans (if_pos h), fun h => (driverStatusRx_eq hen).trans (if_neg h)⟩
  · change execMotionLinkLoss a s = _
    rw [execMotionLinkLoss]
    exact if_pos ⟨hen, hmissed, hstate⟩
  · intro u near
    have h := axisSettleDone_eq (a := a) (t := t) hsettle hback hpacer
    refine ⟨fun hnear hphase => ?_, fun hnear hst hphase => ?_, fun hfar htries => ?_, fun hfar htries => ?_⟩
    · rw [h, if_pos hnear, if_neg hphase]
    · rw [h, if_pos hnear, if_pos ⟨hst, hphase⟩]
    · rw [h, if_neg hfar, if_pos htries]
    · rw [h, if_neg hfar, if_neg htries]
  · intro t
    obtain ⟨hstate, hfault, hkind⟩ := State.axisFault_status s a.isLt kind
    obtain ⟨hv, ha, hgoal, hhold⟩ := State.axisFault_axis s a kind
    refine ⟨hstate, hfault, hkind.trans (Nat.mod_eq_of_lt (by omega)), hv, ha, hgoal, hhold, State.axisFault_raises s a.isLt kind,
      State.axisFault_out hlin kind⟩
  · intro b hr
    refine ⟨fun hoff => ⟨_, ?_, State.putLeaf_word s b v.toNat⟩, fun hon => ?_⟩
    · rw [microstepTableWrite_eq hr, if_neg (by rw [axes4_any]; simpa using hoff)]
    · rw [microstepTableWrite_eq hr, if_pos ((axes4_any _).mpr hon)]

end Sys2Proof.Machine
end

section
/-! PROOFS. PCI Express: resets, the link, unsupported requests and reads of BAR2 (R372 to R374, R548, R554). -/

open Sys2Proof Sys2Proof.Stated

namespace Sys2Proof.Machine

/-- A part of the state that no step of a loop changes. -/
theorem State.each_part {α β : Type} {p : State → β} {g : State → α → State} {xs : List α} (h : ∀ t, ∀ x ∈ xs, p (g t x) = p t) (s : State) :
    p (s.each xs g) = p s := by
  unfold State.each
  induction xs generalizing s with
  | nil => rfl
  | cons x xs ih =>
    obtain ⟨hx, hxs⟩ : (∀ t, p (g t x) = p t) ∧ ∀ t, ∀ y ∈ xs, p (g t y) = p t :=
      ⟨fun t => h t x List.mem_cons_self, fun t y hy => h t y (List.mem_cons_of_mem _ hy)⟩
    rw [List.foldl_cons, ih hxs, hx]

theorem SMap.get_clearRange {α : Type} (m : SMap α) (d : α) {lo hi q : Nat} (h : lo ≤ q ∧ q < hi) : SMap.get (SMap.clearRange m lo hi) d q = d := by
  have hnone : SMap.find? (SMap.clearRange m lo hi) q = none := by
    induction m with
    | nil => rfl
    | cons e m ih =>
      rw [SMap.clearRange, List.filter_cons]
      split
      next hout =>
        have hne : q ≠ e.1 := by simp at hout; omega
        rw [SMap.find?, if_neg hne]
        exact ih
      next => exact ih
  rw [SMap.get, hnone, Option.getD_none]

/-! ### Streams at the loss of the function -/

/-- A stream that stopped with its descriptor not completed. -/
def Broken (s : State) (c : Nat) : Prop :=
  s.get R.HIF_ST_CTRL_EN c = 0 ∧ s.get R.HIF_ST_STATUS_STATE c = 0 ∧ (s.stream c).desc = none

theorem State.breakDma_out (s : State) (c : Nat) : (s.breakDma c).out = s.out := by
  rw [State.breakDma]
  split <;> rfl

theorem stream_apart (c d : Nat) :
    (R.HIF_ST_CTRL_KIND.key c 0 ≠ R.HIF_ST_CTRL_EN.key d 0 ∧ R.HIF_ST_CTRL_KIND.key c 0 ≠ R.HIF_ST_STATUS_STATE.key d 0) ∧
    R.HIF_ST_CTRL_EN.key c 0 ≠ R.HIF_ST_STATUS_STATE.key d 0 ∧
    (c ≠ d → R.HIF_ST_CTRL_EN.key c 0 ≠ R.HIF_ST_CTRL_EN.key d 0 ∧ R.HIF_ST_STATUS_STATE.key c 0 ≠ R.HIF_ST_STATUS_STATE.key d 0) ∧
    R.HIF_ST_STATUS_STATE.key c 0 ≠ R.HIF_ST_CTRL_EN.key d 0 := by
  simp only [Fld.key, R.HIF_ST_CTRL_KIND, R.HIF_ST_CTRL_EN, R.HIF_ST_STATUS_STATE]
  omega

theorem State.breakDma_isDma (s : State) (c d : Nat) : (s.breakDma d).isDma c = s.isDma c := by
  obtain ⟨⟨hen, hstate⟩, _⟩ := stream_apart c d
  rw [State.breakDma]
  split
  · simp only [State.isDma, State.on]
    rw [State.get_set_ne _ _ _ _ _ _ _ _ hstate, State.get_set_ne _ _ _ _ _ _ _ _ hen]
    rfl
  · rfl

theorem State.breakDma_self {s : State} {c : Nat} (h : s.isDma c = true ∧ (s.stOn c = true ∨ Broken s c)) : Broken (s.breakDma c) c := by
  obtain ⟨hdma, hon⟩ := h
  rw [State.breakDma]
  split
  · obtain ⟨_, hes, _⟩ := stream_apart c c
    refine ⟨?_, State.get_set_self .., by simp⟩
    rw [State.get_set_ne _ _ _ _ _ _ _ _ hes]
    exact State.get_set_self ..
  next hoff => exact hon.resolve_left fun h => hoff ⟨hdma, h⟩

/-- The break of another stream leaves this one as it is. -/
theorem State.breakDma_other (s : State) {c d : Nat} (h : d ≠ c) :
    (s.breakDma d).get R.HIF_ST_CTRL_EN c = s.get R.HIF_ST_CTRL_EN c ∧
      (s.breakDma d).get R.HIF_ST_STATUS_STATE c = s.get R.HIF_ST_STATUS_STATE c ∧ (s.breakDma d).stream c = s.stream c := by
  obtain ⟨_, hes, hother, hse⟩ := stream_apart c d
  obtain ⟨hee, hss⟩ := hother h.symm
  rw [State.breakDma]
  split
  · refine ⟨?_, ?_, State.setStream_stream_ne _ _ _ _ h.symm⟩
    · rw [State.get_set_ne _ _ _ _ _ _ _ _ hes, State.get_set_ne _ _ _ _ _ _ _ _ hee]
      rfl
    · rw [State.get_set_ne _ _ _ _ _ _ _ _ hss, State.get_set_ne _ _ _ _ _ _ _ _ hse]
      rfl
  · exact ⟨rfl, rfl, rfl⟩

theorem State.breakDma_keeps_broken {s : State} {c d : Nat} (hd : d ≠ c) (h : Broken s c) : Broken (s.breakDma d) c := by
  obtain ⟨hen, hstate, hstream⟩ := State.breakDma_other s hd
  obtain ⟨h0, h1, h2⟩ := h
  exact ⟨hen.trans h0, hstate.trans h1, hstream ▸ h2⟩

theorem State.breakDma_on_or_broken {s : State} {c d : Nat} (h : s.isDma c = true ∧ (s.stOn c = true ∨ Broken s c)) :
    (s.breakDma d).isDma c = true ∧ ((s.breakDma d).stOn c = true ∨ Broken (s.breakDma d) c) := by
  refine ⟨(State.breakDma_isDma ..).trans h.1, ?_⟩
  by_cases hd : d = c
  · subst hd
    exact .inr (State.breakDma_self h)
  · refine h.2.imp (fun hon => ?_) (State.breakDma_keeps_broken hd)
    rwa [State.stOn, State.on, (State.breakDma_other s hd).1]

theorem State.each_breakDma_broken {s : State} {c : Nat} {xs : List Nat} (hc : c ∈ xs) (hdma : s.isDma c = true) (hon : s.stOn c = true) :
    Broken (s.each xs State.breakDma) c :=
  State.each_reaches (P := fun t => t.isDma c = true ∧ (t.stOn c = true ∨ Broken t c)) (Q := fun t => Broken t c) (g := State.breakDma) hc
    (fun _ _ _ => State.breakDma_on_or_broken) (fun _ => State.breakDma_self) (fun _ _ _ hd => State.breakDma_keeps_broken hd)
    ⟨hdma, .inl hon⟩

theorem State.breakPf0_broken {s : State} {c : Nat} (hc : c < 64) (hdma : s.isDma c = true) (hon : s.stOn c = true) : Broken s.breakPf0 c := by
  have h := State.each_breakDma_broken (List.mem_range.2 hc) hdma hon
  rw [State.breakPf0]
  generalize s.each (List.range 64) State.breakDma = u at h
  exact h

theorem State.breakPf0_out (s : State) : s.breakPf0.out = s.out := by
  have h := State.each_part (p := State.out) (g := State.breakDma) (xs := List.range 64) (fun t c _ => State.breakDma_out t c) s
  rw [State.breakPf0]
  generalize s.each (List.range 64) State.breakDma = u at h
  exact h

theorem State.breakPf0_vectors (s : State) {v : Nat} (hv : v < 256) :
    s.breakPf0.vecUnmasked v = false ∧ SMap.get s.breakPf0.hif.pba false v = false := by
  rw [State.breakPf0]
  generalize s.each (List.range 64) State.breakDma = u
  exact ⟨SMap.get_clearRange _ _ (by omega), SMap.get_clearRange _ _ (by omega)⟩

/-! ### Requests that the device does not serve, and reads of BAR2 -/

theorem bar2Read_eq {a n : Nat} {e : HbmErr} {s : State} (hn : n ≤ 4096) {u v : State}
    (hu : u = if s.smc.hbmRefresh then s.takeFresh.2 else s.windowError e)
    (hv : v = u.emit (.bar2Data a ((List.range n).map fun i => if u.bar2Secure (a + i) then 0 else
      if s.smc.hbmRefresh then Config.freeByte s.takeFresh.1 i % 256 else u.hbmShown (a + i)))) :
    exec (.bar2Read a ⟨n, e⟩) s = match (List.range n).find? fun i => u.bar2Secure (a + i) with
      | some i => .next (v.crossWorld .bar2 false (a + i))
      | none => .next v := by
  subst hv hu
  change execBar2Read a ⟨n, e⟩ s = _
  simp only [execBar2Read, Nat.min_eq_left hn] <;> rfl

theorem range_find_first {n i : Nat} {p : Nat → Bool} (hi : i < n) (hp : p i = true) (hfirst : ∀ j < i, p j = false) :
    (List.range n).find? p = some i := by
  rw [List.find?_range_eq_some]
  exact ⟨hp, List.mem_range.2 hi, fun j hj => by simp [hfirst j hj]⟩

theorem bar0BadAccess_eq (w : World) (a : Nat) (s : State) :
    let f := if w = .secure then 1 else 0
    let u := ((s.addSat R.HIF_PCIE_ERR_BAD 1).raise Ev.pcieBad).emit (.unsupported w a)
    exec (.bar0BadAccess w a) s = .next (if (SMap.get s.hif.aer none f).isSome then u
      else { u with hif := { u.hif with aer := SMap.put u.hif.aer none f (some a) } }) := by
  intro f u
  have haer : u.hif.aer = s.hif.aer := by simp [u, State.addSat, State.setSat]
  rw [← haer]
  rfl

theorem windowRead_none (s : State) (a : Nat) : s.windowError .none = s ∧ (s.overflowAt a = none → s.hbmShown a = s.hbm.byte a) :=
  ⟨rfl, fun h => by rw [State.hbmShown, h]⟩

theorem pf0_resets (s : State) : exec .pf0Flr s = .next s.breakPf0 ∧ exec .pf0D3hotEntry s = .next s.breakPf0 ∧
    exec .pcieLinkLoss s = .next (((s.breakPf0.resetMsix 1).set R.HIF_STATUS_SPEED 0).set R.HIF_STATUS_WIDTH 0) ∧
    exec .perstAssert s = .next (
      let u := ((s.breakPf0.resetMsix 1).set R.HIF_STATUS_SPEED 0).set R.HIF_STATUS_WIDTH 0
      { u with smc := { u.smc with perst := false } }) := ⟨rfl, rfl, rfl, rfl⟩

/-- Settles O39: each command by its own rule; a stream that is broken stays so while the loop goes on to the others. -/
theorem pciExpress : Obligations.PciExpress := by
  refine ⟨pf0_resets, fun c s hc hdma hon => ?_, fun v s hv => ?_, fun s => rfl, fun speed width s hperst hdev => ?_,
    fun w a s => ?_, fun a s => rfl, fun a n e s hn => ?_, windowRead_none⟩
  · obtain ⟨hen, hstate, hdesc⟩ := State.breakPf0_broken hc hdma hon
    exact ⟨hen, hstate, hdesc, State.breakPf0_out s⟩
  · exact State.breakPf0_vectors s hv
  · change execPcieLinkUp speed width s = _
    rw [execPcieLinkUp]
    exact if_pos ⟨hperst, hdev⟩
  · intro f u
    refine ⟨fun hfree => (bar0BadAccess_eq w a s).trans ?_, fun hkept => (bar0BadAccess_eq w a s).trans ?_⟩
    · rw [if_neg (by rw [hfree]; decide)]
    · rw [if_pos (Option.isSome_iff_ne_none.2 hkept)]
  · intro u shown v
    refine ⟨fun hopen => ?_, fun i hi hsec hfirst => ?_⟩
    · have hnone : ((List.range n).find? fun i => u.bar2Secure (a + i)) = none := by simpa using hopen
      rw [bar2Read_eq hn (u := u) (v := v) rfl rfl, hnone]
    · rw [bar2Read_eq hn (u := u) (v := v) rfl rfl, range_find_first hi hsec hfirst]

end Sys2Proof.Machine
end

section
/-! PROOFS. Ethernet ports and PTP (R384, R387 to R391, R565). -/

open Sys2Proof Sys2Proof.Stated

namespace Sys2Proof.Machine

theorem State.raise_get_beyond (s : State) (n : Nat) {f : Fld} {i j : Nat} (hn : n < 1536) (h : 0x1D00308 * 32 ≤ f.key i j) :
    (s.raise n).get f i j = s.get f i j := by
  refine State.raise_get _ _ _ _ _ ?_ ?_ ?_ <;> simp only [Fld.key, R.HIF_EVT_PEND_PEND, R.HIF_EVT_SUM_LO_GROUPS, R.HIF_EVT_SUM_HI_GROUPS] at h ⊢ <;> omega

/-! ### Links -/

theorem State.syncStream_get (s : State) (c : Nat) {f : Fld} {i : Nat} (h : f.key i 0 ≠ R.HIF_ST_STATUS_STATE.key c 0) :
    (s.syncStream c).get f i = s.get f i := by
  rw [State.syncStream]
  split
  · rfl
  · exact State.get_set_ne _ _ _ _ _ _ _ _ h

/-- The streams' states stand below the registers of the Ethernet ports. -/
theorem State.syncPort_get (s : State) (p : Nat) {f : Fld} {i : Nat} (h : 0x1D08000 * 32 ≤ f.key i 0) : (s.syncPort p).get f i = s.get f i := by
  rw [State.syncPort]
  refine State.each_get (fun t c hc => ?_) s
  have hc := List.mem_range.1 hc
  split
  · refine State.syncStream_get _ _ ?_
    simp only [Fld.key, R.HIF_ST_STATUS_STATE] at h ⊢
    omega
  · rfl

theorem ethStatus_keys (p : Nat) :
    0x1D08000 * 32 ≤ R.HIF_ETH_STATUS_LINK.key p 0 ∧ 0x1D08000 * 32 ≤ R.HIF_ETH_STATUS_FEC_LOCK.key p 0 ∧
    (R.HIF_ETH_STATUS_LINK.key p 0 ≠ R.HIF_ETH_STATUS_FEC_LOCK.key p 0 ∧ R.HIF_ETH_STATUS_LINK.key p 0 ≠ R.HIF_ETH_STATUS_CHANGED.key p 0 ∧
      R.HIF_ETH_STATUS_LINK.key p 0 ≠ R.HIF_ETH_STATUS_PAUSED.key p 0 ∧ R.HIF_ETH_STATUS_LINK.key p 0 ≠ R.HIF_ETH_FEC_CORR.key p 0 ∧
      R.HIF_ETH_STATUS_LINK.key p 0 ≠ R.HIF_ETH_FEC_UNCORR.key p 0) ∧
    R.HIF_ETH_STATUS_FEC_LOCK.key p 0 ≠ R.HIF_ETH_STATUS_LINK.key p 0 ∧ R.HIF_ETH_STATUS_FEC_LOCK.key p 0 ≠ R.HIF_ETH_STATUS_CHANGED.key p 0 ∧
      R.HIF_ETH_STATUS_FEC_LOCK.key p 0 ≠ R.HIF_ETH_STATUS_PAUSED.key p 0 := by
  simp only [Fld.key, R.HIF_ETH_STATUS_LINK, R.HIF_ETH_STATUS_FEC_LOCK, R.HIF_ETH_STATUS_CHANGED, R.HIF_ETH_STATUS_PAUSED, R.HIF_ETH_FEC_CORR,
    R.HIF_ETH_FEC_UNCORR]
  omega

theorem State.ethLinkTo_down (s : State) (p : Nat) :
    (s.ethLinkTo p false).get R.HIF_ETH_STATUS_LINK p = 0 ∧
      (s.ethLinkTo p false).get R.HIF_ETH_STATUS_FEC_LOCK p = s.get R.HIF_ETH_STATUS_FEC_LOCK p := by
  obtain ⟨hl, hf, ⟨_, hlc, hlp, _, _⟩, hfl, hfc, hfp⟩ := ethStatus_keys p
  rw [State.ethLinkTo]
  split
  next hoff => exact ⟨by simpa [State.on] using hoff, rfl⟩
  next =>
    simp only [Bool.false_eq_true, if_false]
    rw [State.syncPort_get _ _ hl, State.syncPort_get _ _ hf, State.raise_get_beyond _ _ (by decide) (Nat.le_trans (by decide) hl),
      State.raise_get_beyond _ _ (by decide) (Nat.le_trans (by decide) hf), State.get_set_ne _ _ _ _ _ _ _ _ hlp,
      State.get_set_ne _ _ _ _ _ _ _ _ hlc, State.get_set_ne _ _ _ _ _ _ _ _ hfp, State.get_set_ne _ _ _ _ _ _ _ _ hfc,
      State.get_set_ne _ _ _ _ _ _ _ _ hfl]
    exact ⟨State.get_set_self .., rfl⟩

theorem ethLinkChange_noReference (p : Fin 4) (up fec : Bool) (corr uncorr : Nat) {s : State} (hgone : s.refRuns 5 = false) :
    ∃ u, exec (.ethLinkChange p up fec corr uncorr) s = .next u ∧ u.get R.HIF_ETH_STATUS_LINK p = 0 ∧ u.get R.HIF_ETH_STATUS_FEC_LOCK p = 0 := by
  refine ⟨_, rfl, ?_⟩
  simp only [hgone, Bool.and_false]
  obtain ⟨hlink, hfec⟩ := State.ethLinkTo_down
    (((s.addSat R.HIF_ETH_FEC_CORR corr p).addSat R.HIF_ETH_FEC_UNCORR uncorr p).set R.HIF_ETH_STATUS_FEC_LOCK (b2n false) p) p
  exact ⟨hlink, hfec.trans (State.get_set_self ..)⟩

theorem ethLinkChange_up (p : Fin 4) (fec : Bool) (corr uncorr : Nat) {s : State} (hen : s.on R.HIF_ETH_CTRL_EN p = true)
    (hdown : s.on R.HIF_ETH_STATUS_LINK p = false) (href : s.refRuns 5 = true) :
    let t := ((s.addSat R.HIF_ETH_FEC_CORR corr p).addSat R.HIF_ETH_FEC_UNCORR uncorr p).set R.HIF_ETH_STATUS_FEC_LOCK (b2n fec) p
    exec (.ethLinkChange p true fec corr uncorr) s = .next ((((t.set R.HIF_ETH_STATUS_LINK 1 p).set R.HIF_ETH_STATUS_CHANGED 1 p).raise
      Ev.ethLink).syncPort p) := by
  intro t
  obtain ⟨_, _, ⟨hlf, _, _, hlc, hlu⟩, _⟩ := ethStatus_keys p
  have hlink : t.on R.HIF_ETH_STATUS_LINK p = false := by
    have hget : t.get R.HIF_ETH_STATUS_LINK p = s.get R.HIF_ETH_STATUS_LINK p := by
      simp only [t, State.addSat]
      rw [State.get_set_ne _ _ _ _ _ _ _ _ hlf, State.get_setSat_ne _ _ _ _ _ _ _ _ hlu, State.get_setSat_ne _ _ _ _ _ _ _ _ hlc]
    rwa [State.on, hget]
  change execEthLinkChange p true fec corr uncorr s = _
  simp only [execEthLinkChange, hen, href, Bool.and_self, Bool.and_true]
  change (.next (t.ethLinkTo p true) : Out) = _
  rw [State.ethLinkTo, if_neg (by simp [hlink])]
  rfl

/-! ### Registers of the ports -/

theorem ethPortConfigWrite_free {w : World} {p k : Fin 4} {v : BitVec 32} {s : State} (hr : Reaches s w (ethReg k) p 0)
    (hfree : ((List.range 64).any fun c => s.stOn c && !s.isDma c && decide (s.get R.HIF_ST_CTRL_PORT c = p.val)) = false)
    (hmtu : k.val = 0 → 1500 ≤ R.HIF_ETH_CTRL_MTU.of v.toNat ∧ R.HIF_ETH_CTRL_MTU.of v.toNat ≤ 9170) :
    exec (.ethPortConfigWrite w p k v) s = .next (wrote s w (ethReg k) p 0 v.toNat) := by
  change execEthPortConfigWrite w p k v s = _
  have hlegal : (decide (k.val = 0) && decide (R.HIF_ETH_CTRL_MTU.of v.toNat < 1500 ∨ 9170 < R.HIF_ETH_CTRL_MTU.of v.toNat)) = false := by
    by_cases hk : k.val = 0
    · obtain ⟨hlo, hhi⟩ := hmtu hk
      simp [hlo, hhi]
    · simp [hk]
  simp only [execEthPortConfigWrite, hfree, hlegal, refuseIf_false]
  exact congrArg Host.Outcome.next (State.rowWrite_taken hr _ _)

theorem ethPortConfigWrite_used {w : World} {p k : Fin 4} {v : BitVec 32} {s : State} (hr : Reaches s w (ethReg k) p 0)
    (hused : ((List.range 64).any fun c => s.stOn c && !s.isDma c && decide (s.get R.HIF_ST_CTRL_PORT c = p.val)) = true) :
    exec (.ethPortConfigWrite w p k v) s = .next ((s.countRefused w .state).set R.HIF_STATUS_LAST_STATUS 1) := by
  change execEthPortConfigWrite w p k v s = _
  simp only [execEthPortConfigWrite, hused, refuseIf_true]
  rw [pickStatus_first (by decide)]
  exact congrArg Host.Outcome.next (State.rowWrite_refused hr _ _ _)

/-! ### PTP messages -/

theorem State.ptpAccepts_iff (s : State) (p : Nat) (dest : PtpDest) : s.ptpAccepts p dest = true ↔ forPort s p dest := by
  cases dest <;> exact decide_eq_true_iff

/-- What a message does that the port hears. -/
def State.heard (s : State) (m : PtpMsg) : State :=
  let x := s.hif.ptp
  match m with
  | .announce src d t => s.ptpAnnounce src.toNat d t
  | .sync src seq two origin corr t =>
    if x.master ≠ some src.toNat then s
    else
      let s1 := s.setPtp { x with syncSeq := seq.toNat, syncAt := t, awaits := if two then some corr else none }
      if two then s1 else s1.ptpSync (origin + corr)
  | .followUp src seq origin corr =>
    match x.awaits with
    | some c0 => if x.master = some src.toNat ∧ x.syncSeq = seq.toNat then s.ptpSync (origin + corr + c0) else s
    | none => s
  | .delayResp src seq rx corr sent => if x.master = some src.toNat ∧ x.reqSeq = seq.toNat then s.ptpDelay rx corr sent else s
  | .other => s

theorem ptpMessageRx_eq (p : Fin 4) (dest : PtpDest) (domain : Byte) (m : PtpMsg) (s : State) :
    exec (.ptpMessageRx p dest domain m) s = .next (if s.on R.HIF_ETH_CTRL_EN p = false then s
      else if s.ptpAccepts p dest = false then s.add R.HIF_ETH_RX_DROP_COUNT 1 p
      else if ¬ s.on R.HIF_PTP_CTRL_EN ∨ s.get R.HIF_PTP_CTRL_PORT ≠ p.val ∨ s.on R.HIF_PTP_CTRL_TRANSPORT ≠ overIeee dest ∨
        s.get R.HIF_PTP_CTRL_DOMAIN ≠ domain.toNat then s
      else s.heard m) := by
  change execPtpMessageRx p dest domain m s = _
  unfold execPtpMessageRx
  simp only [apply_ite Host.Outcome.next]
  have hheard : (match m with
      | .announce src d t => .next (s.ptpAnnounce src.toNat d t)
      | .sync src seq two origin corr t =>
        if s.hif.ptp.master ≠ some src.toNat then .next s
        else
          let s1 := s.setPtp { s.hif.ptp with syncSeq := seq.toNat, syncAt := t, awaits := if two then some corr else none }
          .next (if two then s1 else s1.ptpSync (origin + corr))
      | .followUp src seq origin corr =>
        match s.hif.ptp.awaits with
        | some c0 => if s.hif.ptp.master = some src.toNat ∧ s.hif.ptp.syncSeq = seq.toNat then .next (s.ptpSync (origin + corr + c0)) else .next s
        | none => .next s
      | .delayResp src seq rx corr sent =>
        if s.hif.ptp.master = some src.toNat ∧ s.hif.ptp.reqSeq = seq.toNat then .next (s.ptpDelay rx corr sent) else .next s
      | .other => .next s : Out) = .next (s.heard m) := by
    cases m with
    | announce => rfl
    | other => rfl
    | sync src seq two => dsimp only [State.heard]; split <;> rfl
    | followUp src seq =>
      dsimp only [State.heard]
      cases s.hif.ptp.awaits with
      | none => rfl
      | some c0 => dsimp only; split <;> rfl
    | delayResp src seq => dsimp only [State.heard]; split <;> rfl
  rw [← hheard]
  cases dest <;> simp only [apply_ite Host.Outcome.next] <;> rfl

theorem ptpMessageRx_elsewhere {p : Fin 4} {dest : PtpDest} {domain : Byte} {m : PtpMsg} {s : State} (hen : s.on R.HIF_ETH_CTRL_EN p = true)
    (h : ¬ forPort s p dest) : exec (.ptpMessageRx p dest domain m) s = .next (s.add R.HIF_ETH_RX_DROP_COUNT 1 p) := by
  rw [← State.ptpAccepts_iff, Bool.not_eq_true] at h
  rw [ptpMessageRx_eq, if_neg (by simp [hen]), if_pos h]

/-- A port that takes part in PTP hears a message of its transport and domain. -/
structure HearsPtp (s : State) (p : Fin 4) (dest : PtpDest) (domain : Byte) : Prop where
  ptp : s.on R.HIF_PTP_CTRL_EN = true
  port : s.get R.HIF_PTP_CTRL_PORT = p.val
  eth : s.on R.HIF_ETH_CTRL_EN p = true
  transport : s.on R.HIF_PTP_CTRL_TRANSPORT = overIeee dest
  domain : s.get R.HIF_PTP_CTRL_DOMAIN = domain.toNat
  here : forPort s p dest

theorem ptpMessageRx_heard {p : Fin 4} {dest : PtpDest} {domain : Byte} {s : State} (h : HearsPtp s p dest domain) (m : PtpMsg) :
    exec (.ptpMessageRx p dest domain m) s = .next (s.heard m) := by
  obtain ⟨hptp, hport, heth, htransport, hdomain, hhere⟩ := h
  have haccepts : s.ptpAccepts p dest = true := (State.ptpAccepts_iff ..).2 hhere
  have hour : ¬ (¬ s.on R.HIF_PTP_CTRL_EN ∨ s.get R.HIF_PTP_CTRL_PORT ≠ p.val ∨ s.on R.HIF_PTP_CTRL_TRANSPORT ≠ overIeee dest ∨
      s.get R.HIF_PTP_CTRL_DOMAIN ≠ domain.toNat) := by
    rintro (hoff | hother | hway | hdom)
    · exact hoff hptp
    · exact hother hport
    · exact hway htransport
    · exact hdom hdomain
  rw [ptpMessageRx_eq, if_neg (by simp [heth]), if_neg (by simp [haccepts]), if_neg hour]

/-! ### The best master -/

theorem ptpAnnounce_first {s : State} {src : Nat} {d : PtpDataset} {t : Int} (h : s.hif.ptp.foreign = []) :
    s.ptpAnnounce src d t = (s.setPtp (let y := { s.hif.ptp with foreign := [{ src := src, data := d, last := t }] }
      if s.hif.ptp.master = none then y else { y with master := none, awaits := none, t1 := none })).set R.HIF_PTP_STATUS_MASTER_SEEN 0 := by
  simp [State.ptpAnnounce, h, bestMaster, PtpForeign.good, b2n]

/-- The senders known after an Announce of one that was known: its own entry first, then those not silent too long. -/
theorem ptpAnnounce_master {s : State} {src : Nat} {d : PtpDataset} {t : Int} {f : PtpForeign} {rest : List PtpForeign} {m : Nat}
    (hold : s.hif.ptp.foreign.find? (fun f => f.src = src) = some f)
    (hrest : s.hif.ptp.foreign.filter (fun f => f.src ≠ src ∧ t - f.last ≤ 4 * (f.data.interval : Nat)) = rest)
    (hbest : (bestMaster ({ src := src, data := d, last := t, before := some f.last } :: rest) t).map (·.src) = some m) :
    (s.ptpAnnounce src d t).hif.ptp.master = some m ∧ (s.ptpAnnounce src d t).get R.HIF_PTP_STATUS_MASTER_SEEN = 1 := by
  simp only [State.ptpAnnounce, hold, hrest, Option.map_some, hbest]
  refine ⟨?_, State.get_set_self ..⟩
  split
  next h => simpa [State.setPtp] using h
  next => rfl

theorem PtpForeign.good_of {x : PtpForeign} {t a : Int} (hsteps : x.data.steps.toNat < 255) (hbefore : x.before = some a)
    (hin : t - a ≤ 4 * (x.data.interval : Nat)) : x.good t = true := by
  simp [PtpForeign.good, hsteps, hbefore, hin]

theorem bestMaster_one {x : PtpForeign} {t : Int} (h : x.good t = true) : bestMaster [x] t = some x := by
  simp [bestMaster, h]

theorem bestMaster_two {x y : PtpForeign} {t : Int} (hx : x.good t = true) (hy : y.good t = true) :
    bestMaster [x, y] t = some (if y.better x then y else x) := by
  simp only [bestMaster, List.filter_cons, hx, hy, List.filter_nil, if_true, List.foldl_cons, List.foldl_nil]
  split <;> rfl

/-- Of two grandmasters the first priority decides where it differs. -/
theorem PtpForeign.better_prio1 {x y : PtpForeign} (hgm : x.data.gm ≠ y.data.gm) (hprio : x.data.prio1 ≠ y.data.prio1) :
    x.better y = decide (x.data.prio1.toNat < y.data.prio1.toNat) := by
  have hne : x.data.prio1.toNat ≠ y.data.prio1.toNat := fun h => hprio (BitVec.eq_of_toNat_eq h)
  simp [PtpForeign.better, hgm, listLess, hne]

theorem ptpAnnounce_alone {s : State} {src : Nat} {d : PtpDataset} {t : Int} {f : PtpForeign} (hknown : s.hif.ptp.foreign = [f])
    (hf : f.src = src) (hin : t - f.last ≤ 4 * (d.interval : Nat)) (hsteps : d.steps.toNat < 255) :
    (s.ptpAnnounce src d t).hif.ptp.master = some src ∧ (s.ptpAnnounce src d t).get R.HIF_PTP_STATUS_MASTER_SEEN = 1 := by
  refine ptpAnnounce_master (f := f) (rest := []) (by simp [hknown, hf]) (by simp [hknown, hf]) ?_
  rw [bestMaster_one (PtpForeign.good_of hsteps rfl hin)]
  rfl

theorem ptpAnnounce_rival {s : State} {src : Nat} {d : PtpDataset} {t a : Int} {f g : PtpForeign} (hknown : s.hif.ptp.foreign = [f, g])
    (hf : f.src = src) (hg : g.src ≠ src) (hin : t - f.last ≤ 4 * (d.interval : Nat)) (hsteps : d.steps.toNat < 255)
    (hbefore : g.before = some a) (hgin : t - a ≤ 4 * (g.data.interval : Nat)) (hglast : t - g.last ≤ 4 * (g.data.interval : Nat))
    (hgsteps : g.data.steps.toNat < 255) (hgm : d.gm ≠ g.data.gm) (hprio : d.prio1 ≠ g.data.prio1) :
    (s.ptpAnnounce src d t).hif.ptp.master = some (if d.prio1.toNat < g.data.prio1.toNat then src else g.src) := by
  refine (ptpAnnounce_master (f := f) (rest := [g]) (by simp [hknown, hf]) (by simp [hknown, hf, hg]; omega) ?_).1
  rw [bestMaster_two (PtpForeign.good_of hsteps rfl hin) (PtpForeign.good_of hgsteps hbefore hgin),
    PtpForeign.better_prio1 hgm.symm hprio.symm]
  have hne : d.prio1.toNat ≠ g.data.prio1.toNat := fun h => hprio (BitVec.eq_of_toNat_eq h)
  by_cases hless : d.prio1.toNat < g.data.prio1.toNat
  · simp [hless, Nat.not_lt.2 (Nat.le_of_lt hless)]
  · have hmore : g.data.prio1.toNat < d.prio1.toNat := by omega
    simp [hless, hmore]

/-! ### Loss of the lock -/

theorem ptpSyncTimeout_locked {s : State} (h : s.on R.HIF_PTP_STATUS_LOCK = true) :
    ∃ t, exec .ptpSyncTimeout s = .next t ∧ t.get R.HIF_PTP_STATUS_LOCK = 0 ∧ t.get R.HIF_PTP_STATUS_CHANGED = 1 ∧
      t.get R.LTU_REF_STATUS_PTP_LOCK = 0 ∧ t.hif.ptp.good = 0 ∧ t.hif.ptp.awaits = none := by
  refine ⟨_, rfl, ?_⟩
  generalize hu : s.setPtp { s.hif.ptp with good := 0, bad := 0, awaits := none } = u
  have hon : u.on R.HIF_PTP_STATUS_LOCK ≠ false := by
    subst hu
    exact fun hoff => Bool.noConfusion (h.symm.trans hoff)
  have hptp : u.hif.ptp.good = 0 ∧ u.hif.ptp.awaits = none := by subst hu; exact ⟨rfl, rfl⟩
  rw [State.setPtpLock, if_neg hon]
  generalize hv : ((u.set R.HIF_PTP_STATUS_LOCK (b2n false)).set R.HIF_PTP_STATUS_CHANGED 1).set R.LTU_REF_STATUS_PTP_LOCK (b2n false) = v
  have hget (f : Fld) : (v.raise Ev.ptpLock).syncSteer.get f = (v.raise Ev.ptpLock).get f := rfl
  have hhif : (v.raise Ev.ptpLock).syncSteer.hif = u.hif := by
    subst hv
    simp [State.syncSteer, State.steer]
  rw [hhif, hget, hget, hget, State.raise_get_beyond _ _ (by decide) (by decide), State.raise_get_beyond _ _ (by decide) (by decide),
    State.raise_get_below _ _ (by decide)]
  subst hv
  simp (disch := decide) only [State.get_set_ne, State.get_set_self]
  exact ⟨rfl, rfl, rfl, hptp⟩

/-- Settles O38: link changes, PTP messages by what they do once heard, and the best of the senders. -/
theorem ethernetAndPtp : Obligations.EthernetAndPtp := by
  refine ⟨fun p q s hen hlink => ?_, fun p s => rfl, fun p s hen => ?_, fun p up fec corr uncorr s => ethLinkChange_noReference p up fec corr uncorr,
    fun p fec corr uncorr s => ethLinkChange_up p fec corr uncorr, fun w p k v s hr => ⟨ethPortConfigWrite_free hr, ethPortConfigWrite_used hr⟩,
    fun p dest domain m s => ptpMessageRx_elsewhere, fun p dest domain s hptp hport heth htransport hdomain hhere => ?_,
    fun s => ptpSyncTimeout_locked⟩
  · change execPauseFrameRx p q s = _
    rw [execPauseFrameRx, if_pos ⟨hen, hlink⟩]
    by_cases hq : q = 0 <;> simp [hq, b2n]
  · exact congrArg Host.Outcome.next (if_pos hen)
  · have hears : HearsPtp s p dest domain := ⟨hptp, hport, heth, htransport, hdomain, hhere⟩
    refine ⟨fun src d t hnew => ?_, fun src d t f hknown hf hin hsteps => ?_,
      fun src d t a f g hknown hf hg hin hsteps hbefore hgin hglast hgsteps hgm hprio => ?_,
      fun src seq origin corr t hmaster => ⟨?_, ?_⟩, fun src seq origin corr c0 hmaster hseq hawaits => ?_,
      fun src seq rx corr sent hmaster hseq => ?_⟩
    · exact (ptpMessageRx_heard hears _).trans (congrArg Host.Outcome.next (ptpAnnounce_first hnew))
    · exact ⟨_, ptpMessageRx_heard hears _, ptpAnnounce_alone hknown hf hin hsteps⟩
    · exact ⟨_, ptpMessageRx_heard hears _, ptpAnnounce_rival hknown hf hg hin hsteps hbefore hgin hglast hgsteps hgm hprio⟩
    · rw [ptpMessageRx_heard hears, State.heard, if_neg (by simp [hmaster])]
      rfl
    · rw [ptpMessageRx_heard hears, State.heard, if_neg (by simp [hmaster])]
      rfl
    · rw [ptpMessageRx_heard hears]
      simp only [State.heard, hawaits, if_pos (And.intro hmaster hseq)]
    · rw [ptpMessageRx_heard hears, State.heard, if_pos ⟨hmaster, hseq⟩]

end Sys2Proof.Machine
end

section
/-! PROOFS. Streams: chunks released, descriptors completed, datagrams sent (R325, R377 to R382, R386, R387). -/

open Sys2Proof Sys2Proof.Stated

namespace Sys2Proof.Machine

/-! ### What a stream releases -/

theorem releaseChunk_dma {c : Fin 64} {d : HostDesc} {s : State} (hlive : s.stLive c = true) (hdma : s.isDma c = true) :
    exec (.releaseChunk c d) s =
      .next ((if (s.fetchDesc c d).1 then (s.fetchDesc c d).2 else (s.fetchDesc c d).2.releaseDma c).syncStream c) := by
  change execReleaseChunk c d s = _
  rw [execReleaseChunk, if_neg (by simp [hlive]), if_pos hdma]

theorem State.fetchDesc_takes {c : Nat} {d : HostDesc} {s : State} (hnone : (s.stream c).desc = none)
    (hmore : s.get R.HIF_ST_HEAD_HEAD c ≠ s.get R.HIF_ST_TAIL_TAIL c) (hst : s.descStatus c d.addr.toNat d.len.toNat = none) :
    s.fetchDesc c d =
      (false, s.setStream c { s.stream c with desc := some (d.addr.toNat, d.len.toNat, d.irq), used := 0, top := none }) := by
  rw [State.fetchDesc, if_neg (by simp [hnone, hmore])]
  simp only [hst]

theorem State.fetchDesc_completes {c : Nat} {d : HostDesc} {s : State} {st : Status} (hnone : (s.stream c).desc = none)
    (hmore : s.get R.HIF_ST_HEAD_HEAD c ≠ s.get R.HIF_ST_TAIL_TAIL c) (hst : s.descStatus c d.addr.toNat d.len.toNat = some st) :
    s.fetchDesc c d = (true, s.completeDesc c st false d.irq) := by
  rw [State.fetchDesc, if_neg (by simp [hnone, hmore])]
  simp only [hst]

theorem releaseChunk_eth {c : Fin 64} {d : HostDesc} {s : State} (hlive : s.stLive c = true) (hdma : s.isDma c = false)
    (htx : s.txOk (s.get R.HIF_ST_CTRL_PORT c) = true) : exec (.releaseChunk c d) s = .next ((s.releaseEth c).syncStream c) := by
  change execReleaseChunk c d s = _
  rw [execReleaseChunk, if_neg (by simp [hlive]), if_neg (by simp [hdma]), if_pos htx]

theorem descriptorReadError_eq {c : Fin 64} {timeout : Bool} {s : State} (hlive : s.stLive c = true) (hdma : s.isDma c = true)
    (hnone : (s.stream c).desc = none) (hmore : s.get R.HIF_ST_HEAD_HEAD c ≠ s.get R.HIF_ST_TAIL_TAIL c) :
    exec (.descriptorReadError c timeout) s = .next ((((((s.setStream c (s.stream c).cutShort).set R.HIF_ST_STATUS_STATE 3 c).set
      R.HIF_ST_STATUS_FAULT 1 c).set R.HIF_ST_STATUS_LAST_STATUS (if timeout then 10 else 9) c).addSat R.HIF_PCIE_ERR_CPL_ERR 1).raise
      Ev.streamFault) := by
  change execDescriptorReadError c timeout s = _
  rw [execDescriptorReadError, if_pos ⟨hlive, hdma, hnone, hmore⟩]
  cases timeout <;> rfl

theorem datagramSend_eq {c : Fin 64} {t : Int} {g : Dgram} {gs : List Dgram} {s : State} (hen : s.on R.HIF_CTRL_EN = true)
    (hdma : s.isDma c = false) (htx : s.txOk (s.get R.HIF_ST_CTRL_PORT c) = true) (hdue : (s.stream c).sendAt ≤ t)
    (hready : (s.stream c).ready = g :: gs) :
    exec (.datagramSend c t) s =
      .next ((s.emit (.datagram (s.get R.HIF_ST_CTRL_PORT c) c (s.frameFields c (s.dgHeader c g ++ g.bytes)) (s.dgHeader c g ++ g.bytes))).setStream c
        { s.stream c with ready := gs, sendAt := t + (s.sendTime c (s.wireBits c (s.dgHeader c g ++ g.bytes).length) : Nat) }) := by
  change execDatagramSend c t s = _
  rw [execDatagramSend, if_pos ⟨hen, hdma, htx, hdue⟩]
  simp only [State.sendDgram, hready]

theorem streamsRelease : StreamsRelease := by
  refine ⟨fun c d s hlive hdma hnone hmore => ⟨fun hst => ?_, fun st hst => ?_⟩, fun c d s => releaseChunk_eth,
    fun c timeout s => descriptorReadError_eq, fun c t g gs s => datagramSend_eq⟩
  · rw [releaseChunk_dma hlive hdma, State.fetchDesc_takes hnone hmore hst]
    rfl
  · rw [releaseChunk_dma hlive hdma, State.fetchDesc_completes hnone hmore hst]
    rfl

/-! ### Chunks -/

theorem State.releaseDma_idle {c : Nat} {s : State} (hcut : (s.stream c).cut = none) (hskip : (s.stream c).skip = none)
    (hitem : (s.stream c).item = none)
    (hseal : s.on R.SCU_SEAL_ST_STATUS_VALID (s.get R.HIF_ST_CTRL_STATION c) = false ∨
      s.get R.SCU_SEAL_ST_HZN_BAND (s.get R.HIF_ST_CTRL_STATION c) < s.relBand c (s.get R.HIF_ST_CTRL_STATION c)) : s.releaseDma c = s := by
  have hopen : s.openBand c = .rest s := by
    rw [State.openBand]
    exact if_pos (hseal.imp (by simp) id)
  have hwork : s.findWork c = .rest s := by
    simp [State.findWork, hcut, hskip, hitem, hopen]
  rw [State.releaseDma, hwork]

theorem State.releaseDma_chunk {c addr len : Nat} {irq : Bool} {x : Chunk} {s s1 : State} (hwork : s.findWork c = .chunk x s1)
    (hdesc : (s.stream c).desc = some (addr, len, irq)) :
    s.releaseDma c = if len < (s.stream c).used + (x.bytes (s.get R.HIF_ST_CTRL_STATION c)).length then s.completeDesc c .ok false irq
      else
        let s2 := s1.emit (.dmaWrite c (s1.relaxed 0) (addr + (s.stream c).used) (x.bytes (s.get R.HIF_ST_CTRL_STATION c)))
        s2.setStream c ({ s2.stream c with used := (s.stream c).used + (x.bytes (s.get R.HIF_ST_CTRL_STATION c)).length }.wrote x.band) := by
  have hclose : s.closeDesc c false = s.completeDesc c .ok false irq := by rw [State.closeDesc, hdesc]
  simp only [State.releaseDma, hwork, hdesc, hclose]

theorem chunkRelease : ChunkRelease := by
  refine ⟨fun c s hcut hskip hitem => State.releaseDma_idle hcut hskip hitem, fun c addr len irq x s s1 hwork hdesc => ?_,
    fun c addr len irq s s1 hwork hdesc => ?_⟩
  · intro bs used
    refine ⟨fun hfits => ?_, fun hover => ?_⟩
    · rw [State.releaseDma_chunk hwork hdesc, if_neg (Nat.not_lt.2 hfits)]
      have hsent : s1.emit (.dmaWrite c (s1.relaxed 0) (addr + (s.stream c).used) (x.bytes (s.get R.HIF_ST_CTRL_STATION c))) =
        s1.emit (.dmaWrite c (!s1.hif.strict.contains 0) (addr + used) bs) := rfl
      rw [hsent]
      rfl
    · rw [State.releaseDma_chunk hwork hdesc, if_pos hover]
  · have hclose : s1.closeDesc c true = s1.completeDesc c .ok true irq := by rw [State.closeDesc, hdesc]
    simp only [State.releaseDma, hwork, hclose]
    rfl

/-! ### Completed descriptors -/

/-- The state once a descriptor's completion is written, before its event. -/
def State.descDone (s : State) (c : Nat) (bytes : List Nat) : State :=
  (((s.emit (.dmaWrite c false (s.ringBase c + 32 * s.get R.HIF_ST_HEAD_HEAD c + 16) bytes)).set R.HIF_ST_HEAD_HEAD
    ((s.get R.HIF_ST_HEAD_HEAD c + 1) % s.ringSize c) c).add R.HIF_ST_SEQ_SEQ 1 c).setStream c
    { s.stream c with desc := none, used := 0, top := none }

/-- Bytes 16 to 31 of a completed descriptor. -/
def State.doneBytes (s : State) (c : Nat) (st : Status) (bandEnd : Bool) : List Nat :=
  leBytes 4 (s.stream c).used ++ leBytes 4 (st.code + if bandEnd then 256 else 0) ++ leBytes 8 (match (s.stream c).top with
    | some b => b % 2 ^ 42 + 2 ^ 63
    | none => 0)

theorem State.completeDesc_eq (s : State) (c : Nat) (st : Status) (bandEnd irq : Bool) :
    s.completeDesc c st bandEnd irq =
      if irq then (s.descDone c (s.doneBytes c st bandEnd)).raise (Ev.streamCompletion c) else s.descDone c (s.doneBytes c st bandEnd) := by
  cases bandEnd <;> cases h : (s.stream c).top <;> simp only [State.completeDesc, State.doneBytes, h] <;> rfl

theorem streamHead_apart (c : Nat) : R.HIF_ST_HEAD_HEAD.key c 0 ≠ R.HIF_ST_SEQ_SEQ.key c 0 ∧ R.HIF_ST_SEQ_SEQ.key c 0 ≠ R.HIF_ST_HEAD_HEAD.key c 0 ∧
    0x1D00308 * 32 ≤ R.HIF_ST_HEAD_HEAD.key c 0 ∧ 0x1D00308 * 32 ≤ R.HIF_ST_SEQ_SEQ.key c 0 := by
  simp only [Fld.key, R.HIF_ST_HEAD_HEAD, R.HIF_ST_SEQ_SEQ]
  omega

theorem State.descDone_get (s : State) (c : Nat) (bytes : List Nat) :
    (s.descDone c bytes).get R.HIF_ST_HEAD_HEAD c = (s.get R.HIF_ST_HEAD_HEAD c + 1) % s.ringSize c % 65536 ∧
      (s.descDone c bytes).get R.HIF_ST_SEQ_SEQ c = (s.get R.HIF_ST_SEQ_SEQ c + 1) % 2 ^ 32 := by
  obtain ⟨hhs, hsh, _⟩ := streamHead_apart c
  rw [State.descDone, State.setStream_get, State.setStream_get, State.add]
  refine ⟨?_, ?_⟩
  · rw [State.get_set_ne _ _ _ _ _ _ _ _ hhs]
    exact State.get_set_self ..
  · rw [State.get_set_self, State.get_set_ne _ _ _ _ _ _ _ _ hsh, State.emit_get]
    rfl

theorem State.completeDesc_get (s : State) {c : Nat} (hc : c < 64) (st : Status) (bandEnd irq : Bool) {f : Fld}
    (h : 0x1D00308 * 32 ≤ f.key c 0) :
    (s.completeDesc c st bandEnd irq).get f c = (s.descDone c (s.doneBytes c st bandEnd)).get f c := by
  rw [State.completeDesc_eq]
  split
  · exact State.raise_get_beyond _ _ (by rw [Ev.streamCompletion]; omega) h
  · rfl

theorem State.completeDesc_hif (s : State) (c : Nat) (st : Status) (bandEnd irq : Bool) :
    (s.completeDesc c st bandEnd irq).out = (s.descDone c (s.doneBytes c st bandEnd)).out ∧
      (s.completeDesc c st bandEnd irq).stream c = (s.descDone c (s.doneBytes c st bandEnd)).stream c ∧
      SameMemory s (s.completeDesc c st bandEnd irq) := by
  rw [State.completeDesc_eq]
  split
  all_goals simp [State.stream, SameMemory, State.descDone, State.add]

theorem descriptorCompletion : DescriptorCompletion := by
  intro c st bandEnd irq s hopen h t
  obtain ⟨hout, hstream, hmem⟩ := State.completeDesc_hif s c st bandEnd irq
  obtain ⟨hhead, hseq⟩ := State.descDone_get s c (s.doneBytes c st bandEnd)
  obtain ⟨_, _, hhk, hsk⟩ := streamHead_apart c
  have hself : (s.descDone c (s.doneBytes c st bandEnd)).stream c = { s.stream c with desc := none, used := 0, top := none } := by
    rw [State.descDone, State.setStream_stream]
  refine ⟨?_, ?_, ?_, ?_, ?_, fun hirq => ?_, hmem⟩
  · rw [hout, State.descDone, State.setStream_out, State.add, State.set_out, State.set_out, State.emit_out _ _ (State.silent_eq_false hopen rfl)]
    rfl
  · rw [State.completeDesc_get s c.isLt st bandEnd irq hhk, hhead]
  · rw [State.completeDesc_get s c.isLt st bandEnd irq hsk, hseq]
  · rw [hstream, hself]
  · rw [hstream, hself]
  · simp only [t, State.completeDesc_eq, hirq, if_true]
    exact State.bit_raise_self _ (by rw [Ev.streamCompletion]; omega)

/-- Settles O37: by what is found to release, and by the entry that a completed descriptor leaves. -/
theorem streams : Obligations.Streams := ⟨streamsRelease, chunkRelease, descriptorCompletion⟩

end Sys2Proof.Machine
end

section
/-! PROOFS. The timebase, temperature compensation, and encoder and index edges (R100 to R109, R555, R563). -/

open Sys2Proof Sys2Proof.Stated

namespace Sys2Proof.Machine

/-! ### The timebase -/

theorem clampI_eq (lo hi x : Int) : clampI lo hi x = max lo (min hi x) := congrArg (max lo) (Int.min_comm ..)

theorem tcompTick_eq (s : State) : exec .tcompTick s =
    .next (if ¬ s.on R.LTU_TCOMP_CTRL_EN then
      ((s.setS R.LTU_REF_STATUS_CORR (stepCorr (s.getS R.LTU_REF_STATUS_CORR) 0)).set R.LTU_REF_STATUS_TCOMP_HOLD 0).syncSteer
    else if s.on R.THM_SNS_FAILED (s.get R.LTU_TCOMP_CTRL_SENSOR) then s.set R.LTU_REF_STATUS_TCOMP_HOLD 1
    else ((s.setS R.LTU_REF_STATUS_CORR (stepCorr (s.getS R.LTU_REF_STATUS_CORR)
      (interpCorr (5 * s.getS R.THM_SNS_TEMP (s.get R.LTU_TCOMP_CTRL_SENSOR)) (s.tcompPoints.map fun p => (4 * p.1, p.2))))).set
      R.LTU_REF_STATUS_TCOMP_HOLD 0).syncSteer) := by
  change execTcompTick s = _
  unfold execTcompTick
  split
  · rfl
  · dsimp only
    split <;> rfl

theorem stepCorr_eq (cur target : Int) : stepCorr cur target = cur + max (-10) (min 10 (target - cur)) := by
  rw [stepCorr, clampI_eq]

theorem tcompEnableWrite_taken {w : World} {v : BitVec 32} {s : State} (hr : Reaches s w .LTU_TCOMP_CTRL 0 0)
    (hbad : (decide (23 < R.LTU_TCOMP_CTRL_SENSOR.of v.toNat) ||
      (decide (R.LTU_TCOMP_CTRL_EN.of v.toNat = 1) && !s.tcompAscending)) = false) :
    exec (.tcompEnableWrite w v) s = .next (wrote s w .LTU_TCOMP_CTRL 0 0 v.toNat) := by
  change execTcompEnableWrite w v s = _
  simp only [execTcompEnableWrite, hbad, refuseIf_false]
  exact congrArg Host.Outcome.next (State.rowWrite_taken hr _ _)

theorem tcompEnableWrite_refused {w : World} {v : BitVec 32} {s : State} (hr : Reaches s w .LTU_TCOMP_CTRL 0 0)
    (hbad : (decide (23 < R.LTU_TCOMP_CTRL_SENSOR.of v.toNat) ||
      (decide (R.LTU_TCOMP_CTRL_EN.of v.toNat = 1) && !s.tcompAscending)) = true) :
    exec (.tcompEnableWrite w v) s = .next ((s.countRefused w .range).set R.LTU_REF_STATUS_LAST_STATUS 3) := by
  change execTcompEnableWrite w v s = _
  simp only [execTcompEnableWrite, hbad, refuseIf_true]
  exact congrArg Host.Outcome.next (State.rowWrite_refused hr _ _ _)

theorem timebase : Timebase := by
  refine ⟨fun s hen href => ?_, fun s => rfl, fun s hen href => ?_, fun s => ⟨fun hoff => ?_, fun hen hfail => ?_, fun hen hfail => ?_⟩,
    fun s => ⟨clampI_eq _ _ _, rfl⟩, fun w v s hr => ⟨tcompEnableWrite_taken hr, tcompEnableWrite_refused hr⟩⟩
  · change execRefclkLoss s = _
    rw [execRefclkLoss, if_pos ⟨hen, by simp [href]⟩]
  · change execTimebaseLock s = _
    rw [execTimebaseLock, if_pos ⟨hen, by simp [href]⟩]
  · rw [tcompTick_eq, if_pos (by simp [hoff]), stepCorr_eq]
  · rw [tcompTick_eq, if_neg (by simp [hen]), if_pos hfail]
  · rw [tcompTick_eq, if_neg (by simp [hen]), if_neg (by simp [hfail]), stepCorr_eq]

/-! ### Pins -/

theorem Pin.accept_same {x : Pin} (h : x.out = x.level) (t : Int) : x.accept t = (none, x) := by
  simp [Pin.accept, h]

theorem Pin.accept_due {x : Pin} {t : Int} (h : x.out ≠ x.level) (hdue : x.since + x.hold ≤ t) :
    (x.accept t).1 = some (x.since + x.hold, x.hold) ∧ (x.accept t).2.level = x.out := by
  simp [Pin.accept, h, hdue]

theorem vote_off (raw : Bool) (h : List Bool) : vote 0 (raw :: h) = raw := by
  simp [vote]

/-- With both filters off a level is accepted at the tick that samples it. -/
theorem Pin.sample_unfiltered {x : Pin} (raw : Bool) (t : Int) (h : x.out = x.level) :
    (raw ≠ x.level → (x.sample 0 0 raw t).1 = some (t, 0) ∧ (x.sample 0 0 raw t).2.level = raw) ∧
    (raw = x.level → (x.sample 0 0 raw t).1 = none ∧ (x.sample 0 0 raw t).2.level = x.level) := by
  have hvote : vote 0 ((raw :: x.hist).take 5) = raw := vote_off raw (x.hist.take 4)
  refine ⟨fun hne => ?_, fun heq => ?_⟩
  · have hdue := Pin.accept_due (x := { x with hist := (raw :: x.hist).take 5, out := raw, since := t, hold := 0 }) (t := t) hne (by simp)
    simp only [Pin.sample, Pin.accept_same h, hvote, h, if_neg hne, hdue]
    simp
  · have hsame := Pin.accept_same (x := { x with hist := (raw :: x.hist).take 5 }) h t
    simp only [h] at hsame
    simp only [Pin.sample, Pin.accept_same h, hvote, h, if_pos heq, hsame]
    simp

/-- A level that waited its glitch time is accepted at the end of it, with the glitch time of its edge. -/
theorem Pin.sample_waited {x : Pin} {t : Int} (maj : Nat) (g : Int) (raw : Bool) (h : x.out ≠ x.level) (hdue : x.since + x.hold ≤ t) :
    (x.sample maj g raw t).1 = some (x.since + x.hold, x.hold) := by
  simp [Pin.sample, Pin.accept_due h hdue]

/-! ### The decoder -/

/-- The step of a change of one level: one up or one down. -/
theorem quadStep_single (xa xb a b : Bool) (h : ¬ (xa = a ↔ xb = b)) :
    quadStep xa xb a b = if (if xa = a then decide (b = a) else decide (a ≠ b)) then 1 else -1 := by
  revert h
  cases xa <;> cases xb <;> cases a <;> cases b <;> decide

/-- The count and its direction after a change of one level. -/
theorem count_step (xa xb a b invert : Bool) (h : ¬ (xa = a ↔ xb = b)) :
    let up : Bool := xor (if xa = a then decide (b = a) else decide (a ≠ b)) invert
    (if invert then -1 else 1 : Int) * quadStep xa xb a b = (if up then 1 else -1) ∧
      decide (0 < (if invert then -1 else 1 : Int) * quadStep xa xb a b) = up := by
  revert h
  cases xa <;> cases xb <;> cases a <;> cases b <;> cases invert <;> decide

theorem State.decodeEdge_error {s : State} {e : Nat} {a b : Bool} (u : Int) (ha : (s.enc e).a ≠ a) (hb : (s.enc e).b ≠ b) :
    s.decodeEdge e a b u = ((s.setEnc e { s.enc e with a := a, b := b }).add R.LTU_ENC_ERR_COUNT 1 e).raise (1312 + e) := by
  simp only [State.decodeEdge, if_neg (fun h : (s.enc e).a = a ∧ (s.enc e).b = b => ha h.1), if_pos (And.intro ha hb)]
  rfl

theorem State.decodeEdge_step {s : State} {e : Nat} {a b : Bool} (u : Int) (h : ¬ ((s.enc e).a = a ↔ (s.enc e).b = b)) :
    let up : Bool := xor (if (s.enc e).a = a then decide (b = a) else decide (a ≠ b)) (s.on R.LTU_ENC_CFG_INVERT e)
    let c := toSigned 48 (ofSigned 48 ((s.enc e).count + if up then 1 else -1))
    let s1 := s.setEnc e { s.enc e with a := a, b := b, count := c, te := u, up := up, moved := true,
                                        edges := (u :: (s.enc e).edges).take 9 }
    let s2 := (s1.setPos16 R.LTU_ENC_POS_COUNT R.LTU_ENC_POS_PHASE e (65536 * c)).syncPeriod e u
    s.decodeEdge e a b u = s2.each (stations8.filter fun n => s2.encSource n && decide (s2.encOf n = e)) fun s n => s.edgeStation n u := by
  obtain ⟨hstep, hup⟩ := count_step (s.enc e).a (s.enc e).b a b (s.on R.LTU_ENC_CFG_INVERT e) h
  simp only [State.decodeEdge, if_neg (fun k : (s.enc e).a = a ∧ (s.enc e).b = b => h ⟨fun _ => k.2, fun _ => k.1⟩),
    if_neg (fun k : (s.enc e).a ≠ a ∧ (s.enc e).b ≠ b => h ⟨fun j => absurd j k.1, fun j => absurd j k.2⟩), hup]
  rw [hstep]
  rfl

theorem State.sampleAB_pins (s : State) (e : Nat) (a b : Bool) (t : Int) :
    let x := s.enc e
    let pa := x.pinA.sample (s.get R.LTU_ENC_CFG_MAJ e) (s.glitch e) a t
    let pb := x.pinB.sample (s.get R.LTU_ENC_CFG_MAJ e) (s.glitch e) b t
    let m : Int := 16 * s.get R.LTU_ENC_CFG_MAJ e
    let s1 := s.setEnc e { x with pinA := pa.2, pinB := pb.2, abAt := t }
    (pa.1 = none → pb.1 = none → s.sampleAB e a b t = s1) ∧
    (∀ u, pa.1 = some u → pb.1 = none → s.sampleAB e a b t = s1.decodeEdge e pa.2.level x.b (u.1 - (u.2 + m))) ∧
    (∀ v, pa.1 = none → pb.1 = some v → s.sampleAB e a b t = s1.decodeEdge e x.a pb.2.level (v.1 - (v.2 + m))) ∧
    (∀ u, pa.1 = some u → pb.1 = some u → s.sampleAB e a b t = s1.decodeEdge e pa.2.level pb.2.level (u.1 - (u.2 + m))) := by
  intro x pa pb m s1
  refine ⟨fun ha hb => ?_, fun u ha hb => ?_, fun v ha hb => ?_, fun u ha hb => ?_⟩
  all_goals
    simp only [pa, pb, x] at ha hb
    simp only [State.sampleAB, ha, hb, if_true]
    rfl

/-! ### The index input -/

theorem State.sampleZ_latches {s : State} {e : Nat} {lv : Bool} {t : Int} {u : Int × Int} {p : Option (Int × Int) × Pin}
    (hp : (s.enc e).pinZ.sample (s.get R.LTU_ENC_CFG_MAJ e) (s.glitch e) lv t = p) (hu : p.1 = some u) (hlevel : p.2.level = true)
    (hen : s.on R.LTU_ENC_CFG_Z_EN e = true) :
    let s1 := s.setEnc e { s.enc e with pinZ := p.2, zAt := t }
    s.sampleZ e lv t = s1.setPos16 R.LTU_ENC_ZLATCH_COUNT R.LTU_ENC_ZLATCH_PHASE e
      (s1.encPos e (u.1 - (u.2 + (16 * s.get R.LTU_ENC_CFG_MAJ e : Int)))) := by
  simp only [State.sampleZ, hp, hu, hlevel, hen, and_self, if_true]
  rfl

theorem State.sampleZ_unlatched {s : State} {e : Nat} {lv : Bool} {t : Int} {p : Option (Int × Int) × Pin}
    (hp : (s.enc e).pinZ.sample (s.get R.LTU_ENC_CFG_MAJ e) (s.glitch e) lv t = p)
    (h : p.1 = none ∨ p.2.level = false ∨ s.on R.LTU_ENC_CFG_Z_EN e = false) :
    s.sampleZ e lv t = s.setEnc e { s.enc e with pinZ := p.2, zAt := t } := by
  simp only [State.sampleZ, hp]
  rcases hu : p.1 with _ | u
  · rfl
  · simp only
    rw [if_neg]
    rintro ⟨hlevel, hen⟩
    simp [hu, hlevel, hen] at h

theorem encoderEdges : EncoderEdges := by
  refine ⟨fun e a b t s => rfl, fun e a b t s => State.sampleAB_pins s e a b t, fun x raw t => Pin.sample_unfiltered raw t,
    fun x maj g raw t => Pin.sample_waited maj g raw, fun e a b u s => State.decodeEdge_error u, fun e a b u s => State.decodeEdge_step u,
    fun e lv t s => rfl, fun e lv t s => ⟨fun u => State.sampleZ_latches rfl, State.sampleZ_unlatched rfl⟩⟩

/-- Settles O15: the timebase by its cases, pins by what they accept, the decoder by the levels that change. -/
theorem timebaseAndEncoders : Obligations.TimebaseAndEncoders := ⟨timebase, encoderEdges⟩

end Sys2Proof.Machine
end

section
/-! PROOFS. Lines committed and triggered in order, host triggers and the match (R110 to R129, R196, R233). -/

open Sys2Proof Sys2Proof.Stated

namespace Sys2Proof.Machine

/-! ### What queues and heads leave alone -/

/-- The field lies apart from the registers of the Line Timing Unit: a queue's, a head interface's, or one without an index below them. -/
def Fld.apart (f : Fld) : Bool := decide (0xC00000 ≤ f.base) || (decide (f.base < 0x209000) && decide (f.s1 = 0) && decide (f.s2 = 0) && decide (f.lo < 32))

/-- The line timing state stands, and so do the registers between those of the pool and those of the queues. -/
structure SameLines (s t : State) : Prop where
  ltu : t.ltu = s.ltu
  get : ∀ (f : Fld) (i : Nat), 0x209000 * 32 ≤ f.key i 0 → f.key i 0 < 0xC00000 * 32 → t.get f i = s.get f i

namespace SameLines

variable {s t : State}

theorem refl (s : State) : SameLines s s := ⟨rfl, fun _ _ _ _ => rfl⟩

/-- A change of neither the registers nor the line timing state. -/
theorem of_regs {u : State} (h : SameLines s t) (hregs : u.regs = t.regs) (hltu : u.ltu = t.ltu) : SameLines s u :=
  ⟨hltu.trans h.ltu, fun f i hlo hhi => (show u.get f i = t.get f i by rw [State.get, State.get, hregs]).trans (h.get f i hlo hhi)⟩

theorem setQueue {q : Nat} {x : Queue} (h : SameLines s t) : SameLines s (t.setQueue q x) := h.of_regs rfl rfl

theorem setHead {p : Nat} {x : Head} (h : SameLines s t) : SameLines s (t.setHead p x) := h.of_regs rfl rfl

theorem setLane {l : Nat} {x : Lane} (h : SameLines s t) : SameLines s (t.setLane l x) := h.of_regs rfl rfl

theorem setSeal {n : Nat} {x : Seal} (h : SameLines s t) : SameLines s (t.setSeal n x) := h.of_regs rfl rfl

theorem emit {o : Output} (h : SameLines s t) : SameLines s (t.emit o) := h.of_regs (State.emit_regs ..) (State.emit_ltu ..)

theorem set {f : Fld} {v i : Nat} (h : SameLines s t) (hf : f.apart = true := by rfl) : SameLines s (t.set f v i) := by
  refine ⟨h.ltu, fun g k hlo hhi => (State.get_set_ne _ _ _ _ _ _ _ _ ?_).trans (h.get g k hlo hhi)⟩
  intro he
  rw [he, Fld.key] at hlo hhi
  simp only [Fld.apart, Bool.or_eq_true, Bool.and_eq_true, decide_eq_true_eq] at hf
  obtain hbase | ⟨⟨⟨hbase, hs1⟩, hs2⟩, hl⟩ := hf
  · omega
  · rw [hs1, hs2] at hlo
    omega

theorem add {f : Fld} {n i : Nat} (h : SameLines s t) (hf : f.apart = true := by rfl) : SameLines s (t.add f n i) := h.set hf

theorem addSat {f : Fld} {n i : Nat} (h : SameLines s t) (hf : f.apart = true := by rfl) : SameLines s (t.addSat f n i) := h.set hf

theorem sub {f : Fld} {n i : Nat} (h : SameLines s t) (hf : f.apart = true := by rfl) : SameLines s (t.sub f n i) := h.set hf

theorem raise {n : Nat} (h : SameLines s t) : SameLines s (t.raise n) :=
  ⟨(State.raise_ltu ..).trans h.ltu, fun f i hlo hhi => (State.raise_get_below _ _ (Nat.lt_trans hhi (by decide))).trans (h.get f i hlo hhi)⟩

theorem each {α : Type} {g : State → α → State} {xs : List α} (hg : ∀ t, ∀ x ∈ xs, SameLines s t → SameLines s (g t x)) (h : SameLines s t) :
    SameLines s (t.each xs g) := by
  unfold State.each
  induction xs generalizing t with
  | nil => exact h
  | cons x xs ih =>
    obtain ⟨hx, hxs⟩ : (∀ t, SameLines s t → SameLines s (g t x)) ∧ ∀ t, ∀ y ∈ xs, SameLines s t → SameLines s (g t y) :=
      ⟨fun t => hg t x List.mem_cons_self, fun t y hy => hg t y (List.mem_cons_of_mem _ hy)⟩
    exact ih hxs (hx t h)

/-! ### Queues -/

theorem syncLow (h : SameLines s t) : SameLines s t.syncLow := by
  unfold State.syncLow
  dsimp only
  split
  · exact .raise (.set h)
  · split
    · exact h
    · exact .set h

theorem setAlloc {q n : Nat} (h : SameLines s t) : SameLines s (t.setAlloc q n) := .set (.set (.set h))

theorem takeSlabs {q n : Nat} (h : SameLines s t) : SameLines s (t.takeSlabs q n) := by
  have harrive : SameLines s (if t.get R.QMX_POOL_FREE_FREE = 0 then
      (({ t with qmx := { t.qmx with transit := arriveOne t.qmx.transit } } : State).add R.QMX_POOL_FREE_FREE 1).sub
        R.QMX_AUD_TRANSIT_TRANSIT 1
    else t) := by
    split
    · exact .sub (.add (h.of_regs rfl rfl))
    · exact h
  exact .syncLow (.setAlloc (.sub harrive))

theorem endWrWait {q : Nat} (h : SameLines s t) : SameLines s (t.endWrWait q) := .setQueue (.set (.set h))

theorem handOver {q : Nat} (h : SameLines s t) : SameLines s (t.handOver q) := by
  unfold State.handOver
  dsimp only
  split
  · exact h
  · split
    · exact .endWrWait (.set (.setQueue h))
    · exact .set h

theorem putQueue {q : Nat} {x : Queue} (h : SameLines s t) : SameLines s (t.putQueue q x) := .set (.setQueue h)

theorem ite {u : State} {c : Prop} [Decidable c] (ht : SameLines s t) (hu : SameLines s u) : SameLines s (if c then t else u) := by
  split
  · exact ht
  · exact hu

theorem appendWord {q : Nat} {w : QWord} (h : SameLines s t) : SameLines s (t.appendWord q w) :=
  .ite (.handOver (.setQueue (.endWrWait (.set (.ite (.add (.putQueue h)) (.putQueue h)))))) (.endWrWait (.set (.ite (.add (.putQueue h)) (.putQueue h))))

theorem appendRing {q : Nat} {w : QWord} (h : SameLines s t) : SameLines s (t.appendRing q w) := .set (.ite (.add (.putQueue h)) (.putQueue h))

theorem resyncWord {q : Nat} {w : QWord} (h : SameLines s t) : SameLines s (t.resyncWord q w) :=
  .ite (.set (.set (.add (.add (.addSat h))))) (.addSat h)

theorem dropDescriptor {q : Nat} (h : SameLines s t) : SameLines s (t.dropDescriptor q) := .raise (.set (.set (.set h)))

theorem offerWord {q : Nat} {w : QWord} (h : SameLines s t) : SameLines s (t.offerWord q w).2 := by
  unfold State.offerWord
  split
  · exact .resyncWord h
  split
  · exact h
  split
  · exact .ite (.appendRing h) (.dropDescriptor h)
  split
  · exact .set h
  split
  · split
    · exact .appendWord (.takeSlabs h)
    · exact .set h
  · exact .appendWord h

theorem drainList {q : Nat} {ws : List QWord} (h : SameLines s t) : SameLines s (t.drainList q ws) := by
  induction ws generalizing t with
  | nil => exact .setQueue h
  | cons w ws ih =>
    have hoffer : SameLines s (t.offerWord q w).2 := .offerWord h
    rw [State.drainList]
    generalize t.offerWord q w = r at hoffer
    obtain ⟨taken, u⟩ := r
    cases taken with
    | true => exact ih hoffer
    | false => exact .setQueue hoffer

theorem presentItem {q : Nat} {ds : List Nat} (h : SameLines s t) : SameLines s (t.presentItem q ds) := .drainList h

theorem writeDescriptor {n : Nat} {ws : List Nat} (h : SameLines s t) : SameLines s (t.writeDescriptor n ws).2 := by
  unfold State.writeDescriptor
  split
  · exact .raise (.set (.set (.set h)))
  · exact .presentItem h

/-! ### Heads -/

theorem sendDue {l : Nat} {now : Int} (h : SameLines s t) : SameLines s (t.sendDue l now) :=
  .each (fun _ _ _ hu => .emit (.setLane hu)) (.setLane h)

theorem sendTiming {p kind n : Nat} {inst now : Int} (h : SameLines s t) : SameLines s (t.sendTiming p kind n inst now) :=
  .each (fun _ _ _ hu => .sendDue (.setLane hu)) h

theorem handOn {p f : Nat} (h : SameLines s t) : SameLines s (t.handOn p f) := by
  induction f generalizing t with
  | zero => exact h
  | succ f ih =>
    rw [State.handOn]
    dsimp only
    split
    · exact h
    · exact ih (.presentItem (.setHead h))

theorem lineReady {p n : Nat} {filled skipped : Bool} {ys : List Nat} (h : SameLines s t) : SameLines s (t.lineReady p n filled skipped ys) :=
  .ite (.handOn (.setHead (.ite h (.setHead h)))) (.setHead (.ite h (.setHead h)))

theorem fillLine {p n : Nat} (h : SameLines s t) : SameLines s (t.fillLine p n true) := .lineReady h

theorem noteTrigger {n l : Nat} {i : Int} (h : SameLines s t) : SameLines s (t.noteTrigger n l i) := by
  unfold State.noteTrigger
  dsimp only
  split
  · exact .ite h (.setSeal h)
  · exact .setSeal h

theorem lst (h : SameLines s t) (n : Nat) : t.lst n = s.lst n := by
  rw [State.lst, State.lst, h.ltu]

end SameLines

/-! ### A commit -/

theorem skip_key {n : Nat} (hn : n < 8) : 0x209000 * 32 ≤ R.LTU_ST_SKIP_COUNT.key n 0 ∧ R.LTU_ST_SKIP_COUNT.key n 0 < 0xC00000 * 32 := by
  simp only [Fld.key, R.LTU_ST_SKIP_COUNT]
  omega

/-- A skipped line is counted and not committed. -/
theorem State.skipLine_counts (s : State) {n : Nat} (hn : n < 8) (l : Nat) (t : Int) :
    (s.skipLine n l t).lst n = s.lst n ∧
      (s.skipLine n l t).get R.LTU_ST_SKIP_COUNT n = (s.get R.LTU_ST_SKIP_COUNT n + 1) % 2 ^ 32 := by
  have h : SameLines (s.add R.LTU_ST_SKIP_COUNT 1 n) (s.skipLine n l t) :=
    .noteTrigger (.each (fun _ _ _ hu => .fillLine hu) (.raise (.refl _)))
  obtain ⟨hlo, hhi⟩ := skip_key hn
  refine ⟨h.lst n, (h.get _ n hlo hhi).trans ?_⟩
  exact State.get_set_self ..

/-- A committed line joins the list. -/
theorem State.fixLine_joins (s : State) {n : Nat} (hn : n < 8) (c : CLine) :
    (s.fixLine n c).lst n = { s.lst n with committed := (s.lst n).committed ++ [c] } ∧
      (s.fixLine n c).get R.LTU_ST_SKIP_COUNT n = s.get R.LTU_ST_SKIP_COUNT n := by
  generalize hu : s.setLst n { s.lst n with committed := (s.lst n).committed ++ [c] } = u
  have hlst : u.lst n = { s.lst n with committed := (s.lst n).committed ++ [c] } := by rw [← hu, State.setLst_lst]
  have hget : u.get R.LTU_ST_SKIP_COUNT n = s.get R.LTU_ST_SKIP_COUNT n := by rw [← hu]; rfl
  have hapart : R.LTU_ST_SKIP_COUNT.key n 0 ≠ R.LTU_ST_CLIP_COUNT.key n 0 := by
    simp only [Fld.key, R.LTU_ST_SKIP_COUNT, R.LTU_ST_CLIP_COUNT]
    omega
  obtain ⟨hlo, hhi⟩ := skip_key hn
  have hsend (v : State) : SameLines v (v.each (v.station n).heads fun s p =>
      ((s.sendTiming p 1 c.n c.ss c.at_).sendTiming p 2 c.n c.ee c.at_).sendTiming p 0 c.n c.qq c.at_) :=
    .each (fun _ _ _ hw => .sendTiming (.sendTiming (.sendTiming hw))) (.refl v)
  simp only [State.fixLine, hu]
  split
  · refine ⟨((hsend _).lst n).trans hlst, ((hsend _).get _ n hlo hhi).trans ((State.get_set_ne _ _ _ _ _ _ _ _ hapart).trans hget)⟩
  · exact ⟨((hsend _).lst n).trans hlst, ((hsend _).get _ n hlo hhi).trans hget⟩

/-- A line keeps its number and instant, and its gate opens no earlier than it would have. -/
theorem clipLine_keeps {v : List Nat} {keep : Bool} {r : Option CLine} {l c : CLine} (h : clipLine v keep r l = some c) :
    c.n = l.n ∧ c.t = l.t ∧ l.ss ≤ c.ss := by
  unfold clipLine at h
  cases r with
  | none =>
    obtain rfl := Option.some.inj h
    exact ⟨rfl, rfl, Int.le_refl _⟩
  | some p =>
    dsimp only at h
    split at h
    · obtain rfl := Option.some.inj h
      exact ⟨rfl, rfl, Int.le_refl _⟩
    next hlate =>
      have hlate := Int.le_of_lt (Int.not_le.1 hlate)
      split at h
      · obtain rfl := Option.some.inj h
        exact ⟨rfl, rfl, hlate⟩
      split at h
      · obtain rfl := Option.some.inj h
        exact ⟨rfl, rfl, hlate⟩
      · cases h

/-- The lines of a station are as they were: the next one, the committed ones and the skipped ones. -/
structure LinesKept (n : Nat) (s t : State) : Prop where
  next : (t.lst n).next = (s.lst n).next
  committed : (t.lst n).committed = (s.lst n).committed
  skipped : t.get R.LTU_ST_SKIP_COUNT n = s.get R.LTU_ST_SKIP_COUNT n

namespace LinesKept

variable {n : Nat} {s t : State}

theorem refl (n : Nat) (s : State) : LinesKept n s s := ⟨rfl, rfl, rfl⟩

/-- The field has the stride of a station and is not the count of skipped lines. -/
def otherField (f : Fld) : Bool := decide (f.s1 = 0x80) && decide (f.base * 32 + f.lo ≠ R.LTU_ST_SKIP_COUNT.base * 32)

theorem set {f : Fld} {v : Nat} (h : LinesKept n s t) (hf : otherField f = true := by rfl) : LinesKept n s (t.set f v n) := by
  refine ⟨h.next, h.committed, (State.get_set_ne _ _ _ _ _ _ _ _ ?_).trans h.skipped⟩
  simp only [otherField, Bool.and_eq_true, decide_eq_true_eq, R.LTU_ST_SKIP_COUNT] at hf
  obtain ⟨hs1, hne⟩ := hf
  have hne := of_decide_eq_true hne
  simp only [Fld.key, R.LTU_ST_SKIP_COUNT, hs1]
  omega

theorem sub {f : Fld} {v : Nat} (h : LinesKept n s t) (hf : otherField f = true := by rfl) : LinesKept n s (t.sub f v n) := h.set hf

theorem setLst {x : LSt} (h : LinesKept n s t) (hnext : x.next = (t.lst n).next) (hcommitted : x.committed = (t.lst n).committed) :
    LinesKept n s (t.setLst n x) :=
  ⟨by rw [State.setLst_lst, hnext, h.next], by rw [State.setLst_lst, hcommitted, h.committed], h.skipped⟩

theorem setStation {x : Station} (h : LinesKept n s t) : LinesKept n s (t.setStation n x) := ⟨h.next, h.committed, h.skipped⟩

theorem raise {e : Nat} (hn : n < 8) (h : LinesKept n s t) : LinesKept n s (t.raise e) := by
  have hlst : (t.raise e).lst n = t.lst n := by rw [State.lst, State.lst, State.raise_ltu]
  refine ⟨hlst ▸ h.next, hlst ▸ h.committed, (State.raise_get_below _ _ ?_).trans h.skipped⟩
  simp only [Fld.key, R.LTU_ST_SKIP_COUNT]
  omega

theorem placeFirst {i now : Int} (h : LinesKept n s t) : LinesKept n s (t.placeFirst n i now) := by
  have hfirst : LinesKept n s (if (t.lst n).everCommitted then t else t.setLst n { t.lst n with tStart := i, everCommitted := true }) := by
    split
    · exact h
    · exact h.setLst rfl rfl
  unfold State.placeFirst
  dsimp only
  generalize (if (t.lst n).everCommitted then t else t.setLst n { t.lst n with tStart := i, everCommitted := true }) = u at hfirst
  split
  · exact LinesKept.setLst (.set (.set hfirst)) rfl rfl
  · exact hfirst

theorem setLtuVals {v : List Nat} (h : LinesKept n s t) : LinesKept n s (t.setLtuVals n v) :=
  .set (.set (.set (.set (.set (.set (.set h))))))

theorem clearStaged (h : LinesKept n s t) : LinesKept n s (t.set R.SMC_ST_STATE_STAGED 0 n) := by
  refine ⟨h.next, h.committed, (State.get_set_ne _ _ _ _ _ _ _ _ ?_).trans h.skipped⟩
  simp only [Fld.key, R.LTU_ST_SKIP_COUNT, R.SMC_ST_STATE_STAGED]
  omega

theorem applyStaged {l : Nat} (h : LinesKept n s t) : LinesKept n s (t.applyStaged n l) := by
  unfold State.applyStaged
  dsimp only
  split
  next g _ =>
    split
    · have hset : LinesKept n s ((t.setLtuVals n (g.apply (t.ltuVals n))).set R.SMC_ST_STATE_STAGED 0 n) := .clearStaged (.setLtuVals h)
      generalize (t.setLtuVals n (g.apply (t.ltuVals n))).set R.SMC_ST_STATE_STAGED 0 n = u at hset
      exact .setStation (hset.setLst rfl rfl)
    · exact h
  · exact h

theorem checkVelocity {isMatch : Bool} {now : Int} (hn : n < 8) (h : LinesKept n s t) : LinesKept n s (t.checkVelocity n isMatch now) := by
  unfold State.checkVelocity
  dsimp only
  split
  · exact .raise hn (.set (h.setLst rfl rfl))
  · exact h.setLst rfl rfl

theorem useMatch (h : LinesKept n s t) : LinesKept n s (t.useMatch n) := .set (h.setLst rfl rfl)

end LinesKept

/-- The state in which line `l` has taken its place and its instant. -/
def State.placed (s3 : State) (n l : Nat) (t : Int) : State :=
  let s4 := s3.setLst n { s3.lst n with next := l + 1, tPrev := some t }
  if s4.get R.LTU_ST_CTRL_SRC n = 2 then s4.sub R.LTU_ST_HOSTTRIG_PENDING 1 n else s4

theorem LinesKept.placed {n l : Nat} {s s3 : State} {t : Int} (h : LinesKept n s s3) (hl : l = (s.lst n).next) :
    ((s3.placed n l t).lst n).next = (s.lst n).next + 1 ∧ ((s3.placed n l t).lst n).committed = (s.lst n).committed ∧
      (s3.placed n l t).get R.LTU_ST_SKIP_COUNT n = s.get R.LTU_ST_SKIP_COUNT n := by
  generalize hu : s3.setLst n { s3.lst n with next := l + 1, tPrev := some t } = u
  have hnext : (u.lst n).next = (s.lst n).next + 1 := by rw [← hu, State.setLst_lst, hl]
  have hcommitted : (u.lst n).committed = (s.lst n).committed := by rw [← hu, State.setLst_lst, h.committed]
  have hskip : u.get R.LTU_ST_SKIP_COUNT n = s.get R.LTU_ST_SKIP_COUNT n := by rw [← hu]; exact h.skipped
  have hkept : LinesKept n u (u.sub R.LTU_ST_HOSTTRIG_PENDING 1 n) := .sub (.refl n u)
  rw [State.placed]
  simp only [hu]
  split
  · exact ⟨hkept.next.trans hnext, hkept.committed.trans hcommitted, hkept.skipped.trans hskip⟩
  · exact ⟨hnext, hcommitted, hskip⟩

/-- Line `l` with its values `v` is placed by instant `t`: skipped, or committed no earlier than `t`. -/
def State.commitPlaced (s3 : State) (n l : Nat) (t now : Int) (v : List Nat) (isMatch : Bool) : Bool × State :=
  let x := s3.lst n
  let ss : Int := t + tick * v.getD 0 0
  let ee : Int := ss + tick * v.getD 1 0
  let raw : CLine := { n := l, t := t, ss := ss, ee := ee, qq := ee + tick * v.getD 4 0, at_ := now, isMatch := isMatch }
  let close : Bool := match x.ref with
    | some r => !isMatch && s3.belowPmin n (v.getD 6 0) (5 * (t - r.t))
    | none => false
  let fit := if close then none else clipLine v (isMatch || decide (v.getD 5 0 = 0)) x.ref raw
  let s5 := s3.placed n l t
  match fit with
  | none => (s5.skipLine n l t).writeDescriptor n (s5.descriptor n l t true false false x.velRun 0)
  | some c => (s5.fixLine n c).writeDescriptor n (s5.descriptor n l t false c.clipped isMatch x.velRun ((c.ee - c.ss) / tick).toNat)

theorem State.commitLine_eq (s : State) (n : Nat) (t now : Int) :
    s.commitLine n t now =
      let s1 := s.placeFirst n t now
      let l := (s1.lst n).next
      let s2 := s1.applyStaged n l
      let isMatch := s2.on R.LTU_ST_STATUS_MATCH_ARMED n
      ((s2.checkVelocity n isMatch now).useMatch n).commitPlaced n l t now (s2.valsFor n l) isMatch := by
  unfold State.commitLine
  dsimp only
  generalize s.placeFirst n t now = s1
  generalize (s1.lst n).next = l
  generalize s1.applyStaged n l = s2
  generalize s2.valsFor n l = v
  generalize s2.on R.LTU_ST_STATUS_MATCH_ARMED n = isMatch
  generalize (s2.checkVelocity n isMatch now).useMatch n = s3
  rfl

/-- The lines of a station after a commit: one more is taken, and it was skipped or joins the list. -/
structure LineTaken (n : Nat) (t : Int) (s u : State) : Prop where
  next : (u.lst n).next = (s.lst n).next + 1
  outcome : (u.lst n).committed = (s.lst n).committed ∧ u.get R.LTU_ST_SKIP_COUNT n = (s.get R.LTU_ST_SKIP_COUNT n + 1) % 2 ^ 32 ∨
    ∃ c : CLine, (u.lst n).committed = (s.lst n).committed ++ [c] ∧ c.n = (s.lst n).next ∧ c.t = t ∧ t ≤ c.ss ∧
      u.get R.LTU_ST_SKIP_COUNT n = s.get R.LTU_ST_SKIP_COUNT n

theorem LineTaken.of_sameLines {n : Nat} (hn : n < 8) {t : Int} {s u v : State} (h : LineTaken n t s u) (k : SameLines u v) :
    LineTaken n t s v := by
  obtain ⟨hlo, hhi⟩ := skip_key hn
  obtain ⟨hnext, houtcome⟩ := h
  refine ⟨(k.lst n).symm ▸ hnext, ?_⟩
  rw [k.lst n, k.get _ n hlo hhi]
  exact houtcome

theorem State.commitPlaced_takes {s s3 : State} {n : Nat} (hn : n < 8) (h : LinesKept n s s3) (t now : Int) (v : List Nat) (isMatch : Bool) :
    LineTaken n t s (s3.commitPlaced n (s.lst n).next t now v isMatch).2 := by
  obtain ⟨hnext, hcommitted, hskip⟩ := h.placed (t := t) rfl
  rw [State.commitPlaced]
  generalize s3.placed n (s.lst n).next t = s5 at hnext hcommitted hskip
  split
  · obtain ⟨hlst, hcount⟩ := s5.skipLine_counts hn (s.lst n).next t
    refine LineTaken.of_sameLines hn ⟨?_, .inl ⟨?_, ?_⟩⟩ (.writeDescriptor (.refl _))
    · rw [hlst, hnext]
    · rw [hlst, hcommitted]
    · rw [hcount, hskip]
  next c hfit =>
    obtain ⟨hlst, hcount⟩ := s5.fixLine_joins hn c
    have hclip : c.n = (s.lst n).next ∧ c.t = t ∧ t ≤ c.ss := by
      obtain ⟨hn, ht, hss⟩ := clipLine_keeps (Option.ite_none_left_eq_some.1 hfit).2
      have hdelay : (0 : Int) ≤ tick * v.getD 0 0 := Int.natCast_nonneg _
      exact ⟨hn, ht, Int.le_trans (Int.le_add_of_nonneg_right hdelay) hss⟩
    obtain ⟨hcn, hct, hss⟩ := hclip
    refine LineTaken.of_sameLines hn ⟨?_, .inr ⟨c, ?_, hcn, hct, hss, ?_⟩⟩ (.writeDescriptor (.refl _))
    · rw [hlst, ← hnext]
    · rw [hlst, ← hcommitted]
    · rw [hcount, hskip]

theorem State.commitLine_takes (s : State) {n : Nat} (hn : n < 8) (t now : Int) : LineTaken n t s (s.commitLine n t now).2 := by
  have hfirst : LinesKept n s (s.placeFirst n t now) := .placeFirst (.refl n s)
  rw [State.commitLine_eq]
  generalize s.placeFirst n t now = s1 at hfirst
  dsimp only
  rw [hfirst.next]
  exact State.commitPlaced_takes hn (.useMatch (.checkVelocity hn (.applyStaged hfirst))) ..

theorem lineCommit_due {n : Fin 8} {now t : Int} {s : State} (hst : s.stState n = St.scanning) (ht : s.nextInstant n now = some t)
    (hdue : t ≤ now + s.lead n) :
    exec (.lineCommit n now) s = .next (if (s.commitLine n (now + s.lead n) now).1 then (s.commitLine n (now + s.lead n) now).2.enterFault 1 n
      else (s.commitLine n (now + s.lead n) now).2.afterCommit n (s.lst n).next now) := by
  change execLineCommit n now s = _
  rw [execLineCommit]
  refine (if_neg (not_not_intro hst)).trans ?_
  rw [ht]
  refine (if_neg (Int.not_lt.2 hdue)).trans ?_
  rw [Int.max_eq_right hdue]

theorem lineCommit_early {n : Fin 8} {now t : Int} {s : State} (hst : s.stState n = St.scanning)
    (h : s.nextInstant n now = none ∨ (s.nextInstant n now = some t ∧ now + s.lead n < t)) : exec (.lineCommit n now) s = .next s := by
  change execLineCommit n now s = _
  rw [execLineCommit]
  refine (if_neg (not_not_intro hst)).trans ?_
  obtain h | ⟨h, hearly⟩ := h
  · rw [h]
  · rw [h]
    exact if_pos hearly

theorem lineCommits : LineCommit := by
  refine ⟨fun n now t s hst ht hdue => ?_, fun n now t s => lineCommit_early, fun n now t s => ?_⟩
  · intro r
    exact ⟨fun hok => (lineCommit_due hst ht hdue).trans (congrArg Host.Outcome.next (if_neg (by rw [hok]; decide))),
      fun hfull => (lineCommit_due hst ht hdue).trans (congrArg Host.Outcome.next (if_pos hfull))⟩
  · obtain ⟨hnext, houtcome⟩ := State.commitLine_takes s n.isLt t now
    exact ⟨hnext, houtcome⟩

/-! ### Triggers -/

theorem State.headLine_setHeadLine (s : State) (p n : Nat) (x : HeadLine) : (s.setHeadLine p n x).headLine p n = x := by
  simp only [State.setHeadLine, State.headLine, State.setHead_head]
  exact SMap.get_put_self ..

theorem State.openLine_head {s : State} {n w p : Nat} (q : Int) (h : (s.station n).heads = [p]) :
    (s.openLine n w q).headLine p w = if (s.headLine p w).closed then { closed := true, opens := some q } else {} := by
  rw [State.openLine, h]
  exact State.headLine_setHeadLine ..

theorem lineTriggers : LineTrigger := by
  refine ⟨fun n l rest s hnext => ?_, fun n w q p s hheads => ?_, fun n s hnone => ?_⟩
  · intro s1 s2
    change execLineTrigger n s = _
    rw [execLineTrigger]
    simp only [hnext]
    rfl
  · rw [State.openLine_head q hheads]
    exact ⟨fun h => if_neg (by rw [h]; decide), fun h => if_pos h⟩
  · change execLineTrigger n s = _
    simp only [execLineTrigger, hnone]

/-! ### Host lines and the match -/

theorem hostTriggerWrite_eq {w : World} {n : Fin 8} {v : BitVec 32} {s : State} (hr : Reaches s w .LTU_ST_HOSTTRIG n 0)
    (hc : R.LTU_ST_HOSTTRIG_COUNT.of v.toNat ≠ 0) {check : Option Status}
    (hcheck : pickStatus [refuseIf (decide (65535 < s.get R.LTU_ST_HOSTTRIG_PENDING n + R.LTU_ST_HOSTTRIG_COUNT.of v.toNat)) .length,
      refuseIf (decide (s.get R.LTU_ST_CTRL_SRC n ≠ 2) || decide (s.stState n ≠ St.scanning)) .state] = check) :
    exec (.hostTriggerWrite w n v) s = .next (match check with
      | none => s.set R.LTU_ST_HOSTTRIG_PENDING (s.get R.LTU_ST_HOSTTRIG_PENDING n + R.LTU_ST_HOSTTRIG_COUNT.of v.toNat) n
      | some c => (s.countRefused w c).set R.LTU_ST_STATUS_LAST_STATUS c.code n) := by
  change execHostTriggerWrite w n v s = _
  simp only [execHostTriggerWrite, if_neg hc, hcheck]
  cases check with
  | none => exact congrArg Host.Outcome.next (State.hostWrite_taken hr _)
  | some c => exact congrArg Host.Outcome.next (State.hostWrite_refused hr _ _)

theorem matchArm_eq {w : World} {n : Fin 8} {v : BitVec 32} {t : Int} {s : State} (hr : Reaches s w .LTU_ST_MATCH_CFG n 0)
    (harm : R.LTU_ST_MATCH_CFG_ARM.of v.toNat = 1) {check : Option Status}
    (hcheck : pickStatus [s.matchCheck n (s.get R.LTU_ST_MATCH_M n) t, refuseIf (decide (R.LTU_ST_MATCH_CFG_TOL.of v.toNat = 0)) .range] =
      check) :
    exec (.matchArm w n v t) s = .next (match check with
      | none => (wrote s w .LTU_ST_MATCH_CFG n 0 v.toNat).armMatch n (s.get R.LTU_ST_MATCH_M n)
      | some c => (s.countRefused w c).set R.LTU_ST_STATUS_LAST_STATUS c.code n) := by
  change execMatchArm w n v t s = _
  simp only [execMatchArm, harm, decide_true, if_true, hcheck]
  cases check with
  | none => exact congrArg Host.Outcome.next (State.rowWrite_taken hr _ _)
  | some c => exact congrArg Host.Outcome.next (State.rowWrite_refused hr _ _ _)

theorem State.matchCheck_eq {s : State} {n m : Nat} {t : Int} {a b c d : Bool} (ha : (!s.encSource n) = a)
    (hb : decide ((s.lst n).resume ≤ m) = b) (hc : decide (s.stState n ≠ St.rewinding) = c)
    (hd : decide (s.fwd n * (s.lineTarget n m - s.posOf n t) < (s.get R.LTU_ST_RATIO_D n : Int)) = d) :
    s.matchCheck n m t = pickStatus [refuseIf a .range, refuseIf b .range, refuseIf c .state, refuseIf d .state] := by
  rw [State.matchCheck, ha, hb, hc, hd]

/-- STATE comes before RANGE (R540). -/
theorem pickStatus_match_state (a b d e : Bool) : pickStatus [pickStatus [refuseIf a .range, refuseIf b .range, refuseIf true .state,
    refuseIf d .state], refuseIf e .range] = some .state := by
  revert a b d e
  decide

theorem pickStatus_match_range (b e : Bool) : pickStatus [pickStatus [refuseIf true .range, refuseIf b .range, refuseIf false .state,
    refuseIf false .state], refuseIf e .range] = some .range := by
  revert b e
  decide

theorem hostTriggerAndMatch : HostTriggerAndMatch := by
  refine ⟨fun w n v s hr => ?_, fun w n v t s hr => ?_⟩
  · intro c p hc
    refine ⟨fun hin hsrc hst => ?_, fun hover => ?_, fun hin hoff => ?_⟩
    · exact hostTriggerWrite_eq hr hc (check := none) (by simp [hsrc, hst, Nat.not_lt.2 hin, pickStatus, p, c])
    · refine hostTriggerWrite_eq hr hc (check := some .length) ?_
      rw [decide_eq_true hover, refuseIf_true]
      exact pickStatus_first (by decide)
    · have hstate : (decide (s.get R.LTU_ST_CTRL_SRC n ≠ 2) || decide (s.stState n ≠ St.scanning)) = true := by simpa using hoff
      refine hostTriggerWrite_eq hr hc (check := some .state) ?_
      rw [decide_eq_false (Nat.not_lt.2 hin), hstate]
      rfl
  · intro m harm
    refine ⟨fun htol henc hm hst hfar => ?_, fun hst => ?_, fun hst henc hfar => ?_⟩
    · refine matchArm_eq hr harm (check := none) ?_
      rw [State.matchCheck_eq (by rw [henc]) (decide_eq_false (Nat.not_le.2 hm)) (decide_eq_false (not_not_intro hst))
        (decide_eq_false (Int.not_lt.2 hfar)), decide_eq_false htol]
      rfl
    · refine matchArm_eq hr harm (check := some .state) ?_
      rw [State.matchCheck_eq rfl rfl (decide_eq_true hst) rfl]
      exact pickStatus_match_state ..
    · refine matchArm_eq hr harm (check := some .range) ?_
      rw [State.matchCheck_eq (by rw [henc]) rfl (decide_eq_false (not_not_intro hst)) (decide_eq_false (Int.not_lt.2 hfar))]
      exact pickStatus_match_range ..

/-- Settles O16: a commit by what its steps leave of the station's lines, a trigger by its steps, writes by their checks. -/
theorem lineTiming : Obligations.LineTiming := ⟨lineCommits, lineTriggers, hostTriggerAndMatch⟩

end Sys2Proof.Machine
end

section
/-! PROOFS. Lines conditioned, fades ended, captures (R132, R134, R142 to R155, R217). -/

open Sys2Proof Sys2Proof.Stated

namespace Sys2Proof.Machine

/-! ### Conditioning -/

theorem lineCondition_runs {p : Fin 96} {busy n : Nat} {s : State} (hst : s.stationOfHead p = some n) (hbusy : s.stBusy n = true)
    (hdev : s.dev ≠ Dev.thermalLatch) : exec (.lineCondition p busy) s = .next (s.conditionNext n p busy) := by
  change execLineCondition p busy s = _
  simp only [execLineCondition, hst]
  exact congrArg Host.Outcome.next (if_pos ⟨hbusy, hdev⟩)

/-- The next line of a head may be taken: every head of the station has met the line before it, and the store has taken what was formed. -/
theorem State.conditionNext_met {n p busy : Nat} {s s1 : State} (hs1 : s.formLines n = s1)
    (hmet : ∀ l, (s1.phead p).lines.head? = some l → ∃ w, (s1.pst n).placed = some w ∧ l.n ≤ w)
    (hpresent : (s1.queue (104 + n)).present = []) :
    ((s1.takeItem p).1 = none → s.conditionNext n p busy = (s1.takeItem p).2) ∧
    (∀ it, (s1.takeItem p).1 = some it →
      let s2 := (s1.takeItem p).2
      let r := s2.rawLine p it
      let s3 := ((s2.add R.SCU_PACE_HS (s2.accepted p it) 16).add R.SCU_PACE_BUSY busy 16).descFlags n r.1
      let lost := s3.1.any fun d => bit d 6
      let raw := if lost then s3.2.fillRaw p else r.2.2.2
      let s4 := s3.2.captureLine p r.1 (r.2.1 || lost || r.2.2.1) raw
      s.conditionNext n p busy =
        (((((s4.conditionHead p r.1 (r.2.1 || lost) r.2.2.1 raw).alignMeasure p r.1).formLines n).drainHead p).syncHeld n)) := by
  have hgo : ¬ ((match (s1.phead p).lines.head?, (s1.pst n).placed with
      | some l, some w => decide (w < l.n)
      | some _, none => true
      | none, _ => false) = true ∨ (s1.queue (104 + n)).present ≠ []) := by
    rintro (hahead | hfull)
    · cases hl : (s1.phead p).lines.head? with
      | none => rw [hl] at hahead; cases hahead
      | some l =>
        obtain ⟨w, hw, hle⟩ := hmet l hl
        rw [hl, hw] at hahead
        exact absurd (of_decide_eq_true hahead) (Nat.not_lt.2 hle)
    · exact hfull hpresent
  unfold State.conditionNext
  simp only [hs1]
  generalize s1.takeItem p = k
  obtain ⟨it, s2⟩ := k
  refine ⟨fun hnone => ?_, fun it hit => ?_⟩
  · obtain rfl : it = none := hnone
    exact if_neg hgo
  · obtain rfl : _ = some it := hit
    exact if_neg hgo

theorem State.keepLines_newest (s : State) (p : Nat) (l : PLine) (ls : List PLine) : (s.keepLines p (l :: ls)).head? = some l := rfl

/-- The samples of a line once conditioned. -/
def State.shadedLine (s : State) (p n : Nat) (raw : List Nat) : List Nat :=
  let d := s.driftFor n p
  let sel := pickShade n (s.phead p).fades (s.get R.PCP_SHD_HEAD_LEAF_ACTIVE p) d.1 d.2
  if ¬ s.on R.PCP_SHD_HEAD_CTRL_EN p ∨ sel.slot = noSlot then raw
  else replaceLine (s.defects sel.slot)
    (raw.mapIdx fun i v => s.shadeWith sel (i / max 1 (s.headCols p)) (i % max 1 (s.headCols p)) (s.get R.PCP_SHD_HEAD_CTRL_PED p) v)
    (s.headCols p) (s.get R.PCP_SHD_HEAD_CTRL_PED p) (((s.phead p).lines.filter fun q => q.n < n).head?.map (·.y))

/-- With no leaf pending the newest line of the head is the one conditioned. -/
theorem State.conditionHead_newest {s : State} {p n : Nat} (filled skipped : Bool) (raw : List Nat)
    (hpend : s.get R.PCP_SHD_HEAD_LEAF_PENDING p = noSlot) :
    ((s.conditionHead p n filled skipped raw).phead p).lines.head? =
      some { n := n, filled := filled, skipped := skipped, y := s.shadedLine p n raw } := by
  have hbegin : s.beginFade n p = s := if_pos (.inl hpend)
  rw [State.conditionHead, hbegin, State.setPhead_phead]
  rfl

theorem State.shadedLine_off {s : State} {p n : Nat} (raw : List Nat) (h : s.on R.PCP_SHD_HEAD_CTRL_EN p = false) :
    s.shadedLine p n raw = raw := if_pos (.inl (by simp [h]))

theorem State.shadedLine_noLeaf {s : State} {p n : Nat} (raw : List Nat) (hfades : (s.phead p).fades = [])
    (hleaf : s.get R.PCP_SHD_HEAD_LEAF_ACTIVE p = noSlot) : s.shadedLine p n raw = raw := by
  refine if_pos (.inr ?_)
  rw [hfades]
  exact hleaf

/-- A line that is shaded, by a leaf without defects. -/
theorem State.shadedLine_shades {s : State} {p n : Nat} (raw : List Nat) {sel : ShadeSel}
    (hsel : pickShade n (s.phead p).fades (s.get R.PCP_SHD_HEAD_LEAF_ACTIVE p) (s.driftFor n p).1 (s.driftFor n p).2 = sel)
    (hen : s.on R.PCP_SHD_HEAD_CTRL_EN p = true) (hslot : sel.slot ≠ noSlot) (hdefects : s.defects sel.slot = []) :
    s.shadedLine p n raw = raw.mapIdx fun i v =>
      s.shadeWith sel (i / max 1 (s.headCols p)) (i % max 1 (s.headCols p)) (s.get R.PCP_SHD_HEAD_CTRL_PED p) v := by
  unfold State.shadedLine
  simp only [hsel, hdefects]
  rw [if_neg (by simp [hen, hslot])]
  rfl

theorem State.shadedLine_leaf {s : State} {p n : Nat} (raw : List Nat) (hen : s.on R.PCP_SHD_HEAD_CTRL_EN p = true)
    (hfades : (s.phead p).fades = []) (hleaf : s.get R.PCP_SHD_HEAD_LEAF_ACTIVE p ≠ noSlot)
    (hdefects : s.defects (s.get R.PCP_SHD_HEAD_LEAF_ACTIVE p) = []) :
    s.shadedLine p n raw = raw.mapIdx fun i x => shadedBy s p (s.get R.PCP_SHD_HEAD_LEAF_ACTIVE p) (s.driftFor n p) i x :=
  State.shadedLine_shades raw (sel := .plain (s.get R.PCP_SHD_HEAD_LEAF_ACTIVE p) (s.driftFor n p).1 (s.driftFor n p).2) (by rw [hfades]; rfl) hen
    hleaf hdefects

theorem pickShade_mixes {n : Nat} {f : Fade} (slot : Nat) (d g : List Nat) (hslot : f.slot ≠ noSlot) (hlo : f.h ≤ n) (hhi : n < f.h + 2 ^ f.log) :
    pickShade n [f] slot d g = .mix f.slot f.delta f.gain slot d g (n - f.h + 1) (2 ^ f.log) := by
  have hin : f.slot ≠ noSlot ∧ n ≤ f.h + 2 ^ f.log - 1 := ⟨hslot, by omega⟩
  rw [pickShade]
  exact (if_neg (Nat.not_lt.2 hlo)).trans (if_pos hin)

theorem State.shadedLine_fade {s : State} {p n : Nat} (raw : List Nat) {f : Fade} (hen : s.on R.PCP_SHD_HEAD_CTRL_EN p = true)
    (hfades : (s.phead p).fades = [f]) (hleaf : s.get R.PCP_SHD_HEAD_LEAF_ACTIVE p ≠ noSlot) (hslot : f.slot ≠ noSlot)
    (hdefects : s.defects (s.get R.PCP_SHD_HEAD_LEAF_ACTIVE p) = []) (hlo : f.h ≤ n) (hhi : n < f.h + 2 ^ f.log) :
    s.shadedLine p n raw = raw.mapIdx fun i x => roundDiv (shadedBy s p f.slot (f.delta, f.gain) i x * (2 ^ f.log - (n - f.h + 1)) +
      shadedBy s p (s.get R.PCP_SHD_HEAD_LEAF_ACTIVE p) (s.driftFor n p) i x * (n - f.h + 1)) (2 ^ f.log) :=
  State.shadedLine_shades raw (sel := .mix f.slot f.delta f.gain (s.get R.PCP_SHD_HEAD_LEAF_ACTIVE p) (s.driftFor n p).1 (s.driftFor n p).2
    (n - f.h + 1) (2 ^ f.log)) (by rw [hfades, pickShade_mixes _ _ _ hslot hlo hhi]) hen hleaf hdefects

/-! ### Fades -/

theorem leafWord_apart (p l : Nat) (hl : l < 256) (hp : p < 96) {f : Fld} (hf : f = R.PCP_SHD_HEAD_LEAF_FADING ∨ f = R.PCP_SHD_HEAD_LEAF_FROM) :
    f.key p 0 < R.PCP_LEAF_STATUS_ACTIVE.key l 0 ∧ f.key p 0 < R.PCP_LEAF_STATUS_FADING.key l 0 ∧
      f.key p 0 < R.PCP_LEAF_STATUS_PENDING.key l 0 ∧ f.key p 0 < R.PCP_LEAF_STATUS_CAPTURING.key l 0 := by
  obtain rfl | rfl := hf <;>
  · simp only [Fld.key, R.PCP_SHD_HEAD_LEAF_FADING, R.PCP_SHD_HEAD_LEAF_FROM, R.PCP_LEAF_STATUS_ACTIVE, R.PCP_LEAF_STATUS_FADING,
      R.PCP_LEAF_STATUS_PENDING, R.PCP_LEAF_STATUS_CAPTURING]
    omega

/-- The status of the slots stands above the registers of the heads. -/
theorem State.syncSlots_get (s : State) (ls : List Nat) {p : Nat} (hp : p < 96) {f : Fld}
    (hf : f = R.PCP_SHD_HEAD_LEAF_FADING ∨ f = R.PCP_SHD_HEAD_LEAF_FROM) : (s.syncSlots ls).get f p = s.get f p := by
  refine State.each_get (fun t l hl => ?_) s
  obtain ⟨ha, hfa, hpe, hc⟩ := leafWord_apart p l (by simpa using (List.mem_filter.1 hl).2) hp hf
  rw [State.syncSlot, State.get_set_ne _ _ _ _ _ _ _ _ (Nat.ne_of_lt hc), State.get_set_ne _ _ _ _ _ _ _ _ (Nat.ne_of_lt hfa),
    State.get_set_ne _ _ _ _ _ _ _ _ (Nat.ne_of_lt hpe), State.get_set_ne _ _ _ _ _ _ _ _ (Nat.ne_of_lt ha)]

theorem State.syncSlots_phead (s : State) (ls : List Nat) (p : Nat) : (s.syncSlots ls).phead p = s.phead p :=
  State.each_part (p := fun t => t.phead p) (fun t l _ => by simp [State.syncSlot, State.phead]) s

theorem leafFading_from_apart (p : Nat) : R.PCP_SHD_HEAD_LEAF_FADING.key p 0 ≠ R.PCP_SHD_HEAD_LEAF_FROM.key p 0 := by
  simp only [Fld.key, R.PCP_SHD_HEAD_LEAF_FADING, R.PCP_SHD_HEAD_LEAF_FROM]
  omega

/-- The last fade of a station that rewinds nothing is released once its last line has been shaded. -/
theorem State.endFades_releases {s : State} {p n r : Nat} {f : Fade} (hp : p < 96) (hfades : (s.phead p).fades = [f])
    (hreached : (s.phead p).reached = some r) (hlast : f.last ≤ r) (hst : s.stationOfHead p = some n) (hweb : s.isSheet n = false) :
    ((s.endFades p).phead p).fades = [] ∧ (s.endFades p).get R.PCP_SHD_HEAD_LEAF_FADING p = 0 ∧
      (s.endFades p).get R.PCP_SHD_HEAD_LEAF_FROM p = noSlot := by
  have heq : s.endFades p = (((s.setPhead p { s.phead p with fades := [] }).set R.PCP_SHD_HEAD_LEAF_FADING 0 p).set R.PCP_SHD_HEAD_LEAF_FROM
      noSlot p).syncSlots [f.slot] := by
    simp [State.endFades, hfades, hreached, hlast, hst, hweb, b2n]
  rw [heq, State.syncSlots_phead, State.syncSlots_get _ _ hp (.inl rfl), State.syncSlots_get _ _ hp (.inr rfl),
    State.get_set_ne _ _ _ _ _ _ _ _ (leafFading_from_apart p), State.get_set_self, State.get_set_self]
  exact ⟨by simp [State.phead, State.setPhead, SMap.get_put_self], rfl, rfl⟩

theorem linesAreConditioned : LinesAreConditioned := by
  refine ⟨fun p busy n s => lineCondition_runs, fun n p busy s => State.conditionNext_met rfl, fun p n filled skipped raw s hpend => ?_,
    fun p s => rfl, fun p n f r s => State.endFades_releases p.isLt⟩
  intro l d
  exact ⟨_, State.conditionHead_newest filled skipped raw hpend, State.shadedLine_off raw, State.shadedLine_noLeaf raw,
    State.shadedLine_leaf raw, fun f => State.shadedLine_fade raw⟩

/-! ### Captures -/

theorem captureStart_ok {w : World} {v : BitVec 32} {s : State} (hr : Reaches s w .PCP_CAP_CTRL 0 0) (hok : CaptureOk s v.toNat) :
    exec (.captureStart w v) s = .next (
      let t := wrote s w .PCP_CAP_CTRL 0 0 v.toNat
      let p := s.get R.PCP_CAP_TARGET_HEAD
      let l := s.get R.PCP_CAP_TARGET_LEAF
      let x := v.toNat
      let c : Capture :=
        { head := p, slot := l, startLine := t.nextHinge ((t.stationOfHead p).getD 0), white := decide (R.PCP_CAP_CTRL_KIND.of x = 1),
          nLog := R.PCP_CAP_CTRL_N.of x, rej := decide (R.PCP_CAP_CTRL_REJ.of x = 1),
          auto := decide (R.PCP_CAP_CTRL_AUTO_DEFECT.of x = 1),
          dark := (t.get R.PCP_SHD_TRK_DARK_FIRST p, t.get R.PCP_SHD_TRK_DARK_COUNT p),
          strip := (t.get R.PCP_SHD_TRK_WHITE_FIRST p, t.get R.PCP_SHD_TRK_WHITE_COUNT p) }
      (({ t with pcp := { t.pcp with cap := c } } : State).set R.PCP_CAP_STATUS_STATE 1).syncSlots [l]) := by
  obtain ⟨hlen, hl, hfit, hworld, hscan, hidle, hfree, hshape, hn, hrej⟩ := hok
  have hrejected : (decide (R.PCP_CAP_CTRL_REJ.of v.toNat = 1) && decide (R.PCP_CAP_CTRL_N.of v.toNat < 2)) = false := by
    by_cases h : R.PCP_CAP_CTRL_REJ.of v.toNat = 1
    · rw [decide_eq_false (Nat.not_lt.2 (hrej h)), Bool.and_false]
    · simp [h]
  change execCaptureStart w v s = _
  simp only [execCaptureStart, hfit, hworld, hscan, hidle, hfree, hshape, hrejected, Nat.not_lt.2 hlen, Nat.not_le.2 hl, Nat.not_lt.2 hn,
    decide_false, Bool.not_true, Bool.and_false, Bool.or_false, refuseIf_false]
  exact congrArg Host.Outcome.next (State.rowWrite_taken hr _ _)

theorem pickStatus_capture (b c : Bool) : pickStatus [refuseIf false .length, refuseIf false .world, refuseIf true .state, refuseIf b .busy,
    refuseIf c .range] = some .state := by
  revert b c
  decide

theorem captureStart_notScanning {w : World} {v : BitVec 32} {s : State} (hr : Reaches s w .PCP_CAP_CTRL 0 0)
    (hscan : s.headScans (s.get R.PCP_CAP_TARGET_HEAD) = false)
    (hlen : s.leafBytes (s.get R.PCP_CAP_TARGET_LEAF) ≤ 4096 * s.leafPages (s.get R.PCP_CAP_TARGET_LEAF))
    (hworld : s.pagesIn (s.get R.PCP_CAP_TARGET_LEAF) (s.portWorld (s.get R.PCP_CAP_TARGET_HEAD)) = true) :
    exec (.captureStart w v) s = .next ((s.countRefused w .state).set R.PCP_CAP_STATUS_LAST_STATUS 1) := by
  change execCaptureStart w v s = _
  simp only [execCaptureStart, hscan, hworld, decide_eq_false (Nat.not_lt.2 hlen), Bool.not_true, Bool.and_false, Bool.not_false,
    pickStatus_capture]
  exact congrArg Host.Outcome.next (State.rowWrite_refused hr _ _ _)

theorem captures : Captures := by
  refine ⟨fun w v s => captureStart_ok, fun s hruns hcounted => ?_, fun w v s hr => ?_⟩
  · change execCaptureDone s = _
    rw [execCaptureDone]
    exact congrArg Host.Outcome.next (if_pos ⟨hruns, hcounted⟩)
  · intro l hscan hlen hworld
    exact captureStart_notScanning hr hscan hlen hworld

/-- Settles O18: a line by the leaf and fade that shade it, a capture by its checks. -/
theorem linePipeline : Obligations.LinePipeline := ⟨linesAreConditioned, captures⟩

end Sys2Proof.Machine
end

section
/-! PROOFS. Leaf slots, swaps, tracking, alignment and dovetail measurements, products (R140, R151 to R154, R167 to R182). -/

open Sys2Proof Sys2Proof.Stated

namespace Sys2Proof.Machine

/-! ### Swaps and slots -/

theorem State.rowWrite_passes {s : State} {w : World} {id : RegId} {i j v : Nat} {check : Option Status} {last : Option Fld} {li : Nat}
    (hr : Reaches s w id i j) (hcheck : check = none) (g : State → State) : s.rowWrite w id i j v check last li g = g (wrote s w id i j v) := by
  rw [hcheck, State.rowWrite_taken hr]

theorem shadingSwapRequest_ok {w : World} {p : Fin 96} {v : BitVec 32} {s : State} (hr : Reaches s w .PCP_SHD_SWAP p 0)
    (hok : SwapOk s p v.toNat) :
    exec (.shadingSwapRequest w p v) s = .next (
      let t := wrote s w .PCP_SHD_SWAP p 0 v.toNat
      let l := R.PCP_SHD_SWAP_LEAF.of v.toNat
      let old := t.get R.PCP_SHD_HEAD_LEAF_PENDING p
      let u := if old = noSlot then t else (t.add R.PCP_SHD_REPLACED_COUNT 1).set R.PCP_SHD_HEAD_LEAF_REPLACED 1 p
      ((u.setPhead p { u.phead p with pendH := u.swapHinge ((s.stationOfHead p).getD 8) p, pendLog := R.PCP_SHD_SWAP_FADE.of v.toNat }).set
        R.PCP_SHD_HEAD_LEAF_PENDING l p).syncSlots [old, l]) := by
  obtain ⟨hlen, hl, hfit, hworld, hfree, hapart, hshape, hdefects, hfade, hhinge⟩ := hok
  have hstart : (decide (s.get R.PCP_SHD_SWAP_H p ≠ 0) && (!isBandStart (s.get R.PCP_SHD_SWAP_H p) (s.bandExp ((s.stationOfHead p).getD 8)) ||
      (match (s.phead p).reached with
      | some r => s.stBusy ((s.stationOfHead p).getD 8) && decide (s.get R.PCP_SHD_SWAP_H p ≤ r)
      | none => false))) = false := by
    obtain h0 | ⟨hband, hcome⟩ := hhinge
    · simp [h0]
    · rw [hband]
      cases hreached : (s.phead p).reached with
      | none => simp
      | some r =>
        cases hbusy : s.stBusy ((s.stationOfHead p).getD 8) with
        | false => simp
        | true => simp [hcome r hreached hbusy]
  change execShadingSwapRequest w p v s = _
  simp only [execShadingSwapRequest, hfit, hworld, hfree, hapart, hshape, hdefects, Nat.not_lt.2 hlen, Nat.not_le.2 hl, Nat.not_lt.2 hfade,
    decide_false, Bool.not_true, Bool.and_false, Bool.or_false, Bool.false_or, refuseIf_false]
  exact congrArg Host.Outcome.next (State.rowWrite_passes hr (congrArg (fun b => pickStatus [none, none, none, refuseIf b .range]) hstart) _)

theorem leafSlotWrite_eq {w : World} {l : Fin 256} {k : Fin 3} {v : BitVec 32} {s : State} (hr : ReachesAt s w ((leafReg k).addr l)) :
    exec (.leafSlotWrite w l k v) s = .next (if s.slotInUse l then s.leafRefused w else wrote s w (leafReg k) l 0 v.toNat) := by
  change execLeafSlotWrite w l k v s = _
  obtain ⟨r, hdesc⟩ : ∃ r, (leafReg k).desc? = some r := by
    unfold leafReg
    split
    · exact ⟨_, rfl⟩
    · split <;> exact ⟨_, rfl⟩
  have haddr : (leafReg k).addr l = r.addr l 0 := by rw [RegId.addr, hdesc]
  rw [haddr] at hr
  have hid : (if k = 0 then RegId.PCP_LEAF_BASE else if k = 1 then .PCP_LEAF_GEOM else .PCP_LEAF_DEFECTS) = leafReg k := rfl
  simp only [execLeafSlotWrite, hid, hdesc, wrote]
  rw [State.windowWrite_of_reaches hr]
  cases s.slotInUse l <;> rfl

theorem shdTrkCtrlWrite_taken {w : World} {p : Fin 96} {v : BitVec 32} {s : State} (hr : Reaches s w .PCP_SHD_TRK_CTRL p 0)
    (ha : R.PCP_SHD_TRK_CTRL_A.of v.toNat ≤ 12) (hlim : R.PCP_SHD_TRK_CTRL_LIM.of v.toNat ≠ 0)
    (hsrc : R.PCP_SHD_TRK_CTRL_EN.of v.toNat = 0 ∨ R.PCP_SHD_TRK_CTRL_SRC.of v.toNat = p) :
    exec (.shdTrkCtrlWrite w p v) s = .next (if R.PCP_SHD_TRK_CTRL_EN.of v.toNat = 0 then
      (wrote s w .PCP_SHD_TRK_CTRL p 0 v.toNat).each (List.range 8) fun s j =>
        (s.set R.PCP_SHD_DRIFT_DELTA 0 p j).set R.PCP_SHD_DRIFT_GAIN 0x4000 p j
    else wrote s w .PCP_SHD_TRK_CTRL p 0 v.toNat) := by
  have hsuits : (decide (R.PCP_SHD_TRK_CTRL_EN.of v.toNat = 1) && decide (R.PCP_SHD_TRK_CTRL_SRC.of v.toNat ≠ p)) = false := by
    obtain h | h := hsrc <;> simp [h]
  change execShdTrkCtrlWrite w p v s = _
  simp only [execShdTrkCtrlWrite, hsuits, Nat.not_lt.2 ha, hlim, decide_false, Bool.false_and, Bool.or_false, refuseIf_false]
  exact congrArg Host.Outcome.next (State.rowWrite_taken hr _ _)

theorem decSwapRequest_ok {w : World} {q : Fin 32} {v : BitVec 32} {s : State} (hr : Reaches s w .PCP_DEC_SWAP q 0) {h : Nat}
    (hh : h = if s.get R.PCP_DEC_SWAP_H q = 0 then s.nextHinge (s.get R.PCP_DEC_CTRL_STATION q) else s.get R.PCP_DEC_SWAP_H q)
    (hen : s.on R.PCP_DEC_CTRL_EN q = true) (hbusy : s.stBusy (s.get R.PCP_DEC_CTRL_STATION q) = true)
    (hband : isBandStart h (s.bandExp (s.get R.PCP_DEC_CTRL_STATION q)) = true)
    (hcome : s.lineDecimated (s.get R.PCP_DEC_CTRL_STATION q) q h = false) (hx : s.firOk (R.PCP_DEC_SWAP_LEAF_X.of v.toNat) = true)
    (hy : s.firOk (R.PCP_DEC_SWAP_LEAF_Y.of v.toNat) = true) :
    exec (.decSwapRequest w q v) s = .next (
      let t := wrote s w .PCP_DEC_SWAP q 0 v.toNat
      let u := if t.on R.PCP_DEC_SWAP_PENDING q then t.add R.PCP_DEC_REPLACED_COUNT 1 else t
      (u.setProd q { u.prod q with pendX := R.PCP_DEC_SWAP_LEAF_X.of v.toNat, pendY := R.PCP_DEC_SWAP_LEAF_Y.of v.toNat, pendH := h }).set
        R.PCP_DEC_SWAP_PENDING 1 q) := by
  change execDecSwapRequest w q v s = _
  simp only [execDecSwapRequest, ← hh, hen, hbusy, hband, hcome, hx, hy, Bool.not_true, Bool.or_self, refuseIf_false]
  exact congrArg Host.Outcome.next (State.rowWrite_taken hr _ _)

theorem leafRegisters : LeafRegisters := by
  refine ⟨fun w p v s => shadingSwapRequest_ok, fun w l k v s => ?_, fun w p v s hr ha hlim => ⟨fun hoff => ?_, fun hen hsrc => ?_⟩,
    fun w q v s hr => ?_⟩
  · intro id hr
    refine ⟨fun hfree => ?_, fun huse => ?_⟩
    · rw [leafSlotWrite_eq hr, if_neg (by simp [hfree])]
    · rw [leafSlotWrite_eq hr, if_pos huse]
      rfl
  · rw [shdTrkCtrlWrite_taken hr ha hlim (.inl hoff), if_pos hoff]
  · rw [shdTrkCtrlWrite_taken hr ha hlim (.inr hsrc), if_neg (by rw [hen]; decide)]
  · intro n h lx ly hen hbusy hband hcome hx hy
    exact decSwapRequest_ok hr rfl hen hbusy hband hcome hx hy

/-! ### Measurements -/

theorem alnMeasStart_ok {w : World} {v : BitVec 32} {s : State} (hr : Reaches s w .PCP_ALN_MEAS_CTRL 0 0)
    (hscan : s.headScans (R.PCP_ALN_MEAS_CTRL_HEAD.of v.toNat) = true) (hidle : s.on R.PCP_ALN_MEAS_CTRL_BUSY = false)
    (hcount : s.get R.PCP_ALN_MEAS_WIN_COUNT ≠ 0)
    (hfit : s.get R.PCP_ALN_MEAS_WIN_FIRST + s.get R.PCP_ALN_MEAS_WIN_COUNT ≤ s.headCols (R.PCP_ALN_MEAS_CTRL_HEAD.of v.toNat))
    (hn : R.PCP_ALN_MEAS_CTRL_N.of v.toNat ≤ 12) :
    exec (.alnMeasStart w v) s = .next (
      let t := wrote s w .PCP_ALN_MEAS_CTRL 0 0 v.toNat
      let p := R.PCP_ALN_MEAS_CTRL_HEAD.of v.toNat
      (({ t with pcp := { t.pcp with
          aln := { head := p, startLine := t.nextHinge ((t.stationOfHead p).getD 0), nLog := R.PCP_ALN_MEAS_CTRL_N.of v.toNat,
                   falling := decide (R.PCP_ALN_MEAS_CTRL_POL.of v.toNat = 1), level := R.PCP_ALN_MEAS_CTRL_T.of v.toNat,
                   first := s.get R.PCP_ALN_MEAS_WIN_FIRST, count := s.get R.PCP_ALN_MEAS_WIN_COUNT } } } : State).set
        R.PCP_ALN_MEAS_CTRL_BUSY 1).each (List.range 8) fun s i => s.set R.PCP_ALN_MEAS_RES_FOUND 0 i) := by
  have hfirst : (wrote s w .PCP_ALN_MEAS_CTRL 0 0 v.toNat).get R.PCP_ALN_MEAS_WIN_FIRST = s.get R.PCP_ALN_MEAS_WIN_FIRST :=
    State.get_wrote_ne _ _ _ _ _ _ _ _ _ (by decide +kernel)
  rw [← hfirst]
  change execAlnMeasStart w v s = _
  simp only [execAlnMeasStart, hscan, hidle, hcount, Nat.not_lt.2 hfit, Nat.not_lt.2 hn, decide_false, Bool.not_true, Bool.or_self,
    refuseIf_false]
  exact congrArg Host.Outcome.next (State.rowWrite_taken hr _ _)

theorem dvtMeasStart_ok {w : World} {v : BitVec 32} {s : State} (hr : Reaches s w .PCP_DVT_MEAS_CTRL 0 0)
    (hscan : s.stState (R.PCP_DVT_MEAS_CTRL_STATION.of v.toNat) = St.scanning) (hidle : s.on R.PCP_DVT_MEAS_CTRL_BUSY = false)
    (hcols : s.dvtV (R.PCP_DVT_MEAS_CTRL_STATION.of v.toNat) ≠ 0)
    (hpos : R.PCP_DVT_MEAS_CTRL_POS.of v.toNat + 1 < (s.station (R.PCP_DVT_MEAS_CTRL_STATION.of v.toNat)).heads.length)
    (hn : R.PCP_DVT_MEAS_CTRL_N.of v.toNat ≤ 12) :
    exec (.dvtMeasStart w v) s = .next (
      let t := wrote s w .PCP_DVT_MEAS_CTRL 0 0 v.toNat
      ({ t with pcp := { t.pcp with
          dvt := { station := R.PCP_DVT_MEAS_CTRL_STATION.of v.toNat, pos := R.PCP_DVT_MEAS_CTRL_POS.of v.toNat,
                   nLog := R.PCP_DVT_MEAS_CTRL_N.of v.toNat, startLine := t.nextHinge (R.PCP_DVT_MEAS_CTRL_STATION.of v.toNat) } } } : State).set
        R.PCP_DVT_MEAS_CTRL_BUSY 1) := by
  change execDvtMeasStart w v s = _
  simp only [execDvtMeasStart, hscan, ne_eq, not_true, hidle, hcols, Nat.not_le.2 hpos, Nat.not_lt.2 hn, decide_false, Bool.or_self,
    refuseIf_false]
  exact congrArg Host.Outcome.next (State.rowWrite_taken hr _ _)

/-- The least of a list whose first place is `k`: where it stands, and that it stands there first. -/
theorem leastAt_spec (a : Nat) (l : List Nat) (k : Nat) :
    ∃ j, (leastAt (a :: l) k).1 = k + j ∧ (a :: l).getD j 0 = (leastAt (a :: l) k).2 ∧
      ∀ i, i < (a :: l).length → (leastAt (a :: l) k).2 ≤ (a :: l).getD i 0 ∧ (i < j → (leastAt (a :: l) k).2 < (a :: l).getD i 0) := by
  induction l generalizing a k with
  | nil =>
    refine ⟨0, rfl, rfl, fun i hi => ⟨?_, fun h => absurd h (Nat.not_lt_zero i)⟩⟩
    obtain rfl : i = 0 := by simpa using hi
    exact Nat.le_refl _
  | cons b l ih =>
    obtain ⟨j, hplace, hvalue, hleast⟩ := ih b (k + 1)
    have heq : leastAt (a :: b :: l) k = if a ≤ (leastAt (b :: l) (k + 1)).2 then (k, a) else leastAt (b :: l) (k + 1) := rfl
    rw [heq]
    generalize leastAt (b :: l) (k + 1) = r at hplace hvalue hleast
    split
    next hle =>
      refine ⟨0, rfl, rfl, fun i hi => ⟨?_, fun h => absurd h (Nat.not_lt_zero i)⟩⟩
      cases i with
      | zero => exact Nat.le_refl _
      | succ i => exact Nat.le_trans hle (hleast i (Nat.lt_of_succ_lt_succ hi)).1
    next hgt =>
      refine ⟨j + 1, by omega, hvalue, fun i hi => ?_⟩
      cases i with
      | zero => exact ⟨Nat.le_of_lt (Nat.not_le.1 hgt), fun _ => Nat.not_le.1 hgt⟩
      | succ i =>
        obtain ⟨hle, hlt⟩ := hleast i (Nat.lt_of_succ_lt_succ hi)
        exact ⟨hle, fun h => hlt (Nat.lt_of_succ_lt_succ h)⟩

theorem leastAt_first {l : List Nat} {i : Nat} (hi : i < l.length) :
    (leastAt l 0).2 ≤ l.getD i 0 ∧ l.getD (leastAt l 0).1 0 = (leastAt l 0).2 ∧ (i < (leastAt l 0).1 → (leastAt l 0).2 < l.getD i 0) := by
  cases l with
  | nil => cases hi
  | cons a l =>
    obtain ⟨j, hplace, hvalue, hleast⟩ := leastAt_spec a l 0
    rw [Nat.zero_add] at hplace
    obtain ⟨hle, hlt⟩ := hleast i hi
    rw [hplace]
    exact ⟨hle, hvalue, hlt⟩

theorem measurements : Measurements := by
  refine ⟨fun w v s hr => ?_, fun s hbusy hdone => ?_, fun w v s hr => ?_, fun s hbusy hdone => ?_, fun l i => leastAt_first,
    fun n s o ho hlate => ?_, fun q e s hen hbusy hreads => ?_⟩
  · intro p cnt hscan hidle hcount hfit hn
    exact alnMeasStart_ok hr hscan hidle hcount hfit hn
  · change execAlnMeasDone s = _
    rw [execAlnMeasDone, if_pos ⟨hbusy, hdone⟩]
  · intro n hscan hidle hcols hpos hn
    exact dvtMeasStart_ok hr hscan hidle hcols hpos hn
  · intro r
    change execDvtMeasDone s = _
    rw [execDvtMeasDone]
    exact if_pos ⟨hbusy, hdone⟩
  · change execDvtTimeout n s = _
    simp only [execDvtTimeout, ho]
    exact if_pos hlate
  · change execProductLineRead q e s = _
    rw [execProductLineRead]
    exact if_pos ⟨hen, hbusy, hreads⟩

/-- Settles O19: each write by the checks it passes, the least sum by induction along the list. -/
theorem pipelineRegisters : Obligations.PipelineRegisters := ⟨leafRegisters, measurements⟩

end Sys2Proof.Machine
end

section
/-! PROOFS. Packets of the head links (R66 to R81): the lane buffer of the model keeps the instant a packet arrives. -/

open Sys2Proof Sys2Proof.Stated

namespace Sys2Proof.Machine

/-- A PIXEL packet without samples that arrives at instant 1. -/
def latePixel : Packet := ⟨0, 0, 2641158014, 0, [], 0, false, 1⟩

/-- After reset lane 0 carries traffic, of a head whose mode has no lane yet: nothing drains. -/
def laneOpen : State := State.reset.set R.HLF_LANE_STATUS_ACTIVE 1 0

theorem laneOpen_accepts : Accepts laneOpen 0 0 latePixel := by
  unfold Accepts
  decide +kernel

/-- The instants of the packets that lane 0 buffers after an outcome. -/
def bufferedAt : Out → List Int
  | .next t => (t.lane 0).buf.map (·.time)
  | _ => []

/-- Refutes O11: the first clause puts a PIXEL packet into the lane buffer with instant 0, where the model keeps the instant it arrives,
here 1, which the timeout of its line needs later. -/
theorem not_headPackets : ¬ Obligations.HeadPackets := by
  rintro ⟨h, -⟩
  obtain ⟨hpixel, -⟩ := h 0 latePixel laneOpen
  have hbuf := congrArg bufferedAt (hpixel laneOpen_accepts)
  exact absurd hbuf (by decide +kernel)

end Sys2Proof.Machine
end

section
/-! PROOFS. Bring-up of a head port (R90 to R98): a CAP that offers no common version also ends the renegotiation it was part of. -/

open Sys2Proof Sys2Proof.Stated

namespace Sys2Proof.Machine

/-- A whole CAP of a head that knows no version. -/
def versionlessCap : Packet := ⟨0, 4, 3464232841, 1, [0, 0, 0, 0], 4, false, 0⟩

/-- Port 0 in DISCOVER, in the course of a renegotiation. -/
def rediscovering : State :=
  (State.reset.set R.HLF_PORT_STATE_STATE Port.discover 0).setHead 0 { (State.reset.head 0) with renew := true }

/-- Whether a renegotiation of head 0 goes on after an outcome. -/
def renewing : Out → Bool
  | .next t => (t.head 0).renew
  | _ => false

/-- Refutes O12: the first clause keeps every field of the head but its CAP, where a head refused in the course of a renegotiation (R98)
is no longer renegotiated. -/
theorem not_headBringUp : ¬ Obligations.HeadBringUp := by
  rintro ⟨h, -⟩
  obtain ⟨hrefused, -⟩ := h 0 0 versionlessCap rediscovering rfl (by decide +kernel) (by decide +kernel) (by decide +kernel)
  have hrenew := congrArg renewing (hrefused (by decide +kernel))
  exact absurd hrenew (by decide +kernel)

end Sys2Proof.Machine
end

section
/-! PROOFS. Lanes of a head (R64 to R98): the delay measured by ECHO, retrain, resync, line timeouts and the credit audit. -/

open Sys2Proof Sys2Proof.Stated

namespace Sys2Proof.Machine

/-! The registers of the lanes stand at 404000h to 405FFFh; nothing that a head leaving ACTIVE writes lies there. -/

theorem State.setPort_get (s : State) (p st : Nat) (f : Fld) (i j : Nat) (hp : p < 96) (hlane : 0x404000 * 32 ≤ f.key i j) :
    (s.setPort p st).get f i j = s.get f i j := by
  have hstate : f.key i j ≠ R.HLF_PORT_STATE_STATE.key p 0 := by simp only [Fld.key, R.HLF_PORT_STATE_STATE] at *; omega
  have hchanged : f.key i j ≠ R.HLF_PORT_STATE_CHANGED.key p 0 := by simp only [Fld.key, R.HLF_PORT_STATE_CHANGED] at *; omega
  have hset : ((s.set R.HLF_PORT_STATE_STATE st p).set R.HLF_PORT_STATE_CHANGED 1 p).get f i j = s.get f i j := by
    rw [State.get_set_ne _ _ _ _ _ _ _ _ hchanged, State.get_set_ne _ _ _ _ _ _ _ _ hstate]
  unfold State.setPort
  split
  · rfl
  · split
    · rw [State.emit_get, hset]
    · split
      · rw [State.emit_get, hset]
      · exact hset

theorem State.setPort_portState (s : State) (p st : Nat) (hst : st < 16) : (s.setPort p st).portState p = st := by
  have hapart : R.HLF_PORT_STATE_STATE.key p 0 ≠ R.HLF_PORT_STATE_CHANGED.key p 0 := by
    simp only [Fld.key, R.HLF_PORT_STATE_STATE, R.HLF_PORT_STATE_CHANGED]
    omega
  have hset : ((s.set R.HLF_PORT_STATE_STATE st p).set R.HLF_PORT_STATE_CHANGED 1 p).get R.HLF_PORT_STATE_STATE p = st := by
    rw [State.get_set_ne _ _ _ _ _ _ _ _ hapart, State.get_set_lt _ _ _ _ _ hst]
  unfold State.setPort State.portState
  split
  · assumption
  · split
    · rw [State.emit_get, hset]
    · split
      · rw [State.emit_get, hset]
      · exact hset

theorem State.loosen_get (s : State) (p : Nat) (f : Fld) (i j : Nat) (hlane : 0x404000 * 32 ≤ f.key i j) :
    (s.loosen p).get f i j = s.get f i j :=
  State.each_get (fun t q hq => t.setPort_get q _ f i j (by simpa [ports96] using (List.mem_filter.1 hq).1) hlane) s

theorem State.endCapture_get (s : State) (c : Status) (f : Fld) (i j : Nat) (hlane : f.key i j < 0x406000 * 32) :
    (s.endCapture c).get f i j = s.get f i j := by
  have hslots (ls : List Nat) (t : State) : (t.syncSlots ls).get f i j = t.get f i j := by
    refine State.each_get (fun t l _ => ?_) t
    rw [State.syncSlot, State.get_set_ne, State.get_set_ne, State.get_set_ne, State.get_set_ne]
    all_goals
      simp only [Fld.key, R.PCP_LEAF_STATUS_ACTIVE, R.PCP_LEAF_STATUS_PENDING, R.PCP_LEAF_STATUS_FADING, R.PCP_LEAF_STATUS_CAPTURING] at *
      omega
  rw [State.endCapture, hslots, State.get_set_ne, State.get_set_ne]
  all_goals
    simp only [Fld.key, R.PCP_CAP_STATUS_STATE, R.PCP_CAP_STATUS_LAST_STATUS] at *
    omega

theorem State.endCfg_get (s : State) (code : Nat) (f : Fld) (i j : Nat) (hlane : 0x404000 * 32 ≤ f.key i j) :
    (s.endCfg code).get f i j = s.get f i j := by
  rw [State.endCfg, State.get_set_ne, State.get_set_ne]
  · rfl
  all_goals
    simp only [Fld.key, R.HLF_CFG_CMD_BUSY, R.HLF_CFG_CMD_STATUS] at *
    omega

theorem State.ite_get {c : Prop} [Decidable c] {s t u : State} {f : Fld} {i j : Nat} (ht : t.get f i j = s.get f i j)
    (hu : u.get f i j = s.get f i j) : (if c then t else u).get f i j = s.get f i j := by
  split
  · exact ht
  · exact hu

theorem State.leaveActive_get (s : State) (p : Nat) (f : Fld) (i j : Nat) (hlo : 0x404000 * 32 ≤ f.key i j)
    (hhi : f.key i j < 0x406000 * 32) : (s.leaveActive p).get f i j = s.get f i j := by
  refine (State.ite_get (State.endCapture_get _ _ _ _ _ hhi) rfl).trans ((State.loosen_get _ _ _ _ _ hlo).trans ?_)
  cases hreq : s.hlf.cfgReq with
  | none => rfl
  | some c => exact State.ite_get (State.endCfg_get _ _ _ _ _ hlo) rfl

/-! Retrain and INIT_ACK (R96, R97). -/

theorem State.sendBlock_regs (s : State) (l kind body : Nat) : (s.sendBlock l kind body).regs = s.regs := State.emit_regs _ _

/-- A lane that carries no traffic any more: it has no lock, and its resync window is open. -/
def State.laneDown (s : State) (l : Nat) : State :=
  (((s.set R.HLF_LANE_STATUS_RETRAINING 1 l).set R.HLF_LANE_STATUS_ACTIVE 0 l).set R.HLF_LANE_AUDIT_RESYNC 1 l).set R.HLF_LANE_STATUS_LOCK 0 l

/-- The last part of a lane's retrain: with no lane of an ACTIVE head left its port is in RETRAIN. -/
def State.retrainPort (s : State) (p : Nat) : State :=
  if (s.heldLanes p).all (fun k => s.on R.HLF_LANE_STATUS_RETRAINING k) ∧ s.portState p = Port.active then
    (s.leaveActive p).setPort p Port.retrain
  else s

theorem State.retrainLane_eq (s : State) (l : Nat) (tell : Bool) (hmay : s.mayRetrain (s.headOfLane l) l = true) :
    ∃ u : State, s.retrainLane l tell = (u.laneDown l).retrainPort (s.headOfLane l) ∧ u.regs = s.regs ∧
      ∀ p, u.head p = s.head p := by
  refine ⟨_, if_pos hmay, ?_, ?_⟩
  · cases tell with
    | false => rfl
    | true => exact State.sendBlock_regs ..
  · cases tell with
    | false => exact fun _ => rfl
    | true => exact fun p => by simp [State.sendBlock, State.coded, State.setLane, State.head]

theorem State.retrainPort_get (s : State) (p : Nat) (hp : p < 96) (f : Fld) (i j : Nat) (hlo : 0x404000 * 32 ≤ f.key i j)
    (hhi : f.key i j < 0x406000 * 32) : (s.retrainPort p).get f i j = s.get f i j :=
  State.ite_get ((State.setPort_get _ _ _ _ _ _ hp hlo).trans (State.leaveActive_get _ _ _ _ _ hlo hhi)) rfl

theorem State.laneDown_shows (s : State) (l : Nat) :
    (s.laneDown l).get R.HLF_LANE_STATUS_RETRAINING l = 1 ∧ (s.laneDown l).get R.HLF_LANE_STATUS_ACTIVE l = 0 ∧
      (s.laneDown l).get R.HLF_LANE_STATUS_LOCK l = 0 ∧ (s.laneDown l).get R.HLF_LANE_AUDIT_RESYNC l = 1 := by
  have hresync : R.HLF_LANE_AUDIT_RESYNC.key l 0 ≠ R.HLF_LANE_STATUS_LOCK.key l 0 := by
    simp only [Fld.key, R.HLF_LANE_AUDIT_RESYNC, R.HLF_LANE_STATUS_LOCK]
    omega
  unfold State.laneDown
  refine ⟨?_, ?_, State.get_set_self .., ?_⟩
  · rw [State.get_set_ne_same _ R.HLF_LANE_STATUS_LOCK R.HLF_LANE_STATUS_RETRAINING _ _ rfl (by decide),
      State.get_set_ne_same _ R.HLF_LANE_AUDIT_RESYNC R.HLF_LANE_STATUS_RETRAINING _ _ rfl (by decide),
      State.get_set_ne_same _ R.HLF_LANE_STATUS_ACTIVE R.HLF_LANE_STATUS_RETRAINING _ _ rfl (by decide), State.get_set_self]
    rfl
  · rw [State.get_set_ne_same _ R.HLF_LANE_STATUS_LOCK R.HLF_LANE_STATUS_ACTIVE _ _ rfl (by decide),
      State.get_set_ne_same _ R.HLF_LANE_AUDIT_RESYNC R.HLF_LANE_STATUS_ACTIVE _ _ rfl (by decide), State.get_set_self]
    rfl
  · rw [State.get_set_ne _ _ _ _ _ _ _ _ hresync, State.get_set_self]
    rfl

/-- The retrain of a lane writes no field at another place in its word. -/
theorem State.laneDown_get (s : State) (l : Nat) (f : Fld) (i j : Nat)
    (h : ∀ g ∈ [R.HLF_LANE_STATUS_RETRAINING, R.HLF_LANE_STATUS_ACTIVE, R.HLF_LANE_AUDIT_RESYNC, R.HLF_LANE_STATUS_LOCK],
      f.key i j ≠ g.key l 0) : (s.laneDown l).get f i j = s.get f i j := by
  simp only [List.forall_mem_cons] at h
  obtain ⟨hr, ha, hx, hl, -⟩ := h
  rw [State.laneDown, State.get_set_ne _ _ _ _ _ _ _ _ hl, State.get_set_ne _ _ _ _ _ _ _ _ hx, State.get_set_ne _ _ _ _ _ _ _ _ ha,
    State.get_set_ne _ _ _ _ _ _ _ _ hr]

theorem State.laneDown_portState (s : State) (l p : Nat) : (s.laneDown l).portState p = s.portState p := by
  refine State.laneDown_get _ _ _ _ _ fun g hg => ?_
  simp only [List.mem_cons, List.not_mem_nil, or_false] at hg
  obtain rfl | rfl | rfl | rfl := hg
  all_goals
    simp only [Fld.key, R.HLF_PORT_STATE_STATE, R.HLF_LANE_STATUS_RETRAINING, R.HLF_LANE_STATUS_ACTIVE, R.HLF_LANE_AUDIT_RESYNC,
      R.HLF_LANE_STATUS_LOCK]
    omega

theorem State.laneDown_modeLanes (s : State) (l p : Nat) : (s.laneDown l).get R.HLF_PORT_MODE_LANES p = s.get R.HLF_PORT_MODE_LANES p := by
  refine State.laneDown_get _ _ _ _ _ fun g hg => ?_
  simp only [List.mem_cons, List.not_mem_nil, or_false] at hg
  obtain rfl | rfl | rfl | rfl := hg
  all_goals
    simp only [Fld.key, R.HLF_PORT_MODE_LANES, R.HLF_LANE_STATUS_RETRAINING, R.HLF_LANE_STATUS_ACTIVE, R.HLF_LANE_AUDIT_RESYNC,
      R.HLF_LANE_STATUS_LOCK]
    omega

theorem State.laneDown_retraining (s : State) (l k : Nat) (hk : k ≠ l) :
    (s.laneDown l).on R.HLF_LANE_STATUS_RETRAINING k = s.on R.HLF_LANE_STATUS_RETRAINING k := by
  unfold State.on
  rw [State.laneDown_get]
  intro g hg
  simp only [List.mem_cons, List.not_mem_nil, or_false] at hg
  obtain rfl | rfl | rfl | rfl := hg
  all_goals
    simp only [Fld.key, R.HLF_LANE_STATUS_RETRAINING, R.HLF_LANE_STATUS_ACTIVE, R.HLF_LANE_AUDIT_RESYNC, R.HLF_LANE_STATUS_LOCK]
    omega

theorem State.get_of_regs {s t : State} (h : t.regs = s.regs) (f : Fld) (i j : Nat) : t.get f i j = s.get f i j := by
  rw [State.get, State.get, h]

/-- Which lanes a head holds is told by its candidate and its negotiated mode. -/
theorem State.heldLanes_congr {s t : State} {p : Nat} (hhead : t.head p = s.head p)
    (hmode : t.get R.HLF_PORT_MODE_LANES p = s.get R.HLF_PORT_MODE_LANES p) : t.heldLanes p = s.heldLanes p := by
  rw [State.heldLanes, State.heldLanes, hhead, State.headLanes, State.headLanes, hmode]

theorem State.mayRetrain_iff (s : State) (p l : Nat) : s.mayRetrain p l = true ↔
    l ∈ s.heldLanes p ∧ (s.portState p = Port.active ∨ (s.portState p = Port.retrain ∧ (s.head p).renew = false) ∨
      (s.portState p = Port.credit ∧ (s.on R.HLF_LANE_STATUS_ACTIVE l = true ∨ s.on R.HLF_LANE_STATUS_RETRAINING l = true))) := by
  simp [State.mayRetrain, or_assoc]

theorem State.retrainLane_shows (s : State) (l : Nat) (tell : Bool) (hl : l < 192) (hp : s.headOfLane l < 96)
    (hmay : s.mayRetrain (s.headOfLane l) l = true) :
    (s.retrainLane l tell).get R.HLF_LANE_STATUS_RETRAINING l = 1 ∧ (s.retrainLane l tell).get R.HLF_LANE_STATUS_ACTIVE l = 0 ∧
      (s.retrainLane l tell).get R.HLF_LANE_STATUS_LOCK l = 0 ∧ (s.retrainLane l tell).get R.HLF_LANE_AUDIT_RESYNC l = 1 := by
  obtain ⟨u, heq, -, -⟩ := s.retrainLane_eq l tell hmay
  obtain ⟨hr, ha, hk, hx⟩ := u.laneDown_shows l
  rw [heq]
  refine ⟨Eq.trans ?_ hr, Eq.trans ?_ ha, Eq.trans ?_ hk, Eq.trans ?_ hx⟩
  all_goals
    refine State.retrainPort_get _ _ hp _ _ _ ?_ ?_ <;>
    · simp only [Fld.key, R.HLF_LANE_STATUS_RETRAINING, R.HLF_LANE_STATUS_ACTIVE, R.HLF_LANE_AUDIT_RESYNC, R.HLF_LANE_STATUS_LOCK]
      omega

theorem State.retrainPort_lastLane (s : State) (p : Nat) (hall : ∀ k ∈ s.heldLanes p, s.on R.HLF_LANE_STATUS_RETRAINING k = true)
    (hst : s.portState p = Port.active) : (s.retrainPort p).portState p = Port.retrain := by
  rw [State.retrainPort, if_pos ⟨List.all_eq_true.2 hall, hst⟩]
  exact State.setPort_portState _ _ _ (by decide)

theorem State.retrainPort_notLast (s : State) (p k : Nat) (hk : k ∈ s.heldLanes p) (hoff : s.on R.HLF_LANE_STATUS_RETRAINING k = false) :
    s.retrainPort p = s := by
  refine if_neg fun h => ?_
  rw [List.all_eq_true.1 h.1 k hk] at hoff
  exact Bool.noConfusion hoff

theorem lanesRetrain_lane (l : Nat) (tell : Bool) (s : State) (hmay : s.mayRetrain (s.headOfLane l) l = true) :
    (s.portState (s.headOfLane l) = Port.active →
      (∀ k ∈ s.heldLanes (s.headOfLane l), k ≠ l → k < 192 ∧ s.on R.HLF_LANE_STATUS_RETRAINING k = true) →
      (s.retrainLane l tell).portState (s.headOfLane l) = Port.retrain) ∧
    (∀ k ∈ s.heldLanes (s.headOfLane l), k ≠ l → k < 192 → s.on R.HLF_LANE_STATUS_RETRAINING k = false →
      (s.retrainLane l tell).portState (s.headOfLane l) = s.portState (s.headOfLane l)) := by
  obtain ⟨u, heq, hregs, hhead⟩ := s.retrainLane_eq l tell hmay
  have hstate : (u.laneDown l).portState (s.headOfLane l) = s.portState (s.headOfLane l) :=
    (u.laneDown_portState l _).trans (State.get_of_regs hregs _ _ _)
  have hheld : (u.laneDown l).heldLanes (s.headOfLane l) = s.heldLanes (s.headOfLane l) :=
    State.heldLanes_congr (hhead _) ((u.laneDown_modeLanes l _).trans (State.get_of_regs hregs _ _ _))
  have hother (k : Nat) (hk : k ≠ l) : (u.laneDown l).on R.HLF_LANE_STATUS_RETRAINING k = s.on R.HLF_LANE_STATUS_RETRAINING k := by
    rw [u.laneDown_retraining l k hk, State.on, State.on, State.get_of_regs hregs]
  rw [heq]
  refine ⟨fun hact hall => State.retrainPort_lastLane _ _ (fun k hk => ?_) (hstate.trans hact), fun k hk hne _ hoff => ?_⟩
  · by_cases hkl : k = l
    · rw [hkl, State.on, (u.laneDown_shows l).1]
      rfl
    · exact (hother k hkl).trans (hall k (hheld ▸ hk) hkl).2
  · rw [State.retrainPort_notLast _ _ k (hheld ▸ hk) ((hother k hne).trans hoff), hstate]

/-- INIT_ACK writes no port's state: its fields stand at other bits of their words. -/
theorem State.initAck_active (s : State) (l : Nat) (hheld : l ∈ s.heldLanes (s.headOfLane l))
    (hact : s.portState (s.headOfLane l) = Port.active) :
    s.initAck l = ((((s.setLane l { s.lane l with inited := true, initSent := false, prbs := false }).set R.HLF_LANE_AUDIT_RESYNC 0 l).set
      R.HLF_LANE_STATUS_RETRAINING 0 l).set R.HLF_LANE_STATUS_ACTIVE 1 l) := by
  have hstate : ((((s.setLane l { s.lane l with inited := true, initSent := false, prbs := false }).set R.HLF_LANE_AUDIT_RESYNC 0 l).set
      R.HLF_LANE_STATUS_RETRAINING 0 l).set R.HLF_LANE_STATUS_ACTIVE 1 l).portState (s.headOfLane l) = Port.active := by
    rw [State.portState, State.get_set_ne, State.get_set_ne, State.get_set_ne]
    · exact hact
    all_goals
      simp only [Fld.key, R.HLF_PORT_STATE_STATE, R.HLF_LANE_STATUS_RETRAINING, R.HLF_LANE_STATUS_ACTIVE, R.HLF_LANE_AUDIT_RESYNC]
      omega
  have hcontains : (s.heldLanes (s.headOfLane l)).contains l = true := by simpa using hheld
  refine (if_pos hcontains).trans ((if_neg fun h => ?_).trans (if_neg fun h => ?_))
  · exact absurd (hstate.symm.trans h.1) (by decide)
  · exact absurd (hstate.symm.trans h.1) (by decide)

theorem lanesRetrain : LanesRetrain := by
  refine ⟨fun l tell s hl hp => ⟨fun hmay => if_neg fun h => hmay ((s.mayRetrain_iff _ _).1 h), fun hmay => ?_⟩,
    fun l s hl => ⟨fun hfree => if_neg (by simpa using hfree), fun hheld hact => s.initAck_active l hheld hact⟩⟩
  have h := (s.mayRetrain_iff _ _).2 hmay
  obtain ⟨hr, ha, hk, hx⟩ := s.retrainLane_shows l tell hl hp h
  exact ⟨hr, ha, hk, hx, lanesRetrain_lane l tell s h⟩

/-! ECHO (R85). -/

theorem execEchoRx_of_tag (l : Fin 192) (tag : BitVec 16) (turn : BitVec 20) (e : EchoTrip) (x rate : Nat) (s : State)
    (hecho : (s.lane l).echo = some (tag.toNat, x))
    (hrate : (match (s.head (s.headOfLane l)).cand with | some c => c.2 | none => s.get R.HLF_PORT_MODE_RATE (s.headOfLane l)) = rate) :
    exec (.echoRx l tag turn e) s =
      (let p := s.headOfLane l
       let d := roundDiv (e.trip - turn.toNat) 2
       let s0 := s.sendDue l e.time
       let s1 := s0.setLane l { s0.lane l with echo := none }
       if s.portState p = Port.delay ∧ 2000000000 < d * (blockFs rate / 64) then
         .next ((s1.portLeaves p Port.failed).set R.HLF_PORT_STATE_LAST_STATUS Status.range.code p)
       else if s.on R.HLF_LANE_STATUS_RETRAINING l ∧ 2000000000 < d * (blockFs rate / 64) then .next s1
       else
         let s2 := (s1.set R.HLF_LANE_STATUS_DELAY d l).setLane l { s1.lane l with measured := true }
         let s3 := match s2.stationOfHead p with
           | some n => s2.syncLead n
           | none => s2
         if s.on R.HLF_LANE_STATUS_RETRAINING l then .next (s3.creditInit l) else .next (s3.checkDelay p)) := by
  change execEchoRx l tag turn e s = _
  subst hrate
  unfold execEchoRx
  simp only [hecho, ne_eq, not_true_eq_false, if_false, decide_eq_true_eq] <;> rfl

theorem echoMeasuresDelay : EchoMeasuresDelay := by
  refine ⟨fun l tag turn e x rate c s hecho hst hcand hcalm => ?_, fun l tag turn e x s hecho hst hcand hre => ?_⟩
  · intro d s0 s1
    have h := execEchoRx_of_tag l tag turn e x rate s hecho (by rw [hcand])
    refine ⟨fun hlong => h.trans (if_pos ⟨hst, hlong⟩), fun hshort => ?_⟩
    refine h.trans ((if_neg fun hc => absurd hc.2 (Nat.not_lt.2 hshort)).trans ((if_neg fun hc => absurd hc.2 (Nat.not_lt.2 hshort)).trans (if_neg ?_)))
    rw [hcalm]
    exact Bool.noConfusion
  · intro d s0 s1 hshort
    have h := execEchoRx_of_tag l tag turn e x (s.get R.HLF_PORT_MODE_RATE (s.headOfLane l)) s hecho (by rw [hcand])
    exact h.trans ((if_neg fun hc => absurd hc.2 (Nat.not_lt.2 hshort)).trans ((if_neg fun hc => absurd hc.2 (Nat.not_lt.2 hshort)).trans (if_pos hre)))

/-! Upkeep of lanes and lines (R64, R71, R74, R96 to R98). -/

theorem headLaneUpkeep : HeadLaneUpkeep := by
  refine ⟨fun l s => rfl, fun l s => rfl, fun l s => rfl, fun l s hre => if_pos hre, fun l h r x s hresync => ?_, fun l kind s hknown => ?_,
    fun l s hact hbuf => ?_, fun p n s hline => ?_⟩
  · exact if_pos ⟨rfl, by rw [hresync, Bool.or_true]⟩
  · exact if_neg (by rw [hknown]; exact Bool.noConfusion)
  · change execCreditBlockRefresh l s = _
    rw [execCreditBlockRefresh, if_pos hact, hbuf]
    rfl
  · change execLineTimeoutFill p s = _
    rw [execLineTimeoutFill, hline]
    rfl

/-! The credit audit (R76, R77). -/

/-- What a packet that no buffer can hold does, whatever its type. -/
theorem State.packetIn_tooLong (s : State) (l type : Nat) (k : Packet) (hact : s.on R.HLF_LANE_STATUS_ACTIVE l = true)
    (hfull : 4096 < s.get R.HLF_LANE_CREDIT_OCCUPIED l + k.cost) :
    s.packetIn l type k = (false, ((s.dropOn l).returnCredits l k.cost).creditFail l) := by
  rw [State.packetIn, if_neg (by rw [hact]; exact fun h => h rfl), if_pos hfull]

/-- The blocks of a lane that are missing at a CRED_STATUS (R76). -/
def State.missingBlocks (s : State) (l held ret : Nat) : Int :=
  4096 - (held + (s.get R.HLF_LANE_CREDIT_RETURNED l + 65536 - ret % 65536) % 65536 + s.get R.HLF_LANE_CREDIT_OCCUPIED l : Nat)

/-- The lane with what its audit found written. -/
def State.audited (s : State) (l held ret : Nat) : State :=
  (s.set R.HLF_LANE_AUDIT_HELD held l).setS R.HLF_LANE_AUDIT_DIFF (s.missingBlocks l held ret) l

theorem State.creditAudit_failed (s : State) (l held ret : Nat) (hne : s.missingBlocks l held ret ≠ 0) :
    s.creditAudit l held ret = (s.audited l held ret).creditFail l := if_neg hne

theorem State.creditAudit_good (s : State) (l held ret : Nat) (h0 : s.missingBlocks l held ret = 0) :
    s.creditAudit l held ret =
      (let t := (s.audited l held ret).setLane l { s.lane l with auditBad := false }
       if t.anyCreditBad then t else t.auditPass .credits) := if_pos h0

theorem execCredStatusRx_audits (l : Fin 192) (h r x : BitVec 16) (b : Bool) (s : State) (hresync : s.on R.HLF_LANE_AUDIT_RESYNC l = false)
    (hact : s.on R.HLF_LANE_STATUS_ACTIVE l = true) (hb : b = true → s.portState (s.headOfLane l) ≠ Port.credit) :
    exec (.credStatusRx l h r x b) s = .next (s.creditAudit l h.toNat r.toNat) := by
  have hwaits : ¬ (b = true ∧ (decide (s.portState (s.headOfLane l) = Port.credit) || s.on R.HLF_LANE_AUDIT_RESYNC l) = true) := by
    rintro ⟨rfl, hw⟩
    rw [hresync, decide_eq_false (hb rfl)] at hw
    exact Bool.noConfusion hw
  exact (if_neg hwaits).trans (if_neg (by rw [hresync, hact]; decide))

theorem State.creditFail_eq (s : State) (l : Nat) : s.creditFail l =
    ((((s.set R.HLF_LANE_AUDIT_FAIL 1 l).raise Ev.auditCredit).setLane l { s.lane l with auditBad := true }).auditFail .credits
      (s.stationOfHead (s.headOfLane l)).toList).retrainLane l true := by
  have hstation : (((s.set R.HLF_LANE_AUDIT_FAIL 1 l).raise Ev.auditCredit).setLane l { s.lane l with auditBad := true }).stationOfHead
      (s.headOfLane l) = s.stationOfHead (s.headOfLane l) := by
    simp only [State.stationOfHead, State.station, State.setLane_stations, State.raise_stations, State.set_stations]
  rw [State.creditFail, hstation]

theorem creditAudit : CreditAudit := by
  intro l h r x b s hresync hact hb flight d s1 failed
  have hd : s.missingBlocks l h.toNat r.toNat = d := by rw [State.missingBlocks, Nat.mod_eq_of_lt r.isLt]
  have hs1 : s.audited l h.toNat r.toNat = s1 := by rw [State.audited, hd]
  have hexec := execCredStatusRx_audits l h r x b s hresync hact hb
  refine ⟨fun hne => ?_, fun k hfull hport c hc => ?_, fun h0 hbad => ?_, fun h0 hgood => ?_⟩
  · rw [hexec, State.creditAudit_failed _ _ _ _ (hd ▸ hne), hs1, State.creditFail_eq]
  · have hin (type : Nat) : s.packetIn l type k = (false, failed ((s.dropOn l).returnCredits l k.cost)) := by
      rw [s.packetIn_tooLong l type k hact hfull, State.creditFail_eq]
    simp only [List.mem_cons, List.not_mem_nil, or_false] at hc
    obtain rfl | rfl | rfl | rfl := hc
    · change execPixelPacketRx l k s = _
      rw [execPixelPacketRx, hin]
    · change execCapPacketRx l k s = _
      rw [execCapPacketRx, if_neg fun hp => hport hp.1, hin]
    · change execCfgRespRx l k s = _
      rw [execCfgRespRx, hin]
    · change execHeadEventRx l k s = _
      rw [execHeadEventRx, hin]
  · rw [hexec, State.creditAudit_good _ _ _ _ (hd ▸ h0), hs1]
    exact congrArg Host.Outcome.next (if_pos hbad)
  · rw [hexec, State.creditAudit_good _ _ _ _ (hd ▸ h0), hs1]
    exact congrArg Host.Outcome.next (if_neg (by rw [hgood]; exact Bool.noConfusion))

/-- Settles O13: each case of ECHO, of a lane's upkeep and of the credit audit as the model runs it; a retrain and INIT_ACK from what the
registers of a lane and of its port show afterwards. -/
theorem headLanes : Obligations.HeadLanes := ⟨echoMeasuresDelay, headLaneUpkeep, lanesRetrain, creditAudit⟩

end Sys2Proof.Machine
end

section
/-! PROOFS. Frames of the ring out of sequence or without data (R74, R79, R80, R347, R349). -/

open Sys2Proof Sys2Proof.Stated

namespace Sys2Proof.Machine

/-- Every frame takes the same way in; no type takes a frame without data. -/
theorem exec_frame {c : Instr} {l : Nat} {k : KFrame} {kind : Nat} (hc : frameOf c = some (l, k, kind)) :
    ∃ lenOk, lenOk [] = false ∧ ∀ s, ∃ fwd act, exec c s = .next (s.kelimRx l k kind lenOk fwd act) := by
  unfold frameOf at hc
  split at hc
  case h_13 => cases hc
  case h_11 =>
    obtain ⟨rfl, rfl, rfl⟩ : _ ∧ _ ∧ _ := by simpa using hc
    exact ⟨_, decide_eq_false (Nat.ne_of_lt (Nat.lt_add_right _ Nat.zero_lt_one)), fun s => ⟨_, _, rfl⟩⟩
  all_goals
    obtain ⟨rfl, rfl, rfl⟩ : _ ∧ _ ∧ _ := by simpa using hc
    refine ⟨_, ?_, fun s => ⟨_, _, rfl⟩⟩
    rfl

theorem State.kelimTake_wrongSeq (s : State) (l : Nat) (k : KFrame) (hgood : k.good = true) (hseq : k.seq.toNat ≠ (s.klane l).exp)
    (hnak : (s.klane l).nak = false) : s.kelimTake l k = (false, (naked s l k).kelimRefuse l k.seq.toNat) := by
  rw [State.kelimTake]
  simp only [hgood, if_true, if_neg hseq, hnak, Bool.false_eq_true, if_false]
  rfl

section
variable {s0 : State} {l : Nat} {k : KFrame} {kind : Nat} {lenOk : List Nat → Bool} {fwd : List Nat → List Nat}
  {act : KHdr → List Nat → State → State} (htype : k.ftype = kind)
  (hopen : (s0.ahead l k.ctl).laneOpen l (if kind = 3 then KPort.auth else KPort.up) = true)
include htype hopen

theorem State.kelimRx_opens : ¬ (¬ (s0.ahead l k.ctl).laneOpen l (if kind = FType.auth then KPort.auth else KPort.up) = true ∨
    (k.ftype ≠ kind ∧ k.ftype ≤ 11)) := by
  rintro (hshut | ⟨hother, -⟩)
  · exact hshut hopen
  · exact hother htype

/-- A frame that its lane does not take leaves what the lane answers. -/
theorem State.kelimRx_notTaken {t : State} (htake : (s0.ahead l k.ctl).kelimTake l k = (false, t)) :
    s0.kelimRx l k kind lenOk fwd act = t := by
  refine (if_neg (State.kelimRx_opens htype hopen)).trans ?_
  rw [htake]
  rfl

/-- A frame of a wrong length is taken and counted. -/
theorem State.kelimRx_wrongLength (htake : ((s0.ahead l k.ctl).kelimTake l k).1 = true) (hlen : lenOk k.data = false) :
    s0.kelimRx l k kind lenOk fwd act = ((s0.ahead l k.ctl).kelimTake l k).2.kelimErr l := by
  refine (if_neg (State.kelimRx_opens htype hopen)).trans ((if_neg ?_).trans (if_pos (.inr hlen)))
  rw [htake]
  exact fun h => h rfl

end

/-- Settles O31: the way in that all twelve types of frame share, with the lane's answer to each of the two frames. -/
theorem ringFrameErrors : Obligations.RingFrameErrors := by
  constructor
  · intro c l k kind s0 hc htype s hopen hgood hseq hnak u n v
    obtain ⟨lenOk, -, hframe⟩ := exec_frame hc
    obtain ⟨fwd, act, hexec⟩ := hframe s0
    rw [hexec, State.kelimRx_notTaken htype hopen (s.kelimTake_wrongSeq l k hgood hseq hnak)]
    exact ⟨fun hn => congrArg Host.Outcome.next (if_neg (Nat.not_le.2 hn)), fun hn => congrArg Host.Outcome.next (if_pos hn)⟩
  · intro c l k kind s0 hc htype s hopen htake hempty
    obtain ⟨lenOk, hlen, hframe⟩ := exec_frame hc
    obtain ⟨fwd, act, hexec⟩ := hframe s0
    rw [hexec, State.kelimRx_wrongLength htype hopen htake (by rw [KFrame.data, hempty]; exact hlen)]
    rfl

end Sys2Proof.Machine
end

section
/-! PROOFS. The ports of the ring unit, authentication and discovery (R85, R346 to R348, R352 to R354, R367, R508). -/

open Sys2Proof Sys2Proof.Stated

namespace Sys2Proof.Machine

/-! Ports and lanes (R346 to R348, R367). -/

/-- The row of a single lane names that lane alone. -/
theorem lockedLane (j : Fin 16) : ((List.range 16).filter fun i => (1#16 <<< j.val).getLsbD i) = [j.val] := by
  revert j
  decide

theorem State.klane_setKlane (s : State) (l : Nat) (x : KLane) : (s.setKlane l x).klane l = x := SMap.get_put_self _ _ _ _

/-- Without SD_REFCLK4 no port trains (R565). -/
theorem execKruPortTrainDone_noClock (pt : Fin 2) (lock : BitVec 16) (ver : BitVec 8) (tr : List KTrain) (s : State)
    (hclock : s.refRuns 4 = false) (hst : s.kport pt = KPort.train ∨ s.kport pt = KPort.dead) :
    exec (.kruPortTrainDone pt lock ver tr) s = .next s := by
  refine (if_neg ?_).trans (if_pos (.inr (.inl hclock)))
  rintro ⟨-, h⟩
  obtain h | h := h <;> obtain hst | hst := hst <;> exact absurd (hst.symm.trans h) (by decide)

theorem execKruPortTrainDone_trains (pt : Fin 2) (lock : BitVec 16) (ver : BitVec 8) (tr : List KTrain) (s : State) (hon : s.kruOn = true)
    (hclock : s.refRuns 4 = true) (hst : s.kport pt = KPort.train ∨ s.kport pt = KPort.dead) :
    exec (.kruPortTrainDone pt lock ver tr) s =
      (let got (j : Nat) : KTrain := tr.getD j {}
       let locked := (List.range 16).filter fun j => lock.getLsbD j
       let lanes := locked.filter fun j => (got j).pass
       let s0 := s.each locked fun s j => s.trainLane (16 * pt + j) (got j).up.toNat
       if lanes.length < s.get R.KRU_CFG_MIN_LANES then
         .next ((s0.portLost pt KPort.failed).set R.KRU_PORT_STATUS_LAST_STATUS 3 pt)
       else if ver.toNat < 16 then .next ((s0.portLost pt KPort.refused).set R.KRU_PORT_STATUS_LAST_STATUS 5 pt)
       else
         let s1 := (s0.set R.KRU_PORT_LANES_ACTIVE (lanes.foldl (fun a j => a + 2 ^ j) 0) pt).set R.KRU_PORT_LANES_DELAY
           (lanes.foldl (fun a j => max a (got j).units) 0) pt
         let s2 := s1.each lanes fun s j =>
           (s.setKlane (16 * pt + j) { d := (got j).units, tag := (s.klane (16 * pt + j)).tag, scr := (s.klane (16 * pt + j)).scr }).kelimInit
             (16 * pt + j)
         .next ((s2.set R.KRU_PORT_STATUS_STATE 2 pt).authStep pt 1)) := by
  change execKruPortTrainDone pt lock ver tr s = _
  have hnew : ¬ (s.kruOn = true ∧ (s.kport pt = KPort.auth ∨ s.kport pt = KPort.up)) := by
    rintro ⟨-, h⟩
    obtain h | h := h <;> obtain hst | hst := hst <;> exact absurd (hst.symm.trans h) (by decide)
  have hruns : ¬ (¬ s.kruOn = true ∨ s.refRuns 4 = false ∨ (s.kport pt ≠ KPort.train ∧ s.kport pt ≠ KPort.dead)) := by
    rintro (h | h | ⟨htrain, hdead⟩)
    · exact h hon
    · rw [hclock] at h
      exact Bool.noConfusion h
    · exact hst.elim htrain hdead
  unfold execKruPortTrainDone
  simp only [hclock, Bool.and_true]
  refine (if_neg hnew).trans ((if_neg ?_).trans ?_)
  · simpa only [hclock] using hruns
  · rfl

/-- A single lane of a port that has trained (R96, log 117). -/
theorem execKruPortTrainDone_lane (pt : Fin 2) (j : Fin 16) (ver : BitVec 8) (tr : List KTrain) (s : State) (hon : s.kruOn = true)
    (hclock : s.refRuns 4 = true) (hst : s.kport pt = KPort.auth ∨ s.kport pt = KPort.up)
    (htrain : (s.klane (16 * pt.val + j.val)).training = true) :
    exec (.kruPortTrainDone pt (1#16 <<< j.val) ver tr) s = .next (
      let l := 16 * pt.val + j.val
      let x := tr.getD j {}
      let u := s.trainLane l x.up.toNat
      if x.pass then
        let v := u.set R.KRU_PORT_LANES_DELAY ((u.portLanes pt).foldl (fun a k => max a (u.klane k).d) x.units) pt
        (v.setKlane l { v.klane l with d := x.units }).kelimInit l
      else u) := by
  change execKruPortTrainDone pt (1#16 <<< j.val) ver tr s = _
  unfold execKruPortTrainDone
  simp only [hclock, Bool.and_true]
  refine (if_pos ⟨hon, hst⟩).trans ?_
  rw [lockedLane, State.laneRetrained, List.filter_cons_of_pos (by simpa using htrain)]
  rfl

theorem bit_sub_self (m k : Nat) : bit ((m - (m &&& 2 ^ k)) % 2 ^ 16) k = false := by
  have hbit : (m - (m &&& 2 ^ k)).testBit k = false := by
    rw [and_bit_eq]
    cases hm : m.testBit k with
    | false => simpa using hm
    | true =>
      have hdiv : (m - 2 ^ k) / 2 ^ k = m / 2 ^ k - 1 := by simpa using Nat.sub_mul_div m (2 ^ k) 1
      rw [Nat.testBit_eq_decide_div_mod_eq, decide_eq_true_eq] at hm
      rw [Bool.toNat_true, Nat.one_mul, Nat.testBit_eq_decide_div_mod_eq, hdiv, decide_eq_false_iff_not]
      omega
  rw [bit, Nat.testBit_mod_two_pow, hbit, Bool.and_false]

theorem State.kelimRetrain_shows (s : State) (l : Nat) : let t := s.kelimRetrain l false
    (t.klane l).training = true ∧ (t.klane l).resync = true ∧ (t.klane l).refused = [] ∧
    bit (t.get R.KRU_PORT_LANES_ACTIVE (l / 16)) (l % 16) = false := by
  intro t
  have hlane : t.klane l = _ := State.klane_setKlane _ _ _
  rw [hlane]
  refine ⟨rfl, rfl, rfl, ?_⟩
  have hactive : t.get R.KRU_PORT_LANES_ACTIVE (l / 16) = _ := State.get_set_self ..
  rw [hactive]
  exact bit_sub_self _ _

/-- Settles O32: each row of a port as the model runs it. -/
theorem kelimPorts : Obligations.KelimPorts := by
  refine ⟨fun pt lock ver tr s hon hclock hst => ?_, fun pt lock ver tr s hclock hst => execKruPortTrainDone_noClock pt lock ver tr s hclock hst,
    fun pt j ver tr s hon hclock hst => ?_, fun l s => s.kelimRetrain_shows l, fun pt s hon hst => ?_, fun pt s hon hst => ?_,
    fun l ctl h r x b s0 => ?_⟩
  · intro got locked lanes s0 units s1 s2
    have hrow := execKruPortTrainDone_trains pt lock ver tr s hon hclock hst
    refine ⟨fun henough hver => hrow.trans ((if_neg (Nat.not_lt.2 henough)).trans (if_neg (Nat.not_lt.2 hver))),
      fun henough hver => hrow.trans ((if_neg (Nat.not_lt.2 henough)).trans (if_pos hver)), fun hfew => hrow.trans (if_pos hfew)⟩
  · intro l x u htrain
    have hrow := execKruPortTrainDone_lane pt j ver tr s hon hclock hst htrain
    refine ⟨fun hpass => ⟨_, hrow.trans (congrArg Host.Outcome.next (if_pos hpass)), ?_⟩,
      fun hfail => hrow.trans (congrArg Host.Outcome.next (if_neg (by rw [hfail]; exact Bool.noConfusion)))⟩
    exact congrArg KLane.d (State.klane_setKlane _ _ _)
  · exact congrArg Host.Outcome.next (if_pos ⟨hon, hst⟩)
  · exact congrArg Host.Outcome.next (if_pos ⟨hon, hst⟩)
  · intro s m sum
    refine ⟨fun hresync hack htrain => ?_, fun hresync hno => ?_, fun hsync hon hbit => ?_⟩
    · exact (if_pos hresync).trans (congrArg Host.Outcome.next (if_pos ⟨hack, htrain⟩))
    · refine (if_pos hresync).trans (congrArg Host.Outcome.next (if_neg ?_))
      rintro ⟨hack, htrain⟩
      obtain h | h := hno
      · exact absurd (hack.symm.trans h) Bool.noConfusion
      · exact absurd (htrain.symm.trans h) Bool.noConfusion
    · exact (if_neg (by rw [hsync]; exact Bool.noConfusion)).trans (if_pos ⟨hon, hbit⟩)

/-! Authentication and discovery (R352 to R354, R508). -/

/-- A frame that is accepted and stays here acts on the state after acknowledge and credits. -/
theorem State.kelimRx_of_frameIn {s u : State} {l : Nat} {k : KFrame} {kind : Nat} {lenOk : List Nat → Bool} {fwd : List Nat → List Nat}
    {act : KHdr → List Nat → State → State} (hin : FrameIn s l k kind (lenOk k.data) u) :
    s.kelimRx l k kind lenOk fwd act = act { k.head with ret := false } k.data u := by
  obtain ⟨hopen, htype, htake, hlen, hret, rfl⟩ := hin
  refine (if_neg (State.kelimRx_opens htype hopen)).trans ((if_neg ?_).trans ((if_neg ?_).trans (if_neg ?_)))
  · rw [htake]
    exact fun h => h rfl
  · rintro (hother | hbad)
    · exact hother htype
    · exact absurd (hlen.symm.trans hbad) Bool.noConfusion
  · rintro ⟨hr, hup⟩
    obtain h | h := hret
    · exact absurd (hr.symm.trans h) Bool.noConfusion
    · exact absurd (hup.symm.trans h) Bool.noConfusion

theorem authFrames : AuthFrames := by
  intro l k s u hin
  have hrx : FrameIn s l k FType.auth (1 ≤ k.data.length && k.data.length ≤ 1024) u := by
    rw [Bool.decide_and] at hin
    exact hin
  exact ⟨fun v r busy => congrArg Host.Outcome.next (State.kelimRx_of_frameIn hrx),
    fun ok dig serial => congrArg Host.Outcome.next (State.kelimRx_of_frameIn hrx)⟩

theorem discoverFrames : DiscoverFrames := by
  intro l k foreign s u hin w h mine
  have hrx (foreign : Bool) : exec (.discoverFrameRx l k foreign) s = .next (
      if bits w 16 8 < 16 then (u.portLost (portOf l.val) KPort.refused).set R.KRU_PORT_STATUS_LAST_STATUS 5 (portOf l.val)
      else if k.head.dst ≠ broadcast ∧ k.head.dst ≠ u.kId then u.ringOut 0 h k.data
      else if u.timing = true ∧ k.head.src = 1 then
        (if foreign then u.ringFail .busy
         else if u.ringState = Ring.forming ∨ u.ringState = Ring.reform then
           ({ u with kru := { u.kru with members := bits w 0 16 - 1, back := true } } : State).checkFormed
         else u)
      else if u.kId = 0 then
        (if 65534 ≤ bits w 0 16 then u.ringFail .range
         else (((u.set R.KRU_STATUS_ID (bits w 0 16)).ringOut 0 h
           [bits w 0 16 + 1 + min (bits w 16 8) 16 * 65536]).sendRoster).syncMember.foldOpen)
      else u.ringOut 0 h k.data) := congrArg Host.Outcome.next (State.kelimRx_of_frameIn hin)
  have hdst (hm : mine) : ¬ (k.head.dst ≠ broadcast ∧ k.head.dst ≠ u.kId) := fun hne => hm.elim hne.1 hne.2
  refine ⟨fun hver => ?_, fun hver hm => ?_, fun hver hm hr hid hnext => ?_, fun hver hm hr hid hnext => ?_, fun hver hm hr hid => ?_,
    fun hver hm ht hsrc => ⟨fun hst => ?_, ?_⟩⟩
  · rw [hrx, if_pos hver]
    rfl
  · rw [hrx, if_neg (Nat.not_lt.2 hver), if_pos (not_or.1 hm)]
  · rw [hrx, if_neg (Nat.not_lt.2 hver), if_neg (hdst hm), if_neg hr, if_pos hid, if_neg (Nat.not_le.2 hnext), Nat.min_eq_right hver]
  · rw [hrx, if_neg (Nat.not_lt.2 hver), if_neg (hdst hm), if_neg hr, if_pos hid, if_pos hnext]
    rfl
  · rw [hrx, if_neg (Nat.not_lt.2 hver), if_neg (hdst hm), if_neg hr, if_neg hid]
  · rw [hrx, if_neg (Nat.not_lt.2 hver), if_neg (hdst hm), if_pos ⟨ht, hsrc⟩, if_neg Bool.false_ne_true, if_pos hst]
  · rw [hrx, if_neg (Nat.not_lt.2 hver), if_neg (hdst hm), if_pos ⟨ht, hsrc⟩, if_pos rfl]
    rfl

/-- Settles O33: the frame acts on the state after acknowledge and credits, by the cases of its type. -/
theorem ringDiscovery : Obligations.RingDiscovery := ⟨authFrames, discoverFrames⟩

end Sys2Proof.Machine
end

section
/-! PROOFS. Frames of the ring that a member takes (R351, R354 to R368), and the replay timers that ring time drives. -/

open Sys2Proof Sys2Proof.Stated

namespace Sys2Proof.Machine

/-- A frame delivered to this member has its effect there. -/
theorem State.ringDeliver_of_delivered {u v : State} {k : KFrame} {kind : Nat} {data : List Nat} {own : State → State}
    (h : Delivered u k kind data v) : u.ringDeliver kind { k.head with ret := false } data own = own v := by
  obtain ⟨hall, hother, rfl⟩ | ⟨hone, hme, hid, rfl⟩ := h
  · exact (if_pos hall).trans (if_neg hother)
  · exact (if_neg hone).trans (if_pos ⟨hme, hid⟩)

/-- A frame that comes in and is delivered. -/
theorem State.kelimRx_of_delivered {s u v : State} {l : Nat} {k : KFrame} {kind : Nat} {lenOk : List Nat → Bool} {fwd : List Nat → List Nat}
    {data : List Nat → List Nat} {own : KHdr → List Nat → State → State} (hin : FrameIn s l k kind (lenOk k.data) u)
    (hdel : Delivered u k kind (data k.data) v) :
    s.kelimRx l k kind lenOk fwd (fun h ws s => s.ringDeliver kind h (data ws) (own h ws)) = own { k.head with ret := false } k.data v :=
  (State.kelimRx_of_frameIn hin).trans (State.ringDeliver_of_delivered hdel)

/-- Settles O34: each frame comes in, is delivered and acts by the cases of its type. -/
theorem ringFrames : Obligations.RingFrames := by
  refine ⟨fun l k s u v hin hdel htime => ?_, fun l k s u v hin hdel => ?_, fun l k s u v hin hdel => ?_,
    fun l k s u v hin hdel hrep hother => ?_, fun l k s u v => ?_⟩
  · intro w m
    exact (congrArg Host.Outcome.next (State.kelimRx_of_delivered (data := id) hin hdel)).trans (congrArg Host.Outcome.next (if_pos htime))
  · exact congrArg Host.Outcome.next (State.kelimRx_of_delivered (data := id) hin hdel)
  · exact congrArg Host.Outcome.next (State.kelimRx_of_delivered (data := id) hin hdel)
  · refine (congrArg Host.Outcome.next (State.kelimRx_of_delivered (data := id) hin hdel)).trans (congrArg Host.Outcome.next (if_neg ?_))
    dsimp only
    cases hstaged : (v.station k.head.station).staged with
    | none => simp [hrep]
    | some g => simpa [hrep] using hother g hstaged
  · intro w hin hdel hrecv hbusy
    exact (congrArg Host.Outcome.next (State.kelimRx_of_delivered (data := id) (lenOk := fun ws => decide (ws.length =
      1 + ceilDiv (bits (ws.getD 0 0) 48 9 * (bits (ws.getD 0 0) 57 3 + 1)) 4)) hin hdel)).trans
      (congrArg Host.Outcome.next (if_pos ⟨hrecv, hbusy⟩))

/-! Ring time (R357): the instants that the rows of ring time carry also start the replay timers of the lanes (R80, R347). -/

/-- The timing member with one lane, on which a frame waits for its ACK. -/
def timingWaits : State :=
  (((((State.reset.set R.KRU_CFG_EN 1).set R.KRU_CFG_TIMING 1).set R.KRU_STATUS_ID 1).set R.KRU_PORT_LANES_ACTIVE 1 0).setKlane 0
    { unacked := [{}] })

/-- The instant from which lane 0 counts its wait after an outcome. -/
def waitsSince : Out → Option Int
  | .next t => (t.klane 0).since
  | _ => none

/-- Refutes O35: the second clause has TIME change nothing but the count of TIME frames and what is sent, where the model starts the replay
timer of a lane whose oldest frame has no ACK, at the instant 5 that the row carries. -/
theorem not_ringTiming : ¬ Obligations.RingTiming := by
  rintro ⟨⟨-, hsend, -⟩, -⟩
  have hnext := hsend 5 timingWaits (by decide +kernel) (by decide +kernel) (by decide +kernel) (by decide +kernel)
  exact absurd (congrArg waitsSince hnext) (by decide +kernel)

end Sys2Proof.Machine
end

section
/-! PROOFS. Words written to a queue and read from it (R215 to R238). -/

open Sys2Proof Sys2Proof.Stated

namespace Sys2Proof.Machine

/-! ### What the parts of a write leave -/

/-- A field of a queue stands above the pool's. -/
theorem State.get_free_set (s : State) (f : Fld) (v q : Nat) (hf : 0xC00000 ≤ f.base := by decide) :
    (s.set f v q).get R.QMX_POOL_FREE_FREE = s.get R.QMX_POOL_FREE_FREE :=
  State.get_set_ne _ _ _ _ _ _ _ _ (by simp only [Fld.key, R.QMX_POOL_FREE_FREE]; omega)

/-- A field of a queue keeps its value where a field of the pool is written. -/
theorem State.get_queue_set (s : State) (f g : Fld) (v q : Nat) (hf : f.base < 0x209000 ∧ f.lo < 32 := by decide)
    (hg : 0xC00000 ≤ g.base := by decide) : (s.set f v).get g q = s.get g q :=
  State.get_set_ne _ _ _ _ _ _ _ _ (by simp only [Fld.key]; omega)

theorem State.endWrWait_queue (s : State) (q : Nat) : (s.endWrWait q).queue q = { s.queue q with wrStalled := false } := by
  rw [State.endWrWait, State.setQueue_queue]
  rfl

/-- The end of a writer's wait writes its two wait bits alone. -/
theorem State.endWrWait_get (s : State) (q : Nat) (g : Fld) (hs : g.s1 = 0x20) (hfull : g.key 0 0 ≠ R.QMX_Q_STATUS_FULL.key 0 0)
    (halloc : g.key 0 0 ≠ R.QMX_Q_STATUS_ALLOC_WAIT.key 0 0) : (s.endWrWait q).get g q = s.get g q := by
  change ((s.set R.QMX_Q_STATUS_FULL 0 q).set R.QMX_Q_STATUS_ALLOC_WAIT 0 q).get g q = _
  rw [State.get_set_ne_same _ _ _ _ _ hs halloc, State.get_set_ne_same _ _ _ _ _ hs hfull]

theorem State.endWrWait_full (s : State) (q : Nat) : (s.endWrWait q).get R.QMX_Q_STATUS_FULL q = 0 := by
  change ((s.set R.QMX_Q_STATUS_FULL 0 q).set R.QMX_Q_STATUS_ALLOC_WAIT 0 q).get R.QMX_Q_STATUS_FULL q = _
  rw [State.get_set_ne_same _ R.QMX_Q_STATUS_ALLOC_WAIT R.QMX_Q_STATUS_FULL _ _ rfl (by decide), State.get_set_self]
  rfl

theorem State.endWrWait_allocWait (s : State) (q : Nat) : (s.endWrWait q).get R.QMX_Q_STATUS_ALLOC_WAIT q = 0 := by
  change ((s.set R.QMX_Q_STATUS_FULL 0 q).set R.QMX_Q_STATUS_ALLOC_WAIT 0 q).get R.QMX_Q_STATUS_ALLOC_WAIT q = _
  rw [State.get_set_self]
  rfl

theorem State.endWrWait_free (s : State) (q : Nat) : (s.endWrWait q).get R.QMX_POOL_FREE_FREE = s.get R.QMX_POOL_FREE_FREE := by
  change ((s.set R.QMX_Q_STATUS_FULL 0 q).set R.QMX_Q_STATUS_ALLOC_WAIT 0 q).get R.QMX_POOL_FREE_FREE = _
  rw [State.get_free_set _ R.QMX_Q_STATUS_ALLOC_WAIT, State.get_free_set _ R.QMX_Q_STATUS_FULL]

/-- What a word appended to a drawer leaves, before a full drawer is closed. -/
structure Appended (q : Nat) (w : QWord) (s t : State) : Prop where
  queue : t.queue q = { (s.queue q).setDrawer (s.get R.QMX_Q_STATUS_WR_DRAWER q)
    ((s.queue q).drawer (s.get R.QMX_Q_STATUS_WR_DRAWER q) ++ [w]) ((s.queue q).written (s.get R.QMX_Q_STATUS_WR_DRAWER q) + 1) with
    wrStalled := false }
  full : t.get R.QMX_Q_STATUS_FULL q = 0
  allocWait : t.get R.QMX_Q_STATUS_ALLOC_WAIT q = 0
  wrDrawer : t.get R.QMX_Q_STATUS_WR_DRAWER q = s.get R.QMX_Q_STATUS_WR_DRAWER q
  free : t.get R.QMX_POOL_FREE_FREE = s.get R.QMX_POOL_FREE_FREE

theorem State.putQueue_queue (s : State) (q : Nat) (x : Queue) : (s.putQueue q x).queue q = x := State.setQueue_queue ..

theorem State.get_ite (c : Prop) [Decidable c] (s t : State) (f : Fld) (i : Nat) :
    (if c then s else t).get f i = if c then s.get f i else t.get f i := by split <;> rfl

/-- The record and the counters of a word put into a drawer. -/
theorem State.countWord_queue (s : State) (q : Nat) (fin : Bool) (o : Nat) :
    ((if fin then s.add R.QMX_Q_WR_PKTS_COUNT 1 q else s).set R.QMX_Q_STATUS_WR_OPEN o q).queue q = s.queue q := by
  cases fin <;> rfl

theorem State.countWord_get (s : State) (q : Nat) (fin : Bool) (o : Nat) (g : Fld) (hs : g.s1 = 0x20)
    (hopen : g.key 0 0 ≠ R.QMX_Q_STATUS_WR_OPEN.key 0 0) (hpkts : g.key 0 0 ≠ R.QMX_Q_WR_PKTS_COUNT.key 0 0) :
    ((if fin then s.add R.QMX_Q_WR_PKTS_COUNT 1 q else s).set R.QMX_Q_STATUS_WR_OPEN o q).get g q = s.get g q := by
  rw [State.get_set_ne_same _ _ _ _ _ hs hopen]
  cases fin
  · rfl
  · exact State.get_set_ne_same _ _ _ _ _ hs hpkts

theorem State.countWord_free (s : State) (q : Nat) (fin : Bool) (o : Nat) :
    ((if fin then s.add R.QMX_Q_WR_PKTS_COUNT 1 q else s).set R.QMX_Q_STATUS_WR_OPEN o q).get R.QMX_POOL_FREE_FREE =
      s.get R.QMX_POOL_FREE_FREE := by
  rw [State.get_free_set _ R.QMX_Q_STATUS_WR_OPEN]
  cases fin
  · rfl
  · exact State.get_free_set _ R.QMX_Q_WR_PKTS_COUNT _ _

theorem State.putQueue_get (s : State) (q : Nat) (x : Queue) (g : Fld) (hs : g.s1 = 0x20)
    (hwords : g.key 0 0 ≠ R.QMX_Q_STATUS_WORDS.key 0 0) : (s.putQueue q x).get g q = s.get g q :=
  (State.get_set_ne_same _ R.QMX_Q_STATUS_WORDS _ _ _ hs hwords).trans rfl

theorem State.putQueue_free (s : State) (q : Nat) (x : Queue) : (s.putQueue q x).get R.QMX_POOL_FREE_FREE = s.get R.QMX_POOL_FREE_FREE :=
  (State.get_free_set _ R.QMX_Q_STATUS_WORDS _ _).trans rfl

theorem State.appendWord_appends (s : State) (q : Nat) (w : QWord) : ∃ t, Appended q w s t ∧ s.appendWord q w =
    if (s.queue q).written (s.get R.QMX_Q_STATUS_WR_DRAWER q) + 1 = s.get R.QMX_Q_CFG_MAX q * 64 ∨
      (w.fin = true ∧ s.on R.QMX_Q_CFG_CLOSE_END q = true) then t.closeDrawer q else t := by
  refine ⟨_, ⟨?_, State.endWrWait_full _ _, State.endWrWait_allocWait _ _, ?_, ?_⟩, rfl⟩
  · rw [State.endWrWait_queue, State.countWord_queue, State.putQueue_queue]
  · rw [State.endWrWait_get _ _ _ rfl (by decide) (by decide), State.countWord_get _ _ _ _ _ rfl (by decide) (by decide),
      State.putQueue_get _ _ _ _ rfl (by decide)]
  · rw [State.endWrWait_free, State.countWord_free, State.putQueue_free]

/-! ### Slabs (R221, R227, R230) -/

theorem State.raise_queue (s : State) (n q : Nat) : (s.raise n).queue q = s.queue q := by
  rw [State.queue, State.raise_qmx]
  rfl

theorem State.syncLow_queue (s : State) (q : Nat) : s.syncLow.queue q = s.queue q := by
  unfold State.syncLow
  dsimp only
  split
  · exact State.raise_queue ..
  · split <;> rfl

/-- LOW and its event are all that syncing the pool's level writes. -/
theorem State.syncLow_get (s : State) (g : Fld) (i : Nat) (hlow : g.key i 0 ≠ R.QMX_STATUS_LOW.key 0 0)
    (hevent : g.key i 0 < 0x1D00000 * 32) : s.syncLow.get g i = s.get g i := by
  unfold State.syncLow
  dsimp only
  split
  · rw [State.raise_get_below _ _ hevent, State.get_set_ne _ _ _ _ _ _ _ _ hlow]
  · split
    · rfl
    · rw [State.get_set_ne _ _ _ _ _ _ _ _ hlow]

theorem State.setAlloc_get (s : State) (q n : Nat) (g : Fld) (hs : g.s1 = 0x20) (hg : 0xC00000 ≤ g.base)
    (halloc : g.key 0 0 ≠ R.QMX_Q_RES_ALLOC.key 0 0) : (s.setAlloc q n).get g q = s.get g q := by
  unfold State.setAlloc
  dsimp only
  rw [State.get_queue_set _ R.QMX_AUD_ALLOC_ALLOC _ _ _ (by decide) hg,
    State.get_queue_set _ R.QMX_POOL_RES_UNUSED _ _ _ (by decide) hg,
    State.get_set_ne_same _ _ _ _ _ hs halloc]

theorem State.setAlloc_free (s : State) (q n : Nat) : (s.setAlloc q n).get R.QMX_POOL_FREE_FREE = s.get R.QMX_POOL_FREE_FREE := by
  unfold State.setAlloc
  dsimp only
  rw [State.get_set_ne _ R.QMX_AUD_ALLOC_ALLOC _ _ _ _ _ _ (by decide), State.get_set_ne _ R.QMX_POOL_RES_UNUSED _ _ _ _ _ _ (by decide),
    State.get_free_set _ R.QMX_Q_RES_ALLOC]

/-- The oldest slab in transit comes in where the pool has none (R221). -/
def State.refilled (s : State) : State :=
  if s.get R.QMX_POOL_FREE_FREE = 0 then
    (({ s with qmx := { s.qmx with transit := arriveOne s.qmx.transit } } : State).add R.QMX_POOL_FREE_FREE 1).sub R.QMX_AUD_TRANSIT_TRANSIT 1
  else s

theorem State.takeSlabs_eq (s : State) (q n : Nat) :
    s.takeSlabs q n = ((s.refilled.sub R.QMX_POOL_FREE_FREE n).setAlloc q (s.refilled.get R.QMX_Q_RES_ALLOC q + n)).syncLow := rfl

theorem State.refilled_queue (s : State) (q : Nat) : s.refilled.queue q = s.queue q := by
  unfold State.refilled
  split <;> rfl

theorem State.refilled_get (s : State) (g : Fld) (q : Nat) (hg : 0xC00000 ≤ g.base) : s.refilled.get g q = s.get g q := by
  unfold State.refilled
  split
  · exact (State.get_queue_set _ R.QMX_AUD_TRANSIT_TRANSIT _ _ _ (by decide) hg).trans
      ((State.get_queue_set _ R.QMX_POOL_FREE_FREE _ _ _ (by decide) hg).trans rfl)
  · rfl

theorem State.takeSlabs_queue (s : State) (q n : Nat) : (s.takeSlabs q n).queue q = s.queue q := by
  rw [State.takeSlabs_eq, State.syncLow_queue]
  exact s.refilled_queue q

theorem State.takeSlabs_get (s : State) (q n : Nat) (hq : q < 262144) (g : Fld) (hs : g.s1 = 0x20)
    (hg : 0xC00000 ≤ g.base ∧ g.base < 0xC00020 ∧ g.lo < 32) (halloc : g.key 0 0 ≠ R.QMX_Q_RES_ALLOC.key 0 0) :
    (s.takeSlabs q n).get g q = s.get g q := by
  obtain ⟨hlo, hhi, hbit⟩ := hg
  have hlow : g.key q 0 ≠ R.QMX_STATUS_LOW.key 0 0 := by simp only [Fld.key, R.QMX_STATUS_LOW]; omega
  have hevent : g.key q 0 < 0x1D00000 * 32 := by simp only [Fld.key, hs]; omega
  rw [State.takeSlabs_eq, State.syncLow_get _ _ _ hlow hevent, State.setAlloc_get _ _ _ _ hs hlo halloc]
  exact (State.get_queue_set _ R.QMX_POOL_FREE_FREE _ _ _ (by decide) hlo).trans (s.refilled_get g q hlo)

theorem State.takeSlabs_free (s : State) (q : Nat) (hfree : s.get R.QMX_POOL_FREE_FREE ≠ 0) :
    (s.takeSlabs q 1).get R.QMX_POOL_FREE_FREE = (s.get R.QMX_POOL_FREE_FREE - 1) % 2 ^ 17 := by
  have hkeep : s.refilled = s := if_neg hfree
  rw [State.takeSlabs_eq, State.syncLow_get _ _ _ (by decide) (by decide), State.setAlloc_free, hkeep]
  exact State.get_set_self ..

/-! ### Closing a drawer (R220) -/

theorem Queue.drawer_setDrawer (x : Queue) (d : Nat) (ws : List QWord) (n : Nat) : (x.setDrawer d ws n).drawer d = ws := by
  unfold Queue.setDrawer Queue.drawer
  split <;> rfl

theorem Queue.drawer_setDrawer_other (x : Queue) (d : Nat) (ws : List QWord) (n : Nat) :
    (x.setDrawer d ws n).drawer (1 - d) = x.drawer (1 - d) := by
  obtain rfl | hd := Nat.eq_zero_or_pos d
  · rfl
  · rw [Queue.setDrawer, if_neg (Nat.pos_iff_ne_zero.1 hd), Nat.sub_eq_zero_of_le hd]
    rfl

theorem Queue.written_setDrawer_other (x : Queue) (d : Nat) (ws : List QWord) (n : Nat) :
    (x.setDrawer d ws n).written (1 - d) = x.written (1 - d) := by
  obtain rfl | hd := Nat.eq_zero_or_pos d
  · rfl
  · rw [Queue.setDrawer, if_neg (Nat.pos_iff_ne_zero.1 hd), Nat.sub_eq_zero_of_le hd]
    rfl

theorem Queue.present_setDrawer (x : Queue) (d : Nat) (ws : List QWord) (n : Nat) : (x.setDrawer d ws n).present = x.present := by
  unfold Queue.setDrawer
  split <;> rfl

theorem Queue.closed_setDrawer (x : Queue) (d : Nat) (ws : List QWord) (n : Nat) : (x.setDrawer d ws n).closed = x.closed := by
  unfold Queue.setDrawer
  split <;> rfl

/-- A closed drawer whose reader holds an empty one is handed over. -/
theorem State.closeDrawer_swaps (s : State) (q : Nat) (hempty : (s.queue q).drawer (1 - s.get R.QMX_Q_STATUS_WR_DRAWER q) = [])
    (hwritten : (s.queue q).written (1 - s.get R.QMX_Q_STATUS_WR_DRAWER q) = 0) : s.closeDrawer q =
      (((s.setQueue q { s.queue q with closed := true }).setQueue q { s.queue q with closed := false }).set R.QMX_Q_STATUS_WR_DRAWER
        (1 - s.get R.QMX_Q_STATUS_WR_DRAWER q) q).endWrWait q := by
  unfold State.closeDrawer State.handOver
  simp only [State.setQueue_queue, State.setQueue_get, not_true_eq_false, if_false]
  refine if_pos ⟨?_, hwritten⟩
  exact List.isEmpty_iff.2 hempty

/-- Behind a reader's drawer that is not released the writer waits. -/
theorem State.closeDrawer_waits (s : State) (q : Nat) (h : ¬ ((s.queue q).drawer (1 - s.get R.QMX_Q_STATUS_WR_DRAWER q) = [] ∧
    (s.queue q).written (1 - s.get R.QMX_Q_STATUS_WR_DRAWER q) = 0)) : s.closeDrawer q =
      (s.setQueue q { s.queue q with closed := true }).set R.QMX_Q_STATUS_FULL 1 q := by
  unfold State.closeDrawer State.handOver
  simp only [State.setQueue_queue, State.setQueue_get, not_true_eq_false, if_false]
  exact if_neg fun hc => h ⟨List.isEmpty_iff.1 hc.1, hc.2⟩

/-! ### A word presented (R219, R220, R222, R225) -/

section
variable {q : Fin 262144} {d : BitVec 64} {fin : Bool} {s : State} (hpresent : (s.queue q).present = [])
include hpresent

theorem execQueueWrite_taken {u : State} (h : s.offerWord q ⟨d.toNat, fin⟩ = (true, u)) :
    exec (.queueWrite q d fin) s = .next (u.setQueue q { u.queue q with present := [] }) := by
  change (.next (s.drainList q ((s.queue q).present ++ [⟨d.toNat, fin⟩])) : Out) = _
  rw [hpresent, List.nil_append, State.drainList, h]
  rfl

theorem execQueueWrite_waits {u : State} (h : s.offerWord q ⟨d.toNat, fin⟩ = (false, u)) :
    exec (.queueWrite q d fin) s = .next (u.setQueue q { u.queue q with present := [⟨d.toNat, fin⟩] }) := by
  change (.next (s.drainList q ((s.queue q).present ++ [⟨d.toNat, fin⟩])) : Out) = _
  rw [hpresent, List.nil_append, State.drainList, h]

end

section
variable {q : Nat} {w : QWord} {s : State} (hresync : s.wrResync q = false) (hst : s.qState q = 1)
include hresync hst

theorem State.offerWord_ring (hring : s.isRing q = true) :
    s.offerWord q w = (true, if (s.queue q).ring.length < 16384 then s.appendRing q w else s.dropDescriptor q) := by
  rw [State.offerWord, if_neg (by rw [hresync]; exact Bool.noConfusion), if_neg (not_not_intro hst), if_pos hring]

variable (hring : s.isRing q = false)
include hring

theorem State.offerWord_closed (hclosed : (s.queue q).closed = true) : s.offerWord q w = (false, s.set R.QMX_Q_STATUS_FULL 1 q) := by
  rw [State.offerWord, if_neg (by rw [hresync]; exact Bool.noConfusion), if_neg (not_not_intro hst), if_neg (by rw [hring]; exact Bool.noConfusion),
    if_pos hclosed]

variable (hopen : (s.queue q).closed = false)
include hopen

theorem State.needsSlab_iff : s.needsSlab q = true ↔ (s.queue q).written (s.get R.QMX_Q_STATUS_WR_DRAWER q) % 64 = 0 := by
  simp [State.needsSlab, hresync, hst, hring, hopen]

theorem State.offerWord_open : s.offerWord q w =
    if s.needsSlab q then if s.maySlab q then (true, (s.takeSlabs q 1).appendWord q w) else (false, s.set R.QMX_Q_STATUS_ALLOC_WAIT 1 q)
    else (true, s.appendWord q w) := by
  rw [State.offerWord, if_neg (by rw [hresync]; exact Bool.noConfusion), if_neg (not_not_intro hst), if_neg (by rw [hring]; exact Bool.noConfusion),
    if_neg (by rw [hopen]; exact Bool.noConfusion)]

end

/-- The state in which a word is appended: its queue has a slab for it. -/
def State.withSlab (s : State) (q : Nat) : State := if s.needsSlab q then s.takeSlabs q 1 else s

theorem State.withSlab_queue (s : State) (q : Nat) : (s.withSlab q).queue q = s.queue q := by
  unfold State.withSlab
  split
  · exact s.takeSlabs_queue q 1
  · rfl

theorem State.withSlab_get (s : State) (q : Nat) (hq : q < 262144) (g : Fld) (hs : g.s1 = 0x20)
    (hg : 0xC00000 ≤ g.base ∧ g.base < 0xC00020 ∧ g.lo < 32) (halloc : g.key 0 0 ≠ R.QMX_Q_RES_ALLOC.key 0 0) :
    (s.withSlab q).get g q = s.get g q := by
  unfold State.withSlab
  split
  · exact s.takeSlabs_get q 1 hq g hs hg halloc
  · rfl

/-- What closing a drawer leaves, whether it is handed over or waits. -/
theorem State.closeDrawer_leaves (s : State) (q : Nat) :
    (∃ c b, (s.closeDrawer q).queue q = { s.queue q with closed := c, wrStalled := b }) ∧
      (s.get R.QMX_Q_STATUS_ALLOC_WAIT q = 0 → (s.closeDrawer q).get R.QMX_Q_STATUS_ALLOC_WAIT q = 0) ∧
      (s.closeDrawer q).get R.QMX_POOL_FREE_FREE = s.get R.QMX_POOL_FREE_FREE := by
  by_cases h : (s.queue q).drawer (1 - s.get R.QMX_Q_STATUS_WR_DRAWER q) = [] ∧
      (s.queue q).written (1 - s.get R.QMX_Q_STATUS_WR_DRAWER q) = 0
  · rw [s.closeDrawer_swaps q h.1 h.2]
    refine ⟨⟨false, false, ?_⟩, fun _ => State.endWrWait_allocWait _ _, ?_⟩
    · rw [State.endWrWait_queue, State.set_queue, State.setQueue_queue]
    · rw [State.endWrWait_free, State.get_free_set _ R.QMX_Q_STATUS_WR_DRAWER]
      rfl
  · rw [s.closeDrawer_waits q h]
    refine ⟨⟨true, (s.queue q).wrStalled, ?_⟩, fun h0 => ?_, (State.get_free_set _ R.QMX_Q_STATUS_FULL _ _).trans rfl⟩
    · rw [State.set_queue, State.setQueue_queue]
    · rw [State.get_set_ne_same _ R.QMX_Q_STATUS_FULL R.QMX_Q_STATUS_ALLOC_WAIT _ _ rfl (by decide)]
      exact h0

/-- A handed over drawer's writer goes on in the other one. -/
theorem State.closeDrawer_handsOver (s : State) (q : Nat)
    (hempty : (s.queue q).drawer (1 - s.get R.QMX_Q_STATUS_WR_DRAWER q) = [])
    (hwritten : (s.queue q).written (1 - s.get R.QMX_Q_STATUS_WR_DRAWER q) = 0) :
    (s.closeDrawer q).get R.QMX_Q_STATUS_WR_DRAWER q = 1 - s.get R.QMX_Q_STATUS_WR_DRAWER q ∧
      (s.closeDrawer q).get R.QMX_Q_STATUS_FULL q = 0 ∧ ((s.closeDrawer q).queue q).closed = false := by
  rw [s.closeDrawer_swaps q hempty hwritten]
  refine ⟨?_, State.endWrWait_full _ _, ?_⟩
  · rw [State.endWrWait_get _ _ _ rfl (by decide) (by decide)]
    exact State.get_set_lt _ _ _ _ _ (Nat.lt_of_le_of_lt (Nat.sub_le _ _) (by decide))
  · rw [State.endWrWait_queue, State.set_queue, State.setQueue_queue]

theorem State.closeDrawer_full (s : State) (q : Nat) (hfull : (s.queue q).drawer (1 - s.get R.QMX_Q_STATUS_WR_DRAWER q) ≠ []) :
    (s.closeDrawer q).get R.QMX_Q_STATUS_WR_DRAWER q = s.get R.QMX_Q_STATUS_WR_DRAWER q ∧
      (s.closeDrawer q).get R.QMX_Q_STATUS_FULL q = 1 ∧ ((s.closeDrawer q).queue q).closed = true := by
  rw [s.closeDrawer_waits q fun h => hfull h.1]
  refine ⟨?_, State.get_set_self .., ?_⟩
  · rw [State.get_set_ne_same _ R.QMX_Q_STATUS_FULL R.QMX_Q_STATUS_WR_DRAWER _ _ rfl (by decide)]
    rfl
  · rw [State.set_queue, State.setQueue_queue]

/-- A word put into an open drawer: what closing the drawer leaves of it. -/
theorem Appended.leaves {q : Nat} {w : QWord} {s u v : State} (h : Appended q w s u) {closes : Prop} [Decidable closes]
    (hv : v = if closes then u.closeDrawer q else u) :
    let wd := s.get R.QMX_Q_STATUS_WR_DRAWER q
    (v.queue q).drawer wd = (s.queue q).drawer wd ++ [w] ∧ (v.queue q).drawer (1 - wd) = (s.queue q).drawer (1 - wd) ∧
      v.get R.QMX_Q_STATUS_ALLOC_WAIT q = 0 ∧ v.get R.QMX_POOL_FREE_FREE = s.get R.QMX_POOL_FREE_FREE := by
  intro wd
  have hdrawers : ∃ c b, v.queue q = { u.queue q with closed := c, wrStalled := b } := by
    rw [hv]
    split
    · exact (u.closeDrawer_leaves q).1
    · exact ⟨_, _, rfl⟩
  obtain ⟨c, b, hqueue⟩ := hdrawers
  rw [hqueue, h.queue]
  refine ⟨Queue.drawer_setDrawer _ _ _ _, Queue.drawer_setDrawer_other _ _ _ _, ?_⟩
  rw [hv]
  obtain ⟨-, halloc, hfree⟩ := u.closeDrawer_leaves q
  split
  · exact ⟨halloc h.allocWait, hfree.trans h.free⟩
  · exact ⟨h.allocWait, h.free⟩

theorem queueWrite_open (q : Fin 262144) (d : BitVec 64) (fin : Bool) (s : State) (hpresent : (s.queue q).present = [])
    (hresync : s.wrResync q = false) (hst : s.qState q = 1) (hring : s.isRing q = false) (hopen : (s.queue q).closed = false)
    (hslab : (s.queue q).written (s.get R.QMX_Q_STATUS_WR_DRAWER q) % 64 ≠ 0 ∨ s.maySlab q = true) :
    ∃ u v, Appended q ⟨d.toNat, fin⟩ (s.withSlab q) u ∧
      v = (if (s.queue q).written (s.get R.QMX_Q_STATUS_WR_DRAWER q) + 1 = s.get R.QMX_Q_CFG_MAX q * 64 ∨
        (fin = true ∧ s.on R.QMX_Q_CFG_CLOSE_END q = true) then u.closeDrawer q else u) ∧
      exec (.queueWrite q d fin) s = .next (v.setQueue q { v.queue q with present := [] }) := by
  have hneeds := State.needsSlab_iff hresync hst hring hopen
  have hoffer : s.offerWord q ⟨d.toNat, fin⟩ = (true, (s.withSlab q).appendWord q ⟨d.toNat, fin⟩) := by
    rw [State.offerWord_open hresync hst hring hopen, State.withSlab]
    split
    · rename_i hn
      rw [if_pos (hslab.resolve_left fun h => h (hneeds.1 hn))]
    · rfl
  obtain ⟨u, happ, heq⟩ := (s.withSlab q).appendWord_appends q ⟨d.toNat, fin⟩
  refine ⟨u, _, happ, rfl, (execQueueWrite_taken hpresent hoffer).trans ?_⟩
  have hq := q.isLt
  rw [heq, State.on, s.withSlab_queue, s.withSlab_get q hq _ rfl (by decide) (by decide), s.withSlab_get q hq _ rfl (by decide) (by decide),
    s.withSlab_get q hq _ rfl (by decide) (by decide)]
  rfl

/-- A word for which a ring has no room is shown as OVERFLOW and captured. -/
theorem State.dropDescriptor_shows (s : State) (q : Nat) (hq : q < 262144) :
    (s.dropDescriptor q).queue q = s.queue q ∧ (s.dropDescriptor q).get R.QMX_Q_STATUS_OVERFLOW q = 1 ∧
      (s.dropDescriptor q).get R.QMX_EVT_LAST_QUEUE = q ∧ (s.dropDescriptor q).get R.QMX_EVT_LAST_KIND = 4 := by
  have hoverflow : R.QMX_Q_STATUS_OVERFLOW.key q 0 < 0x1D00000 * 32 := by simp only [Fld.key, R.QMX_Q_STATUS_OVERFLOW]; omega
  unfold State.dropDescriptor
  refine ⟨State.raise_queue .., ?_, ?_, ?_⟩
  · rw [State.raise_get_below _ _ hoverflow, State.get_queue_set _ R.QMX_EVT_LAST_KIND R.QMX_Q_STATUS_OVERFLOW,
      State.get_queue_set _ R.QMX_EVT_LAST_QUEUE R.QMX_Q_STATUS_OVERFLOW, State.get_set_self]
    rfl
  · rw [State.raise_get_below _ _ (by decide), State.get_set_ne _ R.QMX_EVT_LAST_KIND _ _ _ _ _ _ (by decide)]
    exact State.get_set_lt _ _ _ _ _ hq
  · rw [State.raise_get_below _ _ (by decide)]
    exact State.get_set_self ..

theorem queueWrite : QueueWrite := by
  intro q d fin s hpresent hresync hst w
  have hq := q.isLt
  refine ⟨fun hring => ⟨fun hroom => ?_, fun hfull => ?_⟩, fun hring => ?_⟩
  · refine ⟨_, execQueueWrite_taken hpresent ((State.offerWord_ring hresync hst hring).trans (by rw [if_pos hroom])), ?_, ?_⟩
    · rw [State.setQueue_queue, State.appendRing, State.countWord_queue, State.putQueue_queue]
    · rw [State.setQueue_queue]
  · refine ⟨_, execQueueWrite_taken hpresent ((State.offerWord_ring hresync hst hring).trans (by rw [if_neg (Nat.not_lt.2 hfull)])), ?_⟩
    obtain ⟨hqueue, hshown⟩ := s.dropDescriptor_shows q hq
    rw [State.setQueue_queue, hqueue]
    exact ⟨rfl, rfl, hshown⟩
  · intro wd n closes
    refine ⟨fun hopen hslab => ?_, fun hopen hfirst hno => ?_, fun hclosed => ?_⟩
    · obtain ⟨u, v, happ, hv, hexec⟩ := queueWrite_open q d fin s hpresent hresync hst hring hopen hslab
      have hwd : (s.withSlab q).get R.QMX_Q_STATUS_WR_DRAWER q = wd := s.withSlab_get q hq _ rfl (by decide) (by decide)
      have hneeds := State.needsSlab_iff hresync hst hring hopen
      obtain ⟨hown, hother, halloc, hfree⟩ := happ.leaves hv
      have hueq := happ.queue
      have huwd := happ.wrDrawer
      rw [hwd, s.withSlab_queue] at hown hother hueq
      rw [hwd] at huwd
      refine ⟨_, hexec, ?_, ?_, ?_, halloc, fun hn => ?_, fun hn hpool => ?_, fun hopenStill => ?_, fun hcl _ hempty hwritten => ?_,
        fun hcl hheld => ?_⟩
      · rw [State.setQueue_queue]
        exact hown
      · rw [State.setQueue_queue]
        exact hother
      · rw [State.setQueue_queue]
      · exact hfree.trans (by rw [State.withSlab, if_neg fun h => hn (hneeds.1 h)])
      · exact hfree.trans (by rw [State.withSlab, if_pos (hneeds.2 hn), State.takeSlabs_free _ _ hpool])
      · rw [if_neg hopenStill] at hv
        rw [State.setQueue_queue, State.setQueue_get, State.setQueue_get, hv, hueq]
        exact ⟨huwd, happ.full, (Queue.closed_setDrawer _ _ _ _).trans hopen⟩
      · rw [if_pos hcl] at hv
        obtain ⟨h1, h2, h3⟩ := u.closeDrawer_handsOver q
          (by rw [huwd, hueq]; exact (Queue.drawer_setDrawer_other _ _ _ _).trans hempty)
          (by rw [huwd, hueq]; exact (Queue.written_setDrawer_other _ _ _ _).trans hwritten)
        rw [State.setQueue_queue, State.setQueue_get, State.setQueue_get, hv, ← huwd]
        exact ⟨h1, h2, h3⟩
      · rw [if_pos hcl] at hv
        obtain ⟨h1, h2, h3⟩ := u.closeDrawer_full q
          (by rw [huwd, hueq]; exact fun h => hheld ((Queue.drawer_setDrawer_other _ _ _ _).symm.trans h))
        rw [State.setQueue_queue, State.setQueue_get, State.setQueue_get, hv, ← huwd]
        exact ⟨h1, h2, h3⟩
    · refine (execQueueWrite_waits hpresent ((State.offerWord_open hresync hst hring hopen).trans ?_)).trans rfl
      rw [if_pos ((State.needsSlab_iff hresync hst hring hopen).2 hfirst), if_neg (by rw [hno]; exact Bool.noConfusion)]
    · exact execQueueWrite_waits hpresent (State.offerWord_closed hresync hst hring hclosed)

end Sys2Proof.Machine
end

section
/-! PROOFS. Words read from a queue (R215, R216, R222, R224, R238). -/

open Sys2Proof Sys2Proof.Stated

namespace Sys2Proof.Machine

/-! ### What a writer that goes on leaves alone of its queue's readers -/

/-- A field of a queue other than the two that tell of its readers. -/
def Fld.writers (f : Fld) : Bool :=
  decide (f.s1 = 0x20) && decide (f.key 0 0 ≠ R.QMX_Q_STATUS_RD_RESYNC.key 0 0) && decide (f.key 0 0 ≠ R.QMX_Q_ECC_CORR.key 0 0)

/-- A field of the pool. -/
def Fld.pool (f : Fld) : Bool := decide (f.base < 0x209000 ∧ f.lo < 32)

/-- The readers of a queue stand as they were: what was delivered to them, their places in a ring, the resync of the reader and the count
of corrected words. -/
structure ReadersKept (q : Nat) (s t : State) : Prop where
  intake : (t.queue q).intake = (s.queue q).intake
  first : (t.queue q).first = (s.queue q).first
  second : (t.queue q).second = (s.queue q).second
  resync : t.get R.QMX_Q_STATUS_RD_RESYNC q = s.get R.QMX_Q_STATUS_RD_RESYNC q
  corr : t.get R.QMX_Q_ECC_CORR q = s.get R.QMX_Q_ECC_CORR q

namespace ReadersKept

variable {q : Nat} {s t : State}

theorem refl (s : State) : ReadersKept q s s := ⟨rfl, rfl, rfl, rfl, rfl⟩

theorem set {f : Fld} {v : Nat} (h : ReadersKept q s t) (hf : f.writers = true := by rfl) : ReadersKept q s (t.set f v q) := by
  simp only [Fld.writers, Bool.and_eq_true, decide_eq_true_eq] at hf
  obtain ⟨⟨hs, hresync⟩, hcorr⟩ := hf
  exact ⟨h.intake, h.first, h.second, (State.get_set_ne_same _ _ _ _ _ hs.symm hresync.symm).trans h.resync,
    (State.get_set_ne_same _ _ _ _ _ hs.symm hcorr.symm).trans h.corr⟩

theorem setPool {f : Fld} {v : Nat} (h : ReadersKept q s t) (hf : f.pool = true := by rfl) : ReadersKept q s (t.set f v) := by
  simp only [Fld.pool, decide_eq_true_eq] at hf
  exact ⟨h.intake, h.first, h.second, (State.get_queue_set _ _ R.QMX_Q_STATUS_RD_RESYNC _ _ hf).trans h.resync,
    (State.get_queue_set _ _ R.QMX_Q_ECC_CORR _ _ hf).trans h.corr⟩

theorem add {f : Fld} {n : Nat} (h : ReadersKept q s t) (hf : f.writers = true := by rfl) : ReadersKept q s (t.add f n q) := h.set hf

theorem addSat {f : Fld} {n : Nat} (h : ReadersKept q s t) (hf : f.writers = true := by rfl) : ReadersKept q s (t.addSat f n q) := h.set hf

theorem addPool {f : Fld} {n : Nat} (h : ReadersKept q s t) (hf : f.pool = true := by rfl) : ReadersKept q s (t.add f n) := h.setPool hf

theorem subPool {f : Fld} {n : Nat} (h : ReadersKept q s t) (hf : f.pool = true := by rfl) : ReadersKept q s (t.sub f n) := h.setPool hf

/-- A record with the same readers put for the queue's. -/
theorem setQueue {x : Queue} (h : ReadersKept q s t) (hi : x.intake = (t.queue q).intake) (h1 : x.first = (t.queue q).first)
    (h2 : x.second = (t.queue q).second) : ReadersKept q s (t.setQueue q x) :=
  ⟨by rw [State.setQueue_queue, hi, h.intake], by rw [State.setQueue_queue, h1, h.first], by rw [State.setQueue_queue, h2, h.second],
    h.resync, h.corr⟩

theorem putQueue {x : Queue} (h : ReadersKept q s t) (hi : x.intake = (t.queue q).intake) (h1 : x.first = (t.queue q).first)
    (h2 : x.second = (t.queue q).second) : ReadersKept q s (t.putQueue q x) := .set (.setQueue h hi h1 h2)

theorem ite {u : State} {c : Prop} [Decidable c] (ht : ReadersKept q s t) (hu : ReadersKept q s u) : ReadersKept q s (if c then t else u) := by
  split
  · exact ht
  · exact hu

theorem of_parts {u : State} (h : ReadersKept q s t) (hregs : u.regs = t.regs) (hqueue : u.queue q = t.queue q) : ReadersKept q s u :=
  ⟨by rw [hqueue, h.intake], by rw [hqueue, h.first], by rw [hqueue, h.second], (State.get_of_regs hregs _ _ _).trans h.resync,
    (State.get_of_regs hregs _ _ _).trans h.corr⟩

theorem setAlloc {n : Nat} (h : ReadersKept q s t) : ReadersKept q s (t.setAlloc q n) := .setPool (.setPool (.set h))

theorem endWrWait (h : ReadersKept q s t) : ReadersKept q s (t.endWrWait q) := .setQueue (.set (.set h)) rfl rfl rfl

theorem handOver (h : ReadersKept q s t) : ReadersKept q s (t.handOver q) := by
  unfold State.handOver
  dsimp only
  split
  · exact h
  · split
    · exact .endWrWait (.set (.setQueue h rfl rfl rfl))
    · exact .set h

theorem setDrawer {d n : Nat} {ws : List QWord} (h : ReadersKept q s t) :
    ReadersKept q s (t.putQueue q ((t.queue q).setDrawer d ws n)) := by
  refine .putQueue h ?_ ?_ ?_ <;> unfold Queue.setDrawer <;> split <;> rfl

theorem appendWord {w : QWord} (h : ReadersKept q s t) : ReadersKept q s (t.appendWord q w) :=
  .ite (.handOver (.setQueue (.endWrWait (.set (.ite (.add (.setDrawer h)) (.setDrawer h)))) rfl rfl rfl))
    (.endWrWait (.set (.ite (.add (.setDrawer h)) (.setDrawer h))))

theorem appendRing {w : QWord} (h : ReadersKept q s t) : ReadersKept q s (t.appendRing q w) :=
  .set (.ite (.add (.putQueue h rfl rfl rfl)) (.putQueue h rfl rfl rfl))

theorem resyncWord {w : QWord} (h : ReadersKept q s t) : ReadersKept q s (t.resyncWord q w) :=
  .ite (.set (.set (.add (.add (.addSat h))))) (.addSat h)

variable (hq : q < 262144)
include hq

theorem raise {n : Nat} (h : ReadersKept q s t) : ReadersKept q s (t.raise n) := by
  have hresync : R.QMX_Q_STATUS_RD_RESYNC.key q 0 < 0x1D00000 * 32 := by simp only [Fld.key, R.QMX_Q_STATUS_RD_RESYNC]; omega
  have hcorr : R.QMX_Q_ECC_CORR.key q 0 < 0x1D00000 * 32 := by simp only [Fld.key, R.QMX_Q_ECC_CORR]; omega
  have hqueue := t.raise_queue n q
  exact ⟨by rw [hqueue, h.intake], by rw [hqueue, h.first], by rw [hqueue, h.second], (State.raise_get_below _ _ hresync).trans h.resync,
    (State.raise_get_below _ _ hcorr).trans h.corr⟩

theorem syncLow (h : ReadersKept q s t) : ReadersKept q s t.syncLow := by
  unfold State.syncLow
  dsimp only
  split
  · exact .raise hq (.setPool h)
  · exact .ite h (.setPool h)

theorem takeSlabs {n : Nat} (h : ReadersKept q s t) : ReadersKept q s (t.takeSlabs q n) := by
  have hrefilled : ReadersKept q s t.refilled := .ite (.subPool (.addPool (h.of_parts rfl rfl))) h
  exact .syncLow hq (.setAlloc (.subPool hrefilled))

theorem releaseSlabs {n : Nat} {flush : Bool} (h : ReadersKept q s t) : ReadersKept q s (t.releaseSlabs q n flush) := by
  unfold State.releaseSlabs
  split
  · exact h
  · have hcount : ReadersKept q s ((t.setAlloc q (t.get R.QMX_Q_RES_ALLOC q - n)).add R.QMX_AUD_TRANSIT_TRANSIT n) := .addPool (.setAlloc h)
    exact .syncLow hq (hcount.of_parts rfl rfl)

theorem dropDescriptor (h : ReadersKept q s t) : ReadersKept q s (t.dropDescriptor q) := .raise hq (.setPool (.setPool (.set h)))

theorem offerWord {w : QWord} (h : ReadersKept q s t) : ReadersKept q s (t.offerWord q w).2 := by
  unfold State.offerWord
  split
  · exact .resyncWord h
  split
  · exact h
  split
  · exact .ite (.appendRing h) (.dropDescriptor hq h)
  split
  · exact .set h
  split
  · split
    · exact .appendWord (.takeSlabs hq h)
    · exact .set h
  · exact .appendWord h

theorem drainList {ws : List QWord} (h : ReadersKept q s t) : ReadersKept q s (t.drainList q ws) := by
  induction ws generalizing t with
  | nil => exact .setQueue h rfl rfl rfl
  | cons w ws ih =>
    have hoffer : ReadersKept q s (t.offerWord q w).2 := .offerWord hq h
    unfold State.drainList
    generalize t.offerWord q w = r at hoffer
    obtain ⟨taken, u⟩ := r
    cases taken
    · exact .setQueue hoffer rfl rfl rfl
    · exact ih hoffer

theorem drain (h : ReadersKept q s t) : ReadersKept q s (t.drain q) := .drainList hq h

theorem releaseDrawer (h : ReadersKept q s t) : ReadersKept q s (t.releaseDrawer q) :=
  .ite (.drain hq (.handOver (.releaseSlabs hq (.setDrawer h)))) h

end ReadersKept

/-! ### A word delivered (R215, R216, R224) -/

/-- What delivery to a queue's reader leaves. -/
theorem State.deliver_shows (s : State) (q : Nat) (w : DWord) :
    ((s.deliver q w).queue q).intake = (s.queue q).intake ++ [w] ∧ ((s.deliver q w).queue q).d0 = (s.queue q).d0 ∧
      ((s.deliver q w).queue q).d1 = (s.queue q).d1 ∧ ((s.deliver q w).queue q).truncOwed = (s.queue q).truncOwed ∧
      (s.deliver q w).get R.QMX_Q_STATUS_READ_WAIT q = 0 := by
  unfold State.deliver State.endRdWait
  simp only [State.set_queue, State.setQueue_queue]
  refine ⟨trivial, trivial, trivial, trivial, ?_⟩
  rw [State.get_set_ne_same _ R.QMX_Q_STATUS_RD_OPEN R.QMX_Q_STATUS_READ_WAIT _ _ rfl (by decide), State.setQueue_get, State.setQueue_get]
  exact State.get_set_self ..

/-- Delivery writes READ_WAIT and RD_OPEN alone. -/
theorem State.deliver_get (s : State) (q : Nat) (w : DWord) (g : Fld) (hs : g.s1 = 0x20)
    (hwait : g.key 0 0 ≠ R.QMX_Q_STATUS_READ_WAIT.key 0 0) (hopen : g.key 0 0 ≠ R.QMX_Q_STATUS_RD_OPEN.key 0 0) :
    (s.deliver q w).get g q = s.get g q := by
  unfold State.deliver State.endRdWait
  rw [State.get_set_ne_same _ _ _ _ _ hs hopen, State.setQueue_get, State.setQueue_get, State.get_set_ne_same _ _ _ _ _ hs hwait]

theorem State.deliver_getPool (s : State) (q : Nat) (w : DWord) (g : Fld) (hg : g.base < 0x209000 ∧ g.s1 = 0 ∧ g.s2 = 0 ∧ g.lo < 32) :
    (s.deliver q w).get g = s.get g := by
  unfold State.deliver State.endRdWait
  rw [State.get_set_ne, State.setQueue_get, State.setQueue_get, State.get_set_ne]
  all_goals
    simp only [Fld.key, R.QMX_Q_STATUS_RD_OPEN, R.QMX_Q_STATUS_READ_WAIT]
    omega

section
variable {q : Fin 262144} {s : State} {ecc : Ecc} (hring : s.isRing q = false)
include hring

theorem queueRead_trunc (second : Bool) (howed : (s.queue q).truncOwed = true) :
    exec (.queueRead q second ecc) s = .next
      (((s.setQueue q { s.queue q with truncOwed := false }).addSat R.QMX_Q_ECC_TRUNC 1 q).deliver q { fin := true, trunc := true }) := by
  refine congrArg Host.Outcome.next ((if_neg (by rw [hring]; exact Bool.noConfusion)).trans ?_)
  exact if_pos howed

end

/-- The word that has been taken out of the reader's drawer is delivered. -/
def State.deliverPopped (s : State) (q : Nat) (w : QWord) (ecc : Ecc) : State :=
  match ecc with
  | .uncorrectable =>
    ((((s.addSat R.QMX_Q_ECC_UNCORR 1 q).addSat R.QMX_ECC_UNCORR 1).queueEvent q 3 Ev.queueEcc).set R.QMX_Q_STATUS_RD_RESYNC 1 q).deliver q
      { fin := true, poison := true }
  | e =>
    let s2 := if e = .corrected then (s.addSat R.QMX_Q_ECC_CORR 1 q).addSat R.QMX_ECC_CORR 1 else s
    (if w.fin then s2.add R.QMX_Q_RD_PKTS_COUNT 1 q else s2).deliver q { data := w.data, fin := w.fin }

section
variable {q : Nat} {s : State} (howed : (s.queue q).truncOwed = false) (hclean : s.on R.QMX_Q_STATUS_RD_RESYNC q = false) (ecc : Ecc)
include howed hclean

theorem State.readWord_none (hpop : s.popWord q = none) : s.readWord q ecc = s.set R.QMX_Q_STATUS_READ_WAIT 1 q := by
  have hskip : s.skipResync q ((s.queue q).words + 1) = s := if_neg (by rw [hclean]; exact Bool.noConfusion)
  unfold State.readWord
  simp only [howed, hskip, hclean, hpop, Bool.false_eq_true, if_false]

theorem State.readWord_some {w : QWord} {u : State} (hpop : s.popWord q = some (w, u)) : s.readWord q ecc = u.deliverPopped q w ecc := by
  have hskip : s.skipResync q ((s.queue q).words + 1) = s := if_neg (by rw [hclean]; exact Bool.noConfusion)
  unfold State.readWord
  simp only [howed, hskip, hclean, hpop, Bool.false_eq_true, if_false]
  cases ecc <;> rfl

end

/-- The state in which the oldest word of the reader's drawer has been taken out of it. -/
def State.popped (s : State) (q : Nat) (ws : List QWord) : State :=
  (s.putQueue q ((s.queue q).setDrawer (1 - s.get R.QMX_Q_STATUS_WR_DRAWER q) ws
    ((s.queue q).written (1 - s.get R.QMX_Q_STATUS_WR_DRAWER q)))).releaseDrawer q

theorem State.popWord_cons {s : State} {q : Nat} {w : QWord} {ws : List QWord}
    (h : (s.queue q).drawer (1 - s.get R.QMX_Q_STATUS_WR_DRAWER q) = w :: ws) : s.popWord q = some (w, s.popped q ws) := by
  rw [State.popWord, h]
  rfl

theorem State.popped_readers (s : State) {q : Nat} (hq : q < 262144) (ws : List QWord) : ReadersKept q s (s.popped q ws) :=
  .releaseDrawer hq (.setDrawer (.refl s))

/-- A drawer that still holds words is not released. -/
theorem State.popped_drawer (s : State) (q : Nat) {ws : List QWord} (hws : ws ≠ []) :
    ((s.popped q ws).queue q).drawer (1 - s.get R.QMX_Q_STATUS_WR_DRAWER q) = ws := by
  have hwd : (s.putQueue q ((s.queue q).setDrawer (1 - s.get R.QMX_Q_STATUS_WR_DRAWER q) ws
      ((s.queue q).written (1 - s.get R.QMX_Q_STATUS_WR_DRAWER q)))).get R.QMX_Q_STATUS_WR_DRAWER q = s.get R.QMX_Q_STATUS_WR_DRAWER q :=
    State.putQueue_get _ _ _ _ rfl (by decide)
  unfold State.popped State.releaseDrawer
  dsimp only
  rw [hwd, State.putQueue_queue, Queue.drawer_setDrawer, if_neg (by simpa using hws), State.putQueue_queue, Queue.drawer_setDrawer]

/-! What delivery of a popped word shows. -/

theorem State.deliver_drawer (s : State) (q : Nat) (w : DWord) (d : Nat) : ((s.deliver q w).queue q).drawer d = (s.queue q).drawer d := by
  obtain ⟨-, h0, h1, -⟩ := s.deliver_shows q w
  rw [Queue.drawer, Queue.drawer, h0, h1]

/-- The counters of a word read whose check is clean or corrected. -/
def State.countRead (s : State) (q : Nat) (fin corrected : Bool) : State :=
  let s2 := if corrected then (s.addSat R.QMX_Q_ECC_CORR 1 q).addSat R.QMX_ECC_CORR 1 else s
  if fin then s2.add R.QMX_Q_RD_PKTS_COUNT 1 q else s2

theorem State.deliverPopped_eq (s : State) (q : Nat) (w : QWord) {ecc : Ecc} (hecc : ecc ≠ .uncorrectable) :
    s.deliverPopped q w ecc = (s.countRead q w.fin (decide (ecc = .corrected))).deliver q { data := w.data, fin := w.fin } := by
  cases ecc with
  | uncorrectable => exact absurd rfl hecc
  | clean => rfl
  | corrected => rfl

theorem State.countRead_queue (s : State) (q : Nat) (fin corrected : Bool) : (s.countRead q fin corrected).queue q = s.queue q := by
  cases fin <;> cases corrected <;> rfl

theorem State.countRead_resync (s : State) (q : Nat) (fin corrected : Bool) :
    (s.countRead q fin corrected).get R.QMX_Q_STATUS_RD_RESYNC q = s.get R.QMX_Q_STATUS_RD_RESYNC q := by
  have hcorr : ((s.addSat R.QMX_Q_ECC_CORR 1 q).addSat R.QMX_ECC_CORR 1).get R.QMX_Q_STATUS_RD_RESYNC q = s.get R.QMX_Q_STATUS_RD_RESYNC q :=
    (State.get_queue_set _ R.QMX_ECC_CORR R.QMX_Q_STATUS_RD_RESYNC _ _).trans
      (State.get_set_ne_same _ R.QMX_Q_ECC_CORR R.QMX_Q_STATUS_RD_RESYNC _ _ rfl (by decide))
  have hpkts (t : State) : (t.add R.QMX_Q_RD_PKTS_COUNT 1 q).get R.QMX_Q_STATUS_RD_RESYNC q = t.get R.QMX_Q_STATUS_RD_RESYNC q :=
    State.get_set_ne_same _ R.QMX_Q_RD_PKTS_COUNT R.QMX_Q_STATUS_RD_RESYNC _ _ rfl (by decide)
  cases fin <;> cases corrected
  · rfl
  · exact hcorr
  · exact hpkts s
  · exact (hpkts _).trans hcorr

theorem State.countRead_corr (s : State) (q : Nat) (fin corrected : Bool) : (s.countRead q fin corrected).get R.QMX_Q_ECC_CORR q =
    if corrected then (s.addSat R.QMX_Q_ECC_CORR 1 q).get R.QMX_Q_ECC_CORR q else s.get R.QMX_Q_ECC_CORR q := by
  have hpool : ((s.addSat R.QMX_Q_ECC_CORR 1 q).addSat R.QMX_ECC_CORR 1).get R.QMX_Q_ECC_CORR q =
      (s.addSat R.QMX_Q_ECC_CORR 1 q).get R.QMX_Q_ECC_CORR q := State.get_queue_set _ R.QMX_ECC_CORR R.QMX_Q_ECC_CORR _ _
  have hpkts (t : State) : (t.add R.QMX_Q_RD_PKTS_COUNT 1 q).get R.QMX_Q_ECC_CORR q = t.get R.QMX_Q_ECC_CORR q :=
    State.get_set_ne_same _ R.QMX_Q_RD_PKTS_COUNT R.QMX_Q_ECC_CORR _ _ rfl (by decide)
  cases fin <;> cases corrected
  · rfl
  · exact hpool
  · exact hpkts s
  · exact (hpkts _).trans hpool

theorem State.deliverPopped_good (s : State) (q : Nat) (w : QWord) {ecc : Ecc} (hecc : ecc ≠ .uncorrectable) :
    let t := s.deliverPopped q w ecc
    (∀ d, (t.queue q).drawer d = (s.queue q).drawer d) ∧ (t.queue q).intake = (s.queue q).intake ++ [{ data := w.data, fin := w.fin }] ∧
      t.get R.QMX_Q_STATUS_READ_WAIT q = 0 ∧ t.get R.QMX_Q_STATUS_RD_RESYNC q = s.get R.QMX_Q_STATUS_RD_RESYNC q ∧
      t.get R.QMX_Q_ECC_CORR q = if ecc = .corrected then (s.addSat R.QMX_Q_ECC_CORR 1 q).get R.QMX_Q_ECC_CORR q else s.get R.QMX_Q_ECC_CORR q := by
  intro t
  have ht : t = _ := s.deliverPopped_eq q w hecc
  obtain ⟨hintake, -, -, -, hwait⟩ :=
    (s.countRead q w.fin (decide (ecc = .corrected))).deliver_shows q { data := w.data, fin := w.fin }
  rw [s.countRead_queue] at hintake
  rw [ht]
  refine ⟨fun d => ?_, hintake, hwait, ?_, ?_⟩
  · rw [State.deliver_drawer, s.countRead_queue]
  · rw [State.deliver_get _ _ _ _ rfl (by decide) (by decide), s.countRead_resync]
  · rw [State.deliver_get _ _ _ _ rfl (by decide) (by decide), s.countRead_corr]
    simp only [decide_eq_true_eq]

theorem State.deliverPopped_bad (s : State) {q : Nat} (hq : q < 262144) (w : QWord) :
    let t := s.deliverPopped q w .uncorrectable
    (∀ d, (t.queue q).drawer d = (s.queue q).drawer d) ∧ (t.queue q).intake = (s.queue q).intake ++ [{ fin := true, poison := true }] ∧
      t.get R.QMX_Q_STATUS_RD_RESYNC q = 1 ∧ t.get R.QMX_EVT_LAST_QUEUE = q ∧ t.get R.QMX_EVT_LAST_KIND = 3 := by
  intro t
  let v := (((s.addSat R.QMX_Q_ECC_UNCORR 1 q).addSat R.QMX_ECC_UNCORR 1).queueEvent q 3 Ev.queueEcc).set R.QMX_Q_STATUS_RD_RESYNC 1 q
  have ht : t = v.deliver q { fin := true, poison := true } := rfl
  have hqueue : v.queue q = s.queue q := State.raise_queue ..
  obtain ⟨hintake, -, -, -, -⟩ := v.deliver_shows q { fin := true, poison := true }
  rw [hqueue] at hintake
  rw [ht]
  refine ⟨fun d => ?_, hintake, ?_, ?_, ?_⟩
  · rw [State.deliver_drawer, hqueue]
  · rw [State.deliver_get _ _ _ _ rfl (by decide) (by decide)]
    exact State.get_set_self ..
  · rw [State.deliver_getPool _ _ _ _ (by decide)]
    have hlast : v.get R.QMX_EVT_LAST_QUEUE = _ := State.get_set_ne _ _ _ _ _ _ _ _
      (by simp only [Fld.key, R.QMX_Q_STATUS_RD_RESYNC, R.QMX_EVT_LAST_QUEUE]; omega)
    rw [hlast, State.queueEvent, State.raise_get_below _ _ (by decide), State.get_set_ne _ R.QMX_EVT_LAST_KIND _ _ _ _ _ _ (by decide)]
    exact State.get_set_lt _ _ _ _ _ hq
  · rw [State.deliver_getPool _ _ _ _ (by decide)]
    have hlast : v.get R.QMX_EVT_LAST_KIND = _ := State.get_set_ne _ _ _ _ _ _ _ _
      (by simp only [Fld.key, R.QMX_Q_STATUS_RD_RESYNC, R.QMX_EVT_LAST_KIND]; omega)
    rw [hlast, State.queueEvent, State.raise_get_below _ _ (by decide)]
    exact State.get_set_self ..

theorem queueRead_drawers (q : Fin 262144) (second : Bool) (s : State) (hring : s.isRing q = false) (howed : (s.queue q).truncOwed = false)
    (hclean : s.on R.QMX_Q_STATUS_RD_RESYNC q = false) (w : QWord) (ws : List QWord)
    (h : (s.queue q).drawer (1 - s.get R.QMX_Q_STATUS_WR_DRAWER q) = w :: ws) (ecc : Ecc) :
    exec (.queueRead q second ecc) s = .next ((s.popped q ws).deliverPopped q w ecc) := by
  refine congrArg Host.Outcome.next ((if_neg (by rw [hring]; exact Bool.noConfusion)).trans ?_)
  exact State.readWord_some howed hclean ecc (State.popWord_cons h)

/-! ### The readers of a ring (R216, R222, R224, R234) -/

theorem State.putSide_side (s : State) (q : Nat) (second : Bool) (y : RingSide) : ((s.putSide q second y).queue q).side second = y := by
  unfold State.putSide
  simp only [State.set_queue, State.setQueue_queue]
  cases second <;> rfl

theorem State.putSide_ring (s : State) (q : Nat) (second : Bool) (y : RingSide) :
    ((s.putSide q second y).queue q).ring = (s.queue q).ring ∧ ((s.putSide q second y).queue q).present = (s.queue q).present := by
  unfold State.putSide
  simp only [State.set_queue, State.setQueue_queue]
  cases second <;> exact ⟨rfl, rfl⟩

/-- The words that a ring's reader has not taken. -/
def Queue.untaken (x : Queue) (second : Bool) : List QWord := x.ring.drop (x.side second).pos

theorem State.ringRest_eq (s : State) (q : Nat) (second : Bool) :
    s.ringRest q second = if ((s.queue q).untaken second).any (·.fin) then (s.queue q).untaken second else [] := rfl

/-- Trimming a ring moves no reader on. -/
theorem State.trimRing_shows (s : State) (q : Nat) (second : Bool) :
    ((s.trimRing q).queue q).untaken second = (s.queue q).untaken second ∧
      ((s.trimRing q).queue q).side second = { (s.queue q).side second with
        pos := ((s.queue q).side second).pos - min (s.queue q).first.pos (s.queue q).second.pos } ∧
      ((s.trimRing q).queue q).present = (s.queue q).present := by
  unfold State.trimRing
  dsimp only
  rw [State.putQueue_queue]
  refine ⟨?_, ?_, rfl⟩
  · cases second
    · simp only [Queue.untaken, Queue.side, List.drop_drop, Bool.false_eq_true, if_false]
      congr 1
      omega
    · simp only [Queue.untaken, Queue.side, List.drop_drop, if_true]
      congr 1
      omega
  · cases second <;> rfl

/-- Trimming a ring on which no writer waits. -/
theorem State.trimmed_shows (s : State) (q : Nat) (second : Bool) (hpresent : (s.queue q).present = []) :
    let t := (s.trimRing q).drain q
    (t.queue q).untaken second = (s.queue q).untaken second ∧ (t.queue q).present = [] ∧
      ((t.queue q).side second).skip = ((s.queue q).side second).skip ∧ ((t.queue q).side second).intake = ((s.queue q).side second).intake ∧
      t.get R.QMX_Q_DISC_COUNT q = s.get R.QMX_Q_DISC_COUNT q := by
  obtain ⟨huntaken, hside, hkept⟩ := s.trimRing_shows q second
  have hdrain : (s.trimRing q).drain q = (s.trimRing q).setQueue q { (s.trimRing q).queue q with present := [] } := by
    rw [State.drain, hkept, hpresent]
    rfl
  have hsame : (({ (s.trimRing q).queue q with present := [] } : Queue)).side second = ((s.trimRing q).queue q).side second := by
    cases second <;> rfl
  intro t
  have ht : t = (s.trimRing q).setQueue q { (s.trimRing q).queue q with present := [] } := hdrain
  rw [ht, State.setQueue_queue, hsame, hside]
  refine ⟨Eq.trans ?_ huntaken, rfl, rfl, rfl, ?_⟩
  · rw [Queue.untaken, Queue.untaken, hsame]
  · rw [State.setQueue_get]
    exact State.putQueue_get _ _ _ _ rfl (by decide)

theorem State.putSide_disc (s : State) (q : Nat) (second : Bool) (y : RingSide) :
    (s.putSide q second y).get R.QMX_Q_DISC_COUNT q = s.get R.QMX_Q_DISC_COUNT q := by
  unfold State.putSide
  dsimp only
  rw [State.get_set_ne_same _ R.QMX_Q_STATUS_RD_RESYNC R.QMX_Q_DISC_COUNT _ _ rfl (by decide),
    State.get_set_ne_same _ R.QMX_Q_STATUS_READ_WAIT R.QMX_Q_DISC_COUNT _ _ rfl (by decide),
    State.get_set_ne_same _ R.QMX_Q_STATUS_RD_OPEN R.QMX_Q_DISC_COUNT _ _ rfl (by decide), State.setQueue_get]

theorem Queue.untaken_next {x y : Queue} {second : Bool} {w : QWord} {ws : List QWord} (h : x.untaken second = w :: ws)
    (hring : y.ring = x.ring) (hpos : (y.side second).pos = (x.side second).pos + 1) : y.untaken second = ws := by
  rw [Queue.untaken, hring, hpos, ← List.drop_drop]
  exact congrArg (List.drop 1) h

/-- A word that a ring's reader discards in resync. -/
theorem State.dropRing_shows (s : State) (q : Nat) (second : Bool) (w : QWord) {ws : List QWord}
    (hnext : (s.queue q).untaken second = w :: ws) :
    let t := s.dropRing q second w
    (t.queue q).untaken second = ws ∧ (t.queue q).present = (s.queue q).present ∧ ((t.queue q).side second).skip = !w.fin ∧
      ((t.queue q).side second).intake = ((s.queue q).side second).intake ∧
      t.get R.QMX_Q_DISC_COUNT q = if w.fin then (s.add R.QMX_Q_DISC_COUNT 1 q).get R.QMX_Q_DISC_COUNT q else s.get R.QMX_Q_DISC_COUNT q := by
  let u := s.putSide q second { (s.queue q).side second with pos := ((s.queue q).side second).pos + 1, skip := !w.fin }
  have hside : (u.queue q).side second = _ := s.putSide_side q second _
  obtain ⟨hring, hpresent⟩ := s.putSide_ring q second { (s.queue q).side second with pos := ((s.queue q).side second).pos + 1, skip := !w.fin }
  intro t
  have ht : t = if w.fin then (u.addSat R.QMX_Q_CMD_DROP_WORDS 1 q).add R.QMX_Q_DISC_COUNT 1 q else u.addSat R.QMX_Q_CMD_DROP_WORDS 1 q := rfl
  have hqueue : t.queue q = u.queue q := by
    rw [ht]
    split <;> rfl
  have hdisc : (u.addSat R.QMX_Q_CMD_DROP_WORDS 1 q).get R.QMX_Q_DISC_COUNT q = s.get R.QMX_Q_DISC_COUNT q :=
    (State.get_set_ne_same _ R.QMX_Q_CMD_DROP_WORDS R.QMX_Q_DISC_COUNT _ _ rfl (by decide)).trans (s.putSide_disc q second _)
  rw [hqueue]
  refine ⟨Queue.untaken_next hnext hring (by rw [hside]), hpresent, by rw [hside], by rw [hside], ?_⟩
  rw [ht]
  split
  · have hadd (v : State) : (v.add R.QMX_Q_DISC_COUNT 1 q).get R.QMX_Q_DISC_COUNT q = (v.get R.QMX_Q_DISC_COUNT q + 1) % 2 ^ 32 :=
      State.get_set_self ..
    rw [hadd, hadd, hdisc]
  · exact hdisc

theorem State.skipRing_next {s : State} {q : Nat} {second : Bool} {n : Nat} {w : QWord} {ws : List QWord}
    (hskip : ((s.queue q).side second).skip = true) (hnext : (s.queue q).untaken second = w :: ws)
    (hend : (w :: ws).any (·.fin) = true) :
    s.skipRing q second (n + 1) = (((s.dropRing q second w).trimRing q).drain q).skipRing q second n := by
  have hrest : s.ringRest q second = w :: ws := by rw [State.ringRest_eq, hnext, if_pos hend]
  rw [State.skipRing, if_pos hskip, hrest]

theorem State.skipRing_stops {s : State} {q : Nat} {second : Bool} (n : Nat) (hskip : ((s.queue q).side second).skip = false) :
    s.skipRing q second n = s := by
  cases n with
  | zero => rfl
  | succ n => exact if_neg (by rw [hskip]; exact Bool.noConfusion)

/-- A reader in resync that finds an END goes on behind it. -/
theorem State.skipRing_shows {q : Nat} {second : Bool} {d : Nat} {rest : List QWord} (ds : List QWord) (hds : ds.all (fun x => !x.fin) = true)
    {n : Nat} (hn : ds.length < n) {s : State} (hskip : ((s.queue q).side second).skip = true)
    (hnext : (s.queue q).untaken second = ds ++ ⟨d, true⟩ :: rest) (hpresent : (s.queue q).present = []) :
    let t := s.skipRing q second n
    (t.queue q).untaken second = rest ∧ (t.queue q).present = [] ∧ ((t.queue q).side second).skip = false ∧
      ((t.queue q).side second).intake = ((s.queue q).side second).intake ∧
      t.get R.QMX_Q_DISC_COUNT q = (s.add R.QMX_Q_DISC_COUNT 1 q).get R.QMX_Q_DISC_COUNT q := by
  induction ds generalizing n s with
  | nil =>
    obtain ⟨m, rfl⟩ : ∃ m, n = m + 1 := ⟨n - 1, by omega⟩
    obtain ⟨hu, hp, hs, hi, hd⟩ := s.dropRing_shows q second ⟨d, true⟩ hnext
    obtain ⟨hu', hp', hs', hi', hd'⟩ := (s.dropRing q second ⟨d, true⟩).trimmed_shows q second (hp.trans hpresent)
    intro t
    have ht : t = ((s.dropRing q second ⟨d, true⟩).trimRing q).drain q :=
      (State.skipRing_next hskip hnext rfl).trans (State.skipRing_stops m (hs'.trans hs))
    rw [ht]
    exact ⟨hu'.trans hu, hp', hs'.trans hs, hi'.trans hi, hd'.trans hd⟩
  | cons w ws ih =>
    obtain ⟨hw, hws⟩ : w.fin = false ∧ ws.all (fun x => !x.fin) = true := by simpa using hds
    obtain ⟨m, rfl⟩ : ∃ m, n = m + 1 := ⟨n - 1, by omega⟩
    obtain ⟨hu, hp, hs, hi, hd⟩ := s.dropRing_shows q second w hnext
    obtain ⟨hu', hp', hs', hi', hd'⟩ := (s.dropRing q second w).trimmed_shows q second (hp.trans hpresent)
    rw [hw] at hs hd
    obtain ⟨h1, h2, h3, h4, h5⟩ := ih hws (n := m) (by simpa using hn) (hs'.trans hs) (hu'.trans hu) hp'
    intro t
    have ht : t = _ := State.skipRing_next (n := m) hskip hnext (by simp)
    have hadd (v : State) : (v.add R.QMX_Q_DISC_COUNT 1 q).get R.QMX_Q_DISC_COUNT q = (v.get R.QMX_Q_DISC_COUNT q + 1) % 2 ^ 32 :=
      State.get_set_self ..
    rw [ht]
    refine ⟨h1, h2, h3, h4.trans (hi'.trans hi), h5.trans ?_⟩
    rw [hadd, hadd, hd', hd]
    rfl

/-- A word that a ring's reader takes. -/
theorem State.deliverRing_shows (s : State) (q : Nat) (second : Bool) (w : QWord) :
    let t := s.deliverRing q second .clean w
    ((t.queue q).side second).intake = ((s.queue q).side second).intake ++ [{ data := w.data, fin := w.fin }] ∧
      ((t.queue q).side second).waits = false ∧ ((t.queue q).side second).skip = ((s.queue q).side second).skip ∧
      (t.queue q).present = (s.queue q).present ∧ t.get R.QMX_Q_DISC_COUNT q = s.get R.QMX_Q_DISC_COUNT q := by
  let u := s.putSide q second { (s.queue q).side second with
    pos := ((s.queue q).side second).pos + 1, waits := false, opened := !w.fin,
    intake := ((s.queue q).side second).intake ++ [{ data := w.data, fin := w.fin }] }
  have hside : (u.queue q).side second = _ := s.putSide_side q second _
  intro t
  have ht : t = if w.fin ∧ ¬ second then u.add R.QMX_Q_RD_PKTS_COUNT 1 q else u := rfl
  have hqueue : t.queue q = u.queue q := by
    rw [ht]
    split <;> rfl
  rw [hqueue, hside]
  refine ⟨rfl, rfl, rfl, (s.putSide_ring q second _).2, ?_⟩
  rw [ht]
  split
  · exact (State.get_set_ne_same _ R.QMX_Q_RD_PKTS_COUNT R.QMX_Q_DISC_COUNT _ _ rfl (by decide)).trans (s.putSide_disc q second _)
  · exact s.putSide_disc q second _

section
variable {q : Fin 262144} {second : Bool} {s : State} (hring : s.isRing q = true) (howed : ((s.queue q).side second).owed = false)
include hring howed

theorem queueRead_ring (ecc : Ecc) {t : State} (hskip : s.skipRing q second ((s.queue q).ring.length + 1) = t) :
    (((t.queue q).side second).skip = true ∨ t.ringRest q second = [] →
      exec (.queueRead q second ecc) s = .next (t.putSide q second { (t.queue q).side second with waits := true })) ∧
    (∀ w ws, ((t.queue q).side second).skip = false → t.ringRest q second = w :: ws →
      exec (.queueRead q second ecc) s = .next (((t.deliverRing q second ecc w).trimRing q).drain q)) := by
  have hread : exec (.queueRead q second ecc) s = .next (s.ringStep q second ecc).2 := congrArg Host.Outcome.next (if_pos hring)
  rw [hread]
  unfold State.ringStep
  simp only [howed, Bool.false_eq_true, if_false, hskip]
  refine ⟨fun hno => ?_, fun w ws hgo hrest => ?_⟩
  · have hnone : (if ((t.queue q).side second).skip = true then [] else t.ringRest q second) = [] := by
      split
      · rfl
      · rename_i h
        exact hno.resolve_left h
    rw [hnone]
  · rw [hgo, if_neg Bool.false_ne_true, hrest]

/-- What a ring's reader gets. -/
theorem queueRead_ringWord {t : State} (hskip : s.skipRing q second ((s.queue q).ring.length + 1) = t)
    (hgo : ((t.queue q).side second).skip = false) {w : QWord} {ws : List QWord} (hnext : (t.queue q).untaken second = w :: ws)
    (hend : (w :: ws).any (·.fin) = true) : exec (.queueRead q second .clean) s =
      .next (((t.deliverRing q second .clean w).trimRing q).drain q) :=
  (queueRead_ring hring howed .clean hskip).2 w ws hgo (by rw [State.ringRest_eq, hnext, if_pos hend])

end

/-- A writer that goes on moves no reader of its queue. -/
theorem ReadersKept.side {q : Nat} {s t : State} (h : ReadersKept q s t) (second : Bool) :
    (t.queue q).side second = (s.queue q).side second := by
  cases second
  · exact h.first
  · exact h.second

theorem queueRead : QueueRead := by
  refine ⟨fun q second s hring howed hclean => ?_, fun q second ecc s hring howed => ?_, fun q second s hring howed => ?_⟩
  · intro rd
    refine ⟨fun w ws hws => ⟨fun ecc hecc => ?_, ?_⟩, fun ecc hempty => ?_⟩
    · have hkept := s.popped_readers q.isLt ws
      obtain ⟨hdrawer, hintake, hwait, hresync, hcorr⟩ := (s.popped q ws).deliverPopped_good q w hecc
      refine ⟨_, queueRead_drawers q second s hring howed hclean w ws hws ecc, fun hne => (hdrawer rd).trans (s.popped_drawer q hne),
        hintake.trans (by rw [hkept.intake]), hwait, hresync.trans (hkept.resync.trans (by simpa [State.on] using hclean)), hcorr.trans ?_⟩
      have hadd (v : State) : (v.addSat R.QMX_Q_ECC_CORR 1 q).get R.QMX_Q_ECC_CORR q = min (v.get R.QMX_Q_ECC_CORR q + 1) (2 ^ 8 - 1) :=
        State.get_setSat_self ..
      rw [hadd, hadd, hkept.corr]
    · have hkept := s.popped_readers q.isLt ws
      obtain ⟨hdrawer, hintake, hresync, hqueue, hkind⟩ := (s.popped q ws).deliverPopped_bad q.isLt w
      exact ⟨_, queueRead_drawers q second s hring howed hclean w ws hws _, fun hne => (hdrawer rd).trans (s.popped_drawer q hne),
        hintake.trans (by rw [hkept.intake]), hresync, hqueue, hkind⟩
    · refine congrArg Host.Outcome.next ((if_neg (by rw [hring]; exact Bool.noConfusion)).trans ?_)
      exact State.readWord_none howed hclean ecc (by rw [State.popWord, hempty])
  · refine ⟨_, queueRead_trunc hring second howed, ?_⟩
    obtain ⟨hintake, h0, h1, howed', -⟩ := ((s.setQueue q { s.queue q with truncOwed := false }).addSat R.QMX_Q_ECC_TRUNC 1 q).deliver_shows q
      { fin := true, trunc := true }
    have hqueue : (((s.setQueue q { s.queue q with truncOwed := false }).addSat R.QMX_Q_ECC_TRUNC 1 q)).queue q =
        { s.queue q with truncOwed := false } := State.setQueue_queue ..
    rw [hqueue] at hintake h0 h1 howed'
    exact ⟨howed', hintake, h0, h1⟩
  · intro y rest
    refine ⟨fun hend ecc => ?_, fun w ws hnext hend hgo => ?_, fun ds d w ws hnext hds hend hskip hpresent => ?_⟩
    · have hrest : s.ringRest q second = [] := if_neg fun h => absurd (hend.symm.trans h) Bool.noConfusion
      have hstay : s.skipRing q second ((s.queue q).ring.length + 1) = s := by
        rw [State.skipRing, hrest]
        split <;> rfl
      exact (queueRead_ring hring howed ecc hstay).1 (.inr hrest)
    · have hword : (w :: ws).any (·.fin) = true := hnext ▸ hend
      refine ⟨_, queueRead_ringWord hring howed (State.skipRing_stops _ hgo) hgo hnext hword, ?_⟩
      obtain ⟨hintake, hwaits, -, -, -⟩ := s.deliverRing_shows q second w
      obtain ⟨-, hside, -⟩ := (s.deliverRing q second .clean w).trimRing_shows q second
      have hkept : ReadersKept q ((s.deliverRing q second .clean w).trimRing q) _ := .drain q.isLt (.refl _)
      rw [hkept.side second, hside]
      exact ⟨hintake, hwaits⟩
    · have hroom : ds.length < (s.queue q).ring.length + 1 := by
        have hlen := congrArg List.length hnext
        simp only [List.length_append, List.length_cons, List.length_nil, rest, List.length_drop] at hlen
        omega
      obtain ⟨hu, hp, hs, hi, hd⟩ := State.skipRing_shows ds hds hroom hskip (hnext.trans (List.append_assoc _ _ _)) hpresent
      refine ⟨_, queueRead_ringWord hring howed rfl hs hu hend, ?_⟩
      obtain ⟨hintake, -, hskip', hp', hd'⟩ := (s.skipRing q second ((s.queue q).ring.length + 1)).deliverRing_shows q second w
      obtain ⟨-, -, hs2, hi2, hd2⟩ := ((s.skipRing q second ((s.queue q).ring.length + 1)).deliverRing q second .clean w).trimmed_shows q second
        (hp'.trans hp)
      exact ⟨hs2.trans (hskip'.trans hs), hi2.trans (hintake.trans (by rw [hi])), hd2.trans (hd'.trans hd)⟩

/-- Settles O24: what an appended word, a closed drawer, a popped word and a ring's reader leave, each from the parts of the model's step. -/
theorem queueWords : Obligations.QueueWords := ⟨queueWrite, queueRead⟩

end Sys2Proof.Machine
end

section
/-! PROOFS. Queue timeouts, slabs in transit, and the commands of a queue (R210, R221, R223, R226, R231 to R241). -/

open Sys2Proof Sys2Proof.Stated

namespace Sys2Proof.Machine

/-! ### Slabs in transit (R221) -/

/-- No fixed place of a queue's registers is one of the pool's or of its events. -/
theorem State.arrive_eq {s : State} {x : Transit} {xs : List Transit} (hxs : s.qmx.transit = x :: xs) (hflush : x.flush = false) :
    s.arrive = ((({ s with qmx := { s.qmx with transit := xs } } : State).add R.QMX_POOL_FREE_FREE x.slabs).sub R.QMX_AUD_TRANSIT_TRANSIT
      x.slabs).syncLow := by
  unfold State.arrive
  simp only [hxs, hflush, Bool.false_eq_true, false_and, if_false]

theorem State.syncLow_qmx (s : State) : s.syncLow.qmx = s.qmx := by
  unfold State.syncLow
  dsimp only
  split
  · exact State.raise_qmx ..
  · split <;> rfl

/-- The level of the pool shows in registers that are no queue's STATE or ALLOC_WAIT, whatever the queue's number. -/
theorem State.syncLow_getQueue (s : State) (g : Fld) (q : Nat) (hg : g = R.QMX_Q_STATUS_STATE ∨ g = R.QMX_Q_STATUS_ALLOC_WAIT) :
    s.syncLow.get g q = s.get g q := by
  have hpoll : 1305 / 32 = 40 := rfl
  have hraise (t : State) : (t.raise Ev.poolLow).get g q = t.get g q := by
    obtain rfl | rfl := hg <;>
    · refine State.raise_get _ _ _ _ _ ?_ ?_ ?_ <;>
      · simp only [Fld.key, R.QMX_Q_STATUS_STATE, R.QMX_Q_STATUS_ALLOC_WAIT, R.HIF_EVT_PEND_PEND, R.HIF_EVT_SUM_LO_GROUPS,
          R.HIF_EVT_SUM_HI_GROUPS, Ev.poolLow, hpoll]
        omega
  have hlow (v : Nat) : (s.set R.QMX_STATUS_LOW v).get g q = s.get g q := by
    refine State.get_queue_set _ _ _ _ _ (by decide) ?_
    obtain rfl | rfl := hg <;> decide
  unfold State.syncLow
  dsimp only
  split
  · rw [hraise, hlow]
  · split
    · rfl
    · exact hlow 0

theorem State.arrive_shows {s : State} {x : Transit} {xs : List Transit} (hxs : s.qmx.transit = x :: xs) (hflush : x.flush = false) :
    s.arrive.qmx = { s.qmx with transit := xs } ∧
      s.arrive.get R.QMX_POOL_FREE_FREE = (s.get R.QMX_POOL_FREE_FREE + x.slabs) % 2 ^ 17 ∧
      ∀ g q, g = R.QMX_Q_STATUS_STATE ∨ g = R.QMX_Q_STATUS_ALLOC_WAIT → s.arrive.get g q = s.get g q := by
  rw [State.arrive_eq hxs hflush]
  refine ⟨State.syncLow_qmx _, ?_, fun g q hg => ?_⟩
  · rw [State.syncLow_get _ _ _ (by decide) (by decide), State.sub, State.get_set_ne _ R.QMX_AUD_TRANSIT_TRANSIT _ _ _ _ _ _ (by decide)]
    exact State.get_set_self ..
  · have hbase : 0xC00000 ≤ g.base := by obtain rfl | rfl := hg <;> decide
    rw [State.syncLow_getQueue _ _ _ hg]
    exact (State.get_queue_set _ R.QMX_AUD_TRANSIT_TRANSIT _ _ _ (by decide) hbase).trans
      (State.get_queue_set _ R.QMX_POOL_FREE_FREE _ _ _ (by decide) hbase)

/-- With no writer waiting for a slab nothing is granted. -/
theorem State.grant_nothing {s : State} (h : ∀ e ∈ s.qmx.q, s.on R.QMX_Q_STATUS_ALLOC_WAIT e.1 = false) : s.grant = s := by
  have hnone (record : Bool) (last : Nat) : s.nextWaiting record last = none := by
    have hfilter : (s.qmx.q.map (·.1)).filter (fun q =>
        s.on R.QMX_Q_STATUS_ALLOC_WAIT q && (decide (s.qClass q = 1) == record) && s.maySlab q) = [] := by
      refine List.filter_eq_nil_iff.2 fun q hq => ?_
      obtain ⟨e, he, rfl⟩ := List.mem_map.1 hq
      rw [h e he]
      exact Bool.noConfusion
    unfold State.nextWaiting
    dsimp only
    rw [hfilter]
    rfl
  have hgroup (record : Bool) (n : Nat) : s.grantGroup record n = s := by
    cases n with
    | zero => rfl
    | succ n =>
      unfold State.grantGroup
      rw [hnone]
  unfold State.grant
  dsimp only
  rw [hgroup, hgroup]

theorem State.transitArrive_shows {s : State} {x : Transit} {xs : List Transit} (hxs : s.qmx.transit = x :: xs) (hflush : x.flush = false)
    (hwaits : ∀ e ∈ s.qmx.q, e.1 < 262144 ∧ s.on R.QMX_Q_STATUS_ALLOC_WAIT e.1 = false) :
    s.transitArrive.qmx.transit = xs ∧ s.transitArrive.get R.QMX_POOL_FREE_FREE = (s.get R.QMX_POOL_FREE_FREE + x.slabs) % 2 ^ 17 := by
  obtain ⟨hqmx, hfree, hsame⟩ := State.arrive_shows hxs hflush
  have hgrant : s.arrive.grant = s.arrive := by
    refine State.grant_nothing fun e he => ?_
    rw [hqmx] at he
    rw [State.on, hsame _ _ (.inr rfl)]
    exact (hwaits e he).2
  have hstate : ¬ (s.qState x.queue = 2 ∧ s.arrive.qState x.queue = 1) := by
    rw [State.qState, State.qState, hsame _ _ (.inl rfl)]
    omega
  have heq : s.transitArrive = s.arrive := by
    unfold State.transitArrive
    simp only [hxs, hgrant, if_neg hstate]
  rw [heq, hqmx]
  exact ⟨rfl, hfree⟩

theorem queueTimers : QueueTimers := by
  refine ⟨fun q s hidle hring hwait => ?_, fun q s hstall hwait hnew => ?_, fun q s hstall hwait hnew => ?_,
    fun q s => ⟨fun hold => ?_, fun hold => ?_⟩, fun s => rfl, fun s x xs hxs hflush hwaits => State.transitArrive_shows hxs hflush hwaits,
    fun s hslabs => congrArg Host.Outcome.next (if_neg hslabs), fun q s hn hbusy hof => congrArg Host.Outcome.next (if_pos ⟨hn, hbusy, hof⟩)⟩
  · intro wd hempty hholds hopen
    exact congrArg Host.Outcome.next (if_pos ⟨hidle, hring, hwait, List.isEmpty_iff.2 hempty, hholds, hopen⟩)
  · change execQueueStallTimeout q false s = _
    rw [execQueueStallTimeout, if_neg hstall, if_neg Bool.false_ne_true, if_pos ⟨hwait, hnew⟩]
    rfl
  · change execQueueStallTimeout q true s = _
    rw [execQueueStallTimeout, if_neg hstall, if_pos rfl, if_pos ⟨hwait, hnew⟩]
    rfl
  · by_cases hstall : s.get R.QMX_Q_CFG_STALL q = 0
    · exact if_pos hstall
    · exact (if_neg hstall).trans ((if_neg Bool.false_ne_true).trans
        (congrArg Host.Outcome.next (if_neg fun h => absurd (hold.symm.trans h.2) Bool.noConfusion)))
  · by_cases hstall : s.get R.QMX_Q_CFG_STALL q = 0
    · exact if_pos hstall
    · exact (if_neg hstall).trans ((if_pos rfl).trans
        (congrArg Host.Outcome.next (if_neg fun h => absurd (hold.symm.trans h.2) Bool.noConfusion)))

/-! ### Commands of a queue (R231, R232, R236 to R238) -/

theorem State.ite_queue {c : Prop} [Decidable c] {t u : State} {q : Nat} {x : Queue} (ht : t.queue q = x) (hu : u.queue q = x) :
    (if c then t else u).queue q = x := by
  split
  · exact ht
  · exact hu

theorem State.releaseSlabs_queue (s : State) (q n : Nat) (flush : Bool) : (s.releaseSlabs q n flush).queue q = s.queue q := by
  unfold State.releaseSlabs
  split
  · rfl
  · exact State.syncLow_queue ..

/-- The record of a queue whose words are flushed (R237, R238). -/
def Queue.flushed (x : Queue) (trunc : Bool) : Queue :=
  { x with d0 := [], d1 := [], w0 := 0, w1 := 0, closed := false, ring := [],
           first := { x.first with pos := 0, skip := false, owed := x.first.opened },
           second := { x.second with pos := 0, skip := false, owed := x.second.opened }, truncOwed := trunc }

/-- What a flush writes after the record: its counts, the end of the waits, and the slabs that it releases. -/
def State.flushTail (s : State) (q items words slabs : Nat) (wrOpen : Bool) : State :=
  let s3 := (((s.add R.QMX_Q_DISC_COUNT items q).addSat R.QMX_Q_CMD_DROP_WORDS words q).set R.QMX_Q_STATUS_RD_RESYNC 0 q).endWrWait q
  let s4 := if wrOpen then s3.set R.QMX_Q_STATUS_WR_RESYNC 1 q else s3
  if slabs = 0 then s4 else (s4.set R.QMX_Q_STATUS_STATE 2 q).releaseSlabs q slabs true

theorem State.flushTail_queue (s : State) (q items words slabs : Nat) (wrOpen : Bool) :
    (s.flushTail q items words slabs wrOpen).queue q = { s.queue q with wrStalled := false } := by
  unfold State.flushTail
  dsimp only
  have hwaits : ((((s.add R.QMX_Q_DISC_COUNT items q).addSat R.QMX_Q_CMD_DROP_WORDS words q).set R.QMX_Q_STATUS_RD_RESYNC 0 q).endWrWait q).queue
      q = { s.queue q with wrStalled := false } := by
    rw [State.endWrWait_queue]
    rfl
  generalize (((s.add R.QMX_Q_DISC_COUNT items q).addSat R.QMX_Q_CMD_DROP_WORDS words q).set R.QMX_Q_STATUS_RD_RESYNC 0 q).endWrWait q = u
    at hwaits
  have hresync : (if wrOpen then u.set R.QMX_Q_STATUS_WR_RESYNC 1 q else u).queue q = { s.queue q with wrStalled := false } :=
    State.ite_queue hwaits hwaits
  generalize (if wrOpen then u.set R.QMX_Q_STATUS_WR_RESYNC 1 q else u) = v at hresync
  exact State.ite_queue hresync ((State.releaseSlabs_queue _ _ _ _).trans hresync)

theorem State.flushQueue_eq (s : State) (q : Nat) : ∃ items words slabs,
    s.flushQueue q = ((s.putQueue q ((s.queue q).flushed (s.on R.QMX_Q_STATUS_RD_OPEN q && !s.isRing q))).flushTail q items words slabs
      (s.on R.QMX_Q_STATUS_WR_OPEN q)).drain q := ⟨_, _, _, rfl⟩

theorem State.flushQueue_queue (s : State) (q : Nat) (hpresent : (s.queue q).present = []) : (s.flushQueue q).queue q =
    { (s.queue q).flushed (s.on R.QMX_Q_STATUS_RD_OPEN q && !s.isRing q) with wrStalled := false, present := [] } := by
  obtain ⟨items, words, slabs, heq⟩ := s.flushQueue_eq q
  have hqueue := (s.putQueue q ((s.queue q).flushed (s.on R.QMX_Q_STATUS_RD_OPEN q && !s.isRing q))).flushTail_queue q items words slabs
    (s.on R.QMX_Q_STATUS_WR_OPEN q)
  rw [State.putQueue_queue] at hqueue
  rw [heq, State.drain, hqueue]
  change State.queue (State.drainList _ q (s.queue q).present) q = _
  rw [hpresent, State.drainList, State.setQueue_queue, hqueue]

theorem queueCommands : QueueCommands := by
  refine ⟨fun w q v s hr hq => ⟨fun hoff hok => ?_, fun hoff c hbad => ?_, fun hon hchanges => ?_⟩,
    fun w q v s hr hq hon hsame => ⟨fun hfree => ?_, fun hbusy => ?_⟩, fun w q s hr => ⟨fun hon hst hflush hpresent => ?_, fun hoff => ?_⟩⟩
  · change execQueueEnable w q v s = _
    simp only [execQueueEnable, hoff, hok, Bool.false_and, refuseIf_false, Bool.false_eq_true, if_false]
    rw [decide_eq_false (Nat.not_lt.2 hq)]
    exact congrArg Host.Outcome.next (State.hostWrite_taken hr _)
  · change execQueueEnable w q v s = _
    simp only [execQueueEnable, hoff, hbad, Bool.false_and, refuseIf_false, Bool.false_eq_true, if_false]
    rw [decide_eq_false (Nat.not_lt.2 hq)]
    exact congrArg Host.Outcome.next (State.hostWrite_refused hr _ _)
  · change execQueueEnable w q v s = _
    simp only [execQueueEnable, hon, hchanges, Bool.and_self, refuseIf_true, if_true]
    rw [decide_eq_false (Nat.not_lt.2 hq)]
    exact congrArg Host.Outcome.next (State.hostWrite_refused hr _ _)
  · change execQueueDisable w q v s = _
    simp only [execQueueDisable, hon, hsame, hfree, Bool.and_false, refuseIf_false, if_true]
    rw [decide_eq_false (Nat.not_lt.2 hq)]
    exact congrArg Host.Outcome.next (State.hostWrite_taken hr _)
  · change execQueueDisable w q v s = _
    simp only [execQueueDisable, hon, hsame, hbusy, Bool.and_false, Bool.and_self, refuseIf_false, refuseIf_true, if_true]
    rw [decide_eq_false (Nat.not_lt.2 hq)]
    exact congrArg Host.Outcome.next (State.hostWrite_refused hr _ _)
  · have hstate : (!s.on R.QMX_Q_CFG_EN q || (decide (s.get R.QMX_Q_CFG_STATION q < 8) && s.stBusy (s.get R.QMX_Q_CFG_STATION q))) = false := by
      rw [hon]
      simpa using hst
    have hexec : exec (.queueFlush w q) s = .next (s.flushQueue q) := by
      change execQueueFlush w q s = _
      simp only [execQueueFlush, hstate, decide_eq_false hflush, refuseIf_false]
      exact congrArg Host.Outcome.next (State.hostWrite_taken hr _)
    refine ⟨_, hexec, ?_⟩
    rw [s.flushQueue_queue q hpresent]
    exact ⟨rfl, rfl, rfl, fun second => by cases second <;> rfl⟩
  · change execQueueFlush w q s = _
    have hpick (b : Bool) : pickStatus [refuseIf true .state, refuseIf b .busy] = some .state := by cases b <;> rfl
    simp only [execQueueFlush, hoff, Bool.not_false, Bool.true_or, hpick]
    exact congrArg Host.Outcome.next (State.hostWrite_refused hr _ _)

/-- Settles O25: the timers from the conditions of their rows, slabs that arrive from what the pool's registers leave alone, and the
commands by the checks of R231, R232 and R236. -/
theorem queueUpkeep : Obligations.QueueUpkeep := ⟨queueTimers, queueCommands⟩

end Sys2Proof.Machine
end

section
/-! PROOFS. Structure images: loads, checks, commits and reloads (R297 to R322). -/

open Sys2Proof Sys2Proof.Stated

namespace Sys2Proof.Machine

/-! ### Loads (R297, R314, R315) -/

/-- A write of SCU_IMG_CTRL with GO: `t` is the state with the fields written. -/
def State.imageGo (s t : State) (w : World) (part : Bool) : State :=
  if s.on R.SCU_IMG_STATUS_BUSY then (s.countRefused w .busy).set R.SCU_IMG_STATUS_STATUS Status.busy.code
  else if s.get R.SCU_IMG_LEN_LENGTH = 0 then t.imageOk
  else
    match t.loadFail (s.get R.SCU_IMG_LEN_LENGTH) part with
    | some f => (s.countRefused w f.status).imageRefused f
    | none => ({ t with scu := { t.scu with loadLen := s.get R.SCU_IMG_LEN_LENGTH, loadPart := part } } : State).set R.SCU_IMG_STATUS_BUSY 1

theorem execImageLoad_go {w : World} {v : BitVec 32} {part : Bool} {s : State} (hr : Reaches s w .SCU_IMG_CTRL 0 0)
    (hgo : R.SCU_IMG_CTRL_GO.of v.toNat = 1) :
    exec (.imageLoad w ⟨v, part⟩) s = .next (s.imageGo (wrote s w .SCU_IMG_CTRL 0 0 v.toNat) w part) := by
  change execImageLoad w ⟨v, part⟩ s = _
  have hne : ¬ R.SCU_IMG_CTRL_GO.of v.toNat = 0 := by omega
  obtain ⟨r, hdesc, hact⟩ := State.hostWrite_act (last := none) (li := 0) hr fun r s =>
    if R.SCU_IMG_CTRL_GO.of v.toNat = 0 then s.writeAll w r 0 0 v.toNat else s.imageGo (s.writeAll w r 0 0 v.toNat) w part
  have hwrote : wrote s w .SCU_IMG_CTRL 0 0 v.toNat = s.writeAll w r 0 0 v.toNat := by rw [wrote, hdesc]
  rw [hwrote]
  refine congrArg Host.Outcome.next (Eq.trans ?_ (hact.trans (if_neg hne)))
  rfl

theorem firstFail_fails {f : ImgFail} {rest : List (Option ImgFail)} : firstFail (some f :: rest) = some f := rfl

theorem failIf_true {c : Bool} (f : ImgFail) (h : c = true) : failIf c f = some f := if_pos h

theorem failIf_false {c : Bool} (f : ImgFail) (h : c = false) : failIf c f = none := if_neg (by rw [h]; exact Bool.noConfusion)

theorem State.loadFail_length {s : State} {len : Nat} (part : Bool) (h : len < 64 ∨ 268435456 < len) :
    s.loadFail len part = some { stage := 0, status := .length, off := 0 } := by
  rw [State.loadFail, failIf_true _ (by simpa using h), firstFail_fails]

theorem State.loadFail_fits {s : State} {len : Nat} {part : Bool} (hlo : 64 ≤ len) (hhi : len ≤ 268435456) :
    s.loadFail len part = firstFail [if part then none else s.fullLoadFail,
      failIf (s.get R.SST_CFG_STORE = 32) { stage := 0, status := .range, off := 0 }] := by
  rw [State.loadFail, failIf_false _ (by simp; omega)]
  rfl

theorem State.loadFail_free {s : State} {len : Nat} {part : Bool} (hlo : 64 ≤ len) (hhi : len ≤ 268435456)
    (hfree : part = true ∨ s.fullLoadFail = none) :
    s.loadFail len part = failIf (s.get R.SST_CFG_STORE = 32) { stage := 0, status := .range, off := 0 } := by
  have hnone : (if part then none else s.fullLoadFail) = none := by
    obtain rfl | h := hfree
    · rfl
    · rw [h, ite_self]
  rw [State.loadFail_fits hlo hhi, hnone]
  unfold failIf
  split <;> rfl

theorem imageLoads : ImageLoads := by
  refine ⟨fun w v part s hr hgo => ?_, fun o t2 s hbusy hwaiting => ?_⟩
  · intro t len refused
    have hexec := execImageLoad_go (part := part) hr hgo
    have hrefused (f : ImgFail) (hfree : s.on R.SCU_IMG_STATUS_BUSY = false) (hlen : len ≠ 0) (hf : t.loadFail len part = some f) : refused f := by
      refine hexec.trans (congrArg Host.Outcome.next ?_)
      unfold State.imageGo
      rw [if_neg (by rw [hfree]; exact Bool.noConfusion), if_neg hlen]
      simp only [len, t] at hf
      rw [hf]
    refine ⟨fun hbusy => hexec.trans (congrArg Host.Outcome.next (if_pos hbusy)), fun hfree =>
      ⟨fun hlen => ?_, fun hlo hhi hfull hstore => ?_, fun hlen hout => hrefused _ hfree hlen (State.loadFail_length part hout),
      fun hlo hhi hpart f hf => hrefused f hfree (by omega) ?_, fun hlo hhi hfull hstore => hrefused _ hfree (by omega) ?_⟩⟩
    · exact hexec.trans (congrArg Host.Outcome.next ((if_neg (by rw [hfree]; exact Bool.noConfusion)).trans (if_pos hlen)))
    · refine hexec.trans (congrArg Host.Outcome.next ?_)
      have hnone : t.loadFail len part = none := (State.loadFail_free hlo hhi hfull).trans (failIf_false _ (decide_eq_false hstore))
      unfold State.imageGo
      rw [if_neg (by rw [hfree]; exact Bool.noConfusion), if_neg (show ¬ len = 0 by omega)]
      simp only [len, t] at hnone
      rw [hnone]
    · rw [State.loadFail_fits hlo hhi, hpart, hf]
      rfl
    · rw [State.loadFail_free hlo hhi hfull]
      exact failIf_true _ (decide_eq_true hstore)
  · intro b m policy
    have hopen : ¬ (¬ s.on R.SCU_IMG_STATUS_BUSY = true ∨ s.scu.waiting.isSome = true) := by
      rw [hbusy, hwaiting]
      decide
    have hfail (f : ImgFail) (hf : s.checksFail o = some f) : exec (.imageChecksDone o t2) s = .next (s.imageRefused f) := by
      refine (if_neg hopen).trans ?_
      rw [hf]
    have hpass (hf : s.checksFail o = none) : exec (.imageChecksDone o t2) s =
        .next (if b.isPart then s.partialLoad m policy (t2.map (·.val)) else s.commitImage m policy) := by
      refine (if_neg hopen).trans ?_
      rw [hf]
    have hchecks (h : s.scu.loadPart = false ∨ b.isPart = true ∨ s.fullLoadFail = none) : s.checksFail o = s.imageFail o := by
      have hnone : (if s.scu.loadPart && o.readOk && !(ImgFile.isPart o.bytes) then s.fullLoadFail else none) = none := by
        split
        · rename_i hc
          simp only [Bool.and_eq_true, Bool.not_eq_true'] at hc
          obtain ⟨⟨hpart, -⟩, hnot⟩ := hc
          obtain h | h | h := h
          · exact absurd (hpart.symm.trans h) Bool.noConfusion
          · exact absurd (hnot.symm.trans h) Bool.noConfusion
          · exact h
        · rfl
      rw [State.checksFail, hnone]
      cases s.imageFail o <;> rfl
    refine ⟨fun hpart hread hnot f hf => hfail f ?_, fun h f hf => hfail f ((hchecks h).trans hf), fun h hnot hf => ?_, fun hpart hf => ?_⟩
    · rw [State.checksFail, if_pos (by rw [hpart, hread, hnot]; rfl), hf]
      rfl
    · have h' : s.scu.loadPart = false ∨ b.isPart = true ∨ s.fullLoadFail = none := h.imp id .inr
      rw [hpass ((hchecks h').trans hf), hnot, if_neg Bool.false_ne_true]
    · rw [hpass ((hchecks (.inr (.inl hpart))).trans hf), if_pos hpart]

end Sys2Proof.Machine
end

section
/-! PROOFS. The stages of an image load, and what a commit shows (R298 to R316). -/

open Sys2Proof Sys2Proof.Stated

namespace Sys2Proof.Machine

theorem firstFail_none (rest : List (Option ImgFail)) : firstFail (none :: rest) = firstFail rest := rfl

/-- A failure found is the one of some check. -/
theorem firstFail_mem {cs : List (Option ImgFail)} {f : ImgFail} (h : firstFail cs = some f) : some f ∈ cs := by
  induction cs with
  | nil => exact absurd h (by simp [firstFail])
  | cons c cs ih =>
    cases c with
    | none => exact List.mem_cons_of_mem _ (ih h)
    | some g =>
      obtain rfl : g = f := Option.some.inj h
      exact List.mem_cons_self

/-! ### The order of the stages (R315) -/

/-- The checks of an image that is not partial, once it has been read. -/
theorem State.imageFail_full {o : ImageObs} {s : State} (hread : o.readOk = true) (hfull : ImgFile.isPart o.bytes = false) :
    s.imageFail o =
      (let b : ImgFile := o.bytes
       let secs := s.imageSects b
       let m := b.parse secs
       firstFail [b.stage2 s.scu.loadLen secs, failIf (!s.ownerSigned b) ⟨3, .integrity, 0xFFFF, b.sigOff⟩,
         if s.on R.SMC_POLICY_ALLOW_UNTESTED then none else s.stage4 b,
         (secs.find? fun x => !x.good).map fun x => ⟨5, .integrity, x.idx, x.entry⟩, s.stage6 secs m,
         (sectOf secs 4).bind fun x => s.stage7 x m]) := by
  have hnone (c : Bool) (f : ImgFail) : failIf (ImgFile.isPart o.bytes && c) f = none := failIf_false _ (by rw [hfull, Bool.false_and])
  unfold State.imageFail
  dsimp only
  rw [hread, hnone, hnone, Bool.not_true, failIf_false _ rfl, firstFail_none, firstFail_none]
  cases ImgFile.stage2 o.bytes s.scu.loadLen (s.imageSects o.bytes) <;> rfl

/-- A failure of stage 2 comes first. -/
theorem State.imageFail_stage2 {o : ImageObs} {s : State} (hread : o.readOk = true) (hfull : ImgFile.isPart o.bytes = false) {f : ImgFail}
    (hf : ImgFile.stage2 o.bytes s.scu.loadLen (s.imageSects o.bytes) = some f) : s.imageFail o = some f := by
  rw [State.imageFail_full hread hfull]
  dsimp only
  rw [hf]
  rfl

theorem ImgFile.headerFail_fields (b : ImgFile) (len : Nat) :
    let magic := b.take 4 = [0x56, 0x43, 0x53, 0x49]
    let sized := 64 ≤ b.total ∧ b.total ≤ 268435456 ∧ b.total ≤ len
    (¬ magic → b.headerFail len = some ⟨2, .range, 0xFFFF, 0⟩) ∧
    (magic → field b 5 1 ≠ 1 → b.headerFail len = some ⟨2, .version, 0xFFFF, 4⟩) ∧
    (magic → field b 5 1 = 1 → 4 ≤ b.flags → b.headerFail len = some ⟨2, .range, 0xFFFF, 6⟩) ∧
    (magic → field b 5 1 = 1 → b.flags < 4 → ¬ sized → b.headerFail len = some ⟨2, .length, 0xFFFF, 8⟩) ∧
    (magic → field b 5 1 = 1 → b.flags < 4 → sized → b.headerFail len = none) := by
  intro magic sized
  unfold ImgFile.headerFail
  have hmagic (h : magic) : (b.take 4 != [0x56, 0x43, 0x53, 0x49]) = false := by simpa using h
  have hver (h : field b 5 1 = 1) : (field b 5 1 != 1) = false := by simpa using h
  have hflags (h : b.flags < 4) : decide (4 ≤ b.flags) = false := decide_eq_false (by omega)
  refine ⟨fun hm => ?_, fun hm hv => ?_, fun hm hv hf => ?_, fun hm hv hf hs => ?_, fun hm hv hf hs => ?_⟩
  · rw [failIf_true _ (by simpa using hm), firstFail_fails]
  · rw [failIf_false _ (hmagic hm), firstFail_none, failIf_true _ (by simpa using hv), firstFail_fails]
  · rw [failIf_false _ (hmagic hm), firstFail_none, failIf_false _ (hver hv), firstFail_none, failIf_true _ (decide_eq_true hf), firstFail_fails]
  · have hsize : (decide (b.total < 64) || decide (268435456 < b.total) || decide (len < b.total)) = true := by
      simp only [Bool.or_eq_true, decide_eq_true_eq]
      refine Decidable.byContradiction fun hno => hs ⟨?_, ?_, ?_⟩ <;> omega
    rw [failIf_false _ (hmagic hm), firstFail_none, failIf_false _ (hver hv), firstFail_none, failIf_false _ (hflags hf), firstFail_none,
      failIf_true _ hsize, firstFail_fails]
  · have hsize : (decide (b.total < 64) || decide (268435456 < b.total) || decide (len < b.total)) = false := by
      simp only [Bool.or_eq_false_iff, decide_eq_false_iff_not]
      obtain ⟨hlo, hhi, hlen⟩ := hs
      omega
    rw [failIf_false _ (hmagic hm), firstFail_none, failIf_false _ (hver hv), firstFail_none, failIf_false _ (hflags hf), firstFail_none,
      failIf_false _ hsize]
    rfl

theorem ImgFile.stage2_header {b : ImgFile} {len : Nat} {secs : List Sect} {f : ImgFail} (h : b.headerFail len = some f) :
    b.stage2 len secs = some f := by
  unfold ImgFile.stage2
  dsimp only
  rw [h, firstFail_fails]

theorem ImgFile.stage2_manifest {b : ImgFile} {len : Nat} {secs : List Sect} (h : b.headerFail len = none) :
    (b.total < b.manOff + b.manLen → b.stage2 len secs = some ⟨2, .length, 0xFFFF, 12⟩) ∧
    (b.manOff + b.manLen ≤ b.total → b.manLen ≠ 96 + 16 * b.nR + 96 * b.nS → b.stage2 len secs = some ⟨2, .length, 0xFFFF, 16⟩) := by
  unfold ImgFile.stage2
  dsimp only
  rw [h, firstFail_none]
  refine ⟨fun hlong => ?_, fun hfits hlen => ?_⟩
  · rw [failIf_true _ (decide_eq_true hlong), firstFail_fails]
  · rw [failIf_false _ (decide_eq_false (Nat.not_lt.2 hfits)), firstFail_none, failIf_true _ (by simpa using hlen), firstFail_fails]

/-! ### What a single stage finds -/

theorem firstAt_mem {cs : List (Nat × Bool)} {a : Nat} (h : firstAt cs = some a) : (a, true) ∈ cs := by
  obtain ⟨⟨x, c⟩, hfind, rfl⟩ := Option.map_eq_some_iff.1 h
  have hc : c = true := by simpa using List.find?_some hfind
  exact hc ▸ List.mem_of_find?_eq_some hfind

theorem State.stage4_finds (b : ImgFile) (s : State) (f : ImgFail) (h : s.stage4 b = some f) : f.stage = 4 ∧ f.status = .version ∧
    ∃ k < b.nR,
      let e := b.rangeOff k
      let v := s.ifaceValue (field b e 1)
      (v < field b (e + 4) 4 ∧ f.off = e + 4) ∨ (field b (e + 8) 4 < v ∧ f.off = e + 8) := by
  obtain ⟨e, he, hf⟩ := List.mem_map.1 (firstFail_mem h)
  obtain ⟨k, hk, rfl⟩ := List.mem_map.1 he
  obtain ⟨a, ha, rfl⟩ := Option.map_eq_some_iff.1 hf
  refine ⟨rfl, rfl, k, List.mem_range.1 hk, ?_⟩
  have hmem := firstAt_mem ha
  simp only [List.mem_cons, List.not_mem_nil, or_false] at hmem
  obtain hlow | hhigh := hmem
  · obtain rfl : a = 4 := congrArg (·.1) hlow
    exact .inl ⟨of_decide_eq_true (congrArg (·.2) hlow).symm, rfl⟩
  · obtain rfl : a = 8 := congrArg (·.1) hhigh
    exact .inr ⟨of_decide_eq_true (congrArg (·.2) hhigh).symm, rfl⟩

theorem failIf_some {c : Bool} {f g : ImgFail} (h : failIf c f = some g) : g = f := by
  unfold failIf at h
  split at h
  · exact (Option.some.inj h).symm
  · exact absurd h (by simp)

/-- A record that fails is named by its section, in stage 6. -/
theorem recFailAt_finds {α : Type} {x : Sect} {size : Nat} {st : Status} {rs : List α} {bad : Nat → α → Option Nat} {f : ImgFail}
    (h : recFailAt x size st rs bad = some f) : f.stage = 6 ∧ f.status = st ∧ f.sect = x.idx := by
  have hmem := firstFail_mem h
  obtain ⟨i, hi, heq⟩ := List.getElem_of_mem hmem
  rw [List.getElem_mapIdx] at heq
  obtain ⟨a, -, rfl⟩ := Option.map_eq_some_iff.1 heq
  exact ⟨rfl, rfl, rfl⟩

theorem Sect.formFail_finds {x : Sect} {size : Nat} {key : List Nat → Nat} {f : ImgFail} (h : x.formFail size key = some f) :
    f.stage = 6 ∧ (f.status = .length ∨ f.status = .range) ∧ f.sect = x.idx := by
  have hmem := firstFail_mem h
  simp only [List.mem_cons, List.not_mem_nil, or_false] at hmem
  obtain hlen | horder := hmem
  · obtain rfl := failIf_some hlen.symm
    exact ⟨rfl, .inl rfl, rfl⟩
  · obtain ⟨i, -, rfl⟩ := Option.map_eq_some_iff.1 horder.symm
    exact ⟨rfl, .inr rfl, rfl⟩

theorem State.topoFail_finds (x : Sect) (m : Image) (s : State) (f : ImgFail) (h : s.topoFail x m = some f) :
    f.stage = 6 ∧ f.sect = x.idx ∧ (f.status = .range ∨ f.status = .length ∨ f.status = .world) := by
  have hmem := firstFail_mem h
  simp only [List.mem_cons, List.not_mem_nil, or_false] at hmem
  obtain h | h | h | h | h | h := hmem
  · obtain rfl := failIf_some h.symm
    exact ⟨rfl, rfl, .inl rfl⟩
  · obtain ⟨hstage, hst, hsect⟩ := Sect.formFail_finds h.symm
    exact ⟨hstage, hsect, hst.elim (fun h => .inr (.inl h)) .inl⟩
  · obtain ⟨hstage, hst, hsect⟩ := recFailAt_finds h.symm
    exact ⟨hstage, hsect, .inl hst⟩
  · obtain ⟨hstage, hst, hsect⟩ := recFailAt_finds h.symm
    exact ⟨hstage, hsect, .inl hst⟩
  · obtain ⟨hstage, hst, hsect⟩ := recFailAt_finds h.symm
    exact ⟨hstage, hsect, .inl hst⟩
  · obtain ⟨hstage, hst, hsect⟩ := recFailAt_finds h.symm
    exact ⟨hstage, hsect, .inr (.inr hst)⟩

theorem State.stage7_finds (x : Sect) (m : Image) (s : State) (f : ImgFail) (h : s.stage7 x m = some f) :
    f.stage = 7 ∧ f.status = .world ∧ f.sect = x.idx := by
  have hmem := firstFail_mem h
  simp only [List.mem_cons, List.not_mem_nil, or_false] at hmem
  obtain h | h := hmem
  · obtain ⟨p, -, rfl⟩ := Option.map_eq_some_iff.1 h.symm
    exact ⟨rfl, rfl, rfl⟩
  · obtain rfl := failIf_some h.symm
    exact ⟨rfl, rfl, rfl⟩

/-! ### A commit (R316) -/

theorem State.syncCombo_get (s : State) (f : Fld) (h : f.key 0 0 < 0x1D00000 * 32) (hcombo : f.key 0 0 ≠ R.SMC_POLICY_UNVERIFIED_COMBO.key 0 0) :
    s.syncCombo.get f = s.get f := by
  unfold State.syncCombo
  dsimp only
  split
  · rw [State.raise_get_below _ _ h, State.get_set_ne _ _ _ _ _ _ _ _ hcombo]
  · exact State.get_set_ne _ _ _ _ _ _ _ _ hcombo

theorem State.syncDev_get (s : State) (f : Fld) (h : f.key 0 0 < 0x1D00000 * 32) (hdev : f.key 0 0 ≠ R.SMC_DEV_STATE_STATE.key 0 0) :
    s.syncDev.get f = s.get f := by
  unfold State.syncDev State.setDev
  split
  · split
    · rfl
    · rw [State.raise_get_below _ _ h, State.get_set_ne _ _ _ _ _ _ _ _ hdev]
  · rfl

theorem State.setUnverified_get (s : State) (v : Bool) (f : Fld) (h : f.key 0 0 < 0x1D00000 * 32)
    (hf : ∀ g ∈ [R.SCU_IMG_STATUS_UNVERIFIED, R.SMC_POLICY_UNV_IMG, R.SMC_POLICY_UNVERIFIED_COMBO], f.key 0 0 ≠ g.key 0 0) :
    (s.setUnverified v).get f = s.get f := by
  simp only [List.forall_mem_cons] at hf
  obtain ⟨hunv, himg, hcombo, -⟩ := hf
  rw [State.setUnverified, State.syncCombo_get _ _ h hcombo, State.get_set_ne _ _ _ _ _ _ _ _ himg, State.get_set_ne _ _ _ _ _ _ _ _ hunv]

/-- The digest of the image and the measurement that shows it stand apart from the image's identity. -/
theorem State.setDigest_id (s : State) (d : List Nat) : (s.setDigest d).get R.SCU_IMG_ID = s.get R.SCU_IMG_ID := by
  have hmeas (t : State) : t.syncMeas.get R.SCU_IMG_ID = t.get R.SCU_IMG_ID := by
    refine State.each_get (fun u i hi => State.get_set_ne _ _ _ _ _ _ _ _ ?_) t
    have hlt := List.mem_range.1 hi
    simp only [Fld.key, R.SCU_IMG_ID, R.SMC_MEAS_DATA_DIGEST]
    omega
  refine (hmeas _).trans (State.each_get (fun u i _ => State.get_set_ne _ _ _ _ _ _ _ _ ?_) s)
  simp only [Fld.key, R.SCU_IMG_ID, R.SCU_IMG_DIGEST_DIGEST]
  omega

/-- The last part of a commit: `s` holds the new structure. -/
def State.committed (s : State) (m : Image) (policy : Bool) : State :=
  let s7 := (((s.set R.SCU_IMG_ID m.id).set R.SCU_IMG_VER_VER m.ver).setDigest (sha384 m.manifest)).syncOvf
  (((s7.imageOk).set R.SCU_IMG_STATUS_IN_FORCE 1).setUnverified policy).syncDev

theorem State.commitImage_eq (s : State) (m : Image) (policy : Bool) : ∃ u : State, s.commitImage m policy = u.committed m policy := ⟨_, rfl⟩

theorem State.committed_get (s : State) (m : Image) (policy : Bool) (f : Fld)
    (hf : f ∈ [R.SCU_IMG_ID, R.SCU_IMG_STATUS_STATUS, R.SCU_IMG_STATUS_STAGE, R.SCU_IMG_STATUS_SECTION, R.SCU_IMG_STATUS_BUSY,
      R.SCU_IMG_STATUS_IN_FORCE]) : (s.committed m policy).get f =
        (((((s.set R.SCU_IMG_ID m.id).set R.SCU_IMG_VER_VER m.ver).setDigest (sha384 m.manifest)).syncOvf).imageOk.set
          R.SCU_IMG_STATUS_IN_FORCE 1).get f := by
  have hapart : f.key 0 0 < 0x1D00000 * 32 ∧ f.key 0 0 ≠ R.SMC_DEV_STATE_STATE.key 0 0 ∧
      ∀ g ∈ [R.SCU_IMG_STATUS_UNVERIFIED, R.SMC_POLICY_UNV_IMG, R.SMC_POLICY_UNVERIFIED_COMBO], f.key 0 0 ≠ g.key 0 0 := by
    revert f
    decide
  obtain ⟨hlow, hdev, hunv⟩ := hapart
  unfold State.committed
  dsimp only
  rw [State.syncDev_get _ _ hlow hdev, State.setUnverified_get _ _ _ hlow hunv]

theorem State.imageOk_shows (s : State) : s.imageOk.get R.SCU_IMG_STATUS_STATUS = 0 ∧ s.imageOk.get R.SCU_IMG_STATUS_STAGE = 0 ∧
    s.imageOk.get R.SCU_IMG_STATUS_SECTION = 0xFFFF ∧ s.imageOk.get R.SCU_IMG_STATUS_BUSY = 0 ∧
    s.imageOk.get R.SCU_IMG_ID = s.get R.SCU_IMG_ID := by
  unfold State.imageOk
  refine ⟨?_, ?_, ?_, State.get_set_self .., ?_⟩
  · rw [State.get_set_ne _ _ _ _ _ _ _ _ (by decide), State.get_set_ne _ _ _ _ _ _ _ _ (by decide),
      State.get_set_ne _ _ _ _ _ _ _ _ (by decide), State.get_set_ne _ _ _ _ _ _ _ _ (by decide), State.get_set_self]
    rfl
  · rw [State.get_set_ne _ _ _ _ _ _ _ _ (by decide), State.get_set_ne _ _ _ _ _ _ _ _ (by decide),
      State.get_set_ne _ _ _ _ _ _ _ _ (by decide), State.get_set_self]
    rfl
  · rw [State.get_set_ne _ _ _ _ _ _ _ _ (by decide), State.get_set_ne _ _ _ _ _ _ _ _ (by decide), State.get_set_self]
    rfl
  · rw [State.get_set_ne _ _ _ _ _ _ _ _ (by decide), State.get_set_ne _ _ _ _ _ _ _ _ (by decide),
      State.get_set_ne _ _ _ _ _ _ _ _ (by decide), State.get_set_ne _ _ _ _ _ _ _ _ (by decide),
      State.get_set_ne _ _ _ _ _ _ _ _ (by decide)]

theorem State.commitImage_shows (m : Image) (p : Bool) (s : State) : let t := s.commitImage m p
    t.get R.SCU_IMG_ID = m.id % 2 ^ 64 ∧ t.get R.SCU_IMG_STATUS_STATUS = 0 ∧ t.get R.SCU_IMG_STATUS_STAGE = 0 ∧
    t.get R.SCU_IMG_STATUS_SECTION = 0xFFFF ∧ t.get R.SCU_IMG_STATUS_BUSY = 0 ∧ t.on R.SCU_IMG_STATUS_IN_FORCE = true := by
  intro t
  obtain ⟨u, ht⟩ : ∃ u : State, t = u.committed m p := s.commitImage_eq m p
  obtain ⟨hstatus, hstage, hsection, hbusy, hid⟩ :=
    ((((u.set R.SCU_IMG_ID m.id).set R.SCU_IMG_VER_VER m.ver).setDigest (sha384 m.manifest)).syncOvf).imageOk_shows
  rw [ht, State.on, u.committed_get m p R.SCU_IMG_ID (by decide), u.committed_get m p R.SCU_IMG_STATUS_STATUS (by decide),
    u.committed_get m p R.SCU_IMG_STATUS_STAGE (by decide), u.committed_get m p R.SCU_IMG_STATUS_SECTION (by decide),
    u.committed_get m p R.SCU_IMG_STATUS_BUSY (by decide), u.committed_get m p R.SCU_IMG_STATUS_IN_FORCE (by decide)]
  refine ⟨?_, ?_, ?_, ?_, ?_, decide_eq_true ?_⟩
  · rw [State.get_set_ne _ R.SCU_IMG_STATUS_IN_FORCE _ _ _ _ _ _ (by decide), hid, State.syncOvf,
      State.get_set_ne _ R.IEA_OVF_USED_PAGES _ _ _ _ _ _ (by decide), State.setDigest_id,
      State.get_set_ne _ R.SCU_IMG_VER_VER _ _ _ _ _ _ (by decide), State.get_set_self]
    rfl
  · rw [State.get_set_ne _ R.SCU_IMG_STATUS_IN_FORCE _ _ _ _ _ _ (by decide), hstatus]
  · rw [State.get_set_ne _ R.SCU_IMG_STATUS_IN_FORCE _ _ _ _ _ _ (by decide), hstage]
  · rw [State.get_set_ne _ R.SCU_IMG_STATUS_IN_FORCE _ _ _ _ _ _ (by decide), hsection]
  · rw [State.get_set_ne _ R.SCU_IMG_STATUS_IN_FORCE _ _ _ _ _ _ (by decide), hbusy]
  · rw [State.get_set_self]
    decide

theorem imageChecks : ImageChecks := by
  refine ⟨fun o s hread => ?_, fun o s hread hpart hphase => ?_, fun o s => ?_, fun b s f => s.stage4_finds b f,
    fun x m s f => s.topoFail_finds x m f, fun x m s hcount => ?_, fun x m s f => s.stage7_finds x m f, fun m p s => s.commitImage_shows m p⟩
  · rw [State.imageFail, failIf_true _ (by rw [hread]; rfl), firstFail_fails]
  · rw [State.imageFail, failIf_false _ (by rw [hread]; rfl), firstFail_none, failIf_true _ (by rw [hpart]; simpa using hphase), firstFail_fails]
  · intro b secs m hread hfull magic sized
    obtain ⟨hrange, hversion, hflags, hlength, hheader⟩ := ImgFile.headerFail_fields b s.scu.loadLen
    have hearly {f : ImgFail} (h : b.headerFail s.scu.loadLen = some f) : s.imageFail o = some f :=
      State.imageFail_stage2 hread hfull (ImgFile.stage2_header h)
    refine ⟨fun hm => hearly (hrange hm), fun hm hv => hearly (hversion hm hv), fun hm hv hf => hearly (hflags hm hv hf),
      fun hm hv hf hs => hearly (hlength hm hv hf hs),
      fun hm hv hf hs hlong => State.imageFail_stage2 hread hfull ((ImgFile.stage2_manifest (hheader hm hv hf hs)).1 hlong),
      fun hm hv hf hs hfits hlen => State.imageFail_stage2 hread hfull ((ImgFile.stage2_manifest (hheader hm hv hf hs)).2 hfits hlen),
      fun h2 => ?_⟩
    have hall := State.imageFail_full hread hfull (s := s)
    dsimp only at hall
    rw [h2, firstFail_none] at hall
    refine ⟨fun hsig => ?_, fun hsig => ?_⟩
    · rw [hall, failIf_true _ (by rw [hsig]; rfl), firstFail_fails]
    · rw [failIf_false _ (by rw [hsig]; rfl), firstFail_none] at hall
      refine ⟨fun hallow f hf => ?_, fun hpass => ?_⟩
      · rw [hall, hallow, if_neg Bool.false_ne_true, hf, firstFail_fails]
      · have hnone : (if s.on R.SMC_POLICY_ALLOW_UNTESTED then none else s.stage4 b) = none := by
          obtain h | h := hpass
          · rw [h, if_pos rfl]
          · rw [h, ite_self]
        rw [hnone, firstFail_none] at hall
        refine ⟨fun x hx => ?_, fun hgood f hf => ?_, fun hgood h6 x hx => ?_⟩
        · rw [hall, hx]
          rfl
        · rw [hall, hgood, Option.map_none, firstFail_none, hf, firstFail_fails]
        · rw [hall, hgood, Option.map_none, firstFail_none, h6, firstFail_none, hx, Option.bind_some]
          cases s.stage7 x m <;> rfl
  · have hbad : (decide (x.count = 0) || decide (512 < x.count)) = true := by simpa using hcount
    rw [State.topoFail, failIf_true _ hbad, firstFail_fails]

/-! ### Reloads (R321, R322) -/

theorem execReloadCancel_cancels {w : World} {v : BitVec 32} {s : State} (hr : Reaches s w .SCU_RLD_CTRL 0 0)
    (hgo : R.SCU_RLD_CTRL_CANCEL.of v.toNat = 1) :
    (s.get R.SCU_RLD_STATUS_PHASE = 1 → exec (.reloadCancel w v) s = .next (wrote s w .SCU_RLD_CTRL 0 0 v.toNat).dropReload) ∧
    (s.get R.SCU_RLD_STATUS_PHASE ≠ 1 →
      exec (.reloadCancel w v) s = .next ((s.countRefused w .state).set R.SCU_RLD_STATUS_LAST_STATUS 1)) := by
  change (_ → execReloadCancel w v s = _) ∧ (_ → execReloadCancel w v s = _)
  rw [execReloadCancel, hgo]
  refine ⟨fun hphase => ?_, fun hphase => ?_⟩
  · rw [hphase]
    exact congrArg Host.Outcome.next (State.rowWrite_taken hr _ _)
  · rw [show (decide (1 = 1) && s.get R.SCU_RLD_STATUS_PHASE != 1) = true by simpa using hphase]
    exact congrArg Host.Outcome.next (State.rowWrite_refused hr _ _ _)

/-- The store's pages, backlog and held banks are shown above the registers of the SCU. -/
theorem State.syncStore_get (s : State) (n : Nat) (f : Fld) (h : f.key 0 0 < 0xA00000 * 32) : (s.syncStore n).get f = s.get f := by
  have hbanks (t : State) : (t.syncBanks n).get f = t.get f := by
    refine State.each_get (fun u g _ => State.get_set_ne _ _ _ _ _ _ _ _ ?_) t
    simp only [Fld.key, R.ILC_GRP_BANK_HELD] at *
    omega
  have hpages (t : State) : t.syncPages.get f = t.get f := by
    unfold State.syncPages
    dsimp only
    rw [State.get_set_ne, State.get_set_ne, State.get_set_ne, State.get_set_ne]
    all_goals
      simp only [Fld.key, R.SST_AUD_HELD_HELD, R.SST_AUD_FREE_FREE, R.SST_AUD_TOTAL_TOTAL, R.SST_AUD_STATUS_WINDOW] at *
      omega
  unfold State.syncStore
  dsimp only
  rw [hbanks, hpages, State.get_set_ne, State.get_setSat_ne, State.get_set_ne]
  all_goals
    simp only [Fld.key, R.SST_ST_U, R.SST_ST_BACKLOG_B, R.SST_ST_SCALE_SCALE] at *
    omega

/-- What a state shows of the store's lines and of the structure follows no register. -/
theorem State.syncStore_parts (s : State) (n : Nat) : (s.syncStore n).scu = s.scu ∧ (s.syncStore n).store = s.store := by
  have hscu (t : State) : (t.syncBanks n).scu = t.scu := by
    unfold State.syncBanks
    exact State.each_part (p := fun u => u.scu) (g := State.syncBank) (fun u g _ => rfl) t
  have hstore (t : State) : (t.syncBanks n).store = t.store := by
    unfold State.syncBanks
    exact State.each_part (p := fun u => u.store) (g := State.syncBank) (fun u g _ => rfl) t
  have hpages (t : State) : t.syncPages.scu = t.scu ∧ t.syncPages.store = t.store := ⟨rfl, rfl⟩
  unfold State.syncStore
  dsimp only
  rw [hscu, hstore, (hpages _).1, (hpages _).2]
  exact ⟨rfl, rfl⟩

theorem State.dropReload_shows (s : State) (m : Image) (h : s.scu.staged = some m) : s.dropReload.scu.staged = none ∧
    s.dropReload.get R.SCU_RLD_STATUS_PHASE = 0 ∧ s.dropReload.get R.SCU_RLD_MASK_GROUPS = 0 ∧
    (s.dropReload.sto m.station).reloadMark = none := by
  have heq : ∃ u : State, s.dropReload = ((u.set R.SCU_RLD_STATUS_PHASE 0).set R.SCU_RLD_MASK_GROUPS 0).syncStore m.station ∧
      u.scu.staged = none ∧ (u.sto m.station).reloadMark = none := by
    unfold State.dropReload
    rw [h]
    refine ⟨_, rfl, rfl, ?_⟩
    simp [State.sto, State.setSto, SMap.get_put_self]
  obtain ⟨u, hdrop, hstaged, hmark⟩ := heq
  obtain ⟨hscu, hstore⟩ := ((u.set R.SCU_RLD_STATUS_PHASE 0).set R.SCU_RLD_MASK_GROUPS 0).syncStore_parts m.station
  rw [hdrop, hscu, State.syncStore_get _ _ _ (by decide), State.syncStore_get _ _ _ (by decide)]
  refine ⟨hstaged, ?_, State.get_set_self .., ?_⟩
  · rw [State.get_set_ne _ R.SCU_RLD_MASK_GROUPS _ _ _ _ _ _ (by decide), State.get_set_self]
    rfl
  · rw [State.sto, hstore]
    exact hmark

theorem reloads : Reloads := by
  refine ⟨fun s m hstaged hphase => ?_, fun w v m s hr hgo _ => execReloadCancel_cancels hr hgo, fun s m h => s.dropReload_shows m h⟩
  change execReloadCopyDone s = _
  rw [execReloadCopyDone, hstaged]
  exact congrArg Host.Outcome.next (if_pos hphase)

/-- Settles O27: the checks in their order, each by what its own list of conditions finds, and the registers that a commit and a dropped
reload show. -/
theorem images : Obligations.Images := ⟨imageLoads, imageChecks, reloads⟩

end Sys2Proof.Machine
end

section
/-! PROOFS. The cell library (R281 to R289). -/

open Sys2Proof Sys2Proof.Stated

namespace Sys2Proof.Machine

/-! ### Rounding and the range of a lane (R4, R281) -/

/-- Division rounded to nearest misses by at most half the divisor. -/
theorem roundDivI_near (r : Int) {b : Nat} (hb : 0 < b) : -(b : Int) ≤ 2 * (roundDivI r b * b - r) ∧ 2 * (roundDivI r b * b - r) ≤ b := by
  have hpos : (0 : Int) < b := by exact_mod_cast hb
  have hm0 := Int.emod_nonneg r (Int.ne_of_gt hpos)
  have hmb := Int.emod_lt_of_pos r hpos
  have hdiv := Int.mul_ediv_add_emod r b
  have hdown : r / b * b - r = -(r % b) := by rw [Int.mul_comm]; omega
  have hup : (r / b + 1) * b - r = b - r % b := by rw [Int.add_mul, Int.one_mul, Int.mul_comm]; omega
  have htoNat : ((r % (b : Int)).toNat : Int) = r % b := Int.toNat_of_nonneg hm0
  unfold roundDivI
  rw [if_neg (by omega)]
  dsimp only
  split
  · rw [hdown]
    omega
  · split
    · rw [hup]
      omega
    · obtain heven | hodd := Int.emod_two_eq (r / b)
      · rw [heven, Int.add_zero, hdown]
        omega
      · rw [hodd, hup]
        omega

theorem roundDivI_le {r n : Int} {b : Nat} (hb : 0 < b) (h : r ≤ n * b) : roundDivI r b ≤ n := by
  refine Int.not_lt.1 fun hlt => ?_
  have hpos : (0 : Int) < b := by exact_mod_cast hb
  have hmul : (n + 1) * b ≤ roundDivI r b * b := Int.mul_le_mul_of_nonneg_right (by omega) (by omega)
  rw [Int.add_mul, Int.one_mul] at hmul
  have hnear := (roundDivI_near r hb).2
  omega

theorem le_roundDivI {r n : Int} {b : Nat} (hb : 0 < b) (h : n * b ≤ r) : n ≤ roundDivI r b := by
  refine Int.not_lt.1 fun hlt => ?_
  have hpos : (0 : Int) < b := by exact_mod_cast hb
  have hmul : roundDivI r b * b ≤ (n - 1) * b := Int.mul_le_mul_of_nonneg_right (by omega) (by omega)
  rw [Int.sub_mul, Int.one_mul] at hmul
  have hnear := (roundDivI_near r hb).1
  omega

theorem wrLane_unsigned (q : Int) : (wrLane false q : Int) = clampI 0 65535 q := by
  have h0 : 0 ≤ clampI 0 65535 q := by unfold clampI; omega
  exact Int.toNat_of_nonneg h0

theorem wrLane_signed (q : Int) : toSigned 16 (wrLane true q) = satS 16 q := by
  refine toSigned_ofSigned (by decide) ?_ ?_
  · simp only [satS]
    omega
  · simp only [satS]
    omega

/-- A lane's value fits 16 bits. -/
theorem wrLane_lt (g : Bool) (q : Int) : wrLane g q < 2 ^ 16 := by
  cases g with
  | false =>
    have h := wrLane_unsigned q
    unfold clampI at h
    omega
  | true =>
    have hlt : satS 16 q % (2 ^ 16 : Nat) < (2 ^ 16 : Nat) := Int.emod_lt_of_pos _ (by decide)
    have h0 : 0 ≤ satS 16 q % (2 ^ 16 : Nat) := Int.emod_nonneg _ (by decide)
    change (satS 16 q % (2 ^ 16 : Nat)).toNat < 2 ^ 16
    omega

theorem cellRounding (sh : Nat) (r : Int) : let d : Int := ((2 ^ sh : Nat) : Int)
    let u : Int := wrLane false (roundDivI r (2 ^ sh))
    let v : Int := toSigned 16 (wrLane true (roundDivI r (2 ^ sh)))
    (r ≤ 0 → u = 0) ∧ (65535 * d ≤ r → u = 65535) ∧ (0 ≤ r → r ≤ 65535 * d → -d ≤ 2 * (u * d - r) ∧ 2 * (u * d - r) ≤ d) ∧
    (r ≤ -32768 * d → v = -32768) ∧ (32767 * d ≤ r → v = 32767) ∧
    (-32768 * d ≤ r → r ≤ 32767 * d → -d ≤ 2 * (v * d - r) ∧ 2 * (v * d - r) ≤ d) := by
  intro d u v
  have hb : 0 < 2 ^ sh := Nat.two_pow_pos sh
  have hu : u = clampI 0 65535 (roundDivI r (2 ^ sh)) := wrLane_unsigned _
  have hv : v = satS 16 (roundDivI r (2 ^ sh)) := wrLane_signed _
  have hnear := roundDivI_near r hb
  have hle (n : Int) (h : r ≤ n * d) : roundDivI r (2 ^ sh) ≤ n := roundDivI_le hb h
  have hge (n : Int) (h : n * d ≤ r) : n ≤ roundDivI r (2 ^ sh) := le_roundDivI hb h
  refine ⟨fun h => ?_, fun h => ?_, fun h0 h1 => ?_, fun h => ?_, fun h => ?_, fun h0 h1 => ?_⟩
  · have := hle 0 (by omega)
    rw [hu, clampI]
    omega
  · have := hge 65535 h
    rw [hu, clampI]
    omega
  · have hlo := hge 0 (by omega)
    have hhi := hle 65535 h1
    have heq : u = roundDivI r (2 ^ sh) := by rw [hu, clampI]; omega
    rw [heq]
    exact hnear
  · have := hle (-32768) h
    rw [hv, satS]
    omega
  · have := hge 32767 h
    rw [hv, satS]
    omega
  · have hlo := hge (-32768) h0
    have hhi := hle 32767 h1
    have heq : v = roundDivI r (2 ^ sh) := by rw [hv, satS]; omega
    rw [heq]
    exact hnear

/-! ### Arithmetic cells (R282, R283) -/

theorem arithLane_lt (g : CellCfg) {a b c : Nat} (ha : a < 2 ^ 16) (hb : b < 2 ^ 16) : arithLane g a b c < 2 ^ 16 := by
  unfold arithLane
  dsimp only
  split
  any_goals exact wrLane_lt _ _
  · split <;> decide
  · split
    · exact ha
    · exact hb
  · exact Nat.and_lt_two_pow _ hb
  · exact Nat.or_lt_two_pow ha hb
  · exact Nat.xor_lt_two_pow ha hb
  · decide

theorem lane_lt (w i : Nat) : lane w i < 2 ^ 16 := Nat.mod_lt _ (by decide)

theorem lane_zero_of_lt {w : Nat} (h : w < 2 ^ 16) : lane w 0 = w := Nat.mod_eq_of_lt h

theorem lane_pos_of_lt {w i : Nat} (h : w < 2 ^ 16) (hi : 0 < i) : lane w i = 0 := by
  have hshift : w >>> (16 * i) = 0 := by
    rw [Nat.shiftRight_eq_div_pow]
    exact Nat.div_eq_of_lt (Nat.lt_of_lt_of_le h (Nat.pow_le_pow_right (by decide) (by omega)))
  rw [lane, bits, hshift, Nat.zero_mod]

/-- A packed word's lanes are the low 16 bits of what was packed. -/
theorem lane_packLanes (ls : List Nat) {i : Nat} (hi : i < 4) : lane (packLanes ls) i = lane (ls.getD i 0) 0 := by
  have h0 := lane_lt (ls.getD 0 0) 0
  have h1 := lane_lt (ls.getD 1 0) 0
  have h2 := lane_lt (ls.getD 2 0) 0
  have h3 := lane_lt (ls.getD 3 0) 0
  have hshow (w : Nat) : lane w i = w / 2 ^ (16 * i) % 2 ^ 16 := by rw [lane, bits, Nat.shiftRight_eq_div_pow]
  rw [hshow, packLanes]
  obtain rfl | rfl | rfl | rfl : i = 0 ∨ i = 1 ∨ i = 2 ∨ i = 3 := by omega
  all_goals omega

theorem lane_packLanes_map (f : Nat → Nat) {i : Nat} (hi : i < 4) (hf : f i < 2 ^ 16) : lane (packLanes (lanes4.map f)) i = f i := by
  rw [lane_packLanes _ hi]
  obtain rfl | rfl | rfl | rfl : i = 0 ∨ i = 1 ∨ i = 2 ∨ i = 3 := by omega
  all_goals exact lane_zero_of_lt hf

theorem arithWord_lane (g : CellCfg) (a b c i : Nat) (hi : i < 4) :
    (bits g.tw 0 4 ≠ 15 → lane (arithWord g a b c) i = arithLane g (lane a i) (lane b i) (lane c i)) ∧
    (bits g.tw 0 4 = 15 → lane (arithWord g a b c) i = if i = 0 then wrLane g.osign (roundDivI (rdLane g.isign (lane a 0) +
      rdLane g.isign (lane a 1) + rdLane g.isign (lane a 2) + rdLane g.isign (lane a 3)) (2 ^ bits g.tw 4 5)) else 0) := by
  refine ⟨fun hop => ?_, fun hop => ?_⟩
  · rw [arithWord, if_neg hop]
    exact lane_packLanes_map (fun i => arithLane g (lane a i) (lane b i) (lane c i)) hi (arithLane_lt g (lane_lt _ _) (lane_lt _ _))
  · have hsum : lanes4.foldl (fun acc i => acc + rdLane g.isign (lane a i)) (0 : Int) = rdLane g.isign (lane a 0) + rdLane g.isign (lane a 1) +
        rdLane g.isign (lane a 2) + rdLane g.isign (lane a 3) := by
      simp [lanes4]
    rw [arithWord, if_pos hop, hsum]
    obtain rfl | hpos := Nat.eq_zero_or_pos i
    · exact lane_zero_of_lt (wrLane_lt _ _)
    · rw [if_neg (Nat.pos_iff_ne_zero.1 hpos)]
      exact lane_pos_of_lt (wrLane_lt _ _) hpos

theorem macStep_lane (g : CellCfg) (acc : List Int) (a b i : Nat) (hi : i < 4) :
    (macStep g acc a b).getD i 0 = satS 40 (acc.getD i 0 + rdLane g.isign (lane a i) * rdLane g.isign (lane b i)) := by
  obtain rfl | rfl | rfl | rfl : i = 0 ∨ i = 1 ∨ i = 2 ∨ i = 3 := by omega
  all_goals rfl

theorem arithLane_ops (g : CellCfg) (a b c : Nat) : let x := rdLane g.isign a
    let y := rdLane g.isign b
    let z := rdLane g.isign c
    let sh := bits g.tw 4 5
    let out (r : Int) : Nat := wrLane g.osign (roundDivI r (2 ^ sh))
    let op (n v : Nat) : Prop := bits g.tw 0 4 = n → arithLane g a b c = v
    op 0 (out x) ∧ op 1 (out (x + y)) ∧ op 2 (out (x - y)) ∧ op 3 (out (if y ≤ x then x - y else y - x)) ∧ op 4 (out (x * y)) ∧
    op 5 (out (x * y + z * (2 ^ sh : Nat))) ∧ op 7 (out (min (max x y) z)) ∧ op 8 (out (min x y)) ∧ op 9 (out (max x y)) ∧
    op 10 (if condHolds (bits g.tw 9 3) x y then 0xFFFF else 0) ∧ op 11 (if c = 0 then b else a) ∧ op 12 (a &&& b) ∧
    op 13 (a ||| b) ∧ op 14 (a ^^^ b) := by
  intro x y z sh out op
  have hdiff : ((x - y).natAbs : Int) = if y ≤ x then x - y else y - x := by
    split <;> omega
  have hselect : (if c ≠ 0 then a else b) = if c = 0 then b else a := by
    by_cases hc : c = 0 <;> simp [hc]
  refine ⟨?_, ?_, ?_, ?_, ?_, ?_, ?_, ?_, ?_, ?_, ?_, ?_, ?_, ?_⟩
  case refine_4 =>
    intro h
    rw [arithLane, h]
    exact congrArg out hdiff
  case refine_11 =>
    intro h
    rw [arithLane, h]
    exact hselect
  all_goals
    intro h
    rw [arithLane, h]
    rfl

/-! ### Lookups (R284) -/

theorem ofSigned_toSigned {v : Nat} (h : v < 2 ^ 16) : ofSigned 16 (toSigned 16 v) = v := by
  unfold ofSigned toSigned
  rw [Nat.mod_eq_of_lt h]
  split <;> omega

theorem ofSigned_rdLane (g : Bool) {v : Nat} (h : v < 2 ^ 16) : ofSigned 16 (rdLane g v) = v := by
  cases g with
  | true => exact ofSigned_toSigned h
  | false =>
    change ((v : Int) % (2 ^ 16 : Nat)).toNat = v
    omega

theorem lookup_entries (x : Engine) (g : CellCfg) (a : Nat) : let ish := bits g.tw 0 4
    let u := if g.isign then (toSigned 16 a + 32768).toNat else a
    (4095 < u / 2 ^ ish → bit g.tw 4 = false → lookupLane x g a = x.ls16 g.base 4095) ∧
    (u / 2 ^ ish ≤ 4095 → bit g.tw 4 = false → lookupLane x g a = x.ls16 g.base (u / 2 ^ ish)) ∧
    (u / 2 ^ ish < 4095 → bit g.tw 4 = true → u % 2 ^ ish = 0 → lookupLane x g a = x.ls16 g.base (u / 2 ^ ish)) := by
  intro ish u
  refine ⟨fun hpast hplain => ?_, fun hin hplain => ?_, fun hin hinter hexact => ?_⟩
  · unfold lookupLane
    dsimp only
    rw [hplain, if_neg Bool.false_ne_true, Nat.min_eq_right (Nat.le_of_lt hpast)]
  · unfold lookupLane
    dsimp only
    rw [hplain, if_neg Bool.false_ne_true, Nat.min_eq_left hin]
  · have hpos : 0 < 2 ^ ish := Nat.two_pow_pos ish
    have hfits : x.ls16 g.base (u / 2 ^ ish) < 2 ^ 16 := Nat.mod_lt _ (by decide)
    have hentry : lookupLane x g a = ofSigned 16 (rdLane g.osign (x.ls16 g.base (u / 2 ^ ish))) := by
      unfold lookupLane
      dsimp only
      rw [hinter, if_pos rfl, Nat.min_eq_left (Nat.le_of_lt hin), if_neg (Nat.not_lt.2 (Nat.le_of_lt hin)), hexact,
        Nat.min_eq_left (Nat.le_of_lt hin), Int.natCast_zero, Int.mul_zero, Int.add_zero, roundDivI_mul_self _ hpos]
    rw [hentry, ofSigned_rdLane _ hfits]

/-! ### Windows (R286, R287) -/

theorem winResult_min (x : Engine) (g : CellCfg) (rows : List Row) (i p : Nat) (cx : Int) (h : winSamples g rows i cx ≠ [])
    (hop : bits g.tw 6 2 = 2) : ∃ v ∈ winSamples g rows i cx, winResult x g rows i p cx = wrLane g.osign (rdLane g.isign v) ∧
      ∀ u ∈ winSamples g rows i cx, rdLane g.isign v ≤ rdLane g.isign u := by
  rw [winResult, hop]
  generalize winSamples g rows i cx = samples at h ⊢
  cases samples with
  | nil => exact absurd rfl h
  | cons a as =>
    obtain ⟨hmem, hleast⟩ := List.min?_eq_some_iff.1 (List.min?_cons' (x := rdLane g.isign a) (xs := as.map (rdLane g.isign)))
    obtain ⟨v, hv, hval⟩ := List.mem_map.1 (show _ ∈ (a :: as).map (rdLane g.isign) from hmem)
    exact ⟨v, hv, congrArg (wrLane g.osign) hval.symm, fun u hu => hval ▸ hleast _ (List.mem_map_of_mem (l := a :: as) hu)⟩

theorem winResult_max (x : Engine) (g : CellCfg) (rows : List Row) (i p : Nat) (cx : Int) (h : winSamples g rows i cx ≠ [])
    (hop : bits g.tw 6 2 = 3) : ∃ v ∈ winSamples g rows i cx, winResult x g rows i p cx = wrLane g.osign (rdLane g.isign v) ∧
      ∀ u ∈ winSamples g rows i cx, rdLane g.isign u ≤ rdLane g.isign v := by
  rw [winResult, hop]
  generalize winSamples g rows i cx = samples at h ⊢
  cases samples with
  | nil => exact absurd rfl h
  | cons a as =>
    obtain ⟨hmem, hgreatest⟩ := List.max?_eq_some_iff.1 (List.max?_cons' (x := rdLane g.isign a) (xs := as.map (rdLane g.isign)))
    obtain ⟨v, hv, hval⟩ := List.mem_map.1 (show _ ∈ (a :: as).map (rdLane g.isign) from hmem)
    exact ⟨v, hv, congrArg (wrLane g.osign) hval.symm, fun u hu => hval ▸ hgreatest _ (List.mem_map_of_mem (l := a :: as) hu)⟩

theorem winResult_tap (x : Engine) (g : CellCfg) (rows : List Row) (i p : Nat) (cx : Int) (hop : bits g.tw 6 2 = 0) :
    winResult x g rows i p cx = wrLane g.osign (rdLane g.isign
      (rowSample g (rowAt rows i (toSigned 3 (bits g.tw 10 3))).words (cx + toSigned 3 (bits g.tw 13 3)))) := by
  rw [winResult, hop]
  rfl

theorem rowSample_edge (g : CellCfg) (ws : List Nat) (x : Int) (h : x < 0 ∨ 4 * (winWidth g : Int) ≤ x) :
    rowSample g ws x = if bit g.tw 8 then 0 else if x < 0 then lane (ws.getD 0 0) 0 else lane (ws.getD (winWidth g - 1) 0) 3 := by
  unfold rowSample
  dsimp only
  obtain hneg | hpast := h
  · rw [if_pos hneg, if_pos hneg]
  · have hnn : ¬ x < 0 := by omega
    rw [if_neg hnn, if_pos hpast, if_neg hnn]

/-! ### Reduces (R288, R289) -/

theorem redVal_ops (g : CellCfg) (n m : Int) (i a b k : Nat) : let v := rdLane g.isign a
    (redOp g = 0 → redVal g (some (n, i)) a b k = some (satS 40 (n + v), 0) ∧ redVal g none a b k = some (satS 40 v, 0)) ∧
    (redOp g = 1 → redVal g (some (n, i)) a b k = some (min n v, 0)) ∧ (redOp g = 2 → redVal g (some (n, i)) a b k = some (max n v, 0)) ∧
    (redOp g = 3 → (n < v → redVal g (some (n, i)) a b k = some (v, k)) ∧ (v ≤ n → redVal g (some (n, i)) a b k = some (n, i))) ∧
    (redOp g = 4 → redVal g (some (m, i)) a b k = some (if condHolds (bits g.tw 6 3) v (rdLane g.isign b) then min 65535 (m + 1) else m, 0)) := by
  intro v
  refine ⟨fun h => ⟨?_, ?_⟩, fun h => ?_, fun h => ?_, fun h => ⟨fun hlt => ?_, fun hle => ?_⟩, fun h => ?_⟩
  · rw [redVal, h]
    rfl
  · rw [redVal, h]
    exact congrArg (fun y => some (satS 40 y, 0)) (Int.zero_add v)
  · rw [redVal, h]
    rfl
  · rw [redVal, h]
    rfl
  · rw [redVal, h]
    exact if_pos hlt
  · rw [redVal, h]
    exact if_neg (Int.not_lt.2 hle)
  · rw [redVal, h]
    rfl

theorem cellLibrary : CellLibrary :=
  ⟨cellRounding, arithLane_ops, fun g a b c i hi => ⟨(arithWord_lane g a b c i hi).1, (arithWord_lane g a b c i hi).2,
    fun acc => macStep_lane g acc a b i hi⟩, lookup_entries, fun x g rows i p cx h => ⟨winResult_min x g rows i p cx h,
    winResult_max x g rows i p cx h, winResult_tap x g rows i p cx⟩, rowSample_edge, redVal_ops⟩

end Sys2Proof.Machine
end

section
/-! PROOFS. Firings of cells and ports, and host access to engines (R246 to R291). -/

open Sys2Proof Sys2Proof.Stated

namespace Sys2Proof.Machine

/-! ### Which command fires a cell -/

theorem cellsFire : CellsFire := by
  refine ⟨?_, fun e c s hrun hready => congrArg Host.Outcome.next (if_pos ⟨hrun, hready⟩)⟩
  intro e c busy s hrun hserved hready u
  have hfires (err : LsErr) : exec (.cellFire e c err busy) s = .next
      (if (u.storeError e c err).1 then (u.storeError e c err).2.afterFiring e
        else (if c.val < 44 then (u.storeError e c err).2.fireCell e c else (u.storeError e c err).2.firePort e c).afterFiring e) := by
    have hshut : ¬ (s.dev = Dev.thermalLatch ∧ 44 ≤ c.val ∧ ¬ s.on R.IEA_ENG_PORT_DIR e (c.val - 44)) := by
      rintro ⟨hlatch, hport, -⟩
      obtain hd | hc := hserved
      · exact hd hlatch
      · omega
    refine (if_neg hshut).trans ((if_pos hrun).trans ((if_pos hready).trans ?_))
    dsimp only
    split <;> rfl
  refine ⟨fun hc => ?_, fun hc => ?_, fun hc => ?_, ?_, ?_⟩
  · rw [hfires]
    exact congrArg (fun t : State => Host.Outcome.next (t.afterFiring e)) (if_pos hc)
  · rw [hfires]
    exact congrArg (fun t : State => Host.Outcome.next (t.afterFiring e)) (if_neg (Nat.not_lt.2 hc))
  · rw [hfires]
    exact congrArg (fun t : State => Host.Outcome.next (t.afterFiring e)) (if_pos hc)
  · rw [hfires]
    rfl
  · rw [hfires]
    rfl

/-! ### Cells and their places -/

@[simp] theorem Engine.setCell_cell (x : Engine) (c : Nat) (k : Cell) : (x.setCell c k).cell c = k := SMap.get_put_self _ _ _ _

theorem Engine.setCell_cell_ne (x : Engine) {c d : Nat} (k : Cell) (h : d ≠ c) : (x.setCell c k).cell d = x.cell d := SMap.get_put_ne _ _ _ _ h

@[simp] theorem Engine.setCell_cfgOf (x : Engine) (c d : Nat) (k : Cell) : (x.setCell c k).cfgOf d = x.cfgOf d := rfl

/-- An input that takes its word changes its source cell alone. -/
theorem Engine.take_cell (x : Engine) (c d : Nat) (p : Nat × Nat) (h : d ≠ p.2) : (x.take c p).cell d = x.cell d := by
  unfold Engine.take
  dsimp only
  split
  · exact Engine.setCell_cell_ne _ _ h
  · exact Engine.setCell_cell_ne _ _ h

/-- A cell of one input that takes its operands keeps its own place. -/
theorem Engine.takeAll_cell (x : Engine) {c src i : Nat} (hin : (x.cfgOf c).cellInputs c = [(i, src)]) (h : c ≠ src) :
    (x.takeAll c).cell c = x.cell c := by
  rw [Engine.takeAll, hin]
  exact Engine.take_cell x c c (i, src) h

/-- A cell whose place is empty reads no word of its own. -/
theorem Engine.peek_source_ne {x : Engine} {c i src : Nat} {w : FWord} (hout : (x.cell c).out = none) (hpeek : x.peek c (i, src) = some w) :
    c ≠ src := by
  rintro rfl
  rw [Engine.peek, hout] at hpeek
  exact absurd hpeek (by simp)

/-! ### A cell of one input -/

/-- An idle cell of one input that holds a data word computes on it. -/
theorem Engine.fire_single {x : Engine} {c src : Nat} {w : FWord} (kx free : Nat) (hused : (x.cfgOf c).used = true)
    (hout : (x.cell c).out = none) (hpend : (x.cell c).pend = []) (hskip : (x.cell c).skipping = false)
    (hin : (x.cfgOf c).cellInputs c = [(0, src)]) (hpeek : x.peek c (0, src) = some w) (hmarker : w.marker = false) :
    x.fire c kx free = x.fireHeld c (x.cfgOf c) kx free w [(0, w)] := by
  unfold Engine.fire
  dsimp only
  rw [if_neg (by simp [hused, hout]), hpend, hskip, hin]
  have hvoid : (w.mark && w.void && !w.mark) = false := by cases w.mark <;> simp
  simp [hpeek, hmarker, hvoid]

theorem Engine.fireHeld_done {x y : Engine} {c kx free n : Nat} {g : CellCfg} {lead : FWord} {ws : List (Nat × FWord)}
    (h : x.fireTaken c g kx free lead ws = .done y n) (hhold : (y.cell c).hold = false) :
    x.fireHeld c g kx free lead ws = .done (y.takeAll c) n := by
  rw [Engine.fireHeld, h]
  simp only [hhold, Bool.false_eq_true, if_false]

/-- What such a firing leaves in the cell, once its computation is known. -/
theorem Engine.fire_single_leaves {x : Engine} {c src : Nat} {w : FWord} (kx free n : Nat) {k : Cell} (hused : (x.cfgOf c).used = true)
    (hout : (x.cell c).out = none) (hpend : (x.cell c).pend = []) (hskip : (x.cell c).skipping = false)
    (hin : (x.cfgOf c).cellInputs c = [(0, src)]) (hpeek : x.peek c (0, src) = some w) (hmarker : w.marker = false)
    (htaken : x.fireTaken c (x.cfgOf c) kx free w [(0, w)] = .done (x.setCell c k) n) (hhold : k.hold = false) :
    ∃ y, x.fire c kx free = .done y n ∧ y.cell c = k := by
  refine ⟨(x.setCell c k).takeAll c, ?_, ?_⟩
  · rw [Engine.fire_single kx free hused hout hpend hskip hin hpeek hmarker]
    exact Engine.fireHeld_done htaken (by rw [Engine.setCell_cell, hhold])
  · rw [Engine.takeAll_cell (x.setCell c k) (i := 0) hin (Engine.peek_source_ne hout hpeek), Engine.setCell_cell]

theorem cellKind_arith {c : Nat} (h : c < 24) : cellKind c = .arith := if_pos h

theorem cellKind_lookup {c : Nat} (h : 24 ≤ c) (h32 : c < 32) : cellKind c = .lookup := (if_neg (Nat.not_lt.2 h)).trans (if_pos h32)

/-- An arithmetic or lookup cell passes a header on. -/
theorem Engine.fireTaken_header {x : Engine} {c : Nat} {g : CellCfg} {w : FWord} (kx free : Nat) (hc : c < 32) (hen : g.enabled w.phase = true)
    (hitem : (x.cell c).inItem = false) : ∃ k, x.fireTaken c g kx free w [(0, w)] = .done (x.setCell c k) 0 ∧
      k.hold = (x.cell c).hold ∧ k.out = some w ∧ k.inItem = !w.fin := by
  refine ⟨Cell.put { x.cell c with inItem := !w.fin, hdr := w.data, pos := 0, marks := (x.cell c).marks + b2n w.mark, acc := [], run := 0 } [w], ?_, rfl, rfl, rfl⟩
  rw [Engine.fireTaken]
  refine (if_neg (not_not_intro hen)).trans ((if_neg (by rw [hitem]; exact Bool.false_ne_true)).trans ?_)
  rw [Engine.fireHeader]
  obtain h24 | h24 := Nat.lt_or_ge c 24
  · rw [cellKind_arith h24]
  · rw [cellKind_lookup h24 hc]

theorem Engine.fireArith_mac (x : Engine) (c : Nat) (g : CellCfg) (w : FWord) (b d : Nat) (hmac : bits g.tw 0 4 = 6) :
    ∃ k, x.fireArith c g w b d = .done (x.setCell c k) 0 ∧ k.hold = (x.cell c).hold ∧
      ((w.fin = true ∨ (x.cell c).run = bits g.tw 16 16) →
        k.out = some { w with data := macWord g (macStep g (x.cell c).acc w.data b) } ∧ k.acc = [] ∧ k.run = 0) ∧
      (¬ (w.fin = true ∨ (x.cell c).run = bits g.tw 16 16) →
        k.out = (x.cell c).out ∧ k.acc = macStep g (x.cell c).acc w.data b ∧ k.run = (x.cell c).run + 1) := by
  rw [Engine.fireArith]
  dsimp only
  rw [if_pos hmac]
  split
  next hends => exact ⟨_, rfl, rfl, fun _ => ⟨rfl, rfl, rfl⟩, fun hgo => absurd hends hgo⟩
  next hgo => exact ⟨_, rfl, rfl, fun hends => absurd hends hgo, fun _ => ⟨rfl, rfl, rfl⟩⟩

theorem Engine.fireTaken_arith {x : Engine} {c src : Nat} {g : CellCfg} {w : FWord} (kx free : Nat) (hc : c < 24)
    (hin : g.cellInputs c = [(0, src)]) (hen : g.enabled w.phase = true) (hitem : (x.cell c).inItem = true) :
    ∃ k, x.fireTaken c g kx free w [(0, w)] = .done (x.setCell c k) 0 ∧ k.hold = (x.cell c).hold ∧ (bits g.tw 0 4 ≠ 6 →
      k.out = some { w with data := arithWord g w.data (x.operand g [(0, w)] 1 w.phase) (x.operand g [(0, w)] 2 w.phase) }) := by
  have hfire : x.fireTaken c g kx free w [(0, w)] =
      x.fireArith c g w (x.operand g [(0, w)] 1 w.phase) (x.operand g [(0, w)] 2 w.phase) := by
    rw [Engine.fireTaken]
    refine (if_neg (not_not_intro hen)).trans ((if_pos hitem).trans ?_)
    rw [cellKind_arith hc, hin]
    rfl
  rw [hfire]
  by_cases hmac : bits g.tw 0 4 = 6
  · obtain ⟨k, hdone, hhold, -⟩ := Engine.fireArith_mac x c g w (x.operand g [(0, w)] 1 w.phase) (x.operand g [(0, w)] 2 w.phase) hmac
    exact ⟨k, hdone, hhold, fun hop => absurd hmac hop⟩
  · exact ⟨_, if_neg hmac, rfl, fun _ => rfl⟩

theorem Engine.fireTaken_lookup {x : Engine} {c src : Nat} {g : CellCfg} {w : FWord} (kx free : Nat) (h24 : 24 ≤ c) (hc : c < 32)
    (hin : g.cellInputs c = [(0, src)]) (hen : g.enabled w.phase = true) (hitem : (x.cell c).inItem = true) :
    ∃ k, x.fireTaken c g kx free w [(0, w)] = .done (x.setCell c k) 0 ∧ k.hold = (x.cell c).hold ∧
      k.out = some { w with data := lookupWord x g w.data } := by
  refine ⟨Cell.put { x.cell c with inItem := !w.fin, marks := (x.cell c).marks + b2n w.mark } [{ w with data := lookupWord x g w.data }], ?_, rfl, rfl⟩
  rw [Engine.fireTaken]
  refine (if_neg (not_not_intro hen)).trans ((if_pos hitem).trans ?_)
  rw [cellKind_lookup h24 hc, hin]
  rfl

theorem singleInputFiring (x : Engine) (c src kx free : Nat) (w : FWord) (hc : c < 32) (hused : (x.cfgOf c).used = true)
    (hout : (x.cell c).out = none) (hpend : (x.cell c).pend = []) (hskip : (x.cell c).skipping = false)
    (hin : (x.cfgOf c).cellInputs c = [(0, src)]) (hpeek : x.peek c (0, src) = some w) (hmarker : w.marker = false)
    (hen : (x.cfgOf c).enabled w.phase = true) (hhold : (x.cell c).hold = false) :
    let g := x.cfgOf c
    ∃ y n, x.fire c kx free = .done y n ∧
      ((x.cell c).inItem = false → (y.cell c).out = some w ∧ (y.cell c).inItem = !w.fin) ∧
      ((x.cell c).inItem = true → c < 24 → bits g.tw 0 4 ≠ 6 →
        (y.cell c).out = some { w with data := arithWord g w.data (x.operand g [(0, w)] 1 w.phase) (x.operand g [(0, w)] 2 w.phase) }) ∧
      ((x.cell c).inItem = true → 24 ≤ c → (y.cell c).out = some { w with data := lookupWord x g w.data }) := by
  intro g
  have hleaves {k : Cell} (htaken : x.fireTaken c g kx free w [(0, w)] = .done (x.setCell c k) 0) (hk : k.hold = (x.cell c).hold) :
      ∃ y, x.fire c kx free = .done y 0 ∧ y.cell c = k :=
    Engine.fire_single_leaves kx free 0 hused hout hpend hskip hin hpeek hmarker htaken (hk.trans hhold)
  cases hitem : (x.cell c).inItem with
  | false =>
    obtain ⟨k, htaken, hk, hkout, hkitem⟩ := Engine.fireTaken_header kx free hc hen hitem
    obtain ⟨y, hfire, rfl⟩ := hleaves htaken hk
    exact ⟨y, 0, hfire, fun _ => ⟨hkout, hkitem⟩, fun h => absurd h (by decide), fun h => absurd h (by decide)⟩
  | true =>
    obtain h24 | h24 := Nat.lt_or_ge c 24
    · obtain ⟨k, htaken, hk, hkout⟩ := Engine.fireTaken_arith kx free h24 hin hen hitem
      obtain ⟨y, hfire, rfl⟩ := hleaves htaken hk
      exact ⟨y, 0, hfire, fun h => absurd h (by decide), fun _ _ => hkout, fun _ h => absurd h24 (Nat.not_lt.2 h)⟩
    · obtain ⟨k, htaken, hk, hkout⟩ := Engine.fireTaken_lookup kx free h24 hc hin hen hitem
      obtain ⟨y, hfire, rfl⟩ := hleaves htaken hk
      exact ⟨y, 0, hfire, fun h => absurd h (by decide), fun _ h => absurd h (Nat.not_lt.2 h24), fun _ _ => hkout⟩

/-! ### Marks that disagree, counted firings and input ports -/

/-- A band mark on one operand only faults (R272). -/
theorem markOnOneOperandFaults (x : Engine) (c a b kx free : Nat) (v w : FWord) (hused : (x.cfgOf c).used = true) (hout : (x.cell c).out = none)
    (hpend : (x.cell c).pend = []) (hskip : (x.cell c).skipping = false) (hin : (x.cfgOf c).cellInputs c = [(0, a), (1, b)])
    (hv : x.peek c (0, a) = some v) (hw : x.peek c (1, b) = some w) (hvm : v.marker = false) (hwm : w.marker = false)
    (hvv : v.void = false) (hwv : w.void = false) (hmarks : v.mark ≠ w.mark) : x.fire c kx free = .fault 3 := by
  unfold Engine.fire
  dsimp only
  rw [if_neg (by simp [hused, hout]), hpend, hskip, hin]
  cases hvmark : v.mark <;> cases hwmark : w.mark <;> simp_all

theorem countFiring_cell (s : State) (e c d : Nat) : ((s.countFiring e c).engine e).cell d = (s.engine e).cell d := by
  have hfired (fs : List Nat) : ((s.setEngine e { s.engine e with fired := fs }).engine e).cell d = (s.engine e).cell d := by
    rw [State.setEngine_engine]
    rfl
  unfold State.countFiring
  dsimp only
  split
  · exact hfired [c]
  · exact hfired _

theorem inputPortPasses (s : State) (e i : Nat) : (s.on R.IEA_ENG_PORT_USED e i = false → s.firePort e (44 + i) = s) ∧
    (∀ w ws, s.on R.IEA_ENG_PORT_USED e i = true → s.on R.IEA_ENG_PORT_DIR e i = false →
      ((s.engine e).cell (44 + i)).out = none → ((s.engine e).cell (44 + i)).pend = w :: ws →
      let t := s.firePort e (44 + i)
      ((t.engine e).cell (44 + i)).out = some w ∧ ((t.engine e).cell (44 + i)).pend = ws) := by
  have hport : 44 + i - 44 = i := by omega
  refine ⟨fun hused => ?_, fun w ws hused hdir hout hpend => ?_⟩
  · unfold State.firePort
    dsimp only
    rw [hport, hused]
    rfl
  · have hinput : s.fireInput e i = s.modCell e (44 + i) fun k => { k with out := some w, taken := [], pend := ws } := by
      unfold State.fireInput
      dsimp only
      rw [hout, hpend]
      rfl
    have hcell : ((s.fireInput e i).engine e).cell (44 + i) =
        { (s.engine e).cell (44 + i) with out := some w, taken := [], pend := ws } := by
      rw [hinput, State.modCell, State.setEngine_engine, Engine.setCell_cell]
    have hfired : ((s.firePort e (44 + i)).engine e).cell (44 + i) = ((s.fireInput e i).engine e).cell (44 + i) := by
      rw [State.firePort, hport, if_neg (not_not_intro hused), hdir]
      dsimp only
      rw [if_neg Bool.false_ne_true]
      split
      · rfl
      · exact countFiring_cell _ _ _ _
    dsimp only
    rw [hfired, hcell]
    exact ⟨rfl, rfl⟩

theorem cellFirings : CellFirings := by
  refine ⟨?_, singleInputFiring, ?_, markOnOneOperandFaults, inputPortPasses⟩
  · intro s e c x
    refine ⟨fun kind hfault => ?_, fun y n hdone hmarker => ?_⟩
    · rw [State.fireCell]
      dsimp only
      rw [hfault]
    · rw [State.fireCell]
      dsimp only
      rw [hdone]
      dsimp only
      rw [hmarker]
      rfl
  · intro x c g w b d hmac hout acc
    obtain ⟨k, hdone, -, hends, hgoes⟩ := Engine.fireArith_mac x c g w b d hmac
    refine ⟨x.setCell c k, hdone, ?_⟩
    rw [Engine.setCell_cell, ← hout]
    exact ⟨hends, hgoes⟩

/-! ### The host and a running engine -/

/-- A word written to local store stands there and moves no other. -/
theorem Engine.lsWord_write (x : Engine) (a v : Nat) (b : Nat) :
    Engine.lsWord { x with ls := SMap.put x.ls 0 a v, soft := a :: x.soft } b = if b = a then v else x.lsWord b := by
  by_cases hb : b = a
  · subst hb
    rw [if_pos rfl, Engine.lsWord]
    refine (if_pos (Or.inr ?_)).trans (SMap.get_put_self _ _ _ _)
    exact List.contains_iff_mem.2 List.mem_cons_self
  · rw [if_neg hb, Engine.lsWord, Engine.lsWord]
    have hkept : SMap.get (SMap.put x.ls 0 a v) 0 b = SMap.get x.ls 0 b := SMap.get_put_ne _ _ _ _ hb
    have hsoft : (a :: x.soft).contains b = x.soft.contains b := by
      rw [List.contains_cons, beq_false_of_ne hb, Bool.false_or]
    dsimp only
    rw [hkept, hsoft]
    rfl

theorem engineHostAccess : EngineHostAccess := by
  refine ⟨fun w e s hr => ⟨fun hwaits => ?_, fun hwaits => ?_⟩, ?_, ?_⟩
  · obtain ⟨hrun, hhost⟩ := hwaits
    change execSeqContinue w e s = _
    simp only [execSeqContinue, hrun, hhost, decide_true, Bool.and_true, Bool.not_true, refuseIf_false]
    exact congrArg Host.Outcome.next (State.hostWrite_taken hr _)
  · have hno : (decide (s.engState e = Eng.running) && decide ((s.engine e).wait = .host)) = false := by
      rw [← Bool.decide_and]
      exact decide_eq_false hwaits
    change execSeqContinue w e s = _
    simp only [execSeqContinue, hno, Bool.not_false, refuseIf_true]
    exact congrArg Host.Outcome.next (State.hostWrite_refused hr _ _)
  · intro w e v err s hr a
    refine ⟨fun hidle => ?_, fun hbusy => ?_⟩
    · have hno : [Eng.running, Eng.reloading, Eng.faulted].contains (s.engState e) = false :=
        Bool.eq_false_iff.2 fun h => hidle (List.contains_iff_mem.1 h)
      have hwritten (b : Nat) : (((s.modEngine e fun y => { y with ls := SMap.put y.ls 0 a v.toNat, soft := a :: y.soft }).set
          R.IEA_ENG_LS_ADDR_ADDR (a + 1) e).engine e).lsWord b = if b = a then v.toNat else (s.engine e).lsWord b := by
        rw [State.set_engine, State.modEngine, State.setEngine_engine, Engine.lsWord_write]
      refine ⟨_, ?_, (hwritten a).trans (if_pos rfl), fun b hb => (hwritten b).trans (if_neg hb), State.get_set_self ..⟩
      change execLocalStoreAccess w e ⟨some v, err⟩ s = _
      simp only [execLocalStoreAccess, hno, refuseIf_false]
      exact congrArg Host.Outcome.next (State.hostWrite_taken hr _)
    · change execLocalStoreAccess w e ⟨some v, err⟩ s = _
      simp only [execLocalStoreAccess, List.contains_iff_mem.2 hbusy, refuseIf_true]
      exact congrArg Host.Outcome.next (State.hostWrite_refused hr _ _)
  · intro w e s hheld hw a shown u
    have hread (err : LsErr) := congrArg (fun t => (.next t : Out)) (State.hostRead_shown hheld hw 4
      (if err = .uncorrectable then Config.freeStore s.fresh % 2 ^ 32 else (s.engine e).lsWord a) fun t => t.lsRead e (a + 1) err)
    exact ⟨hread .none, hread .corrected, hread .uncorrectable⟩

/-- Settles O26: firings unfold case by case, and rounding, range and table lookup are integer arithmetic. -/
theorem engines : Obligations.Engines := ⟨cellsFire, cellLibrary, cellFirings, engineHostAccess⟩

end Sys2Proof.Machine
end

section
/-! PROOFS. The scan store: storing lines, restarts, pacing, shedding and overrun (R183 to R205, R577). -/

open Sys2Proof Sys2Proof.Stated

namespace Sys2Proof.Machine

/-! ### Storing lines -/

section
variable {s : State} {n w flags : Nat} {samples : List Nat} {es : List (Nat × HbmErr)}

/-- A line past F is dropped (R196). -/
theorem State.storeLine_past {f : Nat} (hf : (s.station n).fLine = some f) (hpast : f < w) : s.storeLine n w flags samples es = s := by
  rw [State.storeLine, hf]
  exact if_pos (decide_eq_true hpast)

/-- A line up to F is stored as an overlap line or by its place to WP and R. -/
theorem State.storeLine_upTo (h : ∀ f, (s.station n).fLine = some f → w ≤ f) : s.storeLine n w flags samples es =
    let r := s.get R.SST_ST_REW_R n
    if s.overlapOpen n then
      if w < r then (if s.expectedLine n = w then s.overlapLine n w flags samples es else s) else s
    else if w < s.wp n then s
    else if (s.sto n).restart ∧ r ≤ w then
      if (s.sto n).mTriggered then
        let c := s.closeRestart n
        let gap := w - c.2.wp n
        if gap = 0 then c.2.putLine n (flags ||| c.1) samples
        else (c.2.fillGap n c.1 gap).putLine n flags samples
      else s
    else if w = s.wp n then s.putLine n flags samples
    else s := by
  rw [State.storeLine]
  cases hf : (s.station n).fLine with
  | none => rfl
  | some f => exact if_neg (by simp [h f hf])

end

theorem storeLine_places (n w flags : Nat) (samples : List Nat) (es : List (Nat × HbmErr)) (s : State) : let r := s.get R.SST_ST_REW_R n
    (∀ f, (s.station n).fLine = some f → f < w → s.storeLine n w flags samples es = s) ∧
    ((∀ f, (s.station n).fLine = some f → w ≤ f) →
      (s.overlapOpen n = true → w < r → s.expectedLine n = w → s.storeLine n w flags samples es = s.overlapLine n w flags samples es) ∧
      (s.overlapOpen n = false → w < s.wp n → s.storeLine n w flags samples es = s) ∧
      (s.overlapOpen n = false → (s.sto n).restart = false → w = s.wp n →
        s.storeLine n w flags samples es = s.putLine n flags samples) ∧
      (s.overlapOpen n = false → s.wp n ≤ w → (s.sto n).restart = true → r ≤ w → (s.sto n).mTriggered = true →
        let c := s.closeRestart n
        s.storeLine n w flags samples es = if w ≤ c.2.wp n then c.2.putLine n (flags ||| c.1) samples
          else (c.2.fillGap n c.1 (w - c.2.wp n)).putLine n flags samples)) := by
  intro r
  refine ⟨fun f hf hpast => State.storeLine_past hf hpast, fun hupTo => ?_⟩
  rw [State.storeLine_upTo hupTo]
  dsimp only
  refine ⟨fun hopen hw hexp => ?_, fun hopen hw => ?_, fun hopen hrestart hw => ?_, fun hopen hw hrestart hr hm => ?_⟩
  · rw [if_pos hopen, if_pos hw, if_pos hexp]
  · rw [if_neg (Bool.eq_false_iff.1 hopen), if_pos hw]
  · rw [if_neg (Bool.eq_false_iff.1 hopen), if_neg (Nat.not_lt.2 (Nat.le_of_eq hw.symm)), if_neg (by simp [hrestart]), if_pos hw]
  · rw [if_neg (Bool.eq_false_iff.1 hopen), if_neg (Nat.not_lt.2 hw), if_pos ⟨hrestart, hr⟩, if_pos hm]
    simp only [Nat.sub_eq_zero_iff_le]

theorem storeLines : StoreLines := by
  refine ⟨fun n t seam s u hbusy => ⟨fun hready w flags samples htake => ?_, fun hready htake => ?_, fun hrefresh => ?_⟩, storeLine_places,
    fun q e m n s hfind hwriter hbusy hready hserves hstate => ?_, fun w v s hr => ⟨fun hidle hlegal => ?_, fun hbusy => ?_, fun hidle hbig => ?_⟩⟩
  · refine (if_pos ⟨hbusy, hready⟩).trans ?_
    rw [htake]
  · refine (if_pos ⟨hbusy, hready⟩).trans ?_
    rw [htake]
  · exact if_neg (by simp [hrefresh])
  · change execStoreReadQueueAdvance q e s = _
    rw [execStoreReadQueueAdvance, hfind]
    dsimp only
    rw [hwriter]
    exact if_pos ⟨hbusy, hready, hserves, hstate⟩
  · have hok : pickStatus [refuseIf (decide (s.dev ≠ Dev.idle)) .state, refuseIf (decide (32 < R.SST_CFG_STORE.of v.toNat)) .range] = none := by
      simp [hidle, Nat.not_lt.2 hlegal, refuseIf, pickStatus]
    change execSstStoreSplitWrite w v s = _
    rw [execSstStoreSplitWrite, hok]
    exact congrArg Host.Outcome.next (State.rowWrite_taken hr _ _)
  · change execSstStoreSplitWrite w v s = _
    rw [execSstStoreSplitWrite, decide_eq_true hbusy, refuseIf_true, pickStatus_first (by decide)]
    exact congrArg Host.Outcome.next (State.rowWrite_refused hr _ _ _)
  · have hrange : pickStatus [refuseIf (decide (s.dev ≠ Dev.idle)) .state, refuseIf (decide (32 < R.SST_CFG_STORE.of v.toNat)) .range] =
        some .range := by
      simp [hidle, hbig, refuseIf, pickStatus]
    change execSstStoreSplitWrite w v s = _
    rw [execSstStoreSplitWrite, hrange]
    exact congrArg Host.Outcome.next (State.rowWrite_refused hr _ _ _)

/-! ### Restarts -/

theorem State.stepFour_otherPhase {s : State} {n : Nat} (t : Int) (h : s.get R.SST_ST_REW_STATUS_PHASE n ≠ 2) : s.stepFour n t = s := by
  exact if_neg fun hstep => h hstep.2.2.2.1

/-- The position of a station does not hang on the store. -/
theorem State.setSto_atOrPast (s : State) (n : Nat) (x : Store) (t : Int) :
    (s.setSto n x).atOrPast n ((s.setSto n x).posOf n t) ((s.setSto n x).scanEntryPos n) = s.atOrPast n (s.posOf n t) (s.scanEntryPos n) := rfl

/-- What the watch of step 6 does in a forward run. -/
theorem State.watchEntry_running {s : State} {n : Nat} (t : Int) (hst : s.stState n = St.rewinding)
    (hphase : s.get R.SST_ST_REW_STATUS_PHASE n = 4) : s.watchEntry n (s.posOf n t) =
      if s.atOrPast n (s.posOf n t) (s.scanEntryPos n) = false then s.setSto n { s.sto n with entryBelow := true } else s := by
  rw [State.watchEntry]
  simp only [hst, hphase, true_and]

theorem rewindScanEntry_steps (n : Fin 8) (t : Int) (s : State) (hsheet : s.isSheet n = true) (hst : s.stState n = St.rewinding)
    (hphase : s.get R.SST_ST_REW_STATUS_PHASE n = 4) (hgo : (s.sto n).stopped = false) :
    let below := s.setSto n { s.sto n with entryBelow := true }
    (s.atOrPast n (s.posOf n t) (s.scanEntryPos n) = true →
      ((s.paced n = true ∨ (s.sto n).entryBelow = true) → exec (.rewindScanEntry n t) s = .next ((s.enterScan n t).syncHeld n)) ∧
      (s.paced n = false → (s.sto n).entryBelow = false → exec (.rewindScanEntry n t) s = .next s)) ∧
    (s.atOrPast n (s.posOf n t) (s.scanEntryPos n) = false →
      (s.paced n = true → s.atScan (s.paceAxis n) = true →
        exec (.rewindScanEntry n t) s = .next ((below.enterScan n t).syncHeld n)) ∧
      (s.paced n = false → exec (.rewindScanEntry n t) s = .next below)) := by
  intro below
  have hwatch := State.watchEntry_running t hst hphase
  have hbelow : below.sto n = { s.sto n with entryBelow := true } := State.setSto_sto ..
  refine ⟨fun hthere => ?_, fun hthere => ?_⟩
  · rw [hthere, if_neg (by decide)] at hwatch
    refine ⟨fun hdue => ?_, fun hpaced hfresh => ?_⟩
    · change execRewindScanEntry n t s = _
      simp only [execRewindScanEntry, hwatch]
      refine if_pos ⟨hsheet, hst, hphase, hgo, ?_⟩
      simp only [hthere, Bool.true_or, Bool.true_and]
      split
      · rfl
      next hunpaced => exact hdue.resolve_left hunpaced
    · change execRewindScanEntry n t s = _
      simp only [execRewindScanEntry, hwatch, hpaced, hfresh]
      exact if_neg (by simp)
  · rw [hthere, if_pos rfl] at hwatch
    have hrun : exec (.rewindScanEntry n t) s =
        if s.isSheet n = true ∧ s.stState n = St.rewinding ∧ s.get R.SST_ST_REW_STATUS_PHASE n = 4 ∧ (below.sto n).stopped = false ∧
          (if s.paced n then s.atOrPast n (s.posOf n t) (s.scanEntryPos n) || s.atScan (s.paceAxis n)
            else s.atOrPast n (s.posOf n t) (s.scanEntryPos n) && (below.sto n).entryBelow) = true then
          .next ((below.enterScan n t).syncHeld n) else .next below := by
      change execRewindScanEntry n t s = _
      simp only [execRewindScanEntry, hwatch]
      rfl
    refine ⟨fun hpaced hscan => ?_, fun hpaced => ?_⟩
    · rw [hrun]
      exact if_pos ⟨hsheet, hst, hphase, by rw [hbelow]; exact hgo, by simp [hpaced, hscan]⟩
    · rw [hrun]
      exact if_neg (by simp [hpaced, hthere])

theorem restartSteps : RestartSteps := by
  refine ⟨fun n t s hdue hpaced hstill => if_pos ⟨hdue, hpaced, hstill⟩, fun n t s hdue hpaced hquiet => ?_, ?_, ?_, rewindScanEntry_steps,
    fun n s hrestart hwhen => if_pos ⟨hrestart, hwhen⟩⟩
  · change execEncoderQuietTimeout n t s = _
    simp only [execEncoderQuietTimeout, hdue, hpaced, hquiet, decide_true, Bool.not_false, Bool.and_true, if_true, State.enterBackUp]
  · intro n t s hsheet hpaced hst hphase back
    have hunpaced : ¬ s.paced n = true := Bool.eq_false_iff.1 hpaced
    exact ⟨fun hback => if_pos ⟨hsheet, hunpaced, hst, hphase, hback⟩, fun hpast => if_neg fun hstep => absurd hpast (Int.not_lt.2 hstep.2.2.2.2)⟩
  · intro n t s hsheet hst hphase hbacklog hcap hhold
    have hstep : s.stepFour n t = s := State.stepFour_otherPhase t (by rw [hphase]; decide)
    change execRewindForwardRun ⟨n, t⟩ s = _
    simp only [execRewindForwardRun, hstep]
    exact if_pos ⟨hsheet, hst, hphase, hbacklog, hcap, hhold⟩

/-! ### Pacing, shedding and overrun -/

theorem scaleOf_cases (n : Nat) (s : State) : let b := s.get R.SST_ST_BACKLOG_B n
    let lo := s.get R.SST_ST_THR_LO_LINES n
    let stop := s.get R.SST_ST_THR_STOP_LINES n
    let cap := 64 * s.get R.SST_ST_SCALE_CAP n
    (s.isSheet n = true → s.on R.SST_ST_PACE_EN n = true →
      (b ≤ lo → s.scaleOf n = min 1024 cap) ∧
      (lo < b → b < stop → s.scaleOf n = min (max (s.get R.SST_ST_PACE_SMIN n) (1024 * (stop - b) / (stop - lo))) cap)) ∧
    ((s.isSheet n = false ∨ s.on R.SST_ST_PACE_EN n = false) → s.scaleOf n = 1024) := by
  intro b lo stop cap
  refine ⟨fun hsheet hen => ?_, fun hoff => if_neg ?_⟩
  · have hpaced : s.scaleOf n = min (paceScale b lo stop (s.get R.SST_ST_PACE_SMIN n)) cap := if_pos ⟨hsheet, hen⟩
    rw [hpaced]
    refine ⟨fun hlow => ?_, fun hhigh hstop => ?_⟩
    · rw [paceScale, if_pos hlow]
    · rw [paceScale, if_neg (Nat.not_le.2 hhigh), if_neg (Nat.not_le.2 hstop)]
  · obtain hsheet | hen := hoff
    · simp [hsheet]
    · simp [hen]

theorem shedTurn_first (n i : Nat) (s : State) (hi : i < 32) : let turn (k : Nat) : Nat := ((s.sto n).lastProduct + 1 + k) % 32
    (∀ k < i, s.shedBand n (turn k) = none) → (s.shedBand n (turn i)).isSome = true →
      s.shedTurn n = (((s.shed n (turn i)).setSto n { (s.shed n (turn i)).sto n with lastProduct := turn i }).syncStore n) := by
  intro turn hnone hsome
  have hsplit : List.range 32 = List.range i ++ i :: (List.range (32 - i - 1)).map (fun k => i + 1 + k) := by
    have h32 : 32 = i + (1 + (32 - i - 1)) := by omega
    conv => lhs; rw [h32, List.range_add, List.range_add]
    simp [List.range_succ, Function.comp_def, Nat.add_assoc]
  have hnext : s.nextShed n = some (turn i) := by
    rw [State.nextShed, hsplit, List.map_append, List.map_cons, List.find?_append, List.find?_eq_none.2, Option.none_or]
    · exact List.find?_cons_of_pos (p := fun q => (s.shedBand n q).isSome) hsome
    intro q hq
    obtain ⟨k, hk, rfl⟩ := List.mem_map.1 hq
    simp [show s.shedBand n (((s.sto n).lastProduct + 1 + k) % 32) = none from hnone k (List.mem_range.1 hk)]
  rw [State.shedTurn, hnext]

theorem overrun_moves (n l : Nat) (s : State) : let u := moved s n l
    ((∀ h, (u.sto n).reloadMark = some h → l < h) → s.overrun n l = u.syncStore n) ∧
    (∀ h, (u.sto n).reloadMark = some h → h ≤ l → s.overrun n l = (u.passReload n l h).syncStore n) := by
  intro u
  have hover : s.overrun n l = State.syncStore (match (u.sto n).reloadMark with
      | some h => if h ≤ l then u.passReload n l h else u
      | none => u) n := rfl
  refine ⟨fun hahead => ?_, fun h hmark hle => ?_⟩
  · rw [hover]
    cases hmark : (u.sto n).reloadMark with
    | none => rfl
    | some h => exact congrArg (State.syncStore · n) (if_neg (Nat.not_le.2 (hahead h hmark)))
  · rw [hover, hmark]
    exact congrArg (State.syncStore · n) (if_pos hle)

theorem pacingAndShedding : PacingAndShedding := by
  refine ⟨scaleOf_cases, ?_, ?_, ?_, shedTurn_first, overrun_moves⟩
  · intro n t s hsheet hgo haxis hit
    constructor
    · intro hhit
      exact if_pos ⟨hsheet, (Bool.decide_or _ _).symm.trans (decide_eq_true hhit), by simp [hgo], haxis⟩
    · intro hno
      exact if_neg fun h => hno (of_decide_eq_true ((Bool.decide_or _ _).trans h.2.1))
  · intro n t s hscan hopen r s1 s2 s3
    rw [State.stopStation]
    refine (if_pos hscan).trans ?_
    simp only [hopen]
    rfl
  · intro n q p s hband e gap
    refine ⟨fun hfresh => ?_, fun hbegun => ?_⟩
    · rw [State.shed, hband]
      dsimp only
      rw [hfresh]
      rfl
    · rw [State.shed, hband]
      dsimp only
      rw [hbegun]
      rfl

/-- Settles O22: each command of the store branches as R183 to R205 say; the watch of step 6 writes the store alone. -/
theorem storeAndRestart : Obligations.StoreAndRestart := ⟨storeLines, restartSteps, pacingAndShedding⟩

end Sys2Proof.Machine
end

section
/-! PROOFS. The thermal latch stands (R524): which register fields lie away from the device state, and what keeps a latched device latched. -/

open Sys2Proof Sys2Proof.Stated

namespace Sys2Proof.Machine

/-! ### Fields away from the device state -/

/-- No element of the field has the key of SMC_DEV_STATE.STATE, whatever its indices. -/
def Fld.aside (f : Fld) : Bool :=
  decide (0x5000 < f.base) || decide (f.lo % 32 ≠ 0) || decide (f.lo = 0 ∧ ¬ Nat.gcd f.s1 f.s2 ∣ 0x5000 - f.base)

theorem Fld.key_ne_devState {f : Fld} (h : f.aside = true) (i j : Nat) : f.key i j ≠ R.SMC_DEV_STATE_STATE.key 0 0 := by
  change (f.base + f.s1 * i + f.s2 * j) * 32 + f.lo ≠ 0x5000 * 32
  intro hkey
  simp only [Fld.aside, Bool.or_eq_true, decide_eq_true_eq] at h
  obtain (habove | hlo) | ⟨hlo, hstride⟩ := h
  · omega
  · omega
  · have hsum : f.s1 * i + f.s2 * j = 0x5000 - f.base := by omega
    exact hstride (hsum ▸ Nat.dvd_add (Nat.dvd_mul_right_of_dvd (Nat.gcd_dvd_left ..) i) (Nat.dvd_mul_right_of_dvd (Nat.gcd_dvd_right ..) j))

/-- The maps of worlds whose elements, counted on far enough, would meet the device state. -/
def RegId.isWorldMap (id : RegId) : Bool := [RegId.SMC_WMAP_PORT, .SMC_WMAP_QR, .SMC_WMAP_ENG, .SMC_WMAP_OC].contains id

/-- A part that no write reaches, or that lies away from the device state. -/
def Part.aside (p : Part) : Bool := p.fld.acc = .ro || p.fld.acc = .wo || p.fld.aside

theorem parts_aside : ∀ r ∈ regTable, r.id.isWorldMap = false → ∀ p ∈ r.parts, p.aside = true := by decide +kernel

/-- The elements that a world map has end below the device state. -/
theorem worldMap_below : ∀ r ∈ regTable, r.id.isWorldMap = true → ∀ p ∈ r.parts,
    p.fld.base + p.fld.s1 * r.n1 < 0x5000 ∧ p.fld.s2 = 0 ∧ p.fld.lo = 0 := by decide +kernel

/-! ### A latched device -/

/-- The device is in THERMAL_LATCH. -/
def Latched (s : State) : Prop := s.dev = Dev.thermalLatch

/-- A change of anything but the registers. -/
theorem Latched.mk_ {z : State} (h : Latched z) (pending hold out fresh due hbm leaf mbox qmx store eng pace hlf ltu pcp ttc ilc scu seals
    stations smc kru hif mfe thm) :
    Latched { regs := z.regs, pending, hold, out, fresh, due, hbm, leaf, mbox, qmx, store, eng, pace, hlf, ltu, pcp, ttc, ilc, scu,
              seals, stations, smc, kru, hif, mfe, thm } := h

/-- The outcome is a next state that is latched. -/
def Out.Latched : Out → Prop
  | .next t => Machine.Latched t
  | .fault _ => False
  | .refused _ => False

@[simp] theorem Out.latched_next (t : State) : Out.Latched (.next t) ↔ Machine.Latched t := Iff.rfl

/-- Every state that the end of a mailbox command holds is latched. -/
@[irreducible] def CmdEnd.Latched : CmdEnd → Prop
  | .refused _ _ _ => True
  | .reported t _ _ _ => Machine.Latched t
  | .ok t _ => Machine.Latched t
  | .later t _ => Machine.Latched t

@[simp] theorem CmdEnd.latched_refused (c : Status) (addr detail : Nat) : CmdEnd.Latched (.refused c addr detail) := by simp [CmdEnd.Latched]

@[simp] theorem CmdEnd.latched_reported (t : State) (c : Status) (addr detail : Nat) :
    CmdEnd.Latched (.reported t c addr detail) ↔ Machine.Latched t := by simp [CmdEnd.Latched]

@[simp] theorem CmdEnd.latched_ok (t : State) (result : List Nat) : CmdEnd.Latched (.ok t result) ↔ Machine.Latched t := by
  simp [CmdEnd.Latched]

@[simp] theorem CmdEnd.latched_later (t : State) (run : Running) : CmdEnd.Latched (.later t run) ↔ Machine.Latched t := by
  simp [CmdEnd.Latched]

/-- The state of a step of a stream is latched. -/
def Work.Latched : Work → Prop
  | .chunk _ s => Machine.Latched s
  | .bandEnd s => Machine.Latched s
  | .rest s => Machine.Latched s

theorem State.set_latch_of_key {z : State} {f : Fld} (v : Nat) {i j : Nat} (hkey : f.key i j ≠ R.SMC_DEV_STATE_STATE.key 0 0)
    (h : Latched z) : Latched (State.set z f v i j) :=
  (State.get_set_ne z f R.SMC_DEV_STATE_STATE v i j 0 0 hkey.symm).trans h

theorem State.set_latch {z : State} (f : Fld) (v : Nat) (i j : Nat) (hf : f.aside = true) (h : Latched z) : Latched (State.set z f v i j) :=
  State.set_latch_of_key v (Fld.key_ne_devState hf i j) h

theorem State.setDev_latch {z : State} (h : Latched z) : State.setDev z Dev.thermalLatch = z := if_pos h

theorem State.syncDev_latch {z : State} (hk : Latched z) : Latched (State.syncDev z) := by
  unfold State.syncDev
  rw [if_neg (by rw [hk]; decide)]
  exact hk

/-- A write of a register writes none of its parts over the device state. -/
theorem State.writePart_latch {z : State} (w : World) (p : Part) (i j v : Nat)
    (hp : p.aside = true ∨ p.fld.key i j ≠ R.SMC_DEV_STATE_STATE.key 0 0) (hk : Latched z) : Latched (State.writePart z w p i j v) := by
  have hset (x : Nat) (hacc : p.fld.acc ≠ .ro ∧ p.fld.acc ≠ .wo) : Latched (z.set p.fld x i j) := by
    refine State.set_latch_of_key x ?_ hk
    obtain haside | hkey := hp
    · simp only [Part.aside, hacc.1, hacc.2, decide_false, Bool.false_or] at haside
      exact Fld.key_ne_devState haside i j
    · exact hkey
  unfold State.writePart
  dsimp only
  split
  case h_1 | h_2 => exact hk
  case h_3 hacc | h_4 hacc => exact hset _ (by simp [hacc])
  case h_5 hacc =>
    split
    · exact hset _ (by simp [hacc])
    · exact hk

theorem State.foldl_latch {z : State} {α : Type} (xs : List α) (g : State → α → State) (hk : Latched z)
    (hg : ∀ (b : State) (x : α), x ∈ xs → Latched b → Latched (g b x)) : Latched (xs.foldl g z) := by
  induction xs generalizing z with
  | nil => exact hk
  | cons x xs ih => exact ih (hg z x List.mem_cons_self hk) fun b y hy => hg b y (List.mem_cons_of_mem x hy)

/-- The key of an element of a register in the table is not that of the device state, unless the part takes no write. -/
theorem part_aside_or_key {r : Reg} {i j : Nat} (hr : r ∈ regTable) (hi : r.id.isWorldMap = true → i < r.n1) {p : Part} (hp : p ∈ r.parts) :
    p.aside = true ∨ p.fld.key i j ≠ R.SMC_DEV_STATE_STATE.key 0 0 := by
  cases hmap : r.id.isWorldMap with
  | false => exact .inl (parts_aside r hr hmap p hp)
  | true =>
    obtain ⟨hbelow, hs2, hlo⟩ := worldMap_below r hr hmap p hp
    have hstride : p.fld.s1 * i ≤ p.fld.s1 * r.n1 := Nat.mul_le_mul_left _ (Nat.le_of_lt (hi hmap))
    refine .inr fun hkey => ?_
    change (p.fld.base + p.fld.s1 * i + p.fld.s2 * j) * 32 + p.fld.lo = 0x5000 * 32 at hkey
    rw [hs2, hlo, Nat.zero_mul] at hkey
    omega

theorem RegId.desc_mem {id : RegId} {r : Reg} (h : id.desc? = some r) : r ∈ regTable ∧ r.id = id :=
  ⟨List.mem_of_find?_eq_some h, by simpa using List.find?_some h⟩

theorem State.writeParts_latch {z : State} (w : World) (r : Reg) (i j v : Nat) (hr : r ∈ regTable)
    (hi : r.id.isWorldMap = true → i < r.n1) (hk : Latched z) : Latched (State.writeParts z w r i j v) :=
  State.foldl_latch _ _ hk fun _ _ hp h => State.writePart_latch w _ i j v (part_aside_or_key hr hi (List.mem_filter.1 hp).1) h

theorem State.writeAll_latch {z : State} (w : World) (r : Reg) (i j v : Nat) (hr : r ∈ regTable)
    (hi : r.id.isWorldMap = true → i < r.n1) (hk : Latched z) : Latched (State.writeAll z w r i j v) :=
  State.foldl_latch _ _ hk fun _ _ hp h => State.writePart_latch w _ i j v (part_aside_or_key hr hi hp) h

end Sys2Proof.Machine
end

section
/-! PROOFS. Operations of queues, stores, engines, pace and leaves keep the thermal latch, one lemma an operation (R524). -/

open Sys2Proof Sys2Proof.Stated

-- One proof at a time keeps the memory of the compile small.
set_option Elab.async false

namespace Sys2Proof.Machine

theorem State.setS_latch {z : State} (f : Fld) (x : Int) (i : Nat) (j : Nat) (hf : f.aside = true) (hk : Latched z) :
    Latched (State.setS z f x i j) := State.set_latch _ _ _ _ hf hk

theorem State.setSat_latch {z : State} (f : Fld) (v : Nat) (i : Nat) (j : Nat) (hf : f.aside = true) (hk : Latched z) :
    Latched (State.setSat z f v i j) := State.set_latch _ _ _ _ hf hk

theorem State.add_latch {z : State} (f : Fld) (n : Nat) (i : Nat) (j : Nat) (hf : f.aside = true) (hk : Latched z) :
    Latched (State.add z f n i j) := State.set_latch _ _ _ _ hf hk

theorem State.addSat_latch {z : State} (f : Fld) (n : Nat) (i : Nat) (j : Nat) (hf : f.aside = true) (hk : Latched z) :
    Latched (State.addSat z f n i j) := State.set_latch _ _ _ _ hf hk

theorem State.sub_latch {z : State} (f : Fld) (n : Nat) (i : Nat) (j : Nat) (hf : f.aside = true) (hk : Latched z) :
    Latched (State.sub z f n i j) := State.set_latch _ _ _ _ hf hk

theorem State.when_latch {z : State} (c : Bool) (g : State → State) (hk : Latched z) (hg : ∀ (x0 : State), Latched x0 → Latched (g x0)) :
    Latched (State.when z c g) := by
  unfold State.when
  grind [Latched.mk_]

theorem State.each_latch_of_mem {z : State} {α : Type} (xs : List α) (g : State → α → State) (h : Latched z)
    (hg : ∀ (b : State) (x : α), x ∈ xs → Latched b → Latched (g b x)) : Latched (State.each z xs g) := State.foldl_latch xs g h hg

theorem State.each_latch {z : State} {α : Type} (xs : List α) (g : State → α → State) (h : Latched z)
    (hg : ∀ (b : State) (x : α), Latched b → Latched (g b x)) : Latched (State.each z xs g) :=
  State.each_latch_of_mem xs g h fun b x _ => hg b x

theorem State.emit_latch {z : State} (o : Output) (h : Latched z) : Latched (State.emit z o) := by
  unfold State.emit
  grind [Latched.mk_]

theorem State.setQueue_latch {z : State} (q : Nat) (x : Queue) (hk : Latched z) :
    Latched (State.setQueue z q x) := by
  unfold State.setQueue
  grind [Latched.mk_]

theorem State.setEngine_latch {z : State} (e : Nat) (x : Engine) (hk : Latched z) :
    Latched (State.setEngine z e x) := by
  unfold State.setEngine
  grind [Latched.mk_]

theorem State.setSto_latch {z : State} (n : Nat) (x : Store) (hk : Latched z) :
    Latched (State.setSto z n x) := by
  unfold State.setSto
  grind [Latched.mk_]

theorem State.setSeal_latch {z : State} (n : Nat) (x : Seal) (hk : Latched z) :
    Latched (State.setSeal z n x) := by
  unfold State.setSeal
  grind [Latched.mk_]

theorem State.setStation_latch {z : State} (n : Nat) (x : Station) (hk : Latched z) :
    Latched (State.setStation z n x) := by
  unfold State.setStation
  grind [Latched.mk_]

theorem State.setStream_latch {z : State} (c : Nat) (x : Stream) (hk : Latched z) :
    Latched (State.setStream z c x) := by
  unfold State.setStream
  grind [Latched.mk_]

theorem State.setMent_latch {z : State} (e : Nat) (x : MfeEnt) (hk : Latched z) :
    Latched (State.setMent z e x) := by
  unfold State.setMent
  grind [Latched.mk_]

theorem State.takeFresh_latch {z : State} (h : Latched z) : Latched (State.takeFresh z).2 := h

theorem State.syncSum_latch {z : State} (g : Nat) (hk : Latched z) :
    Latched (State.syncSum z g) := by
  unfold State.syncSum
  have haside : R.HIF_EVT_PEND_PEND.aside = true ∧ R.HIF_EVT_EN_EN.aside = true ∧ R.HIF_EVT_SUM_LO_GROUPS.aside = true ∧
      R.HIF_EVT_SUM_HI_GROUPS.aside = true := by decide
  grind [Latched.mk_, State.set_latch]

theorem State.owe_latch {z : State} (n : Nat) (hk : Latched z) :
    Latched (State.owe z n) := by
  unfold State.owe
  grind [Latched.mk_]

theorem State.raise_latch {z : State} (n : Nat) (hk : Latched z) :
    Latched (State.raise z n) := by
  unfold State.raise
  have haside : R.HIF_EVT_PEND_PEND.aside = true := by decide
  grind [Latched.mk_, State.owe_latch, State.set_latch, State.syncSum_latch]

theorem State.countRefused_latch {z : State} (w : World) (c : Status) (hk : Latched z) :
    Latched (State.countRefused z w c) := by
  unfold State.countRefused
  have haside : R.SMC_REG_REFUSED_COUNT.aside = true := by decide
  grind [Latched.mk_, State.add_latch]

theorem noLast_aside : ∀ f, (none : Option Fld) = some f → f.aside = true := nofun

theorem mfeLast_aside : ∀ f, mfeLast = some f → f.aside = true := by
  rintro _ ⟨⟩
  decide

theorem axLast_aside : ∀ f, axLast = some f → f.aside = true := by
  rintro _ ⟨⟩
  decide

theorem ilcLast_aside : ∀ f, ilcLast = some f → f.aside = true := by
  rintro _ ⟨⟩
  decide

theorem State.refuse_latch {z : State} (w : World) (c : Status) (last : Option Fld) (i : Nat) (hlast : ∀ f, last = some f → f.aside = true)
    (hk : Latched z) : Latched (State.refuse z w c last i) := by
  have hcount := State.countRefused_latch w c hk
  cases last with
  | none => exact hcount
  | some f => exact State.set_latch _ _ _ _ (hlast f rfl) hcount

theorem State.crossWorld_latch {z : State} (src : XwSource) (write : Bool) (byteAddr : Nat) (hk : Latched z) :
    Latched (State.crossWorld z src write byteAddr) := by
  unfold State.crossWorld
  have haside : R.SMC_XW_COUNT_COUNT.aside = true ∧ R.SMC_XW_LOG_SOURCE.aside = true ∧ R.SMC_XW_LOG_WRITE.aside = true ∧
      R.SMC_XW_ADDR_ADDR.aside = true := by decide
  grind [Latched.mk_, State.add_latch, State.raise_latch, State.set_latch]

/-- A host write keeps a latched device latched, where its act does. -/
theorem State.hostWrite_latch_of_desc {z : State} (w : World) (id : RegId) (i j : Nat) (check : Option Status) (last : Option Fld)
    (li : Nat)
    (act : Reg → State → State) (hlast : ∀ f, last = some f → f.aside = true) (hk : Latched z)
    (hact : ∀ (x0 : Reg) (x1 : State), id.desc? = some x0 → Latched x1 → Latched (act x0 x1)) :
    Latched (State.hostWrite z w id i j check last li act) := by
  unfold State.hostWrite
  cases hdesc : id.desc? with
  | none => exact hk
  | some r =>
    have hdone := hact r z hdesc hk
    grind [State.countRefused_latch, State.crossWorld_latch, State.refuse_latch]

theorem State.hostWrite_latch {z : State} (w : World) (id : RegId) (i j : Nat) (check : Option Status) (last : Option Fld) (li : Nat)
    (act : Reg → State → State) (hlast : ∀ f, last = some f → f.aside = true) (hk : Latched z)
    (hact : ∀ (x0 : Reg) (x1 : State), Latched x1 → Latched (act x0 x1)) : Latched (State.hostWrite z w id i j check last li act) :=
  State.hostWrite_latch_of_desc w id i j check last li act hlast hk fun r x _ => hact r x

theorem State.rowWrite_latch {z : State} (w : World) (id : RegId) (i j v : Nat) (check : Option Status) (last : Option Fld) (li : Nat)
    (act : State → State) (hid : id.isWorldMap = false) (hlast : ∀ f, last = some f → f.aside = true) (hk : Latched z)
    (hact : ∀ (x0 : State), Latched x0 → Latched (act x0)) : Latched (State.rowWrite z w id i j v check last li act) :=
  State.hostWrite_latch_of_desc w id i j check last li _ hlast hk fun r _ hdesc hx => by
    obtain ⟨hr, rfl⟩ := RegId.desc_mem hdesc
    exact hact _ (State.writeAll_latch w r i j v hr (fun hmap => absurd hmap (by simp [hid])) hx)

theorem State.windowWrite_latch {z : State} (w : World) (a : Nat) (check : Option Status) (refused act : State → State) (hk : Latched z)
    (hrefused : ∀ (x0 : State), Latched x0 → Latched (refused x0)) (hact : ∀ (x0 : State), Latched x0 → Latched (act x0)) :
    Latched (State.windowWrite z w a check refused act) := by
  unfold State.windowWrite
  split
  · exact hk
  · split
    · exact State.countRefused_latch _ _ (State.crossWorld_latch _ _ _ hk)
    · split
      · exact State.countRefused_latch _ _ hk
      · cases check with
        | none => exact hact z hk
        | some c => exact hrefused z hk

theorem State.hostRead_latch {z : State} (w : World) (a n v : Nat) (act : State → State) (hk : Latched z)
    (hact : ∀ (x0 : State), Latched x0 → Latched (act x0)) :
    Latched (State.hostRead z w a n v act) := by
  unfold State.hostRead
  grind [Latched.mk_, State.crossWorld_latch, State.emit_latch]

/-! ### QueueOps -/

theorem State.syncLow_latch {z : State}  (hk : Latched z) :
    Latched (State.syncLow z) := by
  unfold State.syncLow
  have haside : R.QMX_STATUS_LOW.aside = true := by decide
  grind [Latched.mk_, State.raise_latch, State.set_latch]

theorem State.setAlloc_latch {z : State} (q n : Nat) (hk : Latched z) :
    Latched (State.setAlloc z q n) := by
  unfold State.setAlloc
  have haside : R.QMX_Q_RES_ALLOC.aside = true ∧ R.QMX_POOL_RES_UNUSED.aside = true ∧ R.QMX_AUD_ALLOC_ALLOC.aside = true := by decide
  grind [Latched.mk_, State.set_latch]

theorem State.arrive_latch {z : State}  (hk : Latched z) :
    Latched (State.arrive z) := by
  unfold State.arrive
  have haside : R.QMX_POOL_FREE_FREE.aside = true ∧ R.QMX_AUD_TRANSIT_TRANSIT.aside = true ∧ R.QMX_Q_STATUS_STATE.aside = true := by decide
  grind [Latched.mk_, State.add_latch, State.set_latch, State.sub_latch, State.syncLow_latch]

theorem State.takeSlabs_latch {z : State} (q n : Nat) (hk : Latched z) :
    Latched (State.takeSlabs z q n) := by
  unfold State.takeSlabs
  have haside : R.QMX_POOL_FREE_FREE.aside = true ∧ R.QMX_AUD_TRANSIT_TRANSIT.aside = true := by decide
  grind [Latched.mk_, State.add_latch, State.setAlloc_latch, State.sub_latch, State.syncLow_latch]

theorem State.releaseSlabs_latch {z : State} (q n : Nat) (flush : Bool) (hk : Latched z) :
    Latched (State.releaseSlabs z q n flush) := by
  unfold State.releaseSlabs
  have haside : R.QMX_AUD_TRANSIT_TRANSIT.aside = true := by decide
  grind [Latched.mk_, State.add_latch, State.setAlloc_latch, State.syncLow_latch]

theorem State.putQueue_latch {z : State} (q : Nat) (x : Queue) (hk : Latched z) :
    Latched (State.putQueue z q x) := by
  unfold State.putQueue
  have haside : R.QMX_Q_STATUS_WORDS.aside = true := by decide
  grind [Latched.mk_, State.setQueue_latch, State.set_latch]

theorem State.endWrWait_latch {z : State} (q : Nat) (hk : Latched z) :
    Latched (State.endWrWait z q) := by
  unfold State.endWrWait
  have haside : R.QMX_Q_STATUS_FULL.aside = true ∧ R.QMX_Q_STATUS_ALLOC_WAIT.aside = true := by decide
  grind [Latched.mk_, State.setQueue_latch, State.set_latch]

theorem State.endRdWait_latch {z : State} (q : Nat) (hk : Latched z) :
    Latched (State.endRdWait z q) := by
  unfold State.endRdWait
  have haside : R.QMX_Q_STATUS_READ_WAIT.aside = true := by decide
  grind [Latched.mk_, State.setQueue_latch, State.set_latch]

theorem State.handOver_latch {z : State} (q : Nat) (hk : Latched z) :
    Latched (State.handOver z q) := by
  unfold State.handOver
  have haside : R.QMX_Q_STATUS_WR_DRAWER.aside = true ∧ R.QMX_Q_STATUS_FULL.aside = true := by decide
  grind [Latched.mk_, State.endWrWait_latch, State.setQueue_latch, State.set_latch]

theorem State.closeDrawer_latch {z : State} (q : Nat) (hk : Latched z) :
    Latched (State.closeDrawer z q) := by
  unfold State.closeDrawer
  grind [Latched.mk_, State.handOver_latch, State.setQueue_latch]

theorem State.resyncWord_latch {z : State} (q : Nat) (w : QWord) (hk : Latched z) :
    Latched (State.resyncWord z q w) := by
  unfold State.resyncWord
  have haside : R.QMX_Q_CMD_DROP_WORDS.aside = true ∧ R.QMX_Q_WR_PKTS_COUNT.aside = true ∧ R.QMX_Q_DISC_COUNT.aside = true ∧
      R.QMX_Q_STATUS_WR_RESYNC.aside = true ∧ R.QMX_Q_STATUS_WR_OPEN.aside = true := by decide
  grind [Latched.mk_, State.addSat_latch, State.add_latch, State.set_latch]

theorem State.appendWord_latch {z : State} (q : Nat) (w : QWord) (hk : Latched z) :
    Latched (State.appendWord z q w) := by
  unfold State.appendWord
  have haside : R.QMX_Q_WR_PKTS_COUNT.aside = true ∧ R.QMX_Q_STATUS_WR_OPEN.aside = true := by decide
  grind [Latched.mk_, State.add_latch, State.closeDrawer_latch, State.endWrWait_latch, State.putQueue_latch, State.set_latch]

theorem State.appendRing_latch {z : State} (q : Nat) (w : QWord) (hk : Latched z) :
    Latched (State.appendRing z q w) := by
  unfold State.appendRing
  have haside : R.QMX_Q_WR_PKTS_COUNT.aside = true ∧ R.QMX_Q_STATUS_WR_OPEN.aside = true := by decide
  grind [Latched.mk_, State.add_latch, State.putQueue_latch, State.set_latch]

theorem State.dropDescriptor_latch {z : State} (q : Nat) (hk : Latched z) :
    Latched (State.dropDescriptor z q) := by
  unfold State.dropDescriptor
  have haside : R.QMX_Q_STATUS_OVERFLOW.aside = true ∧ R.QMX_EVT_LAST_QUEUE.aside = true ∧ R.QMX_EVT_LAST_KIND.aside = true := by decide
  grind [Latched.mk_, State.raise_latch, State.set_latch]

theorem State.offerWord_latch {z : State} (q : Nat) (w : QWord) (hk : Latched z) :
    Latched (State.offerWord z q w).2 := by
  unfold State.offerWord
  have haside : R.QMX_Q_STATUS_FULL.aside = true ∧ R.QMX_Q_STATUS_ALLOC_WAIT.aside = true := by decide
  grind [Latched.mk_, State.appendRing_latch, State.appendWord_latch, State.dropDescriptor_latch, State.resyncWord_latch,
    State.set_latch, State.takeSlabs_latch]

theorem State.drainList_latch {z : State} (q : Nat) (p0 : List QWord) (hk : Latched z) :
    Latched (State.drainList z q p0) := by
  induction p0 generalizing z <;> grind [State.drainList, Latched.mk_, State.offerWord_latch, State.setQueue_latch]

theorem State.drain_latch {z : State} (q : Nat) (hk : Latched z) :
    Latched (State.drain z q) := by
  unfold State.drain
  grind [Latched.mk_, State.drainList_latch]

theorem State.drainSlab_latch {z : State} (q : Nat) (used : Bool) (p0 : List QWord) (hk : Latched z) :
    Latched (State.drainSlab z q used p0) := by
  induction p0 generalizing z used with
  | nil => exact State.setQueue_latch _ _ hk
  | cons w ws ih =>
    unfold State.drainSlab
    have h1 := State.offerWord_latch q w hk
    split
    · exact State.set_latch _ _ _ _ rfl (State.setQueue_latch _ _ hk)
    · split <;> rename_i h <;> rw [h] at h1
      · exact ih _ h1
      · exact State.setQueue_latch _ _ h1

theorem State.presentWords_latch {z : State} (q : Nat) (ws : List QWord) (hk : Latched z) :
    Latched (State.presentWords z q ws) := by
  unfold State.presentWords
  grind [Latched.mk_, State.drainList_latch]

theorem State.presentItem_latch {z : State} (q : Nat) (ds : List Nat) (hk : Latched z) :
    Latched (State.presentItem z q ds) := by
  unfold State.presentItem
  grind [Latched.mk_, State.presentWords_latch]

theorem State.releaseDrawer_latch {z : State} (q : Nat) (hk : Latched z) :
    Latched (State.releaseDrawer z q) := by
  unfold State.releaseDrawer
  grind [Latched.mk_, State.drain_latch, State.handOver_latch, State.putQueue_latch, State.releaseSlabs_latch]

theorem State.popWord_latch {z t : State} {w : QWord} (q : Nat) (hk : Latched z) (hp : State.popWord z q = some (w, t)) :
    Latched t := by
  unfold State.popWord at hp
  grind [State.putQueue_latch, State.releaseDrawer_latch]

theorem State.skipResync_latch {z : State} (q : Nat) (p0 : Nat) (hk : Latched z) : Latched (State.skipResync z q p0) := by
  induction p0 generalizing z with
  | zero => exact hk
  | succ n ih =>
    unfold State.skipResync
    split
    · split
      · exact hk
      · next w s1 h =>
        have h1 := State.popWord_latch q hk h
        apply ih
        have h2 := State.addSat_latch R.QMX_Q_CMD_DROP_WORDS 1 q 0 rfl h1
        split
        · exact State.set_latch _ _ _ _ rfl (State.add_latch _ _ _ _ rfl h2)
        · exact h2
    · exact hk

theorem State.queueEvent_latch {z : State} (q kind ev : Nat) (hk : Latched z) :
    Latched (State.queueEvent z q kind ev) := by
  unfold State.queueEvent
  have haside : R.QMX_EVT_LAST_QUEUE.aside = true ∧ R.QMX_EVT_LAST_KIND.aside = true := by decide
  grind [Latched.mk_, State.raise_latch, State.set_latch]

theorem State.deliver_latch {z : State} (q : Nat) (w : DWord) (hk : Latched z) :
    Latched (State.deliver z q w) := by
  unfold State.deliver
  have haside : R.QMX_Q_STATUS_RD_OPEN.aside = true := by decide
  grind [Latched.mk_, State.endRdWait_latch, State.setQueue_latch, State.set_latch]

theorem State.readWord_latch {z : State} (q : Nat) (ecc : Ecc) (hk : Latched z) : Latched (State.readWord z q ecc) := by
  have haside : R.QMX_Q_ECC_TRUNC.aside = true ∧ R.QMX_Q_ECC_UNCORR.aside = true ∧ R.QMX_ECC_UNCORR.aside = true ∧
      R.QMX_Q_STATUS_RD_RESYNC.aside = true ∧ R.QMX_Q_ECC_CORR.aside = true ∧ R.QMX_ECC_CORR.aside = true ∧
      R.QMX_Q_RD_PKTS_COUNT.aside = true := by decide
  unfold State.readWord
  have h0 := State.skipResync_latch q ((z.queue q).words + 1) hk
  dsimp only
  generalize State.skipResync z q ((z.queue q).words + 1) = y at h0 ⊢
  split
  · grind [State.addSat_latch, State.deliver_latch, State.setQueue_latch]
  · split
    · exact State.set_latch _ _ _ _ rfl h0
    · next w s1 h =>
      have h1 : Latched s1 := by
        split at h
        · cases h
        · exact State.popWord_latch q h0 h
      split <;> grind [State.addSat_latch, State.add_latch, State.deliver_latch, State.set_latch, State.queueEvent_latch]

theorem State.putSide_latch {z : State} (q : Nat) (second : Bool) (y : RingSide) (hk : Latched z) :
    Latched (State.putSide z q second y) := by
  unfold State.putSide
  have haside : R.QMX_Q_STATUS_RD_OPEN.aside = true ∧ R.QMX_Q_STATUS_READ_WAIT.aside = true ∧
      R.QMX_Q_STATUS_RD_RESYNC.aside = true := by decide
  grind [Latched.mk_, State.setQueue_latch, State.set_latch]

theorem State.trimRing_latch {z : State} (q : Nat) (hk : Latched z) :
    Latched (State.trimRing z q) := by
  unfold State.trimRing
  grind [Latched.mk_, State.putQueue_latch]

theorem State.dropRing_latch {z : State} (q : Nat) (second : Bool) (w : QWord) (hk : Latched z) :
    Latched (State.dropRing z q second w) := by
  unfold State.dropRing
  have haside : R.QMX_Q_CMD_DROP_WORDS.aside = true ∧ R.QMX_Q_DISC_COUNT.aside = true := by decide
  grind [Latched.mk_, State.addSat_latch, State.add_latch, State.putSide_latch]

theorem State.deliverRing_latch {z : State} (q : Nat) (second : Bool) (ecc : Ecc) (w : QWord) (hk : Latched z) :
    Latched (State.deliverRing z q second ecc w) := by
  unfold State.deliverRing
  have haside : R.QMX_Q_ECC_UNCORR.aside = true ∧ R.QMX_ECC_UNCORR.aside = true ∧ R.QMX_Q_ECC_CORR.aside = true ∧
      R.QMX_ECC_CORR.aside = true ∧ R.QMX_Q_RD_PKTS_COUNT.aside = true := by decide
  grind [Latched.mk_, State.addSat_latch, State.add_latch, State.putSide_latch, State.queueEvent_latch]

theorem State.skipRing_latch {z : State} (q : Nat) (second : Bool) (p0 : Nat) (hk : Latched z) :
    Latched (State.skipRing z q second p0) := by
  induction p0 generalizing z <;> grind [State.skipRing, Latched.mk_, State.drain_latch, State.dropRing_latch, State.trimRing_latch]

theorem State.ringStep_latch {z : State} (q : Nat) (second : Bool) (ecc : Ecc) (hk : Latched z) :
    Latched (State.ringStep z q second ecc).2 := by
  unfold State.ringStep
  have haside : R.QMX_Q_ECC_TRUNC.aside = true := by decide
  grind [Latched.mk_, State.addSat_latch, State.deliverRing_latch, State.drain_latch, State.putSide_latch, State.skipRing_latch,
    State.trimRing_latch]

theorem State.readRing_latch {z : State} (q : Nat) (second : Bool) (ecc : Ecc) (hk : Latched z) :
    Latched (State.readRing z q second ecc) := by
  unfold State.readRing
  grind [Latched.mk_, State.ringStep_latch]

theorem State.pull_latch {z : State} (q : Nat) (p0 : Nat) (hk : Latched z) :
    Latched (State.pull z q p0) := by
  induction p0 generalizing z <;> grind [State.pull, Latched.mk_, State.readWord_latch]

theorem State.takeItem_latch {z : State} (q : Nat) (hk : Latched z) :
    Latched (State.takeItem z q).2 := by
  unfold State.takeItem
  grind [Latched.mk_, State.pull_latch, State.setQueue_latch]

theorem State.pullRing_latch {z : State} (q : Nat) (second : Bool) (p0 : Nat) (hk : Latched z) :
    Latched (State.pullRing z q second p0) := by
  induction p0 generalizing z <;> grind [State.pullRing, Latched.mk_, State.ringStep_latch]

theorem State.takeDescriptor_latch {z : State} (q : Nat) (second : Bool) (hk : Latched z) :
    Latched (State.takeDescriptor z q second).2 := by
  unfold State.takeDescriptor
  grind [Latched.mk_, State.pullRing_latch, State.putSide_latch]

theorem State.enableQueue_latch {z : State} (q : Nat) (hk : Latched z) :
    Latched (State.enableQueue z q) := by
  unfold State.enableQueue
  have haside : R.QMX_Q_CFG_EN.aside = true ∧ R.QMX_Q_STATUS_STATE.aside = true ∧ R.QMX_STATUS_ENABLED.aside = true ∧
      R.QMX_POOL_RES_TOTAL.aside = true ∧ R.QMX_POOL_RES_UNUSED.aside = true := by decide
  grind [Latched.mk_, State.add_latch, State.drain_latch, State.set_latch, State.syncLow_latch, State.takeSlabs_latch]

theorem State.grantGroup_latch {z : State} (record : Bool) (p0 : Nat) (hk : Latched z) :
    Latched (State.grantGroup z record p0) := by
  induction p0 generalizing z <;> grind [State.grantGroup, Latched.mk_, State.drainSlab_latch]

theorem State.grant_latch {z : State}  (hk : Latched z) :
    Latched (State.grant z) := by
  unfold State.grant
  grind [Latched.mk_, State.grantGroup_latch]

theorem State.disableQueue_latch {z : State} (q : Nat) (hk : Latched z) :
    Latched (State.disableQueue z q) := by
  unfold State.disableQueue
  have haside : R.QMX_POOL_RES_TOTAL.aside = true ∧ R.QMX_POOL_RES_UNUSED.aside = true ∧ R.QMX_Q_CFG_EN.aside = true ∧
      R.QMX_Q_STATUS_STATE.aside = true ∧ R.QMX_STATUS_ENABLED.aside = true := by decide
  grind [Latched.mk_, State.endRdWait_latch, State.grant_latch, State.releaseSlabs_latch, State.set_latch, State.sub_latch,
    State.syncLow_latch]

theorem State.flushQueue_latch {z : State} (q : Nat) (hk : Latched z) :
    Latched (State.flushQueue z q) := by
  unfold State.flushQueue
  have haside : R.QMX_Q_DISC_COUNT.aside = true ∧ R.QMX_Q_CMD_DROP_WORDS.aside = true ∧ R.QMX_Q_STATUS_RD_RESYNC.aside = true ∧
      R.QMX_Q_STATUS_WR_RESYNC.aside = true ∧ R.QMX_Q_STATUS_STATE.aside = true := by decide
  grind [Latched.mk_, State.addSat_latch, State.add_latch, State.drain_latch, State.endWrWait_latch, State.putQueue_latch,
    State.releaseSlabs_latch, State.set_latch]

theorem State.flushOpen_latch {z : State} (q : Nat) (hk : Latched z) :
    Latched (State.flushOpen z q) := by
  unfold State.flushOpen
  grind [Latched.mk_, State.flushQueue_latch, State.setQueue_latch]

theorem State.freshWriter_latch {z : State} (q : Nat) (hk : Latched z) :
    Latched (State.freshWriter z q) := by
  unfold State.freshWriter
  have haside : R.QMX_Q_STATUS_WR_RESYNC.aside = true ∧ R.QMX_Q_STATUS_WR_OPEN.aside = true := by decide
  grind [Latched.mk_, State.set_latch]

theorem State.transitArrive_latch {z : State}  (hk : Latched z) :
    Latched (State.transitArrive z) := by
  unfold State.transitArrive
  grind [Latched.mk_, State.arrive_latch, State.drain_latch, State.grant_latch]

theorem State.configQueue_latch {z : State} (q cls mx closeEnd idle stall res station : Nat) (hk : Latched z) :
    Latched (State.configQueue z q cls mx closeEnd idle stall res station) := by
  unfold State.configQueue
  have haside : R.QMX_Q_CFG_CLASS.aside = true ∧ R.QMX_Q_CFG_MAX.aside = true ∧ R.QMX_Q_CFG_CLOSE_END.aside = true ∧
      R.QMX_Q_CFG_IDLE.aside = true ∧ R.QMX_Q_CFG_STALL.aside = true ∧ R.QMX_Q_RES_RES.aside = true ∧
      R.QMX_Q_CFG_STATION.aside = true := by decide
  grind [Latched.mk_, State.set_latch]

theorem State.configFixed_latch {z : State} (q station : Nat) (hk : Latched z) :
    Latched (State.configFixed z q station) := by
  unfold State.configFixed
  grind [Latched.mk_, State.configQueue_latch]

theorem State.auditSlabs_latch {z : State}  (hk : Latched z) :
    Latched (State.auditSlabs z).2 := by
  unfold State.auditSlabs
  have haside : R.QMX_AUD_STATUS_DIFF.aside = true ∧ R.QMX_AUD_STATUS_FAIL.aside = true := by decide
  grind [Latched.mk_, State.raise_latch, State.setS_latch, State.set_latch]

/-! ### LineOps -/

theorem State.setEnc_latch {z : State} (e : Nat) (x : Enc) (hk : Latched z) :
    Latched (State.setEnc z e x) := by
  unfold State.setEnc
  grind [Latched.mk_]

theorem State.setLst_latch {z : State} (n : Nat) (x : LSt) (hk : Latched z) :
    Latched (State.setLst z n x) := by
  unfold State.setLst
  grind [Latched.mk_]

theorem State.setPos16_latch {z : State} (c p : Fld) (i : Nat) (x : Int) (hc : c.aside = true) (hp : p.aside = true) (hk : Latched z) :
    Latched (State.setPos16 z c p i x) := State.set_latch _ _ _ _ hp (State.set_latch _ _ _ _ hc hk)

theorem State.steer_latch {z : State} (p : Int) (hk : Latched z) :
    Latched (State.steer z p) := by
  unfold State.steer
  grind [Latched.mk_]

theorem State.syncSteer_latch {z : State}  (hk : Latched z) :
    Latched (State.syncSteer z) := by
  unfold State.syncSteer
  grind [Latched.mk_, State.steer_latch]

/-! ### RecordOps -/

theorem State.count_latch {z : State} (n band i by_ : Nat) (hk : Latched z) :
    Latched (State.count z n band i by_) := by
  unfold State.count
  grind [Latched.mk_, State.setSeal_latch, State.set_latch]

theorem State.sstRecord_latch {z : State} (n rtype wpi : Nat) (body : List Nat) (hk : Latched z) :
    Latched (State.sstRecord z n rtype wpi body) := by
  unfold State.sstRecord
  grind [Latched.mk_, State.presentItem_latch, State.setSto_latch]

theorem State.sstGap_latch {z : State} (n kind product queue first last : Nat) (hk : Latched z) :
    Latched (State.sstGap z n kind product queue first last) := by
  unfold State.sstGap
  grind [Latched.mk_, State.sstRecord_latch]

theorem State.sstSeam_latch {z : State} (n wpi r m result lines rho restarts : Nat) (hk : Latched z) :
    Latched (State.sstSeam z n wpi r m result lines rho restarts) := by
  unfold State.sstSeam
  grind [Latched.mk_, State.sstRecord_latch]

theorem State.countRecords_latch {z : State} (n band : Nat) (hk : Latched z) :
    Latched (State.countRecords z n band) := by
  unfold State.countRecords
  grind [Latched.mk_, State.count_latch, State.each_latch]

/-! ### PaceOps -/

theorem State.admission_latch {z : State} (active : Nat → Bool) (rate : Nat → Nat) (eng : List (Nat × Nat × Nat))
    (t2 : Option Nat) (hk : Latched z) : Latched (State.admission z active rate eng t2).2 := by
  unfold State.admission
  have h1 : ∀ v x, Latched ((z.setSat R.SCU_ADM_CAP_CAP v).set R.SCU_ADM_CAP_VADM x) := fun v x =>
    State.set_latch _ _ _ _ rfl (State.setSat_latch _ _ _ _ rfl hk)
  dsimp only
  split
  · exact State.setSat_latch _ _ _ _ rfl (State.set_latch _ _ _ _ rfl (State.set_latch _ _ _ _ rfl (State.set_latch _ _ _ _ rfl (h1 _ _))))
  · exact State.add_latch _ _ _ _ rfl (State.set_latch _ _ _ _ rfl (State.set_latch _ _ _ _ rfl (State.set_latch _ _ _ _ rfl (h1 _ _))))

theorem State.pmbus_latch {z : State} (code data : Nat) (hk : Latched z) :
    Latched (State.pmbus z code data) := by
  unfold State.pmbus
  grind [Latched.mk_, State.emit_latch]

theorem State.writeVset_latch {z : State} (mv : Nat) (hk : Latched z) :
    Latched (State.writeVset z mv) := by
  unfold State.writeVset
  have haside : R.SMC_VFIT_STATUS_VSET.aside = true := by decide
  grind [Latched.mk_, State.pmbus_latch, State.set_latch]

/-! ### EngineOps -/

theorem State.syncEngines_latch {z : State}  (hk : Latched z) :
    Latched (State.syncEngines z) := by
  unfold State.syncEngines
  have haside : R.IEA_AUD_STATUS_WINDOW.aside = true ∧ R.IEA_STATUS_FAULTED.aside = true := by decide
  grind [Latched.mk_, State.set_latch]

theorem State.setEngState_latch {z : State} (e st : Nat) (hk : Latched z) :
    Latched (State.setEngState z e st) := by
  unfold State.setEngState
  have haside : R.IEA_ENG_STATUS_STATE.aside = true ∧ R.IEA_CL_FAULT_MASK.aside = true := by decide
  grind [Latched.mk_, State.set_latch, State.syncEngines_latch]

theorem State.syncTokens_latch {z : State} (e : Nat) (hk : Latched z) :
    Latched (State.syncTokens z e) := by
  unfold State.syncTokens
  have haside : R.IEA_ENG_TOK_OPEN_OPEN.aside = true ∧ R.IEA_ENG_BAND_BAND.aside = true ∧ R.IEA_ENG_BAND_VALID.aside = true := by decide
  grind [Latched.mk_, State.set_latch]

theorem State.skipBands_latch {z : State} (e n : Nat) (hk : Latched z) :
    Latched (State.skipBands z e n) := by
  unfold State.skipBands
  have haside : R.IEA_ENG_TOK_ISSUED_COUNT.aside = true ∧ R.IEA_ENG_TOK_RETIRED_COUNT.aside = true := by decide
  grind [Latched.mk_, State.add_latch]

theorem State.issueToken_latch {z : State} (e b : Nat) (degraded : Bool) (hk : Latched z) :
    Latched (State.issueToken z e b degraded) := by
  unfold State.issueToken
  have haside : R.IEA_ENG_TOK_ISSUED_COUNT.aside = true ∧ R.IEA_ENG_STATUS_PHASE.aside = true := by decide
  grind [Latched.mk_, State.add_latch, State.setEngine_latch, State.set_latch, State.syncTokens_latch]

theorem State.retire_latch {z : State} (e : Nat) (p0 : Nat) (hk : Latched z) :
    Latched (State.retire z e p0) := by
  have haside : R.IEA_ENG_TOK_RETIRED_COUNT.aside = true := by decide
  induction p0 generalizing z <;> grind [State.retire, Latched.mk_, State.add_latch, State.setEngine_latch, State.syncTokens_latch]

theorem State.passMark_latch {z : State} (e i : Nat) (hk : Latched z) :
    Latched (State.passMark z e i) := by
  unfold State.passMark
  grind [Latched.mk_, State.retire_latch, State.setEngine_latch]

theorem State.resetEngine_latch {z : State} (e : Nat) (hk : Latched z) :
    Latched (State.resetEngine z e) := by
  unfold State.resetEngine
  have haside : R.IEA_ENG_TOK_ISSUED_COUNT.aside = true ∧ R.IEA_ENG_TOK_RETIRED_COUNT.aside = true ∧
      R.IEA_ENG_TOK_OPEN_OPEN.aside = true ∧ R.IEA_ENG_STATUS_PC.aside = true ∧ R.IEA_ENG_STATUS_SEQ.aside = true ∧
      R.IEA_ENG_STATUS_LOOP.aside = true ∧ R.IEA_ENG_STATUS_PHASE.aside = true := by decide
  grind [Latched.mk_, State.setEngine_latch, State.set_latch]

theorem State.reloadStore_latch {z : State} (e : Nat) (hk : Latched z) :
    Latched (State.reloadStore z e) := by
  unfold State.reloadStore
  grind [Latched.mk_, State.setEngine_latch]

theorem State.loadEngine_latch {z : State} (e : Nat) (hk : Latched z) :
    Latched (State.loadEngine z e) := by
  unfold State.loadEngine
  grind [Latched.mk_, State.reloadStore_latch, State.resetEngine_latch, State.setEngState_latch]

theorem State.retireVoid_latch {z : State} (e : Nat) (hk : Latched z) :
    Latched (State.retireVoid z e) := by
  unfold State.retireVoid
  have haside : R.IEA_ENG_TOK_RETIRED_COUNT.aside = true ∧ R.IEA_ENG_TOK_OPEN_VOIDED.aside = true := by decide
  grind [Latched.mk_, State.addSat_latch, State.add_latch, State.count_latch, State.each_latch, State.presentItem_latch,
    State.setEngine_latch, State.syncTokens_latch]

theorem State.retireVoids_latch {z : State} (e : Nat) (p0 : Nat) (hk : Latched z) :
    Latched (State.retireVoids z e p0) := by
  induction p0 generalizing z <;> grind [State.retireVoids, Latched.mk_, State.retireVoid_latch]

theorem State.flushOutputs_latch {z : State} (e : Nat) (hk : Latched z) :
    Latched (State.flushOutputs z e) := by
  unfold State.flushOutputs
  grind [Latched.mk_, State.each_latch, State.flushOpen_latch, State.freshWriter_latch]

theorem State.faultEngine_latch {z : State} (e kind cell : Nat) (hk : Latched z) :
    Latched (State.faultEngine z e kind cell) := by
  unfold State.faultEngine
  have haside : R.IEA_ENG_STATUS_SEQ.aside = true ∧ R.IEA_ENG_FAULT_KIND.aside = true ∧ R.IEA_ENG_FAULT_CELL.aside = true ∧
      R.IEA_ENG_FAULT_WPI.aside = true ∧ R.IEA_ENG_FAULT_NEW.aside = true := by decide
  grind [Latched.mk_, State.flushOutputs_latch, State.raise_latch, State.retireVoids_latch, State.setEngState_latch,
    State.setEngine_latch, State.set_latch]

theorem State.setSeq_latch {z : State} (e st : Nat) (hk : Latched z) :
    Latched (State.setSeq z e st) := by
  unfold State.setSeq
  have haside : R.IEA_ENG_STATUS_SEQ.aside = true := by decide
  grind [Latched.mk_, State.set_latch]

theorem State.setPc_latch {z : State} (e pc : Nat) (hk : Latched z) :
    Latched (State.setPc z e pc) := by
  unfold State.setPc
  have haside : R.IEA_ENG_STATUS_PC.aside = true := by decide
  grind [Latched.mk_, State.set_latch]

theorem State.setWait_latch {z : State} (e : Nat) (w : SeqWait) (hk : Latched z) :
    Latched (State.setWait z e w) := by
  unfold State.setWait
  grind [Latched.mk_, State.setEngine_latch, State.setSeq_latch]

theorem State.seqEvent_latch {z : State} (e code : Nat) (hk : Latched z) :
    Latched (State.seqEvent z e code) := by
  unfold State.seqEvent
  have haside : R.IEA_ENG_EVT_CODE.aside = true ∧ R.IEA_ENG_EVT_WPI.aside = true ∧ R.IEA_ENG_EVT_COUNT.aside = true ∧
      R.IEA_ENG_EVT_PENDING.aside = true := by decide
  grind [Latched.mk_, State.add_latch, State.raise_latch, State.set_latch]

theorem State.seqRun_latch {z : State} (e : Nat) (p0 : Nat) (hk : Latched z) :
    Latched (State.seqRun z e p0) := by
  have haside : R.IEA_ENG_STATUS_LOOP.aside = true := by decide
  induction p0 generalizing z <;> grind [State.seqRun, Latched.mk_, State.faultEngine_latch, State.seqEvent_latch, State.setEngine_latch,
    State.setPc_latch, State.setSeq_latch, State.setWait_latch, State.set_latch]

theorem State.seqGo_latch {z : State} (e : Nat) (hk : Latched z) :
    Latched (State.seqGo z e) := by
  unfold State.seqGo
  grind [Latched.mk_, State.seqRun_latch, State.setEngine_latch]

theorem State.seqStep_latch {z : State} (e : Nat) (c : SeqCause) (hk : Latched z) :
    Latched (State.seqStep z e c) := by
  unfold State.seqStep
  grind [Latched.mk_, State.seqGo_latch, State.setEngine_latch]

theorem State.runEngine_latch {z : State} (e : Nat) (hk : Latched z) :
    Latched (State.runEngine z e) := by
  unfold State.runEngine
  have haside : R.IEA_ENG_BAND_VALID.aside = true := by decide
  grind [Latched.mk_, State.reloadStore_latch, State.resetEngine_latch, State.seqStep_latch, State.setEngState_latch,
    State.setEngine_latch, State.set_latch]

theorem State.armEngine_latch {z : State} (e : Nat) (hk : Latched z) :
    Latched (State.armEngine z e) := by
  unfold State.armEngine
  have haside : R.IEA_ENG_BAND_VALID.aside = true := by decide
  grind [Latched.mk_, State.resetEngine_latch, State.runEngine_latch, State.set_latch]

theorem State.auditTokens_latch {z : State}  (hk : Latched z) :
    Latched (State.auditTokens z).2 := by
  unfold State.auditTokens
  have haside : R.IEA_AUD_STATUS_ENGINE.aside = true ∧ R.IEA_AUD_STATUS_FAIL.aside = true := by decide
  grind [Latched.mk_, State.raise_latch, State.set_latch]

/-! ### MotionOps -/

theorem State.setAxis_latch {z : State} (a : Nat) (x : Axis) (hk : Latched z) :
    Latched (State.setAxis z a x) := by
  unfold State.setAxis
  grind [Latched.mk_]

theorem State.syncPaced_latch {z : State}  (hk : Latched z) :
    Latched (State.syncPaced z) := by
  unfold State.syncPaced
  have haside : R.TTC_AX_STATUS_PACED.aside = true := by decide
  grind [Latched.mk_, State.each_latch, State.set_latch]

theorem State.aim_latch {z : State} (a : Nat) (g : Goal) (hk : Latched z) :
    Latched (State.aim z a g) := by
  unfold State.aim
  have haside : R.TTC_AX_STATUS_CURRENT.aside = true ∧ R.TTC_AX_STATUS_STATE.aside = true := by decide
  grind [Latched.mk_, State.setAxis_latch, State.set_latch]

theorem State.axisStop_latch {z : State} (a : Nat) (hk : Latched z) :
    Latched (State.axisStop z a) := by
  unfold State.axisStop
  grind [Latched.mk_, State.aim_latch]

theorem State.axisScale_latch {z : State} (n a sc : Nat) (hk : Latched z) :
    Latched (State.axisScale z n a sc) := by
  unfold State.axisScale
  have haside : R.TTC_AX_STATUS_CURRENT.aside = true := by decide
  grind [Latched.mk_, State.aim_latch, State.emit_latch, State.setAxis_latch, State.set_latch]

theorem State.backUp_latch {z : State} (a : Nat) (ct p : Int) (tries : Nat) (hk : Latched z) :
    Latched (State.backUp z a ct p tries) := by
  unfold State.backUp
  grind [Latched.mk_, State.aim_latch, State.setAxis_latch]

theorem State.holdCoil_latch {z : State} (a mode : Nat) (hk : Latched z) :
    Latched (State.holdCoil z a mode) := by
  unfold State.holdCoil
  have haside : R.TTC_AX_STATUS_CURRENT.aside = true := by decide
  grind [Latched.mk_, State.setAxis_latch, State.set_latch]

theorem State.stopLin_latch {z : State} (a : Nat) (hk : Latched z) :
    Latched (State.stopLin z a) := by
  unfold State.stopLin
  grind [Latched.mk_, State.axisStop_latch, State.each_latch, State.setAxis_latch]

theorem State.axisFault_latch {z : State} (a kind : Nat) (hk : Latched z) :
    Latched (State.axisFault z a kind) := by
  unfold State.axisFault
  have haside : R.TTC_AX_STATUS_STATE.aside = true ∧ R.TTC_AX_STATUS_FAULT.aside = true ∧ R.TTC_AX_STATUS_KIND.aside = true := by decide
  grind [Latched.mk_, State.holdCoil_latch, State.raise_latch, State.setAxis_latch, State.set_latch, State.stopLin_latch]

/-! ### SlotOps -/

theorem State.setPhead_latch {z : State} (p : Nat) (x : PHead) (hk : Latched z) :
    Latched (State.setPhead z p x) := by
  unfold State.setPhead
  grind [Latched.mk_]

theorem State.setPst_latch {z : State} (n : Nat) (x : PSt) (hk : Latched z) :
    Latched (State.setPst z n x) := by
  unfold State.setPst
  grind [Latched.mk_]

theorem State.setProd_latch {z : State} (q : Nat) (x : Prod) (hk : Latched z) :
    Latched (State.setProd z q x) := by
  unfold State.setProd
  grind [Latched.mk_]

theorem State.syncSlot_latch {z : State} (l : Nat) (hk : Latched z) :
    Latched (State.syncSlot z l) := by
  unfold State.syncSlot
  have haside : R.PCP_LEAF_STATUS_ACTIVE.aside = true ∧ R.PCP_LEAF_STATUS_PENDING.aside = true ∧ R.PCP_LEAF_STATUS_FADING.aside = true ∧
      R.PCP_LEAF_STATUS_CAPTURING.aside = true := by decide
  grind [Latched.mk_, State.set_latch]

theorem State.syncSlots_latch {z : State} (ls : List Nat) (hk : Latched z) :
    Latched (State.syncSlots z ls) := by
  unfold State.syncSlots
  grind [Latched.mk_, State.each_latch, State.syncSlot_latch]

theorem State.endCapture_latch {z : State} (c : Status) (hk : Latched z) :
    Latched (State.endCapture z c) := by
  unfold State.endCapture
  have haside : R.PCP_CAP_STATUS_STATE.aside = true ∧ R.PCP_CAP_STATUS_LAST_STATUS.aside = true := by decide
  grind [Latched.mk_, State.set_latch, State.syncSlots_latch]

theorem State.endCaptureOf_latch {z : State} (n : Nat) (hk : Latched z) :
    Latched (State.endCaptureOf z n) := by
  unfold State.endCaptureOf
  grind [Latched.mk_, State.endCapture_latch]

/-! ### StoreOps -/

theorem State.writeSlot_latch {z : State} (n home wpi flags : Nat) (samples : List Nat) (hk : Latched z) :
    Latched (State.writeSlot z n home wpi flags samples) := Latched.mk_ hk ..

theorem State.syncPages_latch {z : State}  (hk : Latched z) :
    Latched (State.syncPages z) := by
  unfold State.syncPages
  have haside : R.SST_AUD_HELD_HELD.aside = true ∧ R.SST_AUD_FREE_FREE.aside = true ∧ R.SST_AUD_TOTAL_TOTAL.aside = true ∧
      R.SST_AUD_STATUS_WINDOW.aside = true := by decide
  grind [Latched.mk_, State.set_latch]

theorem State.auditPages_latch {z : State}  (hk : Latched z) :
    Latched (State.auditPages z).2 := by
  unfold State.auditPages
  have haside : R.SST_AUD_STATUS_DIFF.aside = true ∧ R.SST_AUD_STATUS_FAIL.aside = true := by decide
  grind [Latched.mk_, State.raise_latch, State.setS_latch, State.set_latch]

theorem State.setGrp_latch {z : State} (g : Nat) (x : Grp) (hk : Latched z) :
    Latched (State.setGrp z g x) := by
  unfold State.setGrp
  grind [Latched.mk_]

theorem State.setChan_latch {z : State} (c : Nat) (x : Chan) (hk : Latched z) :
    Latched (State.setChan z c x) := by
  unfold State.setChan
  grind [Latched.mk_]

theorem State.syncBank_latch {z : State} (g : Nat) (hk : Latched z) :
    Latched (State.syncBank z g) := by
  unfold State.syncBank
  have haside : R.ILC_GRP_BANK_HELD.aside = true := by decide
  grind [Latched.mk_, State.set_latch]

theorem State.syncBanks_latch {z : State} (n : Nat) (hk : Latched z) :
    Latched (State.syncBanks z n) := by
  unfold State.syncBanks
  grind [Latched.mk_, State.each_latch, State.syncBank_latch]

theorem State.syncStore_latch {z : State} (n : Nat) (hk : Latched z) :
    Latched (State.syncStore z n) := by
  unfold State.syncStore
  have haside : R.SST_ST_U.aside = true ∧ R.SST_ST_BACKLOG_B.aside = true ∧ R.SST_ST_SCALE_SCALE.aside = true := by decide
  grind [Latched.mk_, State.setSat_latch, State.set_latch, State.syncBanks_latch, State.syncPages_latch]

theorem State.sendScale_latch {z : State} (n : Nat) (hk : Latched z) :
    Latched (State.sendScale z n) := by
  unfold State.sendScale
  grind [Latched.mk_, State.axisScale_latch, State.setSto_latch]

theorem State.enterSt_latch {z : State} (n st : Nat) (hk : Latched z) :
    Latched (State.enterSt z n st) := by
  unfold State.enterSt
  have haside : R.SMC_ST_STATE_STATE.aside = true ∧ R.LTU_ST_STATUS_TRIGGERING.aside = true := by decide
  grind [Latched.mk_, State.endCaptureOf_latch, State.raise_latch, State.sendScale_latch, State.set_latch, State.syncDev_latch,
    State.syncPaced_latch, State.syncStore_latch]

theorem State.noteStop_latch {z : State} (n : Nat) (t : Int) (hk : Latched z) :
    Latched (State.noteStop z n t) := by
  unfold State.noteStop
  grind [Latched.mk_, State.setSeal_latch]

theorem State.endStop_latch {z : State} (n : Nat) (t : Int) (hk : Latched z) :
    Latched (State.endStop z n t) := by
  unfold State.endStop
  grind [Latched.mk_, State.setSeal_latch]

theorem State.stopStation_latch {z : State} (n : Nat) (t : Int) (hk : Latched z) :
    Latched (State.stopStation z n t) := by
  unfold State.stopStation
  have haside : R.SST_ST_REW_R.aside = true ∧ R.SST_ST_REW_M.aside = true ∧ R.SST_ST_REW_STATUS_PHASE.aside = true := by decide
  grind [Latched.mk_, State.axisScale_latch, State.axisStop_latch, State.enterSt_latch, State.noteStop_latch, State.setSto_latch,
    State.set_latch]

theorem State.checkStop_latch {z : State} (n : Nat) (t : Int) (hk : Latched z) :
    Latched (State.checkStop z n t) := by
  unfold State.checkStop
  grind [Latched.mk_, State.stopStation_latch]

theorem State.rewindFail_latch {z : State} (n : Nat) (c : Status) (hk : Latched z) :
    Latched (State.rewindFail z n c) := by
  unfold State.rewindFail
  have haside : R.SST_ST_REW_STATUS_PHASE.aside = true ∧ R.SST_ST_REW_STATUS_FAIL.aside = true ∧
      R.SST_ST_REW_STATUS_LAST_STATUS.aside = true := by decide
  grind [Latched.mk_, State.axisStop_latch, State.enterSt_latch, State.raise_latch, State.set_latch]

theorem State.dropUntouched_latch {z : State} (q : Nat) (hk : Latched z) :
    Latched (State.dropUntouched z q) := by
  unfold State.dropUntouched
  grind [State.setQueue_latch]

theorem State.moveProduct_latch {z : State} (n q l : Nat) (hk : Latched z) :
    Latched (State.moveProduct z n q l) := by
  unfold State.moveProduct
  refine State.setSto_latch _ _ ?_
  split
  · exact State.dropUntouched_latch (z.prodQueue q) hk
  · exact hk

theorem State.shed_latch {z : State} (n q : Nat) (hk : Latched z) :
    Latched (State.shed z n q) := by
  unfold State.shed
  have haside : R.SST_ST_GAPS_COUNT.aside = true := by decide
  grind [Latched.mk_, State.add_latch, State.moveProduct_latch, State.setSto_latch, State.sstGap_latch]

theorem State.shedLag_latch {z : State} (n q : Nat) (p0 : Nat) (hk : Latched z) :
    Latched (State.shedLag z n q p0) := by
  induction p0 generalizing z <;> grind [State.shedLag, Latched.mk_, State.shed_latch]

theorem State.shedAll_latch {z : State} (n : Nat) (hk : Latched z) :
    Latched (State.shedAll z n) := by
  unfold State.shedAll
  grind [Latched.mk_, State.each_latch, State.shedLag_latch]

theorem State.shedTurn_latch {z : State} (n : Nat) (hk : Latched z) :
    Latched (State.shedTurn z n) := by
  unfold State.shedTurn
  grind [Latched.mk_, State.setSto_latch, State.shed_latch, State.syncStore_latch]

theorem State.passQueue_latch {z : State} (n q p : Nat) (hk : Latched z) :
    Latched (State.passQueue z n q p) := by
  unfold State.passQueue
  have haside : R.SST_ST_OVERRUN_COUNT.aside = true := by decide
  grind [Latched.mk_, State.add_latch, State.dropUntouched_latch, State.presentItem_latch, State.raise_latch, State.setSto_latch,
    State.sstGap_latch]

theorem State.passReload_latch {z : State} (n l h : Nat) (hk : Latched z) :
    Latched (State.passReload z n l h) := by
  unfold State.passReload
  have haside : R.SST_ST_OVERRUN_COUNT.aside = true := by decide
  grind [Latched.mk_, State.add_latch, State.raise_latch, State.setSto_latch, State.sstGap_latch]

theorem State.overrun_latch {z : State} (n l : Nat) (hk : Latched z) :
    Latched (State.overrun z n l) := by
  unfold State.overrun
  have haside : R.SST_ST_MARK_VALID.aside = true ∧ R.SST_ST_HOST_RP.aside = true ∧ R.SST_ST_GAPS_COUNT.aside = true := by decide
  grind [Latched.mk_, State.add_latch, State.each_latch, State.moveProduct_latch, State.passQueue_latch, State.passReload_latch,
    State.raise_latch, State.set_latch, State.sstGap_latch, State.syncStore_latch]

/-! ### LeafOps -/

theorem State.putLeaf_latch {z : State} (a : Nat) (bs : List Nat) (hk : Latched z) :
    Latched (State.putLeaf z a bs) := Latched.mk_ hk ..

theorem State.leafRefused_latch {z : State} (w : World) (hk : Latched z) :
    Latched (State.leafRefused z w) := by
  unfold State.leafRefused
  have haside : R.PCP_SHD_REFUSED_COUNT.aside = true ∧ R.PCP_SHD_STATUS_LAST_STATUS.aside = true := by decide
  grind [Latched.mk_, State.add_latch, State.raise_latch, State.refuse_latch]

/-! ### ShadeOps -/

theorem State.setDrift_latch {z : State} (p i d g : Nat) (hk : Latched z) :
    Latched (State.setDrift z p i d g) := by
  unfold State.setDrift
  have haside : R.PCP_SHD_DRIFT_DELTA.aside = true ∧ R.PCP_SHD_DRIFT_GAIN.aside = true := by decide
  grind [Latched.mk_, State.set_latch]

theorem State.restDrift_latch {z : State} (p l : Nat) (hk : Latched z) :
    Latched (State.restDrift z p l) := by
  unfold State.restDrift
  grind [Latched.mk_, State.each_latch, State.setDrift_latch, State.setPhead_latch]

theorem State.noteClamps_latch {z : State} (p : Nat) (d e : Drift) (hk : Latched z) :
    Latched (State.noteClamps z p d e) := by
  unfold State.noteClamps
  have haside : R.PCP_SHD_TRK_CTRL_ALARM.aside = true := by decide
  grind [Latched.mk_, State.raise_latch, State.set_latch]

theorem State.trackPlane_latch {z : State} (p l i : Nat) (still : Bool) (raw : List Nat) (hk : Latched z) :
    Latched (State.trackPlane z p l i still raw) := by
  unfold State.trackPlane
  grind [Latched.mk_, State.noteClamps_latch, State.setDrift_latch, State.setPhead_latch, State.set_latch]

theorem State.trackDrift_latch {z : State} (n p : Nat) (bad : Bool) (raw : List Nat) (hk : Latched z) :
    Latched (State.trackDrift z n p bad raw) := by
  unfold State.trackDrift
  grind [Latched.mk_, State.each_latch, State.setDrift_latch, State.setPhead_latch, State.trackPlane_latch]

theorem State.beginFade_latch {z : State} (n p : Nat) (hk : Latched z) :
    Latched (State.beginFade z n p) := by
  unfold State.beginFade
  have haside : R.PCP_SHD_HEAD_LEAF_ACTIVE.aside = true ∧ R.PCP_SHD_HEAD_LEAF_PENDING.aside = true ∧
      R.PCP_SHD_HEAD_LEAF_FROM.aside = true ∧ R.PCP_SHD_HEAD_LEAF_FADING.aside = true := by decide
  grind [Latched.mk_, State.restDrift_latch, State.setPhead_latch, State.set_latch, State.syncSlots_latch]

theorem State.endFades_latch {z : State} (p : Nat) (hk : Latched z) :
    Latched (State.endFades z p) := by
  unfold State.endFades
  have haside : R.PCP_SHD_HEAD_LEAF_FADING.aside = true ∧ R.PCP_SHD_HEAD_LEAF_FROM.aside = true := by decide
  grind [Latched.mk_, State.setPhead_latch, State.set_latch, State.syncSlots_latch]

theorem State.dropSwaps_latch {z : State} (p : Nat) (hk : Latched z) :
    Latched (State.dropSwaps z p) := by
  unfold State.dropSwaps
  have haside : R.PCP_SHD_HEAD_LEAF_FADING.aside = true ∧ R.PCP_SHD_HEAD_LEAF_FROM.aside = true ∧
      R.PCP_SHD_HEAD_LEAF_PENDING.aside = true := by decide
  grind [Latched.mk_, State.setPhead_latch, State.set_latch, State.syncSlots_latch]

theorem State.conditionHead_latch {z : State} (p n : Nat) (filled skipped : Bool) (raw : List Nat) (hk : Latched z) :
    Latched (State.conditionHead z p n filled skipped raw) := by
  unfold State.conditionHead
  grind [Latched.mk_, State.beginFade_latch, State.setPhead_latch, State.trackDrift_latch]

theorem State.captureLine_latch {z : State} (p n : Nat) (bad : Bool) (raw : List Nat) (hk : Latched z) :
    Latched (State.captureLine z p n bad raw) := by
  unfold State.captureLine
  have haside : R.PCP_CAP_STATUS_STATE.aside = true ∧ R.PCP_CAP_WPI.aside = true := by decide
  grind [Latched.mk_, State.set_latch]

theorem State.writeCapture_latch {z : State} (hk : Latched z) : Latched (State.writeCapture z) := by
  unfold State.writeCapture
  dsimp only
  have step : ∀ (a b : Nat) (xs ys : List Nat) (c : Bool) (t : State), Latched t →
      Latched (if c = true then t.putLeaf a xs else t.putLeaf b ys) := by
    intro a b xs ys c t ht
    split
    · exact State.putLeaf_latch _ _ ht
    · exact State.putLeaf_latch _ _ ht
  have tail : ∀ (t : State) (c : Prop) [Decidable c] (a n d : Nat) (xs : List Nat) (l : Nat), Latched t →
      Latched (if c then (((t.putLeaf a xs).set R.PCP_LEAF_DEFECTS_COUNT n l).set R.PCP_CAP_STATUS_NEWDEF d).set
        R.PCP_CAP_STATUS_DEF_OVF 1 else ((t.putLeaf a xs).set R.PCP_LEAF_DEFECTS_COUNT n l).set R.PCP_CAP_STATUS_NEWDEF d) := by
    intro t c _ a n d xs l ht
    have h := State.set_latch R.PCP_CAP_STATUS_NEWDEF d 0 0 rfl
      (State.set_latch R.PCP_LEAF_DEFECTS_COUNT n l 0 rfl (State.putLeaf_latch a xs ht))
    split
    · exact State.set_latch _ _ _ _ rfl h
    · exact h
  apply tail
  apply State.each_latch
  · apply State.each_latch
    · exact hk
    · intro b x hb
      exact step _ _ _ _ _ _ hb
  · intro b x hb
    exact step _ _ _ _ _ _ hb

end Sys2Proof.Machine
end

section
/-! PROOFS. Operations of links, seals, timing, stitching and the mailbox keep the thermal latch, one lemma an operation (R524). -/

open Sys2Proof Sys2Proof.Stated

-- One proof at a time keeps the memory of the compile small.
set_option Elab.async false

namespace Sys2Proof.Machine

/-! ### KelimOps -/

theorem State.setKlane_latch {z : State} (l : Nat) (x : KLane) (hk : Latched z) :
    Latched (State.setKlane z l x) := by
  unfold State.setKlane
  grind [Latched.mk_]

theorem State.setKst_latch {z : State} (n : Nat) (x : KSt) (hk : Latched z) :
    Latched (State.setKst z n x) := by
  unfold State.setKst
  grind [Latched.mk_]

theorem State.laneFor_latch {z : State} (pt kind : Nat) (hk : Latched z) :
    Latched (State.laneFor z pt kind).2 := by
  unfold State.laneFor
  grind [Latched.mk_]

theorem State.kcoded_latch {z : State} (l : Nat) (bs : List LinkBlock) (hk : Latched z) :
    Latched (State.kcoded z l bs).2 := by
  unfold State.kcoded
  grind [Latched.mk_, State.setKlane_latch]

theorem State.sendKblock_latch {z : State} (l kind body : Nat) (hk : Latched z) :
    Latched (State.sendKblock z l kind body) := by
  unfold State.sendKblock
  grind [Latched.mk_, State.emit_latch, State.kcoded_latch]

theorem State.pumpLane_latch {z : State} (l : Nat) (p0 : Nat) (hk : Latched z) :
    Latched (State.pumpLane z l p0) := by
  induction p0 generalizing z <;> grind [State.pumpLane, Latched.mk_, State.emit_latch, State.kcoded_latch, State.setKlane_latch]

theorem State.pump_latch {z : State} (l : Nat) (hk : Latched z) :
    Latched (State.pump z l) := by
  unfold State.pump
  grind [Latched.mk_, State.pumpLane_latch]

theorem State.kelimCredit_latch {z : State} (l body : Nat) (hk : Latched z) :
    Latched (State.kelimCredit z l body) := by
  unfold State.kelimCredit
  grind [Latched.mk_, State.pump_latch, State.sendKblock_latch, State.setKlane_latch]

theorem State.kelimAck_latch {z : State} (l body : Nat) (hk : Latched z) :
    Latched (State.kelimAck z l body) := by
  unfold State.kelimAck
  grind [Latched.mk_, State.pump_latch, State.setKlane_latch]

theorem State.replayDue_latch {z : State} (l : Nat) (t : Int) (hk : Latched z) :
    Latched (State.replayDue z l t) := by
  unfold State.replayDue
  grind [Latched.mk_, State.pump_latch, State.setKlane_latch]

theorem State.replayAll_latch {z : State} (t : Int) (hk : Latched z) :
    Latched (State.replayAll z t) := by
  unfold State.replayAll
  grind [Latched.mk_, State.each_latch, State.replayDue_latch]

theorem State.kelimEcho_latch {z : State} (l body : Nat) (hk : Latched z) :
    Latched (State.kelimEcho z l body) := by
  unfold State.kelimEcho
  grind [Latched.mk_, State.sendKblock_latch, State.takeFresh_latch]

theorem State.sendCredStatus_latch {z : State} (l : Nat) (hk : Latched z) :
    Latched (State.sendCredStatus z l) := by
  unfold State.sendCredStatus
  grind [Latched.mk_, State.sendKblock_latch]

theorem State.kelimOut_latch {z : State} (pt kind : Nat) (h : KHdr) (data : List Nat) (hk : Latched z) :
    Latched (State.kelimOut z pt kind h data) := by
  unfold State.kelimOut
  grind [Latched.mk_, State.laneFor_latch, State.pump_latch, State.setKlane_latch]

theorem State.ringOut_latch {z : State} (kind : Nat) (h : KHdr) (data : List Nat) (hk : Latched z) :
    Latched (State.ringOut z kind h data) := by
  unfold State.ringOut
  grind [Latched.mk_, State.kelimOut_latch]

theorem State.ringSend_latch {z : State} (kind n dst : Nat) (data : List Nat) (hk : Latched z) :
    Latched (State.ringSend z kind n dst data) := by
  unfold State.ringSend
  grind [Latched.mk_, State.ringOut_latch]

theorem State.dovetailOut_latch {z : State} (n : Nat) (data : List Nat) (hk : Latched z) :
    Latched (State.dovetailOut z n data) := by
  unfold State.dovetailOut
  grind [Latched.mk_, State.kelimOut_latch]

theorem State.setKport_latch {z : State} (pt st : Nat) (hk : Latched z) :
    Latched (State.setKport z pt st) := by
  unfold State.setKport
  have haside : R.KRU_PORT_STATUS_STATE.aside = true := by decide
  grind [Latched.mk_, State.set_latch]

theorem State.syncFlight_latch {z : State}  (hk : Latched z) :
    Latched (State.syncFlight z) := by
  unfold State.syncFlight
  have haside : R.KRU_AUD_IN_FLIGHT.aside = true := by decide
  grind [Latched.mk_, State.set_latch]

theorem State.dropTokens_latch {z : State}  (hk : Latched z) :
    Latched (State.dropTokens z) := by
  unfold State.dropTokens
  grind [Latched.mk_, State.each_latch, State.setKst_latch, State.syncFlight_latch]

theorem State.reform_latch {z : State}  (hk : Latched z) :
    Latched (State.reform z) := by
  unfold State.reform
  have haside : R.KRU_STATUS_STATE.aside = true ∧ R.KRU_AUD_WINDOW.aside = true := by decide
  grind [Latched.mk_, State.dropTokens_latch, State.set_latch]

/-! ### SealOps -/

theorem State.syncHeld_latch {z : State} (n : Nat) (hk : Latched z) :
    Latched (State.syncHeld z n) := by
  unfold State.syncHeld
  have haside : R.SCU_SEAL_ST_STATUS_HELD_BY.aside = true := by decide
  grind [Latched.mk_, State.set_latch]

theorem State.freeze_latch {z : State} (n : Nat) (hk : Latched z) :
    Latched (State.freeze z n) := by
  unfold State.freeze
  have haside : R.SCU_SEAL_ST_STATUS_FROZEN.aside = true := by decide
  grind [Latched.mk_, State.set_latch, State.syncHeld_latch]

theorem State.auditFail_latch {z : State} (q : Quantity) (scope : List Nat) (hk : Latched z) :
    Latched (State.auditFail z q scope) := by
  unfold State.auditFail
  have haside : R.SCU_SEAL_AUD_LATCHED.aside = true ∧ R.SCU_SEAL_AUD_FAILING.aside = true := by decide
  grind [Latched.mk_, State.each_latch, State.freeze_latch, State.set_latch]

theorem State.auditPass_latch {z : State} (q : Quantity) (hk : Latched z) :
    Latched (State.auditPass z q) := by
  unfold State.auditPass
  have haside : R.SCU_SEAL_AUD_FAILING.aside = true := by decide
  grind [Latched.mk_, State.set_latch]

theorem State.auditResult_latch {z : State} (q : Quantity) (ok : Bool) (scope : List Nat) (hk : Latched z) :
    Latched (State.auditResult z q ok scope) := by
  unfold State.auditResult
  grind [Latched.mk_, State.auditFail_latch, State.auditPass_latch]

theorem State.sealPages_latch {z : State}  (hk : Latched z) :
    Latched (State.sealPages z) := by
  unfold State.sealPages
  grind [Latched.mk_, State.auditPages_latch, State.auditResult_latch]

theorem State.sealTokens_latch {z : State}  (hk : Latched z) :
    Latched (State.sealTokens z) := by
  unfold State.sealTokens
  grind [Latched.mk_, State.auditFail_latch, State.auditPass_latch, State.auditTokens_latch]

theorem State.sealAudits_latch {z : State}  (hk : Latched z) :
    Latched (State.sealAudits z) := by
  unfold State.sealAudits
  grind [Latched.mk_, State.auditResult_latch, State.auditSlabs_latch, State.sealPages_latch, State.sealTokens_latch]

theorem State.snapshot_latch {z : State} (n b : Nat) (hk : Latched z) :
    Latched (State.snapshot z n b) := by
  unfold State.snapshot
  have haside : R.SCU_SEAL_ST_SNAP_COUNT.aside = true ∧ R.SCU_SEAL_ST_SNAP_BAND_BAND.aside = true := by decide
  grind [Latched.mk_, State.add_latch, State.each_latch, State.setSeal_latch, State.set_latch]

/-! ### HlfOps -/

theorem State.setLane_latch {z : State} (l : Nat) (x : Lane) (hk : Latched z) :
    Latched (State.setLane z l x) := by
  unfold State.setLane
  grind [Latched.mk_]

theorem State.setHead_latch {z : State} (p : Nat) (x : Head) (hk : Latched z) :
    Latched (State.setHead z p x) := by
  unfold State.setHead
  grind [Latched.mk_]

theorem State.coded_latch {z : State} (l : Nat) (bs : List LinkBlock) (hk : Latched z) :
    Latched (State.coded z l bs).2 := by
  unfold State.coded
  grind [Latched.mk_, State.setLane_latch]

theorem State.sendBlock_latch {z : State} (l kind body : Nat) (hk : Latched z) :
    Latched (State.sendBlock z l kind body) := by
  unfold State.sendBlock
  grind [Latched.mk_, State.coded_latch, State.emit_latch]

theorem State.sendPacket_latch {z : State} (l hdr : Nat) (data : List Nat) (hk : Latched z) :
    Latched (State.sendPacket z l hdr data) := by
  unfold State.sendPacket
  grind [Latched.mk_, State.coded_latch, State.emit_latch]

theorem State.syncLead_latch {z : State} (n : Nat) (hk : Latched z) :
    Latched (State.syncLead z n) := by
  unfold State.syncLead
  have haside : R.LTU_ST_STATUS_LEAD.aside = true := by decide
  grind [Latched.mk_, State.set_latch]

theorem State.sendDue_latch {z : State} (l : Nat) (now : Int) (hk : Latched z) :
    Latched (State.sendDue z l now) := by
  unfold State.sendDue
  grind [Latched.mk_, State.coded_latch, State.each_latch, State.emit_latch, State.setLane_latch]

theorem State.sendTiming_latch {z : State} (p kind n : Nat) (inst now : Int) (hk : Latched z) :
    Latched (State.sendTiming z p kind n inst now) := by
  unfold State.sendTiming
  grind [Latched.mk_, State.each_latch, State.sendDue_latch, State.setLane_latch]

theorem State.sendHead_latch {z : State} (p : Nat) (now : Int) (hk : Latched z) :
    Latched (State.sendHead z p now) := by
  unfold State.sendHead
  grind [Latched.mk_, State.each_latch, State.sendDue_latch]

theorem State.returnCredits_latch {z : State} (l n : Nat) (hk : Latched z) :
    Latched (State.returnCredits z l n) := by
  unfold State.returnCredits
  have haside : R.HLF_LANE_CREDIT_RETURNED.aside = true := by decide
  grind [Latched.mk_, State.add_latch, State.sendBlock_latch]

theorem State.dropOn_latch {z : State} (l : Nat) (hk : Latched z) :
    Latched (State.dropOn z l) := by
  unfold State.dropOn
  have haside : R.HLF_LANE_DROP_COUNT.aside = true := by decide
  grind [Latched.mk_, State.add_latch]

theorem State.creditInit_latch {z : State} (l : Nat) (hk : Latched z) :
    Latched (State.creditInit z l) := by
  unfold State.creditInit
  have haside : R.HLF_LANE_CREDIT_RETURNED.aside = true := by decide
  grind [Latched.mk_, State.sendBlock_latch, State.setLane_latch, State.set_latch]

theorem State.setPort_latch {z : State} (p st : Nat) (hk : Latched z) :
    Latched (State.setPort z p st) := by
  unfold State.setPort
  have haside : R.HLF_PORT_STATE_STATE.aside = true ∧ R.HLF_PORT_STATE_CHANGED.aside = true := by decide
  grind [Latched.mk_, State.emit_latch, State.set_latch]

theorem State.bond_latch {z : State} (p l : Nat) (hk : Latched z) :
    Latched (State.bond z p l) := by
  unfold State.bond
  have haside : R.HLF_PORT_STATE_PRIMARY.aside = true := by decide
  grind [Latched.mk_, State.each_latch, State.setPort_latch, State.set_latch]

theorem State.loosen_latch {z : State} (p : Nat) (hk : Latched z) :
    Latched (State.loosen z p) := by
  unfold State.loosen
  grind [Latched.mk_, State.each_latch, State.setPort_latch]

theorem State.unbond_latch {z : State} (p : Nat) (hk : Latched z) :
    Latched (State.unbond z p) := by
  unfold State.unbond
  have haside : R.HLF_PORT_STATE_PRIMARY.aside = true := by decide
  grind [Latched.mk_, State.each_latch, State.loosen_latch, State.set_latch]

theorem State.endCfg_latch {z : State} (code : Nat) (hk : Latched z) :
    Latched (State.endCfg z code) := by
  unfold State.endCfg
  have haside : R.HLF_CFG_CMD_BUSY.aside = true ∧ R.HLF_CFG_CMD_STATUS.aside = true := by decide
  grind [Latched.mk_, State.set_latch]

theorem State.leaveActive_latch {z : State} (p : Nat) (hk : Latched z) :
    Latched (State.leaveActive z p) := by
  unfold State.leaveActive
  grind [Latched.mk_, State.endCapture_latch, State.endCfg_latch, State.loosen_latch, State.setHead_latch]

theorem State.quietLanes_latch {z : State} (ls : List Nat) (hk : Latched z) :
    Latched (State.quietLanes z ls) := by
  unfold State.quietLanes
  have haside : R.HLF_LANE_STATUS_ACTIVE.aside = true ∧ R.HLF_LANE_STATUS_RETRAINING.aside = true ∧
      R.HLF_LANE_AUDIT_RESYNC.aside = true ∧ R.HLF_LANE_STATUS_LOCK.aside = true := by decide
  grind [Latched.mk_, State.each_latch, State.setLane_latch, State.set_latch]

theorem State.portLeaves_latch {z : State} (p st : Nat) (hk : Latched z) :
    Latched (State.portLeaves z p st) := by
  unfold State.portLeaves
  have haside : R.HLF_LANE_CREDIT_OCCUPIED.aside = true ∧ R.HLF_PORT_MODE_VERSION.aside = true ∧ R.HLF_PORT_MODE_LANES.aside = true ∧
      R.HLF_PORT_MODE_RATE.aside = true := by decide
  grind [Latched.mk_, State.each_latch, State.leaveActive_latch, State.quietLanes_latch, State.setHead_latch, State.setPort_latch,
    State.set_latch, State.unbond_latch]

theorem State.startDiscover_latch {z : State} (p : Nat) (hk : Latched z) :
    Latched (State.startDiscover z p) := by
  unfold State.startDiscover
  grind [Latched.mk_, State.setHead_latch, State.setPort_latch]

theorem State.renegotiate_latch {z : State} (p : Nat) (hk : Latched z) :
    Latched (State.renegotiate z p) := by
  unfold State.renegotiate
  grind [Latched.mk_, State.portLeaves_latch, State.setHead_latch, State.startDiscover_latch]

theorem State.nextCandidate_latch {z : State} (p : Nat) (hk : Latched z) :
    Latched (State.nextCandidate z p) := by
  unfold State.nextCandidate
  have haside : R.HLF_PORT_STATE_LAST_STATUS.aside = true := by decide
  grind [Latched.mk_, State.quietLanes_latch, State.sendPacket_latch, State.setHead_latch, State.setPort_latch, State.set_latch,
    State.unbond_latch]

theorem State.takeCap_latch {z : State} (p : Nat) (cap : List Nat) (hk : Latched z) :
    Latched (State.takeCap z p cap) := by
  unfold State.takeCap
  have haside : R.HLF_PORT_STATE_LAST_STATUS.aside = true := by decide
  grind [Latched.mk_, State.nextCandidate_latch, State.setHead_latch, State.setPort_latch, State.set_latch]

theorem State.switchMode_latch {z : State} (p : Nat) (t : Int) (hk : Latched z) :
    Latched (State.switchMode z p t) := by
  unfold State.switchMode
  have haside : R.HLF_LANE_STATUS_LOCK.aside = true := by decide
  grind [Latched.mk_, State.bond_latch, State.each_latch, State.sendBlock_latch, State.setHead_latch, State.setLane_latch, State.set_latch]

theorem State.sendEcho_latch {z : State} (l : Nat) (hk : Latched z) :
    Latched (State.sendEcho z l) := by
  unfold State.sendEcho
  grind [Latched.mk_, State.sendBlock_latch, State.setLane_latch]

theorem State.startPrbs_latch {z : State} (l : Nat) (hk : Latched z) :
    Latched (State.startPrbs z l) := by
  unfold State.startPrbs
  have haside : R.HLF_LANE_STATUS_LOCK.aside = true := by decide
  grind [Latched.mk_, State.sendBlock_latch, State.setLane_latch, State.set_latch]

theorem State.checkSwitch_latch {z : State} (p : Nat) (hk : Latched z) :
    Latched (State.checkSwitch z p) := by
  unfold State.checkSwitch
  grind [Latched.mk_, State.each_latch, State.setPort_latch, State.startPrbs_latch]

theorem State.checkPrbs_latch {z : State} (p : Nat) (hk : Latched z) :
    Latched (State.checkPrbs z p) := by
  unfold State.checkPrbs
  grind [Latched.mk_, State.each_latch, State.nextCandidate_latch, State.sendEcho_latch, State.setPort_latch]

theorem State.checkLanePrbs_latch {z : State} (l : Nat) (hk : Latched z) :
    Latched (State.checkLanePrbs z l) := by
  unfold State.checkLanePrbs
  grind [Latched.mk_, State.sendEcho_latch]

theorem State.checkDelay_latch {z : State} (p : Nat) (hk : Latched z) :
    Latched (State.checkDelay z p) := by
  unfold State.checkDelay
  grind [Latched.mk_, State.creditInit_latch, State.each_latch, State.setPort_latch]

theorem State.nextRequest_latch {z : State} (p : Nat) (hk : Latched z) :
    Latched (State.nextRequest z p) := by
  unfold State.nextRequest
  grind [Latched.mk_, State.sendPacket_latch, State.setHead_latch]

theorem State.cfgResponse_latch {z : State} (p tag code data : Nat) (hk : Latched z) :
    Latched (State.cfgResponse z p tag code data) := by
  unfold State.cfgResponse
  have haside : R.HLF_CFG_DATA_DATA.aside = true := by decide
  grind [Latched.mk_, State.endCfg_latch, State.nextRequest_latch, State.setHead_latch, State.set_latch]

theorem State.enterActive_latch {z : State} (p : Nat) (hk : Latched z) :
    Latched (State.enterActive z p) := by
  unfold State.enterActive
  have haside : R.HLF_PORT_MODE_VERSION.aside = true ∧ R.HLF_PORT_MODE_LANES.aside = true ∧ R.HLF_PORT_MODE_RATE.aside = true ∧
      R.HLF_PORT_MODE_DEPTH.aside = true ∧ R.HLF_PORT_GEOM_COLUMNS.aside = true ∧ R.HLF_PORT_GEOM_PLANES.aside = true ∧
      R.HLF_PORT_ID_SERIAL.aside = true ∧ R.HLF_PORT_FW_FW.aside = true ∧ R.HLF_PORT_VENDOR_VENDOR.aside = true ∧
      R.HLF_PORT_VENDOR_MODEL.aside = true ∧ R.HLF_PORT_STATE_LAST_STATUS.aside = true := by decide
  grind [Latched.mk_, State.nextRequest_latch, State.setHead_latch, State.setPort_latch, State.set_latch, State.syncLead_latch]

theorem State.initAck_latch {z : State} (l : Nat) (hk : Latched z) :
    Latched (State.initAck z l) := by
  unfold State.initAck
  have haside : R.HLF_LANE_AUDIT_RESYNC.aside = true ∧ R.HLF_LANE_STATUS_RETRAINING.aside = true ∧
      R.HLF_LANE_STATUS_ACTIVE.aside = true := by decide
  grind [Latched.mk_, State.bond_latch, State.enterActive_latch, State.setLane_latch, State.setPort_latch, State.set_latch]

theorem State.retrainLane_latch {z : State} (l : Nat) (tell : Bool) (hk : Latched z) :
    Latched (State.retrainLane z l tell) := by
  unfold State.retrainLane
  have haside : R.HLF_LANE_STATUS_RETRAINING.aside = true ∧ R.HLF_LANE_STATUS_ACTIVE.aside = true ∧
      R.HLF_LANE_AUDIT_RESYNC.aside = true ∧ R.HLF_LANE_STATUS_LOCK.aside = true := by decide
  grind [Latched.mk_, State.leaveActive_latch, State.sendBlock_latch, State.setLane_latch, State.setPort_latch, State.set_latch]

theorem State.creditFail_latch {z : State} (l : Nat) (hk : Latched z) :
    Latched (State.creditFail z l) := by
  unfold State.creditFail
  have haside : R.HLF_LANE_AUDIT_FAIL.aside = true := by decide
  grind [Latched.mk_, State.auditFail_latch, State.raise_latch, State.retrainLane_latch, State.setLane_latch, State.set_latch]

theorem State.creditAudit_latch {z : State} (l held rxRet : Nat) (hk : Latched z) :
    Latched (State.creditAudit z l held rxRet) := by
  unfold State.creditAudit
  have haside : R.HLF_LANE_AUDIT_HELD.aside = true ∧ R.HLF_LANE_AUDIT_DIFF.aside = true := by decide
  grind [Latched.mk_, State.auditPass_latch, State.creditFail_latch, State.setLane_latch, State.setS_latch, State.set_latch]

theorem State.sendNak_latch {z : State} (l : Nat) (hk : Latched z) :
    Latched (State.sendNak z l) := by
  unfold State.sendNak
  have haside : R.HLF_LANE_REPLAY_COUNT.aside = true := by decide
  grind [Latched.mk_, State.add_latch, State.sendBlock_latch, State.setLane_latch]

theorem State.countBad_latch {z : State} (l type : Nat) (k : Packet) (hk : Latched z) :
    Latched (State.countBad z l type k) := by
  unfold State.countBad
  have haside : R.HLF_LANE_CRC_COUNT.aside = true := by decide
  grind [Latched.mk_, State.add_latch, State.dropOn_latch, State.retrainLane_latch, State.setLane_latch]

theorem State.refuseSeq_latch {z : State} (l seq : Nat) (hk : Latched z) :
    Latched (State.refuseSeq z l seq) := by
  unfold State.refuseSeq
  grind [Latched.mk_, State.retrainLane_latch, State.setLane_latch]

theorem State.receive_latch {z : State} (l type : Nat) (k : Packet) (hk : Latched z) :
    Latched (State.receive z l type k).2 := by
  unfold State.receive
  grind [Latched.mk_, State.countBad_latch, State.refuseSeq_latch, State.returnCredits_latch, State.sendBlock_latch, State.sendNak_latch,
    State.setLane_latch]

theorem State.packetIn_latch {z : State} (l type : Nat) (k : Packet) (hk : Latched z) :
    Latched (State.packetIn z l type k).2 := by
  unfold State.packetIn
  grind [Latched.mk_, State.creditFail_latch, State.dropOn_latch, State.receive_latch, State.returnCredits_latch]

theorem State.setHeadLine_latch {z : State} (p n : Nat) (x : HeadLine) (hk : Latched z) :
    Latched (State.setHeadLine z p n x) := by
  unfold State.setHeadLine
  grind [Latched.mk_, State.setHead_latch]

theorem State.handOn_latch {z : State} (p : Nat) (p0 : Nat) (hk : Latched z) :
    Latched (State.handOn z p p0) := by
  induction p0 generalizing z <;> grind [State.handOn, Latched.mk_, State.presentItem_latch, State.setHead_latch]

theorem State.lineReady_latch {z : State} (p n : Nat) (filled skipped : Bool) (ys : List Nat) (hk : Latched z) :
    Latched (State.lineReady z p n filled skipped ys) := by
  unfold State.lineReady
  grind [Latched.mk_, State.handOn_latch, State.setHeadLine_latch, State.setHead_latch]

theorem State.fillLine_latch {z : State} (p n : Nat) (skipped : Bool) (hk : Latched z) :
    Latched (State.fillLine z p n skipped) := by
  unfold State.fillLine
  grind [Latched.mk_, State.lineReady_latch, State.raise_latch]

theorem State.assemble_latch {z : State} (l p : Nat) (h : PixHdr) (ys : List Nat) (t : Int) (hk : Latched z) :
    Latched (State.assemble z l p h ys t) := by
  unfold State.assemble
  grind [Latched.mk_, State.count_latch, State.dropOn_latch, State.fillLine_latch, State.lineReady_latch, State.setHeadLine_latch]

theorem State.drainLane_latch {z : State} (l : Nat) (p0 : Nat) (hk : Latched z) :
    Latched (State.drainLane z l p0) := by
  have haside : R.HLF_LANE_CREDIT_OCCUPIED.aside = true := by decide
  induction p0 generalizing z <;> grind [State.drainLane, Latched.mk_, State.assemble_latch, State.returnCredits_latch,
    State.setLane_latch, State.sub_latch]

theorem State.drainHead_latch {z : State} (p : Nat) (hk : Latched z) :
    Latched (State.drainHead z p) := by
  unfold State.drainHead
  grind [Latched.mk_, State.drainLane_latch, State.each_latch]

theorem State.restartHeads_latch {z : State} (st n : Nat) (fresh : Bool) (hk : Latched z) :
    Latched (State.restartHeads z st n fresh) := by
  unfold State.restartHeads
  grind [Latched.mk_, State.each_latch, State.setHeadLine_latch, State.setHead_latch]

theorem State.openLine_latch {z : State} (st n : Nat) (q : Int) (hk : Latched z) :
    Latched (State.openLine z st n q) := by
  unfold State.openLine
  grind [Latched.mk_, State.each_latch, State.setHeadLine_latch]

/-! ### IlcOps -/

theorem State.swapBank_latch {z : State} (g n : Nat) (hk : Latched z) :
    Latched (State.swapBank z g n) := by
  unfold State.swapBank
  have haside : R.ILC_GRP_BANK_ACTIVE.aside = true ∧ R.ILC_GRP_BANK_PENDING.aside = true := by decide
  grind [Latched.mk_, State.raise_latch, State.setGrp_latch, State.set_latch, State.syncBank_latch]

theorem State.armBanks_latch {z : State} (n w : Nat) (hk : Latched z) :
    Latched (State.armBanks z n w) := by
  unfold State.armBanks
  have haside : R.ILC_GRP_BANK_ACTIVE.aside = true ∧ R.ILC_GRP_CTRL_OFF_NOW.aside = true := by decide
  grind [Latched.mk_, State.each_latch, State.setChan_latch, State.setGrp_latch, State.set_latch, State.syncBank_latch]

theorem State.ilcTemp_latch {z : State} (g : Nat) (temp : Int) (flagged : Bool) (hk : Latched z) :
    Latched (State.ilcTemp z g temp flagged) := by
  unfold State.ilcTemp
  have haside : R.ILC_GRP_TCOMP_HOLD.aside = true ∧ R.ILC_GRP_TCOMP_TEMP.aside = true := by decide
  grind [Latched.mk_, State.raise_latch, State.setGrp_latch, State.setS_latch, State.set_latch]

theorem State.gateOn_latch {z : State} (c : Nat) (e : Int × Int) (level n : Nat) (hk : Latched z) :
    Latched (State.gateOn z c e level n) := by
  unfold State.gateOn
  grind [Latched.mk_, State.emit_latch, State.setChan_latch]

theorem State.gatesLow_latch {z : State} (cs : List Nat) (hk : Latched z) :
    Latched (State.gatesLow z cs) := by
  unfold State.gatesLow
  grind [Latched.mk_, State.each_latch, State.emit_latch, State.setChan_latch]

theorem State.dropBanks_latch {z : State} (n : Nat) (hk : Latched z) :
    Latched (State.dropBanks z n) := by
  unfold State.dropBanks
  have haside : R.ILC_GRP_BANK_PENDING.aside = true ∧ R.ILC_GRP_BANK_HELD.aside = true := by decide
  grind [Latched.mk_, State.each_latch, State.gatesLow_latch, State.setGrp_latch, State.set_latch]

theorem State.lightString_latch {z : State} (g c n : Nat) (t ss ee : Int) (hk : Latched z) :
    Latched (State.lightString z g c n t ss ee) := by
  unfold State.lightString
  have haside : R.ILC_STR_APPLIED_B.aside = true ∧ R.ILC_STR_APPLIED_COMP.aside = true ∧ R.ILC_STR_STATUS_MODE.aside = true ∧
      R.ILC_STR_STATUS_SINCE.aside = true := by decide
  grind [Latched.mk_, State.gateOn_latch, State.setChan_latch, State.setSat_latch, State.set_latch]

theorem State.countDeferred_latch {z : State} (g : Nat) (hk : Latched z) :
    Latched (State.countDeferred z g) := by
  unfold State.countDeferred
  have haside : R.ILC_GRP_DIAG_STARVED.aside = true := by decide
  grind [Latched.mk_, State.each_latch, State.raise_latch, State.setChan_latch, State.set_latch]

theorem State.illuminate_latch {z : State} (st n : Nat) (t ss ee : Int) (hk : Latched z) :
    Latched (State.illuminate z st n t ss ee) := by
  unfold State.illuminate
  have haside : R.ILC_GRP_CTRL_OFF_NOW.aside = true := by decide
  grind [Latched.mk_, State.countDeferred_latch, State.each_latch, State.lightString_latch, State.setGrp_latch, State.set_latch]

theorem State.syncFaulted_latch {z : State}  (hk : Latched z) :
    Latched (State.syncFaulted z) := by
  unfold State.syncFaulted
  have haside : R.ILC_STATUS_FAULTED.aside = true := by decide
  grind [Latched.mk_, State.set_latch]

theorem State.stringFault_latch {z : State} (c kind n : Nat) (hk : Latched z) :
    Latched (State.stringFault z c kind n) := by
  unfold State.stringFault
  have haside : R.ILC_STR_STATUS_FAULT.aside = true ∧ R.ILC_STR_STATUS_KIND.aside = true ∧ R.ILC_GRP_FAULT_STRING.aside = true ∧
      R.ILC_GRP_FAULT_KIND.aside = true ∧ R.ILC_GRP_FAULT_WPI.aside = true ∧ R.ILC_GRP_FAULT_NEW.aside = true := by decide
  grind [Latched.mk_, State.gatesLow_latch, State.raise_latch, State.set_latch, State.syncFaulted_latch]

/-! ### LtuOps -/

theorem State.setLtuVals_latch {z : State} (n : Nat) (v : List Nat) (hk : Latched z) :
    Latched (State.setLtuVals z n v) := by
  unfold State.setLtuVals
  have haside : R.LTU_ST_EXP_DELAY_TICKS.aside = true ∧ R.LTU_ST_EXP_LEN_TICKS.aside = true ∧ R.LTU_ST_EXP_MIN_TICKS.aside = true ∧
      R.LTU_ST_GUARD_NS.aside = true ∧ R.LTU_ST_READ_DELAY_TICKS.aside = true ∧ R.LTU_ST_CTRL_OVERRUN.aside = true ∧
      R.LTU_ST_MAXRATE_RATE.aside = true := by decide
  grind [Latched.mk_, State.set_latch]

theorem State.applyStaged_latch {z : State} (n l : Nat) (hk : Latched z) :
    Latched (State.applyStaged z n l) := by
  unfold State.applyStaged
  have haside : R.SMC_ST_STATE_STAGED.aside = true := by decide
  grind [Latched.mk_, State.setLst_latch, State.setLtuVals_latch, State.setStation_latch, State.set_latch]

theorem State.watchTarget_latch {z : State} (n : Nat) (p : Int) (hk : Latched z) :
    Latched (State.watchTarget z n p) := by
  unfold State.watchTarget
  grind [Latched.mk_, State.setLst_latch]

theorem State.watchFrom_latch {z : State} (n : Nat) (t : Int) (hk : Latched z) :
    Latched (State.watchFrom z n t) := by
  unfold State.watchFrom
  grind [Latched.mk_, State.setLst_latch]

theorem State.armMatch_latch {z : State} (n m : Nat) (hk : Latched z) :
    Latched (State.armMatch z n m) := by
  unfold State.armMatch
  have haside : R.LTU_ST_MATCH_M.aside = true ∧ R.LTU_ST_STATUS_MATCH_ARMED.aside = true := by decide
  grind [Latched.mk_, State.setLst_latch, State.set_latch]

theorem State.withdrawMatch_latch {z : State} (n : Nat) (hk : Latched z) :
    Latched (State.withdrawMatch z n) := by
  unfold State.withdrawMatch
  have haside : R.LTU_ST_STATUS_MATCH_ARMED.aside = true := by decide
  grind [Latched.mk_, State.setLst_latch, State.set_latch]

theorem State.useMatch_latch {z : State} (n : Nat) (hk : Latched z) :
    Latched (State.useMatch z n) := by
  unfold State.useMatch
  have haside : R.LTU_ST_STATUS_MATCH_ARMED.aside = true := by decide
  grind [Latched.mk_, State.setLst_latch, State.set_latch]

theorem State.rewindArm_latch {z : State} (n : Nat) (t : Int) (hk : Latched z) :
    Latched (State.rewindArm z n t) := by
  unfold State.rewindArm
  have haside : R.SST_ST_REW_STATUS_PHASE.aside = true := by decide
  grind [Latched.mk_, State.armMatch_latch, State.rewindFail_latch, State.set_latch]

theorem State.stepFour_latch {z : State} (n : Nat) (t : Int) (hk : Latched z) :
    Latched (State.stepFour z n t) := by
  unfold State.stepFour
  grind [Latched.mk_, State.rewindArm_latch]

theorem State.watchEntry_latch {z : State} (n : Nat) (p : Int) (hk : Latched z) :
    Latched (State.watchEntry z n p) := by
  unfold State.watchEntry
  grind [Latched.mk_, State.setSto_latch]

theorem State.noteTrigger_latch {z : State} (n l : Nat) (t : Int) (hk : Latched z) :
    Latched (State.noteTrigger z n l t) := by
  unfold State.noteTrigger
  grind [Latched.mk_, State.setSeal_latch]

theorem State.checkVelocity_latch {z : State} (n : Nat) (isMatch : Bool) (now : Int) (hk : Latched z) :
    Latched (State.checkVelocity z n isMatch now) := by
  unfold State.checkVelocity
  have haside : R.LTU_ST_STATUS_VEL_ERR.aside = true := by decide
  grind [Latched.mk_, State.raise_latch, State.setLst_latch, State.set_latch]

theorem State.writeDescriptor_latch {z : State} (n : Nat) (ws : List Nat) (hk : Latched z) :
    Latched (State.writeDescriptor z n ws).2 := by
  unfold State.writeDescriptor
  have haside : R.QMX_Q_STATUS_OVERFLOW.aside = true := by decide
  grind [Latched.mk_, State.presentItem_latch, State.queueEvent_latch, State.set_latch]

theorem State.skipLine_latch {z : State} (n l : Nat) (t : Int) (hk : Latched z) :
    Latched (State.skipLine z n l t) := by
  unfold State.skipLine
  have haside : R.LTU_ST_SKIP_COUNT.aside = true := by decide
  grind [Latched.mk_, State.add_latch, State.each_latch, State.fillLine_latch, State.noteTrigger_latch, State.raise_latch]

theorem State.fixLine_latch {z : State} (n : Nat) (l : CLine) (hk : Latched z) :
    Latched (State.fixLine z n l) := by
  unfold State.fixLine
  have haside : R.LTU_ST_CLIP_COUNT.aside = true := by decide
  grind [Latched.mk_, State.add_latch, State.each_latch, State.sendTiming_latch, State.setLst_latch]

theorem State.placeFirst_latch {z : State} (n : Nat) (t now : Int) (hk : Latched z) :
    Latched (State.placeFirst z n t now) := by
  unfold State.placeFirst
  have haside : R.LTU_ST_BASE_COUNT.aside = true ∧ R.LTU_ST_BASE_PHASE.aside = true := by decide
  grind [Latched.mk_, State.setLst_latch, State.setPos16_latch]

theorem State.takeBase_latch {z : State} (n : Nat) (t : Int) (hk : Latched z) :
    Latched (State.takeBase z n t) := by
  unfold State.takeBase
  have haside : R.LTU_ST_BASE_COUNT.aside = true ∧ R.LTU_ST_BASE_PHASE.aside = true := by decide
  grind [Latched.mk_, State.setLst_latch, State.setPos16_latch]

theorem State.commitLine_latch {z : State} (n : Nat) (t now : Int) (hk : Latched z) :
    Latched (State.commitLine z n t now).2 := by
  unfold State.commitLine
  have haside : R.LTU_ST_HOSTTRIG_PENDING.aside = true := by decide
  grind [Latched.mk_, State.applyStaged_latch, State.checkVelocity_latch, State.fixLine_latch, State.placeFirst_latch,
    State.setLst_latch, State.skipLine_latch, State.sub_latch, State.useMatch_latch, State.writeDescriptor_latch]

theorem State.syncPeriod_latch {z : State} (e : Nat) (t : Int) (hk : Latched z) :
    Latched (State.syncPeriod z e t) := by
  unfold State.syncPeriod
  have haside : R.LTU_ENC_PERIOD_PERIOD.aside = true := by decide
  grind [Latched.mk_, State.setSat_latch]

/-! ### MeasOps -/

/-- The twelve words of a digest end below the device state. -/
theorem State.eachDigestWord_latch {z : State} (f : Fld) (word : Nat → Nat)
    (hf : f.base + f.s1 * 12 < 0x5000 ∧ f.s2 = 0 ∧ f.lo = 0) (hk : Latched z) :
    Latched (State.each z (List.range 12) fun s i => s.set f (word i) i) := by
  refine State.each_latch_of_mem _ _ hk fun b i hi h => State.set_latch_of_key _ ?_ h
  have hstride : f.s1 * i ≤ f.s1 * 12 := Nat.mul_le_mul_left _ (Nat.le_of_lt (List.mem_range.1 hi))
  change (f.base + f.s1 * i + f.s2 * 0) * 32 + f.lo ≠ 0x5000 * 32
  omega

theorem State.syncMeas_latch {z : State} (hk : Latched z) : Latched (State.syncMeas z) :=
  State.eachDigestWord_latch R.SMC_MEAS_DATA_DIGEST _ (by decide) hk

theorem State.setMeas_latch {z : State} (i : Nat) (d : List Nat) (hk : Latched z) :
    Latched (State.setMeas z i d) := by
  unfold State.setMeas
  grind [Latched.mk_, State.syncMeas_latch]

/-! ### StitchOps -/

theorem State.syncAlignStore_latch {z : State}  (hk : Latched z) :
    Latched (State.syncAlignStore z) := by
  unfold State.syncAlignStore
  have haside : R.PCP_ALN_STORE_USED.aside = true := by decide
  grind [Latched.mk_, State.set_latch]

theorem State.handLine_latch {z : State} (n : Nat) (o : OpenLine) (hk : Latched z) :
    Latched (State.handLine z n o) := by
  unfold State.handLine
  grind [Latched.mk_, State.presentItem_latch, State.setPst_latch]

theorem State.flushWaiting_latch {z : State} (n : Nat) (p0 : List OpenLine) (hk : Latched z) :
    Latched (State.flushWaiting z n p0) := by
  induction p0 generalizing z <;> grind [State.flushWaiting, Latched.mk_, State.handLine_latch, State.setPst_latch]

theorem State.sendDovetail_latch {z : State} (n w : Nat) (planes : List (List Nat)) (hk : Latched z) :
    Latched (State.sendDovetail z n w planes) := by
  unfold State.sendDovetail
  grind [Latched.mk_, State.dovetailOut_latch]

theorem State.alignMeasure_latch {z : State} (p n : Nat) (hk : Latched z) :
    Latched (State.alignMeasure z p n) := by
  unfold State.alignMeasure
  have haside : R.PCP_ALN_MEAS_RES_SIXTEENTHS.aside = true ∧ R.PCP_ALN_MEAS_RES_LINE.aside = true ∧
      R.PCP_ALN_MEAS_RES_FOUND.aside = true := by decide
  grind [Latched.mk_, State.count_latch, State.each_latch, State.set_latch]

theorem State.dovetailMeasure_latch {z : State} (n w : Nat) (hk : Latched z) :
    Latched (State.dovetailMeasure z n w) := by
  unfold State.dovetailMeasure
  grind [Latched.mk_]

theorem State.takeDesc_latch {z : State} (n w : Nat) (p0 : Nat) (hk : Latched z) :
    Latched (State.takeDesc z n w p0).2 := by
  induction p0 generalizing z <;> grind [State.takeDesc, Latched.mk_, State.setPst_latch, State.takeDescriptor_latch]

theorem State.descFlags_latch {z : State} (n w : Nat) (hk : Latched z) :
    Latched (State.descFlags z n w).2 := by
  unfold State.descFlags
  grind [Latched.mk_, State.setPst_latch, State.takeDesc_latch]

theorem State.formLine_latch {z : State} (n w : Nat) (hk : Latched z) :
    Latched (State.formLine z n w) := by
  unfold State.formLine
  grind [Latched.mk_, State.descFlags_latch, State.dovetailMeasure_latch, State.flushWaiting_latch, State.handLine_latch,
    State.sendDovetail_latch, State.setPst_latch]

theorem State.formList_latch {z : State} (n : Nat) (p0 : List Nat) (hk : Latched z) :
    Latched (State.formList z n p0) := by
  induction p0 generalizing z <;> grind [State.formList, Latched.mk_, State.formLine_latch]

theorem State.formLines_latch {z : State} (n : Nat) (hk : Latched z) :
    Latched (State.formLines z n) := by
  unfold State.formLines
  grind [Latched.mk_, State.formList_latch]

theorem State.dovetailColumns_latch {z : State} (n w : Nat) (planes : List (List Nat)) (hk : Latched z) :
    Latched (State.dovetailColumns z n w planes) := by
  unfold State.dovetailColumns
  grind [Latched.mk_, State.flushWaiting_latch, State.setPst_latch]

/-! ### KruOps -/

theorem State.kelimErr_latch {z : State} (l : Nat) (hk : Latched z) :
    Latched (State.kelimErr z l) := by
  unfold State.kelimErr
  have haside : R.KRU_PORT_ERR_COUNT.aside = true := by decide
  grind [Latched.mk_, State.add_latch]

theorem State.kelimReturn_latch {z : State} (l n : Nat) (hk : Latched z) :
    Latched (State.kelimReturn z l n) := by
  unfold State.kelimReturn
  grind [Latched.mk_, State.sendKblock_latch, State.setKlane_latch]

theorem State.kelimInit_latch {z : State} (l : Nat) (hk : Latched z) :
    Latched (State.kelimInit z l) := by
  unfold State.kelimInit
  grind [Latched.mk_, State.sendKblock_latch, State.setKlane_latch]

theorem State.kelimRetrain_latch {z : State} (l : Nat) (tell : Bool) (hk : Latched z) :
    Latched (State.kelimRetrain z l tell) := by
  unfold State.kelimRetrain
  have haside : R.KRU_PORT_LANES_ACTIVE.aside = true := by decide
  grind [Latched.mk_, State.sendKblock_latch, State.setKlane_latch, State.set_latch]

theorem State.kelimRefuse_latch {z : State} (l seq : Nat) (hk : Latched z) :
    Latched (State.kelimRefuse z l seq) := by
  unfold State.kelimRefuse
  grind [Latched.mk_, State.kelimRetrain_latch, State.setKlane_latch]

theorem State.kelimNak_latch {z : State} (l : Nat) (hk : Latched z) :
    Latched (State.kelimNak z l) := by
  unfold State.kelimNak
  grind [Latched.mk_, State.sendKblock_latch, State.setKlane_latch]

theorem State.kelimCtl_latch {z : State} (l kind body : Nat) (hk : Latched z) :
    Latched (State.kelimCtl z l kind body) := by
  unfold State.kelimCtl
  grind [Latched.mk_, State.kelimAck_latch, State.kelimCredit_latch, State.kelimEcho_latch, State.kelimRetrain_latch]

theorem State.kelimTake_latch {z : State} (l : Nat) (k : KFrame) (hk : Latched z) :
    Latched (State.kelimTake z l k).2 := by
  unfold State.kelimTake
  grind [Latched.mk_, State.kelimErr_latch, State.kelimNak_latch, State.kelimRefuse_latch, State.kelimReturn_latch,
    State.sendKblock_latch, State.setKlane_latch]

theorem State.ahead_latch {z : State} (l : Nat) (ctl : List (BitVec 8 × BitVec 56)) (hk : Latched z) :
    Latched (State.ahead z l ctl) := by
  unfold State.ahead
  grind [Latched.mk_, State.each_latch, State.kelimCtl_latch]

theorem State.kelimRx_latch {z : State} (l : Nat) (k : KFrame) (kind : Nat) (lenOk : List Nat → Bool) (fwd : List Nat → List Nat)
    (act : KHdr → List Nat → State → State) (hk : Latched z)
    (hact : ∀ (x0 : KHdr) (x1 : List Nat) (x2 : State), Latched x2 → Latched (act x0 x1 x2)) :
    Latched (State.kelimRx z l k kind lenOk fwd act) := by
  unfold State.kelimRx
  grind [Latched.mk_, State.ahead_latch, State.kelimErr_latch, State.kelimOut_latch, State.kelimTake_latch]

theorem State.ringDeliver_latch {z : State} (kind : Nat) (h : KHdr) (data : List Nat) (own : State → State) (hk : Latched z)
    (hown : ∀ (x0 : State), Latched x0 → Latched (own x0)) :
    Latched (State.ringDeliver z kind h data own) := by
  unfold State.ringDeliver
  grind [Latched.mk_, State.ringOut_latch]

theorem State.syncMember_latch {z : State}  (hk : Latched z) :
    Latched (State.syncMember z) := by
  unfold State.syncMember
  have haside : R.KRU_MEMBER_INFO_ROLE.aside = true ∧ R.KRU_MEMBER_INFO_STATIONS.aside = true ∧
      R.KRU_MEMBER_INFO_ID.aside = true := by decide
  grind [Latched.mk_, State.set_latch]

theorem State.setRingState_latch {z : State} (st : Nat) (hk : Latched z) :
    Latched (State.setRingState z st) := by
  unfold State.setRingState
  have haside : R.KRU_STATUS_STATE.aside = true := by decide
  grind [Latched.mk_, State.set_latch]

theorem State.ringFail_latch {z : State} (c : Status) (hk : Latched z) :
    Latched (State.ringFail z c) := by
  unfold State.ringFail
  have haside : R.KRU_AUD_WINDOW.aside = true ∧ R.KRU_STATUS_LAST_STATUS.aside = true := by decide
  grind [Latched.mk_, State.setRingState_latch, State.set_latch]

theorem State.setNeighbours_latch {z : State} (members : Nat) (hk : Latched z) :
    Latched (State.setNeighbours z members) := by
  unfold State.setNeighbours
  have haside : R.KRU_PORT_STATUS_NEIGHBOUR.aside = true := by decide
  grind [Latched.mk_, State.set_latch]

theorem State.owedHinges_latch {z : State}  (hk : Latched z) :
    Latched (State.owedHinges z) := by
  unfold State.owedHinges
  grind [Latched.mk_, State.each_latch, State.ringSend_latch, State.setKst_latch]

theorem State.takeFormed_latch {z : State} (members : Nat) (chain : Bool) (nc : List Nat) (hk : Latched z) :
    Latched (State.takeFormed z members chain nc) := by
  unfold State.takeFormed
  have haside : R.KRU_AUD_WINDOW.aside = true := by decide
  grind [Latched.mk_, State.owedHinges_latch, State.reform_latch, State.setNeighbours_latch, State.setRingState_latch, State.set_latch,
    State.syncMember_latch]

theorem State.sendToken_latch {z : State} (n src : Nat) (t : KTok) (hk : Latched z) :
    Latched (State.sendToken z n src t) := by
  unfold State.sendToken
  grind [Latched.mk_, State.ringOut_latch]

theorem State.issueTokens_latch {z : State} (n : Nat) (p0 : Nat) (hk : Latched z) :
    Latched (State.issueTokens z n p0) := by
  have haside : R.KRU_TOK_ISSUED_COUNT.aside = true := by decide
  induction p0 generalizing z <;> grind [State.issueTokens, Latched.mk_, State.add_latch, State.count_latch, State.sendToken_latch,
    State.setKst_latch, State.syncFlight_latch]

theorem State.sendFormed_latch {z : State} (members : Nat) (hk : Latched z) :
    Latched (State.sendFormed z members) := by
  unfold State.sendFormed
  grind [Latched.mk_, State.ringSend_latch, State.takeFormed_latch]

theorem State.sendDiscover_latch {z : State} (next : Nat) (hk : Latched z) :
    Latched (State.sendDiscover z next) := by
  unfold State.sendDiscover
  have haside : R.KRU_STATUS_ID.aside = true := by decide
  grind [Latched.mk_, State.ringSend_latch, State.set_latch]

theorem State.sendRoster_latch {z : State}  (hk : Latched z) :
    Latched (State.sendRoster z) := by
  unfold State.sendRoster
  grind [Latched.mk_, State.ringSend_latch]

theorem State.checkFormed_latch {z : State}  (hk : Latched z) :
    Latched (State.checkFormed z) := by
  unfold State.checkFormed
  grind [Latched.mk_, State.sendFormed_latch]

theorem State.sendFold_latch {z : State} (pt : Nat) (hk : Latched z) :
    Latched (State.sendFold z pt) := by
  unfold State.sendFold
  grind [Latched.mk_, State.ringSend_latch]

theorem State.noteFold_latch {z : State} (id pt : Nat) (hk : Latched z) :
    Latched (State.noteFold z id pt) := by
  unfold State.noteFold
  grind [Latched.mk_]

theorem State.foldOpen_latch {z : State}  (hk : Latched z) :
    Latched (State.foldOpen z) := by
  unfold State.foldOpen
  grind [Latched.mk_, State.each_latch, State.noteFold_latch, State.sendFold_latch]

theorem State.tryDiscover_latch {z : State}  (hk : Latched z) :
    Latched (State.tryDiscover z) := by
  unfold State.tryDiscover
  grind [Latched.mk_, State.foldOpen_latch, State.sendDiscover_latch]

theorem State.rediscover_latch {z : State}  (hk : Latched z) :
    Latched (State.rediscover z) := by
  unfold State.rediscover
  grind [Latched.mk_, State.sendDiscover_latch]

theorem State.portLost_latch {z : State} (pt st : Nat) (hk : Latched z) :
    Latched (State.portLost z pt st) := by
  unfold State.portLost
  have haside : R.KRU_AUD_WINDOW.aside = true := by decide
  grind [Latched.mk_, State.dropTokens_latch, State.foldOpen_latch, State.noteFold_latch, State.reform_latch, State.sendFold_latch,
    State.setKport_latch, State.setRingState_latch, State.set_latch, State.tryDiscover_latch]

theorem State.portUp_latch {z : State} (pt : Nat) (hk : Latched z) :
    Latched (State.portUp z pt) := by
  unfold State.portUp
  have haside : R.KRU_PORT_STATUS_LAST_STATUS.aside = true := by decide
  grind [Latched.mk_, State.noteFold_latch, State.rediscover_latch, State.reform_latch, State.sendFold_latch, State.setKport_latch,
    State.setRingState_latch, State.set_latch, State.tryDiscover_latch]

theorem State.admitPort_latch {z : State} (pt : Nat) (hk : Latched z) :
    Latched (State.admitPort z pt) := by
  unfold State.admitPort
  grind [Latched.mk_, State.portUp_latch]

theorem State.admitLinks_latch {z : State}  (hk : Latched z) :
    Latched (State.admitLinks z) := by
  unfold State.admitLinks
  grind [Latched.mk_, State.admitPort_latch]

theorem State.sendAuth_latch {z : State} (pt : Nat) (msg : List Nat) (hk : Latched z) :
    Latched (State.sendAuth z pt msg) := by
  unfold State.sendAuth
  grind [Latched.mk_, State.kelimOut_latch]

theorem State.authStep_latch {z : State} (pt k : Nat) (hk : Latched z) :
    Latched (State.authStep z pt k) := by
  unfold State.authStep
  grind [Latched.mk_, State.sendAuth_latch, State.takeFresh_latch]

theorem State.refuseLink_latch {z : State} (pt : Nat) (hk : Latched z) :
    Latched (State.refuseLink z pt) := by
  unfold State.refuseLink
  have haside : R.KRU_PORT_STATUS_LAST_STATUS.aside = true := by decide
  grind [Latched.mk_, State.portLost_latch, State.raise_latch, State.set_latch]

theorem State.authAnswer_latch {z : State} (pt : Nat) (ok : Bool) (digest : List Nat) (serial : Nat) (hk : Latched z) :
    Latched (State.authAnswer z pt ok digest serial) := by
  unfold State.authAnswer
  grind [Latched.mk_, State.admitPort_latch, State.authStep_latch, State.refuseLink_latch]

theorem State.startTrain_latch {z : State} (pt : Nat) (hk : Latched z) :
    Latched (State.startTrain z pt) := by
  unfold State.startTrain
  grind [Latched.mk_, State.setKport_latch]

theorem State.trainLane_latch {z : State} (l errors : Nat) (hk : Latched z) :
    Latched (State.trainLane z l errors) := by
  unfold State.trainLane
  grind [Latched.mk_, State.sendKblock_latch, State.setKlane_latch]

theorem State.startKru_latch {z : State}  (hk : Latched z) :
    Latched (State.startKru z) := by
  unfold State.startKru
  have haside : R.KRU_STATUS_ROLE.aside = true := by decide
  grind [Latched.mk_, State.set_latch, State.startTrain_latch, State.syncMember_latch]

theorem State.stopKru_latch {z : State}  (hk : Latched z) :
    Latched (State.stopKru z) := by
  unfold State.stopKru
  have haside : R.KRU_PORT_LANES_ACTIVE.aside = true ∧ R.KRU_PORT_LANES_DELAY.aside = true ∧ R.KRU_PORT_STATUS_NEIGHBOUR.aside = true ∧
      R.KRU_STATUS_STATE.aside = true ∧ R.KRU_STATUS_ROLE.aside = true ∧ R.KRU_STATUS_ID.aside = true ∧
      R.KRU_AUD_WINDOW.aside = true := by decide
  grind [Latched.mk_, State.dropTokens_latch, State.setKport_latch, State.set_latch, State.syncMember_latch]

theorem State.sendAlignReq_latch {z : State} (n : Nat) (t : Int) (hk : Latched z) :
    Latched (State.sendAlignReq z n t) := by
  unfold State.sendAlignReq
  grind [Latched.mk_, State.ringSend_latch, State.setKst_latch]

theorem State.startAlign_latch {z : State} (n : Nat) (t : Int) (hk : Latched z) :
    Latched (State.startAlign z n t) := by
  unfold State.startAlign
  have haside : R.KRU_ST_STATUS_ALIGN.aside = true := by decide
  grind [Latched.mk_, State.sendAlignReq_latch, State.setKst_latch, State.set_latch]

theorem State.owedAligns_latch {z : State} (t : Int) (hk : Latched z) :
    Latched (State.owedAligns z t) := by
  unfold State.owedAligns
  grind [Latched.mk_, State.each_latch, State.sendAlignReq_latch]

theorem State.setOffset_latch {z : State} (n : Nat) (o base : Int) (hk : Latched z) :
    Latched (State.setOffset z n o base) := by
  unfold State.setOffset
  have haside : R.KRU_ST_OFS_COUNT.aside = true ∧ R.KRU_ST_OFS_PHASE.aside = true ∧ R.LTU_ST_BASE_COUNT.aside = true ∧
      R.LTU_ST_BASE_PHASE.aside = true := by decide
  grind [Latched.mk_, State.setKst_latch, State.setLst_latch, State.setPos16_latch]

theorem State.alignArmed_latch {z : State} (n : Nat) (o base t : Int) (hk : Latched z) :
    Latched (State.alignArmed z n o base t) := by
  unfold State.alignArmed
  have haside : R.KRU_ST_STATUS_ALIGN.aside = true ∧ R.KRU_ST_STATUS_LAST_STATUS.aside = true := by decide
  grind [Latched.mk_, State.enterSt_latch, State.raise_latch, State.setKst_latch, State.setOffset_latch, State.set_latch,
    State.syncHeld_latch, State.syncStore_latch]

theorem State.alignAgain_latch {z : State} (n : Nat) (o base : Int) (hk : Latched z) :
    Latched (State.alignAgain z n o base) := by
  unfold State.alignAgain
  have haside : R.KRU_ST_STATUS_ALIGN_ERR.aside = true := by decide
  grind [Latched.mk_, State.raise_latch, State.setKst_latch, State.setOffset_latch, State.set_latch]

theorem State.takeAlignSet_latch {z : State} (n : Nat) (c base t : Int) (hk : Latched z) :
    Latched (State.takeAlignSet z n c base t) := by
  unfold State.takeAlignSet
  grind [Latched.mk_, State.alignAgain_latch, State.alignArmed_latch]

theorem State.checkAlign_latch {z : State} (n : Nat) (t : Int) (hk : Latched z) :
    Latched (State.checkAlign z n t) := by
  unfold State.checkAlign
  grind [Latched.mk_, State.ringSend_latch, State.takeAlignSet_latch]

theorem State.sendHinge_latch {z : State} (n h : Nat) (vals : List Nat) (hk : Latched z) :
    Latched (State.sendHinge z n h vals) := by
  unfold State.sendHinge
  grind [Latched.mk_, State.ringSend_latch, State.setKst_latch]

/-! ### MailOps -/

theorem State.setRing_latch {z : State} (r : Nat) (x : Ring) (hk : Latched z) :
    Latched (State.setRing z r x) := by
  unfold State.setRing
  grind [Latched.mk_]

theorem State.takeCommand_latch {z : State} (r : Nat) (hk : Latched z) :
    Latched (State.takeCommand z r) := by
  unfold State.takeCommand
  have haside : R.SMC_MB_CMD_HEAD_HEAD.aside = true ∧ R.SMC_MB_STATUS_WAIT_RSP.aside = true ∧ R.SMC_MB_STATUS_BUSY.aside = true := by decide
  grind [Latched.mk_, State.setRing_latch, State.set_latch]

theorem State.respond_latch {z : State} (r op tag : Nat) (c : Status) (body : List Nat) (hk : Latched z) :
    Latched (State.respond z r op tag c body) := by
  unfold State.respond
  have haside : R.SMC_MB_RSP_TAIL_TAIL.aside = true ∧ R.SMC_MB_STATUS_BUSY.aside = true := by decide
  grind [Latched.mk_, Keeps.mbox_, State.raise_latch, State.set_latch]

theorem State.respondRefused_latch {z : State} (r op tag : Nat) (c : Status) (addr detail : Nat) (hk : Latched z) :
    Latched (State.respondRefused z r op tag c addr detail) := by
  unfold State.respondRefused
  have haside : R.SMC_MB_REFUSED_COUNT.aside = true ∧ R.SMC_MB_STATUS_LAST_STATUS.aside = true ∧
      R.SMC_MB_STATUS_LAST_OP.aside = true := by decide
  grind [Latched.mk_, State.add_latch, State.raise_latch, State.respond_latch, State.set_latch]

theorem State.judged_latch {z : State} (r op : Nat) (e : CmdEnd) (he : CmdEnd.Latched e) : CmdEnd.Latched (State.judged z r op e) := by
  unfold State.judged
  split
  · unfold CmdEnd.unless
    split
    · split <;> exact CmdEnd.latched_refused _ _ _
    · split
      · exact he
      · exact CmdEnd.latched_refused _ _ _
    · exact CmdEnd.latched_refused _ _ _
    · exact CmdEnd.latched_refused _ _ _
  · exact he

theorem State.waitRsp_latch {z : State} (r : Nat) (hk : Latched z) :
    Latched (State.waitRsp z r) := by
  unfold State.waitRsp
  have haside : R.SMC_MB_STATUS_WAIT_RSP.aside = true := by decide
  grind [Latched.mk_, State.set_latch]

theorem State.command_latch {z : State} (r op : Nat) (act : State → CmdEnd) (hk : Latched z)
    (hact : ∀ (x0 : State), Latched x0 → CmdEnd.Latched (act x0)) : Latched (State.command z r op act) := by
  have he := State.judged_latch (z := z) r op (act z) (hact z hk)
  unfold State.command
  dsimp only
  split
  · split
    · split <;> rename_i h <;> rw [h] at he
      · exact State.respondRefused_latch _ _ _ _ _ _ (State.takeCommand_latch _ hk)
      · exact State.respondRefused_latch _ _ _ _ _ _ (State.takeCommand_latch _ ((CmdEnd.latched_reported ..).1 he))
      · exact State.respond_latch _ _ _ _ _ (State.takeCommand_latch _ ((CmdEnd.latched_ok ..).1 he))
      · exact State.setRing_latch _ _ (State.takeCommand_latch _ ((CmdEnd.latched_later ..).1 he))
    · exact State.waitRsp_latch _ hk
  · exact hk

theorem State.endRun_latch {z : State} (r : Nat) (c : Status) (body : List Nat) (hk : Latched z) :
    Latched (State.endRun z r c body) := by
  unfold State.endRun
  grind [Latched.mk_, State.respondRefused_latch, State.respond_latch, State.setRing_latch]

theorem State.endRunning_latch {z : State} (r : Nat) (kind : Nat → Bool) (hk : Latched z) :
    Latched (State.endRunning z r kind) := by
  unfold State.endRunning
  grind [Latched.mk_, State.endRun_latch]

/-! ### FabricOps -/

theorem State.portWord_latch {z : State} (q : Nat) (hk : Latched z) :
    Latched (State.portWord z q).2 := by
  unfold State.portWord
  grind [Latched.mk_, State.readWord_latch]

theorem State.portTake_latch {z : State} (q : Nat) (hk : Latched z) :
    Latched (State.portTake z q) := by
  unfold State.portTake
  grind [Latched.mk_, State.setQueue_latch]

theorem State.modCell_latch {z : State} (e c : Nat) (f : Cell → Cell) (hk : Latched z) :
    Latched (State.modCell z e c f) := by
  unfold State.modCell
  grind [Latched.mk_, State.setEngine_latch]

theorem State.modEngine_latch {z : State} (e : Nat) (f : Engine → Engine) (hk : Latched z) :
    Latched (State.modEngine z e f) := by
  unfold State.modEngine
  grind [Latched.mk_, State.setEngine_latch]

theorem State.leadHeader_latch {z : State} (e w : Nat) (degraded : Bool) (hk : Latched z) :
    Latched (State.leadHeader z e w degraded) := by
  unfold State.leadHeader
  grind [Latched.mk_, State.each_latch, State.issueToken_latch, State.modEngine_latch, State.seqStep_latch, State.skipBands_latch]

theorem State.closeLead_latch {z : State} (e i : Nat) (last : Bool) (b : Nat) (hk : Latched z) :
    Latched (State.closeLead z e i last b) := by
  unfold State.closeLead
  grind [Latched.mk_, State.modEngine_latch]

theorem State.fireInput_latch {z : State} (e i : Nat) (hk : Latched z) :
    Latched (State.fireInput z e i) := by
  unfold State.fireInput
  grind [Latched.mk_, State.closeLead_latch, State.faultEngine_latch, State.leadHeader_latch, State.modCell_latch, State.modEngine_latch,
    State.portTake_latch, State.portWord_latch, State.retireVoids_latch]

theorem State.discardInput_latch {z : State} (e i : Nat) (hk : Latched z) :
    Latched (State.discardInput z e i) := by
  unfold State.discardInput
  grind [Latched.mk_, State.issueToken_latch, State.modCell_latch, State.modEngine_latch, State.portTake_latch, State.portWord_latch,
    State.retireVoids_latch, State.skipBands_latch]

theorem State.outMark_latch {z : State} (e i : Nat) (void : Bool) (hk : Latched z) :
    Latched (State.outMark z e i void) := by
  unfold State.outMark
  grind [Latched.mk_, State.count_latch, State.modCell_latch, State.passMark_latch, State.presentItem_latch]

theorem State.outRecord_latch {z : State} (e i : Nat) (words : List Nat) (hk : Latched z) :
    Latched (State.outRecord z e i words) := by
  unfold State.outRecord
  grind [Latched.mk_, State.count_latch, State.presentItem_latch]

theorem State.fireOutput_latch {z : State} (e i : Nat) (hk : Latched z) :
    Latched (State.fireOutput z e i) := by
  unfold State.fireOutput
  grind [Latched.mk_, State.modCell_latch, State.modEngine_latch, State.outMark_latch, State.outRecord_latch, State.presentWords_latch]

theorem State.countFiring_latch {z : State} (e c : Nat) (hk : Latched z) :
    Latched (State.countFiring z e c) := by
  unfold State.countFiring
  have haside : R.IEA_ENG_SLOTS.aside = true ∧ R.SCU_PACE_HS.aside = true := by decide
  grind [Latched.mk_, State.add_latch, State.setEngine_latch]

/-! ### ReloadOps -/

theorem State.syncCombo_latch {z : State}  (hk : Latched z) :
    Latched (State.syncCombo z) := by
  unfold State.syncCombo
  have haside : R.SMC_POLICY_UNVERIFIED_COMBO.aside = true := by decide
  grind [Latched.mk_, State.raise_latch, State.set_latch]

theorem State.setUnverified_latch {z : State} (v : Bool) (hk : Latched z) :
    Latched (State.setUnverified z v) := by
  unfold State.setUnverified
  have haside : R.SCU_IMG_STATUS_UNVERIFIED.aside = true ∧ R.SMC_POLICY_UNV_IMG.aside = true := by decide
  grind [Latched.mk_, State.set_latch, State.syncCombo_latch]

theorem State.imageRefused_latch {z : State} (f : ImgFail) (hk : Latched z) :
    Latched (State.imageRefused z f) := by
  unfold State.imageRefused
  have haside : R.SCU_IMG_STATUS_STATUS.aside = true ∧ R.SCU_IMG_STATUS_STAGE.aside = true ∧ R.SCU_IMG_STATUS_SECTION.aside = true ∧
      R.SCU_IMG_FAIL_OFF_OFFSET.aside = true ∧ R.SCU_IMG_STATUS_BUSY.aside = true ∧ R.SCU_IMG_REFUSED_COUNT.aside = true := by decide
  grind [Latched.mk_, State.add_latch, State.set_latch]

theorem State.imageOk_latch {z : State}  (hk : Latched z) :
    Latched (State.imageOk z) := by
  unfold State.imageOk
  have haside : R.SCU_IMG_STATUS_STATUS.aside = true ∧ R.SCU_IMG_STATUS_STAGE.aside = true ∧ R.SCU_IMG_STATUS_SECTION.aside = true ∧
      R.SCU_IMG_FAIL_OFF_OFFSET.aside = true ∧ R.SCU_IMG_STATUS_BUSY.aside = true := by decide
  grind [Latched.mk_, State.set_latch]

theorem State.setDigest_latch {z : State} (d : List Nat) (hk : Latched z) :
    Latched (State.setDigest z d) := by
  unfold State.setDigest
  have haside : R.SCU_IMG_DIGEST_DIGEST.aside = true := by decide
  grind [Latched.mk_, State.each_latch, State.set_latch, State.syncMeas_latch]

theorem State.unbind_latch {z : State} (e : Nat) (hk : Latched z) :
    Latched (State.unbind z e) := by
  unfold State.unbind
  have haside : R.IEA_ENG_CTRL_BOUND.aside = true ∧ R.IEA_ENG_CTRL_SIGMA.aside = true ∧ R.IEA_ENG_CTRL_STATION.aside = true ∧
      R.IEA_ENG_CTRL_LEAD.aside = true ∧ R.IEA_ENG_LS_USED_UNITS.aside = true ∧ R.IEA_ENG_OVF_PAGES.aside = true ∧
      R.IEA_ENG_OVF_PAGE.aside = true ∧ R.IEA_ENG_PORT_USED.aside = true ∧ R.IEA_CL_BOUND_MASK.aside = true := by decide
  grind [Latched.mk_, State.each_latch, State.resetEngine_latch, State.setEngState_latch, State.setEngine_latch, State.set_latch]

theorem State.configEngine_latch {z : State} (m : Image) (t : Topo) (hk : Latched z) :
    Latched (State.configEngine z m t) := by
  unfold State.configEngine
  have haside : R.IEA_ENG_CTRL_STATION.aside = true ∧ R.IEA_ENG_CTRL_BOUND.aside = true ∧ R.IEA_ENG_CTRL_SECURE.aside = true ∧
      R.IEA_ENG_CTRL_LEAD.aside = true ∧ R.IEA_ENG_CTRL_SIGMA.aside = true ∧ R.IEA_ENG_LS_USED_UNITS.aside = true ∧
      R.IEA_ENG_OVF_PAGE.aside = true ∧ R.IEA_ENG_OVF_PAGES.aside = true ∧ R.IEA_ENG_SEQ_INSTR.aside = true ∧
      R.IEA_ENG_PORT_QUEUE.aside = true ∧ R.IEA_ENG_PORT_DIR.aside = true ∧ R.IEA_ENG_PORT_USED.aside = true ∧
      R.IEA_CL_BOUND_MASK.aside = true := by decide
  grind [Latched.mk_, State.each_latch, State.setEngine_latch, State.set_latch]

theorem State.syncOvf_latch {z : State}  (hk : Latched z) :
    Latched (State.syncOvf z) := by
  unfold State.syncOvf
  have haside : R.IEA_OVF_USED_PAGES.aside = true := by decide
  grind [Latched.mk_, State.set_latch]

theorem State.configMapped_latch {z : State} (m : Image) (q : QMap) (hk : Latched z) :
    Latched (State.configMapped z m q) := by
  unfold State.configMapped
  grind [Latched.mk_, State.configQueue_latch, State.disableQueue_latch]

theorem State.writeLeaves_latch {z : State} (m : Image) (hk : Latched z) :
    Latched (State.writeLeaves z m) := by
  unfold State.writeLeaves
  have haside : R.PCP_LEAF_BASE_PAGE.aside = true ∧ R.PCP_LEAF_BASE_PAGES.aside = true ∧ R.PCP_LEAF_GEOM_COLUMNS.aside = true ∧
      R.PCP_LEAF_GEOM_PLANES.aside = true ∧ R.PCP_LEAF_DEFECTS_COUNT.aside = true := by decide
  grind [Latched.mk_, State.each_latch, State.putLeaf_latch, State.set_latch]

theorem State.commitImage_latch {z : State} (m : Image) (policy : Bool) (hk : Latched z) :
    Latched (State.commitImage z m policy) := by
  unfold State.commitImage
  have haside : R.SCU_IMG_ID.aside = true ∧ R.SCU_IMG_VER_VER.aside = true ∧ R.SCU_IMG_STATUS_IN_FORCE.aside = true := by decide
  grind [Latched.mk_, State.configEngine_latch, State.configMapped_latch, State.disableQueue_latch, State.each_latch,
    State.imageOk_latch, State.loadEngine_latch, State.reloadStore_latch, State.setDigest_latch, State.setUnverified_latch,
    State.set_latch, State.syncDev_latch, State.syncOvf_latch, State.unbind_latch, State.writeLeaves_latch]

theorem State.takeReload_latch {z : State} (m : Image) (running : Bool) (hk : Latched z) :
    Latched (State.takeReload z m running) := by
  unfold State.takeReload
  have haside : R.SCU_RLD_COUNT_COUNT.aside = true ∧ R.SCU_RLD_STATUS_DONE.aside = true ∧ R.SCU_RLD_STATUS_PHASE.aside = true ∧
      R.SCU_RLD_MASK_GROUPS.aside = true := by decide
  grind [Latched.mk_, State.add_latch, State.configEngine_latch, State.configMapped_latch, State.each_latch, State.enableQueue_latch,
    State.freshWriter_latch, State.loadEngine_latch, State.reloadStore_latch, State.runEngine_latch, State.setDigest_latch,
    State.setSto_latch, State.set_latch, State.syncOvf_latch, State.syncStore_latch]

theorem State.stageReload_latch {z : State} (m : Image) (hk : Latched z) :
    Latched (State.stageReload z m) := by
  unfold State.stageReload
  have haside : R.SCU_RLD_H.aside = true ∧ R.SCU_RLD_STATUS_PHASE.aside = true ∧ R.SCU_RLD_STATUS_STATION.aside = true ∧
      R.SCU_RLD_MASK_GROUPS.aside = true := by decide
  grind [Latched.mk_, State.imageOk_latch, State.imageRefused_latch, State.setSto_latch, State.setUnverified_latch, State.set_latch,
    State.syncStore_latch, State.takeReload_latch]

theorem State.checkReload_latch {z : State}  (hk : Latched z) :
    Latched (State.checkReload z) := by
  unfold State.checkReload
  have haside : R.SCU_RLD_STATUS_PHASE.aside = true ∧ R.IEA_ENG_STATUS_SEQ.aside = true := by decide
  grind [Latched.mk_, State.each_latch, State.flushOpen_latch, State.setEngState_latch, State.setSto_latch, State.set_latch]

end Sys2Proof.Machine
end

section
/-! PROOFS. Operations of runs, restarts, boot and registers keep the thermal latch, one lemma an operation (R524). -/

open Sys2Proof Sys2Proof.Stated

-- One proof at a time keeps the memory of the compile small.
set_option Elab.async false

namespace Sys2Proof.Machine

/-! ### StationOps -/

theorem State.autoDisable_latch {z : State} (q : Nat) (hk : Latched z) :
    Latched (State.autoDisable z q) := by
  unfold State.autoDisable
  grind [Latched.mk_, State.disableQueue_latch]

theorem State.dropProducts_latch {z : State} (n : Nat) (hk : Latched z) :
    Latched (State.dropProducts z n) := by
  unfold State.dropProducts
  have haside : R.PCP_DEC_SWAP_PENDING.aside = true := by decide
  grind [Latched.mk_, State.each_latch, State.setProd_latch, State.set_latch]

theorem State.dropStaged_latch {z : State} (n : Nat) (hk : Latched z) :
    Latched (State.dropStaged z n) := by
  unfold State.dropStaged
  have haside : R.SMC_ST_STATE_STAGED.aside = true := by decide
  grind [Latched.mk_, State.setStation_latch, State.set_latch]

theorem State.ringIdled_latch {z : State} (n : Nat) (hk : Latched z) :
    Latched (State.ringIdled z n) := by
  unfold State.ringIdled
  grind [Latched.mk_, State.admitLinks_latch, State.setKst_latch]

theorem State.freeAxis_latch {z : State} (n : Nat) (hk : Latched z) :
    Latched (State.freeAxis z n) := by
  unfold State.freeAxis
  grind [Latched.mk_, State.axisStop_latch, State.setAxis_latch]

theorem State.idleEntry_latch {z : State} (n : Nat) (hk : Latched z) :
    Latched (State.idleEntry z n) := by
  unfold State.idleEntry
  have haside : R.SMC_ST_STATE_HOLD.aside = true := by decide
  grind [Latched.mk_, State.autoDisable_latch, State.dropBanks_latch, State.dropProducts_latch, State.dropStaged_latch,
    State.dropSwaps_latch, State.each_latch, State.enterSt_latch, State.freeAxis_latch, State.loadEngine_latch, State.ringIdled_latch,
    State.setStation_latch, State.setSto_latch, State.set_latch, State.syncAlignStore_latch, State.syncHeld_latch,
    State.takeReload_latch, State.withdrawMatch_latch]

theorem State.flushAll_latch {z : State} (q : Nat) (hk : Latched z) :
    Latched (State.flushAll z q) := by
  unfold State.flushAll
  grind [Latched.mk_, State.flushOpen_latch, State.setQueue_latch]

theorem State.dropLines_latch {z : State} (n : Nat) (hk : Latched z) :
    Latched (State.dropLines z n) := by
  unfold State.dropLines
  grind [Latched.mk_, State.each_latch, State.setHead_latch]

theorem State.abortStation_latch {z : State} (n : Nat) (hk : Latched z) :
    Latched (State.abortStation z n) := by
  unfold State.abortStation
  have haside : R.SST_ST_REW_STATUS_PHASE.aside = true := by decide
  grind [Latched.mk_, State.dropLines_latch, State.each_latch, State.flushAll_latch, State.freshWriter_latch, State.idleEntry_latch,
    State.set_latch]

theorem State.finishAborts_latch {z : State}  (hk : Latched z) :
    Latched (State.finishAborts z) := by
  unfold State.finishAborts
  grind [Latched.mk_, State.each_latch, State.endRun_latch]

theorem State.enterFault_latch {z : State} (cause st : Nat) (hk : Latched z) : Latched (State.enterFault z cause st) := by
  unfold State.enterFault
  rw [if_pos (.inl hk)]
  exact hk

theorem State.checkDrained_latch {z : State} (n : Nat) (hk : Latched z) :
    Latched (State.checkDrained z n) := by
  unfold State.checkDrained
  grind [Latched.mk_, State.idleEntry_latch]

theorem State.enterDrain_latch {z : State} (n : Nat) (f : Option Nat) (hk : Latched z) :
    Latched (State.enterDrain z n f) := by
  unfold State.enterDrain
  have haside : R.SST_ST_REW_STATUS_PHASE.aside = true ∧ R.SMC_ST_STATE_HOLD.aside = true := by decide
  grind [Latched.mk_, State.checkDrained_latch, State.enterSt_latch, State.idleEntry_latch, State.setStation_latch, State.setSto_latch,
    State.set_latch, State.syncHeld_latch, State.syncStore_latch, State.withdrawMatch_latch]

theorem State.markLate_latch {z : State} (n b : Nat) (hk : Latched z) :
    Latched (State.markLate z n b) := by
  unfold State.markLate
  have haside : R.SCU_SEAL_ST_STATUS_LATE.aside = true := by decide
  grind [Latched.mk_, State.raise_latch, State.setSeal_latch, State.set_latch]

theorem State.sealBand_latch {z : State} (n b : Nat) (t : Int) (audited : Bool) (hk : Latched z) :
    Latched (State.sealBand z n b t audited) := by
  unfold State.sealBand
  have haside : R.SCU_SEAL_ST_HZN_BAND.aside = true ∧ R.SCU_SEAL_ST_STATUS_VALID.aside = true ∧ R.SCU_SEAL_ST_COUNT_COUNT.aside = true ∧
      R.SCU_SEAL_ST_LAT_NS.aside = true := by decide
  grind [Latched.mk_, State.add_latch, State.checkDrained_latch, State.countRecords_latch, State.count_latch, State.markLate_latch,
    State.raise_latch, State.setSat_latch, State.setSeal_latch, State.set_latch, State.snapshot_latch, State.syncHeld_latch]

/-! ### RestartOps -/

theorem State.loseUnit_latch {z : State} (a size u : Nat) (hk : Latched z) :
    Latched (State.loseUnit z a size u) := by
  unfold State.loseUnit
  grind [Latched.mk_, Keeps.hbm_]

theorem State.markLost_latch {z : State} (n home : Nat) (hk : Latched z) :
    Latched (State.markLost z n home) := by
  unfold State.markLost
  grind [Latched.mk_, Keeps.hbm_, State.count_latch]

theorem State.slotError_latch {z : State} (n home : Nat) (e : HbmErr) (hk : Latched z) :
    Latched (State.slotError z n home e) := by
  unfold State.slotError
  cases e with
  | none => exact hk
  | corrected => exact State.addSat_latch _ _ _ _ rfl hk
  | uncorrectable u =>
    dsimp only
    split
    · exact hk
    · exact State.raise_latch _ (State.addSat_latch _ _ _ _ rfl (State.markLost_latch _ _
        (State.each_latch _ _ hk fun _ _ h => State.loseUnit_latch _ _ _ h)))

theorem State.windowError_latch {z : State} (e : HbmErr) (hk : Latched z) :
    Latched (State.windowError z e) := by
  unfold State.windowError
  have haside : R.SST_ECC_CORR.aside = true := by decide
  grind [Latched.mk_, State.addSat_latch, State.each_latch, State.slotError_latch]

theorem State.sstDesc_latch {z : State} (n w : Nat) (p0 : Nat) (hk : Latched z) :
    Latched (State.sstDesc z n w p0).2 := by
  induction p0 generalizing z <;> grind [State.sstDesc, Latched.mk_, State.setSto_latch, State.takeDescriptor_latch]

theorem State.lineDesc_latch {z : State} (n w : Nat) (hk : Latched z) :
    Latched (State.lineDesc z n w).2 := by
  unfold State.lineDesc
  grind [Latched.mk_, State.setSto_latch, State.sstDesc_latch]

theorem State.takeLine_latch {z : State} (n : Nat) (hk : Latched z) :
    Latched (State.takeLine z n).2 := by
  unfold State.takeLine
  grind [Latched.mk_, State.lineDesc_latch, State.takeItem_latch]

theorem State.countLine_latch {z : State} (n b flags : Nat) (hk : Latched z) :
    Latched (State.countLine z n b flags) := by
  unfold State.countLine
  grind [Latched.mk_, State.count_latch]

theorem State.putLine_latch {z : State} (n flags : Nat) (samples : List Nat) (hk : Latched z) :
    Latched (State.putLine z n flags samples) := by
  unfold State.putLine
  have haside : R.SST_ST_WP.aside = true := by decide
  grind [Latched.mk_, State.countLine_latch, State.overrun_latch, State.sendScale_latch, State.setSto_latch, State.set_latch,
    State.shedAll_latch, State.syncStore_latch, State.writeSlot_latch]

theorem State.showSeam_latch {z : State} (n : Nat) (r : Nat × Nat × Nat) (hk : Latched z) :
    Latched (State.showSeam z n r) := by
  unfold State.showSeam
  have haside : R.SST_ST_SEAM_RES_RESULT.aside = true ∧ R.SST_ST_SEAM_RES_RHO.aside = true ∧
      R.SST_ST_SEAM_RES_LINES.aside = true := by decide
  grind [Latched.mk_, State.raise_latch, State.set_latch]

theorem State.handHistory_latch {z : State} (n : Nat) (hk : Latched z) :
    Latched (State.handHistory z n) := by
  unfold State.handHistory
  grind [Latched.mk_, State.each_latch, State.setProd_latch]

theorem State.seamCheck_latch {z : State} (n : Nat) (es : List (Nat × HbmErr)) (hk : Latched z) :
    Latched (State.seamCheck z n es) := by
  unfold State.seamCheck
  grind [Latched.mk_, State.each_latch, State.handHistory_latch, State.setSto_latch, State.showSeam_latch, State.slotError_latch,
    State.syncPages_latch]

theorem State.overlapLine_latch {z : State} (n w flags : Nat) (samples : List Nat) (es : List (Nat × HbmErr)) (hk : Latched z) :
    Latched (State.overlapLine z n w flags samples es) := by
  unfold State.overlapLine
  have haside : R.SST_ST_REW_STATUS_PHASE.aside = true := by decide
  grind [Latched.mk_, State.seamCheck_latch, State.setSto_latch, State.set_latch, State.syncPages_latch, State.writeSlot_latch]

theorem State.closeRestart_latch {z : State} (n : Nat) (hk : Latched z) :
    Latched (State.closeRestart z n).2 := by
  unfold State.closeRestart
  have haside : R.SST_ST_RESTARTS_COUNT.aside = true ∧ R.SST_ST_REW_STATUS_PHASE.aside = true := by decide
  grind [Latched.mk_, State.add_latch, State.handHistory_latch, State.setSto_latch, State.set_latch, State.showSeam_latch,
    State.sstSeam_latch]

theorem State.fillGap_latch {z : State} (n mark : Nat) (p0 : Nat) (hk : Latched z) : Latched (State.fillGap z n mark p0) := by
  induction p0 generalizing z mark with
  | zero => exact hk
  | succ k ih => exact ih _ (State.putLine_latch _ _ _ hk)

theorem State.storeLine_latch {z : State} (n w flags : Nat) (samples : List Nat) (es : List (Nat × HbmErr)) (hk : Latched z) :
    Latched (State.storeLine z n w flags samples es) := by
  unfold State.storeLine
  grind [Latched.mk_, State.closeRestart_latch, State.fillGap_latch, State.overlapLine_latch, State.putLine_latch]

theorem State.advanceQueue_latch {z : State} (n q l : Nat) (hk : Latched z) :
    Latched (State.advanceQueue z n q l) := by
  unfold State.advanceQueue
  grind [Latched.mk_, State.setSto_latch, State.syncStore_latch]

/-! ### ProductOps -/

theorem State.applyLeaves_latch {z : State} (q l : Nat) (hk : Latched z) :
    Latched (State.applyLeaves z q l) := by
  unfold State.applyLeaves
  have haside : R.PCP_DEC_LEAF_LEAF_X.aside = true ∧ R.PCP_DEC_LEAF_LEAF_Y.aside = true ∧ R.PCP_DEC_SWAP_PENDING.aside = true := by decide
  grind [Latched.mk_, State.set_latch]

theorem State.takeHistory_latch {z : State} (n q l : Nat) (hk : Latched z) :
    Latched (State.takeHistory z n q l) := by
  unfold State.takeHistory
  grind [Latched.mk_, State.setProd_latch]

theorem State.readProduct_latch {z : State} (n q l : Nat) (hk : Latched z) :
    Latched (State.readProduct z n q l) := by
  unfold State.readProduct
  grind [Latched.mk_, State.applyLeaves_latch, State.setProd_latch, State.takeHistory_latch]

theorem State.advanceProduct_latch {z : State} (n q l : Nat) (hk : Latched z) :
    Latched (State.advanceProduct z n q l) := by
  unfold State.advanceProduct
  grind [Latched.mk_, State.setProd_latch, State.setSto_latch, State.syncStore_latch]

theorem State.productStep_latch {z : State} (n q : Nat) (e : HbmErr) (hk : Latched z) : Latched (State.productStep z n q e) := by
  unfold State.productStep
  extract_lets l k s1 x taps cost s2 s3
  have h1 : Latched s1 := State.readProduct_latch _ _ _ (State.slotError_latch _ _ _ hk)
  have h3 : Latched s3 := State.presentItem_latch k (s1.frame n q l x.flags) h1
  split
  · exact hk
  · split
    · exact State.advanceProduct_latch _ _ _ hk
    · split
      · exact hk
      · split
        · split
          · exact State.advanceProduct_latch _ _ _ h3
          · exact State.setProd_latch _ _ h3
        · exact State.advanceProduct_latch _ _ _ h1

/-! ### RingOps -/

theorem State.ringAuditFail_latch {z : State} (bit : Fld) (hbit : bit.aside = true) (hk : Latched z) :
    Latched (State.ringAuditFail z bit) := by
  unfold State.ringAuditFail
  grind [Latched.mk_, State.auditFail_latch, State.raise_latch, State.set_latch]

theorem State.ringAuditFails_latch {z : State} (bits : List Fld) (hbits : ∀ f ∈ bits, f.aside = true) (hk : Latched z) :
    Latched (State.ringAuditFails z bits) :=
  State.auditFail_latch _ _ (State.raise_latch _ (State.each_latch_of_mem _ _ hk fun _ f hf h =>
    State.set_latch f _ _ _ (hbits f hf) h))

theorem State.auditToken_latch {z : State} (n : Nat) (k : KTok) (countBad : Bool) (hk : Latched z) :
    Latched (State.auditToken z n k countBad).2 := by
  unfold State.auditToken
  have haside : R.KRU_AUD_DUP.aside = true ∧ R.KRU_AUD_COUNT_ERR.aside = true ∧ R.KRU_AUD_MISMATCH.aside = true := by decide
  grind [Latched.mk_, State.auditPass_latch, State.countBad_latch, State.ringAuditFails_latch]

theorem State.sealNext_latch {z : State} (n b : Nat) (t : Int) (hk : Latched z) :
    Latched (State.sealNext z n b t) := by
  unfold State.sealNext
  grind [Latched.mk_, State.sealBand_latch, State.setSeal_latch]

theorem State.sealLate_latch {z : State} (n : Nat) (t : Int) (p0 : Nat) (hk : Latched z) :
    Latched (State.sealLate z n t p0) := by
  induction p0 generalizing z <;> grind [State.sealLate, Latched.mk_, State.sealNext_latch, State.setKst_latch]

theorem State.sealRing_latch {z : State} (n b : Nat) (t : Int) (hk : Latched z) :
    Latched (State.sealRing z n b t) := by
  unfold State.sealRing
  grind [Latched.mk_, State.sealLate_latch, State.setKst_latch]

theorem State.passHeld_latch {z : State} (n : Nat) (t : Int) (p0 : List KTok) (hk : Latched z) :
    Latched (State.passHeld z n t p0) := by
  induction p0 generalizing z <;> grind [State.passHeld, Latched.mk_, State.count_latch, State.sealRing_latch, State.sendToken_latch,
    State.setKst_latch]

theorem State.moveTokens_latch {z : State} (n : Nat) (t : Int) (hk : Latched z) :
    Latched (State.moveTokens z n t) := by
  unfold State.moveTokens
  grind [Latched.mk_, State.issueTokens_latch, State.passHeld_latch]

theorem State.tokenHome_latch {z : State} (n : Nat) (k : KTok) (t : Int) (hk : Latched z) :
    Latched (State.tokenHome z n k t) := by
  unfold State.tokenHome
  have haside : R.KRU_TOK_RETIRED_COUNT.aside = true := by decide
  grind [Latched.mk_, State.add_latch, State.auditToken_latch, State.count_latch, State.issueTokens_latch, State.moveTokens_latch,
    State.setKst_latch, State.syncFlight_latch]

theorem State.tokenPass_latch {z : State} (n src : Nat) (k : KTok) (t : Int) (hk : Latched z) :
    Latched (State.tokenPass z n src k t) := by
  unfold State.tokenPass
  grind [Latched.mk_, State.auditToken_latch, State.moveTokens_latch, State.sealRing_latch, State.sendToken_latch, State.setKst_latch]

theorem State.reissueTokens_latch {z : State}  (hk : Latched z) :
    Latched (State.reissueTokens z) := by
  unfold State.reissueTokens
  grind [Latched.mk_, State.each_latch, State.issueTokens_latch]

theorem State.alignFail_latch {z : State} (n : Nat) (c : Nat) (hk : Latched z) :
    Latched (State.alignFail z n c) := by
  unfold State.alignFail
  have haside : R.KRU_ST_STATUS_ALIGN.aside = true ∧ R.KRU_ST_STATUS_LAST_STATUS.aside = true := by decide
  grind [Latched.mk_, State.idleEntry_latch, State.setKst_latch, State.set_latch]

/-! ### VcoreOps -/

theorem State.stageChange_latch {z : State} (n h mask : Nat) (vals : List Nat) (hk : Latched z) :
    Latched (State.stageChange z n h mask vals).1 := by
  unfold State.stageChange
  have haside : R.SMC_ST_STATE_STAGED.aside = true := by decide
  grind [Latched.mk_, State.sendHinge_latch, State.setStation_latch, State.set_latch]

theorem State.addHinge_latch {z : State} (n h : Nat) (hk : Latched z) :
    Latched (State.addHinge z n h) := by
  unfold State.addHinge
  grind [Latched.mk_]

theorem State.finishStage_latch {z : State} (r : Nat) (hk : Latched z) :
    Latched (State.finishStage z r) := by
  unfold State.finishStage
  grind [Latched.mk_, State.addHinge_latch, State.endRun_latch, State.stageChange_latch]

theorem State.finishImage_latch {z : State}  (hk : Latched z) :
    Latched (State.finishImage z) := by
  unfold State.finishImage
  grind [Latched.mk_, State.addHinge_latch, State.stageReload_latch]

theorem State.bootStage4_latch {z : State}  (hk : Latched z) :
    Latched (State.bootStage4 z) := by
  unfold State.bootStage4
  have haside : R.SMC_BOOT_STATUS_STEP.aside = true := by decide
  grind [Latched.mk_, State.set_latch]

theorem State.completeWaits_latch {z : State}  (hk : Latched z) :
    Latched (State.completeWaits z) := by
  unfold State.completeWaits
  grind [Latched.mk_, State.bootStage4_latch, State.each_latch, State.finishImage_latch, State.finishStage_latch]

theorem State.failWaits_latch {z : State}  (hk : Latched z) :
    Latched (State.failWaits z) := by
  unfold State.failWaits
  have haside : R.SMC_VFIT_STATUS_FAIL.aside = true ∧ R.SMC_VFIT_CTRL_EN.aside = true ∧ R.SMC_VFIT_STATUS_STATE.aside = true := by decide
  grind [Latched.mk_, State.each_latch, State.endRun_latch, State.imageRefused_latch, State.set_latch]

theorem State.bootVcoreFail_latch {z : State}  (hk : Latched z) :
    Latched (State.bootVcoreFail z) := by
  unfold State.bootVcoreFail
  have haside : R.SMC_BOOT_STATUS_VCORE_FAIL.aside = true ∧ R.SMC_VFIT_STATUS_VSET.aside = true := by decide
  grind [Latched.mk_, State.bootStage4_latch, State.set_latch]

theorem State.raiseVmax_latch {z : State} (w : VWait) (hk : Latched z) :
    Latched (State.raiseVmax z w) := by
  unfold State.raiseVmax
  grind [Latched.mk_, State.writeVset_latch]

theorem State.startWindow_latch {z : State}  (hk : Latched z) :
    Latched (State.startWindow z) := by
  unfold State.startWindow
  grind [Latched.mk_]

theorem State.writeRate_latch {z : State} (d : Nat) (hk : Latched z) : Latched (State.writeRate z d) := by
  unfold State.writeRate
  dsimp only
  split
  · exact State.set_latch _ _ _ _ rfl hk
  · exact State.set_latch _ _ _ _ rfl (State.setSat_latch _ _ _ _ rfl hk)

theorem State.findDeficits_latch {z : State}  (hk : Latched z) :
    Latched (State.findDeficits z) := by
  unfold State.findDeficits
  grind [Latched.mk_, State.each_latch, State.raise_latch]

theorem State.moveCaps_latch {z : State} (t : Int) (hk : Latched z) :
    Latched (State.moveCaps z t) := by
  unfold State.moveCaps
  have haside : R.SST_ST_SCALE_CAP.aside = true := by decide
  grind [Latched.mk_, State.checkStop_latch, State.each_latch, State.set_latch, State.syncStore_latch]

theorem State.shedWeb_latch {z : State}  (hk : Latched z) :
    Latched (State.shedWeb z) := by
  unfold State.shedWeb
  grind [Latched.mk_, State.each_latch, State.shedTurn_latch]

theorem State.passHinges_latch {z : State}  (hk : Latched z) :
    Latched (State.passHinges z) := by
  unfold State.passHinges
  grind [Latched.mk_]

theorem State.stepVset_latch {z : State} (mv state : Nat) (hk : Latched z) :
    Latched (State.stepVset z mv state) := by
  unfold State.stepVset
  have haside : R.SMC_VFIT_STATUS_STATE.aside = true := by decide
  grind [Latched.mk_, State.set_latch, State.writeVset_latch]

theorem State.fitVoltage_latch {z : State}  (hk : Latched z) :
    Latched (State.fitVoltage z) := by
  unfold State.fitVoltage
  have haside : R.SMC_VFIT_STATUS_STATE.aside = true := by decide
  grind [Latched.mk_, State.set_latch, State.stepVset_latch]

theorem State.countHold_latch {z : State}  (hk : Latched z) :
    Latched (State.countHold z) := by
  unfold State.countHold
  grind [Latched.mk_]

/-! ### ArmOps -/

theorem State.armQueues_latch {z : State} (n : Nat) (hk : Latched z) : Latched (State.armQueues z n).2 := by
  have haside : R.QMX_Q_CFG_STATION.aside = true := by decide
  have hf : ∀ (qs : List Nat) (b : Bool) (a : Option Nat × State), Latched a.2 →
      Latched (qs.foldl (fun a q => State.armQueue a n q b) a).2 := by
    intro qs b
    induction qs with
    | nil => intro a h; exact h
    | cons q qs ih =>
      intro a h
      apply ih
      unfold State.armQueue
      grind [Latched.mk_, State.enableQueue_latch, State.configFixed_latch, State.set_latch]
  exact hf _ _ _ (hf _ _ _ hk)

theorem State.armLtu_latch {z : State} (n : Nat) (hk : Latched z) :
    Latched (State.armLtu z n) := by
  unfold State.armLtu
  have haside : R.LTU_ST_WPI.aside = true ∧ R.LTU_ST_STATUS_MATCH_ARMED.aside = true := by decide
  grind [Latched.mk_, State.setLst_latch, State.set_latch]

theorem State.armHeadsRun_latch {z : State} (n : Nat) (hk : Latched z) :
    Latched (State.armHeadsRun z n) := by
  unfold State.armHeadsRun
  grind [Latched.mk_, State.each_latch, State.restartHeads_latch, State.setPhead_latch]

theorem State.armGeometry_latch {z : State} (n : Nat) (hk : Latched z) :
    Latched (State.armGeometry z n) := by
  unfold State.armGeometry
  have haside : R.PCP_STC_ST_WIDTH_W.aside = true ∧ R.PCP_ALN_ST_SPAN_SPAN.aside = true ∧ R.SST_ST_GEOM_SLOT.aside = true ∧
      R.SST_ST_CAP_K.aside = true ∧ R.PCP_ALN_STORE_USED.aside = true := by decide
  grind [Latched.mk_, State.set_latch]

theorem State.armSst_latch {z : State} (n : Nat) (hk : Latched z) :
    Latched (State.armSst z n) := by
  unfold State.armSst
  have haside : R.SST_ST_WP.aside = true ∧ R.SST_ST_HOST_RP.aside = true ∧ R.SST_ST_SCALE_CAP.aside = true ∧
      R.SST_ST_REW_STATUS_PHASE.aside = true := by decide
  grind [Latched.mk_, State.each_latch, State.setProd_latch, State.setPst_latch, State.setSto_latch, State.set_latch]

theorem State.armSeal_latch {z : State} (n : Nat) (hk : Latched z) :
    Latched (State.armSeal z n) := by
  have hfields : ∀ f ∈ [R.SCU_SEAL_ST_STATUS_VALID, R.SCU_SEAL_ST_HZN_BAND, R.SCU_SEAL_ST_LOCAL_BAND, R.SCU_SEAL_ST_LAT_NS,
      R.SCU_SEAL_ST_COUNT_COUNT, R.SCU_SEAL_ST_SNAP_BAND_BAND], f.aside = true := by decide
  refine State.each_latch _ _ (State.each_latch_of_mem _ _ (State.setSeal_latch n {} hk) fun _ f hf h => ?_) fun _ _ h => ?_
  · exact State.set_latch f _ _ _ (hfields f hf) h
  · exact State.set_latch _ _ _ _ (by decide) h

theorem State.armStreams_latch {z : State} (n : Nat) (hk : Latched z) :
    Latched (State.armStreams z n) := by
  unfold State.armStreams
  grind [Latched.mk_, State.each_latch, State.setStream_latch]

theorem State.armKru_latch {z : State} (n : Nat) (t : Int) (hk : Latched z) :
    Latched (State.armKru z n t) := by
  unfold State.armKru
  have haside : R.KRU_ST_STATUS_NMAX.aside = true ∧ R.KRU_ST_STATUS_ALIGN.aside = true := by decide
  grind [Latched.mk_, State.setKst_latch, State.set_latch, State.startAlign_latch]

theorem State.armed_latch {z : State} (n : Nat) (t : Int) (hk : Latched z) :
    Latched (State.armed z n t) := by
  unfold State.armed
  grind [Latched.mk_, State.armBanks_latch, State.armEngine_latch, State.armGeometry_latch, State.armHeadsRun_latch, State.armKru_latch,
    State.armLtu_latch, State.armQueues_latch, State.armSeal_latch, State.armSst_latch, State.armStreams_latch, State.each_latch,
    State.enterSt_latch, State.setStation_latch, State.syncHeld_latch, State.syncLead_latch, State.syncStore_latch]

theorem State.noteArm_latch {z : State} (n : Nat) (c : Status) (hk : Latched z) :
    Latched (State.noteArm z n c) := by
  unfold State.noteArm
  have haside : R.KRU_ST_STATUS_LAST_STATUS.aside = true := by decide
  grind [Latched.mk_, State.set_latch]

theorem State.arm_latch {z : State} (n : Nat) (t : Int) (t2 : Option Nat) (west : Bool) (hk : Latched z) :
    CmdEnd.Latched (State.arm z n t t2 west) := by
  unfold State.arm
  have haside : R.SCU_ADM_COUNT_NOFIT.aside = true := by decide
  grind [Latched.mk_, CmdEnd.Latched, State.add_latch, State.admission_latch, State.armed_latch, State.noteArm_latch]

/-! ### HifOps -/

theorem State.syncStream_latch {z : State} (c : Nat) (hk : Latched z) :
    Latched (State.syncStream z c) := by
  unfold State.syncStream
  have haside : R.HIF_ST_STATUS_STATE.aside = true := by decide
  grind [Latched.mk_, State.set_latch]

theorem State.streamRefused_latch {z : State} (was : State) (w : World) (a c : Nat) (check : Option Status) (hk : Latched z) :
    Latched (State.streamRefused z was w a c check) := by
  unfold State.streamRefused
  have haside : R.HIF_ST_STATUS_LAST_STATUS.aside = true := by decide
  grind [Latched.mk_, State.set_latch]

theorem State.streamWrite_latch {z : State} (w : World) (id : RegId) (c v : Nat) (check : Option Status) (act : State → State)
    (hid : id.isWorldMap = false) (hk : Latched z) (hact : ∀ (x0 : State), Latched x0 → Latched (act x0)) :
    Latched (State.streamWrite z w id c v check act) := by
  unfold State.streamWrite
  have haside : R.HIF_STATUS_LAST_STATUS.aside = true := by decide
  grind [Latched.mk_, State.rowWrite_latch, State.streamRefused_latch]

theorem State.peek_latch {z : State} (q : Nat) (hk : Latched z) :
    Latched (State.peek z q).2 := by
  unfold State.peek
  grind [Latched.mk_, State.readWord_latch]

theorem State.dropIntake_latch {z : State} (q : Nat) (hk : Latched z) :
    Latched (State.dropIntake z q) := by
  unfold State.dropIntake
  grind [Latched.mk_, State.setQueue_latch]

theorem State.gather_latch {z : State} (q : Nat) (p0 : Nat) (p1 : List Nat) (hk : Latched z) :
    Latched (State.gather z q p0 p1).2.2 := by
  induction p0 generalizing z p1 with
  | zero => exact hk
  | succ n ih =>
    unfold State.gather
    have h1 := State.peek_latch q hk
    split
    · next h => rw [h] at h1; exact h1
    · next h =>
      rw [h] at h1
      split
      · split
        · exact State.dropIntake_latch _ h1
        · exact h1
      · split
        · exact State.dropIntake_latch _ h1
        · exact ih _ (State.dropIntake_latch _ h1)

theorem State.skipItem_latch {z : State} (q : Nat) (p0 : Nat) (hk : Latched z) :
    Latched (State.skipItem z q p0).2 := by
  induction p0 generalizing z <;> grind [State.skipItem, Latched.mk_, State.dropIntake_latch, State.peek_latch]

theorem State.pick_latch {z : State} (n b i : Nat) (p0 : List Nat) (hk : Latched z) :
    Latched (State.pick z n b i p0).2.2 := by
  induction p0 generalizing z i with
  | nil => exact hk
  | cons q qs ih =>
    unfold State.pick
    have h1 := State.peek_latch q hk
    split
    · next h =>
      rw [h] at h1
      dsimp only
      split
      · exact h1
      · exact ih _ h1
    · next h =>
      rw [h] at h1
      split
      · exact h1
      · exact ih _ h1

theorem State.completeDesc_latch {z : State} (c : Nat) (st : Status) (bandEnd irq : Bool) (hk : Latched z) :
    Latched (State.completeDesc z c st bandEnd irq) := by
  unfold State.completeDesc
  have haside : R.HIF_ST_HEAD_HEAD.aside = true ∧ R.HIF_ST_SEQ_SEQ.aside = true := by decide
  grind [Latched.mk_, State.add_latch, State.emit_latch, State.raise_latch, State.setStream_latch, State.set_latch]

theorem State.closeDesc_latch {z : State} (c : Nat) (bandEnd : Bool) (hk : Latched z) :
    Latched (State.closeDesc z c bandEnd) := by
  unfold State.closeDesc
  grind [Latched.mk_, State.completeDesc_latch]

theorem State.fetchDesc_latch {z : State} (c : Nat) (d : HostDesc) (hk : Latched z) :
    Latched (State.fetchDesc z c d).2 := by
  unfold State.fetchDesc
  grind [Latched.mk_, State.completeDesc_latch, State.setStream_latch]

theorem State.closeDgram_latch {z : State} (c : Nat) (bandEnd : Bool) (hk : Latched z) :
    Latched (State.closeDgram z c bandEnd) := by
  unfold State.closeDgram
  have haside : R.HIF_ST_SEQ_SEQ.aside = true := by decide
  grind [Latched.mk_, State.add_latch, State.setStream_latch]

theorem State.sendDgram_latch {z : State} (c : Nat) (t : Int) (hk : Latched z) :
    Latched (State.sendDgram z c t) := by
  unfold State.sendDgram
  grind [Latched.mk_, State.emit_latch, State.setStream_latch]

theorem State.leaveBand_latch {z : State} (c : Nat) (hk : Latched z) :
    Latched (State.leaveBand z c) := by
  unfold State.leaveBand
  have haside : R.HIF_ST_BAND.aside = true := by decide
  grind [Latched.mk_, State.setStream_latch, State.set_latch]

theorem State.frameChunk_latch {z : State} (c q b : Nat) (opens : Bool) (hk : Latched z) :
    Work.Latched (State.frameChunk z c q b opens) := by
  unfold State.frameChunk
  have := State.gather_latch q (z.get R.HIF_ST_CTRL_CHUNK c) [] hk
  grind [Latched.mk_, Work.Latched, State.setStream_latch, State.set_latch, State.add_latch]

theorem State.frameSnap_latch {z : State} (c b : Nat) (left : List Nat) (opens : Bool) (hk : Latched z) :
    Work.Latched (State.frameSnap z c b left opens) := by
  unfold State.frameSnap
  grind [Latched.mk_, Work.Latched, State.setStream_latch, State.setSeal_latch, State.set_latch, State.add_latch]

theorem State.passBands_latch {z : State} (c n hz : Nat) (snaps : List Nat) (hk : Latched z) :
    Work.Latched (State.passBands z c n hz snaps) := by
  unfold State.passBands
  have haside : R.HIF_ST_BAND.aside = true := by decide
  grind [Latched.mk_, Work.Latched, State.setStream_latch, State.setSeal_latch, State.set_latch, State.add_latch]

theorem State.openBand_latch {z : State} (c : Nat) (hk : Latched z) : Work.Latched (State.openBand z c) := by
  unfold State.openBand
  grind [Latched.mk_, Work.Latched, State.setStream_latch, State.setSeal_latch, State.set_latch, State.add_latch, State.pick_latch,
    State.frameChunk_latch, State.frameSnap_latch, State.passBands_latch]

theorem State.findWork_latch {z : State} (c : Nat) (hk : Latched z) : Work.Latched (State.findWork z c) := by
  unfold State.findWork
  have := fun q n => State.skipItem_latch (z := z) q n hk
  grind [Latched.mk_, Work.Latched, State.setStream_latch, State.openBand_latch, State.frameChunk_latch, State.frameSnap_latch]

theorem State.releaseDma_latch {z : State} (c : Nat) (hk : Latched z) : Latched (State.releaseDma z c) := by
  unfold State.releaseDma
  have hw := State.findWork_latch c hk
  dsimp only
  split
  · next h => rw [h] at hw; exact hw
  · next h => rw [h] at hw; exact State.leaveBand_latch _ (State.closeDesc_latch _ _ hw)
  · next h =>
    rw [h] at hw
    split
    · exact hk
    · split
      · exact State.closeDesc_latch _ _ hk
      · exact State.setStream_latch _ _ (State.emit_latch _ hw)

theorem State.releaseEth_latch {z : State} (c : Nat) (hk : Latched z) : Latched (State.releaseEth z c) := by
  unfold State.releaseEth
  have hw := State.findWork_latch c hk
  dsimp only
  split
  · exact hk
  · split
    · next h => rw [h] at hw; exact hw
    · next h => rw [h] at hw; exact State.leaveBand_latch _ (State.closeDgram_latch _ _ hw)
    · next h =>
      rw [h] at hw
      split
      · exact State.closeDgram_latch _ _ hk
      · exact State.setStream_latch _ _ hw

theorem State.stopStream_latch {z : State} (c : Nat) (hk : Latched z) :
    Latched (State.stopStream z c) := by
  unfold State.stopStream
  have haside : R.HIF_ST_CTRL_EN.aside = true ∧ R.HIF_ST_STATUS_STATE.aside = true := by decide
  grind [Latched.mk_, State.closeDesc_latch, State.closeDgram_latch, State.setStream_latch, State.set_latch]

theorem State.breakDma_latch {z : State} (c : Nat) (hk : Latched z) :
    Latched (State.breakDma z c) := by
  unfold State.breakDma
  have haside : R.HIF_ST_CTRL_EN.aside = true ∧ R.HIF_ST_STATUS_STATE.aside = true := by decide
  grind [Latched.mk_, State.setStream_latch, State.set_latch]

theorem State.resetMsix_latch {z : State} (f : Nat) (hk : Latched z) :
    Latched (State.resetMsix z f) := by
  unfold State.resetMsix
  grind [Latched.mk_]

theorem State.breakPf0_latch {z : State}  (hk : Latched z) :
    Latched (State.breakPf0 z) := by
  unfold State.breakPf0
  grind [Latched.mk_, State.breakDma_latch, State.each_latch, State.resetMsix_latch]

theorem State.loseLink_latch {z : State}  (hk : Latched z) :
    Latched (State.loseLink z) := by
  unfold State.loseLink
  have haside : R.HIF_STATUS_SPEED.aside = true ∧ R.HIF_STATUS_WIDTH.aside = true := by decide
  grind [Latched.mk_, State.breakPf0_latch, State.resetMsix_latch, State.set_latch]

theorem State.setPtpLock_latch {z : State} (on : Bool) (hk : Latched z) :
    Latched (State.setPtpLock z on) := by
  unfold State.setPtpLock
  have haside : R.HIF_PTP_STATUS_LOCK.aside = true ∧ R.HIF_PTP_STATUS_CHANGED.aside = true ∧
      R.LTU_REF_STATUS_PTP_LOCK.aside = true := by decide
  grind [Latched.mk_, State.raise_latch, State.set_latch, State.syncSteer_latch]

theorem State.setPtp_latch {z : State} (x : Ptp) (hk : Latched z) :
    Latched (State.setPtp z x) := by
  unfold State.setPtp
  grind [Latched.mk_]

theorem State.ptpAnnounce_latch {z : State} (src : Nat) (d : PtpDataset) (t : Int) (hk : Latched z) :
    Latched (State.ptpAnnounce z src d t) := by
  unfold State.ptpAnnounce
  have haside : R.HIF_PTP_STATUS_MASTER_SEEN.aside = true := by decide
  grind [Latched.mk_, State.setPtp_latch, State.set_latch]

theorem State.ptpSync_latch {z : State} (t1 : Int) (hk : Latched z) :
    Latched (State.ptpSync z t1) := by
  unfold State.ptpSync
  have haside : R.HIF_PTP_OFFSET_NS.aside = true := by decide
  grind [Latched.mk_, State.emit_latch, State.setPtpLock_latch, State.setPtp_latch, State.setS_latch, State.steer_latch]

theorem State.ptpDelay_latch {z : State} (rx corr sent : Int) (hk : Latched z) :
    Latched (State.ptpDelay z rx corr sent) := by
  unfold State.ptpDelay
  have haside : R.HIF_PTP_DELAY_NS.aside = true := by decide
  grind [Latched.mk_, State.setSat_latch]

theorem State.sendVector_latch {z : State} (k : Nat) (t : Int) (hk : Latched z) :
    Latched (State.sendVector z k t) := by
  unfold State.sendVector
  grind [Latched.mk_, State.emit_latch]

theorem State.serveVector_latch {z : State} (k : Nat) (t : Int) (hk : Latched z) :
    Latched (State.serveVector z k t) := by
  unfold State.serveVector
  grind [Latched.mk_, State.sendVector_latch]

theorem State.syncPort_latch {z : State} (pn : Nat) (hk : Latched z) :
    Latched (State.syncPort z pn) := by
  unfold State.syncPort
  grind [Latched.mk_, State.each_latch, State.syncStream_latch]

theorem State.ethLinkTo_latch {z : State} (p : Nat) (link : Bool) (hk : Latched z) :
    Latched (State.ethLinkTo z p link) := by
  unfold State.ethLinkTo
  have haside : R.HIF_ETH_STATUS_LINK.aside = true ∧ R.HIF_ETH_STATUS_CHANGED.aside = true ∧
      R.HIF_ETH_STATUS_PAUSED.aside = true := by decide
  grind [Latched.mk_, State.raise_latch, State.set_latch, State.syncPort_latch]

/-! ### MfeOps -/

theorem State.setChain_latch {z : State} (c : Nat) (x : Chain) (hk : Latched z) :
    Latched (State.setChain z c x) := by
  unfold State.setChain
  grind [Latched.mk_]

theorem State.setMout_latch {z : State} (o : Nat) (x : MfeOut) (hk : Latched z) :
    Latched (State.setMout z o x) := by
  unfold State.setMout
  grind [Latched.mk_]

theorem State.takeMeas_latch {z : State}  (hk : Latched z) :
    Latched (State.takeMeas z).2 := by
  unfold State.takeMeas
  grind [Latched.mk_, State.takeFresh_latch]

theorem State.mfeEvent_latch {z : State} (kind idx : Nat) (hk : Latched z) :
    Latched (State.mfeEvent z kind idx) := by
  unfold State.mfeEvent
  have haside : R.MFE_EVT_LAST_INDEX.aside = true ∧ R.MFE_EVT_LAST_KIND.aside = true := by decide
  grind [Latched.mk_, State.raise_latch, State.set_latch]

theorem State.mfeEvent0_latch {z : State} (kind : Nat) (hk : Latched z) :
    Latched (State.mfeEvent0 z kind) := by
  unfold State.mfeEvent0
  grind [Latched.mk_, State.mfeEvent_latch, State.takeMeas_latch]

theorem State.syncChain_latch {z : State} (c : Nat) (hk : Latched z) :
    Latched (State.syncChain z c) := by
  unfold State.syncChain
  have haside : R.MFE_CH_STATUS_COUNT.aside = true ∧ R.MFE_CH_STATUS_S.aside = true ∧ R.MFE_CH_SWAP_PENDING.aside = true ∧
      R.MFE_CH_SWAP_FADING.aside = true ∧ R.MFE_ENT_STATUS_SUPPRESSED.aside = true := by decide
  grind [Latched.mk_, State.setSat_latch, State.set_latch]

theorem State.swapDone_latch {z : State} (c v : Nat) (hk : Latched z) :
    Latched (State.swapDone z c v) := by
  unfold State.swapDone
  have haside : R.MFE_CH_CFG_LEAF.aside = true := by decide
  grind [Latched.mk_, State.mfeEvent0_latch, State.mfeEvent_latch, State.setChain_latch, State.set_latch]

theorem State.restartChain_latch {z : State} (c : Nat) (sync : Bool) (hk : Latched z) :
    Latched (State.restartChain z c sync) := by
  unfold State.restartChain
  grind [Latched.mk_, State.setChain_latch, State.swapDone_latch, State.syncChain_latch]

theorem State.takeSample_latch {z : State} (c : Nat) (v : Int) (hk : Latched z) :
    Latched (State.takeSample z c v).2 := by
  unfold State.takeSample
  have haside : R.MFE_CH_COARSE_VALUE.aside = true := by decide
  grind [Latched.mk_, State.setChain_latch, State.setS_latch, State.swapDone_latch]

theorem State.temperature_latch {z : State} (nom : Nat) (r : Int) (hk : Latched z) :
    Latched (State.temperature z nom r).2 := by
  unfold State.temperature
  grind [Latched.mk_, State.takeMeas_latch]

theorem State.sample_latch {z : State} (e : Nat) (ab bc : List Int) (hk : Latched z) :
    Latched (State.sample z e ab bc).2 := by
  unfold State.sample
  have haside : R.MFE_LEAD_MOHM.aside = true := by decide
  grind [Latched.mk_, State.setS_latch, State.temperature_latch]

theorem State.autoRange_latch {z : State} (e : Nat) (ab : List Int) (isOver : Bool) (hk : Latched z) :
    Latched (State.autoRange z e ab isOver) := by
  unfold State.autoRange
  grind [Latched.mk_, State.setMent_latch]

theorem State.accumulate_latch {z : State} (e : Nat) (v : Int) (hk : Latched z) :
    Latched (State.accumulate z e v) := by
  unfold State.accumulate
  have haside : R.MFE_ACC_SUM.aside = true ∧ R.MFE_ACC_CNT_COUNT.aside = true ∧ R.MFE_ACC_MIN_MIN.aside = true ∧
      R.MFE_ACC_MAX_MAX.aside = true := by decide
  grind [Latched.mk_, State.addSat_latch, State.setS_latch, State.takeMeas_latch]

theorem State.clearAcc_latch {z : State} (e : Nat) (hk : Latched z) :
    Latched (State.clearAcc z e) := by
  unfold State.clearAcc
  have haside : R.MFE_ACC_SUM.aside = true ∧ R.MFE_ACC_CNT_COUNT.aside = true ∧ R.MFE_ACC_MIN_MIN.aside = true ∧
      R.MFE_ACC_MAX_MAX.aside = true := by decide
  grind [Latched.mk_, State.set_latch]

theorem State.measure_latch {z : State} (e : Nat) (hk : Latched z) :
    Latched (State.measure z e) := by
  unfold State.measure
  have haside : R.MFE_REC_DROP_COUNT.aside = true := by decide
  grind [Latched.mk_, State.add_latch, State.mfeEvent_latch, State.presentItem_latch, State.setMent_latch]

theorem State.showOut_latch {z : State} (o : Nat) (x : Nat × Nat) (hk : Latched z) :
    Latched (State.showOut z o x) := by
  unfold State.showOut
  grind [Latched.mk_, State.emit_latch, State.setMout_latch]

theorem State.stageOut_latch {z : State} (o : Nat) (x : Nat × Nat) (hk : Latched z) :
    Latched (State.stageOut z o x) := by
  unfold State.stageOut
  grind [Latched.mk_, State.setMout_latch, State.showOut_latch]

theorem State.driveOut_latch {z : State} (o : Nat) (v : Int) (flags : Nat) (hk : Latched z) :
    Latched (State.driveOut z o v flags) := by
  unfold State.driveOut
  grind [Latched.mk_, State.stageOut_latch]

theorem State.result_latch {z : State} (e : Nat) (v : Option Int) (flags : Nat) (fine : Bool) (hk : Latched z) :
    Latched (State.result z e v flags fine) := by
  unfold State.result
  have haside : R.MFE_RES_VALUE.aside = true ∧ R.MFE_RES_FLAGS_FLAGS.aside = true ∧ R.MFE_RES_FLAGS_RANGE.aside = true ∧
      R.MFE_RES_FLAGS_NEW.aside = true ∧ R.MFE_RES_FLAGS_SEQ.aside = true ∧ R.MFE_ENT_STATUS_SETTLED.aside = true := by decide
  grind [Latched.mk_, State.add_latch, State.driveOut_latch, State.each_latch, State.ilcTemp_latch, State.measure_latch,
    State.setS_latch, State.set_latch]

theorem State.chainResult_latch {z : State} (e c : Nat) (v : Int) (hk : Latched z) :
    Latched (State.chainResult z e c v) := by
  unfold State.chainResult
  grind [Latched.mk_, State.restartChain_latch, State.result_latch, State.setChain_latch, State.syncChain_latch, State.takeSample_latch]

theorem State.putExc_latch {z : State} (e : Nat) (x : List Nat) (hk : Latched z) : Latched (State.putExc z e x) := by
  have hfields : ∀ f ∈ excFields, f.aside = true := by decide
  exact State.each_latch_of_mem _ _ hk fun _ p hp h => State.set_latch _ _ _ _ (hfields _ (List.of_mem_zip hp).1) h

theorem State.noteExc_latch {z : State} (e : Nat) (ch : Bool) (hk : Latched z) :
    Latched (State.noteExc z e ch) := by
  unfold State.noteExc
  grind [Latched.mk_, State.setMent_latch]

theorem State.regularDwell_latch {z : State} (e : Nat) (ab bc : List Int) (hk : Latched z) :
    Latched (State.regularDwell z e ab bc) := by
  unfold State.regularDwell
  have haside : R.MFE_ENT_STATUS_RESTARTS.aside = true ∧ R.MFE_ENT_STATUS_OPEN.aside = true := by decide
  grind [Latched.mk_, State.accumulate_latch, State.add_latch, State.autoRange_latch, State.chainResult_latch, State.mfeEvent_latch,
    State.restartChain_latch, State.result_latch, State.sample_latch, State.setChain_latch, State.set_latch]

theorem State.syncUrgent_latch {z : State}  (hk : Latched z) :
    Latched (State.syncUrgent z) := by
  unfold State.syncUrgent
  have haside : R.MFE_URGENT_QUEUED.aside = true := by decide
  grind [Latched.mk_, State.set_latch]

theorem State.withExc_latch {z : State} (e : Nat) (act : State → State) (hk : Latched z)
    (hact : ∀ (x0 : State), Latched x0 → Latched (act x0)) :
    Latched (State.withExc z e act) := by
  unfold State.withExc
  grind [Latched.mk_, State.putExc_latch]

theorem State.regular_latch {z : State} (e : Nat) (ab bc : List Int) (hk : Latched z) :
    Latched (State.regular z e ab bc) := by
  unfold State.regular
  grind [Latched.mk_, State.regularDwell_latch, State.setMent_latch, State.withExc_latch]

theorem State.urgentDwell_latch {z : State} (e : Nat) (ab bc : List Int) (hk : Latched z) :
    Latched (State.urgentDwell z e ab bc) := by
  unfold State.urgentDwell
  have haside : R.MFE_LEAD_MOHM.aside = true ∧ R.MFE_URG_RES_VALUE.aside = true ∧ R.MFE_URG_FLAGS_ENTRY.aside = true ∧
      R.MFE_URG_FLAGS_OPEN_WIRE.aside = true ∧ R.MFE_URG_FLAGS_OVER.aside = true ∧ R.MFE_URG_FLAGS_NEW.aside = true := by decide
  grind [Latched.mk_, State.mfeEvent_latch, State.sample_latch, State.setS_latch, State.set_latch]

theorem State.urgentDone_latch {z : State} (e : Nat) (ab bc : List Int) (hk : Latched z) :
    Latched (State.urgentDone z e ab bc) := by
  unfold State.urgentDone
  grind [Latched.mk_, State.setMent_latch, State.urgentDwell_latch, State.withExc_latch]

theorem State.swapSlice_latch {z : State} (i : Nat) (hk : Latched z) :
    Latched (State.swapSlice z i) := by
  unfold State.swapSlice
  have haside : R.MFE_SLICE_ROLE.aside = true ∧ R.MFE_STATUS_SPARE.aside = true := by decide
  grind [Latched.mk_, State.set_latch]

theorem State.boundary_latch {z : State}  (hk : Latched z) :
    Latched (State.boundary z) := by
  unfold State.boundary
  grind [Latched.mk_, State.swapSlice_latch]

theorem State.seqStart_latch {z : State}  (hk : Latched z) :
    Latched (State.seqStart z) := by
  unfold State.seqStart
  have haside : R.MFE_CTRL_SEQ_EN.aside = true ∧ R.MFE_STATUS_STATE.aside = true ∧ R.MFE_ENT_STATUS_SUPPRESSED.aside = true := by decide
  grind [Latched.mk_, State.each_latch, State.restartChain_latch, State.set_latch]

theorem State.seqStop_latch {z : State}  (hk : Latched z) :
    Latched (State.seqStop z) := by
  unfold State.seqStop
  have haside : R.MFE_STATUS_STATE.aside = true ∧ R.MFE_CTRL_SEQ_EN.aside = true := by decide
  grind [Latched.mk_, State.boundary_latch, State.each_latch, State.setMent_latch, State.set_latch]

theorem State.seqEnd_latch {z : State}  (hk : Latched z) :
    Latched (State.seqEnd z) := by
  unfold State.seqEnd
  grind [Latched.mk_, State.seqStop_latch]

theorem State.dwellEnd_latch {z : State}  (hk : Latched z) :
    Latched (State.dwellEnd z) := by
  unfold State.dwellEnd
  grind [Latched.mk_, State.boundary_latch, State.seqStop_latch]

theorem State.refOff_latch {z : State}  (hk : Latched z) :
    Latched (State.refOff z) := by
  unfold State.refOff
  have haside : R.MFE_STATUS_REF_RDY.aside = true := by decide
  grind [Latched.mk_, State.mfeEvent0_latch, State.seqStop_latch, State.set_latch]

theorem State.mfeCtrl_latch {z : State} (w : World) (v : Nat) (hk : Latched z) :
    Latched (State.mfeCtrl z w v) := by
  unfold State.mfeCtrl
  have hid : RegId.isWorldMap .MFE_CTRL = false := by decide
  have haside : R.MFE_CTRL_SEQ_EN.aside = true := by decide
  grind [Latched.mk_, mfeLast_aside, State.refOff_latch, State.rowWrite_latch, State.seqEnd_latch, State.seqStart_latch, State.set_latch]

theorem State.retireSlice_latch {z : State} (i : Nat) (hk : Latched z) :
    Latched (State.retireSlice z i) := by
  unfold State.retireSlice
  have haside : R.MFE_STATUS_GOOD.aside = true ∧ R.MFE_SLICE_ROLE.aside = true ∧ R.MFE_STATUS_NO_SPARE.aside = true ∧
      R.MFE_STATUS_STATE.aside = true := by decide
  grind [Latched.mk_, State.mfeEvent_latch, State.seqStop_latch, State.set_latch]

/-! ### TtcOps -/

theorem State.sendFrame_latch {z : State} (a body : Nat) (hk : Latched z) :
    Latched (State.sendFrame z a body) := by
  unfold State.sendFrame
  grind [Latched.mk_, State.emit_latch]

theorem State.moveFrame_latch {z : State} (a : Nat) (hk : Latched z) :
    Latched (State.moveFrame z a) := by
  unfold State.moveFrame
  grind [Latched.mk_, State.sendFrame_latch, State.setAxis_latch]

theorem State.tableFrame_latch {z : State} (a : Nat) (hk : Latched z) :
    Latched (State.tableFrame z a) := by
  unfold State.tableFrame
  grind [Latched.mk_, State.sendFrame_latch, State.setAxis_latch]

theorem State.linkFrame_latch {z : State} (a : Nat) (hk : Latched z) :
    Latched (State.linkFrame z a) := by
  unfold State.linkFrame
  grind [Latched.mk_, State.moveFrame_latch, State.sendFrame_latch, State.tableFrame_latch]

theorem State.syncPos_latch {z : State} (a : Nat) (hk : Latched z) :
    Latched (State.syncPos z a) := by
  unfold State.syncPos
  have haside : R.TTC_AX_POS.aside = true := by decide
  grind [Latched.mk_, State.setS_latch]

theorem State.moveEnd_latch {z : State} (a : Nat) (hk : Latched z) :
    Latched (State.moveEnd z a) := by
  unfold State.moveEnd
  have haside : R.TTC_AX_STATUS_STATE.aside = true := by decide
  grind [Latched.mk_, State.setAxis_latch, State.set_latch]

theorem State.cycleStart_latch {z : State} (a : Nat) (hk : Latched z) :
    Latched (State.cycleStart z a) := by
  unfold State.cycleStart
  grind [Latched.mk_, State.raise_latch, State.setAxis_latch]

theorem State.goalMet_latch {z : State} (a : Nat) (hk : Latched z) :
    Latched (State.goalMet z a) := by
  unfold State.goalMet
  have haside : R.TTC_AX_STATUS_STATE.aside = true := by decide
  grind [Latched.mk_, State.moveEnd_latch, State.set_latch]

theorem State.cycleAxis_latch {z : State} (a : Nat) (hk : Latched z) :
    Latched (State.cycleAxis z a) := by
  unfold State.cycleAxis
  grind [Latched.mk_, State.goalMet_latch, State.setAxis_latch, State.syncPos_latch]

theorem State.cycleLin_latch {z : State}  (hk : Latched z) :
    Latched (State.cycleLin z) := by
  unfold State.cycleLin
  grind [Latched.mk_, State.each_latch, State.moveEnd_latch, State.setAxis_latch, State.syncPos_latch]

theorem State.axisCmd_latch {z : State} (w : World) (a op : Nat) (own : List (Option Status)) (act : State → State) (hk : Latched z)
    (hact : ∀ (x0 : State), Latched x0 → Latched (act x0)) :
    Latched (State.axisCmd z w a op own act) := by
  unfold State.axisCmd
  have hid : RegId.isWorldMap .TTC_AX_CMD = false := by decide
  grind [Latched.mk_, axLast_aside, State.rowWrite_latch, State.stopLin_latch]

theorem State.beginLin_latch {z : State} (ts : List (Nat × Int)) (hk : Latched z) :
    Latched (State.beginLin z ts) := by
  unfold State.beginLin
  grind [Latched.mk_, State.aim_latch, State.each_latch, State.setAxis_latch]

theorem State.dueLin_latch {z : State}  (hk : Latched z) :
    Latched (State.dueLin z) := by
  unfold State.dueLin
  grind [Latched.mk_, State.beginLin_latch]

theorem State.startLin_latch {z : State} (mask : Nat) (hk : Latched z) :
    Latched (State.startLin z mask) := by
  unfold State.startLin
  grind [Latched.mk_, State.axisStop_latch, State.dueLin_latch, State.each_latch, State.stopLin_latch]

theorem State.faultWith_latch {z : State} (a kind : Nat) (c : Status) (hk : Latched z) :
    Latched (State.faultWith z a kind c) := by
  unfold State.faultWith
  grind [Latched.mk_, State.axisFault_latch, State.rewindFail_latch, State.setStation_latch]

theorem State.faultAxis_latch {z : State} (a kind : Nat) (hk : Latched z) :
    Latched (State.faultAxis z a kind) := by
  unfold State.faultAxis
  grind [Latched.mk_, State.faultWith_latch]

theorem State.adapt_latch {z : State} (a load : Nat) (hk : Latched z) :
    Latched (State.adapt z a load) := by
  unfold State.adapt
  have haside : R.TTC_AX_STATUS_CURRENT.aside = true := by decide
  grind [Latched.mk_, State.setAxis_latch, State.set_latch]

theorem State.goodStatus_latch {z : State} (a f : Nat) (hk : Latched z) :
    Latched (State.goodStatus z a f) := by
  unfold State.goodStatus
  have haside : R.TTC_AX_DRV_LOAD.aside = true ∧ R.TTC_AX_DRV_FLAGS.aside = true ∧ R.TTC_AX_DRV_TEMP.aside = true ∧
      R.TTC_AX_STATUS_STATE.aside = true := by decide
  grind [Latched.mk_, State.adapt_latch, State.faultAxis_latch, State.setAxis_latch, State.set_latch]

/-! ### ThmOps -/

theorem State.setThm_latch {z : State} (x : Thm) (hk : Latched z) :
    Latched (State.setThm z x) := by
  unfold State.setThm
  grind [Latched.mk_]

theorem State.syncFail_latch {z : State}  (hk : Latched z) :
    Latched (State.syncFail z) := by
  unfold State.syncFail
  have haside : R.THM_FAIL_COUNT.aside = true ∧ R.THM_SNS_FAILED.aside = true := by decide
  grind [Latched.mk_, State.each_latch, State.set_latch]

theorem State.judgeSensors_latch {z : State} (r : List (Option (BitVec 16))) (hk : Latched z) :
    Latched (State.judgeSensors z r) := by
  unfold State.judgeSensors
  have haside : R.THM_FAIL_MASK.aside = true ∧ R.THM_SNS_TEMP.aside = true ∧ R.THM_SNS_VALID.aside = true := by decide
  grind [Latched.mk_, State.each_latch, State.raise_latch, State.setS_latch, State.set_latch, State.syncFail_latch]

theorem State.setLevel_latch {z : State} (t : Nat) (hk : Latched z) :
    Latched (State.setLevel z t) := by
  unfold State.setLevel
  have haside : R.THM_STATUS_LEVEL.aside = true ∧ R.SCU_ADM_STATUS_THROTTLE.aside = true := by decide
  grind [Latched.mk_, State.raise_latch, State.set_latch]

theorem State.enterWarn_latch {z : State}  (hk : Latched z) :
    Latched (State.enterWarn z) := by
  unfold State.enterWarn
  have haside : R.THM_STATUS_WARN.aside = true := by decide
  grind [Latched.mk_, State.raise_latch, State.set_latch]

theorem State.enterThrottle_latch {z : State}  (hk : Latched z) :
    Latched (State.enterThrottle z) := by
  unfold State.enterThrottle
  have haside : R.THM_STATUS_THROT.aside = true := by decide
  grind [Latched.mk_, State.enterWarn_latch, State.raise_latch, State.setLevel_latch, State.set_latch]

theorem State.judgeThrottle_latch {z : State} (m : Int) (hk : Latched z) :
    Latched (State.judgeThrottle z m) := by
  unfold State.judgeThrottle
  have haside : R.THM_STATUS_THROT.aside = true := by decide
  grind [Latched.mk_, State.enterThrottle_latch, State.raise_latch, State.setThm_latch, State.set_latch]

theorem State.judgeWarn_latch {z : State} (m : Int) (hk : Latched z) :
    Latched (State.judgeWarn z m) := by
  unfold State.judgeWarn
  have haside : R.THM_STATUS_WARN.aside = true := by decide
  grind [Latched.mk_, State.enterWarn_latch, State.raise_latch, State.setThm_latch, State.set_latch]

theorem State.shutAxis_latch {z : State} (a : Nat) (hk : Latched z) :
    Latched (State.shutAxis z a) := by
  unfold State.shutAxis
  grind [Latched.mk_, State.faultWith_latch, State.takeFresh_latch]

theorem State.shutdown_latch {z : State}  (hk : Latched z) :
    Latched (State.shutdown z) := by
  unfold State.shutdown
  have haside : R.THM_STATUS_TRIP.aside = true := by decide
  grind [Latched.mk_, Keeps.fresh_, State.each_latch, State.emit_latch, State.endRunning_latch, State.gatesLow_latch, State.raise_latch,
    State.setDev_latch, State.set_latch, State.shutAxis_latch]

theorem State.judgeShutdown_latch {z : State}  (hk : Latched z) :
    Latched (State.judgeShutdown z) := by
  unfold State.judgeShutdown
  grind [Latched.mk_, State.setThm_latch, State.shutdown_latch]

/-! ### BootOps -/

theorem State.fwRefused_latch {z : State} (c : Status) (hk : Latched z) :
    Latched (State.fwRefused z c) := by
  unfold State.fwRefused
  have haside : R.SMC_FW_STATUS_LAST_STATUS.aside = true := by decide
  grind [Latched.mk_, State.raise_latch, State.set_latch]

theorem State.bootStop_latch {z : State} (ms : Nat) (hk : Latched z) :
    Latched (State.bootStop z ms) := by
  unfold State.bootStop
  have haside : R.SMC_BOOT_STATUS_STEP.aside = true ∧ R.SMC_BOOT_TIME_MS.aside = true := by decide
  grind [Latched.mk_, State.setSat_latch, State.set_latch]

theorem State.stayBare_latch {z : State} (ms : Nat) (hk : Latched z) :
    Latched (State.stayBare z ms) := by
  unfold State.stayBare
  grind [Latched.mk_, State.bootStop_latch, State.startKru_latch]

theorem State.bootDone_latch {z : State} (ms : Nat) (hk : Latched z) : Latched (State.bootDone z ms) := by
  have hbooted : Latched ((z.set R.SMC_BOOT_STATUS_STEP 5).setSat R.SMC_BOOT_TIME_MS ms) :=
    State.setSat_latch _ _ _ _ (by decide) (State.set_latch _ _ _ _ (by decide) hk)
  unfold State.bootDone
  split
  · dsimp only
    rw [if_neg (by rw [hbooted]; decide)]
    exact hbooted
  · exact hk

theorem State.startWorkbench_latch {z : State} (o : FwObs) (policy : Bool) (ms : Nat) (hk : Latched z) :
    Latched (State.startWorkbench z o policy ms) := by
  unfold State.startWorkbench
  have haside : R.SMC_FW_STATUS_WB_STATE.aside = true ∧ R.SMC_FW_WB_VER_VER.aside = true ∧ R.SMC_POLICY_UNV_WB.aside = true := by decide
  grind [Latched.mk_, State.bootDone_latch, State.setMeas_latch, State.set_latch, State.syncCombo_latch]

theorem State.refuseWorkbench_latch {z : State} (c : Status) (ms : Nat) (hk : Latched z) :
    Latched (State.refuseWorkbench z c ms) := by
  unfold State.refuseWorkbench
  have haside : R.SMC_FW_STATUS_WB_STATE.aside = true := by decide
  grind [Latched.mk_, State.fwRefused_latch, State.set_latch, State.stayBare_latch]

theorem State.checkWorkbench_latch {z : State} (o : FwObs) (ms : Nat) (hk : Latched z) :
    Latched (State.checkWorkbench z o ms) := by
  unfold State.checkWorkbench
  grind [Latched.mk_, State.refuseWorkbench_latch, State.startWorkbench_latch]

/-- Every target of the world map stands below the device state. -/
theorem State.setTarget_latch {z : State} (kind n world : Nat) (hkind : kind ≠ 0 ∧ kind ≤ 7) (hn : n < targetCount kind) (hk : Latched z) :
    Latched (State.setTarget z kind n world) := by
  refine State.set_latch_of_key _ ?_ hk
  obtain ⟨h0, h7⟩ := hkind
  obtain rfl | rfl | rfl | rfl | rfl | rfl | rfl : kind = 1 ∨ kind = 2 ∨ kind = 3 ∨ kind = 4 ∨ kind = 5 ∨ kind = 6 ∨ kind = 7 := by omega
  all_goals
    simp only [targetCount] at hn
    simp only [targetMap, Fld.key, R.SMC_WMAP_BLK_BLOCKS, R.SMC_WMAP_PORT_MAP, R.SMC_WMAP_ENG_MAP, R.SMC_WMAP_QR_MAP,
      R.SMC_WMAP_ETH_PORTS, R.SMC_WMAP_HBM_MAP, R.SMC_WMAP_OC_MAP, R.SMC_DEV_STATE_STATE]
    omega

theorem State.worldSet_latch {z : State} (kind world first count : Nat) (hk : Latched z) :
    CmdEnd.Latched (State.worldSet z kind world first count) := by
  unfold State.worldSet
  split
  · exact CmdEnd.latched_refused _ _ _
  next hkind =>
    split
    · exact (CmdEnd.latched_ok ..).2 hk
    · dsimp only
      split
      · exact CmdEnd.latched_refused _ _ _
      next hcount =>
        split
        · exact (CmdEnd.latched_reported ..).2 (State.raise_latch _ (State.addSat_latch _ _ _ _ rfl hk))
        · split
          · exact CmdEnd.latched_refused _ _ _
          · split
            · exact CmdEnd.latched_refused _ _ _
            · refine (CmdEnd.latched_ok ..).2 (State.syncMeas_latch (State.each_latch_of_mem _ _ hk fun b n hn h => ?_))
              obtain ⟨k, hk, rfl⟩ := List.mem_map.1 hn
              have := List.mem_range.1 hk
              exact State.setTarget_latch _ _ _ (by omega) (by omega) h

/-! ### RegOps -/

theorem State.oweEnabled_latch {z : State} (g old : Nat) (hk : Latched z) :
    Latched (State.oweEnabled z g old) := by
  unfold State.oweEnabled
  grind [Latched.mk_, State.each_latch, State.owe_latch]

theorem State.afterWrite_latch {z : State} (old : State) (r : Reg) (i x : Nat) (hk : Latched z) :
    Latched (State.afterWrite z old r i x) := by
  unfold State.afterWrite
  have haside : R.LTU_REF_STATUS_LOCK.aside = true := by decide
  grind [Latched.mk_, State.each_latch, State.gatesLow_latch, State.oweEnabled_latch, State.setThm_latch, State.set_latch,
    State.syncFail_latch, State.syncLow_latch, State.syncMeas_latch, State.syncMember_latch, State.syncSteer_latch,
    State.syncStream_latch, State.syncSum_latch]

theorem lastStatusOf_aside (r : Reg) (i : Nat) : ∀ f, (lastStatusOf r i).1 = some f → f.aside = true := by
  unfold lastStatusOf
  dsimp only
  split
  case h_14 =>
    repeat' split
    all_goals rintro _ ⟨⟩
    all_goals decide
  all_goals rintro _ ⟨⟩
  all_goals decide

/-- The indices of a register found by its address lie within its table row. -/
theorem findReg_index {a i j : Nat} {r : Reg} (h : findReg a = some (r, i, j)) : i < r.n1 := by
  obtain ⟨g, -, hm⟩ := List.exists_of_findSome?_eq_some h
  obtain ⟨⟨k, l⟩, hx, he⟩ := Option.map_eq_some_iff.1 hm
  cases he
  unfold Reg.index? at hx
  simp only [Option.ite_none_left_eq_some, Option.ite_none_right_eq_some, Option.some.injEq] at hx
  obtain ⟨-, ⟨hin, -, -⟩, he⟩ := hx
  injection he with hi hj
  exact hi ▸ hin

theorem State.regWrite_latch {z : State} (w : World) (r : Reg) (i j x : Nat) (hr : r ∈ regTable)
    (hi : r.id.isWorldMap = true → i < r.n1) (hk : Latched z) : Latched (State.regWrite z w r i j x) := by
  have hwritten := State.hostWrite_latch_of_desc w r.id i j (z.writeCheck w r i j x) (lastStatusOf r i).1 (lastStatusOf r i).2
    (fun r s => (s.writeParts w r i j (s.effectiveWord w r i x)).afterWrite s r i x) (lastStatusOf_aside r i) hk fun g y hdesc hy => by
      rw [regTable_desc r hr, Option.some.injEq] at hdesc
      subst hdesc
      exact State.afterWrite_latch _ _ _ _ (State.writeParts_latch w r i j _ hr hi hy)
  unfold State.regWrite
  dsimp only
  split
  · exact State.streamRefused_latch _ _ _ _ _ hwritten
  · exact hwritten

theorem State.controlWrite_latch {z : State} (w : World) (a x : Nat) (hk : Latched z) :
    Latched (State.controlWrite z w a x) := by
  unfold State.controlWrite
  split
  · grind [Latched.mk_, State.windowWrite_latch]
  · split
    next r i j hfind => exact State.regWrite_latch w r i j x (findReg_some hfind).1 (fun _ => findReg_index hfind) hk
    · exact hk

theorem State.latchPair_latch {z : State} (w : World) (id : RegId) (a : Nat) (t : Int) (hk : Latched z) :
    Latched (State.latchPair z w id a t) := by
  unfold State.latchPair
  grind [Latched.mk_]

theorem State.controlRead_latch {z : State} (w : World) (a : Nat) (t : Int) (hk : Latched z) :
    Latched (State.controlRead z w a t) := by
  unfold State.controlRead
  grind [Latched.mk_, State.hostRead_latch, State.latchPair_latch]

end Sys2Proof.Machine
end

section
/-! PROOFS. The meaning of every command but VCORE_REMOVED keeps the thermal latch, one lemma a meaning (R484, R524). -/

open Sys2Proof Sys2Proof.Stated

-- One proof at a time keeps the memory of the compile small.
set_option Elab.async false

namespace Sys2Proof.Machine

/-! ### Access -/

theorem execRegisterWrite_latch {z : State} (w : World) (a : Fin 16777216) (v : BitVec 32) (hk : Latched z) :
    Out.Latched (execRegisterWrite w a v z) := by
  unfold execRegisterWrite
  grind [Latched.mk_, Out.Latched, CmdEnd.Latched, State.controlWrite_latch]

theorem execHoldingRegisterLoRead_latch {z : State} (w : World) (a : Fin 16777216) (t : Int) (hk : Latched z) :
    Out.Latched (execHoldingRegisterLoRead w a t z) := by
  unfold execHoldingRegisterLoRead
  grind [Latched.mk_, Out.Latched, CmdEnd.Latched, State.controlRead_latch]

/-! ### Boot -/

/-- An accepted DEV_RESET does not take the device out of THERMAL_LATCH (R524). -/
theorem execDevResetEntry_latch {z : State} (hk : Latched z) : Out.Latched (execDevResetEntry z) := by
  unfold execDevResetEntry
  rw [if_pos (show z.dev = Dev.thermalLatch from hk)]
  split
  · exact hk
  · exact hk

/-- POR_N low does not take the device out of THERMAL_LATCH (R524). -/
theorem execPorAssert_latch {z : State} (hk : Latched z) : Out.Latched (execPorAssert z) := by
  have hdev : (z.emit .inactive).dev = Dev.thermalLatch := State.emit_latch _ hk
  change ((z.emit .inactive).resetAll).dev = Dev.thermalLatch
  unfold State.resetAll
  rw [hdev]
  exact State.get_set_self ..

theorem execResetExit_latch {z : State} (hk : Latched z) : Out.Latched (execResetExit z) := by
  have hdev : z.dev = Dev.thermalLatch := hk
  unfold execResetExit
  rw [if_neg (by rw [hdev]; rintro (h | ⟨h, -⟩) <;> exact absurd h (by decide))]
  exact hk

/-- The boot ROM does not run in THERMAL_LATCH (R553). -/
theorem execCabinetVerifyDone_latch {z : State} (a b : FwObs) (policy : Option FwObs) (mode : Byte) (flash ms : Nat) (hk : Latched z) :
    Out.Latched (execCabinetVerifyDone a b policy mode flash ms z) := by
  have hdev : z.dev = Dev.thermalLatch := hk
  unfold execCabinetVerifyDone
  rw [if_neg (by rw [hdev]; rintro ⟨h | h, -⟩ <;> exact absurd h (by decide))]
  exact hk

theorem execBootVcoreTimeout_latch {z : State}  (hk : Latched z) :
    Out.Latched (execBootVcoreTimeout z) := by
  unfold execBootVcoreTimeout
  grind [Latched.mk_, Out.Latched, CmdEnd.Latched, State.bootVcoreFail_latch]

theorem execHbmTrainingDone_latch {z : State} (ok : BitVec 4) (ms : Nat) (hk : Latched z) :
    Out.Latched (execHbmTrainingDone ok ms z) := by
  unfold execHbmTrainingDone
  have haside : R.SMC_BOOT_STATUS_HBM_OK.aside = true ∧ R.SMC_BOOT_STATUS_HBM_FAIL.aside = true := by decide
  grind [Latched.mk_, Out.Latched, CmdEnd.Latched, State.bootDone_latch, State.set_latch, State.stayBare_latch]

theorem execWorkbenchCheckDone_latch {z : State} (o : FwObs) (ms : Nat) (hk : Latched z) :
    Out.Latched (execWorkbenchCheckDone o ms z) := by
  unfold execWorkbenchCheckDone
  grind [Latched.mk_, Out.Latched, CmdEnd.Latched, State.checkWorkbench_latch]

theorem execWorldSet_latch {z : State} (r : Fin 2) (hk : Latched z) :
    Out.Latched (execWorldSet r z) := by
  unfold execWorldSet
  grind [Latched.mk_, Out.Latched, CmdEnd.Latched, State.command_latch, State.worldSet_latch]

theorem padChecks_aside (s : State) : ∀ p ∈ s.padChecks, p.1.aside = true := by
  intro p hp
  unfold State.padChecks at hp
  simp only [List.mem_cons, List.not_mem_nil, or_false] at hp
  obtain rfl | rfl | rfl | rfl | rfl := hp
  all_goals rfl

theorem execPadSlewWrite_latch {z : State} (w : World) (v : BitVec 32) (hk : Latched z) : Out.Latched (execPadSlewWrite w v z) := by
  refine State.hostWrite_latch _ _ _ _ _ _ _ _ noLast_aside hk fun _ x hx => ?_
  have heach : Latched (x.each (x.padChecks.filter (·.2.isNone)) fun s p => s.set p.1 (p.1.of v.toNat)) :=
    State.each_latch_of_mem _ _ hx fun _ p hp h => State.set_latch _ _ _ _ (padChecks_aside x p (List.mem_filter.1 hp).1) h
  dsimp only
  split
  · exact hx
  · split
    · exact State.refuse_latch _ _ _ _ (by rintro _ ⟨⟩; decide) heach
    · exact heach

theorem execSerdesRefclkLoss_latch {z : State} (x : RefClk) (hk : Latched z) :
    Out.Latched (execSerdesRefclkLoss x z) := by
  unfold execSerdesRefclkLoss
  have haside : R.HLF_LANE_STATUS_LOCK.aside = true ∧ R.HIF_ETH_STATUS_FEC_LOCK.aside = true := by decide
  grind [Latched.mk_, Out.Latched, CmdEnd.Latched, State.each_latch, State.ethLinkTo_latch, State.kelimRetrain_latch,
    State.retrainLane_latch, State.set_latch]

/-! ### Hif -/

theorem execStreamEnable_latch {z : State} (w : World) (c : Fin 64) (v : BitVec 32) (hk : Latched z) :
    Out.Latched (execStreamEnable w c v z) := by
  unfold execStreamEnable
  have hid : RegId.isWorldMap .HIF_ST_CTRL = false := by decide
  have haside : R.HIF_ST_SEQ_SEQ.aside = true := by decide
  grind [Latched.mk_, Out.Latched, CmdEnd.Latched, State.set_latch, State.streamWrite_latch, State.syncStream_latch]

theorem execStreamDisable_latch {z : State} (w : World) (c : Fin 64) (v : BitVec 32) (hk : Latched z) :
    Out.Latched (execStreamDisable w c v z) := by
  unfold execStreamDisable
  have hid : RegId.isWorldMap .HIF_ST_CTRL = false := by decide
  grind [Latched.mk_, Out.Latched, CmdEnd.Latched, State.stopStream_latch, State.streamWrite_latch]

theorem execHqEntryEnable_latch {z : State} (w : World) (j : Fin 1024) (v : BitVec 32) (hk : Latched z) :
    Out.Latched (execHqEntryEnable w j v z) := by
  unfold execHqEntryEnable
  have hid : RegId.isWorldMap .HIF_HQ = false := by decide
  have haside : R.HIF_STATUS_LAST_STATUS.aside = true := by decide
  grind [Latched.mk_, Out.Latched, CmdEnd.Latched, State.rowWrite_latch]

theorem execDmaTailWrite_latch {z : State} (w : World) (c : Fin 64) (v : BitVec 32) (hk : Latched z) :
    Out.Latched (execDmaTailWrite w c v z) := by
  unfold execDmaTailWrite
  have hid : RegId.isWorldMap .HIF_ST_TAIL = false := by decide
  grind [Latched.mk_, Out.Latched, CmdEnd.Latched, State.streamWrite_latch, State.syncStream_latch]

theorem execReleaseChunk_latch {z : State} (c : Fin 64) (d : HostDesc) (hk : Latched z) :
    Out.Latched (execReleaseChunk c d z) := by
  unfold execReleaseChunk
  grind [Latched.mk_, Out.Latched, CmdEnd.Latched, State.fetchDesc_latch, State.releaseDma_latch, State.releaseEth_latch,
    State.syncStream_latch]

theorem execDescriptorReadError_latch {z : State} (c : Fin 64) (timeout : Bool) (hk : Latched z) :
    Out.Latched (execDescriptorReadError c timeout z) := by
  unfold execDescriptorReadError
  have haside : R.HIF_ST_STATUS_STATE.aside = true ∧ R.HIF_ST_STATUS_FAULT.aside = true ∧ R.HIF_ST_STATUS_LAST_STATUS.aside = true ∧
      R.HIF_PCIE_ERR_CPL_ERR.aside = true := by decide
  grind [Latched.mk_, Out.Latched, CmdEnd.Latched, State.addSat_latch, State.raise_latch, State.setStream_latch, State.set_latch]

theorem execDatagramSend_latch {z : State} (c : Fin 64) (t : Int) (hk : Latched z) :
    Out.Latched (execDatagramSend c t z) := by
  unfold execDatagramSend
  grind [Latched.mk_, Out.Latched, CmdEnd.Latched, State.sendDgram_latch]

theorem execPauseFrameRx_latch {z : State} (pn : Fin 4) (quanta : BitVec 16) (hk : Latched z) :
    Out.Latched (execPauseFrameRx pn quanta z) := by
  unfold execPauseFrameRx
  have haside : R.HIF_ETH_STATUS_PAUSED.aside = true := by decide
  grind [Latched.mk_, Out.Latched, CmdEnd.Latched, State.set_latch, State.syncPort_latch]

theorem execPauseTimeExpiry_latch {z : State} (pn : Fin 4) (hk : Latched z) :
    Out.Latched (execPauseTimeExpiry pn z) := by
  unfold execPauseTimeExpiry
  have haside : R.HIF_ETH_STATUS_PAUSED.aside = true := by decide
  grind [Latched.mk_, Out.Latched, CmdEnd.Latched, State.set_latch, State.syncPort_latch]

theorem execEthFrameDiscard_latch {z : State} (pn : Fin 4) (hk : Latched z) :
    Out.Latched (execEthFrameDiscard pn z) := by
  unfold execEthFrameDiscard
  have haside : R.HIF_ETH_RX_DROP_COUNT.aside = true := by decide
  grind [Latched.mk_, Out.Latched, CmdEnd.Latched, State.add_latch]

theorem execEthLinkChange_latch {z : State} (pn : Fin 4) (up fecLock : Bool) (corr uncorr : Nat) (hk : Latched z) :
    Out.Latched (execEthLinkChange pn up fecLock corr uncorr z) := by
  unfold execEthLinkChange
  have haside : R.HIF_ETH_FEC_CORR.aside = true ∧ R.HIF_ETH_FEC_UNCORR.aside = true ∧ R.HIF_ETH_STATUS_FEC_LOCK.aside = true := by decide
  grind [Latched.mk_, Out.Latched, CmdEnd.Latched, State.addSat_latch, State.ethLinkTo_latch, State.set_latch]

theorem execEthPortConfigWrite_latch {z : State} (w : World) (pn : Fin 4) (k : Fin 4) (v : BitVec 32) (hk : Latched z) :
    Out.Latched (execEthPortConfigWrite w pn k v z) := by
  have hid : ∀ k : Fin 4, (ethReg k.val).isWorldMap = false := by decide
  exact State.rowWrite_latch _ _ _ _ _ _ _ _ _ (hid k) (by rintro _ ⟨⟩; decide) hk fun _ h => h

theorem execPtpMessageRx_latch {z : State} (pn : Fin 4) (dest : PtpDest) (domain : Byte) (m : PtpMsg) (hk : Latched z) :
    Out.Latched (execPtpMessageRx pn dest domain m z) := by
  unfold execPtpMessageRx
  have haside : R.HIF_ETH_RX_DROP_COUNT.aside = true := by decide
  grind [Latched.mk_, Out.Latched, CmdEnd.Latched, State.add_latch, State.ptpAnnounce_latch, State.ptpDelay_latch, State.ptpSync_latch,
    State.setPtp_latch]

theorem execPtpSyncTimeout_latch {z : State}  (hk : Latched z) :
    Out.Latched (execPtpSyncTimeout z) := by
  unfold execPtpSyncTimeout
  grind [Latched.mk_, Out.Latched, CmdEnd.Latched, State.setPtpLock_latch, State.setPtp_latch]

theorem execPf0Flr_latch {z : State}  (hk : Latched z) :
    Out.Latched (execPf0Flr z) := by
  unfold execPf0Flr
  grind [Latched.mk_, Out.Latched, CmdEnd.Latched, State.breakPf0_latch]

theorem execPf0D3hotEntry_latch {z : State}  (hk : Latched z) :
    Out.Latched (execPf0D3hotEntry z) := by
  unfold execPf0D3hotEntry
  grind [Latched.mk_, Out.Latched, CmdEnd.Latched, State.breakPf0_latch]

theorem execPcieLinkLoss_latch {z : State}  (hk : Latched z) :
    Out.Latched (execPcieLinkLoss z) := by
  unfold execPcieLinkLoss
  grind [Latched.mk_, Out.Latched, CmdEnd.Latched, State.loseLink_latch]

theorem execPcieLinkUp_latch {z : State} (speed width : Fin 5) (hk : Latched z) :
    Out.Latched (execPcieLinkUp speed width z) := by
  unfold execPcieLinkUp
  have haside : R.HIF_STATUS_SPEED.aside = true ∧ R.HIF_STATUS_WIDTH.aside = true := by decide
  grind [Latched.mk_, Out.Latched, CmdEnd.Latched, State.set_latch]

theorem execPerstAssert_latch {z : State}  (hk : Latched z) :
    Out.Latched (execPerstAssert z) := by
  unfold execPerstAssert
  grind [Latched.mk_, Out.Latched, CmdEnd.Latched, State.loseLink_latch]

theorem execPerstRelease_latch {z : State}  (hk : Latched z) :
    Out.Latched (execPerstRelease z) := by
  unfold execPerstRelease
  grind [Latched.mk_, Out.Latched, CmdEnd.Latched]

theorem execBar0BadAccess_latch {z : State} (w : World) (a : Nat) (hk : Latched z) :
    Out.Latched (execBar0BadAccess w a z) := by
  unfold execBar0BadAccess
  have haside : R.HIF_PCIE_ERR_BAD.aside = true := by decide
  grind [Latched.mk_, Out.Latched, CmdEnd.Latched, State.addSat_latch, State.emit_latch, State.raise_latch]

theorem execBar2Read_latch {z : State} (a : Nat) (x : BarRead) (hk : Latched z) :
    Out.Latched (execBar2Read a x z) := by
  unfold execBar2Read
  grind [Latched.mk_, Out.Latched, CmdEnd.Latched, State.crossWorld_latch, State.emit_latch, State.takeFresh_latch, State.windowError_latch]

theorem execBar2Write_latch {z : State} (a : Nat) (hk : Latched z) :
    Out.Latched (execBar2Write a z) := by
  unfold execBar2Write
  have haside : R.HIF_PCIE_ERR_BAD.aside = true := by decide
  grind [Latched.mk_, Out.Latched, CmdEnd.Latched, State.addSat_latch, State.emit_latch]

theorem execMsixMessage_latch {z : State} (f : Fin 2) (v : Fin 256) (t : Int) (hk : Latched z) :
    Out.Latched (execMsixMessage f v t z) := by
  unfold execMsixMessage
  grind [Latched.mk_, Out.Latched, CmdEnd.Latched, State.serveVector_latch]

theorem execMsixUnmask_latch {z : State} (f : Fin 2) (v : Fin 256) (x : MsixEntry) (hk : Latched z) :
    Out.Latched (execMsixUnmask f v x z) := by
  unfold execMsixUnmask
  grind [Latched.mk_, Out.Latched, CmdEnd.Latched, State.sendVector_latch]

/-! ### Hlf -/

theorem execPixelPacketRx_latch {z : State} (l : Fin 192) (k : Packet) (hk : Latched z) :
    Out.Latched (execPixelPacketRx l k z) := by
  unfold execPixelPacketRx
  have haside : R.HLF_LANE_CREDIT_OCCUPIED.aside = true := by decide
  grind [Latched.mk_, Out.Latched, CmdEnd.Latched, State.add_latch, State.count_latch, State.drainHead_latch, State.packetIn_latch,
    State.setLane_latch]

theorem execLineTimeoutFill_latch {z : State} (p : Fin 96) (hk : Latched z) :
    Out.Latched (execLineTimeoutFill p z) := by
  unfold execLineTimeoutFill
  grind [Latched.mk_, Out.Latched, CmdEnd.Latched, State.fillLine_latch]

theorem execCapPacketRx_latch {z : State} (l : Fin 192) (k : Packet) (hk : Latched z) :
    Out.Latched (execCapPacketRx l k z) := by
  unfold execCapPacketRx
  grind [Latched.mk_, Out.Latched, CmdEnd.Latched, State.countBad_latch, State.packetIn_latch, State.returnCredits_latch,
    State.takeCap_latch]

theorem execCfgRespRx_latch {z : State} (l : Fin 192) (k : Packet) (hk : Latched z) :
    Out.Latched (execCfgRespRx l k z) := by
  unfold execCfgRespRx
  grind [Latched.mk_, Out.Latched, CmdEnd.Latched, State.cfgResponse_latch, State.packetIn_latch, State.returnCredits_latch]

theorem execHeadEventRx_latch {z : State} (l : Fin 192) (k : Packet) (hk : Latched z) :
    Out.Latched (execHeadEventRx l k z) := by
  unfold execHeadEventRx
  grind [Latched.mk_, Out.Latched, CmdEnd.Latched, State.packetIn_latch, State.raise_latch, State.returnCredits_latch, State.setHead_latch]

theorem execCredStatusRx_latch {z : State} (l : Fin 192) (held rxReturned _spent : BitVec 16) (initAck : Bool) (hk : Latched z) :
    Out.Latched (execCredStatusRx l held rxReturned _spent initAck z) := by
  unfold execCredStatusRx
  grind [Latched.mk_, Out.Latched, CmdEnd.Latched, State.creditAudit_latch, State.initAck_latch]

theorem execTrainBlockRx_latch {z : State} (l : Fin 192) (phase : BitVec 4) (errors : BitVec 32) (t : Int) (hk : Latched z) :
    Out.Latched (execTrainBlockRx l phase errors t z) := by
  unfold execTrainBlockRx
  grind [Latched.mk_, Out.Latched, CmdEnd.Latched, State.checkLanePrbs_latch, State.checkPrbs_latch, State.checkSwitch_latch,
    State.setLane_latch, State.switchMode_latch]

theorem execEchoRx_latch {z : State} (l : Fin 192) (tag : BitVec 16) (turn : BitVec 20) (e : EchoTrip) (hk : Latched z) :
    Out.Latched (execEchoRx l tag turn e z) := by
  unfold execEchoRx
  have haside : R.HLF_PORT_STATE_LAST_STATUS.aside = true ∧ R.HLF_LANE_STATUS_DELAY.aside = true := by decide
  grind [Latched.mk_, Out.Latched, CmdEnd.Latched, State.checkDelay_latch, State.creditInit_latch, State.portLeaves_latch,
    State.sendDue_latch, State.setLane_latch, State.set_latch, State.syncLead_latch]

theorem execLinkCtrlRetrainRx_latch {z : State} (l : Fin 192) (hk : Latched z) :
    Out.Latched (execLinkCtrlRetrainRx l z) := by
  unfold execLinkCtrlRetrainRx
  grind [Latched.mk_, Out.Latched, CmdEnd.Latched, State.retrainLane_latch]

theorem execUnknownCtrlBlockRx_latch {z : State} (l : Fin 192) (kind : BitVec 8) (hk : Latched z) :
    Out.Latched (execUnknownCtrlBlockRx l kind z) := by
  unfold execUnknownCtrlBlockRx
  grind [Latched.mk_, Out.Latched, CmdEnd.Latched, State.dropOn_latch]

theorem execLaneSyncHeaderErrors_latch {z : State} (l : Fin 192) (lockLost : Bool) (hk : Latched z) :
    Out.Latched (execLaneSyncHeaderErrors l lockLost z) := by
  unfold execLaneSyncHeaderErrors
  have haside : R.HLF_LANE_STATUS_LOCK.aside = true := by decide
  grind [Latched.mk_, Out.Latched, CmdEnd.Latched, State.retrainLane_latch, State.set_latch, State.when_latch]

theorem State.resumeDiscover_latch {z : State} (p : Nat) (hk : Latched z) :
    Latched (State.resumeDiscover z p) := by
  unfold State.resumeDiscover
  grind [Latched.mk_, State.startDiscover_latch]

theorem State.laneLocked_latch {z : State} (l : Nat) (hk : Latched z) :
    Latched (State.laneLocked z l) := by
  unfold State.laneLocked
  have haside : R.HLF_LANE_STATUS_LOCK.aside = true := by decide
  grind [Latched.mk_, State.checkLanePrbs_latch, State.checkPrbs_latch, State.checkSwitch_latch, State.sendBlock_latch, State.set_latch,
    State.startDiscover_latch, State.startPrbs_latch]

theorem execLaneBlockLock_latch {z : State} (x : LockSeen) (hk : Latched z) :
    Out.Latched (execLaneBlockLock x z) := by
  unfold execLaneBlockLock
  grind [Latched.mk_, Out.Latched, CmdEnd.Latched, State.laneLocked_latch, State.setLane_latch]

theorem execDiscoverTimeout_latch {z : State} (p : Fin 96) (hk : Latched z) :
    Out.Latched (execDiscoverTimeout p z) := by
  unfold execDiscoverTimeout
  grind [Latched.mk_, Out.Latched, CmdEnd.Latched, State.setHead_latch, State.setPort_latch]

theorem execDiscoverRetry_latch {z : State} (p : Fin 96) (hk : Latched z) :
    Out.Latched (execDiscoverRetry p z) := by
  unfold execDiscoverRetry
  grind [Latched.mk_, Out.Latched, CmdEnd.Latched, State.setHead_latch, State.startDiscover_latch]

theorem execSwitchTimeout_latch {z : State} (p : Fin 96) (hk : Latched z) :
    Out.Latched (execSwitchTimeout p z) := by
  unfold execSwitchTimeout
  grind [Latched.mk_, Out.Latched, CmdEnd.Latched, State.nextCandidate_latch]

theorem execPrbsTestDone_latch {z : State} (l : Fin 192) (errors : BitVec 32) (hk : Latched z) :
    Out.Latched (execPrbsTestDone l errors z) := by
  unfold execPrbsTestDone
  have haside : R.HLF_LANE_PRBS_COUNT.aside = true := by decide
  grind [Latched.mk_, Out.Latched, CmdEnd.Latched, State.checkLanePrbs_latch, State.checkPrbs_latch, State.setLane_latch, State.set_latch]

theorem execRetrainTimeout_latch {z : State} (l : Fin 192) (hk : Latched z) :
    Out.Latched (execRetrainTimeout l z) := by
  unfold execRetrainTimeout
  grind [Latched.mk_, Out.Latched, CmdEnd.Latched, State.renegotiate_latch]

theorem execCreditBlockRefresh_latch {z : State} (l : Fin 192) (hk : Latched z) :
    Out.Latched (execCreditBlockRefresh l z) := by
  unfold execCreditBlockRefresh
  grind [Latched.mk_, Out.Latched, CmdEnd.Latched, State.drainLane_latch, State.sendBlock_latch]

theorem execDelayMeasureTimer_latch {z : State} (p : Fin 96) (hk : Latched z) :
    Out.Latched (execDelayMeasureTimer p z) := by
  unfold execDelayMeasureTimer
  grind [Latched.mk_, Out.Latched, CmdEnd.Latched, State.each_latch, State.sendEcho_latch]

theorem execHlfCtrlWrite_latch {z : State} (w : World) (v : BitVec 32) (hk : Latched z) : Out.Latched (execHlfCtrlWrite w v z) := by
  refine State.rowWrite_latch _ _ _ _ _ _ _ _ _ (by decide) noLast_aside hk fun x hx => State.each_latch _ _ hx fun b p hb => ?_
  grind [State.resumeDiscover_latch, State.setHead_latch, State.setPort_latch]

theorem State.portEnable_latch {z : State} (p : Nat) (hk : Latched z) :
    Latched (State.portEnable z p) := by
  unfold State.portEnable
  grind [Latched.mk_, State.portLeaves_latch, State.renegotiate_latch, State.setHead_latch, State.setPort_latch, State.startDiscover_latch]

theorem execPortEnableWrite_latch {z : State} (w : World) (p : Fin 96) (v : BitVec 32) (hk : Latched z) :
    Out.Latched (execPortEnableWrite w p v z) :=
  State.rowWrite_latch _ _ _ _ _ _ _ _ _ (by decide) noLast_aside hk fun _ hx => State.portEnable_latch _ hx

theorem execPortRetrain_latch {z : State} (w : World) (p : Fin 96) (v : BitVec 32) (hk : Latched z) :
    Out.Latched (execPortRetrain w p v z) := by
  unfold execPortRetrain
  have hid : RegId.isWorldMap .HLF_PORT_CTRL = false := by decide
  have haside : R.HLF_PORT_STATE_LAST_STATUS.aside = true := by decide
  grind [Latched.mk_, Out.Latched, CmdEnd.Latched, State.portEnable_latch, State.renegotiate_latch, State.rowWrite_latch]

theorem execHeadCfgRequest_latch {z : State} (w : World) (v : BitVec 32) (hk : Latched z) :
    Out.Latched (execHeadCfgRequest w v z) := by
  unfold execHeadCfgRequest
  have hid : RegId.isWorldMap .HLF_CFG_CMD = false := by decide
  have haside : R.HLF_CFG_CMD_BUSY.aside = true ∧ R.HLF_CFG_CMD_STATUS.aside = true := by decide
  grind [Latched.mk_, Out.Latched, CmdEnd.Latched, State.nextRequest_latch, State.rowWrite_latch, State.set_latch]

theorem execHeadCfgTimeout_latch {z : State}  (hk : Latched z) :
    Out.Latched (execHeadCfgTimeout z) := by
  unfold execHeadCfgTimeout
  grind [Latched.mk_, Out.Latched, CmdEnd.Latched, State.endCfg_latch, State.nextRequest_latch]

/-! ### Iea -/

theorem State.firePort_latch {z : State} (e c : Nat) (hk : Latched z) :
    Latched (State.firePort z e c) := by
  unfold State.firePort
  grind [Latched.mk_, State.countFiring_latch, State.fireInput_latch, State.fireOutput_latch]

theorem State.fireCell_latch {z : State} (e c : Nat) (hk : Latched z) : Latched (State.fireCell z e c) := by
  unfold State.fireCell
  dsimp only
  split
  · exact hk
  · exact State.faultEngine_latch _ _ _ hk
  · next y n _ =>
    have h1 := State.setEngine_latch e y hk
    split
    · exact h1
    · exact State.countFiring_latch _ _ h1

theorem State.storeError_latch {z : State} (e c : Nat) (p0 : LsErr) (hk : Latched z) :
    Latched (State.storeError z e c p0).2 := by
  have haside : R.IEA_ENG_LS_ECC_CORR.aside = true ∧ R.IEA_ENG_LS_ECC_UNCORR.aside = true := by decide
  induction p0 generalizing z <;> grind [State.storeError, Latched.mk_, State.addSat_latch, State.faultEngine_latch]

theorem State.afterFiring_latch {z : State} (e : Nat) (hk : Latched z) :
    Latched (State.afterFiring z e) := by
  unfold State.afterFiring
  grind [Latched.mk_, State.checkReload_latch, State.syncHeld_latch]

theorem execCellFire_latch {z : State} (e : Fin 512) (c : Fin 48) (err : LsErr) (busy : Nat) (hk : Latched z) :
    Out.Latched (execCellFire e c err busy z) := by
  unfold execCellFire
  have haside : R.SCU_PACE_BUSY.aside = true ∧ R.SCU_PACE_HS.aside = true := by decide
  grind [Latched.mk_, Out.Latched, CmdEnd.Latched, State.add_latch, State.afterFiring_latch, State.discardInput_latch,
    State.fireCell_latch, State.firePort_latch, State.portWord_latch, State.storeError_latch]

theorem execHandshakeTimeoutFault_latch {z : State} (e : Fin 512) (c : Fin 48) (hk : Latched z) :
    Out.Latched (execHandshakeTimeoutFault e c z) := by
  unfold execHandshakeTimeoutFault
  grind [Latched.mk_, Out.Latched, CmdEnd.Latched, State.afterFiring_latch, State.faultEngine_latch]

theorem execSeqContinue_latch {z : State} (w : World) (e : Fin 512) (hk : Latched z) :
    Out.Latched (execSeqContinue w e z) := by
  unfold execSeqContinue
  have haside : R.IEA_ENG_CMD_LAST_STATUS.aside = true := by decide
  grind [Latched.mk_, Out.Latched, CmdEnd.Latched, State.afterFiring_latch, State.hostWrite_latch, State.seqStep_latch]

theorem State.lsRead_latch {z : State} (i a : Nat) (err : LsErr) (hk : Latched z) :
    Latched (State.lsRead z i a err) := by
  unfold State.lsRead
  have h1 : Latched (if err = .uncorrectable then { z with fresh := z.fresh + 1 } else z) := by
    split
    · exact hk
    · exact hk
  dsimp only
  split
  · exact State.set_latch _ _ _ _ rfl h1
  · exact State.set_latch _ _ _ _ rfl (State.afterFiring_latch _ (State.storeError_latch _ _ _ h1))

theorem execLocalStoreAccess_latch {z : State} (w : World) (e : Fin 512) (x : LsAccess) (hk : Latched z) :
    Out.Latched (execLocalStoreAccess w e x z) := by
  unfold execLocalStoreAccess
  have haside : R.IEA_ENG_LS_ADDR_ADDR.aside = true ∧ R.IEA_ENG_CMD_LAST_STATUS.aside = true := by decide
  grind [Latched.mk_, Out.Latched, CmdEnd.Latched, State.hostRead_latch, State.hostWrite_latch, State.lsRead_latch,
    State.modEngine_latch, State.set_latch]

/-! ### Ilc -/

theorem State.judgeObservation_latch {z : State} (c n : Nat) (hk : Latched z) :
    Latched (State.judgeObservation z c n) := by
  unfold State.judgeObservation
  grind [Latched.mk_, State.stringFault_latch]

theorem execStringObservation_latch {z : State} (c : Fin 96) (cur : BitVec 12) (mv : BitVec 16) (hk : Latched z) :
    Out.Latched (execStringObservation c cur mv z) := by
  unfold execStringObservation
  have haside : R.ILC_STR_MEAS_I.aside = true ∧ R.ILC_STR_MEAS_V.aside = true ∧ R.ILC_STR_STATUS_SINCE.aside = true ∧
      R.ILC_STR_STATUS_FAILS.aside = true := by decide
  grind [Latched.mk_, Out.Latched, CmdEnd.Latched, State.judgeObservation_latch, State.setChan_latch, State.set_latch]

theorem execStringOvercurrent_latch {z : State} (c : Fin 96) (hk : Latched z) :
    Out.Latched (execStringOvercurrent c z) := by
  unfold execStringOvercurrent
  grind [Latched.mk_, Out.Latched, CmdEnd.Latched, State.stringFault_latch]

theorem execDiagPulse_latch {z : State} (g : Fin 8) (hk : Latched z) :
    Out.Latched (execDiagPulse g z) := by
  unfold execDiagPulse
  have haside : R.ILC_STR_STATUS_DIAGS.aside = true := by decide
  grind [Latched.mk_, Out.Latched, CmdEnd.Latched, State.add_latch, State.each_latch, State.gateOn_latch, State.setChan_latch]

theorem execPatternWindowWrite_latch {z : State} (w : World) (j : Fin 16) (o : Fin 12288) (v : BitVec 32) (hk : Latched z) :
    Out.Latched (execPatternWindowWrite w j o v z) := by
  unfold execPatternWindowWrite
  have haside : R.ILC_REFUSED_COUNT.aside = true := by decide
  grind [Latched.mk_, ilcLast_aside, Out.Latched, CmdEnd.Latched, Keeps.leaf_, State.add_latch, State.raise_latch, State.refuse_latch,
    State.windowWrite_latch]

theorem State.pendBank_latch {z : State} (g h : Nat) (hk : Latched z) :
    Latched (State.pendBank z g h) := by
  unfold State.pendBank
  have haside : R.ILC_GRP_BANK_REPLACED.aside = true ∧ R.ILC_REPLACED_COUNT.aside = true ∧ R.ILC_GRP_BANK_PENDING.aside = true := by decide
  grind [Latched.mk_, State.add_latch, State.setGrp_latch, State.set_latch]

theorem execPatternSwapRequest_latch {z : State} (w : World) (g : Fin 8) (v : BitVec 32) (hk : Latched z) :
    Out.Latched (execPatternSwapRequest w g v z) := by
  unfold execPatternSwapRequest
  have hid : RegId.isWorldMap .ILC_GRP_BANK = false := by decide
  grind [Latched.mk_, ilcLast_aside, Out.Latched, CmdEnd.Latched, State.pendBank_latch, State.rowWrite_latch]

theorem State.forceOff_latch {z : State} (g : Nat) (b : Bool) (hk : Latched z) :
    Latched (State.forceOff z g b) := by
  unfold State.forceOff
  have haside : R.ILC_GRP_CTRL_OFF_NOW.aside = true := by decide
  grind [Latched.mk_, State.setGrp_latch, State.set_latch]

theorem execForceOffWrite_latch {z : State} (w : World) (g : Fin 8) (v : BitVec 32) (hk : Latched z) :
    Out.Latched (execForceOffWrite w g v z) := by
  unfold execForceOffWrite
  have hid : RegId.isWorldMap .ILC_GRP_CTRL = false := by decide
  grind [Latched.mk_, ilcLast_aside, Out.Latched, CmdEnd.Latched, State.forceOff_latch, State.gatesLow_latch, State.rowWrite_latch]

theorem execIlcTcompEnable_latch {z : State} (w : World) (g : Fin 8) (v : BitVec 32) (hk : Latched z) :
    Out.Latched (execIlcTcompEnable w g v z) := by
  unfold execIlcTcompEnable
  have hid : RegId.isWorldMap .ILC_GRP_TCOMP = false := by decide
  have haside : R.ILC_GRP_TCOMP_HOLD.aside = true := by decide
  grind [Latched.mk_, ilcLast_aside, Out.Latched, CmdEnd.Latched, State.raise_latch, State.rowWrite_latch, State.setGrp_latch,
    State.set_latch]

theorem execStringFaultClear_latch {z : State} (w : World) (c : Fin 96) (v : BitVec 32) (hk : Latched z) :
    Out.Latched (execStringFaultClear w c v z) := by
  unfold execStringFaultClear
  have hid : RegId.isWorldMap .ILC_STR_STATUS = false := by decide
  have haside : R.ILC_STR_STATUS_FAILS.aside = true := by decide
  grind [Latched.mk_, ilcLast_aside, Out.Latched, CmdEnd.Latched, State.rowWrite_latch, State.setChan_latch, State.set_latch,
    State.syncFaulted_latch]

/-! ### Kru -/

theorem State.laneRetrained_latch {z : State} (pt : Nat) (locked : List Nat) (at_ : Nat → KTrain) (hk : Latched z) :
    Latched (State.laneRetrained z pt locked at_) := by
  unfold State.laneRetrained
  have haside : R.KRU_PORT_LANES_DELAY.aside = true := by decide
  grind [Latched.mk_, State.each_latch, State.kelimInit_latch, State.setKlane_latch, State.set_latch, State.trainLane_latch]

theorem execKruPortTrainDone_latch {z : State} (pt : Fin 2) (lock : BitVec 16) (ver : BitVec 8) (tr : List KTrain) (hk : Latched z) :
    Out.Latched (execKruPortTrainDone pt lock ver tr z) := by
  unfold execKruPortTrainDone
  have haside : R.KRU_PORT_STATUS_LAST_STATUS.aside = true ∧ R.KRU_PORT_LANES_ACTIVE.aside = true ∧
      R.KRU_PORT_LANES_DELAY.aside = true := by decide
  grind [Latched.mk_, Out.Latched, CmdEnd.Latched, State.authStep_latch, State.each_latch, State.kelimInit_latch,
    State.laneRetrained_latch, State.portLost_latch, State.setKlane_latch, State.setKport_latch, State.set_latch, State.trainLane_latch]

theorem execKruPortRetry_latch {z : State} (pt : Fin 2) (hk : Latched z) :
    Out.Latched (execKruPortRetry pt z) := by
  unfold execKruPortRetry
  grind [Latched.mk_, Out.Latched, CmdEnd.Latched, State.startTrain_latch]

theorem execAuthFrameRx_latch {z : State} (l : Fin 32) (k : KFrame) (m : SpdmMsg) (hk : Latched z) :
    Out.Latched (execAuthFrameRx l k m z) := by
  unfold execAuthFrameRx
  grind [Latched.mk_, Out.Latched, CmdEnd.Latched, State.authAnswer_latch, State.emit_latch, State.kelimRx_latch, State.sendAuth_latch,
    State.takeFresh_latch]

theorem execKelimCredStatusRx_latch {z : State} (l : LaneCtl) (held rxReturned _spent : BitVec 16) (initAck : Bool) (hk : Latched z) :
    Out.Latched (execKelimCredStatusRx l held rxReturned _spent initAck z) := by
  unfold execKelimCredStatusRx
  have haside : R.KRU_PORT_LANES_ACTIVE.aside = true := by decide
  grind [Latched.mk_, Out.Latched, CmdEnd.Latched, State.ahead_latch, State.initAck_latch, State.kelimRetrain_latch,
    State.sendCredStatus_latch, State.setKlane_latch, State.set_latch]

theorem execKruPortDead_latch {z : State} (pt : Fin 2) (hk : Latched z) :
    Out.Latched (execKruPortDead pt z) := by
  unfold execKruPortDead
  grind [Latched.mk_, Out.Latched, CmdEnd.Latched, State.portLost_latch]

theorem execDiscoverFrameRx_latch {z : State} (l : Fin 32) (k : KFrame) (foreign : Bool) (hk : Latched z) :
    Out.Latched (execDiscoverFrameRx l k foreign z) := by
  unfold execDiscoverFrameRx
  have haside : R.KRU_PORT_STATUS_LAST_STATUS.aside = true ∧ R.KRU_STATUS_ID.aside = true := by decide
  grind [Latched.mk_, Out.Latched, CmdEnd.Latched, State.checkFormed_latch, State.foldOpen_latch, State.kelimRx_latch,
    State.portLost_latch, State.reform_latch, State.ringFail_latch, State.ringOut_latch, State.sendRoster_latch, State.set_latch,
    State.syncMember_latch]

theorem execRosterFrameRx_latch {z : State} (l : Fin 32) (k : KFrame) (hk : Latched z) :
    Out.Latched (execRosterFrameRx l k z) := by
  unfold execRosterFrameRx
  grind [Latched.mk_, Out.Latched, CmdEnd.Latched, State.checkFormed_latch, State.kelimRx_latch, State.ringDeliver_latch,
    State.syncMember_latch]

theorem execFormedFrameRx_latch {z : State} (l : Fin 32) (k : KFrame) (hk : Latched z) :
    Out.Latched (execFormedFrameRx l k z) := by
  unfold execFormedFrameRx
  grind [Latched.mk_, Out.Latched, CmdEnd.Latched, State.kelimRx_latch, State.ringDeliver_latch, State.takeFormed_latch]

theorem execFoldFrameRx_latch {z : State} (l : Fin 32) (k : KFrame) (hk : Latched z) :
    Out.Latched (execFoldFrameRx l k z) := by
  unfold execFoldFrameRx
  grind [Latched.mk_, Out.Latched, CmdEnd.Latched, State.kelimRx_latch, State.noteFold_latch, State.rediscover_latch, State.reform_latch,
    State.ringDeliver_latch]

theorem execFoldFormedTimer_latch {z : State} (t : Int) (hk : Latched z) :
    Out.Latched (execFoldFormedTimer t z) := by
  unfold execFoldFormedTimer
  grind [Latched.mk_, Out.Latched, CmdEnd.Latched, State.owedAligns_latch, State.raise_latch, State.reform_latch,
    State.reissueTokens_latch, State.sendFormed_latch]

theorem execRingReformTimeout_latch {z : State}  (hk : Latched z) :
    Out.Latched (execRingReformTimeout z) := by
  unfold execRingReformTimeout
  grind [Latched.mk_, Out.Latched, CmdEnd.Latched, State.reform_latch, State.ringFail_latch]

theorem execKruCfgWrite_latch {z : State} (w : World) (v : BitVec 32) (hk : Latched z) :
    Out.Latched (execKruCfgWrite w v z) := by
  unfold execKruCfgWrite
  have hid : RegId.isWorldMap .KRU_CFG = false := by decide
  have haside : R.KRU_STATUS_ROLE.aside = true ∧ R.KRU_STATUS_LAST_STATUS.aside = true := by decide
  grind [Latched.mk_, Out.Latched, CmdEnd.Latched, State.rowWrite_latch, State.set_latch, State.startKru_latch, State.stopKru_latch,
    State.syncMember_latch, State.tryDiscover_latch]

theorem execTimeSendTimer_latch {z : State} (t : Int) (hk : Latched z) :
    Out.Latched (execTimeSendTimer t z) := by
  unfold execTimeSendTimer
  grind [Latched.mk_, Out.Latched, CmdEnd.Latched, State.each_latch, State.replayAll_latch, State.ringSend_latch, State.sendAlignReq_latch]

theorem execTimeFrameRx_latch {z : State} (l : Fin 32) (k : KFrame) (t : Int) (resid : BitVec 32) (hk : Latched z) :
    Out.Latched (execTimeFrameRx l k t resid z) := by
  unfold execTimeFrameRx
  grind [Latched.mk_, Out.Latched, CmdEnd.Latched, State.kelimRx_latch, State.replayAll_latch, State.ringDeliver_latch]

theorem execAlignReqRx_latch {z : State} (l : Fin 32) (k : KFrame) (hk : Latched z) :
    Out.Latched (execAlignReqRx l k z) := by
  unfold execAlignReqRx
  have haside : R.KRU_ST_STATUS_ALIGN.aside = true := by decide
  grind [Latched.mk_, Out.Latched, CmdEnd.Latched, State.kelimRx_latch, State.ringDeliver_latch, State.ringSend_latch,
    State.setKst_latch, State.set_latch]

theorem execAlignAckRx_latch {z : State} (l : Fin 32) (k : KFrame) (t : Int) (hk : Latched z) :
    Out.Latched (execAlignAckRx l k t z) := by
  unfold execAlignAckRx
  grind [Latched.mk_, Out.Latched, CmdEnd.Latched, State.alignFail_latch, State.checkAlign_latch, State.kelimRx_latch,
    State.ringDeliver_latch, State.setKst_latch]

theorem execAlignLatch_latch {z : State} (n : Fin 8) (hk : Latched z) :
    Out.Latched (execAlignLatch n z) := by
  unfold execAlignLatch
  have haside : R.KRU_ST_STATUS_ALIGN.aside = true := by decide
  grind [Latched.mk_, Out.Latched, CmdEnd.Latched, State.checkAlign_latch, State.setKst_latch, State.set_latch]

theorem execAlignSetRx_latch {z : State} (l : Fin 32) (k : KFrame) (t : Int) (hk : Latched z) :
    Out.Latched (execAlignSetRx l k t z) := by
  unfold execAlignSetRx
  grind [Latched.mk_, Out.Latched, CmdEnd.Latched, State.kelimRx_latch, State.ringDeliver_latch, State.takeAlignSet_latch]

theorem execAlignAckTimeout_latch {z : State} (n : Fin 8) (hk : Latched z) :
    Out.Latched (execAlignAckTimeout n z) := by
  unfold execAlignAckTimeout
  grind [Latched.mk_, Out.Latched, CmdEnd.Latched, State.alignFail_latch]

theorem execAlignSetTimeout_latch {z : State} (n : Fin 8) (hk : Latched z) :
    Out.Latched (execAlignSetTimeout n z) := by
  unfold execAlignSetTimeout
  grind [Latched.mk_, Out.Latched, CmdEnd.Latched, State.alignFail_latch]

theorem execTokenFrameRx_latch {z : State} (l : Fin 32) (k : KFrame) (t : Int) (hk : Latched z) :
    Out.Latched (execTokenFrameRx l k t z) := by
  unfold execTokenFrameRx
  grind [Latched.mk_, Out.Latched, CmdEnd.Latched, State.count_latch, State.kelimRx_latch, State.ringOut_latch, State.tokenHome_latch,
    State.tokenPass_latch]

theorem execTokenTimeout_latch {z : State} (n : Fin 8) (hk : Latched z) :
    Out.Latched (execTokenTimeout n z) := by
  unfold execTokenTimeout
  have haside : R.KRU_AUD_LOST.aside = true := by decide
  grind [Latched.mk_, Out.Latched, CmdEnd.Latched, State.ringAuditFail_latch]

theorem execHingeFrameRx_latch {z : State} (l : Fin 32) (k : KFrame) (hk : Latched z) :
    Out.Latched (execHingeFrameRx l k z) := by
  unfold execHingeFrameRx
  have haside : R.KRU_ST_HINGE_H.aside = true ∧ R.KRU_ST_STATUS_HINGE_UNM.aside = true := by decide
  grind [Latched.mk_, Out.Latched, CmdEnd.Latched, State.kelimRx_latch, State.raise_latch, State.ringDeliver_latch, State.set_latch]

theorem execDovetailFrameRx_latch {z : State} (l : Fin 32) (k : KFrame) (hk : Latched z) :
    Out.Latched (execDovetailFrameRx l k z) := by
  unfold execDovetailFrameRx
  grind [Latched.mk_, Out.Latched, CmdEnd.Latched, State.dovetailColumns_latch, State.kelimRx_latch, State.ringDeliver_latch]

/-! ### Ltu -/

theorem execRefclkLoss_latch {z : State}  (hk : Latched z) :
    Out.Latched (execRefclkLoss z) := by
  unfold execRefclkLoss
  have haside : R.LTU_REF_STATUS_HOLDOVER.aside = true := by decide
  grind [Latched.mk_, Out.Latched, CmdEnd.Latched, State.raise_latch, State.set_latch]

theorem execHoldoverExit_latch {z : State}  (hk : Latched z) :
    Out.Latched (execHoldoverExit z) := by
  unfold execHoldoverExit
  grind [Latched.mk_, Out.Latched, CmdEnd.Latched]

theorem execTimebaseLock_latch {z : State}  (hk : Latched z) :
    Out.Latched (execTimebaseLock z) := by
  unfold execTimebaseLock
  have haside : R.LTU_REF_STATUS_LOCK.aside = true := by decide
  grind [Latched.mk_, Out.Latched, CmdEnd.Latched, State.set_latch]

theorem execTcompTick_latch {z : State}  (hk : Latched z) :
    Out.Latched (execTcompTick z) := by
  unfold execTcompTick
  have haside : R.LTU_REF_STATUS_CORR.aside = true ∧ R.LTU_REF_STATUS_TCOMP_HOLD.aside = true := by decide
  grind [Latched.mk_, Out.Latched, CmdEnd.Latched, State.setS_latch, State.set_latch, State.syncSteer_latch]

theorem execTcompEnableWrite_latch {z : State} (w : World) (v : BitVec 32) (hk : Latched z) :
    Out.Latched (execTcompEnableWrite w v z) := by
  unfold execTcompEnableWrite
  have hid : RegId.isWorldMap .LTU_TCOMP_CTRL = false := by decide
  have haside : R.LTU_REF_STATUS_LAST_STATUS.aside = true := by decide
  grind [Latched.mk_, Out.Latched, CmdEnd.Latched, State.rowWrite_latch]

theorem State.edgeStation_latch {z : State} (n : Nat) (t : Int) (hk : Latched z) :
    Latched (State.edgeStation z n t) := by
  unfold State.edgeStation
  grind [Latched.mk_, State.count_latch, State.stepFour_latch, State.watchEntry_latch, State.watchTarget_latch]

theorem State.decodeEdge_latch {z : State} (i : Nat) (a b : Bool) (u : Int) (hk : Latched z) :
    Latched (State.decodeEdge z i a b u) := by
  unfold State.decodeEdge
  have haside : R.LTU_ENC_ERR_COUNT.aside = true ∧ R.LTU_ENC_POS_COUNT.aside = true ∧ R.LTU_ENC_POS_PHASE.aside = true := by decide
  grind [Latched.mk_, State.add_latch, State.count_latch, State.each_latch, State.edgeStation_latch, State.raise_latch,
    State.setEnc_latch, State.setPos16_latch, State.syncPeriod_latch]

theorem State.sampleAB_latch {z : State} (i : Nat) (a b : Bool) (t : Int) (hk : Latched z) :
    Latched (State.sampleAB z i a b t) := by
  unfold State.sampleAB
  grind [Latched.mk_, State.decodeEdge_latch, State.setEnc_latch]

theorem execEncoderEdge_latch {z : State} (e : Fin 4) (a b : Bool) (t : Int) (hk : Latched z) :
    Out.Latched (execEncoderEdge e a b t z) := by
  unfold execEncoderEdge
  grind [Latched.mk_, Out.Latched, CmdEnd.Latched, State.each_latch, State.sampleAB_latch]

theorem State.sampleZ_latch {z : State} (i : Nat) (lv : Bool) (t : Int) (hk : Latched z) :
    Latched (State.sampleZ z i lv t) := by
  unfold State.sampleZ
  have haside : R.LTU_ENC_ZLATCH_COUNT.aside = true ∧ R.LTU_ENC_ZLATCH_PHASE.aside = true := by decide
  grind [Latched.mk_, State.setEnc_latch, State.setPos16_latch]

theorem execEncoderIndexEdge_latch {z : State} (e : Fin 4) (p : PinSample) (hk : Latched z) :
    Out.Latched (execEncoderIndexEdge e p z) := by
  unfold execEncoderIndexEdge
  grind [Latched.mk_, Out.Latched, CmdEnd.Latched, State.each_latch, State.sampleZ_latch]

theorem State.afterCommit_latch {z : State} (n l : Nat) (now : Int) (hk : Latched z) :
    Latched (State.afterCommit z n l now) := by
  unfold State.afterCommit
  grind [Latched.mk_, State.checkReload_latch, State.checkStop_latch, State.each_latch, State.enterDrain_latch, State.swapBank_latch,
    State.syncHeld_latch, State.syncStore_latch]

theorem execLineCommit_latch {z : State} (n : Fin 8) (now : Int) (hk : Latched z) :
    Out.Latched (execLineCommit n now z) := by
  unfold execLineCommit
  grind [Latched.mk_, Out.Latched, CmdEnd.Latched, State.afterCommit_latch, State.commitLine_latch, State.enterFault_latch]

theorem State.matchTriggered_latch {z : State} (n : Nat) (l : CLine) (hk : Latched z) :
    Latched (State.matchTriggered z n l) := by
  unfold State.matchTriggered
  have haside : R.SST_ST_REW_STATUS_PHASE.aside = true := by decide
  grind [Latched.mk_, State.setSto_latch, State.set_latch]

theorem State.ringFirst_latch {z : State} (n : Nat) (hk : Latched z) :
    Latched (State.ringFirst z n) := by
  unfold State.ringFirst
  have haside : R.KRU_ST_STATUS_ALIGN.aside = true := by decide
  grind [Latched.mk_, State.set_latch]

theorem execLineTrigger_latch {z : State} (n : Fin 8) (hk : Latched z) :
    Out.Latched (execLineTrigger n z) := by
  unfold execLineTrigger
  have haside : R.LTU_ST_WPI.aside = true := by decide
  grind [Latched.mk_, Out.Latched, CmdEnd.Latched, State.checkReload_latch, State.each_latch, State.illuminate_latch,
    State.matchTriggered_latch, State.noteTrigger_latch, State.openLine_latch, State.ringFirst_latch, State.sendHead_latch,
    State.setLst_latch, State.set_latch, State.syncHeld_latch, State.takeBase_latch]

theorem execHostTriggerWrite_latch {z : State} (w : World) (n : Fin 8) (v : BitVec 32) (hk : Latched z) :
    Out.Latched (execHostTriggerWrite w n v z) := by
  unfold execHostTriggerWrite
  have haside : R.LTU_ST_HOSTTRIG_PENDING.aside = true ∧ R.LTU_ST_STATUS_LAST_STATUS.aside = true := by decide
  grind [Latched.mk_, Out.Latched, CmdEnd.Latched, State.hostWrite_latch, State.set_latch]

theorem execMatchArm_latch {z : State} (w : World) (n : Fin 8) (v : BitVec 32) (t : Int) (hk : Latched z) :
    Out.Latched (execMatchArm w n v t z) := by
  unfold execMatchArm
  have hid : RegId.isWorldMap .LTU_ST_MATCH_CFG = false := by decide
  have haside : R.LTU_ST_STATUS_LAST_STATUS.aside = true := by decide
  grind [Latched.mk_, Out.Latched, CmdEnd.Latched, State.armMatch_latch, State.rowWrite_latch]

/-! ### Mailbox -/

theorem execMailboxTailWrite_latch {z : State} (w : World) (r : Fin 2) (v : BitVec 32) (hk : Latched z) :
    Out.Latched (execMailboxTailWrite w r v z) := by
  unfold execMailboxTailWrite
  have hid : RegId.isWorldMap .SMC_MB_CMD_TAIL = false := by decide
  have haside : R.SMC_MB_STATUS_LAST_STATUS.aside = true := by decide
  grind [Latched.mk_, Out.Latched, CmdEnd.Latched, State.rowWrite_latch]

theorem execMailboxRspHeadWrite_latch {z : State} (w : World) (r : Fin 2) (v : BitVec 32) (hk : Latched z) :
    Out.Latched (execMailboxRspHeadWrite w r v z) := by
  refine State.rowWrite_latch _ _ _ _ _ _ _ _ _ (by decide) noLast_aside hk fun x hx => ?_
  split
  · exact State.set_latch _ _ _ _ rfl hx
  · exact hx

theorem execMailboxCommandMalformed_latch {z : State} (r : Fin 2) (hk : Latched z) :
    Out.Latched (execMailboxCommandMalformed r z) := by
  unfold execMailboxCommandMalformed
  grind [Latched.mk_, Out.Latched, CmdEnd.Latched, State.raise_latch, State.respondRefused_latch, State.takeCommand_latch,
    State.waitRsp_latch]

theorem execDevInfo_latch {z : State} (r : Fin 2) (hk : Latched z) :
    Out.Latched (execDevInfo r z) := by
  unfold execDevInfo
  grind [Latched.mk_, Out.Latched, CmdEnd.Latched, State.command_latch]

theorem State.faultClear_latch {z : State} (answers : Bool) (hk : Latched z) : CmdEnd.Latched (State.faultClear z answers) := by
  unfold State.faultClear
  have hdev : z.dev = Dev.thermalLatch := hk
  rw [if_pos (.inl (by rw [hdev]; decide))]
  exact CmdEnd.latched_refused _ _ _

theorem execFaultClear_latch {z : State} (r : Fin 2) (answers : Bool) (hk : Latched z) :
    Out.Latched (execFaultClear r answers z) := by
  unfold execFaultClear
  grind [Latched.mk_, Out.Latched, CmdEnd.Latched, State.command_latch, State.faultClear_latch]

theorem execDevReset_latch {z : State} (r : Fin 2) (hk : Latched z) :
    Out.Latched (execDevReset r z) := by
  unfold execDevReset
  grind [Latched.mk_, Out.Latched, CmdEnd.Latched, State.command_latch]

theorem execWorkbenchTimeout_latch {z : State}  (hk : Latched z) :
    Out.Latched (execWorkbenchTimeout z) := by
  unfold execWorkbenchTimeout
  grind [Latched.mk_, Out.Latched, CmdEnd.Latched, State.enterFault_latch]

theorem execManagementSramUncorrectable_latch {z : State}  (hk : Latched z) :
    Out.Latched (execManagementSramUncorrectable z) := by
  unfold execManagementSramUncorrectable
  grind [Latched.mk_, Out.Latched, CmdEnd.Latched, State.enterFault_latch]

theorem execOwnerEnroll_latch {z : State} (r : Fin 2) (key : Nat) (hk : Latched z) :
    Out.Latched (execOwnerEnroll r key z) := by
  unfold execOwnerEnroll
  grind [Latched.mk_, Out.Latched, CmdEnd.Latched, State.command_latch]

theorem State.enrolled_latch {z : State} (r : Nat) (x : Running) (dig : List Nat) (kekOk : Bool) (hk : Latched z) :
    Latched (State.enrolled z r x dig kekOk) := by
  have hdigest := State.eachDigestWord_latch R.SMC_OWNER_DIG_DIGEST (fun i => field dig (4 * i) 4) (by decide) hk
  have haside : R.SMC_ID_CFG_OWNER.aside = true := by decide
  unfold State.enrolled
  grind [Latched.mk_, State.endRun_latch, State.raise_latch, State.set_latch, State.syncMeas_latch]

theorem execOwnerEnrollDone_latch {z : State} (dig : List Byte) (kekOk : Bool) (hk : Latched z) :
    Out.Latched (execOwnerEnrollDone dig kekOk z) := by
  unfold execOwnerEnrollDone
  grind [Latched.mk_, Out.Latched, CmdEnd.Latched, State.enrolled_latch]

theorem State.svnCommit_latch {z : State} (which : Nat) (hk : Latched z) :
    CmdEnd.Latched (State.svnCommit z which) := by
  unfold State.svnCommit
  have haside : R.SMC_FW_SVN_CAB.aside = true ∧ R.SMC_FW_SVN_WB.aside = true := by decide
  grind [Latched.mk_, CmdEnd.Latched, State.set_latch]

theorem execSvnCommit_latch {z : State} (r : Fin 2) (hk : Latched z) :
    Out.Latched (execSvnCommit r z) := by
  unfold execSvnCommit
  grind [Latched.mk_, Out.Latched, CmdEnd.Latched, State.command_latch, State.svnCommit_latch]

theorem State.flashWrite_latch {z : State} (off len addr : Nat) (hk : Latched z) :
    CmdEnd.Latched (State.flashWrite z off len addr) := by
  unfold State.flashWrite
  grind [Latched.mk_, CmdEnd.Latched, State.emit_latch]

theorem execFlashWrite_latch {z : State} (r : Fin 2) (hk : Latched z) :
    Out.Latched (execFlashWrite r z) := by
  unfold execFlashWrite
  grind [Latched.mk_, Out.Latched, CmdEnd.Latched, State.command_latch, State.flashWrite_latch]

theorem execFlashWriteDone_latch {z : State} (data : Option (List Byte)) (same : Bool) (hk : Latched z) :
    Out.Latched (execFlashWriteDone data same z) := by
  unfold execFlashWriteDone
  grind [Latched.mk_, Out.Latched, CmdEnd.Latched, State.emit_latch, State.endRun_latch, State.flashWrite_latch]

theorem execSpdmRequest_latch {z : State} (tr : Transport) (v : BitVec 8) (r : SpdmReq) (busy : Bool) (hk : Latched z) :
    Out.Latched (execSpdmRequest tr v r busy z) := by
  unfold execSpdmRequest
  grind [Latched.mk_, Out.Latched, CmdEnd.Latched, State.emit_latch, State.takeFresh_latch]

theorem execHeadMeasurementRead_latch {z : State} (p : Fin 96) (ended : Bool) (hk : Latched z) :
    Out.Latched (execHeadMeasurementRead p ended z) := by
  unfold execHeadMeasurementRead
  grind [Latched.mk_, Out.Latched, CmdEnd.Latched, State.nextRequest_latch, State.raise_latch, State.setHead_latch, State.setMeas_latch]

/-! ### Mfe -/

theorem execMfeRefEnable_latch {z : State} (w : World) (v : BitVec 32) (hk : Latched z) :
    Out.Latched (execMfeRefEnable w v z) := by
  unfold execMfeRefEnable
  grind [Latched.mk_, Out.Latched, CmdEnd.Latched, State.mfeCtrl_latch]

theorem execMfeRefReady_latch {z : State}  (hk : Latched z) :
    Out.Latched (execMfeRefReady z) := by
  unfold execMfeRefReady
  have haside : R.MFE_STATUS_REF_RDY.aside = true := by decide
  grind [Latched.mk_, Out.Latched, CmdEnd.Latched, State.set_latch]

theorem execMfeSeqEnable_latch {z : State} (w : World) (v : BitVec 32) (hk : Latched z) :
    Out.Latched (execMfeSeqEnable w v z) := by
  unfold execMfeSeqEnable
  grind [Latched.mk_, Out.Latched, CmdEnd.Latched, State.mfeCtrl_latch]

theorem execMfeFrameStart_latch {z : State}  (hk : Latched z) :
    Out.Latched (execMfeFrameStart z) := by
  unfold execMfeFrameStart
  have haside : R.MFE_ENT_EXC_RANGE.aside = true := by decide
  grind [Latched.mk_, Out.Latched, CmdEnd.Latched, State.each_latch, State.restartChain_latch, State.setMent_latch, State.set_latch]

theorem execMfeEntrySample_latch {z : State} (ab bc : List (Fin 5 × BitVec 16)) (hk : Latched z) :
    Out.Latched (execMfeEntrySample ab bc z) := by
  unfold execMfeEntrySample
  grind [Latched.mk_, Out.Latched, CmdEnd.Latched, State.dwellEnd_latch, State.regular_latch, State.syncUrgent_latch,
    State.urgentDone_latch]

theorem execMfeUrgentRequest_latch {z : State} (w : World) (v : BitVec 32) (hk : Latched z) :
    Out.Latched (execMfeUrgentRequest w v z) := by
  unfold execMfeUrgentRequest
  have hid : RegId.isWorldMap .MFE_URGENT = false := by decide
  grind [Latched.mk_, mfeLast_aside, Out.Latched, CmdEnd.Latched, State.rowWrite_latch, State.syncUrgent_latch]

theorem execMfeBackgroundCal_latch {z : State} (ground : Int) (ref : CalRef) (hk : Latched z) :
    Out.Latched (execMfeBackgroundCal ground ref z) := by
  unfold execMfeBackgroundCal
  have haside : R.MFE_SLICE_OFFSET.aside = true ∧ R.MFE_SLICE_GAIN.aside = true ∧ R.MFE_SLICE_ROLE.aside = true := by decide
  grind [Latched.mk_, Out.Latched, CmdEnd.Latched, State.boundary_latch, State.retireSlice_latch, State.setS_latch, State.set_latch]

theorem execMfeChainSync_latch {z : State} (w : World) (v : BitVec 32) (hk : Latched z) :
    Out.Latched (execMfeChainSync w v z) := by
  unfold execMfeChainSync
  have hid : RegId.isWorldMap .MFE_SYNC = false := by decide
  grind [Latched.mk_, mfeLast_aside, Out.Latched, CmdEnd.Latched, State.rowWrite_latch]

theorem execMfeOpenClear_latch {z : State} (w : World) (e : Fin 64) (v : BitVec 32) (hk : Latched z) :
    Out.Latched (execMfeOpenClear w e v z) := by
  unfold execMfeOpenClear
  have hid : RegId.isWorldMap .MFE_ENT_STATUS = false := by decide
  grind [Latched.mk_, mfeLast_aside, Out.Latched, CmdEnd.Latched, State.noteExc_latch, State.rowWrite_latch]

theorem execMfeExcWrite_latch {z : State} (w : World) (e : Fin 64) (v : BitVec 32) (hk : Latched z) :
    Out.Latched (execMfeExcWrite w e v z) := by
  unfold execMfeExcWrite
  have hid : RegId.isWorldMap .MFE_ENT_EXC = false := by decide
  grind [Latched.mk_, mfeLast_aside, Out.Latched, CmdEnd.Latched, State.noteExc_latch, State.rowWrite_latch, State.setMent_latch]

theorem execMfeAccSumLoRead_latch {z : State} (w : World) (e : Fin 64) (hk : Latched z) :
    Out.Latched (execMfeAccSumLoRead w e z) := by
  unfold execMfeAccSumLoRead
  grind [Latched.mk_, Out.Latched, CmdEnd.Latched, State.clearAcc_latch, State.hostRead_latch]

theorem execMfeResRead_latch {z : State} (w : World) (e : Fin 64) (hk : Latched z) :
    Out.Latched (execMfeResRead w e z) := by
  unfold execMfeResRead
  grind [Latched.mk_, Out.Latched, CmdEnd.Latched, State.hostRead_latch]

theorem execMfeLeafSwapRequest_latch {z : State} (w : World) (c : Fin 32) (v : BitVec 32) (hk : Latched z) :
    Out.Latched (execMfeLeafSwapRequest w c v z) := by
  unfold execMfeLeafSwapRequest
  have hid : RegId.isWorldMap .MFE_CH_SWAP = false := by decide
  have haside : R.MFE_CH_SWAP_REPLACED.aside = true ∧ R.MFE_REPLACED_COUNT.aside = true := by decide
  grind [Latched.mk_, mfeLast_aside, Out.Latched, CmdEnd.Latched, State.add_latch, State.rowWrite_latch, State.setChain_latch,
    State.set_latch, State.syncChain_latch]

theorem execMfeLeafWindowWrite_latch {z : State} (w : World) (a : Fin 65536) (v : BitVec 32) (hk : Latched z) :
    Out.Latched (execMfeLeafWindowWrite w a v z) := by
  unfold execMfeLeafWindowWrite
  have haside : R.MFE_LEAF_REFUSED_COUNT.aside = true := by decide
  grind [Latched.mk_, mfeLast_aside, Out.Latched, CmdEnd.Latched, State.add_latch, State.mfeEvent0_latch, State.putLeaf_latch,
    State.refuse_latch, State.windowWrite_latch]

theorem execMfeOutEnable_latch {z : State} (w : World) (o : Fin 8) (v : BitVec 32) (hk : Latched z) :
    Out.Latched (execMfeOutEnable w o v z) := by
  unfold execMfeOutEnable
  have hid : RegId.isWorldMap .MFE_OUT_CFG = false := by decide
  grind [Latched.mk_, mfeLast_aside, Out.Latched, CmdEnd.Latched, State.emit_latch, State.rowWrite_latch, State.setMout_latch]

theorem execMfeOutPeriodEnd_latch {z : State} (o : Fin 8) (hk : Latched z) :
    Out.Latched (execMfeOutPeriodEnd o z) := by
  unfold execMfeOutPeriodEnd
  grind [Latched.mk_, Out.Latched, CmdEnd.Latched, State.showOut_latch]

/-! ### Pace -/

theorem execPaceWindowEnd_latch {z : State} (t : Int) (hk : Latched z) :
    Out.Latched (execPaceWindowEnd t z) := by
  unfold execPaceWindowEnd
  grind [Latched.mk_, Out.Latched, CmdEnd.Latched, State.countHold_latch, State.each_latch, State.findDeficits_latch,
    State.fitVoltage_latch, State.moveCaps_latch, State.passHinges_latch, State.shedWeb_latch, State.startWindow_latch,
    State.writeRate_latch]

theorem execVfitHoldEnd_latch {z : State}  (hk : Latched z) :
    Out.Latched (execVfitHoldEnd z) := by
  unfold execVfitHoldEnd
  have haside : R.SMC_VFIT_STATUS_STATE.aside = true := by decide
  grind [Latched.mk_, Out.Latched, CmdEnd.Latched, State.set_latch]

theorem execVmaxReadbackTimeout_latch {z : State}  (hk : Latched z) :
    Out.Latched (execVmaxReadbackTimeout z) := by
  unfold execVmaxReadbackTimeout
  grind [Latched.mk_, Out.Latched, CmdEnd.Latched, State.failWaits_latch]

theorem execPmbusReadbackPoll_latch {z : State} (mv : BitVec 12) (hk : Latched z) :
    Out.Latched (execPmbusReadbackPoll mv z) := by
  unfold execPmbusReadbackPoll
  have haside : R.SMC_PMB_STATUS_VREAD.aside = true := by decide
  grind [Latched.mk_, Out.Latched, CmdEnd.Latched, State.completeWaits_latch, State.pmbus_latch, State.set_latch, State.startWindow_latch]

theorem execPmbusTransactionFail_latch {z : State}  (hk : Latched z) :
    Out.Latched (execPmbusTransactionFail z) := by
  unfold execPmbusTransactionFail
  have haside : R.SMC_PMB_STATUS_ERR.aside = true ∧ R.SMC_VFIT_CTRL_EN.aside = true ∧ R.SMC_VFIT_STATUS_STATE.aside = true := by decide
  grind [Latched.mk_, Out.Latched, CmdEnd.Latched, State.bootVcoreFail_latch, State.failWaits_latch, State.pmbus_latch,
    State.raise_latch, State.set_latch, State.writeVset_latch]

theorem execPmbusAlert_latch {z : State} (word : BitVec 16) (hk : Latched z) :
    Out.Latched (execPmbusAlert word z) := by
  unfold execPmbusAlert
  have haside : R.SMC_PMB_STATUS_ALERT.aside = true ∧ R.SMC_PMB_STATUS_WORD.aside = true := by decide
  grind [Latched.mk_, Out.Latched, CmdEnd.Latched, State.pmbus_latch, State.raise_latch, State.set_latch]

theorem State.limitErr_latch {z : State} (w : World) (hk : Latched z) :
    Latched (State.limitErr z w) := by
  unfold State.limitErr
  have haside : R.SMC_VFIT_STATUS_LIMIT_ERR.aside = true := by decide
  grind [Latched.mk_, State.countRefused_latch, State.set_latch]

theorem execVfitCtrlWrite_latch {z : State} (w : World) (v : BitVec 32) (hk : Latched z) : Out.Latched (execVfitCtrlWrite w v z) := by
  have haside : R.SMC_VFIT_STATUS_STATE.aside = true := by decide
  unfold execVfitCtrlWrite
  dsimp only
  split
  · exact State.limitErr_latch _ hk
  · refine State.rowWrite_latch _ _ _ _ _ _ _ _ _ (by decide) noLast_aside hk fun x hx => ?_
    grind [Latched.mk_, State.set_latch, State.writeVset_latch]

theorem execVfitLimitsWrite_latch {z : State} (w : World) (v : BitVec 32) (hk : Latched z) : Out.Latched (execVfitLimitsWrite w v z) := by
  unfold execVfitLimitsWrite
  dsimp only
  split
  · exact State.limitErr_latch _ hk
  · refine State.rowWrite_latch _ _ _ _ _ _ _ _ _ (by decide) noLast_aside hk fun x hx => ?_
    grind [State.writeVset_latch]

/-! ### Pcp -/

theorem State.conditionNext_latch {z : State} (n p busy : Nat) (hk : Latched z) :
    Latched (State.conditionNext z n p busy) := by
  unfold State.conditionNext
  have haside : R.SCU_PACE_HS.aside = true ∧ R.SCU_PACE_BUSY.aside = true := by decide
  grind [Latched.mk_, State.add_latch, State.ahead_latch, State.alignMeasure_latch, State.captureLine_latch, State.conditionHead_latch,
    State.descFlags_latch, State.drainHead_latch, State.formLines_latch, State.syncHeld_latch, State.takeItem_latch]

theorem execLineCondition_latch {z : State} (p : Fin 96) (busy : Nat) (hk : Latched z) :
    Out.Latched (execLineCondition p busy z) := by
  unfold execLineCondition
  grind [Latched.mk_, Out.Latched, CmdEnd.Latched, State.conditionNext_latch]

theorem execCaptureStart_latch {z : State} (w : World) (v : BitVec 32) (hk : Latched z) :
    Out.Latched (execCaptureStart w v z) := by
  unfold execCaptureStart
  have hid : RegId.isWorldMap .PCP_CAP_CTRL = false := by decide
  have haside : R.PCP_CAP_STATUS_STATE.aside = true ∧ R.PCP_CAP_STATUS_LAST_STATUS.aside = true := by decide
  grind [Latched.mk_, Out.Latched, CmdEnd.Latched, State.rowWrite_latch, State.set_latch, State.syncSlots_latch]

theorem execCaptureDone_latch {z : State}  (hk : Latched z) :
    Out.Latched (execCaptureDone z) := by
  unfold execCaptureDone
  have haside : R.PCP_CAP_STATUS_STATE.aside = true := by decide
  grind [Latched.mk_, Out.Latched, CmdEnd.Latched, State.raise_latch, State.set_latch, State.syncSlots_latch, State.writeCapture_latch]

theorem execShadingSwapRequest_latch {z : State} (w : World) (p : Fin 96) (v : BitVec 32) (hk : Latched z) :
    Out.Latched (execShadingSwapRequest w p v z) := by
  unfold execShadingSwapRequest
  have hid : RegId.isWorldMap .PCP_SHD_SWAP = false := by decide
  have haside : R.PCP_SHD_REPLACED_COUNT.aside = true ∧ R.PCP_SHD_HEAD_LEAF_REPLACED.aside = true ∧
      R.PCP_SHD_HEAD_LEAF_PENDING.aside = true ∧ R.PCP_SHD_STATUS_LAST_STATUS.aside = true := by decide
  grind [Latched.mk_, Out.Latched, CmdEnd.Latched, State.add_latch, State.rowWrite_latch, State.setPhead_latch, State.set_latch,
    State.syncSlots_latch]

theorem execLeafFadeEnd_latch {z : State} (p : Fin 96) (hk : Latched z) :
    Out.Latched (execLeafFadeEnd p z) := by
  unfold execLeafFadeEnd
  grind [Latched.mk_, Out.Latched, CmdEnd.Latched, State.endFades_latch]

theorem execLeafWindowWrite_latch {z : State} (w : World) (a : Fin 4194304) (v : BitVec 32) (hk : Latched z) :
    Out.Latched (execLeafWindowWrite w a v z) := by
  unfold execLeafWindowWrite
  grind [Latched.mk_, Out.Latched, CmdEnd.Latched, State.leafRefused_latch, State.putLeaf_latch, State.windowWrite_latch]

theorem execLeafSlotWrite_latch {z : State} (w : World) (l : Fin 256) (k : Fin 3) (v : BitVec 32) (hk : Latched z) :
    Out.Latched (execLeafSlotWrite w l k v z) := by
  unfold execLeafSlotWrite
  dsimp only
  split
  · exact hk
  next r hdesc =>
    obtain ⟨hr, hid⟩ := RegId.desc_mem hdesc
    have hmap : r.id.isWorldMap = false := by
      rw [hid]
      split
      · decide
      · split <;> decide
    have hwritten (x : State) (hx : Latched x) := State.writeAll_latch w r l.val 0 v.toNat hr (fun h => absurd h (by simp [hmap])) hx
    grind [Out.Latched, State.leafRefused_latch, State.windowWrite_latch]

theorem execShdTrkCtrlWrite_latch {z : State} (w : World) (p : Fin 96) (v : BitVec 32) (hk : Latched z) :
    Out.Latched (execShdTrkCtrlWrite w p v z) := by
  unfold execShdTrkCtrlWrite
  have hid : RegId.isWorldMap .PCP_SHD_TRK_CTRL = false := by decide
  have haside : R.PCP_SHD_STATUS_LAST_STATUS.aside = true := by decide
  grind [Latched.mk_, Out.Latched, CmdEnd.Latched, State.each_latch, State.rowWrite_latch, State.setDrift_latch]

theorem execFirSlotWrite_latch {z : State} (w : World) (a : Fin 16384) (v : BitVec 32) (hk : Latched z) :
    Out.Latched (execFirSlotWrite w a v z) := by
  unfold execFirSlotWrite
  have haside : R.PCP_DEC_REFUSED_COUNT.aside = true ∧ R.PCP_ALN_STATUS_LAST_STATUS.aside = true := by decide
  grind [Latched.mk_, Out.Latched, CmdEnd.Latched, State.add_latch, State.leafRefused_latch, State.putLeaf_latch, State.raise_latch,
    State.refuse_latch, State.windowWrite_latch]

theorem execAlnMeasStart_latch {z : State} (w : World) (v : BitVec 32) (hk : Latched z) :
    Out.Latched (execAlnMeasStart w v z) := by
  unfold execAlnMeasStart
  have hid : RegId.isWorldMap .PCP_ALN_MEAS_CTRL = false := by decide
  have haside : R.PCP_ALN_MEAS_CTRL_BUSY.aside = true ∧ R.PCP_ALN_MEAS_RES_FOUND.aside = true ∧
      R.PCP_ALN_STATUS_LAST_STATUS.aside = true := by decide
  grind [Latched.mk_, Out.Latched, CmdEnd.Latched, State.count_latch, State.each_latch, State.rowWrite_latch, State.set_latch]

theorem execAlnMeasDone_latch {z : State}  (hk : Latched z) :
    Out.Latched (execAlnMeasDone z) := by
  unfold execAlnMeasDone
  have haside : R.PCP_ALN_MEAS_CTRL_BUSY.aside = true := by decide
  grind [Latched.mk_, Out.Latched, CmdEnd.Latched, State.set_latch]

theorem execDvtMeasStart_latch {z : State} (w : World) (v : BitVec 32) (hk : Latched z) :
    Out.Latched (execDvtMeasStart w v z) := by
  unfold execDvtMeasStart
  have hid : RegId.isWorldMap .PCP_DVT_MEAS_CTRL = false := by decide
  have haside : R.PCP_DVT_MEAS_CTRL_BUSY.aside = true ∧ R.PCP_ALN_STATUS_LAST_STATUS.aside = true := by decide
  grind [Latched.mk_, Out.Latched, CmdEnd.Latched, State.rowWrite_latch, State.set_latch]

theorem execDvtMeasDone_latch {z : State}  (hk : Latched z) :
    Out.Latched (execDvtMeasDone z) := by
  unfold execDvtMeasDone
  have haside : R.PCP_DVT_MEAS_RES_BEST.aside = true ∧ R.PCP_DVT_MEAS_RES_SAD.aside = true ∧
      R.PCP_DVT_MEAS_CTRL_BUSY.aside = true := by decide
  grind [Latched.mk_, Out.Latched, CmdEnd.Latched, State.setS_latch, State.setSat_latch, State.set_latch]

theorem execDvtTimeout_latch {z : State} (n : Fin 8) (hk : Latched z) :
    Out.Latched (execDvtTimeout n z) := by
  unfold execDvtTimeout
  have haside : R.PCP_DVT_LATE_COUNT.aside = true := by decide
  grind [Latched.mk_, Out.Latched, CmdEnd.Latched, State.add_latch, State.flushWaiting_latch, State.raise_latch, State.syncHeld_latch]

theorem execDecSwapRequest_latch {z : State} (w : World) (q : Fin 32) (v : BitVec 32) (hk : Latched z) :
    Out.Latched (execDecSwapRequest w q v z) := by
  unfold execDecSwapRequest
  have hid : RegId.isWorldMap .PCP_DEC_SWAP = false := by decide
  have haside : R.PCP_DEC_REPLACED_COUNT.aside = true ∧ R.PCP_DEC_SWAP_PENDING.aside = true ∧
      R.PCP_ALN_STATUS_LAST_STATUS.aside = true := by decide
  grind [Latched.mk_, Out.Latched, CmdEnd.Latched, State.add_latch, State.rowWrite_latch, State.setProd_latch, State.set_latch]

theorem execProductLineRead_latch {z : State} (q : Fin 32) (e : HbmErr) (hk : Latched z) :
    Out.Latched (execProductLineRead q e z) := by
  unfold execProductLineRead
  grind [Latched.mk_, Out.Latched, CmdEnd.Latched, State.productStep_latch, State.syncHeld_latch]

/-! ### Qmx -/

theorem execQueueWrite_latch {z : State} (q : Fin 262144) (d : BitVec 64) (fin : Bool) (hk : Latched z) :
    Out.Latched (execQueueWrite q d fin z) := by
  unfold execQueueWrite
  grind [Latched.mk_, Out.Latched, CmdEnd.Latched, State.presentWords_latch]

theorem execQueueRead_latch {z : State} (q : Fin 262144) (second : Bool) (ecc : Ecc) (hk : Latched z) :
    Out.Latched (execQueueRead q second ecc z) := by
  unfold execQueueRead
  grind [Latched.mk_, Out.Latched, CmdEnd.Latched, State.readRing_latch, State.readWord_latch]

theorem execQueueIdleTimeout_latch {z : State} (q : Fin 262144) (hk : Latched z) :
    Out.Latched (execQueueIdleTimeout q z) := by
  unfold execQueueIdleTimeout
  grind [Latched.mk_, Out.Latched, CmdEnd.Latched, State.closeDrawer_latch, State.drain_latch]

theorem execQueueStallTimeout_latch {z : State} (q : Fin 262144) (wr : Bool) (hk : Latched z) :
    Out.Latched (execQueueStallTimeout q wr z) := by
  unfold execQueueStallTimeout
  have haside : R.QMX_Q_STATUS_WR_STALL.aside = true ∧ R.QMX_Q_STATUS_RD_STALL.aside = true := by decide
  grind [Latched.mk_, Out.Latched, CmdEnd.Latched, State.queueEvent_latch, State.setQueue_latch, State.set_latch]

theorem execSlabTransitArrive_latch {z : State}  (hk : Latched z) :
    Out.Latched (execSlabTransitArrive z) := by
  unfold execSlabTransitArrive
  grind [Latched.mk_, Out.Latched, CmdEnd.Latched, State.finishAborts_latch, State.transitArrive_latch]

theorem execSlabAgeFail_latch {z : State}  (hk : Latched z) :
    Out.Latched (execSlabAgeFail z) := by
  unfold execSlabAgeFail
  have haside : R.QMX_AUD_STATUS_AGE_FAIL.aside = true := by decide
  grind [Latched.mk_, Out.Latched, CmdEnd.Latched, State.set_latch]

theorem State.putQueueFields_latch {z : State} (q v : Nat) (hk : Latched z) : Latched (State.putQueueFields z q v) := by
  have hfields : ∀ f ∈ queueFields, f.aside = true := by decide
  exact State.each_latch_of_mem _ _ hk fun _ f hf h => State.set_latch f _ _ _ (hfields f hf) h

theorem execQueueEnable_latch {z : State} (w : World) (q : Fin 262144) (v : BitVec 32) (hk : Latched z) :
    Out.Latched (execQueueEnable w q v z) := by
  unfold execQueueEnable
  have haside : R.QMX_Q_CMD_LAST_STATUS.aside = true := by decide
  grind [Latched.mk_, Out.Latched, CmdEnd.Latched, State.enableQueue_latch, State.hostWrite_latch, State.putQueueFields_latch]

theorem execQueueDisable_latch {z : State} (w : World) (q : Fin 262144) (v : BitVec 32) (hk : Latched z) :
    Out.Latched (execQueueDisable w q v z) := by
  unfold execQueueDisable
  have haside : R.QMX_Q_CMD_LAST_STATUS.aside = true := by decide
  grind [Latched.mk_, Out.Latched, CmdEnd.Latched, State.disableQueue_latch, State.hostWrite_latch, State.putQueueFields_latch]

theorem execQueueFlush_latch {z : State} (w : World) (q : Fin 262144) (hk : Latched z) :
    Out.Latched (execQueueFlush w q z) := by
  unfold execQueueFlush
  have haside : R.QMX_Q_CMD_LAST_STATUS.aside = true := by decide
  grind [Latched.mk_, Out.Latched, CmdEnd.Latched, State.flushQueue_latch, State.hostWrite_latch]

theorem execQueueAutoDisable_latch {z : State} (q : Fin 262144) (hk : Latched z) :
    Out.Latched (execQueueAutoDisable q z) := by
  unfold execQueueAutoDisable
  grind [Latched.mk_, Out.Latched, CmdEnd.Latched, State.autoDisable_latch]

/-! ### Scu -/

theorem execImageLoad_latch {z : State} (w : World) (x : ImageGo) (hk : Latched z) : Out.Latched (execImageLoad w x z) := by
  refine State.hostWrite_latch_of_desc _ _ _ _ _ _ _ _ noLast_aside hk fun r y hdesc hy => ?_
  obtain ⟨hr, hid⟩ := RegId.desc_mem hdesc
  have hwritten := State.writeAll_latch w r 0 0 x.value.toNat hr (fun h => absurd h (by rw [hid]; decide)) hy
  have haside : R.SCU_IMG_STATUS_BUSY.aside = true ∧ R.SCU_IMG_STATUS_STATUS.aside = true := by decide
  grind [Latched.mk_, State.countRefused_latch, State.imageOk_latch, State.imageRefused_latch, State.set_latch]

theorem State.partialLoad_latch {z : State} (m : Image) (policy : Bool) (t2 : Option Nat) (hk : Latched z) :
    Latched (State.partialLoad z m policy t2) := by
  unfold State.partialLoad
  grind [Latched.mk_, State.admission_latch, State.imageRefused_latch, State.raiseVmax_latch, State.stageReload_latch]

theorem execImageChecksDone_latch {z : State} (o : ImageObs) (t2 : Option (Fin 16)) (hk : Latched z) :
    Out.Latched (execImageChecksDone o t2 z) := by
  unfold execImageChecksDone
  grind [Latched.mk_, Out.Latched, CmdEnd.Latched, State.commitImage_latch, State.imageRefused_latch, State.partialLoad_latch]

theorem execReloadCopyDone_latch {z : State}  (hk : Latched z) :
    Out.Latched (execReloadCopyDone z) := by
  unfold execReloadCopyDone
  grind [Latched.mk_, Out.Latched, CmdEnd.Latched, State.syncHeld_latch, State.takeReload_latch]

theorem State.dropReload_latch {z : State}  (hk : Latched z) :
    Latched (State.dropReload z) := by
  unfold State.dropReload
  have haside : R.SCU_RLD_STATUS_PHASE.aside = true ∧ R.SCU_RLD_MASK_GROUPS.aside = true := by decide
  grind [Latched.mk_, State.setSto_latch, State.set_latch, State.syncStore_latch]

theorem execReloadCancel_latch {z : State} (w : World) (v : BitVec 32) (hk : Latched z) :
    Out.Latched (execReloadCancel w v z) := by
  unfold execReloadCancel
  have hid : RegId.isWorldMap .SCU_RLD_CTRL = false := by decide
  have haside : R.SCU_RLD_STATUS_LAST_STATUS.aside = true := by decide
  grind [Latched.mk_, Out.Latched, CmdEnd.Latched, State.dropReload_latch, State.rowWrite_latch]

/-! ### Seal -/

theorem State.sealAttempt_latch {z : State} (i : Nat) (t : Int) (hk : Latched z) :
    Latched (State.sealAttempt z i t) := by
  unfold State.sealAttempt
  have haside : R.SCU_SEAL_ST_LOCAL_BAND.aside = true := by decide
  grind [Latched.mk_, State.moveTokens_latch, State.sealAudits_latch, State.sealBand_latch, State.setSeal_latch, State.set_latch,
    State.syncHeld_latch]

theorem execSealAttempt_latch {z : State} (ns : BitVec 8) (t : Int) (hk : Latched z) :
    Out.Latched (execSealAttempt ns t z) := by
  unfold execSealAttempt
  grind [Latched.mk_, Out.Latched, CmdEnd.Latched, State.each_latch, State.sealAttempt_latch]

theorem State.sealFrozen_latch {z : State} (n : Nat) (t : Int) (bs : List Nat) (hk : Latched z) :
    Latched (State.sealFrozen z n t bs) := by
  unfold State.sealFrozen
  grind [Latched.mk_, State.each_latch, State.sealBand_latch]

theorem State.moveAll_latch {z : State} (t : Int) (hk : Latched z) :
    Latched (State.moveAll z t) := by
  unfold State.moveAll
  grind [Latched.mk_, State.each_latch, State.moveTokens_latch, State.syncHeld_latch]

theorem State.thaw_latch {z : State} (n : Nat) (t : Int) (hk : Latched z) :
    Latched (State.thaw z n t) := by
  unfold State.thaw
  have haside : R.SCU_SEAL_ST_STATUS_FROZEN.aside = true := by decide
  grind [Latched.mk_, State.moveAll_latch, State.sealFrozen_latch, State.sealLate_latch, State.setSeal_latch, State.set_latch,
    State.syncHeld_latch]

theorem execSealThaw_latch {z : State} (w : World) (n : Fin 8) (v : BitVec 32) (t : Int) (hk : Latched z) :
    Out.Latched (execSealThaw w n v t z) := by
  unfold execSealThaw
  have hid : RegId.isWorldMap .SCU_SEAL_ST_CTRL = false := by decide
  have haside : R.SCU_SEAL_ST_STATUS_LAST_STATUS.aside = true := by decide
  grind [Latched.mk_, Out.Latched, CmdEnd.Latched, State.rowWrite_latch, State.thaw_latch]

theorem execSealLatencyExceeded_latch {z : State} (n : Fin 8) (t : Int) (hk : Latched z) :
    Out.Latched (execSealLatencyExceeded n t z) := by
  unfold execSealLatencyExceeded
  grind [Latched.mk_, Out.Latched, CmdEnd.Latched, State.markLate_latch]

theorem execFreezeTimeout_latch {z : State} (n : Fin 8) (hk : Latched z) :
    Out.Latched (execFreezeTimeout n z) := by
  unfold execFreezeTimeout
  grind [Latched.mk_, Out.Latched, CmdEnd.Latched, State.enterFault_latch]

theorem execSnapshotBandLoRead_latch {z : State} (w : World) (n : Fin 8) (hk : Latched z) :
    Out.Latched (execSnapshotBandLoRead w n z) := by
  unfold execSnapshotBandLoRead
  grind [Latched.mk_, Out.Latched, CmdEnd.Latched, State.each_latch, State.hostRead_latch]

/-! ### Sst -/

theorem execLineStore_latch {z : State} (n : Fin 8) (x : StoreSeen) (hk : Latched z) :
    Out.Latched (execLineStore n x z) := by
  unfold execLineStore
  grind [Latched.mk_, Out.Latched, CmdEnd.Latched, State.checkReload_latch, State.checkStop_latch, State.storeLine_latch,
    State.syncHeld_latch, State.takeLine_latch]

theorem State.offerLine_latch {z : State} (n q : Nat) (m : QMap) (e : HbmErr) (hk : Latched z) :
    Latched (State.offerLine z n q m e) := by
  unfold State.offerLine
  grind [Latched.mk_, State.advanceQueue_latch, State.presentItem_latch, State.setSto_latch, State.slotError_latch]

theorem execStoreReadQueueAdvance_latch {z : State} (q : Fin 262144) (e : HbmErr) (hk : Latched z) :
    Out.Latched (execStoreReadQueueAdvance q e z) := by
  unfold execStoreReadQueueAdvance
  grind [Latched.mk_, Out.Latched, CmdEnd.Latched, State.checkReload_latch, State.offerLine_latch, State.syncHeld_latch]

theorem State.enterBackUp_latch {z : State} (n : Nat) (hk : Latched z) :
    Latched (State.enterBackUp z n) := by
  unfold State.enterBackUp
  have haside : R.SST_ST_REW_STATUS_PHASE.aside = true := by decide
  grind [Latched.mk_, State.enterSt_latch, State.set_latch, State.withdrawMatch_latch]

theorem execRewindBackupStart_latch {z : State} (n : Fin 8) (t : Int) (hk : Latched z) :
    Out.Latched (execRewindBackupStart n t z) := by
  unfold execRewindBackupStart
  grind [Latched.mk_, Out.Latched, CmdEnd.Latched, State.backUp_latch, State.enterBackUp_latch]

theorem execRewindForwardRun_latch {z : State} (x : StationAt) (hk : Latched z) :
    Out.Latched (execRewindForwardRun x z) := by
  unfold execRewindForwardRun
  have haside : R.SST_ST_REW_STATUS_PHASE.aside = true := by decide
  grind [Latched.mk_, Out.Latched, CmdEnd.Latched, State.axisScale_latch, State.setSto_latch, State.set_latch, State.stepFour_latch,
    State.watchEntry_latch]

theorem State.enterScan_latch {z : State} (n : Nat) (t : Int) (hk : Latched z) :
    Latched (State.enterScan z n t) := by
  unfold State.enterScan
  grind [Latched.mk_, State.each_latch, State.endStop_latch, State.enterSt_latch, State.restartHeads_latch, State.setPhead_latch,
    State.setPst_latch, State.setSto_latch, State.watchFrom_latch]

theorem execRewindScanEntry_latch {z : State} (n : Fin 8) (t : Int) (hk : Latched z) :
    Out.Latched (execRewindScanEntry n t z) := by
  unfold execRewindScanEntry
  grind [Latched.mk_, Out.Latched, CmdEnd.Latched, State.enterScan_latch, State.syncHeld_latch, State.watchEntry_latch]

theorem execRewindTimeout_latch {z : State} (n : Fin 8) (hk : Latched z) :
    Out.Latched (execRewindTimeout n z) := by
  unfold execRewindTimeout
  grind [Latched.mk_, Out.Latched, CmdEnd.Latched, State.rewindFail_latch]

theorem execEncoderQuietTimeout_latch {z : State} (n : Fin 8) (t : Int) (hk : Latched z) :
    Out.Latched (execEncoderQuietTimeout n t z) := by
  unfold execEncoderQuietTimeout
  grind [Latched.mk_, Out.Latched, CmdEnd.Latched, State.enterBackUp_latch, State.stepFour_latch]

theorem State.rewindRead_latch {z : State} (n m : Nat) (hk : Latched z) :
    Latched (State.rewindRead z n m) := by
  unfold State.rewindRead
  have haside : R.SST_ST_HOST_RP.aside = true := by decide
  grind [Latched.mk_, State.set_latch, State.sstGap_latch, State.sstSeam_latch, State.syncStore_latch]

theorem State.setHostEn_latch {z : State} (n v : Nat) (was : Bool) (hk : Latched z) :
    Latched (State.setHostEn z n v was) := by
  unfold State.setHostEn
  have haside : R.SST_ST_HOST_RP.aside = true := by decide
  grind [Latched.mk_, State.set_latch, State.syncStore_latch]

theorem State.hostCtrl_latch {z : State} (w : World) (n v : Nat) (hk : Latched z) :
    Latched (State.hostCtrl z w n v) := by
  unfold State.hostCtrl
  have hid : RegId.isWorldMap .SST_ST_HOST_CTRL = false := by decide
  have haside : R.SST_ST_HOST_CTRL_LAST_STATUS.aside = true := by decide
  grind [Latched.mk_, State.rewindRead_latch, State.rowWrite_latch, State.setHostEn_latch]

theorem execHostReaderEnable_latch {z : State} (w : World) (n : Fin 8) (v : BitVec 32) (hk : Latched z) :
    Out.Latched (execHostReaderEnable w n v z) := by
  unfold execHostReaderEnable
  grind [Latched.mk_, Out.Latched, CmdEnd.Latched, State.hostCtrl_latch]

theorem execHostRewindRead_latch {z : State} (w : World) (n : Fin 8) (v : BitVec 32) (hk : Latched z) :
    Out.Latched (execHostRewindRead w n v z) := by
  unfold execHostRewindRead
  grind [Latched.mk_, Out.Latched, CmdEnd.Latched, State.hostCtrl_latch]

theorem execHostRpWrite_latch {z : State} (w : World) (n : Fin 8) (hi : Bool) (v : BitVec 32) (hk : Latched z) :
    Out.Latched (execHostRpWrite w n hi v z) := by
  unfold execHostRpWrite
  have haside : R.SST_ST_HOST_RP.aside = true ∧ R.SST_ST_HOST_CTRL_LAST_STATUS.aside = true := by decide
  grind [Latched.mk_, Out.Latched, CmdEnd.Latched, State.hostWrite_latch, State.set_latch, State.syncStore_latch]

theorem State.hostMark_latch {z : State} (w : World) (n m v : Nat) (hk : Latched z) : Latched (State.hostMark z w n m v) := by
  unfold State.hostMark
  dsimp only
  apply State.rowWrite_latch _ _ _ _ _ _ _ _ _ (by decide) (by rintro _ ⟨⟩; decide) hk
  intro x hx
  apply State.syncStore_latch
  have h1 : ∀ c : Prop, [Decidable c] → ∀ y, Latched (if c then (x.setSto n y).set R.SST_ST_MARK_VALID 1 n m else x) := by
    intro c _ y
    split
    · exact State.set_latch _ _ _ _ rfl (State.setSto_latch _ _ hx)
    · exact hx
  split
  · exact State.set_latch _ _ _ _ rfl (State.setSto_latch _ _ (h1 _ _))
  · exact h1 _ _

theorem execHostMarkSet_latch {z : State} (w : World) (n : Fin 8) (m : Fin 4) (v : BitVec 32) (hk : Latched z) :
    Out.Latched (execHostMarkSet w n m v z) := by
  unfold execHostMarkSet
  grind [Latched.mk_, Out.Latched, CmdEnd.Latched, State.hostMark_latch]

theorem execHostMarkClear_latch {z : State} (w : World) (n : Fin 8) (m : Fin 4) (v : BitVec 32) (hk : Latched z) :
    Out.Latched (execHostMarkClear w n m v z) := by
  unfold execHostMarkClear
  grind [Latched.mk_, Out.Latched, CmdEnd.Latched, State.hostMark_latch]

theorem execSstStoreSplitWrite_latch {z : State} (w : World) (v : BitVec 32) (hk : Latched z) :
    Out.Latched (execSstStoreSplitWrite w v z) := by
  unfold execSstStoreSplitWrite
  have hid : RegId.isWorldMap .SST_CFG = false := by decide
  have haside : R.SST_STATUS_LAST_STATUS.aside = true := by decide
  grind [Latched.mk_, Out.Latched, CmdEnd.Latched, State.rowWrite_latch, State.syncPages_latch]

/-! ### Station -/

theorem State.define_latch {z : State} (r n : Nat) (hk : Latched z) :
    CmdEnd.Latched (State.define z r n) := by
  unfold State.define
  have haside : R.SMC_ST_STATE_CLASS.aside = true ∧ R.SMC_ST_STATE_K.aside = true := by decide
  grind [Latched.mk_, CmdEnd.Latched, State.setStation_latch, State.set_latch]

theorem execStDefine_latch {z : State} (r : Fin 2) (hk : Latched z) :
    Out.Latched (execStDefine r z) := by
  unfold execStDefine
  grind [Latched.mk_, Out.Latched, CmdEnd.Latched, State.command_latch, State.define_latch]

theorem execStArm_latch {z : State} (r : Fin 2) (t : Int) (t2 : Option (Fin 16)) (west : Bool) (hk : Latched z) :
    Out.Latched (execStArm r t t2 west z) := by
  unfold execStArm
  refine (Out.latched_next _).2 ?_
  refine State.command_latch r Op.stArm _ hk ?_
  intro x hx
  exact State.arm_latch _ _ _ _ hx

theorem State.startRun_latch {z : State} (n : Nat) (t : Int) (hk : Latched z) :
    CmdEnd.Latched (State.startRun z n t) := by
  unfold State.startRun
  grind [Latched.mk_, CmdEnd.Latched, badState, State.armed_latch, State.enterSt_latch, State.syncHeld_latch, State.syncStore_latch,
    State.watchFrom_latch]

theorem execStStart_latch {z : State} (x : RingAt) (hk : Latched z) :
    Out.Latched (execStStart x z) := by
  unfold execStStart
  grind [Latched.mk_, Out.Latched, CmdEnd.Latched, State.command_latch, State.startRun_latch]

theorem State.pause_latch {z : State} (n : Nat) (t : Int) (hk : Latched z) :
    CmdEnd.Latched (State.pause z n t) := by
  unfold State.pause
  have haside : R.SMC_ST_STATE_HOLD.aside = true := by decide
  grind [Latched.mk_, CmdEnd.Latched, badState, State.set_latch, State.stopStation_latch]

theorem execStPause_latch {z : State} (r : Fin 2) (t : Int) (hk : Latched z) :
    Out.Latched (execStPause r t z) := by
  unfold execStPause
  grind [Latched.mk_, Out.Latched, CmdEnd.Latched, State.command_latch, State.pause_latch]

theorem State.resume_latch {z : State} (n : Nat) (hk : Latched z) :
    CmdEnd.Latched (State.resume z n) := by
  unfold State.resume
  have haside : R.SMC_ST_STATE_HOLD.aside = true := by decide
  grind [Latched.mk_, CmdEnd.Latched, badState, State.set_latch]

theorem execStResume_latch {z : State} (r : Fin 2) (hk : Latched z) :
    Out.Latched (execStResume r z) := by
  unfold execStResume
  grind [Latched.mk_, Out.Latched, CmdEnd.Latched, State.command_latch, State.resume_latch]

theorem State.drainStopped_latch {z : State} (n : Nat) (t : Int) (hk : Latched z) :
    CmdEnd.Latched (State.drainStopped z n t) := by
  unfold State.drainStopped
  grind [Latched.mk_, CmdEnd.Latched, State.axisStop_latch, State.endStop_latch, State.enterDrain_latch]

theorem State.drainRun_latch {z : State} (n final : Nat) (hk : Latched z) :
    CmdEnd.Latched (State.drainRun z n final) := by
  unfold State.drainRun
  grind [Latched.mk_, CmdEnd.Latched, State.enterDrain_latch, State.setStation_latch]

theorem State.drainCmd_latch {z : State} (n final : Nat) (t : Int) (hk : Latched z) :
    CmdEnd.Latched (State.drainCmd z n final t) := by
  unfold State.drainCmd
  grind [Latched.mk_, CmdEnd.Latched, badState, State.armed_latch, State.drainRun_latch, State.drainStopped_latch, State.idleEntry_latch]

theorem execStDrain_latch {z : State} (x : RingAt) (hk : Latched z) :
    Out.Latched (execStDrain x z) := by
  unfold execStDrain
  grind [Latched.mk_, Out.Latched, CmdEnd.Latched, State.command_latch, State.drainCmd_latch]

theorem State.abortCmd_latch {z : State} (n : Nat) (hk : Latched z) :
    CmdEnd.Latched (State.abortCmd z n) := by
  unfold State.abortCmd
  grind [Latched.mk_, CmdEnd.Latched, badState, State.abortStation_latch]

theorem execStAbort_latch {z : State} (r : Fin 2) (hk : Latched z) :
    Out.Latched (execStAbort r z) := by
  unfold execStAbort
  grind [Latched.mk_, Out.Latched, CmdEnd.Latched, State.abortCmd_latch, State.command_latch]

theorem State.cancelStage_latch {z : State} (n : Nat) (hk : Latched z) :
    CmdEnd.Latched (State.cancelStage z n) := by
  unfold State.cancelStage
  grind [Latched.mk_, CmdEnd.Latched, badState, State.dropStaged_latch]

theorem State.stage_latch {z : State} (r n : Nat) (cancel : Bool) (g : Staged) (t2 : Option Nat) (hk : Latched z) :
    CmdEnd.Latched (State.stage z r n cancel g t2) := by
  unfold State.stage
  grind [Latched.mk_, CmdEnd.Latched, badState, State.admission_latch, State.cancelStage_latch, State.raiseVmax_latch,
    State.stageChange_latch]

theorem execStStage_latch {z : State} (r : Fin 2) (t2 : Option (Fin 16)) (hk : Latched z) :
    Out.Latched (execStStage r t2 z) := by
  unfold execStStage
  grind [Latched.mk_, Out.Latched, CmdEnd.Latched, State.command_latch, State.stage_latch]

theorem execStQuery_latch {z : State} (r : Fin 2) (hk : Latched z) :
    Out.Latched (execStQuery r z) := by
  unfold execStQuery
  grind [Latched.mk_, Out.Latched, CmdEnd.Latched, State.command_latch]

/-! ### Thm -/

theorem execThmSweep_latch {z : State} (r : List (Option (BitVec 16))) (hk : Latched z) :
    Out.Latched (execThmSweep r z) := by
  unfold execThmSweep
  have haside : R.THM_STATUS_MAX.aside = true ∧ R.THM_STATUS_MAX_SNS.aside = true := by decide
  grind [Latched.mk_, Out.Latched, CmdEnd.Latched, State.judgeSensors_latch, State.judgeShutdown_latch, State.judgeThrottle_latch,
    State.judgeWarn_latch, State.setS_latch, State.setThm_latch, State.set_latch]

theorem execThmLevelStep_latch {z : State}  (hk : Latched z) :
    Out.Latched (execThmLevelStep z) := by
  unfold execThmLevelStep
  grind [Latched.mk_, Out.Latched, CmdEnd.Latched, State.setLevel_latch]

theorem execThmRefTrim_latch {z : State}  (hk : Latched z) :
    Out.Latched (execThmRefTrim z) := by
  unfold execThmRefTrim
  have haside : R.THM_TRIM_HOLD.aside = true ∧ R.THM_TRIM_CODE.aside = true := by decide
  grind [Latched.mk_, Out.Latched, CmdEnd.Latched, State.raise_latch, State.setS_latch, State.set_latch]

theorem execThmThresholdWrite_latch {z : State} (w : World) (k : Fin 2) (v : BitVec 32) (hk : Latched z) :
    Out.Latched (execThmThresholdWrite w k v z) := by
  have hid : (if k = 0 then RegId.THM_THR_WARN else .THM_THR_THROT).isWorldMap = false := by
    split <;> decide
  exact State.rowWrite_latch _ _ _ _ _ _ _ _ _ hid (by rintro _ ⟨⟩; decide) hk fun _ h => h

theorem execRoWindowEnd_latch {z : State} (i : Fin 8) (count : Nat) (hk : Latched z) :
    Out.Latched (execRoWindowEnd i count z) := by
  unfold execRoWindowEnd
  have haside : R.THM_RO_COUNT_COUNT.aside = true ∧ R.THM_RO_COUNT_NEW.aside = true := by decide
  grind [Latched.mk_, Out.Latched, CmdEnd.Latched, State.count_latch, State.setSat_latch, State.setThm_latch, State.set_latch]

/-! ### Ttc -/

theorem execMotionCycle_latch {z : State}  (hk : Latched z) :
    Out.Latched (execMotionCycle z) := by
  unfold execMotionCycle
  grind [Latched.mk_, Out.Latched, CmdEnd.Latched, State.cycleAxis_latch, State.cycleLin_latch, State.cycleStart_latch,
    State.dueLin_latch, State.each_latch, State.linkFrame_latch, State.setAxis_latch]

theorem execDriverStatusRx_latch {z : State} (a : Fin 4) (f : BitVec 80) (hk : Latched z) :
    Out.Latched (execDriverStatusRx a f z) := by
  unfold execDriverStatusRx
  have haside : R.TTC_AX_DRV_BADFR.aside = true := by decide
  grind [Latched.mk_, Out.Latched, CmdEnd.Latched, State.addSat_latch, State.goodStatus_latch, State.setAxis_latch]

theorem execMotionLinkLoss_latch {z : State} (a : Fin 4) (hk : Latched z) :
    Out.Latched (execMotionLinkLoss a z) := by
  unfold execMotionLinkLoss
  grind [Latched.mk_, Out.Latched, CmdEnd.Latched, State.faultAxis_latch]

theorem State.startLink_latch {z : State} (a : Nat) (hk : Latched z) :
    Latched (State.startLink z a) := by
  unfold State.startLink
  have haside : R.TTC_AX_STATUS_STATE.aside = true := by decide
  grind [Latched.mk_, State.setAxis_latch, State.set_latch]

theorem State.disableAxis_latch {z : State} (a : Nat) (hk : Latched z) :
    Latched (State.disableAxis z a) := by
  unfold State.disableAxis
  have haside : R.TTC_AX_STATUS_STATE.aside = true := by decide
  grind [Latched.mk_, State.setAxis_latch, State.set_latch, State.stopLin_latch]

theorem execAxisEnable_latch {z : State} (w : World) (a : Fin 4) (v : BitVec 32) (hk : Latched z) :
    Out.Latched (execAxisEnable w a v z) := by
  unfold execAxisEnable
  have hid : RegId.isWorldMap .TTC_AX_CTRL = false := by decide
  grind [Latched.mk_, axLast_aside, Out.Latched, CmdEnd.Latched, State.disableAxis_latch, State.rowWrite_latch, State.startLink_latch]

theorem execAxisStop_latch {z : State} (w : World) (a : Fin 4) (hk : Latched z) :
    Out.Latched (execAxisStop w a z) := by
  unfold execAxisStop
  grind [Latched.mk_, Out.Latched, CmdEnd.Latched, State.axisCmd_latch, State.axisStop_latch]

theorem execAxisMove_latch {z : State} (w : World) (a : Fin 4) (hk : Latched z) :
    Out.Latched (execAxisMove w a z) := by
  unfold execAxisMove
  grind [Latched.mk_, Out.Latched, CmdEnd.Latched, State.aim_latch, State.axisCmd_latch]

theorem execAxisVel_latch {z : State} (w : World) (a : Fin 4) (hk : Latched z) :
    Out.Latched (execAxisVel w a z) := by
  unfold execAxisVel
  grind [Latched.mk_, Out.Latched, CmdEnd.Latched, State.aim_latch, State.axisCmd_latch]

theorem execAxisEstop_latch {z : State} (w : World) (a : Fin 4) (hk : Latched z) :
    Out.Latched (execAxisEstop w a z) := by
  unfold execAxisEstop
  grind [Latched.mk_, Out.Latched, CmdEnd.Latched, State.aim_latch, State.axisCmd_latch]

theorem execLinearMove_latch {z : State} (w : World) (v : BitVec 32) (hk : Latched z) :
    Out.Latched (execLinearMove w v z) := by
  unfold execLinearMove
  have hid : RegId.isWorldMap .TTC_LIN = false := by decide
  have haside : R.TTC_STATUS_LAST_STATUS.aside = true := by decide
  grind [Latched.mk_, Out.Latched, CmdEnd.Latched, State.rowWrite_latch, State.startLin_latch]

theorem execAxisSettleDone_latch {z : State} (a : Fin 4) (t : Int) (hk : Latched z) :
    Out.Latched (execAxisSettleDone a t z) := by
  unfold execAxisSettleDone
  have haside : R.TTC_AX_STATUS_INPOS.aside = true := by decide
  grind [Latched.mk_, Out.Latched, CmdEnd.Latched, State.backUp_latch, State.faultAxis_latch, State.rewindArm_latch, State.setAxis_latch,
    State.set_latch]

theorem execAxisHoldTimeout_latch {z : State} (a : Fin 4) (hk : Latched z) :
    Out.Latched (execAxisHoldTimeout a z) := by
  unfold execAxisHoldTimeout
  grind [Latched.mk_, Out.Latched, CmdEnd.Latched, State.holdCoil_latch]

theorem execAxisFaultClear_latch {z : State} (w : World) (a : Fin 4) (v : BitVec 32) (hk : Latched z) :
    Out.Latched (execAxisFaultClear w a v z) := by
  unfold execAxisFaultClear
  have hid : RegId.isWorldMap .TTC_AX_STATUS = false := by decide
  have haside : R.TTC_AX_STATUS_STATE.aside = true ∧ R.TTC_AX_STATUS_FAULT.aside = true := by decide
  grind [Latched.mk_, axLast_aside, Out.Latched, CmdEnd.Latched, State.rowWrite_latch, State.setAxis_latch, State.set_latch]

theorem execMicrostepTableWrite_latch {z : State} (w : World) (i : Fin 1024) (v : BitVec 32) (hk : Latched z) :
    Out.Latched (execMicrostepTableWrite w i v z) := by
  unfold execMicrostepTableWrite
  have haside : R.TTC_STATUS_LAST_STATUS.aside = true := by decide
  grind [Latched.mk_, Out.Latched, CmdEnd.Latched, State.putLeaf_latch, State.refuse_latch, State.windowWrite_latch]

end Sys2Proof.Machine
end

section
/-! PROOFS. Thermal shutdown (R483, R484, R524). -/

open Sys2Proof Sys2Proof.Stated

-- One proof at a time keeps the memory of the compile small.
set_option Elab.async false

namespace Sys2Proof.Machine

/-- No command but the removal of VCORE takes the device out of THERMAL_LATCH. -/
theorem exec_latch (c : Instr) (hc : c ≠ .vcoreRemoved) {s : State} (h : Latched s) : Out.Latched (exec c s) := by
  cases c with
  | registerWrite w a v => exact execRegisterWrite_latch w a v h
  | holdingRegisterLoRead w a t => exact execHoldingRegisterLoRead_latch w a t h
  | snapshotBandLoRead w n => exact execSnapshotBandLoRead_latch w n h
  | paceWindowEnd t => exact execPaceWindowEnd_latch t h
  | vfitHoldEnd => exact execVfitHoldEnd_latch h
  | vmaxReadbackTimeout => exact execVmaxReadbackTimeout_latch h
  | vfitCtrlWrite w v => exact execVfitCtrlWrite_latch w v h
  | vfitLimitsWrite w v => exact execVfitLimitsWrite_latch w v h
  | pixelPacketRx l k => exact execPixelPacketRx_latch l k h
  | lineTimeoutFill p => exact execLineTimeoutFill_latch p h
  | capPacketRx l k => exact execCapPacketRx_latch l k h
  | cfgRespRx l k => exact execCfgRespRx_latch l k h
  | headEventRx l k => exact execHeadEventRx_latch l k h
  | credStatusRx l held rxReturned spent initAck => exact execCredStatusRx_latch l held rxReturned spent initAck h
  | trainBlockRx l phase errors t => exact execTrainBlockRx_latch l phase errors t h
  | echoRx l tag turn trip => exact execEchoRx_latch l tag turn trip h
  | linkCtrlRetrainRx l => exact execLinkCtrlRetrainRx_latch l h
  | unknownCtrlBlockRx l kind => exact execUnknownCtrlBlockRx_latch l kind h
  | laneSyncHeaderErrors l lockLost => exact execLaneSyncHeaderErrors_latch l lockLost h
  | laneBlockLock l => exact execLaneBlockLock_latch l h
  | discoverTimeout p => exact execDiscoverTimeout_latch p h
  | discoverRetry p => exact execDiscoverRetry_latch p h
  | switchTimeout p => exact execSwitchTimeout_latch p h
  | prbsTestDone l errors => exact execPrbsTestDone_latch l errors h
  | retrainTimeout l => exact execRetrainTimeout_latch l h
  | creditBlockRefresh l => exact execCreditBlockRefresh_latch l h
  | delayMeasureTimer p => exact execDelayMeasureTimer_latch p h
  | hlfCtrlWrite w v => exact execHlfCtrlWrite_latch w v h
  | portEnableWrite w p v => exact execPortEnableWrite_latch w p v h
  | portRetrain w p v => exact execPortRetrain_latch w p v h
  | headCfgRequest w v => exact execHeadCfgRequest_latch w v h
  | headCfgTimeout => exact execHeadCfgTimeout_latch h
  | refclkLoss => exact execRefclkLoss_latch h
  | holdoverExit => exact execHoldoverExit_latch h
  | tcompTick => exact execTcompTick_latch h
  | tcompEnableWrite w v => exact execTcompEnableWrite_latch w v h
  | encoderEdge e a b t => exact execEncoderEdge_latch e a b t h
  | encoderIndexEdge e p => exact execEncoderIndexEdge_latch e p h
  | lineCommit n now => exact execLineCommit_latch n now h
  | lineTrigger n => exact execLineTrigger_latch n h
  | hostTriggerWrite w n v => exact execHostTriggerWrite_latch w n v h
  | matchArm w n v t => exact execMatchArm_latch w n v t h
  | lineCondition p busy => exact execLineCondition_latch p busy h
  | captureStart w v => exact execCaptureStart_latch w v h
  | captureDone => exact execCaptureDone_latch h
  | shadingSwapRequest w p v => exact execShadingSwapRequest_latch w p v h
  | leafFadeEnd p => exact execLeafFadeEnd_latch p h
  | leafWindowWrite w a v => exact execLeafWindowWrite_latch w a v h
  | leafSlotWrite w l k v => exact execLeafSlotWrite_latch w l k v h
  | shdTrkCtrlWrite w p v => exact execShdTrkCtrlWrite_latch w p v h
  | alnMeasStart w v => exact execAlnMeasStart_latch w v h
  | alnMeasDone => exact execAlnMeasDone_latch h
  | dvtMeasStart w v => exact execDvtMeasStart_latch w v h
  | dvtMeasDone => exact execDvtMeasDone_latch h
  | dvtTimeout n => exact execDvtTimeout_latch n h
  | decSwapRequest w q v => exact execDecSwapRequest_latch w q v h
  | firSlotWrite w a v => exact execFirSlotWrite_latch w a v h
  | productLineRead q e => exact execProductLineRead_latch q e h
  | lineStore n x => exact execLineStore_latch n x h
  | storeReadQueueAdvance q e => exact execStoreReadQueueAdvance_latch q e h
  | rewindBackupStart n t => exact execRewindBackupStart_latch n t h
  | rewindForwardRun x => exact execRewindForwardRun_latch x h
  | rewindScanEntry n t => exact execRewindScanEntry_latch n t h
  | rewindTimeout n => exact execRewindTimeout_latch n h
  | encoderQuietTimeout n t => exact execEncoderQuietTimeout_latch n t h
  | hostReaderEnable w n v => exact execHostReaderEnable_latch w n v h
  | hostRewindRead w n v => exact execHostRewindRead_latch w n v h
  | hostRpWrite w n hi v => exact execHostRpWrite_latch w n hi v h
  | hostMarkSet w n m v => exact execHostMarkSet_latch w n m v h
  | hostMarkClear w n m v => exact execHostMarkClear_latch w n m v h
  | sstStoreSplitWrite w v => exact execSstStoreSplitWrite_latch w v h
  | queueWrite q d fin => exact execQueueWrite_latch q d fin h
  | queueRead q second ecc => exact execQueueRead_latch q second ecc h
  | queueIdleTimeout q => exact execQueueIdleTimeout_latch q h
  | queueStallTimeout q wr => exact execQueueStallTimeout_latch q wr h
  | slabTransitArrive => exact execSlabTransitArrive_latch h
  | slabAgeFail => exact execSlabAgeFail_latch h
  | queueEnable w q v => exact execQueueEnable_latch w q v h
  | queueDisable w q v => exact execQueueDisable_latch w q v h
  | queueFlush w q => exact execQueueFlush_latch w q h
  | queueAutoDisable q => exact execQueueAutoDisable_latch q h
  | cellFire e c err busy => exact execCellFire_latch e c err busy h
  | handshakeTimeoutFault e c => exact execHandshakeTimeoutFault_latch e c h
  | seqContinue w e => exact execSeqContinue_latch w e h
  | localStoreAccess w e x => exact execLocalStoreAccess_latch w e x h
  | imageLoad w x => exact execImageLoad_latch w x h
  | imageChecksDone o t2 => exact execImageChecksDone_latch o t2 h
  | reloadCopyDone => exact execReloadCopyDone_latch h
  | reloadCancel w v => exact execReloadCancel_latch w v h
  | sealAttempt n t => exact execSealAttempt_latch n t h
  | sealThaw w n v t => exact execSealThaw_latch w n v t h
  | freezeTimeout n => exact execFreezeTimeout_latch n h
  | kruPortTrainDone pt lock ver tr => exact execKruPortTrainDone_latch pt lock ver tr h
  | kruPortRetry pt => exact execKruPortRetry_latch pt h
  | authFrameRx l k m => exact execAuthFrameRx_latch l k m h
  | discoverFrameRx l k foreign => exact execDiscoverFrameRx_latch l k foreign h
  | rosterFrameRx l k => exact execRosterFrameRx_latch l k h
  | formedFrameRx l k => exact execFormedFrameRx_latch l k h
  | timeSendTimer t => exact execTimeSendTimer_latch t h
  | timeFrameRx l k t resid => exact execTimeFrameRx_latch l k t resid h
  | alignReqRx l k => exact execAlignReqRx_latch l k h
  | alignAckRx l k t => exact execAlignAckRx_latch l k t h
  | alignLatch n => exact execAlignLatch_latch n h
  | alignSetRx l k t => exact execAlignSetRx_latch l k t h
  | alignAckTimeout n => exact execAlignAckTimeout_latch n h
  | alignSetTimeout n => exact execAlignSetTimeout_latch n h
  | tokenFrameRx l k t => exact execTokenFrameRx_latch l k t h
  | tokenTimeout n => exact execTokenTimeout_latch n h
  | hingeFrameRx l k => exact execHingeFrameRx_latch l k h
  | dovetailFrameRx l k => exact execDovetailFrameRx_latch l k h
  | kelimCredStatusRx l held rxReturned spent initAck => exact execKelimCredStatusRx_latch l held rxReturned spent initAck h
  | kruPortDead pt => exact execKruPortDead_latch pt h
  | foldFrameRx l k => exact execFoldFrameRx_latch l k h
  | foldFormedTimer t => exact execFoldFormedTimer_latch t h
  | ringReformTimeout => exact execRingReformTimeout_latch h
  | kruCfgWrite w v => exact execKruCfgWrite_latch w v h
  | streamEnable w c v => exact execStreamEnable_latch w c v h
  | streamDisable w c v => exact execStreamDisable_latch w c v h
  | hqEntryEnable w j v => exact execHqEntryEnable_latch w j v h
  | dmaTailWrite w c v => exact execDmaTailWrite_latch w c v h
  | releaseChunk c d => exact execReleaseChunk_latch c d h
  | descriptorReadError c timeout => exact execDescriptorReadError_latch c timeout h
  | datagramSend c t => exact execDatagramSend_latch c t h
  | pauseFrameRx pn quanta => exact execPauseFrameRx_latch pn quanta h
  | ethFrameDiscard pn => exact execEthFrameDiscard_latch pn h
  | ethLinkChange pn up fecLock corr uncorr => exact execEthLinkChange_latch pn up fecLock corr uncorr h
  | ethPortConfigWrite w pn k v => exact execEthPortConfigWrite_latch w pn k v h
  | ptpMessageRx pn dest domain m => exact execPtpMessageRx_latch pn dest domain m h
  | ptpSyncTimeout => exact execPtpSyncTimeout_latch h
  | pf0Flr => exact execPf0Flr_latch h
  | pf0D3hotEntry => exact execPf0D3hotEntry_latch h
  | pcieLinkLoss => exact execPcieLinkLoss_latch h
  | bar0BadAccess w a => exact execBar0BadAccess_latch w a h
  | bar2Read a x => exact execBar2Read_latch a x h
  | bar2Write a => exact execBar2Write_latch a h
  | msixMessage f v t => exact execMsixMessage_latch f v t h
  | msixUnmask f v x => exact execMsixUnmask_latch f v x h
  | spdmRequest tr v r busy => exact execSpdmRequest_latch tr v r busy h
  | stringObservation c cur mv => exact execStringObservation_latch c cur mv h
  | stringOvercurrent c => exact execStringOvercurrent_latch c h
  | diagPulse g => exact execDiagPulse_latch g h
  | patternWindowWrite w j o v => exact execPatternWindowWrite_latch w j o v h
  | patternSwapRequest w g v => exact execPatternSwapRequest_latch w g v h
  | forceOffWrite w g v => exact execForceOffWrite_latch w g v h
  | ilcTcompEnable w g v => exact execIlcTcompEnable_latch w g v h
  | stringFaultClear w c v => exact execStringFaultClear_latch w c v h
  | mfeRefEnable w v => exact execMfeRefEnable_latch w v h
  | mfeRefReady => exact execMfeRefReady_latch h
  | mfeSeqEnable w v => exact execMfeSeqEnable_latch w v h
  | mfeFrameStart => exact execMfeFrameStart_latch h
  | mfeEntrySample ab bc => exact execMfeEntrySample_latch ab bc h
  | mfeUrgentRequest w v => exact execMfeUrgentRequest_latch w v h
  | mfeBackgroundCal ground ref => exact execMfeBackgroundCal_latch ground ref h
  | mfeChainSync w v => exact execMfeChainSync_latch w v h
  | mfeOpenClear w e v => exact execMfeOpenClear_latch w e v h
  | mfeExcWrite w e v => exact execMfeExcWrite_latch w e v h
  | mfeAccSumLoRead w e => exact execMfeAccSumLoRead_latch w e h
  | mfeResRead w e => exact execMfeResRead_latch w e h
  | mfeLeafSwapRequest w c v => exact execMfeLeafSwapRequest_latch w c v h
  | mfeLeafWindowWrite w a v => exact execMfeLeafWindowWrite_latch w a v h
  | mfeOutEnable w o v => exact execMfeOutEnable_latch w o v h
  | mfeOutPeriodEnd o => exact execMfeOutPeriodEnd_latch o h
  | motionCycle => exact execMotionCycle_latch h
  | driverStatusRx a f => exact execDriverStatusRx_latch a f h
  | motionLinkLoss a => exact execMotionLinkLoss_latch a h
  | axisEnable w a v => exact execAxisEnable_latch w a v h
  | axisStop w a => exact execAxisStop_latch w a h
  | axisMove w a => exact execAxisMove_latch w a h
  | axisVel w a => exact execAxisVel_latch w a h
  | axisEstop w a => exact execAxisEstop_latch w a h
  | linearMove w v => exact execLinearMove_latch w v h
  | axisSettleDone a t => exact execAxisSettleDone_latch a t h
  | axisHoldTimeout a => exact execAxisHoldTimeout_latch a h
  | axisFaultClear w a v => exact execAxisFaultClear_latch w a v h
  | microstepTableWrite w k v => exact execMicrostepTableWrite_latch w k v h
  | thmSweep r => exact execThmSweep_latch r h
  | thmLevelStep => exact execThmLevelStep_latch h
  | thmRefTrim => exact execThmRefTrim_latch h
  | thmThresholdWrite w k v => exact execThmThresholdWrite_latch w k v h
  | roWindowEnd k count => exact execRoWindowEnd_latch k count h
  | pmbusReadbackPoll mv => exact execPmbusReadbackPoll_latch mv h
  | pmbusTransactionFail => exact execPmbusTransactionFail_latch h
  | pmbusAlert word => exact execPmbusAlert_latch word h
  | headMeasurementRead p ended => exact execHeadMeasurementRead_latch p ended h
  | mailboxTailWrite w r v => exact execMailboxTailWrite_latch w r v h
  | mailboxRspHeadWrite w r v => exact execMailboxRspHeadWrite_latch w r v h
  | mailboxCommandMalformed r => exact execMailboxCommandMalformed_latch r h
  | devInfo r => exact execDevInfo_latch r h
  | faultClear r answers => exact execFaultClear_latch r answers h
  | devReset r => exact execDevReset_latch r h
  | devResetEntry => exact execDevResetEntry_latch h
  | stDefine r => exact execStDefine_latch r h
  | stArm r t t2 west => exact execStArm_latch r t t2 west h
  | stStart x => exact execStStart_latch x h
  | stPause r t => exact execStPause_latch r t h
  | stResume r => exact execStResume_latch r h
  | stDrain x => exact execStDrain_latch x h
  | stAbort r => exact execStAbort_latch r h
  | stStage r t2 => exact execStStage_latch r t2 h
  | stQuery r => exact execStQuery_latch r h
  | worldSet r => exact execWorldSet_latch r h
  | ownerEnroll r key => exact execOwnerEnroll_latch r key h
  | ownerEnrollDone dig kekOk => exact execOwnerEnrollDone_latch dig kekOk h
  | svnCommit r => exact execSvnCommit_latch r h
  | flashWrite r => exact execFlashWrite_latch r h
  | flashWriteDone data same => exact execFlashWriteDone_latch data same h
  | workbenchTimeout => exact execWorkbenchTimeout_latch h
  | porAssert => exact execPorAssert_latch h
  | resetExit => exact execResetExit_latch h
  | perstAssert => exact execPerstAssert_latch h
  | cabinetVerifyDone a b policy mode flash ms => exact execCabinetVerifyDone_latch a b policy mode flash ms h
  | bootVcoreTimeout => exact execBootVcoreTimeout_latch h
  | hbmTrainingDone ok ms => exact execHbmTrainingDone_latch ok ms h
  | workbenchCheckDone o ms => exact execWorkbenchCheckDone_latch o ms h
  | vcoreRemoved => exact absurd rfl hc
  | serdesRefclkLoss q => exact execSerdesRefclkLoss_latch q h
  | padSlewWrite w v => exact execPadSlewWrite_latch w v h
  | sealLatencyExceeded n t => exact execSealLatencyExceeded_latch n t h
  | managementSramUncorrectable => exact execManagementSramUncorrectable_latch h
  | timebaseLock => exact execTimebaseLock_latch h
  | perstRelease => exact execPerstRelease_latch h
  | pcieLinkUp speed width => exact execPcieLinkUp_latch speed width h
  | pauseTimeExpiry pn => exact execPauseTimeExpiry_latch pn h

/-! ### What shutdown leaves alone -/

/-- What an axis fault and its event leave: the registers below the host interface, the memories, the management complex, the channels and
what has been sent. -/
structure SameBelow (s t : State) : Prop where
  low : ∀ (f : Fld) (i j : Nat), f.key i j < 0x1D00000 * 32 → t.get f i j = s.get f i j
  memory : SameMemory s t
  smc : t.smc = s.smc
  out : t.out = s.out

theorem SameBelow.refl (s : State) : SameBelow s s := ⟨fun _ _ _ _ => rfl, ⟨rfl, rfl, rfl⟩, rfl, rfl⟩

theorem SameBelow.trans {s t u : State} (h : SameBelow s t) (k : SameBelow t u) : SameBelow s u :=
  ⟨fun f i j hf => (k.low f i j hf).trans (h.low f i j hf), ⟨k.memory.1.trans h.memory.1, k.memory.2.1.trans h.memory.2.1,
    k.memory.2.2.trans h.memory.2.2⟩, k.smc.trans h.smc, k.out.trans h.out⟩

theorem SameBelow.each {α : Type} {s : State} (xs : List α) (g : State → α → State) (hg : ∀ (z : State) (x : α), x ∈ xs → SameBelow z (g z x)) :
    SameBelow s (s.each xs g) := by
  unfold State.each
  induction xs generalizing s with
  | nil => exact .refl s
  | cons x xs ih => exact (hg s x List.mem_cons_self).trans (ih fun z y hy => hg z y (List.mem_cons_of_mem x hy))

/-- A field of the motion block is set. -/
theorem SameBelow.set (s : State) {f : Fld} (v i j : Nat) (hf : 0x1D00000 ≤ f.base) : SameBelow s (s.set f v i j) := by
  refine ⟨fun g k l hg => State.get_set_ne s f g v i j k l fun hkey => ?_, ⟨rfl, rfl, rfl⟩, rfl, rfl⟩
  rw [hkey, Fld.key] at hg
  omega

theorem SameBelow.setAxis (s : State) (a : Nat) (x : Axis) : SameBelow s (s.setAxis a x) := ⟨fun _ _ _ _ => rfl, ⟨rfl, rfl, rfl⟩, rfl, rfl⟩

theorem SameBelow.raise (s : State) (n : Nat) : SameBelow s (s.raise n) :=
  ⟨fun _ _ _ hf => State.raise_get_below s n hf, ⟨State.raise_hbm .., State.raise_leaf .., State.raise_mbox ..⟩, State.raise_smc .., State.raise_out ..⟩

theorem SameBelow.aim (s : State) (a : Nat) (g : Goal) : SameBelow s (s.aim a g) := by
  unfold State.aim
  split
  · exact (SameBelow.setAxis ..).trans ((SameBelow.set _ _ _ _ (by decide)).trans (SameBelow.set _ _ _ _ (by decide)))
  · exact .refl s

theorem SameBelow.stopLin (s : State) (a : Nat) : SameBelow s (s.stopLin a) := by
  unfold State.stopLin
  dsimp only
  generalize hu : (if (s.ttc.due.any fun e => decide (e.1 = a)) = true then ({ s with ttc := { s.ttc with due := [] } } : State) else s) = u
  have hsame : SameBelow s u := by
    rw [← hu]
    split <;> exact ⟨fun _ _ _ _ => rfl, ⟨rfl, rfl, rfl⟩, rfl, rfl⟩
  split
  · split
    · refine hsame.trans (SameBelow.trans (t := { u with ttc := { u.ttc with lin := none } }) ⟨fun _ _ _ _ => rfl, ⟨rfl, rfl, rfl⟩, rfl, rfl⟩
        (SameBelow.each _ _ fun z b _ => (SameBelow.setAxis ..).trans (SameBelow.aim ..)))
    · exact hsame
  · exact hsame

theorem SameBelow.holdCoil (s : State) (a mode : Nat) : SameBelow s (s.holdCoil a mode) := by
  unfold State.holdCoil
  dsimp only
  generalize (if s.on R.TTC_AX_STATUS_PACED a = true ∧ 2 ≤ mode then 0 else mode) = m
  split
  · exact (SameBelow.setAxis ..).trans (SameBelow.set _ _ _ _ (by decide))
  · split
    · exact (SameBelow.setAxis ..).trans (SameBelow.set _ _ _ _ (by decide))
    · exact SameBelow.setAxis ..

theorem SameBelow.axisFault (s : State) (a kind : Nat) : SameBelow s (s.axisFault a kind) := by
  rw [State.axisFault_eq]
  refine SameBelow.trans ?_ (SameBelow.raise ..)
  refine SameBelow.trans ?_ ((SameBelow.set _ _ _ _ (by decide)).trans ((SameBelow.set _ _ _ _ (by decide)).trans (SameBelow.set _ _ _ _ (by decide))))
  exact (SameBelow.stopLin s a).trans ((SameBelow.setAxis ..).trans (SameBelow.holdCoil ..))

/-! ### Axes in FAULT -/

/-- An axis in FAULT with its fault bit set. -/
structure AxisDown (z : State) (a : Nat) : Prop where
  state : z.axState a = Ax.fault
  bit : z.get R.TTC_AX_STATUS_FAULT a = 1

/-- A set of a field of the motion block that is neither STATE nor FAULT of the axis. -/
theorem AxisDown.set {z : State} {b : Nat} (h : AxisDown z b) (f : Fld) (v a : Nat) (hs : R.TTC_AX_STATUS_STATE.key b 0 ≠ f.key a 0)
    (hf : R.TTC_AX_STATUS_FAULT.key b 0 ≠ f.key a 0) : AxisDown (z.set f v a) b :=
  ⟨(State.get_set_ne z f _ v a 0 b 0 hs).trans h.state, (State.get_set_ne z f _ v a 0 b 0 hf).trans h.bit⟩

theorem AxisDown.set_current {z : State} {b : Nat} (h : AxisDown z b) (v a : Nat) : AxisDown (z.set R.TTC_AX_STATUS_CURRENT v a) b := by
  refine h.set _ v a ?_ ?_ <;> simp only [Fld.key, R.TTC_AX_STATUS_STATE, R.TTC_AX_STATUS_FAULT, R.TTC_AX_STATUS_CURRENT] <;> omega

theorem AxisDown.set_state {z : State} {b : Nat} (h : AxisDown z b) (v : Nat) {a : Nat} (ha : a ≠ b) :
    AxisDown (z.set R.TTC_AX_STATUS_STATE v a) b := by
  refine h.set _ v a ?_ ?_ <;> simp only [Fld.key, R.TTC_AX_STATUS_STATE, R.TTC_AX_STATUS_FAULT] <;> omega

theorem AxisDown.faultWord {z : State} {b : Nat} (h : AxisDown z b) (kind : Nat) {a : Nat} (ha : a ≠ b) : AxisDown (z.faultWord a kind) b := by
  refine ((h.set_state Ax.fault ha).set _ 1 a ?_ ?_).set _ kind a ?_ ?_ <;>
    simp only [Fld.key, R.TTC_AX_STATUS_STATE, R.TTC_AX_STATUS_FAULT, R.TTC_AX_STATUS_KIND] <;> omega

/-- An axis in FAULT takes no new goal. -/
theorem AxisDown.aim {z : State} {b : Nat} (h : AxisDown z b) (a : Nat) (g : Goal) : AxisDown (z.aim a g) b := by
  unfold State.aim
  split
  next hready =>
    have hne : a ≠ b := by
      rintro rfl
      simp [State.axReady, h.state, Ax.fault, Ax.still, Ax.moving, Ax.atVelocity] at hready
    exact (AxisDown.set_current (z := z.setAxis a _) ⟨h.state, h.bit⟩ _ a).set_state _ hne
  · exact h

theorem AxisDown.each {α : Type} {z : State} {b : Nat} (h : AxisDown z b) (xs : List α) (g : State → α → State)
    (hg : ∀ (y : State) (x : α), AxisDown y b → AxisDown (g y x) b) : AxisDown (z.each xs g) b := by
  unfold State.each
  induction xs generalizing z with
  | nil => exact h
  | cons x xs ih => exact ih (hg z x h)

theorem AxisDown.stopLin {z : State} {b : Nat} (h : AxisDown z b) (a : Nat) : AxisDown (z.stopLin a) b := by
  unfold State.stopLin
  dsimp only
  generalize hu : (if (z.ttc.due.any fun e => decide (e.1 = a)) = true then ({ z with ttc := { z.ttc with due := [] } } : State) else z) = u
  have hdown : AxisDown u b := by
    rw [← hu]
    split <;> exact ⟨h.state, h.bit⟩
  split
  next l hl =>
    split
    · refine AxisDown.each (z := { u with ttc := { u.ttc with lin := none } }) ⟨hdown.state, hdown.bit⟩ _ _ fun y c hy => ?_
      exact AxisDown.aim (z := y.setAxis c _) ⟨hy.state, hy.bit⟩ c _
    · exact hdown
  · exact hdown

theorem AxisDown.holdCoil {z : State} {b : Nat} (h : AxisDown z b) (a mode : Nat) : AxisDown (z.holdCoil a mode) b := by
  unfold State.holdCoil
  dsimp only
  generalize (if z.on R.TTC_AX_STATUS_PACED a = true ∧ 2 ≤ mode then 0 else mode) = m
  split
  · exact AxisDown.set_current (z := z.setAxis a _) ⟨h.state, h.bit⟩ _ a
  · split
    · exact AxisDown.set_current (z := z.setAxis a _) ⟨h.state, h.bit⟩ _ a
    · exact ⟨h.state, h.bit⟩

/-- A fault of one axis leaves another in FAULT. -/
theorem AxisDown.axisFault {z : State} {b : Nat} (h : AxisDown z b) {a : Nat} (ha : a < 4) (hne : a ≠ b) (kind : Nat) :
    AxisDown (z.axisFault a kind) b := by
  have hrest : AxisDown (z.faultRest a) b := AxisDown.holdCoil (z := (z.stopLin a).setAxis a _) ⟨(h.stopLin a).state, (h.stopLin a).bit⟩ a _
  obtain ⟨hstate, hbit⟩ := hrest.faultWord kind hne
  have hget (f : Fld) (hf : 0x1E00000 * 32 ≤ f.key b 0) : (z.axisFault a kind).get f b = ((z.faultRest a).faultWord a kind).get f b :=
    State.raise_get_above _ (evAxisFault a) (by rw [evAxisFault]; omega) hf
  refine ⟨(hget _ ?_).trans hstate, (hget _ ?_).trans hbit⟩ <;> simp only [Fld.key, R.TTC_AX_STATUS_STATE, R.TTC_AX_STATUS_FAULT] <;> omega

/-- With no station busy no axis is paced, and shutdown of an axis is its fault alone. -/
theorem State.shutAxis_idle {z : State} (hidle : ∀ n, n < 8 → z.stBusy n = false) (a : Nat) :
    z.shutAxis a = z.takeFresh.2.axisFault a (Config.freeKind z.fresh % 8) := by
  have hpacer : z.takeFresh.2.pacer a = none := List.find?_eq_none.2 fun n hn => by
    have hbusy : z.takeFresh.2.stBusy n = false := hidle n (List.mem_range.1 hn)
    simp [hbusy]
  rw [State.shutAxis, State.faultWith, hpacer]

/-- Stations stay idle where the registers below the host interface stand. -/
theorem SameBelow.idle {s t : State} (h : SameBelow s t) (hidle : ∀ n, n < 8 → s.stBusy n = false) : ∀ n, n < 8 → t.stBusy n = false := by
  intro n hn
  have hstate : t.stState n = s.stState n := h.low _ _ _ (by simp only [Fld.key, R.SMC_ST_STATE_STATE]; omega)
  rw [State.stBusy, hstate]
  exact hidle n hn

/-- Shutdown of the axes in turn takes each to FAULT and leaves the rest of the device. -/
theorem eachShutAxis {z : State} (hidle : ∀ n, n < 8 → z.stBusy n = false) (as : List Nat) (has : ∀ a ∈ as, a < 4) :
    SameBelow z (z.each as State.shutAxis) ∧ ∀ b, (b ∈ as ∨ AxisDown z b) → AxisDown (z.each as State.shutAxis) b := by
  unfold State.each
  induction as generalizing z with
  | nil => exact ⟨.refl z, fun b hb => hb.resolve_left List.not_mem_nil⟩
  | cons a as ih =>
    have ha := has a List.mem_cons_self
    have hshut := State.shutAxis_idle hidle a
    have hsame : SameBelow z (z.shutAxis a) := by
      rw [hshut]
      exact SameBelow.trans (t := z.takeFresh.2) ⟨fun _ _ _ _ => rfl, ⟨rfl, rfl, rfl⟩, rfl, rfl⟩ (SameBelow.axisFault ..)
    obtain ⟨hrest, hdown⟩ := ih (hsame.idle hidle) fun b hb => has b (List.mem_cons_of_mem a hb)
    refine ⟨hsame.trans hrest, fun b hb => hdown b ?_⟩
    by_cases hba : a = b
    · subst hba
      obtain ⟨hstate, hbit, -⟩ := State.axisFault_status z.takeFresh.2 ha (Config.freeKind z.fresh % 8)
      exact .inr (hshut ▸ ⟨hstate, hbit⟩)
    · obtain hmem | hold := hb
      · exact .inl ((List.mem_cons.1 hmem).resolve_left fun h => hba h.symm)
      · exact .inr (hshut ▸ AxisDown.axisFault (z := z.takeFresh.2) ⟨hold.state, hold.bit⟩ ha hba _)

/-! ### Gates -/

/-- Channels with a gate that is high go low, in turn, and nothing else happens. -/
theorem State.gatesLow_shows {z : State} (cs : List Nat) (hcs : cs.Nodup) (hshown : ∀ c, z.silent (.gateLow c) = false) :
    (z.gatesLow cs).out = z.out ++ (cs.filter fun c => !(z.chan c).gates.isEmpty).map Output.gateLow ∧ (z.gatesLow cs).regs = z.regs ∧
      SameMemory z (z.gatesLow cs) ∧ (z.gatesLow cs).smc = z.smc := by
  unfold State.gatesLow State.each
  induction cs generalizing z with
  | nil => exact ⟨(List.append_nil _).symm, rfl, ⟨rfl, rfl, rfl⟩, rfl⟩
  | cons c cs ih =>
    obtain ⟨hnew, hnodup⟩ := List.nodup_cons.1 hcs
    rw [List.foldl_cons]
    cases hgates : (z.chan c).gates.isEmpty with
    | true =>
      rw [if_pos rfl, List.filter_cons_of_neg (by simp [hgates])]
      exact ih hnodup hshown
    | false =>
      rw [if_neg Bool.false_ne_true, List.filter_cons_of_pos (by simp [hgates])]
      generalize hu : (z.setChan c { z.chan c with gates := [] }).emit (.gateLow c) = u
      have hout : u.out = z.out ++ [.gateLow c] := by
        rw [← hu]
        exact State.emit_out _ _ (hshown c)
      have hregs : u.regs = z.regs := by
        rw [← hu]
        exact State.emit_regs ..
      have hsame : SameMemory z u ∧ u.smc = z.smc := by
        rw [← hu]
        exact ⟨⟨State.emit_hbm .., State.emit_leaf .., State.emit_mbox ..⟩, State.emit_smc ..⟩
      have hchan : ∀ d ∈ cs, u.chan d = z.chan d := by
        intro d hd
        rw [← hu]
        exact (congrArg (fun i : Ilc => SMap.get i.chan {} d) (State.emit_ilc ..)).trans
          (State.setChan_chan_ne z c _ d fun h => hnew (h ▸ hd))
      have hquiet : ∀ d, u.silent (.gateLow d) = false := by
        intro d
        rw [State.silent, State.get, hregs]
        exact hshown d
      obtain ⟨hrest, hregsRest, ⟨hhbm, hleaf, hmbox⟩, hsmc⟩ := ih (z := u) hnodup hquiet
      obtain ⟨⟨hhbm0, hleaf0, hmbox0⟩, hsmc0⟩ := hsame
      refine ⟨?_, hregsRest.trans hregs, ⟨hhbm.trans hhbm0, hleaf.trans hleaf0, hmbox.trans hmbox0⟩, hsmc.trans hsmc0⟩
      rw [hrest, hout, List.filter_congr fun d hd => congrArg (fun k : Chan => !k.gates.isEmpty) (hchan d hd), List.append_assoc]
      rfl

/-! ### Shutdown -/

/-- The trip and the latch, before the gates and the axes. -/
def State.tripped (s : State) : State := (((s.emit (.pin "THERM_TRIP_N" 0 0)).set R.THM_STATUS_TRIP 1).setDev Dev.thermalLatch).raise evShutdown

theorem State.setDev_frame (s : State) (d : Nat) : (s.setDev d).out = s.out ∧ SameMemory s (s.setDev d) ∧ (s.setDev d).smc = s.smc ∧
    (s.setDev d).ilc = s.ilc ∧ ∀ (f : Fld) (i j : Nat), f.key i j < 0x1D00000 * 32 → f.key i j ≠ R.SMC_DEV_STATE_STATE.key 0 0 →
      (s.setDev d).get f i j = s.get f i j := by
  unfold State.setDev
  split
  · exact ⟨rfl, ⟨rfl, rfl, rfl⟩, rfl, rfl, fun _ _ _ _ _ => rfl⟩
  · refine ⟨State.raise_out .., ⟨State.raise_hbm .., State.raise_leaf .., State.raise_mbox ..⟩, State.raise_smc .., State.raise_ilc ..,
      fun f i j hlow hne => ?_⟩
    rw [State.raise_get_below _ _ hlow]
    exact State.get_set_ne _ _ _ _ _ _ _ _ hne

/-- A device set to THERMAL_LATCH is latched. -/
theorem State.setDev_thermalLatch (s : State) : Latched (s.setDev Dev.thermalLatch) := by
  unfold State.setDev
  split
  next h => exact h
  · exact State.raise_latch _ (State.get_set_self ..)

theorem State.tripped_latch (s : State) : Latched s.tripped := State.raise_latch _ (State.setDev_thermalLatch _)

/-- What the trip shows before the gates and the axes. -/
theorem State.tripped_shows {s : State} (hheld : s.held = false) : s.tripped.out = s.out ++ [.pin "THERM_TRIP_N" 0 0] ∧
    SameMemory s s.tripped ∧ s.tripped.smc = s.smc ∧ s.tripped.ilc = s.ilc ∧ s.tripped.get R.THM_STATUS_TRIP = 1 ∧
    ∀ n, n < 8 → s.tripped.stBusy n = s.stBusy n := by
  generalize hu : (s.emit (.pin "THERM_TRIP_N" 0 0)).set R.THM_STATUS_TRIP 1 = u
  obtain ⟨hout, ⟨hhbm, hleaf, hmbox⟩, hsmc, hilc, hget⟩ := State.setDev_frame u Dev.thermalLatch
  have htripped : s.tripped = (u.setDev Dev.thermalLatch).raise evShutdown := by rw [← hu]; rfl
  refine ⟨?_, ⟨?_, ?_, ?_⟩, ?_, ?_, ?_, fun n hn => ?_⟩
  all_goals rw [htripped]
  · rw [State.raise_out, hout, ← hu]
    exact State.emit_out _ _ (State.silent_eq_false hheld rfl)
  · rw [State.raise_hbm, hhbm, ← hu]
    exact State.emit_hbm ..
  · rw [State.raise_leaf, hleaf, ← hu]
    exact State.emit_leaf ..
  · rw [State.raise_mbox, hmbox, ← hu]
    exact State.emit_mbox ..
  · rw [State.raise_smc, hsmc, ← hu]
    exact State.emit_smc ..
  · rw [State.raise_ilc, hilc, ← hu]
    exact State.emit_ilc ..
  · rw [State.raise_get_below _ _ (by decide), hget _ _ _ (by decide) (by decide), ← hu]
    exact State.get_set_self ..
  · have hlow : R.SMC_ST_STATE_STATE.key n 0 < 0x1D00000 * 32 := by
      simp only [Fld.key, R.SMC_ST_STATE_STATE]
      omega
    have hstate : ((u.setDev Dev.thermalLatch).raise evShutdown).stState n = s.stState n := by
      rw [State.stState, State.raise_get_below _ _ hlow, hget _ _ _ hlow (Fld.key_ne_devState (by decide) n 0), ← hu,
        State.get_set_ne _ _ _ _ _ _ _ _ (by simp only [Fld.key, R.SMC_ST_STATE_STATE, R.THM_STATUS_TRIP]; omega)]
      exact congrArg (fun r => SMap.get r (R.SMC_ST_STATE_STATE.resetAt n) (R.SMC_ST_STATE_STATE.key n 0)) (State.emit_regs ..)
    rw [State.stBusy, hstate]
    rfl

/-- What shutdown leaves of a boot in progress, with the HBM in self-refresh. -/
def State.asleep (s : State) : State :=
  { s with smc := { s.smc with hbmRun := false, wbRun := false, hbmRefresh := true },
           pace := { s.pace with waits := s.pace.waits.filter (· ≠ .boot) } }

theorem State.shutdown_eq (s : State) : s.shutdown =
    ((((s.tripped.gatesLow channels96).each axes4 State.shutAxis).endRunning 0 fun _ => true).endRunning 1 fun _ => true).asleep := by
  simp only [State.shutdown, State.asleep, State.tripped, State.each, List.foldl_cons, List.foldl_nil]

/-- Shutdown of a device with nothing that runs: the trip, the gates and the axes. -/
theorem shutdown_idle {s : State} (hidle : ∀ n, n < 8 → s.stBusy n = false) (hrun0 : (s.ring 0).run = none)
    (hrun1 : (s.ring 1).run = none) (hheld : s.held = false) :
    s.shutdown.get R.THM_STATUS_TRIP = 1 ∧ s.shutdown.dev = Dev.thermalLatch ∧ (∀ a, a < 4 → AxisDown s.shutdown a) ∧
      s.shutdown.smc.hbmRefresh = true ∧ SameMemory s s.shutdown ∧
      s.shutdown.out = s.out ++ [.pin "THERM_TRIP_N" 0 0] ++ ((List.range 96).filter fun c => !(s.chan c).gates.isEmpty).map Output.gateLow := by
  obtain ⟨hout, ⟨hhbm, hleaf, hmbox⟩, hsmc, hilc, htrip, hbusy⟩ := State.tripped_shows hheld
  have hlatch := State.tripped_latch s
  have hquiet (c : Nat) : s.tripped.silent (.gateLow c) = false := by
    have hdev : s.tripped.get R.SMC_DEV_STATE_STATE = Dev.thermalLatch := hlatch
    rw [State.silent, hdev]
    rfl
  obtain ⟨hgout, hgregs, ⟨hghbm, hgleaf, hgmbox⟩, hgsmc⟩ := State.gatesLow_shows channels96 List.nodup_range hquiet
  generalize hg : s.tripped.gatesLow channels96 = g at hgout hgregs hghbm hgleaf hgmbox hgsmc
  have hgget (f : Fld) (i j : Nat) : g.get f i j = s.tripped.get f i j := State.get_of_regs hgregs f i j
  have hgidle : ∀ n, n < 8 → g.stBusy n = false := by
    intro n hn
    rw [State.stBusy, State.stState, hgget]
    exact (hbusy n hn).trans (hidle n hn)
  obtain ⟨hsame, hdown⟩ := eachShutAxis hgidle axes4 fun a ha => List.mem_range.1 ha
  generalize hx : g.each axes4 State.shutAxis = x at hsame hdown
  obtain ⟨hlow, ⟨hxhbm, hxleaf, hxmbox⟩, hxsmc, hxout⟩ := hsame
  have hring (r : Nat) : x.ring r = s.ring r := by rw [State.ring, hxsmc, hgsmc, hsmc, State.ring]
  have hruns : (x.endRunning 0 fun _ => true).endRunning 1 (fun _ => true) = x := by
    rw [State.endRunning_none (r := 0) (by rw [hring, hrun0]), State.endRunning_none (by rw [hring, hrun1])]
  have hshut : s.shutdown = x.asleep := by
    rw [State.shutdown_eq, hg, hx, hruns]
  rw [hshut]
  refine ⟨(hlow _ _ _ (by decide)).trans ((hgget ..).trans htrip), (hlow _ _ _ (by decide)).trans ((hgget ..).trans hlatch),
    fun a ha => ?_, rfl, ⟨hxhbm.trans (hghbm.trans hhbm), hxleaf.trans (hgleaf.trans hleaf), hxmbox.trans (hgmbox.trans hmbox)⟩, ?_⟩
  · obtain ⟨hstate, hbit⟩ := hdown a (.inl (List.mem_range.2 ha))
    exact ⟨hstate, hbit⟩
  · have hchan (c : Nat) : s.tripped.chan c = s.chan c := congrArg (fun i : Ilc => SMap.get i.chan {} c) hilc
    refine hxout.trans (hgout.trans ?_)
    simp only [hout, hchan]
    rfl

theorem shutdownStopsTheDevice (s : State) (htrip : s.on R.THM_STATUS_TRIP = false)
    (hhot : (s.validAbove (s.getS R.THM_THR_SHUT_LEVEL) = true ∧ 3 ≤ s.thm.shut) ∨ 12 ≤ s.get R.THM_FAIL_COUNT)
    (hidle : ∀ n, n < 8 → s.stBusy n = false) (hrun0 : (s.ring 0).run = none) (hrun1 : (s.ring 1).run = none) (hheld : s.held = false) :
    let t := s.judgeShutdown
    t.get R.THM_STATUS_TRIP = 1 ∧ t.dev = Dev.thermalLatch ∧ (∀ a : Fin 4, t.axState a = Ax.fault ∧ t.get R.TTC_AX_STATUS_FAULT a = 1) ∧
      t.smc.hbmRefresh = true ∧ SameMemory s t ∧
      t.out = s.out ++ [.pin "THERM_TRIP_N" 0 0] ++ ((List.range 96).filter fun c => !(s.chan c).gates.isEmpty).map Output.gateLow := by
  intro t
  generalize hcount : (if s.validAbove (s.getS R.THM_THR_SHUT_LEVEL) then min 4 (s.thm.shut + 1) else 0) = n
  have hdue : 4 ≤ n ∨ 12 ≤ s.get R.THM_FAIL_COUNT := by
    obtain ⟨hvalid, hrow⟩ | hfailed := hhot
    · rw [hvalid, if_pos rfl] at hcount
      omega
    · exact .inr hfailed
  have hshut : t = (s.setThm { s.thm with shut := n }).shutdown := by
    change s.judgeShutdown = _
    rw [State.judgeShutdown, hcount]
    exact if_pos ⟨htrip, hdue⟩
  obtain ⟨htripped, hdev, hdown, hrefresh, hmem, hout⟩ := shutdown_idle (s := s.setThm { s.thm with shut := n }) hidle hrun0 hrun1 hheld
  rw [hshut]
  exact ⟨htripped, hdev, fun a => ⟨(hdown a a.isLt).state, (hdown a a.isLt).bit⟩, hrefresh, hmem, hout⟩

/-- Settles O50: shutdown is followed through the trip, the gates and the axes; the latch stands under every command by `exec_latch`. -/
theorem thermalShutdown : Obligations.ThermalShutdown := by
  refine ⟨shutdownStopsTheDevice, fun c s hlatch hc => ?_, fun s hcool hfew => ?_⟩
  · have h := exec_latch c hc hlatch
    cases he : exec c s with
    | next t => exact ⟨t, rfl, by rwa [he] at h⟩
    | fault r | refused r => rw [he] at h; exact h.elim
  · rw [State.judgeShutdown, hcool, if_neg Bool.false_ne_true]
    refine if_neg ?_
    rintro ⟨-, hlong | hmany⟩
    · exact absurd hlong (by decide)
    · exact Nat.not_le.2 hfew hmany

end Sys2Proof.Machine
end
